-- ==== Sys2Proof/Word.lean ====
section
/-! DEFINITION. The words the model computes with, and the records a command carries (R13–R16, R63, R87, R98). -/
namespace Sys2Proof

/-- A register word: fabric registers are 32 bits wide (R15, R35). -/
abbrev Word := BitVec 32

/-- One byte of a payload, record or buffer (R14). -/
abbrev Byte := BitVec 8

/-- The access codes of R16. -/
inductive Access where
  | ro | rw | rw1c | w1s | wo | rwo | rwl | rws
deriving DecidableEq, Repr

/-- One field row of a register table: bits `hi` down to `lo`, access code, reset value by innermost index
(one entry: the same for every index). -/
structure FieldSpec where
  name  : String
  hi    : Nat
  lo    : Nat
  acc   : Access
  reset : List Nat
deriving DecidableEq, Repr

/-- One index of a register name: the first index, how many there are, and the address step. -/
structure Dim where
  first  : Nat
  count  : Nat
  stride : Nat
deriving DecidableEq, Repr

/-- One register row: name, fabric address at index 0, its indices, its fields (bits without a field are reserved). -/
structure RegSpec where
  name   : String
  base   : Nat
  dims   : List Dim
  fields : List FieldSpec
deriving DecidableEq, Repr

/-- A field of one register instance: fabric address, lowest bit, width. -/
structure Field where
  addr : Nat
  lo   : Nat
  w    : Nat
deriving DecidableEq, Repr

/-- The principal classes of R63, in the order of their codes. -/
inductive Cls where
  | pub | portAdmin | slice | observer | manager | officer | service
deriving DecidableEq, Repr

/-- Who makes a register access (R74, R87, R187): a Fobor core pair, a Vocel channel (port × 8 + channel), the
sideband endpoint, or the service port. -/
inductive Master where
  | pair (p : Fin 8)
  | chan (c : Fin 32)
  | sideband
  | svcPort
deriving DecidableEq, Repr

/-- The path a session is bound to (R66): the DOE mailbox of a port, or the sideband. -/
inductive SPath where
  | doe (p : Fin 4)
  | sideband
deriving DecidableEq, Repr

/-- A Vocel request as it is posted (R98, R99, R104). `ch` is port × 8 + channel, or 32 for the sideband endpoint.
`payload` is what follows the header as it lies on the transport; `opened` is what AES-256-GCM gives for the record
of a session request: the inner payload, or nothing when the tag does not verify. -/
structure Rq where
  ch      : Fin 33
  flags   : BitVec 16
  tag     : Word
  plen    : Nat
  session : Nat
  payload : List Byte
  opened  : Option (List Byte)
deriving DecidableEq, Repr

/-- An NVMe admin command of one port's admin queue: command identifier, namespace, the address in its PRP entry 1,
command dwords 10 to 15, and the data the host's pointer gives (for commands that take data). -/
structure AdminCmd where
  port  : Fin 4
  cid   : Nat
  nsid  : Nat
  prp1  : Nat
  cdw10 : Word
  cdw11 : Word
  cdw12 : Word
  cdw13 : Word
  cdw14 : Word
  cdw15 : Word
  data  : List Byte
deriving DecidableEq, Repr

/-- The shape of a command's SGL or PRP list as the fetch finds it (R139). -/
inductive DataPtr where
  /-- PRP entries. -/
  | prp
  /-- An SGL: the types of its descriptors in order, and the bytes they describe in all. -/
  | sgl (descTypes : List Nat) (bytes : Nat)
deriving DecidableEq, Repr

/-- An NVMe I/O command of queue `qid` of a port: starting LBA (command dwords 10 and 11), 0's based block count, command dwords
3, 12 and 13, the host range its pointer names, and the host's data: one 4 KiB or 512 B block a list entry, or for Dataset Management
one 16-byte range a list entry. -/
structure IoCmd where
  port  : Fin 4
  qid   : Nat
  cid   : Nat
  nsid  : Nat
  slba  : Nat
  nlb   : Nat
  cdw3  : Word
  cdw12 : Word
  cdw13 : Word
  ptr   : DataPtr
  dmaLo : Nat
  dmaHi : Nat
  data  : List Nat
deriving DecidableEq, Repr

/-- What the decoders find in a codeword (R302): success at the current step, success after `k` retry steps, success of
the soft decode, or none. -/
inductive Decode where
  | hard
  | retry (k : Nat)
  | soft
  | fail
deriving DecidableEq, Repr

/-- What a protected word holds (the contents of R406). -/
inductive MemWhat where
  /-- Nothing the table of R406 names. -/
  | plain
  /-- A staging copy, by its staging slot. -/
  | staging (slot : Nat)
  /-- The journal tail or firmware's progress records: kept in two copies. -/
  | twoCopies
  /-- A zone descriptor. -/
  | zone (z : Nat)
  /-- Extent lists, run records, the conventional map. -/
  | tables
  /-- The self-test region. -/
  | selftest
  /-- A slab buffer of a host write before step 7, or of a read after decryption: the command's context, and whether the
  second attempt failed too. -/
  | slab (x : Nat) (again : Bool)
  /-- The tags of a buffer. -/
  | tag (pool i : Nat)
  /-- The tightly coupled SRAM of a pair. -/
  | tcm (p : Fin 8)
  /-- A command context or a queue entry that serves one. -/
  | context (x : Nat)
  /-- A key-store slot. -/
  | key (slot : Nat)
  /-- The message buffers of a mailbox or sideband channel. -/
  | mailbox (ch : Nat)
deriving DecidableEq, Repr

/-- What faults have left in a protected word that is read, and what the word holds (R403–R406): for DRAM the devices of its code
group that read wrong and over how many symbols; for SRAM, as device 0, how many of its bits. -/
structure MemErr where
  raw  : List (Nat × Nat)
  what : MemWhat
deriving DecidableEq, Repr

/-- A measurement item of a ledger entry (R491, R492). -/
structure MItem where
  comp    : Nat
  digest  : List Byte
  version : Nat
  svn     : Nat
deriving DecidableEq, Repr

end Sys2Proof
end

