-- ==== Sys2Proof/Syntax.lean ====
section
/-! DEFINITION. The commands of the block: one constructor per row of the opcode table. -/
namespace Sys2Proof

/-- A command (the rows of spec/opcode_table.json, in the table's order). -/
inductive Instr where
  /-- REGISTER_WRITE (R16). -/
  | registerWrite (m : Master) (a : Nat) (v : Word) (n : Nat)
  /-- LATCHED_LO_READ (R35). -/
  | latchedLoRead (m : Master) (a n : Nat)
  /-- ACM_LOCK (R70). -/
  | acmLock (m : Master)
  /-- ADMIN_SQ_TAIL_DOORBELL (R138). -/
  | adminSqTailDoorbell (p : Fin 4) (v : Nat)
  /-- ADMIN_CQ_HEAD_DOORBELL (R141). -/
  | adminCqHeadDoorbell (p : Fin 4) (v : Nat)
  /-- BAR0_DOORBELL_INVALID (R44). -/
  | bar0DoorbellInvalid (p : Fin 4) (off : Nat)
  /-- SQ_TAIL_DOORBELL (R46). -/
  | sqTailDoorbell (p : Fin 4) (page q v : Nat) (pasid : Option Nat)
  /-- CQ_HEAD_DOORBELL (R141). -/
  | cqHeadDoorbell (p : Fin 4) (page q v : Nat) (pasid : Option Nat)
  /-- SQE_FETCH (R138). -/
  | sqeFetch (p : Fin 4) (q cid opc nsid slba : Nat)
  /-- PLACEMENT_DECISION (R244). -/
  | placementDecision (x : Nat)
  /-- XTE_ENCRYPT (R465). -/
  | xteEncrypt (x u : Nat) (agree : Bool)
  /-- XTE_DECRYPT (R465). -/
  | xteDecrypt (x u : Nat) (agree : Bool)
  /-- STAGING_COPY (R48). -/
  | stagingCopy (x u : Nat)
  /-- COMPLETION_POST (R141). -/
  | completionPost (x : Nat)
  /-- STRIPE_ASSEMBLE (R299). -/
  | stripeAssemble (n : Nat)
  /-- STRIPE_CLOSE (R217). -/
  | stripeClose (n : Nat)
  /-- FOLD_START (R256). -/
  | foldStart (zoned : Bool) (obj : Nat)
  /-- COMPUTE_RESET_RELEASE (R599). -/
  | computeResetRelease
  /-- DROPOUT (R437). -/
  | dropout (v : Nat)
  /-- EMERGENCY_FLUSH_DONE (R449). -/
  | emergencyFlushDone
  /-- EMERGENCY_INDEX_PROGRAMMED (R450). -/
  | emergencyIndexProgrammed
  /-- LOCKSTEP_MISMATCH (R56). -/
  | lockstepMismatch (p : Fin 8)
  /-- CORE_WATCHDOG_EXPIRY (R56). -/
  | coreWatchdogExpiry (p : Fin 8)
  /-- TCM_UE (R406). -/
  | tcmUe (p : Fin 8)
  /-- SPARE_TAKEOVER (R56). -/
  | spareTakeover
  /-- TIME_CEILING_STORE (R60). -/
  | timeCeilingStore
  /-- TIME_CEILING_HOLD (R60). -/
  | timeCeilingHold
  /-- CRYSTAL_STOP (R62). -/
  | crystalStop
  /-- CRYSTAL_RETURN (R62). -/
  | crystalReturn
  /-- CLASP_POWER_UP (R599). -/
  | claspPowerUp (vin bank : Nat)
  /-- SPDM_GET_VERSION (R109). -/
  | spdmGetVersion (t : SPath)
  /-- SPDM_GET_CAPABILITIES (R109). -/
  | spdmGetCapabilities (t : SPath)
  /-- SPDM_NEGOTIATE_ALGORITHMS (R109). -/
  | spdmNegotiateAlgorithms (t : SPath) (offered : Bool)
  /-- SPDM_GET_DIGESTS (R109). -/
  | spdmGetDigests (t : SPath)
  /-- SPDM_GET_CERTIFICATE (R109). -/
  | spdmGetCertificate (t : SPath) (slot off len : Nat)
  /-- SPDM_CHALLENGE (R109). -/
  | spdmChallenge (t : SPath) (slot : Nat) (nonce : List Byte)
  /-- SPDM_GET_MEASUREMENTS (R502). -/
  | spdmGetMeasurements (t : SPath) (slot : Nat) (nonce : List Byte)
  /-- SPDM_KEY_EXCHANGE (R64). -/
  | spdmKeyExchange (t : SPath) (slot : Nat) (both : Bool) (hb : Nat)
  /-- SPDM_FINISH (R65). -/
  | spdmFinish (t : SPath) (id : Nat) (root : List Byte) (ok : Bool)
  /-- SPDM_HEARTBEAT (R68). -/
  | spdmHeartbeat (id : Nat)
  /-- SPDM_KEY_UPDATE (R109). -/
  | spdmKeyUpdate (id : Nat)
  /-- SPDM_END_SESSION (R68). -/
  | spdmEndSession (id : Nat)
  /-- SPDM_UNSUPPORTED_REQUEST (R109). -/
  | spdmUnsupportedRequest (t : SPath) (code : Byte)
  /-- SESSION_HEARTBEAT_TIMEOUT (R68). -/
  | sessionHeartbeatTimeout (id : Nat)
  /-- CARD_DRAIN_END (R88). -/
  | cardDrainEnd (id : Nat)
  /-- CARD_RELEASE (R90). -/
  | cardRelease (r : Rq)
  /-- CARD_LIST (R91). -/
  | cardList (r : Rq)
  /-- ACM_CARD_QUERY (R87). -/
  | acmCardQuery (m : Master) (v : Word)
  /-- SVC_IDCODE (R92). -/
  | svcIdcode
  /-- SVC_BYPASS (R92). -/
  | svcBypass (ins : Nat)
  /-- SVC_CHALLENGE (R92). -/
  | svcChallenge
  /-- SVC_RESPONSE (R92). -/
  | svcResponse (sig : List Byte)
  /-- SVC_CHALLENGE_EXPIRY (R93). -/
  | svcChallengeExpiry
  /-- SVC_BOUNDARY_SCAN (R94). -/
  | svcBoundaryScan (ins : Nat)
  /-- MAILBOX_LATE_WRITE (R100). -/
  | mailboxLateWrite (ch : Fin 32) (off : Nat) (bytes : List Byte)
  /-- MAILBOX_UNKNOWN_OPCODE (R111). -/
  | mailboxUnknownOpcode (opc : Nat) (r : Rq)
  /-- VOLLEY_TIMEOUT (R115). -/
  | volleyTimeout (ch : Fin 33)
  /-- MCTP_SET_ENDPOINT_ID (R106). -/
  | mctpSetEndpointId (eid : Byte)
  /-- MCTP_GET_ENDPOINT_ID (R106). -/
  | mctpGetEndpointId
  /-- MCTP_GET_VERSION_SUPPORT (R106). -/
  | mctpGetVersionSupport
  /-- MCTP_GET_MESSAGE_TYPE_SUPPORT (R106). -/
  | mctpGetMessageTypeSupport
  /-- NVME_MI_READ_DATA_STRUCTURE (R106). -/
  | nvmeMiReadDataStructure (dtyp port : Nat)
  /-- NVME_MI_SUBSYSTEM_HEALTH_POLL (R106). -/
  | nvmeMiSubsystemHealthPoll
  /-- NVME_MI_CONTROLLER_HEALTH_POLL (R106). -/
  | nvmeMiControllerHealthPoll (first count : Nat)
  /-- MCTP_DROPPED_TYPE (R106). -/
  | mctpDroppedType (ty : Byte)
  /-- SMBUS_PEC_ERROR (R106). -/
  | smbusPecError
  /-- NVME_MI_BASIC_READ (R107). -/
  | nvmeMiBasicRead
  /-- SIDEBAND_BUS_RESET (R68). -/
  | sidebandBusReset
  /-- DOE_DISCOVERY (R108). -/
  | doeDiscovery (p : Fin 4) (idx : Nat)
  /-- DOE_INVALID_OBJECT (R108). -/
  | doeInvalidObject (p : Fin 4) (vid ty : Nat)
  /-- GET_IDENTITY (R121). -/
  | getIdentity (r : Rq)
  /-- GET_CAPS (R121). -/
  | getCaps (r : Rq)
  /-- GET_OPCODES (R121). -/
  | getOpcodes (r : Rq)
  /-- GET_SESSION (R121). -/
  | getSession (r : Rq)
  /-- GET_HEALTH (R121). -/
  | getHealth (r : Rq)
  /-- REG_READ (R119). -/
  | regRead (r : Rq)
  /-- REG_WRITE (R119). -/
  | regWrite (r : Rq)
  /-- SLICE_CREATE (R615). -/
  | sliceCreate (r : Rq)
  /-- SLICE_DELETE (R185). -/
  | sliceDelete (r : Rq)
  /-- SLICE_BIND_PORT (R615). -/
  | sliceBindPort (r : Rq)
  /-- SLICE_UNBIND_PORT (R615). -/
  | sliceUnbindPort (r : Rq)
  /-- SLICE_SET_SHARES (R177). -/
  | sliceSetShares (r : Rq)
  /-- SLICE_RESET (R180). -/
  | sliceReset (r : Rq)
  /-- SLICE_QUERY (R186). -/
  | sliceQuery (r : Rq)
  /-- SLICE_BIND_CHANNEL (R103). -/
  | sliceBindChannel (r : Rq)
  /-- SLICE_UNBIND_CHANNEL (R103). -/
  | sliceUnbindChannel (r : Rq)
  /-- NS_CREATE (R191). -/
  | nsCreate (r : Rq)
  /-- NS_DELETE (R172). -/
  | nsDelete (r : Rq)
  /-- CLASS_READ (R262). -/
  | classRead (r : Rq)
  /-- CLASS_WRITE (R234). -/
  | classWrite (r : Rq)
  /-- CLASS_MASK_SET (R237). -/
  | classMaskSet (r : Rq)
  /-- PLACEMENT_STATUS (R262). -/
  | placementStatus (r : Rq)
  /-- UMP_STATUS (R434). -/
  | umpStatus (r : Rq)
  /-- UMP_SET_BUDGET (R412). -/
  | umpSetBudget (r : Rq)
  /-- UMP_SET_PP_LIMIT (R434). -/
  | umpSetPpLimit (r : Rq)
  /-- KEY_MAP_READ (R477). -/
  | keyMapRead (r : Rq)
  /-- KEY_GENERATE (R474). -/
  | keyGenerate (r : Rq)
  /-- KEY_IMPORT (R474). -/
  | keyImport (r : Rq)
  /-- KEY_BIND (R474). -/
  | keyBind (r : Rq)
  /-- KEY_REWRITE_DRBG (R474). -/
  | keyRewriteDrbg (r : Rq)
  /-- KEY_REWRITE_IMPORT (R474). -/
  | keyRewriteImport (r : Rq)
  /-- KEY_WRITE_WAIT_TIMEOUT (R460). -/
  | keyWriteWaitTimeout (slot : Nat)
  /-- KEY_ZEROISE (R475). -/
  | keyZeroise (r : Rq)
  /-- NAMESPACE_RELEASE_DONE (R475). -/
  | namespaceReleaseDone (nsid : Nat)
  /-- NS_CRYPTO_ERASE (R476). -/
  | nsCryptoErase (r : Rq)
  /-- CRYPTO_ERASE_DRAINED (R476). -/
  | cryptoEraseDrained (nsid : Nat)
  /-- MGR_ANCHOR_WRITE (R478). -/
  | mgrAnchorWrite (r : Rq)
  /-- OFC_ANCHOR_WRITE (R69). -/
  | ofcAnchorWrite (r : Rq)
  /-- SIGNET_INFO (R501). -/
  | signetInfo (r : Rq)
  /-- SIGNET_READ (R501). -/
  | signetRead (r : Rq)
  /-- SIGNET_CHAIN (R501). -/
  | signetChain (r : Rq)
  /-- LOCKET_INFO (R585). -/
  | locketInfo (r : Rq)
  /-- LOCKET_READ (R586). -/
  | locketRead (r : Rq)
  /-- LOCKET_FREEZE (R587). -/
  | locketFreeze (r : Rq)
  /-- LOCKET_THAW (R587). -/
  | locketThaw (r : Rq)
  /-- FW_SLOT_INFO (R554). -/
  | fwSlotInfo (r : Rq)
  /-- FW_DOWNLOAD (R544). -/
  | fwDownload (r : Rq)
  /-- FW_COMMIT_STORE (R545). -/
  | fwCommitStore (r : Rq)
  /-- FW_COMMIT_STORE_ACTIVATE (R545). -/
  | fwCommitStoreActivate (r : Rq)
  /-- FW_COMMIT_ACTIVATE (R545). -/
  | fwCommitActivate (r : Rq)
  /-- FW_INBAND_ENABLE (R554). -/
  | fwInbandEnable (r : Rq)
  /-- UCODE_LOAD (R357). -/
  | ucodeLoad (r : Rq)
  /-- SETTINGS_READ (R554). -/
  | settingsRead (r : Rq)
  /-- SETTINGS_WRITE (R542). -/
  | settingsWrite (r : Rq)
  /-- AGE_SUMMARY (R571). -/
  | ageSummary (r : Rq)
  /-- AGE_REPORT (R571). -/
  | ageReport (r : Rq)
  /-- AGE_PLAN_NOW (R571). -/
  | agePlanNow (r : Rq)
  /-- SELFTEST_START_SHORT (R155). -/
  | selftestStartShort (r : Rq)
  /-- SELFTEST_START_EXTENDED (R155). -/
  | selftestStartExtended (r : Rq)
  /-- SELFTEST_STATUS (R159). -/
  | selftestStatus (r : Rq)
  /-- SELFTEST_ABORT (R158). -/
  | selftestAbort (r : Rq)
  /-- SELFTEST_END (R156). -/
  | selftestEnd (seg : Nat)
  /-- DIAG_COUNTERS (R160). -/
  | diagCounters (r : Rq)
  /-- HOLDUP_TEST_START (R443). -/
  | holdupTestStart (r : Rq)
  /-- HOLDUP_TEST_REPORT (R456). -/
  | holdupTestReport (r : Rq)
  /-- PERST_ASSERT (R126). -/
  | perstAssert (p : Fin 4)
  /-- DL_DOWN (R126). -/
  | dlDown (p : Fin 4)
  /-- HOT_RESET (R126). -/
  | hotReset (p : Fin 4)
  /-- FUNCTION_LEVEL_RESET (R126). -/
  | functionLevelReset (p : Fin 4)
  /-- LINK_TRAINED (R124). -/
  | linkTrained (p : Fin 4) (speed width : Nat) (flit : Bool)
  /-- LANE_FAILURE (R127). -/
  | laneFailure (p : Fin 4) (width : Nat)
  /-- LINK_SPEED_DROP (R127). -/
  | linkSpeedDrop (p : Fin 4) (speed : Nat)
  /-- CC_EN_SET (R142). -/
  | ccEnSet (p : Fin 4) (asqs acqs : Nat)
  /-- CC_EN_CLEAR (R147). -/
  | ccEnClear (p : Fin 4)
  /-- CC_SHN_WRITE (R142). -/
  | ccShnWrite (p : Fin 4)
  /-- SHUTDOWN_COMPLETE (R142). -/
  | shutdownComplete (p : Fin 4)
  /-- DELETE_IO_SQ (R145). -/
  | deleteIoSq (c : AdminCmd)
  /-- SQ_DELETION_DONE (R145). -/
  | sqDeletionDone (p : Fin 4) (q : Nat)
  /-- CREATE_IO_SQ (R169). -/
  | createIoSq (c : AdminCmd)
  /-- DELETE_IO_CQ (R147). -/
  | deleteIoCq (c : AdminCmd)
  /-- CREATE_IO_CQ (R135). -/
  | createIoCq (c : AdminCmd)
  /-- IDENTIFY (R130). -/
  | identify (c : AdminCmd)
  /-- ABORT (R143). -/
  | abort (c : AdminCmd)
  /-- GET_LOG_SMART (R80). -/
  | getLogSmart (c : AdminCmd)
  /-- GET_LOG_ERROR_INFO (R80). -/
  | getLogErrorInfo (c : AdminCmd)
  /-- GET_LOG_FIRMWARE_SLOT (R548). -/
  | getLogFirmwareSlot (c : AdminCmd)
  /-- GET_LOG_SELF_TEST (R159). -/
  | getLogSelfTest (c : AdminCmd)
  /-- GET_LOG_TELEMETRY_CAPTURE (R589). -/
  | getLogTelemetryCapture (c : AdminCmd)
  /-- GET_LOG_TELEMETRY_READ (R589). -/
  | getLogTelemetryRead (c : AdminCmd)
  /-- GET_LOG_SLICE_BINDING (R168). -/
  | getLogSliceBinding (c : AdminCmd)
  /-- SET_FEATURES_ARBITRATION (R138). -/
  | setFeaturesArbitration (c : AdminCmd)
  /-- SET_FEATURES_POWER_MANAGEMENT (R149). -/
  | setFeaturesPowerManagement (c : AdminCmd)
  /-- SET_FEATURES_TEMPERATURE_THRESHOLD (R608). -/
  | setFeaturesTemperatureThreshold (c : AdminCmd)
  /-- SET_FEATURES_NUMBER_OF_QUEUES (R134). -/
  | setFeaturesNumberOfQueues (c : AdminCmd)
  /-- SET_FEATURES_INTERRUPT_COALESCING (R141). -/
  | setFeaturesInterruptCoalescing (c : AdminCmd)
  /-- SET_FEATURES_INTERRUPT_VECTOR_CFG (R141). -/
  | setFeaturesInterruptVectorCfg (c : AdminCmd)
  /-- SET_FEATURES_ASYNC_EVENT_CONFIG (R173). -/
  | setFeaturesAsyncEventConfig (c : AdminCmd)
  /-- SET_FEATURES_APST (R154). -/
  | setFeaturesApst (c : AdminCmd)
  /-- GET_FEATURES (R131). -/
  | getFeatures (c : AdminCmd)
  /-- ASYNC_EVENT_REQUEST (R131). -/
  | asyncEventRequest (c : AdminCmd)
  /-- FIRMWARE_IMAGE_DOWNLOAD (R544). -/
  | firmwareImageDownload (c : AdminCmd)
  /-- FIRMWARE_COMMIT_REPLACE (R548). -/
  | firmwareCommitReplace (c : AdminCmd)
  /-- FIRMWARE_COMMIT_REPLACE_ACTIVATE (R548). -/
  | firmwareCommitReplaceActivate (c : AdminCmd)
  /-- FIRMWARE_COMMIT_ACTIVATE (R548). -/
  | firmwareCommitActivate (c : AdminCmd)
  /-- FIRMWARE_COMMIT_IMMEDIATE (R548). -/
  | firmwareCommitImmediate (c : AdminCmd)
  /-- DEVICE_SELF_TEST_SHORT (R155). -/
  | deviceSelfTestShort (c : AdminCmd)
  /-- DEVICE_SELF_TEST_EXTENDED (R155). -/
  | deviceSelfTestExtended (c : AdminCmd)
  /-- DEVICE_SELF_TEST_ABORT (R158). -/
  | deviceSelfTestAbort (c : AdminCmd)
  /-- ADMIN_INVALID_OPCODE (R131). -/
  | adminInvalidOpcode (c : AdminCmd)
  /-- IO_INVALID_OPCODE (R132). -/
  | ioInvalidOpcode (c : IoCmd)
  /-- NVME_WRITE (R202). -/
  | nvmeWrite (c : IoCmd)
  /-- DESCRIPTOR_REBUILD_DONE (R220). -/
  | descriptorRebuildDone (z : Nat)
  /-- ZONE_APPEND (R203). -/
  | zoneAppend (c : IoCmd)
  /-- NVME_READ (R215). -/
  | nvmeRead (c : IoCmd)
  /-- NVME_FLUSH (R133). -/
  | nvmeFlush (c : IoCmd)
  /-- DATASET_MANAGEMENT (R225). -/
  | datasetManagement (c : IoCmd)
  /-- ZONE_CLOSE (R195). -/
  | zoneClose (c : IoCmd)
  /-- ZONE_FINISH (R195). -/
  | zoneFinish (c : IoCmd)
  /-- ZONE_OPEN (R195). -/
  | zoneOpen (c : IoCmd)
  /-- ZONE_RESET (R213). -/
  | zoneReset (c : IoCmd)
  /-- ZONE_OFFLINE (R211). -/
  | zoneOffline (c : IoCmd)
  /-- ZONE_MGMT_SEND_INVALID (R211). -/
  | zoneMgmtSendInvalid (c : IoCmd)
  /-- ZONE_ACTION_TAKES_EFFECT (R212). -/
  | zoneActionTakesEffect (z : Nat)
  /-- REPORT_ZONES (R214). -/
  | reportZones (c : IoCmd)
  /-- EXTENDED_REPORT_ZONES (R214). -/
  | extendedReportZones (c : IoCmd)
  /-- PS_ENTRY (R151). -/
  | psEntry
  /-- MAINTENANCE_EXCURSION (R153). -/
  | maintenanceExcursion
  /-- APST_IDLE_TIMER (R154). -/
  | apstIdleTimer (p : Fin 4)
  /-- SLICE_RESET_COMPLETE (R180). -/
  | sliceResetComplete (n : Nat)
  /-- SLM_RESET_START (R188). -/
  | slmResetStart (m : Master) (v : Word)
  /-- SLM_SHARE_STAGE (R188). -/
  | slmShareStage (m : Master) (cap : Bool) (v : Word)
  /-- EPOCH_START (R176). -/
  | epochStart (icc iccq : Nat)
  /-- STRIPE_PREPARE (R241). -/
  | stripePrepare (key : Nat)
  /-- GROUP_SCORE_TICK (R258). -/
  | groupScoreTick
  /-- STRIPE_IDLE_PAD (R243). -/
  | stripeIdlePad (n : Nat)
  /-- TAIL_FLUSH (R247). -/
  | tailFlush (z : Nat)
  /-- DIRECT_PAGE_PROGRAM (R246). -/
  | directPageProgram (z : Nat)
  /-- GROUP_QUIET_ENTER (R249). -/
  | groupQuietEnter (g : Fin 128)
  /-- GROUP_QUIET_EXIT (R249). -/
  | groupQuietExit (g : Fin 128)
  /-- STREAM_INACTIVE (R240). -/
  | streamInactive (key : Nat)
  /-- PLC_GRP_HOLD_WRITE (R229). -/
  | plcGrpHoldWrite (m : Master) (ix : Fin 4) (v : Word)
  /-- DEDICATED_GROUP_RELEASE (R253). -/
  | dedicatedGroupRelease (g : Fin 128)
  /-- READ_SERVE_CHOICE (R277). -/
  | readServeChoice (x u : Nat)
  /-- REBOUND_COMBINE (R282). -/
  | reboundCombine (id : Nat)
  /-- DSC_ISSUE (R269). -/
  | dscIssue (die : Fin 2048)
  /-- BACKLOG_REPORT (R276). -/
  | backlogReport
  /-- SUSPEND_WINDOW_EXPIRY (R279). -/
  | suspendWindowExpiry (die : Fin 2048)
  /-- DSC_PRED_BANK_SWITCH (R274). -/
  | dscPredBankSwitch (m : Master) (v : Word)
  /-- DSC_LAT_CLEAR (R293). -/
  | dscLatClear (m : Master) (v : Word)
  /-- LDPC_DECODE (R302). -/
  | ldpcDecode (x u : Nat) (d : Decode)
  /-- COLLECTION_TRIGGER (R308). -/
  | collectionTrigger
  /-- WEAR_LEVEL_TRIGGER (R310). -/
  | wearLevelTrigger (g : Fin 128)
  /-- REBUILD_DONE (R318). -/
  | rebuildDone (die : Fin 2048)
  /-- CHECKPOINT_CYCLE_END (R322). -/
  | checkpointCycleEnd
  /-- JOURNAL_BLOCK_ERASE (R325). -/
  | journalBlockErase (g : Fin 128) (b : Nat)
  /-- DESC_READ (R333). -/
  | descRead (ch : Fin 64) (q : Fin 4)
  /-- DESC_PROGRAM (R343). -/
  | descProgram (ch : Fin 64)
  /-- DESC_JOINED_PROGRAM (R339). -/
  | descJoinedProgram (ch : Fin 64)
  /-- DESC_ERASE (R342). -/
  | descErase (ch : Fin 64)
  /-- DESC_READ_STATUS (R337). -/
  | descReadStatus (ch : Fin 64)
  /-- DESC_GET_FEATURES (R337). -/
  | descGetFeatures (ch : Fin 64)
  /-- DESC_SET_FEATURES (R337). -/
  | descSetFeatures (ch : Fin 64)
  /-- DESC_READ_ID (R337). -/
  | descReadId (ch : Fin 64)
  /-- DESC_READ_PARAM (R337). -/
  | descReadParam (ch : Fin 64)
  /-- DESC_RESET_DIE (R337). -/
  | descResetDie (ch : Fin 64)
  /-- DESC_ZQ_CAL (R337). -/
  | descZqCal (ch : Fin 64)
  /-- DESC_TRAIN (R337). -/
  | descTrain (ch : Fin 64)
  /-- SEQ_CLOSE (R342). -/
  | seqClose (ch : Fin 64)
  /-- DESC_CUSTOMER (R355). -/
  | descCustomer (ch : Fin 64) (samples : List Nat)
  /-- CHS_POST (R336). -/
  | chsPost (m : Master) (ch : Fin 64) (v : Word)
  /-- OPERATION_COMPLETE (R345). -/
  | operationComplete (ch : Fin 64) (die : Fin 32) (array : Nat) (dstat : Nat) (fails : Nat) (vals : List Nat)
  /-- DIE_TIMEOUT (R349). -/
  | dieTimeout (ch : Fin 64) (die : Fin 32)
  /-- SUSPEND_TAKEN (R351). -/
  | suspendTaken (ch : Fin 64) (die : Fin 32)
  /-- RESUME_TAKEN (R351). -/
  | resumeTaken (ch : Fin 64) (die : Fin 32)
  /-- YIELD_OVERRUN (R350). -/
  | yieldOverrun (ch : Fin 64) (die : Fin 32) (a : Nat)
  /-- BUS_GRANT (R353). -/
  | busGrant (ch : Fin 64)
  /-- COLLECTOR_TAKE (R347). -/
  | collectorTake
  /-- CONTROL_STORE_PARITY (R358). -/
  | controlStoreParity (ch : Fin 64) (a : Nat) (scrub : Bool)
  /-- CS_SCRUB_PASS (R358). -/
  | csScrubPass (ch : Fin 64)
  /-- SEQUENCER_RESET (R359). -/
  | sequencerReset (m : Master) (ch : Fin 64)
  /-- BUFFER_ALLOC (R373). -/
  | bufferAlloc (id size acct : Nat) (cls : Fin 4) (nochain long : Bool)
  /-- ALLOC_RETRY (R374). -/
  | allocRetry (ix : Nat)
  /-- BUFFER_FREE (R377). -/
  | bufferFree (id : Nat) (h : Word)
  /-- BUFFER_HANDOVER (R376). -/
  | bufferHandover (id : Nat) (h : Word) (dest : Nat)
  /-- BUFFER_ZEROED (R365). -/
  | bufferZeroed (pool : Fin 4) (ix : Nat)
  /-- LEAK_AUDIT_PASS (R384). -/
  | leakAuditPass
  /-- BPM_MIN_CLEAR (R388). -/
  | bpmMinClear (m : Master)
  /-- BPM_QUOTA_WRITE (R372). -/
  | bpmQuotaWrite (m : Master) (k : Fin 4) (v : Word)
  /-- SPEED_CHANGE_REQUEST (R396). -/
  | speedChangeRequest (m : Master) (v : Word)
  /-- SPEED_CHANGE_DONE (R395). -/
  | speedChangeDone
  /-- GATHER_OPEN (R394). -/
  | gatherOpen (m : Master) (v : Word)
  /-- GATHER_STEP (R394). -/
  | gatherStep (pass : Nat)
  /-- GATHER_CLOSE (R394). -/
  | gatherClose (m : Master)
  /-- GATHER_TIMEOUT (R394). -/
  | gatherTimeout
  /-- REFRESH_DUE (R398). -/
  | refreshDue (rank : Fin 16)
  /-- PANIC_ASSERT (R399). -/
  | panicAssert (waited : Nat)
  /-- PANIC_END (R399). -/
  | panicEnd
  /-- MR4_POLL (R400). -/
  | mr4Poll (rank : Fin 16) (band : Nat)
  /-- DMC_SELF_REFRESH (R401). -/
  | dmcSelfRefresh (m : Master) (v : Word)
  /-- DRAM_SCRUB_READ (R407). -/
  | dramScrubRead (e : MemErr)
  /-- SRAM_SCRUB_READ (R407). -/
  | sramScrubRead (region : Fin 16) (off : Nat) (last : Bool) (e : MemErr)
  /-- INJECTOR_ARM (R408). -/
  | injectorArm (m : Master) (v : Word)
  /-- CALL_REQUEST (R423). -/
  | callRequest (die : Fin 2048)
  /-- CALL_GRANT (R424). -/
  | callGrant (n : Nat)
  /-- GROUP_CALL (R427). -/
  | groupCall (acct mode : Nat) (dies : List Nat) (cls : Fin 4) (deadline : Nat)
  /-- CALL_RETURN (R426). -/
  | callReturn (n : Nat)
  /-- HOL_BLOCK (R424). -/
  | holBlock (n : Nat)
  /-- FLOOR_HOLD_EXPIRY (R428). -/
  | floorHoldExpiry
  /-- VR_SETTLED (R418). -/
  | vrSettled (mv : Nat)
  /-- VR_TIMEOUT (R419). -/
  | vrTimeout (mv word : Nat)
  /-- THERMAL_STEP (R429). -/
  | thermalStep
  /-- UMP_COST_BANK_SWITCH (R421). -/
  | umpCostBankSwitch (m : Master) (v : Word)
  /-- SAG_ENTER (R436). -/
  | sagEnter (v : Nat)
  /-- BROWN_OUT_ENTER (R436). -/
  | brownOutEnter (v : Nat)
  /-- SURGE_ENTER (R436). -/
  | surgeEnter (v : Nat)
  /-- SURGE_FILTER_EXPIRY (R437). -/
  | surgeFilterExpiry
  /-- RIPPLE_ENTER (R436). -/
  | rippleEnter (mv : Nat)
  /-- DISTURBANCE_CLASS_END (R436). -/
  | disturbanceClassEnd (n v : Nat)
  /-- BANK_BELOW_RECHARGE (R439). -/
  | bankBelowRecharge (v : Nat)
  /-- BANK_AT_TARGET (R439). -/
  | bankAtTarget (v : Nat)
  /-- CHARGE_TIMEOUT (R439). -/
  | chargeTimeout
  /-- BANK_OVERVOLTAGE (R439). -/
  | bankOvervoltage (v : Nat)
  /-- DISCHARGE_TEST_DUE (R443). -/
  | dischargeTestDue
  /-- DISCHARGE_TEST_BEGIN (R441). -/
  | dischargeTestBegin
  /-- TEST_V1_SAMPLE (R441). -/
  | testV1Sample (v : Nat)
  /-- TEST_V2_REACHED (R441). -/
  | testV2Reached (t : Nat)
  /-- TEST_TIMEOUT (R441). -/
  | testTimeout
  /-- CELL_LOSS_RETEST (R442). -/
  | cellLossRetest
  /-- SGD_TEST_START (R443). -/
  | sgdTestStart (m : Master)
  /-- DIRTY_LIMIT_RECOMPUTE (R444). -/
  | dirtyLimitRecompute
  /-- SGD_FLUSH_W_WRITE (R446). -/
  | sgdFlushWWrite (m : Master) (v : Word)
  /-- RESTART_HOLD_END (R451). -/
  | restartHoldEnd
  /-- BOOT_WAIT_EXPIRY (R451). -/
  | bootWaitExpiry
  /-- COMPUTE_PGOOD_RISE (R599). -/
  | computePgoodRise
  /-- COMPUTE_PGOOD_FALL (R611). -/
  | computePgoodFall
  /-- PVE_GCM_ENCRYPT (R467). -/
  | pveGcmEncrypt (p : Fin 8) (sess slot : Nat) (iv aad data : List Byte) (bad : Fin 3)
  /-- PVE_GCM_DECRYPT (R468). -/
  | pveGcmDecrypt (p : Fin 8) (sess slot : Nat) (iv aad data : List Byte) (bad : Fin 3)
  /-- PVE_KEY_WRAP (R467). -/
  | pveKeyWrap (p : Fin 8) (slot : Nat) (data : List Byte) (bad : Fin 3)
  /-- PVE_KEY_UNWRAP (R468). -/
  | pveKeyUnwrap (p : Fin 8) (sess slot : Nat) (data : List Byte) (bad : Fin 3)
  /-- PVE_CMAC (R467). -/
  | pveCmac (p : Fin 8) (sess slot : Nat) (data : List Byte) (bad : Fin 3)
  /-- DRBG_RESEED (R462). -/
  | drbgReseed (health : Fin 3)
  /-- DGE_SHA384 (R485). -/
  | dgeSha384 (p : Fin 8)
  /-- DGE_SHA512 (R485). -/
  | dgeSha512 (p : Fin 8)
  /-- DGE_HMAC_SHA384 (R485). -/
  | dgeHmacSha384 (p : Fin 8)
  /-- DGE_HMAC_SHA512 (R485). -/
  | dgeHmacSha512 (p : Fin 8)
  /-- DGE_HKDF_EXPAND (R485). -/
  | dgeHkdfExpand (p : Fin 8)
  /-- SNOOP_ARM (R486). -/
  | snoopArm (m : Master)
  /-- SNOOP_END (R486). -/
  | snoopEnd (m : Master)
  /-- DGE_UDS_CLOSE (R482). -/
  | dgeUdsClose (m : Master)
  /-- DGE_BOOT_CLOSE (R482). -/
  | dgeBootClose (m : Master)
  /-- PKE_SIGN (R490). -/
  | pkeSign (p : Fin 8) (agree : Bool)
  /-- PKE_VERIFY (R489). -/
  | pkeVerify (p : Fin 8)
  /-- PKE_ECDH (R490). -/
  | pkeEcdh (p : Fin 8) (agree : Bool)
  /-- PKE_PUBKEY (R489). -/
  | pkePubkey (p : Fin 8)
  /-- SIGNET_APPEND (R494). -/
  | signetAppend (m : Master) (typ : Nat) (items : List MItem) (settings : List Byte) (reason state : Nat) (bad : Fin 3)
  /-- SIGNET_COMMIT (R495). -/
  | signetCommit
  /-- SIGNET_COMPACTION (R500). -/
  | signetCompaction
  /-- CLS_READ (R517). -/
  | clsRead
  /-- CLS_PROGRAM (R515). -/
  | clsProgram
  /-- CLS_ERASE (R518). -/
  | clsErase
  /-- CLS_BLANK_CHECK (R517). -/
  | clsBlankCheck
  /-- CLS_LOCK (R521). -/
  | clsLock
  /-- CLS_UNLOCK (R521). -/
  | clsUnlock
  /-- CLS_SET_PASSWORD (R522). -/
  | clsSetPassword
  /-- CLS_DESC_COMPLETE (R513). -/
  | clsDescComplete (ix : Fin 32) (k : Nat) (corr bad : List Nat)
  /-- CLS_SLOT_RELEASE (R514). -/
  | clsSlotRelease (m : Master) (v : Word)
  /-- CLS_ERASE_SUSPEND (R519). -/
  | clsEraseSuspend
  /-- CLS_ERASE_RESUME (R519). -/
  | clsEraseResume
  /-- CONTINUOUS_READ (R520) of `n` words; `errs` has 2k where word k of the read is uncorrectable, 2k + 1 where it is corrected. -/
  | continuousRead (m : Master) (n : Nat) (errs : List Nat)
  /-- CONTINUOUS_READ_STOP (R520). -/
  | continuousReadStop (m : Master)
  /-- AON_BLOCK (R598). -/
  | aonBlock
  /-- AON_UNBLOCK (R598). -/
  | aonUnblock
  /-- CLASP_DIE_RESET (R598). -/
  | claspDieReset
  /-- COLD_RESET (R531). -/
  | coldReset
  /-- COLD_RESET_BALL_RELEASE (R603). -/
  | coldResetBallRelease
  /-- WARM_RESET (R532). -/
  | warmReset (m : Master)
  /-- BOT_FALLBACK (R536). -/
  | botFallback (m : Master)
  /-- FUSE_ADVANCE (R540). -/
  | fuseAdvance (m : Master) (v : Word)
  /-- UCODE_CONTROL_STORE_LOAD (R541). -/
  | ucodeControlStoreLoad (m : Master) (v : Word)
  /-- SLOT_WRITE_DONE (R546). -/
  | slotWriteDone
  /-- RECOVERY_EXIT (R551). -/
  | recoveryExit
  /-- RALLY_MEASURE (R557). -/
  | rallyMeasure (laps : List Nat)
  /-- PLANNING_RUN (R561). -/
  | planningRun (probe : List (Nat × Decode))
  /-- DRAM_REGATHER (R570). -/
  | dramRegather (rank : Fin 16) (windows : List (List (Nat × Nat)))
  /-- LOCKET_POST (R576). -/
  | locketPost (p : Fin 8)
  /-- LOCKET_FLUSH (R581). -/
  | locketFlush
  /-- LOCKET_FLUSH_DONE (R580). -/
  | locketFlushDone
  /-- FREEZE_TIMEOUT (R583). -/
  | freezeTimeout
  /-- TSN_SAMPLE (R608). -/
  | tsnSample (r : List (Option Int))
  /-- THERMAL_TRIP (R609). -/
  | thermalTrip
  /-- PERST_DEASSERT (R52). -/
  | perstDeassert (p : Fin 4)
  /-- HOST_READ_COMPLETION_TIMEOUT (R160). -/
  | hostReadCompletionTimeout (p : Fin 4)
  /-- POISONED_COMPLETION (R160). -/
  | poisonedCompletion (p : Fin 4)
  /-- ECRC_CHECK_FAIL (R125). -/
  | ecrcCheckFail (p : Fin 4)
  /-- LINK_RECOVERY (R127). -/
  | linkRecovery (p : Fin 4)
  /-- L0P_WIDTH_CHANGE (R125). -/
  | l0pWidthChange (p : Fin 4) (width : Nat)
  /-- ASPM_L1_ENTRY (R125). -/
  | aspmL1Entry (p : Fin 4)
  /-- ASPM_L1_EXIT (R125). -/
  | aspmL1Exit (p : Fin 4)
  /-- I3C_DYNAMIC_ADDRESS_ASSIGN (R106). -/
  | i3cDynamicAddressAssign (a : Nat)
  /-- INTERRUPT_COALESCING_TIMEOUT (R141). -/
  | interruptCoalescingTimeout (p : Fin 4) (v : Nat)
  /-- MAILBOX_PAYLOAD_WRITE (R102). -/
  | mailboxPayloadWrite (ch : Fin 32) (off : Nat) (bytes : List Byte)
  /-- CUSTOMER_ROUTINE_OVERRUN (R355). -/
  | customerRoutineOverrun (ch : Fin 64) (die : Fin 32) (a : Nat)
deriving DecidableEq, Repr

end Sys2Proof
end

