-- ==== Sys2Proof/WellFormed.lean ====
section
/-! DEFINITION. Well-formed commands: the ranges that an operand's type does not say. -/
namespace Sys2Proof

/-- An access moves 1, 2, 4 or 8 bytes (R35), and a write no more than its value has. -/
def sizeWf (n most : Nat) : Bool := [1, 2, 4, 8].contains n && decide (n ≤ most)

/-- A Vocel request fits its window: a payload has at most 4,064 bytes; the session ID and the payload length have 32 bits (R98). -/
def Rq.wf (r : Rq) : Bool := decide (r.payload.length ≤ 4064) && decide (r.session < 4294967296) && decide (r.plen < 4294967296)

/-- An admin command's identifier has 16 bits and its namespace 32 (R137). -/
def AdminCmd.wf (c : AdminCmd) : Bool := decide (c.cid < 65536) && decide (c.nsid < 4294967296)

/-- An I/O command's identifiers, LBA and length fit their fields, and its host range does not run backwards (R137, R139). -/
def IoCmd.wf (c : IoCmd) : Bool :=
  decide (c.cid < 65536) && decide (c.qid < 65536) && decide (c.nsid < 4294967296) && decide (c.slba < 2 ^ 64)
    && decide (c.nlb < 65536) && decide (c.dmaLo ≤ c.dmaHi)

/-- A code group has 10 devices of at most 16 symbols (R389, R402). -/
def MemErr.wf (e : MemErr) : Bool := e.raw.all fun x => decide (x.1 < 10) && decide (1 ≤ x.2) && decide (x.2 ≤ 16)

/-- A register access names an address of the 32-bit fabric (R31). -/
def addrWf (a : Nat) : Bool := decide (a < 4294967296)

/-- The operands of a command are in range. -/
def Instr.wf : Instr → Bool
  | .registerWrite _ a _ n => addrWf a && sizeWf n 4
  | .latchedLoRead _ a n => addrWf a && sizeWf n 8
  | .acmLock _ => true
  | .adminSqTailDoorbell _ _ => true
  | .adminCqHeadDoorbell _ _ => true
  | .bar0DoorbellInvalid _ _ => true
  | .sqTailDoorbell _ _ _ _ _ => true
  | .cqHeadDoorbell _ _ _ _ _ => true
  | .sqeFetch _ _ _ _ _ _ => true
  | .placementDecision _ => true
  | .xteEncrypt _ _ _ => true
  | .xteDecrypt _ _ _ => true
  | .stagingCopy _ _ => true
  | .completionPost _ => true
  | .stripeAssemble _ => true
  | .stripeClose _ => true
  | .foldStart _ _ => true
  | .computeResetRelease => true
  | .dropout _ => true
  | .emergencyFlushDone => true
  | .emergencyIndexProgrammed => true
  | .lockstepMismatch _ => true
  | .coreWatchdogExpiry _ => true
  | .tcmUe _ => true
  | .spareTakeover => true
  | .timeCeilingStore => true
  | .timeCeilingHold => true
  | .crystalStop => true
  | .crystalReturn => true
  | .claspPowerUp _ _ => true
  | .spdmGetVersion _ => true
  | .spdmGetCapabilities _ => true
  | .spdmNegotiateAlgorithms _ _ => true
  | .spdmGetDigests _ => true
  | .spdmGetCertificate _ _ _ _ => true
  | .spdmChallenge _ _ _ => true
  | .spdmGetMeasurements _ _ _ => true
  | .spdmKeyExchange _ _ _ _ => true
  | .spdmFinish _ _ _ _ => true
  | .spdmHeartbeat _ => true
  | .spdmKeyUpdate _ => true
  | .spdmEndSession _ => true
  | .spdmUnsupportedRequest _ _ => true
  | .sessionHeartbeatTimeout _ => true
  | .cardDrainEnd _ => true
  | .cardRelease r => r.wf
  | .cardList r => r.wf
  | .acmCardQuery _ _ => true
  | .svcIdcode => true
  | .svcBypass _ => true
  | .svcChallenge => true
  | .svcResponse _ => true
  | .svcChallengeExpiry => true
  | .svcBoundaryScan _ => true
  | .mailboxLateWrite _ _ _ => true
  | .mailboxUnknownOpcode _ r => r.wf
  | .volleyTimeout _ => true
  | .mctpSetEndpointId _ => true
  | .mctpGetEndpointId => true
  | .mctpGetVersionSupport => true
  | .mctpGetMessageTypeSupport => true
  | .nvmeMiReadDataStructure _ _ => true
  | .nvmeMiSubsystemHealthPoll => true
  | .nvmeMiControllerHealthPoll _ _ => true
  | .mctpDroppedType _ => true
  | .smbusPecError => true
  | .nvmeMiBasicRead => true
  | .sidebandBusReset => true
  | .doeDiscovery _ _ => true
  | .doeInvalidObject _ _ _ => true
  | .getIdentity r => r.wf
  | .getCaps r => r.wf
  | .getOpcodes r => r.wf
  | .getSession r => r.wf
  | .getHealth r => r.wf
  | .regRead r => r.wf
  | .regWrite r => r.wf
  | .sliceCreate r => r.wf
  | .sliceDelete r => r.wf
  | .sliceBindPort r => r.wf
  | .sliceUnbindPort r => r.wf
  | .sliceSetShares r => r.wf
  | .sliceReset r => r.wf
  | .sliceQuery r => r.wf
  | .sliceBindChannel r => r.wf
  | .sliceUnbindChannel r => r.wf
  | .nsCreate r => r.wf
  | .nsDelete r => r.wf
  | .classRead r => r.wf
  | .classWrite r => r.wf
  | .classMaskSet r => r.wf
  | .placementStatus r => r.wf
  | .umpStatus r => r.wf
  | .umpSetBudget r => r.wf
  | .umpSetPpLimit r => r.wf
  | .keyMapRead r => r.wf
  | .keyGenerate r => r.wf
  | .keyImport r => r.wf
  | .keyBind r => r.wf
  | .keyRewriteDrbg r => r.wf
  | .keyRewriteImport r => r.wf
  | .keyWriteWaitTimeout _ => true
  | .keyZeroise r => r.wf
  | .namespaceReleaseDone _ => true
  | .nsCryptoErase r => r.wf
  | .cryptoEraseDrained _ => true
  | .mgrAnchorWrite r => r.wf
  | .ofcAnchorWrite r => r.wf
  | .signetInfo r => r.wf
  | .signetRead r => r.wf
  | .signetChain r => r.wf
  | .locketInfo r => r.wf
  | .locketRead r => r.wf
  | .locketFreeze r => r.wf
  | .locketThaw r => r.wf
  | .fwSlotInfo r => r.wf
  | .fwDownload r => r.wf
  | .fwCommitStore r => r.wf
  | .fwCommitStoreActivate r => r.wf
  | .fwCommitActivate r => r.wf
  | .fwInbandEnable r => r.wf
  | .ucodeLoad r => r.wf
  | .settingsRead r => r.wf
  | .settingsWrite r => r.wf
  | .ageSummary r => r.wf
  | .ageReport r => r.wf
  | .agePlanNow r => r.wf
  | .selftestStartShort r => r.wf
  | .selftestStartExtended r => r.wf
  | .selftestStatus r => r.wf
  | .selftestAbort r => r.wf
  | .selftestEnd _ => true
  | .diagCounters r => r.wf
  | .holdupTestStart r => r.wf
  | .holdupTestReport r => r.wf
  | .perstAssert _ => true
  | .dlDown _ => true
  | .hotReset _ => true
  | .functionLevelReset _ => true
  | .linkTrained _ _ _ _ => true
  | .laneFailure _ _ => true
  | .linkSpeedDrop _ _ => true
  | .ccEnSet _ _ _ => true
  | .ccEnClear _ => true
  | .ccShnWrite _ => true
  | .shutdownComplete _ => true
  | .deleteIoSq c => c.wf
  | .sqDeletionDone _ _ => true
  | .createIoSq c => c.wf
  | .deleteIoCq c => c.wf
  | .createIoCq c => c.wf
  | .identify c => c.wf
  | .abort c => c.wf
  | .getLogSmart c => c.wf
  | .getLogErrorInfo c => c.wf
  | .getLogFirmwareSlot c => c.wf
  | .getLogSelfTest c => c.wf
  | .getLogTelemetryCapture c => c.wf
  | .getLogTelemetryRead c => c.wf
  | .getLogSliceBinding c => c.wf
  | .setFeaturesArbitration c => c.wf
  | .setFeaturesPowerManagement c => c.wf
  | .setFeaturesTemperatureThreshold c => c.wf
  | .setFeaturesNumberOfQueues c => c.wf
  | .setFeaturesInterruptCoalescing c => c.wf
  | .setFeaturesInterruptVectorCfg c => c.wf
  | .setFeaturesAsyncEventConfig c => c.wf
  | .setFeaturesApst c => c.wf
  | .getFeatures c => c.wf
  | .asyncEventRequest c => c.wf
  | .firmwareImageDownload c => c.wf
  | .firmwareCommitReplace c => c.wf
  | .firmwareCommitReplaceActivate c => c.wf
  | .firmwareCommitActivate c => c.wf
  | .firmwareCommitImmediate c => c.wf
  | .deviceSelfTestShort c => c.wf
  | .deviceSelfTestExtended c => c.wf
  | .deviceSelfTestAbort c => c.wf
  | .adminInvalidOpcode c => c.wf
  | .ioInvalidOpcode c => c.wf
  | .nvmeWrite c => c.wf
  | .descriptorRebuildDone _ => true
  | .zoneAppend c => c.wf
  | .nvmeRead c => c.wf
  | .nvmeFlush c => c.wf
  | .datasetManagement c => c.wf
  | .zoneClose c => c.wf
  | .zoneFinish c => c.wf
  | .zoneOpen c => c.wf
  | .zoneReset c => c.wf
  | .zoneOffline c => c.wf
  | .zoneMgmtSendInvalid c => c.wf
  | .zoneActionTakesEffect _ => true
  | .reportZones c => c.wf
  | .extendedReportZones c => c.wf
  | .psEntry => true
  | .maintenanceExcursion => true
  | .apstIdleTimer _ => true
  | .sliceResetComplete _ => true
  | .slmResetStart _ _ => true
  | .slmShareStage _ _ _ => true
  | .epochStart _ _ => true
  | .stripePrepare _ => true
  | .groupScoreTick => true
  | .stripeIdlePad _ => true
  | .tailFlush _ => true
  | .directPageProgram _ => true
  | .groupQuietEnter _ => true
  | .groupQuietExit _ => true
  | .streamInactive _ => true
  | .plcGrpHoldWrite _ _ _ => true
  | .dedicatedGroupRelease _ => true
  | .readServeChoice _ _ => true
  | .reboundCombine _ => true
  | .dscIssue _ => true
  | .backlogReport => true
  | .suspendWindowExpiry _ => true
  | .dscPredBankSwitch _ _ => true
  | .dscLatClear _ _ => true
  | .ldpcDecode _ _ _ => true
  | .collectionTrigger => true
  | .wearLevelTrigger _ => true
  | .rebuildDone _ => true
  | .checkpointCycleEnd => true
  | .journalBlockErase _ _ => true
  | .descRead _ _ => true
  | .descProgram _ => true
  | .descJoinedProgram _ => true
  | .descErase _ => true
  | .descReadStatus _ => true
  | .descGetFeatures _ => true
  | .descSetFeatures _ => true
  | .descReadId _ => true
  | .descReadParam _ => true
  | .descResetDie _ => true
  | .descZqCal _ => true
  | .descTrain _ => true
  | .seqClose _ => true
  | .descCustomer _ _ => true
  | .chsPost _ _ _ => true
  | .operationComplete _ _ _ _ _ _ => true
  | .dieTimeout _ _ => true
  | .suspendTaken _ _ => true
  | .resumeTaken _ _ => true
  | .yieldOverrun _ _ _ => true
  | .busGrant _ => true
  | .collectorTake => true
  | .controlStoreParity _ _ _ => true
  | .csScrubPass _ => true
  | .sequencerReset _ _ => true
  | .bufferAlloc _ _ _ _ _ _ => true
  | .allocRetry _ => true
  | .bufferFree _ _ => true
  | .bufferHandover _ _ _ => true
  | .bufferZeroed _ _ => true
  | .leakAuditPass => true
  | .bpmMinClear _ => true
  | .bpmQuotaWrite _ _ _ => true
  | .speedChangeRequest _ _ => true
  | .speedChangeDone => true
  | .gatherOpen _ _ => true
  | .gatherStep _ => true
  | .gatherClose _ => true
  | .gatherTimeout => true
  | .refreshDue _ => true
  | .panicAssert _ => true
  | .panicEnd => true
  | .mr4Poll _ _ => true
  | .dmcSelfRefresh _ _ => true
  | .dramScrubRead e => e.wf
  | .sramScrubRead _ _ _ e => e.wf
  | .injectorArm _ _ => true
  | .callRequest _ => true
  | .callGrant _ => true
  | .groupCall _ _ _ _ _ => true
  | .callReturn _ => true
  | .holBlock _ => true
  | .floorHoldExpiry => true
  | .vrSettled _ => true
  | .vrTimeout _ _ => true
  | .thermalStep => true
  | .umpCostBankSwitch _ _ => true
  | .sagEnter _ => true
  | .brownOutEnter _ => true
  | .surgeEnter _ => true
  | .surgeFilterExpiry => true
  | .rippleEnter _ => true
  | .disturbanceClassEnd _ _ => true
  | .bankBelowRecharge _ => true
  | .bankAtTarget _ => true
  | .chargeTimeout => true
  | .bankOvervoltage _ => true
  | .dischargeTestDue => true
  | .dischargeTestBegin => true
  | .testV1Sample _ => true
  | .testV2Reached _ => true
  | .testTimeout => true
  | .cellLossRetest => true
  | .sgdTestStart _ => true
  | .dirtyLimitRecompute => true
  | .sgdFlushWWrite _ _ => true
  | .restartHoldEnd => true
  | .bootWaitExpiry => true
  | .computePgoodRise => true
  | .computePgoodFall => true
  | .pveGcmEncrypt _ _ _ _ _ _ _ => true
  | .pveGcmDecrypt _ _ _ _ _ _ _ => true
  | .pveKeyWrap _ _ _ _ => true
  | .pveKeyUnwrap _ _ _ _ _ => true
  | .pveCmac _ _ _ _ _ => true
  | .drbgReseed _ => true
  | .dgeSha384 _ => true
  | .dgeSha512 _ => true
  | .dgeHmacSha384 _ => true
  | .dgeHmacSha512 _ => true
  | .dgeHkdfExpand _ => true
  | .snoopArm _ => true
  | .snoopEnd _ => true
  | .dgeUdsClose _ => true
  | .dgeBootClose _ => true
  | .pkeSign _ _ => true
  | .pkeVerify _ => true
  | .pkeEcdh _ _ => true
  | .pkePubkey _ => true
  | .signetAppend _ _ _ _ _ _ _ => true
  | .signetCommit => true
  | .signetCompaction => true
  | .clsRead => true
  | .clsProgram => true
  | .clsErase => true
  | .clsBlankCheck => true
  | .clsLock => true
  | .clsUnlock => true
  | .clsSetPassword => true
  | .clsDescComplete _ _ _ _ => true
  | .clsSlotRelease _ _ => true
  | .clsEraseSuspend => true
  | .clsEraseResume => true
  | .continuousRead _ _ _ => true
  | .continuousReadStop _ => true
  | .aonBlock => true
  | .aonUnblock => true
  | .claspDieReset => true
  | .coldReset => true
  | .coldResetBallRelease => true
  | .warmReset _ => true
  | .botFallback _ => true
  | .fuseAdvance _ _ => true
  | .ucodeControlStoreLoad _ _ => true
  | .slotWriteDone => true
  | .recoveryExit => true
  | .rallyMeasure _ => true
  | .planningRun _ => true
  | .dramRegather _ _ => true
  | .locketPost _ => true
  | .locketFlush => true
  | .locketFlushDone => true
  | .freezeTimeout => true
  | .tsnSample _ => true
  | .thermalTrip => true
  | .perstDeassert _ => true
  | .hostReadCompletionTimeout _ => true
  | .poisonedCompletion _ => true
  | .ecrcCheckFail _ => true
  | .linkRecovery _ => true
  | .l0pWidthChange _ _ => true
  | .aspmL1Entry _ => true
  | .aspmL1Exit _ => true
  | .i3cDynamicAddressAssign _ => true
  | .interruptCoalescingTimeout _ _ => true
  | .mailboxPayloadWrite _ _ _ => true
  | .customerRoutineOverrun _ _ _ => true

end Sys2Proof
end

