-- ==== Sys2Proof/Decode.lean ====
section
/-! DEFINITION. Words that spell commands. The opcode table gives no row any bits: the commands of this block reach it on
the interfaces their rules name (doorbells, mailbox requests, register accesses, events), not as instruction words. -/
namespace Sys2Proof

/-- The command that a word spells by the table's bits: none, since no row of the table has bits. -/
def decodeTableWord (_nbits _w : Nat) : Option Instr := none

end Sys2Proof
end

