-- ==== Sys2Proof/Machine/Bytes.lean ====
section
/-! DEFINITION. Little-endian fields of payloads and records (R14), bit fields of words, CRC-32 (R296). -/
namespace Sys2Proof.Machine
open Sys2Proof

/-- Byte `o` of a byte string; bytes past its end read 0. -/
def u8 (p : List Byte) (o : Nat) : Nat := (p.getD o 0).toNat

/-- Two bytes from `o`, little-endian. -/
def u16 (p : List Byte) (o : Nat) : Nat := u8 p o + 256 * u8 p (o + 1)

/-- Four bytes from `o`, little-endian. -/
def u32 (p : List Byte) (o : Nat) : Nat := u16 p o + 65536 * u16 p (o + 2)

/-- Eight bytes from `o`, little-endian. -/
def u64 (p : List Byte) (o : Nat) : Nat := u32 p o + 4294967296 * u32 p (o + 4)

/-- The `n` low bytes of `v`, least significant first. -/
def le : Nat → Nat → List Byte
  | 0, _ => []
  | n + 1, v => BitVec.ofNat 8 v :: le n (v / 256)

/-- The number that bytes spell, least significant first. -/
def leNat : List Byte → Nat
  | [] => 0
  | b :: bs => b.toNat + 256 * leNat bs

/-- `n` zero bytes. -/
def zeros (n : Nat) : List Byte := List.replicate n 0

/-- Character codes as bytes, padded with spaces or cut to `n`. -/
def ascii (n : Nat) (codes : List Nat) : List Byte :=
  ((codes.map fun c => BitVec.ofNat 8 c) ++ List.replicate n 0x20).take n

/-- Bytes `o` to `o + n - 1`. -/
def slice (p : List Byte) (o n : Nat) : List Byte := (p.drop o).take n

/-- Bits `lo` to `lo + w - 1` of a number. -/
def bits (v lo w : Nat) : Nat := (v >>> lo) % 2 ^ w

/-- Bit `i` of a number. -/
def bit (v i : Nat) : Bool := v.testBit i

/-- 1 for true. -/
def b2n (b : Bool) : Nat := if b then 1 else 0

/-- The word with bits `lo` to `lo + w - 1` replaced. -/
def setBits (r : Word) (lo w v : Nat) : Word :=
  BitVec.ofNat 32 (r.toNat % 2 ^ lo + (v % 2 ^ w) * 2 ^ lo + (r.toNat >>> (lo + w)) * 2 ^ (lo + w))

/-- One shift of the reflected CRC-32 of IEEE 802.3. -/
def crcShift : Nat → Nat → Nat
  | 0, c => c
  | n + 1, c => crcShift n (if c % 2 = 1 then (c / 2) ^^^ 0xEDB88320 else c / 2)

/-- CRC-32 over a byte string from register value `c`. -/
def crcRun : List Byte → Nat → Nat
  | [], c => c
  | b :: bs, c => crcRun bs (crcShift 8 (c ^^^ b.toNat))

/-- CRC-32 (IEEE 802.3: reflected, preset and final inversion of all ones), as R296 names it. -/
def crc32 (p : List Byte) : Nat := (crcRun p 0xFFFFFFFF) ^^^ 0xFFFFFFFF

/-- `v` rounded up to a multiple of `m`. -/
def roundUp (v m : Nat) : Nat := (v + m - 1) / m * m

/-- The least of `v` and the largest value of `w` bits: a counter that saturates. -/
def sat (w v : Nat) : Nat := if v < 2 ^ w then v else 2 ^ w - 1

end Sys2Proof.Machine
end

