-- ==== Sys2Proof/Config.lean ====
section
/-! DEFINITION. What the spec leaves to the part or to a published standard, as constants without a body: nothing can be
proved about their values, so a statement holds whatever they are (notes/assumptions/3.md, 4.md). -/
namespace Sys2Proof.Config
open Sys2Proof

/-- The `n`-th open value that a step meets: a value the spec leaves undefined or does not state. -/
opaque freeNat : Nat → Nat

/-- The code group on which a DRAM codeword falls: the mapping of DRAM addresses is internal (R391). -/
opaque codeGroup : Nat → Nat

/-- The byte of the mask ROM at a fabric address (R33). -/
opaque romByte : Nat → Byte

/-- The `n`-th draw from the DRBG (R462): 64 bytes of fresh random material. -/
opaque drbg : Nat → List Byte

/-- A LUN feature address changes the interface or its timing (R355): the dies' specifications name them. -/
opaque ifaceFeature : Nat → Bool

/-- The method by which a die's identity selects the mode of a block (R333). -/
opaque modeMethod : Nat → Nat

/-- The command bytes that a die's identity selects: 0 suspend, 1 resume, 2 multi-plane program, 3 training (R333). -/
opaque dieCommand : Nat → Nat → List Nat

/-- SHA-384 of a byte string (FIPS 180-4). -/
opaque sha384 : List Byte → List Byte

/-- SHA-512 of a byte string (FIPS 180-4). -/
opaque sha512 : List Byte → List Byte

/-- HMAC-SHA-384: key, message. -/
opaque hmac384 : List Byte → List Byte → List Byte

/-- HMAC-SHA-512: key, message. -/
opaque hmac512 : List Byte → List Byte → List Byte

/-- HKDF-Expand with SHA-384: pseudo-random key, info, length in bytes. -/
opaque hkdf384 : List Byte → List Byte → Nat → List Byte

/-- XTS-AES-256 encryption of a data unit (R463): key material, tweak, length in bytes, plaintext. -/
opaque xtsEnc : List Byte → Nat → Nat → Nat → Nat

/-- XTS-AES-256 decryption of a data unit: key material, tweak, length in bytes, ciphertext. -/
opaque xtsDec : List Byte → Nat → Nat → Nat → Nat

/-- The device secret that fuses hold (R470, R482). -/
opaque deviceSecret : List Byte

/-- AES-256-GCM encryption: key, nonce, additional data, plaintext; the tag is appended. -/
opaque gcmEnc : List Byte → List Byte → List Byte → List Byte → List Byte

/-- AES-256-GCM decryption: key, nonce, additional data, ciphertext and tag; none when the tag does not verify. -/
opaque gcmDec : List Byte → List Byte → List Byte → List Byte → Option (List Byte)

/-- The 96-bit GCM nonce of a secured message (DSP0277): key material of the direction, sequence number. -/
opaque sessionIv : List Byte → Nat → List Byte

/-- AES-256 key wrap (KW, NIST SP 800-38F): wrapping key, material. -/
opaque kwWrap : List Byte → List Byte → List Byte

/-- AES-256 key unwrap: wrapping key, wrapped bytes; none when the integrity check fails. -/
opaque kwUnwrap : List Byte → List Byte → Option (List Byte)

/-- AES-CMAC: key, message. -/
opaque cmac : List Byte → List Byte → List Byte

/-- The public key of a P-384 private scalar derived from a seed. -/
opaque p384Pub : List Byte → List Byte

/-- An ECDSA P-384 signature: seed of the scalar, digest, draw number of the nonce. -/
opaque p384Sign : List Byte → List Byte → Nat → List Byte

/-- Whether an ECDSA P-384 signature verifies: public key, digest, signature. -/
opaque p384Verify : List Byte → List Byte → List Byte → Bool

/-- Whether a signature verifies under the service key that has a fused digest (R92): digest of the key, digest, signature. -/
opaque serviceVerify : List Byte → List Byte → List Byte → Bool

/-- The ECDH P-384 shared secret: own scalar's seed, peer's public key. -/
opaque p384Ecdh : List Byte → List Byte → List Byte

/-- The SHA-384 of the three parts of the image a part is shipped with (R537): no value of the spec. -/
opaque factoryDigest : Nat → List Byte

/-- The vendor microcode words of that image. -/
opaque factoryUcode : List Byte

/-- The fused digest of vendor key 0 (R539). -/
opaque vendorKey : List Byte

/-- The fused digest of the service key (R92, R539). -/
opaque serviceKey : List Byte

/-- The digest of the mask ROM, fixed in the ROM (R492). -/
opaque romDigest : List Byte

/-- The Newihal root and DeviceID certificates of the identity area (R484). -/
opaque rootCert : List Byte
opaque deviceCert : List Byte

/-- The X.509 certificate that stage 1 issues for an Alias public key over the measurements it carries (R484). -/
opaque aliasCert : List Byte → List Byte → List Byte

/-- What a register of the NVMe base specification reads where no rule gives its value: port, offset (R43). -/
opaque nvmeReg : Nat → Nat → Nat

/-- The MSI-X table and pending bits in BAR0, by what the host has written there and the offset (R43): no command of the table is such a
write. -/
opaque msixTable : Nat → Nat → Nat

/-- The board description record (R453). -/
opaque boardRecord : List Byte

/-- The SHA-384 of the certificate whose key signed a signature chain (R64): the root a requester's chain ends in is an operand;
this constant is the public key in a DER certificate. -/
opaque certKey : List Byte → List Byte

end Sys2Proof.Config
end

