-- ==== Sys2Proof/Machine/RegNames.lean ====
section
/-! DEFINITION. The spec's register and field names as addresses and bit positions (R31 windows, the chapters' register
tables); an index of the spec (`_k`, `_p`, a channel) is an argument. -/
namespace Sys2Proof.Machine
open Sys2Proof

def Fld.FCX_PAIR_STATE_STATE_0 : Field := ⟨0x40190004, 0, 4⟩
def Fld.FCX_SPARE_SPARE_PAIR : Field := ⟨0x40190008, 0, 3⟩
def Fld.FCX_SPARE_TAKEOVER_EN : Field := ⟨0x40190008, 8, 1⟩
def Reg.FCX_FAULT : Nat := 0x4019000C
def Fld.FCX_FAULT_MISMATCH : Field := ⟨0x4019000C, 0, 8⟩
def Fld.FCX_FAULT_WDOG : Field := ⟨0x4019000C, 8, 8⟩
def Fld.FCX_FAULT_TCM_UE : Field := ⟨0x4019000C, 16, 8⟩
def Fld.FCX_TAKEOVERS_COUNT : Field := ⟨0x40190014, 0, 16⟩
def Reg.TMB_TIME_LO : Nat := 0x401A0000
def Reg.TMB_TIME_HI : Nat := 0x401A0004
def Reg.TMB_STATUS : Nat := 0x401A0008
def Fld.TMB_STATUS_XTAL_OK : Field := ⟨0x401A0008, 0, 1⟩
def Fld.TMB_STATUS_RESUMED : Field := ⟨0x401A0008, 1, 1⟩
def Fld.TMB_STATUS_XTAL_LOSS : Field := ⟨0x401A0008, 2, 1⟩
def Fld.TMB_STATUS_HELD : Field := ⟨0x401A0008, 3, 1⟩
def Reg.TMB_CEIL_LO : Nat := 0x401A000C
def Reg.TMB_CEIL_HI : Nat := 0x401A0010
def Fld.TMB_BOOT_BOOTS : Field := ⟨0x401A0014, 0, 32⟩
def Reg.ACM_CTRL : Nat := 0x40170004
def Fld.ACM_CTRL_LOCK : Field := ⟨0x40170004, 0, 1⟩
def Fld.ACM_CTRL_PASID_DB_CHECK : Field := ⟨0x40170004, 1, 1⟩
def Fld.ACM_MATRIX_COUNT_VALID : Field := ⟨0x40170008, 0, 12⟩
def Reg.ACM_MATRIX_DIGEST (i : Nat) : Nat := 0x40170010 + 0x4 * i
def Fld.ACM_VIO_COUNT_COUNT (i : Nat) : Field := ⟨0x40170040 + 0x4 * i, 0, 16⟩
def Fld.ACM_VIO_STATUS_SEEN : Field := ⟨0x40170080, 1, 9⟩
def Fld.ACM_VIO_LAST_CODE_CODE : Field := ⟨0x40170084, 0, 10⟩
def Fld.ACM_VIO_LAST_MASTER_MASTER_ID : Field := ⟨0x40170088, 0, 32⟩
def Reg.ACM_VIO_LAST_TIME_LO : Nat := 0x4017008C
def Reg.ACM_VIO_LAST_TIME_HI : Nat := 0x40170090
def Reg.ACM_CARD_QUERY : Nat := 0x401700A0
def Reg.ACM_CARD_RESULT : Nat := 0x401700A4
def Fld.ACM_CARD_RESULT_STATE : Field := ⟨0x401700A4, 0, 2⟩
def Fld.ACM_CARD_RESULT_DRAINED : Field := ⟨0x401700A4, 2, 1⟩
def Fld.ACM_CARD_RESULT_CODE : Field := ⟨0x401700A4, 12, 10⟩
def Reg.ACM_CARD_TOTAL : Nat := 0x401700A8
def Reg.ACM_ACT_AS (i : Nat) : Nat := 0x401700C0 + 0x4 * i
def Fld.ACM_ACT_AS_CLASS (i : Nat) : Field := ⟨0x401700C0 + 0x4 * i, 0, 3⟩
def Fld.ACM_ACT_AS_ACTIVE (i : Nat) : Field := ⟨0x401700C0 + 0x4 * i, 3, 1⟩
def Reg.ACM_SVC_STATE : Nat := 0x401700E0
def Fld.ACM_SVC_STATE_UNLOCKED : Field := ⟨0x401700E0, 0, 1⟩
def Fld.ACM_SVC_STATE_FAILS : Field := ⟨0x401700E0, 1, 2⟩
def Fld.ACM_SVC_STATE_BARRED : Field := ⟨0x401700E0, 3, 1⟩
def Fld.MBX_CTRL_PORT_EN : Field := ⟨0x40180004, 0, 4⟩
def Fld.MBX_CTRL_SB_EN : Field := ⟨0x40180004, 4, 1⟩
def Fld.MBX_VOLLEY_TIMEOUT_TIMEOUT_MS : Field := ⟨0x40180008, 0, 16⟩
def Reg.MBX_BIND (i j : Nat) : Nat := 0x40180100 + 0x20 * i + 0x4 * j
def Fld.MBX_BIND_SLICE (i j : Nat) : Field := ⟨0x40180100 + 0x20 * i + 0x4 * j, 0, 10⟩
def Fld.MBX_BIND_BOUND (i j : Nat) : Field := ⟨0x40180100 + 0x20 * i + 0x4 * j, 15, 1⟩
def Reg.MBX_STATE (i : Nat) : Nat := 0x40180200 + 0x4 * i
def Fld.MBX_SESSIONS_ACTIVE : Field := ⟨0x40180240, 0, 5⟩
def Fld.MBX_SESSIONS_MANAGER : Field := ⟨0x40180240, 8, 3⟩
def Fld.MBX_SESSIONS_OFFICER : Field := ⟨0x40180240, 12, 3⟩
def Reg.MBX_COUNT (i : Nat) : Nat := 0x40180300 + 0x4 * i
def Fld.MBX_COUNT_COUNT (i : Nat) : Field := ⟨0x40180300 + 0x4 * i, 0, 32⟩
def Reg.SBD_CTRL : Nat := 0x401C0000
def Fld.SBD_CTRL_EN : Field := ⟨0x401C0000, 0, 1⟩
def Fld.SBD_CTRL_BUS : Field := ⟨0x401C0000, 1, 1⟩
def Fld.SBD_CTRL_BASIC_MI : Field := ⟨0x401C0000, 2, 1⟩
def Reg.SBD_ADDR : Nat := 0x401C0004
def Fld.SBD_ADDR_I3C_DYN : Field := ⟨0x401C0004, 8, 7⟩
def Fld.SBD_ADDR_EID : Field := ⟨0x401C0004, 16, 8⟩
def Fld.SBD_STATUS_BUS_RESET : Field := ⟨0x401C0008, 0, 1⟩
def Fld.SBD_STATUS_PEC_ERR : Field := ⟨0x401C0008, 1, 1⟩
def Fld.SBD_DROPPED_COUNT : Field := ⟨0x401C000C, 0, 16⟩
def Fld.HPT_STRAP_CFG : Field := ⟨0x40000004, 0, 2⟩
def Fld.HPT_STRAP_PRESENT : Field := ⟨0x40000004, 4, 4⟩
def Reg.HPT_CTRL : Nat := 0x40000008
def Fld.HPT_CTRL_TRAIN_EN : Field := ⟨0x40000008, 0, 4⟩
def Reg.HPT_LINK (i : Nat) : Nat := 0x40000100 + 0x40 * i
def Fld.HPT_LINK_SPEED (i : Nat) : Field := ⟨0x40000100 + 0x40 * i, 0, 3⟩
def Fld.HPT_LINK_WIDTH (i : Nat) : Field := ⟨0x40000100 + 0x40 * i, 3, 5⟩
def Fld.HPT_LINK_FLIT (i : Nat) : Field := ⟨0x40000100 + 0x40 * i, 8, 1⟩
def Fld.HPT_LINK_L0P (i : Nat) : Field := ⟨0x40000100 + 0x40 * i, 9, 1⟩
def Fld.HPT_LINK_DL_UP (i : Nat) : Field := ⟨0x40000100 + 0x40 * i, 10, 1⟩
def Fld.HPT_LINK_LTSSM (i : Nat) : Field := ⟨0x40000100 + 0x40 * i, 16, 4⟩
def Reg.HPT_EVENT (i : Nat) : Nat := 0x40000104 + 0x40 * i
def Fld.HPT_EVENT_DL_DOWN (i : Nat) : Field := ⟨0x40000104 + 0x40 * i, 0, 1⟩
def Fld.HPT_EVENT_PERST (i : Nat) : Field := ⟨0x40000104 + 0x40 * i, 1, 1⟩
def Fld.HPT_EVENT_FLR (i : Nat) : Field := ⟨0x40000104 + 0x40 * i, 2, 1⟩
def Fld.HPT_EVENT_HOT_RESET (i : Nat) : Field := ⟨0x40000104 + 0x40 * i, 3, 1⟩
def Fld.HPT_EVENT_WIDTH_DROP (i : Nat) : Field := ⟨0x40000104 + 0x40 * i, 4, 1⟩
def Fld.HPT_EVENT_SPEED_DROP (i : Nat) : Field := ⟨0x40000104 + 0x40 * i, 5, 1⟩
def Fld.HPT_EVENT_CPL_TIMEOUT (i : Nat) : Field := ⟨0x40000104 + 0x40 * i, 6, 1⟩
def Fld.HPT_EVENT_POISONED (i : Nat) : Field := ⟨0x40000104 + 0x40 * i, 7, 1⟩
def Fld.HPT_EVENT_ECRC_ERR (i : Nat) : Field := ⟨0x40000104 + 0x40 * i, 8, 1⟩
def Fld.HPT_RECOVERY_COUNT_COUNT (i : Nat) : Field := ⟨0x40000108 + 0x40 * i, 0, 16⟩
def Fld.HPT_DMA_LIMITS_MPS (i : Nat) : Field := ⟨0x4000010C + 0x40 * i, 0, 3⟩
def Fld.HPT_DMA_LIMITS_MRRS (i : Nat) : Field := ⟨0x4000010C + 0x40 * i, 4, 3⟩
def Fld.QEN_CTX_FREE_FREE : Field := ⟨0x40010004, 0, 20⟩
def Reg.QEN_CTX_RESERVE (i : Nat) : Nat := 0x40010010 + 0x4 * i
def Fld.QEN_CTX_RESERVE_RESERVE (i : Nat) : Field := ⟨0x40010010 + 0x4 * i, 0, 18⟩
def Fld.QEN_CTX_USED_USED (i : Nat) : Field := ⟨0x40010020 + 0x4 * i, 0, 20⟩
def Reg.QEN_PS : Nat := 0x40010040
def Fld.QEN_PS_EFFECTIVE : Field := ⟨0x40010040, 16, 3⟩
def Fld.QEN_PS_TRANSITION : Field := ⟨0x40010040, 19, 1⟩
def Fld.QEN_PS_EXCURSION : Field := ⟨0x40010040, 20, 1⟩
def Reg.QEN_IDLE_MS (i : Nat) : Nat := 0x40010050 + 0x4 * i
def Fld.QEN_PS_COUNT_ENTRIES : Field := ⟨0x40010060, 0, 16⟩
def Fld.QEN_PS_COUNT_EXCURSIONS : Field := ⟨0x40010060, 16, 16⟩
def Reg.QEN_DST : Nat := 0x40010070
def Fld.QEN_DST_STATE : Field := ⟨0x40010070, 0, 2⟩
def Fld.QEN_DST_PERCENT : Field := ⟨0x40010070, 2, 7⟩
def Fld.QEN_DST_ORIGIN : Field := ⟨0x40010070, 9, 3⟩
def Fld.SLM_TOTALS_DEFINED : Field := ⟨0x40020004, 0, 11⟩
def Fld.SLM_TOTALS_ISOLATED : Field := ⟨0x40020004, 16, 11⟩
def Fld.SLM_QUEUE_TOTALS_SQS : Field := ⟨0x40020008, 0, 13⟩
def Fld.SLM_QUEUE_TOTALS_CQS : Field := ⟨0x40020008, 16, 13⟩
def Fld.SLM_POWER_SUM_SUM : Field := ⟨0x4002000C, 0, 11⟩
def Reg.SLM_EPOCH_LO : Nat := 0x40020010
def Reg.SLM_EPOCH_HI : Nat := 0x40020014
def Fld.SLM_RESETS_RUNNING : Field := ⟨0x40020018, 0, 11⟩
def Fld.SLM_RESETS_COMPLETED : Field := ⟨0x40020018, 16, 16⟩
def Reg.SLM_SEL : Nat := 0x40020020
def Fld.SLM_SEL_SLICE : Field := ⟨0x40020020, 0, 10⟩
def Reg.SLM_V_STATE : Nat := 0x40020100
def Reg.SLM_V_PASID : Nat := 0x40020104
def Reg.SLM_V_DMA_BASE_LO : Nat := 0x40020108
def Reg.SLM_V_DMA_BASE_HI : Nat := 0x4002010C
def Reg.SLM_V_DMA_LIMIT_LO : Nat := 0x40020110
def Reg.SLM_V_DMA_LIMIT_HI : Nat := 0x40020114
def Reg.SLM_V_SHARE : Nat := 0x40020118
def Reg.SLM_V_SHARE_NEXT : Nat := 0x4002011C
def Reg.SLM_V_SLOTS : Nat := 0x40020120
def Reg.SLM_V_RESET : Nat := 0x40020124
def Reg.SLM_V_LAST_EPOCH : Nat := 0x40020128
def Reg.SLM_V_BW_CAP : Nat := 0x4002012C
def Fld.ZNE_CTRL_EN : Field := ⟨0x40030008, 0, 1⟩
def Reg.ZNE_ZD_BASE_LO : Nat := 0x40030010
def Reg.ZNE_ZD_BASE_HI : Nat := 0x40030014
def Reg.ZNE_EXT_BASE_LO : Nat := 0x40030018
def Reg.ZNE_EXT_BASE_HI : Nat := 0x4003001C
def Reg.ZNE_STG_BASE_LO : Nat := 0x40030020
def Reg.ZNE_STG_BASE_HI : Nat := 0x40030024
def Fld.ZNE_STG_RECORDS_RECORDS : Field := ⟨0x40030028, 0, 28⟩
def Fld.ZNE_STG_FREE_FREE : Field := ⟨0x4003002C, 0, 28⟩
def Fld.ZNE_STG_WATER_HIGH_PCT : Field := ⟨0x40030030, 0, 7⟩
def Fld.ZNE_STG_WATER_STOP_PCT : Field := ⟨0x40030030, 8, 7⟩
def Fld.ZNE_ACTIVE_COUNT : Field := ⟨0x40030040, 0, 17⟩
def Fld.ZNE_OPEN_COUNT : Field := ⟨0x40030044, 0, 17⟩
def Fld.ZNE_ACTIVE_RESERVED_COUNT : Field := ⟨0x40030048, 0, 17⟩
def Reg.ZNE_PINNED : Nat := 0x4003004C
def Fld.ZNE_CACHE_HITS_COUNT : Field := ⟨0x40030050, 0, 32⟩
def Fld.ZNE_CACHE_MISSES_COUNT : Field := ⟨0x40030054, 0, 32⟩
def Fld.ZNE_ZRES_THRESH_PCT : Field := ⟨0x40030060, 0, 7⟩
def Reg.ZNE_RESERVABLE_LO : Nat := 0x40030064
def Reg.ZNE_RESERVABLE_HI : Nat := 0x40030068
def Reg.ZNE_EOL : Nat := 0x40030070
def Fld.ZNE_EOL_REDUCED : Field := ⟨0x40030070, 0, 1⟩
def Fld.ZNE_EOL_READ_ONLY : Field := ⟨0x40030070, 1, 1⟩
def Fld.ZNE_EOL_LAST_K : Field := ⟨0x40030070, 2, 5⟩
def Fld.ZNE_EVENTS_STG_HIGH : Field := ⟨0x40030074, 0, 1⟩
def Fld.ZNE_EVENTS_STG_STOP : Field := ⟨0x40030074, 1, 1⟩
def Fld.ZNE_EVENTS_ZONE_REDUCED : Field := ⟨0x40030074, 2, 1⟩
def Fld.ZNE_EVENTS_READ_ONLY_ENTERED : Field := ⟨0x40030074, 3, 1⟩
def Fld.ZNE_EVENTS_DESC_CRC : Field := ⟨0x40030074, 4, 1⟩
def Fld.ZNE_EVENTS_EXTENT_REWRITE : Field := ⟨0x40030074, 5, 1⟩
def Reg.CMP_BASE_LO : Nat := 0x40040004
def Reg.CMP_BASE_HI : Nat := 0x40040008
def Reg.CMP_REGION : Nat := 0x4004000C
def Fld.CMP_REGION_UNITS : Field := ⟨0x4004000C, 0, 27⟩
def Reg.CMP_ALLOCATED : Nat := 0x40040010
def Reg.CMP_LARGEST_FREE : Nat := 0x40040014
def Reg.CMP_MAPPED : Nat := 0x40040018
def Reg.CMP_STAGED : Nat := 0x4004001C
def Reg.CMP_SEQ_LO : Nat := 0x40040020
def Reg.CMP_SEQ_HI : Nat := 0x40040024
def Fld.CMP_EVENTS_SEQ_MISMATCH : Field := ⟨0x40040028, 0, 1⟩
def Fld.CMP_EVENTS_WRITE_PROTECTED : Field := ⟨0x40040028, 1, 1⟩
def Fld.CMP_CTRL_EN : Field := ⟨0x4004002C, 0, 1⟩
def Fld.PLC_CTRL_EN : Field := ⟨0x40050004, 0, 1⟩
def Fld.PLC_STG_FRACTION : Field := ⟨0x40050008, 0, 8⟩
def Fld.PLC_STG_MIN_BLOCKS : Field := ⟨0x4005000C, 0, 32⟩
def Fld.PLC_STG_LIMIT_BLOCKS : Field := ⟨0x40050010, 0, 32⟩
def Fld.PLC_STG_USED_BLOCKS : Field := ⟨0x40050014, 0, 32⟩
def Fld.PLC_FREE_BLOCKS : Field := ⟨0x40050018, 0, 32⟩
def Fld.PLC_FOLD_WATER_LOW_PCT : Field := ⟨0x4005001C, 0, 7⟩
def Fld.PLC_FOLD_WATER_HIGH_PCT : Field := ⟨0x4005001C, 8, 7⟩
def Fld.PLC_DIRECT_HOLD_MS : Field := ⟨0x40050020, 0, 16⟩
def Fld.PLC_DIRECT_TAIL_PCT : Field := ⟨0x40050020, 16, 7⟩
def Fld.PLC_QUIET_ENTER_US : Field := ⟨0x40050024, 0, 12⟩
def Fld.PLC_QUIET_EXIT_US : Field := ⟨0x40050024, 12, 12⟩
def Fld.PLC_QUIET_MAX_GROUPS : Field := ⟨0x40050024, 24, 8⟩
def Fld.PLC_QUIET_TIME_MAX_MS : Field := ⟨0x40050028, 0, 8⟩
def Fld.PLC_QUIET_TIME_GAP_MS : Field := ⟨0x40050028, 8, 8⟩
def Fld.PLC_SCORE_W_FREE : Field := ⟨0x4005002C, 0, 4⟩
def Fld.PLC_SCORE_W_PE : Field := ⟨0x4005002C, 4, 4⟩
def Fld.PLC_SCORE_W_LOAD : Field := ⟨0x4005002C, 8, 4⟩
def Fld.PLC_MIN_SHARED_GROUPS : Field := ⟨0x40050030, 0, 8⟩
def Fld.PLC_GRP_PRESENT_GROUPS (i : Nat) : Field := ⟨0x40050040 + 0x4 * i, 0, 32⟩
def Reg.PLC_GRP_DEGRADED (i : Nat) : Nat := 0x40050050 + 0x4 * i
def Fld.PLC_GRP_DEGRADED_GROUPS (i : Nat) : Field := ⟨0x40050050 + 0x4 * i, 0, 32⟩
def Fld.PLC_GRP_CLOSED_GROUPS (i : Nat) : Field := ⟨0x40050060 + 0x4 * i, 0, 32⟩
def Reg.PLC_GRP_HOLD (i : Nat) : Nat := 0x40050070 + 0x4 * i
def Fld.PLC_GRP_HOLD_GROUPS (i : Nat) : Field := ⟨0x40050070 + 0x4 * i, 0, 32⟩
def Reg.PLC_GRP_DEDICATED (i : Nat) : Nat := 0x40050080 + 0x4 * i
def Fld.PLC_GRP_DEDICATED_GROUPS (i : Nat) : Field := ⟨0x40050080 + 0x4 * i, 0, 32⟩
def Fld.PLC_GRP_QUIET_GROUPS (i : Nat) : Field := ⟨0x40050090 + 0x4 * i, 0, 32⟩
def Fld.PLC_GRP_FULL_GROUPS (i : Nat) : Field := ⟨0x400500A0 + 0x4 * i, 0, 32⟩
def Fld.PLC_GRP_EMPTY_GROUPS (i : Nat) : Field := ⟨0x400500B0 + 0x4 * i, 0, 32⟩
def Fld.PLC_XTE_DED_INSTANCES (i : Nat) : Field := ⟨0x400500C0 + 0x4 * i, 0, 32⟩
def Reg.PLC_DECISIONS_LO : Nat := 0x40050100
def Reg.PLC_DECISIONS_HI : Nat := 0x40050104
def Fld.PLC_READY_WAITS_COUNT : Field := ⟨0x40050108, 0, 32⟩
def Fld.PLC_SPILLS_COUNT : Field := ⟨0x4005010C, 0, 32⟩
def Fld.PLC_TAILS_COUNT : Field := ⟨0x40050110, 0, 32⟩
def Fld.PLC_STREAMS_ACTIVE : Field := ⟨0x40050114, 0, 11⟩
def Fld.PLC_STREAMS_PREPARED : Field := ⟨0x40050114, 16, 14⟩
def Fld.PLC_FOLDS_RUNNING : Field := ⟨0x40050118, 0, 16⟩
def Fld.PLC_FOLDS_Q2 : Field := ⟨0x40050118, 16, 1⟩
def Fld.PLC_EVENTS_STG_LOW : Field := ⟨0x40050120, 0, 1⟩
def Fld.PLC_EVENTS_STG_HIGH : Field := ⟨0x40050120, 1, 1⟩
def Fld.PLC_EVENTS_STG_FULL : Field := ⟨0x40050120, 2, 1⟩
def Fld.PLC_EVENTS_QUIET_CAP : Field := ⟨0x40050120, 3, 1⟩
def Fld.PLC_EVENTS_GROUP_DEGRADED : Field := ⟨0x40050120, 4, 1⟩
def Fld.PLC_EVENTS_GROUP_CLOSED : Field := ⟨0x40050120, 5, 1⟩
def Fld.PLC_EVENTS_STREAMS_FULL : Field := ⟨0x40050120, 6, 1⟩
def Fld.PLC_EVENTS_ISO_EXHAUSTED : Field := ⟨0x40050120, 7, 1⟩
def Reg.PLC_SEL : Nat := 0x40050130
def Fld.PLC_SEL_SLICE : Field := ⟨0x40050130, 0, 10⟩
def Reg.PLC_V_MASK_LO : Nat := 0x40050134
def Reg.PLC_V_MASK_HI : Nat := 0x40050138
def Reg.PLC_V_DEFAULT : Nat := 0x4005013C
def Fld.DSC_CTRL_EN : Field := ⟨0x40060004, 0, 1⟩
def Fld.DSC_CTRL_SUSPEND_EN : Field := ⟨0x40060004, 1, 1⟩
def Fld.DSC_CTRL_REBOUND_EN : Field := ⟨0x40060004, 2, 1⟩
def Reg.DSC_PRED_BANK : Nat := 0x40060008
def Fld.DSC_PRED_BANK_ACTIVE : Field := ⟨0x40060008, 0, 1⟩
def Fld.DSC_CLASS_READ_READ_US (i : Nat) : Field := ⟨0x40060010 + 0x8 * i, 0, 20⟩
def Fld.DSC_CLASS_OP_OP_US (i : Nat) : Field := ⟨0x40060014 + 0x8 * i, 0, 24⟩
def Fld.DSC_SUSPEND_MAX_PER_OP : Field := ⟨0x40060030, 0, 3⟩
def Fld.DSC_SUSPEND_CLASSES : Field := ⟨0x40060030, 4, 4⟩
def Fld.DSC_SUSPEND_PROG_MIN_US : Field := ⟨0x40060030, 8, 12⟩
def Fld.DSC_SUSPEND_ERASE_MIN_US : Field := ⟨0x40060030, 20, 12⟩
def Fld.DSC_SUSPEND_TIME_WINDOW_US : Field := ⟨0x40060034, 0, 12⟩
def Fld.DSC_SUSPEND_TIME_TOTAL_US : Field := ⟨0x40060034, 12, 16⟩
def Fld.DSC_RB_CTRL_PCT : Field := ⟨0x40060038, 0, 7⟩
def Fld.DSC_RB_CTRL_FLOOR : Field := ⟨0x40060038, 8, 16⟩
def Fld.DSC_RB_CTRL_MARGIN_US : Field := ⟨0x40060038, 24, 8⟩
def Fld.DSC_PATH_RB_CLASSES : Field := ⟨0x4006003C, 0, 4⟩
def Fld.DSC_PATH_XOR_US : Field := ⟨0x4006003C, 4, 8⟩
def Fld.DSC_PATH_PATH_US : Field := ⟨0x4006003C, 12, 8⟩
def Fld.DSC_DIRTY_URGENT_PCT : Field := ⟨0x40060040, 0, 7⟩
def Fld.DSC_RB_TOKENS_TOKENS : Field := ⟨0x40060044, 0, 24⟩
def Fld.DSC_QUEUED_OPS : Field := ⟨0x40060048, 0, 19⟩
def Fld.DSC_COUNT_COUNT (i : Nat) : Field := ⟨0x40060080 + 0x4 * i, 0, 32⟩
def Fld.DSC_MISS_COUNT (i : Nat) : Field := ⟨0x400600C0 + 0x4 * i, 0, 32⟩
def Reg.DSC_LAT_SEL : Nat := 0x40060100
def Fld.DSC_LAT_SEL_CLASS : Field := ⟨0x40060100, 0, 2⟩
def Reg.DSC_LAT_BIN (i : Nat) : Nat := 0x40060180 + 0x4 * i
def Reg.DSC_DIE_SEL : Nat := 0x40060200
def Fld.DSC_DIE_SEL_DIE : Field := ⟨0x40060200, 0, 11⟩
def Reg.DSC_V_BACKLOG : Nat := 0x40060204
def Reg.DSC_V_STATE : Nat := 0x40060208
def Reg.DSC_PRED_BANK0 (i : Nat) : Nat := 0x40061000 + 0x4 * i
def Fld.DSC_PRED_BANK0_TIME_QUS (i : Nat) : Field := ⟨0x40061000 + 0x4 * i, 0, 16⟩
def Reg.DSC_PRED_BANK1 (i : Nat) : Nat := 0x40061400 + 0x4 * i
def Fld.DSC_PRED_BANK1_TIME_QUS (i : Nat) : Field := ⟨0x40061400 + 0x4 * i, 0, 16⟩
def Reg.DSC_EST (i : Nat) : Nat := 0x40064000 + 0x4 * i
def Fld.DSC_EST_CORR (i : Nat) : Field := ⟨0x40064000 + 0x4 * i, 0, 8⟩
def Fld.DSC_EST_RETRY_Q4 (i : Nat) : Field := ⟨0x40064000 + 0x4 * i, 8, 8⟩
def Reg.LDC_CTRL : Nat := 0x40070008
def Fld.LDC_CTRL_EN : Field := ⟨0x40070008, 0, 1⟩
def Fld.LDC_CTRL_SOFT_EN : Field := ⟨0x40070008, 1, 1⟩
def Fld.LDC_RETRY_CTRL_MAX_RETRY : Field := ⟨0x4007000C, 0, 4⟩
def Fld.LDC_COUNT_COUNT (i : Nat) : Field := ⟨0x40070040 + 0x4 * i, 0, 32⟩
def Fld.LDC_EVENTS_UNCORRECTABLE : Field := ⟨0x40070060, 0, 1⟩
def Fld.LDC_EVENTS_HEADER_MISMATCH : Field := ⟨0x40070060, 1, 1⟩
def Fld.LDC_EVENTS_SOFT_USED : Field := ⟨0x40070060, 2, 1⟩
def Fld.LDC_EVENTS_DECODER_BORROWED : Field := ⟨0x40070060, 3, 1⟩
def Reg.LDC_DEC_SEL : Nat := 0x40070070
def Fld.LDC_DEC_SEL_DECODER : Field := ⟨0x40070070, 0, 7⟩
def Reg.LDC_V_DEC : Nat := 0x40070074
def Fld.LDC_MED_CTRL_SPARE_NUM : Field := ⟨0x40070100, 0, 8⟩
def Fld.LDC_MED_CTRL_EXPORT_NUM : Field := ⟨0x40070100, 8, 10⟩
def Fld.LDC_MED_SPARE_WARN_PCT : Field := ⟨0x40070104, 0, 7⟩
def Fld.LDC_MED_SPARE_AVAIL_PCT : Field := ⟨0x40070104, 8, 7⟩
def Fld.LDC_MED_SPARE_PCT_USED : Field := ⟨0x40070104, 16, 8⟩
def Fld.LDC_MED_WL_SPREAD : Field := ⟨0x40070108, 0, 16⟩
def Fld.LDC_MED_COLL_Q3_PCT : Field := ⟨0x4007010C, 0, 7⟩
def Fld.LDC_MED_COLL_Q2_PCT : Field := ⟨0x4007010C, 8, 7⟩
def Fld.LDC_MED_COLL_HOLD_PCT : Field := ⟨0x4007010C, 16, 7⟩
def Fld.LDC_MED_CKPT_PERIOD_S : Field := ⟨0x40070110, 0, 8⟩
def Fld.LDC_MED_CKPT_JRN_MAX_MIB : Field := ⟨0x40070110, 16, 16⟩
def Fld.LDC_MED_EMG_CAP_MIB : Field := ⟨0x40070114, 0, 20⟩
def Reg.LDC_MED_EXPORT_LO : Nat := 0x40070118
def Reg.LDC_MED_EXPORT_HI : Nat := 0x4007011C
def Fld.LDC_MED_SPARE_BLOCKS_BLOCKS : Field := ⟨0x40070120, 0, 24⟩
def Fld.LDC_MED_SPARE_INIT_BLOCKS : Field := ⟨0x40070124, 0, 24⟩
def Fld.LDC_MED_RETIRED_BLOCKS : Field := ⟨0x40070128, 0, 24⟩
def Fld.LDC_MED_RETIRE_SUSPECT : Field := ⟨0x4007012C, 0, 8⟩
def Fld.LDC_MED_DIE_TIMEOUT_MS : Field := ⟨0x40070130, 0, 8⟩
def Fld.LDC_MED_DIE_FAIL_BLOCKS : Field := ⟨0x40070130, 8, 8⟩
def Reg.LDC_MED_LOST : Nat := 0x40070134
def Reg.LDC_MED_REBUILD : Nat := 0x40070138
def Fld.LDC_MED_LOST_DIES : Field := ⟨0x40070134, 0, 12⟩
def Fld.LDC_MED_LOST_CHANNELS : Field := ⟨0x40070134, 16, 7⟩
def Fld.LDC_MED_REBUILD_ACTIVE : Field := ⟨0x40070138, 0, 1⟩
def Fld.LDC_MED_REBUILD_PERCENT : Field := ⟨0x40070138, 1, 7⟩
def Fld.LDC_MED_EVENTS_SPARE_LOW : Field := ⟨0x40070140, 0, 1⟩
def Fld.LDC_MED_EVENTS_DIE_LOST : Field := ⟨0x40070140, 1, 1⟩
def Fld.LDC_MED_EVENTS_CHANNEL_LOST : Field := ⟨0x40070140, 2, 1⟩
def Fld.LDC_MED_EVENTS_REBUILD_DONE : Field := ⟨0x40070140, 3, 1⟩
def Fld.LDC_MED_EVENTS_COPY_DEST_FAIL : Field := ⟨0x40070140, 4, 1⟩
def Fld.LDC_MED_EVENTS_UNIT_LOST : Field := ⟨0x40070140, 5, 1⟩
def Reg.LDC_MED_DIE_SEL : Nat := 0x40070150
def Fld.LDC_MED_DIE_SEL_DIE : Field := ⟨0x40070150, 0, 11⟩
def Reg.LDC_MED_V_DIE : Nat := 0x40070154
def Reg.LDC_MED_V_PE : Nat := 0x40070158
def Reg.LDC_STEP (i : Nat) : Nat := 0x40072000 + 0x4 * i
def Fld.LDC_STEP_STEP_SLC (i : Nat) : Field := ⟨0x40072000 + 0x4 * i, 0, 4⟩
def Fld.LDC_STEP_STEP_TLC (i : Nat) : Field := ⟨0x40072000 + 0x4 * i, 4, 4⟩
def Fld.LDC_STEP_STEP_QLC (i : Nat) : Field := ⟨0x40072000 + 0x4 * i, 8, 4⟩
def Reg.LDC_RETRY (i j k : Nat) : Nat := 0x40071000 + 0x400 * i + 0x40 * j + 0x4 * k
def Reg.CHS_CTRL (i : Nat) : Nat := 0x41000004 + 0x10000 * i
def Fld.CHS_CTRL_EN (i : Nat) : Field := ⟨0x41000004 + 0x10000 * i, 0, 1⟩
def Fld.CHS_CTRL_PROG_EN (i : Nat) : Field := ⟨0x41000004 + 0x10000 * i, 1, 1⟩
def Fld.CHS_CTRL_RESET (i : Nat) : Field := ⟨0x41000004 + 0x10000 * i, 2, 1⟩
def Fld.CHS_CTRL_ISO_CAP_EN (i : Nat) : Field := ⟨0x41000004 + 0x10000 * i, 3, 1⟩
def Fld.CHS_STATE_STATE (i : Nat) : Field := ⟨0x41000008 + 0x10000 * i, 0, 3⟩
def Fld.CHS_STATE_PFAIL (i : Nat) : Field := ⟨0x41000008 + 0x10000 * i, 3, 1⟩
def Fld.CHS_BUS_IF (i : Nat) : Field := ⟨0x4100000C + 0x10000 * i, 0, 2⟩
def Fld.CHS_BUS_RATE_MTS (i : Nat) : Field := ⟨0x4100000C + 0x10000 * i, 4, 13⟩
def Fld.CHS_YIELD_YIELD_US (i : Nat) : Field := ⟨0x41000014 + 0x10000 * i, 0, 4⟩
def Fld.CHS_YIELD_CUST_MAX_US (i : Nat) : Field := ⟨0x41000014 + 0x10000 * i, 16, 11⟩
def Fld.CHS_DIE_MAP_DIES (i : Nat) : Field := ⟨0x41000018 + 0x10000 * i, 0, 32⟩
def Fld.CHS_DIE_LOST_DIES (i : Nat) : Field := ⟨0x4100001C + 0x10000 * i, 0, 32⟩
def Fld.CHS_UCODE_STATE (i : Nat) : Field := ⟨0x41000054 + 0x10000 * i, 0, 2⟩
def Fld.CHS_UCODE_VENDOR_ABI (i : Nat) : Field := ⟨0x41000054 + 0x10000 * i, 8, 8⟩
def Fld.CHS_UCODE_CUST_WORDS (i : Nat) : Field := ⟨0x41000054 + 0x10000 * i, 16, 12⟩
def Fld.CHS_UCODE_SVN_VENDOR (i : Nat) : Field := ⟨0x41000058 + 0x10000 * i, 0, 16⟩
def Fld.CHS_UCODE_SVN_CUSTOMER (i : Nat) : Field := ⟨0x41000058 + 0x10000 * i, 16, 16⟩
def Fld.CHS_UCODE_DIGEST_DIGEST (i j : Nat) : Field := ⟨0x41000060 + 0x10000 * i + 0x4 * j, 0, 32⟩
def Fld.CHS_MC_ADDR (i : Nat) : Field := ⟨0x41000090 + 0x10000 * i, 0, 13⟩
def Fld.CHS_MC_VALID (i : Nat) : Field := ⟨0x41000090 + 0x10000 * i, 13, 1⟩
def Fld.CHS_MC_SCRUB (i : Nat) : Field := ⟨0x41000090 + 0x10000 * i, 14, 1⟩
def Fld.CHS_VIO_ADDR (i : Nat) : Field := ⟨0x41000094 + 0x10000 * i, 0, 13⟩
def Fld.CHS_VIO_DIE (i : Nat) : Field := ⟨0x41000094 + 0x10000 * i, 16, 5⟩
def Fld.CHS_VIO_KIND (i : Nat) : Field := ⟨0x41000094 + 0x10000 * i, 21, 3⟩
def Fld.CHS_VIO_VALID (i : Nat) : Field := ⟨0x41000094 + 0x10000 * i, 24, 1⟩
def Fld.CHS_SCRUB_NEXT (i : Nat) : Field := ⟨0x41000098 + 0x10000 * i, 0, 13⟩
def Fld.CHS_SCRUB_PASSES (i : Nat) : Field := ⟨0x41000098 + 0x10000 * i, 16, 16⟩
def Fld.CHS_COUNT_COUNT (i j : Nat) : Field := ⟨0x410000A0 + 0x10000 * i + 0x4 * j, 0, 32⟩
def Fld.CHS_EVENTS_PROGRAM_FAIL (i : Nat) : Field := ⟨0x410000C0 + 0x10000 * i, 0, 1⟩
def Fld.CHS_EVENTS_ERASE_FAIL (i : Nat) : Field := ⟨0x410000C0 + 0x10000 * i, 1, 1⟩
def Fld.CHS_EVENTS_DIE_TIMEOUT (i : Nat) : Field := ⟨0x410000C0 + 0x10000 * i, 2, 1⟩
def Fld.CHS_EVENTS_DESC_INVALID (i : Nat) : Field := ⟨0x410000C0 + 0x10000 * i, 3, 1⟩
def Fld.CHS_EVENTS_ERASE_SUSP_REFUSED (i : Nat) : Field := ⟨0x410000C0 + 0x10000 * i, 4, 1⟩
def Fld.CHS_EVENTS_CFIFO_FULL (i : Nat) : Field := ⟨0x410000C0 + 0x10000 * i, 5, 1⟩
def Fld.CHS_EVENTS_MACHINE_CHECK (i : Nat) : Field := ⟨0x410000C0 + 0x10000 * i, 6, 1⟩
def Fld.CHS_EVENTS_VIOLATION (i : Nat) : Field := ⟨0x410000C0 + 0x10000 * i, 7, 1⟩
def Fld.CHS_EVENTS_SEQ_FULL (i : Nat) : Field := ⟨0x410000C0 + 0x10000 * i, 8, 1⟩
def Fld.CHS_DIE_SEL_DIE (i : Nat) : Field := ⟨0x410000D0 + 0x10000 * i, 0, 5⟩
def Fld.CHS_SEQ_SEL_ENTRY (i : Nat) : Field := ⟨0x410000E0 + 0x10000 * i, 0, 6⟩
def Fld.CHS_PAGES_ST_SLC (i : Nat) : Field := ⟨0x410000EC + 0x10000 * i, 0, 13⟩
def Fld.CHS_PAGES_ST_TLC (i : Nat) : Field := ⟨0x410000EC + 0x10000 * i, 16, 13⟩
def Fld.CHS_PAGES_Q_QLC (i : Nat) : Field := ⟨0x410000F0 + 0x10000 * i, 0, 13⟩
def Fld.CHS_PLANES_PLANES (i : Nat) : Field := ⟨0x410000F4 + 0x10000 * i, 0, 3⟩
def Reg.CHS_POST_D (i j : Nat) : Nat := 0x41000100 + 0x10000 * i + 0x4 * j
def Reg.CHS_POST_GO (i : Nat) : Nat := 0x41000140 + 0x10000 * i
def Fld.CHS_POST_GO_QUEUE (i : Nat) : Field := ⟨0x41000140 + 0x10000 * i, 0, 2⟩
def Fld.CHS_POST_GO_GO (i : Nat) : Field := ⟨0x41000140 + 0x10000 * i, 8, 1⟩
def Reg.BPM_CTRL : Nat := 0x40080004
def Fld.BPM_CTRL_EN : Field := ⟨0x40080004, 0, 1⟩
def Fld.BPM_CTRL_AUDIT_EN : Field := ⟨0x40080004, 1, 1⟩
def Reg.BPM_POOL (i : Nat) : Nat := 0x40080010 + 0x4 * i
def Fld.BPM_POOL_COUNT (i : Nat) : Field := ⟨0x40080010 + 0x4 * i, 0, 16⟩
def Fld.BPM_BASE_OFFSET (i : Nat) : Field := ⟨0x40080020 + 0x4 * i, 0, 26⟩
def Reg.BPM_FREE (i : Nat) : Nat := 0x40080030 + 0x4 * i
def Fld.BPM_RES_RESERVED (i : Nat) : Field := ⟨0x40080040 + 0x4 * i, 0, 16⟩
def Fld.BPM_RES_MIN_SURPLUS (i : Nat) : Field := ⟨0x40080040 + 0x4 * i, 16, 16⟩
def Reg.BPM_BP : Nat := 0x40080050
def Fld.BPM_BP_T3_PCT : Field := ⟨0x40080050, 0, 7⟩
def Fld.BPM_BP_T2_PCT : Field := ⟨0x40080050, 8, 7⟩
def Fld.BPM_BP_T1_PCT : Field := ⟨0x40080050, 16, 7⟩
def Fld.BPM_BP_HYST_PCT : Field := ⟨0x40080050, 24, 4⟩
def Fld.BPM_BP_RELEASE_BUFS : Field := ⟨0x40080054, 0, 16⟩
def Fld.BPM_BP_STATE_ACTIVE : Field := ⟨0x40080058, 0, 4⟩
def Fld.BPM_BP_STATE_BY_LOSS : Field := ⟨0x40080058, 4, 4⟩
def Fld.BPM_BP_STATE_WAITING : Field := ⟨0x40080058, 8, 4⟩
def Fld.BPM_COUNT_COUNT (i : Nat) : Field := ⟨0x40080060 + 0x4 * i, 0, 32⟩
def Fld.BPM_EVENTS_BP_RAISED : Field := ⟨0x40080080, 0, 4⟩
def Fld.BPM_EVENTS_LEAK : Field := ⟨0x40080080, 4, 1⟩
def Fld.BPM_EVENTS_DOUBLE_FREE : Field := ⟨0x40080080, 5, 1⟩
def Fld.BPM_EVENTS_NOT_OWNER : Field := ⟨0x40080080, 6, 1⟩
def Fld.BPM_EVENTS_CHAIN : Field := ⟨0x40080080, 7, 1⟩
def Fld.BPM_AUDIT_AGE_MS : Field := ⟨0x40080084, 16, 16⟩
def Fld.BPM_AUDIT_STATE_PASSES : Field := ⟨0x40080088, 0, 16⟩
def Fld.BPM_AUDIT_STATE_LEAKS : Field := ⟨0x40080088, 16, 16⟩
def Reg.BPM_AUDIT_TIME_LO : Nat := 0x4008008C
def Reg.BPM_AUDIT_TIME_HI : Nat := 0x40080090
def Fld.BPM_HOLDER_HELD (i : Nat) : Field := ⟨0x400800A0 + 0x4 * i, 0, 16⟩
def Fld.BPM_HOLDER_OLDEST_MS (i : Nat) : Field := ⟨0x400800A0 + 0x4 * i, 16, 16⟩
def Fld.BPM_ISO_DEFAULT_LO_POOL0 : Field := ⟨0x400800C0, 0, 16⟩
def Fld.BPM_ISO_DEFAULT_LO_POOL1 : Field := ⟨0x400800C0, 16, 16⟩
def Fld.BPM_ISO_DEFAULT_HI_POOL2 : Field := ⟨0x400800C4, 0, 16⟩
def Fld.BPM_ISO_DEFAULT_HI_POOL3 : Field := ⟨0x400800C4, 16, 16⟩
def Reg.BPM_ACCT_SEL : Nat := 0x40080100
def Fld.BPM_ACCT_SEL_ACCOUNT : Field := ⟨0x40080100, 0, 11⟩
def Reg.BPM_V_QUOTA (i : Nat) : Nat := 0x40080110 + 0x4 * i
def Reg.BPM_V_HELD (i : Nat) : Nat := 0x40080120 + 0x4 * i
def Reg.BPM_V_STATE : Nat := 0x40080130
def Reg.BPM_FW_ALLOC (i : Nat) : Nat := 0x40080200 + 0x20 * i
def Fld.BPM_FW_HANDLE_HANDLE (i : Nat) : Field := ⟨0x40080204 + 0x20 * i, 0, 32⟩
def Fld.BPM_FW_STATUS_STATUS (i : Nat) : Field := ⟨0x40080208 + 0x20 * i, 0, 16⟩
def Fld.BPM_FW_STATUS_DONE (i : Nat) : Field := ⟨0x40080208 + 0x20 * i, 16, 1⟩
def Fld.BPM_FW_TARGET_MASTER_ID (i : Nat) : Field := ⟨0x40080210 + 0x20 * i, 0, 32⟩
def Reg.DMC_CTRL : Nat := 0x40090004
def Fld.DMC_CTRL_EN : Field := ⟨0x40090004, 0, 1⟩
def Fld.DMC_CTRL_SELF_REFRESH : Field := ⟨0x40090004, 1, 1⟩
def Reg.DMC_CONFIG : Nat := 0x40090008
def Reg.DMC_TOP_LO : Nat := 0x4009000C
def Reg.DMC_TOP_HI : Nat := 0x40090010
def Fld.DMC_APERTURE_BASE : Field := ⟨0x40090014, 0, 9⟩
def Fld.DMC_STATUS_READY : Field := ⟨0x40090018, 0, 1⟩
def Fld.DMC_STATUS_KEPT : Field := ⟨0x40090018, 1, 1⟩
def Fld.DMC_STATUS_IN_SR : Field := ⟨0x40090018, 2, 1⟩
def Fld.DMC_STATUS_CHANGING : Field := ⟨0x40090018, 3, 1⟩
def Fld.DMC_STATUS_GATHER_OPEN : Field := ⟨0x40090018, 4, 1⟩
def Fld.DMC_STATUS_PANIC : Field := ⟨0x40090018, 5, 1⟩
def Fld.DMC_STATUS_RATE_IDX : Field := ⟨0x40090018, 6, 2⟩
def Reg.DMC_RATE (i : Nat) : Nat := 0x40090020 + 0x4 * i
def Fld.DMC_RATE_MTS_100 (i : Nat) : Field := ⟨0x40090020 + 0x4 * i, 0, 7⟩
def Reg.DMC_SPEED_REQ : Nat := 0x40090030
def Fld.DMC_SPEED_REQ_GO : Field := ⟨0x40090030, 3, 1⟩
def Fld.DMC_SPEED_STATUS_STATUS : Field := ⟨0x40090034, 0, 16⟩
def Fld.DMC_SPEED_STATUS_DONE : Field := ⟨0x40090034, 16, 1⟩
def Reg.DMC_GATHER_CTRL : Nat := 0x40090040
def Fld.DMC_GATHER_CTRL_KIND : Field := ⟨0x40090040, 4, 3⟩
def Fld.DMC_GATHER_CTRL_GO : Field := ⟨0x40090040, 8, 1⟩
def Fld.DMC_GATHER_RANGE_COUNT : Field := ⟨0x40090044, 16, 8⟩
def Fld.DMC_GATHER_STATUS_STATE : Field := ⟨0x40090048, 0, 2⟩
def Fld.DMC_GATHER_STATUS_DISCARDED : Field := ⟨0x40090048, 2, 1⟩
def Fld.DMC_GATHER_STATUS_DONE_STEPS : Field := ⟨0x40090048, 3, 8⟩
def Fld.DMC_GATHER_STATUS_STATUS : Field := ⟨0x40090048, 16, 16⟩
def Fld.DMC_GATHER_TIMEOUT_MS : Field := ⟨0x4009004C, 0, 16⟩
def Fld.DMC_RT_PANIC_NS : Field := ⟨0x40090050, 0, 16⟩
def Fld.DMC_REFRESH_2X_RANKS : Field := ⟨0x40090054, 0, 16⟩
def Fld.DMC_COUNT_COUNT (i : Nat) : Field := ⟨0x40090060 + 0x4 * i, 0, 32⟩
def Fld.DMC_EVENTS_PANIC : Field := ⟨0x40090080, 0, 1⟩
def Fld.DMC_EVENTS_REFRESH_FORCED : Field := ⟨0x40090080, 1, 1⟩
def Fld.DMC_EVENTS_TEMP_2X : Field := ⟨0x40090080, 2, 1⟩
def Fld.DMC_EVENTS_TEMP_ABOVE_2X : Field := ⟨0x40090080, 3, 1⟩
def Fld.DMC_EVENTS_GATHER_DISCARDED : Field := ⟨0x40090080, 4, 1⟩
def Fld.DMC_EVENTS_SPEED_REFUSED : Field := ⟨0x40090080, 5, 1⟩
def Fld.MEP_ID_CODE : Field := ⟨0x400A0000, 0, 1⟩
def Fld.MEP_CTRL_SCRUB_EN : Field := ⟨0x400A0004, 0, 1⟩
def Fld.MEP_CTRL_SRAM_SCRUB_EN : Field := ⟨0x400A0004, 1, 1⟩
def Reg.MEP_SCRUB_POS_LO : Nat := 0x400A000C
def Reg.MEP_SCRUB_POS_HI : Nat := 0x400A0010
def Fld.MEP_SCRUB_PASSES_DRAM : Field := ⟨0x400A0014, 0, 16⟩
def Fld.MEP_SCRUB_PASSES_SRAM : Field := ⟨0x400A0014, 16, 16⟩
def Fld.MEP_MARK_CFG_DEV_EVENTS : Field := ⟨0x400A0018, 0, 8⟩
def Fld.MEP_MARK_CFG_CE_COUNT : Field := ⟨0x400A0018, 16, 16⟩
def Fld.MEP_MARK_DEVICE (i : Nat) : Field := ⟨0x400A0020 + 0x4 * i, 0, 4⟩
def Fld.MEP_MARK_MARKED (i : Nat) : Field := ⟨0x400A0020 + 0x4 * i, 7, 1⟩
def Fld.MEP_MARK_SECOND (i : Nat) : Field := ⟨0x400A0020 + 0x4 * i, 8, 1⟩
def Fld.MEP_MARK_CE (i : Nat) : Field := ⟨0x400A0020 + 0x4 * i, 16, 16⟩
def Fld.MEP_CE_DRAM_COUNT : Field := ⟨0x400A0060, 0, 32⟩
def Fld.MEP_UE_DRAM_COUNT : Field := ⟨0x400A0064, 0, 32⟩
def Fld.MEP_CE_SRAM_COUNT : Field := ⟨0x400A0068, 0, 32⟩
def Fld.MEP_UE_SRAM_COUNT : Field := ⟨0x400A006C, 0, 32⟩
def Reg.MEP_LAST_ADDR_LO : Nat := 0x400A0070
def Reg.MEP_LAST_ADDR_HI : Nat := 0x400A0074
def Fld.MEP_LAST_INFO_UE : Field := ⟨0x400A0078, 0, 1⟩
def Fld.MEP_LAST_INFO_SRAM : Field := ⟨0x400A0078, 1, 1⟩
def Fld.MEP_LAST_INFO_WHERE : Field := ⟨0x400A0078, 2, 4⟩
def Fld.MEP_LAST_INFO_DEVICE : Field := ⟨0x400A0078, 6, 4⟩
def Fld.MEP_LAST_INFO_SYMBOLS : Field := ⟨0x400A0078, 10, 5⟩
def Fld.MEP_EVENTS_DRAM_CE : Field := ⟨0x400A0080, 0, 1⟩
def Fld.MEP_EVENTS_DRAM_UE : Field := ⟨0x400A0080, 1, 1⟩
def Fld.MEP_EVENTS_SRAM_CE : Field := ⟨0x400A0080, 2, 1⟩
def Fld.MEP_EVENTS_SRAM_UE : Field := ⟨0x400A0080, 3, 1⟩
def Fld.MEP_EVENTS_DEVICE_MARKED : Field := ⟨0x400A0080, 4, 1⟩
def Fld.MEP_EVENTS_SECOND_DEVICE : Field := ⟨0x400A0080, 5, 1⟩
def Fld.MEP_EVENTS_PTEST_FAIL : Field := ⟨0x400A0080, 6, 1⟩
def Fld.MEP_EVENTS_INJECTED : Field := ⟨0x400A0080, 7, 1⟩
def Fld.MEP_PTEST_RESULT : Field := ⟨0x400A0090, 0, 2⟩
def Fld.MEP_PTEST_MS : Field := ⟨0x400A0090, 16, 16⟩
def Reg.MEP_INJ_CTRL : Nat := 0x400A00A0
def Fld.MEP_INJ_CTRL_ARM : Field := ⟨0x400A00A0, 0, 1⟩
def Fld.MEP_INJ_CTRL_STICKY : Field := ⟨0x400A00A0, 1, 1⟩
def Fld.MEP_INJ_CTRL_TARGET : Field := ⟨0x400A00A0, 2, 1⟩
def Fld.MEP_INJ_CTRL_FIRED : Field := ⟨0x400A00A0, 12, 1⟩
def Reg.MEP_INJ_ADDR_LO : Nat := 0x400A00A4
def Reg.MEP_INJ_ADDR_HI : Nat := 0x400A00A8
def Fld.UMP_CTRL_EN : Field := ⟨0x400B0004, 0, 1⟩
def Fld.UMP_CTRL_THERMAL_EN : Field := ⟨0x400B0004, 1, 1⟩
def Reg.UMP_BUDGET : Nat := 0x400B0008
def Fld.UMP_BUDGET_BUDGET_W : Field := ⟨0x400B0008, 0, 10⟩
def Fld.UMP_BUDGET_IN_FORCE_W : Field := ⟨0x400B0008, 16, 10⟩
def Fld.UMP_EFFECTIVE_W_EFF : Field := ⟨0x400B000C, 0, 10⟩
def Fld.UMP_EFFECTIVE_STATE : Field := ⟨0x400B000C, 10, 3⟩
def Fld.UMP_EFFECTIVE_THERMAL : Field := ⟨0x400B000C, 16, 4⟩
def Fld.UMP_EFFECTIVE_HOLDUP : Field := ⟨0x400B000C, 20, 1⟩
def Reg.UMP_PP_CTRL : Nat := 0x400B0010
def Fld.UMP_PP_CTRL_PP_MIN : Field := ⟨0x400B0010, 0, 3⟩
def Fld.UMP_PP_CTRL_PP_MAX : Field := ⟨0x400B0010, 4, 3⟩
def Fld.UMP_PP_CTRL_CORE_PCT : Field := ⟨0x400B0010, 8, 7⟩
def Fld.UMP_PP_CTRL_PP_NOW : Field := ⟨0x400B0010, 16, 3⟩
def Fld.UMP_PP_CTRL_PP_TARGET : Field := ⟨0x400B0010, 20, 3⟩
def Fld.UMP_PP_CTRL_CHANGING : Field := ⟨0x400B0010, 23, 1⟩
def Reg.UMP_PP (i : Nat) : Nat := 0x400B0020 + 0x4 * i
def Fld.UMP_PP_VSET_MV (i : Nat) : Field := ⟨0x400B0020 + 0x4 * i, 0, 10⟩
def Fld.UMP_PP_AGE_MV (i : Nat) : Field := ⟨0x400B0020 + 0x4 * i, 10, 6⟩
def Fld.UMP_PP_ALLOW_W (i : Nat) : Field := ⟨0x400B0020 + 0x4 * i, 16, 8⟩
def Fld.UMP_BASE_OTHER_W : Field := ⟨0x400B0040, 0, 8⟩
def Fld.UMP_BASE_FLASH_MIN_W : Field := ⟨0x400B0040, 8, 8⟩
def Fld.UMP_BASE_DEVICE_PCT : Field := ⟨0x400B0040, 16, 7⟩
def Fld.UMP_RAILS_VCC_MV : Field := ⟨0x400B0044, 0, 12⟩
def Fld.UMP_RAILS_VCCQ_MV : Field := ⟨0x400B0044, 16, 12⟩
def Fld.UMP_ICC_BUDGET_100MA : Field := ⟨0x400B0048, 0, 16⟩
def Fld.UMP_ICC_EFF_100MA : Field := ⟨0x400B0048, 16, 16⟩
def Fld.UMP_ICCQ_BUDGET_100MA : Field := ⟨0x400B004C, 0, 16⟩
def Fld.UMP_ICCQ_EFF_100MA : Field := ⟨0x400B004C, 16, 16⟩
def Fld.UMP_PEAK_PEAK_PCT : Field := ⟨0x400B0050, 0, 8⟩
def Fld.UMP_CALL_HOL_US : Field := ⟨0x400B0054, 0, 10⟩
def Fld.UMP_CALL_FLOOR_HOLD_US : Field := ⟨0x400B0054, 16, 10⟩
def Fld.UMP_THERMAL_HOT_C : Field := ⟨0x400B0058, 0, 8⟩
def Fld.UMP_THERMAL_HYST_C : Field := ⟨0x400B0058, 8, 8⟩
def Fld.UMP_THERMAL_FLOOR_8THS : Field := ⟨0x400B0058, 24, 4⟩
def Fld.UMP_HOLDUP_BUDGET_W : Field := ⟨0x400B005C, 0, 10⟩
def Fld.UMP_HOLDUP_PP : Field := ⟨0x400B005C, 12, 3⟩
def Fld.UMP_VR_STATUS_VOUT_MV : Field := ⟨0x400B0064, 0, 10⟩
def Fld.UMP_VR_STATUS_FAULT : Field := ⟨0x400B0064, 10, 1⟩
def Fld.UMP_VR_STATUS_STATUS_WORD : Field := ⟨0x400B0064, 16, 16⟩
def Reg.UMP_COST_BANK : Nat := 0x400B0068
def Fld.UMP_COST_BANK_ACTIVE : Field := ⟨0x400B0068, 0, 1⟩
def Fld.UMP_SENSE_PCT : Field := ⟨0x400B006C, 0, 7⟩
def Reg.UMP_TOKENS : Nat := 0x400B0070
def Reg.UMP_TOKENS_LEFT : Nat := 0x400B0074
def Reg.UMP_POOL_LEFT : Nat := 0x400B0078
def Fld.UMP_ICC_NOW_GRANTED_100MA : Field := ⟨0x400B007C, 0, 16⟩
def Fld.UMP_ICC_NOW_SENSED_100MA : Field := ⟨0x400B007C, 16, 16⟩
def Fld.UMP_ICCQ_NOW_GRANTED_100MA : Field := ⟨0x400B0080, 0, 16⟩
def Fld.UMP_ICCQ_NOW_SENSED_100MA : Field := ⟨0x400B0080, 16, 16⟩
def Reg.UMP_CALLS : Nat := 0x400B0084
def Fld.UMP_COUNT_COUNT (i : Nat) : Field := ⟨0x400B0090 + 0x4 * i, 0, 32⟩
def Fld.UMP_WAIT_NS_MEAN_NS (i : Nat) : Field := ⟨0x400B00B0 + 0x4 * i, 0, 24⟩
def Fld.UMP_EVENTS_BUDGET_UNMET : Field := ⟨0x400B00D0, 0, 1⟩
def Fld.UMP_EVENTS_THERMAL : Field := ⟨0x400B00D0, 1, 1⟩
def Fld.UMP_EVENTS_HOLDUP : Field := ⟨0x400B00D0, 2, 1⟩
def Fld.UMP_EVENTS_VR_FAULT : Field := ⟨0x400B00D0, 3, 1⟩
def Fld.UMP_EVENTS_SENSE_HIGH : Field := ⟨0x400B00D0, 4, 1⟩
def Fld.UMP_EVENTS_GROUP_REFUSED : Field := ⟨0x400B00D0, 5, 1⟩
def Fld.UMP_EVENTS_HOL_BLOCK : Field := ⟨0x400B00D0, 6, 1⟩
def Reg.UMP_SEL : Nat := 0x400B0300
def Fld.UMP_SEL_SLICE : Field := ⟨0x400B0300, 0, 10⟩
def Reg.UMP_V_FLOOR : Nat := 0x400B0304
def Reg.UMP_V_LEFT : Nat := 0x400B0308
def Reg.UMP_V_ICC : Nat := 0x400B030C
def Reg.UMP_V_POWER : Nat := 0x400B0340
def Fld.SGD_CTRL_CHARGE_EN : Field := ⟨0x400C0004, 0, 1⟩
def Fld.SGD_CTRL_SURGE_FLUSH : Field := ⟨0x400C0004, 1, 1⟩
def Fld.SGD_CTRL_TEST_AUTO : Field := ⟨0x400C0004, 2, 1⟩
def Fld.SGD_CTRL_LOCK : Field := ⟨0x400C0004, 8, 1⟩
def Reg.SGD_VTH_A : Nat := 0x400C0008
def Fld.SGD_VTH_A_SAG : Field := ⟨0x400C0008, 0, 11⟩
def Fld.SGD_VTH_A_BROWN : Field := ⟨0x400C0008, 16, 11⟩
def Reg.SGD_VTH_B : Nat := 0x400C000C
def Fld.SGD_VTH_B_FAIL : Field := ⟨0x400C000C, 0, 11⟩
def Fld.SGD_VTH_B_SURGE : Field := ⟨0x400C000C, 16, 11⟩
def Reg.SGD_VTH_C : Nat := 0x400C0010
def Fld.SGD_VTH_C_RESTART : Field := ⟨0x400C0010, 0, 11⟩
def Fld.SGD_VTH_C_RIPPLE_MV : Field := ⟨0x400C0010, 16, 11⟩
def Reg.SGD_FILTER : Nat := 0x400C0014
def Fld.SGD_FILTER_SURGE_US : Field := ⟨0x400C0014, 24, 8⟩
def Fld.SGD_VIN_NOW_10MV : Field := ⟨0x400C0018, 0, 11⟩
def Fld.SGD_VIN_MIN_10MV : Field := ⟨0x400C0018, 16, 11⟩
def Fld.SGD_VIN_CLASS : Field := ⟨0x400C0018, 27, 3⟩
def Fld.SGD_VIN_RIPPLE : Field := ⟨0x400C0018, 30, 1⟩
def Reg.SGD_HU_CFG : Nat := 0x400C0020
def Fld.SGD_HU_CFG_TARGET_10MV : Field := ⟨0x400C0020, 0, 12⟩
def Fld.SGD_HU_CFG_HYST_10MV : Field := ⟨0x400C0020, 16, 8⟩
def Fld.SGD_HU_CFG_CELLS : Field := ⟨0x400C0020, 24, 4⟩
def Reg.SGD_HU_VMIN : Nat := 0x400C0024
def Fld.SGD_HU_VMIN_VMIN_10MV : Field := ⟨0x400C0024, 0, 12⟩
def Fld.SGD_HU_VMIN_EFF_PCT : Field := ⟨0x400C0024, 16, 7⟩
def Reg.SGD_HU_CAP : Nat := 0x400C0028
def Fld.SGD_HU_CAP_CNOM_10UF : Field := ⟨0x400C0028, 0, 16⟩
def Fld.SGD_HU_CAP_CMEAS_10UF : Field := ⟨0x400C0028, 16, 16⟩
def Fld.SGD_HU_STATE_VBANK_10MV : Field := ⟨0x400C002C, 0, 12⟩
def Fld.SGD_HU_STATE_CHG : Field := ⟨0x400C002C, 12, 3⟩
def Fld.SGD_HU_STATE_ESR_MOHM : Field := ⟨0x400C002C, 16, 16⟩
def Reg.SGD_TEST_CFG : Nat := 0x400C0030
def Fld.SGD_TEST_CFG_RLOAD : Field := ⟨0x400C0030, 0, 12⟩
def Fld.SGD_TEST_CFG_STOP_PCT : Field := ⟨0x400C0030, 12, 7⟩
def Fld.SGD_TEST_CFG_PERIOD_H : Field := ⟨0x400C0030, 24, 8⟩
def Fld.SGD_TEST_LIMITS_CMIN_PCT : Field := ⟨0x400C0034, 0, 7⟩
def Fld.SGD_TEST_LIMITS_ESR_MAX_MOHM : Field := ⟨0x400C0034, 8, 16⟩
def Reg.SGD_TEST_CTRL : Nat := 0x400C0038
def Fld.SGD_TEST_CTRL_STATE : Field := ⟨0x400C0038, 1, 2⟩
def Fld.SGD_TEST_CTRL_RESULT : Field := ⟨0x400C0038, 4, 3⟩
def Reg.SGD_TEST_TIME_LO : Nat := 0x400C003C
def Reg.SGD_TEST_TIME_HI : Nat := 0x400C0040
def Reg.SGD_ENERGY_CFG : Nat := 0x400C0044
def Fld.SGD_ENERGY_CFG_E_MIB_UJ : Field := ⟨0x400C0044, 0, 16⟩
def Fld.SGD_ENERGY_CFG_FIXED_MJ : Field := ⟨0x400C0044, 16, 16⟩
def Fld.SGD_FLUSH_CFG_T_MIB_NS : Field := ⟨0x400C0048, 0, 16⟩
def Fld.SGD_FLUSH_CFG_DRAIN_US : Field := ⟨0x400C0048, 16, 16⟩
def Reg.SGD_DIRTY : Nat := 0x400C004C
def Fld.SGD_DIRTY_LIMIT_MIB : Field := ⟨0x400C004C, 0, 16⟩
def Fld.SGD_DIRTY_MAX_MIB : Field := ⟨0x400C004C, 16, 16⟩
def Reg.SGD_DIRTY_MIN : Nat := 0x400C0050
def Fld.SGD_DIRTY_MIN_MIN_MIB : Field := ⟨0x400C0050, 0, 16⟩
def Fld.SGD_DIRTY_MIN_FLUSH_W : Field := ⟨0x400C0050, 16, 16⟩
def Fld.SGD_RESTART_RESTART_MS : Field := ⟨0x400C0054, 0, 16⟩
def Fld.SGD_RESTART_BOOT_WAIT_S : Field := ⟨0x400C0054, 16, 16⟩
def Fld.SGD_EVENTS_SAG : Field := ⟨0x400C0058, 0, 1⟩
def Fld.SGD_EVENTS_BROWN_OUT : Field := ⟨0x400C0058, 1, 1⟩
def Fld.SGD_EVENTS_DROPOUT : Field := ⟨0x400C0058, 2, 1⟩
def Fld.SGD_EVENTS_SURGE : Field := ⟨0x400C0058, 3, 1⟩
def Fld.SGD_EVENTS_RIPPLE : Field := ⟨0x400C0058, 4, 1⟩
def Fld.SGD_EVENTS_TEST_FAIL : Field := ⟨0x400C0058, 5, 1⟩
def Fld.SGD_EVENTS_CELL_LOSS : Field := ⟨0x400C0058, 6, 1⟩
def Fld.SGD_EVENTS_CHARGE_FAULT : Field := ⟨0x400C0058, 7, 1⟩
def Fld.SGD_EVENTS_BANK_OV : Field := ⟨0x400C0058, 8, 1⟩
def Fld.SGD_EVENTS_LIMIT_LOW : Field := ⟨0x400C0058, 9, 1⟩
def Fld.SGD_COUNT_COUNT (i : Nat) : Field := ⟨0x400C0060 + 0x4 * i, 0, 32⟩
def Fld.SGD_LOSS_INFO_CAUSE : Field := ⟨0x400C0080, 0, 2⟩
def Fld.SGD_LOSS_INFO_COMPLETE : Field := ⟨0x400C0080, 2, 1⟩
def Fld.SGD_LOSS_INFO_DIRTY_MIB : Field := ⟨0x400C0080, 16, 16⟩
def Fld.SGD_LOSS_TIME_FLUSH_US : Field := ⟨0x400C0084, 0, 32⟩
def Fld.SGD_LOSS_V_VBANK_10MV : Field := ⟨0x400C0088, 0, 12⟩
def Fld.SGD_LOSS_V_VIN_MIN_10MV : Field := ⟨0x400C0088, 16, 11⟩
def Fld.SGD_DROPS_RECENT : Field := ⟨0x400C008C, 0, 8⟩
def Fld.SGD_DROPS_HOLD_MS : Field := ⟨0x400C008C, 16, 16⟩
def Reg.XTE_CTRL : Nat := 0x400D0004
def Fld.XTE_CTRL_EN : Field := ⟨0x400D0004, 0, 1⟩
def Fld.XTE_FAULT_CFG_LIMIT : Field := ⟨0x400D0008, 0, 8⟩
def Fld.XTE_POOL_SHARED : Field := ⟨0x400D000C, 0, 7⟩
def Fld.XTE_POOL_DEDICATED : Field := ⟨0x400D000C, 8, 7⟩
def Fld.XTE_POOL_SPARE : Field := ⟨0x400D000C, 16, 7⟩
def Fld.XTE_POOL_RETIRED : Field := ⟨0x400D000C, 24, 7⟩
def Fld.XTE_COUNT_COUNT (i : Nat) : Field := ⟨0x400D0040 + 0x4 * i, 0, 32⟩
def Fld.XTE_EVENTS_ENC_MISMATCH : Field := ⟨0x400D0060, 0, 1⟩
def Fld.XTE_EVENTS_DEC_MISMATCH : Field := ⟨0x400D0060, 1, 1⟩
def Fld.XTE_EVENTS_DOUBLE_FAULT : Field := ⟨0x400D0060, 2, 1⟩
def Fld.XTE_EVENTS_RETIRED : Field := ⟨0x400D0060, 3, 1⟩
def Reg.XTE_INST (i : Nat) : Nat := 0x400D0100 + 0x4 * i
def Fld.XTE_INST_STATE (i : Nat) : Field := ⟨0x400D0100 + 0x4 * i, 0, 3⟩
def Fld.XTE_INST_FAULTS (i : Nat) : Field := ⟨0x400D0100 + 0x4 * i, 3, 5⟩
def Fld.XTE_INST_SLICE (i : Nat) : Field := ⟨0x400D0100 + 0x4 * i, 8, 10⟩
def Reg.PVE_CTRL : Nat := 0x400E0004
def Fld.PVE_CTRL_EN : Field := ⟨0x400E0004, 0, 1⟩
def Fld.PVE_DUMMY_FAULT_LIMIT : Field := ⟨0x400E0008, 16, 8⟩
def Fld.PVE_INST_STATE (i : Nat) : Field := ⟨0x400E0010 + 0x4 * i, 0, 2⟩
def Fld.PVE_INST_FAULTS (i : Nat) : Field := ⟨0x400E0010 + 0x4 * i, 2, 6⟩
def Fld.PVE_COUNT_COUNT (i : Nat) : Field := ⟨0x400E0040 + 0x4 * i, 0, 32⟩
def Fld.PVE_EVENTS_TAG_FAIL : Field := ⟨0x400E0060, 0, 1⟩
def Fld.PVE_EVENTS_UNWRAP_FAIL : Field := ⟨0x400E0060, 1, 1⟩
def Fld.PVE_EVENTS_FAULT : Field := ⟨0x400E0060, 2, 1⟩
def Fld.PVE_EVENTS_RETIRED : Field := ⟨0x400E0060, 3, 1⟩
def Fld.KST_CTRL_EN : Field := ⟨0x400F0004, 0, 1⟩
def Fld.KST_FREE_SLOTS : Field := ⟨0x400F0008, 0, 12⟩
def Fld.KST_BOUND_SLOTS : Field := ⟨0x400F000C, 0, 12⟩
def Fld.KST_ERASE_PENDING : Field := ⟨0x400F0010, 0, 12⟩
def Fld.KST_ERASE_RUNNING : Field := ⟨0x400F0010, 16, 1⟩
def Fld.KST_DRBG_READY : Field := ⟨0x400F0014, 0, 1⟩
def Fld.KST_DRBG_HEALTH_FAIL : Field := ⟨0x400F0014, 1, 1⟩
def Fld.KST_DRBG_RESEEDS : Field := ⟨0x400F0014, 16, 16⟩
def Fld.KST_RECORDS_FREE_A : Field := ⟨0x400F0018, 0, 12⟩
def Fld.KST_RECORDS_FREE_B : Field := ⟨0x400F0018, 16, 12⟩
def Fld.KST_EVENTS_ENTROPY_FAIL : Field := ⟨0x400F0020, 0, 1⟩
def Fld.KST_EVENTS_UNWRAP_FAIL_BOOT : Field := ⟨0x400F0020, 1, 1⟩
def Fld.KST_EVENTS_KEY_RIGHT : Field := ⟨0x400F0020, 2, 1⟩
def Fld.KST_EVENTS_ZEROISED : Field := ⟨0x400F0020, 3, 1⟩
def Fld.KST_EVENTS_CRYPTO_ERASED : Field := ⟨0x400F0020, 4, 1⟩
def Fld.KST_EVENTS_SRAM_RELOAD : Field := ⟨0x400F0020, 5, 1⟩
def Reg.KST_SEL : Nat := 0x400F0100
def Fld.KST_SEL_SLOT : Field := ⟨0x400F0100, 0, 11⟩
def Reg.KST_V_SLOT : Nat := 0x400F0104
def Reg.KST_V_GEN : Nat := 0x400F0108
def Reg.KST_V_OWNER : Nat := 0x400F010C
def Reg.KST_V_NSID : Nat := 0x400F0110
def Reg.DGE_CTRL : Nat := 0x40100004
def Fld.DGE_CTRL_EN : Field := ⟨0x40100004, 0, 1⟩
def Reg.DGE_LATCH : Nat := 0x40100008
def Fld.DGE_LATCH_UDS_OPEN : Field := ⟨0x40100008, 0, 1⟩
def Fld.DGE_LATCH_BOOT_OPEN : Field := ⟨0x40100008, 1, 1⟩
def Fld.DGE_SNOOP_LEN_LEN : Field := ⟨0x40100010, 0, 32⟩
def Reg.DGE_SNOOP_CTRL : Nat := 0x40100014
def Fld.DGE_SNOOP_CTRL_ACTIVE : Field := ⟨0x40100014, 2, 1⟩
def Fld.DGE_SNOOP_CTRL_ARMED : Field := ⟨0x40100014, 3, 3⟩
def Fld.DGE_SNOOP_CTRL_STATUS : Field := ⟨0x40100014, 16, 16⟩
def Fld.DGE_SNOOP_COUNT_BYTES : Field := ⟨0x40100018, 0, 32⟩
def Reg.DGE_SNOOP_DIGEST (i : Nat) : Nat := 0x40100020 + 0x4 * i
def Reg.DGE_SNOOP_FIRST (i : Nat) : Nat := 0x40100050 + 0x4 * i
def Fld.DGE_INST_STATE (i : Nat) : Field := ⟨0x40100080 + 0x4 * i, 0, 2⟩
def Fld.DGE_INST_CLASS (i : Nat) : Field := ⟨0x40100080 + 0x4 * i, 2, 2⟩
def Fld.DGE_CTX_STATE_IN_USE : Field := ⟨0x40100090, 0, 16⟩
def Fld.DGE_CTX_STATE_PREEMPTED : Field := ⟨0x40100090, 16, 2⟩
def Fld.DGE_QUEUE_CLASS0 : Field := ⟨0x40100094, 0, 8⟩
def Fld.DGE_QUEUE_CLASS1 : Field := ⟨0x40100094, 8, 8⟩
def Fld.DGE_QUEUE_CLASS2 : Field := ⟨0x40100094, 16, 8⟩
def Reg.DGE_CTX_OWNER_LO : Nat := 0x40100098
def Reg.DGE_CTX_OWNER_HI : Nat := 0x4010009C
def Fld.DGE_COUNT_COUNT (i : Nat) : Field := ⟨0x401000A0 + 0x4 * i, 0, 32⟩
def Fld.DGE_EVENTS_SNOOP_LENGTH : Field := ⟨0x401000C0, 0, 1⟩
def Fld.DGE_EVENTS_PREEMPT : Field := ⟨0x401000C0, 1, 1⟩
def Fld.DGE_EVENTS_CONTEXT : Field := ⟨0x401000C0, 2, 1⟩
def Reg.DGE_REQ_D (i j : Nat) : Nat := 0x40100200 + 0x80 * i + 0x4 * j
def Reg.DGE_REQ_GO (i : Nat) : Nat := 0x40100220 + 0x80 * i
def Fld.DGE_REQ_GO_GO (i : Nat) : Field := ⟨0x40100220 + 0x80 * i, 0, 1⟩
def Fld.DGE_REQ_GO_STATUS (i : Nat) : Field := ⟨0x40100220 + 0x80 * i, 16, 16⟩
def Reg.DGE_RESULT (i j : Nat) : Nat := 0x40100240 + 0x80 * i + 0x4 * j
def Reg.PKE_CTRL : Nat := 0x40110004
def Fld.PKE_CTRL_EN : Field := ⟨0x40110004, 0, 1⟩
def Fld.PKE_STATE_STATE : Field := ⟨0x40110008, 0, 2⟩
def Fld.PKE_STATE_OP : Field := ⟨0x40110008, 2, 3⟩
def Fld.PKE_COUNT_COUNT (i : Nat) : Field := ⟨0x40110040 + 0x4 * i, 0, 32⟩
def Fld.PKE_EVENTS_FAULT : Field := ⟨0x40110060, 0, 1⟩
def Fld.PKE_EVENTS_VERIFY_FAIL : Field := ⟨0x40110060, 1, 1⟩
def Reg.PKE_REQ_D_1 (i : Nat) : Nat := 0x40110104 + 0x20 * i
def Reg.PKE_REQ_D_2 (i : Nat) : Nat := 0x40110108 + 0x20 * i
def Reg.PKE_REQ_D_0 (i : Nat) : Nat := 0x40110100 + 0x20 * i
def Fld.PKE_REQ_D_0_OP (i : Nat) : Field := ⟨0x40110100 + 0x20 * i, 0, 8⟩
def Fld.PKE_REQ_D_0_SLOT (i : Nat) : Field := ⟨0x40110100 + 0x20 * i, 16, 16⟩
def Reg.PKE_REQ_GO (i : Nat) : Nat := 0x4011010C + 0x20 * i
def Fld.PKE_REQ_GO_GO (i : Nat) : Field := ⟨0x4011010C + 0x20 * i, 0, 1⟩
def Fld.PKE_REQ_GO_STATUS (i : Nat) : Field := ⟨0x4011010C + 0x20 * i, 16, 16⟩
def Fld.SGN_CTRL_EN : Field := ⟨0x40120004, 0, 1⟩
def Reg.SGN_NEWEST_LO : Nat := 0x40120008
def Reg.SGN_NEWEST_HI : Nat := 0x4012000C
def Reg.SGN_OLDEST_LO : Nat := 0x40120010
def Reg.SGN_OLDEST_HI : Nat := 0x40120014
def Reg.SGN_HEAD (i : Nat) : Nat := 0x40120020 + 0x4 * i
def Fld.SGN_SPACE_CELLS_FREE : Field := ⟨0x40120050, 0, 16⟩
def Fld.SGN_SPACE_OLDEST_SEG : Field := ⟨0x40120050, 16, 7⟩
def Fld.SGN_SPACE_HEAD_SEG : Field := ⟨0x40120050, 24, 7⟩
def Fld.SGN_PENDING_RECORDS : Field := ⟨0x40120054, 0, 7⟩
def Fld.SGN_PENDING_CARRIED : Field := ⟨0x40120054, 8, 7⟩
def Fld.SGN_PENDING_APPENDING : Field := ⟨0x40120054, 15, 1⟩
def Fld.SGN_PENDING_COMPACTIONS : Field := ⟨0x40120054, 16, 16⟩
def Reg.SGN_KEY_ID_LO : Nat := 0x40120058
def Reg.SGN_KEY_ID_HI : Nat := 0x4012005C
def Reg.SGN_APPEND : Nat := 0x40120064
def Fld.SGN_APPEND_GO : Field := ⟨0x40120064, 0, 1⟩
def Fld.SGN_APPEND_ITEMS : Field := ⟨0x40120064, 3, 8⟩
def Fld.SGN_APPEND_STATUS : Field := ⟨0x40120064, 16, 16⟩
def Fld.SGN_EVENTS_ABANDONED : Field := ⟨0x40120070, 0, 1⟩
def Fld.SGN_EVENTS_COMPACTED : Field := ⟨0x40120070, 1, 1⟩
def Fld.SGN_EVENTS_CARRIED : Field := ⟨0x40120070, 2, 1⟩
def Fld.SGN_EVENTS_FOLDED : Field := ⟨0x40120070, 3, 1⟩
def Fld.SGN_EVENTS_CHAIN_BREAK : Field := ⟨0x40120070, 4, 1⟩
def Fld.SGN_EVENTS_CERT_STORE_FULL : Field := ⟨0x40120070, 5, 1⟩
def Fld.CLS_CTRL_EN : Field := ⟨0x40130004, 0, 1⟩
def Fld.CLS_CTRL_LOCK : Field := ⟨0x40130004, 8, 1⟩
def Reg.CLS_STATUS : Nat := 0x40130008
def Fld.CLS_STATUS_BLOCK_AON : Field := ⟨0x40130008, 0, 1⟩
def Fld.CLS_STATUS_BLOCK_STEP8 : Field := ⟨0x40130008, 1, 1⟩
def Fld.CLS_STATUS_PFAIL : Field := ⟨0x40130008, 2, 1⟩
def Fld.CLS_STATUS_CR_ACTIVE : Field := ⟨0x40130008, 3, 1⟩
def Fld.CLS_STATUS_ERASING : Field := ⟨0x40130008, 4, 1⟩
def Fld.CLS_STATUS_SUSPENDED : Field := ⟨0x40130008, 5, 1⟩
def Fld.CLS_STATUS_ERASE_OPEN : Field := ⟨0x40130008, 16, 14⟩
def Reg.CLS_POST_D (i : Nat) : Nat := 0x40130010 + 0x4 * i
def Reg.CLS_POST_GO : Nat := 0x40130030
def Fld.CLS_DONE_SLOTS : Field := ⟨0x40130040, 0, 32⟩
def Fld.CLS_BUSY_SLOTS : Field := ⟨0x40130048, 0, 32⟩
def Reg.CLS_RELEASE : Nat := 0x40130044
def Fld.CLS_CR_ADDR_VALUE : Field := ⟨0x40130050, 0, 26⟩
def Fld.CLS_CR_LEN_VALUE : Field := ⟨0x40130054, 0, 27⟩
def Reg.CLS_CR_CTRL : Nat := 0x4013005C
def Fld.CLS_CR_CTRL_GO : Field := ⟨0x4013005C, 0, 1⟩
def Fld.CLS_CR_CTRL_STATUS : Field := ⟨0x4013005C, 16, 16⟩
def Fld.CLS_CR_COUNT_BYTES : Field := ⟨0x40130060, 0, 32⟩
def Fld.CLS_ERASE_SECTOR : Field := ⟨0x40130070, 0, 14⟩
def Fld.CLS_ERASE_STATE : Field := ⟨0x40130070, 14, 2⟩
def Fld.CLS_ERASE_SUSPENDS : Field := ⟨0x40130070, 16, 8⟩
def Reg.CLS_PW_STATE : Nat := 0x40130074
def Fld.CLS_PW_STATE_FAILS : Field := ⟨0x40130074, 0, 4⟩
def Fld.CLS_PW_STATE_BARRED : Field := ⟨0x40130074, 4, 1⟩
def Reg.CLS_PW_0 : Nat := 0x40130078
def Fld.CLS_COUNT_COUNT (i : Nat) : Field := ⟨0x40130080 + 0x4 * i, 0, 32⟩
def Fld.CLS_EVENTS_CORRECTED : Field := ⟨0x401300C0, 0, 1⟩
def Fld.CLS_EVENTS_UE : Field := ⟨0x401300C0, 1, 1⟩
def Fld.CLS_EVENTS_NOT_BLANK : Field := ⟨0x401300C0, 2, 1⟩
def Fld.CLS_EVENTS_PROTECTED : Field := ⟨0x401300C0, 3, 1⟩
def Fld.CLS_EVENTS_BLOCKED : Field := ⟨0x401300C0, 4, 1⟩
def Fld.CLS_EVENTS_ERASE_ABANDONED : Field := ⟨0x401300C0, 5, 1⟩
def Fld.CLS_EVENTS_PW_FAIL : Field := ⟨0x401300C0, 6, 1⟩
def Reg.CLS_SECTOR_SEL : Nat := 0x401300D0
def Fld.CLS_SECTOR_SEL_SECTOR : Field := ⟨0x401300D0, 0, 14⟩
def Reg.CLS_V_SECTOR : Nat := 0x401300D4
def Fld.CLS_SLOT_STATE (i : Nat) : Field := ⟨0x40130100 + 0x10 * i, 0, 3⟩
def Fld.CLS_SLOT_OP (i : Nat) : Field := ⟨0x40130100 + 0x10 * i, 4, 8⟩
def Fld.CLS_SLOT_STATUS (i : Nat) : Field := ⟨0x40130100 + 0x10 * i, 16, 16⟩
def Fld.CLS_SLOT_TAG_TAG (i : Nat) : Field := ⟨0x40130104 + 0x10 * i, 0, 32⟩
def Fld.CLS_SLOT_INFO_WORDS (i : Nat) : Field := ⟨0x40130108 + 0x10 * i, 0, 10⟩
def Fld.CLS_SLOT_INFO_AT_WORD (i : Nat) : Field := ⟨0x40130108 + 0x10 * i, 10, 10⟩
def Reg.CLS_LOCK (i : Nat) : Nat := 0x40131000 + 0x4 * i
def Fld.BOT_ID_SLOTS : Field := ⟨0x40140000, 0, 2⟩
def Fld.BOT_ID_ROM_REV : Field := ⟨0x40140000, 8, 8⟩
def Reg.BOT_CTRL : Nat := 0x40140004
def Fld.BOT_CTRL_RESET_WARM : Field := ⟨0x40140004, 0, 1⟩
def Fld.BOT_CTRL_FALLBACK : Field := ⟨0x40140004, 1, 1⟩
def Fld.BOT_STATE_STAGE : Field := ⟨0x40140008, 0, 3⟩
def Fld.BOT_STATE_TYPE : Field := ⟨0x40140008, 8, 8⟩
def Fld.BOT_STATE_CAUSE : Field := ⟨0x40140008, 16, 8⟩
def Fld.BOT_STATE_SLOT : Field := ⟨0x40140008, 24, 1⟩
def Fld.BOT_STATE_RECOVER_PIN : Field := ⟨0x40140008, 25, 1⟩
def Fld.BOT_SLOT_VALID : Field := ⟨0x4014000C, 0, 2⟩
def Fld.BOT_SLOT_ACTIVE : Field := ⟨0x4014000C, 2, 1⟩
def Fld.BOT_SLOT_PENDING : Field := ⟨0x4014000C, 3, 2⟩
def Fld.BOT_SLOT_TRIES : Field := ⟨0x4014000C, 7, 3⟩
def Fld.BOT_SLOT_SKIP : Field := ⟨0x4014000C, 10, 2⟩
def Fld.BOT_SLOT_LAST_FAIL : Field := ⟨0x4014000C, 16, 16⟩
def Fld.BOT_CTR_VALUE (i : Nat) : Field := ⟨0x40140010 + 0x4 * i, 0, 9⟩
def Fld.BOT_CTR_CAP (i : Nat) : Field := ⟨0x40140010 + 0x4 * i, 16, 9⟩
def Reg.BOT_FUSE_ADV : Nat := 0x40140020
def Fld.BOT_FUSE_ADV_FAIL : Field := ⟨0x40140020, 17, 1⟩
def Fld.BOT_KEYS_REVOKED : Field := ⟨0x40140024, 0, 4⟩
def Fld.BOT_KEYS_PRESENT : Field := ⟨0x40140024, 4, 4⟩
def Reg.BOT_SERIAL (i : Nat) : Nat := 0x40140030 + 0x4 * i
def Fld.BOT_BOOT_TIME_US : Field := ⟨0x40140040, 0, 32⟩
def Reg.BOT_UCODE_SHADOW_LO : Nat := 0x40140050
def Reg.BOT_UCODE_SHADOW_HI : Nat := 0x40140054
def Reg.BOT_UCODE_CTRL : Nat := 0x40140058
def Fld.BOT_UCODE_CTRL_STATUS : Field := ⟨0x40140058, 16, 16⟩
def Reg.BOT_CS_DIGEST (i : Nat) : Nat := 0x40140060 + 0x4 * i
def Fld.BOT_EVENTS_SLOT_FAIL : Field := ⟨0x40140090, 0, 1⟩
def Fld.BOT_EVENTS_FALLBACK : Field := ⟨0x40140090, 1, 1⟩
def Fld.BOT_EVENTS_TRIAL_EXPIRED : Field := ⟨0x40140090, 2, 1⟩
def Fld.BOT_EVENTS_ROLLBACK_ADVANCED : Field := ⟨0x40140090, 3, 1⟩
def Fld.BOT_EVENTS_FUSE_FAIL : Field := ⟨0x40140090, 4, 1⟩
def Fld.BOT_EVENTS_SETTINGS_RESET : Field := ⟨0x40140090, 5, 1⟩
def Fld.BOT_EVENTS_RECOVERY : Field := ⟨0x40140090, 6, 1⟩
def Fld.BOT_EVENTS_UCODE_SKIPPED : Field := ⟨0x40140090, 7, 1⟩
def Fld.AGE_CTRL_RALLY_EN : Field := ⟨0x40150004, 0, 1⟩
def Fld.AGE_CTRL_PLAN_EN : Field := ⟨0x40150004, 1, 1⟩
def Fld.AGE_RALLY_CFG_PERIOD_MS : Field := ⟨0x40150008, 10, 14⟩
def Fld.AGE_RALLY_CFG_AVG : Field := ⟨0x40150008, 24, 8⟩
def Fld.AGE_RALLY_STATUS_BASELINE : Field := ⟨0x4015000C, 0, 2⟩
def Fld.AGE_RALLY_STATUS_WORST_LOOP : Field := ⟨0x4015000C, 2, 7⟩
def Fld.AGE_RALLY_STATUS_FAULTED : Field := ⟨0x4015000C, 9, 7⟩
def Fld.AGE_RALLY_STATUS_WORST_CPCT : Field := ⟨0x4015000C, 16, 16⟩
def Fld.AGE_SI_CFG_TARGET_CPCT : Field := ⟨0x40150010, 0, 16⟩
def Fld.AGE_GAIN_LO_GAIN : Field := ⟨0x40150014, 0, 32⟩
def Fld.AGE_GAIN_HI_GAIN : Field := ⟨0x40150018, 0, 32⟩
def Fld.AGE_PLAN_CFG_PERIOD_H : Field := ⟨0x40150020, 0, 8⟩
def Fld.AGE_PLAN_CFG_SAMPLES_MIN : Field := ⟨0x40150020, 8, 16⟩
def Fld.AGE_PLAN_CFG_STEP_LIMIT_PCT : Field := ⟨0x40150020, 24, 7⟩
def Fld.AGE_PLAN_STATUS_RUNNING : Field := ⟨0x40150024, 0, 1⟩
def Fld.AGE_PLAN_STATUS_RUNS : Field := ⟨0x40150024, 8, 24⟩
def Reg.AGE_PLAN_TIME_LO : Nat := 0x40150028
def Reg.AGE_PLAN_TIME_HI : Nat := 0x4015002C
def Fld.AGE_FLASH_CFG_SOFT_HIGH : Field := ⟨0x40150030, 0, 12⟩
def Fld.AGE_FLASH_CFG_SOFT_LOW : Field := ⟨0x40150030, 12, 12⟩
def Fld.AGE_FLASH_CFG_EDGE_PCT : Field := ⟨0x40150030, 24, 7⟩
def Fld.AGE_RET_BASE_QLC : Field := ⟨0x40150034, 0, 9⟩
def Fld.AGE_RET_BASE_TLC : Field := ⟨0x40150034, 9, 9⟩
def Fld.AGE_RET_BASE_SLC : Field := ⟨0x40150034, 18, 9⟩
def Reg.AGE_RET_STATUS : Nat := 0x40150038
def Fld.AGE_DRAM_CFG_REGATHER_H : Field := ⟨0x4015003C, 0, 16⟩
def Fld.AGE_DRAM_CFG_MIN_WINDOW : Field := ⟨0x4015003C, 16, 8⟩
def Fld.AGE_DRAM_CFG_MAX_SHIFT : Field := ⟨0x4015003C, 24, 8⟩
def Fld.AGE_EVENTS_OFFSET_RAISED : Field := ⟨0x40150040, 0, 1⟩
def Fld.AGE_EVENTS_SILICON_LIMIT : Field := ⟨0x40150040, 1, 1⟩
def Fld.AGE_EVENTS_RATED_CHANGED : Field := ⟨0x40150040, 2, 1⟩
def Fld.AGE_EVENTS_RETRY_ADVANCED : Field := ⟨0x40150040, 3, 1⟩
def Fld.AGE_EVENTS_RETENTION_SHORTENED : Field := ⟨0x40150040, 4, 1⟩
def Fld.AGE_EVENTS_REFRESH_PROBE : Field := ⟨0x40150040, 5, 1⟩
def Fld.AGE_EVENTS_DRAM_MARGIN : Field := ⟨0x40150040, 6, 1⟩
def Fld.AGE_EVENTS_HOLDUP_TREND : Field := ⟨0x40150040, 7, 1⟩
def Fld.AGE_EVENTS_LOOP_FAULT : Field := ⟨0x40150040, 8, 1⟩
def Fld.AGE_EVENTS_BASELINE_LOCAL : Field := ⟨0x40150040, 9, 1⟩
def Fld.AGE_LOOP_SLOW (i : Nat) : Field := ⟨0x40150100 + 0x4 * i, 0, 16⟩
def Fld.AGE_LOOP_LAPS_K (i : Nat) : Field := ⟨0x40150100 + 0x4 * i, 16, 16⟩
def Fld.AGE_RHIST_COUNT (i j : Nat) : Field := ⟨0x40150400 + 0x40 * i + 0x4 * j, 0, 32⟩
def Reg.AGE_DIE_SEL : Nat := 0x40150600
def Fld.AGE_DIE_SEL_DIE : Field := ⟨0x40150600, 0, 11⟩
def Reg.AGE_V_RATED_QT : Nat := 0x40150604
def Reg.AGE_V_RATED_S : Nat := 0x40150608
def Reg.AGE_V_RET : Nat := 0x4015060C
def Fld.LKT_CTRL_EN : Field := ⟨0x40160004, 0, 1⟩
def Fld.LKT_FLUSH_WATER : Field := ⟨0x40160008, 0, 12⟩
def Fld.LKT_FLUSH_PERIOD_MS : Field := ⟨0x40160008, 12, 16⟩
def Fld.LKT_URGENT_MASK : Field := ⟨0x4016000C, 0, 32⟩
def Fld.LKT_RATE_PER_MS : Field := ⟨0x40160010, 0, 8⟩
def Reg.LKT_RING : Nat := 0x40160014
def Reg.LKT_NEXT_LO : Nat := 0x40160018
def Reg.LKT_NEXT_HI : Nat := 0x4016001C
def Reg.LKT_OLDEST_LO : Nat := 0x40160020
def Reg.LKT_OLDEST_HI : Nat := 0x40160024
def Reg.LKT_FLUSHED_LO : Nat := 0x40160028
def Reg.LKT_FLUSHED_HI : Nat := 0x4016002C
def Reg.LKT_AREA : Nat := 0x40160030
def Reg.LKT_FREEZE : Nat := 0x40160034
def Fld.LKT_LOST_COUNT : Field := ⟨0x40160038, 0, 32⟩
def Fld.LKT_SUPPRESSED_COUNT : Field := ⟨0x4016003C, 0, 32⟩
def Fld.LKT_FLUSHES_COUNT : Field := ⟨0x40160040, 0, 32⟩
def Fld.LKT_EVENTS_LOST : Field := ⟨0x40160050, 0, 1⟩
def Fld.LKT_EVENTS_SUPPRESSED : Field := ⟨0x40160050, 1, 1⟩
def Fld.LKT_EVENTS_FREEZE_TIMEOUT : Field := ⟨0x40160050, 2, 1⟩
def Fld.LKT_EVENTS_BAD_SEGMENT : Field := ⟨0x40160050, 3, 1⟩
def Fld.LKT_EVENTS_TORN : Field := ⟨0x40160050, 4, 1⟩
def Reg.LKT_POST_CODE (i : Nat) : Nat := 0x40160100 + 0x20 * i
def Fld.LKT_POST_CODE_CODE (i : Nat) : Field := ⟨0x40160100 + 0x20 * i, 0, 16⟩
def Reg.LKT_POST_P (i j : Nat) : Nat := 0x40160104 + 0x20 * i + 0x4 * j
def Reg.LKT_POST_GO (i : Nat) : Nat := 0x40160114 + 0x20 * i
def Fld.LKT_POST_GO_STATUS (i : Nat) : Field := ⟨0x40160114 + 0x20 * i, 16, 16⟩
def Fld.TSN_CTRL_EN : Field := ⟨0x401B0004, 0, 1⟩
def Fld.TSN_CTRL_TRIP_EN : Field := ⟨0x401B0004, 1, 1⟩
def Fld.TSN_COMPOSITE_KELVIN : Field := ⟨0x401B0008, 0, 9⟩
def Fld.TSN_COMPOSITE_HOTTEST : Field := ⟨0x401B0008, 16, 5⟩
def Reg.TSN_TRIP : Nat := 0x401B000C
def Fld.TSN_TRIP_TRIP_C : Field := ⟨0x401B000C, 0, 8⟩
def Fld.TSN_STATUS_TRIPPED : Field := ⟨0x401B0010, 0, 1⟩
def Fld.TSN_STATUS_ALL_FAULTED : Field := ⟨0x401B0010, 1, 1⟩
def Fld.TSN_STATUS_FAULTED : Field := ⟨0x401B0010, 8, 5⟩
def Fld.TSN_EVENTS_HOT : Field := ⟨0x401B0020, 0, 1⟩
def Fld.TSN_EVENTS_TRIP : Field := ⟨0x401B0020, 1, 1⟩
def Fld.TSN_EVENTS_SENSOR_FAULT : Field := ⟨0x401B0020, 2, 1⟩
def Fld.TSN_SENSOR_TEMP (i : Nat) : Field := ⟨0x401B0100 + 0x4 * i, 0, 9⟩
def Fld.TSN_SENSOR_VALID (i : Nat) : Field := ⟨0x401B0100 + 0x4 * i, 9, 1⟩
def Fld.TSN_SENSOR_MAX (i : Nat) : Field := ⟨0x401B0100 + 0x4 * i, 16, 9⟩
def Reg.ACM_MATRIX (i j : Nat) : Nat := 0x40174000 + 0x10 * i + 0x4 * j
def Reg.PLC_CLASS (i j : Nat) : Nat := 0x40051000 + 0x20 * i + 0x4 * j
def Reg.DMC_GATHER_RESULT (i j : Nat) : Nat := 0x40091000 + 0x8 * i + 0x4 * j
def Reg.DMC_DELAY (i : Nat) : Nat := 0x40094000 + 0x4 * i
def Reg.UMP_COST0 (i j : Nat) : Nat := 0x400B1000 + 0x400 * i + 0x8 * j
def Fld.UMP_COST0_ENERGY (i j : Nat) : Field := ⟨0x400B1000 + 0x400 * i + 0x8 * j, 0, 16⟩
def Fld.UMP_COST0_ICC_MA (i j : Nat) : Field := ⟨0x400B1000 + 0x400 * i + 0x8 * j, 16, 12⟩
def Reg.UMP_COST1 (i j : Nat) : Nat := 0x400B1004 + 0x400 * i + 0x8 * j
def Fld.UMP_COST1_ICCQ_MA (i j : Nat) : Field := ⟨0x400B1004 + 0x400 * i + 0x8 * j, 0, 12⟩
def Reg.UMP_DIE_TYPE (i : Nat) : Nat := 0x400B2000 + 0x4 * i
def Fld.SGN_APPEND_HANDLE_HANDLE : Field := ⟨0x40120060, 0, 32⟩
def Reg.DSC_ID : Nat := 0x40060000
def Reg.LDC_ID : Nat := 0x40070000
def Reg.PLC_ID : Nat := 0x40050000
def Fld.LDC_MED_REBUILD_FULL_SCAN : Field := ⟨0x40070138, 8, 1⟩
def Fld.DMC_CONFIG_CAP_GIB : Field := ⟨0x40090008, 16, 8⟩
def Fld.DMC_CONFIG_RANKS : Field := ⟨0x40090008, 5, 1⟩
def Fld.DMC_EVENTS_RANGE_ERROR : Field := ⟨0x40090080, 6, 1⟩
def Fld.MEP_INJ_CTRL_DEVICE : Field := ⟨0x400A00A0, 7, 4⟩
def Fld.MEP_INJ_CTRL_REGION : Field := ⟨0x400A00A0, 3, 4⟩
def Reg.MEP_INJ_MASK (i : Nat) : Nat := 0x400A00B0 + 0x4 * i
def Fld.CHS_BURST_MAX_BURST (i : Nat) : Field := ⟨0x41000010 + 0x10000 * i, 0, 15⟩
def Fld.CHS_BURST_ISO_BURST (i : Nat) : Field := ⟨0x41000010 + 0x10000 * i, 16, 16⟩
def Fld.CLS_CR_DEST_VALUE : Field := ⟨0x40130058, 0, 32⟩

end Sys2Proof.Machine
end

