-- ==== Sys2Proof/Machine/RegTable.lean ====
section
/-! DEFINITION. The register tables of the spec, one row per register: its fabric address (window base of R31 plus
the offset of its own table), its index dimensions, and every field with its bits, access code (R16) and reset value
(R22). A field whose reset the tables give as a strap, a fuse or a record is listed with 0 here; State.reset names what
it holds (notes/assumptions/2.md). -/
namespace Sys2Proof.Machine
open Sys2Proof

def regsHpt0 : List RegSpec := [
  ⟨"HPT_ID", 0x40000000, [], [⟨"MAX_PORTS", 3, 0, .ro, [0x4]⟩, ⟨"LANES", 8, 4, .ro, [0x10]⟩, ⟨"MAX_SPEED", 11, 9, .ro, [0x6]⟩]⟩,
  ⟨"HPT_STRAP", 0x40000004, [], [⟨"CFG", 1, 0, .ro, [0x0]⟩, ⟨"PRESENT", 7, 4, .ro, [0x0]⟩]⟩,
  ⟨"HPT_CTRL", 0x40000008, [], [⟨"TRAIN_EN", 3, 0, .rwl, [0x0]⟩, ⟨"LOCK", 8, 8, .rwo, [0x0]⟩]⟩,
  ⟨"HPT_LINK", 0x40000100, [⟨0, 4, 0x40⟩], [⟨"SPEED", 2, 0, .ro, [0x0]⟩, ⟨"WIDTH", 7, 3, .ro, [0x0]⟩, ⟨"FLIT", 8, 8, .ro, [0x0]⟩, ⟨"L0P", 9, 9, .ro, [0x0]⟩, ⟨"DL_UP", 10, 10, .ro, [0x0]⟩, ⟨"LTSSM", 19, 16, .ro, [0x0]⟩]⟩,
  ⟨"HPT_EVENT", 0x40000104, [⟨0, 4, 0x40⟩], [⟨"DL_DOWN", 0, 0, .rw1c, [0x0]⟩, ⟨"PERST", 1, 1, .rw1c, [0x0]⟩, ⟨"FLR", 2, 2, .rw1c, [0x0]⟩, ⟨"HOT_RESET", 3, 3, .rw1c, [0x0]⟩, ⟨"WIDTH_DROP", 4, 4, .rw1c, [0x0]⟩, ⟨"SPEED_DROP", 5, 5, .rw1c, [0x0]⟩, ⟨"CPL_TIMEOUT", 6, 6, .rw1c, [0x0]⟩, ⟨"POISONED", 7, 7, .rw1c, [0x0]⟩, ⟨"ECRC_ERR", 8, 8, .rw1c, [0x0]⟩]⟩,
  ⟨"HPT_RECOVERY_COUNT", 0x40000108, [⟨0, 4, 0x40⟩], [⟨"COUNT", 15, 0, .ro, [0x0]⟩]⟩,
  ⟨"HPT_DMA_LIMITS", 0x4000010C, [⟨0, 4, 0x40⟩], [⟨"MPS", 2, 0, .ro, [0x0]⟩, ⟨"MRRS", 6, 4, .ro, [0x2]⟩]⟩]

def regsQen0 : List RegSpec := [
  ⟨"QEN_ID", 0x40010000, [], [⟨"CONTEXTS", 19, 0, .ro, [0x40000]⟩]⟩,
  ⟨"QEN_CTX_FREE", 0x40010004, [], [⟨"FREE", 19, 0, .ro, [0x40000]⟩]⟩,
  ⟨"QEN_CTX_RESERVE", 0x40010010, [⟨0, 4, 0x4⟩], [⟨"RESERVE", 17, 0, .rwl, [0x4000]⟩]⟩,
  ⟨"QEN_CTX_USED", 0x40010020, [⟨0, 4, 0x4⟩], [⟨"USED", 19, 0, .ro, [0x0]⟩]⟩,
  ⟨"QEN_FETCH_CTRL", 0x40010030, [], [⟨"GROUP", 3, 0, .rwl, [0x8]⟩]⟩,
  ⟨"QEN_PS", 0x40010040, [], [⟨"REQ_0", 2, 0, .ro, [0x4]⟩, ⟨"IDLE_0", 3, 3, .ro, [0x1]⟩, ⟨"REQ_1", 6, 4, .ro, [0x4]⟩, ⟨"IDLE_1", 7, 7, .ro, [0x1]⟩, ⟨"REQ_2", 10, 8, .ro, [0x4]⟩, ⟨"IDLE_2", 11, 11, .ro, [0x1]⟩, ⟨"REQ_3", 14, 12, .ro, [0x4]⟩, ⟨"IDLE_3", 15, 15, .ro, [0x1]⟩, ⟨"EFFECTIVE", 18, 16, .ro, [0x0]⟩, ⟨"TRANSITION", 19, 19, .ro, [0x0]⟩, ⟨"EXCURSION", 20, 20, .ro, [0x0]⟩]⟩,
  ⟨"QEN_IDLE_MS", 0x40010050, [⟨0, 4, 0x4⟩], [⟨"IDLE_MS", 23, 0, .ro, [0x0]⟩]⟩,
  ⟨"QEN_PS_COUNT", 0x40010060, [], [⟨"ENTRIES", 15, 0, .ro, [0x0]⟩, ⟨"EXCURSIONS", 31, 16, .ro, [0x0]⟩]⟩,
  ⟨"QEN_DST", 0x40010070, [], [⟨"STATE", 1, 0, .ro, [0x0]⟩, ⟨"PERCENT", 8, 2, .ro, [0x0]⟩, ⟨"ORIGIN", 11, 9, .ro, [0x0]⟩]⟩,
  ⟨"QEN_LOCK", 0x400100F0, [], [⟨"LOCK", 0, 0, .rwo, [0x0]⟩]⟩]

def regsSlm0 : List RegSpec := [
  ⟨"SLM_ID", 0x40020000, [], [⟨"SLICES", 10, 0, .ro, [0x400]⟩, ⟨"QUEUES", 22, 16, .ro, [0x40]⟩, ⟨"NAMESPACES", 28, 24, .ro, [0x10]⟩]⟩,
  ⟨"SLM_TOTALS", 0x40020004, [], [⟨"DEFINED", 10, 0, .ro, [0x0]⟩, ⟨"ISOLATED", 26, 16, .ro, [0x0]⟩]⟩,
  ⟨"SLM_QUEUE_TOTALS", 0x40020008, [], [⟨"SQS", 12, 0, .ro, [0x0]⟩, ⟨"CQS", 28, 16, .ro, [0x0]⟩]⟩,
  ⟨"SLM_POWER_SUM", 0x4002000C, [], [⟨"SUM", 10, 0, .ro, [0x0]⟩]⟩,
  ⟨"SLM_EPOCH_LO", 0x40020010, [], [⟨"EPOCH_LO", 31, 0, .ro, [0x0]⟩]⟩,
  ⟨"SLM_EPOCH_HI", 0x40020014, [], [⟨"EPOCH_HI", 31, 0, .ro, [0x0]⟩]⟩,
  ⟨"SLM_RESETS", 0x40020018, [], [⟨"RUNNING", 10, 0, .ro, [0x0]⟩, ⟨"COMPLETED", 31, 16, .ro, [0x0]⟩]⟩,
  ⟨"SLM_SEL", 0x40020020, [], [⟨"SLICE", 9, 0, .rw, [0x0]⟩]⟩,
  ⟨"SLM_V_STATE", 0x40020100, [], [⟨"STATE", 1, 0, .ro, [0x0]⟩, ⟨"CARDED", 2, 2, .ro, [0x0]⟩, ⟨"ISOLATED", 3, 3, .ro, [0x0]⟩, ⟨"PORTS", 7, 4, .ro, [0x0]⟩, ⟨"SQS", 14, 8, .ro, [0x0]⟩, ⟨"CQS", 22, 16, .ro, [0x0]⟩, ⟨"NAMESPACES", 28, 24, .ro, [0x0]⟩]⟩,
  ⟨"SLM_V_PASID", 0x40020104, [], [⟨"PASID", 19, 0, .ro, [0x0]⟩]⟩,
  ⟨"SLM_V_DMA_BASE_LO", 0x40020108, [], [⟨"ADDR", 31, 0, .ro, [0x0]⟩]⟩,
  ⟨"SLM_V_DMA_BASE_HI", 0x4002010C, [], [⟨"ADDR", 31, 0, .ro, [0x0]⟩]⟩,
  ⟨"SLM_V_DMA_LIMIT_LO", 0x40020110, [], [⟨"ADDR", 31, 0, .ro, [0x0]⟩]⟩,
  ⟨"SLM_V_DMA_LIMIT_HI", 0x40020114, [], [⟨"ADDR", 31, 0, .ro, [0x0]⟩]⟩,
  ⟨"SLM_V_SHARE", 0x40020118, [], [⟨"BW_WEIGHT", 7, 0, .ro, [0x0]⟩, ⟨"LAT_CLASS", 9, 8, .ro, [0x0]⟩, ⟨"POWER_SHARE", 25, 16, .ro, [0x0]⟩]⟩,
  ⟨"SLM_V_SHARE_NEXT", 0x4002011C, [], [⟨"BW_WEIGHT", 7, 0, .rw, [0x0]⟩, ⟨"LAT_CLASS", 9, 8, .rw, [0x0]⟩, ⟨"POWER_SHARE", 25, 16, .rw, [0x0]⟩, ⟨"PENDING", 31, 31, .ro, [0x0]⟩]⟩,
  ⟨"SLM_V_SLOTS", 0x40020120, [], [⟨"SLOT_A", 9, 0, .ro, [0x0]⟩, ⟨"PORT_A", 11, 10, .ro, [0x0]⟩, ⟨"A_VALID", 12, 12, .ro, [0x0]⟩, ⟨"SLOT_B", 25, 16, .ro, [0x0]⟩, ⟨"PORT_B", 27, 26, .ro, [0x0]⟩, ⟨"B_VALID", 28, 28, .ro, [0x0]⟩]⟩,
  ⟨"SLM_V_RESET", 0x40020124, [], [⟨"START", 0, 0, .w1s, [0x0]⟩, ⟨"RUNNING", 1, 1, .ro, [0x0]⟩, ⟨"COUNT", 31, 16, .ro, [0x0]⟩]⟩,
  ⟨"SLM_V_LAST_EPOCH", 0x40020128, [], [⟨"UNITS", 23, 0, .ro, [0x0]⟩]⟩,
  ⟨"SLM_V_BW_CAP", 0x4002012C, [], [⟨"CAP", 15, 0, .ro, [0x0]⟩, ⟨"CAP_NEXT", 31, 16, .rw, [0x0]⟩]⟩]

def regsZne0 : List RegSpec := [
  ⟨"ZNE_ID", 0x40030000, [], [⟨"DESCRIPTORS", 22, 0, .ro, [0x400000]⟩]⟩,
  ⟨"ZNE_CACHE_ID", 0x40030004, [], [⟨"ENTRIES", 15, 0, .ro, [0x8000]⟩, ⟨"EXTENTS", 22, 16, .ro, [0x40]⟩]⟩,
  ⟨"ZNE_CTRL", 0x40030008, [], [⟨"EN", 0, 0, .rwl, [0x0]⟩, ⟨"LOCK", 8, 8, .rwo, [0x0]⟩]⟩,
  ⟨"ZNE_ZD_BASE_LO", 0x40030010, [], [⟨"ADDR", 31, 0, .rwl, [0x0]⟩]⟩,
  ⟨"ZNE_ZD_BASE_HI", 0x40030014, [], [⟨"ADDR", 31, 0, .rwl, [0x0]⟩]⟩,
  ⟨"ZNE_EXT_BASE_LO", 0x40030018, [], [⟨"ADDR", 31, 0, .rwl, [0x0]⟩]⟩,
  ⟨"ZNE_EXT_BASE_HI", 0x4003001C, [], [⟨"ADDR", 31, 0, .rwl, [0x0]⟩]⟩,
  ⟨"ZNE_STG_BASE_LO", 0x40030020, [], [⟨"ADDR", 31, 0, .rwl, [0x0]⟩]⟩,
  ⟨"ZNE_STG_BASE_HI", 0x40030024, [], [⟨"ADDR", 31, 0, .rwl, [0x0]⟩]⟩,
  ⟨"ZNE_STG_RECORDS", 0x40030028, [], [⟨"RECORDS", 27, 0, .rwl, [0x4000000]⟩]⟩,
  ⟨"ZNE_STG_FREE", 0x4003002C, [], [⟨"FREE", 27, 0, .ro, [0x0]⟩]⟩,
  ⟨"ZNE_STG_WATER", 0x40030030, [], [⟨"HIGH_PCT", 6, 0, .rwl, [0xA]⟩, ⟨"STOP_PCT", 14, 8, .rwl, [0x2]⟩]⟩,
  ⟨"ZNE_ACTIVE", 0x40030040, [], [⟨"COUNT", 16, 0, .ro, [0x0]⟩]⟩,
  ⟨"ZNE_OPEN", 0x40030044, [], [⟨"COUNT", 16, 0, .ro, [0x0]⟩]⟩,
  ⟨"ZNE_ACTIVE_RESERVED", 0x40030048, [], [⟨"COUNT", 16, 0, .ro, [0x0]⟩]⟩,
  ⟨"ZNE_PINNED", 0x4003004C, [], [⟨"RESERVED", 14, 0, .ro, [0x0]⟩, ⟨"IN_USE", 30, 16, .ro, [0x0]⟩]⟩,
  ⟨"ZNE_CACHE_HITS", 0x40030050, [], [⟨"COUNT", 31, 0, .ro, [0x0]⟩]⟩,
  ⟨"ZNE_CACHE_MISSES", 0x40030054, [], [⟨"COUNT", 31, 0, .ro, [0x0]⟩]⟩,
  ⟨"ZNE_ZRES", 0x40030060, [], [⟨"THRESH_PCT", 6, 0, .rwl, [0x5]⟩]⟩,
  ⟨"ZNE_RESERVABLE_LO", 0x40030064, [], [⟨"UNITS", 31, 0, .ro, [0x0]⟩]⟩]

def regsZne1 : List RegSpec := [
  ⟨"ZNE_RESERVABLE_HI", 0x40030068, [], [⟨"UNITS", 31, 0, .ro, [0x0]⟩]⟩,
  ⟨"ZNE_EOL", 0x40030070, [], [⟨"REDUCED", 0, 0, .ro, [0x0]⟩, ⟨"READ_ONLY", 1, 1, .ro, [0x0]⟩, ⟨"LAST_K", 6, 2, .ro, [0x10]⟩]⟩,
  ⟨"ZNE_EVENTS", 0x40030074, [], [⟨"STG_HIGH", 0, 0, .rw1c, [0x0]⟩, ⟨"STG_STOP", 1, 1, .rw1c, [0x0]⟩, ⟨"ZONE_REDUCED", 2, 2, .rw1c, [0x0]⟩, ⟨"READ_ONLY_ENTERED", 3, 3, .rw1c, [0x0]⟩, ⟨"DESC_CRC", 4, 4, .rw1c, [0x0]⟩, ⟨"EXTENT_REWRITE", 5, 5, .rw1c, [0x0]⟩]⟩]

def regsCmp0 : List RegSpec := [
  ⟨"CMP_ID", 0x40040000, [], [⟨"ENTRIES", 26, 0, .ro, [0x4000000]⟩]⟩,
  ⟨"CMP_BASE_LO", 0x40040004, [], [⟨"ADDR", 31, 0, .rwl, [0x0]⟩]⟩,
  ⟨"CMP_BASE_HI", 0x40040008, [], [⟨"ADDR", 31, 0, .rwl, [0x0]⟩]⟩,
  ⟨"CMP_REGION", 0x4004000C, [], [⟨"UNITS", 26, 0, .rwl, [0x1000000]⟩]⟩,
  ⟨"CMP_ALLOCATED", 0x40040010, [], [⟨"UNITS", 26, 0, .ro, [0x0]⟩]⟩,
  ⟨"CMP_LARGEST_FREE", 0x40040014, [], [⟨"UNITS", 26, 0, .ro, [0x0]⟩]⟩,
  ⟨"CMP_MAPPED", 0x40040018, [], [⟨"UNITS", 26, 0, .ro, [0x0]⟩]⟩,
  ⟨"CMP_STAGED", 0x4004001C, [], [⟨"UNITS", 26, 0, .ro, [0x0]⟩]⟩,
  ⟨"CMP_SEQ_LO", 0x40040020, [], [⟨"SEQ", 31, 0, .ro, [0x0]⟩]⟩,
  ⟨"CMP_SEQ_HI", 0x40040024, [], [⟨"SEQ", 31, 0, .ro, [0x0]⟩]⟩,
  ⟨"CMP_EVENTS", 0x40040028, [], [⟨"SEQ_MISMATCH", 0, 0, .rw1c, [0x0]⟩, ⟨"WRITE_PROTECTED", 1, 1, .rw1c, [0x0]⟩]⟩,
  ⟨"CMP_CTRL", 0x4004002C, [], [⟨"EN", 0, 0, .rwl, [0x0]⟩, ⟨"LOCK", 8, 8, .rwo, [0x0]⟩]⟩]

def regsPlc0 : List RegSpec := [
  ⟨"PLC_ID", 0x40050000, [], [⟨"CLASSES", 6, 0, .ro, [0x40]⟩, ⟨"GROUPS", 15, 8, .ro, [0x80]⟩, ⟨"STREAMS", 26, 16, .ro, [0x400]⟩]⟩,
  ⟨"PLC_CTRL", 0x40050004, [], [⟨"EN", 0, 0, .rwl, [0x0]⟩, ⟨"LOCK", 8, 8, .rwo, [0x0]⟩]⟩,
  ⟨"PLC_STG", 0x40050008, [], [⟨"FRACTION", 7, 0, .rwl, [0x17]⟩]⟩,
  ⟨"PLC_STG_MIN", 0x4005000C, [], [⟨"BLOCKS", 31, 0, .rwl, [0x0]⟩]⟩,
  ⟨"PLC_STG_LIMIT", 0x40050010, [], [⟨"BLOCKS", 31, 0, .ro, [0x0]⟩]⟩,
  ⟨"PLC_STG_USED", 0x40050014, [], [⟨"BLOCKS", 31, 0, .ro, [0x0]⟩]⟩,
  ⟨"PLC_FREE", 0x40050018, [], [⟨"BLOCKS", 31, 0, .ro, [0x0]⟩]⟩,
  ⟨"PLC_FOLD_WATER", 0x4005001C, [], [⟨"LOW_PCT", 6, 0, .rwl, [0x32]⟩, ⟨"HIGH_PCT", 14, 8, .rwl, [0x5A]⟩]⟩,
  ⟨"PLC_DIRECT", 0x40050020, [], [⟨"HOLD_MS", 15, 0, .rwl, [0x64]⟩, ⟨"TAIL_PCT", 22, 16, .rwl, [0x4B]⟩]⟩,
  ⟨"PLC_QUIET", 0x40050024, [], [⟨"ENTER_US", 11, 0, .rwl, [0x96]⟩, ⟨"EXIT_US", 23, 12, .rwl, [0x32]⟩, ⟨"MAX_GROUPS", 31, 24, .rwl, [0x10]⟩]⟩,
  ⟨"PLC_QUIET_TIME", 0x40050028, [], [⟨"MAX_MS", 7, 0, .rwl, [0x14]⟩, ⟨"GAP_MS", 15, 8, .rwl, [0x5]⟩]⟩,
  ⟨"PLC_SCORE", 0x4005002C, [], [⟨"W_FREE", 3, 0, .rwl, [0x4]⟩, ⟨"W_PE", 7, 4, .rwl, [0x2]⟩, ⟨"W_LOAD", 11, 8, .rwl, [0x8]⟩]⟩,
  ⟨"PLC_MIN_SHARED", 0x40050030, [], [⟨"GROUPS", 7, 0, .rwl, [0x10]⟩]⟩,
  ⟨"PLC_GRP_PRESENT", 0x40050040, [⟨0, 4, 0x4⟩], [⟨"GROUPS", 31, 0, .ro, [0x0]⟩]⟩,
  ⟨"PLC_GRP_DEGRADED", 0x40050050, [⟨0, 4, 0x4⟩], [⟨"GROUPS", 31, 0, .ro, [0x0]⟩]⟩,
  ⟨"PLC_GRP_CLOSED", 0x40050060, [⟨0, 4, 0x4⟩], [⟨"GROUPS", 31, 0, .ro, [0x0]⟩]⟩,
  ⟨"PLC_GRP_HOLD", 0x40050070, [⟨0, 4, 0x4⟩], [⟨"GROUPS", 31, 0, .rw, [0x0]⟩]⟩,
  ⟨"PLC_GRP_DEDICATED", 0x40050080, [⟨0, 4, 0x4⟩], [⟨"GROUPS", 31, 0, .ro, [0x0]⟩]⟩,
  ⟨"PLC_GRP_QUIET", 0x40050090, [⟨0, 4, 0x4⟩], [⟨"GROUPS", 31, 0, .ro, [0x0]⟩]⟩,
  ⟨"PLC_GRP_FULL", 0x400500A0, [⟨0, 4, 0x4⟩], [⟨"GROUPS", 31, 0, .ro, [0x0]⟩]⟩]

def regsPlc1 : List RegSpec := [
  ⟨"PLC_GRP_EMPTY", 0x400500B0, [⟨0, 4, 0x4⟩], [⟨"GROUPS", 31, 0, .ro, [0x0]⟩]⟩,
  ⟨"PLC_XTE_DED", 0x400500C0, [⟨0, 3, 0x4⟩], [⟨"INSTANCES", 31, 0, .ro, [0x0]⟩]⟩,
  ⟨"PLC_DECISIONS_LO", 0x40050100, [], [⟨"COUNT", 31, 0, .ro, [0x0]⟩]⟩,
  ⟨"PLC_DECISIONS_HI", 0x40050104, [], [⟨"COUNT", 31, 0, .ro, [0x0]⟩]⟩,
  ⟨"PLC_READY_WAITS", 0x40050108, [], [⟨"COUNT", 31, 0, .ro, [0x0]⟩]⟩,
  ⟨"PLC_SPILLS", 0x4005010C, [], [⟨"COUNT", 31, 0, .ro, [0x0]⟩]⟩,
  ⟨"PLC_TAILS", 0x40050110, [], [⟨"COUNT", 31, 0, .ro, [0x0]⟩]⟩,
  ⟨"PLC_STREAMS", 0x40050114, [], [⟨"ACTIVE", 10, 0, .ro, [0x0]⟩, ⟨"PREPARED", 29, 16, .ro, [0x0]⟩]⟩,
  ⟨"PLC_FOLDS", 0x40050118, [], [⟨"RUNNING", 15, 0, .ro, [0x0]⟩, ⟨"Q2", 16, 16, .ro, [0x0]⟩]⟩,
  ⟨"PLC_EVENTS", 0x40050120, [], [⟨"STG_LOW", 0, 0, .rw1c, [0x0]⟩, ⟨"STG_HIGH", 1, 1, .rw1c, [0x0]⟩, ⟨"STG_FULL", 2, 2, .rw1c, [0x0]⟩, ⟨"QUIET_CAP", 3, 3, .rw1c, [0x0]⟩, ⟨"GROUP_DEGRADED", 4, 4, .rw1c, [0x0]⟩, ⟨"GROUP_CLOSED", 5, 5, .rw1c, [0x0]⟩, ⟨"STREAMS_FULL", 6, 6, .rw1c, [0x0]⟩, ⟨"ISO_EXHAUSTED", 7, 7, .rw1c, [0x0]⟩]⟩,
  ⟨"PLC_SEL", 0x40050130, [], [⟨"SLICE", 9, 0, .rw, [0x0]⟩]⟩,
  ⟨"PLC_V_MASK_LO", 0x40050134, [], [⟨"MASK", 31, 0, .ro, [0x0]⟩]⟩,
  ⟨"PLC_V_MASK_HI", 0x40050138, [], [⟨"MASK", 31, 0, .ro, [0x0]⟩]⟩,
  ⟨"PLC_V_DEFAULT", 0x4005013C, [], [⟨"CLASS", 5, 0, .ro, [0x0]⟩]⟩,
  ⟨"PLC_CLASS", 0x40051000, [⟨0, 64, 0x20⟩, ⟨0, 8, 0x4⟩], [⟨"WORD", 31, 0, .ro, [0x0]⟩]⟩]

def regsDsc0 : List RegSpec := [
  ⟨"DSC_ID", 0x40060000, [], [⟨"DIES", 11, 0, .ro, [0x800]⟩, ⟨"PER_DIE", 21, 12, .ro, [0x200]⟩]⟩,
  ⟨"DSC_CTRL", 0x40060004, [], [⟨"EN", 0, 0, .rwl, [0x0]⟩, ⟨"SUSPEND_EN", 1, 1, .rwl, [0x1]⟩, ⟨"REBOUND_EN", 2, 2, .rwl, [0x1]⟩, ⟨"LOCK", 8, 8, .rwo, [0x0]⟩]⟩,
  ⟨"DSC_PRED_BANK", 0x40060008, [], [⟨"ACTIVE", 0, 0, .rw, [0x0]⟩]⟩,
  ⟨"DSC_POOL", 0x4006000C, [], [⟨"ENTRIES", 18, 0, .ro, [0x40000]⟩]⟩,
  ⟨"DSC_CLASS_READ", 0x40060010, [⟨0, 4, 0x8⟩], [⟨"READ_US", 19, 0, .rwl, [0x78, 0x190, 0x7D0, 0x4E20]⟩]⟩,
  ⟨"DSC_CLASS_OP", 0x40060014, [⟨0, 4, 0x8⟩], [⟨"OP_US", 23, 0, .rwl, [0x1388, 0x4E20, 0xC350, 0x30D40]⟩]⟩,
  ⟨"DSC_SUSPEND", 0x40060030, [], [⟨"MAX_PER_OP", 2, 0, .rwl, [0x4]⟩, ⟨"CLASSES", 7, 4, .rwl, [0x3]⟩, ⟨"PROG_MIN_US", 19, 8, .rwl, [0x64]⟩, ⟨"ERASE_MIN_US", 31, 20, .rwl, [0x190]⟩]⟩,
  ⟨"DSC_SUSPEND_TIME", 0x40060034, [], [⟨"WINDOW_US", 11, 0, .rwl, [0xC8]⟩, ⟨"TOTAL_US", 27, 12, .rwl, [0x7D0]⟩]⟩,
  ⟨"DSC_RB_CTRL", 0x40060038, [], [⟨"PCT", 6, 0, .rwl, [0x19]⟩, ⟨"FLOOR", 23, 8, .rwl, [0x1000]⟩, ⟨"MARGIN_US", 31, 24, .rwl, [0xA]⟩]⟩,
  ⟨"DSC_PATH", 0x4006003C, [], [⟨"RB_CLASSES", 3, 0, .rwl, [0x3]⟩, ⟨"XOR_US", 11, 4, .rwl, [0x4]⟩, ⟨"PATH_US", 19, 12, .rwl, [0x8]⟩]⟩,
  ⟨"DSC_DIRTY", 0x40060040, [], [⟨"URGENT_PCT", 6, 0, .rwl, [0x55]⟩]⟩,
  ⟨"DSC_RB_TOKENS", 0x40060044, [], [⟨"TOKENS", 23, 0, .ro, [0x0]⟩]⟩,
  ⟨"DSC_QUEUED", 0x40060048, [], [⟨"OPS", 18, 0, .ro, [0x0]⟩]⟩,
  ⟨"DSC_COUNT", 0x40060080, [⟨0, 10, 0x4⟩], [⟨"COUNT", 31, 0, .ro, [0x0]⟩]⟩,
  ⟨"DSC_MISS", 0x400600C0, [⟨0, 4, 0x4⟩], [⟨"COUNT", 31, 0, .ro, [0x0]⟩]⟩,
  ⟨"DSC_LAT_SEL", 0x40060100, [], [⟨"CLASS", 1, 0, .rw, [0x0]⟩, ⟨"CLEAR", 8, 8, .w1s, [0x0]⟩]⟩,
  ⟨"DSC_LAT_BIN", 0x40060180, [⟨0, 32, 0x4⟩], [⟨"COUNT", 31, 0, .ro, [0x0]⟩]⟩,
  ⟨"DSC_DIE_SEL", 0x40060200, [], [⟨"DIE", 10, 0, .rw, [0x0]⟩]⟩,
  ⟨"DSC_V_BACKLOG", 0x40060204, [], [⟨"READ_US", 15, 0, .ro, [0x0]⟩, ⟨"PE_10US", 31, 16, .ro, [0x0]⟩]⟩,
  ⟨"DSC_V_STATE", 0x40060208, [], [⟨"QUEUED", 9, 0, .ro, [0x0]⟩, ⟨"RUNNING", 11, 10, .ro, [0x0]⟩, ⟨"SUSPENDED", 12, 12, .ro, [0x0]⟩, ⟨"SUSPENDS", 15, 13, .ro, [0x0]⟩]⟩]

def regsDsc1 : List RegSpec := [
  ⟨"DSC_PRED_BANK0", 0x40061000, [⟨0, 144, 0x4⟩], [⟨"TIME_QUS", 15, 0, .rw, [0x0]⟩]⟩,
  ⟨"DSC_PRED_BANK1", 0x40061400, [⟨0, 144, 0x4⟩], [⟨"TIME_QUS", 15, 0, .rw, [0x0]⟩]⟩,
  ⟨"DSC_EST", 0x40064000, [⟨0, 2048, 0x4⟩], [⟨"CORR", 7, 0, .rw, [0x40]⟩, ⟨"RETRY_Q4", 15, 8, .rw, [0x0]⟩]⟩]

def regsLdc0 : List RegSpec := [
  ⟨"LDC_ID", 0x40070000, [], [⟨"DECODERS", 7, 0, .ro, [0x80]⟩, ⟨"SOFT_BITS", 11, 8, .ro, [0x3]⟩, ⟨"RETRY_STEPS", 16, 12, .ro, [0x10]⟩]⟩,
  ⟨"LDC_GEOM", 0x40070004, [], [⟨"CW_BYTES", 12, 0, .ro, [0x1200]⟩, ⟨"UNITS_PER_PAGE", 18, 16, .ro, [0x4]⟩]⟩,
  ⟨"LDC_CTRL", 0x40070008, [], [⟨"EN", 0, 0, .rwl, [0x0]⟩, ⟨"SOFT_EN", 1, 1, .rwl, [0x1]⟩, ⟨"LOCK", 8, 8, .rwo, [0x0]⟩]⟩,
  ⟨"LDC_RETRY_CTRL", 0x4007000C, [], [⟨"MAX_RETRY", 3, 0, .rwl, [0x8]⟩, ⟨"SOFT_DELTA", 15, 8, .rwl, [0x6]⟩, ⟨"HARD_ITER", 23, 16, .rwl, [0x14]⟩, ⟨"SOFT_ITER", 31, 24, .rwl, [0x28]⟩]⟩,
  ⟨"LDC_COUNT", 0x40070040, [⟨0, 6, 0x4⟩], [⟨"COUNT", 31, 0, .ro, [0x0]⟩]⟩,
  ⟨"LDC_EVENTS", 0x40070060, [], [⟨"UNCORRECTABLE", 0, 0, .rw1c, [0x0]⟩, ⟨"HEADER_MISMATCH", 1, 1, .rw1c, [0x0]⟩, ⟨"SOFT_USED", 2, 2, .rw1c, [0x0]⟩, ⟨"DECODER_BORROWED", 3, 3, .rw1c, [0x0]⟩]⟩,
  ⟨"LDC_DEC_SEL", 0x40070070, [], [⟨"DECODER", 6, 0, .rw, [0x0]⟩]⟩,
  ⟨"LDC_V_DEC", 0x40070074, [], [⟨"QUEUED", 7, 0, .ro, [0x0]⟩, ⟨"STATE", 9, 8, .ro, [0x0]⟩]⟩,
  ⟨"LDC_MED_CTRL", 0x40070100, [], [⟨"SPARE_NUM", 7, 0, .rwl, [0x18]⟩, ⟨"EXPORT_NUM", 17, 8, .rwl, [0x390]⟩]⟩,
  ⟨"LDC_MED_SPARE", 0x40070104, [], [⟨"WARN_PCT", 6, 0, .rwl, [0xA]⟩, ⟨"AVAIL_PCT", 14, 8, .ro, [0x64]⟩, ⟨"PCT_USED", 23, 16, .ro, [0x0]⟩]⟩,
  ⟨"LDC_MED_WL", 0x40070108, [], [⟨"SPREAD", 15, 0, .rwl, [0x12C]⟩]⟩,
  ⟨"LDC_MED_COLL", 0x4007010C, [], [⟨"Q3_PCT", 6, 0, .rwl, [0xC]⟩, ⟨"Q2_PCT", 14, 8, .rwl, [0x6]⟩, ⟨"HOLD_PCT", 22, 16, .rwl, [0xA]⟩]⟩,
  ⟨"LDC_MED_CKPT", 0x40070110, [], [⟨"PERIOD_S", 7, 0, .rwl, [0x1E]⟩, ⟨"JRN_MAX_MIB", 31, 16, .rwl, [0x4000]⟩]⟩,
  ⟨"LDC_MED_EMG", 0x40070114, [], [⟨"CAP_MIB", 19, 0, .ro, [0x0]⟩]⟩,
  ⟨"LDC_MED_EXPORT_LO", 0x40070118, [], [⟨"UNITS", 31, 0, .ro, [0x0]⟩]⟩,
  ⟨"LDC_MED_EXPORT_HI", 0x4007011C, [], [⟨"UNITS", 31, 0, .ro, [0x0]⟩]⟩,
  ⟨"LDC_MED_SPARE_BLOCKS", 0x40070120, [], [⟨"BLOCKS", 23, 0, .ro, [0x0]⟩]⟩,
  ⟨"LDC_MED_SPARE_INIT", 0x40070124, [], [⟨"BLOCKS", 23, 0, .ro, [0x0]⟩]⟩,
  ⟨"LDC_MED_RETIRED", 0x40070128, [], [⟨"BLOCKS", 23, 0, .ro, [0x0]⟩]⟩,
  ⟨"LDC_MED_RETIRE", 0x4007012C, [], [⟨"SUSPECT", 7, 0, .rwl, [0x4]⟩]⟩]

def regsLdc1 : List RegSpec := [
  ⟨"LDC_MED_DIE", 0x40070130, [], [⟨"TIMEOUT_MS", 7, 0, .rwl, [0x32]⟩, ⟨"FAIL_BLOCKS", 15, 8, .rwl, [0x40]⟩]⟩,
  ⟨"LDC_MED_LOST", 0x40070134, [], [⟨"DIES", 11, 0, .ro, [0x0]⟩, ⟨"CHANNELS", 22, 16, .ro, [0x0]⟩]⟩,
  ⟨"LDC_MED_REBUILD", 0x40070138, [], [⟨"ACTIVE", 0, 0, .ro, [0x0]⟩, ⟨"PERCENT", 7, 1, .ro, [0x0]⟩, ⟨"FULL_SCAN", 8, 8, .ro, [0x0]⟩]⟩,
  ⟨"LDC_MED_EVENTS", 0x40070140, [], [⟨"SPARE_LOW", 0, 0, .rw1c, [0x0]⟩, ⟨"DIE_LOST", 1, 1, .rw1c, [0x0]⟩, ⟨"CHANNEL_LOST", 2, 2, .rw1c, [0x0]⟩, ⟨"REBUILD_DONE", 3, 3, .rw1c, [0x0]⟩, ⟨"COPY_DEST_FAIL", 4, 4, .rw1c, [0x0]⟩, ⟨"UNIT_LOST", 5, 5, .rw1c, [0x0]⟩]⟩,
  ⟨"LDC_MED_DIE_SEL", 0x40070150, [], [⟨"DIE", 10, 0, .rw, [0x0]⟩]⟩,
  ⟨"LDC_MED_V_DIE", 0x40070154, [], [⟨"STATE", 1, 0, .ro, [0x0]⟩, ⟨"SPARES", 15, 8, .ro, [0x0]⟩, ⟨"RETIRED", 31, 16, .ro, [0x0]⟩]⟩,
  ⟨"LDC_MED_V_PE", 0x40070158, [], [⟨"MEAN", 15, 0, .ro, [0x0]⟩, ⟨"MAX", 31, 16, .ro, [0x0]⟩]⟩,
  ⟨"LDC_STEP", 0x40072000, [⟨0, 2048, 0x4⟩], [⟨"STEP_SLC", 3, 0, .rw, [0x0]⟩, ⟨"STEP_TLC", 7, 4, .rw, [0x0]⟩, ⟨"STEP_QLC", 11, 8, .rw, [0x0]⟩]⟩,
  ⟨"LDC_RETRY", 0x40071000, [⟨0, 3, 0x400⟩, ⟨0, 16, 0x40⟩, ⟨0, 16, 0x4⟩], [⟨"OFFSETS", 31, 0, .rw, [0x0]⟩]⟩]

def regsBpm0 : List RegSpec := [
  ⟨"BPM_ID", 0x40080000, [], [⟨"POOLS", 2, 0, .ro, [0x4]⟩, ⟨"ACCOUNTS", 26, 16, .ro, [0x408]⟩]⟩,
  ⟨"BPM_CTRL", 0x40080004, [], [⟨"EN", 0, 0, .rwl, [0x0]⟩, ⟨"AUDIT_EN", 1, 1, .rwl, [0x1]⟩, ⟨"MIN_CLEAR", 2, 2, .w1s, [0x0]⟩, ⟨"LOCK", 8, 8, .rwo, [0x0]⟩]⟩,
  ⟨"BPM_POOL", 0x40080010, [⟨0, 4, 0x4⟩], [⟨"COUNT", 15, 0, .rwl, [0x4000, 0x2000, 0x200, 0x80]⟩, ⟨"STRIDE_64B", 31, 16, .ro, [0x9, 0x48, 0x120, 0x480]⟩]⟩,
  ⟨"BPM_BASE", 0x40080020, [⟨0, 4, 0x4⟩], [⟨"OFFSET", 25, 0, .ro, [0x0, 0x900000, 0x2D00000, 0x3600000]⟩]⟩,
  ⟨"BPM_FREE", 0x40080030, [⟨0, 4, 0x4⟩], [⟨"FREE", 15, 0, .ro, [0x4000, 0x2000, 0x200, 0x80]⟩, ⟨"SURPLUS_FREE", 31, 16, .ro, [0x4000, 0x2000, 0x200, 0x80]⟩]⟩,
  ⟨"BPM_RES", 0x40080040, [⟨0, 4, 0x4⟩], [⟨"RESERVED", 15, 0, .ro, [0x0]⟩, ⟨"MIN_SURPLUS", 31, 16, .ro, [0x4000, 0x2000, 0x200, 0x80]⟩]⟩,
  ⟨"BPM_BP", 0x40080050, [], [⟨"T3_PCT", 6, 0, .rwl, [0x19]⟩, ⟨"T2_PCT", 14, 8, .rwl, [0xC]⟩, ⟨"T1_PCT", 22, 16, .rwl, [0x6]⟩, ⟨"HYST_PCT", 27, 24, .rwl, [0x3]⟩]⟩,
  ⟨"BPM_BP_RELEASE", 0x40080054, [], [⟨"BUFS", 15, 0, .rwl, [0x10]⟩]⟩,
  ⟨"BPM_BP_STATE", 0x40080058, [], [⟨"ACTIVE", 3, 0, .ro, [0x0]⟩, ⟨"BY_LOSS", 7, 4, .ro, [0x0]⟩, ⟨"WAITING", 11, 8, .ro, [0x0]⟩]⟩,
  ⟨"BPM_COUNT", 0x40080060, [⟨0, 8, 0x4⟩], [⟨"COUNT", 31, 0, .ro, [0x0]⟩]⟩,
  ⟨"BPM_EVENTS", 0x40080080, [], [⟨"BP_RAISED", 3, 0, .rw1c, [0x0]⟩, ⟨"LEAK", 4, 4, .rw1c, [0x0]⟩, ⟨"DOUBLE_FREE", 5, 5, .rw1c, [0x0]⟩, ⟨"NOT_OWNER", 6, 6, .rw1c, [0x0]⟩, ⟨"CHAIN", 7, 7, .rw1c, [0x0]⟩]⟩,
  ⟨"BPM_AUDIT", 0x40080084, [], [⟨"PERIOD_MS", 15, 0, .rwl, [0x3E8]⟩, ⟨"AGE_MS", 31, 16, .rwl, [0x7D0]⟩]⟩,
  ⟨"BPM_AUDIT_STATE", 0x40080088, [], [⟨"PASSES", 15, 0, .ro, [0x0]⟩, ⟨"LEAKS", 31, 16, .ro, [0x0]⟩]⟩,
  ⟨"BPM_AUDIT_TIME_LO", 0x4008008C, [], [⟨"TIME", 31, 0, .ro, [0x0]⟩]⟩,
  ⟨"BPM_AUDIT_TIME_HI", 0x40080090, [], [⟨"TIME", 31, 0, .ro, [0x0]⟩]⟩,
  ⟨"BPM_HOLDER", 0x400800A0, [⟨0, 8, 0x4⟩], [⟨"HELD", 15, 0, .ro, [0x0]⟩, ⟨"OLDEST_MS", 31, 16, .ro, [0x0]⟩]⟩,
  ⟨"BPM_ISO_DEFAULT_LO", 0x400800C0, [], [⟨"POOL0", 15, 0, .rwl, [0x40]⟩, ⟨"POOL1", 31, 16, .rwl, [0x100]⟩]⟩,
  ⟨"BPM_ISO_DEFAULT_HI", 0x400800C4, [], [⟨"POOL2", 15, 0, .rwl, [0x8]⟩, ⟨"POOL3", 31, 16, .rwl, [0x4]⟩]⟩,
  ⟨"BPM_ACCT_SEL", 0x40080100, [], [⟨"ACCOUNT", 10, 0, .rw, [0x0]⟩]⟩,
  ⟨"BPM_V_QUOTA", 0x40080110, [⟨0, 4, 0x4⟩], [⟨"RESERVE", 15, 0, .rw, [0x0]⟩, ⟨"LIMIT", 31, 16, .rw, [0x0]⟩]⟩]

def regsBpm1 : List RegSpec := [
  ⟨"BPM_V_HELD", 0x40080120, [⟨0, 4, 0x4⟩], [⟨"HELD", 15, 0, .ro, [0x0]⟩, ⟨"OLDEST_MS", 31, 16, .ro, [0x0]⟩]⟩,
  ⟨"BPM_V_STATE", 0x40080130, [], [⟨"ISOLATED", 0, 0, .ro, [0x0]⟩, ⟨"DEVICE", 1, 1, .ro, [0x0]⟩, ⟨"QUOTA_WAIT", 5, 2, .ro, [0x0]⟩, ⟨"LEAKS", 31, 16, .ro, [0x0]⟩]⟩,
  ⟨"BPM_FW_ALLOC", 0x40080200, [⟨0, 8, 0x20⟩], [⟨"SIZE", 16, 0, .wo, [0x0]⟩, ⟨"CLASS", 18, 17, .wo, [0x0]⟩, ⟨"NOCHAIN", 19, 19, .wo, [0x0]⟩, ⟨"LONG", 20, 20, .wo, [0x0]⟩, ⟨"ACCOUNT", 31, 21, .wo, [0x0]⟩]⟩,
  ⟨"BPM_FW_HANDLE", 0x40080204, [⟨0, 8, 0x20⟩], [⟨"HANDLE", 31, 0, .ro, [0x0]⟩]⟩,
  ⟨"BPM_FW_STATUS", 0x40080208, [⟨0, 8, 0x20⟩], [⟨"STATUS", 15, 0, .ro, [0x0]⟩, ⟨"DONE", 16, 16, .ro, [0x1]⟩]⟩,
  ⟨"BPM_FW_FREE", 0x4008020C, [⟨0, 8, 0x20⟩], [⟨"HANDLE", 31, 0, .wo, [0x0]⟩]⟩,
  ⟨"BPM_FW_TARGET", 0x40080210, [⟨0, 8, 0x20⟩], [⟨"MASTER_ID", 31, 0, .rw, [0x0]⟩]⟩,
  ⟨"BPM_FW_HANDOVER", 0x40080214, [⟨0, 8, 0x20⟩], [⟨"HANDLE", 31, 0, .wo, [0x0]⟩]⟩]

def regsDmc0 : List RegSpec := [
  ⟨"DMC_ID", 0x40090000, [], [⟨"CHANNELS", 2, 0, .ro, [0x4]⟩, ⟨"MAX_RATE_100", 14, 8, .ro, [0x50]⟩]⟩,
  ⟨"DMC_CTRL", 0x40090004, [], [⟨"EN", 0, 0, .rwl, [0x0]⟩, ⟨"SELF_REFRESH", 1, 1, .rw, [0x0]⟩, ⟨"LOCK", 8, 8, .rwo, [0x0]⟩]⟩,
  ⟨"DMC_CONFIG", 0x40090008, [], [⟨"CH_PRESENT", 3, 0, .rwl, [0xF]⟩, ⟨"ORG", 4, 4, .rwl, [0x0]⟩, ⟨"RANKS", 5, 5, .rwl, [0x0]⟩, ⟨"DENSITY", 7, 6, .rwl, [0x0]⟩, ⟨"CAP_GIB", 23, 16, .ro, [0x80]⟩]⟩,
  ⟨"DMC_TOP_LO", 0x4009000C, [], [⟨"ADDR", 31, 0, .ro, [0x0]⟩]⟩,
  ⟨"DMC_TOP_HI", 0x40090010, [], [⟨"ADDR", 31, 0, .ro, [0x0]⟩]⟩,
  ⟨"DMC_APERTURE", 0x40090014, [], [⟨"BASE", 8, 0, .rw, [0x0]⟩]⟩,
  ⟨"DMC_STATUS", 0x40090018, [], [⟨"READY", 0, 0, .ro, [0x0]⟩, ⟨"KEPT", 1, 1, .ro, [0x0]⟩, ⟨"IN_SR", 2, 2, .ro, [0x0]⟩, ⟨"CHANGING", 3, 3, .ro, [0x0]⟩, ⟨"GATHER_OPEN", 4, 4, .ro, [0x0]⟩, ⟨"PANIC", 5, 5, .ro, [0x0]⟩, ⟨"RATE_IDX", 7, 6, .ro, [0x0]⟩]⟩,
  ⟨"DMC_RATE", 0x40090020, [⟨0, 4, 0x4⟩], [⟨"MTS_100", 6, 0, .rwl, [0x50, 0x0, 0x0, 0x0]⟩]⟩,
  ⟨"DMC_SPEED_REQ", 0x40090030, [], [⟨"TARGET", 1, 0, .wo, [0x0]⟩, ⟨"FORCE", 2, 2, .wo, [0x0]⟩, ⟨"GO", 3, 3, .w1s, [0x0]⟩]⟩,
  ⟨"DMC_SPEED_STATUS", 0x40090034, [], [⟨"STATUS", 15, 0, .ro, [0x0]⟩, ⟨"DONE", 16, 16, .ro, [0x1]⟩]⟩,
  ⟨"DMC_GATHER_CTRL", 0x40090040, [], [⟨"CH", 1, 0, .rw, [0x0]⟩, ⟨"SUB", 2, 2, .rw, [0x0]⟩, ⟨"RANK", 3, 3, .rw, [0x0]⟩, ⟨"KIND", 6, 4, .rw, [0x0]⟩, ⟨"GO", 8, 8, .w1s, [0x0]⟩, ⟨"CLOSE", 9, 9, .w1s, [0x0]⟩]⟩,
  ⟨"DMC_GATHER_RANGE", 0x40090044, [], [⟨"START", 7, 0, .rw, [0x0]⟩, ⟨"STEP", 15, 8, .rw, [0x1]⟩, ⟨"COUNT", 23, 16, .rw, [0x80]⟩]⟩,
  ⟨"DMC_GATHER_STATUS", 0x40090048, [], [⟨"STATE", 1, 0, .ro, [0x0]⟩, ⟨"DISCARDED", 2, 2, .rw1c, [0x0]⟩, ⟨"DONE_STEPS", 10, 3, .ro, [0x0]⟩, ⟨"STATUS", 31, 16, .ro, [0x0]⟩]⟩,
  ⟨"DMC_GATHER_TIMEOUT", 0x4009004C, [], [⟨"MS", 15, 0, .rwl, [0x64]⟩]⟩,
  ⟨"DMC_RT", 0x40090050, [], [⟨"PANIC_NS", 15, 0, .rwl, [0x7D0]⟩, ⟨"BURST_MAX", 27, 16, .ro, [0x800]⟩]⟩,
  ⟨"DMC_REFRESH_2X", 0x40090054, [], [⟨"RANKS", 15, 0, .ro, [0x0]⟩]⟩,
  ⟨"DMC_TEMP", 0x40090058, [], [⟨"POLL_US", 15, 0, .rwl, [0xFA0]⟩]⟩,
  ⟨"DMC_COUNT", 0x40090060, [⟨0, 8, 0x4⟩], [⟨"COUNT", 31, 0, .ro, [0x0]⟩]⟩,
  ⟨"DMC_EVENTS", 0x40090080, [], [⟨"PANIC", 0, 0, .rw1c, [0x0]⟩, ⟨"REFRESH_FORCED", 1, 1, .rw1c, [0x0]⟩, ⟨"TEMP_2X", 2, 2, .rw1c, [0x0]⟩, ⟨"TEMP_ABOVE_2X", 3, 3, .rw1c, [0x0]⟩, ⟨"GATHER_DISCARDED", 4, 4, .rw1c, [0x0]⟩, ⟨"SPEED_REFUSED", 5, 5, .rw1c, [0x0]⟩, ⟨"RANGE_ERROR", 6, 6, .rw1c, [0x0]⟩]⟩,
  ⟨"DMC_GATHER_RESULT", 0x40091000, [⟨0, 128, 0x8⟩, ⟨0, 2, 0x4⟩], [⟨"LANES", 31, 0, .ro, [0x0]⟩]⟩]

def regsDmc1 : List RegSpec := [
  ⟨"DMC_DELAY", 0x40094000, [⟨0, 4096, 0x4⟩], [⟨"DELAY", 31, 0, .rw, [0x0]⟩]⟩]

def regsMep0 : List RegSpec := [
  ⟨"MEP_ID", 0x400A0000, [], [⟨"CODE", 0, 0, .ro, [0x0]⟩, ⟨"SRAM_REGIONS", 15, 8, .ro, [0x10]⟩]⟩,
  ⟨"MEP_CTRL", 0x400A0004, [], [⟨"SCRUB_EN", 0, 0, .rwl, [0x1]⟩, ⟨"SRAM_SCRUB_EN", 1, 1, .rwl, [0x1]⟩, ⟨"LOCK", 8, 8, .rwo, [0x0]⟩]⟩,
  ⟨"MEP_SCRUB", 0x400A0008, [], [⟨"PERIOD_H", 15, 0, .rwl, [0x18]⟩, ⟨"SRAM_PERIOD_MS", 31, 16, .rwl, [0x3E8]⟩]⟩,
  ⟨"MEP_SCRUB_POS_LO", 0x400A000C, [], [⟨"ADDR", 31, 0, .ro, [0x0]⟩]⟩,
  ⟨"MEP_SCRUB_POS_HI", 0x400A0010, [], [⟨"ADDR", 31, 0, .ro, [0x0]⟩]⟩,
  ⟨"MEP_SCRUB_PASSES", 0x400A0014, [], [⟨"DRAM", 15, 0, .ro, [0x0]⟩, ⟨"SRAM", 31, 16, .ro, [0x0]⟩]⟩,
  ⟨"MEP_MARK_CFG", 0x400A0018, [], [⟨"DEV_EVENTS", 7, 0, .rwl, [0x4]⟩, ⟨"CE_COUNT", 31, 16, .rwl, [0x400]⟩]⟩,
  ⟨"MEP_MARK", 0x400A0020, [⟨0, 16, 0x4⟩], [⟨"DEVICE", 3, 0, .ro, [0x0]⟩, ⟨"MARKED", 7, 7, .ro, [0x0]⟩, ⟨"SECOND", 8, 8, .ro, [0x0]⟩, ⟨"CE", 31, 16, .ro, [0x0]⟩]⟩,
  ⟨"MEP_CE_DRAM", 0x400A0060, [], [⟨"COUNT", 31, 0, .ro, [0x0]⟩]⟩,
  ⟨"MEP_UE_DRAM", 0x400A0064, [], [⟨"COUNT", 31, 0, .ro, [0x0]⟩]⟩,
  ⟨"MEP_CE_SRAM", 0x400A0068, [], [⟨"COUNT", 31, 0, .ro, [0x0]⟩]⟩,
  ⟨"MEP_UE_SRAM", 0x400A006C, [], [⟨"COUNT", 31, 0, .ro, [0x0]⟩]⟩,
  ⟨"MEP_LAST_ADDR_LO", 0x400A0070, [], [⟨"ADDR", 31, 0, .ro, [0x0]⟩]⟩,
  ⟨"MEP_LAST_ADDR_HI", 0x400A0074, [], [⟨"ADDR", 31, 0, .ro, [0x0]⟩]⟩,
  ⟨"MEP_LAST_INFO", 0x400A0078, [], [⟨"UE", 0, 0, .ro, [0x0]⟩, ⟨"SRAM", 1, 1, .ro, [0x0]⟩, ⟨"WHERE", 5, 2, .ro, [0x0]⟩, ⟨"DEVICE", 9, 6, .ro, [0x0]⟩, ⟨"SYMBOLS", 14, 10, .ro, [0x0]⟩]⟩,
  ⟨"MEP_EVENTS", 0x400A0080, [], [⟨"DRAM_CE", 0, 0, .rw1c, [0x0]⟩, ⟨"DRAM_UE", 1, 1, .rw1c, [0x0]⟩, ⟨"SRAM_CE", 2, 2, .rw1c, [0x0]⟩, ⟨"SRAM_UE", 3, 3, .rw1c, [0x0]⟩, ⟨"DEVICE_MARKED", 4, 4, .rw1c, [0x0]⟩, ⟨"SECOND_DEVICE", 5, 5, .rw1c, [0x0]⟩, ⟨"PTEST_FAIL", 6, 6, .rw1c, [0x0]⟩, ⟨"INJECTED", 7, 7, .rw1c, [0x0]⟩]⟩,
  ⟨"MEP_PTEST", 0x400A0090, [], [⟨"RESULT", 1, 0, .ro, [0x0]⟩, ⟨"MS", 31, 16, .ro, [0x0]⟩]⟩,
  ⟨"MEP_TEST_REGION", 0x400A0094, [], [⟨"BASE", 10, 0, .rwl, [0x0]⟩]⟩,
  ⟨"MEP_INJ_CTRL", 0x400A00A0, [], [⟨"ARM", 0, 0, .w1s, [0x0]⟩, ⟨"STICKY", 1, 1, .rw, [0x0]⟩, ⟨"TARGET", 2, 2, .rw, [0x0]⟩, ⟨"REGION", 6, 3, .rw, [0x0]⟩, ⟨"DEVICE", 10, 7, .rw, [0x0]⟩, ⟨"FIRED", 12, 12, .rw1c, [0x0]⟩]⟩,
  ⟨"MEP_INJ_ADDR_LO", 0x400A00A4, [], [⟨"ADDR", 31, 0, .rw, [0x0]⟩]⟩]

def regsMep1 : List RegSpec := [
  ⟨"MEP_INJ_ADDR_HI", 0x400A00A8, [], [⟨"ADDR", 31, 0, .rw, [0x0]⟩]⟩,
  ⟨"MEP_INJ_MASK", 0x400A00B0, [⟨0, 4, 0x4⟩], [⟨"MASK", 31, 0, .rw, [0x0]⟩]⟩]

def regsUmp0 : List RegSpec := [
  ⟨"UMP_ID", 0x400B0000, [], [⟨"POINTS", 3, 0, .ro, [0x8]⟩, ⟨"DIE_TYPES", 7, 4, .ro, [0x4]⟩, ⟨"CALL_SLOTS", 20, 8, .ro, [0x1000]⟩]⟩,
  ⟨"UMP_CTRL", 0x400B0004, [], [⟨"EN", 0, 0, .rwl, [0x0]⟩, ⟨"THERMAL_EN", 1, 1, .rwl, [0x1]⟩, ⟨"LOCK", 8, 8, .rwo, [0x0]⟩]⟩,
  ⟨"UMP_BUDGET", 0x400B0008, [], [⟨"BUDGET_W", 9, 0, .rw, [0x19]⟩, ⟨"IN_FORCE_W", 25, 16, .ro, [0x19]⟩]⟩,
  ⟨"UMP_EFFECTIVE", 0x400B000C, [], [⟨"W_EFF", 9, 0, .ro, [0x0]⟩, ⟨"STATE", 12, 10, .ro, [0x0]⟩, ⟨"THERMAL", 19, 16, .ro, [0x8]⟩, ⟨"HOLDUP", 20, 20, .ro, [0x0]⟩]⟩,
  ⟨"UMP_PP_CTRL", 0x400B0010, [], [⟨"PP_MIN", 2, 0, .rw, [0x0]⟩, ⟨"PP_MAX", 6, 4, .rw, [0x7]⟩, ⟨"CORE_PCT", 14, 8, .rwl, [0x28]⟩, ⟨"PP_NOW", 18, 16, .ro, [0x0]⟩, ⟨"PP_TARGET", 22, 20, .ro, [0x0]⟩, ⟨"CHANGING", 23, 23, .ro, [0x0]⟩]⟩,
  ⟨"UMP_PP", 0x400B0020, [⟨0, 8, 0x4⟩], [⟨"VSET_MV", 9, 0, .rwl, [0x226, 0x253, 0x27B, 0x2A8, 0x2D0, 0x2FD, 0x325, 0x352]⟩, ⟨"AGE_MV", 15, 10, .rw, [0x0]⟩, ⟨"ALLOW_W", 23, 16, .rwl, [0x7, 0xA, 0xE, 0x13, 0x19, 0x20, 0x2C, 0x3A]⟩]⟩,
  ⟨"UMP_BASE", 0x400B0040, [], [⟨"OTHER_W", 7, 0, .rwl, [0x8]⟩, ⟨"FLASH_MIN_W", 15, 8, .rwl, [0x2]⟩, ⟨"DEVICE_PCT", 22, 16, .rwl, [0x5]⟩]⟩,
  ⟨"UMP_RAILS", 0x400B0044, [], [⟨"VCC_MV", 11, 0, .rwl, [0x9C4]⟩, ⟨"VCCQ_MV", 27, 16, .rwl, [0x4B0]⟩]⟩,
  ⟨"UMP_ICC", 0x400B0048, [], [⟨"BUDGET_100MA", 15, 0, .rwl, [0x190]⟩, ⟨"EFF_100MA", 31, 16, .ro, [0x0]⟩]⟩,
  ⟨"UMP_ICCQ", 0x400B004C, [], [⟨"BUDGET_100MA", 15, 0, .rwl, [0x78]⟩, ⟨"EFF_100MA", 31, 16, .ro, [0x0]⟩]⟩,
  ⟨"UMP_PEAK", 0x400B0050, [], [⟨"PEAK_PCT", 7, 0, .rwl, [0x78]⟩]⟩,
  ⟨"UMP_CALL", 0x400B0054, [], [⟨"HOL_US", 9, 0, .rwl, [0x32]⟩, ⟨"FLOOR_HOLD_US", 25, 16, .rwl, [0x320]⟩]⟩,
  ⟨"UMP_THERMAL", 0x400B0058, [], [⟨"HOT_C", 7, 0, .rwl, [0x5F]⟩, ⟨"HYST_C", 15, 8, .rwl, [0x5]⟩, ⟨"STEP_MS", 23, 16, .rwl, [0xA]⟩, ⟨"FLOOR_8THS", 27, 24, .rwl, [0x4]⟩]⟩,
  ⟨"UMP_HOLDUP", 0x400B005C, [], [⟨"BUDGET_W", 9, 0, .rwl, [0x96]⟩, ⟨"PP", 14, 12, .rwl, [0x3]⟩]⟩,
  ⟨"UMP_VR", 0x400B0060, [], [⟨"ADDR", 6, 0, .rwl, [0x40]⟩, ⟨"FAST", 7, 7, .rwl, [0x0]⟩, ⟨"SLEW_MV_US", 15, 8, .rwl, [0x5]⟩, ⟨"TIMEOUT_US", 31, 16, .rwl, [0x1F4]⟩]⟩,
  ⟨"UMP_VR_STATUS", 0x400B0064, [], [⟨"VOUT_MV", 9, 0, .ro, [0x0]⟩, ⟨"FAULT", 10, 10, .rw1c, [0x0]⟩, ⟨"STATUS_WORD", 31, 16, .ro, [0x0]⟩]⟩,
  ⟨"UMP_COST_BANK", 0x400B0068, [], [⟨"ACTIVE", 0, 0, .rw, [0x0]⟩]⟩,
  ⟨"UMP_SENSE", 0x400B006C, [], [⟨"PCT", 6, 0, .rwl, [0x14]⟩]⟩,
  ⟨"UMP_TOKENS", 0x400B0070, [], [⟨"TOKENS", 23, 0, .ro, [0x0]⟩]⟩,
  ⟨"UMP_TOKENS_LEFT", 0x400B0074, [], [⟨"TOKENS", 23, 0, .ro, [0x0]⟩]⟩]

def regsUmp1 : List RegSpec := [
  ⟨"UMP_POOL_LEFT", 0x400B0078, [], [⟨"TOKENS", 23, 0, .ro, [0x0]⟩]⟩,
  ⟨"UMP_ICC_NOW", 0x400B007C, [], [⟨"GRANTED_100MA", 15, 0, .ro, [0x0]⟩, ⟨"SENSED_100MA", 31, 16, .ro, [0x0]⟩]⟩,
  ⟨"UMP_ICCQ_NOW", 0x400B0080, [], [⟨"GRANTED_100MA", 15, 0, .ro, [0x0]⟩, ⟨"SENSED_100MA", 31, 16, .ro, [0x0]⟩]⟩,
  ⟨"UMP_CALLS", 0x400B0084, [], [⟨"ACTIVE", 11, 0, .ro, [0x0]⟩, ⟨"WAITING", 27, 16, .ro, [0x0]⟩]⟩,
  ⟨"UMP_COUNT", 0x400B0090, [⟨0, 8, 0x4⟩], [⟨"COUNT", 31, 0, .ro, [0x0]⟩]⟩,
  ⟨"UMP_WAIT_NS", 0x400B00B0, [⟨0, 6, 0x4⟩], [⟨"MEAN_NS", 23, 0, .ro, [0x0]⟩]⟩,
  ⟨"UMP_EVENTS", 0x400B00D0, [], [⟨"BUDGET_UNMET", 0, 0, .rw1c, [0x0]⟩, ⟨"THERMAL", 1, 1, .rw1c, [0x0]⟩, ⟨"HOLDUP", 2, 2, .rw1c, [0x0]⟩, ⟨"VR_FAULT", 3, 3, .rw1c, [0x0]⟩, ⟨"SENSE_HIGH", 4, 4, .rw1c, [0x0]⟩, ⟨"GROUP_REFUSED", 5, 5, .rw1c, [0x0]⟩, ⟨"HOL_BLOCK", 6, 6, .rw1c, [0x0]⟩]⟩,
  ⟨"UMP_SEL", 0x400B0300, [], [⟨"SLICE", 9, 0, .rw, [0x0]⟩]⟩,
  ⟨"UMP_V_FLOOR", 0x400B0304, [], [⟨"TOKENS", 23, 0, .ro, [0x0]⟩]⟩,
  ⟨"UMP_V_LEFT", 0x400B0308, [], [⟨"TOKENS", 23, 0, .ro, [0x0]⟩]⟩,
  ⟨"UMP_V_ICC", 0x400B030C, [], [⟨"RES_10MA", 15, 0, .ro, [0x0]⟩, ⟨"HELD_10MA", 31, 16, .ro, [0x0]⟩]⟩,
  ⟨"UMP_V_POWER", 0x400B0340, [], [⟨"DRIVE_DW", 15, 0, .ro, [0x0]⟩, ⟨"SLICE_DW", 31, 16, .ro, [0x0]⟩]⟩,
  ⟨"UMP_COST0", 0x400B1000, [⟨0, 2, 0x400⟩, ⟨0, 96, 0x8⟩], [⟨"ENERGY", 15, 0, .rw, [0x0]⟩, ⟨"ICC_MA", 27, 16, .rw, [0x0]⟩]⟩,
  ⟨"UMP_COST1", 0x400B1004, [⟨0, 2, 0x400⟩, ⟨0, 96, 0x8⟩], [⟨"ICCQ_MA", 11, 0, .rw, [0x0]⟩]⟩,
  ⟨"UMP_DIE_TYPE", 0x400B2000, [⟨0, 128, 0x4⟩], [⟨"TYPES", 31, 0, .rw, [0x0]⟩]⟩]

def regsSgd0 : List RegSpec := [
  ⟨"SGD_ID", 0x400C0000, [], [⟨"ADC_BITS", 7, 0, .ro, [0xC]⟩, ⟨"CELLS_MAX", 15, 8, .ro, [0xF]⟩]⟩,
  ⟨"SGD_CTRL", 0x400C0004, [], [⟨"CHARGE_EN", 0, 0, .rwl, [0x1]⟩, ⟨"SURGE_FLUSH", 1, 1, .rwl, [0x1]⟩, ⟨"TEST_AUTO", 2, 2, .rwl, [0x1]⟩, ⟨"LOCK", 8, 8, .rwo, [0x0]⟩]⟩,
  ⟨"SGD_VTH_A", 0x400C0008, [], [⟨"SAG", 10, 0, .rwl, [0x438]⟩, ⟨"BROWN", 26, 16, .rwl, [0x410]⟩]⟩,
  ⟨"SGD_VTH_B", 0x400C000C, [], [⟨"FAIL", 10, 0, .rwl, [0x3D4]⟩, ⟨"SURGE", 26, 16, .rwl, [0x578]⟩]⟩,
  ⟨"SGD_VTH_C", 0x400C0010, [], [⟨"RESTART", 10, 0, .rwl, [0x474]⟩, ⟨"RIPPLE_MV", 26, 16, .rwl, [0x1F4]⟩]⟩,
  ⟨"SGD_FILTER", 0x400C0014, [], [⟨"FAIL_NS", 9, 0, .rwl, [0x1F4]⟩, ⟨"SAG_US", 23, 16, .rwl, [0x64]⟩, ⟨"SURGE_US", 31, 24, .rwl, [0x14]⟩]⟩,
  ⟨"SGD_VIN", 0x400C0018, [], [⟨"NOW_10MV", 10, 0, .ro, [0x0]⟩, ⟨"MIN_10MV", 26, 16, .ro, [0x7FF]⟩, ⟨"CLASS", 29, 27, .ro, [0x0]⟩, ⟨"RIPPLE", 30, 30, .ro, [0x0]⟩]⟩,
  ⟨"SGD_HU_CFG", 0x400C0020, [], [⟨"TARGET_10MV", 11, 0, .rwl, [0xDAC]⟩, ⟨"HYST_10MV", 23, 16, .rwl, [0x32]⟩, ⟨"CELLS", 27, 24, .rwl, [0x8]⟩]⟩,
  ⟨"SGD_HU_VMIN", 0x400C0024, [], [⟨"VMIN_10MV", 11, 0, .rwl, [0x578]⟩, ⟨"EFF_PCT", 22, 16, .rwl, [0x55]⟩]⟩,
  ⟨"SGD_HU_CAP", 0x400C0028, [], [⟨"CNOM_10UF", 15, 0, .rwl, [0x898]⟩, ⟨"CMEAS_10UF", 31, 16, .ro, [0x0]⟩]⟩,
  ⟨"SGD_HU_STATE", 0x400C002C, [], [⟨"VBANK_10MV", 11, 0, .ro, [0x0]⟩, ⟨"CHG", 14, 12, .ro, [0x0]⟩, ⟨"ESR_MOHM", 31, 16, .ro, [0x0]⟩]⟩,
  ⟨"SGD_TEST_CFG", 0x400C0030, [], [⟨"RLOAD", 11, 0, .rwl, [0x64]⟩, ⟨"STOP_PCT", 18, 12, .rwl, [0x5A]⟩, ⟨"PERIOD_H", 31, 24, .rwl, [0x18]⟩]⟩,
  ⟨"SGD_TEST_LIMITS", 0x400C0034, [], [⟨"CMIN_PCT", 6, 0, .rwl, [0x3C]⟩, ⟨"ESR_MAX_MOHM", 23, 8, .rwl, [0x64]⟩]⟩,
  ⟨"SGD_TEST_CTRL", 0x400C0038, [], [⟨"START", 0, 0, .w1s, [0x0]⟩, ⟨"STATE", 2, 1, .ro, [0x0]⟩, ⟨"RESULT", 6, 4, .ro, [0x0]⟩]⟩,
  ⟨"SGD_TEST_TIME_LO", 0x400C003C, [], [⟨"TIME", 31, 0, .ro, [0x0]⟩]⟩,
  ⟨"SGD_TEST_TIME_HI", 0x400C0040, [], [⟨"TIME", 31, 0, .ro, [0x0]⟩]⟩,
  ⟨"SGD_ENERGY_CFG", 0x400C0044, [], [⟨"E_MIB_UJ", 15, 0, .rwl, [0x3A9]⟩, ⟨"FIXED_MJ", 31, 16, .rwl, [0x75E]⟩]⟩,
  ⟨"SGD_FLUSH_CFG", 0x400C0048, [], [⟨"T_MIB_NS", 15, 0, .rwl, [0x3A98]⟩, ⟨"DRAIN_US", 31, 16, .rwl, [0x1E00]⟩]⟩,
  ⟨"SGD_DIRTY", 0x400C004C, [], [⟨"LIMIT_MIB", 15, 0, .ro, [0x0]⟩, ⟨"MAX_MIB", 31, 16, .rwl, [0xC00]⟩]⟩,
  ⟨"SGD_DIRTY_MIN", 0x400C0050, [], [⟨"MIN_MIB", 15, 0, .rwl, [0x100]⟩, ⟨"FLUSH_W", 31, 16, .rwl, [0x3F]⟩]⟩]

def regsSgd1 : List RegSpec := [
  ⟨"SGD_RESTART", 0x400C0054, [], [⟨"RESTART_MS", 15, 0, .rwl, [0x64]⟩, ⟨"BOOT_WAIT_S", 31, 16, .rwl, [0x1E]⟩]⟩,
  ⟨"SGD_EVENTS", 0x400C0058, [], [⟨"SAG", 0, 0, .rw1c, [0x0]⟩, ⟨"BROWN_OUT", 1, 1, .rw1c, [0x0]⟩, ⟨"DROPOUT", 2, 2, .rw1c, [0x0]⟩, ⟨"SURGE", 3, 3, .rw1c, [0x0]⟩, ⟨"RIPPLE", 4, 4, .rw1c, [0x0]⟩, ⟨"TEST_FAIL", 5, 5, .rw1c, [0x0]⟩, ⟨"CELL_LOSS", 6, 6, .rw1c, [0x0]⟩, ⟨"CHARGE_FAULT", 7, 7, .rw1c, [0x0]⟩, ⟨"BANK_OV", 8, 8, .rw1c, [0x0]⟩, ⟨"LIMIT_LOW", 9, 9, .rw1c, [0x0]⟩]⟩,
  ⟨"SGD_COUNT", 0x400C0060, [⟨0, 6, 0x4⟩], [⟨"COUNT", 31, 0, .ro, [0x0]⟩]⟩,
  ⟨"SGD_LOSS_INFO", 0x400C0080, [], [⟨"CAUSE", 1, 0, .ro, [0x0]⟩, ⟨"COMPLETE", 2, 2, .ro, [0x0]⟩, ⟨"DIRTY_MIB", 31, 16, .ro, [0x0]⟩]⟩,
  ⟨"SGD_LOSS_TIME", 0x400C0084, [], [⟨"FLUSH_US", 31, 0, .ro, [0x0]⟩]⟩,
  ⟨"SGD_LOSS_V", 0x400C0088, [], [⟨"VBANK_10MV", 11, 0, .ro, [0x0]⟩, ⟨"VIN_MIN_10MV", 26, 16, .ro, [0x0]⟩]⟩,
  ⟨"SGD_DROPS", 0x400C008C, [], [⟨"RECENT", 7, 0, .ro, [0x0]⟩, ⟨"HOLD_MS", 31, 16, .ro, [0x64]⟩]⟩]

def regsXte0 : List RegSpec := [
  ⟨"XTE_ID", 0x400D0000, [], [⟨"INSTANCES", 6, 0, .ro, [0x42]⟩, ⟨"SPARES", 14, 8, .ro, [0x2]⟩]⟩,
  ⟨"XTE_CTRL", 0x400D0004, [], [⟨"EN", 0, 0, .rwl, [0x0]⟩, ⟨"MASKED", 1, 1, .ro, [0x1]⟩, ⟨"LOCK", 8, 8, .rwo, [0x0]⟩]⟩,
  ⟨"XTE_FAULT_CFG", 0x400D0008, [], [⟨"LIMIT", 7, 0, .rwl, [0x3]⟩]⟩,
  ⟨"XTE_POOL", 0x400D000C, [], [⟨"SHARED", 6, 0, .ro, [0x40]⟩, ⟨"DEDICATED", 14, 8, .ro, [0x0]⟩, ⟨"SPARE", 22, 16, .ro, [0x2]⟩, ⟨"RETIRED", 30, 24, .ro, [0x0]⟩]⟩,
  ⟨"XTE_COUNT", 0x400D0040, [⟨0, 8, 0x4⟩], [⟨"COUNT", 31, 0, .ro, [0x0]⟩]⟩,
  ⟨"XTE_EVENTS", 0x400D0060, [], [⟨"ENC_MISMATCH", 0, 0, .rw1c, [0x0]⟩, ⟨"DEC_MISMATCH", 1, 1, .rw1c, [0x0]⟩, ⟨"DOUBLE_FAULT", 2, 2, .rw1c, [0x0]⟩, ⟨"RETIRED", 3, 3, .rw1c, [0x0]⟩, ⟨"BAD_LENGTH", 4, 4, .rw1c, [0x0]⟩]⟩,
  ⟨"XTE_INST", 0x400D0100, [⟨0, 66, 0x4⟩], [⟨"STATE", 2, 0, .ro, [0x0, 0x0, 0x0, 0x0, 0x0, 0x0, 0x0, 0x0, 0x0, 0x0, 0x0, 0x0, 0x0, 0x0, 0x0, 0x0, 0x0, 0x0, 0x0, 0x0, 0x0, 0x0, 0x0, 0x0, 0x0, 0x0, 0x0, 0x0, 0x0, 0x0, 0x0, 0x0, 0x0, 0x0, 0x0, 0x0, 0x0, 0x0, 0x0, 0x0, 0x0, 0x0, 0x0, 0x0, 0x0, 0x0, 0x0, 0x0, 0x0, 0x0, 0x0, 0x0, 0x0, 0x0, 0x0, 0x0, 0x0, 0x0, 0x0, 0x0, 0x0, 0x0, 0x0, 0x0, 0x2, 0x2]⟩, ⟨"FAULTS", 7, 3, .ro, [0x0]⟩, ⟨"SLICE", 17, 8, .ro, [0x0]⟩, ⟨"QUEUED", 31, 24, .ro, [0x0]⟩]⟩]

def regsPve0 : List RegSpec := [
  ⟨"PVE_ID", 0x400E0000, [], [⟨"INSTANCES", 1, 0, .ro, [0x2]⟩, ⟨"MAX_GCM", 31, 16, .ro, [0x2000]⟩]⟩,
  ⟨"PVE_CTRL", 0x400E0004, [], [⟨"EN", 0, 0, .rwl, [0x0]⟩, ⟨"LOCK", 8, 8, .rwo, [0x0]⟩]⟩,
  ⟨"PVE_DUMMY", 0x400E0008, [], [⟨"PER_BLOCK", 3, 0, .rwl, [0x4]⟩, ⟨"FAULT_LIMIT", 23, 16, .rwl, [0x3]⟩]⟩,
  ⟨"PVE_INST", 0x400E0010, [⟨0, 2, 0x4⟩], [⟨"STATE", 1, 0, .ro, [0x0]⟩, ⟨"FAULTS", 7, 2, .ro, [0x0]⟩, ⟨"HELD", 21, 8, .ro, [0x0]⟩]⟩,
  ⟨"PVE_COUNT", 0x400E0040, [⟨0, 8, 0x4⟩], [⟨"COUNT", 31, 0, .ro, [0x0]⟩]⟩,
  ⟨"PVE_EVENTS", 0x400E0060, [], [⟨"TAG_FAIL", 0, 0, .rw1c, [0x0]⟩, ⟨"UNWRAP_FAIL", 1, 1, .rw1c, [0x0]⟩, ⟨"FAULT", 2, 2, .rw1c, [0x0]⟩, ⟨"RETIRED", 3, 3, .rw1c, [0x0]⟩]⟩]

def regsKst0 : List RegSpec := [
  ⟨"KST_ID", 0x400F0000, [], [⟨"SLOTS", 11, 0, .ro, [0x800]⟩, ⟨"SLOT_BITS", 25, 16, .ro, [0x200]⟩]⟩,
  ⟨"KST_CTRL", 0x400F0004, [], [⟨"EN", 0, 0, .rwl, [0x0]⟩, ⟨"LOCK", 8, 8, .rwo, [0x0]⟩]⟩,
  ⟨"KST_FREE", 0x400F0008, [], [⟨"SLOTS", 11, 0, .ro, [0x7C0]⟩]⟩,
  ⟨"KST_BOUND", 0x400F000C, [], [⟨"SLOTS", 11, 0, .ro, [0x0]⟩]⟩,
  ⟨"KST_ERASE", 0x400F0010, [], [⟨"PENDING", 11, 0, .ro, [0x0]⟩, ⟨"RUNNING", 16, 16, .ro, [0x0]⟩]⟩,
  ⟨"KST_DRBG", 0x400F0014, [], [⟨"READY", 0, 0, .ro, [0x0]⟩, ⟨"HEALTH_FAIL", 1, 1, .ro, [0x0]⟩, ⟨"RESEEDS", 31, 16, .ro, [0x0]⟩]⟩,
  ⟨"KST_RECORDS", 0x400F0018, [], [⟨"FREE_A", 11, 0, .ro, [0x0]⟩, ⟨"FREE_B", 27, 16, .ro, [0x0]⟩]⟩,
  ⟨"KST_EVENTS", 0x400F0020, [], [⟨"ENTROPY_FAIL", 0, 0, .rw1c, [0x0]⟩, ⟨"UNWRAP_FAIL_BOOT", 1, 1, .rw1c, [0x0]⟩, ⟨"KEY_RIGHT", 2, 2, .rw1c, [0x0]⟩, ⟨"ZEROISED", 3, 3, .rw1c, [0x0]⟩, ⟨"CRYPTO_ERASED", 4, 4, .rw1c, [0x0]⟩, ⟨"SRAM_RELOAD", 5, 5, .rw1c, [0x0]⟩]⟩,
  ⟨"KST_SEL", 0x400F0100, [], [⟨"SLOT", 10, 0, .rw, [0x0]⟩]⟩,
  ⟨"KST_V_SLOT", 0x400F0104, [], [⟨"STATE", 2, 0, .ro, [0x0]⟩, ⟨"ACTIVE", 3, 3, .ro, [0x0]⟩, ⟨"TYPE", 6, 4, .ro, [0x0]⟩, ⟨"USERS_ACTIVE", 15, 8, .ro, [0x0]⟩, ⟨"USERS_OLD", 23, 16, .ro, [0x0]⟩]⟩,
  ⟨"KST_V_GEN", 0x400F0108, [], [⟨"GEN", 15, 0, .ro, [0x0]⟩, ⟨"ORIGIN", 17, 16, .ro, [0x0]⟩]⟩,
  ⟨"KST_V_OWNER", 0x400F010C, [], [⟨"SLICE", 9, 0, .ro, [0x0]⟩, ⟨"VALID", 31, 31, .ro, [0x0]⟩]⟩,
  ⟨"KST_V_NSID", 0x400F0110, [], [⟨"NSID", 31, 0, .ro, [0x0]⟩]⟩,
  ⟨"KST_V_MATERIAL", 0x400F0140, [⟨0, 32, 0x4⟩], [⟨"MATERIAL", 31, 0, .ro, [0x0]⟩]⟩]

def regsDge0 : List RegSpec := [
  ⟨"DGE_ID", 0x40100000, [], [⟨"INSTANCES", 1, 0, .ro, [0x2]⟩, ⟨"CTX_SLOTS", 12, 8, .ro, [0x10]⟩]⟩,
  ⟨"DGE_CTRL", 0x40100004, [], [⟨"EN", 0, 0, .rwl, [0x1]⟩, ⟨"LOCK", 8, 8, .rwo, [0x0]⟩]⟩,
  ⟨"DGE_LATCH", 0x40100008, [], [⟨"UDS_OPEN", 0, 0, .ro, [0x1]⟩, ⟨"BOOT_OPEN", 1, 1, .ro, [0x1]⟩, ⟨"UDS_CLOSE", 2, 2, .w1s, [0x0]⟩, ⟨"BOOT_CLOSE", 3, 3, .w1s, [0x0]⟩]⟩,
  ⟨"DGE_SNOOP_LEN", 0x40100010, [], [⟨"LEN", 31, 0, .rw, [0x0]⟩]⟩,
  ⟨"DGE_SNOOP_CTRL", 0x40100014, [], [⟨"ARM", 0, 0, .w1s, [0x0]⟩, ⟨"END", 1, 1, .w1s, [0x0]⟩, ⟨"ACTIVE", 2, 2, .ro, [0x0]⟩, ⟨"ARMED", 5, 3, .ro, [0x0]⟩, ⟨"STATUS", 31, 16, .ro, [0x0]⟩]⟩,
  ⟨"DGE_SNOOP_COUNT", 0x40100018, [], [⟨"BYTES", 31, 0, .ro, [0x0]⟩]⟩,
  ⟨"DGE_SNOOP_DIGEST", 0x40100020, [⟨0, 12, 0x4⟩], [⟨"DIGEST", 31, 0, .ro, [0x0]⟩]⟩,
  ⟨"DGE_SNOOP_FIRST", 0x40100050, [⟨0, 12, 0x4⟩], [⟨"DIGEST", 31, 0, .ro, [0x0]⟩]⟩,
  ⟨"DGE_INST", 0x40100080, [⟨0, 2, 0x4⟩], [⟨"STATE", 1, 0, .ro, [0x0]⟩, ⟨"CLASS", 3, 2, .ro, [0x0]⟩, ⟨"CTX", 12, 8, .ro, [0x1F]⟩]⟩,
  ⟨"DGE_CTX_STATE", 0x40100090, [], [⟨"IN_USE", 15, 0, .ro, [0x0]⟩, ⟨"PREEMPTED", 17, 16, .ro, [0x0]⟩]⟩,
  ⟨"DGE_QUEUE", 0x40100094, [], [⟨"CLASS0", 7, 0, .ro, [0x0]⟩, ⟨"CLASS1", 15, 8, .ro, [0x0]⟩, ⟨"CLASS2", 23, 16, .ro, [0x0]⟩]⟩,
  ⟨"DGE_CTX_OWNER_LO", 0x40100098, [], [⟨"PAIR_0", 2, 0, .ro, [0x0]⟩, ⟨"PAIR_1", 6, 4, .ro, [0x0]⟩, ⟨"PAIR_2", 10, 8, .ro, [0x0]⟩, ⟨"PAIR_3", 14, 12, .ro, [0x0]⟩, ⟨"PAIR_4", 18, 16, .ro, [0x0]⟩, ⟨"PAIR_5", 22, 20, .ro, [0x0]⟩, ⟨"PAIR_6", 26, 24, .ro, [0x0]⟩, ⟨"PAIR_7", 30, 28, .ro, [0x0]⟩, ⟨"VALID_0", 3, 3, .ro, [0x0]⟩, ⟨"VALID_1", 7, 7, .ro, [0x0]⟩, ⟨"VALID_2", 11, 11, .ro, [0x0]⟩, ⟨"VALID_3", 15, 15, .ro, [0x0]⟩, ⟨"VALID_4", 19, 19, .ro, [0x0]⟩, ⟨"VALID_5", 23, 23, .ro, [0x0]⟩, ⟨"VALID_6", 27, 27, .ro, [0x0]⟩, ⟨"VALID_7", 31, 31, .ro, [0x0]⟩]⟩,
  ⟨"DGE_CTX_OWNER_HI", 0x4010009C, [], [⟨"PAIR_0", 2, 0, .ro, [0x0]⟩, ⟨"PAIR_1", 6, 4, .ro, [0x0]⟩, ⟨"PAIR_2", 10, 8, .ro, [0x0]⟩, ⟨"PAIR_3", 14, 12, .ro, [0x0]⟩, ⟨"PAIR_4", 18, 16, .ro, [0x0]⟩, ⟨"PAIR_5", 22, 20, .ro, [0x0]⟩, ⟨"PAIR_6", 26, 24, .ro, [0x0]⟩, ⟨"PAIR_7", 30, 28, .ro, [0x0]⟩, ⟨"VALID_0", 3, 3, .ro, [0x0]⟩, ⟨"VALID_1", 7, 7, .ro, [0x0]⟩, ⟨"VALID_2", 11, 11, .ro, [0x0]⟩, ⟨"VALID_3", 15, 15, .ro, [0x0]⟩, ⟨"VALID_4", 19, 19, .ro, [0x0]⟩, ⟨"VALID_5", 23, 23, .ro, [0x0]⟩, ⟨"VALID_6", 27, 27, .ro, [0x0]⟩, ⟨"VALID_7", 31, 31, .ro, [0x0]⟩]⟩,
  ⟨"DGE_COUNT", 0x401000A0, [⟨0, 6, 0x4⟩], [⟨"COUNT", 31, 0, .ro, [0x0]⟩]⟩,
  ⟨"DGE_EVENTS", 0x401000C0, [], [⟨"SNOOP_LENGTH", 0, 0, .rw1c, [0x0]⟩, ⟨"PREEMPT", 1, 1, .rw1c, [0x0]⟩, ⟨"CONTEXT", 2, 2, .rw1c, [0x0]⟩]⟩,
  ⟨"DGE_REQ_D", 0x40100200, [⟨0, 8, 0x80⟩, ⟨0, 8, 0x4⟩], [⟨"BYTES", 31, 0, .wo, [0x0]⟩]⟩,
  ⟨"DGE_REQ_GO", 0x40100220, [⟨0, 8, 0x80⟩], [⟨"GO", 0, 0, .w1s, [0x0]⟩, ⟨"STATUS", 31, 16, .ro, [0x0]⟩]⟩,
  ⟨"DGE_RESULT", 0x40100240, [⟨0, 8, 0x80⟩, ⟨0, 16, 0x4⟩], [⟨"DIGEST", 31, 0, .ro, [0x0]⟩]⟩]

def regsPke0 : List RegSpec := [
  ⟨"PKE_ID", 0x40110000, [], [⟨"CURVES", 7, 0, .ro, [0x1]⟩]⟩,
  ⟨"PKE_CTRL", 0x40110004, [], [⟨"EN", 0, 0, .rwl, [0x1]⟩, ⟨"LOCK", 8, 8, .rwo, [0x0]⟩]⟩,
  ⟨"PKE_STATE", 0x40110008, [], [⟨"STATE", 1, 0, .ro, [0x0]⟩, ⟨"OP", 4, 2, .ro, [0x0]⟩]⟩,
  ⟨"PKE_COUNT", 0x40110040, [⟨0, 6, 0x4⟩], [⟨"COUNT", 31, 0, .ro, [0x0]⟩]⟩,
  ⟨"PKE_EVENTS", 0x40110060, [], [⟨"FAULT", 0, 0, .rw1c, [0x0]⟩, ⟨"VERIFY_FAIL", 1, 1, .rw1c, [0x0]⟩]⟩,
  ⟨"PKE_REQ_D_0", 0x40110100, [⟨0, 8, 0x20⟩], [⟨"OP", 7, 0, .wo, [0x0]⟩, ⟨"SLOT", 31, 16, .wo, [0x0]⟩]⟩,
  ⟨"PKE_REQ_D_1", 0x40110104, [⟨0, 8, 0x20⟩], [⟨"IN_HANDLE", 31, 0, .wo, [0x0]⟩]⟩,
  ⟨"PKE_REQ_D_2", 0x40110108, [⟨0, 8, 0x20⟩], [⟨"OUT_HANDLE", 31, 0, .wo, [0x0]⟩]⟩,
  ⟨"PKE_REQ_GO", 0x4011010C, [⟨0, 8, 0x20⟩], [⟨"GO", 0, 0, .w1s, [0x0]⟩, ⟨"STATUS", 31, 16, .ro, [0x0]⟩]⟩]

def regsSgn0 : List RegSpec := [
  ⟨"SGN_ID", 0x40120000, [], [⟨"RING_SEGMENTS", 7, 0, .ro, [0x7F]⟩, ⟨"MAX_ITEMS", 15, 8, .ro, [0x1E]⟩, ⟨"MAX_BOOT_ITEMS", 23, 16, .ro, [0x10]⟩]⟩,
  ⟨"SGN_CTRL", 0x40120004, [], [⟨"EN", 0, 0, .rwl, [0x0]⟩, ⟨"LOCK", 8, 8, .rwo, [0x0]⟩]⟩,
  ⟨"SGN_NEWEST_LO", 0x40120008, [], [⟨"INDEX", 31, 0, .ro, [0x0]⟩]⟩,
  ⟨"SGN_NEWEST_HI", 0x4012000C, [], [⟨"INDEX", 31, 0, .ro, [0x0]⟩]⟩,
  ⟨"SGN_OLDEST_LO", 0x40120010, [], [⟨"INDEX", 31, 0, .ro, [0x0]⟩]⟩,
  ⟨"SGN_OLDEST_HI", 0x40120014, [], [⟨"INDEX", 31, 0, .ro, [0x0]⟩]⟩,
  ⟨"SGN_HEAD", 0x40120020, [⟨0, 12, 0x4⟩], [⟨"DIGEST", 31, 0, .ro, [0x0]⟩]⟩,
  ⟨"SGN_SPACE", 0x40120050, [], [⟨"CELLS_FREE", 15, 0, .ro, [0x0]⟩, ⟨"OLDEST_SEG", 22, 16, .ro, [0x0]⟩, ⟨"HEAD_SEG", 30, 24, .ro, [0x0]⟩]⟩,
  ⟨"SGN_PENDING", 0x40120054, [], [⟨"RECORDS", 6, 0, .ro, [0x0]⟩, ⟨"CARRIED", 14, 8, .ro, [0x0]⟩, ⟨"APPENDING", 15, 15, .ro, [0x0]⟩, ⟨"COMPACTIONS", 31, 16, .ro, [0x0]⟩]⟩,
  ⟨"SGN_KEY_ID_LO", 0x40120058, [], [⟨"KEY_ID", 31, 0, .ro, [0x0]⟩]⟩,
  ⟨"SGN_KEY_ID_HI", 0x4012005C, [], [⟨"KEY_ID", 31, 0, .ro, [0x0]⟩]⟩,
  ⟨"SGN_APPEND_HANDLE", 0x40120060, [], [⟨"HANDLE", 31, 0, .rw, [0x0]⟩]⟩,
  ⟨"SGN_APPEND", 0x40120064, [], [⟨"GO", 0, 0, .w1s, [0x0]⟩, ⟨"ITEMS", 10, 3, .rw, [0x0]⟩, ⟨"STATUS", 31, 16, .ro, [0x0]⟩]⟩,
  ⟨"SGN_EVENTS", 0x40120070, [], [⟨"ABANDONED", 0, 0, .rw1c, [0x0]⟩, ⟨"COMPACTED", 1, 1, .rw1c, [0x0]⟩, ⟨"CARRIED", 2, 2, .rw1c, [0x0]⟩, ⟨"FOLDED", 3, 3, .rw1c, [0x0]⟩, ⟨"CHAIN_BREAK", 4, 4, .rw1c, [0x0]⟩, ⟨"CERT_STORE_FULL", 5, 5, .rw1c, [0x0]⟩]⟩]

def regsCls0 : List RegSpec := [
  ⟨"CLS_ID", 0x40130000, [], [⟨"SECTORS", 14, 0, .ro, [0x4000]⟩, ⟨"SLOTS", 21, 16, .ro, [0x20]⟩]⟩,
  ⟨"CLS_CTRL", 0x40130004, [], [⟨"EN", 0, 0, .rwl, [0x0]⟩, ⟨"LOCK", 8, 8, .rwo, [0x0]⟩]⟩,
  ⟨"CLS_STATUS", 0x40130008, [], [⟨"BLOCK_AON", 0, 0, .ro, [0x0]⟩, ⟨"BLOCK_STEP8", 1, 1, .ro, [0x0]⟩, ⟨"PFAIL", 2, 2, .ro, [0x0]⟩, ⟨"CR_ACTIVE", 3, 3, .ro, [0x0]⟩, ⟨"ERASING", 4, 4, .ro, [0x0]⟩, ⟨"SUSPENDED", 5, 5, .ro, [0x0]⟩, ⟨"ERASE_OPEN", 29, 16, .ro, [0x0]⟩]⟩,
  ⟨"CLS_POST_D", 0x40130010, [⟨0, 8, 0x4⟩], [⟨"BYTES", 31, 0, .wo, [0x0]⟩]⟩,
  ⟨"CLS_POST_GO", 0x40130030, [], [⟨"GO", 0, 0, .w1s, [0x0]⟩, ⟨"SLOT", 12, 8, .ro, [0x0]⟩, ⟨"STATUS", 31, 16, .ro, [0x0]⟩]⟩,
  ⟨"CLS_DONE", 0x40130040, [], [⟨"SLOTS", 31, 0, .ro, [0x0]⟩]⟩,
  ⟨"CLS_BUSY", 0x40130048, [], [⟨"SLOTS", 31, 0, .ro, [0x0]⟩]⟩,
  ⟨"CLS_RELEASE", 0x40130044, [], [⟨"SLOTS", 31, 0, .wo, [0x0]⟩]⟩,
  ⟨"CLS_CR_ADDR", 0x40130050, [], [⟨"VALUE", 25, 0, .rw, [0x0]⟩]⟩,
  ⟨"CLS_CR_LEN", 0x40130054, [], [⟨"VALUE", 26, 0, .rw, [0x0]⟩]⟩,
  ⟨"CLS_CR_DEST", 0x40130058, [], [⟨"VALUE", 31, 0, .rw, [0x0]⟩]⟩,
  ⟨"CLS_CR_CTRL", 0x4013005C, [], [⟨"GO", 0, 0, .w1s, [0x0]⟩, ⟨"STOP", 1, 1, .w1s, [0x0]⟩, ⟨"STATUS", 31, 16, .ro, [0x0]⟩]⟩,
  ⟨"CLS_CR_COUNT", 0x40130060, [], [⟨"BYTES", 31, 0, .ro, [0x0]⟩]⟩,
  ⟨"CLS_ERASE", 0x40130070, [], [⟨"SECTOR", 13, 0, .ro, [0x0]⟩, ⟨"STATE", 15, 14, .ro, [0x0]⟩, ⟨"SUSPENDS", 23, 16, .ro, [0x0]⟩]⟩,
  ⟨"CLS_PW_STATE", 0x40130074, [], [⟨"FAILS", 3, 0, .ro, [0x0]⟩, ⟨"BARRED", 4, 4, .ro, [0x0]⟩, ⟨"FACTORY", 5, 5, .ro, [0x0]⟩]⟩,
  ⟨"CLS_PW_0", 0x40130078, [], [⟨"PASSWORD", 31, 0, .ro, [0x0]⟩]⟩,
  ⟨"CLS_PW_1", 0x4013007C, [], [⟨"PASSWORD", 31, 0, .ro, [0x0]⟩]⟩,
  ⟨"CLS_COUNT", 0x40130080, [⟨0, 9, 0x4⟩], [⟨"COUNT", 31, 0, .ro, [0x0]⟩]⟩,
  ⟨"CLS_EVENTS", 0x401300C0, [], [⟨"CORRECTED", 0, 0, .rw1c, [0x0]⟩, ⟨"UE", 1, 1, .rw1c, [0x0]⟩, ⟨"NOT_BLANK", 2, 2, .rw1c, [0x0]⟩, ⟨"PROTECTED", 3, 3, .rw1c, [0x0]⟩, ⟨"BLOCKED", 4, 4, .rw1c, [0x0]⟩, ⟨"ERASE_ABANDONED", 5, 5, .rw1c, [0x0]⟩, ⟨"PW_FAIL", 6, 6, .rw1c, [0x0]⟩]⟩,
  ⟨"CLS_SECTOR_SEL", 0x401300D0, [], [⟨"SECTOR", 13, 0, .rw, [0x0]⟩]⟩]

def regsCls1 : List RegSpec := [
  ⟨"CLS_V_SECTOR", 0x401300D4, [], [⟨"ERASES", 16, 0, .ro, [0x0]⟩, ⟨"LOCKED", 17, 17, .ro, [0x0]⟩, ⟨"ERASE_OPEN", 18, 18, .ro, [0x0]⟩, ⟨"CORRECTED", 31, 20, .ro, [0x0]⟩]⟩,
  ⟨"CLS_SLOT", 0x40130100, [⟨0, 32, 0x10⟩], [⟨"STATE", 2, 0, .ro, [0x0]⟩, ⟨"OP", 11, 4, .ro, [0x0]⟩, ⟨"STATUS", 31, 16, .ro, [0x0]⟩]⟩,
  ⟨"CLS_SLOT_TAG", 0x40130104, [⟨0, 32, 0x10⟩], [⟨"TAG", 31, 0, .ro, [0x0]⟩]⟩,
  ⟨"CLS_SLOT_INFO", 0x40130108, [⟨0, 32, 0x10⟩], [⟨"WORDS", 9, 0, .ro, [0x0]⟩, ⟨"AT_WORD", 19, 10, .ro, [0x0]⟩]⟩,
  ⟨"CLS_LOCK", 0x40131000, [⟨0, 512, 0x4⟩], [⟨"LOCKED", 31, 0, .ro, [0x0]⟩]⟩]

def regsBot0 : List RegSpec := [
  ⟨"BOT_ID", 0x40140000, [], [⟨"SLOTS", 1, 0, .ro, [0x2]⟩, ⟨"ROM_REV", 15, 8, .ro, [0x0]⟩]⟩,
  ⟨"BOT_CTRL", 0x40140004, [], [⟨"RESET_WARM", 0, 0, .w1s, [0x0]⟩, ⟨"FALLBACK", 1, 1, .w1s, [0x0]⟩, ⟨"LOCK", 8, 8, .rwo, [0x0]⟩]⟩,
  ⟨"BOT_STATE", 0x40140008, [], [⟨"STAGE", 2, 0, .ro, [0x0]⟩, ⟨"TYPE", 15, 8, .ro, [0x0]⟩, ⟨"CAUSE", 23, 16, .ro, [0x0]⟩, ⟨"SLOT", 24, 24, .ro, [0x0]⟩, ⟨"RECOVER_PIN", 25, 25, .ro, [0x0]⟩]⟩,
  ⟨"BOT_SLOT", 0x4014000C, [], [⟨"VALID", 1, 0, .ro, [0x0]⟩, ⟨"ACTIVE", 2, 2, .ro, [0x0]⟩, ⟨"PENDING", 4, 3, .ro, [0x0]⟩, ⟨"TRIES", 9, 7, .ro, [0x0]⟩, ⟨"SKIP", 11, 10, .rws, [0x0]⟩, ⟨"LAST_FAIL", 31, 16, .ro, [0x0]⟩]⟩,
  ⟨"BOT_CTR", 0x40140010, [⟨0, 3, 0x4⟩], [⟨"VALUE", 8, 0, .ro, [0x0]⟩, ⟨"CAP", 24, 16, .ro, [0x40, 0x100, 0x40]⟩]⟩,
  ⟨"BOT_FUSE_ADV", 0x40140020, [], [⟨"CTR", 1, 0, .wo, [0x0]⟩, ⟨"TARGET", 10, 2, .wo, [0x0]⟩, ⟨"GO", 16, 16, .w1s, [0x0]⟩, ⟨"FAIL", 17, 17, .ro, [0x0]⟩]⟩,
  ⟨"BOT_KEYS", 0x40140024, [], [⟨"REVOKED", 3, 0, .ro, [0x0]⟩, ⟨"PRESENT", 7, 4, .ro, [0x0]⟩]⟩,
  ⟨"BOT_SERIAL", 0x40140030, [⟨0, 4, 0x4⟩], [⟨"SERIAL", 31, 0, .ro, [0x0]⟩]⟩,
  ⟨"BOT_BOOT_TIME", 0x40140040, [], [⟨"US", 31, 0, .ro, [0x0]⟩]⟩,
  ⟨"BOT_UCODE_SHADOW_LO", 0x40140050, [], [⟨"ADDR", 31, 0, .rwl, [0x0]⟩]⟩,
  ⟨"BOT_UCODE_SHADOW_HI", 0x40140054, [], [⟨"ADDR", 31, 0, .rwl, [0x0]⟩]⟩,
  ⟨"BOT_UCODE_CTRL", 0x40140058, [], [⟨"CHANNEL", 5, 0, .wo, [0x0]⟩, ⟨"ALL", 6, 6, .wo, [0x0]⟩, ⟨"GO", 7, 7, .w1s, [0x0]⟩, ⟨"STATUS", 31, 16, .ro, [0x0]⟩]⟩,
  ⟨"BOT_CS_DIGEST", 0x40140060, [⟨0, 12, 0x4⟩], [⟨"DIGEST", 31, 0, .ro, [0x0]⟩]⟩,
  ⟨"BOT_EVENTS", 0x40140090, [], [⟨"SLOT_FAIL", 0, 0, .rw1c, [0x0]⟩, ⟨"FALLBACK", 1, 1, .rw1c, [0x0]⟩, ⟨"TRIAL_EXPIRED", 2, 2, .rw1c, [0x0]⟩, ⟨"ROLLBACK_ADVANCED", 3, 3, .rw1c, [0x0]⟩, ⟨"FUSE_FAIL", 4, 4, .rw1c, [0x0]⟩, ⟨"SETTINGS_RESET", 5, 5, .rw1c, [0x0]⟩, ⟨"RECOVERY", 6, 6, .rw1c, [0x0]⟩, ⟨"UCODE_SKIPPED", 7, 7, .rw1c, [0x0]⟩]⟩]

def regsAge0 : List RegSpec := [
  ⟨"AGE_ID", 0x40150000, [], [⟨"LOOPS", 7, 0, .ro, [0x60]⟩, ⟨"SLEEPERS", 15, 8, .ro, [0x8]⟩]⟩,
  ⟨"AGE_CTRL", 0x40150004, [], [⟨"RALLY_EN", 0, 0, .rwl, [0x1]⟩, ⟨"PLAN_EN", 1, 1, .rwl, [0x1]⟩, ⟨"LOCK", 8, 8, .rwo, [0x0]⟩]⟩,
  ⟨"AGE_RALLY_CFG", 0x40150008, [], [⟨"GATE_US", 9, 0, .rwl, [0x64]⟩, ⟨"PERIOD_MS", 23, 10, .rwl, [0x3E8]⟩, ⟨"AVG", 31, 24, .rwl, [0x40]⟩]⟩,
  ⟨"AGE_RALLY_STATUS", 0x4015000C, [], [⟨"BASELINE", 1, 0, .ro, [0x0]⟩, ⟨"WORST_LOOP", 8, 2, .ro, [0x0]⟩, ⟨"FAULTED", 15, 9, .ro, [0x0]⟩, ⟨"WORST_CPCT", 31, 16, .ro, [0x0]⟩]⟩,
  ⟨"AGE_SI_CFG", 0x40150010, [], [⟨"TARGET_CPCT", 15, 0, .rwl, [0xC8]⟩, ⟨"ALLOW_CPCT", 31, 16, .ro, [0x12C]⟩]⟩,
  ⟨"AGE_GAIN_LO", 0x40150014, [], [⟨"GAIN", 31, 0, .rwl, [0x15181B1E]⟩]⟩,
  ⟨"AGE_GAIN_HI", 0x40150018, [], [⟨"GAIN", 31, 0, .rwl, [0xC0E1012]⟩]⟩,
  ⟨"AGE_PLAN_CFG", 0x40150020, [], [⟨"PERIOD_H", 7, 0, .rwl, [0x18]⟩, ⟨"SAMPLES_MIN", 23, 8, .rwl, [0x100]⟩, ⟨"STEP_LIMIT_PCT", 30, 24, .rwl, [0x19]⟩]⟩,
  ⟨"AGE_PLAN_STATUS", 0x40150024, [], [⟨"RUNNING", 0, 0, .ro, [0x0]⟩, ⟨"RUNS", 31, 8, .ro, [0x0]⟩]⟩,
  ⟨"AGE_PLAN_TIME_LO", 0x40150028, [], [⟨"TIME", 31, 0, .ro, [0x0]⟩]⟩,
  ⟨"AGE_PLAN_TIME_HI", 0x4015002C, [], [⟨"TIME", 31, 0, .ro, [0x0]⟩]⟩,
  ⟨"AGE_FLASH_CFG", 0x40150030, [], [⟨"SOFT_HIGH", 11, 0, .rwl, [0x64]⟩, ⟨"SOFT_LOW", 23, 12, .rwl, [0xA]⟩, ⟨"EDGE_PCT", 30, 24, .rwl, [0x5]⟩]⟩,
  ⟨"AGE_RET_BASE", 0x40150034, [], [⟨"QLC", 8, 0, .rwl, [0x5A]⟩, ⟨"TLC", 17, 9, .rwl, [0xB4]⟩, ⟨"SLC", 26, 18, .rwl, [0x16D]⟩]⟩,
  ⟨"AGE_RET_STATUS", 0x40150038, [], [⟨"QUEUED", 23, 0, .ro, [0x0]⟩]⟩,
  ⟨"AGE_DRAM_CFG", 0x4015003C, [], [⟨"REGATHER_H", 15, 0, .rwl, [0xA8]⟩, ⟨"MIN_WINDOW", 23, 16, .rwl, [0x8]⟩, ⟨"MAX_SHIFT", 31, 24, .rwl, [0x4]⟩]⟩,
  ⟨"AGE_EVENTS", 0x40150040, [], [⟨"OFFSET_RAISED", 0, 0, .rw1c, [0x0]⟩, ⟨"SILICON_LIMIT", 1, 1, .rw1c, [0x0]⟩, ⟨"RATED_CHANGED", 2, 2, .rw1c, [0x0]⟩, ⟨"RETRY_ADVANCED", 3, 3, .rw1c, [0x0]⟩, ⟨"RETENTION_SHORTENED", 4, 4, .rw1c, [0x0]⟩, ⟨"REFRESH_PROBE", 5, 5, .rw1c, [0x0]⟩, ⟨"DRAM_MARGIN", 6, 6, .rw1c, [0x0]⟩, ⟨"HOLDUP_TREND", 7, 7, .rw1c, [0x0]⟩, ⟨"LOOP_FAULT", 8, 8, .rw1c, [0x0]⟩, ⟨"BASELINE_LOCAL", 9, 9, .rw1c, [0x0]⟩]⟩,
  ⟨"AGE_LOOP", 0x40150100, [⟨0, 96, 0x4⟩], [⟨"SLOW", 15, 0, .ro, [0x0]⟩, ⟨"LAPS_K", 31, 16, .ro, [0x0]⟩]⟩,
  ⟨"AGE_RHIST", 0x40150400, [⟨0, 3, 0x40⟩, ⟨0, 16, 0x4⟩], [⟨"COUNT", 31, 0, .ro, [0x0]⟩]⟩,
  ⟨"AGE_DIE_SEL", 0x40150600, [], [⟨"DIE", 10, 0, .rw, [0x0]⟩]⟩,
  ⟨"AGE_V_RATED_QT", 0x40150604, [], [⟨"QLC", 15, 0, .ro, [0x0]⟩, ⟨"TLC", 31, 16, .ro, [0x0]⟩]⟩]

def regsAge1 : List RegSpec := [
  ⟨"AGE_V_RATED_S", 0x40150608, [], [⟨"SLC", 15, 0, .ro, [0x0]⟩]⟩,
  ⟨"AGE_V_RET", 0x4015060C, [], [⟨"QLC", 8, 0, .ro, [0x0]⟩, ⟨"TLC", 17, 9, .ro, [0x0]⟩, ⟨"SLC", 26, 18, .ro, [0x0]⟩]⟩]

def regsLkt0 : List RegSpec := [
  ⟨"LKT_ID", 0x40160000, [], [⟨"RING", 11, 0, .ro, [0x800]⟩, ⟨"SIDE", 19, 12, .ro, [0x80]⟩]⟩,
  ⟨"LKT_CTRL", 0x40160004, [], [⟨"EN", 0, 0, .rwl, [0x0]⟩, ⟨"LOCK", 8, 8, .rwo, [0x0]⟩]⟩,
  ⟨"LKT_FLUSH", 0x40160008, [], [⟨"WATER", 11, 0, .rwl, [0x200]⟩, ⟨"PERIOD_MS", 27, 12, .rwl, [0x3E8]⟩]⟩,
  ⟨"LKT_URGENT", 0x4016000C, [], [⟨"MASK", 31, 0, .rwl, [0x22801000]⟩]⟩,
  ⟨"LKT_RATE", 0x40160010, [], [⟨"PER_MS", 7, 0, .rwl, [0x10]⟩]⟩,
  ⟨"LKT_RING", 0x40160014, [], [⟨"COUNT", 11, 0, .ro, [0x0]⟩, ⟨"UNFLUSHED", 27, 16, .ro, [0x0]⟩]⟩,
  ⟨"LKT_NEXT_LO", 0x40160018, [], [⟨"INDEX", 31, 0, .ro, [0x0]⟩]⟩,
  ⟨"LKT_NEXT_HI", 0x4016001C, [], [⟨"INDEX", 31, 0, .ro, [0x0]⟩]⟩,
  ⟨"LKT_OLDEST_LO", 0x40160020, [], [⟨"INDEX", 31, 0, .ro, [0x0]⟩]⟩,
  ⟨"LKT_OLDEST_HI", 0x40160024, [], [⟨"INDEX", 31, 0, .ro, [0x0]⟩]⟩,
  ⟨"LKT_FLUSHED_LO", 0x40160028, [], [⟨"INDEX", 31, 0, .ro, [0x0]⟩]⟩,
  ⟨"LKT_FLUSHED_HI", 0x4016002C, [], [⟨"INDEX", 31, 0, .ro, [0x0]⟩]⟩,
  ⟨"LKT_AREA", 0x40160030, [], [⟨"HEAD_SEG", 6, 0, .ro, [0x0]⟩, ⟨"OLDEST_SEG", 14, 8, .ro, [0x0]⟩, ⟨"ERASED", 22, 16, .ro, [0x0]⟩, ⟨"BAD", 30, 24, .ro, [0x0]⟩]⟩,
  ⟨"LKT_FREEZE", 0x40160034, [], [⟨"FROZEN", 0, 0, .ro, [0x0]⟩, ⟨"SIDE", 8, 1, .ro, [0x0]⟩, ⟨"REMAIN_S", 24, 16, .ro, [0x0]⟩]⟩,
  ⟨"LKT_LOST", 0x40160038, [], [⟨"COUNT", 31, 0, .ro, [0x0]⟩]⟩,
  ⟨"LKT_SUPPRESSED", 0x4016003C, [], [⟨"COUNT", 31, 0, .ro, [0x0]⟩]⟩,
  ⟨"LKT_FLUSHES", 0x40160040, [], [⟨"COUNT", 31, 0, .ro, [0x0]⟩]⟩,
  ⟨"LKT_EVENTS", 0x40160050, [], [⟨"LOST", 0, 0, .rw1c, [0x0]⟩, ⟨"SUPPRESSED", 1, 1, .rw1c, [0x0]⟩, ⟨"FREEZE_TIMEOUT", 2, 2, .rw1c, [0x0]⟩, ⟨"BAD_SEGMENT", 3, 3, .rw1c, [0x0]⟩, ⟨"TORN", 4, 4, .rw1c, [0x0]⟩]⟩,
  ⟨"LKT_POST_CODE", 0x40160100, [⟨0, 8, 0x20⟩], [⟨"CODE", 15, 0, .wo, [0x0]⟩]⟩,
  ⟨"LKT_POST_P", 0x40160104, [⟨0, 8, 0x20⟩, ⟨0, 4, 0x4⟩], [⟨"PARAM", 31, 0, .wo, [0x0]⟩]⟩]

def regsLkt1 : List RegSpec := [
  ⟨"LKT_POST_GO", 0x40160114, [⟨0, 8, 0x20⟩], [⟨"GO", 0, 0, .w1s, [0x0]⟩, ⟨"STATUS", 31, 16, .ro, [0x0]⟩]⟩]

def regsAcm0 : List RegSpec := [
  ⟨"ACM_ID", 0x40170000, [], [⟨"ENTRIES", 11, 0, .ro, [0xC00]⟩, ⟨"CLASSES", 23, 16, .ro, [0x7]⟩]⟩,
  ⟨"ACM_CTRL", 0x40170004, [], [⟨"LOCK", 0, 0, .rwo, [0x0]⟩, ⟨"PASID_DB_CHECK", 1, 1, .rwl, [0x1]⟩]⟩,
  ⟨"ACM_MATRIX_COUNT", 0x40170008, [], [⟨"VALID", 11, 0, .ro, [0x0]⟩]⟩,
  ⟨"ACM_MATRIX_DIGEST", 0x40170010, [⟨0, 12, 0x4⟩], [⟨"DIGEST", 31, 0, .ro, [0x0]⟩]⟩,
  ⟨"ACM_VIO_COUNT", 0x40170040, [⟨1, 9, 0x4⟩], [⟨"COUNT", 15, 0, .ro, [0x0]⟩]⟩,
  ⟨"ACM_VIO_STATUS", 0x40170080, [], [⟨"SEEN", 9, 1, .rw1c, [0x0]⟩]⟩,
  ⟨"ACM_VIO_LAST_CODE", 0x40170084, [], [⟨"CODE", 9, 0, .ro, [0x0]⟩]⟩,
  ⟨"ACM_VIO_LAST_MASTER", 0x40170088, [], [⟨"MASTER_ID", 31, 0, .ro, [0x0]⟩]⟩,
  ⟨"ACM_VIO_LAST_TIME_LO", 0x4017008C, [], [⟨"TIME_LO", 31, 0, .ro, [0x0]⟩]⟩,
  ⟨"ACM_VIO_LAST_TIME_HI", 0x40170090, [], [⟨"TIME_HI", 31, 0, .ro, [0x0]⟩]⟩,
  ⟨"ACM_CARD_QUERY", 0x401700A0, [], [⟨"MASTER_ID", 31, 0, .wo, [0x0]⟩]⟩,
  ⟨"ACM_CARD_RESULT", 0x401700A4, [], [⟨"STATE", 1, 0, .ro, [0x0]⟩, ⟨"DRAINED", 2, 2, .ro, [0x0]⟩, ⟨"CODE", 21, 12, .ro, [0x0]⟩]⟩,
  ⟨"ACM_CARD_TOTAL", 0x401700A8, [], [⟨"CARDED", 11, 0, .ro, [0x0]⟩]⟩,
  ⟨"ACM_ACT_AS", 0x401700C0, [⟨0, 8, 0x4⟩], [⟨"CLASS", 2, 0, .rw, [0x0]⟩, ⟨"ACTIVE", 3, 3, .rw, [0x0]⟩]⟩,
  ⟨"ACM_SVC_STATE", 0x401700E0, [], [⟨"UNLOCKED", 0, 0, .ro, [0x0]⟩, ⟨"FAILS", 2, 1, .ro, [0x0]⟩, ⟨"BARRED", 3, 3, .ro, [0x0]⟩]⟩,
  ⟨"ACM_MATRIX", 0x40174000, [⟨0, 3072, 0x10⟩, ⟨0, 4, 0x4⟩], [⟨"WORD", 31, 0, .ro, [0x0]⟩]⟩]

def regsMbx0 : List RegSpec := [
  ⟨"MBX_ID", 0x40180000, [], [⟨"CHANNELS", 7, 0, .ro, [0x8]⟩, ⟨"PORTS", 15, 8, .ro, [0x4]⟩, ⟨"MAX_PAYLOAD", 31, 16, .ro, [0xFE0]⟩]⟩,
  ⟨"MBX_CTRL", 0x40180004, [], [⟨"PORT_EN", 3, 0, .rwl, [0xF]⟩, ⟨"SB_EN", 4, 4, .rwl, [0x1]⟩, ⟨"LOCK", 8, 8, .rwo, [0x0]⟩]⟩,
  ⟨"MBX_VOLLEY_TIMEOUT", 0x40180008, [], [⟨"TIMEOUT_MS", 15, 0, .rwl, [0x2710]⟩]⟩,
  ⟨"MBX_BIND", 0x40180100, [⟨0, 4, 0x20⟩, ⟨0, 8, 0x4⟩], [⟨"SLICE", 9, 0, .rw, [0x0]⟩, ⟨"BOUND", 15, 15, .rw, [0x0]⟩]⟩,
  ⟨"MBX_STATE", 0x40180200, [⟨0, 4, 0x4⟩], [⟨"STATE_0", 3, 0, .ro, [0x0]⟩, ⟨"STATE_1", 7, 4, .ro, [0x0]⟩, ⟨"STATE_2", 11, 8, .ro, [0x0]⟩, ⟨"STATE_3", 15, 12, .ro, [0x0]⟩, ⟨"STATE_4", 19, 16, .ro, [0x0]⟩, ⟨"STATE_5", 23, 20, .ro, [0x0]⟩, ⟨"STATE_6", 27, 24, .ro, [0x0]⟩, ⟨"STATE_7", 31, 28, .ro, [0x0]⟩]⟩,
  ⟨"MBX_SESSIONS", 0x40180240, [], [⟨"ACTIVE", 4, 0, .ro, [0x0]⟩, ⟨"MANAGER", 10, 8, .ro, [0x0]⟩, ⟨"OFFICER", 14, 12, .ro, [0x0]⟩]⟩,
  ⟨"MBX_COUNT", 0x40180300, [⟨0, 5, 0x4⟩], [⟨"COUNT", 31, 0, .ro, [0x0]⟩]⟩]

def regsFcx0 : List RegSpec := [
  ⟨"FCX_ID", 0x40190000, [], [⟨"PAIRS", 7, 0, .ro, [0x8]⟩, ⟨"TCM_KIB", 31, 16, .ro, [0x200]⟩]⟩,
  ⟨"FCX_PAIR_STATE", 0x40190004, [], [⟨"STATE_0", 3, 0, .ro, [0x5]⟩, ⟨"STATE_1", 7, 4, .ro, [0x0]⟩, ⟨"STATE_2", 11, 8, .ro, [0x0]⟩, ⟨"STATE_3", 15, 12, .ro, [0x0]⟩, ⟨"STATE_4", 19, 16, .ro, [0x0]⟩, ⟨"STATE_5", 23, 20, .ro, [0x0]⟩, ⟨"STATE_6", 27, 24, .ro, [0x0]⟩, ⟨"STATE_7", 31, 28, .ro, [0x0]⟩]⟩,
  ⟨"FCX_SPARE", 0x40190008, [], [⟨"SPARE_PAIR", 2, 0, .rwl, [0x7]⟩, ⟨"TAKEOVER_EN", 8, 8, .rwl, [0x1]⟩]⟩,
  ⟨"FCX_FAULT", 0x4019000C, [], [⟨"MISMATCH", 7, 0, .rw1c, [0x0]⟩, ⟨"WDOG", 15, 8, .rw1c, [0x0]⟩, ⟨"TCM_UE", 23, 16, .rw1c, [0x0]⟩]⟩,
  ⟨"FCX_WDOG_TIMEOUT", 0x40190010, [], [⟨"TIMEOUT_US", 23, 0, .rwl, [0x2710]⟩]⟩,
  ⟨"FCX_TAKEOVERS", 0x40190014, [], [⟨"COUNT", 15, 0, .ro, [0x0]⟩]⟩,
  ⟨"FCX_LOCK", 0x40190018, [], [⟨"LOCK", 0, 0, .rwo, [0x0]⟩]⟩]

def regsTmb0 : List RegSpec := [
  ⟨"TMB_TIME_LO", 0x401A0000, [], [⟨"TIME_LO", 31, 0, .ro, [0x0]⟩]⟩,
  ⟨"TMB_TIME_HI", 0x401A0004, [], [⟨"TIME_HI", 31, 0, .ro, [0x0]⟩]⟩,
  ⟨"TMB_STATUS", 0x401A0008, [], [⟨"XTAL_OK", 0, 0, .ro, [0x0]⟩, ⟨"RESUMED", 1, 1, .ro, [0x0]⟩, ⟨"XTAL_LOSS", 2, 2, .rw1c, [0x0]⟩, ⟨"HELD", 3, 3, .ro, [0x0]⟩]⟩,
  ⟨"TMB_CEIL_LO", 0x401A000C, [], [⟨"CEILING", 31, 0, .ro, [0x0]⟩]⟩,
  ⟨"TMB_CEIL_HI", 0x401A0010, [], [⟨"CEILING", 31, 0, .ro, [0x0]⟩]⟩,
  ⟨"TMB_BOOT", 0x401A0014, [], [⟨"BOOTS", 31, 0, .ro, [0x0]⟩]⟩]

def regsTsn0 : List RegSpec := [
  ⟨"TSN_ID", 0x401B0000, [], [⟨"SENSORS", 4, 0, .ro, [0x14]⟩, ⟨"COMPUTE", 12, 8, .ro, [0x12]⟩]⟩,
  ⟨"TSN_CTRL", 0x401B0004, [], [⟨"EN", 0, 0, .rwl, [0x1]⟩, ⟨"TRIP_EN", 1, 1, .rwl, [0x1]⟩, ⟨"LOCK", 8, 8, .rwo, [0x0]⟩]⟩,
  ⟨"TSN_COMPOSITE", 0x401B0008, [], [⟨"KELVIN", 8, 0, .ro, [0x0]⟩, ⟨"HOTTEST", 20, 16, .ro, [0x0]⟩]⟩,
  ⟨"TSN_TRIP", 0x401B000C, [], [⟨"TRIP_C", 7, 0, .rwl, [0x6E]⟩]⟩,
  ⟨"TSN_STATUS", 0x401B0010, [], [⟨"TRIPPED", 0, 0, .ro, [0x0]⟩, ⟨"ALL_FAULTED", 1, 1, .ro, [0x0]⟩, ⟨"FAULTED", 12, 8, .ro, [0x0]⟩]⟩,
  ⟨"TSN_EVENTS", 0x401B0020, [], [⟨"HOT", 0, 0, .rw1c, [0x0]⟩, ⟨"TRIP", 1, 1, .rw1c, [0x0]⟩, ⟨"SENSOR_FAULT", 2, 2, .rw1c, [0x0]⟩]⟩,
  ⟨"TSN_SENSOR", 0x401B0100, [⟨0, 20, 0x4⟩], [⟨"TEMP", 8, 0, .ro, [0x0]⟩, ⟨"VALID", 9, 9, .ro, [0x0]⟩, ⟨"MAX", 24, 16, .ro, [0x0]⟩]⟩]

def regsSbd0 : List RegSpec := [
  ⟨"SBD_CTRL", 0x401C0000, [], [⟨"EN", 0, 0, .rwl, [0x1]⟩, ⟨"BUS", 1, 1, .rwl, [0x0]⟩, ⟨"BASIC_MI", 2, 2, .rwl, [0x1]⟩, ⟨"LOCK", 8, 8, .rwo, [0x0]⟩]⟩,
  ⟨"SBD_ADDR", 0x401C0004, [], [⟨"SMB_ADDR", 6, 0, .rwl, [0x1D]⟩, ⟨"I3C_DYN", 14, 8, .ro, [0x0]⟩, ⟨"EID", 23, 16, .ro, [0x0]⟩]⟩,
  ⟨"SBD_STATUS", 0x401C0008, [], [⟨"BUS_RESET", 0, 0, .rw1c, [0x0]⟩, ⟨"PEC_ERR", 1, 1, .rw1c, [0x0]⟩]⟩,
  ⟨"SBD_DROPPED", 0x401C000C, [], [⟨"COUNT", 15, 0, .ro, [0x0]⟩]⟩]

def regsChs0 : List RegSpec := [
  ⟨"CHS_ID", 0x41000000, [⟨0, 64, 0x10000⟩], [⟨"CHANNEL", 5, 0, .ro, [0x0]⟩, ⟨"CS_WORDS", 21, 8, .ro, [0x2000]⟩]⟩,
  ⟨"CHS_CTRL", 0x41000004, [⟨0, 64, 0x10000⟩], [⟨"EN", 0, 0, .rwl, [0x0]⟩, ⟨"PROG_EN", 1, 1, .rwl, [0x0]⟩, ⟨"RESET", 2, 2, .w1s, [0x0]⟩, ⟨"ISO_CAP_EN", 3, 3, .rwl, [0x1]⟩, ⟨"LOCK", 8, 8, .rwo, [0x0]⟩]⟩,
  ⟨"CHS_STATE", 0x41000008, [⟨0, 64, 0x10000⟩], [⟨"STATE", 2, 0, .ro, [0x0]⟩, ⟨"PFAIL", 3, 3, .ro, [0x0]⟩]⟩,
  ⟨"CHS_BUS", 0x4100000C, [⟨0, 64, 0x10000⟩], [⟨"IF", 1, 0, .rwl, [0x0]⟩, ⟨"RATE_MTS", 16, 4, .rwl, [0xA]⟩]⟩,
  ⟨"CHS_BURST", 0x41000010, [⟨0, 64, 0x10000⟩], [⟨"MAX_BURST", 14, 0, .rwl, [0x3600]⟩, ⟨"ISO_BURST", 31, 16, .ro, [0x1000]⟩]⟩,
  ⟨"CHS_YIELD", 0x41000014, [⟨0, 64, 0x10000⟩], [⟨"YIELD_US", 3, 0, .rwl, [0x8]⟩, ⟨"CUST_MAX_US", 26, 16, .ro, [0x3E8]⟩]⟩,
  ⟨"CHS_DIE_MAP", 0x41000018, [⟨0, 64, 0x10000⟩], [⟨"DIES", 31, 0, .ro, [0x0]⟩]⟩,
  ⟨"CHS_DIE_LOST", 0x4100001C, [⟨0, 64, 0x10000⟩], [⟨"DIES", 31, 0, .ro, [0x0]⟩]⟩,
  ⟨"CHS_TIMING", 0x41000020, [⟨0, 64, 0x10000⟩, ⟨0, 8, 0x4⟩], [⟨"PARAM_LO", 15, 0, .rwl, [0xFFFF]⟩, ⟨"PARAM_HI", 31, 16, .rwl, [0xFFFF]⟩]⟩,
  ⟨"CHS_QUEUE", 0x41000040, [⟨0, 64, 0x10000⟩, ⟨0, 4, 0x4⟩], [⟨"WAITING", 6, 0, .ro, [0x0]⟩, ⟨"SIZE", 14, 8, .ro, [0x40]⟩]⟩,
  ⟨"CHS_CFIFO", 0x41000050, [⟨0, 64, 0x10000⟩], [⟨"LEVEL", 4, 0, .ro, [0x0]⟩, ⟨"FULL", 5, 5, .ro, [0x0]⟩]⟩,
  ⟨"CHS_UCODE", 0x41000054, [⟨0, 64, 0x10000⟩], [⟨"STATE", 1, 0, .ro, [0x0]⟩, ⟨"VENDOR_ABI", 15, 8, .ro, [0x0]⟩, ⟨"CUST_WORDS", 27, 16, .ro, [0x0]⟩]⟩,
  ⟨"CHS_UCODE_SVN", 0x41000058, [⟨0, 64, 0x10000⟩], [⟨"VENDOR", 15, 0, .ro, [0x0]⟩, ⟨"CUSTOMER", 31, 16, .ro, [0x0]⟩]⟩,
  ⟨"CHS_UCODE_DIGEST", 0x41000060, [⟨0, 64, 0x10000⟩, ⟨0, 12, 0x4⟩], [⟨"DIGEST", 31, 0, .ro, [0x0]⟩]⟩,
  ⟨"CHS_MC", 0x41000090, [⟨0, 64, 0x10000⟩], [⟨"ADDR", 12, 0, .ro, [0x0]⟩, ⟨"VALID", 13, 13, .rw1c, [0x0]⟩, ⟨"SCRUB", 14, 14, .ro, [0x0]⟩]⟩,
  ⟨"CHS_VIO", 0x41000094, [⟨0, 64, 0x10000⟩], [⟨"ADDR", 12, 0, .ro, [0x0]⟩, ⟨"DIE", 20, 16, .ro, [0x0]⟩, ⟨"KIND", 23, 21, .ro, [0x0]⟩, ⟨"VALID", 24, 24, .rw1c, [0x0]⟩]⟩,
  ⟨"CHS_SCRUB", 0x41000098, [⟨0, 64, 0x10000⟩], [⟨"NEXT", 12, 0, .ro, [0x0]⟩, ⟨"PASSES", 31, 16, .ro, [0x0]⟩]⟩,
  ⟨"CHS_COUNT", 0x410000A0, [⟨0, 64, 0x10000⟩, ⟨0, 8, 0x4⟩], [⟨"COUNT", 31, 0, .ro, [0x0]⟩]⟩,
  ⟨"CHS_EVENTS", 0x410000C0, [⟨0, 64, 0x10000⟩], [⟨"PROGRAM_FAIL", 0, 0, .rw1c, [0x0]⟩, ⟨"ERASE_FAIL", 1, 1, .rw1c, [0x0]⟩, ⟨"DIE_TIMEOUT", 2, 2, .rw1c, [0x0]⟩, ⟨"DESC_INVALID", 3, 3, .rw1c, [0x0]⟩, ⟨"ERASE_SUSP_REFUSED", 4, 4, .rw1c, [0x0]⟩, ⟨"CFIFO_FULL", 5, 5, .rw1c, [0x0]⟩, ⟨"MACHINE_CHECK", 6, 6, .rw1c, [0x0]⟩, ⟨"VIOLATION", 7, 7, .rw1c, [0x0]⟩, ⟨"SEQ_FULL", 8, 8, .rw1c, [0x0]⟩]⟩,
  ⟨"CHS_DIE_SEL", 0x410000D0, [⟨0, 64, 0x10000⟩], [⟨"DIE", 4, 0, .rw, [0x0]⟩]⟩]

def regsChs1 : List RegSpec := [
  ⟨"CHS_V_DIE", 0x410000D4, [⟨0, 64, 0x10000⟩], [⟨"CTX", 1, 0, .ro, [0x0]⟩, ⟨"DESC_WAITING", 2, 2, .ro, [0x0]⟩, ⟨"SUSPENDED", 3, 3, .ro, [0x0]⟩, ⟨"OP", 15, 8, .ro, [0x0]⟩, ⟨"SUSPENDS", 18, 16, .ro, [0x0]⟩, ⟨"SEQ_ENTRIES", 30, 24, .ro, [0x0]⟩, ⟨"LOST", 31, 31, .ro, [0x0]⟩]⟩,
  ⟨"CHS_V_SUSP", 0x410000D8, [⟨0, 64, 0x10000⟩], [⟨"BLOCK", 18, 0, .ro, [0x0]⟩, ⟨"ERASE", 30, 30, .ro, [0x0]⟩, ⟨"VALID", 31, 31, .ro, [0x0]⟩]⟩,
  ⟨"CHS_SEQ_SEL", 0x410000E0, [⟨0, 64, 0x10000⟩], [⟨"ENTRY", 5, 0, .rw, [0x0]⟩]⟩,
  ⟨"CHS_SEQ_BLOCK", 0x410000E4, [⟨0, 64, 0x10000⟩], [⟨"BLOCK", 18, 0, .rw, [0x0]⟩, ⟨"VALID", 31, 31, .rw, [0x0]⟩]⟩,
  ⟨"CHS_SEQ_NEXT", 0x410000E8, [⟨0, 64, 0x10000⟩], [⟨"NEXT", 12, 0, .rw, [0x0]⟩, ⟨"MODE", 14, 13, .rw, [0x0]⟩]⟩,
  ⟨"CHS_PAGES_ST", 0x410000EC, [⟨0, 64, 0x10000⟩], [⟨"SLC", 12, 0, .rwl, [0x0]⟩, ⟨"TLC", 28, 16, .rwl, [0x0]⟩]⟩,
  ⟨"CHS_PAGES_Q", 0x410000F0, [⟨0, 64, 0x10000⟩], [⟨"QLC", 12, 0, .rwl, [0x0]⟩]⟩,
  ⟨"CHS_PLANES", 0x410000F4, [⟨0, 64, 0x10000⟩], [⟨"PLANES", 2, 0, .rwl, [0x1]⟩]⟩,
  ⟨"CHS_POST_D", 0x41000100, [⟨0, 64, 0x10000⟩, ⟨0, 16, 0x4⟩], [⟨"BYTES", 31, 0, .wo, [0x0]⟩]⟩,
  ⟨"CHS_POST_GO", 0x41000140, [⟨0, 64, 0x10000⟩], [⟨"QUEUE", 1, 0, .wo, [0x0]⟩, ⟨"GO", 8, 8, .w1s, [0x0]⟩]⟩]

/-- The register rows of the block with index `i` (R31). -/
def blockRegs : Nat → List RegSpec
  | 0 => regsHpt0
  | 1 => regsQen0
  | 2 => regsSlm0
  | 3 => regsZne0 ++ regsZne1
  | 4 => regsCmp0
  | 5 => regsPlc0 ++ regsPlc1
  | 6 => regsDsc0 ++ regsDsc1
  | 7 => regsLdc0 ++ regsLdc1
  | 8 => regsBpm0 ++ regsBpm1
  | 9 => regsDmc0 ++ regsDmc1
  | 10 => regsMep0 ++ regsMep1
  | 11 => regsUmp0 ++ regsUmp1
  | 12 => regsSgd0 ++ regsSgd1
  | 13 => regsXte0
  | 14 => regsPve0
  | 15 => regsKst0
  | 16 => regsDge0
  | 17 => regsPke0
  | 18 => regsSgn0
  | 19 => regsCls0 ++ regsCls1
  | 20 => regsBot0
  | 21 => regsAge0 ++ regsAge1
  | 22 => regsLkt0 ++ regsLkt1
  | 23 => regsAcm0
  | 24 => regsMbx0
  | 25 => regsFcx0
  | 26 => regsTmb0
  | 27 => regsTsn0
  | 28 => regsSbd0
  | 29 => regsChs0 ++ regsChs1
  | _ => []

end Sys2Proof.Machine
end

