-- ==== Sys2Proof/Machine/SMap.lean ====
section
/-! DEFINITION. Sparse tables by number, in one canonical form: keys strictly rising. A key that is not listed reads as
the table's default, so equal tables are equal lists. -/
namespace Sys2Proof.Machine

/-- A sparse table: (key, value) pairs, keys strictly rising. -/
abbrev SMap (α : Type) := List (Nat × α)

/-- The entry at `k`, if one is listed. -/
def SMap.find {α : Type} : SMap α → Nat → Option α
  | [], _ => none
  | (k', v) :: m, k => if k' = k then some v else SMap.find m k

/-- The entry at `k`, or `d`. -/
def SMap.getD {α : Type} (m : SMap α) (k : Nat) (d : α) : α :=
  match SMap.find m k with
  | some v => v
  | none => d

/-- Lists `v` at `k`, in its place. -/
def SMap.put {α : Type} : SMap α → Nat → α → SMap α
  | [], k, v => [(k, v)]
  | (k', v') :: m, k, v =>
    if k < k' then (k, v) :: (k', v') :: m
    else if k = k' then (k, v) :: m
    else (k', v') :: SMap.put m k v

/-- Lists nothing at `k`. -/
def SMap.del {α : Type} : SMap α → Nat → SMap α
  | [], _ => []
  | (k', v') :: m, k => if k' = k then SMap.del m k else (k', v') :: SMap.del m k

/-- Stores `v` at `k` where an unlisted key reads as `d`: the default is never listed. -/
def SMap.putD {α : Type} [DecidableEq α] (m : SMap α) (k : Nat) (d v : α) : SMap α :=
  if v = d then SMap.del m k else SMap.put m k v

/-- Changes the entry at `k`, when one is listed. -/
def SMap.upd {α : Type} (m : SMap α) (k : Nat) (f : α → α) : SMap α :=
  match SMap.find m k with
  | some v => SMap.put m k (f v)
  | none => m

/-- Changes every listed entry. -/
def SMap.mapv {α : Type} (m : SMap α) (f : Nat → α → α) : SMap α :=
  m.map fun e => (e.1, f e.1 e.2)

/-- Keeps the listed entries that satisfy `p`. -/
def SMap.keep {α : Type} (m : SMap α) (p : Nat → α → Bool) : SMap α :=
  m.filter fun e => p e.1 e.2

/-- How many listed entries satisfy `p`. -/
def SMap.cnt {α : Type} (m : SMap α) (p : Nat → α → Bool) : Nat :=
  (m.filter fun e => p e.1 e.2).length

/-- Some listed entry satisfies `p`. -/
def SMap.anyv {α : Type} (m : SMap α) (p : Nat → α → Bool) : Bool :=
  m.any fun e => p e.1 e.2

/-- Keys strictly rise from `lo` on. -/
def SMap.risesFrom {α : Type} : Nat → SMap α → Bool
  | _, [] => true
  | lo, (k, _) :: m => decide (lo ≤ k) && SMap.risesFrom (k + 1) m

/-- The canonical form. -/
def SMap.wf {α : Type} (m : SMap α) : Bool := SMap.risesFrom 0 m

end Sys2Proof.Machine
end

