-- ==== Sys2Proof/Machine/RegFile.lean ====
section
/-! DEFINITION. The register file: which register an address names (R31, R33), what each field reads (R16, R20) and what
a write does by its access code (R16, R17, R19). -/
namespace Sys2Proof.Machine
open Sys2Proof

/-- The block a fabric address lies in, when it lies in a register window (R31). -/
def blockOf (a : Nat) : Option Nat :=
  if 0x40000000 ≤ a ∧ a < 0x401D0000 then some ((a - 0x40000000) / 0x10000)
  else if 0x41000000 ≤ a ∧ a < 0x41400000 then some 29
  else none

/-- The offset of an address inside its block's window. -/
def windowOff (a : Nat) : Nat := a % 0x10000

/-- The index at the innermost dimension of the instance at offset `o` from index 0, if there is one. -/
def matchDims : List Dim → Nat → Nat → Option Nat
  | [], o, last => if o = 0 then some last else none
  | d :: ds, o, _ =>
    if d.first ≤ o / d.stride ∧ o / d.stride < d.first + d.count then
      matchDims ds (o % d.stride) (o / d.stride)
    else none

/-- The register row that address `a` is an instance of, and its innermost index. -/
def findReg : List RegSpec → Nat → Option (RegSpec × Nat)
  | [], _ => none
  | r :: rs, a =>
    if r.base ≤ a then
      match matchDims r.dims (a - r.base) 0 with
      | some k => some (r, k)
      | none => findReg rs a
    else findReg rs a

/-- The register at a fabric address. -/
def regAt (a : Nat) : Option (RegSpec × Nat) :=
  match blockOf a with
  | some b => findReg (blockRegs b) a
  | none => none

/-- A field's reset value at innermost index `k` (R22). -/
def fieldResetAt (f : FieldSpec) (k : Nat) : Nat :=
  match f.reset with
  | [v] => v
  | l => l.getD k 0

/-- The reset word of a register (R22): reserved bits are 0 (R20). -/
def regResetWord (r : RegSpec) (k : Nat) : Word :=
  r.fields.foldl (fun w f => setBits w f.lo (f.hi - f.lo + 1) (fieldResetAt f k)) 0

/-- What an address reads as before anything is written there. -/
def regReset (a : Nat) : Word :=
  match regAt a with
  | some (r, k) => regResetWord r k
  | none => 0

/-- The register file: the registers whose content differs from their reset value. -/
abbrev RegFile := SMap Word

/-- The content of the register at `a`. -/
def RegFile.get (f : RegFile) (a : Nat) : Word := SMap.getD f a (regReset a)

/-- No listed register holds its reset value. -/
def RegFile.lean (f : RegFile) : Bool := f.all fun e => e.2 != regReset e.1

/-- The canonical form: addresses strictly rise and no listed register holds its reset value. -/
def RegFile.wf (f : RegFile) : Bool := SMap.wf f && RegFile.lean f

/-- Puts `v` into the register at `a`. -/
def RegFile.set (f : RegFile) (a : Nat) (v : Word) : RegFile := SMap.putD f a (regReset a) v

/-- What a read returns of a register that holds `w`: write-only fields read 0 (R16), reserved bits read 0 (R20). -/
def regReadWord (r : RegSpec) (w : Word) : Word :=
  r.fields.foldl (fun acc f =>
    if f.acc = .wo then acc else setBits acc f.lo (f.hi - f.lo + 1) (bits w.toNat f.lo (f.hi - f.lo + 1))) 0

/-- What a field holds after a write of `new` over `old` (R16); `rst` is its reset value, `locked` its block's lock. -/
def writeField (acc : Access) (locked : Bool) (rst old new : Nat) : Nat :=
  match acc with
  | .ro => old
  | .rw => new
  | .rw1c => old &&& ((old ||| new) ^^^ new)
  | .w1s => old ||| new
  | .wo => new
  | .rwo => if old = rst then new else old
  | .rwl => if locked then old else new
  | .rws => new

/-- What a register holds after a write of `new` over `old`, field by field (R16); reserved bits stay 0 (R20). -/
def regWriteWord (r : RegSpec) (k : Nat) (locked : Bool) (old new : Word) : Word :=
  r.fields.foldl (fun acc f =>
    let w := f.hi - f.lo + 1
    setBits acc f.lo w (writeField f.acc locked (fieldResetAt f k) (bits old.toNat f.lo w) (bits new.toNat f.lo w))) 0

/-- The lock bit of a block's RWL fields, by block index and window base (a sequencer has its own). -/
def lockField (b winBase : Nat) : Option Field :=
  match b with
  | 1 => some ⟨winBase + 0xF0, 0, 1⟩
  | 2 => none
  | 23 => some ⟨winBase + 0x004, 0, 1⟩
  | 24 => some ⟨winBase + 0x004, 8, 1⟩
  | 25 => some ⟨winBase + 0x018, 0, 1⟩
  | 26 => none
  | 0 => some ⟨winBase + 0x008, 8, 1⟩
  | 3 => some ⟨winBase + 0x008, 8, 1⟩
  | 4 => some ⟨winBase + 0x02C, 8, 1⟩
  | 7 => some ⟨winBase + 0x008, 8, 1⟩
  | 28 => some ⟨winBase + 0x000, 8, 1⟩
  | _ => some ⟨winBase + 0x004, 8, 1⟩

end Sys2Proof.Machine
end

