-- ==== Sys2Proof/Machine/StateHost.lean ====
section
/-! DEFINITION. State of the host ports, queues, command contexts, power states, self-tests and slices (chapters 04, 05). -/
namespace Sys2Proof.Machine
open Sys2Proof

/-- A completion entry in a completion queue, not yet consumed by the host (R140, R141). `data` is what the command
moved to the host before it (R140); `status` is the NVMe status (status code type × 256 + status code). -/
structure Cqe where
  sqid   : Nat
  cid    : Nat
  status : Nat
  dw0    : Nat
  dw1    : Nat
  data   : List Nat
  /-- The PASID of the writes that moved them; none on the admin queue (R164). -/
  pasid  : Option Nat := none
deriving DecidableEq, Repr

/-- A submission queue (R138, R145). Key: port × 65,536 + queue identifier. -/
structure Sq where
  size  : Nat
  /-- Next entry to fetch. -/
  head  : Nat
  /-- Tail as last rung. -/
  tail  : Nat
  cq    : Nat
  /-- Tail doorbells whose entries have not all been fetched, oldest first: the tail each gave, and its device time of arrival
  (R265). -/
  stamps : List (Nat × Nat)
  /-- The admin command that deletes the queue, once R145 step 1 has been taken. -/
  del   : Option Nat
deriving DecidableEq, Repr

/-- A completion queue (R135, R141). -/
structure Cq where
  size  : Nat
  /-- MSI-X vector; 2,048 where interrupts are not enabled. -/
  vector : Nat
  /-- Entries the host has not consumed, oldest first. -/
  posted : List Cqe
  /-- Head as last rung. -/
  head  : Nat
  /-- Entries that wait for a coalesced MSI-X message (R141). -/
  coal  : Nat
deriving DecidableEq, Repr

/-- Where a fetched command stands. -/
inductive CtxSt where
  /-- Fetched, not yet carried out. -/
  | fetched
  /-- Being carried out. -/
  | running
  /-- Ended with a status; its completion waits to be posted. -/
  | ready (status dw0 dw1 : Nat)
deriving DecidableEq, Repr

/-- A write's reserved range (R202, R203), in LBAs of its namespace, and the sequence number it took at step 3 (R224, R297). -/
structure WRange where
  nsid  : Nat
  /-- Zone descriptor index; 0 for a conventional write. -/
  zone  : Nat
  start : Nat
  len   : Nat
  seq   : Nat
  zoned : Bool
  /-- Placement class resolved at step 3 (R236). -/
  cls   : Nat
  /-- The lifetime hint, 0 without one; LIFE_MAP gives its stream when the placement decision is made (R234, R235, R244). -/
  life  : Nat
deriving DecidableEq, Repr

/-- Where a unit lies: nowhere (reads zeros), a DRAM staging slot, or a unit of a flash page (the block is the stripe
block of the die's group, R298). -/
inductive Loc where
  | zero
  | dram (slot : Nat)
  | flash (die block page unit : Nat)
deriving DecidableEq, Repr

/-- A slot of a prepared stripe: stripe number and data member (R244). -/
structure Tgt where
  stripe : Nat
  member : Nat
deriving DecidableEq, Repr

/-- How far one unit of a command has come. -/
inductive CuSt where
  /-- Reserved, or resolved and not yet read. -/
  | waiting
  /-- A write's target is decided (R244). -/
  | placed (t : Tgt)
  /-- Encrypted and checked by inverse decryption (R465). -/
  | checked (t : Tgt)
  /-- In the staging area, counted dirty (R47). -/
  | staged
  /-- A read served by its die's queue: the operation's identifier. -/
  | queued (op : Nat)
  /-- A read's codeword has arrived and waits for a decoder. -/
  | arrived
  /-- A read served by a rebound. -/
  | rebound (id : Nat)
  /-- A read's codeword is decoded: ciphertext in the slab. -/
  | decoded
  /-- A read's plaintext, both decryptions agreeing (R51). -/
  | plain
  /-- A read's unit is lost (R304). -/
  | lost
deriving DecidableEq, Repr

/-- One 4 KiB unit of a command: its index in the namespace, the first LBA and number of LBAs the command covers in
it, where a read resolved it (R50), the content of each LBA block, and XTE attempts made (R466). -/
structure CUnit where
  unit   : Nat
  lba    : Nat
  n      : Nat
  loc    : Loc
  st     : CuSt
  blocks : List Nat
  tries  : Nat
  inst   : Nat
  /-- The key buffer that its cipher operation has latched (R460). -/
  latch  : Option Nat
  /-- SEQ_CHK of the map entry that a read resolved (R223). -/
  chk    : Option Nat := none
  /-- The physical block that a read resolved (R50). -/
  phys   : Option Nat := none
  /-- The decoder, 0 or 1 of its channel's, that holds its codeword (R259). -/
  dec    : Nat := 0
  /-- It ended after the command's deadline (R289). -/
  late   : Bool := false
deriving DecidableEq, Repr

/-- A command context (R136). Key: port × 2^32 + queue × 2^16 + command identifier. -/
structure Ctx where
  port    : Nat
  qid     : Nat
  cid     : Nat
  opcode  : Nat
  /-- The slice it works for; none for an admin command. -/
  slice   : Option Nat
  /-- Drawn from the shared surplus (R136). -/
  surplus : Bool
  st      : CtxSt
  /-- Arrival time (R265). -/
  arrived : Nat
  /-- LAT_CLASS when it was fetched, and the deadline of its reads (R265). -/
  lat     : Nat
  deadline : Nat
  /-- The range a write reserved. -/
  range   : Option WRange
  /-- Its units, in LBA order. -/
  units   : List CUnit
  /-- Namespace of an I/O command. -/
  nsid    : Nat
  /-- The XTE instance chosen at the decision (R259). -/
  inst    : Nat
  /-- The request is held by an Asynchronous Event Request (R150). -/
  aer     : Bool
  /-- What the command moves to the host, where its units do not hold it (R140). -/
  out     : List Nat
  /-- The first LBA that its submission entry names, and its place in the order of fetching (R204). -/
  slba    : Nat := 0
  order   : Nat := 0
  /-- It has been found not ready for placement, and counted (R242). -/
  waited  : Bool := false
  /-- The PASID of its host DMA; an admin command's carries none (R164). -/
  pasid   : Option Nat := none
deriving DecidableEq, Repr

/-- The features of one port (R131, R138, R141, R149, R154, R173, R608). -/
structure Feat where
  ab       : Nat
  /-- Temperature thresholds: over and under, by sensor number 0–8 × 2 + type. -/
  tmpTh    : SMap Nat
  coalThr  : Nat
  coalTime : Nat
  /-- Vectors with coalescing disabled. -/
  noCoal   : List Nat
  aec      : Nat
  apstOn   : Bool
  /-- Autonomous transition entries by power state: idle ms, target state. -/
  apst     : SMap (Nat × Nat)
deriving DecidableEq, Repr

/-- One Error Information entry (R80). -/
structure ErrEntry where
  sqid   : Nat
  cid    : Nat
  status : Nat
  lba    : Nat
  nsid   : Nat
deriving DecidableEq, Repr

/-- One host port (R122–R154). Link fields stand in HPT_LINK_p. -/
structure Port where
  /-- PERSTp_N is asserted. -/
  perst   : Bool
  /-- Holds in Detect.Quiet until TRAIN_EN is set (R52). -/
  quiet   : Bool
  /-- The width that the link trained or retrained to; L0p narrows from it. -/
  trained : Nat
  en      : Bool
  rdy     : Bool
  shn     : Bool
  /-- CSTS.SHST: 0, 1, 2. -/
  shst    : Nat
  cfs     : Bool
  feat    : Feat
  /-- Requested power state and last operational request (R149). -/
  reqPs   : Nat
  lastOp  : Nat
  /-- Asynchronous Event Requests held, by command identifier, and events raised that none has taken. -/
  aers    : List Nat
  events  : List Nat
  errs    : List ErrEntry
  /-- Entries the log has taken in all. -/
  errCnt  : Nat
  /-- Data Generation Number of the telemetry log. -/
  telGen  : Nat
  /-- The last telemetry capture: data areas 1 and 2 (R589). -/
  tel     : Option (List Byte)
  /-- Device time at which the port last became idle, or its idle timer restarted (R154). -/
  idleAt  : Nat
  /-- The host has enabled ECRC checking (R125). -/
  ecrc    : Bool := false
  /-- What the host has written into the MSI-X table in BAR0, as one number (R43). -/
  msix    : Nat := 0
deriving DecidableEq, Repr

/-- One self-test result (R159). -/
structure DstResult where
  code     : Nat
  extended : Bool
  segment  : Nat
  time     : Nat
  nsid     : Nat
  lba      : Nat
deriving DecidableEq, Repr

/-- The running self-test (R155–R158): 0 none, 1 short, 2 extended; origin 0–3 a port, 4 the mailbox. -/
structure Dst where
  st       : Nat
  origin   : Nat
  results  : List DstResult
  /-- Units that the running test has found uncorrectable: segment, namespace, first LBA (R155). -/
  fails    : List (Nat × Nat × Nat) := []
  /-- A test was running when power was lost; the next boot records it (R159). -/
  lost     : Nat
deriving DecidableEq, Repr

/-- The drive-wide diagnostic counters (R160). -/
structure Diag where
  hostCmds : Nat
  ldpc     : Nat
  retries  : Nat
  soft     : Nat
  uncorr   : Nat
  rebound  : Nat
  recover  : Nat
  dmaErr   : Nat
deriving DecidableEq, Repr

/-- The fetch turn of a port (R138, R179): the slice it serves, entries it may still fetch, the turns each slice has had in this
round, and the queue each slice was last served from. -/
structure Turn where
  slice : Nat
  left  : Nat
  used  : SMap Nat
  last  : SMap Nat
deriving DecidableEq, Repr

/-- Host side: ports, queues, contexts, power states, self-tests. -/
structure Hst where
  ports : SMap Port
  sqs   : SMap Sq
  cqs   : SMap Cq
  turns : SMap Turn
  ctx   : SMap Ctx
  /-- MSI-X messages sent, by port × 2,048 + vector. -/
  msix  : SMap Nat
  dst   : Dst
  diag  : Diag
  /-- A power-state entry in progress: its target (R151). -/
  psTo  : Option Nat
  /-- Set while the power-fail signal stops fetching (R54 step 3). -/
  stop  : Bool
  /-- The flash dies are in deep power-down and the core regulator is at its retention set-point (R148). -/
  deep  : Bool := false
  /-- Submission entries fetched since reset (R204). -/
  fetched : Nat := 0
deriving DecidableEq, Repr

/-- The four shares of a slice (R174). -/
structure Shares where
  weight : Nat
  cap    : Nat
  lat    : Nat
  power  : Nat
deriving DecidableEq, Repr

/-- A defined slice (R161–R188); a slice ID that is not listed is FREE. -/
structure Slice where
  /-- RESETTING (R162); otherwise ACTIVE. -/
  resetting : Bool
  /-- Device time at which the running reset began, and its cause (R584: 1 opcode, 2 register, 3 red card). -/
  since     : Nat
  cause     : Nat
  pasid     : Nat
  dmaBase   : Nat
  dmaLimit  : Nat
  iso       : Bool
  /-- Dedicated die groups of an isolated slice (R251). -/
  groups    : List Nat
  /-- Those of them that were HELD when they were chosen (R251). -/
  held      : List Nat := []
  /-- Dedicated XTE instance of an isolated slice (R252). -/
  xte       : List Nat
  shares    : Shares
  /-- Staged shares (R177). -/
  next      : Option Shares
  /-- Slot by port (R166). -/
  slots     : SMap Nat
  resets    : Nat
  lastReset : Nat
  /-- Host data of this epoch and of the last one, in bytes (R179). -/
  bytes     : Nat
  lastBytes : Nat
  /-- Class mask and default class (R237). -/
  mask      : Nat
  dflt      : Nat
  /-- SMART counts: data units read and written, read and write commands (R80). -/
  duR       : Nat
  duW       : Nat
  cmdR      : Nat
  cmdW      : Nat
  /-- Time in ns in which it had a command outstanding, up to the last moment with none; since when it has one (R80). -/
  busy      : Nat := 0
  busyAt    : Option Nat := none
deriving DecidableEq, Repr

/-- The slice manager. -/
structure Slm where
  slices : SMap Slice
  /-- The epoch number latched at the last epoch start (R176). -/
  epoch  : Nat
  /-- Dirty reserve of each isolated slice in MiB, latched at the epoch start (R448). -/
  dirtyRsv : SMap Nat
deriving DecidableEq, Repr

def Feat.reset : Feat :=
  { ab := 0, tmpTh := [], coalThr := 0, coalTime := 0, noCoal := [], aec := 0, apstOn := false, apst := [] }

def Port.reset : Port :=
  { perst := true, quiet := true, trained := 0, en := false, rdy := false, shn := false, shst := 0, cfs := false, feat := Feat.reset,
    reqPs := 0, lastOp := 0, aers := [], events := [], errs := [], errCnt := 0, telGen := 0, tel := none, idleAt := 0 }

def Dst.reset : Dst := { st := 0, origin := 0, results := [], lost := 0 }

def Diag.reset : Diag :=
  { hostCmds := 0, ldpc := 0, retries := 0, soft := 0, uncorr := 0, rebound := 0, recover := 0, dmaErr := 0 }

def Hst.reset : Hst :=
  { ports := [(0, Port.reset), (1, Port.reset), (2, Port.reset), (3, Port.reset)], sqs := [], cqs := [], turns := [], ctx := [],
    msix := [], dst := Dst.reset, diag := Diag.reset, psTo := none, stop := false }

def Slm.reset : Slm := { slices := [], epoch := 0, dirtyRsv := [] }

end Sys2Proof.Machine
end

