-- ==== Sys2Proof/Machine/StateData.lean ====
section
/-! DEFINITION. State of namespaces, zones, the conventional map and placement (chapters 06, 07). -/
namespace Sys2Proof.Machine
open Sys2Proof

/-- A namespace (R189–R191). Key: its identifier. -/
structure Ns where
  slice   : Nat
  zoned   : Bool
  /-- Zone size as a power of two in bytes; 0 for conventional. -/
  zlog    : Nat
  /-- LBA format: 0 4,096 B, 1 512 B. -/
  lbaf    : Nat
  /-- Capacity in units. -/
  cap     : Nat
  maxOpen : Nat
  maxAct  : Nat
  /-- First zone descriptor index, or first conventional map entry (R190). -/
  base    : Nat
deriving DecidableEq, Repr

/-- A reserved range of a zone, in LBAs from the zone's start (R203–R206). -/
structure ZRange where
  start : Nat
  len   : Nat
  /-- 0 in flight, 1 durable, 2 abandoned (pad). -/
  st    : Nat
deriving DecidableEq, Repr

/-- A staging run (R216): unit offset in the zone, length, where its units lie in order. -/
structure Run where
  off     : Nat
  len     : Nat
  /-- LOC 0: the staging slots in order; LOC 1: the stripe's key. -/
  loc1    : Bool
  slots   : List Nat
  at_     : Nat
  member  : Nat
  folding : Bool
deriving DecidableEq, Repr

/-- An extent of a zone (R221). -/
structure Ext where
  off    : Nat
  len    : Nat
  group  : Nat
  mode   : Nat
  par7   : Bool
  pad    : Bool
  reloc  : Bool
  block  : Nat
  set    : Nat
  /-- Units of the plane set before the extent's first, and data members a stripe (R244). -/
  skip   : Nat
  dm     : Nat
deriving DecidableEq, Repr

/-- A zone cursor (R246): the extent being filled, whose length counts the closed units, and the plane set prepared next. -/
structure Cursor where
  ext   : Ext
  next  : Option Ext
deriving DecidableEq, Repr

/-- A zone descriptor with its runs and extents (R194, R220, R221). Key: descriptor index; a zone that is not listed
is Empty and was never reset. -/
structure Zone where
  /-- State code of R194. -/
  st      : Nat
  /-- Write pointer, in LBAs from the zone's start. -/
  wp      : Nat
  /-- Capacity in units (R208); 0 while Empty. -/
  zcap    : Nat
  reduced : Bool
  cls     : Nat
  last    : Nat
  resets  : Nat
  /-- Reservation still held, in units (R208). -/
  resv    : Nat
  ranges  : List ZRange
  runs    : List Run
  exts    : List Ext
  cursor  : Option Cursor
  /-- Left direct placement for this activation (R247). -/
  left    : Bool
  /-- A Zone Management Send action that waits: action code and the command (R212). -/
  action  : Option (Nat × Nat)
  /-- The descriptor failed its CRC and is being rebuilt (R220): device time it began. -/
  crcBad  : Option Nat
  /-- Emptied data reads as zeros from now on though the state is kept (R213, Read Only). -/
  void    : Bool
  /-- The descriptor's bytes in DRAM no longer match their CRC-32 (R220). -/
  spoilt  : Bool := false
  /-- A copy or a fold would have made a 65th extent: the zone's extents are to be rewritten (R222). -/
  rewrite : Bool := false
deriving DecidableEq, Repr

/-- A conventional map entry (R223) with its whole sequence number. -/
structure ConvEnt where
  loc  : Loc
  mode : Nat
  seq  : Nat
deriving DecidableEq, Repr

/-- A unit in the DRAM staging area. Key: staging slot. -/
structure SUnit where
  nsid   : Nat
  /-- Unit index in the namespace. -/
  unit   : Nat
  slice  : Nat
  seq    : Nat
  /-- Ciphertext of the unit's blocks. -/
  blocks : List Nat
  tgt    : Tgt
  /-- Device time at which it was counted dirty. -/
  since  : Nat
  /-- Placement class that its write was resolved to (R236). -/
  cls    : Nat := 0
deriving DecidableEq, Repr

/-- A data member of a stripe. -/
inductive Member where
  | free
  | claimed
  /-- The unit in this staging slot. -/
  | unit (slot : Nat)
  /-- A unit copied from flash: its information bytes and where it came from (R306). -/
  | copy (info : Nat) (src : Loc)
  /-- A unit to be copied whose source read has not been decoded (R306). -/
  | fetch (id : Nat)
  | pad
deriving DecidableEq, Repr

/-- A prepared, open or closing stripe (R240–R243, R299). Key: stripe number. -/
structure Stripe where
  /-- Stream key (R240), or none for a stripe of direct placement or of a fold. -/
  key     : Option Nat
  /-- Zone of a stripe of direct placement or of a fold, and the zone offset of its first unit. -/
  zone    : Option (Nat × Nat)
  mode    : Nat
  group   : Nat
  /-- First stripe block and width of its plane set (R300). -/
  set0    : Nat
  width   : Nat
  block   : Nat
  row     : Nat
  par7    : Bool
  half    : Nat
  /-- Physical members of the data members in order, and the parity member (R299). -/
  mem     : List Nat
  par     : Nat
  members : List Member
  /-- Parity computed (R299). -/
  parity  : Option Nat
  /-- Device time of the last unit. -/
  last    : Nat
  /-- Physical members not yet programmed with good status. -/
  toProg  : List Nat
  /-- Deadline class of the fold, copy or rebuild whose data it holds, and the device time at which that began (R257, R266). -/
  work    : Nat := 3
  begun   : Option Nat := none
deriving DecidableEq, Repr

/-- The open plane set of a stream in a group: how many of its stripes have been prepared. -/
structure OpenSb where
  set0  : Nat
  width : Nat
  mode  : Nat
  par7  : Bool
  next  : Nat
deriving DecidableEq, Repr

/-- An active stream (R240). -/
structure Stream where
  mode : Nat
  last : Nat
deriving DecidableEq, Repr

/-- A fold in progress (R256, R257). -/
structure Fold where
  zoned : Bool
  /-- Zone descriptor index or stream key. -/
  obj   : Nat
  /-- Extents that the fold of a zone writes. -/
  exts  : List Ext
  /-- Its stripes that have not closed. -/
  stripes : List Nat
  q2    : Bool
  /-- Pieces of the zone that its closed stripes hold, and where each of their units was copied from, by zone offset (R217). -/
  done  : List Ext
  srcs  : SMap Loc := []
deriving DecidableEq, Repr

/-- A placement class entry (R231). -/
structure ClassEnt where
  /-- Bit g: group g. -/
  groups   : Nat
  mode     : Nat
  valid    : Bool
  iso      : Bool
  par7     : Bool
  spill    : Bool
  fold     : Nat
  foldMode : Nat
  lifeMap  : Nat
  eager    : Nat
deriving DecidableEq, Repr

/-- Namespaces, zones and the conventional map. -/
structure Zne where
  ns     : SMap Ns
  zones  : SMap Zone
  conv   : SMap ConvEnt
  /-- Last sequence number taken (R224). -/
  seq    : Nat
  /-- Staging units by DRAM slot: stripe number × 16 + data member (R245). -/
  stg    : SMap SUnit
  /-- Run-record reserve of each isolated slice, and the POWER_SHARE it was fixed at (R219). -/
  recResv : SMap Nat
  recShare : SMap Nat := []
  /-- Namespaces being released in the background: identifier and what to do at the end (R475, R476). -/
  releasing : SMap Nat
  /-- Descriptors in the on-die cache that are not pinned, most recently used first (R201). -/
  cache  : List Nat
deriving DecidableEq, Repr

/-- A unit of an abandoned stripe for which no slot could be claimed yet: where it was, the stream it goes to, what it is (R307). -/
structure Homeless where
  stripe  : Nat
  member  : Nat
  key     : Nat
  content : Member
deriving DecidableEq, Repr

/-- Placement. -/
structure Plc where
  classes : SMap ClassEnt
  streams : SMap Stream
  stripes : SMap Stripe
  /-- Open plane sets by stream key × 128 + group. -/
  opens   : SMap OpenSb
  nextStripe : Nat
  folds   : List Fold
  /-- Units of abandoned stripes that wait for a slot (R307). -/
  homeless : List Homeless := []
  /-- QUIET groups: device time of entry; and the time each group last left QUIET. -/
  quiet   : SMap Nat
  quietEnd : SMap Nat
  /-- Read and program-erase backlog of each group's busiest member, in ns (R276). -/
  rdLog   : SMap Nat
  peLog   : SMap Nat
  score   : SMap Int
  token   : Nat
  xteTok  : Nat
  /-- Free stripe blocks, stripe blocks in all, sum of their P/E counts in quarters, by group. -/
  gFree   : SMap Nat
  gBlocks : SMap Nat
  gPe     : SMap Nat
  /-- Groups of a deleted isolated slice whose erase has not ended (R253). -/
  erasing : List Nat
  /-- Handles of the staging stripe-block table, by stripe block (R301). -/
  handles : SMap Nat := []
  /-- The class table has been set up at a first power-up (R233). -/
  made    : Bool := false
  /-- 64-bit counts of PLACEMENT_STATUS and PLC_DECISIONS. -/
  decisions : Nat
  waits   : Nat
  spills  : Nat
deriving DecidableEq, Repr

def ClassEnt.empty : ClassEnt :=
  { groups := 0, mode := 0, valid := false, iso := false, par7 := false, spill := false, fold := 0, foldMode := 0,
    lifeMap := 0, eager := 0 }

/-- A zone as it is before anything is written to it. -/
def Zone.fresh : Zone :=
  { st := 1, wp := 0, zcap := 0, reduced := false, cls := 0, last := 0, resets := 0, resv := 0, ranges := [], runs := [],
    exts := [], cursor := none, left := false, action := none, crcBad := none, void := false }

def Zne.reset : Zne :=
  { ns := [], zones := [], conv := [], seq := 0, stg := [], recResv := [],
    releasing := [], cache := [] }

def Plc.reset : Plc :=
  { classes := [], streams := [], stripes := [], opens := [], nextStripe := 0, folds := [], quiet := [], quietEnd := [], rdLog := [],
    peLog := [], score := [], token := 0, xteTok := 0, gFree := [], gBlocks := [], gPe := [], erasing := [],
    decisions := 0, waits := 0, spills := 0 }

end Sys2Proof.Machine
end

