-- ==== Sys2Proof/Machine/StateFabric.lean ====
section
/-! DEFINITION. State of the part's identity, the time base, the access matrix and cards, sessions, the service port, the
mailbox, the sideband and the Locket (chapters 00–03 and 20). -/
namespace Sys2Proof.Machine
open Sys2Proof

/-- What straps, fuses and assembly fix (R1, R3, R5, R122): set at manufacture or sampled at power-on. -/
structure Part where
  /-- SLN-7632: channels 32–63 are not present (R1). -/
  is7632  : Bool
  /-- Temperature grade E (R5). -/
  gradeE  : Bool
  /-- Port configuration: 0 A, 1 B, 2 C, 3 D (R122). -/
  cfg     : Nat
  /-- The 16 bytes of the device serial (BOT_SERIAL_k). -/
  serial  : List Byte
  /-- Mask ROM revision (BOT_ID.ROM_REV). -/
  romRev  : Nat
  /-- JESD79-5 DRAM data capacity in GiB (GET_CAPS). -/
  dramGib : Nat
  /-- Die positions without a usable die (R334). -/
  unpop    : List Nat
  /-- Dies whose page spare area is smaller than 2,048 bytes (R295). -/
  smallSpare : List Nat
  /-- Dies whose parameter page reports no program suspend, and those that report no erase suspend (R278). -/
  noSuspend : List Nat
  noEraseSuspend : List Nat := []
  /-- Channels whose PHY fails to train (R316). -/
  noTrain : List Nat := []
  /-- What the identity of a die reports where it differs from the part's others: planes, modes (bit 0 SLC, 1 TLC, 2 QLC), and its
  interface as CHS_BUS.IF codes it (R334). -/
  idPlanes : SMap Nat := []
  idModes  : SMap Nat := []
  idIf     : SMap Nat := []
  /-- What the dies' parameter pages report: blocks, planes, pages per block in SLC, TLC and QLC. -/
  dieBlocks : Nat
  diePlanes : Nat
  pagesSlc : Nat
  pagesTlc : Nat
  pagesQlc : Nat
  /-- The dies' interface as CHS_BUS.IF codes it, and the rate that training reaches, in MT/s. -/
  busIf    : Nat
  busRate  : Nat
  /-- FW_RECOVER_N is driven low (R549). -/
  recoverN : Bool
  /-- Fuse bits that fail their read-back, by counter number (R540). -/
  fuseBad  : List Nat
  /-- DRAM devices, by code group and device, that show raw mismatches in the pattern test (R409). -/
  badDev   : List (Nat × Nat)
  /-- The board description (R453): cells, C_NOM in 10 µF, VMIN in 10 mV, efficiency in %, R_LOAD in 0.1 Ω, target in 10 mV. -/
  bCells   : Nat
  bCnom    : Nat
  bVmin    : Nat
  bEff     : Nat
  bLoad    : Nat
  bTarget  : Nat
deriving DecidableEq, Repr

/-- The time base (R59–R62). Its status bits stand in TMB_STATUS. -/
structure Tmb where
  /-- Device time in ns (R13). -/
  time    : Nat
  /-- The stored time ceiling, in the control rows; none before the first is stored (R60). -/
  ceiling : Option Nat
  /-- The boot counter, in the control rows (R61). -/
  boots   : Nat
  /-- Device time when the crystal stopped, while it is stopped (R62). -/
  xtalStop : Option Nat
deriving DecidableEq, Repr

/-- One access-matrix entry (R96), the VALID bit aside: an entry that is listed is valid. -/
structure MatEntry where
  block    : Nat
  word     : Nat
  readSet  : Nat
  writeSet : Nat
  blind    : Bool
  fieldSet : Nat
  mask     : Nat
deriving DecidableEq, Repr

/-- A carded master (R88–R90). -/
structure Card where
  /-- The violation that carded it (R86). -/
  code    : Nat
  /-- 1 CARDED awaiting reset, 2 CARDED and reset. -/
  st      : Nat
  /-- Step 4 of R88 has ended. -/
  drained : Bool
  /-- Device time of the carding. -/
  time    : Nat
  /-- Codes already recorded since this carding (R90, second violation). -/
  codes   : List Nat
deriving DecidableEq, Repr

/-- The access matrix and the carded masters, by master ID (R87). -/
structure Acm where
  matrix : List MatEntry
  digest : List Byte
  cards  : SMap Card
deriving DecidableEq, Repr

/-- An SPDM session of the MANAGER or OFFICER class (R64–R68). -/
structure Session where
  path   : SPath
  cls    : Cls
  /-- Heartbeat period in seconds (R68). -/
  hbS    : Nat
  /-- Device time of the last heartbeat. -/
  beat   : Nat
  /-- Next SEQUENCE expected from the requester (R104). -/
  seqIn  : Nat
  /-- Next SEQUENCE of a response (R105). -/
  seqOut : Nat
  /-- Times the session's keys have been replaced by KEY_UPDATE (R109). -/
  keyGen : Nat
  /-- Key-store slots that hold the session's keys (R68). -/
  slots  : List Nat
deriving DecidableEq, Repr

/-- An SPDM exchange that KEY_EXCHANGE has begun and FINISH has not ended (R64, R65). -/
structure Handshake where
  path  : SPath
  id    : Nat
  hbS   : Nat
  slots : List Nat
deriving DecidableEq, Repr

/-- The last answer of the SPDM responder on a path (R109). -/
inductive SpdmAns where
  | version
  /-- The capability flags. -/
  | capabilities (flags : Nat)
  /-- The asymmetric, hash, key-exchange and AEAD algorithms chosen. -/
  | algorithms (asym hash dhe aead : Nat)
  /-- The mask of the slots provisioned, and the digest of each chain. -/
  | digests (slots : Nat) (d : List Byte)
  | certificate (chain : List Byte)
  | challengeAuth (sig : List Byte)
  | measurements (blocks : List Byte) (sig : List Byte)
  | keyExchangeRsp (id : Nat)
  | finishRsp (id : Nat) (c : Cls)
  | heartbeatAck
  | keyUpdateAck
  | endSessionAck
  | errUnsupported
  | errInvalid
  | errBusy
  | noAnswer
deriving DecidableEq, Repr

/-- The SPDM responder and its sessions. -/
structure Spdm where
  /-- Sessions in force, by session ID. -/
  sessions : SMap Session
  /-- Exchanges in progress. -/
  hands    : List Handshake
  /-- Next session ID to hand out. -/
  nextId   : Nat
  /-- Paths on which NEGOTIATE_ALGORITHMS has been answered. -/
  agreed   : List SPath
  /-- The responder's last answer. -/
  ans      : SpdmAns
deriving DecidableEq, Repr

/-- The service port (R92–R94). UNLOCKED, FAILS and BARRED stand in ACM_SVC_STATE. -/
structure Svc where
  /-- The challenge in force and the device time it was issued. -/
  challenge : Option (List Byte × Nat)
  /-- The bytes the last instruction shifts out. -/
  out       : List Byte
  /-- The bypass register is selected. -/
  bypass    : Bool
  /-- Boundary-scan instruction in force after an unlock. -/
  bscan     : Option Nat
  /-- An unlock has happened: from the next boot every namespace is as after a crypto-erase (R92). -/
  eraseAll  : Bool
deriving DecidableEq, Repr

/-- A mailbox response as the controller leaves it in the window (R98, R101). -/
structure Resp where
  opcode  : Nat
  flags   : BitVec 16
  tag     : Word
  session : Nat
  status  : Nat
  cls     : Cls
  /-- The payload before any session protection (R104). -/
  payload : List Byte
deriving DecidableEq, Repr

/-- An open volley (R113–R115). -/
structure Volley where
  inbound : Bool
  opcode  : Nat
  tag     : Word
  total   : Nat
  /-- Inbound: the bytes accepted. Outbound: the bytes still to send. -/
  data    : List Byte
  /-- Outbound: bytes already sent. -/
  sent    : Nat
  /-- Class and session of the request that opened it. -/
  cls     : Cls
  session : Nat
  /-- BLIND of the outbound data. -/
  blind   : Bool
  /-- Device time of the last segment. -/
  last    : Nat
  /-- Outbound SIGNET_READ and LOCKET_READ: the entries or records returned, each with the byte of the volley past its end (R501, R586). -/
  ents    : List (Nat × Nat) := []
deriving DecidableEq, Repr

/-- One Vocel channel, or the sideband endpoint (R98–R103). -/
structure Chan where
  /-- FLAGS.GO: the controller owns the channel. -/
  go     : Bool
  /-- The bytes the host wrote, from window offset 0; bytes past the end are 0. -/
  win    : List Byte
  /-- Received length (R102). -/
  rcvd   : Nat
  resp   : Option Resp
  volley : Option Volley
deriving DecidableEq, Repr

/-- A key request that waits for a buffer to come free, with its requester (R460). -/
structure KeyWait where
  ch      : Nat
  opcode  : Nat
  slot    : Nat
  payload : List Byte
  rq      : Rq
  cls     : Cls
  since   : Nat
deriving DecidableEq, Repr

/-- The mailbox (R98–R118). MBX_BIND_p_c holds the bindings; MSI-X messages are counted by port × 2,048 + vector. -/
structure Mbx where
  chans  : SMap Chan
  waits  : List KeyWait
  /-- The last MCTP or NVMe-MI answer of the sideband endpoint (R106, R107). -/
  sbAns  : List Byte
  /-- The last DOE answer, and whether the DOE error bit is set, by port (R108). -/
  doe    : SMap (List Byte × Bool)
deriving DecidableEq, Repr

/-- A Locket record (R575), with its index. -/
structure LktRec where
  code : Nat
  idx  : Nat
  boot : Nat
  time : Nat
  p1   : Nat
  p2   : Nat
  p3   : Nat
  p4   : Nat
deriving DecidableEq, Repr

/-- A programmed slot of the Locket area (R579, R580, R582). -/
inductive LktSlot where
  | record (r : LktRec)
  | seal (boot time crc first count : Nat) (late : Bool)
  | torn
deriving DecidableEq, Repr

/-- A freeze in force (R583). -/
structure LktFreeze where
  session : Nat
  /-- Index at the freeze (R587). -/
  start   : Nat
  endTime : Nat
  lost0   : Nat
deriving DecidableEq, Repr

/-- The Locket recorder (R575–R583). -/
structure Lkt where
  /-- Index the next record receives (R576). -/
  next    : Nat
  /-- Every index below this lies in the Clasp area (R585). -/
  flushed : Nat
  /-- The on-die ring, oldest first. -/
  ring    : List LktRec
  /-- The side buffer, oldest first. -/
  side    : List LktRec
  freeze  : Option LktFreeze
  /-- Programmed slots of the Clasp area, by slot number. -/
  area    : SMap LktSlot
  /-- The next slot to program. -/
  head    : Nat
  /-- Segments whose CRC failed at this boot (R582). -/
  bad     : List Nat
  /-- Records accepted from each source in this epoch (R577). -/
  rate    : SMap Nat
  /-- Records suppressed from each source in this epoch. -/
  supp    : SMap Nat
  /-- Records lost since the last LOST record (R578). -/
  lostNew : Nat
  /-- A flush in progress: first index it covers, records, and the slot its seal will take. -/
  flush   : Option (Nat × Nat)
  /-- A flush is due because a freeze has ended (R583). -/
  due     : Bool
deriving DecidableEq, Repr

/-- The control fabric: the answer of the last access (R34–R36), and the memories it reaches (R33). -/
structure Fab where
  status : Nat
  value  : Nat
  blind  : Bool
  /-- Bytes of the tightly coupled SRAM and of the slab SRAM by fabric address, and of DRAM by 2^40 + DRAM address, outside the
  tables the controller keeps there: a byte that is not listed reads 0 (notes/assumptions/41.md). -/
  mem    : SMap Byte
  /-- Stopped core pairs whose tasks have been passed on (R56). -/
  passed : List Nat
deriving DecidableEq, Repr

def Chan.reset : Chan := { go := false, win := [], rcvd := 0, resp := none, volley := none }

def Part.reset : Part :=
  { is7632 := false, gradeE := false, cfg := 0, serial := List.replicate 16 0, romRev := 0, dramGib := 128, unpop := [], smallSpare := [], noSuspend := [],
    dieBlocks := 4096, diePlanes := 4, pagesSlc := 1904, pagesTlc := 5712, pagesQlc := 7616, busIf := 1, busRate := 4800, recoverN := false, fuseBad := [], badDev := [],
    bCells := 8, bCnom := 2200, bVmin := 1400, bEff := 85, bLoad := 100, bTarget := 3500 }

def Tmb.reset : Tmb := { time := 0, ceiling := none, boots := 0, xtalStop := none }

def Acm.reset : Acm := { matrix := [], digest := [], cards := [] }

def Spdm.reset : Spdm := { sessions := [], hands := [], nextId := 1, agreed := [], ans := .noAnswer }

def Svc.reset : Svc := { challenge := none, out := [], bypass := true, bscan := none, eraseAll := false }

def Mbx.reset : Mbx := { chans := [], waits := [], sbAns := [], doe := [] }

def Lkt.reset : Lkt :=
  { next := 0, flushed := 0, ring := [], side := [], freeze := none, area := [], head := 0, bad := [], rate := [],
    supp := [], lostNew := 0, flush := none, due := false }

def Fab.reset : Fab := { status := 0, value := 0, blind := false, mem := [], passed := [] }

end Sys2Proof.Machine
end

