-- ==== Sys2Proof/Machine/StateFlash.lean ====
section
/-! DEFINITION. State of the deadline scheduler, the flash media, the channel sequencers, the buffer pools and the DRAM
controller (chapters 08–12). -/
namespace Sys2Proof.Machine
open Sys2Proof

/-- An operation of the DSC block (R264–R268). -/
structure DOp where
  id       : Nat
  /-- 0 read, 1 program, 2 erase. -/
  kind     : Nat
  /-- Owning slice; none for device work. -/
  owner    : Option Nat
  iso      : Bool
  mode     : Nat
  /-- Physical block. -/
  block    : Nat
  page     : Nat
  /-- Unit position of a read. -/
  unit     : Nat
  deadline : Nat
  /-- Latency class 0–3. -/
  cls      : Nat
  flush    : Bool
  /-- The program holds staged host data (R266). -/
  staged   : Bool
  urgent   : Bool
  /-- The host command and unit that a read serves. -/
  host     : Option (Nat × Nat)
  /-- The rebound whose member read this is. -/
  rebound  : Option Nat
  /-- Umpire call slot (R270). -/
  call     : Option Nat
  /-- Device time at which its cycles on the bus started, or at which it last resumed. -/
  started  : Nat
  /-- Time run on the bus and in the array before the last resume, in ns. -/
  ran      : Nat
  /-- Suspends taken, and total suspended time in ns (R278). -/
  susp     : Nat
  suspNs   : Nat
deriving DecidableEq, Repr

/-- A read of background work: a copy's source unit (R306), with its owner, class and deadline (R266), and how far it has come. -/
structure BgRead where
  die      : Nat
  block    : Nat
  page     : Nat
  pos      : Nat
  nsid     : Nat
  unit     : Nat
  slice    : Nat
  cls      : Nat
  deadline : Nat
  st       : CuSt
  /-- The decoder that holds its codeword (R259). -/
  dec      : Nat
  /-- The segment of a self-test that reads it; 0 for a copy's source (R155). -/
  test     : Nat := 0
  /-- SEQ_CHK of the map entry of a conventional unit (R223, R303). -/
  chk      : Option Nat := none
deriving DecidableEq, Repr

/-- A rebound read in progress (R282). -/
structure Rebound where
  host      : Nat × Nat
  die       : Nat
  block     : Nat
  page      : Nat
  unit      : Nat
  mode      : Nat
  owner     : Option Nat
  cls       : Nat
  deadline  : Nat
  mandatory : Bool
  /-- Dies whose member reads have not arrived, and dies whose codeword waits for a decoder. -/
  waiting   : List Nat
  arrived   : List Nat
  /-- The decoder, 0 or 1 of its channel's, that holds the codeword of each of them (R259). -/
  decs      : SMap Nat := []
  /-- Exclusive or of the information bytes of the members decoded. -/
  acc       : Nat
  /-- A member failed to decode or was lost. -/
  failed    : Bool
deriving DecidableEq, Repr

/-- The deadline scheduler. -/
structure Dsc where
  /-- Queued operations by die, in the order of R268. -/
  queues  : SMap (List DOp)
  /-- Operations issued to a die that have not started; a joined program lists its programs (R269). -/
  sent    : SMap (List DOp)
  /-- Operations running on a die. -/
  run     : SMap (List DOp)
  /-- The suspended operation of a die, and the device time at which the suspend took effect. -/
  susp    : SMap (List DOp × Nat)
  /-- Dies with a suspend request, and dies with a resume request, pending at the sequencer. -/
  asked   : List Nat
  back    : List Nat
  rebounds : SMap Rebound
  /-- Background reads by identifier. -/
  bg      : SMap BgRead := []
  nextId  : Nat
  /-- Rebound tokens drive-wide and by isolated slice (R286, R287). -/
  tokens  : Nat
  isoTok  : SMap Nat
  /-- Page reads of this epoch, drive-wide and by isolated slice. -/
  reads   : Nat
  isoReads : SMap Nat
  /-- Latency bins by class × 32 + bin (R293). -/
  bins    : SMap Nat
  /-- Programs of staged host data are urgent (R267). -/
  urgent  : Bool
  /-- The priority token that orders equals, by pool entry: it stands after the entry of the last operation issued (R268). -/
  tok     : Nat := 0
  /-- Operations that wait for an entry, by die, oldest first (R268). -/
  parked  : SMap (List DOp) := []
  /-- The call of the operation that each die has selected for issue, and by die + 4,096 that of a read in its suspend (R270). -/
  picked  : SMap Nat := []
deriving DecidableEq, Repr

/-- One physical block. Key: die × 2^20 + block. -/
structure Blk where
  /-- P/E count in quarters (R309). -/
  pe      : Nat
  mode    : Nat
  /-- Repairs within this P/E cycle (R305). -/
  repairs : Nat
  retired : Bool
  spare   : Bool
deriving DecidableEq, Repr

/-- A copy in progress (R306): why it runs, and its source stripe block. It ends when the source block is released (step 5). -/
structure Copy where
  /-- 0 fold, 1 collection, 2 wear levelling, 3 refresh, 4 repair, 5 rebuild, 6 held group. -/
  why   : Nat
  group : Nat
  block : Nat
deriving DecidableEq, Repr

/-- A rebuild after a lost member (R318). -/
structure Rebuild where
  die   : Nat
  since : Nat
  /-- Units that it has to copy, as it begins. -/
  total : Nat := 0
deriving DecidableEq, Repr

/-- A stripe block in use: its mode, valid units, whether it holds conventional data or SLC staging, and whether it is
closed (R240, R254, R308). -/
structure SbUse where
  mode    : Nat
  valid   : Nat
  conv    : Bool
  staging : Bool
  full    : Bool
  /-- Written in 7+1 stripes. -/
  par7    : Bool
  /-- The stream whose stripes it holds (R240). -/
  key     : Option Nat := none
deriving DecidableEq, Repr

/-- A journal record (R323): its body as 64-bit numbers, the isolated slice that caused it (R448), and the stripe blocks, group and block,
that hold units it makes invalid (R325). -/
structure JRec where
  type : Nat
  seq  : Nat
  body : List Nat
  iso  : Option Nat
  holds : List (Nat × Nat) := []
deriving DecidableEq, Repr

/-- A journal stripe block (R325): its newest record's SEQ and the stripe blocks whose erase it waits for. -/
structure JBlk where
  newest : Nat
  waits  : List (Nat × Nat)
deriving DecidableEq, Repr

/-- A metadata unit on flash (R321): a chunk of a checkpoint cycle, or journal records; its SEQ, its content, its two copies, and the
records that its content spells. -/
structure MetaUnit where
  chunk   : Option Nat
  seq     : Nat
  payload : Nat
  copies  : List Loc
  recs    : List JRec := []
deriving DecidableEq, Repr

/-- An SLC stripe block open for one copy of the metadata: the next unit's number, and the members gone when it was opened. -/
structure MetaOpen where
  group : Nat
  block : Nat
  next  : Nat
  gone  : List Nat
deriving DecidableEq, Repr

/-- The flash media and their management. -/
structure Med where
  /-- Programmed pages: information bytes of the four unit positions. Key: (die × 2^20 + block) × 2^13 + page. -/
  pages   : SMap (List Nat)
  blocks  : SMap Blk
  /-- Replaced entries of the stripe-block tables: key (group × 2^20 + stripe block) × 16 + member. -/
  table   : SMap Nat
  /-- Retired member blocks whose pages are still read, by the same key (R50, R307). -/
  old     : SMap Nat := []
  /-- Stripe blocks in use: key group × 2^20 + block. -/
  inUse   : SMap SbUse
  /-- Physical data members and parity member of stripes written without a lost member (R299), by stripe key. -/
  layouts : SMap (List Nat × Nat)
  /-- Stripe blocks being erased: members whose erase has not ended. -/
  erasing : SMap (List Nat)
  /-- Dropped stripe blocks (R311). -/
  dropped : List Nat
  /-- State of a die as LDC_MED_V_DIE shows it, 0 not listed. -/
  dies    : SMap Nat
  /-- Consecutive timeouts by die, and retirements with their device times (R316). -/
  timeouts : SMap Nat
  recent  : SMap (List Nat)
  /-- Spare blocks remaining by die, where fewer or more than were set aside. -/
  spares  : SMap Nat
  /-- Spare blocks each die set aside at first power-up (R313). -/
  spareInit : Nat
  retired : SMap Nat
  /-- Channels lost. -/
  chans   : List Nat
  /-- Dies lost with their channel, and the blocks that those being restored have still to erase (R320). -/
  withChan : List Nat
  restoring : SMap (List Nat) := []
  /-- Groups whose rebuild has not ended: key group; members lost. -/
  losses  : SMap (List Nat)
  rebuilds : List Rebuild
  copies  : List Copy
  /-- Lost units by namespace × 2^50 + unit (R304). -/
  lost    : List Nat
  /-- Journal tail in DRAM, oldest first, and journal blocks on flash. -/
  tail    : List JRec
  jblks   : SMap JBlk
  /-- Journal units written since the checkpoint cycle began (R322). -/
  jrnUnits : Nat
  /-- Checkpoint cycle: begun at, SEQ at its begin, cycles ended, anchor of the last. -/
  ckptAt  : Nat
  ckptSeq : Nat
  anchors : Nat
  /-- The newest anchor: the cycle's first chunk, and the journal position (R322). -/
  anchor  : Option (Nat × Nat) := none
  /-- Metadata units on flash by number, the next number, and the stripe block open for each copy (R321). -/
  metas   : SMap MetaUnit := []
  nextMeta : Nat := 0
  metaOpen : SMap MetaOpen := []
  /-- Largest SEQ stamped by a completed cycle. -/
  ckptDone : Nat
  /-- Emergency units to restore at boot (R326), the units written in the emergency blocks since they were erased, and the SEQ of the newest
  record among them (R324). -/
  emg     : List Nat
  emgNext : Nat := 0
  emgSeq  : Nat := 0
  /-- The SEQ at which a namespace was last emptied whole: units and records up to it are none of its (R323 DEFINITION, R329). -/
  since   : SMap Nat := []
  /-- The loss hold of R314 stands. -/
  hold    : Bool
  /-- Tables are rebuilt (R327). -/
  rebuilt : Bool
deriving DecidableEq, Repr

/-- A data reference of a descriptor: none, a slab buffer handle, a DRAM address (R337). -/
inductive DRef where
  | none
  | slab (h : Nat)
  | dram (a : Nat)
deriving DecidableEq, Repr

/-- A sequencer descriptor (R337). -/
structure Desc where
  op     : Nat
  flags  : Nat
  die    : Nat
  mode   : Nat
  tag    : Nat
  block  : Nat
  page   : Nat
  units  : Nat
  step   : Nat
  call   : Nat
  owner  : Nat
  param  : Nat
  data   : List DRef
  param2 : Nat
deriving DecidableEq, Repr

/-- A completion entry (R345). -/
structure CEnt where
  tag    : Nat
  status : Nat
  die    : Nat
  op     : Nat
  array  : Nat
  flags  : Nat
  susp   : Nat
  dstat  : Nat
  /-- The die reported a fatal status (R316). -/
  fatal  : Bool := false
deriving DecidableEq, Repr

/-- A die context (the list before R348). -/
structure DieCtx where
  /-- The descriptor served and, for a joined program, those that join it. -/
  chain  : List Desc
  addr   : Nat
  /-- W0–W7. -/
  w      : List Nat
  cnt    : Nat
  timer  : Nat
  stack  : List Nat
  vis    : Bool
  commit : Bool
  /-- STATUS last set, if any. -/
  status : Option Nat
  dstat  : Nat
  /-- Device time at which the array phase began. -/
  began  : Nat
  susp   : Nat
  /-- The queue that the descriptor stood in (R353). -/
  queue  : Nat := 1
  /-- Array time measured, in ns (R345), device time of the last yield point (R350). -/
  array  : Nat := 0
  yieldAt : Nat := 0
  /-- Device time at which the WAIT that the context is in expires, and whether the last one expired (R349). -/
  wait   : Option Nat := none
  expired : Bool := false
  /-- The retry table entry that the routine has applied (R355). -/
  level  : Option Nat := none
deriving DecidableEq, Repr

/-- A sequence-table entry (R342). -/
structure SeqEnt where
  block : Nat
  mode  : Nat
  next  : Nat
deriving DecidableEq, Repr

/-- One channel sequencer. Its registers stand in the CHS window. -/
structure Chs where
  /-- The four descriptor queues (R335). -/
  q0     : List Desc
  q1     : List Desc
  q2     : List Desc
  q3     : List Desc
  /-- Running contexts and suspended slots, by die position. -/
  ctx    : SMap DieCtx
  slot   : SMap DieCtx
  /-- Sequence-table entries by die position × 64 + entry. -/
  seq    : SMap SeqEnt
  /-- What firmware has loaded into entries that are not in use (R344). -/
  seqIdle : SMap SeqEnt := []
  fifo   : List CEnt
  /-- Completion entries that wait for room in the FIFO (R346). -/
  ovr   : List CEnt
  /-- Die position whose context holds the channel bus; contexts that want it. -/
  bus    : Option Nat
  want   : List Nat
  /-- Priority token of the bus (R353). -/
  token  : Nat
  /-- Control store: customer words from 6,144 on, and the digest of the whole store as measured at boot. -/
  code   : List Nat
  digest : List Byte
  /-- Entry-table words that the customer image defines (R354). -/
  entries : Nat := 0
  /-- The context that the engine executes, where the last word was no yield point and does not wait (R349). -/
  cur    : Option Nat := none
  /-- How each die selects a block's mode: the vendor routine table that firmware recorded at initialisation (R333). -/
  methods : List Nat := []
  /-- Machine check in force (R358). -/
  mc     : Bool
deriving DecidableEq, Repr

/-- The sequencers and the completion collector. -/
structure Flash where
  chs     : SMap Chs
  /-- Priority token of the collector (R347). -/
  token   : Nat
  /-- LUN features set, by (channel × 32 + die) × 65,536 + address. -/
  feats   : SMap Nat
  /-- The data that each die last returned for a register read, by channel × 32 + die. -/
  data    : SMap (List Nat)
  /-- What was last burst out to each die, and the command bytes last issued to it (R333). -/
  sent    : SMap (List Nat) := []
  cmds    : SMap (List Nat) := []
  /-- Results forwarded to the poster of a descriptor, in the order collected: channel, entry (R347). -/
  results : List (Nat × CEnt) := []
deriving DecidableEq, Repr

/-- A buffer that has been allocated at least once (R363–R385). Key: pool × 2^20 + index. -/
structure Buf where
  /-- 0 free and zeroed, 1 allocated, 2 being zeroed, 3 quarantined, 4 withdrawn until the next boot (R406). -/
  st     : Nat
  /-- Holder: master ID. -/
  holder : Nat
  acct   : Nat
  gen    : Nat
  /-- Device time of the allocation. -/
  since  : Nat
  /-- Index of the next member of its chain. -/
  link   : Option Nat
  /-- Head of a chain, or a single buffer. -/
  head   : Bool
  long   : Bool
  /-- A squash has taken it while a running descriptor references it (R381). -/
  taken  : Bool := false
  /-- Consecutive audit passes over the age limit, and whether its leak has been recorded (R385). -/
  marks  : Nat
  told   : Bool
deriving DecidableEq, Repr

/-- A requester waiting for a buffer (R374); `quota` when its account's LIMIT bars it. -/
structure BufWait where
  id      : Nat
  size    : Nat
  acct    : Nat
  cls     : Nat
  nochain : Bool
  long    : Bool
  pool    : Nat
  quota   : Bool
deriving DecidableEq, Repr

/-- The buffer pool manager. -/
structure Bpm where
  bufs   : SMap Buf
  /-- RESERVE and LIMIT by account × 4 + pool; not listed: 0. -/
  rsv    : SMap Nat
  lim    : SMap Nat
  waits  : List BufWait
  /-- Threshold signals raised, by pool × 4 + class (R378); loss signals by class: the pool last tried (R379). -/
  press  : List Nat
  loss   : SMap Nat
  /-- Age of the oldest at the last pass by account × 4 + pool, and leaks by account (R384, R385). -/
  oldest : SMap Nat
  leaks  : SMap Nat
  /-- Status and handle of the last request. -/
  last   : Nat × Nat
deriving DecidableEq, Repr

/-- The gather window (R394). -/
structure Gather where
  kind : Nat
  /-- Device time of the last step. -/
  last : Nat
deriving DecidableEq, Repr

/-- The DRAM controller and memory engine. -/
structure Dmc where
  gather  : Option Gather
  /-- Refreshes owed by rank (R398). -/
  owed    : SMap Nat
  /-- Target rate point of a speed change in progress. -/
  change  : Option Nat
  /-- Ranks at twice the rate whose last poll found every device below the 2× band (R400). -/
  cool    : List Nat
  /-- Device times of corrected codewords, and of corrections over ≥ 3 symbols, by group × 16 + device (R405). -/
  ces     : SMap (List Nat)
  devs    : SMap (List Nat)
  /-- Mode register 4 band of each rank as last read (R400). -/
  band    : SMap Nat
  /-- Words known to be uncorrectable: one Locket record each (R410). -/
  ues     : List Nat
  /-- What the injector has left in a word, by the word's key: the device and its symbols, or the bits (R408). -/
  flips   : SMap (Nat × Nat) := []
  /-- The delay words in effect at the rate point in use, by rank × 64 + lane; not listed: 0 (R392). -/
  delays  : SMap Nat := []
  /-- Bytes left of each real-time request, oldest first (R397). -/
  rt      : List Nat := []
  /-- Class and bytes left of each normal request, in order; the scrubber's is class 4 (R397). -/
  nrm     : List (Nat × Nat) := []
  /-- Consecutive real-time bursts since the last normal one (R397). -/
  streak  : Nat := 0
deriving DecidableEq, Repr

def Dsc.reset : Dsc :=
  { queues := [], sent := [], run := [], susp := [], asked := [], back := [], rebounds := [], nextId := 1, tokens := 0, isoTok := [], reads := 0,
    isoReads := [], bins := [], urgent := false }

def Med.reset : Med :=
  { pages := [], blocks := [], table := [], inUse := [], layouts := [], erasing := [], dropped := [], dies := [], timeouts := [], recent := [],
    spares := [], spareInit := 0, retired := [], chans := [], withChan := [], losses := [], rebuilds := [], copies := [], lost := [],
    tail := [], jblks := [], jrnUnits := 0, ckptAt := 0, ckptSeq := 0, anchors := 0, ckptDone := 0, emg := [],
    hold := true, rebuilt := false }

def Chs.reset : Chs :=
  { q0 := [], q1 := [], q2 := [], q3 := [], ctx := [], slot := [], seq := [], fifo := [], ovr := [], bus := none, want := [],
    token := 0, code := [], digest := [], mc := false }

def Flash.reset : Flash := { chs := [], token := 0, feats := [], data := [] }

def Bpm.reset : Bpm := { bufs := [], rsv := [], lim := [], waits := [], press := [], loss := [], oldest := [], leaks := [], last := (0, 0) }

def Dmc.reset : Dmc :=
  { gather := none, owed := [], change := none, cool := [], ces := [], devs := [], band := [], ues := [] }

end Sys2Proof.Machine
end

