-- ==== Sys2Proof/Machine/StatePower.lean ====
section
/-! DEFINITION. State of the Umpire and the supply guard (chapters 13, 14). -/
namespace Sys2Proof.Machine
open Sys2Proof

/-- A call (R423). Accounts are slice IDs; 1,024 is the device account (R425). -/
structure Call where
  /-- 0 SINGLE, 1 GROUP, 2 FLUSH. -/
  kind    : Nat
  gen     : Nat
  /-- Cost in tokens by account, in the order the shares fall due (R425). -/
  shares  : List (Nat × Nat)
  die     : Nat
  /-- Operation of R421: 0 READ, 1 SENSE, 2 PROGRAM, 3 ERASE, 4 RESUME. -/
  op      : Nat
  /-- ICC held, and the ICCQ its channel needs, in mA. -/
  icc     : Nat
  iccq    : Nat
  /-- The isolated slice whose dedicated group holds the die. -/
  iso     : Option Nat
  cls     : Nat
  deadline : Nat
  /-- Device time of the request. -/
  since   : Nat
  granted : Bool
  /-- Epoch of the grant. -/
  epoch   : Nat
  /-- Blocks later calls of its pool (R424). -/
  hol     : Bool
deriving DecidableEq, Repr

/-- The Umpire. -/
structure Ump where
  /-- Calls by slot (R423), and the generation each slot last had. -/
  calls   : SMap Call
  gens    : SMap Nat
  /-- Floor or reserve of this epoch by account, its unspent part, and the pool left (R428). -/
  floor   : SMap Nat
  left    : SMap Nat
  pool    : Nat
  /-- Tokens of this epoch (R413). -/
  tokens  : Nat
  /-- Tokens charged in this epoch and in the last one: total, and by account. -/
  used    : Nat
  usedBy  : SMap Nat
  lastUsed : Nat
  lastBy  : SMap Nat
  /-- Highest granted sums of this epoch and the last, in mA; GROUP calls refused. -/
  iccMax  : Nat
  iccqMax : Nat
  lastIcc : Nat
  lastIccq : Nat
  refused : Nat
  lastRefused : Nat
  /-- Waits granted in this epoch by op: sum in ns and number. -/
  waits   : SMap (Nat × Nat)
  /-- Hold-up mode (R431). -/
  holdup  : Bool
  /-- Points between which the running change moves, and whether FAULT bars changes. -/
  fromPp  : Nat
  /-- BUDGET_UNMET holds in this epoch. -/
  unmet   : Bool
  /-- Epochs in a row with a high sensed current (R422). -/
  high    : Nat
  /-- Since the last thermal step a hot reading, or a reading not below the lower bound, was seen (R429). -/
  hot     : Bool
  warm    : Bool
  /-- Reserved VCC current by isolated slice, in mA. -/
  resIcc  : SMap Nat
  /-- The planner has raised the offset of the point in use: the next epoch start applies it (R560). -/
  ageNew  : Bool
  /-- The priority token that orders equal calls, by slot: it stands after the slot of the last call granted (R424). -/
  tok     : Nat := 0
deriving DecidableEq, Repr

/-- A record the SGD holds for the LKT block (R613). -/
structure HeldRec where
  event : Nat
  time  : Nat
  p1    : Nat
  p2    : Nat
  p3    : Nat
  p4    : Nat
deriving DecidableEq, Repr

/-- A disturbance class in force (R436): device time of entry and the extreme input so far, in 10 mV (mV for ripple). -/
structure Dist where
  since : Nat
  extreme : Nat
  /-- In force at a power-up of the Clasp die: no entry was recorded, so no end is. -/
  silent  : Bool
deriving DecidableEq, Repr

/-- The supply guard. Voltages in 10 mV. -/
structure Sgd where
  /-- Classes in force: 1 sag, 2 brown-out, 3 dropout, 4 surge, 5 ripple. -/
  dist    : SMap Dist
  /-- Device time since which the input has been nominal. -/
  nominal : Nat
  /-- Power-fail asserted, and the step of R54 reached: 0 none, 1–8. -/
  pfail   : Bool
  step    : Nat
  /-- Device time of step 1, D at step 1, cause. -/
  failAt  : Nat
  dirtyAt : Nat
  cause   : Nat
  /-- SG_FAIL_N is driven low. -/
  sgFail  : Bool
  /-- COMPUTE_PWR_EN, COMPUTE_PGOOD and its rise, and compute die released from reset (R599). -/
  pwrEn   : Bool
  pgood   : Bool
  pgoodAt : Nat
  released : Bool
  /-- Device time at which charging began, while it runs. -/
  chgAt   : Option Nat
  /-- A test is requested and waits for its conditions (R443). -/
  want    : Bool
  /-- V0, V1 and the device time of the V1 sample; 0 before. -/
  v0      : Nat
  v1      : Nat
  v1At    : Nat
  loadAt  : Nat
  /-- Device time of the last test's start. -/
  lastTest : Nat
  /-- Device time of a retest after CELL_LOSS (R442). -/
  retest  : Option Nat
  /-- The last measured capacitance before this one. -/
  everTested : Bool
  /-- Dropouts of the last 60 s (R451). -/
  drops   : List Nat
  /-- Device time at which the input last returned past RESTART. -/
  back    : Option Nat
  /-- Held records and how many could not be held (R613). -/
  held    : List HeldRec
  heldLost : Nat
  /-- Bit 4 of the critical warning: the last test failed (R442). -/
  bad     : Bool
  /-- The charger is stopped until the bank has fallen below the target (R439). -/
  ov      : Bool
  /-- The bank readings of the last 1 ms with their device times, newest first (R444). -/
  lows    : List (Nat × Nat) := []
  /-- The lowest input since power-fail was asserted (R450). -/
  low     : Nat := 0
deriving DecidableEq, Repr

def Ump.reset : Ump :=
  { calls := [], gens := [], floor := [], left := [], pool := 0, tokens := 0, used := 0, usedBy := [], lastUsed := 0,
    lastBy := [], iccMax := 0, iccqMax := 0, lastIcc := 0, lastIccq := 0, refused := 0, lastRefused := 0, waits := [],
    holdup := false, fromPp := 0, unmet := false, high := 0, hot := false, warm := false, resIcc := [], ageNew := false }

def Sgd.reset : Sgd :=
  { dist := [], nominal := 0, pfail := false, step := 0, failAt := 0, dirtyAt := 0, cause := 0, sgFail := false,
    pwrEn := false, pgood := false, pgoodAt := 0, released := false, chgAt := none, want := false, v0 := 0, v1 := 0,
    v1At := 0, loadAt := 0, lastTest := 0, retest := none, everTested := false, drops := [], back := none, held := [],
    heldLost := 0, bad := false, ov := false, lows := [], low := 0 }

end Sys2Proof.Machine
end

