-- ==== Sys2Proof/Machine/StateSecure.lean ====
section
/-! DEFINITION. State of the cipher engines, the key store, the digest and public-key engines and the Signet ledger
(chapters 15, 16). -/
namespace Sys2Proof.Machine
open Sys2Proof

/-- A key-store slot (R459, R460): attributes and two buffers of 64 bytes. Slots that are not listed are EMPTY and as new. -/
structure KSlot where
  /-- 0 EMPTY, 1 LOADED, 2 BOUND, 3 ERASING, 4 REVOKING. -/
  st     : Nat
  /-- 0 none, 1 IDENTITY, 2 KEK, 3 SESSION, 4 MEDIA. -/
  typ    : Nat
  /-- 0 none, 1 generated, 2 imported, 3 derived. -/
  origin : Nat
  active : Nat
  gen    : Nat
  slice  : Nat
  nsid   : Nat
  buf0   : List Byte
  buf1   : List Byte
deriving DecidableEq, Repr

/-- A key record in the identity area (R471), both copies: the KEK it is wrapped under, and the material it holds. -/
structure KRec where
  bound    : Bool
  erasing  : Bool
  slice    : Nat
  nsid     : Nat
  gen      : Nat
  kek      : List Byte
  material : List Byte
deriving DecidableEq, Repr

/-- The key store and the cipher engines. -/
structure Kst where
  slots : SMap KSlot
  /-- Valid key records by slot. -/
  recs  : SMap KRec
  mgrAnchor : Option (List Byte)
  ofcAnchor : Option (List Byte)
  /-- The KEK seed in the identity area (R470). -/
  seed  : Option (List Byte)
  /-- Draws taken from the DRBG. -/
  draws : Nat
  /-- XTE instances retired until the next boot (R466), and the device times of faults by instance. -/
  xteOut : List Nat
  xteFaults : SMap (List Nat)
  /-- PVE instances retired, and the device times of their faults (R469). -/
  pveOut : List Nat
  pveFaults : SMap (List Nat)
  /-- Status and bytes of the last PVE operation (R467, R468). -/
  pveAns : Nat × List Byte
  /-- Crypto-erases that run, by namespace: device time of acceptance (R476). -/
  erases : SMap Nat
  /-- Key-record positions written since their sector was erased, oldest first: a valid record's slot, or none for a revoked
  one (R533). Both copies hold the same. -/
  recLog : List (Option Nat)
deriving DecidableEq, Repr

/-- A request of the digest engine (R485), with the pair that posted it. -/
structure DgeReq where
  pair    : Nat
  op      : Nat
  flags   : Nat
  ctx     : Nat
  keysrc  : Nat
  keyslot : Nat
  dst     : Nat
  len     : Nat
  handle  : Nat
  offset  : Nat
deriving DecidableEq, Repr

/-- A saved state of the digest engine (R488): operation, key and the bytes taken so far, and the pair that owns it. -/
structure DgeCtx where
  op    : Nat
  key   : List Byte
  msg   : List Byte
  owner : Nat
deriving DecidableEq, Repr

/-- The digest and public-key engines. -/
structure Dge where
  /-- Requests that wait, in order of arrival. -/
  queue  : List DgeReq
  /-- Requests that run, by instance. -/
  run    : SMap DgeReq
  /-- Preempted work, by context slot 14 or 15. -/
  held   : SMap DgeReq
  /-- Context slots 0–13 that hold a state. -/
  ctx    : SMap DgeCtx
  /-- The reader whose bytes the running snoop hashes, by master number, and those bytes (R486). -/
  snoop  : Option (Nat × List Byte)
  /-- Pairs whose PKE request waits or runs, in order of arrival (R489). -/
  pkeQ   : List Nat
  /-- The last output of the PKE for each pair. -/
  pkeOut : SMap (List Byte)
deriving DecidableEq, Repr

/-- A ledger entry in the ring (R491). Key: the cell it begins on. -/
structure SEntry where
  typ      : Nat
  eflags   : Nat
  idx      : Nat
  boot     : Nat
  time     : Nat
  keyId    : List Byte
  first    : Nat
  prev     : List Byte
  items    : List MItem
  settings : List Byte
  reason   : Nat
  state    : Nat
  sig      : List Byte
  /-- The commit word is programmed (R495). -/
  done     : Bool
deriving DecidableEq, Repr

/-- The Signet ledger (R491–R500). -/
structure Sgn where
  ents   : SMap SEntry
  /-- Cell at which the next entry begins. -/
  head   : Nat
  /-- Index of the next entry, and digest of the newest committed one. -/
  next   : Nat
  last   : List Byte
  /-- The pending area, in the order written (R498). -/
  pend   : List MItem
  /-- The cell of an append that runs. -/
  app    : Option Nat
  /-- Alias certificate store: key ID, public key and certificate (R484). -/
  certs  : List (List Byte × List Byte × List Byte)
  /-- The certificate of this boot kept in memory only, when the store was full. -/
  spare  : Option (List Byte × List Byte × List Byte)
  /-- Key ID of the Alias key of this boot, and the public keys of the Alias and DeviceID keys. -/
  keyId  : List Byte
  aliasPub : List Byte
  devPub : List Byte
  /-- Segments compacted since the first boot (R501). -/
  compactions : Nat
deriving DecidableEq, Repr

def KSlot.empty : KSlot :=
  { st := 0, typ := 0, origin := 0, active := 0, gen := 0, slice := 0xFFFF, nsid := 0, buf0 := List.replicate 64 0,
    buf1 := List.replicate 64 0 }

def Kst.reset : Kst :=
  { slots := [], recs := [], mgrAnchor := none, ofcAnchor := none, seed := none, draws := 0, xteOut := [], xteFaults := [],
    pveOut := [], pveFaults := [], pveAns := (0, []), erases := [], recLog := [] }

def Dge.reset : Dge := { queue := [], run := [], held := [], ctx := [], snoop := none, pkeQ := [], pkeOut := [] }

def Sgn.reset : Sgn :=
  { ents := [], head := 0, next := 0, last := List.replicate 48 0, pend := [], app := none, certs := [], spare := none,
    keyId := List.replicate 8 0, aliasPub := [], devPub := [], compactions := 0 }

end Sys2Proof.Machine
end

