-- ==== Sys2Proof/Machine/StateKeep.lean ====
section
/-! DEFINITION. State of the Clasp store, boot and update, ageing and sensors (chapters 17–19, 21). -/
namespace Sys2Proof.Machine
open Sys2Proof

/-! ### The Clasp store -/

/-- A descriptor slot of the Clasp store (R510, R511, R530). -/
structure ClsSlot where
  op     : Nat
  flags  : Nat
  tag    : Nat
  addr   : Nat
  len    : Nat
  /-- Bytes 16–23 and 24–31 of the descriptor. -/
  data   : Nat
  param  : Nat
  /-- Master number of the poster. -/
  poster : Nat
  /-- 1 queued, 2 running, 3 suspended, 4 done. -/
  st     : Nat
  /-- Order of posting. -/
  seq    : Nat
  status : Nat
  words  : Nat
  at_    : Nat
  /-- Words a running PROGRAM takes from its source, or a READ has delivered; and the words it found corrected or
  uncorrectable. -/
  vals   : List Nat
deriving DecidableEq, Repr

/-- The running or suspended erase (R518, R519). -/
structure ClsErase where
  slot    : Nat
  sector  : Nat
  /-- 1 running, 2 suspended. -/
  st      : Nat
  /-- Device time of the start or of the last resume. -/
  since   : Nat
deriving DecidableEq, Repr

/-- A continuous read in progress (R520): its reader, what it has delivered, and whether a descriptor may start now. -/
structure ClsCr where
  master : Nat
  addr   : Nat
  len    : Nat
  pos    : Nat
  /-- Descriptors that may still start: one after each 4 KiB. -/
  grant  : Nat
  ue     : Bool
deriving DecidableEq, Repr

/-- The Clasp store. Words that are not listed are erased. -/
structure Cls' where
  slots  : SMap ClsSlot
  seq    : Nat
  /-- Words that descriptors have programmed, by word number: byte address ÷ 8. -/
  nor    : SMap Nat
  /-- Lock bits, 32 sectors a word (R521). -/
  locks  : SMap Nat
  /-- The lock password (R522). -/
  pw     : Nat
  /-- Lifetime erases by sector, words corrected by sector (R517, R518). -/
  erases : SMap Nat
  corr   : SMap Nat
  /-- Abandoned erase-open sectors. -/
  open_  : List Nat
  erase  : Option ClsErase
  cr     : Option ClsCr
  /-- The Clasp die is held in reset by its supply (R598). -/
  dead   : Bool
deriving DecidableEq, Repr

/-! ### Boot and update -/

/-- A firmware image (R537). -/
structure Image where
  bytes  : List Byte
  fwVer  : Nat
  hdrVer : Nat
  svn    : List Nat
  floor  : List Nat
  len    : Nat
  fmt    : Nat
  abi    : Nat
  key    : Nat
  revoke : Nat
  /-- SHA-384 of stage 1, stage 2 and the vendor microcode. -/
  digs   : List (List Byte)
  /-- The vendor microcode's words. -/
  ucode  : List Byte
deriving DecidableEq, Repr

/-- The boot control record (chapter 18). -/
structure Bcr where
  seq     : Nat
  active  : Nat
  pending : Nat
  valid   : Nat
  tries   : Nat
  failA   : Nat
  failB   : Nat
deriving DecidableEq, Repr

/-- A stored customer microcode image (R356, R541). -/
structure Cust where
  seq    : Nat
  abi    : Nat
  svn    : Nat
  digest : List Byte
  words  : List Nat
  entries : Nat := 0
deriving DecidableEq, Repr

/-- A download (R544): its owner (a Vocel channel, or 64 + port), the bytes received, and whether it is complete. -/
structure Download where
  owner : Nat
  bytes : List Byte
  whole : Bool
deriving DecidableEq, Repr

/-- A slot write in progress (R546). -/
structure SlotWrite where
  slot  : Nat
  act   : Nat
  warm  : Bool
  image : Image
deriving DecidableEq, Repr

/-- Boot and update. -/
structure Bot where
  /-- The compute die runs firmware, or the ROM's recovery mode. -/
  run    : Bool
  recovery : Bool
  bcr    : Bcr
  /-- Images in the slots. -/
  img    : SMap Image
  /-- Fuse counters, digests of the vendor keys, revoked keys, digest of the service key (R539). -/
  ctr    : SMap Nat
  keys   : SMap (List Byte)
  revoked : Nat
  svcKey : List Byte
  /-- Customer microcode halves. -/
  cust   : SMap Cust
  /-- The shadow's vendor bytes and customer words, frozen at BOOT_CLOSE (R541). -/
  shadow : List Byte × List Nat
  /-- Entry-table words that the customer image of the shadow defines (R354). -/
  shadowEnts : Nat := 0
  /-- Settings in force: records by ID; format version, SEQ (R542). -/
  sets   : SMap (List Byte)
  setFmt : Nat
  setSeq : Nat
  dl     : Option Download
  wr     : Option SlotWrite
  /-- A reset that the running flush ends in: type and cause (R532). -/
  want   : Option (Nat × Nat)
  /-- SYS_RESET_N is low. -/
  ball   : Bool
  /-- Device time at which a commit asked for a warm reset (R547, R551), and its cause. -/
  warmAt : Option (Nat × Nat)
  /-- Measurements of this boot: items of its BOOT or RECOVERY entry; settings digest; reset reason; security state. -/
  items  : List MItem
  setDig : List Byte
  reason : Nat
  secure : Nat
  /-- Service port unlocked since the previous BOOT entry (R493 bit 6). -/
  svcSeen : Bool
  /-- Event items for the next BOOT entry found at this boot. -/
  boots  : List MItem
  /-- The compute die has run since the last emergency flush index was programmed. -/
  ran    : Bool
  /-- The loss record of that index (R450): cause, D, µs to step 7, bank voltage, lowest input. -/
  loss   : Option (Nat × Nat × Nat × Nat × Nat)
deriving DecidableEq, Repr

/-! ### Ageing -/

/-- Ageing and margin planning (chapter 19). -/
structure Age where
  /-- Rated P/E cycles by die × 4 + mode, where they differ from the defaults of R566. -/
  rated  : SMap Nat
  /-- First rated values, where they differ. -/
  rated0 : SMap Nat
  /-- Retention intervals in days, and F in units of 10⁻⁶, by die × 4 + mode. -/
  ret    : SMap Nat
  retF   : SMap Nat
  /-- Last ratios of each working loop, newest first, and baselines, in units of 10⁻⁹; faulted loops (R557, R558). -/
  ratios : SMap (List Nat)
  base   : SMap Nat
  bad    : List Nat
  /-- Device time of the last measurement, and the laps of its gate by loop. -/
  meas   : Nat
  laps   : List Nat
  /-- Since the last run: reads in wear buckets 6–7 and their soft decodes, reads of old data and their soft decodes, by die × 4
  + mode. -/
  reads  : SMap Nat
  soft   : SMap Nat
  oldRd  : SMap Nat
  oldSf  : SMap Nat
  /-- A block of bucket 7 has been read. -/
  seen7  : SMap Nat
  /-- ARRAY_NS samples by prediction entry (R563), completions seen. -/
  samples : SMap (List Nat)
  comps  : Nat
  /-- Epochs counted and sums of sensed and granted current, by rail (R564): 0 VCC, 1 VCCQ. -/
  rails  : SMap (Nat × Nat × Nat)
  /-- Retry advances by mode, planning runs, last run. -/
  adv    : SMap Nat
  runs   : Nat
  lastRun : Nat
  /-- Composite temperature readings of the interval: sum in kelvin and number. -/
  temps  : Nat × Nat
  /-- Discharge tests, newest first: device time, C in 10 µF, ESR in mΩ, limit in MiB (R569). -/
  tests  : List (Nat × Nat × Nat × Nat)
  /-- Narrowest windows by subchannel rank × 4 + kind, and device times of the last gathers by rate point × 16 + rank (R570). -/
  windows : SMap Nat
  gathers : SMap Nat
  /-- Mode register 4 band of each rank at its last gather. -/
  gband  : SMap Nat
  /-- A retention probe is due (R568). -/
  probe  : Bool
  /-- Device time of the first program of a closed stripe block, by group × 2^20 + block (R567). -/
  born   : SMap Nat
  /-- Device time at which step 11 of the boot ended. -/
  up     : Nat
  /-- The last run set silicon_limit (R560). -/
  siLimit : Bool
  /-- The planner record's register values (R562), by register address: offsets, banks, retry tables. -/
  record : SMap Word
deriving DecidableEq, Repr

/-! ### Sensors -/

/-- The junction sensors (R608, R609): device times of last conversions, of the last HOT record, of the reading that first
reached the trip threshold; faulted sensors, and sensors with a valid reading since boot. -/
structure Tsn where
  conv  : SMap Nat
  hot   : SMap Nat
  above : Option Nat
  fault : List Nat
  seen  : List Nat
deriving DecidableEq, Repr

def Image.factory : Image :=
  { bytes := [], fwVer := 0x00030002, hdrVer := 1, svn := [1, 1, 1], floor := [1, 1, 1], len := 512, fmt := 4, abi := 3, key := 0,
    revoke := 0, digs := [Config.factoryDigest 0, Config.factoryDigest 1, Config.factoryDigest 2], ucode := Config.factoryUcode }

def Bcr.reset : Bcr := { seq := 0, active := 0, pending := 255, valid := 1, tries := 0, failA := 0, failB := 0 }

def Age.reset : Age :=
  { rated := [], rated0 := [], ret := [], retF := [], ratios := [], base := [], bad := [], meas := 0, laps := [], reads := [], soft := [],
    oldRd := [], oldSf := [], seen7 := [], samples := [], comps := 0, rails := [], adv := [], runs := 0, lastRun := 0,
    temps := (0, 0), tests := [], windows := [], gathers := [], gband := [], probe := false, born := [], up := 0, siLimit := false, record := [] }

def Cls'.reset : Cls' :=
  { slots := [], seq := 0, nor := [], locks := [], pw := 0xFFFFFFFFFFFFFFFF, erases := [], corr := [], open_ := [], erase := none,
    cr := none, dead := false }

def Bot.reset : Bot :=
  { run := false, recovery := false, bcr := Bcr.reset, img := [(0, Image.factory)], ctr := [], keys := [(0, Config.vendorKey)],
    revoked := 0, svcKey := Config.serviceKey, cust := [], shadow := ([], []), sets := [], setFmt := 0, setSeq := 0, dl := none,
    wr := none, want := none, ball := false, warmAt := none, items := [], setDig := [], reason := 0, secure := 0, svcSeen := false,
    boots := [], ran := false, loss := none }

def Tsn.reset : Tsn := { conv := [], hot := [], above := none, fault := [], seen := [] }

end Sys2Proof.Machine
end

