-- ==== Sys2Proof/Machine/State.lean ====
section
/-! DEFINITION. The whole state of the block, its faults and refusals, and the state after reset. -/
namespace Sys2Proof.Machine
open Sys2Proof

/-- The state: identity, register file, and the blocks' structured state. -/
structure State where
  part    : Part
  /-- Registers whose content differs from their reset value (R16, R22). -/
  regs    : RegFile
  /-- Latched high halves by the address of the HI register and the master (R35): key master number × 2^32 + address. -/
  latch   : SMap Nat
  /-- Per-master selector registers (R187): key master number × 2^32 + address. -/
  sel     : SMap Word
  fab     : Fab
  tmb     : Tmb
  acm     : Acm
  spdm    : Spdm
  svc     : Svc
  mbx     : Mbx
  lkt     : Lkt
  hst     : Hst
  slm     : Slm
  zne     : Zne
  plc     : Plc
  dsc     : Dsc
  med     : Med
  flash   : Flash
  bpm     : Bpm
  dmc     : Dmc
  ump     : Ump
  sgd     : Sgd
  kst     : Kst
  dge     : Dge
  sgn     : Sgn
  cls     : Cls'
  bot     : Bot
  age     : Age
  tsn     : Tsn
  /-- How many open values have been taken (Config.freeNat): the model's own field, not the spec's. -/
  free    : Nat
  /-- The commands that wait, first in, first out. -/
  pending : List Instr
deriving DecidableEq, Repr

/-- Why the block stops. No command of the table stops it: every row has an effect the spec gives. -/
inductive Fault where
  /-- Raised by nothing: the spec describes no stop of the block. Safe. -/
  | none
deriving DecidableEq, Repr

/-- Why a command has no meaning. -/
inductive Refusal where
  /-- Answered by the dispatch for a command without a meaning. Safe: nothing can be proved of the command. -/
  | notModelled (mnemonic : String)
deriving DecidableEq, Repr

/-- The block at a power-up of the Clasp die, before the first release of the compute die (R599). -/
def State.reset : State :=
  { part := Part.reset, regs := [], latch := [], sel := [], fab := Fab.reset, tmb := Tmb.reset, acm := Acm.reset,
    spdm := Spdm.reset, svc := Svc.reset, mbx := Mbx.reset, lkt := Lkt.reset, hst := Hst.reset, slm := Slm.reset,
    zne := Zne.reset, plc := Plc.reset, dsc := Dsc.reset, med := Med.reset, flash := Flash.reset, bpm := Bpm.reset,
    dmc := Dmc.reset, ump := Ump.reset, sgd := Sgd.reset, kst := Kst.reset, dge := Dge.reset, sgn := Sgn.reset,
    cls := Cls'.reset, bot := Bot.reset, age := Age.reset, tsn := Tsn.reset, free := 0, pending := [] }

end Sys2Proof.Machine
end

