-- ==== Sys2Proof/Machine/Status.lean ====
section
/-! DEFINITION. The internal statuses by name (R23 and the chapters' status tables). -/
namespace Sys2Proof.Machine

abbrev ST_OK : Nat := 0x0000
abbrev ST_DENIED : Nat := 0x0101
abbrev ST_BAD_LENGTH : Nat := 0x0102
abbrev ST_BUSY : Nat := 0x0103
abbrev ST_BUSY_TRAINING : Nat := 0x0104
abbrev ST_BAD_OPCODE : Nat := 0x0105
abbrev ST_VOLLEY_SEQ : Nat := 0x0106
abbrev ST_FABRIC_ERROR : Nat := 0x0107
abbrev ST_LOCKET_INDEX : Nat := 0x0108
abbrev ST_LOCKET_FROZEN : Nat := 0x0109
abbrev ST_NOT_BLANK : Nat := 0x0201
abbrev ST_ERASE_SUSPENDED : Nat := 0x0202
abbrev ST_PROTECTED : Nat := 0x0203
abbrev ST_BROWNOUT : Nat := 0x0204
abbrev ST_CLASP_UE : Nat := 0x0205
abbrev ST_PW_BARRED : Nat := 0x0206
abbrev ST_CLASP_DESC : Nat := 0x0207
abbrev ST_KEY_REVOKED : Nat := 0x0301
abbrev ST_TAG_FAIL : Nat := 0x0302
abbrev ST_CIPHER_FAULT : Nat := 0x0303
abbrev ST_SLOT_STATE : Nat := 0x0304
abbrev ST_SLOT_RANGE : Nat := 0x0305
abbrev ST_UNWRAP_FAIL : Nat := 0x0306
abbrev ST_KEY_WEAK : Nat := 0x0307
abbrev ST_ENTROPY : Nat := 0x0308
abbrev ST_COSIGN : Nat := 0x0309
abbrev ST_SIGNET_INDEX : Nat := 0x0310
abbrev ST_SIGNET_ITEM : Nat := 0x0311
abbrev ST_SIG_INVALID : Nat := 0x0312
abbrev ST_DGE_CONTEXT : Nat := 0x0313
abbrev ST_SIGNET_NO_CERT : Nat := 0x0314
abbrev ST_SQUASHED : Nat := 0x0401
abbrev ST_CARDED : Nat := 0x0402
abbrev ST_NOT_CARDED : Nat := 0x0403
abbrev ST_RESET_PENDING : Nat := 0x0404
abbrev ST_NO_SLICE : Nat := 0x0405
abbrev ST_SLICE_IN_USE : Nat := 0x0406
abbrev ST_PASID_IN_USE : Nat := 0x0407
abbrev ST_SLICE_LIMIT : Nat := 0x0408
abbrev ST_KEY_BOUND : Nat := 0x0409
abbrev ST_RESETTING : Nat := 0x040A
abbrev ST_ISOLATION_EXHAUSTED : Nat := 0x040B
abbrev ST_SLICE_PARAM : Nat := 0x040C
abbrev ST_UNCORRECTABLE : Nat := 0x0501
abbrev ST_HEADER_MISMATCH : Nat := 0x0502
abbrev ST_UNIT_LOST : Nat := 0x0503
abbrev ST_NO_BUFFER : Nat := 0x0601
abbrev ST_QUOTA : Nat := 0x0602
abbrev ST_NOT_OWNER : Nat := 0x0603
abbrev ST_DOUBLE_FREE : Nat := 0x0604
abbrev ST_MACHINE_CHECK : Nat := 0x0701
abbrev ST_PROGRAM_FAIL : Nat := 0x0702
abbrev ST_ERASE_FAIL : Nat := 0x0703
abbrev ST_DIE_TIMEOUT : Nat := 0x0704
abbrev ST_DESC_INVALID : Nat := 0x0705
abbrev ST_DIE_SUSPENDED : Nat := 0x0706
abbrev ST_SEQ_FULL : Nat := 0x0707
abbrev ST_UCODE_SIG : Nat := 0x0708
abbrev ST_UCODE_ABI : Nat := 0x0709
abbrev ST_UCODE_ROLLBACK : Nat := 0x070A
abbrev ST_UCODE_CODE : Nat := 0x070B
abbrev ST_DRAM_UE : Nat := 0x0801
abbrev ST_DRAM_RANGE : Nat := 0x0802
abbrev ST_GATHER_DISCARDED : Nat := 0x0803
abbrev ST_GATHER_OFFLINE : Nat := 0x0804
abbrev ST_SRAM_UE : Nat := 0x0805
abbrev ST_RATE_INVALID : Nat := 0x0806
abbrev ST_BUDGET_RANGE : Nat := 0x0901
abbrev ST_PP_RANGE : Nat := 0x0902
abbrev ST_CALL_REFUSED : Nat := 0x0903
abbrev ST_CALL_WITHDRAWN : Nat := 0x0904
abbrev ST_VR_FAULT : Nat := 0x0905
abbrev ST_HU_BUSY : Nat := 0x0940
abbrev ST_HU_INPUT : Nat := 0x0941
abbrev ST_HU_FAULT : Nat := 0x0942
abbrev ST_FW_FORMAT : Nat := 0x0A01
abbrev ST_FW_KEY : Nat := 0x0A02
abbrev ST_FW_SIG : Nat := 0x0A03
abbrev ST_FW_DIGEST : Nat := 0x0A04
abbrev ST_FW_ROLLBACK : Nat := 0x0A05
abbrev ST_FW_SLOT : Nat := 0x0A06
abbrev ST_FW_NO_IMAGE : Nat := 0x0A07
abbrev ST_FW_WRITING : Nat := 0x0A08
abbrev ST_SETTINGS_FORMAT : Nat := 0x0A09
abbrev ST_SETTINGS_ID : Nat := 0x0A0A
abbrev ST_SETTINGS_VALUE : Nat := 0x0A0B
abbrev ST_RECOVERY : Nat := 0x0A0C
abbrev ST_ZONE_PARAM : Nat := 0x0B01
abbrev ST_ZONE_TABLE_FULL : Nat := 0x0B02
abbrev ST_CAPACITY : Nat := 0x0B03
abbrev ST_CONV_REGION_FULL : Nat := 0x0B04
abbrev ST_ACTIVE_RESERVE : Nat := 0x0B05
abbrev ST_PIN_LIMIT : Nat := 0x0B06
abbrev ST_READ_ONLY : Nat := 0x0B07
abbrev ST_CLASS_INVALID : Nat := 0x0B08
abbrev ST_CLASS_IN_USE : Nat := 0x0B09
abbrev ST_CLASS_EMPTY_SET : Nat := 0x0B0A
abbrev ST_CLASS_MASK : Nat := 0x0B0B

end Sys2Proof.Machine
end

