-- ==== Sys2Proof/Machine/Ops.lean ====
section
/-! DEFINITION. The named operations over the register file, the open values, the Locket's acceptance of records, and the
raising of violations up to step 3 of R88. -/
namespace Sys2Proof.Machine
open Sys2Proof

/-- What a meaning answers. -/
abbrev Out := Host.Outcome State Fault Refusal

/-- The value of a register field. -/
def fget (s : State) (f : Field) : Nat := bits (RegFile.get s.regs f.addr).toNat f.lo f.w

/-- Puts a value into a register field; nothing else of the register changes. -/
def fset (s : State) (f : Field) (v : Nat) : State :=
  { s with regs := RegFile.set s.regs f.addr (setBits (RegFile.get s.regs f.addr) f.lo f.w v) }

/-- A one-bit field reads 1. -/
def fone (s : State) (f : Field) : Bool := fget s f != 0

/-- Adds to a counter field, which saturates (R21). -/
def fadd (s : State) (f : Field) (n : Nat) : State := fset s f (sat f.w (fget s f + n))

/-- Counts one in a counter field, which saturates. -/
def finc (s : State) (f : Field) : State := fadd s f 1

/-- Sets a one-bit field. -/
def fon (s : State) (f : Field) : State := fset s f 1

/-- Clears a field. -/
def foff (s : State) (f : Field) : State := fset s f 0

/-- Sets bit `i` of a field that holds a set. -/
def fbiton (s : State) (f : Field) (i : Nat) : State := fset s f (fget s f ||| 2 ^ i)

/-- Clears bit `i` of a field that holds a set. -/
def fbitoff (s : State) (f : Field) (i : Nat) : State :=
  if (fget s f).testBit i then fset s f (fget s f - 2 ^ i) else s

/-- Bit `i` of a field that holds a set. -/
def fbit (s : State) (f : Field) (i : Nat) : Bool := (fget s f).testBit i

/-- The content of a register. -/
def rget (s : State) (a : Nat) : Nat := (RegFile.get s.regs a).toNat

/-- Puts a word into a register. -/
def rset (s : State) (a v : Nat) : State := { s with regs := RegFile.set s.regs a (BitVec.ofNat 32 v) }

/-- A LO/HI register pair as one number. -/
def pget (s : State) (lo hi : Nat) : Nat := rget s lo + 4294967296 * rget s hi

/-- Puts a number into a LO/HI register pair. -/
def pset (s : State) (lo hi v : Nat) : State := rset (rset s lo (v % 4294967296)) hi (v / 4294967296)

/-- Every register of a window back at its reset value. -/
def resetWindow (s : State) (base size : Nat) : State :=
  { s with regs := SMap.keep s.regs fun a _ => decide (a < base ∨ base + size ≤ a) }

/-- Device time now, in ns. -/
def now (s : State) : Nat := s.tmb.time

/-- The planes, the modes and the interface that a die's identity and parameter page report (R334). -/
def idPlanes (s : State) (die : Nat) : Nat := SMap.getD s.part.idPlanes die s.part.diePlanes
def idModes (s : State) (die : Nat) : Nat := SMap.getD s.part.idModes die 7
def idIf (s : State) (die : Nat) : Nat := SMap.getD s.part.idIf die s.part.busIf

/-- A die position holds no usable die: none is there, its page spare area is too small, it has more than 6 planes, it lacks SLC mode or
both of TLC and QLC, or it does not support its channel's interface (R295, R334). -/
def dieUnpop (s : State) (die : Nat) : Bool :=
  s.part.unpop.contains die || s.part.smallSpare.contains die || decide (6 < idPlanes s die) || !(idModes s die).testBit 0 ||
  decide (idModes s die / 2 % 4 = 0) || idIf s die != s.part.busIf

/-- The epoch number: device time in ms (R176). -/
def epochOf (t : Nat) : Nat := t / 1000000

/-- NOR pulses are blocked (R523, R598). -/
def pulsesBlocked (s : State) : Bool := fone s Fld.CLS_STATUS_BLOCK_AON || fone s Fld.CLS_STATUS_BLOCK_STEP8

/-- The ceiling stored once device time has passed to `t`: each time it comes within 30 s of the stored one, `c`, a new one of that
time + 60 s is stored (R60), 30 s above the old. -/
def ceilAt (c t : Nat) : Nat := if t + 30000000000 < c then c else c + 30000000000 * ((t + 30000000000 - c) / 30000000000 + 1)

/-- Device time moves on to `t`, when it is not there yet: an event a timer causes happens at the time its rule names. The
ceiling is stored ahead of it; with pulses blocked it is held at the stored ceiling instead (R60). A part that has never stored
one stores its first as if 0 were stored (notes/assumptions/40.md). -/
def reach (s : State) (t : Nat) : State :=
  if fone s Fld.TMB_STATUS_HELD || decide (t ≤ s.tmb.time) then s
  else
    let c := s.tmb.ceiling.getD 0
    if !pulsesBlocked s then { s with tmb := { s.tmb with time := t, ceiling := some (ceilAt c t) } }
    else if c ≤ t then fon { s with tmb := { s.tmb with time := if s.tmb.time ≤ c then c else s.tmb.time } } Fld.TMB_STATUS_HELD
    else { s with tmb := { s.tmb with time := t } }

/-- A value the spec leaves open: the next of Config.freeNat. -/
def openVal (s : State) : Nat := Config.freeNat s.free

/-- The state after an open value has been taken. -/
def openTaken (s : State) : State := { s with free := s.free + 1 }

/-! ### Locket (R575–R578, R583) -/

/-- Records of the ring that no seal covers yet (R578). -/
def unflushed (l : Lkt) : List LktRec := l.ring.filter fun r => decide (l.flushed ≤ r.idx)

/-- New records enter the side buffer (R583). -/
def lktToSide (l : Lkt) : Bool := l.freeze.isSome || !l.side.isEmpty

/-- There is room for one more record (R578). -/
def lktRoom (l : Lkt) : Bool :=
  if lktToSide l then decide (l.side.length < 128) else decide ((unflushed l).length < 2048)

/-- Puts a record into the ring, which holds 2,048: the oldest, which is flushed, leaves a full ring (R578). -/
def ringPush (ring : List LktRec) (r : LktRec) : List LktRec :=
  if ring.length < 2048 then ring ++ [r] else ring.drop 1 ++ [r]

/-- Accepts one record with the next index (R576). -/
def lktTake (l : Lkt) (boot code time p1 p2 p3 p4 : Nat) : Lkt :=
  let r : LktRec := { code := code, idx := l.next, boot := boot, time := time, p1 := p1 % 4294967296,
                      p2 := p2 % 4294967296, p3 := p3 % 4294967296, p4 := p4 % 4294967296 }
  if lktToSide l then { l with side := l.side ++ [r], next := l.next + 1 }
  else { l with ring := ringPush l.ring r, next := l.next + 1 }

/-- A record's CODE: PRIV, source block, event (R575). -/
def lktCode (src ev : Nat) (priv : Bool) : Nat := b2n priv * 32768 + src * 1024 + ev

/-- Accepts a record, or loses it (R578): ahead of the first record accepted after a loss stands a LOST record. -/
def lktAccept (s : State) (code time p1 p2 p3 p4 : Nat) : State :=
  let l := if s.lkt.lostNew ≠ 0 ∧ lktRoom s.lkt then
      { lktTake s.lkt s.tmb.boots (lktCode 22 1 false) time s.lkt.lostNew 0 0 0 with lostNew := 0 }
    else s.lkt
  if lktRoom l then { s with lkt := lktTake l s.tmb.boots code time p1 p2 p3 p4 }
  else fon (finc { s with lkt := { l with lostNew := l.lostNew + 1 } } Fld.LKT_LOST_COUNT) Fld.LKT_EVENTS_LOST

/-- The sources the rate limit of R577 does not bind: SGD, the LKT block itself, ACM. -/
def lktUnlimited (src : Nat) : Bool := src == 12 || src == 22 || src == 23

/-- A block posts a record (R576, R577). A record of an urgent source makes a flush due (R581); a record the SGD makes
while the LKT block cannot accept is held on the Clasp die (R613). -/
def post (s : State) (src ev : Nat) (priv : Bool) (p1 p2 p3 p4 : Nat) : State :=
  if src = 12 ∧ !s.bot.run then
    if s.sgd.held.length < 16 then
      { s with sgd := { s.sgd with held := s.sgd.held ++ [{ event := ev, time := now s, p1 := p1, p2 := p2, p3 := p3, p4 := p4 }] } }
    else { s with sgd := { s.sgd with heldLost := s.sgd.heldLost + 1 } }
  else if !lktUnlimited src && decide (max 1 (fget s Fld.LKT_RATE_PER_MS) ≤ SMap.getD s.lkt.rate src 0) then
    fon (finc { s with lkt := { s.lkt with supp := SMap.put s.lkt.supp src (SMap.getD s.lkt.supp src 0 + 1) } }
      Fld.LKT_SUPPRESSED_COUNT) Fld.LKT_EVENTS_SUPPRESSED
  else
    let n0 := s.lkt.next
    let s1 := lktAccept s (lktCode src ev priv) (now s) p1 p2 p3 p4
    if s1.lkt.next = n0 then s1
    else
      { s1 with lkt := { s1.lkt with
          rate := if lktUnlimited src then s1.lkt.rate else SMap.put s1.lkt.rate src (SMap.getD s1.lkt.rate src 0 + 1),
          due := s1.lkt.due || fbit s Fld.LKT_URGENT_MASK src } }

/-! ### Master IDs (R87) and violations (R86, R88 steps 1–3) -/

def midSlice (n : Nat) : Nat := 0x01000000 + n
def midPort (p : Nat) : Nat := 0x02000000 + p
def midPair (p : Nat) : Nat := 0x03000000 + p
def midChs (c : Nat) : Nat := 0x04000000 + c
def midXte (i : Nat) : Nat := 0x05000000 + i
def midPve (i : Nat) : Nat := 0x06000000 + i
def midLdc (i : Nat) : Nat := 0x07000000 + i
def midDge (i : Nat) : Nat := 0x08000000 + i
def midPke : Nat := 0x09000000
def midChan (c : Nat) : Nat := 0x0A000000 + c
def midSideband : Nat := 0x0B000000
def midSvc : Nat := 0x0C000000

/-- The master ID of a register access (R34, R87). -/
def midOf : Master → Nat
  | .pair p => midPair p.val
  | .chan c => midChan c.val
  | .sideband => midSideband
  | .svcPort => midSvc

/-- How many masters of a type there are (R87); types 0x0A–0x0C name no master that can be carded. -/
def midCount (s : State) : Nat → Nat
  | 1 => 1024
  | 2 => 4
  | 3 => 8
  | 4 => if s.part.is7632 then 32 else 64
  | 5 => 66
  | 6 => 2
  | 7 => 128
  | 8 => 2
  | 9 => 1
  | _ => 0

/-- The master ID names a master that can be carded. -/
def midValid (s : State) (id : Nat) : Bool := decide (id % 16777216 < midCount s (id / 16777216))

/-- The master is carded. -/
def carded (s : State) (id : Nat) : Bool := (SMap.find s.acm.cards id).isSome

/-- Steps 1 and 3 of R88 and the races of R90: counts the violation, records it, and says whether the master is carded
anew, so that step 4 runs. The carding's own record is the one record of its code: a further violation of that code writes none
(DEDUCED, notes/assumptions/48.md). -/
def noteVio (s : State) (code blk id addr : Nat) : State × Bool :=
  let s := finc s (Fld.ACM_VIO_COUNT_COUNT code)
  let s := fbiton s Fld.ACM_VIO_STATUS_SEEN (code - 1)
  let s := fset s Fld.ACM_VIO_LAST_CODE_CODE code
  let s := fset s Fld.ACM_VIO_LAST_MASTER_MASTER_ID id
  let s := pset s Reg.ACM_VIO_LAST_TIME_LO Reg.ACM_VIO_LAST_TIME_HI (now s)
  let rcd := fun (t : State) => post t 23 code true blk (id / 16777216) id addr
  let put := fun (t : State) (c : Card) => { t with acm := { t.acm with cards := SMap.put t.acm.cards id c } }
  if midValid s id then
    match SMap.find s.acm.cards id with
    | none => (rcd (put s { code := code, st := 1, drained := false, time := now s, codes := [code] }), true)
    | some c =>
      if c.st = 1 then
        if c.codes.contains code then (s, false) else (rcd (put s { c with codes := c.codes ++ [code] }), false)
      else (rcd (put s { code := code, st := 1, drained := false, time := now s, codes := [code] }), true)
  else (s, false)

end Sys2Proof.Machine
end

