-- ==== Sys2Proof/Machine/Fabric.lean ====
section
/-! DEFINITION. The access matrix: the contents firmware 3.2 loads (R75), the class of an access (R63, R74) and the
decision on it (R34, R71–R73, R97). -/
namespace Sys2Proof.Machine
open Sys2Proof

/-- The code of a class (R63). -/
def clsCode : Cls → Nat
  | .pub => 0
  | .portAdmin => 1
  | .slice => 2
  | .observer => 3
  | .manager => 4
  | .officer => 5
  | .service => 6

/-- The read set, write set, mode and field set of a block (R75); bit c is class code c. -/
def blockRights : Nat → Nat × Nat × Bool × Nat
  | 0 => (0x58, 0x50, true, 0x50)
  | 1 => (0x58, 0x50, true, 0x50)
  | 2 => (0x50, 0x50, false, 0)
  | 3 => (0x50, 0x50, false, 0)
  | 4 => (0x50, 0x50, false, 0)
  | 5 => (0x50, 0x50, false, 0)
  | 6 => (0x58, 0x50, true, 0x50)
  | 7 => (0x58, 0x50, true, 0x50)
  | 8 => (0x58, 0x50, true, 0x50)
  | 9 => (0x58, 0x40, true, 0)
  | 10 => (0x58, 0x50, true, 0)
  | 11 => (0x58, 0x50, true, 0x50)
  | 12 => (0x58, 0x50, true, 0)
  | 13 => (0x70, 0x60, false, 0x60)
  | 14 => (0x70, 0x60, false, 0)
  | 15 => (0x60, 0x20, false, 0)
  | 16 => (0x70, 0, false, 0)
  | 17 => (0x70, 0, false, 0)
  | 18 => (0x78, 0, true, 0)
  | 19 => (0x50, 0x40, false, 0)
  | 20 => (0x78, 0x50, true, 0)
  | 21 => (0x58, 0x50, true, 0)
  | 22 => (0x58, 0x50, true, 0x50)
  | 23 => (0x78, 0x50, true, 0x50)
  | 24 => (0x58, 0x50, true, 0x50)
  | 25 => (0x58, 0x40, true, 0)
  | 26 => (0x79, 0, true, 0)
  | 27 => (0x79, 0x50, true, 0)
  | 28 => (0x58, 0x50, true, 0)
  | 29 => (0x58, 0x40, true, 0)
  | _ => (0, 0, false, 0)

/-- The write sets R75 lists as exceptions: the injector registers, the anti-rollback counters, ACM_ACT_AS and the matrix
window. -/
def writeException (name : String) : Option Nat :=
  if name = "MEP_INJ_CTRL" ∨ name = "MEP_INJ_ADDR_LO" ∨ name = "MEP_INJ_ADDR_HI" ∨ name = "MEP_INJ_MASK" then some 0x40
  else if name = "BOT_CTR" ∨ name = "ACM_ACT_AS" ∨ name = "ACM_MATRIX" then some 0
  else none

/-- The bits of a register that identify one slice, namespace, PASID or queue, or measure one slice's activity (R75). -/
def sliceMask (name : String) : Nat :=
  if name = "ACM_VIO_LAST_MASTER" ∨ name = "UMP_V_FLOOR" ∨ name = "UMP_V_LEFT" ∨ name = "UMP_V_ICC" ∨
     name = "BPM_V_QUOTA" ∨ name = "BPM_V_HELD" ∨ name = "BPM_V_STATE" then 0xFFFFFFFF
  else if name = "UMP_V_POWER" then 0xFFFF0000
  else if name = "MBX_BIND" ∨ name = "UMP_SEL" then 0x3FF
  else if name = "BPM_ACCT_SEL" then 0x7FF
  else if name = "BPM_FW_ALLOC" then 0xFFE00000
  else if name = "XTE_INST" then 0x0003FF00
  else 0

/-- The word index at which an entry governs a register: its own below offset 0x1000, the first word of its array above. -/
def matWord (r : RegSpec) (a : Nat) : Nat :=
  if windowOff a < 0x1000 then windowOff a / 4 else windowOff r.base / 4

/-- The entries of a register row: one per instance below offset 0x1000, one for an array above; block 29 has one entry for
all channels (R96). -/
def matEntries (b : Nat) (r : RegSpec) : List MatEntry :=
  let (rd, wr, blind, fs) := blockRights b
  let mk := fun (w : Nat) => (⟨b, w, rd, (writeException r.name).getD wr, blind, fs, sliceMask r.name⟩ : MatEntry)
  let dims := if b = 29 then r.dims.drop 1 else r.dims
  if 0x1000 ≤ windowOff r.base then [mk (windowOff r.base / 4)]
  else
    (dims.foldl (fun offs (d : Dim) => offs.flatMap fun o => (List.range d.count).map fun i => o + (d.first + i) * d.stride)
      [windowOff r.base]).map fun o => mk (o / 4)

/-- The matrix firmware 3.2 loads (R75). -/
def fwMatrix : List MatEntry := (List.range 30).flatMap fun b => (blockRegs b).flatMap (matEntries b)

/-- Who makes an access: firmware for its own housekeeping, which carries no class (R74); a class; or a locked service port,
which reaches nothing (R92). -/
inductive Who where
  | house
  | cls (c : Cls)
  | locked
deriving DecidableEq, Repr

/-- The class a channel's requests without a session act as (R63). -/
def chanCls (s : State) (c : Nat) : Cls :=
  if fone s (Fld.MBX_BIND_BOUND (c / 8) (c % 8)) then .slice else .pub

/-- The class with a code (R63). Code 7, which ACM_ACT_AS.CLASS can hold and which names no class, is taken as SERVICE (DESIGN CHOICE,
notes/assumptions/77.md). -/
def clsOf : Nat → Cls
  | 0 => .pub
  | 1 => .portAdmin
  | 2 => .slice
  | 3 => .observer
  | 4 => .manager
  | 5 => .officer
  | _ => .service

/-- Who a master's access counts as (R63, R74, R92). -/
def whoOf (s : State) : Master → Who
  | .pair p => if fone s (Fld.ACM_ACT_AS_ACTIVE p.val) then .cls (clsOf (fget s (Fld.ACM_ACT_AS_CLASS p.val))) else .house
  | .chan c => .cls (chanCls s c.val)
  | .sideband => .cls .observer
  | .svcPort => if fone s Fld.ACM_SVC_STATE_UNLOCKED then .cls .service else .locked

/-- Who a write counts as: a pair's write of its own ACM_ACT_AS is its own housekeeping, whatever class it acts as (R74). -/
def writerOf (s : State) (m : Master) (a : Nat) : Who :=
  match m with
  | .pair p => if a = Reg.ACM_ACT_AS p.val then .house else whoOf s m
  | _ => whoOf s m

/-- The valid entry that governs the word at an address (R70, R96). -/
def matFind (s : State) (a : Nat) : Option MatEntry :=
  match blockOf a, regAt (a - a % 4) with
  | some b, some (r, _) => s.acm.matrix.find? fun e => e.block == b && e.word == matWord r (a - a % 4)
  | _, _ => none

/-- A register that holds key material or the lock password (R73): the KST material view, the CLS password. -/
def material (a : Nat) : Bool :=
  match regAt a with
  | some (r, _) => r.name == "KST_V_MATERIAL" || r.name == "CLS_PW_0" || r.name == "CLS_PW_1"
  | none => false

/-- A decision of the matrix. -/
inductive Decision where
  /-- ST_DENIED, no data and no effect. -/
  | denied
  /-- The read returns 0 with BLIND. -/
  | blinded
  /-- Admitted; the bits of the mask read 0 with BLIND. -/
  | admitted (mask : Nat)
  /-- The fabric address error of R34. -/
  | error
  /-- Admitted to the mask ROM, an SRAM or the DRAM aperture (R33). -/
  | memory
deriving DecidableEq, Repr

/-- An access of `n` bytes reaches a register: register windows accept only aligned accesses of 32 bits (R31, R35). -/
def reaches (a : Nat) (n : Nat := 4) : Bool := n == 4 && a % 4 == 0 && (regAt a).isSome

/-- The `n` bytes at `a` lie in the mask ROM. -/
def inRom (a n : Nat) : Bool := decide (a + n ≤ 0x40000)

/-- The DRAM address that an aperture address shows (R391). -/
def apertureAddr (s : State) (a : Nat) : Nat := fget s Fld.DMC_APERTURE_BASE * 0x10000000 + (a - 0x30000000)

/-- The `n` bytes at `a` lie in the tightly coupled SRAM, in the slab SRAM below its tags, or in the DRAM aperture below DMC_TOP
(R33, R363, R391). -/
def inRam (s : State) (a n : Nat) : Bool :=
  decide (0x10000000 ≤ a ∧ a + n ≤ 0x10400000) || decide (0x20000000 ≤ a ∧ a + n ≤ 0x23F00000) ||
  decide (0x30000000 ≤ a ∧ a + n ≤ 0x40000000 ∧ apertureAddr s a + n ≤ pget s Reg.DMC_TOP_LO Reg.DMC_TOP_HI)

/-- An address of one of the memories. No entry of the matrix names one, and R94 keeps SERVICE out of them. -/
def memoryAddr (a : Nat) : Bool := decide (a < 0x40000 ∨ 0x10000000 ≤ a ∧ a < 0x10400000 ∨ 0x20000000 ≤ a ∧ a < 0x24000000 ∨
  0x30000000 ≤ a ∧ a < 0x40000000)

/-- The decision on a read of `n` bytes (R33–R35, R71, R73, R94, R97): the matrix first, then what the target accepts. -/
def decideRead (s : State) (w : Who) (a : Nat) (n : Nat := 4) : Decision :=
  match w with
  | .locked => .denied
  | .house =>
    if reaches a n then (if material a then .blinded else .admitted 0)
    else if inRom a n || inRam s a n then .memory else .error
  | .cls c =>
    match matFind s a with
    | none =>
      if c = .service ∧ !memoryAddr a then (if reaches a n then (if material a then .blinded else .admitted 0) else .error)
      else .denied
    | some e =>
      if e.readSet.testBit (clsCode c) then
        if !reaches a n then .error
        else if material a then .blinded
        else .admitted (if e.fieldSet.testBit (clsCode c) then 0 else e.mask)
      else if e.blind then .blinded else .denied

/-- The decision on a write of `n` bytes (R33–R35, R72, R94, R97); the mask ROM takes reads only. -/
def decideWrite (s : State) (w : Who) (a : Nat) (n : Nat := 4) : Decision :=
  match w with
  | .locked => .denied
  | .house => if reaches a n then .admitted 0 else if inRam s a n then .memory else .error
  | .cls c =>
    match matFind s a with
    | none => if c = .service ∧ !memoryAddr a then (if reaches a n then .admitted 0 else .error) else .denied
    | some e => if e.writeSet.testBit (clsCode c) then (if reaches a n then .admitted 0 else .error) else .denied

/-- The answer of an access. -/
def fabAnswer (s : State) (st v : Nat) (blind : Bool) : State :=
  { s with fab := { s.fab with status := st, value := v, blind := blind } }

/-- The effect of the fabric address error: a record naming the master, status and value 0 (R34). -/
def fabError (s : State) (id a : Nat) : State := fabAnswer (post s 23 0x010 false id a 0 0) ST_FABRIC_ERROR 0 false

/-- Makes a write that has a row of its own: `f` is its effect once the matrix admits it. -/
def gated (s : State) (m : Master) (a : Nat) (f : State → State) : State :=
  match decideWrite s (whoOf s m) a with
  | .admitted _ => fabAnswer (f s) ST_OK 0 false
  | .error => fabError s (midOf m) a
  | _ => fabAnswer s ST_DENIED 0 false

/-- The block's lock bit is set (R16 RWL). -/
def isLocked (s : State) (a : Nat) : Bool :=
  match blockOf a with
  | some b =>
    match lockField b (a - windowOff a) with
    | some f => fone s f
    | none => false
  | none => false

/-- The effect of a write by access codes alone, W1S fields aside: those start an action of their own (R16, R20). -/
def genWrite (s : State) (a : Nat) (v : Word) : State :=
  match regAt a with
  | some (r, k) =>
    let r' := { r with fields := r.fields.map fun f => if f.acc = .w1s then { f with acc := .ro } else f }
    { s with regs := RegFile.set s.regs a (regWriteWord r' k (isLocked s a) (RegFile.get s.regs a) v) }
  | none => s

/-- The number under which a master's latches and selectors stand. -/
def masterNo : Master → Nat
  | .pair p => p.val
  | .chan c => 8 + c.val
  | .sideband => 40
  | .svcPort => 41

/-- The value of a per-master selector field (R187). -/
def selGet (s : State) (n : Nat) (f : Field) : Nat :=
  bits (SMap.getD s.sel (n * 4294967296 + f.addr) 0).toNat f.lo f.w

end Sys2Proof.Machine
end

