-- ==== Sys2Proof/Machine/Dram.lean ====
section
/-! DEFINITION. The JESD79-5 DRAM controller: speed changes, gathers, refresh, panic, self-refresh, the ports,
the delays in effect, and the words that the injector changes (R389–R402, R408). -/
namespace Sys2Proof.Machine
open Sys2Proof

/-- The power-fail signal is asserted (R54). -/
def pfail (s : State) : Bool := s.sgd.pfail

/-- The effective power state (R149), as QEN shows it. -/
def effPs (s : State) : Nat := fget s Fld.QEN_PS_EFFECTIVE

/-- A maintenance excursion runs (R153). -/
def excursion (s : State) : Bool := fone s Fld.QEN_PS_EXCURSION

/-- PS3 or PS4 and no excursion: the Umpire grants no call, the DRAM is in self-refresh (R401, R412, R430). -/
def umpAsleep (s : State) : Bool := decide (3 ≤ effPs s) && !excursion s

/-! ### Protected words and the injector (R402, R405, R406, R408) -/

/-- Bytes of a codeword (R402). -/
def codeword (s : State) : Nat := if fone s Fld.MEP_ID_CODE then 128 else 64

/-- The key of the DRAM codeword that holds an address. -/
def dramKey (s : State) (a : Nat) : Nat := (a - a % codeword s) * 2

/-- The key of the 64-bit SRAM word that holds byte `off` of a region. -/
def sramKey (region off : Nat) : Nat := (region * 4294967296 + (off - off % 8)) * 2 + 1

/-- The words with these keys are written whole: what a fault left in them is gone (R405, R406). -/
def wordsFresh (s : State) (p : Nat → Bool) : State :=
  { s with dmc := { s.dmc with ues := s.dmc.ues.filter (fun k => !p k), flips := SMap.keep s.dmc.flips fun k _ => !p k } }

/-- Bit `i` of the flip mask. -/
def injBit (s : State) (i : Nat) : Bool := (rget s (Reg.MEP_INJ_MASK (i / 32))).testBit (i % 32)

/-- The error that the flip mask makes: for DRAM the named device and those of its symbols, of 8 bits in burst order, that the mask
touches; for SRAM the bits of the word (R402, R408). -/
def injError (s : State) : Nat × Nat :=
  if fget s Fld.MEP_INJ_CTRL_TARGET = 0 then
    (fget s Fld.MEP_INJ_CTRL_DEVICE, (List.range (codeword s / 8)).countP fun i => (List.range 8).any fun j => injBit s (8 * i + j))
  else (0, (List.range 72).countP (injBit s))

/-- The key of the word that holds MEP_INJ_ADDR. -/
def injKey (s : State) : Nat :=
  let a := pget s Reg.MEP_INJ_ADDR_LO Reg.MEP_INJ_ADDR_HI
  if fget s Fld.MEP_INJ_CTRL_TARGET = 0 then dramKey s a else sramKey (fget s Fld.MEP_INJ_CTRL_REGION) a

/-- Words are written; the flip-mask injector fires when the armed word is among them, and disarms unless STICKY is set (R408). -/
def wordsWritten (s : State) (p : Nat → Bool) : State :=
  let s := wordsFresh s p
  if fone s Fld.MEP_INJ_CTRL_ARM && p (injKey s) then
    let e := injError s
    let s := if e.2 = 0 then s else { s with dmc := { s.dmc with flips := SMap.put s.dmc.flips (injKey s) e } }
    let s := fon (fon s Fld.MEP_INJ_CTRL_FIRED) Fld.MEP_EVENTS_INJECTED
    if fone s Fld.MEP_INJ_CTRL_STICKY then s else foff s Fld.MEP_INJ_CTRL_ARM
  else s

/-- A word, of `w` key steps, can be written by a write of the keys from `lo` to `hi`: one known to be uncorrectable only whole (R403,
R406). -/
def wordTaken (s : State) (lo hi w k : Nat) : Bool := !s.dmc.ues.contains k || decide (lo ≤ k ∧ k + w ≤ hi)

/-- A write of `n` bytes at DRAM address `a`. -/
def dramWrote (s : State) (a n : Nat) : State :=
  wordsWritten s fun k => k % 2 == 0 && decide (dramKey s a ≤ k ∧ k < (a + n) * 2) &&
    wordTaken s (a * 2) ((a + n) * 2) (2 * codeword s) k

/-- A write of `n` bytes at offset `off` of an SRAM region. -/
def sramWrote (s : State) (region off n : Nat) : State :=
  let b := region * 4294967296
  wordsWritten s fun k => k % 2 == 1 && decide (sramKey region off ≤ k ∧ k < (b + off + n) * 2) &&
    wordTaken s ((b + off) * 2 + 1) ((b + off + n) * 2 + 1) 16 k

/-! ### Delay sets (R392) -/

/-- The delays in effect once the written ones of rate point `k` are loaded for the ranks that satisfy `p`. -/
def delaysFrom (s : State) (k : Nat) (p : Nat → Bool) : SMap Nat :=
  ((List.range 1024).filter fun i => p (i / 64)).foldl (fun m i => SMap.putD m i 0 (rget s (Reg.DMC_DELAY (k * 1024 + i)))) s.dmc.delays

/-- A refresh of a rank: what has been written of the delay set in use takes effect on its subchannel. -/
def delaysRefresh (s : State) (rank : Nat) : State :=
  { s with dmc := { s.dmc with delays := delaysFrom s (fget s Fld.DMC_STATUS_RATE_IDX) fun r => r / 2 == rank / 2 } }

/-! ### The ports (R395, R397) -/

/-- A sequencer's DRAM data reference of `n` bytes waits at the real-time port. -/
def rtAsk (s : State) (n : Nat) : State := { s with dmc := { s.dmc with rt := s.dmc.rt ++ [n] } }

/-- Puts a request behind those of its class and above. -/
def nrmInsert (c n : Nat) : List (Nat × Nat) → List (Nat × Nat)
  | [] => [(c, n)]
  | x :: l => if x.1 ≤ c then x :: nrmInsert c n l else (c, n) :: x :: l

/-- A request of deadline class `c` waits at the normal ports. -/
def nrmAsk (s : State) (c n : Nat) : State := { s with dmc := { s.dmc with nrm := nrmInsert c n s.dmc.nrm } }

/-- The owed refreshes of every rank are issued. -/
def owedIssue (s : State) : State :=
  let s := fadd s (Fld.DMC_COUNT_COUNT 0) (s.dmc.owed.foldl (fun n e => n + e.2) 0)
  { s with dmc := { s.dmc with owed := [] } }

/-- One real-time burst of at most 2 KiB; with the last, refreshes that waited for it are issued (R397, R398). -/
def rtBurst (s : State) (r : Nat) (rs : List Nat) : State :=
  let s := { s with dmc := { s.dmc with rt := if r ≤ 2048 then rs else (r - 2048) :: rs, streak := min 8 (s.dmc.streak + 1) } }
  if s.dmc.rt.isEmpty && !fone s Fld.DMC_STATUS_PANIC then (s.dmc.owed.map (·.1)).foldl delaysRefresh (owedIssue s) else s

/-- One normal burst. -/
def nrmBurst (s : State) (c n : Nat) (l : List (Nat × Nat)) : State :=
  { s with dmc := { s.dmc with nrm := if n ≤ 2048 then l else (c, n - 2048) :: l, streak := 0 } }

/-- The next burst: a real-time one, but a normal one after each eight of them outside panic, or where none waits. None starts in
self-refresh or during a speed change; normal requests are served while EN is 1 (R395, R397, R399). -/
def burst (s : State) : State :=
  if fone s Fld.DMC_STATUS_IN_SR || s.dmc.change.isSome then s
  else
    match s.dmc.rt, (if fone s Fld.DMC_CTRL_EN then s.dmc.nrm else []) with
    | r :: rs, (c, n) :: l => if s.dmc.streak = 8 ∧ !fone s Fld.DMC_STATUS_PANIC then nrmBurst s c n l else rtBurst s r rs
    | r :: rs, [] => rtBurst s r rs
    | [], (c, n) :: l => nrmBurst s c n l
    | [], [] => s

/-! ### Speed changes and gathers -/

/-- A gather window is open (R394). -/
def gatherOpen (s : State) : Bool := s.dmc.gather.isSome

/-- The window closes and its results are discarded: they read 0 (R394). -/
def gatherDiscard (s : State) : State :=
  if gatherOpen s then
    let s := resetWindow { s with dmc := { s.dmc with gather := none } } 0x40091000 0x400
    let s := fon (fset s Fld.DMC_GATHER_STATUS_STATE 0) Fld.DMC_GATHER_STATUS_DISCARDED
    let s := fset s Fld.DMC_GATHER_STATUS_STATUS ST_GATHER_DISCARDED
    let s := foff (foff s Fld.DMC_STATUS_GATHER_OPEN) Fld.DMC_GATHER_CTRL_GO
    fon (finc s (Fld.DMC_COUNT_COUNT 6)) Fld.DMC_EVENTS_GATHER_DISCARDED
  else s

/-- A refused speed change: only its status, and nothing changes (R396). -/
def speedRefuse (s : State) (st : Nat) : State :=
  fon (foff (fset s Fld.DMC_SPEED_STATUS_STATUS st) Fld.DMC_SPEED_REQ_GO) Fld.DMC_EVENTS_SPEED_REFUSED

/-- A request for a speed change to rate point `k` (R395, R396); one made while a change runs has no further effect
(R19). -/
def speedReq (s : State) (k : Nat) (force : Bool) : State :=
  if s.dmc.change.isSome then s
  else if gatherOpen s && !force then speedRefuse (finc s (Fld.DMC_COUNT_COUNT 5)) ST_BUSY_TRAINING
  else if fget s (Fld.DMC_RATE_MTS_100 k) = 0 then speedRefuse s ST_RATE_INVALID
  else if pfail s then speedRefuse s ST_BUSY
  else
    let s := gatherDiscard s
    let s := { s with dmc := { s.dmc with change := some k } }
    let s := foff (fset s Fld.DMC_SPEED_STATUS_STATUS ST_OK) Fld.DMC_SPEED_STATUS_DONE
    fon (fon s Fld.DMC_SPEED_REQ_GO) Fld.DMC_STATUS_CHANGING

/-- The refreshes every rank owes. -/
def owedAll (s : State) : Nat := s.dmc.owed.foldl (fun n e => n + e.2) 0

/-- A write of DMC_SPEED_REQ (R396). -/
def wrSpeedReq (s : State) (v : Word) : State :=
  let s := genWrite s Reg.DMC_SPEED_REQ v
  if bit v.toNat 3 then speedReq s (bits v.toNat 0 2) (bit v.toNat 2) else s

def execSpeedChangeRequest (m : Master) (v : Word) (s : State) : Out :=
  .next (gated s m Reg.DMC_SPEED_REQ fun s => wrSpeedReq s v)

/-- The end of a running change: owed refreshes have been issued, the ranks run at the target with its delay set (R392, R395). -/
def speedDone (s : State) : State :=
  match s.dmc.change with
  | none => s
  | some k =>
    let s := fadd s (Fld.DMC_COUNT_COUNT 0) (owedAll s)
    let s := { s with dmc := { s.dmc with change := none, owed := [], delays := delaysFrom s k fun _ => true } }
    let s := fon (fset s Fld.DMC_SPEED_STATUS_STATUS ST_OK) Fld.DMC_SPEED_STATUS_DONE
    let s := foff (foff s Fld.DMC_STATUS_CHANGING) Fld.DMC_SPEED_REQ_GO
    finc (fset s Fld.DMC_STATUS_RATE_IDX k) (Fld.DMC_COUNT_COUNT 4)

def execSpeedChangeDone (s : State) : Out := .next (speedDone s)

/-- The kind a gather sweeps: 7 is treated as 0 (R393). -/
def gatherKind (s : State) : Nat := let k := fget s Fld.DMC_GATHER_CTRL_KIND; if k = 7 then 0 else k

/-- The steps of a gather: 0 is treated as 1, values above 128 as 128. -/
def gatherCount (s : State) : Nat :=
  let n := fget s Fld.DMC_GATHER_RANGE_COUNT
  if n = 0 then 1 else if 128 < n then 128 else n

/-- A write of GO: opens the window, or refuses an offline kind while normal requests are served (R393, R394). A write
while the sweep runs has no further effect (R19). -/
def gatherGo (s : State) : State :=
  if gatherOpen s && decide (fget s Fld.DMC_GATHER_STATUS_STATE = 1) then s
  else if 4 ≤ gatherKind s ∧ fone s Fld.DMC_CTRL_EN then
    foff (fset s Fld.DMC_GATHER_STATUS_STATUS ST_GATHER_OFFLINE) Fld.DMC_GATHER_CTRL_GO
  else
    let s := resetWindow s 0x40091000 0x400
    let s := { s with dmc := { s.dmc with gather := some { kind := gatherKind s, last := now s } } }
    let s := fset (fset s Fld.DMC_GATHER_STATUS_STATE 1) Fld.DMC_GATHER_STATUS_DONE_STEPS 0
    let s := fset s Fld.DMC_GATHER_STATUS_STATUS ST_OK
    fon (fon s Fld.DMC_STATUS_GATHER_OPEN) Fld.DMC_GATHER_CTRL_GO


/-- The lanes a kind records (R393). -/
def gatherLanes (kind pass : Nat) : Nat :=
  if kind = 4 then pass % 16384 else if kind = 5 then (pass / 16384 % 2) * 16384 else pass % 1099511627776

/-- One step of the sweep; none starts while panic is asserted (R394). -/
def gatherStep (s : State) (pass : Nat) : State :=
  match s.dmc.gather with
  | none => s
  | some g =>
    if fget s Fld.DMC_GATHER_STATUS_STATE ≠ 1 ∨ fone s Fld.DMC_STATUS_PANIC then s
    else
      let k := fget s Fld.DMC_GATHER_STATUS_DONE_STEPS
      let v := gatherLanes g.kind pass
      let s := rset (rset s (Reg.DMC_GATHER_RESULT k 0) (v % 4294967296)) (Reg.DMC_GATHER_RESULT k 1) (v / 4294967296)
      let s := fset s Fld.DMC_GATHER_STATUS_DONE_STEPS (k + 1)
      let s := { s with dmc := { s.dmc with gather := some { g with last := now s } } }
      if gatherCount s ≤ k + 1 then foff (fset s Fld.DMC_GATHER_STATUS_STATE 2) Fld.DMC_GATHER_CTRL_GO else s

def execGatherStep (pass : Nat) (s : State) : Out := .next (gatherStep s pass)

/-- The window closes; recorded results stay until the next GO (R394). -/
def gatherClose (s : State) : State :=
  if gatherOpen s then
    let s := { s with dmc := { s.dmc with gather := none } }
    foff (foff (fset s Fld.DMC_GATHER_STATUS_STATE 0) Fld.DMC_STATUS_GATHER_OPEN) Fld.DMC_GATHER_CTRL_GO
  else s

def execGatherClose (m : Master) (s : State) : Out := .next (gated s m Reg.DMC_GATHER_CTRL gatherClose)

/-- A write of DMC_GATHER_CTRL: its fields, then CLOSE, then GO (R394). -/
def wrGatherCtrl (s : State) (v : Word) : State :=
  let s := genWrite s Reg.DMC_GATHER_CTRL v
  let s := if bit v.toNat 9 then gatherClose s else s
  if bit v.toNat 8 then gatherGo s else s

def execGatherOpen (m : Master) (v : Word) (s : State) : Out :=
  .next (gated s m Reg.DMC_GATHER_CTRL fun s => wrGatherCtrl s (v ||| 0x100))

/-- TIMEOUT.MS after the last step the window closes (R394); 0 is treated as 1. -/
def execGatherTimeout (s : State) : Out :=
  match s.dmc.gather with
  | some g =>
    if fget s Fld.DMC_GATHER_STATUS_STATE = 2 then
      let ms := fget s Fld.DMC_GATHER_TIMEOUT_MS
      .next (gatherClose (reach s (g.last + (if ms = 0 then 1 else ms) * 1000000)))
    else .next s
  | none => .next s

/-- A rank's refresh falls due: it is issued, postponed while panic is asserted or a real-time request waits, and forced at 4 owed
(R398, R399). -/
def refreshDue (s : State) (rank : Nat) : State :=
  if fone s Fld.DMC_STATUS_IN_SR then s
  else
    let n := SMap.getD s.dmc.owed rank 0 + 1
    if 4 ≤ n then
      let s := fadd s (Fld.DMC_COUNT_COUNT 0) n
      let s := fon (finc s (Fld.DMC_COUNT_COUNT 2)) Fld.DMC_EVENTS_REFRESH_FORCED
      delaysRefresh { s with dmc := { s.dmc with owed := SMap.del s.dmc.owed rank } } rank
    else if fone s Fld.DMC_STATUS_PANIC || !s.dmc.rt.isEmpty then
      { finc s (Fld.DMC_COUNT_COUNT 1) with dmc := { s.dmc with owed := SMap.put s.dmc.owed rank n } }
    else
      delaysRefresh { fadd s (Fld.DMC_COUNT_COUNT 0) n with dmc := { s.dmc with owed := SMap.del s.dmc.owed rank } } rank

def execRefreshDue (rank : Fin 16) (s : State) : Out := .next (refreshDue s rank.val)

/-- Panic is asserted (R399). -/
def panicOn (s : State) : State :=
  if fone s Fld.DMC_STATUS_PANIC then s
  else fon (fon (finc s (Fld.DMC_COUNT_COUNT 3)) Fld.DMC_EVENTS_PANIC) Fld.DMC_STATUS_PANIC

/-- A real-time request has waited `waited` ns (R399). -/
def execPanicAssert (waited : Nat) (s : State) : Out :=
  .next (if fget s Fld.DMC_RT_PANIC_NS ≤ waited ∨ pfail s then panicOn s else s)

/-- Panic ends; owed refreshes are issued unless a real-time request still waits (R398, R399). -/
def panicOff (s : State) : State :=
  let s := foff s Fld.DMC_STATUS_PANIC
  if s.dmc.rt.isEmpty then (s.dmc.owed.map (·.1)).foldl delaysRefresh (owedIssue s) else s

/-- No real-time request has waited too long and power-fail is not asserted (R399). -/
def execPanicEnd (s : State) : Out := .next (if pfail s then s else panicOff s)

/-- A poll of mode register 4: `band` is the hottest reading of the rank, 0 below the 2× band, 1 in it, 2 hotter (R400). -/
def mr4 (s : State) (rank band : Nat) : State :=
  let s := { s with dmc := { s.dmc with band := SMap.put s.dmc.band rank band } }
  if band = 0 then
    if fbit s Fld.DMC_REFRESH_2X_RANKS rank then
      if s.dmc.cool.contains rank then
        let s := fbitoff s Fld.DMC_REFRESH_2X_RANKS rank
        { s with dmc := { s.dmc with cool := s.dmc.cool.filter (· != rank) } }
      else { s with dmc := { s.dmc with cool := rank :: s.dmc.cool } }
    else s
  else
    let s := { s with dmc := { s.dmc with cool := s.dmc.cool.filter (· != rank) } }
    let s := finc s (Fld.DMC_COUNT_COUNT 7)
    let s := if fbit s Fld.DMC_REFRESH_2X_RANKS rank then s
      else fon (fbiton s Fld.DMC_REFRESH_2X_RANKS rank) Fld.DMC_EVENTS_TEMP_2X
    if 2 ≤ band then fon { s with ump := { s.ump with hot := true } } Fld.DMC_EVENTS_TEMP_ABOVE_2X else s

def execMr4Poll (rank : Fin 16) (band : Nat) (s : State) : Out := .next (mr4 s rank.val band)

/-- A write of DMC_CTRL: with SELF_REFRESH every rank enters or leaves self-refresh; in PS3 and PS4 they stay in it (R401). -/
def wrDmcCtrl (s : State) (v : Word) : State :=
  let s := genWrite s Reg.DMC_CTRL v
  fset s Fld.DMC_STATUS_IN_SR (if umpAsleep s then 1 else fget s Fld.DMC_CTRL_SELF_REFRESH)

def execDmcSelfRefresh (m : Master) (v : Word) (s : State) : Out :=
  .next (gated s m Reg.DMC_CTRL fun s => wrDmcCtrl s v)

end Sys2Proof.Machine
end

