-- ==== Sys2Proof/Machine/Locket.lean ====
section
/-! DEFINITION. The Locket recorder: its Clasp area, flushes, freezes, the boot scan (R575–R587, R591). -/
namespace Sys2Proof.Machine
open Sys2Proof

/-! ### Slots (R575, R579, R580) -/

/-- A record's 32 bytes; parameters 3 and 4 read 0 where they are blinded (R79). -/
def recBytes (r : LktRec) (blind : Bool) : List Byte :=
  let p := fun v => if blind && r.code.testBit 15 then 0 else v
  le 2 r.code ++ le 2 r.idx ++ le 4 r.boot ++ le 8 r.time ++ le 4 r.p1 ++ le 4 r.p2 ++ le 4 (p r.p3) ++ le 4 (p r.p4)

/-- A slot's 32 bytes. -/
def slotBytes : LktSlot → List Byte
  | .record r => recBytes r false
  | .seal boot time crc first count late =>
    le 2 0x5BFF ++ le 2 0xFFFF ++ le 4 boot ++ le 8 time ++ le 4 crc ++ le 4 first ++ le 4 count ++ le 4 (b2n late)
  | .torn => List.replicate 32 0xFF

/-- Slots of the area, and of a segment. -/
def lktSlots : Nat := 262144
def segSlots : Nat := 2048

/-- The bytes of a segment's first `n` slots; an erased slot reads all ones. -/
def segBytes (area : SMap LktSlot) (seg n : Nat) : List Byte :=
  (List.range n).flatMap fun i =>
    match SMap.find area (seg * segSlots + i) with
    | some x => slotBytes x
    | none => List.replicate 32 0xFF

/-- A segment holds nothing. -/
def segErased (area : SMap LktSlot) (seg : Nat) : Bool := !(area.any fun e => e.1 / segSlots == seg)

/-- The head moves on one slot; entering the last erased segment, the oldest is erased (R579). -/
def headStep (l : Lkt) : Lkt :=
  let h := (l.head + 1) % lktSlots
  if h % segSlots = 0 then
    let nxt := (h / segSlots + 1) % 128
    { l with head := h, area := l.area.filter fun e => e.1 / segSlots != nxt, bad := l.bad.filter (· != nxt) }
  else { l with head := h }

/-- Programs a seal that covers `count` records from index `first` on (R580). -/
def sealPut (l : Lkt) (boot time first count : Nat) (late : Bool) : Lkt :=
  let crc := crc32 (segBytes l.area (l.head / segSlots) (l.head % segSlots))
  headStep { l with area := SMap.put l.area l.head (.seal boot time crc (first % 4294967296) count late), flushed := max l.flushed (first + count) }

/-- Programs records, oldest first; a segment's last slot takes a seal (R580). The result carries the first index and the number of
records that no seal covers yet. -/
def recsPut (boot time : Nat) : List LktRec → Lkt → Nat → Nat → Lkt × Nat × Nat
  | [], l, first, n => (l, first, n)
  | r :: rs, l, first, n =>
    let first := if n = 0 then r.idx else first
    let l := headStep { l with area := SMap.put l.area l.head (.record r) }
    if l.head % segSlots = segSlots - 1 then recsPut boot time rs (sealPut l boot time first (n + 1) false) r.idx 0
    else recsPut boot time rs l first (n + 1)

/-! ### Flushes (R581) -/

/-- Moves the side buffer into the ring as room allows (R583). -/
def sideMove : Nat → Lkt → Lkt
  | 0, l => l
  | n + 1, l =>
    if l.freeze.isSome || decide (2048 ≤ (unflushed l).length) then l
    else
      match l.side with
      | r :: rs => sideMove n { l with ring := ringPush l.ring r, side := rs }
      | [] => l

/-- The programs of a flush. -/
def flushStart (s : State) : State :=
  let r := recsPut s.tmb.boots (now s) (unflushed s.lkt) s.lkt s.lkt.flushed 0
  { s with lkt := { r.1 with flush := some (r.2.1, r.2.2) } }

/-- The seal of a flush: its records are flushed, and the side buffer moves up (R580, R583). -/
def flushEnd (s : State) : State :=
  match s.lkt.flush with
  | some (first, n) =>
    let l := if n = 0 then s.lkt else sealPut s.lkt s.tmb.boots (now s) first n false
    let l := sideMove 128 { l with flush := none }
    let due := (unflushed l).any fun r => fbit s Fld.LKT_URGENT_MASK (r.code / 1024 % 32)
    finc { s with lkt := { l with due := due } } Fld.LKT_FLUSHES_COUNT
  | none => s

/-- The segments that a flush erases: the one after each segment whose first slot the head reaches (R579). -/
def flushErases (s : State) : List Nat :=
  let n := s.lkt.head % segSlots + (unflushed s.lkt).length + 1
  (List.range 2).filterMap fun i =>
    if segSlots * (i + 1) ≤ n + i then some ((s.lkt.head / segSlots + i + 2) % 128) else none

/-- An open read volley still has to return a record that lies in a segment the flush would erase (R586). -/
def readHolds (s : State) : Bool :=
  let segs := flushErases s
  s.mbx.chans.any fun e => match e.2.volley with
    | some v => v.opcode == 0x0702 && v.ents.any fun x => decide (v.sent < x.2) &&
        s.lkt.area.any fun y => segs.contains (y.1 / segSlots) && (match y.2 with | .record r => r.idx == x.1 | _ => false)
    | none => false

/-- A flush starts when a condition of R581 holds; the age of the oldest unflushed record makes one due in time. -/
def flushTry (s : State) : State :=
  if !fone s Fld.LKT_CTRL_EN || s.lkt.freeze.isSome || s.lkt.flush.isSome || pulsesBlocked s || readHolds s then s
  else
    match unflushed s.lkt with
    | [] => s
    | r :: rs =>
      if max 1 (fget s Fld.LKT_FLUSH_WATER) ≤ rs.length + 1 ∨ s.lkt.due then flushStart s
      else flushStart (reach s (r.time + max 1 (fget s Fld.LKT_FLUSH_PERIOD_MS) * 1000000))

def execLocketFlush (s : State) : Out := .next (flushTry s)

/-- The flush's seal is programmed, unless pulses are blocked (R581). -/
def execLocketFlushDone (s : State) : Out := .next (if pulsesBlocked s then s else flushEnd s)

/-! ### Freezes (R583, R587) -/

/-- A freeze ends; `late` when MAX_S ended it. -/
def freezeEnd (s : State) (late : Bool) : State :=
  match s.lkt.freeze with
  | some f =>
    let n := s.lkt.side.length
    let lost := fget s Fld.LKT_LOST_COUNT - f.lost0
    let s := post { s with lkt := { s.lkt with freeze := none } } 22 4 false n lost (b2n late) 0
    { s with lkt := { sideMove 129 s.lkt with due := true } }
  | none => s

/-- MAX_S seconds after the freeze was accepted. -/
def execFreezeTimeout (s : State) : Out :=
  .next (match s.lkt.freeze with
    | some f => fon (freezeEnd (reach s f.endTime) true) Fld.LKT_EVENTS_FREEZE_TIMEOUT
    | none => s)

/-- The flush of a power-fail or a reset: a freeze ends, the side buffer is carried too (R54 step 6, R581, R590). -/
def flushPower (s : State) : State :=
  let s := freezeEnd s false
  if pulsesBlocked s || !fone s Fld.LKT_CTRL_EN then s
  else
    let s := if s.lkt.flush.isSome then flushEnd s else s
    let s := flushEnd (flushStart s)
    if s.lkt.side.isEmpty then s
    else flushEnd (flushStart { s with lkt := sideMove 129 s.lkt })

/-- The Clasp die loses its supply while a flush programs: how many of its records were programmed is open, and so is whether the
next slot is torn (R582). -/
def lktCut (s : State) : State :=
  match s.lkt.flush with
  | none => s
  | some (first, n) =>
    let k := openVal s % (n + 1)
    let torn : Bool := decide (k < n) && (openVal s / 65536).testBit 0
    let cut := fun (x : LktSlot) => match x with
      | .record r => if r.idx < first + k then some x else if torn && r.idx == first + k then some .torn else none
      | _ => some x
    let area := s.lkt.area.filterMap fun e => (cut e.2).map fun x => (e.1, x)
    let head := (s.lkt.head + lktSlots - (n - k) + b2n torn) % lktSlots
    openTaken { s with lkt := { s.lkt with area := area, head := head, flush := none } }

/-! ### The boot scan (R582) -/

/-- Programmed records of the area that no seal covers. -/
def uncovered (l : Lkt) : List LktRec :=
  l.area.filterMap fun e => match e.2 with | .record r => if l.flushed ≤ r.idx then some r else none | _ => none

/-- The last seal of a segment and its slot. -/
def lastSeal (area : SMap LktSlot) (seg : Nat) : Option (Nat × Nat) :=
  area.foldl (fun acc e => match e.2 with | .seal _ _ crc _ _ _ => if e.1 / segSlots = seg then some (e.1, crc) else acc | _ => acc) none

/-- Segments that fail their last seal's CRC. -/
def badSegs (area : SMap LktSlot) : List Nat :=
  (List.range 128).filter fun seg =>
    match lastSeal area seg with
    | some (k, crc) => crc32 (segBytes area seg (k % segSlots)) != crc
    | none => false

/-- The LKT block at a boot: the ring and the side buffer are empty, programmed slots without a seal get a LATE one, torn slots are
counted lost, segments are checked, and the next index follows the newest record. -/
def lktBoot (s : State) : State :=
  let un := uncovered s.lkt
  let l := { s.lkt with ring := [], side := [], freeze := none, flush := none, due := false, rate := [], supp := [], lostNew := 0 }
  let l := match un with
    | r :: _ => sealPut l s.tmb.boots (now s) r.idx un.length true
    | [] => l
  let newest := l.area.foldl (fun n e => match e.2 with | .record r => max n (r.idx + 1) | _ => n) 0
  let torn := SMap.cnt l.area fun _ x => x == .torn
  let bad := badSegs l.area
  let s := { s with lkt := { l with next := max newest l.flushed, bad := bad } }
  let s := if torn = 0 then s else fon (fadd s Fld.LKT_LOST_COUNT torn) Fld.LKT_EVENTS_TORN
  if bad.isEmpty then s
  else bad.foldl (fun s k => post s 22 6 false k 0 0 0) (fon s Fld.LKT_EVENTS_BAD_SEGMENT)

/-- The LKT block accepts the records the SGD held, ahead of every other record of the boot, and then the LOST record (R613). -/
def heldAccept (s : State) : State :=
  let held := s.sgd.held
  let n := s.sgd.heldLost
  let s := { s with sgd := { s.sgd with held := [], heldLost := 0 } }
  let s := held.foldl (fun s h => lktAccept s (lktCode 12 h.event false) h.time h.p1 h.p2 h.p3 h.p4) s
  if n = 0 then s else lktAccept s (lktCode 22 1 false) (now s) n 0 0 0

/-! ### The firmware post interface (R591) -/

/-- A pair posts the record its interface holds; codes of the recorder itself, of violations and of cards are refused. -/
def lktPost (s : State) (p : Nat) : State :=
  let code := fget s (Fld.LKT_POST_CODE_CODE p)
  let src := code / 1024 % 32
  let ev := code % 1024
  let k := fun i => rget s (Reg.LKT_POST_P p i)
  if src = 22 ∨ (src = 23 ∧ 1 ≤ ev ∧ ev ≤ 0x12) then fset s (Fld.LKT_POST_GO_STATUS p) ST_DENIED
  else fset (post s src ev (code.testBit 15) (k 0) (k 1) (k 2) (k 3)) (Fld.LKT_POST_GO_STATUS p) ST_OK

/-- The interface of pair `p` acts only for pair `p`. -/
def wrPostGoLkt (s : State) (m : Master) (p : Nat) : State :=
  match m with
  | .pair q => if q.val = p then lktPost s p else s
  | _ => s

def execLocketPost (p : Fin 8) (s : State) : Out :=
  .next (gated s (.pair p) (Reg.LKT_POST_GO p.val) fun s => wrPostGoLkt s (.pair p) p.val)

/-- The oldest index still held (R585). -/
def lktOldest (l : Lkt) : Nat :=
  let a := l.area.foldl (fun n e => match e.2 with | .record r => min n r.idx | _ => n) l.next
  ((l.ring ++ l.side).foldl (fun n r => min n r.idx) a)

end Sys2Proof.Machine
end

