-- ==== Sys2Proof/Machine/Umpire.lean ====
section
/-! DEFINITION. The Umpire: budgets, performance points, calls and their payment (R412–R434). -/
namespace Sys2Proof.Machine
open Sys2Proof

/-- The account of device work (R425). -/
def deviceAcct : Nat := 1024

/-- The state fraction in % (R148); an excursion takes that of PS2 (R412). -/
def stateFraction (s : State) : Nat :=
  match effPs s with
  | 0 => 100
  | 1 => 70
  | _ => 50

/-- W_eff (R412); fractions of a watt are dropped. -/
def wEff (s : State) : Nat :=
  if s.ump.holdup then fget s Fld.UMP_HOLDUP_BUDGET_W
  else if umpAsleep s then 0
  else fget s Fld.UMP_BUDGET_IN_FORCE_W * stateFraction s * fget s Fld.UMP_EFFECTIVE_THERMAL / 800

/-- The base at a performance point (R413). -/
def ppBase (s : State) (p : Nat) : Nat := fget s (Fld.UMP_PP_ALLOW_W p) + fget s Fld.UMP_BASE_OTHER_W

/-- The base in force: the higher of the points a running change moves between (R413, R432). -/
def baseNow (s : State) : Nat :=
  let b := ppBase s (fget s Fld.UMP_PP_CTRL_PP_NOW)
  if fone s Fld.UMP_PP_CTRL_CHANGING then
    max b (max (ppBase s (fget s Fld.UMP_PP_CTRL_PP_TARGET)) (ppBase s s.ump.fromPp))
  else b

/-- The set-point of a point in mV (R416). -/
def setPoint (s : State) (p : Nat) : Nat := fget s (Fld.UMP_PP_VSET_MV p) + fget s (Fld.UMP_PP_AGE_MV p)

/-- A value brought into a range. -/
def clamp (lo hi v : Nat) : Nat := if v < lo then lo else if hi < v then hi else v

/-- The effective current budgets (R414); energies in units of 0.1 mW. -/
def setCurrents (s : State) : State :=
  let h := fget s Fld.UMP_EFFECTIVE_W_EFF * clamp 100 200 (fget s Fld.UMP_PEAK_PEAK_PCT) * 100 - baseNow s * 10000
  let icc := fget s Fld.UMP_ICC_BUDGET_100MA
  let iccq := fget s Fld.UMP_ICCQ_BUDGET_100MA
  let c := fget s Fld.UMP_RAILS_VCC_MV * icc + fget s Fld.UMP_RAILS_VCCQ_MV * iccq
  if c ≤ h then fset (fset s Fld.UMP_ICC_EFF_100MA icc) Fld.UMP_ICCQ_EFF_100MA iccq
  else fset (fset s Fld.UMP_ICC_EFF_100MA (icc * h / c)) Fld.UMP_ICCQ_EFF_100MA (iccq * h / c)

/-- Starts a change to a point: VOUT_COMMAND is written (R418). -/
def ppStart (s : State) (p : Nat) : State :=
  let tgt := fget s Fld.UMP_PP_CTRL_PP_TARGET
  let frm :=
    if fone s Fld.UMP_PP_CTRL_CHANGING then (if ppBase s s.ump.fromPp < ppBase s tgt then tgt else s.ump.fromPp)
    else fget s Fld.UMP_PP_CTRL_PP_NOW
  let s := { s with ump := { s.ump with fromPp := frm } }
  setCurrents (fon (fset s Fld.UMP_PP_CTRL_PP_TARGET p) Fld.UMP_PP_CTRL_CHANGING)

/-- The target point of an epoch (R417). -/
def ppTarget (s : State) : Nat :=
  let lo := fget s Fld.UMP_PP_CTRL_PP_MIN
  let hi := fget s Fld.UMP_PP_CTRL_PP_MAX
  if s.ump.holdup then fget s Fld.UMP_HOLDUP_PP
  else if umpAsleep s then 0
  else
    ((List.range 8).filter fun p => decide (lo ≤ p ∧ p ≤ hi ∧
      ppBase s p * 100 ≤ fget s Fld.UMP_EFFECTIVE_W_EFF * fget s Fld.UMP_PP_CTRL_CORE_PCT)).getLastD lo

/-- The token count of W_eff and the base in force (R413). -/
def setTokens (s : State) : State :=
  let w := fget s Fld.UMP_EFFECTIVE_W_EFF
  let fm := fget s Fld.UMP_BASE_FLASH_MIN_W
  if umpAsleep s ∧ !s.ump.holdup then { s with ump := { s.ump with tokens := 0, unmet := false } }
  else if w < baseNow s + fm then
    finc (fon { s with ump := { s.ump with tokens := fm * 10000, unmet := true } } Fld.UMP_EVENTS_BUDGET_UNMET)
      (Fld.UMP_COUNT_COUNT 5)
  else { s with ump := { s.ump with tokens := (w - baseNow s) * 10000, unmet := false } }

/-- Slices not in FREE with their POWER_SHARE, in ascending order. -/
def powerShares (s : State) : List (Nat × Nat × Bool) := s.slm.slices.map fun e => (e.1, e.2.shares.power, e.2.iso)

/-- Floors, reserves and the pool of an epoch (R428); in hold-up mode everything is the pool (R431). -/
def setFloors (s : State) : State :=
  let t := s.ump.tokens
  if s.ump.holdup then { s with ump := { s.ump with floor := [], left := [], pool := t, resIcc := [] } }
  else
    let d := t * fget s Fld.UMP_BASE_DEVICE_PCT / 100
    let fl := (powerShares s).map fun e => (e.1, (t - d) * e.2.1 / 1024)
    let icc := fget s Fld.UMP_ICC_EFF_100MA * 100
    let res := ((powerShares s).filter fun e => e.2.2).map fun e => (e.1, icc * e.2.1 / 1024)
    let tot := fl.foldl (fun n e => n + e.2) 0
    let fl := fl ++ [(deviceAcct, d)]
    { s with ump := { s.ump with floor := fl, left := fl, pool := t - d - tot, resIcc := res } }

/-- VCC current now held, in mA: all granted calls, or those of one pool. -/
def iccHeld (s : State) (p : Call → Bool) : Nat :=
  (s.ump.calls.filter fun e => e.2.granted && p e.2).foldl (fun n e => n + e.2.icc) 0

/-- The die type of a die (R421). -/
def dieType (s : State) (die : Nat) : Nat := bits (rget s (Reg.UMP_DIE_TYPE (die / 16))) (2 * (die % 16)) 2

/-- The index of a cost entry (R435). -/
def costIx (ty mode op : Nat) : Nat := 24 * ty + 8 * mode + op

/-- The highest XFER ICCQ among the die types on a channel (R415). -/
def chanIccq (s : State) (ch : Nat) : Nat :=
  (List.range 32).foldl (fun m pos =>
    if fbit s (Fld.CHS_DIE_MAP_DIES ch) pos then
      (List.range 3).foldl (fun m md =>
        max m (fget s (Fld.UMP_COST1_ICCQ_MA (fget s Fld.UMP_COST_BANK_ACTIVE) (costIx (dieType s (32 * ch + pos)) md 5)))) m
    else m) 0

/-- A channel counts its ICCQ: a granted call of the shared pool on it moves codewords (R415, R428). -/
def chanCounted (s : State) (ch : Nat) : Bool :=
  s.ump.calls.any fun e => e.2.granted && e.2.iso.isNone && decide (e.2.iccq ≠ 0 ∧ e.2.die / 32 = ch)

/-- ICCQ now counted in the shared pool, in mA. -/
def iccqHeld (s : State) : Nat :=
  (List.range 64).foldl (fun n ch => if chanCounted s ch then n + chanIccq s ch else n) 0

/-- The group of a die (R227). -/
def groupOf (die : Nat) : Nat := 4 * (die % 32) + die / 32 / 16

/-- The member of a die in its group. -/
def memberOf (die : Nat) : Nat := die / 32 % 16

/-- The die that is member `m` of group `g` (R227). -/
def dieOf (g m : Nat) : Nat := 32 * (16 * (g % 4) + m) + g / 4

/-- The isolated slice to which a group is dedicated (R251). -/
def isoOf (s : State) (g : Nat) : Option Nat := (s.slm.slices.find? fun e => e.2.iso && e.2.groups.contains g).map (·.1)

/-- A channel carries a dedicated group member (R428). -/
def chanDedicated (s : State) (ch : Nat) : Bool :=
  s.slm.slices.any fun e => e.2.iso && e.2.groups.any fun g => g % 4 == ch / 16

/-- The shared VCCQ budget in mA (R428). -/
def sharedIccq (s : State) : Nat :=
  fget s Fld.UMP_ICCQ_EFF_100MA * 100 -
    (List.range 64).foldl (fun n ch => if chanDedicated s ch then n + chanIccq s ch else n) 0

/-- The shared VCC budget in mA (R428). -/
def sharedIcc (s : State) : Nat := fget s Fld.UMP_ICC_EFF_100MA * 100 - s.ump.resIcc.foldl (fun n e => n + e.2) 0

/-- The floors are open to other accounts: FLOOR_HOLD_US into the epoch (R428). -/
def floorsOpen (s : State) : Bool :=
  decide (clamp 0 1000 (fget s Fld.UMP_CALL_FLOOR_HOLD_US) * 1000 ≤ now s - s.slm.epoch * 1000000)

/-- The account is an isolated slice. -/
def isoAcct (s : State) (a : Nat) : Bool :=
  match SMap.find s.slm.slices a with
  | some c => c.iso
  | none => false

/-- Takes up to `k` tokens from other floors in ascending account order (R428): what is left to find, and the floors. -/
def drawFloors (s : State) (self : Nat) : SMap Nat → Nat → Nat × SMap Nat
  | [], k => (k, [])
  | (b, v) :: m, k =>
    if b = self || isoAcct s b then
      let r := drawFloors s self m k
      (r.1, (b, v) :: r.2)
    else
      let t := min k v
      let r := drawFloors s self m (k - t)
      (r.1, (b, v - t) :: r.2)

/-- The payment of cost `k` by account `a` (R428): the floors and the pool after it, when it can pay. -/
def payOne (s : State) (left : SMap Nat) (pool a k : Nat) : Option (SMap Nat × Nat) :=
  let mine := SMap.getD left a 0
  if isoAcct s a && !s.ump.holdup then
    if k ≤ mine then some (SMap.put left a (mine - k), pool) else none
  else
    let own := min k mine
    let left' := if own = 0 then left else SMap.put left a (mine - own)
    let ovr := k - own
    if ovr ≤ pool then some (left', pool - ovr)
    else if floorsOpen s then
      let r := drawFloors s a left' (ovr - pool)
      if r.1 = 0 then some (r.2, 0) else none
    else none

/-- The payment of every share of a call, as one act. -/
def payAll (s : State) : List (Nat × Nat) → SMap Nat → Nat → Option (SMap Nat × Nat)
  | [], left, pool => some (left, pool)
  | (a, k) :: r, left, pool =>
    match payOne s left pool a k with
    | some (left', pool') => payAll s r left' pool'
    | none => none

/-- The cost of a call in tokens. -/
def callCost (c : Call) : Nat := c.shares.foldl (fun n e => n + e.2) 0

/-- The currents of a call fit its pool (R424, R428). -/
def currentFits (s : State) (c : Call) : Bool :=
  match c.iso with
  | some n => decide (iccHeld s (fun d => d.iso == some n) + c.icc ≤ SMap.getD s.ump.resIcc n 0)
  | none =>
    decide (iccHeld s (fun d => d.iso.isNone) + c.icc ≤ sharedIcc s) &&
    (c.iccq == 0 || chanCounted s (c.die / 32) || decide (iccqHeld s + chanIccq s (c.die / 32) ≤ sharedIccq s))

/-- A call can be granted now, the waiting order aside (R424, R430). -/
def callFits (s : State) (c : Call) : Bool :=
  fone s Fld.UMP_CTRL_EN && !(umpAsleep s && !s.ump.holdup) && currentFits s c &&
  (payAll s c.shares s.ump.left s.ump.pool).isSome

/-- The waiting order: deadline, class, then the priority token's position `tok` (R424). -/
def callBefore (tok a : Nat) (x : Call) (b : Nat) (y : Call) : Bool :=
  decide (x.deadline < y.deadline ∨ x.deadline = y.deadline ∧ (x.cls < y.cls ∨
    x.cls = y.cls ∧ (a + 4096 - tok) % 4096 < (b + 4096 - tok) % 4096))

/-- A call that has waited HOL_US bars a call of its pool at a later or equal position (R424). -/
def holBars (s : State) (n : Nat) (c : Call) : Bool :=
  s.ump.calls.any fun e => !e.2.granted && e.2.hol && e.1 != n && e.2.iso == c.iso &&
    !(callBefore s.ump.tok n c e.1 e.2 && !(c.deadline == e.2.deadline && c.cls == e.2.cls))

/-- Call `n` is the next to be granted: it fits, nothing bars it, and no earlier waiting call fits (R424). -/
def callNext (s : State) (n : Nat) (c : Call) : Bool :=
  callFits s c && !holBars s n c &&
  s.ump.calls.all fun e => e.2.granted || e.1 == n || !(callBefore s.ump.tok e.1 e.2 n c && callFits s e.2 && !holBars s e.1 e.2)

/-- Notes the highest granted sums (R434) and the currents now granted. -/
def noteCurrents (s : State) : State :=
  let i := iccHeld s (fun _ => true)
  let q := iccqHeld s
  let s := { s with ump := { s.ump with iccMax := max s.ump.iccMax i, iccqMax := max s.ump.iccqMax q } }
  fset (fset s Fld.UMP_ICC_NOW_GRANTED_100MA ((i + 99) / 100)) Fld.UMP_ICCQ_NOW_GRANTED_100MA ((q + 99) / 100)

/-- Grants call `n`: its shares are paid, its currents held (R424, R428). -/
def callGrant (s : State) (n : Nat) (c : Call) : State :=
  match payAll s c.shares s.ump.left s.ump.pool with
  | none => s
  | some (left, pool) =>
    let w := SMap.getD s.ump.waits c.op (0, 0)
    let u := { s.ump with
      left := left, pool := pool, tok := (n + 1) % 4096,
      calls := SMap.put s.ump.calls n { c with granted := true, hol := false, epoch := s.slm.epoch },
      used := s.ump.used + callCost c,
      usedBy := c.shares.foldl (fun m e => SMap.put m e.1 (SMap.getD m e.1 0 + e.2)) s.ump.usedBy,
      waits := SMap.put s.ump.waits c.op (w.1 + (now s - c.since), w.2 + 1) }
    noteCurrents (finc { s with ump := u } (Fld.UMP_COUNT_COUNT 0))

/-- The lowest free call slot (R423); 4,096 when none is free. -/
def freeSlot : SMap Call → Nat → Nat
  | [], k => k
  | (n, _) :: m, k => if n = k then freeSlot m (k + 1) else k

/-- The entries of the cost bank in force (R421). -/
def costEnergy (s : State) (die mode op : Nat) : Nat :=
  fget s (Fld.UMP_COST0_ENERGY (fget s Fld.UMP_COST_BANK_ACTIVE) (costIx (dieType s die) mode op))
def costIcc (s : State) (die mode op : Nat) : Nat :=
  fget s (Fld.UMP_COST0_ICC_MA (fget s Fld.UMP_COST_BANK_ACTIVE) (costIx (dieType s die) mode op))

/-- The cost of op `op` on `k` planes moving `n` codewords (R421). -/
def opCost (s : State) (die mode op k n : Nat) : Nat := k * costEnergy s die mode op + n * costEnergy s die mode 5

/-- Splits a cost into equal shares over accounts, one an entry; what does not divide falls on the first (R425). -/
def splitCost (cost : Nat) (accts : List Nat) : List (Nat × Nat) :=
  match accts with
  | [] => [(deviceAcct, cost)]
  | a :: as =>
    let q := cost / accts.length
    (a, cost - q * as.length) :: as.map fun b => (b, q)

/-- In hold-up mode every call is charged to the device account (R431). -/
def chargeTo (s : State) (sh : List (Nat × Nat)) : List (Nat × Nat) :=
  if s.ump.holdup then [(deviceAcct, sh.foldl (fun n e => n + e.2) 0)] else sh

/-- A call request (R423, R424): its slot, and the state in which it is granted at once or waits. With no free slot, or
withdrawn by hold-up mode (R431), it has none. -/
def callRequest (s : State) (c : Call) : Option Nat × State :=
  let n := freeSlot s.ump.calls 0
  if 4096 ≤ n then (none, s)
  else if s.ump.holdup && c.kind != 2 then (none, finc s (Fld.UMP_COUNT_COUNT 7))
  else
    let gen := (SMap.getD s.ump.gens n 0 + 1) % 65536
    let c := { c with gen := gen, shares := chargeTo s c.shares, since := now s, granted := false, hol := false }
    let s := { s with ump := { s.ump with calls := SMap.put s.ump.calls n c, gens := SMap.put s.ump.gens n gen } }
    if callNext s n c then (some n, callGrant s n c) else (some n, finc s (Fld.UMP_COUNT_COUNT 1))

/-- The 32-bit handle of a call (R423). -/
def callHandle (s : State) (n : Nat) : Nat :=
  match SMap.find s.ump.calls n with
  | some c => n + b2n (c.kind == 1) * 4096 + c.gen * 65536
  | none => 0

/-- A call is returned: its currents are released, its tokens are not refunded (R426). -/
def callReturn (s : State) (n : Nat) : State :=
  noteCurrents { s with ump := { s.ump with calls := SMap.del s.ump.calls n } }

/-- A call whose descriptor was withdrawn before it started is returned: in the epoch of its grant its tokens go back to
the accounts that paid, up to their floors, and else to the pool (R426). -/
def callRefund (s : State) (n : Nat) : State :=
  match SMap.find s.ump.calls n with
  | none => s
  | some c =>
    let s := callReturn s n
    if c.granted ∧ c.epoch = s.slm.epoch then
      let back := fun (u : Ump) (e : Nat × Nat) =>
        let l := SMap.getD u.left e.1 0
        let f := SMap.getD u.floor e.1 0
        let own := min e.2 (f - l)
        { u with left := if own = 0 then u.left else SMap.put u.left e.1 (l + own),
                 pool := if isoAcct s e.1 then u.pool else u.pool + (e.2 - own),
                 used := u.used - e.2,
                 usedBy := SMap.put u.usedBy e.1 (SMap.getD u.usedBy e.1 0 - e.2) }
      { s with ump := c.shares.foldl back s.ump }
    else s

/-- The tests of a group call, one member after the other: all granted in one act, or none (R427). -/
def groupGrant (s : State) : List Call → Option (List Nat × State)
  | [] => some ([], s)
  | c :: cs =>
    let n := freeSlot s.ump.calls 0
    let gen := (SMap.getD s.ump.gens n 0 + 1) % 65536
    let c := { c with kind := 1, gen := gen, since := now s, granted := false, hol := false }
    let s1 := { s with ump := { s.ump with calls := SMap.put s.ump.calls n c, gens := SMap.put s.ump.gens n gen } }
    if n < 4096 ∧ callFits s1 c then
      match groupGrant (callGrant s1 n c) cs with
      | some (ns, s2) => some (n :: ns, s2)
      | none => none
    else none

/-- The refusal of a group call. -/
def groupRefuse (s : State) : State :=
  let s := fon (finc s (Fld.UMP_COUNT_COUNT 3)) Fld.UMP_EVENTS_GROUP_REFUSED
  { s with ump := { s.ump with refused := s.ump.refused + 1 } }

/-- A group call (R427): the granted slots, or the refusal, which never waits. -/
def groupCall (s : State) (cs : List Call) : Option (List Nat) × State :=
  if s.ump.holdup then (none, groupRefuse s)
  else
    match groupGrant s cs with
    | some (ns, s') => (some ns, finc s' (Fld.UMP_COUNT_COUNT 2))
    | none => (none, groupRefuse s)

/-- The mean wait of each op in the epoch that ends (R424). -/
def setWaits (s : State) : State :=
  (List.range 6).foldl (fun s k =>
    let w := SMap.getD s.ump.waits k (0, 0)
    fset s (Fld.UMP_WAIT_NS_MEAN_NS k) (if w.2 = 0 then 0 else sat 24 (w.1 / w.2))) s

/-- Power of an epoch's energy in 0.1 W: tokens of 0.1 µJ in 1 ms. -/
def tokensDw (t : Nat) : Nat := t / 1000

/-- The rate point firmware chooses at a performance point (R420). -/
def dramPoint (s : State) (p : Nat) : Nat :=
  let k := if 6 ≤ p then 0 else if 3 ≤ p then 1 else 2
  if fget s (Fld.DMC_RATE_MTS_100 k) = 0 then 0 else k

/-- Firmware asks for the DRAM rate of the point in use (R420). -/
def dramFollow (s : State) : State :=
  let k := dramPoint s (fget s Fld.UMP_PP_CTRL_PP_NOW)
  if fget s Fld.DMC_STATUS_RATE_IDX = k then s else speedReq s k false

/-- A change that a gather's window refused is asked for again (R420). -/
def dramRepeat (s : State) : State := if fget s Fld.DMC_SPEED_STATUS_STATUS = ST_BUSY_TRAINING then dramFollow s else s

/-- The Umpire's part of an epoch start (R412–R417, R428). -/
def umpEpoch (s : State) : State :=
  let s := setWaits (dramRepeat s)
  let s := { s with ump := { s.ump with
    lastUsed := s.ump.used, lastBy := s.ump.usedBy, used := 0, usedBy := [], lastIcc := s.ump.iccMax,
    lastIccq := s.ump.iccqMax, iccMax := 0, iccqMax := 0, lastRefused := s.ump.refused, refused := 0, waits := [] } }
  let s := fset s Fld.UMP_BUDGET_IN_FORCE_W (fget s Fld.UMP_BUDGET_BUDGET_W)
  let s := fset (fset s Fld.UMP_EFFECTIVE_STATE (effPs s)) Fld.UMP_EFFECTIVE_W_EFF (wEff s)
  let p := ppTarget s
  let s := if (p ≠ fget s Fld.UMP_PP_CTRL_PP_NOW ∨ s.ump.ageNew) ∧ !fone s Fld.UMP_PP_CTRL_CHANGING ∧ !fone s Fld.UMP_VR_STATUS_FAULT
    then ppStart { s with ump := { s.ump with ageNew := false } } p else s
  noteCurrents (setFloors (setTokens (setCurrents s)))

/-- A reading of READ_VOUT: within 1 % of the set-point the target is in use (R418), and firmware asks for the DRAM rate
(R420). -/
def vrReading (s : State) (mv : Nat) : State :=
  let s := fset s Fld.UMP_VR_STATUS_VOUT_MV mv
  let p := fget s Fld.UMP_PP_CTRL_PP_TARGET
  let sp := setPoint s p
  if fone s Fld.UMP_PP_CTRL_CHANGING ∧ mv * 100 ≤ sp * 101 ∧ sp * 99 ≤ mv * 100 then
    let s := foff (fset s Fld.UMP_PP_CTRL_PP_NOW p) Fld.UMP_PP_CTRL_CHANGING
    dramFollow (setCurrents (finc s (Fld.UMP_COUNT_COUNT 4)))
  else s

def execVrSettled (mv : Nat) (s : State) : Out := .next (vrReading s mv)

/-- The regulator did not settle in time, or STATUS_WORD reports a fault (R419). -/
def vrFault (s : State) (mv word : Nat) : State :=
  let sp := setPoint s (fget s Fld.UMP_PP_CTRL_PP_TARGET)
  let s := fset (fset s Fld.UMP_VR_STATUS_VOUT_MV mv) Fld.UMP_VR_STATUS_STATUS_WORD word
  let s := fon (fon s Fld.UMP_VR_STATUS_FAULT) Fld.UMP_EVENTS_VR_FAULT
  ppStart (post s 11 1 false sp mv word 0) (fget s Fld.UMP_PP_CTRL_PP_MIN)

/-- The regulator has not settled in time, or STATUS_WORD reports a fault, with a change running or without (R419). -/
def execVrTimeout (mv word : Nat) (s : State) : Out :=
  .next (if fone s Fld.UMP_PP_CTRL_CHANGING || decide (word ≠ 0) then vrFault s mv word else s)

/-- One thermal step (R429): FLOOR_8THS outside 1–8 is treated as 4. -/
def thermalStep (s : State) : State :=
  let f := fget s Fld.UMP_THERMAL_FLOOR_8THS
  let lo := if 1 ≤ f ∧ f ≤ 8 then f else 4
  let th := fget s Fld.UMP_EFFECTIVE_THERMAL
  let s' := { s with ump := { s.ump with hot := false, warm := false } }
  if !fone s Fld.UMP_CTRL_THERMAL_EN then s'
  else if s.ump.hot then
    if lo < th then fon (finc (fset s' Fld.UMP_EFFECTIVE_THERMAL (th - 1)) (Fld.UMP_COUNT_COUNT 6)) Fld.UMP_EVENTS_THERMAL
    else s'
  else if s.ump.warm then s'
  else if th < 8 then fset s' Fld.UMP_EFFECTIVE_THERMAL (th + 1)
  else s'

def execThermalStep (s : State) : Out := .next (thermalStep s)

/-- The Umpire enters hold-up mode (R431): waiting calls but FLUSH are withdrawn, the hold-up point is commanded, the tokens
are recomputed and shared by nobody. -/
def holdupEnter (s : State) : State :=
  let gone := s.ump.calls.filter fun e => !e.2.granted && e.2.kind != 2
  let calls := s.ump.calls.filter fun e => e.2.granted || e.2.kind == 2
  let s := { s with ump := { s.ump with holdup := true } }
  let calls := SMap.mapv calls fun _ c => if c.granted then c else { c with shares := chargeTo s c.shares }
  let s := { s with ump := { s.ump with calls := calls } }
  let s := fon (fon (fadd s (Fld.UMP_COUNT_COUNT 7) gone.length) Fld.UMP_EFFECTIVE_HOLDUP) Fld.UMP_EVENTS_HOLDUP
  let s := fset s Fld.UMP_EFFECTIVE_W_EFF (wEff s)
  let s := ppStart s (fget s Fld.UMP_HOLDUP_PP)
  setFloors (setTokens (setCurrents s))

/-- Tests the waiting calls in order and grants those that can be granted, at most `k` of them (R424, R432). -/
def grantWaiting : Nat → State → State
  | 0, s => s
  | k + 1, s =>
    match s.ump.calls.find? fun e => !e.2.granted && callNext s e.1 e.2 with
    | some (n, c) => grantWaiting k (callGrant s n c)
    | none => s

/-- A waiting call is granted when it is the next that can be (R424). -/
def execCallGrant (n : Nat) (s : State) : Out :=
  match SMap.find s.ump.calls n with
  | some c => .next (if !c.granted && callNext s n c then callGrant s n c else s)
  | none => .next s

/-- The call of an operation (R421, R425): op 0 READ, 1 SENSE, 2 PROGRAM, 3 ERASE; `accts` are the accounts its shares
fall on, `moved` the codewords it moves. -/
def mkCall (s : State) (flush : Bool) (die mode op planes moved cls deadline : Nat) (accts : List Nat) : Call :=
  { kind := if flush then 2 else 0, gen := 0, shares := splitCost (opCost s die mode op planes moved) accts, die := die,
    op := op, icc := costIcc s die mode op,
    iccq := if moved = 0 then 0 else chanIccq s (die / 32), iso := isoOf s (groupOf die), cls := cls,
    deadline := deadline, since := now s, granted := false, epoch := 0, hol := false }

/-- A group call for member reads on the given dies, charged to one account (R427, R285). -/
def execGroupCall (acct mode : Nat) (dies : List Nat) (cls : Fin 4) (deadline : Nat) (s : State) : Out :=
  .next (groupCall s (dies.map fun d => mkCall s false d mode 0 1 1 cls.val deadline [acct])).2

/-- A call is returned (R426). -/
def execCallReturn (n : Nat) (s : State) : Out := .next (callReturn s n)

/-- A call has waited HOL_US: it blocks later calls of its pool (R424). -/
def holBlock (s : State) (n : Nat) : State :=
  match SMap.find s.ump.calls n with
  | some c =>
    if c.granted then s
    else
      let s := reach s (c.since + fget s Fld.UMP_CALL_HOL_US * 1000)
      fon { s with ump := { s.ump with calls := SMap.put s.ump.calls n { c with hol := true } } } Fld.UMP_EVENTS_HOL_BLOCK
  | none => s

def execHolBlock (n : Nat) (s : State) : Out := .next (holBlock s n)

/-- FLOOR_HOLD_US into the epoch unused floors open to other accounts, and waiting calls are tested against them (R428). -/
def execFloorHoldExpiry (s : State) : Out :=
  let t := s.slm.epoch * 1000000 + clamp 0 1000 (fget s Fld.UMP_CALL_FLOOR_HOLD_US) * 1000
  let s := reach s t
  .next (grantWaiting s.ump.calls.length s)

/-- A write of UMP_COST_BANK changes the bank of later calls (R421). -/
def execUmpCostBankSwitch (m : Master) (v : Word) (s : State) : Out :=
  .next (gated s m Reg.UMP_COST_BANK fun s => genWrite s Reg.UMP_COST_BANK v)

/-- The drive budget is set (R412, R434). -/
def setBudget (s : State) (w : Nat) : State := fset s Fld.UMP_BUDGET_BUDGET_W w

/-- The performance-point limits are set (R434). -/
def setPpLimit (s : State) (lo hi : Nat) : State := fset (fset s Fld.UMP_PP_CTRL_PP_MIN lo) Fld.UMP_PP_CTRL_PP_MAX hi

/-- Sensed rail averages of an epoch in mA (R422): eight epochs in a row above the granted peak by more than PCT set
SENSE_HIGH. -/
def senseRails (s : State) (icc iccq : Nat) : State :=
  let s := fset (fset s Fld.UMP_ICC_NOW_SENSED_100MA (icc / 100)) Fld.UMP_ICCQ_NOW_SENSED_100MA (iccq / 100)
  let pct := 100 + fget s Fld.UMP_SENSE_PCT
  let high := decide (s.ump.lastIcc * pct < icc * 100 ∨ s.ump.lastIccq * pct < iccq * 100)
  let n := if high then s.ump.high + 1 else 0
  let s := { s with ump := { s.ump with high := n } }
  if 8 ≤ n then fon s Fld.UMP_EVENTS_SENSE_HIGH else s

end Sys2Proof.Machine
end

