-- ==== Sys2Proof/Machine/Buffers.lean ====
section
/-! DEFINITION. The buffer pool manager: quotas, allocation, back-pressure, free and handover, quarantine, audit
(R363–R388). -/
namespace Sys2Proof.Machine
open Sys2Proof

def bufKey (pool i : Nat) : Nat := pool * 1048576 + i

/-- Buffers of pool `k` (R364). -/
def poolCount (s : State) (k : Nat) : Nat := fget s (Fld.BPM_POOL_COUNT k)

/-- A buffer's stride in bytes (R363). -/
def poolStride : Nat → Nat
  | 0 => 576
  | 1 => 4608
  | 2 => 18432
  | _ => 73728

def rsvOf (s : State) (a k : Nat) : Nat := SMap.getD s.bpm.rsv (a * 4 + k) 0

/-- LIMIT; for an isolated slice's account it equals RESERVE (R371). -/
def limOf (s : State) (a k : Nat) : Nat := if isoAcct s a then rsvOf s a k else SMap.getD s.bpm.lim (a * 4 + k) 0

/-- Buffers of pool `k` charged to account `a`, those in quarantine included. -/
def bufHeld (s : State) (a k : Nat) : Nat :=
  SMap.cnt s.bpm.bufs fun n b => decide (n / 1048576 = k ∧ b.acct = a ∧ (b.st = 1 ∨ b.st = 3))

/-- Buffers of pool `k` that are free and zeroed. -/
def bufFree (s : State) (k : Nat) : Nat :=
  poolCount s k - SMap.cnt s.bpm.bufs fun n b => decide (n / 1048576 = k ∧ b.st ≠ 0)

/-- The accounts with a reserve in some pool. -/
def rsvAccts (s : State) (k : Nat) : List Nat := (s.bpm.rsv.filter fun e => e.1 % 4 == k).map fun e => e.1 / 4

/-- Sum of RESERVE over all accounts (R369). -/
def rsvSum (s : State) (k : Nat) : Nat := (rsvAccts s k).foldl (fun n a => n + rsvOf s a k) 0

/-- The pool's surplus (R369). -/
def surplus (s : State) (k : Nat) : Nat := poolCount s k - rsvSum s k

/-- The surplus free count: free buffers less every account's unused reserve (R369). -/
def surplusFree (s : State) (k : Nat) : Nat :=
  bufFree s k - (rsvAccts s k).foldl (fun n a => n + (rsvOf s a k - bufHeld s a k)) 0

/-- The percentage thresholds of a pool and class in force: floor(S × T ÷ 100) (R378); Q0 has none. -/
def bpThresh (s : State) (k c extra : Nat) : Nat :=
  let t := if c = 1 then fget s Fld.BPM_BP_T1_PCT else if c = 2 then fget s Fld.BPM_BP_T2_PCT else fget s Fld.BPM_BP_T3_PCT
  surplus s k * (t + extra) / 100

/-- Whether the threshold rule raises class `c` in pool `k`, with its hysteresis (R378). -/
def bpRaised (s : State) (k c : Nat) : Bool :=
  let f := surplusFree s k
  if f ≤ bpThresh s k c 0 then true
  else if bpThresh s k c (fget s Fld.BPM_BP_HYST_PCT) < f then false
  else s.bpm.press.contains (k * 4 + c)

/-- The classes whose signal is raised (R378, R379), as a set. -/
def bpActive (s : State) : Nat :=
  (List.range 4).foldl (fun n c =>
    if s.bpm.press.any (fun x => x % 4 == c) || (SMap.find s.bpm.loss c).isSome then n + 2 ^ c else n) 0

/-- Brings the signals, their events and MIN_SURPLUS up to date after a change of a surplus free count (R378, R379, R388). -/
def bpUpdate (s : State) : State :=
  let was := bpActive s
  let press := (List.range 4).flatMap fun k => ((List.range 4).filter fun c => c != 0 && bpRaised s k c).map fun c => k * 4 + c
  let loss := SMap.keep s.bpm.loss fun _ k => decide (surplusFree s k < fget s Fld.BPM_BP_RELEASE_BUFS)
  let s := { s with bpm := { s.bpm with press := press, loss := loss } }
  let s := fset s Fld.BPM_BP_STATE_ACTIVE (bpActive s)
  let s := fset s Fld.BPM_BP_STATE_BY_LOSS (loss.foldl (fun n e => n + 2 ^ e.1) 0)
  let s := fset s Fld.BPM_BP_STATE_WAITING
    ((List.range 4).foldl (fun n c => if s.bpm.waits.any (fun w => w.cls == c) then n + 2 ^ c else n) 0)
  let s := (List.range 4).foldl (fun s c =>
    if (bpActive s).testBit c && !was.testBit c then fbiton s Fld.BPM_EVENTS_BP_RAISED c else s) s
  (List.range 4).foldl (fun s k =>
    if surplusFree s k < fget s (Fld.BPM_RES_MIN_SURPLUS k) then fset s (Fld.BPM_RES_MIN_SURPLUS k) (surplusFree s k) else s) s

/-- The lowest free index of a pool, from `i` on. -/
def freeIdx (s : State) (k : Nat) : Nat → Nat → Option Nat
  | 0, _ => none
  | n + 1, i =>
    match SMap.find s.bpm.bufs (bufKey k i) with
    | none => some i
    | some b => if b.st = 0 then some i else freeIdx s k n (i + 1)

/-- Allocates one buffer as a member whose successor is `link` (R373). -/
def bufTake1 (s : State) (k a id : Nat) (long head : Bool) (link : Option Nat) : Option (Nat × State) :=
  match freeIdx s k (poolCount s k) 0 with
  | none => none
  | some i =>
    let g := match SMap.find s.bpm.bufs (bufKey k i) with
      | some b => (b.gen + 1) % 1024
      | none => 1
    let b : Buf := { st := 1, holder := id, acct := a, gen := g, since := now s, link := link, head := head, long := long,
                     marks := 0, told := false }
    some (i, { s with bpm := { s.bpm with bufs := SMap.put s.bpm.bufs (bufKey k i) b } })

/-- Allocates the members of a chain from its last to its head. -/
def bufTakeN (s : State) (k a id : Nat) (long : Bool) : Nat → Option Nat → Option (Nat × State)
  | 0, _ => none
  | 1, link => bufTake1 s k a id long true link
  | n + 2, link =>
    match bufTake1 s k a id long false link with
    | some (i, s') => bufTakeN s' k a id long (n + 1) (some i)
    | none => none

/-- The handle of a buffer or chain (R366). -/
def bufHandle (s : State) (k i : Nat) : Nat :=
  match SMap.find s.bpm.bufs (bufKey k i) with
  | some b => i + k * 65536 + b.gen * 262144 + (if b.head && b.link.isSome then 2147483648 else 0)
  | none => 0

/-- A requester of a lower-numbered class waits in the pool's list (R380). -/
def lowerBarred (s : State) (k c : Nat) : Bool := s.bpm.waits.any fun w => w.pool == k && decide (w.cls < c) && !w.quota

/-- take() of R373: the status, and with ST_OK the head's index and the state. -/
def bufTake (s : State) (k a n id c : Nat) (long : Bool) : Nat × Nat × State :=
  let held := bufHeld s a k
  if limOf s a k < held + n then (ST_QUOTA, 0, s)
  else
    let need := n - (rsvOf s a k - held)
    if surplusFree s k < need then (ST_NO_BUFFER, 0, s)
    else if 0 < need ∧ lowerBarred s k c ∧ !isoAcct s a then (ST_NO_BUFFER, 0, s)
    else
      match bufTakeN s k a id long n none with
      | some (i, s') => (ST_OK, bufHandle s' k i, s')
      | none => (ST_NO_BUFFER, 0, s)

/-- The smallest pool whose stride holds a size (R373). -/
def poolFor (size : Nat) : Nat := if size ≤ 576 then 0 else if size ≤ 4608 then 1 else if size ≤ 18432 then 2 else 3

/-- Firmware decides for itself whether to retry; every other requester waits (R374). -/
def waitsFor (id : Nat) : Bool := id / 16777216 != 3

/-- An allocation request (R373): its status and handle stand in `bpm.last`. -/
def bufAlloc (s : State) (id size a c : Nat) (nochain long : Bool) : State :=
  let answer := fun (t : State) (st h : Nat) => { t with bpm := { t.bpm with last := (st, h) } }
  if carded s id then answer s ST_CARDED 0
  else if size = 0 ∨ 73728 < size then answer s ST_BAD_LENGTH 0
  else if 1029 ≤ a then answer (finc s (Fld.BPM_COUNT_COUNT 4)) ST_QUOTA 0
  else
    let k := poolFor size
    let r := bufTake s k a 1 id c long
    let fall := r.1 = ST_NO_BUFFER ∧ k ≠ 1 ∧ !nochain
    let r' := if fall then bufTake s 1 a ((size + 4607) / 4608) id c long else r
    let tried := if fall then 1 else k
    if r'.1 = ST_OK then
      let s := finc r'.2.2 (Fld.BPM_COUNT_COUNT 0)
      let s := if fall then fon (finc s (Fld.BPM_COUNT_COUNT 2)) Fld.BPM_EVENTS_CHAIN else s
      answer (bpUpdate s) ST_OK r'.2.1
    else
      let w : BufWait := { id := id, size := size, acct := a, cls := c, nochain := nochain, long := long, pool := tried,
                           quota := r'.1 == ST_QUOTA }
      let s := if waitsFor id then { s with bpm := { s.bpm with waits := s.bpm.waits ++ [w] } } else s
      if r'.1 = ST_QUOTA then answer (bpUpdate (finc s (Fld.BPM_COUNT_COUNT 4))) ST_QUOTA 0
      else
        let s := { finc s (Fld.BPM_COUNT_COUNT 3) with bpm := { s.bpm with loss := SMap.put s.bpm.loss c tried } }
        let s := if c == 0 && !(fget s Fld.BPM_BP_STATE_ACTIVE).testBit c then
          post s 8 2 (decide (a < 1024)) tried (surplusFree s tried) a id else s
        let was := (fget s Fld.BPM_BP_STATE_ACTIVE).testBit c
        let s := if was then s else fbiton s Fld.BPM_EVENTS_BP_RAISED c
        answer (bpUpdate s) ST_NO_BUFFER 0

/-- The firmware interface of a core pair shows the outcome of the pair's request (R388). -/
def fwShow (s : State) (id : Nat) (alloc : Bool) : State :=
  if id / 16777216 = 3 ∧ id % 16777216 < 8 then
    let p := id % 16777216
    let s := fon (fset s (Fld.BPM_FW_STATUS_STATUS p) s.bpm.last.1) (Fld.BPM_FW_STATUS_DONE p)
    fset s (Fld.BPM_FW_HANDLE_HANDLE p) (if alloc && s.bpm.last.1 == ST_OK then s.bpm.last.2 else 0)
  else s

/-- A request for a buffer (R373, R374). With EN 0 the BPM grants nothing and the request waits at its handshake. -/
def bufRequest (s : State) (id size a c : Nat) (nochain long : Bool) : State :=
  if fone s Fld.BPM_CTRL_EN then fwShow (bufAlloc s id size a c nochain long) id true
  else
    let w : BufWait := { id := id, size := size, acct := a, cls := c, nochain := nochain, long := long, pool := 4, quota := false }
    let s := { s with bpm := { s.bpm with waits := s.bpm.waits ++ [w] } }
    if id / 16777216 = 3 ∧ id % 16777216 < 8 then foff s (Fld.BPM_FW_STATUS_DONE (id % 16777216)) else s

/-- Masters that hold buffers: types 0x02 to 0x09 (R375). -/
def holdsBuffers (s : State) (id : Nat) : Bool := decide (2 ≤ id / 16777216) && midValid s id

/-- A holding master asks for a buffer; no other master does (R375). -/
def execBufferAlloc (id size acct : Nat) (cls : Fin 4) (nochain long : Bool) (s : State) : Out :=
  .next (if holdsBuffers s id then bufRequest s id size acct cls.val nochain long else s)

/-- A waiting requester repeats its whole request (R374). -/
def execAllocRetry (i : Nat) (s : State) : Out :=
  match s.bpm.waits[i]? with
  | some w =>
    let s := { s with bpm := { s.bpm with waits := s.bpm.waits.eraseIdx i } }
    .next (bufRequest s w.id w.size w.acct w.cls w.nochain w.long)
  | none => .next s

/-- The members of a chain from a head, as keys. -/
def chainKeys (s : State) (k : Nat) : Nat → Nat → List Nat
  | 0, _ => []
  | n + 1, i =>
    bufKey k i ::
      match SMap.find s.bpm.bufs (bufKey k i) with
      | some b =>
        match b.link with
        | some j => chainKeys s k n j
        | none => []
      | none => []

def hIndex (h : Nat) : Nat := h % 65536
def hPool (h : Nat) : Nat := h / 65536 % 4

/-- The handle is current (R366). -/
def hCurrent (s : State) (h : Nat) : Bool :=
  match SMap.find s.bpm.bufs (bufKey (hPool h) (hIndex h)) with
  | some b => b.st == 1 && !b.taken && b.head && b.gen == h / 262144 % 1024 && (h / 2147483648 % 2 == 1) == b.link.isSome
  | none => false

/-! ### Slab addresses (R363, R366, R367) -/

/-- A pool's base within the slab. -/
def poolBase (s : State) (k : Nat) : Nat := fget s (Fld.BPM_BASE_OFFSET k)

/-- The slab offset of byte `o` of the buffer or chain that a handle names. -/
def handleAddr (s : State) (h o : Nat) : Nat :=
  if h / 2147483648 % 2 = 1 then
    poolBase s 1 + ((chainKeys s 1 17 (hIndex h)).getD (o / 4608) (bufKey 1 (hIndex h)) % 1048576) * 4608 + o % 4608
  else poolBase s (hPool h) + hIndex h * poolStride (hPool h) + o

/-- The capacity of a handle's buffer or chain in bytes. -/
def handleCap (s : State) (h : Nat) : Nat :=
  if h / 2147483648 % 2 = 1 then (chainKeys s 1 17 (hIndex h)).length * 4608 else poolStride (hPool h)

/-- Master `id` may access bytes `o` to `o + n - 1` of a handle: the handle is current, `id` holds it, and they lie within its
capacity (R367). -/
def handleOk (s : State) (id h o n : Nat) : Bool :=
  hCurrent s h && decide (o + n ≤ handleCap s h) &&
  (match SMap.find s.bpm.bufs (bufKey (hPool h) (hIndex h)) with | some b => b.holder == id | none => false)

/-- Bytes `o` to `o + n - 1` of a handle's buffer or chain. -/
def handleRead (s : State) (h o n : Nat) : List Byte :=
  (List.range n).map fun i => SMap.getD s.fab.mem (0x20000000 + handleAddr s h (o + i)) 0

/-- Puts bytes into a handle's buffer or chain, as far as they fit; a write into one that a squash has taken is discarded (R381). -/
def handleWrite (s : State) (h : Nat) (b : List Byte) : State :=
  if !hCurrent s h then s else
  let put := fun (e : Nat × SMap Byte) (x : Byte) => (e.1 + 1, SMap.putD e.2 (0x20000000 + handleAddr s h e.1) 0 x)
  let n := min b.length (handleCap s h)
  let s := (List.range ((n + 4607) / 4608)).foldl (fun s i => sramWrote s 0 (handleAddr s h (4608 * i)) (min 4608 (n - 4608 * i))) s
  { s with fab := { s.fab with mem := ((b.take (handleCap s h)).foldl put (0, s.fab.mem)).2 } }

/-- Puts bytes into a handle's buffer or chain from byte `o` on, as far as they fit, in the order of the transfer. -/
def handlePut (s : State) (h o : Nat) (b : List Byte) : State :=
  if !hCurrent s h then s else
  let b := b.take (handleCap s h - o)
  let put := fun (e : Nat × SMap Byte) (x : Byte) => (e.1 + 1, SMap.putD e.2 (0x20000000 + handleAddr s h e.1) 0 x)
  let s := (List.range ((b.length + 4607) / 4608)).foldl (fun s i =>
    sramWrote s 0 (handleAddr s h (o + 4608 * i)) (min 4608 (b.length - 4608 * i))) s
  { s with fab := { s.fab with mem := (b.foldl put (o, s.fab.mem)).2 } }

/-- The slab bytes `off` to `off + n - 1` lie in a buffer that master `id` holds, or in no pool (R367). -/
def slabHeld (s : State) (id off n : Nat) : Bool :=
  match (List.range 4).find? fun k => decide (poolBase s k ≤ off ∧ off < poolBase s k + poolCount s k * poolStride k) with
  | none => true
  | some k =>
    let o := off - poolBase s k
    decide (o % poolStride k + n ≤ poolStride k) &&
    (match SMap.find s.bpm.bufs (bufKey k (o / poolStride k)) with | some b => b.st == 1 && b.holder == id | none => false)

/-- Zeros are written over a buffer's whole stride (R365). -/
def strideClear (s : State) (k i : Nat) : State :=
  let lo := 0x20000000 + poolBase s k + i * poolStride k
  { s with fab := { s.fab with mem := SMap.keep s.fab.mem fun a _ => decide (a < lo ∨ lo + poolStride k ≤ a) } }

/-- The checks of R377: the status of the first that fails, or ST_OK. -/
def bufCheck (s : State) (id h : Nat) : Nat :=
  if carded s id then ST_CARDED
  else
    match SMap.find s.bpm.bufs (bufKey (hPool h) (hIndex h)) with
    | some b =>
      if b.st = 3 ∨ b.taken then ST_SQUASHED
      else if !hCurrent s h then ST_DOUBLE_FREE
      else if b.holder ≠ id then ST_NOT_OWNER
      else ST_OK
    | none => ST_DOUBLE_FREE

/-- Changes every member of a handle's buffer or chain. -/
def bufMap (s : State) (h : Nat) (f : Buf → Buf) : State :=
  { s with bpm := { s.bpm with bufs := (chainKeys s (hPool h) 17 (hIndex h)).foldl (fun m k => SMap.upd m k f) s.bpm.bufs } }

/-- Counts and flags the outcome of a free or handover check that failed as a violation (R377, R388). -/
def bufViolation (s : State) (st : Nat) : State :=
  if st = ST_DOUBLE_FREE then fon (finc s (Fld.BPM_COUNT_COUNT 5)) Fld.BPM_EVENTS_DOUBLE_FREE
  else if st = ST_NOT_OWNER then fon (finc s (Fld.BPM_COUNT_COUNT 6)) Fld.BPM_EVENTS_NOT_OWNER
  else s

/-- A free whose checks pass: the members go to zeroing (R365, R377). -/
def bufFreeOk (s : State) (h : Nat) : State :=
  bpUpdate (finc (bufMap s h fun b => { b with st := 2, link := none }) (Fld.BPM_COUNT_COUNT 1))

/-- A buffer has been written with zeros and rejoins its pool (R365). -/
def bufZeroed (s : State) (k i : Nat) : State :=
  match SMap.find s.bpm.bufs (bufKey k i) with
  | some b =>
    if b.st = 2 then
      let s := strideClear s k i
      bpUpdate { s with bpm := { s.bpm with bufs := SMap.put s.bpm.bufs (bufKey k i) { b with st := 0, link := none } } }
    else s
  | none => s

def execBufferZeroed (pool : Fin 4) (i : Nat) (s : State) : Out := .next (bufZeroed s pool.val i)

/-- A running descriptor references the buffer with a key. -/
def bufRefs (s : State) (k : Nat) : Bool :=
  s.flash.chs.any fun c => c.2.ctx.any fun x => x.2.chain.any fun d => d.data.any fun r =>
    match r with | .slab h => (chainKeys s (hPool h) 17 (hIndex h)).contains k | _ => false

/-- Takes every buffer that satisfies `p` from its holder: into quarantine at once, or when the descriptor that references it ends
(R381, R383). -/
def quarantine (s : State) (p : Buf → Bool) : State :=
  let mine := fun (b : Buf) => b.st == 1 && !b.taken && p b
  let n := SMap.cnt s.bpm.bufs fun _ b => mine b
  let bufs := SMap.mapv s.bpm.bufs fun k b =>
    if mine b then (if bufRefs s k then { b with taken := true } else { b with st := 3 }) else b
  let s := { s with bpm := { s.bpm with bufs := bufs } }
  fadd s (Fld.BPM_COUNT_COUNT 7) n

/-- A buffer that a squash has taken goes to quarantine once nothing that runs references it (R381). -/
def bufSettle (s : State) (k : Nat) (b : Buf) : Buf :=
  if b.taken && !(bufRefs s k) then { b with st := 3, taken := false } else b

def takenSettle (s : State) : State := { s with bpm := { s.bpm with bufs := SMap.mapv s.bpm.bufs (bufSettle s) } }

/-- The squash ends: quarantined buffers that satisfy `p` go to zeroing (R382). -/
def quarantineEnd (s : State) (p : Buf → Bool) : State :=
  let bufs := SMap.mapv s.bpm.bufs fun _ b => if b.st == 3 && p b then { b with st := 2, link := none } else b
  bpUpdate { s with bpm := { s.bpm with bufs := bufs } }

/-- A carded master's buffers pass to the master that takes over its work (R383). -/
def buffersPass (s : State) (old new : Nat) : State :=
  let bufs := SMap.mapv s.bpm.bufs fun _ b => if b.st == 1 && b.holder == old then { b with holder := new } else b
  { s with bpm := { s.bpm with bufs := bufs } }

/-- A buffer's age in ms. -/
def bufAge (s : State) (b : Buf) : Nat := (now s - b.since) / 1000000

/-- One audit pass (R384, R385). -/
def audit (s : State) : State :=
  if !fone s Fld.BPM_CTRL_AUDIT_EN then s
  else
    let lim := max 1 (fget s Fld.BPM_AUDIT_AGE_MS)
    let old := fun (b : Buf) => b.st == 1 && !b.long && decide (lim < bufAge s b)
    let leaks := s.bpm.bufs.filter fun e => old e.2 && decide (1 ≤ e.2.marks)
    let fresh := leaks.filter fun e => !e.2.told
    let put := fun (m : SMap Nat) (k v : Nat) => SMap.put m k (max (SMap.getD m k 0) v)
    let oldest := s.bpm.bufs.foldl (fun m e =>
      if e.2.st = 1 then put m (e.2.acct * 4 + e.1 / 1048576) (bufAge s e.2) else m) ([] : SMap Nat)
    let by_ := leaks.foldl (fun m e => SMap.put m e.2.acct (SMap.getD m e.2.acct 0 + 1)) ([] : SMap Nat)
    let bufs := SMap.mapv s.bpm.bufs fun _ b =>
      if old b then { b with marks := b.marks + 1, told := b.told || decide (1 ≤ b.marks) } else { b with marks := 0 }
    let s0 := s
    let s := { s with bpm := { s.bpm with bufs := bufs, oldest := oldest, leaks := by_ } }
    let s := finc s Fld.BPM_AUDIT_STATE_PASSES
    let s := fset s Fld.BPM_AUDIT_STATE_LEAKS (sat 16 leaks.length)
    let s := pset s Reg.BPM_AUDIT_TIME_LO Reg.BPM_AUDIT_TIME_HI (now s)
    let s := (List.range 8).foldl (fun s k =>
      let mine := s0.bpm.bufs.filter fun e => e.2.st == 1 && e.2.holder / 16777216 == k + 2
      let s := fset s (Fld.BPM_HOLDER_HELD k) mine.length
      fset s (Fld.BPM_HOLDER_OLDEST_MS k) (sat 16 (mine.foldl (fun n e => max n (bufAge s0 e.2)) 0))) s
    let s := if leaks.isEmpty then s else fon s Fld.BPM_EVENTS_LEAK
    fresh.foldl (fun s e =>
      post s 8 1 (decide (e.2.acct < 1024)) (bufHandle s0 (e.1 / 1048576) (e.1 % 1048576)) e.2.holder e.2.acct
        (sat 32 (bufAge s0 e.2))) s

def execLeakAuditPass (s : State) : Out := .next (audit s)

/-- MIN_CLEAR: every MIN_SURPLUS becomes the current surplus free count (R388). -/
def minClear (s : State) : State :=
  (List.range 4).foldl (fun s k => fset s (Fld.BPM_RES_MIN_SURPLUS k) (surplusFree s k)) s

def execBpmMinClear (m : Master) (s : State) : Out := .next (gated s m Reg.BPM_CTRL minClear)

/-- A quota of account `a` in pool `k` is written; the cases of R372 leave it as it is. -/
def quotaWrite (s : State) (a k rsv lim : Nat) : State :=
  if 1031 < a then s
  else
    let iso := isoAcct s a
    let lim := if iso then rsv else lim
    let old := rsvOf s a k
    let unused := fun r => r - bufHeld s a k
    if lim < rsv ∨ poolCount s k < lim ∨ poolCount s k < rsvSum s k - old + rsv ∨
       surplusFree s k < unused rsv - unused old then s
    else
      let s := { s with bpm := { s.bpm with rsv := SMap.putD s.bpm.rsv (a * 4 + k) 0 rsv,
                                            lim := SMap.putD s.bpm.lim (a * 4 + k) 0 lim } }
      bpUpdate (fset s (Fld.BPM_RES_RESERVED k) (rsvSum s k))

/-- A write of BPM_V_QUOTA_k sets the quota of the account the master has selected (R372, R388). -/
def execBpmQuotaWrite (m : Master) (k : Fin 4) (v : Word) (s : State) : Out :=
  .next (gated s m (Reg.BPM_V_QUOTA k.val) fun s =>
    quotaWrite s (selGet s (masterNo m) Fld.BPM_ACCT_SEL_ACCOUNT) k.val (bits v.toNat 0 16) (bits v.toNat 16 16))

/-- The quotas of the device accounts after boot (R370): account, pool, RESERVE, LIMIT. -/
def deviceQuotas : List (Nat × Nat × Nat × Nat) :=
  [(1024, 0, 2048, 4096), (1024, 1, 512, 1024), (1024, 2, 32, 64), (1024, 3, 16, 32),
   (1025, 0, 0, 512), (1025, 1, 1024, 4096), (1025, 2, 0, 64), (1025, 3, 0, 16),
   (1026, 0, 64, 128), (1026, 1, 64, 128), (1026, 2, 4, 8), (1026, 3, 4, 8),
   (1027, 0, 128, 256), (1027, 1, 32, 64), (1027, 2, 0, 0), (1027, 3, 0, 0),
   (1028, 0, 256, 1024), (1028, 1, 256, 1024), (1028, 2, 8, 32), (1028, 3, 4, 16)]

/-- The quotas of a new slice (R370, R371): RESERVE and LIMIT of pool `k`. -/
def sliceQuota (s : State) (iso : Bool) (k : Nat) : Nat × Nat :=
  if iso then
    let r := if k = 0 then fget s Fld.BPM_ISO_DEFAULT_LO_POOL0 else if k = 1 then fget s Fld.BPM_ISO_DEFAULT_LO_POOL1
      else if k = 2 then fget s Fld.BPM_ISO_DEFAULT_HI_POOL2 else fget s Fld.BPM_ISO_DEFAULT_HI_POOL3
    (r, r)
  else if k = 0 then (0, 1024) else if k = 1 then (0, 2048) else if k = 2 then (0, 128) else (0, 32)

/-- Whether an isolated slice's reserves can be set aside in every pool (R371, R372). -/
def isoQuotaFits (s : State) : Bool :=
  (List.range 4).all fun k =>
    let r := (sliceQuota s true k).1
    decide (rsvSum s k + r ≤ poolCount s k ∧ r ≤ surplusFree s k)

/-- Puts the quotas of account `a`. -/
def quotaPut (s : State) (a k rsv lim : Nat) : State :=
  let s := { s with bpm := { s.bpm with rsv := SMap.putD s.bpm.rsv (a * 4 + k) 0 rsv,
                                        lim := SMap.putD s.bpm.lim (a * 4 + k) 0 lim } }
  fset s (Fld.BPM_RES_RESERVED k) (rsvSum s k)

end Sys2Proof.Machine
end

