-- ==== Sys2Proof/Machine/Queue.lean ====
section
/-! DEFINITION. The deadline scheduler's queues and predictions: geometry, order, service times, backlogs (R264–R276, R298–R300). -/
namespace Sys2Proof.Machine
open Sys2Proof

/-- A background read stands where a context would: its identifier above this number. -/
def bgBase : Nat := 1099511627776

/-! ### Geometry -/

/-- The key of a physical block. -/
def blkKey (die block : Nat) : Nat := die * 1048576 + block

/-- The key of a page. -/
def pageKey (die block page : Nat) : Nat := blkKey die block * 8192 + page

/-- The key of a stripe block. -/
def sbKey (g b : Nat) : Nat := g * 1048576 + b

/-- The physical block of stripe block `b` on member `m` (R298): block `b` unless the table replaces it. -/
def physOf (s : State) (g b m : Nat) : Nat := SMap.getD s.med.table (sbKey g b * 16 + m) b

/-- The stripe block that a physical block of a die belongs to. -/
def sbOf (s : State) (die block : Nat) : Nat :=
  match s.med.table.find? fun e => e.2 == block && e.1 % 16 == memberOf die && e.1 / 16777216 == groupOf die with
  | some e => e.1 / 16 % 1048576
  | none => block

/-- The physical block that holds a page of a stripe block on a die: the retired block while the page lies there still, else the block
of the table (R50, R311). -/
def srcPhys (s : State) (die b page : Nat) : Nat :=
  let p := physOf s (groupOf die) b (memberOf die)
  match SMap.find s.med.old (sbKey (groupOf die) b * 16 + memberOf die) with
  | some q => if (SMap.find s.med.pages (pageKey die p page)).isNone && (SMap.find s.med.pages (pageKey die q page)).isSome then q else p
  | none => p

/-- The information bytes stored at a unit position of a physical page; an erased page reads all ones. -/
def unitAt (s : State) (die block page unit : Nat) : Nat :=
  match SMap.find s.med.pages (pageKey die block page) with
  | some us => us.getD unit 0
  | none => 2 ^ 33024 - 1

/-- Wear of a block in quarters of a P/E cycle (R309). -/
def peOf (s : State) (die block : Nat) : Nat :=
  match SMap.find s.med.blocks (blkKey die block) with
  | some b => b.pe
  | none => 0

/-- The rated P/E cycles of a die and mode (R566). -/
def ratedOf (s : State) (die mode : Nat) : Nat :=
  SMap.getD s.age.rated (die * 4 + mode) (if mode = 0 then 12500 else if mode = 1 then 2250 else 1500)

/-- The base retention interval of a mode, in days (R567). -/
def retBase (s : State) (mode : Nat) : Nat :=
  fget s (if mode = 0 then Fld.AGE_RET_BASE_SLC else if mode = 1 then Fld.AGE_RET_BASE_TLC else Fld.AGE_RET_BASE_QLC)

/-- The retention interval of a die and mode, in days: 1 to 365 (R567); before the first planning run, the base. -/
def retOf (s : State) (die mode : Nat) : Nat := SMap.getD s.age.ret (die * 4 + mode) (max 1 (min 365 (retBase s mode)))

/-- The age of a stripe block's data, in ns: from its first program (R567). -/
def dataAge (s : State) (g b : Nat) : Nat :=
  match SMap.find s.age.born (sbKey g b) with
  | some t => now s - t
  | none => 0

/-- Nanoseconds in a day. -/
def dayNs : Nat := 86400000000000

/-- The wear bucket of a block (R271). -/
def bucketOf (s : State) (die mode block : Nat) : Nat := min 7 (8 * peOf s die block / (4 * ratedOf s die mode))

/-- A channel's plane count: 0 and 7 are treated as 1. -/
def planesOf (s : State) (ch : Nat) : Nat :=
  let n := fget s (Fld.CHS_PLANES_PLANES ch)
  if n = 0 ∨ n = 7 then 1 else n

/-- The plane-set width of a group (R300). -/
def setWidth (s : State) (g : Nat) : Nat :=
  (List.range 16).foldl (fun n m => min n (planesOf s (dieOf g m / 32))) 4

/-- A die is lost, restored and not yet erased, or not populated. -/
def dieGone (s : State) (die : Nat) : Bool :=
  let st := SMap.getD s.med.dies die 0
  st != 0 || !fbit s (Fld.CHS_DIE_MAP_DIES (die / 32)) (die % 32)

/-- The key of a stripe: group, stripe block, row 4 × page + unit, half. -/
def stripeKey (g b row half : Nat) : Nat := (sbKey g b * 32768 + row) * 2 + half

/-- Members of a layout set (R299): 0–15, or 8h to 8h + 7. -/
def layoutSet (par7 : Bool) (half : Nat) : List Nat :=
  if par7 then (List.range 8).map fun i => 8 * half + i else List.range 16

/-- The parity member of a page: the next lower present member of the set, wrapping, when the rule's member is gone (R299). -/
def parityAt (set gone : List Nat) (par7 : Bool) (half page : Nat) : Nat :=
  let n := if par7 then 8 else 16
  let first := (n - 1) - page % n
  match ((List.range n).map fun i => (if par7 then 8 * half else 0) + (first + n - i) % n).find? fun m => set.contains m && !gone.contains m with
  | some m => m
  | none => 0

/-- Data members in ascending physical order, and the parity member (R299). -/
def layoutOf (par7 : Bool) (half page : Nat) (gone : List Nat) : List Nat × Nat :=
  let set := layoutSet par7 half
  let p := parityAt set gone par7 half page
  (set.filter fun m => m != p && !gone.contains m, p)

/-- The stripe block is written in 7+1 stripes. -/
def sbPar7 (s : State) (g b : Nat) : Bool :=
  match SMap.find s.med.inUse (sbKey g b) with
  | some u => u.par7
  | none => false

/-- Data members and parity member of a written stripe. -/
def stripeLayout (s : State) (g b row half : Nat) : List Nat × Nat :=
  match SMap.find s.med.layouts (stripeKey g b row half) with
  | some l => l
  | none => layoutOf (sbPar7 s g b) half (row / 4) []

/-- The half of a member. -/
def halfOf (par7 : Bool) (m : Nat) : Nat := if par7 then m / 8 else 0

/-- The other members of the stripe that a unit lies in, as dies (R299). -/
def stripeMates (s : State) (die b page unit : Nat) : List Nat :=
  let g := groupOf die
  let m := memberOf die
  let l := stripeLayout s g b (4 * page + unit) (halfOf (sbPar7 s g b) m)
  ((l.1 ++ [l.2]).filter (· != m)).map (dieOf g)

/-! ### Order (R268, R269) -/

/-- Entries of the shared pool. -/
def poolSize : Nat := 262144

/-- How far an operation's pool entry stands behind the token. -/
def tokRank (t : Nat) (o : DOp) : Nat := (o.id % poolSize + poolSize - t % poolSize) % poolSize

/-- The order of a die's queue: deadline, class, then the priority token `t` (R268). -/
def opBefore (t : Nat) (a b : DOp) : Bool :=
  decide (a.deadline < b.deadline ∨ a.deadline = b.deadline ∧ (a.cls < b.cls ∨ a.cls = b.cls ∧ tokRank t a < tokRank t b))

def opInsert (t : Nat) (o : DOp) : List DOp → List DOp
  | [] => [o]
  | x :: xs => if opBefore t o x then o :: x :: xs else x :: opInsert t o xs

def opSort (t : Nat) (l : List DOp) : List DOp := l.foldl (fun acc o => opInsert t o acc) []

def queueOf (s : State) (die : Nat) : List DOp := SMap.getD s.dsc.queues die []
def runOf (s : State) (die : Nat) : List DOp := SMap.getD s.dsc.run die []
def sentOf (s : State) (die : Nat) : List DOp := SMap.getD s.dsc.sent die []

/-- Puts a die's queue; DSC_QUEUED follows. -/
def queuePut (s : State) (die : Nat) (q : List DOp) : State :=
  let s := { s with dsc := { s.dsc with queues := if q.isEmpty then SMap.del s.dsc.queues die else SMap.put s.dsc.queues die q } }
  fset s Fld.DSC_QUEUED_OPS (s.dsc.queues.foldl (fun n e => n + e.2.length) 0)

/-- The die's queue and the pool have room (R268). -/
def queueRoom (s : State) (die : Nat) : Bool :=
  decide ((queueOf s die).length < 512 ∧ fget s Fld.DSC_QUEUED_OPS < 262144)

/-- Earlier queued programs of the block inherit an earlier deadline, and its class, so that no program passes them
(R269). -/
def inherit_ (t : Nat) (o x : DOp) : DOp :=
  if o.kind = 1 ∧ x.kind = 1 ∧ x.block = o.block ∧ opBefore t o x then
    { x with deadline := o.deadline, cls := min o.cls x.cls }
  else x

/-- Puts an operation into its place in a die's queue. -/
def queueEnter (s : State) (die : Nat) (o : DOp) : State :=
  let t := s.dsc.tok
  queuePut s die (opInsert t o (opSort t ((queueOf s die).map (inherit_ t o))))

def parkedOf (s : State) (die : Nat) : List DOp := SMap.getD s.dsc.parked die []

/-- Puts the operations of a die that wait for an entry. -/
def parkPut (s : State) (die : Nat) (l : List DOp) : State :=
  { s with dsc := { s.dsc with parked := if l.isEmpty then SMap.del s.dsc.parked die else SMap.put s.dsc.parked die l } }

/-- Queues an operation for a die, or it waits for an entry (R268); its identifier is the next. -/
def enqueue (s : State) (die : Nat) (o : DOp) : State :=
  let o := { o with id := s.dsc.nextId }
  let s := { s with dsc := { s.dsc with nextId := s.dsc.nextId + 1 } }
  if queueRoom s die && (parkedOf s die).isEmpty then queueEnter s die o else parkPut s die (parkedOf s die ++ [o])

/-- Puts an operation that comes back from the sequencer into its die's queue, or it waits for an entry ahead of the others (R268). -/
def requeue (s : State) (die : Nat) (o : DOp) : State :=
  let o := { o with call := none, ran := 0, susp := 0, suspNs := 0 }
  if queueRoom s die then queuePut s die (opInsert s.dsc.tok o (queueOf s die)) else parkPut s die (o :: parkedOf s die)

/-- Operations of a die that waited enter its queue while there is room. -/
def unparkDie (die : Nat) : Nat → State → State
  | 0, s => s
  | k + 1, s =>
    match parkedOf s die with
    | o :: os => if queueRoom s die then unparkDie die k (queueEnter (parkPut s die os) die o) else s
    | [] => s

/-- Entries have come free: those that wait take them, die by die. -/
def unpark (s : State) : State := s.dsc.parked.foldl (fun s e => unparkDie e.1 e.2.length s) s

/-! ### Service times (R271–R273) -/

/-- Array time of the table entry, in ns (R271, R274). -/
def predNs (s : State) (mode op bucket : Nat) : Nat :=
  let i := 48 * mode + 8 * op + bucket
  250 * (if fone s Fld.DSC_PRED_BANK_ACTIVE then fget s (Fld.DSC_PRED_BANK1_TIME_QUS i) else fget s (Fld.DSC_PRED_BANK0_TIME_QUS i))

/-- Bus time of a number of bytes on the die's channel, in ns (R272). -/
def busNs (s : State) (die bytes : Nat) : Nat :=
  let r := fget s (Fld.CHS_BUS_RATE_MTS (die / 32))
  if r = 0 then 0 else bytes * 1000 / r

/-- Predicted array time of an operation, a read's retry steps with it (R272). -/
def arrayNs (s : State) (die : Nat) (o : DOp) : Nat :=
  let b := bucketOf s die o.mode o.block
  let arr := fun (op : Nat) => predNs s o.mode op b * fget s (Fld.DSC_EST_CORR die) / 64
  if o.kind = 0 then arr 0 + predNs s o.mode 1 b * fget s (Fld.DSC_EST_RETRY_Q4 die) / 16
  else if o.kind = 1 then arr 2
  else arr 3

/-- Predicted bus time of an operation that joins `k` planes (R272). -/
def moveNs (s : State) (die : Nat) (o : DOp) (k : Nat) : Nat :=
  if o.kind = 0 then busNs s die 4608 else if o.kind = 1 then busNs s die (18432 * k) else 0

/-- Predicted array and bus time of an operation that joins `k` planes (R272). -/
def serviceNs (s : State) (die : Nat) (o : DOp) (k : Nat) : Nat := arrayNs s die o + moveNs s die o k

/-- How long a running operation has run, on the bus and in the array. -/
def ranNs (s : State) (o : DOp) : Nat := o.ran + (now s - o.started)

/-- Predicted remaining time of a joined list that runs (R275). -/
def remainNs (s : State) (die : Nat) (l : List DOp) : Nat :=
  match l with
  | [] => 0
  | o :: _ => serviceNs s die o l.length - ranNs s o

/-- Predicted remaining array time of a joined list that runs: a program's data have moved before its array phase (R278). -/
def remainArr (s : State) (die : Nat) (l : List DOp) : Nat :=
  match l with
  | [] => 0
  | o :: _ => arrayNs s die o - (ranNs s o - moveNs s die o l.length)

/-- Predicted remaining time of a suspended operation. -/
def remainSusp (s : State) (die : Nat) (l : List DOp) : Nat :=
  match l with
  | [] => 0
  | o :: _ => serviceNs s die o l.length - o.ran

/-- Predicted service of operations one after the other; the programs selected as one joined program, which carry one call, count
once (R269, R272). -/
def sumNs (s : State) (die : Nat) (l : List DOp) : Nat :=
  (l.foldl (fun (e : Nat × List Nat) o =>
    match (if o.kind = 1 then o.call else none) with
    | some n => if e.2.contains n then e else (e.1 + serviceNs s die o (l.countP fun x => x.call == some n), n :: e.2)
    | none => (e.1 + serviceNs s die o 1, e.2)) (0, [])).1

/-- Predicted service of operations issued as one: a joined program has one service time (R272). -/
def oneNs (s : State) (die : Nat) (l : List DOp) : Nat := match l with | o :: _ => serviceNs s die o l.length | [] => 0

/-- The operation of UMP_WAIT_NS for a kind (R275, R421). -/
def waitOp (kind : Nat) : Nat := if kind = 0 then 0 else if kind = 1 then 2 else 3

/-- The operation's call has been granted (R270). -/
def callOk (s : State) (o : DOp) : Bool :=
  match o.call with
  | some n =>
    match SMap.find s.ump.calls n with
    | some c => c.granted
    | none => false
  | none => false

/-- Mean call waits of the operations without a granted call (R275). -/
def waitsNs (s : State) (l : List DOp) : Nat :=
  l.foldl (fun n o => if callOk s o then n else n + fget s (Fld.UMP_WAIT_NS_MEAN_NS (waitOp o.kind))) 0

/-- The mean call wait of the resume of a suspended operation whose new call has not been granted (R275, R280). -/
def resumeWait (s : State) (die : Nat) : Nat :=
  match SMap.find s.dsc.susp die with
  | some (o :: _, _) => if callOk s o then 0 else fget s (Fld.UMP_WAIT_NS_MEAN_NS 4)
  | _ => 0

/-- DSC_PATH.PATH_US in ns, which a host read's prediction adds (R275). -/
def pathNs (s : State) (o : DOp) : Nat :=
  match o.host with
  | some (x, _) => if x < bgBase then fget s Fld.DSC_PATH_PATH_US * 1000 else 0
  | none => 0

/-- Work ahead of the queue on a die: what runs, or the reads of a suspend, RESUME and the suspended operation (R275). -/
def aheadNs (s : State) (die : Nat) : Nat :=
  let base := remainNs s die (runOf s die) + oneNs s die (sentOf s die)
  match SMap.find s.dsc.susp die with
  | some (l, _) =>
    match l with
    | o :: _ => base + predNs s o.mode 5 (bucketOf s die o.mode o.block) + remainSusp s die l
    | [] => base
  | none => base

/-- Predicted completion of a read served directly (R275). -/
def predictDirect (s : State) (die : Nat) (o : DOp) : Nat :=
  let before := (queueOf s die).filter fun x => opBefore s.dsc.tok x o
  now s + aheadNs s die + sumNs s die before + serviceNs s die o 1 + waitsNs s (o :: before) + resumeWait s die + pathNs s o

/-- A class can cause and use a suspend (R278). -/
def suspClass (s : State) (c : Nat) : Bool := fbit s Fld.DSC_SUSPEND_CLASSES c

/-- DSC_SUSPEND.MAX_PER_OP, at most 4. -/
def suspMax (s : State) : Nat := min 4 (fget s Fld.DSC_SUSPEND_MAX_PER_OP)

/-- The minimum progress interval of an operation, in ns (R278). -/
def progMin (s : State) (o : DOp) : Nat :=
  1000 * (if o.kind = 1 then fget s Fld.DSC_SUSPEND_PROG_MIN_US else fget s Fld.DSC_SUSPEND_ERASE_MIN_US)

/-- The earliest time at which the running operation can be suspended: the minimum progress interval after it started or
last resumed. -/
def suspEarliest (s : State) (o : DOp) : Nat := max (now s) (o.started + progMin s o)

/-- The running operation is suspendable for a read, the minimum progress interval aside, which predict_suspend adds
(R277, R278). -/
def suspendable (s : State) (die : Nat) (r : DOp) : Bool :=
  match runOf s die with
  | o :: os =>
    let b := bucketOf s die o.mode o.block
    let gone := suspEarliest s o - now s
    fone s Fld.DSC_CTRL_SUSPEND_EN && !(if o.kind = 1 then s.part.noSuspend else s.part.noEraseSuspend).contains die && o.kind != 0 && suspClass s r.cls && decide (o.susp < suspMax s) &&
    decide (o.suspNs < fget s Fld.DSC_SUSPEND_TIME_TOTAL_US * 1000) && !o.urgent && !o.flush && !pfail s &&
    decide (predNs s o.mode 4 b + predNs s o.mode 5 b + serviceNs s die r 1 < remainArr s die (o :: os) - gone)
  | [] => false

/-- Predicted completion of a read served in a suspend (R277). -/
def predictSuspend (s : State) (die : Nat) (r : DOp) : Nat :=
  match runOf s die with
  | o :: _ =>
    let before := (queueOf s die).filter fun x => x.kind == 0 && suspClass s x.cls && opBefore s.dsc.tok x r
    suspEarliest s o + predNs s o.mode 4 (bucketOf s die o.mode o.block) + sumNs s die before + serviceNs s die r 1 + pathNs s r
  | [] => predictDirect s die r

/-- Read and program-erase backlogs of a die, in ns (R276). -/
def backlogOf (s : State) (die : Nat) : Nat × Nat :=
  let q := queueOf s die
  let sent := oneNs s die (sentOf s die)
  let sentRd := (sentOf s die).any fun o => o.kind == 0
  let isRd := fun (o : DOp) => o.kind == 0
  let rn := runOf s die
  let rem := remainNs s die rn
  let rdRun := match rn with
    | o :: _ => o.kind == 0
    | [] => false
  let su := match SMap.find s.dsc.susp die with
    | some (l, _) => remainSusp s die l
    | none => 0
  ((if rdRun then rem else 0) + (if sentRd then sent else 0) + sumNs s die (q.filter isRd),
   (if rdRun then 0 else rem) + su + (if sentRd then 0 else sent) + sumNs s die (q.filter fun o => !isRd o))

/-- Every die reports its backlogs; a group's are those of its busiest member (R276). -/
def backlogs (s : State) : State :=
  let dies := (s.dsc.queues.map (·.1)) ++ (s.dsc.run.map (·.1)) ++ (s.dsc.sent.map (·.1)) ++ (s.dsc.susp.map (·.1))
  let up := fun (m : SMap Nat) (g v : Nat) => if v = 0 then m else SMap.put m g (max v (SMap.getD m g 0))
  let r := dies.foldl (fun (x : SMap Nat × SMap Nat) d =>
    (up x.1 (groupOf d) (backlogOf s d).1, up x.2 (groupOf d) (backlogOf s d).2)) (([] : SMap Nat), ([] : SMap Nat))
  { s with plc := { s.plc with rdLog := r.1, peLog := r.2 } }

def execBacklogReport (s : State) : Out := .next (backlogs s)

/-- A step of an estimate by a sixteenth of the difference, rounded toward zero (R273). -/
def estStep (old target : Nat) : Nat := if old ≤ target then old + (target - old) / 16 else old - (old - target) / 16

/-- The correction of a die after an operation that was not suspended; `a` is its array time (R273). A predicted time of 0 gives the
highest ratio (DESIGN CHOICE, notes/assumptions/86.md). -/
def learn (s : State) (die : Nat) (o : DOp) (a : Nat) : State :=
  if o.susp ≠ 0 then s
  else
    let p := predNs s o.mode (if o.kind = 0 then 0 else if o.kind = 1 then 2 else 3) (bucketOf s die o.mode o.block)
    let r := if p = 0 then 255 else min 255 (max 16 (64 * a / p))
    fset s (Fld.DSC_EST_CORR die) (estStep (fget s (Fld.DSC_EST_CORR die)) r)

/-- The retry estimate of a die after a read that took `k` retry steps (R273). -/
def learnRetry (s : State) (die k : Nat) : State :=
  fset s (Fld.DSC_EST_RETRY_Q4 die) (estStep (fget s (Fld.DSC_EST_RETRY_Q4 die)) (16 * k))

/-- DSC_PRED_BANK (R274). -/
def execDscPredBankSwitch (m : Master) (v : Word) (s : State) : Out :=
  .next (gated s m Reg.DSC_PRED_BANK fun s => genWrite s Reg.DSC_PRED_BANK v)

/-- DSC_LAT_SEL: CLEAR empties every bin (R293, R294). -/
def wrLatSel (s : State) (v : Word) : State :=
  let s := genWrite s Reg.DSC_LAT_SEL v
  if bit v.toNat 8 then { s with dsc := { s.dsc with bins := [] } } else s

def execDscLatClear (m : Master) (v : Word) (s : State) : Out := .next (gated s m Reg.DSC_LAT_SEL fun s => wrLatSel s v)

/-- The latency bin of a latency in ns (R293). -/
def latBin (ns : Nat) : Nat :=
  let us := ns / 1000
  if us < 200 then us / 8 else if us < 350 then 25 else if us < 500 then 26 else if us < 1000 then 27
  else if us < 2000 then 28 else if us < 5000 then 29 else if us < 10000 then 30 else 31

/-- Counts a completed host Read: its bin (R293), and DSC_MISS for each of its `n` unit reads that were late (R289). -/
def countRead (s : State) (cls arrived n : Nat) : State :=
  let k := cls * 32 + latBin (now s - arrived)
  let s := { s with dsc := { s.dsc with bins := SMap.put s.dsc.bins k (sat 32 (SMap.getD s.dsc.bins k 0 + 1)) } }
  fadd s (Fld.DSC_MISS_COUNT cls) n

/-- The retry steps that an outcome of the decoders took (R302). -/
def decodeSteps : Decode → Nat
  | .hard => 0
  | .retry k => k
  | _ => 0

end Sys2Proof.Machine
end

