-- ==== Sys2Proof/Machine/Layout.lean ====
section
/-! DEFINITION. Unit headers, the journal, the dirty counter, die-group conditions, capacity and spare accounting
(R228–R230, R295–R297, R312–R315, R323–R324, R444–R448). -/
namespace Sys2Proof.Machine
open Sys2Proof

/-! ### Sequence numbers and the journal (R297, R323, R324) -/

/-- Takes the next sequence number; CMP_SEQ shows the last one taken. -/
def seqTake (s : State) : Nat × State :=
  let n := s.zne.seq + 1
  (n, pset { s with zne := { s.zne with seq := n } } Reg.CMP_SEQ_LO Reg.CMP_SEQ_HI n)

/-- Bytes of a journal record: 16 of header and 8 per body word, a multiple of 16, at most 512 (R323). -/
def jrecLen (r : JRec) : Nat := min 512 (roundUp (16 + 8 * r.body.length) 16)

/-- Places a journal record in the tail (R324). -/
def tailAdd (iso : Option Nat) (holds : List (Nat × Nat)) (s : State) (type : Nat) (body : List Nat) : State :=
  let q := seqTake s
  let r : JRec := { type := type, seq := q.1, body := body, iso := iso, holds := holds.eraseDups }
  { q.2 with med := { q.2.med with tail := q.2.med.tail ++ [r] } }

/-- An isolated slice, as the account of its staging and journal records (R448). -/
def isoSlice (s : State) (n : Nat) : Option Nat := if isoAcct s n then some n else none

/-! ### The dirty counter (R47, R444, R448) -/

/-- Bytes that count against one account: an isolated slice's reserve, or the shared limit. -/
def dirtyOf (s : State) (iso : Option Nat) : Nat :=
  (s.zne.stg.foldl (fun n e => if isoSlice s e.2.slice = iso then n + 4096 else n) 0) +
  (s.med.tail.foldl (fun n r => if r.iso = iso then n + jrecLen r else n) 0)

/-- The dirty counter: bytes of durable data in the DRAM staging area. -/
def dirtyBytes (s : State) : Nat :=
  s.zne.stg.length * 4096 + s.med.tail.foldl (fun n r => n + jrecLen r) 0

/-- The dirty reserves of the isolated slices in MiB, for limit `l`: floor(L × POWER_SHARE ÷ 1,024) (R448). -/
def dirtyReserves (s : State) (l : Nat) : SMap Nat :=
  (s.slm.slices.filter fun e => e.2.iso).map fun e => (e.1, l * e.2.shares.power / 1024)

/-- The limit in bytes of an account: the reserve latched at the epoch start, or the limit in force less the reserves; a fall
of the limit is taken from the shared limit first, then from the reserves in proportion (R448). -/
def limitOf (s : State) (iso : Option Nat) : Nat :=
  let l := fget s Fld.SGD_DIRTY_LIMIT_MIB
  let tot := s.slm.dirtyRsv.foldl (fun n e => n + e.2) 0
  match iso with
  | some n =>
    let r := SMap.getD s.slm.dirtyRsv n 0
    1048576 * (if l < tot then r * l / tot else r)
  | none => 1048576 * (l - tot)

/-- `n` more bytes fit the account (R48). -/
def dirtyRoom (s : State) (iso : Option Nat) (n : Nat) : Bool := decide (dirtyOf s iso + n ≤ limitOf s iso)

/-- A percentage of the account's limit is reached. -/
def dirtyAt (s : State) (iso : Option Nat) (pct : Nat) : Bool := decide (limitOf s iso * pct ≤ dirtyOf s iso * 100)

/-- DSC_DIRTY.URGENT_PCT: values below 20 are treated as 20. -/
def urgentPct (s : State) : Nat := max 20 (fget s Fld.DSC_DIRTY_URGENT_PCT)

/-- Makes the queued programs of staged data urgent when the dirty counter reaches URGENT_PCT, until it falls below
URGENT_PCT − 10 % (R267, R448). A program that stops being urgent keeps the deadline it has (DESIGN CHOICE,
notes/assumptions/87.md). -/
def urgency (s : State) : State :=
  let mark := fun (s : State) (iso : Option Nat) =>
    let mine := fun (o : DOp) => o.kind == 1 && o.staged && decide ((match o.owner with | some n => isoSlice s n | none => none) = iso)
    if dirtyAt s iso (urgentPct s) then
      let t := now s
      let go := fun (o : DOp) => if mine o && !o.urgent then { o with urgent := true, deadline := t } else o
      let queues := SMap.mapv s.dsc.queues fun _ q => opSort s.dsc.tok (q.map go)
      let mapAll := fun (m : SMap (List DOp)) => SMap.mapv m fun _ l => l.map go
      let susp := SMap.mapv s.dsc.susp fun _ e => (e.1.map go, e.2)
      { s with dsc := { s.dsc with queues := queues, parked := mapAll s.dsc.parked, sent := mapAll s.dsc.sent, run := mapAll s.dsc.run,
                                   susp := susp } }
    else if dirtyAt s iso (urgentPct s - 10) then s
    else
      let go := fun (o : DOp) => if mine o then { o with urgent := false } else o
      let mapAll := fun (m : SMap (List DOp)) => SMap.mapv m fun _ l => l.map go
      { s with dsc := { s.dsc with queues := mapAll s.dsc.queues, parked := mapAll s.dsc.parked, sent := mapAll s.dsc.sent,
                                   run := mapAll s.dsc.run, susp := SMap.mapv s.dsc.susp fun _ e => (e.1.map go, e.2) } }
  (none :: (s.slm.slices.filter fun e => e.2.iso).map fun e => some e.1).foldl mark s

/-! ### Unit headers (R295, R296) -/

/-- LBAs in one unit of a namespace (R207). -/
def lbasPerUnit (n : Ns) : Nat := if n.lbaf = 1 then 8 else 1

/-- The payload of a unit from the content of its LBA blocks. -/
def payloadOf (blocks : List Nat) : Nat :=
  let w := if blocks.length = 8 then 4096 else 32768
  (blocks.reverse).foldl (fun acc b => acc * 2 ^ w + b % 2 ^ w) 0

/-- The LBA blocks of a payload. -/
def blocksOf (k payload : Nat) : List Nat :=
  let w := if k = 8 then 4096 else 32768
  (List.range k).map fun i => bits payload (i * w) w

/-- A unit header without its CRC, as a number, little-endian (R296). -/
def headerNum (laddr seq slice flags pos : Nat) : Nat :=
  laddr + seq % 2 ^ 64 * 2 ^ 64 + slice * 2 ^ 128 + flags * 2 ^ 144 + pos * 2 ^ 160

/-- STRIPE_POS (R296). -/
def stripePos (member par7 mode count parity : Nat) : Nat :=
  member + par7 * 16 + mode * 32 + count * 256 + parity * 4096

/-- Information bytes of a unit: header with its CRC-32, then the payload (R295, R296). -/
def infoOf (hdr payload : Nat) : Nat :=
  let c := crc32 (le 28 hdr ++ le 4096 payload)
  hdr + c * 2 ^ 224 + payload * 2 ^ 256

/-- The CRC-32 of a unit's header matches (R303). -/
def infoCrcOk (info : Nat) : Bool := crc32 (le 28 (info % 2 ^ 224) ++ le 4096 (bits info 256 32768)) == bits info 224 32

def infoLaddr (info : Nat) : Nat := bits info 0 64
def infoSeq (info : Nat) : Nat := bits info 64 64
def infoSlice (info : Nat) : Nat := bits info 128 16
def infoPos (info : Nat) : Nat := bits info 160 32
def infoPayload (info : Nat) : Nat := bits info 256 32768

/-- LADDR of a unit: the namespace and its first LBA. -/
def laddrOf (s : State) (nsid unit : Nat) : Nat :=
  nsid * 2 ^ 49 + unit * (match SMap.find s.zne.ns nsid with | some n => lbasPerUnit n | none => 1)

/-! ### Die-group conditions (R228, R229) -/

/-- A bit of a group bitmap. -/
def grp (s : State) (f : Nat → Field) (g : Nat) : Bool := fbit s (f (g / 32)) (g % 32)

/-- Sets or clears a bit of a group bitmap. -/
def grpSet (s : State) (f : Nat → Field) (g : Nat) (b : Bool) : State :=
  if b then fbiton s (f (g / 32)) (g % 32) else fbitoff s (f (g / 32)) (g % 32)

/-- Groups the part has. -/
def groupCount (s : State) : List Nat := if s.part.is7632 then (List.range 128).filter fun g => g % 4 < 2 else List.range 128

/-- Members of a group that are missing or lost. -/
def goneMembers (s : State) (g : Nat) : List Nat := (List.range 16).filter fun m => dieGone s (dieOf g m)

def gFreeOf (s : State) (g : Nat) : Nat := SMap.getD s.plc.gFree g 0
def gBlocksOf (s : State) (g : Nat) : Nat := SMap.getD s.plc.gBlocks g 0

/-! ### Staging occupancy (R254, R255) -/

/-- Staging blocks in use reach a percentage of the staging limit. -/
def stgAt (s : State) (pct : Nat) : Bool := decide (fget s Fld.PLC_STG_LIMIT_BLOCKS * pct ≤ fget s Fld.PLC_STG_USED_BLOCKS * 100)

/-- PLC_FOLD_WATER.HIGH_PCT: a value at or below LOW_PCT is treated as LOW_PCT + 1. -/
def highPct (s : State) : Nat :=
  max (fget s Fld.PLC_FOLD_WATER_HIGH_PCT) (fget s Fld.PLC_FOLD_WATER_LOW_PCT + 1)

/-- PLC_FOLD_WATER.LOW_PCT is reached. -/
def stgLow (s : State) : Bool := stgAt s (fget s Fld.PLC_FOLD_WATER_LOW_PCT)

/-- The events of the levels that the staging occupancy has reached (R255, R263). -/
def stgEvents (s : State) : State :=
  let s := if stgLow s then fon s Fld.PLC_EVENTS_STG_LOW else s
  let s := if stgAt s (highPct s) then fon s Fld.PLC_EVENTS_STG_HIGH else s
  if stgAt s 100 then fon s Fld.PLC_EVENTS_STG_FULL else s

/-- Members that a group has in service: a degraded group has one fewer (R228). -/
def membersOf (s : State) (g : Nat) : Nat := 16 - (goneMembers s g).length

/-- Free blocks on present groups. -/
def freeBlocks (s : State) : Nat :=
  (groupCount s).foldl (fun n g => if grp s Fld.PLC_GRP_PRESENT_GROUPS g then n + membersOf s g * gFreeOf s g else n) 0

/-- PLC_STG_USED, and PLC_FREE: staging draws on the static reserve first, and what is left of the reserve is held apart from the
free pool (R254). -/
def stagingRefresh (s : State) : State :=
  let used := s.med.inUse.foldl (fun n e => if e.2.staging then n + membersOf s (e.1 / 1048576) else n) 0
  let s := fset s Fld.PLC_STG_USED_BLOCKS (sat 32 used)
  stgEvents (fset s Fld.PLC_FREE_BLOCKS (sat 32 (freeBlocks s - (fget s Fld.PLC_STG_MIN_BLOCKS - used))))

/-- FULL and EMPTY of a group, and the counts of free and staging blocks (R229, R254). -/
def grpRefresh (s : State) (g : Nat) : State :=
  let s := grpSet s Fld.PLC_GRP_FULL_GROUPS g (grp s Fld.PLC_GRP_PRESENT_GROUPS g && gFreeOf s g == 0)
  let used := s.med.inUse.any fun e => e.1 / 1048576 == g && (e.2.valid != 0)
  let open_ := s.plc.stripes.any fun e => e.2.group == g
  stagingRefresh (grpSet s Fld.PLC_GRP_EMPTY_GROUPS g (grp s Fld.PLC_GRP_PRESENT_GROUPS g && !used && !open_))

/-- HELD does not bar the slice's work in a dedicated group that was HELD when it was chosen (R251). -/
def heldChosen (s : State) (n g : Nat) : Bool :=
  match SMap.find s.slm.slices n with
  | some x => x.held.contains g
  | none => false

/-- A group is eligible for new work (R230): of the isolated slice `iso`, or of a class with the GROUPS bitmap. -/
def eligible (s : State) (iso : Option Nat) (groups : Nat) (g : Nat) : Bool :=
  let held := grp s Fld.PLC_GRP_HOLD_GROUPS g
  grp s Fld.PLC_GRP_PRESENT_GROUPS g && !grp s Fld.PLC_GRP_CLOSED_GROUPS g && !grp s Fld.PLC_GRP_QUIET_GROUPS g &&
  !grp s Fld.PLC_GRP_FULL_GROUPS g &&
  match iso with
  | some n => isoOf s g == some n && (!held || heldChosen s n g)
  | none => !held && !grp s Fld.PLC_GRP_DEDICATED_GROUPS g && groups.testBit g

/-- The free pool can give `w` stripe blocks of a group, or staging takes them, which may use the static reserve (R254). -/
def poolGives (s : State) (staging : Bool) (g w : Nat) : Bool := staging || decide (membersOf s g * w ≤ fget s Fld.PLC_FREE_BLOCKS)

/-- The best group among the eligible ones: highest score, a tie going to the lowest number at or after the token (R258). -/
def bestGroup (s : State) (ok : Nat → Bool) : Option Nat :=
  let cands := (List.range 128).map (fun i => (s.plc.token + i) % 128) |>.filter ok
  cands.foldl (fun best g =>
    match best with
    | none => some g
    | some b => if SMap.getD s.plc.score b 0 < SMap.getD s.plc.score g 0 then some g else some b) none

/-- The class of a stream key (R240). -/
def keyClass (k : Nat) : Nat := k / 4 % 64

/-! ### Capacity (R312–R315) -/

/-- Pages per block in a mode. -/
def pagesOf (s : State) (ch mode : Nat) : Nat :=
  if mode = 0 then fget s (Fld.CHS_PAGES_ST_SLC ch) else if mode = 1 then fget s (Fld.CHS_PAGES_ST_TLC ch)
  else fget s (Fld.CHS_PAGES_Q_QLC ch)

/-- Data pages of a stripe block in a mode: the fewest among the group's channels; an SLC block has at most 2,048 (R301). The final pages
hold the block summary (R328). -/
def sbPages (s : State) (g mode : Nat) : Nat :=
  let n := (List.range 16).foldl (fun n m => min n (pagesOf s (dieOf g m / 32) mode)) 8191
  let n := if mode = 0 then min n 2048 else n
  n - (n + 128) / 129

/-- Pages of the block summary that follows `n` data pages: 512 headers of 32 bytes a page (R328). -/
def summaryPages (n : Nat) : Nat := (n + 127) / 128

/-- 4 KiB QLC units of one die. -/
def dieUnits (s : State) : Nat := s.part.dieBlocks * s.part.pagesQlc * 4

/-- Data units of a free stripe block of a group, as a QLC block of 15+1 stripes, or of 14+1 in a degraded group (R314;
notes/assumptions/75.md). -/
def sbData (s : State) (g : Nat) : Nat := (layoutOf false 0 0 (goneMembers s g)).1.length * 4 * sbPages s g 2

/-- QLC-equivalents of `n` units written in a mode (R314). -/
def qlcEq (mode n : Nat) : Nat := if mode = 0 then 4 * n else if mode = 1 then 4 * n / 3 else n

/-- Units an SLC stripe block of 15+1 stripes holds (R326). -/
def slcUnits (s : State) : Nat := 15 * 4 * s.part.pagesSlc

/-- Data units of a stripe block in use: 15 to a row, or 14 in two stripes of 7+1, less those of stripes written without a lost member
(R244, R299). -/
def sbUnits (s : State) (g b : Nat) (u : SbUse) : Nat :=
  let per := if u.par7 then 7 else 15
  let short := s.med.layouts.foldl (fun n e => if e.1 / 65536 = sbKey g b then n + (per - e.2.1.length) else n) 0
  4 * sbPages s g u.mode * (if u.par7 then 14 else 15) - short

/-- The class entry. -/
def classOf (s : State) (c : Nat) : ClassEnt := SMap.getD s.plc.classes c ClassEnt.empty

/-- The mode a class writes a zone's extents in. -/
def extMode (e : ClassEnt) : Nat := if e.mode = 1 then 2 else if e.mode = 2 then 1 else if e.mode = 3 then 0 else e.foldMode

/-- A zone is active: Implicitly Opened, Explicitly Opened or Closed (R194). -/
def zActive (z : Zone) : Bool := z.st == 2 || z.st == 3 || z.st == 4

/-- The namespace that owns a zone descriptor, with the namespace's identifier. -/
def nsOfZone (s : State) (zi : Nat) : Option (Nat × Ns) :=
  s.zne.ns.find? fun e => e.2.zoned && decide (e.2.base ≤ zi ∧ zi < e.2.base + e.2.cap / (2 ^ e.2.zlog / 4096))

/-- The isolated slice that owns a namespace. -/
def isoNs (s : State) (n : Ns) : Option Nat := isoSlice s n.slice

/-- The class in which a staged unit of a conventional namespace was written: that of its unit in DRAM, or of the stream of its stripe
block (R236, R240). -/
def stagedClass (s : State) (l : Loc) : Option Nat :=
  match l with
  | .dram k => (SMap.find s.zne.stg k).map (·.cls)
  | .flash die b _ _ =>
    match SMap.find s.med.inUse (sbKey (groupOf die) b) with
    | some u => if u.staging then u.key.map keyClass else none
    | none => none
  | .zero => none

/-- Units of a class as they count once folded, where the class is STAGED (R314). -/
def stagedEq (s : State) (cls n : Nat) : Nat :=
  let e := classOf s cls
  if e.mode = 0 then qlcEq (extMode e) n else 0

/-- Staged units of STAGED classes not yet folded: of zones, and of conventional namespaces (R314). -/
def stagedUnits (s : State) (zs : SMap Zone) (convs : SMap Ns) : Nat :=
  zs.foldl (fun n e => n + stagedEq s e.2.cls (e.2.runs.foldl (fun n r => n + r.len) 0)) 0 +
  s.zne.conv.foldl (fun n e =>
    if convs.any fun x => decide (x.2.base ≤ e.1 ∧ e.1 < x.2.base + x.2.cap) then
      (match stagedClass s e.2.loc with | some c => n + stagedEq s c 1 | none => n)
    else n) 0

/-- Reservable capacity, drive-wide or of an isolated slice's groups (R314, R239). -/
def reservable (s : State) (iso : Option Nat) : Nat :=
  let mine := fun (g : Nat) => grp s Fld.PLC_GRP_PRESENT_GROUPS g && !grp s Fld.PLC_GRP_CLOSED_GROUPS g &&
    (match iso with | some n => isoOf s g == some n | none => !grp s Fld.PLC_GRP_DEDICATED_GROUPS g)
  let gs := (groupCount s).filter mine
  let f := gs.foldl (fun n g => n + gFreeOf s g * sbData s g) 0
  let v := s.med.inUse.foldl (fun n e =>
    let g := e.1 / 1048576
    if mine g && e.2.full then n + qlcEq e.2.mode (sbUnits s g (e.1 % 1048576) e.2 - e.2.valid) else n) 0
  let hl := if s.med.hold then (match iso with | some _ => gs.length | none => 32) * dieUnits s * 15 / 16 else 0
  let convNs := s.zne.ns.filter fun e => !e.2.zoned && decide (isoNs s e.2 = iso)
  let hc := convNs.foldl (fun n e => n + e.2.cap) 0 * fget s Fld.LDC_MED_COLL_HOLD_PCT / 100
  let zs := s.zne.zones.filter fun e => match nsOfZone s e.1 with | some (_, n) => decide (isoNs s n = iso) | none => false
  let st := stagedUnits s zs convNs
  let z := zs.foldl (fun n e => if zActive e.2 then n + qlcEq (extMode (classOf s e.2.cls)) e.2.resv else n) 0
  let c := convNs.foldl (fun n e =>
    n + (e.2.cap - SMap.cnt s.zne.conv fun i v => decide (e.2.base ≤ i ∧ i < e.2.base + e.2.cap) && v.loc != .zero)) 0
  f + v - hl - hc - st - z - c

/-- The loss hold stands again once no rebuild runs and the reservable capacity can carry it (R318). -/
def holdTry (s : State) : State :=
  if !s.med.hold && s.med.rebuilds.isEmpty && decide (32 * dieUnits s * 15 / 16 ≤ reservable s none) then
    { s with med := { s.med with hold := true } }
  else s

/-- Spare blocks remaining on a die; a die that is gone has none (R313). -/
def sparesOf (s : State) (die : Nat) : Nat :=
  if dieGone s die then 0 else SMap.getD s.med.spares die s.med.spareInit

/-- Dies that were populated at first power-up. -/
def diesInit (s : State) : List Nat :=
  (List.range 2048).filter fun d => !dieUnpop s d && (!s.part.is7632 || decide (d / 32 < 32))

/-- Percentage Used: the wear of the blocks in service against their rated cycles, or the spare used (R315). -/
def usedRefresh (s : State) : State :=
  let ds := (diesInit s).filter fun d => !dieGone s d
  let pe := s.med.blocks.foldl (fun n e => if e.2.retired || e.2.spare || dieGone s (e.1 / 1048576) then n else n + e.2.pe) 0
  let live := fun (d : Nat) => s.part.dieBlocks - sparesOf s d - SMap.getD s.med.retired d 0
  let rated := ds.foldl (fun n d => n + live d * ratedOf s d 2 * 4) 0
  let w := if rated = 0 then 0 else 100 * pe / rated
  fset s Fld.LDC_MED_SPARE_PCT_USED (min 255 (max w (100 - fget s Fld.LDC_MED_SPARE_AVAIL_PCT)))

/-- Brings the spare and retirement figures up to date (R313, R315). -/
def spareRefresh (s : State) : State :=
  let ds := diesInit s
  let left := ds.foldl (fun n d => n + sparesOf s d) 0
  let init := ds.length * s.med.spareInit
  let pct := if init = 0 then 0 else min 100 (100 * left / init)
  let was := fget s Fld.LDC_MED_SPARE_AVAIL_PCT
  let warn := fget s Fld.LDC_MED_SPARE_WARN_PCT
  let s := fset (fset s Fld.LDC_MED_SPARE_BLOCKS_BLOCKS left) Fld.LDC_MED_SPARE_INIT_BLOCKS init
  let s := fset s Fld.LDC_MED_RETIRED_BLOCKS (s.med.retired.foldl (fun n e => n + e.2) 0)
  let s := fset s Fld.LDC_MED_SPARE_AVAIL_PCT pct
  let s := if pct < warn ∧ warn ≤ was then fon s Fld.LDC_MED_EVENTS_SPARE_LOW else s
  usedRefresh s

end Sys2Proof.Machine
end

