-- ==== Sys2Proof/Machine/Place.lean ====
section
/-! DEFINITION. Choosing groups and blocks, preparing and claiming stripes, erasing stripe blocks (R230, R240–R246, R258,
R298–R301, R306, R326). -/
namespace Sys2Proof.Machine
open Sys2Proof

/-! ### Blocks -/

/-- Wear of an erase in quarters: SLC 1, TLC 3, QLC 4 (R309). -/
def eraseWear (mode : Nat) : Nat := if mode = 0 then 1 else if mode = 1 then 3 else 4

/-- The record of a block, as new. -/
def blkOf (s : State) (die block : Nat) : Blk :=
  match SMap.find s.med.blocks (blkKey die block) with
  | some b => b
  | none => { pe := 0, mode := 2, repairs := 0, retired := false, spare := decide (s.part.dieBlocks - s.med.spareInit ≤ block) }

def blkPut (s : State) (die block : Nat) (b : Blk) : State :=
  { s with med := { s.med with blocks := SMap.put s.med.blocks (blkKey die block) b } }

/-- A block is erased: its pages are gone, its wear rises by the mode it was last written in (R309, R305). -/
def blockErased (s : State) (die block mode : Nat) : State :=
  let b := blkOf s die block
  let s := { s with med := { s.med with pages := s.med.pages.filter fun e => e.1 / 8192 != blkKey die block } }
  blkPut s die block { b with pe := b.pe + eraseWear b.mode, mode := mode, repairs := 0 }

/-- Emergency stripe blocks (R326, R445): the last data block of 32 groups, 8 in each channel set or 16 in each of two. -/
def emgGroup (s : State) (g : Nat) : Bool := if s.part.is7632 then g % 4 < 2 && g / 4 < 16 else g / 4 < 8

/-- Stripe blocks of a group that hold data: the spares of R313 and the emergency block aside. -/
def sbCount (s : State) (g : Nat) : Nat := s.part.dieBlocks - s.med.spareInit - b2n (emgGroup s g)

/-- A stripe block is free. -/
def sbFree (s : State) (g b : Nat) : Bool :=
  (SMap.find s.med.inUse (sbKey g b)).isNone && (SMap.find s.med.erasing (sbKey g b)).isNone &&
  !s.med.dropped.contains (sbKey g b)

/-- The P/E count of a stripe block: the highest among its members, in quarters (R298). -/
def sbPe (s : State) (g b : Nat) : Nat :=
  (List.range 16).foldl (fun n m => max n (peOf s (dieOf g m) (physOf s g b m))) 0

/-- The first stripe block of the free plane set that a stream takes (R258, R300): streams 0 and 1 the lowest P/E count,
streams 2 and 3 the highest below the rated limit; ties go to the lowest number. -/
def pickBlock (s : State) (g w mode stream : Nat) : Option Nat :=
  let cands := ((List.range (sbCount s g / w)).map (· * w)).filter fun b => (List.range w).all fun i => sbFree s g (b + i)
  let rated := 4 * ratedOf s (dieOf g 0) mode
  cands.foldl (fun best b =>
    match best with
    | none => if stream < 2 ∨ sbPe s g b < rated then some b else none
    | some x =>
      if stream < 2 then (if sbPe s g b < sbPe s g x then some b else some x)
      else if sbPe s g x < sbPe s g b ∧ sbPe s g b < rated then some b else some x) none

/-- Sequencer `ch`. -/
def chsOf (s : State) (ch : Nat) : Chs := SMap.getD s.flash.chs ch Chs.reset

/-- The die's sequence table permits programming the block from page 0 in the mode (R342). -/
def seqReady (s : State) (die block mode : Nat) : Bool :=
  (chsOf s (die / 32)).seq.any fun e => e.1 / 64 == die % 32 && e.2 == (⟨block, mode, 0⟩ : SeqEnt)

/-- The deadline of an operation of device work (R264, R266). -/
def opDeadline (s : State) (cls : Nat) : Nat := now s + fget s (Fld.DSC_CLASS_OP_OP_US cls) * 1000

/-- An operation of device work. -/
def devOp (s : State) (kind mode block page cls : Nat) : DOp :=
  { id := 0, kind := kind, owner := none, iso := false, mode := mode, block := block, page := page, unit := 0,
    deadline := opDeadline s cls, cls := cls, flush := false, staged := false, urgent := false, host := none,
    rebound := none, call := none, started := 0, ran := 0, susp := 0, suspNs := 0 }

/-- Queues the erases of a stripe block's members that `p` selects, retired ones aside (R311), in class Q3, or Q2 while the group is FULL (R266); the groups of
a deleted isolated slice are erased in Q3 (R253). -/
def eraseMembers (s : State) (g b mode : Nat) (p : Nat → Bool) : State :=
  let ms := (List.range 16).filter fun m => p m && !dieGone s (dieOf g m) && !(blkOf s (dieOf g m) (physOf s g b m)).retired
  let cls := if grp s Fld.PLC_GRP_FULL_GROUPS g && !s.plc.erasing.contains g then 2 else 3
  let s := { s with med := { s.med with erasing := SMap.put s.med.erasing (sbKey g b) ms } }
  ms.foldl (fun s m =>
    let o := devOp s 2 mode (physOf s g b m) 0 cls
    enqueue s (dieOf g m) { o with iso := (isoOf s g).isSome, owner := isoOf s g }) s

/-- A stripe block with no valid unit left is erased and returns to the free pool, and with it ends its copy (R306 step 5). -/
def sbErase (s : State) (g b : Nat) : State :=
  match SMap.find s.med.inUse (sbKey g b) with
  | some u =>
    let s := { s with med := { s.med with inUse := SMap.del s.med.inUse (sbKey g b),
                                          copies := s.med.copies.filter fun c => !(c.group == g && c.block == b) },
                      plc := { s.plc with handles := SMap.del s.plc.handles (sbKey g b) } }
    grpRefresh (eraseMembers s g b u.mode fun _ => true) g
  | none => s

/-- Some read resolved to the stripe block has not completed, a command's or a copy's (R50). -/
def readsOf (s : State) (g b : Nat) : Bool :=
  (s.dsc.bg.any fun e => groupOf e.2.die == g && e.2.block == b) ||
  s.hst.ctx.any fun c => c.2.units.any fun u =>
    match u.loc with
    | .flash die b' _ _ => groupOf die == g && b' == b && (match c.2.st with | .ready _ _ _ => false | _ => c.2.opcode == 2)
    | _ => false

/-- Erases every closed stripe block without valid units to which no read resolved; none in a QUIET group (R50, R250). -/
def sweep (s : State) : State :=
  (s.med.inUse.filter fun e => e.2.full && e.2.valid == 0).foldl (fun s e =>
    let g := e.1 / 1048576
    let b := e.1 % 1048576
    if grp s Fld.PLC_GRP_QUIET_GROUPS g || readsOf s g b || (s.plc.stripes.any fun x => x.2.group == g && x.2.block == b)
    then s else sbErase s g b) s

/-- One unit of a stripe block is no longer valid; with the last, the group may be EMPTY (R229). -/
def unitDrop (s : State) (g b : Nat) : State :=
  let s := { s with med := { s.med with inUse := SMap.upd s.med.inUse (sbKey g b) fun u => { u with valid := u.valid - 1 } } }
  match SMap.find s.med.inUse (sbKey g b) with
  | some u => if u.valid = 0 then grpRefresh s g else s
  | none => s

/-- The lowest handle of the staging stripe-block table that is free (R301). -/
def freeHandle (m : SMap Nat) : Nat := ((List.range (m.length + 1)).find? fun h => !(m.any fun e => e.2 == h)).getD 0

/-- A staging stripe block takes a handle. -/
def handleTake (s : State) (g b : Nat) : State :=
  { s with plc := { s.plc with handles := SMap.put s.plc.handles (sbKey g b) (freeHandle s.plc.handles) } }

/-- Takes the plane set from block `b` on, of width `w`, into use, for the stripes of a stream where `key` names one. -/
def takeSet (s : State) (g b w mode : Nat) (staging par7 : Bool) (key : Option Nat) : State :=
  let s := (List.range w).foldl (fun s i =>
    let need := fun m => !seqReady s (dieOf g m) (physOf s g (b + i) m) mode
    let u : SbUse := { mode := mode, valid := 0, conv := false, staging := staging, full := false, par7 := par7, key := key }
    let s := if staging then handleTake s g (b + i) else s
    let s := { s with med := { s.med with inUse := SMap.put s.med.inUse (sbKey g (b + i)) u } }
    if (List.range 16).any need then eraseMembers s g (b + i) mode need else s) s
  grpRefresh { s with plc := { s.plc with gFree := SMap.put s.plc.gFree g (gFreeOf s g - w) } } g

/-! ### Streams (R240) -/

/-- The stream key: class × 4 + stream, and for an isolated slice (slice + 1) × 256 more. `via` 0: the class's own mode;
1: spill into FOLD_MODE, 2^30 up; 2: SLC stripes of a zone that has left direct placement (R247), 2^31 up. -/
def streamKey (s : State) (slice cls stream via : Nat) : Nat :=
  cls * 4 + stream + (if isoAcct s slice then (slice + 1) * 256 else 0) + via * 1073741824

def keyStream (k : Nat) : Nat := k % 4
def keyVia (k : Nat) : Nat := k / 1073741824
def keyIso (k : Nat) : Option Nat := let n := k % 1073741824 / 256; if n = 0 then none else some (n - 1)

/-- The medium mode of a stream (R240): SLC for STAGED and SLC_RESIDENT, the class's mode, or FOLD_MODE for a spill. -/
def keyMode (s : State) (k : Nat) : Nat :=
  let c := classOf s (keyClass k)
  if keyVia k = 1 then c.foldMode else if keyVia k = 2 then 0 else if c.mode = 1 then 2 else if c.mode = 2 then 1 else 0

/-- The stream that a class's LIFE_MAP gives a lifetime hint (R231, R244). -/
def lifeStream (e : ClassEnt) (life : Nat) : Nat := bits e.lifeMap (2 * life) 2

/-- A stripe's data slots that are free. -/
def freeSlots (st : Stripe) : Nat := st.members.countP (· == .free)

/-- A stream's free prepared slots (R241). -/
def streamFree (s : State) (k : Nat) : Nat :=
  s.plc.stripes.foldl (fun n e => if e.2.key = some k then n + freeSlots e.2 else n) 0

/-- Prepared stripes that have free slots, and active streams, as PLC_STREAMS shows them. -/
def streamsRefresh (s : State) : State :=
  let n := SMap.cnt s.plc.stripes fun _ st => st.key.isSome && st.members.any (· == .free)
  fset (fset s Fld.PLC_STREAMS_ACTIVE (sat (Fld.PLC_STREAMS_ACTIVE).w s.plc.streams.length)) Fld.PLC_STREAMS_PREPARED
    (sat (Fld.PLC_STREAMS_PREPARED).w n)

/-! ### Stripes -/

/-- Rows of a plane set of width `w`: four a page and stripe block, for each half in use. -/
def setRows (s : State) (g w mode : Nat) (par7 : Bool) : Nat := 4 * sbPages s g mode * w * (if par7 then 2 else 1)

/-- The stripe at position `i` in set order (R244, R300): half, stripe-block offset, row. The whole set's half 0 comes before its half 1
(DESIGN CHOICE, notes/assumptions/83.md). -/
def rowAt (s : State) (g w mode i : Nat) : Nat × Nat × Nat :=
  let per := 4 * sbPages s g mode * w
  let h := if per = 0 then 0 else i / per
  let r := if per = 0 then i else i % per
  (h, r / 4 % w, 4 * (r / (4 * w)) + r % 4)

/-- A new stripe at position `i` of a plane set. -/
def mkStripe (s : State) (g set0 w mode : Nat) (par7 : Bool) (i : Nat) (key : Option Nat) (zone : Option (Nat × Nat)) : Stripe :=
  let (h, off, row) := rowAt s g w mode i
  let l := layoutOf par7 h (row / 4) (goneMembers s g)
  { key := key, zone := zone, mode := mode, group := g, set0 := set0, width := w, block := set0 + off, row := row,
    par7 := par7, half := h, mem := l.1, par := l.2, members := List.replicate l.1.length .free, parity := none,
    last := now s, toProg := l.1 ++ [l.2] }

/-- Adds a stripe under the next number. -/
def addStripe (s : State) (st : Stripe) : Nat × State :=
  let n := s.plc.nextStripe
  (n, { s with plc := { s.plc with stripes := SMap.put s.plc.stripes n st, nextStripe := n + 1 } })

/-- The group in which a stream's next stripe is prepared, and its position there: the best eligible group that has room in
the stream's open plane set or a free plane set (R241, R258). -/
def prepareIn (s : State) (k : Nat) : Option (Nat × State) :=
  let mode := keyMode s k
  let c := classOf s (keyClass k)
  let wOf := fun g => if mode = 0 then 1 else setWidth s g
  let hasOpen := fun g => match SMap.find s.plc.opens (k * 128 + g) with
    | some o => decide (o.mode = mode ∧ o.next < setRows s g o.width mode o.par7)
    | none => false
  let staging := mode == 0 && (c.mode != 3 || keyVia k == 2)
  let ok := fun g => eligible s (keyIso k) c.groups g &&
    (hasOpen g || (poolGives s staging g (wOf g) && (pickBlock s g (wOf g) mode (keyStream k)).isSome))
  match bestGroup s ok with
  | none => none
  | some g =>
    let s := { s with plc := { s.plc with token := (s.plc.token + 1) % 128 } }
    if hasOpen g then some (g, s)
    else
      match pickBlock s g (wOf g) mode (keyStream k) with
      | none => none
      | some b =>
        let s := takeSet s g b (wOf g) mode staging c.par7 (some k)
        let o : OpenSb := { set0 := b, width := wOf g, mode := mode, par7 := c.par7, next := 0 }
        some (g, { s with plc := { s.plc with opens := SMap.put s.plc.opens (k * 128 + g) o } })

/-- Prepares `n` stripes of a stream in a group's open plane set. -/
def prepareN (s : State) (k g : Nat) : Nat → State
  | 0 => s
  | n + 1 =>
    match SMap.find s.plc.opens (k * 128 + g) with
    | some o =>
      if o.next < setRows s g o.width o.mode o.par7 then
        let (_, s') := addStripe s (mkStripe s g o.set0 o.width o.mode o.par7 o.next (some k) none)
        prepareN { s' with plc := { s'.plc with opens := SMap.put s'.plc.opens (k * 128 + g) { o with next := o.next + 1 } } } k g n
      else { s with plc := { s.plc with opens := SMap.del s.plc.opens (k * 128 + g) } }
    | none => s

/-- The refresher prepares the stream's next stripe, or for TLC and QLC the stripes of a whole page of a plane set (R241). -/
def prepare (s : State) (k : Nat) : State :=
  match prepareIn s k with
  | some (g, s') =>
    match SMap.find s'.plc.opens (k * 128 + g) with
    | some o => streamsRefresh (grpRefresh (prepareN s' k g (if o.mode = 0 then 1 else 4 * o.width)) g)
    | none => s'
  | none => s

/-- Claims free slots of a stripe from data member `i` on: the members after, and the slots claimed. -/
def claimIn (n : Nat) : List Member → Nat → Nat → List Member × List Tgt
  | [], _, _ => ([], [])
  | m :: ms, i, k =>
    if k ≠ 0 ∧ m = .free then
      let r := claimIn n ms (i + 1) (k - 1)
      (.claimed :: r.1, ⟨n, i⟩ :: r.2)
    else
      let r := claimIn n ms (i + 1) k
      (m :: r.1, r.2)

/-- The stream is active, or becomes so while fewer than 1,024 are (R240, R260). -/
def streamOpen (s : State) (key : Nat) : Bool × State :=
  if (SMap.find s.plc.streams key).isSome then (true, s)
  else if 1024 ≤ s.plc.streams.length then (false, fon s Fld.PLC_EVENTS_STREAMS_FULL)
  else
    let t := now s
    (true, streamsRefresh { s with plc := { s.plc with streams := SMap.put s.plc.streams key { mode := keyMode s key, last := t } } })

/-- Claims `k` free prepared slots of an active stream, in stripe order (R244); a QUIET group gives none to background work
(R250). -/
def claimFrom (s : State) (key k : Nat) (copy : Bool) : List Tgt × State :=
  let t := now s
  let s := { s with plc := { s.plc with streams := SMap.put s.plc.streams key { mode := keyMode s key, last := t } } }
  let r := s.plc.stripes.foldl (fun (acc : List Tgt × SMap Stripe × Nat) e =>
    if e.2.key = some key ∧ acc.2.2 ≠ 0 ∧ !(copy && grp s Fld.PLC_GRP_QUIET_GROUPS e.2.group) then
      let c := claimIn e.1 e.2.members 0 acc.2.2
      (acc.1 ++ c.2, SMap.put acc.2.1 e.1 { e.2 with members := c.1, last := t }, acc.2.2 - c.2.length)
    else acc) (([] : List Tgt), s.plc.stripes, k)
  (r.1, streamsRefresh { s with plc := { s.plc with stripes := r.2.1 } })

/-- Claims slots of a stream, which becomes active when it may (R240, R244). -/
def claimSlots (s : State) (key k : Nat) (copy : Bool := false) : List Tgt × State :=
  match streamOpen s key with
  | (true, s) => claimFrom s key k copy
  | (false, s) => ([], s)

/-- Puts a data member of a stripe. -/
def setMember (s : State) (t : Tgt) (m : Member) : State :=
  let tm := now s
  { s with plc := { s.plc with stripes := SMap.upd s.plc.stripes t.stripe fun st =>
    { st with members := st.members.set t.member m, last := tm } } }

/-- STRIPE_POS of data member `i` of a stripe (R296). -/
def posIn (st : Stripe) (i : Nat) : Nat :=
  stripePos (st.mem.getD i 0) (b2n st.par7) st.mode st.mem.length st.par

/-- The information bytes of data member `i` of a stripe (R295, R296, R306). -/
def memberInfo (s : State) (st : Stripe) (i : Nat) : Nat :=
  match st.members.getD i .pad with
  | .unit slot =>
    match SMap.find s.zne.stg slot with
    | some u =>
      let z := match SMap.find s.zne.ns u.nsid with
        | some n => n.zoned
        | none => false
      infoOf (headerNum (laddrOf s u.nsid u.unit) u.seq u.slice (if z then 1 else 2) (posIn st i)) (payloadOf u.blocks)
    | none => infoOf (headerNum 0 0 0xFFFF 4 (posIn st i)) 0
  | .copy info _ =>
    infoOf (headerNum (infoLaddr info) (infoSeq info) (infoSlice info) (bits info 144 16) (posIn st i)) (infoPayload info)
  | _ => infoOf (headerNum 0 0 0xFFFF 4 (posIn st i)) 0

/-- The exclusive or of the data members' information bytes (R296, R299). -/
def parityOf (s : State) (st : Stripe) : Nat :=
  (List.range st.mem.length).foldl (fun n i => n ^^^ memberInfo s st i) 0

/-- The stripes of the page that stripe `st` belongs to, in every stripe block of its plane set. -/
def pageStripes (s : State) (st : Stripe) : List (Nat × Stripe) :=
  s.plc.stripes.filter fun e => e.2.group == st.group && e.2.set0 == st.set0 && e.2.half == st.half && e.2.row / 4 == st.row / 4

/-- The information bytes that member `m` programs at a unit position. -/
def contentOf (s : State) (st : Stripe) (m : Nat) : Nat :=
  if m = st.par then st.parity.getD 0
  else memberInfo s st (st.mem.findIdx (· == m))

/-- The stripe holds staged host data (R266). -/
def holdsStaged (st : Stripe) : Bool := st.members.any fun m => match m with | .unit _ => true | _ => false

/-- The isolated slice in whose group the stripe lies. -/
def stripeIso (s : State) (st : Stripe) : Option Nat := isoOf s st.group

/-- The class and the start of the background work whose data the stripes of a page hold (R257, R266): the lowest class, and its
earliest start. -/
def pageWork (sts : List (Nat × Stripe)) : Nat × Option Nat :=
  let cls := sts.foldl (fun n e => min n e.2.work) 3
  (cls, sts.foldl (fun (b : Option Nat) e =>
    match b, (if e.2.work = cls then e.2.begun else none) with
    | some x, some y => some (min x y)
    | some x, none => some x
    | none, y => y) none)

/-- Queues the programs of a page once every stripe of it has its parity and its blocks are erased: one program a member and
stripe block. A program of staged data counts its deadline from when the last member of its stripes was assembled, and is urgent at once
while the dirty counter asks for that (R246, R266, R267, R299, R300). -/
def programPage (s : State) (st : Stripe) : State :=
  let sts := pageStripes s st
  let erased := (List.range st.width).all fun i => (SMap.find s.med.erasing (sbKey st.group (st.set0 + i))).isNone
  if sts.length = 4 * st.width ∧ sts.all (fun e => e.2.parity.isSome) ∧ erased then
    let staged := sts.any fun e => holdsStaged e.2
    let go := fun (s : State) => if staged then urgency s else s
    let ready := fun (i : Nat) => sts.foldl (fun t e => if e.2.block = st.set0 + i then max t e.2.last else t) 0
    let w := pageWork sts
    let cls := if staged then 1 else w.1
    let iso := stripeIso s st
    go <| (List.range st.width).foldl (fun s i =>
      (st.mem ++ [st.par]).foldl (fun s m =>
        let o := devOp s 1 st.mode (physOf s st.group (st.set0 + i) m) (st.row / 4) cls
        let o := match staged, w.2 with
          | true, _ => { o with deadline := ready i + fget s (Fld.DSC_CLASS_OP_OP_US cls) * 1000 }
          | false, some t => { o with deadline := t + fget s (Fld.DSC_CLASS_OP_OP_US cls) * 1000 }
          | false, none => o
        enqueue s (dieOf st.group m) { o with staged := staged, owner := iso, iso := iso.isSome }) s) s
  else s

end Sys2Proof.Machine
end

