-- ==== Sys2Proof/Machine/Post.lean ====
section
/-! DEFINITION. Posting descriptors to the sequencers, their completion FIFOs, and the withdrawal of what has not started
(R335–R341, R345, R346). -/
namespace Sys2Proof.Machine
open Sys2Proof

/-! ### The sequencers' completion FIFO (R346) -/

def chsPut (s : State) (ch : Nat) (c : Chs) : State := { s with flash := { s.flash with chs := SMap.put s.flash.chs ch c } }

/-- Writes a completion entry: into the FIFO, or it waits for room (R345, R346). -/
def complete (s : State) (ch : Nat) (e : CEnt) : State :=
  let c := chsOf s ch
  let s := finc s (Fld.CHS_COUNT_COUNT ch 4)
  if c.fifo.length < 16 ∧ c.ovr.isEmpty then
    let s := chsPut s ch { c with fifo := c.fifo ++ [e] }
    if c.fifo.length + 1 = 16 then fon s (Fld.CHS_EVENTS_CFIFO_FULL ch) else s
  else chsPut (finc s (Fld.CHS_COUNT_COUNT ch 5)) ch { c with ovr := c.ovr ++ [e] }

/-- CFLAGS of a descriptor after `n` suspends (R345). -/
def entFlags (d : Desc) (n : Nat) : Nat :=
  bits d.flags 3 1 + 2 * (if n = 0 then 0 else 1) + 4 * bits d.flags 0 1 + 8 * bits d.flags 1 1 +
  16 * (if 0x80 ≤ d.op ∧ d.op < 0xC0 then 1 else 0)

/-- The completion entry of a descriptor that the die is not touched for. -/
def refusedEnt (d : Desc) (st : Nat) : CEnt :=
  { tag := d.tag, status := st, die := d.die, op := d.op, array := 0, flags := entFlags d 0, susp := 0, dstat := 0 }

/-! ### Posting (R335–R337) -/

def qGet (c : Chs) (q : Nat) : List Desc := if q = 0 then c.q0 else if q = 1 then c.q1 else if q = 2 then c.q2 else c.q3

def qPut (c : Chs) (q : Nat) (l : List Desc) : Chs :=
  if q = 0 then { c with q0 := l } else if q = 1 then { c with q1 := l } else if q = 2 then { c with q2 := l }
  else { c with q3 := l }

/-- Parses the 16 words of CHS_POST_D (R337). -/
def descOf (w : Nat → Nat) : Desc :=
  let b := fun (o : Nat) => bits (w (o / 4)) (8 * (o % 4)) 8
  let h := fun (o : Nat) => b o + 256 * b (o + 1)
  let dref := fun (k : Nat) =>
    let lo := w (6 + 2 * k)
    let hi := w (7 + 2 * k)
    let v := lo + bits hi 0 5 * 4294967296
    if hi / 1073741824 = 1 then DRef.slab v else if hi / 1073741824 = 2 then DRef.dram v else DRef.none
  { op := b 0, flags := b 1, die := b 2, mode := bits (b 3) 0 2, tag := w 1, block := bits (w 2) 0 19, page := h 12,
    units := b 14, step := b 15, call := w 4, owner := h 20, param := h 22, data := (List.range 4).map dref, param2 := w 14 }

/-- Queues a descriptor. -/
def chsPush (s : State) (ch q : Nat) (d : Desc) : State :=
  let c := chsOf s ch
  chsPut s ch (qPut c q (qGet c q ++ [d]))

/-- The operations of R337 by number. -/
def opKnown (op : Nat) : Bool := decide (1 ≤ op ∧ op ≤ 12) || decide (0x80 ≤ op ∧ op < 0xC0)

/-- The descriptor waiting in CHS_POST is queued when its queue has room; GO clears (R335–R337). One with an unknown OP
completes as it is taken (R338), and so does one posted to a carded sequencer (R359). -/
def postPending (s : State) (ch : Nat) : State :=
  if !fone s (Fld.CHS_POST_GO_GO ch) then s
  else
    let q := fget s (Fld.CHS_POST_GO_QUEUE ch)
    if 64 ≤ (qGet (chsOf s ch) q).length then s
    else
      let d := descOf fun k => rget s (Reg.CHS_POST_D ch k)
      let s := foff s (Fld.CHS_POST_GO_GO ch)
      if carded s (midChs ch) then complete s ch (refusedEnt d ST_CARDED)
      else if opKnown d.op then chsPush s ch q d
      else complete (fon s (Fld.CHS_EVENTS_DESC_INVALID ch)) ch (refusedEnt d ST_DESC_INVALID)

/-- Completes every queued descriptor that satisfies `p` with a status (R352, R359); a poster that waited for room goes on (R335). -/
def flushQueues (s : State) (ch st : Nat) (p : Desc → Bool) : State :=
  let c := chsOf s ch
  let out := (c.q0 ++ c.q1 ++ c.q2 ++ c.q3).filter p
  let keep := fun (q : List Desc) => q.filter fun d => !p d
  let s := chsPut s ch { c with q0 := keep c.q0, q1 := keep c.q1, q2 := keep c.q2, q3 := keep c.q3 }
  postPending (out.foldl (fun s d => complete s ch (refusedEnt d st)) s) ch

/-- Withdraws issued operations that satisfy `p` and have not started: their descriptors complete with ST_SQUASHED (R341). -/
def withdraw (s : State) (p : DOp → Bool) : State :=
  (s.dsc.sent.filter fun e => e.2.any p).foldl (fun s e =>
    flushQueues s (e.1 / 32) ST_SQUASHED fun d => e.2.any fun o => o.id == d.tag) s

end Sys2Proof.Machine
end

