-- ==== Sys2Proof/Machine/Metadata.lean ====
section
/-! DEFINITION. Metadata units, the journal on flash, checkpoint chunks, block summaries, and what a boot can read of them
(R309, R321–R325, R328; notes/assumptions/45.md). -/
namespace Sys2Proof.Machine
open Sys2Proof

/-! ### The content of blocks -/

/-- `n` more valid units in a stripe block. -/
def unitsAdd (s : State) (g b n : Nat) (conv : Bool) : State :=
  { s with med := { s.med with inUse := SMap.upd s.med.inUse (sbKey g b) fun u =>
    { u with valid := u.valid + n, conv := u.conv || conv } } }

/-- Puts the information bytes of one unit position of a member's page. -/
def unitPut (s : State) (g b m page pos info : Nat) : State :=
  let k := blkKey (dieOf g m) (physOf s g b m) * 8192 + page
  { s with med := { s.med with pages := SMap.put s.med.pages k ((SMap.getD s.med.pages k [0, 0, 0, 0]).set pos info) } }

/-- The information bytes that a member has programmed at a unit position; 0 while its page is erased. -/
def unitHas (s : State) (g b m page pos : Nat) : Nat :=
  (SMap.getD s.med.pages (blkKey (dieOf g m) (physOf s g b m) * 8192 + page) [0, 0, 0, 0]).getD pos 0

/-- Puts a unit into the row of an SLC stripe of layout `l`, and its share into the stripe's parity unit. -/
def stripePut (s : State) (g b row m : Nat) (l : List Nat × Nat) (info : Nat) : State :=
  let old := unitHas s g b l.2 (row / 4) (row % 4)
  unitPut (unitPut s g b m (row / 4) (row % 4) info) g b l.2 (row / 4) (row % 4) (old ^^^ info)

/-! ### Block summaries (R328) -/

/-- LADDR of metadata (R296). -/
def metaLaddr (a : Nat) : Nat := 0x7FFF * 2 ^ 49 + a

/-- The headers of the units that a member's block holds, in page order, for `n` data pages. -/
def blockHeads (s : State) (g b m n : Nat) : List Nat :=
  (List.range n).flatMap fun page =>
    ((SMap.getD s.med.pages (blkKey (dieOf g m) (physOf s g b m) * 8192 + page) [0, 0, 0, 0]).map fun info => info % 2 ^ 256)

/-- A member writes the headers of its units into the final pages of its block, 128 of them to a codeword. -/
def summaryMember (s : State) (g b m mode : Nat) : State :=
  let n := sbPages s g mode
  let hs := blockHeads s g b m n
  let word := fun (i : Nat) =>
    infoOf (headerNum (metaLaddr 0) 0 0xFFFF 8 (stripePos m 0 mode 15 0)) (blocksOfHeads ((hs.drop (128 * i)).take 128))
  (List.range (4 * summaryPages n)).foldl (fun s i => unitPut s g b m (n + i / 4) (i % 4) (word i)) s
where
  /-- Headers one after the other. -/
  blocksOfHeads (l : List Nat) : Nat := l.reverse.foldl (fun acc h => acc * 2 ^ 256 + h) 0

/-- A stripe block to which nothing more is written closes: each member writes its summary. -/
def sbClose (s : State) (g b : Nat) : State :=
  match SMap.find s.med.inUse (sbKey g b) with
  | some u =>
    if u.full then s
    else
      let s := { s with med := { s.med with inUse := SMap.put s.med.inUse (sbKey g b) { u with full := true } } }
      ((List.range 16).filter fun m => !dieGone s (dieOf g m)).foldl (fun s m => summaryMember s g b m u.mode) s
  | none => s

/-! ### Metadata stripes (R321) -/

/-- The stream of copy `c` of the metadata. -/
def metaKey (c : Nat) : Nat := 3 * 1073741824 + c * 4

/-- The next unit still has a place in an open metadata stripe block, whose group takes new stripes and has lost no further member. -/
def metaRoom (s : State) (o : MetaOpen) : Bool :=
  let dm := (layoutOf false 0 0 o.gone).1.length
  decide (o.next < 4 * sbPages s o.group 0 * dm) && o.gone == goneMembers s o.group && eligible s none (2 ^ 128 - 1) o.group

/-- Opens an SLC stripe block for copy `c`, erased. Groups of odd and of even number share no channel set, so the two copies lie in
groups of different sets. -/
def metaTake (s : State) (c : Nat) : Option (MetaOpen × State) :=
  let ok := fun g => g % 2 == c && eligible s none (2 ^ 128 - 1) g && poolGives s false g 1 && (pickBlock s g 1 0 0).isSome
  match bestGroup s ok with
  | none => none
  | some g =>
    match pickBlock s g 1 0 0 with
    | none => none
    | some b =>
      let gone := goneMembers s g
      let s := ((List.range 16).filter fun m => !gone.contains m && !seqReady s (dieOf g m) (physOf s g b m) 0).foldl
        (fun s m => blockErased s (dieOf g m) (physOf s g b m) 0) s
      let u : SbUse := { mode := 0, valid := 0, conv := false, staging := false, full := false, par7 := false, key := some (metaKey c) }
      let s := { s with med := { s.med with inUse := SMap.put s.med.inUse (sbKey g b) u },
                        plc := { s.plc with token := (s.plc.token + 1) % 128, gFree := SMap.put s.plc.gFree g (gFreeOf s g - 1) } }
      some ({ group := g, block := b, next := 0, gone := gone }, grpRefresh s g)

/-- The open stripe block that takes the next unit of copy `c`. -/
def metaBlock (s : State) (c : Nat) : Option (MetaOpen × State) :=
  match SMap.find s.med.metaOpen c with
  | some o => if metaRoom s o then some (o, s) else metaTake (sbClose s o.group o.block) c
  | none => metaTake s c

/-- Writes a metadata unit into the next place of an open stripe block, and its share into the stripe's parity unit. -/
def metaPlace (s : State) (c id : Nat) (u : MetaUnit) (o : MetaOpen) : Loc × State :=
  let dm := (layoutOf false 0 0 o.gone).1.length
  let row := o.next / dm
  let l := layoutOf false 0 (row / 4) o.gone
  let m := l.1.getD (o.next % dm) 0
  let info := infoOf (headerNum (metaLaddr id) u.seq 0xFFFF 8 (stripePos m 0 0 dm l.2)) u.payload
  let s := stripePut s o.group o.block row m l info
  let s := if o.gone.isEmpty then s
    else { s with med := { s.med with layouts := SMap.put s.med.layouts (stripeKey o.group o.block row 0) l } }
  let s := { s with med := { s.med with metaOpen := SMap.put s.med.metaOpen c { o with next := o.next + 1 } } }
  (.flash (dieOf o.group m) o.block (row / 4) (row % 4), unitsAdd s o.group o.block 1 false)

/-- Writes copy `c` of a metadata unit; none while no group can take it. -/
def metaCopy (s : State) (c id : Nat) (u : MetaUnit) : Option Loc × State :=
  match metaBlock s c with
  | some (o, t) => let r := metaPlace t c id u o; (some r.1, r.2)
  | none => (none, s)

/-- Writes a metadata unit twice (R321), or not at all. -/
def metaWrite (s : State) (u : MetaUnit) : Bool × State :=
  let id := s.med.nextMeta
  match metaCopy s 0 id u with
  | (some a, t) =>
    match metaCopy t 1 id u with
    | (some b, t) =>
      (true, { t with med := { t.med with metas := SMap.put t.med.metas id { u with copies := [a, b] }, nextMeta := id + 1 } })
    | (none, _) => (false, s)
  | (none, _) => (false, s)

/-! ### The journal (R323–R325) -/

/-- A journal record as bytes (R323). -/
def jrecBytes (r : JRec) : List Byte :=
  let n := jrecLen r
  let body := (r.body.flatMap (le 8) ++ zeros 16).take (n - 16)
  let mk := fun (c : Nat) => le 2 r.type ++ le 2 n ++ le 4 c ++ le 8 r.seq ++ body
  mk (crc32 (mk 0))

/-- The records at the head of the tail that fill a unit. -/
def packRecs : List JRec → Nat → List JRec
  | [], _ => []
  | r :: rs, room => if jrecLen r ≤ room then r :: packRecs rs (room - jrecLen r) else []

/-- A stripe block holds journal units: its newest record, and the stripe blocks whose erase it waits for (R325). -/
def journalBlock (s : State) (recs : List JRec) (l : Loc) : State :=
  match l with
  | .flash die b _ _ =>
    let k := sbKey (groupOf die) b
    let j : JBlk := match SMap.find s.med.jblks k with | some j => j | none => { newest := 0, waits := [] }
    let j := { j with newest := recs.foldl (fun n r => max n r.seq) j.newest, waits := (j.waits ++ recs.flatMap (·.holds)).eraseDups }
    { s with med := { s.med with jblks := SMap.put s.med.jblks k j } }
  | _ => s

/-- Writes the tail in metadata units as it fills; the records in a unit that is not full as well where `all` (R324). -/
def tailOut (all : Bool) : Nat → State → State
  | 0, s => s
  | k + 1, s =>
    let recs := packRecs s.med.tail 4096
    if recs.isEmpty || (!all && recs.length == s.med.tail.length) then s
    else
      let u : MetaUnit := { chunk := none, seq := recs.foldl (fun n r => max n r.seq) 0, payload := leNat (recs.flatMap jrecBytes), copies := [], recs := recs }
      match metaWrite s u with
      | (true, t) =>
        let at_ := match SMap.find t.med.metas s.med.nextMeta with | some u => u.copies | none => []
        let t := at_.foldl (fun t l => journalBlock t recs l) t
        tailOut all k { t with med := { t.med with tail := t.med.tail.drop recs.length, jrnUnits := t.med.jrnUnits + 1 } }
      | (false, _) => s

/-- Writes every whole unit of the tail, or all of it. -/
def tailWrite (s : State) (all : Bool) : State := tailOut all s.med.tail.length s

/-- Journals a change that makes units in stripe blocks `holds` invalid. Where the record takes its account past the dirty limit, the tail is
written at once (R48, R324). -/
def journalHold (iso : Option Nat) (holds : List (Nat × Nat)) (s : State) (type : Nat) (body : List Nat) : State :=
  let s := tailAdd iso holds s type body
  if dirtyRoom s iso 0 then s else tailWrite s true

/-- Journals a change (R323, R324). -/
def journalFor (iso : Option Nat) (s : State) (type : Nat) (body : List Nat) : State := journalHold iso [] s type body

def journal (s : State) (type : Nat) (body : List Nat) : State := journalFor none s type body

/-- The stripe block of a location. -/
def locBlock (l : Loc) : List (Nat × Nat) := match l with | .flash die b _ _ => [(groupOf die, b)] | _ => []

/-- One copy of a metadata unit is no longer needed. -/
def metaUnitDrop (s : State) (l : Loc) : State := match l with | .flash die b _ _ => unitDrop s (groupOf die) b | _ => s

/-- Metadata units with a copy in a stripe block. -/
def metaIn (s : State) (g b : Nat) : SMap MetaUnit :=
  s.med.metas.filter fun e => e.2.copies.any fun l => match l with | .flash die b' _ _ => groupOf die == g && b' == b | _ => false

/-- A journal stripe block is erased once a checkpoint cycle that began after its newest record has completed and every
stripe block its records wait for has been erased (R325); not while it holds a chunk of the last cycle. -/
def journalErase (s : State) (g b : Nat) : State :=
  match SMap.find s.med.jblks (sbKey g b) with
  | some j =>
    if j.newest < s.med.ckptDone ∧ j.waits.isEmpty ∧ (metaIn s g b).all (fun e => e.2.chunk.isNone) then
      let here := fun (l : Loc) => match l with | .flash die b' _ _ => groupOf die == g && b' == b | _ => false
      let metas := SMap.mapv s.med.metas fun _ u => { u with copies := u.copies.filter fun l => !here l }
      let opens := s.med.metaOpen.filter fun e => !(e.2.group == g && e.2.block == b)
      sbErase { s with med := { s.med with jblks := SMap.del s.med.jblks (sbKey g b), metas := metas.filter fun e => !e.2.copies.isEmpty,
                                           metaOpen := opens } } g b
    else s
  | none => s

def execJournalBlockErase (g : Fin 128) (b : Nat) (s : State) : Out := .next (journalErase s g.val b)

/-! ### The emergency blocks (R326, R445) -/

/-- The groups whose emergency block can be written. -/
def emgGroups (s : State) : List Nat :=
  (groupCount s).filter fun g => emgGroup s g && decide ((goneMembers s g).length ≤ 1) && decide (0 < sbPages s g 0)

/-- Data members of each emergency stripe: one fewer where a group has lost a member. -/
def emgPer (s : State) : Nat := (emgGroups s).foldl (fun n g => min n (layoutOf false 0 0 (goneMembers s g)).1.length) 15

/-- Programs the next unit of the emergency blocks, stripe after stripe over their groups; `mk` gives its information bytes for its
STRIPE_POS. -/
def emgPut (s : State) (mk : Nat → Nat) : State :=
  let gs := emgGroups s
  let k := s.med.emgNext / emgPer s
  match gs[k % gs.length]? with
  | some g =>
    let row := k / gs.length
    let l := layoutOf false 0 (row / 4) (goneMembers s g)
    let m := l.1.getD (s.med.emgNext % emgPer s) 0
    let s := if row < 4 * sbPages s g 0 then stripePut s g (sbCount s g) row m l (mk (stripePos m 0 0 l.1.length l.2)) else s
    { s with med := { s.med with emgNext := s.med.emgNext + 1 } }
  | none => s

/-- A staged unit goes to the emergency blocks with its header, FLAGS.EMERGENCY set (R296, R326). -/
def emgUnit (s : State) (u : SUnit) : State :=
  let zoned := match SMap.find s.zne.ns u.nsid with | some n => n.zoned | none => false
  emgPut s fun pos => infoOf (headerNum (laddrOf s u.nsid u.unit) u.seq u.slice (16 + if zoned then 1 else 2) pos) (payloadOf u.blocks)

/-- The journal tail goes to the emergency blocks, in metadata units (R324). -/
def emgTail : Nat → List JRec → State → State
  | 0, _, s => s
  | k + 1, l, s =>
    let recs := packRecs l 4096
    if recs.isEmpty then s
    else
      let seq := recs.foldl (fun n r => max n r.seq) 0
      emgTail k (l.drop recs.length)
        (emgPut s fun pos => infoOf (headerNum (metaLaddr (s.med.nextMeta + k)) seq 0xFFFF 24 pos) (leNat (recs.flatMap jrecBytes)))

/-- An erase of an emergency block that is not complete ends before the block is written. -/
def emgReady (s : State) : State :=
  (groupCount s).foldl (fun s g =>
    match SMap.find s.med.erasing (sbKey g (sbCount s g)) with
    | some ms =>
      let s := ms.foldl (fun s m => blockErased s (dieOf g m) (physOf s g (sbCount s g) m) 0) s
      { s with med := { s.med with erasing := SMap.del s.med.erasing (sbKey g (sbCount s g)), emgNext := 0 } }
    | none => s) s

/-- Step 5 of R54: every dirty staged unit and the journal tail are written to the emergency blocks (R324, R326). -/
def emgFlush (s : State) : State :=
  let s := emgReady s
  let s := emgTail s.med.tail.length s.med.tail ((s.zne.stg.map (·.2)).foldl emgUnit s)
  { s with med := { s.med with emg := s.zne.stg.map (·.1), emgSeq := (if s.med.tail.isEmpty then 0 else s.zne.seq) } }

/-- Once every unit restored from the emergency blocks lies in a closed stripe, and the restored tail in metadata stripes, the blocks are
erased (R326). -/
def emgErase (s : State) : State :=
  if s.med.emgNext = 0 || !s.med.emg.isEmpty || s.med.tail.any (fun r => decide (r.seq ≤ s.med.emgSeq)) then s
  else
    let s := { s with med := { s.med with emgNext := 0, emgSeq := 0 } }
    ((groupCount s).filter fun g => emgGroup s g && decide (0 < sbCount s g)).foldl (fun s g => eraseMembers s g (sbCount s g) 0 fun _ => true) s

/-! ### Moving metadata (R306, R318) -/

/-- What a location gives for a metadata unit: the unit read there, or the exclusive or of the rest of its stripe where the die is lost or
the unit does not stand there. -/
def metaInfos (s : State) (l : Loc) : List Nat :=
  match l with
  | .flash die b page u =>
    let g := groupOf die
    let ly := stripeLayout s g b (4 * page + u) 0
    let rest := (ly.1 ++ [ly.2]).filter fun m => m != memberOf die
    (if dieGone s die then [] else [unitAt s die (srcPhys s die b page) page u]) ++
    (if rest.any fun m => dieGone s (dieOf g m) then [] else [rest.foldl (fun n m => n ^^^ unitHas s g b m page u) 0])
  | _ => []

/-- A metadata unit read for a copy: the first of what its copies give that passes the CRC-32 and the address (R303, R306). -/
def metaRead (s : State) (id : Nat) (u : MetaUnit) : Option Nat :=
  (u.copies.flatMap (metaInfos s)).find? fun i => infoCrcOk i && infoLaddr i == metaLaddr id % 2 ^ 64

/-- Reads a metadata unit, writes one copy of it anew, and drops the old one (R306). One that neither copy gives stays where it is. -/
def metaMove1 (s : State) (id : Nat) (u : MetaUnit) (c : Nat) : State :=
  let got := match metaRead s id u with | some i => { u with seq := infoSeq i, payload := infoPayload i } | none => { u with copies := [] }
  match got.copies[c]?, metaCopy s c id got with
  | some l, (some l', t) =>
    let t := metaUnitDrop t l
    let t := { t with med := { t.med with metas := SMap.put t.med.metas id { u with copies := u.copies.set c l' } } }
    match u.chunk, l' with
    | none, .flash die b _ _ =>
      let k := sbKey (groupOf die) b
      let j : JBlk := match SMap.find t.med.jblks k with | some j => j | none => { newest := 0, waits := [] }
      let w := match l with
        | .flash d x _ _ => (match SMap.find t.med.jblks (sbKey (groupOf d) x) with | some o => o.waits | none => [])
        | _ => []
      { t with med := { t.med with jblks := SMap.put t.med.jblks k { newest := max j.newest u.seq, waits := (j.waits ++ w).eraseDups } } }
    | _, _ => t
  | _, _ => s

/-- Moves the metadata units whose copy lies on the members `p` of a stripe block; the block takes no more units. -/
def metaMove (s : State) (g b : Nat) (p : Nat → Bool) : State :=
  let hit := fun (l : Loc) => match l with | .flash die b' _ _ => groupOf die == g && b' == b && p (memberOf die) | _ => false
  let all := metaIn s g b
  if all.isEmpty then s
  else
    let opens := s.med.metaOpen.filter fun e => !(e.2.group == g && e.2.block == b)
    let s := sbClose { s with med := { s.med with metaOpen := opens } } g b
    all.foldl (fun s e =>
      [0, 1].foldl (fun s c =>
        match SMap.find s.med.metas e.1 with
        | some u => if (match u.copies[c]? with | some l => hit l | none => false) then metaMove1 s e.1 u c else s
        | none => s) s) s

/-! ### What a boot can read (R327, R328) -/

/-- A unit can be read: its die is in service, or the rest of its stripe is, for a rebound. -/
def locReadable (s : State) (l : Loc) : Bool :=
  match l with
  | .flash die b page u =>
    let g := groupOf die
    let ly := stripeLayout s g b (4 * page + u) 0
    !dieGone s die || decide ((ly.1 ++ [ly.2]).countP (fun m => dieGone s (dieOf g m)) ≤ 1)
  | _ => false

/-- A metadata unit that the rebuild needs can be read in neither copy (R328). -/
def metaUnreadable (u : MetaUnit) (s : State) : Bool := u.copies.all fun l => !locReadable s l

end Sys2Proof.Machine
end

