-- ==== Sys2Proof/Machine/Serve.lean ====
section
/-! DEFINITION. Serving reads: the end of a command, unrecoverable units, rebounds, the choice of R277 (R277–R291, R304). -/
namespace Sys2Proof.Machine
open Sys2Proof

/-! ### Locations (R215–R217, R221, R244) -/

/-- Units and LBAs of a zone of the namespace. -/
def zoneUnits (n : Ns) : Nat := 2 ^ n.zlog / 4096
def zoneLbas (n : Ns) : Nat := zoneUnits n * lbasPerUnit n

/-- A zone descriptor: one that is not listed is Empty, or Read Only at the end of life (R210). -/
def zoneGet (s : State) (zi : Nat) : Zone :=
  match SMap.find s.zne.zones zi with
  | some z => z
  | none => if fone s Fld.ZNE_EOL_READ_ONLY then { Zone.fresh with st := 13 } else Zone.fresh

/-- A stripe's key taken apart: group, stripe block, row, half. -/
def keyParts (k : Nat) : Nat × Nat × Nat × Nat := (k / 68719476736, k / 65536 % 1048576, k / 2 % 32768, k % 2)

/-- The location of data member `i` of a written stripe. -/
def memberLoc (s : State) (g b row half i : Nat) : Loc :=
  .flash (dieOf g ((stripeLayout s g b row half).1.getD i 0)) b (row / 4) (row % 4)

/-- The stripe, and data member in it, of a unit of an extent (R244). -/
def extStripe (s : State) (e : Ext) (off : Nat) : Nat × Nat × Nat × Nat :=
  let d := off - e.off + e.skip
  let (h, o, row) := rowAt s e.group e.set e.mode (d / e.dm)
  (e.block + o, row, h, d % e.dm)

/-- Where a unit of a zone lies; units above the write pointer, pad and unstaged units read zeros (R215, R217). -/
def zoneLoc (s : State) (z : Zone) (off : Nat) : Loc :=
  if z.void then .zero
  else
    match z.runs.find? fun r => decide (r.off ≤ off ∧ off < r.off + r.len) with
    | some r =>
      if r.loc1 then
        let (g, b, row, h) := keyParts r.at_
        memberLoc s g b row h (r.member + (off - r.off))
      else
        match r.slots[off - r.off]? with
        | some k => .dram k
        | none => .zero
    | none =>
      match z.exts.find? fun e => decide (e.off ≤ off ∧ off < e.off + e.len) with
      | some e =>
        if e.pad then .zero
        else
          let (b, row, h, i) := extStripe s e off
          memberLoc s e.group b row h i
      | none => .zero

/-- Where a unit of a namespace lies (R215, R223). -/
def unitLoc (s : State) (n : Ns) (unit : Nat) : Loc :=
  if n.zoned then zoneLoc s (zoneGet s (n.base + unit / zoneUnits n)) (unit % zoneUnits n)
  else
    match SMap.find s.zne.conv (n.base + unit) with
    | some e => e.loc
    | none => .zero

/-- A unit of a namespace lies at a location now. -/
def unitHere (s : State) (nsid unit : Nat) (l : Loc) : Bool :=
  match SMap.find s.zne.ns nsid with
  | some n => unitLoc s n unit == l
  | none => false

/-! ### Command contexts -/

def ctxKey (port qid cid : Nat) : Nat := port * 4294967296 + qid * 65536 + cid

/-- Unit `u` of context `x`. -/
def ctxUnit (s : State) (x u : Nat) : Option (Ctx × CUnit) :=
  match SMap.find s.hst.ctx x with
  | some c =>
    match c.units[u]? with
    | some k => some (c, k)
    | none => none
  | none => none

/-- Changes a context. -/
def ctxUpd (s : State) (x : Nat) (f : Ctx → Ctx) : State :=
  { s with hst := { s.hst with ctx := SMap.upd s.hst.ctx x f } }

/-- A unit of a read has ended: its data is plain, or it is lost. -/
def unitEnded (st : CuSt) : Bool := st == .plain || st == .lost

/-- Puts the state of unit `u` of context `x`; a unit that ends after the command's deadline is late (R289). -/
def unitSt (s : State) (x u : Nat) (st : CuSt) : State :=
  let t := now s
  ctxUpd s x fun c => { c with units := c.units.modify u fun k =>
    { k with st := st, late := k.late || (unitEnded st && decide (c.deadline < t)) } }

def ctxOpen (c : Ctx) : Bool := match c.st with | .ready _ _ _ => false | _ => true

/-- A command ends with a status: its completion waits to be posted. The first end stands. -/
def ctxEnd (s : State) (x st dw0 dw1 : Nat) : State :=
  ctxUpd s x fun c => if ctxOpen c then { c with st := .ready st dw0 dw1 } else c

/-- An entry of the port's Error Information log, newest first, at most 64 (R80). -/
def errLog (s : State) (port : Nat) (e : ErrEntry) : State :=
  { s with hst := { s.hst with ports := SMap.upd s.hst.ports port fun p =>
    { p with errs := (e :: p.errs).take 64, errCnt := p.errCnt + 1 } } }

/-- A command ends with an error whose log entry names an LBA. -/
def ctxFail (s : State) (x st lba : Nat) : State :=
  match SMap.find s.hst.ctx x with
  | some c =>
    if ctxOpen c then
      errLog (ctxEnd s x st 0 0) c.port { sqid := c.qid, cid := c.cid, status := st, lba := lba, nsid := c.nsid }
    else s
  | none => s

/-- Puts the state of a unit of a context, or of a background read. -/
def readSt (s : State) (x u : Nat) (st : CuSt) : State :=
  if x < bgBase then unitSt s x u st
  else { s with dsc := { s.dsc with bg := SMap.upd s.dsc.bg (x - bgBase) fun r => { r with st := st } } }

/-- What a background read asks of the scheduler, as a context. -/
def bgCtx (r : BgRead) : Ctx :=
  { port := 0, qid := 0, cid := 0, opcode := 2, slice := some r.slice, surplus := false, st := .running, arrived := 0, lat := r.cls,
    deadline := r.deadline, range := none, units := [], nsid := r.nsid, inst := 0, aer := false, out := [] }

/-- Who reads: a unit of a context, or a background read; its state, where the unit lies, and its index. -/
def readerOf (s : State) (x u : Nat) : Option (Ctx × CuSt × Loc × Nat) :=
  if x < bgBase then (ctxUnit s x u).map fun e => (e.1, e.2.st, e.2.loc, e.2.unit)
  else (SMap.find s.dsc.bg (x - bgBase)).map fun r => (bgCtx r, r.st, Loc.flash r.die r.block r.page r.pos, r.unit)

/-- Unrecovered Read Error (SCT 2, SC 81h). -/
def SC_UNRECOVERED : Nat := 0x281

/-- A read whose units are all plain or lost ends (R51, R304): the first lost unit's LBA is logged. -/
def readDone (s : State) (x : Nat) : State :=
  match SMap.find s.hst.ctx x with
  | some c =>
    if c.opcode = 2 ∧ c.units.all fun k => k.st == .plain || k.st == .lost then
      match c.units.find? fun k => k.st == .lost with
      | some k => ctxFail s x SC_UNRECOVERED k.lba
      | none => ctxEnd s x 0 0 0
    else s
  | none => s

/-- The unit number under which a lost unit is marked. -/
def lostKey (nsid unit : Nat) : Nat := nsid * 2 ^ 50 + unit

/-- A unit is marked lost in the map, with its event and record (R304). One that has been written anew, or reset, since its read resolved
location `l` is not (R307). -/
def lostMark (s : State) (nsid unit : Nat) (l : Loc) (die b lba : Nat) : State :=
  if s.med.lost.contains (lostKey nsid unit) || !unitHere s nsid unit l then s
  else
    let s := { s with med := { s.med with lost := s.med.lost ++ [lostKey nsid unit] } }
    post (fon s Fld.LDC_MED_EVENTS_UNIT_LOST) 7 1 true die b nsid (lba % 4294967296)

/-- Reads of a segment of the self-test are outstanding. -/
def testing (s : State) (seg : Nat) : Bool := s.dsc.bg.any fun e => e.2.test == seg

/-- Segment 7 begins once the reads of segment 6 have ended: the deadlines of its reads count from then (R155, R266). -/
def segmentBegin (s : State) : State :=
  let t := opDeadline s 3
  { s with dsc := { s.dsc with bg := SMap.mapv s.dsc.bg fun _ r => if r.test = 7 then { r with deadline := t } else r } }

/-- A read of segment 7 waits while one of segment 6 is outstanding. -/
def testWaits (s : State) (x : Nat) : Bool :=
  decide (bgBase ≤ x) && (match SMap.find s.dsc.bg (x - bgBase) with | some r => r.test == 7 && testing s 6 | none => false)

/-- The slots that wait for a background read take what `f` makes of them, and the read ends; a late one counts (R289, R306). -/
def bgEnd (s : State) (id : Nat) (f : BgRead → Member) : State :=
  match SMap.find s.dsc.bg id with
  | some r =>
    let stripes := SMap.mapv s.plc.stripes fun _ st => { st with members := st.members.map fun m => if m = .fetch id then f r else m }
    let s := { s with dsc := { s.dsc with bg := SMap.del s.dsc.bg id }, plc := { s.plc with stripes := stripes } }
    let s := if r.deadline < now s then finc s (Fld.DSC_MISS_COUNT r.cls) else s
    if r.test = 6 ∧ !testing s 6 then segmentBegin s else s
  | none => s

/-- A background read has its unit's information bytes. -/
def bgDone (s : State) (id info : Nat) : State := bgEnd s id fun r => .copy info (.flash r.die r.block r.page r.pos)

/-- A unit that a self-test read cannot be had: its segment fails (R155). -/
def testFail (s : State) (r : BgRead) : State :=
  let lp := match SMap.find s.zne.ns r.nsid with | some n => lbasPerUnit n | none => 1
  if r.test = 0 then s
  else { s with hst := { s.hst with dst := { s.hst.dst with fails := s.hst.dst.fails ++ [(r.test, r.nsid, r.unit * lp)] } } }

/-- The unit of a background read is unrecoverable: nothing is copied (R304, R307). -/
def bgLost (s : State) (id : Nat) : State :=
  match SMap.find s.dsc.bg id with
  | some r =>
    let lp := match SMap.find s.zne.ns r.nsid with | some n => lbasPerUnit n | none => 1
    let s := lostMark s r.nsid r.unit (.flash r.die r.block r.page r.pos) r.die r.block (r.unit * lp)
    bgEnd (testFail s r) id fun _ => .pad
  | none => s

/-- A unit is unrecoverable (R304). -/
def unitLost (s : State) (x u die b : Nat) : State :=
  if x < bgBase then
    match ctxUnit s x u with
    | some (c, k) => readDone (unitSt (lostMark s c.nsid k.unit k.loc die b k.lba) x u .lost) x
    | none => s
  else bgLost s (x - bgBase)

/-! ### Decoders (R259, R302) -/

/-- Codewords that have arrived and wait for decoder `k`, 0 or 1, of a channel. -/
def codewordsAt (s : State) (ch k : Nat) : Nat :=
  let at_ := fun (l : Loc) => match l with | .flash die _ _ _ => die / 32 == ch | _ => false
  s.hst.ctx.foldl (fun n e => if ctxOpen e.2 then n + e.2.units.countP (fun u => u.st == .arrived && u.dec == k && at_ u.loc) else n) 0 +
  SMap.cnt s.dsc.bg (fun _ r => r.st == .arrived && r.dec == k && r.die / 32 == ch) +
  s.dsc.rebounds.foldl (fun n e => n + e.2.arrived.countP fun d => d / 32 == ch && SMap.getD e.2.decs d 0 == k) 0

/-- The decoder of a channel that holds fewer queued codewords (R259); a carded one takes none (R88). -/
def decoderFor (s : State) (ch : Nat) : Nat :=
  if carded s (midLdc (2 * ch)) then 1
  else if carded s (midLdc (2 * ch + 1)) then 0
  else if codewordsAt s ch 1 < codewordsAt s ch 0 then 1 else 0

/-- Puts the decoder of a unit of a context, or of a background read. -/
def readDec (s : State) (x u dec : Nat) : State :=
  if x < bgBase then ctxUpd s x fun c => { c with units := c.units.modify u fun k => { k with dec := dec } }
  else { s with dsc := { s.dsc with bg := SMap.upd s.dsc.bg (x - bgBase) fun r => { r with dec := dec } } }

/-! ### Rebounds (R281–R288) -/

/-- The mode a stripe block is written in. -/
def sbMode (s : State) (g b : Nat) : Nat :=
  match SMap.find s.med.inUse (sbKey g b) with
  | some u => u.mode
  | none => 2

/-- A read operation for a unit. -/
def readOp (s : State) (x u : Nat) (c : Ctx) (die b page unit : Nat) : DOp :=
  let g := groupOf die
  { id := s.dsc.nextId, kind := 0, owner := c.slice, iso := (match c.slice with | some n => isoAcct s n | none => false),
    mode := sbMode s g b, block := srcPhys s die b page, page := page, unit := unit, deadline := c.deadline,
    cls := c.lat, flush := false, staged := false, urgent := false, host := some (x, u), rebound := none, call := none,
    started := 0, ran := 0, susp := 0, suspNs := 0 }

/-- A die holds a suspended erase of the block. -/
def suspErase (s : State) (die block : Nat) : Bool :=
  match SMap.find s.dsc.susp die with
  | some (l, _) => l.any fun o => o.kind == 2 && o.block == block
  | none => false

/-- A rebound is possible (R281), the enable of optional ones aside. -/
def mateOk (s : State) (d b : Nat) : Bool := !dieGone s d && !suspErase s d (physOf s (groupOf d) b (memberOf d))

def reboundOk (s : State) (die b page unit : Nat) : Bool :=
  let mates := stripeMates s die b page unit
  !mates.isEmpty && mates.all fun d => mateOk s d b

/-- Starts the member reads of a rebound (R282); `calls` are the granted slots of a group call, in order. -/
def reboundGo (s : State) (x u : Nat) (c : Ctx) (die b page unit : Nat) (mandatory : Bool) (calls : List Nat) : State :=
  let mates := stripeMates s die b page unit
  let id := s.dsc.nextId
  let r : Rebound := { host := (x, u), die := die, block := b, page := page, unit := unit, mode := sbMode s (groupOf die) b,
                       owner := c.slice, cls := c.lat, deadline := c.deadline, mandatory := mandatory, waiting := mates,
                       arrived := [], acc := 0, failed := false }
  let s := { s with dsc := { s.dsc with rebounds := SMap.put s.dsc.rebounds id r, nextId := id + 1 } }
  let s := fadd s (Fld.DSC_COUNT_COUNT 5) mates.length
  let s := { s with hst := { s.hst with diag := { s.hst.diag with rebound := s.hst.diag.rebound + 1 } } }
  let s := readSt s x u (.rebound id)
  (mates.zip (List.range mates.length)).foldl (fun s e =>
    let o := readOp s x u c e.1 b page unit
    enqueue s e.1 { o with rebound := some id, call := calls[e.2]? }) s

/-- A mandatory rebound (R284): LOST counts in DSC_COUNT_2, UNCORRECTABLE in 3, SEQ_MISMATCH in 4. It spends tokens down to 0.
When it cannot run the unit is unrecoverable (R304). -/
def reboundMust (s : State) (x u : Nat) (k : Nat) : State :=
  match readerOf s x u with
  | some (c, _, loc, _) =>
    match loc with
    | .flash die b page unit =>
      let s := finc s (Fld.DSC_COUNT_COUNT k)
      if reboundOk s die b page unit then
        let n := (stripeMates s die b page unit).length
        let s := match c.slice with
          | some sl =>
            if isoAcct s sl then { s with dsc := { s.dsc with isoTok := SMap.put s.dsc.isoTok sl (SMap.getD s.dsc.isoTok sl 0 - n) } }
            else fset { s with dsc := { s.dsc with tokens := s.dsc.tokens - n } } Fld.DSC_RB_TOKENS_TOKENS (s.dsc.tokens - n)
          | none => s
        reboundGo s x u c die b page unit true []
      else unitLost s x u die b
    | _ => s
  | none => s

/-- Tries an optional rebound (R283, R285): the tokens, then the group call. -/
def reboundTry (s : State) (x u : Nat) (c : Ctx) (die b page unit : Nat) : Bool × State :=
  let mates := stripeMates s die b page unit
  let n := mates.length
  let sl := match c.slice with | some k => k | none => 1024
  let iso := isoAcct s sl
  let have_ := if iso then SMap.getD s.dsc.isoTok sl 0 else s.dsc.tokens
  if have_ < n then (false, finc s (Fld.DSC_COUNT_COUNT 6))
  else
    match groupCall s (mates.map fun d => mkCall s false d (sbMode s (groupOf die) b) 0 1 1 c.lat c.deadline [sl]) with
    | (some slots, s') =>
      let s' := if iso then { s' with dsc := { s'.dsc with isoTok := SMap.put s'.dsc.isoTok sl (have_ - n) } }
        else fset { s' with dsc := { s'.dsc with tokens := have_ - n } } Fld.DSC_RB_TOKENS_TOKENS (have_ - n)
      (true, reboundGo (finc s' (Fld.DSC_COUNT_COUNT 1)) x u c die b page unit false slots)
    | (none, s') => (false, finc s' (Fld.DSC_COUNT_COUNT 7))

/-- Queues the direct read of a unit (R277). -/
def serveDirect (s : State) (x u : Nat) (c : Ctx) (die b page unit : Nat) : State :=
  let o := readOp s x u c die b page unit
  readSt (enqueue s die o) x u (.queued o.id)

/-- Asks for a suspend of the die's running operation (R278); one request serves every reader. -/
def askSuspend (s : State) (die : Nat) : State :=
  if s.dsc.asked.contains die || (SMap.find s.dsc.susp die).isSome then s
  else { s with dsc := { s.dsc with asked := s.dsc.asked ++ [die] } }

def serveSuspend (s : State) (x u : Nat) (c : Ctx) (die b page unit : Nat) : State :=
  askSuspend (serveDirect s x u c die b page unit) die

/-- Predicted completion of a rebound for a read: the latest of its member reads, XOR_US and, for a host read, PATH_US (R275, R282). -/
def predictRebound (s : State) (r : DOp) (c : Ctx) (die b page unit : Nat) : Nat :=
  (stripeMates s die b page unit).foldl (fun n d => max n (predictDirect s d (readOp s bgBase 0 c d b page unit))) 0 +
    fget s Fld.DSC_PATH_XOR_US * 1000 + pathNs s r

/-- A suspend of the die's running program or erase is refused to a read of a class that may ask for one (R278, R294). -/
def suspRefused (s : State) (lat die : Nat) (r : DOp) : Bool :=
  suspClass s lat && (match runOf s die with | o :: _ => o.kind != 0 | [] => false) && !suspendable s die r

/-- The choice of R277 between direct service, a suspend and a rebound. -/
def serveChoice (s : State) (x u : Nat) (c : Ctx) (die b page unit : Nat) : State :=
  let r := readOp s x u c die b page unit
  let m := fget s Fld.DSC_RB_CTRL_MARGIN_US * 1000
  let td := predictDirect s die r
  if td + m ≤ r.deadline then serveDirect s x u c die b page unit
  else
    let susp := suspClass s c.lat && suspendable s die r
    let s := if suspRefused s c.lat die r then finc s (Fld.DSC_COUNT_COUNT 9) else s
    let reb := fbit s Fld.DSC_PATH_RB_CLASSES c.lat && fone s Fld.DSC_CTRL_REBOUND_EN && !pfail s &&
      reboundOk s die b page unit
    let ts := predictSuspend s die r
    let tr := predictRebound s r c die b page unit
    let lesser := fun (s : State) =>
      if susp ∧ ts < td then serveSuspend s x u c die b page unit else serveDirect s x u c die b page unit
    if susp ∧ ts + m ≤ r.deadline then serveSuspend s x u c die b page unit
    else if reb ∧ (tr + m ≤ r.deadline ∨ tr < td ∧ (!susp ∨ tr < ts)) then
      match reboundTry s x u c die b page unit with
      | (true, s') => s'
      | (false, s') => lesser s'
    else lesser s

/-- A unit that is marked lost is read again: it ends in the same way (R304). -/
def readLost (s : State) (x u : Nat) : State := if x < bgBase then readDone (unitSt s x u .lost) x else bgLost s (x - bgBase)

/-- The scheduler serves a unit that waits, of a command or of background work (R277, R284). -/
def serveRead (s : State) (x u : Nat) : State :=
  match readerOf s x u with
  | some (c, st, loc, un) =>
    match st, loc with
    | .waiting, .flash die b page unit =>
      if s.med.lost.contains (lostKey c.nsid un) then readLost s x u
      else if !fone s Fld.DSC_CTRL_EN || testWaits s x then s
      else if dieGone s die then reboundMust s x u 2
      else if !queueRoom s die then s
      else serveChoice s x u c die b page unit
    | .waiting, .zero => readDone (unitSt s x u .plain) x
    | _, _ => s
  | none => s

/-- The DSC block chooses how a read is served (R277). -/
def execReadServeChoice (x u : Nat) (s : State) : Out := .next (serveRead s x u)

/-- Removes queued operations that satisfy `p`, or that wait for an entry; their calls are returned (R291, R426). -/
def dropQueued (s : State) (p : DOp → Bool) : State :=
  let s := s.dsc.parked.foldl (fun s e => parkPut s e.1 (e.2.filter fun o => !p o)) s
  unpark <| s.dsc.queues.foldl (fun s e =>
    let out := e.2.filter p
    if out.isEmpty then s
    else
      let s := out.foldl (fun s o => match o.call with | some n => callRefund s n | none => s) s
      queuePut s e.1 (e.2.filter fun o => !p o)) s

/-- An optional rebound is abandoned: the direct read is queued (R288); a mandatory one leaves the unit unrecoverable
(R284). -/
def reboundFail (s : State) (id : Nat) : State :=
  match SMap.find s.dsc.rebounds id with
  | some r =>
    let s := dropQueued s fun o => o.rebound == some id
    let s := { s with dsc := { s.dsc with rebounds := SMap.del s.dsc.rebounds id } }
    if r.mandatory then unitLost s r.host.1 r.host.2 r.die r.block
    else
      match readerOf s r.host.1 r.host.2 with
      | some (c, _, _, _) =>
        if dieGone s r.die then reboundMust s r.host.1 r.host.2 2
        else
          let o := readOp s r.host.1 r.host.2 c r.die r.block r.page r.unit
          let s := serveDirect s r.host.1 r.host.2 c r.die r.block r.page r.unit
          if suspRefused s c.lat r.die o then finc s (Fld.DSC_COUNT_COUNT 9)
          else if suspClass s c.lat && suspendable s r.die o then askSuspend s r.die else s
      | none => s
  | none => s

/-- The header check of R303 for a unit of a namespace. -/
def headerFor (s : State) (nsid unit info : Nat) : Bool :=
  infoCrcOk info && infoLaddr info == laddrOf s nsid unit &&
  (match SMap.find s.zne.ns nsid with | some n => infoSlice info == n.slice | none => false)

/-- A codeword is decoded for a unit of a context: whether its header is the one sought. -/
def headerOk (s : State) (c : Ctx) (k : CUnit) (info : Nat) : Bool := headerFor s c.nsid k.unit info

/-- The conventional map entry of a unit. -/
def convOf (s : State) (nsid unit : Nat) : Option ConvEnt :=
  match SMap.find s.zne.ns nsid with
  | some n => if n.zoned then none else SMap.find s.zne.conv (n.base + unit)
  | none => none

/-- The unit's sequence number agrees with the SEQ_CHK of the entry that the read resolved (R223, R303). -/
def seqOk (k : CUnit) (info : Nat) : Bool :=
  match k.chk with
  | some q => infoSeq info % 16384 == q
  | none => true

/-- The unit's ciphertext is in the slab. -/
def unitDecoded (s : State) (x u : Nat) (c : Ctx) (info : Nat) : State :=
  let n := match SMap.find s.zne.ns c.nsid with | some n => lbasPerUnit n | none => 1
  ctxUpd s x fun c => { c with units := c.units.modify u fun k =>
    { k with st := .decoded, blocks := blocksOf n (infoPayload info) } }

/-- The header that a background read seeks: its unit's, with the sequence number of the map entry of a conventional unit (R303, R306). -/
def bgHeaderOk (s : State) (x : BgRead) (info : Nat) : Bool :=
  headerFor s x.nsid x.unit info && (match x.chk with | some q => infoSeq info % 16384 == q | none => true)

/-- The header of a conventional unit disagrees in a rebound as well: the read ends without the unit, with its event and record (R223). -/
def seqBad (s : State) (die b nsid lba : Nat) : State :=
  post (fon s Fld.CMP_EVENTS_SEQ_MISMATCH) 4 1 true die b nsid (lba % 4294967296)

/-- A rebound for a background read is combined; a header that names another unit leaves the unit unrecoverable, or for a
conventional unit ends the read as R223 does (R303, R306). -/
def bgCombine (s : State) (id : Nat) (r : Rebound) : State :=
  let k := r.host.1 - bgBase
  let gone := { s with dsc := { s.dsc with rebounds := SMap.del s.dsc.rebounds id } }
  match SMap.find s.dsc.bg k with
  | some x =>
    if bgHeaderOk s x r.acc then bgDone gone k r.acc
    else if x.chk.isSome then
      let lp := match SMap.find s.zne.ns x.nsid with | some n => lbasPerUnit n | none => 1
      let s := fon (finc gone (Fld.LDC_COUNT_COUNT 5)) Fld.LDC_EVENTS_HEADER_MISMATCH
      bgEnd (testFail (seqBad s r.die r.block x.nsid (x.unit * lp)) x) k fun _ => .pad
    else reboundFail (fon (finc s (Fld.LDC_COUNT_COUNT 5)) Fld.LDC_EVENTS_HEADER_MISMATCH) id
  | none => { s with dsc := { s.dsc with rebounds := SMap.del s.dsc.rebounds id } }

/-- All members of a rebound are decoded: they are combined and the header is checked (R282, R223, R284, R303). -/
def reboundEnd (s : State) (id : Nat) : State :=
  match SMap.find s.dsc.rebounds id with
  | some r =>
    if !r.waiting.isEmpty || !r.arrived.isEmpty then s
    else if bgBase ≤ r.host.1 then bgCombine s id r
    else
      match ctxUnit s r.host.1 r.host.2 with
      | some (c, k) =>
        if headerOk s c k r.acc && seqOk k r.acc then
          let s := { s with dsc := { s.dsc with rebounds := SMap.del s.dsc.rebounds id } }
          unitDecoded s r.host.1 r.host.2 c r.acc
        else
          let s := fon (finc s (Fld.LDC_COUNT_COUNT 5)) Fld.LDC_EVENTS_HEADER_MISMATCH
          if (convOf s c.nsid k.unit).isSome then
            let s := { s with dsc := { s.dsc with rebounds := SMap.del s.dsc.rebounds id } }
            let s := seqBad s r.die r.block c.nsid k.lba
            readDone (unitSt s r.host.1 r.host.2 .lost) r.host.1
          else reboundFail s id
      | none => { s with dsc := { s.dsc with rebounds := SMap.del s.dsc.rebounds id } }
  | none => s

/-- A unit read directly is uncorrectable, or its header names another unit (R303): a mandatory rebound. -/
def decodeOne (s : State) (d : Decode) : Bool × State :=
  let s := finc s (Fld.LDC_COUNT_COUNT 0)
  match d with
  | .hard => (true, finc s (Fld.LDC_COUNT_COUNT 1))
  | .retry _ => (true, finc s (Fld.LDC_COUNT_COUNT 2))
  | .soft => (true, fon (finc s (Fld.LDC_COUNT_COUNT 3)) Fld.LDC_EVENTS_SOFT_USED)
  | .fail =>
    let s := if fone s Fld.LDC_CTRL_SOFT_EN then fon s Fld.LDC_EVENTS_SOFT_USED else s
    (false, fon (finc s (Fld.LDC_COUNT_COUNT 4)) Fld.LDC_EVENTS_UNCORRECTABLE)

/-- The outcome that the decoders can reach: no more retry steps than MAX_RETRY, no soft decode without SOFT_EN (R302). -/
def decodeCap (s : State) (d : Decode) : Decode :=
  match d with
  | .retry k => if k = 0 then .hard else if k ≤ fget s Fld.LDC_RETRY_CTRL_MAX_RETRY then d else .fail
  | .soft => if fone s Fld.LDC_CTRL_SOFT_EN then .soft else .fail
  | _ => d

/-- Counts of the diagnostics (R160). -/
def diagDecode (s : State) (d : Decode) : State :=
  let g := s.hst.diag
  let g := match d with
    | .hard => { g with ldpc := g.ldpc + 1 }
    | .retry k => { g with ldpc := g.ldpc + 1, retries := g.retries + k }
    | .soft => { g with soft := g.soft + 1, retries := g.retries + fget s Fld.LDC_RETRY_CTRL_MAX_RETRY }
    | .fail => { g with uncorr := g.uncorr + 1, soft := g.soft + fget s Fld.LDC_CTRL_SOFT_EN,
                        retries := g.retries + fget s Fld.LDC_RETRY_CTRL_MAX_RETRY }
  { s with hst := { s.hst with diag := g } }

/-- The planner's inputs of a decode (R566, R567): reads of wear buckets 6 and 7 and of data older than half the retention
interval, and the soft decodes among them. -/
def ageDecode (s : State) (die mode b page : Nat) (d : Decode) : State :=
  let k := die * 4 + mode
  let sf := b2n (d == .soft)
  let bk := bucketOf s die mode (srcPhys s die b page)
  let inc := fun (m : SMap Nat) (n : Nat) => if n = 0 then m else SMap.put m k (SMap.getD m k 0 + n)
  let a := s.age
  let a := if 6 ≤ bk then { a with reads := inc a.reads 1, soft := inc a.soft sf } else a
  let a := if bk = 7 then { a with seen7 := SMap.put a.seen7 k 1 } else a
  let old := decide (retOf s die mode * dayNs < 2 * dataAge s (groupOf die) b)
  let a := if old then { a with oldRd := inc a.oldRd 1, oldSf := inc a.oldSf sf } else a
  { s with age := a }

/-- A successful retry decode counts under its mode and the step it ended at (R565). -/
def retryHist (s : State) (die mode : Nat) (d : Decode) : State :=
  match d with
  | .retry _ =>
    let f := if mode = 0 then Fld.LDC_STEP_STEP_SLC die else if mode = 1 then Fld.LDC_STEP_STEP_TLC die else Fld.LDC_STEP_STEP_QLC die
    finc s (Fld.AGE_RHIST_COUNT mode (fget s f))
  | _ => s

/-- A success at a retry step makes its entry the die's current step for the mode (R302). -/
def stepMove (s : State) (die mode : Nat) (d : Decode) : State :=
  match d with
  | .retry k =>
    let f := if mode = 0 then Fld.LDC_STEP_STEP_SLC die else if mode = 1 then Fld.LDC_STEP_STEP_TLC die else Fld.LDC_STEP_STEP_QLC die
    fset s f ((fget s f + k) % 16)
  | _ => s

/-- The retry steps a decode took, for the die's estimate (R273, R302). -/
def stepsTaken (s : State) (d : Decode) : Nat :=
  match d with
  | .hard => 0
  | .retry k => k
  | .soft => fget s Fld.LDC_RETRY_CTRL_MAX_RETRY + 3
  | .fail => fget s Fld.LDC_RETRY_CTRL_MAX_RETRY + (if fone s Fld.LDC_CTRL_SOFT_EN then 3 else 0)

/-- A channel's codewords decode on its neighbour's decoders when both of its own are carded (the races of chapter 09). -/
def borrow (s : State) (die : Nat) : State :=
  let ch := die / 32
  if carded s (midLdc (2 * ch)) && carded s (midLdc (2 * ch + 1)) then fon s Fld.LDC_EVENTS_DECODER_BORROWED else s

end Sys2Proof.Machine
end

