-- ==== Sys2Proof/Machine/Zones.lean ====
section
/-! DEFINITION. The zone engine: locations, activation, reservation, abandonment, the management actions (R194–R219, R226). -/
namespace Sys2Proof.Machine
open Sys2Proof

/-! ### NVMe statuses: status code type × 256 + status code -/
def SC_INVALID_OPCODE : Nat := 0x001
def SC_INVALID_FIELD : Nat := 0x002
def SC_DATA_TRANSFER : Nat := 0x004
def SC_POWER_LOSS : Nat := 0x005
def SC_INTERNAL : Nat := 0x006
def SC_SQ_DELETED : Nat := 0x008
def SC_INVALID_NS : Nat := 0x00B
def SC_SGL_COUNT : Nat := 0x00E
def SC_SGL_LENGTH : Nat := 0x00F
def SC_SGL_TYPE : Nat := 0x011
def SC_WRITE_PROTECTED : Nat := 0x020
def SC_LBA_RANGE : Nat := 0x080
def SC_NOT_READY : Nat := 0x082
def SC_ZONE_BOUNDARY : Nat := 0x1B8
def SC_ZONE_FULL : Nat := 0x1B9
def SC_ZONE_RO : Nat := 0x1BA
def SC_ZONE_OFFLINE : Nat := 0x1BB
def SC_ZONE_WRITE : Nat := 0x1BC
def SC_MANY_ACTIVE : Nat := 0x1BD
def SC_MANY_OPEN : Nat := 0x1BE
def SC_ZONE_TRANSITION : Nat := 0x1BF
def SC_SLICE_CARDED : Nat := 0x780
def SC_CLASS_UNAVAILABLE : Nat := 0x781
def SC_ISO_EXHAUSTED : Nat := 0x782

/-! ### Zones of a namespace -/

/-- Zones of a namespace. -/
def zoneCount (n : Ns) : Nat := if n.zoned then n.cap / zoneUnits n else 0

def zOpen (z : Zone) : Bool := z.st == 2 || z.st == 3

/-- Ranges of a zone still in flight. -/
def inFlight (z : Zone) : Bool := z.ranges.any fun r => r.st == 0

/-- Run records of a set of zones. -/
def runCount (zs : SMap Zone) : Nat := zs.foldl (fun n e => n + e.2.runs.length) 0

/-- Active zones and open zones of a namespace, or of the drive. -/
def countZones (s : State) (n : Option Ns) (p : Zone → Bool) : Nat :=
  SMap.cnt s.zne.zones fun i z => p z && (match n with
    | some n => decide (n.base ≤ i ∧ i < n.base + zoneCount n)
    | none => true)

/-- The active-zone reservation (R199). -/
def activeReserved (s : State) : Nat := (s.zne.ns.filter fun e => e.2.zoned).foldl (fun n e => n + e.2.maxAct) 0

/-- Brings the counts of ZNE up to date. -/
def zneRefresh (s : State) : State :=
  let s := fset s Fld.ZNE_ACTIVE_COUNT (countZones s none zActive)
  let s := fset s Fld.ZNE_OPEN_COUNT (countZones s none zOpen)
  let s := fset s Fld.ZNE_ACTIVE_RESERVED_COUNT (activeReserved s)
  let free := fget s Fld.ZNE_STG_RECORDS_RECORDS - runCount s.zne.zones
  let pct := fun p => decide (free * 100 ≤ fget s Fld.ZNE_STG_RECORDS_RECORDS * p)
  let s := if pct (fget s Fld.ZNE_STG_WATER_HIGH_PCT) then fon s Fld.ZNE_EVENTS_STG_HIGH else s
  let s := if pct (fget s Fld.ZNE_STG_WATER_STOP_PCT) then fon s Fld.ZNE_EVENTS_STG_STOP else s
  fset s Fld.ZNE_STG_FREE_FREE free

def zonePut (s : State) (zi : Nat) (z : Zone) : State :=
  zneRefresh { s with zne := { s.zne with zones := SMap.put s.zne.zones zi z } }

/-- Free run records and all run records of the pool a slice draws on: its reserve, or the remainder (R219). -/
def recordPool (s : State) (iso : Option Nat) : Nat × Nat :=
  let mine := s.zne.zones.filter fun e => match nsOfZone s e.1 with | some (_, n) => decide (isoNs s n = iso) | none => iso.isNone
  let all := match iso with
    | some n => SMap.getD s.zne.recResv n 0
    | none => fget s Fld.ZNE_STG_RECORDS_RECORDS - s.zne.recResv.foldl (fun n e => n + e.2) 0
  (all - runCount mine, all)

/-- The pool has fallen to a percentage of its records (R218). -/
def recordsLow (s : State) (iso : Option Nat) (pct : Nat) : Bool :=
  let p := recordPool s iso
  decide (p.1 * 100 ≤ p.2 * pct)

/-! ### Releasing data -/

/-- Reads that have resolved to a staging slot take its ciphertext before the slot is released (R49, R50, R215). -/
def readersKeep (s : State) (slot : Nat) : State :=
  match SMap.find s.zne.stg slot with
  | some x =>
    let f := fun (k : CUnit) => if k.st = .waiting ∧ k.loc = .dram slot then { k with st := .decoded, blocks := x.blocks } else k
    { s with hst := { s.hst with ctx := SMap.mapv s.hst.ctx fun _ c => if c.opcode = 2 then { c with units := c.units.map f } else c } }
  | none => s

/-- A staging slot is released; its copy in the emergency blocks, if it has one, is needed no longer (R54, R326). -/
def dramSlotFree (s : State) (slot : Nat) : State :=
  let s := readersKeep s slot
  { s with zne := { s.zne with stg := SMap.del s.zne.stg slot }, med := { s.med with emg := s.med.emg.filter (· != slot) } }

/-- The open stripe that holds a staging slot's unit. -/
def slotStripe (s : State) (slot : Nat) : Option (Nat × Stripe) := s.plc.stripes.find? fun e => e.2.members.contains (.unit slot)

/-- A unit in a staging slot is not valid any more: its copy stays until its stripe has closed (R49). -/
def slotDrop (s : State) (slot : Nat) : State := if (slotStripe s slot).isSome then s else dramSlotFree s slot

/-- The unit of an abandoned range in a staging slot: its member becomes pad, unless its stripe has its parity (R205). -/
def slotPad (s : State) (slot : Nat) : State :=
  match slotStripe s slot with
  | some (n, st) =>
    if st.parity.isSome then s else setMember (dramSlotFree s slot) ⟨n, st.members.findIdx (· == .unit slot)⟩ .pad
  | none => dramSlotFree s slot

/-- A location no longer holds a valid unit. -/
def locDrop (s : State) (l : Loc) : State :=
  match l with
  | .zero => s
  | .dram k => slotDrop s k
  | .flash die b _ _ => unitDrop s (groupOf die) b

/-- Releases a zone's staged runs and extents (R213). -/
def zoneData (s : State) (z : Zone) : State :=
  let s := z.runs.foldl (fun s r =>
    if r.loc1 then
      let (g, b, _, _) := keyParts r.at_
      (List.range r.len).foldl (fun s _ => unitDrop s g b) s
    else r.slots.foldl slotDrop s) s
  z.exts.foldl (fun s e =>
    if e.pad then s
    else (List.range e.len).foldl (fun s i => unitDrop s e.group (extStripe s e (e.off + i)).1) s) s

/-- Nothing more is written to the stripe blocks of a plane set. -/
def setsDone (s : State) (x : Ext) : State :=
  (List.range x.set).foldl (fun s i =>
    sbClose s x.group (x.block + i)) s

/-- The plane sets of a zone's cursor are given up. -/
def cursorDone (s : State) (zi : Nat) : State :=
  match (zoneGet s zi).cursor with
  | some c =>
    let s := setsDone s c.ext
    match c.next with
    | some x => setsDone s x
    | none => s
  | none => s

/-- Discards the folds, copies and page stripes of a zone, with the staging copies that they hold (R213, R307). -/
def zoneWork (s : State) (zi : Nat) : State :=
  let s := cursorDone s zi
  let mine := s.plc.stripes.filter fun e => match e.2.zone with | some (z, _) => z == zi | none => false
  let stripes := s.plc.stripes.filter fun e => match e.2.zone with | some (z, _) => z != zi | none => true
  let folds := s.plc.folds.filter fun f => !(f.zoned && f.obj == zi)
  let s := { s with plc := { s.plc with stripes := stripes, folds := folds } }
  let slots := mine.flatMap fun e => e.2.members.filterMap fun m => match m with | .unit k => some k | _ => none
  mine.foldl (fun s e => sbClose s e.2.group e.2.block) (slots.foldl dramSlotFree s)

/-- The isolated slice that owns a zone. -/
def zoneIso (s : State) (zi : Nat) : Option Nat := match nsOfZone s zi with | some (_, n) => isoNs s n | none => none

/-- The record of a zone's state (R323 ZONE_ACTION); `holds` where it makes the zone's units invalid. -/
def journalZoneH (holds : List (Nat × Nat)) (s : State) (zi : Nat) (z : Zone) : State :=
  journalHold (zoneIso s zi) holds s 4 [zi, z.st, z.wp, z.zcap, z.cls, z.resets]

def journalZone (s : State) (zi : Nat) (z : Zone) : State := journalZoneH [] s zi z

/-- The stripe blocks that hold units of a zone (R325). -/
def zoneHolds (z : Zone) : List (Nat × Nat) :=
  let sets := fun (x : Ext) => (List.range x.set).map fun i => (x.group, x.block + i)
  ((z.runs.filter fun r => r.loc1).map fun r => ((keyParts r.at_).1, (keyParts r.at_).2.1)) ++
  (z.exts.filter fun x => !x.pad).flatMap sets ++ (match z.cursor with | some c => sets c.ext | none => [])

/-- A zone becomes Empty as by Reset (R213). -/
def zoneReset (s : State) (zi : Nat) : State :=
  let z := zoneGet s zi
  let s := zoneWork (zoneData s z) zi
  let z' : Zone := { Zone.fresh with resets := sat 16 (z.resets + 1), last := z.last }
  let lost := match nsOfZone s zi with
    | some (id, n) =>
      let lo := (zi - n.base) * zoneUnits n
      s.med.lost.filter fun k => !(decide (lostKey id lo ≤ k ∧ k < lostKey id (lo + zoneUnits n)))
    | none => s.med.lost
  holdTry (sweep (journalZoneH (zoneHolds z) (zonePut { s with med := { s.med with lost := lost } } zi z') zi z'))

/-- A zone becomes Full: WP at its end, the reservation released (R195). -/
def zoneFull (s : State) (zi : Nat) : State :=
  match nsOfZone s zi with
  | some (_, n) =>
    let z := zoneGet s zi
    let z := if z.st = 1 then { z with zcap := zoneUnits n, reduced := false } else z
    let z' := { z with st := 14, wp := zoneLbas n, resv := 0 }
    holdTry (journalZone (zonePut s zi z') zi z')
  | none => s

/-- A zone's state changes and nothing else moves (R195). -/
def zoneState (s : State) (zi st : Nat) : State :=
  let z' := { zoneGet s zi with st := st }
  journalZone (zonePut s zi z') zi z'

/-- A Read Only zone becomes Offline: its blocks are released (R195). -/
def zoneOffline (s : State) (zi : Nat) : State :=
  let z := zoneGet s zi
  let s := zoneWork (zoneData s z) zi
  let z' := { z with st := 15, runs := [], exts := [], cursor := none }
  sweep (journalZoneH (zoneHolds z) (zonePut s zi z') zi z')

/-! ### One unit of a zone -/

/-- Cuts the zone offsets `lo` to `hi − 1` out of a run in DRAM staging. -/
def cutRun (lo hi : Nat) (r : Run) : List Run :=
  if r.loc1 ∨ hi ≤ r.off ∨ r.off + r.len ≤ lo then [r]
  else
    let a := lo - r.off
    let b := min r.len (hi - r.off)
    (if a = 0 then [] else [{ r with len := a, slots := r.slots.take a }]) ++
    (if b = r.len then [] else [{ r with off := r.off + b, len := r.len - b, slots := r.slots.drop b }])

/-- Cuts one zone offset out of a run in an SLC stripe. -/
def cutLoc1 (off : Nat) (r : Run) : List Run :=
  if !r.loc1 || decide (off < r.off ∨ r.off + r.len ≤ off) then [r]
  else
    let a := off - r.off
    (if a = 0 then [] else [{ r with len := a }]) ++
    (if a + 1 = r.len then [] else [{ r with off := off + 1, len := r.len - a - 1, member := r.member + a + 1 }])

/-- Cuts one zone offset out of an extent. -/
def cutExt (off : Nat) (e : Ext) : List Ext :=
  if e.pad || decide (off < e.off ∨ e.off + e.len ≤ off) then [e]
  else
    let a := off - e.off
    (if a = 0 then [] else [{ e with len := a }]) ++
    (if a + 1 = e.len then [] else [{ e with off := off + 1, len := e.len - a - 1, skip := e.skip + a + 1 }])

/-- A zone without the unit at an offset: no run and no extent holds it any more. -/
def zoneCut (z : Zone) (off : Nat) : Zone :=
  { z with runs := (z.runs.flatMap (cutRun off (off + 1))).flatMap (cutLoc1 off), exts := z.exts.flatMap (cutExt off) }

/-! ### Ranges (R203–R206) -/

/-- Adjacent durable ranges become one. -/
def mergeRanges (rs : List ZRange) : List ZRange :=
  rs.foldr (fun a acc =>
    match acc with
    | b :: bs => if a.st = 1 ∧ b.st = 1 then { a with len := a.len + b.len } :: bs else a :: acc
    | [] => [a]) []

/-- Drops the abandoned ranges at the tail (R205). -/
def trimTail (rs : List ZRange) : List ZRange := (rs.reverse.dropWhile fun r => r.st == 2).reverse

/-- A Read Only zone at the end of life once no range remains in flight (R210 and the races of chapter 06). -/
def eolSettle (s : State) (zi : Nat) : State :=
  let z := zoneGet s zi
  if fone s Fld.ZNE_EOL_READ_ONLY && !inFlight z && z.st != 14 && z.st != 15 && z.st != 13 then
    zonePut s zi { z with st := 13 }
  else s

/-- A reserved range becomes durable (`st` 1) or abandoned (`st` 2) (R205, R206). -/
def rangeSettle (s : State) (zi start len st : Nat) : State :=
  let z := zoneGet s zi
  let rs := z.ranges.map fun r => if r.start = start ∧ r.len = len ∧ r.st = 0 then { r with st := st } else r
  let z' :=
    if z.st = 14 then { z with ranges := rs }
    else
      let rs' := trimTail rs
      let wp := match rs'.getLast? with
        | some r => r.start + r.len
        | none => 0
      let lp := match nsOfZone s zi with | some (_, n) => lbasPerUnit n | none => 1
      { z with ranges := rs', wp := wp, resv := if zActive z then z.zcap - (wp + lp - 1) / lp else z.resv }
  let z' := { z' with ranges := mergeRanges z'.ranges }
  let s := zonePut s zi z'
  let s := if st = 2 then
      journalFor (zoneIso s zi) s 5 [zi, start, len]
    else s
  eolSettle s zi

/-! ### Activation and opening (R196–R200, R208–R210, R239) -/

/-- Zones that draw on the surplus: those of namespaces with MAX_ACTIVE 0 (R199). -/
def surplusActive (s : State) : Nat :=
  SMap.cnt s.zne.zones fun i z => zActive z && (match nsOfZone s i with | some (_, n) => n.maxAct == 0 | none => false)

/-- One more zone of the namespace can be active: the device's limit, then the namespace's or the surplus (R196–R199). -/
def activeRoom (s : State) (n : Ns) : Bool :=
  decide (countZones s none zActive < 65536) &&
  if n.maxAct ≠ 0 then decide (countZones s (some n) zActive < n.maxAct)
  else decide (surplusActive s < 65536 - activeReserved s)

/-- One more zone of the namespace can be open: MAX_OPEN 0 stands for the active limit (R197). -/
def openRoom (s : State) (n : Ns) : Bool :=
  if n.maxOpen ≠ 0 then decide (countZones s (some n) zOpen < n.maxOpen)
  else if n.maxAct ≠ 0 then decide (countZones s (some n) zOpen < n.maxAct)
  else decide (countZones s none zOpen < 65536)

/-- The Implicitly Opened zone of the namespace with the oldest LAST_WRITE (R200). -/
def oldestImplicit (s : State) (n : Ns) : Option Nat :=
  (s.zne.zones.filter fun e => e.2.st == 2 && decide (n.base ≤ e.1 ∧ e.1 < n.base + zoneCount n)).foldl (fun best e =>
    match best with
    | none => some e.1
    | some b => if e.2.last < (zoneGet s b).last then some e.1 else some b) none

/-- k of R208 for a zone of the namespace. -/
def activationK (s : State) (n : Ns) : Nat :=
  let th := min 100 (fget s Fld.ZNE_ZRES_THRESH_PCT)
  let kSpare := if th = 0 then 16 else 8 + 8 * fget s Fld.LDC_MED_SPARE_AVAIL_PCT / th
  min 16 (min kSpare (16 * reservable s (isoNs s n) / zoneUnits n))

/-- The ZCAP an Empty zone reports, in units (R209). -/
def emptyZcap (s : State) (n : Ns) : Nat :=
  let k := activationK s n
  if k < 8 then 0 else zoneUnits n * k / 16

/-- Changes a port. -/
def portUpd (s : State) (p : Nat) (f : Port → Port) : State :=
  { s with hst := { s.hst with ports := SMap.upd s.hst.ports p f } }

/-- An asynchronous event raised on a port: it completes the oldest Asynchronous Event Request held, or waits for one (R173). -/
def raiseEvent (s : State) (p ev : Nat) : State :=
  match SMap.find s.hst.ports p with
  | some q =>
    match q.aers with
    | cid :: rest =>
      ctxUpd (ctxEnd (portUpd s p fun q => { q with aers := rest }) (ctxKey p 0 cid) 0 ev 0) (ctxKey p 0 cid) fun c => { c with aer := false }
    | [] => if q.events.contains ev then s else portUpd s p fun q => { q with events := q.events ++ [ev] }
  | none => s

/-- The SMART / Health critical warning event on every port that enables its bit (R210). -/
def smartEvent (s : State) (bitNo : Nat) : State :=
  s.hst.ports.foldl (fun s e => if e.2.feat.aec.testBit bitNo then raiseEvent s e.1 (0x020001 + bitNo * 256) else s) s

/-- Read-only end of life begins (R210). -/
def enterReadOnly (s : State) (k : Nat) : State :=
  if fone s Fld.ZNE_EOL_READ_ONLY then s
  else
    let s := post s 3 2 false k (reservable s none) 0 0
    let s := fon s Fld.ZNE_EOL_READ_ONLY
    let s := fon s Fld.ZNE_EVENTS_READ_ONLY_ENTERED
    let s := journal s 10 []
    let zones := SMap.mapv s.zne.zones fun _ z =>
      if z.st = 14 ∨ z.st = 15 ∨ inFlight z then z else { z with st := 13 }
    smartEvent (zneRefresh { s with zne := { s.zne with zones := zones } }) 3

/-- Data members of a stripe opened now in a group. -/
def dataMembers (s : State) (g : Nat) (par7 : Bool) (half : Nat) : Nat := (layoutOf par7 half 0 (goneMembers s g)).1.length

/-- Stripes of an extent's plane set. -/
def extRows (s : State) (x : Ext) : Nat := setRows s x.group x.set x.mode x.par7

/-- A new plane set for a zone, in the eligible group with the highest score: its extent, empty as yet (R246, R257, R300). -/
def directSet (s : State) (n : Ns) (cls off : Nat) : Option (Ext × State) :=
  let e := classOf s cls
  let mode := extMode e
  let iso := isoNs s n
  let wOf := fun g => if mode = 0 then 1 else setWidth s g
  match bestGroup s fun g => eligible s iso e.groups g && poolGives s false g (wOf g) && (pickBlock s g (wOf g) mode 0).isSome with
  | none => none
  | some g =>
    match pickBlock s g (wOf g) mode 0 with
    | none => none
    | some b =>
      let s := { s with plc := { s.plc with token := (s.plc.token + 1) % 128 } }
      let x : Ext := { off := off, len := 0, group := g, mode := mode, par7 := e.par7, pad := false, reloc := false, block := b,
                       set := wOf g, skip := 0, dm := max 1 (dataMembers s g e.par7 0) }
      some (x, takeSet s g b (wOf g) mode false e.par7 none)

/-- The cursor of a zone that is activated in a class of direct placement: its first plane set is prepared (R246). -/
def cursorOpen (s : State) (zi cls : Nat) (n : Ns) : State :=
  if (classOf s cls).mode = 0 then s
  else
    match directSet s n cls 0 with
    | some (x, s) => zonePut s zi { zoneGet s zi with cursor := some { ext := x, next := none } }
    | none => s

/-- Activates a zone with the given k and class (R208, R236, R246). -/
def zoneActivate (s : State) (zi k cls : Nat) : State :=
  match nsOfZone s zi with
  | some (_, n) =>
    let cap := zoneUnits n * k / 16
    let s := fset (fset s Fld.ZNE_EOL_LAST_K k) Fld.ZNE_EOL_REDUCED (b2n (decide (k < 16)))
    let s := if k < 16 then fon s Fld.ZNE_EVENTS_ZONE_REDUCED else s
    let s := zonePut s zi { zoneGet s zi with zcap := cap, reduced := decide (k < 16), cls := cls, resv := cap, left := false }
    cursorOpen s zi cls n
  | none => s

/-- The class is permitted for the slice (R236). -/
def classOk (s : State) (slice cls : Nat) : Bool :=
  (classOf s cls).valid && (match SMap.find s.slm.slices slice with | some c => c.mask.testBit cls | none => false)

/-- The slice's default class. -/
def dfltClass (s : State) (slice : Nat) : Nat :=
  match SMap.find s.slm.slices slice with | some c => c.dflt | none => 0

/-- Steps 5 to 7 of R202 for a zone to be activated or opened in class `cls` and state `st`: a status, or 0 with the zone
opened. ISO_EXHAUSTED is not set here: R263 names a request (DESIGN CHOICE, notes/assumptions/85.md). -/
def zoneOpenFor (s : State) (zi st cls : Nat) (n : Ns) : Nat × State :=
  let z := zoneGet s zi
  let empty := z.st == 1
  let k := if empty then activationK s n else 16
  if empty && !activeRoom s n then (SC_MANY_ACTIVE, s)
  else if empty && k < 8 then
    (if (isoNs s n).isSome then (SC_ISO_EXHAUSTED, s) else (SC_ZONE_RO, enterReadOnly s k))
  else
    let victim := if zOpen z || openRoom s n then some none
      else if st = 2 then (oldestImplicit s n).map some else none
    match victim with
    | none => (SC_MANY_OPEN, s)
    | some v =>
      if !classOk s n.slice (if empty then cls else z.cls) then (SC_CLASS_UNAVAILABLE, s)
      else
        let s := match v with
          | some old => zoneState s old 4
          | none => s
        let s := if empty then zoneActivate s zi k cls else s
        let st' := if st = 2 && z.st == 3 then 3 else st
        let z' := { zoneGet s zi with st := st' }
        (0, if st' = z.st then zonePut s zi z' else journalZone (zonePut s zi z') zi z')

/-- The checks of R202 on a write or append of `len` LBAs at `slba`, and the reservation of R203: a status, or 0 with the
reserved start, in LBAs from the zone's start. -/
def zoneReserve (s : State) (n : Ns) (append : Bool) (slba len cls : Nat) : Nat × Nat × State :=
  let lp := lbasPerUnit n
  if n.cap * lp < slba + len then (SC_LBA_RANGE, 0, s)
  else
    let zi := n.base + slba / zoneLbas n
    let z := zoneGet s zi
    let off := slba % zoneLbas n
    if z.st = 14 then (SC_ZONE_FULL, 0, s)
    else if z.st = 15 then (SC_ZONE_OFFLINE, 0, s)
    else if z.st = 13 ∨ fone s Fld.ZNE_EOL_READ_ONLY then (SC_ZONE_RO, 0, s)
    else if !append ∧ off ≠ z.wp then (SC_ZONE_WRITE, 0, s)
    else if append ∧ off ≠ 0 then (SC_INVALID_FIELD, 0, s)
    else if zoneLbas n < z.wp + len ∨ (z.st ≠ 1 ∧ z.zcap * lp < z.wp + len) then (SC_ZONE_BOUNDARY, 0, s)
    else if z.st = 1 ∧ 8 ≤ activationK s n ∧ zoneUnits n * activationK s n / 16 * lp < z.wp + len then
      (SC_ZONE_BOUNDARY, 0, s)
    else
      let r := zoneOpenFor s zi 2 cls n
      if r.1 ≠ 0 then (r.1, 0, r.2)
      else
        let s := r.2
        let z := zoneGet s zi
        let wp := z.wp + len
        let rs := z.ranges ++ [{ start := z.wp, len := len, st := 0 }]
        let full := decide (z.zcap * lp ≤ wp)
        let z' := { z with wp := wp, ranges := rs, last := now s, st := if full then 14 else z.st,
                           resv := if full then 0 else z.zcap - (wp + lp - 1) / lp }
        let s := zonePut s zi z'
        (0, z.wp, if full then journalZone s zi z' else s)

/-! ### Management actions (R195, R211, R212) -/

/-- What R195 gives an action (Zone Send Action code) in a zone's state: none where the table lists nothing; whether the
zone changes. -/
def actionRule (act st : Nat) : Option Bool :=
  match act, st with
  | 1, 1 => some false
  | 1, 2 => some true
  | 1, 3 => some true
  | 1, 4 => some false
  | 2, 1 => some true
  | 2, 2 => some true
  | 2, 3 => some true
  | 2, 4 => some true
  | 2, 14 => some false
  | 3, 1 => some true
  | 3, 2 => some true
  | 3, 3 => some false
  | 3, 4 => some true
  | 4, 1 => some false
  | 4, 2 => some true
  | 4, 3 => some true
  | 4, 4 => some true
  | 4, 14 => some true
  | 5, 13 => some true
  | _, _ => none

/-- The scope of an action with Select All (R211). -/
def selectAll (act st : Nat) : Bool :=
  if act = 1 then st == 2 || st == 3
  else if act = 2 then st == 2 || st == 3 || st == 4
  else if act = 3 then st == 4
  else if act = 4 then st == 2 || st == 3 || st == 4 || st == 14
  else st == 13

/-- The action acts on a zone (R195, R213). -/
def actionDo (s : State) (act zi : Nat) : State :=
  if act = 1 then zoneState s zi 4
  else if act = 2 then zoneFull s zi
  else if act = 4 then zoneReset s zi
  else if act = 5 then zoneOffline s zi
  else s

end Sys2Proof.Machine
end

