-- ==== Sys2Proof/Machine/Loss.lean ====
section
/-! DEFINITION. Copies, block retirement, abandoned stripes, the loss of dies and channels (R304–R320). -/
namespace Sys2Proof.Machine
open Sys2Proof

/-! ### Copies (R306, R308) -/

/-- Prepares stripes of a stream until it has `k` free slots, at most `n` times. -/
def prepareFor (s : State) (key k : Nat) : Nat → State
  | 0 => s
  | n + 1 => if k ≤ streamFree s key then s else prepareFor (prepare s key) key k n

/-- The namespace of a unit header, its identifier and the unit's index (R296). -/
def infoOwner (s : State) (info : Nat) : Option (Nat × Ns × Nat) :=
  let id := infoLaddr info / 2 ^ 49
  match SMap.find s.zne.ns id with
  | some n => some (id, n, infoLaddr info % 2 ^ 49 / lbasPerUnit n)
  | none => none

/-- The class of the data at a location of a conventional namespace: that of the stream its stripe block was written for, or the
slice's default class (R257). -/
def locClass (s : State) (n : Ns) (l : Loc) : Nat :=
  match l with
  | .flash die b _ _ =>
    match SMap.find s.med.inUse (sbKey (groupOf die) b) with
    | some x => (match x.key with | some k => keyClass k | none => dfltClass s n.slice)
    | none => dfltClass s n.slice
  | _ => dfltClass s n.slice

/-- The class in which a unit's copy is placed: its zone's, or that of the data. -/
def copyClass (s : State) (n : Ns) (unit : Nat) (l : Loc) : Nat :=
  if n.zoned then (zoneGet s (n.base + unit / zoneUnits n)).cls else locClass s n l

/-- A location lies in an SLC staging block. -/
def locStaged (s : State) (l : Loc) : Bool :=
  match l with
  | .flash die b _ _ => (match SMap.find s.med.inUse (sbKey (groupOf die) b) with | some u => u.staging | none => false)
  | _ => false

/-- The stream that takes a unit's copy: stream 0 of its class. Data of a STAGED class goes in FOLD_MODE, but for a staged unit of a zone,
which stays a run in an SLC stripe, as one of a zone that has left direct placement does (R216, R305, R308). -/
def copyKey (s : State) (n : Ns) (unit : Nat) (l : Loc) : Nat :=
  let c := copyClass s n unit l
  let run := n.zoned && locStaged s l
  streamKey s n.slice c 0 (if (classOf s c).mode = 0 then (if run then 0 else 1) else if run then 2 else 0)

/-- A stripe holds data of background work of a class, which began at the time given, or begins now (R257, R266). -/
def stripeWork (s : State) (n cls since : Nat) : State :=
  { s with plc := { s.plc with stripes := SMap.upd s.plc.stripes n fun st =>
    if cls < st.work ∨ st.begun = none then { st with work := cls, begun := some since } else st } }

/-- Puts a copied unit's slot. -/
def copyPut (s : State) (cls key : Nat) (m : Member) : State :=
  match claimSlots (prepareFor s key 1 2) key 1 true with
  | (t :: _, s') => stripeWork (setMember s' t m) t.stripe cls (now s)
  | ([], s') => s'

/-- Begins the read of a copy's source unit (R266, R306). -/
def bgStart (s : State) (cls slice nsid unit : Nat) (l : Loc) : State :=
  match l with
  | .flash die b page u =>
    let id := s.dsc.nextId
    let r : BgRead := { die := die, block := b, page := page, pos := u, nsid := nsid, unit := unit, slice := slice, cls := cls,
                        deadline := opDeadline s cls, st := .waiting, dec := 0,
                        chk := (convOf s nsid unit).map fun e => e.seq % 16384 }
    { s with dsc := { s.dsc with bg := SMap.put s.dsc.bg id r, nextId := id + 1 } }
  | _ => s

/-- Copies one unit into stream 0 of its class: its source is read, and its slot waits for it (R305, R306, R308). -/
def copyUnit (cls : Nat) (s : State) (e : Nat × Loc) : State :=
  match infoOwner s e.1 with
  | some (id, n, unit) =>
    let k := s.dsc.nextId
    let s := copyPut (bgStart s cls n.slice id unit e.2) cls (copyKey s n unit e.2) (.fetch k)
    if s.plc.stripes.any fun x => x.2.members.contains (.fetch k) then serveRead s (bgBase + k) 0
    else { s with dsc := { s.dsc with bg := SMap.del s.dsc.bg k } }
  | none => s

/-- Copies a unit whose information bytes have been recovered already (R305). -/
def copyKnown (cls : Nat) (s : State) (e : Nat × Loc) : State :=
  match infoOwner s e.1 with
  | some (_, n, unit) => copyPut s cls (copyKey s n unit e.2) (.copy e.1 e.2)
  | none => s

/-- The valid units that the members `p` of a stripe block hold: information bytes and location. -/
def liveUnits (s : State) (g b : Nat) (p : Nat → Bool) : List (Nat × Loc) :=
  ((List.range 16).filter p).flatMap fun m =>
    let die := dieOf g m
    (s.med.pages.filter fun e => e.1 / 8192 == blkKey die (srcPhys s die b (e.1 % 8192))).flatMap fun e =>
      (e.2.zip (List.range e.2.length)).filterMap fun x =>
        let loc := Loc.flash die b (e.1 % 8192) x.2
        match infoOwner s x.1 with
        | some (_, n, unit) => if unitLoc s n unit = loc then some (x.1, loc) else none
        | none => none

/-- Copies all valid units of some members of a stripe block, metadata among them. -/
def moveUnits (s : State) (g b cls : Nat) (p : Nat → Bool) : State := (liveUnits s g b p).foldl (copyUnit cls) (metaMove s g b p)

/-! ### Abandoned stripes (R307, R317) -/

/-- A command whose unit has the target `old` takes `new`. -/
def retarget (s : State) (old new : Tgt) : State :=
  let f := fun (k : CUnit) => match k.st with
    | .placed t => if t = old then { k with st := .placed new } else k
    | .checked t => if t = old then { k with st := .checked new } else k
    | _ => k
  { s with hst := { s.hst with ctx := SMap.mapv s.hst.ctx fun _ c => { c with units := c.units.map f } } }

/-- A copy's member that finds no slot is dropped with its read: its source stays (R307). -/
def copyDrop (s : State) (m : Member) : State :=
  match m with
  | .fetch id => { s with dsc := { s.dsc with bg := SMap.del s.dsc.bg id } }
  | _ => s

/-- The member that a unit of an abandoned stripe is now: one that was only claimed may have been staged meanwhile. -/
def homeMember (s : State) (h : Homeless) : Member :=
  let slot := h.stripe * 16 + h.member
  if h.content = .claimed ∧ (SMap.find s.zne.stg slot).isSome then .unit slot else h.content

/-- Puts a unit of an abandoned stripe into a slot of its stream. A copy takes none in a QUIET group and is dropped where it finds
none; a unit of a write then waits until the refresher has prepared one (R250, R307). -/
def rehomeOne (s : State) (h : Homeless) : State :=
  let m := homeMember s h
  let copied := match m with | .copy _ _ => true | .fetch _ => true | _ => false
  match claimSlots s h.key 1 copied with
  | (t :: _, s') => retarget (setMember s' t m) ⟨h.stripe, h.member⟩ t
  | ([], s') => if copied then copyDrop s' m else { s' with plc := { s'.plc with homeless := s'.plc.homeless ++ [{ h with content := m }] } }

/-- The units of a stream that wait for a slot take those that are free. -/
def rehomeWaiting (s : State) (key : Nat) : State :=
  let mine := s.plc.homeless.filter fun h => h.key == key
  mine.foldl rehomeOne { s with plc := { s.plc with homeless := s.plc.homeless.filter fun h => h.key != key } }

/-- The units of stripe `n` that is given up, for a stream. -/
def homelessOf (n key : Nat) (l : List Member) : List Homeless :=
  ((l.zip (List.range l.length)).filter fun e => e.1 != .free && e.1 != .pad).map fun e =>
    { stripe := n, member := e.2, key := key, content := e.1 }

/-- A page of a plane set is complete: all its stripes have their parity, and its programs are queued (R246). -/
def pageDone (s : State) (st : Stripe) : Bool :=
  let sts := pageStripes s st
  decide (sts.length = 4 * st.width) && sts.all fun e => e.2.parity.isSome

/-- The SLC stream that takes a zone's units outside its plane sets (R247). -/
def zoneSlcKey (s : State) (zi : Nat) : Nat :=
  let cls := (zoneGet s zi).cls
  match nsOfZone s zi with
  | some (_, n) => streamKey s n.slice cls 0 2
  | none => cls * 4

/-- An open stripe is given up: its units are written again to slots of its stream, or of its zone's SLC stream (R307). -/
def stripeRehome (s : State) (n : Nat) : State :=
  match SMap.find s.plc.stripes n with
  | none => s
  | some st =>
    let key := match st.key, st.zone with
      | some k, _ => k
      | none, some (zi, _) => zoneSlcKey s zi
      | none, none => 0
    let hs := homelessOf n key st.members
    let folds := (s.plc.folds.map fun f => { f with stripes := f.stripes.filter (· != n) }).filter fun f => !f.stripes.isEmpty
    let s := { s with plc := { s.plc with stripes := SMap.del s.plc.stripes n, folds := folds } }
    hs.foldl rehomeOne (prepareFor s key hs.length 8)

/-- A zone leaves direct placement: its page stripes that satisfy `p` are given up and their units placed through an SLC stream (R247). -/
def leaveDirectP (s : State) (zi : Nat) (p : Stripe → Bool) : State :=
  let z := zoneGet s zi
  match z.cursor with
  | none => s
  | some cur =>
    let mine := s.plc.stripes.filter fun e => p e.2 && (match e.2.zone with | some (y, _) => y == zi | none => false) &&
      !(s.plc.folds.any fun f => f.stripes.contains e.1)
    let s := zonePut s zi { z with cursor := none, left := true }
    let s := (mine.map (·.1)).foldl stripeRehome s
    let full := fun (s : State) (b : Nat) =>
      if s.plc.stripes.any fun e => e.2.group == cur.ext.group && e.2.block == b then s
      else
        sbClose s cur.ext.group b
    let s := (List.range cur.ext.set).foldl (fun s i => full s (cur.ext.block + i)) s
    match cur.next with
    | some x => (List.range x.set).foldl (fun s i => sbClose s x.group (x.block + i)) s
    | none => s

/-- The open stripes of a zone in direct placement. -/
def zoneStripes (s : State) (zi : Nat) : List (Nat × Stripe) :=
  s.plc.stripes.filter fun e => (match e.2.zone with | some (y, _) => y == zi | none => false) &&
    !(s.plc.folds.any fun f => f.stripes.contains e.1)

/-- A zone has a tail: units of an incomplete page (R247). -/
def hasTail (s : State) (zi : Nat) : Bool := (zoneStripes s zi).any fun e => !pageDone s e.2

/-- The stripes of a zone's incomplete page, its tail, are given up, which PLC_TAILS counts; a zone without one stays in direct placement
(R247, R263). -/
def leaveTail (s : State) (zi : Nat) : State :=
  if hasTail s zi && (zoneGet s zi).cursor.isSome then finc (leaveDirectP s zi fun st => !pageDone s st) Fld.PLC_TAILS_COUNT else s

/-- A zone of which no run folds and no extent is rewritten any more. -/
def foldRest (z : Zone) : Zone :=
  { z with runs := z.runs.map (fun r => { r with folding := false }), exts := z.exts.map fun x => { x with reloc := false } }

/-- Drops a fold in progress: its source runs stay (R307). -/
def foldDrop (s : State) (f : Fold) : State :=
  let stripes := s.plc.stripes.filter fun e => !f.stripes.contains e.1
  let gone := s.plc.stripes.filter fun e => f.stripes.contains e.1
  let folds := s.plc.folds.filter fun x => x != f
  let s := { s with plc := { s.plc with stripes := stripes, folds := folds } }
  let s := gone.foldl (fun s e => sbClose s e.2.group e.2.block) s
  let s := fset s Fld.PLC_FOLDS_RUNNING folds.length
  if f.zoned then zonePut s f.obj (foldRest (zoneGet s f.obj)) else s

/-! ### The stripes of a fold (R222, R257, R307) -/

/-- Opens the stripes of a fold from position `r` on, `dm` units each, by zone offset; the slots past the last are pad. -/
def foldStripes (s : State) (cls since zi : Nat) (x : Ext) (us : List (Nat × Member)) (r : Nat) : Nat → List Nat × State
  | 0 => ([], s)
  | k + 1 =>
    let mine := us.take x.dm
    let off := match mine with | u :: _ => u.1 | [] => 0
    let st := mkStripe s x.group x.block x.set x.mode x.par7 r none (some (zi, off))
    let ms := mine.map (·.2) ++ List.replicate (x.dm - mine.length) .pad
    let a := addStripe s { st with members := ms, work := cls, begun := some since }
    let rest := foldStripes a.2 cls since zi x (us.drop x.dm) (r + 1) k
    (a.1 :: rest.1, rest.2)

/-- What opening plane sets for a fold's units gives: its extents, its stripes, the units left over. -/
structure FoldSets where
  exts    : List Ext
  stripes : List Nat
  left    : List (Nat × Member)

/-- The pages of one half of a plane set that a fold's units fill, from position `r` on: whole pages, as many as they need. -/
def foldHalf (s : State) (cls since zi : Nat) (x : Ext) (us : List (Nat × Member)) (r rows : Nat) : List Nat × List (Nat × Member) × State :=
  let mine := us.take (rows * x.dm)
  let pages := (mine.length + x.dm * 4 * x.set - 1) / (x.dm * 4 * x.set)
  let a := foldStripes s cls since zi x mine r (pages * 4 * x.set)
  (a.1, us.drop (rows * x.dm), a.2)

/-- The second half of a plane set of 7+1 stripes, for what the first did not take; its data members may be others (R228). -/
def foldSecond (s : State) (cls since zi : Nat) (x : Ext) (us : List (Nat × Member)) (rows : Nat) : List Nat × List (Nat × Member) × State :=
  if x.par7 ∧ !us.isEmpty then foldHalf s cls since zi { x with dm := max 1 (dataMembers s x.group true 1) } us rows rows else ([], us, s)

/-- Opens new plane sets for a fold's units, as many as they need (R222, R246). -/
def foldSets (s : State) (cls since zi zcls : Nat) (n : Ns) (us : List (Nat × Member)) : Nat → FoldSets × State
  | 0 => ({ exts := [], stripes := [], left := us }, s)
  | k + 1 =>
    match us, directSet s n zcls (match us with | u :: _ => u.1 | [] => 0) with
    | _ :: _, some (x, s) =>
      let rows := extRows s x / (if x.par7 then 2 else 1)
      let a := foldHalf s cls since zi x us 0 rows
      let b := foldSecond a.2.2 cls since zi x a.2.1 rows
      let rest := foldSets (grpRefresh b.2.2 x.group) cls since zi zcls n b.2.1 k
      ({ rest.1 with exts := x :: rest.1.exts, stripes := a.1 ++ b.1 ++ rest.1.stripes }, rest.2)
    | _, _ => ({ exts := [], stripes := [], left := us }, s)

/-- The offset in its zone of a unit that a fold copies. -/
def foldOff (s : State) (n : Ns) (m : Member) : Option (Nat × Member) :=
  match m with
  | .copy info _ => (infoOwner s info).map fun e => (e.2.2 % zoneUnits n, m)
  | .fetch id => (SMap.find s.dsc.bg id).map fun r => (r.unit % zoneUnits n, m)
  | _ => none

/-- Stripes `ks` of a zone's fold are given up: their units are written again in new plane sets, and the fold goes on; it is dropped
where none can be had (R307). -/
def foldRehome (s : State) (f : Fold) (ks : List Nat) : State :=
  match nsOfZone s f.obj with
  | none => foldDrop s f
  | some (_, n) =>
    let gone := s.plc.stripes.filter fun e => ks.contains e.1
    let us := gone.flatMap fun e => e.2.members.filterMap (foldOff s n)
    let work := pageWork gone
    let t := { s with plc := { s.plc with stripes := s.plc.stripes.filter fun e => !ks.contains e.1 } }
    let r := foldSets t work.1 (work.2.getD (now s)) f.obj (zoneGet s f.obj).cls n us 64
    if !r.1.left.isEmpty then foldDrop s f
    else
      let f' := { f with exts := f.exts ++ r.1.exts, stripes := f.stripes.filter (fun k => !ks.contains k) ++ r.1.stripes }
      { r.2 with plc := { r.2.plc with folds := r.2.plc.folds.map fun x => if x = f then f' else x } }

/-! ### Abandoned stripes (R307, R317) -/

/-- Stripes are abandoned: their units are written again to new destinations (R307, R317). -/
def abandonStripes (s : State) (ks : List Nat) : State :=
  let s := (s.plc.folds.filter fun f => f.zoned && f.stripes.any ks.contains).foldl
    (fun s f => foldRehome s f (f.stripes.filter ks.contains)) s
  ks.foldl stripeRehome s

/-- The plane set that a stripe block in use belongs to, for the stream, zone or fold that fills it: first stripe block and width. -/
def setAround (s : State) (g b : Nat) : Nat × Nat :=
  let here := fun (x w : Nat) => decide (x ≤ b ∧ b < x + w)
  let ext := fun (x : Ext) => if x.group = g ∧ here x.block x.set then [(x.block, x.set)] else []
  let l := (s.plc.stripes.filter fun e => e.2.group == g && here e.2.set0 e.2.width).map (fun e => (e.2.set0, e.2.width)) ++
    (s.plc.opens.filter fun e => e.1 % 128 == g && here e.2.set0 e.2.width).map (fun e => (e.2.set0, e.2.width)) ++
    s.zne.zones.flatMap fun e => match e.2.cursor with
      | some c => ext c.ext ++ (match c.next with | some x => ext x | none => [])
      | none => []
  l.headD (b, 1)

/-- A zone's cursor without a plane set: the extent being filled has no room left, one prepared is given back. -/
def cursorShut (s : State) (g set0 : Nat) (c : Cursor) : Cursor :=
  let hit := fun (x : Ext) => x.group == g && x.block == set0
  { ext := if hit c.ext then { c.ext with skip := c.ext.skip + extRows s c.ext * c.ext.dm } else c.ext,
    next := match c.next with | some x => if hit x then none else some x | none => none }

/-- Nothing more is written to the plane set of a stripe block in use, a member block of which is retired. Its open stripes that lie in
the stripe block, or in a page that is not complete, are abandoned; pages that are complete go on in the other blocks (R307;
notes/assumptions/76.md). -/
def setShut (s : State) (g b : Nat) : State :=
  let x := setAround s g b
  let hit := (s.plc.stripes.filter fun e => e.2.group == g && e.2.set0 == x.1 && (e.2.block == b || !pageDone s e.2)).map (·.1)
  let opens := s.plc.opens.filter fun e => !(e.1 % 128 == g && e.2.set0 == x.1)
  let zones := SMap.mapv s.zne.zones fun _ z => { z with cursor := z.cursor.map (cursorShut s g x.1) }
  let s := abandonStripes { s with plc := { s.plc with opens := opens }, zne := { s.zne with zones := zones } } hit
  (List.range x.2).foldl (fun s i =>
    if s.plc.stripes.any fun e => e.2.group == g && e.2.block == x.1 + i then s else sbClose s g (x.1 + i)) s

/-! ### Erase completion and retirement (R306, R309, R311) -/

/-- A member block of a dropped stripe block, erased, becomes a spare of its die (R311). -/
def memberSpare (g b : Nat) (s : State) (m : Nat) : State :=
  let d := dieOf g m
  let pb := physOf s g b m
  let x := blkOf s d pb
  if x.retired || x.spare || dieGone s d then s
  else
    let s := blkPut s d pb { x with spare := true }
    { s with med := { s.med with spares := SMap.put s.med.spares d (sparesOf s d + 1) } }

/-- A member of a stripe block that is being erased has ended. With the last one the stripe block is erased: journaled, and
free again when it is not in use. -/
def memberErased (s : State) (g b m : Nat) : State :=
  let k := sbKey g b
  match SMap.find s.med.erasing k with
  | none => s
  | some ms =>
    let ms' := ms.filter (· != m)
    if !ms'.isEmpty then { s with med := { s.med with erasing := SMap.put s.med.erasing k ms' } }
    else
      let used := (SMap.find s.med.inUse k).isSome
      let jblks := SMap.mapv s.med.jblks fun _ j => { j with waits := j.waits.filter fun w => w != (g, b) }
      let tail := s.med.tail.map fun r => { r with holds := r.holds.filter fun w => w != (g, b) }
      let layouts := s.med.layouts.filter fun e => e.1 / 65536 != k
      let old := s.med.old.filter fun e => e.1 / 16 != k
      let s := { s with med := { s.med with erasing := SMap.del s.med.erasing k, jblks := jblks, layouts := layouts, old := old, tail := tail },
                        age := { s.age with born := SMap.del s.age.born k } }
      let s := journal s 8 [g, b]
      if used then
        match s.plc.stripes.find? fun e => e.2.group == g && e.2.block == b && e.2.parity.isSome with
        | some e => programPage s e.2
        | none => s
      else if s.med.dropped.contains k then spareRefresh ((List.range 16).foldl (memberSpare g b) s)
      else if sbCount s g ≤ b then s
      else
        let s := { s with plc := { s.plc with gFree := SMap.put s.plc.gFree g (gFreeOf s g + 1) } }
        let left := (s.plc.erasing.contains g) && !(s.med.inUse.any fun e => e.1 / 1048576 == g) &&
          !(s.med.erasing.any fun e => e.1 / 1048576 == g)
        let s := if left then { s with plc := { s.plc with erasing := s.plc.erasing.filter (· != g) } } else s
        holdTry (grpRefresh s g)

/-- The lowest spare block of the die in a plane (R300, R311). -/
def spareIn (s : State) (die plane : Nat) : Option Nat :=
  let np := planesOf s (die / 32)
  (List.range s.part.dieBlocks).find? fun b => b % np == plane % np && (blkOf s die b).spare && !(blkOf s die b).retired

/-- Counts of a retirement (R311, R313). -/
def countRetired (s : State) (die : Nat) : State :=
  let t := now s
  let day := (SMap.getD s.med.recent die []).filter fun x => decide (t < x + 86400000000000)
  { s with med := { s.med with
    retired := SMap.put s.med.retired die (SMap.getD s.med.retired die 0 + 1),
    recent := SMap.put s.med.recent die (t :: day) } }

/-- Queued programs of a retired block are taken from its die's queue (R311). -/
def blockUnqueue (s : State) (die block : Nat) : State :=
  let p := fun (o : DOp) => o.kind == 1 && o.block == block
  let out := (queueOf s die).filter p
  let s := out.foldl (fun s o => match o.call with | some n => callRefund s n | none => s) s
  unpark (parkPut (queuePut s die ((queueOf s die).filter fun o => !p o)) die ((parkedOf s die).filter fun o => !p o))

/-- The stripe block of a retired member block for which its die has no spare left in the plane is dropped: its valid units are moved, and
once erased its other member blocks become spares (R311). -/
def sbDrop (s : State) (die block g sb : Nat) : State :=
  let free := sbFree s g sb
  let s := { s with med := { s.med with dropped := s.med.dropped ++ [sbKey g sb] } }
  let s := journal s 6 [die, block, 1, sb, 0]
  if free then
    let s := { s with plc := { s.plc with gFree := SMap.put s.plc.gFree g (gFreeOf s g - 1) } }
    grpRefresh (eraseMembers s g sb 0 fun m => m != memberOf die) g
  else grpRefresh (sweep (moveUnits s g sb 3 fun _ => true)) g

/-- A member block is retired and replaced by a spare of its die and plane, or its stripe block is dropped (R311). The valid
units it holds are moved (R307); nothing more is written to a stripe block still being filled. -/
def retireBlock (s : State) (die block : Nat) : State :=
  let b := blkOf s die block
  if b.retired then s
  else
    let g := groupOf die
    let m := memberOf die
    let sb := sbOf s die block
    let s := blockUnqueue s die block
    let open_ := match SMap.find s.med.inUse (sbKey g sb) with | some u => !u.full | none => false
    let s := if open_ then setShut s g sb else s
    let s := moveUnits s g sb 3 (· == m)
    let s := countRetired (blkPut s die block { b with retired := true, spare := false }) die
    let s := { s with med := { s.med with old := SMap.put s.med.old (sbKey g sb * 16 + m) block } }
    let s := match spareIn s die (block % planesOf s (die / 32)) with
      | some sp =>
        let s := blkPut s die sp { blkOf s die sp with spare := false }
        let s := { s with med := { s.med with
          table := SMap.put s.med.table (sbKey g sb * 16 + m) sp,
          spares := SMap.put s.med.spares die (sparesOf s die - 1) } }
        journal s 6 [die, block, 0, sp, sb]
      | none => sbDrop s die block g sb
    spareRefresh s

/-! ### Loss of a die or a channel (R316–R320) -/

/-- A group's condition after another member is gone (R228, R229, R319). -/
def groupLoss (s : State) (g : Nat) : State :=
  let n := (goneMembers s g).length
  if 2 ≤ n then
    if grp s Fld.PLC_GRP_CLOSED_GROUPS g then s
    else
      let s := grpSet s Fld.PLC_GRP_CLOSED_GROUPS g true
      post (fon s Fld.PLC_EVENTS_GROUP_CLOSED) 5 1 false g 2 0 0
  else if n = 1 ∧ !grp s Fld.PLC_GRP_DEGRADED_GROUPS g then
    let s := grpSet s Fld.PLC_GRP_DEGRADED_GROUPS g true
    post (fon s Fld.PLC_EVENTS_GROUP_DEGRADED) 5 1 false g 1 0 0
  else s

/-- An operation of a lost die ends: reads become mandatory rebounds, member reads fail their rebound (R288, R317). -/
def opLost (s : State) (die : Nat) (o : DOp) : State :=
  let s := match o.call with
    | some n => callReturn s n
    | none => s
  if o.kind = 2 then memberErased s (groupOf die) (sbOf s die o.block) (memberOf die)
  else if o.kind = 1 then s
  else
    match o.rebound, o.host with
    | some id, _ => reboundFail s id
    | none, some (x, u) => reboundMust (readSt s x u .waiting) x u 2
    | none, none => s

/-- Two locations lie in one stripe of the stripe block. -/
def sameStripe (s : State) (g b : Nat) (x y : Loc) : Bool :=
  match x, y with
  | .flash d _ p u, .flash d' _ p' u' => p == p' && u == u' && halfOf (sbPar7 s g b) (memberOf d) == halfOf (sbPar7 s g b) (memberOf d')
  | _, _ => false

/-- The valid units on a lost member that its rebuild has still to copy. -/
def rebuildLeft (s : State) (die : Nat) : Nat :=
  let g := groupOf die
  (s.med.inUse.filter fun e => e.1 / 1048576 == g).foldl (fun n e => n + (liveUnits s g (e.1 % 1048576) (· == memberOf die)).length) 0

/-- The copies of a rebuild in one stripe block: every valid unit of the closed stripes that hold a valid unit of the lost member; in a
group that lost a second member before the first rebuild had ended, every valid unit (R318, R319). -/
def rebuildBlock (s : State) (die b : Nat) : State :=
  let g := groupOf die
  let all := liveUnits s g b fun _ => true
  let hit := liveUnits s g b (· == memberOf die)
  let two := grp s Fld.PLC_GRP_CLOSED_GROUPS g && decide (2 ≤ (SMap.getD s.med.losses g []).length)
  let out := if two then all else all.filter fun e => hit.any fun h => sameStripe s g b h.2 e.2
  out.foldl (copyUnit 2) s

/-- The copies of a rebuild (R318): the SLC staging stripes first, then the metadata, then the others by ascending stripe block. -/
def rebuildMove (s : State) (die : Nat) : State :=
  let g := groupOf die
  let mine := s.med.inUse.filter fun e => e.1 / 1048576 == g
  let go := fun (s : State) (e : Nat × SbUse) => rebuildBlock s die (e.1 % 1048576)
  let s := (mine.filter fun e => e.2.staging).foldl go s
  let s := (mine.filter fun e => !e.2.staging && !(metaIn s g (e.1 % 1048576)).isEmpty).foldl
    (fun s e => metaMove s g (e.1 % 1048576) fun _ => true) s
  (mine.filter fun e => !e.2.staging).foldl go s

/-- What R317 and R318 do at once when a die is lost, its record aside. What it was issued and has not started is withdrawn; each stays with
the die until its entry comes back (R341). -/
def dieGoneNow (s : State) (die : Nat) : State :=
  if SMap.getD s.med.dies die 0 = 1 then s
  else
    let g := groupOf die
    let m := memberOf die
    let sent := (sentOf s die).map fun o => { o with call := none }
    let ops := queueOf s die ++ parkedOf s die ++ sent ++ runOf s die ++ (match SMap.find s.dsc.susp die with | some (l, _) => l | none => [])
    let s := { s with med := { s.med with dies := SMap.put s.med.dies die 1 } }
    let s := fbiton s (Fld.CHS_DIE_LOST_DIES (die / 32)) (die % 32)
    let s := fset s Fld.LDC_MED_LOST_DIES (SMap.cnt s.med.dies fun _ v => v == 1)
    let s := journal s 7 [die, 1]
    let s := groupLoss s g
    let s := parkPut (queuePut s die []) die []
    let s := withdraw s fun o => sent.any fun x => x.id == o.id
    let s := { s with dsc := { s.dsc with run := SMap.del s.dsc.run die, susp := SMap.del s.dsc.susp die } }
    let s := { s with med := { s.med with
      losses := SMap.put s.med.losses g (m :: SMap.getD s.med.losses g []),
      rebuilds := s.med.rebuilds ++ [{ die := die, since := now s, total := rebuildLeft s die }], hold := false } }
    let s := fset (fon s Fld.LDC_MED_REBUILD_ACTIVE) Fld.LDC_MED_REBUILD_PERCENT 0
    let s := ops.foldl (fun s o => opLost s die o) s
    let hit := (s.plc.stripes.filter fun e => e.2.group == g && (e.2.mem.contains m || e.2.par == m)).map (·.1)
    let s := abandonStripes s hit
    spareRefresh (rebuildMove s die)

/-- Populated dies of a channel that are not lost. -/
def liveDies (s : State) (ch : Nat) : List Nat := ((List.range 32).map fun p => 32 * ch + p).filter fun d => !dieGone s d

/-- A channel is lost (R316): 1 carded, 2 PHY, 3 all its dies lost. -/
def channelLost (s : State) (ch cause : Nat) : State :=
  if s.med.chans.contains ch then s
  else
    let s := { s with med := { s.med with chans := s.med.chans ++ [ch] } }
    let s := fset s Fld.LDC_MED_LOST_CHANNELS s.med.chans.length
    let s := post (fon s Fld.LDC_MED_EVENTS_CHANNEL_LOST) 7 3 false ch cause 0 0
    let s := if cause = 1 then s else fset s (Fld.CHS_STATE_STATE ch) 5
    let ds := liveDies s ch
    ds.foldl dieGoneNow { s with med := { s.med with withChan := s.med.withChan.filter (fun d => d / 32 != ch) ++ ds } }

/-- Every block of a restored die is erased: the die is in service, its group's DEGRADED condition clears with the last member gone, and
no stripe block that was filled without it goes on (R320). -/
def dieInService (s : State) (die : Nat) : State :=
  let g := groupOf die
  let s := { s with med := { s.med with dies := SMap.del s.med.dies die, withChan := s.med.withChan.filter (fun d => d != die),
                                        restoring := SMap.del s.med.restoring die } }
  let s := fset (fbitoff s (Fld.CHS_DIE_LOST_DIES (die / 32)) (die % 32)) Fld.LDC_MED_LOST_DIES (SMap.cnt s.med.dies fun _ v => v == 1)
  let s := journal s 7 [die, 2]
  let s := (s.med.inUse.filter fun e => e.1 / 1048576 == g && !e.2.full).foldl (fun s e => setShut s g (e.1 % 1048576)) s
  let s := if (goneMembers s g).isEmpty && !grp s Fld.PLC_GRP_CLOSED_GROUPS g then grpSet s Fld.PLC_GRP_DEGRADED_GROUPS g false else s
  holdTry (spareRefresh s)

/-- The erase of a block of a die that is being restored has ended. -/
def restoreErased (s : State) (die block : Nat) : State :=
  match SMap.find s.med.restoring die with
  | some l =>
    let l' := l.filter (· != block)
    if l'.isEmpty then dieInService s die else { s with med := { s.med with restoring := SMap.put s.med.restoring die l' } }
  | none => s

/-- Queues the erases of a restored die's blocks. -/
def restoreErases (s : State) (die : Nat) (l : List Nat) : State :=
  l.foldl (fun s b => enqueue s die (devOp s 2 (blkOf s die b).mode b 0 3)) s

/-- The blocks of a restored die that hold anything are erased, retired ones aside; the die is in service once they are (R311, R320). -/
def dieRestored (s : State) (die : Nat) : State :=
  let held := (s.med.pages.filter fun e => e.1 / 8192 / 1048576 == die).map fun e => e.1 / 8192 % 1048576
  let l := held.eraseDups.filter fun b => !(blkOf s die b).retired
  if l.isEmpty then dieInService s die
  else restoreErases { s with med := { s.med with restoring := SMap.put s.med.restoring die l } } die l

/-- A member lost with its channel is restored when the sequencer is released (R89, R320): at once when its rebuild has ended. -/
def restoreDie (s : State) (die : Nat) : State :=
  if SMap.getD s.med.dies die 0 != 1 then s
  else
    let s := { s with med := { s.med with dies := SMap.put s.med.dies die 3 } }
    if s.med.rebuilds.any fun r => r.die == die then s else dieRestored s die

/-- A channel is in service again. -/
def channelBack (s : State) (ch : Nat) : State :=
  let s := { s with med := { s.med with chans := s.med.chans.filter fun c => c != ch } }
  fset s Fld.LDC_MED_LOST_CHANNELS s.med.chans.length

/-- The dies that were lost with a channel and have passed its re-initialisation are restored (R320, R334). -/
def channelRestore (s : State) (ch : Nat) : State :=
  (s.med.withChan.filter fun d => d / 32 == ch && fbit s (Fld.CHS_DIE_MAP_DIES ch) (d % 32)).foldl restoreDie s

/-- A die is lost (R316): 1 timeouts, 2 fatal status, 3 retirements. -/
def dieLost (s : State) (die cause : Nat) : State :=
  if SMap.getD s.med.dies die 0 = 1 then s
  else
    let s := post (fon s Fld.LDC_MED_EVENTS_DIE_LOST) 7 2 false die cause 0 0
    let s := dieGoneNow s die
    if (liveDies s (die / 32)).isEmpty then channelLost s (die / 32) 3 else s

/-- Retires a block; more than FAIL_BLOCKS within 24 h lose the die (R316). -/
def retire (s : State) (die block : Nat) : State :=
  let s := retireBlock s die block
  if fget s Fld.LDC_MED_DIE_FAIL_BLOCKS < (SMap.getD s.med.recent die []).length then dieLost s die 3 else s

/-- A repair counts against the block that held the unit, which is retired at the suspect limit (R305). -/
def repairCount (s : State) (die b page : Nat) : State :=
  let phys := srcPhys s die b page
  let k := blkOf s die phys
  let s := blkPut s die phys { k with repairs := k.repairs + 1 }
  if fget s Fld.LDC_MED_RETIRE_SUSPECT ≤ k.repairs + 1 then retire s die phys else s

/-- A unit needed soft decode or a mandatory rebound: its recovered contents are rewritten (R305). -/
def repairUnit (s : State) (die b page unit info : Nat) : State :=
  repairCount (copyKnown 3 s (info, .flash die b page unit)) die b page

def repair (s : State) (die b page unit : Nat) : State := repairUnit s die b page unit (unitAt s die (srcPhys s die b page) page unit)

/-- The same for the unit of a background read: a copy writes it anew already, a self-test's read does not (R156, R305). -/
def bgRepair (s : State) (k : BgRead) (info : Nat) : State :=
  if k.test = 0 then repairCount s k.die k.block k.page
  else if s.med.lost.contains (lostKey k.nsid k.unit) then s
  else repairUnit s k.die k.block k.page k.pos info

/-! ### Rows -/

/-- The members of a rebound are combined; a unit that a mandatory rebound served is repaired (R282, R305). -/
def execReboundCombine (id : Nat) (s : State) : Out :=
  let s' := reboundEnd s id
  .next (match SMap.find s.dsc.rebounds id with
    | some r =>
      if bgBase ≤ r.host.1 then
        match r.mandatory, SMap.find s.dsc.bg (r.host.1 - bgBase), SMap.find s'.dsc.bg (r.host.1 - bgBase) with
        | true, some k, none => bgRepair s' k r.acc
        | _, _, _ => s'
      else
        match ctxUnit s' r.host.1 r.host.2 with
        | some (_, k) => if r.mandatory && k.st == .decoded then repairUnit s' r.die r.block r.page r.unit r.acc else s'
        | none => s'
    | none => s')

/-- A decoder takes a codeword of a die: its counts, the die's current step and retry estimate, the planner's inputs, and whether it
decodes (R273, R302, R565–R567). -/
def decodeRun (s : State) (die mode b page : Nat) (d : Decode) : Bool × State :=
  let s := retryHist (stepMove (diagDecode (ageDecode (borrow s die) die mode b page d) d) die mode d) die mode d
  decodeOne (learnRetry s die (stepsTaken s d)) d

/-- The calls of `n` retry steps and soft senses, each granted before its read and returned after it; none while the next must wait
(R421, R424, R425). -/
def senseRun (c : Call) : Nat → State → Option State
  | 0, s => some s
  | n + 1, s =>
    let k := freeSlot s.ump.calls 0
    if k < 4096 ∧ callFits s c then senseRun c n (callReturn (callGrant s k { c with shares := chargeTo s c.shares }) k) else none

/-- The call of one sense for a reader. -/
def senseCall (s : State) (die mode cls deadline : Nat) (owner : Option Nat) : Call :=
  mkCall s false die mode 1 1 1 cls deadline [owner.getD deviceAcct]

/-- A member of a rebound needed soft decode: where it is a valid data unit, it is repaired as well (R305). -/
def mateRepair (s : State) (die b page unit info : Nat) : State :=
  match infoOwner s info with
  | some (id, _, k) =>
    if infoCrcOk info && unitHere s id k (.flash die b page unit) then repairUnit s die b page unit info else s
  | none => s

/-- The next member of a rebound is decoded (R282). -/
def memberDecode (s : State) (id : Nat) (d : Decode) : State :=
  match SMap.find s.dsc.rebounds id with
  | some rb =>
    match rb.arrived with
    | mate :: rest =>
      let d := decodeCap s d
      match senseRun (senseCall s mate rb.mode rb.cls rb.deadline rb.owner) (stepsTaken s d) s with
      | none => s
      | some s =>
      let r := decodeRun s mate rb.mode rb.block rb.page d
      if r.1 then
        let info := unitAt s mate (srcPhys s mate rb.block rb.page) rb.page rb.unit
        let rb' := { rb with arrived := rest, acc := rb.acc ^^^ info }
        let s := { r.2 with dsc := { r.2.dsc with rebounds := SMap.put r.2.dsc.rebounds id rb' } }
        if d = .soft then mateRepair s mate rb.block rb.page rb.unit info else s
      else reboundFail r.2 id
    | [] => s
  | none => s

/-- A background read's codeword is decoded (R302, R303, R306, R307). -/
def bgDecode (s : State) (id : Nat) (d : Decode) : State :=
  match SMap.find s.dsc.bg id with
  | some k =>
    match k.st with
    | .arrived =>
      let d := decodeCap s d
      let mode := sbMode s (groupOf k.die) k.block
      match senseRun (senseCall s k.die mode k.cls k.deadline (some k.slice)) (stepsTaken s d) s with
      | none => s
      | some s =>
      let info := unitAt s k.die (srcPhys s k.die k.block k.page) k.page k.pos
      let r := decodeRun s k.die mode k.block k.page d
      if !r.1 then reboundMust r.2 (bgBase + id) 0 3
      else if bgHeaderOk s k info then
        let s := bgDone r.2 id info
        if d = .soft then bgRepair s k info else s
      else
        let s := fon (finc r.2 (Fld.LDC_COUNT_COUNT 5)) Fld.LDC_EVENTS_HEADER_MISMATCH
        reboundMust s (bgBase + id) 0 (if k.chk.isSome then 4 else 3)
    | .rebound rid => memberDecode s rid d
    | _ => s
  | none => s

/-- A codeword of unit `u` of context `x` is decoded: of its direct read, or of the next member of its rebound (R302, R303). -/
def ldpcDecode (s : State) (x u : Nat) (d : Decode) : State :=
  if bgBase ≤ x then bgDecode s (x - bgBase) d
  else
    match ctxUnit s x u with
    | some (c, k) =>
      match k.loc, k.st with
      | .flash die b page unit, .arrived =>
        let d := decodeCap s d
        let mode := sbMode s (groupOf die) b
        match senseRun (senseCall s die mode c.lat c.deadline c.slice) (stepsTaken s d) s with
        | none => s
        | some s =>
        let info := unitAt s die (srcPhys s die b page) page unit
        let r := decodeRun s die mode b page d
        if !r.1 then reboundMust r.2 x u 3
        else if headerOk s c k info && seqOk k info then
          let s := unitDecoded r.2 x u c info
          if d = .soft then repair s die b page unit else s
        else
          let s := fon (finc r.2 (Fld.LDC_COUNT_COUNT 5)) Fld.LDC_EVENTS_HEADER_MISMATCH
          reboundMust s x u (if k.chk.isSome then 4 else 3)
      | .flash _ _ _ _, .rebound id => memberDecode s id d
      | _, _ => s
    | none => s

def execLdpcDecode (x u : Nat) (d : Decode) (s : State) : Out := .next (if fone s Fld.LDC_CTRL_EN then ldpcDecode s x u d else s)

/-- A collection is already moving the stripe block's units. -/
def copying (s : State) (k : Nat) : Bool := s.med.copies.any fun c => sbKey c.group c.block == k

/-- A stripe block holds a valid unit of conventional data. -/
def convIn (s : State) (k : Nat) : Bool :=
  s.zne.conv.any fun e => match e.2.loc with | .flash die b _ _ => sbKey (groupOf die) b == k | _ => false

/-- The victim of a collection (R308): the closed stripe block that holds conventional data with the fewest valid units, then the
lowest P/E count, then the lowest number. -/
def victim (s : State) : Option (Nat × SbUse) :=
  (s.med.inUse.filter fun e => e.2.full && e.2.conv && !copying s e.1 && convIn s e.1).foldl (fun best e =>
    match best with
    | none => some e
    | some v =>
      let pe := fun (k : Nat) => sbPe s (k / 1048576) (k % 1048576)
      if e.2.valid < v.2.valid ∨ (e.2.valid = v.2.valid ∧ pe e.1 < pe v.1) then some e else some v) none

/-- Blocks on present groups. -/
def rawBlocks (s : State) : Nat :=
  (groupCount s).foldl (fun n g => if grp s Fld.PLC_GRP_PRESENT_GROUPS g then n + membersOf s g * s.part.dieBlocks else n) 0

/-- The class collection runs in, when it runs (R308). -/
def collClass (s : State) : Option Nat :=
  let below := fun pct => decide (fget s Fld.PLC_FREE_BLOCKS * 100 < pct * rawBlocks s)
  if below (fget s Fld.LDC_MED_COLL_Q2_PCT) then some 2
  else if below (fget s Fld.LDC_MED_COLL_Q3_PCT) then some 3 else none

/-- Background work is suspended: non-operational states and the entry to one, and power-fail (R151, R290). -/
def bgStopped (s : State) : Bool := pfail s || umpAsleep s || s.hst.psTo.isSome

/-- Starts a copy of a stripe block's valid units, and records why (R306). -/
def copyBlock (s : State) (why g b cls : Nat) : State :=
  let c : Copy := { why := why, group := g, block := b }
  moveUnits { s with med := { s.med with copies := s.med.copies ++ [c] } } g b cls fun _ => true

/-- A copy of the conventional units of a stripe block; collection moves no zoned data (R308). -/
def collectBlock (s : State) (g b cls : Nat) : State :=
  let c : Copy := { why := 1, group := g, block := b }
  let s := { s with med := { s.med with copies := s.med.copies ++ [c] } }
  ((liveUnits s g b fun _ => true).filter fun e => match infoOwner s e.1 with | some (_, n, _) => !n.zoned | none => false).foldl
    (copyUnit cls) s

/-- No stripe of the plane set that a stripe block belongs to is open. -/
def setIdle (s : State) (g b : Nat) : Bool :=
  let x := setAround s g b
  !(s.plc.stripes.any fun e => e.2.group == g && decide (x.1 ≤ e.2.block ∧ e.2.block < x.1 + x.2) && e.2.members.any (· != .free))

/-- A stripe block of a HELD group that holds data, conventional or zoned, and no open stripe, and is not yet being moved; one of a
dedicated group only where HELD bars its slice's work (R229, R251, R308). -/
def heldBlock (s : State) : Option Nat :=
  (s.med.inUse.find? fun e =>
    let g := e.1 / 1048576
    (e.2.full || setIdle s g (e.1 % 1048576)) && e.2.valid != 0 && grp s Fld.PLC_GRP_HOLD_GROUPS g && !copying s e.1 &&
    !(match isoOf s g with | some n => heldChosen s n g | none => false)).map (·.1)

/-- The data of a HELD group's stripe block moves out; nothing more is written to the block (R229). -/
def heldMove (s : State) (k : Nat) : State :=
  let s := match SMap.find s.med.inUse k with
    | some u => if u.full then s else setShut s (k / 1048576) (k % 1048576)
    | none => s
  copyBlock s 6 (k / 1048576) (k % 1048576) 3

/-- Collection: a victim while free blocks are short, else the data of a HELD group, which moves out in class Q3 (R229, R308). -/
def collect1 (s : State) : State :=
  if bgStopped s then s
  else
    match collClass s, victim s with
    | some cls, some v => collectBlock s (v.1 / 1048576) (v.1 % 1048576) cls
    | _, _ =>
      match heldBlock s with
      | some k => heldMove s k
      | none => s

def execCollectionTrigger (s : State) : Out := .next (collect1 s)

/-- Static wear levelling of a group (R310): at most one copy a group. -/
def wearLevel (s : State) (g : Nat) : State :=
  let used := s.med.inUse.filter fun e => e.1 / 1048576 == g
  let hi := s.med.blocks.foldl (fun n e => if groupOf (e.1 / 1048576) = g ∧ !e.2.retired ∧ !e.2.spare then max n e.2.pe else n) 0
  let cold := (used.filter fun e => e.2.full && e.2.valid != 0).foldl (fun best e =>
    match best with
    | none => some (e.1 % 1048576)
    | some b => if sbPe s g (e.1 % 1048576) < sbPe s g b then some (e.1 % 1048576) else some b) (none : Option Nat)
  match cold with
  | some b =>
    if bgStopped s || s.med.copies.any (fun c => c.why == 2 && c.group == g) then s
    else if sbPe s g b + 4 * fget s Fld.LDC_MED_WL_SPREAD < hi then copyBlock s 2 g b 3
    else s
  | none => s

def execWearLevelTrigger (g : Fin 128) (s : State) : Out := .next (wearLevel s g.val)

/-- A rebuild ends (R318): the loss hold stands again when the reservable capacity can carry it. -/
def rebuildDone (s : State) (die : Nat) : State :=
  match s.med.rebuilds.find? fun r => r.die == die with
  | some r =>
    let left := s.med.rebuilds.filter fun x => x.die != die
    let g := groupOf die
    let ms := (SMap.getD s.med.losses g []).filter (· != memberOf die)
    let s := { s with med := { s.med with rebuilds := left, losses := if ms.isEmpty then SMap.del s.med.losses g else SMap.put s.med.losses g ms } }
    let s := if left.isEmpty then foff s Fld.LDC_MED_REBUILD_ACTIVE else s
    let s := journal (fon s Fld.LDC_MED_EVENTS_REBUILD_DONE) 7 [die, 3]
    let s := post s 7 4 false die ((now s - r.since) / 1000000000) 0 0
    let s := if SMap.getD s.med.dies die 0 = 3 then dieRestored s die else s
    holdTry s
  | none => s

def execRebuildDone (die : Fin 2048) (s : State) : Out := .next (rebuildDone s die.val)

end Sys2Proof.Machine
end

