-- ==== Sys2Proof/Machine/Ports.lean ====
section
/-! DEFINITION. Which ports are present, the Vocel channels and their volleys, command contexts held, and the power states
(R114–R118, R122, R136, R148–R154). -/
namespace Sys2Proof.Machine
open Sys2Proof

/-- Ports present in each configuration, as a set of bits (R122). -/
def portMask : Nat → Nat
  | 0 => 1
  | 1 => 3
  | 2 => 15
  | _ => 7

/-- Port `p` is present (R122, R123). -/
def portThere (s : State) (p : Nat) : Bool := (portMask s.part.cfg).testBit p

def portGet (s : State) (p : Nat) : Port := SMap.getD s.hst.ports p Port.reset

/-- Port `p`'s data link is up. -/
def linkUp (s : State) (p : Nat) : Bool := portThere s p && fone s (Fld.HPT_LINK_DL_UP p)

/-! ### Channels -/

def chanGet (s : State) (c : Nat) : Chan := SMap.getD s.mbx.chans c Chan.reset

/-- What MBX_STATE shows of a channel: 0 IDLE, 2 BUSY, 3 IN_VOLLEY, 4 OUT_VOLLEY. -/
def chanSt (x : Chan) : Nat :=
  if x.go then 2
  else match x.volley with
    | some v => if v.inbound then 3 else 4
    | none => 0

/-- The channel reads IDLE in MBX_STATE. -/
def chanIdle (s : State) (c : Nat) : Bool := chanSt (chanGet s c) == 0

/-- Puts a channel; MBX_STATE shows it. -/
def chanPut (s : State) (c : Nat) (x : Chan) : State :=
  let s := { s with mbx := { s.mbx with chans := SMap.put s.mbx.chans c x } }
  if c < 32 then fset s ⟨Reg.MBX_STATE (c / 8), 4 * (c % 8), 4⟩ (chanSt x) else s

/-- A channel's open volley is abandoned (R115). -/
def volleyDrop (s : State) (c : Nat) : State :=
  let x := chanGet s c
  match x.volley with
  | some _ => chanPut (finc s (Fld.MBX_COUNT_COUNT 4)) c { x with volley := none }
  | none => s

/-- Every open volley is abandoned (R118, dropout). -/
def volleysDrop (s : State) : State := (List.range 33).foldl volleyDrop s

/-- The slice a channel is bound to (R103). -/
def chanSlice (s : State) (c : Nat) : Option Nat :=
  if c < 32 ∧ fone s (Fld.MBX_BIND_BOUND (c / 8) (c % 8)) then some (fget s (Fld.MBX_BIND_SLICE (c / 8) (c % 8))) else none

/-- The volleys of a slice's channels are abandoned (R118). -/
def sliceVolleys (s : State) (n : Nat) : State :=
  ((List.range 32).filter fun c => chanSlice s c == some n).foldl volleyDrop s

/-! ### Contexts (R136) -/

/-- Contexts that port `p`'s commands hold. -/
def ctxHeld (s : State) (p : Nat) : Nat := SMap.cnt s.hst.ctx fun _ c => c.port == p

/-- QEN_CTX_FREE, QEN_CTX_USED. -/
def ctxShow (s : State) : State :=
  let s := fset s Fld.QEN_CTX_FREE_FREE (262144 - s.hst.ctx.length)
  (List.range 4).foldl (fun s p => fset s (Fld.QEN_CTX_USED_USED p) (ctxHeld s p)) s

/-! ### Power states (R148–R154) -/

/-- The port counts as disabled: its link is down, or CC.EN or CSTS.SHST shows it disabled or shut down (R149). -/
def portOff (s : State) (p : Nat) : Bool :=
  let x := portGet s p
  !linkUp s p || !x.en || x.shst == 2

/-- A submission queue of the port holds an entry that has not been fetched. -/
def sqWaits (s : State) (p : Nat) : Bool := s.hst.sqs.any fun e => e.1 / 65536 == p && e.2.head != e.2.tail

/-- The port is idle (R150). -/
def portIdle (s : State) (p : Nat) : Bool :=
  portOff s p ||
  (!sqWaits s p && !(s.hst.ctx.any fun e => e.2.port == p && !e.2.aer) && (List.range 8).all fun c => chanIdle s (8 * p + c))

/-- The state a port counts as requesting (R149). -/
def portReq (s : State) (p : Nat) : Nat := if portOff s p then 4 else (portGet s p).reqPs

def minOf (l : List Nat) (d : Nat) : Nat := l.foldl min d

/-- A request from the sideband is in progress (R150): one that is being served, not a volley that is open between its segments
(DESIGN CHOICE, notes/assumptions/80.md). -/
def sbBusy (s : State) : Bool := (chanGet s 32).go

/-- The effective state that R149 gives; a self-test that runs, or a sideband request in progress, keeps it operational (R150). -/
def psTarget (s : State) : Nat :=
  let reqs := (List.range 4).map (portReq s)
  let ops := reqs.filter fun r => decide (r ≤ 2)
  if !ops.isEmpty then minOf ops 2
  else if (List.range 4).all (portIdle s) && s.hst.dst.st == 0 && !sbBusy s then minOf reqs 4
  else
    let last := ((List.range 4).filter fun p => !portOff s p).map fun p => (portGet s p).lastOp
    if last.isEmpty then 0 else minOf last 2

/-- The DRAM enters or leaves self-refresh with PS3 and PS4; in PS4 the dies that support it are in deep power-down, and the core
regulator is at its retention set-point (R148, R401). -/
def psRefreshDram (s : State) (b : Bool) : State :=
  let s := { s with hst := { s.hst with deep := b && effPs s == 4 } }
  fset (fset s Fld.DMC_CTRL_SELF_REFRESH (b2n b)) Fld.DMC_STATUS_IN_SR (b2n b)

/-- The effective state changes, and the change is recorded. -/
def psSet (s : State) (t : Nat) : State :=
  if t = effPs s then s else post (fset s Fld.QEN_PS_EFFECTIVE t) 1 2 false (effPs s) t 0 0

/-- Whether a port is idle, and since when: QEN_PS.IDLE and the idle timer. -/
def psPort (s : State) (p : Nat) : State :=
  let b := portIdle s p
  let s := if b && !fone s ⟨Reg.QEN_PS, 4 * p + 3, 1⟩ then portUpd s p fun x => { x with idleAt := now s } else s
  fset (fset s ⟨Reg.QEN_PS, 4 * p + 3, 1⟩ (b2n b)) ⟨Reg.QEN_PS, 4 * p, 3⟩ (portReq s p)

/-- The requests, the idle bits and the state they give: an operational state at once, a non-operational one through an entry
(R149, R151). -/
def psRefresh (s : State) : State :=
  let s := (List.range 4).foldl psPort s
  let t := psTarget s
  if t ≤ 2 then
    let s := if 3 ≤ effPs s then psRefreshDram (foff s Fld.QEN_PS_EXCURSION) false else s
    foff (psSet { s with hst := { s.hst with psTo := none } } t) Fld.QEN_PS_TRANSITION
  else if t = effPs s then foff { s with hst := { s.hst with psTo := none } } Fld.QEN_PS_TRANSITION
  else fon { s with hst := { s.hst with psTo := some t } } Fld.QEN_PS_TRANSITION

/-- An event of R152 on port `p` while the effective state is non-operational: the port resumes its last operational request. -/
def psWake (s : State) (p : Nat) : State :=
  if 3 ≤ effPs s then psRefresh (portUpd s p fun x => { x with reqPs := x.lastOp }) else s

/-- A sideband request ends a non-operational state; when it is over, R149 gives the state anew (R150, R152). -/
def psSideband (s : State) : State :=
  if 3 ≤ effPs s then
    let last := ((List.range 4).filter fun p => !portOff s p).map fun p => (portGet s p).lastOp
    let t := if last.isEmpty then 0 else minOf last 2
    psRefresh (psRefreshDram (foff (psSet s t) Fld.QEN_PS_EXCURSION) false)
  else s

/-- A port's features and requests return to their defaults, and its idle timer restarts (R149). -/
def portDefaults (x : Port) (t : Nat) : Port :=
  { x with feat := Feat.reset, reqPs := 0, lastOp := 0, idleAt := t }

/-- The controller leaves a non-operational state for maintenance that is due, or returns to it (R153). -/
def psExcursion (s : State) : State :=
  if effPs s ≤ 2 then s
  else if excursion s then psRefreshDram (foff s Fld.QEN_PS_EXCURSION) true
  else psRefreshDram (finc (fon s Fld.QEN_PS_EXCURSION) Fld.QEN_PS_COUNT_EXCURSIONS) false

def execMaintenanceExcursion (s : State) : Out := .next (psExcursion s)

/-- The port's idle time reaches its entry for the state it requests (R154). -/
def apstTimer (s : State) (p : Nat) : State :=
  let x := portGet s p
  if portOff s p || !x.feat.apstOn || !portIdle s p then s
  else
    match SMap.find x.feat.apst x.reqPs with
    | some (ms, t) =>
      if ms = 0 then s
      else
        let s := reach s (x.idleAt + ms * 1000000)
        if now s < x.idleAt + ms * 1000000 then s
        else psRefresh (portUpd s p fun x => { x with reqPs := t, lastOp := if t ≤ 2 then t else x.lastOp })
    | none => s

def execApstIdleTimer (p : Fin 4) (s : State) : Out := .next (apstTimer s p.val)

end Sys2Proof.Machine
end

