-- ==== Sys2Proof/Machine/Drain.lean ====
section
/-! DEFINITION. Squashing commands, the red-card sequence, core pairs, buffer frees and handovers, the time base (R56–R62,
R86–R91, R144, R180, R376–R383). -/
namespace Sys2Proof.Machine
open Sys2Proof

/-! ### Ending commands (R144, R205, R291) -/

/-- All data of a command is durable, or delivered to the host. -/
def ctxDelivered (c : Ctx) : Bool :=
  match c.st with
  | .ready st _ _ => st == 0
  | _ => !c.units.isEmpty && c.units.all fun k => k.st == .staged || k.st == .plain

/-- A unit of a zone holds LBAs of a range, other than `r`, that is durable or in flight: they keep the unit (R205–R207). -/
def unitShared (z : Zone) (lp : Nat) (r : WRange) (off : Nat) : Bool :=
  z.ranges.any fun a => a.st != 2 && !(a.start == r.start && a.len == r.len && a.st == 0) &&
    decide (a.start < (off + 1) * lp ∧ off * lp < a.start + a.len)

/-- The zone offsets that an abandoned range gives up: first, and one past the last. Its units that hold LBAs of another range that
is not abandoned stay as they are (R205, R206). -/
def abandonSpan (z : Zone) (lp : Nat) (r : WRange) : Nat × Nat :=
  let a := r.start / lp
  let b := (r.start + r.len + lp - 1) / lp
  (if unitShared z lp r a then a + 1 else a, if unitShared z lp r (b - 1) then b - 1 else b)

/-- An abandoned unit of a zone, staged, or on flash where its stripe has closed: nothing holds it any more, and its place becomes pad.
Abandonment never takes a zone past its 1,024 run records: the unit then stays in its run (R205, R218). -/
def unitAbandon (s : State) (zi off : Nat) : State :=
  let z := zoneGet s zi
  let l := zoneLoc s z off
  let c := zoneCut z off
  if 1024 < c.runs.length then (match l with | .dram k => slotPad s k | _ => s)
  else
    let s := zonePut s zi c
    match l with
    | .zero => s
    | .dram k => slotPad s k
    | .flash die b _ _ => unitDrop s (groupOf die) b

/-- Gives up what a command that is not durable has claimed or staged: its slots become pad, its range is abandoned, with the units
that lie in it alone. The units of a conventional write that are staged already stay (R205, R224). -/
def writeAbandon (s : State) (c : Ctx) : State :=
  let s := c.units.foldl (fun s k =>
    match k.st with
    | .placed t => setMember s t .pad
    | .checked t => setMember s t .pad
    | _ => s) s
  match c.range with
  | some r =>
    if r.zoned then
      let lp := match SMap.find s.zne.ns r.nsid with | some n => lbasPerUnit n | none => 1
      let per := match SMap.find s.zne.ns r.nsid with | some n => zoneUnits n | none => 1
      let own := abandonSpan (zoneGet s r.zone) lp r
      let mine := c.units.filter fun k => k.st == .staged && decide (own.1 ≤ k.unit % per) && decide (k.unit % per < own.2)
      rangeSettle (mine.foldl (fun s k => unitAbandon s r.zone (k.unit % per)) s) r.zone r.start r.len 2
    else s
  | none => s

/-- The engines drop a command: its queued reads, its rebounds (R291). -/
def readsDrop (s : State) (x : Nat) : State :=
  let mine := fun (o : DOp) => match o.host with | some (y, _) => y == x | none => false
  let s := withdraw (dropQueued s mine) mine
  { s with dsc := { s.dsc with rebounds := s.dsc.rebounds.filter fun e => e.2.host.1 != x } }

/-- A command is squashed in the engines; its context stays. -/
def ctxSquash (s : State) (x : Nat) : State :=
  match SMap.find s.hst.ctx x with
  | some c =>
    if ctxOpen c && !ctxDelivered c then writeAbandon (readsDrop s x) c else s
  | none => s

/-- Stands for the command of a zone action whose context has been released: the action, once accepted, still acts (R212, R213). -/
def noCtx : Nat := 18446744073709551616

/-- No zone action names context `x` any more. -/
def actionsOrphan (s : State) (x : Nat) : State :=
  let f := fun (z : Zone) => match z.action with | some (a, y) => if y = x then { z with action := some (a, noCtx) } else z | none => z
  { s with zne := { s.zne with zones := SMap.mapv s.zne.zones fun _ z => f z } }

/-- A slice is busy while it has a command outstanding (R80). -/
def busyNote (s : State) (slice : Option Nat) : State :=
  match slice with
  | some n =>
    let out := s.hst.ctx.any fun e => e.2.slice == some n
    let t := now s
    { s with slm := { s.slm with slices := SMap.upd s.slm.slices n fun x =>
      match x.busyAt with
      | some a => if out then x else { x with busy := x.busy + (t - a), busyAt := none }
      | none => if out then { x with busyAt := some t } else x } }
  | none => s

/-- A command's context is released without a completion. -/
def ctxFree (s : State) (x : Nat) : State :=
  let s := match SMap.find s.hst.ctx x with | some c => if c.opcode = 0x79 then actionsOrphan s x else s | none => s
  let slice := match SMap.find s.hst.ctx x with | some c => c.slice | none => none
  psRefresh (ctxShow (busyNote { s with hst := { s.hst with ctx := SMap.del s.hst.ctx x } } slice))

/-- Ends commands `p`: those delivered complete with success, the others are squashed and complete with `st`. -/
def ctxFlush (s : State) (p : Ctx → Bool) (st : Nat) : State :=
  (s.hst.ctx.filter fun e => p e.2).foldl (fun s e =>
    if !ctxOpen e.2 then s
    else if ctxDelivered e.2 then ctxEnd s e.1 0 0 0
    else ctxFail (ctxSquash s e.1) e.1 st (match e.2.units with | k :: _ => k.lba | [] => 0)) s

/-- Ends commands `p` without completions. -/
def ctxVanish (s : State) (p : Ctx → Bool) : State :=
  (s.hst.ctx.filter fun e => p e.2).foldl (fun s e => ctxFree (ctxSquash s e.1) e.1) s

/-- Zones of a slice leave direct placement (R247). -/
def sliceTails (s : State) (n : Nat) : State :=
  s.zne.zones.foldl (fun s e =>
    match nsOfZone s e.1 with
    | some (_, ns) => if ns.slice = n then leaveTail s e.1 else s
    | none => s) s

/-- Steps 2 to 4 of a slice's squash: engine contexts, buffers, reservations (R180, R381, R291). -/
def sliceSquash (s : State) (n : Nat) : State :=
  sliceVolleys (sliceTails (quarantine s fun b => b.acct == n) n) n

/-! ### Engine instances (R252, R259) -/

/-- The XTE instance is in service. -/
def xteUp (s : State) (i : Nat) : Bool := !carded s (midXte i) && !s.kst.xteOut.contains i

/-- Instances dedicated to isolated slices. -/
def xteDed (s : State) : List Nat := s.slm.slices.flatMap fun e => e.2.xte

/-- A unit has been given an instance and has not passed it. -/
def xteWaits (c : Ctx) (k : CUnit) : Bool :=
  match k.st with
  | .placed _ => true
  | .plain => false
  | .lost => false
  | .checked _ => false
  | .staged => false
  | _ => c.opcode == 2

/-- Units outstanding on an instance (R259). -/
def xteLoad (s : State) (i : Nat) : Nat :=
  s.hst.ctx.foldl (fun n e => if ctxOpen e.2 then n + e.2.units.countP fun k => k.inst == i && xteWaits e.2 k else n) 0

/-- The instance for a command of a slice (R259): a dedicated one, or the shared one with the fewest outstanding units; ties go
to the instance after the token. -/
def chooseXte (s : State) (slice : Nat) : Nat × State :=
  let mine := match SMap.find s.slm.slices slice with
    | some c => if c.iso then c.xte else []
    | none => []
  let shared := (List.range 64).filter fun i => xteUp s i && !(xteDed s).contains i
  let cands := ((List.range 66).map fun i => (s.plc.xteTok + i) % 66).filter fun i =>
    if mine.isEmpty then shared.contains i else mine.contains i && xteUp s i
  let best := cands.foldl (fun b i =>
    match b with
    | none => some i
    | some j => if xteLoad s i < xteLoad s j then some i else some j) none
  match best with
  | some i => (i, { s with plc := { s.plc with xteTok := (i + 1) % 66 } })
  | none => (s.plc.xteTok % 66, s)

/-- Shows the dedicated instances (PLC_XTE_DED). -/
def xteDedShow (s : State) : State :=
  (List.range 3).foldl (fun s k =>
    fset s (Fld.PLC_XTE_DED_INSTANCES k) ((xteDed s).foldl (fun n i => if i / 32 = k then n ||| 2 ^ (i % 32) else n) 0)) s

/-- Puts the faults an instance shows, and its state. -/
def xteShow (s : State) (i : Nat) : State :=
  let t := now s
  let day := (SMap.getD s.kst.xteFaults i []).filter fun f => decide (t < f + 86400000000000)
  let st := if carded s (midXte i) then 4 else if s.kst.xteOut.contains i then 3
    else if (xteDed s).contains i then 1 else if 64 ≤ i then 2 else 0
  let sl := match s.slm.slices.find? fun e => e.2.xte.contains i with | some e => e.1 | none => 0
  fset (fset (fset s (Fld.XTE_INST_STATE i) st) (Fld.XTE_INST_FAULTS i) (min 31 day.length)) (Fld.XTE_INST_SLICE i) sl

/-- XTE_POOL and the instances' states (R252, R466). -/
def xtePool (s : State) : State :=
  let up := (List.range 66).filter fun i => xteUp s i
  let ded := xteDed s
  let s := fset s Fld.XTE_POOL_SHARED (up.countP fun i => decide (i < 64) && !ded.contains i)
  let s := fset s Fld.XTE_POOL_DEDICATED ded.length
  let s := fset s Fld.XTE_POOL_SPARE (up.countP fun i => decide (64 ≤ i) && !ded.contains i)
  let s := fset s Fld.XTE_POOL_RETIRED (66 - up.length)
  (List.range 66).foldl xteShow s

/-- An instance leaves service: a spare, or else a shared instance, takes a dedicated one's place (R252), and its operations are
reissued (R88). -/
def xteReplace (s : State) (i : Nat) : State :=
  let busy := xteDed s
  let repl := ([64, 65] ++ List.range 64).find? fun j => j != i && xteUp s j && !busy.contains j
  let slices := SMap.mapv s.slm.slices fun _ c =>
    match repl with
    | some j => { c with xte := c.xte.map fun k => if k = i then j else k }
    | none => c
  let s := { s with slm := { s.slm with slices := slices } }
  let s := xteDedShow s
  let s := (s.hst.ctx.filter fun e => ctxOpen e.2 && (e.2.inst == i || e.2.units.any fun k => k.inst == i)).foldl (fun s e =>
    let r := chooseXte s (match e.2.slice with | some n => n | none => 1024)
    let mine := fun (j : Nat) => if j = i then r.1 else j
    ctxUpd r.2 e.1 fun c => { c with inst := mine c.inst, units := c.units.map fun k => { k with inst := mine k.inst } }) s
  match (List.range 66).find? fun j => j != i && xteUp s j && !(xteDed s).contains j with
  | some j => buffersPass s (midXte i) (midXte j)
  | none => s

/-! ### Core pairs (R56–R58) -/

def pairField (p : Nat) : Field := ⟨Fld.FCX_PAIR_STATE_STATE_0.addr, 4 * p, 4⟩
def pairSt (s : State) (p : Nat) : Nat := fget s (pairField p)

/-- Pairs in service: ACTIVE or SPARE. -/
def pairsUp (s : State) : Nat := (List.range 8).countP fun p => pairSt s p == 1 || pairSt s p == 2

/-- A pair stops and is retired (R56). -/
def pairRetire (s : State) (p ev : Nat) : State :=
  let s := post (fset s (pairField p) 3) 25 ev false p 0 0 0
  if pairsUp s < 4 then smartEvent s 2 else s

/-- The spare takes over the tasks of stopped pairs (R56), with the buffers and the digest contexts they own (R57, R488). -/
def takeover (s : State) (p : Nat) : State :=
  let sp := fget s Fld.FCX_SPARE_SPARE_PAIR
  if fone s Fld.FCX_SPARE_TAKEOVER_EN ∧ pairSt s sp = 2 ∧ sp ≠ p then
    let s := finc (fset s (pairField sp) 1) Fld.FCX_TAKEOVERS_COUNT
    let s := { s with fab := { s.fab with passed := s.fab.passed ++ [p] } }
    let ctx := SMap.mapv s.dge.ctx fun _ c => if c.owner = p then { c with owner := sp } else c
    let s := { s with dge := { s.dge with ctx := ctx } }
    post (buffersPass s (midPair p) (midPair sp)) 25 3 false p sp 0 0
  else s

/-! ### The red card (R88) -/

/-- Slices bound to a port (R166). -/
def portSlices (s : State) (p : Nat) : List Nat :=
  (s.slm.slices.filter fun e => (SMap.find e.2.slots p).isSome).map (·.1)

/-- The request that runs on a carded digest engine is reissued: on the other instance, or ahead of the queue (R88). -/
def dgeMove (s : State) (k : Nat) : State :=
  match SMap.find s.dge.run k with
  | some r =>
    let run := SMap.del s.dge.run k
    if (SMap.find run (1 - k)).isNone ∧ !carded s (midDge (1 - k)) then { s with dge := { s.dge with run := SMap.put run (1 - k) r } }
    else { s with dge := { s.dge with run := run, queue := r :: s.dge.queue } }
  | none => s

/-- A carded engine's buffers pass to the instance `other` that takes its work, or else into quarantine (R383). -/
def engineDrain (s : State) (id other : Nat) : State :=
  if midValid s other && !carded s other then buffersPass s id other else quarantine s fun b => b.holder == id

/-- Step 4 of R88 by master type. -/
def cardDrain (s : State) (id : Nat) : State :=
  let k := id % 16777216
  match id / 16777216 with
  | 1 => sliceSquash (ctxFlush s (fun c => c.slice == some k) SC_SLICE_CARDED) k
  | 2 =>
    let s := ctxVanish s fun c => c.port == k
    let s := quarantine s fun b => (portSlices s k).contains b.acct
    portUpd s k fun p => { p with cfs := true }
  | 3 => quarantine (takeover (fset s (pairField k) 4) k) fun b => b.holder == id
  | 4 =>
    let s := quarantine (fset s (Fld.CHS_STATE_STATE k) 3) fun b => b.holder == id
    channelLost (flushQueues s k ST_CARDED fun _ => true) k 1
  | 5 => quarantine (xtePool (xteReplace s k)) fun b => b.holder == id
  | 6 => engineDrain (fset s (Fld.PVE_INST_STATE k) 3) id (midPve (1 - k))
  | 7 => engineDrain s id (midLdc (k ^^^ 1))
  | 8 => engineDrain (dgeMove (fset s (Fld.DGE_INST_STATE k) 3) k) id (midDge (1 - k))
  | 9 => quarantine (fset s Fld.PKE_STATE_STATE 3) fun b => b.holder == id
  | _ => s

/-- A violation is raised against a master (R86–R88, R90). -/
def raiseVio (s : State) (code blk id addr : Nat) : State :=
  let r := noteVio s code blk id addr
  if r.2 then cardDrain r.1 id else r.1

/-- Step 4 of R88 ends for a carded master; the buffers of a carded master that remain are zeroed (R88, R383). -/
def cardDrainEnd (s : State) (id : Nat) : State :=
  match SMap.find s.acm.cards id with
  | some c =>
    let s := { s with acm := { s.acm with cards := SMap.put s.acm.cards id { c with drained := true } } }
    if id / 16777216 = 1 then quarantineEnd s fun b => b.acct == id % 16777216
    else if id / 16777216 = 2 then quarantineEnd s fun b => (portSlices s (id % 16777216)).contains b.acct
    else quarantineEnd s fun b => b.holder == id
  | none => s

def execCardDrainEnd (id : Nat) (s : State) : Out := .next (cardDrainEnd s id)

/-- Shows a master's card (R87). -/
def cardQuery (s : State) (id : Nat) : State :=
  let show3 := fun (st dr code : Nat) =>
    fset (fset (fset s Fld.ACM_CARD_RESULT_STATE st) Fld.ACM_CARD_RESULT_DRAINED dr) Fld.ACM_CARD_RESULT_CODE code
  match SMap.find s.acm.cards id with
  | some c => show3 c.st (b2n c.drained) c.code
  | none => show3 (if midValid s id then 0 else 3) 0 0

def execAcmCardQuery (m : Master) (v : Word) (s : State) : Out :=
  .next (gated s m Reg.ACM_CARD_QUERY fun s => cardQuery (genWrite s Reg.ACM_CARD_QUERY v) v.toNat)

/-! ### Rows of core pairs and SRAM (R56, R406) -/

def execLockstepMismatch (p : Fin 8) (s : State) : Out :=
  .next (pairRetire (fbiton s Fld.FCX_FAULT_MISMATCH p.val) p.val 1)

def execTcmUe (p : Fin 8) (s : State) : Out :=
  .next (pairRetire (fbiton s Fld.FCX_FAULT_TCM_UE p.val) p.val 4)

/-- The spare takes over the tasks of the lowest-numbered stopped pair whose tasks have not been passed on yet. -/
def execSpareTakeover (s : State) : Out :=
  .next (match (List.range 8).find? fun p => (pairSt s p == 3 || pairSt s p == 4) && !s.fab.passed.contains p with
    | some p => takeover s p
    | none => s)

/-! ### Buffers (R375–R377, R383) -/

/-- A failed check that is a violation cards the master: freeing or handing over what it does not own, or twice (R377). -/
def bufFault (s : State) (st id h : Nat) : State :=
  let s := bufViolation s st
  let s := { s with bpm := { s.bpm with last := (st, h) } }
  if st = ST_DOUBLE_FREE then raiseVio s 4 8 id h
  else if st = ST_NOT_OWNER then raiseVio s 5 8 id h
  else s

/-- A master frees a buffer or chain (R377). -/
def bufFree' (s : State) (id h : Nat) : State :=
  let st := bufCheck s id h
  if st = ST_OK then
    let s := bufFreeOk s h
    { s with bpm := { s.bpm with last := (ST_OK, h) } }
  else bufFault s st id h

def execBufferFree (id : Nat) (h : Word) (s : State) : Out := .next (fwShow (bufFree' s id h.toNat) id false)

/-- A holder hands a buffer over (R376). -/
def bufHandover (s : State) (id h dest : Nat) : State :=
  let st := bufCheck s id h
  if st = ST_OK ∧ (!holdsBuffers s dest || carded s dest) then { s with bpm := { s.bpm with last := (ST_DENIED, h) } }
  else if st = ST_OK then
    let s := bufMap s h fun b => { b with holder := dest }
    { s with bpm := { s.bpm with last := (ST_OK, h) } }
  else bufFault s st id h

def execBufferHandover (id : Nat) (h : Word) (dest : Nat) (s : State) : Out := .next (fwShow (bufHandover s id h.toNat dest) id false)

/-! ### The time base (R60, R62) -/

/-- A new ceiling is stored: device time + 60 s; a held time advances again (R60). Pulses must not be blocked. -/
def ceilingStore (s : State) : State :=
  if pulsesBlocked s then s
  else foff { s with tmb := { s.tmb with ceiling := some (s.tmb.time + 60000000000) } } Fld.TMB_STATUS_HELD

/-- The TMB stores a ceiling whenever device time comes within 30 s of the stored one (R60). -/
def execTimeCeilingStore (s : State) : Out :=
  .next (match s.tmb.ceiling with
    | some c => ceilingStore (if c ≤ s.tmb.time + 30000000000 then s else reach s (c - 30000000000))
    | none => ceilingStore s)

/-- Device time reaches the stored ceiling while pulses are blocked, and is held there (R60). -/
def execTimeCeilingHold (s : State) : Out :=
  .next (match s.tmb.ceiling with
    | some c => if pulsesBlocked s then fon (reach s c) Fld.TMB_STATUS_HELD else s
    | none => s)

/-- The crystal stops (R62). -/
def execCrystalStop (s : State) : Out :=
  .next (match s.tmb.xtalStop with
    | some _ => s
    | none => fon (foff { s with tmb := { s.tmb with xtalStop := some s.tmb.time } } Fld.TMB_STATUS_XTAL_OK) Fld.TMB_STATUS_XTAL_LOSS)

/-- The crystal returns: the record gives the duration of the loss in µs (R62, R584). -/
def execCrystalReturn (s : State) : Out :=
  .next (match s.tmb.xtalStop with
    | some t =>
      let s := fon { s with tmb := { s.tmb with xtalStop := none } } Fld.TMB_STATUS_XTAL_OK
      post s 26 1 false ((s.tmb.time - t) / 1000) 0 0 0
    | none => s)

end Sys2Proof.Machine
end

