-- ==== Sys2Proof/Machine/Tables.lean ====
section
/-! DEFINITION. The tables that the controller keeps in DRAM, byte for byte: zone descriptors, extent lists, run records, the
conventional map, the microcode shadow (R216, R220, R221, R223, R301, R541; notes/assumptions/44.md). -/
namespace Sys2Proof.Machine
open Sys2Proof

/-- LOCATION of a stripe in the SLC staging area: its stripe ID (R301). -/
def stripeId (s : State) (k : Nat) : Nat :=
  let p := keyParts k
  (SMap.getD s.plc.handles (sbKey p.1 p.2.1) 0 * 2048 + p.2.2.1 / 4 % 2048) * 4 + p.2.2.1 % 4

/-- Index of the first run record of a zone: the records of the zones stand in the table in ascending descriptor index. -/
def recordBase (s : State) (zi : Nat) : Nat := runCount (s.zne.zones.filter fun e => decide (e.1 < zi))

/-- RFLAGS of a run (R216). -/
def runFlags (r : Run) : Nat := b2n r.loc1 + 4 * b2n r.folding

/-- A run record (R216). MEMBER counts the data members of both halves of a page where the stripe is one of 7+1. -/
def runBytes (s : State) (r : Run) (next : Nat) : List Byte :=
  le 4 (r.off % 1048576) ++ le 4 (if r.loc1 then stripeId s r.at_ else r.slots.headD 0) ++ le 4 next ++
  le 1 (if r.loc1 then r.member + 7 * (r.at_ % 2) else 0) ++ le 1 r.len ++ le 1 (runFlags r) ++ le 1 0

/-- The run record at an index of the table. -/
def recordBytes (s : State) : SMap Zone → Nat → Nat → List Byte
  | [], _, _ => zeros 16
  | (_, z) :: l, base, i =>
    if i < base + z.runs.length then
      match z.runs[i - base]? with
      | some r => runBytes s r (if i + 1 < base + z.runs.length then i + 1 else 0xFFFFFFFF)
      | none => zeros 16
    else recordBytes s l (base + z.runs.length) i

/-- An extent entry (R221). -/
def extBytes (e : Ext) : List Byte :=
  le 4 (e.off % 1048576) ++ le 4 e.len ++ le 1 e.group ++ le 1 e.mode ++ le 1 (b2n e.par7) ++ le 1 (b2n e.pad + 2 * b2n e.reloc) ++
  le 4 (e.block % 524288 + e.set % 8 * 524288)

/-- ZFLAGS of a zone (R220). -/
def zoneFlags (s : State) (z : Zone) (n : Ns) : Nat :=
  b2n z.reduced + 2 * b2n ((isoNs s n).isSome && zActive z) + 4 * b2n z.action.isSome

/-- Bytes 0–59 of a zone descriptor (R220). -/
def descBody (s : State) (zi : Nat) (z : Zone) (id : Nat) (n : Ns) : List Byte :=
  let base := recordBase s zi
  let k := z.runs.length
  le 8 ((zi - n.base) * zoneUnits n * lbasPerUnit n) ++ le 8 ((zi - n.base) * zoneUnits n * lbasPerUnit n + z.wp) ++ le 4 z.zcap ++ le 4 id ++
  le 1 z.st ++ le 1 (zoneFlags s z n) ++ le 1 z.exts.length ++ le 1 z.cls ++
  le 4 (if k = 0 then 0xFFFFFFFF else base) ++ le 4 (if k = 0 then 0xFFFFFFFF else base + k - 1) ++ le 2 k ++
  le 2 (z.ranges.countP fun r => r.st == 0) ++ le 8 z.last ++ le 2 n.slice ++ le 2 z.resets ++ le 8 z.resv

/-- A zone descriptor with its CRC-32, which does not match while the descriptor is spoilt (R220). -/
def zoneDescBytes (s : State) (zi : Nat) : List Byte :=
  match nsOfZone s zi with
  | some (id, n) =>
    let z := zoneGet s zi
    let b := descBody s zi z id n
    b ++ le 4 (if z.crcBad.isSome then crc32 b ^^^ 0xFFFFFFFF else crc32 b)
  | none => zeros 64

/-- A conventional map entry (R223). -/
def convWord (e : ConvEnt) : Nat :=
  e.seq % 16384 +
  match e.loc with
  | .zero => 0
  | .dram k => 2 ^ 62 + k % 2 ^ 34 * 2 ^ 14
  | .flash die b page unit =>
    2 ^ 63 + e.mode % 4 * 2 ^ 60 + unit % 4 * 2 ^ 58 + die % 2048 * 2 ^ 47 + b % 524288 * 2 ^ 28 + page % 16384 * 2 ^ 14

/-- The byte of the microcode shadow: vendor words, then the customer area (R541). -/
def shadowByte (s : State) (i : Nat) : Byte :=
  if i < 98304 then s.bot.shadow.1.getD i 0
  else BitVec.ofNat 8 (s.bot.shadow.2.getD ((i - 98304) / 16) 0 >>> ((i - 98304) % 16 * 8))

/-- The microcode shadow holds a control store. -/
def shadowKept (s : State) : Bool := !s.bot.shadow.1.isEmpty || !s.bot.shadow.2.isEmpty

/-- Bytes from DRAM address `a` on reach the microcode shadow. -/
def inShadow (s : State) (a n : Nat) : Bool :=
  let b := pget s Reg.BOT_UCODE_SHADOW_LO Reg.BOT_UCODE_SHADOW_HI
  shadowKept s && decide (a < b + 131072 ∧ b < a + n)

/-- The byte a table shows at an offset from a base address, where the offset lies in it. -/
def tableAt (base a n : Nat) (f : Nat → Byte) : Option Byte := if base ≤ a ∧ a < base + n then some (f (a - base)) else none

/-- The byte at a DRAM address where one of the controller's tables stands; the zone tables and the map stand once the engines
that keep them are enabled. -/
def tableByte (s : State) (a : Nat) : Option Byte :=
  let zne := fone s Fld.ZNE_CTRL_EN
  let recs := fget s Fld.ZNE_STG_RECORDS_RECORDS
  let units := fget s Fld.CMP_REGION_UNITS
  let pick := fun (on : Bool) (o : Option Byte) => if on then o else none
  (if shadowKept s then tableAt (pget s Reg.BOT_UCODE_SHADOW_LO Reg.BOT_UCODE_SHADOW_HI) a 131072 (shadowByte s) else none) <|>
  pick zne (tableAt (pget s Reg.ZNE_ZD_BASE_LO Reg.ZNE_ZD_BASE_HI) a 268435456 fun i => (zoneDescBytes s (i / 64)).getD (i % 64) 0) <|>
  pick zne (tableAt (pget s Reg.ZNE_EXT_BASE_LO Reg.ZNE_EXT_BASE_HI) a 4294967296 fun i =>
    match (zoneGet s (i / 1024)).exts[i % 1024 / 16]? with
    | some e => (extBytes e).getD (i % 16) 0
    | none => 0) <|>
  pick zne (tableAt (pget s Reg.ZNE_STG_BASE_LO Reg.ZNE_STG_BASE_HI) a (16 * recs) fun i =>
    (recordBytes s s.zne.zones 0 (i / 16)).getD (i % 16) 0) <|>
  pick (fone s Fld.CMP_CTRL_EN) (tableAt (pget s Reg.CMP_BASE_LO Reg.CMP_BASE_HI) a (8 * units) fun i =>
    match SMap.find s.zne.conv (i / 8) with
    | some e => BitVec.ofNat 8 (convWord e >>> (i % 8 * 8))
    | none => 0)

/-- The byte of an SRAM or of DRAM, by fabric address or 2^40 + DRAM address; DRAM shows the tables that the controller keeps there. -/
def memByte (s : State) (k : Nat) : Byte :=
  match (if k < 1099511627776 then none else tableByte s (k - 1099511627776)) with
  | some b => b
  | none => SMap.getD s.fab.mem k 0

/-- Puts bytes from a memory's key on. -/
def memPut (s : State) (k : Nat) (b : List Byte) : State :=
  { s with fab := { s.fab with mem := (b.foldl (fun (e : Nat × SMap Byte) x => (e.1 + 1, SMap.putD e.2 e.1 0 x)) (k, s.fab.mem)).2 } }

end Sys2Proof.Machine
end

