-- ==== Sys2Proof/Machine/Seq.lean ====
section
/-! DEFINITION. The channel sequencers: descriptors, checks, die operations, completions, suspends, the bus, machine checks
and the sequencer reset (R332–R353, R358–R360). -/
namespace Sys2Proof.Machine
open Sys2Proof

/-! ### Queues and chains (R335, R339) -/

/-- DFLAGS.JOIN of a descriptor. -/
def joins (d : Desc) : Bool := d.flags.testBit 6

/-- The chain at the head of the program queue. -/
def chainHead : List Desc → List Desc
  | [] => []
  | d :: ds => if joins d then d :: chainHead ds else [d]

/-- The last descriptor of the chain has been posted. -/
def chainWhole (l : List Desc) : Bool := match l.getLast? with | some d => !joins d | none => false

/-- A queue cut into chains, each with its place; queues other than the program queue hold single descriptors. -/
def chainsOf (q : Nat) : Nat → Nat → List Desc → List (Nat × List Desc)
  | 0, _, _ => []
  | _, _, [] => []
  | n + 1, i, d :: ds =>
    let l := if q = 2 then chainHead (d :: ds) else [d]
    (i, l) :: chainsOf q n (i + l.length) ((d :: ds).drop l.length)

/-- The first chain of a queue that satisfies `p` and whose die context is idle; none of a chain starts before its last
descriptor has been posted (R339). -/
def pickChain (c : Chs) (q : Nat) (p : List Desc → Bool) : Option (Nat × List Desc) :=
  (chainsOf q (qGet c q).length 0 (qGet c q)).find? fun e =>
    chainWhole' q e.2 && p e.2 && (match e.2 with | d :: _ => (SMap.find c.ctx d.die).isNone | [] => false)
where
  chainWhole' (q : Nat) (l : List Desc) : Bool := q != 2 || chainWhole l

/-- The first such chain of queues 0 to 3, with its queue. -/
def pickAny (c : Chs) (p : List Desc → Bool) : Option (Nat × Nat × List Desc) :=
  (List.range 4).findSome? fun q => (pickChain c q p).map fun e => (q, e.1, e.2)

/-- A write of CHS_POST_GO: ignored while the DSC block is enabled (R336). -/
def wrPostGo (s : State) (ch : Nat) (v : Word) : State :=
  if fone s Fld.DSC_CTRL_EN then s
  else
    let s := fset s (Fld.CHS_POST_GO_QUEUE ch) (bits v.toNat 0 2)
    if bit v.toNat 8 then postPending (fon s (Fld.CHS_POST_GO_GO ch)) ch else s

/-- The channel exists on the part (R3). -/
def chPresent (s : State) (ch : Nat) : Bool := !s.part.is7632 || decide (ch < 32)

def execChsPost (m : Master) (ch : Fin 64) (v : Word) (s : State) : Out :=
  .next (gated s m (Reg.CHS_POST_GO ch.val) fun s => if chPresent s ch.val then wrPostGo s ch.val v else s)

/-! ### The sequence table (R342, R343) -/

def seqFind (c : Chs) (die block : Nat) : Option (Nat × SeqEnt) :=
  c.seq.find? fun e => e.1 / 64 == die && e.2.block == block

/-- The lowest free entry of a die. -/
def seqFree (c : Chs) (die : Nat) : Option Nat := (List.range 64).find? fun i => (SMap.find c.seq (die * 64 + i)).isNone

/-- Removes a block's entry. -/
def seqDel (c : Chs) (die block : Nat) : Chs := { c with seq := c.seq.filter fun e => !(e.1 / 64 == die && e.2.block == block) }

/-- An erase with good status creates the block's entry, in place of one already held (R342). -/
def seqErase (c : Chs) (die block mode : Nat) : Chs :=
  match seqFind c die block with
  | some e => { c with seq := SMap.put c.seq e.1 ⟨block, mode, 0⟩ }
  | none =>
    match seqFree c die with
    | some i => { c with seq := SMap.put c.seq (die * 64 + i) ⟨block, mode, 0⟩ }
    | none => c

/-- A program with good status advances NEXT; at the mode's pages per block the entry goes (R342). -/
def seqAdvance (c : Chs) (die block pages : Nat) : Chs :=
  match seqFind c die block with
  | some e =>
    if pages ≤ e.2.next + 1 then { c with seq := SMap.del c.seq e.1 }
    else { c with seq := SMap.put c.seq e.1 { e.2 with next := e.2.next + 1 } }
  | none => c

/-- The table permits the program (R343). -/
def seqPermits (c : Chs) (d : Desc) : Bool :=
  match seqFind c d.die d.block with
  | some e => e.2.mode == d.mode && e.2.next == d.page
  | none => false

/-! ### Checks (R335, R338–R340) -/

/-- The queue a descriptor belongs in (R335): URGENT reads stand in queue 0. -/
def rightQueue (q : Nat) (d : Desc) : Bool :=
  if d.op = 1 then q == 0 || (q == 1 && !d.flags.testBit 2) else if d.op = 2 then q == 2 else q == 3

/-- A data reference is present. -/
def hasRef (d : Desc) (k : Nat) : Bool := match d.data.getD k .none with | .none => false | _ => true

/-- R338 refuses the descriptor. -/
def descBad (s : State) (ch q : Nat) (d : Desc) : Bool :=
  let die := 32 * ch + d.die
  let pages := pagesOf s ch d.mode
  (0x80 ≤ d.op && fget s (Fld.CHS_UCODE_STATE ch) != 2) ||
  decide (32 ≤ d.die) || dieGone s die || d.mode == 3 || pages == 0 ||
  decide (s.part.dieBlocks ≤ d.block) || decide (pages ≤ d.page) || !rightQueue q d ||
  (d.op == 1 && (d.units % 16 == 0 || (List.range 4).any fun k => d.units.testBit k && !hasRef d k)) ||
  (d.op == 2 && (List.range 4).any fun k => !hasRef d k) ||
  ((d.op == 2 || d.op == 3) && !fone s (Fld.CHS_CTRL_PROG_EN ch))

/-- A chain breaks the rules of a joined program (R339). -/
def joinBad (s : State) (ch : Nat) (l : List Desc) : Bool :=
  match l with
  | [] => true
  | [_] => false
  | d :: ds =>
    let np := planesOf s ch
    let planes := l.map fun x => x.block % np
    decide (4 < l.length) || ds.any (fun x => x.op != 2 || x.die != d.die || x.page != d.page || x.mode != d.mode || x.call != d.call) ||
    d.mode == 0 || decide (planes.eraseDups.length ≠ planes.length)

/-- An erase of the block is held suspended on the die (R340). -/
def eraseHeld (c : Chs) (die block : Nat) : Bool :=
  match SMap.find c.slot die with
  | some x => x.chain.any fun d => d.op == 3 && d.block == block
  | none => false

/-- Completes every descriptor of a chain without touching the die. -/
def refuseAll (s : State) (ch : Nat) (l : List Desc) (st : Nat) : State :=
  l.foldl (fun s d => complete s ch (refusedEnt d st)) s

/-- A violation of a sequencer (R86, R350, R355): CHS_VIO, its event, the red card. -/
def chsVio (s : State) (ch die code kind a : Nat) : State :=
  let s := fset (fset (fset s (Fld.CHS_VIO_ADDR ch) a) (Fld.CHS_VIO_DIE ch) die) (Fld.CHS_VIO_KIND ch) kind
  let s := fon (fon s (Fld.CHS_VIO_VALID ch)) (Fld.CHS_EVENTS_VIOLATION ch)
  raiseVio s code 29 (midChs ch) a

/-- A fresh context that serves a chain. -/
def ctxNew (chain : List Desc) (q t : Nat) : DieCtx :=
  { queue := q, yieldAt := t, chain := chain, addr := 0, w := List.replicate 8 0, cnt := 0, timer := 0, stack := [], vis := false, commit := false,
    status := none, dstat := 0, began := t, susp := 0 }

/-- The DSC block's issued operations with these tags start (R269). -/
def dscStart (s : State) (die : Nat) (l : List Desc) : State :=
  let t := now s
  let ops := sentOf s die
  if ops.any fun o => l.any fun d => d.tag == o.id then
    { s with dsc := { s.dsc with
        sent := SMap.del s.dsc.sent die,
        run := SMap.put s.dsc.run die (ops.map fun o => { o with started := t }) } }
  else s

/-- The sequencer takes work: enabled, not carded, reloading or lost, no machine check, room in the FIFO (R346, R358). -/
def chsReady (s : State) (ch : Nat) : Bool :=
  let c := chsOf s ch
  let st := fget s (Fld.CHS_STATE_STATE ch)
  chPresent s ch && fone s (Fld.CHS_CTRL_EN ch) && st != 3 && st != 4 && st != 5 && !c.mc &&
  decide (c.fifo.length < 16) && c.ovr.isEmpty

/-- The DRAM data references of a chain. -/
def dramRefs (l : List Desc) : List Nat :=
  l.flatMap fun d => if d.op = 1 ∨ d.op = 2 then d.data.filterMap fun r => match r with | .dram a => some a | _ => none else []

/-- A DRAM data reference lies at or above DMC_TOP (R391). -/
def refsOut (s : State) (l : List Desc) : Bool :=
  (dramRefs l).any fun a => decide (pget s Reg.DMC_TOP_LO Reg.DMC_TOP_HI < a + 4608)

/-- Takes a chain out of its queue and starts it, or completes it without touching the die (R338–R343, R352). -/
def startChain (s : State) (ch q i : Nat) (l : List Desc) : State :=
  match l with
  | [] => s
  | d :: _ =>
    let c0 := chsOf s ch
    let c := qPut c0 q ((qGet c0 q).take i ++ (qGet c0 q).drop (i + l.length))
    let s1 := postPending (chsPut s ch c) ch
    if pfail s && l.any (fun x => !x.flags.testBit 0) then refuseAll s1 ch l ST_SQUASHED
    else if l.any (descBad s ch q) || joinBad s ch l then
      refuseAll (fon s1 (Fld.CHS_EVENTS_DESC_INVALID ch)) ch l ST_DESC_INVALID
    else if refsOut s l then refuseAll (fon s1 Fld.DMC_EVENTS_RANGE_ERROR) ch l ST_DRAM_RANGE
    else if d.op = 12 then complete (chsPut s1 ch (seqDel (chsOf s1 ch) d.die d.block)) ch (refusedEnt d ST_OK)
    else if d.op = 1 ∧ eraseHeld c0 d.die d.block then
      refuseAll (fon s1 (Fld.CHS_EVENTS_ERASE_SUSP_REFUSED ch)) ch l ST_ERASE_SUSPENDED
    else if (d.op = 2 ∨ d.op = 3) ∧ (SMap.find c0.slot d.die).isSome then refuseAll s1 ch l ST_DIE_SUSPENDED
    else if d.op = 2 ∧ l.any (fun x => !seqPermits c0 x) then chsVio s ch d.die 7 5 0
    else if d.op = 3 ∧ (seqFind c0 d.die d.block).isNone ∧ (seqFree c0 d.die).isNone then
      refuseAll (fon s1 (Fld.CHS_EVENTS_SEQ_FULL ch)) ch l ST_SEQ_FULL
    else
      let c1 := chsOf s1 ch
      let x := ctxNew l q (now s)
      let s := chsPut s1 ch { c1 with ctx := SMap.put c1.ctx d.die x, want := c1.want ++ [d.die] }
      let s := if d.op = 1 then finc s (Fld.CHS_COUNT_COUNT ch 0)
        else if d.op = 2 then finc s (Fld.CHS_COUNT_COUNT ch 1)
        else if d.op = 3 then finc s (Fld.CHS_COUNT_COUNT ch 2) else s
      dscStart s (32 * ch + d.die) l

/-- A chain of operation `op`: of one descriptor, or of joined programs. Only PROGRAMs join: another operation that heads a chain in the
program queue stands in the wrong queue (R335, R338). -/
def headIs (op : Nat) (joined : Bool) (l : List Desc) : Bool :=
  (match l with | d :: _ => d.op == op | [] => false) && (op != 2 || decide (2 ≤ l.length) == joined)

/-- A chain of READs. -/
def headRead (l : List Desc) : Bool := match l with | d :: _ => d.op == 1 | [] => false

/-- A chain of CUSTOMER operations. -/
def headCust (l : List Desc) : Bool := match l with | d :: _ => decide (0x80 ≤ d.op) | [] => false

/-- Takes the first descriptor of an operation whose die context is idle; `joined` selects chains of two or more. -/
def takeOp (s : State) (ch op : Nat) (joined : Bool) : State :=
  if chsReady s ch then
    match pickAny (chsOf s ch) (headIs op joined) with
    | some (q, i, l) => startChain s ch q i l
    | none => s
  else s

/-- Takes the first READ of queue `q` whose die context is idle. -/
def execDescRead (ch : Fin 64) (q : Fin 4) (s : State) : Out :=
  .next (if chsReady s ch.val then
      match pickChain (chsOf s ch.val) q.val headRead with
      | some (i, l) => startChain s ch.val q.val i l
      | none => s
    else s)

def execDescProgram (ch : Fin 64) (s : State) : Out := .next (takeOp s ch.val 2 false)
def execDescJoinedProgram (ch : Fin 64) (s : State) : Out := .next (takeOp s ch.val 2 true)
def execDescErase (ch : Fin 64) (s : State) : Out := .next (takeOp s ch.val 3 false)
def execDescReadStatus (ch : Fin 64) (s : State) : Out := .next (takeOp s ch.val 4 false)
def execDescGetFeatures (ch : Fin 64) (s : State) : Out := .next (takeOp s ch.val 5 false)
def execDescSetFeatures (ch : Fin 64) (s : State) : Out := .next (takeOp s ch.val 6 false)
def execDescReadId (ch : Fin 64) (s : State) : Out := .next (takeOp s ch.val 7 false)
def execDescReadParam (ch : Fin 64) (s : State) : Out := .next (takeOp s ch.val 8 false)
def execDescResetDie (ch : Fin 64) (s : State) : Out := .next (takeOp s ch.val 9 false)
def execDescZqCal (ch : Fin 64) (s : State) : Out := .next (takeOp s ch.val 10 false)
def execDescTrain (ch : Fin 64) (s : State) : Out := .next (takeOp s ch.val 11 false)
def execSeqClose (ch : Fin 64) (s : State) : Out := .next (takeOp s ch.val 12 false)

/-! ### The bus (R353) -/

/-- The rank of a context among those that want the bus. -/
def busRank (s : State) (x : DieCtx) : Nat :=
  match x.chain with
  | [] => 6
  | d :: _ =>
    if pfail s && d.flags.testBit 0 then 1
    else if d.op = 1 then (if x.queue = 0 then 2 else 3)
    else if d.op = 2 then (if d.flags.testBit 2 then 4 else 5)
    else 6

/-- The context's descriptor carries DFLAGS.ISO. -/
def ctxIso (x : DieCtx) : Bool := x.chain.any fun d => d.flags.testBit 1

/-- The isolation cap applies: an ISO context waits for the bus. -/
def isoWaits (s : State) (ch : Nat) (want : List Nat) : Bool :=
  fone s (Fld.CHS_CTRL_ISO_CAP_EN ch) && want.any fun p =>
    match SMap.find (chsOf s ch).ctx p with | some x => ctxIso x | none => false

/-- The rank with the isolation cap: waiting ISO contexts come before ranks 2 to 6. -/
def grantRank (s : State) (ch : Nat) (want : List Nat) (p : Nat) : Nat :=
  match SMap.find (chsOf s ch).ctx p with
  | some x =>
    let r := busRank s x
    if isoWaits s ch want && ctxIso x && r != 1 then 1 else if r = 1 then 0 else r
  | none => 7

/-- The longest burst that a context may start (R353): ISO_BURST while an ISO context waits, for one that is none itself, else
MAX_BURST; at SDR rates 64 bytes (R350). -/
def burstCap (s : State) (ch : Nat) (want : List Nat) (x : DieCtx) : Nat :=
  let most := clamp 512 16384 (fget s (Fld.CHS_BURST_MAX_BURST ch))
  let cap := if isoWaits s ch want && !ctxIso x then min most (fget s (Fld.CHS_BURST_ISO_BURST ch)) else most
  if fget s (Fld.CHS_BUS_IF ch) = 0 ∨ fget s (Fld.CHS_BUS_IF ch) = 3 then min 64 cap else cap

/-- Bursts that move `n` bytes. -/
def bursts (cap n : Nat) : Nat := (n + cap - 1) / cap

/-- Bytes that a chain's descriptors burst over the bus: each named codeword of a READ, the page of each PROGRAM (R333, R337). -/
def chainBytes (l : List Desc) : Nat :=
  l.foldl (fun n d => n + 4608 * (if d.op = 1 then (List.range 4).countP d.units.testBit else if d.op = 2 then 4 else 0)) 0

/-- Counts the capped bursts of a transfer of `n` bytes in pieces that MAX_BURST would have let be longer (R353). -/
def cappedCount (s : State) (ch : Nat) (want : List Nat) (x : DieCtx) (n : Nat) : State :=
  if isoWaits s ch want && !ctxIso x then fadd s (Fld.CHS_COUNT_COUNT ch 6) (bursts (burstCap s ch want x) n) else s

/-- The command bytes of an operation (R333), by the channel's interface: ONFI's, or JESD230's where they differ. -/
def opCommands (toggle joined : Bool) (die op units : Nat) : List Nat :=
  match op with
  | 1 => [0x00, 0x30] ++ (List.replicate ((List.range 4).countP units.testBit) (if toggle then [0x05, 0xE0] else [0x06, 0xE0])).flatten
  | 2 => if joined then Config.dieCommand die 2 else [0x80, 0x85, 0x85, 0x85, 0x10]
  | 3 => [0x60, 0xD0]
  | 4 => [0x78]
  | 5 => [0xD4]
  | 6 => [0xD5]
  | 7 => [0x90, 0xED]
  | 8 => [0xEC]
  | 9 => [0xFA]
  | 10 => [0xF9]
  | 11 => Config.dieCommand die 3
  | _ => []

/-- The command bytes last issued to a die. -/
def issued (s : State) (die : Nat) (l : List Nat) : State :=
  { s with flash := { s.flash with cmds := SMap.put s.flash.cmds die l } }

/-- The context to which the bus goes: the best rank, within it the first at or after the token. -/
def busNext (s : State) (ch : Nat) : Option Nat :=
  let c := chsOf s ch
  let order := ((List.range 32).map fun i => (c.token + i) % 32).filter c.want.contains
  order.foldl (fun best p =>
    match best with
    | none => some p
    | some b => if grantRank s ch c.want p < grantRank s ch c.want b then some p else some b) none

/-- The context of a die becomes idle and holds the bus no more. -/
def ctxIdle (s : State) (ch p : Nat) : State :=
  let c := chsOf s ch
  takenSettle <| chsPut s ch
    { c with ctx := SMap.del c.ctx p, want := c.want.filter (· != p), bus := if c.bus = some p then none else c.bus }

/-- The end of one that power-fail stops before it has touched its die (R352). -/
def ctxSquashed (s : State) (ch p : Nat) (x : DieCtx) : State :=
  x.chain.foldl (fun s d => complete s ch (refusedEnt d ST_SQUASHED)) (ctxIdle s ch p)

/-- Power-fail stops a routine at its first word: one without FLUSH that has not executed its VIS word (R350, R352). -/
def failStops (s : State) (x : DieCtx) : Bool :=
  pfail s && !x.vis && x.chain.all fun d => !d.flags.testBit 0 && decide (d.op < 0x80)

/-- An operation whose first bus word starts an array phase, or changes the die's settings: its command cycle is marked VIS. -/
def hasArray (op : Nat) : Bool := op == 1 || op == 2 || op == 3

/-- The context that holds the bus runs a customer routine: its own words release it (R353). -/
def busKept (c : Chs) : Bool :=
  match c.bus with
  | some p => (match SMap.find c.ctx p with | some x => x.chain.any fun d => decide (0x80 ≤ d.op) | none => false)
  | none => false

/-- The bus is released and granted to the next context that wants it; its command cycles are issued, and an array phase begins
(R345, R353). The bursts of another context while an ISO context still waits are capped. -/
def busGrant (s : State) (ch : Nat) : State :=
  if busKept (chsOf s ch) then s else
  match busNext s ch with
  | none => chsPut s ch { chsOf s ch with bus := none }
  | some p =>
    let c := chsOf s ch
    let want := c.want.filter (· != p)
    match SMap.find c.ctx p with
    | none => chsPut s ch { c with want := want }
    | some x =>
      if failStops s x then ctxSquashed s ch p x else
      let t := now s
      let op := match x.chain with | d :: _ => d.op | [] => 0
      let x' := { x with vis := x.vis || hasArray op || op == 6, began := if op < 0x80 then t else x.began, yieldAt := t }
      let s := chsPut s ch { c with want := want, bus := some p, token := (p + 1) % 32, ctx := SMap.put c.ctx p x' }
      let s := cappedCount s ch want x (chainBytes x.chain)
      let s := if op < 0x80 then issued s (32 * ch + p)
          (opCommands (fget s (Fld.CHS_BUS_IF ch) == 2) (decide (2 ≤ x.chain.length)) (32 * ch + p) op (match x.chain with | d :: _ => d.units | [] => 0))
        else s
      let s := (dramRefs x.chain).foldl (fun s _ => rtAsk s 4608) s
      let die := 32 * ch + p
      { s with dsc := { s.dsc with run := SMap.upd s.dsc.run die fun l => l.map fun o => { o with started := t } } }

def execBusGrant (ch : Fin 64) (s : State) : Out := .next (busGrant s ch.val)

/-! ### Completions (R342, R345, R346) -/

/-- The entry of descriptor `d` of a context. -/
def ctxEnt (x : DieCtx) (d : Desc) (st array dstat : Nat) : CEnt :=
  { tag := d.tag, status := st, die := d.die, op := d.op, array := sat 32 array, flags := entFlags d x.susp,
    susp := x.susp, dstat := dstat % 256, fatal := decide (256 ≤ dstat) }

/-- Where a LUN feature stands. -/
def featKey (ch p a : Nat) : Nat := (ch * 32 + p) * 65536 + a

/-- The DSC block issued the descriptor: it moves the data of its operations itself (R269, R347). -/
def dscOwns (s : State) (die tag : Nat) : Bool :=
  (sentOf s die ++ runOf s die ++ (match SMap.find s.dsc.susp die with | some (l, _) => l | none => [])).any fun o => o.id == tag

/-- Puts bytes where a data reference points, from byte `o` on (R337). -/
def refPut (s : State) (r : DRef) (o : Nat) (b : List Byte) : State :=
  match r with
  | .slab h => handlePut s h o b
  | .dram a => memPut s (1099511627776 + a + o) b
  | .none => s

/-- `n` bytes from byte `o` on of what a data reference points at. -/
def refGet (s : State) (r : DRef) (o n : Nat) : List Byte :=
  match r with
  | .slab h => if hCurrent s h then handleRead s h o n else zeros n
  | .dram a => (List.range n).map fun i => memByte s (1099511627776 + a + o + i)
  | .none => []

/-- The codeword at a unit position of a physical page: its information bytes, and its 480 bytes of parity, which are open (R295). -/
def codewordBytes (s : State) (die block page u : Nat) : List Byte := le 4128 (unitAt s die block page u) ++ le 480 (openVal s)

/-- What a descriptor that the DSC block did not issue moves when it ends well: the named codewords to their references, the four
codewords of a page to the die, the erase of a block, the bytes of a register read (R337). -/
def descMoves (s : State) (ch : Nat) (d : Desc) (vals : List Nat) : State :=
  let die := 32 * ch + d.die
  if dscOwns s die d.tag then s
  else if d.op = 1 then
    openTaken ((List.range 4).foldl (fun t k =>
      if d.units.testBit k then refPut t (d.data.getD k .none) 0 (codewordBytes s die d.block d.page k) else t) s)
  else if d.op = 2 then
    let us := (List.range 4).map fun k => leNat (refGet s (d.data.getD k .none) 0 4128)
    { s with med := { s.med with pages := SMap.put s.med.pages (pageKey die d.block d.page) us } }
  else if d.op = 3 then usedRefresh (blockErased s die d.block d.mode)
  else if d.op = 5 ∨ d.op = 11 then refPut s (d.data.getD 0 .none) 0 ((vals.take 4).map (BitVec.ofNat 8))
  else if d.op = 7 then refPut s (d.data.getD 0 .none) 0 ((vals.take 64).map (BitVec.ofNat 8))
  else if d.op = 8 then
    (List.range 4).foldl (fun s k => refPut s (d.data.getD k .none) 0 (((vals.drop (4608 * k)).take 4608).map (BitVec.ofNat 8))) s
  else s

/-- What GET_FEATURES returns: the value that SET_FEATURES put there, else the die's own (R337). -/
def featVals (s : State) (ch : Nat) (d : Desc) (vals : List Nat) : List Nat :=
  if d.op = 5 then
    match SMap.find s.flash.feats (featKey ch d.die d.param) with
    | some v => (le 4 v).map (·.toNat)
    | none => vals
  else vals

/-- The suspended operation of a die ends with a reset of the die: one entry a descriptor (R345; its status is a DESIGN CHOICE,
notes/assumptions/72.md). -/
def suspLost (s : State) (ch p : Nat) : State :=
  match SMap.find (chsOf s ch).slot p with
  | some x =>
    let s := chsPut s ch { chsOf s ch with slot := SMap.del (chsOf s ch).slot p }
    x.chain.foldl (fun s d => complete s ch (ctxEnt x d ST_SQUASHED 0 x.dstat)) s
  | none => s

/-- RESET_DIE: Reset LUN, and where the die reports that it failed, Reset of the chip enable, which resets each of its four LUNs
(R333, R337). -/
def dieReset (s : State) (ch p : Nat) (fail : Bool) : State :=
  if fail then (List.range 4).foldl (fun s k => issued (suspLost s ch (p / 4 * 4 + k)) (32 * ch + p / 4 * 4 + k) [0xFF]) s
  else suspLost s ch p

/-- The end of one descriptor of a running operation; `fail` is what the die reports for it. A TRAIN step that fails loses the channel
(R316; notes/assumptions/74.md). -/
def descEnd (s : State) (ch p : Nat) (x : DieCtx) (d : Desc) (array dstat : Nat) (fail : Bool) (vals : List Nat) : State :=
  let c := chsOf s ch
  if d.op = 2 then
    if fail then
      let s := fon (chsPut s ch (seqDel c p d.block)) (Fld.CHS_EVENTS_PROGRAM_FAIL ch)
      complete (post s 29 2 false ch p d.block d.page) ch (ctxEnt x d ST_PROGRAM_FAIL array dstat)
    else complete (descMoves (chsPut s ch (seqAdvance c p d.block (pagesOf s ch d.mode))) ch d vals) ch (ctxEnt x d ST_OK array dstat)
  else if d.op = 3 then
    if fail then
      let s := fon (chsPut s ch (seqDel c p d.block)) (Fld.CHS_EVENTS_ERASE_FAIL ch)
      complete (post s 29 3 false ch p d.block 0) ch (ctxEnt x d ST_ERASE_FAIL array dstat)
    else complete (descMoves (chsPut s ch (seqErase c p d.block d.mode)) ch d vals) ch (ctxEnt x d ST_OK array dstat)
  else
    let vals := featVals s ch d vals
    let s := descMoves s ch d vals
    let s := if d.op = 6 then
        { s with flash := { s.flash with feats := SMap.put s.flash.feats (featKey ch p d.param) d.param2 } }
      else if d.op = 5 ∨ d.op = 7 ∨ d.op = 8 ∨ d.op = 11 then
        { s with flash := { s.flash with data := SMap.put s.flash.data (ch * 32 + p) vals } }
      else s
    let s := if d.op = 9 then dieReset s ch p fail else if d.op = 11 && fail then channelLost s ch 2 else s
    complete s ch (ctxEnt x d ST_OK (if d.op = 1 then array else 0) dstat)

/-- A suspend request that finds its operation ended, or past COMMIT, is ignored (R351, R360). -/
def askDrop (s : State) (die : Nat) : State := { s with dsc := { s.dsc with asked := s.dsc.asked.filter (· != die) } }

/-- A die operation ends: one entry a descriptor (R339, R345); `fails` has bit k set when descriptor k's plane failed. A
context that has not had the bus has not touched the die. The array time is measured in steps of 40 ns on device time, which has run at
least that far since the array phase began. The routine has passed its COMMIT word by then, so a suspend request still pending is not
taken (R351). -/
def opComplete (s : State) (ch p array dstat fails : Nat) (vals : List Nat) : State :=
  let c := chsOf s ch
  match SMap.find c.ctx p with
  | none => s
  | some x =>
    if c.mc || c.want.contains p || x.chain.any (fun d => 0x80 ≤ d.op) then s
    else
      let a := array / 40 * 40
      let s := askDrop (ctxIdle (if x.chain.any fun d => hasArray d.op then reach s (x.began + a) else s) ch p) (32 * ch + p)
      (x.chain.zip (List.range x.chain.length)).foldl (fun s e =>
        descEnd s ch p x e.1 a dstat (fails.testBit e.2) vals) s

def execOperationComplete (ch : Fin 64) (die : Fin 32) (array dstat fails : Nat) (vals : List Nat) (s : State) : Out :=
  .next (opComplete s ch.val die.val array dstat fails vals)

/-- The ready WAIT of a running operation expires: RESET_DIE's sequence is issued, and an operation suspended on the die is lost with it
(R349, R360). -/
def dieTimeout (s : State) (ch p : Nat) : State :=
  let c := chsOf s ch
  match SMap.find c.ctx p with
  | none => s
  | some x =>
    if c.mc || c.want.contains p then s
    else
      let s := reach s (x.began + fget s Fld.LDC_MED_DIE_TIMEOUT_MS * 1000000)
      let s := fon (finc s (Fld.CHS_COUNT_COUNT ch 7)) (Fld.CHS_EVENTS_DIE_TIMEOUT ch)
      let s := post s 29 4 false ch p (match x.chain with | d :: _ => d.op | [] => 0) 0
      let s := issued (suspLost (askDrop (ctxIdle s ch p) (32 * ch + p)) ch p) (32 * ch + p) [0xFA]
      x.chain.foldl (fun s d => complete s ch (ctxEnt x d ST_DIE_TIMEOUT 0 x.dstat)) s

def execDieTimeout (ch : Fin 64) (die : Fin 32) (s : State) : Out := .next (dieTimeout s ch.val die.val)

/-! ### Suspend and resume (R351, R352) -/

/-- A suspend or resume entry. -/
def suspEnt (x : DieCtx) (op n : Nat) : CEnt :=
  match x.chain with
  | d :: _ => { tag := d.tag, status := ST_OK, die := d.die, op := op, array := 0, flags := entFlags d n, susp := n, dstat := x.dstat }
  | [] => { tag := 0, status := ST_OK, die := 0, op := op, array := 0, flags := 0, susp := n, dstat := 0 }

/-- A suspend request is taken at a yield point of a PROGRAM or ERASE that has executed its VIS word and not passed COMMIT,
no earlier than its minimum progress interval; otherwise it is ignored (R278, R351). -/
def suspendTaken (s : State) (ch p : Nat) : State :=
  let die := 32 * ch + p
  let c := chsOf s ch
  if !s.dsc.asked.contains die then s
  else
    let s := { s with dsc := { s.dsc with asked := s.dsc.asked.filter (· != die) } }
    match SMap.find c.ctx p with
    | none => s
    | some x =>
      let ok := x.chain.any fun d => d.op == 2 || d.op == 3
      let urgent := (runOf s die).any (·.urgent)
      if !ok || !x.vis || x.commit || c.mc || c.want.contains p || (SMap.find c.slot p).isSome || urgent then s
      else
        let s := match runOf s die with
          | o :: _ => reach s (suspEarliest s o)
          | [] => s
        let x' := { x with susp := x.susp + 1 }
        let s := finc (issued (ctxIdle s ch p) die (Config.dieCommand die 0)) (Fld.CHS_COUNT_COUNT ch 3)
        let c := chsOf s ch
        complete (chsPut s ch { c with slot := SMap.put c.slot p x' }) ch (suspEnt x 0xF1 x'.susp)

def execSuspendTaken (ch : Fin 64) (die : Fin 32) (s : State) : Out := .next (suspendTaken s ch.val die.val)

/-- The call of the die's suspended operation has been granted again (R270, R279); the DSC block knows of none before it has taken the
suspend entry. -/
def resumeCall (s : State) (die : Nat) : Bool :=
  match SMap.find s.dsc.susp die with
  | some (o :: _, _) => callOk s o
  | _ => false

/-- Resuming is due: the window has passed, the operation is urgent, or no read waits for the suspended die (R279). -/
def resumeDue (s : State) (die : Nat) : Bool :=
  s.dsc.back.contains die || (match SMap.find s.dsc.susp die with | some (l, _) => l.any (·.urgent) | none => false) ||
  !((queueOf s die ++ sentOf s die).any fun o => o.kind == 0 && suspClass s o.cls)

/-- An idle context restores the suspended routine and resumes the die; never once power-fail is asserted (R351, R352). -/
def resumeTaken (s : State) (ch p : Nat) : State :=
  let die := 32 * ch + p
  let c := chsOf s ch
  match SMap.find c.slot p with
  | none => s
  | some x =>
    if c.mc || carded s (midChs ch) || pfail s || (SMap.find c.ctx p).isSome || c.ovr.any (fun e => e.die == p) || !resumeCall s die || !resumeDue s die then s
    else
      let s := { s with dsc := { s.dsc with back := s.dsc.back.filter (· != die) } }
      let s := issued s die (Config.dieCommand die 1)
      complete (chsPut s ch { c with slot := SMap.del c.slot p, ctx := SMap.put c.ctx p { x with yieldAt := now s } }) ch
        (suspEnt x 0xF2 x.susp)

def execResumeTaken (ch : Fin 64) (die : Fin 32) (s : State) : Out := .next (resumeTaken s ch.val die.val)

/-! ### Watchdogs and machine checks (R350, R355, R358) -/

/-- The yield interval in µs: 0 is treated as 1, values above 8 as 8. -/
def yieldUs (s : State) (ch : Nat) : Nat := clamp 1 8 (fget s (Fld.CHS_YIELD_YIELD_US ch))

/-- The routine runs: it has the bus, or is a customer's and does not wait in a WAIT word (R350). A routine that waits for the bus, or in
its array phase for its die, stands at a yield point. -/
def ctxRuns (c : Chs) (p : Nat) (x : DieCtx) : Bool :=
  c.bus == some p || (x.chain.any (fun d => decide (0x80 ≤ d.op)) && x.wait.isNone && !c.want.contains p)

/-- A routine runs past its yield interval, measured on device time from its last yield point (R350): `a` is the word it has reached. -/
def yieldOverrun (s : State) (ch p a : Nat) : State :=
  match SMap.find (chsOf s ch).ctx p with
  | some x =>
    let due := x.yieldAt + yieldUs s ch * 1000
    let s := if ctxRuns (chsOf s ch) p x then reach s due else s
    if !ctxRuns (chsOf s ch) p x || (chsOf s ch).mc || decide (now s < due) then s else chsVio s ch p 9 7 a
  | none => s

def execYieldOverrun (ch : Fin 64) (die : Fin 32) (a : Nat) (s : State) : Out := .next (yieldOverrun s ch.val die.val a)

/-- A customer routine runs for more than CUST_MAX_US from its first word (R355). -/
def custOverrun (s : State) (ch p a : Nat) : State :=
  match SMap.find (chsOf s ch).ctx p with
  | some x =>
    if x.chain.any fun d => 0x80 ≤ d.op then
      let due := x.began + fget s (Fld.CHS_YIELD_CUST_MAX_US ch) * 1000
      if now (reach s due) < due then reach s due else chsVio (reach s due) ch p 7 7 a
    else s
  | none => s

def execCustomerRoutineOverrun (ch : Fin 64) (die : Fin 32) (a : Nat) (s : State) : Out :=
  .next (custOverrun s ch.val die.val a)

/-- A control-store parity error: a machine check (R358). -/
def machineCheck (s : State) (ch a : Nat) (scrub : Bool) : State :=
  let c := chsOf s ch
  if c.mc || !chPresent s ch then s
  else
    let s := fset (fset s (Fld.CHS_MC_ADDR ch) a) (Fld.CHS_MC_SCRUB ch) (b2n scrub)
    let s := fon (fon s (Fld.CHS_MC_VALID ch)) (Fld.CHS_EVENTS_MACHINE_CHECK ch)
    let s := if scrub then fset s (Fld.CHS_SCRUB_NEXT ch) ((a + 1) % 8192) else s
    let s := post s 29 1 false ch a (b2n scrub) 0
    let s := chsPut s ch { c with mc := true, ctx := [], want := [], bus := none }
    let s := c.ctx.foldl (fun s e => e.2.chain.foldl (fun s d =>
      complete s ch (ctxEnt e.2 d ST_MACHINE_CHECK 0 e.2.dstat)) s) s
    raiseVio s 8 29 (midChs ch) a

def execControlStoreParity (ch : Fin 64) (a : Nat) (scrub : Bool) (s : State) : Out :=
  .next (machineCheck s ch.val (a % 8192) scrub)

/-- The scrubber has checked the words from NEXT on to the end of the control store, and a pass ends (R358). -/
def execCsScrubPass (ch : Fin 64) (s : State) : Out :=
  .next (if chPresent s ch.val then fset (finc s (Fld.CHS_SCRUB_PASSES ch.val)) (Fld.CHS_SCRUB_NEXT ch.val) 0 else s)

/-! ### Initialisation (R333, R334, R344) -/

/-- Dies of channel `ch` that are populated. -/
def chanDies (s : State) (ch : Nat) : Nat :=
  (List.range 32).foldl (fun n p => if dieUnpop s (32 * ch + p) then n else n + 2 ^ p) 0

/-- The smallest plane count of the channel's populated dies. -/
def chanPlanes (s : State) (ch : Nat) : Nat :=
  (((List.range 32).filter fun p => !dieUnpop s (32 * ch + p)).map fun p => idPlanes s (32 * ch + p)).foldl min 6

/-- A channel is initialised (R334): every chip enable is reset and its LUNs' identities are read, in SDR; its dies, pages and planes are
written, the method by which each die selects a block's mode is recorded (R333), and its interface is trained. A channel that was lost
with its sequencer is back, since the boot or the release ends the card (R90, R320). -/
def chanInit (s : State) (ch : Nat) : State :=
  let feats := s.flash.feats.filter fun e => e.1 / 65536 / 32 != ch
  let s := { s with flash := { s.flash with feats := feats } }
  let s := (List.range 32).foldl (fun s p => if dieUnpop s (32 * ch + p) then s else issued s (32 * ch + p) [0xFF, 0x90, 0xED, 0xEC]) s
  let s := chsPut s ch { chsOf s ch with methods := (List.range 32).map fun p => Config.modeMethod (32 * ch + p) }
  let s := fset s (Fld.CHS_DIE_MAP_DIES ch) (chanDies s ch)
  let s := fset (fset s (Fld.CHS_PAGES_ST_SLC ch) s.part.pagesSlc) (Fld.CHS_PAGES_ST_TLC ch) s.part.pagesTlc
  let s := fset (fset s (Fld.CHS_PAGES_Q_QLC ch) s.part.pagesQlc) (Fld.CHS_PLANES_PLANES ch) (chanPlanes s ch)
  let s := fset (fset s (Fld.CHS_BUS_IF ch) s.part.busIf) (Fld.CHS_BUS_RATE_MTS ch) s.part.busRate
  let s := fset s (Fld.CHS_STATE_STATE ch) (if s.med.chans.contains ch then 5 else 2)
  let s := if s.med.chans.contains ch then s else fon s (Fld.CHS_CTRL_EN ch)
  if s.part.noTrain.contains ch then channelLost s ch 2 else s

/-- The sequence-table entries of a die that the metadata give: each block of a stripe block that is written in part, with the page after
its last good page (R344). -/
def seqEnts (s : State) (die : Nat) : List SeqEnt :=
  let g := groupOf die
  (s.med.inUse.filter fun e => e.1 / 1048576 == g && !e.2.full && !((SMap.getD s.med.erasing e.1 []).contains (memberOf die))).filterMap fun e =>
    let b := physOf s g (e.1 % 1048576) (memberOf die)
    let next := s.med.pages.foldl (fun n x => if x.1 / 8192 = blkKey die b then max n (x.1 % 8192 + 1) else n) 0
    if next < pagesOf s (die / 32) e.2.mode then some ⟨b, e.2.mode, next⟩ else none

/-- Firmware loads a channel's sequence table from the rebuilt metadata, and then sets PROG_EN (R344). -/
def seqLoad (s : State) (ch : Nat) : State :=
  if !fone s (Fld.CHS_CTRL_EN ch) then s
  else
    let c := chsOf s ch
    let tab := (List.range 32).flatMap fun p =>
      if dieGone s (32 * ch + p) then [] else
        (((seqEnts s (32 * ch + p)).take 64).zip (List.range 64)).map fun e => (p * 64 + e.2, e.1)
    fon (chsPut s ch { c with seq := tab }) (Fld.CHS_CTRL_PROG_EN ch)

/-! ### The sequencer reset (R359) -/

/-- Shows the digest of the control store. -/
def digestShow (s : State) (ch : Nat) (d : List Byte) : State :=
  (List.range 12).foldl (fun s k => fset s (Fld.CHS_UCODE_DIGEST_DIGEST ch k) (u32 d (4 * k))) s

/-- The SHA-384 of the control store that the shadow holds (R541). -/
def shadowDigest (s : State) : List Byte := Config.sha384 (s.bot.shadow.1 ++ s.bot.shadow.2.flatMap fun w => le 16 w)

/-- The reset ends once the FIFO has been emptied: the control store is reloaded with the images of the shadow, and its digest, computed
anew, equals the one measured at boot. The interface and rate are back at SDR (R332); a carded sequencer is now carded and reset
(R89). -/
def seqResetEnd (s : State) (ch : Nat) : State :=
  let c := chsOf s ch
  let d := shadowDigest s
  if !fone s (Fld.CHS_CTRL_RESET ch) || !c.fifo.isEmpty || !c.ovr.isEmpty then s
  else if d ≠ c.digest then digestShow s ch d
  else
    let s := digestShow (foff s (Fld.CHS_CTRL_RESET ch)) ch d
    let s := fset (fset s (Fld.CHS_BUS_IF ch) 0) (Fld.CHS_BUS_RATE_MTS ch) 10
    let s := chsPut s ch { c with mc := false, code := s.bot.shadow.2, entries := s.bot.shadowEnts }
    match SMap.find s.acm.cards (midChs ch) with
    | some k => fset { s with acm := { s.acm with cards := SMap.put s.acm.cards (midChs ch) { k with st := 2 } } } (Fld.CHS_STATE_STATE ch) 3
    | none => fset s (Fld.CHS_STATE_STATE ch) 1

/-- Operations of the channel's dies that had been issued are queued again, unless the channel is lost. -/
def reissue (s : State) (ch : Nat) : State :=
  (List.range 32).foldl (fun s p =>
    let die := 32 * ch + p
    let ops := sentOf s die ++ runOf s die ++ (match SMap.find s.dsc.susp die with | some (l, _) => l | none => [])
    if ops.isEmpty then s
    else
      let s := { s with dsc := { s.dsc with sent := SMap.del s.dsc.sent die, run := SMap.del s.dsc.run die,
                                            susp := SMap.del s.dsc.susp die,
                                            asked := s.dsc.asked.filter (· != die), back := s.dsc.back.filter (· != die) } }
      let s := ops.foldl (fun s o => match o.call with | some n => callReturn s n | none => s) s
      ops.foldl (fun s o => requeue s die o) s) s

/-- A write of 1 to CHS_CTRL.RESET (R359). -/
def seqReset (s : State) (ch : Nat) : State :=
  if fone s (Fld.CHS_CTRL_RESET ch) || !chPresent s ch then s
  else
    let s := fset (fon s (Fld.CHS_CTRL_RESET ch)) (Fld.CHS_STATE_STATE ch) 4
    let c := chsOf s ch
    let c := { c with q0 := [], q1 := [], q2 := [], q3 := [], ctx := [], slot := [], seq := [], seqIdle := [] }
    let s := chsPut s ch { c with bus := none, want := [], cur := none }
    seqResetEnd (postPending (reissue s ch) ch) ch

def execSequencerReset (m : Master) (ch : Fin 64) (s : State) : Out :=
  .next (gated s m (Reg.CHS_CTRL ch.val) fun s => seqReset s ch.val)

end Sys2Proof.Machine
end

