-- ==== Sys2Proof/Machine/Deadline.lean ====
section
/-! DEFINITION. The deadline scheduler's issue of operations, its calls, and what becomes of a completion
(R269, R270, R278–R291, R307, R316, R346, R347, R423–R426). -/
namespace Sys2Proof.Machine
open Sys2Proof

/-! ### Choosing what to issue (R269, R279) -/

/-- The plane-set base of a physical block of a die. -/
def setBase (s : State) (die block : Nat) : Nat :=
  let w := setWidth s (groupOf die)
  sbOf s die block / w * w

/-- Programs of one page of a plane set join (R269, R300): TLC or QLC, and distinct planes. -/
def joinsWith (s : State) (die : Nat) (o x : DOp) : Bool :=
  let np := planesOf s (die / 32)
  o.kind == 1 && x.kind == 1 && o.mode != 0 && x.mode == o.mode && x.page == o.page && x.flush == o.flush &&
  setBase s die x.block == setBase s die o.block && x.block % np != o.block % np

/-- No earlier-queued program of a list is for the block of program `o` (R269). -/
def blockFirst (q : List DOp) (o : DOp) : Bool := q.all fun x => x.kind != 1 || x.block != o.block || decide (o.id ≤ x.id)

/-- A queue in which the program at its head gives way to an earlier-queued one for its block: a program never passes it (R269). -/
def orderQueue (q : List DOp) : List DOp :=
  match q with
  | o :: _ =>
    if o.kind = 1 then
      match q.find? fun x => x.kind == 1 && x.block == o.block && blockFirst q x with
      | some x => x :: q.filter fun y => y.id != x.id
      | none => q
    else q
  | [] => []

/-- The leading programs of a queue that join: at most four, in distinct planes, each the first of its block. -/
def joinLead (s : State) (die : Nat) (q acc : List DOp) : List DOp → List DOp
  | [] => acc
  | x :: xs =>
    if acc.length < 4 ∧ blockFirst q x ∧ acc.all (fun o => joinsWith s die o x) then joinLead s die q (acc ++ [x]) xs else acc

/-- Where the selection of a die is held: a read picked in a suspend does not displace what was selected before it (R270). -/
def pickKey (s : State) (die : Nat) : Nat := if (SMap.find s.dsc.susp die).isSome then die + 4096 else die

/-- The operations of a list that the die has selected already: those under the call it has requested (R270). -/
def pickedIn (s : State) (die : Nat) (q : List DOp) : List DOp :=
  match SMap.find s.dsc.picked (pickKey s die) with
  | some n => q.filter fun o => o.call == some n
  | none => []

/-- What the die's order gives next: the operation selected already, else the first, with the programs of a page that lead; on a
suspended die only reads of the suspending classes, none of a block whose erase is suspended, and none once a resume is due. No erase
starts in a QUIET group (R250, R269, R270, R279, R280). -/
def nextOps (s : State) (die : Nat) : List DOp :=
  let q := opSort s.dsc.tok (queueOf s die)
  match SMap.find s.dsc.susp die with
  | some _ =>
    if resumeDue s die then []
    else
      let l := q.filter fun o => o.kind == 0 && suspClass s o.cls && !suspErase s die o.block
      ((pickedIn s die l) ++ l).take 1
  | none =>
    let q := orderQueue <| q.filter fun o => !(o.kind == 2 && grp s Fld.PLC_GRP_QUIET_GROUPS (groupOf die))
    match pickedIn s die q, q with
    | x :: xs, _ => x :: xs
    | [], [] => []
    | [], o :: os => if o.kind = 1 ∧ o.mode ≠ 0 then joinLead s die q [o] os else [o]

/-- Puts the call of the operations with these identifiers. -/
def callSet (s : State) (die : Nat) (ids : List Nat) (n : Option Nat) : State :=
  let f := fun (o : DOp) => if ids.contains o.id then { o with call := n } else o
  { s with dsc := { s.dsc with queues := SMap.upd s.dsc.queues die fun l => l.map f,
                               susp := SMap.upd s.dsc.susp die fun e => (e.1.map f, e.2) } }

/-! ### Calls (R270, R280, R425, R426) -/

/-- The open stripe that page `page` of a physical block of a die programs at unit position `u`. -/
def stripeAt (s : State) (die block page u : Nat) : Option (Nat × Stripe) :=
  let g := groupOf die
  let m := memberOf die
  let b := sbOf s die block
  s.plc.stripes.find? fun e => e.2.group == g && e.2.block == b && e.2.row == 4 * page + u && (e.2.mem.contains m || e.2.par == m)

/-- The account of a codeword that a program writes: the slice in its unit header, or the device (R425). -/
def codewordAcct (s : State) (die block page u : Nat) : Nat :=
  match stripeAt s die block page u with
  | some (_, st) =>
    if st.par = memberOf die then deviceAcct
    else
      match st.members.getD (st.mem.findIdx (· == memberOf die)) .pad with
      | .unit slot => match SMap.find s.zne.stg slot with | some x => x.slice | none => deviceAcct
      | .copy info _ => if infoSlice info < 1024 then infoSlice info else deviceAcct
      | _ => deviceAcct
  | none => deviceAcct

/-- The accounts a call's cost is shared over (R425). -/
def opAccts (s : State) (die : Nat) (l : List DOp) : List Nat :=
  match l with
  | [] => []
  | o :: _ =>
    if o.kind = 0 then [match o.owner with | some n => n | none => deviceAcct]
    else if o.kind = 1 then l.flatMap fun x => (List.range 4).map fun u => codewordAcct s die x.block x.page u
    else [deviceAcct]

/-- The call of operations issued as one (R270, R421). -/
def opCall (s : State) (die : Nat) (l : List DOp) : Call :=
  match l with
  | [] => mkCall s false die 0 0 0 0 0 0 []
  | o :: _ =>
    let dl := l.foldl (fun n x => min n x.deadline) o.deadline
    let cl := l.foldl (fun n x => min n x.cls) o.cls
    let op := if o.kind = 0 then 0 else if o.kind = 1 then 2 else 3
    let moved := if o.kind = 0 then 1 else if o.kind = 1 then 4 * l.length else 0
    mkCall s o.flush die o.mode op l.length moved cl dl (opAccts s die l)

/-- The call of a resume: RESUME, holding the suspended operation's ICC (R280, R426). -/
def resumeCallOf (s : State) (die : Nat) (l : List DOp) : Call :=
  match l with
  | [] => mkCall s false die 0 4 0 0 0 0 []
  | o :: _ =>
    let c := mkCall s o.flush die o.mode 4 1 0 o.cls o.deadline (opAccts s die l)
    { c with icc := costIcc s die o.mode (if o.kind = 1 then 2 else 3), cls := l.foldl (fun n x => min n x.cls) o.cls,
             deadline := l.foldl (fun n x => min n x.deadline) o.deadline }

/-- Requests a call for queued or suspended operations of a die, which carry it: its slot, or none (R423). -/
def callGo (s : State) (die : Nat) (l : List DOp) (c : Call) : Option Nat × State :=
  match callRequest s c with
  | (some n, s') => (some n, callSet s' die (l.map (·.id)) (some n))
  | (none, s') => (none, s')

/-- Selects what the die's order gives next and requests its call (R270). -/
def callPick (s : State) (die : Nat) : State :=
  match nextOps s die with
  | x :: xs =>
    if x.call.isNone then
      match callGo s die (x :: xs) (opCall s die (x :: xs)) with
      | (some n, s') => { s' with dsc := { s'.dsc with picked := SMap.put s'.dsc.picked (pickKey s die) n } }
      | (none, s') => s'
    else s
  | [] => s

/-- The DSC block requests the call of the operation it selects on a die, or of the die's resume (R270, R280). -/
def callFor (s : State) (die : Nat) : State :=
  if !fone s Fld.DSC_CTRL_EN then s
  else
    match SMap.find s.dsc.susp die with
    | some (o :: os, _) =>
      if resumeDue s die && o.call.isNone && !pfail s then (callGo s die (o :: os) (resumeCallOf s die (o :: os))).2 else callPick s die
    | _ => callPick s die

def execCallRequest (die : Fin 2048) (s : State) : Out := .next (callFor s die.val)

/-! ### Issue (R269, R335) -/

/-- The descriptor of an operation; `join` when the next program joins it. -/
def opDesc (s : State) (die : Nat) (o : DOp) (join : Bool) : Desc :=
  let urgent := if o.kind = 0 then o.cls == 0 else o.urgent
  { op := o.kind + 1, flags := b2n o.flush + 2 * b2n o.iso + 4 * b2n urgent + 64 * b2n join, die := die % 32, mode := o.mode,
    tag := o.id, block := o.block, page := o.page, units := if o.kind = 0 then 2 ^ o.unit else if o.kind = 1 then 15 else 0,
    step := 0xFF, call := (match o.call with | some n => callHandle s n | none => 0),
    owner := (match o.owner with | some n => n | none => 0xFFFF), param := 0,
    data := if o.kind = 0 then (List.range 4).map (fun u => if u = o.unit then DRef.slab 0 else .none)
      else if o.kind = 1 then List.replicate 4 (.dram 0) else List.replicate 4 .none,
    param2 := 0 }

/-- The queue of an operation (R335). -/
def opQueue (o : DOp) : Nat := if o.kind = 0 then (if o.cls = 0 then 0 else 1) else if o.kind = 1 then 2 else 3

/-- Back-pressure bars the issue of an operation that needs a slab buffer (R380). -/
def opPressed (s : State) (o : DOp) : Bool := o.kind == 0 && !o.iso && !o.flush && (bpActive s).testBit o.cls

/-- Counts the page reads of an issue (R286, R287, R294). -/
def countIssue (s : State) (o : DOp) : State :=
  if o.kind ≠ 0 then s
  else
    let s := if o.host.isSome && o.rebound.isNone then finc s (Fld.DSC_COUNT_COUNT 0) else s
    match o.owner with
    | some n =>
      if isoAcct s n then { s with dsc := { s.dsc with isoReads := SMap.put s.dsc.isoReads n (SMap.getD s.dsc.isoReads n 0 + 1) } }
      else { s with dsc := { s.dsc with reads := s.dsc.reads + 1 } }
    | none => { s with dsc := { s.dsc with reads := s.dsc.reads + 1 } }

/-- Posts the descriptors of operations issued as one. -/
def postOps (s : State) (die : Nat) : List DOp → State
  | [] => s
  | o :: os => postOps (chsPush s (die / 32) (opQueue o) (opDesc s die o (!os.isEmpty))) die os

/-- Issues the die's next operation when it holds none that has not started and its call has been granted (R269, R270). -/
def dscIssue (s : State) (die : Nat) : State :=
  if !fone s Fld.DSC_CTRL_EN || !(sentOf s die).isEmpty then s
  else
    match nextOps s die with
    | [] => s
    | o :: os =>
      let l := o :: os.filter fun x => x.call == o.call
      if !callOk s o || opPressed s o || (pfail s && !o.flush) ||
        decide (64 < (qGet (chsOf s (die / 32)) (opQueue o)).length + l.length) then s
      else
        let ids := l.map (·.id)
        let s := postOps s die l
        let s := queuePut s die ((queueOf s die).filter fun x => !ids.contains x.id)
        let s := { s with dsc := { s.dsc with sent := SMap.put s.dsc.sent die l, picked := SMap.del s.dsc.picked (pickKey s die),
                                              tok := (o.id + 1) % poolSize } }
        unpark (l.foldl countIssue s)

def execDscIssue (die : Fin 2048) (s : State) : Out := .next (dscIssue s die.val)

/-- WINDOW_US after a suspend took effect the DSC block asks for the resume (R279). -/
def windowExpiry (s : State) (die : Nat) : State :=
  match SMap.find s.dsc.susp die with
  | some (_, t) =>
    let s := reach s (t + fget s Fld.DSC_SUSPEND_TIME_WINDOW_US * 1000)
    if s.dsc.back.contains die then s else { s with dsc := { s.dsc with back := s.dsc.back ++ [die] } }
  | none => s

def execSuspendWindowExpiry (die : Fin 2048) (s : State) : Out := .next (windowExpiry s die.val)

/-! ### Results (R280, R284, R288, R307, R316) -/

/-- The operations a die holds at its sequencer. -/
def atSeq (s : State) (die : Nat) : List DOp := sentOf s die ++ runOf s die

/-- Takes operation `id` from those at the sequencer; its call is returned with the last of a joined program (R426), with a
refund when it was withdrawn before it started. -/
def opTake (s : State) (die id : Nat) (squashed : Bool) : State :=
  let inSent := (sentOf s die).any fun o => o.id == id
  let l := if inSent then sentOf s die else runOf s die
  let rest := l.filter fun o => o.id != id
  let s := if inSent then
      { s with dsc := { s.dsc with sent := if rest.isEmpty then SMap.del s.dsc.sent die else SMap.put s.dsc.sent die rest } }
    else { s with dsc := { s.dsc with
        run := if rest.isEmpty then SMap.del s.dsc.run die else SMap.put s.dsc.run die rest,
        asked := if rest.isEmpty then s.dsc.asked.filter (· != die) else s.dsc.asked } }
  if rest.isEmpty then
    match l.findSome? (·.call) with
    | some n => if inSent && squashed then callRefund s n else callReturn s n
    | none => s
  else s

/-- A page has been read: its codeword goes to the decoder of its channel that holds fewer (R259, R302); a member read arrives at its
rebound. -/
def readArrived (s : State) (die : Nat) (o : DOp) : State :=
  let dec := decoderFor s (die / 32)
  match o.rebound, o.host with
  | some id, _ =>
    { s with dsc := { s.dsc with rebounds := SMap.upd s.dsc.rebounds id fun r =>
      { r with waiting := r.waiting.filter (· != die), arrived := r.arrived ++ [die], decs := SMap.put r.decs die dec } } }
  | none, some (x, u) => readDec (readSt s x u .arrived) x u dec
  | none, none => s

/-- A page has been programmed with good status (R217, R299). -/
def pageProgrammed (s : State) (die : Nat) (o : DOp) : State :=
  let m := memberOf die
  let at_ := fun u => stripeAt s die o.block o.page u
  let us := (List.range 4).map fun u => match at_ u with | some (_, st) => contentOf s st m | none => 0
  let ns := (List.range 4).filterMap fun u => (at_ u).map (·.1)
  let stripes := ns.foldl (fun m' n => SMap.upd m' n fun st => { st with toProg := st.toProg.filter (· != m) }) s.plc.stripes
  let k := sbKey (groupOf die) (sbOf s die o.block)
  let born := if (SMap.find s.age.born k).isSome then s.age.born else SMap.put s.age.born k (now s)
  { s with med := { s.med with pages := SMap.put s.med.pages (pageKey die o.block o.page) us },
           age := { s.age with born := born },
           plc := { s.plc with stripes := stripes } }

/-- A program failed: the block is retired, and with it the four stripes of the page row of its stripe block are abandoned (R307). -/
def programFailed (s : State) (die : Nat) (o : DOp) : State :=
  retire (fon s Fld.LDC_MED_EVENTS_COPY_DEST_FAIL) die o.block

/-- Consecutive timeouts of a die (R316). -/
def timeoutsPut (s : State) (die n : Nat) : State :=
  { s with med := { s.med with timeouts := SMap.putD s.med.timeouts die 0 n } }

/-- One completion in 64 that was not suspended gives a sample of its prediction entry (R563). -/
def sampleTake (s : State) (die : Nat) (o : DOp) (array : Nat) : State :=
  if o.susp ≠ 0 then s
  else
    let a := { s.age with comps := s.age.comps + 1 }
    let i := 48 * o.mode + 8 * (if o.kind = 0 then 0 else o.kind + 1) + bucketOf s die o.mode o.block
    if (s.age.comps + 1) % 64 = 0 then
      { s with age := { a with samples := SMap.put a.samples i (SMap.getD a.samples i [] ++ [array]) } }
    else { s with age := a }

/-- A block whose P/E count has reached its rated value is retired when it holds no valid data (R311, R566). -/
def ratedRetire (s : State) (die block mode : Nat) : State :=
  if 4 * ratedOf s die mode ≤ peOf s die block then retire s die block else s

/-- The array time of an operation that the die has ended updates the die's correction, once for a joined program (R273). -/
def learnLast (s : State) (die : Nat) (o : DOp) (e : CEnt) : State :=
  if (runOf s die).isEmpty && (e.status == ST_OK || e.status == ST_PROGRAM_FAIL || e.status == ST_ERASE_FAIL) then learn s die o e.array
  else s

/-- The completion of operation `o` of a die with a status. -/
def opEnded (s : State) (die : Nat) (o : DOp) (e : CEnt) : State :=
  let s := learnLast (opTake s die o.id (e.status == ST_SQUASHED)) die o e
  if e.status = ST_OK then
    let s := timeoutsPut (sampleTake s die o e.array) die 0
    if o.kind = 0 then readArrived s die o
    else if o.kind = 1 then pageProgrammed s die o
    else
      let sb := sbOf s die o.block
      let s := ratedRetire (usedRefresh (blockErased s die o.block o.mode)) die o.block o.mode
      restoreErased (memberErased s (groupOf die) sb (memberOf die)) die o.block
  else if e.status = ST_PROGRAM_FAIL then programFailed (timeoutsPut s die 0) die o
  else if e.status = ST_ERASE_FAIL then
    let sb := sbOf s die o.block
    restoreErased (memberErased (retire (timeoutsPut s die 0) die o.block) (groupOf die) sb (memberOf die)) die o.block
  else if e.status = ST_SQUASHED then s
  else if e.status = ST_DIE_TIMEOUT then
    let n := SMap.getD s.med.timeouts die 0 + 1
    let s := timeoutsPut (requeue s die o) die n
    if 3 ≤ n then dieLost s die 1 else s
  else requeue s die o

/-- The same, and a fatal status loses the die (R316; notes/assumptions/74.md). -/
def opResult (s : State) (die : Nat) (o : DOp) (e : CEnt) : State :=
  let s := opEnded s die o e
  if e.fatal then dieLost s die 2 else s

/-- Flush work is queued or under way for a block of a die. -/
def flushOn (s : State) (die block : Nat) : Bool :=
  (queueOf s die ++ parkedOf s die ++ sentOf s die ++ runOf s die).any fun o => o.flush && o.block == block

/-- Once power-fail is given a suspended operation is never resumed: the sequencer resets its die as soon as its block has no flush work
queued (R290). -/
def suspResets (s : State) : State :=
  if !pfail s then s
  else
    (s.dsc.susp.filter fun e => !(e.2.1.any fun o => flushOn s e.1 o.block)).foldl (fun s e =>
      let c := chsOf s (e.1 / 32)
      chsPut { s with dsc := { s.dsc with susp := SMap.del s.dsc.susp e.1 } } (e.1 / 32) { c with slot := SMap.del c.slot (e.1 % 32) }) s

/-- A suspend has taken effect: the call is returned, its tokens kept (R280, R426). -/
def suspResult (s : State) (die : Nat) : State :=
  let t := now s
  let l := runOf s die
  match l with
  | [] => s
  | o :: _ =>
    let l' := l.map fun x => { x with ran := x.ran + (t - x.started), susp := x.susp + 1, call := none }
    let s := match o.call with | some n => callReturn s n | none => s
    let s := { s with dsc := { s.dsc with run := SMap.del s.dsc.run die, susp := SMap.put s.dsc.susp die (l', t) } }
    finc s (Fld.DSC_COUNT_COUNT 8)

/-- A resume has taken effect. -/
def resumeResult (s : State) (die : Nat) : State :=
  let tn := now s
  match SMap.find s.dsc.susp die with
  | some (l, t) =>
    let l' := l.map fun x => { x with started := tn, suspNs := x.suspNs + (tn - t) }
    { s with dsc := { s.dsc with susp := SMap.del s.dsc.susp die, run := SMap.put s.dsc.run die l' } }
  | none => s

/-- The suspended operation of a die. -/
def suspOf (s : State) (die : Nat) : List DOp := match SMap.find s.dsc.susp die with | some (l, _) => l | none => []

/-- A suspended operation that the die's reset has ended counts among those at the sequencer again, to be taken from there. -/
def suspBack (s : State) (die : Nat) (e : CEnt) : State :=
  if (suspOf s die).any (fun o => o.id == e.tag && o.kind + 1 == e.op) then
    { s with dsc := { s.dsc with run := SMap.put s.dsc.run die (runOf s die ++ suspOf s die), susp := SMap.del s.dsc.susp die } }
  else s

/-- The DSC block receives a completion entry, and forwards one that is not of its own operations to the poster (R347). -/
def dscResult (s : State) (ch : Nat) (e : CEnt) : State :=
  let die := 32 * ch + e.die
  if e.op = 0xF1 then (if (runOf s die).any (fun o => o.id == e.tag) then suspResets (suspResult s die) else s)
  else if e.op = 0xF2 then resumeResult s die
  else
    let s' := suspBack s die e
    match (atSeq s' die).find? fun o => o.id == e.tag && o.kind + 1 == e.op with
    | some o =>
      if (suspOf s die).any (fun x => x.id == e.tag) then suspResets (requeue (opTake s' die o.id false) die o)
      else suspResets (opResult s' die o e)
    | none => { s with flash := { s.flash with results := s.flash.results ++ [(ch, e)] } }

/-- The collector takes the oldest entry of the first FIFO at or after its token that holds one (R347); an entry that waited for
room moves in (R346). -/
def collect (s : State) : State :=
  match (((List.range 64).map fun i => (s.flash.token + i) % 64).find? fun ch => !(chsOf s ch).fifo.isEmpty) with
  | none => s
  | some ch =>
    let c := chsOf s ch
    match c.fifo with
    | [] => s
    | e :: rest =>
      let s := chsPut s ch { c with fifo := rest ++ c.ovr.take 1, ovr := c.ovr.drop 1 }
      let s := { s with flash := { s.flash with token := (ch + 1) % 64 } }
      seqResetEnd (dscResult s ch e) ch

def execCollectorTake (s : State) : Out := .next (collect s)

end Sys2Proof.Machine
end

