-- ==== Sys2Proof/Machine/Paths.lean ====
section
/-! DEFINITION. The write path from the placement decision to the staging copy, and the cipher engines' units
(R47–R51, R207, R216, R242–R248, R259, R463–R466). -/
namespace Sys2Proof.Machine
open Sys2Proof

/-! ### Keys of namespaces (R171, R460, R463) -/

/-- A key-store slot. -/
def kslot (s : State) (k : Nat) : KSlot := SMap.getD s.kst.slots k KSlot.empty

def kslotPut (s : State) (k : Nat) (v : KSlot) : State :=
  { s with kst := { s.kst with slots := SMap.putD s.kst.slots k KSlot.empty v } }

/-- The MEDIA slot BOUND to a namespace, or ERASING with it. -/
def nsSlot (s : State) (nsid : Nat) : Option (Nat × KSlot) :=
  s.kst.slots.find? fun e => e.2.typ == 4 && (e.2.st == 2 || e.2.st == 3) && e.2.nsid == nsid

/-- A buffer of a slot. -/
def slotBuf (k : KSlot) (b : Nat) : List Byte := if b = 0 then k.buf0 else k.buf1

/-- Length of a data unit in bytes, by the blocks of a unit (R189, R463). -/
def duLen (n : Ns) : Nat := if n.lbaf = 1 then 512 else 4096

/-- The latch a unit's cipher operation holds or takes: the active buffer of its namespace's slot (R460, R461). -/
def unitLatch (k : KSlot) (u : CUnit) : Nat := match u.latch with | some b => b | none => k.active

/-- PLC_DIRECT.HOLD_MS in ns; 0 is treated as 1. -/
def holdNs (s : State) : Nat := max 1 (fget s Fld.PLC_DIRECT_HOLD_MS) * 1000000

/-! ### Zone cursors (R244, R246) -/

/-- The stripe of an extent's plane set, in set order, in which a unit of the zone lies, and its data member there (R244). -/
def extRow (x : Ext) (off : Nat) : Nat := (off - x.off + x.skip) / x.dm
def extMember (x : Ext) (off : Nat) : Nat := (off - x.off + x.skip) % x.dm

/-- The zone offset of the first unit of stripe `r` of an extent's plane set. -/
def extOff (x : Ext) (r : Nat) : Nat := x.off + r * x.dm - x.skip

/-- The open stripe at position `r` of an extent's plane set. -/
def extOpen (s : State) (x : Ext) (r : Nat) : Option (Nat × Stripe) :=
  let p := rowAt s x.group x.set x.mode r
  s.plc.stripes.find? fun e => e.2.group == x.group && e.2.set0 == x.block && e.2.half == p.1 && e.2.block == x.block + p.2.1 && e.2.row == p.2.2

/-- A stripe of the page that stripe `r` of an extent's plane set belongs to is open. -/
def extPageOpen (s : State) (x : Ext) (r : Nat) : Bool :=
  let p := rowAt s x.group x.set x.mode r
  s.plc.stripes.any fun e => e.2.group == x.group && e.2.set0 == x.block && e.2.half == p.1 && e.2.row / 4 == p.2.2 / 4

/-- Claims the place of unit `off` of zone `zi` in an extent: its stripe is opened with its first unit (R244, R246). A place
before the extent, or whose stripe has its parity or has closed, is taken; units of the stripe that lie elsewhere already are pad in it. -/
def claimPlace (s : State) (zi : Nat) (x : Ext) (off : Nat) : Option (Tgt × State) :=
  let r := extRow x off
  let i := extMember x off
  if off < x.off then none
  else
    match extOpen s x r with
    | some (k, st) =>
      match st.parity, st.members.getD i .pad with
      | some _, _ => none
      | none, .pad => none
      | none, .unit m => some (⟨k, i⟩, setMember s ⟨k, i⟩ (.unit m))
      | none, _ => some (⟨k, i⟩, setMember s ⟨k, i⟩ .claimed)
    | none =>
      let z := zoneGet s zi
      match zoneLoc s z off with
      | .flash _ _ _ _ => none
      | _ =>
        let st := mkStripe s x.group x.block x.set x.mode x.par7 r none (some (zi, extOff x r))
        let ms := (List.range x.dm).map fun j => if j ≠ i ∧ zoneLoc s z (extOff x r + j) ≠ .zero then Member.pad else .free
        let (k, s) := addStripe s { st with members := ms }
        some (⟨k, i⟩, grpRefresh (setMember s ⟨k, i⟩ .claimed) x.group)

/-- New stripes of a zone may open in a group: it is neither CLOSED nor QUIET, and HELD does not bar it (R229, R251). -/
def setUsable (s : State) (slice g : Nat) : Bool :=
  grp s Fld.PLC_GRP_PRESENT_GROUPS g && !grp s Fld.PLC_GRP_CLOSED_GROUPS g && !grp s Fld.PLC_GRP_QUIET_GROUPS g &&
  (!grp s Fld.PLC_GRP_HOLD_GROUPS g || heldChosen s slice g)

/-- How a zone goes on in its cursor's plane set at unit `off`: in the extent, or, where the group's stripes have other data members
from this page on, in a new extent of the same set that begins with the page (R228). Pages begun are finished (R230); none where the set
has no room left, or no new stripe may open there. -/
def extGoOn (s : State) (slice : Nat) (x : Ext) (off : Nat) : Option Ext :=
  let r := extRow x off
  if extRows s x ≤ r then none
  else if off < x.off || extPageOpen s x r then some x
  else if !setUsable s slice x.group then none
  else
    let dm := max 1 (dataMembers s x.group x.par7 (rowAt s x.group x.set x.mode r).1)
    let r0 := r / (4 * x.set) * (4 * x.set)
    if dm = x.dm then some x else some { x with off := extOff x r0, len := 0, skip := r0 * dm, dm := dm }

/-- Puts the extent that a zone's cursor fills, and the plane set prepared next. -/
def cursorPut (s : State) (zi : Nat) (x : Ext) (next : Option Ext) : State :=
  zonePut s zi { zoneGet s zi with cursor := some { ext := x, next := next } }

/-- A plane set for a zone from unit `off` on: the one prepared next, with the data members that its group has now, where new stripes
may open there, else another (R228, R246). -/
def cursorNext (s : State) (zi : Nat) (n : Ns) (next : Option Ext) (off : Nat) : Option (Ext × State) :=
  let fresh := fun (s : State) =>
    match directSet s n (zoneGet s zi).cls off with
    | some (x, s) => some (x, cursorPut s zi x none)
    | none => none
  match next with
  | some e =>
    if setUsable s n.slice e.group then
      let x := { e with off := off, dm := max 1 (dataMembers s e.group e.par7 0) }
      some (x, cursorPut s zi x none)
    else fresh (setsDone s e)
  | none => fresh s

/-- The extent in which unit `off` of a zone lands: the cursor's, or the next plane set (R246). -/
def cursorFor (s : State) (zi : Nat) (n : Ns) (off : Nat) : Option (Ext × State) :=
  match (zoneGet s zi).cursor with
  | some cur =>
    match extGoOn s n.slice cur.ext off with
    | some x => some (x, if x = cur.ext then s else cursorPut s zi x cur.next)
    | none => cursorNext (if extRows s cur.ext ≤ extRow cur.ext off then s else setsDone s cur.ext) zi n cur.next off
  | none => cursorNext s zi n none off

/-- Whenever 75 % of the cursor's plane set is used, by units, the next is prepared (R246). -/
def prepareNext (s : State) (zi : Nat) (n : Ns) (off : Nat) : State :=
  let z := zoneGet s zi
  match z.cursor with
  | some cur =>
    if cur.next.isNone ∧ 3 * (extRows s cur.ext * cur.ext.dm) ≤ 4 * (off - cur.ext.off + cur.ext.skip + 1) then
      match directSet s n z.cls 0 with
      | some (x, s) => cursorPut s zi cur.ext (some x)
      | none => s
    else s
  | none => s

/-- A slot of an SLC stream, for a unit whose place in its zone's plane set is taken or does not exist. -/
def claimSlc (s : State) (key : Nat) : Option (Tgt × State) :=
  match claimSlots (prepareFor s key 1 2) key 1 with
  | (t :: _, s') => some (t, s')
  | ([], _) => none

/-- Claims the places of a zone's consecutive unit offsets. Readiness asks for room for the first unit in the zone's plane sets (R242);
a unit whose place is taken, or for which no further plane set can be prepared, goes to an SLC stream. -/
def claimDirect (s : State) (zi : Nat) (n : Ns) (key : Nat) (first : Bool) : List Nat → Option (List Tgt × State)
  | [] => some ([], s)
  | off :: offs =>
    let here := match cursorFor s zi n off with
      | none => if first then none else claimSlc s key
      | some (x, s1) =>
        match claimPlace s1 zi x off with
        | some (t, s2) => some (t, prepareNext s2 zi n off)
        | none => claimSlc s1 key
    match here with
    | none => none
    | some (t, s2) =>
      match claimDirect s2 zi n key false offs with
      | some (ts, s3) => some (t :: ts, s3)
      | none => none

/-! ### The decision (R242, R244, R245, R248) -/

/-- A command's context waits for readiness: one wait, however often it is looked at (R242). -/
def notReady (s : State) (x : Nat) (c : Ctx) : State :=
  if c.waited then s
  else
    let s := ctxUpd s x fun c => { c with waited := true }
    finc { s with plc := { s.plc with waits := s.plc.waits + 1 } } Fld.PLC_READY_WAITS_COUNT

/-- Fixes the targets of a command's units and its XTE instance (R244, R259). -/
def decided (s : State) (x : Nat) (slice : Nat) (ts : List Tgt) (spill : Bool) : State :=
  let r := chooseXte s slice
  let s := r.2
  let s := { s with plc := { s.plc with decisions := s.plc.decisions + 1, spills := s.plc.spills + b2n spill } }
  let s := if spill then finc s Fld.PLC_SPILLS_COUNT else s
  ctxUpd s x fun c => { c with inst := r.1, units := (c.units.zip ts).map fun e => { e.1 with st := .placed e.2, inst := r.1 } }

/-- The placement decision of a write's context (R244). -/
def placeWrite (s : State) (x : Nat) : State :=
  match SMap.find s.hst.ctx x with
  | none => s
  | some c =>
    match c.range, c.st with
    | some r, .running =>
      match SMap.find s.zne.ns r.nsid with
      | none => s
      | some n =>
        if !fone s Fld.PLC_CTRL_EN || c.units.isEmpty || c.units.any (fun k => k.st != .waiting) then s
        else
          let e := classOf s r.cls
          let high := stgAt s (highPct s)
          let z := zoneGet s r.zone
          let direct := r.zoned && (z.cursor.isSome || (!z.left && (e.mode != 0 || (e.spill && high))))
          let wait := fun (s : State) => notReady s x c
          if direct then
            let offs := c.units.map fun k => k.unit % zoneUnits n
            match claimDirect s r.zone n (streamKey s n.slice r.cls 0 2) true offs with
            | some (ts, s') => decided s' x n.slice ts (e.mode == 0)
            | none => wait s
          else
            let spill := !r.zoned && e.mode == 0 && e.spill && high
            let key := streamKey s n.slice r.cls (lifeStream e r.life) (if spill then 1 else if r.zoned && z.left && e.mode != 0 then 2 else 0)
            if e.mode = 0 ∧ !spill ∧ stgAt s 100 then wait s
            else
              match streamOpen s key with
              | (false, s) => wait s
              | (true, s) =>
                if streamFree s key < c.units.length then wait s
                else
                  let r2 := claimSlots s key c.units.length
                  decided r2.2 x n.slice r2.1 spill
    | _, _ => s

def execPlacementDecision (x : Nat) (s : State) : Out := .next (placeWrite s x)

/-! ### The cipher engines (R463–R466) -/

/-- An instance's check disagrees: the fault is counted and recorded; at the limit within 24 h the instance is retired
(R466). -/
def xteFault (s : State) (i dir slice nsid : Nat) : State :=
  let t := now s
  let day := t :: ((SMap.getD s.kst.xteFaults i []).filter fun f => decide (t < f + 86400000000000))
  let s := { s with kst := { s.kst with xteFaults := SMap.put s.kst.xteFaults i day } }
  let s := finc s (Fld.XTE_COUNT_COUNT (2 + dir))
  let s := fon s (if dir = 0 then Fld.XTE_EVENTS_ENC_MISMATCH else Fld.XTE_EVENTS_DEC_MISMATCH)
  let s := post s 13 1 true i dir slice nsid
  if max 1 (fget s Fld.XTE_FAULT_CFG_LIMIT) ≤ day.length ∧ !s.kst.xteOut.contains i then
    let s := { s with kst := { s.kst with xteOut := s.kst.xteOut ++ [i] } }
    let s := fon (finc s (Fld.XTE_COUNT_COUNT 7)) Fld.XTE_EVENTS_RETIRED
    xtePool (xteReplace (post s 13 2 false i day.length 0 0) i)
  else xteShow s i

/-- A unit's check has disagreed: it is reissued once to another instance; a second disagreement ends the command with Internal
Error (R466). -/
def xteAgain (s : State) (x u : Nat) (c : Ctx) (k : CUnit) (dir buf : Nat) : State :=
  let s := xteFault s k.inst dir (match c.slice with | some n => n | none => 0) c.nsid
  if k.tries = 0 then
    let up := (List.range 66).filter fun i => xteUp s i && i != k.inst
    let r := chooseXte s (match c.slice with | some n => n | none => 1024)
    let inst := if r.1 = k.inst then (match up.find? fun i => !(xteDed s).contains i with | some i => i | none => r.1) else r.1
    let s := finc r.2 (Fld.XTE_COUNT_COUNT 4)
    ctxUpd s x fun c => { c with units := c.units.modify u fun k => { k with tries := 1, inst := inst, latch := some buf } }
  else
    let s := fon s Fld.XTE_EVENTS_DOUBLE_FAULT
    ctxFail (ctxSquash s x) x SC_INTERNAL k.lba

/-- Encrypts the blocks of a unit from LBA `lba` on. -/
def encBlocks (key : List Byte) (len : Nat) : Nat → List Nat → List Nat
  | _, [] => []
  | lba, b :: bs => Config.xtsEnc key lba len b :: encBlocks key len (lba + 1) bs

def decBlocks (key : List Byte) (len : Nat) : Nat → List Nat → List Nat
  | _, [] => []
  | lba, b :: bs => Config.xtsDec key lba len b :: decBlocks key len (lba + 1) bs

/-- The key and namespace under which a context's units pass an engine, when the engines and the key store are enabled and the
slot is BOUND to the context's slice and namespace (R461). -/
def cipherFor (s : State) (c : Ctx) : Option (Ns × KSlot) :=
  if fone s Fld.XTE_CTRL_EN && fone s Fld.KST_CTRL_EN then
    match SMap.find s.zne.ns c.nsid, nsSlot s c.nsid with
    | some n, some (_, k) => if k.st = 2 ∧ k.slice = n.slice then some (n, k) else none
    | _, _ => none
  else none

/-- Encrypts one unit and checks it (R465); `agree` is what the check finds. -/
def xteEncrypt (s : State) (x u : Nat) (agree : Bool) : State :=
  match ctxUnit s x u with
  | some (c, k) =>
    match k.st, cipherFor s c with
    | .placed t, some (n, ks) =>
      let buf := unitLatch ks k
      if !xteUp s k.inst then s
      else if agree then
        let s := finc s (Fld.XTE_COUNT_COUNT 0)
        let bl := encBlocks (slotBuf ks buf) (duLen n) k.lba k.blocks
        ctxUpd s x fun c => { c with units := c.units.modify u fun k => { k with st := .checked t, blocks := bl, tries := 0, latch := none } }
      else xteAgain s x u c k 0 buf
    | _, _ => s
  | none => s

def execXteEncrypt (x u : Nat) (agree : Bool) (s : State) : Out := .next (xteEncrypt s x u agree)

/-- The ciphertext that a read's unit takes into its engine: decoded, or in the DRAM staging area (R49). -/
def cipherIn (s : State) (k : CUnit) : Option (List Nat) :=
  match k.st, k.loc with
  | .decoded, _ => some k.blocks
  | .waiting, .dram slot => (SMap.find s.zne.stg slot).map (·.blocks)
  | _, _ => none

/-- Decrypts one unit twice (R51, R465). -/
def xteDecrypt (s : State) (x u : Nat) (agree : Bool) : State :=
  match ctxUnit s x u with
  | some (c, k) =>
    match cipherIn s k, cipherFor s c with
    | some bl, some (n, ks) =>
      let buf := unitLatch ks k
      if c.opcode ≠ 2 || !xteUp s k.inst then s
      else if agree then
        let s := finc s (Fld.XTE_COUNT_COUNT 1)
        let cut := (bl.drop (k.lba % lbasPerUnit n)).take k.n
        let pl := decBlocks (slotBuf ks buf) (duLen n) k.lba cut
        let s := unitSt s x u .plain
        readDone (ctxUpd s x fun c => { c with units := c.units.modify u fun k => { k with blocks := pl, tries := 0, latch := none } }) x
      else xteAgain s x u c k 1 buf
    | _, _ => s
  | none => s

def execXteDecrypt (x u : Nat) (agree : Bool) (s : State) : Out := .next (xteDecrypt s x u agree)

/-! ### The staging copy (R47, R48, R207, R216–R219) -/

/-- The ciphertext blocks that a unit holds now; none where it reads as zeros. -/
def oldBlocks (s : State) (n : Ns) (unit : Nat) : Option (List Nat) :=
  match unitLoc s n unit with
  | .dram k => (SMap.find s.zne.stg k).map (·.blocks)
  | .flash die b page u => some (blocksOf (lbasPerUnit n) (infoPayload (unitAt s die (srcPhys s die b page) page u)))
  | .zero => none

/-- The whole unit that a partial write makes: earlier blocks kept; blocks of a conventional unit that were never written are
zeros under the namespace's key (R207, R215). -/
def mergeUnit (s : State) (n : Ns) (key : List Byte) (k : CUnit) : List Nat :=
  let lp := lbasPerUnit n
  let first := k.lba / lp * lp
  let old := match oldBlocks s n k.unit with
    | some b => b
    | none => if n.zoned then List.replicate lp 0 else encBlocks key (duLen n) first (List.replicate lp 0)
  (List.range lp).map fun i =>
    if k.lba ≤ first + i ∧ first + i < k.lba + k.blocks.length then k.blocks.getD (first + i - k.lba) 0 else old.getD i 0

/-- Inserts a run in ascending offset. -/
def runInsert (r : Run) : List Run → List Run
  | [] => [r]
  | x :: xs => if r.off < x.off then r :: x :: xs else x :: runInsert r xs

/-- Records a staged unit: it extends a run that ends before it in the neighbouring slot, or begins a run (R216). -/
def runAdd (off slot : Nat) (rs : List Run) : List Run :=
  let fits := fun (r : Run) => !r.loc1 && !r.folding && r.off + r.len == off && decide (r.len < 255) &&
    (match r.slots.getLast? with | some l => l + 1 == slot && l / 16 == slot / 16 | none => false)
  if rs.any fits then rs.map fun r => if fits r then { r with len := r.len + 1, slots := r.slots ++ [slot] } else r
  else runInsert { off := off, len := 1, loc1 := false, slots := [slot], at_ := 0, member := 0, folding := false } rs

/-- The unit's earlier copy is replaced, wherever it lies (R207, R221). -/
def runDrop (s : State) (zi off : Nat) : State :=
  let z := zoneGet s zi
  match zoneLoc s z off with
  | .zero => s
  | l => locDrop (zonePut s zi (zoneCut z off)) l

/-- A further run record of a zone would be one more than the 1,024 it may hold (R218). -/
def recordsFull (z : Zone) (off slot : Nat) : Bool := decide (1024 < (runAdd off slot z.runs).length)

/-- Step 8 may not take the copy yet: the dirty limit, or the run records of the pool or of the zone (R48, R218, R219). -/
def stagingBarred (s : State) (n : Ns) (zi off slot : Nat) : Bool :=
  let iso := isoNs s n
  !dirtyRoom s iso 4096 ||
  (n.zoned && (recordsLow s iso (fget s Fld.ZNE_STG_WATER_STOP_PCT) || recordsFull (zoneCut (zoneGet s zi) off) off slot))

/-- Counts a write's data for its slice (R80, R174). -/
def countWrite (s : State) (n : Ns) (lbas : Nat) : State :=
  let b := lbas * duLen n
  { s with slm := { s.slm with slices := SMap.upd s.slm.slices n.slice fun c =>
      { c with duW := c.duW + (b + 511) / 512, cmdW := c.cmdW + 1 } } }

/-- Every unit of a write is staged: it is durable (R47, R206). -/
def writeDurable (s : State) (x : Nat) (c : Ctx) (n : Ns) (r : WRange) : State :=
  let s := countWrite s n r.len
  if r.zoned then
    let s := rangeSettle s r.zone r.start r.len 1
    let lba := (r.zone - n.base) * zoneLbas n + r.start
    if c.opcode = 0x7D then ctxEnd s x 0 (lba % 4294967296) (lba / 4294967296) else ctxEnd s x 0 0 0
  else ctxEnd s x 0 0 0

/-- A conventional unit is staged in a slot: its entry points there from now on, unless the entry has a higher sequence number; the
copy is then not valid (R224). -/
def convStage (s : State) (n : Ns) (r : WRange) (unit slot : Nat) : State :=
  let i := n.base + unit
  let e := SMap.find s.zne.conv i
  if (match e with | some e => decide (r.seq < e.seq) | none => false) then slotDrop s slot
  else
    let s := match e with | some e => locDrop s e.loc | none => s
    { s with zne := { s.zne with conv := SMap.put s.zne.conv i { loc := .dram slot, mode := 0, seq := r.seq } },
             med := { s.med with lost := s.med.lost.filter (· != lostKey r.nsid unit) } }

/-- Copies a checked unit into DRAM staging and counts it dirty (R48); with the last the write is durable. -/
def stagingCopy (s : State) (x u : Nat) : State :=
  match ctxUnit s x u with
  | some (c, k) =>
    match k.st, c.range, SMap.find s.zne.ns c.nsid with
    | .checked t, some r, some n =>
      let s := if dirtyRoom s (isoNs s n) 4096 then s else tailWrite s true
      let slot := t.stripe * 16 + t.member
      let off := k.unit % zoneUnits n
      if stagingBarred s n r.zone off slot || pfail s then s
      else
        let key := match nsSlot s c.nsid with | some (_, ks) => slotBuf ks ks.active | none => []
        let bl := mergeUnit s n key k
        let s := if r.zoned then runDrop s r.zone off else s
        let su : SUnit := { nsid := c.nsid, unit := k.unit, slice := n.slice, seq := r.seq, blocks := bl, tgt := t, since := now s, cls := r.cls }
        let s := setMember { s with zne := { s.zne with stg := SMap.put s.zne.stg slot su } } t (.unit slot)
        let s := nrmAsk (dramWrote s (slot * 4096) 4096) c.lat 4096
        let s := if r.zoned then
            let z := zoneGet s r.zone
            zonePut s r.zone { z with runs := runAdd off slot z.runs }
          else convStage s n r k.unit slot
        let s := ctxUpd s x fun c => { c with units := c.units.modify u fun k => { k with st := .staged, loc := .dram slot, blocks := bl } }
        let s := urgency s
        match SMap.find s.hst.ctx x with
        | some c => if c.units.all fun k => k.st == .staged then writeDurable s x c n r else s
        | none => s
    | _, _, _ => s
  | none => s

def execStagingCopy (x u : Nat) (s : State) : Out := .next (stagingCopy s x u)

end Sys2Proof.Machine
end

