-- ==== Sys2Proof/Machine/Stripes.lean ====
section
/-! DEFINITION. Stripes from the last claimed slot to the switch of locations, folds, tails, quiet groups, scores and streams
(R215–R222, R240–R258, R299). -/
namespace Sys2Proof.Machine
open Sys2Proof

/-! ### Parity and programs (R243, R246, R299) -/

/-- A data member needs nothing more before the parity can be computed. -/
def settled : Member → Bool
  | .free => false
  | .claimed => false
  | .fetch _ => false
  | _ => true

/-- The stripe assembler computes the parity of a stripe whose data members are all gathered (R299). -/
def parityPut (s : State) (n : Nat) : State :=
  match SMap.find s.plc.stripes n with
  | some st =>
    if st.parity.isNone && st.members.all settled then
      { s with plc := { s.plc with stripes := SMap.put s.plc.stripes n { st with parity := some (parityOf s st) } } }
    else s
  | none => s

/-- Computes a stripe's parity; with the last stripe of its page the programs are queued. -/
def stripeAssemble (s : State) (n : Nat) : State :=
  match SMap.find s.plc.stripes n with
  | some st =>
    if st.parity.isNone && st.members.all settled then
      let s := parityPut s n
      match SMap.find s.plc.stripes n with
      | some st => programPage s st
      | none => s
    else s
  | none => s

def execStripeAssemble (n : Nat) (s : State) : Out := .next (stripeAssemble s n)

/-- Fills the free data slots of a stripe with pad (R243). -/
def padFree (s : State) (n : Nat) : State :=
  { s with plc := { s.plc with stripes := SMap.upd s.plc.stripes n fun st =>
    { st with members := st.members.map fun m => if m = .free then .pad else m } } }

/-- Pads every stripe of a page and computes the parities that can be computed. -/
def pagePad (s : State) (st : Stripe) : State :=
  let s := (pageStripes s st).foldl (fun s e => parityPut (padFree s e.1) e.1) s
  match (pageStripes s st) with
  | e :: _ => programPage s e.2
  | [] => s

/-- Stripes of a page. -/
def pageFill (st : Stripe) : Nat := 4 * st.width

/-- Opens the stripes of a page of a stream's plane set that are not open (R243). -/
def pageOpenRest (s : State) (st : Stripe) : State :=
  let n := pageFill st
  let r0 := st.half * (4 * sbPages s st.group st.mode * st.width) + st.row / 4 * n
  let s := (List.range n).foldl (fun s i =>
    let p := rowAt s st.group st.width st.mode (r0 + i)
    if (pageStripes s st).any fun e => e.2.block == st.set0 + p.2.1 && e.2.row == p.2.2 then s
    else (addStripe s (mkStripe s st.group st.set0 st.width st.mode st.par7 (r0 + i) st.key none)).2) s
  match st.key with
  | some k => { s with plc := { s.plc with opens := SMap.upd s.plc.opens (k * 128 + st.group) fun o =>
      if o.set0 = st.set0 then { o with next := max o.next (r0 + n) } else o } }
  | none => s

/-- An open stripe is padded, with the rest of its page. -/
def padStripe (s : State) (n : Nat) : State :=
  match SMap.find s.plc.stripes n with
  | some st =>
    if pageDone s st || st.members.all (· == .free) then s
    else
      match st.key with
      | some _ => pagePad (pageOpenRest s st) st
      | none => s
  | none => s

/-- An open stripe that has received no unit for HOLD_MS is padded and closed, with the rest of its page: a full stripe too while its
page is incomplete (R243). -/
def idlePad (s : State) (n : Nat) : State :=
  match SMap.find s.plc.stripes n with
  | some st =>
    if pageDone s st || st.members.all (· == .free) || st.key.isNone then s
    else padStripe (reach s (st.last + holdNs s)) n
  | none => s

def execStripeIdlePad (n : Nat) (s : State) : Out := .next (idlePad s n)

/-! ### The end of a stripe block -/

/-- Stripes of a plane set are still to be opened: its stream's, its zone's or its fold's. -/
def setOpen (s : State) (g b : Nat) : Bool :=
  (s.plc.opens.any fun e => e.1 % 128 == g && decide (e.2.set0 ≤ b ∧ b < e.2.set0 + e.2.width) &&
    decide (e.2.next < setRows s g e.2.width e.2.mode e.2.par7)) ||
  (s.plc.stripes.any fun e => e.2.group == g && e.2.block == b) ||
  (s.zne.zones.any fun e =>
    let holds := fun (x : Ext) => x.group == g && decide (x.block ≤ b ∧ b < x.block + x.set)
    match e.2.cursor with
    | some c => holds c.ext || (match c.next with | some x => holds x | none => false)
    | none => false) ||
  (s.plc.folds.any fun f => f.exts.any fun x => x.group == g && decide (x.block ≤ b ∧ b < x.block + x.set))

/-- Marks the stripe blocks of a plane set to which nothing more is written as closed. -/
def setFull (s : State) (g b0 w : Nat) : State :=
  (List.range w).foldl (fun s i =>
    if setOpen s g (b0 + i) then s
    else sbClose s g (b0 + i)) s

/-! ### Runs and extents (R216, R217, R221, R222) -/

/-- Adds one unit's place in an SLC stripe to the runs: it extends the run before it in the same stripe, or begins one. -/
def runPlace (off key member : Nat) (rs : List Run) : List Run :=
  let fits := fun (r : Run) => r.loc1 && !r.folding && r.at_ == key && r.off + r.len == off && r.member + r.len == member
  if rs.any fits then rs.map fun r => if fits r then { r with len := r.len + 1 } else r
  else runInsert { off := off, len := 1, loc1 := true, slots := [], at_ := key, member := member, folding := false } rs

/-- Two extents that lie one after the other in one plane set are one. -/
def extJoins (a b : Ext) : Bool :=
  a.off + a.len == b.off && a.skip + a.len == b.skip && a.group == b.group && a.block == b.block && a.set == b.set &&
  a.mode == b.mode && a.par7 == b.par7 && a.dm == b.dm && !a.pad && !b.pad && a.reloc == b.reloc

/-- Joins an extent to the one that follows it where they are one. -/
def extCons (a : Ext) : List Ext → List Ext
  | [] => [a]
  | b :: bs => if extJoins a b then { a with len := a.len + b.len } :: bs else a :: b :: bs

/-- Adds an extent, in ascending offset. -/
def extAdd (x : Ext) : List Ext → List Ext
  | [] => [x]
  | e :: es => if x.off < e.off then extCons x (e :: es) else extCons e (extAdd x es)

/-- The extent that one unit of a zone's stripe makes: data member `i` of stripe `st`. -/
def pieceOf (s : State) (st : Stripe) (off i : Nat) : Ext :=
  let per := 4 * sbPages s st.group st.mode * st.width
  let r := st.half * per + st.row / 4 * (4 * st.width) + (st.block - st.set0) * 4 + st.row % 4
  { off := off, len := 1, group := st.group, mode := st.mode, par7 := st.par7, pad := false, reloc := false, block := st.set0,
    set := st.width, skip := r * st.members.length + i, dm := st.members.length }

/-! ### Closing a stripe (R217, R224, R299) -/

/-- A location as the journal names it: as in a conventional map entry (R223, R323). -/
def locWord (l : Loc) : Nat := convWord { loc := l, mode := 0, seq := 0 }

/-- The record of a range of a namespace's units that a copy has moved (R323 COPY_SWITCH). -/
def journalCopy (s : State) (iso : Option Nat) (nsid first n : Nat) (src dst : Loc) : State :=
  journalHold iso (locBlock src) s 2 [nsid, first, n, locWord src, locWord dst]

/-- A copied or staged unit of a conventional namespace lies in a closed stripe: its map entry switches. -/
def convSwitch (s : State) (st : Stripe) (id : Nat) (n : Ns) (unit : Nat) (old new : Loc) : State :=
  match SMap.find s.zne.conv (n.base + unit) with
  | some e =>
    if e.loc = old then
      let copied := match old with | .flash _ _ _ _ => true | _ => false
      let s := match old with
        | .flash die b _ _ => unitDrop s (groupOf die) b
        | _ => s
      let s := unitsAdd { s with zne := { s.zne with conv := SMap.put s.zne.conv (n.base + unit) { e with loc := new, mode := st.mode } } }
        st.group st.block 1 true
      if copied then journalCopy s (isoNs s n) id unit 1 old new else s
    else s
  | none => s

/-- A staged unit of a zone lies in a closed stripe: its run record changes to LOC 1, or the unit joins the zone's extents; where that
would make a 65th extent, it stays in DRAM and the extents are rewritten, and where it would make a run record too many, as when a run's
units lie in two stripes now, it stays as well (R217, R218, R222). -/
def zoneSwitch (s : State) (st : Stripe) (n : Ns) (unit i slot : Nat) : State :=
  let zi := n.base + unit / zoneUnits n
  let off := unit % zoneUnits n
  let z := zoneGet s zi
  if zoneLoc s z off = .dram slot then
    let runs := z.runs.flatMap (cutRun off (off + 1))
    let exts := extAdd (pieceOf s st off i) z.exts
    let placed := runPlace off (stripeKey st.group st.block st.row st.half) i runs
    match st.zone with
    | some _ =>
      if exts.length ≤ 64 then unitsAdd (zonePut s zi { z with runs := runs, exts := exts }) st.group st.block 1 false
      else zonePut s zi { z with rewrite := true }
    | none =>
      if placed.length ≤ 1024 then unitsAdd (zonePut s zi { z with runs := placed }) st.group st.block 1 false else s
  else s

/-- A copied unit of a zone, no fold's, lies in a closed stripe: a run where that is an SLC staging stripe, else an extent. Where that
would make a 65th extent the old list stays, and the zone's extents are rewritten; where it would make a run record too many nothing
switches (R216, R218, R221, R222). -/
def zoneCopied (s : State) (st : Stripe) (id : Nat) (n : Ns) (unit i : Nat) (src : Loc) : State :=
  let zi := n.base + unit / zoneUnits n
  let off := unit % zoneUnits n
  let z := zoneGet s zi
  let dst := memberLoc s st.group st.block st.row st.half i
  if zoneLoc s z off = src then
    let c := zoneCut z off
    let c := if locStaged s dst then { c with runs := runPlace off (stripeKey st.group st.block st.row st.half) i c.runs }
      else { c with exts := extAdd (pieceOf s st off i) c.exts }
    if 64 < c.exts.length then zonePut s zi { z with rewrite := true }
    else if 1024 < c.runs.length then s
    else
      let s := match src with
        | .flash die b _ _ => unitDrop s (groupOf die) b
        | _ => s
      journalCopy (unitsAdd (zonePut s zi c) st.group st.block 1 false) (isoNs s n) id unit 1 src dst
  else s

/-- What becomes of data member `i` of stripe `k` as it closes. A staged unit that still lies in DRAM goes into another stripe. -/
def memberClose (s : State) (k : Nat) (st : Stripe) (i : Nat) : State :=
  let loc := memberLoc s st.group st.block st.row st.half i
  match st.members.getD i .pad with
  | .unit slot =>
    match SMap.find s.zne.stg slot with
    | some u =>
      let s := match SMap.find s.zne.ns u.nsid with
        | some n => if n.zoned then zoneSwitch s st n u.unit i slot else convSwitch s st u.nsid n u.unit (.dram slot) loc
        | none => s
      if unitHere s u.nsid u.unit (.dram slot) then
        let key := match st.key, st.zone with
          | some k, _ => k
          | none, some (zi, _) => zoneSlcKey s zi
          | none, none => 0
        rehomeOne (prepareFor s key 1 2) { stripe := k, member := i, key := key, content := .unit slot }
      else dramSlotFree s slot
    | none => s
  | .copy info src =>
    match infoOwner s info with
    | some (id, n, unit) => if n.zoned then zoneCopied s st id n unit i src else convSwitch s st id n unit src loc
    | none => s
  | _ => s

/-- The pieces of a zone that a fold's stripe holds, each with where its unit was copied from. -/
def foldPieces (s : State) (st : Stripe) : List (Ext × Loc) :=
  (List.range st.members.length).filterMap fun i =>
    match st.members.getD i .pad with
    | .copy info src => (infoOwner s info).map fun e => (pieceOf s st (e.2.2 % zoneUnits e.2.1) i, src)
    | _ => none

/-- The units of a fold's pieces whose source still stands: the others have been written anew, or reset, and are discarded (R217, R307). -/
def foldLive (s : State) (z : Zone) (f : Fold) : List (Ext × Loc) :=
  f.done.flatMap fun x => (List.range x.len).filterMap fun i =>
    match SMap.find f.srcs (x.off + i) with
    | some src =>
      if zoneLoc s z (x.off + i) = src then some ({ x with off := x.off + i, len := 1, skip := x.skip + i }, src) else none
    | none => none

/-- The extents of a zone once a fold's units have their places. -/
def foldMerge (es : List Ext) (ps : List (Ext × Loc)) : List Ext :=
  ps.foldl (fun es p => extAdd p.1 (es.flatMap (cutExt p.1.off))) es

/-- The location of an extent's first unit. -/
def pieceLoc (s : State) (x : Ext) : Loc :=
  let p := extStripe s x x.off
  memberLoc s x.group p.1 p.2.1 p.2.2.1 p.2.2.2

/-- One unit of a zone has moved from a location into an extent of a fold. -/
def offMove (s : State) (x : Ext) (src : Loc) : State :=
  let s := match src with
    | .flash die b _ _ => unitDrop s (groupOf die) b
    | _ => s
  unitsAdd s x.group (extStripe s x x.off).1 1 false

/-- Two locations lie in one stripe block's stripe, in any members. -/
def stripeMate (a b : Loc) : Bool :=
  match a, b with
  | .flash d x p u, .flash d' x' p' u' => groupOf d == groupOf d' && x == x' && p == p' && u == u'
  | _, _ => false

/-- Units that a fold has moved, as ranges: consecutive offsets from one source stripe to one destination stripe. -/
def moveRanges : List (Nat × Loc × Loc) → List (Nat × Nat × Loc × Loc)
  | [] => []
  | (off, a, b) :: l =>
    match moveRanges l with
    | (off', n, a', b') :: rs => if off + 1 = off' ∧ stripeMate a a' ∧ stripeMate b b' then (off, n + 1, a, b) :: rs else (off, 1, a, b) :: (off', n, a', b') :: rs
    | [] => [(off, 1, a, b)]

/-- PLC_FOLDS. -/
def foldsShow (s : State) : State :=
  fset (fset s Fld.PLC_FOLDS_RUNNING s.plc.folds.length) Fld.PLC_FOLDS_Q2 (b2n (s.plc.folds.any (·.q2)))

/-- Journals the ranges of zone `zi` that a fold has moved (R323). -/
def foldJournal (s : State) (zi : Nat) (dst : List (Nat × Loc × Loc)) : State :=
  match nsOfZone s zi with
  | some (id, n) => (moveRanges dst).foldl (fun s r =>
      journalCopy s (isoNs s n) id ((zi - n.base) * zoneUnits n + r.1) r.2.1 r.2.2.1 r.2.2.2) s
  | none => s

/-- The units of a fold's pieces take their places in the zone's extents, and leave its runs. -/
def foldPlace (s : State) (zi : Nat) (live : List (Ext × Loc)) : State :=
  let z := zoneGet s zi
  let runs := (live.map fun p => p.1.off).foldl (fun rs o => rs.flatMap (cutLoc1 o)) z.runs
  let exts := foldMerge z.exts live
  let dst := live.map fun p => (p.1.off, p.2, pieceLoc s p.1)
  let s := live.foldl (fun s p => offMove s p.1 p.2) s
  foldJournal (zonePut s zi { foldRest { z with runs := runs, exts := exts } with rewrite := false }) zi dst

/-- A fold of a zone has closed its last stripe: its pieces replace the runs and extents they copy, where these stand. Where that would make
a 65th extent the old list stays, and the zone's extents are rewritten (R217, R222). -/
def foldCommit (s : State) (f : Fold) : State :=
  let z := zoneGet s f.obj
  let live := foldLive s z f
  let s := foldsShow { s with plc := { s.plc with folds := s.plc.folds.filter fun x => x != f } }
  let s := if 64 < (foldMerge z.exts live).length then zonePut s f.obj { foldRest z with rewrite := true } else foldPlace s f.obj live
  f.exts.foldl (fun s x => setFull s x.group x.block x.set) s

/-- Every member of the stripe has programmed with good status: it closes (R217, R299, R323). -/
def stripeClose (s : State) (n : Nat) : State :=
  match SMap.find s.plc.stripes n with
  | some st =>
    if st.parity.isNone || !st.toProg.isEmpty then s
    else
      let gone := goneMembers s st.group
      let s := if gone.isEmpty then s
        else
          let k := stripeKey st.group st.block st.row st.half
          { s with med := { s.med with layouts := SMap.put s.med.layouts k (st.mem, st.par) } }
      let heads := (List.range st.members.length).flatMap fun i => [infoLaddr (memberInfo s st i), infoSeq (memberInfo s st i)]
      let s := journalFor (stripeIso s st) s 1 ([st.group, st.block, st.row / 4, st.row % 4] ++ heads)
      let mine := s.plc.folds.find? fun f => f.stripes.contains n
      let pieces := foldPieces s st
      let stripes := SMap.del s.plc.stripes n
      let folds := s.plc.folds.map fun f =>
        if f.stripes.contains n then
          { f with stripes := f.stripes.filter (· != n), done := if f.zoned then pieces.foldl (fun es x => extAdd x.1 es) f.done else [],
                   srcs := if f.zoned then pieces.foldl (fun m x => SMap.put m x.1.off x.2) f.srcs else [] }
        else f
      let zoned := match mine with | some f => f.zoned | none => false
      let s := { s with plc := { s.plc with stripes := stripes, folds := folds } }
      let s := if zoned then s else (List.range st.members.length).foldl (fun s i => memberClose s n st i) s
      let s := (s.plc.folds.filter fun f => f.stripes.isEmpty && f.zoned).foldl foldCommit s
      let left := s.plc.folds.filter fun f => !f.stripes.isEmpty
      let s := foldsShow { s with plc := { s.plc with folds := left } }
      emgErase (urgency (tailWrite (streamsRefresh (sweep (grpRefresh (setFull s st.group st.set0 st.width) st.group))) false))
  | none => s

def execStripeClose (n : Nat) (s : State) : Out := .next (stripeClose s n)

/-! ### Streams (R240, R241) -/

/-- The refresher prepares a stripe for an active stream whose free slots have fallen below 65 (R241, R255). -/
def stripePrepare (s : State) (k : Nat) : State :=
  let staged := (classOf s (keyClass k)).mode == 0 && keyVia k != 1
  if !fone s Fld.PLC_CTRL_EN || (SMap.find s.plc.streams k).isNone || decide (65 ≤ streamFree s k) || (staged && stgAt s 100)
  then s else rehomeWaiting (prepare s k) k

def execStripePrepare (key : Nat) (s : State) : Out := .next (stripePrepare s key)

/-- A stream without an open stripe becomes inactive HOLD_MS after its last unit (R240); its unclaimed stripes go back. -/
def streamInactive (s : State) (k : Nat) : State :=
  match SMap.find s.plc.streams k with
  | some st =>
    if s.plc.stripes.any fun e => e.2.key == some k && e.2.members.any (· != .free) then s
    else
      let s := reach s (st.last + holdNs s)
      let gone := s.plc.stripes.filter fun e => e.2.key == some k
      let opens := gone.foldl (fun o e =>
        SMap.upd o (k * 128 + e.2.group) fun x => if x.set0 = e.2.set0 then { x with next := x.next - 1 } else x) s.plc.opens
      let stripes := s.plc.stripes.filter fun e => e.2.key != some k
      let s := { s with plc := { s.plc with streams := SMap.del s.plc.streams k, stripes := stripes, opens := opens } }
      streamsRefresh ((gone.map (·.2.group)).eraseDups.foldl grpRefresh s)
  | none => s

def execStreamInactive (key : Nat) (s : State) : Out := .next (streamInactive s key)

/-! ### Zones in direct placement (R246, R247) -/

/-- The stripes of the last page that a zone has not opened, as pad (R246). -/
def padRest (s : State) (zi : Nat) (x : Ext) (r : Nat) : Nat → State
  | 0 => s
  | k + 1 =>
    if r % (4 * x.set) = 0 then s
    else
      let s := match extOpen s x r with
        | some _ => s
        | none =>
          let st := mkStripe s x.group x.block x.set x.mode x.par7 r none (some (zi, extOff x r))
          (addStripe s { st with members := List.replicate x.dm .pad }).2
      padRest s zi x (r + 1) k

/-- The pages of a zone whose data members are all staged are programmed; when the zone is Full and nothing is in flight, the rest
of its last page is pad (R246). -/
def directProgram (s : State) (zi : Nat) : State :=
  let z := zoneGet s zi
  let s := match z.cursor with
    | some cur =>
      if z.st = 14 ∧ !inFlight z then
        let here := (zoneStripes s zi).filter fun e => e.2.group == cur.ext.group && e.2.set0 == cur.ext.block
        let rows := here.map fun e => match e.2.zone with | some (_, o) => extRow cur.ext o + 1 | none => 0
        let last := rows.foldl max 0
        let s := padRest s zi cur.ext last (4 * cur.ext.set)
        let s := (zoneStripes s zi).foldl (fun s e => padFree s e.1) s
        let x := cur.ext
        let s := zonePut s zi { zoneGet s zi with cursor := none }
        let s := match cur.next with | some y => setsDone s y | none => s
        setFull s x.group x.block x.set
      else s
    | none => s
  (zoneStripes s zi).foldl (fun s e => stripeAssemble s e.1) s

def execDirectPageProgram (z : Nat) (s : State) : Out := .next (directProgram s z)

/-- The zone of its account with the oldest tail. -/
def oldestTail (s : State) (zi : Nat) : Bool :=
  s.zne.zones.all fun e => !hasTail s e.1 || zoneIso s e.1 != zoneIso s zi || decide ((zoneGet s zi).last ≤ e.2.last)

/-- A zone's tail leaves direct placement: HOLD_MS after its last unit, or as the oldest tail once the dirty counter has reached
TAIL_PCT (R247). -/
def tailFlush (s : State) (zi : Nat) : State :=
  match nsOfZone s zi with
  | some (_, n) =>
    let z := zoneGet s zi
    if z.cursor.isNone || !hasTail s zi then s
    else
      let s := if dirtyAt s (isoNs s n) (fget s Fld.PLC_DIRECT_TAIL_PCT) && oldestTail s zi then s else reach s (z.last + holdNs s)
      leaveTail s zi
  | none => s

def execTailFlush (z : Nat) (s : State) : Out := .next (tailFlush s z)

/-! ### Folds (R217, R218, R222, R255–R257) -/

/-- Units of a zone in its longest sequence of staged runs at consecutive offsets. -/
def stagedRow (rs : List Run) : Nat :=
  (rs.foldl (fun (a : Nat × Nat × Nat) r =>
    let n := if r.off = a.1 then a.2.1 + r.len else r.len
    (r.off + r.len, n, max a.2.2 n)) (0, 0, 0)).2.2

/-- The runs of a zone that can be folded: in SLC stripes, and in no fold. -/
def foldRuns (z : Zone) : List Run := z.runs.filter fun r => r.loc1 && !r.folding

/-- The sequence number of a run's first unit. -/
def runSeq (s : State) (z : Zone) (r : Run) : Nat :=
  match zoneLoc s z r.off with
  | .flash die b page u => infoSeq (unitAt s die (srcPhys s die b page) page u)
  | _ => 0

/-- The oldest of a zone's runs that can be folded. -/
def oldestRun (s : State) (z : Zone) : Option Nat :=
  (foldRuns z).foldl (fun (m : Option Nat) r =>
    match m with
    | some v => some (min v (runSeq s z r))
    | none => some (runSeq s z r)) none

/-- The class of a zone folds under the occupancy rules: STAGED, and not NONE (R255). -/
def foldsByLevel (s : State) (z : Zone) : Bool := (classOf s z.cls).mode == 0 && (classOf s z.cls).fold != 3

/-- No other zone of those that `p` selects holds an older run than this one: the oldest runs are folded first (R218, R255). -/
def oldestFirst (s : State) (zi : Nat) (z : Zone) (p : Nat → Zone → Bool) : Bool :=
  match oldestRun s z with
  | some v => s.zne.zones.all fun e =>
      e.1 == zi || !p e.1 e.2 || (match oldestRun s e.2 with | some w => decide (v ≤ w) | none => true)
  | none => false

/-- Whether a fold of a zone starts, and in class Q2 (R218, R222, R255, R256). A zone that left direct placement folds, its class
having FOLD NONE, once it is Full or at the triggers of R218 (R247; DESIGN CHOICE, notes/assumptions/84.md). -/
def foldDue (s : State) (n : Ns) (zi : Nat) (z : Zone) : Option Bool :=
  let e := classOf s z.cls
  let high := stgAt s (highPct s)
  if 1024 ≤ z.runs.length then some true
  else if recordsLow s (isoNs s n) (fget s Fld.ZNE_STG_WATER_HIGH_PCT) && oldestFirst s zi z (fun y _ => zoneIso s y == isoNs s n) then some true
  else if z.rewrite then some high
  else if foldsByLevel s z && stgLow s && oldestFirst s zi z (fun _ y => foldsByLevel s y) then some high
  else if e.mode = 0 ∧ (e.fold = 1 ∨ e.fold = 2) ∧ z.st = 14 then some high
  else if e.mode = 0 ∧ e.fold = 2 ∧ e.eager ≤ stagedRow z.runs then some high
  else if e.mode ≠ 0 ∧ z.left ∧ z.st = 14 then some false
  else none

/-- The units to copy among zone offsets: offset, and where the unit lies. -/
def foldUnit (s : State) (z : Zone) (off : Nat) : Option (Nat × Loc) :=
  match zoneLoc s z off with
  | .flash die b page u => some (off, .flash die b page u)
  | _ => none

/-- Begins the source reads of a fold's units (R306): each with the identifier of its read. -/
def foldReads (s : State) (cls zi id : Nat) (n : Ns) : List (Nat × Loc) → List (Nat × Nat) × State
  | [] => ([], s)
  | u :: us =>
    let k := s.dsc.nextId
    let rest := foldReads (bgStart s cls n.slice id ((zi - n.base) * zoneUnits n + u.1) u.2) cls zi id n us
    ((u.1, k) :: rest.1, rest.2)

/-- The offsets of the runs that a fold of a zone takes. -/
def foldOffs (z : Zone) : List Nat := (foldRuns z).flatMap fun r => (List.range r.len).map (r.off + ·)

/-- The fold rewrites all extents as well: it would leave more than 64 (R222). -/
def foldWhole (z : Zone) : Bool :=
  z.rewrite || decide (64 < z.exts.length + (((foldOffs z).zip ((foldOffs z).drop 1)).countP (fun p => p.1 + 1 != p.2) + 1))

/-- The units that a fold of a zone copies. -/
def foldUnits (s : State) (n : Ns) (z : Zone) : List (Nat × Loc) :=
  let offs := if foldWhole z then
      (List.range (zoneUnits n)).filter fun o => (foldOffs z).contains o || z.exts.any fun e => !e.pad && decide (e.off ≤ o ∧ o < e.off + e.len)
    else foldOffs z
  offs.filterMap (foldUnit s z)

/-- The reads that the slots of some stripes wait for. -/
def foldIds (s : State) (ks : List Nat) : List Nat :=
  ks.flatMap fun k => match SMap.find s.plc.stripes k with
    | some st => st.members.filterMap fun m => match m with | .fetch i => some i | _ => none
    | none => []

/-- Starts a fold of a zone's runs; a fold that would leave more than 64 extents rewrites all extents as well (R222). -/
def foldZone (s : State) (zi id : Nat) (n : Ns) (q2 : Bool) : State :=
  let z := zoneGet s zi
  let cls := if q2 then 2 else 3
  let whole := foldWhole z
  let us := foldUnits s n z
  let reads := foldReads s cls zi id n us
  let sets := foldSets reads.2 cls (now s) zi z.cls n (reads.1.map fun u => (u.1, Member.fetch u.2)) 64
  let ids := foldIds sets.2 sets.1.stripes
  if ids.length < us.length ∧ whole ∨ ids.isEmpty then s
  else
    let s := sets.2
    let taken := (us.take ids.length).map (·.1)
    let drop := (reads.1.drop ids.length).map (·.2)
    let s := { s with dsc := { s.dsc with bg := SMap.keep s.dsc.bg fun k _ => !drop.contains k } }
    let runs := z.runs.map fun r => if r.loc1 && taken.contains r.off then { r with folding := true } else r
    let exts := if whole then z.exts.map fun e => { e with reloc := true } else z.exts
    let s := if whole then fon s Fld.ZNE_EVENTS_EXTENT_REWRITE else s
    let s := zonePut s zi { zoneGet s zi with runs := runs, exts := exts }
    let f : Fold := { zoned := true, obj := zi, exts := sets.1.exts, stripes := sets.1.stripes, q2 := q2, done := [] }
    let s := foldsShow { s with plc := { s.plc with folds := s.plc.folds ++ [f] } }
    ids.foldl (fun s k => serveRead s (bgBase + k) 0) s

/-- Inserts a staged unit in ascending sequence number. -/
def seqInsert (u : Nat × Nat × Loc) : List (Nat × Nat × Loc) → List (Nat × Nat × Loc)
  | [] => [u]
  | x :: xs => if u.1 < x.1 then u :: x :: xs else x :: seqInsert u xs

/-- The oldest staged units of a stream's conventional data: sequence number, information bytes, location (R256). -/
def convOldest (s : State) (key : Nat) : List (Nat × Nat × Loc) :=
  let mine := s.zne.conv.filterMap fun e =>
    match e.2.loc with
    | .flash die b page u =>
      match SMap.find s.med.inUse (sbKey (groupOf die) b) with
      | some use =>
        if use.staging && use.key == some key then
          some (e.2.seq, unitAt s die (srcPhys s die b page) page u, e.2.loc)
        else none
      | none => none
    | _ => none
  (mine.foldl (fun l u => seqInsert u l) []).take 60

/-- A fold of conventional units moves the oldest staged units of a stream together into FOLD_MODE blocks (R255, R256). -/
def foldConv (s : State) (key : Nat) : State :=
  let e := classOf s (keyClass key)
  if e.mode ≠ 0 ∨ e.fold = 3 ∨ !stgLow s ∨ s.plc.folds.any (fun f => !f.zoned && f.obj == key) then s
  else
    let q2 := stgAt s (highPct s)
    let us := convOldest s key
    if us.isEmpty then s
    else
      let s := us.foldl (fun s u => copyUnit (if q2 then 2 else 3) s u.2) s
      let srcs := us.map (·.2.2)
      let mine := fun (m : Member) => match m with
        | .copy _ l => srcs.contains l
        | .fetch i => (match SMap.find s.dsc.bg i with | some r => srcs.contains (.flash r.die r.block r.page r.pos) | none => false)
        | _ => false
      let hit := (s.plc.stripes.filter fun st => st.2.members.any mine).map (·.1)
      if hit.isEmpty then s
      else
        let f : Fold := { zoned := false, obj := key, exts := [], stripes := hit, q2 := q2, done := [] }
        foldsShow { s with plc := { s.plc with folds := s.plc.folds ++ [f] } }

/-- A fold starts under its policy, the occupancy or the record triggers. -/
def foldStart (s : State) (zoned : Bool) (obj : Nat) : State :=
  if bgStopped s || !fone s Fld.PLC_CTRL_EN then s
  else if zoned then
    match nsOfZone s obj with
    | some (id, n) =>
      let z := zoneGet s obj
      if s.plc.folds.any (fun f => f.zoned && f.obj == obj) || ((foldRuns z).isEmpty && !z.rewrite) then s
      else
        match foldDue s n obj z with
        | some q2 => foldZone s obj id n q2
        | none => s
    | none => s
  else foldConv s obj

def execFoldStart (zoned : Bool) (obj : Nat) (s : State) : Out := .next (foldStart s zoned obj)

/-! ### Scores and quiet groups (R249, R250, R258) -/

/-- Sum of the P/E counts of the blocks of a group's members in service, in quarters. -/
def groupPe (s : State) (g : Nat) : Nat :=
  s.med.blocks.foldl (fun n e =>
    let d := e.1 / 1048576
    if groupOf d = g ∧ !dieGone s d ∧ !e.2.retired then n + e.2.pe else n) 0

/-- Mean P/E count of a group in quarters, as a fraction: the sum over its blocks, and how many they are. -/
def meanPe (s : State) (g : Nat) : Nat × Nat := (groupPe s g, max 1 (membersOf s g * gBlocksOf s g))

/-- The lesser of two means. -/
def meanMin (a b : Nat × Nat) : Nat × Nat := if a.1 * b.2 ≤ b.1 * a.2 then a else b

/-- The score of a group, given the lowest mean P/E count (R258). -/
def scoreOf (s : State) (low : Nat × Nat) (g : Nat) : Int :=
  let free := 256 * gFreeOf s g / max 1 (gBlocksOf s g)
  let spread := max 1 (fget s Fld.LDC_MED_WL_SPREAD)
  let mean := meanPe s g
  let wear := min 255 (256 * (mean.1 * low.2 - low.1 * mean.2) / (4 * spread * mean.2 * low.2))
  let load := min 255 (256 * SMap.getD s.plc.peLog g 0 / 1000000)
  (fget s Fld.PLC_SCORE_W_FREE * free : Nat) - (fget s Fld.PLC_SCORE_W_PE * wear : Nat) - (fget s Fld.PLC_SCORE_W_LOAD * load : Nat)

/-- The refresher computes the score of every present group. -/
def scoreTick (s : State) : State :=
  let gs := (groupCount s).filter fun g => grp s Fld.PLC_GRP_PRESENT_GROUPS g
  let low := gs.foldl (fun (m : Option (Nat × Nat)) g => match m with | some v => some (meanMin v (meanPe s g)) | none => some (meanPe s g)) none
  let score := gs.foldl (fun m g => SMap.put m g (scoreOf s (low.getD (0, 1)) g)) ([] : SMap Int)
  { s with plc := { s.plc with score := score } }

def execGroupScoreTick (s : State) : Out := .next (scoreTick s)

/-- Discards the prepared stripes of a group from which no slot has been claimed (R250). -/
def discardPrepared (s : State) (g : Nat) : State :=
  let idle := fun (st : Stripe) => st.group == g && st.key.isSome && st.members.all (· == .free)
  let gone := s.plc.stripes.filter fun e => idle e.2
  let opens := gone.foldl (fun o e =>
    match e.2.key with
    | some k => SMap.upd o (k * 128 + g) fun x => if x.set0 = e.2.set0 then { x with next := x.next - 1 } else x
    | none => o) s.plc.opens
  streamsRefresh (grpRefresh { s with plc := { s.plc with stripes := s.plc.stripes.filter fun e => !idle e.2, opens := opens } } g)

/-- A group becomes QUIET when its read backlog exceeds ENTER_US, unless the limit of quiet groups or the gap bars it
(R249). -/
def quietEnter (s : State) (g : Nat) : State :=
  let gap := match SMap.find s.plc.quietEnd g with
    | some t => decide (now s < t + fget s Fld.PLC_QUIET_TIME_GAP_MS * 1000000)
    | none => false
  if grp s Fld.PLC_GRP_QUIET_GROUPS g || decide (SMap.getD s.plc.rdLog g 0 ≤ fget s Fld.PLC_QUIET_ENTER_US * 1000) || gap then s
  else if fget s Fld.PLC_QUIET_MAX_GROUPS ≤ s.plc.quiet.length then fon s Fld.PLC_EVENTS_QUIET_CAP
  else
    let t := now s
    let s := { s with plc := { s.plc with quiet := SMap.put s.plc.quiet g t } }
    discardPrepared (grpSet s Fld.PLC_GRP_QUIET_GROUPS g true) g

def execGroupQuietEnter (g : Fin 128) (s : State) : Out := .next (quietEnter s g.val)

/-- A group stops being QUIET: below EXIT_US, or after MAX_MS (R249). -/
def quietExit (s : State) (g : Nat) : State :=
  match SMap.find s.plc.quiet g with
  | some t =>
    let s := if SMap.getD s.plc.rdLog g 0 < fget s Fld.PLC_QUIET_EXIT_US * 1000 then s
      else reach s (t + fget s Fld.PLC_QUIET_TIME_MAX_MS * 1000000)
    let tn := now s
    let s := { s with plc := { s.plc with quiet := SMap.del s.plc.quiet g, quietEnd := SMap.put s.plc.quietEnd g tn } }
    sweep (grpSet s Fld.PLC_GRP_QUIET_GROUPS g false)
  | none => s

def execGroupQuietExit (g : Fin 128) (s : State) : Out := .next (quietExit s g.val)

/-- A write to PLC_GRP_HOLD is journaled before it takes effect (R229, R323). -/
def wrGrpHold (s : State) (i : Nat) (v : Word) : State :=
  genWrite (journal s 9 [i, v.toNat]) (Reg.PLC_GRP_HOLD i) v

def execPlcGrpHoldWrite (m : Master) (i : Fin 4) (v : Word) (s : State) : Out :=
  .next (gated s m (Reg.PLC_GRP_HOLD i.val) fun s => wrGrpHold s i.val v)

/-- The erase of a deleted isolated slice's group has ended: it loses DEDICATED (R253). -/
def dedicatedRelease (s : State) (g : Nat) : State :=
  let busy := (s.med.inUse.any fun e => e.1 / 1048576 == g) || (s.med.erasing.any fun e => e.1 / 1048576 == g)
  if grp s Fld.PLC_GRP_DEDICATED_GROUPS g && (isoOf s g).isNone && !busy then
    grpRefresh (grpSet s Fld.PLC_GRP_DEDICATED_GROUPS g false) g
  else s

def execDedicatedGroupRelease (g : Fin 128) (s : State) : Out := .next (dedicatedRelease s g.val)

end Sys2Proof.Machine
end

