-- ==== Sys2Proof/Machine/Supply.lean ====
section
/-! DEFINITION. The supply guard: disturbance classes, the charger, the discharge test, the dirty limit, power-fail and the
release of the compute supplies (R436–R451, R599, R611). Voltages are readings in 10 mV. -/
namespace Sys2Proof.Machine
open Sys2Proof

/-! ### The bank and its energy (R439, R440, R444) -/

/-- The target voltage: clamped to 20.00–38.00 V. -/
def bankTarget (s : State) : Nat := clamp 2000 3800 (fget s Fld.SGD_HU_CFG_TARGET_10MV)

/-- Cells of the bank: 0 is treated as 1. -/
def bankCells (s : State) : Nat := max 1 (fget s Fld.SGD_HU_CFG_CELLS)

/-- The capacitance in 10 µF: the last measured, or C_NOM before any measurement. -/
def bankC (s : State) : Nat := if fget s Fld.SGD_HU_CAP_CMEAS_10UF = 0 then fget s Fld.SGD_HU_CAP_CNOM_10UF else fget s Fld.SGD_HU_CAP_CMEAS_10UF

/-- e_avail of R444 at bank voltage `v`, as a fraction in mJ: numerator and denominator. -/
def eAvail (s : State) (v : Nat) : Nat × Nat :=
  let k := bankCells s
  let vmin := fget s Fld.SGD_HU_VMIN_VMIN_10MV
  let eff := min 100 (fget s Fld.SGD_HU_VMIN_EFF_PCT)
  (eff * bankC s * (if k = 1 then 1 else k - 1) * (v * v - vmin * vmin), 200000000 * k)

/-- The dirty limit that R444 computes for bank voltage `v`, in MiB. -/
def dirtyLimitAt (s : State) (v : Nat) : Nat :=
  let e := eAvail s v
  let fixed := fget s Fld.SGD_ENERGY_CFG_FIXED_MJ * e.2
  if e.1 ≤ fixed then 0
  else
    let l := (e.1 - fixed) * 1000 / (e.2 * max 1 (fget s Fld.SGD_ENERGY_CFG_E_MIB_UJ))
    min (fget s Fld.SGD_DIRTY_MAX_MIB) (l - l % 16)

/-- The stop voltage of a test (R441). -/
def testV2 (s : State) : Nat := bankTarget s * clamp 80 97 (fget s Fld.SGD_TEST_CFG_STOP_PCT) / 100

/-- STATE of a test: 0 idle, 1 waiting, 2 charging, 3 discharging (R456). -/
def testSt (s : State) : Nat := fget s Fld.SGD_TEST_CTRL_STATE

/-- The bank reads `v`: what is shown, and the readings of the last 1 ms (R444). -/
def bankShow (s : State) (v : Nat) : State :=
  let l := (now s, v) :: s.sgd.lows.filter fun e => decide (now s < e.1 + 1000000)
  fset { s with sgd := { s.sgd with lows := l } } Fld.SGD_HU_STATE_VBANK_10MV v

/-- min(target, lowest bank reading of the last 1 ms) (R444). -/
def bankV (s : State) : Nat :=
  s.sgd.lows.foldl (fun v e => if now s < e.1 + 1000000 then min v e.2 else v)
    (min (bankTarget s) (fget s Fld.SGD_HU_STATE_VBANK_10MV))

/-- The voltage the limit is computed at: V2 from step 1 to the end of step 5 of a test (R441, R444). -/
def limitV (s : State) : Nat := if testSt s ≠ 0 then testV2 s else bankV s

/-- Recomputes the dirty limit (R444). -/
def limitSet (s : State) : State :=
  let l := dirtyLimitAt s (limitV s)
  let s := fset s Fld.SGD_DIRTY_LIMIT_MIB l
  urgency (if l < fget s Fld.SGD_DIRTY_MIN_MIN_MIB then fon s Fld.SGD_EVENTS_LIMIT_LOW else s)

def execDirtyLimitRecompute (s : State) : Out := .next (limitSet s)

/-- The hold-up budget the SGD writes over its own path, whatever UMP_CTRL.LOCK says (R446). -/
def budgetSet (s : State) : State := fset s Fld.UMP_HOLDUP_BUDGET_W ((5 * fget s Fld.SGD_DIRTY_MIN_FLUSH_W + 3) / 4)

/-- A write of SGD_DIRTY_MIN: FLUSH_W changes the hold-up budget (R444, R446). -/
def wrDirtyMin (s : State) (v : Word) : State := budgetSet (limitSet (genWrite s Reg.SGD_DIRTY_MIN v))

def execSgdFlushWWrite (m : Master) (v : Word) (s : State) : Out := .next (gated s m Reg.SGD_DIRTY_MIN fun s => wrDirtyMin s v)

/-! ### The charger (R439) -/

/-- The input is in class `k`. -/
def inClass (s : State) (k : Nat) : Bool := (SMap.find s.sgd.dist k).isSome

/-- What the charger does now, as SGD_HU_STATE.CHG shows it. -/
def chgNow (s : State) : Nat :=
  let v := fget s Fld.SGD_HU_STATE_VBANK_10MV
  if (s.sgd.sgFail && s.sgd.pfail) || inClass s 3 || inClass s 4 || s.sgd.ov then 5
  else if !fone s Fld.SGD_CTRL_CHARGE_EN then 0
  else if testSt s = 3 then 4
  else if inClass s 2 then 3
  else if v < bankTarget s - fget s Fld.SGD_HU_CFG_HYST_10MV then 1 else 2

/-- Brings the charger's state up to date, and what a waiting test waits for (R456); `chgAt` is when charging towards the target began. -/
def chgUpdate (s : State) : State :=
  let c := chgNow s
  let s := fset s Fld.SGD_HU_STATE_CHG c
  let s := if testSt s = 1 ∨ testSt s = 2 then fset s Fld.SGD_TEST_CTRL_STATE (if c = 2 then 1 else 2) else s
  let t := now s
  let at_ := if c = 1 then (match s.sgd.chgAt with | some x => some x | none => some t)
    else if c = 2 ∧ fget s Fld.SGD_HU_STATE_VBANK_10MV < bankTarget s then s.sgd.chgAt else none
  { s with sgd := { s.sgd with chgAt := at_ } }

/-- A reading of the bank. -/
def bankRead (s : State) (v : Nat) : State :=
  let s := bankShow s v
  let ov := s.sgd.ov && decide (bankTarget s ≤ v)
  chgUpdate { s with sgd := { s.sgd with ov := ov } }

def execBankBelowRecharge (v : Nat) (s : State) : Out := .next (bankRead s v)
def execBankAtTarget (v : Nat) (s : State) : Out := .next (bankRead s v)

/-- The target is not reached within 120 s of charging; the charger goes on (R439). -/
def execChargeTimeout (s : State) : Out :=
  .next (match s.sgd.chgAt with
    | some t =>
      let s := reach s (t + 120000000000)
      let tn := now s
      let s := fon { s with sgd := { s.sgd with chgAt := some tn } } Fld.SGD_EVENTS_CHARGE_FAULT
      post s 12 8 false (fget s Fld.SGD_HU_STATE_VBANK_10MV) 0 0 0
    | none => s)

/-- The bank exceeds the target by 1.0 V: the charger stops (R439). -/
def execBankOvervoltage (v : Nat) (s : State) : Out :=
  .next (if bankTarget s + 100 < v then
      let s := fon (bankShow s v) Fld.SGD_EVENTS_BANK_OV
      chgUpdate (post { s with sgd := { s.sgd with ov := true } } 12 9 false v 0 0 0)
    else bankRead s v)

/-! ### The input (R436) -/

/-- SGD_VIN: the input now, its lowest reading, its class. -/
def vinRead (s : State) (v : Nat) : State :=
  let s := fset s Fld.SGD_VIN_NOW_10MV (min 2047 v)
  let s := fset s Fld.SGD_VIN_MIN_10MV (min (min 2047 v) (fget s Fld.SGD_VIN_MIN_10MV))
  let dist := SMap.mapv s.sgd.dist fun k d =>
    if k = 4 then { d with extreme := max d.extreme v } else if k = 5 then d else { d with extreme := min d.extreme v }
  { s with sgd := { s.sgd with dist := dist, low := min s.sgd.low v } }

/-- The class the register shows: the highest in force. -/
def classShow (s : State) : State :=
  let c := ([4, 3, 2, 1].find? fun k => inClass s k).getD 0
  let s := fset (fset s Fld.SGD_VIN_CLASS c) Fld.SGD_VIN_RIPPLE (b2n (inClass s 5))
  chgUpdate s

/-- The restart hold starts anew from now, or waits for the input to return past RESTART (R451). -/
def backSet (s : State) : State :=
  let v := fget s Fld.SGD_VIN_NOW_10MV
  let ok := decide (fget s Fld.SGD_VTH_C_RESTART ≤ v ∧ v < fget s Fld.SGD_VTH_B_SURGE)
  let t := now s
  let back := if ok then (match s.sgd.back with | some x => some x | none => some t) else none
  { s with sgd := { s.sgd with back := back } }

/-- The input enters class `k` with extreme `x` (R436). -/
def classEnter (s : State) (k x : Nat) : State :=
  let t := now s
  let ev : Field := ⟨Fld.SGD_EVENTS_SAG.addr, k - 1, 1⟩
  if inClass s k then s
  else
    let s := fon { s with sgd := { s.sgd with dist := SMap.put s.sgd.dist k { since := t, extreme := x, silent := false } } } ev
    classShow (if k ≤ 4 then finc s (Fld.SGD_COUNT_COUNT (k - 1)) else s)

/-- Input < SAG for SAG_US: recorded only. -/
def execSagEnter (v : Nat) (s : State) : Out :=
  .next (if v < fget s Fld.SGD_VTH_A_SAG then backSet (classEnter (vinRead s v) 1 v) else s)

/-- Input < BROWN for 20 µs: the charger pauses. -/
def execBrownOutEnter (v : Nat) (s : State) : Out :=
  .next (if v < fget s Fld.SGD_VTH_A_BROWN then backSet (classEnter (vinRead s v) 2 v) else s)

/-- Peak-to-peak over RIPPLE_MV in 10 windows: recorded only. -/
def execRippleEnter (mv : Nat) (s : State) : Out :=
  .next (if fget s Fld.SGD_VTH_C_RIPPLE_MV < mv then classEnter s 5 mv else s)

/-- Input > SURGE: the charger stops at once. -/
def execSurgeEnter (v : Nat) (s : State) : Out :=
  .next (if fget s Fld.SGD_VTH_B_SURGE < v then backSet (classEnter (vinRead s v) 4 v) else s)

/-! ### Dropouts and power-fail (R437, R449, R451, R454) -/

/-- Dropouts of the last 60 s, and the restart hold they give (R451). -/
def dropsShow (s : State) : State :=
  let t := now s
  let drops := s.sgd.drops.filter fun d => decide (t < d + 60000000000)
  let n := drops.length
  let base := max 1 (fget s Fld.SGD_RESTART_RESTART_MS)
  let hold := if n < 3 then base else min 10000 (base * 2 ^ (n - 2))
  let s := { s with sgd := { s.sgd with drops := drops } }
  fset (fset s Fld.SGD_DROPS_RECENT (min 255 n)) Fld.SGD_DROPS_HOLD_MS hold

/-- The dirty counter in MiB, rounded up. -/
def dirtyMib (s : State) : Nat := (dirtyBytes s + 1048575) / 1048576

/-- The record of a test whose result is known (R457). -/
def testRecord (s : State) (r : Nat) : State :=
  post s 12 6 false r (fget s Fld.SGD_HU_CAP_CMEAS_10UF) (fget s Fld.SGD_HU_STATE_ESR_MOHM) (fget s Fld.SGD_DIRTY_LIMIT_MIB)

/-- A running test is aborted: its load is switched off and its result discarded (R454). -/
def testAbort (s : State) : State :=
  if testSt s = 3 then
    let s := fset (fset s Fld.SGD_TEST_CTRL_STATE 0) Fld.SGD_TEST_CTRL_RESULT 5
    testRecord (pset s Reg.SGD_TEST_TIME_LO Reg.SGD_TEST_TIME_HI (now s)) 5
  else s

/-- The Clasp store's erase is abandoned (R518): cause 1 reset, 2 blocked, 3 power-fail. Its sector stays erase-open. -/
def clsAbandon (s : State) (cause : Nat) : State :=
  match s.cls.erase with
  | some e =>
    let slots := SMap.upd s.cls.slots e.slot fun d => { d with st := 4, status := ST_BROWNOUT }
    let s := { s with cls := { s.cls with erase := none, open_ := s.cls.open_ ++ [e.sector], slots := slots } }
    let s := foff (foff (fset s Fld.CLS_ERASE_STATE 0) Fld.CLS_STATUS_ERASING) Fld.CLS_STATUS_SUSPENDED
    let s := fset s Fld.CLS_STATUS_ERASE_OPEN s.cls.open_.length
    let s := finc (finc (fon s Fld.CLS_EVENTS_ERASE_ABANDONED) (Fld.CLS_COUNT_COUNT 0)) (Fld.CLS_COUNT_COUNT 6)
    post s 19 3 false e.sector cause 0 0
  | none => s

/-- An erase that power-fail suspends and abandons: one without FLUSH (R524). -/
def clsFail (s : State) : State :=
  match s.cls.erase with
  | some e =>
    match SMap.find s.cls.slots e.slot with
    | some d => if d.flags.testBit 1 then s else clsAbandon s 3
    | none => clsAbandon s 3
  | none => s

/-- Steps 2 to 4 of R54 (R352, R399, R431): hold-up mode, no more fetching, the sequencers discard what is not flush work. -/
def failSteps (s : State) : State :=
  let s := panicOn (holdupEnter s)
  let s := volleysDrop { s with hst := { s.hst with stop := true } }
  let s := (List.range 64).foldl (fun s ch => flushQueues (fon s (Fld.CHS_STATE_PFAIL ch)) ch ST_SQUASHED fun d => !d.flags.testBit 0) s
  let s := dropQueued s fun o => !o.flush
  clsFail (fon (fon (suspResets { s with dsc := { s.dsc with asked := [], back := [] } }) Fld.CLS_STATUS_PFAIL) Fld.CLS_EVENTS_BLOCKED)

/-- Power-fail is asserted for a cause: 1 dropout, 2 surge. Once asserted it is never withdrawn before step 8 (R437). -/
def powerFail (s : State) (cause : Nat) : State :=
  if s.sgd.sgFail then s
  else
    let was := s.sgd.pfail
    let t := now s
    let d := dirtyMib s
    let s := { s with sgd := { s.sgd with pfail := true, step := (if was then s.sgd.step else 1), failAt := t, dirtyAt := d, cause := cause,
                                          sgFail := true, low := fget s Fld.SGD_VIN_NOW_10MV } }
    let s := foff (fset s Fld.SGD_LOSS_INFO_CAUSE cause) Fld.SGD_LOSS_INFO_COMPLETE
    let s := fset s Fld.SGD_LOSS_INFO_DIRTY_MIB d
    let s := chgUpdate (testAbort s)
    if was then s else failSteps s

/-- A dropout is detected (R436, R437): power-fail while the compute die is released; before the release the supplies go. -/
def dropout (s : State) (low : Nat) : State :=
  let t := now s
  let s := post s 12 3 false (dirtyMib s) (fget s Fld.SGD_HU_STATE_VBANK_10MV) low 0
  let s := dropsShow { s with sgd := { s.sgd with drops := s.sgd.drops ++ [t] } }
  if s.sgd.released then powerFail s 1
  else { s with sgd := { s.sgd with pwrEn := false, pgood := false }, bot := { s.bot with want := none } }

/-- Input < FAIL for FAIL_NS. -/
def execDropout (v : Nat) (s : State) : Out :=
  .next (if v < fget s Fld.SGD_VTH_B_FAIL ∧ !inClass s 3 then
      let s := backSet (classEnter (vinRead s v) 3 v)
      dropout s (s.sgd.dist.foldl (fun n e => if e.1 ≤ 3 then min n e.2.extreme else n) v)
    else s)

/-- A surge has lasted SURGE_US with SURGE_FLUSH set (R436, R437). -/
def execSurgeFilterExpiry (s : State) : Out :=
  .next (match SMap.find s.sgd.dist 4 with
    | some d =>
      let s := reach s (d.since + max 1 (fget s Fld.SGD_FILTER_SURGE_US) * 1000)
      if fone s Fld.SGD_CTRL_SURGE_FLUSH && s.sgd.released then powerFail s 2 else s
    | none => s)

/-- The threshold of a class, past which the input must return by 100 mV. -/
def classOver (s : State) (k v : Nat) : Bool :=
  if k = 1 then decide (fget s Fld.SGD_VTH_A_SAG + 10 ≤ v)
  else if k = 2 then decide (fget s Fld.SGD_VTH_A_BROWN + 10 ≤ v)
  else if k = 3 then decide (fget s Fld.SGD_VTH_B_FAIL + 10 ≤ v)
  else if k = 4 then decide (v + 10 ≤ fget s Fld.SGD_VTH_B_SURGE)
  else decide (v ≤ fget s Fld.SGD_VTH_C_RIPPLE_MV - 100)

/-- A class ends; the records of sag, brown-out, surge and ripple are written now (R436, R457). For ripple `v` is the
peak-to-peak value in mV. -/
def classEnd (s : State) (k v : Nat) : State :=
  match SMap.find s.sgd.dist k with
  | none => s
  | some d0 =>
    if !classOver s k v then s
    else
      let s := if k = 5 then s else vinRead s v
      let d := match SMap.find s.sgd.dist k with | some d => d | none => d0
      let t := now s
      let us := (t - d.since) / 1000
      let s := { s with sgd := { s.sgd with dist := SMap.del s.sgd.dist k } }
      let s := if s.sgd.dist.isEmpty then { s with sgd := { s.sgd with nominal := t } } else s
      let s := if d.silent then s
        else if k = 1 then post s 12 1 false d.extreme us 0 0
        else if k = 2 then post s 12 2 false d.extreme us 0 0
        else if k = 4 then post s 12 4 false d.extreme us (b2n (s.sgd.sgFail && s.sgd.cause == 2)) 0
        else if k = 5 then post s 12 5 false d.extreme 0 0 0
        else s
      backSet (classShow s)

def execDisturbanceClassEnd (n v : Nat) (s : State) : Out := .next (classEnd s n v)

/-- COMPUTE_PGOOD rises (R599 step 7). -/
def execComputePgoodRise (s : State) : Out :=
  .next (if s.sgd.pwrEn && !s.sgd.pgood then
      let t := now s
      { s with sgd := { s.sgd with pgood := true, pgoodAt := t } }
    else s)

/-- COMPUTE_PGOOD falls: a dropout while the compute die runs, ignored while power-fail is asserted (R600, R611). -/
def execComputePgoodFall (s : State) : Out :=
  .next (let s := { s with sgd := { s.sgd with pgood := false } }
    if s.sgd.released && !s.sgd.pfail then
      dropout (finc (fon s Fld.SGD_EVENTS_DROPOUT) (Fld.SGD_COUNT_COUNT 2)) (fget s Fld.SGD_VIN_NOW_10MV)
    else s)

/-! ### The release of the supplies (R451, R599 step 3) -/

/-- e_avail covers FIXED_MJ. -/
def covered (s : State) : Bool :=
  let e := eAvail s (bankV s)
  decide (fget s Fld.SGD_ENERGY_CFG_FIXED_MJ * e.2 ≤ e.1)

/-- The restart hold has ended with the energy there: COMPUTE_PWR_EN goes high. -/
def execRestartHoldEnd (s : State) : Out :=
  .next (match s.sgd.back with
    | some t =>
      if s.sgd.pwrEn || s.sgd.pfail || !covered s then s
      else
        let s := dropsShow s
        let s := reach s (t + fget s Fld.SGD_DROPS_HOLD_MS * 1000000)
        { s with sgd := { s.sgd with pwrEn := true } }
    | none => s)

/-- BOOT_WAIT_S after the input returned the supplies are enabled without the energy; that is recorded. -/
def execBootWaitExpiry (s : State) : Out :=
  .next (match s.sgd.back with
    | some t =>
      if s.sgd.pwrEn || s.sgd.pfail then s
      else
        let s := dropsShow s
        let hold := fget s Fld.SGD_DROPS_HOLD_MS * 1000000
        let s := reach s (t + max hold (fget s Fld.SGD_RESTART_BOOT_WAIT_S * 1000000000))
        let e := eAvail s (bankV s)
        let s := if covered s then s else post s 12 11 false (e.1 / e.2) (fget s Fld.SGD_ENERGY_CFG_FIXED_MJ) 0 0
        { s with sgd := { s.sgd with pwrEn := true } }
    | none => s)

/-! ### The discharge test (R441–R443) -/

/-- A test is scheduled: it waits at step 1; none is scheduled while one runs or waits (R443). -/
def testSchedule (s : State) : State :=
  if testSt s ≠ 0 then s
  else
    let s := fset s Fld.SGD_TEST_CTRL_STATE (if fget s Fld.SGD_HU_STATE_CHG = 2 then 1 else 2)
    limitSet { s with sgd := { s.sgd with want := true } }

/-- A test falls due: at the drive's first boot, or PERIOD_H hours after the last. -/
def execDischargeTestDue (s : State) : Out :=
  .next (if s.sgd.everTested then
      if fone s Fld.SGD_CTRL_TEST_AUTO then
        testSchedule (reach s (s.sgd.lastTest + max 1 (fget s Fld.SGD_TEST_CFG_PERIOD_H) * 3600000000000))
      else s
    else testSchedule s)

/-- A further test 10 s after CELL_LOSS (R442). -/
def execCellLossRetest (s : State) : Out :=
  .next (match s.sgd.retest with
    | some t => testSchedule { reach s t with sgd := { (reach s t).sgd with retest := none } }
    | none => s)

/-- A write of SGD_TEST_CTRL: START requests a test. -/
def wrTestCtrl (s : State) (v : Word) : State := if bit v.toNat 0 then testSchedule s else s

def execSgdTestStart (m : Master) (s : State) : Out := .next (gated s m Reg.SGD_TEST_CTRL fun s => wrTestCtrl s 1)

/-- Steps 2 and 3: the charger pauses, V0 is recorded, the load is switched on. The input has been nominal for 1 s, the charger
reads maintaining at the target, the counter lies within the test limit. -/
def testBegin (s : State) : State :=
  if !s.sgd.want || s.sgd.sgFail || !s.sgd.dist.isEmpty || (umpAsleep s) || chgNow s != 2 || decide (fget s Fld.SGD_DIRTY_LIMIT_MIB * 1048576 < dirtyBytes s)
  then s
  else
    let s := reach s (s.sgd.nominal + 1000000000)
    let t := now s
    let v := fget s Fld.SGD_HU_STATE_VBANK_10MV
    let s := finc (fset s Fld.SGD_TEST_CTRL_STATE 3) (Fld.SGD_COUNT_COUNT 4)
    chgUpdate { s with sgd := { s.sgd with want := false, v0 := v, v1 := 0, loadAt := t } }

def execDischargeTestBegin (s : State) : Out := .next (testBegin s)

/-- V1, 100 µs after the load was switched on. -/
def execTestV1Sample (v : Nat) (s : State) : Out :=
  .next (if testSt s = 3 ∧ s.sgd.v1 = 0 then
      let s := reach s (s.sgd.loadAt + 100000)
      let t := now s
      bankShow { s with sgd := { s.sgd with v1 := v, v1At := t } } v
    else s)

/-- Terms of the series ln(a ÷ b) = 2 Σ z^(2k+1) ÷ (2k+1), z = (a − b) ÷ (a + b), in units of 10⁻¹²: `p` is z^(2k+1). -/
def lnTerms (z2 : Nat) : Nat → Nat → Nat → Nat
  | 0, _, _ => 0
  | n + 1, k, p => p / (2 * k + 1) + lnTerms z2 n (k + 1) (p * z2 / 1000000000000)

/-- ln(a ÷ b) in units of 10⁻¹², for a ≥ b. -/
def lnRatio (a b : Nat) : Nat :=
  let z := (a - b) * 1000000000000 / (a + b)
  2 * lnTerms (z * z / 1000000000000) 40 0 z

/-- C = t ÷ (R_LOAD × ln(V1 ÷ V2)) in 10 µF; `t` in ns (R441). -/
def measC (s : State) (t : Nat) : Nat :=
  let d := max 1 (fget s Fld.SGD_TEST_CFG_RLOAD) * lnRatio s.sgd.v1 (testV2 s)
  if d = 0 then 65535 else min 65535 (t * 1000000000 / d)

/-- ESR = R_LOAD × (V0 − V1) ÷ V1 in mΩ. -/
def measEsr (s : State) : Nat :=
  min 65535 (max 1 (fget s Fld.SGD_TEST_CFG_RLOAD) * 100 * (s.sgd.v0 - s.sgd.v1) / max 1 s.sgd.v1)

/-- A test has a result (R442): its time, its record, bit 4 of the critical warning; the limit and the hold-up budget follow. -/
def testResult (s : State) (r : Nat) : State :=
  let t := now s
  let s := fset (pset s Reg.SGD_TEST_TIME_LO Reg.SGD_TEST_TIME_HI t) Fld.SGD_TEST_CTRL_RESULT r
  let s := { s with sgd := { s.sgd with everTested := true, lastTest := t } }
  let s := testRecord s r
  let was := s.sgd.bad
  if r = 1 then { s with sgd := { s.sgd with bad := false } }
  else
    let s := fon { s with sgd := { s.sgd with bad := true } } Fld.SGD_EVENTS_TEST_FAIL
    if was then s else smartEvent s 4

/-- The load is switched off: the test ends its discharge. -/
def loadOff (s : State) : State := chgUpdate (fset s Fld.SGD_TEST_CTRL_STATE 0)

/-- Days until the least-squares line of the last tests' capacitance reaches CMIN_PCT of C_NOM; 0xFFFF when it does not fall
(R569). A test's entry begins with its device time and its capacitance in 10 µF. -/
def holdupDays (s : State) : Nat :=
  let l := s.age.tests
  let n : Int := l.length
  let st : Int := l.foldl (fun a e => a + e.1) 0
  let sc : Int := l.foldl (fun a e => a + e.2.1) 0
  let stt : Int := l.foldl (fun a e => a + e.1 * e.1) 0
  let stc : Int := l.foldl (fun a e => a + e.1 * e.2.1) 0
  let sxx := n * stt - st * st
  let sxy := n * stc - st * sc
  if sxx ≤ 0 ∨ 0 ≤ sxy then 0xFFFF
  else
    let goal : Int := fget s Fld.SGD_TEST_LIMITS_CMIN_PCT * fget s Fld.SGD_HU_CAP_CNOM_10UF
    let t := (st + (n * goal - 100 * sc) * sxx / (100 * sxy)) / n
    min 0xFFFE ((t - now s).toNat / 86400000000000)

/-- The planner keeps the last 32 tests and reports the trend (R569). -/
def trendNote (s : State) (c esr : Nat) : State :=
  let e := (now s, c, esr, fget s Fld.SGD_DIRTY_LIMIT_MIB)
  let s := { s with age := { s.age with tests := (e :: s.age.tests).take 32 } }
  if holdupDays s < 90 then fon s Fld.AGE_EVENTS_HOLDUP_TREND else s

/-- V2 is reached `t` ns after V1: C and ESR, the limit, the result, the cell loss (R441, R442). -/
def testEnd (s : State) (t : Nat) : State :=
  let s := reach s (s.sgd.v1At + t)
  let prev := fget s Fld.SGD_HU_CAP_CMEAS_10UF
  let c := measC s t
  let esr := measEsr s
  let s := bankShow s (testV2 s)
  let s := fset (fset s Fld.SGD_HU_CAP_CMEAS_10UF c) Fld.SGD_HU_STATE_ESR_MOHM esr
  let s := budgetSet (limitSet (loadOff s))
  let cnom := fget s Fld.SGD_HU_CAP_CNOM_10UF
  let r := if c * 100 < cnom * fget s Fld.SGD_TEST_LIMITS_CMIN_PCT then 2
    else if fget s Fld.SGD_TEST_LIMITS_ESR_MAX_MOHM < esr then 3
    else if fget s Fld.SGD_DIRTY_LIMIT_MIB < fget s Fld.SGD_DIRTY_MIN_MIN_MIB then 4 else 1
  let s := trendNote (testResult s r) c esr
  if prev ≠ 0 ∧ cnom ≤ (prev - c) * (2 * bankCells s) then
    let s := finc (fon s Fld.SGD_EVENTS_CELL_LOSS) (Fld.SGD_COUNT_COUNT 5)
    let again := some (now s + 10000000000)
    post { s with sgd := { s.sgd with retest := again } } 12 7 false prev c 0 0
  else s

/-- A test that takes longer than 1 s is abandoned as FAIL_C. -/
def testLate (s : State) : State :=
  testResult (budgetSet (limitSet (loadOff (reach s (s.sgd.v1At + 1000000000))))) 2

def execTestV2Reached (t : Nat) (s : State) : Out :=
  .next (if testSt s = 3 ∧ s.sgd.v1 ≠ 0 then (if 1000000000 < t then testLate s else testEnd s t) else s)

def execTestTimeout (s : State) : Out := .next (if testSt s = 3 ∧ s.sgd.v1 ≠ 0 then testLate s else s)

end Sys2Proof.Machine
end

