-- ==== Sys2Proof/Machine/Keystore.lean ====
section
/-! DEFINITION. The key store and the privileged engines: slots, records, zeroising, crypto-erase, AEAD, key wrap, CMAC and the
DRBG (R459–R480). -/
namespace Sys2Proof.Machine
open Sys2Proof

/-! ### What the registers show -/

/-- The slot is a MEDIA slot. -/
def mediaSlot (k : Nat) : Bool := decide (64 ≤ k ∧ k < 2048)

/-- Key-record positions that are free in each copy (R533). -/
def recFree (s : State) : Nat := 2688 - s.kst.recLog.length

/-- KST_FREE, KST_BOUND, KST_ERASE, KST_RECORDS. -/
def kstShow (s : State) : State :=
  let used := SMap.cnt s.kst.slots fun i k => mediaSlot i && k.st != 0
  let bound := SMap.cnt s.kst.slots fun i k => mediaSlot i && (k.st == 2 || k.st == 3)
  let s := fset (fset s Fld.KST_FREE_SLOTS (1984 - used)) Fld.KST_BOUND_SLOTS bound
  let s := fset (fset s Fld.KST_ERASE_PENDING s.zne.releasing.length) Fld.KST_ERASE_RUNNING (b2n (!s.kst.erases.isEmpty))
  fset (fset s Fld.KST_RECORDS_FREE_A (recFree s)) Fld.KST_RECORDS_FREE_B (recFree s)

/-- Puts a slot. -/
def slotPut (s : State) (i : Nat) (k : KSlot) : State := kstShow (kslotPut s i k)

/-! ### Key records (R471, R533) -/

/-- Compaction of the record area: the oldest sector's valid records move up and the sector is erased, while fewer than 64
positions are free. -/
def recCompact : Nat → List (Option Nat) → List (Option Nat)
  | 0, l => l
  | n + 1, l => if 2688 < l.length + 64 then recCompact n (l.drop 32 ++ (l.take 32).filter (·.isSome)) else l

/-- Revokes a slot's record in both copies. -/
def recRevoke (s : State) (i : Nat) : State :=
  let log := s.kst.recLog.map fun e => if e = some i then none else e
  kstShow { s with kst := { s.kst with recs := SMap.del s.kst.recs i, recLog := log } }

/-- The KEK: bytes 0–31 of slot 8 (R470). -/
def kek (s : State) : List Byte := (slotBuf (kslot s 8) (kslot s 8).active).take 32

/-- Writes a slot's record in both copies, and then revokes the record it replaces. -/
def recPut (s : State) (i : Nat) : State :=
  let k := kslot s i
  let r : KRec := { bound := k.st == 2 || k.st == 3, erasing := k.st == 3, slice := k.slice, nsid := k.nsid, gen := k.gen, kek := kek s,
                    material := slotBuf k k.active }
  let log := (s.kst.recLog.map fun e => if e = some i then none else e) ++ [some i]
  kstShow { s with kst := { s.kst with recs := SMap.put s.kst.recs i r, recLog := recCompact 84 log } }

/-! ### The DRBG (R462) -/

/-- Fresh random material. -/
def draw (s : State) : List Byte × State := (Config.drbg s.kst.draws, { s with kst := { s.kst with draws := s.kst.draws + 1 } })

/-- Fresh media material: drawn again while key 1 equals key 2 (R474). -/
def drawKey : Nat → State → List Byte × State
  | 0, s => draw s
  | n + 1, s => let r := draw s; if r.1.take 32 = (r.1.drop 32).take 32 then drawKey n r.2 else r

/-- Requests for fresh key material complete with ST_ENTROPY. -/
def entropyBad (s : State) : Bool := fone s Fld.KST_DRBG_HEALTH_FAIL || !fone s Fld.KST_DRBG_READY

/-- A reseed, 1 ms after the last; `health` is what the tests find: 0 good, 1 repetition count, 2 adaptive proportion. -/
def reseed (s : State) (health : Nat) : State :=
  if health = 0 then foff (fon s Fld.KST_DRBG_READY) Fld.KST_DRBG_HEALTH_FAIL
  else
    let s := fon (fon (finc s Fld.KST_DRBG_RESEEDS) Fld.KST_DRBG_HEALTH_FAIL) Fld.KST_EVENTS_ENTROPY_FAIL
    post s 15 1 false health 0 0 0

def execDrbgReseed (health : Fin 3) (s : State) : Out := .next (reseed s health.val)

/-! ### Material and latches (R460) -/

/-- Operations that hold a latch on buffer `b` of a slot. -/
def bufUsers (s : State) (i b : Nat) : Nat :=
  let k := kslot s i
  if k.nsid = 0 then 0
  else s.hst.ctx.foldl (fun n e =>
    if e.2.nsid = k.nsid ∧ ctxOpen e.2 then n + e.2.units.countP fun u => u.latch == some b else n) 0

/-- Writes material into the inactive buffer, which becomes active; GEN advances; the old buffer is zeroised when it has no
users. -/
def material1 (s : State) (i : Nat) (m : List Byte) (origin : Nat) : State :=
  let k := kslot s i
  let old := k.active
  let new := 1 - old
  let keep := fun (b : Nat) (v : List Byte) => if b = new then m else if bufUsers s i b = 0 then zeros 64 else v
  slotPut s i { k with active := new, gen := (k.gen + 1) % 65536, origin := origin, buf0 := keep 0 k.buf0, buf1 := keep 1 k.buf1 }

/-- A write of material must wait for the inactive buffer's users. -/
def bufHeldUp (s : State) (i : Nat) : Bool := decide (bufUsers s i (1 - (kslot s i).active) ≠ 0)

/-- The key-check value: three bytes of the CMAC of 16 zero bytes under key 1 (R474). -/
def checkValue (s : State) (i : Nat) : List Byte :=
  let k := kslot s i
  (Config.cmac ((slotBuf k k.active).take 32) (zeros 16)).take 3

/-! ### Zeroising (R475) -/

/-- Steps 1 to 3 for a slot: its users are squashed, both buffers zeroised, GEN advances; it ends EMPTY. -/
def kstZero (s : State) (i : Nat) : State :=
  let k := kslot s i
  if k.st = 0 then s
  else
    let s := fon s Fld.KST_EVENTS_ZEROISED
    slotPut s i { KSlot.empty with active := k.active, gen := (k.gen + 1) % 65536 }

/-- Units a zeroise finds in the engines are squashed with ST_KEY_REVOKED (XTE_COUNT 6). -/
def unitsSquashed (s : State) (nsid : Nat) : Nat :=
  s.hst.ctx.foldl (fun n e => if e.2.nsid = nsid ∧ ctxOpen e.2 then n + e.2.units.countP fun u => u.latch.isSome else n) 0

/-- A whole zeroise of a MEDIA slot; `cause` is 1 opcode, 3 unlock. -/
def keyZero (s : State) (i cause : Nat) : State :=
  let k := kslot s i
  if k.st = 0 then s
  else
    let bound := k.st = 2 ∨ k.st = 3
    let s := post s 15 4 true i cause (if bound then k.slice else 0) (if bound then k.nsid else 0)
    let s := if bound then fadd s (Fld.XTE_COUNT_COUNT 6) (unitsSquashed s k.nsid) else s
    let s := if bound then ctxFlush s (fun c => c.nsid == k.nsid && c.slice.isSome) SC_NOT_READY else s
    let s := { s with kst := { s.kst with erases := s.kst.erases.filter fun e => e.1 != k.nsid } }
    let s := recRevoke (kstZero s i) i
    if bound then kstShow { s with zne := { s.zne with releasing := SMap.put s.zne.releasing k.nsid i } } else s

/-- The slots of a session: 16 + 3n to 18 + 3n, zeroised when it ends (R68). -/
def sessionZero (s : State) (slots : List Nat) (cause : Nat) : State :=
  slots.foldl (fun s i =>
    if (kslot s i).st = 0 then s
    else kstZero (post s 15 4 true i cause 0 0) i) s

/-! ### Releasing a namespace's data (R213, R475, R476) -/

/-- A zone is released as by Reset; a Read Only zone reads zeros from then on and keeps its state, an Offline zone stays
unreadable (R213). -/
def zoneVoid (s : State) (zi : Nat) : State :=
  let z := zoneGet s zi
  if z.st = 13 ∨ z.st = 15 then
    let s := zoneWork (zoneData s z) zi
    let z' := { z with runs := [], exts := [], cursor := none, resv := 0, ranges := [], void := true }
    sweep (journalZoneH (zoneHolds z) (zonePut s zi z') zi z')
  else if z.st = 1 then s
  else zoneReset s zi

/-- Every zone of the namespace is released and every conventional entry deallocated. -/
def nsEmpty (s : State) (nsid : Nat) (n : Ns) : State :=
  let lost := s.med.lost.filter fun k => k / 2 ^ 50 != nsid
  let s := { s with med := { s.med with lost := lost } }
  if n.zoned then
    let s := ((s.zne.zones.filter fun e => decide (n.base ≤ e.1 ∧ e.1 < n.base + zoneCount n)).map (·.1)).foldl zoneVoid s
    { s with med := { s.med with since := SMap.put s.med.since nsid s.zne.seq } }
  else
    let mine := s.zne.conv.filter fun e => decide (n.base ≤ e.1 ∧ e.1 < n.base + n.cap)
    let s := mine.foldl (fun s e => locDrop s e.2.loc) s
    let conv := s.zne.conv.filter fun e => !decide (n.base ≤ e.1 ∧ e.1 < n.base + n.cap)
    sweep { s with zne := { s.zne with conv := conv }, med := { s.med with since := SMap.put s.med.since nsid s.zne.seq } }

/-- The background release of a keyless namespace's data ends (R475 step 5). -/
def releaseDone (s : State) (nsid : Nat) : State :=
  match SMap.find s.zne.releasing nsid with
  | some _ =>
    let s := match SMap.find s.zne.ns nsid with | some n => nsEmpty s nsid n | none => s
    kstShow { s with zne := { s.zne with releasing := SMap.del s.zne.releasing nsid } }
  | none => s

def execNamespaceReleaseDone (nsid : Nat) (s : State) : Out := .next (releaseDone s nsid)

/-- Steps 2 to 6 of a crypto-erase, once no operation holds a latch on the slot (R476). -/
def eraseDrained (s : State) (nsid : Nat) : State :=
  match SMap.find s.kst.erases nsid, nsSlot s nsid, SMap.find s.zne.ns nsid with
  | some _, some (i, k), some n =>
    if k.st ≠ 3 ∨ bufUsers s i 0 ≠ 0 ∨ bufUsers s i 1 ≠ 0 then s
    else
      let s := journalFor (isoNs s n) s 9 [8, nsid]
      let s := nsEmpty s nsid n
      let r := drawKey 8 s
      let s := material1 r.2 i r.1 1
      let s := slotPut s i { kslot s i with st := 2 }
      let s := recPut s i
      fon (kstShow { s with kst := { s.kst with erases := SMap.del s.kst.erases nsid } }) Fld.KST_EVENTS_CRYPTO_ERASED
  | _, _, _ => s

def execCryptoEraseDrained (nsid : Nat) (s : State) : Out := .next (eraseDrained s nsid)

/-! ### The privileged engines (R467–R469) -/

/-- A PVE instance is in service. -/
def pveUp (s : State) (i : Nat) : Bool := !carded s (midPve i) && !s.kst.pveOut.contains i

/-- Shows the instances. -/
def pveShow (s : State) : State :=
  let t := now s
  [0, 1].foldl (fun s i =>
    let day := (SMap.getD s.kst.pveFaults i []).filter fun f => decide (t < f + 86400000000000)
    fset (fset s (Fld.PVE_INST_STATE i) (if carded s (midPve i) then 3 else if s.kst.pveOut.contains i then 2 else 0))
      (Fld.PVE_INST_FAULTS i) (min 63 day.length)) s

/-- The two results of an operation disagree on an instance (R469). -/
def pveFault (s : State) (i op : Nat) : State :=
  let t := now s
  let day := t :: ((SMap.getD s.kst.pveFaults i []).filter fun f => decide (t < f + 86400000000000))
  let s := { s with kst := { s.kst with pveFaults := SMap.put s.kst.pveFaults i day } }
  let s := post (fon s Fld.PVE_EVENTS_FAULT) 14 1 false i op 0 0
  let s := finc s (Fld.PVE_COUNT_COUNT 7)
  if max 1 (fget s Fld.PVE_DUMMY_FAULT_LIMIT) ≤ day.length ∧ !s.kst.pveOut.contains i then
    pveShow (fon { s with kst := { s.kst with pveOut := s.kst.pveOut ++ [i] } } Fld.PVE_EVENTS_RETIRED)
  else pveShow s

/-- The answer of an operation. -/
def pveAnswer (s : State) (st : Nat) (out : List Byte) : State := { s with kst := { s.kst with pveAns := (st, out) } }

/-- The use a request makes of a slot is one its type permits, for the session it is made for; `use` is 1 AEAD, 2 key wrap, 3
unwrap, 4 CMAC (R459, R461). -/
def pveRight (s : State) (sess i use : Nat) : Bool :=
  let mine := match SMap.find s.spdm.sessions sess with | some x => x.slots.contains i | none => false
  if use = 1 then decide (16 ≤ i ∧ i < 64) && i % 3 != 0 && mine
  else if use = 2 then i == 8
  else if use = 3 then i == 8 || (decide (16 ≤ i ∧ i < 64) && i % 3 == 0 && mine)
  else decide (i < 8 ∨ 64 ≤ i ∧ i < 2048) || i == 8 || mine

/-- Runs an operation: rights, the slot's state, the two instances; `bad` counts the attempts whose two results disagree. -/
def pveRun (s : State) (p sess i use op bad : Nat) (fits : Bool) (f : State → List Byte → State) : State :=
  if !fone s Fld.PVE_CTRL_EN || !fone s Fld.KST_CTRL_EN || carded s (midPair p) then s
  else if !fits then pveAnswer s ST_BAD_LENGTH []
  else if !pveRight s sess i use then
    fon (raiseVio (pveAnswer s ST_DENIED []) 6 15 (midPair p) i) Fld.KST_EVENTS_KEY_RIGHT
  else if (kslot s i).st = 0 ∨ (kslot s i).st = 4 then pveAnswer s ST_KEY_REVOKED []
  else
    match [0, 1].filter fun j => pveUp s j with
    | [] => s
    | j :: rest =>
      let other := match rest with | x :: _ => x | [] => j
      if bad = 0 then f s (slotBuf (kslot s i) (kslot s i).active)
      else
        let s := pveFault s j op
        if bad = 1 then f s (slotBuf (kslot s i) (kslot s i).active)
        else pveAnswer (pveFault s other op) ST_CIPHER_FAULT []

/-- The lengths of a GCM operation are within its limits. -/
def gcmFits (iv aad : List Byte) (n : Nat) : Bool := decide (iv.length = 12 ∧ aad.length ≤ 64 ∧ n ≤ 8192)

/-- A plaintext of key wrap: 16–80 bytes, a multiple of 8. -/
def wrapFits (n : Nat) : Bool := decide (16 ≤ n ∧ n ≤ 80 ∧ n % 8 = 0)

def execPveGcmEncrypt (p : Fin 8) (sess slot : Nat) (iv aad data : List Byte) (bad : Fin 3) (s : State) : Out :=
  .next (pveRun s p.val sess slot 1 1 bad.val (gcmFits iv aad data.length) fun s key =>
    pveAnswer (finc s (Fld.PVE_COUNT_COUNT 0)) ST_OK (Config.gcmEnc (key.take 32) iv aad data))

/-- The plaintext is released only after the tag verifies (R468). -/
def execPveGcmDecrypt (p : Fin 8) (sess slot : Nat) (iv aad data : List Byte) (bad : Fin 3) (s : State) : Out :=
  .next (pveRun s p.val sess slot 1 2 bad.val (decide (16 ≤ data.length) && gcmFits iv aad (data.length - 16)) fun s key =>
    let s := finc s (Fld.PVE_COUNT_COUNT 1)
    match Config.gcmDec (key.take 32) iv aad data with
    | some out => pveAnswer s ST_OK out
    | none => pveAnswer (fon (finc s (Fld.PVE_COUNT_COUNT 2)) Fld.PVE_EVENTS_TAG_FAIL) ST_TAG_FAIL [])

def execPveKeyWrap (p : Fin 8) (slot : Nat) (data : List Byte) (bad : Fin 3) (s : State) : Out :=
  .next (pveRun s p.val 0 slot 2 3 bad.val (wrapFits data.length) fun s key =>
    pveAnswer (finc s (Fld.PVE_COUNT_COUNT 3)) ST_OK (Config.kwWrap (key.take 32) data))

/-- An unwrap that fails its integrity check releases nothing (R468). -/
def execPveKeyUnwrap (p : Fin 8) (sess slot : Nat) (data : List Byte) (bad : Fin 3) (s : State) : Out :=
  .next (pveRun s p.val sess slot 3 4 bad.val (decide (8 ≤ data.length) && wrapFits (data.length - 8)) fun s key =>
    let s := finc s (Fld.PVE_COUNT_COUNT 4)
    match Config.kwUnwrap (key.take 32) data with
    | some out => pveAnswer s ST_OK out
    | none => pveAnswer (fon (finc s (Fld.PVE_COUNT_COUNT 5)) Fld.PVE_EVENTS_UNWRAP_FAIL) ST_UNWRAP_FAIL [])

def execPveCmac (p : Fin 8) (sess slot : Nat) (data : List Byte) (bad : Fin 3) (s : State) : Out :=
  .next (pveRun s p.val sess slot 4 5 bad.val (decide (data.length ≤ 4096)) fun s key =>
    pveAnswer (finc s (Fld.PVE_COUNT_COUNT 6)) ST_OK (Config.cmac (key.take 32) data))

end Sys2Proof.Machine
end

