-- ==== Sys2Proof/Machine/Digest.lean ====
section
/-! DEFINITION. The digest engine, the snoop and the public-key engine (R481–R490, R506). -/
namespace Sys2Proof.Machine
open Sys2Proof

/-- The ASCII bytes of a label (R481). -/
def label (t : String) : List Byte := t.toList.map fun c => BitVec.ofNat 8 c.toNat

/-- Puts bytes into consecutive registers, four to a register. -/
def putBytes (s : State) (reg : Nat → Nat) (n : Nat) (b : List Byte) : State :=
  (List.range n).foldl (fun s k => rset s (reg k) (u32 b (4 * k))) s

def udsOpen (s : State) : Bool := fone s Fld.DGE_LATCH_UDS_OPEN
def bootOpen (s : State) : Bool := fone s Fld.DGE_LATCH_BOOT_OPEN

/-! ### Requests (R485, R487, R488) -/

/-- Fields of a request's DFLAGS. -/
def DgeReq.start (r : DgeReq) : Bool := bit r.flags 0
def DgeReq.final (r : DgeReq) : Bool := bit r.flags 1
def DgeReq.save (r : DgeReq) : Bool := bit r.flags 2
def DgeReq.toKst (r : DgeReq) : Bool := bit r.flags 3
def DgeReq.class (r : DgeReq) : Nat := bits r.flags 4 2

/-- The descriptor that pair `p` has written (R485). -/
def dgeDesc (s : State) (p : Nat) : DgeReq :=
  let w := fun k => rget s (Reg.DGE_REQ_D p k)
  { pair := p, op := bits (w 0) 0 8, flags := bits (w 0) 8 8, ctx := bits (w 0) 16 8, keysrc := bits (w 0) 24 8, keyslot := bits (w 1) 0 16,
    dst := bits (w 1) 16 16, len := w 2, handle := w 3, offset := w 4 }

/-- Bytes of the buffer or chain that a handle names. -/
def handleBytes (s : State) (h : Nat) : Nat :=
  if hCurrent s h then handleCap s h else 0

/-- The engine's instances as they show. -/
def dgeShow (s : State) : State :=
  let s := [0, 1].foldl (fun s i =>
    match SMap.find s.dge.run i with
    | some r => fset (fset s (Fld.DGE_INST_STATE i) 1) (Fld.DGE_INST_CLASS i) r.class
    | none => fset (fset s (Fld.DGE_INST_STATE i) (if carded s (midDge i) then 3 else 0)) (Fld.DGE_INST_CLASS i) 0) s
  let used := s.dge.ctx.foldl (fun n e => n + 2 ^ e.1) 0 + s.dge.held.foldl (fun n e => n + 2 ^ e.1) 0
  let s := fset (fset s Fld.DGE_CTX_STATE_IN_USE used) Fld.DGE_CTX_STATE_PREEMPTED (s.dge.held.foldl (fun n e => n + 2 ^ (e.1 - 14)) 0)
  let own := fun (lo : Nat) =>
    s.dge.ctx.foldl (fun n e => if e.1 / 8 = lo then n + (8 + e.2.owner) * 16 ^ (e.1 % 8) else n) 0
      + s.dge.held.foldl (fun n e => if e.1 / 8 = lo then n + (8 + e.2.pair) * 16 ^ (e.1 % 8) else n) 0
  let s := rset (rset s Reg.DGE_CTX_OWNER_LO (own 0)) Reg.DGE_CTX_OWNER_HI (own 1)
  let q := fun c => s.dge.queue.countP fun r => r.class == c
  fset (fset (fset s Fld.DGE_QUEUE_CLASS0 (q 0)) Fld.DGE_QUEUE_CLASS1 (q 1)) Fld.DGE_QUEUE_CLASS2 (q 2 + q 3)

/-- A request of pair `p` completes. -/
def dgeEnd (s : State) (p st : Nat) : State :=
  let s := fset (foff s (Fld.DGE_REQ_GO_GO p)) (Fld.DGE_REQ_GO_STATUS p) st
  let s := finc s (Fld.DGE_COUNT_COUNT 0)
  let s := if st = ST_BAD_LENGTH then finc s (Fld.DGE_COUNT_COUNT 2) else s
  if st = ST_DGE_CONTEXT then fon s Fld.DGE_EVENTS_CONTEXT else s

/-- Key slots that may key the engine, and slots it may write (R459, R461). -/
def dgeKeySlot (k : Nat) : Bool := decide (k < 8 ∨ 16 ≤ k ∧ k < 64)
def dgeDstSlot (s : State) (k : Nat) : Bool := decide (k < 4 ∨ k = 8) && bootOpen s || decide (16 ≤ k ∧ k < 64)

/-- A request's data lie in a buffer that its pair does not hold through this handle (R367). -/
def windowBad (s : State) (p h len : Nat) : Bool := len != 0 && !handleOk s (midPair p) h 0 0

/-- The first rule a request breaks: its status and the violation it is, if any. The order of the checks is the model's, and the status of
an operation that R485 does not name is open (DESIGN CHOICE, notes/assumptions/97.md). A restored state carries its own key, so KEYSRC
of a message in progress needs no key that is in force (R488). -/
def dgeCheck (s : State) (r : DgeReq) : Option (Nat × Nat) :=
  let ctxOk := decide (r.ctx < 14)
  let mine := match SMap.find s.dge.ctx r.ctx with | some c => c.owner == r.pair | none => false
  let free := (SMap.find s.dge.ctx r.ctx).isNone
  if 4 < r.op then some (openVal s % 65536, 0)
  else if (!r.final && r.len % 128 != 0) ∨ (r.len ≠ 0 ∧ handleBytes s r.handle < r.offset + r.len ∧ !windowBad s r.pair r.handle r.len) then some (ST_BAD_LENGTH, 0)
  else if windowBad s r.pair r.handle r.len then some (ST_DENIED, 1)
  else if r.keysrc = 1 ∧ !udsOpen s then some (ST_DENIED, 6)
  else if r.keysrc = 2 ∧ !dgeKeySlot r.keyslot then some (ST_DENIED, 6)
  else if r.toKst && !dgeDstSlot s r.dst then some (ST_DENIED, 6)
  else if r.start && decide (r.keysrc = 2) && decide ((kslot s r.keyslot).st = 0 ∨ (kslot s r.keyslot).st = 4) then some (ST_KEY_REVOKED, 0)
  else if !r.start && !(ctxOk && mine) then some (ST_DGE_CONTEXT, 0)
  else if r.save && !(ctxOk && (free || mine)) then some (ST_DGE_CONTEXT, 0)
  else none

/-- An instance takes a request: one that breaks a rule completes at once. The result says whether the instance is free still. -/
def dgeTake (s : State) (i : Nat) (r : DgeReq) : Bool × State :=
  match dgeCheck s r with
  | some (st, vio) =>
    let s := dgeEnd (if 4 < r.op then openTaken s else s) r.pair st
    (true, if vio = 1 then raiseVio s 1 16 (midPair r.pair) r.handle
      else if vio = 6 then fon (raiseVio s 6 15 (midPair r.pair) r.keyslot) Fld.KST_EVENTS_KEY_RIGHT else s)
  | none => (false, { s with dge := { s.dge with run := SMap.put s.dge.run i r } })

/-- The request taken next from the queue: by class, then by arrival. -/
def dgeNext (q : List DgeReq) : Option DgeReq :=
  [0, 1, 2, 3].foldl (fun acc c => match acc with | some r => some r | none => q.find? fun r => r.class == c) none

/-- Takes a request out of the queue. -/
def dgeDrop (q : List DgeReq) (p : Nat) : List DgeReq := q.filter fun r => r.pair != p

/-- The instance whose work a class-0 request preempts: class 2 before class 1; between equals the mutex element decides (R487). -/
def dgeVictim (s : State) : Option Nat :=
  match SMap.find s.dge.run 0, SMap.find s.dge.run 1 with
  | some a, some b =>
    if a.class = 0 ∧ b.class = 0 then none
    else if a.class = 0 then some 1
    else if b.class = 0 then some 0
    else if a.class < b.class then some 1
    else if b.class < a.class then some 0
    else some (openVal s % 2)
  | _, _ => none

/-- Preempts the work of an instance into context slot 14 or 15. -/
def dgePreempt (s : State) (i : Nat) : State :=
  match SMap.find s.dge.run i with
  | some r =>
    let slot := if (SMap.find s.dge.held 14).isNone then 14 else 15
    let s := openTaken { s with dge := { s.dge with run := SMap.del s.dge.run i, held := SMap.put s.dge.held slot r } }
    fon (finc s (Fld.DGE_COUNT_COUNT 3)) Fld.DGE_EVENTS_PREEMPT
  | none => s

/-- Fills the instances: class-0 requests, then preempted work, then the queues; a class-0 request that finds both busy with other
work preempts. -/
def dgeFill : Nat → State → State
  | 0, s => dgeShow s
  | n + 1, s =>
    if !fone s Fld.DGE_CTRL_EN then dgeShow s
    else
      match [0, 1].find? fun i => (SMap.find s.dge.run i).isNone && !carded s (midDge i) with
      | some i =>
        match s.dge.queue.find? fun r => r.class == 0 with
        | some r => dgeFill n (dgeTake { s with dge := { s.dge with queue := dgeDrop s.dge.queue r.pair } } i r).2
        | none =>
          match s.dge.held with
          | (k, r) :: _ => dgeFill n { s with dge := { s.dge with held := SMap.del s.dge.held k, run := SMap.put s.dge.run i r } }
          | [] =>
            match dgeNext s.dge.queue with
            | some r => dgeFill n (dgeTake { s with dge := { s.dge with queue := dgeDrop s.dge.queue r.pair } } i r).2
            | none => dgeShow s
      | none =>
        if s.dge.queue.any fun r => r.class == 0 then
          match dgeVictim s with
          | some i => dgeFill n (dgePreempt s i)
          | none => dgeShow s
        else dgeShow s

/-- A write of DGE_REQ_GO by pair `p`; one made while a request runs has no further effect (R19). -/
def dgePost (s : State) (p : Nat) : State :=
  if fone s (Fld.DGE_REQ_GO_GO p) || carded s (midPair p) then s
  else
    let r := dgeDesc s p
    let s := fon s (Fld.DGE_REQ_GO_GO p)
    dgeFill 24 { s with dge := { s.dge with queue := s.dge.queue ++ [r] } }

/-- The key and message a request works on: fresh, or restored. -/
def dgeInput (s : State) (r : DgeReq) (data : List Byte) : List Byte × List Byte :=
  if r.start then
    let n := if r.op = 3 then 64 else 48
    let k := kslot s r.keyslot
    (if r.keysrc = 1 then Config.deviceSecret else if r.keysrc = 2 then (slotBuf k k.active).take n else [], data)
  else
    match SMap.find s.dge.ctx r.ctx with
    | some c => (c.key, c.msg ++ data)
    | none => ([], data)

/-- The output of a FINAL request. -/
def dgeOut (op : Nat) (key msg : List Byte) : List Byte :=
  if op = 0 then Config.sha384 msg
  else if op = 1 then Config.sha512 msg
  else if op = 2 then Config.hmac384 key msg
  else if op = 3 then Config.hmac512 key msg
  else Config.hkdf384 key (msg.take (msg.length - 2)) (u16 msg (msg.length - 2))

/-- Writes derived material into a slot (R459, R485). -/
def kstDerive (s : State) (i : Nat) (m : List Byte) : State :=
  let typ := if i < 8 then 1 else if i = 8 then 2 else 3
  let s := material1 s i ((m.take 64) ++ zeros (64 - m.length)) 3
  slotPut s i { kslot s i with st := 1, typ := typ }

/-- The bytes a request works on: LEN bytes from OFFSET on in HANDLE (R485). -/
def dgeData (s : State) (r : DgeReq) : List Byte := handleRead s r.handle r.offset r.len

/-- Pair `p`'s request of operation `op` ends (R485). -/
def dgeDone (s : State) (p op : Nat) : State :=
  match s.dge.run.find? fun e => e.2.pair == p && e.2.op == op with
  | none => s
  | some (i, r) =>
    let x := dgeInput s r (dgeData s r)
    let s := { s with dge := { s.dge with run := SMap.del s.dge.run i, ctx := if r.start then s.dge.ctx else SMap.del s.dge.ctx r.ctx } }
    let s :=
      if r.final then
        let out := dgeOut op x.1 x.2
        if r.toKst then
          let s := kstDerive s r.dst (out.take 48)
          putBytes (finc s (Fld.DGE_COUNT_COUNT 5)) (Reg.DGE_RESULT p) 16 []
        else putBytes s (Reg.DGE_RESULT p) 16 (out.take 64)
      else s
    let s :=
      if r.save && !r.final then
        let c : DgeCtx := { op := op, key := x.1, msg := x.2, owner := p }
        finc { s with dge := { s.dge with ctx := SMap.put s.dge.ctx r.ctx c } } (Fld.DGE_COUNT_COUNT 4)
      else s
    dgeFill 24 (dgeEnd s p ST_OK)

def execDgeSha384 (p : Fin 8) (s : State) : Out := .next (dgeDone s p.val 0)
def execDgeSha512 (p : Fin 8) (s : State) : Out := .next (dgeDone s p.val 1)
def execDgeHmacSha384 (p : Fin 8) (s : State) : Out := .next (dgeDone s p.val 2)
def execDgeHmacSha512 (p : Fin 8) (s : State) : Out := .next (dgeDone s p.val 3)
def execDgeHkdfExpand (p : Fin 8) (s : State) : Out := .next (dgeDone s p.val 4)

/-! ### The snoop (R486) -/

/-- What the end of a snoop that counted `count` bytes shows: the digest `d` when they are the length declared. -/
def snoopShow (s : State) (count : Nat) (d : List Byte) : State :=
  let n := fget s Fld.DGE_SNOOP_CTRL_ARMED
  let ok := count == fget s Fld.DGE_SNOOP_LEN_LEN
  let d := if ok then d else []
  let s := fset (foff s Fld.DGE_SNOOP_CTRL_ACTIVE) Fld.DGE_SNOOP_CTRL_STATUS (if ok then ST_OK else ST_BAD_LENGTH)
  let s := putBytes s Reg.DGE_SNOOP_DIGEST 12 d
  let s := if n = 1 then putBytes s Reg.DGE_SNOOP_FIRST 12 d else s
  if ok then s
  else post (fon s Fld.DGE_EVENTS_SNOOP_LENGTH) 16 1 false (fget s Fld.DGE_SNOOP_LEN_LEN) count n 0

/-- The running snoop ends. -/
def snoopEnd (s : State) : State :=
  match s.dge.snoop with
  | none => s
  | some (_, b) => snoopShow { s with dge := { s.dge with snoop := none } } b.length (Config.sha384 b)

/-- A snoop starts for the reader that arms it, at most 4 times in a boot; a running one ends with ST_BAD_LENGTH (R503). -/
def snoopArm (s : State) (m : Master) : State :=
  let n := fget s Fld.DGE_SNOOP_CTRL_ARMED
  if 4 ≤ n then s
  else
    let s := if s.dge.snoop.isSome then
        let s := fset (snoopEnd s) Fld.DGE_SNOOP_CTRL_STATUS ST_BAD_LENGTH
        putBytes s Reg.DGE_SNOOP_DIGEST 12 []
      else s
    let s := finc (fset s Fld.DGE_SNOOP_CTRL_ARMED (n + 1)) (Fld.DGE_COUNT_COUNT 1)
    let s := fset (fon s Fld.DGE_SNOOP_CTRL_ACTIVE) Fld.DGE_SNOOP_COUNT_BYTES 0
    { s with dge := { s.dge with snoop := some (masterNo m, []) } }

/-- The snoop hashes the bytes that a continuous read returns to its reader. -/
def snoopFeed (s : State) (reader : Nat) (b : List Byte) : State :=
  match s.dge.snoop with
  | some (r, old) =>
    if r = reader then
      fset { s with dge := { s.dge with snoop := some (r, old ++ b) } } Fld.DGE_SNOOP_COUNT_BYTES (old.length + b.length)
    else s
  | none => s

/-- A write of DGE_SNOOP_CTRL: END ends the running snoop, ARM starts one. -/
def wrSnoopCtrl (s : State) (m : Master) (v : Word) : State :=
  let s := if bit v.toNat 1 then snoopEnd s else s
  if bit v.toNat 0 then snoopArm s m else s

def execSnoopArm (m : Master) (s : State) : Out := .next (gated s m Reg.DGE_SNOOP_CTRL fun s => wrSnoopCtrl s m 1)
def execSnoopEnd (m : Master) (s : State) : Out := .next (gated s m Reg.DGE_SNOOP_CTRL fun s => wrSnoopCtrl s m 2)

/-! ### The latches (R482) -/

/-- A write of DGE_LATCH: closes the use of the device secret, and the boot path, until the next boot. -/
def wrLatch (s : State) (v : Word) : State :=
  let s := if bit v.toNat 2 then foff s Fld.DGE_LATCH_UDS_OPEN else s
  if bit v.toNat 3 then foff s Fld.DGE_LATCH_BOOT_OPEN else s

def execDgeUdsClose (m : Master) (s : State) : Out := .next (gated s m Reg.DGE_LATCH fun s => wrLatch s 4)
def execDgeBootClose (m : Master) (s : State) : Out := .next (gated s m Reg.DGE_LATCH fun s => wrLatch s 8)

/-! ### The public-key engine (R483, R489, R490) -/

/-- What the private scalar of a seed slot is made from (R483). -/
def scalarOf (seed : List Byte) : List Byte := (Config.hmac512 (seed.take 48) (label "SLN ECC")).take 56

/-- The scalar of a seed slot. -/
def pkeScalar (s : State) (i : Nat) : List Byte := scalarOf (slotBuf (kslot s i) (kslot s i).active)

/-- The key ID of a public key (R483). -/
def keyIdOf (pub : List Byte) : List Byte := (Config.sha384 pub).take 8

/-- Shows the engine. -/
def pkeShow (s : State) : State :=
  match s.dge.pkeQ with
  | p :: _ => fset (fset s Fld.PKE_STATE_STATE (if carded s midPke then 3 else 1)) Fld.PKE_STATE_OP (fget s (Fld.PKE_REQ_D_0_OP p))
  | [] => fset (fset s Fld.PKE_STATE_STATE (if carded s midPke then 3 else 0)) Fld.PKE_STATE_OP 0

/-- A handle of pair `p`'s request names a buffer that the pair does not hold (R367): inputs of SIGN, VERIFY and ECDH, outputs of
SIGN, ECDH and PUBKEY. -/
def pkeBad (s : State) (p : Nat) : Option Nat :=
  let op := fget s (Fld.PKE_REQ_D_0_OP p)
  let i := rget s (Reg.PKE_REQ_D_1 p)
  let o := rget s (Reg.PKE_REQ_D_2 p)
  if 1 ≤ op ∧ op ≤ 3 ∧ windowBad s p i 1 then some i
  else if (op = 1 ∨ op = 3 ∨ op = 4) ∧ windowBad s p o 1 then some o
  else none

/-- A write of PKE_REQ_GO by pair `p`. An operation that R489 does not name is not performed: it completes at once, and its status is
open (DESIGN CHOICE, notes/assumptions/97.md). -/
def pkePost (s : State) (p : Nat) : State :=
  if fone s (Fld.PKE_REQ_GO_GO p) || carded s (midPair p) then s
  else if fget s (Fld.PKE_REQ_D_0_OP p) = 0 ∨ 4 < fget s (Fld.PKE_REQ_D_0_OP p) then
    openTaken (fset s (Fld.PKE_REQ_GO_STATUS p) (openVal s % 65536))
  else if (pkeBad s p).isSome then
    raiseVio (fset s (Fld.PKE_REQ_GO_STATUS p) ST_DENIED) 1 17 (midPair p) ((pkeBad s p).getD 0)
  else pkeShow { fon s (Fld.PKE_REQ_GO_GO p) with dge := { (fon s (Fld.PKE_REQ_GO_GO p)).dge with pkeQ := s.dge.pkeQ ++ [p] } }

/-- Pair `p`'s operation completes. -/
def pkeEnd (s : State) (p st : Nat) (out : List Byte) : State :=
  let s := fset (foff s (Fld.PKE_REQ_GO_GO p)) (Fld.PKE_REQ_GO_STATUS p) st
  let s := if out.isEmpty then s else handleWrite s (rget s (Reg.PKE_REQ_D_2 p)) out
  pkeShow { s with dge := { s.dge with pkeQ := s.dge.pkeQ.drop 1, pkeOut := SMap.put s.dge.pkeOut p out } }

/-- Runs `f` when pair `p`'s operation `op` is the one in progress; it names slot `slot`. -/
def pkeRun (s : State) (p op : Nat) (f : State → Nat → State) : State :=
  if s.dge.pkeQ.head? = some p ∧ fget s (Fld.PKE_REQ_D_0_OP p) = op ∧ fone s Fld.PKE_CTRL_EN ∧ !carded s midPke then
    f s (fget s (Fld.PKE_REQ_D_0_SLOT p))
  else s

/-- A check of the engine disagrees: nothing is released. -/
def pkeFault (s : State) (p op slot : Nat) : State :=
  let s := fon (finc s (Fld.PKE_COUNT_COUNT 5)) Fld.PKE_EVENTS_FAULT
  pkeEnd (post s 17 1 false op slot 0 0) p ST_CIPHER_FAULT []

/-- A slot outside the engine's rights: the engine is carded (R490). -/
def pkeVio (s : State) (p slot : Nat) : State :=
  pkeShow (fon (raiseVio (pkeEnd s p ST_DENIED []) 6 15 midPke slot) Fld.KST_EVENTS_KEY_RIGHT)

/-- The seed slots of SIGN and PUBKEY. -/
def seedSlot (s : State) (i : Nat) : Bool := i == 3 || (i == 0 && bootOpen s)

/-- Bytes 0–47 padded. -/
def fit (n : Nat) (b : List Byte) : List Byte := (b ++ zeros (n - b.length)).take n

/-- Bytes `o` to `o + n - 1` of the inputs of pair `p`'s operation, in the order of the table of R489. -/
def pkeIn (s : State) (p o n : Nat) : List Byte := handleRead s (rget s (Reg.PKE_REQ_D_1 p)) o n

def execPkeSign (p : Fin 8) (agree : Bool) (s : State) : Out :=
  .next (pkeRun s p.val 1 fun s slot =>
    if !seedSlot s slot then pkeVio s p.val slot
    else if (kslot s slot).st = 0 then pkeEnd s p.val ST_KEY_REVOKED []
    else if entropyBad s then pkeEnd s p.val ST_ENTROPY []
    else
      let n := s.kst.draws
      let s := (draw s).2
      let s := finc s (Fld.PKE_COUNT_COUNT 0)
      if agree then pkeEnd s p.val ST_OK (Config.p384Sign (pkeScalar s slot) (pkeIn s p.val 0 48) n) else pkeFault s p.val 1 slot)

def execPkeVerify (p : Fin 8) (s : State) : Out :=
  .next (pkeRun s p.val 2 fun s _ =>
    let s := finc s (Fld.PKE_COUNT_COUNT 1)
    if Config.p384Verify (pkeIn s p.val 48 96) (pkeIn s p.val 0 48) (pkeIn s p.val 144 96) then pkeEnd s p.val ST_OK []
    else pkeEnd (fon (finc s (Fld.PKE_COUNT_COUNT 2)) Fld.PKE_EVENTS_VERIFY_FAIL) p.val ST_SIG_INVALID [])

def execPkeEcdh (p : Fin 8) (agree : Bool) (s : State) : Out :=
  .next (pkeRun s p.val 3 fun s slot =>
    if !decide (16 ≤ slot ∧ slot < 64) then pkeVio s p.val slot
    else if entropyBad s then pkeEnd s p.val ST_ENTROPY []
    else
      let r := draw s
      let s := finc r.2 (Fld.PKE_COUNT_COUNT 3)
      if agree then pkeEnd (kstDerive s slot (Config.p384Ecdh r.1 (pkeIn s p.val 0 96))) p.val ST_OK (Config.p384Pub r.1)
      else pkeFault s p.val 3 slot)

def execPkePubkey (p : Fin 8) (s : State) : Out :=
  .next (pkeRun s p.val 4 fun s slot =>
    if !seedSlot s slot then pkeVio s p.val slot
    else if (kslot s slot).st = 0 then pkeEnd s p.val ST_KEY_REVOKED []
    else
      let pub := Config.p384Pub (pkeScalar s slot)
      pkeEnd (finc s (Fld.PKE_COUNT_COUNT 4)) p.val ST_OK (pub ++ keyIdOf pub))

/-- The request registers of pair `p` act only for pair `p` (R506). -/
def ownPair (m : Master) (p : Nat) : Bool := match m with | .pair q => q.val == p | _ => false

end Sys2Proof.Machine
end

