-- ==== Sys2Proof/Machine/Signet.lean ====
section
/-! DEFINITION. The Signet ledger: entries, appending, the pending area, compaction (R491–R500, R503). -/
namespace Sys2Proof.Machine
open Sys2Proof

/-! ### Entries (R491) -/

/-- A measurement item's 58 bytes. -/
def itemBytes (i : MItem) : List Byte := le 2 i.comp ++ fit 48 i.digest ++ le 4 i.version ++ le 4 i.svn

/-- LENGTH of an entry of n items. -/
def entryLen (n : Nat) : Nat := 264 + 58 * n

/-- Cells an entry of n items occupies (R499). -/
def entryCells (n : Nat) : Nat := (entryLen n + 255) / 256

/-- An entry's bytes without its signature. -/
def entryBody (serial : List Byte) (e : SEntry) : List Byte :=
  [0x53, 0x47, 0x4E, 0x45] ++ le 2 1 ++ le 1 e.typ ++ le 1 e.eflags ++ le 8 e.idx ++ le 4 e.boot ++ le 2 (entryLen e.items.length)
    ++ le 2 e.items.length ++ le 8 e.time ++ fit 16 serial ++ fit 8 e.keyId ++ le 8 e.first ++ fit 48 e.prev
    ++ e.items.flatMap itemBytes ++ fit 48 e.settings ++ le 4 e.reason ++ le 4 e.state

/-- An entry's LENGTH bytes. -/
def entryBytes (serial : List Byte) (e : SEntry) : List Byte := entryBody serial e ++ fit 96 e.sig

/-- The digest of an entry. -/
def entryDigest (s : State) (e : SEntry) : List Byte := Config.sha384 (entryBytes s.part.serial e)

/-! ### The ring (R499) -/

def ringSegs : Nat := 127
def ringCells : Nat := 127 * 256

/-- Committed entries, with their cells. -/
def committed (g : Sgn) : SMap SEntry := SMap.keep g.ents fun _ e => e.done

/-- A segment holds nothing. -/
def sgnErased (g : Sgn) (seg : Nat) : Bool := !(g.ents.any fun e => e.1 / 256 == seg)

/-- Index of the oldest retained entry. -/
def oldestIdx (g : Sgn) : Nat := (committed g).foldl (fun n e => min n e.2.idx) g.next

/-- The cell on which an entry of `n` cells begins: an entry never crosses a sector of 16 cells. -/
def cellFor (head n : Nat) : Nat := (if head % 16 + n ≤ 16 then head else roundUp head 16) % ringCells

/-- The segment ahead of the head is not erased: compaction is due (R500). -/
def compactDue (g : Sgn) : Bool := !sgnErased g ((g.head / 256 + 1) % ringSegs)

/-- Where the next entry of `n` items can begin: a new segment must be erased, and while compaction is due the last sector of the
segment stays free for the summary. -/
def cellPlace (g : Sgn) (n : Nat) (summary : Bool) : Option Nat :=
  let c := cellFor g.head (entryCells n)
  if c / 256 ≠ g.head / 256 ∧ !sgnErased g (c / 256) then none
  else if compactDue g && !summary && decide (15 ≤ c % 256 / 16) then none
  else some c

/-- The SGN registers. -/
def sgnShow (s : State) : State :=
  let g := s.sgn
  let used := g.ents.foldl (fun n e => n + entryCells e.2.items.length) 0
  let old := (committed g).foldl (fun (b : Option (Nat × Nat)) e =>
    match b with
    | some (i, _) => if e.2.idx < i then some (e.2.idx, e.1) else b
    | none => some (e.2.idx, e.1)) none
  let s := pset s Reg.SGN_NEWEST_LO Reg.SGN_NEWEST_HI (g.next - 1)
  let s := pset s Reg.SGN_OLDEST_LO Reg.SGN_OLDEST_HI (match old with | some (i, _) => i | none => 0)
  let s := putBytes s Reg.SGN_HEAD 12 g.last
  let s := fset s Fld.SGN_SPACE_CELLS_FREE (ringCells - used)
  let s := fset (fset s Fld.SGN_SPACE_OLDEST_SEG (match old with | some (_, c) => c / 256 | none => 0)) Fld.SGN_SPACE_HEAD_SEG (g.head / 256)
  let s := fset (fset s Fld.SGN_PENDING_RECORDS g.pend.length) Fld.SGN_PENDING_APPENDING (b2n g.app.isSome)
  let s := fset s Fld.SGN_PENDING_COMPACTIONS (min 65535 g.compactions)
  rset (rset s Reg.SGN_KEY_ID_LO (u32 g.keyId 0)) Reg.SGN_KEY_ID_HI (u32 g.keyId 4)

/-! ### Item rules (R492) -/

def eventItem (i : MItem) : Bool := decide (0x0101 ≤ i.comp ∧ i.comp ≤ 0x010B)

/-- The items that a request of a type supplies are those the type carries, without the components SGN writes. -/
def itemsOk (typ : Nat) (items : List MItem) : Bool :=
  let ids := items.map (·.comp)
  if typ = 1 then
    ids.take 7 == [3, 4, 5, 6, 7, 8, 9] && (items.drop 7).all eventItem && decide (items.length + 2 ≤ 16)
  else if typ = 2 then decide (1 ≤ items.length ∧ items.length ≤ 4) && items.all eventItem
  else if typ = 3 then ids == [0x0F01, 0x0F02, 0x0F03, 0x0F04, 0x0F05]
  else if typ = 4 then items.all eventItem && decide (items.length + 3 ≤ 30)
  else false

/-! ### Appending (R494, R495) -/

/-- The seed slot that signs an entry: DeviceID for RECOVERY, Alias otherwise. -/
def signSlot (typ : Nat) : Nat := if typ = 4 then 0 else 3

/-- SGN completes and signs an entry and programs all of it but the commit word. -/
def appendAt (s : State) (c typ eflags first : Nat) (items : List MItem) (settings : List Byte) (reason state : Nat) : State :=
  let g := s.sgn
  let e : SEntry :=
    { typ := typ, eflags := eflags, idx := g.next, boot := s.tmb.boots, time := now s,
      keyId := if typ = 4 then keyIdOf g.devPub else g.keyId, first := if typ = 3 then first else g.next,
      prev := if g.next = 0 then zeros 48 else g.last, items := items, settings := settings, reason := reason, state := state, sig := [],
      done := false }
  let n := s.kst.draws
  let s := (draw s).2
  let s := finc s (Fld.PKE_COUNT_COUNT 0)
  let sig := Config.p384Sign (pkeScalar s (signSlot typ)) (Config.sha384 (entryBody s.part.serial e)) n
  sgnShow { s with sgn := { s.sgn with ents := SMap.put s.sgn.ents c { e with sig := sig }, app := some c } }

/-- The commit word of the running append is programmed: the entry joins the chain (R495). -/
def commitApp (s : State) : State :=
  match s.sgn.app with
  | none => s
  | some c =>
    match SMap.find s.sgn.ents c with
    | none => sgnShow { s with sgn := { s.sgn with app := none } }
    | some e =>
      let e := { e with done := true }
      let d := entryDigest s e
      let g := s.sgn
      let s := { s with sgn := { g with ents := SMap.put g.ents c e, app := none, head := (c + entryCells e.items.length) % ringCells,
                                        next := e.idx + 1, last := d } }
      let s := if e.typ = 1 then foff s Fld.BOT_SLOT_SKIP else s
      sgnShow (fset (foff s Fld.SGN_APPEND_GO) Fld.SGN_APPEND_STATUS ST_OK)

/-- Adds items to the pending area, which holds 64 (R498). -/
def pendAdd (s : State) (items : List MItem) : Option State :=
  if s.sgn.pend.length + items.length ≤ 64 then
    some (sgnShow { s with sgn := { s.sgn with pend := s.sgn.pend ++ items } })
  else none

/-- Records event items in a committed EVENT entry, or else in the pending area; none when neither can take them (R497, R498). -/
def eventAppend (s : State) (items : List MItem) : Option State :=
  if pulsesBlocked s then none
  else
    let s := commitApp s
    match cellPlace s.sgn items.length false with
    | some c =>
      if carded s midPke || !fone s Fld.SGN_CTRL_EN || s.bot.recovery then pendAdd s items
      else some (commitApp (appendAt s c 2 0 0 items s.bot.setDig s.bot.reason s.bot.secure))
    | none => pendAdd s items

/-- A request completes without an entry. -/
def appendRefuse (s : State) (st : Nat) : State := fset (foff s Fld.SGN_APPEND_GO) Fld.SGN_APPEND_STATUS st

/-- Items that SGN writes itself ahead of those supplied (R494). -/
def ownItems (s : State) (typ : Nat) : List MItem :=
  if typ = 1 then (s.bot.items.filter fun i => i.comp == 1 || i.comp == 2)
  else if typ = 4 then (s.bot.items.filter fun i => i.comp == 1 || i.comp == 10 || i.comp == 11)
  else []

/-- A write of SGN_APPEND with GO: the body in the slab is `typ`, `items`, `settings`, `reason`, `state`; `bad` of the engine's
two attempts to sign fail (R494, R503). -/
def sgnAppend (s : State) (typ : Nat) (items : List MItem) (settings : List Byte) (reason state bad : Nat) : State :=
  if !fone s Fld.SGN_CTRL_EN || fone s Fld.SGN_APPEND_GO then s
  else
    let s := fset (fon (commitApp s) Fld.SGN_APPEND_GO) Fld.SGN_APPEND_ITEMS items.length
    if !itemsOk typ items || (typ == 4 && !bootOpen s) then appendRefuse s ST_SIGNET_ITEM
    else
      let s := (List.range bad).foldl (fun s _ =>
        post (fon (finc s (Fld.PKE_COUNT_COUNT 5)) Fld.PKE_EVENTS_FAULT) 17 1 false 1 (signSlot typ) 0 0) s
      let all := ownItems s typ ++ items
      let held := fun (s : State) (st : Nat) =>
        match pendAdd s (items.filter eventItem) with
        | some s => appendRefuse s st
        | none => appendRefuse s ST_BUSY
      match cellPlace s.sgn all.length (typ == 3) with
      | none => held s ST_BUSY
      | some c =>
        if carded s midPke then held s ST_BUSY
        else if 2 ≤ bad then held s ST_CIPHER_FAULT
        else if pulsesBlocked s then appendRefuse s ST_BROWNOUT
        else appendAt s c typ 0 s.sgn.next all settings reason state

/-- An append whose body stands in the slab, laid out as an entry (R491, R494; DEDUCED, notes/assumptions/42.md). A handle that is not
current or too small for the body is VIO_DMA_WINDOW, and nothing is appended (R367). -/
def sgnAppendSlab (s : State) (id : Nat) : State :=
  let n := fget s Fld.SGN_APPEND_ITEMS
  let h := fget s Fld.SGN_APPEND_HANDLE_HANDLE
  if !handleOk s id h 0 (168 + 58 * n) then appendRefuse (raiseVio s 1 18 id h) ST_DENIED
  else
    let b := handleRead s h 0 (168 + 58 * n)
    let item := fun (i : Nat) =>
      (⟨u16 b (112 + 58 * i), slice b (114 + 58 * i) 48, u32 b (162 + 58 * i), u32 b (166 + 58 * i)⟩ : MItem)
    let o := 112 + 58 * n
    sgnAppend s (u8 b 6) ((List.range n).map item) (slice b o 48) (u32 b (o + 48)) (u32 b (o + 52)) 0

/-- A write of SGN_APPEND: GO starts the append, unless one runs (R16, R19). -/
def wrSgnAppend (s : State) (m : Master) (v : Word) : State :=
  if bit v.toNat 0 ∧ fone s Fld.SGN_CTRL_EN ∧ !fone s Fld.SGN_APPEND_GO then sgnAppendSlab (genWrite s Reg.SGN_APPEND v) (midOf m)
  else genWrite s Reg.SGN_APPEND v

def execSignetAppend (m : Master) (typ : Nat) (items : List MItem) (settings : List Byte) (reason state : Nat) (bad : Fin 3) (s : State) :
    Out :=
  .next (gated s m Reg.SGN_APPEND fun s => sgnAppend s typ items settings reason state bad.val)

/-- A commit word that begins to pulse is programmed; none starts while pulses are blocked (R523). -/
def execSignetCommit (s : State) : Out := .next (if pulsesBlocked s then s else commitApp s)

/-- Step 6 of R54 for the ledger: an append whose signature is complete is finished (R498). -/
def sgnFlush (s : State) : State := commitApp s

/-! ### Compaction (R500) -/

/-- The index from which the newest 4,096 BOOT and RECOVERY entries are kept. -/
def keptBoots (g : Sgn) : List Nat :=
  let b := ((committed g).filter fun e => e.2.typ == 1 || e.2.typ == 4).map fun e => e.2.idx
  b.filter fun i => decide ((b.filter fun j => decide (i < j)).length < 4096)

/-- An open SIGNET_READ volley has still to return one of these entries, or the end of it (R501, R503). -/
def volleyNeeds (s : State) (es : List SEntry) : Bool :=
  s.mbx.chans.any fun e => match e.2.volley with
    | some v => v.opcode == 0x0602 && v.ents.any fun x => decide (v.sent < x.2) && es.any fun e => e.idx == x.1
    | none => false

/-- Inserts an entry in index order. -/
def idxInsert (e : SEntry) : List SEntry → List SEntry
  | [] => [e]
  | x :: xs => if e.idx < x.idx then e :: x :: xs else x :: idxInsert e xs

/-- The committed entries of a segment, in index order. -/
def segEntries (g : Sgn) (seg : Nat) : List SEntry :=
  ((committed g).filter fun e => e.1 / 256 == seg).foldl (fun acc e => idxInsert e.2 acc) []

/-- The item of an entry with a component. -/
def itemOf (e : SEntry) (comp : Nat) : Option MItem := e.items.find? fun i => i.comp == comp

/-- The items of the summary of some entries. -/
def summaryItems (s : State) (es : List SEntry) : List MItem × Nat :=
  let old := es.find? fun e => e.typ == 3
  let fst := es.head?
  let lst := es.getLast?
  let cf : MItem := match old.bind fun e => itemOf e 0x0F01 with
    | some i => i
    | none => match fst with
      | some e => { comp := 0x0F01, digest := e.prev, version := e.idx % 4294967296, svn := e.idx / 4294967296 }
      | none => { comp := 0x0F01, digest := [], version := 0, svn := 0 }
  let cl : MItem := match lst with
    | some e => { comp := 0x0F02, digest := entryDigest s e, version := e.idx % 4294967296, svn := e.idx / 4294967296 }
    | none => { comp := 0x0F02, digest := [], version := 0, svn := 0 }
  let head := match old.bind fun e => itemOf e 0x0F03 with | some i => i.digest | none => []
  let cnt := match old.bind fun e => itemOf e 0x0F03 with | some i => i.version | none => 0
  let rest := es.filter fun e => match old with | some o => e.idx != o.idx | none => true
  let dl : MItem := { comp := 0x0F03, digest := Config.sha384 (head ++ rest.flatMap (entryDigest s)), version := cnt + rest.length, svn := 0 }
  let lo := match old.bind fun e => itemOf e 0x0F04 with | some i => i.version | none => (match fst with | some e => e.boot | none => 0)
  let hi := es.foldl (fun n e => max n e.boot) 0
  let un := es.foldl (fun n e => n ||| (match itemOf e 0x0F05 with | some i => if e.typ = 3 then i.version else e.state | none => e.state)) 0
  let sv := es.foldl (fun n e => n + (if e.typ = 3 then (match itemOf e 0x0F05 with | some i => i.svn | none => 0)
    else e.items.countP fun i => i.comp == 0x0101)) 0
  let first := match old with | some e => e.first | none => match fst with | some e => e.idx | none => s.sgn.next
  ([cf, cl, dl, { comp := 0x0F04, digest := [], version := lo, svn := hi }, { comp := 0x0F05, digest := [], version := un, svn := sv }],
    first)

/-- Compacts the oldest segment: a SUMMARY entry covers its entries, and it is erased. -/
def compact (s : State) : State :=
  let s := commitApp s
  let seg := (s.sgn.head / 256 + 1) % ringSegs
  let es := segEntries s.sgn seg
  if !compactDue s.sgn || !fone s Fld.SGN_CTRL_EN || pulsesBlocked s || carded s midPke || volleyNeeds s es
      || es.any fun e => (keptBoots s.sgn).contains e.idx then s
  else
    match cellPlace s.sgn 5 true with
    | none => s
    | some c =>
      let r := summaryItems s es
      let s := if es.isEmpty then s else commitApp (appendAt s c 3 0 r.2 r.1 s.bot.setDig s.bot.reason s.bot.secure)
      let ents := s.sgn.ents.filter fun e => e.1 / 256 != seg
      let s := { s with sgn := { s.sgn with ents := ents, compactions := s.sgn.compactions + 1 } }
      let lo := match es.head? with | some e => e.idx | none => 0
      let hi := match es.getLast? with | some e => e.idx | none => 0
      sgnShow (post (fon s Fld.SGN_EVENTS_COMPACTED) 18 3 false seg lo hi 0)

def execSignetCompaction (s : State) : Out := .next (compact s)

/-! ### The boot's entry (R496–R498) -/

/-- The public key of a key ID: the DeviceID key, or a certificate's. -/
def pubOf (s : State) (id : List Byte) : Option (List Byte) :=
  if id = keyIdOf s.sgn.devPub then some s.sgn.devPub
  else (s.sgn.certs.find? fun c => c.1 == id).map fun c => c.2.1

/-- The newest committed entry and the cell it begins on. -/
def newest (g : Sgn) : Option (Nat × SEntry) := (committed g).find? fun e => e.2.idx + 1 == g.next

/-- The signature of an entry verifies. -/
def sigOk (s : State) (e : SEntry) : Bool :=
  match pubOf s e.keyId with
  | some pub => Config.p384Verify pub (Config.sha384 (entryBody s.part.serial e)) e.sig
  | none => false

/-- The scan of a boot: abandoned entries are skipped and recorded; a chain break gives an item. -/
def sgnScan (s : State) : State × List MItem :=
  let bad := s.sgn.ents.filter fun e => !e.2.done
  let s := { s with sgn := { s.sgn with app := none } }
  let s := bad.foldl (fun s e =>
    let past := (e.1 + entryCells e.2.items.length) % ringCells
    let s := { s with sgn := { s.sgn with head := if e.1 = cellFor s.sgn.head (entryCells e.2.items.length) then past else s.sgn.head } }
    post (fon s Fld.SGN_EVENTS_ABANDONED) 18 1 false e.2.idx (entryCells e.2.items.length) 0 0) s
  match newest s.sgn with
  | some (_, e) =>
    if sigOk s e then (s, [])
    else
      let d := entryDigest s e
      (post (fon s Fld.SGN_EVENTS_CHAIN_BREAK) 18 2 false e.idx 0 0 0,
        [{ comp := 0x0108, digest := d, version := e.idx % 4294967296, svn := e.idx / 4294967296 }])
  | none => (s, [])

/-- The event items of a boot's entry: more than fit beside `base` items are folded (R498). -/
def foldItems (s : State) (base : Nat) (ev : List MItem) : List MItem × State :=
  if base + ev.length ≤ 16 then (ev, s)
  else
    let rest := ev.drop 6
    let d : MItem := { comp := 0x0109, digest := Config.sha384 (rest.flatMap itemBytes), version := rest.length, svn := 0 }
    (ev.take 6 ++ [d], rest.foldl (fun s i => post s 18 4 false i.comp i.version i.svn 0) (fon s Fld.SGN_EVENTS_FOLDED))

/-- Appends and commits the BOOT entry (typ 1) or RECOVERY entry (typ 4) of a boot; false when the ledger cannot take it. -/
def bootEntry (s : State) (typ : Nat) (base : List MItem) (settings : List Byte) (reason state : Nat) (ev : List MItem) : Bool × State :=
  let r := sgnScan (fon s Fld.SGN_CTRL_EN)
  let s := if compactDue r.1.sgn then compact r.1 else r.1
  let carried := s.sgn.pend
  let f := foldItems s base.length (carried ++ r.2 ++ ev)
  let items := base ++ f.1
  match cellPlace f.2.sgn items.length false with
  | some c =>
    if pulsesBlocked f.2 || carded f.2 midPke then (false, f.2)
    else
      let flags := (if carried.isEmpty then 0 else 1) + (if r.2.isEmpty then 0 else 2)
      let s := commitApp (appendAt f.2 c typ flags 0 items settings reason (if r.2.isEmpty then state else state ||| 256))
      let s := if carried.isEmpty then s else fon s Fld.SGN_EVENTS_CARRIED
      (true, sgnShow (fset { s with sgn := { s.sgn with pend := [] } } Fld.SGN_PENDING_CARRIED carried.length))
  | none => (false, f.2)

/-! ### The Alias certificate store (R484) -/

/-- Key IDs that retained entries carry. -/
def idsCarried (g : Sgn) : List (List Byte) := (committed g).map fun e => e.2.keyId

/-- Finds or issues the certificate of the Alias key. -/
def aliasStore (s : State) (pub tcb : List Byte) : State :=
  let id := keyIdOf pub
  let s := { s with sgn := { s.sgn with keyId := id, aliasPub := pub, spare := none } }
  if s.sgn.certs.any fun c => c.1 == id && c.2.1 == pub then sgnShow s
  else
    let c := (id, pub, Config.aliasCert pub tcb)
    if s.sgn.certs.length < 64 then sgnShow { s with sgn := { s.sgn with certs := s.sgn.certs ++ [c] } }
    else
      let kept := s.sgn.certs.filter fun c => (idsCarried s.sgn).contains c.1
      if kept.length < 64 then sgnShow { s with sgn := { s.sgn with certs := kept ++ [c] } }
      else sgnShow (fon { s with sgn := { s.sgn with spare := some c } } Fld.SGN_EVENTS_CERT_STORE_FULL)

end Sys2Proof.Machine
end

