-- ==== Sys2Proof/Machine/Clasp.lean ====
section
/-! DEFINITION. The Clasp store: descriptors, programming, reading, erase and suspend, continuous read, locks and the password
(R507–R530). -/
namespace Sys2Proof.Machine
open Sys2Proof

/-! ### Words (R507, R508) -/

/-- An erased word. -/
def wordOnes : Nat := 0xFFFFFFFFFFFFFFFF

/-- The word at offset `o` of a byte string; bytes past its end are erased. -/
def wordOf (b : List Byte) (o : Nat) : Nat := u64 (b ++ List.replicate (o + 8 - b.length) 0xFF) o

/-- The word of the Signet area: entries and, in segment 127, the pending records. The commit word is programmed last (R495). -/
def sgnWord (s : State) (w : Nat) : Nat :=
  let cell := w / 32
  match s.sgn.ents.find? fun e => decide (e.1 ≤ cell ∧ cell < e.1 + entryCells e.2.items.length) with
  | some (c, e) =>
    let o := (w - 32 * c) * 8
    if o = 0 ∧ !e.done then wordOnes else wordOf (entryBytes s.part.serial e) o
  | none =>
    let k := (w - ringCells * 32) / 8
    if ringCells * 32 ≤ w then
      match s.sgn.pend[k]? with
      | some i => let b := itemBytes i ++ zeros 2; wordOf (b ++ le 4 (crc32 b)) (w % 8 * 8)
      | none => wordOnes
    else wordOnes

/-- The word of the Locket area. -/
def lktWord (s : State) (w : Nat) : Nat :=
  match SMap.find s.lkt.area (w / 4) with
  | some x => wordOf (slotBytes x) (w % 4 * 8)
  | none => wordOnes

/-- The area's records stand in structured state whose bytes the spec or a standard leaves open. -/
def areaOpen (sector : Nat) : Bool :=
  decide (sector < 9216) || decide (13312 ≤ sector ∧ sector < 14848)

/-- The data of a word: what descriptors programmed, or what the area's owner keeps there. -/
def norWord (s : State) (w : Nat) : Nat × State :=
  match SMap.find s.cls.nor w with
  | some v => (v, s)
  | none =>
    let sector := w / 512
    if areaOpen sector then (openVal s % 2 ^ 64, openTaken s)
    else if 9216 ≤ sector ∧ sector < 11264 then (sgnWord s (w - 9216 * 512), s)
    else if 11264 ≤ sector ∧ sector < 13312 then (lktWord s (w - 11264 * 512), s)
    else (wordOnes, s)

/-- A word is blank: a word whose content is open is not. -/
def norBlank (s : State) (w : Nat) : Bool :=
  match SMap.find s.cls.nor w with
  | some _ => false
  | none =>
    let sector := w / 512
    if sector < 8192 then (SMap.find s.bot.img (sector / 4096)).isNone
    else if 9216 ≤ sector ∧ sector < 11264 then sgnWord s (w - 9216 * 512) == wordOnes
    else if 11264 ≤ sector ∧ sector < 13312 then lktWord s (w - 11264 * 512) == wordOnes
    else true

/-- An erase of a sector removes what lies there. -/
def norErase (s : State) (sector : Nat) : State :=
  let nor := s.cls.nor.filter fun e => e.1 / 512 != sector
  let s := { s with cls := { s.cls with nor := nor } }
  if sector < 8192 then { s with bot := { s.bot with img := SMap.del s.bot.img (sector / 4096) } }
  else if sector = 9216 + 127 * 16 then sgnShow { s with sgn := { s.sgn with pend := [] } }
  else if 9216 ≤ sector ∧ sector < 11264 then
    let ents := s.sgn.ents.filter fun e => e.1 / 16 != sector - 9216
    sgnShow { s with sgn := { s.sgn with ents := ents } }
  else if 11264 ≤ sector ∧ sector < 13312 then
    let area := s.lkt.area.filter fun e => e.1 / 128 != sector - 11264
    { s with lkt := { s.lkt with area := area } }
  else s

/-! ### Slots (R510–R514) -/

/-- Shows the slots, the erase and the counts of CLS_STATUS. -/
def clsShow (s : State) : State :=
  let s := (List.range 32).foldl (fun s i =>
    match SMap.find s.cls.slots i with
    | some d =>
      let s := fset (fset (fset s (Fld.CLS_SLOT_STATE i) d.st) (Fld.CLS_SLOT_OP i) d.op) (Fld.CLS_SLOT_STATUS i) d.status
      fset (fset (fset s (Fld.CLS_SLOT_TAG_TAG i) d.tag) (Fld.CLS_SLOT_INFO_WORDS i) d.words) (Fld.CLS_SLOT_INFO_AT_WORD i) d.at_
    | none => fset s (Fld.CLS_SLOT_STATE i) 0) s
  let done := s.cls.slots.foldl (fun n e => if e.2.st = 4 then n + 2 ^ e.1 else n) 0
  let busy := s.cls.slots.foldl (fun n e => n + 2 ^ e.1) 0
  let s := fset (fset s Fld.CLS_DONE_SLOTS done) Fld.CLS_BUSY_SLOTS busy
  let s := fset s Fld.CLS_STATUS_ERASE_OPEN s.cls.open_.length
  match s.cls.erase with
  | some e =>
    let s := fset (fset s Fld.CLS_ERASE_SECTOR e.sector) Fld.CLS_ERASE_STATE e.st
    fset (fset s Fld.CLS_STATUS_ERASING (b2n (e.st == 1))) Fld.CLS_STATUS_SUSPENDED (b2n (e.st == 2))
  | none => foff (foff (fset s Fld.CLS_ERASE_STATE 0) Fld.CLS_STATUS_ERASING) Fld.CLS_STATUS_SUSPENDED

/-- Changes a slot. -/
def clsPut (s : State) (i : Nat) (d : ClsSlot) : State := clsShow { s with cls := { s.cls with slots := SMap.put s.cls.slots i d } }

/-- The address under which a master's own copy of a register stands (R187, R510). -/
def selKey (m : Master) (a : Nat) : Nat := masterNo m * 4294967296 + a

/-- Posts the descriptor that a master has written; firmware takes slots 0–27 only. ADDR is its bits [25:0]: the bits above are reserved,
and what stands in them is ignored (R21, R511). -/
def clsPost (s : State) (m : Master) : State :=
  let w := fun k => (SMap.getD s.sel (selKey m (Reg.CLS_POST_D k)) 0).toNat
  let answer := fun (s : State) (slot st : Nat) =>
    { s with sel := SMap.put s.sel (selKey m Reg.CLS_POST_GO) (BitVec.ofNat 32 (slot * 256 + st * 65536)) }
  match (if fone s Fld.CLS_CTRL_EN then (List.range 28).find? fun i => (SMap.find s.cls.slots i).isNone else none) with
  | some i =>
    let d : ClsSlot :=
      { op := bits (w 0) 0 8, flags := bits (w 0) 8 8, tag := w 1, addr := bits (w 2) 0 26, len := w 3, data := w 4 + 4294967296 * w 5,
        param := w 6 + 4294967296 * w 7, poster := masterNo m, st := 1, seq := s.cls.seq, status := 0, words := 0, at_ := 0, vals := [] }
    let s := { s with cls := { s.cls with seq := s.cls.seq + 1 } }
    answer (clsPut s i d) i ST_OK
  | none => answer s 0 ST_BUSY

/-- Releases the DONE slots of a master's own descriptors (R514). -/
def clsRelease (s : State) (m : Master) (v : Nat) : State :=
  let slots := s.cls.slots.filter fun e => !(v.testBit e.1 && e.2.st == 4 && e.2.poster == masterNo m)
  clsShow { s with cls := { s.cls with slots := slots } }

def execClsSlotRelease (m : Master) (v : Word) (s : State) : Out :=
  .next (gated s m Reg.CLS_RELEASE fun s => clsRelease s m v.toNat)

/-! ### Starting a descriptor (R512, R513) -/

def ClsSlot.sector (d : ClsSlot) : Nat := d.addr / 4096
def ClsSlot.yields (d : ClsSlot) : Bool := d.op == 3 && bit d.flags 0
def ClsSlot.flush (d : ClsSlot) : Bool := bit d.flags 1

/-- The sector's lock bit. -/
def sectorLocked (s : State) (k : Nat) : Bool := (SMap.getD s.cls.locks (k / 32) 0).testBit (k % 32)

/-- The lowest word from index `i` that satisfies `p`, among `n`. -/
def firstWord (p : Nat → Bool) : Nat → Nat → Option Nat
  | 0, _ => none
  | n + 1, i => if p i then some i else firstWord p n (i + 1)

/-- The first check of R512 that a descriptor fails: its status and AT_WORD. -/
def clsCheck (s : State) (d : ClsSlot) : Option (Nat × Nat) :=
  let align := if d.op = 3 ∨ d.op = 5 ∨ d.op = 6 then 4096 else 8
  let needs := (d.op == 1 || d.op == 2) && d.data / 2 ^ 62 == 0
  let lenOk := if d.op = 1 ∨ d.op = 2 ∨ d.op = 4 then decide (8 ≤ d.len ∧ d.len ≤ 4096 ∧ d.len % 8 = 0)
    else if d.op = 7 then d.len == 0 else d.len == 4096
  let pulses := d.op == 2 || d.op == 3 || d.op == 5 || d.op == 6 || d.op == 7
  let isOpen := s.cls.open_.contains d.sector
  let runs : Bool := match s.cls.erase with | some e => e.sector == d.sector | none => false
  if d.op = 0 ∨ 7 < d.op ∨ 0x4000000 ≤ d.addr ∨ d.addr % align ≠ 0 ∨ needs then some (ST_CLASP_DESC, 0)
  else if !lenOk || decide (4096 < d.addr % 4096 + d.len) then some (ST_BAD_LENGTH, 0)
  else if pulses && (pulsesBlocked s || (fone s Fld.CLS_STATUS_PFAIL && !d.flush)) then some (ST_BROWNOUT, 0)
  else if (d.op = 6 ∨ d.op = 7) ∧ fone s Fld.CLS_PW_STATE_BARRED then some (ST_PW_BARRED, 0)
  else if d.op = 3 ∧ runs then some (ST_BUSY, 0)
  else if d.op ≠ 7 ∧ d.op ≠ 3 ∧ (isOpen ∨ runs) then some (ST_ERASE_SUSPENDED, 0)
  else if (d.op = 2 ∨ d.op = 3) ∧ sectorLocked s d.sector then some (ST_PROTECTED, 0)
  else if d.op = 2 then (firstWord (fun i => !norBlank s (d.addr / 8 + i)) (d.len / 8) 0).map fun i => (ST_NOT_BLANK, i)
  else none

/-- A descriptor is DONE. -/
def clsDone (s : State) (i : Nat) (d : ClsSlot) (st : Nat) : State :=
  let s := finc (clsPut s i { d with st := 4, status := st }) (Fld.CLS_COUNT_COUNT 0)
  if st = ST_NOT_BLANK then fon (finc s (Fld.CLS_COUNT_COUNT 4)) Fld.CLS_EVENTS_NOT_BLANK
  else if st = ST_PROTECTED then fon (finc s (Fld.CLS_COUNT_COUNT 5)) Fld.CLS_EVENTS_PROTECTED
  else if st = ST_BROWNOUT then finc s (Fld.CLS_COUNT_COUNT 6)
  else if st = ST_CLASP_UE then finc s (Fld.CLS_COUNT_COUNT 8)
  else s

/-- The queued descriptor whose turn it is: FLUSH first, then posting order; an ERASE with YIELD only when nothing else waits. -/
def clsTurn (s : State) : Option (Nat × ClsSlot) :=
  let best := fun (p : ClsSlot → Bool) =>
    (s.cls.slots.filter fun e => e.2.st == 1 && p e.2).foldl (fun (b : Option (Nat × ClsSlot)) e =>
      match b with
      | some x => if e.2.seq < x.2.seq then some e else b
      | none => some e) none
  match best fun d => d.flush with
  | some e => some e
  | none => match best fun d => !d.yields with
    | some e => some e
    | none => best fun _ => true

/-- An ERASE of the sector whose erase runs or is suspended: it starts no array operation, as the check of step 6 fails it (R512). -/
def eraseTwice (s : State) (d : ClsSlot) : Bool :=
  match s.cls.erase with
  | some e => d.op == 3 && e.sector == d.sector
  | none => false

/-- The array is free for a descriptor: none runs, no erase runs, and a continuous read lets one start. -/
def clsFree (s : State) (d : ClsSlot) : Bool :=
  !(s.cls.slots.any fun e => e.2.st == 2 && !(eraseTwice s d && e.2.op == 3))
    && (match s.cls.erase with | some e => e.st == 2 && d.op != 3 || eraseTwice s d | none => true)
    && (match s.cls.cr with | some c => d.flush || decide (0 < c.grant) | none => true)
    && !(d.op == 1 && fone s Fld.CLS_STATUS_BLOCK_AON)

/-- A core pair's number 0–7 names the 512 KiB of tightly coupled SRAM that holds the `n` bytes at a fabric address (R33). -/
def inTcm (p a n : Nat) : Bool := decide (0x10000000 + p * 0x80000 ≤ a ∧ a + n ≤ 0x10000000 + (p + 1) * 0x80000)

/-- DATA of a descriptor: 1 slab handle, 2 DRAM address, 3 fabric address (R511). -/
def ClsSlot.where_ (d : ClsSlot) : Nat := bits d.data 62 2

/-- The data of a PROGRAM, from its source. -/
def clsSource (s : State) (d : ClsSlot) : List Byte :=
  if d.where_ = 1 then handleRead s (bits d.data 0 32) 0 d.len
  else if d.where_ = 2 then (List.range d.len).map fun i => memByte s (1099511627776 + bits d.data 0 37 + i)
  else (List.range d.len).map fun i => SMap.getD s.fab.mem (bits d.data 0 32 + i) 0

/-- The source of a PROGRAM as words. -/
def clsWords (s : State) (d : ClsSlot) : List Nat :=
  let b := clsSource s d
  (List.range (d.len / 8)).map fun i => u64 b (8 * i)

/-- Delivers the bytes of a READ to its destination; a slab range that the poster does not hold is VIO_DMA_WINDOW (R367), and
nothing is written there or outside the posting pair's own SRAM (R511). -/
def clsDeliver (s : State) (d : ClsSlot) (b : List Byte) : State :=
  let a := bits d.data 0 37
  let f := bits d.data 0 32
  if d.where_ = 1 then
    if handleOk s (midPair d.poster) f 0 b.length then handleWrite s f b else raiseVio s 1 19 (midPair d.poster) f
  else if d.where_ = 2 then memPut (dramWrote s a b.length) (1099511627776 + a) b
  else if inTcm d.poster f b.length then memPut (sramWrote s (2 + d.poster) (f % 0x80000) b.length) f b
  else s

/-- Starts the descriptor whose turn it is, when its operation is `op`. -/
def clsStart (s : State) (op : Nat) : State :=
  match clsTurn s with
  | some (i, d) =>
    if d.op ≠ op ∨ !clsFree s d then s
    else
      let cr := s.cls.cr.map fun c => if d.flush then c else { c with grant := c.grant - 1 }
      let s := { s with cls := { s.cls with cr := cr } }
      match clsCheck s d with
      | some (st, k) => clsDone (if d.op = 1 ∧ st = ST_ERASE_SUSPENDED then clsDeliver s d (zeros d.len) else s) i { d with at_ := k } st
      | none =>
        if op = 3 then
          let er : ClsErase := { slot := i, sector := d.sector, st := 1, since := now s }
          let opens := s.cls.open_.filter (· != d.sector)
          clsPut (fset { s with cls := { s.cls with erase := some er, open_ := opens } } Fld.CLS_ERASE_SUSPENDS 0) i { d with st := 2 }
        else clsPut s i { d with st := 2, vals := if op = 2 then clsWords s d else [] }
  | none => s

def execClsRead (s : State) : Out := .next (clsStart s 1)
def execClsProgram (s : State) : Out := .next (clsStart s 2)
def execClsErase (s : State) : Out := .next (clsStart s 3)
def execClsBlankCheck (s : State) : Out := .next (clsStart s 4)
def execClsLock (s : State) : Out := .next (clsStart s 5)
def execClsUnlock (s : State) : Out := .next (clsStart s 6)
def execClsSetPassword (s : State) : Out := .next (clsStart s 7)

/-! ### Ending a descriptor (R515–R518, R521, R522) -/

/-- `n` words of a sector have been corrected. -/
def wordsCorrected (s : State) (sector n : Nat) : State :=
  if n = 0 then s
  else
    let c := SMap.put s.cls.corr sector (min 0xFFF (SMap.getD s.cls.corr sector 0 + n))
    fon (fadd { s with cls := { s.cls with corr := c } } (Fld.CLS_COUNT_COUNT 7) n) Fld.CLS_EVENTS_CORRECTED

/-- A word read is corrected, or is uncorrectable (R517). -/
def wordFound (s : State) (i : Nat) (d : ClsSlot) (corr bad : List Nat) : State :=
  let n := d.len / 8
  let cs := corr.filter fun k => decide (k < n) && !bad.contains k
  let bs := bad.filter fun k => decide (k < n)
  let s := wordsCorrected s d.sector cs.length
  bs.foldl (fun s k => post (fon s Fld.CLS_EVENTS_UE) 19 1 false (d.addr + 8 * k) d.op i 0) s

/-- Delivers `n` words from word `w` on; the words at positions `bad` are delivered as 0. -/
def readWords (bad : List Nat) : Nat → Nat → Nat → State → List Nat × State
  | 0, _, _, s => ([], s)
  | n + 1, w, k, s =>
    let r := if bad.contains k then (0, s) else norWord s w
    let rest := readWords bad n (w + 1) (k + 1) r.2
    (r.1 :: rest.1, rest.2)

/-- A wrong password (R522). -/
def pwFail (s : State) (i : Nat) (d : ClsSlot) : State :=
  let n := min 15 (fget s Fld.CLS_PW_STATE_FAILS + 1)
  let s := fset (fon s Fld.CLS_EVENTS_PW_FAIL) Fld.CLS_PW_STATE_FAILS n
  let s := if 8 ≤ n then fon s Fld.CLS_PW_STATE_BARRED else s
  clsDone (post s 19 2 false d.sector n d.op 0) i d ST_PROTECTED

/-- A lock bit changes. -/
def lockSet (s : State) (k : Nat) (b : Bool) : State :=
  let w := SMap.getD s.cls.locks (k / 32) 0
  let w' := if w.testBit (k % 32) = b then w else if b then w + 2 ^ (k % 32) else w - 2 ^ (k % 32)
  { s with cls := { s.cls with locks := SMap.putD s.cls.locks (k / 32) 0 w' } }

/-- The erase of a slot has verified: the record is cleared and the sector's erase count rises (R518). -/
def eraseEnd (s : State) (i : Nat) (d : ClsSlot) : State :=
  let s := norErase s d.sector
  let n := SMap.getD s.cls.erases d.sector 0
  let s := { s with cls := { s.cls with erase := none, erases := SMap.put s.cls.erases d.sector (min 0x1FFFF (n + 1)) } }
  clsDone (finc s (Fld.CLS_COUNT_COUNT 2)) i d ST_OK

/-- The first `n` words of a PROGRAM are in the array. -/
def norPut (nor : SMap Nat) (d : ClsSlot) (n : Nat) : SMap Nat :=
  (List.range n).foldl (fun t j => SMap.put t (d.addr / 8 + j) (d.vals.getD j wordOnes % 2 ^ 64)) nor

/-- The array work of slot `i` ends; `k` words were done when pulses became blocked, `corr` and `bad` are the words a read found
corrected and uncorrectable. -/
def clsEnd (s : State) (i k : Nat) (corr bad : List Nat) : State :=
  match SMap.find s.cls.slots i with
  | none => s
  | some d =>
    if d.st ≠ 2 then s
    else
      let n := d.len / 8
      let w0 := d.addr / 8
      let stop := pulsesBlocked s || (fone s Fld.CLS_STATUS_PFAIL && !d.flush)
      if d.op = 1 then
        let s := wordFound s i d corr bad
        let r := readWords bad n w0 0 s
        let at_ := (firstWord (fun j => bad.contains j) n 0).getD 0
        clsDone (clsDeliver r.2 d (r.1.flatMap (le 8))) i { d with vals := r.1, words := n, at_ := at_ } (if bad.any fun j => decide (j < n) then ST_CLASP_UE else ST_OK)
      else if d.op = 2 then
        let m := if stop then min k n else n
        let s := fadd { s with cls := { s.cls with nor := norPut s.cls.nor d m } } (Fld.CLS_COUNT_COUNT 1) m
        clsDone s i { d with words := m } (if m < n then ST_BROWNOUT else ST_OK)
      else if d.op = 3 then eraseEnd s i d
      else if d.op = 4 then
        match firstWord (fun j => !norBlank s (w0 + j)) n 0 with
        | some j => clsDone s i { d with at_ := j } ST_NOT_BLANK
        | none => clsDone s i d ST_OK
      else if d.op = 5 then clsDone (lockSet s d.sector true) i d ST_OK
      else if d.op = 6 then
        if d.param = s.cls.pw then clsDone (lockSet s d.sector false) i d ST_OK else pwFail s i d
      else
        if d.data = s.cls.pw then clsDone { s with cls := { s.cls with pw := d.param } } i d ST_OK else pwFail s i d

def execClsDescComplete (i : Fin 32) (k : Nat) (corr bad : List Nat) (s : State) : Out := .next (clsEnd s i.val k corr bad)

/-! ### Suspend and resume (R519) -/

/-- READ, PROGRAM or BLANK_CHECK work waits or runs, or a continuous read runs. -/
def clsWork (s : State) : Bool :=
  s.cls.cr.isSome || s.cls.slots.any fun e => (e.2.op == 1 || e.2.op == 2 || e.2.op == 4) && (e.2.st == 1 || e.2.st == 2)

/-- A suspend takes effect, not before the minimum progress interval of a resumed erase has passed. -/
def eraseSuspend (s : State) : State :=
  match s.cls.erase with
  | some e =>
    match SMap.find s.cls.slots e.slot with
    | some d =>
      if e.st = 1 ∧ d.yields ∧ clsWork s then
        let s := finc (finc (reach s e.since) (Fld.CLS_COUNT_COUNT 3)) Fld.CLS_ERASE_SUSPENDS
        clsPut { s with cls := { s.cls with erase := some { e with st := 2 } } } e.slot { d with st := 3 }
      else s
    | none => s
  | none => s

def execClsEraseSuspend (s : State) : Out := .next (eraseSuspend s)

/-- The erase resumes when no such work remains; its next suspend waits 500 µs. -/
def eraseResume (s : State) : State :=
  match s.cls.erase with
  | some e =>
    match SMap.find s.cls.slots e.slot with
    | some d =>
      if e.st = 2 ∧ !clsWork s then
        let t := now s + 500000
        clsPut { s with cls := { s.cls with erase := some { e with st := 1, since := t } } } e.slot { d with st := 2 }
      else s
    | none => s
  | none => s

def execClsEraseResume (s : State) : Out := .next (eraseResume s)

/-! ### Continuous read (R520) -/

/-- A continuous read ends. -/
def crEnd (s : State) (st : Nat) : State :=
  let s := foff { s with cls := { s.cls with cr := none } } Fld.CLS_STATUS_CR_ACTIVE
  fset (foff s Fld.CLS_CR_CTRL_GO) Fld.CLS_CR_CTRL_STATUS st

/-- A write of GO; one made while a read runs is ignored. -/
def crGo (s : State) (m : Master) : State :=
  if s.cls.cr.isSome then s
  else
    let a := fget s Fld.CLS_CR_ADDR_VALUE
    let n := fget s Fld.CLS_CR_LEN_VALUE
    let s := fset s Fld.CLS_CR_COUNT_BYTES 0
    if a % 8 ≠ 0 ∨ n % 8 ≠ 0 ∨ n < 8 ∨ 0x4000000 < n ∨ 0x4000000 < a + n then crEnd s ST_BAD_LENGTH
    else
      let c : ClsCr := { master := masterNo m, addr := a, len := n, pos := 0, grant := 0, ue := false }
      fon (fon { s with cls := { s.cls with cr := some c } } Fld.CLS_STATUS_CR_ACTIVE) Fld.CLS_CR_CTRL_GO

/-- Delivers a word of a continuous read at byte `pos` of its destination: the starting pair's SRAM, or the slab (R520). -/
def crDeliver (s : State) (c : ClsCr) (v : Nat) : State :=
  let a := fget s Fld.CLS_CR_DEST_VALUE + c.pos
  if inTcm c.master a 8 then memPut (sramWrote s (2 + c.master) (a % 0x80000) 8) a (le 8 v)
  else if decide (0x20000000 ≤ a ∧ a + 8 ≤ 0x23F00000) then memPut (sramWrote s 0 (a - 0x20000000) 8) a (le 8 v)
  else s

/-- Delivers up to `n` words of the running read. The word at position k of the read is uncorrectable where `errs` has 2k, and corrected
where it has 2k + 1 (R517). -/
def crRun (errs : List Nat) : Nat → State → State
  | 0, s => s
  | n + 1, s =>
    match s.cls.cr with
    | none => s
    | some c =>
      let w := (c.addr + c.pos) / 8
      let opened := s.cls.open_.contains (w / 512) || (match s.cls.erase with | some e => e.sector == w / 512 | none => false)
      if fone s Fld.CLS_STATUS_BLOCK_AON then s
      else if opened then crEnd s ST_ERASE_SUSPENDED
      else
        let ue := errs.contains (c.pos / 8 * 2)
        let r := if ue then (0, post (fon (finc s (Fld.CLS_COUNT_COUNT 8)) Fld.CLS_EVENTS_UE) 19 1 false (w * 8) 0 32 0)
          else norWord (wordsCorrected s (w / 512) (b2n (errs.contains (c.pos / 8 * 2 + 1)))) w
        let s := snoopFeed (crDeliver r.2 c r.1) c.master (le 8 r.1)
        let pos := c.pos + 8
        let grant := if pos % 4096 = 0 then 1 else c.grant
        let s := fset { s with cls := { s.cls with cr := some { c with pos := pos, grant := grant, ue := c.ue || ue } } } Fld.CLS_CR_COUNT_BYTES pos
        if c.len ≤ pos then crEnd s (if c.ue || ue then ST_CLASP_UE else ST_OK) else crRun errs n s

/-- A master starts a continuous read, if none runs, and `n` words are delivered. -/
def execContinuousRead (m : Master) (n : Nat) (errs : List Nat) (s : State) : Out :=
  .next (gated s m Reg.CLS_CR_CTRL fun s => crRun errs n (crGo s m))

/-- STOP ends the read at the next word. -/
def crStop (s : State) : State :=
  match s.cls.cr with
  | some c => crEnd s (if c.ue then ST_CLASP_UE else ST_OK)
  | none => s

def execContinuousReadStop (m : Master) (s : State) : Out := .next (gated s m Reg.CLS_CR_CTRL crStop)

/-- A write of CLS_CR_CTRL. -/
def wrCrCtrl (s : State) (m : Master) (v : Word) : State :=
  let s := if bit v.toNat 1 then crStop s else s
  if bit v.toNat 0 then crGo s m else s

/-! ### Supply blocking (R523, R598) -/

/-- VDD_AON falls below the block threshold: erases are abandoned. -/
def execAonBlock (s : State) : Out :=
  .next (if fone s Fld.CLS_STATUS_BLOCK_AON then s
    else clsShow (clsAbandon (fon (fon s Fld.CLS_STATUS_BLOCK_AON) Fld.CLS_EVENTS_BLOCKED) 2))

/-- VDD_AON rises above 1.66 V. -/
def execAonUnblock (s : State) : Out := .next (foff s Fld.CLS_STATUS_BLOCK_AON)

/-- A PROGRAM that the compute die's reset cuts: the words already pulsed stay, how many is open, and the one in progress
finishes (R514). -/
def clsCut (s : State) : State :=
  match s.cls.slots.find? fun e => e.2.st == 2 && e.2.op == 2 with
  | some (_, d) =>
    let n := openVal s % (d.len / 8 + 1)
    let s := openTaken s
    fadd { s with cls := { s.cls with nor := norPut s.cls.nor d n } } (Fld.CLS_COUNT_COUNT 1) n
  | none => s

/-- The compute die enters reset: every slot is cleared and an erase abandoned (R514). -/
def clsComputeReset (s : State) : State :=
  let s := clsCut s
  let s := clsAbandon s 1
  let s := if s.cls.cr.isSome then crEnd s (fget s Fld.CLS_CR_CTRL_STATUS) else s
  clsShow { s with cls := { s.cls with slots := [] } }

/-- At a boot: erase-open sectors are recorded, and firmware erases them before it writes their areas (R518, R529). -/
def clsBoot (s : State) : State :=
  let n := s.cls.open_.length
  if n = 0 then s
  else
    let s := post s 19 4 false n 0 0 0
    let s := s.cls.open_.foldl (fun s k =>
      if sectorLocked s k then s
      else
        let c := SMap.getD s.cls.erases k 0
        let s := finc (norErase s k) (Fld.CLS_COUNT_COUNT 2)
        { s with cls := { s.cls with open_ := s.cls.open_.filter (· != k), erases := SMap.put s.cls.erases k (min 0x1FFFF (c + 1)) } }) s
    clsShow s

end Sys2Proof.Machine
end

