-- ==== Sys2Proof/Machine/Mailbox.lean ====
section
/-! DEFINITION. The Vocel mailbox: posting, the checks of R110, secured records, volleys, responses, and the discovery
opcodes (R98–R121, R614). -/
namespace Sys2Proof.Machine
open Sys2Proof

/-! ### The catalogue (R120) -/

/-- The opcodes of firmware 3.2 and the classes each admits; bit c is class code c. -/
def catalogue : List (Nat × Nat) :=
  [(0x0001, 0x3D), (0x0002, 0x3D), (0x0003, 0x3D), (0x0004, 0x3D), (0x0005, 0x3D), (0x0101, 0x39), (0x0102, 0x39),
   (0x0201, 0x10), (0x0202, 0x10), (0x0203, 0x10), (0x0204, 0x10), (0x0205, 0x10), (0x0206, 0x1C), (0x0207, 0x10), (0x0208, 0x10),
   (0x0209, 0x10)] ++
  [(0x0301, 0x10), (0x0302, 0x10), (0x0303, 0x10), (0x0304, 0x10), (0x0401, 0x18), (0x0402, 0x10), (0x0403, 0x10),
   (0x0501, 0x30), (0x0502, 0x20), (0x0503, 0x20), (0x0504, 0x20), (0x0505, 0x20), (0x0506, 0x20), (0x0507, 0x20), (0x0508, 0x10),
   (0x0509, 0x10)] ++
  [(0x0601, 0x3D), (0x0602, 0x3D), (0x0603, 0x3D), (0x0701, 0x18), (0x0702, 0x18), (0x0703, 0x10), (0x0704, 0x10),
   (0x0801, 0x18), (0x0802, 0x10), (0x0803, 0x10), (0x0804, 0x10), (0x0805, 0x10), (0x0806, 0x18), (0x0807, 0x10)] ++
  [(0x0901, 0x18), (0x0902, 0x10), (0x0903, 0x10), (0x0A01, 0x10), (0x0A02, 0x18), (0x0A03, 0x10), (0x0A04, 0x18), (0x0A05, 0x10),
   (0x0B01, 0x10), (0x0B02, 0x18)]

/-- The opcode is present in firmware 3.2. -/
def opcKnown (opc : Nat) : Bool := catalogue.any fun e => e.1 == opc

/-- The class is admitted by the opcode; while no manager anchor is installed, MGR_ANCHOR_WRITE admits every class (R76). -/
def opcAdmits (s : State) (opc : Nat) (c : Cls) : Bool :=
  (catalogue.any fun e => e.1 == opc && e.2.testBit (clsCode c)) || (opc == 0x0508 && s.kst.mgrAnchor.isNone)

/-- The opcodes recovery mode serves (R550). -/
def recoveryServes (opc : Nat) : Bool :=
  opc == 0x0001 || opc == 0x0002 || opc == 0x0801 || opc == 0x0802 || opc == 0x0803 || opc == 0x0601 || opc == 0x0602 || opc == 0x0603

/-! ### Requests and answers -/

/-- Who makes a request that has passed step 2: its class, the slice its channel is bound to, its session or 0. -/
structure Caller where
  ch      : Nat
  cls     : Cls
  slice   : Option Nat
  session : Nat
deriving DecidableEq, Repr

/-- What an opcode answers. -/
structure Ans where
  st    : Nat
  pay   : List Byte
  blind : Bool
  /-- Entries or records that the payload returns whole: the index of each and the byte past its end (R501, R586). -/
  ents  : List (Nat × Nat) := []
deriving DecidableEq, Repr

/-- Success with a payload. -/
def ansOk (p : List Byte) : Ans := { st := ST_OK, pay := p, blind := false }

/-- A status with no payload. -/
def ansSt (st : Nat) : Ans := { st := st, pay := [], blind := false }

/-- An opcode: its code; whether the MBX block runs it in hardware; the limit of an inbound volley; what bars the start of an
inbound volley, by its first data and total; its payload layout (step 7); its work (step 8), which may have to wait. -/
structure OpDef where
  opc    : Nat
  hw     : Bool
  limit  : Nat
  start  : State → Caller → List Byte → Nat → Nat
  layout : List Byte → Bool
  work   : Rq → Caller → List Byte → State → Option Ans × State

/-- An opcode without a volley of its own: its request may still travel in segments, as far as one window's payload goes. -/
def opDef (opc : Nat) (layout : List Byte → Bool) (work : Caller → List Byte → State → Ans × State) : OpDef :=
  { opc := opc, hw := false, limit := 4064, start := fun _ _ _ _ => ST_OK, layout := layout,
    work := fun _ c p s => let a := work c p s; (some a.1, a.2) }

/-- An opcode with an empty request that only reads. -/
def opRead (opc : Nat) (f : Caller → State → Ans) : OpDef :=
  opDef opc (fun p => p.isEmpty) fun c _ s => (f c s, s)

/-- The class a channel carries without a session (R614). -/
def pathCls (s : State) (c : Nat) : Cls := if c < 32 then chanCls s c else .observer

/-! ### Responses (R101, R104, R105) -/

/-- Bytes stored into a window at an offset. -/
def winPut (win : List Byte) (off : Nat) (b : List Byte) : List Byte :=
  (fit off (win.take off) ++ b ++ win.drop (off + b.length)).take 4096

/-- The 32 header bytes (R98). -/
def header (opc flags tag plen session st cls : Nat) : List Byte :=
  le 2 opc ++ le 2 flags ++ le 4 tag ++ le 4 plen ++ le 4 session ++ le 2 st ++ le 2 cls ++ zeros 12

/-- The key a session's slot `k` holds: 0 request, 1 response, 2 import (R459). -/
def sessionKey (s : State) (x : Session) (k : Nat) : List Byte :=
  match x.slots[k]? with
  | some i => slotBuf (kslot s i) (kslot s i).active
  | none => []

/-- The additional data of a secured record: header bytes 0–1 and 4–15 (R104). -/
def recordAad (opc tag plen session : Nat) : List Byte := le 2 opc ++ le 4 tag ++ le 4 plen ++ le 4 session

/-- A response payload as the transport carries it: in a session, the secured record. -/
def secure (s : State) (opc tag session : Nat) (pay : List Byte) : List Byte × State :=
  match SMap.find s.spdm.sessions session with
  | some x =>
    let n := pay.length + 32
    let key := (sessionKey s x 1).take 32
    let body := Config.gcmEnc key (Config.sessionIv (sessionKey s x 1) x.seqOut) (recordAad opc tag n session) (le 2 pay.length ++ pay)
    let s := { s with spdm := { s.spdm with sessions := SMap.put s.spdm.sessions session { x with seqOut := x.seqOut + 1 } } }
    (le 4 session ++ le 8 x.seqOut ++ le 2 (pay.length + 18) ++ body, finc s (Fld.PVE_COUNT_COUNT 0))
  | none => (pay, s)

/-- Sends an MSI-X message of a port. -/
def msixSend (s : State) (p v : Nat) : State :=
  { s with hst := { s.hst with msix := SMap.put s.hst.msix (p * 2048 + v) (SMap.getD s.hst.msix (p * 2048 + v) 0 + 1) } }

/-- Writes a response and returns the channel; `vfl` are its volley flags. -/
def mbxWrite (s : State) (r : Rq) (opc : Nat) (sec : Bool) (cls : Cls) (a : Ans) (vfl : Nat) : State :=
  let c := r.ch.val
  let irq := r.flags.toNat.testBit 3
  let flags := 2 + 4 * b2n a.blind + 8 * b2n irq + vfl
  let q := if sec then secure s opc r.tag.toNat r.session a.pay else (a.pay, s)
  let x := chanGet q.2 c
  let hdr := header opc flags r.tag.toNat q.1.length r.session a.st (clsCode cls)
  let resp : Resp := { opcode := opc, flags := BitVec.ofNat 16 flags, tag := r.tag, session := r.session, status := a.st, cls := cls,
                       payload := a.pay }
  let s := chanPut q.2 c { x with go := false, rcvd := 0, win := winPut x.win 0 (hdr ++ q.1), resp := some resp }
  let s := if a.st = ST_DENIED then finc s (Fld.MBX_COUNT_COUNT 1) else if a.st = ST_BAD_LENGTH then finc s (Fld.MBX_COUNT_COUNT 2) else s
  psRefresh (if irq && decide (c < 32) then msixSend s (c / 8) (2040 + c % 8) else s)

/-- The response to a request that passed step 2 carries its class (R63), whatever later step it fails at (R614; DEDUCED,
notes/assumptions/50.md); in a session that has ended meanwhile it carries ST_DENIED and no payload (R118). -/
def mbxReply (s : State) (r : Rq) (opc : Nat) (c : Caller) (a : Ans) (vfl : Nat) : State :=
  if c.session = 0 then mbxWrite s r opc false c.cls a vfl
  else if (SMap.find s.spdm.sessions c.session).isSome then mbxWrite s r opc true c.cls a vfl
  else mbxWrite (volleyDrop s r.ch.val) r opc false (pathCls s r.ch.val) (ansSt ST_DENIED) 0

/-- Data bytes of a segment (chapter 03, Volleys). -/
def segCap (c : Caller) : Nat := if c.session = 0 then 4056 else 4024

/-- Payload bytes of one response. -/
def payCap (c : Caller) : Nat := if c.session = 0 then 4064 else 4032

/-- Sends the next segment of an outbound volley (R114). -/
def sendSeg (s : State) (r : Rq) (opc : Nat) (c : Caller) (v : Volley) : State :=
  let part := v.data.take (segCap c)
  let rest := v.data.drop (segCap c)
  let sent := v.sent + part.length
  let fl := 16 + 32 * b2n (v.sent == 0) + 64 * b2n rest.isEmpty
  let x := chanGet s r.ch.val
  let v' := if rest.isEmpty then none else some { v with data := rest, sent := sent, last := now s }
  mbxReply (chanPut s r.ch.val { x with volley := v' }) r opc c
    { st := ST_OK, pay := le 4 v.sent ++ le 4 v.total ++ part, blind := v.blind } fl

/-- The response of an opcode: an outbound volley begins when its payload is more than one response carries. -/
def mbxAnswer (s : State) (r : Rq) (opc : Nat) (c : Caller) (a : Ans) : State :=
  if a.pay.length ≤ payCap c then mbxReply s r opc c a 0
  else
    sendSeg s r opc c { inbound := false, opcode := opc, tag := r.tag, total := a.pay.length, data := a.pay, sent := 0, cls := c.cls,
                        session := c.session, blind := a.blind, last := now s,
                        ents := a.ents }

/-! ### Posting (R99, R100, R102) -/

/-- A host write into a channel's window: discarded and counted while the controller owns the channel. -/
def hostWrite (s : State) (c off : Nat) (b : List Byte) : State :=
  let x := chanGet s c
  if x.go then finc s (Fld.MBX_COUNT_COUNT 3)
  else
    let b := b.take (4096 - off)
    let top := if b.isEmpty then 0 else off + b.length - 32
    chanPut s c { x with win := winPut x.win off b, rcvd := max x.rcvd top }

/-- The BAR4 window of a channel is reachable: its port is present and its link is up (R123). -/
def chanReach (s : State) (c : Nat) : Bool := s.bot.run && linkUp s (c / 8) && !(portGet s (c / 8)).perst

/-- A request arrives: counted, and any volley it abandons is abandoned (R115). -/
def mbxTake (s : State) (r : Rq) (x : Chan) : State :=
  let fl := r.flags.toNat
  let s := chanPut (finc s (Fld.MBX_COUNT_COUNT 0)) r.ch.val { x with go := true }
  if !fl.testBit 4 || fl.testBit 5 then volleyDrop s r.ch.val else s

/-- Posts a request, or says that it is not taken. A request posted whole on a channel that the controller owns counts as one late write
(R100), and a Vocel message on the sideband needs no GO and is dropped uncounted while one is in progress (R106): DESIGN CHOICE,
notes/assumptions/53.md. -/
def mbxPost (s : State) (r : Rq) (opc : Nat) : Bool × State :=
  let c := r.ch.val
  if c < 32 then
    if !chanReach s c then (false, s)
    else if (chanGet s c).go then (false, finc s (Fld.MBX_COUNT_COUNT 3))
    else
      let s := if r.payload.isEmpty then s else hostWrite s c 32 r.payload
      let s := hostWrite s c 4 ((header opc 0 r.tag.toNat r.plen r.session 0 0).drop 4)
      if !r.flags.toNat.testBit 0 then (false, hostWrite s c 0 (le 2 opc ++ le 2 r.flags.toNat))
      else if !fbit s Fld.MBX_CTRL_PORT_EN (c / 8) then (false, finc s (Fld.MBX_COUNT_COUNT 3))
      else
        let s := hostWrite s c 0 (le 2 opc ++ le 2 r.flags.toNat)
        (true, psWake (mbxTake s r (chanGet s c)) (c / 8))
  else if !s.bot.run || !fone s Fld.SBD_CTRL_EN then (false, s)
  else if !fone s Fld.MBX_CTRL_SB_EN then (false, finc s Fld.SBD_DROPPED_COUNT)
  else if (chanGet s c).go then (false, s)
  else
    let x := chanGet s c
    let hdr := header opc r.flags.toNat r.tag.toNat r.plen r.session 0 0
    (true, psSideband (mbxTake s r { x with win := hdr ++ r.payload, rcvd := r.payload.length }))

/-! ### The checks of R110 -/

/-- The session travels on the channel's path (R66, R106). -/
def onPath (c : Nat) (x : Session) : Bool :=
  match x.path with
  | .doe p => decide (c < 32) && c / 8 == p.val
  | .sideband => c == 32

/-- Step 2 for a request that names a session. -/
inductive Opened where
  /-- No such session here, or the record does not belong to it. -/
  | denied
  /-- The tag does not verify. -/
  | badTag (x : Session)
  | good (x : Session) (inner : List Byte)

/-- Opens a secured record (R66, R103–R105). Lengths in the record that do not match the payload count as a tag that does not verify
(DESIGN CHOICE, notes/assumptions/52.md); a pull of an outbound volley in a session is a record too, of an empty inner payload (DESIGN
CHOICE, notes/assumptions/79.md). -/
def openRecord (s : State) (r : Rq) (pay : List Byte) : Opened :=
  match SMap.find s.spdm.sessions r.session with
  | some x =>
    if !onPath r.ch.val x || (chanSlice s r.ch.val).isSome then .denied
    else if pay.length < 32 ∨ u32 pay 0 ≠ r.session ∨ u64 pay 4 ≠ x.seqIn then .denied
    else
      match r.opened with
      | some inner =>
        if u16 pay 12 + 14 = pay.length ∧ inner.length + 32 = pay.length then .good x inner else .badTag x
      | none => .badTag x
  | none => .denied

/-- A tag failure: a Locket record with PRIV (R105) and the counts of the PVE block. -/
def tagFailed (s : State) (r : Rq) (x : Session) : State :=
  let c := r.ch.val
  let s := fon (finc s (Fld.PVE_COUNT_COUNT 2)) Fld.PVE_EVENTS_TAG_FAIL
  post s 24 1 true (if c < 32 then c / 8 else 4) (if c < 32 then c % 8 else 0) r.session x.seqIn

/-- Step 3: the requesting slice is carded, or resetting. -/
def sliceBar (s : State) (c : Caller) : Nat :=
  match c.slice with
  | some n =>
    if carded s (midSlice n) then ST_CARDED
    else match SMap.find s.slm.slices n with
      | some x => if x.resetting then ST_RESETTING else ST_OK
      | none => ST_OK
  | none => ST_OK

/-- Steps 3 to 5 (R76, R550). -/
def mbxAdmit (s : State) (opc : Nat) (c : Caller) : Nat :=
  if sliceBar s c ≠ ST_OK then sliceBar s c
  else if s.bot.recovery then (if recoveryServes opc then ST_OK else ST_RECOVERY)
  else if !opcKnown opc then ST_BAD_OPCODE
  else if !opcAdmits s opc c.cls then ST_DENIED
  else ST_OK

/-- Steps 7 and 8 on a whole payload; a request that must wait leaves the channel with the controller. -/
def mbxAct (d : OpDef) (r : Rq) (c : Caller) (pay : List Byte) (s : State) : State :=
  if !d.layout pay then mbxReply s r d.opc c (ansSt ST_BAD_LENGTH) 0
  else
    match d.work r c pay s with
    | (some a, s) => mbxAnswer s r d.opc c a
    | (none, s) => s

/-- The data of a segment keep the volley's length rules: LAST exactly where the total is reached, and no empty segment
before it (R113). -/
def segFits (acc total : Nat) (data : List Byte) (last : Bool) : Bool :=
  decide (acc + data.length ≤ total) && (last == decide (acc + data.length = total)) && (last || !data.isEmpty)

/-- The first segment of an inbound volley (R113, R116). A response to an inbound segment has no volley flag (DESIGN CHOICE,
notes/assumptions/51.md). -/
def volleyFirst (d : OpDef) (r : Rq) (c : Caller) (pay : List Byte) (s : State) : State :=
  let last := r.flags.toNat.testBit 6
  let total := u32 pay 4
  let data := pay.drop 8
  if pay.length < 8 then mbxReply s r d.opc c (ansSt ST_BAD_LENGTH) 0
  else if u32 pay 0 ≠ 0 ∨ !segFits 0 total data last then mbxReply s r d.opc c (ansSt ST_VOLLEY_SEQ) 0
  else if d.limit < total then mbxReply s r d.opc c (ansSt ST_BAD_LENGTH) 0
  else if d.start s c data total ≠ ST_OK then mbxReply s r d.opc c (ansSt (d.start s c data total)) 0
  else if last then mbxAct d r c data s
  else
    let x := chanGet s r.ch.val
    let v : Volley := { inbound := true, opcode := d.opc, tag := r.tag, total := total, data := data, sent := 0, cls := c.cls,
                        session := c.session, blind := false, last := now s }
    mbxReply (chanPut s r.ch.val { x with volley := some v }) r d.opc c (ansSt ST_OK) 0

/-- A further segment of the channel's open volley (R113, R114). One shorter than its prefix fails by its length before its place in the
sequence is looked at (DESIGN CHOICE, notes/assumptions/51.md). -/
def volleyNext (d : OpDef) (r : Rq) (c : Caller) (pay : List Byte) (s : State) : State :=
  let last := r.flags.toNat.testBit 6
  let x := chanGet s r.ch.val
  match x.volley with
  | none => mbxReply s r d.opc c (ansSt ST_VOLLEY_SEQ) 0
  | some v =>
    if v.opcode ≠ d.opc ∨ v.tag ≠ r.tag ∨ v.cls ≠ c.cls ∨ v.session ≠ c.session then mbxReply s r d.opc c (ansSt ST_VOLLEY_SEQ) 0
    else if !v.inbound then
      if last then mbxReply s r d.opc c (ansSt ST_VOLLEY_SEQ) 0
      else if !pay.isEmpty then mbxReply s r d.opc c (ansSt ST_BAD_LENGTH) 0
      else sendSeg s r d.opc c v
    else if pay.length < 8 then mbxReply s r d.opc c (ansSt ST_BAD_LENGTH) 0
    else if u32 pay 0 ≠ v.data.length ∨ u32 pay 4 ≠ v.total ∨ !segFits v.data.length v.total (pay.drop 8) last then
      mbxReply s r d.opc c (ansSt ST_VOLLEY_SEQ) 0
    else if last then mbxAct d r c (v.data ++ pay.drop 8) (chanPut s r.ch.val { x with volley := none })
    else
      mbxReply (chanPut s r.ch.val { x with volley := some { v with data := v.data ++ pay.drop 8, last := now s } }) r d.opc c
        (ansSt ST_OK) 0

/-- Steps 3 to 8 of a request that has passed step 2. -/
def mbxBody (d : OpDef) (r : Rq) (c : Caller) (pay : List Byte) (s : State) : State :=
  if mbxAdmit s d.opc c ≠ ST_OK then mbxReply s r d.opc c (ansSt (mbxAdmit s d.opc c)) 0
  else if !r.flags.toNat.testBit 4 then mbxAct d r c pay s
  else if r.flags.toNat.testBit 5 then volleyFirst d r c pay s
  else volleyNext d r c pay s

/-- Steps 1 and 2 of a request the controller has taken. -/
def mbxServe (d : OpDef) (r : Rq) (s : State) : State :=
  let c := r.ch.val
  let x := chanGet s c
  let pay := slice x.win 32 r.plen
  if 4064 < r.plen ∨ r.plen ≠ x.rcvd then mbxWrite s r d.opc false (pathCls s c) (ansSt ST_BAD_LENGTH) 0
  else if r.session = 0 then mbxBody d r { ch := c, cls := pathCls s c, slice := chanSlice s c, session := 0 } pay s
  else
    match openRecord s r pay with
    | .denied => mbxWrite s r d.opc false (pathCls s c) (ansSt ST_DENIED) 0
    | .badTag x => mbxWrite (tagFailed s r x) r d.opc false (pathCls s c) (ansSt ST_DENIED) 0
    | .good x inner =>
      let s := { s with spdm := { s.spdm with sessions := SMap.put s.spdm.sessions r.session { x with seqIn := x.seqIn + 1 } } }
      mbxBody d r { ch := c, cls := x.cls, slice := none, session := r.session } inner (finc s (Fld.PVE_COUNT_COUNT 1))

/-- A request is posted and, when it is taken, answered. Once power-fail is signalled the dispatcher takes no new request: the
channel stays POSTED (R118); an opcode that hardware serves needs no dispatcher and still runs (DEDUCED, notes/assumptions/54.md). -/
def mbxRun (d : OpDef) (r : Rq) (s : State) : State :=
  let q := mbxPost s r d.opc
  if !q.1 then q.2
  else if pfail q.2 && !d.hw then
    let c := r.ch.val
    if c < 32 then fset q.2 ⟨Reg.MBX_STATE (c / 8), 4 * (c % 8), 4⟩ 1 else q.2
  else mbxServe d r q.2

/-! ### Window writes, timeouts, unknown opcodes -/

/-- A write to a channel the controller owns is discarded and counted; to a channel of its requester it is no late write. -/
def execMailboxLateWrite (ch : Fin 32) (off : Nat) (bytes : List Byte) (s : State) : Out :=
  .next (if chanReach s ch.val && decide (off < 4096) && (chanGet s ch.val).go then hostWrite s ch.val off bytes else s)

/-- A request with an opcode that firmware 3.2 does not have. -/
def execMailboxUnknownOpcode (opc : Nat) (r : Rq) (s : State) : Out :=
  .next (if opcKnown (opc % 65536) then s
    else mbxRun (opDef (opc % 65536) (fun _ => true) fun _ _ s => (ansSt ST_BAD_OPCODE, s)) r s)

/-- An open volley without a segment for the time MBX_VOLLEY_TIMEOUT gives is abandoned. -/
def execVolleyTimeout (ch : Fin 33) (s : State) : Out :=
  .next (match (chanGet s ch.val).volley with
    | some v =>
      let due := v.last + max 1 (fget s Fld.MBX_VOLLEY_TIMEOUT_TIMEOUT_MS) * 1000000
      let s := reach s due
      if (chanGet s ch.val).go || decide (now s < due) then s else psRefresh (volleyDrop s ch.val)
    | none => s)

/-! ### Discovery (R121) -/

/-- The part number, 16 characters. -/
def partName (s : State) : List Byte :=
  ascii 16 ([0x53, 0x4C, 0x4E, 0x2D, 0x37, 0x36] ++ (if s.part.is7632 then [0x33, 0x32] else [0x34, 0x38]))

/-- The image the device runs. -/
def runImage (s : State) : Image := SMap.getD s.bot.img (fget s Fld.BOT_STATE_SLOT) Image.factory

def identityPay (s : State) : List Byte :=
  let st := if s.bot.recovery then 1 else if s.med.rebuilt then 0 else 2
  partName s ++ ascii 2 [0x42, 0x30] ++ ascii 1 [if s.part.gradeE then 0x45 else 0x43] ++ le 1 st ++ fit 16 s.part.serial ++
  le 4 (if s.bot.recovery then 0 else (runImage s).fwVer) ++ le 1 s.part.romRev ++
  le 1 (if s.bot.recovery then 0xFF else fget s Fld.BOT_STATE_SLOT) ++ zeros 2 ++ le 4 s.tmb.boots

/-- GET_IDENTITY: a SLICE principal receives the part, stepping and grade only. -/
def getIdentity (c : Caller) (s : State) : Ans :=
  if c.cls = .slice then { st := ST_OK, pay := (identityPay s).take 19 ++ zeros 29, blind := true } else ansOk (identityPay s)

def execGetIdentity (r : Rq) (s : State) : Out := .next (mbxRun (opRead 0x0001 getIdentity) r s)

def bitCount (w v : Nat) : Nat := (List.range w).countP fun i => v.testBit i

/-- Die positions of the part, and those with a usable die (R334). -/
def diePositions (s : State) : Nat := if s.part.is7632 then 1024 else 2048
def diesPopulated (s : State) : Nat := (List.range (diePositions s)).countP fun d => !dieUnpop s d

def capsPay (s : State) : List Byte :=
  let up := !s.bot.recovery
  let groups := (List.range 4).foldl (fun n i => n + bitCount 32 (fget s (Fld.PLC_GRP_PRESENT_GROUPS i))) 0
  le 1 (if s.part.is7632 then 32 else 64) ++ le 1 s.part.cfg ++ le 1 (portMask s.part.cfg) ++ le 1 (if up then groups else 0) ++
  le 2 (if up then diesPopulated s else 0) ++ le 2 (if up then s.part.dramGib else 0) ++ le 4 262144 ++ le 4 4194304 ++ le 4 67108864 ++
  le 2 1024 ++ zeros 2 ++ le 8 (if up then pget s Reg.LDC_MED_EXPORT_LO Reg.LDC_MED_EXPORT_HI else 0) ++ le 4 65536 ++ zeros 4

def getCaps (c : Caller) (s : State) : Ans :=
  if c.cls = .slice then { st := ST_OK, pay := zeros 40, blind := true } else ansOk (capsPay s)

def execGetCaps (r : Rq) (s : State) : Out := .next (mbxRun (opRead 0x0002 getCaps) r s)

def getOpcodes (c : Caller) (s : State) : Ans :=
  let l := (catalogue.map (·.1)).filter fun o => opcAdmits s o c.cls
  ansOk (le 2 l.length ++ zeros 2 ++ l.flatMap fun o => le 2 o)

def execGetOpcodes (r : Rq) (s : State) : Out := .next (mbxRun (opRead 0x0003 getOpcodes) r s)

def getSession (c : Caller) (s : State) : Ans :=
  match if c.session = 0 then none else SMap.find s.spdm.sessions c.session with
  | some x => ansOk (le 2 (clsCode c.cls) ++ le 1 1 ++ zeros 1 ++ le 4 c.session ++ le 8 x.seqIn ++ le 2 x.hbS ++ zeros 2)
  | none => ansOk (le 2 (clsCode c.cls) ++ zeros 18)

def execGetSession (r : Rq) (s : State) : Out := .next (mbxRun (opRead 0x0004 getSession) r s)

def getHealth (_ : Caller) (s : State) : Ans :=
  ansOk (le 1 (fget s Fld.LDC_MED_SPARE_PCT_USED) ++ zeros 1 ++ le 2 (fget s Fld.TSN_COMPOSITE_KELVIN))

def execGetHealth (r : Rq) (s : State) : Out := .next (mbxRun (opRead 0x0005 getHealth) r s)

end Sys2Proof.Machine
end

