-- ==== Sys2Proof/Machine/Ledgers.lean ====
section
/-! DEFINITION. The opcodes that read the Signet ledger and the Locket (R501, R585–R587). -/
namespace Sys2Proof.Machine
open Sys2Proof

/-! ### Signet (R501) -/

/-- Erased cells of the ring. -/
def cellsFree (g : Sgn) : Nat := ringCells - g.ents.foldl (fun n e => n + entryCells e.2.items.length) 0

/-- The committed entries in index order. -/
def ledger (g : Sgn) : List SEntry := (committed g).foldl (fun acc e => idxInsert e.2 acc) []

def signetInfoPay (s : State) : List Byte :=
  let g := s.sgn
  let boot := (committed g).foldl (fun n e => if e.2.typ = 1 ∨ e.2.typ = 4 then max n e.2.idx else n) 0
  le 8 (oldestIdx g) ++ le 8 (g.next - 1) ++ le 8 boot ++ fit 48 g.last ++ fit 8 g.keyId ++ le 4 (cellsFree g) ++ le 4 g.compactions ++
  le 1 g.pend.length ++ zeros 7

def execSignetInfo (r : Rq) (s : State) : Out := .next (mbxRun (opRead 0x0601 fun _ s => ansOk (signetInfoPay s)) r s)

/-- Whole entries, in order, while they fit: the bytes, how many, and the index after the last. -/
def signetTake (serial : List Byte) : List SEntry → Nat → Nat → List Byte × Nat × Nat
  | [], _, nxt => ([], 0, nxt)
  | e :: es, room, nxt =>
    let b := entryBytes serial e
    if room < b.length then ([], 0, nxt)
    else
      let t := signetTake serial es (room - b.length) (e.idx + 1)
      (b ++ t.1, t.2.1 + 1, t.2.2)

/-- The byte past each entry of a volley that begins with entries at byte `o`. -/
def entryEnds (o : Nat) : List SEntry → List (Nat × Nat)
  | [] => []
  | e :: es => (e.idx, o + entryLen e.items.length) :: entryEnds (o + entryLen e.items.length) es

/-- SIGNET_READ: ≤ 1 MiB in all. -/
def signetRead (first count : Nat) (s : State) : Ans :=
  if first < oldestIdx s.sgn ∨ s.sgn.next ≤ first then ansSt ST_SIGNET_INDEX
  else
    let es := ((ledger s.sgn).filter fun e => decide (first ≤ e.idx)).take count
    let t := signetTake s.part.serial es (1048576 - 16) first
    { ansOk (le 4 t.2.1 ++ zeros 4 ++ le 8 t.2.2 ++ t.1) with ents := entryEnds 16 (es.take t.2.1) }

def execSignetRead (r : Rq) (s : State) : Out :=
  .next (mbxRun (opDef 0x0602 (fun p => p.length == 16 && u32 p 8 != 0) fun _ p s => (signetRead (u64 p 0) (u32 p 8) s, s)) r s)

/-- A certificate chain in SPDM's format: the root, DeviceID, and what follows. -/
def chainOf (rest : List Byte) : List Byte :=
  let certs := Config.rootCert ++ Config.deviceCert ++ rest
  le 2 (certs.length + 52) ++ zeros 2 ++ fit 48 (Config.sha384 Config.rootCert) ++ certs

/-- The stored certificate of a key ID (R484). -/
def certOf (s : State) (id : List Byte) : Option (List Byte) :=
  match s.sgn.certs.find? fun c => c.1 == id with
  | some c => some c.2.2
  | none => match s.sgn.spare with | some c => if c.1 = id then some c.2.2 else none | none => none

/-- SIGNET_CHAIN: key ID 0 is this boot's Alias key; recovery mode serves the DeviceID key only (R550). -/
def signetChain (id : List Byte) (s : State) : Ans :=
  if id = keyIdOf s.sgn.devPub then ansOk (chainOf [])
  else if s.bot.recovery then ansSt ST_RECOVERY
  else
    match certOf s (if id = zeros 8 then s.sgn.keyId else id) with
    | some c => ansOk (chainOf c)
    | none => ansSt ST_SIGNET_NO_CERT

def execSignetChain (r : Rq) (s : State) : Out :=
  .next (mbxRun (opDef 0x0603 (fun p => p.length == 8) fun _ p s => (signetChain p s, s)) r s)

/-! ### Locket (R585–R587) -/

/-- Erased segments ahead of the head. -/
def segsAhead (l : Lkt) : Nat :=
  ((List.range 127).takeWhile fun i => segErased l.area ((l.head / segSlots + 1 + i) % 128)).length

def locketInfoPay (s : State) : List Byte :=
  let l := s.lkt
  le 8 l.next ++ le 8 (lktOldest l) ++ le 8 l.flushed ++ le 4 (fget s Fld.LKT_LOST_COUNT) ++ le 4 (fget s Fld.LKT_SUPPRESSED_COUNT) ++
  le 2 l.ring.length ++ le 2 l.side.length ++ le 1 (b2n l.freeze.isSome) ++ le 1 l.bad.length ++ le 1 (segsAhead l) ++ zeros 1 ++
  le 4 s.tmb.boots ++ zeros 4

def execLocketInfo (r : Rq) (s : State) : Out := .next (mbxRun (opRead 0x0701 fun _ s => ansOk (locketInfoPay s)) r s)

/-- Records of the area in the order programmed, with whether their segment failed its CRC. -/
def areaRecs (l : Lkt) : List (LktRec × Bool) :=
  let get := fun (e : Nat × LktSlot) => match e.2 with | .record r => some (r, l.bad.contains (e.1 / segSlots)) | _ => none
  (l.area.filter fun e => decide (l.head ≤ e.1)).filterMap get ++ (l.area.filter fun e => decide (e.1 < l.head)).filterMap get

/-- Every record held, oldest first: the area, then what only the ring or the side buffer holds (R586). -/
def lktAll (l : Lkt) : List (LktRec × Bool) :=
  let a := areaRecs l
  let nxt := a.foldl (fun n e => max n (e.1.idx + 1)) 0
  a ++ ((l.ring ++ l.side).filter fun r => decide (nxt ≤ r.idx)).map fun r => (r, false)

/-- What LOCKET_READ asks of a record. -/
def recWanted (src tmin tmax : Nat) (r : LktRec) : Bool :=
  (src == 0 || src.testBit (r.code / 1024 % 32)) && decide (tmin ≤ r.time) && (tmax == 0 || decide (r.time ≤ tmax))

/-- Position of a slot of the area from the oldest on. -/
def slotPos (l : Lkt) (t : Nat) : Nat := (t + lktSlots - l.head) % lktSlots

/-- A torn slot lies in the range of indices examined, from `first` up to `nxt`: the record before it has the index before the one
that the slot would have held (R586). -/
def tornIn (l : Lkt) (first nxt : Nat) : Bool :=
  l.area.any fun e => e.2 == .torn &&
    (let k := l.area.foldl (fun n x => match x.2 with | .record r => if slotPos l x.1 < slotPos l e.1 then max n (r.idx + 1) else n | _ => n) 0
     decide (first ≤ k ∧ k ≤ nxt))

/-- LOCKET_READ: ≤ 8 MiB in all; parameters 3 and 4 of PRIV records only for MANAGER and SERVICE. -/
def locketRead (c : Caller) (first count src tmin tmax : Nat) (s : State) : Ans :=
  let l := s.lkt
  if first < lktOldest l ∨ l.next ≤ first then ansSt ST_LOCKET_INDEX
  else
    let all := (lktAll l).filter fun e => decide (first ≤ e.1.idx)
    let hits := all.filter fun e => recWanted src tmin tmax e.1
    let got := hits.take (min count 262143)
    let nxt := if got.length < hits.length then (match got.getLast? with | some e => e.1.idx + 1 | none => first) else l.next
    let blind := !(c.cls == .manager || c.cls == .service)
    let fl := b2n (got.any fun e => e.2) + 2 * b2n (tornIn l first nxt)
    { st := ST_OK, blind := blind && got.any fun e => e.1.code.testBit 15,
      pay := le 4 got.length ++ le 4 fl ++ le 8 nxt ++ got.flatMap fun e => recBytes e.1 blind,
      ents := (List.range got.length).filterMap fun i => got[i]?.map fun e => (e.1.idx, 48 + 32 * i) }

def execLocketRead (r : Rq) (s : State) : Out :=
  .next (mbxRun (opDef 0x0702 (fun p => p.length == 32 && decide (1 ≤ u32 p 8 ∧ u32 p 8 ≤ 262144)) fun c p s =>
    (locketRead c (u64 p 0) (u32 p 8) (u32 p 12) (u64 p 16) (u64 p 24) s, s)) r s)

/-- MAX_S in force: 0 means 30, more than 300 is 300. -/
def maxS (v : Nat) : Nat := if v = 0 then 30 else min v 300

/-- LOCKET_FREEZE. -/
def locketFreeze (c : Caller) (v : Nat) (s : State) : Ans × State :=
  let fin := now s + maxS v * 1000000000
  match s.lkt.freeze with
  | some f =>
    if f.session ≠ c.session then (ansSt ST_LOCKET_FROZEN, s)
    else (ansOk (le 8 f.start), { s with lkt := { s.lkt with freeze := some { f with endTime := fin } } })
  | none =>
    let n := s.lkt.next
    let f : LktFreeze := { session := c.session, start := n, endTime := fin, lost0 := fget s Fld.LKT_LOST_COUNT }
    (ansOk (le 8 n), post { s with lkt := { s.lkt with freeze := some f } } 22 3 false n (maxS v) 0 0)

def execLocketFreeze (r : Rq) (s : State) : Out :=
  .next (mbxRun (opDef 0x0703 (fun p => p.length == 4) fun c p s => locketFreeze c (u16 p 0) s) r s)

/-- LOCKET_THAW. -/
def locketThaw (c : Caller) (s : State) : Ans × State :=
  match s.lkt.freeze with
  | some f =>
    if f.session ≠ c.session then (ansSt ST_LOCKET_FROZEN, s)
    else (ansOk (le 4 (fget s Fld.LKT_LOST_COUNT - f.lost0) ++ zeros 4), freezeEnd s false)
  | none => (ansSt ST_LOCKET_FROZEN, s)

def execLocketThaw (r : Rq) (s : State) : Out :=
  .next (mbxRun (opDef 0x0704 (fun p => p.isEmpty) fun c _ s => locketThaw c s) r s)

end Sys2Proof.Machine
end

