-- ==== Sys2Proof/Machine/Sessions.lean ====
section
/-! DEFINITION. SPDM sessions and the SPDM responder (R63–R68, R109, R502). -/
namespace Sys2Proof.Machine
open Sys2Proof

/-- MBX_SESSIONS (R67). -/
def sessShow (s : State) : State :=
  let n := fun (c : Cls) => SMap.cnt s.spdm.sessions fun _ x => x.cls == c
  fset (fset (fset s Fld.MBX_SESSIONS_ACTIVE s.spdm.sessions.length) Fld.MBX_SESSIONS_MANAGER (n .manager)) Fld.MBX_SESSIONS_OFFICER (n .officer)

/-- A session ends: its slots are zeroised, and a freeze it holds ends (R68, R583). -/
def sessionEnd (s : State) (id : Nat) : State :=
  match SMap.find s.spdm.sessions id with
  | some x =>
    let s := sessShow { s with spdm := { s.spdm with sessions := SMap.del s.spdm.sessions id } }
    let s := sessionZero s x.slots 2
    match s.lkt.freeze with
    | some f => if f.session = id then freezeEnd s false else s
    | none => s
  | none => s

/-- Every session on a path ends, and exchanges in progress there are dropped. -/
def pathEnd (s : State) (t : SPath) : State :=
  let ids := (s.spdm.sessions.filter fun e => e.2.path == t).map (·.1)
  let hs := s.spdm.hands.filter fun h => h.path == t
  let s := { s with spdm := { s.spdm with hands := s.spdm.hands.filter fun h => h.path != t, agreed := s.spdm.agreed.filter fun p => p != t } }
  hs.foldl (fun s h => sessionZero s h.slots 2) (ids.foldl sessionEnd s)

/-! ### The responder -/

/-- The responder answers on a path: firmware runs, and the port's link or the sideband is up (R108, R549). -/
def spdmUp (s : State) (t : SPath) : Bool :=
  s.bot.run && !s.bot.recovery && !pfail s &&
  match t with
  | .doe p => linkUp s p.val && !(portGet s p.val).perst
  | .sideband => fone s Fld.SBD_CTRL_EN

/-- Gives the responder's answer; nothing answers where it cannot. -/
def spdmSay (s : State) (a : SpdmAns) : State := { s with spdm := { s.spdm with ans := a } }

/-- A request on the sideband ends a non-operational state (R152). -/
def spdmWake (s : State) (t : SPath) : State := if t = .sideband then psSideband s else s

/-- Runs a request of a path. -/
def spdmRun (s : State) (t : SPath) (f : State → State) : State := if spdmUp s t then spdmWake (f s) t else spdmSay s .noAnswer

/-- Runs a request that names a certificate slot: only slot 0 is exposed (R109). -/
def spdmSlot (s : State) (t : SPath) (slot : Nat) (f : State → State) : State :=
  spdmRun s t fun s => if slot = 0 then f s else spdmSay s .errInvalid

/-- The Alias chain of slot 0 (R109, R484). -/
def aliasChain (s : State) : List Byte := chainOf (match certOf s s.sgn.keyId with | some c => c | none => [])

/-- A signature with the Alias key over a digest; none while the PKE is out of service or has no fresh nonce (R490). -/
def aliasSign (s : State) (digest : List Byte) : Option (List Byte) × State :=
  if carded s midPke || entropyBad s then (none, s)
  else (some (Config.p384Sign (pkeScalar s 3) digest s.kst.draws), (draw s).2)

/-- GET_VERSION begins the exchange on the path anew. -/
def execSpdmGetVersion (t : SPath) (s : State) : Out :=
  .next (spdmRun s t fun s => spdmSay { s with spdm := { s.spdm with agreed := s.spdm.agreed.filter fun p => p != t } } .version)

/-- CERT, CHAL, MEAS with signature, ENCRYPT, MAC, MUT_AUTH, KEY_EX, HBEAT and KEY_UPD, at the places DSP0274 gives their flags
(PRESUMED; R109 names the set). -/
def spdmCaps : Nat := 2 + 4 + 0x10 + 0x40 + 0x80 + 0x100 + 0x200 + 0x2000 + 0x4000

def execSpdmGetCapabilities (t : SPath) (s : State) : Out := .next (spdmRun s t fun s => spdmSay s (.capabilities spdmCaps))

/-- ECDSA P-384, SHA-384, ECDHE P-384 and AES-256-GCM, by the bits DSP0274 gives them (PRESUMED; R109 names the algorithms). -/
def spdmAlgs : SpdmAns := .algorithms 0x80 0x2 0x10 0x2

/-- Only P-384, SHA-384 and AES-256-GCM are negotiated; `offered` says that the requester offers them. -/
def execSpdmNegotiateAlgorithms (t : SPath) (offered : Bool) (s : State) : Out :=
  .next (spdmRun s t fun s =>
    if offered then spdmSay { s with spdm := { s.spdm with agreed := (s.spdm.agreed.filter fun p => p != t) ++ [t] } } spdmAlgs
    else spdmSay s .errInvalid)

def execSpdmGetDigests (t : SPath) (s : State) : Out :=
  .next (spdmRun s t fun s => spdmSay s (.digests 1 (Config.sha384 (aliasChain s))))

/-- The most bytes of a chain that one answer carries: over DOE a data object is at most 1,024 DW, of which the DOE and SPDM headers
take 16 bytes (R108). -/
def certPortion (t : SPath) (len : Nat) : Nat := match t with | .doe _ => min len 4080 | .sideband => len

def execSpdmGetCertificate (t : SPath) (slot off len : Nat) (s : State) : Out :=
  .next (spdmSlot s t slot fun s => spdmSay s (.certificate (slice (aliasChain s) off (certPortion t len))))

/-- CHALLENGE is answered with a signature of the Alias key over the chain's digest and the requester's nonce. -/
def execSpdmChallenge (t : SPath) (slot : Nat) (nonce : List Byte) (s : State) : Out :=
  .next (spdmSlot s t slot fun s =>
    match aliasSign s (Config.sha384 (Config.sha384 (aliasChain s) ++ nonce)) with
    | (some g, s) => spdmSay s (.challengeAuth g)
    | (none, s) => spdmSay s .errBusy)

/-- A measurement block of DSP0274: index, DMTF, size, value type, value size, value. -/
def measBlock (idx typ : Nat) (v : List Byte) : List Byte :=
  le 1 idx ++ le 1 1 ++ le 2 (v.length + 3) ++ le 1 typ ++ le 2 v.length ++ v

/-- The digest of this boot's item with a component. -/
def bootItem (s : State) (comp : Nat) : List Byte :=
  fit 48 (match s.bot.items.find? fun i => i.comp == comp with | some i => i.digest | none => [])

/-- The measurement blocks (R502). -/
def measurements (s : State) : List Byte :=
  measBlock 1 0 (bootItem s 1) ++ measBlock 2 1 (bootItem s 2) ++ measBlock 3 1 (bootItem s 3) ++ measBlock 4 1 (bootItem s 4) ++
  measBlock 5 1 (bootItem s 5) ++ measBlock 6 3 (bootItem s 6) ++ measBlock 7 3 (bootItem s 7) ++ measBlock 8 3 (bootItem s 8) ++
  measBlock 9 3 (fit 48 s.bot.setDig) ++ measBlock 10 2 (bootItem s 9) ++ measBlock 11 3 (fit 48 s.sgn.last) ++
  measBlock 0xFE 0x85 (le 4 s.bot.secure)

def execSpdmGetMeasurements (t : SPath) (slot : Nat) (nonce : List Byte) (s : State) : Out :=
  .next (spdmSlot s t slot fun s =>
    match aliasSign s (Config.sha384 (measurements s ++ nonce)) with
    | (some g, s) => spdmSay s (.measurements (measurements s) g)
    | (none, s) => spdmSay s .errBusy)

/-! ### Sessions (R64–R68) -/

/-- Session indices in use: those of sessions and of exchanges in progress. -/
def sessIdx (s : State) : List Nat :=
  ((s.spdm.sessions.map fun e => e.2.slots) ++ s.spdm.hands.map (·.slots)).map fun l => (l.headD 16 - 16) / 3

/-- Fresh keys in a session's slots: request, response, import (R459). -/
def sessionKeys (s : State) (slots : List Nat) : State :=
  slots.foldl (fun s i => let r := draw s; kstDerive r.2 i (r.1.take 48)) s

/-- KEY_EXCHANGE: `both` says that the requester takes part in mutual authentication (R64); `hb` is its heartbeat period in
seconds, 0 for none asked. -/
def keyExchange (s : State) (t : SPath) (both : Bool) (hb : Nat) : State :=
  if !s.spdm.agreed.contains t || !both then spdmSay s .errInvalid
  else if entropyBad s || carded s midPke then spdmSay s .errBusy
  else
    match (List.range 16).find? fun i => !(sessIdx s).contains i with
    | none => spdmSay s .errBusy
    | some i =>
      let slots := [16 + 3 * i, 17 + 3 * i, 18 + 3 * i]
      let id := s.spdm.nextId
      let h : Handshake := { path := t, id := id, hbS := (if hb = 0 ∨ 60 < hb then 60 else hb), slots := slots }
      let s := { s with spdm := { s.spdm with hands := s.spdm.hands ++ [h], nextId := id % 4294967295 + 1 } }
      spdmSay (sessionKeys s slots) (.keyExchangeRsp id)

def execSpdmKeyExchange (t : SPath) (slot : Nat) (both : Bool) (hb : Nat) (s : State) : Out :=
  .next (spdmSlot s t slot fun s => keyExchange s t both hb)

/-- The class of a requester whose chain ends in a certificate with this digest (R64, R65). -/
def anchorCls (s : State) (root : List Byte) : Option Cls :=
  let m := s.kst.mgrAnchor == some root
  let o := s.kst.ofcAnchor == some root
  if m && !o then some .manager else if o && !m then some .officer else none

/-- FINISH: `root` is the digest of the certificate the requester's chain ends in; `ok` says that its signature and MAC verify. -/
def spdmFinish (s : State) (t : SPath) (id : Nat) (root : List Byte) (ok : Bool) : State :=
  match s.spdm.hands.find? fun h => h.id == id && h.path == t with
  | none => spdmSay s .errInvalid
  | some h =>
    let s := { s with spdm := { s.spdm with hands := s.spdm.hands.filter fun x => x.id != id } }
    let drop := fun (s : State) (a : SpdmAns) => spdmSay (sessionZero s h.slots 2) a
    match if ok then anchorCls s root else none with
    | none => drop s .errInvalid
    | some c =>
      if 4 ≤ SMap.cnt s.spdm.sessions fun _ x => x.cls == c then drop s .errBusy
      else
        let x : Session := { path := t, cls := c, hbS := h.hbS, beat := now s, seqIn := 0, seqOut := 0, keyGen := 0, slots := h.slots }
        let s := sessionKeys { s with spdm := { s.spdm with sessions := SMap.put s.spdm.sessions id x } } h.slots
        spdmSay (sessShow s) (.finishRsp id c)

def execSpdmFinish (t : SPath) (id : Nat) (root : List Byte) (ok : Bool) (s : State) : Out :=
  .next (spdmRun s t fun s => spdmFinish s t id root ok)

/-- Runs a request inside a session; in a session that has ended it receives no response (R68). -/
def inSession (s : State) (id : Nat) (f : State → Session → State) : State :=
  match SMap.find s.spdm.sessions id with
  | some x => if spdmUp s x.path then spdmWake (f s x) x.path else spdmSay s .noAnswer
  | none => spdmSay s .noAnswer

def execSpdmHeartbeat (id : Nat) (s : State) : Out :=
  .next (inSession s id fun s x =>
    spdmSay { s with spdm := { s.spdm with sessions := SMap.put s.spdm.sessions id { x with beat := now s } } } .heartbeatAck)

/-- KEY_UPDATE replaces the keys of both directions (R109). -/
def execSpdmKeyUpdate (id : Nat) (s : State) : Out :=
  .next (inSession s id fun s x =>
    let s := { s with spdm := { s.spdm with sessions := SMap.put s.spdm.sessions id { x with keyGen := x.keyGen + 1 } } }
    let s := (x.slots.take 2).foldl (fun s i =>
      kstDerive s i (Config.hkdf384 ((slotBuf (kslot s i) (kslot s i).active).take 48) (label "traffic upd") 48)) s
    spdmSay s .keyUpdateAck)

def execSpdmEndSession (id : Nat) (s : State) : Out :=
  .next (inSession s id fun s _ => spdmSay (sessionEnd s id) .endSessionAck)

/-- The requests that the responder answers outside a session, by DSP0274's request codes (PRESUMED; R109 names the requests).
HEARTBEAT, KEY_UPDATE and END_SESSION are answered inside a session only. -/
def spdmKnown (code : Byte) : Bool := [0x84, 0xE1, 0xE3, 0x81, 0x82, 0x83, 0xE0, 0xE4, 0xE5].contains code

/-- Any other request is answered with UnsupportedRequest (R109). -/
def execSpdmUnsupportedRequest (t : SPath) (code : Byte) (s : State) : Out :=
  .next (if spdmKnown code then s else spdmRun s t fun s => spdmSay s .errUnsupported)

/-- A heartbeat period passes without a heartbeat. -/
def execSessionHeartbeatTimeout (id : Nat) (s : State) : Out :=
  .next (match SMap.find s.spdm.sessions id with
    | some x =>
      let due := x.beat + x.hbS * 1000000000
      let s := reach s due
      if now s < due then s else sessionEnd s id
    | none => s)

end Sys2Proof.Machine
end

