-- ==== Sys2Proof/Machine/KeyOps.lean ====
section
/-! DEFINITION. The key opcodes and the trust anchors (R69, R81, R460, R474–R478). -/
namespace Sys2Proof.Machine
open Sys2Proof

/-- A slot of the ownership map (R477). -/
def mapEntry (s : State) (i : Nat) : List Byte :=
  let k := kslot s i
  le 2 i ++ le 1 k.st ++ le 1 k.typ ++ le 2 k.slice ++ le 2 k.gen ++ le 4 k.nsid ++ le 1 k.origin ++
  le 1 (b2n (SMap.find s.kst.recs i).isSome + 2 * b2n (s.zne.releasing.any fun e => e.2 == i)) ++ zeros 2

/-- KEY_MAP_READ. -/
def keyMapRead (first count : Nat) (s : State) : Ans :=
  if 2047 < first then ansSt ST_SLOT_RANGE
  else
    let n := min count (2048 - first)
    ansOk (le 2 n ++ zeros 2 ++ (List.range n).flatMap fun i => mapEntry s (first + i))

def execKeyMapRead (r : Rq) (s : State) : Out :=
  .next (mbxRun (opDef 0x0501 (fun p => p.length == 4 && decide (1 ≤ u16 p 2 ∧ u16 p 2 ≤ 250)) fun _ p s =>
    (keyMapRead (u16 p 0) (u16 p 2) s, s)) r s)

/-- GEN and the key-check value (R474). -/
def keyAnswer (s : State) (i : Nat) : Ans := ansOk (le 2 (kslot s i).gen ++ fit 3 (checkValue s i) ++ zeros 3)

/-- New material in a slot, and its record (R460, R471, R474). -/
def keyWrite (s : State) (i : Nat) (m : List Byte) (origin : Nat) : State :=
  let s := material1 s i m origin
  let k := kslot s i
  recPut (slotPut s i { k with st := (if k.st = 0 then 1 else k.st), typ := 4 }) i

/-- The material of an import: the wrapped bytes under the session's import key (R474). -/
def keyImported (s : State) (c : Caller) (w : List Byte) : Option (List Byte) :=
  match SMap.find s.spdm.sessions c.session with
  | some x => Config.kwUnwrap ((sessionKey s x 2).take 32) w
  | none => none

/-- Writes material into a slot from the DRBG (`w` none) or by import. -/
def keyFill (s : State) (c : Caller) (i : Nat) (w : Option (List Byte)) : Ans × State :=
  match w with
  | none =>
    if entropyBad s then (ansSt ST_ENTROPY, s)
    else
      let r := drawKey 8 s
      let s := keyWrite r.2 i (fit 64 r.1) 1
      (keyAnswer s i, s)
  | some w =>
    let s := finc s (Fld.PVE_COUNT_COUNT 4)
    match keyImported s c w with
    | none => (ansSt ST_UNWRAP_FAIL, fon (finc s (Fld.PVE_COUNT_COUNT 5)) Fld.PVE_EVENTS_UNWRAP_FAIL)
    | some m =>
      if m.take 32 = (m.drop 32).take 32 then (ansSt ST_KEY_WEAK, s)
      else
        let s := keyWrite s i (fit 64 m) 2
        (keyAnswer s i, s)

/-- Checks common to the opcodes that write material: the slot's range and state, and that its record can be programmed. -/
def keyBar (s : State) (i st : Nat) : Nat :=
  if !mediaSlot i then ST_SLOT_RANGE
  else if (kslot s i).st ≠ st then ST_SLOT_STATE
  else if pulsesBlocked s then ST_BROWNOUT
  else ST_OK

def keyMake (c : Caller) (i : Nat) (w : Option (List Byte)) (s : State) : Ans × State :=
  if keyBar s i 0 ≠ ST_OK then (ansSt (keyBar s i 0), s) else keyFill s c i w

def execKeyGenerate (r : Rq) (s : State) : Out :=
  .next (mbxRun (opDef 0x0502 (fun p => p.length == 4) fun c p s => keyMake c (u16 p 0) none s) r s)

def execKeyImport (r : Rq) (s : State) : Out :=
  .next (mbxRun (opDef 0x0503 (fun p => p.length == 76) fun c p s => keyMake c (u16 p 0) (some (p.drop 4)) s) r s)

/-- KEY_BIND, its checks in the order of R474. -/
def keyBind (i n nsid : Nat) (s : State) : Ans × State :=
  if !mediaSlot i then (ansSt ST_SLOT_RANGE, s)
  else
    match SMap.find s.slm.slices n, SMap.find s.zne.ns nsid with
    | some _, some x =>
      if x.slice ≠ n then (ansSt ST_NO_SLICE, s)
      else if (kslot s i).st ≠ 1 ∨ (nsSlot s nsid).isSome then (ansSt ST_SLOT_STATE, s)
      else if (SMap.find s.zne.releasing nsid).isSome then (ansSt ST_BUSY, s)
      else if pulsesBlocked s then (ansSt ST_BROWNOUT, s)
      else (ansOk [], recPut (slotPut s i { kslot s i with st := 2, slice := n, nsid := nsid }) i)
    | _, _ => (ansSt ST_NO_SLICE, s)

def execKeyBind (r : Rq) (s : State) : Out :=
  .next (mbxRun (opDef 0x0504 (fun p => p.length == 8) fun _ p s => keyBind (u16 p 0) (u16 p 2) (u32 p 4) s) r s)

/-- The layout of KEY_REWRITE, which SOURCE selects (R477). -/
def rewriteLayout (p : List Byte) : Bool := (p.length == 4 && u8 p 2 == 0) || (p.length == 76 && u8 p 2 == 1)

/-- The wrapped bytes of a KEY_REWRITE by import. -/
def rewriteSource (p : List Byte) : Option (List Byte) := if u8 p 2 = 1 then some (p.drop 4) else none

/-- KEY_REWRITE: it waits while the inactive buffer is in use (R460). -/
def keyRewrite (r : Rq) (c : Caller) (p : List Byte) (s : State) : Option Ans × State :=
  let i := u16 p 0
  if keyBar s i 1 ≠ ST_OK then (some (ansSt (keyBar s i 1)), s)
  else if bufHeldUp s i then
    let w : KeyWait := { ch := r.ch.val, opcode := 0x0505, slot := i, payload := p, rq := r, cls := c.cls, since := now s }
    (none, { s with mbx := { s.mbx with waits := s.mbx.waits ++ [w] } })
  else
    let a := keyFill s c i (rewriteSource p)
    (some a.1, a.2)

/-- KEY_REWRITE as an opcode. -/
def rewriteDef : OpDef :=
  { opc := 0x0505, hw := false, limit := 4064, start := fun _ _ _ _ => ST_OK, layout := rewriteLayout, work := keyRewrite }

def execKeyRewriteDrbg (r : Rq) (s : State) : Out := .next (mbxRun rewriteDef r s)

def execKeyRewriteImport (r : Rq) (s : State) : Out := .next (mbxRun rewriteDef r s)

/-- A wait of 1 ms for a slot's inactive buffer is over: the write is made when the buffer is free by then, and completes with ST_BUSY
otherwise; a channel that its port's reset returned to IDLE gets no response (R118, R460). -/
def keyWaitEnd (s : State) (i : Nat) : State :=
  match s.mbx.waits.find? fun w => w.slot == i with
  | none => s
  | some w =>
    let s := reach s (w.since + 1000000)
    if now s < w.since + 1000000 then s
    else
      let s := { s with mbx := { s.mbx with waits := s.mbx.waits.filter fun x => x != w } }
      let c : Caller := { ch := w.rq.ch.val, cls := w.cls, slice := none, session := w.rq.session }
      let a := if bufHeldUp s i then (ansSt ST_BUSY, s)
        else if keyBar s i 1 ≠ ST_OK then (ansSt (keyBar s i 1), s)
        else keyFill s c i (rewriteSource w.payload)
      if w.ch = w.rq.ch.val then mbxAnswer a.2 w.rq w.opcode c a.1 else a.2

def execKeyWriteWaitTimeout (slot : Nat) (s : State) : Out := .next (keyWaitEnd s slot)

/-- KEY_ZEROISE: a session's slots only from that session; an EMPTY slot stays as it is. -/
def keyZeroise (c : Caller) (i : Nat) (s : State) : Ans × State :=
  let mine := match SMap.find s.spdm.sessions c.session with | some x => x.slots.contains i | none => false
  if i < 16 ∨ 2047 < i ∨ (i < 64 ∧ !mine) then (ansSt ST_SLOT_RANGE, s)
  else if (kslot s i).st = 0 then (ansOk [], s)
  else if i < 64 then (ansOk [], kstZero (post s 15 4 true i 1 0 0) i)
  else if pulsesBlocked s then (ansSt ST_BROWNOUT, s)
  else (ansOk [], keyZero s i 1)

def execKeyZeroise (r : Rq) (s : State) : Out :=
  .next (mbxRun (opDef 0x0506 (fun p => p.length == 4) fun c p s => keyZeroise c (u16 p 0) s) r s)

/-- Step 1 of a crypto-erase (R476); the rest runs once no operation holds a latch. -/
def cryptoErase (nsid : Nat) (s : State) : Ans × State :=
  match SMap.find s.zne.ns nsid with
  | none => (ansSt ST_NO_SLICE, s)
  | some _ =>
    match nsSlot s nsid with
    | none => (ansSt ST_SLOT_STATE, s)
    | some (i, k) =>
      if k.st ≠ 2 then (ansSt ST_SLOT_STATE, s)
      else if entropyBad s then (ansSt ST_ENTROPY, s)
      else
        let s := slotPut s i { k with st := 3 }
        (ansOk [], kstShow { s with kst := { s.kst with erases := SMap.put s.kst.erases nsid (now s) } })

def execNsCryptoErase (r : Rq) (s : State) : Out :=
  .next (mbxRun (opDef 0x0507 (fun p => p.length == 4) fun _ p s => cryptoErase (u32 p 0) s) r s)

/-! ### Trust anchors (R69, R478) -/

/-- A new anchor comes into force once the ledger has its item (R497): `who` is 1 manager, 2 officer. -/
def anchorPut (s : State) (who : Nat) (old : Option (List Byte)) (d : List Byte) : Ans × State :=
  let how := if old.isSome then 2 else 1
  if pulsesBlocked s then (ansSt ST_BROWNOUT, s)
  else
    match eventAppend s [{ comp := 0x0101 + who, digest := d, version := how, svn := 0 }] with
    | none => (ansSt ST_BUSY, s)
    | some s =>
      let k := if who = 1 then { s.kst with mgrAnchor := some d } else { s.kst with ofcAnchor := some d }
      (ansOk [], post { s with kst := k } 15 3 false who how (u32 d 0) 0)

/-- MGR_ANCHOR_WRITE: an anchor equal to the officer's in force is refused. -/
def mgrAnchor (d : List Byte) (s : State) : Ans × State :=
  if s.kst.ofcAnchor = some d then (ansSt ST_DENIED, s) else anchorPut s 1 s.kst.mgrAnchor d

def execMgrAnchorWrite (r : Rq) (s : State) : Out :=
  .next (mbxRun (opDef 0x0508 (fun p => p.length == 48) fun _ p s => mgrAnchor p s) r s)

/-- The layout of OFC_ANCHOR_WRITE. -/
def ofcLayout (p : List Byte) : Bool :=
  decide (52 ≤ p.length) && decide (u16 p 48 ≤ 2048) && p.length == (if u16 p 48 = 0 then 52 else 148 + u16 p 48)

/-- OFC_ANCHOR_WRITE: with an officer anchor installed it takes that anchor's co-signature. -/
def ofcAnchor (p : List Byte) (s : State) : Ans × State :=
  let d := p.take 48
  let cert := slice p 52 (u16 p 48)
  let sig := slice p (52 + u16 p 48) 96
  if s.kst.mgrAnchor = some d then (ansSt ST_DENIED, s)
  else
    match s.kst.ofcAnchor with
    | none => anchorPut s 2 none d
    | some a =>
      if Config.sha384 cert = a ∧ Config.p384Verify (Config.certKey cert) (Config.sha384 d) sig then anchorPut s 2 (some a) d
      else (ansSt ST_COSIGN, s)

def execOfcAnchorWrite (r : Rq) (s : State) : Out :=
  .next (mbxRun (opDef 0x0509 ofcLayout fun _ p s => ofcAnchor p s) r s)

end Sys2Proof.Machine
end

