-- ==== Sys2Proof/Machine/Micro.lean ====
section
/-! DEFINITION. Customer routines: microwords, conditions, selectors, the published entry points and the bounds of the
customer open area (R348–R350, R354, R355). -/
namespace Sys2Proof.Machine
open Sys2Proof

/-! ### Microwords (R348) -/

/-- A microword taken apart. -/
structure MWord where
  next   : Nat
  seq    : Nat
  cond   : Nat
  cinv   : Bool
  sel    : Nat
  yld    : Bool
  commit : Bool
  vis    : Bool
  busop  : Nat
  byte   : Nat
  imm    : Nat
  dst    : Nat
  alu    : Nat
  src    : Nat
  buf    : Nat
  count  : Nat
  timer  : Nat
  tunit  : Bool
  cpl    : Nat
deriving DecidableEq, Repr

/-- The fields of a word (R348). -/
def mword (w : Nat) : MWord :=
  { next := bits w 0 13, seq := bits w 13 3, cond := bits w 16 5, cinv := bit w 21, sel := bits w 22 4, yld := bit w 26,
    commit := bit w 27, vis := bit w 28, busop := bits w 29 3, byte := bits w 32 8, imm := bits w 40 16, dst := bits w 56 4,
    alu := bits w 60 4, src := bits w 64 4, buf := bits w 68 3, count := bits w 72 15, timer := bits w 87 15, tunit := bit w 102,
    cpl := bits w 103 3 }

/-- The END word that an entry-table word holds which the image does not define (R354). -/
def endWord : Nat := 7 * 8192

/-- A word of the customer open area, and the state once an open value has been taken for a word that no image loaded. An entry-table word
that the image does not define holds END (R354). -/
def codeAt (s : State) (ch a : Nat) : Nat × State :=
  if a < 6208 ∧ (chsOf s ch).entries ≤ a - 6144 then (endWord, s)
  else
    match (chsOf s ch).code[a - 6144]? with
    | some w => (w, s)
    | none => (openVal s % 2 ^ 128, openTaken s)

/-! ### What a word samples as it starts (R349) -/

/-- Bit 0 of a sample: the die is ready; bit 2: a priority change is pending; bit 3: device time has run on to the end of the WAIT
timer; bits 15–8: the die's status byte; bits 20–16: the die position whose context the engine moves to, where it may move. -/
def smpReady (m : Nat) : Bool := bit m 0
def smpPrio (m : Nat) : Bool := bit m 2
def smpTimer (m : Nat) : Bool := bit m 3
def smpStat (m : Nat) : Nat := bits m 8 8
def smpPos (m : Nat) : Nat := bits m 16 5

/-- The descriptor a context serves. -/
def ctxDesc (x : DieCtx) : Desc :=
  match x.chain with
  | d :: _ => d
  | [] => descOf fun _ => 0

/-- The conditions of R349. -/
def condOf (s : State) (ch p : Nat) (x : DieCtx) (m k : Nat) : Bool :=
  let c := chsOf s ch
  let d := ctxDesc x
  let die := 32 * ch + p
  match k with
  | 0 => true
  | 1 => smpReady m
  | 2 => bit x.dstat 0
  | 3 => bit x.dstat 5
  | 4 => s.dsc.asked.contains die
  | 5 => s.dsc.back.contains die
  | 6 => pfail s
  | 7 => smpPrio m
  | 8 => decide (c.bus = some p)
  | 9 => isoWaits s ch c.want
  | 10 => x.expired || (match x.wait with | some t => decide (t ≤ now s) | none => false)
  | 11 => x.cnt == 0
  | 12 => d.flags.testBit 0
  | 13 => d.flags.testBit 3
  | 14 => d.mode == 0
  | 15 => d.mode == 2
  | 16 => decide (16 ≤ c.fifo.length)
  | 17 => fget s (Fld.CHS_BUS_IF ch) == 2
  | 18 => x.vis
  | 19 => (SMap.find c.slot p).isSome
  | 20 => bit (x.w.getD 6 0) 0
  | 21 => bit (x.w.getD 6 0) 1
  | 22 => bit (x.w.getD 6 0) 2
  | 23 => bit (x.w.getD 6 0) 3
  | 24 => bit (x.w.getD 6 0) 4
  | 25 => bit (x.w.getD 6 0) 5
  | _ => false

/-- The retry step in use: the one the routine has applied, the descriptor's, or the die's current step for the mode (R302, R337,
R355). -/
def stepInUse (s : State) (die : Nat) (x : DieCtx) (d : Desc) : Nat :=
  if x.level.isSome then x.level.getD 0
  else if d.step = 0xFF then
    fget s (if d.mode = 0 then Fld.LDC_STEP_STEP_SLC die else if d.mode = 1 then Fld.LDC_STEP_STEP_TLC die else Fld.LDC_STEP_STEP_QLC die)
  else d.step % 16

/-- The 16-way selectors of R349. -/
def selOf (s : State) (ch p : Nat) (x : DieCtx) (m k : Nat) : Nat :=
  let d := ctxDesc x
  let die := 32 * ch + p
  match k with
  | 0 => d.op % 16
  | 1 => d.mode
  | 2 => x.dstat % 16
  | 3 => x.dstat / 16 % 16
  | 4 => d.units % 16
  | 5 => stepInUse s die x d
  | 6 => x.w.getD 0 0 % 16
  | 7 => x.w.getD 1 0 % 16
  | 8 => x.cnt % 16
  | 9 => d.flags % 16
  | 10 => p % 16
  | 11 => if s.dsc.asked.contains die then 1 else if s.dsc.back.contains die then 2 else if smpPrio m then 3 else 0
  | _ => 0

/-! ### Registers and descriptor bytes -/

/-- A descriptor's 64 bytes (R337). -/
def descBytes (d : Desc) : List Byte :=
  let ref := fun (r : DRef) => match r with
    | .none => le 8 0
    | .slab h => le 8 (h + 2 ^ 62)
    | .dram a => le 8 (a + 2 ^ 63)
  le 1 d.op ++ le 1 d.flags ++ le 1 d.die ++ le 1 d.mode ++ le 4 d.tag ++ le 4 d.block ++ le 2 d.page ++ le 1 d.units ++
  le 1 d.step ++ le 4 d.call ++ le 2 d.owner ++ le 2 d.param ++ (d.data.flatMap ref) ++ le 4 d.param2 ++ le 4 0

/-- Puts a destination: W0–W7, the counter, the timer, the completion STATUS; 11–15 name nothing. -/
def dstPut (x : DieCtx) (k v : Nat) : DieCtx :=
  let v := v % 65536
  if k < 8 then { x with w := x.w.set k v }
  else if k = 8 then { x with cnt := v }
  else if k = 9 then { x with timer := v }
  else if k = 10 then { x with status := some v }
  else x

def dstGet (x : DieCtx) (k : Nat) : Nat :=
  if k < 8 then x.w.getD k 0 else if k = 8 then x.cnt else if k = 9 then x.timer else if k = 10 then x.status.getD 0 else 0

/-- The ALU's effect (R348). A reserved source gives an open value. -/
def aluDo (s : State) (ch : Nat) (x : DieCtx) (w : MWord) : DieCtx × State :=
  match w.alu with
  | 1 => (dstPut x w.dst w.imm, s)
  | 2 => (dstPut x w.dst (dstGet x w.dst + w.imm), s)
  | 3 => (dstPut x w.dst (dstGet x w.dst + 65536 - w.imm), s)
  | 4 => (dstPut x w.dst (dstGet x w.dst &&& w.imm), s)
  | 5 => (dstPut x w.dst (dstGet x w.dst ||| w.imm), s)
  | 6 =>
    if w.src < 8 then (dstPut x w.dst (x.w.getD w.src 0), s)
    else if w.src = 8 then (dstPut x w.dst x.cnt, s)
    else if w.src = 9 then (dstPut x w.dst x.dstat, s)
    else (dstPut x w.dst (openVal s), openTaken s)
  | 7 =>
    let r := codeAt s ch (w.imm % 8192)
    (dstPut x w.dst (r.1 % 65536), r.2)
  | 8 => (dstPut x w.dst (u16 (descBytes (ctxDesc x)) w.imm), s)
  | 9 => (dstPut x w.dst x.dstat, s)
  | 10 => ({ x with cnt := (x.cnt + 65535) % 65536 }, s)
  | _ => (x, s)

/-- The completion field of a word (R348): sets STATUS, or writes a suspend or resume entry. -/
def cplDo (s : State) (ch : Nat) (x : DieCtx) (k : Nat) : DieCtx × State :=
  match k with
  | 1 => ({ x with status := some ST_OK }, s)
  | 2 => ({ x with status := some ST_PROGRAM_FAIL }, s)
  | 3 => ({ x with status := some ST_ERASE_FAIL }, s)
  | 4 => ({ x with status := some ST_DIE_TIMEOUT }, s)
  | 5 => (x, complete s ch (suspEnt x 0xF1 x.susp))
  | 6 => (x, complete s ch (suspEnt x 0xF2 x.susp))
  | _ => (x, s)

/-! ### Bounds (R355) -/

/-- Command bytes that a customer routine may not issue. -/
def byteBarred (b : Nat) : Bool := b == 0x10 || b == 0x11 || b == 0x15 || b == 0x1A || b == 0xD0 || b == 0xD1 || b == 0xEF

/-- A burst leaves the descriptor's data reference, which spans 4,608 bytes. -/
def burstBad (d : Desc) (buf off n : Nat) : Bool := decide (4 ≤ buf) || !hasRef d buf || decide (4608 < off + n)

/-- An address in the customer open area. -/
def inOpen (a : Nat) : Bool := decide (6144 ≤ a ∧ a < 8192)

/-- The bus operation of a word breaks a bound: its kind in CHS_VIO, or 0. -/
def busBad (x : DieCtx) (w : MWord) : Nat :=
  if w.busop = 1 ∧ byteBarred w.byte then 3
  else if (w.busop = 3 ∨ w.busop = 4) ∧ burstBad (ctxDesc x) w.buf (x.w.getD 7 0) w.count then 4
  else 0

/-- A CALL to an entry point breaks a bound: its kind, or 0 (R355). -/
def entBad (s : State) (ch p : Nat) (x : DieCtx) (e : Nat) : Nat :=
  let w := fun k => x.w.getD k 0
  if 12 ≤ e then 1
  else if e = 0 ∧ byteBarred (w 0 % 256) then 3
  else if (e = 4 ∨ e = 5) ∧ burstBad (ctxDesc x) (w 3) (w 7) (w 2) then 4
  else if e = 7 ∧ !seqPermits (chsOf s ch) { ctxDesc x with die := p } then 5
  else if e = 9 ∧ Config.ifaceFeature (w 0) then 3
  else 0

/-! ### The published entry points (R355) -/

/-- An array phase of the die: its time, in steps of 40 ns, is open, and device time runs on by it (R345). -/
def arrayPhase (s : State) (x : DieCtx) : DieCtx × State :=
  let a := 40 * (openVal s % 1048576)
  ({ x with vis := true, array := a }, reach (openTaken s) (now s + a))

/-- Programs the descriptor's page with the codewords of DATA[0–3]. -/
def entProgram (s : State) (ch p : Nat) (x : DieCtx) (m : Nat) : DieCtx × State :=
  let d := ctxDesc x
  let r := arrayPhase s { x with dstat := smpStat m }
  let x := r.1
  let s := r.2
  if bit (smpStat m) 0 then
    let s := fon (chsPut s ch (seqDel (chsOf s ch) p d.block)) (Fld.CHS_EVENTS_PROGRAM_FAIL ch)
    ({ x with status := some ST_PROGRAM_FAIL }, post s 29 2 false ch p d.block d.page)
  else
    let v := (List.range 4).map fun k => leNat (refGet s (d.data.getD k .none) 0 4128)
    let s := { s with med := { s.med with pages := SMap.put s.med.pages (pageKey (32 * ch + p) d.block d.page) v } }
    ({ x with status := some ST_OK }, chsPut s ch (seqAdvance (chsOf s ch) p d.block (pagesOf s ch d.mode)))

/-- A LUN feature of a die; one that nothing has set is the die's own. -/
def featGet (s : State) (ch p a : Nat) : Nat × State :=
  match SMap.find s.flash.feats (featKey ch p a) with
  | some v => (v, s)
  | none => (openVal s % 4294967296, openTaken s)

/-- `n` bytes burst in from a die: open values, delivered to DATA[`k`] at byte `o` (R348, R355). -/
def burstIn (s : State) (ch p : Nat) (d : Desc) (k o n : Nat) : State :=
  let v := (le n (openVal s)).map (·.toNat)
  refPut (openTaken { s with flash := { s.flash with data := SMap.put s.flash.data (ch * 32 + p) v } }) (d.data.getD k .none) o
    (v.map (BitVec.ofNat 8))

/-- `n` bytes burst out to a die from DATA[`k`] at byte `o`. -/
def burstOut (s : State) (ch p : Nat) (d : Desc) (k o n : Nat) : State :=
  let v := (refGet s (d.data.getD k .none) o n).map (·.toNat)
  { s with flash := { s.flash with sent := SMap.put s.flash.sent (ch * 32 + p) v } }

/-- Power-fail bars the routine a further array operation: one that has executed its VIS word and does not carry FLUSH (R352). -/
def arrayBarred (s : State) (x : DieCtx) : Bool := pfail s && x.vis && !(ctxDesc x).flags.testBit 0

/-- The end of a WAIT: device time runs on to `t` where the sample says so and the condition does not hold (R349). -/
def waitReach (s : State) (t m : Nat) (c : Bool) : State := if smpTimer m && !c then reach s t else s

/-- The effect of an entry point, and whether it has returned: ENT_WAIT_READY waits until the die is ready or the die's timeout has
passed. -/
def entDo (s : State) (ch p : Nat) (x : DieCtx) (m e : Nat) : Bool × DieCtx × State :=
  let w := fun k => x.w.getD k 0
  match e with
  | 2 =>
    let due := x.wait.getD (now s + fget s Fld.LDC_MED_DIE_TIMEOUT_MS * 1000000)
    let s := waitReach s due m (smpReady m)
    if smpReady m then (true, { x with wait := none }, s)
    else if due ≤ now s then (true, { x with wait := none, expired := true, status := some ST_DIE_TIMEOUT }, s)
    else (false, { x with wait := some due, expired := false }, s)
  | 3 => (true, { x with dstat := smpStat m }, s)
  | 4 => (true, x, burstIn (cappedCount s ch (chsOf s ch).want x (w 2)) ch p (ctxDesc x) (w 3) (w 7) (w 2))
  | 5 => (true, x, burstOut (cappedCount s ch (chsOf s ch).want x (w 2)) ch p (ctxDesc x) (w 3) (w 7) (w 2))
  | 6 =>
    if arrayBarred s x then (true, x, s)
    else
      let r := arrayPhase s { x with level := some (w 4 % 16) }
      (true, r.1, issued r.2 (32 * ch + p) [0x00, 0x30])
  | 7 =>
    if arrayBarred s x then (true, x, s)
    else
      let r := entProgram s ch p x m
      (true, r.1, issued r.2 (32 * ch + p) [0x80, 0x85, 0x85, 0x85, 0x10])
  | 8 =>
    let r := featGet s ch p (w 0)
    (true, dstPut (dstPut x 1 (r.1 % 65536)) 2 (r.1 / 65536), r.2)
  | 9 =>
    (true, { x with vis := true },
      { s with flash := { s.flash with feats := SMap.put s.flash.feats (featKey ch p (w 0)) (w 1 + 65536 * w 2) } })
  | 10 => (true, { x with level := some (w 4 % 16) }, s)
  | _ => (true, x, s)

/-- Entry points that use the bus. -/
def entBus (e : Nat) : Bool := e != 2 && e != 11

/-! ### One word (R349) -/

/-- How a word leaves its context. -/
inductive MOut where
  /-- The context goes on at its address, or waits there. -/
  | go
  /-- END, or the routine ends at a yield point. -/
  | done
  /-- The word raises VIO_UCODE_BOUNDS with a kind; it has no effect. -/
  | vio (kind : Nat)
deriving DecidableEq, Repr

/-- The context wants the bus; the word waits. -/
def busWait (s : State) (ch p : Nat) : State :=
  let c := chsOf s ch
  if c.want.contains p then s else chsPut s ch { c with want := c.want ++ [p] }

/-- The bus is free for a context: nobody holds it, or a vendor routine does that is at its end there, and the context is the next in the
order of R353. -/
def busFree (s : State) (ch p : Nat) : Bool :=
  let c := chsOf s ch
  c.bus.isNone && busNext (chsPut s ch { c with want := if c.want.contains p then c.want else c.want ++ [p] }) ch == some p

/-- The context takes the free bus. -/
def busTake (s : State) (ch p : Nat) : State :=
  let c := chsOf s ch
  chsPut s ch { c with bus := some p, want := c.want.filter (· != p), token := (p + 1) % 32 }

/-- The context releases the bus. -/
def busDrop (s : State) (ch p : Nat) : State :=
  let c := chsOf s ch
  if c.bus = some p then chsPut s ch { c with bus := none } else s

/-- The word needs the bus, which the context does not hold. -/
def needsBus (c : Chs) (p : Nat) (w : MWord) : Bool :=
  decide (c.bus ≠ some p) && ((w.busop != 0 && w.busop != 6) || (w.seq == 4 && decide (w.next < 6144) && entBus w.next))

/-- The next address, when the word neither waits, ends nor violates a bound: an address, or the kind of the violation. -/
def nextAddr (s : State) (ch p : Nat) (x : DieCtx) (w : MWord) (c : Bool) (m : Nat) : Nat × List Nat × Nat :=
  let a := x.addr
  let plain := fun (n : Nat) => (n, x.stack, if inOpen n then 0 else 1)
  match w.seq with
  | 0 => plain (a + 1)
  | 1 => plain w.next
  | 2 => plain (if c then w.next else a + 1)
  | 3 => plain (w.next + selOf s ch p x m w.sel)
  | 4 =>
    if w.next < 6144 then plain (a + 1)
    else if 4 ≤ x.stack.length then (a, x.stack, 6)
    else (w.next, (a + 1) :: x.stack, 0)
  | 5 =>
    match x.stack with
    | r :: rs => (r, rs, if inOpen r then 0 else 1)
    | [] => (a, [], 6)
  | _ => plain (a + 1)

/-- The time a WAIT word waits at most: TIMER in its unit; with TIMER 0, what a DST of 9 has put (R348; DESIGN CHOICE,
notes/assumptions/73.md). -/
def waitNs (x : DieCtx) (w : MWord) : Nat := (if w.timer = 0 then x.timer else w.timer) * (if w.tunit then 10000 else 40)

/-- The effects of a word that passes the checks and has the bus it needs, and where the routine goes on. -/
def wordAct (s : State) (ch p : Nat) (x : DieCtx) (w : MWord) (c : Bool) (m : Nat) : MOut × DieCtx × State :=
  let call := w.seq == 4 && decide (w.next < 6144)
  let s0 := s
  let s := if w.busop = 3 ∨ w.busop = 4 then cappedCount s ch (chsOf s ch).want x w.count else s
  let s := if w.busop = 4 then burstIn s ch p (ctxDesc x) w.buf (x.w.getD 7 0) w.count
    else if w.busop = 3 then burstOut s ch p (ctxDesc x) w.buf (x.w.getD 7 0) w.count
    else s
  let al := aluDo s ch x w
  let x1 := { al.1 with vis := al.1.vis || w.vis, commit := al.1.commit || w.commit }
  let cp := cplDo al.2 ch x1 w.cpl
  let x2 := cp.1
  let capped := (w.busop == 3 || w.busop == 4) && isoWaits s ch (chsOf s ch).want
  let s := if w.busop = 6 || capped then busDrop cp.2 ch p else cp.2
  if w.seq = 7 then (.done, x2, s)
  else if w.seq = 6 then
    let due := x.wait.getD (now s + waitNs x w)
    let s := waitReach s due m c
    if c then
      (if inOpen (x.addr + 1) then (.go, { x2 with addr := x.addr + 1, wait := none, expired := false }, s) else (.vio 1, x, s0))
    else if due ≤ now s then
      (if inOpen w.next then (.go, { x2 with addr := w.next, wait := none, expired := true }, s) else (.vio 1, x, s0))
    else (.go, { x2 with wait := some due, expired := false }, s)
  else if call then
    let e := entDo s ch p x2 m w.next
    (.go, { e.2.1 with addr := if e.1 then x.addr + 1 else x.addr }, e.2.2)
  else
    let n3 := nextAddr s ch p x2 w c m
    if n3.2.2 ≠ 0 then (.vio n3.2.2, x, s0) else (.go, { x2 with addr := n3.1, stack := n3.2.1 }, s)

/-- Runs the word at a context's address on one sample (R349, R350, R355). -/
def runWord (s : State) (ch p : Nat) (x : DieCtx) (m : Nat) : MOut × DieCtx × State :=
  let r := codeAt s ch x.addr
  let s := r.2
  let w := mword r.1
  let d := ctxDesc x
  let c0 := condOf s ch p x m w.cond
  let c := if w.cinv then !c0 else c0
  let yields := w.yld || x.addr == 6144 + (d.op - 0x80) || (w.seq == 4 && (w.next == 2 || w.next == 11))
  let call := w.seq == 4 && decide (w.next < 6144)
  let s := if yields then busDrop s ch p else s
  let x := if yields then { x with yieldAt := now s } else x
  if yields && pfail s && !d.flags.testBit 0 && !x.vis then (.done, { x with status := some ST_SQUASHED }, s)
  else if w.alu = 7 ∧ !inOpen w.imm then (.vio 2, x, s)
  else if busBad x w ≠ 0 then (.vio (busBad x w), x, s)
  else if call && entBad s ch p x w.next != 0 then (.vio (entBad s ch p x w.next), x, s)
  else if call && decide (4 ≤ x.stack.length) then (.vio 6, x, s)
  else if needsBus (chsOf s ch) p w && !busFree s ch p then (.go, x, busWait s ch p)
  else
    let s := if needsBus (chsOf s ch) p w then busTake s ch p else s
    let nx := nextAddr s ch p x w c m
    if w.seq ≠ 6 ∧ w.seq ≠ 7 ∧ w.seq ≠ 3 ∧ nx.2.2 ≠ 0 then (.vio nx.2.2, x, s)
    else wordAct s ch p x w c m

/-- The end of a routine: the completion with the STATUS last set, ST_OK when it was never set (R349). -/
def finish (s : State) (ch p : Nat) (x : DieCtx) : State :=
  complete (ctxIdle s ch p) ch (ctxEnt x (ctxDesc x) (x.status.getD ST_OK) x.array x.dstat)

/-- A context runs a customer routine. -/
def isCust (x : DieCtx) : Bool := x.chain.any fun d => decide (0x80 ≤ d.op)

/-- The lowest die position whose context runs a customer routine. -/
def custCtx (c : Chs) : Option Nat := (c.ctx.find? fun e => isCust e.2).map (·.1)

/-- Takes the next CUSTOMER descriptor that satisfies `f`; its routine starts at its entry word (R354, R355). -/
def custBegin (s : State) (ch : Nat) (f : Desc → Bool) : State :=
  if !chsReady s ch then s
  else
    match pickAny (chsOf s ch) fun l => headCust l && (match l with | d :: _ => f d | [] => false) with
    | some (q, i, d :: l) =>
      let s := startChain s ch q i (d :: l)
      let c := chsOf s ch
      match SMap.find c.ctx d.die with
      | some x => chsPut s ch { c with ctx := SMap.put c.ctx d.die { x with addr := 6144 + (d.op - 0x80) }, want := c.want.filter (· != d.die) }
      | none => s
    | _ => s

/-- The context whose word runs next on a sample: the engine stays with a context until a yield point, or a word that waits, and then
moves to the one the sample names, or to the first (R349). -/
def engineCtx (c : Chs) (m : Nat) : Option Nat :=
  match c.cur with
  | some p => if (SMap.find c.ctx p).isSome then some p else custCtx c
  | none => if (match SMap.find c.ctx (smpPos m) with | some x => isCust x | none => false) then some (smpPos m) else custCtx c

/-- The engine may leave a context after a word: the next word is a yield point, or the word has waited in its place. -/
def engineFree (s : State) (ch a : Nat) (x : DieCtx) : Bool := x.addr == a || (mword (codeAt s ch x.addr).1).yld

/-- Runs customer routines over the samples that their words take; one that has not ended stays in its context. A carded sequencer, or one
with a machine check, executes no word (R88, R358). -/
def runRoutine (s : State) (ch : Nat) : List Nat → State
  | [] => s
  | m :: ms =>
    if (chsOf s ch).mc || carded s (midChs ch) then s
    else
      match engineCtx (chsOf s ch) m with
      | none => s
      | some p =>
        let x := SMap.getD (chsOf s ch).ctx p (ctxNew [] 3 0)
        match runWord s ch p x m with
        | (.go, x', s') =>
          let c := chsOf s' ch
          let cur := if engineFree s' ch x.addr x' then none else some p
          runRoutine (chsPut s' ch { c with ctx := SMap.put c.ctx p x', cur := cur }) ch ms
        | (.done, x', s') => runRoutine (finish (chsPut s' ch { chsOf s' ch with cur := none }) ch p x') ch ms
        | (.vio k, _, s') => chsVio s' ch p 7 k x.addr

/-- The next CUSTOMER descriptors are taken: that of the die which the first sample names, or the first where no customer routine runs;
and the routines run on. -/
def descCustomer (s : State) (ch : Nat) (samples : List Nat) : State :=
  if (chsOf s ch).mc then s
  else
    let s := if (custCtx (chsOf s ch)).isNone then custBegin s ch fun _ => true
      else match samples with
        | m :: _ => custBegin s ch fun d => d.die == smpPos m
        | [] => s
    runRoutine s ch samples

def execDescCustomer (ch : Fin 64) (samples : List Nat) (s : State) : Out := .next (descCustomer s ch.val samples)

end Sys2Proof.Machine
end

