-- ==== Sys2Proof/Machine/Settings.lean ====
section
/-! DEFINITION. The settings sets of chapter 18: records, ranges, and the appending of a new set (R542, R543). -/
namespace Sys2Proof.Machine
open Sys2Proof

/-- A settings record: ID, LEN, value, padded to a multiple of 8 bytes. -/
def setRecord (id : Nat) (v : List Byte) : List Byte :=
  le 2 id ++ le 2 v.length ++ v ++ zeros (roundUp (4 + v.length) 8 - (4 + v.length))

/-- The records of a set, in ascending ID. -/
def setRecords (m : SMap (List Byte)) : List Byte := m.flatMap fun e => setRecord e.1 e.2

/-- A set without its CRC-32 and with it: FORMAT, SEQ, LENGTH of the whole set, records (R542). -/
def setBody (fmt seq : Nat) (m : SMap (List Byte)) (crc : Nat) : List Byte :=
  let r := setRecords m
  le 2 fmt ++ zeros 2 ++ le 4 seq ++ le 4 (16 + r.length) ++ le 4 crc ++ r

def setBytes (fmt seq : Nat) (m : SMap (List Byte)) : List Byte := setBody fmt seq m (crc32 (setBody fmt seq m 0))

/-- The format version of firmware 3.2. -/
def setFormat : Nat := 4

/-- The default value of a record, where it has one (R542, R370, R436). -/
def setDefault : Nat → Option (List Byte)
  | 1 => some (le 2 25)
  | 2 => some [0, 7]
  | 3 => some (le 2 1500 ++ le 2 500)
  | 4 => some [0]
  | 5 => some ([Reg.SGD_VTH_A, Reg.SGD_VTH_B, Reg.SGD_VTH_C, Reg.SGD_FILTER].flatMap fun a => le 4 (regReset a).toNat)
  | 6 => some ((List.range 5).flatMap fun i => (List.range 4).flatMap fun k =>
      match deviceQuotas.find? fun q => q.1 == 1024 + i && q.2.1 == k with
      | some (_, _, r, l) => le 2 r ++ le 2 l
      | none => zeros 4)
  | 7 => some ([Reg.SBD_CTRL, Reg.SBD_ADDR].flatMap fun a => le 4 (regReset a).toNat)
  | _ => none

/-- The records of a set of defaults. -/
def setDefaults : SMap (List Byte) :=
  (List.range 10).foldl (fun m id => match setDefault id with | some v => SMap.put m id v | none => m) []

/-- The IDs that the format knows. -/
def setKnown (id : Nat) : Bool := decide (1 ≤ id ∧ id ≤ 9)

/-- The range check of a record (R543): its length, and its value where the spec gives the range. -/
def setValid (id : Nat) (v : List Byte) : Bool :=
  if id = 1 then v.length == 2 && decide (20 ≤ u16 v 0 ∧ u16 v 0 ≤ 800)
  else if id = 2 then v.length == 2 && decide (u8 v 0 ≤ u8 v 1 ∧ u8 v 1 ≤ 7)
  else if id = 3 then v.length == 4
  else if id = 4 then v.length == 1 && decide (u8 v 0 ≤ 1)
  else if id = 5 then v.length == 16
  else if id = 6 then v.length == 80 && (List.range 20).all fun i => decide (u16 v (4 * i) ≤ u16 v (4 * i + 2))
  else if id = 7 then v.length == 8
  else setKnown id

/-- The value of a record in force. -/
def setGet (s : State) (id : Nat) : List Byte :=
  match SMap.find s.bot.sets id with
  | some v => v
  | none => (setDefault id).getD []

/-- In-band update is enabled (record 0x0004). -/
def inband (s : State) : Bool := u8 (setGet s 4) 0 != 0

/-- A new set is appended whole (R542). -/
def setAppend (s : State) (m : SMap (List Byte)) : State :=
  { s with bot := { s.bot with sets := m, setFmt := setFormat, setSeq := s.bot.setSeq + 1 } }

/-- A record is replaced in a new set. -/
def setPut (s : State) (id : Nat) (v : List Byte) : State := setAppend s (SMap.put s.bot.sets id v)

/-- Parses records: ID and value, or none where they do not fill the bytes. -/
def setParse : Nat → List Byte → Option (List (Nat × List Byte))
  | 0, _ => none
  | n + 1, b =>
    if b.isEmpty then some []
    else
      let len := u16 b 2
      let tot := roundUp (4 + len) 8
      if b.length < tot then none
      else
        match setParse n (b.drop tot) with
        | some l => some ((u16 b 0, slice b 4 len) :: l)
        | none => none

/-- The first thing wrong with a settings write, or ST_OK: FORMAT, an unknown ID, a value out of range. -/
def setCheck (s : State) (p : List Byte) : Nat :=
  if u16 p 0 ≠ s.bot.setFmt then ST_SETTINGS_FORMAT
  else
    match setParse (p.length + 1) (p.drop 16) with
    | none => ST_BAD_LENGTH
    | some l =>
      if l.any fun e => !setKnown e.1 then ST_SETTINGS_ID
      else if l.any fun e => !setValid e.1 e.2 then ST_SETTINGS_VALUE
      else ST_OK

/-- What a record does when it is stored: records 1 and 2 act at the next epoch, 4 at once, the others later (R542). -/
def setEffect (s : State) (e : Nat × List Byte) : State :=
  if e.1 = 1 then setBudget s (u16 e.2 0)
  else if e.1 = 2 then setPpLimit s (u8 e.2 0) (u8 e.2 1)
  else s

/-- A SETTINGS_WRITE: each record replaces the record of its ID. -/
def settingsWrite (p : List Byte) (s : State) : Ans × State :=
  let st := setCheck s p
  if st ≠ ST_OK then (ansSt st, s)
  else if pulsesBlocked s then (ansSt ST_BROWNOUT, s)
  else
    match setParse (p.length + 1) (p.drop 16) with
    | some l => (ansOk [], l.foldl setEffect (setAppend s (l.foldl (fun m e => SMap.put m e.1 e.2) s.bot.sets)))
    | none => (ansSt ST_BAD_LENGTH, s)

def execSettingsRead (r : Rq) (s : State) : Out :=
  .next (mbxRun (opRead 0x0806 fun _ s => ansOk (setBytes s.bot.setFmt s.bot.setSeq s.bot.sets)) r s)

/-- The layout of SETTINGS_WRITE: a head whose LENGTH covers the request. -/
def settingsLayout (p : List Byte) : Bool := decide (16 ≤ p.length) && u32 p 8 == p.length

def execSettingsWrite (r : Rq) (s : State) : Out :=
  .next (mbxRun (opDef 0x0807 settingsLayout fun _ p s => settingsWrite p s) r s)

/-- FW_INBAND_ENABLE writes record 0x0004. -/
def inbandEnable (v : Nat) (s : State) : Ans × State :=
  if pulsesBlocked s then (ansSt ST_BROWNOUT, s) else (ansOk [], setPut s 4 [BitVec.ofNat 8 (v % 2)])

def execFwInbandEnable (r : Rq) (s : State) : Out :=
  .next (mbxRun (opDef 0x0804 (fun p => p.length == 4) fun _ p s => inbandEnable (u8 p 0) s) r s)

end Sys2Proof.Machine
end

