-- ==== Sys2Proof/Machine/Protect.lean ====
section
/-! DEFINITION. The memory protection engine: corrections, marks, uncorrectable words, the scrubbers and the injector (R402–R410). -/
namespace Sys2Proof.Machine
open Sys2Proof

/-- Every mark, as settings record 0x0008 holds it: one byte for each code group, MARKED in bit 7. -/
def marksBytes (s : State) : List Byte :=
  (List.range 16).map fun g => BitVec.ofNat 8 (fget s (Fld.MEP_MARK_DEVICE g) + 128 * fget s (Fld.MEP_MARK_MARKED g))

/-- The marks are stored in the settings area, unless NOR pulses are blocked. -/
def marksStore (s : State) : State := if pulsesBlocked s then s else setPut s 8 (marksBytes s)

/-- A device is marked, or is the second of its group (R405); `why` is 1 device events, 2 CE count, 3 pattern test. -/
def deviceMark (s : State) (g d why : Nat) : State :=
  if fone s (Fld.MEP_MARK_MARKED g) then
    if fget s (Fld.MEP_MARK_DEVICE g) = d then s
    else fon (fon s (Fld.MEP_MARK_SECOND g)) Fld.MEP_EVENTS_SECOND_DEVICE
  else
    let s := fon (fset s (Fld.MEP_MARK_DEVICE g) d) (Fld.MEP_MARK_MARKED g)
    let s := post (fon s Fld.MEP_EVENTS_DEVICE_MARKED) 10 3 false g d why 0
    smartEvent (marksStore s) 2

/-- The times of a list that lie within the last 24 h, and now. -/
def within24h (s : State) (l : List Nat) : List Nat := (l.filter fun t => decide (now s < t + 86400000000000)) ++ [now s]

/-- MEP_LAST_ADDR and MEP_LAST_INFO. -/
def mepLast (s : State) (a ue sram wh dev sym : Nat) : State :=
  let s := pset s Reg.MEP_LAST_ADDR_LO Reg.MEP_LAST_ADDR_HI a
  let s := fset (fset s Fld.MEP_LAST_INFO_UE ue) Fld.MEP_LAST_INFO_SRAM sram
  fset (fset (fset s Fld.MEP_LAST_INFO_WHERE wh) Fld.MEP_LAST_INFO_DEVICE dev) Fld.MEP_LAST_INFO_SYMBOLS sym

/-- The devices that read wrong, and the symbols of each. -/
def rawSum (raw : List (Nat × Nat)) : Nat := raw.foldl (fun n e => n + e.2) 0

/-- The decoder corrects these errors of a code group: all in one device, or 2 symbols; beside a marked device, 2 symbols of others
(R403). -/
def rsCorrects (s : State) (g : Nat) (raw : List (Nat × Nat)) : Bool :=
  if fone s (Fld.MEP_MARK_MARKED g) then decide (rawSum (raw.filter fun e => e.1 != fget s (Fld.MEP_MARK_DEVICE g)) ≤ 2)
  else (match raw with | [] => true | d :: l => l.all fun e => e.1 == d.1) || decide (rawSum raw ≤ 2)

/-- The code group of a DRAM address: over the channels and ranks that the board has (R391, R402). -/
def groupAt (s : State) (a : Nat) : Nat :=
  let w := rget s Reg.DMC_CONFIG
  let g := Config.codeGroup (a / codeword s) % (if bits w 0 4 = 3 then 8 else 16)
  let g := if bit w 5 then g else g - g / 2 % 2 * 2
  if bit w 4 then g - g % 2 else g

/-- A device has been in error in a corrected codeword, over `sym` symbols: the thresholds of R405. -/
def deviceErr (s : State) (g d sym : Nat) : State :=
  let k := g * 16 + d
  let ces := within24h s (SMap.getD s.dmc.ces k [])
  let devs := if 3 ≤ sym then within24h s (SMap.getD s.dmc.devs k []) else SMap.getD s.dmc.devs k []
  let s := { s with dmc := { s.dmc with ces := SMap.put s.dmc.ces k ces, devs := SMap.put s.dmc.devs k devs } }
  if 3 ≤ sym ∧ max 1 (fget s Fld.MEP_MARK_CFG_DEV_EVENTS) ≤ devs.length then deviceMark s g d 1
  else if max 1 (fget s Fld.MEP_MARK_CFG_CE_COUNT) ≤ ces.length then deviceMark s g d 2
  else s

/-- A DRAM codeword is corrected and written back: counts, and each device's thresholds (R405). -/
def dramCorrected (s : State) (a g : Nat) (raw : List (Nat × Nat)) : State :=
  let s := wordsFresh s fun k => k == dramKey s a
  let s := finc (finc s Fld.MEP_CE_DRAM_COUNT) (Fld.MEP_MARK_CE g)
  let s := fon (mepLast s a 0 0 g ((raw.map (·.1)).headD 0) (min 31 (rawSum raw))) Fld.MEP_EVENTS_DRAM_CE
  raw.foldl (fun s e => deviceErr s g e.1 e.2) s

/-- An SRAM word is corrected and written back. -/
def sramCorrected (s : State) (region off bitsN : Nat) : State :=
  let s := wordsFresh s fun k => k == sramKey region off
  fon (mepLast (finc s Fld.MEP_CE_SRAM_COUNT) off 0 1 region 0 bitsN) Fld.MEP_EVENTS_SRAM_CE

/-- Reads that have resolved to a staging slot that is lost end as reads of a lost unit (R304). -/
def readersLose (s : State) (slot : Nat) : State :=
  let f := fun (k : CUnit) => if k.st = .waiting ∧ k.loc = .dram slot then { k with st := .lost } else k
  let mine := (s.hst.ctx.filter fun e => e.2.opcode == 2 && e.2.units.any fun k => k.st == .waiting && k.loc == .dram slot).map (·.1)
  mine.foldl (fun s x => readDone (ctxUpd s x fun c => { c with units := c.units.map f }) x) s

/-- A key slot has a record that unwraps, from which it can be reloaded (R472). -/
def reloadable (s : State) (i : Nat) : Bool :=
  match SMap.find s.kst.recs i with
  | some r => r.kek == kek s
  | none => false

/-- A key slot is reloaded from its record: its active buffer holds the material again (R406, R472). -/
def slotReload (s : State) (i : Nat) : State :=
  match SMap.find s.kst.recs i with
  | some r =>
    if r.kek = kek s then
      let k := kslot s i
      let m := fit 64 r.material
      fon (kslotPut s i (if k.active = 0 then { k with buf0 := m } else { k with buf1 := m })) Fld.KST_EVENTS_SRAM_RELOAD
    else s
  | none => s

/-- A message buffer is lost: a request that waits completes with ST_SRAM_UE, and a volley between its segments is abandoned (R406). -/
def mailboxLose (s : State) (ch : Nat) : State :=
  match s.mbx.waits.find? fun w => w.ch == ch && w.rq.ch.val == ch with
  | some w =>
    let s := { s with mbx := { s.mbx with waits := s.mbx.waits.filter fun x => x != w } }
    mbxAnswer s w.rq w.opcode { ch := ch, cls := w.cls, slice := none, session := w.rq.session } (ansSt ST_SRAM_UE)
  | none => volleyDrop s ch

/-- What the controller does about an uncorrectable word (the contents of R406). -/
def ueAct (s : State) (what : MemWhat) : State :=
  match what with
  | .staging slot =>
    match SMap.find s.zne.stg slot, slotStripe s slot with
    | some u, some _ =>
      let lp := match SMap.find s.zne.ns u.nsid with | some n => lbasPerUnit n | none => 1
      slotPad (readersLose (lostMark s u.nsid u.unit (.dram slot) 0 0 (u.unit * lp)) slot) slot
    | _, _ => s
  | .zone z =>
    if (nsOfZone s z).isSome then zonePut s z { zoneGet s z with spoilt := true } else s
  | .slab x again => if again then ctxFail (ctxSquash s x) x SC_INTERNAL 0 else s
  | .context x => ctxFail (ctxSquash s x) x SC_INTERNAL 0
  | .tag pool i =>
    match SMap.find s.bpm.bufs (bufKey pool i) with
    | some b => bpUpdate { s with bpm := { s.bpm with bufs := SMap.put s.bpm.bufs (bufKey pool i) { b with st := 4, link := none } } }
    | none => s
  | .tcm p => pairRetire (fbiton s Fld.FCX_FAULT_TCM_UE p.val) p.val 4
  | .key i => slotReload s i
  | .mailbox ch => mailboxLose s ch
  | .plain => s
  | .twoCopies => s
  | .tables => s
  | .selftest =>
    if s.hst.dst.st = 0 then s
    else { s with hst := { s.hst with dst := { s.hst.dst with fails := s.hst.dst.fails ++ [(1, 0, 0)] } } }

/-- What the controller does about the content rewrites the word: another copy, a rebuild or a reload (R406). -/
def ueRewrites (s : State) : MemWhat → Bool
  | .twoCopies => true
  | .tables => true
  | .zone _ => true
  | .key i => reloadable s i
  | _ => false

/-- The word is known to be uncorrectable, unless what is done about its content rewrites it. -/
def ueHold (s : State) (k : Nat) (what : MemWhat) : State :=
  if ueRewrites s what then wordsFresh s fun x => x == k else { s with dmc := { s.dmc with ues := s.dmc.ues ++ [k] } }

/-- A word is uncorrectable (R406): one Locket record a word, and what its content asks. -/
def dramBad (s : State) (a g d : Nat) (what : MemWhat) : State :=
  let s := fon (mepLast (finc s Fld.MEP_UE_DRAM_COUNT) a 1 0 g d 0) Fld.MEP_EVENTS_DRAM_UE
  let k := dramKey s a
  if s.dmc.ues.contains k then s
  else ueAct (post (ueHold s k what) 10 1 false g d (a % 4294967296) (a / 4294967296)) what

def sramBad (s : State) (region off : Nat) (what : MemWhat) : State :=
  let s := fon (mepLast (finc s Fld.MEP_UE_SRAM_COUNT) off 1 1 region 0 0) Fld.MEP_EVENTS_SRAM_UE
  let k := sramKey region off
  if s.dmc.ues.contains k then s
  else ueAct (post (ueHold s k what) 10 2 false region off 0 0) what

/-- Every error that a word reads with: the injector's, and those that faults have made. -/
def rawOf (s : State) (k : Nat) (e : MemErr) : List (Nat × Nat) :=
  (match SMap.find s.dmc.flips k with | some f => f :: e.raw | none => e.raw).filter fun x => x.2 != 0

/-- A read of a DRAM codeword: whether it gives its data. One known to be uncorrectable gives its error until it is rewritten whole
(R403–R406). -/
def dramLook (s : State) (a : Nat) (e : MemErr) : Bool × State :=
  let raw := rawOf s (dramKey s a) e
  let g := groupAt s a
  if s.dmc.ues.contains (dramKey s a) then (false, dramBad s a g ((raw.map (·.1)).headD 0) e.what)
  else if raw.isEmpty then (true, s)
  else if rsCorrects s g raw then (true, dramCorrected s a g raw)
  else (false, dramBad s a g ((raw.map (·.1)).headD 0) e.what)

/-- A read of an SRAM word: one bit is corrected, more are not (R404). -/
def sramLook (s : State) (region off : Nat) (e : MemErr) : Bool × State :=
  let n := rawSum (rawOf s (sramKey region off) e)
  if s.dmc.ues.contains (sramKey region off) then (false, sramBad s region off e.what)
  else if n = 0 then (true, s)
  else if n = 1 then (true, sramCorrected s region off 1)
  else (false, sramBad s region off e.what)

/-- The DRAM scrubber's position moves on; a pass ends at DMC_TOP (R407). -/
def scrubNext (s : State) (a top : Nat) : State :=
  let n := a + codeword s
  if top ≤ n then finc (pset s Reg.MEP_SCRUB_POS_LO Reg.MEP_SCRUB_POS_HI 0) Fld.MEP_SCRUB_PASSES_DRAM
  else pset s Reg.MEP_SCRUB_POS_LO Reg.MEP_SCRUB_POS_HI n

/-- The DRAM scrubber reads the next codeword once no other request waits (R407). -/
def dramScrub (s : State) (e : MemErr) : State :=
  let a := pget s Reg.MEP_SCRUB_POS_LO Reg.MEP_SCRUB_POS_HI
  let top := pget s Reg.DMC_TOP_LO Reg.DMC_TOP_HI
  if !fone s Fld.MEP_CTRL_SCRUB_EN || pfail s || decide (top = 0) || !s.dmc.rt.isEmpty || !s.dmc.nrm.isEmpty then s
  else scrubNext (dramLook s a e).2 a top

def execDramScrubRead (e : MemErr) (s : State) : Out := .next (dramScrub s e)

/-- The SRAM scrubber reads a word; `last` ends a pass (R407). -/
def sramScrub (s : State) (region off : Nat) (last : Bool) (e : MemErr) : State :=
  if !fone s Fld.MEP_CTRL_SRAM_SCRUB_EN || pfail s then s
  else
    let s := (sramLook s region off e).2
    if last then finc s Fld.MEP_SCRUB_PASSES_SRAM else s

def execSramScrubRead (region : Fin 16) (off : Nat) (last : Bool) (e : MemErr) (s : State) : Out :=
  .next (sramScrub s region.val off last e)

/-- A write of MEP_INJ_CTRL with ARM (R408). -/
def wrInjCtrl (s : State) (v : Word) : State :=
  let s := genWrite s Reg.MEP_INJ_CTRL v
  if v.getLsbD 0 then fon s Fld.MEP_INJ_CTRL_ARM else s

def execInjectorArm (m : Master) (v : Word) (s : State) : Out :=
  .next (gated s m Reg.MEP_INJ_CTRL fun s => wrInjCtrl s (v ||| 1))

end Sys2Proof.Machine
end

