-- ==== Sys2Proof/Machine/Cards.lean ====
section
/-! DEFINITION. Release and listing of carded masters (R89–R91). -/
namespace Sys2Proof.Machine
open Sys2Proof

/-- The reset of a carded master has completed (R89). -/
def cardReset (s : State) (id : Nat) : State :=
  match SMap.find s.acm.cards id with
  | some c => { s with acm := { s.acm with cards := SMap.put s.acm.cards id { c with st := 2 } } }
  | none => s

/-- The master returns to service (R89): a port without CSTS.CFS, a pair as SPARE, a sequencer with its
channel initialised and its dies restored (R359), the others into their pools. -/
def cardReturn (s : State) (id : Nat) : State :=
  let k := id % 16777216
  match id / 16777216 with
  | 2 => portUpd s k fun x => { x with cfs := false }
  | 3 => fset { s with fab := { s.fab with passed := s.fab.passed.filter fun q => q != k } } (pairField k) 2
  | 4 => seqLoad (channelRestore (chanInit (channelBack s k) k) k) k
  | 5 => xtePool (xteShow s k)
  | 6 => pveShow s
  | 8 => fset s (Fld.DGE_INST_STATE k) 0
  | 9 => pkeShow s
  | _ => s

/-- CARD_RELEASE (R90). -/
def cardRelease (id : Nat) (s : State) : Ans × State :=
  match if midValid s id then SMap.find s.acm.cards id else none with
  | none => (ansSt ST_NOT_CARDED, s)
  | some c =>
    if c.st ≠ 2 ∨ !c.drained then (ansSt ST_RESET_PENDING, s)
    else
      let s := { s with acm := { s.acm with cards := SMap.del s.acm.cards id } }
      (ansOk [], cardReturn (post s 23 0x012 true c.code 0 id 0) id)

def execCardRelease (r : Rq) (s : State) : Out :=
  .next (mbxRun (opDef 0x0B01 (fun p => p.length == 8) fun _ p s => cardRelease (u32 p 0) s) r s)

/-- An entry of CARD_LIST; for OBSERVER the index of a slice or port reads 0 (R91). -/
def cardEntry (blind : Bool) (id : Nat) (c : Card) : List Byte :=
  let t := id / 16777216
  let id := if blind && (t == 1 || t == 2) then t * 16777216 else id
  le 4 id ++ le 2 c.code ++ le 1 c.st ++ le 1 (b2n c.drained) ++ le 8 c.time

/-- CARD_LIST (R91), in ascending master ID. -/
def cardList (c : Caller) (first count : Nat) (s : State) : Ans :=
  let l := (s.acm.cards.drop first).take count
  let obs := c.cls == .observer
  { st := ST_OK, blind := obs && l.any fun e => e.1 / 16777216 == 1 || e.1 / 16777216 == 2,
    pay := le 2 s.acm.cards.length ++ le 2 l.length ++ zeros 4 ++ l.flatMap fun e => cardEntry obs e.1 e.2 }

def execCardList (r : Rq) (s : State) : Out :=
  .next (mbxRun (opDef 0x0B02 (fun p => p.length == 4 && decide (1 ≤ u16 p 2 ∧ u16 p 2 ≤ 250)) fun c p s =>
    (cardList c (u16 p 0) (u16 p 2) s, s)) r s)

end Sys2Proof.Machine
end

