-- ==== Sys2Proof/Machine/Slices.lean ====
section
/-! DEFINITION. The slice manager: creation, bindings, shares, resets, namespaces, classes (chapters 05, 07), and their
opcodes. -/
namespace Sys2Proof.Machine
open Sys2Proof

/-! ### What the registers show -/

/-- The shares a slice has from the next epoch on. -/
def sharesNext (x : Slice) : Shares := x.next.getD x.shares

/-- The sum of POWER_SHARE over slices other than `n` (R175): in force, and as last accepted. -/
def powerSum (s : State) (n : Nat) : Nat :=
  s.slm.slices.foldl (fun k e => if e.1 = n then k else k + e.2.shares.power) 0

def powerNext (s : State) (n : Nat) : Nat :=
  s.slm.slices.foldl (fun k e => if e.1 = n then k else k + (sharesNext e.2).power) 0

/-- I/O queues of a table: the admin queues have identifier 0. -/
def ioCount {α : Type} (m : SMap α) : Nat := SMap.cnt m fun k _ => k % 65536 != 0

/-- SLM_TOTALS, SLM_QUEUE_TOTALS, SLM_POWER_SUM, SLM_RESETS.RUNNING. -/
def slmShow (s : State) : State :=
  let s := fset s Fld.SLM_TOTALS_DEFINED s.slm.slices.length
  let s := fset s Fld.SLM_TOTALS_ISOLATED (SMap.cnt s.slm.slices fun _ x => x.iso)
  let s := fset (fset s Fld.SLM_QUEUE_TOTALS_SQS (ioCount s.hst.sqs)) Fld.SLM_QUEUE_TOTALS_CQS (ioCount s.hst.cqs)
  let s := fset s Fld.SLM_POWER_SUM_SUM (s.slm.slices.foldl (fun k e => k + e.2.shares.power) 0)
  fset s Fld.SLM_RESETS_RUNNING (SMap.cnt s.slm.slices fun _ x => x.resetting)

/-- A queue of the table belongs to slice `x` on some port (R166). -/
def queueIn (x : Slice) (key : Nat) : Bool :=
  x.slots.any fun b => key / 65536 == b.1 && key % 65536 / 64 == b.2

/-- The slice that holds a queue's slot. -/
def queueSlice (s : State) (key : Nat) : Option Nat := (s.slm.slices.find? fun e => queueIn e.2 key).map (·.1)

/-- Namespaces of a slice. -/
def sliceNs (s : State) (n : Nat) : SMap Ns := SMap.keep s.zne.ns fun _ x => x.slice == n

/-- Zones of a slice's namespaces that satisfy `p`. -/
def sliceZones (s : State) (n : Nat) (p : Zone → Bool) : Nat :=
  (sliceNs s n).foldl (fun k e => if e.2.zoned then k + countZones s (some e.2) p else k) 0

/-- Changes a slice. -/
def sliceUpd (s : State) (n : Nat) (f : Slice → Slice) : State :=
  { s with slm := { s.slm with slices := SMap.upd s.slm.slices n f } }

/-- A Namespace Attribute Notice on the ports whose configuration enables it (R173). -/
def nsNotice (s : State) (ports : List Nat) : State :=
  ports.foldl (fun s p => if (portGet s p).feat.aec.testBit 8 then raiseEvent s p 0x040002 else s) s

/-- Ports a slice is bound to. -/
def slicePorts (s : State) (n : Nat) : List Nat :=
  match SMap.find s.slm.slices n with | some x => x.slots.map (·.1) | none => []

/-- A changed definition as numbers: a slice, a namespace, a class entry, a slice's class mask; nothing where it is gone. -/
def defWords (s : State) (kind n : Nat) : List Nat :=
  match kind with
  | 0 =>
    match SMap.find s.slm.slices n with
    | some x => [x.pasid, x.dmaBase, x.dmaLimit, b2n x.iso, x.groups.foldl (fun m g => m + 2 ^ g) 0 % 2 ^ 64, x.groups.foldl (fun m g => m + 2 ^ g) 0 / 2 ^ 64,
        x.shares.weight, x.shares.cap, x.shares.lat, x.shares.power] ++ x.slots.flatMap fun e => [e.1, e.2]
    | none => []
  | 1 =>
    match SMap.find s.zne.ns n with
    | some x => [x.slice, b2n x.zoned, x.zlog, x.lbaf, x.cap, x.maxOpen, x.maxAct, x.base]
    | none => []
  | 2 => let e := classOf s n; [e.groups % 2 ^ 64, e.groups / 2 ^ 64, e.mode + 256 * b2n e.valid + 512 * b2n e.iso + 1024 * b2n e.par7 + 2048 * b2n e.spill,
      e.fold + 256 * e.foldMode + 65536 * e.lifeMap + 4294967296 * e.eager]
  | _ => match SMap.find s.slm.slices n with | some x => [x.mask, x.dflt] | none => []

/-- The record of a changed definition (R163, R323): what kind it is, its number, and the entry. -/
def journalDef (s : State) (kind n : Nat) : State := journal s 9 ([4 + kind, n] ++ defWords s kind n)

/-! ### Creation and deletion -/

/-- How many VALID classes name a group. -/
def classUses (s : State) (g : Nat) : Nat := SMap.cnt s.plc.classes fun _ e => e.valid && e.groups.testBit g

/-- A group that can be dedicated (R251). -/
def isoFree (s : State) (g : Nat) : Bool :=
  grp s Fld.PLC_GRP_PRESENT_GROUPS g && grp s Fld.PLC_GRP_EMPTY_GROUPS g && !grp s Fld.PLC_GRP_DEGRADED_GROUPS g &&
  !grp s Fld.PLC_GRP_CLOSED_GROUPS g && !grp s Fld.PLC_GRP_DEDICATED_GROUPS g

/-- The choice's order: held groups, then fewest classes, then the channel set with the fewest chosen, then the number. -/
def isoRank (s : State) (got : List Nat) (g : Nat) : Nat :=
  let held := b2n (!grp s Fld.PLC_GRP_HOLD_GROUPS g)
  ((held * 128 + classUses s g) * 128 + got.countP fun x => x % 4 == g % 4) * 128 + g

/-- Chooses `n` groups, one after the other. -/
def isoPick (s : State) : Nat → List Nat → Option (List Nat)
  | 0, got => some got
  | n + 1, got =>
    let c := (groupCount s).filter fun g => isoFree s g && !got.contains g
    match c with
    | [] => none
    | g :: gs => isoPick s n (got ++ [gs.foldl (fun b x => if isoRank s got x < isoRank s got b then x else b) g])

/-- Every class in use without ISOLATED keeps enough eligible groups (R251). -/
def sharedKept (s : State) (got : List Nat) : Bool :=
  s.plc.classes.all fun e =>
    !e.2.valid || e.2.iso || !(s.slm.slices.any fun x => x.2.mask.testBit e.1) ||
    decide (fget s Fld.PLC_MIN_SHARED_GROUPS ≤
      ((groupCount s).countP fun g => eligible s none e.2.groups g && !got.contains g))

/-- XTE instances for an isolated slice of `g` groups (R252). -/
def isoXte (s : State) (g : Nat) : Option (List Nat) :=
  let n := 1 + (g - 1) / 8
  let shared := (List.range 64).filter fun i => xteUp s i && !(xteDed s).contains i
  if 48 < (xteDed s).length + n ∨ shared.length < n then none else some (shared.take n)

/-- Step 6 of R615: groups and instances. -/
def isoSet (s : State) (g : Nat) : Option (List Nat × List Nat) :=
  match isoPick s g [], isoXte s g with
  | some gs, some xs => if sharedKept s gs && isoQuotaFits s then some (gs, xs) else none
  | _, _ => none

/-- The fields of a SLICE_CREATE request lie within their ranges (step 3 of R615). -/
def createFits (p : List Byte) : Bool :=
  let iso := (u8 p 2).testBit 0
  let g := u8 p 3
  let base := u64 p 8
  let lim := u64 p 16
  (if iso then decide (1 ≤ g ∧ g ≤ 64 ∧ 1 ≤ u16 p 26) else g == 0) &&
  decide (1 ≤ u32 p 4 % 1048576) && base % 4096 == 0 && lim % 4096 == 4095 && decide (base < lim) &&
  decide (1 ≤ u8 p 24 ∧ u8 p 25 ≤ 3 ∧ u16 p 26 ≤ 1023)

/-- A new slice. -/
def sliceNew (p : List Byte) (groups xte : List Nat) : Slice :=
  let iso := (u8 p 2).testBit 0
  { resetting := false, since := 0, cause := 0, pasid := u32 p 4 % 1048576, dmaBase := u64 p 8, dmaLimit := u64 p 16,
    iso := iso, groups := groups, xte := xte,
    shares := { weight := u8 p 24, cap := u16 p 28, lat := u8 p 25, power := u16 p 26 }, next := none, slots := [],
    resets := 0, lastReset := 0, bytes := 0, lastBytes := 0, mask := if iso then 8 else 7, dflt := if iso then 3 else 0,
    duR := 0, duW := 0, cmdR := 0, cmdW := 0 }

/-- The slice exists from now on: its quotas, groups and instances are its own (R251, R252, R370, R371). -/
def sliceAdd (s : State) (n : Nat) (x : Slice) : State :=
  let s := (List.range 4).foldl (fun s k => let q := sliceQuota s x.iso k; quotaPut s n k q.1 q.2) s
  let s := { s with slm := { s.slm with slices := SMap.put s.slm.slices n x } }
  let s := x.groups.foldl (fun s g => grpSet s Fld.PLC_GRP_DEDICATED_GROUPS g true) s
  let s := if x.iso then xteDedShow (xtePool s) else s
  slmShow (journalDef (bpUpdate s) 0 n)

/-- SLICE_CREATE (R615). -/
def sliceCreate (p : List Byte) (s : State) : Ans × State :=
  let n := u16 p 0
  let iso := (u8 p 2).testBit 0
  if 1023 < n then (ansSt ST_SLICE_PARAM, s)
  else if (SMap.find s.slm.slices n).isSome then (ansSt ST_SLICE_IN_USE, s)
  else if !createFits p then (ansSt ST_SLICE_PARAM, s)
  else if SMap.anyv s.slm.slices fun _ x => x.pasid == u32 p 4 % 1048576 then (ansSt ST_PASID_IN_USE, s)
  else if 1024 < max (powerSum s n) (powerNext s n) + u16 p 26 then (ansSt ST_SLICE_LIMIT, s)
  else if iso then
    match isoSet s (u8 p 3) with
    | some (gs, xs) => (ansOk [], sliceAdd s n { sliceNew p gs xs with held := gs.filter (grp s Fld.PLC_GRP_HOLD_GROUPS) })
    | none => (ansSt ST_ISOLATION_EXHAUSTED, fon s Fld.PLC_EVENTS_ISO_EXHAUSTED)
  else (ansOk [], sliceAdd s n (sliceNew p [] []))

def execSliceCreate (r : Rq) (s : State) : Out :=
  .next (mbxRun (opDef 0x0201 (fun p => p.length == 32) fun _ p s => sliceCreate p s) r s)

/-- The dedicated groups of a deleted slice are erased in the background (R253): nothing in them is valid or open. -/
def groupsErase (s : State) (n : Nat) (gs : List Nat) : State :=
  let mine := fun (g : Nat) => gs.contains g
  let plc := { s.plc with
    stripes := SMap.keep s.plc.stripes fun _ x => !mine x.group,
    opens := SMap.keep s.plc.opens fun k _ => !mine (k % 128),
    streams := SMap.keep s.plc.streams fun k _ => keyIso k != some n,
    erasing := s.plc.erasing ++ gs }
  let use := SMap.mapv s.med.inUse fun k u => if mine (k / 1048576) then { u with valid := 0, full := true } else u
  let s := streamsRefresh { s with plc := plc, med := { s.med with inUse := use } }
  gs.foldl (fun s g =>
    (s.med.inUse.filter fun e => e.1 / 1048576 == g).foldl (fun s e => sbErase s g (e.1 % 1048576)) s) s

/-- The slice ceases to exist: its quotas go, its instances return to the pool at once (R253). -/
def sliceRemove (s : State) (n : Nat) (x : Slice) : State :=
  let s := if x.iso then groupsErase s n x.groups else s
  let s := (List.range 4).foldl (fun s k => quotaPut s n k 0 0) s
  let s := { s with slm := { s.slm with slices := SMap.del s.slm.slices n } }
  let s := if x.iso then xteDedShow (xtePool s) else s
  slmShow (journalDef (bpUpdate s) 0 n)

/-- SLICE_DELETE: no port binding and no namespace may remain. -/
def sliceDelete (n : Nat) (s : State) : Ans × State :=
  match SMap.find s.slm.slices n with
  | none => (ansSt ST_NO_SLICE, s)
  | some x =>
    if x.resetting then (ansSt ST_RESETTING, s)
    else if !x.slots.isEmpty || !(sliceNs s n).isEmpty then (ansSt ST_SLICE_IN_USE, s)
    else (ansOk [], sliceRemove s n x)

def execSliceDelete (r : Rq) (s : State) : Out :=
  .next (mbxRun (opDef 0x0202 (fun p => p.length == 4) fun _ p s => sliceDelete (u16 p 0) s) r s)

/-! ### Bindings -/

/-- Whether a slot is held on a port. -/
def slotHeld (s : State) (p t : Nat) : Bool := SMap.anyv s.slm.slices fun _ x => SMap.find x.slots p == some t

/-- The lowest free slot of a port. -/
def slotFree (s : State) (p : Nat) : Option Nat := ((List.range 1023).map (· + 1)).find? fun t => !slotHeld s p t

/-- Queues or bound channels of a slice on a port. -/
def boundOn (s : State) (n p t : Nat) : Bool :=
  let q := fun (k : Nat) => k / 65536 == p && k % 65536 / 64 == t
  SMap.anyv s.hst.sqs (fun k _ => q k) || SMap.anyv s.hst.cqs (fun k _ => q k) ||
  (List.range 8).any fun c => chanSlice s (8 * p + c) == some n

/-- A binding changes (R173). -/
def bindDone (s : State) (n p : Nat) : State := slmShow (nsNotice (journalDef s 0 n) [p])

/-- SLICE_BIND_PORT (R185, R615). -/
def bindPort (pl : List Byte) (s : State) : Ans × State :=
  let n := u16 pl 0
  let p := u8 pl 2
  let t := u16 pl 4
  let answer := fun (v : Nat) => ansOk (le 2 v ++ zeros 2)
  match SMap.find s.slm.slices n with
  | none => (ansSt ST_NO_SLICE, s)
  | some x =>
    if x.resetting then (ansSt ST_RESETTING, s)
    else if 3 < p ∨ !portThere s p ∨ ((u8 pl 3).testBit 0 ∧ 1023 < t) then (ansSt ST_SLICE_PARAM, s)
    else
      match (u8 pl 3).testBit 0, SMap.find x.slots p with
      | true, some t' => if t = 0 ∨ t = t' then (answer t', s) else (ansSt ST_SLICE_IN_USE, s)
      | true, none =>
        if 2 ≤ x.slots.length then (ansSt ST_SLICE_LIMIT, s)
        else
          match (if t = 0 then slotFree s p else if slotHeld s p t then none else some t) with
          | some v => (answer v, bindDone (sliceUpd s n fun x => { x with slots := SMap.put x.slots p v }) n p)
          | none => (ansSt ST_SLICE_IN_USE, s)
      | false, some t' =>
        if boundOn s n p t' then (ansSt ST_SLICE_IN_USE, s)
        else (answer t', bindDone (sliceUpd s n fun x => { x with slots := SMap.del x.slots p }) n p)
      | false, none => (answer 0, s)

/-- SLICE_BIND_PORT as an opcode. -/
def bindPortDef : OpDef := opDef 0x0203 (fun p => p.length == 8) fun _ p s => bindPort p s

def execSliceBindPort (r : Rq) (s : State) : Out := .next (mbxRun bindPortDef r s)

def execSliceUnbindPort (r : Rq) (s : State) : Out := .next (mbxRun bindPortDef r s)

/-- SLICE_BIND_CHANNEL (R103, R185, R615). The checks on the binding answer before ST_BUSY of a channel that is not idle (DESIGN
CHOICE, notes/assumptions/78.md). -/
def bindChannel (pl : List Byte) (s : State) : Ans × State :=
  let n := u16 pl 0
  let p := u8 pl 2
  let c := u8 pl 3
  match SMap.find s.slm.slices n with
  | none => (ansSt ST_NO_SLICE, s)
  | some x =>
    if x.resetting then (ansSt ST_RESETTING, s)
    else if 3 < p ∨ 7 < c ∨ !portThere s p then (ansSt ST_SLICE_PARAM, s)
    else
      let bound := Fld.MBX_BIND_BOUND p c
      match (u8 pl 4).testBit 0, chanSlice s (8 * p + c) with
      | true, some m => (if m = n then ansOk [] else ansSt ST_SLICE_IN_USE, s)
      | true, none =>
        if (SMap.find x.slots p).isNone then (ansSt ST_SLICE_PARAM, s)
        else if !chanIdle s (8 * p + c) then (ansSt ST_BUSY, s)
        else (ansOk [], journalDef (fon (fset s (Fld.MBX_BIND_SLICE p c) n) bound) 0 n)
      | false, some m =>
        if m ≠ n then (ansSt ST_SLICE_IN_USE, s)
        else if !chanIdle s (8 * p + c) then (ansSt ST_BUSY, s)
        else (ansOk [], journalDef (foff (fset s (Fld.MBX_BIND_SLICE p c) 0) bound) 0 n)
      | false, none => (ansOk [], s)

/-- SLICE_BIND_CHANNEL as an opcode. -/
def bindChannelDef : OpDef := opDef 0x0207 (fun p => p.length == 8) fun _ p s => bindChannel p s

def execSliceBindChannel (r : Rq) (s : State) : Out := .next (mbxRun bindChannelDef r s)

def execSliceUnbindChannel (r : Rq) (s : State) : Out := .next (mbxRun bindChannelDef r s)

/-! ### Shares -/

/-- A share change is accepted or refused (R174–R177). -/
def sharesSet (s : State) (n : Nat) (v : Shares) : Nat × State :=
  match SMap.find s.slm.slices n with
  | none => (ST_NO_SLICE, s)
  | some x =>
    if x.resetting then (ST_RESETTING, s)
    else if v.weight = 0 ∨ 255 < v.weight ∨ 3 < v.lat ∨ 1023 < v.power ∨ 65535 < v.cap ∨ (x.iso ∧ v.power = 0) then (ST_SLICE_PARAM, s)
    else if 1024 < powerNext s n + v.power then (ST_SLICE_LIMIT, s)
    else (ST_OK, journalDef (sliceUpd s n fun x => { x with next := some v }) 0 n)

/-- The first epoch that starts after now (R177). -/
def nextEpoch (s : State) : Nat := epochOf (now s) + 1

def setShares (p : List Byte) (s : State) : Ans × State :=
  let r := sharesSet s (u16 p 0) { weight := u8 p 2, lat := u8 p 3, power := u16 p 4, cap := u16 p 6 }
  (if r.1 = ST_OK then ansOk (le 8 (nextEpoch s)) else ansSt r.1, r.2)

def execSliceSetShares (r : Rq) (s : State) : Out :=
  .next (mbxRun (opDef 0x0204 (fun p => p.length == 8) fun _ p s => setShares p s) r s)

/-- The slice that a master has selected in SLM_SEL. -/
def slmSel (s : State) (m : Master) : Nat := selGet s (masterNo m) Fld.SLM_SEL_SLICE

/-- A write of SLM_V_SHARE_NEXT, or of SLM_V_BW_CAP (`cap`), stages the values of both (R188). -/
def shareStage (s : State) (m : Master) (cap : Bool) (v : Word) : State :=
  let n := slmSel s m
  match SMap.find s.slm.slices n with
  | none => s
  | some x =>
    let o := sharesNext x
    (sharesSet s n (if cap then { o with cap := bits v.toNat 16 16 }
      else { o with weight := bits v.toNat 0 8, lat := bits v.toNat 8 2, power := bits v.toNat 16 10 })).2

def execSlmShareStage (m : Master) (cap : Bool) (v : Word) (s : State) : Out :=
  .next (gated s m (if cap then Reg.SLM_V_BW_CAP else Reg.SLM_V_SHARE_NEXT) fun s => shareStage s m cap v)

/-! ### Slice reset (R180–R182) -/

/-- A slice's fetched commands stop: their work is squashed and nothing more happens to them until step 5. -/
def ctxHalt (s : State) (n : Nat) : State :=
  (s.hst.ctx.filter fun e => e.2.slice == some n).foldl (fun s e =>
    ctxUpd (actionsOrphan (ctxSquash s e.1) e.1) e.1 fun c => { c with st := .running, units := [], range := none }) s

/-- Steps 1 to 4: cause 1 opcode, 2 register; a carded slice's reset is the one its card requires. -/
def sliceResetStart (s : State) (n cause : Nat) : Nat × State :=
  match SMap.find s.slm.slices n with
  | none => (ST_NO_SLICE, s)
  | some x =>
    if x.resetting then (ST_OK, s)
    else
      let c := if carded s (midSlice n) then 3 else cause
      let s := sliceUpd s n fun x => { x with resetting := true, since := now s, cause := c }
      (ST_OK, slmShow (sliceSquash (ctxHalt s n) n))

def execSliceReset (r : Rq) (s : State) : Out :=
  .next (mbxRun (opDef 0x0205 (fun p => p.length == 4) fun _ p s =>
    let a := sliceResetStart s (u16 p 0) 1
    (if a.1 = ST_OK then ansOk [] else ansSt a.1, a.2)) r s)

/-- A write of SLM_V_RESET: START acts as the opcode. -/
def wrSliceReset (s : State) (m : Master) (v : Word) : State :=
  if bit v.toNat 0 then (sliceResetStart s (slmSel s m) 2).2 else s

def execSlmResetStart (m : Master) (v : Word) (s : State) : Out :=
  .next (gated s m Reg.SLM_V_RESET fun s => wrSliceReset s m v)

/-- The queues of a slice cease to exist; a deletion that waited for one completes with success (R182). -/
def sliceQueuesDrop (s : State) (x : Slice) : State :=
  let gone := s.hst.sqs.filter fun e => queueIn x e.1
  let sqs := SMap.keep s.hst.sqs fun k _ => !queueIn x k
  let cqs := SMap.keep s.hst.cqs fun k _ => !queueIn x k
  let s := { s with hst := { s.hst with sqs := sqs, cqs := cqs } }
  gone.foldl (fun s e => match e.2.del with | some c => ctxEnd s c 0 0 0 | none => s) s

/-- Steps 5 and 6: contexts are released, queues cease to exist, the slice is ACTIVE (R180, R382, R584). -/
def sliceResetEnd (s : State) (n : Nat) : State :=
  match SMap.find s.slm.slices n with
  | none => s
  | some x =>
    if !x.resetting then s
    else
      let s := ctxVanish s fun c => c.slice == some n
      let s := quarantineEnd (sliceQueuesDrop s x) fun b => b.acct == n
      let s := sliceUpd s n fun x => { x with resetting := false, resets := x.resets + 1, lastReset := now s }
      let s := cardReset (finc s Fld.SLM_RESETS_COMPLETED) (midSlice n)
      psRefresh (slmShow (post s 2 1 true x.cause ((now s - x.since) / 1000) n 0))

def execSliceResetComplete (n : Nat) (s : State) : Out := .next (sliceResetEnd s n)

/-- SLICE_QUERY's bytes 0–39. -/
def querySlice (s : State) (n : Nat) (x : Slice) : List Byte :=
  let sqs := SMap.cnt s.hst.sqs fun k _ => queueIn x k
  let cqs := SMap.cnt s.hst.cqs fun k _ => queueIn x k
  le 2 n ++ le 1 (if x.resetting then 2 else 1) ++ le 1 (b2n (carded s (midSlice n)) + 2 * b2n x.iso) ++ le 4 x.pasid ++
  le 1 (x.slots.foldl (fun k e => k + 2 ^ e.1) 0) ++ le 1 x.shares.lat ++ le 1 x.shares.weight ++ [0] ++
  le 2 x.shares.power ++ le 2 x.shares.cap ++ le 1 sqs ++ le 1 cqs ++ le 1 (sliceNs s n).length ++ [0] ++
  le 4 (sliceZones s n zOpen) ++ le 4 (sliceZones s n zActive) ++ le 4 x.resets ++ le 8 x.lastReset

/-- SLICE_QUERY (R185, R186). -/
def sliceQuery (c : Caller) (q : Nat) (s : State) : Ans :=
  let tot := le 2 s.slm.slices.length ++ le 2 (ioCount s.hst.sqs) ++ le 2 (ioCount s.hst.cqs) ++ zeros 2
  match c.cls with
  | .observer => { st := ST_OK, pay := zeros 40 ++ tot, blind := true }
  | .slice =>
    let n := if q = 0xFFFF then c.slice.getD q else q
    if c.slice ≠ some n then ansSt ST_DENIED
    else
      match SMap.find s.slm.slices n with
      | some x => { st := ST_OK, pay := querySlice s n x ++ zeros 8, blind := true }
      | none => ansSt ST_DENIED
  | _ =>
    match SMap.find s.slm.slices q with
    | some x => ansOk (querySlice s q x ++ tot)
    | none => ansSt ST_NO_SLICE

def execSliceQuery (r : Rq) (s : State) : Out :=
  .next (mbxRun (opDef 0x0206 (fun p => p.length == 4) fun c p s => (sliceQuery c (u16 p 0) s, s)) r s)

/-! ### Namespaces -/

/-- First fit (R190): the lowest start at which `n` entries are free below `lim`, given the ranges in use. -/
def firstFit (used : List (Nat × Nat)) (lim n : Nat) : Option Nat :=
  ((0 :: used.map fun u => u.1 + u.2).filter fun b =>
    decide (b + n ≤ lim) && used.all fun u => decide (b + n ≤ u.1 ∨ u.1 + u.2 ≤ b)).foldl (fun m b =>
      match m with | some x => some (min x b) | none => some b) none

/-- Descriptor ranges, or map ranges, in use. -/
def nsRanges (s : State) (zoned : Bool) : List (Nat × Nat) :=
  (s.zne.ns.filter fun e => e.2.zoned == zoned).map fun e => (e.2.base, if zoned then zoneCount e.2 else e.2.cap)

/-- A namespace of an isolated slice pins its MAX_ACTIVE descriptors (R201). -/
def pinned (s : State) : Nat :=
  s.zne.ns.foldl (fun k e => if e.2.zoned && (isoNs s e.2).isSome then k + e.2.maxAct else k) 0

/-- Steps 1 to 9 of R191 on a namespace without its base: a status, or ST_OK with the base. -/
def nsCheck (s : State) (iso : Bool) (ty zlog : Nat) (x : Ns) : Nat × Nat :=
  let form := (ty == 0 && zlog == 0 && x.lbaf == 0) || (ty == 1 && decide (28 ≤ zlog ∧ zlog ≤ 32) && decide (x.lbaf ≤ 1))
  let total := s.zne.ns.foldl (fun k e => k + e.2.cap) 0
  let lim := if x.zoned then 4194304 else fget s Fld.CMP_REGION_UNITS
  if !form then (ST_ZONE_PARAM, 0)
  else if x.cap = 0 ∨ (x.zoned ∧ x.cap % 2 ^ (zlog - 12) ≠ 0) then (ST_ZONE_PARAM, 0)
  else if x.zoned ∧ (65536 < x.maxOpen ∨ 65536 < x.maxAct ∨ (x.maxOpen ≠ 0 ∧ x.maxAct ≠ 0 ∧ x.maxAct < x.maxOpen)) then
    (ST_ZONE_PARAM, 0)
  else if x.zoned ∧ iso ∧ x.maxAct = 0 then (ST_ZONE_PARAM, 0)
  else if fone s Fld.ZNE_EOL_READ_ONLY then (ST_READ_ONLY, 0)
  else
    match firstFit (nsRanges s x.zoned) lim (if x.zoned then zoneCount x else x.cap) with
    | none => (if x.zoned then ST_ZONE_TABLE_FULL else ST_CONV_REGION_FULL, 0)
    | some b =>
      if pget s Reg.LDC_MED_EXPORT_LO Reg.LDC_MED_EXPORT_HI < total + x.cap then (ST_CAPACITY, 0)
      else if !x.zoned ∧ iso ∧ reservable s (some x.slice) < x.cap then (ST_CAPACITY, 0)
      else if x.zoned ∧ 65536 < activeReserved s + x.maxAct then (ST_ACTIVE_RESERVE, 0)
      else if x.zoned ∧ iso ∧ 16384 < pinned s + x.maxAct then (ST_PIN_LIMIT, 0)
      else (ST_OK, b)


/-- A namespace is created (R170). -/
def nsAdd (s : State) (id : Nat) (x : Ns) : State :=
  let s := { s with zne := { s.zne with ns := SMap.put s.zne.ns id x } }
  zneRefresh (nsNotice (journalDef s 1 id) (slicePorts s x.slice))

/-- NS_CREATE. -/
def nsCreate (p : List Byte) (s : State) : Ans × State :=
  let n := u16 p 0
  let zoned := u8 p 2 != 0
  match SMap.find s.slm.slices n with
  | none => (ansSt ST_NO_SLICE, s)
  | some sl =>
    if sl.resetting then (ansSt ST_RESETTING, s)
    else
      match (List.range 16).find? fun k => (SMap.find s.zne.ns (16 * n + k + 1)).isNone with
      | none => (ansSt ST_SLICE_LIMIT, s)
      | some k =>
        let x : Ns := { slice := n, zoned := zoned, zlog := u8 p 3, lbaf := u8 p 4, cap := u64 p 8,
                        maxOpen := if zoned then u32 p 16 else 0, maxAct := if zoned then u32 p 20 else 0, base := 0 }
        let r := nsCheck s sl.iso (u8 p 2) (u8 p 3) x
        if r.1 ≠ ST_OK then (ansSt r.1, s)
        else (ansOk (le 4 (16 * n + k + 1)), nsAdd s (16 * n + k + 1) { x with base := r.2 })

def execNsCreate (r : Rq) (s : State) : Out :=
  .next (mbxRun (opDef 0x0208 (fun p => p.length == 32) fun _ p s => nsCreate p s) r s)

/-- A namespace's zones and map entries are released and its identifier removed (R172). -/
def nsRemove (s : State) (id : Nat) (x : Ns) : State :=
  let s := nsEmpty s id x
  let mine := fun (i : Nat) => x.zoned && decide (x.base ≤ i ∧ i < x.base + zoneCount x)
  let zne := { s.zne with
    ns := SMap.del s.zne.ns id, zones := SMap.keep s.zne.zones fun i _ => !mine i,
    releasing := SMap.del s.zne.releasing id, cache := s.zne.cache.filter fun i => !mine i }
  let s := { s with zne := zne }
  kstShow (zneRefresh (nsNotice (journalDef s 1 id) (slicePorts s x.slice)))

/-- NS_DELETE (R172). -/
def nsDelete (id : Nat) (s : State) : Ans × State :=
  match SMap.find s.zne.ns id with
  | none => (ansSt ST_NO_SLICE, s)
  | some x =>
    let busy : Bool := match SMap.find s.slm.slices x.slice with | some sl => sl.resetting | none => false
    if busy then (ansSt ST_RESETTING, s)
    else if (nsSlot s id).isSome then (ansSt ST_KEY_BOUND, s)
    else (ansOk [], nsRemove s id x)

def execNsDelete (r : Rq) (s : State) : Out :=
  .next (mbxRun (opDef 0x0209 (fun p => p.length == 8) fun _ p s => nsDelete (u32 p 0) s) r s)

/-! ### Placement classes (R231–R237, R262) -/

/-- A class entry's 32 bytes (R231). -/
def classBytes (e : ClassEnt) : List Byte :=
  le 16 e.groups ++ le 1 e.mode ++ le 1 (b2n e.valid + 2 * b2n e.iso + 4 * b2n e.par7 + 8 * b2n e.spill) ++ le 1 e.fold ++
  le 1 e.foldMode ++ le 2 e.lifeMap ++ le 2 e.eager ++ zeros 8

/-- The entry that 32 bytes spell. -/
def classParse (p : List Byte) : ClassEnt :=
  let f := u8 p 17
  { groups := u64 p 0 + 2 ^ 64 * u64 p 8, mode := u8 p 16, valid := f.testBit 0, iso := f.testBit 1, par7 := f.testBit 2,
    spill := f.testBit 3, fold := u8 p 18, foldMode := u8 p 19, lifeMap := u16 p 20, eager := u16 p 22 }

/-- The rules of R232 on a VALID entry. -/
def classFits (e : ClassEnt) : Bool :=
  (if e.mode = 0 then decide (e.fold ≤ 2) && decide (1 ≤ e.foldMode ∧ e.foldMode ≤ 2)
   else decide (e.mode ≤ 3) && e.fold == 3 && e.foldMode == 0 && !e.spill) &&
  (e.iso == (e.groups == 0)) && (if e.fold = 2 then decide (15 ≤ e.eager) else e.eager == 0)

/-- A class is set in some slice's mask or held by an active zone (R234). -/
def classInUse (s : State) (c : Nat) : Bool :=
  SMap.anyv s.slm.slices (fun _ x => x.mask.testBit c) || SMap.anyv s.zne.zones fun _ z => zActive z && z.cls == c

/-- CLASS_WRITE (R234). -/
def classWrite (c : Nat) (e : ClassEnt) (s : State) : Ans × State :=
  let o := classOf s c
  let heavy := o.mode != e.mode || o.iso != e.iso || o.par7 != e.par7 || o.foldMode != e.foldMode || (o.valid && !e.valid)
  if 63 < c ∨ (e.valid ∧ !classFits e) then (ansSt ST_CLASS_INVALID, s)
  else if heavy ∧ classInUse s c then (ansSt ST_CLASS_IN_USE, s)
  else if e.valid && !e.iso && !((groupCount s).any fun g =>
      e.groups.testBit g && grp s Fld.PLC_GRP_PRESENT_GROUPS g && !grp s Fld.PLC_GRP_DEDICATED_GROUPS g) then
    (ansSt ST_CLASS_EMPTY_SET, s)
  else (ansOk [], journalDef { s with plc := { s.plc with classes := SMap.putD s.plc.classes c ClassEnt.empty e } } 2 c)

def execClassWrite (r : Rq) (s : State) : Out :=
  .next (mbxRun (opDef 0x0302 (fun p => p.length == 36) fun _ p s => classWrite (u8 p 0) (classParse (slice p 4 32)) s) r s)

/-- CLASS_READ. -/
def classRead (first n : Nat) (s : State) : Ans :=
  if n = 0 ∨ 64 < first + n then ansSt ST_CLASS_INVALID
  else ansOk (le 1 n ++ zeros 3 ++ (List.range n).flatMap fun i => classBytes (classOf s (first + i)))

def execClassRead (r : Rq) (s : State) : Out :=
  .next (mbxRun (opDef 0x0301 (fun p => p.length == 4) fun _ p s => (classRead (u8 p 0) (u8 p 1) s, s)) r s)

/-- CLASS_MASK_SET (R237). -/
def classMaskSet (n dflt mask : Nat) (s : State) : Ans × State :=
  match SMap.find s.slm.slices n with
  | none => (ansSt ST_NO_SLICE, s)
  | some x =>
    let held := fun (c : Nat) => s.zne.zones.any fun e => zActive e.2 && e.2.cls == c &&
      (match nsOfZone s e.1 with | some (_, y) => y.slice == n | none => false)
    if x.resetting then (ansSt ST_RESETTING, s)
    else if !mask.testBit dflt || (List.range 64).any fun c =>
        mask.testBit c && (!(classOf s c).valid || (classOf s c).iso != x.iso) then (ansSt ST_CLASS_MASK, s)
    else if (List.range 64).any fun c => x.mask.testBit c && !mask.testBit c && held c then (ansSt ST_CLASS_IN_USE, s)
    else (ansOk [], journalDef (sliceUpd s n fun x => { x with mask := mask, dflt := dflt }) 3 n)

def execClassMaskSet (r : Rq) (s : State) : Out :=
  .next (mbxRun (opDef 0x0303 (fun p => p.length == 12) fun _ p s => classMaskSet (u16 p 0) (u8 p 2) (u64 p 4) s) r s)

/-- Groups whose bit is set in a bitmap. -/
def groupsIn (s : State) (f : Nat → Field) : Nat := (List.range 128).countP fun g => grp s f g

/-- Staging occupancy in %, at most 255 (R255). -/
def occupancy (s : State) : Nat :=
  let l := fget s Fld.PLC_STG_LIMIT_BLOCKS
  min 255 (if l = 0 then 255 else 100 * fget s Fld.PLC_STG_USED_BLOCKS / l)

/-- PLACEMENT_STATUS. -/
def placementStatus (_ : Caller) (s : State) : Ans :=
  let heldEmpty := (List.range 128).countP fun g =>
    grp s Fld.PLC_GRP_HOLD_GROUPS g && grp s Fld.PLC_GRP_EMPTY_GROUPS g && !grp s Fld.PLC_GRP_DEDICATED_GROUPS g
  ansOk (le 8 (rawBlocks s) ++ le 8 (fget s Fld.PLC_FREE_BLOCKS) ++ le 8 (fget s Fld.PLC_STG_MIN_BLOCKS) ++
    le 8 (fget s Fld.PLC_STG_LIMIT_BLOCKS) ++ le 8 (fget s Fld.PLC_STG_USED_BLOCKS) ++ le 1 (occupancy s) ++
    le 1 (groupsIn s Fld.PLC_GRP_PRESENT_GROUPS) ++ le 1 (groupsIn s Fld.PLC_GRP_DEGRADED_GROUPS) ++
    le 1 (groupsIn s Fld.PLC_GRP_CLOSED_GROUPS) ++ le 1 (groupsIn s Fld.PLC_GRP_HOLD_GROUPS) ++
    le 1 (groupsIn s Fld.PLC_GRP_DEDICATED_GROUPS) ++ le 1 (groupsIn s Fld.PLC_GRP_QUIET_GROUPS) ++ le 1 heldEmpty ++
    le 2 (fget s Fld.PLC_STREAMS_ACTIVE) ++ le 2 (xteDed s).length ++ zeros 4 ++ le 8 s.plc.spills ++ le 8 s.plc.waits)

def execPlacementStatus (r : Rq) (s : State) : Out := .next (mbxRun (opRead 0x0304 placementStatus) r s)

/-! ### The Umpire's opcodes (R434) -/

/-- UMP_STATUS: bytes 0–27, and 28–39 for a slice. -/
def umpTotals (s : State) : List Byte :=
  let flags := b2n s.ump.holdup + 2 * b2n s.ump.unmet + 4 * b2n (fone s Fld.UMP_VR_STATUS_FAULT) +
    8 * b2n (fone s Fld.UMP_PP_CTRL_CHANGING)
  le 2 (fget s Fld.UMP_BUDGET_IN_FORCE_W) ++ le 2 (fget s Fld.UMP_EFFECTIVE_W_EFF) ++ le 1 (effPs s) ++
  le 1 (fget s Fld.UMP_PP_CTRL_PP_NOW) ++ le 1 (fget s Fld.UMP_PP_CTRL_PP_MIN) ++ le 1 (fget s Fld.UMP_PP_CTRL_PP_MAX) ++
  le 1 (fget s Fld.UMP_EFFECTIVE_THERMAL) ++ le 1 flags ++ zeros 2 ++ le 4 (tokensDw s.ump.lastUsed) ++
  le 2 (sat 16 (s.ump.lastIcc / 100)) ++ le 2 (sat 16 (s.ump.lastIccq / 100)) ++ le 2 (fget s Fld.UMP_ICC_NOW_SENSED_100MA) ++
  le 2 (fget s Fld.UMP_ICCQ_NOW_SENSED_100MA) ++ le 4 s.ump.lastRefused

def umpSlice (s : State) (n : Nat) : List Byte :=
  let share := match SMap.find s.slm.slices n with | some x => x.shares.power | none => 0
  le 2 n ++ le 2 share ++ le 4 (if n ≤ 1023 then SMap.getD s.ump.floor n 0 else 0) ++
  le 4 (if n ≤ 1023 then tokensDw (SMap.getD s.ump.lastBy n 0) else 0)

def umpStatus (c : Caller) (n : Nat) (s : State) : Ans :=
  if c.cls = .observer then { st := ST_OK, pay := umpTotals s ++ zeros 12, blind := true }
  else if n ≠ 0xFFFF ∧ (SMap.find s.slm.slices n).isNone then ansSt ST_NO_SLICE
  else ansOk (umpTotals s ++ umpSlice s n)

def execUmpStatus (r : Rq) (s : State) : Out :=
  .next (mbxRun (opDef 0x0401 (fun p => p.length == 4) fun c p s => (umpStatus c (u16 p 0) s, s)) r s)

/-- UMP_SET_BUDGET and UMP_SET_PP_LIMIT: the value is kept in the settings area and applies from the next epoch. -/
def umpSetBudget (w : Nat) (s : State) : Ans × State :=
  if w < 20 ∨ 800 < w then (ansSt ST_BUDGET_RANGE, s)
  else if pulsesBlocked s then (ansSt ST_BROWNOUT, s)
  else (ansOk (le 8 (nextEpoch s)), setBudget (setPut s 1 (le 2 w)) w)

def execUmpSetBudget (r : Rq) (s : State) : Out :=
  .next (mbxRun (opDef 0x0402 (fun p => p.length == 4) fun _ p s => umpSetBudget (u16 p 0) s) r s)

def umpSetPpLimit (lo hi : Nat) (s : State) : Ans × State :=
  if 7 < hi ∨ hi < lo then (ansSt ST_PP_RANGE, s)
  else if pulsesBlocked s then (ansSt ST_BROWNOUT, s)
  else (ansOk (le 8 (nextEpoch s)), setPpLimit (setPut s 2 (le 1 lo ++ le 1 hi)) lo hi)

def execUmpSetPpLimit (r : Rq) (s : State) : Out :=
  .next (mbxRun (opDef 0x0403 (fun p => p.length == 4) fun _ p s => umpSetPpLimit (u8 p 0) (u8 p 1) s) r s)

/-! ### The epoch (R176) -/

/-- Shares latch, and the host data of the epoch that ends is shown (R176, R177, R179). -/
def sharesLatch (s : State) : State :=
  let slices := SMap.mapv s.slm.slices fun _ x => { x with shares := sharesNext x, next := none, lastBytes := x.bytes, bytes := 0 }
  slmShow { s with slm := { s.slm with slices := slices, epoch := epochOf (now s) } }

/-- Rebound budgets are refilled (R286, R287). -/
def reboundRefill (s : State) : State :=
  let pct := min 100 (fget s Fld.DSC_RB_CTRL_PCT)
  let fl := fget s Fld.DSC_RB_CTRL_FLOOR
  let t := max fl (pct * s.dsc.reads / 100)
  let iso := (s.slm.slices.filter fun e => e.2.iso).map fun e =>
    (e.1, max (fl * e.2.groups.length / 128) (pct * SMap.getD s.dsc.isoReads e.1 0 / 100))
  fset { s with dsc := { s.dsc with tokens := t, isoTok := iso, reads := 0, isoReads := [] } } Fld.DSC_RB_TOKENS_TOKENS (sat 24 t)

/-- The run-record reserve of an isolated slice: fixed at the first epoch start after its creation or a change of its POWER_SHARE
(R219). -/
def recordReserve (s : State) (n power : Nat) : Nat :=
  if SMap.find s.zne.recShare n = some power then SMap.getD s.zne.recResv n 0
  else fget s Fld.ZNE_STG_RECORDS_RECORDS * power / 1024

/-- Dirty reserves and run-record reserves of the isolated slices (R219, R448). -/
def reservesSet (s : State) : State :=
  let mine := s.slm.slices.filter fun e => e.2.iso
  let rr := mine.map fun e => (e.1, recordReserve s e.1 e.2.shares.power)
  let sh := mine.map fun e => (e.1, e.2.shares.power)
  let dr := dirtyReserves s (fget s Fld.SGD_DIRTY_LIMIT_MIB)
  { s with slm := { s.slm with dirtyRsv := dr }, zne := { s.zne with recResv := rr, recShare := sh } }

/-- The staging limit, with FRACTION 0 treated as 1 (R254, R263), and the events of the levels it reaches (R255). -/
def stagingLimit (s : State) : State :=
  let l := max (fget s Fld.PLC_STG_MIN_BLOCKS) (fget s Fld.PLC_FREE_BLOCKS * max 1 (fget s Fld.PLC_STG_FRACTION) / 256)
  stgEvents (fset s Fld.PLC_STG_LIMIT_BLOCKS (sat 32 l))

/-- One SUPPRESSED record per source of which records were suppressed in the epoch that ends (R577). -/
def suppressedTell (s : State) : State :=
  let l := s.lkt.supp
  let s := { s with lkt := { s.lkt with supp := [], rate := [] } }
  l.foldl (fun s e => lktAccept s (lktCode 22 2 false) (now s) e.1 e.2 0 0) s

/-- The epoch that ends counts for a rail when its granted current is at least a quarter of the effective budget (R564). -/
def railNote (s : State) (rail sensed granted eff : Nat) : State :=
  if granted * 4 < eff ∨ granted = 0 then s
  else
    let r := SMap.getD s.age.rails rail (0, 0, 0)
    { s with age := { s.age with rails := SMap.put s.age.rails rail (r.1 + 1, r.2.1 + sensed, r.2.2 + granted) } }

/-- The start of the next epoch; `icc` and `iccq` are the rails' sensed averages in mA over the one that ends. -/
def epochStart (icc iccq : Nat) (s : State) : State :=
  let s := reach s ((epochOf (now s) + 1) * 1000000)
  let s := railNote s 0 icc s.ump.iccMax (100 * fget s Fld.UMP_ICC_EFF_100MA)
  let s := railNote s 1 iccq s.ump.iccqMax (100 * fget s Fld.UMP_ICCQ_EFF_100MA)
  let s := sharesLatch (suppressedTell s)
  let s := senseRails (umpEpoch s) icc iccq
  stagingLimit (reservesSet (reboundRefill s))

def execEpochStart (icc iccq : Nat) (s : State) : Out := .next (epochStart icc iccq s)

/-! ### Entry into PS3 and PS4 (R151) -/

/-- Every open staging stripe is padded and closed, a zone's tail among them. -/
def stripesClose (s : State) : State :=
  let s := (s.zne.zones.map (·.1)).foldl leaveTail s
  (s.plc.stripes.map (·.1)).foldl padStripe s

/-- An entry: open stripes close and the journal tail is written; once the dirty counter reads 0, the DRAM enters self-refresh and the
state holds (R151). -/
def psEntry (s : State) : State :=
  match s.hst.psTo with
  | none => s
  | some t =>
    let s := tailWrite (stripesClose s) true
    if !s.zne.stg.isEmpty || dirtyBytes s != 0 then s
    else
      let s := finc (psSet { s with hst := { s.hst with psTo := none } } t) Fld.QEN_PS_COUNT_ENTRIES
      psRefreshDram (foff s Fld.QEN_PS_TRANSITION) true

def execPsEntry (s : State) : Out := .next (psEntry s)

end Sys2Proof.Machine
end

