-- ==== Sys2Proof/Machine/Service.lean ====
section
/-! DEFINITION. The service port (R92–R94). -/
namespace Sys2Proof.Machine
open Sys2Proof

/-- An instruction selects the bypass register and shifts its bytes out. -/
def svcOut (s : State) (b : List Byte) : State := { s with svc := { s.svc with out := b, bypass := false } }

/-- BYPASS: one bit, and nothing else changes. -/
def svcBypass (s : State) : State := { s with svc := { s.svc with out := [], bypass := true } }

/-- IDCODE: a value of the part that the spec does not state. -/
def execSvcIdcode (s : State) : Out := .next (openTaken (svcOut s (le 4 (openVal s))))

/-- BYPASS, and every other instruction while the port is locked. -/
def execSvcBypass (ins : Nat) (s : State) : Out :=
  .next (if ins = 0 ∨ !fone s Fld.ACM_SVC_STATE_UNLOCKED then svcBypass s else svcBypass { s with svc := { s.svc with bscan := none } })

/-- A challenge is issued: nonce, serial, boot counter, device time, 4 reserved bytes. -/
def svcChallenge (s : State) : State :=
  if !s.bot.run || entropyBad s then svcBypass s
  else
    let r := draw s
    let c := fit 32 r.1 ++ fit 16 s.part.serial ++ le 4 s.tmb.boots ++ le 8 (now s) ++ zeros 4
    svcOut { r.2 with svc := { r.2.svc with challenge := some (c, now s) } } c

def execSvcChallenge (s : State) : Out := .next (svcChallenge s)

/-- Every MEDIA slot is zeroised (R92 step 5, R470). -/
def mediaZero (s : State) (cause : Nat) : State :=
  ((s.kst.slots.filter fun e => mediaSlot e.1).map (·.1)).foldl (fun s i => keyZero s i cause) s

/-- The slab SRAM and every pair's tightly coupled SRAM are zeroised (R94 step 5): what open commands hold there is lost with them. -/
def sramZero (s : State) : State :=
  let blank := fun (k : CUnit) => match k.st with
    | .staged => k
    | .waiting => k
    | .placed _ => { k with blocks := k.blocks.map fun _ => 0 }
    | .plain => { k with blocks := k.blocks.map fun _ => 0 }
    | .checked _ => { k with blocks := k.blocks.map fun _ => 0 }
    | .decoded => { k with blocks := k.blocks.map fun _ => 0 }
    | _ => k
  let ctx := SMap.mapv s.hst.ctx fun _ c => { c with units := c.units.map blank }
  { s with fab := { s.fab with mem := SMap.keep s.fab.mem fun a _ => decide (1099511627776 ≤ a) }, hst := { s.hst with ctx := ctx } }

/-- What a verified response does: the ledger takes the unlock first (R497), the media keys and the KEK seed go, every namespace
is to be emptied at the next boot, and SERVICE is admitted. Without room for the item it has no effect. -/
def svcUnlock (s : State) (challenge : List Byte) : State :=
  match eventAppend s [{ comp := 0x0101, digest := Config.sha384 challenge, version := s.tmb.boots, svn := 0 }] with
  | none => svcOut s (le 2 ST_BUSY)
  | some s =>
    let s := mediaZero s 3
    let r := draw s
    let s := { r.2 with kst := { r.2.kst with seed := some (r.1.take 32) } }
    let s := sramZero s
    let s := { s with svc := { s.svc with eraseAll := true }, bot := { s.bot with svcSeen := true } }
    fon (post (svcOut s (le 2 ST_OK)) 23 0x013 false s.tmb.boots 0 0 0) Fld.ACM_SVC_STATE_UNLOCKED

/-- A response that fails: after the third the port stays locked until the next power-up (R93). -/
def svcFail (s : State) : State :=
  let n := fget s Fld.ACM_SVC_STATE_FAILS + 1
  let s := finc s Fld.ACM_SVC_STATE_FAILS
  let s := if 3 ≤ n then fon s Fld.ACM_SVC_STATE_BARRED else s
  post (svcOut s (le 2 ST_DENIED)) 23 0x014 false (min 3 n) 0 0 0

/-- A response is checked against the challenge in force, which it uses up. -/
def svcResponse (s : State) (sig : List Byte) : State :=
  if fone s Fld.ACM_SVC_STATE_BARRED || fone s Fld.ACM_SVC_STATE_UNLOCKED || !s.bot.run then svcBypass s
  else
    match s.svc.challenge with
    | none => svcFail s
    | some (c, t) =>
      let s := { s with svc := { s.svc with challenge := none } }
      if t + 600000000000 < now s then svcFail s
      else if Config.serviceVerify s.bot.svcKey (Config.sha384 c) (fit 96 sig) then svcUnlock s c
      else svcFail s

def execSvcResponse (sig : List Byte) (s : State) : Out := .next (svcResponse s sig)

/-- A challenge expires 10 min after it was issued. -/
def execSvcChallengeExpiry (s : State) : Out :=
  .next (match s.svc.challenge with
    | some (_, t) =>
      let s := reach s (t + 600000000000)
      if now s < t + 600000000000 then s else { s with svc := { s.svc with challenge := none } }
    | none => s)

/-- Boundary scan acts after an unlock; while the port is locked the instruction is BYPASS. -/
def execSvcBoundaryScan (ins : Nat) (s : State) : Out :=
  .next (if fone s Fld.ACM_SVC_STATE_UNLOCKED then { s with svc := { s.svc with bscan := some ins, bypass := false } } else svcBypass s)

end Sys2Proof.Machine
end

