-- ==== Sys2Proof/Machine/Health.lean ====
section
/-! DEFINITION. The critical warning, and what the sideband and the DOE mailboxes answer (R58, R106–R108, R313, R442, R609). -/
namespace Sys2Proof.Machine
open Sys2Proof

/-! ### Critical warning -/

/-- WCTEMP: UMP_THERMAL.HOT_C + 273 (R608). -/
def wcTemp (s : State) : Nat := fget s Fld.UMP_THERMAL_HOT_C + 273

/-- A port's threshold for a sensor: 0 composite, 1–8; type 0 over, 1 under. -/
def tempTh (s : State) (p sensor typ : Nat) : Nat :=
  SMap.getD (portGet s p).feat.tmpTh (sensor * 2 + typ) (if typ = 1 then 0 else if sensor = 0 then wcTemp s else 0xFFFF)

/-- The composite temperature lies outside the port's thresholds, or the trip has happened. -/
def tempBad (s : State) (p : Nat) : Bool :=
  let k := fget s Fld.TSN_COMPOSITE_KELVIN
  fone s Fld.TSN_STATUS_TRIPPED || decide (tempTh s p 0 0 ≤ k) || decide (k ≤ tempTh s p 0 1 ∧ k ≠ 0)

/-- The NVM subsystem's reliability is degraded (R58, R405, R560). -/
def degraded (s : State) : Bool :=
  decide (pairsUp s < 4) || ((List.range 16).any fun g => fone s (Fld.MEP_MARK_MARKED g)) || s.age.siLimit

/-- The critical warning of a port. -/
def critWarn (s : State) (p : Nat) : Nat :=
  b2n (decide (fget s Fld.LDC_MED_SPARE_AVAIL_PCT < fget s Fld.LDC_MED_SPARE_WARN_PCT)) + 2 * b2n (tempBad s p) + 4 * b2n (degraded s) +
  8 * b2n (fone s Fld.ZNE_EOL_READ_ONLY) + 16 * b2n s.sgd.bad

/-! ### MCTP control and NVMe-MI (R106, R107) -/

/-- The endpoint answers on its bus. -/
def sbUp (s : State) : Bool := s.bot.run && !pfail s && fone s Fld.SBD_CTRL_EN

/-- The endpoint sends an answer; the request ends a non-operational state (R152). -/
def sbSay (s : State) (b : List Byte) : State := psSideband { s with mbx := { s.mbx with sbAns := b } }

/-- Set Endpoint ID: 0x00 and 0xFF name no endpoint. -/
def execMctpSetEndpointId (eid : Byte) (s : State) : Out :=
  .next (if !sbUp s then s
    else if eid = 0x00 ∨ eid = 0xFF then sbSay s [0x02]
    else sbSay (fset s Fld.SBD_ADDR_EID eid.toNat) ([0x00, 0x00, eid, 0x00]))

def execMctpGetEndpointId (s : State) : Out :=
  .next (if sbUp s then sbSay s ([0x00] ++ le 1 (fget s Fld.SBD_ADDR_EID) ++ [0x00, 0x00]) else s)

/-- Get MCTP Version Support: the versions are a value the spec does not state. -/
def execMctpGetVersionSupport (s : State) : Out :=
  .next (if sbUp s then sbSay (openTaken s) ([0x00, 0x01] ++ le 4 (openVal s)) else s)

/-- The message types of R106. -/
def execMctpGetMessageTypeSupport (s : State) : Out :=
  .next (if sbUp s then sbSay s [0x00, 0x05, 0x00, 0x04, 0x05, 0x06, 0x7E] else s)

/-- Read NVMe-MI Data Structure: type 2 lists the controllers of the ports present; what the spec does not state of the others is an
open value. -/
def miStructure (s : State) (dtyp port : Nat) : State :=
  if dtyp = 2 then
    let l := (List.range 4).filter (portThere s)
    sbSay s (zeros 4 ++ le 2 l.length ++ l.flatMap fun p => le 2 (p + 1))
  else sbSay (openTaken s) (zeros 4 ++ le 1 dtyp ++ le 1 port ++ le 30 (openVal s))

def execNvmeMiReadDataStructure (dtyp port : Nat) (s : State) : Out := .next (if sbUp s then miStructure s dtyp port else s)

/-- Temperature in °C as one signed byte, from −60 to 127 as the management interfaces bound it (PRESUMED). -/
def tempByte (s : State) : Nat :=
  let k := fget s Fld.TSN_COMPOSITE_KELVIN
  if 273 ≤ k then min 127 (k - 273) else 256 - min 60 (273 - k)

/-- SMART warnings of the subsystem: those of every port present. -/
def sbWarn (s : State) : Nat := ((List.range 4).filter (portThere s)).foldl (fun n p => n ||| critWarn s p) 0

/-- Status, inverted SMART warnings, temperature, Percentage Used. -/
def healthBytes (s : State) : List Byte :=
  le 1 (0x30 + 8 * b2n (linkUp s 0) + 4 * b2n (linkUp s 1)) ++ le 1 (255 - sbWarn s) ++ le 1 (tempByte s) ++
  le 1 (fget s Fld.LDC_MED_SPARE_PCT_USED)

def execNvmeMiSubsystemHealthPoll (s : State) : Out :=
  .next (if sbUp s then sbSay s (zeros 4 ++ healthBytes s ++ zeros 4) else s)

/-- A controller's health: identifier, status, temperature, Percentage Used, spare, warnings. -/
def ctrlHealth (s : State) (p : Nat) : List Byte :=
  let x := portGet s p
  le 2 (p + 1) ++ le 2 (b2n x.rdy + 2 * b2n x.cfs + 4 * x.shst) ++ le 2 (fget s Fld.TSN_COMPOSITE_KELVIN) ++
  le 1 (fget s Fld.LDC_MED_SPARE_PCT_USED) ++ le 1 (fget s Fld.LDC_MED_SPARE_AVAIL_PCT) ++ le 1 (critWarn s p) ++ zeros 7

def execNvmeMiControllerHealthPoll (first count : Nat) (s : State) : Out :=
  .next (if sbUp s then
      let l := (((List.range 4).filter (portThere s)).filter fun p => decide (first ≤ p + 1)).take count
      sbSay s (zeros 4 ++ le 4 l.length ++ l.flatMap (ctrlHealth s))
    else s)

/-- The types the endpoint supports. -/
def mctpKnown (s : State) (t : Nat) : Bool := t == 0 || t == 4 || t == 5 || t == 6 || (t == 0x7E && fone s Fld.MBX_CTRL_SB_EN)

/-- A message of another type is dropped and counted. -/
def execMctpDroppedType (ty : Byte) (s : State) : Out :=
  .next (if s.bot.run && fone s Fld.SBD_CTRL_EN && !mctpKnown s ty.toNat then finc s Fld.SBD_DROPPED_COUNT else s)

/-- A packet that fails its PEC on SMBus is dropped. -/
def execSmbusPecError (s : State) : Out :=
  .next (if s.bot.run && fone s Fld.SBD_CTRL_EN && !fone s Fld.SBD_CTRL_BUS then fon s Fld.SBD_STATUS_PEC_ERR else s)

/-- The NVMe-MI basic management command (R107), on SMBus while it is enabled. -/
def execNvmeMiBasicRead (s : State) : Out :=
  .next (if sbUp s && fone s Fld.SBD_CTRL_BASIC_MI && !fone s Fld.SBD_CTRL_BUS then sbSay s ([0x06] ++ healthBytes s ++ zeros 2) else s)

/-- A bus reset ends the sideband's sessions (R68). -/
def execSidebandBusReset (s : State) : Out :=
  .next (if s.bot.run then pathEnd (fon s Fld.SBD_STATUS_BUS_RESET) .sideband else s)

/-- The I3C controller assigns a dynamic address. -/
def execI3cDynamicAddressAssign (a : Nat) (s : State) : Out :=
  .next (if s.bot.run && fone s Fld.SBD_CTRL_EN && fone s Fld.SBD_CTRL_BUS then fset s Fld.SBD_ADDR_I3C_DYN a else s)

/-! ### DOE (R108, R549) -/

/-- The port's DOE mailbox answers. -/
def doeUp (s : State) (p : Nat) : Bool := s.bot.run && linkUp s p && !(portGet s p).perst

def doeSay (s : State) (p : Nat) (b : List Byte) (err : Bool) : State :=
  { s with mbx := { s.mbx with doe := SMap.put s.mbx.doe p (b, err) } }

/-- Discovery: vendor ID 0x0001 with the object type at the index, and the next index: discovery, CMA/SPDM, secured CMA/SPDM. -/
def execDoeDiscovery (p : Fin 4) (idx : Nat) (s : State) : Out :=
  .next (if !doeUp s p.val then s
    else if idx < 3 then doeSay s p.val (le 2 0x0001 ++ le 1 idx ++ le 1 ((idx + 1) % 3)) false
    else doeSay s p.val (le 2 0xFFFF ++ le 2 0) false)

/-- An object of any other type sets the error bit; in recovery mode so does every object but discovery. -/
def execDoeInvalidObject (p : Fin 4) (vid ty : Nat) (s : State) : Out :=
  .next (if !doeUp s p.val || (vid == 1 && (ty == 0 || (decide (ty ≤ 2) && !s.bot.recovery))) then s else doeSay s p.val [] true)

end Sys2Proof.Machine
end

