-- ==== Sys2Proof/Machine/Tsn.lean ====
section
/-! DEFINITION. The junction sensors and the thermal trip (R608, R609). -/
namespace Sys2Proof.Machine
open Sys2Proof

/-- A temperature as a 9-bit two's complement field holds it. -/
def temp9 (t : Int) : Nat := (t % 512).toNat

/-- The temperature that a 9-bit field holds. -/
def ofTemp9 (v : Nat) : Int := if v < 256 then (v : Int) else (v : Int) - 512

/-- Sensor `k`'s last reading in °C, while it is valid. -/
def sensorNow (s : State) (k : Nat) : Option Int :=
  if fone s (Fld.TSN_SENSOR_VALID k) then some (ofTemp9 (fget s (Fld.TSN_SENSOR_TEMP k))) else none

def hotC (s : State) : Nat := fget s Fld.UMP_THERMAL_HOT_C

/-- The trip threshold: values below HOT_C + 5 are treated as HOT_C + 5. -/
def tripC (s : State) : Nat := max (fget s Fld.TSN_TRIP_TRIP_C) (hotC s + 5)

/-- A sensor is faulted and excluded (R608). -/
def sensorFault (s : State) (k : Nat) : State :=
  let s := foff s (Fld.TSN_SENSOR_VALID k)
  if s.tsn.fault.contains k then s
  else fon { s with tsn := { s.tsn with fault := s.tsn.fault ++ [k] } } Fld.TSN_EVENTS_SENSOR_FAULT

/-- A sensor delivers a valid conversion; the HOT record is written when it rises to HOT_C, at most once in 10 s (R608). -/
def sensorRead (s : State) (k : Nat) (t : Int) : State :=
  let was : Bool := match sensorNow s k with | some o => decide ((hotC s : Int) ≤ o) | none => false
  let top : Bool := !s.tsn.seen.contains k || decide (ofTemp9 (fget s (Fld.TSN_SENSOR_MAX k)) < t)
  let s := if top then fset s (Fld.TSN_SENSOR_MAX k) (temp9 t) else s
  let seen := if s.tsn.seen.contains k then s.tsn.seen else s.tsn.seen ++ [k]
  let s := { s with tsn := { s.tsn with seen := seen, fault := s.tsn.fault.filter fun x => x != k } }
  let s := fon (fset s (Fld.TSN_SENSOR_TEMP k) (temp9 t)) (Fld.TSN_SENSOR_VALID k)
  if (hotC s : Int) ≤ t ∧ !was then
    let s := fon s Fld.TSN_EVENTS_HOT
    let ok : Bool := match SMap.find s.tsn.hot k with | some h => decide (h + 10000000000 ≤ now s) | none => true
    if ok then
      post { s with tsn := { s.tsn with hot := SMap.put s.tsn.hot k (now s) } } 27 1 false k t.toNat 0 0
    else s
  else s

/-- What a sample finds of sensor `k`: a new conversion, or none (R608). -/
def sensorSample (s : State) (k : Nat) (r : Option Int) : State :=
  match r with
  | some t =>
    let s := { s with tsn := { s.tsn with conv := SMap.put s.tsn.conv k (now s) } }
    if -40 ≤ t ∧ t ≤ 150 then sensorRead s k t
    else sensorFault (fset s (Fld.TSN_SENSOR_TEMP k) (temp9 t)) k
  | none =>
    match SMap.find s.tsn.conv k with
    | some c => if c + 10000000000 ≤ now s then sensorFault s k else s
    | none => { s with tsn := { s.tsn with conv := SMap.put s.tsn.conv k (now s) } }

/-- The hottest valid sensor of a list: the lowest number among equals. -/
def hottest (s : State) (l : List Nat) : Option (Nat × Int) :=
  l.foldl (fun b k =>
    match sensorNow s k, b with
    | some t, some (_, o) => if o < t then some (k, t) else b
    | some t, none => some (k, t)
    | none, _ => b) none

/-- The composite is `t` of sensor `k` (R608): its registers, the sum of R562, the flags of R429, the trip's timer. -/
def compositeSet (s : State) (all : Bool) (k : Nat) (t : Int) : State :=
  let s := fset (fset s Fld.TSN_COMPOSITE_KELVIN (t + 273).toNat) Fld.TSN_COMPOSITE_HOTTEST k
  let s := { s with age := { s.age with temps := (s.age.temps.1 + (t + 273).toNat, s.age.temps.2 + 1) } }
  let peak : Int := match hottest s (List.range 20) with | some (_, u) => if all ∧ u < t then t else u | none => t
  let hot : Bool := decide ((hotC s : Int) ≤ peak)
  let warm : Bool := decide ((hotC s : Int) - (fget s Fld.UMP_THERMAL_HYST_C : Int) ≤ peak)
  let s := { s with ump := { s.ump with hot := s.ump.hot || hot, warm := s.ump.warm || warm } }
  let ovr : Bool := !all && decide ((tripC s : Int) ≤ t)
  let above := if ovr then (match s.tsn.above with | some a => some a | none => some (now s)) else none
  { s with tsn := { s.tsn with above := above } }

/-- The composite temperature, the readings R429 takes, and whether a reading has reached the trip threshold. -/
def composite (s : State) : State :=
  let s := fset s Fld.TSN_STATUS_FAULTED s.tsn.fault.length
  let all : Bool := (List.range 18).all fun k => s.tsn.fault.contains k
  let s := fset s Fld.TSN_STATUS_ALL_FAULTED (b2n all)
  let top : Option (Nat × Int) := if all then some (0, (hotC s : Int)) else hottest s (List.range 18)
  match top with
  | some (k, t) => compositeSet s all k t
  | none => s

/-- The critical warning event of temperature on the ports whose condition has changed to bad (R173, R608). -/
def tempEvents (s0 s : State) : State :=
  [0, 1, 2, 3].foldl (fun s p =>
    if tempBad s p ∧ !tempBad s0 p ∧ (portGet s p).feat.aec.testBit 1 then raiseEvent s p (0x020001 + 256) else s) s

/-- The block reads its 20 sensors every 1 ms (R608). -/
def tsnSample (s : State) (r : List (Option Int)) : State :=
  let s := reach s ((now s / 1000000 + 1) * 1000000)
  if fone s Fld.TSN_CTRL_EN then
    tempEvents s (composite ((List.range 20).foldl (fun s k => sensorSample s k (r.getD k none)) s))
  else s

def execTsnSample (r : List (Option Int)) (s : State) : Out := .next (tsnSample s r)

/-- A reading of sensors 0–17 has stayed at the trip threshold for 1 ms (R609); with TRIP_EN 0 only the event is set. -/
def thermalTrip (s : State) : State :=
  match s.tsn.above with
  | some a =>
    let s := fon (reach s (a + 1000000)) Fld.TSN_EVENTS_TRIP
    if fone s Fld.TSN_CTRL_TRIP_EN then smartEvent (fon s Fld.TSN_STATUS_TRIPPED) 1 else s
  | none => s

def execThermalTrip (s : State) : Out := .next (thermalTrip s)

end Sys2Proof.Machine
end

