-- ==== Sys2Proof/Machine/Ageing.lean ====
section
/-! DEFINITION. Rally loops, the planning run, DRAM re-gathers and the ageing opcodes (R556–R574). -/
namespace Sys2Proof.Machine
open Sys2Proof

/-! ### Rally loops (R556–R558) -/

/-- A signed value as `w` bits hold it. -/
def signed (w : Nat) (v : Int) : Nat := (v % (2 ^ w : Int)).toNat

/-- The signed value that 16 bits hold. -/
def ofSigned16 (v : Nat) : Int := if v < 32768 then (v : Int) else (v : Int) - 65536

/-- Measurements averaged; 0 is treated as 1. -/
def rallyAvg (s : State) : Nat := max 1 (fget s Fld.AGE_RALLY_CFG_AVG)

/-- The loops that take part: those that have completed laps in every gate since the boot. -/
def rallyUp (s : State) (k : Nat) : Bool := !s.age.bad.contains k

/-- The mean of the ratios held for a loop. -/
def meanRatio (s : State) (k : Nat) : Option Nat :=
  let l := SMap.getD s.age.ratios k []
  if l.isEmpty then none else some (l.foldl (· + ·) 0 / l.length)

/-- A loop's slowdown in units of 1 ÷ `u`, to the nearest: none without a baseline or a ratio, or while it is faulted. -/
def slowdown (s : State) (u k : Nat) : Option Int :=
  match meanRatio s k, SMap.find s.age.base k with
  | some m, some b => if b = 0 ∨ !rallyUp s k then none else some (((2 * m * u + b) / (2 * b) : Nat) - (u : Int))
  | _, _ => none

/-- A loop that completes no laps in a gate is faulted until the next boot (R557). -/
def loopFault (s : State) (k : Nat) : State :=
  let s := { s with age := { s.age with bad := s.age.bad ++ [k] } }
  post (fon s Fld.AGE_EVENTS_LOOP_FAULT) 21 8 false k 0 0 0

/-- The ratio of each working loop of a gate, in units of 10⁻⁹: its period over the mean period of the sleeper loops. -/
def gateRatio (s : State) (laps : List Nat) (k : Nat) : Option Nat :=
  let sl := ((List.range 8).map (· + 88)).filter fun j => rallyUp s j
  let sum := sl.foldl (fun n j => n + 10 ^ 18 / max 1 (laps.getD j 0)) 0
  let l := laps.getD k 0
  if l = 0 ∨ sum = 0 then none else some (sl.length * 10 ^ 27 / (l * sum))

/-- The first AVG measurements give the baseline when the identity area holds none (R558). -/
def rallyBase (s : State) : State :=
  let full := ((List.range 88).filter fun k => rallyUp s k).all fun k => (SMap.getD s.age.ratios k []).length == rallyAvg s
  if !s.age.base.isEmpty || !full then s
  else
    let base := (List.range 88).foldl (fun m k => match meanRatio s k with | some v => SMap.put m k v | none => m) []
    let s := { s with age := { s.age with base := base } }
    fon (fset s Fld.AGE_RALLY_STATUS_BASELINE 2) Fld.AGE_EVENTS_BASELINE_LOCAL

/-- AGE_LOOP_k and AGE_RALLY_STATUS. -/
def rallyShow (s : State) : State :=
  let s := (List.range 96).foldl (fun s k =>
    let s := fset s (Fld.AGE_LOOP_LAPS_K k) (min 0xFFFF (s.age.laps.getD k 0 / 1000))
    fset s (Fld.AGE_LOOP_SLOW k) (match slowdown s 100000 k with | some v => signed 16 v | none => 0)) s
  let worst := (List.range 88).foldl (fun b k =>
    match slowdown s 10000 k, b with
    | some v, some (_, o) => if o < v then some (k, v) else b
    | some v, none => some (k, v)
    | none, _ => b) (none : Option (Nat × Int))
  let s := fset s Fld.AGE_RALLY_STATUS_FAULTED s.age.bad.length
  match worst with
  | some (k, v) => fset (fset s Fld.AGE_RALLY_STATUS_WORST_LOOP k) Fld.AGE_RALLY_STATUS_WORST_CPCT (signed 16 v)
  | none => fset (fset s Fld.AGE_RALLY_STATUS_WORST_LOOP 0) Fld.AGE_RALLY_STATUS_WORST_CPCT 0

/-- One measurement: all loops are gated over one window (R557). -/
def rallyMeasure (s : State) (laps : List Nat) : State :=
  if !fone s Fld.AGE_CTRL_RALLY_EN then s
  else
    let s := reach s (s.age.meas + max 1 (fget s Fld.AGE_RALLY_CFG_PERIOD_MS) * 1000000)
    let s := { s with age := { s.age with meas := now s, laps := (List.range 96).map fun k => laps.getD k 0 } }
    let s := (List.range 96).foldl (fun s k => if rallyUp s k ∧ laps.getD k 0 = 0 then loopFault s k else s) s
    let rs := (List.range 88).foldl (fun m k =>
      match (if rallyUp s k then gateRatio s laps k else none) with
      | some r => SMap.put m k ((r :: SMap.getD m k []).take (rallyAvg s))
      | none => m) s.age.ratios
    rallyShow (rallyBase { s with age := { s.age with ratios := rs } })

def execRallyMeasure (laps : List Nat) (s : State) : Out := .next (rallyMeasure s laps)

/-! ### Defaults of the banks (R274, R421) -/

/-- The prediction default of firmware 3.2, in 0.25 µs (R274). -/
def predDefault (mode op bucket : Nat) : Nat :=
  let us := match mode, op with
    | 0, 0 => 18 | 0, 1 => 20 | 0, 2 => 120 | 0, 3 => 2500 | 0, 4 => 15 | 0, 5 => 5
    | 1, 0 => 26 | 1, 1 => 28 | 1, 2 => 700 | 1, 3 => 4000 | 1, 4 => 20 | 1, 5 => 5
    | 2, 0 => 32 | 2, 1 => 35 | 2, 2 => 2400 | 2, 3 => 6000 | 2, 4 => 20 | 2, 5 => 5
    | _, _ => 0
  if op = 2 then us * 4 * (100 - 2 * bucket) / 100
  else if op = 4 ∨ op = 5 then us * 4
  else us * 4 * (100 + 4 * bucket) / 100

/-- The cost default of firmware 3.2: ENERGY in tokens of 0.1 µJ, ICC and ICCQ in mA (R421). -/
def costDefault (mode op : Nat) : Nat × Nat × Nat :=
  match op with
  | 0 => (if mode = 0 then 14 else if mode = 1 then 20 else 24, 30, 0)
  | 1 => (if mode = 0 then 14 else if mode = 1 then 20 else 24, 30, 0)
  | 2 => (if mode = 0 then 75 else if mode = 1 then 525 else 825, 12, 0)
  | 3 => (if mode = 0 then 1563 else if mode = 1 then 2500 else 3750, 25, 0)
  | 4 => (5, 0, 0)
  | 5 => (2, 0, 150)
  | _ => (0, 0, 0)

/-- Prediction entry `i` of a bank. -/
def predField (bank i : Nat) : Field := if bank = 0 then Fld.DSC_PRED_BANK0_TIME_QUS i else Fld.DSC_PRED_BANK1_TIME_QUS i

/-- Every (mode, op, bucket) of the prediction table, lower buckets first. -/
def predIx : List (Nat × Nat × Nat) :=
  (List.range 3).flatMap fun m => (List.range 6).flatMap fun o => (List.range 8).map fun b => (m, o, b)

/-- Every (die type, mode, op) of the cost table. -/
def costAll : List (Nat × Nat × Nat) :=
  (List.range 4).flatMap fun t => (List.range 3).flatMap fun m => (List.range 6).map fun o => (t, m, o)

/-- Puts a cost entry. -/
def costPut (s : State) (bank j : Nat) (e : Nat × Nat × Nat) : State :=
  let s := fset (fset s (Fld.UMP_COST0_ENERGY bank j) (min 65535 e.1)) (Fld.UMP_COST0_ICC_MA bank j) (min 4095 e.2.1)
  fset s (Fld.UMP_COST1_ICCQ_MA bank j) (min 4095 e.2.2)

/-- A cost entry. -/
def costGet (s : State) (bank j : Nat) : Nat × Nat × Nat :=
  (fget s (Fld.UMP_COST0_ENERGY bank j), fget s (Fld.UMP_COST0_ICC_MA bank j), fget s (Fld.UMP_COST1_ICCQ_MA bank j))

/-- Firmware loads both banks of both tables. -/
def banksDefault (s : State) : State :=
  let s := predIx.foldl (fun s e =>
    let v := predDefault e.1 e.2.1 e.2.2
    let i := 48 * e.1 + 8 * e.2.1 + e.2.2
    fset (fset s (predField 0 i) v) (predField 1 i) v) s
  costAll.foldl (fun s e =>
    let j := costIx e.1 e.2.1 e.2.2
    costPut (costPut s 0 j (costDefault e.2.1 e.2.2)) 1 j (costDefault e.2.1 e.2.2)) s

/-! ### The planner record (R562) -/

/-- The addresses of the register values that the record holds, the offsets aside. -/
def recordAddrs : List Nat :=
  predIx.map (fun e => Reg.DSC_PRED_BANK0 (48 * e.1 + 8 * e.2.1 + e.2.2)) ++
  costAll.flatMap (fun e => [Reg.UMP_COST0 0 (costIx e.1 e.2.1 e.2.2), Reg.UMP_COST1 0 (costIx e.1 e.2.1 e.2.2)]) ++
  (List.range 3).flatMap fun m => (List.range 16).flatMap fun st => (List.range 16).map fun w => Reg.LDC_RETRY m st w

/-- The address at which the bank in force shows a value of the record. -/
def inForce (s : State) (a : Nat) : Nat :=
  if Reg.DSC_PRED_BANK0 0 ≤ a ∧ a < Reg.DSC_PRED_BANK1 0 then a + 0x400 * fget s Fld.DSC_PRED_BANK_ACTIVE
  else if Reg.UMP_COST0 0 0 ≤ a ∧ a < Reg.UMP_COST0 1 0 then a + 0x400 * fget s Fld.UMP_COST_BANK_ACTIVE
  else a

/-- A run's outputs are committed: AGE_MV of every point, the banks in force and the retry tables. -/
def recordCommit (s : State) : State :=
  let m : SMap Word := (List.range 8).foldl (fun m p => SMap.put m (Reg.UMP_PP p) (BitVec.ofNat 32 (fget s (Fld.UMP_PP_AGE_MV p)))) []
  let m := recordAddrs.foldl (fun m a => SMap.put m a (RegFile.get s.regs (inForce s a))) m
  { s with age := { s.age with record := m } }

/-- At boot the newest valid record is loaded over the defaults (R562). -/
def recordLoad (s : State) : State :=
  s.age.record.foldl (fun s e =>
    if Reg.UMP_PP 0 ≤ e.1 ∧ e.1 ≤ Reg.UMP_PP 7 then fset s (Fld.UMP_PP_AGE_MV ((e.1 - Reg.UMP_PP 0) / 4)) e.2.toNat
    else
      let s := { s with regs := RegFile.set s.regs e.1 e.2 }
      if Reg.LDC_RETRY 0 0 0 ≤ e.1 ∧ e.1 ≤ Reg.LDC_RETRY 2 15 15 then s
      else { s with regs := RegFile.set s.regs (e.1 + 0x400) e.2 }) s

/-! ### The outputs of a planning run (R559–R568) -/

/-- GAIN of a point in 0.01 %/mV; 0 is treated as 1. -/
def gainOf (s : State) (p : Nat) : Nat :=
  max 1 (bits (if p < 4 then fget s Fld.AGE_GAIN_LO_GAIN else fget s Fld.AGE_GAIN_HI_GAIN) (8 * (p % 4)) 8)

/-- The worst slowdown in 0.01 %. -/
def worstCpct (s : State) : Int := ofSigned16 (fget s Fld.AGE_RALLY_STATUS_WORST_CPCT)

/-- The remaining slowdown at a point (R560). -/
def remainCpct (s : State) (p : Nat) : Int := worstCpct s - ((fget s (Fld.UMP_PP_AGE_MV p) * gainOf s p : Nat) : Int)

/-- Output 1 (R559, R560). -/
def planOffsets (s : State) : State :=
  let excess := (worstCpct s - (fget s Fld.AGE_SI_CFG_TARGET_CPCT : Int)).toNat
  let need := fun p => (excess + gainOf s p - 1) / gainOf s p
  let lim := (List.range 8).any fun p => decide (63 < max (fget s (Fld.UMP_PP_AGE_MV p)) (need p))
  let pnow := fget s Fld.UMP_PP_CTRL_PP_NOW
  let up := fget s (Fld.UMP_PP_AGE_MV pnow) < min 63 (need pnow)
  let sw := signed 32 (worstCpct s)
  let s := { s with ump := { s.ump with ageNew := s.ump.ageNew || decide up } }
  let s := (List.range 8).foldl (fun s p =>
    let old := fget s (Fld.UMP_PP_AGE_MV p)
    let new := min 63 (max old (need p))
    if old < new then post (fon (fset s (Fld.UMP_PP_AGE_MV p) new) Fld.AGE_EVENTS_OFFSET_RAISED) 21 1 false p old new sw else s) s
  let s := { s with age := { s.age with siLimit := lim } }
  if lim then smartEvent (post (fon s Fld.AGE_EVENTS_SILICON_LIMIT) 21 2 false sw (signed 32 (remainCpct s 7)) 0 0) 2 else s

/-- The first rated value of a die and mode. -/
def ratedFirst (s : State) (k : Nat) : Nat :=
  SMap.getD s.age.rated0 k (if k % 4 = 0 then 12500 else if k % 4 = 1 then 2250 else 1500)

/-- Output 2: the rated P/E cycles of the dies and modes with at least 10,000 such reads (R566). -/
def planRated (s : State) : State :=
  s.age.reads.foldl (fun s e =>
    let k := e.1
    if e.2 < 10000 then s
    else
      let sf := SMap.getD s.age.soft k 0
      let old := ratedOf s (k / 4) (k % 4)
      let first := ratedFirst s k
      let new :=
        if fget s Fld.AGE_FLASH_CFG_SOFT_HIGH * e.2 < sf * 10000 then max (old * 95 / 100) (first / 2)
        else if sf * 10000 < fget s Fld.AGE_FLASH_CFG_SOFT_LOW * e.2 ∧ (SMap.find s.age.seen7 k).isSome then
          min (old * 105 / 100) (first * 3 / 2)
        else old
      if new = old then s
      else
        let s := { s with age := { s.age with rated := SMap.put s.age.rated k new } }
        post (fon s Fld.AGE_EVENTS_RATED_CHANGED) 21 3 false (k / 4) (k % 4) old new) s

/-- Puts a number in its place in an ascending list. -/
def insertNat (v : Nat) : List Nat → List Nat
  | [] => [v]
  | x :: l => if v ≤ x then v :: x :: l else x :: insertNat v l

/-- The lower median. -/
def median (l : List Nat) : Nat := (l.foldr insertNat []).getD ((l.length - 1) / 2) 0

/-- An entry without enough samples: the next lower bucket raised by the bucket step of R274. -/
def bucketStep (op bucket v : Nat) : Nat :=
  if op = 2 then v * (100 - 2 * bucket) / (100 - 2 * (bucket - 1))
  else if op = 4 ∨ op = 5 then v
  else v * (100 + 4 * bucket) / (100 + 4 * (bucket - 1))

/-- Output 3: the inactive prediction bank is written and becomes active (R563). -/
def planPred (s : State) : State :=
  let cur := fget s Fld.DSC_PRED_BANK_ACTIVE
  let oth := 1 - cur
  let lim := fget s Fld.AGE_PLAN_CFG_STEP_LIMIT_PCT
  let s := predIx.foldl (fun s e =>
    let i := 48 * e.1 + 8 * e.2.1 + e.2.2
    let old := fget s (predField cur i)
    let l := SMap.getD s.age.samples i []
    let new :=
      if l ≠ [] ∧ fget s Fld.AGE_PLAN_CFG_SAMPLES_MIN ≤ l.length then
        clamp (old * (100 - min 100 lim) / 100) (old * (100 + lim) / 100) (median l / 250)
      else if e.2.2 = 0 then old
      else bucketStep e.2.1 e.2.2 (fget s (predField oth (i - 1)))
    fset s (predField oth i) (min 65535 new)) s
  fset s Fld.DSC_PRED_BANK_ACTIVE oth

/-- `v` scaled by a rail's sensed over granted current, held to 0.9–1.5 and rounded up; by 1 with fewer than 1,000 epochs. -/
def railScale (s : State) (rail v : Nat) : Nat :=
  let r := SMap.getD s.age.rails rail (0, 0, 0)
  if r.1 < 1000 ∨ r.2.2 = 0 then v
  else
    let n := max (9 * r.2.2) (min (15 * r.2.2) (10 * r.2.1))
    let d := 10 * r.2.2
    (v * n + d - 1) / d

/-- Output 4: the inactive cost bank is written and becomes active (R564). -/
def planCost (s : State) : State :=
  let cur := fget s Fld.UMP_COST_BANK_ACTIVE
  let oth := 1 - cur
  let s := costAll.foldl (fun s e =>
    let j := costIx e.1 e.2.1 e.2.2
    let o := costGet s cur j
    let d := costDefault e.2.1 e.2.2
    let new := if e.2.2 = 5 then (max d.1 (railScale s 1 o.1), o.2.1, max d.2.2 (railScale s 1 o.2.2))
      else (max d.1 (railScale s 0 o.1), max d.2.1 (railScale s 0 o.2.1), o.2.2)
    costPut s oth j new) s
  fset s Fld.UMP_COST_BANK_ACTIVE oth

/-- Byte `j` of entry 15 of an advanced table: entry 15 + (entry 15 − entry 14), saturating at ±127. -/
def nextOffset (e14 e15 : Nat) (j : Nat) : Nat :=
  let v := fun (w : Nat) => let b := bits w (8 * j) 8; if b < 128 then (b : Int) else (b : Int) - 256
  let n := v e15 + (v e15 - v e14)
  signed 8 (if 127 < n then 127 else if n < -127 then -127 else n)

/-- The retry table of a mode advances, and every die's current step falls by 1 (R565). -/
def retryAdvance (s : State) (m : Nat) : State :=
  let old := fun st w => rget s (Reg.LDC_RETRY m st w)
  let s' := (List.range 16).foldl (fun s w =>
    let last := (List.range 4).foldl (fun v j => v + nextOffset (old 14 w) (old 15 w) j * 256 ^ j) 0
    rset ((List.range 15).foldl (fun s st => rset s (Reg.LDC_RETRY m st w) (old (st + 1) w)) s) (Reg.LDC_RETRY m 15 w) last) s
  let f := fun die => if m = 0 then Fld.LDC_STEP_STEP_SLC die else if m = 1 then Fld.LDC_STEP_STEP_TLC die else Fld.LDC_STEP_STEP_QLC die
  let s' := (List.range 2048).foldl (fun s die => if fget s (f die) = 0 then s else fset s (f die) (fget s (f die) - 1)) s'
  let n := SMap.getD s.age.adv m 0 + 1
  let s' := { s' with age := { s'.age with adv := SMap.put s'.age.adv m n } }
  post (fon s' Fld.AGE_EVENTS_RETRY_ADVANCED) 21 4 false m n 0 0

/-- Output 5 (R565); the histogram clears at the end of the run. -/
def planRetry (s : State) : State :=
  let s := (List.range 3).foldl (fun s m =>
    let h := fun st => fget s (Fld.AGE_RHIST_COUNT m st)
    let tot := (List.range 16).foldl (fun n st => n + h st) 0
    if tot ≠ 0 ∧ fget s Fld.AGE_FLASH_CFG_EDGE_PCT * tot ≤ 100 * (h 14 + h 15) then retryAdvance s m else s) s
  (List.range 3).foldl (fun s m => (List.range 16).foldl (fun s st => foff s (Fld.AGE_RHIST_COUNT m st)) s) s

/-- The mean composite temperature of the interval in whole °C (R567). -/
def meanTemp (s : State) : Int :=
  if s.age.temps.2 = 0 then
    (if fget s Fld.TSN_COMPOSITE_KELVIN = 0 then 55 else (fget s Fld.TSN_COMPOSITE_KELVIN : Int) - 273)
  else ((s.age.temps.1 / s.age.temps.2 : Nat) : Int) - 273

/-- Wear of a die's in-service blocks in quarters, and how many there are. -/
def dieWear (s : State) (die : Nat) : Nat × Nat :=
  let bl := s.med.blocks.filter fun e => e.1 / 1048576 == die && !e.2.retired
  let gone := SMap.cnt s.med.blocks fun k b => k / 1048576 == die && b.retired
  (bl.foldl (fun n e => n + e.2.pe) 0, s.part.dieBlocks - gone)

/-- The largest number of days from 365 down to 1 that does not exceed `num ÷ den × 2^(e ÷ 10)`. -/
def retFloor (num den : Nat) (e : Int) : Nat → Nat
  | 0 => 1
  | n + 1 =>
    let l := ((n + 1) * den) ^ 10
    let r := num ^ 10
    if (if 0 ≤ e then l ≤ r * 2 ^ e.toNat else l * 2 ^ (-e).toNat ≤ r) then n + 1 else retFloor num den e n

/-- The retention interval of a die and mode from its factor F in units of 10⁻⁶ (R567). -/
def retInterval (s : State) (wear : Nat × Nat) (die mode f : Nat) : Nat :=
  let d := 4 * wear.2 * ratedOf s die mode
  let n := min wear.1 d
  if d = 0 then 1 else retFloor (retBase s mode * (2 * d - n) * f) (2 * d * 1000000) (55 - meanTemp s) 365

/-- Output 6 for a die and mode: its factor and interval (R567). -/
def planRetDie (s : State) (wear : Nat × Nat) (die mode : Nat) : State :=
  let k := die * 4 + mode
  let f := SMap.getD s.age.retF k 1000000
  let rd := SMap.getD s.age.oldRd k 0
  let sf := SMap.getD s.age.oldSf k 0
  let f' := if rd = 0 then f
    else if fget s Fld.AGE_FLASH_CFG_SOFT_HIGH * rd < sf * 10000 then f * 75 / 100
    else if sf * 10000 < fget s Fld.AGE_FLASH_CFG_SOFT_LOW * rd then min 1000000 (f * 110 / 100) else f
  let old := retOf s die mode
  let new := retInterval s wear die mode f'
  let s := { s with age := { s.age with retF := SMap.putD s.age.retF k 1000000 f', ret := SMap.put s.age.ret k new } }
  if new < old then post (fon s Fld.AGE_EVENTS_RETENTION_SHORTENED) 21 5 false die mode new 0 else s

/-- The dies of the part that hold blocks. -/
def diesHere (s : State) : List Nat :=
  (List.range (if s.part.is7632 then 1024 else 2048)).filter fun d => !dieUnpop s d

/-- The smallest interval among the member dies of a stripe block (R567), in days. -/
def sbInterval (s : State) (g mode : Nat) : Nat := (List.range 16).foldl (fun n m => min n (retOf s (dieOf g m) mode)) 365

/-- Queues refresh copies of the closed stripe blocks of groups `p` whose age exceeds `num` ÷ `den` of their interval, and
says how many. -/
def refreshQueue (s : State) (p : Nat → Bool) (num den : Nat) : Nat × State :=
  let due := s.med.inUse.filter fun e =>
    let g := e.1 / 1048576
    let b := e.1 % 1048576
    p g && e.2.full && e.2.valid != 0 && !(s.med.copies.any fun c => c.group == g && c.block == b) &&
      decide (sbInterval s g e.2.mode * dayNs * num < dataAge s g b * den)
  (due.length, due.foldl (fun s e => copyBlock s 3 (e.1 / 1048576) (e.1 % 1048576) 3) s)

/-- Output 6: intervals, and refresh copies of the data older than them. -/
def planRet (s : State) : State :=
  let s := (diesHere s).foldl (fun s die =>
    let w := dieWear s die
    (List.range 3).foldl (fun s mode => planRetDie s w die mode) s) s
  (refreshQueue s (fun _ => true) 1 1).2

/-- The oldest closed stripe block of a group. -/
def oldestBlock (s : State) (g : Nat) : Option (Nat × SbUse) :=
  (s.med.inUse.filter fun e => e.1 / 1048576 == g && e.2.full && e.2.valid != 0).foldl (fun best e =>
    match best with
    | none => some e
    | some o => if dataAge s g (o.1 % 1048576) < dataAge s g (e.1 % 1048576) then some e else best) none

/-- One group's retention probe finds `d` (R568). -/
def probeGroup (s : State) (e : Nat × Decode) : State :=
  let g := e.1
  match oldestBlock s g with
  | some (k, u) =>
    if !grp s Fld.PLC_GRP_PRESENT_GROUPS g then s
    else
      let die := dieOf g 0
      let d := decodeCap s e.2
      let s := (decodeOne (retryHist (stepMove (diagDecode (ageDecode s die u.mode (k % 1048576) 0 d) d) die u.mode d) die u.mode d) d).2
      let f := if u.mode = 0 then Fld.LDC_STEP_STEP_SLC die else if u.mode = 1 then Fld.LDC_STEP_STEP_TLC die else Fld.LDC_STEP_STEP_QLC die
      let found := match d with | .hard => 0 | .retry n => if 4 < n then fget s f + 1 else 0 | .soft => 17 | .fail => 17
      if found = 0 then s
      else
        let q := refreshQueue s (· == g) 1 2
        post (fon q.2 Fld.AGE_EVENTS_REFRESH_PROBE) 21 6 false g (found - 1) q.1 0
  | none => s

/-- The retention probe of the first run after a boot of type 0x01. -/
def planProbe (s : State) (probe : List (Nat × Decode)) : State :=
  if s.age.probe then probe.foldl probeGroup { s with age := { s.age with probe := false } } else s

/-- A planning run can start (R561); its record must be written, so NOR pulses must not be blocked. -/
def planCan (s : State) : Bool :=
  fone s Fld.AGE_CTRL_PLAN_EN && s.bot.run && !s.bot.recovery && !s.ump.holdup && !pfail s && !pulsesBlocked s

/-- The device time at which the next run is due. -/
def planDue (s : State) : Nat :=
  if fone s Fld.AGE_PLAN_STATUS_RUNNING then now s
  else
    let first := s.age.up + 600000000000
    let next := s.age.lastRun + max 1 (fget s Fld.AGE_PLAN_CFG_PERIOD_H) * 3600000000000
    if s.age.lastRun = 0 then first else if s.age.lastRun ≤ s.age.up then min first next else next

/-- Ends a run: its count, its time, and the interval's inputs start anew. -/
def planEnd (s : State) : State :=
  let s := recordCommit s
  let s := { s with age := { s.age with runs := s.age.runs + 1, lastRun := now s, reads := [], soft := [], oldRd := [], oldSf := [],
                                        seen7 := [], samples := [], rails := [], temps := (0, 0) } }
  let s := foff (fset s Fld.AGE_PLAN_STATUS_RUNS (min 16777215 s.age.runs)) Fld.AGE_PLAN_STATUS_RUNNING
  spareRefresh (pset s Reg.AGE_PLAN_TIME_LO Reg.AGE_PLAN_TIME_HI (now s))

/-- A planning run: outputs 1 to 6 in order, the probe where one is due, and the record. -/
def planningRun (s : State) (probe : List (Nat × Decode)) : State :=
  if !planCan s then s
  else
    let s := reach s (planDue s)
    planEnd (planProbe (planRet (planRetry (planCost (planPred (planRated (planOffsets s)))))) probe)

def execPlanningRun (probe : List (Nat × Decode)) (s : State) : Out := .next (planningRun s probe)

/-! ### DRAM re-gathers (R570) -/

/-- The code group of a subchannel rank 4c + 2s + k (R402). -/
def rankGroup (s : State) (r : Nat) : Nat :=
  4 * (r / 4) + 2 * (r % 2) + (if fone s Fld.MEP_ID_CODE then 0 else r / 2 % 2)

/-- Corrected codewords that a code group has gained in the last 24 h and since time `t`. -/
def ceSince (s : State) (g t : Nat) : Nat :=
  s.dmc.ces.foldl (fun n e =>
    if e.1 / 16 = g then n + (e.2.filter fun x => decide (t < x ∧ now s < x + dayNs)).length else n) 0

/-- The low bit of a kind's field in a delay word: read delay, read Vref, write delay, write Vref. -/
def delayLo (kind : Nat) : Nat := if kind = 0 then 0 else if kind = 1 then 16 else if kind = 2 then 8 else 24

/-- One kind of a rank is gathered: each lane's widest window as (width, centre) in steps. -/
def regatherKind (s : State) (rank kind : Nat) (ws : List (Nat × Nat)) : State :=
  let minW := fget s Fld.AGE_DRAM_CFG_MIN_WINDOW
  let maxS := fget s Fld.AGE_DRAM_CFG_MAX_SHIFT
  let base := (fget s Fld.DMC_STATUS_RATE_IDX * 16 + rank) * 64
  let s := (List.range 40).foldl (fun s l =>
    let w := ws.getD l (0, 0)
    let f : Field := ⟨Reg.DMC_DELAY (base + l), delayLo kind, 8⟩
    let old := fget s f
    if minW ≤ w.1 then fset s f (clamp (old - maxS) (min 255 (old + maxS)) w.2) else s) s
  let least := (List.range 40).foldl (fun n l => min n (ws.getD l (0, 0)).1) 255
  let s := { s with age := { s.age with windows := SMap.put s.age.windows (rank * 4 + kind) least } }
  if least < minW then post (fon s Fld.AGE_EVENTS_DRAM_MARGIN) 21 7 false rank kind least 0 else s

/-- The key of a rank's delay set for the rate point in use: each has its own last gather (R570). -/
def gatherKey (s : State) (rank : Nat) : Nat := fget s Fld.DMC_STATUS_RATE_IDX * 16 + rank

/-- An online re-gather of a rank for the rate point in use, once it is due: a set that has grown old while its point was not in use
is due as soon as the rate changes to that point. -/
def regather (s : State) (rank : Nat) (windows : List (List (Nat × Nat))) : State :=
  let last := SMap.getD s.age.gathers (gatherKey s rank) s.age.up
  let b0 := SMap.getD s.age.gband rank 0
  let b1 := SMap.getD s.dmc.band rank 0
  let early := decide (b0 + 2 ≤ b1 ∨ b1 + 2 ≤ b0 ∨ 1024 ≤ ceSince s (rankGroup s rank) last)
  if gatherOpen s || pfail s || fone s Fld.DMC_STATUS_PANIC || fone s Fld.DMC_STATUS_CHANGING || !s.bot.run then s
  else
    let s := if early then s else reach s (last + fget s Fld.AGE_DRAM_CFG_REGATHER_H * 3600000000000)
    let s := (List.range 4).foldl (fun s k => regatherKind s rank k (windows.getD k [])) s
    { s with age := { s.age with gathers := SMap.put s.age.gathers (gatherKey s rank) (now s), gband := SMap.put s.age.gband rank b1 } }

def execDramRegather (rank : Fin 16) (windows : List (List (Nat × Nat))) (s : State) : Out := .next (regather s rank.val windows)

/-! ### Opcodes (R571) -/

/-- The smallest of a value over the dies. -/
def leastDie (s : State) (f : Nat → Nat) (top : Nat) : Nat := (diesHere s).foldl (fun n d => min n (f d)) top

/-- SI_STATE: no offset, an offset in use, the limit reached. -/
def siState (s : State) : Nat :=
  if s.age.siLimit then 2 else if (List.range 8).any fun p => fget s (Fld.UMP_PP_AGE_MV p) != 0 then 1 else 0

/-- The narrowest window at the last re-gathers. -/
def windowMin (s : State) : Nat := s.age.windows.foldl (fun n e => min n e.2) 255

def ageSummary (_ : Caller) (s : State) : Ans :=
  let cn := fget s Fld.SGD_HU_CAP_CNOM_10UF
  ansOk (le 2 (fget s Fld.LDC_MED_SPARE_PCT_USED) ++ le 2 (fget s Fld.LDC_MED_SPARE_AVAIL_PCT) ++
    le 2 (fget s Fld.AGE_RALLY_STATUS_WORST_CPCT) ++ le 1 (fget s (Fld.UMP_PP_AGE_MV 7)) ++ le 1 (siState s) ++
    le 2 (if cn = 0 then 0 else fget s Fld.SGD_HU_CAP_CMEAS_10UF * 100 / cn) ++ le 2 (fget s Fld.SGD_DIRTY_LIMIT_MIB) ++
    le 2 (holdupDays s) ++ le 2 (leastDie s (fun d => retOf s d 2) 365) ++ le 2 (leastDie s (fun d => ratedOf s d 2) 65535) ++
    le 1 (min 255 (SMap.getD s.age.adv 2 0)) ++ le 1 (windowMin s) ++ le 4 s.age.runs ++ le 8 s.age.lastRun)

def execAgeSummary (r : Rq) (s : State) : Out := .next (mbxRun (opRead 0x0901 ageSummary) r s)

/-- Device time of a rank's last gather, of any rate point. -/
def lastGather (s : State) (r : Nat) : Nat := s.age.gathers.foldl (fun n e => if e.1 % 16 = r then max n e.2 else n) 0

/-- The body of a report section. -/
def ageSection (s : State) (n : Nat) : List Byte :=
  if n = 1 then (List.range 96).flatMap fun k =>
    le 4 (match slowdown s 100000 k with | some v => signed 32 v | none => 0) ++ le 4 (s.age.laps.getD k 0)
  else if n = 2 then (List.range 8).flatMap fun p => le 1 (fget s (Fld.UMP_PP_AGE_MV p)) ++ le 1 (gainOf s p) ++ zeros 2
  else if n = 3 then (List.range 2048).flatMap fun d =>
    if s.part.is7632 ∧ 1024 ≤ d then zeros 16
    else
      let rd := (List.range 3).foldl (fun n m => n + SMap.getD s.age.reads (d * 4 + m) 0) 0
      let sf := (List.range 3).foldl (fun n m => n + SMap.getD s.age.soft (d * 4 + m) 0) 0
      [2, 1, 0].flatMap (fun m => le 2 (ratedOf s d m)) ++ [2, 1, 0].flatMap (fun m => le 2 (retOf s d m)) ++
        le 2 (if rd = 0 then 0 else sf * 10000 / rd) ++ le 2 (fget s (Fld.DSC_EST_RETRY_Q4 d))
  else if n = 4 then (List.range 32).flatMap fun i =>
    match s.age.tests[i]? with
    | some t => le 8 t.1 ++ le 4 t.2.1 ++ le 2 t.2.2.1 ++ le 2 t.2.2.2
    | none => zeros 16
  else (List.range 16).flatMap fun r =>
    (List.range 4).flatMap (fun k => le 1 (SMap.getD s.age.windows (r * 4 + k) 0)) ++ le 8 (lastGather s r) ++ zeros 4

/-- AGE_REPORT: bit s of the request asks for section s. -/
def ageReport (ask : Nat) (s : State) : Ans :=
  let want := [1, 2, 3, 4, 5].filter fun n => bit ask n
  ansOk (le 2 1 ++ zeros 2 ++ le 4 (want.foldl (fun v n => v + 2 ^ n) 0) ++ want.flatMap fun n =>
    let b := ageSection s n
    le 2 n ++ zeros 2 ++ le 4 b.length ++ b)

def execAgeReport (r : Rq) (s : State) : Out :=
  .next (mbxRun (opDef 0x0902 (fun p => p.length == 4) fun _ p s => (ageReport (u32 p 0) s, s)) r s)

/-- AGE_PLAN_NOW: ST_BUSY while a run is in progress; otherwise the run that PLANNING_RUN carries out starts, where R561
lets one start. -/
def agePlanNow (s : State) : Ans × State :=
  if fone s Fld.AGE_PLAN_STATUS_RUNNING then (ansSt ST_BUSY, s)
  else (ansOk [], if planCan s then fon s Fld.AGE_PLAN_STATUS_RUNNING else s)

def execAgePlanNow (r : Rq) (s : State) : Out := .next (mbxRun (opDef 0x0903 (fun p => p.isEmpty) fun _ _ s => agePlanNow s) r s)

end Sys2Proof.Machine
end

