-- ==== Sys2Proof/Machine/Reset.lean ====
section
/-! DEFINITION. Reset flushes, the requests for a warm reset, and the fuse bank (R531, R532, R536, R539, R540). -/
namespace Sys2Proof.Machine
open Sys2Proof

/-- One record for each master that is carded when a reset flush begins (R90, R584). -/
def cardedRecords (s : State) : State := s.acm.cards.foldl (fun s e => post s 23 0x11 true e.2.code 0 e.1 0) s

/-- A reset flush begins (R532): power-fail to every block but the SGD, SG_FAIL_N not driven, no loss record. It ends in the reset
of type `typ` and cause `cause`. A request during a flush adds nothing to it. -/
def resetFlush (s : State) (typ cause : Nat) : State :=
  if s.sgd.pfail || !s.sgd.released then s
  else
    let s := cardedRecords s
    let t := now s
    let d := dirtyMib s
    failSteps { s with sgd := { s.sgd with pfail := true, step := 1, failAt := t, dirtyAt := d },
                       bot := { s.bot with want := some (typ, cause) } }

/-- FALLBACK: the running slot joins SKIP, and a warm reset starts (R536). -/
def fallBack (s : State) : State :=
  resetFlush (fon (fbiton s Fld.BOT_SLOT_SKIP (fget s Fld.BOT_STATE_SLOT)) Fld.BOT_EVENTS_FALLBACK) 3 4

/-- A write of BOT_CTRL: each bit reads 1 until the reset that it asks for has been taken, which returns the register to its reset value,
and a 1 written to a bit that is set has no further effect (R16, R19). -/
def wrBotCtrl (s : State) (v : Word) : State :=
  let s := genWrite s Reg.BOT_CTRL v
  let s := if bit v.toNat 1 && !fone s Fld.BOT_CTRL_FALLBACK then fallBack (fon s Fld.BOT_CTRL_FALLBACK) else s
  if bit v.toNat 0 && !fone s Fld.BOT_CTRL_RESET_WARM then resetFlush (fon s Fld.BOT_CTRL_RESET_WARM) 3 4 else s

def execWarmReset (m : Master) (s : State) : Out := .next (gated s m Reg.BOT_CTRL fun s => wrBotCtrl s 1)
def execBotFallback (m : Master) (s : State) : Out := .next (gated s m Reg.BOT_CTRL fun s => wrBotCtrl s 2)

/-- A warm reset that firmware requests: the open stripes are closed first (R532). -/
def firmwareReset (s : State) (cause : Nat) : State := resetFlush (stripesClose s) 3 cause

/-! ### Fuses (R539, R540) -/

/-- Fuse bits of an anti-rollback counter. -/
def ctrCap (k : Nat) : Nat := if k = 1 then 256 else 64

/-- A counter's value: its blown bits. -/
def ctrOf (s : State) (k : Nat) : Nat := SMap.getD s.bot.ctr k 0

/-- The highest value a counter can reach: bits that fail their read-back stay unblown. -/
def ctrTop (s : State) (k : Nat) : Nat := ctrCap k - (s.part.fuseBad.filter (· == k)).length

/-- Shows the counters and the keys. -/
def fuseShow (s : State) : State :=
  let s := (List.range 3).foldl (fun s k => fset (fset s (Fld.BOT_CTR_VALUE k) (ctrOf s k)) (Fld.BOT_CTR_CAP k) (ctrCap k)) s
  let s := fset s Fld.BOT_KEYS_REVOKED s.bot.revoked
  fset s Fld.BOT_KEYS_PRESENT ((List.range 4).foldl (fun n k => n + b2n (SMap.find s.bot.keys k).isSome * 2 ^ k) 0)

/-- A counter is raised: a bit that fails its read-back is passed over. Each raise gives an item to the BOOT entry. -/
def ctrRaise (s : State) (k target : Nat) : State :=
  let v := ctrOf s k
  if target ≤ v then s
  else
    let n := max v (min target (ctrTop s k))
    let failed := s.part.fuseBad.contains k
    let s := if failed then fon (fon s Fld.BOT_FUSE_ADV_FAIL) Fld.BOT_EVENTS_FUSE_FAIL else s
    if n = v then s
    else
      let it : MItem := { comp := 0x010A, digest := zeros 48, version := 2 + k, svn := n }
      let s := fon s Fld.BOT_EVENTS_ROLLBACK_ADVANCED
      fuseShow { s with bot := { s.bot with ctr := SMap.put s.bot.ctr k n, boots := s.bot.boots ++ [it] } }

/-- Keys are revoked: bit k of the mask names key k. -/
def keysRevoke (s : State) (mask : Nat) : State :=
  fuseShow { s with bot := { s.bot with revoked := s.bot.revoked ||| mask % 16 } }

/-- A write of BOT_FUSE_ADV: ignored once BOOT_OPEN is 0. -/
def wrFuseAdv (s : State) (v : Word) : State :=
  if !fone s Fld.DGE_LATCH_BOOT_OPEN then s
  else
    let n := v.toNat
    if !bit n 16 then s
    else if bits n 0 2 = 3 then keysRevoke s (bits n 2 4)
    else ctrRaise (foff s Fld.BOT_FUSE_ADV_FAIL) (bits n 0 2) (bits n 2 9)

def execFuseAdvance (m : Master) (v : Word) (s : State) : Out := .next (gated s m Reg.BOT_FUSE_ADV fun s => wrFuseAdv s v)

end Sys2Proof.Machine
end

