-- ==== Sys2Proof/Machine/Images.lean ====
section
/-! DEFINITION. Firmware images and customer microcode: checks, download, commit, slot writes and the loading of the control
stores (R356, R357, R533–R551). -/
namespace Sys2Proof.Machine
open Sys2Proof

/-! ### Images (R537, R538) -/

/-- The header of an image, and its vendor microcode words (R537). -/
def parseImage (b : List Byte) : Image :=
  { bytes := b, fwVer := u32 b 8, hdrVer := u32 b 12, svn := [u32 b 16, u32 b 20, u32 b 24], floor := [u32 b 28, u32 b 32, u32 b 36],
    len := u32 b 64, fmt := u16 b 68, abi := u8 b 70, key := u8 b 71, revoke := u8 b 312 % 16,
    digs := [slice b 72 48, slice b 120 48, slice b 168 48], ucode := slice b (u32 b 56 + 64) (u32 b 60 - 64) }

/-- Offset and length of part `k`. -/
def partAt (b : List Byte) (k : Nat) : Nat × Nat := (u32 b (40 + 8 * k), u32 b (44 + 8 * k))

/-- Step 2 of R538: the header and the layout of the three parts. -/
def imageForm (b : List Byte) : Bool :=
  let p1 := partAt b 0
  let p2 := partAt b 1
  let p3 := partAt b 2
  let i := parseImage b
  slice b 0 4 == [0x53, 0x4C, 0x4E, 0x46] && u16 b 4 == 1 && u16 b 6 == 512 && decide (512 ≤ i.len ∧ i.len ≤ 16777216) &&
  decide (512 ≤ p1.1 ∧ p1.1 + p1.2 ≤ p2.1 ∧ p2.1 + p2.2 ≤ p3.1 ∧ p3.1 + p3.2 ≤ i.len) &&
  decide (p1.2 ≤ 262144 ∧ p2.2 ≤ 12582912 ∧ p3.2 = 98368) &&
  ((List.range 3).all fun k => decide (i.floor.getD k 0 ≤ i.svn.getD k 0 ∧ i.floor.getD k 0 ≤ ctrCap k)) && !i.revoke.testBit i.key

/-- Step 3: the key is fused and not revoked; `pub` is the digest of PUBKEY. -/
def keyFused (s : State) (key : Nat) (pub : List Byte) : Bool :=
  SMap.find s.bot.keys key == some pub && !s.bot.revoked.testBit key

/-- Step 7: every security version reaches its counter. -/
def svnOk (s : State) (i : Image) : Bool := (List.range 3).all fun k => decide (ctrOf s k ≤ i.svn.getD k 0)

/-- The first check of R538 that fails on the bytes received, in the commit path. -/
def imageCheck (s : State) (b : List Byte) : Nat :=
  let i := parseImage b
  if b.length ≠ i.len then ST_BAD_LENGTH
  else if !imageForm b then ST_FW_FORMAT
  else if !keyFused s i.key (Config.sha384 (slice b 216 96)) then ST_FW_KEY
  else if !Config.p384Verify (slice b 216 96) (Config.sha384 (b.take 416)) (slice b 416 96) then ST_FW_SIG
  else if (List.range 3).any fun k => Config.sha384 (slice b (partAt b k).1 (partAt b k).2) != i.digs.getD k [] then ST_FW_DIGEST
  else if !svnOk s i then ST_FW_ROLLBACK
  else ST_OK

/-! ### The slots (R533, R535) -/

/-- The boot control record is updated: SEQ advances by 1. -/
def bcrPut (s : State) (b : Bcr) : State :=
  let s := { s with bot := { s.bot with bcr := { b with seq := s.bot.bcr.seq + 1 } } }
  let b := s.bot.bcr
  let s := fset (fset s Fld.BOT_SLOT_VALID b.valid) Fld.BOT_SLOT_ACTIVE b.active
  fset (fset s Fld.BOT_SLOT_PENDING (if b.pending ≤ 1 then b.pending + 1 else 0)) Fld.BOT_SLOT_TRIES b.tries

/-- The slot that runs; none in recovery. -/
def runningSlot (s : State) : Option Nat := if s.bot.recovery then none else some (fget s Fld.BOT_STATE_SLOT)

/-- The inactive slot: the one that does not run; in recovery the one that is not ACTIVE. -/
def inactiveSlot (s : State) : Nat :=
  match runningSlot s with
  | some k => 1 - k
  | none => 1 - s.bot.bcr.active

/-- VALID of a slot. -/
def slotValid (s : State) (k : Nat) : Bool := s.bot.bcr.valid.testBit k

/-- Sectors `first` to `first + n - 1` are erased. -/
def sectorsErase (s : State) (first n : Nat) : State :=
  let out := fun w => decide (w / 512 < first ∨ first + n ≤ w / 512)
  let s := { s with cls := { s.cls with nor := SMap.keep s.cls.nor fun w _ => out w } }
  let e := (List.range n).foldl (fun m k => SMap.put m (first + k) (min 0x1FFFF (SMap.getD m (first + k) 0 + 1))) s.cls.erases
  { s with cls := { s.cls with erases := e } }

/-- The sectors of a slot are locked or unlocked. -/
def slotLock (s : State) (k : Nat) (b : Bool) : State := (List.range 4096).foldl (fun s i => lockSet s (4096 * k + i) b) s

/-- A slot is made ready for an image of `len` bytes (R544): unlocked, VALID cleared, the sectors it needs erased. -/
def slotPrepare (s : State) (k len : Nat) : State :=
  let s := slotLock s k false
  let s := bcrPut s { s.bot.bcr with valid := if slotValid s k then s.bot.bcr.valid - 2 ^ k else s.bot.bcr.valid }
  let s := { s with bot := { s.bot with img := SMap.del s.bot.img k } }
  sectorsErase s (4096 * k) (roundUp (min 16777216 len) 4096 / 4096)

/-! ### Download (R544) -/

/-- What bars a download or a piece of one for an owner, or ST_OK. -/
def dlBar (s : State) (owner : Nat) : Nat :=
  if s.bot.wr.isSome then ST_FW_WRITING
  else if (match s.bot.dl with | some d => d.owner != owner | none => false) then ST_BUSY
  else if s.mbx.chans.any fun e => e.1 != owner && (match e.2.volley with | some v => v.inbound && v.opcode == 0x0802 | none => false) then
    ST_BUSY
  else ST_OK

/-- What keeps the slot's sectors from being unlocked and erased, or ST_OK. -/
def slotBar (s : State) : Nat :=
  if pulsesBlocked s then ST_BROWNOUT else if fone s Fld.CLS_PW_STATE_BARRED then ST_PW_BARRED else ST_OK

/-- Bytes in the download buffer; a download is complete once IMAGE_LEN bytes have arrived. -/
def dlPut (s : State) (owner : Nat) (b : List Byte) : State :=
  { s with bot := { s.bot with dl := some { owner := owner, bytes := b, whole := decide (512 ≤ b.length ∧ u32 b 64 ≤ b.length) } } }

/-- The volley of FW_DOWNLOAD is complete. -/
def fwDownload (owner : Nat) (b : List Byte) (s : State) : Ans × State :=
  if dlBar s owner ≠ ST_OK then (ansSt (dlBar s owner), s)
  else if slotBar s ≠ ST_OK then (ansSt (slotBar s), s)
  else (ansOk [], dlPut (slotPrepare s (inactiveSlot s) (u32 b 64)) owner b)

/-- FW_DOWNLOAD: an inbound volley of at most 16 MiB whose total equals IMAGE_LEN. -/
def fwDownloadDef : OpDef :=
  { opc := 0x0802, hw := false, limit := 16777216, start := fun s c _ _ => dlBar s c.ch,
    layout := fun p => decide (512 ≤ p.length) && u32 p 64 == p.length,
    work := fun _ c p s => let a := fwDownload c.ch p s; (some a.1, a.2) }

def execFwDownload (r : Rq) (s : State) : Out := .next (mbxRun fwDownloadDef r s)

/-! ### Commit (R545, R547) -/

/-- The slot a commit names: 0xFF is the inactive one. -/
def commitSlot (s : State) (k : Nat) : Nat := if k = 0xFF then inactiveSlot s else k

/-- Actions 0 and 1: the checks on the buffer, and then the write of the slot begins. -/
def commitStore (s : State) (k act : Nat) (warm : Bool) : Nat × State :=
  if s.bot.wr.isSome then (ST_FW_WRITING, s)
  else if 1 < k ∨ runningSlot s = some k then (ST_FW_SLOT, s)
  else
    match s.bot.dl with
    | none => (ST_FW_NO_IMAGE, s)
    | some d =>
      if !d.whole then (ST_FW_NO_IMAGE, s)
      else if imageCheck s d.bytes ≠ ST_OK then (imageCheck s d.bytes, s)
      else if slotBar s ≠ ST_OK then (slotBar s, s)
      else
        let s := if k = inactiveSlot s then s else slotPrepare s k d.bytes.length
        let t := now s
        let wr : SlotWrite := { slot := k, act := act, warm := warm, image := parseImage d.bytes }
        let leave := if s.bot.recovery && act == 1 then some (t + 100000000, 7) else s.bot.warmAt
        (ST_OK, { s with bot := { s.bot with wr := some wr, dl := none, warmAt := leave } })

/-- Action 2: a VALID slot becomes PENDING after step 7 against its header. -/
def commitActivate (s : State) (k : Nat) (warm : Bool) : Nat × State :=
  if s.bot.wr.isSome then (ST_FW_WRITING, s)
  else if 1 < k ∨ runningSlot s = some k ∨ !slotValid s k then (ST_FW_SLOT, s)
  else
    match SMap.find s.bot.img k with
    | none => (ST_FW_SLOT, s)
    | some i =>
      if !svnOk s i then (ST_FW_ROLLBACK, s)
      else if pulsesBlocked s then (ST_BROWNOUT, s)
      else
        let s := bcrPut s { s.bot.bcr with pending := k, tries := 0 }
        let t := now s
        if s.bot.recovery then (ST_OK, { s with bot := { s.bot with warmAt := some (t + 100000000, 7) } })
        else (ST_OK, if warm then firmwareReset s 6 else s)

/-- A commit, by action. -/
def commit (s : State) (k act : Nat) (warm : Bool) : Nat × State :=
  if act = 2 then commitActivate s (commitSlot s k) warm else commitStore s (commitSlot s k) act warm

/-- FW_COMMIT: SLOT, ACTION, CFLAGS. -/
def fwCommit (p : List Byte) (s : State) : Ans × State :=
  let a := commit s (u8 p 0) (u8 p 1) (bit (u8 p 2) 0)
  (ansSt a.1, a.2)

def fwCommitDef : OpDef := opDef 0x0803 (fun p => p.length == 4 && decide (u8 p 1 ≤ 2)) fun _ p s => fwCommit p s

def execFwCommitStore (r : Rq) (s : State) : Out := .next (mbxRun fwCommitDef r s)
def execFwCommitStoreActivate (r : Rq) (s : State) : Out := .next (mbxRun fwCommitDef r s)
def execFwCommitActivate (r : Rq) (s : State) : Out := .next (mbxRun fwCommitDef r s)

/-- The slot write ends (R546): the read-back is good, the slot is locked, VALID, for action 1 PENDING, and recorded. While no
pulse can be given, or no entry can record it, the write waits. -/
def slotWriteDone (s : State) : State :=
  match s.bot.wr with
  | none => s
  | some w =>
    if pulsesBlocked s || pfail s then s
    else
      let it : MItem := { comp := 0x0105, digest := Config.sha384 w.image.bytes, version := w.image.fwVer, svn := w.image.svn.getD 1 0 }
      match eventAppend s [it] with
      | none => s
      | some s =>
        let s := slotLock { s with bot := { s.bot with img := SMap.put s.bot.img w.slot w.image, wr := none } } w.slot true
        let v := s.bot.bcr.valid ||| 2 ^ w.slot
        let s := bcrPut s (if w.act = 1 then { s.bot.bcr with valid := v, pending := w.slot, tries := 0 } else { s.bot.bcr with valid := v })
        if w.warm && s.bot.warmAt.isNone then firmwareReset s 6 else s

def execSlotWriteDone (s : State) : Out := .next (slotWriteDone s)

/-- The exit from recovery (R551): 100 ms after the response and after the write, a warm reset. -/
def recoveryExit (s : State) : State :=
  match s.bot.warmAt with
  | some (t, c) => if s.bot.recovery && s.bot.wr.isNone then resetFlush (reach s t) 3 c else s
  | none => s

def execRecoveryExit (s : State) : Out := .next (recoveryExit s)

/-! ### FW_SLOT_INFO (R554) -/

/-- SLOT[k]: a slot without an image reads 0 but for FAIL. -/
def slotEntry (s : State) (k : Nat) : List Byte :=
  let fail := if k = 0 then s.bot.bcr.failA else s.bot.bcr.failB
  match (if slotValid s k then SMap.find s.bot.img k else none) with
  | some i => le 1 1 ++ le 1 i.abi ++ le 2 fail ++ le 4 i.fwVer ++ ((List.range 3).flatMap fun j => le 4 (i.svn.getD j 0)) ++ le 2 i.fmt ++ zeros 2
  | none => le 1 (b2n (slotValid s k)) ++ zeros 1 ++ le 2 fail ++ zeros 20

/-- The write's state and progress: what the spec does not state while a write runs. -/
def writeProgress (s : State) : (Nat × Nat) × State :=
  if s.bot.wr.isNone then ((0, 0), s) else ((1 + openVal s % 3, openVal s / 4 % 101), openTaken s)

def fwSlotInfo (s : State) : Ans × State :=
  let w := writeProgress s
  let b := s.bot.bcr
  (ansOk (le 1 ((runningSlot s).getD 0xFF) ++ le 1 b.active ++ le 1 b.pending ++ le 1 b.tries ++ le 1 w.1.1 ++ le 1 w.1.2 ++
    le 1 (b2n (inband s)) ++ zeros 1 ++ ((List.range 3).flatMap fun k => le 4 (ctrOf s k)) ++ zeros 4 ++ slotEntry s 0 ++ slotEntry s 1), w.2)

def execFwSlotInfo (r : Rq) (s : State) : Out :=
  .next (mbxRun (opDef 0x0801 (fun p => p.isEmpty) fun _ _ s => fwSlotInfo s) r s)

/-! ### Customer microcode (R356, R357, R541) -/

/-- The half that holds the customer image with the higher sequence number. -/
def custHalf (s : State) : Option Nat :=
  match SMap.find s.bot.cust 0, SMap.find s.bot.cust 1 with
  | some a, some b => some (if a.seq < b.seq then 1 else 0)
  | some _, none => some 0
  | none, some _ => some 1
  | none, none => none

/-- The customer image in service: an image of 0 words removes it. -/
def custNow (s : State) : Option Cust :=
  match custHalf s with
  | some h => match SMap.find s.bot.cust h with
    | some c => if c.words.isEmpty then none else some c
    | none => none
  | none => none

/-- The slot that the next boot tries first (R535). -/
def nextSlot (s : State) : Nat :=
  let b := s.bot.bcr
  if b.pending ≤ 1 ∧ slotValid s b.pending ∧ b.tries < 3 then b.pending else b.active

/-- The certificates of a chain: each a DER sequence with a two-byte length. -/
def derSplit : Nat → List Byte → Option (List (List Byte))
  | 0, _ => none
  | n + 1, b =>
    if b.isEmpty then some []
    else
      let len := 4 + 256 * u8 b 2 + u8 b 3
      if u8 b 0 ≠ 0x30 ∨ u8 b 1 ≠ 0x82 ∨ b.length < len then none
      else
        match derSplit n (b.drop len) with
        | some l => some (b.take len :: l)
        | none => none

/-- Step 6 of R357 on the word at `6144 + k`. -/
def wordOk (entries k w : Nat) : Bool :=
  let m := mword w
  let open_ := decide (6144 ≤ m.next)
  !bit w 71 && decide (w < 2 ^ 106) && decide (m.count ≤ 16384) &&
  (if m.seq = 1 ∨ m.seq = 2 ∨ m.seq = 6 then open_ else if m.seq = 3 then open_ && m.next % 16 == 0
   else if m.seq = 4 then open_ || decide (m.next ≤ 11) else true) &&
  !(m.alu == 7 && decide (m.imm < 6144)) && (decide (entries ≤ k) || m.seq == 1)

/-- The 16-byte words of a code. -/
def codeWords (p : List Byte) (n : Nat) : List Nat := (List.range n).map fun k => u64 p (64 + 16 * k) + 2 ^ 64 * u64 p (72 + 16 * k)

/-- Step 1 of R357: the total is what the head gives, within its ranges. -/
def ucodeLen (p : List Byte) : Bool :=
  decide (160 ≤ p.length ∧ u16 p 2 ≤ 2048 ∧ u16 p 12 ≤ 3072) && p.length == 64 + 16 * u16 p 2 + u16 p 12 + 96

/-- Step 3: the chain ends in the manager anchor, and its leaf signed the image. -/
def ucodeSigned (s : State) (p : List Byte) : Bool :=
  let chain := slice p (64 + 16 * u16 p 2) (u16 p 12)
  let body := p.take (p.length - 96)
  match derSplit (chain.length + 1) chain, s.kst.mgrAnchor with
  | some (leaf :: rest), some a =>
    Config.sha384 ((leaf :: rest).getLastD []) == a && Config.p384Verify (Config.certKey leaf) (Config.sha384 body) (p.drop (p.length - 96))
  | _, _ => false

/-- The first check of R357 that fails, or ST_OK. -/
def ucodeCheck (s : State) (p : List Byte) : Nat :=
  let n := u16 p 2
  let abi := match SMap.find s.bot.img (nextSlot s) with | some i => i.abi | none => 0
  let words := codeWords p n
  if !ucodeLen p then ST_BAD_LENGTH
  else if u16 p 0 ≠ 1 ∨ u8 p 7 ≠ 0 ∨ u16 p 14 ≠ 0 ∨ Config.sha384 (slice p 64 (16 * n)) ≠ slice p 16 48 then ST_UCODE_CODE
  else if !ucodeSigned s p then ST_UCODE_SIG
  else if u16 p 4 ≠ abi then ST_UCODE_ABI
  else if (match custNow s with | some c => decide (u32 p 8 < c.svn) | none => false) then ST_UCODE_ROLLBACK
  else if 64 < u8 p 6 ∨ (n < u8 p 6 ∧ n ≠ 0) ∨ ((List.range n).any fun k => !wordOk (u8 p 6) k (words.getD k 0)) then ST_UCODE_CODE
  else ST_OK

/-- UCODE_LOAD: recorded, and stored in the other half for the next boot. -/
def ucodeLoad (p : List Byte) (s : State) : Ans × State :=
  if ucodeCheck s p ≠ ST_OK then (ansSt (ucodeCheck s p), s)
  else if pulsesBlocked s then (ansSt ST_BROWNOUT, s)
  else
    let it : MItem := { comp := 0x0104, digest := slice p 16 48, version := u16 p 4, svn := u32 p 8 }
    match eventAppend s [it] with
    | none => (ansSt ST_BUSY, s)
    | some s =>
      let old := custHalf s
      let h := match old with | some k => 1 - k | none => 0
      let seq := match old with | some k => (match SMap.find s.bot.cust k with | some c => c.seq + 1 | none => 1) | none => 1
      let s := sectorsErase s (8192 + 512 * h) (roundUp (8 + p.length) 4096 / 4096)
      let c : Cust := { seq := seq, abi := u16 p 4, svn := u32 p 8, digest := slice p 16 48, words := codeWords p (u16 p 2), entries := u8 p 6 }
      (ansOk [], { s with bot := { s.bot with cust := SMap.put s.bot.cust h c } })

def ucodeLoadDef : OpDef :=
  { opc := 0x0805, hw := false, limit := 65536, start := fun _ _ _ _ => ST_OK, layout := fun _ => true,
    work := fun _ _ p s => let a := ucodeLoad p s; (some a.1, a.2) }

def execUcodeLoad (r : Rq) (s : State) : Out := .next (mbxRun ucodeLoadDef r s)

/-! ### Control stores (R541) -/

/-- The control store of a channel is loaded from the shadow. -/
def storeLoad (s : State) (ch : Nat) : State :=
  let d := shadowDigest s
  digestShow (chsPut s ch { chsOf s ch with code := s.bot.shadow.2, entries := s.bot.shadowEnts, digest := d }) ch d

/-- The channels of the part. -/
def chanCount (s : State) : Nat := if s.part.is7632 then 32 else 64

/-- A write of BOT_UCODE_CTRL: GO loads one channel or all of them. -/
def wrUcodeCtrl (s : State) (v : Word) : State :=
  let n := v.toNat
  if !bit n 7 then s
  else
    let l := if bit n 6 then List.range (chanCount s) else if bits n 0 6 < chanCount s then [bits n 0 6] else []
    fset (l.foldl storeLoad s) Fld.BOT_UCODE_CTRL_STATUS ST_OK

def execUcodeControlStoreLoad (m : Master) (v : Word) (s : State) : Out :=
  .next (gated s m Reg.BOT_UCODE_CTRL fun s => wrUcodeCtrl s v)

end Sys2Proof.Machine
end

