-- ==== Sys2Proof/Machine/SelfTest.lean ====
section
/-! DEFINITION. Self-tests, the diagnostic counters, and the hold-up test opcode (R155–R160, R443, R455, R456). -/
namespace Sys2Proof.Machine
open Sys2Proof

/-- QEN_DST; PERCENT of a running test is a value the spec does not state. -/
def dstShow (s : State) : State :=
  let s := fset (fset s Fld.QEN_DST_STATE s.hst.dst.st) Fld.QEN_DST_ORIGIN s.hst.dst.origin
  fset s Fld.QEN_DST_PERCENT 0

/-- Progress of the running test. -/
def dstPercent (s : State) : Nat × State := if s.hst.dst.st = 0 then (0, s) else (openVal s % 101, openTaken s)

/-- Begins a self-test's read of one unit, in class Q3 (R156, R266). -/
def testRead (seg : Nat) (s : State) (e : Nat × Loc) : State :=
  match infoOwner s e.1 with
  | some (id, n, unit) =>
    let k := s.dsc.nextId
    let s := bgStart s 3 n.slice id unit e.2
    let s := { s with dsc := { s.dsc with bg := SMap.upd s.dsc.bg k fun r => { r with test := seg } } }
    serveRead s (bgBase + k) 0
  | none => s

/-- Two locations on one page. -/
def samePage (x y : Loc) : Bool :=
  match x, y with
  | .flash d b p _, .flash d' b' p' _ => d == d' && b == b' && p == p'
  | _, _ => false

/-- The closed stripe blocks in use of a group. -/
def closedBlocks (s : State) (g : Nat) : List Nat :=
  (s.med.inUse.filter fun e => e.1 / 1048576 == g && e.2.full).map fun e => e.1 % 1048576

/-- Segment 6: the valid units of one page of each group in use. -/
def sampleUnits (s : State) : List (Nat × Loc) :=
  (groupCount s).flatMap fun g =>
    match (closedBlocks s g).find? fun b => !(liveUnits s g b fun _ => true).isEmpty with
    | some b =>
      let l := liveUnits s g b fun _ => true
      l.filter fun e => match l.head? with | some h => samePage h.2 e.2 | none => false
    | none => []

/-- Segment 7: the valid units of one in a hundred of the stripe blocks in use, the same of each die of a group. -/
def scanSample (s : State) : List (Nat × Loc) :=
  (groupCount s).flatMap fun g =>
    let l := closedBlocks s g
    ((l.zip (List.range l.length)).filter fun e => e.2 % 100 == 0).flatMap fun e => liveUnits s g e.1 fun _ => true

/-- A test starts; none while another runs (R157). Its media segments are queued (R155, R156). -/
def dstStart (s : State) (st origin : Nat) : State :=
  let s := dstShow { s with hst := { s.hst with dst := { s.hst.dst with st := st, origin := origin, fails := [] } } }
  let s := (sampleUnits s).foldl (testRead 6) s
  if st = 2 then (scanSample s).foldl (testRead 7) s else s

/-- The running test, `st`, ends with a result code; the last 20 results are kept, newest first (R159). -/
def dstRecord (s : State) (st code seg nsid lba : Nat) : State :=
  let t := now s
  let r : DstResult := { code := code, extended := st == 2, segment := seg, time := t, nsid := nsid, lba := lba }
  let bg := s.dsc.bg.map fun e => (e.1, { e.2 with test := 0 })
  dstShow { s with hst := { s.hst with dst := { s.hst.dst with st := 0, results := (r :: s.hst.dst.results).take 20, fails := [] } },
                   dsc := { s.dsc with bg := bg } }

/-- A running test ends early with a code (R158). -/
def dstAbort (s : State) (code : Nat) : State := if s.hst.dst.st = 0 then s else dstRecord s s.hst.dst.st code 0 0 0

/-- Segment 3 fails: the last discharge test did not pass, or the bank lies more than 3 % from the target while the charger maintains
it (R442). -/
def holdupFails (s : State) : Bool :=
  fget s Fld.SGD_TEST_CTRL_RESULT != 1 ||
  (chgNow s == 2 && (let t := bankTarget s; let v := fget s Fld.SGD_HU_STATE_VBANK_10MV; decide (3 * t < 100 * (v - t) ∨ 3 * t < 100 * (t - v))))

/-- Segment 4 fails: a chunk of the last checkpoint, or a journal unit, can be read in neither copy. -/
def metaFails (s : State) : Bool :=
  s.med.metas.any fun e => (match e.2.chunk with | some c => c + 1 == s.med.anchors | none => true) && metaUnreadable e.2 s

/-- The unit that the tables place at a location stands there by its header, as far as its die can be read. -/
def placeAgrees (s : State) (nsid unit : Nat) (l : Loc) : Bool :=
  match l with
  | .flash d b p u => dieGone s d || headerFor s nsid unit (unitAt s d (srcPhys s d b p) p u)
  | _ => true

/-- The units that a zone's run records and extents place. -/
def zonePlaced (z : Zone) : List Nat :=
  (z.runs.flatMap fun r => (List.range r.len).map (r.off + ·)) ++
  ((z.exts.filter fun e => !e.pad).flatMap fun e => (List.range e.len).map (e.off + ·))

/-- The units of a namespace that its map entries, or the descriptors, runs and extents of its zones, place. -/
def nsPlaced (s : State) (n : Ns) : List Nat :=
  if n.zoned then
    (s.zne.zones.filter fun e => decide (n.base ≤ e.1 ∧ e.1 < n.base + zoneCount n)).flatMap fun e =>
      (zonePlaced e.2).map ((e.1 - n.base) * zoneUnits n + ·)
  else (s.zne.conv.filter fun c => decide (n.base ≤ c.1 ∧ c.1 < n.base + n.cap)).map fun c => c.1 - n.base

/-- The first unit for which a map entry, a run record or an extent disagrees with the header of the unit it names, by namespace and LBA
(segment 7). -/
def mapDisagrees (s : State) : Option (Nat × Nat) :=
  (s.zne.ns.flatMap fun e =>
    ((nsPlaced s e.2).filter fun unit => !placeAgrees s e.1 unit (unitLoc s e.2 unit)).map fun unit => (e.1, unit * lbasPerUnit e.2)).head?

/-- The journal records that stand in metadata units or in the tail. -/
def journalRecs (s : State) : List JRec := (s.med.metas.filter fun e => e.2.chunk.isNone).flatMap (·.2.recs) ++ s.med.tail

/-- A STRIPE_CLOSE record of a stripe block in 15+1 stripes, still in use and not erased since, that disagrees with the headers of the units
it names (segment 7). -/
def closeDisagrees (s : State) (l : List JRec) (r : JRec) : Bool :=
  match r.body with
  | g :: b :: page :: pos :: heads =>
    match SMap.find s.med.inUse (sbKey g b) with
    | some u =>
      if r.type ≠ 1 ∨ u.par7 ∨ l.any fun x => x.type == 8 && decide (r.seq < x.seq) && x.body == [g, b] then false
      else
        (List.range (heads.length / 2)).any fun i =>
          match memberLoc s g b (4 * page + pos) 0 i with
          | .flash d x p k =>
            let info := unitAt s d (srcPhys s d x p) p k
            !dieGone s d && (infoLaddr info != heads.getD (2 * i) 0 || infoSeq info != heads.getD (2 * i + 1) 0)
          | _ => false
    | none => false
  | _ => false

/-- The segments of the running test that its checks find failed, with what failed. Those of segments 1 and 5 (the DRAM test region,
the engines' known answers) are an operand. -/
def segFails (s : State) (seg : Nat) : List (Nat × Nat × Nat) :=
  let one : Nat → Bool → List (Nat × Nat × Nat) := fun k b => if b then [(k, 0, 0)] else []
  one 1 (seg == 1 || s.hst.dst.fails.any fun e => e.1 == 1) ++ one 2 ((List.range 4).any fun p => portThere s p && critWarn s p != 0) ++ one 3 (holdupFails s) ++
  one 4 (metaFails s) ++ one 5 (seg == 5) ++ s.hst.dst.fails.filter (fun e => e.1 == 6) ++ s.hst.dst.fails.filter (fun e => e.1 == 7) ++
  (if s.hst.dst.st = 2 then
    (match mapDisagrees s with | some e => [(7, e.1, e.2)] | none => []) ++ one 7 (s.zne.zones.any fun e => e.2.spoilt) ++
    one 7 ((journalRecs s).any (closeDisagrees s (journalRecs s)))
   else [])

/-- The running test has passed its last segment, none of its reads outstanding: it records the first segment that failed (R155). -/
def selftestEnd (s : State) (seg : Nat) : State :=
  if s.hst.dst.st = 0 || s.dsc.bg.any (fun e => e.2.test != 0) then s
  else
    match segFails s seg with
    | [] => psRefresh (dstRecord s s.hst.dst.st 0 0 0 0)
    | e :: _ => psRefresh (dstRecord s s.hst.dst.st 7 e.1 e.2.1 e.2.2)

def execSelftestEnd (seg : Nat) (s : State) : Out := .next (selftestEnd s seg)

/-- SELFTEST_START: the request's TFLAGS bit 0 selects the extended test. -/
def selftestStart (ext : Bool) (s : State) : Ans × State :=
  if s.hst.dst.st ≠ 0 then (ansSt ST_BUSY, s) else (ansOk [], dstStart s (if ext then 2 else 1) 4)

def selftestStartDef : OpDef := opDef 0x0A01 (fun p => p.length == 4) fun _ p s => selftestStart (bit (u8 p 0) 0) s

def execSelftestStartShort (r : Rq) (s : State) : Out := .next (mbxRun selftestStartDef r s)
def execSelftestStartExtended (r : Rq) (s : State) : Out := .next (mbxRun selftestStartDef r s)

/-- SELFTEST_STATUS. With no result yet the code is Fh, an entry not used. -/
def selftestStatus (s : State) : Ans × State :=
  let p := dstPercent s
  let last := match s.hst.dst.results with
    | r :: _ => le 1 (r.code % 16 + 16 * (if r.extended then 2 else 1)) ++ le 1 r.segment ++ zeros 3 ++ le 8 r.time
    | [] => le 1 0x0F ++ zeros 12
  (ansOk (le 1 s.hst.dst.st ++ le 1 p.1 ++ le 1 s.hst.dst.origin ++ last), p.2)

def execSelftestStatus (r : Rq) (s : State) : Out :=
  .next (mbxRun (opDef 0x0A02 (fun p => p.isEmpty) fun _ _ s => selftestStatus s) r s)

/-- SELFTEST_ABORT completes with ST_OK whether or not a test was running. -/
def execSelftestAbort (r : Rq) (s : State) : Out :=
  .next (mbxRun (opDef 0x0A03 (fun p => p.isEmpty) fun _ _ s => (ansOk [], dstAbort s 1)) r s)

/-- The DIAG_COUNTERS response (R160): 64-bit counts that saturate. -/
def diagPay (s : State) : List Byte :=
  let d := s.hst.diag
  [d.hostCmds, d.ldpc, d.retries, d.soft, d.uncorr, d.rebound, d.recover, d.dmaErr].flatMap fun n => le 8 (sat 64 n)

def execDiagCounters (r : Rq) (s : State) : Out := .next (mbxRun (opRead 0x0A04 fun _ s => ansOk (diagPay s)) r s)

/-! ### HOLDUP_TEST (R443, R455, R456) -/

/-- The HOLDUP_TEST response. -/
def holdupPay (s : State) : List Byte :=
  le 1 (testSt s) ++ le 1 (fget s Fld.SGD_TEST_CTRL_RESULT) ++ le 2 (fget s Fld.SGD_HU_STATE_ESR_MOHM) ++
  le 4 (fget s Fld.SGD_HU_CAP_CMEAS_10UF) ++ le 2 (fget s Fld.SGD_DIRTY_LIMIT_MIB) ++ le 2 (fget s Fld.SGD_HU_STATE_VBANK_10MV) ++
  zeros 4 ++ le 8 (pget s Reg.SGD_TEST_TIME_LO Reg.SGD_TEST_TIME_HI)

/-- A start asked for through the mailbox, or a report. -/
def holdupTest (start : Bool) (s : State) : Ans × State :=
  if !start then (ansOk (holdupPay s), s)
  else if testSt s ≠ 0 then (ansSt ST_HU_BUSY, s)
  else if !s.sgd.dist.isEmpty then (ansSt ST_HU_INPUT, s)
  else if fone s Fld.SGD_EVENTS_CHARGE_FAULT || fone s Fld.SGD_EVENTS_BANK_OV then (ansSt ST_HU_FAULT, s)
  else
    let s := testSchedule s
    (ansOk (holdupPay s), s)

def holdupTestDef : OpDef := opDef 0x0A05 (fun p => p.length == 4) fun _ p s => holdupTest (bit (u8 p 0) 0) s

def execHoldupTestStart (r : Rq) (s : State) : Out := .next (mbxRun holdupTestDef r s)
def execHoldupTestReport (r : Rq) (s : State) : Out := .next (mbxRun holdupTestDef r s)

end Sys2Proof.Machine
end

