-- ==== Sys2Proof/Machine/Recovery.lean ====
section
/-! DEFINITION. The rolling checkpoint with its chunks and its anchor, the choice between checkpoint and full scan at a boot, and how a full
scan resolves what it finds (R321, R322, R327–R329; notes/assumptions/45.md). -/
namespace Sys2Proof.Machine
open Sys2Proof

/-! ### The tables as chunks (R321, R322) -/

/-- Zone descriptor indices that the tables reach. -/
def zoneTop (s : State) : Nat := s.zne.zones.foldl (fun n e => max n (e.1 + 1)) 0

/-- Numbers as a table: how many, then each in 64 bits (the layout is the model's; notes/assumptions/45.md). -/
def wordTable (l : List Nat) : List Byte := le 8 l.length ++ l.flatMap (le 8)

/-- The slice, namespace and class definitions. -/
def defTable (s : State) : List Byte :=
  wordTable (((s.slm.slices.map (·.1)).flatMap fun k => k :: (defWords s 0 k ++ defWords s 3 k)) ++
    ((s.zne.ns.map (·.1)).flatMap fun k => k :: defWords s 1 k) ++ ((s.plc.classes.map (·.1)).flatMap fun k => k :: defWords s 2 k))

/-- The stripe-block tables, P/E counts, spare and retirement state, and the lost-member list. -/
def blockTable (s : State) : List Byte :=
  wordTable ((s.med.table.flatMap fun e => [e.1, e.2]) ++
    (s.med.blocks.flatMap fun e => [e.1, e.2.pe, e.2.mode + 4 * e.2.repairs, b2n e.2.retired + 2 * b2n e.2.spare]) ++ s.med.dropped ++
    (s.med.dies.flatMap fun e => [e.1, e.2]) ++ (s.med.losses.flatMap fun e => e.1 :: e.2))

/-- The tables of R321 in their fixed order. -/
def tables (s : State) : List (List Byte) :=
  [(List.range (zoneTop s)).flatMap (zoneDescBytes s),
   (List.range (zoneTop s)).flatMap fun z => ((List.range 64).flatMap fun i =>
     match (zoneGet s z).exts[i]? with | some e => extBytes e | none => zeros 16),
   (List.range (runCount s.zne.zones)).flatMap (recordBytes s s.zne.zones 0),
   (List.range (s.zne.conv.foldl (fun n e => max n (e.1 + 1)) 0)).flatMap fun i =>
     le 8 (match SMap.find s.zne.conv i with | some e => convWord e | none => 0),
   defTable s, blockTable s, le 8 s.zne.seq]

/-- A table in chunks of 64 KiB, the last filled with zeros. -/
def chunks (l : List Byte) : List (List Byte) :=
  (List.range (l.length / 65536 + 1)).map fun i => slice (l ++ zeros 65536) (65536 * i) 65536

/-- Writes one chunk: 16 metadata units, stamped with the SEQ taken when it was copied. -/
def chunkWrite (s : State) (k stamp : Nat) (b : List Byte) : State :=
  (List.range 16).foldl (fun s i =>
    (metaWrite s { chunk := some k, seq := stamp, payload := leNat (slice b (4096 * i) 4096), copies := [] }).2) s

/-- Where a metadata unit's copies lie, as a record names them. -/
def metaAt (s : State) (id : Nat) : List Nat :=
  match SMap.find s.med.metas id with | some u => u.copies.map locWord | none => []

/-- Writes the chunks of checkpoint cycle `k` in their order and journals each with its location (R322, R323). -/
def chunksWrite (s : State) (k : Nat) : State :=
  (tables s).flatMap chunks |>.foldl (fun s b =>
    let id := s.med.nextMeta
    let t := chunkWrite s k s.zne.seq b
    journal t 11 (id :: metaAt t id)) s

/-- The chunks of earlier cycles are no longer needed. -/
def chunksDrop (s : State) (k : Nat) : State :=
  let gone := s.med.metas.filter fun e => match e.2.chunk with | some c => decide (c < k) | none => false
  let s := gone.foldl (fun s e => e.2.copies.foldl metaUnitDrop s) s
  { s with med := { s.med with metas := s.med.metas.filter fun e => match e.2.chunk with | some c => decide (k ≤ c) | none => true } }

/-! ### Anchors (R322, R327) -/

/-- The Clasp word at which anchor `k` begins: the emergency flush index area holds 32,768 of four words. -/
def anchorWord (k : Nat) : Nat := 14592 * 512 + k % 32768 * 4

/-- The words of an anchor: the cycle's first chunk, the journal position, the cycle, and a CRC-32 (the form is the model's;
notes/assumptions/45.md). -/
def anchorWords (first pos k : Nat) : List Nat := [first, pos, k, crc32 (le 8 first ++ le 8 pos ++ le 8 k)]

/-- Appends the anchor of cycle `k` in the emergency flush index area; a sector is erased before its first anchor. -/
def anchorAppend (s : State) (first pos k : Nat) : State :=
  let w := anchorWord k
  let nor := if w % 512 = 0 then s.cls.nor.filter fun e => e.1 / 512 != w / 512 else s.cls.nor
  { s with cls := { s.cls with nor := ((anchorWords first pos k).zip (List.range 4)).foldl (fun t e => SMap.put t (w + e.2) e.1) nor } }

/-- The anchor that begins at a Clasp word, where its CRC-32 matches: cycle, first chunk, journal position. -/
def anchorAt (s : State) (w : Nat) : Option (Nat × Nat × Nat) :=
  let x := fun (i : Nat) => SMap.getD s.cls.nor (w + i) 0
  if (SMap.find s.cls.nor w).isSome && anchorWords (x 0) (x 1) (x 2) == [x 0, x 1, x 2, x 3] then some (x 2, x 0, x 1) else none

/-- The newest anchor that is valid (R327 step 1). -/
def anchorRead (s : State) : Option (Nat × Nat × Nat) :=
  ((s.cls.nor.filter fun e => decide (14592 * 512 ≤ e.1 ∧ e.1 < 14848 * 512) && e.1 % 4 == 0).filterMap fun e => anchorAt s e.1).foldl
    (fun best a => match best with | some b => if b.1 < a.1 then some a else best | none => some a) none

/-- A checkpoint cycle completes (R322): every chunk is written, the journal lies in metadata stripes, an anchor names the cycle's first
chunk and the journal position, and the next cycle begins. -/
def checkpointEnd (s : State) : State :=
  let t := s.med.ckptAt + (max 1 (fget s Fld.LDC_MED_CKPT_PERIOD_S)) * 1000000000
  let s := if fget s Fld.LDC_MED_CKPT_JRN_MAX_MIB * 256 ≤ s.med.jrnUnits then s else reach s t
  let k := s.med.anchors
  let first := s.med.nextMeta
  let s := anchorAppend (chunksDrop (tailWrite (chunksWrite s k) true) k) first s.med.ckptSeq k
  emgErase { s with med := { s.med with anchors := k + 1, anchor := some (first, s.med.ckptSeq), ckptDone := s.med.ckptSeq,
                                        ckptSeq := s.zne.seq, ckptAt := now s, jrnUnits := 0 } }

def execCheckpointCycleEnd (s : State) : Out := .next (checkpointEnd s)

/-- Every chunk of a cycle that has all its tables. -/
def cycleUnits (s : State) (k : Nat) : SMap MetaUnit := s.med.metas.filter fun e => e.2.chunk == some k

/-- A full scan takes the place of the checkpoint: no valid anchor, or a chunk of its cycle or a journal unit past its position that can be
read in neither copy, or is not there (R328). -/
def scanDue (s : State) : Bool :=
  s.plc.made &&
  match anchorRead s with
  | none => true
  | some (k, first, pos) =>
    (SMap.find s.med.metas first).isNone || decide ((cycleUnits s k).length < 16 * 7) ||
    ((cycleUnits s k).any fun e => metaUnreadable e.2 s) ||
    (s.med.metas.any fun e => e.2.chunk.isNone && decide (pos < e.2.seq) && metaUnreadable e.2 s)

/-! ### What a full scan finds (R328) -/

/-- A unit found by its header: its namespace, its number there, its SEQ, where it lies and in which mode. -/
structure Found where
  nsid : Nat
  unit : Nat
  seq  : Nat
  loc  : Loc
  mode : Nat
deriving DecidableEq, Repr

/-- The headers that a member's block summary holds, in page order. -/
def summaryHeads (s : State) (g b m mode : Nat) : List Nat :=
  let n := sbPages s g mode
  ((List.range (4 * summaryPages n)).flatMap fun i =>
    let body := infoPayload (unitHas s g b m (n + i / 4) (i % 4))
    (List.range 128).map fun j => bits body (256 * j) 256).take (4 * n)

/-- The headers of a member of a stripe block: the summary of a closed one, every programmed page of an open one. -/
def memberHeads (s : State) (g b m : Nat) (u : SbUse) : List Nat :=
  if u.full then summaryHeads s g b m u.mode else blockHeads s g b m (sbPages s g u.mode)

/-- The unit that a header at a place of a member describes: one of a zone or of the conventional region, and no parity. -/
def foundAt (s : State) (g b m : Nat) (u : SbUse) (i h : Nat) : Option Found :=
  let id := infoLaddr h / 2 ^ 49
  let kind := bits h 144 16
  if (kind != 1 && kind != 2) || (stripeLayout s g b i (halfOf u.par7 m)).2 == m then none
  else
    (SMap.find s.zne.ns id).map fun n =>
      { nsid := id, unit := infoLaddr h % 2 ^ 49 / lbasPerUnit n, seq := infoSeq h, loc := .flash (dieOf g m) b (i / 4) (i % 4), mode := u.mode }

/-- The units of every stripe block in use. -/
def scanUnits (s : State) : List Found :=
  s.med.inUse.flatMap fun e =>
    let g := e.1 / 1048576
    let b := e.1 % 1048576
    (List.range 16).flatMap fun m =>
      let hs := memberHeads s g b m e.2
      (hs.zip (List.range hs.length)).filterMap fun x => foundAt s g b m e.2 x.2 x.1

/-- The journal records that can be read on flash, and those of the tail that the emergency blocks hold. -/
def scanRecs (s : State) : List JRec :=
  (s.med.metas.filter fun e => e.2.chunk.isNone && !metaUnreadable e.2 s).flatMap (·.2.recs) ++ s.med.tail

/-! ### How it resolves (R329) -/

/-- The highest SEQ of the records that `p` selects; 0 where there is none. -/
def recSeq (l : List JRec) (p : JRec → Bool) : Nat := l.foldl (fun n r => if p r then max n r.seq else n) 0

/-- A unit lies in the DRAM staging area. -/
def locDram (l : Loc) : Bool := match l with | .dram _ => true | _ => false

/-- Of two units found, the one with the higher SEQ; of two copies of one unit the one that the tables name, else the one in a closed extent
stripe before a staging copy. -/
def foundBetter (s : State) (now_ : Loc) (a b : Found) : Found :=
  if a.seq < b.seq then b
  else if b.seq < a.seq ∨ a.loc = now_ then a
  else if b.loc = now_ ∨ (locStaged s a.loc ∧ !locStaged s b.loc) then b else a

/-- The unit found for a unit of a namespace since SEQ `lo`. -/
def foundBest (s : State) (l : List Found) (nsid unit lo : Nat) (now_ : Loc) : Option Found :=
  l.foldl (fun best f =>
    if f.nsid != nsid || f.unit != unit || decide (f.seq ≤ lo) then best
    else match best with | some a => some (foundBetter s now_ a f) | none => some f) none

/-- SEQ of the newest DEALLOCATE record of a unit. -/
def deallocSeq (l : List JRec) (nsid unit : Nat) : Nat :=
  recSeq l fun r => r.type == 3 && r.body.getD 0 0 == nsid && decide (r.body.getD 1 0 ≤ unit ∧ unit < r.body.getD 1 0 + r.body.getD 2 0)

/-- The location of a map entry changes with what was found, and the counts of valid units with it. -/
def scanConvPut (s : State) (i : Nat) (e : ConvEnt) : State :=
  let s := match SMap.find s.zne.conv i with
    | some o => (match o.loc with | .flash die b _ _ => unitDrop s (groupOf die) b | _ => s)
    | none => s
  let s := { s with zne := { s.zne with conv := SMap.put s.zne.conv i e } }
  match e.loc with | .flash die b _ _ => unitsAdd s (groupOf die) b 1 true | _ => s

/-- A conventional LBA takes the unit or the DEALLOCATE record with the highest SEQ; what is restored from the emergency blocks stands where
it is newer. -/
def scanConv (l : List Found) (recs : List JRec) (s : State) (f : Found) : State :=
  match SMap.find s.zne.ns f.nsid with
  | some n =>
    if n.zoned then s
    else
      let i := n.base + f.unit
      let e := match SMap.find s.zne.conv i with | some e => e | none => { loc := .zero, mode := 0, seq := 0 }
      match foundBest s l f.nsid f.unit (SMap.getD s.med.since f.nsid 0) e.loc with
      | some b =>
        let d := deallocSeq recs f.nsid f.unit
        if b.seq < e.seq then s
        else if b.seq < d then scanConvPut s i { loc := .zero, mode := 0, seq := d }
        else if e.loc = b.loc ∨ (b.seq = e.seq ∧ locDram e.loc) then s
        else scanConvPut s i { loc := b.loc, mode := b.mode, seq := b.seq }
      | none => s
  | none => s

/-- The newest ZONE_ACTION record of a zone past SEQ `lo`. -/
def zoneRec (l : List JRec) (zi lo : Nat) : Option JRec :=
  l.foldl (fun best r =>
    if r.type != 4 || r.body.getD 0 0 != zi || decide (r.seq ≤ lo) then best
    else match best with | some b => if b.seq < r.seq then some r else best | none => some r) none

/-- A zone takes the state of its newest ZONE_ACTION record; a zone that is Full stays Full (R226), and the read-only end of life, which its
own record keeps, stands (R210). -/
def zoneFromRec (z : Zone) (r : JRec) : Zone :=
  if z.st = 14 ∨ z.st = 13 then z
  else { z with st := r.body.getD 1 0, zcap := r.body.getD 3 0, cls := r.body.getD 4 0, resets := r.body.getD 5 0 }

/-- SEQ of the newest record that emptied a zone: the units of a zone are those above it. -/
def resetSeq (l : List JRec) (zi : Nat) : Nat := recSeq l fun r => r.type == 4 && r.body.getD 0 0 == zi && r.body.getD 1 0 == 1

/-- A unit of a zone lies in a range that a later ABANDON record made pad or released. -/
def abandoned (l : List JRec) (lp zi off seq : Nat) : Bool :=
  l.any fun r => r.type == 5 && r.body.getD 0 0 == zi && decide (seq < r.seq) &&
    decide (r.body.getD 1 0 ≤ off * lp ∧ off * lp < r.body.getD 1 0 + r.body.getD 2 0)

/-- The one-unit extent at a location (R244). -/
def locExt (s : State) (off : Nat) (f : Found) : Option (Ext × Nat × Nat) :=
  match f.loc with
  | .flash die b page pos =>
    let g := groupOf die
    let w := if f.mode = 0 then 1 else setWidth s g
    let b0 := b - b % w
    let h := halfOf (sbPar7 s g b) (memberOf die)
    let l := (stripeLayout s g b (4 * page + pos) h).1
    let i := l.findIdx (· == memberOf die)
    let r := h * (4 * sbPages s g f.mode * w) + page * (4 * w) + (b - b0) * 4 + pos
    some ({ off := off, len := 1, group := g, mode := f.mode, par7 := sbPar7 s g b, pad := false, reloc := false, block := b0, set := w,
            skip := r * l.length + i, dm := l.length }, stripeKey g b (4 * page + pos) h, i)
  | _ => none

/-- A unit found belongs to its zone and stands nowhere in the zone's tables, or its newer copy does: it joins the extents, or the runs where
it lies in the SLC staging area. -/
def scanZone (l : List Found) (recs : List JRec) (s : State) (f : Found) : State :=
  match SMap.find s.zne.ns f.nsid with
  | some n =>
    if !n.zoned then s
    else
      let zi := n.base + f.unit / zoneUnits n
      let off := f.unit % zoneUnits n
      let z := zoneGet s zi
      let at_ := zoneLoc s z off
      match foundBest s l f.nsid f.unit (max (SMap.getD s.med.since f.nsid 0) (resetSeq recs zi)) at_ with
      | some b =>
        if at_ = b.loc ∨ locDram at_ ∨ z.void ∨ z.wp ≤ off * lbasPerUnit n ∨ abandoned recs (lbasPerUnit n) zi off b.seq then s
        else
          match locExt s off b with
          | some (x, key, i) =>
            let s := match at_ with | .flash die b _ _ => unitDrop s (groupOf die) b | _ => s
            let c := zoneCut z off
            let c := if locStaged s b.loc then { c with runs := runPlace off key i c.runs } else { c with exts := extAdd x c.exts }
            unitsAdd (zonePut s zi c) x.group (match b.loc with | .flash _ k _ _ => k | _ => 0) 1 false
          | none => s
      | none => s
  | none => s

/-- A zone's state from its records. -/
def scanZoneState (recs : List JRec) (s : State) (zi : Nat) : State :=
  match nsOfZone s zi with
  | some (id, _) =>
    match zoneRec recs zi (SMap.getD s.med.since id 0) with
    | some r => zonePut s zi (zoneFromRec (zoneGet s zi) r)
    | none => s
  | none => s

/-- A DEALLOCATE record replayed: the entries of its units that are older read zeros (R225). -/
def replayDealloc (s : State) (r : JRec) : State :=
  match SMap.find s.zne.ns (r.body.getD 0 0) with
  | some n =>
    if r.type ≠ 3 ∨ r.seq ≤ SMap.getD s.med.since (r.body.getD 0 0) 0 then s
    else
      (List.range (r.body.getD 2 0)).foldl (fun s i =>
        match SMap.find s.zne.conv (n.base + r.body.getD 1 0 + i) with
        | some e => if e.seq < r.seq ∧ e.loc ≠ .zero then scanConvPut s (n.base + r.body.getD 1 0 + i) { loc := .zero, mode := 0, seq := r.seq } else s
        | none => s) s
  | none => s

/-- The records past an anchor's position are replayed over the chunks, in SEQ order (R327 step 3): zones take the states of their newest,
deallocated units read zeros, the entry to read-only end of life stands (R210). What a record names of places and definitions stands in the
tables already (notes/assumptions/45.md). -/
def replay (s : State) (pos : Nat) : State :=
  let recs := (scanRecs s).filter fun r => decide (pos < r.seq)
  let s := (s.zne.zones.map (·.1)).foldl (scanZoneState recs) s
  let s := recs.foldl replayDealloc s
  if recs.any fun r => r.type == 10 then fon s Fld.ZNE_EOL_READ_ONLY else s

/-- The full scan (R328, R329): the zones take the states of their records, and every unit found its place in the map, the runs or the
extents; definitions and stripe-block tables stand as their latest records left them. Its flag is set and it is recorded; the duration is
an open value. -/
def fullScan (s : State) : State :=
  let l := scanUnits s
  let recs := scanRecs s
  let s := (s.zne.zones.map (·.1)).foldl (scanZoneState recs) s
  let s := l.foldl (scanConv l recs) s
  let s := l.foldl (scanZone l recs) s
  let v := openVal s
  post (fon (openTaken s) Fld.LDC_MED_REBUILD_FULL_SCAN) 7 5 false (v % 4294967296) (l.length % 4294967296) 0 0

/-- Steps 1 to 3 of a boot's rebuild, or the full scan in their place (R327, R328). -/
def tablesLoad (s : State) : State :=
  if scanDue s then fullScan s
  else match anchorRead s with | some a => replay s a.2.2 | none => s

end Sys2Proof.Machine
end

