-- ==== Sys2Proof/Machine/Rebuild.lean ====
section
/-! DEFINITION. What the compute die loses when it enters reset, and what a boot rebuilds: tables, staged units, groups, channels,
first-boot values (R61, R226, R228, R233, R326, R327, R334, R445, R531). -/
namespace Sys2Proof.Machine
open Sys2Proof

/-! ### Reset of the compute die -/

/-- Registers that keep their content while the compute die is in reset: those of the Clasp die (SGD, CLS, TMB), the channel
bindings, and what is kept with the media metadata. -/
def keptReg (a : Nat) : Bool :=
  a / 65536 == 0x400C || a / 65536 == 0x4013 || a / 65536 == 0x401A ||
  decide (Reg.MBX_BIND 0 0 ≤ a ∧ a ≤ Reg.MBX_BIND 3 7) || decide (Reg.PLC_GRP_DEGRADED 0 ≤ a ∧ a ≤ Reg.PLC_GRP_DEDICATED 3) ||
  a == Reg.LDC_MED_EXPORT_LO || a == Reg.LDC_MED_EXPORT_HI || a == Reg.LDC_MED_LOST

/-- The register file after a reset: a warm reset keeps the RWS field and the service unlock (R531); the failed responses and
the trip stay until the power-up and the release that end them (R93, R609); ZNE_EOL.READ_ONLY is restored from the journal (R210). -/
def regsReset (s : State) (warm : Bool) : State :=
  let skip := fget s Fld.BOT_SLOT_SKIP
  let svc := rget s Reg.ACM_SVC_STATE
  let unlocked := fget s Fld.ACM_SVC_STATE_UNLOCKED
  let trip := fget s Fld.TSN_STATUS_TRIPPED
  let eol := fget s Fld.ZNE_EOL_READ_ONLY
  let s := { s with regs := SMap.keep s.regs fun a _ => keptReg a, latch := (SMap.keep s.latch fun k _ => (k % 4294967296) / 65536 == 0x400C || (k % 4294967296) / 65536 == 0x401A),
                    sel := SMap.keep s.sel fun k _ => (k % 4294967296) / 65536 == 0x4013 }
  let s := fset (rset s Reg.ACM_SVC_STATE svc) Fld.ACM_SVC_STATE_UNLOCKED (if warm then unlocked else 0)
  let s := fset (fset s Fld.TSN_STATUS_TRIPPED trip) Fld.ZNE_EOL_READ_ONLY eol
  if warm then fset s Fld.BOT_SLOT_SKIP skip else s

/-- Host-side state after a reset: the balls, the test log and the drive's counters stay; a test that the loss of power ended waits for the
boot that records its result (R159). -/
def hstOff (h : Hst) : Hst :=
  { Hst.reset with ports := SMap.mapv h.ports fun _ p => { Port.reset with perst := p.perst, telGen := p.telGen },
                   dst := { h.dst with lost := (if h.dst.st = 0 then h.dst.lost else h.dst.st), st := 0 }, diag := h.diag }

/-- A slice after a reset: its definition and its counts stay; the staged shares were the last accepted (R163, R177). -/
def sliceOff (x : Slice) : Slice :=
  { x with resetting := false, bytes := 0, lastBytes := 0, shares := (match x.next with | some n => n | none => x.shares), next := none }

/-- The planner's measurements of the interval, which a reset loses. -/
def ageOff (a : Age) : Age :=
  { Age.reset with rated := a.rated, rated0 := a.rated0, ret := a.ret, retF := a.retF, base := a.base, adv := a.adv, runs := a.runs,
                   lastRun := a.lastRun, tests := a.tests, windows := a.windows, gathers := a.gathers, gband := a.gband, born := a.born,
                   siLimit := a.siLimit, record := a.record }

/-- DRAM keeps its content through a warm reset, in self-refresh (R531); no SRAM does. -/
def dramKept (s : State) (warm : Bool) : SMap Byte := if warm then SMap.keep s.fab.mem fun a _ => decide (1099511627776 ≤ a) else []

/-- The compute die enters reset: what is not stored on flash, in the Clasp store or on the Clasp die is gone (R531). -/
def computeOff (s : State) (warm : Bool) : State :=
  let s := ctxVanish s fun _ => true
  let s := s.plc.folds.foldl foldDrop s
  let s := clsComputeReset s
  let s := regsReset s warm
  { s with
    acm := { s.acm with matrix := [], digest := [] }, spdm := Spdm.reset, mbx := Mbx.reset, fab := { Fab.reset with mem := dramKept s warm }, hst := hstOff s.hst,
    svc := { Svc.reset with bscan := (if warm then s.svc.bscan else none), eraseAll := s.svc.eraseAll },
    slm := { s.slm with slices := SMap.mapv s.slm.slices fun _ x => sliceOff x, dirtyRsv := [] },
    zne := { s.zne with cache := [] },
    plc := { s.plc with quiet := [], quietEnd := [], rdLog := [], peLog := [], score := [], token := 0, xteTok := 0, decisions := 0,
                        waits := 0, spills := 0 },
    dsc := { Dsc.reset with nextId := s.dsc.nextId }, flash := Flash.reset,
    med := { s.med with timeouts := [], copies := [], rebuilt := false },
    bpm := { Bpm.reset with rsv := (SMap.keep s.bpm.rsv fun k _ => decide (k < 4096)), lim := (SMap.keep s.bpm.lim fun k _ => decide (k < 4096)) },
    dmc := Dmc.reset, ump := Ump.reset, dge := Dge.reset, tsn := Tsn.reset, age := ageOff s.age,
    kst := { s.kst with slots := [], xteOut := [], xteFaults := [], pveOut := [], pveFaults := [], pveAns := (0, []) },
    sgn := { s.sgn with spare := none },
    bot := { s.bot with run := false, recovery := false, dl := none, wr := none, warmAt := none, shadow := ([], []), shadowEnts := 0 } }

/-! ### The tables (R226, R326, R327) -/

/-- A zone at a boot: opened zones are Closed, the reservation follows ZCAP and WP, nothing runs on it; a zone with a tail has left
direct placement (R247). -/
def zoneBoot (lp : Nat) (tail : Bool) (z : Zone) : Zone :=
  let st := if z.st = 2 ∨ z.st = 3 then 4 else z.st
  let z := { z with st := st, action := none, crcBad := none, spoilt := false, left := z.left || tail, cursor := none,
                    runs := z.runs.map (fun r => { r with folding := false }), exts := z.exts.map fun x => { x with reloc := false } }
  if zActive z then { z with resv := z.zcap - (z.wp + lp - 1) / lp } else z

/-- The stream that takes a restored unit: an SLC stream of its object's class (R326). -/
def restoreKey (s : State) (u : SUnit) : Nat :=
  match SMap.find s.zne.ns u.nsid with
  | some n =>
    let c := if n.zoned then (zoneGet s (n.base + u.unit / zoneUnits n)).cls else u.cls
    streamKey s n.slice c 0 2
  | none => 0

/-- A unit of the emergency flush is staged again and counted dirty. -/
def unitRestore (s : State) (slot : Nat) : State :=
  match SMap.find s.zne.stg slot with
  | some u =>
    let key := restoreKey s u
    match claimSlots (prepareFor s key 1 8) key 1 with
    | (t :: _, s') =>
      setMember { s' with zne := { s'.zne with stg := SMap.put s'.zne.stg slot { u with tgt := t } } } t (.unit slot)
    | ([], s') => s'
  | none => s

/-- A staged unit that the emergency index does not name: whether the flush had reached it is not stated; what it had not
reached is lost. -/
def unitUnsure (s : State) (slot : Nat) : State :=
  match SMap.find s.zne.stg slot with
  | some u =>
    let v := openVal s
    let s := openTaken s
    if v % 2 = 0 then s
    else { s with med := { s.med with lost := if s.med.lost.contains (lostKey u.nsid u.unit) then s.med.lost else s.med.lost ++ [lostKey u.nsid u.unit] } }
  | none => s

/-- The tables of a boot: checkpoint, journal, emergency units, zones. `sure`: the index of the last flush is complete. -/
def rebuildTables (s : State) (sure : Bool) : State :=
  let s := (List.range 64).foldl seqLoad s
  let s := tablesLoad s
  let zones := s.zne.zones.map fun e =>
    (e.1, zoneBoot (match nsOfZone s e.1 with | some (_, n) => lbasPerUnit n | none => 1) (hasTail s e.1) e.2)
  let use := SMap.mapv s.med.inUse fun _ u => { u with full := true }
  let doubt := if sure then [] else (s.zne.stg.filter fun e => !s.med.emg.contains e.1).map (·.1)
  let s := { s with zne := { s.zne with zones := zones },
                    plc := { s.plc with streams := [], stripes := [], opens := [], folds := [], homeless := [] },
                    med := { s.med with inUse := use, metaOpen := [] } }
  let s := doubt.foldl unitUnsure s
  let s := (groupCount s).foldl grpRefresh s
  let s := s.med.erasing.foldl (fun s e =>
    let mode := match SMap.find s.med.inUse e.1 with | some u => u.mode | none => 0
    eraseMembers s (e.1 / 1048576) (e.1 % 1048576) mode fun m => e.2.contains m) s
  let s := (s.zne.stg.map (·.1)).foldl unitRestore s
  let s := s.med.rebuilds.foldl (fun s r => rebuildMove s r.die) s
  let s := s.med.restoring.foldl (fun s e => restoreErases s e.1 e.2) s
  let s := sweep { s with med := { s.med with rebuilt := true } }
  streamsRefresh (zneRefresh (spareRefresh (pset s Reg.CMP_SEQ_LO Reg.CMP_SEQ_HI s.zne.seq)))

/-! ### Groups and channels (R228, R334) -/

/-- The conditions of a group at a boot. -/
def groupInit (s : State) (g : Nat) : State :=
  let gone := (goneMembers s g).length
  let s := grpSet s Fld.PLC_GRP_PRESENT_GROUPS g (gone ≤ 1)
  if gone = 1 then groupLoss s g else s

/-- Every register of a lost die again shows it (R317). -/
def lostShow (s : State) : State :=
  let s := s.med.dies.foldl (fun s e => if e.2 = 1 then fbiton s (Fld.CHS_DIE_LOST_DIES (e.1 / 32)) (e.1 % 32) else s) s
  let s := fset s Fld.LDC_MED_LOST_DIES (SMap.cnt s.med.dies fun _ v => v == 1)
  let s := fset s Fld.LDC_MED_LOST_CHANNELS s.med.chans.length
  if s.med.rebuilds.isEmpty then s else fon s Fld.LDC_MED_REBUILD_ACTIVE

/-! ### First boot (R233, R254, R313, R315, R326) -/

/-- The class table at the first power-up. -/
def classFirst (present : Nat) : SMap ClassEnt :=
  let c : ClassEnt := { ClassEnt.empty with groups := present, valid := true, fold := 1, foldMode := 2, lifeMap := 0xE941 }
  [(0, c), (1, { c with mode := 1, fold := 3, foldMode := 0 }), (2, { c with mode := 3, fold := 3, foldMode := 0 }),
   (3, { c with groups := 0, iso := true })]

/-- Values that the first boot fixes for the drive: spares, free blocks, exportable capacity, the class table. -/
def firstBoot (s : State) : State :=
  let spare := (s.part.dieBlocks * fget s Fld.LDC_MED_CTRL_SPARE_NUM + 1023) / 1024
  let s := { s with med := { s.med with spareInit := spare } }
  let gs := (groupCount s).filter fun g => grp s Fld.PLC_GRP_PRESENT_GROUPS g
  let free := gs.map fun g => (g, sbCount s g)
  let present := gs.foldl (fun n g => n + 2 ^ g) 0
  let ds := (diesInit s).filter fun d => grp s Fld.PLC_GRP_PRESENT_GROUPS (groupOf d)
  let units := ds.length * dieUnits s * 15 * fget s Fld.LDC_MED_CTRL_EXPORT_NUM / (16 * 1024)
  let s := { s with plc := { s.plc with made := true, classes := classFirst present, gFree := free, gBlocks := free } }
  pset s Reg.LDC_MED_EXPORT_LO Reg.LDC_MED_EXPORT_HI units

/-- The static staging reserve and the emergency blocks that each boot sets aside (R254, R326). -/
def boardBlocks (s : State) : State :=
  let s := fset s Fld.PLC_STG_MIN_BLOCKS ((rawBlocks s + 399) / 400)
  fset s Fld.LDC_MED_EMG_CAP_MIB (32 * slcUnits s / 256)

/-! ### Supply guard (R445, R453) -/

/-- The longest time that the bank in force gives an operation over the eight wear buckets, in ns. -/
def predMax (s : State) (mode op : Nat) : Nat := (List.range 8).foldl (fun n b => max n (predNs s mode op b)) 0

/-- Rounds up. -/
def ceilDiv (a b : Nat) : Nat := (a + b - 1) / b

/-- The board description, and the flush parameters that firmware 3.2 computes; energies in 0.1 µJ. -/
def flushParams (s : State) : State :=
  let p := s.part
  let s := fset (fset s Fld.SGD_HU_CFG_CELLS p.bCells) Fld.SGD_HU_CFG_TARGET_10MV p.bTarget
  let s := fset (fset s Fld.SGD_HU_CAP_CNOM_10UF p.bCnom) Fld.SGD_TEST_CFG_RLOAD p.bLoad
  let s := fset (fset s Fld.SGD_HU_VMIN_VMIN_10MV p.bVmin) Fld.SGD_HU_VMIN_EFF_PCT p.bEff
  let dies := 512
  let t := max 1 (predMax s 0 2)
  let e := costEnergy s 0 0 2 + 4 * costEnergy s 0 0 5
  let flush := ppBase s (fget s Fld.UMP_HOLDUP_PP) * 1000 + dies * e * 100000 / t
  let tMib := ceilDiv (1048576 * t) (16384 * dies)
  let drain := predMax s 2 3 / 1000
  let rail := fget s Fld.UMP_RAILS_VCC_MV * fget s Fld.UMP_ICC_BUDGET_100MA + fget s Fld.UMP_RAILS_VCCQ_MV * fget s Fld.UMP_ICCQ_BUDGET_100MA
  let fixed := ceilDiv ((ppBase s 7 * 10000 + rail) * drain) 10000000 + 500
  let s := fset (fset s Fld.SGD_ENERGY_CFG_E_MIB_UJ (ceilDiv (flush * tMib) 1000000)) Fld.SGD_ENERGY_CFG_FIXED_MJ fixed
  let s := fset (fset s Fld.SGD_FLUSH_CFG_T_MIB_NS tMib) Fld.SGD_FLUSH_CFG_DRAIN_US drain
  budgetSet (limitSet (fset s Fld.SGD_DIRTY_MIN_FLUSH_W (ceilDiv flush 1000)))

end Sys2Proof.Machine
end

