-- ==== Sys2Proof/Machine/Boot.lean ====
section
/-! DEFINITION. The boot: slot choice, measurement, the ledger entry, loading of settings, keys and tables, recovery mode, and the
resets and power events that lead to it (R61, R449–R451, R531–R551, R598–R603). -/
namespace Sys2Proof.Machine
open Sys2Proof

/-! ### The access matrix (R70, R96) -/

/-- The four words of a valid matrix entry. -/
def matWords (e : MatEntry) : List Nat :=
  [e.block + 32 * (e.word % 16384) + 524288 * e.readSet + 67108864 * (e.writeSet % 64),
   e.writeSet / 64 % 2 + 2 * b2n e.blind + 4 * (e.fieldSet % 128) + 2147483648, e.mask, 0]

/-- Firmware loads the matrix, locks it and measures it: the digest is over the entries it loads (R70; DESIGN CHOICE,
notes/assumptions/47.md). -/
def matrixLoad (s : State) : State :=
  let d := Config.sha384 (fwMatrix.flatMap fun e => (matWords e).flatMap (le 4))
  let s := { s with acm := { s.acm with matrix := fwMatrix, digest := d } }
  let s := fon (fset s Fld.ACM_MATRIX_COUNT_VALID fwMatrix.length) Fld.ACM_CTRL_LOCK
  putBytes s Reg.ACM_MATRIX_DIGEST 12 d

/-! ### Identity (R470, R481, R484, R522) -/

/-- The hash chain of R481: DeviceID seed, CDI_1. -/
def devSeed : List Byte := Config.hmac384 Config.deviceSecret (label "SLN DEVID")
def cdi1 (mode : Nat) (m1 : List Byte) (svn1 : Nat) : List Byte :=
  Config.hmac384 Config.deviceSecret (label "SLN CDI1" ++ le 1 mode ++ m1 ++ le 4 svn1)

/-- The lock password that the ROM computes (R522). -/
def lockPw : Nat := u64 (Config.hmac384 Config.deviceSecret (label "SLN CLASP PW")) 0

/-- Slots 0, 1 and 8; at the first boot the KEK seed is drawn (R470). -/
def deriveRom (s : State) (mode : Nat) (m1 : List Byte) (svn1 : Nat) : State :=
  let s := match s.kst.seed with
    | some _ => s
    | none => let r := draw s; { r.2 with kst := { r.2.kst with seed := some (r.1.take 32) } }
  let seed := match s.kst.seed with | some x => x | none => []
  let s := kstDerive (kstDerive s 0 devSeed) 1 (cdi1 mode m1 svn1)
  let s := kstDerive s 8 ((Config.hmac384 Config.deviceSecret (label "SLN KEK" ++ seed)).take 32)
  { s with sgn := { s.sgn with devPub := Config.p384Pub (pkeScalar s 0) } }

/-- The digest of the customer image in service, or zeros. -/
def custDigest (c : Option Cust) : List Byte := match c with | some c => c.digest | none => zeros 48

/-- Slots 2 and 3 and the Alias certificate; slots 0 and 1 are zeroised and both latches close (R481, R484, R534 step 7). -/
def deriveStage (s : State) (i : Image) (mc : List Byte) : State :=
  let m := fun k => i.digs.getD k []
  let cdi2 := Config.hmac384 (cdi1 0 (m 0) (i.svn.getD 0 0)) (label "SLN CDI2" ++ m 1 ++ m 2 ++ mc ++ le 4 (i.svn.getD 1 0))
  let s := kstDerive (kstDerive s 2 cdi2) 3 (Config.hmac384 cdi2 (label "SLN ALIAS"))
  let tcb := m 0 ++ m 1 ++ m 2 ++ mc ++ le 4 (i.svn.getD 0 0) ++ le 4 (i.svn.getD 1 0)
  let s := aliasStore s (Config.p384Pub (pkeScalar s 3)) tcb
  foff (foff (kstZero (kstZero s 0) 1) Fld.DGE_LATCH_UDS_OPEN) Fld.DGE_LATCH_BOOT_OPEN

/-! ### Views that a boot fixes -/

/-- The straps, the fuses, the serial and the reset's type and cause. -/
def bootViews (s : State) (typ cause : Nat) : State :=
  let s := fset (fset s Fld.HPT_STRAP_CFG s.part.cfg) Fld.HPT_STRAP_PRESENT (portMask s.part.cfg)
  let s := fset (fset s Fld.BOT_ID_SLOTS 2) Fld.BOT_ID_ROM_REV s.part.romRev
  let s := fset (fset s Fld.BOT_STATE_TYPE typ) Fld.BOT_STATE_CAUSE cause
  let s := fset (fset s Fld.BOT_STATE_RECOVER_PIN (b2n s.part.recoverN)) Fld.BOT_STATE_STAGE 0
  let s := putBytes s Reg.BOT_SERIAL 4 (fit 16 s.part.serial)
  let s := fset s Fld.TMB_BOOT_BOOTS s.tmb.boots
  let s := fuseShow s
  let b := s.bot.bcr
  let s := fset (fset s Fld.BOT_SLOT_VALID b.valid) Fld.BOT_SLOT_ACTIVE b.active
  fset (fset s Fld.BOT_SLOT_PENDING (if b.pending ≤ 1 then b.pending + 1 else 0)) Fld.BOT_SLOT_TRIES b.tries

/-- A latch that a reset opens (R486). -/
def latchesOpen (s : State) : State := fon (fon s Fld.DGE_LATCH_UDS_OPEN) Fld.DGE_LATCH_BOOT_OPEN

/-! ### The choice of a slot (R535, R536, R538) -/

/-- The bytes that slot `k` streams: the image stored, with the words that descriptors have programmed over it since. -/
def slotStream (s : State) (k : Nat) (i : Image) : List Byte :=
  let mine := SMap.keep s.cls.nor fun w _ => w / 2097152 == k
  mine.foldl (fun b e => let o := e.1 % 2097152 * 8; if o + 8 ≤ b.length then b.take o ++ le 8 e.2 ++ b.drop (o + 8) else b) i.bytes

/-- Part `j` of a streamed image is shorter than its header declares, so that its bytes counted differ from its length (R486). -/
def partShort (b : List Byte) (j : Nat) : Bool := (slice b (partAt b j).1 (partAt b j).2).length != (partAt b j).2

/-- Why the ROM rejects the header and stage 1 that a slot streams: steps 2 to 7 of R538, or 0. The image a part is shipped with stands
here without its bytes and is taken as the vendor's (notes/assumptions/43.md). -/
def romStream (s : State) (b : List Byte) (i : Image) : Nat :=
  if b.isEmpty then 0
  else if !imageForm b then ST_FW_FORMAT
  else if !keyFused s i.key (Config.sha384 (slice b 216 96)) then ST_FW_KEY
  else if !Config.p384Verify (slice b 216 96) (Config.sha384 (b.take 416)) (slice b 416 96) then ST_FW_SIG
  else if partShort b 0 then ST_BAD_LENGTH
  else if Config.sha384 (slice b (partAt b 0).1 (partAt b 0).2) != i.digs.getD 0 [] then ST_FW_DIGEST
  else 0

/-- Why the ROM rejects a slot (R53, R538): no header, what its stream shows, its key, the rollback of stage 1; or 0. -/
def romStatus (s : State) (k : Nat) : Nat :=
  match SMap.find s.bot.img k with
  | none => ST_FW_FORMAT
  | some i =>
    if romStream s (slotStream s k i) i ≠ 0 then romStream s (slotStream s k i) i
    else if (SMap.find s.bot.keys i.key).isNone || s.bot.revoked.testBit i.key then ST_FW_KEY
    else if i.svn.getD 0 0 < ctrOf s 0 then ST_FW_ROLLBACK
    else 0

/-- Every microword of a vendor image has its reserved bits 0 (R348); one that has not falls back with ST_UCODE_CODE, since no rule names
the status (DESIGN CHOICE, notes/assumptions/71.md). -/
def vendorWords (b : List Byte) : Bool :=
  (List.range (b.length / 16)).all fun k => let w := leNat (slice b (16 * k) 16); !bit w 71 && decide (w < 2 ^ 106)

/-- Why stage 1 falls back (R536, R538): the length or digest of stage 2 or the microcode as streamed, or their rollback; or 0. -/
def stageStatus (s : State) (k : Nat) : Nat :=
  match SMap.find s.bot.img k with
  | none => 0
  | some i =>
    let b := slotStream s k i
    if !b.isEmpty && (partShort b 1 || partShort b 2) then ST_BAD_LENGTH
    else if !b.isEmpty && [1, 2].any fun j => Config.sha384 (slice b (partAt b j).1 (partAt b j).2) != i.digs.getD j [] then ST_FW_DIGEST
    else if !b.isEmpty && !vendorWords ((slice b (partAt b 2).1 (partAt b 2).2).drop 64) then ST_UCODE_CODE
    else if i.svn.getD 1 0 < ctrOf s 1 ∨ i.svn.getD 2 0 < ctrOf s 2 then ST_FW_ROLLBACK else 0

/-- A failed attempt of a slot: FAIL, the register, the event and the record (30 of the ROM, 20 of stage 1). -/
def slotFail (s : State) (k st src : Nat) : State :=
  let b := s.bot.bcr
  let s := bcrPut s (if k = 0 then { b with failA := st } else { b with failB := st })
  let s := fon (fset s Fld.BOT_SLOT_LAST_FAIL st) Fld.BOT_EVENTS_SLOT_FAIL
  post s src 1 false k st 0 0

/-- PENDING with three tries behind it is cleared and recorded (R535). -/
def trialExpire (s : State) : State :=
  let b := s.bot.bcr
  if 1 < b.pending ∨ b.tries < 3 then s
  else
    let head := match SMap.find s.bot.img b.pending with | some i => i.bytes.take 512 | none => []
    let it : MItem := { comp := 0x010B, digest := Config.sha384 head, version := b.pending, svn := b.tries }
    let s := match pendAdd s [it] with | some s => s | none => s
    let s := post (fon s Fld.BOT_EVENTS_TRIAL_EXPIRED) 20 3 false b.pending 0 0 0
    bcrPut s { b with pending := 0xFF, tries := 0 }

/-- The slots in the ROM's order, those in SKIP passed over. -/
def slotOrder (s : State) : List Nat :=
  let b := s.bot.bcr
  let l := (if b.pending ≤ 1 ∧ b.valid.testBit b.pending ∧ b.tries < 3 then [b.pending] else []) ++ [b.active, 1 - b.active]
  l.eraseDups.filter fun k => !fbit s Fld.BOT_SLOT_SKIP k

/-- The ROM has found the slot's header good, and streams stage 1 under the snoop (steps 2 to 4 of R538). -/
def headOk (s : State) (k : Nat) : Bool := !([ST_FW_FORMAT, ST_FW_KEY, ST_FW_SIG].contains (romStatus s k))

/-- Length declared, bytes streamed and digest of part `j` of the image in a slot; of the image a part is shipped with, stage 1 and stage 2
have an open length within their limits (R533; notes/assumptions/43.md). -/
def partStream (s : State) (k j : Nat) (i : Image) : Nat × Nat × List Byte :=
  let b := slotStream s k i
  if b.isEmpty then
    let n := if j = 0 then openVal s % 262145 else if j = 1 then openVal s % 12582913 else 98368
    (n, n, i.digs.getD j [])
  else
    let p := slice b (partAt b j).1 (partAt b j).2
    ((partAt b j).2, p.length, Config.sha384 p)

/-- The snoop of part `j` of the image in slot `k`, as the ROM and stage 1 arm it (R486, R534). -/
def bootSnoop (s : State) (k j : Nat) : State :=
  match SMap.find s.bot.img k with
  | none => s
  | some i =>
    let p := partStream s k j i
    let s := finc (fset (openTaken s) Fld.DGE_SNOOP_CTRL_ARMED (fget s Fld.DGE_SNOOP_CTRL_ARMED + 1)) (Fld.DGE_COUNT_COUNT 1)
    snoopShow (fset (fset s Fld.DGE_SNOOP_LEN_LEN p.1) Fld.DGE_SNOOP_COUNT_BYTES p.2.1) p.2.1 p.2.2

/-- The ROM tries slots in order: the slot it boots and the state, TRIES raised for PENDING. -/
def romChoose : List Nat → State → Option Nat × State
  | [], s => (none, s)
  | k :: ks, s =>
    let s := if k = s.bot.bcr.pending then bcrPut s { s.bot.bcr with tries := s.bot.bcr.tries + 1 } else s
    let st := romStatus s k
    let s := if headOk s k then bootSnoop s k 0 else s
    if st ≠ 0 then romChoose ks (slotFail s k st 30) else (some k, s)

/-! ### Recovery mode (R53, R549) -/

/-- Items 0x000A and 0x000B: what was attempted of a slot: the snoop digest of stage 1, zeros where its length failed or it was not
streamed. A boot that finds FW_RECOVER_N low attempts none; a slot in SKIP stands with the attempt that put it there (DESIGN CHOICE,
notes/assumptions/98.md). -/
def attemptItem (s : State) (k why : Nat) : MItem :=
  let st := if k = 0 then s.bot.bcr.failA else s.bot.bcr.failB
  if why = 1 then { comp := 10 + k, digest := zeros 48, version := 0, svn := 0 }
  else
    match SMap.find s.bot.img k with
    | some i =>
      let p := partStream s k 0 i
      { comp := 10 + k, digest := (if headOk s k && p.1 == p.2.1 then p.2.2 else zeros 48), version := i.hdrVer, svn := st }
    | none => { comp := 10 + k, digest := zeros 48, version := 0, svn := st }

/-- Link training is enabled once the entry of the boot is programmed (R52). -/
def trainEnable (s : State) : State :=
  let m := portMask s.part.cfg
  let s := fset s Fld.HPT_CTRL_TRAIN_EN m
  { s with hst := { s.hst with ports := SMap.mapv s.hst.ports fun p x => if m.testBit p then { x with quiet := false } else x } }

/-- Recovery mode begins (R550): stage 4, its event and record. -/
def recoveryStart (s : State) (m1 : List Byte) (why : Nat) : State :=
  let s := deriveRom s 1 m1 0
  let s := foff (fset s Fld.BOT_STATE_STAGE 4) Fld.DGE_LATCH_UDS_OPEN
  let s := post (fon s Fld.BOT_EVENTS_RECOVERY) 30 2 false why 0 0 0
  { s with bot := { s.bot with recovery := true } }

/-- The ledger entry of a boot into recovery mode (R550). -/
def recoveryEntry (s : State) (typ cause why : Nat) : Bool × State :=
  let base : List MItem := [{ comp := 1, digest := Config.romDigest, version := s.part.romRev, svn := 0 }, attemptItem s 0 why, attemptItem s 1 why]
  let state := 1 + 64 * b2n s.bot.svcSeen
  let digest := Config.sha384 (setRecords s.bot.sets)
  let s := { s with bot := { s.bot with items := base, setDig := digest, reason := typ + 256 * cause, secure := state } }
  bootEntry s 4 base digest (typ + 256 * cause) state s.bot.boots

/-- The cards of before the boot are cleared (R90): channels that were lost with a carded sequencer return. -/
def cardsClear (s : State) : State :=
  let chs := (s.acm.cards.filter fun e => e.1 / 16777216 == 4).map fun e => e.1 % 16777216
  let s := { s with acm := { s.acm with cards := [] } }
  chs.foldl channelBack s

/-- The ROM's recovery mode: CDI_1 with MODE 1 and the first snoop digest or zeros, the RECOVERY entry, CFS on every port. -/
def bootRecovery (s : State) (typ cause why : Nat) : State :=
  let s := cardsClear s
  let m1 := (List.range 12).flatMap fun k => le 4 (rget s (Reg.DGE_SNOOP_FIRST k))
  let r := recoveryEntry (recoveryStart s m1 why) typ cause why
  let s := { r.2 with bot := { r.2.bot with boots := (if r.1 then [] else r.2.bot.boots) } }
  let s := { s with hst := { s.hst with ports := SMap.mapv s.hst.ports fun _ x => { x with cfs := true } } }
  if r.1 then trainEnable s else s

/-! ### Stage 1 (R409, R534 steps 4 to 7, R540, R541) -/

/-- The pattern test of a boot without kept DRAM: devices with raw mismatches are marked. -/
def patternTest (s : State) : State :=
  let bad := s.part.badDev
  let two := bad.any fun e => bad.any fun f => f.1 == e.1 && f.2 != e.2
  let ms := openVal s % 4001
  let s := fset (openTaken s) Fld.MEP_PTEST_MS ms
  let s := bad.foldl (fun s e => deviceMark s e.1 e.2 3) s
  let s := fset s Fld.MEP_PTEST_RESULT (if two then 3 else if bad.isEmpty then 1 else 2)
  if two then smartEvent (fon s Fld.MEP_EVENTS_PTEST_FAIL) 2 else s

/-- The customer image that the vendor image can run; one whose CODE_DIGEST fails, or of another ABI, is left out (R541). -/
def custFor (s : State) (i : Image) : Option Cust × State :=
  match custNow s with
  | some c => if Config.sha384 (c.words.flatMap (le 16)) = c.digest ∧ c.abi = i.abi then (some c, s) else (none, fon s Fld.BOT_EVENTS_UCODE_SKIPPED)
  | none => (none, s)

/-- Shows the control store that a channel holds. -/
def ucodeShow (s : State) (i : Image) (c : Option Cust) (ch : Nat) : State :=
  let words := match c with | some c => c.words.length | none => 0
  let s := fset (fset s (Fld.CHS_UCODE_STATE ch) (if c.isSome then 2 else 1)) (Fld.CHS_UCODE_VENDOR_ABI ch) i.abi
  let s := fset (fset s (Fld.CHS_UCODE_CUST_WORDS ch) words) (Fld.CHS_UCODE_SVN_VENDOR ch) (i.svn.getD 2 0 % 65536)
  fset s (Fld.CHS_UCODE_SVN_CUSTOMER ch) (match c with | some c => c.svn % 65536 | none => 0)

/-- Counters are raised, keys revoked, the shadow built, every control store loaded and measured. -/
def stageOne (s : State) (i : Image) : Option Cust × State :=
  let s := (List.range 3).foldl (fun s k => ctrRaise s k (i.floor.getD k 0)) s
  let s := if i.revoke = 0 then s else keysRevoke s i.revoke
  let c := custFor s i
  let words := match c.1 with | some c => c.words | none => []
  let ents := match c.1 with | some c => c.entries | none => 0
  let s := { c.2 with bot := { c.2.bot with shadow := (i.ucode, words), shadowEnts := ents } }
  let s := (List.range (chanCount s)).foldl (fun s ch => ucodeShow (storeLoad s ch) i c.1 ch) s
  (c.1, deriveStage (putBytes s Reg.BOT_CS_DIGEST 12 (shadowDigest s)) i (custDigest c.1))

/-! ### Stage 2 (R472, R542, R543, R534 steps 8 to 11) -/

/-- The set in force, or a set of defaults where it is absent, of another format or out of range (R543). -/
def settingsLoad (s : State) (fmt : Nat) : Bool × State :=
  if s.bot.setSeq ≠ 0 ∧ s.bot.setFmt = fmt ∧ s.bot.sets.all (fun e => setValid e.1 e.2) then (false, s)
  else
    let old := if s.bot.setSeq = 0 then 0 else s.bot.setFmt
    let s := { s with bot := { s.bot with sets := setDefaults, setFmt := fmt, setSeq := s.bot.setSeq + 1 } }
    let it : MItem := { comp := 0x0106, digest := Config.sha384 (setRecords setDefaults), version := old, svn := fmt }
    let s := post (fon s Fld.BOT_EVENTS_SETTINGS_RESET) 20 2 false old fmt 0 0
    (true, { s with bot := { s.bot with boots := s.bot.boots ++ [it] } })

/-- The settings act (R542): budget, points, thresholds, quotas, sideband; the marks only where the DRAM was kept. -/
def settingsApply (s : State) (kept : Bool) : State :=
  let s := setBudget s (u16 (setGet s 1) 0)
  let s := setPpLimit s (u8 (setGet s 2) 0) (u8 (setGet s 2) 1)
  let v5 := setGet s 5
  let s := rset (rset s Reg.SGD_VTH_A (u32 v5 0)) Reg.SGD_VTH_B (u32 v5 4)
  let s := rset (rset s Reg.SGD_VTH_C (u32 v5 8)) Reg.SGD_FILTER (u32 v5 12)
  let v6 := setGet s 6
  let s := (List.range 20).foldl (fun s j => quotaPut s (1024 + j / 4) (j % 4) (u16 v6 (4 * j)) (u16 v6 (4 * j + 2))) s
  let v7 := setGet s 7
  let s := rset (rset s Reg.SBD_CTRL (u32 v7 0)) Reg.SBD_ADDR (u32 v7 4)
  let v8 := setGet s 8
  if !kept || v8.length < 16 then s
  else
    (List.range 16).foldl (fun s g =>
      if bit (u8 v8 g) 7 then fon (fset s (Fld.MEP_MARK_DEVICE g) (u8 v8 g % 128)) (Fld.MEP_MARK_MARKED g) else s) s

/-- Slices' quotas of the defined slices (R370, R371). -/
def sliceQuotas (s : State) : State :=
  let rsv := s.bpm.rsv
  rsv.foldl (fun s e => fset s (Fld.BPM_RES_RESERVED (e.1 % 4)) (rsvSum s (e.1 % 4))) s

/-- A valid record is unwrapped into its slot; one that does not unwrap leaves the slot EMPTY (R472). -/
def recordRestore (s : State) (e : Nat × KRec) : State :=
  if e.2.kek = kek s then
    let r := e.2
    let st := if r.erasing then 3 else if r.bound then 2 else 1
    slotPut s e.1 { KSlot.empty with st := st, typ := 4, origin := (kslot s e.1).origin, gen := r.gen, slice := r.slice, nsid := r.nsid,
                                     buf0 := fit 64 r.material }
  else post (fon s Fld.KST_EVENTS_UNWRAP_FAIL_BOOT) 15 2 false e.1 2 0 0

/-- After a service unlock every namespace is as after a crypto-erase (R92). -/
def svcErase (s : State) : State :=
  if !s.svc.eraseAll then s
  else
    let it : MItem := { comp := 0x0107, digest := zeros 48, version := s.tmb.boots, svn := 0 }
    let s := s.zne.ns.foldl (fun s e => nsEmpty s e.1 e.2) s
    { s with svc := { s.svc with eraseAll := false }, kst := { s.kst with recs := [], recLog := [] },
             bot := { s.bot with boots := s.bot.boots ++ [it] } }

/-- Firmware enables the blocks; zones, the conventional map and placement stay off after a failed pattern test (R327, R409). -/
def blocksEnable (s : State) : State :=
  let s := [Fld.DSC_CTRL_EN, Fld.LDC_CTRL_EN, Fld.BPM_CTRL_EN, Fld.DMC_CTRL_EN, Fld.UMP_CTRL_EN, Fld.XTE_CTRL_EN, Fld.PVE_CTRL_EN,
    Fld.KST_CTRL_EN, Fld.SGN_CTRL_EN, Fld.LKT_CTRL_EN].foldl fon s
  if fget s Fld.MEP_PTEST_RESULT = 3 then s else [Fld.ZNE_CTRL_EN, Fld.CMP_CTRL_EN, Fld.PLC_CTRL_EN].foldl fon s

/-- Pairs 0 to 6 run, pair 7 is the spare. -/
def pairsStart (s : State) : State := (List.range 8).foldl (fun s p => fset s (pairField p) (if p = 7 then 2 else 1)) s

/-- The base items of a BOOT entry (R492). -/
def bootItems (s : State) (i : Image) (c : Option Cust) : List MItem :=
  let m := fun k => i.digs.getD k []
  let anchor := fun (a : Option (List Byte)) => match a with | some d => d | none => zeros 48
  [{ comp := 1, digest := Config.romDigest, version := s.part.romRev, svn := 0 },
   { comp := 2, digest := m 0, version := i.hdrVer, svn := i.svn.getD 0 0 },
   { comp := 3, digest := m 1, version := i.fwVer, svn := i.svn.getD 1 0 },
   { comp := 4, digest := m 2, version := i.abi, svn := i.svn.getD 2 0 },
   { comp := 5, digest := custDigest c, version := (match c with | some c => c.abi | none => 0), svn := (match c with | some c => c.svn | none => 0) },
   { comp := 6, digest := s.acm.digest, version := s.acm.matrix.length, svn := 0 },
   { comp := 7, digest := anchor s.kst.mgrAnchor, version := 0, svn := 0 },
   { comp := 8, digest := anchor s.kst.ofcAnchor, version := 0, svn := 0 },
   { comp := 9, digest := Config.sha384 Config.boardRecord, version := u16 Config.boardRecord 0, svn := 0 }]

/-- SECURITY_STATE (R493), the chain break aside. -/
def secureState (s : State) (c : Option Cust) (slot : Nat) (reset : Bool) : Nat :=
  2 * b2n c.isSome + 4 * b2n s.kst.mgrAnchor.isSome + 8 * b2n s.kst.ofcAnchor.isSome + 16 * b2n (inband s) + 32 * slot +
  64 * b2n s.bot.svcSeen + 128 * b2n reset

/-- The BOOT entry commits: PENDING becomes ACTIVE, SKIP clears, the mark is written, the ports may train (R52, R534). -/
def entryDone (s : State) (i : Image) (slot typ cause : Nat) : State :=
  let b := s.bot.bcr
  let s := if b.pending = slot then bcrPut s { b with active := slot, pending := 0xFF, tries := 0 } else s
  let s := { foff s Fld.BOT_SLOT_SKIP with bot := { (foff s Fld.BOT_SLOT_SKIP).bot with boots := [], svcSeen := false } }
  let s := post s 22 5 false (typ + 256 * cause) ((s.sgn.next - 1) % 4294967296) i.fwVer 0
  let us := openVal s % (if typ = 3 then 900001 else 5100001)
  trainEnable (fset (openTaken s) Fld.BOT_BOOT_TIME_US us)

/-- The BOOT entry of a boot (R496). -/
def entryBoot (s : State) (i : Image) (c : Option Cust) (slot typ cause : Nat) (reset : Bool) : State :=
  let items := bootItems s i c
  let digest := Config.sha384 (setRecords s.bot.sets)
  let state := secureState s c slot reset
  let s := { s with bot := { s.bot with items := items, setDig := digest, reason := typ + 256 * cause, secure := state } }
  let r := bootEntry s 1 items digest (typ + 256 * cause) state s.bot.boots
  if r.1 then entryDone r.2 i slot typ cause else r.2

/-- The firmware slots and the manufacture sectors of the identity area are locked; at the first boot the password changes
(R522). -/
def sectorsLock (s : State) : State :=
  let s := if s.cls.pw = 0xFFFFFFFFFFFFFFFF then { s with cls := { s.cls with pw := lockPw } } else s
  let s := slotLock (slotLock s 0 true) 1 true
  (List.range 4).foldl (fun s k => lockSet s (14336 + k) true) s

/-- The flush of a power loss is summed up in the Locket (R584). -/
def lossRecord (s : State) (cause : Nat) : State :=
  match s.bot.loss with
  | some (c, d, us, v, low) =>
    if cause ≠ 2 then s
    else
      let s := fset (fset (fset s Fld.SGD_LOSS_INFO_CAUSE c) Fld.SGD_LOSS_INFO_DIRTY_MIB d) Fld.SGD_LOSS_INFO_COMPLETE 1
      let s := fset s Fld.SGD_LOSS_TIME_FLUSH_US us
      let s := fset (fset s Fld.SGD_LOSS_V_VBANK_10MV v) Fld.SGD_LOSS_V_VIN_MIN_10MV low
      post s 12 10 false d us v 1
  | none =>
    if cause = 3 then
      post s 12 10 false (fget s Fld.SGD_LOSS_INFO_DIRTY_MIB) (fget s Fld.SGD_LOSS_TIME_FLUSH_US) (fget s Fld.SGD_LOSS_V_VBANK_10MV) 0
    else s

/-- Planner and prediction state of a boot (R558, R560, R562). -/
def agePlans (s : State) (typ : Nat) : State :=
  let s := recordLoad (banksDefault s)
  let s := fset s Fld.AGE_PLAN_STATUS_RUNS (s.age.runs % 16777216)
  let s := if s.age.base.isEmpty then s else fset s Fld.AGE_RALLY_STATUS_BASELINE 2
  let t := now s
  { s with age := { s.age with up := t, probe := typ == 1 } }

/-- Firmware runs: from a good image in `slot` to the end of step 11. -/
def bootNormal (s : State) (slot typ cause : Nat) (sure kept : Bool) : State :=
  match SMap.find s.bot.img slot with
  | none => s
  | some i =>
    let s := fset s Fld.BOT_STATE_SLOT slot
    let s := sectorsLock (deriveRom s 0 (i.digs.getD 0 []) (i.svn.getD 0 0))
    let s := fon (if kept then fon s Fld.DMC_STATUS_KEPT else s) Fld.DMC_STATUS_READY
    let s := pset s Reg.DMC_TOP_LO Reg.DMC_TOP_HI (s.part.dramGib * 1073741824)
    let s := pairsStart s
    let s := if kept then s else patternTest s
    let st := stageOne s i
    let s := fset (matrixLoad (cardsClear st.2)) Fld.BOT_STATE_STAGE 3
    let first := !s.plc.made
    let set := settingsLoad s i.fmt
    let s := settingsApply set.2 kept
    let s := agePlans s typ
    let s := (List.range (chanCount s)).foldl chanInit s
    let s := (groupCount s).foldl groupInit s
    let s := lostShow (if first then firstBoot s else s)
    let s := flushParams (sliceQuotas (boardBlocks s))
    let s := kstShow (svcErase (s.kst.recs.foldl recordRestore s))
    let s := lossRecord s cause
    let s := entryBoot s i st.1 slot typ cause set.1
    let s := rebuildTables (blocksEnable s) sure
    let s := ((List.range (chanCount s)).filter fun ch => !s.med.chans.contains ch).foldl channelRestore s
    let s := if s.hst.dst.lost = 0 then s
      else dstRecord { s with hst := { s.hst with dst := { s.hst.dst with lost := 0 } } } s.hst.dst.lost 8 0 0 0
    let s := if first then testSchedule s else s
    let s := dstShow (slmShow (xtePool (xteDedShow (pveShow (pkeShow (sgnShow s))))))
    psRefresh { s with bot := { s.bot with ran := true } }

/-- The boot counter adds 1, and saturates (R61). -/
def bootsUp (s : State) : State := { s with tmb := { s.tmb with boots := min 0xFFFFFFFF (s.tmb.boots + 1) } }

/-- The warm reset that a fallback of stage 1 is (R22, R531, R536): registers at their reset values but for SKIP, latches open. -/
def fallReset (s : State) : State := latchesOpen (bootViews (regsReset s true) 3 4)

/-- The attempts of a boot: a slot that stage 1 rejects falls back, which is a warm reset and another boot (R536). -/
def bootTry : Nat → State → Nat → Nat → Bool → Bool → State
  | 0, s, typ, cause, _, _ => bootRecovery s typ cause 2
  | n + 1, s, typ, cause, sure, kept =>
    if s.part.recoverN then bootRecovery s typ cause 1
    else
      match romChoose (slotOrder s) (trialExpire s) with
      | (none, s) => bootRecovery s typ cause 2
      | (some k, s) =>
        let s := bootSnoop (bootSnoop s k 1) k 2
        if stageStatus s k = 0 then bootNormal s k typ cause sure kept
        else
          let s := slotFail (if kept then s else patternTest s) k (stageStatus s k) 20
          bootTry n (fallReset (bootsUp (fbiton s Fld.BOT_SLOT_SKIP k))) 3 4 sure true

/-- Device time has moved on over a reset or a loss of power to the compute die, so that what is stamped after it is later than what was
stamped before (R59); time that was held at the ceiling advances once a new one is stored, now that step 8 blocks no pulses (R60). -/
def timeOver (s : State) : State :=
  let s := if fone s Fld.TMB_STATUS_HELD then ceilingStore s else s
  reach s (now s + 1)

/-- TMB_STATUS.XTAL_OK while the crystal runs (R62). -/
def xtalShow (s : State) : State := fset s Fld.TMB_STATUS_XTAL_OK (b2n s.tmb.xtalStop.isNone)

/-- The compute die is released from reset: a boot of type `typ`, `cause` 0 standing for what a power-up finds (R61, R493, R531). -/
def boot (s : State) (typ cause : Nat) : State :=
  let sure := !s.bot.ran
  let cause := if cause ≠ 0 then cause else if s.bot.ran then 3 else if s.bot.loss.isSome then 2 else 1
  let s := bootsUp s
  let s := { s with sgd := { s.sgd with released := true, pfail := false, sgFail := false, step := 0 },
                    bot := { s.bot with run := true } }
  let s := foff (foff (foff s Fld.CLS_STATUS_BLOCK_STEP8) Fld.CLS_STATUS_PFAIL) Fld.TSN_STATUS_TRIPPED
  let s := xtalShow (timeOver s)
  let s := fset s Fld.SGD_VIN_MIN_10MV (fget s Fld.SGD_VIN_NOW_10MV)
  let s := { s with hst := { s.hst with ports := SMap.mapv s.hst.ports fun _ x => { x with idleAt := now s } } }
  let s := foff (fon (foff s Fld.CLS_CTRL_LOCK) Fld.CLS_CTRL_EN) Fld.SGD_CTRL_LOCK
  let s := clsBoot (heldAccept (lktBoot s))
  let s := bootTry 3 (latchesOpen (bootViews s typ cause)) typ cause sure (typ == 3)
  chgUpdate { s with bot := { s.bot with loss := none } }

/-! ### Release, flush end and the ends of power (R449, R450, R599, R600) -/

/-- COMPUTE_RESET_RELEASE: 2 ms after COMPUTE_PGOOD rose, with SYS_RESET_N high. -/
def resetRelease (s : State) : State :=
  if !s.sgd.pgood || !s.sgd.pwrEn || s.sgd.released || s.bot.ball || s.cls.dead then s
  else boot (reach s (s.sgd.pgoodAt + 2000000)) 1 0

def execComputeResetRelease (s : State) : Out := .next (resetRelease s)

/-- Steps 5 and 6 of R54 are complete: every dirty unit and the journal tail lie in the emergency blocks, the ledger and the Locket are
flushed. -/
def flushDone (s : State) : State :=
  if !s.sgd.pfail || 7 ≤ s.sgd.step then s
  else
    let s := flushPower (sgnFlush (emgFlush s))
    { s with sgd := { s.sgd with step := 7 } }

def execEmergencyFlushDone (s : State) : Out := .next (flushDone s)

/-- The loss record of a power loss, as the SGD holds it (R450). -/
def lossNote (s : State) (done : Bool) : State :=
  let us := (now s - s.sgd.failAt) / 1000
  let v := fget s Fld.SGD_HU_STATE_VBANK_10MV
  let low := s.sgd.low
  let s := fset s Fld.SGD_LOSS_TIME_FLUSH_US us
  let s := fset (fset s Fld.SGD_LOSS_V_VBANK_10MV v) Fld.SGD_LOSS_V_VIN_MIN_10MV low
  let s := fset s Fld.SGD_LOSS_INFO_COMPLETE (b2n done)
  { s with bot := { s.bot with loss := if done then some (s.sgd.cause, s.sgd.dirtyAt, us, v, low) else none } }

/-- Step 8: NOR pulses are blocked; a reset flush ends in the reset, a power loss in the release of the supplies. -/
def flushEndStep (s : State) : State :=
  let s := fon (fon s Fld.CLS_STATUS_BLOCK_STEP8) Fld.CLS_EVENTS_BLOCKED
  let s := { s with sgd := { s.sgd with pfail := false, step := 8 } }
  match (if s.sgd.sgFail then none else s.bot.want) with
  | some (typ, cause) =>
    let s := computeOff { s with sgd := { s.sgd with released := false } } (typ == 3)
    if s.bot.ball then s else boot { s with bot := { s.bot with want := none } } typ cause
  | none =>
    let s := computeOff { s with sgd := { s.sgd with released := false, pwrEn := false, pgood := false, back := none } } false
    chgUpdate (backSet { s with bot := { s.bot with want := none } })

/-- EMERGENCY_INDEX_PROGRAMMED: step 7 has programmed the index, unless the Clasp die blocks pulses itself (R450). -/
def indexProgrammed (s : State) : State :=
  if !s.sgd.pfail || s.sgd.step ≠ 7 then s
  else
    let ok := !fone s Fld.CLS_STATUS_BLOCK_AON
    let s := { s with bot := { s.bot with ran := s.bot.ran && !ok } }
    flushEndStep (if s.sgd.sgFail then lossNote s ok else { s with bot := { s.bot with loss := none } })

def execEmergencyIndexProgrammed (s : State) : Out := .next (indexProgrammed s)

/-- The Clasp die resets (R598): the compute die is held in reset, what ran is gone. -/
def claspReset (s : State) : State :=
  let s := computeOff (lktCut { s with sgd := { s.sgd with released := false } }) false
  { s with cls := { s.cls with dead := true } }

def execClaspDieReset (s : State) : Out := .next (claspReset s)

/-- Device time resumes at the stored ceiling + 1 µs (R60). The ceiling is stored ahead of time, so the larger of the two is the first; the
maximum keeps R59 in states that no run reaches. With none stored, the first power-up of the part starts at 0, and a later one goes
past every time that was stamped (R59; DESIGN CHOICE, notes/assumptions/40.md). -/
def resumeTime (s : State) : Nat :=
  match s.tmb.ceiling with
  | some c => max (s.tmb.time + 1) (c + 1000)
  | none => if s.tmb.time = 0 then 0 else s.tmb.time + 1

/-- What the Clasp die holds after a power-up: time resumed, no latch, no descriptor, the supplies off (R59–R61, R599). -/
def claspResume (s : State) : State :=
  let ceil := match s.tmb.ceiling with | some c => c | none => 0
  { s with tmb := { s.tmb with time := resumeTime s, xtalStop := none },
           latch := [(Reg.TMB_TIME_HI, resumeTime s / 4294967296), (Reg.TMB_CEIL_HI, ceil / 4294967296)], sel := [],
           cls := { s.cls with slots := [], erase := none, cr := none, dead := false },
           sgd := { Sgd.reset with everTested := s.sgd.everTested, lastTest := s.sgd.lastTest, bad := s.sgd.bad, nominal := resumeTime s },
           bot := { s.bot with want := none } }

/-- A power-up of the Clasp die (R59–R61, R599): its registers at their reset values, device time past the ceiling, the supplies
off. `vin` and `bank` are the first readings. -/
def claspPowerUp (s : State) (vin bank : Nat) : State :=
  let s := if s.sgd.released then computeOff s false else s
  let s := resetWindow (resetWindow (resetWindow s 0x400C0000 65536) 0x40130000 65536) 0x401A0000 65536
  let s := claspResume (rset s Reg.ACM_SVC_STATE 0)
  let s := xtalShow (fset (ceilingStore s) Fld.TMB_STATUS_RESUMED (b2n s.tmb.ceiling.isSome))
  let s := fset (fset s Fld.SGD_VIN_NOW_10MV (min 2047 vin)) Fld.SGD_VIN_MIN_10MV (min 2047 vin)
  let ovr := [(1, decide (vin < fget s Fld.SGD_VTH_A_SAG)), (2, decide (vin < fget s Fld.SGD_VTH_A_BROWN)),
    (3, decide (vin < fget s Fld.SGD_VTH_B_FAIL)), (4, decide (fget s Fld.SGD_VTH_B_SURGE < vin))]
  let dist := (ovr.filter (·.2)).map fun e => (e.1, ({ since := now s, extreme := vin, silent := true } : Dist))
  let s := { s with sgd := { s.sgd with dist := dist } }
  clsShow (backSet (classShow (bankShow s bank)))

def execClaspPowerUp (vin bank : Nat) (s : State) : Out := .next (claspPowerUp s vin bank)

/-- SYS_RESET_N is held low (R531, R603): a reset flush and a cold reset; during a power-loss flush it is ignored. -/
def coldReset (s : State) : State :=
  if s.sgd.sgFail && s.sgd.pfail then s
  else resetFlush { s with bot := { s.bot with ball := true } } 2 8

def execColdReset (s : State) : Out := .next (coldReset s)

/-- SYS_RESET_N returns high: a compute die that waits for it leaves reset. -/
def ballRelease (s : State) : State :=
  let s := { s with bot := { s.bot with ball := false } }
  match s.bot.want with
  | some (typ, cause) =>
    if s.sgd.released || s.sgd.pfail || !s.sgd.pwrEn then s else boot { s with bot := { s.bot with want := none } } typ cause
  | none => s

def execColdResetBallRelease (s : State) : Out := .next (ballRelease s)

/-- A pair's watchdog expires (R56, R90): VIO_WATCHDOG cards the pair; the last pair in service gives a warm reset instead. -/
def coreWatchdog (s : State) (p : Nat) : State :=
  if pairSt s p ≠ 1 ∧ pairSt s p ≠ 2 ∧ pairSt s p ≠ 5 then s
  else
    let s := fbiton s Fld.FCX_FAULT_WDOG p
    if (List.range 8).any fun q => q != p && (pairSt s q == 1 || pairSt s q == 2) then raiseVio s 9 25 (midPair p) 0
    else
      let s := fbiton (finc s (Fld.ACM_VIO_COUNT_COUNT 9)) Fld.ACM_VIO_STATUS_SEEN 8
      let s := fset (fset s Fld.ACM_VIO_LAST_CODE_CODE 9) Fld.ACM_VIO_LAST_MASTER_MASTER_ID (midPair p)
      let s := pset s Reg.ACM_VIO_LAST_TIME_LO Reg.ACM_VIO_LAST_TIME_HI (now s)
      resetFlush (post s 23 9 true 25 3 (midPair p) 0) 3 5

def execCoreWatchdogExpiry (p : Fin 8) (s : State) : Out := .next (coreWatchdog s p.val)

end Sys2Proof.Machine
end

