-- ==== Sys2Proof/Machine/Links.lean ====
section
/-! DEFINITION. The host links, and the controller reset of a port (R52, R122–R128, R142–R147, R149, R160). -/
namespace Sys2Proof.Machine
open Sys2Proof

/-! ### Controller reset (R118, R126, R147, R149) -/

/-- A window with GO cleared in its doorbell word. -/
def goOff (win : List Byte) : List Byte := winPut win 2 [BitVec.ofNat 8 (u8 win 2 / 2 * 2)]

/-- A channel returns to IDLE with GO 0, its volley abandoned; a request that waits keeps its work and loses its response (R118). -/
def chanReset (s : State) (c : Nat) : State :=
  let x := chanGet (volleyDrop s c) c
  let s := chanPut (volleyDrop s c) c { x with go := false, rcvd := 0, win := goOff x.win }
  { s with mbx := { s.mbx with waits := s.mbx.waits.map fun w => if w.ch = c then { w with ch := 64 } else w } }

/-- The queues of a port cease to exist. -/
def portQueuesDrop (s : State) (p : Nat) : State :=
  { s with hst := { s.hst with sqs := SMap.keep s.hst.sqs (fun k _ => k / 65536 != p),
                               cqs := SMap.keep s.hst.cqs (fun k _ => k / 65536 != p), turns := SMap.del s.hst.turns p } }

/-- A download that the port's channels or its admin queue own is discarded. -/
def portDownloadDrop (s : State) (p : Nat) : State :=
  match s.bot.dl with
  | some d => if d.owner = 64 + p ∨ (d.owner < 32 ∧ d.owner / 8 = p) then { s with bot := { s.bot with dl := none } } else s
  | none => s

/-- The buffers that the port's master holds for its commands go back to their pools, and its waiting requests go with the commands
(R147, R365). -/
def portBuffers (s : State) (p : Nat) : State :=
  let mine := fun (b : Buf) => b.st == 1 && b.holder == midPort p
  let n := SMap.cnt s.bpm.bufs fun _ b => mine b
  let bufs := SMap.mapv s.bpm.bufs fun _ b => if mine b then { b with st := 2, link := none } else b
  let waits := s.bpm.waits.filter fun w => w.id != midPort p
  bpUpdate (fadd { s with bpm := { s.bpm with bufs := bufs, waits := waits } } (Fld.BPM_COUNT_COUNT 1) n)

/-- A controller reset of port `p`: its commands end without completions, its queues cease to exist, its NVMe registers, features
and requests are at their defaults, its channels idle (R118, R126, R147, R149, R158). -/
def ctrlReset (s : State) (p : Nat) : State :=
  let s := portBuffers (ctxVanish s fun c => c.port == p) p
  let s := portDownloadDrop (portQueuesDrop s p) p
  let s := (List.range 8).foldl (fun s k => chanReset s (8 * p + k)) s
  let s := if s.hst.dst.st = 1 ∧ s.hst.dst.origin = p then dstAbort s 2 else s
  let t := now s
  let cfs := carded s (midPort p)
  let s := portUpd s p fun x => { portDefaults x t with en := false, rdy := false, shn := false, shst := 0, cfs := cfs, aers := [], events := [] }
  psRefresh (slmShow (cardReset s (midPort p)))

/-! ### Links -/

/-- Lanes of a port in each configuration (R122). -/
def portLanes (s : State) (p : Nat) : Nat :=
  match s.part.cfg, p with
  | 0, 0 => 16
  | 1, 0 => 8
  | 1, 1 => 8
  | 2, _ => 4
  | 3, 0 => 8
  | 3, 1 => 4
  | 3, 2 => 4
  | _, _ => 0

/-- What the host sets in the port's configuration space is at its default after a conventional reset: 128-byte payloads, 512-byte read
requests, ECRC off (R125). -/
def confDefaults (s : State) (p : Nat) : State :=
  portUpd (fset (fset s (Fld.HPT_DMA_LIMITS_MPS p) 0) (Fld.HPT_DMA_LIMITS_MRRS p) 2) p fun x => { x with ecrc := false }

/-- What the host has set there by the time it enables the controller: a payload size, a read request size, ECRC, and the MSI-X table.
No command of the table is such a write, so they are open values within R125's limits (DESIGN CHOICE, notes/assumptions/69.md). -/
def confSet (s : State) (p : Nat) : State :=
  let v := openVal s
  let s := fset (fset s (Fld.HPT_DMA_LIMITS_MPS p) (v % 3)) (Fld.HPT_DMA_LIMITS_MRRS p) (v / 3 % 6)
  openTaken (portUpd s p fun x => { x with ecrc := v / 18 % 2 == 1, msix := v / 36 })

/-- HPT_LINK_p of a link that is down, and of one in L0. -/
def linkDownShow (s : State) (p : Nat) : State := confDefaults (rset s (Reg.HPT_LINK p) 0) p

def linkUpShow (s : State) (p speed width : Nat) (flit : Bool) : State :=
  let s := fset (fset s (Fld.HPT_LINK_SPEED p) speed) (Fld.HPT_LINK_WIDTH p) width
  let s := foff (fset s (Fld.HPT_LINK_FLIT p) (b2n flit)) (Fld.HPT_LINK_L0P p)
  fset (fon s (Fld.HPT_LINK_DL_UP p)) (Fld.HPT_LINK_LTSSM p) 3

/-- A width of the table of HPT_LINK_p. -/
def widthOk (w : Nat) : Bool := [1, 2, 4, 8, 16].contains w

/-- The data link is lost: the event, its record, and a controller reset (R126, R584). -/
def linkLost (s : State) (p : Nat) : State :=
  let s := fon s (Fld.HPT_EVENT_DL_DOWN p)
  ctrlReset (post (linkDownShow s p) 0 1 false p (rget s (Reg.HPT_EVENT p)) 0 0) p

def dlDown (s : State) (p : Nat) : State := if linkUp s p then linkLost s p else s

def execDlDown (p : Fin 4) (s : State) : Out := .next (dlDown s p.val)

/-- PERSTp_N asserted: the sessions of the port's DOE mailbox end, the link is lost (R68, R123, R126). -/
def perstAssert (s : State) (p : Nat) : State :=
  if !portThere s p || (portGet s p).perst then s
  else
    let s := fon (portUpd s p fun x => { x with perst := true }) (Fld.HPT_EVENT_PERST p)
    let up := linkUp s p
    let s := match (if p < 4 then some (Fin.ofNat 4 p) else none) with
      | some q => pathEnd s (.doe q)
      | none => s
    if up then linkLost s p else ctrlReset s p

def execPerstAssert (p : Fin 4) (s : State) : Out := .next (perstAssert s p.val)

/-- PERSTp_N deasserted: the port leaves reset; it stays in Detect.Quiet until TRAIN_EN is set (R52, R124). -/
def perstDeassert (s : State) (p : Nat) : State :=
  if !portThere s p then s
  else
    let hold := !fbit s Fld.HPT_CTRL_TRAIN_EN p
    portUpd s p fun x => { x with perst := false, quiet := hold }

def execPerstDeassert (p : Fin 4) (s : State) : Out := .next (perstDeassert s p.val)

/-- A hot reset or a function-level reset acts as a controller reset; the link stays as it is. -/
def linkReset (s : State) (p : Nat) (ev : Field) : State := if linkUp s p then ctrlReset (fon s ev) p else s

def execHotReset (p : Fin 4) (s : State) : Out := .next (linkReset (if linkUp s p.val then confDefaults s p.val else s) p.val (Fld.HPT_EVENT_HOT_RESET p.val))

def execFunctionLevelReset (p : Fin 4) (s : State) : Out := .next (linkReset s p.val (Fld.HPT_EVENT_FLR p.val))

/-- The port may train: present, out of reset, past Detect.Quiet, the controller booted (R52, R124). -/
def mayTrain (s : State) (p : Nat) : Bool :=
  portThere s p && s.bot.run && !(portGet s p).perst && !(portGet s p).quiet

/-- Training ends at a rate and a width up to the configured one, in FLIT mode at 64 GT/s (R124, R125). -/
def linkTrained (s : State) (p speed width : Nat) (flit : Bool) : State :=
  if mayTrain s p && decide (1 ≤ speed ∧ speed ≤ 6) && widthOk width && decide (width ≤ portLanes s p) && (flit || speed != 6) then
    psRefresh (portUpd (linkUpShow s p speed width flit) p fun x => { x with trained := width })
  else s

def execLinkTrained (p : Fin 4) (speed width : Nat) (flit : Bool) (s : State) : Out := .next (linkTrained s p.val speed width flit)

/-- An entry to Recovery. -/
def recoveryCount (s : State) (p : Nat) : State :=
  let s := finc s (Fld.HPT_RECOVERY_COUNT_COUNT p)
  { s with hst := { s.hst with diag := { s.hst.diag with recover := sat 64 (s.hst.diag.recover + 1) } } }

/-- A port that has retrained: the record of its width and rate. -/
def retrained (s : State) (p : Nat) : State :=
  post (recoveryCount s p) 0 2 false p (fget s (Fld.HPT_LINK_WIDTH p)) (fget s (Fld.HPT_LINK_SPEED p)) 0

/-- Lanes have failed: the port retrains to a narrower width (R127). -/
def laneFailure (s : State) (p width : Nat) : State :=
  if linkUp s p && widthOk width && decide (width < (portGet s p).trained) then
    let s := portUpd s p fun x => { x with trained := width }
    retrained (fon (fset (foff s (Fld.HPT_LINK_L0P p)) (Fld.HPT_LINK_WIDTH p) width) (Fld.HPT_EVENT_WIDTH_DROP p)) p
  else s

def execLaneFailure (p : Fin 4) (width : Nat) (s : State) : Out := .next (laneFailure s p.val width)

/-- The port retrains to a lower rate (R127). -/
def speedDrop (s : State) (p speed : Nat) : State :=
  if linkUp s p && decide (1 ≤ speed ∧ speed < fget s (Fld.HPT_LINK_SPEED p)) then
    retrained (fon (fset s (Fld.HPT_LINK_SPEED p) speed) (Fld.HPT_EVENT_SPEED_DROP p)) p
  else s

def execLinkSpeedDrop (p : Fin 4) (speed : Nat) (s : State) : Out := .next (speedDrop s p.val speed)

/-- Recovery and back to L0 with no change. -/
def execLinkRecovery (p : Fin 4) (s : State) : Out :=
  .next (if linkUp s p.val then recoveryCount (fset s (Fld.HPT_LINK_LTSSM p.val) 3) p.val else s)

/-- Under L0p the port narrows below its trained width, or widens again up to it (R125). -/
def l0pWidth (s : State) (p width : Nat) : State :=
  let full := (portGet s p).trained
  if linkUp s p && widthOk width && decide (width ≤ full) && fget s (Fld.HPT_LINK_LTSSM p) == 3 then
    fset (fset s (Fld.HPT_LINK_WIDTH p) width) (Fld.HPT_LINK_L0P p) (b2n (decide (width < full)))
  else s

def execL0pWidthChange (p : Fin 4) (width : Nat) (s : State) : Out := .next (l0pWidth s p.val width)

def execAspmL1Entry (p : Fin 4) (s : State) : Out :=
  .next (if linkUp s p.val then fset s (Fld.HPT_LINK_LTSSM p.val) 5 else s)

def execAspmL1Exit (p : Fin 4) (s : State) : Out :=
  .next (if linkUp s p.val && fget s (Fld.HPT_LINK_LTSSM p.val) == 5 then fset s (Fld.HPT_LINK_LTSSM p.val) 3 else s)

/-- A host read without data: counted in DMA_ERRORS (R160). -/
def dmaError (s : State) (ev : Field) : State :=
  let s := fon s ev
  { s with hst := { s.hst with diag := { s.hst.diag with dmaErr := sat 64 (s.hst.diag.dmaErr + 1) } } }

def execHostReadCompletionTimeout (p : Fin 4) (s : State) : Out :=
  .next (if linkUp s p.val then dmaError s (Fld.HPT_EVENT_CPL_TIMEOUT p.val) else s)

def execPoisonedCompletion (p : Fin 4) (s : State) : Out :=
  .next (if linkUp s p.val then dmaError s (Fld.HPT_EVENT_POISONED p.val) else s)

/-- An ECRC that does not match is found while the host has ECRC checking enabled (R125). -/
def execEcrcCheckFail (p : Fin 4) (s : State) : Out :=
  .next (if linkUp s p.val && (portGet s p.val).ecrc then fon s (Fld.HPT_EVENT_ECRC_ERR p.val) else s)

/-! ### CC and CSTS (R142, R144) -/

/-- CC.EN set: the controller becomes ready with its admin queues, of the sizes AQA gives (0's based, at most 4,096). -/
def ccEnSet (s : State) (p asqs acqs : Nat) : State :=
  if linkUp s p && s.bot.run && !(portGet s p).en then
    let sq : Sq := { size := asqs % 4096 + 1, head := 0, tail := 0, cq := 0, stamps := [], del := none }
    let cq : Cq := { size := acqs % 4096 + 1, vector := 0, posted := [], head := 0, coal := 0 }
    let s := { s with hst := { s.hst with sqs := SMap.put s.hst.sqs (p * 65536) sq, cqs := SMap.put s.hst.cqs (p * 65536) cq } }
    psRefresh (portUpd (confSet s p) p fun x => { x with en := true, rdy := true, shst := 0 })
  else s

def execCcEnSet (p : Fin 4) (asqs acqs : Nat) (s : State) : Out := .next (ccEnSet s p.val asqs acqs)

def execCcEnClear (p : Fin 4) (s : State) : Out := .next (if (portGet s p.val).en then ctrlReset s p.val else s)

/-- CC.SHN set: the port stops fetching. -/
def execCcShnWrite (p : Fin 4) (s : State) : Out :=
  .next (let x := portGet s p.val
    if linkUp s p.val && x.en && !x.shn then portUpd s p.val fun x => { x with shn := true, shst := 1 } else s)

/-- Every command fetched on the port has completed: SHST reads 10b; requests for asynchronous events do not count. -/
def shutdownEnd (s : State) (p : Nat) : State :=
  let x := portGet s p
  if x.shn && x.shst == 1 && !(s.hst.ctx.any fun e => e.2.port == p && !e.2.aer) then
    psRefresh (portUpd s p fun x => { x with shst := 2 })
  else s

def execShutdownComplete (p : Fin 4) (s : State) : Out := .next (shutdownEnd s p.val)

end Sys2Proof.Machine
end

