-- ==== Sys2Proof/Machine/Queues.lean ====
section
/-! DEFINITION. Doorbells, fetching, posting completions, creating and deleting queues (R43–R46, R134–R147, R166–R169, R179). -/
namespace Sys2Proof.Machine
open Sys2Proof

/-- The key of a queue. -/
def qKey (p q : Nat) : Nat := p * 65536 + q

def sqUpd (s : State) (k : Nat) (f : Sq → Sq) : State := { s with hst := { s.hst with sqs := SMap.upd s.hst.sqs k f } }
def cqUpd (s : State) (k : Nat) (f : Cq → Cq) : State := { s with hst := { s.hst with cqs := SMap.upd s.hst.cqs k f } }

/-! ### Doorbells (R43–R46, R141, R152, R167, R182) -/

/-- A tail doorbell for an existing queue: its entries carry the time of its arrival (R265). -/
def ringTail (s : State) (k v : Nat) : State :=
  let t := now s
  sqUpd s k fun q => { q with tail := v, stamps := if v = q.tail then q.stamps else q.stamps ++ [(v, t)] }

/-- A head doorbell: the host has consumed the entries up to the new head. -/
def ringHead (s : State) (k v : Nat) : State :=
  cqUpd s k fun q => { q with posted := q.posted.drop ((v + q.size - q.head) % q.size), head := v }

/-- The port takes host writes: its link is up and its controller is ready. -/
def portReady (s : State) (p : Nat) : Bool := linkUp s p && (portGet s p).rdy

/-- A doorbell write on a port ends a non-operational state (R152), and its idle bit follows. -/
def rung (s : State) (p : Nat) : State := psRefresh (psWake s p)

def adminTail (s : State) (p v : Nat) : State :=
  match SMap.find s.hst.sqs (qKey p 0) with
  | some q => if portReady s p then rung (if v < q.size then ringTail s (qKey p 0) v else s) p else s
  | none => s

def execAdminSqTailDoorbell (p : Fin 4) (v : Nat) (s : State) : Out := .next (adminTail s p.val v)

def adminHead (s : State) (p v : Nat) : State :=
  match SMap.find s.hst.cqs (qKey p 0) with
  | some q => if portReady s p then rung (if v < q.size then ringHead s (qKey p 0) v else s) p else s
  | none => s

def execAdminCqHeadDoorbell (p : Fin 4) (v : Nat) (s : State) : Out := .next (adminHead s p.val v)

/-- A write to a BAR0 doorbell offset beyond the admin pair: a record, and nothing else (R44). -/
def execBar0DoorbellInvalid (p : Fin 4) (off : Nat) (s : State) : Out :=
  .next (if linkUp s p.val && decide (0x1008 ≤ off ∧ off < 0x10000) then post s 1 1 false p.val off 0 0 else s)

/-- Whether a write on a slice's live doorbell page may act: 0 yes, 1 it has no effect, else the violation (R45, R46, R86, R182). -/
def pageCheck (s : State) (p page q : Nat) (pasid : Option Nat) : Nat :=
  match SMap.find s.slm.slices page with
  | none => 1
  | some x =>
    if (SMap.find x.slots p).isNone || decide (64 ≤ q) || x.resetting || !linkUp s p then 1
    else if fone s Fld.ACM_CTRL_PASID_DB_CHECK then
      match pasid with
      | none => 3
      | some v => if v = x.pasid then 0 else 2
    else 0

/-- The queue key that a local index of a slice has on a port (R166). -/
def localKey (s : State) (p page q : Nat) : Nat :=
  match SMap.find s.slm.slices page with
  | some x => qKey p (64 * SMap.getD x.slots p 0 + q)
  | none => qKey p 0

/-- A violation by a doorbell write, against the slice; VIO_PASID is found by HPT (block 0), VIO_DOORBELL by QEN (1). -/
def bellVio (s : State) (code page off : Nat) : State := raiseVio s code (if code = 2 then 0 else 1) (midSlice page) off

def sqBell (s : State) (p page q v : Nat) (pasid : Option Nat) : State :=
  let off := page * 4096 + 8 * q
  let c := pageCheck s p page q pasid
  if c = 1 then s
  else if c ≠ 0 then rung (bellVio s c page off) p
  else
    let k := localKey s p page q
    match SMap.find s.hst.sqs k with
    | none => rung (bellVio s 3 page off) p
    | some x =>
      if x.del.isSome then rung s p
      else if x.size ≤ v then rung (bellVio s 3 page off) p
      else rung (ringTail s k v) p

def execSqTailDoorbell (p : Fin 4) (page q v : Nat) (pasid : Option Nat) (s : State) : Out := .next (sqBell s p.val page q v pasid)

def cqBell (s : State) (p page q v : Nat) (pasid : Option Nat) : State :=
  let off := page * 4096 + 8 * q + 4
  let c := pageCheck s p page q pasid
  if c = 1 then s
  else if c ≠ 0 then rung (bellVio s c page off) p
  else
    let k := localKey s p page q
    match SMap.find s.hst.cqs k with
    | none => rung (bellVio s 3 page off) p
    | some x => if x.size ≤ v then rung (bellVio s 3 page off) p else rung (ringHead s k v) p

def execCqHeadDoorbell (p : Fin 4) (page q v : Nat) (pasid : Option Nat) (s : State) : Out := .next (cqBell s p.val page q v pasid)

/-! ### Fetching (R136–R138, R179, R265) -/

/-- A queue holds an entry that can be fetched. -/
def sqHas (q : Sq) : Bool := q.head != q.tail && q.del.isNone

/-- The port fetches: its controller is enabled, not shutting down, not carded, and the power-fail signal is not given (R54, R88,
R142). -/
def portFetches (s : State) (p : Nat) : Bool :=
  let x := portGet s p
  portReady s p && x.en && !x.shn && s.bot.run && !s.hst.stop && !pfail s && !carded s (midPort p)

/-- The slice's entries are fetched: ACTIVE, not carded, below its cap in this epoch, its class not held back, and its account not
waiting for a buffer on its own LIMIT (R88, R162, R179, R374, R380). -/
def sliceFetches (s : State) (n : Nat) : Bool :=
  match SMap.find s.slm.slices n with
  | some x => !x.resetting && !carded s (midSlice n) && (x.shares.cap == 0 || decide (x.bytes < x.shares.cap * 64000)) &&
      (x.iso || !(bpActive s).testBit x.shares.lat) && !(s.bpm.waits.any fun w => w.quota && w.acct == n)
  | none => false

/-- The contexts that a port's admin and I/O commands hold from its reservation, and those held from the surplus. -/
def heldAdmin (s : State) (p : Nat) : Nat := SMap.cnt s.hst.ctx fun _ c => c.port == p && c.qid == 0 && !c.surplus
def heldIo (s : State) (p : Nat) : Nat := SMap.cnt s.hst.ctx fun _ c => c.port == p && c.qid != 0 && !c.surplus
def heldSurplus (s : State) : Nat := SMap.cnt s.hst.ctx fun _ c => c.surplus

def ctxReserve (s : State) (p : Nat) : Nat := fget s (Fld.QEN_CTX_RESERVE_RESERVE p)

/-- The shared surplus: contexts that no present port has reserved. -/
def ctxSurplus (s : State) : Nat :=
  262144 - ((List.range 4).filter (portThere s)).foldl (fun n p => n + ctxReserve s p) 0

/-- The contexts that the ports hold beyond reservations written since. -/
def heldOver (s : State) : Nat := ((List.range 4).map fun p => heldAdmin s p + heldIo s p - ctxReserve s p).sum

/-- Where a context comes from: the reservation (false), the surplus (true), or nowhere (R136, R137). -/
def ctxTake (s : State) (p : Nat) (admin : Bool) : Option Bool :=
  let a := heldAdmin s p
  if admin ∧ a < 64 then some false
  else if heldIo s p + (a - 64) + 64 < ctxReserve s p then some false
  else if heldSurplus s + heldOver s < ctxSurplus s then some true
  else none

/-- Slices with an entry on the port that can be fetched. -/
def turnSlices (s : State) (p : Nat) : List Nat :=
  (portSlices s p).filter fun n => sliceFetches s n && s.hst.sqs.any fun e => e.1 / 65536 == p && sqHas e.2 && queueSlice s e.1 == some n

def turnGet (s : State) (p : Nat) : Turn := SMap.getD s.hst.turns p { slice := 0, left := 0, used := [], last := [] }

def weightOf (s : State) (n : Nat) : Nat := match SMap.find s.slm.slices n with | some x => x.shares.weight | none => 0

/-- The queue that follows the last one served among a slice's queues with entries (R138 step 3). -/
def nextQueue (s : State) (p n last : Nat) : Option Nat :=
  let qs := (s.hst.sqs.filter fun e => e.1 / 65536 == p && sqHas e.2 && queueSlice s e.1 == some n).map fun e => e.1 % 65536
  match qs.find? fun q => decide (last < q) with
  | some q => some q
  | none => qs.head?

/-- The turn under which a fetch from queue `q` of slice `n` runs: the running turn, or a new one. In a round each slice with entries
has at most BW_WEIGHT turns; a slice without entries passes (R138, R179). -/
def turnFor (s : State) (p n q : Nat) : Option Turn :=
  let t := turnGet s p
  let ok := turnSlices s p
  let same := decide (0 < t.left) && t.slice == n
  let last := SMap.getD t.last n 0
  if nextQueue s p n last ≠ some q ∧ !(same && last == q) then none
  else if same then some t
  else if 0 < t.left ∧ ok.contains t.slice then none
  else
    let spent := fun (m : Nat) => decide (weightOf s m ≤ SMap.getD t.used m 0)
    let ab := (portGet s p).feat.ab % 8
    let left := if ab = 7 then 64 else 2 ^ ab
    if !spent n then some { t with slice := n, left := left, used := SMap.put t.used n (SMap.getD t.used n 0 + 1) }
    else if ok.all spent then some { t with slice := n, left := left, used := [(n, 1)] }
    else none

/-- The arrival stamp of a queue's next entry, and the stamps that remain (R265). -/
def stampOf (q : Sq) (t : Nat) : Nat × List (Nat × Nat) :=
  match q.stamps with
  | [] => (t, [])
  | (v, a) :: rest => (a, if (q.head + 1) % q.size = v then rest else (v, a) :: rest)

/-- The deadline of a class's reads (R265). -/
def readDeadline (s : State) (arrived lat : Nat) : Nat := arrived + fget s (Fld.DSC_CLASS_READ_READ_US lat) * 1000

/-- Takes the entry at the head of a queue into a new context. -/
def fetchInto (s : State) (p q cid opc nsid slba : Nat) (sq : Sq) (surplus : Bool) : State :=
  let k := qKey p q
  let st := stampOf sq (now s)
  let slice := if q = 0 then none else queueSlice s k
  let lat := match slice with
    | some n => (match SMap.find s.slm.slices n with | some x => x.shares.lat | none => 0)
    | none => 0
  let c : Ctx := { port := p, qid := q, cid := cid, opcode := opc, slice := slice, surplus := surplus, st := .fetched, arrived := st.1,
                   lat := lat, deadline := readDeadline s st.1 lat, range := none, units := [], nsid := nsid, inst := 0, aer := false,
                   out := [], slba := slba, order := s.hst.fetched,
                   pasid := match slice with | some n => (SMap.find s.slm.slices n).map (·.pasid) | none => none }
  let s := sqUpd s k fun x => { x with head := (x.head + 1) % x.size, stamps := st.2 }
  psRefresh (ctxShow (busyNote { s with hst := { s.hst with ctx := SMap.put s.hst.ctx (ctxKey p q cid) c, fetched := s.hst.fetched + 1 } }
    slice))

/-- Fetches one entry of a queue: the admin queue first, then a slice in its turn (R137, R138); `slba` is its dwords 10 and 11. -/
def sqeFetch (s : State) (p q cid opc nsid slba : Nat) : State :=
  match SMap.find s.hst.sqs (qKey p q) with
  | none => s
  | some sq =>
    if !portFetches s p || !sqHas sq || decide (65536 ≤ cid) || decide (65536 ≤ q) || (SMap.find s.hst.ctx (ctxKey p q cid)).isSome then s
    else if q = 0 then
      match ctxTake s p true with
      | some d => fetchInto (psRefresh (psWake s p)) p q cid opc nsid slba sq d
      | none => s
    else
      let adminWaits := (match SMap.find s.hst.sqs (qKey p 0) with | some a => sqHas a | none => false) && (ctxTake s p true).isSome
      if adminWaits then s
      else
        match queueSlice s (qKey p q), ctxTake s p false with
        | some n, some d =>
          if !sliceFetches s n then s
          else
            match turnFor s p n q with
            | some t =>
              let t := { t with left := t.left - 1, last := SMap.put t.last n q }
              fetchInto { s with hst := { s.hst with turns := SMap.put s.hst.turns p t } } p q cid opc nsid slba sq d
            | none => s
        | _, _ => s

def execSqeFetch (p : Fin 4) (q cid opc nsid slba : Nat) (s : State) : Out := .next (sqeFetch s p.val q cid opc nsid slba)

/-! ### Completions (R140, R141, R146, R160) -/

/-- The completion queue that a context's completion goes to. -/
def cqOf (s : State) (c : Ctx) : Nat :=
  match SMap.find s.hst.sqs (qKey c.port c.qid) with
  | some q => qKey c.port q.cq
  | none => qKey c.port 0

/-- Entries of a vector's queues that wait for a coalesced message. -/
def coalSum (s : State) (p v : Nat) : Nat :=
  s.hst.cqs.foldl (fun n e => if e.1 / 65536 = p ∧ e.2.vector = v then n + e.2.coal else n) 0

/-- The vector's message is sent; nothing waits for it any more. -/
def vectorSend (s : State) (p v : Nat) : State :=
  let cqs := SMap.mapv s.hst.cqs fun k q => if k / 65536 = p ∧ q.vector = v then { q with coal := 0 } else q
  msixSend { s with hst := { s.hst with cqs := cqs } } p v

/-- The message of an entry just posted: at once, or gathered until the aggregation threshold is reached (R141); the admin queue's
messages are not gathered. -/
def msixFor (s : State) (k : Nat) (q : Cq) : State :=
  let p := k / 65536
  let f := (portGet s p).feat
  if 2048 ≤ q.vector then s
  else if k % 65536 = 0 ∨ f.coalTime = 0 ∨ f.noCoal.contains q.vector then vectorSend s p q.vector
  else
    let s := cqUpd s k fun q => { q with coal := q.coal + 1 }
    if f.coalThr + 1 ≤ coalSum s p q.vector then vectorSend s p q.vector else s

/-- What a command has moved to the host before its completion (R140). -/
def ctxData (c : Ctx) (st : Nat) : List Nat :=
  if c.qid ≠ 0 ∧ c.opcode = 2 then (if st = 0 then c.units.flatMap (·.blocks) else []) else c.out

/-- What the completion of a read counts: its latency, its data for its slice (R80, R174, R179, R289, R293). -/
def readCounts (s : State) (c : Ctx) (st : Nat) : State :=
  if c.qid = 0 ∨ c.opcode ≠ 2 then s
  else
    let s := countRead s c.lat c.arrived (c.units.countP fun k => k.late && (match k.loc with | .flash _ _ _ _ => true | _ => false))
    match SMap.find s.zne.ns c.nsid, c.slice with
    | some n, some sl =>
      if st = 0 then
        let b := (c.units.foldl (fun k u => k + u.n) 0) * duLen n
        sliceUpd s sl fun x => { x with duR := x.duR + (b + 511) / 512, cmdR := x.cmdR + 1, bytes := x.bytes + b }
      else s
    | _, _ => s

/-- The slice is RESETTING: no completion of its commands is posted (R180). -/
def sliceHalts (s : State) (slice : Option Nat) : Bool :=
  match slice with
  | some n => (match SMap.find s.slm.slices n with | some x => x.resetting | none => false)
  | none => false

/-- Host DMA of a command carries the PASID that its context was given; one that its slice is not bound to is a violation of the port
(R86, R164). -/
def pasidStray (s : State) (c : Ctx) : Bool :=
  match c.slice with
  | some n => (match SMap.find s.slm.slices n with | some x => c.pasid != some x.pasid | none => false)
  | none => false

/-- Posts the completion of a context that has ended: its queue must have room. A completion that cannot be posted while its
submission queue is deleted is discarded (R146). -/
def completionPost (s : State) (x : Nat) : State :=
  match SMap.find s.hst.ctx x with
  | none => s
  | some c =>
    match c.st with
    | .ready st dw0 dw1 =>
      let k := cqOf s c
      match SMap.find s.hst.cqs k with
      | none => s
      | some q =>
        if !linkUp s c.port || sliceHalts s c.slice then s
        else if pasidStray s c then raiseVio s 2 0 (midPort c.port) 0
        else if q.posted.length + 1 < q.size then
          let e : Cqe := { sqid := c.qid, cid := c.cid, status := st, dw0 := dw0, dw1 := dw1, data := ctxData c st, pasid := c.pasid }
          let s := cqUpd s k fun q => { q with posted := q.posted ++ [e] }
          let s := readCounts s c st
          let s := { s with hst := { s.hst with diag := { s.hst.diag with hostCmds := sat 64 (s.hst.diag.hostCmds + 1) } } }
          ctxFree (msixFor s k q) x
        else if (match SMap.find s.hst.sqs (qKey c.port c.qid) with | some sq => sq.del.isSome | none => false) then ctxFree s x
        else s
    | _ => s

def execCompletionPost (x : Nat) (s : State) : Out := .next (completionPost s x)

/-- The aggregation time of a vector runs out (R141). -/
def execInterruptCoalescingTimeout (p : Fin 4) (v : Nat) (s : State) : Out :=
  .next (if v < 2048 ∧ coalSum s p.val v ≠ 0 then vectorSend s p.val v else s)

/-! ### Admin commands in general -/

/-- Bits of a command dword. -/
def cdw (w : Word) (lo n : Nat) : Nat := bits w.toNat lo n

def SC_LOG_PAGE : Nat := 0x109
def SC_CQ_INVALID : Nat := 0x100
def SC_QID : Nat := 0x101
def SC_QSIZE : Nat := 0x102
def SC_ABORT_LIMIT : Nat := 0x103
def SC_AER_LIMIT : Nat := 0x105
def SC_FW_SLOT : Nat := 0x106
def SC_FW_IMAGE : Nat := 0x107
def SC_VECTOR : Nat := 0x108
def SC_Q_DELETION : Nat := 0x10C
def SC_FW_RESET : Nat := 0x10B
def SC_FW_PROHIBITED : Nat := 0x113
def SC_DST_BUSY : Nat := 0x11D
def SC_SEQUENCE : Nat := 0x00C

/-- Carries out an admin command whose entry has been fetched with one of the opcodes `op`; it ends as `f` gives: a status, the
two result dwords and the data moved, or nothing while it goes on. -/
structure Done where
  status : Nat
  dw0    : Nat
  dw1    : Nat
  out    : List Byte
deriving DecidableEq, Repr

def dOk : Done := { status := 0, dw0 := 0, dw1 := 0, out := [] }
def dSt (st : Nat) : Done := { dOk with status := st }
def dData (b : List Byte) : Done := { dOk with out := b }

/-- The command's own context. -/
def adminKey (c : AdminCmd) : Nat := ctxKey c.port.val 0 c.cid

/-- Ends an admin command; one that fails enters the port's Error Information log. -/
def adminEnd (s : State) (x : Nat) (d : Done) : State :=
  if d.status = 0 then ctxUpd (ctxEnd s x 0 d.dw0 d.dw1) x fun k => { k with out := d.out.map (·.toNat) }
  else
    match SMap.find s.hst.ctx x with
    | some k => errLog (ctxEnd s x d.status d.dw0 d.dw1) k.port { sqid := k.qid, cid := k.cid, status := d.status, lba := 0, nsid := k.nsid }
    | none => s

def adminRun (s : State) (c : AdminCmd) (op : Nat → Bool) (f : State → Option Done × State) : State :=
  let x := adminKey c
  match SMap.find s.hst.ctx x with
  | some k =>
    if k.st == .fetched && op k.opcode && s.bot.run then
      match f (ctxUpd s x fun k => { k with st := .running }) with
      | (some d, s) => adminEnd s x d
      | (none, s) => s
    else s
  | none => s

/-- An admin command that changes nothing but its own completion. -/
def adminRead (s : State) (c : AdminCmd) (opc : Nat) (f : State → Done) : State :=
  adminRun s c (· == opc) fun s => (some (f s), s)

/-! ### Creating and deleting queues (R134, R135, R145–R147, R169) -/

/-- The slice that holds the slot of a queue identifier on a port; identifiers below 64 and of slots not held name none (R166). -/
def qidSlice (s : State) (p qid : Nat) : Option (Nat × Slice) :=
  if qid < 64 then none else s.slm.slices.find? fun e => SMap.find e.2.slots p == some (qid / 64)

/-- The local index is in use for a queue type on a port of the slice. -/
def localUsed {α : Type} (x : Slice) (m : SMap α) (q : Nat) : Bool := x.slots.any fun b => (SMap.find m (qKey b.1 (64 * b.2 + q))).isSome

/-- Steps 1 to 4 of R169 for a table of queues. -/
def queueCheck {α : Type} (s : State) (m : SMap α) (p qid : Nat) : Nat :=
  match qidSlice s p qid with
  | none => SC_QID
  | some (n, x) =>
    if x.resetting || carded s (midSlice n) then SC_SEQUENCE
    else if localUsed x m (qid % 64) then SC_QID
    else if 64 ≤ SMap.cnt m (fun k _ => queueIn x k) ∨ 4096 ≤ ioCount m then SC_QID
    else 0

/-- The queue's memory lies in the slice's window (step 7). -/
def queueMem (s : State) (p qid base bytes : Nat) : Bool :=
  match qidSlice s p qid with
  | some (_, x) => decide (x.dmaBase ≤ base ∧ base + bytes ≤ x.dmaLimit + 1)
  | none => false

/-- Create I/O Completion Queue (R169). Between steps 6 and 7 a queue of one entry ends with Invalid Queue Size; PC clear ends as step 7;
the vector is checked whatever IEN says (DESIGN CHOICE, notes/assumptions/56.md). -/
def createCq (c : AdminCmd) (s : State) : Done × State :=
  let p := c.port.val
  let qid := cdw c.cdw10 0 16
  let size := cdw c.cdw10 16 16 + 1
  let v := cdw c.cdw11 16 16
  let st := queueCheck s s.hst.cqs p qid
  if st ≠ 0 then (dSt st, s)
  else if 2039 < v then (dSt SC_VECTOR, s)
  else if size < 2 then (dSt SC_QSIZE, s)
  else if !bit c.cdw11.toNat 0 || !queueMem s p qid c.prp1 (16 * size) then (dSt SC_INVALID_FIELD, s)
  else
    let q : Cq := { size := size, vector := if bit c.cdw11.toNat 1 then v else 2048, posted := [], head := 0, coal := 0 }
    (dOk, slmShow { s with hst := { s.hst with cqs := SMap.put s.hst.cqs (qKey p qid) q } })

def execCreateIoCq (c : AdminCmd) (s : State) : Out :=
  .next (adminRun s c (· == 5) fun s => let r := createCq c s; (some r.1, r.2))

/-- CQID names a completion queue of the same slice on the port (step 5). -/
def cqidOk (s : State) (p qid cqid : Nat) : Bool :=
  (SMap.find s.hst.cqs (qKey p cqid)).isSome && cqid / 64 == qid / 64

/-- Create I/O Submission Queue (R169); sizes and PC as above. -/
def createSq (c : AdminCmd) (s : State) : Done × State :=
  let p := c.port.val
  let qid := cdw c.cdw10 0 16
  let size := cdw c.cdw10 16 16 + 1
  let cqid := cdw c.cdw11 16 16
  let st := queueCheck s s.hst.sqs p qid
  if st ≠ 0 then (dSt st, s)
  else if !cqidOk s p qid cqid then (dSt SC_CQ_INVALID, s)
  else if size < 2 then (dSt SC_QSIZE, s)
  else if !bit c.cdw11.toNat 0 || !queueMem s p qid c.prp1 (64 * size) then (dSt SC_INVALID_FIELD, s)
  else
    let q : Sq := { size := size, head := 0, tail := 0, cq := cqid, stamps := [], del := none }
    (dOk, slmShow { s with hst := { s.hst with sqs := SMap.put s.hst.sqs (qKey p qid) q } })

def execCreateIoSq (c : AdminCmd) (s : State) : Out :=
  .next (adminRun s c (· == 1) fun s => let r := createSq c s; (some r.1, r.2))

/-- Steps 1 to 4 of R145; while the queue's slice is RESETTING the reset removes the queue (R182). -/
def deleteSq (c : AdminCmd) (s : State) : Option Done × State :=
  let p := c.port.val
  let qid := cdw c.cdw10 0 16
  let k := qKey p qid
  match SMap.find s.hst.sqs k with
  | none => (some (dSt SC_QID), s)
  | some q =>
    if qid = 0 ∨ q.del.isSome then (some (dSt SC_QID), s)
    else
      let x := adminKey c
      let s := sqUpd s k fun q => { q with del := some x, head := q.tail, stamps := [] }
      let halted := match qidSlice s p qid with | some (_, y) => y.resetting | none => false
      if halted then (none, psRefresh s)
      else (none, psRefresh (ctxFlush s (fun y => y.port == p && y.qid == qid) SC_SQ_DELETED))

def execDeleteIoSq (c : AdminCmd) (s : State) : Out := .next (adminRun s c (· == 0) fun s => deleteSq c s)

/-- Step 5 of R145: every completion of the queue has been written or discarded. A slice reset that runs removes the queue itself (R182). -/
def sqGone (s : State) (p q : Nat) : State :=
  let k := qKey p q
  match SMap.find s.hst.sqs k with
  | none => s
  | some sq =>
    match sq.del with
    | none => s
    | some x =>
      let halted := match qidSlice s p q with | some (_, y) => y.resetting | none => false
      if halted || s.hst.ctx.any fun e => e.2.port == p && e.2.qid == q then s
      else slmShow (adminEnd { s with hst := { s.hst with sqs := SMap.del s.hst.sqs k } } x dOk)

def execSqDeletionDone (p : Fin 4) (q : Nat) (s : State) : Out := .next (sqGone s p.val q)

def deleteCq (c : AdminCmd) (s : State) : Done × State :=
  let p := c.port.val
  let qid := cdw c.cdw10 0 16
  if qid = 0 ∨ (SMap.find s.hst.cqs (qKey p qid)).isNone then (dSt SC_QID, s)
  else if s.hst.sqs.any fun e => e.1 / 65536 == p && e.1 % 65536 != 0 && e.2.cq == qid then (dSt SC_Q_DELETION, s)
  else (dOk, slmShow { s with hst := { s.hst with cqs := SMap.del s.hst.cqs (qKey p qid) } })

def execDeleteIoCq (c : AdminCmd) (s : State) : Out :=
  .next (adminRun s c (· == 4) fun s => let r := deleteCq c s; (some r.1, r.2))

end Sys2Proof.Machine
end

