-- ==== Sys2Proof/Machine/Admin.lean ====
section
/-! DEFINITION. The admin commands: Identify, logs, features, events, in-band update, self-tests (R80, R129–R135, R143, R148, R149,
R154–R160, R168, R173, R193, R544–R548, R589, R608). -/
namespace Sys2Proof.Machine
open Sys2Proof

/-! ### Identify (R129, R130, R148, R189, R193, R548, R608) -/

/-- Puts fields into a structure, each at its offset; what no field covers is as it was. -/
def putFields (b : List Byte) (l : List (Nat × List Byte)) : List Byte := l.foldl (fun b e => winPut b e.1 e.2) b

/-- A structure of `n` bytes of which the spec states only some: the others are an open value. -/
def openBytes (s : State) (n : Nat) : List Byte := le n (openVal s)

/-- Maximum Power of a power state in 0.01 W (R148). -/
def psPower (s : State) (k : Nat) : Nat :=
  let w := fget s Fld.UMP_BUDGET_IN_FORCE_W
  match k with
  | 0 => w * 100
  | 1 => w * 70
  | 2 => w * 50
  | 3 => u16 (setGet s 3) 0
  | _ => u16 (setGet s 3) 2

/-- A power state descriptor: Maximum Power, non-operational flag, entry and exit latency in µs (R148). A budget above 655.35 W does not
fit the 16-bit Maximum Power field in 0.01 W, and no rule says what the field reads then: it is open (DESIGN CHOICE,
notes/assumptions/70.md). -/
def psDesc (s : State) (k : Nat) : List (Nat × List Byte) :=
  let o := 2048 + 32 * k
  let lat := if k = 3 then (50000, 2000) else if k = 4 then (60000, 25000) else (0, 0)
  (if psPower s k < 65536 then [(o, le 2 (psPower s k))] else []) ++
  [(o + 3, le 1 (if 3 ≤ k then 2 else 0)), (o + 4, le 4 lat.1 ++ le 4 lat.2)]

/-- The Identify Controller structure of a port. -/
def idController (s : State) (p : Nat) : List Byte :=
  let ports := (List.range 4).countP fun k => portThere s k
  putFields (openBytes s 4096)
    ([(76, le 1 (if 1 < ports then 3 else 0)), (77, le 1 6), (78, le 2 (p + 1)), (84, le 4 500000), (88, le 4 100000), (256, le 2 0x14),
      (258, le 1 3), (259, le 1 7), (260, le 1 0x04), (263, le 1 4), (265, le 1 1), (266, le 2 (wcTemp s)),
      (268, le 2 (fget s Fld.TSN_TRIP_TRIP_C + 273)), (316, le 2 90), (318, le 1 1), (320, le 2 0), (512, le 1 0x66), (513, le 1 0x44),
      (520, le 2 0x04), (525, le 1 0), (536, le 4 1)] ++ (List.range 5).flatMap (psDesc s))

/-- The namespaces that a port reports: those of the slices bound to it (R80, R170), in ascending identifier. -/
def portNs (s : State) (p : Nat) : SMap Ns := SMap.keep s.zne.ns fun _ n => (portSlices s p).contains n.slice

/-- LBAs of a namespace, and those in use. -/
def nsLbas (n : Ns) : Nat := if n.zoned then zoneCount n * zoneLbas n else n.cap * lbasPerUnit n

def nsUsed (s : State) (n : Ns) : Nat :=
  if n.zoned then
    (s.zne.zones.filter fun e => decide (n.base ≤ e.1 ∧ e.1 < n.base + zoneCount n) && e.2.st != 1).foldl (fun k e => k + e.2.wp) 0
  else SMap.cnt s.zne.conv (fun k v => decide (n.base ≤ k ∧ k < n.base + n.cap) && v.loc != .zero) * lbasPerUnit n

/-- The slice of a namespace is bound to two ports. -/
def dualPath (s : State) (n : Ns) : Bool :=
  match SMap.find s.slm.slices n.slice with | some x => decide (1 < x.slots.length) | none => false

/-- The Identify Namespace structure. -/
def idNamespace (s : State) (n : Ns) : List Byte :=
  putFields (openBytes s 4096)
    ([(0, le 8 (nsLbas n) ++ le 8 (nsLbas n) ++ le 8 (nsUsed s n)), (25, le 1 (b2n n.zoned)), (26, le 1 n.lbaf), (27, zeros 3),
      (30, le 1 (b2n (dualPath s n))), (128, zeros 2 ++ le 1 12), (132, zeros 2 ++ le 1 9)] ++ (if n.zoned then [] else [(33, le 1 1)]))

/-- The Zoned Namespace structure (R193). -/
def idZoned (s : State) (n : Ns) : List Byte :=
  let mar := if n.maxAct = 0 then 0xFFFF else n.maxAct - 1
  let mor := if n.maxOpen = 0 then mar else n.maxOpen - 1
  putFields (openBytes s 4096)
    [(0, le 2 1 ++ le 2 1 ++ le 4 mar ++ le 4 mor ++ zeros 32), (2816, le 8 (zoneUnits n) ++ le 1 0), (2832, le 8 (zoneUnits n * 8) ++ le 1 0)]

/-- A list of namespace identifiers above `from`, at most 1,024, in 4,096 bytes. -/
def nsList (m : SMap Ns) (above : Nat) : List Byte :=
  fit 4096 (((m.filter fun e => decide (above < e.1)).take 1024).flatMap fun e => le 4 e.1)

/-- IDENTIFY, by CNS and command set identifier; a namespace of no slice bound to the port does not exist for it (R78). -/
def identify (c : AdminCmd) (s : State) : Done × State :=
  let p := c.port.val
  let csi := cdw c.cdw11 24 8
  let ns := SMap.find (portNs s p) c.nsid
  match cdw c.cdw10 0 8 with
  | 0 => (match ns with | some n => (dData (idNamespace s n), openTaken s) | none => (dSt SC_INVALID_NS, s))
  | 1 => (dData (idController s p), openTaken s)
  | 2 => (dData (nsList (portNs s p) c.nsid), s)
  | 5 =>
    match ns with
    | none => (dSt SC_INVALID_NS, s)
    | some n =>
      if csi = 2 ∧ n.zoned then (dData (idZoned s n), openTaken s)
      else if csi = 0 then (dData (openBytes s 4096), openTaken s)
      else (dSt SC_INVALID_FIELD, s)
  | 6 =>
    if csi = 2 then (dData (putFields (openBytes s 4096) [(0, le 1 0)]), openTaken s)
    else if csi = 0 then (dData (openBytes s 4096), openTaken s)
    else (dSt SC_INVALID_FIELD, s)
  | 7 =>
    if csi = 0 ∨ csi = 2 then (dData (nsList (SMap.keep (portNs s p) fun _ n => n.zoned == (csi == 2)) c.nsid), s)
    else (dSt SC_INVALID_FIELD, s)
  | _ => (dSt SC_INVALID_FIELD, s)

def execIdentify (c : AdminCmd) (s : State) : Out :=
  .next (adminRun s c (· == 6) fun s => let r := identify c s; (some r.1, r.2))

/-! ### Abort and asynchronous events (R130, R143, R173) -/

/-- Abort commands outstanding on a port that were not themselves in excess, this one aside. -/
def abortsOut (s : State) (p x : Nat) : Nat :=
  SMap.cnt s.hst.ctx fun k c => k != x && c.port == p && c.qid == 0 && c.opcode == 8 &&
    (match c.st with | .ready st _ _ => st == 0 | .running => true | .fetched => false)

/-- ABORT ends no command (R143). -/
def execAbort (c : AdminCmd) (s : State) : Out :=
  .next (adminRead s c 8 fun s =>
    if 4 ≤ abortsOut s c.port.val (adminKey c) then dSt SC_ABORT_LIMIT else { dOk with dw0 := 1 })

/-- ASYNC_EVENT_REQUEST: an event that waits completes it at once; otherwise it is held, at most 8 on a port (R130). -/
def asyncRequest (c : AdminCmd) (s : State) : Option Done × State :=
  let p := c.port.val
  let x := portGet s p
  if 8 ≤ x.aers.length then (some (dSt SC_AER_LIMIT), s)
  else
    match x.events with
    | e :: rest => (some { dOk with dw0 := e }, portUpd s p fun x => { x with events := rest })
    | [] =>
      (none, psRefresh (ctxUpd (portUpd s p fun x => { x with aers := x.aers ++ [c.cid] }) (adminKey c) fun k => { k with aer := true }))

def execAsyncEventRequest (c : AdminCmd) (s : State) : Out := .next (adminRun s c (· == 0x0C) fun s => asyncRequest c s)

/-! ### Logs (R80, R159, R168, R548, R589) -/

/-- The part of a log that the command asks for: its length in dwords, 0's based, and its offset. -/
def logDone (c : AdminCmd) (log : List Byte) : Done :=
  let len := 4 * (cdw c.cdw10 16 16 + 65536 * cdw c.cdw11 0 16 + 1)
  let off := c.cdw12.toNat + 4294967296 * c.cdw13.toNat
  if 262144 < len ∨ log.length < off then dSt SC_INVALID_FIELD else dData (fit len ((log.drop off).take len))

def logRun (s : State) (c : AdminCmd) (f : State → List Byte × State) : State :=
  adminRun s c (· == 2) fun s => let r := f s; (some (logDone c r.1), r.2)

/-- A sum over the slices bound to a port (R80). -/
def portSum (s : State) (p : Nat) (f : Slice → Nat) : Nat :=
  s.slm.slices.foldl (fun n e => if (SMap.find e.2.slots p).isSome then n + f e.2 else n) 0

/-- The time in which a slice has had a command outstanding (R80). -/
def busyNs (t : Nat) (x : Slice) : Nat := x.busy + (match x.busyAt with | some a => t - a | none => 0)

/-- The SMART / Health log of a port; data units are counted in thousands of 512 bytes, busy time in minutes. -/
def smartLog (s : State) (p : Nat) : List Byte :=
  putFields (openBytes s 512)
    [(0, le 1 (critWarn s p) ++ le 2 (fget s Fld.TSN_COMPOSITE_KELVIN) ++ le 1 (fget s Fld.LDC_MED_SPARE_AVAIL_PCT) ++
        le 1 (fget s Fld.LDC_MED_SPARE_WARN_PCT) ++ le 1 (fget s Fld.LDC_MED_SPARE_PCT_USED)),
     (32, le 16 ((portSum s p (·.duR) + 999) / 1000) ++ le 16 ((portSum s p (·.duW) + 999) / 1000) ++ le 16 (portSum s p (·.cmdR)) ++
        le 16 (portSum s p (·.cmdW)) ++ le 16 (portSum s p (busyNs (now s)) / 60000000000))]

def execGetLogSmart (c : AdminCmd) (s : State) : Out :=
  .next (logRun s c fun s => (smartLog s c.port.val, openTaken s))

/-- One Error Information entry; `n` is its number in the order of entries. -/
def errBytes (s : State) (n : Nat) (e : ErrEntry) : List Byte :=
  putFields (openBytes s 64)
    [(0, le 8 n ++ le 2 e.sqid ++ le 2 e.cid ++ le 2 (2 * e.status)), (16, le 8 e.lba ++ le 4 e.nsid)]

def errInfoLog (s : State) (p : Nat) : List Byte :=
  let x := portGet s p
  fit 4096 ((x.errs.zip (List.range 64)).flatMap fun e => errBytes s (x.errCnt - e.2) e.1)

def execGetLogErrorInfo (c : AdminCmd) (s : State) : Out :=
  .next (logRun s c fun s => (errInfoLog s c.port.val, openTaken s))

/-- The Firmware Slot Information log: slot 1 is A, slot 2 is B (R548). -/
def fwSlotLog (s : State) : List Byte :=
  let run := match runningSlot s with | some k => k + 1 | none => 0
  let pend := if s.bot.bcr.pending < 2 then s.bot.bcr.pending + 1 else 0
  let rev := fun (k : Nat) => if slotValid s k then openBytes s 8 else zeros 8
  fit 512 (le 1 (run + 16 * pend) ++ zeros 7 ++ rev 0 ++ rev 1)

def execGetLogFirmwareSlot (c : AdminCmd) (s : State) : Out := .next (logRun s c fun s => (fwSlotLog s, openTaken s))

/-- One self-test result; the namespace and LBA are valid only for a namespace of a slice bound to the port (R159). -/
def dstBytes (s : State) (p : Nat) (r : DstResult) : List Byte :=
  let mine := (SMap.find (portNs s p) r.nsid).isSome
  le 1 (r.code % 16 + 16 * (if r.extended then 2 else 1)) ++ le 1 r.segment ++ le 1 (if mine then 3 else 0) ++ zeros 1 ++ openBytes s 8 ++
  (if mine then le 4 r.nsid ++ le 8 r.lba else zeros 12) ++ zeros 4

/-- The Device Self-test log: the test in progress and the last 20 results; an entry not used has result Fh. -/
def selfTestLog (s : State) (p pct : Nat) : List Byte :=
  let free := le 1 0x0F ++ zeros 27
  le 1 s.hst.dst.st ++ le 1 pct ++ zeros 2 ++ (s.hst.dst.results.flatMap (dstBytes s p)) ++
  (List.replicate (20 - s.hst.dst.results.length) free).flatten

def execGetLogSelfTest (c : AdminCmd) (s : State) : Out :=
  .next (logRun s c fun s => let d := dstPercent s; (selfTestLog s c.port.val d.1, openTaken d.2))

/-- The header of the telemetry log (R589): last blocks 1, 1,025 and 1,025, the Data Generation Number, no controller-initiated
data, a reason identifier of zeros. -/
def telHeader (s : State) (p : Nat) : List Byte :=
  putFields (zeros 512) [(0, le 1 7), (5, openBytes s 3), (8, le 2 1 ++ le 2 1025 ++ le 2 1025), (381, le 1 (portGet s p).telGen)]

/-- Data areas 1 and 2 as they stand now. -/
def telCapture (s : State) : List Byte :=
  let all := lktAll s.lkt
  let got := all.drop (all.length - 16384)
  fit 512 (diagPay s ++ locketInfoPay s) ++ zeros (32 * (16384 - got.length)) ++ got.flatMap fun e => recBytes e.1 true

def telLog (s : State) (p : Nat) : List Byte :=
  telHeader s p ++ (match (portGet s p).tel with | some b => b | none => zeros 524800)

def execGetLogTelemetryCapture (c : AdminCmd) (s : State) : Out :=
  .next (logRun s c fun s =>
    let b := telCapture s
    let s := portUpd s c.port.val fun x => { x with tel := some b, telGen := (x.telGen + 1) % 256 }
    (telLog s c.port.val, openTaken s))

def execGetLogTelemetryRead (c : AdminCmd) (s : State) : Out := .next (logRun s c fun s => (telLog s c.port.val, openTaken s))

/-- An entry of the slice binding log (R168). -/
def bindEntry (s : State) (p : Nat) (e : Nat × Slice) : List Byte :=
  let x := e.2
  let t := SMap.getD x.slots p 0
  let on := fun (k : Nat) => k / 65536 == p && k % 65536 / 64 == t
  le 2 e.1 ++ le 2 t ++ le 1 (SMap.cnt s.hst.sqs fun k _ => on k) ++ le 1 (SMap.cnt s.hst.cqs fun k _ => on k) ++ le 1 x.shares.lat ++
  le 1 (b2n x.iso + 2 * b2n (decide (1 < x.slots.length)) + 4 * b2n (carded s (midSlice e.1)) + 8 * b2n x.resetting) ++
  le 4 x.pasid ++ le 2 (sliceNs s e.1).length ++ zeros 2

/-- The slice binding log: the slices bound to the port and no others (R168). -/
def bindLog (s : State) (p : Nat) : List Byte :=
  let l := s.slm.slices.filter fun e => (SMap.find e.2.slots p).isSome
  le 2 l.length ++ le 2 p ++ zeros 12 ++ l.flatMap (bindEntry s p)

def execGetLogSliceBinding (c : AdminCmd) (s : State) : Out := .next (logRun s c fun s => (bindLog s c.port.val, s))

/-! ### Features (R131, R134, R138, R141, R148, R149, R154, R173, R608) -/

def featUpd (s : State) (p : Nat) (f : Feat → Feat) : State := portUpd s p fun x => { x with feat := f x.feat }

/-- The features that Set Features accepts (R131). -/
def featKnown (fid : Nat) : Bool := [0x01, 0x02, 0x04, 0x07, 0x08, 0x09, 0x0B, 0x0C].contains fid

/-- Set Features of feature `fid`. A command that names a feature outside R131's list ends with Invalid Field; one that names another
feature of the list is not this command. -/
def featRun (s : State) (c : AdminCmd) (fid : Nat) (f : State → Done × State) : State :=
  let k := cdw c.cdw10 0 8
  if k ≠ fid ∧ featKnown k then s
  else adminRun s c (· == 9) fun s => if k = fid then (let r := f s; (some r.1, r.2)) else (some (dSt SC_INVALID_FIELD), s)

def execSetFeaturesArbitration (c : AdminCmd) (s : State) : Out :=
  .next (featRun s c 0x01 fun s => (dOk, featUpd s c.port.val fun f => { f with ab := cdw c.cdw11 0 3 }))

/-- A port's requested state; an operational one is also its last operational request (R149). -/
def setPower (s : State) (p k : Nat) : State :=
  psRefresh (portUpd s p fun x => { x with reqPs := k, lastOp := if k ≤ 2 then k else x.lastOp })

def execSetFeaturesPowerManagement (c : AdminCmd) (s : State) : Out :=
  .next (featRun s c 0x02 fun s =>
    let k := cdw c.cdw11 0 5
    if 4 < k then (dSt SC_INVALID_FIELD, s) else (dOk, setPower s c.port.val k))

/-- The sensors that a threshold selector names: 0 composite, 1 to 8, or all. -/
def tempSel (w : Word) : Option (List Nat) :=
  let k := cdw w 16 4
  if k ≤ 8 then some [k] else if k = 15 then some (List.range 9) else none

def execSetFeaturesTemperatureThreshold (c : AdminCmd) (s : State) : Out :=
  .next (featRun s c 0x04 fun s =>
    let th := cdw c.cdw11 20 2
    match tempSel c.cdw11 with
    | some l =>
      if 1 < th then (dSt SC_INVALID_FIELD, s)
      else
        let v := cdw c.cdw11 0 16
        (dOk, tempEvents s (featUpd s c.port.val fun f =>
          { f with tmpTh := l.foldl (fun m k => SMap.put m (k * 2 + th) v) f.tmpTh }))
    | none => (dSt SC_INVALID_FIELD, s))

/-- The I/O queues that the slices bound to a port may create (R134, R161). -/
def queuesMay (s : State) (p : Nat) : Nat := min 4096 (64 * (portSlices s p).length)

/-- Dword 0 of Number of Queues; with no slice bound the spec states no value. -/
def queuesDw (s : State) (p : Nat) : Nat × State :=
  let n := queuesMay s p
  if n = 0 then (openVal s % 4294967296, openTaken s) else ((n - 1) * 65537, s)

def execSetFeaturesNumberOfQueues (c : AdminCmd) (s : State) : Out :=
  .next (featRun s c 0x07 fun s => let q := queuesDw s c.port.val; ({ dOk with dw0 := q.1 }, q.2))

def execSetFeaturesInterruptCoalescing (c : AdminCmd) (s : State) : Out :=
  .next (featRun s c 0x08 fun s =>
    (dOk, featUpd s c.port.val fun f => { f with coalThr := cdw c.cdw11 0 8, coalTime := cdw c.cdw11 8 8 }))

def execSetFeaturesInterruptVectorCfg (c : AdminCmd) (s : State) : Out :=
  .next (featRun s c 0x09 fun s =>
    let v := cdw c.cdw11 0 16
    if 2047 < v then (dSt SC_INVALID_FIELD, s)
    else
      let off := bit c.cdw11.toNat 16
      (dOk, featUpd s c.port.val fun f => { f with noCoal := (if off then [v] else []) ++ f.noCoal.filter (· != v) }))

def execSetFeaturesAsyncEventConfig (c : AdminCmd) (s : State) : Out :=
  .next (featRun s c 0x0B fun s => (dOk, featUpd s c.port.val fun f => { f with aec := c.cdw11.toNat }))

/-- The autonomous transition table of the data: entry `k` gives the idle time in ms and the state to go to (R154). -/
def apstTable (b : List Byte) : List (Nat × Nat × Nat) :=
  (List.range 5).map fun k => let e := u64 b (8 * k); (k, e / 256 % 16777216, e / 8 % 32)

def execSetFeaturesApst (c : AdminCmd) (s : State) : Out :=
  .next (featRun s c 0x0C fun s =>
    let t := apstTable c.data
    if t.any fun e => decide (4 < e.2.2) then (dSt SC_INVALID_FIELD, s)
    else
      (dOk, featUpd s c.port.val fun f =>
        { f with apstOn := bit c.cdw11.toNat 0, apst := t.foldl (fun m e => SMap.put m e.1 e.2) [] }))

/-- The table as Get Features returns it. -/
def apstBytes (f : Feat) : List Byte :=
  fit 256 ((List.range 5).flatMap fun k => let e := SMap.getD f.apst k (0, 0); le 8 (e.2 * 8 + e.1 * 256))

/-- GET_FEATURES: the current value of a feature of R131. -/
def getFeatures (c : AdminCmd) (s : State) : Done × State :=
  let p := c.port.val
  let f := (portGet s p).feat
  let dw := fun (v : Nat) => (({ dOk with dw0 := v } : Done), s)
  match cdw c.cdw10 0 8 with
  | 0x01 => dw f.ab
  | 0x02 => dw (portGet s p).reqPs
  | 0x04 =>
    let k := cdw c.cdw11 16 4
    let th := cdw c.cdw11 20 2
    if 8 < k ∨ 1 < th then (dSt SC_INVALID_FIELD, s) else dw (tempTh s p k th + 65536 * k + 1048576 * th)
  | 0x07 => let q := queuesDw s p; ({ dOk with dw0 := q.1 }, q.2)
  | 0x08 => dw (f.coalThr + 256 * f.coalTime)
  | 0x09 =>
    let v := cdw c.cdw11 0 16
    if 2047 < v then (dSt SC_INVALID_FIELD, s) else dw (v + 65536 * b2n (f.noCoal.contains v))
  | 0x0B => dw f.aec
  | 0x0C => ({ dOk with dw0 := b2n f.apstOn, out := apstBytes f }, s)
  | _ => (dSt SC_INVALID_FIELD, s)

def execGetFeatures (c : AdminCmd) (s : State) : Out :=
  .next (adminRun s c (· == 0x0A) fun s => let r := getFeatures c s; (some r.1, r.2))

/-! ### In-band update (R80, R544, R548) -/

/-- A piece of an image; `o` is its offset in bytes. -/
def fwPiece (s : State) (p o : Nat) (b : List Byte) : Done × State :=
  let owner := 64 + p
  if !inband s then (dSt SC_INVALID_FIELD, s)
  else if dlBar s owner ≠ ST_OK then (dSt SC_SEQUENCE, s)
  else
    let old : List Byte := if o = 0 then [] else match s.bot.dl with | some d => d.bytes | none => []
    if o ≠ old.length ∨ 16777216 < o + b.length then (dSt SC_INVALID_FIELD, { s with bot := { s.bot with dl := none } })
    else
      let all := old ++ b
      if old.length < 512 ∧ 512 ≤ all.length then
        if slotBar s ≠ ST_OK then (dSt SC_INTERNAL, s)
        else (dOk, dlPut (slotPrepare s (inactiveSlot s) (u32 all 64)) owner all)
      else (dOk, dlPut s owner all)

def execFirmwareImageDownload (c : AdminCmd) (s : State) : Out :=
  .next (adminRun s c (· == 0x11) fun s =>
    let len := 4 * (c.cdw10.toNat + 1)
    if 262144 < len then (some (dSt SC_INVALID_FIELD), s)
    else let r := fwPiece s c.port.val (4 * c.cdw11.toNat) (fit len c.data); (some r.1, r.2))

/-- The completion that a status of R545 maps to (R548). -/
def fwStatus (st : Nat) : Nat :=
  if st = ST_OK then 0
  else if st = ST_FW_ROLLBACK then SC_FW_PROHIBITED
  else if st = ST_FW_SLOT then SC_FW_SLOT
  else if st = ST_FW_WRITING then SC_SEQUENCE
  else if st = ST_BROWNOUT ∨ st = ST_PW_BARRED then SC_INTERNAL
  else SC_FW_IMAGE

/-- Firmware Commit with an action of R545; FS 0 names the inactive slot, 1 slot A, 2 slot B. -/
def fwCommitRun (s : State) (c : AdminCmd) (act : Nat) : State :=
  adminRun s c (· == 0x10) fun s =>
    if !inband s then (some (dSt SC_INVALID_FIELD), s)
    else
      let fs := cdw c.cdw10 0 3
      let r := commit s (if fs = 0 then 0xFF else fs - 1) act false
      (some (dSt (fwStatus r.1)), r.2)

def execFirmwareCommitReplace (c : AdminCmd) (s : State) : Out := .next (fwCommitRun s c 0)
def execFirmwareCommitReplaceActivate (c : AdminCmd) (s : State) : Out := .next (fwCommitRun s c 1)
def execFirmwareCommitActivate (c : AdminCmd) (s : State) : Out := .next (fwCommitRun s c 2)

def execFirmwareCommitImmediate (c : AdminCmd) (s : State) : Out :=
  .next (adminRead s c 0x10 fun s => dSt (if inband s then SC_FW_RESET else SC_INVALID_FIELD))

/-! ### Device Self-test (R155–R158) -/

def dstRun (s : State) (c : AdminCmd) (st : Nat) : State :=
  adminRun s c (· == 0x14) fun s =>
    if s.hst.dst.st ≠ 0 then (some (dSt SC_DST_BUSY), s) else (some dOk, psRefresh (dstStart s st c.port.val))

def execDeviceSelfTestShort (c : AdminCmd) (s : State) : Out := .next (dstRun s c 1)
def execDeviceSelfTestExtended (c : AdminCmd) (s : State) : Out := .next (dstRun s c 2)

/-- Code Fh ends a test that the same port started; from any other it has no effect (R158). -/
def execDeviceSelfTestAbort (c : AdminCmd) (s : State) : Out :=
  .next (adminRun s c (· == 0x14) fun s =>
    (some dOk, if s.hst.dst.st ≠ 0 ∧ s.hst.dst.origin = c.port.val then psRefresh (dstAbort s 1) else s))

/-! ### Other opcodes -/

/-- The admin opcodes of R131. -/
def adminKnown (op : Nat) : Bool := [0x00, 0x01, 0x02, 0x04, 0x05, 0x06, 0x08, 0x09, 0x0A, 0x0C, 0x10, 0x11, 0x14].contains op

def execAdminInvalidOpcode (c : AdminCmd) (s : State) : Out :=
  .next (adminRun s c (fun op => !adminKnown op) fun s => (some (dSt SC_INVALID_OPCODE), s))

end Sys2Proof.Machine
end

