-- ==== Sys2Proof/Machine/HostIo.lean ====
section
/-! DEFINITION. The I/O commands: writes, appends, reads, Flush, Dataset Management, zone management (R132, R133, R139, R165, R171,
R193–R226, R235–R238, R297, R327). -/
namespace Sys2Proof.Machine
open Sys2Proof

/-! ### What every I/O command passes -/

def ioKey (c : IoCmd) : Nat := ctxKey c.port.val c.qid c.cid

/-- The I/O opcodes of R132. -/
def ioKnown (op : Nat) : Bool := [0x00, 0x01, 0x02, 0x09, 0x79, 0x7A, 0x7D].contains op

/-- What a check of a command finds: it goes on, it waits, it ends with a status, or it has violated its window. -/
inductive Chk where
  | go
  | wait
  | bad (st : Nat)
  | vio
deriving DecidableEq, Repr

/-- The engines that serve I/O are enabled (R327). -/
def ioEnabled (s : State) : Bool := fone s Fld.ZNE_CTRL_EN && fone s Fld.CMP_CTRL_EN && fone s Fld.PLC_CTRL_EN

/-- The namespace of a command: one of another slice does not exist for it (R78). -/
def ioNs (s : State) (k : Ctx) : Option Ns :=
  match SMap.find s.zne.ns k.nsid with
  | some n => if k.slice = some n.slice then some n else none
  | none => none

/-- The host range and the SGL of a command that moves `bytes` bytes (R130, R139, R165). The order of the checks: DESIGN CHOICE,
notes/assumptions/55.md. -/
def ptrCheck (s : State) (c : IoCmd) (slice bytes : Nat) : Chk :=
  if 262144 < bytes then .bad SC_INVALID_FIELD
  else if (match SMap.find s.slm.slices slice with | some x => decide (c.dmaLo < x.dmaBase ∨ x.dmaLimit < c.dmaHi) | none => true) then .vio
  else
    match c.ptr with
    | .prp => .go
    | .sgl ts sum =>
      if sum ≠ bytes then .bad SC_SGL_LENGTH
      else if 256 < ts.countP (· == 0) ∨ 16 < ts.countP (fun t => t == 2 || t == 3) + 1 then .bad SC_SGL_COUNT
      else if ts.any fun t => t != 0 && t != 2 && t != 3 then .bad SC_SGL_TYPE
      else .go

/-- The checks before step 3 of the write path, or step 2 of the read path, for a command that moves `bytes` bytes (R78, R139, R171,
R327, R476). -/
def ioCheck (s : State) (c : IoCmd) (k : Ctx) (bytes : Ns → Nat) : Chk × Option Ns :=
  if !ioEnabled s then (.bad SC_NOT_READY, none)
  else
    match ioNs s k with
    | none => (.bad SC_INVALID_NS, none)
    | some n =>
      match nsSlot s k.nsid with
      | none => (.bad SC_NOT_READY, none)
      | some (_, ks) =>
        let p := if bytes n = 0 then Chk.go else ptrCheck s c n.slice (bytes n)
        if p ≠ .go then (p, some n) else if ks.st ≠ 2 then (.wait, some n) else (.go, some n)

/-- Runs an I/O command whose entry has been fetched with one of the opcodes `op`. A command outside its slice's window is a
violation of the slice; the card's drain completes it (R86, R88). -/
def ioRun (s : State) (c : IoCmd) (op : Nat → Bool) (bytes : Ns → Nat) (f : Ctx → Ns → State → State) : State :=
  let x := ioKey c
  match SMap.find s.hst.ctx x with
  | some k =>
    if k.st == .fetched && k.qid != 0 && op k.opcode && s.bot.run then
      match ioCheck s c k bytes with
      | (.go, some n) => f k n s
      | (.bad st, _) => ctxFail s x st c.slba
      | (.vio, some n) => raiseVio s 1 0 (midSlice n.slice) (c.dmaLo % 4294967296)
      | _ => s
    else s
  | none => s

/-- A write or append fetched earlier from the same submission queue, to the same zone, has not reached step 3 (R204). -/
def orderHeld (s : State) (c : IoCmd) (k : Ctx) (n : Ns) : Bool :=
  s.hst.ctx.any fun e =>
    e.2.port == k.port && e.2.qid == k.qid && e.2.nsid == k.nsid && e.2.st == .fetched && decide (e.2.order < k.order) &&
    (e.2.opcode == 1 || e.2.opcode == 0x7D) && e.2.slba / zoneLbas n == c.slba / zoneLbas n

/-- The command goes on with its context in state running. -/
def ioGo (s : State) (x : Nat) (f : Ctx → Ctx) : State := ctxUpd s x fun k => f { k with st := .running }

/-! ### The descriptor cache (R201, R220) -/

/-- Descriptors reserved for isolated slices, and entries left for the others. -/
def pinnedReserved (s : State) : Nat :=
  s.zne.ns.foldl (fun k e => if e.2.zoned && (isoNs s e.2).isSome then k + e.2.maxAct else k) 0

/-- The CRC-32 of a descriptor fetched into the cache: when it does not match, firmware rebuilds the descriptor, and the zone's commands
wait (R220). -/
def descCheck (s : State) (zi : Nat) : State :=
  let z := zoneGet s zi
  if z.spoilt && z.crcBad.isNone then
    fon (zonePut s zi { z with crcBad := some (now s) }) Fld.ZNE_EVENTS_DESC_CRC
  else s

/-- A lookup of a zone's descriptor: a pinned one never misses; among the others the least recently used is replaced. -/
def descLookup (s : State) (n : Ns) (zi : Nat) : State :=
  let pinned := (isoNs s n).isSome && zActive (zoneGet s zi)
  if pinned then finc s Fld.ZNE_CACHE_HITS_COUNT
  else
    let hit := s.zne.cache.contains zi
    let l := (zi :: s.zne.cache.filter (· != zi)).take (32768 - pinnedReserved s)
    let s := finc { s with zne := { s.zne with cache := l } } (if hit then Fld.ZNE_CACHE_HITS_COUNT else Fld.ZNE_CACHE_MISSES_COUNT)
    if hit then s else descCheck s zi

/-- The descriptors of zones that are not in the cache are fetched and checked (R220). -/
def descsFetch (s : State) (n : Ns) (l : List Nat) : State :=
  l.foldl (fun s zi => if s.zne.cache.contains zi || ((isoNs s n).isSome && zActive (zoneGet s zi)) then s else descCheck s zi) s

/-- A command of the zone waits: its descriptor is being rebuilt, or an action has been accepted and has not acted (R212, R220). -/
def zoneWaits (z : Zone) : Bool := z.crcBad.isSome || z.action.isSome

/-! ### Units of a range -/

/-- The units that `len` LBAs from `lba` cover: unit, first LBA, LBAs in it; at most `fuel` units. -/
def unitSpans (lp : Nat) : Nat → Nat → Nat → List (Nat × Nat × Nat)
  | 0, _, _ => []
  | fuel + 1, lba, len =>
    if len = 0 then []
    else
      let n := min len (lp - lba % lp)
      (lba / lp, lba, n) :: unitSpans lp fuel (lba + n) (len - n)

/-- The units of a write, with the blocks of the host's data. -/
def writeUnits (lp lba len : Nat) (data : List Nat) : List CUnit :=
  (unitSpans lp len lba len).map fun u =>
    { unit := u.1, lba := u.2.1, n := u.2.2, loc := .zero, st := .waiting,
      blocks := (List.range u.2.2).map fun i => data.getD (u.2.1 - lba + i) 0, tries := 0, inst := 0, latch := none }

/-- The lifetime hint: HLIFE when HLV is set (R235, R244). -/
def hintLife (w : Word) : Nat := if bit w.toNat 11 then bits w.toNat 8 3 else 0

/-- HCLASS when HCV is set, else the slice's default class (R235, R236). -/
def hintClass (s : State) (slice : Nat) (w : Word) : Nat := if bit w.toNat 6 then bits w.toNat 0 6 else dfltClass s slice

/-- Host data of a command counts for its slice's epoch (R174, R179): a write's when it is accepted, a read's when it completes with
success, no other command's (DESIGN CHOICE, notes/assumptions/82.md). -/
def chargeSlice (s : State) (n : Ns) (lbas : Nat) : State :=
  sliceUpd s n.slice fun x => { x with bytes := x.bytes + lbas * duLen n }

/-! ### Write and Zone Append (R202–R207, R224, R235–R238) -/

/-- A write or append to a zoned namespace at step 3. -/
def zoneWrite (append : Bool) (c : IoCmd) (k : Ctx) (n : Ns) (s : State) : State :=
  let x := ioKey c
  let len := c.nlb + 1
  let lp := lbasPerUnit n
  let zi := n.base + c.slba / zoneLbas n
  if orderHeld s c k n || (decide (c.slba + len ≤ nsLbas n) && zoneWaits (zoneGet s zi)) then s
  else
    let s := if c.slba + len ≤ nsLbas n then descLookup s n zi else s
    if c.slba + len ≤ nsLbas n ∧ zoneWaits (zoneGet s zi) then s
    else
    let r := zoneReserve s n append c.slba len (hintClass s n.slice c.cdw3)
    if r.1 ≠ 0 then ctxFail r.2.2 x r.1 c.slba
    else
      let q := seqTake r.2.2
      let s := chargeSlice q.2 n len
      let cls := (zoneGet s zi).cls
      let w : WRange := { nsid := k.nsid, zone := zi, start := r.2.1, len := len, seq := q.1, zoned := true, cls := cls,
                          life := hintLife c.cdw3 }
      let us := writeUnits lp ((zi - n.base) * zoneLbas n + r.2.1) len c.data
      ioGo s x fun k => { k with range := some w, units := us }

/-- A write to a conventional namespace at step 3. -/
def convWrite (c : IoCmd) (k : Ctx) (n : Ns) (s : State) : State :=
  let x := ioKey c
  let len := c.nlb + 1
  let cls := hintClass s n.slice c.cdw3
  if nsLbas n < c.slba + len then ctxFail s x SC_LBA_RANGE c.slba
  else if fone s Fld.ZNE_EOL_READ_ONLY then ctxFail (fon s Fld.CMP_EVENTS_WRITE_PROTECTED) x SC_WRITE_PROTECTED c.slba
  else if !classOk s n.slice cls then ctxFail s x SC_CLASS_UNAVAILABLE c.slba
  else
    let q := seqTake s
    let s := chargeSlice q.2 n len
    let w : WRange := { nsid := k.nsid, zone := 0, start := c.slba, len := len, seq := q.1, zoned := false, cls := cls,
                        life := hintLife c.cdw3 }
    let us := writeUnits (lbasPerUnit n) c.slba len c.data
    ioGo s x fun k => { k with range := some w, units := us }

/-- Bytes that a command of `nlb` moves. -/
def lbaBytes (c : IoCmd) (n : Ns) : Nat := (c.nlb + 1) * duLen n

def execNvmeWrite (c : IoCmd) (s : State) : Out :=
  .next (ioRun s c (· == 1) (lbaBytes c) fun k n s => if n.zoned then zoneWrite false c k n s else convWrite c k n s)

/-- Zone Append is a command of zoned namespaces. -/
def execZoneAppend (c : IoCmd) (s : State) : Out :=
  .next (ioRun s c (· == 0x7D) (lbaBytes c) fun k n s =>
    if n.zoned then zoneWrite true c k n s else ctxFail s (ioKey c) SC_INVALID_OPCODE c.slba)

/-! ### Read (R50, R207, R215, R223, R259) -/

/-- The unit that holds an LBA of a zone's range in flight has been staged. -/
def spanStaged (s : State) (zi off unit : Nat) : Bool :=
  s.hst.ctx.any fun e =>
    (match e.2.range with | some r => r.zoned && r.zone == zi && decide (r.start ≤ off ∧ off < r.start + r.len) | none => false) &&
    e.2.units.any fun k => k.unit == unit && k.st == .staged

/-- An LBA of a zone holds data: its range is durable, or its unit is staged; every other LBA reads as zeros (R215). -/
def lbaLive (s : State) (zi unit off : Nat) : Bool :=
  let z := zoneGet s zi
  let held := match z.action with | some (4, _) => false | _ => true
  held && !z.void && z.ranges.any fun r =>
    decide (r.start ≤ off ∧ off < r.start + r.len) && (r.st == 1 || (r.st == 0 && spanStaged s zi off unit))

/-- An LBA of a namespace holds data. -/
def nsLive (s : State) (n : Ns) (lba : Nat) : Bool :=
  if n.zoned then lbaLive s (n.base + lba / zoneLbas n) (lba / lbasPerUnit n) (lba % zoneLbas n)
  else unitLoc s n (lba / lbasPerUnit n) != .zero

/-- SEQ_CHK of the map entry of a conventional unit (R223). -/
def entryChk (s : State) (n : Ns) (unit : Nat) : Option Nat :=
  if n.zoned then none else (SMap.find s.zne.conv (n.base + unit)).map fun e => e.seq % 16384

/-- A part of a unit that a read resolves. -/
def readUnit (s : State) (n : Ns) (unit lba k : Nat) (live : Bool) (inst : Nat) : CUnit :=
  let loc := if live then unitLoc s n unit else .zero
  let chk := if live then entryChk s n unit else none
  { unit := unit, lba := lba, n := k, loc := loc, st := if loc = .zero then .plain else .waiting,
    blocks := if loc = .zero then List.replicate k 0 else [], tries := 0, inst := inst, latch := none, chk := chk }

/-- Cuts a unit's LBAs into parts with data and parts of zeros, in order. -/
def liveParts (s : State) (n : Ns) : List Nat → List (Nat × Nat × Bool)
  | [] => []
  | lba :: rest =>
    let live := nsLive s n lba
    match liveParts s n rest with
    | (a, k, v) :: more => if v = live then (lba, k + 1, v) :: more else (lba, 1, live) :: (a, k, v) :: more
    | [] => [(lba, 1, live)]

/-- The units of a read, each where it lies at step 2. -/
def readUnits (s : State) (n : Ns) (lba len inst : Nat) : List CUnit :=
  (unitSpans (lbasPerUnit n) len lba len).flatMap fun u =>
    (liveParts s n ((List.range u.2.2).map (u.2.1 + ·))).map fun p => readUnit s n u.1 p.1 p.2.1 p.2.2 inst

/-- The zones that a range touches. -/
def zonesOf (n : Ns) (lba len : Nat) : List Nat :=
  let a := lba / zoneLbas n
  (List.range ((lba + len - 1) / zoneLbas n - a + 1)).map (n.base + a + ·)

/-- Step 2 of the read path. -/
def readResolve (c : IoCmd) (n : Ns) (s : State) : State :=
  let x := ioKey c
  let len := c.nlb + 1
  if nsLbas n < c.slba + len then ctxFail s x SC_LBA_RANGE c.slba
  else
    let zs := if n.zoned then zonesOf n c.slba len else []
    if zs.any fun i => (zoneGet s i).crcBad.isSome then s
    else
      let s := zs.foldl (fun s i => descLookup s n i) s
      if zs.any fun i => (zoneGet s i).crcBad.isSome then s
      else if zs.any fun i => (zoneGet s i).st == 15 then ctxFail s x SC_ZONE_OFFLINE c.slba
      else
        let r := chooseXte s n.slice
        let us := readUnits r.2 n c.slba len r.1
        readDone (ioGo r.2 x fun k => { k with units := us, inst := r.1 }) x

def execNvmeRead (c : IoCmd) (s : State) : Out := .next (ioRun s c (· == 2) (lbaBytes c) fun _ n s => readResolve c n s)

/-! ### Flush and Dataset Management (R133, R215, R225) -/

/-- Every completed write is durable already: Flush completes with no media operation. -/
def execNvmeFlush (c : IoCmd) (s : State) : Out := .next (ioRun s c (· == 0) (fun _ => 0) fun _ _ s => ctxEnd s (ioKey c) 0 0 0)

/-- Deallocates one entry of the conventional map; it keeps the sequence number that orders it among writes (R224, R225). -/
def deallocate (seq : Nat) (s : State) (i : Nat) : State :=
  match SMap.find s.zne.conv i with
  | some e =>
    let s := locDrop s e.loc
    { s with zne := { s.zne with conv := SMap.put s.zne.conv i { loc := .zero, mode := 0, seq := seq } } }
  | none => { s with zne := { s.zne with conv := SMap.put s.zne.conv i { loc := .zero, mode := 0, seq := seq } } }

/-- The ranges a Dataset Management names: first LBA and length. -/
def dsmRanges (c : IoCmd) : List (Nat × Nat) :=
  ((List.range (c.slba % 256 + 1)).map fun i => c.data.getD i 0).map fun w => (bits w 64 64, bits w 32 32)

/-- DATASET_MANAGEMENT: dword 10 gives the number of ranges, bit 2 of dword 11 asks to deallocate. -/
def dsmRun (c : IoCmd) (k : Ctx) (n : Ns) (s : State) : State :=
  let x := ioKey c
  let l := dsmRanges c
  if n.zoned then ctxEnd s x 0 0 0
  else
    match l.find? fun r => decide (nsLbas n < r.1 + r.2) with
    | some r => ctxFail s x SC_LBA_RANGE r.1
    | none =>
      if !bit c.slba 34 then ctxEnd s x 0 0 0
      else if fone s Fld.ZNE_EOL_READ_ONLY then ctxFail (fon s Fld.CMP_EVENTS_WRITE_PROTECTED) x SC_WRITE_PROTECTED (match l with | r :: _ => r.1 | [] => 0)
      else
        let q := seqTake s
        let s := l.foldl (fun s r =>
          let ids := (List.range r.2).map (n.base + r.1 + ·)
          let holds := ids.flatMap fun i => match SMap.find s.zne.conv i with | some e => locBlock e.loc | none => []
          journalHold (isoNs s n) holds (ids.foldl (deallocate q.1) s) 3 [k.nsid, r.1, r.2]) q.2
        ctxEnd (sweep s) x 0 0 0

def execDatasetManagement (c : IoCmd) (s : State) : Out :=
  .next (ioRun s c (· == 9) (fun _ => 16 * (c.slba % 256 + 1)) (dsmRun c))

/-! ### Zone Management Send (R195, R211–R213, R297) -/

/-- An accepted action takes a sequence number on each zone it changes, and acts (R297). -/
def actNow (act : Nat) (s : State) (zi : Nat) : State := actionDo (seqTake s).2 act zi

/-- Close, Finish and Reset wait for the ranges in flight (R212). -/
def actWaits (act : Nat) (z : Zone) : Bool := (act == 1 || act == 2 || act == 4) && inFlight z

/-- An action on one zone of a command `x`: it acts, or it waits. -/
def actOn (act x : Nat) (s : State) (zi : Nat) : State :=
  let z := zoneGet s zi
  if actWaits act z then zonePut s zi { z with action := some (act, x) }
  else if actionRule act z.st = some true then actNow act s zi else s

/-- The command completes once no zone's action waits for it. -/
def actEnd (s : State) (x : Nat) : State :=
  if s.zne.zones.any fun e => (match e.2.action with | some (_, y) => y == x | none => false) then s else ctxEnd s x 0 0 0

/-- Opens one zone explicitly; an Empty one in the slice's default class (R236). -/
def openOn (s : State) (zi : Nat) (n : Ns) : Nat × State :=
  let r := zoneOpenFor s zi 3 (dfltClass s n.slice) n
  if r.1 ≠ 0 then r else (0, (seqTake r.2).2)

/-- The zones of a namespace that a Select All action covers; zones that no record lists are Empty, or Read Only at the end of
life. -/
def allZones (s : State) (n : Ns) (act : Nat) : List Nat :=
  if act = 5 then ((List.range (zoneCount n)).map (n.base + ·)).filter fun i => selectAll 5 (zoneGet s i).st
  else (s.zne.zones.filter fun e => decide (n.base ≤ e.1 ∧ e.1 < n.base + zoneCount n) && selectAll act e.2.st).map (·.1)

/-- An action with Select All. -/
def sendAll (c : IoCmd) (n : Ns) (act : Nat) (s : State) : State :=
  let x := ioKey c
  let l := allZones s n act
  let s := descsFetch s n l
  if l.any fun i => zoneWaits (zoneGet s i) then s
  else if act = 3 then
    let open_ := countZones s (some n) zOpen
    let lim := if n.maxOpen ≠ 0 then n.maxOpen else if n.maxAct ≠ 0 then n.maxAct else 65536 - (countZones s none zOpen - open_)
    if lim < open_ + l.length then ctxFail s x SC_MANY_OPEN c.slba
    else ctxEnd (l.foldl (fun s i => (openOn s i n).2) s) x 0 0 0
  else actEnd (l.foldl (actOn act x) (ioGo s x id)) x

/-- An action on the zone that starts at SLBA. -/
def sendOne (c : IoCmd) (n : Ns) (act : Nat) (s : State) : State :=
  let x := ioKey c
  let zi := n.base + c.slba / zoneLbas n
  let z := zoneGet s zi
  if nsLbas n ≤ c.slba then ctxFail s x SC_LBA_RANGE c.slba
  else if c.slba % zoneLbas n ≠ 0 then ctxFail s x SC_INVALID_FIELD c.slba
  else if zoneWaits z then s
  else
    let s := descLookup s n zi
    if zoneWaits (zoneGet s zi) then s
    else match actionRule act z.st with
    | none => ctxFail s x SC_ZONE_TRANSITION c.slba
    | some change =>
      if act = 3 then
        if !change then ctxEnd s x 0 0 0
        else
          let r := openOn s zi n
          if r.1 ≠ 0 then ctxFail r.2 x r.1 c.slba else ctxEnd r.2 x 0 0 0
      else actEnd (actOn act x (ioGo s x id) zi) x

/-- Zone Management Send: in read-only end of life only Offline is taken (R210); bit 8 of dword 13 is Select All. -/
def zoneSend (s : State) (c : IoCmd) (act : Nat) : State :=
  ioRun s c (· == 0x79) (fun _ => 0) fun _ n s =>
    if !n.zoned then ctxFail s (ioKey c) SC_INVALID_OPCODE c.slba
    else if act ≠ 5 ∧ fone s Fld.ZNE_EOL_READ_ONLY then ctxFail s (ioKey c) SC_ZONE_RO c.slba
    else if bit c.cdw13.toNat 8 then sendAll c n act s
    else sendOne c n act s

def execZoneClose (c : IoCmd) (s : State) : Out := .next (zoneSend s c 1)
def execZoneFinish (c : IoCmd) (s : State) : Out := .next (zoneSend s c 2)
def execZoneOpen (c : IoCmd) (s : State) : Out := .next (zoneSend s c 3)
def execZoneReset (c : IoCmd) (s : State) : Out := .next (zoneSend s c 4)
def execZoneOffline (c : IoCmd) (s : State) : Out := .next (zoneSend s c 5)

/-- Set Zone Descriptor Extension and any other action (R211). -/
def execZoneMgmtSendInvalid (c : IoCmd) (s : State) : Out :=
  .next (ioRun s c (· == 0x79) (fun _ => 0) fun _ n s =>
    if !n.zoned then ctxFail s (ioKey c) SC_INVALID_OPCODE c.slba else ctxFail s (ioKey c) SC_INVALID_FIELD c.slba)

/-- A waiting action acts once no range of its zone is in flight, on the state it then finds (R212). -/
def actionTakes (s : State) (zi : Nat) : State :=
  let z := zoneGet s zi
  match z.action with
  | none => s
  | some (act, x) =>
    if inFlight z then s
    else
      let s := zonePut s zi { z with action := none }
      match actionRule act z.st with
      | none => ctxFail s x SC_ZONE_TRANSITION 0
      | some change => actEnd (if change then actNow act s zi else s) x

def execZoneActionTakesEffect (z : Nat) (s : State) : Out := .next (actionTakes s z)

/-- A descriptor has been rebuilt from the journal, which is recorded: its zone's commands go on (R220, R584). -/
def descRebuilt (s : State) (zi : Nat) : State :=
  let z := zoneGet s zi
  match z.crcBad with
  | some t =>
    let id := match nsOfZone s zi with | some (k, _) => k | none => 0
    post (zonePut s zi { z with crcBad := none, spoilt := false }) 3 1 true ((now s - t) / 1000) 0 zi id
  | none => s

def execDescriptorRebuildDone (z : Nat) (s : State) : Out := .next (descRebuilt s z)

/-! ### Zone Management Receive (R209, R214) -/

/-- The state that a reporting option names; 0 names every zone. -/
def reportState (opt : Nat) : Nat := [0, 1, 2, 3, 4, 14, 13, 15].getD opt 0

/-- A host zone descriptor. -/
def zoneDesc (s : State) (n : Ns) (j : Nat) : List Byte :=
  let z := zoneGet s (n.base + j)
  let zs := j * zoneLbas n
  let cap := (if z.st = 1 then emptyZcap s n else z.zcap) * lbasPerUnit n
  let wp := if 13 ≤ z.st then 18446744073709551615 else zs + z.wp
  le 1 2 ++ le 1 (16 * z.st) ++ le 1 0 ++ zeros 5 ++ le 8 cap ++ le 8 zs ++ le 8 wp ++ zeros 32

/-- Bytes that a Zone Management Receive asks for. -/
def recvBytes (c : IoCmd) : Nat := 4 * (c.cdw12.toNat + 1)

/-- Report Zones: the zones from SLBA's zone on that the option names; it waits while a descriptor of them is being rebuilt (R220). -/
def reportZones (c : IoCmd) (n : Ns) (s : State) : State :=
  let x := ioKey c
  let opt := cdw c.cdw13 8 8
  if !n.zoned then ctxFail s x SC_INVALID_OPCODE c.slba
  else if 7 < opt then ctxFail s x SC_INVALID_FIELD c.slba
  else if nsLbas n ≤ c.slba then ctxFail s x SC_LBA_RANGE c.slba
  else
    let st := reportState opt
    let a := c.slba / zoneLbas n
    let l := ((List.range (zoneCount n - a)).map (a + ·)).filter fun j => st == 0 || (zoneGet s (n.base + j)).st == st
    let room := (recvBytes c - 64) / 64
    let got := l.take room
    let total := if bit c.cdw13.toNat 16 then got.length else l.length
    let out := fit (recvBytes c) (le 8 total ++ zeros 56 ++ got.flatMap (zoneDesc s n))
    let s := descsFetch s n (got.map (n.base + ·))
    if got.any fun j => (zoneGet s (n.base + j)).crcBad.isSome then s
    else
    ctxEnd (ctxUpd s x fun k => { k with out := out.map (·.toNat) }) x 0 0 0

def execReportZones (c : IoCmd) (s : State) : Out :=
  .next (ioRun s c (· == 0x7A) (fun _ => recvBytes c) fun _ n s => reportZones c n s)

/-- Extended Report Zones is not supported (R214). -/
def execExtendedReportZones (c : IoCmd) (s : State) : Out :=
  .next (ioRun s c (· == 0x7A) (fun _ => recvBytes c) fun _ n s =>
    ctxFail s (ioKey c) (if n.zoned then SC_INVALID_FIELD else SC_INVALID_OPCODE) c.slba)

/-! ### Other opcodes -/

def execIoInvalidOpcode (c : IoCmd) (s : State) : Out :=
  .next (match SMap.find s.hst.ctx (ioKey c) with
    | some k =>
      if k.st == .fetched && k.qid != 0 && !ioKnown k.opcode && s.bot.run then ctxFail s (ioKey c) SC_INVALID_OPCODE 0 else s
    | none => s)

end Sys2Proof.Machine
end

