-- ==== Sys2Proof/Machine/Access.lean ====
section
/-! DEFINITION. Register accesses: what a register reads, what a write does, latched pairs, the lock of the matrix, and the
register opcodes (R16–R20, R34, R35, R70–R74, R97, R119, R187). -/
namespace Sys2Proof.Machine
open Sys2Proof

/-! ### Selectors (R187, R263, R294, R331, R362, R388, R435, R480, R530, R574) -/

/-- Registers of which every master has its own copy. -/
def perMaster (a : Nat) : Bool :=
  [Reg.SLM_SEL, Reg.PLC_SEL, Reg.DSC_DIE_SEL, Reg.LDC_DEC_SEL, Reg.LDC_MED_DIE_SEL, Reg.BPM_ACCT_SEL, Reg.UMP_SEL, Reg.KST_SEL,
    Reg.CLS_SECTOR_SEL, Reg.CLS_POST_GO, Reg.AGE_DIE_SEL].contains a ||
  decide (Reg.CLS_POST_D 0 ≤ a ∧ a ≤ Reg.CLS_POST_D 7) ||
  (blockOf a == some 29 && (windowOff a == 0xD0 || windowOff a == 0xE0))

/-- A master's copy of a register. -/
def selWord (s : State) (n a : Nat) : Word := SMap.getD s.sel (n * 4294967296 + a) 0

/-- A master writes its copy. -/
def selWrite (s : State) (n a : Nat) (v : Word) : State :=
  match regAt a with
  | some (r, k) =>
    { s with sel := SMap.putD s.sel (n * 4294967296 + a) 0 (regWriteWord r k (isLocked s a) (selWord s n a) v) }
  | none => s

/-! ### Views: registers whose value the state holds elsewhere -/

/-- A word built from fields: low bit, width, value. -/
def packed (l : List (Nat × Nat × Nat)) : Nat := l.foldl (fun w f => w + (f.2.2 % 2 ^ f.2.1) * 2 ^ f.1) 0

/-- The index of address `a` in an array of `n` registers with a stride, if it lies there. -/
def indexIn (base stride n a : Nat) : Option Nat :=
  if base ≤ a ∧ (a - base) % stride = 0 ∧ (a - base) / stride < n then some ((a - base) / stride) else none

/-- TMB: device time and the stored ceiling (R59, R60). -/
def viewTmb (s : State) (a : Nat) : Option Nat :=
  let ceil := match s.tmb.ceiling with | some c => c | none => 0
  if a = Reg.TMB_TIME_LO then some (now s % 4294967296)
  else if a = Reg.TMB_TIME_HI then some (now s / 4294967296)
  else if a = Reg.TMB_CEIL_LO then some (ceil % 4294967296)
  else if a = Reg.TMB_CEIL_HI then some (ceil / 4294967296)
  else none

/-- ACM: the carded masters, the master that was asked for, the matrix window (R90, R91, R96). -/
def viewAcm (s : State) (a : Nat) : Option Nat :=
  if a = Reg.ACM_CARD_TOTAL then some s.acm.cards.length
  else if a = Reg.ACM_CARD_RESULT then
    let q := rget s Reg.ACM_CARD_QUERY
    if q = 0 then none else some (rget (cardQuery s q) a)
  else if Reg.ACM_MATRIX 0 0 ≤ a then
    let i := (a - Reg.ACM_MATRIX 0 0) / 16
    match s.acm.matrix[i]? with
    | some e => some ((matWords e).getD ((a - Reg.ACM_MATRIX 0 0) % 16 / 4) 0)
    | none => some 0
  else none

/-- The idle time of a port, in ms. -/
def idleMs (s : State) (p : Nat) : Nat :=
  if fone s ⟨Reg.QEN_PS, 4 * p + 3, 1⟩ then sat 24 ((now s - (portGet s p).idleAt) / 1000000) else 0

/-- SLM: the epoch number and the view of the selected slice (R176, R188); a slice in FREE reads 0. START reads 1 while any reset of
the slice runs (DESIGN CHOICE, notes/assumptions/81.md). -/
def viewSlm (s : State) (n a : Nat) : Option Nat :=
  if a = Reg.SLM_EPOCH_LO then some (epochOf (now s) % 4294967296)
  else if a = Reg.SLM_EPOCH_HI then some (epochOf (now s) / 4294967296)
  else if a < Reg.SLM_V_STATE ∨ Reg.SLM_V_BW_CAP < a then none
  else
    let k := selGet s n Fld.SLM_SEL_SLICE
    match SMap.find s.slm.slices k with
    | none => some (if a = Reg.SLM_V_STATE then packed [(2, 1, b2n (carded s (midSlice k)))] else 0)
    | some x =>
      let nx := sharesNext x
      if a = Reg.SLM_V_STATE then
        some (packed [(0, 2, if x.resetting then 2 else 1), (2, 1, b2n (carded s (midSlice k))), (3, 1, b2n x.iso),
          (4, 4, x.slots.foldl (fun m e => m + 2 ^ e.1) 0), (8, 7, SMap.cnt s.hst.sqs fun q _ => queueIn x q),
          (16, 7, SMap.cnt s.hst.cqs fun q _ => queueIn x q), (24, 5, (sliceNs s k).length)])
      else if a = Reg.SLM_V_PASID then some x.pasid
      else if a = Reg.SLM_V_DMA_BASE_LO then some (x.dmaBase % 4294967296)
      else if a = Reg.SLM_V_DMA_BASE_HI then some (x.dmaBase / 4294967296)
      else if a = Reg.SLM_V_DMA_LIMIT_LO then some (x.dmaLimit % 4294967296)
      else if a = Reg.SLM_V_DMA_LIMIT_HI then some (x.dmaLimit / 4294967296)
      else if a = Reg.SLM_V_SHARE then some (packed [(0, 8, x.shares.weight), (8, 2, x.shares.lat), (16, 10, x.shares.power)])
      else if a = Reg.SLM_V_SHARE_NEXT then
        some (packed [(0, 8, nx.weight), (8, 2, nx.lat), (16, 10, nx.power), (31, 1, b2n x.next.isSome)])
      else if a = Reg.SLM_V_SLOTS then
        some (match x.slots with
          | [] => 0
          | [(p, t)] => packed [(0, 10, t), (10, 2, p), (12, 1, 1)]
          | (p, t) :: (q, u) :: _ => packed [(0, 10, t), (10, 2, p), (12, 1, 1), (16, 10, u), (26, 2, q), (28, 1, 1)])
      else if a = Reg.SLM_V_RESET then
        some (packed [(0, 1, b2n x.resetting), (1, 1, b2n x.resetting), (16, 16, sat 16 x.resets)])
      else if a = Reg.SLM_V_LAST_EPOCH then some (sat 24 (x.lastBytes / 4096))
      else if a = Reg.SLM_V_BW_CAP then some (packed [(0, 16, x.shares.cap), (16, 16, nx.cap)])
      else none

/-- What the SLN-7632 has half of (R3): PLC_ID.GROUPS, DSC_ID.DIES, LDC_ID.DECODERS read halved. -/
def viewHalf (s : State) (a : Nat) : Option Nat :=
  if !s.part.is7632 then none
  else if a = Reg.PLC_ID then some (rget s a - 64 * 256)
  else if a = Reg.DSC_ID then some (rget s a - 1024)
  else if a = Reg.LDC_ID then some (rget s a - 64)
  else none

/-- The largest run of conventional entries that no namespace holds. -/
def largestFree (used : List (Nat × Nat)) (lim : Nat) : Nat :=
  let next := fun (b : Nat) => used.foldl (fun m u => if b ≤ u.1 then min m u.1 else m) lim
  let taken := fun (b : Nat) => used.any fun u => decide (u.1 ≤ b ∧ b < u.1 + u.2)
  (0 :: used.map fun u => u.1 + u.2).foldl (fun m b => if taken b then m else max m (next b - b)) 0

/-- ZNE and CMP: pinned descriptors, reservable capacity and the counts of the conventional map (R201, R223, R314). -/
def viewZone (s : State) (a : Nat) : Option Nat :=
  if a = Reg.ZNE_PINNED then
    let used := SMap.cnt s.zne.zones fun i z =>
      zActive z && (match nsOfZone s i with | some (_, n) => (isoNs s n).isSome | none => false)
    some (packed [(0, 15, pinnedReserved s), (16, 15, used)])
  else if a = Reg.ZNE_RESERVABLE_LO then some (reservable s none % 4294967296)
  else if a = Reg.ZNE_RESERVABLE_HI then some (reservable s none / 4294967296)
  else if a = Reg.CMP_ALLOCATED then some (((nsRanges s false).foldl (fun k u => k + u.2) 0))
  else if a = Reg.CMP_LARGEST_FREE then some (largestFree (nsRanges s false) (fget s Fld.CMP_REGION_UNITS))
  else if a = Reg.CMP_MAPPED then some (SMap.cnt s.zne.conv fun _ e => match e.loc with | .flash .. => true | _ => false)
  else if a = Reg.CMP_STAGED then some (SMap.cnt s.zne.conv fun _ e => match e.loc with | .dram _ => true | _ => false)
  else none

/-- PLC: decisions, the selected slice's classes, the class table (R231, R237, R263). -/
def viewPlc (s : State) (n a : Nat) : Option Nat :=
  let x := SMap.find s.slm.slices (selGet s n Fld.PLC_SEL_SLICE)
  let mask := match x with | some x => x.mask | none => 0
  if a = Reg.PLC_DECISIONS_LO then some (s.plc.decisions % 4294967296)
  else if a = Reg.PLC_DECISIONS_HI then some (s.plc.decisions / 4294967296)
  else if a = Reg.PLC_V_MASK_LO then some (mask % 4294967296)
  else if a = Reg.PLC_V_MASK_HI then some (mask / 4294967296)
  else if a = Reg.PLC_V_DEFAULT then some (match x with | some x => x.dflt | none => 0)
  else
    match indexIn (Reg.PLC_CLASS 0 0) 4 512 a with
    | some i => some (u32 (classBytes (classOf s (i / 8))) (4 * (i % 8)))
    | none => none

/-- DSC: the latency bins of the selected class, the backlogs and the state of the selected die (R276, R293, R294). -/
def viewDsc (s : State) (n a : Nat) : Option Nat :=
  let die := selGet s n Fld.DSC_DIE_SEL_DIE
  if a = Reg.DSC_V_BACKLOG then
    let b := backlogOf s die
    some (packed [(0, 16, sat 16 (b.1 / 1000)), (16, 16, sat 16 (b.2 / 10000))])
  else if a = Reg.DSC_V_STATE then
    let held := SMap.find s.dsc.susp die
    let run := (runOf s die).head?
    let cnt := match run, held with
      | some o, none => if o.kind = 0 then 0 else o.susp
      | _, some (o :: _, _) => o.susp
      | _, _ => 0
    some (packed [(0, 10, min 512 (queueOf s die).length), (10, 2, match run with | some o => o.kind + 1 | none => 0),
      (12, 1, b2n held.isSome), (13, 3, min 7 cnt)])
  else
    match indexIn (Reg.DSC_LAT_BIN 0) 4 32 a with
    | some i => some (sat 32 (SMap.getD s.dsc.bins (fget s Fld.DSC_LAT_SEL_CLASS * 32 + i) 0))
    | none => none

/-- LDC_MED_REBUILD with the progress of the oldest running rebuild: the share of the units it had to copy that it has copied (R318). -/
def rebuildView (s : State) (v : Nat) : Nat :=
  match s.med.rebuilds with
  | r :: _ => v % 2 + 2 * (if r.total = 0 then 100 else 100 * (r.total - rebuildLeft s r.die) / r.total) + v / 256 * 256
  | [] => v

/-- LDC: the selected decoder and the selected die (R302, R313, R331). -/
def viewLdc (s : State) (n a : Nat) : Option Nat :=
  let dec := selGet s n Fld.LDC_DEC_SEL_DECODER
  let die := selGet s n Fld.LDC_MED_DIE_SEL_DIE
  if a = Reg.LDC_V_DEC then
    let k := codewordsAt s (dec / 2) (dec % 2)
    some (if carded s (midLdc dec) then packed [(8, 2, 3)] else packed [(0, 8, min 255 k), (8, 2, if k = 0 then 0 else 1)])
  else if a = Reg.LDC_MED_REBUILD then some (rebuildView s (rget s a))
  else if a = Reg.LDC_MED_V_DIE then
    let st := SMap.getD s.med.dies die 0
    some (packed [(0, 2, if dieUnpop s die then 2 else st), (8, 8, sat 8 (sparesOf s die)),
      (16, 16, sat 16 (SMap.getD s.med.retired die 0))])
  else if a = Reg.LDC_MED_V_PE then
    let mine := s.med.blocks.filter fun e => e.1 / 1048576 == die && !e.2.retired && !e.2.spare
    let sum := mine.foldl (fun k e => k + e.2.pe) 0
    let cnt := s.part.dieBlocks - SMap.getD s.med.retired die 0 - sparesOf s die
    some (packed [(0, 16, sat 16 (sum / (4 * max 1 cnt))), (16, 16, sat 16 (mine.foldl (fun k e => max k (e.2.pe / 4)) 0))])
  else none

/-- CHS: queues, the completion FIFO, the selected die and its sequence-table entry (R335, R342, R346, R348). -/
def viewChs (s : State) (n ch a : Nat) : Option Nat :=
  let c := chsOf s ch
  let die := selGet s n (Fld.CHS_DIE_SEL_DIE ch)
  let q := fun (l : List Desc) => some (packed [(0, 7, l.length), (8, 7, 64)])
  let o := windowOff a
  let key := die * 64 + selGet s n (Fld.CHS_SEQ_SEL_ENTRY ch)
  let used := (SMap.find c.seq key).isSome
  let ent := (SMap.find c.seq key) <|> (SMap.find c.seqIdle key)
  if o = 0x00 then some (packed [(0, 6, ch), (8, 14, 8192)])
  else if o = 0x40 then q c.q0
  else if o = 0x44 then q c.q1
  else if o = 0x48 then q c.q2
  else if o = 0x4C then q c.q3
  else if o = 0x50 then some (packed [(0, 5, c.fifo.length), (5, 1, b2n (decide (16 ≤ c.fifo.length)))])
  else if o = 0xD4 then
    let x := SMap.find c.ctx die
    let h := SMap.find c.slot die
    let op := match x with | some x => (match x.chain with | d :: _ => d.op | [] => 0) | none => 0
    let st := match x with
      | some _ => 1
      | none => if c.ovr.any (fun e => e.die == die) then 2 else 0
    let cnt := match x, h with | some x, none => x.susp | _, some h => h.susp | none, none => 0
    let wait := (c.q0 ++ c.q1 ++ c.q2 ++ c.q3).any fun d => d.die == die
    some (packed [(0, 2, st), (2, 1, b2n wait), (3, 1, b2n h.isSome), (8, 8, op), (16, 3, min 7 cnt),
      (24, 7, SMap.cnt c.seq fun k _ => k / 64 == die), (31, 1, b2n (fbit s (Fld.CHS_DIE_LOST_DIES ch) die))])
  else if o = 0xD8 then
    some (match SMap.find c.slot die with
      | some h =>
        match h.chain with
        | d :: _ => packed [(0, 19, d.block), (30, 1, b2n (d.op == 3)), (31, 1, 1)]
        | [] => packed [(31, 1, 1)]
      | none => 0)
  else if o = 0xE4 then some (match ent with | some e => packed [(0, 19, e.block), (31, 1, b2n used)] | none => 0)
  else if o = 0xE8 then some (match ent with | some e => packed [(0, 13, e.next), (13, 2, e.mode)] | none => 0)
  else none

/-- BPM: the pools and the selected account (R369, R371, R374, R384, R385); above 1,031 the view reads 0. -/
def viewBpm (s : State) (n a : Nat) : Option Nat :=
  let t := selGet s n Fld.BPM_ACCT_SEL_ACCOUNT
  match indexIn (Reg.BPM_FREE 0) 4 4 a with
  | some k => some (packed [(0, 16, bufFree s k), (16, 16, surplusFree s k)])
  | none =>
    match indexIn (Reg.BPM_V_QUOTA 0) 4 4 a with
    | some k => some (if 1031 < t then 0 else packed [(0, 16, rsvOf s t k), (16, 16, limOf s t k)])
    | none =>
      match indexIn (Reg.BPM_V_HELD 0) 4 4 a with
      | some k => some (if 1031 < t then 0 else packed [(0, 16, bufHeld s t k), (16, 16, sat 16 (SMap.getD s.bpm.oldest (t * 4 + k) 0))])
      | none =>
        if a = Reg.BPM_V_STATE then
          let waits := (List.range 4).foldl (fun m k =>
            m + b2n (s.bpm.waits.any fun w => w.quota && w.acct == t && w.pool == k) * 2 ^ k) 0
          some (if 1031 < t then 0 else
            packed [(0, 1, b2n (isoAcct s t)), (1, 1, b2n (decide (1024 ≤ t ∧ t ≤ 1028))), (2, 4, waits),
              (16, 16, sat 16 (SMap.getD s.bpm.leaks t 0))])
        else none

/-- The data capacity in GiB that a DMC_CONFIG describes (R389). -/
def capGib (v : Nat) : Nat :=
  let channels := if bits v 0 4 = 15 then 4 else 2
  let devices := if bit v 4 then 4 else 8
  let gbit := match bits v 6 2 with | 0 => 16 | 1 => 24 | _ => 32
  channels * 2 * (bits v 5 1 + 1) * devices * gbit / 8

/-- UMP: tokens and calls, and the selected slice (R413, R423, R428, R434). -/
def viewUmp (s : State) (n a : Nat) : Option Nat :=
  let k := selGet s n Fld.UMP_SEL_SLICE
  if a = Reg.UMP_TOKENS then some (sat 24 s.ump.tokens)
  else if a = Reg.UMP_TOKENS_LEFT then some (sat 24 (s.ump.tokens - s.ump.used))
  else if a = Reg.UMP_POOL_LEFT then some (sat 24 s.ump.pool)
  else if a = Reg.UMP_CALLS then
    some (packed [(0, 12, SMap.cnt s.ump.calls fun _ c => c.granted), (16, 12, SMap.cnt s.ump.calls fun _ c => !c.granted)])
  else if a = Reg.UMP_V_FLOOR then some (sat 24 (SMap.getD s.ump.floor k 0))
  else if a = Reg.UMP_V_LEFT then some (sat 24 (SMap.getD s.ump.left k 0))
  else if a = Reg.UMP_V_ICC then
    some (packed [(0, 16, sat 16 (SMap.getD s.ump.resIcc k 0 / 10)),
      (16, 16, sat 16 (iccHeld s (fun c => c.iso == some k || c.shares.any fun e => e.1 == k) / 10))])
  else if a = Reg.UMP_V_POWER then
    some (packed [(0, 16, sat 16 (tokensDw s.ump.lastUsed)), (16, 16, sat 16 (tokensDw (SMap.getD s.ump.lastBy k 0)))])
  else none

/-- KST: the selected slot's attributes (R459, R460, R480). -/
def viewKst (s : State) (n a : Nat) : Option Nat :=
  let i := selGet s n Fld.KST_SEL_SLOT
  let k := kslot s i
  let owned := k.typ == 4 && (k.st == 2 || k.st == 3)
  if a = Reg.KST_V_SLOT then
    some (packed [(0, 3, k.st), (3, 1, k.active), (4, 3, k.typ), (8, 8, sat 8 (bufUsers s i k.active)),
      (16, 8, sat 8 (bufUsers s i (1 - k.active)))])
  else if a = Reg.KST_V_GEN then some (packed [(0, 16, k.gen), (16, 2, k.origin)])
  else if a = Reg.KST_V_OWNER then some (if owned then packed [(0, 10, k.slice), (31, 1, 1)] else 0)
  else if a = Reg.KST_V_NSID then some (if owned then k.nsid else 0)
  else none

/-- CLS: the lock bits and the selected sector (R517, R518, R521, R526). -/
def viewCls (s : State) (n a : Nat) : Option Nat :=
  if a = Reg.CLS_V_SECTOR then
    let k := selGet s n Fld.CLS_SECTOR_SEL_SECTOR
    some (packed [(0, 17, sat 17 (SMap.getD s.cls.erases k 0)), (17, 1, b2n (sectorLocked s k)),
      (18, 1, b2n (s.cls.open_.contains k)), (20, 12, sat 12 (SMap.getD s.cls.corr k 0))])
  else
    match indexIn (Reg.CLS_LOCK 0) 4 512 a with
    | some i => some (SMap.getD s.cls.locks i 0)
    | none => none

/-- AGE: rated values and retention intervals of the selected die, and the refresh queue (R566, R567). -/
def viewAge (s : State) (n a : Nat) : Option Nat :=
  let die := selGet s n Fld.AGE_DIE_SEL_DIE
  if a = Reg.AGE_RET_STATUS then
    some (packed [(0, 24, sat 24 (s.med.copies.countP fun c => c.why == 3))] + rget s a / 16777216 * 16777216)
  else if a = Reg.AGE_V_RATED_QT then some (packed [(0, 16, sat 16 (ratedOf s die 2)), (16, 16, sat 16 (ratedOf s die 1))])
  else if a = Reg.AGE_V_RATED_S then some (packed [(0, 16, sat 16 (ratedOf s die 0))])
  else if a = Reg.AGE_V_RET then some (packed [(0, 9, retOf s die 2), (9, 9, retOf s die 1), (18, 9, retOf s die 0)])
  else none

/-- LKT: the ring, the indexes, the area and the freeze (R576–R583). -/
def viewLkt (s : State) (a : Nat) : Option Nat :=
  let l := s.lkt
  let old := lktOldest l
  if a = Reg.LKT_RING then some (packed [(0, 12, l.ring.length), (16, 12, (unflushed l).length)])
  else if a = Reg.LKT_NEXT_LO then some (l.next % 4294967296)
  else if a = Reg.LKT_NEXT_HI then some (l.next / 4294967296 % 65536)
  else if a = Reg.LKT_OLDEST_LO then some (old % 4294967296)
  else if a = Reg.LKT_OLDEST_HI then some (old / 4294967296 % 65536)
  else if a = Reg.LKT_FLUSHED_LO then some (l.flushed % 4294967296)
  else if a = Reg.LKT_FLUSHED_HI then some (l.flushed / 4294967296 % 65536)
  else if a = Reg.LKT_AREA then
    let seg := match l.area.find? fun e => match e.2 with | .record r => r.idx == old | _ => false with
      | some e => e.1 / segSlots
      | none => l.head / segSlots
    some (packed [(0, 7, l.head / segSlots), (8, 7, seg), (16, 7, segsAhead l), (24, 7, l.bad.length)])
  else if a = Reg.LKT_FREEZE then
    some (match l.freeze with
      | some f => packed [(0, 1, 1), (1, 8, l.side.length), (16, 9, min 511 ((f.endTime - now s + 999999999) / 1000000000))]
      | none => packed [(1, 8, l.side.length)])
  else none

/-- The content of a register as the state holds it elsewhere, for master number `n`; none where the register file holds it. -/
def viewOf (s : State) (n a : Nat) : Option Nat :=
  match blockOf a with
  | some 1 => (indexIn (Reg.QEN_IDLE_MS 0) 4 4 a).map (idleMs s)
  | some 2 => viewSlm s n a
  | some 3 => viewZone s a
  | some 4 => viewZone s a
  | some 5 => if a = Reg.PLC_ID then viewHalf s a else viewPlc s n a
  | some 6 => if a = Reg.DSC_ID then viewHalf s a else viewDsc s n a
  | some 7 => if a = Reg.LDC_ID then viewHalf s a else viewLdc s n a
  | some 8 => viewBpm s n a
  | some 9 => if a = Reg.DMC_CONFIG then some (rget s a % 65536 + 65536 * capGib (rget s a)) else none
  | some 11 => viewUmp s n a
  | some 13 => (indexIn (Reg.XTE_INST 0) 4 66 a).map fun i => rget s a % 16777216 + 16777216 * min 255 (xteLoad s i)
  | some 15 => viewKst s n a
  | some 19 =>
    if a = Reg.CLS_PW_STATE then some (rget s a % 32 + 32 * b2n (s.cls.pw == 0xFFFFFFFFFFFFFFFF)) else viewCls s n a
  | some 21 => viewAge s n a
  | some 22 => viewLkt s a
  | some 23 => viewAcm s a
  | some 26 => viewTmb s a
  | some 29 => viewChs s n ((a - 0x41000000) / 65536) a
  | _ => none

/-! ### Absent registers and interfaces of one pair -/

/-- The address belongs to a channel or to dies that the SLN-7632 does not have: reads 0, ignores writes (R3, R294, R331, R435). -/
def absentReg (s : State) (a : Nat) : Bool :=
  s.part.is7632 &&
  (decide (0x41200000 ≤ a ∧ a < 0x41400000) || decide (Reg.DSC_EST 1024 ≤ a ∧ a ≤ Reg.DSC_EST 2047) ||
   decide (Reg.LDC_STEP 1024 ≤ a ∧ a ≤ Reg.LDC_STEP 2047) || decide (Reg.UMP_DIE_TYPE 64 ≤ a ∧ a ≤ Reg.UMP_DIE_TYPE 127))

/-- The pair to which an interface register belongs (R388, R506, R591). -/
def pairOf (a : Nat) : Option Nat :=
  let at_ := fun (base stride : Nat) => if base ≤ a ∧ a < base + 8 * stride then some ((a - base) / stride) else none
  match blockOf a with
  | some 8 => at_ (Reg.BPM_FW_ALLOC 0) 0x20
  | some 16 => at_ (Reg.DGE_REQ_D 0 0) 0x80
  | some 17 => at_ (Reg.PKE_REQ_D_0 0) 0x20
  | some 22 => at_ (Reg.LKT_POST_CODE 0) 0x20
  | _ => none

/-- The interface register of one pair, accessed by another master or by a live register opcode. -/
def foreign (m : Master) (a : Nat) : Bool :=
  match pairOf a with
  | some p => !ownPair m p
  | none => false

/-! ### Reads -/

/-- The LO and HI addresses of the pairs whose LO read latches HI (R35). -/
def latchPairs : List (Nat × Nat) :=
  [(Reg.TMB_TIME_LO, Reg.TMB_TIME_HI), (Reg.TMB_CEIL_LO, Reg.TMB_CEIL_HI), (Reg.ACM_VIO_LAST_TIME_LO, Reg.ACM_VIO_LAST_TIME_HI),
    (Reg.SLM_EPOCH_LO, Reg.SLM_EPOCH_HI), (Reg.SLM_V_DMA_BASE_LO, Reg.SLM_V_DMA_BASE_HI),
    (Reg.SLM_V_DMA_LIMIT_LO, Reg.SLM_V_DMA_LIMIT_HI), (Reg.ZNE_ZD_BASE_LO, Reg.ZNE_ZD_BASE_HI),
    (Reg.ZNE_EXT_BASE_LO, Reg.ZNE_EXT_BASE_HI), (Reg.ZNE_STG_BASE_LO, Reg.ZNE_STG_BASE_HI),
    (Reg.ZNE_RESERVABLE_LO, Reg.ZNE_RESERVABLE_HI), (Reg.CMP_BASE_LO, Reg.CMP_BASE_HI), (Reg.CMP_SEQ_LO, Reg.CMP_SEQ_HI),
    (Reg.PLC_DECISIONS_LO, Reg.PLC_DECISIONS_HI), (Reg.PLC_V_MASK_LO, Reg.PLC_V_MASK_HI),
    (Reg.LDC_MED_EXPORT_LO, Reg.LDC_MED_EXPORT_HI), (Reg.BPM_AUDIT_TIME_LO, Reg.BPM_AUDIT_TIME_HI), (Reg.DMC_TOP_LO, Reg.DMC_TOP_HI),
    (Reg.MEP_SCRUB_POS_LO, Reg.MEP_SCRUB_POS_HI), (Reg.MEP_LAST_ADDR_LO, Reg.MEP_LAST_ADDR_HI)] ++
  [(Reg.SGD_TEST_TIME_LO, Reg.SGD_TEST_TIME_HI), (Reg.SGN_NEWEST_LO, Reg.SGN_NEWEST_HI), (Reg.SGN_OLDEST_LO, Reg.SGN_OLDEST_HI),
    (Reg.BOT_UCODE_SHADOW_LO, Reg.BOT_UCODE_SHADOW_HI), (Reg.AGE_PLAN_TIME_LO, Reg.AGE_PLAN_TIME_HI), (Reg.LKT_NEXT_LO, Reg.LKT_NEXT_HI),
    (Reg.LKT_OLDEST_LO, Reg.LKT_OLDEST_HI), (Reg.LKT_FLUSHED_LO, Reg.LKT_FLUSHED_HI)]

/-- The HI half that a read of `a` latches. -/
def latchOf (a : Nat) : Option Nat := (latchPairs.find? fun e => e.1 == a).map (·.2)

/-- `a` is a latched HI half. -/
def isLatched (a : Nat) : Bool := latchPairs.any fun e => e.2 == a

/-- The key of a latched half: of the register, or of the master where the register shows the master's own view (R187). -/
def latchKey (n a : Nat) : Nat := if blockOf a = some 2 && a != Reg.SLM_EPOCH_HI || blockOf a = some 5 && a == Reg.PLC_V_MASK_HI
  then (n + 1) * 4294967296 + a else a

/-- The current content of a register, latches aside, as a read by master number `n` returns it (R16, R20). -/
def regContent (s : State) (n a : Nat) : Nat :=
  match regAt a with
  | some (r, _) =>
    if absentReg s a then 0
    else if perMaster a then (regReadWord r (selWord s n a)).toNat
    else
      match viewOf s n a with
      | some v => v
      | none => (regReadWord r (RegFile.get s.regs a)).toNat
  | none => 0

/-- A HI half that no LO read has latched: the recorder's indexes come from the Clasp area, a writable half reads what was written,
and the others read their reset value. -/
def unlatched (s : State) (n a : Nat) : Nat :=
  match regAt a with
  | some (r, _) =>
    if blockOf a = some 22 ∨ r.fields.any (fun f => f.acc == .rwl) then regContent s n a else (regReset a).toNat
  | none => 0

/-- Progress of a running self-test is shown as an open value (R158). -/
def readProgress (s : State) (v : Nat) : Nat × State :=
  if s.hst.dst.st = 0 then (v, s) else (v % 4 + 4 * (openVal s % 101) + v / 512 * 512, openTaken s)

/-- A read that is admitted: its value, and the latch it sets (R35). -/
def readAt (s : State) (m : Master) (a : Nat) : Nat × State :=
  let n := masterNo m
  if foreign m a then (0, s)
  else if isLatched a then
    (match SMap.find s.latch (latchKey n a) with | some v => v | none => unlatched s n a, s)
  else
    let v := regContent s n a
    match latchOf a with
    | some h => (v, { s with latch := SMap.put s.latch (latchKey n h) (regContent s n h) })
    | none => if a = Reg.QEN_DST then readProgress s v else (v, s)

/-- The answer of one access: status, value, BLIND. -/
abbrev FabAns := Nat × Nat × Bool

/-! ### The memories of the fabric (R33, R363, R367, R391, R505) -/

/-- The key of a fabric address in a memory. -/
def memKey (s : State) (a : Nat) : Nat := if 0x30000000 ≤ a then 1099511627776 + apertureAddr s a else a

/-- The bytes at a fabric address of a memory. -/
def memBytes (s : State) (a n : Nat) : List Byte :=
  if a < 0x40000 then (List.range n).map fun i => Config.romByte (a + i)
  else (List.range n).map fun i => memByte s (memKey s a + i)

/-- A core pair's access to the slab reaches no buffer that the pair does not hold (R367): VIO_DMA_WINDOW. -/
def slabBarred (s : State) (m : Master) (a n : Nat) : Bool :=
  decide (0x20000000 ≤ a ∧ a < 0x30000000) && !slabHeld s (midOf m) (a - 0x20000000) n

/-- A write to the microcode shadow after BOOT_CLOSE: VIO_DMA_WINDOW, and nothing is written (R541). -/
def shadowBarred (s : State) (a n : Nat) : Bool :=
  decide (0x30000000 ≤ a) && !fone s Fld.DGE_LATCH_BOOT_OPEN && inShadow s (apertureAddr s a) n

/-- The protected word that holds a fabric address is read: its error, or none (R403–R406). -/
def wordLook (s : State) (a : Nat) : Nat × State :=
  if 0x30000000 ≤ a then
    let r := dramLook s (apertureAddr s a) ⟨[], .plain⟩
    (if r.1 then ST_OK else ST_DRAM_UE, r.2)
  else if a < 0x40000 then (ST_OK, s)
  else
    let slab := decide (0x20000000 ≤ a)
    let p := (a - 0x10000000) / 0x80000
    let r := sramLook s (if slab then 0 else 2 + p) (if slab then a - 0x20000000 else a % 0x80000)
      ⟨[], if slab then .plain else .tcm ⟨p % 8, Nat.mod_lt _ (by decide)⟩⟩
    (if r.1 then ST_OK else ST_SRAM_UE, r.2)

/-- The words of the `n` bytes at a fabric address are read. -/
def wordsLook (s : State) (a n : Nat) : Nat × State :=
  let r := wordLook s a
  if r.1 = ST_OK ∧ a / 8 ≠ (a + n - 1) / 8 then wordLook r.2 (a + n - 1) else r

/-- The words of the `n` bytes at a fabric address are written. -/
def wordsPut (s : State) (a n : Nat) : State :=
  if 0x30000000 ≤ a then dramWrote s (apertureAddr s a) n
  else if 0x20000000 ≤ a then sramWrote s 0 (a - 0x20000000) n
  else sramWrote s (2 + (a - 0x10000000) / 0x80000) (a % 0x80000) n

/-- A read of `n` bytes that reaches a memory. -/
def memRead (s : State) (m : Master) (a n : Nat) : FabAns × State :=
  if slabBarred s m a n then ((ST_DENIED, 0, false), raiseVio s 1 8 (midOf m) a)
  else
    let r := wordsLook s a n
    ((r.1, if r.1 = ST_OK then leNat (memBytes s a n) else 0, false), r.2)

/-- A write of `n` bytes is a whole SRAM word, which is not read first. -/
def wholeWord (a n : Nat) : Bool := decide (a < 0x30000000 ∧ a % 8 = 0 ∧ n = 8)

/-- A write of `n` bytes that reaches a memory: a word written in part is read, merged and written; one that is uncorrectable is not
(R403, R406). -/
def memWrite (s : State) (m : Master) (a n v : Nat) : FabAns × State :=
  if slabBarred s m a n then ((ST_DENIED, 0, false), raiseVio s 1 8 (midOf m) a)
  else if shadowBarred s a n then ((ST_DENIED, 0, false), raiseVio s 1 9 (midOf m) a)
  else
    let r := if wholeWord a n then (ST_OK, s) else wordsLook s a n
    ((r.1, 0, false), if r.1 = ST_OK then memPut (wordsPut r.2 a n) (memKey s a) (le n v) else r.2)

/-- A read by master `m` that counts as made by `w` (R34, R71, R73, R97). -/
def readBy (s : State) (m : Master) (w : Who) (a : Nat) (n : Nat := 4) : FabAns × State :=
  match decideRead s w a n with
  | .memory => memRead s m a n
  | .denied => ((ST_DENIED, 0, false), s)
  | .blinded => ((ST_OK, 0, true), s)
  | .admitted mask =>
    let r := readAt s m a
    ((ST_OK, (r.1 ||| mask) ^^^ mask, mask != 0), r.2)
  | .error => ((ST_FABRIC_ERROR, 0, false), fabError s (midOf m) a)

/-- A read of `n` bytes: of a register, where the LO half of a pair latches the other, or of a memory (R33, R35). -/
def execLatchedLoRead (m : Master) (a n : Nat) (s : State) : Out :=
  let r := readBy s m (whoOf s m) a n
  .next (fabAnswer r.2 r.1.1 r.1.2.1 r.1.2.2)

/-! ### Writes with an effect of their own -/

/-- Setting LOCK freezes the matrix, counts its valid entries and measures them (R70; that the digest covers the valid entries alone:
DESIGN CHOICE, notes/assumptions/47.md). -/
def matrixLock (s : State) : State :=
  if fone s Fld.ACM_CTRL_LOCK then s
  else
    let d := Config.sha384 (s.acm.matrix.flatMap fun e => (matWords e).flatMap (le 4))
    let s := { s with acm := { s.acm with digest := d } }
    putBytes (fon (fset s Fld.ACM_MATRIX_COUNT_VALID s.acm.matrix.length) Fld.ACM_CTRL_LOCK) Reg.ACM_MATRIX_DIGEST 12 d

/-- A write of ACM_CTRL. -/
def wrAcmCtrl (s : State) (v : Word) : State :=
  let f := genWrite s Reg.ACM_CTRL (v &&& 2)
  if bit v.toNat 0 then matrixLock f else f

def execAcmLock (m : Master) (s : State) : Out := .next (gated s m Reg.ACM_CTRL matrixLock)

/-- HPT_CTRL: TRAIN_EN lets present ports leave Detect.Quiet; bits of absent ports are ignored (R52). -/
def wrHptCtrl (s : State) (v : Word) : State :=
  let s := genWrite s Reg.HPT_CTRL (v &&& BitVec.ofNat 32 (0x1F0 + portMask s.part.cfg))
  let go := fun (p : Nat) (x : Port) => if fbit s Fld.HPT_CTRL_TRAIN_EN p && !x.perst then { x with quiet := false } else x
  { s with hst := { s.hst with ports := SMap.mapv s.hst.ports go } }

/-- QEN_CTX_RESERVE: the four fields sum to at most 131,072 and each holds at least 64 (R136). -/
def wrCtxReserve (s : State) (a : Nat) (v : Word) : State :=
  let t := genWrite s a v
  let l := (List.range 4).map (ctxReserve t)
  if l.any (fun r => decide (r < 64)) || decide (131072 < l.foldl (· + ·) 0) then s else t

/-- CMP_REGION: a value below what is allocated is ignored. -/
def wrCmpRegion (s : State) (v : Word) : State :=
  let t := genWrite s Reg.CMP_REGION v
  if fget t Fld.CMP_REGION_UNITS < (nsRanges s false).foldl (fun k u => k + u.2) 0 ∨ 67108864 < bits v.toNat 0 27 then s else t

/-- BPM_POOL_k: only while EN is 0, and only counts that the slab holds; the bases follow (R364). -/
def wrBpmPool (s : State) (a : Nat) (v : Word) : State :=
  let t := genWrite s a v
  let size := fun (k : Nat) => poolCount t k * poolStride k
  if fone s Fld.BPM_CTRL_EN ∨ 63 * 1048576 < size 0 + size 1 + size 2 + size 3 then s
  else
    let r := (List.range 4).foldl (fun (r : State × Nat) k => (fset r.1 (Fld.BPM_BASE_OFFSET k) r.2, r.2 + size k)) (t, 0)
    bpUpdate r.1

/-- BPM_BP: the thresholds keep T3 > T2 > T1 ≥ 1. -/
def wrBpmBp (s : State) (v : Word) : State :=
  let t := genWrite s Reg.BPM_BP v
  if fget t Fld.BPM_BP_T2_PCT < fget t Fld.BPM_BP_T3_PCT ∧ fget t Fld.BPM_BP_T1_PCT < fget t Fld.BPM_BP_T2_PCT ∧
     1 ≤ fget t Fld.BPM_BP_T1_PCT then bpUpdate t
  else s

/-- The firmware interface of pair `p` (R388). -/
def wrBpmFw (s : State) (p a : Nat) (v : Word) : State :=
  let n := v.toNat
  let o := (a - Reg.BPM_FW_ALLOC 0) % 0x20
  if o = 0x00 then bufRequest s (midPair p) (bits n 0 17) (bits n 21 11) (bits n 17 2) (bit n 19) (bit n 20)
  else if o = 0x0C then fwShow (bufFree' s (midPair p) n) (midPair p) false
  else if o = 0x14 then fwShow (bufHandover s (midPair p) n (fget s (Fld.BPM_FW_TARGET_MASTER_ID p))) (midPair p) false
  else genWrite s a v

/-- DMC_CONFIG: a write that describes a configuration R389 does not permit is ignored. -/
def wrDmcConfig (s : State) (v : Word) : State :=
  let t := genWrite s Reg.DMC_CONFIG v
  let w := rget t Reg.DMC_CONFIG
  let fits := (bits w 0 4 == 3 || bits w 0 4 == 15) && bits w 6 2 != 3 && decide (32 ≤ capGib w ∧ capGib w ≤ 128)
  if fits then fset (fset t Fld.DMC_CONFIG_CAP_GIB (capGib w)) Fld.MEP_ID_CODE (b2n (bit w 4)) else s

/-- DMC_RATE_k: a rate that R390 does not name is ignored, and above 6,400 MT/s with two ranks; 0 leaves the point unused. -/
def wrDmcRate (s : State) (a : Nat) (v : Word) : State :=
  let r := bits v.toNat 0 7
  if [0, 32, 40, 48, 56, 64, 72, 80].contains r ∧ (fone s Fld.DMC_CONFIG_RANKS → r ≤ 64) then genWrite s a v else s

/-- UMP_BUDGET acts as UMP_SET_BUDGET (R434). -/
def wrUmpBudget (s : State) (v : Word) : State := (umpSetBudget (bits v.toNat 0 10) s).2

/-- UMP_PP_CTRL: its limits act as UMP_SET_PP_LIMIT (R434). -/
def wrUmpPp (s : State) (v : Word) : State :=
  let core := bits v.toNat 8 7
  let s := if isLocked s Reg.UMP_PP_CTRL then s else fset s Fld.UMP_PP_CTRL_CORE_PCT core
  (umpSetPpLimit (bits v.toNat 0 3) (bits v.toNat 4 3) s).2

/-- SGD_VTH_A, _B and _C keep the order FAIL < BROWN < SAG < RESTART < SURGE (R438). -/
def wrSgdVth (s : State) (a : Nat) (v : Word) : State :=
  let t := genWrite s a v
  if fget t Fld.SGD_VTH_B_FAIL < fget t Fld.SGD_VTH_A_BROWN ∧ fget t Fld.SGD_VTH_A_BROWN < fget t Fld.SGD_VTH_A_SAG ∧
     fget t Fld.SGD_VTH_A_SAG < fget t Fld.SGD_VTH_C_RESTART ∧ fget t Fld.SGD_VTH_C_RESTART < fget t Fld.SGD_VTH_B_SURGE then t
  else s

/-- Registers of SGD that the dirty limit is computed from (R444). -/
def limitReg (a : Nat) : Bool :=
  [Reg.SGD_HU_CFG, Reg.SGD_HU_VMIN, Reg.SGD_HU_CAP, Reg.SGD_ENERGY_CFG, Reg.SGD_DIRTY, Reg.SGD_TEST_CFG].contains a

/-- MBX_BIND: a binding takes effect only under R103, as SLICE_BIND_CHANNEL would make it. -/
def wrMbxBind (s : State) (c : Nat) (v : Word) : State :=
  let bnd := bit v.toNat 15
  let n := if bnd then bits v.toNat 0 10 else (match chanSlice s c with | some k => k | none => 0)
  (bindChannel (le 2 n ++ le 1 (c / 8) ++ le 1 (c % 8) ++ le 1 (b2n bnd) ++ zeros 3) s).2

/-- FCX_FAULT: clearing a pair's watchdog bit is the reset that R89 asks of a carded pair (DESIGN CHOICE, notes/assumptions/49.md). -/
def wrFcxFault (s : State) (v : Word) : State :=
  let s := genWrite s Reg.FCX_FAULT v
  (List.range 8).foldl (fun s p => if v.toNat.testBit (8 + p) then cardReset s (midPair p) else s) s

/-- Clearing a block's EN resets its carded engine instances (R89; DESIGN CHOICE, notes/assumptions/49.md). -/
def engineReset (s t : State) (en : Field) (typ count : Nat) : State :=
  if fone s en && !fone t en then (List.range count).foldl (fun t i => cardReset t (typ * 16777216 + i)) t else t

/-- CHS_SEQ_BLOCK and CHS_SEQ_NEXT load the selected sequence-table entry while PROG_EN is 0 (R344). -/
def wrSeqTable (s : State) (n ch a : Nat) (v : Word) : State :=
  if fone s (Fld.CHS_CTRL_PROG_EN ch) then s
  else
    let key := selGet s n (Fld.CHS_DIE_SEL_DIE ch) * 64 + selGet s n (Fld.CHS_SEQ_SEL_ENTRY ch)
    let c := chsOf s ch
    let used := (SMap.find c.seq key).isSome
    let old := ((SMap.find c.seq key) <|> (SMap.find c.seqIdle key)).getD { block := 0, mode := 0, next := 0 }
    let w := v.toNat
    let put := fun (on : Bool) (e : SeqEnt) =>
      if on then chsPut s ch { c with seq := SMap.put c.seq key e, seqIdle := SMap.del c.seqIdle key }
      else chsPut s ch { c with seq := SMap.del c.seq key, seqIdle := SMap.put c.seqIdle key e }
    if windowOff a = 0xE8 then put used { old with next := bits w 0 13, mode := bits w 13 2 }
    else put (bit w 31) { old with block := bits w 0 19 }

/-- The registers of a channel sequencer. -/
def wrChs (s : State) (n ch a : Nat) (v : Word) : State :=
  let o := windowOff a
  if o = 0x04 then
    let t := genWrite s a v
    if bit v.toNat 2 then seqReset t ch else t
  else if o = 0x10 then
    let t := genWrite s a v
    fset t (Fld.CHS_BURST_MAX_BURST ch) (clamp 512 16384 (fget t (Fld.CHS_BURST_MAX_BURST ch)))
  else if o = 0xE4 ∨ o = 0xE8 then wrSeqTable s n ch a v
  else if 0x100 ≤ o ∧ o < 0x140 then (if fone s Fld.DSC_CTRL_EN then s else genWrite s a v)
  else if o = 0x140 then wrPostGo s ch v
  else genWrite s a v

/-- The Clasp store's registers. -/
def wrCls (s : State) (m : Master) (a : Nat) (v : Word) : State :=
  if a = Reg.CLS_POST_GO then (if bit v.toNat 0 then clsPost s m else s)
  else if perMaster a then selWrite s (masterNo m) a v
  else if a = Reg.CLS_RELEASE then clsRelease s m v.toNat
  else if a = Reg.CLS_CR_CTRL then wrCrCtrl s m v
  else genWrite s a v

/-- The digest engine's registers. -/
def wrDge (s : State) (m : Master) (a : Nat) (v : Word) : State :=
  if a = Reg.DGE_LATCH then wrLatch s v
  else if a = Reg.DGE_SNOOP_CTRL then wrSnoopCtrl s m v
  else if a = Reg.DGE_CTRL then dgeFill 24 (engineReset s (genWrite s a v) Fld.DGE_CTRL_EN 8 2)
  else
    match pairOf a with
    | some p => if a = Reg.DGE_REQ_GO p then (if bit v.toNat 0 then dgePost s p else s) else genWrite s a v
    | none => genWrite s a v

/-- The public-key engine's registers. -/
def wrPke (s : State) (a : Nat) (v : Word) : State :=
  if a = Reg.PKE_CTRL then engineReset s (genWrite s a v) Fld.PKE_CTRL_EN 9 1
  else
    match pairOf a with
    | some p => if a = Reg.PKE_REQ_GO p then (if bit v.toNat 0 then pkePost s p else s) else genWrite s a v
    | none => genWrite s a v

/-- The buffer pool manager's registers. -/
def wrBpm (s : State) (m : Master) (a : Nat) (v : Word) : State :=
  if a = Reg.BPM_CTRL then
    let t := genWrite s a v
    if bit v.toNat 2 then minClear t else t
  else if a = Reg.BPM_BP then wrBpmBp s v
  else
    match indexIn (Reg.BPM_POOL 0) 4 4 a with
    | some _ => wrBpmPool s a v
    | none =>
      match indexIn (Reg.BPM_V_QUOTA 0) 4 4 a with
      | some k => quotaWrite s (selGet s (masterNo m) Fld.BPM_ACCT_SEL_ACCOUNT) k (bits v.toNat 0 16) (bits v.toNat 16 16)
      | none =>
        match pairOf a with
        | some p => wrBpmFw s p a v
        | none => genWrite s a v

/-- The DRAM controller's registers. -/
def wrDmc (s : State) (a : Nat) (v : Word) : State :=
  if a = Reg.DMC_CTRL then wrDmcCtrl s v
  else if a = Reg.DMC_CONFIG then wrDmcConfig s v
  else if a = Reg.DMC_SPEED_REQ then wrSpeedReq s v
  else if a = Reg.DMC_GATHER_CTRL then wrGatherCtrl s v
  else if (indexIn (Reg.DMC_RATE 0) 4 4 a).isSome then wrDmcRate s a v
  else genWrite s a v

/-- The supply guard's registers. -/
def wrSgd (s : State) (a : Nat) (v : Word) : State :=
  if a = Reg.SGD_DIRTY_MIN then wrDirtyMin s v
  else if a = Reg.SGD_TEST_CTRL then wrTestCtrl s v
  else if a = Reg.SGD_VTH_A ∨ a = Reg.SGD_VTH_B ∨ a = Reg.SGD_VTH_C then wrSgdVth s a v
  else if limitReg a then limitSet (genWrite s a v)
  else genWrite s a v

/-- The slice manager's registers (R188). -/
def wrSlm (s : State) (m : Master) (a : Nat) (v : Word) : State :=
  if a = Reg.SLM_V_SHARE_NEXT then shareStage s m false v
  else if a = Reg.SLM_V_BW_CAP then shareStage s m true v
  else if a = Reg.SLM_V_RESET then wrSliceReset s m v
  else genWrite s a v

/-- The boot block's registers; the shadow's address is frozen at BOOT_CLOSE. -/
def wrBot (s : State) (a : Nat) (v : Word) : State :=
  if a = Reg.BOT_CTRL then wrBotCtrl s v
  else if a = Reg.BOT_FUSE_ADV then wrFuseAdv s v
  else if a = Reg.BOT_UCODE_CTRL then wrUcodeCtrl s v
  else if (a = Reg.BOT_UCODE_SHADOW_LO ∨ a = Reg.BOT_UCODE_SHADOW_HI) ∧ !fone s Fld.DGE_LATCH_BOOT_OPEN then s
  else genWrite s a v

/-- The access matrix block's registers; ACM_ACT_AS_p is written only by pair `p` itself. -/
def wrAcm (s : State) (m : Master) (a : Nat) (v : Word) : State :=
  if a = Reg.ACM_CTRL then wrAcmCtrl s v
  else if a = Reg.ACM_CARD_QUERY then cardQuery (genWrite s a v) v.toNat
  else
    match indexIn (Reg.ACM_ACT_AS 0) 4 8 a with
    | some p => if ownPair m p then genWrite s a v else s
    | none => genWrite s a v

/-- CORR of a die's estimate is held to 16 to 255 (R294). -/
def corrHold (s : State) (a : Nat) : State :=
  match indexIn (Reg.DSC_EST 0) 4 2048 a with
  | some d => fset s (Fld.DSC_EST_CORR d) (clamp 16 255 (fget s (Fld.DSC_EST_CORR d)))
  | none => s

/-- What an admitted write does (R16–R20). A write to a HI half drops what was latched of it. -/
def writeAt (s : State) (m : Master) (a : Nat) (v : Word) : State :=
  let n := masterNo m
  if absentReg s a || foreign m a then s
  else if perMaster a && blockOf a != some 19 then selWrite s n a v
  else
    match blockOf a with
    | some 0 => if a = Reg.HPT_CTRL then wrHptCtrl s v else genWrite s a v
    | some 1 => if (indexIn (Reg.QEN_CTX_RESERVE 0) 4 4 a).isSome then wrCtxReserve s a v else genWrite s a v
    | some 2 => wrSlm s m a v
    | some 4 => if a = Reg.CMP_REGION then wrCmpRegion s v else genWrite s a v
    | some 5 => match indexIn (Reg.PLC_GRP_HOLD 0) 4 4 a with | some i => wrGrpHold s i v | none => genWrite s a v
    | some 6 => if a = Reg.DSC_LAT_SEL then wrLatSel s v else corrHold (genWrite s a v) a
    | some 7 => if a = Reg.LDC_CTRL then engineReset s (genWrite s a v) Fld.LDC_CTRL_EN 7 128 else genWrite s a v
    | some 8 => wrBpm s m a v
    | some 9 => wrDmc s a v
    | some 10 => if a = Reg.MEP_INJ_CTRL then wrInjCtrl s v else genWrite s a v
    | some 11 => if a = Reg.UMP_BUDGET then wrUmpBudget s v else if a = Reg.UMP_PP_CTRL then wrUmpPp s v else genWrite s a v
    | some 12 => wrSgd s a v
    | some 13 => if a = Reg.XTE_CTRL then engineReset s (genWrite s a v) Fld.XTE_CTRL_EN 5 66 else genWrite s a v
    | some 14 => if a = Reg.PVE_CTRL then engineReset s (genWrite s a v) Fld.PVE_CTRL_EN 6 2 else genWrite s a v
    | some 16 => wrDge s m a v
    | some 17 => wrPke s a v
    | some 18 => if a = Reg.SGN_APPEND then wrSgnAppend s m v else genWrite s a v
    | some 19 => wrCls s m a v
    | some 20 => wrBot s a v
    | some 22 =>
      match pairOf a with
      | some p => if a = Reg.LKT_POST_GO p then (if bit v.toNat 0 then wrPostGoLkt s m p else s) else genWrite s a v
      | none => genWrite s a v
    | some 23 => wrAcm s m a v
    | some 24 => match indexIn (Reg.MBX_BIND 0 0) 4 32 a with | some c => wrMbxBind s c v | none => genWrite s a v
    | some 25 => if a = Reg.FCX_FAULT then wrFcxFault s v else genWrite s a v
    | some 29 => wrChs s n ((a - 0x41000000) / 65536) a v
    | _ => genWrite s a v

/-- A written HI half reads what was written until the next LO read latches it anew. -/
def unlatch (s : State) (n a : Nat) : State :=
  if isLatched a then { s with latch := SMap.del s.latch (latchKey n a) } else s

/-- A write by master `m` that counts as made by `w` (R34, R72, R97). -/
def writeBy (s : State) (m : Master) (w : Who) (a : Nat) (v : Word) (n : Nat := 4) : FabAns × State :=
  match decideWrite s w a n with
  | .memory => memWrite s m a n v.toNat
  | .admitted _ => ((ST_OK, 0, false), unlatch (writeAt s m a v) (masterNo m) a)
  | .error => ((ST_FABRIC_ERROR, 0, false), fabError s (midOf m) a)
  | _ => ((ST_DENIED, 0, false), s)

/-- A write of `n` bytes: of a register, or of a memory (R16, R17, R33). -/
def execRegisterWrite (m : Master) (a : Nat) (v : Word) (n : Nat) (s : State) : Out :=
  let r := writeBy s m (writerOf s m a) a v n
  .next (fabAnswer r.2 r.1.1 r.1.2.1 r.1.2.2)

/-! ### The register opcodes (R119) -/

/-- The master of a register opcode: its channel, or the sideband endpoint. -/
def rqMaster (ch : Nat) : Master := if h : ch < 32 then .chan ⟨ch, h⟩ else .sideband

/-- The entries of REG_READ, in payload order. -/
def regReads (m : Master) (w : Who) : List Nat → State → List FabAns × State
  | [], s => ([], s)
  | a :: l, s =>
    let r := readBy s m w a
    let t := regReads m w l r.2
    (r.1 :: t.1, t.2)

/-- The entries of REG_WRITE, in payload order. -/
def regWrites (m : Master) (w : Who) : List (Nat × Nat) → State → List FabAns × State
  | [], s => ([], s)
  | e :: l, s =>
    let r := writeBy s m w e.1 (BitVec.ofNat 32 e.2)
    let t := regWrites m w l r.2
    (r.1 :: t.1, t.2)

/-- The layout of a register request: a count of 1–256 and as many entries. -/
def regLayout (size : Nat) (p : List Byte) : Bool :=
  decide (1 ≤ u16 p 0 ∧ u16 p 0 ≤ 256) && p.length == 4 + size * u16 p 0

/-- REG_READ. -/
def regReadDef : OpDef :=
  { opc := 0x0101, hw := true, limit := 4064, start := fun _ _ _ _ => ST_OK, layout := regLayout 4,
    work := fun _ c p s =>
      let addrs := (List.range (u16 p 0)).map fun i => u32 p (4 + 4 * i)
      let r := regReads (rqMaster c.ch) (.cls c.cls) addrs s
      let ents := r.1.flatMap fun e => le 2 e.1 ++ le 2 (b2n e.2.2) ++ le 4 (if e.1 = ST_OK then e.2.1 else 0)
      (some { st := ST_OK, pay := le 2 (u16 p 0) ++ zeros 2 ++ ents, blind := r.1.any fun e => e.2.2 }, r.2) }

/-- REG_WRITE. -/
def regWriteDef : OpDef :=
  { opc := 0x0102, hw := true, limit := 4064, start := fun _ _ _ _ => ST_OK, layout := regLayout 8,
    work := fun _ c p s =>
      let ents := (List.range (u16 p 0)).map fun i => (u32 p (4 + 8 * i), u32 p (8 + 8 * i))
      let r := regWrites (rqMaster c.ch) (.cls c.cls) ents s
      (some (ansOk (le 2 (u16 p 0) ++ zeros 2 ++ r.1.flatMap fun e => le 2 e.1 ++ zeros 2)), r.2) }

def execRegRead (r : Rq) (s : State) : Out := .next (mbxRun regReadDef r s)

def execRegWrite (r : Rq) (s : State) : Out := .next (mbxRun regWriteDef r s)

end Sys2Proof.Machine
end

