-- ==== Sys2Proof/Machine/Doorbell.lean ====
section
/-! DEFINITION. The doorbell word of a channel's window: a write that leaves GO set there posts the request that the window then holds
(R98–R100, R120). -/
namespace Sys2Proof.Machine
open Sys2Proof

/-! ### The opcodes by group (R120) -/

/-- Groups 0x00 and 0x01. -/
def postGeneral (opc : Nat) (r : Rq) (s : State) : Out :=
  if opc = 0x0001 then execGetIdentity r s
  else if opc = 0x0002 then execGetCaps r s
  else if opc = 0x0003 then execGetOpcodes r s
  else if opc = 0x0004 then execGetSession r s
  else if opc = 0x0005 then execGetHealth r s
  else if opc = 0x0101 then execRegRead r s
  else execRegWrite r s

/-- Group 0x02; binding and unbinding are one opcode each. -/
def postSlices (opc : Nat) (r : Rq) (s : State) : Out :=
  if opc = 0x0201 then execSliceCreate r s
  else if opc = 0x0202 then execSliceDelete r s
  else if opc = 0x0203 then execSliceBindPort r s
  else if opc = 0x0204 then execSliceSetShares r s
  else if opc = 0x0205 then execSliceReset r s
  else if opc = 0x0206 then execSliceQuery r s
  else if opc = 0x0207 then execSliceBindChannel r s
  else if opc = 0x0208 then execNsCreate r s
  else execNsDelete r s

/-- Groups 0x03 and 0x04. -/
def postPlacing (opc : Nat) (r : Rq) (s : State) : Out :=
  if opc = 0x0301 then execClassRead r s
  else if opc = 0x0302 then execClassWrite r s
  else if opc = 0x0303 then execClassMaskSet r s
  else if opc = 0x0304 then execPlacementStatus r s
  else if opc = 0x0401 then execUmpStatus r s
  else if opc = 0x0402 then execUmpSetBudget r s
  else execUmpSetPpLimit r s

/-- Group 0x05; the source of a new generation is a field of KEY_REWRITE. -/
def postKeys (opc : Nat) (r : Rq) (s : State) : Out :=
  if opc = 0x0501 then execKeyMapRead r s
  else if opc = 0x0502 then execKeyGenerate r s
  else if opc = 0x0503 then execKeyImport r s
  else if opc = 0x0504 then execKeyBind r s
  else if opc = 0x0505 then execKeyRewriteDrbg r s
  else if opc = 0x0506 then execKeyZeroise r s
  else if opc = 0x0507 then execNsCryptoErase r s
  else if opc = 0x0508 then execMgrAnchorWrite r s
  else execOfcAnchorWrite r s

/-- Groups 0x06 and 0x07. -/
def postLedgers (opc : Nat) (r : Rq) (s : State) : Out :=
  if opc = 0x0601 then execSignetInfo r s
  else if opc = 0x0602 then execSignetRead r s
  else if opc = 0x0603 then execSignetChain r s
  else if opc = 0x0701 then execLocketInfo r s
  else if opc = 0x0702 then execLocketRead r s
  else if opc = 0x0703 then execLocketFreeze r s
  else execLocketThaw r s

/-- Group 0x08; the commit action is a field of FW_COMMIT. -/
def postImages (opc : Nat) (r : Rq) (s : State) : Out :=
  if opc = 0x0801 then execFwSlotInfo r s
  else if opc = 0x0802 then execFwDownload r s
  else if opc = 0x0803 then execFwCommitStore r s
  else if opc = 0x0804 then execFwInbandEnable r s
  else if opc = 0x0805 then execUcodeLoad r s
  else if opc = 0x0806 then execSettingsRead r s
  else execSettingsWrite r s

/-- Groups 0x09 to 0x0B. -/
def postService (opc : Nat) (r : Rq) (s : State) : Out :=
  if opc = 0x0901 then execAgeSummary r s
  else if opc = 0x0902 then execAgeReport r s
  else if opc = 0x0903 then execAgePlanNow r s
  else if opc = 0x0A01 then execSelftestStartShort r s
  else if opc = 0x0A02 then execSelftestStatus r s
  else if opc = 0x0A03 then execSelftestAbort r s
  else if opc = 0x0A04 then execDiagCounters r s
  else if opc = 0x0A05 then execHoldupTestStart r s
  else if opc = 0x0B01 then execCardRelease r s
  else execCardList r s

/-- The request of an opcode. -/
def postOp (opc : Nat) (r : Rq) (s : State) : Out :=
  if !opcKnown opc then execMailboxUnknownOpcode opc r s
  else if opc < 0x0200 then postGeneral opc r s
  else if opc < 0x0300 then postSlices opc r s
  else if opc < 0x0500 then postPlacing opc r s
  else if opc < 0x0600 then postKeys opc r s
  else if opc < 0x0800 then postLedgers opc r s
  else if opc < 0x0900 then postImages opc r s
  else postService opc r s

/-! ### The doorbell word (R99, R104) -/

/-- What AES-256-GCM gives for the secured record in a window, under the request key of the session it names (R104). -/
def windowOpened (s : State) (win : List Byte) : Option (List Byte) :=
  match SMap.find s.spdm.sessions (u32 win 12) with
  | some x =>
    let key := sessionKey s x 0
    let rec_ := slice win 32 (u32 win 8)
    match Config.gcmDec (key.take 32) (Config.sessionIv key x.seqIn) (recordAad (u16 win 0) (u32 win 4) (u32 win 8) (u32 win 12))
        (rec_.drop 14) with
    | some p => if u16 p 0 + 2 = p.length then some (p.drop 2) else none
    | none => none
  | none => none

/-- The request that a channel's window holds; its payload stands there already. -/
def windowRq (s : State) (ch : Fin 32) : Rq :=
  let win := (chanGet s ch.val).win
  { ch := ch.castLE (by decide), flags := BitVec.ofNat 16 (u16 win 2), tag := BitVec.ofNat 32 (u32 win 4), plen := u32 win 8,
    session := u32 win 12, payload := [], opened := windowOpened s win }

/-- A write touched the doorbell word and has left GO set. -/
def doorbellRung (s : State) (ch off : Nat) (b : List Byte) : Bool :=
  decide (off < 4) && !b.isEmpty && (u16 (chanGet s ch).win 2).testBit 0

/-- A host write into a window: every byte is stored; then the request is posted when the doorbell word has GO set (R99). While the
port's channels are not enabled, the write that would set GO is discarded and counted, and stores nothing (R100). -/
def execMailboxPayloadWrite (ch : Fin 32) (off : Nat) (bytes : List Byte) (s : State) : Out :=
  if !chanReach s ch.val || decide (4096 ≤ off) then .next s
  else
    let t := hostWrite s ch.val off bytes
    if !(chanGet s ch.val).go && doorbellRung t ch.val off bytes then
      if !fbit s Fld.MBX_CTRL_PORT_EN (ch.val / 8) then .next (finc s (Fld.MBX_COUNT_COUNT 3)) else postOp (u16 (chanGet t ch.val).win 0) (windowRq t ch) t else .next t

end Sys2Proof.Machine
end

