-- ==== Sys2Proof/Machine/Dispatch.lean ====
section
/-! DEFINITION. The meaning of each command: one arm per constructor, one direct call of its meaning. -/
namespace Sys2Proof.Machine
open Sys2Proof

/-- The effect of a command on everything but the queue. -/
def exec (i : Instr) (s : State) : Host.Outcome State Fault Refusal :=
  match i with
  | .registerWrite m a v n => Sys2Proof.Machine.execRegisterWrite m a v n s
  | .latchedLoRead m a n => Sys2Proof.Machine.execLatchedLoRead m a n s
  | .acmLock m => Sys2Proof.Machine.execAcmLock m s
  | .adminSqTailDoorbell p v => Sys2Proof.Machine.execAdminSqTailDoorbell p v s
  | .adminCqHeadDoorbell p v => Sys2Proof.Machine.execAdminCqHeadDoorbell p v s
  | .bar0DoorbellInvalid p off => Sys2Proof.Machine.execBar0DoorbellInvalid p off s
  | .sqTailDoorbell p page q v pasid => Sys2Proof.Machine.execSqTailDoorbell p page q v pasid s
  | .cqHeadDoorbell p page q v pasid => Sys2Proof.Machine.execCqHeadDoorbell p page q v pasid s
  | .sqeFetch p q cid opc nsid slba => Sys2Proof.Machine.execSqeFetch p q cid opc nsid slba s
  | .placementDecision x => Sys2Proof.Machine.execPlacementDecision x s
  | .xteEncrypt x u agree => Sys2Proof.Machine.execXteEncrypt x u agree s
  | .xteDecrypt x u agree => Sys2Proof.Machine.execXteDecrypt x u agree s
  | .stagingCopy x u => Sys2Proof.Machine.execStagingCopy x u s
  | .completionPost x => Sys2Proof.Machine.execCompletionPost x s
  | .stripeAssemble n => Sys2Proof.Machine.execStripeAssemble n s
  | .stripeClose n => Sys2Proof.Machine.execStripeClose n s
  | .foldStart zoned obj => Sys2Proof.Machine.execFoldStart zoned obj s
  | .computeResetRelease => Sys2Proof.Machine.execComputeResetRelease s
  | .dropout v => Sys2Proof.Machine.execDropout v s
  | .emergencyFlushDone => Sys2Proof.Machine.execEmergencyFlushDone s
  | .emergencyIndexProgrammed => Sys2Proof.Machine.execEmergencyIndexProgrammed s
  | .lockstepMismatch p => Sys2Proof.Machine.execLockstepMismatch p s
  | .coreWatchdogExpiry p => Sys2Proof.Machine.execCoreWatchdogExpiry p s
  | .tcmUe p => Sys2Proof.Machine.execTcmUe p s
  | .spareTakeover => Sys2Proof.Machine.execSpareTakeover s
  | .timeCeilingStore => Sys2Proof.Machine.execTimeCeilingStore s
  | .timeCeilingHold => Sys2Proof.Machine.execTimeCeilingHold s
  | .crystalStop => Sys2Proof.Machine.execCrystalStop s
  | .crystalReturn => Sys2Proof.Machine.execCrystalReturn s
  | .claspPowerUp vin bank => Sys2Proof.Machine.execClaspPowerUp vin bank s
  | .spdmGetVersion t => Sys2Proof.Machine.execSpdmGetVersion t s
  | .spdmGetCapabilities t => Sys2Proof.Machine.execSpdmGetCapabilities t s
  | .spdmNegotiateAlgorithms t offered => Sys2Proof.Machine.execSpdmNegotiateAlgorithms t offered s
  | .spdmGetDigests t => Sys2Proof.Machine.execSpdmGetDigests t s
  | .spdmGetCertificate t slot off len => Sys2Proof.Machine.execSpdmGetCertificate t slot off len s
  | .spdmChallenge t slot nonce => Sys2Proof.Machine.execSpdmChallenge t slot nonce s
  | .spdmGetMeasurements t slot nonce => Sys2Proof.Machine.execSpdmGetMeasurements t slot nonce s
  | .spdmKeyExchange t slot both hb => Sys2Proof.Machine.execSpdmKeyExchange t slot both hb s
  | .spdmFinish t id root ok => Sys2Proof.Machine.execSpdmFinish t id root ok s
  | .spdmHeartbeat id => Sys2Proof.Machine.execSpdmHeartbeat id s
  | .spdmKeyUpdate id => Sys2Proof.Machine.execSpdmKeyUpdate id s
  | .spdmEndSession id => Sys2Proof.Machine.execSpdmEndSession id s
  | .spdmUnsupportedRequest t code => Sys2Proof.Machine.execSpdmUnsupportedRequest t code s
  | .sessionHeartbeatTimeout id => Sys2Proof.Machine.execSessionHeartbeatTimeout id s
  | .cardDrainEnd id => Sys2Proof.Machine.execCardDrainEnd id s
  | .cardRelease r => Sys2Proof.Machine.execCardRelease r s
  | .cardList r => Sys2Proof.Machine.execCardList r s
  | .acmCardQuery m v => Sys2Proof.Machine.execAcmCardQuery m v s
  | .svcIdcode => Sys2Proof.Machine.execSvcIdcode s
  | .svcBypass ins => Sys2Proof.Machine.execSvcBypass ins s
  | .svcChallenge => Sys2Proof.Machine.execSvcChallenge s
  | .svcResponse sig => Sys2Proof.Machine.execSvcResponse sig s
  | .svcChallengeExpiry => Sys2Proof.Machine.execSvcChallengeExpiry s
  | .svcBoundaryScan ins => Sys2Proof.Machine.execSvcBoundaryScan ins s
  | .mailboxLateWrite ch off bytes => Sys2Proof.Machine.execMailboxLateWrite ch off bytes s
  | .mailboxUnknownOpcode opc r => Sys2Proof.Machine.execMailboxUnknownOpcode opc r s
  | .volleyTimeout ch => Sys2Proof.Machine.execVolleyTimeout ch s
  | .mctpSetEndpointId eid => Sys2Proof.Machine.execMctpSetEndpointId eid s
  | .mctpGetEndpointId => Sys2Proof.Machine.execMctpGetEndpointId s
  | .mctpGetVersionSupport => Sys2Proof.Machine.execMctpGetVersionSupport s
  | .mctpGetMessageTypeSupport => Sys2Proof.Machine.execMctpGetMessageTypeSupport s
  | .nvmeMiReadDataStructure dtyp port => Sys2Proof.Machine.execNvmeMiReadDataStructure dtyp port s
  | .nvmeMiSubsystemHealthPoll => Sys2Proof.Machine.execNvmeMiSubsystemHealthPoll s
  | .nvmeMiControllerHealthPoll first count => Sys2Proof.Machine.execNvmeMiControllerHealthPoll first count s
  | .mctpDroppedType ty => Sys2Proof.Machine.execMctpDroppedType ty s
  | .smbusPecError => Sys2Proof.Machine.execSmbusPecError s
  | .nvmeMiBasicRead => Sys2Proof.Machine.execNvmeMiBasicRead s
  | .sidebandBusReset => Sys2Proof.Machine.execSidebandBusReset s
  | .doeDiscovery p idx => Sys2Proof.Machine.execDoeDiscovery p idx s
  | .doeInvalidObject p vid ty => Sys2Proof.Machine.execDoeInvalidObject p vid ty s
  | .getIdentity r => Sys2Proof.Machine.execGetIdentity r s
  | .getCaps r => Sys2Proof.Machine.execGetCaps r s
  | .getOpcodes r => Sys2Proof.Machine.execGetOpcodes r s
  | .getSession r => Sys2Proof.Machine.execGetSession r s
  | .getHealth r => Sys2Proof.Machine.execGetHealth r s
  | .regRead r => Sys2Proof.Machine.execRegRead r s
  | .regWrite r => Sys2Proof.Machine.execRegWrite r s
  | .sliceCreate r => Sys2Proof.Machine.execSliceCreate r s
  | .sliceDelete r => Sys2Proof.Machine.execSliceDelete r s
  | .sliceBindPort r => Sys2Proof.Machine.execSliceBindPort r s
  | .sliceUnbindPort r => Sys2Proof.Machine.execSliceUnbindPort r s
  | .sliceSetShares r => Sys2Proof.Machine.execSliceSetShares r s
  | .sliceReset r => Sys2Proof.Machine.execSliceReset r s
  | .sliceQuery r => Sys2Proof.Machine.execSliceQuery r s
  | .sliceBindChannel r => Sys2Proof.Machine.execSliceBindChannel r s
  | .sliceUnbindChannel r => Sys2Proof.Machine.execSliceUnbindChannel r s
  | .nsCreate r => Sys2Proof.Machine.execNsCreate r s
  | .nsDelete r => Sys2Proof.Machine.execNsDelete r s
  | .classRead r => Sys2Proof.Machine.execClassRead r s
  | .classWrite r => Sys2Proof.Machine.execClassWrite r s
  | .classMaskSet r => Sys2Proof.Machine.execClassMaskSet r s
  | .placementStatus r => Sys2Proof.Machine.execPlacementStatus r s
  | .umpStatus r => Sys2Proof.Machine.execUmpStatus r s
  | .umpSetBudget r => Sys2Proof.Machine.execUmpSetBudget r s
  | .umpSetPpLimit r => Sys2Proof.Machine.execUmpSetPpLimit r s
  | .keyMapRead r => Sys2Proof.Machine.execKeyMapRead r s
  | .keyGenerate r => Sys2Proof.Machine.execKeyGenerate r s
  | .keyImport r => Sys2Proof.Machine.execKeyImport r s
  | .keyBind r => Sys2Proof.Machine.execKeyBind r s
  | .keyRewriteDrbg r => Sys2Proof.Machine.execKeyRewriteDrbg r s
  | .keyRewriteImport r => Sys2Proof.Machine.execKeyRewriteImport r s
  | .keyWriteWaitTimeout slot => Sys2Proof.Machine.execKeyWriteWaitTimeout slot s
  | .keyZeroise r => Sys2Proof.Machine.execKeyZeroise r s
  | .namespaceReleaseDone nsid => Sys2Proof.Machine.execNamespaceReleaseDone nsid s
  | .nsCryptoErase r => Sys2Proof.Machine.execNsCryptoErase r s
  | .cryptoEraseDrained nsid => Sys2Proof.Machine.execCryptoEraseDrained nsid s
  | .mgrAnchorWrite r => Sys2Proof.Machine.execMgrAnchorWrite r s
  | .ofcAnchorWrite r => Sys2Proof.Machine.execOfcAnchorWrite r s
  | .signetInfo r => Sys2Proof.Machine.execSignetInfo r s
  | .signetRead r => Sys2Proof.Machine.execSignetRead r s
  | .signetChain r => Sys2Proof.Machine.execSignetChain r s
  | .locketInfo r => Sys2Proof.Machine.execLocketInfo r s
  | .locketRead r => Sys2Proof.Machine.execLocketRead r s
  | .locketFreeze r => Sys2Proof.Machine.execLocketFreeze r s
  | .locketThaw r => Sys2Proof.Machine.execLocketThaw r s
  | .fwSlotInfo r => Sys2Proof.Machine.execFwSlotInfo r s
  | .fwDownload r => Sys2Proof.Machine.execFwDownload r s
  | .fwCommitStore r => Sys2Proof.Machine.execFwCommitStore r s
  | .fwCommitStoreActivate r => Sys2Proof.Machine.execFwCommitStoreActivate r s
  | .fwCommitActivate r => Sys2Proof.Machine.execFwCommitActivate r s
  | .fwInbandEnable r => Sys2Proof.Machine.execFwInbandEnable r s
  | .ucodeLoad r => Sys2Proof.Machine.execUcodeLoad r s
  | .settingsRead r => Sys2Proof.Machine.execSettingsRead r s
  | .settingsWrite r => Sys2Proof.Machine.execSettingsWrite r s
  | .ageSummary r => Sys2Proof.Machine.execAgeSummary r s
  | .ageReport r => Sys2Proof.Machine.execAgeReport r s
  | .agePlanNow r => Sys2Proof.Machine.execAgePlanNow r s
  | .selftestStartShort r => Sys2Proof.Machine.execSelftestStartShort r s
  | .selftestStartExtended r => Sys2Proof.Machine.execSelftestStartExtended r s
  | .selftestStatus r => Sys2Proof.Machine.execSelftestStatus r s
  | .selftestAbort r => Sys2Proof.Machine.execSelftestAbort r s
  | .selftestEnd seg => Sys2Proof.Machine.execSelftestEnd seg s
  | .diagCounters r => Sys2Proof.Machine.execDiagCounters r s
  | .holdupTestStart r => Sys2Proof.Machine.execHoldupTestStart r s
  | .holdupTestReport r => Sys2Proof.Machine.execHoldupTestReport r s
  | .perstAssert p => Sys2Proof.Machine.execPerstAssert p s
  | .dlDown p => Sys2Proof.Machine.execDlDown p s
  | .hotReset p => Sys2Proof.Machine.execHotReset p s
  | .functionLevelReset p => Sys2Proof.Machine.execFunctionLevelReset p s
  | .linkTrained p speed width flit => Sys2Proof.Machine.execLinkTrained p speed width flit s
  | .laneFailure p width => Sys2Proof.Machine.execLaneFailure p width s
  | .linkSpeedDrop p speed => Sys2Proof.Machine.execLinkSpeedDrop p speed s
  | .ccEnSet p asqs acqs => Sys2Proof.Machine.execCcEnSet p asqs acqs s
  | .ccEnClear p => Sys2Proof.Machine.execCcEnClear p s
  | .ccShnWrite p => Sys2Proof.Machine.execCcShnWrite p s
  | .shutdownComplete p => Sys2Proof.Machine.execShutdownComplete p s
  | .deleteIoSq c => Sys2Proof.Machine.execDeleteIoSq c s
  | .sqDeletionDone p q => Sys2Proof.Machine.execSqDeletionDone p q s
  | .createIoSq c => Sys2Proof.Machine.execCreateIoSq c s
  | .deleteIoCq c => Sys2Proof.Machine.execDeleteIoCq c s
  | .createIoCq c => Sys2Proof.Machine.execCreateIoCq c s
  | .identify c => Sys2Proof.Machine.execIdentify c s
  | .abort c => Sys2Proof.Machine.execAbort c s
  | .getLogSmart c => Sys2Proof.Machine.execGetLogSmart c s
  | .getLogErrorInfo c => Sys2Proof.Machine.execGetLogErrorInfo c s
  | .getLogFirmwareSlot c => Sys2Proof.Machine.execGetLogFirmwareSlot c s
  | .getLogSelfTest c => Sys2Proof.Machine.execGetLogSelfTest c s
  | .getLogTelemetryCapture c => Sys2Proof.Machine.execGetLogTelemetryCapture c s
  | .getLogTelemetryRead c => Sys2Proof.Machine.execGetLogTelemetryRead c s
  | .getLogSliceBinding c => Sys2Proof.Machine.execGetLogSliceBinding c s
  | .setFeaturesArbitration c => Sys2Proof.Machine.execSetFeaturesArbitration c s
  | .setFeaturesPowerManagement c => Sys2Proof.Machine.execSetFeaturesPowerManagement c s
  | .setFeaturesTemperatureThreshold c => Sys2Proof.Machine.execSetFeaturesTemperatureThreshold c s
  | .setFeaturesNumberOfQueues c => Sys2Proof.Machine.execSetFeaturesNumberOfQueues c s
  | .setFeaturesInterruptCoalescing c => Sys2Proof.Machine.execSetFeaturesInterruptCoalescing c s
  | .setFeaturesInterruptVectorCfg c => Sys2Proof.Machine.execSetFeaturesInterruptVectorCfg c s
  | .setFeaturesAsyncEventConfig c => Sys2Proof.Machine.execSetFeaturesAsyncEventConfig c s
  | .setFeaturesApst c => Sys2Proof.Machine.execSetFeaturesApst c s
  | .getFeatures c => Sys2Proof.Machine.execGetFeatures c s
  | .asyncEventRequest c => Sys2Proof.Machine.execAsyncEventRequest c s
  | .firmwareImageDownload c => Sys2Proof.Machine.execFirmwareImageDownload c s
  | .firmwareCommitReplace c => Sys2Proof.Machine.execFirmwareCommitReplace c s
  | .firmwareCommitReplaceActivate c => Sys2Proof.Machine.execFirmwareCommitReplaceActivate c s
  | .firmwareCommitActivate c => Sys2Proof.Machine.execFirmwareCommitActivate c s
  | .firmwareCommitImmediate c => Sys2Proof.Machine.execFirmwareCommitImmediate c s
  | .deviceSelfTestShort c => Sys2Proof.Machine.execDeviceSelfTestShort c s
  | .deviceSelfTestExtended c => Sys2Proof.Machine.execDeviceSelfTestExtended c s
  | .deviceSelfTestAbort c => Sys2Proof.Machine.execDeviceSelfTestAbort c s
  | .adminInvalidOpcode c => Sys2Proof.Machine.execAdminInvalidOpcode c s
  | .ioInvalidOpcode c => Sys2Proof.Machine.execIoInvalidOpcode c s
  | .nvmeWrite c => Sys2Proof.Machine.execNvmeWrite c s
  | .descriptorRebuildDone z => Sys2Proof.Machine.execDescriptorRebuildDone z s
  | .zoneAppend c => Sys2Proof.Machine.execZoneAppend c s
  | .nvmeRead c => Sys2Proof.Machine.execNvmeRead c s
  | .nvmeFlush c => Sys2Proof.Machine.execNvmeFlush c s
  | .datasetManagement c => Sys2Proof.Machine.execDatasetManagement c s
  | .zoneClose c => Sys2Proof.Machine.execZoneClose c s
  | .zoneFinish c => Sys2Proof.Machine.execZoneFinish c s
  | .zoneOpen c => Sys2Proof.Machine.execZoneOpen c s
  | .zoneReset c => Sys2Proof.Machine.execZoneReset c s
  | .zoneOffline c => Sys2Proof.Machine.execZoneOffline c s
  | .zoneMgmtSendInvalid c => Sys2Proof.Machine.execZoneMgmtSendInvalid c s
  | .zoneActionTakesEffect z => Sys2Proof.Machine.execZoneActionTakesEffect z s
  | .reportZones c => Sys2Proof.Machine.execReportZones c s
  | .extendedReportZones c => Sys2Proof.Machine.execExtendedReportZones c s
  | .psEntry => Sys2Proof.Machine.execPsEntry s
  | .maintenanceExcursion => Sys2Proof.Machine.execMaintenanceExcursion s
  | .apstIdleTimer p => Sys2Proof.Machine.execApstIdleTimer p s
  | .sliceResetComplete n => Sys2Proof.Machine.execSliceResetComplete n s
  | .slmResetStart m v => Sys2Proof.Machine.execSlmResetStart m v s
  | .slmShareStage m cap v => Sys2Proof.Machine.execSlmShareStage m cap v s
  | .epochStart icc iccq => Sys2Proof.Machine.execEpochStart icc iccq s
  | .stripePrepare key => Sys2Proof.Machine.execStripePrepare key s
  | .groupScoreTick => Sys2Proof.Machine.execGroupScoreTick s
  | .stripeIdlePad n => Sys2Proof.Machine.execStripeIdlePad n s
  | .tailFlush z => Sys2Proof.Machine.execTailFlush z s
  | .directPageProgram z => Sys2Proof.Machine.execDirectPageProgram z s
  | .groupQuietEnter g => Sys2Proof.Machine.execGroupQuietEnter g s
  | .groupQuietExit g => Sys2Proof.Machine.execGroupQuietExit g s
  | .streamInactive key => Sys2Proof.Machine.execStreamInactive key s
  | .plcGrpHoldWrite m ix v => Sys2Proof.Machine.execPlcGrpHoldWrite m ix v s
  | .dedicatedGroupRelease g => Sys2Proof.Machine.execDedicatedGroupRelease g s
  | .readServeChoice x u => Sys2Proof.Machine.execReadServeChoice x u s
  | .reboundCombine id => Sys2Proof.Machine.execReboundCombine id s
  | .dscIssue die => Sys2Proof.Machine.execDscIssue die s
  | .backlogReport => Sys2Proof.Machine.execBacklogReport s
  | .suspendWindowExpiry die => Sys2Proof.Machine.execSuspendWindowExpiry die s
  | .dscPredBankSwitch m v => Sys2Proof.Machine.execDscPredBankSwitch m v s
  | .dscLatClear m v => Sys2Proof.Machine.execDscLatClear m v s
  | .ldpcDecode x u d => Sys2Proof.Machine.execLdpcDecode x u d s
  | .collectionTrigger => Sys2Proof.Machine.execCollectionTrigger s
  | .wearLevelTrigger g => Sys2Proof.Machine.execWearLevelTrigger g s
  | .rebuildDone die => Sys2Proof.Machine.execRebuildDone die s
  | .checkpointCycleEnd => Sys2Proof.Machine.execCheckpointCycleEnd s
  | .journalBlockErase g b => Sys2Proof.Machine.execJournalBlockErase g b s
  | .descRead ch q => Sys2Proof.Machine.execDescRead ch q s
  | .descProgram ch => Sys2Proof.Machine.execDescProgram ch s
  | .descJoinedProgram ch => Sys2Proof.Machine.execDescJoinedProgram ch s
  | .descErase ch => Sys2Proof.Machine.execDescErase ch s
  | .descReadStatus ch => Sys2Proof.Machine.execDescReadStatus ch s
  | .descGetFeatures ch => Sys2Proof.Machine.execDescGetFeatures ch s
  | .descSetFeatures ch => Sys2Proof.Machine.execDescSetFeatures ch s
  | .descReadId ch => Sys2Proof.Machine.execDescReadId ch s
  | .descReadParam ch => Sys2Proof.Machine.execDescReadParam ch s
  | .descResetDie ch => Sys2Proof.Machine.execDescResetDie ch s
  | .descZqCal ch => Sys2Proof.Machine.execDescZqCal ch s
  | .descTrain ch => Sys2Proof.Machine.execDescTrain ch s
  | .seqClose ch => Sys2Proof.Machine.execSeqClose ch s
  | .descCustomer ch samples => Sys2Proof.Machine.execDescCustomer ch samples s
  | .chsPost m ch v => Sys2Proof.Machine.execChsPost m ch v s
  | .operationComplete ch die array dstat fails vals => Sys2Proof.Machine.execOperationComplete ch die array dstat fails vals s
  | .dieTimeout ch die => Sys2Proof.Machine.execDieTimeout ch die s
  | .suspendTaken ch die => Sys2Proof.Machine.execSuspendTaken ch die s
  | .resumeTaken ch die => Sys2Proof.Machine.execResumeTaken ch die s
  | .yieldOverrun ch die a => Sys2Proof.Machine.execYieldOverrun ch die a s
  | .busGrant ch => Sys2Proof.Machine.execBusGrant ch s
  | .collectorTake => Sys2Proof.Machine.execCollectorTake s
  | .controlStoreParity ch a scrub => Sys2Proof.Machine.execControlStoreParity ch a scrub s
  | .csScrubPass ch => Sys2Proof.Machine.execCsScrubPass ch s
  | .sequencerReset m ch => Sys2Proof.Machine.execSequencerReset m ch s
  | .bufferAlloc id size acct cls nochain long => Sys2Proof.Machine.execBufferAlloc id size acct cls nochain long s
  | .allocRetry ix => Sys2Proof.Machine.execAllocRetry ix s
  | .bufferFree id h => Sys2Proof.Machine.execBufferFree id h s
  | .bufferHandover id h dest => Sys2Proof.Machine.execBufferHandover id h dest s
  | .bufferZeroed pool ix => Sys2Proof.Machine.execBufferZeroed pool ix s
  | .leakAuditPass => Sys2Proof.Machine.execLeakAuditPass s
  | .bpmMinClear m => Sys2Proof.Machine.execBpmMinClear m s
  | .bpmQuotaWrite m k v => Sys2Proof.Machine.execBpmQuotaWrite m k v s
  | .speedChangeRequest m v => Sys2Proof.Machine.execSpeedChangeRequest m v s
  | .speedChangeDone => Sys2Proof.Machine.execSpeedChangeDone s
  | .gatherOpen m v => Sys2Proof.Machine.execGatherOpen m v s
  | .gatherStep pass => Sys2Proof.Machine.execGatherStep pass s
  | .gatherClose m => Sys2Proof.Machine.execGatherClose m s
  | .gatherTimeout => Sys2Proof.Machine.execGatherTimeout s
  | .refreshDue rank => Sys2Proof.Machine.execRefreshDue rank s
  | .panicAssert waited => Sys2Proof.Machine.execPanicAssert waited s
  | .panicEnd => Sys2Proof.Machine.execPanicEnd s
  | .mr4Poll rank band => Sys2Proof.Machine.execMr4Poll rank band s
  | .dmcSelfRefresh m v => Sys2Proof.Machine.execDmcSelfRefresh m v s
  | .dramScrubRead e => Sys2Proof.Machine.execDramScrubRead e s
  | .sramScrubRead region off last e => Sys2Proof.Machine.execSramScrubRead region off last e s
  | .injectorArm m v => Sys2Proof.Machine.execInjectorArm m v s
  | .callRequest die => Sys2Proof.Machine.execCallRequest die s
  | .callGrant n => Sys2Proof.Machine.execCallGrant n s
  | .groupCall acct mode dies cls deadline => Sys2Proof.Machine.execGroupCall acct mode dies cls deadline s
  | .callReturn n => Sys2Proof.Machine.execCallReturn n s
  | .holBlock n => Sys2Proof.Machine.execHolBlock n s
  | .floorHoldExpiry => Sys2Proof.Machine.execFloorHoldExpiry s
  | .vrSettled mv => Sys2Proof.Machine.execVrSettled mv s
  | .vrTimeout mv word => Sys2Proof.Machine.execVrTimeout mv word s
  | .thermalStep => Sys2Proof.Machine.execThermalStep s
  | .umpCostBankSwitch m v => Sys2Proof.Machine.execUmpCostBankSwitch m v s
  | .sagEnter v => Sys2Proof.Machine.execSagEnter v s
  | .brownOutEnter v => Sys2Proof.Machine.execBrownOutEnter v s
  | .surgeEnter v => Sys2Proof.Machine.execSurgeEnter v s
  | .surgeFilterExpiry => Sys2Proof.Machine.execSurgeFilterExpiry s
  | .rippleEnter mv => Sys2Proof.Machine.execRippleEnter mv s
  | .disturbanceClassEnd n v => Sys2Proof.Machine.execDisturbanceClassEnd n v s
  | .bankBelowRecharge v => Sys2Proof.Machine.execBankBelowRecharge v s
  | .bankAtTarget v => Sys2Proof.Machine.execBankAtTarget v s
  | .chargeTimeout => Sys2Proof.Machine.execChargeTimeout s
  | .bankOvervoltage v => Sys2Proof.Machine.execBankOvervoltage v s
  | .dischargeTestDue => Sys2Proof.Machine.execDischargeTestDue s
  | .dischargeTestBegin => Sys2Proof.Machine.execDischargeTestBegin s
  | .testV1Sample v => Sys2Proof.Machine.execTestV1Sample v s
  | .testV2Reached t => Sys2Proof.Machine.execTestV2Reached t s
  | .testTimeout => Sys2Proof.Machine.execTestTimeout s
  | .cellLossRetest => Sys2Proof.Machine.execCellLossRetest s
  | .sgdTestStart m => Sys2Proof.Machine.execSgdTestStart m s
  | .dirtyLimitRecompute => Sys2Proof.Machine.execDirtyLimitRecompute s
  | .sgdFlushWWrite m v => Sys2Proof.Machine.execSgdFlushWWrite m v s
  | .restartHoldEnd => Sys2Proof.Machine.execRestartHoldEnd s
  | .bootWaitExpiry => Sys2Proof.Machine.execBootWaitExpiry s
  | .computePgoodRise => Sys2Proof.Machine.execComputePgoodRise s
  | .computePgoodFall => Sys2Proof.Machine.execComputePgoodFall s
  | .pveGcmEncrypt p sess slot iv aad data bad => Sys2Proof.Machine.execPveGcmEncrypt p sess slot iv aad data bad s
  | .pveGcmDecrypt p sess slot iv aad data bad => Sys2Proof.Machine.execPveGcmDecrypt p sess slot iv aad data bad s
  | .pveKeyWrap p slot data bad => Sys2Proof.Machine.execPveKeyWrap p slot data bad s
  | .pveKeyUnwrap p sess slot data bad => Sys2Proof.Machine.execPveKeyUnwrap p sess slot data bad s
  | .pveCmac p sess slot data bad => Sys2Proof.Machine.execPveCmac p sess slot data bad s
  | .drbgReseed health => Sys2Proof.Machine.execDrbgReseed health s
  | .dgeSha384 p => Sys2Proof.Machine.execDgeSha384 p s
  | .dgeSha512 p => Sys2Proof.Machine.execDgeSha512 p s
  | .dgeHmacSha384 p => Sys2Proof.Machine.execDgeHmacSha384 p s
  | .dgeHmacSha512 p => Sys2Proof.Machine.execDgeHmacSha512 p s
  | .dgeHkdfExpand p => Sys2Proof.Machine.execDgeHkdfExpand p s
  | .snoopArm m => Sys2Proof.Machine.execSnoopArm m s
  | .snoopEnd m => Sys2Proof.Machine.execSnoopEnd m s
  | .dgeUdsClose m => Sys2Proof.Machine.execDgeUdsClose m s
  | .dgeBootClose m => Sys2Proof.Machine.execDgeBootClose m s
  | .pkeSign p agree => Sys2Proof.Machine.execPkeSign p agree s
  | .pkeVerify p => Sys2Proof.Machine.execPkeVerify p s
  | .pkeEcdh p agree => Sys2Proof.Machine.execPkeEcdh p agree s
  | .pkePubkey p => Sys2Proof.Machine.execPkePubkey p s
  | .signetAppend m typ items settings reason state bad => Sys2Proof.Machine.execSignetAppend m typ items settings reason state bad s
  | .signetCommit => Sys2Proof.Machine.execSignetCommit s
  | .signetCompaction => Sys2Proof.Machine.execSignetCompaction s
  | .clsRead => Sys2Proof.Machine.execClsRead s
  | .clsProgram => Sys2Proof.Machine.execClsProgram s
  | .clsErase => Sys2Proof.Machine.execClsErase s
  | .clsBlankCheck => Sys2Proof.Machine.execClsBlankCheck s
  | .clsLock => Sys2Proof.Machine.execClsLock s
  | .clsUnlock => Sys2Proof.Machine.execClsUnlock s
  | .clsSetPassword => Sys2Proof.Machine.execClsSetPassword s
  | .clsDescComplete ix k corr bad => Sys2Proof.Machine.execClsDescComplete ix k corr bad s
  | .clsSlotRelease m v => Sys2Proof.Machine.execClsSlotRelease m v s
  | .clsEraseSuspend => Sys2Proof.Machine.execClsEraseSuspend s
  | .clsEraseResume => Sys2Proof.Machine.execClsEraseResume s
  | .continuousRead m n errs => Sys2Proof.Machine.execContinuousRead m n errs s
  | .continuousReadStop m => Sys2Proof.Machine.execContinuousReadStop m s
  | .aonBlock => Sys2Proof.Machine.execAonBlock s
  | .aonUnblock => Sys2Proof.Machine.execAonUnblock s
  | .claspDieReset => Sys2Proof.Machine.execClaspDieReset s
  | .coldReset => Sys2Proof.Machine.execColdReset s
  | .coldResetBallRelease => Sys2Proof.Machine.execColdResetBallRelease s
  | .warmReset m => Sys2Proof.Machine.execWarmReset m s
  | .botFallback m => Sys2Proof.Machine.execBotFallback m s
  | .fuseAdvance m v => Sys2Proof.Machine.execFuseAdvance m v s
  | .ucodeControlStoreLoad m v => Sys2Proof.Machine.execUcodeControlStoreLoad m v s
  | .slotWriteDone => Sys2Proof.Machine.execSlotWriteDone s
  | .recoveryExit => Sys2Proof.Machine.execRecoveryExit s
  | .rallyMeasure laps => Sys2Proof.Machine.execRallyMeasure laps s
  | .planningRun probe => Sys2Proof.Machine.execPlanningRun probe s
  | .dramRegather rank windows => Sys2Proof.Machine.execDramRegather rank windows s
  | .locketPost p => Sys2Proof.Machine.execLocketPost p s
  | .locketFlush => Sys2Proof.Machine.execLocketFlush s
  | .locketFlushDone => Sys2Proof.Machine.execLocketFlushDone s
  | .freezeTimeout => Sys2Proof.Machine.execFreezeTimeout s
  | .tsnSample r => Sys2Proof.Machine.execTsnSample r s
  | .thermalTrip => Sys2Proof.Machine.execThermalTrip s
  | .perstDeassert p => Sys2Proof.Machine.execPerstDeassert p s
  | .hostReadCompletionTimeout p => Sys2Proof.Machine.execHostReadCompletionTimeout p s
  | .poisonedCompletion p => Sys2Proof.Machine.execPoisonedCompletion p s
  | .ecrcCheckFail p => Sys2Proof.Machine.execEcrcCheckFail p s
  | .linkRecovery p => Sys2Proof.Machine.execLinkRecovery p s
  | .l0pWidthChange p width => Sys2Proof.Machine.execL0pWidthChange p width s
  | .aspmL1Entry p => Sys2Proof.Machine.execAspmL1Entry p s
  | .aspmL1Exit p => Sys2Proof.Machine.execAspmL1Exit p s
  | .i3cDynamicAddressAssign a => Sys2Proof.Machine.execI3cDynamicAddressAssign a s
  | .interruptCoalescingTimeout p v => Sys2Proof.Machine.execInterruptCoalescingTimeout p v s
  | .mailboxPayloadWrite ch off bytes => Sys2Proof.Machine.execMailboxPayloadWrite ch off bytes s
  | .customerRoutineOverrun ch die a => Sys2Proof.Machine.execCustomerRoutineOverrun ch die a s

end Sys2Proof.Machine
end

