-- ==== Sys2Proof/Machine/Idle.lean ====
section
/-! DEFINITION. What the block does when no command waits. -/
namespace Sys2Proof.Machine

/-- Device time moves on by 1 ns, unless it is held, and DRAM takes its next burst (R13, R60, R397): a DESIGN CHOICE
(notes/assumptions/1.md). -/
def idle (s : State) : State := burst (reach s (now s + 1))

end Sys2Proof.Machine
end

