-- ==== Sys2Proof/Safety.lean ====
section
/-! DEFINITION. What a safe state and a safe run are, and the terms the statements use: commands that complete, requests the
mailbox accepts, and what a channel answered. -/
namespace Sys2Proof
open Sys2Proof.Machine

/-- A command completes: it answers a next state. -/
def Completes (c : Instr) (s : Machine.State) : Prop := ∃ t, Machine.exec c s = .next t

/-- A command completes in a next state that satisfies `P`. -/
def Gives (c : Instr) (s : Machine.State) (P : Machine.State → Prop) : Prop := ∃ t, Machine.exec c s = .next t ∧ P t

/-- An outcome is no stop. -/
def NoStop (o : Host.Outcome Machine.State Machine.Fault Machine.Refusal) : Prop := ∃ t, o = .next t

/-- A request of opcode `opc` that travels in one message is taken and passes steps 1 to 6 of R110: who makes it, its payload
(what the record carries, in a session), and the state its work begins in; none when it is not taken, travels in segments, or
fails a check. `hw` says that the MBX block runs the opcode in hardware (R118, R119). -/
def accepted (opc : Nat) (hw : Bool) (r : Rq) (s : Machine.State) : Option (Caller × List Byte × Machine.State) :=
  let q := mbxPost s r opc
  let x := chanGet q.2 r.ch.val
  let pay := slice x.win 32 r.plen
  if !q.1 || (pfail q.2 && !hw) || decide (4064 < r.plen) || decide (r.plen ≠ x.rcvd) || r.flags.toNat.testBit 4 then none
  else if r.session = 0 then
    let c : Caller := { ch := r.ch.val, cls := pathCls q.2 r.ch.val, slice := chanSlice q.2 r.ch.val, session := 0 }
    if mbxAdmit q.2 opc c = ST_OK then some (c, pay, q.2) else none
  else
    match openRecord q.2 r pay with
    | .good x inner =>
      let t := finc { q.2 with spdm := { q.2.spdm with sessions := SMap.put q.2.spdm.sessions r.session { x with seqIn := x.seqIn + 1 } } }
        (Fld.PVE_COUNT_COUNT 1)
      let c : Caller := { ch := r.ch.val, cls := x.cls, slice := none, session := r.session }
      if mbxAdmit t opc c = ST_OK then some (c, inner, t) else none
    | _ => none

/-- The session a caller answers in still stands (R118); a request without a session has none to lose. -/
def stands (s : Machine.State) (c : Caller) : Prop := c.session = 0 ∨ (SMap.find s.spdm.sessions c.session).isSome = true

/-- The last response a channel carries: its status and its payload before any record is made of it; port × 8 + channel, 32 for the
sideband endpoint. -/
def answer (s : Machine.State) (ch : Nat) : Option (Nat × List Byte) := (chanGet s ch).resp.map fun x => (x.status, x.payload)

/-- The channel carries `b` in answer to a request of caller `c` that completed: whole, or where it is longer than one response
carries, the first segment of its volley (R113, R114). -/
def gets (t : Machine.State) (ch : Nat) (c : Caller) (b : List Byte) : Prop :=
  answer t ch = some (ST_OK, if b.length ≤ payCap c then b else le 4 0 ++ le 4 b.length ++ b.take (segCap c))

/-- Every register outside a list of addresses holds in `t` what it holds in `s`. -/
def RegsBut (l : List Nat) (s t : Machine.State) : Prop := ∀ a, a ∉ l → RegFile.get t.regs a = RegFile.get s.regs a

/-- The registers that acceptance of a record may change. -/
def lktRegs : List Nat := [Fld.LKT_LOST_COUNT.addr, Fld.LKT_EVENTS_LOST.addr, Fld.LKT_SUPPRESSED_COUNT.addr]

/-- A fabric access has been answered with this status, value and BLIND flag. -/
def fabSays (s : Machine.State) (st v : Nat) (b : Bool) : Prop := s.fab.status = st ∧ s.fab.value = v ∧ s.fab.blind = b

/-- Media slot `i` of the state after has new material of this origin in the buffer that was not active before, which is the active one
now; its generation is one past the old, its owner as before, its record holds the material and the new generation, and every other
slot is as it was (R460, R471). -/
def filled (s t : Machine.State) (i origin : Nat) (m : List Byte) : Prop :=
  (kslot t i).st = 1 ∧ (kslot t i).typ = 4 ∧ (kslot t i).origin = origin ∧ (kslot t i).gen = ((kslot s i).gen + 1) % 65536 ∧
  (kslot t i).active = 1 - (kslot s i).active ∧ slotBuf (kslot t i) (kslot t i).active = m ∧ (kslot t i).slice = (kslot s i).slice ∧
  (kslot t i).nsid = (kslot s i).nsid ∧
  (SMap.find t.kst.recs i).map (fun e => (e.bound, e.erasing, e.gen, e.material)) = some (false, false, (kslot t i).gen, m) ∧
  ∀ j, j ≠ i → kslot t j = kslot s j

/-- What a key opcode answers for slot `i` with material `m`: the generation and the first three bytes of the CMAC under key 1 of 16 zero
bytes (R474, R477). -/
def keyAck (s : Machine.State) (i : Nat) (m : List Byte) : Nat × List Byte :=
  (ST_OK, le 2 (((kslot s i).gen + 1) % 65536) ++ fit 3 ((Config.cmac (m.take 32) (zeros 16)).take 3) ++ zeros 3)

/-- The shared account has room for one more journal record of this body, so that the tail is not written at once (R256, R324). -/
def tailRoom (s : Machine.State) (type : Nat) (body : List Nat) : Prop := dirtyRoom (tailAdd none [] s type body) none 0 = true

/-- The staged units of stripe `st` belong to conventional namespaces, or to none. -/
def convStripe (s : Machine.State) (st : Stripe) : Prop :=
  ∀ slot u n, .unit slot ∈ st.members → SMap.find s.zne.stg slot = some u → SMap.find s.zne.ns u.nsid = some n → n.zoned = false

/-- A PVE request of pair `p` of this use on a slot can run: the pair is not carded, the units are enabled, the use is permitted, the
slot holds a key, an instance is in service (R88, R461, R467). -/
def pveFit (s : Machine.State) (p : Fin 8) (sess slot use : Nat) : Prop :=
  carded s (midPair p.val) = false ∧ fone s Fld.PVE_CTRL_EN = true ∧ fone s Fld.KST_CTRL_EN = true ∧ pveRight s sess slot use = true ∧
  (kslot s slot).st ≠ 0 ∧ (kslot s slot).st ≠ 4 ∧ (pveUp s 0 || pveUp s 1) = true

/-- Pair `p`'s request `r` of operation `op`, START and FINAL without a key-store destination, runs alone over the data `d` that stands
in its buffer (R485). -/
def dgeRuns (s : Machine.State) (p : Fin 8) (op : Nat) (r : DgeReq) (d : List Byte) : Prop :=
  s.dge.run = [(0, r)] ∧ s.dge.queue = [] ∧ s.dge.held = [] ∧ r.pair = p.val ∧ r.op = op ∧ r.flags % 16 = 3 ∧ dgeData s r = d

/-- The digest engine has completed pair `p`'s request with these bytes. -/
def dgeGave (s t : Machine.State) (p : Fin 8) (out : List Byte) : Prop :=
  t.dge = { s.dge with run := [] } ∧ fget t (Fld.DGE_REQ_GO_GO p.val) = 0 ∧ fget t (Fld.DGE_REQ_GO_STATUS p.val) = ST_OK ∧
  ∀ k, k < 16 → rget t (Reg.DGE_RESULT p.val k) = u32 (out.take 64) (4 * k)

/-- Pair `p`'s operation `op` on slot `slot` is the one the public-key engine works on (R489). -/
def pkeReady (s : Machine.State) (p : Fin 8) (op slot : Nat) : Prop :=
  s.dge.pkeQ.head? = some p.val ∧ fget s (Fld.PKE_REQ_D_0_OP p.val) = op ∧ fget s (Fld.PKE_REQ_D_0_SLOT p.val) = slot ∧
  fone s Fld.PKE_CTRL_EN = true ∧ carded s midPke = false

/-- Descriptor `d` in slot `i` has its turn, is of this operation, finds the array free and fails no check (R512, R513). -/
def clsGo (s : Machine.State) (op i : Nat) (d : ClsSlot) : Prop :=
  clsTurn s = some (i, d) ∧ d.op = op ∧ clsFree s d = true ∧ clsCheck s d = none

/-- The recorder accepts the next record of source `src`: its source is within its limit, no loss waits to be recorded, and there is
room (R576–R578). -/
def recordable (s : Machine.State) (src : Nat) : Prop :=
  (src = 12 → s.bot.run = true) ∧
  (lktUnlimited src = false → SMap.getD s.lkt.rate src 0 < max 1 (fget s Fld.LKT_RATE_PER_MS)) ∧ s.lkt.lostNew = 0 ∧ lktRoom s.lkt = true

/-- One record has been accepted, with the next index and the device time of `s`. -/
def recorded (s t : Machine.State) (code p1 p2 p3 p4 : Nat) : Prop :=
  t.lkt.next = s.lkt.next + 1 ∧ ∃ r, r ∈ t.lkt.ring ++ t.lkt.side ∧ r.code = code ∧ r.idx = s.lkt.next ∧ r.boot = s.tmb.boots ∧ r.time = now s ∧
    r.p1 = p1 % 4294967296 ∧ r.p2 = p2 % 4294967296 ∧ r.p3 = p3 % 4294967296 ∧ r.p4 = p4 % 4294967296

/-- After a controller reset: the port has no queues, its controller is disabled, its features and requests are at their defaults, it
holds no event requests (R126, R147, R149). -/
def portClosed (t : Machine.State) (p : Nat) : Prop :=
  (∀ e, e ∈ t.hst.sqs → e.1 / 65536 ≠ p) ∧ (∀ e, e ∈ t.hst.cqs → e.1 / 65536 ≠ p) ∧ (portGet t p).en = false ∧ (portGet t p).rdy = false ∧
  (portGet t p).feat = Feat.reset ∧ (portGet t p).reqPs = 0 ∧ (portGet t p).aers = [] ∧ (portGet t p).events = []

/-- The DRAM scrubber may read: it is enabled, power-fail is not asserted, there is DRAM, and no request waits (R407). -/
def scrubFree (s : Machine.State) : Prop :=
  fone s Fld.MEP_CTRL_SCRUB_EN = true ∧ s.sgd.pfail = false ∧ pget s Reg.DMC_TOP_LO Reg.DMC_TOP_HI ≠ 0 ∧ s.dmc.rt = [] ∧ s.dmc.nrm = []

/-- Where the DRAM scrubber stands. -/
def scrubAt (s : Machine.State) : Nat := pget s Reg.MEP_SCRUB_POS_LO Reg.MEP_SCRUB_POS_HI

/-- The delays in effect after a refresh of rank `r`: those of its subchannel as written for the rate point in use, the others as
before (R392). -/
def delaysTaken (s t : Machine.State) (r : Nat) : Prop :=
  ∀ i, i < 1024 → SMap.getD t.dmc.delays i 0 =
    if i / 64 / 2 = r / 2 then rget s (Reg.DMC_DELAY (fget s Fld.DMC_STATUS_RATE_IDX * 1024 + i)) else SMap.getD s.dmc.delays i 0

/-- An admin command whose entry has been fetched with this opcode, and whose port the drive holds. -/
def adminGo (s : Machine.State) (c : AdminCmd) (opc : Nat) : Prop :=
  s.bot.run = true ∧ (SMap.find s.hst.ports c.port.val).isSome = true ∧
  ∃ k, SMap.find s.hst.ctx (adminKey c) = some k ∧ k.st = .fetched ∧ k.opcode = opc

/-- A Set Features command for feature `fid` whose entry has been fetched. -/
def setGo (s : Machine.State) (c : AdminCmd) (fid : Nat) : Prop := adminGo s c 9 ∧ cdw c.cdw10 0 8 = fid

/-- The command has ended with this status and dword 0, its data moved to the host; its completion waits to be posted. -/
def adminSays (t : Machine.State) (c : AdminCmd) (st dw0 : Nat) (b : List Byte) : Prop :=
  ∃ k, SMap.find t.hst.ctx (adminKey c) = some k ∧ k.st = .ready st dw0 0 ∧ k.out = b.map (·.toNat)

/-- The command has ended with this status. -/
def adminFails (t : Machine.State) (c : AdminCmd) (st : Nat) : Prop :=
  ∃ k, SMap.find t.hst.ctx (adminKey c) = some k ∧ k.st = .ready st 0 0

/-- A Get Log Page command asks for the first `n` dwords of the log. -/
def logHead (c : AdminCmd) (n : Nat) : Prop := cdw c.cdw10 16 16 + 1 = n ∧ cdw c.cdw11 0 16 = 0 ∧ c.cdw12 = 0 ∧ c.cdw13 = 0

/-- An I/O command of opcode `op` whose entry has been fetched and that passes the checks: its context and namespace (R78, R139,
R327). -/
def ioGoes (s : State) (c : IoCmd) (op : Nat) (bytes : Ns → Nat) (k : Ctx) (n : Ns) : Prop :=
  s.bot.run = true ∧ SMap.find s.hst.ctx (ioKey c) = some k ∧ k.st = .fetched ∧ k.qid ≠ 0 ∧ k.opcode = op ∧
  ioCheck s c k bytes = (.go, some n)

/-- The command has ended with this status; its completion waits to be posted. -/
def ioSays (t : State) (c : IoCmd) (st : Nat) : Prop :=
  ∃ k, SMap.find t.hst.ctx (ioKey c) = some k ∧ k.st = .ready st 0 0

/-- The zone that the command names, of namespace `n`. -/
def ioZone (c : IoCmd) (n : Ns) : Nat := n.base + c.slba / zoneLbas n

/-- The descriptor of zone `zi` passes its CRC when a command takes it up: it lies in the cache, or its bytes match (R220). -/
def descGood (s : State) (zi : Nat) (z : Zone) : Prop := z.spoilt = false ∨ s.zne.cache.contains zi = true

/-- A zone action names the start of zone `z` of `n`, alone; nothing of the zone waits, its descriptor is good, no action waits for the
command, and the drive is not read-only (R210–R212). -/
def zoneSends (s : State) (c : IoCmd) (n : Ns) (z : Zone) : Prop :=
  n.zoned = true ∧ c.slba < nsLbas n ∧ c.slba % zoneLbas n = 0 ∧ bit c.cdw13.toNat 8 = false ∧ fone s Fld.ZNE_EOL_READ_ONLY = false ∧
  SMap.find s.zne.zones (ioZone c n) = some z ∧ zoneWaits z = false ∧ descGood s (ioZone c n) z ∧ inFlight z = false ∧ (nsOfZone s (ioZone c n)).map (·.2) = some n ∧
  ∀ e, e ∈ s.zne.zones → ∀ a, e.2.action = some a → a.2 ≠ ioKey c

/-- The sequencer of channel `ch` takes this chain of operation `op` next, from place `i` of queue `q`: it is ready, R338, R339 and R391 find
nothing wrong with it, no descriptor waits to be posted, and there is no power-fail. -/
def chsTakes (s : State) (ch op : Nat) (joined : Bool) (q i : Nat) (l : List Desc) : Prop :=
  chsReady s ch = true ∧ pickAny (chsOf s ch) (headIs op joined) = some (q, i, l) ∧
  l.any (descBad s ch q) = false ∧ joinBad s ch l = false ∧ refsOut s l = false ∧ pfail s = false ∧ fone s (Fld.CHS_POST_GO_GO ch) = false

/-- The chain has left its queue and runs in the context of its die, which waits for the bus. -/
def chsRuns (s t : State) (ch q i : Nat) (l : List Desc) : Prop :=
  ∃ d, l.head? = some d ∧ SMap.find (chsOf t ch).ctx d.die = some (ctxNew l q (now s)) ∧ (chsOf t ch).want = (chsOf s ch).want ++ [d.die] ∧
  qGet (chsOf t ch) q = (qGet (chsOf s ch) q).take i ++ (qGet (chsOf s ch) q).drop (i + l.length)

/-- The completion FIFO of a channel has room, and no entry waits for it (R346). -/
def chsRoom (s : State) (ch : Nat) : Prop := (chsOf s ch).fifo.length < 16 ∧ (chsOf s ch).ovr = []

/-- The channel's completions are those of `s` and this entry. -/
def chsGave (s t : State) (ch : Nat) (e : CEnt) : Prop := (chsOf t ch).fifo = (chsOf s ch).fifo ++ [e] ∧ (chsOf t ch).ovr = []

/-! ### Frames: what a command may change -/

/-- The parts of the state that a command can change: the fields of State but the part and the queue. -/
inductive Piece where
  | regs | latch | sel | fab | tmb | acm | spdm | svc | mbx | lkt | hst | slm | zne | plc | dsc | med | flash | bpm |
  dmc | ump | sgd | kst | dge | sgn | cls | bot | age | tsn | free
deriving DecidableEq, Repr

/-- The part is the same in both states. -/
def Piece.same (p : Piece) (s t : Machine.State) : Prop :=
  match p with
  | .regs => t.regs = s.regs
  | .latch => t.latch = s.latch
  | .sel => t.sel = s.sel
  | .fab => t.fab = s.fab
  | .tmb => t.tmb = s.tmb
  | .acm => t.acm = s.acm
  | .spdm => t.spdm = s.spdm
  | .svc => t.svc = s.svc
  | .mbx => t.mbx = s.mbx
  | .lkt => t.lkt = s.lkt
  | .hst => t.hst = s.hst
  | .slm => t.slm = s.slm
  | .zne => t.zne = s.zne
  | .plc => t.plc = s.plc
  | .dsc => t.dsc = s.dsc
  | .med => t.med = s.med
  | .flash => t.flash = s.flash
  | .bpm => t.bpm = s.bpm
  | .dmc => t.dmc = s.dmc
  | .ump => t.ump = s.ump
  | .sgd => t.sgd = s.sgd
  | .kst => t.kst = s.kst
  | .dge => t.dge = s.dge
  | .sgn => t.sgn = s.sgn
  | .cls => t.cls = s.cls
  | .bot => t.bot = s.bot
  | .age => t.age = s.age
  | .tsn => t.tsn = s.tsn
  | .free => t.free = s.free

/-- What a command may change. Every command that reads or writes registers may change `regs`; device time belongs to `tmb`, the draws
of open values to `free`. -/
def mayChange (c : Instr) : List Piece :=
  match c with
  | .registerWrite .. | .regWrite .. | .mailboxPayloadWrite .. =>
    [.regs, .latch, .sel, .fab, .acm, .spdm, .mbx, .lkt, .hst, .slm, .zne, .plc, .dsc, .med, .flash, .bpm, .dmc, .ump, .sgd, .kst, .dge,
     .sgn, .cls, .bot, .age, .free]
  | .latchedLoRead .. | .regRead .. =>
    [.regs, .latch, .fab, .acm, .spdm, .mbx, .lkt, .hst, .slm, .zne, .plc, .dsc, .med, .flash, .bpm, .dmc, .ump, .sgd, .kst, .dge, .bot,
     .age, .free]
  | .acmLock .. =>
    [.regs, .fab, .acm, .lkt, .sgd]
  | .adminSqTailDoorbell .. | .adminCqHeadDoorbell .. | .lockstepMismatch .. | .tcmUe .. | .linkTrained .. | .laneFailure ..
    | .linkSpeedDrop .. | .shutdownComplete .. | .setFeaturesPowerManagement .. | .asyncEventRequest .. =>
    [.regs, .lkt, .hst, .sgd]
  | .bar0DoorbellInvalid .. | .disturbanceClassEnd .. | .bankOvervoltage .. | .drbgReseed .. =>
    [.regs, .lkt, .sgd]
  | .sqTailDoorbell .. | .cqHeadDoorbell .. | .completionPost .. | .nvmeWrite .. | .zoneAppend .. | .nvmeRead ..
    | .nvmeFlush .. | .datasetManagement .. | .zoneClose .. | .zoneFinish .. | .zoneOpen .. | .zoneReset .. | .zoneOffline ..
    | .zoneMgmtSendInvalid .. | .reportZones .. | .extendedReportZones .. | .descRead .. | .descProgram ..
    | .descJoinedProgram .. | .descErase .. | .descReadStatus .. | .descGetFeatures .. | .descSetFeatures .. | .descReadId ..
    | .descReadParam .. | .descResetDie .. | .descZqCal .. | .descTrain .. | .seqClose .. | .controlStoreParity ..
    | .bufferFree .. | .bufferHandover .. =>
    [.regs, .fab, .acm, .mbx, .lkt, .hst, .slm, .zne, .plc, .dsc, .med, .flash, .bpm, .ump, .sgd, .dge, .age]
  | .sqeFetch .. =>
    [.regs, .lkt, .hst, .slm, .sgd]
  | .placementDecision .. | .stripeClose .. | .namespaceReleaseDone .. | .zoneActionTakesEffect .. =>
    [.regs, .hst, .zne, .plc, .dsc, .med]
  | .xteEncrypt .. | .xteDecrypt .. =>
    [.regs, .lkt, .hst, .slm, .zne, .plc, .dsc, .med, .flash, .bpm, .ump, .sgd, .kst]
  | .stagingCopy .. =>
    [.regs, .hst, .slm, .zne, .plc, .dsc, .med, .dmc]
  | .stripeAssemble .. =>
    [.regs, .plc, .dsc]
  | .foldStart .. | .collectionTrigger =>
    [.regs, .lkt, .hst, .zne, .plc, .dsc, .med, .ump, .sgd]
  | .computeResetRelease | .coldResetBallRelease =>
    [.regs, .latch, .sel, .tmb, .acm, .svc, .lkt, .hst, .zne, .plc, .dsc, .med, .flash, .bpm, .ump, .sgd, .kst, .sgn, .cls, .bot, .age, .free]
  | .dropout .. | .computePgoodFall | .coldReset =>
    [.regs, .mbx, .lkt, .hst, .dsc, .flash, .ump, .sgd, .cls, .bot]
  | .emergencyFlushDone =>
    [.regs, .lkt, .med, .sgd, .sgn]
  | .emergencyIndexProgrammed | .claspPowerUp .. =>
    [.regs, .latch, .sel, .fab, .tmb, .acm, .spdm, .svc, .mbx, .lkt, .hst, .slm, .zne, .plc, .dsc, .med, .flash, .bpm, .dmc, .ump, .sgd,
     .kst, .dge, .sgn, .cls, .bot, .age, .tsn, .free]
  | .coreWatchdogExpiry .. =>
    [.regs, .fab, .acm, .mbx, .lkt, .hst, .slm, .zne, .plc, .dsc, .med, .flash, .bpm, .ump, .sgd, .dge, .cls, .bot, .age]
  | .spareTakeover =>
    [.regs, .fab, .lkt, .bpm, .sgd, .dge]
  | .timeCeilingStore | .timeCeilingHold | .crystalStop =>
    [.regs, .tmb]
  | .crystalReturn | .chargeTimeout | .bootWaitExpiry | .freezeTimeout =>
    [.regs, .tmb, .lkt, .sgd]
  | .spdmGetVersion .. | .spdmGetCapabilities .. | .spdmNegotiateAlgorithms .. | .spdmGetDigests .. | .spdmGetCertificate ..
    | .spdmHeartbeat .. | .spdmUnsupportedRequest .. =>
    [.regs, .spdm, .lkt, .hst, .sgd]
  | .spdmChallenge .. | .spdmGetMeasurements .. | .spdmKeyExchange .. | .spdmFinish .. | .spdmKeyUpdate .. | .spdmEndSession .. =>
    [.regs, .spdm, .lkt, .hst, .sgd, .kst]
  | .sessionHeartbeatTimeout .. =>
    [.regs, .tmb, .spdm, .lkt, .sgd, .kst]
  | .cardDrainEnd .. =>
    [.regs, .acm, .bpm]
  | .cardRelease .. =>
    [.regs, .fab, .acm, .spdm, .mbx, .lkt, .hst, .zne, .plc, .dsc, .med, .flash, .ump, .sgd, .age]
  | .cardList .. | .mailboxUnknownOpcode .. | .getIdentity .. | .getCaps .. | .getOpcodes .. | .getSession .. | .getHealth ..
    | .sliceQuery .. | .classRead .. | .placementStatus .. | .umpStatus .. | .keyMapRead .. | .signetInfo .. | .signetRead ..
    | .signetChain .. | .locketInfo .. | .locketRead .. | .locketFreeze .. | .locketThaw .. | .settingsRead .. | .ageSummary ..
    | .ageReport .. | .agePlanNow .. | .diagCounters .. =>
    [.regs, .spdm, .mbx, .lkt, .hst, .sgd]
  | .acmCardQuery .. | .dscPredBankSwitch .. | .bpmMinClear .. | .dmcSelfRefresh .. | .injectorArm .. | .umpCostBankSwitch ..
    | .dgeUdsClose .. | .dgeBootClose .. | .locketPost .. =>
    [.regs, .fab, .lkt, .sgd]
  | .svcIdcode =>
    [.svc, .free]
  | .svcBypass .. | .svcBoundaryScan .. =>
    [.svc]
  | .svcChallenge =>
    [.svc, .kst]
  | .svcResponse .. =>
    [.regs, .fab, .svc, .lkt, .hst, .zne, .plc, .dsc, .med, .flash, .ump, .sgd, .kst, .sgn, .bot]
  | .svcChallengeExpiry =>
    [.regs, .tmb, .svc]
  | .mailboxLateWrite .. =>
    [.regs, .mbx]
  | .volleyTimeout .. =>
    [.regs, .tmb, .mbx, .lkt, .hst, .sgd]
  | .mctpSetEndpointId .. | .mctpGetEndpointId | .mctpGetMessageTypeSupport | .nvmeMiSubsystemHealthPoll
    | .nvmeMiControllerHealthPoll .. | .nvmeMiBasicRead =>
    [.regs, .mbx, .lkt, .hst, .sgd]
  | .mctpGetVersionSupport | .nvmeMiReadDataStructure .. =>
    [.regs, .mbx, .lkt, .hst, .sgd, .free]
  | .mctpDroppedType .. | .smbusPecError | .dedicatedGroupRelease .. | .csScrubPass .. | .panicAssert .. | .aonUnblock
    | .ecrcCheckFail .. | .l0pWidthChange .. | .aspmL1Entry .. | .aspmL1Exit .. | .i3cDynamicAddressAssign .. =>
    [.regs]
  | .sidebandBusReset =>
    [.regs, .spdm, .lkt, .sgd, .kst]
  | .doeDiscovery .. | .doeInvalidObject .. =>
    [.mbx]
  | .sliceCreate .. =>
    [.regs, .spdm, .mbx, .lkt, .hst, .slm, .zne, .plc, .med, .bpm, .sgd]
  | .sliceDelete .. =>
    [.regs, .spdm, .mbx, .lkt, .hst, .slm, .zne, .plc, .dsc, .med, .bpm, .sgd]
  | .sliceBindPort .. | .sliceUnbindPort .. | .sliceSetShares .. | .classMaskSet .. =>
    [.regs, .spdm, .mbx, .lkt, .hst, .slm, .zne, .plc, .med, .sgd]
  | .sliceReset .. =>
    [.regs, .spdm, .mbx, .lkt, .hst, .slm, .zne, .plc, .dsc, .med, .flash, .bpm, .ump, .sgd]
  | .sliceBindChannel .. | .sliceUnbindChannel .. | .nsCreate .. | .classWrite .. =>
    [.regs, .spdm, .mbx, .lkt, .hst, .zne, .plc, .med, .sgd]
  | .nsDelete .. =>
    [.regs, .spdm, .mbx, .lkt, .hst, .zne, .plc, .dsc, .med, .sgd]
  | .umpSetBudget .. | .umpSetPpLimit .. | .fwInbandEnable .. | .settingsWrite .. =>
    [.regs, .spdm, .mbx, .lkt, .hst, .sgd, .bot]
  | .keyGenerate .. | .keyImport .. | .keyBind .. | .keyRewriteDrbg .. | .keyRewriteImport .. | .nsCryptoErase .. =>
    [.regs, .spdm, .mbx, .lkt, .hst, .sgd, .kst]
  | .keyWriteWaitTimeout .. =>
    [.regs, .tmb, .spdm, .mbx, .lkt, .hst, .sgd, .kst]
  | .keyZeroise .. =>
    [.regs, .spdm, .mbx, .lkt, .hst, .zne, .plc, .dsc, .med, .flash, .ump, .sgd, .kst]
  | .cryptoEraseDrained .. =>
    [.regs, .hst, .zne, .plc, .dsc, .med, .kst]
  | .mgrAnchorWrite .. | .ofcAnchorWrite .. =>
    [.regs, .spdm, .mbx, .lkt, .hst, .sgd, .kst, .sgn]
  | .fwSlotInfo .. | .selftestStatus .. =>
    [.regs, .spdm, .mbx, .lkt, .hst, .sgd, .free]
  | .fwDownload .. =>
    [.regs, .spdm, .mbx, .lkt, .hst, .sgd, .cls, .bot]
  | .fwCommitStore .. | .fwCommitStoreActivate .. | .fwCommitActivate .. =>
    [.regs, .spdm, .mbx, .lkt, .hst, .zne, .plc, .dsc, .med, .flash, .ump, .sgd, .cls, .bot]
  | .ucodeLoad .. =>
    [.regs, .spdm, .mbx, .lkt, .hst, .sgd, .kst, .sgn, .cls, .bot]
  | .selftestStartShort .. | .selftestStartExtended .. =>
    [.regs, .spdm, .mbx, .lkt, .hst, .plc, .dsc, .med, .ump, .sgd]
  | .selftestAbort .. | .holdupTestStart .. | .holdupTestReport .. =>
    [.regs, .spdm, .mbx, .lkt, .hst, .dsc, .sgd]
  | .selftestEnd .. | .deviceSelfTestAbort .. =>
    [.regs, .lkt, .hst, .dsc, .sgd]
  | .perstAssert .. =>
    [.regs, .acm, .spdm, .mbx, .lkt, .hst, .slm, .zne, .plc, .dsc, .med, .flash, .bpm, .ump, .sgd, .kst, .bot]
  | .dlDown .. | .hotReset .. | .functionLevelReset .. | .ccEnClear .. =>
    [.regs, .acm, .mbx, .lkt, .hst, .slm, .zne, .plc, .dsc, .med, .flash, .bpm, .ump, .sgd, .bot]
  | .ccEnSet .. =>
    [.regs, .lkt, .hst, .sgd, .free]
  | .ccShnWrite .. | .abort .. | .getLogSliceBinding .. | .setFeaturesArbitration .. | .setFeaturesTemperatureThreshold ..
    | .setFeaturesInterruptCoalescing .. | .setFeaturesInterruptVectorCfg .. | .setFeaturesAsyncEventConfig ..
    | .setFeaturesApst .. | .firmwareCommitImmediate .. | .adminInvalidOpcode .. | .ioInvalidOpcode .. | .perstDeassert ..
    | .interruptCoalescingTimeout .. =>
    [.hst]
  | .deleteIoSq .. =>
    [.regs, .lkt, .hst, .zne, .plc, .dsc, .med, .flash, .ump, .sgd]
  | .sqDeletionDone .. | .createIoSq .. | .deleteIoCq .. | .createIoCq .. | .maintenanceExcursion
    | .hostReadCompletionTimeout .. | .poisonedCompletion .. | .linkRecovery .. =>
    [.regs, .hst]
  | .identify .. | .getLogSmart .. | .getLogErrorInfo .. | .getLogFirmwareSlot .. | .getLogSelfTest ..
    | .getLogTelemetryCapture .. | .getLogTelemetryRead .. | .setFeaturesNumberOfQueues .. | .getFeatures .. =>
    [.hst, .free]
  | .firmwareImageDownload .. =>
    [.regs, .hst, .cls, .bot]
  | .firmwareCommitReplace .. | .firmwareCommitReplaceActivate .. | .firmwareCommitActivate .. =>
    [.regs, .mbx, .lkt, .hst, .zne, .plc, .dsc, .med, .flash, .ump, .sgd, .cls, .bot]
  | .deviceSelfTestShort .. | .deviceSelfTestExtended .. | .readServeChoice .. | .wearLevelTrigger .. =>
    [.regs, .lkt, .hst, .plc, .dsc, .med, .ump, .sgd]
  | .descriptorRebuildDone .. =>
    [.regs, .lkt, .zne, .sgd]
  | .psEntry | .rebuildDone .. =>
    [.regs, .lkt, .hst, .zne, .plc, .dsc, .med, .sgd]
  | .apstIdleTimer .. =>
    [.regs, .tmb, .lkt, .hst, .sgd]
  | .sliceResetComplete .. =>
    [.regs, .acm, .lkt, .hst, .slm, .zne, .plc, .dsc, .med, .flash, .bpm, .ump, .sgd]
  | .slmResetStart .. =>
    [.regs, .fab, .mbx, .lkt, .hst, .slm, .zne, .plc, .dsc, .med, .flash, .bpm, .ump, .sgd]
  | .slmShareStage .. =>
    [.regs, .fab, .lkt, .slm, .zne, .plc, .med, .sgd]
  | .epochStart .. =>
    [.regs, .tmb, .lkt, .slm, .zne, .dsc, .dmc, .ump, .age]
  | .stripePrepare .. =>
    [.regs, .hst, .plc, .dsc, .med]
  | .groupScoreTick | .backlogReport =>
    [.plc]
  | .stripeIdlePad .. =>
    [.regs, .tmb, .plc, .dsc]
  | .tailFlush .. =>
    [.regs, .tmb, .hst, .zne, .plc, .dsc, .med]
  | .directPageProgram .. =>
    [.regs, .zne, .plc, .dsc, .med]
  | .groupQuietEnter .. =>
    [.regs, .plc]
  | .groupQuietExit .. =>
    [.regs, .tmb, .plc, .dsc, .med]
  | .streamInactive .. =>
    [.regs, .tmb, .plc]
  | .plcGrpHoldWrite .. =>
    [.regs, .fab, .lkt, .zne, .plc, .med, .sgd]
  | .reboundCombine .. | .ldpcDecode .. =>
    [.regs, .lkt, .hst, .zne, .plc, .dsc, .med, .flash, .ump, .sgd, .age]
  | .dscIssue .. | .resumeTaken .. =>
    [.regs, .dsc, .flash]
  | .suspendWindowExpiry .. =>
    [.regs, .tmb, .dsc]
  | .dscLatClear .. | .sgdTestStart .. | .sgdFlushWWrite .. =>
    [.regs, .fab, .lkt, .dsc, .sgd]
  | .checkpointCycleEnd =>
    [.regs, .tmb, .zne, .plc, .dsc, .med, .cls]
  | .journalBlockErase .. =>
    [.regs, .plc, .dsc, .med]
  | .descCustomer .. =>
    [.regs, .fab, .tmb, .acm, .mbx, .lkt, .hst, .slm, .zne, .plc, .dsc, .med, .flash, .bpm, .dmc, .ump, .sgd, .dge, .age, .free]
  | .chsPost .. | .ucodeControlStoreLoad .. =>
    [.regs, .fab, .lkt, .flash, .sgd]
  | .operationComplete .. =>
    [.regs, .fab, .tmb, .lkt, .hst, .zne, .plc, .dsc, .med, .flash, .bpm, .dmc, .ump, .sgd, .age, .free]
  | .dieTimeout .. =>
    [.regs, .tmb, .lkt, .dsc, .flash, .bpm, .sgd]
  | .suspendTaken .. =>
    [.regs, .tmb, .dsc, .flash, .bpm]
  | .yieldOverrun .. | .customerRoutineOverrun .. =>
    [.regs, .fab, .tmb, .acm, .mbx, .lkt, .hst, .slm, .zne, .plc, .dsc, .med, .flash, .bpm, .ump, .sgd, .dge, .age]
  | .busGrant .. =>
    [.regs, .dsc, .flash, .bpm, .dmc]
  | .collectorTake =>
    [.regs, .acm, .lkt, .hst, .zne, .plc, .dsc, .med, .flash, .ump, .sgd, .age]
  | .sequencerReset .. =>
    [.regs, .fab, .acm, .lkt, .dsc, .flash, .ump, .sgd]
  | .bufferAlloc .. | .allocRetry .. | .leakAuditPass =>
    [.regs, .lkt, .bpm, .sgd]
  | .bufferZeroed .. =>
    [.regs, .fab, .bpm]
  | .bpmQuotaWrite .. =>
    [.regs, .fab, .lkt, .bpm, .sgd]
  | .speedChangeRequest .. | .gatherOpen .. | .gatherClose .. =>
    [.regs, .fab, .lkt, .dmc, .sgd]
  | .speedChangeDone | .gatherStep .. | .refreshDue .. | .panicEnd | .vrSettled .. =>
    [.regs, .dmc]
  | .gatherTimeout =>
    [.regs, .tmb, .dmc]
  | .mr4Poll .. =>
    [.regs, .dmc, .ump]
  | .dramScrubRead .. =>
    [.regs, .spdm, .mbx, .lkt, .hst, .zne, .plc, .dsc, .med, .flash, .bpm, .dmc, .ump, .sgd, .kst, .bot]
  | .sramScrubRead .. =>
    [.regs, .spdm, .mbx, .lkt, .hst, .zne, .plc, .dsc, .med, .flash, .bpm, .dmc, .ump, .sgd, .kst]
  | .callRequest .. =>
    [.regs, .dsc, .ump]
  | .callGrant .. | .groupCall .. | .callReturn .. | .thermalStep =>
    [.regs, .ump]
  | .holBlock .. | .floorHoldExpiry =>
    [.regs, .tmb, .ump]
  | .vrTimeout .. =>
    [.regs, .lkt, .ump, .sgd]
  | .sagEnter .. | .brownOutEnter .. | .surgeEnter .. | .rippleEnter .. | .bankBelowRecharge .. | .bankAtTarget .. =>
    [.regs, .sgd]
  | .surgeFilterExpiry =>
    [.regs, .tmb, .mbx, .lkt, .hst, .dsc, .flash, .ump, .sgd, .cls]
  | .dischargeTestDue | .cellLossRetest =>
    [.regs, .tmb, .dsc, .sgd]
  | .dischargeTestBegin | .testV1Sample .. | .restartHoldEnd =>
    [.regs, .tmb, .sgd]
  | .testV2Reached .. =>
    [.regs, .tmb, .lkt, .hst, .dsc, .sgd, .age]
  | .testTimeout =>
    [.regs, .tmb, .lkt, .hst, .dsc, .sgd]
  | .dirtyLimitRecompute =>
    [.regs, .dsc]
  | .computePgoodRise =>
    [.sgd]
  | .pveGcmEncrypt .. | .pveGcmDecrypt .. | .pveKeyWrap .. | .pveKeyUnwrap .. | .pveCmac .. =>
    [.regs, .fab, .acm, .mbx, .lkt, .hst, .slm, .zne, .plc, .dsc, .med, .flash, .bpm, .ump, .sgd, .kst, .dge, .age]
  | .dgeSha384 .. | .dgeSha512 .. | .dgeHmacSha384 .. | .dgeHmacSha512 .. | .dgeHkdfExpand .. =>
    [.regs, .fab, .acm, .mbx, .lkt, .hst, .slm, .zne, .plc, .dsc, .med, .flash, .bpm, .ump, .sgd, .kst, .dge, .age, .free]
  | .snoopArm .. | .snoopEnd .. =>
    [.regs, .fab, .lkt, .sgd, .dge]
  | .pkeSign .. | .pkeEcdh .. =>
    [.regs, .fab, .acm, .mbx, .lkt, .hst, .slm, .zne, .plc, .dsc, .med, .flash, .bpm, .dmc, .ump, .sgd, .kst, .dge, .age]
  | .pkeVerify .. =>
    [.regs, .fab, .dmc, .dge]
  | .pkePubkey .. =>
    [.regs, .fab, .acm, .mbx, .lkt, .hst, .slm, .zne, .plc, .dsc, .med, .flash, .bpm, .dmc, .ump, .sgd, .dge, .age]
  | .signetAppend .. =>
    [.regs, .fab, .lkt, .sgd, .kst, .sgn]
  | .signetCommit =>
    [.regs, .sgn]
  | .signetCompaction =>
    [.regs, .lkt, .sgd, .kst, .sgn]
  | .clsRead | .clsProgram | .clsErase | .clsBlankCheck | .clsLock | .clsUnlock | .clsSetPassword =>
    [.regs, .fab, .acm, .mbx, .lkt, .hst, .slm, .zne, .plc, .dsc, .med, .flash, .bpm, .dmc, .ump, .sgd, .dge, .cls, .age]
  | .clsDescComplete .. =>
    [.regs, .fab, .acm, .mbx, .lkt, .hst, .slm, .zne, .plc, .dsc, .med, .flash, .bpm, .dmc, .ump, .sgd, .dge, .sgn, .cls, .bot, .age, .free]
  | .clsSlotRelease .. | .continuousReadStop .. =>
    [.regs, .fab, .lkt, .sgd, .cls]
  | .clsEraseSuspend =>
    [.regs, .tmb, .cls]
  | .clsEraseResume =>
    [.regs, .cls]
  | .continuousRead .. =>
    [.regs, .fab, .lkt, .dmc, .sgd, .dge, .cls, .free]
  | .aonBlock =>
    [.regs, .lkt, .sgd, .cls]
  | .claspDieReset =>
    [.regs, .latch, .sel, .fab, .acm, .spdm, .svc, .mbx, .lkt, .hst, .slm, .zne, .plc, .dsc, .med, .flash, .bpm, .dmc, .ump, .sgd, .kst,
     .dge, .sgn, .cls, .bot, .age, .tsn, .free]
  | .warmReset .. | .botFallback .. =>
    [.regs, .fab, .mbx, .lkt, .hst, .dsc, .flash, .ump, .sgd, .cls, .bot]
  | .fuseAdvance .. =>
    [.regs, .fab, .lkt, .sgd, .bot]
  | .slotWriteDone =>
    [.regs, .mbx, .lkt, .hst, .zne, .plc, .dsc, .med, .flash, .ump, .sgd, .kst, .sgn, .cls, .bot]
  | .recoveryExit =>
    [.regs, .tmb, .mbx, .lkt, .hst, .dsc, .flash, .ump, .sgd, .cls, .bot]
  | .rallyMeasure .. | .dramRegather .. =>
    [.regs, .tmb, .lkt, .sgd, .age]
  | .planningRun .. =>
    [.regs, .tmb, .lkt, .hst, .plc, .dsc, .med, .ump, .sgd, .age]
  | .locketFlush =>
    [.regs, .tmb, .lkt]
  | .locketFlushDone =>
    [.regs, .lkt]
  | .tsnSample .. =>
    [.regs, .tmb, .lkt, .hst, .ump, .sgd, .age, .tsn]
  | .thermalTrip =>
    [.regs, .tmb, .hst]

/-- `t` has the parts outside `l` of `s`, the same part, and the same queue. -/
def Keeps (l : List Piece) (s t : Machine.State) : Prop := t.part = s.part ∧ t.pending = s.pending ∧ ∀ p, p ∉ l → p.same s t

/-- The canonical form of the fabric's memories: addresses strictly rise, and no byte is listed that is what an unlisted one reads as. -/
def Machine.Memory.wf (m : Machine.SMap Byte) : Bool := Machine.SMap.wf m && m.all fun e => e.2 != 0

/-- The invariant of every step: the register file is in its canonical form. -/
def Canon (s : Machine.State) : Prop := RegFile.wf s.regs = true

/-- A fold of zone `zi` finds plane sets for its units: for some of them, or for all where it rewrites the extents (R222). -/
def foldGoes (s : State) (zi id : Nat) (n : Ns) (q2 : Bool) : Prop :=
  let us := foldUnits s n (zoneGet s zi)
  let reads := foldReads s (if q2 then 2 else 3) zi id n us
  let sets := foldSets reads.2 (if q2 then 2 else 3) (now s) zi (zoneGet s zi).cls n (reads.1.map fun u => (u.1, Member.fetch u.2)) 64
  foldIds sets.2 sets.1.stripes ≠ [] ∧ (foldWhole (zoneGet s zi) = true → us.length ≤ (foldIds sets.2 sets.1.stripes).length)

end Sys2Proof
end

