-- ==== Sys2Proof/Certificates/Slice0/Obligations.lean ====
section
/-! DEFINITION. The statements to be proved: the machine's step, its invariants and frames, and for every family of commands when
each completes and what it leaves. A clause names the command it is about. -/
open Sys2Proof Sys2Proof.Machine

/-- A step carries out the command at the front of the queue with the queue's rest; an empty queue lets time pass (R13, R60). For
every command c and state s, a step of s with c at the front of its queue is exec of c on s with the queue's rest. With an empty
queue the step answers a next state in which device time has moved on by 1 ns unless it is held, DRAM has taken its next burst where
a request waits at its ports, and everything but the time base, the HELD flag's register, the refresh counter and DRAM's own state is
as before (that time passes and a burst is issued then is the model's choice, log entry 1). -/
def Obligations.StepTakesTheFront : Prop :=
  -- front
  (∀ (c : Instr) (l : List Instr) (s : Machine.State), Machine.step { s with pending := c :: l } = Machine.exec c { s with pending := l }) ∧
  -- queue
  (∀ (c : Instr) (l : List Instr) (s : Machine.State), s.pending = c :: l → Machine.step s = Machine.exec c { s with pending := l }) ∧
  -- empty
  (∀ (s : Machine.State), s.pending = [] → ∃ t, Machine.step s = .next t ∧ t.pending = [] ∧ Keeps [.tmb, .regs, .dmc] s t ∧
     RegsBut [Fld.TMB_STATUS_HELD.addr, (Fld.DMC_COUNT_COUNT 0).addr] s t ∧
     (fone s Fld.TMB_STATUS_HELD = false → pulsesBlocked s = false → now t = now s + 1) ∧ (fone s Fld.TMB_STATUS_HELD = true → now t = now s) ∧
     (s.dmc.rt = [] → s.dmc.nrm = [] → t.dmc = s.dmc ∧ RegsBut [Fld.TMB_STATUS_HELD.addr] s t ∧ (fone s Fld.TMB_STATUS_HELD = true → t = s)))

/-- The state after reset (R22, R60, R61). After reset every register reads the reset value of its table (0 where an address is in
no table), device time is 0 with no ceiling stored, the boot counter is 0, the queue is empty, no master is carded, no session,
context, zone or buffer exists, the compute die is not released, and the register file is in its canonical form. Values the spec
does not give are the model's (log entry 2) and are not stated here. -/
def Obligations.ResetState : Prop :=
  -- registers
  (∀ a, RegFile.get State.reset.regs a = regReset a) ∧
  -- state
  (Canon State.reset ∧ State.reset.pending = [] ∧ now State.reset = 0 ∧ State.reset.tmb.ceiling = none ∧ State.reset.tmb.boots = 0 ∧ State.reset.acm.cards = [] ∧ State.reset.spdm.sessions = [] ∧
     State.reset.hst.ctx = [] ∧ State.reset.zne.zones = [] ∧ State.reset.bpm.bufs = [] ∧ State.reset.sgd.released = false)

/-- Every command answers a next state (R16, R110). In every state every command of the block answers a next state: none stops in a
fault or a refusal, whatever its operands; a command that the block turns away answers the state in which it has been turned away.
-/
def Obligations.EveryCommandCompletes : Prop :=
  -- all
  ∀ (c : Instr) (s : Machine.State), Completes c s

/-- What each command leaves unchanged (R3, R16). For every command c and every state, when exec of c answers a next state, the
facts of the part and the queue are as before, and so is every piece of state that the table mayChange does not name for c:
registers and latches, the time base, cards, sessions, the service port, the mailbox, the recorder, the host side, slices, zones and
maps, placement, the deadline scheduler, the media tables, the sequencers, buffers, DRAM, the umpire, the supply guard, keys, the
digest engine, the ledger, the Clasp store, boot, ageing, sensors, and the draws of open values. -/
def Obligations.FramesOfAllCommands : Prop :=
  -- all
  ∀ (c : Instr) (s t : Machine.State), Machine.exec c s = .next t → Keeps (mayChange c) s t

/-- Every step keeps the register file canonical, the part as assembled, and takes one command (R16, R20, R22). From every state
whose register file is in its canonical form (addresses strictly rising, no listed register at its reset value), every step that
answers a next state, whatever command stands at the front, answers one whose register file is in that form, whose part is the same,
and whose queue is the rest of the queue; so two states with equal register contents are equal data after any run. -/
def Obligations.EveryStepKeepsCanon : Prop :=
  -- step
  ∀ (s t : Machine.State), Canon s → Machine.step s = .next t → Canon t ∧ t.part = s.part ∧ t.pending = s.pending.tail

/-- Device time never decreases, over any step and over a loss of power (R59, R60). Over every step, whatever command it carries
out, device time does not decrease (R59). A power-up of the Clasp die at or below the stored ceiling resumes later than every time
before it: at the ceiling + 1 µs (R60). Where device time passed the ceiling (no ceiling store came in time), the model resumes no
earlier than it stood (log entry 40). -/
def Obligations.DeviceTimeNeverDecreases : Prop :=
  -- step
  (∀ (s t : Machine.State), Machine.step s = .next t → now s ≤ now t) ∧
  -- power-up
  (∀ (v b c : Nat) (s : Machine.State), s.tmb.ceiling = some c → now s ≤ c → Gives (.claspPowerUp v b) s fun t => now t = c + 1000 ∧ now s < now t)

/-- REGISTER_WRITE: each field takes what its access code gives (R16, R20). A write the access matrix admits to a register without an
effect of its own (blocks 3, 18 without SGN_APPEND, 21, 26, 27 and 28) puts into every field that is not W1S what the field's access code
gives of the old and the written bits, leaves every other register as it was, and answers ST_OK. -/
def Obligations.RegisterWriteByAccessCode : Prop :=
  -- registerWrite
  ∀ (m : Master) (a : Nat) (v : Word) (n : Nat) (s : Machine.State) (r : RegSpec) (k : Nat),
    regAt a = some (r, k) → decideWrite s (writerOf s m a) a n = .admitted 0 →
    blockOf a ∈ [some 3, some 18, some 21, some 26, some 27, some 28] → a ≠ Reg.SGN_APPEND → perMaster a = false →
    Gives (.registerWrite m a v n) s fun t => fabSays t ST_OK 0 false ∧ RegsBut [a] s t ∧
      ∀ f, f ∈ r.fields → f.acc ≠ .w1s → bits (RegFile.get t.regs a).toNat f.lo (f.hi - f.lo + 1) =
        writeField f.acc (isLocked s a) (fieldResetAt f k) (bits (RegFile.get s.regs a).toNat f.lo (f.hi - f.lo + 1))
          (bits v.toNat f.lo (f.hi - f.lo + 1))

/-- A write outside the write set completes with ST_DENIED and has no effect (R72). For every register write by a master that counts
as a class whose governing entry leaves that class out of the write set, the command completes, answers ST_DENIED, and changes
nothing but the answer: no register, no card, no record. -/
def Obligations.MatrixDeniesWrites : Prop :=
  -- registerWrite
  ∀ (m : Master) (a : Nat) (v : Word) (n : Nat) (s : Machine.State) (c : Cls) (e : MatEntry),
    writerOf s m a = .cls c → matFind s a = some e → e.writeSet.testBit (clsCode c) = false →
    Gives (.registerWrite m a v n) s fun t => fabSays t ST_DENIED 0 false ∧ t = { s with fab := t.fab }

/-- What a read returns inside and outside the read set (R71). A read by a class outside the read set is denied or blinded by MODE
and changes nothing but the answer; a read by a class inside it returns the register's value, the field mask's bits 0 with BLIND
unless the class is in the field set (registers that hold key material aside: R73). -/
def Obligations.MatrixGovernsReads : Prop :=
  -- latchedLoRead outside, deny
  (∀ (m : Master) (a n : Nat) (s : Machine.State) (c : Cls) (e : MatEntry),
     whoOf s m = .cls c → matFind s a = some e → e.readSet.testBit (clsCode c) = false → e.blind = false →
     Gives (.latchedLoRead m a n) s fun t => fabSays t ST_DENIED 0 false ∧ t = { s with fab := t.fab }) ∧
  -- latchedLoRead outside, blind
  (∀ (m : Master) (a n : Nat) (s : Machine.State) (c : Cls) (e : MatEntry),
     whoOf s m = .cls c → matFind s a = some e → e.readSet.testBit (clsCode c) = false → e.blind = true →
     Gives (.latchedLoRead m a n) s fun t => fabSays t ST_OK 0 true ∧ t = { s with fab := t.fab }) ∧
  -- latchedLoRead inside
  (∀ (m : Master) (a n : Nat) (s : Machine.State) (c : Cls) (e : MatEntry),
     whoOf s m = .cls c → matFind s a = some e → e.readSet.testBit (clsCode c) = true → reaches a n = true → material a = false →
     Gives (.latchedLoRead m a n) s fun t =>
       (e.fieldSet.testBit (clsCode c) = true → fabSays t ST_OK (readAt s m a).1 false) ∧
       (e.fieldSet.testBit (clsCode c) = false → t.fab.status = ST_OK ∧ t.fab.blind = decide (e.mask ≠ 0) ∧
         ∀ i, t.fab.value.testBit i = ((readAt s m a).1.testBit i && !e.mask.testBit i)))

/-- Registers without a valid entry, unused offsets, memories, and registers that hold key material (R97, R33, R34, R35, R73). Where no
valid entry governs an address, a class other than SERVICE is denied with no effect and no record; SERVICE reads a register that
exists; at an address that reaches no register and no memory, an access of SERVICE or of firmware's housekeeping gets a fabric
address error, value 0, and so does an access of a class in the set that is not an aligned one of 32 bits. Firmware's write of bytes
of the tightly coupled SRAM leaves those bytes there and every other byte of the memories as it was, and its read returns them. A
read of a register that holds key material or the lock password (R73) answers value 0 whatever class the master acts as, with BLIND
to a class in the read set, and changes nothing but the answer and, for an access error, the recorder. -/
def Obligations.UnlistedAndMaterialRegisters : Prop :=
  -- registerWrite others
  (∀ (m : Master) (a : Nat) (v : Word) (n : Nat) (s : Machine.State) (c : Cls), writerOf s m a = .cls c → c ≠ .service → matFind s a = none →
     Gives (.registerWrite m a v n) s fun t => fabSays t ST_DENIED 0 false ∧ t = { s with fab := t.fab }) ∧
  -- latchedLoRead others
  (∀ (m : Master) (a n : Nat) (s : Machine.State) (c : Cls), whoOf s m = .cls c → c ≠ .service → matFind s a = none →
     Gives (.latchedLoRead m a n) s fun t => fabSays t ST_DENIED 0 false ∧ t = { s with fab := t.fab }) ∧
  -- latchedLoRead service
  (∀ (m : Master) (a n : Nat) (s : Machine.State), whoOf s m = .cls .service → matFind s a = none → memoryAddr a = false → reaches a n = true →
     material a = false → Gives (.latchedLoRead m a n) s fun t => fabSays t ST_OK (readAt s m a).1 false) ∧
  -- latchedLoRead error
  (∀ (m : Master) (a n : Nat) (s : Machine.State), reaches a n = false →
     whoOf s m = .cls .service ∧ matFind s a = none ∧ memoryAddr a = false ∨ whoOf s m = .house ∧ inRom a n = false ∧ inRam s a n = false ∨
       (∃ c e, whoOf s m = .cls c ∧ matFind s a = some e ∧ e.readSet.testBit (clsCode c) = true) →
     Gives (.latchedLoRead m a n) s fun t => fabSays t ST_FABRIC_ERROR 0 false ∧ RegsBut lktRegs s t ∧ t.acm = s.acm) ∧
  -- registerWrite error
  (∀ (m : Master) (a : Nat) (v : Word) (n : Nat) (s : Machine.State), reaches a n = false →
     writerOf s m a = .cls .service ∧ matFind s a = none ∧ memoryAddr a = false ∨ writerOf s m a = .house ∧ inRam s a n = false ∨
       (∃ c e, writerOf s m a = .cls c ∧ matFind s a = some e ∧ e.writeSet.testBit (clsCode c) = true) →
     Gives (.registerWrite m a v n) s fun t => fabSays t ST_FABRIC_ERROR 0 false ∧ RegsBut lktRegs s t ∧ t.acm = s.acm) ∧
  -- registerWrite memory
  (∀ (m : Master) (a : Nat) (v : Word) (n : Nat) (s : Machine.State), writerOf s m a = .house → reaches a n = false → 0x10000000 ≤ a →
     a + n ≤ 0x10400000 → s.dmc.ues = [] → s.dmc.flips = [] → fone s Fld.MEP_INJ_CTRL_ARM = false →
     Gives (.registerWrite m a v n) s fun t => fabSays t ST_OK 0 false ∧ t.regs = s.regs ∧ Keeps [.fab, .dmc] s t ∧
       ∀ k, k < 0x40000000 → memByte t k = if a ≤ k ∧ k < a + n then (le n v.toNat).getD (k - a) 0 else memByte s k) ∧
  -- latchedLoRead memory
  (∀ (m : Master) (a n : Nat) (s : Machine.State), whoOf s m = .house → reaches a n = false → 0x10000000 ≤ a → a + n ≤ 0x10400000 →
     s.dmc.ues = [] → s.dmc.flips = [] →
     Gives (.latchedLoRead m a n) s fun t => fabSays t ST_OK (leNat ((List.range n).map fun i => memByte s (a + i))) false ∧
       t = { s with fab := t.fab }) ∧
  -- latchedLoRead
  (∀ (m : Master) (a n : Nat) (s : Machine.State), material a = true → reaches a n = true →
     Gives (.latchedLoRead m a n) s fun t => t.fab.value = 0 ∧ RegsBut lktRegs s t ∧
       (∀ c e, whoOf s m = .cls c → matFind s a = some e → e.readSet.testBit (clsCode c) = true → fabSays t ST_OK 0 true))

/-- LATCHED_LO_READ: the LO half latches the HI half (R35, R16). An admitted read of the LO half of a LO/HI pair returns the low
half as it is and latches the high half; a read of the HI half by the same master in the state that follows returns what the pair
held when LO was read. -/
def Obligations.LatchedPairs : Prop :=
  -- latchedLoRead
  ∀ (m : Master) (lo hi : Nat) (s : Machine.State), (lo, hi) ∈ latchPairs → decideRead s (whoOf s m) lo = .admitted 0 →
    decideRead s (whoOf s m) hi = .admitted 0 →
    Gives (.latchedLoRead m lo 4) s fun t => fabSays t ST_OK (regContent s (masterNo m) lo) false ∧ t.regs = s.regs ∧
      Gives (.latchedLoRead m hi 4) t fun u => fabSays u ST_OK (regContent s (masterNo m) hi) false ∧ u.regs = s.regs

/-- ACM_LOCK freezes, counts and measures the matrix; ACM_CARD_QUERY shows a card (R70, R87). An admitted ACM_LOCK on a matrix that
is not locked sets ACM_CTRL.LOCK, counts the valid entries, and puts the SHA-384 digest of the matrix into the digest registers; on
a locked matrix it changes nothing. An admitted ACM_CARD_QUERY write shows in ACM_CARD_RESULT the state, the drain and the violation
code of the master named, and 0 (3: no such master) where it is not carded. -/
def Obligations.MatrixLockAndCardQuery : Prop :=
  -- acmLock
  (∀ (m : Master) (s : Machine.State), decideWrite s (whoOf s m) Reg.ACM_CTRL = .admitted 0 → fone s Fld.ACM_CTRL_LOCK = false →
     Gives (.acmLock m) s fun t => fget t Fld.ACM_CTRL_LOCK = 1 ∧
       fget t Fld.ACM_MATRIX_COUNT_VALID = s.acm.matrix.length % 2 ^ Fld.ACM_MATRIX_COUNT_VALID.w ∧
       t.acm.digest = Config.sha384 (s.acm.matrix.flatMap fun e => (matWords e).flatMap (le 4)) ∧
       (∀ k, k < 12 → rget t (Reg.ACM_MATRIX_DIGEST k) = u32 t.acm.digest (4 * k) % 4294967296) ∧ t.acm.matrix = s.acm.matrix ∧ fabSays t ST_OK 0 false) ∧
  -- acmLock locked
  (∀ (m : Master) (s : Machine.State), decideWrite s (whoOf s m) Reg.ACM_CTRL = .admitted 0 → fone s Fld.ACM_CTRL_LOCK = true →
     Gives (.acmLock m) s fun t => t = { s with fab := t.fab }) ∧
  -- acmCardQuery
  (∀ (m : Master) (v : Word) (s : Machine.State), decideWrite s (whoOf s m) Reg.ACM_CARD_QUERY = .admitted 0 →
     Gives (.acmCardQuery m v) s fun t => fabSays t ST_OK 0 false ∧ t.acm = s.acm ∧
       (∀ c, SMap.find s.acm.cards v.toNat = some c → fget t Fld.ACM_CARD_RESULT_STATE = c.st % 2 ^ Fld.ACM_CARD_RESULT_STATE.w ∧
         fget t Fld.ACM_CARD_RESULT_DRAINED = b2n c.drained ∧ fget t Fld.ACM_CARD_RESULT_CODE = c.code % 2 ^ Fld.ACM_CARD_RESULT_CODE.w) ∧
       (SMap.find s.acm.cards v.toNat = none → fget t Fld.ACM_CARD_RESULT_STATE = if midValid s v.toNat then 0 else 3))

/-- Core pairs stop, are retired or carded, and the spare takes over (R56, R58, R88, R406). LOCKSTEP_MISMATCH and TCM_UE set the
pair's fault bit and retire the pair (state 3); CORE_WATCHDOG_EXPIRY with another pair in service sets the pair's watchdog bit and
cards an uncarded pair under VIO_WATCHDOG; SPARE_TAKEOVER passes the lowest stopped pair's digest contexts to the spare, which
becomes ACTIVE, and counts the takeover; a pair whose tasks have been passed on already is not taken again. -/
def Obligations.CorePairEvents : Prop :=
  -- lockstepMismatch
  (∀ (p : Fin 8) (s : Machine.State), Gives (.lockstepMismatch p) s fun t => pairSt t p.val = 3 ∧ fbit t Fld.FCX_FAULT_MISMATCH p.val = true ∧
     (∀ q, q < 8 → q ≠ p.val → pairSt t q = pairSt s q) ∧ t.acm = s.acm) ∧
  -- tcmUe
  (∀ (p : Fin 8) (s : Machine.State), Gives (.tcmUe p) s fun t => pairSt t p.val = 3 ∧ fbit t Fld.FCX_FAULT_TCM_UE p.val = true ∧
     (∀ q, q < 8 → q ≠ p.val → pairSt t q = pairSt s q) ∧ t.acm = s.acm) ∧
  -- coreWatchdogExpiry
  (∀ (p q : Fin 8) (s : Machine.State), pairSt s p.val = 1 ∨ pairSt s p.val = 2 ∨ pairSt s p.val = 5 → q ≠ p → pairSt s q.val = 1 ∨ pairSt s q.val = 2 →
     SMap.find s.acm.cards (midPair p.val) = none →
     Gives (.coreWatchdogExpiry p) s fun t => pairSt t p.val = 4 ∧ fbit t Fld.FCX_FAULT_WDOG p.val = true ∧
       (SMap.find t.acm.cards (midPair p.val)).map (fun c => (c.code, c.st, c.time)) = some (9, 1, now s)) ∧
  -- spareTakeover
  (∀ (p sp : Nat) (s : Machine.State), p < 8 → pairSt s p = 3 ∨ pairSt s p = 4 → p ∉ s.fab.passed →
     (∀ q, q < p → pairSt s q ≠ 3 ∧ pairSt s q ≠ 4 ∨ q ∈ s.fab.passed) → fone s Fld.FCX_SPARE_TAKEOVER_EN = true → fget s Fld.FCX_SPARE_SPARE_PAIR = sp → pairSt s sp = 2 →
     Gives .spareTakeover s fun t => pairSt t sp = 1 ∧ t.fab.passed = s.fab.passed ++ [p] ∧ fget t Fld.FCX_TAKEOVERS_COUNT = sat Fld.FCX_TAKEOVERS_COUNT.w (fget s Fld.FCX_TAKEOVERS_COUNT + 1) ∧
       t.dge.ctx = SMap.mapv s.dge.ctx (fun _ c => if c.owner = p then { c with owner := sp } else c) ∧
       t.bpm.bufs = SMap.mapv s.bpm.bufs (fun _ b => if b.st == 1 && b.holder == midPair p then { b with holder := midPair sp } else b))

/-- The stored ceiling, the held time and the crystal (R59, R60, R62). TIME_CEILING_STORE with pulses admitted stores device time +
60 s and lets a held time advance; TIME_CEILING_HOLD with pulses blocked brings device time to the ceiling and sets HELD;
CRYSTAL_STOP and CRYSTAL_RETURN set the loss and OK bits and leave device time as it is; CLASP_POWER_UP resumes device time at the
stored ceiling + 1 µs or where it stood, whichever is later. -/
def Obligations.TimeBase : Prop :=
  -- timeCeilingStore
  (∀ (s : Machine.State), pulsesBlocked s = false →
     Gives .timeCeilingStore s fun t => t.tmb.ceiling = some (now t + 60000000000) ∧ fget t Fld.TMB_STATUS_HELD = 0 ∧ now s ≤ now t ∧
       (∀ c, s.tmb.ceiling = some c → c ≤ now s + 30000000000 → now t = now s)) ∧
  -- timeCeilingHold
  (∀ (s : Machine.State) (c : Nat), s.tmb.ceiling = some c → pulsesBlocked s = true → now s < c → fone s Fld.TMB_STATUS_HELD = false →
     Gives .timeCeilingHold s fun t => now t = c ∧ fget t Fld.TMB_STATUS_HELD = 1 ∧ t.tmb.ceiling = some c) ∧
  -- crystalStop
  (∀ (s : Machine.State), s.tmb.xtalStop = none →
     Gives .crystalStop s fun t => t.tmb = { s.tmb with xtalStop := some (now s) } ∧ fget t Fld.TMB_STATUS_XTAL_LOSS = 1 ∧
       fget t Fld.TMB_STATUS_XTAL_OK = 0 ∧ RegsBut [Reg.TMB_STATUS] s t) ∧
  -- crystalReturn
  (∀ (s : Machine.State) (x : Nat), s.tmb.xtalStop = some x →
     Gives .crystalReturn s fun t => t.tmb = { s.tmb with xtalStop := none } ∧ fget t Fld.TMB_STATUS_XTAL_OK = 1 ∧
       fget t Fld.TMB_STATUS_XTAL_LOSS = fget s Fld.TMB_STATUS_XTAL_LOSS) ∧
  -- claspPowerUp
  (∀ (vin bank : Nat) (s : Machine.State),
     Gives (.claspPowerUp vin bank) s fun t => now t = resumeTime s ∧ (∀ c, s.tmb.ceiling = some c → c + 1000 ≤ now t) ∧ now s ≤ now t ∧
       t.tmb.boots = s.tmb.boots ∧ t.sel = [] ∧ t.cls.dead = false ∧ t.bot.want = none ∧ fone t Fld.ACM_SVC_STATE_UNLOCKED = false)

/-- The SPDM responder's answers outside a session (R109, R502, R108). While the responder is up on a path it answers GET_VERSION,
GET_CAPABILITIES, NEGOTIATE_ALGORITHMS of the one algorithm set, GET_DIGESTS and GET_CERTIFICATE of slot 0 (over DOE no more of the
chain than an object carries), CHALLENGE and GET_MEASUREMENTS signed with the Alias key, an error to a request that names another
slot, and UnsupportedRequest to any other request. The numbers of the flags and algorithms are DSP0274's (log entry 46). -/
def Obligations.SpdmResponder : Prop :=
  -- spdmGetVersion
  (∀ (p : SPath) (s : Machine.State), spdmUp s p = true →
     Gives (.spdmGetVersion p) s fun t => t.spdm = { s.spdm with ans := .version, agreed := s.spdm.agreed.filter fun q => q != p }) ∧
  -- spdmGetCapabilities
  (∀ (p : SPath) (s : Machine.State), spdmUp s p = true →
     Gives (.spdmGetCapabilities p) s fun t => t.spdm = { s.spdm with ans := .capabilities spdmCaps }) ∧
  -- spdmNegotiateAlgorithms
  (∀ (p : SPath) (s : Machine.State), spdmUp s p = true →
     Gives (.spdmNegotiateAlgorithms p true) s (fun t => t.spdm.ans = spdmAlgs ∧ p ∈ t.spdm.agreed) ∧
     Gives (.spdmNegotiateAlgorithms p false) s (fun t => t.spdm = { s.spdm with ans := .errInvalid })) ∧
  -- spdmGetDigests
  (∀ (p : SPath) (s : Machine.State), spdmUp s p = true →
     Gives (.spdmGetDigests p) s fun t => t.spdm = { s.spdm with ans := .digests 1 (Config.sha384 (aliasChain s)) }) ∧
  -- spdmGetCertificate
  (∀ (p : SPath) (off len : Nat) (s : Machine.State), spdmUp s p = true →
     Gives (.spdmGetCertificate p 0 off len) s fun t => ∃ n, t.spdm = { s.spdm with ans := .certificate (slice (aliasChain s) off n) } ∧ n ≤ len ∧
       (p = .sideband ∨ len ≤ 4080 → n = len) ∧ (p ≠ .sideband → n ≤ 4080)) ∧
  -- spdmChallenge
  (∀ (p : SPath) (nonce : List Byte) (s : Machine.State), spdmUp s p = true → carded s midPke = false → entropyBad s = false →
     Gives (.spdmChallenge p 0 nonce) s fun t => t.spdm.ans =
       .challengeAuth (Config.p384Sign (pkeScalar s 3) (Config.sha384 (Config.sha384 (aliasChain s) ++ nonce)) s.kst.draws)) ∧
  -- spdmGetMeasurements
  (∀ (p : SPath) (nonce : List Byte) (s : Machine.State), spdmUp s p = true → carded s midPke = false → entropyBad s = false →
     Gives (.spdmGetMeasurements p 0 nonce) s fun t => t.spdm.ans = .measurements (measurements s)
       (Config.p384Sign (pkeScalar s 3) (Config.sha384 (measurements s ++ nonce)) s.kst.draws)) ∧
  -- spdmUnsupportedRequest
  (∀ (p : SPath) (code : Byte) (s : Machine.State), spdmUp s p = true → spdmKnown code = false →
     Gives (.spdmUnsupportedRequest p code) s fun t => t.spdm = { s.spdm with ans := .errUnsupported }) ∧
  -- another slot
  (∀ (p : SPath) (slot off len hb : Nat) (nonce : List Byte) (both : Bool) (s : Machine.State), spdmUp s p = true → slot ≠ 0 →
     ∀ c ∈ [Instr.spdmGetCertificate p slot off len, .spdmChallenge p slot nonce, .spdmGetMeasurements p slot nonce, .spdmKeyExchange p slot both hb],
       Gives c s fun t => t.spdm = { s.spdm with ans := .errInvalid })

/-- Sessions begin, are kept and end (R64, R65, R66, R68, R69). KEY_EXCHANGE with mutual authentication on a path that has agreed
takes the next session ID and a free session's slots; FINISH with a verified chain that ends in the manager or officer trust anchor
establishes a session of that class, and refuses another root; HEARTBEAT restarts the period; KEY_UPDATE moves the session to its next keys;
END_SESSION and a missed heartbeat end the session; a sideband bus reset ends every sideband session. -/
def Obligations.SpdmSessions : Prop :=
  -- spdmKeyExchange
  (∀ (p : SPath) (hb i : Nat) (s : Machine.State), spdmUp s p = true → p ∈ s.spdm.agreed → entropyBad s = false → carded s midPke = false →
     i < 16 → i ∉ sessIdx s → (∀ j, j < i → j ∈ sessIdx s) →
     Gives (.spdmKeyExchange p 0 true hb) s fun t => t.spdm.ans = .keyExchangeRsp s.spdm.nextId ∧
       t.spdm.hands = s.spdm.hands ++ [{ path := p, id := s.spdm.nextId, hbS := (if hb = 0 ∨ 60 < hb then 60 else hb), slots := [16 + 3 * i, 17 + 3 * i, 18 + 3 * i] }] ∧ t.spdm.sessions = s.spdm.sessions) ∧
  -- spdmFinish
  (∀ (p : SPath) (id : Nat) (root : List Byte) (h : Handshake) (c : Cls) (s : Machine.State), spdmUp s p = true →
     s.spdm.hands.find? (fun h => h.id == id && h.path == p) = some h → anchorCls s root = some c → SMap.cnt s.spdm.sessions (fun _ x => x.cls == c) < 4 →
     Gives (.spdmFinish p id root true) s fun t => t.spdm.ans = .finishRsp id c ∧
       SMap.find t.spdm.sessions id = some { path := p, cls := c, hbS := h.hbS, beat := now s, seqIn := 0, seqOut := 0, keyGen := 0, slots := h.slots } ∧
       (c = .manager ∧ s.kst.mgrAnchor = some root ∨ c = .officer ∧ s.kst.ofcAnchor = some root)) ∧
  -- spdmFinish refused
  (∀ (p : SPath) (id : Nat) (root : List Byte) (h : Handshake) (ok : Bool) (s : Machine.State), spdmUp s p = true →
     s.spdm.hands.find? (fun h => h.id == id && h.path == p) = some h → ok = false ∨ anchorCls s root = none →
     Gives (.spdmFinish p id root ok) s fun t => t.spdm.ans = .errInvalid ∧ t.spdm.sessions = s.spdm.sessions) ∧
  -- spdmHeartbeat
  (∀ (id : Nat) (x : Session) (s : Machine.State), SMap.find s.spdm.sessions id = some x → spdmUp s x.path = true →
     Gives (.spdmHeartbeat id) s fun t => t.spdm.ans = .heartbeatAck ∧ SMap.find t.spdm.sessions id = some { x with beat := now s }) ∧
  -- spdmKeyUpdate
  (∀ (id : Nat) (x : Session) (s : Machine.State), SMap.find s.spdm.sessions id = some x → spdmUp s x.path = true →
     Gives (.spdmKeyUpdate id) s fun t => t.spdm.ans = .keyUpdateAck ∧ SMap.find t.spdm.sessions id = some { x with keyGen := x.keyGen + 1 }) ∧
  -- spdmEndSession
  (∀ (id : Nat) (x : Session) (s : Machine.State), SMap.find s.spdm.sessions id = some x → spdmUp s x.path = true →
     Gives (.spdmEndSession id) s fun t => t.spdm.ans = .endSessionAck ∧ SMap.find t.spdm.sessions id = none ∧
       (∀ j, j ≠ id → SMap.find t.spdm.sessions j = SMap.find s.spdm.sessions j)) ∧
  -- sessionHeartbeatTimeout
  (∀ (id : Nat) (x : Session) (s : Machine.State), SMap.find s.spdm.sessions id = some x → x.beat + x.hbS * 1000000000 ≤ now s →
     Gives (.sessionHeartbeatTimeout id) s fun t => SMap.find t.spdm.sessions id = none ∧
       (∀ j, j ≠ id → SMap.find t.spdm.sessions j = SMap.find s.spdm.sessions j)) ∧
  -- sidebandBusReset
  (∀ (s : Machine.State), s.bot.run = true → Gives .sidebandBusReset s fun t => (∀ e, e ∈ t.spdm.sessions → e.2.path ≠ .sideband) ∧
     (∀ id x, SMap.find s.spdm.sessions id = some x → x.path ≠ .sideband → SMap.find t.spdm.sessions id = some x))

/-- The service port: locked, challenged, unlocked (R92, R93, R94). IDCODE shows four bytes whatever the lock; BYPASS, and any other
instruction while locked, selects the bypass bit; SVC_CHALLENGE issues 64 bytes with the serial, the boot counter and device time; a
response that does not verify is counted and refused and uses the challenge up; a verified response replaces the KEK seed, zeroises
the SRAMs and admits SERVICE; a challenge is gone 10 min after it was issued; boundary scan acts after an unlock only. -/
def Obligations.ServicePort : Prop :=
  -- svcIdcode
  (∀ (s : Machine.State), Gives .svcIdcode s fun t => t.svc = { s.svc with out := le 4 (Config.freeNat s.free), bypass := false } ∧ t.regs = s.regs) ∧
  -- svcBypass
  (∀ (ins : Nat) (s : Machine.State), Gives (.svcBypass ins) s fun t => t.svc.bypass = true ∧ t.svc.out = [] ∧ t.regs = s.regs ∧ t.kst = s.kst) ∧
  -- svcChallenge
  (∀ (s : Machine.State), s.bot.run = true → entropyBad s = false →
     Gives .svcChallenge s fun t => t.svc.out = fit 32 (Config.drbg s.kst.draws) ++ fit 16 s.part.serial ++ le 4 s.tmb.boots ++ le 8 (now s) ++ zeros 4 ∧
       t.svc.challenge = some (t.svc.out, now s) ∧ t.kst.draws = s.kst.draws + 1 ∧ t.regs = s.regs) ∧
  -- svcResponse verified
  (∀ (sig c : List Byte) (time : Nat) (u s : Machine.State), fone s Fld.ACM_SVC_STATE_BARRED = false → fone s Fld.ACM_SVC_STATE_UNLOCKED = false → s.bot.run = true →
     s.svc.challenge = some (c, time) → now s ≤ time + 600000000000 → Config.serviceVerify s.bot.svcKey (Config.sha384 c) (fit 96 sig) = true →
     eventAppend { s with svc := { s.svc with challenge := none } } [{ comp := 0x0101, digest := Config.sha384 c, version := s.tmb.boots, svn := 0 }] = some u →
     Gives (.svcResponse sig) s fun t => fget t Fld.ACM_SVC_STATE_UNLOCKED = 1 ∧ t.svc.out = le 2 ST_OK ∧ t.svc.eraseAll = true ∧ t.svc.challenge = none ∧
       t.kst.seed = some ((Config.drbg (mediaZero u 3).kst.draws).take 32) ∧ ∀ a, a < 0x40000000 → memByte t a = 0) ∧
  -- svcResponse refused
  (∀ (sig c : List Byte) (time : Nat) (s : Machine.State), fone s Fld.ACM_SVC_STATE_BARRED = false → fone s Fld.ACM_SVC_STATE_UNLOCKED = false → s.bot.run = true →
     s.svc.challenge = some (c, time) → Config.serviceVerify s.bot.svcKey (Config.sha384 c) (fit 96 sig) = false →
     Gives (.svcResponse sig) s fun t => t.svc.out = le 2 ST_DENIED ∧ t.svc.challenge = none ∧ t.kst = s.kst ∧
       fget t Fld.ACM_SVC_STATE_FAILS = sat Fld.ACM_SVC_STATE_FAILS.w (fget s Fld.ACM_SVC_STATE_FAILS + 1) ∧ fget t Fld.ACM_SVC_STATE_UNLOCKED = 0) ∧
  -- svcChallengeExpiry
  (∀ (c : List Byte) (time : Nat) (s : Machine.State), s.svc.challenge = some (c, time) → time + 600000000000 ≤ now s →
     Gives .svcChallengeExpiry s fun t => t = { s with svc := { s.svc with challenge := none } }) ∧
  -- svcBoundaryScan
  (∀ (ins : Nat) (s : Machine.State), (fone s Fld.ACM_SVC_STATE_UNLOCKED = true →
       Gives (.svcBoundaryScan ins) s fun t => t = { s with svc := { s.svc with bscan := some ins, bypass := false } }) ∧
     (fone s Fld.ACM_SVC_STATE_UNLOCKED = false → Gives (.svcBoundaryScan ins) s fun t => t.svc.bypass = true ∧ t.svc.bscan = s.svc.bscan))

/-- The sideband endpoint, DOE and the mailbox payload window (R106, R107, R152, R100, R102, R108, R115). While the endpoint is up it
takes and reports its endpoint ID, reports its version support (an open value), its message types, the NVMe-MI data structures and health;
SMBus Basic MI is answered on SMBus only; a message of another type is dropped and counted, a packet that fails its PEC sets PEC_ERR, and
a dynamic address is taken on I3C. A DOE discovery object is answered with the type at its index and the next index, an unsupported object
with the error bit; a write into the window of a channel its requester owns stores the bytes and raises the received length, and one that
leaves GO set in the doorbell word posts the request that the window then holds (shown for GET_IDENTITY and for an unknown opcode); a
write to a channel the controller owns is discarded and counted; a volley without a segment for the time-out is abandoned. -/
def Obligations.SidebandDoeAndWindows : Prop :=
  -- mctpSetEndpointId
  (∀ (eid : Byte) (s : Machine.State), sbUp s = true → eid ≠ 0x00 → eid ≠ 0xFF →
     Gives (.mctpSetEndpointId eid) s fun t => fget t Fld.SBD_ADDR_EID = eid.toNat ∧ t.mbx.sbAns = [0x00, 0x00, eid, 0x00]) ∧
  -- mctpGetEndpointId
  (∀ (s : Machine.State), sbUp s = true →
     Gives .mctpGetEndpointId s fun t => t.mbx.sbAns = [0x00] ++ le 1 (fget s Fld.SBD_ADDR_EID) ++ [0x00, 0x00]) ∧
  -- mctpGetVersionSupport
  (∀ (s : Machine.State), sbUp s = true →
     Gives .mctpGetVersionSupport s fun t => t.mbx.sbAns = [0x00, 0x01] ++ le 4 (Config.freeNat s.free) ∧ t.free = s.free + 1) ∧
  -- mctpGetMessageTypeSupport
  (∀ (s : Machine.State), sbUp s = true →
     Gives .mctpGetMessageTypeSupport s fun t => t.mbx.sbAns = [0x00, 0x05, 0x00, 0x04, 0x05, 0x06, 0x7E]) ∧
  -- nvmeMiReadDataStructure
  (∀ (dtyp port : Nat) (s : Machine.State), sbUp s = true →
     Gives (.nvmeMiReadDataStructure dtyp port) s fun t =>
       (dtyp = 2 → t.mbx.sbAns = zeros 4 ++ le 2 ((List.range 4).filter (portThere s)).length ++ ((List.range 4).filter (portThere s)).flatMap fun p => le 2 (p + 1)) ∧
       (dtyp ≠ 2 → t.mbx.sbAns = zeros 4 ++ le 1 dtyp ++ le 1 port ++ le 30 (Config.freeNat s.free))) ∧
  -- nvmeMiSubsystemHealthPoll
  (∀ (s : Machine.State), sbUp s = true → Gives .nvmeMiSubsystemHealthPoll s fun t => t.mbx.sbAns = zeros 4 ++ healthBytes s ++ zeros 4) ∧
  -- nvmeMiControllerHealthPoll
  (∀ (first count : Nat) (s : Machine.State), sbUp s = true →
     Gives (.nvmeMiControllerHealthPoll first count) s fun t => ∃ l, l = (((List.range 4).filter (portThere s)).filter fun p => decide (first ≤ p + 1)).take count ∧
       t.mbx.sbAns = zeros 4 ++ le 4 l.length ++ l.flatMap (ctrlHealth s)) ∧
  -- mctpDroppedType
  (∀ (ty : Byte) (s : Machine.State), s.bot.run = true → fone s Fld.SBD_CTRL_EN = true → mctpKnown s ty.toNat = false →
     Gives (.mctpDroppedType ty) s fun t => fget t Fld.SBD_DROPPED_COUNT = sat Fld.SBD_DROPPED_COUNT.w (fget s Fld.SBD_DROPPED_COUNT + 1) ∧
       RegsBut [Fld.SBD_DROPPED_COUNT.addr] s t ∧ t.mbx = s.mbx) ∧
  -- smbusPecError
  (∀ (s : Machine.State), s.bot.run = true → fone s Fld.SBD_CTRL_EN = true → fone s Fld.SBD_CTRL_BUS = false →
     Gives .smbusPecError s fun t => fget t Fld.SBD_STATUS_PEC_ERR = 1 ∧ RegsBut [Fld.SBD_STATUS_PEC_ERR.addr] s t ∧ t.mbx = s.mbx) ∧
  -- nvmeMiBasicRead
  (∀ (s : Machine.State), sbUp s = true → fone s Fld.SBD_CTRL_BASIC_MI = true → fone s Fld.SBD_CTRL_BUS = false →
     Gives .nvmeMiBasicRead s fun t => t.mbx.sbAns = [0x06] ++ healthBytes s ++ zeros 2) ∧
  -- i3cDynamicAddressAssign
  (∀ (a : Nat) (s : Machine.State), s.bot.run = true → fone s Fld.SBD_CTRL_EN = true → fone s Fld.SBD_CTRL_BUS = true →
     Gives (.i3cDynamicAddressAssign a) s fun t => fget t Fld.SBD_ADDR_I3C_DYN = a % 2 ^ Fld.SBD_ADDR_I3C_DYN.w ∧ fget t Fld.SBD_ADDR_EID = fget s Fld.SBD_ADDR_EID ∧
       RegsBut [Reg.SBD_ADDR] s t) ∧
  -- doeDiscovery
  (∀ (p : Fin 4) (idx : Nat) (s : Machine.State), doeUp s p.val = true →
     Gives (.doeDiscovery p idx) s fun t => SMap.find t.mbx.doe p.val =
       some (if idx < 3 then le 2 0x0001 ++ le 1 idx ++ le 1 ((idx + 1) % 3) else le 2 0xFFFF ++ le 2 0, false)) ∧
  -- doeInvalidObject
  (∀ (p : Fin 4) (vid ty : Nat) (s : Machine.State), doeUp s p.val = true → vid ≠ 1 ∨ 2 < ty ∨ (ty ≠ 0 ∧ s.bot.recovery = true) →
     Gives (.doeInvalidObject p vid ty) s fun t => SMap.find t.mbx.doe p.val = some ([], true)) ∧
  -- mailboxPayloadWrite
  (∀ (ch : Fin 32) (off : Nat) (bytes : List Byte) (s : Machine.State), chanReach s ch.val = true → off < 4096 → (chanGet s ch.val).go = false → bytes ≠ [] →
     doorbellRung (hostWrite s ch.val off bytes) ch.val off bytes = false →
     Gives (.mailboxPayloadWrite ch off bytes) s fun t => (chanGet t ch.val).win = winPut (chanGet s ch.val).win off (bytes.take (4096 - off)) ∧
       (chanGet t ch.val).rcvd = max (chanGet s ch.val).rcvd (off + min (4096 - off) bytes.length - 32) ∧ (chanGet t ch.val).go = false ∧
       ∀ c, c ≠ ch.val → chanGet t c = chanGet s c) ∧
  -- mailboxPayloadWrite posts
  (∀ (ch : Fin 32) (off : Nat) (bytes : List Byte) (s t : Machine.State), chanReach s ch.val = true → off < 4096 → (chanGet s ch.val).go = false →
     t = hostWrite s ch.val off bytes → doorbellRung t ch.val off bytes = true →
     (u16 (chanGet t ch.val).win 0 = 0x0001 → Machine.exec (.mailboxPayloadWrite ch off bytes) s = Machine.exec (.getIdentity (windowRq t ch)) t) ∧
     (opcKnown (u16 (chanGet t ch.val).win 0) = false → Machine.exec (.mailboxPayloadWrite ch off bytes) s =
       Machine.exec (.mailboxUnknownOpcode (u16 (chanGet t ch.val).win 0) (windowRq t ch)) t)) ∧
  -- mailboxLateWrite
  (∀ (ch : Fin 32) (off : Nat) (bytes : List Byte) (s : Machine.State), chanReach s ch.val = true → off < 4096 → (chanGet s ch.val).go = true →
     Gives (.mailboxLateWrite ch off bytes) s fun t => t.mbx = s.mbx ∧ fget t (Fld.MBX_COUNT_COUNT 3) = sat 32 (fget s (Fld.MBX_COUNT_COUNT 3) + 1)) ∧
  -- volleyTimeout
  (∀ (ch : Fin 33) (v : Volley) (s : Machine.State), (chanGet s ch.val).volley = some v → (chanGet s ch.val).go = false →
     v.last + max 1 (fget s Fld.MBX_VOLLEY_TIMEOUT_TIMEOUT_MS) * 1000000 ≤ now s →
     Gives (.volleyTimeout ch) s fun t => (chanGet t ch.val).volley = none ∧ now t = now s)

/-- The discovery opcodes and an unknown opcode (R111, R121). An accepted GET_IDENTITY, GET_CAPS, GET_OPCODES, GET_SESSION or
GET_HEALTH is answered with ST_OK and the fields R121 lists, a SLICE caller receiving the blinded forms; a request with an opcode
firmware 3.2 does not have is answered ST_BAD_OPCODE. -/
def Obligations.DiscoveryOpcodes : Prop :=
  -- getIdentity
  (∀ (r : Rq) (s s1 : Machine.State) (c : Caller), accepted 0x0001 false r s = some (c, [], s1) →
     Gives (.getIdentity r) s fun t => answer t r.ch.val =
       some (ST_OK, if c.cls = .slice then (identityPay s1).take 19 ++ zeros 29 else identityPay s1)) ∧
  -- getCaps
  (∀ (r : Rq) (s s1 : Machine.State) (c : Caller), accepted 0x0002 false r s = some (c, [], s1) →
     Gives (.getCaps r) s fun t => answer t r.ch.val = some (ST_OK, if c.cls = .slice then zeros 40 else capsPay s1)) ∧
  -- getOpcodes
  (∀ (r : Rq) (s s1 : Machine.State) (c : Caller), accepted 0x0003 false r s = some (c, [], s1) →
     Gives (.getOpcodes r) s fun t => ∃ l, l = (catalogue.map (·.1)).filter (fun o => opcAdmits s1 o c.cls) ∧
       answer t r.ch.val = some (ST_OK, le 2 l.length ++ zeros 2 ++ l.flatMap fun o => le 2 o)) ∧
  -- getSession
  (∀ (r : Rq) (s s1 : Machine.State) (c : Caller), accepted 0x0004 false r s = some (c, [], s1) →
     Gives (.getSession r) s fun t =>
       (c.session = 0 → answer t r.ch.val = some (ST_OK, le 2 (clsCode c.cls) ++ zeros 18)) ∧
       (∀ x, c.session ≠ 0 → SMap.find s1.spdm.sessions c.session = some x → answer t r.ch.val =
         some (ST_OK, le 2 (clsCode c.cls) ++ le 1 1 ++ zeros 1 ++ le 4 c.session ++ le 8 x.seqIn ++ le 2 x.hbS ++ zeros 2))) ∧
  -- getHealth
  (∀ (r : Rq) (s s1 : Machine.State) (c : Caller), accepted 0x0005 false r s = some (c, [], s1) →
     Gives (.getHealth r) s fun t => answer t r.ch.val =
       some (ST_OK, le 1 (fget s1 Fld.LDC_MED_SPARE_PCT_USED) ++ zeros 1 ++ le 2 (fget s1 Fld.TSN_COMPOSITE_KELVIN))) ∧
  -- mailboxUnknownOpcode
  (∀ (opc : Nat) (r : Rq) (s : Machine.State), opc < 65536 → opcKnown opc = false → (mbxPost s r opc).1 = true → pfail (mbxPost s r opc).2 = false → r.session = 0 →
     r.plen ≤ 4064 → r.plen = (chanGet (mbxPost s r opc).2 r.ch.val).rcvd → chanSlice (mbxPost s r opc).2 r.ch.val = none → (mbxPost s r opc).2.bot.recovery = false →
     Gives (.mailboxUnknownOpcode opc r) s fun t => answer t r.ch.val = some (ST_BAD_OPCODE, []))

/-- Cards are drained, listed and released; REG_READ and REG_WRITE go through the matrix (R89, R90, R91, R88, R119, R71, R72).
CARD_DRAIN_END sets DRAINED of a carded master; CARD_LIST returns the carded masters of the window asked for, slice and port indices
0 for OBSERVER; CARD_RELEASE of a master that has been reset and drained ends its card, of one that has not answers
ST_RESET_PENDING, of one that is not carded ST_NOT_CARDED, and the last two change no card. An accepted REG_READ or REG_WRITE of one
register acts as that class's read or write of the register would, and is answered with ST_OK, the count, and the entry's own status
(and value). -/
def Obligations.CardAndRegisterOpcodes : Prop :=
  -- cardDrainEnd
  (∀ (id : Nat) (c : Card) (s : Machine.State), SMap.find s.acm.cards id = some c →
     Gives (.cardDrainEnd id) s fun t => t.acm = { s.acm with cards := SMap.put s.acm.cards id { c with drained := true } }) ∧
  -- cardList
  (∀ (r : Rq) (s s1 : Machine.State) (c : Caller) (p : List Byte), accepted 0x0B02 false r s = some (c, p, s1) → p.length = 4 → 1 ≤ u16 p 2 → u16 p 2 ≤ 250 →
     Gives (.cardList r) s fun t => ∃ l, l = (s1.acm.cards.drop (u16 p 0)).take (u16 p 2) ∧ t.acm = s1.acm ∧ answer t r.ch.val =
       some (ST_OK, le 2 s1.acm.cards.length ++ le 2 l.length ++ zeros 4 ++ l.flatMap fun e => cardEntry (c.cls == .observer) e.1 e.2)) ∧
  -- cardRelease
  (∀ (r : Rq) (s s1 : Machine.State) (c : Caller) (p : List Byte) (d : Card), accepted 0x0B01 false r s = some (c, p, s1) → p.length = 8 →
     midValid s1 (u32 p 0) = true → SMap.find s1.acm.cards (u32 p 0) = some d → d.st = 2 → d.drained = true →
     Gives (.cardRelease r) s fun t => answer t r.ch.val = some (ST_OK, []) ∧ t.acm.cards = SMap.del s1.acm.cards (u32 p 0)) ∧
  -- cardRelease refused
  (∀ (r : Rq) (s s1 : Machine.State) (c : Caller) (p : List Byte), accepted 0x0B01 false r s = some (c, p, s1) → p.length = 8 →
     Gives (.cardRelease r) s fun t =>
       (SMap.find s1.acm.cards (u32 p 0) = none → answer t r.ch.val = some (ST_NOT_CARDED, []) ∧ t.acm = s1.acm) ∧
       (∀ d, midValid s1 (u32 p 0) = true → SMap.find s1.acm.cards (u32 p 0) = some d → d.st ≠ 2 ∨ d.drained = false →
         answer t r.ch.val = some (ST_RESET_PENDING, []) ∧ t.acm = s1.acm)) ∧
  -- regRead
  (∀ (r : Rq) (s s1 : Machine.State) (c : Caller) (p : List Byte), accepted 0x0101 true r s = some (c, p, s1) → p.length = 8 → u16 p 0 = 1 →
     Gives (.regRead r) s fun t => ∃ e u, readBy s1 (rqMaster c.ch) (.cls c.cls) (u32 p 4) = (e, u) ∧ answer t r.ch.val =
       some (ST_OK, le 2 1 ++ zeros 2 ++ (le 2 e.1 ++ le 2 (b2n e.2.2) ++ le 4 (if e.1 = ST_OK then e.2.1 else 0)))) ∧
  -- regWrite
  (∀ (r : Rq) (s s1 : Machine.State) (c : Caller) (p : List Byte), accepted 0x0102 true r s = some (c, p, s1) → p.length = 12 → u16 p 0 = 1 →
     Gives (.regWrite r) s fun t => ∃ e u, writeBy s1 (rqMaster c.ch) (.cls c.cls) (u32 p 4) (BitVec.ofNat 32 (u32 p 8)) = (e, u) ∧ (stands u c → answer t r.ch.val =
       some (ST_OK, le 2 1 ++ zeros 2 ++ (le 2 e.1 ++ zeros 2))))

/-- Slices are created, queried and deleted (R185, R615, R186). An accepted SLICE_CREATE whose fields lie within their ranges
defines the slice with the PASID, DMA window and shares of the request (an isolated one with the groups and instances chosen);
SLICE_DELETE of a slice with no binding and no namespace removes it; SLICE_QUERY returns the slice, blinded by class; every other
slice stays as it was. -/
def Obligations.SliceLife : Prop :=
  -- sliceCreate
  (∀ (r : Rq) (s s1 : Machine.State) (c : Caller) (p : List Byte), accepted 0x0201 false r s = some (c, p, s1) → p.length = 32 → u16 p 0 ≤ 1023 →
     SMap.find s1.slm.slices (u16 p 0) = none → createFits p = true → SMap.anyv s1.slm.slices (fun _ x => x.pasid == u32 p 4 % 1048576) = false →
     max (powerSum s1 (u16 p 0)) (powerNext s1 (u16 p 0)) + u16 p 26 ≤ 1024 → ((u8 p 2).testBit 0 = true → (isoSet s1 (u8 p 3)).isSome = true) →
     Gives (.sliceCreate r) s fun t => answer t r.ch.val = some (ST_OK, []) ∧
       (∃ x, SMap.find t.slm.slices (u16 p 0) = some x ∧ x.pasid = u32 p 4 % 1048576 ∧ x.dmaBase = u64 p 8 ∧ x.dmaLimit = u64 p 16 ∧
         x.iso = (u8 p 2).testBit 0 ∧ x.shares = { weight := u8 p 24, cap := u16 p 28, lat := u8 p 25, power := u16 p 26 } ∧ x.resetting = false ∧ x.slots = [] ∧
         (x.iso = true → isoSet s1 (u8 p 3) = some (x.groups, x.xte))) ∧
       ∀ k, k ≠ u16 p 0 → SMap.find t.slm.slices k = SMap.find s1.slm.slices k) ∧
  -- sliceDelete
  (∀ (r : Rq) (s s1 : Machine.State) (c : Caller) (p : List Byte) (x : Slice), accepted 0x0202 false r s = some (c, p, s1) → p.length = 4 →
     SMap.find s1.slm.slices (u16 p 0) = some x → x.resetting = false → x.slots = [] → sliceNs s1 (u16 p 0) = [] →
     Gives (.sliceDelete r) s fun t => answer t r.ch.val = some (ST_OK, []) ∧ SMap.find t.slm.slices (u16 p 0) = none ∧
       ∀ k, k ≠ u16 p 0 → SMap.find t.slm.slices k = SMap.find s1.slm.slices k) ∧
  -- sliceQuery
  (∀ (r : Rq) (s s1 : Machine.State) (c : Caller) (p : List Byte) (x : Slice), accepted 0x0206 false r s = some (c, p, s1) → p.length = 4 →
     SMap.find s1.slm.slices (u16 p 0) = some x →
     Gives (.sliceQuery r) s fun t =>
       (c.cls = .manager → answer t r.ch.val = some (ST_OK, querySlice s1 (u16 p 0) x ++ (le 2 s1.slm.slices.length ++ le 2 (ioCount s1.hst.sqs) ++ le 2 (ioCount s1.hst.cqs) ++ zeros 2))) ∧
       (c.cls = .observer → answer t r.ch.val = some (ST_OK, zeros 40 ++ (le 2 s1.slm.slices.length ++ le 2 (ioCount s1.hst.sqs) ++ le 2 (ioCount s1.hst.cqs) ++ zeros 2))) ∧
       (c.cls = .slice → c.slice = some (u16 p 0) → u16 p 0 ≠ 0xFFFF → answer t r.ch.val = some (ST_OK, querySlice s1 (u16 p 0) x ++ zeros 8)) ∧
       (c.cls = .slice → c.slice ≠ some (u16 p 0) → u16 p 0 ≠ 0xFFFF → answer t r.ch.val = some (ST_DENIED, [])))

/-- Slices are bound to ports and channels (R103, R185, R615). An accepted SLICE_BIND_PORT of a slice not bound to the port takes
the slot asked for, or the lowest free one, and returns it; SLICE_UNBIND_PORT of a slice without queues or channels there frees the
slot; SLICE_BIND_CHANNEL and SLICE_UNBIND_CHANNEL of an idle channel set and clear its binding. -/
def Obligations.SliceBindings : Prop :=
  -- sliceBindPort
  (∀ (r : Rq) (s s1 : Machine.State) (c : Caller) (p : List Byte) (x : Slice) (v : Nat), accepted 0x0203 false r s = some (c, p, s1) → p.length = 8 →
     SMap.find s1.slm.slices (u16 p 0) = some x → x.resetting = false → u8 p 2 ≤ 3 → portThere s1 (u8 p 2) = true → u16 p 4 ≤ 1023 → (u8 p 3).testBit 0 = true →
     SMap.find x.slots (u8 p 2) = none → x.slots.length < 2 →
     (if u16 p 4 = 0 then slotFree s1 (u8 p 2) else if slotHeld s1 (u8 p 2) (u16 p 4) then none else some (u16 p 4)) = some v →
     Gives (.sliceBindPort r) s fun t => answer t r.ch.val = some (ST_OK, le 2 v ++ zeros 2) ∧
       SMap.find t.slm.slices (u16 p 0) = some { x with slots := SMap.put x.slots (u8 p 2) v }) ∧
  -- sliceUnbindPort
  (∀ (r : Rq) (s s1 : Machine.State) (c : Caller) (p : List Byte) (x : Slice) (v : Nat), accepted 0x0203 false r s = some (c, p, s1) → p.length = 8 →
     SMap.find s1.slm.slices (u16 p 0) = some x → x.resetting = false → u8 p 2 ≤ 3 → portThere s1 (u8 p 2) = true → (u8 p 3).testBit 0 = false →
     SMap.find x.slots (u8 p 2) = some v → boundOn s1 (u16 p 0) (u8 p 2) v = false →
     Gives (.sliceUnbindPort r) s fun t => answer t r.ch.val = some (ST_OK, le 2 v ++ zeros 2) ∧
       SMap.find t.slm.slices (u16 p 0) = some { x with slots := SMap.del x.slots (u8 p 2) }) ∧
  -- sliceBindChannel
  (∀ (r : Rq) (s s1 : Machine.State) (c : Caller) (p : List Byte) (x : Slice), accepted 0x0207 false r s = some (c, p, s1) → p.length = 8 →
     SMap.find s1.slm.slices (u16 p 0) = some x → x.resetting = false → u8 p 2 ≤ 3 → u8 p 3 ≤ 7 → portThere s1 (u8 p 2) = true → (u8 p 4).testBit 0 = true →
     chanSlice s1 (8 * u8 p 2 + u8 p 3) = none → (SMap.find x.slots (u8 p 2)).isSome = true → chanIdle s1 (8 * u8 p 2 + u8 p 3) = true →
     Gives (.sliceBindChannel r) s fun t => answer t r.ch.val = some (ST_OK, []) ∧ fget t (Fld.MBX_BIND_BOUND (u8 p 2) (u8 p 3)) = 1 ∧
       fget t (Fld.MBX_BIND_SLICE (u8 p 2) (u8 p 3)) = u16 p 0 % 1024 ∧ t.slm = s1.slm) ∧
  -- sliceUnbindChannel
  (∀ (r : Rq) (s s1 : Machine.State) (c : Caller) (p : List Byte) (x : Slice), accepted 0x0207 false r s = some (c, p, s1) → p.length = 8 →
     SMap.find s1.slm.slices (u16 p 0) = some x → x.resetting = false → u8 p 2 ≤ 3 → u8 p 3 ≤ 7 → portThere s1 (u8 p 2) = true → (u8 p 4).testBit 0 = false →
     chanSlice s1 (8 * u8 p 2 + u8 p 3) = some (u16 p 0) → chanIdle s1 (8 * u8 p 2 + u8 p 3) = true →
     Gives (.sliceUnbindChannel r) s fun t => answer t r.ch.val = some (ST_OK, []) ∧ fget t (Fld.MBX_BIND_BOUND (u8 p 2) (u8 p 3)) = 0 ∧
       fget t (Fld.MBX_BIND_SLICE (u8 p 2) (u8 p 3)) = 0 ∧ t.slm = s1.slm)

/-- Shares are staged for the next epoch, resets run and end (R174, R175, R177, R180, R188). An accepted SLICE_SET_SHARES, and an
admitted write of SLM_V_SHARE_NEXT or SLM_V_BW_CAP, within the rules stage the new shares and leave those in force; SLICE_RESET and
SLM_RESET_START put the slice into RESETTING; SLICE_RESET_COMPLETE ends the reset, counts it and removes the slice's queues. -/
def Obligations.SliceSharesAndResets : Prop :=
  -- sliceSetShares
  (∀ (r : Rq) (s s1 : Machine.State) (c : Caller) (p : List Byte) (x : Slice), accepted 0x0204 false r s = some (c, p, s1) → p.length = 8 →
     SMap.find s1.slm.slices (u16 p 0) = some x → x.resetting = false → 1 ≤ u8 p 2 → u8 p 3 ≤ 3 → u16 p 4 ≤ 1023 → (x.iso = true → u16 p 4 ≠ 0) →
     powerNext s1 (u16 p 0) + u16 p 4 ≤ 1024 →
     Gives (.sliceSetShares r) s fun t => answer t r.ch.val = some (ST_OK, le 8 (epochOf (now s1) + 1)) ∧
       SMap.find t.slm.slices (u16 p 0) = some { x with next := some { weight := u8 p 2, lat := u8 p 3, power := u16 p 4, cap := u16 p 6 } }) ∧
  -- slmShareStage
  (∀ (m : Master) (v : Word) (x : Slice) (s : Machine.State), decideWrite s (whoOf s m) Reg.SLM_V_SHARE_NEXT = .admitted 0 →
     SMap.find s.slm.slices (slmSel s m) = some x → x.resetting = false → 1 ≤ bits v.toNat 0 8 → bits v.toNat 16 10 + powerNext s (slmSel s m) ≤ 1024 →
     (x.iso = true → bits v.toNat 16 10 ≠ 0) → (sharesNext x).cap ≤ 65535 →
     Gives (.slmShareStage m false v) s fun t => SMap.find t.slm.slices (slmSel s m) =
       some { x with next := some { sharesNext x with weight := bits v.toNat 0 8, lat := bits v.toNat 8 2, power := bits v.toNat 16 10 } }) ∧
  -- slmShareStage cap
  (∀ (m : Master) (v : Word) (x : Slice) (s : Machine.State), decideWrite s (whoOf s m) Reg.SLM_V_BW_CAP = .admitted 0 →
     SMap.find s.slm.slices (slmSel s m) = some x → x.resetting = false → 1 ≤ (sharesNext x).weight → (sharesNext x).weight ≤ 255 → (sharesNext x).lat ≤ 3 →
     (sharesNext x).power ≤ 1023 → (sharesNext x).power + powerNext s (slmSel s m) ≤ 1024 → (x.iso = true → (sharesNext x).power ≠ 0) →
     Gives (.slmShareStage m true v) s fun t => SMap.find t.slm.slices (slmSel s m) = some { x with next := some { sharesNext x with cap := bits v.toNat 16 16 } }) ∧
  -- sliceReset
  (∀ (r : Rq) (s s1 : Machine.State) (c : Caller) (p : List Byte) (x : Slice), accepted 0x0205 false r s = some (c, p, s1) → p.length = 4 →
     SMap.find s1.slm.slices (u16 p 0) = some x → x.resetting = false →
     Gives (.sliceReset r) s fun t => answer t r.ch.val = some (ST_OK, []) ∧ (SMap.find t.slm.slices (u16 p 0)).map (fun y => (y.resetting, y.since, y.cause)) =
       some (true, now s1, if carded s1 (midSlice (u16 p 0)) then 3 else 1)) ∧
  -- slmResetStart
  (∀ (m : Master) (v : Word) (x : Slice) (s : Machine.State), decideWrite s (whoOf s m) Reg.SLM_V_RESET = .admitted 0 → bit v.toNat 0 = true →
     SMap.find s.slm.slices (slmSel s m) = some x → x.resetting = false →
     Gives (.slmResetStart m v) s fun t => (SMap.find t.slm.slices (slmSel s m)).map (fun y => (y.resetting, y.since, y.cause)) =
       some (true, now s, if carded s (midSlice (slmSel s m)) then 3 else 2)) ∧
  -- sliceResetComplete
  (∀ (n : Nat) (x : Slice) (s : Machine.State), SMap.find s.slm.slices n = some x → x.resetting = true →
     Gives (.sliceResetComplete n) s fun t => (SMap.find t.slm.slices n).map (fun y => (y.resetting, y.resets, y.lastReset)) = some (false, x.resets + 1, now s) ∧
       (∀ e, e ∈ t.hst.sqs → queueIn x e.1 = false) ∧ (∀ e, e ∈ t.hst.cqs → queueIn x e.1 = false))

/-- Namespaces and placement classes (R170, R172, R191, R234, R237, R262). An accepted NS_CREATE that passes the checks of R191
takes the slice's lowest free identifier and the first range that fits and returns the identifier; NS_DELETE of a namespace without
a bound key removes it; CLASS_WRITE replaces an entry, CLASS_READ returns entries, CLASS_MASK_SET sets a slice's mask and default;
PLACEMENT_STATUS returns the counts. -/
def Obligations.NamespacesAndClasses : Prop :=
  -- nsCreate
  (∀ (r : Rq) (s s1 : Machine.State) (c : Caller) (p : List Byte) (sl : Slice) (k b : Nat), accepted 0x0208 false r s = some (c, p, s1) → p.length = 32 →
     SMap.find s1.slm.slices (u16 p 0) = some sl → sl.resetting = false → k < 16 → SMap.find s1.zne.ns (16 * u16 p 0 + k + 1) = none →
     (∀ j, j < k → (SMap.find s1.zne.ns (16 * u16 p 0 + j + 1)).isSome = true) →
     nsCheck s1 sl.iso (u8 p 2) (u8 p 3) { slice := u16 p 0, zoned := u8 p 2 != 0, zlog := u8 p 3, lbaf := u8 p 4, cap := u64 p 8, maxOpen := if u8 p 2 != 0 then u32 p 16 else 0, maxAct := if u8 p 2 != 0 then u32 p 20 else 0, base := 0 } = (ST_OK, b) →
     Gives (.nsCreate r) s fun t => answer t r.ch.val = some (ST_OK, le 4 (16 * u16 p 0 + k + 1)) ∧
       SMap.find t.zne.ns (16 * u16 p 0 + k + 1) = some { slice := u16 p 0, zoned := u8 p 2 != 0, zlog := u8 p 3, lbaf := u8 p 4, cap := u64 p 8, maxOpen := if u8 p 2 != 0 then u32 p 16 else 0, maxAct := if u8 p 2 != 0 then u32 p 20 else 0, base := b }) ∧
  -- nsDelete
  (∀ (r : Rq) (s s1 : Machine.State) (c : Caller) (p : List Byte) (x : Ns), accepted 0x0209 false r s = some (c, p, s1) → p.length = 8 →
     SMap.find s1.zne.ns (u32 p 0) = some x → (∀ sl, SMap.find s1.slm.slices x.slice = some sl → sl.resetting = false) → nsSlot s1 (u32 p 0) = none →
     Gives (.nsDelete r) s fun t => answer t r.ch.val = some (ST_OK, []) ∧ SMap.find t.zne.ns (u32 p 0) = none) ∧
  -- classWrite
  (∀ (r : Rq) (s s1 : Machine.State) (c : Caller) (p : List Byte) (e : ClassEnt), accepted 0x0302 false r s = some (c, p, s1) → p.length = 36 → u8 p 0 ≤ 63 →
     e = classParse (slice p 4 32) → (e.valid = true → classFits e = true) → classInUse s1 (u8 p 0) = false →
     (e.valid = true → e.iso = false → (groupCount s1).any (fun g => e.groups.testBit g && grp s1 Fld.PLC_GRP_PRESENT_GROUPS g && !grp s1 Fld.PLC_GRP_DEDICATED_GROUPS g) = true) →
     Gives (.classWrite r) s fun t => answer t r.ch.val = some (ST_OK, []) ∧ classOf t (u8 p 0) = e ∧ ∀ k, k ≠ u8 p 0 → classOf t k = classOf s1 k) ∧
  -- classRead
  (∀ (r : Rq) (s s1 : Machine.State) (c : Caller) (p : List Byte), accepted 0x0301 false r s = some (c, p, s1) → p.length = 4 → u8 p 1 ≠ 0 → u8 p 0 + u8 p 1 ≤ 64 →
     Gives (.classRead r) s fun t => answer t r.ch.val =
       some (ST_OK, le 1 (u8 p 1) ++ zeros 3 ++ (List.range (u8 p 1)).flatMap fun i => classBytes (classOf s1 (u8 p 0 + i)))) ∧
  -- classMaskSet
  (∀ (r : Rq) (s s1 : Machine.State) (c : Caller) (p : List Byte) (x : Slice), accepted 0x0303 false r s = some (c, p, s1) → p.length = 12 →
     SMap.find s1.slm.slices (u16 p 0) = some x → x.resetting = false → (u64 p 4).testBit (u8 p 2) = true →
     (∀ k, k < 64 → (u64 p 4).testBit k = true → (classOf s1 k).valid = true ∧ (classOf s1 k).iso = x.iso) →
     (∀ k, k < 64 → x.mask.testBit k = true → (u64 p 4).testBit k = true) →
     Gives (.classMaskSet r) s fun t => answer t r.ch.val = some (ST_OK, []) ∧
       SMap.find t.slm.slices (u16 p 0) = some { x with mask := u64 p 4, dflt := u8 p 2 }) ∧
  -- placementStatus
  (∀ (r : Rq) (s s1 : Machine.State) (c : Caller), accepted 0x0304 false r s = some (c, [], s1) →
     Gives (.placementStatus r) s fun t => answer t r.ch.val = some (ST_OK, (placementStatus c s1).pay) ∧ slice (placementStatus c s1).pay 0 32 =
       le 8 (rawBlocks s1) ++ le 8 (fget s1 Fld.PLC_FREE_BLOCKS) ++ le 8 (fget s1 Fld.PLC_STG_MIN_BLOCKS) ++ le 8 (fget s1 Fld.PLC_STG_LIMIT_BLOCKS))

/-- The Umpire's opcodes (R412, R434, R176). UMP_STATUS returns the totals (and the slice's part, blinded for OBSERVER);
UMP_SET_BUDGET and UMP_SET_PP_LIMIT within their ranges answer with the next epoch's number and keep the value in the settings. -/
def Obligations.UmpireOpcodes : Prop :=
  -- umpStatus
  (∀ (r : Rq) (s s1 : Machine.State) (c : Caller) (p : List Byte), accepted 0x0401 false r s = some (c, p, s1) → p.length = 4 →
     Gives (.umpStatus r) s fun t => (c.cls = .observer → answer t r.ch.val = some (ST_OK, umpTotals s1 ++ zeros 12)) ∧
       (c.cls ≠ .observer → u16 p 0 = 0xFFFF ∨ (SMap.find s1.slm.slices (u16 p 0)).isSome = true → answer t r.ch.val = some (ST_OK, umpTotals s1 ++ umpSlice s1 (u16 p 0)))) ∧
  -- umpSetBudget
  (∀ (r : Rq) (s s1 : Machine.State) (c : Caller) (p : List Byte), accepted 0x0402 false r s = some (c, p, s1) → p.length = 4 → 20 ≤ u16 p 0 → u16 p 0 ≤ 800 → pulsesBlocked s1 = false →
     Gives (.umpSetBudget r) s fun t => answer t r.ch.val = some (ST_OK, le 8 (epochOf (now s1) + 1)) ∧ t.bot = (setPut s1 1 (le 2 (u16 p 0))).bot ∧ t.ump = s1.ump) ∧
  -- umpSetPpLimit
  (∀ (r : Rq) (s s1 : Machine.State) (c : Caller) (p : List Byte), accepted 0x0403 false r s = some (c, p, s1) → p.length = 4 → u8 p 0 ≤ u8 p 1 → u8 p 1 ≤ 7 → pulsesBlocked s1 = false →
     Gives (.umpSetPpLimit r) s fun t => answer t r.ch.val = some (ST_OK, le 8 (epochOf (now s1) + 1)) ∧ t.bot = (setPut s1 2 (le 1 (u8 p 0) ++ le 1 (u8 p 1))).bot ∧ t.ump = s1.ump)

/-- Media key slots are filled and rewritten (R460, R471, R474, R477). An accepted KEY_GENERATE or KEY_IMPORT of an EMPTY media slot, and
a KEY_REWRITE of a LOADED one whose inactive buffer has no user, puts fresh or unwrapped material into the other buffer, which becomes
active, advances GEN, writes the record, leaves every other slot as it was, and answers GEN with the first three bytes of the CMAC under
key 1 of 16 zero bytes; KEY_REWRITE waits for a buffer still in use; KEY_MAP_READ returns the ownership map and changes no slot; a write
that has waited 1 ms is made where the buffer is free by then, and completes with ST_BUSY and no change where it is still in use. -/
def Obligations.KeyMaterial : Prop :=
  -- keyMapRead
  (∀ (r : Rq) (s s1 : Machine.State) (c : Caller) (p : List Byte), accepted 0x0501 false r s = some (c, p, s1) → p.length = 4 → u16 p 0 ≤ 2047 → 1 ≤ u16 p 2 → u16 p 2 ≤ 250 →
     Gives (.keyMapRead r) s fun t => t.kst = s1.kst ∧ ∃ n, n = min (u16 p 2) (2048 - u16 p 0) ∧
       answer t r.ch.val = some (ST_OK, le 2 n ++ zeros 2 ++ (List.range n).flatMap fun i => mapEntry s1 (u16 p 0 + i))) ∧
  -- keyMapRead out of range
  (∀ (r : Rq) (s s1 : Machine.State) (c : Caller) (p : List Byte), accepted 0x0501 false r s = some (c, p, s1) → p.length = 4 → 2047 < u16 p 0 → 1 ≤ u16 p 2 → u16 p 2 ≤ 250 →
     Gives (.keyMapRead r) s fun t => t.kst = s1.kst ∧ answer t r.ch.val = some (ST_SLOT_RANGE, [])) ∧
  -- keyGenerate
  (∀ (r : Rq) (s s1 : Machine.State) (c : Caller) (p : List Byte), accepted 0x0502 false r s = some (c, p, s1) → p.length = 4 → mediaSlot (u16 p 0) = true →
     (kslot s1 (u16 p 0)).st = 0 → pulsesBlocked s1 = false → entropyBad s1 = false →
     Gives (.keyGenerate r) s fun t => ∃ m, m = fit 64 (drawKey 8 s1).1 ∧ filled s1 t (u16 p 0) 1 m ∧ answer t r.ch.val = some (keyAck s1 (u16 p 0) m)) ∧
  -- keyImport
  (∀ (r : Rq) (s s1 : Machine.State) (c : Caller) (p m : List Byte), accepted 0x0503 false r s = some (c, p, s1) → p.length = 76 → mediaSlot (u16 p 0) = true →
     (kslot s1 (u16 p 0)).st = 0 → pulsesBlocked s1 = false → keyImported s1 c (p.drop 4) = some m → m.take 32 ≠ (m.drop 32).take 32 →
     Gives (.keyImport r) s fun t => filled s1 t (u16 p 0) 2 (fit 64 m) ∧ answer t r.ch.val = some (keyAck s1 (u16 p 0) (fit 64 m))) ∧
  -- keyRewriteDrbg
  (∀ (r : Rq) (s s1 : Machine.State) (c : Caller) (p : List Byte), accepted 0x0505 false r s = some (c, p, s1) → p.length = 4 → u8 p 2 = 0 → mediaSlot (u16 p 0) = true →
     (kslot s1 (u16 p 0)).st = 1 → pulsesBlocked s1 = false → bufHeldUp s1 (u16 p 0) = false → entropyBad s1 = false →
     Gives (.keyRewriteDrbg r) s fun t => ∃ m, m = fit 64 (drawKey 8 s1).1 ∧ filled s1 t (u16 p 0) 1 m ∧ answer t r.ch.val = some (keyAck s1 (u16 p 0) m)) ∧
  -- keyRewriteDrbg waits
  (∀ (r : Rq) (s s1 : Machine.State) (c : Caller) (p : List Byte), accepted 0x0505 false r s = some (c, p, s1) → p.length = 4 → u8 p 2 = 0 → mediaSlot (u16 p 0) = true →
     (kslot s1 (u16 p 0)).st = 1 → pulsesBlocked s1 = false → bufHeldUp s1 (u16 p 0) = true →
     Gives (.keyRewriteDrbg r) s fun t => t.kst = s1.kst ∧
       t.mbx.waits = s1.mbx.waits ++ [{ ch := r.ch.val, opcode := 0x0505, slot := u16 p 0, payload := p, rq := r, cls := c.cls, since := now s1 }]) ∧
  -- keyRewriteImport
  (∀ (r : Rq) (s s1 : Machine.State) (c : Caller) (p m : List Byte), accepted 0x0505 false r s = some (c, p, s1) → p.length = 76 → u8 p 2 = 1 → mediaSlot (u16 p 0) = true →
     (kslot s1 (u16 p 0)).st = 1 → pulsesBlocked s1 = false → bufHeldUp s1 (u16 p 0) = false → keyImported s1 c (p.drop 4) = some m → m.take 32 ≠ (m.drop 32).take 32 →
     Gives (.keyRewriteImport r) s fun t => filled s1 t (u16 p 0) 2 (fit 64 m) ∧ answer t r.ch.val = some (keyAck s1 (u16 p 0) (fit 64 m))) ∧
  -- keyWriteWaitTimeout
  (∀ (slot : Nat) (w : KeyWait) (s : Machine.State), s.mbx.waits.find? (fun w => w.slot == slot) = some w → w.since + 1000000 ≤ now s → w.ch = w.rq.ch.val →
     w.rq.session = 0 ∨ (SMap.find s.spdm.sessions w.rq.session).isSome = true → bufHeldUp s slot = true →
     Gives (.keyWriteWaitTimeout slot) s fun t => answer t w.rq.ch.val = some (ST_BUSY, []) ∧ w ∉ t.mbx.waits ∧ t.kst = s.kst) ∧
  -- keyWriteWaitTimeout buffer free
  (∀ (slot : Nat) (w : KeyWait) (s : Machine.State), s.mbx.waits.find? (fun w => w.slot == slot) = some w → w.since + 1000000 ≤ now s → w.ch = w.rq.ch.val →
     w.rq.session = 0 ∨ (SMap.find s.spdm.sessions w.rq.session).isSome = true → bufHeldUp s slot = false → keyBar s slot 1 = ST_OK → u8 w.payload 2 = 0 → entropyBad s = false →
     Gives (.keyWriteWaitTimeout slot) s fun t => w ∉ t.mbx.waits ∧ ∃ m, m = fit 64 (drawKey 8 s).1 ∧ filled s t slot 1 m ∧ answer t w.rq.ch.val = some (keyAck s slot m))

/-- Slots are bound, zeroised and crypto-erased; the trust anchors (R470, R474, R475, R476, R69, R478, R497). An accepted KEY_BIND
of a LOADED slot to a keyless namespace binds it; KEY_ZEROISE of a media slot empties both buffers, revokes the record and, for a
bound slot, starts the release of the namespace; NAMESPACE_RELEASE_DONE ends that release; NS_CRYPTO_ERASE moves the bound slot to
erasing; CRYPTO_ERASE_DRAINED puts fresh material into it and binds it again. An accepted MGR_ANCHOR_WRITE that is not the officer's
anchor puts the digest in force once the ledger has its item; OFC_ANCHOR_WRITE does so for the officer, with the co-signature of the
anchor in force where one is installed. -/
def Obligations.KeyReleaseAndTrustAnchors : Prop :=
  -- keyBind
  (∀ (r : Rq) (s s1 : Machine.State) (c : Caller) (p : List Byte) (x : Ns), accepted 0x0504 false r s = some (c, p, s1) → p.length = 8 → mediaSlot (u16 p 0) = true →
     (SMap.find s1.slm.slices (u16 p 2)).isSome = true → SMap.find s1.zne.ns (u32 p 4) = some x → x.slice = u16 p 2 → (kslot s1 (u16 p 0)).st = 1 →
     nsSlot s1 (u32 p 4) = none → SMap.find s1.zne.releasing (u32 p 4) = none → pulsesBlocked s1 = false →
     Gives (.keyBind r) s fun t => answer t r.ch.val = some (ST_OK, []) ∧ kslot t (u16 p 0) = { kslot s1 (u16 p 0) with st := 2, slice := u16 p 2, nsid := u32 p 4 } ∧
       (SMap.find t.kst.recs (u16 p 0)).map (fun e => (e.bound, e.slice, e.nsid)) = some (true, u16 p 2, u32 p 4)) ∧
  -- keyZeroise
  (∀ (r : Rq) (s s1 : Machine.State) (c : Caller) (p : List Byte), accepted 0x0506 false r s = some (c, p, s1) → p.length = 4 → mediaSlot (u16 p 0) = true →
     (kslot s1 (u16 p 0)).st ≠ 0 → pulsesBlocked s1 = false →
     Gives (.keyZeroise r) s fun t => answer t r.ch.val = some (ST_OK, []) ∧ (kslot t (u16 p 0)).st = 0 ∧ (kslot t (u16 p 0)).buf0 = zeros 64 ∧
       (kslot t (u16 p 0)).buf1 = zeros 64 ∧ SMap.find t.kst.recs (u16 p 0) = none ∧
       ((kslot s1 (u16 p 0)).st = 2 ∨ (kslot s1 (u16 p 0)).st = 3 → SMap.find t.zne.releasing (kslot s1 (u16 p 0)).nsid = some (u16 p 0))) ∧
  -- namespaceReleaseDone
  (∀ (nsid i : Nat) (s : Machine.State), SMap.find s.zne.releasing nsid = some i →
     Gives (.namespaceReleaseDone nsid) s fun t => SMap.find t.zne.releasing nsid = none ∧ t.zne.ns = s.zne.ns ∧ t.kst = s.kst) ∧
  -- nsCryptoErase
  (∀ (r : Rq) (s s1 : Machine.State) (c : Caller) (p : List Byte) (i : Nat) (k : KSlot), accepted 0x0507 false r s = some (c, p, s1) → p.length = 4 →
     (SMap.find s1.zne.ns (u32 p 0)).isSome = true → nsSlot s1 (u32 p 0) = some (i, k) → k.st = 2 → entropyBad s1 = false →
     Gives (.nsCryptoErase r) s fun t => answer t r.ch.val = some (ST_OK, []) ∧ kslot t i = { k with st := 3 } ∧ SMap.find t.kst.erases (u32 p 0) = some (now s1)) ∧
  -- cryptoEraseDrained
  (∀ (nsid i since : Nat) (k : KSlot) (n : Ns) (s : Machine.State), SMap.find s.kst.erases nsid = some since → nsSlot s nsid = some (i, k) → kslot s i = k → SMap.find s.zne.ns nsid = some n →
     k.st = 3 → bufUsers s i 0 = 0 → bufUsers s i 1 = 0 →
     Gives (.cryptoEraseDrained nsid) s fun t => (kslot t i).st = 2 ∧ (kslot t i).nsid = k.nsid ∧ (kslot t i).gen = (k.gen + 1) % 65536 ∧ (kslot t i).active = 1 - k.active ∧
       slotBuf (kslot t i) (kslot t i).active = (drawKey 8 s).1 ∧ SMap.find t.kst.erases nsid = none ∧ fget t Fld.KST_EVENTS_CRYPTO_ERASED = 1) ∧
  -- mgrAnchorWrite
  (∀ (r : Rq) (s s1 u : Machine.State) (c : Caller) (p : List Byte), accepted 0x0508 false r s = some (c, p, s1) → p.length = 48 → s1.kst.ofcAnchor ≠ some p → pulsesBlocked s1 = false →
     eventAppend s1 [{ comp := 0x0102, digest := p, version := if s1.kst.mgrAnchor.isSome then 2 else 1, svn := 0 }] = some u →
     Gives (.mgrAnchorWrite r) s fun t => answer t r.ch.val = some (ST_OK, []) ∧ t.kst = { u.kst with mgrAnchor := some p } ∧ t.sgn = u.sgn) ∧
  -- ofcAnchorWrite
  (∀ (r : Rq) (s s1 u : Machine.State) (c : Caller) (p : List Byte), accepted 0x0509 false r s = some (c, p, s1) → ofcLayout p = true → s1.kst.mgrAnchor ≠ some (p.take 48) → pulsesBlocked s1 = false →
     (∀ a, s1.kst.ofcAnchor = some a → Config.sha384 (slice p 52 (u16 p 48)) = a ∧
       Config.p384Verify (Config.certKey (slice p 52 (u16 p 48))) (Config.sha384 (p.take 48)) (slice p (52 + u16 p 48) 96) = true) →
     eventAppend s1 [{ comp := 0x0103, digest := p.take 48, version := if s1.kst.ofcAnchor.isSome then 2 else 1, svn := 0 }] = some u →
     Gives (.ofcAnchorWrite r) s fun t => answer t r.ch.val = some (ST_OK, []) ∧ t.kst = { u.kst with ofcAnchor := some (p.take 48) } ∧ t.sgn = u.sgn)

/-- The PVE operations and the DRBG (R461, R467, R468, R469, R462). With the engine and the key store enabled, an operation that fits, on
a slot whose right the caller has and that holds a key, with an instance in service and two results that agree, answers what its algorithm
gives, and one whose right the caller does not have is denied, KEY_RIGHT set; a failed tag or integrity check releases nothing; a healthy
reseed makes the DRBG ready, an unhealthy one counts and reports the failure. -/
def Obligations.PrivilegedEngines : Prop :=
  -- pveGcmEncrypt
  (∀ (p : Fin 8) (sess slot : Nat) (iv aad data : List Byte) (s : Machine.State), pveFit s p sess slot 1 → gcmFits iv aad data.length = true →
     Gives (.pveGcmEncrypt p sess slot iv aad data 0) s fun t => t.kst = { s.kst with pveAns := (ST_OK, Config.gcmEnc ((slotBuf (kslot s slot) (kslot s slot).active).take 32) iv aad data) }) ∧
  -- pveGcmDecrypt
  (∀ (p : Fin 8) (sess slot : Nat) (iv aad data : List Byte) (s : Machine.State), pveFit s p sess slot 1 → 16 ≤ data.length → gcmFits iv aad (data.length - 16) = true →
     Gives (.pveGcmDecrypt p sess slot iv aad data 0) s fun t => t.kst.pveAns =
       (match Config.gcmDec ((slotBuf (kslot s slot) (kslot s slot).active).take 32) iv aad data with | some out => (ST_OK, out) | none => (ST_TAG_FAIL, []))) ∧
  -- pveKeyWrap
  (∀ (p : Fin 8) (slot : Nat) (data : List Byte) (s : Machine.State), pveFit s p 0 slot 2 → wrapFits data.length = true →
     Gives (.pveKeyWrap p slot data 0) s fun t => t.kst = { s.kst with pveAns := (ST_OK, Config.kwWrap ((slotBuf (kslot s slot) (kslot s slot).active).take 32) data) }) ∧
  -- pveKeyUnwrap
  (∀ (p : Fin 8) (sess slot : Nat) (data : List Byte) (s : Machine.State), pveFit s p sess slot 3 → 8 ≤ data.length → wrapFits (data.length - 8) = true →
     Gives (.pveKeyUnwrap p sess slot data 0) s fun t => t.kst.pveAns =
       (match Config.kwUnwrap ((slotBuf (kslot s slot) (kslot s slot).active).take 32) data with | some out => (ST_OK, out) | none => (ST_UNWRAP_FAIL, []))) ∧
  -- pveCmac
  (∀ (p : Fin 8) (sess slot : Nat) (data : List Byte) (s : Machine.State), pveFit s p sess slot 4 → data.length ≤ 4096 →
     Gives (.pveCmac p sess slot data 0) s fun t => t.kst = { s.kst with pveAns := (ST_OK, Config.cmac ((slotBuf (kslot s slot) (kslot s slot).active).take 32) data) }) ∧
  -- pve denied
  (∀ (p : Fin 8) (sess slot : Nat) (iv aad data : List Byte) (bad : Fin 3) (s : Machine.State), fone s Fld.PVE_CTRL_EN = true → fone s Fld.KST_CTRL_EN = true → carded s (midPair p.val) = false →
     gcmFits iv aad data.length = true → pveRight s sess slot 1 = false →
     Gives (.pveGcmEncrypt p sess slot iv aad data bad) s fun t => t.kst = { s.kst with pveAns := (ST_DENIED, []) } ∧ fget t Fld.KST_EVENTS_KEY_RIGHT = 1) ∧
  -- drbgReseed
  (∀ (health : Fin 3) (s : Machine.State), Gives (.drbgReseed health) s fun t =>
     (health = 0 → fget t Fld.KST_DRBG_READY = 1 ∧ fget t Fld.KST_DRBG_HEALTH_FAIL = 0 ∧ RegsBut [Fld.KST_DRBG_READY.addr] s t) ∧
     (health ≠ 0 → fget t Fld.KST_DRBG_HEALTH_FAIL = 1 ∧ fget t Fld.KST_EVENTS_ENTROPY_FAIL = 1))

/-- Signet and Locket are read, frozen and thawed through the mailbox (R501, R550, R583, R585, R586, R587). An accepted SIGNET_INFO,
SIGNET_READ of an index in the ledger, SIGNET_CHAIN of a stored key, LOCKET_INFO and LOCKET_READ of an index held is answered with
the bytes the rule gives; LOCKET_FREEZE with none in force freezes the recorder for the caller's session and answers the index,
LOCKET_THAW by that session ends it and answers the records lost. -/
def Obligations.LedgerOpcodes : Prop :=
  -- signetInfo
  (∀ (r : Rq) (s s1 : Machine.State) (c : Caller), accepted 0x0601 false r s = some (c, [], s1) →
     Gives (.signetInfo r) s fun t => gets t r.ch.val c (signetInfoPay s1) ∧ t.sgn = s1.sgn) ∧
  -- signetRead
  (∀ (r : Rq) (s s1 : Machine.State) (c : Caller) (p : List Byte), accepted 0x0602 false r s = some (c, p, s1) → p.length = 16 → u32 p 8 ≠ 0 →
     oldestIdx s1.sgn ≤ u64 p 0 → u64 p 0 < s1.sgn.next →
     Gives (.signetRead r) s fun t => ∃ b n nxt,
       (b, n, nxt) = signetTake s1.part.serial (((ledger s1.sgn).filter fun e => decide (u64 p 0 ≤ e.idx)).take (u32 p 8)) 1048560 (u64 p 0) ∧
       gets t r.ch.val c (le 4 n ++ zeros 4 ++ le 8 nxt ++ b) ∧ t.sgn = s1.sgn) ∧
  -- signetChain
  (∀ (r : Rq) (s s1 : Machine.State) (c : Caller) (p rest : List Byte), accepted 0x0603 false r s = some (c, p, s1) → p.length = 8 →
     (p = keyIdOf s1.sgn.devPub ∧ rest = [] ∨
       p ≠ keyIdOf s1.sgn.devPub ∧ s1.bot.recovery = false ∧ certOf s1 (if p = zeros 8 then s1.sgn.keyId else p) = some rest) →
     Gives (.signetChain r) s fun t => gets t r.ch.val c (chainOf rest)) ∧
  -- locketInfo
  (∀ (r : Rq) (s s1 : Machine.State) (c : Caller), accepted 0x0701 false r s = some (c, [], s1) →
     Gives (.locketInfo r) s fun t => gets t r.ch.val c (locketInfoPay s1)) ∧
  -- locketRead
  (∀ (r : Rq) (s s1 : Machine.State) (c : Caller) (p : List Byte), accepted 0x0702 false r s = some (c, p, s1) → p.length = 32 → 1 ≤ u32 p 8 → u32 p 8 ≤ 262144 →
     lktOldest s1.lkt ≤ u64 p 0 → u64 p 0 < s1.lkt.next →
     (((lktAll s1.lkt).filter fun e => decide (u64 p 0 ≤ e.1.idx)).filter fun e => recWanted (u32 p 12) (u64 p 16) (u64 p 24) e.1).length ≤ min (u32 p 8) 262143 →
     Gives (.locketRead r) s fun t => ∃ l : List (LktRec × Bool),
       l = ((lktAll s1.lkt).filter fun e => decide (u64 p 0 ≤ e.1.idx)).filter (fun e => recWanted (u32 p 12) (u64 p 16) (u64 p 24) e.1) ∧
       gets t r.ch.val c (le 4 l.length ++ le 4 (b2n (l.any fun e => e.2) + 2 * b2n (tornIn s1.lkt (u64 p 0) s1.lkt.next)) ++ le 8 s1.lkt.next ++
         l.flatMap fun e => recBytes e.1 (!(c.cls == .manager || c.cls == .service)))) ∧
  -- locketFreeze
  (∀ (r : Rq) (s s1 : Machine.State) (c : Caller) (p : List Byte), accepted 0x0703 false r s = some (c, p, s1) → p.length = 4 → s1.lkt.freeze = none →
     Gives (.locketFreeze r) s fun t => answer t r.ch.val = some (ST_OK, le 8 s1.lkt.next) ∧
       t.lkt.freeze = some { session := c.session, start := s1.lkt.next,
                             endTime := now s1 + (if u16 p 0 = 0 then 30 else min (u16 p 0) 300) * 1000000000, lost0 := fget s1 Fld.LKT_LOST_COUNT }) ∧
  -- locketThaw
  (∀ (r : Rq) (s s1 : Machine.State) (c : Caller) (f : LktFreeze), accepted 0x0704 false r s = some (c, [], s1) → s1.lkt.freeze = some f → f.session = c.session →
     Gives (.locketThaw r) s fun t => answer t r.ch.val = some (ST_OK, le 4 (fget s1 Fld.LKT_LOST_COUNT - f.lost0) ++ zeros 4) ∧ t.lkt.freeze = none)

/-- Images are downloaded, committed, written and activated (R544, R545, R546, R547, R551, R554, R541). An accepted FW_DOWNLOAD of a
whole image prepares the inactive slot and holds the image; FW_COMMIT of an image that passes the checks starts the slot's write,
and of a VALID slot makes it PENDING; FW_SLOT_INFO reports the slots; UCODE_LOAD of an image that passes stores it in the other
half; SLOT_WRITE_DONE records the image and makes its slot VALID, and PENDING for action 1; RECOVERY_EXIT begins the flush of a warm
reset; GO loads the selected channel's control store from the shadow. -/
def Obligations.FirmwareOpcodes : Prop :=
  -- fwSlotInfo
  (∀ (r : Rq) (s s1 : Machine.State) (c : Caller), accepted 0x0801 false r s = some (c, [], s1) → s1.bot.wr = none →
     Gives (.fwSlotInfo r) s fun t => t.bot = s1.bot ∧ answer t r.ch.val = some (ST_OK,
       le 1 ((runningSlot s1).getD 0xFF) ++ le 1 s1.bot.bcr.active ++ le 1 s1.bot.bcr.pending ++ le 1 s1.bot.bcr.tries ++ le 1 0 ++ le 1 0 ++
       le 1 (b2n (inband s1)) ++ zeros 1 ++ (le 4 (ctrOf s1 0) ++ (le 4 (ctrOf s1 1) ++ (le 4 (ctrOf s1 2) ++ []))) ++ zeros 4 ++ slotEntry s1 0 ++ slotEntry s1 1)) ∧
  -- fwDownload
  (∀ (r : Rq) (s s1 : Machine.State) (c : Caller) (p : List Byte), accepted 0x0802 false r s = some (c, p, s1) → 512 ≤ p.length → u32 p 64 = p.length →
     dlBar s1 c.ch = ST_OK → slotBar s1 = ST_OK →
     Gives (.fwDownload r) s fun t => answer t r.ch.val = some (ST_OK, []) ∧ t.bot.dl = some { owner := c.ch, bytes := p, whole := true } ∧
       SMap.find t.bot.img (inactiveSlot s1) = none) ∧
  -- fwCommitStore
  (∀ (r : Rq) (s s1 : Machine.State) (c : Caller) (p : List Byte) (d : Download), accepted 0x0803 false r s = some (c, p, s1) → p.length = 4 →
     u8 p 0 = 0xFF → u8 p 1 = 0 → s1.bot.wr = none → s1.bot.dl = some d → d.whole = true → imageCheck s1 d.bytes = ST_OK → slotBar s1 = ST_OK →
     Gives (.fwCommitStore r) s fun t => answer t r.ch.val = some (ST_OK, []) ∧
       t.bot = { s1.bot with wr := some { slot := inactiveSlot s1, act := 0, warm := bit (u8 p 2) 0, image := parseImage d.bytes }, dl := none }) ∧
  -- fwCommitStoreActivate
  (∀ (r : Rq) (s s1 : Machine.State) (c : Caller) (p : List Byte) (d : Download), accepted 0x0803 false r s = some (c, p, s1) → p.length = 4 →
     u8 p 0 = 0xFF → u8 p 1 = 1 → s1.bot.wr = none → s1.bot.dl = some d → d.whole = true → imageCheck s1 d.bytes = ST_OK → slotBar s1 = ST_OK →
     Gives (.fwCommitStoreActivate r) s fun t => answer t r.ch.val = some (ST_OK, []) ∧
       t.bot = { s1.bot with wr := some { slot := inactiveSlot s1, act := 1, warm := bit (u8 p 2) 0, image := parseImage d.bytes }, dl := none, warmAt := if s1.bot.recovery then some (now s1 + 100000000, 7) else s1.bot.warmAt }) ∧
  -- fwCommitActivate
  (∀ (r : Rq) (s s1 : Machine.State) (c : Caller) (p : List Byte) (i : Image), accepted 0x0803 false r s = some (c, p, s1) → p.length = 4 →
     u8 p 0 ≤ 1 → u8 p 1 = 2 → bit (u8 p 2) 0 = false → s1.bot.wr = none → runningSlot s1 ≠ some (u8 p 0) → slotValid s1 (u8 p 0) = true →
     SMap.find s1.bot.img (u8 p 0) = some i → svnOk s1 i = true → pulsesBlocked s1 = false → s1.bot.recovery = false →
     Gives (.fwCommitActivate r) s fun t => answer t r.ch.val = some (ST_OK, []) ∧
       t.bot = { s1.bot with bcr := { s1.bot.bcr with pending := u8 p 0, tries := 0, seq := s1.bot.bcr.seq + 1 } }) ∧
  -- ucodeLoad
  (∀ (r : Rq) (s s1 u : Machine.State) (c : Caller) (p : List Byte), accepted 0x0805 false r s = some (c, p, s1) → ucodeCheck s1 p = ST_OK → pulsesBlocked s1 = false →
     custHalf s1 = none → eventAppend s1 [{ comp := 0x0104, digest := slice p 16 48, version := u16 p 4, svn := u32 p 8 }] = some u →
     Gives (.ucodeLoad r) s fun t => answer t r.ch.val = some (ST_OK, []) ∧ t.sgn = u.sgn ∧
       t.bot.cust = SMap.put s1.bot.cust 0 { seq := 1, abi := u16 p 4, svn := u32 p 8, digest := slice p 16 48, words := codeWords p (u16 p 2), entries := u8 p 6 }) ∧
  -- slotWriteDone
  (∀ (s u : Machine.State) (w : SlotWrite), s.bot.wr = some w → pulsesBlocked s = false → pfail s = false → w.warm = false →
     eventAppend s [{ comp := 0x0105, digest := Config.sha384 w.image.bytes, version := w.image.fwVer, svn := w.image.svn.getD 1 0 }] = some u →
     Gives .slotWriteDone s fun t => t.sgn = u.sgn ∧ t.bot = { s.bot with wr := none, img := SMap.put s.bot.img w.slot w.image, bcr := { s.bot.bcr with valid := s.bot.bcr.valid ||| 2 ^ w.slot, pending := if w.act = 1 then w.slot else s.bot.bcr.pending, tries := if w.act = 1 then 0 else s.bot.bcr.tries, seq := s.bot.bcr.seq + 1 } }) ∧
  -- recoveryExit
  (∀ (s : Machine.State) (at_ cause : Nat), s.bot.warmAt = some (at_, cause) → s.bot.recovery = true → s.bot.wr = none → s.sgd.pfail = false → s.sgd.released = true →
     Gives .recoveryExit s fun t => t = resetFlush (reach s at_) 3 cause ∧ t.sgd.pfail = true ∧ t.bot.want = some (3, cause)) ∧
  -- ucodeControlStoreLoad
  (∀ (m : Master) (v : Word) (ch : Nat) (q : Nat) (s : Machine.State), decideWrite s (whoOf s m) Reg.BOT_UCODE_CTRL = .admitted q →
     bit v.toNat 7 = true → bit v.toNat 6 = false → bits v.toNat 0 6 = ch → ch < chanCount s →
     Gives (.ucodeControlStoreLoad m v) s fun t => fabSays t ST_OK 0 false ∧ (chsOf t ch).code = s.bot.shadow.2 ∧
       (chsOf t ch).digest = Config.sha384 (s.bot.shadow.1 ++ s.bot.shadow.2.flatMap fun w => le 16 w) ∧ fget t Fld.BOT_UCODE_CTRL_STATUS = ST_OK)

/-- Settings are read and written as a whole set (R542, R553, R555). An accepted SETTINGS_READ is answered with the set in force;
SETTINGS_WRITE of a set in the format in force, whose records all parse, are known and hold valid values, replaces each record it
carries and advances the sequence; FW_INBAND_ENABLE writes record 0x0004. -/
def Obligations.SettingsOpcodes : Prop :=
  -- settingsRead
  (∀ (r : Rq) (s s1 : Machine.State) (c : Caller), accepted 0x0806 false r s = some (c, [], s1) →
     Gives (.settingsRead r) s fun t => gets t r.ch.val c (setBytes s1.bot.setFmt s1.bot.setSeq s1.bot.sets) ∧ t.bot = s1.bot) ∧
  -- settingsWrite
  (∀ (r : Rq) (s s1 : Machine.State) (c : Caller) (p : List Byte) (l : List (Nat × List Byte)), accepted 0x0807 false r s = some (c, p, s1) →
     16 ≤ p.length → u32 p 8 = p.length → u16 p 0 = s1.bot.setFmt → setParse (p.length + 1) (p.drop 16) = some l →
     (∀ e, e ∈ l → setKnown e.1 = true ∧ setValid e.1 e.2 = true) → pulsesBlocked s1 = false →
     Gives (.settingsWrite r) s fun t => answer t r.ch.val = some (ST_OK, []) ∧
       t.bot = { s1.bot with sets := l.foldl (fun m e => SMap.put m e.1 e.2) s1.bot.sets, setFmt := 4, setSeq := s1.bot.setSeq + 1 }) ∧
  -- fwInbandEnable
  (∀ (r : Rq) (s s1 : Machine.State) (c : Caller) (p : List Byte), accepted 0x0804 false r s = some (c, p, s1) → p.length = 4 → pulsesBlocked s1 = false →
     Gives (.fwInbandEnable r) s fun t => answer t r.ch.val = some (ST_OK, []) ∧ inband t = bit (u8 p 0) 0 ∧
       t.bot = { s1.bot with sets := SMap.put s1.bot.sets 4 [BitVec.ofNat 8 (u8 p 0 % 2)], setFmt := 4, setSeq := s1.bot.setSeq + 1 })

/-- Loops are measured, runs are planned, delays gathered and ageing reported (R556, R557, R561, R570, R571). With RALLY_EN set a
measurement stores its laps and faults every loop without one; where a run can start a planning run ends with its time recorded and
the interval's inputs cleared, and AGE_PLAN_NOW starts one; a re-gather records each kind's narrowest window and the time;
AGE_SUMMARY and AGE_REPORT answer what R571 lists. -/
def Obligations.AgeingCommands : Prop :=
  -- ageSummary
  (∀ (r : Rq) (s s1 : Machine.State) (c : Caller), accepted 0x0901 false r s = some (c, [], s1) →
     Gives (.ageSummary r) s fun t => answer t r.ch.val = some (ST_OK, (ageSummary c s1).pay) ∧ t.age = s1.age) ∧
  -- ageReport
  (∀ (r : Rq) (s s1 : Machine.State) (c : Caller) (p : List Byte), accepted 0x0902 false r s = some (c, p, s1) → p.length = 4 →
     Gives (.ageReport r) s fun t => ∃ want, want = [1, 2, 3, 4, 5].filter (fun n => bit (u32 p 0) n) ∧ t.age = s1.age ∧
       gets t r.ch.val c (le 2 1 ++ zeros 2 ++ le 4 (want.foldl (fun v n => v + 2 ^ n) 0) ++
         want.flatMap fun n => le 2 n ++ zeros 2 ++ le 4 (ageSection s1 n).length ++ ageSection s1 n)) ∧
  -- agePlanNow
  (∀ (r : Rq) (s s1 : Machine.State) (c : Caller), accepted 0x0903 false r s = some (c, [], s1) → fone s1 Fld.AGE_PLAN_STATUS_RUNNING = false → planCan s1 = true →
     Gives (.agePlanNow r) s fun t => answer t r.ch.val = some (ST_OK, []) ∧ fget t Fld.AGE_PLAN_STATUS_RUNNING = 1) ∧
  -- rallyMeasure
  (∀ (laps : List Nat) (s : Machine.State), fone s Fld.AGE_CTRL_RALLY_EN = true →
     Gives (.rallyMeasure laps) s fun t => t.age.laps = (List.range 96).map (fun k => laps.getD k 0) ∧ t.age.meas = now t ∧
       (∀ k, k < 96 → laps.getD k 0 = 0 → k ∈ t.age.bad) ∧ (∀ k, k ∈ s.age.bad → k ∈ t.age.bad)) ∧
  -- planningRun
  (∀ (probe : List (Nat × Decode)) (s : Machine.State), planCan s = true →
     Gives (.planningRun probe) s fun t => t.age.lastRun = now t ∧ t.age.reads = [] ∧ t.age.soft = [] ∧ t.age.samples = [] ∧ t.age.rails = [] ∧ t.age.temps = (0, 0)) ∧
  -- dramRegather
  (∀ (rank : Fin 16) (windows : List (List (Nat × Nat))) (s : Machine.State), gatherOpen s = false → pfail s = false → fone s Fld.DMC_STATUS_PANIC = false →
     fone s Fld.DMC_STATUS_CHANGING = false → s.bot.run = true →
     Gives (.dramRegather rank windows) s fun t => SMap.find t.age.gathers (gatherKey s rank.val) = some (now t) ∧
       SMap.find t.age.gband rank.val = some (SMap.getD s.dmc.band rank.val 0) ∧
       ∀ k, k < 4 → SMap.find t.age.windows (rank.val * 4 + k) = some ((List.range 40).foldl (fun n l => min n ((windows.getD k []).getD l (0, 0)).1) 255))

/-- Self-tests run, end and are reported; the hold-up test (R155, R157, R158, R159, R160, R443, R455). An accepted SELFTEST_START
with no test running is answered ST_OK and, where no stored unit is there to sample, leaves the short or the extended test running
with origin 4; SELFTEST_ABORT ends the running test with code 1, its end once no read of its is outstanding with code 0, or 7 and the
first segment that failed; the last twenty results are kept, newest first; SELFTEST_STATUS and DIAG_COUNTERS report;
HOLDUP_TEST reports, or asks for a test where none runs, no disturbance stands and no fault is latched. -/
def Obligations.SelfTests : Prop :=
  -- selftestStartShort
  (∀ (r : Rq) (s s1 : Machine.State) (c : Caller) (p : List Byte), accepted 0x0A01 false r s = some (c, p, s1) → p.length = 4 → bit (u8 p 0) 0 = false → s1.hst.dst.st = 0 →
     Gives (.selftestStartShort r) s fun t => answer t r.ch.val = some (ST_OK, []) ∧ (sampleUnits s1 = [] → t.hst.dst.fails = []) ∧
       { t.hst.dst with fails := [] } = { s1.hst.dst with st := 1, origin := 4, fails := [] } ∧ fget t Fld.QEN_DST_STATE = 1 ∧ fget t Fld.QEN_DST_ORIGIN = 4) ∧
  -- selftestStartExtended
  (∀ (r : Rq) (s s1 : Machine.State) (c : Caller) (p : List Byte), accepted 0x0A01 false r s = some (c, p, s1) → p.length = 4 → bit (u8 p 0) 0 = true → s1.hst.dst.st = 0 →
     Gives (.selftestStartExtended r) s fun t => answer t r.ch.val = some (ST_OK, []) ∧ (sampleUnits s1 = [] → scanSample s1 = [] → t.hst.dst.fails = []) ∧
       { t.hst.dst with fails := [] } = { s1.hst.dst with st := 2, origin := 4, fails := [] } ∧ fget t Fld.QEN_DST_STATE = 2 ∧ fget t Fld.QEN_DST_ORIGIN = 4) ∧
  -- selftestStart busy
  (∀ (r : Rq) (s s1 : Machine.State) (c : Caller) (p : List Byte), accepted 0x0A01 false r s = some (c, p, s1) → p.length = 4 → s1.hst.dst.st ≠ 0 →
     Gives (.selftestStartShort r) s fun t => answer t r.ch.val = some (ST_BUSY, []) ∧ t.hst.dst = s1.hst.dst) ∧
  -- selftestStatus
  (∀ (r : Rq) (s s1 : Machine.State) (c : Caller) (x : DstResult) (l : List DstResult), accepted 0x0A02 false r s = some (c, [], s1) → s1.hst.dst.st = 0 → s1.hst.dst.results = x :: l →
     Gives (.selftestStatus r) s fun t => answer t r.ch.val = some (ST_OK, le 1 0 ++ le 1 0 ++ le 1 s1.hst.dst.origin ++
       (le 1 (x.code % 16 + 16 * (if x.extended then 2 else 1)) ++ le 1 x.segment ++ zeros 3 ++ le 8 x.time))) ∧
  -- selftestAbort
  (∀ (r : Rq) (s s1 : Machine.State) (c : Caller), accepted 0x0A03 false r s = some (c, [], s1) → s1.hst.dst.st ≠ 0 →
     Gives (.selftestAbort r) s fun t => answer t r.ch.val = some (ST_OK, []) ∧ t.hst.dst = { s1.hst.dst with st := 0, results := ({ code := 1, extended := s1.hst.dst.st == 2, segment := 0, time := now s1, nsid := 0, lba := 0 } :: s1.hst.dst.results).take 20, fails := [] }) ∧
  -- selftestEnd
  (∀ (seg : Nat) (s : Machine.State), s.hst.dst.st = 1 ∨ s.hst.dst.st = 2 → (∀ e, e ∈ s.dsc.bg → e.2.test = 0) →
     Gives (.selftestEnd seg) s fun t => ∃ x, t.hst.dst = { s.hst.dst with st := 0, results := (x :: s.hst.dst.results).take 20, fails := [] } ∧
       x.extended = (s.hst.dst.st == 2) ∧ x.time = now s ∧ (segFails s seg = [] → x.code = 0) ∧
       (∀ e l, segFails s seg = e :: l → x.code = 7 ∧ x.segment = e.1 ∧ x.nsid = e.2.1 ∧ x.lba = e.2.2) ∧ (seg = 1 → x.code = 7 ∧ x.segment = 1)) ∧
  -- diagCounters
  (∀ (r : Rq) (s s1 : Machine.State) (c : Caller), accepted 0x0A04 false r s = some (c, [], s1) →
     Gives (.diagCounters r) s fun t => answer t r.ch.val = some (ST_OK, ([s1.hst.diag.hostCmds, s1.hst.diag.ldpc, s1.hst.diag.retries, s1.hst.diag.soft, s1.hst.diag.uncorr,
       s1.hst.diag.rebound, s1.hst.diag.recover, s1.hst.diag.dmaErr].flatMap fun n => le 8 (sat 64 n)))) ∧
  -- holdupTestReport
  (∀ (r : Rq) (s s1 : Machine.State) (c : Caller) (p : List Byte), accepted 0x0A05 false r s = some (c, p, s1) → p.length = 4 → bit (u8 p 0) 0 = false →
     Gives (.holdupTestReport r) s fun t => answer t r.ch.val = some (ST_OK, holdupPay s1)) ∧
  -- holdupTestStart
  (∀ (r : Rq) (s s1 : Machine.State) (c : Caller) (p : List Byte), accepted 0x0A05 false r s = some (c, p, s1) → p.length = 4 → bit (u8 p 0) 0 = true →
     fget s1 Fld.SGD_TEST_CTRL_STATE = 0 → s1.sgd.dist = [] → fone s1 Fld.SGD_EVENTS_CHARGE_FAULT = false → fone s1 Fld.SGD_EVENTS_BANK_OV = false →
     Gives (.holdupTestStart r) s fun t => (∃ u, answer t r.ch.val = some (ST_OK, holdupPay u)) ∧ t.sgd.want = true)

/-- The digest engine, the snoop and the latches (R482, R485, R486, R488). A START and FINAL request of a pair that runs completes with
ST_OK and puts the digest, the HMAC or the derived bytes of the data in its buffer into the pair's result registers; a START and SAVE
request keeps its state in its context slot; ARM starts a snoop while fewer than four were armed, END ends it and gives the digest when
the bytes match the declared length; the two latches close. -/
def Obligations.DigestEngine : Prop :=
  -- dgeSha384
  (∀ (p : Fin 8) (r : DgeReq) (d : List Byte) (s : Machine.State), dgeRuns s p 0 r d → Gives (.dgeSha384 p) s fun t => dgeGave s t p (Config.sha384 d)) ∧
  -- dgeSha512
  (∀ (p : Fin 8) (r : DgeReq) (d : List Byte) (s : Machine.State), dgeRuns s p 1 r d → Gives (.dgeSha512 p) s fun t => dgeGave s t p (Config.sha512 d)) ∧
  -- dgeHmacSha384
  (∀ (p : Fin 8) (r : DgeReq) (d : List Byte) (s : Machine.State), dgeRuns s p 2 r d → r.keysrc = 2 →
     Gives (.dgeHmacSha384 p) s fun t => dgeGave s t p (Config.hmac384 ((slotBuf (kslot s r.keyslot) (kslot s r.keyslot).active).take 48) d)) ∧
  -- dgeHmacSha512
  (∀ (p : Fin 8) (r : DgeReq) (d : List Byte) (s : Machine.State), dgeRuns s p 3 r d → r.keysrc = 2 →
     Gives (.dgeHmacSha512 p) s fun t => dgeGave s t p (Config.hmac512 ((slotBuf (kslot s r.keyslot) (kslot s r.keyslot).active).take 64) d)) ∧
  -- dgeHkdfExpand
  (∀ (p : Fin 8) (r : DgeReq) (info d : List Byte) (n : Nat) (s : Machine.State), n < 65536 → d = info ++ le 2 n → dgeRuns s p 4 r d → r.keysrc = 2 →
     Gives (.dgeHkdfExpand p) s fun t => dgeGave s t p (Config.hkdf384 ((slotBuf (kslot s r.keyslot) (kslot s r.keyslot).active).take 48) info n)) ∧
  -- dge saved
  (∀ (p : Fin 8) (r : DgeReq) (d : List Byte) (s : Machine.State), s.dge.run = [(0, r)] → s.dge.queue = [] → s.dge.held = [] → r.pair = p.val → r.op = 0 → r.flags % 8 = 5 →
     r.keysrc = 0 → dgeData s r = d →
     Gives (.dgeSha384 p) s fun t => t.dge = { s.dge with run := [], ctx := SMap.put s.dge.ctx r.ctx { op := 0, key := [], msg := d, owner := p.val } } ∧
       fget t (Fld.DGE_REQ_GO_STATUS p.val) = ST_OK) ∧
  -- snoopArm
  (∀ (m : Master) (q : Nat) (s : Machine.State), decideWrite s (whoOf s m) Reg.DGE_SNOOP_CTRL = .admitted q → fget s Fld.DGE_SNOOP_CTRL_ARMED < 4 → s.dge.snoop = none →
     Gives (.snoopArm m) s fun t => t.dge = { s.dge with snoop := some (masterNo m, []) } ∧ fget t Fld.DGE_SNOOP_CTRL_ACTIVE = 1 ∧
       fget t Fld.DGE_SNOOP_CTRL_ARMED = fget s Fld.DGE_SNOOP_CTRL_ARMED + 1 ∧ fget t Fld.DGE_SNOOP_COUNT_BYTES = 0) ∧
  -- snoopEnd
  (∀ (m : Master) (q k : Nat) (b : List Byte) (s : Machine.State), decideWrite s (whoOf s m) Reg.DGE_SNOOP_CTRL = .admitted q → s.dge.snoop = some (k, b) →
     Gives (.snoopEnd m) s fun t => t.dge = { s.dge with snoop := none } ∧ fget t Fld.DGE_SNOOP_CTRL_ACTIVE = 0 ∧
       (b.length = fget s Fld.DGE_SNOOP_LEN_LEN → fget t Fld.DGE_SNOOP_CTRL_STATUS = ST_OK ∧ ∀ k, k < 12 → rget t (Reg.DGE_SNOOP_DIGEST k) = u32 (Config.sha384 b) (4 * k)) ∧
       (b.length ≠ fget s Fld.DGE_SNOOP_LEN_LEN → fget t Fld.DGE_SNOOP_CTRL_STATUS = ST_BAD_LENGTH ∧ fget t Fld.DGE_EVENTS_SNOOP_LENGTH = 1)) ∧
  -- dgeUdsClose
  (∀ (m : Master) (q : Nat) (s : Machine.State), decideWrite s (whoOf s m) Reg.DGE_LATCH = .admitted q →
     Gives (.dgeUdsClose m) s fun t => fget t Fld.DGE_LATCH_UDS_OPEN = 0 ∧ fget t Fld.DGE_LATCH_BOOT_OPEN = fget s Fld.DGE_LATCH_BOOT_OPEN ∧ RegsBut [Reg.DGE_LATCH] s t) ∧
  -- dgeBootClose
  (∀ (m : Master) (q : Nat) (s : Machine.State), decideWrite s (whoOf s m) Reg.DGE_LATCH = .admitted q →
     Gives (.dgeBootClose m) s fun t => fget t Fld.DGE_LATCH_BOOT_OPEN = 0 ∧ fget t Fld.DGE_LATCH_UDS_OPEN = fget s Fld.DGE_LATCH_UDS_OPEN ∧ RegsBut [Reg.DGE_LATCH] s t)

/-- The public-key engine (R483, R489, R490). With the engine enabled and not carded, the operation in progress of the pair that
posted first signs with the scalar of a permitted seed slot, verifies, agrees on a secret that goes into a SESSION slot, or derives
a public key and its ID; a signature that does not verify completes with ST_SIG_INVALID, two results that differ with
ST_CIPHER_FAULT. -/
def Obligations.PublicKeyEngine : Prop :=
  -- pkeSign
  (∀ (p : Fin 8) (s : Machine.State) (slot : Nat), pkeReady s p 1 slot → seedSlot s slot = true → (kslot s slot).st ≠ 0 → entropyBad s = false →
     Gives (.pkeSign p true) s fun t => t.dge = { s.dge with pkeQ := s.dge.pkeQ.drop 1, pkeOut := SMap.put s.dge.pkeOut p.val (Config.p384Sign (pkeScalar s slot) (pkeIn s p.val 0 48) s.kst.draws) } ∧
       fget t (Fld.PKE_REQ_GO_STATUS p.val) = ST_OK) ∧
  -- pkeVerify
  (∀ (p : Fin 8) (s : Machine.State) (slot : Nat), pkeReady s p 2 slot →
     Gives (.pkeVerify p) s fun t => t.dge = { s.dge with pkeQ := s.dge.pkeQ.drop 1, pkeOut := SMap.put s.dge.pkeOut p.val [] } ∧
       fget t (Fld.PKE_REQ_GO_STATUS p.val) = if Config.p384Verify (pkeIn s p.val 48 96) (pkeIn s p.val 0 48) (pkeIn s p.val 144 96) then ST_OK else ST_SIG_INVALID) ∧
  -- pkeEcdh
  (∀ (p : Fin 8) (s : Machine.State) (slot : Nat), pkeReady s p 3 slot → 16 ≤ slot → slot < 64 → entropyBad s = false →
     Gives (.pkeEcdh p true) s fun t => SMap.find t.dge.pkeOut p.val = some (Config.p384Pub (draw s).1) ∧ (kslot t slot).st = 1 ∧ (kslot t slot).typ = 3 ∧
       (kslot t slot).origin = 3 ∧ slotBuf (kslot t slot) (kslot t slot).active = (Config.p384Ecdh (draw s).1 (pkeIn s p.val 0 96)).take 64 ++ zeros (64 - (Config.p384Ecdh (draw s).1 (pkeIn s p.val 0 96)).length)) ∧
  -- pkePubkey
  (∀ (p : Fin 8) (s : Machine.State) (slot : Nat), pkeReady s p 4 slot → seedSlot s slot = true → (kslot s slot).st ≠ 0 →
     Gives (.pkePubkey p) s fun t => SMap.find t.dge.pkeOut p.val = some (Config.p384Pub (pkeScalar s slot) ++ (Config.sha384 (Config.p384Pub (pkeScalar s slot))).take 8) ∧
       fget t (Fld.PKE_REQ_GO_STATUS p.val) = ST_OK) ∧
  -- pke agree
  (∀ (p : Fin 8) (s : Machine.State) (slot : Nat), pkeReady s p 1 slot → seedSlot s slot = true → (kslot s slot).st ≠ 0 → entropyBad s = false →
     Gives (.pkeSign p false) s fun t => SMap.find t.dge.pkeOut p.val = some [] ∧ fget t (Fld.PKE_REQ_GO_STATUS p.val) = ST_CIPHER_FAULT)

/-- Ledger entries are appended, committed and compacted (R491, R494, R495, R499, R500). An admitted append whose items fit its
type, with room in the ring, programs an entry that is not yet committed, with the next index and the chain's digest; the commit
word makes it the newest entry and clears GO; a compaction leaves the oldest segment erased and counts it. -/
def Obligations.SignetLedger : Prop :=
  -- signetAppend
  (∀ (m : Master) (typ : Nat) (items : List MItem) (settings : List Byte) (reason state q c : Nat) (s : Machine.State), decideWrite s (whoOf s m) Reg.SGN_APPEND = .admitted q →
     fone s Fld.SGN_CTRL_EN = true → fone s Fld.SGN_APPEND_GO = false → s.sgn.app = none → itemsOk typ items = true → typ ≠ 4 → cellPlace s.sgn (ownItems s typ ++ items).length (typ == 3) = some c →
     carded s midPke = false → pulsesBlocked s = false →
     Gives (.signetAppend m typ items settings reason state 0) s fun t => t.sgn.app = some c ∧ t.sgn.next = s.sgn.next ∧ t.sgn.last = s.sgn.last ∧
       ∃ e, SMap.find t.sgn.ents c = some e ∧ e.typ = typ ∧ e.idx = s.sgn.next ∧ e.time = now s ∧ e.boot = s.tmb.boots ∧ e.items = ownItems s typ ++ items ∧ e.done = false ∧
         e.prev = (if s.sgn.next = 0 then zeros 48 else s.sgn.last) ∧ e.sig = Config.p384Sign (pkeScalar s 3) (Config.sha384 (entryBody s.part.serial { e with sig := [] })) s.kst.draws) ∧
  -- signetCommit
  (∀ (c : Nat) (e : SEntry) (s : Machine.State), pulsesBlocked s = false → s.sgn.app = some c → SMap.find s.sgn.ents c = some e →
     Gives .signetCommit s fun t => t.sgn = { s.sgn with ents := SMap.put s.sgn.ents c { e with done := true }, app := none, head := (c + entryCells e.items.length) % ringCells, next := e.idx + 1, last := entryDigest s { e with done := true } } ∧
       fget t Fld.SGN_APPEND_GO = 0 ∧ fget t Fld.SGN_APPEND_STATUS = ST_OK) ∧
  -- signetCompaction
  (∀ (s : Machine.State) (c seg : Nat), s.sgn.app = none → compactDue s.sgn = true → fone s Fld.SGN_CTRL_EN = true → pulsesBlocked s = false → carded s midPke = false → volleyNeeds s (segEntries s.sgn seg) = false →
     seg = (s.sgn.head / 256 + 1) % ringSegs → (∀ e, e ∈ segEntries s.sgn seg → e.idx ∉ keptBoots s.sgn) → cellPlace s.sgn 5 true = some c →
     Gives .signetCompaction s fun t => sgnErased t.sgn seg = true ∧ t.sgn.compactions = s.sgn.compactions + 1 ∧ t.sgn.next = s.sgn.next + (if (segEntries s.sgn seg).isEmpty then 0 else 1))

/-- Records are posted and flushed, and a freeze times out (R576, R580, R581, R583, R591). A pair's admitted post of a permitted
code is accepted with the next index when the recorder has room and no limit holds; a flush that is due programs the unflushed
records; its seal ends it and everything it covers is flushed; a freeze ends at its time and raises FREEZE_TIMEOUT. -/
def Obligations.LocketRecorder : Prop :=
  -- locketPost
  (∀ (p : Fin 8) (q src ev : Nat) (s : Machine.State), decideWrite s (whoOf s (.pair p)) (Reg.LKT_POST_GO p.val) = .admitted q →
     src = fget s (Fld.LKT_POST_CODE_CODE p.val) / 1024 % 32 → ev = fget s (Fld.LKT_POST_CODE_CODE p.val) % 1024 → src ≠ 22 → src ≠ 23 → src ≠ 12 →
     SMap.getD s.lkt.rate src 0 < max 1 (fget s Fld.LKT_RATE_PER_MS) → s.lkt.lostNew = 0 → lktRoom s.lkt = true →
     Gives (.locketPost p) s fun t => t.lkt.next = s.lkt.next + 1 ∧ fget t (Fld.LKT_POST_GO_STATUS p.val) = ST_OK ∧
       ∃ r, r ∈ t.lkt.ring ++ t.lkt.side ∧ r.idx = s.lkt.next ∧ r.time = now s ∧ r.boot = s.tmb.boots ∧ r.code = lktCode src ev ((fget s (Fld.LKT_POST_CODE_CODE p.val)).testBit 15) ∧
         r.p1 = rget s (Reg.LKT_POST_P p.val 0) ∧ r.p2 = rget s (Reg.LKT_POST_P p.val 1) ∧ r.p3 = rget s (Reg.LKT_POST_P p.val 2) ∧ r.p4 = rget s (Reg.LKT_POST_P p.val 3)) ∧
  -- locketFlush
  (∀ (s : Machine.State) (x : LktRec) (xs : List LktRec), fone s Fld.LKT_CTRL_EN = true → s.lkt.freeze = none → s.lkt.flush = none → pulsesBlocked s = false → readHolds s = false →
     unflushed s.lkt = x :: xs → max 1 (fget s Fld.LKT_FLUSH_WATER) ≤ xs.length + 1 ∨ s.lkt.due = true →
     Gives .locketFlush s fun t => ∃ l first n, recsPut s.tmb.boots (now s) (x :: xs) s.lkt s.lkt.flushed 0 = (l, first, n) ∧ t.lkt = { l with flush := some (first, n) } ∧ t.tmb = s.tmb) ∧
  -- locketFlushDone
  (∀ (s : Machine.State) (first n : Nat), pulsesBlocked s = false → s.lkt.flush = some (first, n) → n ≠ 0 →
     Gives .locketFlushDone s fun t => t.lkt.flush = none ∧ first + n ≤ t.lkt.flushed ∧ t.lkt.next = s.lkt.next) ∧
  -- freezeTimeout
  (∀ (s : Machine.State) (f : LktFreeze), s.lkt.freeze = some f →
     Gives .freezeTimeout s fun t => t.lkt.freeze = none ∧ fget t Fld.LKT_EVENTS_FREEZE_TIMEOUT = 1)

/-- Clasp descriptors start and complete (R512, R513, R515, R516, R517, R518, R521, R522). The descriptor whose turn it is starts when the
array is free for it and no check fails, a PROGRAM with the words of its source; an ERASE of the sector whose erase runs or is suspended
completes with ST_BUSY; when its array work ends its slot is DONE with ST_OK, and
the words are read and delivered to the poster's own SRAM, or programmed, the sector is erased and counted, the lock bit is set or
cleared, or the password replaced; a wrong password leaves the lock and answers ST_PROTECTED. -/
def Obligations.ClaspDescriptors : Prop :=
  -- clsRead
  (∀ (i : Nat) (d : ClsSlot) (s : Machine.State), clsGo s 1 i d → Gives .clsRead s fun t => SMap.find t.cls.slots i = some { d with st := 2, vals := [] }) ∧
  -- clsProgram
  (∀ (i : Nat) (d : ClsSlot) (s : Machine.State), clsGo s 2 i d → Gives .clsProgram s fun t => SMap.find t.cls.slots i = some { d with st := 2, vals := clsWords s d }) ∧
  -- clsErase
  (∀ (i : Nat) (d : ClsSlot) (s : Machine.State), clsGo s 3 i d → Gives .clsErase s fun t => SMap.find t.cls.slots i = some { d with st := 2 } ∧
     t.cls.erase = some { slot := i, sector := d.addr / 4096, st := 1, since := now s }) ∧
  -- clsErase of the sector whose erase runs or is suspended
  (∀ (i : Nat) (d : ClsSlot) (s : Machine.State), clsTurn s = some (i, d) → d.op = 3 → clsFree s d = true → clsCheck s d = some (ST_BUSY, 0) →
     Gives .clsErase s fun t => SMap.find t.cls.slots i = some { d with st := 4, status := ST_BUSY, at_ := 0 } ∧ t.cls.erase = s.cls.erase) ∧
  -- clsBlankCheck
  (∀ (i : Nat) (d : ClsSlot) (s : Machine.State), clsGo s 4 i d → Gives .clsBlankCheck s fun t => SMap.find t.cls.slots i = some { d with st := 2, vals := [] }) ∧
  -- clsLock
  (∀ (i : Nat) (d : ClsSlot) (s : Machine.State), clsGo s 5 i d → Gives .clsLock s fun t => SMap.find t.cls.slots i = some { d with st := 2, vals := [] }) ∧
  -- clsUnlock
  (∀ (i : Nat) (d : ClsSlot) (s : Machine.State), clsGo s 6 i d → Gives .clsUnlock s fun t => SMap.find t.cls.slots i = some { d with st := 2, vals := [] }) ∧
  -- clsSetPassword
  (∀ (i : Nat) (d : ClsSlot) (s : Machine.State), clsGo s 7 i d → Gives .clsSetPassword s fun t => SMap.find t.cls.slots i = some { d with st := 2, vals := [] }) ∧
  -- clsDescComplete program
  (∀ (i : Fin 32) (k : Nat) (corr bad : List Nat) (d : ClsSlot) (s : Machine.State), SMap.find s.cls.slots i.val = some d → d.st = 2 → d.op = 2 → pulsesBlocked s = false → fone s Fld.CLS_STATUS_PFAIL = false →
     Gives (.clsDescComplete i k corr bad) s fun t => SMap.find t.cls.slots i.val = some { d with st := 4, status := ST_OK, words := d.len / 8 } ∧
       ∀ w, SMap.find t.cls.nor w = if d.addr / 8 ≤ w ∧ w < d.addr / 8 + d.len / 8 then some (d.vals.getD (w - d.addr / 8) wordOnes % 2 ^ 64) else SMap.find s.cls.nor w) ∧
  -- clsDescComplete erase
  (∀ (i : Fin 32) (k : Nat) (corr bad : List Nat) (d : ClsSlot) (s : Machine.State), SMap.find s.cls.slots i.val = some d → d.st = 2 → d.op = 3 →
     Gives (.clsDescComplete i k corr bad) s fun t => SMap.find t.cls.slots i.val = some { d with st := 4, status := ST_OK } ∧ t.cls.erase = none ∧
       (∀ w, w / 512 = d.addr / 4096 → SMap.find t.cls.nor w = none) ∧ SMap.find t.cls.erases (d.addr / 4096) = some (min 0x1FFFF (SMap.getD s.cls.erases (d.addr / 4096) 0 + 1))) ∧
  -- clsDescComplete read
  (∀ (i : Fin 32) (k : Nat) (d : ClsSlot) (s : Machine.State), SMap.find s.cls.slots i.val = some d → d.st = 2 → d.op = 1 → (∀ j, j < d.len / 8 → (SMap.find s.cls.nor (d.addr / 8 + j)).isSome = true) →
     Gives (.clsDescComplete i k [] []) s fun t => ∃ v, SMap.find t.cls.slots i.val = some { d with st := 4, status := ST_OK, words := d.len / 8, at_ := 0, vals := v } ∧
       v.length = d.len / 8 ∧ (∀ j, j < d.len / 8 → v[j]? = SMap.find s.cls.nor (d.addr / 8 + j)) ∧
       (d.where_ ≠ 1 → d.where_ ≠ 2 → inTcm d.poster (bits d.data 0 32) (8 * (d.len / 8)) = true →
         ∀ j, j < 8 * (d.len / 8) → SMap.getD t.fab.mem (bits d.data 0 32 + j) 0 = (v.flatMap (le 8)).getD j 0)) ∧
  -- clsDescComplete lock
  (∀ (i : Fin 32) (k : Nat) (corr bad : List Nat) (d : ClsSlot) (s : Machine.State), SMap.find s.cls.slots i.val = some d → d.st = 2 → d.op = 5 →
     Gives (.clsDescComplete i k corr bad) s fun t => SMap.find t.cls.slots i.val = some { d with st := 4, status := ST_OK } ∧
       ∀ n, sectorLocked t n = if n = d.addr / 4096 then true else sectorLocked s n) ∧
  -- clsDescComplete unlock
  (∀ (i : Fin 32) (k : Nat) (corr bad : List Nat) (d : ClsSlot) (s : Machine.State), SMap.find s.cls.slots i.val = some d → d.st = 2 → d.op = 6 →
     Gives (.clsDescComplete i k corr bad) s fun t =>
       (d.param = s.cls.pw → SMap.find t.cls.slots i.val = some { d with st := 4, status := ST_OK } ∧ ∀ n, sectorLocked t n = if n = d.addr / 4096 then false else sectorLocked s n) ∧
       (d.param ≠ s.cls.pw → SMap.find t.cls.slots i.val = some { d with st := 4, status := ST_PROTECTED } ∧ t.cls.locks = s.cls.locks ∧ fget t Fld.CLS_EVENTS_PW_FAIL = 1)) ∧
  -- clsDescComplete password
  (∀ (i : Fin 32) (k : Nat) (corr bad : List Nat) (d : ClsSlot) (s : Machine.State), SMap.find s.cls.slots i.val = some d → d.st = 2 → d.op = 7 → d.data = s.cls.pw →
     Gives (.clsDescComplete i k corr bad) s fun t => SMap.find t.cls.slots i.val = some { d with st := 4, status := ST_OK } ∧ t.cls.pw = d.param)

/-- Slots are released, erases suspend, continuous reads run, and pulses are blocked (R514, R519, R520, R523, R598). A master's
release clears its own DONE slots; a yielding erase suspends while reading or programming work waits and resumes when none does; GO
starts a continuous read of an aligned range and delivers words, a corrected one is counted, STOP ends it; BLOCK_AON is set and cleared by the VDD_AON
thresholds, an erase being abandoned; a reset of the Clasp die leaves it held. -/
def Obligations.ClaspStore : Prop :=
  -- clsSlotRelease
  (∀ (m : Master) (v : Word) (q : Nat) (s : Machine.State), decideWrite s (whoOf s m) Reg.CLS_RELEASE = .admitted q →
     Gives (.clsSlotRelease m v) s fun t => t.cls = { s.cls with slots := s.cls.slots.filter fun e => !(v.toNat.testBit e.1 && e.2.st == 4 && e.2.poster == masterNo m) }) ∧
  -- clsEraseSuspend
  (∀ (e : ClsErase) (d : ClsSlot) (s : Machine.State), s.cls.erase = some e → SMap.find s.cls.slots e.slot = some d → e.st = 1 → d.yields = true → clsWork s = true →
     Gives .clsEraseSuspend s fun t => t.cls = { s.cls with erase := some { e with st := 2 }, slots := SMap.put s.cls.slots e.slot { d with st := 3 } }) ∧
  -- clsEraseResume
  (∀ (e : ClsErase) (d : ClsSlot) (s : Machine.State), s.cls.erase = some e → SMap.find s.cls.slots e.slot = some d → e.st = 2 → clsWork s = false →
     Gives .clsEraseResume s fun t => t.cls = { s.cls with erase := some { e with st := 1, since := now s + 500000 }, slots := SMap.put s.cls.slots e.slot { d with st := 2 } }) ∧
  -- continuousRead
  (∀ (m : Master) (q a n v : Nat) (s : Machine.State), decideWrite s (whoOf s m) Reg.CLS_CR_CTRL = .admitted q → s.cls.cr = none → fget s Fld.CLS_CR_ADDR_VALUE = a → fget s Fld.CLS_CR_LEN_VALUE = n →
     a % 8 = 0 → n % 8 = 0 → 16 ≤ n → a + n ≤ 0x4000000 → fone s Fld.CLS_STATUS_BLOCK_AON = false → (a / 8) / 512 ∉ s.cls.open_ → s.cls.erase = none → SMap.find s.cls.nor (a / 8) = some v → s.dge.snoop = none →
     Gives (.continuousRead m 1 []) s fun t => t.cls = { s.cls with cr := some { master := masterNo m, addr := a, len := n, pos := 8, grant := 0, ue := false } } ∧
       fget t Fld.CLS_CR_COUNT_BYTES = 8 ∧ fget t Fld.CLS_STATUS_CR_ACTIVE = 1 ∧ fget t Fld.CLS_CR_CTRL_GO = 1 ∧
       (inTcm (masterNo m) (fget s Fld.CLS_CR_DEST_VALUE) 8 = true →
         ∀ j, j < 8 → SMap.getD t.fab.mem (fget s Fld.CLS_CR_DEST_VALUE + j) 0 = (le 8 v).getD j 0)) ∧
  -- continuousRead corrected
  (∀ (m : Master) (q a n v : Nat) (s : Machine.State), decideWrite s (whoOf s m) Reg.CLS_CR_CTRL = .admitted q → s.cls.cr = none → fget s Fld.CLS_CR_ADDR_VALUE = a → fget s Fld.CLS_CR_LEN_VALUE = n →
     a % 8 = 0 → n % 8 = 0 → 16 ≤ n → a + n ≤ 0x4000000 → fone s Fld.CLS_STATUS_BLOCK_AON = false → (a / 8) / 512 ∉ s.cls.open_ → s.cls.erase = none → SMap.find s.cls.nor (a / 8) = some v → s.dge.snoop = none →
     Gives (.continuousRead m 1 [1]) s fun t => t.cls.cr = some { master := masterNo m, addr := a, len := n, pos := 8, grant := 0, ue := false } ∧ t.cls.nor = s.cls.nor ∧
       SMap.find t.cls.corr (a / 8 / 512) = some (min 0xFFF (SMap.getD s.cls.corr (a / 8 / 512) 0 + 1)) ∧
       fget t (Fld.CLS_COUNT_COUNT 7) = min 4294967295 (fget s (Fld.CLS_COUNT_COUNT 7) + 1) ∧ fget t Fld.CLS_EVENTS_CORRECTED = 1) ∧
  -- continuousReadStop
  (∀ (m : Master) (q : Nat) (c : ClsCr) (s : Machine.State), decideWrite s (whoOf s m) Reg.CLS_CR_CTRL = .admitted q → s.cls.cr = some c →
     Gives (.continuousReadStop m) s fun t => t.cls = { s.cls with cr := none } ∧ fget t Fld.CLS_STATUS_CR_ACTIVE = 0 ∧ fget t Fld.CLS_CR_CTRL_GO = 0 ∧
       fget t Fld.CLS_CR_CTRL_STATUS = if c.ue then ST_CLASP_UE else ST_OK) ∧
  -- aonBlock
  (∀ (s : Machine.State), fone s Fld.CLS_STATUS_BLOCK_AON = false →
     Gives .aonBlock s fun t => fget t Fld.CLS_STATUS_BLOCK_AON = 1 ∧ fget t Fld.CLS_EVENTS_BLOCKED = 1 ∧ t.cls.erase = none ∧
       ∀ e, s.cls.erase = some e → e.sector ∈ t.cls.open_) ∧
  -- aonUnblock
  (∀ (s : Machine.State), Gives .aonUnblock s fun t => fget t Fld.CLS_STATUS_BLOCK_AON = 0 ∧ RegsBut [Reg.CLS_STATUS] s t) ∧
  -- claspDieReset
  (∀ (s : Machine.State), Gives .claspDieReset s fun t => t.cls.dead = true ∧ t.bot.run = false)

/-- Doorbells of ready ports move tails and heads; CC and readiness (R44, R46, R138, R141, R166, R265, R126, R142, R144, R147). A tail
written through the admin pair or a slice's page, below the queue's size, becomes the queue's tail and stamps the entries with its
arrival; a head consumes the entries posted up to it; a BAR0 offset beyond the admin pair only makes a record; a write to a page that is
not live for the port changes nothing; a PASID that is not the slice's is a violation by the slice and moves no queue. Setting CC.EN on a
link that is up, with the firmware running, makes the controller ready with its admin queues of the sizes given; clearing it resets the
controller; CC.SHN begins a shutdown, which completes when no fetched command remains on the port. -/
def Obligations.DoorbellsAndController : Prop :=
  -- adminSqTailDoorbell
  (∀ (p : Fin 4) (v : Nat) (q : Sq) (s : Machine.State), SMap.find s.hst.sqs (p.val * 65536) = some q → portReady s p.val = true → v < q.size →
     Gives (.adminSqTailDoorbell p v) s fun t => t.hst.cqs = s.hst.cqs ∧
       t.hst.sqs = SMap.put s.hst.sqs (p.val * 65536) { q with tail := v, stamps := if v = q.tail then q.stamps else q.stamps ++ [(v, now s)] }) ∧
  -- adminCqHeadDoorbell
  (∀ (p : Fin 4) (v : Nat) (q : Cq) (s : Machine.State), SMap.find s.hst.cqs (p.val * 65536) = some q → portReady s p.val = true → v < q.size →
     Gives (.adminCqHeadDoorbell p v) s fun t => t.hst.sqs = s.hst.sqs ∧
       t.hst.cqs = SMap.put s.hst.cqs (p.val * 65536) { q with posted := q.posted.drop ((v + q.size - q.head) % q.size), head := v }) ∧
  -- bar0DoorbellInvalid
  (∀ (p : Fin 4) (off : Nat) (s : Machine.State), linkUp s p.val = true → 0x1008 ≤ off → off < 0x10000 → recordable s 1 →
     Gives (.bar0DoorbellInvalid p off) s fun t => t.hst = s.hst ∧ t.regs = s.regs ∧ recorded s t (lktCode 1 1 false) p.val off 0 0) ∧
  -- sqTailDoorbell
  (∀ (p : Fin 4) (page q v : Nat) (pasid : Option Nat) (x : Sq) (s : Machine.State), pageCheck s p.val page q pasid = 0 → SMap.find s.hst.sqs (localKey s p.val page q) = some x → x.del = none → v < x.size →
     Gives (.sqTailDoorbell p page q v pasid) s fun t => t.hst.cqs = s.hst.cqs ∧
       t.hst.sqs = SMap.put s.hst.sqs (localKey s p.val page q) { x with tail := v, stamps := if v = x.tail then x.stamps else x.stamps ++ [(v, now s)] }) ∧
  -- cqHeadDoorbell
  (∀ (p : Fin 4) (page q v : Nat) (pasid : Option Nat) (x : Cq) (s : Machine.State), pageCheck s p.val page q pasid = 0 → SMap.find s.hst.cqs (localKey s p.val page q) = some x → v < x.size →
     Gives (.cqHeadDoorbell p page q v pasid) s fun t => t.hst.sqs = s.hst.sqs ∧
       t.hst.cqs = SMap.put s.hst.cqs (localKey s p.val page q) { x with posted := x.posted.drop ((v + x.size - x.head) % x.size), head := v }) ∧
  -- doorbell ignored
  (∀ (p : Fin 4) (page q v : Nat) (pasid : Option Nat) (s : Machine.State), pageCheck s p.val page q pasid = 1 →
     Gives (.sqTailDoorbell p page q v pasid) s (fun t => t = s) ∧ Gives (.cqHeadDoorbell p page q v pasid) s (fun t => t = s)) ∧
  -- doorbell PASID
  (∀ (p : Fin 4) (page q v : Nat) (pasid : Option Nat) (s : Machine.State), pageCheck s p.val page q pasid = 2 → midValid s (midSlice page) = true →
     Gives (.sqTailDoorbell p page q v pasid) s (fun t => carded t (midSlice page) = true ∧ t.hst.sqs = s.hst.sqs ∧ t.hst.cqs = s.hst.cqs) ∧
     Gives (.cqHeadDoorbell p page q v pasid) s (fun t => carded t (midSlice page) = true ∧ t.hst.sqs = s.hst.sqs ∧ t.hst.cqs = s.hst.cqs)) ∧
  -- ccEnSet
  (∀ (p : Fin 4) (asqs acqs : Nat) (s : Machine.State), linkUp s p.val = true → s.bot.run = true → (portGet s p.val).en = false → (SMap.find s.hst.ports p.val).isSome = true →
     Gives (.ccEnSet p asqs acqs) s fun t => (portGet t p.val).en = true ∧ (portGet t p.val).rdy = true ∧ (portGet t p.val).shst = 0 ∧
       SMap.find t.hst.sqs (p.val * 65536) = some { size := asqs % 4096 + 1, head := 0, tail := 0, cq := 0, stamps := [], del := none } ∧
       SMap.find t.hst.cqs (p.val * 65536) = some { size := acqs % 4096 + 1, vector := 0, posted := [], head := 0, coal := 0 }) ∧
  -- ccEnClear
  (∀ (p : Fin 4) (s : Machine.State), (portGet s p.val).en = true → Gives (.ccEnClear p) s fun t => portClosed t p.val) ∧
  -- ccShnWrite
  (∀ (p : Fin 4) (s : Machine.State), linkUp s p.val = true → (portGet s p.val).en = true → (portGet s p.val).shn = false →
     Gives (.ccShnWrite p) s fun t => (portGet t p.val) = { portGet s p.val with shn := true, shst := 1 } ∧ portFetches t p.val = false) ∧
  -- shutdownComplete
  (∀ (p : Fin 4) (s : Machine.State), (portGet s p.val).shn = true → (portGet s p.val).shst = 1 → (∀ e, e ∈ s.hst.ctx → e.2.port = p.val → e.2.aer = true) →
     Gives (.shutdownComplete p) s fun t => (portGet t p.val).shst = 2 ∧ (portGet t p.val).shn = true)

/-- Entries are fetched into contexts and completions posted (R136, R137, R138, R140, R141, R145, R164, R179, R180). An entry of an admin
queue, or of an I/O queue whose slice has its turn, is fetched into a new context, with the slice's PASID, and the queue's head advances;
a command that has ended is posted to its completion queue when there is room, and its context is free, but a command of a slice under
reset is not posted, and one whose PASID is no longer its slice's is a violation by the port and not posted; an aggregation time sends the
vector's message; a deleted queue disappears when its last command has gone, of a slice under reset not before the reset has ended. -/
def Obligations.FetchAndCompletion : Prop :=
  -- sqeFetch admin
  (∀ (p : Fin 4) (cid opc nsid slba : Nat) (q : Sq) (d : Bool) (s : Machine.State), SMap.find s.hst.sqs (p.val * 65536) = some q → portFetches s p.val = true → sqHas q = true → cid < 65536 →
     SMap.find s.hst.ctx (ctxKey p.val 0 cid) = none → ctxTake s p.val true = some d →
     Gives (.sqeFetch p 0 cid opc nsid slba) s fun t => ∃ c, SMap.find t.hst.ctx (ctxKey p.val 0 cid) = some c ∧ c.port = p.val ∧ c.qid = 0 ∧ c.cid = cid ∧ c.opcode = opc ∧ c.nsid = nsid ∧
       c.slice = none ∧ c.pasid = none ∧ c.surplus = d ∧ c.st = .fetched ∧ (SMap.find t.hst.sqs (p.val * 65536)).map (fun x => x.head) = some ((q.head + 1) % q.size)) ∧
  -- sqeFetch io
  (∀ (p : Fin 4) (q cid opc nsid slba n : Nat) (x : Slice) (sq : Sq) (d : Bool) (tn : Turn) (s : Machine.State), q ≠ 0 → q < 65536 → SMap.find s.hst.sqs (p.val * 65536 + q) = some sq → portFetches s p.val = true →
     sqHas sq = true → cid < 65536 → SMap.find s.hst.ctx (ctxKey p.val q cid) = none → (∀ a, SMap.find s.hst.sqs (p.val * 65536) = some a → sqHas a = false) →
     queueSlice s (p.val * 65536 + q) = some n → SMap.find s.slm.slices n = some x → ctxTake s p.val false = some d → sliceFetches s n = true → turnFor s p.val n q = some tn →
     Gives (.sqeFetch p q cid opc nsid slba) s fun t => ∃ c, SMap.find t.hst.ctx (ctxKey p.val q cid) = some c ∧ c.port = p.val ∧ c.qid = q ∧ c.cid = cid ∧ c.opcode = opc ∧ c.nsid = nsid ∧
       c.slice = some n ∧ c.pasid = some x.pasid ∧ c.slba = slba ∧ c.order = s.hst.fetched ∧ c.lat = x.shares.lat ∧ c.surplus = d ∧ c.st = .fetched ∧ (SMap.find t.hst.sqs (p.val * 65536 + q)).map (fun x => x.head) = some ((sq.head + 1) % sq.size) ∧
       (SMap.find t.hst.turns p.val).map (fun u => u.left) = some (tn.left - 1)) ∧
  -- completionPost
  (∀ (x : Nat) (c : Ctx) (st a b : Nat) (q : Cq) (s : Machine.State), SMap.find s.hst.ctx x = some c → c.st = .ready st a b → SMap.find s.hst.cqs (cqOf s c) = some q → linkUp s c.port = true →
     sliceHalts s c.slice = false → pasidStray s c = false → q.posted.length + 1 < q.size →
     Gives (.completionPost x) s fun t => SMap.find t.hst.ctx x = none ∧ t.hst.sqs = s.hst.sqs ∧
       (SMap.find t.hst.cqs (cqOf s c)).map (fun y => y.posted) = some (q.posted ++ [{ sqid := c.qid, cid := c.cid, status := st, dw0 := a, dw1 := b, data := ctxData c st, pasid := c.pasid }]) ∧
       t.hst.diag.hostCmds = sat 64 (s.hst.diag.hostCmds + 1)) ∧
  -- completionPost full
  (∀ (x : Nat) (c : Ctx) (st a b : Nat) (q : Cq) (y : Sq) (s : Machine.State), SMap.find s.hst.ctx x = some c → c.st = .ready st a b → SMap.find s.hst.cqs (cqOf s c) = some q → q.size ≤ q.posted.length + 1 →
     SMap.find s.hst.sqs (c.port * 65536 + c.qid) = some y → y.del = none → pasidStray s c = false →
     Gives (.completionPost x) s fun t => t = s) ∧
  -- completionPost PASID
  (∀ (x : Nat) (c : Ctx) (st a b : Nat) (q : Cq) (s : Machine.State), SMap.find s.hst.ctx x = some c → c.st = .ready st a b → SMap.find s.hst.cqs (cqOf s c) = some q → linkUp s c.port = true →
     sliceHalts s c.slice = false → pasidStray s c = true → midValid s (midPort c.port) = true →
     Gives (.completionPost x) s fun t => t = raiseVio s 2 0 (midPort c.port) 0 ∧ carded t (midPort c.port) = true) ∧
  -- completionPost resetting
  (∀ (x : Nat) (c : Ctx) (s : Machine.State), SMap.find s.hst.ctx x = some c → sliceHalts s c.slice = true → Gives (.completionPost x) s fun t => t = s) ∧
  -- interruptCoalescingTimeout
  (∀ (p : Fin 4) (v : Nat) (s : Machine.State), v < 2048 → coalSum s p.val v ≠ 0 →
     Gives (.interruptCoalescingTimeout p v) s fun t => SMap.getD t.hst.msix (p.val * 2048 + v) 0 = SMap.getD s.hst.msix (p.val * 2048 + v) 0 + 1 ∧ coalSum t p.val v = 0) ∧
  -- sqDeletionDone
  (∀ (p : Fin 4) (q x : Nat) (sq : Sq) (s : Machine.State), SMap.find s.hst.sqs (p.val * 65536 + q) = some sq → sq.del = some x → (∀ e, e ∈ s.hst.ctx → ¬(e.2.port = p.val ∧ e.2.qid = q)) →
     (∀ n y, qidSlice s p.val q = some (n, y) → y.resetting = false) →
     Gives (.sqDeletionDone p q) s fun t => SMap.find t.hst.sqs (p.val * 65536 + q) = none ∧ (∀ k, SMap.find s.hst.ctx x = some k → ctxOpen k = true →
       (SMap.find t.hst.ctx x).map (fun c => c.st) = some (.ready 0 0 0))) ∧
  -- sqDeletionDone resetting
  (∀ (p : Fin 4) (q n : Nat) (y : Slice) (s : Machine.State), qidSlice s p.val q = some (n, y) → y.resetting = true → Gives (.sqDeletionDone p q) s fun t => t = s)

/-- Links train, change and are lost (R52, R124, R125, R126, R127, R147, R160). A port out of reset trains to the rate and width
given; lane failures and rate drops narrow or slow it and count a recovery; L0p and L1 show in HPT_LINK; errors of host reads set
their events and count; PERST, a lost link, a hot reset and a function-level reset act as a controller reset of the port. -/
def Obligations.HostLinks : Prop :=
  -- perstAssert
  (∀ (p : Fin 4) (s : Machine.State), portThere s p.val = true → (portGet s p.val).perst = false →
     Gives (.perstAssert p) s fun t => (portGet t p.val).perst = true ∧ portClosed t p.val) ∧
  -- perstDeassert
  (∀ (p : Fin 4) (x : Port) (s : Machine.State), portThere s p.val = true → SMap.find s.hst.ports p.val = some x →
     Gives (.perstDeassert p) s fun t => SMap.find t.hst.ports p.val = some { x with perst := false, quiet := !fbit s Fld.HPT_CTRL_TRAIN_EN p.val } ∧ t.regs = s.regs) ∧
  -- dlDown
  (∀ (p : Fin 4) (s : Machine.State), linkUp s p.val = true → Gives (.dlDown p) s fun t => portClosed t p.val) ∧
  -- hotReset
  (∀ (p : Fin 4) (s : Machine.State), linkUp s p.val = true → Gives (.hotReset p) s fun t => portClosed t p.val) ∧
  -- functionLevelReset
  (∀ (p : Fin 4) (s : Machine.State), linkUp s p.val = true → Gives (.functionLevelReset p) s fun t => portClosed t p.val) ∧
  -- linkTrained
  (∀ (p : Fin 4) (speed width : Nat) (flit : Bool) (s : Machine.State), mayTrain s p.val = true → (SMap.find s.hst.ports p.val).isSome = true → 1 ≤ speed → speed ≤ 6 → widthOk width = true →
     width ≤ portLanes s p.val → (speed = 6 → flit = true) →
     Gives (.linkTrained p speed width flit) s fun t => linkUp t p.val = true ∧ fget t (Fld.HPT_LINK_SPEED p.val) = speed ∧ fget t (Fld.HPT_LINK_WIDTH p.val) = width ∧
       fget t (Fld.HPT_LINK_LTSSM p.val) = 3 ∧ fget t (Fld.HPT_LINK_FLIT p.val) = b2n flit ∧ (portGet t p.val).trained = width) ∧
  -- laneFailure
  (∀ (p : Fin 4) (width : Nat) (s : Machine.State), linkUp s p.val = true → widthOk width = true → width < (portGet s p.val).trained →
     Gives (.laneFailure p width) s fun t => fget t (Fld.HPT_LINK_WIDTH p.val) = width ∧ fget t (Fld.HPT_EVENT_WIDTH_DROP p.val) = 1 ∧ (portGet t p.val).trained = width ∧
       t.hst.diag.recover = sat 64 (s.hst.diag.recover + 1)) ∧
  -- linkSpeedDrop
  (∀ (p : Fin 4) (speed : Nat) (s : Machine.State), linkUp s p.val = true → 1 ≤ speed → speed < fget s (Fld.HPT_LINK_SPEED p.val) →
     Gives (.linkSpeedDrop p speed) s fun t => fget t (Fld.HPT_LINK_SPEED p.val) = speed ∧ fget t (Fld.HPT_EVENT_SPEED_DROP p.val) = 1 ∧ t.hst.diag.recover = sat 64 (s.hst.diag.recover + 1)) ∧
  -- linkRecovery
  (∀ (p : Fin 4) (s : Machine.State), linkUp s p.val = true →
     Gives (.linkRecovery p) s fun t => fget t (Fld.HPT_LINK_LTSSM p.val) = 3 ∧ fget t (Fld.HPT_LINK_WIDTH p.val) = fget s (Fld.HPT_LINK_WIDTH p.val) ∧
       fget t (Fld.HPT_LINK_SPEED p.val) = fget s (Fld.HPT_LINK_SPEED p.val) ∧ t.hst = { s.hst with diag := { s.hst.diag with recover := sat 64 (s.hst.diag.recover + 1) } }) ∧
  -- l0pWidthChange
  (∀ (p : Fin 4) (width : Nat) (s : Machine.State), linkUp s p.val = true → widthOk width = true → width ≤ (portGet s p.val).trained → fget s (Fld.HPT_LINK_LTSSM p.val) = 3 →
     Gives (.l0pWidthChange p width) s fun t => fget t (Fld.HPT_LINK_WIDTH p.val) = width ∧ fget t (Fld.HPT_LINK_L0P p.val) = b2n (decide (width < (portGet s p.val).trained)) ∧ RegsBut [Reg.HPT_LINK p.val] s t ∧ t.hst = s.hst) ∧
  -- aspmL1Entry
  (∀ (p : Fin 4) (s : Machine.State), linkUp s p.val = true → Gives (.aspmL1Entry p) s fun t => fget t (Fld.HPT_LINK_LTSSM p.val) = 5 ∧ RegsBut [Reg.HPT_LINK p.val] s t ∧ t.hst = s.hst) ∧
  -- aspmL1Exit
  (∀ (p : Fin 4) (s : Machine.State), linkUp s p.val = true → fget s (Fld.HPT_LINK_LTSSM p.val) = 5 →
     Gives (.aspmL1Exit p) s fun t => fget t (Fld.HPT_LINK_LTSSM p.val) = 3 ∧ RegsBut [Reg.HPT_LINK p.val] s t ∧ t.hst = s.hst) ∧
  -- hostReadCompletionTimeout
  (∀ (p : Fin 4) (s : Machine.State), linkUp s p.val = true →
     Gives (.hostReadCompletionTimeout p) s fun t => fget t (Fld.HPT_EVENT_CPL_TIMEOUT p.val) = 1 ∧ t.hst = { s.hst with diag := { s.hst.diag with dmaErr := sat 64 (s.hst.diag.dmaErr + 1) } }) ∧
  -- poisonedCompletion
  (∀ (p : Fin 4) (s : Machine.State), linkUp s p.val = true →
     Gives (.poisonedCompletion p) s fun t => fget t (Fld.HPT_EVENT_POISONED p.val) = 1 ∧ t.hst = { s.hst with diag := { s.hst.diag with dmaErr := sat 64 (s.hst.diag.dmaErr + 1) } }) ∧
  -- ecrcCheckFail
  (∀ (p : Fin 4) (s : Machine.State), linkUp s p.val = true → (portGet s p.val).ecrc = true →
     Gives (.ecrcCheckFail p) s fun t => fget t (Fld.HPT_EVENT_ECRC_ERR p.val) = 1 ∧ t.hst = s.hst) ∧
  -- ecrcCheckFail not checked
  (∀ (p : Fin 4) (s : Machine.State), (portGet s p.val).ecrc = false → Gives (.ecrcCheckFail p) s fun t => t = s)

/-- Queues are created and deleted, controllers and namespaces identified (R78, R129, R130, R135, R143, R145, R169, R193). A fetched
Create or Delete command whose checks pass changes the queue table and ends with status 0; Delete I/O Submission Queue stops the
queue's fetching and waits; Identify returns the controller structure, the structure of a namespace bound to the port, or the list
of those namespaces, and no other; Abort ends no command; an unknown opcode ends with Invalid Command Opcode. -/
def Obligations.AdminQueuesAndIdentify : Prop :=
  -- createIoCq
  (∀ (c : AdminCmd) (n : Nat) (x : Slice) (s : Machine.State), adminGo s c 5 → qidSlice s c.port.val (cdw c.cdw10 0 16) = some (n, x) → queueCheck s s.hst.cqs c.port.val (cdw c.cdw10 0 16) = 0 →
     cdw c.cdw11 16 16 ≤ 2039 → 1 ≤ cdw c.cdw10 16 16 → bit c.cdw11.toNat 0 = true → x.dmaBase ≤ c.prp1 → c.prp1 + 16 * (cdw c.cdw10 16 16 + 1) ≤ x.dmaLimit + 1 →
     Gives (.createIoCq c) s fun t => adminSays t c 0 0 [] ∧ t.hst.cqs = SMap.put s.hst.cqs (c.port.val * 65536 + cdw c.cdw10 0 16)
       { size := cdw c.cdw10 16 16 + 1, vector := if bit c.cdw11.toNat 1 then cdw c.cdw11 16 16 else 2048, posted := [], head := 0, coal := 0 }) ∧
  -- createIoSq
  (∀ (c : AdminCmd) (n : Nat) (x : Slice) (s : Machine.State), adminGo s c 1 → qidSlice s c.port.val (cdw c.cdw10 0 16) = some (n, x) → queueCheck s s.hst.sqs c.port.val (cdw c.cdw10 0 16) = 0 →
     cqidOk s c.port.val (cdw c.cdw10 0 16) (cdw c.cdw11 16 16) = true → 1 ≤ cdw c.cdw10 16 16 → bit c.cdw11.toNat 0 = true → x.dmaBase ≤ c.prp1 → c.prp1 + 64 * (cdw c.cdw10 16 16 + 1) ≤ x.dmaLimit + 1 →
     Gives (.createIoSq c) s fun t => adminSays t c 0 0 [] ∧ t.hst.sqs = SMap.put s.hst.sqs (c.port.val * 65536 + cdw c.cdw10 0 16)
       { size := cdw c.cdw10 16 16 + 1, head := 0, tail := 0, cq := cdw c.cdw11 16 16, stamps := [], del := none }) ∧
  -- createIoSq refused
  (∀ (c : AdminCmd) (s : Machine.State), adminGo s c 1 → qidSlice s c.port.val (cdw c.cdw10 0 16) = none →
     Gives (.createIoSq c) s fun t => adminFails t c 0x101 ∧ t.hst.sqs = s.hst.sqs) ∧
  -- deleteIoSq
  (∀ (c : AdminCmd) (q : Sq) (s : Machine.State), adminGo s c 0 → SMap.find s.hst.sqs (c.port.val * 65536 + cdw c.cdw10 0 16) = some q → q.del = none → cdw c.cdw10 0 16 ≠ 0 →
     Gives (.deleteIoSq c) s fun t => (SMap.find t.hst.sqs (c.port.val * 65536 + cdw c.cdw10 0 16)).map (fun x => (x.del, x.head, x.tail)) = some (some (adminKey c), q.tail, q.tail)) ∧
  -- deleteIoCq
  (∀ (c : AdminCmd) (s : Machine.State), adminGo s c 4 → cdw c.cdw10 0 16 ≠ 0 → (SMap.find s.hst.cqs (c.port.val * 65536 + cdw c.cdw10 0 16)).isSome = true →
     (∀ e, e ∈ s.hst.sqs → e.1 / 65536 = c.port.val → e.1 % 65536 ≠ 0 → e.2.cq ≠ cdw c.cdw10 0 16) →
     Gives (.deleteIoCq c) s fun t => adminSays t c 0 0 [] ∧ t.hst.cqs = SMap.del s.hst.cqs (c.port.val * 65536 + cdw c.cdw10 0 16)) ∧
  -- identify controller
  (∀ (c : AdminCmd) (s : Machine.State), adminGo s c 6 → cdw c.cdw10 0 8 = 1 → Gives (.identify c) s fun t => adminSays t c 0 0 (idController s c.port.val)) ∧
  -- identify namespace
  (∀ (c : AdminCmd) (n : Ns) (s : Machine.State), adminGo s c 6 → cdw c.cdw10 0 8 = 0 → SMap.find (portNs s c.port.val) c.nsid = some n → Gives (.identify c) s fun t => adminSays t c 0 0 (idNamespace s n)) ∧
  -- identify foreign
  (∀ (c : AdminCmd) (s : Machine.State), adminGo s c 6 → cdw c.cdw10 0 8 = 0 → SMap.find (portNs s c.port.val) c.nsid = none → Gives (.identify c) s fun t => adminFails t c 0x00B ∧ t.zne = s.zne) ∧
  -- identify list
  (∀ (c : AdminCmd) (s : Machine.State), adminGo s c 6 → cdw c.cdw10 0 8 = 2 → Gives (.identify c) s fun t =>
     adminSays t c 0 0 (fit 4096 ((((portNs s c.port.val).filter fun e => decide (c.nsid < e.1)).take 1024).flatMap fun e => le 4 e.1))) ∧
  -- abort
  (∀ (c : AdminCmd) (s : Machine.State), adminGo s c 8 → Gives (.abort c) s fun t => (abortsOut s c.port.val (adminKey c) < 4 → adminSays t c 0 1 []) ∧
     (4 ≤ abortsOut s c.port.val (adminKey c) → adminFails t c 0x103) ∧ ∀ k, k ≠ adminKey c → SMap.find t.hst.ctx k = SMap.find s.hst.ctx k) ∧
  -- adminInvalidOpcode
  (∀ (c : AdminCmd) (opc : Nat) (s : Machine.State), adminGo s c opc → adminKnown opc = false → Gives (.adminInvalidOpcode c) s fun t => adminFails t c 0x001)

/-- The log pages of a port (R80, R159, R168, R548, R589). A fetched Get Log Page for the first n dwords ends with status 0 and the
first n dwords of the log of its port, zeros past the end: SMART, Error Information, Firmware Slot, Device Self-test, telemetry and
the slice binding log; the capture also replaces the telemetry data and advances its generation. -/
def Obligations.AdminLogs : Prop :=
  -- getLogSmart
  (∀ (c : AdminCmd) (n : Nat) (s : Machine.State), adminGo s c 2 → logHead c n → Gives (.getLogSmart c) s fun t => adminSays t c 0 0 (fit (4 * n) ((smartLog s c.port.val).take (4 * n)))) ∧
  -- getLogErrorInfo
  (∀ (c : AdminCmd) (n : Nat) (s : Machine.State), adminGo s c 2 → logHead c n → Gives (.getLogErrorInfo c) s fun t => adminSays t c 0 0 (fit (4 * n) ((errInfoLog s c.port.val).take (4 * n)))) ∧
  -- getLogFirmwareSlot
  (∀ (c : AdminCmd) (n : Nat) (s : Machine.State), adminGo s c 2 → logHead c n → Gives (.getLogFirmwareSlot c) s fun t => adminSays t c 0 0 (fit (4 * n) ((fwSlotLog s).take (4 * n)))) ∧
  -- getLogSelfTest
  (∀ (c : AdminCmd) (n : Nat) (s : Machine.State), adminGo s c 2 → logHead c n → s.hst.dst.st = 0 → Gives (.getLogSelfTest c) s fun t => adminSays t c 0 0 (fit (4 * n) ((selfTestLog s c.port.val 0).take (4 * n)))) ∧
  -- getLogTelemetryCapture
  (∀ (c : AdminCmd) (n : Nat) (s : Machine.State), adminGo s c 2 → logHead c n → Gives (.getLogTelemetryCapture c) s fun t => (portGet t c.port.val).tel = some (telCapture s) ∧
     (portGet t c.port.val).telGen = ((portGet s c.port.val).telGen + 1) % 256 ∧ ∃ b, adminSays t c 0 0 b ∧ b.length = 4 * n) ∧
  -- getLogTelemetryRead
  (∀ (c : AdminCmd) (n : Nat) (s : Machine.State), adminGo s c 2 → logHead c n → Gives (.getLogTelemetryRead c) s fun t => adminSays t c 0 0 (fit (4 * n) ((telLog s c.port.val).take (4 * n))) ∧
     (portGet t c.port.val).tel = (portGet s c.port.val).tel) ∧
  -- getLogSliceBinding
  (∀ (c : AdminCmd) (n : Nat) (s : Machine.State), adminGo s c 2 → logHead c n → Gives (.getLogSliceBinding c) s fun t => adminSays t c 0 0 (fit (4 * n) ((bindLog s c.port.val).take (4 * n))))

/-- Features of a port are set and read (R131, R138, R141, R149, R154, R173, R608). A fetched Set Features ends with status 0 and
leaves the value it carries in its port's feature, and no other feature changed; one that names no feature of the list ends with
Invalid Field; Number of Queues answers how many the slices bound
may create; Get Features answers the value in force; an Asynchronous Event Request takes the oldest event that waits, or is held. -/
def Obligations.AdminFeatures : Prop :=
  -- setFeaturesArbitration
  (∀ (c : AdminCmd) (s : Machine.State), setGo s c 0x01 → Gives (.setFeaturesArbitration c) s fun t => adminSays t c 0 0 [] ∧ portGet t c.port.val = { portGet s c.port.val with feat := { (portGet s c.port.val).feat with ab := cdw c.cdw11 0 3 } }) ∧
  -- setFeaturesPowerManagement
  (∀ (c : AdminCmd) (s : Machine.State), setGo s c 0x02 → cdw c.cdw11 0 5 ≤ 4 → Gives (.setFeaturesPowerManagement c) s fun t => adminSays t c 0 0 [] ∧ (portGet t c.port.val).reqPs = cdw c.cdw11 0 5 ∧
     (portGet t c.port.val).lastOp = (if cdw c.cdw11 0 5 ≤ 2 then cdw c.cdw11 0 5 else (portGet s c.port.val).lastOp) ∧ (portGet t c.port.val).feat = (portGet s c.port.val).feat) ∧
  -- setFeaturesTemperatureThreshold
  (∀ (c : AdminCmd) (s : Machine.State), setGo s c 0x04 → cdw c.cdw11 16 4 ≤ 8 → cdw c.cdw11 20 2 ≤ 1 → Gives (.setFeaturesTemperatureThreshold c) s fun t =>
     ((portGet s c.port.val).aers.contains c.cid = false → adminSays t c 0 0 []) ∧
     (portGet t c.port.val).feat = { (portGet s c.port.val).feat with tmpTh := SMap.put (portGet s c.port.val).feat.tmpTh (cdw c.cdw11 16 4 * 2 + cdw c.cdw11 20 2) (cdw c.cdw11 0 16) }) ∧
  -- setFeaturesNumberOfQueues
  (∀ (c : AdminCmd) (s : Machine.State), setGo s c 0x07 → portSlices s c.port.val ≠ [] →
     Gives (.setFeaturesNumberOfQueues c) s fun t => adminSays t c 0 ((min 4096 (64 * (portSlices s c.port.val).length) - 1) * 65537) [] ∧ portGet t c.port.val = portGet s c.port.val) ∧
  -- setFeaturesInterruptCoalescing
  (∀ (c : AdminCmd) (s : Machine.State), setGo s c 0x08 → Gives (.setFeaturesInterruptCoalescing c) s fun t => adminSays t c 0 0 [] ∧
     portGet t c.port.val = { portGet s c.port.val with feat := { (portGet s c.port.val).feat with coalThr := cdw c.cdw11 0 8, coalTime := cdw c.cdw11 8 8 } }) ∧
  -- setFeaturesInterruptVectorCfg
  (∀ (c : AdminCmd) (s : Machine.State), setGo s c 0x09 → cdw c.cdw11 0 16 ≤ 2047 → Gives (.setFeaturesInterruptVectorCfg c) s fun t => adminSays t c 0 0 [] ∧
     ((portGet t c.port.val).feat.noCoal.contains (cdw c.cdw11 0 16) = bit c.cdw11.toNat 16) ∧
     (∀ v, v ≠ cdw c.cdw11 0 16 → (portGet t c.port.val).feat.noCoal.contains v = (portGet s c.port.val).feat.noCoal.contains v) ∧
     { (portGet t c.port.val).feat with noCoal := [] } = { (portGet s c.port.val).feat with noCoal := [] }) ∧
  -- setFeaturesAsyncEventConfig
  (∀ (c : AdminCmd) (s : Machine.State), setGo s c 0x0B → Gives (.setFeaturesAsyncEventConfig c) s fun t => adminSays t c 0 0 [] ∧
     portGet t c.port.val = { portGet s c.port.val with feat := { (portGet s c.port.val).feat with aec := c.cdw11.toNat } }) ∧
  -- setFeaturesApst
  (∀ (c : AdminCmd) (s : Machine.State), setGo s c 0x0C → (∀ k, k < 5 → u64 c.data (8 * k) / 8 % 32 ≤ 4) → Gives (.setFeaturesApst c) s fun t => adminSays t c 0 0 [] ∧
     (portGet t c.port.val).feat.apstOn = bit c.cdw11.toNat 0 ∧ (∀ k, k < 5 → SMap.find (portGet t c.port.val).feat.apst k = some (u64 c.data (8 * k) / 256 % 16777216, u64 c.data (8 * k) / 8 % 32)) ∧
     { (portGet t c.port.val).feat with apstOn := false, apst := [] } = { (portGet s c.port.val).feat with apstOn := false, apst := [] }) ∧
  -- setFeatures of no feature
  (∀ (c : AdminCmd) (s : Machine.State), adminGo s c 9 → featKnown (cdw c.cdw10 0 8) = false → Gives (.setFeaturesArbitration c) s fun t => adminFails t c 0x002 ∧
     (portGet t c.port.val).feat = (portGet s c.port.val).feat) ∧
  -- getFeatures
  (∀ (c : AdminCmd) (s : Machine.State), adminGo s c 10 → Gives (.getFeatures c) s fun t => (cdw c.cdw10 0 8 = 1 → adminSays t c 0 (portGet s c.port.val).feat.ab []) ∧
     (cdw c.cdw10 0 8 = 2 → adminSays t c 0 (portGet s c.port.val).reqPs []) ∧ (cdw c.cdw10 0 8 = 11 → adminSays t c 0 (portGet s c.port.val).feat.aec []) ∧
     (cdw c.cdw10 0 8 = 8 → adminSays t c 0 ((portGet s c.port.val).feat.coalThr + 256 * (portGet s c.port.val).feat.coalTime) []) ∧ (cdw c.cdw10 0 8 = 0 → adminFails t c 0x002)) ∧
  -- asyncEventRequest
  (∀ (c : AdminCmd) (s : Machine.State), adminGo s c 12 → (portGet s c.port.val).aers.length < 8 → Gives (.asyncEventRequest c) s fun t =>
     (∀ e l, (portGet s c.port.val).events = e :: l → adminSays t c 0 e [] ∧ (portGet t c.port.val).events = l) ∧
     ((portGet s c.port.val).events = [] → (portGet t c.port.val).aers = (portGet s c.port.val).aers ++ [c.cid] ∧ (SMap.find t.hst.ctx (adminKey c)).map (fun k => (k.st, k.aer)) = some (.running, true)))

/-- In-band update and device self-tests (R155, R157, R158, R544, R548). With in-band update enabled, a piece that begins an image
of at least 512 bytes prepares the inactive slot and is held for the port, and the pieces that follow are appended; a commit acts as
FW_COMMIT does; action 3 is refused; Device Self-test starts a test with its port as origin where none runs, and ends the port's
own. -/
def Obligations.AdminFirmwareAndTests : Prop :=
  -- firmwareImageDownload
  (∀ (c : AdminCmd) (s : Machine.State), adminGo s c 0x11 → inband s = true → dlBar s (64 + c.port.val) = ST_OK → slotBar s = ST_OK → c.cdw11 = 0 → 127 ≤ c.cdw10.toNat → c.cdw10.toNat ≤ 65535 →
     Gives (.firmwareImageDownload c) s fun t => adminSays t c 0 0 [] ∧ (t.bot.dl.map fun d => (d.owner, d.bytes)) = some (64 + c.port.val, fit (4 * (c.cdw10.toNat + 1)) c.data) ∧
       SMap.find t.bot.img (inactiveSlot s) = none) ∧
  -- firmwareImageDownload piece
  (∀ (c : AdminCmd) (d : Download) (s : Machine.State), adminGo s c 0x11 → inband s = true → dlBar s (64 + c.port.val) = ST_OK → s.bot.dl = some d → d.bytes.length = 4 * c.cdw11.toNat → 512 ≤ d.bytes.length →
     c.cdw10.toNat ≤ 65535 → d.bytes.length + 4 * (c.cdw10.toNat + 1) ≤ 16777216 →
     Gives (.firmwareImageDownload c) s fun t => adminSays t c 0 0 [] ∧ (t.bot.dl.map fun d => (d.owner, d.bytes)) = some (64 + c.port.val, d.bytes ++ fit (4 * (c.cdw10.toNat + 1)) c.data)) ∧
  -- firmwareCommitReplace
  (∀ (c : AdminCmd) (d : Download) (s : Machine.State), adminGo s c 0x10 → inband s = true → cdw c.cdw10 0 3 = 0 → s.bot.wr = none → s.bot.dl = some d → d.whole = true → imageCheck s d.bytes = ST_OK → slotBar s = ST_OK →
     Gives (.firmwareCommitReplace c) s fun t => adminSays t c 0 0 [] ∧ t.bot = { s.bot with wr := some { slot := inactiveSlot s, act := 0, warm := false, image := parseImage d.bytes }, dl := none }) ∧
  -- firmwareCommitReplaceActivate
  (∀ (c : AdminCmd) (d : Download) (s : Machine.State), adminGo s c 0x10 → inband s = true → cdw c.cdw10 0 3 = 0 → s.bot.wr = none → s.bot.dl = some d → d.whole = true → imageCheck s d.bytes = ST_OK → slotBar s = ST_OK →
     s.bot.recovery = false →
     Gives (.firmwareCommitReplaceActivate c) s fun t => adminSays t c 0 0 [] ∧ t.bot = { s.bot with wr := some { slot := inactiveSlot s, act := 1, warm := false, image := parseImage d.bytes }, dl := none }) ∧
  -- firmwareCommitActivate
  (∀ (c : AdminCmd) (k : Nat) (i : Image) (s : Machine.State), adminGo s c 0x10 → inband s = true → cdw c.cdw10 0 3 = k + 1 → k ≤ 1 → s.bot.wr = none → runningSlot s ≠ some k → slotValid s k = true →
     SMap.find s.bot.img k = some i → svnOk s i = true → pulsesBlocked s = false → s.bot.recovery = false →
     Gives (.firmwareCommitActivate c) s fun t => adminSays t c 0 0 [] ∧ t.bot = { s.bot with bcr := { s.bot.bcr with pending := k, tries := 0, seq := s.bot.bcr.seq + 1 } }) ∧
  -- firmwareCommitImmediate
  (∀ (c : AdminCmd) (s : Machine.State), adminGo s c 0x10 → inband s = true → Gives (.firmwareCommitImmediate c) s fun t => adminFails t c 0x10B ∧ t.bot = s.bot) ∧
  -- firmwareCommit refused
  (∀ (c : AdminCmd) (s : Machine.State), adminGo s c 0x10 → inband s = false → Gives (.firmwareCommitReplace c) s fun t => adminFails t c 0x002 ∧ t.bot = s.bot) ∧
  -- deviceSelfTestShort
  (∀ (c : AdminCmd) (s : Machine.State), adminGo s c 0x14 → s.hst.dst.st = 0 → Gives (.deviceSelfTestShort c) s fun t => adminSays t c 0 0 [] ∧ { t.hst.dst with fails := [] } = { s.hst.dst with st := 1, origin := c.port.val, fails := [] }) ∧
  -- deviceSelfTestExtended
  (∀ (c : AdminCmd) (s : Machine.State), adminGo s c 0x14 → s.hst.dst.st = 0 → Gives (.deviceSelfTestExtended c) s fun t => adminSays t c 0 0 [] ∧ { t.hst.dst with fails := [] } = { s.hst.dst with st := 2, origin := c.port.val, fails := [] }) ∧
  -- deviceSelfTestAbort
  (∀ (c : AdminCmd) (s : Machine.State), adminGo s c 0x14 → Gives (.deviceSelfTestAbort c) s fun t => adminSays t c 0 0 [] ∧
     (s.hst.dst.st ≠ 0 → s.hst.dst.origin = c.port.val → t.hst.dst = { s.hst.dst with st := 0, results := ({ code := 1, extended := s.hst.dst.st == 2, segment := 0, time := now s, nsid := 0, lba := 0 } :: s.hst.dst.results).take 20, fails := [] }) ∧
     (s.hst.dst.origin ≠ c.port.val → t.hst.dst = s.hst.dst))

/-- The input's disturbance classes, dropouts and the release of the supplies (R436, R437, R439, R449, R451, R457, R599, R611). An
input past a threshold enters its class and sets its event; a surge stops the charger and a brown-out pauses it; a dropout while the
compute die is released asserts power-fail with its cause, before the release it takes the supplies away; a class ends, a sag with its
record; the supplies are enabled after the restart hold with the energy there, or BOOT_WAIT_S after the input returned without it.
-/
def Obligations.InputDisturbances : Prop :=
  -- sagEnter
  (∀ (v : Nat) (s : Machine.State), v < fget s Fld.SGD_VTH_A_SAG → inClass s 1 = false → Gives (.sagEnter v) s fun t => inClass t 1 = true ∧
     fget t Fld.SGD_EVENTS_SAG = 1 ∧ fget t (Fld.SGD_COUNT_COUNT 0) = min 4294967295 (fget s (Fld.SGD_COUNT_COUNT 0) + 1) ∧ t.sgd.pfail = s.sgd.pfail ∧ t.lkt = s.lkt) ∧
  -- sagEnter above
  (∀ (v : Nat) (s : Machine.State), fget s Fld.SGD_VTH_A_SAG ≤ v → Gives (.sagEnter v) s fun t => t = s) ∧
  -- brownOutEnter
  (∀ (v : Nat) (s : Machine.State), v < fget s Fld.SGD_VTH_A_BROWN → inClass s 2 = false → inClass s 3 = false → inClass s 4 = false → s.sgd.ov = false → s.sgd.pfail = false →
     fone s Fld.SGD_CTRL_CHARGE_EN = true → testSt s ≠ 3 →
     Gives (.brownOutEnter v) s fun t => inClass t 2 = true ∧ fget t Fld.SGD_EVENTS_BROWN_OUT = 1 ∧ fget t Fld.SGD_HU_STATE_CHG = 3 ∧ t.sgd.pfail = false) ∧
  -- surgeEnter
  (∀ (v : Nat) (s : Machine.State), fget s Fld.SGD_VTH_B_SURGE < v → inClass s 4 = false →
     Gives (.surgeEnter v) s fun t => inClass t 4 = true ∧ fget t Fld.SGD_EVENTS_SURGE = 1 ∧ fget t Fld.SGD_HU_STATE_CHG = 5 ∧ t.sgd.sgFail = s.sgd.sgFail) ∧
  -- surgeFilterExpiry
  (∀ (d : Dist) (s : Machine.State), SMap.find s.sgd.dist 4 = some d → fone s Fld.SGD_CTRL_SURGE_FLUSH = true → s.sgd.released = true → s.sgd.sgFail = false →
     Gives .surgeFilterExpiry s fun t => t.sgd.pfail = true ∧ t.sgd.sgFail = true ∧ t.sgd.cause = 2) ∧
  -- surgeFilterExpiry without flush
  (∀ (d : Dist) (s : Machine.State), SMap.find s.sgd.dist 4 = some d → fone s Fld.SGD_CTRL_SURGE_FLUSH = false → Gives .surgeFilterExpiry s fun t => t.sgd = s.sgd) ∧
  -- rippleEnter
  (∀ (mv : Nat) (s : Machine.State), fget s Fld.SGD_VTH_C_RIPPLE_MV < mv → inClass s 5 = false → Gives (.rippleEnter mv) s fun t => inClass t 5 = true ∧
     fget t Fld.SGD_EVENTS_RIPPLE = 1 ∧ fget t Fld.SGD_VIN_RIPPLE = 1 ∧ ∀ k, k ≠ 5 → inClass t k = inClass s k) ∧
  -- dropout released
  (∀ (v : Nat) (s : Machine.State), v < fget s Fld.SGD_VTH_B_FAIL → inClass s 3 = false → s.sgd.released = true → s.sgd.sgFail = false → s.sgd.pfail = false →
     Gives (.dropout v) s fun t => t.sgd.pfail = true ∧ t.sgd.sgFail = true ∧ t.sgd.step = 1 ∧ t.sgd.cause = 1 ∧ t.sgd.dirtyAt = dirtyMib s ∧ t.sgd.failAt = now s ∧
       t.hst.stop = true) ∧
  -- dropout before the release
  (∀ (v : Nat) (s : Machine.State), v < fget s Fld.SGD_VTH_B_FAIL → inClass s 3 = false → s.sgd.released = false →
     Gives (.dropout v) s fun t => t.sgd.pwrEn = false ∧ t.sgd.pgood = false ∧ t.sgd.pfail = s.sgd.pfail) ∧
  -- disturbanceClassEnd
  (∀ (n v : Nat) (d : Dist) (s : Machine.State), SMap.find s.sgd.dist n = some d → classOver s n v = true →
     Gives (.disturbanceClassEnd n v) s fun t => inClass t n = false ∧ ∀ k, k ≠ n → inClass t k = inClass s k) ∧
  -- disturbanceClassEnd sag record
  (∀ (v : Nat) (d : Dist) (s : Machine.State), SMap.find s.sgd.dist 1 = some d → fget s Fld.SGD_VTH_A_SAG + 10 ≤ v → d.silent = false → recordable s 12 →
     Gives (.disturbanceClassEnd 1 v) s fun t => recorded s t (12 * 1024 + 1) (min d.extreme v) ((now s - d.since) / 1000) 0 0) ∧
  -- restartHoldEnd
  (∀ (b : Nat) (s : Machine.State), s.sgd.back = some b → s.sgd.pwrEn = false → s.sgd.pfail = false → covered s = true →
     Gives .restartHoldEnd s fun t => t.sgd.pwrEn = true ∧ now s ≤ now t) ∧
  -- restartHoldEnd without energy
  (∀ (b : Nat) (s : Machine.State), s.sgd.back = some b → covered s = false → Gives .restartHoldEnd s fun t => t = s) ∧
  -- bootWaitExpiry
  (∀ (b : Nat) (s : Machine.State), s.sgd.back = some b → s.sgd.pwrEn = false → s.sgd.pfail = false → Gives .bootWaitExpiry s fun t => t.sgd.pwrEn = true ∧ now s ≤ now t) ∧
  -- computePgoodRise
  (∀ (s : Machine.State), s.sgd.pwrEn = true → s.sgd.pgood = false → Gives .computePgoodRise s fun t => t.sgd = { s.sgd with pgood := true, pgoodAt := now s } ∧ t.regs = s.regs) ∧
  -- computePgoodFall
  (∀ (s : Machine.State), s.sgd.released = true → s.sgd.pfail = false → s.sgd.sgFail = false → Gives .computePgoodFall s fun t => t.sgd.pgood = false ∧ t.sgd.pfail = true ∧ t.sgd.cause = 1) ∧
  -- computePgoodFall in power-fail
  (∀ (s : Machine.State), s.sgd.pfail = true → Gives .computePgoodFall s fun t => t = { s with sgd := { s.sgd with pgood := false } })

/-- The hold-up bank, its charger and its discharge test (R439, R441, R442, R443, R444, R446, R456). A reading of the bank below the
target less HYST starts the charger and one at the target holds it; 120 s without the target set CHARGE_FAULT and the charger goes
on; 1 V past the target it stops; a test is scheduled when it is due or asked for, begins with the bank maintained and the dirty
data within the limit, samples V1, and ends with C, ESR and its result, or after 1 s as FAIL_C; the dirty limit and the hold-up
budget follow. -/
def Obligations.BankAndDischargeTest : Prop :=
  -- bankBelowRecharge
  (∀ (v : Nat) (s : Machine.State), v < 4096 → v < bankTarget s - fget s Fld.SGD_HU_CFG_HYST_10MV → s.sgd.pfail = false → (∀ k, k = 2 ∨ k = 3 ∨ k = 4 → inClass s k = false) →
     fone s Fld.SGD_CTRL_CHARGE_EN = true → testSt s ≠ 3 → Gives (.bankBelowRecharge v) s fun t => fget t Fld.SGD_HU_STATE_VBANK_10MV = v ∧ fget t Fld.SGD_HU_STATE_CHG = 1) ∧
  -- bankAtTarget
  (∀ (v : Nat) (s : Machine.State), v < 4096 → bankTarget s ≤ v → s.sgd.pfail = false → s.sgd.ov = false → (∀ k, k = 2 ∨ k = 3 ∨ k = 4 → inClass s k = false) →
     fone s Fld.SGD_CTRL_CHARGE_EN = true → testSt s ≠ 3 → Gives (.bankAtTarget v) s fun t => fget t Fld.SGD_HU_STATE_VBANK_10MV = v ∧ fget t Fld.SGD_HU_STATE_CHG = 2 ∧ t.sgd.chgAt = none) ∧
  -- chargeTimeout
  (∀ (a : Nat) (s : Machine.State), s.sgd.chgAt = some a → Gives .chargeTimeout s fun t => fget t Fld.SGD_EVENTS_CHARGE_FAULT = 1 ∧ fget t Fld.SGD_HU_STATE_CHG = fget s Fld.SGD_HU_STATE_CHG ∧
     t.sgd.chgAt = some (now t) ∧ now s ≤ now t) ∧
  -- bankOvervoltage
  (∀ (v : Nat) (s : Machine.State), bankTarget s + 100 < v → Gives (.bankOvervoltage v) s fun t => fget t Fld.SGD_EVENTS_BANK_OV = 1 ∧ t.sgd.ov = true ∧ fget t Fld.SGD_HU_STATE_CHG = 5) ∧
  -- dischargeTestDue first boot
  (∀ (s : Machine.State), s.sgd.everTested = false → testSt s = 0 → Gives .dischargeTestDue s fun t => t.sgd = { s.sgd with want := true } ∧
     testSt t = if fget s Fld.SGD_HU_STATE_CHG = 2 then 1 else 2) ∧
  -- dischargeTestDue period
  (∀ (s : Machine.State), s.sgd.everTested = true → fone s Fld.SGD_CTRL_TEST_AUTO = true → testSt s = 0 → Gives .dischargeTestDue s fun t => t.sgd = { s.sgd with want := true } ∧ testSt t ≠ 0 ∧ now s ≤ now t) ∧
  -- sgdTestStart
  (∀ (m : Master) (q : Nat) (s : Machine.State), decideWrite s (whoOf s m) Reg.SGD_TEST_CTRL = .admitted q → testSt s = 0 →
     Gives (.sgdTestStart m) s fun t => t.sgd = { s.sgd with want := true } ∧ testSt t = if fget s Fld.SGD_HU_STATE_CHG = 2 then 1 else 2) ∧
  -- cellLossRetest
  (∀ (a : Nat) (s : Machine.State), s.sgd.retest = some a → testSt s = 0 → Gives .cellLossRetest s fun t => t.sgd = { s.sgd with retest := none, want := true } ∧ testSt t ≠ 0) ∧
  -- dischargeTestBegin
  (∀ (s : Machine.State), s.sgd.want = true → s.sgd.sgFail = false → s.sgd.dist = [] → umpAsleep s = false → chgNow s = 2 → dirtyBytes s ≤ fget s Fld.SGD_DIRTY_LIMIT_MIB * 1048576 →
     Gives .dischargeTestBegin s fun t => testSt t = 3 ∧ fget t Fld.SGD_HU_STATE_CHG = 4 ∧ t.sgd.v0 = fget s Fld.SGD_HU_STATE_VBANK_10MV ∧ t.sgd.v1 = 0 ∧ t.sgd.want = false ∧ t.sgd.loadAt = now t) ∧
  -- testV1Sample
  (∀ (v : Nat) (s : Machine.State), v < 4096 → testSt s = 3 → s.sgd.v1 = 0 → Gives (.testV1Sample v) s fun t => t.sgd = { s.sgd with v1 := v, v1At := now t, lows := t.sgd.lows } ∧
     (∀ e, e ∈ t.sgd.lows ↔ e = (now t, v) ∨ e ∈ s.sgd.lows ∧ now t < e.1 + 1000000) ∧ fget t Fld.SGD_HU_STATE_VBANK_10MV = v ∧ testSt t = 3) ∧
  -- testV2Reached
  (∀ (d : Nat) (s : Machine.State), d ≤ 1000000000 → testSt s = 3 → s.sgd.v1 ≠ 0 → Gives (.testV2Reached d) s fun t => testSt t = 0 ∧
     fget t Fld.SGD_HU_CAP_CMEAS_10UF = measC s d ∧ fget t Fld.SGD_HU_STATE_ESR_MOHM = measEsr s ∧ t.sgd.everTested = true ∧
     (measC s d * 100 < fget s Fld.SGD_HU_CAP_CNOM_10UF * fget s Fld.SGD_TEST_LIMITS_CMIN_PCT → fget t Fld.SGD_TEST_CTRL_RESULT = 2) ∧
     (fget s Fld.SGD_HU_CAP_CNOM_10UF * fget s Fld.SGD_TEST_LIMITS_CMIN_PCT ≤ measC s d * 100 → fget s Fld.SGD_TEST_LIMITS_ESR_MAX_MOHM < measEsr s → fget t Fld.SGD_TEST_CTRL_RESULT = 3)) ∧
  -- testTimeout
  (∀ (s : Machine.State), testSt s = 3 → s.sgd.v1 ≠ 0 → Gives .testTimeout s fun t => testSt t = 0 ∧ fget t Fld.SGD_TEST_CTRL_RESULT = 2 ∧ t.sgd.bad = true) ∧
  -- dirtyLimitRecompute
  (∀ (s : Machine.State), Gives .dirtyLimitRecompute s fun t => fget t Fld.SGD_DIRTY_LIMIT_MIB = dirtyLimitAt s (limitV s) ∧
     (dirtyLimitAt s (limitV s) < fget s Fld.SGD_DIRTY_MIN_MIN_MIB → fget t Fld.SGD_EVENTS_LIMIT_LOW = 1)) ∧
  -- sgdFlushWWrite
  (∀ (m : Master) (q : Nat) (v : Word) (s : Machine.State), decideWrite s (whoOf s m) Reg.SGD_DIRTY_MIN = .admitted q → isLocked s Reg.SGD_DIRTY_MIN = false →
     Gives (.sgdFlushWWrite m v) s fun t => fget t Fld.UMP_HOLDUP_BUDGET_W = (5 * (v.toNat / 65536) + 3) / 4 % 1024)

/-- The DRAM controller's rate, gathers, refresh, panic and self-refresh (R392, R394, R395, R396, R398, R399, R400, R401). A request for a
rate point that is used starts a change, one for an unused point is refused; its end puts the ranks at the target with the delay set
written for it; GO opens a gather window, each step records its lanes, CLOSE and the timeout end it, an offline kind is refused while
requests are served; owed refreshes are issued, and load what has been written of the delay set in use, are postponed in panic or
behind a real-time request, and forced at four; a hot poll doubles a rank's rate; SELF_REFRESH takes effect. -/
def Obligations.DramController : Prop :=
  -- speedChangeRequest
  (∀ (m : Master) (q : Nat) (v : Word) (s : Machine.State), decideWrite s (whoOf s m) Reg.DMC_SPEED_REQ = .admitted q → bit v.toNat 3 = true → s.dmc.change = none → s.dmc.gather = none →
     fget s (Fld.DMC_RATE_MTS_100 (bits v.toNat 0 2)) ≠ 0 → s.sgd.pfail = false →
     Gives (.speedChangeRequest m v) s fun t => t.dmc = { s.dmc with change := some (bits v.toNat 0 2) } ∧ fget t Fld.DMC_STATUS_CHANGING = 1 ∧
       fget t Fld.DMC_SPEED_STATUS_STATUS = ST_OK ∧ fget t Fld.DMC_SPEED_STATUS_DONE = 0) ∧
  -- speedChangeRequest unused rate
  (∀ (m : Master) (q : Nat) (v : Word) (s : Machine.State), decideWrite s (whoOf s m) Reg.DMC_SPEED_REQ = .admitted q → bit v.toNat 3 = true → s.dmc.change = none → s.dmc.gather = none →
     fget s (Fld.DMC_RATE_MTS_100 (bits v.toNat 0 2)) = 0 →
     Gives (.speedChangeRequest m v) s fun t => t.dmc = s.dmc ∧ fget t Fld.DMC_SPEED_STATUS_STATUS = ST_RATE_INVALID ∧ fget t Fld.DMC_STATUS_CHANGING = fget s Fld.DMC_STATUS_CHANGING) ∧
  -- speedChangeRequest while a gather is open
  (∀ (m : Master) (q : Nat) (v : Word) (g : Gather) (s : Machine.State), decideWrite s (whoOf s m) Reg.DMC_SPEED_REQ = .admitted q → bit v.toNat 3 = true → bit v.toNat 2 = false →
     s.dmc.change = none → s.dmc.gather = some g →
     Gives (.speedChangeRequest m v) s fun t => t.dmc = s.dmc ∧ fget t Fld.DMC_SPEED_STATUS_STATUS = ST_BUSY_TRAINING) ∧
  -- speedChangeDone
  (∀ (k : Nat) (s : Machine.State), s.dmc.change = some k → k < 4 → Gives .speedChangeDone s fun t => t.dmc = { s.dmc with change := none, owed := [], delays := t.dmc.delays } ∧
     (∀ i, i < 1024 → SMap.getD t.dmc.delays i 0 = rget s (Reg.DMC_DELAY (k * 1024 + i))) ∧
     fget t Fld.DMC_STATUS_RATE_IDX = k ∧ fget t Fld.DMC_STATUS_CHANGING = 0 ∧ fget t Fld.DMC_SPEED_STATUS_DONE = 1) ∧
  -- gatherOpen
  (∀ (m : Master) (q : Nat) (v : Word) (s : Machine.State), decideWrite s (whoOf s m) Reg.DMC_GATHER_CTRL = .admitted q → s.dmc.gather = none → bits v.toNat 4 3 < 4 →
     Gives (.gatherOpen m v) s fun t => t.dmc = { s.dmc with gather := some { kind := bits v.toNat 4 3, last := now s } } ∧ fget t Fld.DMC_GATHER_STATUS_STATE = 1 ∧
       fget t Fld.DMC_GATHER_STATUS_DONE_STEPS = 0 ∧ fget t Fld.DMC_GATHER_STATUS_STATUS = ST_OK) ∧
  -- gatherOpen offline kind
  (∀ (m : Master) (q : Nat) (v : Word) (s : Machine.State), decideWrite s (whoOf s m) Reg.DMC_GATHER_CTRL = .admitted q → s.dmc.gather = none → 4 ≤ bits v.toNat 4 3 → bits v.toNat 4 3 ≤ 6 →
     fone s Fld.DMC_CTRL_EN = true → Gives (.gatherOpen m v) s fun t => t.dmc = s.dmc ∧ fget t Fld.DMC_GATHER_STATUS_STATUS = ST_GATHER_OFFLINE) ∧
  -- gatherStep
  (∀ (pass : Nat) (g : Gather) (s : Machine.State), s.dmc.gather = some g → g.kind < 4 → pass < 1099511627776 → fget s Fld.DMC_GATHER_STATUS_STATE = 1 → fone s Fld.DMC_STATUS_PANIC = false →
     fget s Fld.DMC_GATHER_STATUS_DONE_STEPS < 128 →
     Gives (.gatherStep pass) s fun t => t.dmc = { s.dmc with gather := some { g with last := now s } } ∧
       rget t (Reg.DMC_GATHER_RESULT (fget s Fld.DMC_GATHER_STATUS_DONE_STEPS) 0) = pass % 4294967296 ∧
       rget t (Reg.DMC_GATHER_RESULT (fget s Fld.DMC_GATHER_STATUS_DONE_STEPS) 1) = pass / 4294967296 ∧
       fget t Fld.DMC_GATHER_STATUS_DONE_STEPS = fget s Fld.DMC_GATHER_STATUS_DONE_STEPS + 1 ∧
       fget t Fld.DMC_GATHER_STATUS_STATE = if gatherCount s ≤ fget s Fld.DMC_GATHER_STATUS_DONE_STEPS + 1 then 2 else 1) ∧
  -- gatherClose
  (∀ (m : Master) (q : Nat) (g : Gather) (s : Machine.State), decideWrite s (whoOf s m) Reg.DMC_GATHER_CTRL = .admitted q → s.dmc.gather = some g →
     Gives (.gatherClose m) s fun t => t.dmc = { s.dmc with gather := none } ∧ fget t Fld.DMC_GATHER_STATUS_STATE = 0 ∧ fget t Fld.DMC_STATUS_GATHER_OPEN = 0) ∧
  -- gatherTimeout
  (∀ (g : Gather) (s : Machine.State), s.dmc.gather = some g → fget s Fld.DMC_GATHER_STATUS_STATE = 2 →
     Gives .gatherTimeout s fun t => t.dmc = { s.dmc with gather := none } ∧ fget t Fld.DMC_GATHER_STATUS_STATE = 0 ∧ now s ≤ now t) ∧
  -- refreshDue issued
  (∀ (r : Fin 16) (s : Machine.State), fone s Fld.DMC_STATUS_IN_SR = false → fone s Fld.DMC_STATUS_PANIC = false → s.dmc.rt = [] → SMap.getD s.dmc.owed r.val 0 < 3 →
     Gives (.refreshDue r) s fun t => t.dmc = { s.dmc with owed := SMap.del s.dmc.owed r.val, delays := t.dmc.delays } ∧ delaysTaken s t r.val ∧
       fget t (Fld.DMC_COUNT_COUNT 0) = min 4294967295 (fget s (Fld.DMC_COUNT_COUNT 0) + (SMap.getD s.dmc.owed r.val 0 + 1))) ∧
  -- refreshDue postponed
  (∀ (r : Fin 16) (s : Machine.State), fone s Fld.DMC_STATUS_IN_SR = false → fone s Fld.DMC_STATUS_PANIC = true ∨ s.dmc.rt ≠ [] → SMap.getD s.dmc.owed r.val 0 < 3 →
     Gives (.refreshDue r) s fun t => t.dmc = { s.dmc with owed := SMap.put s.dmc.owed r.val (SMap.getD s.dmc.owed r.val 0 + 1) } ∧
       fget t (Fld.DMC_COUNT_COUNT 0) = fget s (Fld.DMC_COUNT_COUNT 0)) ∧
  -- refreshDue forced
  (∀ (r : Fin 16) (s : Machine.State), fone s Fld.DMC_STATUS_IN_SR = false → 3 ≤ SMap.getD s.dmc.owed r.val 0 →
     Gives (.refreshDue r) s fun t => t.dmc = { s.dmc with owed := SMap.del s.dmc.owed r.val, delays := t.dmc.delays } ∧ delaysTaken s t r.val ∧
       fget t (Fld.DMC_COUNT_COUNT 2) = min 4294967295 (fget s (Fld.DMC_COUNT_COUNT 2) + 1) ∧ fget t Fld.DMC_EVENTS_REFRESH_FORCED = 1) ∧
  -- panicAssert
  (∀ (w : Nat) (s : Machine.State), fget s Fld.DMC_RT_PANIC_NS ≤ w → Gives (.panicAssert w) s fun t => fget t Fld.DMC_STATUS_PANIC = 1 ∧
     (fone s Fld.DMC_STATUS_PANIC = false → fget t Fld.DMC_EVENTS_PANIC = 1) ∧ t.dmc = s.dmc) ∧
  -- panicEnd
  (∀ (s : Machine.State), s.sgd.pfail = false → s.dmc.rt = [] → Gives .panicEnd s fun t => fget t Fld.DMC_STATUS_PANIC = 0 ∧ t.dmc = { s.dmc with owed := [], delays := t.dmc.delays } ∧
     fget t (Fld.DMC_COUNT_COUNT 0) = min 4294967295 (fget s (Fld.DMC_COUNT_COUNT 0) + owedAll s)) ∧
  -- panicEnd while a request waits
  (∀ (s : Machine.State), s.sgd.pfail = false → s.dmc.rt ≠ [] → Gives .panicEnd s fun t => fget t Fld.DMC_STATUS_PANIC = 0 ∧ t.dmc = s.dmc) ∧
  -- mr4Poll hot
  (∀ (r : Fin 16) (s : Machine.State), fbit s Fld.DMC_REFRESH_2X_RANKS r.val = false →
     Gives (.mr4Poll r 1) s fun t => fbit t Fld.DMC_REFRESH_2X_RANKS r.val = true ∧ fget t Fld.DMC_EVENTS_TEMP_2X = 1 ∧ t.ump = s.ump) ∧
  -- mr4Poll cool twice
  (∀ (r : Fin 16) (s : Machine.State), fbit s Fld.DMC_REFRESH_2X_RANKS r.val = true → s.dmc.cool.contains r.val = true →
     Gives (.mr4Poll r 0) s fun t => fbit t Fld.DMC_REFRESH_2X_RANKS r.val = false) ∧
  -- mr4Poll cool once
  (∀ (r : Fin 16) (s : Machine.State), s.dmc.cool.contains r.val = false → Gives (.mr4Poll r 0) s fun t => t.regs = s.regs) ∧
  -- dmcSelfRefresh
  (∀ (m : Master) (q : Nat) (v : Word) (s : Machine.State), decideWrite s (whoOf s m) Reg.DMC_CTRL = .admitted q → Gives (.dmcSelfRefresh m v) s fun t =>
     fget t Fld.DMC_CTRL_SELF_REFRESH = bits v.toNat 1 1 ∧ fget t Fld.DMC_STATUS_IN_SR = (if umpAsleep s then 1 else bits v.toNat 1 1) ∧ t.dmc = s.dmc)

/-- The scrubbers, the code, the marking of devices and the injector (R403, R405, R406, R407, R408). With no request waiting the DRAM
scrubber moves past a clean codeword and counts a corrected one, up to all of one device or two symbols; a device whose corrections
reach the threshold is marked; an error that the code does not correct counts as uncorrectable and stays so; the SRAM scrubber counts
corrections of one bit, and passes; the scrubbers stand still while power-fail is asserted, the DRAM scrubber also while a request
waits; ARM arms the injector. -/
def Obligations.MemoryProtection : Prop :=
  -- dramScrubRead clean
  (∀ (e : MemErr) (s : Machine.State), scrubFree s → rawOf s (dramKey s (scrubAt s)) e = [] → s.dmc.ues.contains (dramKey s (scrubAt s)) = false →
     scrubAt s + codeword s < pget s Reg.DMC_TOP_LO Reg.DMC_TOP_HI →
     Gives (.dramScrubRead e) s fun t => scrubAt t = scrubAt s + codeword s ∧ t.dmc = s.dmc ∧ t.lkt = s.lkt) ∧
  -- dramScrubRead end of a pass
  (∀ (e : MemErr) (s : Machine.State), scrubFree s → rawOf s (dramKey s (scrubAt s)) e = [] → s.dmc.ues.contains (dramKey s (scrubAt s)) = false →
     pget s Reg.DMC_TOP_LO Reg.DMC_TOP_HI ≤ scrubAt s + codeword s →
     Gives (.dramScrubRead e) s fun t => scrubAt t = 0 ∧
       fget t Fld.MEP_SCRUB_PASSES_DRAM = min 65535 (fget s Fld.MEP_SCRUB_PASSES_DRAM + 1)) ∧
  -- dramScrubRead corrected
  (∀ (e : MemErr) (s : Machine.State), scrubFree s → s.dmc.ues.contains (dramKey s (scrubAt s)) = false → rawOf s (dramKey s (scrubAt s)) e ≠ [] →
     rsCorrects s (groupAt s (scrubAt s)) (rawOf s (dramKey s (scrubAt s)) e) = true →
     Gives (.dramScrubRead e) s fun t => fget t Fld.MEP_CE_DRAM_COUNT = min 4294967295 (fget s Fld.MEP_CE_DRAM_COUNT + 1) ∧ fget t Fld.MEP_EVENTS_DRAM_CE = 1 ∧
       fget t Fld.MEP_UE_DRAM_COUNT = fget s Fld.MEP_UE_DRAM_COUNT) ∧
  -- dramScrubRead marks
  (∀ (e : MemErr) (d n : Nat) (s : Machine.State), scrubFree s → s.dmc.ues.contains (dramKey s (scrubAt s)) = false → rawOf s (dramKey s (scrubAt s)) e = [(d, n)] →
     fone s (Fld.MEP_MARK_MARKED (groupAt s (scrubAt s))) = false → 3 ≤ n → fget s Fld.MEP_MARK_CFG_DEV_EVENTS ≤ 1 →
     Gives (.dramScrubRead e) s fun t => fget t (Fld.MEP_MARK_MARKED (groupAt s (scrubAt s))) = 1 ∧ fget t (Fld.MEP_MARK_DEVICE (groupAt s (scrubAt s))) = d % 16 ∧
       fget t Fld.MEP_EVENTS_DEVICE_MARKED = 1) ∧
  -- dramScrubRead uncorrectable
  (∀ (e : MemErr) (s : Machine.State), scrubFree s → s.dmc.ues.contains (dramKey s (scrubAt s)) = false → rsCorrects s (groupAt s (scrubAt s)) (rawOf s (dramKey s (scrubAt s)) e) = false →
     e.what = .plain →
     Gives (.dramScrubRead e) s fun t => fget t Fld.MEP_UE_DRAM_COUNT = min 4294967295 (fget s Fld.MEP_UE_DRAM_COUNT + 1) ∧ fget t Fld.MEP_EVENTS_DRAM_UE = 1 ∧
       fget t Fld.MEP_CE_DRAM_COUNT = fget s Fld.MEP_CE_DRAM_COUNT ∧ t.dmc.ues.contains (dramKey s (scrubAt s)) = true) ∧
  -- the code
  (∀ (g d n : Nat) (s : Machine.State), fone s (Fld.MEP_MARK_MARKED g) = false → rsCorrects s g [(d, n)] = true ∧ rsCorrects s g [(d, 1), (d + 1, 1)] = true ∧
     rsCorrects s g [(d, n + 1), (d + 1, 2)] = false) ∧
  -- the code beside a marked device
  (∀ (g d n : Nat) (s : Machine.State), fone s (Fld.MEP_MARK_MARKED g) = true → d ≠ fget s (Fld.MEP_MARK_DEVICE g) →
     rsCorrects s g [(fget s (Fld.MEP_MARK_DEVICE g), n), (d, 2)] = true ∧ rsCorrects s g [(fget s (Fld.MEP_MARK_DEVICE g), n), (d, 3)] = false) ∧
  -- sramScrubRead
  (∀ (r : Fin 16) (off : Nat) (last : Bool) (e : MemErr) (s : Machine.State), fone s Fld.MEP_CTRL_SRAM_SCRUB_EN = true → s.sgd.pfail = false →
     s.dmc.ues.contains (sramKey r.val off) = false → rawSum (rawOf s (sramKey r.val off) e) = 1 →
     Gives (.sramScrubRead r off last e) s fun t => fget t Fld.MEP_CE_SRAM_COUNT = min 4294967295 (fget s Fld.MEP_CE_SRAM_COUNT + 1) ∧ fget t Fld.MEP_EVENTS_SRAM_CE = 1 ∧
       fget t Fld.MEP_SCRUB_PASSES_SRAM = if last then min 65535 (fget s Fld.MEP_SCRUB_PASSES_SRAM + 1) else fget s Fld.MEP_SCRUB_PASSES_SRAM) ∧
  -- scrub in power-fail
  (∀ (r : Fin 16) (off : Nat) (last : Bool) (e : MemErr) (s : Machine.State), s.sgd.pfail = true → Gives (.dramScrubRead e) s (fun t => t = s) ∧ Gives (.sramScrubRead r off last e) s (fun t => t = s)) ∧
  -- scrub behind a request
  (∀ (e : MemErr) (s : Machine.State), s.dmc.rt ≠ [] ∨ s.dmc.nrm ≠ [] → Gives (.dramScrubRead e) s (fun t => t = s)) ∧
  -- injectorArm
  (∀ (m : Master) (q : Nat) (v : Word) (s : Machine.State), decideWrite s (whoOf s m) Reg.MEP_INJ_CTRL = .admitted q →
     Gives (.injectorArm m v) s fun t => fget t Fld.MEP_INJ_CTRL_ARM = 1 ∧ fget t Fld.MEP_INJ_CTRL_TARGET = bits v.toNat 2 1 ∧ t.dmc = s.dmc)

/-- Calls, performance points and the thermal factor (R416, R418, R419, R421, R423, R424, R426, R427, R428, R429). A call is
requested for the operation a die takes next; a waiting call that is next is granted and charged; a group call is granted whole or
refused with no call made; a return releases a call and refunds nothing; a call that waited HOL_US becomes a blocking one; a regulator
within 1 % of the set-point puts the target point in use, one that does not settle or reports a fault sets FAULT; the thermal factor moves one step;
the cost bank switches. -/
def Obligations.UmpireCalls : Prop :=
  -- callRequest
  (∀ (die : Fin 2048) (x : DOp) (xs : List DOp) (s : Machine.State), fone s Fld.DSC_CTRL_EN = true → SMap.find s.dsc.susp die.val = none → nextOps s die.val = x :: xs → x.call = none →
     freeSlot s.ump.calls 0 < 4096 → s.ump.holdup = false →
     Gives (.callRequest die) s fun t => ∃ c, SMap.find t.ump.calls (freeSlot s.ump.calls 0) = some c ∧ c.die = die.val ∧ c.op = (if x.kind = 0 then 0 else if x.kind = 1 then 2 else 3) ∧
       c.since = now s ∧ c.gen = (SMap.getD s.ump.gens (freeSlot s.ump.calls 0) 0 + 1) % 65536) ∧
  -- callGrant
  (∀ (n : Nat) (c : Call) (s : Machine.State), SMap.find s.ump.calls n = some c → c.granted = false → callNext s n c = true → Gives (.callGrant n) s fun t =>
     SMap.find t.ump.calls n = some { c with granted := true, hol := false, epoch := s.slm.epoch } ∧ t.ump.used = s.ump.used + callCost c ∧
     ∀ k, k ≠ n → SMap.find t.ump.calls k = SMap.find s.ump.calls k) ∧
  -- callGrant barred
  (∀ (n : Nat) (c : Call) (s : Machine.State), SMap.find s.ump.calls n = some c → callNext s n c = false → Gives (.callGrant n) s fun t => t = s) ∧
  -- groupCall granted
  (∀ (acct mode deadline : Nat) (dies ns : List Nat) (cls : Fin 4) (s u : Machine.State), s.ump.holdup = false →
     groupGrant s (dies.map fun d => mkCall s false d mode 0 1 1 cls.val deadline [acct]) = some (ns, u) →
     Gives (.groupCall acct mode dies cls deadline) s fun t => ns.length = dies.length ∧ ∀ n, n ∈ ns → (SMap.find t.ump.calls n).map (fun c => c.granted) = some true) ∧
  -- groupCall refused
  (∀ (acct mode deadline : Nat) (dies : List Nat) (cls : Fin 4) (s : Machine.State), groupGrant s (dies.map fun d => mkCall s false d mode 0 1 1 cls.val deadline [acct]) = none →
     Gives (.groupCall acct mode dies cls deadline) s fun t => t.ump = { s.ump with refused := s.ump.refused + 1 } ∧ fget t Fld.UMP_EVENTS_GROUP_REFUSED = 1) ∧
  -- callReturn
  (∀ (n : Nat) (s : Machine.State), Gives (.callReturn n) s fun t => t.ump.calls = SMap.del s.ump.calls n ∧ t.ump.left = s.ump.left ∧ t.ump.pool = s.ump.pool ∧ t.ump.used = s.ump.used) ∧
  -- holBlock
  (∀ (n : Nat) (c : Call) (s : Machine.State), SMap.find s.ump.calls n = some c → c.granted = false → Gives (.holBlock n) s fun t =>
     SMap.find t.ump.calls n = some { c with hol := true } ∧ fget t Fld.UMP_EVENTS_HOL_BLOCK = 1 ∧ now s ≤ now t) ∧
  -- floorHoldExpiry
  (∀ (s : Machine.State), fone s Fld.TMB_STATUS_HELD = false → pulsesBlocked s = false →
     Gives .floorHoldExpiry s fun t => s.slm.epoch * 1000000 + clamp 0 1000 (fget s Fld.UMP_CALL_FLOOR_HOLD_US) * 1000 ≤ now t ∧ now s ≤ now t ∧
       ∀ n, (SMap.find t.ump.calls n).isSome = (SMap.find s.ump.calls n).isSome) ∧
  -- vrSettled
  (∀ (mv : Nat) (s : Machine.State), fone s Fld.UMP_PP_CTRL_CHANGING = true → mv * 100 ≤ setPoint s (fget s Fld.UMP_PP_CTRL_PP_TARGET) * 101 →
     setPoint s (fget s Fld.UMP_PP_CTRL_PP_TARGET) * 99 ≤ mv * 100 →
     Gives (.vrSettled mv) s fun t => fget t Fld.UMP_PP_CTRL_PP_NOW = fget s Fld.UMP_PP_CTRL_PP_TARGET ∧ fget t Fld.UMP_PP_CTRL_CHANGING = 0 ∧ t.ump = s.ump) ∧
  -- vrTimeout
  (∀ (mv word : Nat) (s : Machine.State), fone s Fld.UMP_PP_CTRL_CHANGING = true ∨ word ≠ 0 → Gives (.vrTimeout mv word) s fun t => fget t Fld.UMP_VR_STATUS_FAULT = 1 ∧ fget t Fld.UMP_EVENTS_VR_FAULT = 1 ∧
     fget t Fld.UMP_PP_CTRL_PP_TARGET = fget s Fld.UMP_PP_CTRL_PP_MIN ∧ fget t Fld.UMP_PP_CTRL_CHANGING = 1) ∧
  -- thermalStep hot
  (∀ (s : Machine.State), fone s Fld.UMP_CTRL_THERMAL_EN = true → s.ump.hot = true → 1 ≤ fget s Fld.UMP_THERMAL_FLOOR_8THS → fget s Fld.UMP_THERMAL_FLOOR_8THS ≤ 8 →
     fget s Fld.UMP_THERMAL_FLOOR_8THS < fget s Fld.UMP_EFFECTIVE_THERMAL →
     Gives .thermalStep s fun t => fget t Fld.UMP_EFFECTIVE_THERMAL = fget s Fld.UMP_EFFECTIVE_THERMAL - 1 ∧ fget t Fld.UMP_EVENTS_THERMAL = 1 ∧ t.ump = { s.ump with hot := false, warm := false }) ∧
  -- thermalStep cool
  (∀ (s : Machine.State), fone s Fld.UMP_CTRL_THERMAL_EN = true → s.ump.hot = false → s.ump.warm = false → fget s Fld.UMP_EFFECTIVE_THERMAL < 8 →
     Gives .thermalStep s fun t => fget t Fld.UMP_EFFECTIVE_THERMAL = fget s Fld.UMP_EFFECTIVE_THERMAL + 1) ∧
  -- thermalStep disabled
  (∀ (s : Machine.State), fone s Fld.UMP_CTRL_THERMAL_EN = false → Gives .thermalStep s fun t => t.regs = s.regs) ∧
  -- umpCostBankSwitch
  (∀ (m : Master) (q : Nat) (v : Word) (s : Machine.State), decideWrite s (whoOf s m) Reg.UMP_COST_BANK = .admitted q →
     Gives (.umpCostBankSwitch m v) s fun t => fget t Fld.UMP_COST_BANK_ACTIVE = bits v.toNat 0 1 ∧ t.ump = s.ump)

/-- Buffers are granted, freed, handed over and audited (R365, R372, R373, R374, R376, R377, R384, R388). A request within the quota and
the surplus gets one buffer, charged to its account; one past the quota is refused, and one of a master that holds no buffers does nothing; a free whose checks pass sends the buffer to zeroing,
and zeroing clears its bytes and returns it to its pool; a handover changes the holder alone, and one to no holding master is denied; a
retry repeats the request; the audit counts a pass; MIN_CLEAR and quota writes take effect. -/
def Obligations.BufferPools : Prop :=
  -- bufferAlloc
  (∀ (id size a i : Nat) (cls : Fin 4) (nochain long : Bool) (s : Machine.State), holdsBuffers s id = true → fone s Fld.BPM_CTRL_EN = true → carded s id = false → 1 ≤ size → size ≤ 73728 → a < 1029 →
     bufHeld s a (poolFor size) + 1 ≤ limOf s a (poolFor size) → 1 - (rsvOf s a (poolFor size) - bufHeld s a (poolFor size)) ≤ surplusFree s (poolFor size) →
     lowerBarred s (poolFor size) cls.val = false → freeIdx s (poolFor size) (poolCount s (poolFor size)) 0 = some i →
     Gives (.bufferAlloc id size a cls nochain long) s fun t => t.bpm.last.1 = ST_OK ∧
       (SMap.find t.bpm.bufs (bufKey (poolFor size) i)).map (fun b => (b.st, b.holder, b.acct, b.link)) = some (1, id, a, none) ∧ t.bpm.waits = s.bpm.waits) ∧
  -- bufferAlloc quota
  (∀ (id size a : Nat) (cls : Fin 4) (nochain long : Bool) (s : Machine.State), holdsBuffers s id = true → fone s Fld.BPM_CTRL_EN = true → carded s id = false → 1 ≤ size → size ≤ 73728 → a < 1029 →
     limOf s a (poolFor size) < bufHeld s a (poolFor size) + 1 →
     Gives (.bufferAlloc id size a cls nochain long) s fun t => t.bpm.last = (ST_QUOTA, 0) ∧ t.bpm.bufs = s.bpm.bufs) ∧
  -- bufferAlloc bad length
  (∀ (id size a : Nat) (cls : Fin 4) (nochain long : Bool) (s : Machine.State), holdsBuffers s id = true → fone s Fld.BPM_CTRL_EN = true → carded s id = false → size = 0 ∨ 73728 < size →
     Gives (.bufferAlloc id size a cls nochain long) s fun t => t.bpm = { s.bpm with last := (ST_BAD_LENGTH, 0) }) ∧
  -- bufferAlloc no holding master
  (∀ (id size a : Nat) (cls : Fin 4) (nochain long : Bool) (s : Machine.State), holdsBuffers s id = false →
     Gives (.bufferAlloc id size a cls nochain long) s fun t => t = s) ∧
  -- allocRetry
  (∀ (k i : Nat) (w : BufWait) (s : Machine.State), s.bpm.waits[k]? = some w → fone s Fld.BPM_CTRL_EN = true → carded s w.id = false → 1 ≤ w.size → w.size ≤ 73728 → w.acct < 1029 →
     bufHeld s w.acct (poolFor w.size) + 1 ≤ limOf s w.acct (poolFor w.size) →
     1 - (rsvOf s w.acct (poolFor w.size) - bufHeld s w.acct (poolFor w.size)) ≤ surplusFree s (poolFor w.size) → lowerBarred s (poolFor w.size) w.cls = false →
     freeIdx s (poolFor w.size) (poolCount s (poolFor w.size)) 0 = some i →
     Gives (.allocRetry k) s fun t => t.bpm.last.1 = ST_OK ∧ t.bpm.waits = s.bpm.waits.eraseIdx k ∧
       (SMap.find t.bpm.bufs (bufKey (poolFor w.size) i)).map (fun b => (b.st, b.holder, b.acct)) = some (1, w.id, w.acct)) ∧
  -- bufferFree
  (∀ (id : Nat) (h : Word) (s : Machine.State), bufCheck s id h.toNat = ST_OK → Gives (.bufferFree id h) s fun t => t.bpm.last = (ST_OK, h.toNat) ∧
     (SMap.find t.bpm.bufs (bufKey (hPool h.toNat) (hIndex h.toNat))).map (fun b => (b.st, b.link)) = some (2, none)) ∧
  -- bufferFree in quarantine
  (∀ (id : Nat) (h : Word) (s : Machine.State), bufCheck s id h.toNat = ST_SQUASHED → Gives (.bufferFree id h) s fun t => t.bpm = { s.bpm with last := (ST_SQUASHED, h.toNat) }) ∧
  -- bufferHandover
  (∀ (id dest : Nat) (h : Word) (b : Buf) (s : Machine.State), bufCheck s id h.toNat = ST_OK → holdsBuffers s dest = true → carded s dest = false →
     SMap.find s.bpm.bufs (bufKey (hPool h.toNat) (hIndex h.toNat)) = some b →
     Gives (.bufferHandover id h dest) s fun t => t.bpm.last = (ST_OK, h.toNat) ∧ SMap.find t.bpm.bufs (bufKey (hPool h.toNat) (hIndex h.toNat)) = some { b with holder := dest }) ∧
  -- bufferHandover denied
  (∀ (id dest : Nat) (h : Word) (s : Machine.State), bufCheck s id h.toNat = ST_OK → holdsBuffers s dest = false ∨ carded s dest = true →
     Gives (.bufferHandover id h dest) s fun t => t.bpm = { s.bpm with last := (ST_DENIED, h.toNat) }) ∧
  -- bufferZeroed
  (∀ (k : Fin 4) (i : Nat) (b : Buf) (s : Machine.State), SMap.find s.bpm.bufs (bufKey k.val i) = some b → b.st = 2 →
     Gives (.bufferZeroed k i) s fun t => t.bpm.bufs = SMap.put s.bpm.bufs (bufKey k.val i) { b with st := 0, link := none } ∧
       ∀ o, o < poolStride k.val → SMap.getD t.fab.mem (0x20000000 + poolBase s k.val + i * poolStride k.val + o) 0 = 0) ∧
  -- leakAuditPass
  (∀ (s : Machine.State), fone s Fld.BPM_CTRL_AUDIT_EN = true → Gives .leakAuditPass s fun t => fget t Fld.BPM_AUDIT_STATE_PASSES = min 65535 (fget s Fld.BPM_AUDIT_STATE_PASSES + 1) ∧
     ∀ k b, SMap.find s.bpm.bufs k = some b → b.long = true → SMap.find t.bpm.bufs k = some { b with marks := 0 }) ∧
  -- bpmMinClear
  (∀ (m : Master) (q : Nat) (k : Fin 4) (s : Machine.State), decideWrite s (whoOf s m) Reg.BPM_CTRL = .admitted q →
     Gives (.bpmMinClear m) s fun t => fget t (Fld.BPM_RES_MIN_SURPLUS k.val) = surplusFree s k.val % 65536 ∧ t.bpm = s.bpm) ∧
  -- bpmQuotaWrite
  (∀ (m : Master) (q : Nat) (k : Fin 4) (v : Word) (s : Machine.State), decideWrite s (whoOf s m) (Reg.BPM_V_QUOTA k.val) = .admitted q →
     selGet s (masterNo m) Fld.BPM_ACCT_SEL_ACCOUNT ≤ 1031 → isoAcct s (selGet s (masterNo m) Fld.BPM_ACCT_SEL_ACCOUNT) = false →
     bits v.toNat 0 16 ≤ bits v.toNat 16 16 → bits v.toNat 16 16 ≤ poolCount s k.val →
     rsvSum s k.val - rsvOf s (selGet s (masterNo m) Fld.BPM_ACCT_SEL_ACCOUNT) k.val + bits v.toNat 0 16 ≤ poolCount s k.val →
     bits v.toNat 0 16 - bufHeld s (selGet s (masterNo m) Fld.BPM_ACCT_SEL_ACCOUNT) k.val -
       (rsvOf s (selGet s (masterNo m) Fld.BPM_ACCT_SEL_ACCOUNT) k.val - bufHeld s (selGet s (masterNo m) Fld.BPM_ACCT_SEL_ACCOUNT) k.val) ≤ surplusFree s k.val →
     Gives (.bpmQuotaWrite m k v) s fun t => rsvOf t (selGet s (masterNo m) Fld.BPM_ACCT_SEL_ACCOUNT) k.val = bits v.toNat 0 16 ∧
       limOf t (selGet s (masterNo m) Fld.BPM_ACCT_SEL_ACCOUNT) k.val = bits v.toNat 16 16) ∧
  -- bpmQuotaWrite ignored
  (∀ (m : Master) (q : Nat) (k : Fin 4) (v : Word) (s : Machine.State), decideWrite s (whoOf s m) (Reg.BPM_V_QUOTA k.val) = .admitted q →
     isoAcct s (selGet s (masterNo m) Fld.BPM_ACCT_SEL_ACCOUNT) = false → bits v.toNat 16 16 < bits v.toNat 0 16 ∨ poolCount s k.val < bits v.toNat 16 16 →
     Gives (.bpmQuotaWrite m k v) s fun t => t.bpm = s.bpm ∧ t.regs = s.regs)

/-- Host writes, appends, reads, Flush and Deallocate (R132, R133, R202, R203, R204, R215, R220, R223, R224, R225). A fetched command that
passes the checks: a Write or Zone Append at the write pointer of an open zone moves it and takes a range; a Write elsewhere, past
the capacity or of an unknown opcode ends with its status and reserves nothing; one behind an earlier write of its queue to the zone,
or to a zone whose descriptor fails its CRC, waits; a conventional Write takes the next sequence number;
a Read past the end fails, one of LBAs without data returns zeros, one of a staged unit waits for its data; Flush ends at once;
Deallocate leaves its LBAs without data. -/
def Obligations.WritesAndReads : Prop :=
  -- ioInvalidOpcode
  (∀ (c : IoCmd) (k : Ctx) (s : Machine.State), s.bot.run = true → SMap.find s.hst.ctx (ioKey c) = some k → k.st = .fetched → k.qid ≠ 0 → ioKnown k.opcode = false →
     Gives (.ioInvalidOpcode c) s fun t => ioSays t c 0x001 ∧ t.zne = s.zne) ∧
  -- nvmeWrite conventional
  (∀ (c : IoCmd) (k : Ctx) (n : Ns) (s : Machine.State), ioGoes s c 1 (lbaBytes c) k n → n.zoned = false → c.slba + c.nlb + 1 ≤ nsLbas n → fone s Fld.ZNE_EOL_READ_ONLY = false →
     classOk s n.slice (hintClass s n.slice c.cdw3) = true →
     Gives (.nvmeWrite c) s fun t => t.zne.seq = s.zne.seq + 1 ∧ ∃ k', SMap.find t.hst.ctx (ioKey c) = some k' ∧ k'.st = .running ∧
       k'.range.map (fun r => (r.nsid, r.start, r.len, r.seq, r.zoned)) = some (k.nsid, c.slba, c.nlb + 1, s.zne.seq + 1, false)) ∧
  -- nvmeWrite range
  (∀ (c : IoCmd) (k : Ctx) (n : Ns) (s : Machine.State), ioGoes s c 1 (lbaBytes c) k n → n.zoned = false → nsLbas n < c.slba + c.nlb + 1 →
     Gives (.nvmeWrite c) s fun t => ioSays t c 0x080 ∧ t.zne = s.zne) ∧
  -- nvmeWrite zone
  (∀ (c : IoCmd) (k : Ctx) (n : Ns) (z : Zone) (s : Machine.State), ioGoes s c 1 (lbaBytes c) k n → n.zoned = true → fone s Fld.ZNE_EOL_READ_ONLY = false →
     SMap.find s.zne.zones (ioZone c n) = some z → z.st = 2 ∨ z.st = 3 → zoneWaits z = false → orderHeld s c k n = false → descGood s (ioZone c n) z →
     c.slba % zoneLbas n = z.wp → c.slba + c.nlb + 1 ≤ n.cap * lbasPerUnit n →
     c.slba + c.nlb + 1 ≤ nsLbas n → z.wp + (c.nlb + 1) ≤ zoneLbas n → z.wp + (c.nlb + 1) ≤ z.zcap * lbasPerUnit n → classOk s n.slice z.cls = true →
     Gives (.nvmeWrite c) s fun t => (zoneGet t (ioZone c n)).wp = z.wp + (c.nlb + 1) ∧
       (zoneGet t (ioZone c n)).st = (if z.zcap * lbasPerUnit n ≤ z.wp + (c.nlb + 1) then 14 else z.st) ∧
       ∃ k', SMap.find t.hst.ctx (ioKey c) = some k' ∧ k'.st = .running ∧ k'.range.map (fun r => (r.zone, r.start, r.len)) = some (ioZone c n, z.wp, c.nlb + 1)) ∧
  -- nvmeWrite not at the write pointer
  (∀ (c : IoCmd) (k : Ctx) (n : Ns) (z : Zone) (s : Machine.State), ioGoes s c 1 (lbaBytes c) k n → n.zoned = true → fone s Fld.ZNE_EOL_READ_ONLY = false →
     SMap.find s.zne.zones (ioZone c n) = some z → z.st ≤ 4 → zoneWaits z = false → orderHeld s c k n = false → descGood s (ioZone c n) z → c.slba % zoneLbas n ≠ z.wp → c.slba + c.nlb + 1 ≤ n.cap * lbasPerUnit n →
     Gives (.nvmeWrite c) s fun t => ioSays t c 0x1BC ∧ t.zne.zones = s.zne.zones) ∧
  -- nvmeWrite behind an earlier write
  (∀ (c : IoCmd) (k : Ctx) (n : Ns) (s : Machine.State), ioGoes s c 1 (lbaBytes c) k n → n.zoned = true → fone s Fld.ZNE_EOL_READ_ONLY = false → orderHeld s c k n = true →
     Gives (.nvmeWrite c) s fun t => t = s) ∧
  -- nvmeWrite to a zone whose descriptor fails its CRC
  (∀ (c : IoCmd) (k : Ctx) (n : Ns) (z : Zone) (s : Machine.State), ioGoes s c 1 (lbaBytes c) k n → n.zoned = true → fone s Fld.ZNE_EOL_READ_ONLY = false → orderHeld s c k n = false →
     SMap.find s.zne.zones (ioZone c n) = some z → zoneWaits z = false → z.spoilt = true → s.zne.cache.contains (ioZone c n) = false → isoNs s n = none → c.slba + c.nlb + 1 ≤ nsLbas n →
     Gives (.nvmeWrite c) s fun t => zoneGet t (ioZone c n) = { z with crcBad := some (now s) } ∧ fget t Fld.ZNE_EVENTS_DESC_CRC = 1 ∧ t.hst = s.hst) ∧
  -- zoneAppend
  (∀ (c : IoCmd) (k : Ctx) (n : Ns) (z : Zone) (s : Machine.State), ioGoes s c 0x7D (lbaBytes c) k n → n.zoned = true → fone s Fld.ZNE_EOL_READ_ONLY = false →
     SMap.find s.zne.zones (ioZone c n) = some z → z.st = 2 ∨ z.st = 3 → zoneWaits z = false → orderHeld s c k n = false → descGood s (ioZone c n) z → c.slba % zoneLbas n = 0 → c.slba + c.nlb + 1 ≤ n.cap * lbasPerUnit n →
     c.slba + c.nlb + 1 ≤ nsLbas n → z.wp + (c.nlb + 1) ≤ zoneLbas n → z.wp + (c.nlb + 1) ≤ z.zcap * lbasPerUnit n → classOk s n.slice z.cls = true →
     Gives (.zoneAppend c) s fun t => (zoneGet t (ioZone c n)).wp = z.wp + (c.nlb + 1) ∧
       ∃ k', SMap.find t.hst.ctx (ioKey c) = some k' ∧ k'.st = .running ∧ k'.range.map (fun r => (r.zone, r.start, r.len)) = some (ioZone c n, z.wp, c.nlb + 1)) ∧
  -- zoneAppend conventional
  (∀ (c : IoCmd) (k : Ctx) (n : Ns) (s : Machine.State), ioGoes s c 0x7D (lbaBytes c) k n → n.zoned = false → Gives (.zoneAppend c) s fun t => ioSays t c 0x001 ∧ t.zne = s.zne) ∧
  -- nvmeRead range
  (∀ (c : IoCmd) (k : Ctx) (n : Ns) (s : Machine.State), ioGoes s c 2 (lbaBytes c) k n → nsLbas n < c.slba + c.nlb + 1 → Gives (.nvmeRead c) s fun t => ioSays t c 0x080 ∧ t.zne = s.zne) ∧
  -- nvmeRead no data
  (∀ (c : IoCmd) (k : Ctx) (n : Ns) (s : Machine.State), ioGoes s c 2 (lbaBytes c) k n → n.zoned = false → c.slba + c.nlb + 1 ≤ nsLbas n →
     (∀ i, i ≤ c.nlb → unitLoc s n ((c.slba + i) / lbasPerUnit n) = .zero) →
     Gives (.nvmeRead c) s fun t => ∃ k', SMap.find t.hst.ctx (ioKey c) = some k' ∧ k'.st = .ready 0 0 0 ∧ ∀ u, u ∈ k'.units → ∀ b, b ∈ u.blocks → b = 0) ∧
  -- nvmeRead staged
  (∀ (c : IoCmd) (k : Ctx) (n : Ns) (slot : Nat) (s : Machine.State), ioGoes s c 2 (lbaBytes c) k n → n.zoned = false → n.lbaf = 0 → c.nlb = 0 → c.slba + 1 ≤ nsLbas n →
     unitLoc s n c.slba = .dram slot →
     Gives (.nvmeRead c) s fun t => ∃ k', SMap.find t.hst.ctx (ioKey c) = some k' ∧ k'.st = .running ∧ k'.units.map (fun u => (u.lba, u.loc, u.st)) = [(c.slba, .dram slot, .waiting)]) ∧
  -- nvmeFlush
  (∀ (c : IoCmd) (k : Ctx) (n : Ns) (s : Machine.State), ioGoes s c 0 (fun _ => 0) k n → Gives (.nvmeFlush c) s fun t => ioSays t c 0 ∧ t.zne = s.zne ∧ t.med = s.med ∧ t.regs = s.regs) ∧
  -- datasetManagement
  (∀ (c : IoCmd) (k : Ctx) (n : Ns) (s : Machine.State), ioGoes s c 9 (fun _ => 16 * (c.slba % 256 + 1)) k n → n.zoned = false → n.lbaf = 0 → c.slba % 256 = 0 → bit c.slba 34 = true →
     fone s Fld.ZNE_EOL_READ_ONLY = false → bits (c.data.getD 0 0) 64 64 + bits (c.data.getD 0 0) 32 32 ≤ nsLbas n →
     Gives (.datasetManagement c) s fun t => ioSays t c 0 ∧
       ∀ i, i < bits (c.data.getD 0 0) 32 32 → unitLoc t n (bits (c.data.getD 0 0) 64 64 + i) = .zero) ∧
  -- datasetManagement zoned
  (∀ (c : IoCmd) (k : Ctx) (n : Ns) (s : Machine.State), ioGoes s c 9 (fun _ => 16 * (c.slba % 256 + 1)) k n → n.zoned = true → Gives (.datasetManagement c) s fun t => ioSays t c 0 ∧ t.zne = s.zne)

/-- The zone actions and reports (R195, R210, R211, R212, R213, R214, R220). A fetched action on one zone with no range in flight: Close
closes an open zone, Finish makes it Full, Open opens a closed one explicitly, Reset makes it Empty, Offline takes a Read Only zone
offline, each ending with status 0; any other action, and Extended Report Zones, end with Invalid Field; a waiting action acts once no
range is in flight; a rebuilt descriptor is good again and recorded; Report Zones returns the descriptors, and waits while one of them is
being rebuilt. -/
def Obligations.ZoneManagement : Prop :=
  -- zoneClose
  (∀ (c : IoCmd) (k : Ctx) (n : Ns) (z : Zone) (s : Machine.State), ioGoes s c 0x79 (fun _ => 0) k n → zoneSends s c n z → z.st = 2 ∨ z.st = 3 →
     Gives (.zoneClose c) s fun t => ioSays t c 0 ∧ (zoneGet t (ioZone c n)).st = 4 ∧ (zoneGet t (ioZone c n)).wp = z.wp) ∧
  -- zoneClose illegal
  (∀ (c : IoCmd) (k : Ctx) (n : Ns) (z : Zone) (s : Machine.State), ioGoes s c 0x79 (fun _ => 0) k n → zoneSends s c n z → z.st = 14 →
     Gives (.zoneClose c) s fun t => ioSays t c 0x1BF ∧ t.zne.zones = s.zne.zones) ∧
  -- zoneFinish
  (∀ (c : IoCmd) (k : Ctx) (n : Ns) (z : Zone) (s : Machine.State), ioGoes s c 0x79 (fun _ => 0) k n → zoneSends s c n z → 1 ≤ z.st → z.st ≤ 4 →
     Gives (.zoneFinish c) s fun t => ioSays t c 0 ∧ (zoneGet t (ioZone c n)).st = 14 ∧ (zoneGet t (ioZone c n)).wp = zoneLbas n) ∧
  -- zoneOpen
  (∀ (c : IoCmd) (k : Ctx) (n : Ns) (z : Zone) (s : Machine.State), ioGoes s c 0x79 (fun _ => 0) k n → zoneSends s c n z → z.st = 4 → openRoom s n = true → classOk s n.slice z.cls = true →
     Gives (.zoneOpen c) s fun t => ioSays t c 0 ∧ (zoneGet t (ioZone c n)).st = 3 ∧ (zoneGet t (ioZone c n)).wp = z.wp) ∧
  -- zoneReset
  (∀ (c : IoCmd) (k : Ctx) (n : Ns) (z : Zone) (s : Machine.State), ioGoes s c 0x79 (fun _ => 0) k n → zoneSends s c n z → z.st = 2 ∨ z.st = 3 ∨ z.st = 4 ∨ z.st = 14 →
     Gives (.zoneReset c) s fun t => ioSays t c 0 ∧ zoneGet t (ioZone c n) = { Zone.fresh with resets := min 65535 (z.resets + 1), last := z.last }) ∧
  -- zoneOffline
  (∀ (c : IoCmd) (k : Ctx) (n : Ns) (z : Zone) (s : Machine.State), ioGoes s c 0x79 (fun _ => 0) k n → zoneSends s c n z → z.st = 13 →
     Gives (.zoneOffline c) s fun t => ioSays t c 0 ∧ (zoneGet t (ioZone c n)).st = 15) ∧
  -- zoneMgmtSendInvalid
  (∀ (c : IoCmd) (k : Ctx) (n : Ns) (s : Machine.State), ioGoes s c 0x79 (fun _ => 0) k n → n.zoned = true → Gives (.zoneMgmtSendInvalid c) s fun t => ioSays t c 0x002 ∧ t.zne = s.zne) ∧
  -- zoneActionTakesEffect close
  (∀ (zi x : Nat) (z : Zone) (s : Machine.State), SMap.find s.zne.zones zi = some z → z.action = some (1, x) → z.st = 2 ∨ z.st = 3 → inFlight z = false →
     Gives (.zoneActionTakesEffect zi) s fun t => (zoneGet t zi).st = 4 ∧ (zoneGet t zi).action = none) ∧
  -- zoneActionTakesEffect in flight
  (∀ (zi : Nat) (z : Zone) (s : Machine.State), SMap.find s.zne.zones zi = some z → inFlight z = true → Gives (.zoneActionTakesEffect zi) s fun t => t = s) ∧
  -- descriptorRebuildDone
  (∀ (zi : Nat) (z : Zone) (s : Machine.State), SMap.find s.zne.zones zi = some z → z.crcBad = none → Gives (.descriptorRebuildDone zi) s fun t => t = s) ∧
  -- descriptorRebuildDone of a zone that waits
  (∀ (zi a id : Nat) (n : Ns) (z : Zone) (s : Machine.State), SMap.find s.zne.zones zi = some z → z.crcBad = some a → nsOfZone s zi = some (id, n) → recordable s 3 →
     Gives (.descriptorRebuildDone zi) s fun t => zoneGet t zi = { z with crcBad := none, spoilt := false } ∧ t.med = s.med ∧
       recorded s t (lktCode 3 1 true) ((now s - a) / 1000) 0 zi id) ∧
  -- reportZones
  (∀ (c : IoCmd) (k : Ctx) (n : Ns) (s : Machine.State), ioGoes s c 0x7A (fun _ => recvBytes c) k n → n.zoned = true → cdw c.cdw13 8 8 = 0 → bit c.cdw13.toNat 16 = false → c.slba = 0 → 0 < nsLbas n →
     (∀ j, j < zoneCount n → (zoneGet s (n.base + j)).crcBad = none ∧ descGood s (n.base + j) (zoneGet s (n.base + j))) →
     Gives (.reportZones c) s fun t => ∃ k', SMap.find t.hst.ctx (ioKey c) = some k' ∧ k'.st = .ready 0 0 0 ∧
       k'.out = (fit (recvBytes c) (le 8 (zoneCount n) ++ zeros 56 ++ ((List.range (zoneCount n)).take ((recvBytes c - 64) / 64)).flatMap (zoneDesc s n))).map (·.toNat)) ∧
  -- reportZones waits for a descriptor
  (∀ (c : IoCmd) (k : Ctx) (n : Ns) (s : Machine.State), ioGoes s c 0x7A (fun _ => recvBytes c) k n → n.zoned = true → cdw c.cdw13 8 8 = 0 → c.slba = 0 → 0 < nsLbas n → 128 ≤ recvBytes c →
     0 < zoneCount n → (zoneGet s n.base).crcBad.isSome = true →
     Gives (.reportZones c) s fun t => SMap.find t.hst.ctx (ioKey c) = SMap.find s.hst.ctx (ioKey c)) ∧
  -- extendedReportZones
  (∀ (c : IoCmd) (k : Ctx) (n : Ns) (s : Machine.State), ioGoes s c 0x7A (fun _ => recvBytes c) k n → n.zoned = true → Gives (.extendedReportZones c) s fun t => ioSays t c 0x002 ∧ t.zne = s.zne)

/-- Placement, encryption, staging and stripes (R48, R217, R242, R244, R256, R299, R465). A running write whose stream has the slots gets
a target for each unit, without them it waits, and is counted once; an engine in service encrypts a placed unit under its slot's key when
its check agrees, and releases nothing when it does not; decryption likewise returns the plaintext; the copy puts the unit into its
staging slot unless the dirty limit, the run records or power-fail bar it; a settled stripe gets its parity; a stripe with all members
programmed closes and releases its staged units, a zone's unit where the zone has a run record for it; a due fold starts. -/
def Obligations.WritePathToFlash : Prop :=
  -- placementDecision
  (∀ (x : Nat) (c : Ctx) (r : WRange) (n : Ns) (s : Machine.State), SMap.find s.hst.ctx x = some c → c.st = .running → c.range = some r → r.zoned = false → SMap.find s.zne.ns r.nsid = some n →
     fone s Fld.PLC_CTRL_EN = true → c.units ≠ [] → (∀ u, u ∈ c.units → u.st = .waiting) → (classOf s r.cls).mode ≠ 0 →
     (SMap.find s.plc.streams (streamKey s n.slice r.cls (lifeStream (classOf s r.cls) r.life) 0)).isSome = true → c.units.length ≤ streamFree s (streamKey s n.slice r.cls (lifeStream (classOf s r.cls) r.life) 0) →
     Gives (.placementDecision x) s fun t => t.plc.decisions = s.plc.decisions + 1 ∧ ∃ c', SMap.find t.hst.ctx x = some c' ∧
       c'.units.map (fun u => (u.unit, u.lba)) = c.units.map (fun u => (u.unit, u.lba)) ∧ ∀ u, u ∈ c'.units → ∃ g, u.st = .placed g) ∧
  -- placementDecision waits
  (∀ (x : Nat) (c : Ctx) (r : WRange) (n : Ns) (s : Machine.State), SMap.find s.hst.ctx x = some c → c.st = .running → c.range = some r → r.zoned = false → SMap.find s.zne.ns r.nsid = some n →
     fone s Fld.PLC_CTRL_EN = true → c.units ≠ [] → (∀ u, u ∈ c.units → u.st = .waiting) → (classOf s r.cls).mode ≠ 0 →
     (SMap.find s.plc.streams (streamKey s n.slice r.cls (lifeStream (classOf s r.cls) r.life) 0)).isSome = true → streamFree s (streamKey s n.slice r.cls (lifeStream (classOf s r.cls) r.life) 0) < c.units.length →
     c.waited = false →
     Gives (.placementDecision x) s fun t => t.hst = { s.hst with ctx := SMap.put s.hst.ctx x { c with waited := true } } ∧ t.plc = { s.plc with waits := s.plc.waits + 1 } ∧
       fget t Fld.PLC_READY_WAITS_COUNT = min 4294967295 (fget s Fld.PLC_READY_WAITS_COUNT + 1)) ∧
  -- placementDecision still waits
  (∀ (x : Nat) (c : Ctx) (r : WRange) (n : Ns) (s : Machine.State), SMap.find s.hst.ctx x = some c → c.st = .running → c.range = some r → r.zoned = false → SMap.find s.zne.ns r.nsid = some n →
     fone s Fld.PLC_CTRL_EN = true → (classOf s r.cls).mode ≠ 0 →
     (SMap.find s.plc.streams (streamKey s n.slice r.cls (lifeStream (classOf s r.cls) r.life) 0)).isSome = true → streamFree s (streamKey s n.slice r.cls (lifeStream (classOf s r.cls) r.life) 0) < c.units.length → c.waited = true →
     Gives (.placementDecision x) s fun t => t = s) ∧
  -- xteEncrypt
  (∀ (x u : Nat) (c : Ctx) (k : CUnit) (g : Tgt) (n : Ns) (ks : KSlot) (s : Machine.State), ctxUnit s x u = some (c, k) → k.st = .placed g → cipherFor s c = some (n, ks) → xteUp s k.inst = true →
     Gives (.xteEncrypt x u true) s fun t => (ctxUnit t x u).map (fun e => (e.2.st, e.2.blocks)) = some (.checked g, encBlocks (slotBuf ks (unitLatch ks k)) (duLen n) k.lba k.blocks)) ∧
  -- xteEncrypt disagreement
  (∀ (x u : Nat) (c : Ctx) (k : CUnit) (g : Tgt) (n : Ns) (ks : KSlot) (s : Machine.State), ctxUnit s x u = some (c, k) → k.st = .placed g → cipherFor s c = some (n, ks) → xteUp s k.inst = true → k.tries = 0 →
     2 ≤ fget s Fld.XTE_FAULT_CFG_LIMIT → SMap.find s.kst.xteFaults k.inst = none →
     Gives (.xteEncrypt x u false) s fun t => (ctxUnit t x u).map (fun e => (e.2.st, e.2.blocks, e.2.tries)) = some (.placed g, k.blocks, 1)) ∧
  -- xteDecrypt
  (∀ (x u : Nat) (c : Ctx) (k : CUnit) (b : List Nat) (n : Ns) (ks : KSlot) (s : Machine.State), ctxUnit s x u = some (c, k) → cipherIn s k = some b → cipherFor s c = some (n, ks) → c.opcode = 2 → xteUp s k.inst = true →
     Gives (.xteDecrypt x u true) s fun t => (ctxUnit t x u).map (fun e => (e.2.st, e.2.blocks)) =
       some (.plain, decBlocks (slotBuf ks (unitLatch ks k)) (duLen n) k.lba ((b.drop (k.lba % lbasPerUnit n)).take k.n))) ∧
  -- stagingCopy
  (∀ (x u : Nat) (c : Ctx) (k : CUnit) (g : Tgt) (r : WRange) (n : Ns) (s : Machine.State), ctxUnit s x u = some (c, k) → k.st = .checked g → c.range = some r → SMap.find s.zne.ns c.nsid = some n →
     dirtyRoom s (isoNs s n) 4096 = true → stagingBarred s n r.zone (k.unit % zoneUnits n) (g.stripe * 16 + g.member) = false → s.sgd.pfail = false →
     Gives (.stagingCopy x u) s fun t => (ctxUnit t x u).map (fun e => (e.2.st, e.2.loc)) = some (.staged, .dram (g.stripe * 16 + g.member))) ∧
  -- stagingCopy barred
  (∀ (x u : Nat) (c : Ctx) (k : CUnit) (g : Tgt) (r : WRange) (n : Ns) (s : Machine.State), ctxUnit s x u = some (c, k) → k.st = .checked g → c.range = some r → SMap.find s.zne.ns c.nsid = some n →
     dirtyRoom s (isoNs s n) 4096 = true ∨ s.med.tail = [] →
     stagingBarred s n r.zone (k.unit % zoneUnits n) (g.stripe * 16 + g.member) = true ∨ s.sgd.pfail = true → Gives (.stagingCopy x u) s fun t => t = s) ∧
  -- stripeAssemble
  (∀ (n : Nat) (st : Stripe) (s : Machine.State), SMap.find s.plc.stripes n = some st → st.parity = none → st.members.all settled = true →
     Gives (.stripeAssemble n) s fun t => SMap.find t.plc.stripes n = some { st with parity := some (parityOf s st) } ∧ t.zne = s.zne) ∧
  -- stripeAssemble unsettled
  (∀ (n : Nat) (st : Stripe) (s : Machine.State), SMap.find s.plc.stripes n = some st → st.members.all settled = false → Gives (.stripeAssemble n) s fun t => t = s) ∧
  -- stripeClose
  (∀ (n : Nat) (st : Stripe) (s : Machine.State), SMap.find s.plc.stripes n = some st → st.parity.isSome = true → st.toProg = [] → s.plc.folds = [] → convStripe s st →
     Gives (.stripeClose n) s fun t => SMap.find t.plc.stripes n = none ∧ (∀ k, k ≠ n → SMap.find t.plc.stripes k = SMap.find s.plc.stripes k) ∧
       ∀ slot, .unit slot ∈ st.members → SMap.find t.zne.stg slot = none) ∧
  -- stripeClose of a zone's unit
  (∀ (n i slot id : Nat) (st : Stripe) (u : SUnit) (x : Ns) (z : Zone) (s : Machine.State), SMap.find s.plc.stripes n = some st → st.parity.isSome = true → st.toProg = [] → s.plc.folds = [] →
     st.members[i]? = some (.unit slot) → (∀ j, j ≠ i → st.members.getD j .pad = .pad) → st.zone = none → SMap.find s.zne.stg slot = some u → SMap.find s.zne.ns u.nsid = some x → x.zoned = true →
     id = x.base + u.unit / zoneUnits x → zoneGet s id = z →
     (runPlace (u.unit % zoneUnits x) (stripeKey st.group st.block st.row st.half) i (z.runs.flatMap (cutRun (u.unit % zoneUnits x) (u.unit % zoneUnits x + 1)))).length ≤ 1024 →
     Gives (.stripeClose n) s fun t => SMap.find t.plc.stripes n = none ∧ SMap.find t.zne.stg slot = none ∧ ((zoneGet t id).runs = z.runs ∨
       (zoneGet t id).runs = runPlace (u.unit % zoneUnits x) (stripeKey st.group st.block st.row st.half) i (z.runs.flatMap (cutRun (u.unit % zoneUnits x) (u.unit % zoneUnits x + 1))))) ∧
  -- stripeClose not programmed
  (∀ (n : Nat) (st : Stripe) (s : Machine.State), SMap.find s.plc.stripes n = some st → st.toProg ≠ [] → Gives (.stripeClose n) s fun t => t = s) ∧
  -- foldStart
  (∀ (zi id : Nat) (n : Ns) (q2 : Bool) (s : Machine.State), bgStopped s = false → fone s Fld.PLC_CTRL_EN = true → nsOfZone s zi = some (id, n) → s.plc.folds = [] →
     foldRuns (zoneGet s zi) ≠ [] ∨ (zoneGet s zi).rewrite = true → foldDue s n zi (zoneGet s zi) = some q2 → foldGoes s zi id n q2 →
     Gives (.foldStart true zi) s fun t => ∃ f, t.plc.folds = [f] ∧ f.zoned = true ∧ f.obj = zi ∧ f.q2 = q2 ∧ f.exts ≠ [] ∧ f.stripes ≠ []) ∧
  -- foldStart stopped
  (∀ (zoned : Bool) (obj : Nat) (s : Machine.State), bgStopped s = true → Gives (.foldStart zoned obj) s fun t => t = s)

/-- Streams, groups, the epoch and how reads are served (R176, R177, R229, R240, R241, R243, R246, R247, R249, R253, R258, R277). The
epoch start moves time to the next boundary and latches every slice's shares; a stream short of slots gets a stripe; an idle stripe loses
its free slots to pad, an idle stream goes; a zone's tail leaves direct placement; settled stripes of a zone get their parity; a
backlogged group turns quiet and leaves it; a hold write is journaled first, the journal's tail being written where the dirty limit leaves
no room; a group of no slice loses DEDICATED; scores follow; a read is queued directly when it can meet its deadline; a rebound's members
give the unit. -/
def Obligations.PlacementAndServing : Prop :=
  -- epochStart
  (∀ (icc iccq : Nat) (s : Machine.State), fone s Fld.TMB_STATUS_HELD = false → pulsesBlocked s = false → Gives (.epochStart icc iccq) s fun t =>
     now t = (epochOf (now s) + 1) * 1000000 ∧ t.slm.epoch = epochOf (now s) + 1 ∧
     ∀ n, (SMap.find t.slm.slices n).map (fun x => (x.shares, x.next, x.bytes, x.lastBytes)) = (SMap.find s.slm.slices n).map (fun x => (sharesNext x, none, 0, x.bytes))) ∧
  -- stripePrepare
  (∀ (k g : Nat) (o : OpenSb) (s u : Machine.State), fone s Fld.PLC_CTRL_EN = true → (SMap.find s.plc.streams k).isSome = true → streamFree s k < 65 → (classOf s (keyClass k)).mode ≠ 0 →
     prepareIn s k = some (g, u) → SMap.find u.plc.opens (k * 128 + g) = some o → o.next < setRows u g o.width o.mode o.par7 → o.mode = 0 ∨ 0 < o.width →
     Gives (.stripePrepare k) s fun t => (SMap.find t.plc.stripes u.plc.nextStripe).map (fun st => (st.key, st.group)) = some (some k, g)) ∧
  -- stripePrepare enough
  (∀ (k : Nat) (s : Machine.State), 65 ≤ streamFree s k → Gives (.stripePrepare k) s fun t => t = s) ∧
  -- groupScoreTick
  (∀ (g : Nat) (s : Machine.State), g ∈ groupCount s → Gives .groupScoreTick s fun t => (SMap.find t.plc.score g).isSome = grp s Fld.PLC_GRP_PRESENT_GROUPS g ∧ t.regs = s.regs) ∧
  -- stripeIdlePad
  (∀ (n k : Nat) (st : Stripe) (s : Machine.State), SMap.find s.plc.stripes n = some st → n < s.plc.nextStripe → st.key = some k → pageDone s st = false → (st.members.all fun m => m == .free) = false →
     Gives (.stripeIdlePad n) s fun t => (SMap.find t.plc.stripes n).map (fun x => x.members.contains .free) = some false ∧ now s ≤ now t) ∧
  -- tailFlush
  (∀ (zi id : Nat) (n : Ns) (s : Machine.State), nsOfZone s zi = some (id, n) → (zoneGet s zi).cursor.isSome = true → hasTail s zi = true →
     Gives (.tailFlush zi) s fun t => (zoneGet t zi).cursor = none ∧ (zoneGet t zi).left = true ∧ now s ≤ now t) ∧
  -- directPageProgram
  (∀ (zi n : Nat) (st : Stripe) (s : Machine.State), (zoneGet s zi).cursor = none → SMap.find s.plc.stripes n = some st → (n, st) ∈ zoneStripes s zi → st.members.all settled = true →
     Gives (.directPageProgram zi) s fun t => (SMap.find t.plc.stripes n).map (fun x => x.parity.isSome) = some true ∧ t.zne = s.zne) ∧
  -- groupQuietEnter
  (∀ (g : Fin 128) (s : Machine.State), grp s Fld.PLC_GRP_QUIET_GROUPS g.val = false → fget s Fld.PLC_QUIET_ENTER_US * 1000 < SMap.getD s.plc.rdLog g.val 0 → SMap.find s.plc.quietEnd g.val = none →
     s.plc.quiet.length < fget s Fld.PLC_QUIET_MAX_GROUPS →
     Gives (.groupQuietEnter g) s fun t => t.plc.quiet = SMap.put s.plc.quiet g.val (now s) ∧ grp t Fld.PLC_GRP_QUIET_GROUPS g.val = true) ∧
  -- groupQuietEnter limit
  (∀ (g : Fin 128) (s : Machine.State), grp s Fld.PLC_GRP_QUIET_GROUPS g.val = false → fget s Fld.PLC_QUIET_ENTER_US * 1000 < SMap.getD s.plc.rdLog g.val 0 → SMap.find s.plc.quietEnd g.val = none →
     fget s Fld.PLC_QUIET_MAX_GROUPS ≤ s.plc.quiet.length → Gives (.groupQuietEnter g) s fun t => t.plc = s.plc ∧ fget t Fld.PLC_EVENTS_QUIET_CAP = 1) ∧
  -- groupQuietExit
  (∀ (g : Fin 128) (q : Nat) (s : Machine.State), SMap.find s.plc.quiet g.val = some q → Gives (.groupQuietExit g) s fun t =>
     SMap.find t.plc.quiet g.val = none ∧ SMap.find t.plc.quietEnd g.val = some (now t) ∧ now s ≤ now t) ∧
  -- streamInactive
  (∀ (k : Nat) (x : Machine.Stream) (s : Machine.State), SMap.find s.plc.streams k = some x → (∀ e, e ∈ s.plc.stripes → e.2.key = some k → e.2.members.all (fun m => m == .free) = true) →
     Gives (.streamInactive k) s fun t => SMap.find t.plc.streams k = none ∧ (∀ e, e ∈ t.plc.stripes → e.2.key ≠ some k) ∧ now s ≤ now t) ∧
  -- plcGrpHoldWrite
  (∀ (m : Master) (q : Nat) (i : Fin 4) (v : Word) (s : Machine.State), decideWrite s (whoOf s m) (Reg.PLC_GRP_HOLD i.val) = .admitted q → tailRoom s 9 [i.val, v.toNat] →
     Gives (.plcGrpHoldWrite m i v) s fun t => RegFile.get t.regs (Reg.PLC_GRP_HOLD i.val) = v ∧ t.med.tail = s.med.tail ++ [{ type := 9, seq := s.zne.seq + 1, body := [i.val, v.toNat], iso := none, holds := [] }]) ∧
  -- plcGrpHoldWrite no room
  (∀ (m : Master) (q : Nat) (i : Fin 4) (v : Word) (s : Machine.State), decideWrite s (whoOf s m) (Reg.PLC_GRP_HOLD i.val) = .admitted q → ¬ tailRoom s 9 [i.val, v.toNat] →
     Gives (.plcGrpHoldWrite m i v) s fun t => RegFile.get t.regs (Reg.PLC_GRP_HOLD i.val) = v ∧ t.med = (tailWrite (tailAdd none [] s 9 [i.val, v.toNat]) true).med) ∧
  -- dedicatedGroupRelease
  (∀ (g : Fin 128) (s : Machine.State), grp s Fld.PLC_GRP_DEDICATED_GROUPS g.val = true → isoOf s g.val = none → (∀ e, e ∈ s.med.inUse → e.1 / 1048576 ≠ g.val) →
     (∀ e, e ∈ s.med.erasing → e.1 / 1048576 ≠ g.val) → Gives (.dedicatedGroupRelease g) s fun t => grp t Fld.PLC_GRP_DEDICATED_GROUPS g.val = false) ∧
  -- readServeChoice
  (∀ (x u die b page pos : Nat) (c : Ctx) (k : CUnit) (s : Machine.State), x < bgBase → ctxUnit s x u = some (c, k) → k.st = .waiting → k.loc = .flash die b page pos → s.med.lost.contains (lostKey c.nsid k.unit) = false →
     fone s Fld.DSC_CTRL_EN = true → queueRoom s die = true → parkedOf s die = [] → dieGone s die = false → predictDirect s die (readOp s x u c die b page pos) + fget s Fld.DSC_RB_CTRL_MARGIN_US * 1000 ≤ c.deadline →
     Gives (.readServeChoice x u) s fun t => (ctxUnit t x u).map (fun e => e.2.st) = some (.queued s.dsc.nextId) ∧ ((queueOf t die).any fun o => o.id == s.dsc.nextId) = true) ∧
  -- reboundCombine
  (∀ (id : Nat) (r : Rebound) (c : Ctx) (k : CUnit) (n : Ns) (s : Machine.State), SMap.find s.dsc.rebounds id = some r → r.waiting = [] → r.arrived = [] → r.mandatory = false →
     r.host.1 < bgBase → ctxUnit s r.host.1 r.host.2 = some (c, k) → headerOk s c k r.acc = true → seqOk k r.acc = true → SMap.find s.zne.ns c.nsid = some n →
     Gives (.reboundCombine id) s fun t => (ctxUnit t r.host.1 r.host.2).map (fun e => (e.2.st, e.2.blocks)) = some (.decoded, blocksOf (lbasPerUnit n) (infoPayload r.acc)) ∧
       SMap.find t.dsc.rebounds id = none)

/-- Power states, the issue of die operations, decoding, and background media work (R151, R153, R154, R269, R270, R279, R288, R293,
R302, R308, R310, R318). An entry into PS3 or PS4 holds once stripes and the journal's tail are written and nothing dirty remains,
and the DRAM is then in self-refresh; an excursion leaves and returns; the idle timer of a port moves its request; a die's next
operation is issued when its call is granted; the backlog of a group is the greatest of its dies; the suspend window asks for the
resume; a decoded direct unit with the right header is served; collection takes the closed block with the fewest valid units and wear
levelling the least worn; a rebuild's end, a checkpoint cycle's anchor, and the erase of a journal block with no record newer than the
checkpoint, no chunk and no erase to wait for, are as the rules say. -/
def Obligations.PowerStatesDispatchAndMedia : Prop :=
  -- psEntry
  (∀ (p : Nat) (s : Machine.State), s.hst.psTo = some p → p < 8 → (tailWrite (stripesClose s) true).zne.stg = [] → dirtyBytes (tailWrite (stripesClose s) true) = 0 →
     Gives .psEntry s fun t =>
     effPs t = p ∧ t.hst.psTo = none ∧ fone t Fld.DMC_STATUS_IN_SR = true ∧ fone t Fld.QEN_PS_TRANSITION = false ∧ t.zne = (tailWrite (stripesClose s) true).zne) ∧
  -- psEntry dirty data remain
  (∀ (p : Nat) (s : Machine.State), s.hst.psTo = some p → (tailWrite (stripesClose s) true).zne.stg ≠ [] ∨ dirtyBytes (tailWrite (stripesClose s) true) ≠ 0 →
     Gives .psEntry s fun t => t = tailWrite (stripesClose s) true) ∧
  -- maintenanceExcursion leaves
  (∀ (s : Machine.State), 3 ≤ effPs s → fone s Fld.QEN_PS_EXCURSION = false → Gives .maintenanceExcursion s fun t =>
     fone t Fld.QEN_PS_EXCURSION = true ∧ fone t Fld.DMC_STATUS_IN_SR = false ∧ effPs t = effPs s ∧
     fget t Fld.QEN_PS_COUNT_EXCURSIONS = min 65535 (fget s Fld.QEN_PS_COUNT_EXCURSIONS + 1)) ∧
  -- maintenanceExcursion returns
  (∀ (s : Machine.State), 3 ≤ effPs s → fone s Fld.QEN_PS_EXCURSION = true → Gives .maintenanceExcursion s fun t =>
     fone t Fld.QEN_PS_EXCURSION = false ∧ fone t Fld.DMC_STATUS_IN_SR = true ∧ effPs t = effPs s) ∧
  -- maintenanceExcursion operational
  (∀ (s : Machine.State), effPs s ≤ 2 → Gives .maintenanceExcursion s fun t => t = s) ∧
  -- apstIdleTimer
  (∀ (p : Fin 4) (ms q : Nat) (s : Machine.State), portOff s p.val = false → (SMap.find s.hst.ports p.val).isSome = true → (portGet s p.val).feat.apstOn = true → portIdle s p.val = true →
     SMap.find (portGet s p.val).feat.apst (portGet s p.val).reqPs = some (ms, q) → ms ≠ 0 → fone s Fld.TMB_STATUS_HELD = false → pulsesBlocked s = false →
     Gives (.apstIdleTimer p) s fun t => (portGet t p.val).reqPs = q ∧ now t = max (now s) ((portGet s p.val).idleAt + ms * 1000000) ∧ (q ≤ 2 → (portGet t p.val).lastOp = q)) ∧
  -- apstIdleTimer busy
  (∀ (p : Fin 4) (s : Machine.State), portIdle s p.val = false → Gives (.apstIdleTimer p) s fun t => t = s) ∧
  -- dscIssue
  (∀ (die : Fin 2048) (o : DOp) (s : Machine.State), fone s Fld.DSC_CTRL_EN = true → sentOf s die.val = [] → nextOps s die.val = [o] → callOk s o = true → opPressed s o = false → pfail s = false →
     parkedOf s die.val = [] → (qGet (chsOf s (die.val / 32)) (opQueue o)).length < 64 → Gives (.dscIssue die) s fun t => sentOf t die.val = [o] ∧
       qGet (chsOf t (die.val / 32)) (opQueue o) = qGet (chsOf s (die.val / 32)) (opQueue o) ++ [opDesc s die.val o false] ∧
       queueOf t die.val = (queueOf s die.val).filter (fun x => x.id != o.id)) ∧
  -- dscIssue no call
  (∀ (die : Fin 2048) (o : DOp) (s : Machine.State), nextOps s die.val = [o] → callOk s o = false → Gives (.dscIssue die) s fun t => t = s) ∧
  -- dscIssue die busy
  (∀ (die : Fin 2048) (s : Machine.State), sentOf s die.val ≠ [] → Gives (.dscIssue die) s fun t => t = s) ∧
  -- backlogReport
  (∀ (s : Machine.State), Gives .backlogReport s fun t =>
     (∀ d, (SMap.find s.dsc.queues d).isSome = true → (backlogOf s d).1 ≤ SMap.getD t.plc.rdLog (groupOf d) 0 ∧ (backlogOf s d).2 ≤ SMap.getD t.plc.peLog (groupOf d) 0) ∧
     ∀ g, (SMap.getD t.plc.rdLog g 0 = 0 ∨ ∃ d, groupOf d = g ∧ SMap.getD t.plc.rdLog g 0 = (backlogOf s d).1) ∧
       (SMap.getD t.plc.peLog g 0 = 0 ∨ ∃ d, groupOf d = g ∧ SMap.getD t.plc.peLog g 0 = (backlogOf s d).2)) ∧
  -- suspendWindowExpiry
  (∀ (die : Fin 2048) (l : List DOp) (since : Nat) (s : Machine.State), SMap.find s.dsc.susp die.val = some (l, since) → fone s Fld.TMB_STATUS_HELD = false → pulsesBlocked s = false →
     Gives (.suspendWindowExpiry die) s fun t => t.dsc.back.contains die.val = true ∧ (∀ d, d ∈ s.dsc.back → d ∈ t.dsc.back) ∧
       now t = max (now s) (since + fget s Fld.DSC_SUSPEND_TIME_WINDOW_US * 1000)) ∧
  -- dscPredBankSwitch
  (∀ (m : Master) (q : Nat) (v : Word) (s : Machine.State), decideWrite s (whoOf s m) Reg.DSC_PRED_BANK = .admitted q →
     Gives (.dscPredBankSwitch m v) s fun t => fget t Fld.DSC_PRED_BANK_ACTIVE = v.toNat % 2 ∧ t.dsc = s.dsc ∧ fabSays t ST_OK 0 false) ∧
  -- dscLatClear
  (∀ (m : Master) (q : Nat) (v : Word) (s : Machine.State), decideWrite s (whoOf s m) Reg.DSC_LAT_SEL = .admitted q → bit v.toNat 8 = true →
     Gives (.dscLatClear m v) s fun t => t.dsc = { s.dsc with bins := [] } ∧ fget t Fld.DSC_LAT_SEL_CLASS = v.toNat % 4) ∧
  -- dscLatClear no clear
  (∀ (m : Master) (q : Nat) (v : Word) (s : Machine.State), decideWrite s (whoOf s m) Reg.DSC_LAT_SEL = .admitted q → bit v.toNat 8 = false →
     Gives (.dscLatClear m v) s fun t => t.dsc = s.dsc ∧ fget t Fld.DSC_LAT_SEL_CLASS = v.toNat % 4) ∧
  -- ldpcDecode
  (∀ (x u die b page pos : Nat) (c : Ctx) (k : CUnit) (n : Ns) (s : Machine.State), fone s Fld.LDC_CTRL_EN = true → x < bgBase → ctxUnit s x u = some (c, k) → k.loc = .flash die b page pos → k.st = .arrived →
     headerOk s c k (unitAt s die (srcPhys s die b page) page pos) = true → seqOk k (unitAt s die (srcPhys s die b page) page pos) = true →
     SMap.find s.zne.ns c.nsid = some n → Gives (.ldpcDecode x u .hard) s fun t => (ctxUnit t x u).map (fun e => (e.2.st, e.2.blocks)) =
       some (.decoded, blocksOf (lbasPerUnit n) (infoPayload (unitAt s die (srcPhys s die b page) page pos)))) ∧
  -- ldpcDecode disabled
  (∀ (x u : Nat) (d : Decode) (s : Machine.State), fone s Fld.LDC_CTRL_EN = false → Gives (.ldpcDecode x u d) s fun t => t = s) ∧
  -- collectionTrigger
  (∀ (cls : Nat) (v : Nat × SbUse) (s : Machine.State), collClass s = some cls → victim s = some v → bgStopped s = false → (s.med.copies.any fun c => sbKey c.group c.block == v.1) = false →
     Gives .collectionTrigger s fun t => t.med.copies = s.med.copies ++ [{ why := 1, group := v.1 / 1048576, block := v.1 % 1048576 }] ∧
       v ∈ s.med.inUse ∧ ∀ e, e ∈ s.med.inUse → e.2.full = true → e.2.conv = true → convIn s e.1 = true → copying s e.1 = false → v.2.valid ≤ e.2.valid) ∧
  -- collectionTrigger stopped
  (∀ (s : Machine.State), bgStopped s = true → Gives .collectionTrigger s fun t => t = s) ∧
  -- wearLevelTrigger
  (∀ (g : Fin 128) (a : Nat × SbUse) (b : Nat × Blk) (s : Machine.State), a ∈ s.med.inUse → b ∈ s.med.blocks → a.1 / 1048576 = g.val → groupOf (b.1 / 1048576) = g.val → a.2.full = true → a.2.valid ≠ 0 →
     b.2.retired = false → b.2.spare = false → sbPe s g.val (a.1 % 1048576) + 4 * fget s Fld.LDC_MED_WL_SPREAD < b.2.pe → bgStopped s = false →
     (s.med.copies.any fun c => c.why == 2 && c.group == g.val) = false →
     Gives (.wearLevelTrigger g) s fun t => ∃ k, t.med.copies = s.med.copies ++ [{ why := 2, group := g.val, block := k }] ∧
       ∀ e, e ∈ s.med.inUse → e.1 / 1048576 = g.val → e.2.full = true → e.2.valid ≠ 0 → sbPe s g.val k ≤ sbPe s g.val (e.1 % 1048576)) ∧
  -- wearLevelTrigger stopped
  (∀ (g : Fin 128) (s : Machine.State), bgStopped s = true → Gives (.wearLevelTrigger g) s fun t => t = s) ∧
  -- rebuildDone
  (∀ (die : Fin 2048) (r : Rebuild) (ms : List Nat) (s : Machine.State), (s.med.rebuilds.find? fun x => x.die == die.val) = some r → SMap.getD s.med.dies die.val 0 ≠ 3 →
     ms = (SMap.getD s.med.losses (groupOf die.val) []).filter (fun m => m != memberOf die.val) → tailRoom s 7 [die.val, 3] →
     Gives (.rebuildDone die) s fun t => t.med.rebuilds = s.med.rebuilds.filter (fun x => x.die != die.val) ∧ fone t Fld.LDC_MED_EVENTS_REBUILD_DONE = true ∧
       SMap.find t.med.losses (groupOf die.val) = (if ms = [] then none else some ms) ∧
       t.med.tail = s.med.tail ++ [{ type := 7, seq := s.zne.seq + 1, body := [die.val, 3], iso := none, holds := [] }] ∧
       (t.med.rebuilds = [] → fone t Fld.LDC_MED_REBUILD_ACTIVE = false)) ∧
  -- checkpointCycleEnd
  (∀ (s : Machine.State), Gives .checkpointCycleEnd s fun t => t.med.anchors = s.med.anchors + 1 ∧ t.med.anchor = some (s.med.nextMeta, s.med.ckptSeq) ∧ t.med.ckptDone = s.med.ckptSeq ∧
     t.med.ckptSeq = t.zne.seq ∧ s.zne.seq ≤ t.zne.seq ∧ t.med.jrnUnits = 0 ∧ t.med.ckptAt = now t ∧ t.zne = { s.zne with seq := t.zne.seq } ∧
     (fget s Fld.LDC_MED_CKPT_JRN_MAX_MIB * 256 ≤ s.med.jrnUnits → t.med.tail = (tailWrite (chunksWrite s s.med.anchors) true).med.tail ∧ now t = now s)) ∧
  -- journalBlockErase
  (∀ (g : Fin 128) (b : Nat) (j : JBlk) (s : Machine.State), SMap.find s.med.jblks (sbKey g.val b) = some j → j.newest < s.med.ckptDone → j.waits = [] →
     (metaIn s g.val b).all (fun e => e.2.chunk.isNone) = true →
     Gives (.journalBlockErase g b) s fun t => t.med.jblks = SMap.del s.med.jblks (sbKey g.val b) ∧ SMap.find t.med.inUse (sbKey g.val b) = none ∧
       metaIn t g.val b = []) ∧
  -- journalBlockErase kept
  (∀ (g : Fin 128) (b : Nat) (j : JBlk) (s : Machine.State), SMap.find s.med.jblks (sbKey g.val b) = some j →
     s.med.ckptDone ≤ j.newest ∨ j.waits ≠ [] ∨ (metaIn s g.val b).all (fun e => e.2.chunk.isNone) = false →
     Gives (.journalBlockErase g b) s fun t => t = s)

/-- Descriptors are taken by the channel sequencers (R335, R338, R339, R340, R342, R343, R349, R352, R354). The sequencer takes a
descriptor that passes the checks out of its queue into its die's context, which then waits for the bus; a read into DRAM past DMC_TOP or
of a block whose erase is suspended, a program or erase on a suspended die, and an erase with a full sequence table are completed without
touching the die; a program out of sequence cards the sequencer; SEQ_CLOSE removes its entry; a CUSTOMER descriptor starts its routine at
its entry word, and END completes it. -/
def Obligations.DescriptorsTaken : Prop :=
  -- descRead
  (∀ (ch : Fin 64) (q : Fin 4) (i : Nat) (d : Desc) (s : Machine.State), chsReady s ch.val = true →
     pickChain (chsOf s ch.val) q.val headRead = some (i, [d]) → descBad s ch.val q.val d = false → pfail s = false →
     fone s (Fld.CHS_POST_GO_GO ch.val) = false → refsOut s [d] = false → eraseHeld (chsOf s ch.val) d.die d.block = false →
     Gives (.descRead ch q) s fun t => chsRuns s t ch.val q.val i [d]) ∧
  -- descRead past DMC_TOP
  (∀ (ch : Fin 64) (q : Fin 4) (i : Nat) (d : Desc) (s : Machine.State), chsReady s ch.val = true →
     pickChain (chsOf s ch.val) q.val headRead = some (i, [d]) → descBad s ch.val q.val d = false → pfail s = false →
     fone s (Fld.CHS_POST_GO_GO ch.val) = false → refsOut s [d] = true → Gives (.descRead ch q) s fun t =>
       chsGave s t ch.val (refusedEnt d ST_DRAM_RANGE) ∧ fone t Fld.DMC_EVENTS_RANGE_ERROR = true) ∧
  -- descRead suspended erase
  (∀ (ch : Fin 64) (q : Fin 4) (i : Nat) (d : Desc) (s : Machine.State), chsReady s ch.val = true →
     pickChain (chsOf s ch.val) q.val headRead = some (i, [d]) → descBad s ch.val q.val d = false → pfail s = false →
     fone s (Fld.CHS_POST_GO_GO ch.val) = false → refsOut s [d] = false → eraseHeld (chsOf s ch.val) d.die d.block = true → Gives (.descRead ch q) s fun t =>
       chsGave s t ch.val (refusedEnt d ST_ERASE_SUSPENDED) ∧ fone t (Fld.CHS_EVENTS_ERASE_SUSP_REFUSED ch.val) = true) ∧
  -- descProgram
  (∀ (ch : Fin 64) (q i : Nat) (d : Desc) (s : Machine.State), chsTakes s ch.val 2 false q i [d] → SMap.find (chsOf s ch.val).slot d.die = none → seqPermits (chsOf s ch.val) d = true →
     Gives (.descProgram ch) s fun t => chsRuns s t ch.val q i [d]) ∧
  -- descProgram out of sequence
  (∀ (ch : Fin 64) (q i : Nat) (d : Desc) (s : Machine.State), chsTakes s ch.val 2 false q i [d] → SMap.find (chsOf s ch.val).slot d.die = none → seqPermits (chsOf s ch.val) d = false →
     Gives (.descProgram ch) s fun t => carded t (midChs ch.val) = true) ∧
  -- descJoinedProgram
  (∀ (ch : Fin 64) (q i : Nat) (d : Desc) (l : List Desc) (s : Machine.State), chsTakes s ch.val 2 true q i (d :: l) → SMap.find (chsOf s ch.val).slot d.die = none →
     (∀ x, x ∈ d :: l → seqPermits (chsOf s ch.val) x = true) → Gives (.descJoinedProgram ch) s fun t => chsRuns s t ch.val q i (d :: l)) ∧
  -- descErase
  (∀ (ch : Fin 64) (q i : Nat) (d : Desc) (s : Machine.State), chsTakes s ch.val 3 false q i [d] → SMap.find (chsOf s ch.val).slot d.die = none →
     ((seqFind (chsOf s ch.val) d.die d.block).isSome || (seqFree (chsOf s ch.val) d.die).isSome) = true → Gives (.descErase ch) s fun t => chsRuns s t ch.val q i [d]) ∧
  -- descErase table full
  (∀ (ch : Fin 64) (q i : Nat) (d : Desc) (s : Machine.State), chsTakes s ch.val 3 false q i [d] → SMap.find (chsOf s ch.val).slot d.die = none →
     seqFind (chsOf s ch.val) d.die d.block = none → seqFree (chsOf s ch.val) d.die = none → Gives (.descErase ch) s fun t =>
       chsGave s t ch.val (refusedEnt d ST_SEQ_FULL) ∧ fone t (Fld.CHS_EVENTS_SEQ_FULL ch.val) = true) ∧
  -- descErase suspended die
  (∀ (ch : Fin 64) (q i : Nat) (d : Desc) (s : Machine.State), chsTakes s ch.val 3 false q i [d] → (SMap.find (chsOf s ch.val).slot d.die).isSome = true →
     Gives (.descErase ch) s fun t => chsGave s t ch.val (refusedEnt d ST_DIE_SUSPENDED)) ∧
  -- descReadStatus
  (∀ (ch : Fin 64) (q i : Nat) (d : Desc) (s : Machine.State), chsTakes s ch.val 4 false q i [d] → Gives (.descReadStatus ch) s fun t => chsRuns s t ch.val q i [d]) ∧
  -- descGetFeatures
  (∀ (ch : Fin 64) (q i : Nat) (d : Desc) (s : Machine.State), chsTakes s ch.val 5 false q i [d] → Gives (.descGetFeatures ch) s fun t => chsRuns s t ch.val q i [d]) ∧
  -- descSetFeatures
  (∀ (ch : Fin 64) (q i : Nat) (d : Desc) (s : Machine.State), chsTakes s ch.val 6 false q i [d] → Gives (.descSetFeatures ch) s fun t => chsRuns s t ch.val q i [d]) ∧
  -- descReadId
  (∀ (ch : Fin 64) (q i : Nat) (d : Desc) (s : Machine.State), chsTakes s ch.val 7 false q i [d] → Gives (.descReadId ch) s fun t => chsRuns s t ch.val q i [d]) ∧
  -- descReadParam
  (∀ (ch : Fin 64) (q i : Nat) (d : Desc) (s : Machine.State), chsTakes s ch.val 8 false q i [d] → Gives (.descReadParam ch) s fun t => chsRuns s t ch.val q i [d]) ∧
  -- descResetDie
  (∀ (ch : Fin 64) (q i : Nat) (d : Desc) (s : Machine.State), chsTakes s ch.val 9 false q i [d] → Gives (.descResetDie ch) s fun t => chsRuns s t ch.val q i [d]) ∧
  -- descZqCal
  (∀ (ch : Fin 64) (q i : Nat) (d : Desc) (s : Machine.State), chsTakes s ch.val 10 false q i [d] → Gives (.descZqCal ch) s fun t => chsRuns s t ch.val q i [d]) ∧
  -- descTrain
  (∀ (ch : Fin 64) (q i : Nat) (d : Desc) (s : Machine.State), chsTakes s ch.val 11 false q i [d] → Gives (.descTrain ch) s fun t => chsRuns s t ch.val q i [d]) ∧
  -- seqClose
  (∀ (ch : Fin 64) (q i : Nat) (d : Desc) (s : Machine.State), chsTakes s ch.val 12 false q i [d] → Gives (.seqClose ch) s fun t =>
     (chsOf t ch.val).seq = (seqDel (chsOf s ch.val) d.die d.block).seq ∧ (chsOf t ch.val).ctx = (chsOf s ch.val).ctx ∧ chsGave s t ch.val (refusedEnt d ST_OK)) ∧
  -- descCustomer
  (∀ (ch : Fin 64) (q i : Nat) (d : Desc) (s : Machine.State), chsReady s ch.val = true → custCtx (chsOf s ch.val) = none →
     pickAny (chsOf s ch.val) headCust = some (q, i, [d]) → descBad s ch.val q d = false → pfail s = false →
     fone s (Fld.CHS_POST_GO_GO ch.val) = false → Gives (.descCustomer ch []) s fun t =>
       SMap.find (chsOf t ch.val).ctx d.die = some { ctxNew [d] q (now s) with addr := 6144 + (d.op - 0x80) }) ∧
  -- descCustomer end word
  (∀ (ch : Fin 64) (p m : Nat) (d : Desc) (x : DieCtx) (s : Machine.State), (chsOf s ch.val).mc = false → carded s (midChs ch.val) = false →
     SMap.find (chsOf s ch.val).ctx p = some x → x.chain = [d] → 0x80 ≤ d.op → (chsOf s ch.val).cur = none → smpPos m = p → custCtx (chsOf s ch.val) ≠ none →
     (chsOf s ch.val).entries ≤ x.addr - 6144 → 6144 ≤ x.addr → x.addr < 6208 → pfail s = false → chsRoom s ch.val → Gives (.descCustomer ch [m]) s fun t =>
       SMap.find (chsOf t ch.val).ctx p = none ∧ chsGave s t ch.val (ctxEnt x d (x.status.getD ST_OK) x.array x.dstat))

/-- Posts, completions, suspends, the bus, checks and the collector (R335, R336, R345, R346, R347, R350, R351, R353, R355, R358, R359,
R360). A posted descriptor joins its queue while the deadline scheduler is off; the end of an operation or its timeout frees the context,
updates the sequence table and gives one entry; a timeout squashes an operation suspended on the die; a suspend moves the context to the
die's slot, not that of an urgent operation, and a resume moves it back, not into a context that holds a completion; the bus goes to the
next context that wants it, which in power-fail ends unless it flushes, and a customer routine keeps it; a routine past its yield interval
or its time bound cards the sequencer and a parity error also stops it; a reset empties it; the collector takes the oldest entry of the
channel whose turn it is and forwards one that is not of the scheduler's operations. -/
def Obligations.SequencersAndCollector : Prop :=
  -- chsPost
  (∀ (m : Master) (ch : Fin 64) (v : Word) (k : Nat) (s : Machine.State), decideWrite s (whoOf s m) (Reg.CHS_POST_GO ch.val) = .admitted k → chPresent s ch.val = true → fone s Fld.DSC_CTRL_EN = false →
     bit v.toNat 8 = true → (qGet (chsOf s ch.val) (bits v.toNat 0 2)).length < 64 → carded s (midChs ch.val) = false → opKnown (descOf fun k => rget s (Reg.CHS_POST_D ch.val k)).op = true →
     Gives (.chsPost m ch v) s fun t => qGet (chsOf t ch.val) (bits v.toNat 0 2) = qGet (chsOf s ch.val) (bits v.toNat 0 2) ++ [descOf fun k => rget s (Reg.CHS_POST_D ch.val k)] ∧
       fone t (Fld.CHS_POST_GO_GO ch.val) = false) ∧
  -- chsPost to a carded sequencer
  (∀ (m : Master) (ch : Fin 64) (v : Word) (k : Nat) (s : Machine.State), decideWrite s (whoOf s m) (Reg.CHS_POST_GO ch.val) = .admitted k → chPresent s ch.val = true → fone s Fld.DSC_CTRL_EN = false →
     bit v.toNat 8 = true → (qGet (chsOf s ch.val) (bits v.toNat 0 2)).length < 64 → carded s (midChs ch.val) = true → chsRoom s ch.val →
     Gives (.chsPost m ch v) s fun t => chsGave s t ch.val (refusedEnt (descOf fun k => rget s (Reg.CHS_POST_D ch.val k)) ST_CARDED) ∧ fone t (Fld.CHS_POST_GO_GO ch.val) = false) ∧
  -- chsPost scheduler enabled
  (∀ (m : Master) (ch : Fin 64) (v : Word) (s : Machine.State), fone s Fld.DSC_CTRL_EN = true → Gives (.chsPost m ch v) s fun t => t.flash = s.flash) ∧
  -- operationComplete program
  (∀ (ch : Fin 64) (p : Fin 32) (array dstat fails : Nat) (vals : List Nat) (d : Desc) (x : DieCtx) (s : Machine.State), SMap.find (chsOf s ch.val).ctx p.val = some x → x.chain = [d] → d.op = 2 →
     (chsOf s ch.val).mc = false → p.val ∉ (chsOf s ch.val).want → chsRoom s ch.val → fails.testBit 0 = false → Gives (.operationComplete ch p array dstat fails vals) s fun t =>
       SMap.find (chsOf t ch.val).ctx p.val = none ∧ (chsOf t ch.val).seq = (seqAdvance (chsOf s ch.val) p.val d.block (pagesOf s ch.val d.mode)).seq ∧ chsGave s t ch.val (ctxEnt x d ST_OK (array / 40 * 40) dstat)) ∧
  -- operationComplete program fails
  (∀ (ch : Fin 64) (p : Fin 32) (array dstat fails : Nat) (vals : List Nat) (d : Desc) (x : DieCtx) (s : Machine.State), SMap.find (chsOf s ch.val).ctx p.val = some x → x.chain = [d] → d.op = 2 →
     (chsOf s ch.val).mc = false → p.val ∉ (chsOf s ch.val).want → chsRoom s ch.val → fails.testBit 0 = true → Gives (.operationComplete ch p array dstat fails vals) s fun t =>
       SMap.find (chsOf t ch.val).ctx p.val = none ∧ (chsOf t ch.val).seq = (seqDel (chsOf s ch.val) p.val d.block).seq ∧ chsGave s t ch.val (ctxEnt x d ST_PROGRAM_FAIL (array / 40 * 40) dstat) ∧
       fone t (Fld.CHS_EVENTS_PROGRAM_FAIL ch.val) = true) ∧
  -- operationComplete erase
  (∀ (ch : Fin 64) (p : Fin 32) (array dstat fails : Nat) (vals : List Nat) (d : Desc) (x : DieCtx) (s : Machine.State), SMap.find (chsOf s ch.val).ctx p.val = some x → x.chain = [d] → d.op = 3 →
     (chsOf s ch.val).mc = false → p.val ∉ (chsOf s ch.val).want → chsRoom s ch.val → fails.testBit 0 = false → Gives (.operationComplete ch p array dstat fails vals) s fun t =>
       SMap.find (chsOf t ch.val).ctx p.val = none ∧ (chsOf t ch.val).seq = (seqErase (chsOf s ch.val) p.val d.block d.mode).seq ∧ chsGave s t ch.val (ctxEnt x d ST_OK (array / 40 * 40) dstat)) ∧
  -- operationComplete not begun
  (∀ (ch : Fin 64) (p : Fin 32) (array dstat fails : Nat) (vals : List Nat) (s : Machine.State), p.val ∈ (chsOf s ch.val).want → Gives (.operationComplete ch p array dstat fails vals) s fun t => t = s) ∧
  -- dieTimeout
  (∀ (ch : Fin 64) (p : Fin 32) (d : Desc) (x : DieCtx) (s : Machine.State), SMap.find (chsOf s ch.val).ctx p.val = some x → x.chain = [d] → (chsOf s ch.val).mc = false → p.val ∉ (chsOf s ch.val).want →
     SMap.find (chsOf s ch.val).slot p.val = none → chsRoom s ch.val → Gives (.dieTimeout ch p) s fun t => SMap.find (chsOf t ch.val).ctx p.val = none ∧ SMap.find (chsOf t ch.val).slot p.val = none ∧
       chsGave s t ch.val (ctxEnt x d ST_DIE_TIMEOUT 0 x.dstat) ∧ fone t (Fld.CHS_EVENTS_DIE_TIMEOUT ch.val) = true) ∧
  -- dieTimeout with a suspended operation
  (∀ (ch : Fin 64) (p : Fin 32) (d e : Desc) (x y : DieCtx) (s : Machine.State), SMap.find (chsOf s ch.val).ctx p.val = some x → x.chain = [d] → (chsOf s ch.val).mc = false → p.val ∉ (chsOf s ch.val).want →
     SMap.find (chsOf s ch.val).slot p.val = some y → y.chain = [e] → (chsOf s ch.val).fifo.length < 15 → (chsOf s ch.val).ovr = [] → Gives (.dieTimeout ch p) s fun t =>
       SMap.find (chsOf t ch.val).ctx p.val = none ∧ (chsOf t ch.val).slot = SMap.del (chsOf s ch.val).slot p.val ∧
       (chsOf t ch.val).fifo = (chsOf s ch.val).fifo ++ [ctxEnt y e ST_SQUASHED 0 y.dstat, ctxEnt x d ST_DIE_TIMEOUT 0 x.dstat] ∧ fone t (Fld.CHS_EVENTS_DIE_TIMEOUT ch.val) = true) ∧
  -- suspendTaken
  (∀ (ch : Fin 64) (p : Fin 32) (x : DieCtx) (s : Machine.State), s.dsc.asked.contains (32 * ch.val + p.val) = true → SMap.find (chsOf s ch.val).ctx p.val = some x →
     (x.chain.any fun d => d.op == 2 || d.op == 3) = true → x.vis = true → x.commit = false → (chsOf s ch.val).mc = false → p.val ∉ (chsOf s ch.val).want → SMap.find (chsOf s ch.val).slot p.val = none →
     (runOf s (32 * ch.val + p.val)).any (·.urgent) = false → chsRoom s ch.val → Gives (.suspendTaken ch p) s fun t => SMap.find (chsOf t ch.val).slot p.val = some { x with susp := x.susp + 1 } ∧ SMap.find (chsOf t ch.val).ctx p.val = none ∧
       chsGave s t ch.val (suspEnt { x with susp := x.susp + 1 } 0xF1 (x.susp + 1)) ∧ t.dsc.asked.contains (32 * ch.val + p.val) = false) ∧
  -- suspendTaken urgent
  (∀ (ch : Fin 64) (p : Fin 32) (s : Machine.State), (runOf s (32 * ch.val + p.val)).any (·.urgent) = true →
     Gives (.suspendTaken ch p) s fun t => t.flash = s.flash ∧ t.dsc.asked.contains (32 * ch.val + p.val) = false) ∧
  -- suspendTaken committed
  (∀ (ch : Fin 64) (p : Fin 32) (x : DieCtx) (s : Machine.State), SMap.find (chsOf s ch.val).ctx p.val = some x → x.commit = true →
     Gives (.suspendTaken ch p) s fun t => t.flash = s.flash ∧ t.dsc.asked.contains (32 * ch.val + p.val) = false) ∧
  -- resumeTaken
  (∀ (ch : Fin 64) (p : Fin 32) (x : DieCtx) (s : Machine.State), SMap.find (chsOf s ch.val).slot p.val = some x → (chsOf s ch.val).mc = false → carded s (midChs ch.val) = false → pfail s = false → SMap.find (chsOf s ch.val).ctx p.val = none →
     resumeCall s (32 * ch.val + p.val) = true → resumeDue s (32 * ch.val + p.val) = true → chsRoom s ch.val → Gives (.resumeTaken ch p) s fun t =>
       SMap.find (chsOf t ch.val).ctx p.val = some { x with yieldAt := now s } ∧ SMap.find (chsOf t ch.val).slot p.val = none ∧ chsGave s t ch.val (suspEnt x 0xF2 x.susp)) ∧
  -- resumeTaken while the context holds a completion
  (∀ (ch : Fin 64) (p : Fin 32) (s : Machine.State), ((chsOf s ch.val).ovr.any fun e => e.die == p.val) = true → Gives (.resumeTaken ch p) s fun t => t = s) ∧
  -- resumeTaken power-fail
  (∀ (ch : Fin 64) (p : Fin 32) (s : Machine.State), pfail s = true → Gives (.resumeTaken ch p) s fun t => t = s) ∧
  -- yieldOverrun
  (∀ (ch : Fin 64) (p : Fin 32) (a : Nat) (x : DieCtx) (s : Machine.State), chPresent s ch.val = true → SMap.find (chsOf s ch.val).ctx p.val = some x →
     ctxRuns (chsOf s ch.val) p.val x = true → (chsOf s ch.val).mc = false → x.yieldAt + yieldUs s ch.val * 1000 ≤ now (reach s (x.yieldAt + yieldUs s ch.val * 1000)) →
     Gives (.yieldOverrun ch p a) s fun t => carded t (midChs ch.val) = true) ∧
  -- yieldOverrun at a yield point
  (∀ (ch : Fin 64) (p : Fin 32) (a : Nat) (x : DieCtx) (s : Machine.State), SMap.find (chsOf s ch.val).ctx p.val = some x → ctxRuns (chsOf s ch.val) p.val x = false →
     Gives (.yieldOverrun ch p a) s fun t => t = s) ∧
  -- busGrant
  (∀ (ch : Fin 64) (p : Nat) (x : DieCtx) (s : Machine.State), busKept (chsOf s ch.val) = false → busNext s ch.val = some p → SMap.find (chsOf s ch.val).ctx p = some x → failStops s x = false →
     Gives (.busGrant ch) s fun t => (chsOf t ch.val).bus = some p ∧ (chsOf t ch.val).token = (p + 1) % 32 ∧ p ∉ (chsOf t ch.val).want ∧ p ∈ (chsOf s ch.val).want) ∧
  -- busGrant in power-fail
  (∀ (ch : Fin 64) (p : Nat) (d : Desc) (x : DieCtx) (s : Machine.State), busKept (chsOf s ch.val) = false → busNext s ch.val = some p → SMap.find (chsOf s ch.val).ctx p = some x → failStops s x = true → x.chain = [d] → chsRoom s ch.val →
     Gives (.busGrant ch) s fun t => SMap.find (chsOf t ch.val).ctx p = none ∧ chsGave s t ch.val (refusedEnt d ST_SQUASHED)) ∧
  -- busGrant idle
  (∀ (ch : Fin 64) (s : Machine.State), busKept (chsOf s ch.val) = false → (chsOf s ch.val).want = [] → Gives (.busGrant ch) s fun t => (chsOf t ch.val).bus = none) ∧
  -- busGrant kept
  (∀ (ch : Fin 64) (s : Machine.State), busKept (chsOf s ch.val) = true → Gives (.busGrant ch) s fun t => t = s) ∧
  -- collectorTake
  (∀ (k : Nat) (e : CEnt) (l : List CEnt) (s : Machine.State), (((List.range 64).map fun i => (s.flash.token + i) % 64).find? fun ch => !(chsOf s ch).fifo.isEmpty) = some k → (chsOf s k).fifo = e :: l →
     e.op ≠ 0xF1 → e.op ≠ 0xF2 → atSeq s (32 * k + e.die) = [] → SMap.find s.dsc.susp (32 * k + e.die) = none → fone s (Fld.CHS_CTRL_RESET k) = false →
     Gives .collectorTake s fun t => (chsOf t k).fifo = l ++ (chsOf s k).ovr.take 1 ∧ (chsOf t k).ovr = (chsOf s k).ovr.drop 1 ∧ t.flash.token = (k + 1) % 64 ∧
       t.flash.results = s.flash.results ++ [(k, e)]) ∧
  -- collectorTake read
  (∀ (k x u : Nat) (e : CEnt) (l : List CEnt) (o : DOp) (s : Machine.State), (((List.range 64).map fun i => (s.flash.token + i) % 64).find? fun ch => !(chsOf s ch).fifo.isEmpty) = some k → (chsOf s k).fifo = e :: l →
     e.op = 1 → e.status = ST_OK → e.fatal = false → SMap.find s.dsc.susp (32 * k + e.die) = none → ((atSeq s (32 * k + e.die)).find? fun o => o.id == e.tag && o.kind + 1 == e.op) = some o → o.rebound = none → o.host = some (x, u) → x < bgBase → (ctxUnit s x u).isSome = true →
     Gives .collectorTake s fun t => (ctxUnit t x u).map (fun c => c.2.st) = some .arrived) ∧
  -- collectorTake empty
  (∀ (s : Machine.State), (∀ k, (chsOf s k).fifo = []) → Gives .collectorTake s fun t => t = s) ∧
  -- controlStoreParity
  (∀ (ch : Fin 64) (a : Nat) (scrub : Bool) (s : Machine.State), chPresent s ch.val = true → (chsOf s ch.val).mc = false →
     Gives (.controlStoreParity ch a scrub) s fun t => carded t (midChs ch.val) = true ∧ (chsOf t ch.val).mc = true ∧ (chsOf t ch.val).ctx = [] ∧ (chsOf t ch.val).bus = none) ∧
  -- csScrubPass
  (∀ (ch : Fin 64) (s : Machine.State), chPresent s ch.val = true → Gives (.csScrubPass ch) s fun t =>
     fget t (Fld.CHS_SCRUB_PASSES ch.val) = min 65535 (fget s (Fld.CHS_SCRUB_PASSES ch.val) + 1) ∧ fget t (Fld.CHS_SCRUB_NEXT ch.val) = 0 ∧ t.flash = s.flash) ∧
  -- sequencerReset
  (∀ (m : Master) (ch : Fin 64) (k : Nat) (s : Machine.State), decideWrite s (whoOf s m) (Reg.CHS_CTRL ch.val) = .admitted k → chPresent s ch.val = true → fone s (Fld.CHS_CTRL_RESET ch.val) = false → fone s (Fld.CHS_POST_GO_GO ch.val) = false →
     Gives (.sequencerReset m ch) s fun t => (∀ q, qGet (chsOf t ch.val) q = []) ∧ (chsOf t ch.val).ctx = [] ∧ (chsOf t ch.val).slot = [] ∧ (chsOf t ch.val).seq = [] ∧
       (chsOf t ch.val).bus = none ∧ (chsOf t ch.val).want = []) ∧
  -- sequencerReset under way
  (∀ (m : Master) (ch : Fin 64) (s : Machine.State), fone s (Fld.CHS_CTRL_RESET ch.val) = true → Gives (.sequencerReset m ch) s fun t => t.flash = s.flash) ∧
  -- customerRoutineOverrun
  (∀ (ch : Fin 64) (p : Fin 32) (a : Nat) (x : DieCtx) (s : Machine.State), chPresent s ch.val = true → SMap.find (chsOf s ch.val).ctx p.val = some x → (x.chain.any fun d => decide (0x80 ≤ d.op)) = true →
     x.began + fget s (Fld.CHS_YIELD_CUST_MAX_US ch.val) * 1000 ≤ now (reach s (x.began + fget s (Fld.CHS_YIELD_CUST_MAX_US ch.val) * 1000)) →
     Gives (.customerRoutineOverrun ch p a) s fun t => carded t (midChs ch.val) = true)

/-- Release, reset flushes, the ends of power, fuses and the thermal trip (R54, R61, R450, R451, R531, R532, R536, R540, R549, R599, R608,
R609). The compute die leaves reset after COMPUTE_PGOOD while SYS_RESET_N is high, each boot is counted, and the recovery pin leads to
recovery; the flush copies every staged unit to the emergency blocks, and the index's end releases the supplies with a loss record when
pulses were not blocked; cold and warm resets begin a reset flush with their type and cause; FALLBACK excludes the running slot before it
does; either bit, written again while it reads 1, does nothing more; a counter is raised to its target while the boot latch is open, a
revocation adds its keys; a sensor's reading is shown or the sensor is faulted; a reading that stays at the threshold trips. -/
def Obligations.ResetsFlushesFusesAndSensors : Prop :=
  -- computeResetRelease
  (∀ (s : Machine.State), s.sgd.pgood = true → s.sgd.pwrEn = true → s.sgd.released = false → s.bot.ball = false → s.cls.dead = false →
     Gives .computeResetRelease s fun t => t.sgd.released = true ∧ t.bot.run = true ∧ t.bot.want = s.bot.want ∧ t.bot.ball = false ∧
       min 4294967295 (s.tmb.boots + 1) ≤ t.tmb.boots ∧ t.tmb.boots ≤ s.tmb.boots + 4 ∧ t.part = s.part ∧ now s ≤ now t) ∧
  -- computeResetRelease recovery pin
  (∀ (s : Machine.State), s.sgd.pgood = true → s.sgd.pwrEn = true → s.sgd.released = false → s.bot.ball = false → s.cls.dead = false → s.part.recoverN = true →
     Gives .computeResetRelease s fun t => t.sgd.released = true ∧ t.bot.recovery = true ∧ t.tmb.boots = min 4294967295 (s.tmb.boots + 1)) ∧
  -- computeResetRelease held
  (∀ (s : Machine.State), s.bot.ball = true → Gives .computeResetRelease s fun t => t = s) ∧
  -- emergencyFlushDone
  (∀ (s : Machine.State), s.sgd.pfail = true → s.sgd.step < 7 → Gives .emergencyFlushDone s fun t => t.sgd.step = 7 ∧ t.sgd.pfail = true ∧
     t.med = (emgFlush s).med ∧ t.med.emg = s.zne.stg.map (·.1) ∧ t.zne = s.zne) ∧
  -- emergencyFlushDone no power-fail
  (∀ (s : Machine.State), s.sgd.pfail = false → Gives .emergencyFlushDone s fun t => t = s) ∧
  -- emergencyIndexProgrammed
  (∀ (s : Machine.State), s.sgd.pfail = true → s.sgd.step = 7 → s.sgd.sgFail = true → fone s Fld.CLS_STATUS_BLOCK_AON = false →
     Gives .emergencyIndexProgrammed s fun t => t.sgd.pwrEn = false ∧ t.sgd.released = false ∧ t.bot.run = false ∧ t.bot.ran = false ∧
       t.bot.loss = some (s.sgd.cause, s.sgd.dirtyAt, (now s - s.sgd.failAt) / 1000, fget s Fld.SGD_HU_STATE_VBANK_10MV, s.sgd.low)) ∧
  -- emergencyIndexProgrammed pulses blocked
  (∀ (s : Machine.State), s.sgd.pfail = true → s.sgd.step = 7 → s.sgd.sgFail = true → fone s Fld.CLS_STATUS_BLOCK_AON = true →
     Gives .emergencyIndexProgrammed s fun t => t.sgd.pwrEn = false ∧ t.sgd.released = false ∧ t.bot.run = false ∧ t.bot.ran = s.bot.ran ∧ t.bot.loss = none) ∧
  -- emergencyIndexProgrammed early
  (∀ (s : Machine.State), s.sgd.step ≠ 7 → Gives .emergencyIndexProgrammed s fun t => t = s) ∧
  -- coldReset
  (∀ (s : Machine.State), s.sgd.released = true → s.sgd.pfail = false → Gives .coldReset s fun t =>
     t.bot = { s.bot with ball := true, want := some (2, 8) } ∧ t.sgd.pfail = true ∧ t.sgd.step = 1 ∧ t.sgd.sgFail = s.sgd.sgFail) ∧
  -- coldReset power-loss flush
  (∀ (s : Machine.State), s.sgd.sgFail = true → s.sgd.pfail = true → Gives .coldReset s fun t => t = s) ∧
  -- coldResetBallRelease
  (∀ (a b : Nat) (s : Machine.State), s.bot.want = some (a, b) → s.sgd.released = false → s.sgd.pfail = false → s.sgd.pwrEn = true →
     Gives .coldResetBallRelease s fun t => t.sgd.released = true ∧ t.bot.run = true ∧ t.bot.want = none ∧ t.bot.ball = false ∧
       min 4294967295 (s.tmb.boots + 1) ≤ t.tmb.boots ∧ t.tmb.boots ≤ s.tmb.boots + 4 ∧ t.part = s.part) ∧
  -- coldResetBallRelease nothing waits
  (∀ (s : Machine.State), s.bot.want = none → Gives .coldResetBallRelease s fun t => t = { s with bot := { s.bot with ball := false } }) ∧
  -- warmReset
  (∀ (m : Master) (q : Nat) (s : Machine.State), decideWrite s (whoOf s m) Reg.BOT_CTRL = .admitted q → s.sgd.released = true → s.sgd.pfail = false →
     fone s Fld.BOT_CTRL_RESET_WARM = false →
     Gives (.warmReset m) s fun t => t.bot = { s.bot with want := some (3, 4) } ∧ t.sgd.pfail = true ∧ t.sgd.step = 1 ∧ t.sgd.sgFail = s.sgd.sgFail) ∧
  -- warmReset during a flush
  (∀ (m : Master) (s : Machine.State), s.sgd.pfail = true ∨ fone s Fld.BOT_CTRL_RESET_WARM = true → Gives (.warmReset m) s fun t => t.bot = s.bot ∧ t.sgd = s.sgd) ∧
  -- botFallback
  (∀ (m : Master) (q : Nat) (s : Machine.State), decideWrite s (whoOf s m) Reg.BOT_CTRL = .admitted q → s.sgd.released = true → s.sgd.pfail = false →
     fone s Fld.BOT_CTRL_FALLBACK = false →
     Gives (.botFallback m) s fun t => t.bot = { s.bot with want := some (3, 4) } ∧ t.sgd.pfail = true ∧ t.sgd.step = 1) ∧
  -- botFallback slot
  (∀ (m : Master) (q : Nat) (s : Machine.State), decideWrite s (whoOf s m) Reg.BOT_CTRL = .admitted q → fone s Fld.BOT_CTRL_FALLBACK = false →
     Gives (.botFallback m) s fun t => ∃ u, t = { resetFlush u 3 4 with fab := t.fab } ∧ u.bot = s.bot ∧ u.sgd = s.sgd ∧ fone u Fld.BOT_CTRL_FALLBACK = true ∧
       fbit u Fld.BOT_SLOT_SKIP (fget s Fld.BOT_STATE_SLOT) = true ∧ fone u Fld.BOT_EVENTS_FALLBACK = true) ∧
  -- botFallback already asked
  (∀ (m : Master) (s : Machine.State), fone s Fld.BOT_CTRL_FALLBACK = true → Gives (.botFallback m) s fun t => t.bot = s.bot ∧ t.sgd = s.sgd ∧
     rget t Fld.BOT_SLOT_SKIP.addr = rget s Fld.BOT_SLOT_SKIP.addr) ∧
  -- fuseAdvance counter
  (∀ (m : Master) (q : Nat) (v : Word) (s : Machine.State), decideWrite s (whoOf s m) Reg.BOT_FUSE_ADV = .admitted q → fone s Fld.DGE_LATCH_BOOT_OPEN = true → bit v.toNat 16 = true →
     bits v.toNat 0 2 < 3 → ctrOf s (bits v.toNat 0 2) < bits v.toNat 2 9 → bits v.toNat 0 2 ∉ s.part.fuseBad → Gives (.fuseAdvance m v) s fun t =>
       ctrOf t (bits v.toNat 0 2) = max (ctrOf s (bits v.toNat 0 2)) (min (bits v.toNat 2 9) (ctrCap (bits v.toNat 0 2))) ∧
       (∀ k, k ≠ bits v.toNat 0 2 → ctrOf t k = ctrOf s k) ∧ t.bot.revoked = s.bot.revoked) ∧
  -- fuseAdvance not higher
  (∀ (m : Master) (q : Nat) (v : Word) (s : Machine.State), decideWrite s (whoOf s m) Reg.BOT_FUSE_ADV = .admitted q → bits v.toNat 0 2 < 3 → bits v.toNat 2 9 ≤ ctrOf s (bits v.toNat 0 2) →
     Gives (.fuseAdvance m v) s fun t => t.bot = s.bot) ∧
  -- fuseAdvance keys
  (∀ (m : Master) (q : Nat) (v : Word) (s : Machine.State), decideWrite s (whoOf s m) Reg.BOT_FUSE_ADV = .admitted q → fone s Fld.DGE_LATCH_BOOT_OPEN = true → bit v.toNat 16 = true → bits v.toNat 0 2 = 3 →
     Gives (.fuseAdvance m v) s fun t => t.bot = { s.bot with revoked := s.bot.revoked ||| bits v.toNat 2 4 }) ∧
  -- fuseAdvance latch closed
  (∀ (m : Master) (v : Word) (s : Machine.State), fone s Fld.DGE_LATCH_BOOT_OPEN = false → Gives (.fuseAdvance m v) s fun t => t.bot = s.bot) ∧
  -- tsnSample
  (∀ (l : List (Option Int)) (k : Nat) (c : Int) (s : Machine.State), fone s Fld.TSN_CTRL_EN = true → k < 20 → l.getD k none = some c → -40 ≤ c → c ≤ 150 →
     Gives (.tsnSample l) s fun t => fget t (Fld.TSN_SENSOR_TEMP k) = temp9 c ∧ fone t (Fld.TSN_SENSOR_VALID k) = true ∧ k ∉ t.tsn.fault ∧ now s ≤ now t) ∧
  -- tsnSample faulted
  (∀ (l : List (Option Int)) (k : Nat) (c : Int) (s : Machine.State), fone s Fld.TSN_CTRL_EN = true → k < 20 → l.getD k none = some c → c < -40 ∨ 150 < c →
     Gives (.tsnSample l) s fun t => fone t (Fld.TSN_SENSOR_VALID k) = false ∧ k ∈ t.tsn.fault) ∧
  -- tsnSample disabled
  (∀ (l : List (Option Int)) (s : Machine.State), fone s Fld.TSN_CTRL_EN = false → Gives (.tsnSample l) s fun t => t.tsn = s.tsn) ∧
  -- thermalTrip
  (∀ (a : Nat) (s : Machine.State), s.tsn.above = some a → Gives .thermalTrip s fun t => fone t Fld.TSN_EVENTS_TRIP = true ∧
     (fone s Fld.TSN_CTRL_TRIP_EN = true → fone t Fld.TSN_STATUS_TRIPPED = true) ∧ (fone s Fld.TSN_CTRL_TRIP_EN = false → fone t Fld.TSN_STATUS_TRIPPED = fone s Fld.TSN_STATUS_TRIPPED)) ∧
  -- thermalTrip below
  (∀ (s : Machine.State), s.tsn.above = none → Gives .thermalTrip s fun t => t = s)
end

