-- ==== Sys2Proof/Laws/Frame.lean ====
section
/-! SUPPORT. What an operation may change of the state: one relation between the state before and after, by a set of fields, with the
rules that carry it through a definition. -/
namespace Sys2Proof.Machine
set_option linter.all false
open Sys2Proof

/-- `t` differs from `s` only in the fields whose bit is set in `m` (bit k: the k-th field of State, from 0), keeps the
register file in canonical form, and device time has not gone back. -/
structure Same (m : Nat) (s t : State) : Prop where
  part : m.testBit 0 = false → t.part = s.part
  regs : m.testBit 1 = false → t.regs = s.regs
  latch : m.testBit 2 = false → t.latch = s.latch
  sel : m.testBit 3 = false → t.sel = s.sel
  fab : m.testBit 4 = false → t.fab = s.fab
  tmb : m.testBit 5 = false → t.tmb = s.tmb
  acm : m.testBit 6 = false → t.acm = s.acm
  spdm : m.testBit 7 = false → t.spdm = s.spdm
  svc : m.testBit 8 = false → t.svc = s.svc
  mbx : m.testBit 9 = false → t.mbx = s.mbx
  lkt : m.testBit 10 = false → t.lkt = s.lkt
  hst : m.testBit 11 = false → t.hst = s.hst
  slm : m.testBit 12 = false → t.slm = s.slm
  zne : m.testBit 13 = false → t.zne = s.zne
  plc : m.testBit 14 = false → t.plc = s.plc
  dsc : m.testBit 15 = false → t.dsc = s.dsc
  med : m.testBit 16 = false → t.med = s.med
  flash : m.testBit 17 = false → t.flash = s.flash
  bpm : m.testBit 18 = false → t.bpm = s.bpm
  dmc : m.testBit 19 = false → t.dmc = s.dmc
  ump : m.testBit 20 = false → t.ump = s.ump
  sgd : m.testBit 21 = false → t.sgd = s.sgd
  kst : m.testBit 22 = false → t.kst = s.kst
  dge : m.testBit 23 = false → t.dge = s.dge
  sgn : m.testBit 24 = false → t.sgn = s.sgn
  cls : m.testBit 25 = false → t.cls = s.cls
  bot : m.testBit 26 = false → t.bot = s.bot
  age : m.testBit 27 = false → t.age = s.age
  tsn : m.testBit 28 = false → t.tsn = s.tsn
  free : m.testBit 29 = false → t.free = s.free
  pending : m.testBit 30 = false → t.pending = s.pending
  canon : RegFile.wf s.regs = true → RegFile.wf t.regs = true
  time : s.tmb.time ≤ t.tmb.time

theorem Same.refl (m : Nat) (s : State) : Same m s s := by
  constructor <;> intros <;> first | rfl | assumption | exact Nat.le_refl _

/-- The bits of `k` are among those of `M`, by computation. -/
theorem Same.bits {k M : Nat} (h : Nat.beq (Nat.land k M) k = true) : k &&& M = k := Nat.eq_of_beq_eq_true h

theorem Same.bit {m k : Nat} (h : Nat.testBit m k = true) : Nat.testBit m k = true := h

theorem Same.sub {k n m : Nat} (h1 : k &&& n = k) (h2 : n &&& m = n) : k &&& m = k := by
  rw [← h1, Nat.and_assoc, h2]

theorem testBit_sub {m n : Nat} (h : m &&& n = m) (i : Nat) (hn : n.testBit i = false) : m.testBit i = false := by
  rw [← h, Nat.testBit_and, hn, Bool.and_false]

/-- One operation after others: what it changes is among what all may change. -/
theorem Same.step {k m : Nat} {s0 s t : State} (hk : k &&& m = k) (h : Same k s t) (h0 : Same m s0 s) : Same m s0 t := by
  constructor
  · exact fun b => (h.part (testBit_sub hk 0 b)).trans (h0.part b)
  · exact fun b => (h.regs (testBit_sub hk 1 b)).trans (h0.regs b)
  · exact fun b => (h.latch (testBit_sub hk 2 b)).trans (h0.latch b)
  · exact fun b => (h.sel (testBit_sub hk 3 b)).trans (h0.sel b)
  · exact fun b => (h.fab (testBit_sub hk 4 b)).trans (h0.fab b)
  · exact fun b => (h.tmb (testBit_sub hk 5 b)).trans (h0.tmb b)
  · exact fun b => (h.acm (testBit_sub hk 6 b)).trans (h0.acm b)
  · exact fun b => (h.spdm (testBit_sub hk 7 b)).trans (h0.spdm b)
  · exact fun b => (h.svc (testBit_sub hk 8 b)).trans (h0.svc b)
  · exact fun b => (h.mbx (testBit_sub hk 9 b)).trans (h0.mbx b)
  · exact fun b => (h.lkt (testBit_sub hk 10 b)).trans (h0.lkt b)
  · exact fun b => (h.hst (testBit_sub hk 11 b)).trans (h0.hst b)
  · exact fun b => (h.slm (testBit_sub hk 12 b)).trans (h0.slm b)
  · exact fun b => (h.zne (testBit_sub hk 13 b)).trans (h0.zne b)
  · exact fun b => (h.plc (testBit_sub hk 14 b)).trans (h0.plc b)
  · exact fun b => (h.dsc (testBit_sub hk 15 b)).trans (h0.dsc b)
  · exact fun b => (h.med (testBit_sub hk 16 b)).trans (h0.med b)
  · exact fun b => (h.flash (testBit_sub hk 17 b)).trans (h0.flash b)
  · exact fun b => (h.bpm (testBit_sub hk 18 b)).trans (h0.bpm b)
  · exact fun b => (h.dmc (testBit_sub hk 19 b)).trans (h0.dmc b)
  · exact fun b => (h.ump (testBit_sub hk 20 b)).trans (h0.ump b)
  · exact fun b => (h.sgd (testBit_sub hk 21 b)).trans (h0.sgd b)
  · exact fun b => (h.kst (testBit_sub hk 22 b)).trans (h0.kst b)
  · exact fun b => (h.dge (testBit_sub hk 23 b)).trans (h0.dge b)
  · exact fun b => (h.sgn (testBit_sub hk 24 b)).trans (h0.sgn b)
  · exact fun b => (h.cls (testBit_sub hk 25 b)).trans (h0.cls b)
  · exact fun b => (h.bot (testBit_sub hk 26 b)).trans (h0.bot b)
  · exact fun b => (h.age (testBit_sub hk 27 b)).trans (h0.age b)
  · exact fun b => (h.tsn (testBit_sub hk 28 b)).trans (h0.tsn b)
  · exact fun b => (h.free (testBit_sub hk 29 b)).trans (h0.free b)
  · exact fun b => (h.pending (testBit_sub hk 30 b)).trans (h0.pending b)
  · exact fun b => h.canon (h0.canon b)
  · exact Nat.le_trans h0.time h.time

/-- A record update. -/
theorem Same.upd {m : Nat} {s0 s : State}
  {v0 v2 v3 v4 v5 v6 v7 v8 v9 v10 v11 v12 v13 v14 v15 v16 v17 v18 v19 v20 v21 v22 v23 v24 v25 v26 v27 v28 v29} (h : Same m s0 s)
  (h0 : v0 = s.part ∨ m.testBit 0 = true)
  (h2 : v2 = s.latch ∨ m.testBit 2 = true)
  (h3 : v3 = s.sel ∨ m.testBit 3 = true)
  (h4 : v4 = s.fab ∨ m.testBit 4 = true)
  (h5 : v5 = s.tmb ∨ m.testBit 5 = true ∧ s.tmb.time ≤ v5.time)
  (h6 : v6 = s.acm ∨ m.testBit 6 = true)
  (h7 : v7 = s.spdm ∨ m.testBit 7 = true)
  (h8 : v8 = s.svc ∨ m.testBit 8 = true)
  (h9 : v9 = s.mbx ∨ m.testBit 9 = true)
  (h10 : v10 = s.lkt ∨ m.testBit 10 = true)
  (h11 : v11 = s.hst ∨ m.testBit 11 = true)
  (h12 : v12 = s.slm ∨ m.testBit 12 = true)
  (h13 : v13 = s.zne ∨ m.testBit 13 = true)
  (h14 : v14 = s.plc ∨ m.testBit 14 = true)
  (h15 : v15 = s.dsc ∨ m.testBit 15 = true)
  (h16 : v16 = s.med ∨ m.testBit 16 = true)
  (h17 : v17 = s.flash ∨ m.testBit 17 = true)
  (h18 : v18 = s.bpm ∨ m.testBit 18 = true)
  (h19 : v19 = s.dmc ∨ m.testBit 19 = true)
  (h20 : v20 = s.ump ∨ m.testBit 20 = true)
  (h21 : v21 = s.sgd ∨ m.testBit 21 = true)
  (h22 : v22 = s.kst ∨ m.testBit 22 = true)
  (h23 : v23 = s.dge ∨ m.testBit 23 = true)
  (h24 : v24 = s.sgn ∨ m.testBit 24 = true)
  (h25 : v25 = s.cls ∨ m.testBit 25 = true)
  (h26 : v26 = s.bot ∨ m.testBit 26 = true)
  (h27 : v27 = s.age ∨ m.testBit 27 = true)
  (h28 : v28 = s.tsn ∨ m.testBit 28 = true)
  (h29 : v29 = s.free ∨ m.testBit 29 = true)
  : Same m s0 (State.mk v0 s.regs v2 v3 v4 v5 v6 v7 v8 v9 v10 v11 v12 v13 v14 v15 v16 v17 v18 v19 v20 v21 v22 v23 v24 v25 v26 v27 v28 v29 s.pending) := by
  constructor
  · exact fun b => h0.elim (fun e => e.trans (h.part b)) fun e => absurd (e.symm.trans b) (by decide)
  · exact h.regs
  · exact fun b => h2.elim (fun e => e.trans (h.latch b)) fun e => absurd (e.symm.trans b) (by decide)
  · exact fun b => h3.elim (fun e => e.trans (h.sel b)) fun e => absurd (e.symm.trans b) (by decide)
  · exact fun b => h4.elim (fun e => e.trans (h.fab b)) fun e => absurd (e.symm.trans b) (by decide)
  · exact fun b => h5.elim (fun e => e.trans (h.tmb b)) fun e => absurd (e.1.symm.trans b) (by decide)
  · exact fun b => h6.elim (fun e => e.trans (h.acm b)) fun e => absurd (e.symm.trans b) (by decide)
  · exact fun b => h7.elim (fun e => e.trans (h.spdm b)) fun e => absurd (e.symm.trans b) (by decide)
  · exact fun b => h8.elim (fun e => e.trans (h.svc b)) fun e => absurd (e.symm.trans b) (by decide)
  · exact fun b => h9.elim (fun e => e.trans (h.mbx b)) fun e => absurd (e.symm.trans b) (by decide)
  · exact fun b => h10.elim (fun e => e.trans (h.lkt b)) fun e => absurd (e.symm.trans b) (by decide)
  · exact fun b => h11.elim (fun e => e.trans (h.hst b)) fun e => absurd (e.symm.trans b) (by decide)
  · exact fun b => h12.elim (fun e => e.trans (h.slm b)) fun e => absurd (e.symm.trans b) (by decide)
  · exact fun b => h13.elim (fun e => e.trans (h.zne b)) fun e => absurd (e.symm.trans b) (by decide)
  · exact fun b => h14.elim (fun e => e.trans (h.plc b)) fun e => absurd (e.symm.trans b) (by decide)
  · exact fun b => h15.elim (fun e => e.trans (h.dsc b)) fun e => absurd (e.symm.trans b) (by decide)
  · exact fun b => h16.elim (fun e => e.trans (h.med b)) fun e => absurd (e.symm.trans b) (by decide)
  · exact fun b => h17.elim (fun e => e.trans (h.flash b)) fun e => absurd (e.symm.trans b) (by decide)
  · exact fun b => h18.elim (fun e => e.trans (h.bpm b)) fun e => absurd (e.symm.trans b) (by decide)
  · exact fun b => h19.elim (fun e => e.trans (h.dmc b)) fun e => absurd (e.symm.trans b) (by decide)
  · exact fun b => h20.elim (fun e => e.trans (h.ump b)) fun e => absurd (e.symm.trans b) (by decide)
  · exact fun b => h21.elim (fun e => e.trans (h.sgd b)) fun e => absurd (e.symm.trans b) (by decide)
  · exact fun b => h22.elim (fun e => e.trans (h.kst b)) fun e => absurd (e.symm.trans b) (by decide)
  · exact fun b => h23.elim (fun e => e.trans (h.dge b)) fun e => absurd (e.symm.trans b) (by decide)
  · exact fun b => h24.elim (fun e => e.trans (h.sgn b)) fun e => absurd (e.symm.trans b) (by decide)
  · exact fun b => h25.elim (fun e => e.trans (h.cls b)) fun e => absurd (e.symm.trans b) (by decide)
  · exact fun b => h26.elim (fun e => e.trans (h.bot b)) fun e => absurd (e.symm.trans b) (by decide)
  · exact fun b => h27.elim (fun e => e.trans (h.age b)) fun e => absurd (e.symm.trans b) (by decide)
  · exact fun b => h28.elim (fun e => e.trans (h.tsn b)) fun e => absurd (e.symm.trans b) (by decide)
  · exact fun b => h29.elim (fun e => e.trans (h.free b)) fun e => absurd (e.symm.trans b) (by decide)
  · exact h.pending
  · exact h.canon
  · exact Nat.le_trans h.time (h5.elim (fun e => Nat.le_of_eq (by rw [← e])) fun e => e.2)

/-- A bit of `m`, from a mask that has it and lies in `m`. -/
theorem Same.bitOf {m p k : Nat} (hp : p.testBit k = true) (h : Nat.beq (Nat.land p m) p = true) : m.testBit k = true := by
  have e : p &&& m = p := Nat.eq_of_beq_eq_true h
  rw [← e, Nat.testBit_and] at hp
  exact (Bool.and_eq_true_iff.1 hp).2

/-! Fields written: the mask of a field is its bit. -/

theorem Same.updPart {m : Nat} {s0 s : State} {v} (h : Same m s0 s) (hm : Nat.beq (Nat.land 1 m) 1 = true) :
    Same m s0 { s with part := v } := by
  apply Same.upd h <;> first | exact .inl rfl | exact .inr (Same.bitOf (p := 1) rfl hm)

theorem Same.updLatch {m : Nat} {s0 s : State} {v} (h : Same m s0 s) (hm : Nat.beq (Nat.land 4 m) 4 = true) :
    Same m s0 { s with latch := v } := by
  apply Same.upd h <;> first | exact .inl rfl | exact .inr (Same.bitOf (p := 4) rfl hm)

theorem Same.updSel {m : Nat} {s0 s : State} {v} (h : Same m s0 s) (hm : Nat.beq (Nat.land 8 m) 8 = true) :
    Same m s0 { s with sel := v } := by
  apply Same.upd h <;> first | exact .inl rfl | exact .inr (Same.bitOf (p := 8) rfl hm)

theorem Same.updFab {m : Nat} {s0 s : State} {v} (h : Same m s0 s) (hm : Nat.beq (Nat.land 16 m) 16 = true) :
    Same m s0 { s with fab := v } := by
  apply Same.upd h <;> first | exact .inl rfl | exact .inr (Same.bitOf (p := 16) rfl hm)

theorem Same.updAcm {m : Nat} {s0 s : State} {v} (h : Same m s0 s) (hm : Nat.beq (Nat.land 64 m) 64 = true) :
    Same m s0 { s with acm := v } := by
  apply Same.upd h <;> first | exact .inl rfl | exact .inr (Same.bitOf (p := 64) rfl hm)

theorem Same.updSpdm {m : Nat} {s0 s : State} {v} (h : Same m s0 s) (hm : Nat.beq (Nat.land 128 m) 128 = true) :
    Same m s0 { s with spdm := v } := by
  apply Same.upd h <;> first | exact .inl rfl | exact .inr (Same.bitOf (p := 128) rfl hm)

theorem Same.updSvc {m : Nat} {s0 s : State} {v} (h : Same m s0 s) (hm : Nat.beq (Nat.land 256 m) 256 = true) :
    Same m s0 { s with svc := v } := by
  apply Same.upd h <;> first | exact .inl rfl | exact .inr (Same.bitOf (p := 256) rfl hm)

theorem Same.updMbx {m : Nat} {s0 s : State} {v} (h : Same m s0 s) (hm : Nat.beq (Nat.land 512 m) 512 = true) :
    Same m s0 { s with mbx := v } := by
  apply Same.upd h <;> first | exact .inl rfl | exact .inr (Same.bitOf (p := 512) rfl hm)

theorem Same.updLkt {m : Nat} {s0 s : State} {v} (h : Same m s0 s) (hm : Nat.beq (Nat.land 1024 m) 1024 = true) :
    Same m s0 { s with lkt := v } := by
  apply Same.upd h <;> first | exact .inl rfl | exact .inr (Same.bitOf (p := 1024) rfl hm)

theorem Same.updHst {m : Nat} {s0 s : State} {v} (h : Same m s0 s) (hm : Nat.beq (Nat.land 2048 m) 2048 = true) :
    Same m s0 { s with hst := v } := by
  apply Same.upd h <;> first | exact .inl rfl | exact .inr (Same.bitOf (p := 2048) rfl hm)

theorem Same.updSlm {m : Nat} {s0 s : State} {v} (h : Same m s0 s) (hm : Nat.beq (Nat.land 4096 m) 4096 = true) :
    Same m s0 { s with slm := v } := by
  apply Same.upd h <;> first | exact .inl rfl | exact .inr (Same.bitOf (p := 4096) rfl hm)

theorem Same.updZne {m : Nat} {s0 s : State} {v} (h : Same m s0 s) (hm : Nat.beq (Nat.land 8192 m) 8192 = true) :
    Same m s0 { s with zne := v } := by
  apply Same.upd h <;> first | exact .inl rfl | exact .inr (Same.bitOf (p := 8192) rfl hm)

theorem Same.updPlc {m : Nat} {s0 s : State} {v} (h : Same m s0 s) (hm : Nat.beq (Nat.land 16384 m) 16384 = true) :
    Same m s0 { s with plc := v } := by
  apply Same.upd h <;> first | exact .inl rfl | exact .inr (Same.bitOf (p := 16384) rfl hm)

theorem Same.updDsc {m : Nat} {s0 s : State} {v} (h : Same m s0 s) (hm : Nat.beq (Nat.land 32768 m) 32768 = true) :
    Same m s0 { s with dsc := v } := by
  apply Same.upd h <;> first | exact .inl rfl | exact .inr (Same.bitOf (p := 32768) rfl hm)

theorem Same.updMed {m : Nat} {s0 s : State} {v} (h : Same m s0 s) (hm : Nat.beq (Nat.land 65536 m) 65536 = true) :
    Same m s0 { s with med := v } := by
  apply Same.upd h <;> first | exact .inl rfl | exact .inr (Same.bitOf (p := 65536) rfl hm)

theorem Same.updFlash {m : Nat} {s0 s : State} {v} (h : Same m s0 s) (hm : Nat.beq (Nat.land 131072 m) 131072 = true) :
    Same m s0 { s with flash := v } := by
  apply Same.upd h <;> first | exact .inl rfl | exact .inr (Same.bitOf (p := 131072) rfl hm)

theorem Same.updBpm {m : Nat} {s0 s : State} {v} (h : Same m s0 s) (hm : Nat.beq (Nat.land 262144 m) 262144 = true) :
    Same m s0 { s with bpm := v } := by
  apply Same.upd h <;> first | exact .inl rfl | exact .inr (Same.bitOf (p := 262144) rfl hm)

theorem Same.updDmc {m : Nat} {s0 s : State} {v} (h : Same m s0 s) (hm : Nat.beq (Nat.land 524288 m) 524288 = true) :
    Same m s0 { s with dmc := v } := by
  apply Same.upd h <;> first | exact .inl rfl | exact .inr (Same.bitOf (p := 524288) rfl hm)

theorem Same.updUmp {m : Nat} {s0 s : State} {v} (h : Same m s0 s) (hm : Nat.beq (Nat.land 1048576 m) 1048576 = true) :
    Same m s0 { s with ump := v } := by
  apply Same.upd h <;> first | exact .inl rfl | exact .inr (Same.bitOf (p := 1048576) rfl hm)

theorem Same.updSgd {m : Nat} {s0 s : State} {v} (h : Same m s0 s) (hm : Nat.beq (Nat.land 2097152 m) 2097152 = true) :
    Same m s0 { s with sgd := v } := by
  apply Same.upd h <;> first | exact .inl rfl | exact .inr (Same.bitOf (p := 2097152) rfl hm)

theorem Same.updKst {m : Nat} {s0 s : State} {v} (h : Same m s0 s) (hm : Nat.beq (Nat.land 4194304 m) 4194304 = true) :
    Same m s0 { s with kst := v } := by
  apply Same.upd h <;> first | exact .inl rfl | exact .inr (Same.bitOf (p := 4194304) rfl hm)

theorem Same.updDge {m : Nat} {s0 s : State} {v} (h : Same m s0 s) (hm : Nat.beq (Nat.land 8388608 m) 8388608 = true) :
    Same m s0 { s with dge := v } := by
  apply Same.upd h <;> first | exact .inl rfl | exact .inr (Same.bitOf (p := 8388608) rfl hm)

theorem Same.updSgn {m : Nat} {s0 s : State} {v} (h : Same m s0 s) (hm : Nat.beq (Nat.land 16777216 m) 16777216 = true) :
    Same m s0 { s with sgn := v } := by
  apply Same.upd h <;> first | exact .inl rfl | exact .inr (Same.bitOf (p := 16777216) rfl hm)

theorem Same.updCls {m : Nat} {s0 s : State} {v} (h : Same m s0 s) (hm : Nat.beq (Nat.land 33554432 m) 33554432 = true) :
    Same m s0 { s with cls := v } := by
  apply Same.upd h <;> first | exact .inl rfl | exact .inr (Same.bitOf (p := 33554432) rfl hm)

theorem Same.updBot {m : Nat} {s0 s : State} {v} (h : Same m s0 s) (hm : Nat.beq (Nat.land 67108864 m) 67108864 = true) :
    Same m s0 { s with bot := v } := by
  apply Same.upd h <;> first | exact .inl rfl | exact .inr (Same.bitOf (p := 67108864) rfl hm)

theorem Same.updAge {m : Nat} {s0 s : State} {v} (h : Same m s0 s) (hm : Nat.beq (Nat.land 134217728 m) 134217728 = true) :
    Same m s0 { s with age := v } := by
  apply Same.upd h <;> first | exact .inl rfl | exact .inr (Same.bitOf (p := 134217728) rfl hm)

theorem Same.updTsn {m : Nat} {s0 s : State} {v} (h : Same m s0 s) (hm : Nat.beq (Nat.land 268435456 m) 268435456 = true) :
    Same m s0 { s with tsn := v } := by
  apply Same.upd h <;> first | exact .inl rfl | exact .inr (Same.bitOf (p := 268435456) rfl hm)

theorem Same.updFree {m : Nat} {s0 s : State} {v} (h : Same m s0 s) (hm : Nat.beq (Nat.land 536870912 m) 536870912 = true) :
    Same m s0 { s with free := v } := by
  apply Same.upd h <;> first | exact .inl rfl | exact .inr (Same.bitOf (p := 536870912) rfl hm)

theorem Same.updCompute {m : Nat} {s0 s : State} {v0 v1 v2 v3 v4 v5 v6 v7 v8 v9 v10 v11 v12 v13 v14 v15 v16 v17 v18 v19 v20}
    (h : Same m s0 s) (hm : Nat.beq (Nat.land 501218256 m) 501218256 = true) :
    Same m s0 { s with
      fab := v0, acm := v1, spdm := v2, svc := v3, mbx := v4, hst := v5, slm := v6, zne := v7, plc := v8,
      dsc := v9, med := v10, flash := v11, bpm := v12, dmc := v13, ump := v14, kst := v15, dge := v16, sgn := v17, bot := v18,
      age := v19, tsn := v20 } := by
  apply Same.upd h <;> first | exact .inl rfl | exact .inr (Same.bitOf (p := 501218256) rfl hm)

theorem Same.updMedAge {m : Nat} {s0 s : State} {v0 v1} (h : Same m s0 s) (hm : Nat.beq (Nat.land 134283264 m) 134283264 = true) :
    Same m s0 { s with med := v0, age := v1 } := by
  apply Same.upd h <;> first | exact .inl rfl | exact .inr (Same.bitOf (p := 134283264) rfl hm)

theorem Same.updMedFree {m : Nat} {s0 s : State} {v0 v1} (h : Same m s0 s) (hm : Nat.beq (Nat.land 536936448 m) 536936448 = true) :
    Same m s0 { s with med := v0, free := v1 } := by
  apply Same.upd h <;> first | exact .inl rfl | exact .inr (Same.bitOf (p := 536936448) rfl hm)

theorem Same.updFabHst {m : Nat} {s0 s : State} {v0 v1} (h : Same m s0 s) (hm : Nat.beq (Nat.land 2064 m) 2064 = true) :
    Same m s0 { s with fab := v0, hst := v1 } := by
  apply Same.upd h <;> first | exact .inl rfl | exact .inr (Same.bitOf (p := 2064) rfl hm)

theorem Same.updHstDsc {m : Nat} {s0 s : State} {v0 v1} (h : Same m s0 s) (hm : Nat.beq (Nat.land 34816 m) 34816 = true) :
    Same m s0 { s with hst := v0, dsc := v1 } := by
  apply Same.upd h <;> first | exact .inl rfl | exact .inr (Same.bitOf (p := 34816) rfl hm)

theorem Same.updZnePlc {m : Nat} {s0 s : State} {v0 v1} (h : Same m s0 s) (hm : Nat.beq (Nat.land 24576 m) 24576 = true) :
    Same m s0 { s with zne := v0, plc := v1 } := by
  apply Same.upd h <;> first | exact .inl rfl | exact .inr (Same.bitOf (p := 24576) rfl hm)

theorem Same.updPlcDsc {m : Nat} {s0 s : State} {v0 v1} (h : Same m s0 s) (hm : Nat.beq (Nat.land 49152 m) 49152 = true) :
    Same m s0 { s with plc := v0, dsc := v1 } := by
  apply Same.upd h <;> first | exact .inl rfl | exact .inr (Same.bitOf (p := 49152) rfl hm)

theorem Same.updPlcMed {m : Nat} {s0 s : State} {v0 v1} (h : Same m s0 s) (hm : Nat.beq (Nat.land 81920 m) 81920 = true) :
    Same m s0 { s with plc := v0, med := v1 } := by
  apply Same.upd h <;> first | exact .inl rfl | exact .inr (Same.bitOf (p := 81920) rfl hm)

theorem Same.updPlcMedAge {m : Nat} {s0 s : State} {v0 v1 v2} (h : Same m s0 s) (hm : Nat.beq (Nat.land 134299648 m) 134299648 = true) :
    Same m s0 { s with plc := v0, med := v1, age := v2 } := by
  apply Same.upd h <;> first | exact .inl rfl | exact .inr (Same.bitOf (p := 134299648) rfl hm)

theorem Same.updSgdBot {m : Nat} {s0 s : State} {v0 v1} (h : Same m s0 s) (hm : Nat.beq (Nat.land 69206016 m) 69206016 = true) :
    Same m s0 { s with sgd := v0, bot := v1 } := by
  apply Same.upd h <;> first | exact .inl rfl | exact .inr (Same.bitOf (p := 69206016) rfl hm)

theorem Same.updSlmZne {m : Nat} {s0 s : State} {v0 v1} (h : Same m s0 s) (hm : Nat.beq (Nat.land 12288 m) 12288 = true) :
    Same m s0 { s with slm := v0, zne := v1 } := by
  apply Same.upd h <;> first | exact .inl rfl | exact .inr (Same.bitOf (p := 12288) rfl hm)

theorem Same.updSvcBot {m : Nat} {s0 s : State} {v0 v1} (h : Same m s0 s) (hm : Nat.beq (Nat.land 67109120 m) 67109120 = true) :
    Same m s0 { s with svc := v0, bot := v1 } := by
  apply Same.upd h <;> first | exact .inl rfl | exact .inr (Same.bitOf (p := 67109120) rfl hm)

theorem Same.updSvcKstBot {m : Nat} {s0 s : State} {v0 v1 v2} (h : Same m s0 s) (hm : Nat.beq (Nat.land 71303424 m) 71303424 = true) :
    Same m s0 { s with svc := v0, kst := v1, bot := v2 } := by
  apply Same.upd h <;> first | exact .inl rfl | exact .inr (Same.bitOf (p := 71303424) rfl hm)

theorem Same.updZneMed {m : Nat} {s0 s : State} {v0 v1} (h : Same m s0 s) (hm : Nat.beq (Nat.land 73728 m) 73728 = true) :
    Same m s0 { s with zne := v0, med := v1 } := by
  apply Same.upd h <;> first | exact .inl rfl | exact .inr (Same.bitOf (p := 73728) rfl hm)

theorem Same.updZnePlcMed {m : Nat} {s0 s : State} {v0 v1 v2} (h : Same m s0 s) (hm : Nat.beq (Nat.land 90112 m) 90112 = true) :
    Same m s0 { s with zne := v0, plc := v1, med := v2 } := by
  apply Same.upd h <;> first | exact .inl rfl | exact .inr (Same.bitOf (p := 90112) rfl hm)

/-- `Same` for a result with the state first. -/
structure Same1 {α : Type} (m : Nat) (s0 : State) (x : State × α) : Prop where
  out : Same m s0 x.1

/-- `Same` for a result with the state second. -/
structure Same2 {α : Type} (m : Nat) (s0 : State) (x : α × State) : Prop where
  out : Same m s0 x.2

/-- `Same` for a result with the state third. -/
structure Same22 {α β : Type} (m : Nat) (s0 : State) (x : α × β × State) : Prop where
  out : Same m s0 x.2.2

/-- `Same` for a result if there is one. -/
structure SameO (m : Nat) (s0 : State) (x : Option State) : Prop where
  out : ∀ t, x = some t → Same m s0 t

/-- `Same` for a result if there is one, with the state second. -/
structure SameO2 {α : Type} (m : Nat) (s0 : State) (x : Option (α × State)) : Prop where
  out : ∀ t, x = some t → Same m s0 t.2

/-- `Same` for a result of an outcome. -/
structure SameT (m : Nat) (s0 : State) (x : Host.Outcome State Fault Refusal) : Prop where
  out : ∀ t, x = .next t → Same m s0 t

theorem Same.ite {m : Nat} {s0 : State} {c : Prop} [Decidable c] {a b : State} (ha : Same m s0 a) (hb : Same m s0 b) :
    Same m s0 (if c then a else b) := by
  split <;> assumption

theorem Same1.ite {α : Type} {m : Nat} {s0 : State} {c : Prop} [Decidable c] {a b : State × α} (ha : Same1 m s0 a) (hb : Same1 m s0 b) :
    Same1 m s0 (if c then a else b) := by
  split <;> assumption

theorem Same2.ite {α : Type} {m : Nat} {s0 : State} {c : Prop} [Decidable c] {a b : α × State} (ha : Same2 m s0 a) (hb : Same2 m s0 b) :
    Same2 m s0 (if c then a else b) := by
  split <;> assumption

theorem Same22.ite {α β : Type} {m : Nat} {s0 : State} {c : Prop} [Decidable c] {a b : α × β × State} (ha : Same22 m s0 a) (hb : Same22 m s0 b) :
    Same22 m s0 (if c then a else b) := by
  split <;> assumption

theorem SameO.ite {m : Nat} {s0 : State} {c : Prop} [Decidable c] {a b : Option State} (ha : SameO m s0 a) (hb : SameO m s0 b) :
    SameO m s0 (if c then a else b) := by
  split <;> assumption

theorem SameO2.ite {α : Type} {m : Nat} {s0 : State} {c : Prop} [Decidable c] {a b : Option (α × State)} (ha : SameO2 m s0 a) (hb : SameO2 m s0 b) :
    SameO2 m s0 (if c then a else b) := by
  split <;> assumption

theorem SameT.ite {m : Nat} {s0 : State} {c : Prop} [Decidable c] {a b : Host.Outcome State Fault Refusal} (ha : SameT m s0 a) (hb : SameT m s0 b) :
    SameT m s0 (if c then a else b) := by
  split <;> assumption

theorem Same.run {k m : Nat} {s0 s t : State} (hM : k &&& m = k) (h : Same m s0 s) (H : Same k s s → Same k s t) : Same m s0 t :=
  Same.step hM (H (Same.refl _ _)) h


/-! A local definition: what it may change is shown once (cut), and the rest of the definition is taken for every value of which that
holds (let), so that no proof carries what was computed before. -/

theorem Same.cutS {m : Nat} {s0 x : State} {P : Prop} {b : State} (_ : Same m s0 b) (h : Same m s0 x) (k : Same m s0 x → P) : P := k h
theorem Same.cut1 {α : Type} {m : Nat} {s0 : State} {x : State × α} {P : Prop} {b : State} (_ : Same m s0 b) (h : Same1 m s0 x) (k : Same m s0 x.1 → P) : P := k h.out
theorem Same.cut2 {α : Type} {m : Nat} {s0 : State} {x : α × State} {P : Prop} {b : State} (_ : Same m s0 b) (h : Same2 m s0 x) (k : Same m s0 x.2 → P) : P := k h.out
theorem Same.cut22 {α β : Type} {m : Nat} {s0 : State} {x : α × β × State} {P : Prop} {b : State} (_ : Same m s0 b) (h : Same22 m s0 x) (k : Same m s0 x.2.2 → P) : P := k h.out
theorem Same.letS {m : Nat} {s0 x : State} (h : Same m s0 x) {P : State → Prop} (k : ∀ z, Same m s0 z → P z) : P x := k x h
theorem Same.let1 {α : Type} {m : Nat} {s0 : State} {x : State × α} (h : Same m s0 x.1) {P : State × α → Prop}
    (k : ∀ z : State × α, Same m s0 z.1 → P z) : P x := k x h
theorem Same.let2 {α : Type} {m : Nat} {s0 : State} {x : α × State} (h : Same m s0 x.2) {P : α × State → Prop}
    (k : ∀ z : α × State, Same m s0 z.2 → P z) : P x := k x h
theorem Same.let22 {α β : Type} {m : Nat} {s0 : State} {x : α × β × State} (h : Same m s0 x.2.2) {P : α × β × State → Prop}
    (k : ∀ z : α × β × State, Same m s0 z.2.2 → P z) : P x := k x h
theorem Same.letAny {α : Type} (x : α) {P : α → Prop} (k : ∀ z, P z) : P x := k x
theorem Same.cutT {P : Prop} (_ : Tmb) (h : P) : P := h
theorem Same.cutF {α β : Type} {P : Prop} (_ : α → β) (h : P) : P := h


theorem SameT.next {m : Nat} {s0 t : State} (h : Same m s0 t) : SameT m s0 (.next t) :=
  ⟨fun u e => by cases e; exact h⟩

theorem SameO.some {m : Nat} {s0 t : State} (h : Same m s0 t) : SameO m s0 (Option.some t) :=
  ⟨fun u e => by cases e; exact h⟩

theorem SameO.none {m : Nat} {s0 : State} : SameO m s0 Option.none :=
  ⟨fun u e => by cases e⟩

theorem SameO2.some {α : Type} {m : Nat} {s0 t : State} {a : α} (h : Same m s0 t) : SameO2 m s0 (Option.some (a, t)) :=
  ⟨fun u e => by cases e; exact h⟩

theorem SameO2.some' {α : Type} {m : Nat} {s0 : State} {x : α × State} (h : Same m s0 x.2) : SameO2 m s0 (Option.some x) :=
  ⟨fun u e => by cases e; exact h⟩

theorem SameO2.none {α : Type} {m : Nat} {s0 : State} : SameO2 m s0 (Option.none : Option (α × State)) :=
  ⟨fun u e => by cases e⟩

theorem Same1.mk' {α : Type} {m : Nat} {s0 t : State} {a : α} (h : Same m s0 t) : Same1 m s0 (t, a) := ⟨h⟩
theorem Same2.mk' {α : Type} {m : Nat} {s0 t : State} {a : α} (h : Same m s0 t) : Same2 m s0 (a, t) := ⟨h⟩
theorem Same22.mk' {α β : Type} {m : Nat} {s0 : State} {t : β × State} {a : α} (h : Same2 m s0 t) : Same22 m s0 (a, t) := ⟨h.out⟩

theorem Same.ofPair1 {α : Type} {m : Nat} {s0 t : State} {e : State × α} {a : α} (he : e = (t, a)) (h : Same1 m s0 e) : Same m s0 t := by
  subst he; exact h.out
theorem Same.ofPair2 {α : Type} {m : Nat} {s0 t : State} {e : α × State} {a : α} (he : e = (a, t)) (h : Same2 m s0 e) : Same m s0 t := by
  subst he; exact h.out
theorem Same.ofPair22 {α β : Type} {m : Nat} {s0 t : State} {e : α × β × State} {a : α} {b : β} (he : e = (a, b, t))
    (h : Same22 m s0 e) : Same m s0 t := by
  subst he; exact h.out
theorem Same.ofSome {m : Nat} {s0 t : State} {e : Option State} (he : e = some t) (h : SameO m s0 e) : Same m s0 t := h.out t he
theorem Same.ofSome2 {α : Type} {m : Nat} {s0 t : State} {e : Option (α × State)} {a : α} (he : e = some (a, t)) (h : SameO2 m s0 e) :
    Same m s0 t := h.out _ he
theorem Same.ofSome2' {α : Type} {m : Nat} {s0 : State} {e : Option (α × State)} {x : α × State} (he : e = some x) (h : SameO2 m s0 e) :
    Same m s0 x.2 := h.out _ he


theorem Same1.step {α : Type} {k m : Nat} {s0 s : State} {x : State × α} (hk : k &&& m = k) (h : Same1 k s x) (h0 : Same m s0 s) : Same1 m s0 x :=
  ⟨Same.step hk h.out h0⟩

theorem Same2.step {α : Type} {k m : Nat} {s0 s : State} {x : α × State} (hk : k &&& m = k) (h : Same2 k s x) (h0 : Same m s0 s) : Same2 m s0 x :=
  ⟨Same.step hk h.out h0⟩

theorem Same22.step {α β : Type} {k m : Nat} {s0 s : State} {x : α × β × State} (hk : k &&& m = k) (h : Same22 k s x) (h0 : Same m s0 s) : Same22 m s0 x :=
  ⟨Same.step hk h.out h0⟩

theorem SameO.step {k m : Nat} {s0 s : State} {x : Option State} (hk : k &&& m = k) (h : SameO k s x) (h0 : Same m s0 s) : SameO m s0 x :=
  ⟨fun t e => Same.step hk (h.out t e) h0⟩

theorem SameO2.step {α : Type} {k m : Nat} {s0 s : State} {x : Option (α × State)} (hk : k &&& m = k) (h : SameO2 k s x) (h0 : Same m s0 s) : SameO2 m s0 x :=
  ⟨fun t e => Same.step hk (h.out t e) h0⟩

theorem SameT.step {k m : Nat} {s0 s : State} {x : Host.Outcome State Fault Refusal} (hk : k &&& m = k) (h : SameT k s x) (h0 : Same m s0 s) : SameT m s0 x :=
  ⟨fun t e => Same.step hk (h.out t e) h0⟩

theorem Same1.run {α : Type} {k m : Nat} {s0 s : State} {x : State × α} (hM : k &&& m = k) (h : Same m s0 s) (H : Same k s s → Same1 k s x) : Same1 m s0 x :=
  Same1.step hM (H (Same.refl _ _)) h

theorem Same2.run {α : Type} {k m : Nat} {s0 s : State} {x : α × State} (hM : k &&& m = k) (h : Same m s0 s) (H : Same k s s → Same2 k s x) : Same2 m s0 x :=
  Same2.step hM (H (Same.refl _ _)) h

theorem Same22.run {α β : Type} {k m : Nat} {s0 s : State} {x : α × β × State} (hM : k &&& m = k) (h : Same m s0 s) (H : Same k s s → Same22 k s x) : Same22 m s0 x :=
  Same22.step hM (H (Same.refl _ _)) h

theorem SameO.run {k m : Nat} {s0 s : State} {x : Option State} (hM : k &&& m = k) (h : Same m s0 s) (H : Same k s s → SameO k s x) : SameO m s0 x :=
  SameO.step hM (H (Same.refl _ _)) h

theorem SameO2.run {α : Type} {k m : Nat} {s0 s : State} {x : Option (α × State)} (hM : k &&& m = k) (h : Same m s0 s) (H : Same k s s → SameO2 k s x) : SameO2 m s0 x :=
  SameO2.step hM (H (Same.refl _ _)) h

theorem SameT.run {k m : Nat} {s0 s : State} {x : Host.Outcome State Fault Refusal} (hM : k &&& m = k) (h : Same m s0 s) (H : Same k s s → SameT k s x) : SameT m s0 x :=
  SameT.step hM (H (Same.refl _ _)) h


theorem Same.foldl {α : Type} {m : Nat} {s0 : State} {f : State → α → State} (hf : ∀ s, Same m s0 s → ∀ a, Same m s0 (f s a)) :
    ∀ (l : List α) (s : State), Same m s0 s → Same m s0 (l.foldl f s)
  | [], _, h => h
  | a :: l, s, h => Same.foldl hf l (f s a) (hf s h a)

theorem Same1.foldl {α β : Type} {m : Nat} {s0 : State} {f : State × β → α → State × β}
    (hf : ∀ r, Same m s0 r.1 → ∀ a, Same1 m s0 (f r a)) :
    ∀ (l : List α) (r : State × β), Same1 m s0 r → Same1 m s0 (l.foldl f r)
  | [], _, h => h
  | a :: l, r, h => Same1.foldl hf l (f r a) (hf r h.out a)

theorem Same2.foldl {α β : Type} {m : Nat} {s0 : State} {f : β × State → α → β × State}
    (hf : ∀ r, Same m s0 r.2 → ∀ a, Same2 m s0 (f r a)) :
    ∀ (l : List α) (r : β × State), Same2 m s0 r → Same2 m s0 (l.foldl f r)
  | [], _, h => h
  | a :: l, r, h => Same2.foldl hf l (f r a) (hf r h.out a)

theorem SMap.risesFrom_le {α : Type} {lo lo' : Nat} {m : SMap α} (h : lo' ≤ lo) (hr : SMap.risesFrom lo m = true) : SMap.risesFrom lo' m = true := by
  cases m with
  | nil => rfl
  | cons e m => simp only [SMap.risesFrom, Bool.and_eq_true, decide_eq_true_eq] at *; exact ⟨by omega, hr.2⟩

theorem SMap.put_rises {α : Type} {m : SMap α} {k : Nat} {v : α} {lo : Nat} (h : lo ≤ k) (hr : SMap.risesFrom lo m = true) :
    SMap.risesFrom lo (SMap.put m k v) = true := by
  induction m generalizing lo with
  | nil => simp [SMap.put, SMap.risesFrom, h]
  | cons e m ih =>
    obtain ⟨k', v'⟩ := e
    simp only [SMap.risesFrom, Bool.and_eq_true, decide_eq_true_eq] at hr
    unfold SMap.put
    split
    · simp only [SMap.risesFrom, Bool.and_eq_true, decide_eq_true_eq]; exact ⟨h, by omega, hr.2⟩
    · split
      · subst k'; simp only [SMap.risesFrom, Bool.and_eq_true, decide_eq_true_eq]; exact ⟨h, hr.2⟩
      · simp only [SMap.risesFrom, Bool.and_eq_true, decide_eq_true_eq]; exact ⟨hr.1, ih (by omega) hr.2⟩

theorem SMap.keep_rises {α : Type} {m : SMap α} {p : Nat → α → Bool} {lo : Nat} (hr : SMap.risesFrom lo m = true) :
    SMap.risesFrom lo (SMap.keep m p) = true := by
  induction m generalizing lo with
  | nil => rfl
  | cons e m ih =>
    obtain ⟨k, v⟩ := e
    simp only [SMap.risesFrom, Bool.and_eq_true, decide_eq_true_eq] at hr
    simp only [SMap.keep, List.filter]
    split
    · simp only [SMap.risesFrom, Bool.and_eq_true, decide_eq_true_eq]; exact ⟨hr.1, ih hr.2⟩
    · exact SMap.risesFrom_le (by omega) (ih hr.2)

theorem SMap.del_rises {α : Type} {m : SMap α} {k : Nat} {lo : Nat} (hr : SMap.risesFrom lo m = true) :
    SMap.risesFrom lo (SMap.del m k) = true := by
  induction m generalizing lo with
  | nil => rfl
  | cons e m ih =>
    obtain ⟨k', v'⟩ := e
    simp only [SMap.risesFrom, Bool.and_eq_true, decide_eq_true_eq] at hr
    unfold SMap.del
    split
    · exact ih (SMap.risesFrom_le (by omega) hr.2)
    · simp only [SMap.risesFrom, Bool.and_eq_true, decide_eq_true_eq]; exact ⟨hr.1, ih hr.2⟩

theorem SMap.mem_put {α : Type} {m : SMap α} {k : Nat} {v : α} {e : Nat × α} (h : e ∈ SMap.put m k v) : e = (k, v) ∨ e ∈ m := by
  induction m with
  | nil => simpa [SMap.put] using h
  | cons a m ih =>
    obtain ⟨k', v'⟩ := a
    unfold SMap.put at h
    split at h
    · simpa using h
    · split at h
      · simp only [List.mem_cons] at h ⊢; rcases h with h | h
        · exact .inl h
        · exact .inr (.inr h)
      · simp only [List.mem_cons] at h ⊢
        rcases h with h | h
        · exact .inr (.inl h)
        · rcases ih h with h | h
          · exact .inl h
          · exact .inr (.inr h)

theorem SMap.mem_del {α : Type} {m : SMap α} {k : Nat} {e : Nat × α} (h : e ∈ SMap.del m k) : e ∈ m := by
  induction m with
  | nil => simp [SMap.del] at h
  | cons a m ih =>
    obtain ⟨k', v'⟩ := a
    unfold SMap.del at h
    split at h
    · exact List.mem_cons_of_mem _ (ih h)
    · simp only [List.mem_cons] at h ⊢
      rcases h with h | h
      · exact .inl h
      · exact .inr (ih h)

theorem RegFile.wf_iff (f : RegFile) : RegFile.wf f = true ↔ SMap.risesFrom 0 f = true ∧ ∀ e ∈ f, e.2 ≠ regReset e.1 := by
  simp [RegFile.wf, RegFile.lean, SMap.wf]

/-- A write keeps the register file canonical. -/
theorem RegFile.set_wf {f : RegFile} (h : RegFile.wf f = true) (a : Nat) (v : Word) : RegFile.wf (RegFile.set f a v) = true := by
  rw [RegFile.wf_iff] at h ⊢
  unfold RegFile.set SMap.putD
  split
  · exact ⟨SMap.del_rises h.1, fun e he => h.2 e (SMap.mem_del he)⟩
  · rename_i hv
    refine ⟨SMap.put_rises (Nat.zero_le _) h.1, fun e he => ?_⟩
    rcases SMap.mem_put he with he | he
    · subst he; exact hv
    · exact h.2 e he

/-- Dropping entries keeps the register file canonical. -/
theorem RegFile.keep_wf {f : RegFile} (h : RegFile.wf f = true) (p : Nat → Word → Bool) : RegFile.wf (SMap.keep f p) = true := by
  rw [RegFile.wf_iff] at h ⊢
  exact ⟨SMap.keep_rises h.1, fun e he => h.2 e (List.mem_filter.1 he).1⟩

/-- A new register file. -/
theorem Same.regsTo {m : Nat} {s0 s : State} {r : RegFile} (h : Same m s0 s) (hm : m.testBit 1 = true)
    (hr : RegFile.wf s.regs = true → RegFile.wf r = true) : Same m s0 { s with regs := r } := by
  constructor
  · exact h.part
  · exact fun b => absurd (hm.symm.trans b) (by decide)
  · exact h.latch
  · exact h.sel
  · exact h.fab
  · exact h.tmb
  · exact h.acm
  · exact h.spdm
  · exact h.svc
  · exact h.mbx
  · exact h.lkt
  · exact h.hst
  · exact h.slm
  · exact h.zne
  · exact h.plc
  · exact h.dsc
  · exact h.med
  · exact h.flash
  · exact h.bpm
  · exact h.dmc
  · exact h.ump
  · exact h.sgd
  · exact h.kst
  · exact h.dge
  · exact h.sgn
  · exact h.cls
  · exact h.bot
  · exact h.age
  · exact h.tsn
  · exact h.free
  · exact h.pending
  · exact fun b => hr (h.canon b)
  · exact h.time

end Sys2Proof.Machine
end

