-- ==== Sys2Proof/Laws/Frame1.lean ====
section
/-! SUPPORT. What each operation may change (Sys2Proof/Laws/Frame.lean), part 1 of 6: rset to xteReplace. A number is the set of
fields of State, bit k the k-th. -/
namespace Sys2Proof.Machine
open Sys2Proof
set_option maxRecDepth 4000
set_option linter.all false

theorem rset_frame {m : Nat} {s0 : State} : ∀ s x1 x2, 2 &&& m = 2 → Same m s0 s → Same m s0 (rset s x1 x2) :=
  fun s x1 x2 hm h => Same.step hm (Same.regsTo (Same.refl _ s) rfl fun h => RegFile.set_wf h x1 (BitVec.ofNat 32 x2)) h

theorem fset_frame {m : Nat} {s0 : State} : ∀ s x1 x2, 2 &&& m = 2 → Same m s0 s → Same m s0 (fset s x1 x2) :=
  fun s _ _ hm h => Same.step hm (Same.regsTo (Same.refl _ s) rfl fun h => RegFile.set_wf h _ _) h

theorem portUpd_frame {m : Nat} {s0 : State} : ∀ s x1 x2, 2048 &&& m = 2048 → Same m s0 s → Same m s0 (portUpd s x1 x2) := by
  intro s x1 x2 hM h
  refine Same.run hM h fun h0 => ?_
  unfold portUpd
  repeat' (with_reducible first
    | (extract_lets +onlyGivenNames z; clear_value z; apply Same.letAny z; clear z; intro z)
    | (refine Same.updHst ?_ rfl; assumption))

theorem confDefaults_frame {m : Nat} {s0 : State} : ∀ s x1, 2050 &&& m = 2050 → Same m s0 s → Same m s0 (confDefaults s x1) := by
  intro s x1 hM h
  refine Same.run hM h fun h0 => ?_
  unfold confDefaults
  repeat' (with_reducible first
    | assumption
    | intro _
    | exact Same.bits rfl
    | apply portUpd_frame
    | apply fset_frame
    | dsimp -zeta only)

theorem linkDownShow_frame {m : Nat} {s0 : State} : ∀ s x1, 2050 &&& m = 2050 → Same m s0 s → Same m s0 (linkDownShow s x1) := by
  intro s x1 hM h
  refine Same.run hM h fun h0 => ?_
  unfold linkDownShow
  repeat' (with_reducible first
    | assumption
    | exact Same.bits rfl
    | apply confDefaults_frame
    | apply rset_frame
    | dsimp -zeta only)

theorem fon_frame {m : Nat} {s0 : State} : ∀ s x1, 2 &&& m = 2 → Same m s0 s → Same m s0 (fon s x1) := by
  intro s x1 hM h
  refine Same.run hM h fun h0 => ?_
  unfold fon
  repeat' (with_reducible first
    | assumption
    | exact Same.bits rfl
    | apply fset_frame)

theorem fadd_frame {m : Nat} {s0 : State} : ∀ s x1 x2, 2 &&& m = 2 → Same m s0 s → Same m s0 (fadd s x1 x2) := by
  intro s x1 x2 hM h
  refine Same.run hM h fun h0 => ?_
  unfold fadd
  repeat' (with_reducible first
    | assumption
    | exact Same.bits rfl
    | apply fset_frame)

theorem finc_frame {m : Nat} {s0 : State} : ∀ s x1, 2 &&& m = 2 → Same m s0 s → Same m s0 (finc s x1) := by
  intro s x1 hM h
  refine Same.run hM h fun h0 => ?_
  unfold finc
  repeat' (with_reducible first
    | assumption
    | exact Same.bits rfl
    | apply fadd_frame)

theorem lktAccept_frame {m : Nat} {s0 : State} : ∀ s x1 x2 x3 x4 x5 x6, 1026 &&& m = 1026 → Same m s0 s → Same m s0 (lktAccept s x1 x2 x3 x4 x5 x6) := by
  intro s x1 x2 x3 x4 x5 x6 hM h
  refine Same.run hM h fun h0 => ?_
  unfold lktAccept
  repeat' (with_reducible first
    | exact Same.bits rfl
    | (extract_lets +onlyGivenNames z; clear_value z; apply Same.letAny z; clear z; intro z)
    | apply Same.ite
    | apply fon_frame
    | apply finc_frame
    | (refine Same.updLkt ?_ rfl; assumption))

theorem post_frame {m : Nat} {s0 : State} : ∀ s x1 x2 x3 x4 x5 x6 x7, 2098178 &&& m = 2098178 → Same m s0 s → Same m s0 (post s x1 x2 x3 x4 x5 x6 x7) := by
  intro s x1 x2 x3 x4 x5 x6 x7 hM h
  refine Same.run hM h fun h0 => ?_
  unfold post
  repeat' (with_reducible first
    | assumption
    | exact Same.bits rfl
    | (extract_lets +onlyGivenNames z; change State at z; apply Same.cutS h0 (x := z); unfold z; clear z; rotate_left; intro h; clear_value z; apply Same.letS h; clear h z; intro z h)
    | (extract_lets +onlyGivenNames z; clear_value z; apply Same.letAny z; clear z; intro z)
    | apply Same.ite
    | apply fon_frame
    | apply finc_frame
    | apply lktAccept_frame
    | (refine Same.updLkt ?_ rfl; assumption)
    | (refine Same.updSgd ?_ rfl; assumption))

theorem testRecord_frame {m : Nat} {s0 : State} : ∀ s x1, 2098178 &&& m = 2098178 → Same m s0 s → Same m s0 (testRecord s x1) := by
  intro s x1 hM h
  refine Same.run hM h fun h0 => ?_
  unfold testRecord
  repeat' (with_reducible first
    | assumption
    | exact Same.bits rfl
    | apply post_frame)

theorem pset_frame {m : Nat} {s0 : State} : ∀ s x1 x2 x3, 2 &&& m = 2 → Same m s0 s → Same m s0 (pset s x1 x2 x3) := by
  intro s x1 x2 x3 hM h
  refine Same.run hM h fun h0 => ?_
  unfold pset
  repeat' (with_reducible first
    | assumption
    | exact Same.bits rfl
    | apply rset_frame)

theorem testAbort_frame {m : Nat} {s0 : State} : ∀ s, 2098178 &&& m = 2098178 → Same m s0 s → Same m s0 (testAbort s) := by
  intro s hM h
  refine Same.run hM h fun h0 => ?_
  unfold testAbort
  repeat' (with_reducible first
    | assumption
    | exact Same.bits rfl
    | (extract_lets +onlyGivenNames z; change State at z; apply Same.cutS h0 (x := z); unfold z; clear z; rotate_left; intro h; clear_value z; apply Same.letS h; clear h z; intro z h)
    | apply Same.ite
    | apply fset_frame
    | apply testRecord_frame
    | apply pset_frame)

theorem portDownloadDrop_frame {m : Nat} {s0 : State} : ∀ s x1, 67108864 &&& m = 67108864 → Same m s0 s → Same m s0 (portDownloadDrop s x1) := by
  intro s x1 hM h
  refine Same.run hM h fun h0 => ?_
  unfold portDownloadDrop
  repeat' (with_reducible first
    | assumption
    | (extract_lets +onlyGivenNames z; clear_value z; apply Same.letAny z; clear z; intro z)
    | apply Same.ite
    | (refine Same.updBot ?_ rfl; assumption)
    | split)

theorem reach_frame {m : Nat} {s0 : State} : ∀ s t, 34 &&& m = 34 → Same m s0 s → Same m s0 (reach s t) := by
  intro s t hM h
  have hT : ∀ (x : Tmb), s.tmb.time ≤ x.time → Same m s0 { s with tmb := x } := fun x hx =>
    Same.step (k := 32) (Same.sub (by decide) hM)
      (by constructor <;> first | (intro _; rfl) | (intro e; exact absurd e (by decide)) | exact fun e => e | exact hx) h
  unfold reach
  split
  · exact h
  · rename_i hc
    have ht : s.tmb.time ≤ t := by simp at hc; omega
    dsimp only
    split
    · exact hT _ ht
    · split
      · refine fon_frame _ _ (Same.sub (by decide) hM) (hT _ ?_)
        dsimp only
        split <;> omega
      · exact hT _ ht

theorem owedIssue_frame {m : Nat} {s0 : State} : ∀ s, 524290 &&& m = 524290 → Same m s0 s → Same m s0 (owedIssue s) := by
  intro s hM h
  refine Same.run hM h fun h0 => ?_
  unfold owedIssue
  repeat' (with_reducible first
    | assumption
    | intro _
    | exact Same.bits rfl
    | (extract_lets +onlyGivenNames z; change State at z; apply Same.cutS h0 (x := z); unfold z; clear z; rotate_left; intro h; clear_value z; apply Same.letS h; clear h z; intro z h)
    | (extract_lets +onlyGivenNames z; change _ × _ × State at z; apply Same.cut22 h0 (x := z); unfold z; clear z; rotate_left; intro h; clear_value z; apply Same.let22 (x := z) h; clear h z; intro z h)
    | (extract_lets +onlyGivenNames z; change _ × State at z; apply Same.cut2 h0 (x := z); unfold z; clear z; rotate_left; intro h; clear_value z; apply Same.let2 (x := z) h; clear h z; intro z h)
    | (extract_lets +onlyGivenNames z; clear_value z; apply Same.letAny z; clear z; intro z)
    | apply fadd_frame
    | (refine Same.updDmc ?_ rfl; assumption)
    | apply Same.foldl
    | dsimp -zeta only)

theorem delaysRefresh_frame {m : Nat} {s0 : State} : ∀ s x1, 524288 &&& m = 524288 → Same m s0 s → Same m s0 (delaysRefresh s x1) := by
  intro s x1 hM h
  refine Same.run hM h fun h0 => ?_
  unfold delaysRefresh
  repeat' (with_reducible first
    | assumption
    | intro _
    | exact Same.bits rfl
    | (refine Same.updDmc ?_ rfl; assumption)
    | dsimp -zeta only)

theorem rtBurst_frame {m : Nat} {s0 : State} : ∀ s x1 x2, 524290 &&& m = 524290 → Same m s0 s → Same m s0 (rtBurst s x1 x2) := by
  intro s x1 x2 hM h
  refine Same.run hM h fun h0 => ?_
  unfold rtBurst
  repeat' (with_reducible first
    | assumption
    | intro _
    | exact Same.bits rfl
    | (extract_lets +onlyGivenNames z; change State at z; apply Same.cutS h0 (x := z); unfold z; clear z; rotate_left; intro h; clear_value z; apply Same.letS h; clear h z; intro z h)
    | (extract_lets +onlyGivenNames z; change _ × _ × State at z; apply Same.cut22 h0 (x := z); unfold z; clear z; rotate_left; intro h; clear_value z; apply Same.let22 (x := z) h; clear h z; intro z h)
    | (extract_lets +onlyGivenNames z; change _ × State at z; apply Same.cut2 h0 (x := z); unfold z; clear z; rotate_left; intro h; clear_value z; apply Same.let2 (x := z) h; clear h z; intro z h)
    | (extract_lets +onlyGivenNames z; clear_value z; apply Same.letAny z; clear z; intro z)
    | apply Same.ite
    | apply delaysRefresh_frame
    | apply owedIssue_frame
    | (refine Same.updDmc ?_ rfl; assumption)
    | apply Same.foldl
    | split
    | dsimp -zeta only)

theorem nrmBurst_frame {m : Nat} {s0 : State} : ∀ s x1 x2 x3, 524288 &&& m = 524288 → Same m s0 s → Same m s0 (nrmBurst s x1 x2 x3) := by
  intro s x1 x2 x3 hM h
  refine Same.run hM h fun h0 => ?_
  unfold nrmBurst
  repeat' (with_reducible first
    | assumption
    | exact Same.bits rfl
    | apply Same.ite
    | (refine Same.updDmc ?_ rfl; assumption)
    | split
    | dsimp -zeta only)

theorem burst_frame {m : Nat} {s0 : State} : ∀ s, 524290 &&& m = 524290 → Same m s0 s → Same m s0 (burst s) := by
  intro s hM h
  refine Same.run hM h fun h0 => ?_
  unfold burst
  repeat' (with_reducible first
    | assumption
    | exact Same.bits rfl
    | apply Same.ite
    | apply nrmBurst_frame
    | apply rtBurst_frame
    | split
    | dsimp -zeta only)

theorem idle_frame {m : Nat} {s0 : State} : ∀ s, 524322 &&& m = 524322 → Same m s0 s → Same m s0 (idle s) := by
  intro s hM h
  refine Same.run hM h fun h0 => ?_
  unfold idle
  repeat' (with_reducible first
    | assumption
    | exact Same.bits rfl
    | apply burst_frame
    | apply reach_frame
    | dsimp -zeta only)

theorem ageDecode_frame {m : Nat} {s0 : State} : ∀ s x1 x2 x3 x4 x5, 134217728 &&& m = 134217728 → Same m s0 s → Same m s0 (ageDecode s x1 x2 x3 x4 x5) := by
  intro s x1 x2 x3 x4 x5 hM h
  refine Same.run hM h fun h0 => ?_
  unfold ageDecode
  repeat' (with_reducible first
    | assumption
    | intro _
    | exact Same.bits rfl
    | (extract_lets +onlyGivenNames z; change State at z; apply Same.cutS h0 (x := z); unfold z; clear z; rotate_left; intro h; clear_value z; apply Same.letS h; clear h z; intro z h)
    | (extract_lets +onlyGivenNames z; change _ × _ × State at z; apply Same.cut22 h0 (x := z); unfold z; clear z; rotate_left; intro h; clear_value z; apply Same.let22 (x := z) h; clear h z; intro z h)
    | (extract_lets +onlyGivenNames z; change _ × State at z; apply Same.cut2 h0 (x := z); unfold z; clear z; rotate_left; intro h; clear_value z; apply Same.let2 (x := z) h; clear h z; intro z h)
    | (extract_lets +onlyGivenNames z; change _ → _ at z; apply Same.cutF z; subst z)
    | (extract_lets +onlyGivenNames z; clear_value z; apply Same.letAny z; clear z; intro z)
    | apply Same.ite
    | (refine Same.updAge ?_ rfl; assumption)
    | split
    | dsimp -zeta only)

theorem queuePut_frame {m : Nat} {s0 : State} : ∀ s x1 x2, 32770 &&& m = 32770 → Same m s0 s → Same m s0 (queuePut s x1 x2) := by
  intro s x1 x2 hM h
  refine Same.run hM h fun h0 => ?_
  unfold queuePut
  repeat' (with_reducible first
    | assumption
    | exact Same.bits rfl
    | (extract_lets +onlyGivenNames z; change State at z; apply Same.cutS h0 (x := z); unfold z; clear z; rotate_left; intro h; clear_value z; apply Same.letS h; clear h z; intro z h)
    | (extract_lets +onlyGivenNames z; clear_value z; apply Same.letAny z; clear z; intro z)
    | apply fset_frame
    | (refine Same.updDsc ?_ rfl; assumption))

theorem parkPut_frame {m : Nat} {s0 : State} : ∀ s x1 x2, 32768 &&& m = 32768 → Same m s0 s → Same m s0 (parkPut s x1 x2) := by
  intro s x1 x2 hM h
  refine Same.run hM h fun h0 => ?_
  unfold parkPut
  repeat' (with_reducible first
    | assumption
    | exact Same.bits rfl
    | apply Same.ite
    | (refine Same.updDsc ?_ rfl; assumption)
    | split
    | dsimp -zeta only)

theorem queueEnter_frame {m : Nat} {s0 : State} : ∀ s x1 x2, 32770 &&& m = 32770 → Same m s0 s → Same m s0 (queueEnter s x1 x2) := by
  intro s x1 x2 hM h
  refine Same.run hM h fun h0 => ?_
  unfold queueEnter
  repeat' (with_reducible first
    | assumption
    | exact Same.bits rfl
    | (extract_lets +onlyGivenNames z; change State at z; apply Same.cutS h0 (x := z); unfold z; clear z; rotate_left; intro h; clear_value z; apply Same.letS h; clear h z; intro z h)
    | (extract_lets +onlyGivenNames z; change _ × _ × State at z; apply Same.cut22 h0 (x := z); unfold z; clear z; rotate_left; intro h; clear_value z; apply Same.let22 (x := z) h; clear h z; intro z h)
    | (extract_lets +onlyGivenNames z; change _ × State at z; apply Same.cut2 h0 (x := z); unfold z; clear z; rotate_left; intro h; clear_value z; apply Same.let2 (x := z) h; clear h z; intro z h)
    | (extract_lets +onlyGivenNames z; clear_value z; apply Same.letAny z; clear z; intro z)
    | apply queuePut_frame
    | dsimp -zeta only)

theorem enqueue_frame {m : Nat} {s0 : State} : ∀ s x1 x2, 32770 &&& m = 32770 → Same m s0 s → Same m s0 (enqueue s x1 x2) := by
  intro s x1 x2 hM h
  refine Same.run hM h fun h0 => ?_
  unfold enqueue
  repeat' (with_reducible first
    | assumption
    | exact Same.bits rfl
    | (extract_lets +onlyGivenNames z; change State at z; apply Same.cutS h0 (x := z); unfold z; clear z; rotate_left; intro h; clear_value z; apply Same.letS h; clear h z; intro z h)
    | (extract_lets +onlyGivenNames z; change _ × _ × State at z; apply Same.cut22 h0 (x := z); unfold z; clear z; rotate_left; intro h; clear_value z; apply Same.let22 (x := z) h; clear h z; intro z h)
    | (extract_lets +onlyGivenNames z; change _ × State at z; apply Same.cut2 h0 (x := z); unfold z; clear z; rotate_left; intro h; clear_value z; apply Same.let2 (x := z) h; clear h z; intro z h)
    | (extract_lets +onlyGivenNames z; clear_value z; apply Same.letAny z; clear z; intro z)
    | apply Same.ite
    | apply queueEnter_frame
    | apply parkPut_frame
    | (refine Same.updDsc ?_ rfl; assumption)
    | split
    | dsimp -zeta only)

theorem streamsRefresh_frame {m : Nat} {s0 : State} : ∀ s, 2 &&& m = 2 → Same m s0 s → Same m s0 (streamsRefresh s) := by
  intro s hM h
  refine Same.run hM h fun h0 => ?_
  unfold streamsRefresh
  repeat' (with_reducible first
    | assumption
    | intro _
    | exact Same.bits rfl
    | (extract_lets +onlyGivenNames z; change State at z; apply Same.cutS h0 (x := z); unfold z; clear z; rotate_left; intro h; clear_value z; apply Same.letS h; clear h z; intro z h)
    | (extract_lets +onlyGivenNames z; change _ × _ × State at z; apply Same.cut22 h0 (x := z); unfold z; clear z; rotate_left; intro h; clear_value z; apply Same.let22 (x := z) h; clear h z; intro z h)
    | (extract_lets +onlyGivenNames z; change _ × State at z; apply Same.cut2 h0 (x := z); unfold z; clear z; rotate_left; intro h; clear_value z; apply Same.let2 (x := z) h; clear h z; intro z h)
    | (extract_lets +onlyGivenNames z; clear_value z; apply Same.letAny z; clear z; intro z)
    | apply fset_frame
    | dsimp -zeta only)

theorem streamOpen_frame {m : Nat} {s0 : State} : ∀ s x1, 16386 &&& m = 16386 → Same m s0 s → Same2 m s0 (streamOpen s x1) := by
  intro s x1 hM h
  refine Same2.run hM h fun h0 => ?_
  unfold streamOpen
  repeat' (with_reducible first
    | assumption
    | exact Same.bits rfl
    | (extract_lets +onlyGivenNames z; clear_value z; apply Same.letAny z; clear z; intro z)
    | apply Same2.ite
    | apply fon_frame
    | apply streamsRefresh_frame
    | (refine Same.updPlc ?_ rfl; assumption)
    | apply Same2.mk')

theorem claimFrom_frame {m : Nat} {s0 : State} : ∀ s x1 x2 x3, 16386 &&& m = 16386 → Same m s0 s → Same2 m s0 (claimFrom s x1 x2 x3) := by
  intro s x1 x2 x3 hM h
  refine Same2.run hM h fun h0 => ?_
  unfold claimFrom
  repeat' (with_reducible first
    | assumption
    | intro _
    | exact Same.bits rfl
    | (extract_lets +onlyGivenNames z; change State at z; apply Same.cutS h0 (x := z); unfold z; clear z; rotate_left; intro h; clear_value z; apply Same.letS h; clear h z; intro z h)
    | (extract_lets +onlyGivenNames z; change _ × _ × State at z; apply Same.cut22 h0 (x := z); unfold z; clear z; rotate_left; intro h; clear_value z; apply Same.let22 (x := z) h; clear h z; intro z h)
    | (extract_lets +onlyGivenNames z; change _ × State at z; apply Same.cut2 h0 (x := z); unfold z; clear z; rotate_left; intro h; clear_value z; apply Same.let2 (x := z) h; clear h z; intro z h)
    | (extract_lets +onlyGivenNames z; clear_value z; apply Same.letAny z; clear z; intro z)
    | apply Same.ite
    | apply Same2.ite
    | apply streamsRefresh_frame
    | (refine Same.updPlc ?_ rfl; assumption)
    | apply Same.foldl
    | apply Same2.foldl
    | split
    | dsimp -zeta only
    | apply Same2.mk')

theorem claimSlots_frame {m : Nat} {s0 : State} : ∀ s x1 x2 x3, 16386 &&& m = 16386 → Same m s0 s → Same2 m s0 (claimSlots s x1 x2 x3) := by
  intro s x1 x2 x3 hM h
  refine Same2.run hM h fun h0 => ?_
  unfold claimSlots
  repeat' (with_reducible first
    | assumption
    | exact Same.bits rfl
    | apply streamOpen_frame
    | apply claimFrom_frame
    | (apply Same.ofPair2; assumption)
    | (apply Same2.out; apply streamOpen_frame)
    | (apply Same2.out; apply claimFrom_frame)
    | split
    | dsimp -zeta only
    | apply Same2.mk')

theorem eraseMembers_frame {m : Nat} {s0 : State} : ∀ s x1 x2 x3 x4, 98306 &&& m = 98306 → Same m s0 s → Same m s0 (eraseMembers s x1 x2 x3 x4) := by
  intro s x1 x2 x3 x4 hM h
  refine Same.run hM h fun h0 => ?_
  unfold eraseMembers
  repeat' (with_reducible first
    | assumption
    | intro _
    | exact Same.bits rfl
    | (extract_lets +onlyGivenNames z; change State at z; apply Same.cutS h0 (x := z); unfold z; clear z; rotate_left; intro h; clear_value z; apply Same.letS h; clear h z; intro z h)
    | (extract_lets +onlyGivenNames z; change _ × _ × State at z; apply Same.cut22 h0 (x := z); unfold z; clear z; rotate_left; intro h; clear_value z; apply Same.let22 (x := z) h; clear h z; intro z h)
    | (extract_lets +onlyGivenNames z; change _ × State at z; apply Same.cut2 h0 (x := z); unfold z; clear z; rotate_left; intro h; clear_value z; apply Same.let2 (x := z) h; clear h z; intro z h)
    | (extract_lets +onlyGivenNames z; clear_value z; apply Same.letAny z; clear z; intro z)
    | apply Same.ite
    | apply enqueue_frame
    | (refine Same.updMed ?_ rfl; assumption)
    | apply Same.foldl
    | split
    | dsimp -zeta only)

theorem fbiton_frame {m : Nat} {s0 : State} : ∀ s x1 x2, 2 &&& m = 2 → Same m s0 s → Same m s0 (fbiton s x1 x2) := by
  intro s x1 x2 hM h
  refine Same.run hM h fun h0 => ?_
  unfold fbiton
  repeat' (with_reducible first
    | assumption
    | exact Same.bits rfl
    | apply fset_frame)

theorem fbitoff_frame {m : Nat} {s0 : State} : ∀ s x1 x2, 2 &&& m = 2 → Same m s0 s → Same m s0 (fbitoff s x1 x2) := by
  intro s x1 x2 hM h
  refine Same.run hM h fun h0 => ?_
  unfold fbitoff
  repeat' (with_reducible first
    | assumption
    | exact Same.bits rfl
    | apply Same.ite
    | apply fset_frame)

theorem grpSet_frame {m : Nat} {s0 : State} : ∀ s x1 x2 x3, 2 &&& m = 2 → Same m s0 s → Same m s0 (grpSet s x1 x2 x3) := by
  intro s x1 x2 x3 hM h
  refine Same.run hM h fun h0 => ?_
  unfold grpSet
  repeat' (with_reducible first
    | assumption
    | exact Same.bits rfl
    | apply Same.ite
    | apply fbiton_frame
    | apply fbitoff_frame)

theorem stgEvents_frame {m : Nat} {s0 : State} : ∀ s, 2 &&& m = 2 → Same m s0 s → Same m s0 (stgEvents s) := by
  intro s hM h
  refine Same.run hM h fun h0 => ?_
  unfold stgEvents
  repeat' (with_reducible first
    | assumption
    | exact Same.bits rfl
    | (extract_lets +onlyGivenNames z; change State at z; apply Same.cutS h0 (x := z); unfold z; clear z; rotate_left; intro h; clear_value z; apply Same.letS h; clear h z; intro z h)
    | (extract_lets +onlyGivenNames z; change _ × _ × State at z; apply Same.cut22 h0 (x := z); unfold z; clear z; rotate_left; intro h; clear_value z; apply Same.let22 (x := z) h; clear h z; intro z h)
    | (extract_lets +onlyGivenNames z; change _ × State at z; apply Same.cut2 h0 (x := z); unfold z; clear z; rotate_left; intro h; clear_value z; apply Same.let2 (x := z) h; clear h z; intro z h)
    | (extract_lets +onlyGivenNames z; clear_value z; apply Same.letAny z; clear z; intro z)
    | apply Same.ite
    | apply fon_frame
    | split
    | dsimp -zeta only)

theorem stagingRefresh_frame {m : Nat} {s0 : State} : ∀ s, 2 &&& m = 2 → Same m s0 s → Same m s0 (stagingRefresh s) := by
  intro s hM h
  refine Same.run hM h fun h0 => ?_
  unfold stagingRefresh
  repeat' (with_reducible first
    | assumption
    | intro _
    | exact Same.bits rfl
    | (extract_lets +onlyGivenNames z; change State at z; apply Same.cutS h0 (x := z); unfold z; clear z; rotate_left; intro h; clear_value z; apply Same.letS h; clear h z; intro z h)
    | (extract_lets +onlyGivenNames z; change _ × _ × State at z; apply Same.cut22 h0 (x := z); unfold z; clear z; rotate_left; intro h; clear_value z; apply Same.let22 (x := z) h; clear h z; intro z h)
    | (extract_lets +onlyGivenNames z; change _ × State at z; apply Same.cut2 h0 (x := z); unfold z; clear z; rotate_left; intro h; clear_value z; apply Same.let2 (x := z) h; clear h z; intro z h)
    | (extract_lets +onlyGivenNames z; clear_value z; apply Same.letAny z; clear z; intro z)
    | apply Same.ite
    | apply fset_frame
    | apply stgEvents_frame
    | apply Same.foldl
    | split
    | dsimp -zeta only)

theorem grpRefresh_frame {m : Nat} {s0 : State} : ∀ s x1, 2 &&& m = 2 → Same m s0 s → Same m s0 (grpRefresh s x1) := by
  intro s x1 hM h
  refine Same.run hM h fun h0 => ?_
  unfold grpRefresh
  repeat' (with_reducible first
    | assumption
    | intro _
    | exact Same.bits rfl
    | (extract_lets +onlyGivenNames z; change State at z; apply Same.cutS h0 (x := z); unfold z; clear z; rotate_left; intro h; clear_value z; apply Same.letS h; clear h z; intro z h)
    | (extract_lets +onlyGivenNames z; change _ × _ × State at z; apply Same.cut22 h0 (x := z); unfold z; clear z; rotate_left; intro h; clear_value z; apply Same.let22 (x := z) h; clear h z; intro z h)
    | (extract_lets +onlyGivenNames z; change _ × State at z; apply Same.cut2 h0 (x := z); unfold z; clear z; rotate_left; intro h; clear_value z; apply Same.let2 (x := z) h; clear h z; intro z h)
    | (extract_lets +onlyGivenNames z; clear_value z; apply Same.letAny z; clear z; intro z)
    | apply grpSet_frame
    | apply stagingRefresh_frame
    | dsimp -zeta only)

theorem handleTake_frame {m : Nat} {s0 : State} : ∀ s x1 x2, 16384 &&& m = 16384 → Same m s0 s → Same m s0 (handleTake s x1 x2) := by
  intro s x1 x2 hM h
  refine Same.run hM h fun h0 => ?_
  unfold handleTake
  repeat' (with_reducible first
    | assumption
    | exact Same.bits rfl
    | (refine Same.updPlc ?_ rfl; assumption)
    | dsimp -zeta only)

theorem takeSet_frame {m : Nat} {s0 : State} : ∀ s x1 x2 x3 x4 x5 x6 x7, 114690 &&& m = 114690 → Same m s0 s → Same m s0 (takeSet s x1 x2 x3 x4 x5 x6 x7) := by
  intro s x1 x2 x3 x4 x5 x6 x7 hM h
  refine Same.run hM h fun h0 => ?_
  unfold takeSet
  repeat' (with_reducible first
    | assumption
    | intro _
    | exact Same.bits rfl
    | (extract_lets +onlyGivenNames z; change State at z; apply Same.cutS h0 (x := z); unfold z; clear z; rotate_left; intro h; clear_value z; apply Same.letS h; clear h z; intro z h)
    | (extract_lets +onlyGivenNames z; change _ × _ × State at z; apply Same.cut22 h0 (x := z); unfold z; clear z; rotate_left; intro h; clear_value z; apply Same.let22 (x := z) h; clear h z; intro z h)
    | (extract_lets +onlyGivenNames z; change _ × State at z; apply Same.cut2 h0 (x := z); unfold z; clear z; rotate_left; intro h; clear_value z; apply Same.let2 (x := z) h; clear h z; intro z h)
    | (extract_lets +onlyGivenNames z; change _ → _ at z; apply Same.cutF z; subst z)
    | (extract_lets +onlyGivenNames z; clear_value z; apply Same.letAny z; clear z; intro z)
    | apply Same.ite
    | apply handleTake_frame
    | apply eraseMembers_frame
    | apply grpRefresh_frame
    | (refine Same.updMed ?_ rfl; assumption)
    | (refine Same.updPlc ?_ rfl; assumption)
    | apply Same.foldl
    | split
    | dsimp -zeta only)

theorem prepareIn_frame {m : Nat} {s0 : State} : ∀ s x1, 114690 &&& m = 114690 → Same m s0 s → SameO2 m s0 (prepareIn s x1) := by
  intro s x1 hM h
  refine SameO2.run hM h fun h0 => ?_
  unfold prepareIn
  repeat' (with_reducible first
    | assumption
    | intro _
    | exact Same.bits rfl
    | (extract_lets +onlyGivenNames z; change State at z; apply Same.cutS h0 (x := z); unfold z; clear z; rotate_left; intro h; clear_value z; apply Same.letS h; clear h z; intro z h)
    | (extract_lets +onlyGivenNames z; change _ × _ × State at z; apply Same.cut22 h0 (x := z); unfold z; clear z; rotate_left; intro h; clear_value z; apply Same.let22 (x := z) h; clear h z; intro z h)
    | (extract_lets +onlyGivenNames z; change _ × State at z; apply Same.cut2 h0 (x := z); unfold z; clear z; rotate_left; intro h; clear_value z; apply Same.let2 (x := z) h; clear h z; intro z h)
    | (extract_lets +onlyGivenNames z; change _ → _ at z; apply Same.cutF z; subst z)
    | (extract_lets +onlyGivenNames z; clear_value z; apply Same.letAny z; clear z; intro z)
    | apply Same.ite
    | apply Same2.ite
    | apply SameO2.ite
    | apply takeSet_frame
    | (refine Same.updPlc ?_ rfl; assumption)
    | apply SameO2.some
    | exact SameO2.none
    | split
    | dsimp -zeta only
    | apply Same2.mk')

theorem addStripe_frame {m : Nat} {s0 : State} : ∀ s x1, 16384 &&& m = 16384 → Same m s0 s → Same2 m s0 (addStripe s x1) := by
  intro s x1 hM h
  refine Same2.run hM h fun h0 => ?_
  unfold addStripe
  repeat' (with_reducible first
    | (extract_lets +onlyGivenNames z; clear_value z; apply Same.letAny z; clear z; intro z)
    | (refine Same.updPlc ?_ rfl; assumption)
    | apply Same2.mk')

theorem prepareN_frame {m : Nat} {s0 : State} : ∀ s x1 x2 x3, 16384 &&& m = 16384 → Same m s0 s → Same m s0 (prepareN s x1 x2 x3) := by
  have H : ∀ {s0 : State} s x1 x2 x3, Same 16384 s0 s → Same 16384 s0 (prepareN s x1 x2 x3) := by
    intro s0 s x1 x2 x3 h0
    induction x3 generalizing s x1 x2 with
    | zero =>
      rw [prepareN]
      repeat' (with_reducible first
      | assumption
      | exact Same.bits rfl
      | apply ih
      | (extract_lets +onlyGivenNames z; clear_value z; apply Same.letAny z; clear z; intro z)
      | apply Same.ite
      | (refine Same.updPlc ?_ rfl; assumption)
      | (refine Same.updPlc ?_ rfl; apply Same2.out; apply addStripe_frame)
      | split)
    | succ k ih =>
      rw [prepareN]
      repeat' (with_reducible first
      | assumption
      | exact Same.bits rfl
      | apply ih
      | (extract_lets +onlyGivenNames z; clear_value z; apply Same.letAny z; clear z; intro z)
      | apply Same.ite
      | (refine Same.updPlc ?_ rfl; assumption)
      | (refine Same.updPlc ?_ rfl; apply Same2.out; apply addStripe_frame)
      | split)
  intro s x1 x2 x3 hM h
  exact Same.step hM (H s x1 x2 x3 (Same.refl _ _)) h

theorem prepare_frame {m : Nat} {s0 : State} : ∀ s x1, 114690 &&& m = 114690 → Same m s0 s → Same m s0 (prepare s x1) := by
  intro s x1 hM h
  refine Same.run hM h fun h0 => ?_
  unfold prepare
  repeat' (with_reducible first
    | assumption
    | exact Same.bits rfl
    | apply prepareIn_frame
    | apply streamsRefresh_frame
    | apply grpRefresh_frame
    | apply prepareN_frame
    | (apply Same.ofSome2; assumption)
    | split)

theorem prepareFor_frame {m : Nat} {s0 : State} : ∀ s x1 x2 x3, 114690 &&& m = 114690 → Same m s0 s → Same m s0 (prepareFor s x1 x2 x3) := by
  have H : ∀ {s0 : State} s x1 x2 x3, Same 114690 s0 s → Same 114690 s0 (prepareFor s x1 x2 x3) := by
    intro s0 s x1 x2 x3 h0
    induction x3 generalizing s x1 x2 with
    | zero =>
      rw [prepareFor]
      repeat' (with_reducible first
      | assumption
      | exact Same.bits rfl
      | apply ih
      | apply Same.ite
      | apply prepare_frame)
    | succ k ih =>
      rw [prepareFor]
      repeat' (with_reducible first
      | assumption
      | exact Same.bits rfl
      | apply ih
      | apply Same.ite
      | apply prepare_frame)
  intro s x1 x2 x3 hM h
  exact Same.step hM (H s x1 x2 x3 (Same.refl _ _)) h

theorem setMember_frame {m : Nat} {s0 : State} : ∀ s x1 x2, 16384 &&& m = 16384 → Same m s0 s → Same m s0 (setMember s x1 x2) := by
  intro s x1 x2 hM h
  refine Same.run hM h fun h0 => ?_
  unfold setMember
  repeat' (with_reducible first
    | (extract_lets +onlyGivenNames z; clear_value z; apply Same.letAny z; clear z; intro z)
    | (refine Same.updPlc ?_ rfl; assumption))

theorem ctxUpd_frame {m : Nat} {s0 : State} : ∀ s x1 x2, 2048 &&& m = 2048 → Same m s0 s → Same m s0 (ctxUpd s x1 x2) := by
  intro s x1 x2 hM h
  refine Same.run hM h fun h0 => ?_
  unfold ctxUpd
  repeat' (with_reducible first
    | (extract_lets +onlyGivenNames z; clear_value z; apply Same.letAny z; clear z; intro z)
    | (refine Same.updHst ?_ rfl; assumption))

theorem ctxEnd_frame {m : Nat} {s0 : State} : ∀ s x1 x2 x3 x4, 2048 &&& m = 2048 → Same m s0 s → Same m s0 (ctxEnd s x1 x2 x3 x4) := by
  intro s x1 x2 x3 x4 hM h
  refine Same.run hM h fun h0 => ?_
  unfold ctxEnd
  repeat' (with_reducible first
    | assumption
    | exact Same.bits rfl
    | apply ctxUpd_frame)

theorem errLog_frame {m : Nat} {s0 : State} : ∀ s x1 x2, 2048 &&& m = 2048 → Same m s0 s → Same m s0 (errLog s x1 x2) := by
  intro s x1 x2 hM h
  refine Same.run hM h fun h0 => ?_
  unfold errLog
  repeat' (with_reducible first
    | (extract_lets +onlyGivenNames z; clear_value z; apply Same.letAny z; clear z; intro z)
    | (refine Same.updHst ?_ rfl; assumption))

theorem ctxFail_frame {m : Nat} {s0 : State} : ∀ s x1 x2 x3, 2048 &&& m = 2048 → Same m s0 s → Same m s0 (ctxFail s x1 x2 x3) := by
  intro s x1 x2 x3 hM h
  refine Same.run hM h fun h0 => ?_
  unfold ctxFail
  repeat' (with_reducible first
    | assumption
    | exact Same.bits rfl
    | apply Same.ite
    | apply errLog_frame
    | apply ctxEnd_frame
    | split)

theorem readDone_frame {m : Nat} {s0 : State} : ∀ s x1, 2048 &&& m = 2048 → Same m s0 s → Same m s0 (readDone s x1) := by
  intro s x1 hM h
  refine Same.run hM h fun h0 => ?_
  unfold readDone
  repeat' (with_reducible first
    | assumption
    | exact Same.bits rfl
    | apply Same.ite
    | apply ctxFail_frame
    | apply ctxEnd_frame
    | split)

theorem unitSt_frame {m : Nat} {s0 : State} : ∀ s x1 x2 x3, 2048 &&& m = 2048 → Same m s0 s → Same m s0 (unitSt s x1 x2 x3) := by
  intro s x1 x2 x3 hM h
  refine Same.run hM h fun h0 => ?_
  unfold unitSt
  repeat' (with_reducible first
    | assumption
    | intro _
    | exact Same.bits rfl
    | (extract_lets +onlyGivenNames z; change State at z; apply Same.cutS h0 (x := z); unfold z; clear z; rotate_left; intro h; clear_value z; apply Same.letS h; clear h z; intro z h)
    | (extract_lets +onlyGivenNames z; change _ × _ × State at z; apply Same.cut22 h0 (x := z); unfold z; clear z; rotate_left; intro h; clear_value z; apply Same.let22 (x := z) h; clear h z; intro z h)
    | (extract_lets +onlyGivenNames z; change _ × State at z; apply Same.cut2 h0 (x := z); unfold z; clear z; rotate_left; intro h; clear_value z; apply Same.let2 (x := z) h; clear h z; intro z h)
    | (extract_lets +onlyGivenNames z; clear_value z; apply Same.letAny z; clear z; intro z)
    | apply ctxUpd_frame
    | split
    | dsimp -zeta only)

theorem segmentBegin_frame {m : Nat} {s0 : State} : ∀ s, 32768 &&& m = 32768 → Same m s0 s → Same m s0 (segmentBegin s) := by
  intro s hM h
  refine Same.run hM h fun h0 => ?_
  unfold segmentBegin
  repeat' (with_reducible first
    | assumption
    | intro _
    | exact Same.bits rfl
    | (extract_lets +onlyGivenNames z; change State at z; apply Same.cutS h0 (x := z); unfold z; clear z; rotate_left; intro h; clear_value z; apply Same.letS h; clear h z; intro z h)
    | (extract_lets +onlyGivenNames z; change _ × _ × State at z; apply Same.cut22 h0 (x := z); unfold z; clear z; rotate_left; intro h; clear_value z; apply Same.let22 (x := z) h; clear h z; intro z h)
    | (extract_lets +onlyGivenNames z; change _ × State at z; apply Same.cut2 h0 (x := z); unfold z; clear z; rotate_left; intro h; clear_value z; apply Same.let2 (x := z) h; clear h z; intro z h)
    | (extract_lets +onlyGivenNames z; clear_value z; apply Same.letAny z; clear z; intro z)
    | apply Same.ite
    | (refine Same.updDsc ?_ rfl; assumption)
    | split
    | dsimp -zeta only)

theorem bgEnd_frame {m : Nat} {s0 : State} : ∀ s x1 x2, 49154 &&& m = 49154 → Same m s0 s → Same m s0 (bgEnd s x1 x2) := by
  intro s x1 x2 hM h
  refine Same.run hM h fun h0 => ?_
  unfold bgEnd
  repeat' (with_reducible first
    | assumption
    | intro _
    | exact Same.bits rfl
    | (extract_lets +onlyGivenNames z; change State at z; apply Same.cutS h0 (x := z); unfold z; clear z; rotate_left; intro h; clear_value z; apply Same.letS h; clear h z; intro z h)
    | (extract_lets +onlyGivenNames z; change _ × _ × State at z; apply Same.cut22 h0 (x := z); unfold z; clear z; rotate_left; intro h; clear_value z; apply Same.let22 (x := z) h; clear h z; intro z h)
    | (extract_lets +onlyGivenNames z; change _ × State at z; apply Same.cut2 h0 (x := z); unfold z; clear z; rotate_left; intro h; clear_value z; apply Same.let2 (x := z) h; clear h z; intro z h)
    | (extract_lets +onlyGivenNames z; clear_value z; apply Same.letAny z; clear z; intro z)
    | apply Same.ite
    | apply finc_frame
    | apply segmentBegin_frame
    | (refine Same.updPlcDsc ?_ rfl; assumption)
    | split
    | dsimp -zeta only)

theorem lostMark_frame {m : Nat} {s0 : State} : ∀ s x1 x2 x3 x4 x5 x6, 2163714 &&& m = 2163714 → Same m s0 s → Same m s0 (lostMark s x1 x2 x3 x4 x5 x6) := by
  intro s x1 x2 x3 x4 x5 x6 hM h
  refine Same.run hM h fun h0 => ?_
  unfold lostMark
  repeat' (with_reducible first
    | assumption
    | exact Same.bits rfl
    | (extract_lets +onlyGivenNames z; change State at z; apply Same.cutS h0 (x := z); unfold z; clear z; rotate_left; intro h; clear_value z; apply Same.letS h; clear h z; intro z h)
    | (extract_lets +onlyGivenNames z; change _ × _ × State at z; apply Same.cut22 h0 (x := z); unfold z; clear z; rotate_left; intro h; clear_value z; apply Same.let22 (x := z) h; clear h z; intro z h)
    | (extract_lets +onlyGivenNames z; change _ × State at z; apply Same.cut2 h0 (x := z); unfold z; clear z; rotate_left; intro h; clear_value z; apply Same.let2 (x := z) h; clear h z; intro z h)
    | (extract_lets +onlyGivenNames z; clear_value z; apply Same.letAny z; clear z; intro z)
    | apply Same.ite
    | apply post_frame
    | apply fon_frame
    | (refine Same.updMed ?_ rfl; assumption)
    | split
    | dsimp -zeta only)

theorem testFail_frame {m : Nat} {s0 : State} : ∀ s x1, 2048 &&& m = 2048 → Same m s0 s → Same m s0 (testFail s x1) := by
  intro s x1 hM h
  refine Same.run hM h fun h0 => ?_
  unfold testFail
  repeat' (with_reducible first
    | assumption
    | exact Same.bits rfl
    | (extract_lets +onlyGivenNames z; change State at z; apply Same.cutS h0 (x := z); unfold z; clear z; rotate_left; intro h; clear_value z; apply Same.letS h; clear h z; intro z h)
    | (extract_lets +onlyGivenNames z; change _ × _ × State at z; apply Same.cut22 h0 (x := z); unfold z; clear z; rotate_left; intro h; clear_value z; apply Same.let22 (x := z) h; clear h z; intro z h)
    | (extract_lets +onlyGivenNames z; change _ × State at z; apply Same.cut2 h0 (x := z); unfold z; clear z; rotate_left; intro h; clear_value z; apply Same.let2 (x := z) h; clear h z; intro z h)
    | (extract_lets +onlyGivenNames z; clear_value z; apply Same.letAny z; clear z; intro z)
    | apply Same.ite
    | (refine Same.updHst ?_ rfl; assumption)
    | split
    | dsimp -zeta only)

theorem bgLost_frame {m : Nat} {s0 : State} : ∀ s x1, 2214914 &&& m = 2214914 → Same m s0 s → Same m s0 (bgLost s x1) := by
  intro s x1 hM h
  refine Same.run hM h fun h0 => ?_
  unfold bgLost
  repeat' (with_reducible first
    | assumption
    | intro _
    | exact Same.bits rfl
    | (extract_lets +onlyGivenNames z; change State at z; apply Same.cutS h0 (x := z); unfold z; clear z; rotate_left; intro h; clear_value z; apply Same.letS h; clear h z; intro z h)
    | (extract_lets +onlyGivenNames z; change _ × _ × State at z; apply Same.cut22 h0 (x := z); unfold z; clear z; rotate_left; intro h; clear_value z; apply Same.let22 (x := z) h; clear h z; intro z h)
    | (extract_lets +onlyGivenNames z; change _ × State at z; apply Same.cut2 h0 (x := z); unfold z; clear z; rotate_left; intro h; clear_value z; apply Same.let2 (x := z) h; clear h z; intro z h)
    | (extract_lets +onlyGivenNames z; clear_value z; apply Same.letAny z; clear z; intro z)
    | apply lostMark_frame
    | apply bgEnd_frame
    | apply testFail_frame
    | split
    | dsimp -zeta only)

theorem unitLost_frame {m : Nat} {s0 : State} : ∀ s x1 x2 x3 x4, 2214914 &&& m = 2214914 → Same m s0 s → Same m s0 (unitLost s x1 x2 x3 x4) := by
  intro s x1 x2 x3 x4 hM h
  refine Same.run hM h fun h0 => ?_
  unfold unitLost
  repeat' (with_reducible first
    | assumption
    | exact Same.bits rfl
    | apply Same.ite
    | apply readDone_frame
    | apply unitSt_frame
    | apply lostMark_frame
    | apply bgLost_frame
    | split
    | dsimp -zeta only)

theorem readSt_frame {m : Nat} {s0 : State} : ∀ s x1 x2 x3, 34816 &&& m = 34816 → Same m s0 s → Same m s0 (readSt s x1 x2 x3) := by
  intro s x1 x2 x3 hM h
  refine Same.run hM h fun h0 => ?_
  unfold readSt
  repeat' (with_reducible first
    | assumption
    | intro _
    | exact Same.bits rfl
    | apply Same.ite
    | apply unitSt_frame
    | (refine Same.updDsc ?_ rfl; assumption)
    | split
    | dsimp -zeta only)

theorem reboundGo_frame {m : Nat} {s0 : State} : ∀ s x1 x2 x3 x4 x5 x6 x7 x8 x9, 34818 &&& m = 34818 → Same m s0 s → Same m s0 (reboundGo s x1 x2 x3 x4 x5 x6 x7 x8 x9) := by
  intro s x1 x2 x3 x4 x5 x6 x7 x8 x9 hM h
  refine Same.run hM h fun h0 => ?_
  unfold reboundGo
  repeat' (with_reducible first
    | assumption
    | intro _
    | exact Same.bits rfl
    | (extract_lets +onlyGivenNames z; change State at z; apply Same.cutS h0 (x := z); unfold z; clear z; rotate_left; intro h; clear_value z; apply Same.letS h; clear h z; intro z h)
    | (extract_lets +onlyGivenNames z; change _ × _ × State at z; apply Same.cut22 h0 (x := z); unfold z; clear z; rotate_left; intro h; clear_value z; apply Same.let22 (x := z) h; clear h z; intro z h)
    | (extract_lets +onlyGivenNames z; change _ × State at z; apply Same.cut2 h0 (x := z); unfold z; clear z; rotate_left; intro h; clear_value z; apply Same.let2 (x := z) h; clear h z; intro z h)
    | (extract_lets +onlyGivenNames z; clear_value z; apply Same.letAny z; clear z; intro z)
    | apply fadd_frame
    | apply readSt_frame
    | apply enqueue_frame
    | (refine Same.updDsc ?_ rfl; assumption)
    | (refine Same.updHst ?_ rfl; assumption)
    | apply Same.foldl
    | dsimp -zeta only)

theorem reboundMust_frame {m : Nat} {s0 : State} : ∀ s x1 x2 x3, 2214914 &&& m = 2214914 → Same m s0 s → Same m s0 (reboundMust s x1 x2 x3) := by
  intro s x1 x2 x3 hM h
  refine Same.run hM h fun h0 => ?_
  unfold reboundMust
  repeat' (with_reducible first
    | assumption
    | exact Same.bits rfl
    | (extract_lets +onlyGivenNames z; change State at z; apply Same.cutS h0 (x := z); unfold z; clear z; rotate_left; intro h; clear_value z; apply Same.letS h; clear h z; intro z h)
    | (extract_lets +onlyGivenNames z; change _ × _ × State at z; apply Same.cut22 h0 (x := z); unfold z; clear z; rotate_left; intro h; clear_value z; apply Same.let22 (x := z) h; clear h z; intro z h)
    | (extract_lets +onlyGivenNames z; change _ × State at z; apply Same.cut2 h0 (x := z); unfold z; clear z; rotate_left; intro h; clear_value z; apply Same.let2 (x := z) h; clear h z; intro z h)
    | (extract_lets +onlyGivenNames z; clear_value z; apply Same.letAny z; clear z; intro z)
    | apply Same.ite
    | apply finc_frame
    | apply fset_frame
    | apply reboundGo_frame
    | apply unitLost_frame
    | (refine Same.updDsc ?_ rfl; assumption)
    | split
    | dsimp -zeta only)

theorem serveDirect_frame {m : Nat} {s0 : State} : ∀ s x1 x2 x3 x4 x5 x6 x7, 34818 &&& m = 34818 → Same m s0 s → Same m s0 (serveDirect s x1 x2 x3 x4 x5 x6 x7) := by
  intro s x1 x2 x3 x4 x5 x6 x7 hM h
  refine Same.run hM h fun h0 => ?_
  unfold serveDirect
  repeat' (with_reducible first
    | assumption
    | exact Same.bits rfl
    | (extract_lets +onlyGivenNames z; change State at z; apply Same.cutS h0 (x := z); unfold z; clear z; rotate_left; intro h; clear_value z; apply Same.letS h; clear h z; intro z h)
    | (extract_lets +onlyGivenNames z; change _ × _ × State at z; apply Same.cut22 h0 (x := z); unfold z; clear z; rotate_left; intro h; clear_value z; apply Same.let22 (x := z) h; clear h z; intro z h)
    | (extract_lets +onlyGivenNames z; change _ × State at z; apply Same.cut2 h0 (x := z); unfold z; clear z; rotate_left; intro h; clear_value z; apply Same.let2 (x := z) h; clear h z; intro z h)
    | (extract_lets +onlyGivenNames z; clear_value z; apply Same.letAny z; clear z; intro z)
    | apply readSt_frame
    | apply enqueue_frame
    | dsimp -zeta only)

theorem askSuspend_frame {m : Nat} {s0 : State} : ∀ s x1, 32768 &&& m = 32768 → Same m s0 s → Same m s0 (askSuspend s x1) := by
  intro s x1 hM h
  refine Same.run hM h fun h0 => ?_
  unfold askSuspend
  repeat' (with_reducible first
    | assumption
    | (extract_lets +onlyGivenNames z; clear_value z; apply Same.letAny z; clear z; intro z)
    | apply Same.ite
    | (refine Same.updDsc ?_ rfl; assumption))

theorem serveSuspend_frame {m : Nat} {s0 : State} : ∀ s x1 x2 x3 x4 x5 x6 x7, 34818 &&& m = 34818 → Same m s0 s → Same m s0 (serveSuspend s x1 x2 x3 x4 x5 x6 x7) := by
  intro s x1 x2 x3 x4 x5 x6 x7 hM h
  refine Same.run hM h fun h0 => ?_
  unfold serveSuspend
  repeat' (with_reducible first
    | assumption
    | exact Same.bits rfl
    | apply askSuspend_frame
    | apply serveDirect_frame)

theorem noteCurrents_frame {m : Nat} {s0 : State} : ∀ s, 1048578 &&& m = 1048578 → Same m s0 s → Same m s0 (noteCurrents s) := by
  intro s hM h
  refine Same.run hM h fun h0 => ?_
  unfold noteCurrents
  repeat' (with_reducible first
    | assumption
    | exact Same.bits rfl
    | (extract_lets +onlyGivenNames z; change State at z; apply Same.cutS h0 (x := z); unfold z; clear z; rotate_left; intro h; clear_value z; apply Same.letS h; clear h z; intro z h)
    | (extract_lets +onlyGivenNames z; clear_value z; apply Same.letAny z; clear z; intro z)
    | apply fset_frame
    | (refine Same.updUmp ?_ rfl; assumption))

theorem callGrant_frame {m : Nat} {s0 : State} : ∀ s x1 x2, 1048578 &&& m = 1048578 → Same m s0 s → Same m s0 (callGrant s x1 x2) := by
  intro s x1 x2 hM h
  refine Same.run hM h fun h0 => ?_
  unfold callGrant
  repeat' (with_reducible first
    | assumption
    | intro _
    | exact Same.bits rfl
    | (extract_lets +onlyGivenNames z; change State at z; apply Same.cutS h0 (x := z); unfold z; clear z; rotate_left; intro h; clear_value z; apply Same.letS h; clear h z; intro z h)
    | (extract_lets +onlyGivenNames z; change _ × _ × State at z; apply Same.cut22 h0 (x := z); unfold z; clear z; rotate_left; intro h; clear_value z; apply Same.let22 (x := z) h; clear h z; intro z h)
    | (extract_lets +onlyGivenNames z; change _ × State at z; apply Same.cut2 h0 (x := z); unfold z; clear z; rotate_left; intro h; clear_value z; apply Same.let2 (x := z) h; clear h z; intro z h)
    | (extract_lets +onlyGivenNames z; clear_value z; apply Same.letAny z; clear z; intro z)
    | apply noteCurrents_frame
    | apply finc_frame
    | (refine Same.updUmp ?_ rfl; assumption)
    | apply Same.foldl
    | split
    | dsimp -zeta only)

theorem groupGrant_frame {m : Nat} {s0 : State} : ∀ s l, 1048578 &&& m = 1048578 → Same m s0 s → SameO2 m s0 (groupGrant s l) := by
  intro s l hM
  have hU : ∀ (t : State) (q : Ump), Same m s0 t → Same m s0 { t with ump := q } := fun t q ht =>
    Same.step (k := 1048576) (Same.sub (by decide) hM)
      (by constructor <;> first | (intro _; rfl) | (intro e; exact absurd e (by decide)) | exact fun e => e | exact Nat.le_refl _) ht
  induction l generalizing s with
  | nil => intro h; unfold groupGrant; exact SameO2.some h
  | cons c l ih =>
    intro h
    unfold groupGrant
    extract_lets n gen c1 u s1
    have h1 : Same m s0 s1 := hU _ _ h
    clear_value s1
    split
    · have h2 := ih _ (callGrant_frame s1 n c1 (Same.sub (by decide) hM) h1)
      split
      · rename_i ns s2 e
        exact SameO2.some (Same.ofSome2 e h2)
      · exact SameO2.none
    · exact SameO2.none

theorem groupRefuse_frame {m : Nat} {s0 : State} : ∀ s, 1048578 &&& m = 1048578 → Same m s0 s → Same m s0 (groupRefuse s) := by
  intro s hM h
  refine Same.run hM h fun h0 => ?_
  unfold groupRefuse
  repeat' (with_reducible first
    | assumption
    | exact Same.bits rfl
    | (extract_lets +onlyGivenNames z; change State at z; apply Same.cutS h0 (x := z); unfold z; clear z; rotate_left; intro h; clear_value z; apply Same.letS h; clear h z; intro z h)
    | (extract_lets +onlyGivenNames z; change _ × _ × State at z; apply Same.cut22 h0 (x := z); unfold z; clear z; rotate_left; intro h; clear_value z; apply Same.let22 (x := z) h; clear h z; intro z h)
    | (extract_lets +onlyGivenNames z; change _ × State at z; apply Same.cut2 h0 (x := z); unfold z; clear z; rotate_left; intro h; clear_value z; apply Same.let2 (x := z) h; clear h z; intro z h)
    | (extract_lets +onlyGivenNames z; clear_value z; apply Same.letAny z; clear z; intro z)
    | apply fon_frame
    | apply finc_frame
    | (refine Same.updUmp ?_ rfl; assumption)
    | dsimp -zeta only)

theorem groupCall_frame {m : Nat} {s0 : State} : ∀ s x1, 1048578 &&& m = 1048578 → Same m s0 s → Same2 m s0 (groupCall s x1) := by
  intro s x1 hM h
  refine Same2.run hM h fun h0 => ?_
  unfold groupCall
  repeat' (with_reducible first
    | assumption
    | exact Same.bits rfl
    | apply Same.ite
    | apply Same2.ite
    | apply SameO2.ite
    | apply groupRefuse_frame
    | apply groupGrant_frame
    | apply finc_frame
    | (apply Same.ofSome2; assumption)
    | (apply Same.ofSome2'; assumption)
    | split
    | dsimp -zeta only
    | apply Same2.mk')

theorem reboundTry_frame {m : Nat} {s0 : State} : ∀ s x1 x2 x3 x4 x5 x6 x7, 1083394 &&& m = 1083394 → Same m s0 s → Same2 m s0 (reboundTry s x1 x2 x3 x4 x5 x6 x7) := by
  intro s x1 x2 x3 x4 x5 x6 x7 hM h
  refine Same2.run hM h fun h0 => ?_
  unfold reboundTry
  repeat' (with_reducible first
    | assumption
    | exact Same.bits rfl
    | (extract_lets +onlyGivenNames z; change State at z; apply Same.cutS h0 (x := z); unfold z; clear z; rotate_left; intro h; clear_value z; apply Same.letS h; clear h z; intro z h)
    | (extract_lets +onlyGivenNames z; clear_value z; apply Same.letAny z; clear z; intro z)
    | apply Same.ite
    | apply Same2.ite
    | apply finc_frame
    | apply groupCall_frame
    | apply fset_frame
    | apply reboundGo_frame
    | (refine Same.updDsc ?_ rfl; apply Same.ofPair2; assumption)
    | split
    | apply Same2.mk')

theorem serveChoice_frame {m : Nat} {s0 : State} : ∀ s x1 x2 x3 x4 x5 x6 x7, 1083394 &&& m = 1083394 → Same m s0 s → Same m s0 (serveChoice s x1 x2 x3 x4 x5 x6 x7) := by
  intro s x1 x2 x3 x4 x5 x6 x7 hM h
  refine Same.run hM h fun h0 => ?_
  unfold serveChoice
  repeat' (with_reducible first
    | assumption
    | intro _
    | exact Same.bits rfl
    | (extract_lets +onlyGivenNames z; change State at z; apply Same.cutS h0 (x := z); unfold z; clear z; rotate_left; intro h; clear_value z; apply Same.letS h; clear h z; intro z h)
    | (extract_lets +onlyGivenNames z; change _ × _ × State at z; apply Same.cut22 h0 (x := z); unfold z; clear z; rotate_left; intro h; clear_value z; apply Same.let22 (x := z) h; clear h z; intro z h)
    | (extract_lets +onlyGivenNames z; change _ × State at z; apply Same.cut2 h0 (x := z); unfold z; clear z; rotate_left; intro h; clear_value z; apply Same.let2 (x := z) h; clear h z; intro z h)
    | (extract_lets +onlyGivenNames z; change _ → _ at z; apply Same.cutF z; subst z)
    | (extract_lets +onlyGivenNames z; clear_value z; apply Same.letAny z; clear z; intro z)
    | apply Same.ite
    | apply Same2.ite
    | apply serveDirect_frame
    | apply finc_frame
    | apply serveSuspend_frame
    | apply reboundTry_frame
    | (apply Same.ofPair2; assumption)
    | (apply Same2.out; apply reboundTry_frame)
    | split
    | dsimp -zeta only
    | apply Same2.mk')

theorem readLost_frame {m : Nat} {s0 : State} : ∀ s x1 x2, 2214914 &&& m = 2214914 → Same m s0 s → Same m s0 (readLost s x1 x2) := by
  intro s x1 x2 hM h
  refine Same.run hM h fun h0 => ?_
  unfold readLost
  repeat' (with_reducible first
    | assumption
    | exact Same.bits rfl
    | apply Same.ite
    | apply readDone_frame
    | apply unitSt_frame
    | apply bgLost_frame
    | split
    | dsimp -zeta only)

theorem serveRead_frame {m : Nat} {s0 : State} : ∀ s x1 x2, 3263490 &&& m = 3263490 → Same m s0 s → Same m s0 (serveRead s x1 x2) := by
  intro s x1 x2 hM h
  refine Same.run hM h fun h0 => ?_
  unfold serveRead
  repeat' (with_reducible first
    | assumption
    | exact Same.bits rfl
    | apply Same.ite
    | apply readLost_frame
    | apply reboundMust_frame
    | apply serveChoice_frame
    | apply readDone_frame
    | apply unitSt_frame
    | split
    | dsimp -zeta only)

theorem bgStart_frame {m : Nat} {s0 : State} : ∀ s x1 x2 x3 x4 x5, 32768 &&& m = 32768 → Same m s0 s → Same m s0 (bgStart s x1 x2 x3 x4 x5) := by
  intro s x1 x2 x3 x4 x5 hM h
  refine Same.run hM h fun h0 => ?_
  unfold bgStart
  repeat' (with_reducible first
    | assumption
    | intro _
    | exact Same.bits rfl
    | (extract_lets +onlyGivenNames z; change State at z; apply Same.cutS h0 (x := z); unfold z; clear z; rotate_left; intro h; clear_value z; apply Same.letS h; clear h z; intro z h)
    | (extract_lets +onlyGivenNames z; change _ × _ × State at z; apply Same.cut22 h0 (x := z); unfold z; clear z; rotate_left; intro h; clear_value z; apply Same.let22 (x := z) h; clear h z; intro z h)
    | (extract_lets +onlyGivenNames z; change _ × State at z; apply Same.cut2 h0 (x := z); unfold z; clear z; rotate_left; intro h; clear_value z; apply Same.let2 (x := z) h; clear h z; intro z h)
    | (extract_lets +onlyGivenNames z; clear_value z; apply Same.letAny z; clear z; intro z)
    | (refine Same.updDsc ?_ rfl; assumption)
    | split
    | dsimp -zeta only)

theorem stripeWork_frame {m : Nat} {s0 : State} : ∀ s x1 x2 x3, 16384 &&& m = 16384 → Same m s0 s → Same m s0 (stripeWork s x1 x2 x3) := by
  intro s x1 x2 x3 hM h
  refine Same.run hM h fun h0 => ?_
  unfold stripeWork
  repeat' (with_reducible first
    | assumption
    | intro _
    | exact Same.bits rfl
    | apply Same.ite
    | (refine Same.updPlc ?_ rfl; assumption)
    | split
    | dsimp -zeta only)

theorem copyPut_frame {m : Nat} {s0 : State} : ∀ s x1 x2 x3, 114690 &&& m = 114690 → Same m s0 s → Same m s0 (copyPut s x1 x2 x3) := by
  intro s x1 x2 x3 hM h
  refine Same.run hM h fun h0 => ?_
  unfold copyPut
  repeat' (with_reducible first
    | assumption
    | exact Same.bits rfl
    | apply claimSlots_frame
    | apply prepareFor_frame
    | apply stripeWork_frame
    | apply setMember_frame
    | (apply Same.ofPair2; assumption)
    | (apply Same2.out; apply claimSlots_frame)
    | split
    | dsimp -zeta only
    | apply Same2.mk')

theorem copyUnit_frame {m : Nat} {s0 : State} : ∀ x0 s x2, 3263490 &&& m = 3263490 → Same m s0 s → Same m s0 (copyUnit x0 s x2) := by
  intro x0 s x2 hM h
  refine Same.run hM h fun h0 => ?_
  unfold copyUnit
  repeat' (with_reducible first
    | assumption
    | intro _
    | exact Same.bits rfl
    | (extract_lets +onlyGivenNames z; change State at z; apply Same.cutS h0 (x := z); unfold z; clear z; rotate_left; intro h; clear_value z; apply Same.letS h; clear h z; intro z h)
    | (extract_lets +onlyGivenNames z; change _ × _ × State at z; apply Same.cut22 h0 (x := z); unfold z; clear z; rotate_left; intro h; clear_value z; apply Same.let22 (x := z) h; clear h z; intro z h)
    | (extract_lets +onlyGivenNames z; change _ × State at z; apply Same.cut2 h0 (x := z); unfold z; clear z; rotate_left; intro h; clear_value z; apply Same.let2 (x := z) h; clear h z; intro z h)
    | (extract_lets +onlyGivenNames z; clear_value z; apply Same.letAny z; clear z; intro z)
    | apply Same.ite
    | apply copyPut_frame
    | apply bgStart_frame
    | apply serveRead_frame
    | (refine Same.updDsc ?_ rfl; assumption)
    | split
    | dsimp -zeta only)

theorem unitPut_frame {m : Nat} {s0 : State} : ∀ s x1 x2 x3 x4 x5 x6, 65536 &&& m = 65536 → Same m s0 s → Same m s0 (unitPut s x1 x2 x3 x4 x5 x6) := by
  intro s x1 x2 x3 x4 x5 x6 hM h
  refine Same.run hM h fun h0 => ?_
  unfold unitPut
  repeat' (with_reducible first
    | assumption
    | exact Same.bits rfl
    | (extract_lets +onlyGivenNames z; change State at z; apply Same.cutS h0 (x := z); unfold z; clear z; rotate_left; intro h; clear_value z; apply Same.letS h; clear h z; intro z h)
    | (extract_lets +onlyGivenNames z; change _ × _ × State at z; apply Same.cut22 h0 (x := z); unfold z; clear z; rotate_left; intro h; clear_value z; apply Same.let22 (x := z) h; clear h z; intro z h)
    | (extract_lets +onlyGivenNames z; change _ × State at z; apply Same.cut2 h0 (x := z); unfold z; clear z; rotate_left; intro h; clear_value z; apply Same.let2 (x := z) h; clear h z; intro z h)
    | (extract_lets +onlyGivenNames z; clear_value z; apply Same.letAny z; clear z; intro z)
    | (refine Same.updMed ?_ rfl; assumption)
    | dsimp -zeta only)

theorem summaryMember_frame {m : Nat} {s0 : State} : ∀ s x1 x2 x3 x4, 65536 &&& m = 65536 → Same m s0 s → Same m s0 (summaryMember s x1 x2 x3 x4) := by
  intro s x1 x2 x3 x4 hM h
  refine Same.run hM h fun h0 => ?_
  unfold summaryMember
  repeat' (with_reducible first
    | assumption
    | intro _
    | exact Same.bits rfl
    | (extract_lets +onlyGivenNames z; change State at z; apply Same.cutS h0 (x := z); unfold z; clear z; rotate_left; intro h; clear_value z; apply Same.letS h; clear h z; intro z h)
    | (extract_lets +onlyGivenNames z; change _ × _ × State at z; apply Same.cut22 h0 (x := z); unfold z; clear z; rotate_left; intro h; clear_value z; apply Same.let22 (x := z) h; clear h z; intro z h)
    | (extract_lets +onlyGivenNames z; change _ × State at z; apply Same.cut2 h0 (x := z); unfold z; clear z; rotate_left; intro h; clear_value z; apply Same.let2 (x := z) h; clear h z; intro z h)
    | (extract_lets +onlyGivenNames z; change _ → _ at z; apply Same.cutF z; subst z)
    | (extract_lets +onlyGivenNames z; clear_value z; apply Same.letAny z; clear z; intro z)
    | apply unitPut_frame
    | apply Same.foldl
    | dsimp -zeta only)

theorem sbClose_frame {m : Nat} {s0 : State} : ∀ s x1 x2, 65536 &&& m = 65536 → Same m s0 s → Same m s0 (sbClose s x1 x2) := by
  intro s x1 x2 hM h
  refine Same.run hM h fun h0 => ?_
  unfold sbClose
  repeat' (with_reducible first
    | assumption
    | intro _
    | exact Same.bits rfl
    | (extract_lets +onlyGivenNames z; change State at z; apply Same.cutS h0 (x := z); unfold z; clear z; rotate_left; intro h; clear_value z; apply Same.letS h; clear h z; intro z h)
    | (extract_lets +onlyGivenNames z; change _ × _ × State at z; apply Same.cut22 h0 (x := z); unfold z; clear z; rotate_left; intro h; clear_value z; apply Same.let22 (x := z) h; clear h z; intro z h)
    | (extract_lets +onlyGivenNames z; change _ × State at z; apply Same.cut2 h0 (x := z); unfold z; clear z; rotate_left; intro h; clear_value z; apply Same.let2 (x := z) h; clear h z; intro z h)
    | (extract_lets +onlyGivenNames z; clear_value z; apply Same.letAny z; clear z; intro z)
    | apply Same.ite
    | apply summaryMember_frame
    | (refine Same.updMed ?_ rfl; assumption)
    | apply Same.foldl
    | split
    | dsimp -zeta only)

theorem unitDrop_frame {m : Nat} {s0 : State} : ∀ s x1 x2, 65538 &&& m = 65538 → Same m s0 s → Same m s0 (unitDrop s x1 x2) := by
  intro s x1 x2 hM h
  refine Same.run hM h fun h0 => ?_
  unfold unitDrop
  repeat' (with_reducible first
    | assumption
    | intro _
    | exact Same.bits rfl
    | (extract_lets +onlyGivenNames z; change State at z; apply Same.cutS h0 (x := z); unfold z; clear z; rotate_left; intro h; clear_value z; apply Same.letS h; clear h z; intro z h)
    | (extract_lets +onlyGivenNames z; change _ × _ × State at z; apply Same.cut22 h0 (x := z); unfold z; clear z; rotate_left; intro h; clear_value z; apply Same.let22 (x := z) h; clear h z; intro z h)
    | (extract_lets +onlyGivenNames z; change _ × State at z; apply Same.cut2 h0 (x := z); unfold z; clear z; rotate_left; intro h; clear_value z; apply Same.let2 (x := z) h; clear h z; intro z h)
    | (extract_lets +onlyGivenNames z; clear_value z; apply Same.letAny z; clear z; intro z)
    | apply Same.ite
    | apply grpRefresh_frame
    | (refine Same.updMed ?_ rfl; assumption)
    | split
    | dsimp -zeta only)

theorem metaUnitDrop_frame {m : Nat} {s0 : State} : ∀ s x1, 65538 &&& m = 65538 → Same m s0 s → Same m s0 (metaUnitDrop s x1) := by
  intro s x1 hM h
  refine Same.run hM h fun h0 => ?_
  unfold metaUnitDrop
  repeat' (with_reducible first
    | assumption
    | exact Same.bits rfl
    | apply unitDrop_frame
    | split
    | dsimp -zeta only)

theorem blkPut_frame {m : Nat} {s0 : State} : ∀ s x1 x2 x3, 65536 &&& m = 65536 → Same m s0 s → Same m s0 (blkPut s x1 x2 x3) := by
  intro s x1 x2 x3 hM h
  refine Same.run hM h fun h0 => ?_
  unfold blkPut
  repeat' (with_reducible first
    | (extract_lets +onlyGivenNames z; clear_value z; apply Same.letAny z; clear z; intro z)
    | (refine Same.updMed ?_ rfl; assumption))

theorem blockErased_frame {m : Nat} {s0 : State} : ∀ s x1 x2 x3, 65536 &&& m = 65536 → Same m s0 s → Same m s0 (blockErased s x1 x2 x3) := by
  intro s x1 x2 x3 hM h
  refine Same.run hM h fun h0 => ?_
  unfold blockErased
  repeat' (with_reducible first
    | assumption
    | exact Same.bits rfl
    | (extract_lets +onlyGivenNames z; change State at z; apply Same.cutS h0 (x := z); unfold z; clear z; rotate_left; intro h; clear_value z; apply Same.letS h; clear h z; intro z h)
    | (extract_lets +onlyGivenNames z; clear_value z; apply Same.letAny z; clear z; intro z)
    | apply blkPut_frame
    | (refine Same.updMed ?_ rfl; assumption))

theorem metaTake_frame {m : Nat} {s0 : State} : ∀ s x1, 81922 &&& m = 81922 → Same m s0 s → SameO2 m s0 (metaTake s x1) := by
  intro s x1 hM h
  refine SameO2.run hM h fun h0 => ?_
  unfold metaTake
  repeat' (with_reducible first
    | assumption
    | intro _
    | exact Same.bits rfl
    | (extract_lets +onlyGivenNames z; change State at z; apply Same.cutS h0 (x := z); unfold z; clear z; rotate_left; intro h; clear_value z; apply Same.letS h; clear h z; intro z h)
    | (extract_lets +onlyGivenNames z; change _ × _ × State at z; apply Same.cut22 h0 (x := z); unfold z; clear z; rotate_left; intro h; clear_value z; apply Same.let22 (x := z) h; clear h z; intro z h)
    | (extract_lets +onlyGivenNames z; change _ × State at z; apply Same.cut2 h0 (x := z); unfold z; clear z; rotate_left; intro h; clear_value z; apply Same.let2 (x := z) h; clear h z; intro z h)
    | (extract_lets +onlyGivenNames z; change _ → _ at z; apply Same.cutF z; subst z)
    | (extract_lets +onlyGivenNames z; clear_value z; apply Same.letAny z; clear z; intro z)
    | apply blockErased_frame
    | apply grpRefresh_frame
    | (refine Same.updPlcMed ?_ rfl; assumption)
    | apply Same.foldl
    | apply SameO2.some
    | exact SameO2.none
    | split
    | dsimp -zeta only)

theorem metaBlock_frame {m : Nat} {s0 : State} : ∀ s x1, 81922 &&& m = 81922 → Same m s0 s → SameO2 m s0 (metaBlock s x1) := by
  intro s x1 hM h
  refine SameO2.run hM h fun h0 => ?_
  unfold metaBlock
  repeat' (with_reducible first
    | assumption
    | exact Same.bits rfl
    | apply Same.ite
    | apply SameO2.ite
    | apply metaTake_frame
    | apply sbClose_frame
    | apply SameO2.some
    | exact SameO2.none
    | (apply Same.ofSome2; assumption)
    | (apply Same.ofSome2'; assumption)
    | split
    | dsimp -zeta only)

theorem unitsAdd_frame {m : Nat} {s0 : State} : ∀ s x1 x2 x3 x4, 65536 &&& m = 65536 → Same m s0 s → Same m s0 (unitsAdd s x1 x2 x3 x4) := by
  intro s x1 x2 x3 x4 hM h
  refine Same.run hM h fun h0 => ?_
  unfold unitsAdd
  repeat' (with_reducible first
    | (extract_lets +onlyGivenNames z; clear_value z; apply Same.letAny z; clear z; intro z)
    | (refine Same.updMed ?_ rfl; assumption))

theorem stripePut_frame {m : Nat} {s0 : State} : ∀ s x1 x2 x3 x4 x5 x6, 65536 &&& m = 65536 → Same m s0 s → Same m s0 (stripePut s x1 x2 x3 x4 x5 x6) := by
  intro s x1 x2 x3 x4 x5 x6 hM h
  refine Same.run hM h fun h0 => ?_
  unfold stripePut
  repeat' (with_reducible first
    | assumption
    | exact Same.bits rfl
    | (extract_lets +onlyGivenNames z; change State at z; apply Same.cutS h0 (x := z); unfold z; clear z; rotate_left; intro h; clear_value z; apply Same.letS h; clear h z; intro z h)
    | (extract_lets +onlyGivenNames z; change _ × _ × State at z; apply Same.cut22 h0 (x := z); unfold z; clear z; rotate_left; intro h; clear_value z; apply Same.let22 (x := z) h; clear h z; intro z h)
    | (extract_lets +onlyGivenNames z; change _ × State at z; apply Same.cut2 h0 (x := z); unfold z; clear z; rotate_left; intro h; clear_value z; apply Same.let2 (x := z) h; clear h z; intro z h)
    | (extract_lets +onlyGivenNames z; clear_value z; apply Same.letAny z; clear z; intro z)
    | apply unitPut_frame
    | dsimp -zeta only)

theorem metaPlace_frame {m : Nat} {s0 : State} : ∀ s x1 x2 x3 x4, 65536 &&& m = 65536 → Same m s0 s → Same2 m s0 (metaPlace s x1 x2 x3 x4) := by
  intro s x1 x2 x3 x4 hM h
  refine Same2.run hM h fun h0 => ?_
  unfold metaPlace
  repeat' (with_reducible first
    | assumption
    | exact Same.bits rfl
    | (extract_lets +onlyGivenNames z; change State at z; apply Same.cutS h0 (x := z); unfold z; clear z; rotate_left; intro h; clear_value z; apply Same.letS h; clear h z; intro z h)
    | (extract_lets +onlyGivenNames z; change _ × _ × State at z; apply Same.cut22 h0 (x := z); unfold z; clear z; rotate_left; intro h; clear_value z; apply Same.let22 (x := z) h; clear h z; intro z h)
    | (extract_lets +onlyGivenNames z; change _ × State at z; apply Same.cut2 h0 (x := z); unfold z; clear z; rotate_left; intro h; clear_value z; apply Same.let2 (x := z) h; clear h z; intro z h)
    | (extract_lets +onlyGivenNames z; clear_value z; apply Same.letAny z; clear z; intro z)
    | apply Same.ite
    | apply Same2.ite
    | apply stripePut_frame
    | apply unitsAdd_frame
    | (refine Same.updMed ?_ rfl; assumption)
    | split
    | dsimp -zeta only
    | apply Same2.mk')

theorem metaCopy_frame {m : Nat} {s0 : State} : ∀ s x1 x2 x3, 81922 &&& m = 81922 → Same m s0 s → Same2 m s0 (metaCopy s x1 x2 x3) := by
  intro s x1 x2 x3 hM h
  refine Same2.run hM h fun h0 => ?_
  unfold metaCopy
  repeat' (with_reducible first
    | assumption
    | exact Same.bits rfl
    | (extract_lets +onlyGivenNames z; change State at z; apply Same.cutS h0 (x := z); unfold z; clear z; rotate_left; intro h; clear_value z; apply Same.letS h; clear h z; intro z h)
    | (extract_lets +onlyGivenNames z; change _ × _ × State at z; apply Same.cut22 h0 (x := z); unfold z; clear z; rotate_left; intro h; clear_value z; apply Same.let22 (x := z) h; clear h z; intro z h)
    | (extract_lets +onlyGivenNames z; change _ × State at z; apply Same.cut2 h0 (x := z); unfold z; clear z; rotate_left; intro h; clear_value z; apply Same.let2 (x := z) h; clear h z; intro z h)
    | (extract_lets +onlyGivenNames z; clear_value z; apply Same.letAny z; clear z; intro z)
    | apply metaBlock_frame
    | apply metaPlace_frame
    | (apply Same.ofPair2; assumption)
    | (apply Same.ofSome2; assumption)
    | (apply Same.ofSome2'; assumption)
    | (apply Same2.out; apply metaPlace_frame)
    | split
    | dsimp -zeta only
    | apply Same2.mk')

theorem metaMove1_frame {m : Nat} {s0 : State} : ∀ s x1 x2 x3, 81922 &&& m = 81922 → Same m s0 s → Same m s0 (metaMove1 s x1 x2 x3) := by
  intro s x1 x2 x3 hM h
  refine Same.run hM h fun h0 => ?_
  unfold metaMove1
  repeat' (with_reducible first
    | assumption
    | exact Same.bits rfl
    | (extract_lets +onlyGivenNames z; change State at z; apply Same.cutS h0 (x := z); unfold z; clear z; rotate_left; intro h; clear_value z; apply Same.letS h; clear h z; intro z h)
    | (extract_lets +onlyGivenNames z; change _ × _ × State at z; apply Same.cut22 h0 (x := z); unfold z; clear z; rotate_left; intro h; clear_value z; apply Same.let22 (x := z) h; clear h z; intro z h)
    | (extract_lets +onlyGivenNames z; change _ × State at z; apply Same.cut2 h0 (x := z); unfold z; clear z; rotate_left; intro h; clear_value z; apply Same.let2 (x := z) h; clear h z; intro z h)
    | (extract_lets +onlyGivenNames z; clear_value z; apply Same.letAny z; clear z; intro z)
    | apply metaCopy_frame
    | apply metaUnitDrop_frame
    | (refine Same.updMed ?_ rfl; assumption)
    | (refine Same.updMed ?_ rfl; apply Same.ofPair2; assumption)
    | (apply Same.ofPair2; assumption)
    | (apply Same2.out; apply metaCopy_frame)
    | split
    | dsimp -zeta only
    | apply Same2.mk')

theorem metaMove_frame {m : Nat} {s0 : State} : ∀ s x1 x2 x3, 81922 &&& m = 81922 → Same m s0 s → Same m s0 (metaMove s x1 x2 x3) := by
  intro s x1 x2 x3 hM h
  refine Same.run hM h fun h0 => ?_
  unfold metaMove
  repeat' (with_reducible first
    | assumption
    | intro _
    | exact Same.bits rfl
    | (extract_lets +onlyGivenNames z; change State at z; apply Same.cutS h0 (x := z); unfold z; clear z; rotate_left; intro h; clear_value z; apply Same.letS h; clear h z; intro z h)
    | (extract_lets +onlyGivenNames z; change _ × _ × State at z; apply Same.cut22 h0 (x := z); unfold z; clear z; rotate_left; intro h; clear_value z; apply Same.let22 (x := z) h; clear h z; intro z h)
    | (extract_lets +onlyGivenNames z; change _ × State at z; apply Same.cut2 h0 (x := z); unfold z; clear z; rotate_left; intro h; clear_value z; apply Same.let2 (x := z) h; clear h z; intro z h)
    | (extract_lets +onlyGivenNames z; change _ → _ at z; apply Same.cutF z; subst z)
    | (extract_lets +onlyGivenNames z; clear_value z; apply Same.letAny z; clear z; intro z)
    | apply Same.ite
    | apply sbClose_frame
    | apply metaMove1_frame
    | (refine Same.updMed ?_ rfl; assumption)
    | apply Same.foldl
    | split
    | dsimp -zeta only)

theorem moveUnits_frame {m : Nat} {s0 : State} : ∀ s x1 x2 x3 x4, 3263490 &&& m = 3263490 → Same m s0 s → Same m s0 (moveUnits s x1 x2 x3 x4) := by
  intro s x1 x2 x3 x4 hM h
  refine Same.run hM h fun h0 => ?_
  unfold moveUnits
  repeat' (with_reducible first
    | assumption
    | intro _
    | exact Same.bits rfl
    | apply copyUnit_frame
    | apply metaMove_frame
    | apply Same.foldl
    | dsimp -zeta only)

theorem countRetired_frame {m : Nat} {s0 : State} : ∀ s x1, 65536 &&& m = 65536 → Same m s0 s → Same m s0 (countRetired s x1) := by
  intro s x1 hM h
  refine Same.run hM h fun h0 => ?_
  unfold countRetired
  repeat' (with_reducible first
    | (extract_lets +onlyGivenNames z; clear_value z; apply Same.letAny z; clear z; intro z)
    | (refine Same.updMed ?_ rfl; assumption))

theorem seqTake_frame {m : Nat} {s0 : State} : ∀ s, 8194 &&& m = 8194 → Same m s0 s → Same2 m s0 (seqTake s) := by
  intro s hM h
  refine Same2.run hM h fun h0 => ?_
  unfold seqTake
  repeat' (with_reducible first
    | exact Same.bits rfl
    | (extract_lets +onlyGivenNames z; clear_value z; apply Same.letAny z; clear z; intro z)
    | apply pset_frame
    | (refine Same.updZne ?_ rfl; assumption)
    | apply Same2.mk')

theorem journalBlock_frame {m : Nat} {s0 : State} : ∀ s x1 x2, 65536 &&& m = 65536 → Same m s0 s → Same m s0 (journalBlock s x1 x2) := by
  intro s x1 x2 hM h
  refine Same.run hM h fun h0 => ?_
  unfold journalBlock
  repeat' (with_reducible first
    | assumption
    | intro _
    | exact Same.bits rfl
    | (extract_lets +onlyGivenNames z; change State at z; apply Same.cutS h0 (x := z); unfold z; clear z; rotate_left; intro h; clear_value z; apply Same.letS h; clear h z; intro z h)
    | (extract_lets +onlyGivenNames z; change _ × _ × State at z; apply Same.cut22 h0 (x := z); unfold z; clear z; rotate_left; intro h; clear_value z; apply Same.let22 (x := z) h; clear h z; intro z h)
    | (extract_lets +onlyGivenNames z; change _ × State at z; apply Same.cut2 h0 (x := z); unfold z; clear z; rotate_left; intro h; clear_value z; apply Same.let2 (x := z) h; clear h z; intro z h)
    | (extract_lets +onlyGivenNames z; clear_value z; apply Same.letAny z; clear z; intro z)
    | (refine Same.updMed ?_ rfl; assumption)
    | apply Same.foldl
    | split
    | dsimp -zeta only)

theorem metaWrite_frame {m : Nat} {s0 : State} : ∀ s x1, 81922 &&& m = 81922 → Same m s0 s → Same2 m s0 (metaWrite s x1) := by
  intro s x1 hM h
  refine Same2.run hM h fun h0 => ?_
  unfold metaWrite
  repeat' (with_reducible first
    | assumption
    | exact Same.bits rfl
    | (extract_lets +onlyGivenNames z; change State at z; apply Same.cutS h0 (x := z); unfold z; clear z; rotate_left; intro h; clear_value z; apply Same.letS h; clear h z; intro z h)
    | (extract_lets +onlyGivenNames z; change _ × _ × State at z; apply Same.cut22 h0 (x := z); unfold z; clear z; rotate_left; intro h; clear_value z; apply Same.let22 (x := z) h; clear h z; intro z h)
    | (extract_lets +onlyGivenNames z; change _ × State at z; apply Same.cut2 h0 (x := z); unfold z; clear z; rotate_left; intro h; clear_value z; apply Same.let2 (x := z) h; clear h z; intro z h)
    | (extract_lets +onlyGivenNames z; clear_value z; apply Same.letAny z; clear z; intro z)
    | apply metaCopy_frame
    | (refine Same.updMed ?_ rfl; assumption)
    | (refine Same.updMed ?_ rfl; apply Same.ofPair2; assumption)
    | (apply Same.ofPair2; assumption)
    | (apply Same2.out; apply metaCopy_frame)
    | split
    | dsimp -zeta only
    | apply Same2.mk')

theorem tailOut_frame {m : Nat} {s0 : State} : ∀ x0 x1 s, 81922 &&& m = 81922 → Same m s0 s → Same m s0 (tailOut x0 x1 s) := by
  have H : ∀ {s0 : State} x0 x1 s, Same 81922 s0 s → Same 81922 s0 (tailOut x0 x1 s) := by
    intro s0 x0 x1
    induction x1 with
    | zero => intro s h; exact h
    | succ k ih =>
      intro s h
      rw [tailOut]
      extract_lets +onlyGivenNames recs
      clear_value recs
      apply Same.ite
      · exact h
      · split
        · rename_i t e
          have ht : Same 81922 s0 t := Same.ofPair2 e (metaWrite_frame _ _ (Same.bits rfl) h)
          exact ih _ (Same.updMed (Same.foldl (fun s hs a => journalBlock_frame _ _ _ (Same.bits rfl) hs) _ t ht) rfl)
        · exact h
  intro x0 x1 s hM h
  exact Same.step hM (H x0 x1 s (Same.refl _ _)) h

theorem tailWrite_frame {m : Nat} {s0 : State} : ∀ s x1, 81922 &&& m = 81922 → Same m s0 s → Same m s0 (tailWrite s x1) := by
  intro s x1 hM h
  refine Same.run hM h fun h0 => ?_
  unfold tailWrite
  repeat' (with_reducible first
    | assumption
    | exact Same.bits rfl
    | apply tailOut_frame
    | dsimp -zeta only)

theorem tailAdd_frame {m : Nat} {s0 : State} : ∀ x0 x1 s x3 x4, 73730 &&& m = 73730 → Same m s0 s → Same m s0 (tailAdd x0 x1 s x3 x4) := by
  intro x0 x1 s x3 x4 hM h
  refine Same.run hM h fun h0 => ?_
  unfold tailAdd
  repeat' (with_reducible first
    | assumption
    | exact Same.bits rfl
    | (extract_lets +onlyGivenNames z; change State at z; apply Same.cutS h0 (x := z); unfold z; clear z; rotate_left; intro h; clear_value z; apply Same.letS h; clear h z; intro z h)
    | (extract_lets +onlyGivenNames z; change _ × _ × State at z; apply Same.cut22 h0 (x := z); unfold z; clear z; rotate_left; intro h; clear_value z; apply Same.let22 (x := z) h; clear h z; intro z h)
    | (extract_lets +onlyGivenNames z; change _ × State at z; apply Same.cut2 h0 (x := z); unfold z; clear z; rotate_left; intro h; clear_value z; apply Same.let2 (x := z) h; clear h z; intro z h)
    | (extract_lets +onlyGivenNames z; clear_value z; apply Same.letAny z; clear z; intro z)
    | apply seqTake_frame
    | (refine Same.updMed ?_ rfl; assumption)
    | (apply Same2.out; apply seqTake_frame)
    | dsimp -zeta only
    | apply Same2.mk')

theorem journalHold_frame {m : Nat} {s0 : State} : ∀ x0 x1 s x3 x4, 90114 &&& m = 90114 → Same m s0 s → Same m s0 (journalHold x0 x1 s x3 x4) := by
  intro x0 x1 s x3 x4 hM h
  refine Same.run hM h fun h0 => ?_
  unfold journalHold
  repeat' (with_reducible first
    | assumption
    | exact Same.bits rfl
    | (extract_lets +onlyGivenNames z; change State at z; apply Same.cutS h0 (x := z); unfold z; clear z; rotate_left; intro h; clear_value z; apply Same.letS h; clear h z; intro z h)
    | (extract_lets +onlyGivenNames z; change _ × _ × State at z; apply Same.cut22 h0 (x := z); unfold z; clear z; rotate_left; intro h; clear_value z; apply Same.let22 (x := z) h; clear h z; intro z h)
    | (extract_lets +onlyGivenNames z; change _ × State at z; apply Same.cut2 h0 (x := z); unfold z; clear z; rotate_left; intro h; clear_value z; apply Same.let2 (x := z) h; clear h z; intro z h)
    | (extract_lets +onlyGivenNames z; clear_value z; apply Same.letAny z; clear z; intro z)
    | apply Same.ite
    | apply tailAdd_frame
    | apply tailWrite_frame
    | split
    | dsimp -zeta only)

theorem journalFor_frame {m : Nat} {s0 : State} : ∀ x0 s x2 x3, 90114 &&& m = 90114 → Same m s0 s → Same m s0 (journalFor x0 s x2 x3) := by
  intro x0 s x2 x3 hM h
  refine Same.run hM h fun h0 => ?_
  unfold journalFor
  repeat' (with_reducible first
    | assumption
    | exact Same.bits rfl
    | apply journalHold_frame
    | dsimp -zeta only)

theorem journal_frame {m : Nat} {s0 : State} : ∀ s x1 x2, 90114 &&& m = 90114 → Same m s0 s → Same m s0 (journal s x1 x2) := by
  intro s x1 x2 hM h
  refine Same.run hM h fun h0 => ?_
  unfold journal
  repeat' (with_reducible first
    | assumption
    | exact Same.bits rfl
    | apply journalFor_frame)

theorem usedRefresh_frame {m : Nat} {s0 : State} : ∀ s, 2 &&& m = 2 → Same m s0 s → Same m s0 (usedRefresh s) := by
  intro s hM h
  refine Same.run hM h fun h0 => ?_
  unfold usedRefresh
  repeat' (with_reducible first
    | assumption
    | intro _
    | exact Same.bits rfl
    | (extract_lets +onlyGivenNames z; change State at z; apply Same.cutS h0 (x := z); unfold z; clear z; rotate_left; intro h; clear_value z; apply Same.letS h; clear h z; intro z h)
    | (extract_lets +onlyGivenNames z; change _ × _ × State at z; apply Same.cut22 h0 (x := z); unfold z; clear z; rotate_left; intro h; clear_value z; apply Same.let22 (x := z) h; clear h z; intro z h)
    | (extract_lets +onlyGivenNames z; change _ × State at z; apply Same.cut2 h0 (x := z); unfold z; clear z; rotate_left; intro h; clear_value z; apply Same.let2 (x := z) h; clear h z; intro z h)
    | (extract_lets +onlyGivenNames z; change _ → _ at z; apply Same.cutF z; subst z)
    | (extract_lets +onlyGivenNames z; clear_value z; apply Same.letAny z; clear z; intro z)
    | apply Same.ite
    | apply fset_frame
    | apply Same.foldl
    | split
    | dsimp -zeta only)

theorem spareRefresh_frame {m : Nat} {s0 : State} : ∀ s, 2 &&& m = 2 → Same m s0 s → Same m s0 (spareRefresh s) := by
  intro s hM h
  refine Same.run hM h fun h0 => ?_
  unfold spareRefresh
  repeat' (with_reducible first
    | assumption
    | intro _
    | exact Same.bits rfl
    | (extract_lets +onlyGivenNames z; change State at z; apply Same.cutS h0 (x := z); unfold z; clear z; rotate_left; intro h; clear_value z; apply Same.letS h; clear h z; intro z h)
    | (extract_lets +onlyGivenNames z; change _ × _ × State at z; apply Same.cut22 h0 (x := z); unfold z; clear z; rotate_left; intro h; clear_value z; apply Same.let22 (x := z) h; clear h z; intro z h)
    | (extract_lets +onlyGivenNames z; change _ × State at z; apply Same.cut2 h0 (x := z); unfold z; clear z; rotate_left; intro h; clear_value z; apply Same.let2 (x := z) h; clear h z; intro z h)
    | (extract_lets +onlyGivenNames z; clear_value z; apply Same.letAny z; clear z; intro z)
    | apply Same.ite
    | apply fset_frame
    | apply fon_frame
    | apply usedRefresh_frame
    | apply Same.foldl
    | split
    | dsimp -zeta only)

theorem sbErase_frame {m : Nat} {s0 : State} : ∀ s x1 x2, 114690 &&& m = 114690 → Same m s0 s → Same m s0 (sbErase s x1 x2) := by
  intro s x1 x2 hM h
  refine Same.run hM h fun h0 => ?_
  unfold sbErase
  repeat' (with_reducible first
    | assumption
    | intro _
    | exact Same.bits rfl
    | (extract_lets +onlyGivenNames z; change State at z; apply Same.cutS h0 (x := z); unfold z; clear z; rotate_left; intro h; clear_value z; apply Same.letS h; clear h z; intro z h)
    | (extract_lets +onlyGivenNames z; change _ × _ × State at z; apply Same.cut22 h0 (x := z); unfold z; clear z; rotate_left; intro h; clear_value z; apply Same.let22 (x := z) h; clear h z; intro z h)
    | (extract_lets +onlyGivenNames z; change _ × State at z; apply Same.cut2 h0 (x := z); unfold z; clear z; rotate_left; intro h; clear_value z; apply Same.let2 (x := z) h; clear h z; intro z h)
    | (extract_lets +onlyGivenNames z; clear_value z; apply Same.letAny z; clear z; intro z)
    | apply grpRefresh_frame
    | apply eraseMembers_frame
    | (refine Same.updPlcMed ?_ rfl; assumption)
    | split
    | dsimp -zeta only)

theorem sweep_frame {m : Nat} {s0 : State} : ∀ s, 114690 &&& m = 114690 → Same m s0 s → Same m s0 (sweep s) := by
  intro s hM h
  refine Same.run hM h fun h0 => ?_
  unfold sweep
  repeat' (with_reducible first
    | assumption
    | intro _
    | exact Same.bits rfl
    | (extract_lets +onlyGivenNames z; clear_value z; apply Same.letAny z; clear z; intro z)
    | apply Same.ite
    | apply sbErase_frame
    | apply Same.foldl)

theorem sbDrop_frame {m : Nat} {s0 : State} : ∀ s x1 x2 x3 x4, 3271682 &&& m = 3271682 → Same m s0 s → Same m s0 (sbDrop s x1 x2 x3 x4) := by
  intro s x1 x2 x3 x4 hM h
  refine Same.run hM h fun h0 => ?_
  unfold sbDrop
  repeat' (with_reducible first
    | assumption
    | intro _
    | exact Same.bits rfl
    | (extract_lets +onlyGivenNames z; change State at z; apply Same.cutS h0 (x := z); unfold z; clear z; rotate_left; intro h; clear_value z; apply Same.letS h; clear h z; intro z h)
    | (extract_lets +onlyGivenNames z; change _ × _ × State at z; apply Same.cut22 h0 (x := z); unfold z; clear z; rotate_left; intro h; clear_value z; apply Same.let22 (x := z) h; clear h z; intro z h)
    | (extract_lets +onlyGivenNames z; change _ × State at z; apply Same.cut2 h0 (x := z); unfold z; clear z; rotate_left; intro h; clear_value z; apply Same.let2 (x := z) h; clear h z; intro z h)
    | (extract_lets +onlyGivenNames z; clear_value z; apply Same.letAny z; clear z; intro z)
    | apply Same.ite
    | apply journal_frame
    | apply grpRefresh_frame
    | apply eraseMembers_frame
    | apply sweep_frame
    | apply moveUnits_frame
    | (refine Same.updMed ?_ rfl; assumption)
    | (refine Same.updPlc ?_ rfl; assumption)
    | split
    | dsimp -zeta only)

theorem retarget_frame {m : Nat} {s0 : State} : ∀ s x1 x2, 2048 &&& m = 2048 → Same m s0 s → Same m s0 (retarget s x1 x2) := by
  intro s x1 x2 hM h
  refine Same.run hM h fun h0 => ?_
  unfold retarget
  repeat' (with_reducible first
    | (extract_lets +onlyGivenNames z; change _ → _ at z; apply Same.cutF z; subst z)
    | (extract_lets +onlyGivenNames z; clear_value z; apply Same.letAny z; clear z; intro z)
    | (refine Same.updHst ?_ rfl; assumption))

theorem copyDrop_frame {m : Nat} {s0 : State} : ∀ s x1, 32768 &&& m = 32768 → Same m s0 s → Same m s0 (copyDrop s x1) := by
  intro s x1 hM h
  refine Same.run hM h fun h0 => ?_
  unfold copyDrop
  repeat' (with_reducible first
    | assumption
    | exact Same.bits rfl
    | (refine Same.updDsc ?_ rfl; assumption)
    | split
    | dsimp -zeta only)

theorem rehomeOne_frame {m : Nat} {s0 : State} : ∀ s x1, 51202 &&& m = 51202 → Same m s0 s → Same m s0 (rehomeOne s x1) := by
  intro s x1 hM h
  refine Same.run hM h fun h0 => ?_
  unfold rehomeOne
  repeat' (with_reducible first
    | assumption
    | exact Same.bits rfl
    | (extract_lets +onlyGivenNames z; change State at z; apply Same.cutS h0 (x := z); unfold z; clear z; rotate_left; intro h; clear_value z; apply Same.letS h; clear h z; intro z h)
    | (extract_lets +onlyGivenNames z; change _ × _ × State at z; apply Same.cut22 h0 (x := z); unfold z; clear z; rotate_left; intro h; clear_value z; apply Same.let22 (x := z) h; clear h z; intro z h)
    | (extract_lets +onlyGivenNames z; change _ × State at z; apply Same.cut2 h0 (x := z); unfold z; clear z; rotate_left; intro h; clear_value z; apply Same.let2 (x := z) h; clear h z; intro z h)
    | (extract_lets +onlyGivenNames z; clear_value z; apply Same.letAny z; clear z; intro z)
    | apply Same.ite
    | apply Same2.ite
    | apply claimSlots_frame
    | apply retarget_frame
    | apply setMember_frame
    | apply copyDrop_frame
    | (refine Same.updPlc ?_ rfl; assumption)
    | (refine Same.updPlc ?_ rfl; apply Same.ofPair2; assumption)
    | (apply Same.ofPair2; assumption)
    | (apply Same2.out; apply claimSlots_frame)
    | split
    | dsimp -zeta only
    | apply Same2.mk')

theorem stripeRehome_frame {m : Nat} {s0 : State} : ∀ s x1, 116738 &&& m = 116738 → Same m s0 s → Same m s0 (stripeRehome s x1) := by
  intro s x1 hM h
  refine Same.run hM h fun h0 => ?_
  unfold stripeRehome
  repeat' (with_reducible first
    | assumption
    | intro _
    | exact Same.bits rfl
    | (extract_lets +onlyGivenNames z; change State at z; apply Same.cutS h0 (x := z); unfold z; clear z; rotate_left; intro h; clear_value z; apply Same.letS h; clear h z; intro z h)
    | (extract_lets +onlyGivenNames z; change _ × _ × State at z; apply Same.cut22 h0 (x := z); unfold z; clear z; rotate_left; intro h; clear_value z; apply Same.let22 (x := z) h; clear h z; intro z h)
    | (extract_lets +onlyGivenNames z; change _ × State at z; apply Same.cut2 h0 (x := z); unfold z; clear z; rotate_left; intro h; clear_value z; apply Same.let2 (x := z) h; clear h z; intro z h)
    | (extract_lets +onlyGivenNames z; clear_value z; apply Same.letAny z; clear z; intro z)
    | apply rehomeOne_frame
    | apply prepareFor_frame
    | (refine Same.updPlc ?_ rfl; assumption)
    | apply Same.foldl
    | split
    | dsimp -zeta only)

theorem zneRefresh_frame {m : Nat} {s0 : State} : ∀ s, 2 &&& m = 2 → Same m s0 s → Same m s0 (zneRefresh s) := by
  intro s hM h
  refine Same.run hM h fun h0 => ?_
  unfold zneRefresh
  repeat' (with_reducible first
    | assumption
    | exact Same.bits rfl
    | (extract_lets +onlyGivenNames z; change _ → _ at z; apply Same.cutF z; subst z)
    | (extract_lets +onlyGivenNames z; change State at z; apply Same.cutS h0 (x := z); unfold z; clear z; rotate_left; intro h; clear_value z; apply Same.letS h; clear h z; intro z h)
    | (extract_lets +onlyGivenNames z; clear_value z; apply Same.letAny z; clear z; intro z)
    | apply Same.ite
    | apply fset_frame
    | apply fon_frame)

theorem zonePut_frame {m : Nat} {s0 : State} : ∀ s x1 x2, 8194 &&& m = 8194 → Same m s0 s → Same m s0 (zonePut s x1 x2) := by
  intro s x1 x2 hM h
  refine Same.run hM h fun h0 => ?_
  unfold zonePut
  repeat' (with_reducible first
    | exact Same.bits rfl
    | (extract_lets +onlyGivenNames z; clear_value z; apply Same.letAny z; clear z; intro z)
    | apply zneRefresh_frame
    | (refine Same.updZne ?_ rfl; assumption))

theorem foldDrop_frame {m : Nat} {s0 : State} : ∀ s x1, 90114 &&& m = 90114 → Same m s0 s → Same m s0 (foldDrop s x1) := by
  intro s x1 hM h
  refine Same.run hM h fun h0 => ?_
  unfold foldDrop
  repeat' (with_reducible first
    | assumption
    | intro _
    | exact Same.bits rfl
    | (extract_lets +onlyGivenNames z; change State at z; apply Same.cutS h0 (x := z); unfold z; clear z; rotate_left; intro h; clear_value z; apply Same.letS h; clear h z; intro z h)
    | (extract_lets +onlyGivenNames z; change _ × _ × State at z; apply Same.cut22 h0 (x := z); unfold z; clear z; rotate_left; intro h; clear_value z; apply Same.let22 (x := z) h; clear h z; intro z h)
    | (extract_lets +onlyGivenNames z; change _ × State at z; apply Same.cut2 h0 (x := z); unfold z; clear z; rotate_left; intro h; clear_value z; apply Same.let2 (x := z) h; clear h z; intro z h)
    | (extract_lets +onlyGivenNames z; clear_value z; apply Same.letAny z; clear z; intro z)
    | apply Same.ite
    | apply sbClose_frame
    | apply fset_frame
    | apply zonePut_frame
    | (refine Same.updPlc ?_ rfl; assumption)
    | apply Same.foldl
    | split
    | dsimp -zeta only)

theorem directSet_frame {m : Nat} {s0 : State} : ∀ s x1 x2 x3, 114690 &&& m = 114690 → Same m s0 s → SameO2 m s0 (directSet s x1 x2 x3) := by
  intro s x1 x2 x3 hM h
  refine SameO2.run hM h fun h0 => ?_
  unfold directSet
  repeat' (with_reducible first
    | assumption
    | intro _
    | exact Same.bits rfl
    | (extract_lets +onlyGivenNames z; change State at z; apply Same.cutS h0 (x := z); unfold z; clear z; rotate_left; intro h; clear_value z; apply Same.letS h; clear h z; intro z h)
    | (extract_lets +onlyGivenNames z; change _ × _ × State at z; apply Same.cut22 h0 (x := z); unfold z; clear z; rotate_left; intro h; clear_value z; apply Same.let22 (x := z) h; clear h z; intro z h)
    | (extract_lets +onlyGivenNames z; change _ × State at z; apply Same.cut2 h0 (x := z); unfold z; clear z; rotate_left; intro h; clear_value z; apply Same.let2 (x := z) h; clear h z; intro z h)
    | (extract_lets +onlyGivenNames z; change _ → _ at z; apply Same.cutF z; subst z)
    | (extract_lets +onlyGivenNames z; clear_value z; apply Same.letAny z; clear z; intro z)
    | apply Same.ite
    | apply SameO2.ite
    | apply takeSet_frame
    | (refine Same.updPlc ?_ rfl; assumption)
    | apply SameO2.some
    | exact SameO2.none
    | split
    | dsimp -zeta only)

theorem foldStripes_frame {m : Nat} {s0 : State} : ∀ s x1 x2 x3 x4 x5 x6 x7, 16384 &&& m = 16384 → Same m s0 s → Same2 m s0 (foldStripes s x1 x2 x3 x4 x5 x6 x7) := by
  have H : ∀ {s0 : State} s x1 x2 x3 x4 x5 x6 x7, Same 16384 s0 s → Same2 16384 s0 (foldStripes s x1 x2 x3 x4 x5 x6 x7) := by
    intro s0 s x1 x2 x3 x4 x5 x6 x7 h0
    induction x7 generalizing s x1 x2 x3 x4 x5 x6 with
    | zero =>
      rw [foldStripes]
      repeat' (with_reducible first
      | assumption
      | exact Same.bits rfl
      | apply ih
      | (extract_lets +onlyGivenNames z; change State at z; apply Same.cutS h0 (x := z); unfold z; clear z; rotate_left; intro h; clear_value z; apply Same.letS h; clear h z; intro z h)
      | (extract_lets +onlyGivenNames z; change _ × _ × State at z; apply Same.cut22 h0 (x := z); unfold z; clear z; rotate_left; intro h; clear_value z; apply Same.let22 (x := z) h; clear h z; intro z h)
      | (extract_lets +onlyGivenNames z; change _ × State at z; apply Same.cut2 h0 (x := z); unfold z; clear z; rotate_left; intro h; clear_value z; apply Same.let2 (x := z) h; clear h z; intro z h)
      | (extract_lets +onlyGivenNames z; clear_value z; apply Same.letAny z; clear z; intro z)
      | apply addStripe_frame
      | (apply Same.ofPair2; assumption)
      | (apply Same2.out; apply addStripe_frame)
      | (apply Same2.out; apply ih)
      | split
      | dsimp -zeta only
      | apply Same2.mk')
    | succ k ih =>
      rw [foldStripes]
      repeat' (with_reducible first
      | assumption
      | exact Same.bits rfl
      | apply ih
      | (extract_lets +onlyGivenNames z; change State at z; apply Same.cutS h0 (x := z); unfold z; clear z; rotate_left; intro h; clear_value z; apply Same.letS h; clear h z; intro z h)
      | (extract_lets +onlyGivenNames z; change _ × _ × State at z; apply Same.cut22 h0 (x := z); unfold z; clear z; rotate_left; intro h; clear_value z; apply Same.let22 (x := z) h; clear h z; intro z h)
      | (extract_lets +onlyGivenNames z; change _ × State at z; apply Same.cut2 h0 (x := z); unfold z; clear z; rotate_left; intro h; clear_value z; apply Same.let2 (x := z) h; clear h z; intro z h)
      | (extract_lets +onlyGivenNames z; clear_value z; apply Same.letAny z; clear z; intro z)
      | apply addStripe_frame
      | (apply Same.ofPair2; assumption)
      | (apply Same2.out; apply addStripe_frame)
      | (apply Same2.out; apply ih)
      | split
      | dsimp -zeta only
      | apply Same2.mk')
  intro s x1 x2 x3 x4 x5 x6 x7 hM h
  exact Same2.step hM (H s x1 x2 x3 x4 x5 x6 x7 (Same.refl _ _)) h

theorem foldHalf_frame {m : Nat} {s0 : State} : ∀ s x1 x2 x3 x4 x5 x6 x7, 16384 &&& m = 16384 → Same m s0 s → Same22 m s0 (foldHalf s x1 x2 x3 x4 x5 x6 x7) := by
  intro s x1 x2 x3 x4 x5 x6 x7 hM h
  refine Same22.run hM h fun h0 => ?_
  unfold foldHalf
  repeat' (with_reducible first
    | assumption
    | exact Same.bits rfl
    | (extract_lets +onlyGivenNames z; change State at z; apply Same.cutS h0 (x := z); unfold z; clear z; rotate_left; intro h; clear_value z; apply Same.letS h; clear h z; intro z h)
    | (extract_lets +onlyGivenNames z; change _ × _ × State at z; apply Same.cut22 h0 (x := z); unfold z; clear z; rotate_left; intro h; clear_value z; apply Same.let22 (x := z) h; clear h z; intro z h)
    | (extract_lets +onlyGivenNames z; change _ × State at z; apply Same.cut2 h0 (x := z); unfold z; clear z; rotate_left; intro h; clear_value z; apply Same.let2 (x := z) h; clear h z; intro z h)
    | (extract_lets +onlyGivenNames z; clear_value z; apply Same.letAny z; clear z; intro z)
    | apply foldStripes_frame
    | (apply Same2.out; apply foldStripes_frame)
    | dsimp -zeta only
    | apply Same2.mk'
    | apply Same22.mk'
    | apply Same2.mk')

theorem foldSecond_frame {m : Nat} {s0 : State} : ∀ s x1 x2 x3 x4 x5 x6, 16384 &&& m = 16384 → Same m s0 s → Same22 m s0 (foldSecond s x1 x2 x3 x4 x5 x6) := by
  intro s x1 x2 x3 x4 x5 x6 hM h
  refine Same22.run hM h fun h0 => ?_
  unfold foldSecond
  repeat' (with_reducible first
    | assumption
    | exact Same.bits rfl
    | apply Same.ite
    | apply Same22.ite
    | apply foldHalf_frame
    | (apply Same22.out; apply foldHalf_frame)
    | split
    | dsimp -zeta only
    | apply Same22.mk'
    | apply Same2.mk')

theorem foldSets_frame {m : Nat} {s0 : State} : ∀ s x1 x2 x3 x4 x5 x6 x7, 114690 &&& m = 114690 → Same m s0 s → Same2 m s0 (foldSets s x1 x2 x3 x4 x5 x6 x7) := by
  have H : ∀ {s0 : State} x7 s x1 x2 x3 x4 x5 x6, Same 114690 s0 s → Same2 114690 s0 (foldSets s x1 x2 x3 x4 x5 x6 x7) := by
    intro s0 k
    induction k with
    | zero => intro s x1 x2 x3 x4 x5 x6 h; exact Same2.mk' h
    | succ k ih =>
      intro s x1 x2 x3 x4 x5 x6 h
      unfold foldSets
      split
      · rename_i t e
        refine Same2.mk' (Same2.out (ih _ _ _ _ _ _ _ ?_))
        refine grpRefresh_frame _ _ (Same.bits rfl) (Same22.out (foldSecond_frame _ _ _ _ _ _ _ (Same.bits rfl) ?_))
        refine Same22.out (foldHalf_frame _ _ _ _ _ _ _ _ (Same.bits rfl) ?_)
        exact Same.ofSome2 e (directSet_frame _ _ _ _ (Same.bits rfl) h)
      · exact Same2.mk' h
  intro s x1 x2 x3 x4 x5 x6 x7 hM h
  exact Same2.step hM (H x7 s x1 x2 x3 x4 x5 x6 (Same.refl _ _)) h

theorem foldRehome_frame {m : Nat} {s0 : State} : ∀ s x1 x2, 122882 &&& m = 122882 → Same m s0 s → Same m s0 (foldRehome s x1 x2) := by
  intro s x1 x2 hM h
  refine Same.run hM h fun h0 => ?_
  unfold foldRehome
  repeat' (with_reducible first
    | assumption
    | intro _
    | exact Same.bits rfl
    | (extract_lets +onlyGivenNames z; change State at z; apply Same.cutS h0 (x := z); unfold z; clear z; rotate_left; intro h; clear_value z; apply Same.letS h; clear h z; intro z h)
    | (extract_lets +onlyGivenNames z; change _ × _ × State at z; apply Same.cut22 h0 (x := z); unfold z; clear z; rotate_left; intro h; clear_value z; apply Same.let22 (x := z) h; clear h z; intro z h)
    | (extract_lets +onlyGivenNames z; change _ × State at z; apply Same.cut2 h0 (x := z); unfold z; clear z; rotate_left; intro h; clear_value z; apply Same.let2 (x := z) h; clear h z; intro z h)
    | (extract_lets +onlyGivenNames z; clear_value z; apply Same.letAny z; clear z; intro z)
    | apply Same.ite
    | apply Same2.ite
    | apply foldDrop_frame
    | apply foldSets_frame
    | (refine Same.updPlc ?_ rfl; assumption)
    | (refine Same.updPlc ?_ rfl; apply Same.ofPair2; assumption)
    | (apply Same.ofPair2; assumption)
    | (apply Same2.out; apply foldSets_frame)
    | split
    | dsimp -zeta only
    | apply Same2.mk')

theorem abandonStripes_frame {m : Nat} {s0 : State} : ∀ s x1, 124930 &&& m = 124930 → Same m s0 s → Same m s0 (abandonStripes s x1) := by
  intro s x1 hM h
  refine Same.run hM h fun h0 => ?_
  unfold abandonStripes
  repeat' (with_reducible first
    | assumption
    | intro _
    | exact Same.bits rfl
    | (extract_lets +onlyGivenNames z; change State at z; apply Same.cutS h0 (x := z); unfold z; clear z; rotate_left; intro h; clear_value z; apply Same.letS h; clear h z; intro z h)
    | (extract_lets +onlyGivenNames z; change _ × _ × State at z; apply Same.cut22 h0 (x := z); unfold z; clear z; rotate_left; intro h; clear_value z; apply Same.let22 (x := z) h; clear h z; intro z h)
    | (extract_lets +onlyGivenNames z; change _ × State at z; apply Same.cut2 h0 (x := z); unfold z; clear z; rotate_left; intro h; clear_value z; apply Same.let2 (x := z) h; clear h z; intro z h)
    | (extract_lets +onlyGivenNames z; clear_value z; apply Same.letAny z; clear z; intro z)
    | apply foldRehome_frame
    | apply stripeRehome_frame
    | apply Same.foldl
    | dsimp -zeta only)

theorem setShut_frame {m : Nat} {s0 : State} : ∀ s x1 x2, 124930 &&& m = 124930 → Same m s0 s → Same m s0 (setShut s x1 x2) := by
  intro s x1 x2 hM h
  refine Same.run hM h fun h0 => ?_
  unfold setShut
  repeat' (with_reducible first
    | assumption
    | intro _
    | exact Same.bits rfl
    | (extract_lets +onlyGivenNames z; change State at z; apply Same.cutS h0 (x := z); unfold z; clear z; rotate_left; intro h; clear_value z; apply Same.letS h; clear h z; intro z h)
    | (extract_lets +onlyGivenNames z; change _ × _ × State at z; apply Same.cut22 h0 (x := z); unfold z; clear z; rotate_left; intro h; clear_value z; apply Same.let22 (x := z) h; clear h z; intro z h)
    | (extract_lets +onlyGivenNames z; change _ × State at z; apply Same.cut2 h0 (x := z); unfold z; clear z; rotate_left; intro h; clear_value z; apply Same.let2 (x := z) h; clear h z; intro z h)
    | (extract_lets +onlyGivenNames z; clear_value z; apply Same.letAny z; clear z; intro z)
    | apply Same.ite
    | apply abandonStripes_frame
    | apply sbClose_frame
    | (refine Same.updZnePlc ?_ rfl; assumption)
    | apply Same.foldl
    | split
    | dsimp -zeta only)

theorem callReturn_frame {m : Nat} {s0 : State} : ∀ s x1, 1048578 &&& m = 1048578 → Same m s0 s → Same m s0 (callReturn s x1) := by
  intro s x1 hM h
  refine Same.run hM h fun h0 => ?_
  unfold callReturn
  repeat' (with_reducible first
    | exact Same.bits rfl
    | (extract_lets +onlyGivenNames z; clear_value z; apply Same.letAny z; clear z; intro z)
    | apply noteCurrents_frame
    | (refine Same.updUmp ?_ rfl; assumption))

theorem callRefund_frame {m : Nat} {s0 : State} : ∀ s x1, 1048578 &&& m = 1048578 → Same m s0 s → Same m s0 (callRefund s x1) := by
  intro s x1 hM h
  refine Same.run hM h fun h0 => ?_
  unfold callRefund
  repeat' (with_reducible first
    | assumption
    | exact Same.bits rfl
    | (extract_lets +onlyGivenNames z; change _ → _ at z; apply Same.cutF z; subst z)
    | (extract_lets +onlyGivenNames z; change State at z; apply Same.cutS h0 (x := z); unfold z; clear z; rotate_left; intro h; clear_value z; apply Same.letS h; clear h z; intro z h)
    | apply Same.ite
    | apply callReturn_frame
    | (refine Same.updUmp ?_ rfl; assumption)
    | split)

theorem unparkDie_frame {m : Nat} {s0 : State} : ∀ x0 x1 s, 32770 &&& m = 32770 → Same m s0 s → Same m s0 (unparkDie x0 x1 s) := by
  have H : ∀ {s0 : State} x0 x1 s, Same 32770 s0 s → Same 32770 s0 (unparkDie x0 x1 s) := by
    intro s0 x0 x1 s h0
    induction x1 generalizing x0 s with
    | zero =>
      rw [unparkDie]
      repeat' (with_reducible first
      | assumption
      | exact Same.bits rfl
      | apply ih
      | apply Same.ite
      | apply queueEnter_frame
      | apply parkPut_frame
      | split
      | dsimp -zeta only)
    | succ k ih =>
      rw [unparkDie]
      repeat' (with_reducible first
      | assumption
      | exact Same.bits rfl
      | apply ih
      | apply Same.ite
      | apply queueEnter_frame
      | apply parkPut_frame
      | split
      | dsimp -zeta only)
  intro x0 x1 s hM h
  exact Same.step hM (H x0 x1 s (Same.refl _ _)) h

theorem unpark_frame {m : Nat} {s0 : State} : ∀ s, 32770 &&& m = 32770 → Same m s0 s → Same m s0 (unpark s) := by
  intro s hM h
  refine Same.run hM h fun h0 => ?_
  unfold unpark
  repeat' (with_reducible first
    | assumption
    | intro _
    | exact Same.bits rfl
    | apply unparkDie_frame
    | apply Same.foldl
    | dsimp -zeta only)

theorem blockUnqueue_frame {m : Nat} {s0 : State} : ∀ s x1 x2, 1081346 &&& m = 1081346 → Same m s0 s → Same m s0 (blockUnqueue s x1 x2) := by
  intro s x1 x2 hM h
  refine Same.run hM h fun h0 => ?_
  unfold blockUnqueue
  repeat' (with_reducible first
    | assumption
    | intro _
    | exact Same.bits rfl
    | (extract_lets +onlyGivenNames z; change State at z; apply Same.cutS h0 (x := z); unfold z; clear z; rotate_left; intro h; clear_value z; apply Same.letS h; clear h z; intro z h)
    | (extract_lets +onlyGivenNames z; change _ × _ × State at z; apply Same.cut22 h0 (x := z); unfold z; clear z; rotate_left; intro h; clear_value z; apply Same.let22 (x := z) h; clear h z; intro z h)
    | (extract_lets +onlyGivenNames z; change _ × State at z; apply Same.cut2 h0 (x := z); unfold z; clear z; rotate_left; intro h; clear_value z; apply Same.let2 (x := z) h; clear h z; intro z h)
    | (extract_lets +onlyGivenNames z; change _ → _ at z; apply Same.cutF z; subst z)
    | (extract_lets +onlyGivenNames z; clear_value z; apply Same.letAny z; clear z; intro z)
    | apply callRefund_frame
    | apply unpark_frame
    | apply parkPut_frame
    | apply queuePut_frame
    | apply Same.foldl
    | split
    | dsimp -zeta only)

theorem retireBlock_frame {m : Nat} {s0 : State} : ∀ s x1 x2, 3271682 &&& m = 3271682 → Same m s0 s → Same m s0 (retireBlock s x1 x2) := by
  intro s x1 x2 hM h
  refine Same.run hM h fun h0 => ?_
  unfold retireBlock
  repeat' (with_reducible first
    | assumption
    | exact Same.bits rfl
    | (extract_lets +onlyGivenNames z; change State at z; apply Same.cutS h0 (x := z); unfold z; clear z; rotate_left; intro h; clear_value z; apply Same.letS h; clear h z; intro z h)
    | (extract_lets +onlyGivenNames z; change _ × _ × State at z; apply Same.cut22 h0 (x := z); unfold z; clear z; rotate_left; intro h; clear_value z; apply Same.let22 (x := z) h; clear h z; intro z h)
    | (extract_lets +onlyGivenNames z; change _ × State at z; apply Same.cut2 h0 (x := z); unfold z; clear z; rotate_left; intro h; clear_value z; apply Same.let2 (x := z) h; clear h z; intro z h)
    | (extract_lets +onlyGivenNames z; clear_value z; apply Same.letAny z; clear z; intro z)
    | apply Same.ite
    | apply Same2.ite
    | apply blockUnqueue_frame
    | apply setShut_frame
    | apply moveUnits_frame
    | apply countRetired_frame
    | apply blkPut_frame
    | apply journal_frame
    | apply sbDrop_frame
    | apply spareRefresh_frame
    | (refine Same.updMed ?_ rfl; assumption)
    | split
    | dsimp -zeta only
    | apply Same2.mk')

theorem groupLoss_frame {m : Nat} {s0 : State} : ∀ s x1, 2098178 &&& m = 2098178 → Same m s0 s → Same m s0 (groupLoss s x1) := by
  intro s x1 hM h
  refine Same.run hM h fun h0 => ?_
  unfold groupLoss
  repeat' (with_reducible first
    | assumption
    | exact Same.bits rfl
    | (extract_lets +onlyGivenNames z; change State at z; apply Same.cutS h0 (x := z); unfold z; clear z; rotate_left; intro h; clear_value z; apply Same.letS h; clear h z; intro z h)
    | (extract_lets +onlyGivenNames z; clear_value z; apply Same.letAny z; clear z; intro z)
    | apply Same.ite
    | apply grpSet_frame
    | apply post_frame
    | apply fon_frame)

theorem urgency_frame {m : Nat} {s0 : State} : ∀ s, 32768 &&& m = 32768 → Same m s0 s → Same m s0 (urgency s) := by
  intro s hM h
  refine Same.run hM h fun h0 => ?_
  unfold urgency
  repeat' (with_reducible first
    | assumption
    | intro _
    | exact Same.bits rfl
    | (extract_lets +onlyGivenNames z; change State at z; apply Same.cutS h0 (x := z); unfold z; clear z; rotate_left; intro h; clear_value z; apply Same.letS h; clear h z; intro z h)
    | (extract_lets +onlyGivenNames z; change _ × _ × State at z; apply Same.cut22 h0 (x := z); unfold z; clear z; rotate_left; intro h; clear_value z; apply Same.let22 (x := z) h; clear h z; intro z h)
    | (extract_lets +onlyGivenNames z; change _ × State at z; apply Same.cut2 h0 (x := z); unfold z; clear z; rotate_left; intro h; clear_value z; apply Same.let2 (x := z) h; clear h z; intro z h)
    | (extract_lets +onlyGivenNames z; change _ → _ at z; apply Same.cutF z; subst z)
    | (extract_lets +onlyGivenNames z; clear_value z; apply Same.letAny z; clear z; intro z)
    | apply Same.ite
    | (refine Same.updDsc ?_ rfl; assumption)
    | apply Same.foldl
    | split
    | dsimp -zeta only)

theorem programPage_frame {m : Nat} {s0 : State} : ∀ s x1, 32770 &&& m = 32770 → Same m s0 s → Same m s0 (programPage s x1) := by
  intro s x1 hM h
  refine Same.run hM h fun h0 => ?_
  unfold programPage
  repeat' (with_reducible first
    | assumption
    | intro _
    | exact Same.bits rfl
    | (extract_lets +onlyGivenNames z; change State at z; apply Same.cutS h0 (x := z); unfold z; clear z; rotate_left; intro h; clear_value z; apply Same.letS h; clear h z; intro z h)
    | (extract_lets +onlyGivenNames z; change _ × _ × State at z; apply Same.cut22 h0 (x := z); unfold z; clear z; rotate_left; intro h; clear_value z; apply Same.let22 (x := z) h; clear h z; intro z h)
    | (extract_lets +onlyGivenNames z; change _ × State at z; apply Same.cut2 h0 (x := z); unfold z; clear z; rotate_left; intro h; clear_value z; apply Same.let2 (x := z) h; clear h z; intro z h)
    | (extract_lets +onlyGivenNames z; change _ → _ at z; apply Same.cutF z; subst z)
    | (extract_lets +onlyGivenNames z; clear_value z; apply Same.letAny z; clear z; intro z)
    | apply Same.ite
    | apply urgency_frame
    | apply enqueue_frame
    | apply Same.foldl
    | split
    | dsimp -zeta only)

theorem memberSpare_frame {m : Nat} {s0 : State} : ∀ x0 x1 s x3, 65536 &&& m = 65536 → Same m s0 s → Same m s0 (memberSpare x0 x1 s x3) := by
  intro x0 x1 s x3 hM h
  refine Same.run hM h fun h0 => ?_
  unfold memberSpare
  repeat' (with_reducible first
    | assumption
    | exact Same.bits rfl
    | (extract_lets +onlyGivenNames z; change State at z; apply Same.cutS h0 (x := z); unfold z; clear z; rotate_left; intro h; clear_value z; apply Same.letS h; clear h z; intro z h)
    | (extract_lets +onlyGivenNames z; change _ × _ × State at z; apply Same.cut22 h0 (x := z); unfold z; clear z; rotate_left; intro h; clear_value z; apply Same.let22 (x := z) h; clear h z; intro z h)
    | (extract_lets +onlyGivenNames z; change _ × State at z; apply Same.cut2 h0 (x := z); unfold z; clear z; rotate_left; intro h; clear_value z; apply Same.let2 (x := z) h; clear h z; intro z h)
    | (extract_lets +onlyGivenNames z; clear_value z; apply Same.letAny z; clear z; intro z)
    | apply Same.ite
    | apply blkPut_frame
    | (refine Same.updMed ?_ rfl; assumption)
    | split
    | dsimp -zeta only)

theorem holdTry_frame {m : Nat} {s0 : State} : ∀ s, 65536 &&& m = 65536 → Same m s0 s → Same m s0 (holdTry s) := by
  intro s hM h
  refine Same.run hM h fun h0 => ?_
  unfold holdTry
  repeat' (with_reducible first
    | assumption
    | exact Same.bits rfl
    | apply Same.ite
    | (refine Same.updMed ?_ rfl; assumption)
    | split
    | dsimp -zeta only)

theorem memberErased_frame {m : Nat} {s0 : State} : ∀ s x1 x2 x3, 134340610 &&& m = 134340610 → Same m s0 s → Same m s0 (memberErased s x1 x2 x3) := by
  intro s x1 x2 x3 hM h
  refine Same.run hM h fun h0 => ?_
  unfold memberErased
  repeat' (with_reducible first
    | assumption
    | intro _
    | exact Same.bits rfl
    | (extract_lets +onlyGivenNames z; change State at z; apply Same.cutS h0 (x := z); unfold z; clear z; rotate_left; intro h; clear_value z; apply Same.letS h; clear h z; intro z h)
    | (extract_lets +onlyGivenNames z; change _ × _ × State at z; apply Same.cut22 h0 (x := z); unfold z; clear z; rotate_left; intro h; clear_value z; apply Same.let22 (x := z) h; clear h z; intro z h)
    | (extract_lets +onlyGivenNames z; change _ × State at z; apply Same.cut2 h0 (x := z); unfold z; clear z; rotate_left; intro h; clear_value z; apply Same.let2 (x := z) h; clear h z; intro z h)
    | (extract_lets +onlyGivenNames z; clear_value z; apply Same.letAny z; clear z; intro z)
    | apply Same.ite
    | apply journal_frame
    | apply programPage_frame
    | apply spareRefresh_frame
    | apply memberSpare_frame
    | apply holdTry_frame
    | apply grpRefresh_frame
    | (refine Same.updMed ?_ rfl; assumption)
    | (refine Same.updMedAge ?_ rfl; assumption)
    | (refine Same.updPlc ?_ rfl; assumption)
    | apply Same.foldl
    | split
    | dsimp -zeta only)

theorem dropQueued_frame {m : Nat} {s0 : State} : ∀ s x1, 1081346 &&& m = 1081346 → Same m s0 s → Same m s0 (dropQueued s x1) := by
  intro s x1 hM h
  refine Same.run hM h fun h0 => ?_
  unfold dropQueued
  repeat' (with_reducible first
    | assumption
    | intro _
    | exact Same.bits rfl
    | (extract_lets +onlyGivenNames z; change State at z; apply Same.cutS h0 (x := z); unfold z; clear z; rotate_left; intro h; clear_value z; apply Same.letS h; clear h z; intro z h)
    | (extract_lets +onlyGivenNames z; change _ × _ × State at z; apply Same.cut22 h0 (x := z); unfold z; clear z; rotate_left; intro h; clear_value z; apply Same.let22 (x := z) h; clear h z; intro z h)
    | (extract_lets +onlyGivenNames z; change _ × State at z; apply Same.cut2 h0 (x := z); unfold z; clear z; rotate_left; intro h; clear_value z; apply Same.let2 (x := z) h; clear h z; intro z h)
    | (extract_lets +onlyGivenNames z; clear_value z; apply Same.letAny z; clear z; intro z)
    | apply Same.ite
    | apply parkPut_frame
    | apply unpark_frame
    | apply callRefund_frame
    | apply queuePut_frame
    | apply Same.foldl
    | split
    | dsimp -zeta only)

theorem reboundFail_frame {m : Nat} {s0 : State} : ∀ s x1, 3263490 &&& m = 3263490 → Same m s0 s → Same m s0 (reboundFail s x1) := by
  intro s x1 hM h
  refine Same.run hM h fun h0 => ?_
  unfold reboundFail
  repeat' (with_reducible first
    | assumption
    | intro _
    | exact Same.bits rfl
    | (extract_lets +onlyGivenNames z; change State at z; apply Same.cutS h0 (x := z); unfold z; clear z; rotate_left; intro h; clear_value z; apply Same.letS h; clear h z; intro z h)
    | (extract_lets +onlyGivenNames z; change _ × _ × State at z; apply Same.cut22 h0 (x := z); unfold z; clear z; rotate_left; intro h; clear_value z; apply Same.let22 (x := z) h; clear h z; intro z h)
    | (extract_lets +onlyGivenNames z; change _ × State at z; apply Same.cut2 h0 (x := z); unfold z; clear z; rotate_left; intro h; clear_value z; apply Same.let2 (x := z) h; clear h z; intro z h)
    | (extract_lets +onlyGivenNames z; clear_value z; apply Same.letAny z; clear z; intro z)
    | apply Same.ite
    | apply dropQueued_frame
    | apply unitLost_frame
    | apply reboundMust_frame
    | apply serveDirect_frame
    | apply finc_frame
    | apply askSuspend_frame
    | (refine Same.updDsc ?_ rfl; assumption)
    | split
    | dsimp -zeta only)

theorem opLost_frame {m : Nat} {s0 : State} : ∀ s x1 x2, 137489410 &&& m = 137489410 → Same m s0 s → Same m s0 (opLost s x1 x2) := by
  intro s x1 x2 hM h
  refine Same.run hM h fun h0 => ?_
  unfold opLost
  repeat' (with_reducible first
    | assumption
    | exact Same.bits rfl
    | (extract_lets +onlyGivenNames z; change State at z; apply Same.cutS h0 (x := z); unfold z; clear z; rotate_left; intro h; clear_value z; apply Same.letS h; clear h z; intro z h)
    | (extract_lets +onlyGivenNames z; change _ × _ × State at z; apply Same.cut22 h0 (x := z); unfold z; clear z; rotate_left; intro h; clear_value z; apply Same.let22 (x := z) h; clear h z; intro z h)
    | (extract_lets +onlyGivenNames z; change _ × State at z; apply Same.cut2 h0 (x := z); unfold z; clear z; rotate_left; intro h; clear_value z; apply Same.let2 (x := z) h; clear h z; intro z h)
    | (extract_lets +onlyGivenNames z; clear_value z; apply Same.letAny z; clear z; intro z)
    | apply Same.ite
    | apply callReturn_frame
    | apply memberErased_frame
    | apply reboundFail_frame
    | apply reboundMust_frame
    | apply readSt_frame
    | split
    | dsimp -zeta only)

theorem leaveDirectP_frame {m : Nat} {s0 : State} : ∀ s x1 x2, 124930 &&& m = 124930 → Same m s0 s → Same m s0 (leaveDirectP s x1 x2) := by
  intro s x1 x2 hM h
  refine Same.run hM h fun h0 => ?_
  unfold leaveDirectP
  repeat' (with_reducible first
    | assumption
    | intro _
    | exact Same.bits rfl
    | (extract_lets +onlyGivenNames z; change State at z; apply Same.cutS h0 (x := z); unfold z; clear z; rotate_left; intro h; clear_value z; apply Same.letS h; clear h z; intro z h)
    | (extract_lets +onlyGivenNames z; change _ × _ × State at z; apply Same.cut22 h0 (x := z); unfold z; clear z; rotate_left; intro h; clear_value z; apply Same.let22 (x := z) h; clear h z; intro z h)
    | (extract_lets +onlyGivenNames z; change _ × State at z; apply Same.cut2 h0 (x := z); unfold z; clear z; rotate_left; intro h; clear_value z; apply Same.let2 (x := z) h; clear h z; intro z h)
    | (extract_lets +onlyGivenNames z; change _ → _ at z; apply Same.cutF z; subst z)
    | (extract_lets +onlyGivenNames z; clear_value z; apply Same.letAny z; clear z; intro z)
    | apply Same.ite
    | apply zonePut_frame
    | apply stripeRehome_frame
    | apply sbClose_frame
    | apply Same.foldl
    | split
    | dsimp -zeta only)

theorem rebuildBlock_frame {m : Nat} {s0 : State} : ∀ s x1 x2, 3263490 &&& m = 3263490 → Same m s0 s → Same m s0 (rebuildBlock s x1 x2) := by
  intro s x1 x2 hM h
  refine Same.run hM h fun h0 => ?_
  unfold rebuildBlock
  repeat' (with_reducible first
    | assumption
    | intro _
    | exact Same.bits rfl
    | (extract_lets +onlyGivenNames z; change State at z; apply Same.cutS h0 (x := z); unfold z; clear z; rotate_left; intro h; clear_value z; apply Same.letS h; clear h z; intro z h)
    | (extract_lets +onlyGivenNames z; change _ × _ × State at z; apply Same.cut22 h0 (x := z); unfold z; clear z; rotate_left; intro h; clear_value z; apply Same.let22 (x := z) h; clear h z; intro z h)
    | (extract_lets +onlyGivenNames z; change _ × State at z; apply Same.cut2 h0 (x := z); unfold z; clear z; rotate_left; intro h; clear_value z; apply Same.let2 (x := z) h; clear h z; intro z h)
    | (extract_lets +onlyGivenNames z; clear_value z; apply Same.letAny z; clear z; intro z)
    | apply Same.ite
    | apply copyUnit_frame
    | apply Same.foldl
    | split
    | dsimp -zeta only)

theorem rebuildMove_frame {m : Nat} {s0 : State} : ∀ s x1, 3263490 &&& m = 3263490 → Same m s0 s → Same m s0 (rebuildMove s x1) := by
  intro s x1 hM h
  refine Same.run hM h fun h0 => ?_
  unfold rebuildMove
  repeat' (with_reducible first
    | assumption
    | intro _
    | exact Same.bits rfl
    | (extract_lets +onlyGivenNames z; change State at z; apply Same.cutS h0 (x := z); unfold z; clear z; rotate_left; intro h; clear_value z; apply Same.letS h; clear h z; intro z h)
    | (extract_lets +onlyGivenNames z; change _ × _ × State at z; apply Same.cut22 h0 (x := z); unfold z; clear z; rotate_left; intro h; clear_value z; apply Same.let22 (x := z) h; clear h z; intro z h)
    | (extract_lets +onlyGivenNames z; change _ × State at z; apply Same.cut2 h0 (x := z); unfold z; clear z; rotate_left; intro h; clear_value z; apply Same.let2 (x := z) h; clear h z; intro z h)
    | (extract_lets +onlyGivenNames z; change _ → _ at z; apply Same.cutF z; subst z)
    | (extract_lets +onlyGivenNames z; clear_value z; apply Same.letAny z; clear z; intro z)
    | apply rebuildBlock_frame
    | apply metaMove_frame
    | apply Same.foldl
    | dsimp -zeta only)

theorem chsPut_frame {m : Nat} {s0 : State} : ∀ s x1 x2, 131072 &&& m = 131072 → Same m s0 s → Same m s0 (chsPut s x1 x2) := by
  intro s x1 x2 hM h
  refine Same.run hM h fun h0 => ?_
  unfold chsPut
  repeat' (with_reducible first
    | (extract_lets +onlyGivenNames z; clear_value z; apply Same.letAny z; clear z; intro z)
    | (refine Same.updFlash ?_ rfl; assumption))

theorem complete_frame {m : Nat} {s0 : State} : ∀ s x1 x2, 131074 &&& m = 131074 → Same m s0 s → Same m s0 (complete s x1 x2) := by
  intro s x1 x2 hM h
  refine Same.run hM h fun h0 => ?_
  unfold complete
  repeat' (with_reducible first
    | assumption
    | exact Same.bits rfl
    | (extract_lets +onlyGivenNames z; change State at z; apply Same.cutS h0 (x := z); unfold z; clear z; rotate_left; intro h; clear_value z; apply Same.letS h; clear h z; intro z h)
    | (extract_lets +onlyGivenNames z; clear_value z; apply Same.letAny z; clear z; intro z)
    | apply Same.ite
    | apply finc_frame
    | apply chsPut_frame
    | apply fon_frame)

theorem foff_frame {m : Nat} {s0 : State} : ∀ s x1, 2 &&& m = 2 → Same m s0 s → Same m s0 (foff s x1) := by
  intro s x1 hM h
  refine Same.run hM h fun h0 => ?_
  unfold foff
  repeat' (with_reducible first
    | assumption
    | exact Same.bits rfl
    | apply fset_frame)

theorem chsPush_frame {m : Nat} {s0 : State} : ∀ s x1 x2 x3, 131072 &&& m = 131072 → Same m s0 s → Same m s0 (chsPush s x1 x2 x3) := by
  intro s x1 x2 x3 hM h
  refine Same.run hM h fun h0 => ?_
  unfold chsPush
  repeat' (with_reducible first
    | assumption
    | exact Same.bits rfl
    | (extract_lets +onlyGivenNames z; clear_value z; apply Same.letAny z; clear z; intro z)
    | apply chsPut_frame)

theorem postPending_frame {m : Nat} {s0 : State} : ∀ s x1, 131074 &&& m = 131074 → Same m s0 s → Same m s0 (postPending s x1) := by
  intro s x1 hM h
  refine Same.run hM h fun h0 => ?_
  unfold postPending
  repeat' (with_reducible first
    | assumption
    | intro _
    | exact Same.bits rfl
    | (extract_lets +onlyGivenNames z; change State at z; apply Same.cutS h0 (x := z); unfold z; clear z; rotate_left; intro h; clear_value z; apply Same.letS h; clear h z; intro z h)
    | (extract_lets +onlyGivenNames z; change _ × _ × State at z; apply Same.cut22 h0 (x := z); unfold z; clear z; rotate_left; intro h; clear_value z; apply Same.let22 (x := z) h; clear h z; intro z h)
    | (extract_lets +onlyGivenNames z; change _ × State at z; apply Same.cut2 h0 (x := z); unfold z; clear z; rotate_left; intro h; clear_value z; apply Same.let2 (x := z) h; clear h z; intro z h)
    | (extract_lets +onlyGivenNames z; clear_value z; apply Same.letAny z; clear z; intro z)
    | apply Same.ite
    | apply foff_frame
    | apply complete_frame
    | apply chsPush_frame
    | apply fon_frame
    | split
    | dsimp -zeta only)

theorem flushQueues_frame {m : Nat} {s0 : State} : ∀ s x1 x2 x3, 131074 &&& m = 131074 → Same m s0 s → Same m s0 (flushQueues s x1 x2 x3) := by
  intro s x1 x2 x3 hM h
  refine Same.run hM h fun h0 => ?_
  unfold flushQueues
  repeat' (with_reducible first
    | assumption
    | intro _
    | exact Same.bits rfl
    | (extract_lets +onlyGivenNames z; change State at z; apply Same.cutS h0 (x := z); unfold z; clear z; rotate_left; intro h; clear_value z; apply Same.letS h; clear h z; intro z h)
    | (extract_lets +onlyGivenNames z; change _ × _ × State at z; apply Same.cut22 h0 (x := z); unfold z; clear z; rotate_left; intro h; clear_value z; apply Same.let22 (x := z) h; clear h z; intro z h)
    | (extract_lets +onlyGivenNames z; change _ × State at z; apply Same.cut2 h0 (x := z); unfold z; clear z; rotate_left; intro h; clear_value z; apply Same.let2 (x := z) h; clear h z; intro z h)
    | (extract_lets +onlyGivenNames z; change _ → _ at z; apply Same.cutF z; subst z)
    | (extract_lets +onlyGivenNames z; clear_value z; apply Same.letAny z; clear z; intro z)
    | apply chsPut_frame
    | apply postPending_frame
    | apply complete_frame
    | apply Same.foldl
    | dsimp -zeta only)

theorem withdraw_frame {m : Nat} {s0 : State} : ∀ s x1, 131074 &&& m = 131074 → Same m s0 s → Same m s0 (withdraw s x1) := by
  intro s x1 hM h
  refine Same.run hM h fun h0 => ?_
  unfold withdraw
  repeat' (with_reducible first
    | assumption
    | intro _
    | exact Same.bits rfl
    | apply flushQueues_frame
    | apply Same.foldl)

theorem dieGoneNow_frame {m : Nat} {s0 : State} : ∀ s x1, 137620482 &&& m = 137620482 → Same m s0 s → Same m s0 (dieGoneNow s x1) := by
  intro s x1 hM h
  refine Same.run hM h fun h0 => ?_
  unfold dieGoneNow
  repeat' (with_reducible first
    | assumption
    | intro _
    | exact Same.bits rfl
    | (extract_lets +onlyGivenNames z; change State at z; apply Same.cutS h0 (x := z); unfold z; clear z; rotate_left; intro h; clear_value z; apply Same.letS h; clear h z; intro z h)
    | (extract_lets +onlyGivenNames z; change _ × _ × State at z; apply Same.cut22 h0 (x := z); unfold z; clear z; rotate_left; intro h; clear_value z; apply Same.let22 (x := z) h; clear h z; intro z h)
    | (extract_lets +onlyGivenNames z; change _ × State at z; apply Same.cut2 h0 (x := z); unfold z; clear z; rotate_left; intro h; clear_value z; apply Same.let2 (x := z) h; clear h z; intro z h)
    | (extract_lets +onlyGivenNames z; clear_value z; apply Same.letAny z; clear z; intro z)
    | apply Same.ite
    | apply fbiton_frame
    | apply fset_frame
    | apply journal_frame
    | apply groupLoss_frame
    | apply parkPut_frame
    | apply queuePut_frame
    | apply withdraw_frame
    | apply fon_frame
    | apply opLost_frame
    | apply abandonStripes_frame
    | apply spareRefresh_frame
    | apply rebuildMove_frame
    | (refine Same.updMed ?_ rfl; assumption)
    | (refine Same.updDsc ?_ rfl; assumption)
    | apply Same.foldl
    | split
    | dsimp -zeta only)

theorem channelLost_frame {m : Nat} {s0 : State} : ∀ s x1 x2, 137620482 &&& m = 137620482 → Same m s0 s → Same m s0 (channelLost s x1 x2) := by
  intro s x1 x2 hM h
  refine Same.run hM h fun h0 => ?_
  unfold channelLost
  repeat' (with_reducible first
    | assumption
    | intro _
    | exact Same.bits rfl
    | (extract_lets +onlyGivenNames z; change State at z; apply Same.cutS h0 (x := z); unfold z; clear z; rotate_left; intro h; clear_value z; apply Same.letS h; clear h z; intro z h)
    | (extract_lets +onlyGivenNames z; clear_value z; apply Same.letAny z; clear z; intro z)
    | apply Same.ite
    | apply fset_frame
    | apply post_frame
    | apply fon_frame
    | apply dieGoneNow_frame
    | (refine Same.updMed ?_ rfl; assumption)
    | apply Same.foldl)

theorem dieLost_frame {m : Nat} {s0 : State} : ∀ s x1 x2, 137620482 &&& m = 137620482 → Same m s0 s → Same m s0 (dieLost s x1 x2) := by
  intro s x1 x2 hM h
  refine Same.run hM h fun h0 => ?_
  unfold dieLost
  repeat' (with_reducible first
    | assumption
    | exact Same.bits rfl
    | (extract_lets +onlyGivenNames z; change State at z; apply Same.cutS h0 (x := z); unfold z; clear z; rotate_left; intro h; clear_value z; apply Same.letS h; clear h z; intro z h)
    | apply Same.ite
    | apply post_frame
    | apply fon_frame
    | apply dieGoneNow_frame
    | apply channelLost_frame)

theorem retire_frame {m : Nat} {s0 : State} : ∀ s x1 x2, 137620482 &&& m = 137620482 → Same m s0 s → Same m s0 (retire s x1 x2) := by
  intro s x1 x2 hM h
  refine Same.run hM h fun h0 => ?_
  unfold retire
  repeat' (with_reducible first
    | assumption
    | exact Same.bits rfl
    | (extract_lets +onlyGivenNames z; change State at z; apply Same.cutS h0 (x := z); unfold z; clear z; rotate_left; intro h; clear_value z; apply Same.letS h; clear h z; intro z h)
    | apply Same.ite
    | apply retireBlock_frame
    | apply dieLost_frame)

theorem programFailed_frame {m : Nat} {s0 : State} : ∀ s x1 x2, 137620482 &&& m = 137620482 → Same m s0 s → Same m s0 (programFailed s x1 x2) := by
  intro s x1 x2 hM h
  refine Same.run hM h fun h0 => ?_
  unfold programFailed
  repeat' (with_reducible first
    | assumption
    | exact Same.bits rfl
    | apply retire_frame
    | apply fon_frame
    | dsimp -zeta only)

theorem sqUpd_frame {m : Nat} {s0 : State} : ∀ s x1 x2, 2048 &&& m = 2048 → Same m s0 s → Same m s0 (sqUpd s x1 x2) := by
  intro s x1 x2 hM h
  refine Same.run hM h fun h0 => ?_
  unfold sqUpd
  repeat' (with_reducible first
    | (extract_lets +onlyGivenNames z; clear_value z; apply Same.letAny z; clear z; intro z)
    | (refine Same.updHst ?_ rfl; assumption))

theorem psPort_frame {m : Nat} {s0 : State} : ∀ s x1, 2050 &&& m = 2050 → Same m s0 s → Same m s0 (psPort s x1) := by
  intro s x1 hM h
  refine Same.run hM h fun h0 => ?_
  unfold psPort
  repeat' (with_reducible first
    | assumption
    | exact Same.bits rfl
    | (extract_lets +onlyGivenNames z; change State at z; apply Same.cutS h0 (x := z); unfold z; clear z; rotate_left; intro h; clear_value z; apply Same.letS h; clear h z; intro z h)
    | (extract_lets +onlyGivenNames z; clear_value z; apply Same.letAny z; clear z; intro z)
    | apply Same.ite
    | apply portUpd_frame
    | apply fset_frame)

theorem psRefreshDram_frame {m : Nat} {s0 : State} : ∀ s x1, 2050 &&& m = 2050 → Same m s0 s → Same m s0 (psRefreshDram s x1) := by
  intro s x1 hM h
  refine Same.run hM h fun h0 => ?_
  unfold psRefreshDram
  repeat' (with_reducible first
    | assumption
    | exact Same.bits rfl
    | (extract_lets +onlyGivenNames z; change State at z; apply Same.cutS h0 (x := z); unfold z; clear z; rotate_left; intro h; clear_value z; apply Same.letS h; clear h z; intro z h)
    | (extract_lets +onlyGivenNames z; change _ × _ × State at z; apply Same.cut22 h0 (x := z); unfold z; clear z; rotate_left; intro h; clear_value z; apply Same.let22 (x := z) h; clear h z; intro z h)
    | (extract_lets +onlyGivenNames z; change _ × State at z; apply Same.cut2 h0 (x := z); unfold z; clear z; rotate_left; intro h; clear_value z; apply Same.let2 (x := z) h; clear h z; intro z h)
    | (extract_lets +onlyGivenNames z; clear_value z; apply Same.letAny z; clear z; intro z)
    | apply fset_frame
    | (refine Same.updHst ?_ rfl; assumption)
    | dsimp -zeta only)

theorem psSet_frame {m : Nat} {s0 : State} : ∀ s x1, 2098178 &&& m = 2098178 → Same m s0 s → Same m s0 (psSet s x1) := by
  intro s x1 hM h
  refine Same.run hM h fun h0 => ?_
  unfold psSet
  repeat' (with_reducible first
    | assumption
    | exact Same.bits rfl
    | apply Same.ite
    | apply post_frame
    | apply fset_frame)

theorem psRefresh_frame {m : Nat} {s0 : State} : ∀ s, 2100226 &&& m = 2100226 → Same m s0 s → Same m s0 (psRefresh s) := by
  intro s hM h
  refine Same.run hM h fun h0 => ?_
  unfold psRefresh
  repeat' (with_reducible first
    | assumption
    | intro _
    | exact Same.bits rfl
    | (extract_lets +onlyGivenNames z; change State at z; apply Same.cutS h0 (x := z); unfold z; clear z; rotate_left; intro h; clear_value z; apply Same.letS h; clear h z; intro z h)
    | (extract_lets +onlyGivenNames z; clear_value z; apply Same.letAny z; clear z; intro z)
    | apply Same.ite
    | apply psPort_frame
    | apply psRefreshDram_frame
    | apply foff_frame
    | apply psSet_frame
    | apply fon_frame
    | (refine Same.updHst ?_ rfl; assumption)
    | apply Same.foldl)

theorem ctxShow_frame {m : Nat} {s0 : State} : ∀ s, 2 &&& m = 2 → Same m s0 s → Same m s0 (ctxShow s) := by
  intro s hM h
  refine Same.run hM h fun h0 => ?_
  unfold ctxShow
  repeat' (with_reducible first
    | assumption
    | intro _
    | exact Same.bits rfl
    | (extract_lets +onlyGivenNames z; change State at z; apply Same.cutS h0 (x := z); unfold z; clear z; rotate_left; intro h; clear_value z; apply Same.letS h; clear h z; intro z h)
    | apply fset_frame
    | apply Same.foldl)

theorem busyNote_frame {m : Nat} {s0 : State} : ∀ s x1, 4096 &&& m = 4096 → Same m s0 s → Same m s0 (busyNote s x1) := by
  intro s x1 hM h
  refine Same.run hM h fun h0 => ?_
  unfold busyNote
  repeat' (with_reducible first
    | assumption
    | intro _
    | exact Same.bits rfl
    | (extract_lets +onlyGivenNames z; change State at z; apply Same.cutS h0 (x := z); unfold z; clear z; rotate_left; intro h; clear_value z; apply Same.letS h; clear h z; intro z h)
    | (extract_lets +onlyGivenNames z; change _ × _ × State at z; apply Same.cut22 h0 (x := z); unfold z; clear z; rotate_left; intro h; clear_value z; apply Same.let22 (x := z) h; clear h z; intro z h)
    | (extract_lets +onlyGivenNames z; change _ × State at z; apply Same.cut2 h0 (x := z); unfold z; clear z; rotate_left; intro h; clear_value z; apply Same.let2 (x := z) h; clear h z; intro z h)
    | (extract_lets +onlyGivenNames z; clear_value z; apply Same.letAny z; clear z; intro z)
    | apply Same.ite
    | (refine Same.updSlm ?_ rfl; assumption)
    | split
    | dsimp -zeta only)

theorem fetchInto_frame {m : Nat} {s0 : State} : ∀ s x1 x2 x3 x4 x5 x6 x7 x8, 2104322 &&& m = 2104322 → Same m s0 s → Same m s0 (fetchInto s x1 x2 x3 x4 x5 x6 x7 x8) := by
  intro s x1 x2 x3 x4 x5 x6 x7 x8 hM h
  refine Same.run hM h fun h0 => ?_
  unfold fetchInto
  repeat' (with_reducible first
    | assumption
    | intro _
    | exact Same.bits rfl
    | (extract_lets +onlyGivenNames z; change State at z; apply Same.cutS h0 (x := z); unfold z; clear z; rotate_left; intro h; clear_value z; apply Same.letS h; clear h z; intro z h)
    | (extract_lets +onlyGivenNames z; change _ × _ × State at z; apply Same.cut22 h0 (x := z); unfold z; clear z; rotate_left; intro h; clear_value z; apply Same.let22 (x := z) h; clear h z; intro z h)
    | (extract_lets +onlyGivenNames z; change _ × State at z; apply Same.cut2 h0 (x := z); unfold z; clear z; rotate_left; intro h; clear_value z; apply Same.let2 (x := z) h; clear h z; intro z h)
    | (extract_lets +onlyGivenNames z; clear_value z; apply Same.letAny z; clear z; intro z)
    | apply Same.ite
    | apply sqUpd_frame
    | apply psRefresh_frame
    | apply ctxShow_frame
    | apply busyNote_frame
    | (refine Same.updHst ?_ rfl; assumption)
    | split
    | dsimp -zeta only)

theorem psWake_frame {m : Nat} {s0 : State} : ∀ s x1, 2100226 &&& m = 2100226 → Same m s0 s → Same m s0 (psWake s x1) := by
  intro s x1 hM h
  refine Same.run hM h fun h0 => ?_
  unfold psWake
  repeat' (with_reducible first
    | assumption
    | exact Same.bits rfl
    | apply Same.ite
    | apply psRefresh_frame
    | apply portUpd_frame)

theorem sqeFetch_frame {m : Nat} {s0 : State} : ∀ s x1 x2 x3 x4 x5 x6, 2104322 &&& m = 2104322 → Same m s0 s → Same m s0 (sqeFetch s x1 x2 x3 x4 x5 x6) := by
  intro s x1 x2 x3 x4 x5 x6 hM h
  refine Same.run hM h fun h0 => ?_
  unfold sqeFetch
  repeat' (with_reducible first
    | assumption
    | exact Same.bits rfl
    | (extract_lets +onlyGivenNames z; change State at z; apply Same.cutS h0 (x := z); unfold z; clear z; rotate_left; intro h; clear_value z; apply Same.letS h; clear h z; intro z h)
    | (extract_lets +onlyGivenNames z; change _ × _ × State at z; apply Same.cut22 h0 (x := z); unfold z; clear z; rotate_left; intro h; clear_value z; apply Same.let22 (x := z) h; clear h z; intro z h)
    | (extract_lets +onlyGivenNames z; change _ × State at z; apply Same.cut2 h0 (x := z); unfold z; clear z; rotate_left; intro h; clear_value z; apply Same.let2 (x := z) h; clear h z; intro z h)
    | (extract_lets +onlyGivenNames z; clear_value z; apply Same.letAny z; clear z; intro z)
    | apply Same.ite
    | apply fetchInto_frame
    | apply psRefresh_frame
    | apply psWake_frame
    | (refine Same.updHst ?_ rfl; assumption)
    | split
    | dsimp -zeta only)

theorem execSqeFetch_frame {m : Nat} {s0 : State} : ∀ x0 x1 x2 x3 x4 x5 s, 2104322 &&& m = 2104322 → Same m s0 s → SameT m s0 (execSqeFetch x0 x1 x2 x3 x4 x5 s) := by
  intro x0 x1 x2 x3 x4 x5 s hM h
  refine SameT.run hM h fun h0 => ?_
  unfold execSqeFetch
  repeat' (with_reducible first
    | assumption
    | exact Same.bits rfl
    | apply SameT.next
    | apply sqeFetch_frame
    | dsimp -zeta only)

theorem adminEnd_frame {m : Nat} {s0 : State} : ∀ s x1 x2, 2048 &&& m = 2048 → Same m s0 s → Same m s0 (adminEnd s x1 x2) := by
  intro s x1 x2 hM h
  refine Same.run hM h fun h0 => ?_
  unfold adminEnd
  repeat' (with_reducible first
    | assumption
    | exact Same.bits rfl
    | apply Same.ite
    | apply ctxUpd_frame
    | apply ctxEnd_frame
    | apply errLog_frame
    | split)

theorem adminRun_frame {M : Nat} {s0 s : State} (hM : 2048 &&& M = 2048) (c : AdminCmd) (op : Nat → Bool) (f : State → Option Done × State)
    (hf : ∀ t, Same M s0 t → Same M s0 (f t).2) (h : Same M s0 s) : Same M s0 (adminRun s c op f) := by
  unfold adminRun
  dsimp only
  split
  · split
    · rename_i k _ _
      have h1 := hf _ (ctxUpd_frame s (adminKey c) (fun k => { k with st := .running }) (Same.sub (by decide) hM) h)
      split
      · rename_i d s' e
        rw [e] at h1
        exact adminEnd_frame _ _ _ (Same.sub (by decide) hM) h1
      · rename_i s' e
        rw [e] at h1
        exact h1
    · exact h
  · exact h

theorem openTaken_frame {m : Nat} {s0 : State} : ∀ s, 536870912 &&& m = 536870912 → Same m s0 s → Same m s0 (openTaken s) := by
  intro s hM h
  refine Same.run hM h fun h0 => ?_
  unfold openTaken
  repeat' (with_reducible first
    | (refine Same.updFree ?_ rfl; assumption))

theorem queuesDw_frame {m : Nat} {s0 : State} : ∀ s x1, 536870912 &&& m = 536870912 → Same m s0 s → Same2 m s0 (queuesDw s x1) := by
  intro s x1 hM h
  refine Same2.run hM h fun h0 => ?_
  unfold queuesDw
  repeat' (with_reducible first
    | assumption
    | exact Same.bits rfl
    | (extract_lets +onlyGivenNames z; clear_value z; apply Same.letAny z; clear z; intro z)
    | apply Same2.ite
    | apply openTaken_frame
    | apply Same2.mk')

theorem getFeatures_frame {m : Nat} {s0 : State} : ∀ x0 s, 536870912 &&& m = 536870912 → Same m s0 s → Same2 m s0 (getFeatures x0 s) := by
  intro x0 s hM h
  refine Same2.run hM h fun h0 => ?_
  unfold getFeatures
  repeat' (with_reducible first
    | assumption
    | exact Same.bits rfl
    | (extract_lets +onlyGivenNames z; change _ → _ at z; apply Same.cutF z; subst z)
    | (extract_lets +onlyGivenNames z; change _ × State at z; apply Same.cut2 h0 (x := z); unfold z; clear z; rotate_left; intro h; clear_value z; apply Same.let2 (x := z) h; clear h z; intro z h)
    | (extract_lets +onlyGivenNames z; clear_value z; apply Same.letAny z; clear z; intro z)
    | apply Same2.ite
    | apply queuesDw_frame
    | split
    | apply Same2.mk')

theorem execGetFeatures_frame {m : Nat} {s0 : State} : ∀ x0 s, 536872960 &&& m = 536872960 → Same m s0 s → SameT m s0 (execGetFeatures x0 s) := by
  intro x0 s hM h
  refine SameT.run hM h fun h0 => ?_
  unfold execGetFeatures
  repeat' (with_reducible first
    | assumption
    | intro _
    | exact Same.bits rfl
    | apply SameT.next
    | (extract_lets +onlyGivenNames z; change _ × State at z; apply Same.cut2 h0 (x := z); unfold z; clear z; rotate_left; intro h; clear_value z; apply Same.let2 (x := z) h; clear h z; intro z h)
    | apply adminRun_frame
    | apply getFeatures_frame)

theorem dieInService_frame {m : Nat} {s0 : State} : ∀ s x1, 124930 &&& m = 124930 → Same m s0 s → Same m s0 (dieInService s x1) := by
  intro s x1 hM h
  refine Same.run hM h fun h0 => ?_
  unfold dieInService
  repeat' (with_reducible first
    | assumption
    | intro _
    | exact Same.bits rfl
    | (extract_lets +onlyGivenNames z; change State at z; apply Same.cutS h0 (x := z); unfold z; clear z; rotate_left; intro h; clear_value z; apply Same.letS h; clear h z; intro z h)
    | (extract_lets +onlyGivenNames z; change _ × _ × State at z; apply Same.cut22 h0 (x := z); unfold z; clear z; rotate_left; intro h; clear_value z; apply Same.let22 (x := z) h; clear h z; intro z h)
    | (extract_lets +onlyGivenNames z; change _ × State at z; apply Same.cut2 h0 (x := z); unfold z; clear z; rotate_left; intro h; clear_value z; apply Same.let2 (x := z) h; clear h z; intro z h)
    | (extract_lets +onlyGivenNames z; clear_value z; apply Same.letAny z; clear z; intro z)
    | apply Same.ite
    | apply fset_frame
    | apply fbitoff_frame
    | apply journal_frame
    | apply setShut_frame
    | apply grpSet_frame
    | apply holdTry_frame
    | apply spareRefresh_frame
    | (refine Same.updMed ?_ rfl; assumption)
    | apply Same.foldl
    | split
    | dsimp -zeta only)

theorem restoreErases_frame {m : Nat} {s0 : State} : ∀ s x1 x2, 32770 &&& m = 32770 → Same m s0 s → Same m s0 (restoreErases s x1 x2) := by
  intro s x1 x2 hM h
  refine Same.run hM h fun h0 => ?_
  unfold restoreErases
  repeat' (with_reducible first
    | assumption
    | intro _
    | exact Same.bits rfl
    | apply enqueue_frame
    | apply Same.foldl
    | dsimp -zeta only)

theorem dieRestored_frame {m : Nat} {s0 : State} : ∀ s x1, 124930 &&& m = 124930 → Same m s0 s → Same m s0 (dieRestored s x1) := by
  intro s x1 hM h
  refine Same.run hM h fun h0 => ?_
  unfold dieRestored
  repeat' (with_reducible first
    | assumption
    | intro _
    | exact Same.bits rfl
    | (extract_lets +onlyGivenNames z; change State at z; apply Same.cutS h0 (x := z); unfold z; clear z; rotate_left; intro h; clear_value z; apply Same.letS h; clear h z; intro z h)
    | (extract_lets +onlyGivenNames z; change _ × _ × State at z; apply Same.cut22 h0 (x := z); unfold z; clear z; rotate_left; intro h; clear_value z; apply Same.let22 (x := z) h; clear h z; intro z h)
    | (extract_lets +onlyGivenNames z; change _ × State at z; apply Same.cut2 h0 (x := z); unfold z; clear z; rotate_left; intro h; clear_value z; apply Same.let2 (x := z) h; clear h z; intro z h)
    | (extract_lets +onlyGivenNames z; clear_value z; apply Same.letAny z; clear z; intro z)
    | apply Same.ite
    | apply dieInService_frame
    | apply restoreErases_frame
    | (refine Same.updMed ?_ rfl; assumption)
    | split
    | dsimp -zeta only)

theorem restoreDie_frame {m : Nat} {s0 : State} : ∀ s x1, 124930 &&& m = 124930 → Same m s0 s → Same m s0 (restoreDie s x1) := by
  intro s x1 hM h
  refine Same.run hM h fun h0 => ?_
  unfold restoreDie
  repeat' (with_reducible first
    | assumption
    | exact Same.bits rfl
    | (extract_lets +onlyGivenNames z; change State at z; apply Same.cutS h0 (x := z); unfold z; clear z; rotate_left; intro h; clear_value z; apply Same.letS h; clear h z; intro z h)
    | (extract_lets +onlyGivenNames z; clear_value z; apply Same.letAny z; clear z; intro z)
    | apply Same.ite
    | apply dieRestored_frame
    | (refine Same.updMed ?_ rfl; assumption))

theorem railNote_frame {m : Nat} {s0 : State} : ∀ s x1 x2 x3 x4, 134217728 &&& m = 134217728 → Same m s0 s → Same m s0 (railNote s x1 x2 x3 x4) := by
  intro s x1 x2 x3 x4 hM h
  refine Same.run hM h fun h0 => ?_
  unfold railNote
  repeat' (with_reducible first
    | assumption
    | (extract_lets +onlyGivenNames z; clear_value z; apply Same.letAny z; clear z; intro z)
    | apply Same.ite
    | (refine Same.updAge ?_ rfl; assumption))

theorem slmShow_frame {m : Nat} {s0 : State} : ∀ s, 2 &&& m = 2 → Same m s0 s → Same m s0 (slmShow s) := by
  intro s hM h
  refine Same.run hM h fun h0 => ?_
  unfold slmShow
  repeat' (with_reducible first
    | assumption
    | exact Same.bits rfl
    | (extract_lets +onlyGivenNames z; change State at z; apply Same.cutS h0 (x := z); unfold z; clear z; rotate_left; intro h; clear_value z; apply Same.letS h; clear h z; intro z h)
    | apply fset_frame)

theorem sharesLatch_frame {m : Nat} {s0 : State} : ∀ s, 4098 &&& m = 4098 → Same m s0 s → Same m s0 (sharesLatch s) := by
  intro s hM h
  refine Same.run hM h fun h0 => ?_
  unfold sharesLatch
  repeat' (with_reducible first
    | exact Same.bits rfl
    | (extract_lets +onlyGivenNames z; clear_value z; apply Same.letAny z; clear z; intro z)
    | apply slmShow_frame
    | (refine Same.updSlm ?_ rfl; assumption))

theorem suppressedTell_frame {m : Nat} {s0 : State} : ∀ s, 1026 &&& m = 1026 → Same m s0 s → Same m s0 (suppressedTell s) := by
  intro s hM h
  refine Same.run hM h fun h0 => ?_
  unfold suppressedTell
  repeat' (with_reducible first
    | assumption
    | intro _
    | exact Same.bits rfl
    | (extract_lets +onlyGivenNames z; change State at z; apply Same.cutS h0 (x := z); unfold z; clear z; rotate_left; intro h; clear_value z; apply Same.letS h; clear h z; intro z h)
    | (extract_lets +onlyGivenNames z; clear_value z; apply Same.letAny z; clear z; intro z)
    | apply lktAccept_frame
    | (refine Same.updLkt ?_ rfl; assumption)
    | apply Same.foldl)

theorem senseRails_frame {m : Nat} {s0 : State} : ∀ s x1 x2, 1048578 &&& m = 1048578 → Same m s0 s → Same m s0 (senseRails s x1 x2) := by
  intro s x1 x2 hM h
  refine Same.run hM h fun h0 => ?_
  unfold senseRails
  repeat' (with_reducible first
    | assumption
    | exact Same.bits rfl
    | (extract_lets +onlyGivenNames z; change State at z; apply Same.cutS h0 (x := z); unfold z; clear z; rotate_left; intro h; clear_value z; apply Same.letS h; clear h z; intro z h)
    | (extract_lets +onlyGivenNames z; clear_value z; apply Same.letAny z; clear z; intro z)
    | apply Same.ite
    | apply fset_frame
    | apply fon_frame
    | (refine Same.updUmp ?_ rfl; assumption))

theorem setWaits_frame {m : Nat} {s0 : State} : ∀ s, 2 &&& m = 2 → Same m s0 s → Same m s0 (setWaits s) := by
  intro s hM h
  refine Same.run hM h fun h0 => ?_
  unfold setWaits
  repeat' (with_reducible first
    | assumption
    | intro _
    | exact Same.bits rfl
    | (extract_lets +onlyGivenNames z; clear_value z; apply Same.letAny z; clear z; intro z)
    | apply fset_frame
    | apply Same.foldl)

theorem setCurrents_frame {m : Nat} {s0 : State} : ∀ s, 2 &&& m = 2 → Same m s0 s → Same m s0 (setCurrents s) := by
  intro s hM h
  refine Same.run hM h fun h0 => ?_
  unfold setCurrents
  repeat' (with_reducible first
    | assumption
    | exact Same.bits rfl
    | (extract_lets +onlyGivenNames z; clear_value z; apply Same.letAny z; clear z; intro z)
    | apply Same.ite
    | apply fset_frame)

theorem ppStart_frame {m : Nat} {s0 : State} : ∀ s x1, 1048578 &&& m = 1048578 → Same m s0 s → Same m s0 (ppStart s x1) := by
  intro s x1 hM h
  refine Same.run hM h fun h0 => ?_
  unfold ppStart
  repeat' (with_reducible first
    | assumption
    | exact Same.bits rfl
    | (extract_lets +onlyGivenNames z; change State at z; apply Same.cutS h0 (x := z); unfold z; clear z; rotate_left; intro h; clear_value z; apply Same.letS h; clear h z; intro z h)
    | (extract_lets +onlyGivenNames z; clear_value z; apply Same.letAny z; clear z; intro z)
    | apply setCurrents_frame
    | apply fon_frame
    | apply fset_frame
    | (refine Same.updUmp ?_ rfl; assumption))

theorem setFloors_frame {m : Nat} {s0 : State} : ∀ s, 1048576 &&& m = 1048576 → Same m s0 s → Same m s0 (setFloors s) := by
  intro s hM h
  refine Same.run hM h fun h0 => ?_
  unfold setFloors
  repeat' (with_reducible first
    | (extract_lets +onlyGivenNames z; clear_value z; apply Same.letAny z; clear z; intro z)
    | apply Same.ite
    | (refine Same.updUmp ?_ rfl; assumption))

theorem setTokens_frame {m : Nat} {s0 : State} : ∀ s, 1048578 &&& m = 1048578 → Same m s0 s → Same m s0 (setTokens s) := by
  intro s hM h
  refine Same.run hM h fun h0 => ?_
  unfold setTokens
  repeat' (with_reducible first
    | exact Same.bits rfl
    | (extract_lets +onlyGivenNames z; clear_value z; apply Same.letAny z; clear z; intro z)
    | apply Same.ite
    | apply finc_frame
    | apply fon_frame
    | (refine Same.updUmp ?_ rfl; assumption))

theorem speedRefuse_frame {m : Nat} {s0 : State} : ∀ s x1, 2 &&& m = 2 → Same m s0 s → Same m s0 (speedRefuse s x1) := by
  intro s x1 hM h
  refine Same.run hM h fun h0 => ?_
  unfold speedRefuse
  repeat' (with_reducible first
    | assumption
    | exact Same.bits rfl
    | apply fon_frame
    | apply foff_frame
    | apply fset_frame)

theorem resetWindow_frame {m : Nat} {s0 : State} : ∀ s x1 x2, 2 &&& m = 2 → Same m s0 s → Same m s0 (resetWindow s x1 x2) :=
  fun s _ _ hm h => Same.step hm (Same.regsTo (Same.refl _ s) rfl fun h => RegFile.keep_wf h _) h

theorem gatherDiscard_frame {m : Nat} {s0 : State} : ∀ s, 524290 &&& m = 524290 → Same m s0 s → Same m s0 (gatherDiscard s) := by
  intro s hM h
  refine Same.run hM h fun h0 => ?_
  unfold gatherDiscard
  repeat' (with_reducible first
    | assumption
    | exact Same.bits rfl
    | (extract_lets +onlyGivenNames z; change State at z; apply Same.cutS h0 (x := z); unfold z; clear z; rotate_left; intro h; clear_value z; apply Same.letS h; clear h z; intro z h)
    | (extract_lets +onlyGivenNames z; clear_value z; apply Same.letAny z; clear z; intro z)
    | apply Same.ite
    | apply resetWindow_frame
    | apply fon_frame
    | apply fset_frame
    | apply foff_frame
    | apply finc_frame
    | (refine Same.updDmc ?_ rfl; assumption))

theorem speedReq_frame {m : Nat} {s0 : State} : ∀ s x1 x2, 524290 &&& m = 524290 → Same m s0 s → Same m s0 (speedReq s x1 x2) := by
  intro s x1 x2 hM h
  refine Same.run hM h fun h0 => ?_
  unfold speedReq
  repeat' (with_reducible first
    | assumption
    | exact Same.bits rfl
    | (extract_lets +onlyGivenNames z; change State at z; apply Same.cutS h0 (x := z); unfold z; clear z; rotate_left; intro h; clear_value z; apply Same.letS h; clear h z; intro z h)
    | (extract_lets +onlyGivenNames z; clear_value z; apply Same.letAny z; clear z; intro z)
    | apply Same.ite
    | apply speedRefuse_frame
    | apply finc_frame
    | apply gatherDiscard_frame
    | apply foff_frame
    | apply fset_frame
    | apply fon_frame
    | (refine Same.updDmc ?_ rfl; assumption))

theorem dramFollow_frame {m : Nat} {s0 : State} : ∀ s, 524290 &&& m = 524290 → Same m s0 s → Same m s0 (dramFollow s) := by
  intro s hM h
  refine Same.run hM h fun h0 => ?_
  unfold dramFollow
  repeat' (with_reducible first
    | assumption
    | exact Same.bits rfl
    | (extract_lets +onlyGivenNames z; change State at z; apply Same.cutS h0 (x := z); unfold z; clear z; rotate_left; intro h; clear_value z; apply Same.letS h; clear h z; intro z h)
    | (extract_lets +onlyGivenNames z; change _ × _ × State at z; apply Same.cut22 h0 (x := z); unfold z; clear z; rotate_left; intro h; clear_value z; apply Same.let22 (x := z) h; clear h z; intro z h)
    | (extract_lets +onlyGivenNames z; change _ × State at z; apply Same.cut2 h0 (x := z); unfold z; clear z; rotate_left; intro h; clear_value z; apply Same.let2 (x := z) h; clear h z; intro z h)
    | (extract_lets +onlyGivenNames z; clear_value z; apply Same.letAny z; clear z; intro z)
    | apply Same.ite
    | apply speedReq_frame
    | split
    | dsimp -zeta only)

theorem dramRepeat_frame {m : Nat} {s0 : State} : ∀ s, 524290 &&& m = 524290 → Same m s0 s → Same m s0 (dramRepeat s) := by
  intro s hM h
  refine Same.run hM h fun h0 => ?_
  unfold dramRepeat
  repeat' (with_reducible first
    | assumption
    | exact Same.bits rfl
    | apply Same.ite
    | apply dramFollow_frame
    | split
    | dsimp -zeta only)

theorem umpEpoch_frame {m : Nat} {s0 : State} : ∀ s, 1572866 &&& m = 1572866 → Same m s0 s → Same m s0 (umpEpoch s) := by
  intro s hM h
  refine Same.run hM h fun h0 => ?_
  unfold umpEpoch
  repeat' (with_reducible first
    | assumption
    | exact Same.bits rfl
    | (extract_lets +onlyGivenNames z; change State at z; apply Same.cutS h0 (x := z); unfold z; clear z; rotate_left; intro h; clear_value z; apply Same.letS h; clear h z; intro z h)
    | (extract_lets +onlyGivenNames z; change _ × _ × State at z; apply Same.cut22 h0 (x := z); unfold z; clear z; rotate_left; intro h; clear_value z; apply Same.let22 (x := z) h; clear h z; intro z h)
    | (extract_lets +onlyGivenNames z; change _ × State at z; apply Same.cut2 h0 (x := z); unfold z; clear z; rotate_left; intro h; clear_value z; apply Same.let2 (x := z) h; clear h z; intro z h)
    | (extract_lets +onlyGivenNames z; clear_value z; apply Same.letAny z; clear z; intro z)
    | apply Same.ite
    | apply setWaits_frame
    | apply dramRepeat_frame
    | apply fset_frame
    | apply ppStart_frame
    | apply noteCurrents_frame
    | apply setFloors_frame
    | apply setTokens_frame
    | apply setCurrents_frame
    | (refine Same.updUmp ?_ rfl; assumption)
    | split
    | dsimp -zeta only)

theorem stagingLimit_frame {m : Nat} {s0 : State} : ∀ s, 2 &&& m = 2 → Same m s0 s → Same m s0 (stagingLimit s) := by
  intro s hM h
  refine Same.run hM h fun h0 => ?_
  unfold stagingLimit
  repeat' (with_reducible first
    | assumption
    | exact Same.bits rfl
    | (extract_lets +onlyGivenNames z; change State at z; apply Same.cutS h0 (x := z); unfold z; clear z; rotate_left; intro h; clear_value z; apply Same.letS h; clear h z; intro z h)
    | (extract_lets +onlyGivenNames z; change _ × _ × State at z; apply Same.cut22 h0 (x := z); unfold z; clear z; rotate_left; intro h; clear_value z; apply Same.let22 (x := z) h; clear h z; intro z h)
    | (extract_lets +onlyGivenNames z; change _ × State at z; apply Same.cut2 h0 (x := z); unfold z; clear z; rotate_left; intro h; clear_value z; apply Same.let2 (x := z) h; clear h z; intro z h)
    | (extract_lets +onlyGivenNames z; clear_value z; apply Same.letAny z; clear z; intro z)
    | apply stgEvents_frame
    | apply fset_frame
    | dsimp -zeta only)

theorem reservesSet_frame {m : Nat} {s0 : State} : ∀ s, 12288 &&& m = 12288 → Same m s0 s → Same m s0 (reservesSet s) := by
  intro s hM h
  refine Same.run hM h fun h0 => ?_
  unfold reservesSet
  repeat' (with_reducible first
    | assumption
    | intro _
    | exact Same.bits rfl
    | (extract_lets +onlyGivenNames z; change State at z; apply Same.cutS h0 (x := z); unfold z; clear z; rotate_left; intro h; clear_value z; apply Same.letS h; clear h z; intro z h)
    | (extract_lets +onlyGivenNames z; change _ × _ × State at z; apply Same.cut22 h0 (x := z); unfold z; clear z; rotate_left; intro h; clear_value z; apply Same.let22 (x := z) h; clear h z; intro z h)
    | (extract_lets +onlyGivenNames z; change _ × State at z; apply Same.cut2 h0 (x := z); unfold z; clear z; rotate_left; intro h; clear_value z; apply Same.let2 (x := z) h; clear h z; intro z h)
    | (extract_lets +onlyGivenNames z; clear_value z; apply Same.letAny z; clear z; intro z)
    | (refine Same.updSlmZne ?_ rfl; assumption)
    | dsimp -zeta only)

theorem reboundRefill_frame {m : Nat} {s0 : State} : ∀ s, 32770 &&& m = 32770 → Same m s0 s → Same m s0 (reboundRefill s) := by
  intro s hM h
  refine Same.run hM h fun h0 => ?_
  unfold reboundRefill
  repeat' (with_reducible first
    | exact Same.bits rfl
    | (extract_lets +onlyGivenNames z; clear_value z; apply Same.letAny z; clear z; intro z)
    | apply fset_frame
    | (refine Same.updDsc ?_ rfl; assumption))

theorem epochStart_frame {m : Nat} {s0 : State} : ∀ x0 x1 s, 135836706 &&& m = 135836706 → Same m s0 s → Same m s0 (epochStart x0 x1 s) := by
  intro x0 x1 s hM h
  refine Same.run hM h fun h0 => ?_
  unfold epochStart
  repeat' (with_reducible first
    | assumption
    | exact Same.bits rfl
    | (extract_lets +onlyGivenNames z; change State at z; apply Same.cutS h0 (x := z); unfold z; clear z; rotate_left; intro h; clear_value z; apply Same.letS h; clear h z; intro z h)
    | apply reach_frame
    | apply railNote_frame
    | apply sharesLatch_frame
    | apply suppressedTell_frame
    | apply senseRails_frame
    | apply umpEpoch_frame
    | apply stagingLimit_frame
    | apply reservesSet_frame
    | apply reboundRefill_frame)

theorem execEpochStart_frame {m : Nat} {s0 : State} : ∀ x0 x1 s, 135836706 &&& m = 135836706 → Same m s0 s → SameT m s0 (execEpochStart x0 x1 s) := by
  intro x0 x1 s hM h
  refine SameT.run hM h fun h0 => ?_
  unfold execEpochStart
  repeat' (with_reducible first
    | assumption
    | exact Same.bits rfl
    | apply SameT.next
    | apply epochStart_frame)

theorem pkeShow_frame {m : Nat} {s0 : State} : ∀ s, 2 &&& m = 2 → Same m s0 s → Same m s0 (pkeShow s) := by
  intro s hM h
  refine Same.run hM h fun h0 => ?_
  unfold pkeShow
  repeat' (with_reducible first
    | assumption
    | exact Same.bits rfl
    | apply fset_frame
    | split)

theorem noteVio_frame {m : Nat} {s0 : State} : ∀ s x1 x2 x3 x4, 2098242 &&& m = 2098242 → Same m s0 s → Same1 m s0 (noteVio s x1 x2 x3 x4) := by
  intro s x1 x2 x3 x4 hM h
  refine Same1.run hM h fun h0 => ?_
  unfold noteVio
  repeat' (with_reducible first
    | assumption
    | exact Same.bits rfl
    | (extract_lets +onlyGivenNames z; change _ → _ at z; apply Same.cutF z; subst z)
    | (extract_lets +onlyGivenNames z; change State at z; apply Same.cutS h0 (x := z); unfold z; clear z; rotate_left; intro h; clear_value z; apply Same.letS h; clear h z; intro z h)
    | (extract_lets +onlyGivenNames z; clear_value z; apply Same.letAny z; clear z; intro z)
    | apply Same1.ite
    | apply finc_frame
    | apply fbiton_frame
    | apply fset_frame
    | apply pset_frame
    | apply post_frame
    | (refine Same.updAcm ?_ rfl; assumption)
    | split
    | apply Same1.mk')

theorem chanPut_frame {m : Nat} {s0 : State} : ∀ s x1 x2, 514 &&& m = 514 → Same m s0 s → Same m s0 (chanPut s x1 x2) := by
  intro s x1 x2 hM h
  refine Same.run hM h fun h0 => ?_
  unfold chanPut
  repeat' (with_reducible first
    | assumption
    | exact Same.bits rfl
    | (extract_lets +onlyGivenNames z; change State at z; apply Same.cutS h0 (x := z); unfold z; clear z; rotate_left; intro h; clear_value z; apply Same.letS h; clear h z; intro z h)
    | (extract_lets +onlyGivenNames z; clear_value z; apply Same.letAny z; clear z; intro z)
    | apply Same.ite
    | apply fset_frame
    | (refine Same.updMbx ?_ rfl; assumption))

theorem volleyDrop_frame {m : Nat} {s0 : State} : ∀ s x1, 514 &&& m = 514 → Same m s0 s → Same m s0 (volleyDrop s x1) := by
  intro s x1 hM h
  refine Same.run hM h fun h0 => ?_
  unfold volleyDrop
  repeat' (with_reducible first
    | assumption
    | exact Same.bits rfl
    | (extract_lets +onlyGivenNames z; clear_value z; apply Same.letAny z; clear z; intro z)
    | apply chanPut_frame
    | apply finc_frame
    | split)

theorem sliceVolleys_frame {m : Nat} {s0 : State} : ∀ s x1, 514 &&& m = 514 → Same m s0 s → Same m s0 (sliceVolleys s x1) := by
  intro s x1 hM h
  refine Same.run hM h fun h0 => ?_
  unfold sliceVolleys
  repeat' (with_reducible first
    | assumption
    | intro _
    | exact Same.bits rfl
    | apply volleyDrop_frame
    | apply Same.foldl)

theorem leaveTail_frame {m : Nat} {s0 : State} : ∀ s x1, 124930 &&& m = 124930 → Same m s0 s → Same m s0 (leaveTail s x1) := by
  intro s x1 hM h
  refine Same.run hM h fun h0 => ?_
  unfold leaveTail
  repeat' (with_reducible first
    | assumption
    | intro _
    | exact Same.bits rfl
    | apply Same.ite
    | apply finc_frame
    | apply leaveDirectP_frame
    | split
    | dsimp -zeta only)

theorem sliceTails_frame {m : Nat} {s0 : State} : ∀ s x1, 124930 &&& m = 124930 → Same m s0 s → Same m s0 (sliceTails s x1) := by
  intro s x1 hM h
  refine Same.run hM h fun h0 => ?_
  unfold sliceTails
  repeat' (with_reducible first
    | assumption
    | intro _
    | exact Same.bits rfl
    | apply Same.ite
    | apply leaveTail_frame
    | apply Same.foldl
    | split)

theorem quarantine_frame {m : Nat} {s0 : State} : ∀ s x1, 262146 &&& m = 262146 → Same m s0 s → Same m s0 (quarantine s x1) := by
  intro s x1 hM h
  refine Same.run hM h fun h0 => ?_
  unfold quarantine
  repeat' (with_reducible first
    | assumption
    | intro _
    | exact Same.bits rfl
    | (extract_lets +onlyGivenNames z; change State at z; apply Same.cutS h0 (x := z); unfold z; clear z; rotate_left; intro h; clear_value z; apply Same.letS h; clear h z; intro z h)
    | (extract_lets +onlyGivenNames z; change _ × _ × State at z; apply Same.cut22 h0 (x := z); unfold z; clear z; rotate_left; intro h; clear_value z; apply Same.let22 (x := z) h; clear h z; intro z h)
    | (extract_lets +onlyGivenNames z; change _ × State at z; apply Same.cut2 h0 (x := z); unfold z; clear z; rotate_left; intro h; clear_value z; apply Same.let2 (x := z) h; clear h z; intro z h)
    | (extract_lets +onlyGivenNames z; change _ → _ at z; apply Same.cutF z; subst z)
    | (extract_lets +onlyGivenNames z; clear_value z; apply Same.letAny z; clear z; intro z)
    | apply Same.ite
    | apply fadd_frame
    | (refine Same.updBpm ?_ rfl; assumption)
    | split
    | dsimp -zeta only)

theorem sliceSquash_frame {m : Nat} {s0 : State} : ∀ s x1, 387586 &&& m = 387586 → Same m s0 s → Same m s0 (sliceSquash s x1) := by
  intro s x1 hM h
  refine Same.run hM h fun h0 => ?_
  unfold sliceSquash
  repeat' (with_reducible first
    | assumption
    | exact Same.bits rfl
    | apply sliceVolleys_frame
    | apply sliceTails_frame
    | apply quarantine_frame)

theorem readersKeep_frame {m : Nat} {s0 : State} : ∀ s x1, 2048 &&& m = 2048 → Same m s0 s → Same m s0 (readersKeep s x1) := by
  intro s x1 hM h
  refine Same.run hM h fun h0 => ?_
  unfold readersKeep
  repeat' (with_reducible first
    | assumption
    | intro _
    | exact Same.bits rfl
    | (extract_lets +onlyGivenNames z; change State at z; apply Same.cutS h0 (x := z); unfold z; clear z; rotate_left; intro h; clear_value z; apply Same.letS h; clear h z; intro z h)
    | (extract_lets +onlyGivenNames z; change _ × _ × State at z; apply Same.cut22 h0 (x := z); unfold z; clear z; rotate_left; intro h; clear_value z; apply Same.let22 (x := z) h; clear h z; intro z h)
    | (extract_lets +onlyGivenNames z; change _ × State at z; apply Same.cut2 h0 (x := z); unfold z; clear z; rotate_left; intro h; clear_value z; apply Same.let2 (x := z) h; clear h z; intro z h)
    | (extract_lets +onlyGivenNames z; change _ → _ at z; apply Same.cutF z; subst z)
    | (extract_lets +onlyGivenNames z; clear_value z; apply Same.letAny z; clear z; intro z)
    | apply Same.ite
    | (refine Same.updHst ?_ rfl; assumption)
    | split
    | dsimp -zeta only)

theorem dramSlotFree_frame {m : Nat} {s0 : State} : ∀ s x1, 75776 &&& m = 75776 → Same m s0 s → Same m s0 (dramSlotFree s x1) := by
  intro s x1 hM h
  refine Same.run hM h fun h0 => ?_
  unfold dramSlotFree
  repeat' (with_reducible first
    | assumption
    | exact Same.bits rfl
    | (extract_lets +onlyGivenNames z; change State at z; apply Same.cutS h0 (x := z); unfold z; clear z; rotate_left; intro h; clear_value z; apply Same.letS h; clear h z; intro z h)
    | (extract_lets +onlyGivenNames z; change _ × _ × State at z; apply Same.cut22 h0 (x := z); unfold z; clear z; rotate_left; intro h; clear_value z; apply Same.let22 (x := z) h; clear h z; intro z h)
    | (extract_lets +onlyGivenNames z; change _ × State at z; apply Same.cut2 h0 (x := z); unfold z; clear z; rotate_left; intro h; clear_value z; apply Same.let2 (x := z) h; clear h z; intro z h)
    | (extract_lets +onlyGivenNames z; clear_value z; apply Same.letAny z; clear z; intro z)
    | apply readersKeep_frame
    | (refine Same.updZneMed ?_ rfl; assumption)
    | dsimp -zeta only)

theorem slotDrop_frame {m : Nat} {s0 : State} : ∀ s x1, 75776 &&& m = 75776 → Same m s0 s → Same m s0 (slotDrop s x1) := by
  intro s x1 hM h
  refine Same.run hM h fun h0 => ?_
  unfold slotDrop
  repeat' (with_reducible first
    | assumption
    | exact Same.bits rfl
    | apply Same.ite
    | apply dramSlotFree_frame
    | split
    | dsimp -zeta only)

theorem locDrop_frame {m : Nat} {s0 : State} : ∀ s x1, 75778 &&& m = 75778 → Same m s0 s → Same m s0 (locDrop s x1) := by
  intro s x1 hM h
  refine Same.run hM h fun h0 => ?_
  unfold locDrop
  repeat' (with_reducible first
    | assumption
    | exact Same.bits rfl
    | apply slotDrop_frame
    | apply unitDrop_frame
    | split)

theorem eolSettle_frame {m : Nat} {s0 : State} : ∀ s x1, 8194 &&& m = 8194 → Same m s0 s → Same m s0 (eolSettle s x1) := by
  intro s x1 hM h
  refine Same.run hM h fun h0 => ?_
  unfold eolSettle
  repeat' (with_reducible first
    | assumption
    | exact Same.bits rfl
    | (extract_lets +onlyGivenNames z; change State at z; apply Same.cutS h0 (x := z); unfold z; clear z; rotate_left; intro h; clear_value z; apply Same.letS h; clear h z; intro z h)
    | (extract_lets +onlyGivenNames z; change _ × _ × State at z; apply Same.cut22 h0 (x := z); unfold z; clear z; rotate_left; intro h; clear_value z; apply Same.let22 (x := z) h; clear h z; intro z h)
    | (extract_lets +onlyGivenNames z; change _ × State at z; apply Same.cut2 h0 (x := z); unfold z; clear z; rotate_left; intro h; clear_value z; apply Same.let2 (x := z) h; clear h z; intro z h)
    | (extract_lets +onlyGivenNames z; clear_value z; apply Same.letAny z; clear z; intro z)
    | apply Same.ite
    | apply zonePut_frame
    | split
    | dsimp -zeta only)

theorem rangeSettle_frame {m : Nat} {s0 : State} : ∀ s x1 x2 x3 x4, 90114 &&& m = 90114 → Same m s0 s → Same m s0 (rangeSettle s x1 x2 x3 x4) := by
  intro s x1 x2 x3 x4 hM h
  refine Same.run hM h fun h0 => ?_
  unfold rangeSettle
  repeat' (with_reducible first
    | assumption
    | intro _
    | exact Same.bits rfl
    | (extract_lets +onlyGivenNames z; change State at z; apply Same.cutS h0 (x := z); unfold z; clear z; rotate_left; intro h; clear_value z; apply Same.letS h; clear h z; intro z h)
    | (extract_lets +onlyGivenNames z; change _ × _ × State at z; apply Same.cut22 h0 (x := z); unfold z; clear z; rotate_left; intro h; clear_value z; apply Same.let22 (x := z) h; clear h z; intro z h)
    | (extract_lets +onlyGivenNames z; change _ × State at z; apply Same.cut2 h0 (x := z); unfold z; clear z; rotate_left; intro h; clear_value z; apply Same.let2 (x := z) h; clear h z; intro z h)
    | (extract_lets +onlyGivenNames z; clear_value z; apply Same.letAny z; clear z; intro z)
    | apply Same.ite
    | apply zonePut_frame
    | apply journalFor_frame
    | apply eolSettle_frame
    | split
    | dsimp -zeta only)

theorem slotPad_frame {m : Nat} {s0 : State} : ∀ s x1, 92160 &&& m = 92160 → Same m s0 s → Same m s0 (slotPad s x1) := by
  intro s x1 hM h
  refine Same.run hM h fun h0 => ?_
  unfold slotPad
  repeat' (with_reducible first
    | assumption
    | exact Same.bits rfl
    | apply Same.ite
    | apply setMember_frame
    | apply dramSlotFree_frame
    | split
    | dsimp -zeta only)

theorem unitAbandon_frame {m : Nat} {s0 : State} : ∀ s x1 x2, 92162 &&& m = 92162 → Same m s0 s → Same m s0 (unitAbandon s x1 x2) := by
  intro s x1 x2 hM h
  refine Same.run hM h fun h0 => ?_
  unfold unitAbandon
  repeat' (with_reducible first
    | assumption
    | exact Same.bits rfl
    | (extract_lets +onlyGivenNames z; change State at z; apply Same.cutS h0 (x := z); unfold z; clear z; rotate_left; intro h; clear_value z; apply Same.letS h; clear h z; intro z h)
    | (extract_lets +onlyGivenNames z; change _ × _ × State at z; apply Same.cut22 h0 (x := z); unfold z; clear z; rotate_left; intro h; clear_value z; apply Same.let22 (x := z) h; clear h z; intro z h)
    | (extract_lets +onlyGivenNames z; change _ × State at z; apply Same.cut2 h0 (x := z); unfold z; clear z; rotate_left; intro h; clear_value z; apply Same.let2 (x := z) h; clear h z; intro z h)
    | (extract_lets +onlyGivenNames z; clear_value z; apply Same.letAny z; clear z; intro z)
    | apply Same.ite
    | apply slotPad_frame
    | apply zonePut_frame
    | apply unitDrop_frame
    | split
    | dsimp -zeta only)

theorem writeAbandon_frame {m : Nat} {s0 : State} : ∀ s x1, 92162 &&& m = 92162 → Same m s0 s → Same m s0 (writeAbandon s x1) := by
  intro s x1 hM h
  refine Same.run hM h fun h0 => ?_
  unfold writeAbandon
  repeat' (with_reducible first
    | assumption
    | intro _
    | exact Same.bits rfl
    | (extract_lets +onlyGivenNames z; change State at z; apply Same.cutS h0 (x := z); unfold z; clear z; rotate_left; intro h; clear_value z; apply Same.letS h; clear h z; intro z h)
    | (extract_lets +onlyGivenNames z; change _ × _ × State at z; apply Same.cut22 h0 (x := z); unfold z; clear z; rotate_left; intro h; clear_value z; apply Same.let22 (x := z) h; clear h z; intro z h)
    | (extract_lets +onlyGivenNames z; change _ × State at z; apply Same.cut2 h0 (x := z); unfold z; clear z; rotate_left; intro h; clear_value z; apply Same.let2 (x := z) h; clear h z; intro z h)
    | (extract_lets +onlyGivenNames z; clear_value z; apply Same.letAny z; clear z; intro z)
    | apply Same.ite
    | apply setMember_frame
    | apply rangeSettle_frame
    | apply unitAbandon_frame
    | apply Same.foldl
    | split
    | dsimp -zeta only)

theorem readsDrop_frame {m : Nat} {s0 : State} : ∀ s x1, 1212418 &&& m = 1212418 → Same m s0 s → Same m s0 (readsDrop s x1) := by
  intro s x1 hM h
  refine Same.run hM h fun h0 => ?_
  unfold readsDrop
  repeat' (with_reducible first
    | assumption
    | exact Same.bits rfl
    | (extract_lets +onlyGivenNames z; change _ → _ at z; apply Same.cutF z; subst z)
    | (extract_lets +onlyGivenNames z; change State at z; apply Same.cutS h0 (x := z); unfold z; clear z; rotate_left; intro h; clear_value z; apply Same.letS h; clear h z; intro z h)
    | (extract_lets +onlyGivenNames z; clear_value z; apply Same.letAny z; clear z; intro z)
    | apply withdraw_frame
    | apply dropQueued_frame
    | (refine Same.updDsc ?_ rfl; assumption))

theorem ctxSquash_frame {m : Nat} {s0 : State} : ∀ s x1, 1304578 &&& m = 1304578 → Same m s0 s → Same m s0 (ctxSquash s x1) := by
  intro s x1 hM h
  refine Same.run hM h fun h0 => ?_
  unfold ctxSquash
  repeat' (with_reducible first
    | assumption
    | exact Same.bits rfl
    | apply Same.ite
    | apply writeAbandon_frame
    | apply readsDrop_frame
    | split)

theorem ctxFlush_frame {m : Nat} {s0 : State} : ∀ s x1 x2, 1304578 &&& m = 1304578 → Same m s0 s → Same m s0 (ctxFlush s x1 x2) := by
  intro s x1 x2 hM h
  refine Same.run hM h fun h0 => ?_
  unfold ctxFlush
  repeat' (with_reducible first
    | assumption
    | intro _
    | exact Same.bits rfl
    | apply Same.ite
    | apply ctxEnd_frame
    | apply ctxFail_frame
    | apply ctxSquash_frame
    | apply Same.foldl)

theorem actionsOrphan_frame {m : Nat} {s0 : State} : ∀ s x1, 8192 &&& m = 8192 → Same m s0 s → Same m s0 (actionsOrphan s x1) := by
  intro s x1 hM h
  refine Same.run hM h fun h0 => ?_
  unfold actionsOrphan
  repeat' (with_reducible first
    | (extract_lets +onlyGivenNames z; change _ → _ at z; apply Same.cutF z; subst z)
    | (extract_lets +onlyGivenNames z; clear_value z; apply Same.letAny z; clear z; intro z)
    | (refine Same.updZne ?_ rfl; assumption))

theorem ctxFree_frame {m : Nat} {s0 : State} : ∀ s x1, 2112514 &&& m = 2112514 → Same m s0 s → Same m s0 (ctxFree s x1) := by
  intro s x1 hM h
  refine Same.run hM h fun h0 => ?_
  unfold ctxFree
  repeat' (with_reducible first
    | assumption
    | exact Same.bits rfl
    | (extract_lets +onlyGivenNames z; change State at z; apply Same.cutS h0 (x := z); unfold z; clear z; rotate_left; intro h; clear_value z; apply Same.letS h; clear h z; intro z h)
    | (extract_lets +onlyGivenNames z; change _ × _ × State at z; apply Same.cut22 h0 (x := z); unfold z; clear z; rotate_left; intro h; clear_value z; apply Same.let22 (x := z) h; clear h z; intro z h)
    | (extract_lets +onlyGivenNames z; change _ × State at z; apply Same.cut2 h0 (x := z); unfold z; clear z; rotate_left; intro h; clear_value z; apply Same.let2 (x := z) h; clear h z; intro z h)
    | (extract_lets +onlyGivenNames z; clear_value z; apply Same.letAny z; clear z; intro z)
    | apply Same.ite
    | apply actionsOrphan_frame
    | apply psRefresh_frame
    | apply ctxShow_frame
    | apply busyNote_frame
    | (refine Same.updHst ?_ rfl; assumption)
    | split
    | dsimp -zeta only)

theorem ctxVanish_frame {m : Nat} {s0 : State} : ∀ s x1, 3406850 &&& m = 3406850 → Same m s0 s → Same m s0 (ctxVanish s x1) := by
  intro s x1 hM h
  refine Same.run hM h fun h0 => ?_
  unfold ctxVanish
  repeat' (with_reducible first
    | assumption
    | intro _
    | exact Same.bits rfl
    | apply ctxFree_frame
    | apply ctxSquash_frame
    | apply Same.foldl)

theorem buffersPass_frame {m : Nat} {s0 : State} : ∀ s x1 x2, 262144 &&& m = 262144 → Same m s0 s → Same m s0 (buffersPass s x1 x2) := by
  intro s x1 x2 hM h
  refine Same.run hM h fun h0 => ?_
  unfold buffersPass
  repeat' (with_reducible first
    | (extract_lets +onlyGivenNames z; clear_value z; apply Same.letAny z; clear z; intro z)
    | (refine Same.updBpm ?_ rfl; assumption))

theorem takeover_frame {m : Nat} {s0 : State} : ∀ s x1, 10748946 &&& m = 10748946 → Same m s0 s → Same m s0 (takeover s x1) := by
  intro s x1 hM h
  refine Same.run hM h fun h0 => ?_
  unfold takeover
  repeat' (with_reducible first
    | assumption
    | intro _
    | exact Same.bits rfl
    | (extract_lets +onlyGivenNames z; change State at z; apply Same.cutS h0 (x := z); unfold z; clear z; rotate_left; intro h; clear_value z; apply Same.letS h; clear h z; intro z h)
    | (extract_lets +onlyGivenNames z; change _ × _ × State at z; apply Same.cut22 h0 (x := z); unfold z; clear z; rotate_left; intro h; clear_value z; apply Same.let22 (x := z) h; clear h z; intro z h)
    | (extract_lets +onlyGivenNames z; change _ × State at z; apply Same.cut2 h0 (x := z); unfold z; clear z; rotate_left; intro h; clear_value z; apply Same.let2 (x := z) h; clear h z; intro z h)
    | (extract_lets +onlyGivenNames z; clear_value z; apply Same.letAny z; clear z; intro z)
    | apply Same.ite
    | apply finc_frame
    | apply fset_frame
    | apply post_frame
    | apply buffersPass_frame
    | (refine Same.updFab ?_ rfl; assumption)
    | (refine Same.updDge ?_ rfl; assumption)
    | split
    | dsimp -zeta only)

theorem xteDedShow_frame {m : Nat} {s0 : State} : ∀ s, 2 &&& m = 2 → Same m s0 s → Same m s0 (xteDedShow s) := by
  intro s hM h
  refine Same.run hM h fun h0 => ?_
  unfold xteDedShow
  repeat' (with_reducible first
    | assumption
    | intro _
    | exact Same.bits rfl
    | apply fset_frame
    | apply Same.foldl)

theorem chooseXte_frame {m : Nat} {s0 : State} : ∀ s x1, 16384 &&& m = 16384 → Same m s0 s → Same2 m s0 (chooseXte s x1) := by
  intro s x1 hM h
  refine Same2.run hM h fun h0 => ?_
  unfold chooseXte
  repeat' (with_reducible first
    | assumption
    | (extract_lets +onlyGivenNames z; clear_value z; apply Same.letAny z; clear z; intro z)
    | (refine Same.updPlc ?_ rfl; assumption)
    | split
    | apply Same2.mk')

theorem xteReplace_frame {m : Nat} {s0 : State} : ∀ s x1, 284674 &&& m = 284674 → Same m s0 s → Same m s0 (xteReplace s x1) := by
  intro s x1 hM h
  refine Same.run hM h fun h0 => ?_
  unfold xteReplace
  repeat' (with_reducible first
    | assumption
    | intro _
    | exact Same.bits rfl
    | (extract_lets +onlyGivenNames z; change State at z; apply Same.cutS h0 (x := z); unfold z; clear z; rotate_left; intro h; clear_value z; apply Same.letS h; clear h z; intro z h)
    | (extract_lets +onlyGivenNames z; change _ × _ × State at z; apply Same.cut22 h0 (x := z); unfold z; clear z; rotate_left; intro h; clear_value z; apply Same.let22 (x := z) h; clear h z; intro z h)
    | (extract_lets +onlyGivenNames z; change _ × State at z; apply Same.cut2 h0 (x := z); unfold z; clear z; rotate_left; intro h; clear_value z; apply Same.let2 (x := z) h; clear h z; intro z h)
    | (extract_lets +onlyGivenNames z; change _ → _ at z; apply Same.cutF z; subst z)
    | (extract_lets +onlyGivenNames z; clear_value z; apply Same.letAny z; clear z; intro z)
    | apply Same.ite
    | apply Same2.ite
    | apply xteDedShow_frame
    | apply chooseXte_frame
    | apply ctxUpd_frame
    | apply buffersPass_frame
    | (refine Same.updSlm ?_ rfl; assumption)
    | (refine Same.updSlm ?_ rfl; apply Same.ofPair2; assumption)
    | apply Same.foldl
    | apply Same2.foldl
    | (apply Same.ofPair2; assumption)
    | (apply Same2.out; apply chooseXte_frame)
    | split
    | dsimp -zeta only
    | apply Same2.mk')

end Sys2Proof.Machine
end

