-- ==== Sys2Proof/Laws/Frame2.lean ====
section
/-! SUPPORT. What each operation may change (Sys2Proof/Laws/Frame.lean), part 2 of 6: xteShow to trainEnable. A number is the set of
fields of State, bit k the k-th. -/
namespace Sys2Proof.Machine
open Sys2Proof
set_option maxRecDepth 4000
set_option linter.all false

theorem xteShow_frame {m : Nat} {s0 : State} : ∀ s x1, 2 &&& m = 2 → Same m s0 s → Same m s0 (xteShow s x1) := by
  intro s x1 hM h
  refine Same.run hM h fun h0 => ?_
  unfold xteShow
  repeat' (with_reducible first
    | assumption
    | exact Same.bits rfl
    | (extract_lets +onlyGivenNames z; clear_value z; apply Same.letAny z; clear z; intro z)
    | apply fset_frame)

theorem xtePool_frame {m : Nat} {s0 : State} : ∀ s, 2 &&& m = 2 → Same m s0 s → Same m s0 (xtePool s) := by
  intro s hM h
  refine Same.run hM h fun h0 => ?_
  unfold xtePool
  repeat' (with_reducible first
    | assumption
    | intro _
    | exact Same.bits rfl
    | (extract_lets +onlyGivenNames z; change State at z; apply Same.cutS h0 (x := z); unfold z; clear z; rotate_left; intro h; clear_value z; apply Same.letS h; clear h z; intro z h)
    | (extract_lets +onlyGivenNames z; clear_value z; apply Same.letAny z; clear z; intro z)
    | apply fset_frame
    | apply xteShow_frame
    | apply Same.foldl)

theorem dgeMove_frame {m : Nat} {s0 : State} : ∀ s x1, 8388608 &&& m = 8388608 → Same m s0 s → Same m s0 (dgeMove s x1) := by
  intro s x1 hM h
  refine Same.run hM h fun h0 => ?_
  unfold dgeMove
  repeat' (with_reducible first
    | assumption
    | exact Same.bits rfl
    | (extract_lets +onlyGivenNames z; change State at z; apply Same.cutS h0 (x := z); unfold z; clear z; rotate_left; intro h; clear_value z; apply Same.letS h; clear h z; intro z h)
    | (extract_lets +onlyGivenNames z; change _ × _ × State at z; apply Same.cut22 h0 (x := z); unfold z; clear z; rotate_left; intro h; clear_value z; apply Same.let22 (x := z) h; clear h z; intro z h)
    | (extract_lets +onlyGivenNames z; change _ × State at z; apply Same.cut2 h0 (x := z); unfold z; clear z; rotate_left; intro h; clear_value z; apply Same.let2 (x := z) h; clear h z; intro z h)
    | (extract_lets +onlyGivenNames z; clear_value z; apply Same.letAny z; clear z; intro z)
    | apply Same.ite
    | (refine Same.updDge ?_ rfl; assumption)
    | split
    | dsimp -zeta only)

theorem engineDrain_frame {m : Nat} {s0 : State} : ∀ s x1 x2, 262146 &&& m = 262146 → Same m s0 s → Same m s0 (engineDrain s x1 x2) := by
  intro s x1 x2 hM h
  refine Same.run hM h fun h0 => ?_
  unfold engineDrain
  repeat' (with_reducible first
    | assumption
    | intro _
    | exact Same.bits rfl
    | apply Same.ite
    | apply buffersPass_frame
    | apply quarantine_frame
    | split
    | dsimp -zeta only)

theorem cardDrain_frame {m : Nat} {s0 : State} : ∀ s x1, 146275858 &&& m = 146275858 → Same m s0 s → Same m s0 (cardDrain s x1) := by
  intro s x1 hM h
  refine Same.run hM h fun h0 => ?_
  unfold cardDrain
  repeat' (with_reducible first
    | assumption
    | intro _
    | exact Same.bits rfl
    | (extract_lets +onlyGivenNames z; change State at z; apply Same.cutS h0 (x := z); unfold z; clear z; rotate_left; intro h; clear_value z; apply Same.letS h; clear h z; intro z h)
    | (extract_lets +onlyGivenNames z; change _ × _ × State at z; apply Same.cut22 h0 (x := z); unfold z; clear z; rotate_left; intro h; clear_value z; apply Same.let22 (x := z) h; clear h z; intro z h)
    | (extract_lets +onlyGivenNames z; change _ × State at z; apply Same.cut2 h0 (x := z); unfold z; clear z; rotate_left; intro h; clear_value z; apply Same.let2 (x := z) h; clear h z; intro z h)
    | (extract_lets +onlyGivenNames z; clear_value z; apply Same.letAny z; clear z; intro z)
    | apply sliceSquash_frame
    | apply ctxFlush_frame
    | apply ctxVanish_frame
    | apply quarantine_frame
    | apply portUpd_frame
    | apply takeover_frame
    | apply fset_frame
    | apply channelLost_frame
    | apply flushQueues_frame
    | apply xtePool_frame
    | apply xteReplace_frame
    | apply engineDrain_frame
    | apply dgeMove_frame
    | split
    | dsimp -zeta only)

theorem raiseVio_frame {m : Nat} {s0 : State} : ∀ s x1 x2 x3 x4, 146275922 &&& m = 146275922 → Same m s0 s → Same m s0 (raiseVio s x1 x2 x3 x4) := by
  intro s x1 x2 x3 x4 hM h
  refine Same.run hM h fun h0 => ?_
  unfold raiseVio
  repeat' (with_reducible first
    | assumption
    | exact Same.bits rfl
    | (extract_lets +onlyGivenNames z; change State × _ at z; apply Same.cut1 h0 (x := z); unfold z; clear z; rotate_left; intro h; clear_value z; apply Same.let1 (x := z) h; clear h z; intro z h)
    | apply Same.ite
    | apply noteVio_frame
    | apply cardDrain_frame)

theorem wordsFresh_frame {m : Nat} {s0 : State} : ∀ s x1, 524288 &&& m = 524288 → Same m s0 s → Same m s0 (wordsFresh s x1) := by
  intro s x1 hM h
  refine Same.run hM h fun h0 => ?_
  unfold wordsFresh
  repeat' (with_reducible first
    | assumption
    | intro _
    | exact Same.bits rfl
    | (refine Same.updDmc ?_ rfl; assumption)
    | dsimp -zeta only)

theorem wordsWritten_frame {m : Nat} {s0 : State} : ∀ s x1, 524290 &&& m = 524290 → Same m s0 s → Same m s0 (wordsWritten s x1) := by
  intro s x1 hM h
  refine Same.run hM h fun h0 => ?_
  unfold wordsWritten
  repeat' (with_reducible first
    | assumption
    | exact Same.bits rfl
    | (extract_lets +onlyGivenNames z; change State at z; apply Same.cutS h0 (x := z); unfold z; clear z; rotate_left; intro h; clear_value z; apply Same.letS h; clear h z; intro z h)
    | (extract_lets +onlyGivenNames z; change _ × _ × State at z; apply Same.cut22 h0 (x := z); unfold z; clear z; rotate_left; intro h; clear_value z; apply Same.let22 (x := z) h; clear h z; intro z h)
    | (extract_lets +onlyGivenNames z; change _ × State at z; apply Same.cut2 h0 (x := z); unfold z; clear z; rotate_left; intro h; clear_value z; apply Same.let2 (x := z) h; clear h z; intro z h)
    | (extract_lets +onlyGivenNames z; clear_value z; apply Same.letAny z; clear z; intro z)
    | apply Same.ite
    | apply wordsFresh_frame
    | apply fon_frame
    | apply foff_frame
    | (refine Same.updDmc ?_ rfl; assumption)
    | split
    | dsimp -zeta only)

theorem sramWrote_frame {m : Nat} {s0 : State} : ∀ s x1 x2 x3, 524290 &&& m = 524290 → Same m s0 s → Same m s0 (sramWrote s x1 x2 x3) := by
  intro s x1 x2 x3 hM h
  refine Same.run hM h fun h0 => ?_
  unfold sramWrote
  repeat' (with_reducible first
    | assumption
    | intro _
    | exact Same.bits rfl
    | (extract_lets +onlyGivenNames z; change State at z; apply Same.cutS h0 (x := z); unfold z; clear z; rotate_left; intro h; clear_value z; apply Same.letS h; clear h z; intro z h)
    | (extract_lets +onlyGivenNames z; change _ × _ × State at z; apply Same.cut22 h0 (x := z); unfold z; clear z; rotate_left; intro h; clear_value z; apply Same.let22 (x := z) h; clear h z; intro z h)
    | (extract_lets +onlyGivenNames z; change _ × State at z; apply Same.cut2 h0 (x := z); unfold z; clear z; rotate_left; intro h; clear_value z; apply Same.let2 (x := z) h; clear h z; intro z h)
    | (extract_lets +onlyGivenNames z; clear_value z; apply Same.letAny z; clear z; intro z)
    | apply wordsWritten_frame
    | dsimp -zeta only)

theorem handleWrite_frame {m : Nat} {s0 : State} : ∀ s x1 x2, 524306 &&& m = 524306 → Same m s0 s → Same m s0 (handleWrite s x1 x2) := by
  intro s x1 x2 hM h
  refine Same.run hM h fun h0 => ?_
  unfold handleWrite
  repeat' (with_reducible first
    | assumption
    | intro _
    | exact Same.bits rfl
    | (extract_lets +onlyGivenNames z; change State at z; apply Same.cutS h0 (x := z); unfold z; clear z; rotate_left; intro h; clear_value z; apply Same.letS h; clear h z; intro z h)
    | (extract_lets +onlyGivenNames z; change _ × _ × State at z; apply Same.cut22 h0 (x := z); unfold z; clear z; rotate_left; intro h; clear_value z; apply Same.let22 (x := z) h; clear h z; intro z h)
    | (extract_lets +onlyGivenNames z; change _ × State at z; apply Same.cut2 h0 (x := z); unfold z; clear z; rotate_left; intro h; clear_value z; apply Same.let2 (x := z) h; clear h z; intro z h)
    | (extract_lets +onlyGivenNames z; change _ → _ at z; apply Same.cutF z; subst z)
    | (extract_lets +onlyGivenNames z; clear_value z; apply Same.letAny z; clear z; intro z)
    | apply Same.ite
    | apply Same2.ite
    | apply sramWrote_frame
    | (refine Same.updFab ?_ rfl; assumption)
    | apply Same.foldl
    | apply Same2.foldl
    | split
    | dsimp -zeta only
    | apply Same2.mk')

theorem pkeEnd_frame {m : Nat} {s0 : State} : ∀ s x1 x2 x3, 8912914 &&& m = 8912914 → Same m s0 s → Same m s0 (pkeEnd s x1 x2 x3) := by
  intro s x1 x2 x3 hM h
  refine Same.run hM h fun h0 => ?_
  unfold pkeEnd
  repeat' (with_reducible first
    | assumption
    | exact Same.bits rfl
    | (extract_lets +onlyGivenNames z; change State at z; apply Same.cutS h0 (x := z); unfold z; clear z; rotate_left; intro h; clear_value z; apply Same.letS h; clear h z; intro z h)
    | (extract_lets +onlyGivenNames z; change _ × _ × State at z; apply Same.cut22 h0 (x := z); unfold z; clear z; rotate_left; intro h; clear_value z; apply Same.let22 (x := z) h; clear h z; intro z h)
    | (extract_lets +onlyGivenNames z; change _ × State at z; apply Same.cut2 h0 (x := z); unfold z; clear z; rotate_left; intro h; clear_value z; apply Same.let2 (x := z) h; clear h z; intro z h)
    | (extract_lets +onlyGivenNames z; clear_value z; apply Same.letAny z; clear z; intro z)
    | apply Same.ite
    | apply fset_frame
    | apply foff_frame
    | apply handleWrite_frame
    | apply pkeShow_frame
    | (refine Same.updDge ?_ rfl; assumption)
    | split
    | dsimp -zeta only)

theorem pkeVio_frame {m : Nat} {s0 : State} : ∀ s x1 x2, 146800210 &&& m = 146800210 → Same m s0 s → Same m s0 (pkeVio s x1 x2) := by
  intro s x1 x2 hM h
  refine Same.run hM h fun h0 => ?_
  unfold pkeVio
  repeat' (with_reducible first
    | assumption
    | exact Same.bits rfl
    | apply pkeShow_frame
    | apply fon_frame
    | apply raiseVio_frame
    | apply pkeEnd_frame)

theorem raiseEvent_frame {m : Nat} {s0 : State} : ∀ s x1 x2, 2048 &&& m = 2048 → Same m s0 s → Same m s0 (raiseEvent s x1 x2) := by
  intro s x1 x2 hM h
  refine Same.run hM h fun h0 => ?_
  unfold raiseEvent
  repeat' (with_reducible first
    | assumption
    | exact Same.bits rfl
    | apply Same.ite
    | apply ctxUpd_frame
    | apply ctxEnd_frame
    | apply portUpd_frame
    | split)

theorem smartEvent_frame {m : Nat} {s0 : State} : ∀ s x1, 2048 &&& m = 2048 → Same m s0 s → Same m s0 (smartEvent s x1) := by
  intro s x1 hM h
  refine Same.run hM h fun h0 => ?_
  unfold smartEvent
  repeat' (with_reducible first
    | assumption
    | intro _
    | exact Same.bits rfl
    | apply Same.ite
    | apply raiseEvent_frame
    | apply Same.foldl)

theorem thermalTrip_frame {m : Nat} {s0 : State} : ∀ s, 2082 &&& m = 2082 → Same m s0 s → Same m s0 (thermalTrip s) := by
  intro s hM h
  refine Same.run hM h fun h0 => ?_
  unfold thermalTrip
  repeat' (with_reducible first
    | assumption
    | exact Same.bits rfl
    | (extract_lets +onlyGivenNames z; change State at z; apply Same.cutS h0 (x := z); unfold z; clear z; rotate_left; intro h; clear_value z; apply Same.letS h; clear h z; intro z h)
    | apply Same.ite
    | apply fon_frame
    | apply reach_frame
    | apply smartEvent_frame
    | split)

theorem execThermalTrip_frame {m : Nat} {s0 : State} : ∀ s, 2082 &&& m = 2082 → Same m s0 s → SameT m s0 (execThermalTrip s) := by
  intro s hM h
  refine SameT.run hM h fun h0 => ?_
  unfold execThermalTrip
  repeat' (with_reducible first
    | assumption
    | exact Same.bits rfl
    | apply SameT.next
    | apply thermalTrip_frame)

theorem fabAnswer_frame {m : Nat} {s0 : State} : ∀ s x1 x2 x3, 16 &&& m = 16 → Same m s0 s → Same m s0 (fabAnswer s x1 x2 x3) := by
  intro s x1 x2 x3 hM h
  refine Same.run hM h fun h0 => ?_
  unfold fabAnswer
  repeat' (with_reducible first
    | assumption
    | exact Same.bits rfl
    | (refine Same.updFab ?_ rfl; assumption)
    | dsimp -zeta only)

theorem fabError_frame {m : Nat} {s0 : State} : ∀ s x1 x2, 2098194 &&& m = 2098194 → Same m s0 s → Same m s0 (fabError s x1 x2) := by
  intro s x1 x2 hM h
  refine Same.run hM h fun h0 => ?_
  unfold fabError
  repeat' (with_reducible first
    | assumption
    | exact Same.bits rfl
    | apply fabAnswer_frame
    | apply post_frame)

theorem gated_frame {M : Nat} {s0 s : State} (hM : 2098194 &&& M = 2098194) (m : Master) (a : Nat) (f : State → State)
    (hf : ∀ t, Same M s0 t → Same M s0 (f t)) (h : Same M s0 s) : Same M s0 (gated s m a f) := by
  unfold gated
  split
  · exact fabAnswer_frame _ _ _ _ (Same.sub (by decide) hM) (hf _ h)
  · exact fabError_frame _ _ _ (Same.sub (by decide) hM) h
  · exact fabAnswer_frame _ _ _ _ (Same.sub (by decide) hM) h

theorem lktPost_frame {m : Nat} {s0 : State} : ∀ s x1, 2098178 &&& m = 2098178 → Same m s0 s → Same m s0 (lktPost s x1) := by
  intro s x1 hM h
  refine Same.run hM h fun h0 => ?_
  unfold lktPost
  repeat' (with_reducible first
    | assumption
    | exact Same.bits rfl
    | (extract_lets +onlyGivenNames z; change _ → _ at z; apply Same.cutF z; subst z)
    | (extract_lets +onlyGivenNames z; clear_value z; apply Same.letAny z; clear z; intro z)
    | apply Same.ite
    | apply fset_frame
    | apply post_frame)

theorem wrPostGoLkt_frame {m : Nat} {s0 : State} : ∀ s x1 x2, 2098178 &&& m = 2098178 → Same m s0 s → Same m s0 (wrPostGoLkt s x1 x2) := by
  intro s x1 x2 hM h
  refine Same.run hM h fun h0 => ?_
  unfold wrPostGoLkt
  repeat' (with_reducible first
    | assumption
    | exact Same.bits rfl
    | apply Same.ite
    | apply lktPost_frame
    | split)

theorem execLocketPost_frame {m : Nat} {s0 : State} : ∀ x0 s, 2098194 &&& m = 2098194 → Same m s0 s → SameT m s0 (execLocketPost x0 s) := by
  intro x0 s hM h
  refine SameT.run hM h fun h0 => ?_
  unfold execLocketPost
  repeat' (with_reducible first
    | assumption
    | intro _
    | exact Same.bits rfl
    | apply SameT.next
    | apply gated_frame
    | apply wrPostGoLkt_frame)

theorem refuseAll_frame {m : Nat} {s0 : State} : ∀ s x1 x2 x3, 131074 &&& m = 131074 → Same m s0 s → Same m s0 (refuseAll s x1 x2 x3) := by
  intro s x1 x2 x3 hM h
  refine Same.run hM h fun h0 => ?_
  unfold refuseAll
  repeat' (with_reducible first
    | assumption
    | intro _
    | exact Same.bits rfl
    | apply complete_frame
    | apply Same.foldl)

theorem chsVio_frame {m : Nat} {s0 : State} : ∀ s x1 x2 x3 x4 x5, 146275922 &&& m = 146275922 → Same m s0 s → Same m s0 (chsVio s x1 x2 x3 x4 x5) := by
  intro s x1 x2 x3 x4 x5 hM h
  refine Same.run hM h fun h0 => ?_
  unfold chsVio
  repeat' (with_reducible first
    | assumption
    | exact Same.bits rfl
    | (extract_lets +onlyGivenNames z; change State at z; apply Same.cutS h0 (x := z); unfold z; clear z; rotate_left; intro h; clear_value z; apply Same.letS h; clear h z; intro z h)
    | apply fset_frame
    | apply fon_frame
    | apply raiseVio_frame)

theorem dscStart_frame {m : Nat} {s0 : State} : ∀ s x1 x2, 32768 &&& m = 32768 → Same m s0 s → Same m s0 (dscStart s x1 x2) := by
  intro s x1 x2 hM h
  refine Same.run hM h fun h0 => ?_
  unfold dscStart
  repeat' (with_reducible first
    | assumption
    | (extract_lets +onlyGivenNames z; clear_value z; apply Same.letAny z; clear z; intro z)
    | apply Same.ite
    | (refine Same.updDsc ?_ rfl; assumption))

theorem startChain_frame {m : Nat} {s0 : State} : ∀ s x1 x2 x3 x4, 146275922 &&& m = 146275922 → Same m s0 s → Same m s0 (startChain s x1 x2 x3 x4) := by
  intro s x1 x2 x3 x4 hM h
  refine Same.run hM h fun h0 => ?_
  unfold startChain
  repeat' (with_reducible first
    | assumption
    | intro _
    | exact Same.bits rfl
    | (extract_lets +onlyGivenNames z; change State at z; apply Same.cutS h0 (x := z); unfold z; clear z; rotate_left; intro h; clear_value z; apply Same.letS h; clear h z; intro z h)
    | (extract_lets +onlyGivenNames z; change _ × _ × State at z; apply Same.cut22 h0 (x := z); unfold z; clear z; rotate_left; intro h; clear_value z; apply Same.let22 (x := z) h; clear h z; intro z h)
    | (extract_lets +onlyGivenNames z; change _ × State at z; apply Same.cut2 h0 (x := z); unfold z; clear z; rotate_left; intro h; clear_value z; apply Same.let2 (x := z) h; clear h z; intro z h)
    | (extract_lets +onlyGivenNames z; clear_value z; apply Same.letAny z; clear z; intro z)
    | apply Same.ite
    | apply postPending_frame
    | apply chsPut_frame
    | apply refuseAll_frame
    | apply fon_frame
    | apply complete_frame
    | apply chsVio_frame
    | apply finc_frame
    | apply dscStart_frame
    | split
    | dsimp -zeta only)

theorem takeOp_frame {m : Nat} {s0 : State} : ∀ s x1 x2 x3, 146275922 &&& m = 146275922 → Same m s0 s → Same m s0 (takeOp s x1 x2 x3) := by
  intro s x1 x2 x3 hM h
  refine Same.run hM h fun h0 => ?_
  unfold takeOp
  repeat' (with_reducible first
    | assumption
    | exact Same.bits rfl
    | apply Same.ite
    | apply startChain_frame
    | split)

theorem execDescErase_frame {m : Nat} {s0 : State} : ∀ x0 s, 146275922 &&& m = 146275922 → Same m s0 s → SameT m s0 (execDescErase x0 s) := by
  intro x0 s hM h
  refine SameT.run hM h fun h0 => ?_
  unfold execDescErase
  repeat' (with_reducible first
    | assumption
    | exact Same.bits rfl
    | apply SameT.next
    | apply takeOp_frame)

theorem hostWrite_frame {m : Nat} {s0 : State} : ∀ s x1 x2 x3, 514 &&& m = 514 → Same m s0 s → Same m s0 (hostWrite s x1 x2 x3) := by
  intro s x1 x2 x3 hM h
  refine Same.run hM h fun h0 => ?_
  unfold hostWrite
  repeat' (with_reducible first
    | assumption
    | exact Same.bits rfl
    | (extract_lets +onlyGivenNames z; clear_value z; apply Same.letAny z; clear z; intro z)
    | apply Same.ite
    | apply finc_frame
    | apply chanPut_frame)

theorem mbxTake_frame {m : Nat} {s0 : State} : ∀ s x1 x2, 514 &&& m = 514 → Same m s0 s → Same m s0 (mbxTake s x1 x2) := by
  intro s x1 x2 hM h
  refine Same.run hM h fun h0 => ?_
  unfold mbxTake
  repeat' (with_reducible first
    | assumption
    | exact Same.bits rfl
    | (extract_lets +onlyGivenNames z; change State at z; apply Same.cutS h0 (x := z); unfold z; clear z; rotate_left; intro h; clear_value z; apply Same.letS h; clear h z; intro z h)
    | (extract_lets +onlyGivenNames z; clear_value z; apply Same.letAny z; clear z; intro z)
    | apply Same.ite
    | apply chanPut_frame
    | apply finc_frame
    | apply volleyDrop_frame)

theorem psSideband_frame {m : Nat} {s0 : State} : ∀ s, 2100226 &&& m = 2100226 → Same m s0 s → Same m s0 (psSideband s) := by
  intro s hM h
  refine Same.run hM h fun h0 => ?_
  unfold psSideband
  repeat' (with_reducible first
    | assumption
    | exact Same.bits rfl
    | (extract_lets +onlyGivenNames z; clear_value z; apply Same.letAny z; clear z; intro z)
    | apply Same.ite
    | apply psRefresh_frame
    | apply psRefreshDram_frame
    | apply foff_frame
    | apply psSet_frame)

theorem mbxPost_frame {m : Nat} {s0 : State} : ∀ s x1 x2, 2100738 &&& m = 2100738 → Same m s0 s → Same2 m s0 (mbxPost s x1 x2) := by
  intro s x1 x2 hM h
  refine Same2.run hM h fun h0 => ?_
  unfold mbxPost
  repeat' (with_reducible first
    | assumption
    | exact Same.bits rfl
    | (extract_lets +onlyGivenNames z; change State at z; apply Same.cutS h0 (x := z); unfold z; clear z; rotate_left; intro h; clear_value z; apply Same.letS h; clear h z; intro z h)
    | (extract_lets +onlyGivenNames z; clear_value z; apply Same.letAny z; clear z; intro z)
    | apply Same.ite
    | apply Same2.ite
    | apply finc_frame
    | apply hostWrite_frame
    | apply psWake_frame
    | apply mbxTake_frame
    | apply psSideband_frame
    | apply Same2.mk')

theorem secure_frame {m : Nat} {s0 : State} : ∀ s x1 x2 x3 x4, 130 &&& m = 130 → Same m s0 s → Same2 m s0 (secure s x1 x2 x3 x4) := by
  intro s x1 x2 x3 x4 hM h
  refine Same2.run hM h fun h0 => ?_
  unfold secure
  repeat' (with_reducible first
    | assumption
    | exact Same.bits rfl
    | (extract_lets +onlyGivenNames z; change State at z; apply Same.cutS h0 (x := z); unfold z; clear z; rotate_left; intro h; clear_value z; apply Same.letS h; clear h z; intro z h)
    | (extract_lets +onlyGivenNames z; clear_value z; apply Same.letAny z; clear z; intro z)
    | apply finc_frame
    | (refine Same.updSpdm ?_ rfl; assumption)
    | split
    | apply Same2.mk')

theorem msixSend_frame {m : Nat} {s0 : State} : ∀ s x1 x2, 2048 &&& m = 2048 → Same m s0 s → Same m s0 (msixSend s x1 x2) := by
  intro s x1 x2 hM h
  refine Same.run hM h fun h0 => ?_
  unfold msixSend
  repeat' (with_reducible first
    | (extract_lets +onlyGivenNames z; clear_value z; apply Same.letAny z; clear z; intro z)
    | (refine Same.updHst ?_ rfl; assumption))

theorem mbxWrite_frame {m : Nat} {s0 : State} : ∀ s x1 x2 x3 x4 x5 x6, 2100866 &&& m = 2100866 → Same m s0 s → Same m s0 (mbxWrite s x1 x2 x3 x4 x5 x6) := by
  intro s x1 x2 x3 x4 x5 x6 hM h
  refine Same.run hM h fun h0 => ?_
  unfold mbxWrite
  repeat' (with_reducible first
    | assumption
    | exact Same.bits rfl
    | (extract_lets +onlyGivenNames z; change State at z; apply Same.cutS h0 (x := z); unfold z; clear z; rotate_left; intro h; clear_value z; apply Same.letS h; clear h z; intro z h)
    | (extract_lets +onlyGivenNames z; change _ × State at z; apply Same.cut2 h0 (x := z); unfold z; clear z; rotate_left; intro h; clear_value z; apply Same.let2 (x := z) h; clear h z; intro z h)
    | (extract_lets +onlyGivenNames z; clear_value z; apply Same.letAny z; clear z; intro z)
    | apply Same.ite
    | apply Same2.ite
    | apply secure_frame
    | apply chanPut_frame
    | apply finc_frame
    | apply psRefresh_frame
    | apply msixSend_frame
    | apply Same2.mk')

theorem mbxReply_frame {m : Nat} {s0 : State} : ∀ s x1 x2 x3 x4 x5, 2100866 &&& m = 2100866 → Same m s0 s → Same m s0 (mbxReply s x1 x2 x3 x4 x5) := by
  intro s x1 x2 x3 x4 x5 hM h
  refine Same.run hM h fun h0 => ?_
  unfold mbxReply
  repeat' (with_reducible first
    | assumption
    | exact Same.bits rfl
    | apply Same.ite
    | apply mbxWrite_frame
    | apply volleyDrop_frame)

theorem sendSeg_frame {m : Nat} {s0 : State} : ∀ s x1 x2 x3 x4, 2100866 &&& m = 2100866 → Same m s0 s → Same m s0 (sendSeg s x1 x2 x3 x4) := by
  intro s x1 x2 x3 x4 hM h
  refine Same.run hM h fun h0 => ?_
  unfold sendSeg
  repeat' (with_reducible first
    | assumption
    | exact Same.bits rfl
    | (extract_lets +onlyGivenNames z; clear_value z; apply Same.letAny z; clear z; intro z)
    | apply mbxReply_frame
    | apply chanPut_frame)

theorem mbxAnswer_frame {m : Nat} {s0 : State} : ∀ s x1 x2 x3 x4, 2100866 &&& m = 2100866 → Same m s0 s → Same m s0 (mbxAnswer s x1 x2 x3 x4) := by
  intro s x1 x2 x3 x4 hM h
  refine Same.run hM h fun h0 => ?_
  unfold mbxAnswer
  repeat' (with_reducible first
    | assumption
    | exact Same.bits rfl
    | apply Same.ite
    | apply mbxReply_frame
    | apply sendSeg_frame
    | split
    | dsimp -zeta only)

/-- The work of an opcode changes at most the fields of `m`. -/
structure OpKeeps (m : Nat) (s0 : State) (d : OpDef) : Prop where
  keeps : ∀ r c p s, Same m s0 s → Same m s0 (d.work r c p s).2

theorem OpKeeps.opDef {m : Nat} {s0 : State} {opc : Nat} {l : List Byte → Bool} {w : Caller → List Byte → State → Ans × State}
    (h : ∀ c p s, Same m s0 s → Same2 m s0 (w c p s)) : OpKeeps m s0 (opDef opc l w) := ⟨fun _ c p s hs => (h c p s hs).out⟩

theorem OpKeeps.of {m : Nat} {s0 : State} {d : OpDef} (h : ∀ r c p s, Same m s0 s → Same2 m s0 (d.work r c p s)) : OpKeeps m s0 d :=
  ⟨fun r c p s hs => (h r c p s hs).out⟩

theorem OpKeeps.opRead {m : Nat} {s0 : State} {opc : Nat} {f : Caller → State → Ans} : OpKeeps m s0 (opRead opc f) :=
  ⟨fun _ _ _ _ hs => hs⟩

theorem mbxAct_frame {m : Nat} {s0 s : State} (hM : 2100866 &&& m = 2100866) (d : OpDef) (r : Rq) (c : Caller) (p : List Byte)
    (hd : OpKeeps m s0 d) (h : Same m s0 s) : Same m s0 (mbxAct d r c p s) := by
  unfold mbxAct
  split
  · exact mbxReply_frame _ _ _ _ _ _ (Same.sub (by decide) hM) h
  · have h1 := hd.keeps r c p s h
    split
    · rename_i a s' e
      rw [e] at h1
      exact mbxAnswer_frame _ _ _ _ _ (Same.sub (by decide) hM) h1
    · rename_i s' e
      rw [e] at h1
      exact h1

theorem volleyFirst_frame {m : Nat} {s0 s : State} (hM : 2100866 &&& m = 2100866) (d : OpDef) (r : Rq) (c : Caller) (p : List Byte)
    (hd : OpKeeps m s0 d) (h : Same m s0 s) : Same m s0 (volleyFirst d r c p s) := by
  have hR : ∀ t o k a v, Same m s0 t → Same m s0 (mbxReply t r o k a v) :=
    fun t o k a v ht => mbxReply_frame t r o k a v (Same.sub (by decide) hM) ht
  unfold volleyFirst
  dsimp only
  split
  · exact hR _ _ _ _ _ h
  · split
    · exact hR _ _ _ _ _ h
    · split
      · exact hR _ _ _ _ _ h
      · split
        · exact hR _ _ _ _ _ h
        · split
          · exact mbxAct_frame hM d r c _ hd h
          · exact hR _ _ _ _ _ (chanPut_frame _ _ _ (Same.sub (by decide) hM) h)

theorem volleyNext_frame {m : Nat} {s0 s : State} (hM : 2100866 &&& m = 2100866) (d : OpDef) (r : Rq) (c : Caller) (p : List Byte)
    (hd : OpKeeps m s0 d) (h : Same m s0 s) : Same m s0 (volleyNext d r c p s) := by
  have hR : ∀ t o k a v, Same m s0 t → Same m s0 (mbxReply t r o k a v) :=
    fun t o k a v ht => mbxReply_frame t r o k a v (Same.sub (by decide) hM) ht
  have hP : ∀ t k x, Same m s0 t → Same m s0 (chanPut t k x) := fun t k x ht => chanPut_frame t k x (Same.sub (by decide) hM) ht
  unfold volleyNext
  dsimp only
  split
  · exact hR _ _ _ _ _ h
  · split
    · exact hR _ _ _ _ _ h
    · split
      · split
        · exact hR _ _ _ _ _ h
        · split
          · exact hR _ _ _ _ _ h
          · exact sendSeg_frame _ _ _ _ _ (Same.sub (by decide) hM) h
      · split
        · exact hR _ _ _ _ _ h
        · split
          · exact hR _ _ _ _ _ h
          · split
            · exact mbxAct_frame hM d r c _ hd (hP _ _ _ h)
            · exact hR _ _ _ _ _ (hP _ _ _ h)

theorem mbxBody_frame {m : Nat} {s0 s : State} (hM : 2100866 &&& m = 2100866) (d : OpDef) (r : Rq) (c : Caller) (p : List Byte)
    (hd : OpKeeps m s0 d) (h : Same m s0 s) : Same m s0 (mbxBody d r c p s) := by
  unfold mbxBody
  split
  · exact mbxReply_frame _ _ _ _ _ _ (Same.sub (by decide) hM) h
  · split
    · exact mbxAct_frame hM d r c _ hd h
    · split
      · exact volleyFirst_frame hM d r c _ hd h
      · exact volleyNext_frame hM d r c _ hd h

theorem tagFailed_frame {m : Nat} {s0 : State} : ∀ s x1 x2, 2098178 &&& m = 2098178 → Same m s0 s → Same m s0 (tagFailed s x1 x2) := by
  intro s x1 x2 hM h
  refine Same.run hM h fun h0 => ?_
  unfold tagFailed
  repeat' (with_reducible first
    | assumption
    | exact Same.bits rfl
    | (extract_lets +onlyGivenNames z; change State at z; apply Same.cutS h0 (x := z); unfold z; clear z; rotate_left; intro h; clear_value z; apply Same.letS h; clear h z; intro z h)
    | (extract_lets +onlyGivenNames z; clear_value z; apply Same.letAny z; clear z; intro z)
    | apply fon_frame
    | apply finc_frame
    | apply post_frame)

theorem mbxServe_frame {m : Nat} {s0 s : State} (hM : 2100866 &&& m = 2100866) (d : OpDef) (r : Rq)
    (hd : OpKeeps m s0 d) (h : Same m s0 s) : Same m s0 (mbxServe d r s) := by
  have hW : ∀ t o b k a v, Same m s0 t → Same m s0 (mbxWrite t r o b k a v) :=
    fun t o b k a v ht => mbxWrite_frame t r o b k a v (Same.sub (by decide) hM) ht
  unfold mbxServe
  dsimp only
  split
  · exact hW _ _ _ _ _ _ h
  · split
    · exact mbxBody_frame hM d r _ _ hd h
    · split
      · exact hW _ _ _ _ _ _ h
      · exact hW _ _ _ _ _ _ (tagFailed_frame _ _ _ (Same.sub (by decide) hM) h)
      · refine mbxBody_frame hM d r _ _ hd (finc_frame _ _ (Same.sub (by decide) hM) ?_)
        refine Same.step (k := 128) (Same.sub (by decide) hM) ?_ h
        constructor <;> first | (intro _; rfl) | (intro q; exact absurd q (by decide)) | exact fun q => q | exact Nat.le_refl _

theorem mbxRun_frame {m : Nat} {s0 s : State} (hM : 2100866 &&& m = 2100866) (d : OpDef) (r : Rq)
    (hd : OpKeeps m s0 d) (h : Same m s0 s) : Same m s0 (mbxRun d r s) := by
  have h1 : Same m s0 (mbxPost s r d.opc).2 := (mbxPost_frame s r d.opc (Same.sub (by decide) hM) h).out
  unfold mbxRun
  dsimp only
  split
  · exact h1
  · split
    · split
      · exact fset_frame _ _ _ (Same.sub (by decide) hM) h1
      · exact h1
    · exact mbxServe_frame hM d r hd h1

theorem groupsErase_frame {m : Nat} {s0 : State} : ∀ s x1 x2, 114690 &&& m = 114690 → Same m s0 s → Same m s0 (groupsErase s x1 x2) := by
  intro s x1 x2 hM h
  refine Same.run hM h fun h0 => ?_
  unfold groupsErase
  repeat' (with_reducible first
    | assumption
    | intro _
    | exact Same.bits rfl
    | (extract_lets +onlyGivenNames z; change _ → _ at z; apply Same.cutF z; subst z)
    | (extract_lets +onlyGivenNames z; change State at z; apply Same.cutS h0 (x := z); unfold z; clear z; rotate_left; intro h; clear_value z; apply Same.letS h; clear h z; intro z h)
    | (extract_lets +onlyGivenNames z; clear_value z; apply Same.letAny z; clear z; intro z)
    | apply streamsRefresh_frame
    | apply sbErase_frame
    | (refine Same.updPlcMed ?_ rfl; assumption)
    | apply Same.foldl)

theorem quotaPut_frame {m : Nat} {s0 : State} : ∀ s x1 x2 x3 x4, 262146 &&& m = 262146 → Same m s0 s → Same m s0 (quotaPut s x1 x2 x3 x4) := by
  intro s x1 x2 x3 x4 hM h
  refine Same.run hM h fun h0 => ?_
  unfold quotaPut
  repeat' (with_reducible first
    | assumption
    | exact Same.bits rfl
    | (extract_lets +onlyGivenNames z; change State at z; apply Same.cutS h0 (x := z); unfold z; clear z; rotate_left; intro h; clear_value z; apply Same.letS h; clear h z; intro z h)
    | (extract_lets +onlyGivenNames z; clear_value z; apply Same.letAny z; clear z; intro z)
    | apply fset_frame
    | (refine Same.updBpm ?_ rfl; assumption))

theorem journalDef_frame {m : Nat} {s0 : State} : ∀ s x1 x2, 90114 &&& m = 90114 → Same m s0 s → Same m s0 (journalDef s x1 x2) := by
  intro s x1 x2 hM h
  refine Same.run hM h fun h0 => ?_
  unfold journalDef
  repeat' (with_reducible first
    | assumption
    | exact Same.bits rfl
    | apply journal_frame
    | dsimp -zeta only)

theorem bpUpdate_frame {m : Nat} {s0 : State} : ∀ s, 262146 &&& m = 262146 → Same m s0 s → Same m s0 (bpUpdate s) := by
  intro s hM h
  refine Same.run hM h fun h0 => ?_
  unfold bpUpdate
  repeat' (with_reducible first
    | assumption
    | intro _
    | exact Same.bits rfl
    | (extract_lets +onlyGivenNames z; change State at z; apply Same.cutS h0 (x := z); unfold z; clear z; rotate_left; intro h; clear_value z; apply Same.letS h; clear h z; intro z h)
    | (extract_lets +onlyGivenNames z; clear_value z; apply Same.letAny z; clear z; intro z)
    | apply Same.ite
    | apply fset_frame
    | apply fbiton_frame
    | (refine Same.updBpm ?_ rfl; assumption)
    | apply Same.foldl)

theorem sliceRemove_frame {m : Nat} {s0 : State} : ∀ s x1 x2, 389122 &&& m = 389122 → Same m s0 s → Same m s0 (sliceRemove s x1 x2) := by
  intro s x1 x2 hM h
  refine Same.run hM h fun h0 => ?_
  unfold sliceRemove
  repeat' (with_reducible first
    | assumption
    | intro _
    | exact Same.bits rfl
    | (extract_lets +onlyGivenNames z; change State at z; apply Same.cutS h0 (x := z); unfold z; clear z; rotate_left; intro h; clear_value z; apply Same.letS h; clear h z; intro z h)
    | (extract_lets +onlyGivenNames z; clear_value z; apply Same.letAny z; clear z; intro z)
    | apply Same.ite
    | apply groupsErase_frame
    | apply quotaPut_frame
    | apply xteDedShow_frame
    | apply xtePool_frame
    | apply slmShow_frame
    | apply journalDef_frame
    | apply bpUpdate_frame
    | (refine Same.updSlm ?_ rfl; assumption)
    | apply Same.foldl)

theorem sliceDelete_frame {m : Nat} {s0 : State} : ∀ x0 s, 389122 &&& m = 389122 → Same m s0 s → Same2 m s0 (sliceDelete x0 s) := by
  intro x0 s hM h
  refine Same2.run hM h fun h0 => ?_
  unfold sliceDelete
  repeat' (with_reducible first
    | assumption
    | exact Same.bits rfl
    | apply Same2.ite
    | apply sliceRemove_frame
    | split
    | apply Same2.mk')

theorem execSliceDelete_frame {m : Nat} {s0 : State} : ∀ x0 s, 2489986 &&& m = 2489986 → Same m s0 s → SameT m s0 (execSliceDelete x0 s) := by
  intro x0 s hM h
  refine SameT.run hM h fun h0 => ?_
  unfold execSliceDelete
  repeat' (with_reducible first
    | assumption
    | intro _
    | exact Same.bits rfl
    | apply SameT.next
    | apply mbxRun_frame
    | apply sliceDelete_frame
    | apply OpKeeps.opDef)

theorem setsDone_frame {m : Nat} {s0 : State} : ∀ s x1, 65536 &&& m = 65536 → Same m s0 s → Same m s0 (setsDone s x1) := by
  intro s x1 hM h
  refine Same.run hM h fun h0 => ?_
  unfold setsDone
  repeat' (with_reducible first
    | assumption
    | intro _
    | exact Same.bits rfl
    | apply sbClose_frame
    | apply Same.foldl
    | dsimp -zeta only)

theorem cursorDone_frame {m : Nat} {s0 : State} : ∀ s x1, 65536 &&& m = 65536 → Same m s0 s → Same m s0 (cursorDone s x1) := by
  intro s x1 hM h
  refine Same.run hM h fun h0 => ?_
  unfold cursorDone
  repeat' (with_reducible first
    | assumption
    | exact Same.bits rfl
    | (extract_lets +onlyGivenNames z; change State at z; apply Same.cutS h0 (x := z); unfold z; clear z; rotate_left; intro h; clear_value z; apply Same.letS h; clear h z; intro z h)
    | (extract_lets +onlyGivenNames z; change _ × _ × State at z; apply Same.cut22 h0 (x := z); unfold z; clear z; rotate_left; intro h; clear_value z; apply Same.let22 (x := z) h; clear h z; intro z h)
    | (extract_lets +onlyGivenNames z; change _ × State at z; apply Same.cut2 h0 (x := z); unfold z; clear z; rotate_left; intro h; clear_value z; apply Same.let2 (x := z) h; clear h z; intro z h)
    | (extract_lets +onlyGivenNames z; clear_value z; apply Same.letAny z; clear z; intro z)
    | apply setsDone_frame
    | split
    | dsimp -zeta only)

theorem zoneWork_frame {m : Nat} {s0 : State} : ∀ s x1, 92160 &&& m = 92160 → Same m s0 s → Same m s0 (zoneWork s x1) := by
  intro s x1 hM h
  refine Same.run hM h fun h0 => ?_
  unfold zoneWork
  repeat' (with_reducible first
    | assumption
    | intro _
    | exact Same.bits rfl
    | (extract_lets +onlyGivenNames z; change State at z; apply Same.cutS h0 (x := z); unfold z; clear z; rotate_left; intro h; clear_value z; apply Same.letS h; clear h z; intro z h)
    | (extract_lets +onlyGivenNames z; change _ × _ × State at z; apply Same.cut22 h0 (x := z); unfold z; clear z; rotate_left; intro h; clear_value z; apply Same.let22 (x := z) h; clear h z; intro z h)
    | (extract_lets +onlyGivenNames z; change _ × State at z; apply Same.cut2 h0 (x := z); unfold z; clear z; rotate_left; intro h; clear_value z; apply Same.let2 (x := z) h; clear h z; intro z h)
    | (extract_lets +onlyGivenNames z; clear_value z; apply Same.letAny z; clear z; intro z)
    | apply cursorDone_frame
    | apply sbClose_frame
    | apply dramSlotFree_frame
    | (refine Same.updPlc ?_ rfl; assumption)
    | apply Same.foldl
    | split
    | dsimp -zeta only)

theorem zoneData_frame {m : Nat} {s0 : State} : ∀ s x1, 75778 &&& m = 75778 → Same m s0 s → Same m s0 (zoneData s x1) := by
  intro s x1 hM h
  refine Same.run hM h fun h0 => ?_
  unfold zoneData
  repeat' (with_reducible first
    | assumption
    | intro _
    | exact Same.bits rfl
    | (extract_lets +onlyGivenNames z; change State at z; apply Same.cutS h0 (x := z); unfold z; clear z; rotate_left; intro h; clear_value z; apply Same.letS h; clear h z; intro z h)
    | apply Same.ite
    | apply unitDrop_frame
    | apply slotDrop_frame
    | apply Same.foldl)

theorem journalZoneH_frame {m : Nat} {s0 : State} : ∀ x0 s x2 x3, 90114 &&& m = 90114 → Same m s0 s → Same m s0 (journalZoneH x0 s x2 x3) := by
  intro x0 s x2 x3 hM h
  refine Same.run hM h fun h0 => ?_
  unfold journalZoneH
  repeat' (with_reducible first
    | assumption
    | exact Same.bits rfl
    | apply journalHold_frame
    | dsimp -zeta only)

theorem journalZone_frame {m : Nat} {s0 : State} : ∀ s x1 x2, 90114 &&& m = 90114 → Same m s0 s → Same m s0 (journalZone s x1 x2) := by
  intro s x1 x2 hM h
  refine Same.run hM h fun h0 => ?_
  unfold journalZone
  repeat' (with_reducible first
    | assumption
    | exact Same.bits rfl
    | apply journalZoneH_frame
    | dsimp -zeta only)

theorem zoneReset_frame {m : Nat} {s0 : State} : ∀ s x1, 124930 &&& m = 124930 → Same m s0 s → Same m s0 (zoneReset s x1) := by
  intro s x1 hM h
  refine Same.run hM h fun h0 => ?_
  unfold zoneReset
  repeat' (with_reducible first
    | assumption
    | intro _
    | exact Same.bits rfl
    | (extract_lets +onlyGivenNames z; change State at z; apply Same.cutS h0 (x := z); unfold z; clear z; rotate_left; intro h; clear_value z; apply Same.letS h; clear h z; intro z h)
    | (extract_lets +onlyGivenNames z; change _ × _ × State at z; apply Same.cut22 h0 (x := z); unfold z; clear z; rotate_left; intro h; clear_value z; apply Same.let22 (x := z) h; clear h z; intro z h)
    | (extract_lets +onlyGivenNames z; change _ × State at z; apply Same.cut2 h0 (x := z); unfold z; clear z; rotate_left; intro h; clear_value z; apply Same.let2 (x := z) h; clear h z; intro z h)
    | (extract_lets +onlyGivenNames z; clear_value z; apply Same.letAny z; clear z; intro z)
    | apply zoneWork_frame
    | apply zoneData_frame
    | apply holdTry_frame
    | apply sweep_frame
    | apply journalZoneH_frame
    | apply zonePut_frame
    | (refine Same.updMed ?_ rfl; assumption)
    | split
    | dsimp -zeta only)

theorem zoneVoid_frame {m : Nat} {s0 : State} : ∀ s x1, 124930 &&& m = 124930 → Same m s0 s → Same m s0 (zoneVoid s x1) := by
  intro s x1 hM h
  refine Same.run hM h fun h0 => ?_
  unfold zoneVoid
  repeat' (with_reducible first
    | assumption
    | exact Same.bits rfl
    | (extract_lets +onlyGivenNames z; change State at z; apply Same.cutS h0 (x := z); unfold z; clear z; rotate_left; intro h; clear_value z; apply Same.letS h; clear h z; intro z h)
    | (extract_lets +onlyGivenNames z; change _ × _ × State at z; apply Same.cut22 h0 (x := z); unfold z; clear z; rotate_left; intro h; clear_value z; apply Same.let22 (x := z) h; clear h z; intro z h)
    | (extract_lets +onlyGivenNames z; change _ × State at z; apply Same.cut2 h0 (x := z); unfold z; clear z; rotate_left; intro h; clear_value z; apply Same.let2 (x := z) h; clear h z; intro z h)
    | (extract_lets +onlyGivenNames z; clear_value z; apply Same.letAny z; clear z; intro z)
    | apply Same.ite
    | apply zoneWork_frame
    | apply zoneData_frame
    | apply sweep_frame
    | apply journalZoneH_frame
    | apply zonePut_frame
    | apply zoneReset_frame
    | split
    | dsimp -zeta only)

theorem nsEmpty_frame {m : Nat} {s0 : State} : ∀ s x1 x2, 124930 &&& m = 124930 → Same m s0 s → Same m s0 (nsEmpty s x1 x2) := by
  intro s x1 x2 hM h
  refine Same.run hM h fun h0 => ?_
  unfold nsEmpty
  repeat' (with_reducible first
    | assumption
    | intro _
    | exact Same.bits rfl
    | (extract_lets +onlyGivenNames z; change State at z; apply Same.cutS h0 (x := z); unfold z; clear z; rotate_left; intro h; clear_value z; apply Same.letS h; clear h z; intro z h)
    | (extract_lets +onlyGivenNames z; change _ × _ × State at z; apply Same.cut22 h0 (x := z); unfold z; clear z; rotate_left; intro h; clear_value z; apply Same.let22 (x := z) h; clear h z; intro z h)
    | (extract_lets +onlyGivenNames z; change _ × State at z; apply Same.cut2 h0 (x := z); unfold z; clear z; rotate_left; intro h; clear_value z; apply Same.let2 (x := z) h; clear h z; intro z h)
    | (extract_lets +onlyGivenNames z; clear_value z; apply Same.letAny z; clear z; intro z)
    | apply Same.ite
    | apply zoneVoid_frame
    | apply locDrop_frame
    | apply sweep_frame
    | (refine Same.updMed ?_ rfl; assumption)
    | (refine Same.updZneMed ?_ rfl; assumption)
    | apply Same.foldl
    | split
    | dsimp -zeta only)

theorem kstShow_frame {m : Nat} {s0 : State} : ∀ s, 2 &&& m = 2 → Same m s0 s → Same m s0 (kstShow s) := by
  intro s hM h
  refine Same.run hM h fun h0 => ?_
  unfold kstShow
  repeat' (with_reducible first
    | assumption
    | exact Same.bits rfl
    | (extract_lets +onlyGivenNames z; change State at z; apply Same.cutS h0 (x := z); unfold z; clear z; rotate_left; intro h; clear_value z; apply Same.letS h; clear h z; intro z h)
    | (extract_lets +onlyGivenNames z; clear_value z; apply Same.letAny z; clear z; intro z)
    | apply fset_frame)

theorem releaseDone_frame {m : Nat} {s0 : State} : ∀ s x1, 124930 &&& m = 124930 → Same m s0 s → Same m s0 (releaseDone s x1) := by
  intro s x1 hM h
  refine Same.run hM h fun h0 => ?_
  unfold releaseDone
  repeat' (with_reducible first
    | assumption
    | exact Same.bits rfl
    | (extract_lets +onlyGivenNames z; change State at z; apply Same.cutS h0 (x := z); unfold z; clear z; rotate_left; intro h; clear_value z; apply Same.letS h; clear h z; intro z h)
    | (extract_lets +onlyGivenNames z; clear_value z; apply Same.letAny z; clear z; intro z)
    | apply nsEmpty_frame
    | apply kstShow_frame
    | (refine Same.updZne ?_ rfl; assumption)
    | split)

theorem execNamespaceReleaseDone_frame {m : Nat} {s0 : State} : ∀ x0 s, 124930 &&& m = 124930 → Same m s0 s → SameT m s0 (execNamespaceReleaseDone x0 s) := by
  intro x0 s hM h
  refine SameT.run hM h fun h0 => ?_
  unfold execNamespaceReleaseDone
  repeat' (with_reducible first
    | assumption
    | exact Same.bits rfl
    | apply SameT.next
    | apply releaseDone_frame)

theorem gatherGo_frame {m : Nat} {s0 : State} : ∀ s, 524290 &&& m = 524290 → Same m s0 s → Same m s0 (gatherGo s) := by
  intro s hM h
  refine Same.run hM h fun h0 => ?_
  unfold gatherGo
  repeat' (with_reducible first
    | assumption
    | exact Same.bits rfl
    | (extract_lets +onlyGivenNames z; change State at z; apply Same.cutS h0 (x := z); unfold z; clear z; rotate_left; intro h; clear_value z; apply Same.letS h; clear h z; intro z h)
    | (extract_lets +onlyGivenNames z; change _ × _ × State at z; apply Same.cut22 h0 (x := z); unfold z; clear z; rotate_left; intro h; clear_value z; apply Same.let22 (x := z) h; clear h z; intro z h)
    | (extract_lets +onlyGivenNames z; change _ × State at z; apply Same.cut2 h0 (x := z); unfold z; clear z; rotate_left; intro h; clear_value z; apply Same.let2 (x := z) h; clear h z; intro z h)
    | (extract_lets +onlyGivenNames z; clear_value z; apply Same.letAny z; clear z; intro z)
    | apply Same.ite
    | apply foff_frame
    | apply fset_frame
    | apply resetWindow_frame
    | apply fon_frame
    | (refine Same.updDmc ?_ rfl; assumption)
    | split
    | dsimp -zeta only)

theorem planRetDie_frame {m : Nat} {s0 : State} : ∀ s x1 x2 x3, 136315906 &&& m = 136315906 → Same m s0 s → Same m s0 (planRetDie s x1 x2 x3) := by
  intro s x1 x2 x3 hM h
  refine Same.run hM h fun h0 => ?_
  unfold planRetDie
  repeat' (with_reducible first
    | assumption
    | exact Same.bits rfl
    | (extract_lets +onlyGivenNames z; change State at z; apply Same.cutS h0 (x := z); unfold z; clear z; rotate_left; intro h; clear_value z; apply Same.letS h; clear h z; intro z h)
    | (extract_lets +onlyGivenNames z; clear_value z; apply Same.letAny z; clear z; intro z)
    | apply Same.ite
    | apply post_frame
    | apply fon_frame
    | (refine Same.updAge ?_ rfl; assumption))

theorem setBudget_frame {m : Nat} {s0 : State} : ∀ s x1, 2 &&& m = 2 → Same m s0 s → Same m s0 (setBudget s x1) := by
  intro s x1 hM h
  refine Same.run hM h fun h0 => ?_
  unfold setBudget
  repeat' (with_reducible first
    | assumption
    | exact Same.bits rfl
    | apply fset_frame)

theorem bufTake1_frame {m : Nat} {s0 : State} : ∀ s x1 x2 x3 x4 x5 x6, 262144 &&& m = 262144 → Same m s0 s → SameO2 m s0 (bufTake1 s x1 x2 x3 x4 x5 x6) := by
  intro s x1 x2 x3 x4 x5 x6 hM h
  refine SameO2.run hM h fun h0 => ?_
  unfold bufTake1
  repeat' (with_reducible first
    | (extract_lets +onlyGivenNames z; clear_value z; apply Same.letAny z; clear z; intro z)
    | (refine Same.updBpm ?_ rfl; assumption)
    | apply SameO2.some
    | apply SameO2.none
    | split)

theorem bufTakeN_frame {m : Nat} {s0 : State} : ∀ s k a id long n link, 262144 &&& m = 262144 → Same m s0 s →
    SameO2 m s0 (bufTakeN s k a id long n link) := by
  intro s k a id long n
  induction n generalizing s with
  | zero => intro link _ _; unfold bufTakeN; exact SameO2.none
  | succ n ih =>
    intro link hM h
    cases n with
    | zero => unfold bufTakeN; exact bufTake1_frame _ _ _ _ _ _ _ (Same.sub (by decide) hM) h
    | succ n =>
      unfold bufTakeN
      split
      · rename_i i s' e
        exact ih _ _ hM (Same.ofSome2 e (bufTake1_frame _ _ _ _ _ _ _ (Same.sub (by decide) hM) h))
      · exact SameO2.none

theorem bufTake_frame {m : Nat} {s0 : State} : ∀ s k a n id c long, 262144 &&& m = 262144 → Same m s0 s →
    Same22 m s0 (bufTake s k a n id c long) := by
  intro s k a n id c long hM h
  unfold bufTake
  dsimp only
  split
  · exact ⟨h⟩
  · split
    · exact ⟨h⟩
    · split
      · exact ⟨h⟩
      · split
        · rename_i i s' e
          exact ⟨Same.ofSome2 e (bufTakeN_frame _ _ _ _ _ _ _ hM h)⟩
        · exact ⟨h⟩

theorem bufAlloc_frame {m : Nat} {s0 : State} : ∀ s x1 x2 x3 x4 x5 x6, 2360322 &&& m = 2360322 → Same m s0 s → Same m s0 (bufAlloc s x1 x2 x3 x4 x5 x6) := by
  intro s x1 x2 x3 x4 x5 x6 hM h
  refine Same.run hM h fun h0 => ?_
  unfold bufAlloc
  repeat' (with_reducible first
    | assumption
    | intro _
    | exact Same.bits rfl
    | (extract_lets +onlyGivenNames z; change State at z; apply Same.cutS h0 (x := z); unfold z; clear z; rotate_left; intro h; clear_value z; apply Same.letS h; clear h z; intro z h)
    | (extract_lets +onlyGivenNames z; change _ × _ × State at z; apply Same.cut22 h0 (x := z); unfold z; clear z; rotate_left; intro h; clear_value z; apply Same.let22 (x := z) h; clear h z; intro z h)
    | (extract_lets +onlyGivenNames z; change _ × State at z; apply Same.cut2 h0 (x := z); unfold z; clear z; rotate_left; intro h; clear_value z; apply Same.let2 (x := z) h; clear h z; intro z h)
    | (extract_lets +onlyGivenNames z; change _ → _ at z; apply Same.cutF z; subst z)
    | (extract_lets +onlyGivenNames z; clear_value z; apply Same.letAny z; clear z; intro z)
    | apply Same.ite
    | apply Same22.ite
    | apply finc_frame
    | apply bufTake_frame
    | apply fon_frame
    | apply bpUpdate_frame
    | apply post_frame
    | apply fbiton_frame
    | (refine Same.updBpm ?_ rfl; assumption)
    | (refine Same.updBpm ?_ rfl; apply finc_frame)
    | (refine Same.updBpm ?_ rfl; apply bpUpdate_frame)
    | (refine Same.updBpm ?_ rfl; apply fbiton_frame)
    | (refine Same.updBpm ?_ rfl; apply fon_frame)
    | (refine Same.updBpm ?_ rfl; apply post_frame)
    | (apply Same22.out; apply bufTake_frame)
    | split
    | dsimp -zeta only
    | apply Same22.mk'
    | apply Same2.mk')

theorem sbSay_frame {m : Nat} {s0 : State} : ∀ s x1, 2100738 &&& m = 2100738 → Same m s0 s → Same m s0 (sbSay s x1) := by
  intro s x1 hM h
  refine Same.run hM h fun h0 => ?_
  unfold sbSay
  repeat' (with_reducible first
    | exact Same.bits rfl
    | (extract_lets +onlyGivenNames z; clear_value z; apply Same.letAny z; clear z; intro z)
    | apply psSideband_frame
    | (refine Same.updMbx ?_ rfl; assumption))

theorem execNvmeMiBasicRead_frame {m : Nat} {s0 : State} : ∀ s, 2100738 &&& m = 2100738 → Same m s0 s → SameT m s0 (execNvmeMiBasicRead s) := by
  intro s hM h
  refine SameT.run hM h fun h0 => ?_
  unfold execNvmeMiBasicRead
  repeat' (with_reducible first
    | assumption
    | exact Same.bits rfl
    | apply SameT.next
    | apply Same.ite
    | apply sbSay_frame)

theorem xteFault_frame {m : Nat} {s0 : State} : ∀ s x1 x2 x3 x4, 6577154 &&& m = 6577154 → Same m s0 s → Same m s0 (xteFault s x1 x2 x3 x4) := by
  intro s x1 x2 x3 x4 hM h
  refine Same.run hM h fun h0 => ?_
  unfold xteFault
  repeat' (with_reducible first
    | assumption
    | exact Same.bits rfl
    | (extract_lets +onlyGivenNames z; change State at z; apply Same.cutS h0 (x := z); unfold z; clear z; rotate_left; intro h; clear_value z; apply Same.letS h; clear h z; intro z h)
    | (extract_lets +onlyGivenNames z; clear_value z; apply Same.letAny z; clear z; intro z)
    | apply Same.ite
    | apply finc_frame
    | apply fon_frame
    | apply post_frame
    | apply xtePool_frame
    | apply xteReplace_frame
    | apply xteShow_frame
    | (refine Same.updKst ?_ rfl; assumption))

theorem xteAgain_frame {m : Nat} {s0 : State} : ∀ s x1 x2 x3 x4 x5 x6, 7863298 &&& m = 7863298 → Same m s0 s → Same m s0 (xteAgain s x1 x2 x3 x4 x5 x6) := by
  intro s x1 x2 x3 x4 x5 x6 hM h
  refine Same.run hM h fun h0 => ?_
  unfold xteAgain
  repeat' (with_reducible first
    | assumption
    | exact Same.bits rfl
    | (extract_lets +onlyGivenNames z; change State at z; apply Same.cutS h0 (x := z); unfold z; clear z; rotate_left; intro h; clear_value z; apply Same.letS h; clear h z; intro z h)
    | (extract_lets +onlyGivenNames z; change _ × State at z; apply Same.cut2 h0 (x := z); unfold z; clear z; rotate_left; intro h; clear_value z; apply Same.let2 (x := z) h; clear h z; intro z h)
    | (extract_lets +onlyGivenNames z; clear_value z; apply Same.letAny z; clear z; intro z)
    | apply Same.ite
    | apply xteFault_frame
    | apply chooseXte_frame
    | apply finc_frame
    | apply ctxUpd_frame
    | apply fon_frame
    | apply ctxFail_frame
    | apply ctxSquash_frame)

theorem apstTimer_frame {m : Nat} {s0 : State} : ∀ s x1, 2100258 &&& m = 2100258 → Same m s0 s → Same m s0 (apstTimer s x1) := by
  intro s x1 hM h
  refine Same.run hM h fun h0 => ?_
  unfold apstTimer
  repeat' (with_reducible first
    | assumption
    | exact Same.bits rfl
    | (extract_lets +onlyGivenNames z; change State at z; apply Same.cutS h0 (x := z); unfold z; clear z; rotate_left; intro h; clear_value z; apply Same.letS h; clear h z; intro z h)
    | (extract_lets +onlyGivenNames z; clear_value z; apply Same.letAny z; clear z; intro z)
    | apply Same.ite
    | apply reach_frame
    | apply psRefresh_frame
    | apply portUpd_frame
    | split)

theorem execApstIdleTimer_frame {m : Nat} {s0 : State} : ∀ x0 s, 2100258 &&& m = 2100258 → Same m s0 s → SameT m s0 (execApstIdleTimer x0 s) := by
  intro x0 s hM h
  refine SameT.run hM h fun h0 => ?_
  unfold execApstIdleTimer
  repeat' (with_reducible first
    | assumption
    | exact Same.bits rfl
    | apply SameT.next
    | apply apstTimer_frame)

theorem dlPut_frame {m : Nat} {s0 : State} : ∀ s x1 x2, 67108864 &&& m = 67108864 → Same m s0 s → Same m s0 (dlPut s x1 x2) := by
  intro s x1 x2 hM h
  refine Same.run hM h fun h0 => ?_
  unfold dlPut
  repeat' (with_reducible first
    | (extract_lets +onlyGivenNames z; clear_value z; apply Same.letAny z; clear z; intro z)
    | (refine Same.updBot ?_ rfl; assumption))

theorem lockSet_frame {m : Nat} {s0 : State} : ∀ s x1 x2, 33554432 &&& m = 33554432 → Same m s0 s → Same m s0 (lockSet s x1 x2) := by
  intro s x1 x2 hM h
  refine Same.run hM h fun h0 => ?_
  unfold lockSet
  repeat' (with_reducible first
    | (extract_lets +onlyGivenNames z; clear_value z; apply Same.letAny z; clear z; intro z)
    | (refine Same.updCls ?_ rfl; assumption))

theorem slotLock_frame {m : Nat} {s0 : State} : ∀ s x1 x2, 33554432 &&& m = 33554432 → Same m s0 s → Same m s0 (slotLock s x1 x2) := by
  intro s x1 x2 hM h
  refine Same.run hM h fun h0 => ?_
  unfold slotLock
  repeat' (with_reducible first
    | assumption
    | intro _
    | exact Same.bits rfl
    | apply lockSet_frame
    | apply Same.foldl)

theorem bcrPut_frame {m : Nat} {s0 : State} : ∀ s x1, 67108866 &&& m = 67108866 → Same m s0 s → Same m s0 (bcrPut s x1) := by
  intro s x1 hM h
  refine Same.run hM h fun h0 => ?_
  unfold bcrPut
  repeat' (with_reducible first
    | assumption
    | exact Same.bits rfl
    | (extract_lets +onlyGivenNames z; change State at z; apply Same.cutS h0 (x := z); unfold z; clear z; rotate_left; intro h; clear_value z; apply Same.letS h; clear h z; intro z h)
    | (extract_lets +onlyGivenNames z; clear_value z; apply Same.letAny z; clear z; intro z)
    | apply fset_frame
    | (refine Same.updBot ?_ rfl; assumption))

theorem sectorsErase_frame {m : Nat} {s0 : State} : ∀ s x1 x2, 33554432 &&& m = 33554432 → Same m s0 s → Same m s0 (sectorsErase s x1 x2) := by
  intro s x1 x2 hM h
  refine Same.run hM h fun h0 => ?_
  unfold sectorsErase
  repeat' (with_reducible first
    | (extract_lets +onlyGivenNames z; change _ → _ at z; apply Same.cutF z; subst z)
    | (extract_lets +onlyGivenNames z; change State at z; apply Same.cutS h0 (x := z); unfold z; clear z; rotate_left; intro h; clear_value z; apply Same.letS h; clear h z; intro z h)
    | (extract_lets +onlyGivenNames z; clear_value z; apply Same.letAny z; clear z; intro z)
    | (refine Same.updCls ?_ rfl; assumption))

theorem slotPrepare_frame {m : Nat} {s0 : State} : ∀ s x1 x2, 100663298 &&& m = 100663298 → Same m s0 s → Same m s0 (slotPrepare s x1 x2) := by
  intro s x1 x2 hM h
  refine Same.run hM h fun h0 => ?_
  unfold slotPrepare
  repeat' (with_reducible first
    | assumption
    | exact Same.bits rfl
    | (extract_lets +onlyGivenNames z; change State at z; apply Same.cutS h0 (x := z); unfold z; clear z; rotate_left; intro h; clear_value z; apply Same.letS h; clear h z; intro z h)
    | (extract_lets +onlyGivenNames z; clear_value z; apply Same.letAny z; clear z; intro z)
    | apply slotLock_frame
    | apply bcrPut_frame
    | apply sectorsErase_frame
    | (refine Same.updBot ?_ rfl; assumption))

theorem fwDownload_frame {m : Nat} {s0 : State} : ∀ x0 x1 s, 100663298 &&& m = 100663298 → Same m s0 s → Same2 m s0 (fwDownload x0 x1 s) := by
  intro x0 x1 s hM h
  refine Same2.run hM h fun h0 => ?_
  unfold fwDownload
  repeat' (with_reducible first
    | assumption
    | exact Same.bits rfl
    | apply Same2.ite
    | apply dlPut_frame
    | apply slotPrepare_frame
    | apply Same2.mk')

theorem gatherClose_frame {m : Nat} {s0 : State} : ∀ s, 524290 &&& m = 524290 → Same m s0 s → Same m s0 (gatherClose s) := by
  intro s hM h
  refine Same.run hM h fun h0 => ?_
  unfold gatherClose
  repeat' (with_reducible first
    | assumption
    | exact Same.bits rfl
    | (extract_lets +onlyGivenNames z; change State at z; apply Same.cutS h0 (x := z); unfold z; clear z; rotate_left; intro h; clear_value z; apply Same.letS h; clear h z; intro z h)
    | (extract_lets +onlyGivenNames z; clear_value z; apply Same.letAny z; clear z; intro z)
    | apply Same.ite
    | apply foff_frame
    | apply fset_frame
    | (refine Same.updDmc ?_ rfl; assumption))

theorem execGatherClose_frame {m : Nat} {s0 : State} : ∀ x0 s, 2622482 &&& m = 2622482 → Same m s0 s → SameT m s0 (execGatherClose x0 s) := by
  intro x0 s hM h
  refine SameT.run hM h fun h0 => ?_
  unfold execGatherClose
  repeat' (with_reducible first
    | assumption
    | intro _
    | exact Same.bits rfl
    | apply SameT.next
    | apply gated_frame
    | apply gatherClose_frame)

theorem execDescZqCal_frame {m : Nat} {s0 : State} : ∀ x0 s, 146275922 &&& m = 146275922 → Same m s0 s → SameT m s0 (execDescZqCal x0 s) := by
  intro x0 s hM h
  refine SameT.run hM h fun h0 => ?_
  unfold execDescZqCal
  repeat' (with_reducible first
    | assumption
    | exact Same.bits rfl
    | apply SameT.next
    | apply takeOp_frame)

theorem yieldOverrun_frame {m : Nat} {s0 : State} : ∀ s x1 x2 x3, 146275954 &&& m = 146275954 → Same m s0 s → Same m s0 (yieldOverrun s x1 x2 x3) := by
  intro s x1 x2 x3 hM h
  refine Same.run hM h fun h0 => ?_
  unfold yieldOverrun
  repeat' (with_reducible first
    | assumption
    | exact Same.bits rfl
    | (extract_lets +onlyGivenNames z; change State at z; apply Same.cutS h0 (x := z); unfold z; clear z; rotate_left; intro h; clear_value z; apply Same.letS h; clear h z; intro z h)
    | (extract_lets +onlyGivenNames z; change _ × _ × State at z; apply Same.cut22 h0 (x := z); unfold z; clear z; rotate_left; intro h; clear_value z; apply Same.let22 (x := z) h; clear h z; intro z h)
    | (extract_lets +onlyGivenNames z; change _ × State at z; apply Same.cut2 h0 (x := z); unfold z; clear z; rotate_left; intro h; clear_value z; apply Same.let2 (x := z) h; clear h z; intro z h)
    | (extract_lets +onlyGivenNames z; clear_value z; apply Same.letAny z; clear z; intro z)
    | apply Same.ite
    | apply reach_frame
    | apply chsVio_frame
    | split
    | dsimp -zeta only)

theorem execYieldOverrun_frame {m : Nat} {s0 : State} : ∀ x0 x1 x2 s, 146275954 &&& m = 146275954 → Same m s0 s → SameT m s0 (execYieldOverrun x0 x1 x2 s) := by
  intro x0 x1 x2 s hM h
  refine SameT.run hM h fun h0 => ?_
  unfold execYieldOverrun
  repeat' (with_reducible first
    | assumption
    | exact Same.bits rfl
    | apply SameT.next
    | apply yieldOverrun_frame)

theorem limitSet_frame {m : Nat} {s0 : State} : ∀ s, 32770 &&& m = 32770 → Same m s0 s → Same m s0 (limitSet s) := by
  intro s hM h
  refine Same.run hM h fun h0 => ?_
  unfold limitSet
  repeat' (with_reducible first
    | assumption
    | exact Same.bits rfl
    | (extract_lets +onlyGivenNames z; change State at z; apply Same.cutS h0 (x := z); unfold z; clear z; rotate_left; intro h; clear_value z; apply Same.letS h; clear h z; intro z h)
    | (extract_lets +onlyGivenNames z; clear_value z; apply Same.letAny z; clear z; intro z)
    | apply Same.ite
    | apply fset_frame
    | apply urgency_frame
    | apply fon_frame)

theorem testSchedule_frame {m : Nat} {s0 : State} : ∀ s, 2129922 &&& m = 2129922 → Same m s0 s → Same m s0 (testSchedule s) := by
  intro s hM h
  refine Same.run hM h fun h0 => ?_
  unfold testSchedule
  repeat' (with_reducible first
    | assumption
    | exact Same.bits rfl
    | (extract_lets +onlyGivenNames z; change State at z; apply Same.cutS h0 (x := z); unfold z; clear z; rotate_left; intro h; clear_value z; apply Same.letS h; clear h z; intro z h)
    | (extract_lets +onlyGivenNames z; clear_value z; apply Same.letAny z; clear z; intro z)
    | apply Same.ite
    | apply fset_frame
    | apply limitSet_frame
    | (refine Same.updSgd ?_ rfl; assumption))

theorem execDischargeTestDue_frame {m : Nat} {s0 : State} : ∀ s, 2129954 &&& m = 2129954 → Same m s0 s → SameT m s0 (execDischargeTestDue s) := by
  intro s hM h
  refine SameT.run hM h fun h0 => ?_
  unfold execDischargeTestDue
  repeat' (with_reducible first
    | assumption
    | exact Same.bits rfl
    | apply SameT.next
    | apply Same.ite
    | apply testSchedule_frame
    | apply reach_frame)

theorem putBytes_frame {m : Nat} {s0 : State} : ∀ s x1 x2 x3, 2 &&& m = 2 → Same m s0 s → Same m s0 (putBytes s x1 x2 x3) := by
  intro s x1 x2 x3 hM h
  refine Same.run hM h fun h0 => ?_
  unfold putBytes
  repeat' (with_reducible first
    | assumption
    | intro _
    | exact Same.bits rfl
    | apply rset_frame
    | apply Same.foldl)

theorem snoopShow_frame {m : Nat} {s0 : State} : ∀ s x1 x2, 2098178 &&& m = 2098178 → Same m s0 s → Same m s0 (snoopShow s x1 x2) := by
  intro s x1 x2 hM h
  refine Same.run hM h fun h0 => ?_
  unfold snoopShow
  repeat' (with_reducible first
    | assumption
    | exact Same.bits rfl
    | (extract_lets +onlyGivenNames z; change State at z; apply Same.cutS h0 (x := z); unfold z; clear z; rotate_left; intro h; clear_value z; apply Same.letS h; clear h z; intro z h)
    | (extract_lets +onlyGivenNames z; change _ × _ × State at z; apply Same.cut22 h0 (x := z); unfold z; clear z; rotate_left; intro h; clear_value z; apply Same.let22 (x := z) h; clear h z; intro z h)
    | (extract_lets +onlyGivenNames z; change _ × State at z; apply Same.cut2 h0 (x := z); unfold z; clear z; rotate_left; intro h; clear_value z; apply Same.let2 (x := z) h; clear h z; intro z h)
    | (extract_lets +onlyGivenNames z; clear_value z; apply Same.letAny z; clear z; intro z)
    | apply Same.ite
    | apply fset_frame
    | apply foff_frame
    | apply putBytes_frame
    | apply post_frame
    | apply fon_frame
    | split
    | dsimp -zeta only)

theorem snoopEnd_frame {m : Nat} {s0 : State} : ∀ s, 10486786 &&& m = 10486786 → Same m s0 s → Same m s0 (snoopEnd s) := by
  intro s hM h
  refine Same.run hM h fun h0 => ?_
  unfold snoopEnd
  repeat' (with_reducible first
    | assumption
    | exact Same.bits rfl
    | apply snoopShow_frame
    | (refine Same.updDge ?_ rfl; assumption)
    | split
    | dsimp -zeta only)

theorem snoopArm_frame {m : Nat} {s0 : State} : ∀ s x1, 10486786 &&& m = 10486786 → Same m s0 s → Same m s0 (snoopArm s x1) := by
  intro s x1 hM h
  refine Same.run hM h fun h0 => ?_
  unfold snoopArm
  repeat' (with_reducible first
    | assumption
    | exact Same.bits rfl
    | (extract_lets +onlyGivenNames z; change State at z; apply Same.cutS h0 (x := z); unfold z; clear z; rotate_left; intro h; clear_value z; apply Same.letS h; clear h z; intro z h)
    | (extract_lets +onlyGivenNames z; clear_value z; apply Same.letAny z; clear z; intro z)
    | apply Same.ite
    | apply fset_frame
    | apply snoopEnd_frame
    | apply putBytes_frame
    | apply finc_frame
    | apply fon_frame
    | (refine Same.updDge ?_ rfl; assumption))

theorem wrSnoopCtrl_frame {m : Nat} {s0 : State} : ∀ s x1 x2, 10486786 &&& m = 10486786 → Same m s0 s → Same m s0 (wrSnoopCtrl s x1 x2) := by
  intro s x1 x2 hM h
  refine Same.run hM h fun h0 => ?_
  unfold wrSnoopCtrl
  repeat' (with_reducible first
    | assumption
    | exact Same.bits rfl
    | (extract_lets +onlyGivenNames z; change State at z; apply Same.cutS h0 (x := z); unfold z; clear z; rotate_left; intro h; clear_value z; apply Same.letS h; clear h z; intro z h)
    | apply Same.ite
    | apply snoopEnd_frame
    | apply snoopArm_frame)

theorem execSnoopEnd_frame {m : Nat} {s0 : State} : ∀ x0 s, 10486802 &&& m = 10486802 → Same m s0 s → SameT m s0 (execSnoopEnd x0 s) := by
  intro x0 s hM h
  refine SameT.run hM h fun h0 => ?_
  unfold execSnoopEnd
  repeat' (with_reducible first
    | assumption
    | intro _
    | exact Same.bits rfl
    | apply SameT.next
    | apply gated_frame
    | apply wrSnoopCtrl_frame)

theorem svcBypass_frame {m : Nat} {s0 : State} : ∀ s, 256 &&& m = 256 → Same m s0 s → Same m s0 (svcBypass s) := by
  intro s hM h
  refine Same.run hM h fun h0 => ?_
  unfold svcBypass
  repeat' (with_reducible first
    | (extract_lets +onlyGivenNames z; clear_value z; apply Same.letAny z; clear z; intro z)
    | (refine Same.updSvc ?_ rfl; assumption))

theorem decodeOne_frame {m : Nat} {s0 : State} : ∀ s x1, 2 &&& m = 2 → Same m s0 s → Same2 m s0 (decodeOne s x1) := by
  intro s x1 hM h
  refine Same2.run hM h fun h0 => ?_
  unfold decodeOne
  repeat' (with_reducible first
    | assumption
    | exact Same.bits rfl
    | (extract_lets +onlyGivenNames z; change State at z; apply Same.cutS h0 (x := z); unfold z; clear z; rotate_left; intro h; clear_value z; apply Same.letS h; clear h z; intro z h)
    | apply Same.ite
    | apply finc_frame
    | apply fon_frame
    | split
    | apply Same2.mk')

theorem postOps_frame {m : Nat} {s0 : State} : ∀ s x1 x2, 131072 &&& m = 131072 → Same m s0 s → Same m s0 (postOps s x1 x2) := by
  have H : ∀ {s0 : State} s x1 x2, Same 131072 s0 s → Same 131072 s0 (postOps s x1 x2) := by
    intro s0 s x1 x2 h0
    induction x2 generalizing s x1 with
    | nil =>
      rw [postOps]
      repeat' (with_reducible first
      | assumption
      | exact Same.bits rfl
      | apply ih
      | apply chsPush_frame)
    | cons a l ih =>
      rw [postOps]
      repeat' (with_reducible first
      | assumption
      | exact Same.bits rfl
      | apply ih
      | apply chsPush_frame)
  intro s x1 x2 hM h
  exact Same.step hM (H s x1 x2 (Same.refl _ _)) h

theorem countIssue_frame {m : Nat} {s0 : State} : ∀ s x1, 32770 &&& m = 32770 → Same m s0 s → Same m s0 (countIssue s x1) := by
  intro s x1 hM h
  refine Same.run hM h fun h0 => ?_
  unfold countIssue
  repeat' (with_reducible first
    | assumption
    | exact Same.bits rfl
    | (extract_lets +onlyGivenNames z; change State at z; apply Same.cutS h0 (x := z); unfold z; clear z; rotate_left; intro h; clear_value z; apply Same.letS h; clear h z; intro z h)
    | (extract_lets +onlyGivenNames z; change _ × _ × State at z; apply Same.cut22 h0 (x := z); unfold z; clear z; rotate_left; intro h; clear_value z; apply Same.let22 (x := z) h; clear h z; intro z h)
    | (extract_lets +onlyGivenNames z; change _ × State at z; apply Same.cut2 h0 (x := z); unfold z; clear z; rotate_left; intro h; clear_value z; apply Same.let2 (x := z) h; clear h z; intro z h)
    | (extract_lets +onlyGivenNames z; clear_value z; apply Same.letAny z; clear z; intro z)
    | apply Same.ite
    | apply finc_frame
    | (refine Same.updDsc ?_ rfl; assumption)
    | split
    | dsimp -zeta only)

theorem dscIssue_frame {m : Nat} {s0 : State} : ∀ s x1, 163842 &&& m = 163842 → Same m s0 s → Same m s0 (dscIssue s x1) := by
  intro s x1 hM h
  refine Same.run hM h fun h0 => ?_
  unfold dscIssue
  repeat' (with_reducible first
    | assumption
    | intro _
    | exact Same.bits rfl
    | (extract_lets +onlyGivenNames z; change State at z; apply Same.cutS h0 (x := z); unfold z; clear z; rotate_left; intro h; clear_value z; apply Same.letS h; clear h z; intro z h)
    | (extract_lets +onlyGivenNames z; change _ × _ × State at z; apply Same.cut22 h0 (x := z); unfold z; clear z; rotate_left; intro h; clear_value z; apply Same.let22 (x := z) h; clear h z; intro z h)
    | (extract_lets +onlyGivenNames z; change _ × State at z; apply Same.cut2 h0 (x := z); unfold z; clear z; rotate_left; intro h; clear_value z; apply Same.let2 (x := z) h; clear h z; intro z h)
    | (extract_lets +onlyGivenNames z; clear_value z; apply Same.letAny z; clear z; intro z)
    | apply Same.ite
    | apply postOps_frame
    | apply queuePut_frame
    | apply unpark_frame
    | apply countIssue_frame
    | (refine Same.updDsc ?_ rfl; assumption)
    | apply Same.foldl
    | split
    | dsimp -zeta only)

theorem recPut_frame {m : Nat} {s0 : State} : ∀ s x1, 4194306 &&& m = 4194306 → Same m s0 s → Same m s0 (recPut s x1) := by
  intro s x1 hM h
  refine Same.run hM h fun h0 => ?_
  unfold recPut
  repeat' (with_reducible first
    | exact Same.bits rfl
    | (extract_lets +onlyGivenNames z; clear_value z; apply Same.letAny z; clear z; intro z)
    | apply kstShow_frame
    | (refine Same.updKst ?_ rfl; assumption))

theorem kslotPut_frame {m : Nat} {s0 : State} : ∀ s x1 x2, 4194304 &&& m = 4194304 → Same m s0 s → Same m s0 (kslotPut s x1 x2) := by
  intro s x1 x2 hM h
  refine Same.run hM h fun h0 => ?_
  unfold kslotPut
  repeat' (with_reducible first
    | (extract_lets +onlyGivenNames z; clear_value z; apply Same.letAny z; clear z; intro z)
    | (refine Same.updKst ?_ rfl; assumption))

theorem slotPut_frame {m : Nat} {s0 : State} : ∀ s x1 x2, 4194306 &&& m = 4194306 → Same m s0 s → Same m s0 (slotPut s x1 x2) := by
  intro s x1 x2 hM h
  refine Same.run hM h fun h0 => ?_
  unfold slotPut
  repeat' (with_reducible first
    | assumption
    | exact Same.bits rfl
    | apply kstShow_frame
    | apply kslotPut_frame)

theorem keyBind_frame {m : Nat} {s0 : State} : ∀ x0 x1 x2 s, 4194306 &&& m = 4194306 → Same m s0 s → Same2 m s0 (keyBind x0 x1 x2 s) := by
  intro x0 x1 x2 s hM h
  refine Same2.run hM h fun h0 => ?_
  unfold keyBind
  repeat' (with_reducible first
    | assumption
    | exact Same.bits rfl
    | (extract_lets +onlyGivenNames z; clear_value z; apply Same.letAny z; clear z; intro z)
    | apply Same2.ite
    | apply recPut_frame
    | apply slotPut_frame
    | split
    | apply Same2.mk')

theorem execKeyBind_frame {m : Nat} {s0 : State} : ∀ x0 s, 6295170 &&& m = 6295170 → Same m s0 s → SameT m s0 (execKeyBind x0 s) := by
  intro x0 s hM h
  refine SameT.run hM h fun h0 => ?_
  unfold execKeyBind
  repeat' (with_reducible first
    | assumption
    | intro _
    | exact Same.bits rfl
    | apply SameT.next
    | apply mbxRun_frame
    | apply keyBind_frame
    | apply OpKeeps.opDef)

theorem bankShow_frame {m : Nat} {s0 : State} : ∀ s x1, 2097154 &&& m = 2097154 → Same m s0 s → Same m s0 (bankShow s x1) := by
  intro s x1 hM h
  refine Same.run hM h fun h0 => ?_
  unfold bankShow
  repeat' (with_reducible first
    | assumption
    | intro _
    | exact Same.bits rfl
    | (extract_lets +onlyGivenNames z; change State at z; apply Same.cutS h0 (x := z); unfold z; clear z; rotate_left; intro h; clear_value z; apply Same.letS h; clear h z; intro z h)
    | (extract_lets +onlyGivenNames z; change _ × _ × State at z; apply Same.cut22 h0 (x := z); unfold z; clear z; rotate_left; intro h; clear_value z; apply Same.let22 (x := z) h; clear h z; intro z h)
    | (extract_lets +onlyGivenNames z; change _ × State at z; apply Same.cut2 h0 (x := z); unfold z; clear z; rotate_left; intro h; clear_value z; apply Same.let2 (x := z) h; clear h z; intro z h)
    | (extract_lets +onlyGivenNames z; clear_value z; apply Same.letAny z; clear z; intro z)
    | apply fset_frame
    | (refine Same.updSgd ?_ rfl; assumption)
    | dsimp -zeta only)

theorem execTestV1Sample_frame {m : Nat} {s0 : State} : ∀ x0 s, 2097186 &&& m = 2097186 → Same m s0 s → SameT m s0 (execTestV1Sample x0 s) := by
  intro x0 s hM h
  refine SameT.run hM h fun h0 => ?_
  unfold execTestV1Sample
  repeat' (with_reducible first
    | assumption
    | exact Same.bits rfl
    | apply SameT.next
    | (extract_lets +onlyGivenNames z; change State at z; apply Same.cutS h0 (x := z); unfold z; clear z; rotate_left; intro h; clear_value z; apply Same.letS h; clear h z; intro z h)
    | (extract_lets +onlyGivenNames z; change _ × _ × State at z; apply Same.cut22 h0 (x := z); unfold z; clear z; rotate_left; intro h; clear_value z; apply Same.let22 (x := z) h; clear h z; intro z h)
    | (extract_lets +onlyGivenNames z; change _ × State at z; apply Same.cut2 h0 (x := z); unfold z; clear z; rotate_left; intro h; clear_value z; apply Same.let2 (x := z) h; clear h z; intro z h)
    | (extract_lets +onlyGivenNames z; clear_value z; apply Same.letAny z; clear z; intro z)
    | apply SameT.ite
    | apply Same.ite
    | apply reach_frame
    | apply bankShow_frame
    | (refine Same.updSgd ?_ rfl; assumption)
    | split
    | dsimp -zeta only)

theorem parityPut_frame {m : Nat} {s0 : State} : ∀ s x1, 16384 &&& m = 16384 → Same m s0 s → Same m s0 (parityPut s x1) := by
  intro s x1 hM h
  refine Same.run hM h fun h0 => ?_
  unfold parityPut
  repeat' (with_reducible first
    | assumption
    | (extract_lets +onlyGivenNames z; clear_value z; apply Same.letAny z; clear z; intro z)
    | apply Same.ite
    | (refine Same.updPlc ?_ rfl; assumption)
    | split)

theorem padFree_frame {m : Nat} {s0 : State} : ∀ s x1, 16384 &&& m = 16384 → Same m s0 s → Same m s0 (padFree s x1) := by
  intro s x1 hM h
  refine Same.run hM h fun h0 => ?_
  unfold padFree
  repeat' (with_reducible first
    | (extract_lets +onlyGivenNames z; clear_value z; apply Same.letAny z; clear z; intro z)
    | (refine Same.updPlc ?_ rfl; assumption))

theorem pagePad_frame {m : Nat} {s0 : State} : ∀ s x1, 49154 &&& m = 49154 → Same m s0 s → Same m s0 (pagePad s x1) := by
  intro s x1 hM h
  refine Same.run hM h fun h0 => ?_
  unfold pagePad
  repeat' (with_reducible first
    | assumption
    | intro _
    | exact Same.bits rfl
    | (extract_lets +onlyGivenNames z; change State at z; apply Same.cutS h0 (x := z); unfold z; clear z; rotate_left; intro h; clear_value z; apply Same.letS h; clear h z; intro z h)
    | apply parityPut_frame
    | apply padFree_frame
    | apply programPage_frame
    | apply Same.foldl
    | split)

theorem pageOpenRest_frame {m : Nat} {s0 : State} : ∀ s x1, 16384 &&& m = 16384 → Same m s0 s → Same m s0 (pageOpenRest s x1) := by
  intro s x1 hM h
  refine Same.run hM h fun h0 => ?_
  unfold pageOpenRest
  repeat' (with_reducible first
    | assumption
    | intro _
    | exact Same.bits rfl
    | (extract_lets +onlyGivenNames z; change State at z; apply Same.cutS h0 (x := z); unfold z; clear z; rotate_left; intro h; clear_value z; apply Same.letS h; clear h z; intro z h)
    | (extract_lets +onlyGivenNames z; change _ × _ × State at z; apply Same.cut22 h0 (x := z); unfold z; clear z; rotate_left; intro h; clear_value z; apply Same.let22 (x := z) h; clear h z; intro z h)
    | (extract_lets +onlyGivenNames z; change _ × State at z; apply Same.cut2 h0 (x := z); unfold z; clear z; rotate_left; intro h; clear_value z; apply Same.let2 (x := z) h; clear h z; intro z h)
    | (extract_lets +onlyGivenNames z; clear_value z; apply Same.letAny z; clear z; intro z)
    | apply Same.ite
    | apply Same2.ite
    | apply addStripe_frame
    | (refine Same.updPlc ?_ rfl; assumption)
    | (refine Same.updPlc ?_ rfl; apply Same.ofPair2; assumption)
    | apply Same.foldl
    | apply Same2.foldl
    | (apply Same.ofPair2; assumption)
    | (apply Same2.out; apply addStripe_frame)
    | split
    | dsimp -zeta only
    | apply Same2.mk')

theorem padStripe_frame {m : Nat} {s0 : State} : ∀ s x1, 49154 &&& m = 49154 → Same m s0 s → Same m s0 (padStripe s x1) := by
  intro s x1 hM h
  refine Same.run hM h fun h0 => ?_
  unfold padStripe
  repeat' (with_reducible first
    | assumption
    | exact Same.bits rfl
    | apply Same.ite
    | apply pagePad_frame
    | apply pageOpenRest_frame
    | split
    | dsimp -zeta only)

theorem stripesClose_frame {m : Nat} {s0 : State} : ∀ s, 124930 &&& m = 124930 → Same m s0 s → Same m s0 (stripesClose s) := by
  intro s hM h
  refine Same.run hM h fun h0 => ?_
  unfold stripesClose
  repeat' (with_reducible first
    | assumption
    | intro _
    | exact Same.bits rfl
    | (extract_lets +onlyGivenNames z; change State at z; apply Same.cutS h0 (x := z); unfold z; clear z; rotate_left; intro h; clear_value z; apply Same.letS h; clear h z; intro z h)
    | apply leaveTail_frame
    | apply padStripe_frame
    | apply Same.foldl)

theorem psEntry_frame {m : Nat} {s0 : State} : ∀ s, 2223106 &&& m = 2223106 → Same m s0 s → Same m s0 (psEntry s) := by
  intro s hM h
  refine Same.run hM h fun h0 => ?_
  unfold psEntry
  repeat' (with_reducible first
    | assumption
    | exact Same.bits rfl
    | (extract_lets +onlyGivenNames z; change State at z; apply Same.cutS h0 (x := z); unfold z; clear z; rotate_left; intro h; clear_value z; apply Same.letS h; clear h z; intro z h)
    | (extract_lets +onlyGivenNames z; change _ × _ × State at z; apply Same.cut22 h0 (x := z); unfold z; clear z; rotate_left; intro h; clear_value z; apply Same.let22 (x := z) h; clear h z; intro z h)
    | (extract_lets +onlyGivenNames z; change _ × State at z; apply Same.cut2 h0 (x := z); unfold z; clear z; rotate_left; intro h; clear_value z; apply Same.let2 (x := z) h; clear h z; intro z h)
    | (extract_lets +onlyGivenNames z; clear_value z; apply Same.letAny z; clear z; intro z)
    | apply Same.ite
    | apply tailWrite_frame
    | apply stripesClose_frame
    | apply finc_frame
    | apply psSet_frame
    | apply psRefreshDram_frame
    | apply foff_frame
    | (refine Same.updHst ?_ rfl; assumption)
    | split
    | dsimp -zeta only)

theorem unitDecoded_frame {m : Nat} {s0 : State} : ∀ s x1 x2 x3 x4, 2048 &&& m = 2048 → Same m s0 s → Same m s0 (unitDecoded s x1 x2 x3 x4) := by
  intro s x1 x2 x3 x4 hM h
  refine Same.run hM h fun h0 => ?_
  unfold unitDecoded
  repeat' (with_reducible first
    | assumption
    | exact Same.bits rfl
    | (extract_lets +onlyGivenNames z; clear_value z; apply Same.letAny z; clear z; intro z)
    | apply ctxUpd_frame)

theorem bgDone_frame {m : Nat} {s0 : State} : ∀ s x1 x2, 49154 &&& m = 49154 → Same m s0 s → Same m s0 (bgDone s x1 x2) := by
  intro s x1 x2 hM h
  refine Same.run hM h fun h0 => ?_
  unfold bgDone
  repeat' (with_reducible first
    | assumption
    | intro _
    | exact Same.bits rfl
    | apply bgEnd_frame
    | dsimp -zeta only)

theorem seqBad_frame {m : Nat} {s0 : State} : ∀ s x1 x2 x3 x4, 2098178 &&& m = 2098178 → Same m s0 s → Same m s0 (seqBad s x1 x2 x3 x4) := by
  intro s x1 x2 x3 x4 hM h
  refine Same.run hM h fun h0 => ?_
  unfold seqBad
  repeat' (with_reducible first
    | assumption
    | exact Same.bits rfl
    | apply post_frame
    | apply fon_frame
    | dsimp -zeta only)

theorem bgCombine_frame {m : Nat} {s0 : State} : ∀ s x1 x2, 3263490 &&& m = 3263490 → Same m s0 s → Same m s0 (bgCombine s x1 x2) := by
  intro s x1 x2 hM h
  refine Same.run hM h fun h0 => ?_
  unfold bgCombine
  repeat' (with_reducible first
    | assumption
    | intro _
    | exact Same.bits rfl
    | (extract_lets +onlyGivenNames z; change State at z; apply Same.cutS h0 (x := z); unfold z; clear z; rotate_left; intro h; clear_value z; apply Same.letS h; clear h z; intro z h)
    | (extract_lets +onlyGivenNames z; change _ × _ × State at z; apply Same.cut22 h0 (x := z); unfold z; clear z; rotate_left; intro h; clear_value z; apply Same.let22 (x := z) h; clear h z; intro z h)
    | (extract_lets +onlyGivenNames z; change _ × State at z; apply Same.cut2 h0 (x := z); unfold z; clear z; rotate_left; intro h; clear_value z; apply Same.let2 (x := z) h; clear h z; intro z h)
    | (extract_lets +onlyGivenNames z; clear_value z; apply Same.letAny z; clear z; intro z)
    | apply Same.ite
    | apply bgDone_frame
    | apply fon_frame
    | apply finc_frame
    | apply bgEnd_frame
    | apply testFail_frame
    | apply seqBad_frame
    | apply reboundFail_frame
    | (refine Same.updDsc ?_ rfl; assumption)
    | split
    | dsimp -zeta only)

theorem reboundEnd_frame {m : Nat} {s0 : State} : ∀ s x1, 3263490 &&& m = 3263490 → Same m s0 s → Same m s0 (reboundEnd s x1) := by
  intro s x1 hM h
  refine Same.run hM h fun h0 => ?_
  unfold reboundEnd
  repeat' (with_reducible first
    | assumption
    | exact Same.bits rfl
    | (extract_lets +onlyGivenNames z; change State at z; apply Same.cutS h0 (x := z); unfold z; clear z; rotate_left; intro h; clear_value z; apply Same.letS h; clear h z; intro z h)
    | (extract_lets +onlyGivenNames z; change _ × _ × State at z; apply Same.cut22 h0 (x := z); unfold z; clear z; rotate_left; intro h; clear_value z; apply Same.let22 (x := z) h; clear h z; intro z h)
    | (extract_lets +onlyGivenNames z; change _ × State at z; apply Same.cut2 h0 (x := z); unfold z; clear z; rotate_left; intro h; clear_value z; apply Same.let2 (x := z) h; clear h z; intro z h)
    | (extract_lets +onlyGivenNames z; clear_value z; apply Same.letAny z; clear z; intro z)
    | apply Same.ite
    | apply bgCombine_frame
    | apply unitDecoded_frame
    | apply fon_frame
    | apply finc_frame
    | apply seqBad_frame
    | apply readDone_frame
    | apply unitSt_frame
    | apply reboundFail_frame
    | (refine Same.updDsc ?_ rfl; assumption)
    | split
    | dsimp -zeta only)

theorem copyKnown_frame {m : Nat} {s0 : State} : ∀ x0 s x2, 114690 &&& m = 114690 → Same m s0 s → Same m s0 (copyKnown x0 s x2) := by
  intro x0 s x2 hM h
  refine Same.run hM h fun h0 => ?_
  unfold copyKnown
  repeat' (with_reducible first
    | assumption
    | exact Same.bits rfl
    | apply copyPut_frame
    | split
    | dsimp -zeta only)

theorem repairCount_frame {m : Nat} {s0 : State} : ∀ s x1 x2 x3, 137620482 &&& m = 137620482 → Same m s0 s → Same m s0 (repairCount s x1 x2 x3) := by
  intro s x1 x2 x3 hM h
  refine Same.run hM h fun h0 => ?_
  unfold repairCount
  repeat' (with_reducible first
    | assumption
    | exact Same.bits rfl
    | (extract_lets +onlyGivenNames z; change State at z; apply Same.cutS h0 (x := z); unfold z; clear z; rotate_left; intro h; clear_value z; apply Same.letS h; clear h z; intro z h)
    | (extract_lets +onlyGivenNames z; change _ × _ × State at z; apply Same.cut22 h0 (x := z); unfold z; clear z; rotate_left; intro h; clear_value z; apply Same.let22 (x := z) h; clear h z; intro z h)
    | (extract_lets +onlyGivenNames z; change _ × State at z; apply Same.cut2 h0 (x := z); unfold z; clear z; rotate_left; intro h; clear_value z; apply Same.let2 (x := z) h; clear h z; intro z h)
    | (extract_lets +onlyGivenNames z; clear_value z; apply Same.letAny z; clear z; intro z)
    | apply Same.ite
    | apply blkPut_frame
    | apply retire_frame
    | split
    | dsimp -zeta only)

theorem repairUnit_frame {m : Nat} {s0 : State} : ∀ s x1 x2 x3 x4 x5, 137620482 &&& m = 137620482 → Same m s0 s → Same m s0 (repairUnit s x1 x2 x3 x4 x5) := by
  intro s x1 x2 x3 x4 x5 hM h
  refine Same.run hM h fun h0 => ?_
  unfold repairUnit
  repeat' (with_reducible first
    | assumption
    | exact Same.bits rfl
    | apply repairCount_frame
    | apply copyKnown_frame
    | dsimp -zeta only)

theorem bgRepair_frame {m : Nat} {s0 : State} : ∀ s x1 x2, 137620482 &&& m = 137620482 → Same m s0 s → Same m s0 (bgRepair s x1 x2) := by
  intro s x1 x2 hM h
  refine Same.run hM h fun h0 => ?_
  unfold bgRepair
  repeat' (with_reducible first
    | assumption
    | exact Same.bits rfl
    | apply Same.ite
    | apply repairCount_frame
    | apply repairUnit_frame
    | split
    | dsimp -zeta only)

theorem execReboundCombine_frame {m : Nat} {s0 : State} : ∀ x0 s, 137620482 &&& m = 137620482 → Same m s0 s → SameT m s0 (execReboundCombine x0 s) := by
  intro x0 s hM h
  refine SameT.run hM h fun h0 => ?_
  unfold execReboundCombine
  repeat' (with_reducible first
    | assumption
    | exact Same.bits rfl
    | apply SameT.next
    | (extract_lets +onlyGivenNames z; change State at z; apply Same.cutS h0 (x := z); unfold z; clear z; rotate_left; intro h; clear_value z; apply Same.letS h; clear h z; intro z h)
    | (extract_lets +onlyGivenNames z; change _ × _ × State at z; apply Same.cut22 h0 (x := z); unfold z; clear z; rotate_left; intro h; clear_value z; apply Same.let22 (x := z) h; clear h z; intro z h)
    | (extract_lets +onlyGivenNames z; change _ × State at z; apply Same.cut2 h0 (x := z); unfold z; clear z; rotate_left; intro h; clear_value z; apply Same.let2 (x := z) h; clear h z; intro z h)
    | (extract_lets +onlyGivenNames z; clear_value z; apply Same.letAny z; clear z; intro z)
    | apply SameT.ite
    | apply Same.ite
    | apply reboundEnd_frame
    | apply bgRepair_frame
    | apply repairUnit_frame
    | split
    | dsimp -zeta only)

theorem clsShow_frame {m : Nat} {s0 : State} : ∀ s, 2 &&& m = 2 → Same m s0 s → Same m s0 (clsShow s) := by
  intro s hM h
  refine Same.run hM h fun h0 => ?_
  unfold clsShow
  repeat' (with_reducible first
    | assumption
    | intro _
    | exact Same.bits rfl
    | (extract_lets +onlyGivenNames z; change State at z; apply Same.cutS h0 (x := z); unfold z; clear z; rotate_left; intro h; clear_value z; apply Same.letS h; clear h z; intro z h)
    | (extract_lets +onlyGivenNames z; clear_value z; apply Same.letAny z; clear z; intro z)
    | apply fset_frame
    | apply foff_frame
    | apply Same.foldl
    | split)

theorem clsRelease_frame {m : Nat} {s0 : State} : ∀ s x1 x2, 33554434 &&& m = 33554434 → Same m s0 s → Same m s0 (clsRelease s x1 x2) := by
  intro s x1 x2 hM h
  refine Same.run hM h fun h0 => ?_
  unfold clsRelease
  repeat' (with_reducible first
    | exact Same.bits rfl
    | (extract_lets +onlyGivenNames z; clear_value z; apply Same.letAny z; clear z; intro z)
    | apply clsShow_frame
    | (refine Same.updCls ?_ rfl; assumption))

theorem featRun_frame {M : Nat} {s0 s : State} (hM : 2048 &&& M = 2048) (c : AdminCmd) (fid : Nat) (f : State → Done × State)
    (hf : ∀ t, Same M s0 t → Same M s0 (f t).2) (h : Same M s0 s) : Same M s0 (featRun s c fid f) := by
  unfold featRun
  dsimp only
  split
  · exact h
  · refine adminRun_frame hM c _ _ (fun t ht => ?_) h
    split
    · exact hf t ht
    · exact ht

theorem featUpd_frame {m : Nat} {s0 : State} : ∀ s x1 x2, 2048 &&& m = 2048 → Same m s0 s → Same m s0 (featUpd s x1 x2) := by
  intro s x1 x2 hM h
  refine Same.run hM h fun h0 => ?_
  unfold featUpd
  repeat' (with_reducible first
    | assumption
    | exact Same.bits rfl
    | apply portUpd_frame)

theorem execSetFeaturesInterruptVectorCfg_frame {m : Nat} {s0 : State} : ∀ x0 s, 2048 &&& m = 2048 → Same m s0 s → SameT m s0 (execSetFeaturesInterruptVectorCfg x0 s) := by
  intro x0 s hM h
  refine SameT.run hM h fun h0 => ?_
  unfold execSetFeaturesInterruptVectorCfg
  repeat' (with_reducible first
    | assumption
    | intro _
    | exact Same.bits rfl
    | apply SameT.next
    | (extract_lets +onlyGivenNames z; change State at z; apply Same.cutS h0 (x := z); unfold z; clear z; rotate_left; intro h; clear_value z; apply Same.letS h; clear h z; intro z h)
    | (extract_lets +onlyGivenNames z; change _ × _ × State at z; apply Same.cut22 h0 (x := z); unfold z; clear z; rotate_left; intro h; clear_value z; apply Same.let22 (x := z) h; clear h z; intro z h)
    | (extract_lets +onlyGivenNames z; change _ × State at z; apply Same.cut2 h0 (x := z); unfold z; clear z; rotate_left; intro h; clear_value z; apply Same.let2 (x := z) h; clear h z; intro z h)
    | (extract_lets +onlyGivenNames z; clear_value z; apply Same.letAny z; clear z; intro z)
    | apply SameT.ite
    | apply Same.ite
    | apply Same2.ite
    | apply featRun_frame
    | apply featUpd_frame
    | split
    | dsimp -zeta only
    | apply Same2.mk')

theorem padRest_frame {m : Nat} {s0 : State} : ∀ s x1 x2 x3 x4, 16384 &&& m = 16384 → Same m s0 s → Same m s0 (padRest s x1 x2 x3 x4) := by
  have H : ∀ {s0 : State} s x1 x2 x3 x4, Same 16384 s0 s → Same 16384 s0 (padRest s x1 x2 x3 x4) := by
    intro s0 s x1 x2 x3 x4 h0
    induction x4 generalizing s x1 x2 x3 with
    | zero =>
      rw [padRest]
      repeat' (with_reducible first
      | assumption
      | exact Same.bits rfl
      | apply ih
      | (extract_lets +onlyGivenNames z; change State at z; apply Same.cutS h0 (x := z); unfold z; clear z; rotate_left; intro h; clear_value z; apply Same.letS h; clear h z; intro z h)
      | (extract_lets +onlyGivenNames z; change _ × _ × State at z; apply Same.cut22 h0 (x := z); unfold z; clear z; rotate_left; intro h; clear_value z; apply Same.let22 (x := z) h; clear h z; intro z h)
      | (extract_lets +onlyGivenNames z; change _ × State at z; apply Same.cut2 h0 (x := z); unfold z; clear z; rotate_left; intro h; clear_value z; apply Same.let2 (x := z) h; clear h z; intro z h)
      | (extract_lets +onlyGivenNames z; clear_value z; apply Same.letAny z; clear z; intro z)
      | apply Same.ite
      | apply Same2.ite
      | apply addStripe_frame
      | (apply Same.ofPair2; assumption)
      | (apply Same2.out; apply addStripe_frame)
      | split
      | dsimp -zeta only
      | apply Same2.mk')
    | succ k ih =>
      rw [padRest]
      repeat' (with_reducible first
      | assumption
      | exact Same.bits rfl
      | apply ih
      | (extract_lets +onlyGivenNames z; change State at z; apply Same.cutS h0 (x := z); unfold z; clear z; rotate_left; intro h; clear_value z; apply Same.letS h; clear h z; intro z h)
      | (extract_lets +onlyGivenNames z; change _ × _ × State at z; apply Same.cut22 h0 (x := z); unfold z; clear z; rotate_left; intro h; clear_value z; apply Same.let22 (x := z) h; clear h z; intro z h)
      | (extract_lets +onlyGivenNames z; change _ × State at z; apply Same.cut2 h0 (x := z); unfold z; clear z; rotate_left; intro h; clear_value z; apply Same.let2 (x := z) h; clear h z; intro z h)
      | (extract_lets +onlyGivenNames z; clear_value z; apply Same.letAny z; clear z; intro z)
      | apply Same.ite
      | apply Same2.ite
      | apply addStripe_frame
      | (apply Same.ofPair2; assumption)
      | (apply Same2.out; apply addStripe_frame)
      | split
      | dsimp -zeta only
      | apply Same2.mk')
  intro s x1 x2 x3 x4 hM h
  exact Same.step hM (H s x1 x2 x3 x4 (Same.refl _ _)) h

theorem stripeAssemble_frame {m : Nat} {s0 : State} : ∀ s x1, 49154 &&& m = 49154 → Same m s0 s → Same m s0 (stripeAssemble s x1) := by
  intro s x1 hM h
  refine Same.run hM h fun h0 => ?_
  unfold stripeAssemble
  repeat' (with_reducible first
    | assumption
    | exact Same.bits rfl
    | (extract_lets +onlyGivenNames z; change State at z; apply Same.cutS h0 (x := z); unfold z; clear z; rotate_left; intro h; clear_value z; apply Same.letS h; clear h z; intro z h)
    | apply Same.ite
    | apply parityPut_frame
    | apply programPage_frame
    | split)

theorem setFull_frame {m : Nat} {s0 : State} : ∀ s x1 x2 x3, 65536 &&& m = 65536 → Same m s0 s → Same m s0 (setFull s x1 x2 x3) := by
  intro s x1 x2 x3 hM h
  refine Same.run hM h fun h0 => ?_
  unfold setFull
  repeat' (with_reducible first
    | assumption
    | intro _
    | exact Same.bits rfl
    | apply Same.ite
    | apply sbClose_frame
    | apply Same.foldl
    | split
    | dsimp -zeta only)

theorem directProgram_frame {m : Nat} {s0 : State} : ∀ s x1, 122882 &&& m = 122882 → Same m s0 s → Same m s0 (directProgram s x1) := by
  intro s x1 hM h
  refine Same.run hM h fun h0 => ?_
  unfold directProgram
  repeat' (with_reducible first
    | assumption
    | intro _
    | exact Same.bits rfl
    | (extract_lets +onlyGivenNames z; change State at z; apply Same.cutS h0 (x := z); unfold z; clear z; rotate_left; intro h; clear_value z; apply Same.letS h; clear h z; intro z h)
    | (extract_lets +onlyGivenNames z; change _ × _ × State at z; apply Same.cut22 h0 (x := z); unfold z; clear z; rotate_left; intro h; clear_value z; apply Same.let22 (x := z) h; clear h z; intro z h)
    | (extract_lets +onlyGivenNames z; change _ × State at z; apply Same.cut2 h0 (x := z); unfold z; clear z; rotate_left; intro h; clear_value z; apply Same.let2 (x := z) h; clear h z; intro z h)
    | (extract_lets +onlyGivenNames z; clear_value z; apply Same.letAny z; clear z; intro z)
    | apply Same.ite
    | apply padRest_frame
    | apply padFree_frame
    | apply zonePut_frame
    | apply setsDone_frame
    | apply setFull_frame
    | apply stripeAssemble_frame
    | apply Same.foldl
    | split
    | dsimp -zeta only)

theorem sliceUpd_frame {m : Nat} {s0 : State} : ∀ s x1 x2, 4096 &&& m = 4096 → Same m s0 s → Same m s0 (sliceUpd s x1 x2) := by
  intro s x1 x2 hM h
  refine Same.run hM h fun h0 => ?_
  unfold sliceUpd
  repeat' (with_reducible first
    | (extract_lets +onlyGivenNames z; clear_value z; apply Same.letAny z; clear z; intro z)
    | (refine Same.updSlm ?_ rfl; assumption))

theorem sharesSet_frame {m : Nat} {s0 : State} : ∀ s x1 x2, 94210 &&& m = 94210 → Same m s0 s → Same2 m s0 (sharesSet s x1 x2) := by
  intro s x1 x2 hM h
  refine Same2.run hM h fun h0 => ?_
  unfold sharesSet
  repeat' (with_reducible first
    | assumption
    | exact Same.bits rfl
    | apply Same2.ite
    | apply journalDef_frame
    | apply sliceUpd_frame
    | split
    | apply Same2.mk')

theorem shareStage_frame {m : Nat} {s0 : State} : ∀ s x1 x2 x3, 94210 &&& m = 94210 → Same m s0 s → Same m s0 (shareStage s x1 x2 x3) := by
  intro s x1 x2 x3 hM h
  refine Same.run hM h fun h0 => ?_
  unfold shareStage
  repeat' (with_reducible first
    | assumption
    | exact Same.bits rfl
    | (extract_lets +onlyGivenNames z; clear_value z; apply Same.letAny z; clear z; intro z)
    | (apply Same2.out; apply sharesSet_frame)
    | split)

theorem ctxHalt_frame {m : Nat} {s0 : State} : ∀ s x1, 1304578 &&& m = 1304578 → Same m s0 s → Same m s0 (ctxHalt s x1) := by
  intro s x1 hM h
  refine Same.run hM h fun h0 => ?_
  unfold ctxHalt
  repeat' (with_reducible first
    | assumption
    | intro _
    | exact Same.bits rfl
    | apply ctxUpd_frame
    | apply actionsOrphan_frame
    | apply ctxSquash_frame
    | apply Same.foldl
    | dsimp -zeta only)

theorem sliceResetStart_frame {m : Nat} {s0 : State} : ∀ s x1 x2, 1571330 &&& m = 1571330 → Same m s0 s → Same2 m s0 (sliceResetStart s x1 x2) := by
  intro s x1 x2 hM h
  refine Same2.run hM h fun h0 => ?_
  unfold sliceResetStart
  repeat' (with_reducible first
    | assumption
    | exact Same.bits rfl
    | (extract_lets +onlyGivenNames z; change State at z; apply Same.cutS h0 (x := z); unfold z; clear z; rotate_left; intro h; clear_value z; apply Same.letS h; clear h z; intro z h)
    | (extract_lets +onlyGivenNames z; clear_value z; apply Same.letAny z; clear z; intro z)
    | apply Same2.ite
    | apply sliceUpd_frame
    | apply slmShow_frame
    | apply sliceSquash_frame
    | apply ctxHalt_frame
    | split
    | apply Same2.mk')

theorem wrSliceReset_frame {m : Nat} {s0 : State} : ∀ s x1 x2, 1571330 &&& m = 1571330 → Same m s0 s → Same m s0 (wrSliceReset s x1 x2) := by
  intro s x1 x2 hM h
  refine Same.run hM h fun h0 => ?_
  unfold wrSliceReset
  repeat' (with_reducible first
    | assumption
    | exact Same.bits rfl
    | apply Same.ite
    | (apply Same2.out; apply sliceResetStart_frame))

theorem genWrite_frame {m : Nat} {s0 : State} : ∀ s x1 x2, 2 &&& m = 2 → Same m s0 s → Same m s0 (genWrite s x1 x2) := by
  intro s x1 x2 hM h
  refine Same.run hM h fun h0 => ?_
  unfold genWrite
  repeat' (with_reducible first
    | assumption
    | intro _
    | (extract_lets +onlyGivenNames z; clear_value z; apply Same.letAny z; clear z; intro z)
    | (apply Same.regsTo; first | assumption | apply genWrite_frame)
    | (apply RegFile.set_wf; assumption)
    | exact Same.bit rfl
    | split)

theorem wrSlm_frame {m : Nat} {s0 : State} : ∀ s x1 x2 x3, 1571330 &&& m = 1571330 → Same m s0 s → Same m s0 (wrSlm s x1 x2 x3) := by
  intro s x1 x2 x3 hM h
  refine Same.run hM h fun h0 => ?_
  unfold wrSlm
  repeat' (with_reducible first
    | assumption
    | exact Same.bits rfl
    | apply Same.ite
    | apply shareStage_frame
    | apply wrSliceReset_frame
    | apply genWrite_frame)

theorem portQueuesDrop_frame {m : Nat} {s0 : State} : ∀ s x1, 2048 &&& m = 2048 → Same m s0 s → Same m s0 (portQueuesDrop s x1) := by
  intro s x1 hM h
  refine Same.run hM h fun h0 => ?_
  unfold portQueuesDrop
  repeat' (with_reducible first
    | (extract_lets +onlyGivenNames z; clear_value z; apply Same.letAny z; clear z; intro z)
    | (refine Same.updHst ?_ rfl; assumption))

theorem chanReset_frame {m : Nat} {s0 : State} : ∀ s x1, 514 &&& m = 514 → Same m s0 s → Same m s0 (chanReset s x1) := by
  intro s x1 hM h
  refine Same.run hM h fun h0 => ?_
  unfold chanReset
  repeat' (with_reducible first
    | assumption
    | intro _
    | exact Same.bits rfl
    | (extract_lets +onlyGivenNames z; change State at z; apply Same.cutS h0 (x := z); unfold z; clear z; rotate_left; intro h; clear_value z; apply Same.letS h; clear h z; intro z h)
    | (extract_lets +onlyGivenNames z; change _ × _ × State at z; apply Same.cut22 h0 (x := z); unfold z; clear z; rotate_left; intro h; clear_value z; apply Same.let22 (x := z) h; clear h z; intro z h)
    | (extract_lets +onlyGivenNames z; change _ × State at z; apply Same.cut2 h0 (x := z); unfold z; clear z; rotate_left; intro h; clear_value z; apply Same.let2 (x := z) h; clear h z; intro z h)
    | (extract_lets +onlyGivenNames z; clear_value z; apply Same.letAny z; clear z; intro z)
    | apply Same.ite
    | apply volleyDrop_frame
    | apply chanPut_frame
    | (refine Same.updMbx ?_ rfl; assumption)
    | split
    | dsimp -zeta only)

theorem dstShow_frame {m : Nat} {s0 : State} : ∀ s, 2 &&& m = 2 → Same m s0 s → Same m s0 (dstShow s) := by
  intro s hM h
  refine Same.run hM h fun h0 => ?_
  unfold dstShow
  repeat' (with_reducible first
    | assumption
    | exact Same.bits rfl
    | (extract_lets +onlyGivenNames z; change State at z; apply Same.cutS h0 (x := z); unfold z; clear z; rotate_left; intro h; clear_value z; apply Same.letS h; clear h z; intro z h)
    | apply fset_frame)

theorem dstRecord_frame {m : Nat} {s0 : State} : ∀ s x1 x2 x3 x4 x5, 34818 &&& m = 34818 → Same m s0 s → Same m s0 (dstRecord s x1 x2 x3 x4 x5) := by
  intro s x1 x2 x3 x4 x5 hM h
  refine Same.run hM h fun h0 => ?_
  unfold dstRecord
  repeat' (with_reducible first
    | assumption
    | intro _
    | exact Same.bits rfl
    | (extract_lets +onlyGivenNames z; change State at z; apply Same.cutS h0 (x := z); unfold z; clear z; rotate_left; intro h; clear_value z; apply Same.letS h; clear h z; intro z h)
    | (extract_lets +onlyGivenNames z; change _ × _ × State at z; apply Same.cut22 h0 (x := z); unfold z; clear z; rotate_left; intro h; clear_value z; apply Same.let22 (x := z) h; clear h z; intro z h)
    | (extract_lets +onlyGivenNames z; change _ × State at z; apply Same.cut2 h0 (x := z); unfold z; clear z; rotate_left; intro h; clear_value z; apply Same.let2 (x := z) h; clear h z; intro z h)
    | (extract_lets +onlyGivenNames z; clear_value z; apply Same.letAny z; clear z; intro z)
    | apply dstShow_frame
    | (refine Same.updHstDsc ?_ rfl; assumption)
    | dsimp -zeta only)

theorem dstAbort_frame {m : Nat} {s0 : State} : ∀ s x1, 34818 &&& m = 34818 → Same m s0 s → Same m s0 (dstAbort s x1) := by
  intro s x1 hM h
  refine Same.run hM h fun h0 => ?_
  unfold dstAbort
  repeat' (with_reducible first
    | assumption
    | exact Same.bits rfl
    | apply Same.ite
    | apply dstRecord_frame)

theorem cardReset_frame {m : Nat} {s0 : State} : ∀ s x1, 64 &&& m = 64 → Same m s0 s → Same m s0 (cardReset s x1) := by
  intro s x1 hM h
  refine Same.run hM h fun h0 => ?_
  unfold cardReset
  repeat' (with_reducible first
    | assumption
    | (extract_lets +onlyGivenNames z; clear_value z; apply Same.letAny z; clear z; intro z)
    | (refine Same.updAcm ?_ rfl; assumption)
    | split)

theorem portBuffers_frame {m : Nat} {s0 : State} : ∀ s x1, 262146 &&& m = 262146 → Same m s0 s → Same m s0 (portBuffers s x1) := by
  intro s x1 hM h
  refine Same.run hM h fun h0 => ?_
  unfold portBuffers
  repeat' (with_reducible first
    | assumption
    | intro _
    | exact Same.bits rfl
    | (extract_lets +onlyGivenNames z; change State at z; apply Same.cutS h0 (x := z); unfold z; clear z; rotate_left; intro h; clear_value z; apply Same.letS h; clear h z; intro z h)
    | (extract_lets +onlyGivenNames z; change _ × _ × State at z; apply Same.cut22 h0 (x := z); unfold z; clear z; rotate_left; intro h; clear_value z; apply Same.let22 (x := z) h; clear h z; intro z h)
    | (extract_lets +onlyGivenNames z; change _ × State at z; apply Same.cut2 h0 (x := z); unfold z; clear z; rotate_left; intro h; clear_value z; apply Same.let2 (x := z) h; clear h z; intro z h)
    | (extract_lets +onlyGivenNames z; change _ → _ at z; apply Same.cutF z; subst z)
    | (extract_lets +onlyGivenNames z; clear_value z; apply Same.letAny z; clear z; intro z)
    | apply Same.ite
    | apply bpUpdate_frame
    | apply fadd_frame
    | (refine Same.updBpm ?_ rfl; assumption)
    | split
    | dsimp -zeta only)

theorem ctrlReset_frame {m : Nat} {s0 : State} : ∀ s x1, 70778434 &&& m = 70778434 → Same m s0 s → Same m s0 (ctrlReset s x1) := by
  intro s x1 hM h
  refine Same.run hM h fun h0 => ?_
  unfold ctrlReset
  repeat' (with_reducible first
    | assumption
    | intro _
    | exact Same.bits rfl
    | (extract_lets +onlyGivenNames z; change State at z; apply Same.cutS h0 (x := z); unfold z; clear z; rotate_left; intro h; clear_value z; apply Same.letS h; clear h z; intro z h)
    | (extract_lets +onlyGivenNames z; change _ × _ × State at z; apply Same.cut22 h0 (x := z); unfold z; clear z; rotate_left; intro h; clear_value z; apply Same.let22 (x := z) h; clear h z; intro z h)
    | (extract_lets +onlyGivenNames z; change _ × State at z; apply Same.cut2 h0 (x := z); unfold z; clear z; rotate_left; intro h; clear_value z; apply Same.let2 (x := z) h; clear h z; intro z h)
    | (extract_lets +onlyGivenNames z; clear_value z; apply Same.letAny z; clear z; intro z)
    | apply Same.ite
    | apply portBuffers_frame
    | apply ctxVanish_frame
    | apply portDownloadDrop_frame
    | apply portQueuesDrop_frame
    | apply chanReset_frame
    | apply dstAbort_frame
    | apply portUpd_frame
    | apply psRefresh_frame
    | apply slmShow_frame
    | apply cardReset_frame
    | apply Same.foldl
    | split
    | dsimp -zeta only)

theorem linkReset_frame {m : Nat} {s0 : State} : ∀ s x1 x2, 70778434 &&& m = 70778434 → Same m s0 s → Same m s0 (linkReset s x1 x2) := by
  intro s x1 x2 hM h
  refine Same.run hM h fun h0 => ?_
  unfold linkReset
  repeat' (with_reducible first
    | assumption
    | exact Same.bits rfl
    | apply Same.ite
    | apply ctrlReset_frame
    | apply fon_frame)

theorem logRun_frame {M : Nat} {s0 s : State} (hM : 2048 &&& M = 2048) (c : AdminCmd) (f : State → List Byte × State)
    (hf : ∀ t, Same M s0 t → Same M s0 (f t).2) (h : Same M s0 s) : Same M s0 (logRun s c f) :=
  adminRun_frame hM c _ _ hf h

theorem execGetLogTelemetryRead_frame {m : Nat} {s0 : State} : ∀ x0 s, 536872960 &&& m = 536872960 → Same m s0 s → SameT m s0 (execGetLogTelemetryRead x0 s) := by
  intro x0 s hM h
  refine SameT.run hM h fun h0 => ?_
  unfold execGetLogTelemetryRead
  repeat' (with_reducible first
    | assumption
    | intro _
    | exact Same.bits rfl
    | apply SameT.next
    | apply logRun_frame
    | apply openTaken_frame)

theorem sgnShow_frame {m : Nat} {s0 : State} : ∀ s, 2 &&& m = 2 → Same m s0 s → Same m s0 (sgnShow s) := by
  intro s hM h
  refine Same.run hM h fun h0 => ?_
  unfold sgnShow
  repeat' (with_reducible first
    | assumption
    | exact Same.bits rfl
    | (extract_lets +onlyGivenNames z; change State at z; apply Same.cutS h0 (x := z); unfold z; clear z; rotate_left; intro h; clear_value z; apply Same.letS h; clear h z; intro z h)
    | (extract_lets +onlyGivenNames z; clear_value z; apply Same.letAny z; clear z; intro z)
    | apply pset_frame
    | apply putBytes_frame
    | apply fset_frame
    | apply rset_frame)

theorem commitApp_frame {m : Nat} {s0 : State} : ∀ s, 16777218 &&& m = 16777218 → Same m s0 s → Same m s0 (commitApp s) := by
  intro s hM h
  refine Same.run hM h fun h0 => ?_
  unfold commitApp
  repeat' (with_reducible first
    | assumption
    | exact Same.bits rfl
    | (extract_lets +onlyGivenNames z; change State at z; apply Same.cutS h0 (x := z); unfold z; clear z; rotate_left; intro h; clear_value z; apply Same.letS h; clear h z; intro z h)
    | (extract_lets +onlyGivenNames z; clear_value z; apply Same.letAny z; clear z; intro z)
    | apply Same.ite
    | apply sgnShow_frame
    | apply foff_frame
    | apply fset_frame
    | (refine Same.updSgn ?_ rfl; assumption)
    | split)

theorem execSignetCommit_frame {m : Nat} {s0 : State} : ∀ s, 16777218 &&& m = 16777218 → Same m s0 s → SameT m s0 (execSignetCommit s) := by
  intro s hM h
  refine SameT.run hM h fun h0 => ?_
  unfold execSignetCommit
  repeat' (with_reducible first
    | assumption
    | exact Same.bits rfl
    | apply SameT.next
    | apply Same.ite
    | apply commitApp_frame)

theorem readProgress_frame {m : Nat} {s0 : State} : ∀ s x1, 536870912 &&& m = 536870912 → Same m s0 s → Same2 m s0 (readProgress s x1) := by
  intro s x1 hM h
  refine Same2.run hM h fun h0 => ?_
  unfold readProgress
  repeat' (with_reducible first
    | assumption
    | exact Same.bits rfl
    | apply Same2.ite
    | apply openTaken_frame
    | apply Same2.mk')

theorem sectorsLock_frame {m : Nat} {s0 : State} : ∀ s, 33554432 &&& m = 33554432 → Same m s0 s → Same m s0 (sectorsLock s) := by
  intro s hM h
  refine Same.run hM h fun h0 => ?_
  unfold sectorsLock
  repeat' (with_reducible first
    | assumption
    | intro _
    | exact Same.bits rfl
    | (extract_lets +onlyGivenNames z; change State at z; apply Same.cutS h0 (x := z); unfold z; clear z; rotate_left; intro h; clear_value z; apply Same.letS h; clear h z; intro z h)
    | (extract_lets +onlyGivenNames z; clear_value z; apply Same.letAny z; clear z; intro z)
    | apply Same.ite
    | apply slotLock_frame
    | apply lockSet_frame
    | (refine Same.updCls ?_ rfl; assumption)
    | apply Same.foldl)

theorem draw_frame {m : Nat} {s0 : State} : ∀ s, 4194304 &&& m = 4194304 → Same m s0 s → Same2 m s0 (draw s) := by
  intro s hM h
  refine Same2.run hM h fun h0 => ?_
  unfold draw
  repeat' (with_reducible first
    | (extract_lets +onlyGivenNames z; clear_value z; apply Same.letAny z; clear z; intro z)
    | (refine Same.updKst ?_ rfl; assumption)
    | apply Same2.mk')

theorem material1_frame {m : Nat} {s0 : State} : ∀ s x1 x2 x3, 4194306 &&& m = 4194306 → Same m s0 s → Same m s0 (material1 s x1 x2 x3) := by
  intro s x1 x2 x3 hM h
  refine Same.run hM h fun h0 => ?_
  unfold material1
  repeat' (with_reducible first
    | assumption
    | exact Same.bits rfl
    | (extract_lets +onlyGivenNames z; change _ → _ at z; apply Same.cutF z; subst z)
    | (extract_lets +onlyGivenNames z; clear_value z; apply Same.letAny z; clear z; intro z)
    | apply slotPut_frame)

theorem kstDerive_frame {m : Nat} {s0 : State} : ∀ s x1 x2, 4194306 &&& m = 4194306 → Same m s0 s → Same m s0 (kstDerive s x1 x2) := by
  intro s x1 x2 hM h
  refine Same.run hM h fun h0 => ?_
  unfold kstDerive
  repeat' (with_reducible first
    | assumption
    | exact Same.bits rfl
    | (extract_lets +onlyGivenNames z; change State at z; apply Same.cutS h0 (x := z); unfold z; clear z; rotate_left; intro h; clear_value z; apply Same.letS h; clear h z; intro z h)
    | (extract_lets +onlyGivenNames z; clear_value z; apply Same.letAny z; clear z; intro z)
    | apply material1_frame
    | apply slotPut_frame)

theorem deriveRom_frame {m : Nat} {s0 : State} : ∀ s x1 x2 x3, 20971522 &&& m = 20971522 → Same m s0 s → Same m s0 (deriveRom s x1 x2 x3) := by
  intro s x1 x2 x3 hM h
  refine Same.run hM h fun h0 => ?_
  unfold deriveRom
  repeat' (with_reducible first
    | assumption
    | exact Same.bits rfl
    | (extract_lets +onlyGivenNames z; change State at z; apply Same.cutS h0 (x := z); unfold z; clear z; rotate_left; intro h; clear_value z; apply Same.letS h; clear h z; intro z h)
    | (extract_lets +onlyGivenNames z; change _ × State at z; apply Same.cut2 h0 (x := z); unfold z; clear z; rotate_left; intro h; clear_value z; apply Same.let2 (x := z) h; clear h z; intro z h)
    | (extract_lets +onlyGivenNames z; clear_value z; apply Same.letAny z; clear z; intro z)
    | apply draw_frame
    | apply kstDerive_frame
    | (refine Same.updKst ?_ rfl; assumption)
    | (refine Same.updSgn ?_ rfl; assumption)
    | split)

theorem pairsStart_frame {m : Nat} {s0 : State} : ∀ s, 2 &&& m = 2 → Same m s0 s → Same m s0 (pairsStart s) := by
  intro s hM h
  refine Same.run hM h fun h0 => ?_
  unfold pairsStart
  repeat' (with_reducible first
    | assumption
    | intro _
    | exact Same.bits rfl
    | apply fset_frame
    | apply Same.foldl)

theorem setAppend_frame {m : Nat} {s0 : State} : ∀ s x1, 67108864 &&& m = 67108864 → Same m s0 s → Same m s0 (setAppend s x1) := by
  intro s x1 hM h
  refine Same.run hM h fun h0 => ?_
  unfold setAppend
  repeat' (with_reducible first
    | (extract_lets +onlyGivenNames z; clear_value z; apply Same.letAny z; clear z; intro z)
    | (refine Same.updBot ?_ rfl; assumption))

theorem setPut_frame {m : Nat} {s0 : State} : ∀ s x1 x2, 67108864 &&& m = 67108864 → Same m s0 s → Same m s0 (setPut s x1 x2) := by
  intro s x1 x2 hM h
  refine Same.run hM h fun h0 => ?_
  unfold setPut
  repeat' (with_reducible first
    | assumption
    | exact Same.bits rfl
    | apply setAppend_frame)

theorem marksStore_frame {m : Nat} {s0 : State} : ∀ s, 67108864 &&& m = 67108864 → Same m s0 s → Same m s0 (marksStore s) := by
  intro s hM h
  refine Same.run hM h fun h0 => ?_
  unfold marksStore
  repeat' (with_reducible first
    | assumption
    | exact Same.bits rfl
    | apply Same.ite
    | apply setPut_frame)

theorem deviceMark_frame {m : Nat} {s0 : State} : ∀ s x1 x2 x3, 69209090 &&& m = 69209090 → Same m s0 s → Same m s0 (deviceMark s x1 x2 x3) := by
  intro s x1 x2 x3 hM h
  refine Same.run hM h fun h0 => ?_
  unfold deviceMark
  repeat' (with_reducible first
    | assumption
    | exact Same.bits rfl
    | (extract_lets +onlyGivenNames z; change State at z; apply Same.cutS h0 (x := z); unfold z; clear z; rotate_left; intro h; clear_value z; apply Same.letS h; clear h z; intro z h)
    | apply Same.ite
    | apply fon_frame
    | apply fset_frame
    | apply post_frame
    | apply smartEvent_frame
    | apply marksStore_frame)

theorem patternTest_frame {m : Nat} {s0 : State} : ∀ s, 606080002 &&& m = 606080002 → Same m s0 s → Same m s0 (patternTest s) := by
  intro s hM h
  refine Same.run hM h fun h0 => ?_
  unfold patternTest
  repeat' (with_reducible first
    | assumption
    | intro _
    | exact Same.bits rfl
    | (extract_lets +onlyGivenNames z; change State at z; apply Same.cutS h0 (x := z); unfold z; clear z; rotate_left; intro h; clear_value z; apply Same.letS h; clear h z; intro z h)
    | (extract_lets +onlyGivenNames z; clear_value z; apply Same.letAny z; clear z; intro z)
    | apply Same.ite
    | apply fset_frame
    | apply openTaken_frame
    | apply deviceMark_frame
    | apply smartEvent_frame
    | apply fon_frame
    | apply Same.foldl)

theorem fuseShow_frame {m : Nat} {s0 : State} : ∀ s, 2 &&& m = 2 → Same m s0 s → Same m s0 (fuseShow s) := by
  intro s hM h
  refine Same.run hM h fun h0 => ?_
  unfold fuseShow
  repeat' (with_reducible first
    | assumption
    | intro _
    | exact Same.bits rfl
    | (extract_lets +onlyGivenNames z; change State at z; apply Same.cutS h0 (x := z); unfold z; clear z; rotate_left; intro h; clear_value z; apply Same.letS h; clear h z; intro z h)
    | apply fset_frame
    | apply Same.foldl)

theorem ctrRaise_frame {m : Nat} {s0 : State} : ∀ s x1 x2, 67108866 &&& m = 67108866 → Same m s0 s → Same m s0 (ctrRaise s x1 x2) := by
  intro s x1 x2 hM h
  refine Same.run hM h fun h0 => ?_
  unfold ctrRaise
  repeat' (with_reducible first
    | assumption
    | exact Same.bits rfl
    | (extract_lets +onlyGivenNames z; change State at z; apply Same.cutS h0 (x := z); unfold z; clear z; rotate_left; intro h; clear_value z; apply Same.letS h; clear h z; intro z h)
    | (extract_lets +onlyGivenNames z; clear_value z; apply Same.letAny z; clear z; intro z)
    | apply Same.ite
    | apply fon_frame
    | apply fuseShow_frame
    | (refine Same.updBot ?_ rfl; assumption))

theorem keysRevoke_frame {m : Nat} {s0 : State} : ∀ s x1, 67108866 &&& m = 67108866 → Same m s0 s → Same m s0 (keysRevoke s x1) := by
  intro s x1 hM h
  refine Same.run hM h fun h0 => ?_
  unfold keysRevoke
  repeat' (with_reducible first
    | exact Same.bits rfl
    | (extract_lets +onlyGivenNames z; clear_value z; apply Same.letAny z; clear z; intro z)
    | apply fuseShow_frame
    | (refine Same.updBot ?_ rfl; assumption))

theorem custFor_frame {m : Nat} {s0 : State} : ∀ s x1, 2 &&& m = 2 → Same m s0 s → Same2 m s0 (custFor s x1) := by
  intro s x1 hM h
  refine Same2.run hM h fun h0 => ?_
  unfold custFor
  repeat' (with_reducible first
    | assumption
    | exact Same.bits rfl
    | apply Same.ite
    | apply Same2.ite
    | apply fon_frame
    | split
    | dsimp -zeta only
    | apply Same2.mk')

theorem ucodeShow_frame {m : Nat} {s0 : State} : ∀ s x1 x2 x3, 2 &&& m = 2 → Same m s0 s → Same m s0 (ucodeShow s x1 x2 x3) := by
  intro s x1 x2 x3 hM h
  refine Same.run hM h fun h0 => ?_
  unfold ucodeShow
  repeat' (with_reducible first
    | assumption
    | exact Same.bits rfl
    | (extract_lets +onlyGivenNames z; change State at z; apply Same.cutS h0 (x := z); unfold z; clear z; rotate_left; intro h; clear_value z; apply Same.letS h; clear h z; intro z h)
    | (extract_lets +onlyGivenNames z; clear_value z; apply Same.letAny z; clear z; intro z)
    | apply fset_frame)

theorem digestShow_frame {m : Nat} {s0 : State} : ∀ s x1 x2, 2 &&& m = 2 → Same m s0 s → Same m s0 (digestShow s x1 x2) := by
  intro s x1 x2 hM h
  refine Same.run hM h fun h0 => ?_
  unfold digestShow
  repeat' (with_reducible first
    | assumption
    | intro _
    | exact Same.bits rfl
    | apply fset_frame
    | apply Same.foldl)

theorem storeLoad_frame {m : Nat} {s0 : State} : ∀ s x1, 131074 &&& m = 131074 → Same m s0 s → Same m s0 (storeLoad s x1) := by
  intro s x1 hM h
  refine Same.run hM h fun h0 => ?_
  unfold storeLoad
  repeat' (with_reducible first
    | assumption
    | exact Same.bits rfl
    | (extract_lets +onlyGivenNames z; change State at z; apply Same.cutS h0 (x := z); unfold z; clear z; rotate_left; intro h; clear_value z; apply Same.letS h; clear h z; intro z h)
    | (extract_lets +onlyGivenNames z; change _ × _ × State at z; apply Same.cut22 h0 (x := z); unfold z; clear z; rotate_left; intro h; clear_value z; apply Same.let22 (x := z) h; clear h z; intro z h)
    | (extract_lets +onlyGivenNames z; change _ × State at z; apply Same.cut2 h0 (x := z); unfold z; clear z; rotate_left; intro h; clear_value z; apply Same.let2 (x := z) h; clear h z; intro z h)
    | (extract_lets +onlyGivenNames z; clear_value z; apply Same.letAny z; clear z; intro z)
    | apply digestShow_frame
    | apply chsPut_frame
    | dsimp -zeta only)

theorem aliasStore_frame {m : Nat} {s0 : State} : ∀ s x1 x2, 16777218 &&& m = 16777218 → Same m s0 s → Same m s0 (aliasStore s x1 x2) := by
  intro s x1 x2 hM h
  refine Same.run hM h fun h0 => ?_
  unfold aliasStore
  repeat' (with_reducible first
    | assumption
    | exact Same.bits rfl
    | (extract_lets +onlyGivenNames z; change State at z; apply Same.cutS h0 (x := z); unfold z; clear z; rotate_left; intro h; clear_value z; apply Same.letS h; clear h z; intro z h)
    | (extract_lets +onlyGivenNames z; clear_value z; apply Same.letAny z; clear z; intro z)
    | apply Same.ite
    | apply sgnShow_frame
    | apply fon_frame
    | (refine Same.updSgn ?_ rfl; assumption))

theorem kstZero_frame {m : Nat} {s0 : State} : ∀ s x1, 4194306 &&& m = 4194306 → Same m s0 s → Same m s0 (kstZero s x1) := by
  intro s x1 hM h
  refine Same.run hM h fun h0 => ?_
  unfold kstZero
  repeat' (with_reducible first
    | assumption
    | exact Same.bits rfl
    | (extract_lets +onlyGivenNames z; change State at z; apply Same.cutS h0 (x := z); unfold z; clear z; rotate_left; intro h; clear_value z; apply Same.letS h; clear h z; intro z h)
    | (extract_lets +onlyGivenNames z; clear_value z; apply Same.letAny z; clear z; intro z)
    | apply Same.ite
    | apply fon_frame
    | apply slotPut_frame)

theorem deriveStage_frame {m : Nat} {s0 : State} : ∀ s x1 x2, 20971522 &&& m = 20971522 → Same m s0 s → Same m s0 (deriveStage s x1 x2) := by
  intro s x1 x2 hM h
  refine Same.run hM h fun h0 => ?_
  unfold deriveStage
  repeat' (with_reducible first
    | assumption
    | exact Same.bits rfl
    | (extract_lets +onlyGivenNames z; change _ → _ at z; apply Same.cutF z; subst z)
    | (extract_lets +onlyGivenNames z; change State at z; apply Same.cutS h0 (x := z); unfold z; clear z; rotate_left; intro h; clear_value z; apply Same.letS h; clear h z; intro z h)
    | (extract_lets +onlyGivenNames z; clear_value z; apply Same.letAny z; clear z; intro z)
    | apply kstDerive_frame
    | apply aliasStore_frame
    | apply foff_frame
    | apply kstZero_frame)

theorem stageOne_frame {m : Nat} {s0 : State} : ∀ s x1, 88211458 &&& m = 88211458 → Same m s0 s → Same2 m s0 (stageOne s x1) := by
  intro s x1 hM h
  refine Same2.run hM h fun h0 => ?_
  unfold stageOne
  repeat' (with_reducible first
    | assumption
    | intro _
    | exact Same.bits rfl
    | (extract_lets +onlyGivenNames z; change State at z; apply Same.cutS h0 (x := z); unfold z; clear z; rotate_left; intro h; clear_value z; apply Same.letS h; clear h z; intro z h)
    | (extract_lets +onlyGivenNames z; change _ × _ × State at z; apply Same.cut22 h0 (x := z); unfold z; clear z; rotate_left; intro h; clear_value z; apply Same.let22 (x := z) h; clear h z; intro z h)
    | (extract_lets +onlyGivenNames z; change _ × State at z; apply Same.cut2 h0 (x := z); unfold z; clear z; rotate_left; intro h; clear_value z; apply Same.let2 (x := z) h; clear h z; intro z h)
    | (extract_lets +onlyGivenNames z; clear_value z; apply Same.letAny z; clear z; intro z)
    | apply Same.ite
    | apply Same2.ite
    | apply ctrRaise_frame
    | apply keysRevoke_frame
    | apply custFor_frame
    | apply ucodeShow_frame
    | apply storeLoad_frame
    | apply deriveStage_frame
    | apply putBytes_frame
    | (refine Same.updBot ?_ rfl; assumption)
    | (refine Same.updBot ?_ rfl; apply Same.ofPair2; assumption)
    | apply Same.foldl
    | apply Same2.foldl
    | (apply Same.ofPair2; assumption)
    | (apply Same2.out; apply custFor_frame)
    | split
    | dsimp -zeta only
    | apply Same2.mk')

theorem matrixLoad_frame {m : Nat} {s0 : State} : ∀ s, 66 &&& m = 66 → Same m s0 s → Same m s0 (matrixLoad s) := by
  intro s hM h
  refine Same.run hM h fun h0 => ?_
  unfold matrixLoad
  repeat' (with_reducible first
    | assumption
    | exact Same.bits rfl
    | (extract_lets +onlyGivenNames z; change State at z; apply Same.cutS h0 (x := z); unfold z; clear z; rotate_left; intro h; clear_value z; apply Same.letS h; clear h z; intro z h)
    | (extract_lets +onlyGivenNames z; clear_value z; apply Same.letAny z; clear z; intro z)
    | apply fon_frame
    | apply fset_frame
    | apply putBytes_frame
    | (refine Same.updAcm ?_ rfl; assumption))

theorem channelBack_frame {m : Nat} {s0 : State} : ∀ s x1, 65538 &&& m = 65538 → Same m s0 s → Same m s0 (channelBack s x1) := by
  intro s x1 hM h
  refine Same.run hM h fun h0 => ?_
  unfold channelBack
  repeat' (with_reducible first
    | assumption
    | intro _
    | exact Same.bits rfl
    | (extract_lets +onlyGivenNames z; change State at z; apply Same.cutS h0 (x := z); unfold z; clear z; rotate_left; intro h; clear_value z; apply Same.letS h; clear h z; intro z h)
    | (extract_lets +onlyGivenNames z; change _ × _ × State at z; apply Same.cut22 h0 (x := z); unfold z; clear z; rotate_left; intro h; clear_value z; apply Same.let22 (x := z) h; clear h z; intro z h)
    | (extract_lets +onlyGivenNames z; change _ × State at z; apply Same.cut2 h0 (x := z); unfold z; clear z; rotate_left; intro h; clear_value z; apply Same.let2 (x := z) h; clear h z; intro z h)
    | (extract_lets +onlyGivenNames z; clear_value z; apply Same.letAny z; clear z; intro z)
    | apply fset_frame
    | (refine Same.updMed ?_ rfl; assumption)
    | dsimp -zeta only)

theorem cardsClear_frame {m : Nat} {s0 : State} : ∀ s, 65602 &&& m = 65602 → Same m s0 s → Same m s0 (cardsClear s) := by
  intro s hM h
  refine Same.run hM h fun h0 => ?_
  unfold cardsClear
  repeat' (with_reducible first
    | assumption
    | intro _
    | exact Same.bits rfl
    | (extract_lets +onlyGivenNames z; change State at z; apply Same.cutS h0 (x := z); unfold z; clear z; rotate_left; intro h; clear_value z; apply Same.letS h; clear h z; intro z h)
    | (extract_lets +onlyGivenNames z; clear_value z; apply Same.letAny z; clear z; intro z)
    | apply channelBack_frame
    | (refine Same.updAcm ?_ rfl; assumption)
    | apply Same.foldl)

theorem settingsLoad_frame {m : Nat} {s0 : State} : ∀ s x1, 69207042 &&& m = 69207042 → Same m s0 s → Same2 m s0 (settingsLoad s x1) := by
  intro s x1 hM h
  refine Same2.run hM h fun h0 => ?_
  unfold settingsLoad
  repeat' (with_reducible first
    | assumption
    | exact Same.bits rfl
    | (extract_lets +onlyGivenNames z; change State at z; apply Same.cutS h0 (x := z); unfold z; clear z; rotate_left; intro h; clear_value z; apply Same.letS h; clear h z; intro z h)
    | (extract_lets +onlyGivenNames z; clear_value z; apply Same.letAny z; clear z; intro z)
    | apply Same2.ite
    | apply post_frame
    | apply fon_frame
    | (refine Same.updBot ?_ rfl; assumption)
    | apply Same2.mk')

theorem setPpLimit_frame {m : Nat} {s0 : State} : ∀ s x1 x2, 2 &&& m = 2 → Same m s0 s → Same m s0 (setPpLimit s x1 x2) := by
  intro s x1 x2 hM h
  refine Same.run hM h fun h0 => ?_
  unfold setPpLimit
  repeat' (with_reducible first
    | assumption
    | exact Same.bits rfl
    | apply fset_frame)

theorem settingsApply_frame {m : Nat} {s0 : State} : ∀ s x1, 262146 &&& m = 262146 → Same m s0 s → Same m s0 (settingsApply s x1) := by
  intro s x1 hM h
  refine Same.run hM h fun h0 => ?_
  unfold settingsApply
  repeat' (with_reducible first
    | assumption
    | intro _
    | exact Same.bits rfl
    | (extract_lets +onlyGivenNames z; change State at z; apply Same.cutS h0 (x := z); unfold z; clear z; rotate_left; intro h; clear_value z; apply Same.letS h; clear h z; intro z h)
    | (extract_lets +onlyGivenNames z; clear_value z; apply Same.letAny z; clear z; intro z)
    | apply Same.ite
    | apply setBudget_frame
    | apply setPpLimit_frame
    | apply rset_frame
    | apply quotaPut_frame
    | apply fon_frame
    | apply fset_frame
    | apply Same.foldl)

theorem recordLoad_frame {m : Nat} {s0 : State} : ∀ s, 2 &&& m = 2 → Same m s0 s → Same m s0 (recordLoad s) := by
  intro s hM h
  refine Same.run hM h fun h0 => ?_
  unfold recordLoad
  repeat' (with_reducible first
    | assumption
    | intro _
    | exact Same.bits rfl
    | (extract_lets +onlyGivenNames z; change State at z; apply Same.cutS h0 (x := z); unfold z; clear z; rotate_left; intro h; clear_value z; apply Same.letS h; clear h z; intro z h)
    | apply Same.ite
    | apply fset_frame
    | (apply Same.regsTo; first | assumption | apply genWrite_frame)
    | (apply RegFile.set_wf; assumption)
    | exact Same.bit rfl
    | apply Same.foldl)

theorem costPut_frame {m : Nat} {s0 : State} : ∀ s x1 x2 x3, 2 &&& m = 2 → Same m s0 s → Same m s0 (costPut s x1 x2 x3) := by
  intro s x1 x2 x3 hM h
  refine Same.run hM h fun h0 => ?_
  unfold costPut
  repeat' (with_reducible first
    | assumption
    | exact Same.bits rfl
    | (extract_lets +onlyGivenNames z; change State at z; apply Same.cutS h0 (x := z); unfold z; clear z; rotate_left; intro h; clear_value z; apply Same.letS h; clear h z; intro z h)
    | apply fset_frame)

theorem banksDefault_frame {m : Nat} {s0 : State} : ∀ s, 2 &&& m = 2 → Same m s0 s → Same m s0 (banksDefault s) := by
  intro s hM h
  refine Same.run hM h fun h0 => ?_
  unfold banksDefault
  repeat' (with_reducible first
    | assumption
    | intro _
    | exact Same.bits rfl
    | (extract_lets +onlyGivenNames z; change State at z; apply Same.cutS h0 (x := z); unfold z; clear z; rotate_left; intro h; clear_value z; apply Same.letS h; clear h z; intro z h)
    | (extract_lets +onlyGivenNames z; clear_value z; apply Same.letAny z; clear z; intro z)
    | apply fset_frame
    | apply costPut_frame
    | apply Same.foldl)

theorem agePlans_frame {m : Nat} {s0 : State} : ∀ s x1, 134217730 &&& m = 134217730 → Same m s0 s → Same m s0 (agePlans s x1) := by
  intro s x1 hM h
  refine Same.run hM h fun h0 => ?_
  unfold agePlans
  repeat' (with_reducible first
    | assumption
    | exact Same.bits rfl
    | (extract_lets +onlyGivenNames z; change State at z; apply Same.cutS h0 (x := z); unfold z; clear z; rotate_left; intro h; clear_value z; apply Same.letS h; clear h z; intro z h)
    | (extract_lets +onlyGivenNames z; clear_value z; apply Same.letAny z; clear z; intro z)
    | apply Same.ite
    | apply recordLoad_frame
    | apply banksDefault_frame
    | apply fset_frame
    | (refine Same.updAge ?_ rfl; assumption))

theorem issued_frame {m : Nat} {s0 : State} : ∀ s x1 x2, 131072 &&& m = 131072 → Same m s0 s → Same m s0 (issued s x1 x2) := by
  intro s x1 x2 hM h
  refine Same.run hM h fun h0 => ?_
  unfold issued
  repeat' (with_reducible first
    | assumption
    | exact Same.bits rfl
    | (refine Same.updFlash ?_ rfl; assumption)
    | dsimp -zeta only)

theorem chanInit_frame {m : Nat} {s0 : State} : ∀ s x1, 137620482 &&& m = 137620482 → Same m s0 s → Same m s0 (chanInit s x1) := by
  intro s x1 hM h
  refine Same.run hM h fun h0 => ?_
  unfold chanInit
  repeat' (with_reducible first
    | assumption
    | intro _
    | exact Same.bits rfl
    | (extract_lets +onlyGivenNames z; change State at z; apply Same.cutS h0 (x := z); unfold z; clear z; rotate_left; intro h; clear_value z; apply Same.letS h; clear h z; intro z h)
    | (extract_lets +onlyGivenNames z; change _ × _ × State at z; apply Same.cut22 h0 (x := z); unfold z; clear z; rotate_left; intro h; clear_value z; apply Same.let22 (x := z) h; clear h z; intro z h)
    | (extract_lets +onlyGivenNames z; change _ × State at z; apply Same.cut2 h0 (x := z); unfold z; clear z; rotate_left; intro h; clear_value z; apply Same.let2 (x := z) h; clear h z; intro z h)
    | (extract_lets +onlyGivenNames z; clear_value z; apply Same.letAny z; clear z; intro z)
    | apply Same.ite
    | apply issued_frame
    | apply chsPut_frame
    | apply fset_frame
    | apply fon_frame
    | apply channelLost_frame
    | (refine Same.updFlash ?_ rfl; assumption)
    | apply Same.foldl
    | split
    | dsimp -zeta only)

theorem groupInit_frame {m : Nat} {s0 : State} : ∀ s x1, 2098178 &&& m = 2098178 → Same m s0 s → Same m s0 (groupInit s x1) := by
  intro s x1 hM h
  refine Same.run hM h fun h0 => ?_
  unfold groupInit
  repeat' (with_reducible first
    | assumption
    | exact Same.bits rfl
    | (extract_lets +onlyGivenNames z; change State at z; apply Same.cutS h0 (x := z); unfold z; clear z; rotate_left; intro h; clear_value z; apply Same.letS h; clear h z; intro z h)
    | (extract_lets +onlyGivenNames z; clear_value z; apply Same.letAny z; clear z; intro z)
    | apply Same.ite
    | apply grpSet_frame
    | apply groupLoss_frame)

theorem lostShow_frame {m : Nat} {s0 : State} : ∀ s, 2 &&& m = 2 → Same m s0 s → Same m s0 (lostShow s) := by
  intro s hM h
  refine Same.run hM h fun h0 => ?_
  unfold lostShow
  repeat' (with_reducible first
    | assumption
    | intro _
    | exact Same.bits rfl
    | (extract_lets +onlyGivenNames z; change State at z; apply Same.cutS h0 (x := z); unfold z; clear z; rotate_left; intro h; clear_value z; apply Same.letS h; clear h z; intro z h)
    | apply Same.ite
    | apply fbiton_frame
    | apply fset_frame
    | apply fon_frame
    | apply Same.foldl)

theorem firstBoot_frame {m : Nat} {s0 : State} : ∀ s, 81922 &&& m = 81922 → Same m s0 s → Same m s0 (firstBoot s) := by
  intro s hM h
  refine Same.run hM h fun h0 => ?_
  unfold firstBoot
  repeat' (with_reducible first
    | assumption
    | intro _
    | exact Same.bits rfl
    | (extract_lets +onlyGivenNames z; change State at z; apply Same.cutS h0 (x := z); unfold z; clear z; rotate_left; intro h; clear_value z; apply Same.letS h; clear h z; intro z h)
    | (extract_lets +onlyGivenNames z; change _ × _ × State at z; apply Same.cut22 h0 (x := z); unfold z; clear z; rotate_left; intro h; clear_value z; apply Same.let22 (x := z) h; clear h z; intro z h)
    | (extract_lets +onlyGivenNames z; change _ × State at z; apply Same.cut2 h0 (x := z); unfold z; clear z; rotate_left; intro h; clear_value z; apply Same.let2 (x := z) h; clear h z; intro z h)
    | (extract_lets +onlyGivenNames z; clear_value z; apply Same.letAny z; clear z; intro z)
    | apply pset_frame
    | (refine Same.updMed ?_ rfl; assumption)
    | (refine Same.updPlc ?_ rfl; assumption)
    | apply Same.foldl
    | apply Same2.foldl
    | dsimp -zeta only
    | apply Same2.mk')

theorem budgetSet_frame {m : Nat} {s0 : State} : ∀ s, 2 &&& m = 2 → Same m s0 s → Same m s0 (budgetSet s) := by
  intro s hM h
  refine Same.run hM h fun h0 => ?_
  unfold budgetSet
  repeat' (with_reducible first
    | assumption
    | exact Same.bits rfl
    | apply fset_frame)

theorem flushParams_frame {m : Nat} {s0 : State} : ∀ s, 32770 &&& m = 32770 → Same m s0 s → Same m s0 (flushParams s) := by
  intro s hM h
  refine Same.run hM h fun h0 => ?_
  unfold flushParams
  repeat' (with_reducible first
    | assumption
    | exact Same.bits rfl
    | (extract_lets +onlyGivenNames z; change State at z; apply Same.cutS h0 (x := z); unfold z; clear z; rotate_left; intro h; clear_value z; apply Same.letS h; clear h z; intro z h)
    | (extract_lets +onlyGivenNames z; clear_value z; apply Same.letAny z; clear z; intro z)
    | apply fset_frame
    | apply budgetSet_frame
    | apply limitSet_frame)

theorem sliceQuotas_frame {m : Nat} {s0 : State} : ∀ s, 2 &&& m = 2 → Same m s0 s → Same m s0 (sliceQuotas s) := by
  intro s hM h
  refine Same.run hM h fun h0 => ?_
  unfold sliceQuotas
  repeat' (with_reducible first
    | assumption
    | intro _
    | exact Same.bits rfl
    | (extract_lets +onlyGivenNames z; clear_value z; apply Same.letAny z; clear z; intro z)
    | apply fset_frame
    | apply Same.foldl)

theorem boardBlocks_frame {m : Nat} {s0 : State} : ∀ s, 2 &&& m = 2 → Same m s0 s → Same m s0 (boardBlocks s) := by
  intro s hM h
  refine Same.run hM h fun h0 => ?_
  unfold boardBlocks
  repeat' (with_reducible first
    | assumption
    | exact Same.bits rfl
    | (extract_lets +onlyGivenNames z; change State at z; apply Same.cutS h0 (x := z); unfold z; clear z; rotate_left; intro h; clear_value z; apply Same.letS h; clear h z; intro z h)
    | (extract_lets +onlyGivenNames z; change _ × _ × State at z; apply Same.cut22 h0 (x := z); unfold z; clear z; rotate_left; intro h; clear_value z; apply Same.let22 (x := z) h; clear h z; intro z h)
    | (extract_lets +onlyGivenNames z; change _ × State at z; apply Same.cut2 h0 (x := z); unfold z; clear z; rotate_left; intro h; clear_value z; apply Same.let2 (x := z) h; clear h z; intro z h)
    | (extract_lets +onlyGivenNames z; clear_value z; apply Same.letAny z; clear z; intro z)
    | apply fset_frame
    | dsimp -zeta only)

theorem svcErase_frame {m : Nat} {s0 : State} : ∀ s, 71428354 &&& m = 71428354 → Same m s0 s → Same m s0 (svcErase s) := by
  intro s hM h
  refine Same.run hM h fun h0 => ?_
  unfold svcErase
  repeat' (with_reducible first
    | assumption
    | intro _
    | exact Same.bits rfl
    | (extract_lets +onlyGivenNames z; change State at z; apply Same.cutS h0 (x := z); unfold z; clear z; rotate_left; intro h; clear_value z; apply Same.letS h; clear h z; intro z h)
    | (extract_lets +onlyGivenNames z; clear_value z; apply Same.letAny z; clear z; intro z)
    | apply Same.ite
    | apply nsEmpty_frame
    | (refine Same.updSvcKstBot ?_ rfl; assumption)
    | apply Same.foldl)

theorem recordRestore_frame {m : Nat} {s0 : State} : ∀ s x1, 6292482 &&& m = 6292482 → Same m s0 s → Same m s0 (recordRestore s x1) := by
  intro s x1 hM h
  refine Same.run hM h fun h0 => ?_
  unfold recordRestore
  repeat' (with_reducible first
    | assumption
    | exact Same.bits rfl
    | (extract_lets +onlyGivenNames z; clear_value z; apply Same.letAny z; clear z; intro z)
    | apply Same.ite
    | apply slotPut_frame
    | apply post_frame
    | apply fon_frame)

theorem lossRecord_frame {m : Nat} {s0 : State} : ∀ s x1, 2098178 &&& m = 2098178 → Same m s0 s → Same m s0 (lossRecord s x1) := by
  intro s x1 hM h
  refine Same.run hM h fun h0 => ?_
  unfold lossRecord
  repeat' (with_reducible first
    | assumption
    | exact Same.bits rfl
    | (extract_lets +onlyGivenNames z; change State at z; apply Same.cutS h0 (x := z); unfold z; clear z; rotate_left; intro h; clear_value z; apply Same.letS h; clear h z; intro z h)
    | apply Same.ite
    | apply fset_frame
    | apply post_frame
    | split)

theorem sgnScan_frame {m : Nat} {s0 : State} : ∀ s, 18875394 &&& m = 18875394 → Same m s0 s → Same1 m s0 (sgnScan s) := by
  intro s hM h
  refine Same1.run hM h fun h0 => ?_
  unfold sgnScan
  repeat' (with_reducible first
    | assumption
    | intro _
    | exact Same.bits rfl
    | (extract_lets +onlyGivenNames z; change State at z; apply Same.cutS h0 (x := z); unfold z; clear z; rotate_left; intro h; clear_value z; apply Same.letS h; clear h z; intro z h)
    | (extract_lets +onlyGivenNames z; clear_value z; apply Same.letAny z; clear z; intro z)
    | apply Same1.ite
    | apply post_frame
    | apply fon_frame
    | (refine Same.updSgn ?_ rfl; assumption)
    | apply Same.foldl
    | split
    | apply Same1.mk')

theorem appendAt_frame {m : Nat} {s0 : State} : ∀ s x1 x2 x3 x4 x5 x6 x7 x8, 20971522 &&& m = 20971522 → Same m s0 s → Same m s0 (appendAt s x1 x2 x3 x4 x5 x6 x7 x8) := by
  intro s x1 x2 x3 x4 x5 x6 x7 x8 hM h
  refine Same.run hM h fun h0 => ?_
  unfold appendAt
  repeat' (with_reducible first
    | assumption
    | exact Same.bits rfl
    | (extract_lets +onlyGivenNames z; change State at z; apply Same.cutS h0 (x := z); unfold z; clear z; rotate_left; intro h; clear_value z; apply Same.letS h; clear h z; intro z h)
    | (extract_lets +onlyGivenNames z; clear_value z; apply Same.letAny z; clear z; intro z)
    | apply finc_frame
    | apply sgnShow_frame
    | (refine Same.updSgn ?_ rfl; assumption)
    | (refine Same.updSgn ?_ rfl; apply Same2.out; apply draw_frame))

theorem compact_frame {m : Nat} {s0 : State} : ∀ s, 23069698 &&& m = 23069698 → Same m s0 s → Same m s0 (compact s) := by
  intro s hM h
  refine Same.run hM h fun h0 => ?_
  unfold compact
  repeat' (with_reducible first
    | assumption
    | intro _
    | exact Same.bits rfl
    | (extract_lets +onlyGivenNames z; change State at z; apply Same.cutS h0 (x := z); unfold z; clear z; rotate_left; intro h; clear_value z; apply Same.letS h; clear h z; intro z h)
    | (extract_lets +onlyGivenNames z; change _ × _ × State at z; apply Same.cut22 h0 (x := z); unfold z; clear z; rotate_left; intro h; clear_value z; apply Same.let22 (x := z) h; clear h z; intro z h)
    | (extract_lets +onlyGivenNames z; change _ × State at z; apply Same.cut2 h0 (x := z); unfold z; clear z; rotate_left; intro h; clear_value z; apply Same.let2 (x := z) h; clear h z; intro z h)
    | (extract_lets +onlyGivenNames z; clear_value z; apply Same.letAny z; clear z; intro z)
    | apply Same.ite
    | apply commitApp_frame
    | apply appendAt_frame
    | apply sgnShow_frame
    | apply post_frame
    | apply fon_frame
    | (refine Same.updSgn ?_ rfl; assumption)
    | split
    | dsimp -zeta only)

theorem foldItems_frame {m : Nat} {s0 : State} : ∀ s x1 x2, 2098178 &&& m = 2098178 → Same m s0 s → Same2 m s0 (foldItems s x1 x2) := by
  intro s x1 x2 hM h
  refine Same2.run hM h fun h0 => ?_
  unfold foldItems
  repeat' (with_reducible first
    | assumption
    | intro _
    | exact Same.bits rfl
    | (extract_lets +onlyGivenNames z; clear_value z; apply Same.letAny z; clear z; intro z)
    | apply Same2.ite
    | apply post_frame
    | apply fon_frame
    | apply Same.foldl
    | apply Same2.mk')

theorem bootEntry_frame {m : Nat} {s0 : State} : ∀ s x1 x2 x3 x4 x5 x6, 23069698 &&& m = 23069698 → Same m s0 s → Same2 m s0 (bootEntry s x1 x2 x3 x4 x5 x6) := by
  intro s x1 x2 x3 x4 x5 x6 hM h
  refine Same2.run hM h fun h0 => ?_
  unfold bootEntry
  repeat' (with_reducible first
    | assumption
    | exact Same.bits rfl
    | (extract_lets +onlyGivenNames z; change State at z; apply Same.cutS h0 (x := z); unfold z; clear z; rotate_left; intro h; clear_value z; apply Same.letS h; clear h z; intro z h)
    | (extract_lets +onlyGivenNames z; change State × _ at z; apply Same.cut1 h0 (x := z); unfold z; clear z; rotate_left; intro h; clear_value z; apply Same.let1 (x := z) h; clear h z; intro z h)
    | (extract_lets +onlyGivenNames z; change _ × State at z; apply Same.cut2 h0 (x := z); unfold z; clear z; rotate_left; intro h; clear_value z; apply Same.let2 (x := z) h; clear h z; intro z h)
    | (extract_lets +onlyGivenNames z; clear_value z; apply Same.letAny z; clear z; intro z)
    | apply Same.ite
    | apply Same2.ite
    | apply sgnScan_frame
    | apply fon_frame
    | apply compact_frame
    | apply foldItems_frame
    | apply commitApp_frame
    | apply appendAt_frame
    | apply sgnShow_frame
    | apply fset_frame
    | (refine Same.updSgn ?_ rfl; assumption)
    | split
    | apply Same2.mk')

theorem trainEnable_frame {m : Nat} {s0 : State} : ∀ s, 2050 &&& m = 2050 → Same m s0 s → Same m s0 (trainEnable s) := by
  intro s hM h
  refine Same.run hM h fun h0 => ?_
  unfold trainEnable
  repeat' (with_reducible first
    | assumption
    | exact Same.bits rfl
    | (extract_lets +onlyGivenNames z; change State at z; apply Same.cutS h0 (x := z); unfold z; clear z; rotate_left; intro h; clear_value z; apply Same.letS h; clear h z; intro z h)
    | (extract_lets +onlyGivenNames z; clear_value z; apply Same.letAny z; clear z; intro z)
    | apply fset_frame
    | (refine Same.updHst ?_ rfl; assumption))

end Sys2Proof.Machine
end

