-- ==== Sys2Proof/Laws/Frame3.lean ====
section
/-! SUPPORT. What each operation may change (Sys2Proof/Laws/Frame.lean), part 3 of 6: entryDone to linkUpShow. A number is the set of
fields of State, bit k the k-th. -/
namespace Sys2Proof.Machine
open Sys2Proof
set_option maxRecDepth 4000
set_option linter.all false

theorem entryDone_frame {m : Nat} {s0 : State} : ∀ s x1 x2 x3 x4, 606080002 &&& m = 606080002 → Same m s0 s → Same m s0 (entryDone s x1 x2 x3 x4) := by
  intro s x1 x2 x3 x4 hM h
  refine Same.run hM h fun h0 => ?_
  unfold entryDone
  repeat' (with_reducible first
    | assumption
    | exact Same.bits rfl
    | (extract_lets +onlyGivenNames z; change State at z; apply Same.cutS h0 (x := z); unfold z; clear z; rotate_left; intro h; clear_value z; apply Same.letS h; clear h z; intro z h)
    | (extract_lets +onlyGivenNames z; clear_value z; apply Same.letAny z; clear z; intro z)
    | apply Same.ite
    | apply bcrPut_frame
    | apply foff_frame
    | apply post_frame
    | apply trainEnable_frame
    | apply fset_frame
    | apply openTaken_frame
    | (refine Same.updBot ?_ rfl; assumption))

theorem entryBoot_frame {m : Nat} {s0 : State} : ∀ s x1 x2 x3 x4 x5 x6, 627051522 &&& m = 627051522 → Same m s0 s → Same m s0 (entryBoot s x1 x2 x3 x4 x5 x6) := by
  intro s x1 x2 x3 x4 x5 x6 hM h
  refine Same.run hM h fun h0 => ?_
  unfold entryBoot
  repeat' (with_reducible first
    | assumption
    | exact Same.bits rfl
    | (extract_lets +onlyGivenNames z; change State at z; apply Same.cutS h0 (x := z); unfold z; clear z; rotate_left; intro h; clear_value z; apply Same.letS h; clear h z; intro z h)
    | (extract_lets +onlyGivenNames z; change _ × State at z; apply Same.cut2 h0 (x := z); unfold z; clear z; rotate_left; intro h; clear_value z; apply Same.let2 (x := z) h; clear h z; intro z h)
    | (extract_lets +onlyGivenNames z; clear_value z; apply Same.letAny z; clear z; intro z)
    | apply Same.ite
    | apply bootEntry_frame
    | apply entryDone_frame
    | (refine Same.updBot ?_ rfl; assumption))

theorem unitUnsure_frame {m : Nat} {s0 : State} : ∀ s x1, 536936448 &&& m = 536936448 → Same m s0 s → Same m s0 (unitUnsure s x1) := by
  intro s x1 hM h
  refine Same.run hM h fun h0 => ?_
  unfold unitUnsure
  repeat' (with_reducible first
    | assumption
    | exact Same.bits rfl
    | (extract_lets +onlyGivenNames z; change State at z; apply Same.cutS h0 (x := z); unfold z; clear z; rotate_left; intro h; clear_value z; apply Same.letS h; clear h z; intro z h)
    | (extract_lets +onlyGivenNames z; clear_value z; apply Same.letAny z; clear z; intro z)
    | apply Same.ite
    | apply openTaken_frame
    | (refine Same.updMed ?_ rfl; assumption)
    | split)

theorem unitRestore_frame {m : Nat} {s0 : State} : ∀ s x1, 122882 &&& m = 122882 → Same m s0 s → Same m s0 (unitRestore s x1) := by
  intro s x1 hM h
  refine Same.run hM h fun h0 => ?_
  unfold unitRestore
  repeat' (with_reducible first
    | assumption
    | exact Same.bits rfl
    | (extract_lets +onlyGivenNames z; clear_value z; apply Same.letAny z; clear z; intro z)
    | apply claimSlots_frame
    | apply prepareFor_frame
    | apply setMember_frame
    | (refine Same.updZne ?_ rfl; apply Same.ofPair2; assumption)
    | split)

theorem scanZoneState_frame {m : Nat} {s0 : State} : ∀ x0 s x2, 8194 &&& m = 8194 → Same m s0 s → Same m s0 (scanZoneState x0 s x2) := by
  intro x0 s x2 hM h
  refine Same.run hM h fun h0 => ?_
  unfold scanZoneState
  repeat' (with_reducible first
    | assumption
    | exact Same.bits rfl
    | apply zonePut_frame
    | split
    | dsimp -zeta only)

theorem scanConvPut_frame {m : Nat} {s0 : State} : ∀ s x1 x2, 73730 &&& m = 73730 → Same m s0 s → Same m s0 (scanConvPut s x1 x2) := by
  intro s x1 x2 hM h
  refine Same.run hM h fun h0 => ?_
  unfold scanConvPut
  repeat' (with_reducible first
    | assumption
    | exact Same.bits rfl
    | (extract_lets +onlyGivenNames z; change State at z; apply Same.cutS h0 (x := z); unfold z; clear z; rotate_left; intro h; clear_value z; apply Same.letS h; clear h z; intro z h)
    | (extract_lets +onlyGivenNames z; change _ × _ × State at z; apply Same.cut22 h0 (x := z); unfold z; clear z; rotate_left; intro h; clear_value z; apply Same.let22 (x := z) h; clear h z; intro z h)
    | (extract_lets +onlyGivenNames z; change _ × State at z; apply Same.cut2 h0 (x := z); unfold z; clear z; rotate_left; intro h; clear_value z; apply Same.let2 (x := z) h; clear h z; intro z h)
    | (extract_lets +onlyGivenNames z; clear_value z; apply Same.letAny z; clear z; intro z)
    | apply unitDrop_frame
    | apply unitsAdd_frame
    | (refine Same.updZne ?_ rfl; assumption)
    | split
    | dsimp -zeta only)

theorem scanConv_frame {m : Nat} {s0 : State} : ∀ x0 x1 s x3, 73730 &&& m = 73730 → Same m s0 s → Same m s0 (scanConv x0 x1 s x3) := by
  intro x0 x1 s x3 hM h
  refine Same.run hM h fun h0 => ?_
  unfold scanConv
  repeat' (with_reducible first
    | assumption
    | exact Same.bits rfl
    | (extract_lets +onlyGivenNames z; change State at z; apply Same.cutS h0 (x := z); unfold z; clear z; rotate_left; intro h; clear_value z; apply Same.letS h; clear h z; intro z h)
    | (extract_lets +onlyGivenNames z; change _ × _ × State at z; apply Same.cut22 h0 (x := z); unfold z; clear z; rotate_left; intro h; clear_value z; apply Same.let22 (x := z) h; clear h z; intro z h)
    | (extract_lets +onlyGivenNames z; change _ × State at z; apply Same.cut2 h0 (x := z); unfold z; clear z; rotate_left; intro h; clear_value z; apply Same.let2 (x := z) h; clear h z; intro z h)
    | (extract_lets +onlyGivenNames z; clear_value z; apply Same.letAny z; clear z; intro z)
    | apply Same.ite
    | apply scanConvPut_frame
    | split
    | dsimp -zeta only)

theorem scanZone_frame {m : Nat} {s0 : State} : ∀ x0 x1 s x3, 73730 &&& m = 73730 → Same m s0 s → Same m s0 (scanZone x0 x1 s x3) := by
  intro x0 x1 s x3 hM h
  refine Same.run hM h fun h0 => ?_
  unfold scanZone
  repeat' (with_reducible first
    | assumption
    | exact Same.bits rfl
    | (extract_lets +onlyGivenNames z; change State at z; apply Same.cutS h0 (x := z); unfold z; clear z; rotate_left; intro h; clear_value z; apply Same.letS h; clear h z; intro z h)
    | (extract_lets +onlyGivenNames z; change _ × _ × State at z; apply Same.cut22 h0 (x := z); unfold z; clear z; rotate_left; intro h; clear_value z; apply Same.let22 (x := z) h; clear h z; intro z h)
    | (extract_lets +onlyGivenNames z; change _ × State at z; apply Same.cut2 h0 (x := z); unfold z; clear z; rotate_left; intro h; clear_value z; apply Same.let2 (x := z) h; clear h z; intro z h)
    | (extract_lets +onlyGivenNames z; clear_value z; apply Same.letAny z; clear z; intro z)
    | apply Same.ite
    | apply unitDrop_frame
    | apply unitsAdd_frame
    | apply zonePut_frame
    | split
    | dsimp -zeta only)

theorem fullScan_frame {m : Nat} {s0 : State} : ∀ s, 539042818 &&& m = 539042818 → Same m s0 s → Same m s0 (fullScan s) := by
  intro s hM h
  refine Same.run hM h fun h0 => ?_
  unfold fullScan
  repeat' (with_reducible first
    | assumption
    | intro _
    | exact Same.bits rfl
    | (extract_lets +onlyGivenNames z; change State at z; apply Same.cutS h0 (x := z); unfold z; clear z; rotate_left; intro h; clear_value z; apply Same.letS h; clear h z; intro z h)
    | (extract_lets +onlyGivenNames z; change _ × _ × State at z; apply Same.cut22 h0 (x := z); unfold z; clear z; rotate_left; intro h; clear_value z; apply Same.let22 (x := z) h; clear h z; intro z h)
    | (extract_lets +onlyGivenNames z; change _ × State at z; apply Same.cut2 h0 (x := z); unfold z; clear z; rotate_left; intro h; clear_value z; apply Same.let2 (x := z) h; clear h z; intro z h)
    | (extract_lets +onlyGivenNames z; clear_value z; apply Same.letAny z; clear z; intro z)
    | apply scanZoneState_frame
    | apply scanConv_frame
    | apply scanZone_frame
    | apply post_frame
    | apply fon_frame
    | apply openTaken_frame
    | apply Same.foldl
    | dsimp -zeta only)

theorem seqLoad_frame {m : Nat} {s0 : State} : ∀ s x1, 131074 &&& m = 131074 → Same m s0 s → Same m s0 (seqLoad s x1) := by
  intro s x1 hM h
  refine Same.run hM h fun h0 => ?_
  unfold seqLoad
  repeat' (with_reducible first
    | assumption
    | intro _
    | exact Same.bits rfl
    | (extract_lets +onlyGivenNames z; change State at z; apply Same.cutS h0 (x := z); unfold z; clear z; rotate_left; intro h; clear_value z; apply Same.letS h; clear h z; intro z h)
    | (extract_lets +onlyGivenNames z; change _ × _ × State at z; apply Same.cut22 h0 (x := z); unfold z; clear z; rotate_left; intro h; clear_value z; apply Same.let22 (x := z) h; clear h z; intro z h)
    | (extract_lets +onlyGivenNames z; change _ × State at z; apply Same.cut2 h0 (x := z); unfold z; clear z; rotate_left; intro h; clear_value z; apply Same.let2 (x := z) h; clear h z; intro z h)
    | (extract_lets +onlyGivenNames z; clear_value z; apply Same.letAny z; clear z; intro z)
    | apply Same.ite
    | apply fon_frame
    | apply chsPut_frame
    | split
    | dsimp -zeta only)

theorem replayDealloc_frame {m : Nat} {s0 : State} : ∀ s x1, 73730 &&& m = 73730 → Same m s0 s → Same m s0 (replayDealloc s x1) := by
  intro s x1 hM h
  refine Same.run hM h fun h0 => ?_
  unfold replayDealloc
  repeat' (with_reducible first
    | assumption
    | intro _
    | exact Same.bits rfl
    | apply Same.ite
    | apply scanConvPut_frame
    | apply Same.foldl
    | split
    | dsimp -zeta only)

theorem replay_frame {m : Nat} {s0 : State} : ∀ s x1, 73730 &&& m = 73730 → Same m s0 s → Same m s0 (replay s x1) := by
  intro s x1 hM h
  refine Same.run hM h fun h0 => ?_
  unfold replay
  repeat' (with_reducible first
    | assumption
    | intro _
    | exact Same.bits rfl
    | (extract_lets +onlyGivenNames z; change State at z; apply Same.cutS h0 (x := z); unfold z; clear z; rotate_left; intro h; clear_value z; apply Same.letS h; clear h z; intro z h)
    | (extract_lets +onlyGivenNames z; change _ × _ × State at z; apply Same.cut22 h0 (x := z); unfold z; clear z; rotate_left; intro h; clear_value z; apply Same.let22 (x := z) h; clear h z; intro z h)
    | (extract_lets +onlyGivenNames z; change _ × State at z; apply Same.cut2 h0 (x := z); unfold z; clear z; rotate_left; intro h; clear_value z; apply Same.let2 (x := z) h; clear h z; intro z h)
    | (extract_lets +onlyGivenNames z; clear_value z; apply Same.letAny z; clear z; intro z)
    | apply Same.ite
    | apply scanZoneState_frame
    | apply replayDealloc_frame
    | apply fon_frame
    | apply Same.foldl
    | split
    | dsimp -zeta only)

theorem tablesLoad_frame {m : Nat} {s0 : State} : ∀ s, 539042818 &&& m = 539042818 → Same m s0 s → Same m s0 (tablesLoad s) := by
  intro s hM h
  refine Same.run hM h fun h0 => ?_
  unfold tablesLoad
  repeat' (with_reducible first
    | assumption
    | exact Same.bits rfl
    | apply Same.ite
    | apply fullScan_frame
    | apply replay_frame
    | split
    | dsimp -zeta only)

theorem rebuildTables_frame {m : Nat} {s0 : State} : ∀ s x1, 540273666 &&& m = 540273666 → Same m s0 s → Same m s0 (rebuildTables s x1) := by
  intro s x1 hM h
  refine Same.run hM h fun h0 => ?_
  unfold rebuildTables
  repeat' (with_reducible first
    | assumption
    | intro _
    | exact Same.bits rfl
    | (extract_lets +onlyGivenNames z; change State at z; apply Same.cutS h0 (x := z); unfold z; clear z; rotate_left; intro h; clear_value z; apply Same.letS h; clear h z; intro z h)
    | (extract_lets +onlyGivenNames z; change _ × _ × State at z; apply Same.cut22 h0 (x := z); unfold z; clear z; rotate_left; intro h; clear_value z; apply Same.let22 (x := z) h; clear h z; intro z h)
    | (extract_lets +onlyGivenNames z; change _ × State at z; apply Same.cut2 h0 (x := z); unfold z; clear z; rotate_left; intro h; clear_value z; apply Same.let2 (x := z) h; clear h z; intro z h)
    | (extract_lets +onlyGivenNames z; clear_value z; apply Same.letAny z; clear z; intro z)
    | apply Same.ite
    | apply seqLoad_frame
    | apply tablesLoad_frame
    | apply unitUnsure_frame
    | apply grpRefresh_frame
    | apply eraseMembers_frame
    | apply unitRestore_frame
    | apply rebuildMove_frame
    | apply restoreErases_frame
    | apply sweep_frame
    | apply streamsRefresh_frame
    | apply zneRefresh_frame
    | apply spareRefresh_frame
    | apply pset_frame
    | (refine Same.updZnePlcMed ?_ rfl; assumption)
    | (refine Same.updMed ?_ rfl; assumption)
    | apply Same.foldl
    | split
    | dsimp -zeta only)

theorem blocksEnable_frame {m : Nat} {s0 : State} : ∀ s, 2 &&& m = 2 → Same m s0 s → Same m s0 (blocksEnable s) := by
  intro s hM h
  refine Same.run hM h fun h0 => ?_
  unfold blocksEnable
  repeat' (with_reducible first
    | assumption
    | intro _
    | exact Same.bits rfl
    | (extract_lets +onlyGivenNames z; change State at z; apply Same.cutS h0 (x := z); unfold z; clear z; rotate_left; intro h; clear_value z; apply Same.letS h; clear h z; intro z h)
    | apply Same.ite
    | apply fon_frame
    | apply Same.foldl)

theorem pveShow_frame {m : Nat} {s0 : State} : ∀ s, 2 &&& m = 2 → Same m s0 s → Same m s0 (pveShow s) := by
  intro s hM h
  refine Same.run hM h fun h0 => ?_
  unfold pveShow
  repeat' (with_reducible first
    | assumption
    | intro _
    | exact Same.bits rfl
    | (extract_lets +onlyGivenNames z; clear_value z; apply Same.letAny z; clear z; intro z)
    | apply fset_frame
    | apply Same.foldl)

theorem channelRestore_frame {m : Nat} {s0 : State} : ∀ s x1, 124930 &&& m = 124930 → Same m s0 s → Same m s0 (channelRestore s x1) := by
  intro s x1 hM h
  refine Same.run hM h fun h0 => ?_
  unfold channelRestore
  repeat' (with_reducible first
    | assumption
    | intro _
    | exact Same.bits rfl
    | apply restoreDie_frame
    | apply Same.foldl
    | dsimp -zeta only)

theorem bootNormal_frame {m : Nat} {s0 : State} : ∀ s x1 x2 x3 x4 x5, 796388674 &&& m = 796388674 → Same m s0 s → Same m s0 (bootNormal s x1 x2 x3 x4 x5) := by
  intro s x1 x2 x3 x4 x5 hM h
  refine Same.run hM h fun h0 => ?_
  unfold bootNormal
  repeat' (with_reducible first
    | assumption
    | intro _
    | exact Same.bits rfl
    | (extract_lets +onlyGivenNames z; change State at z; apply Same.cutS h0 (x := z); unfold z; clear z; rotate_left; intro h; clear_value z; apply Same.letS h; clear h z; intro z h)
    | (extract_lets +onlyGivenNames z; change _ × _ × State at z; apply Same.cut22 h0 (x := z); unfold z; clear z; rotate_left; intro h; clear_value z; apply Same.let22 (x := z) h; clear h z; intro z h)
    | (extract_lets +onlyGivenNames z; change _ × State at z; apply Same.cut2 h0 (x := z); unfold z; clear z; rotate_left; intro h; clear_value z; apply Same.let2 (x := z) h; clear h z; intro z h)
    | (extract_lets +onlyGivenNames z; clear_value z; apply Same.letAny z; clear z; intro z)
    | apply Same.ite
    | apply Same2.ite
    | apply fset_frame
    | apply sectorsLock_frame
    | apply deriveRom_frame
    | apply fon_frame
    | apply pset_frame
    | apply pairsStart_frame
    | apply patternTest_frame
    | apply stageOne_frame
    | apply matrixLoad_frame
    | apply cardsClear_frame
    | apply settingsLoad_frame
    | apply settingsApply_frame
    | apply agePlans_frame
    | apply chanInit_frame
    | apply groupInit_frame
    | apply lostShow_frame
    | apply firstBoot_frame
    | apply flushParams_frame
    | apply sliceQuotas_frame
    | apply boardBlocks_frame
    | apply kstShow_frame
    | apply svcErase_frame
    | apply recordRestore_frame
    | apply lossRecord_frame
    | apply entryBoot_frame
    | apply rebuildTables_frame
    | apply blocksEnable_frame
    | apply channelRestore_frame
    | apply dstRecord_frame
    | apply testSchedule_frame
    | apply dstShow_frame
    | apply slmShow_frame
    | apply xtePool_frame
    | apply xteDedShow_frame
    | apply pveShow_frame
    | apply pkeShow_frame
    | apply sgnShow_frame
    | apply psRefresh_frame
    | (refine Same.updHst ?_ rfl; assumption)
    | (refine Same.updHst ?_ rfl; apply Same.ofPair2; assumption)
    | (refine Same.updBot ?_ rfl; assumption)
    | (refine Same.updBot ?_ rfl; apply Same.ofPair2; assumption)
    | apply Same.foldl
    | apply Same2.foldl
    | (apply Same.ofPair2; assumption)
    | (apply Same2.out; apply stageOne_frame)
    | (apply Same2.out; apply settingsLoad_frame)
    | split
    | dsimp -zeta only
    | apply Same2.mk')

theorem bootsUp_frame {m : Nat} {s0 : State} : ∀ s, 32 &&& m = 32 → Same m s0 s → Same m s0 (bootsUp s) := fun s hM h =>
  Same.step hM (by constructor <;> first | (intro _; rfl) | (intro e; exact absurd e (by decide)) | exact fun e => e | exact Nat.le_refl _) h

theorem ioRun_frame {M : Nat} {s0 s : State} (hM : 146275922 &&& M = 146275922) (c : IoCmd) (op : Nat → Bool) (bytes : Ns → Nat)
    (f : Ctx → Ns → State → State) (hf : ∀ k n t, Same M s0 t → Same M s0 (f k n t)) (h : Same M s0 s) : Same M s0 (ioRun s c op bytes f) := by
  unfold ioRun
  dsimp only
  split
  · split
    · split
      · exact hf _ _ _ h
      · exact ctxFail_frame _ _ _ _ (Same.sub (by decide) hM) h
      · exact raiseVio_frame _ _ _ _ _ (Same.sub (by decide) hM) h
      · exact h
    · exact h
  · exact h

theorem descCheck_frame {m : Nat} {s0 : State} : ∀ s x1, 8194 &&& m = 8194 → Same m s0 s → Same m s0 (descCheck s x1) := by
  intro s x1 hM h
  refine Same.run hM h fun h0 => ?_
  unfold descCheck
  repeat' (with_reducible first
    | assumption
    | exact Same.bits rfl
    | (extract_lets +onlyGivenNames z; change State at z; apply Same.cutS h0 (x := z); unfold z; clear z; rotate_left; intro h; clear_value z; apply Same.letS h; clear h z; intro z h)
    | (extract_lets +onlyGivenNames z; change _ × _ × State at z; apply Same.cut22 h0 (x := z); unfold z; clear z; rotate_left; intro h; clear_value z; apply Same.let22 (x := z) h; clear h z; intro z h)
    | (extract_lets +onlyGivenNames z; change _ × State at z; apply Same.cut2 h0 (x := z); unfold z; clear z; rotate_left; intro h; clear_value z; apply Same.let2 (x := z) h; clear h z; intro z h)
    | (extract_lets +onlyGivenNames z; clear_value z; apply Same.letAny z; clear z; intro z)
    | apply Same.ite
    | apply fon_frame
    | apply zonePut_frame
    | split
    | dsimp -zeta only)

theorem descLookup_frame {m : Nat} {s0 : State} : ∀ s x1 x2, 8194 &&& m = 8194 → Same m s0 s → Same m s0 (descLookup s x1 x2) := by
  intro s x1 x2 hM h
  refine Same.run hM h fun h0 => ?_
  unfold descLookup
  repeat' (with_reducible first
    | assumption
    | exact Same.bits rfl
    | (extract_lets +onlyGivenNames z; change State at z; apply Same.cutS h0 (x := z); unfold z; clear z; rotate_left; intro h; clear_value z; apply Same.letS h; clear h z; intro z h)
    | (extract_lets +onlyGivenNames z; change _ × _ × State at z; apply Same.cut22 h0 (x := z); unfold z; clear z; rotate_left; intro h; clear_value z; apply Same.let22 (x := z) h; clear h z; intro z h)
    | (extract_lets +onlyGivenNames z; change _ × State at z; apply Same.cut2 h0 (x := z); unfold z; clear z; rotate_left; intro h; clear_value z; apply Same.let2 (x := z) h; clear h z; intro z h)
    | (extract_lets +onlyGivenNames z; clear_value z; apply Same.letAny z; clear z; intro z)
    | apply Same.ite
    | apply finc_frame
    | apply descCheck_frame
    | (refine Same.updZne ?_ rfl; assumption)
    | split
    | dsimp -zeta only)

theorem enterReadOnly_frame {m : Nat} {s0 : State} : ∀ s x1, 2190338 &&& m = 2190338 → Same m s0 s → Same m s0 (enterReadOnly s x1) := by
  intro s x1 hM h
  refine Same.run hM h fun h0 => ?_
  unfold enterReadOnly
  repeat' (with_reducible first
    | assumption
    | intro _
    | exact Same.bits rfl
    | (extract_lets +onlyGivenNames z; change State at z; apply Same.cutS h0 (x := z); unfold z; clear z; rotate_left; intro h; clear_value z; apply Same.letS h; clear h z; intro z h)
    | (extract_lets +onlyGivenNames z; change _ × _ × State at z; apply Same.cut22 h0 (x := z); unfold z; clear z; rotate_left; intro h; clear_value z; apply Same.let22 (x := z) h; clear h z; intro z h)
    | (extract_lets +onlyGivenNames z; change _ × State at z; apply Same.cut2 h0 (x := z); unfold z; clear z; rotate_left; intro h; clear_value z; apply Same.let2 (x := z) h; clear h z; intro z h)
    | (extract_lets +onlyGivenNames z; clear_value z; apply Same.letAny z; clear z; intro z)
    | apply Same.ite
    | apply post_frame
    | apply fon_frame
    | apply journal_frame
    | apply smartEvent_frame
    | apply zneRefresh_frame
    | (refine Same.updZne ?_ rfl; assumption)
    | split
    | dsimp -zeta only)

theorem zoneState_frame {m : Nat} {s0 : State} : ∀ s x1 x2, 90114 &&& m = 90114 → Same m s0 s → Same m s0 (zoneState s x1 x2) := by
  intro s x1 x2 hM h
  refine Same.run hM h fun h0 => ?_
  unfold zoneState
  repeat' (with_reducible first
    | assumption
    | exact Same.bits rfl
    | (extract_lets +onlyGivenNames z; clear_value z; apply Same.letAny z; clear z; intro z)
    | apply journalZone_frame
    | apply zonePut_frame)

theorem cursorOpen_frame {m : Nat} {s0 : State} : ∀ s x1 x2 x3, 122882 &&& m = 122882 → Same m s0 s → Same m s0 (cursorOpen s x1 x2 x3) := by
  intro s x1 x2 x3 hM h
  refine Same.run hM h fun h0 => ?_
  unfold cursorOpen
  repeat' (with_reducible first
    | assumption
    | exact Same.bits rfl
    | apply Same.ite
    | apply SameO2.ite
    | apply directSet_frame
    | apply zonePut_frame
    | (apply Same.ofSome2; assumption)
    | (apply Same.ofSome2'; assumption)
    | split
    | dsimp -zeta only)

theorem zoneActivate_frame {m : Nat} {s0 : State} : ∀ s x1 x2 x3, 122882 &&& m = 122882 → Same m s0 s → Same m s0 (zoneActivate s x1 x2 x3) := by
  intro s x1 x2 x3 hM h
  refine Same.run hM h fun h0 => ?_
  unfold zoneActivate
  repeat' (with_reducible first
    | assumption
    | exact Same.bits rfl
    | (extract_lets +onlyGivenNames z; change State at z; apply Same.cutS h0 (x := z); unfold z; clear z; rotate_left; intro h; clear_value z; apply Same.letS h; clear h z; intro z h)
    | (extract_lets +onlyGivenNames z; change _ × _ × State at z; apply Same.cut22 h0 (x := z); unfold z; clear z; rotate_left; intro h; clear_value z; apply Same.let22 (x := z) h; clear h z; intro z h)
    | (extract_lets +onlyGivenNames z; change _ × State at z; apply Same.cut2 h0 (x := z); unfold z; clear z; rotate_left; intro h; clear_value z; apply Same.let2 (x := z) h; clear h z; intro z h)
    | (extract_lets +onlyGivenNames z; clear_value z; apply Same.letAny z; clear z; intro z)
    | apply Same.ite
    | apply fset_frame
    | apply fon_frame
    | apply zonePut_frame
    | apply cursorOpen_frame
    | split
    | dsimp -zeta only)

theorem zoneOpenFor_frame {m : Nat} {s0 : State} : ∀ s x1 x2 x3 x4, 2223106 &&& m = 2223106 → Same m s0 s → Same2 m s0 (zoneOpenFor s x1 x2 x3 x4) := by
  intro s x1 x2 x3 x4 hM h
  refine Same2.run hM h fun h0 => ?_
  unfold zoneOpenFor
  repeat' (with_reducible first
    | assumption
    | exact Same.bits rfl
    | (extract_lets +onlyGivenNames z; change State at z; apply Same.cutS h0 (x := z); unfold z; clear z; rotate_left; intro h; clear_value z; apply Same.letS h; clear h z; intro z h)
    | (extract_lets +onlyGivenNames z; change _ × _ × State at z; apply Same.cut22 h0 (x := z); unfold z; clear z; rotate_left; intro h; clear_value z; apply Same.let22 (x := z) h; clear h z; intro z h)
    | (extract_lets +onlyGivenNames z; change _ × State at z; apply Same.cut2 h0 (x := z); unfold z; clear z; rotate_left; intro h; clear_value z; apply Same.let2 (x := z) h; clear h z; intro z h)
    | (extract_lets +onlyGivenNames z; clear_value z; apply Same.letAny z; clear z; intro z)
    | apply Same.ite
    | apply Same2.ite
    | apply enterReadOnly_frame
    | apply zoneState_frame
    | apply zoneActivate_frame
    | apply zonePut_frame
    | apply journalZone_frame
    | split
    | dsimp -zeta only
    | apply Same2.mk')

theorem zoneReserve_frame {m : Nat} {s0 : State} : ∀ s x1 x2 x3 x4 x5, 2223106 &&& m = 2223106 → Same m s0 s → Same22 m s0 (zoneReserve s x1 x2 x3 x4 x5) := by
  intro s x1 x2 x3 x4 x5 hM h
  refine Same22.run hM h fun h0 => ?_
  unfold zoneReserve
  repeat' (with_reducible first
    | assumption
    | exact Same.bits rfl
    | (extract_lets +onlyGivenNames z; change State at z; apply Same.cutS h0 (x := z); unfold z; clear z; rotate_left; intro h; clear_value z; apply Same.letS h; clear h z; intro z h)
    | (extract_lets +onlyGivenNames z; change _ × State at z; apply Same.cut2 h0 (x := z); unfold z; clear z; rotate_left; intro h; clear_value z; apply Same.let2 (x := z) h; clear h z; intro z h)
    | (extract_lets +onlyGivenNames z; clear_value z; apply Same.letAny z; clear z; intro z)
    | apply Same22.ite
    | apply zoneOpenFor_frame
    | apply zonePut_frame
    | apply journalZone_frame
    | split
    | apply Same2.mk'
    | apply Same22.mk')

theorem chargeSlice_frame {m : Nat} {s0 : State} : ∀ s x1 x2, 4096 &&& m = 4096 → Same m s0 s → Same m s0 (chargeSlice s x1 x2) := by
  intro s x1 x2 hM h
  refine Same.run hM h fun h0 => ?_
  unfold chargeSlice
  repeat' (with_reducible first
    | assumption
    | exact Same.bits rfl
    | apply sliceUpd_frame)

theorem ioGo_frame {m : Nat} {s0 : State} : ∀ s x1 x2, 2048 &&& m = 2048 → Same m s0 s → Same m s0 (ioGo s x1 x2) := by
  intro s x1 x2 hM h
  refine Same.run hM h fun h0 => ?_
  unfold ioGo
  repeat' (with_reducible first
    | assumption
    | exact Same.bits rfl
    | apply ctxUpd_frame)

theorem zoneWrite_frame {m : Nat} {s0 : State} : ∀ x0 x1 x2 x3 s, 2227202 &&& m = 2227202 → Same m s0 s → Same m s0 (zoneWrite x0 x1 x2 x3 s) := by
  intro x0 x1 x2 x3 s hM h
  refine Same.run hM h fun h0 => ?_
  unfold zoneWrite
  repeat' (with_reducible first
    | assumption
    | intro _
    | exact Same.bits rfl
    | (extract_lets +onlyGivenNames z; change State at z; apply Same.cutS h0 (x := z); unfold z; clear z; rotate_left; intro h; clear_value z; apply Same.letS h; clear h z; intro z h)
    | (extract_lets +onlyGivenNames z; change _ × _ × State at z; apply Same.cut22 h0 (x := z); unfold z; clear z; rotate_left; intro h; clear_value z; apply Same.let22 (x := z) h; clear h z; intro z h)
    | (extract_lets +onlyGivenNames z; change _ × State at z; apply Same.cut2 h0 (x := z); unfold z; clear z; rotate_left; intro h; clear_value z; apply Same.let2 (x := z) h; clear h z; intro z h)
    | (extract_lets +onlyGivenNames z; clear_value z; apply Same.letAny z; clear z; intro z)
    | apply Same.ite
    | apply Same2.ite
    | apply Same22.ite
    | apply descLookup_frame
    | apply zoneReserve_frame
    | apply ctxFail_frame
    | apply seqTake_frame
    | apply chargeSlice_frame
    | apply ioGo_frame
    | (apply Same2.out; apply seqTake_frame)
    | (apply Same22.out; apply zoneReserve_frame)
    | split
    | dsimp -zeta only
    | apply Same2.mk'
    | apply Same22.mk'
    | apply Same2.mk')

theorem execZoneAppend_frame {m : Nat} {s0 : State} : ∀ x0 s, 146275922 &&& m = 146275922 → Same m s0 s → SameT m s0 (execZoneAppend x0 s) := by
  intro x0 s hM h
  refine SameT.run hM h fun h0 => ?_
  unfold execZoneAppend
  repeat' (with_reducible first
    | assumption
    | intro _
    | exact Same.bits rfl
    | apply SameT.next
    | apply Same.ite
    | apply ioRun_frame
    | apply zoneWrite_frame
    | apply ctxFail_frame)

theorem confSet_frame {m : Nat} {s0 : State} : ∀ s x1, 536872962 &&& m = 536872962 → Same m s0 s → Same m s0 (confSet s x1) := by
  intro s x1 hM h
  refine Same.run hM h fun h0 => ?_
  unfold confSet
  repeat' (with_reducible first
    | assumption
    | intro _
    | exact Same.bits rfl
    | (extract_lets +onlyGivenNames z; change State at z; apply Same.cutS h0 (x := z); unfold z; clear z; rotate_left; intro h; clear_value z; apply Same.letS h; clear h z; intro z h)
    | (extract_lets +onlyGivenNames z; change _ × _ × State at z; apply Same.cut22 h0 (x := z); unfold z; clear z; rotate_left; intro h; clear_value z; apply Same.let22 (x := z) h; clear h z; intro z h)
    | (extract_lets +onlyGivenNames z; change _ × State at z; apply Same.cut2 h0 (x := z); unfold z; clear z; rotate_left; intro h; clear_value z; apply Same.let2 (x := z) h; clear h z; intro z h)
    | (extract_lets +onlyGivenNames z; clear_value z; apply Same.letAny z; clear z; intro z)
    | apply fset_frame
    | apply openTaken_frame
    | apply portUpd_frame
    | dsimp -zeta only)

theorem ccEnSet_frame {m : Nat} {s0 : State} : ∀ s x1 x2 x3, 538971138 &&& m = 538971138 → Same m s0 s → Same m s0 (ccEnSet s x1 x2 x3) := by
  intro s x1 x2 x3 hM h
  refine Same.run hM h fun h0 => ?_
  unfold ccEnSet
  repeat' (with_reducible first
    | assumption
    | intro _
    | exact Same.bits rfl
    | (extract_lets +onlyGivenNames z; change State at z; apply Same.cutS h0 (x := z); unfold z; clear z; rotate_left; intro h; clear_value z; apply Same.letS h; clear h z; intro z h)
    | (extract_lets +onlyGivenNames z; change _ × _ × State at z; apply Same.cut22 h0 (x := z); unfold z; clear z; rotate_left; intro h; clear_value z; apply Same.let22 (x := z) h; clear h z; intro z h)
    | (extract_lets +onlyGivenNames z; change _ × State at z; apply Same.cut2 h0 (x := z); unfold z; clear z; rotate_left; intro h; clear_value z; apply Same.let2 (x := z) h; clear h z; intro z h)
    | (extract_lets +onlyGivenNames z; clear_value z; apply Same.letAny z; clear z; intro z)
    | apply Same.ite
    | apply psRefresh_frame
    | apply portUpd_frame
    | apply confSet_frame
    | (refine Same.updHst ?_ rfl; assumption)
    | split
    | dsimp -zeta only)

theorem execCardList_frame {m : Nat} {s0 : State} : ∀ x0 s, 2100866 &&& m = 2100866 → Same m s0 s → SameT m s0 (execCardList x0 s) := by
  intro x0 s hM h
  refine SameT.run hM h fun h0 => ?_
  unfold execCardList
  repeat' (with_reducible first
    | assumption
    | intro _
    | exact Same.bits rfl
    | apply SameT.next
    | apply mbxRun_frame
    | apply OpKeeps.opDef
    | apply Same2.mk')

theorem cardedRecords_frame {m : Nat} {s0 : State} : ∀ s, 2098178 &&& m = 2098178 → Same m s0 s → Same m s0 (cardedRecords s) := by
  intro s hM h
  refine Same.run hM h fun h0 => ?_
  unfold cardedRecords
  repeat' (with_reducible first
    | assumption
    | intro _
    | exact Same.bits rfl
    | apply post_frame
    | apply Same.foldl)

theorem execDescResetDie_frame {m : Nat} {s0 : State} : ∀ x0 s, 146275922 &&& m = 146275922 → Same m s0 s → SameT m s0 (execDescResetDie x0 s) := by
  intro x0 s hM h
  refine SameT.run hM h fun h0 => ?_
  unfold execDescResetDie
  repeat' (with_reducible first
    | assumption
    | exact Same.bits rfl
    | apply SameT.next
    | apply takeOp_frame)

theorem callSet_frame {m : Nat} {s0 : State} : ∀ s x1 x2 x3, 32768 &&& m = 32768 → Same m s0 s → Same m s0 (callSet s x1 x2 x3) := by
  intro s x1 x2 x3 hM h
  refine Same.run hM h fun h0 => ?_
  unfold callSet
  repeat' (with_reducible first
    | (extract_lets +onlyGivenNames z; change _ → _ at z; apply Same.cutF z; subst z)
    | (extract_lets +onlyGivenNames z; clear_value z; apply Same.letAny z; clear z; intro z)
    | (refine Same.updDsc ?_ rfl; assumption))

theorem retryHist_frame {m : Nat} {s0 : State} : ∀ s x1 x2 x3, 2 &&& m = 2 → Same m s0 s → Same m s0 (retryHist s x1 x2 x3) := by
  intro s x1 x2 x3 hM h
  refine Same.run hM h fun h0 => ?_
  unfold retryHist
  repeat' (with_reducible first
    | assumption
    | exact Same.bits rfl
    | (extract_lets +onlyGivenNames z; clear_value z; apply Same.letAny z; clear z; intro z)
    | apply finc_frame
    | split)

theorem stepMove_frame {m : Nat} {s0 : State} : ∀ s x1 x2 x3, 2 &&& m = 2 → Same m s0 s → Same m s0 (stepMove s x1 x2 x3) := by
  intro s x1 x2 x3 hM h
  refine Same.run hM h fun h0 => ?_
  unfold stepMove
  repeat' (with_reducible first
    | assumption
    | exact Same.bits rfl
    | (extract_lets +onlyGivenNames z; clear_value z; apply Same.letAny z; clear z; intro z)
    | apply fset_frame
    | split)

theorem diagDecode_frame {m : Nat} {s0 : State} : ∀ s x1, 2048 &&& m = 2048 → Same m s0 s → Same m s0 (diagDecode s x1) := by
  intro s x1 hM h
  refine Same.run hM h fun h0 => ?_
  unfold diagDecode
  repeat' (with_reducible first
    | assumption
    | exact Same.bits rfl
    | (extract_lets +onlyGivenNames z; change State at z; apply Same.cutS h0 (x := z); unfold z; clear z; rotate_left; intro h; clear_value z; apply Same.letS h; clear h z; intro z h)
    | (extract_lets +onlyGivenNames z; change _ × _ × State at z; apply Same.cut22 h0 (x := z); unfold z; clear z; rotate_left; intro h; clear_value z; apply Same.let22 (x := z) h; clear h z; intro z h)
    | (extract_lets +onlyGivenNames z; change _ × State at z; apply Same.cut2 h0 (x := z); unfold z; clear z; rotate_left; intro h; clear_value z; apply Same.let2 (x := z) h; clear h z; intro z h)
    | (extract_lets +onlyGivenNames z; clear_value z; apply Same.letAny z; clear z; intro z)
    | (refine Same.updHst ?_ rfl; assumption)
    | split
    | dsimp -zeta only)

theorem copyBlock_frame {m : Nat} {s0 : State} : ∀ s x1 x2 x3 x4, 3263490 &&& m = 3263490 → Same m s0 s → Same m s0 (copyBlock s x1 x2 x3 x4) := by
  intro s x1 x2 x3 x4 hM h
  refine Same.run hM h fun h0 => ?_
  unfold copyBlock
  repeat' (with_reducible first
    | exact Same.bits rfl
    | (extract_lets +onlyGivenNames z; clear_value z; apply Same.letAny z; clear z; intro z)
    | apply moveUnits_frame
    | (refine Same.updMed ?_ rfl; assumption))

theorem refreshQueue_frame {m : Nat} {s0 : State} : ∀ s x1 x2 x3, 3263490 &&& m = 3263490 → Same m s0 s → Same2 m s0 (refreshQueue s x1 x2 x3) := by
  intro s x1 x2 x3 hM h
  refine Same2.run hM h fun h0 => ?_
  unfold refreshQueue
  repeat' (with_reducible first
    | assumption
    | intro _
    | exact Same.bits rfl
    | (extract_lets +onlyGivenNames z; clear_value z; apply Same.letAny z; clear z; intro z)
    | apply copyBlock_frame
    | apply Same.foldl
    | apply Same2.mk')

theorem probeGroup_frame {m : Nat} {s0 : State} : ∀ s x1, 137481218 &&& m = 137481218 → Same m s0 s → Same m s0 (probeGroup s x1) := by
  intro s x1 hM h
  refine Same.run hM h fun h0 => ?_
  unfold probeGroup
  repeat' (with_reducible first
    | assumption
    | exact Same.bits rfl
    | (extract_lets +onlyGivenNames z; change State at z; apply Same.cutS h0 (x := z); unfold z; clear z; rotate_left; intro h; clear_value z; apply Same.letS h; clear h z; intro z h)
    | (extract_lets +onlyGivenNames z; change _ × _ × State at z; apply Same.cut22 h0 (x := z); unfold z; clear z; rotate_left; intro h; clear_value z; apply Same.let22 (x := z) h; clear h z; intro z h)
    | (extract_lets +onlyGivenNames z; change _ × State at z; apply Same.cut2 h0 (x := z); unfold z; clear z; rotate_left; intro h; clear_value z; apply Same.let2 (x := z) h; clear h z; intro z h)
    | (extract_lets +onlyGivenNames z; clear_value z; apply Same.letAny z; clear z; intro z)
    | apply Same.ite
    | apply Same2.ite
    | apply decodeOne_frame
    | apply retryHist_frame
    | apply stepMove_frame
    | apply diagDecode_frame
    | apply ageDecode_frame
    | apply refreshQueue_frame
    | apply post_frame
    | apply fon_frame
    | (apply Same.ofPair2; assumption)
    | (apply Same2.out; apply decodeOne_frame)
    | (apply Same2.out; apply refreshQueue_frame)
    | split
    | dsimp -zeta only
    | apply Same2.mk')

theorem planProbe_frame {m : Nat} {s0 : State} : ∀ s x1, 137481218 &&& m = 137481218 → Same m s0 s → Same m s0 (planProbe s x1) := by
  intro s x1 hM h
  refine Same.run hM h fun h0 => ?_
  unfold planProbe
  repeat' (with_reducible first
    | assumption
    | intro _
    | exact Same.bits rfl
    | (extract_lets +onlyGivenNames z; clear_value z; apply Same.letAny z; clear z; intro z)
    | apply Same.ite
    | apply probeGroup_frame
    | (refine Same.updAge ?_ rfl; assumption)
    | apply Same.foldl)

theorem umpSetPpLimit_frame {m : Nat} {s0 : State} : ∀ x0 x1 s, 67108866 &&& m = 67108866 → Same m s0 s → Same2 m s0 (umpSetPpLimit x0 x1 s) := by
  intro x0 x1 s hM h
  refine Same2.run hM h fun h0 => ?_
  unfold umpSetPpLimit
  repeat' (with_reducible first
    | assumption
    | exact Same.bits rfl
    | apply Same2.ite
    | apply setPpLimit_frame
    | apply setPut_frame
    | apply Same2.mk')

theorem execUmpSetPpLimit_frame {m : Nat} {s0 : State} : ∀ x0 s, 69209730 &&& m = 69209730 → Same m s0 s → SameT m s0 (execUmpSetPpLimit x0 s) := by
  intro x0 s hM h
  refine SameT.run hM h fun h0 => ?_
  unfold execUmpSetPpLimit
  repeat' (with_reducible first
    | assumption
    | intro _
    | exact Same.bits rfl
    | apply SameT.next
    | apply mbxRun_frame
    | apply umpSetPpLimit_frame
    | apply OpKeeps.opDef)

theorem suspResult_frame {m : Nat} {s0 : State} : ∀ s x1, 1081346 &&& m = 1081346 → Same m s0 s → Same m s0 (suspResult s x1) := by
  intro s x1 hM h
  refine Same.run hM h fun h0 => ?_
  unfold suspResult
  repeat' (with_reducible first
    | assumption
    | exact Same.bits rfl
    | (extract_lets +onlyGivenNames z; change State at z; apply Same.cutS h0 (x := z); unfold z; clear z; rotate_left; intro h; clear_value z; apply Same.letS h; clear h z; intro z h)
    | (extract_lets +onlyGivenNames z; clear_value z; apply Same.letAny z; clear z; intro z)
    | apply callReturn_frame
    | apply finc_frame
    | (refine Same.updDsc ?_ rfl; assumption)
    | split)

theorem resumeResult_frame {m : Nat} {s0 : State} : ∀ s x1, 32768 &&& m = 32768 → Same m s0 s → Same m s0 (resumeResult s x1) := by
  intro s x1 hM h
  refine Same.run hM h fun h0 => ?_
  unfold resumeResult
  repeat' (with_reducible first
    | assumption
    | (extract_lets +onlyGivenNames z; clear_value z; apply Same.letAny z; clear z; intro z)
    | (refine Same.updDsc ?_ rfl; assumption)
    | split)

theorem opTake_frame {m : Nat} {s0 : State} : ∀ s x1 x2 x3, 1081346 &&& m = 1081346 → Same m s0 s → Same m s0 (opTake s x1 x2 x3) := by
  intro s x1 x2 x3 hM h
  refine Same.run hM h fun h0 => ?_
  unfold opTake
  repeat' (with_reducible first
    | assumption
    | intro _
    | exact Same.bits rfl
    | (extract_lets +onlyGivenNames z; change State at z; apply Same.cutS h0 (x := z); unfold z; clear z; rotate_left; intro h; clear_value z; apply Same.letS h; clear h z; intro z h)
    | (extract_lets +onlyGivenNames z; change _ × _ × State at z; apply Same.cut22 h0 (x := z); unfold z; clear z; rotate_left; intro h; clear_value z; apply Same.let22 (x := z) h; clear h z; intro z h)
    | (extract_lets +onlyGivenNames z; change _ × State at z; apply Same.cut2 h0 (x := z); unfold z; clear z; rotate_left; intro h; clear_value z; apply Same.let2 (x := z) h; clear h z; intro z h)
    | (extract_lets +onlyGivenNames z; clear_value z; apply Same.letAny z; clear z; intro z)
    | apply Same.ite
    | apply callRefund_frame
    | apply callReturn_frame
    | (refine Same.updDsc ?_ rfl; assumption)
    | split
    | dsimp -zeta only)

theorem timeoutsPut_frame {m : Nat} {s0 : State} : ∀ s x1 x2, 65536 &&& m = 65536 → Same m s0 s → Same m s0 (timeoutsPut s x1 x2) := by
  intro s x1 x2 hM h
  refine Same.run hM h fun h0 => ?_
  unfold timeoutsPut
  repeat' (with_reducible first
    | (extract_lets +onlyGivenNames z; clear_value z; apply Same.letAny z; clear z; intro z)
    | (refine Same.updMed ?_ rfl; assumption))

theorem learn_frame {m : Nat} {s0 : State} : ∀ s x1 x2 x3, 2 &&& m = 2 → Same m s0 s → Same m s0 (learn s x1 x2 x3) := by
  intro s x1 x2 x3 hM h
  refine Same.run hM h fun h0 => ?_
  unfold learn
  repeat' (with_reducible first
    | assumption
    | exact Same.bits rfl
    | (extract_lets +onlyGivenNames z; clear_value z; apply Same.letAny z; clear z; intro z)
    | apply Same.ite
    | apply fset_frame)

theorem sampleTake_frame {m : Nat} {s0 : State} : ∀ s x1 x2 x3, 134217728 &&& m = 134217728 → Same m s0 s → Same m s0 (sampleTake s x1 x2 x3) := by
  intro s x1 x2 x3 hM h
  refine Same.run hM h fun h0 => ?_
  unfold sampleTake
  repeat' (with_reducible first
    | assumption
    | (extract_lets +onlyGivenNames z; clear_value z; apply Same.letAny z; clear z; intro z)
    | apply Same.ite
    | (refine Same.updAge ?_ rfl; assumption))

theorem readDec_frame {m : Nat} {s0 : State} : ∀ s x1 x2 x3, 34816 &&& m = 34816 → Same m s0 s → Same m s0 (readDec s x1 x2 x3) := by
  intro s x1 x2 x3 hM h
  refine Same.run hM h fun h0 => ?_
  unfold readDec
  repeat' (with_reducible first
    | assumption
    | intro _
    | exact Same.bits rfl
    | apply Same.ite
    | apply ctxUpd_frame
    | (refine Same.updDsc ?_ rfl; assumption)
    | split
    | dsimp -zeta only)

theorem readArrived_frame {m : Nat} {s0 : State} : ∀ s x1 x2, 34816 &&& m = 34816 → Same m s0 s → Same m s0 (readArrived s x1 x2) := by
  intro s x1 x2 hM h
  refine Same.run hM h fun h0 => ?_
  unfold readArrived
  repeat' (with_reducible first
    | assumption
    | intro _
    | exact Same.bits rfl
    | (extract_lets +onlyGivenNames z; change State at z; apply Same.cutS h0 (x := z); unfold z; clear z; rotate_left; intro h; clear_value z; apply Same.letS h; clear h z; intro z h)
    | (extract_lets +onlyGivenNames z; change _ × _ × State at z; apply Same.cut22 h0 (x := z); unfold z; clear z; rotate_left; intro h; clear_value z; apply Same.let22 (x := z) h; clear h z; intro z h)
    | (extract_lets +onlyGivenNames z; change _ × State at z; apply Same.cut2 h0 (x := z); unfold z; clear z; rotate_left; intro h; clear_value z; apply Same.let2 (x := z) h; clear h z; intro z h)
    | (extract_lets +onlyGivenNames z; clear_value z; apply Same.letAny z; clear z; intro z)
    | apply readDec_frame
    | apply readSt_frame
    | (refine Same.updDsc ?_ rfl; assumption)
    | split
    | dsimp -zeta only)

theorem pageProgrammed_frame {m : Nat} {s0 : State} : ∀ s x1 x2, 134299648 &&& m = 134299648 → Same m s0 s → Same m s0 (pageProgrammed s x1 x2) := by
  intro s x1 x2 hM h
  refine Same.run hM h fun h0 => ?_
  unfold pageProgrammed
  repeat' (with_reducible first
    | (extract_lets +onlyGivenNames z; change _ → _ at z; apply Same.cutF z; subst z)
    | (extract_lets +onlyGivenNames z; clear_value z; apply Same.letAny z; clear z; intro z)
    | (refine Same.updPlcMedAge ?_ rfl; assumption))

theorem ratedRetire_frame {m : Nat} {s0 : State} : ∀ s x1 x2 x3, 137620482 &&& m = 137620482 → Same m s0 s → Same m s0 (ratedRetire s x1 x2 x3) := by
  intro s x1 x2 x3 hM h
  refine Same.run hM h fun h0 => ?_
  unfold ratedRetire
  repeat' (with_reducible first
    | assumption
    | exact Same.bits rfl
    | apply Same.ite
    | apply retire_frame)

theorem requeue_frame {m : Nat} {s0 : State} : ∀ s x1 x2, 32770 &&& m = 32770 → Same m s0 s → Same m s0 (requeue s x1 x2) := by
  intro s x1 x2 hM h
  refine Same.run hM h fun h0 => ?_
  unfold requeue
  repeat' (with_reducible first
    | assumption
    | exact Same.bits rfl
    | (extract_lets +onlyGivenNames z; change State at z; apply Same.cutS h0 (x := z); unfold z; clear z; rotate_left; intro h; clear_value z; apply Same.letS h; clear h z; intro z h)
    | (extract_lets +onlyGivenNames z; change _ × _ × State at z; apply Same.cut22 h0 (x := z); unfold z; clear z; rotate_left; intro h; clear_value z; apply Same.let22 (x := z) h; clear h z; intro z h)
    | (extract_lets +onlyGivenNames z; change _ × State at z; apply Same.cut2 h0 (x := z); unfold z; clear z; rotate_left; intro h; clear_value z; apply Same.let2 (x := z) h; clear h z; intro z h)
    | (extract_lets +onlyGivenNames z; clear_value z; apply Same.letAny z; clear z; intro z)
    | apply Same.ite
    | apply queuePut_frame
    | apply parkPut_frame
    | split
    | dsimp -zeta only)

theorem learnLast_frame {m : Nat} {s0 : State} : ∀ s x1 x2 x3, 2 &&& m = 2 → Same m s0 s → Same m s0 (learnLast s x1 x2 x3) := by
  intro s x1 x2 x3 hM h
  refine Same.run hM h fun h0 => ?_
  unfold learnLast
  repeat' (with_reducible first
    | assumption
    | exact Same.bits rfl
    | apply Same.ite
    | apply learn_frame
    | split
    | dsimp -zeta only)

theorem restoreErased_frame {m : Nat} {s0 : State} : ∀ s x1 x2, 124930 &&& m = 124930 → Same m s0 s → Same m s0 (restoreErased s x1 x2) := by
  intro s x1 x2 hM h
  refine Same.run hM h fun h0 => ?_
  unfold restoreErased
  repeat' (with_reducible first
    | assumption
    | exact Same.bits rfl
    | (extract_lets +onlyGivenNames z; change State at z; apply Same.cutS h0 (x := z); unfold z; clear z; rotate_left; intro h; clear_value z; apply Same.letS h; clear h z; intro z h)
    | (extract_lets +onlyGivenNames z; change _ × _ × State at z; apply Same.cut22 h0 (x := z); unfold z; clear z; rotate_left; intro h; clear_value z; apply Same.let22 (x := z) h; clear h z; intro z h)
    | (extract_lets +onlyGivenNames z; change _ × State at z; apply Same.cut2 h0 (x := z); unfold z; clear z; rotate_left; intro h; clear_value z; apply Same.let2 (x := z) h; clear h z; intro z h)
    | (extract_lets +onlyGivenNames z; clear_value z; apply Same.letAny z; clear z; intro z)
    | apply Same.ite
    | apply dieInService_frame
    | (refine Same.updMed ?_ rfl; assumption)
    | split
    | dsimp -zeta only)

theorem opEnded_frame {m : Nat} {s0 : State} : ∀ s x1 x2 x3, 137620482 &&& m = 137620482 → Same m s0 s → Same m s0 (opEnded s x1 x2 x3) := by
  intro s x1 x2 x3 hM h
  refine Same.run hM h fun h0 => ?_
  unfold opEnded
  repeat' (with_reducible first
    | assumption
    | exact Same.bits rfl
    | (extract_lets +onlyGivenNames z; change State at z; apply Same.cutS h0 (x := z); unfold z; clear z; rotate_left; intro h; clear_value z; apply Same.letS h; clear h z; intro z h)
    | (extract_lets +onlyGivenNames z; change _ × _ × State at z; apply Same.cut22 h0 (x := z); unfold z; clear z; rotate_left; intro h; clear_value z; apply Same.let22 (x := z) h; clear h z; intro z h)
    | (extract_lets +onlyGivenNames z; change _ × State at z; apply Same.cut2 h0 (x := z); unfold z; clear z; rotate_left; intro h; clear_value z; apply Same.let2 (x := z) h; clear h z; intro z h)
    | (extract_lets +onlyGivenNames z; clear_value z; apply Same.letAny z; clear z; intro z)
    | apply Same.ite
    | apply learnLast_frame
    | apply opTake_frame
    | apply timeoutsPut_frame
    | apply sampleTake_frame
    | apply readArrived_frame
    | apply pageProgrammed_frame
    | apply ratedRetire_frame
    | apply usedRefresh_frame
    | apply blockErased_frame
    | apply restoreErased_frame
    | apply memberErased_frame
    | apply programFailed_frame
    | apply retire_frame
    | apply requeue_frame
    | apply dieLost_frame
    | split
    | dsimp -zeta only)

theorem opResult_frame {m : Nat} {s0 : State} : ∀ s x1 x2 x3, 137620482 &&& m = 137620482 → Same m s0 s → Same m s0 (opResult s x1 x2 x3) := by
  intro s x1 x2 x3 hM h
  refine Same.run hM h fun h0 => ?_
  unfold opResult
  repeat' (with_reducible first
    | assumption
    | exact Same.bits rfl
    | (extract_lets +onlyGivenNames z; change State at z; apply Same.cutS h0 (x := z); unfold z; clear z; rotate_left; intro h; clear_value z; apply Same.letS h; clear h z; intro z h)
    | (extract_lets +onlyGivenNames z; change _ × _ × State at z; apply Same.cut22 h0 (x := z); unfold z; clear z; rotate_left; intro h; clear_value z; apply Same.let22 (x := z) h; clear h z; intro z h)
    | (extract_lets +onlyGivenNames z; change _ × State at z; apply Same.cut2 h0 (x := z); unfold z; clear z; rotate_left; intro h; clear_value z; apply Same.let2 (x := z) h; clear h z; intro z h)
    | (extract_lets +onlyGivenNames z; clear_value z; apply Same.letAny z; clear z; intro z)
    | apply Same.ite
    | apply opEnded_frame
    | apply dieLost_frame
    | split
    | dsimp -zeta only)

theorem suspResets_frame {m : Nat} {s0 : State} : ∀ s, 163840 &&& m = 163840 → Same m s0 s → Same m s0 (suspResets s) := by
  intro s hM h
  refine Same.run hM h fun h0 => ?_
  unfold suspResets
  repeat' (with_reducible first
    | assumption
    | intro _
    | exact Same.bits rfl
    | (extract_lets +onlyGivenNames z; change State at z; apply Same.cutS h0 (x := z); unfold z; clear z; rotate_left; intro h; clear_value z; apply Same.letS h; clear h z; intro z h)
    | (extract_lets +onlyGivenNames z; change _ × _ × State at z; apply Same.cut22 h0 (x := z); unfold z; clear z; rotate_left; intro h; clear_value z; apply Same.let22 (x := z) h; clear h z; intro z h)
    | (extract_lets +onlyGivenNames z; change _ × State at z; apply Same.cut2 h0 (x := z); unfold z; clear z; rotate_left; intro h; clear_value z; apply Same.let2 (x := z) h; clear h z; intro z h)
    | (extract_lets +onlyGivenNames z; clear_value z; apply Same.letAny z; clear z; intro z)
    | apply Same.ite
    | apply chsPut_frame
    | (refine Same.updDsc ?_ rfl; assumption)
    | apply Same.foldl
    | split
    | dsimp -zeta only)

theorem suspBack_frame {m : Nat} {s0 : State} : ∀ s x1 x2, 32768 &&& m = 32768 → Same m s0 s → Same m s0 (suspBack s x1 x2) := by
  intro s x1 x2 hM h
  refine Same.run hM h fun h0 => ?_
  unfold suspBack
  repeat' (with_reducible first
    | assumption
    | intro _
    | exact Same.bits rfl
    | apply Same.ite
    | (refine Same.updDsc ?_ rfl; assumption)
    | split
    | dsimp -zeta only)

theorem dscResult_frame {m : Nat} {s0 : State} : ∀ s x1 x2, 137620482 &&& m = 137620482 → Same m s0 s → Same m s0 (dscResult s x1 x2) := by
  intro s x1 x2 hM h
  refine Same.run hM h fun h0 => ?_
  unfold dscResult
  repeat' (with_reducible first
    | assumption
    | intro _
    | exact Same.bits rfl
    | (extract_lets +onlyGivenNames z; change State at z; apply Same.cutS h0 (x := z); unfold z; clear z; rotate_left; intro h; clear_value z; apply Same.letS h; clear h z; intro z h)
    | (extract_lets +onlyGivenNames z; change _ × _ × State at z; apply Same.cut22 h0 (x := z); unfold z; clear z; rotate_left; intro h; clear_value z; apply Same.let22 (x := z) h; clear h z; intro z h)
    | (extract_lets +onlyGivenNames z; change _ × State at z; apply Same.cut2 h0 (x := z); unfold z; clear z; rotate_left; intro h; clear_value z; apply Same.let2 (x := z) h; clear h z; intro z h)
    | (extract_lets +onlyGivenNames z; clear_value z; apply Same.letAny z; clear z; intro z)
    | apply Same.ite
    | apply suspResets_frame
    | apply suspResult_frame
    | apply resumeResult_frame
    | apply suspBack_frame
    | apply requeue_frame
    | apply opTake_frame
    | apply opResult_frame
    | (refine Same.updFlash ?_ rfl; assumption)
    | split
    | dsimp -zeta only)

theorem discardPrepared_frame {m : Nat} {s0 : State} : ∀ s x1, 16386 &&& m = 16386 → Same m s0 s → Same m s0 (discardPrepared s x1) := by
  intro s x1 hM h
  refine Same.run hM h fun h0 => ?_
  unfold discardPrepared
  repeat' (with_reducible first
    | assumption
    | intro _
    | exact Same.bits rfl
    | (extract_lets +onlyGivenNames z; change State at z; apply Same.cutS h0 (x := z); unfold z; clear z; rotate_left; intro h; clear_value z; apply Same.letS h; clear h z; intro z h)
    | (extract_lets +onlyGivenNames z; change _ × _ × State at z; apply Same.cut22 h0 (x := z); unfold z; clear z; rotate_left; intro h; clear_value z; apply Same.let22 (x := z) h; clear h z; intro z h)
    | (extract_lets +onlyGivenNames z; change _ × State at z; apply Same.cut2 h0 (x := z); unfold z; clear z; rotate_left; intro h; clear_value z; apply Same.let2 (x := z) h; clear h z; intro z h)
    | (extract_lets +onlyGivenNames z; change _ → _ at z; apply Same.cutF z; subst z)
    | (extract_lets +onlyGivenNames z; clear_value z; apply Same.letAny z; clear z; intro z)
    | apply Same.ite
    | apply streamsRefresh_frame
    | apply grpRefresh_frame
    | (refine Same.updPlc ?_ rfl; assumption)
    | apply Same.foldl
    | split
    | dsimp -zeta only)

theorem callRequest_frame {m : Nat} {s0 : State} : ∀ s x1, 1048578 &&& m = 1048578 → Same m s0 s → Same2 m s0 (callRequest s x1) := by
  intro s x1 hM h
  refine Same2.run hM h fun h0 => ?_
  unfold callRequest
  repeat' (with_reducible first
    | assumption
    | exact Same.bits rfl
    | (extract_lets +onlyGivenNames z; change State at z; apply Same.cutS h0 (x := z); unfold z; clear z; rotate_left; intro h; clear_value z; apply Same.letS h; clear h z; intro z h)
    | (extract_lets +onlyGivenNames z; clear_value z; apply Same.letAny z; clear z; intro z)
    | apply Same2.ite
    | apply finc_frame
    | apply callGrant_frame
    | (refine Same.updUmp ?_ rfl; assumption)
    | apply Same2.mk')

theorem callGo_frame {m : Nat} {s0 : State} : ∀ s x1 x2 x3, 1081346 &&& m = 1081346 → Same m s0 s → Same2 m s0 (callGo s x1 x2 x3) := by
  intro s x1 x2 x3 hM h
  refine Same2.run hM h fun h0 => ?_
  unfold callGo
  repeat' (with_reducible first
    | assumption
    | exact Same.bits rfl
    | apply callRequest_frame
    | apply callSet_frame
    | (apply Same.ofPair2; assumption)
    | (apply Same2.out; apply callRequest_frame)
    | split
    | dsimp -zeta only
    | apply Same2.mk')

theorem callPick_frame {m : Nat} {s0 : State} : ∀ s x1, 1081346 &&& m = 1081346 → Same m s0 s → Same m s0 (callPick s x1) := by
  intro s x1 hM h
  refine Same.run hM h fun h0 => ?_
  unfold callPick
  repeat' (with_reducible first
    | assumption
    | exact Same.bits rfl
    | apply Same.ite
    | apply Same2.ite
    | apply callGo_frame
    | (refine Same.updDsc ?_ rfl; assumption)
    | (refine Same.updDsc ?_ rfl; apply Same.ofPair2; assumption)
    | (apply Same.ofPair2; assumption)
    | (apply Same2.out; apply callGo_frame)
    | split
    | dsimp -zeta only
    | apply Same2.mk')

theorem callFor_frame {m : Nat} {s0 : State} : ∀ s x1, 1081346 &&& m = 1081346 → Same m s0 s → Same m s0 (callFor s x1) := by
  intro s x1 hM h
  refine Same.run hM h fun h0 => ?_
  unfold callFor
  repeat' (with_reducible first
    | assumption
    | exact Same.bits rfl
    | apply Same.ite
    | apply Same2.ite
    | apply callGo_frame
    | apply callPick_frame
    | (apply Same.ofPair2; assumption)
    | (apply Same2.out; apply callGo_frame)
    | split
    | dsimp -zeta only
    | apply Same2.mk')

theorem execCallRequest_frame {m : Nat} {s0 : State} : ∀ x0 s, 1081346 &&& m = 1081346 → Same m s0 s → SameT m s0 (execCallRequest x0 s) := by
  intro x0 s hM h
  refine SameT.run hM h fun h0 => ?_
  unfold execCallRequest
  repeat' (with_reducible first
    | assumption
    | exact Same.bits rfl
    | apply SameT.next
    | apply callFor_frame)

theorem norErase_frame {m : Nat} {s0 : State} : ∀ s x1, 117441538 &&& m = 117441538 → Same m s0 s → Same m s0 (norErase s x1) := by
  intro s x1 hM h
  refine Same.run hM h fun h0 => ?_
  unfold norErase
  repeat' (with_reducible first
    | assumption
    | exact Same.bits rfl
    | (extract_lets +onlyGivenNames z; change State at z; apply Same.cutS h0 (x := z); unfold z; clear z; rotate_left; intro h; clear_value z; apply Same.letS h; clear h z; intro z h)
    | (extract_lets +onlyGivenNames z; clear_value z; apply Same.letAny z; clear z; intro z)
    | apply Same.ite
    | apply sgnShow_frame
    | (refine Same.updLkt ?_ rfl; assumption)
    | (refine Same.updSgn ?_ rfl; assumption)
    | (refine Same.updCls ?_ rfl; assumption)
    | (refine Same.updBot ?_ rfl; assumption))

theorem clsBoot_frame {m : Nat} {s0 : State} : ∀ s, 119538690 &&& m = 119538690 → Same m s0 s → Same m s0 (clsBoot s) := by
  intro s hM h
  refine Same.run hM h fun h0 => ?_
  unfold clsBoot
  repeat' (with_reducible first
    | assumption
    | intro _
    | exact Same.bits rfl
    | (extract_lets +onlyGivenNames z; change State at z; apply Same.cutS h0 (x := z); unfold z; clear z; rotate_left; intro h; clear_value z; apply Same.letS h; clear h z; intro z h)
    | (extract_lets +onlyGivenNames z; change _ × _ × State at z; apply Same.cut22 h0 (x := z); unfold z; clear z; rotate_left; intro h; clear_value z; apply Same.let22 (x := z) h; clear h z; intro z h)
    | (extract_lets +onlyGivenNames z; change _ × State at z; apply Same.cut2 h0 (x := z); unfold z; clear z; rotate_left; intro h; clear_value z; apply Same.let2 (x := z) h; clear h z; intro z h)
    | (extract_lets +onlyGivenNames z; clear_value z; apply Same.letAny z; clear z; intro z)
    | apply Same.ite
    | apply post_frame
    | apply finc_frame
    | apply norErase_frame
    | apply clsShow_frame
    | (refine Same.updCls ?_ rfl; assumption)
    | apply Same.foldl
    | split
    | dsimp -zeta only)

theorem heldAccept_frame {m : Nat} {s0 : State} : ∀ s, 2098178 &&& m = 2098178 → Same m s0 s → Same m s0 (heldAccept s) := by
  intro s hM h
  refine Same.run hM h fun h0 => ?_
  unfold heldAccept
  repeat' (with_reducible first
    | assumption
    | intro _
    | exact Same.bits rfl
    | (extract_lets +onlyGivenNames z; change State at z; apply Same.cutS h0 (x := z); unfold z; clear z; rotate_left; intro h; clear_value z; apply Same.letS h; clear h z; intro z h)
    | (extract_lets +onlyGivenNames z; clear_value z; apply Same.letAny z; clear z; intro z)
    | apply Same.ite
    | apply lktAccept_frame
    | (refine Same.updSgd ?_ rfl; assumption)
    | apply Same.foldl)

theorem lktBoot_frame {m : Nat} {s0 : State} : ∀ s, 2098178 &&& m = 2098178 → Same m s0 s → Same m s0 (lktBoot s) := by
  intro s hM h
  refine Same.run hM h fun h0 => ?_
  unfold lktBoot
  repeat' (with_reducible first
    | assumption
    | intro _
    | exact Same.bits rfl
    | (extract_lets +onlyGivenNames z; change State at z; apply Same.cutS h0 (x := z); unfold z; clear z; rotate_left; intro h; clear_value z; apply Same.letS h; clear h z; intro z h)
    | (extract_lets +onlyGivenNames z; clear_value z; apply Same.letAny z; clear z; intro z)
    | apply Same.ite
    | apply fon_frame
    | apply fadd_frame
    | apply post_frame
    | (refine Same.updLkt ?_ rfl; assumption)
    | apply Same.foldl)

theorem recoveryEntry_frame {m : Nat} {s0 : State} : ∀ s x1 x2 x3, 90178562 &&& m = 90178562 → Same m s0 s → Same2 m s0 (recoveryEntry s x1 x2 x3) := by
  intro s x1 x2 x3 hM h
  refine Same2.run hM h fun h0 => ?_
  unfold recoveryEntry
  repeat' (with_reducible first
    | assumption
    | exact Same.bits rfl
    | (extract_lets +onlyGivenNames z; change State at z; apply Same.cutS h0 (x := z); unfold z; clear z; rotate_left; intro h; clear_value z; apply Same.letS h; clear h z; intro z h)
    | (extract_lets +onlyGivenNames z; change _ × _ × State at z; apply Same.cut22 h0 (x := z); unfold z; clear z; rotate_left; intro h; clear_value z; apply Same.let22 (x := z) h; clear h z; intro z h)
    | (extract_lets +onlyGivenNames z; change _ × State at z; apply Same.cut2 h0 (x := z); unfold z; clear z; rotate_left; intro h; clear_value z; apply Same.let2 (x := z) h; clear h z; intro z h)
    | (extract_lets +onlyGivenNames z; clear_value z; apply Same.letAny z; clear z; intro z)
    | apply bootEntry_frame
    | (refine Same.updBot ?_ rfl; assumption)
    | (apply Same2.out; apply bootEntry_frame)
    | dsimp -zeta only
    | apply Same2.mk')

theorem recoveryStart_frame {m : Nat} {s0 : State} : ∀ s x1 x2, 90178562 &&& m = 90178562 → Same m s0 s → Same m s0 (recoveryStart s x1 x2) := by
  intro s x1 x2 hM h
  refine Same.run hM h fun h0 => ?_
  unfold recoveryStart
  repeat' (with_reducible first
    | assumption
    | exact Same.bits rfl
    | (extract_lets +onlyGivenNames z; change State at z; apply Same.cutS h0 (x := z); unfold z; clear z; rotate_left; intro h; clear_value z; apply Same.letS h; clear h z; intro z h)
    | (extract_lets +onlyGivenNames z; clear_value z; apply Same.letAny z; clear z; intro z)
    | apply deriveRom_frame
    | apply foff_frame
    | apply fset_frame
    | apply post_frame
    | apply fon_frame
    | (refine Same.updBot ?_ rfl; assumption))

theorem bootRecovery_frame {m : Nat} {s0 : State} : ∀ s x1 x2 x3, 90246210 &&& m = 90246210 → Same m s0 s → Same m s0 (bootRecovery s x1 x2 x3) := by
  intro s x1 x2 x3 hM h
  refine Same.run hM h fun h0 => ?_
  unfold bootRecovery
  repeat' (with_reducible first
    | assumption
    | intro _
    | exact Same.bits rfl
    | (extract_lets +onlyGivenNames z; change State at z; apply Same.cutS h0 (x := z); unfold z; clear z; rotate_left; intro h; clear_value z; apply Same.letS h; clear h z; intro z h)
    | (extract_lets +onlyGivenNames z; change _ × _ × State at z; apply Same.cut22 h0 (x := z); unfold z; clear z; rotate_left; intro h; clear_value z; apply Same.let22 (x := z) h; clear h z; intro z h)
    | (extract_lets +onlyGivenNames z; change _ × State at z; apply Same.cut2 h0 (x := z); unfold z; clear z; rotate_left; intro h; clear_value z; apply Same.let2 (x := z) h; clear h z; intro z h)
    | (extract_lets +onlyGivenNames z; clear_value z; apply Same.letAny z; clear z; intro z)
    | apply Same.ite
    | apply Same2.ite
    | apply cardsClear_frame
    | apply recoveryEntry_frame
    | apply recoveryStart_frame
    | apply trainEnable_frame
    | (refine Same.updBot ?_ rfl; assumption)
    | (refine Same.updHst ?_ rfl; assumption)
    | (apply Same2.out; apply recoveryEntry_frame)
    | split
    | dsimp -zeta only
    | apply Same2.mk')

theorem slotFail_frame {m : Nat} {s0 : State} : ∀ s x1 x2 x3, 69207042 &&& m = 69207042 → Same m s0 s → Same m s0 (slotFail s x1 x2 x3) := by
  intro s x1 x2 x3 hM h
  refine Same.run hM h fun h0 => ?_
  unfold slotFail
  repeat' (with_reducible first
    | assumption
    | exact Same.bits rfl
    | (extract_lets +onlyGivenNames z; change State at z; apply Same.cutS h0 (x := z); unfold z; clear z; rotate_left; intro h; clear_value z; apply Same.letS h; clear h z; intro z h)
    | (extract_lets +onlyGivenNames z; clear_value z; apply Same.letAny z; clear z; intro z)
    | apply bcrPut_frame
    | apply fon_frame
    | apply fset_frame
    | apply post_frame)

theorem bootSnoop_frame {m : Nat} {s0 : State} : ∀ s x1 x2, 538969090 &&& m = 538969090 → Same m s0 s → Same m s0 (bootSnoop s x1 x2) := by
  intro s x1 x2 hM h
  refine Same.run hM h fun h0 => ?_
  unfold bootSnoop
  repeat' (with_reducible first
    | assumption
    | exact Same.bits rfl
    | (extract_lets +onlyGivenNames z; change State at z; apply Same.cutS h0 (x := z); unfold z; clear z; rotate_left; intro h; clear_value z; apply Same.letS h; clear h z; intro z h)
    | (extract_lets +onlyGivenNames z; change _ × _ × State at z; apply Same.cut22 h0 (x := z); unfold z; clear z; rotate_left; intro h; clear_value z; apply Same.let22 (x := z) h; clear h z; intro z h)
    | (extract_lets +onlyGivenNames z; change _ × State at z; apply Same.cut2 h0 (x := z); unfold z; clear z; rotate_left; intro h; clear_value z; apply Same.let2 (x := z) h; clear h z; intro z h)
    | (extract_lets +onlyGivenNames z; clear_value z; apply Same.letAny z; clear z; intro z)
    | apply finc_frame
    | apply fset_frame
    | apply openTaken_frame
    | apply snoopShow_frame
    | split
    | dsimp -zeta only)

theorem romChoose_frame {m : Nat} {s0 : State} : ∀ l s, 606077954 &&& m = 606077954 → Same m s0 s → Same2 m s0 (romChoose l s) := by
  intro l
  induction l with
  | nil => intro s _ h; unfold romChoose; exact ⟨h⟩
  | cons k l ih =>
    intro s hM h
    unfold romChoose
    extract_lets b s1 st s2
    have h1 : Same m s0 s1 := by
      unfold s1
      split
      · exact bcrPut_frame _ _ (Same.sub (by decide) hM) h
      · exact h
    clear_value s1
    have h2 : Same m s0 s2 := by
      unfold s2
      split
      · exact bootSnoop_frame _ _ _ (Same.sub (by decide) hM) h1
      · exact h1
    clear_value s2
    split
    · exact ih _ hM (slotFail_frame _ _ _ _ (Same.sub (by decide) hM) h2)
    · exact ⟨h2⟩

theorem pendAdd_frame {m : Nat} {s0 : State} : ∀ s x1, 16777218 &&& m = 16777218 → Same m s0 s → SameO m s0 (pendAdd s x1) := by
  intro s x1 hM h
  refine SameO.run hM h fun h0 => ?_
  unfold pendAdd
  repeat' (with_reducible first
    | exact Same.bits rfl
    | (extract_lets +onlyGivenNames z; clear_value z; apply Same.letAny z; clear z; intro z)
    | apply SameO.ite
    | apply sgnShow_frame
    | (refine Same.updSgn ?_ rfl; assumption)
    | apply SameO.some
    | apply SameO.none)

theorem trialExpire_frame {m : Nat} {s0 : State} : ∀ s, 85984258 &&& m = 85984258 → Same m s0 s → Same m s0 (trialExpire s) := by
  intro s hM h
  refine Same.run hM h fun h0 => ?_
  unfold trialExpire
  repeat' (with_reducible first
    | assumption
    | exact Same.bits rfl
    | (extract_lets +onlyGivenNames z; change State at z; apply Same.cutS h0 (x := z); unfold z; clear z; rotate_left; intro h; clear_value z; apply Same.letS h; clear h z; intro z h)
    | (extract_lets +onlyGivenNames z; clear_value z; apply Same.letAny z; clear z; intro z)
    | apply Same.ite
    | apply pendAdd_frame
    | apply post_frame
    | apply fon_frame
    | apply bcrPut_frame
    | (apply Same.ofSome; assumption)
    | split)

theorem bootViews_frame {m : Nat} {s0 : State} : ∀ s x1 x2, 2 &&& m = 2 → Same m s0 s → Same m s0 (bootViews s x1 x2) := by
  intro s x1 x2 hM h
  refine Same.run hM h fun h0 => ?_
  unfold bootViews
  repeat' (with_reducible first
    | assumption
    | exact Same.bits rfl
    | (extract_lets +onlyGivenNames z; change State at z; apply Same.cutS h0 (x := z); unfold z; clear z; rotate_left; intro h; clear_value z; apply Same.letS h; clear h z; intro z h)
    | (extract_lets +onlyGivenNames z; clear_value z; apply Same.letAny z; clear z; intro z)
    | apply fset_frame
    | apply putBytes_frame
    | apply fuseShow_frame)

theorem latchesOpen_frame {m : Nat} {s0 : State} : ∀ s, 2 &&& m = 2 → Same m s0 s → Same m s0 (latchesOpen s) := by
  intro s hM h
  refine Same.run hM h fun h0 => ?_
  unfold latchesOpen
  repeat' (with_reducible first
    | assumption
    | exact Same.bits rfl
    | apply fon_frame)

theorem regsReset_frame {m : Nat} {s0 : State} : ∀ s w, 14 &&& m = 14 → Same m s0 s → Same m s0 (regsReset s w) := by
  intro s w hM h
  refine Same.step hM ?_ h
  clear h hM s0 m
  unfold regsReset
  extract_lets a b c d e s1 s2 s3
  have h1 : Same 14 s s1 := by
    unfold s1
    constructor <;> first | (intro _; rfl) | (intro q; exact absurd q (by decide)) | (intro q; exact RegFile.keep_wf q (fun a _ => keptReg a)) | exact Nat.le_refl _
  have h2 : Same 14 s s2 := fset_frame _ _ _ (by decide) (rset_frame _ _ _ (by decide) h1)
  have h3 : Same 14 s s3 := fset_frame _ _ _ (by decide) (fset_frame _ _ _ (by decide) h2)
  split
  · exact fset_frame _ _ _ (by decide) h3
  · exact h3

theorem fallReset_frame {m : Nat} {s0 : State} : ∀ s, 14 &&& m = 14 → Same m s0 s → Same m s0 (fallReset s) := by
  intro s hM h
  refine Same.run hM h fun h0 => ?_
  unfold fallReset
  repeat' (with_reducible first
    | assumption
    | exact Same.bits rfl
    | apply latchesOpen_frame
    | apply bootViews_frame
    | apply regsReset_frame
    | dsimp -zeta only)

theorem bootTry_frame {m : Nat} {s0 : State} : ∀ x0 s x2 x3 x4 x5, 796388718 &&& m = 796388718 → Same m s0 s → Same m s0 (bootTry x0 s x2 x3 x4 x5) := by
  have H : ∀ {s0 : State} x0 s x2 x3 x4 x5, Same 796388718 s0 s → Same 796388718 s0 (bootTry x0 s x2 x3 x4 x5) := by
    intro s0 x0 s x2 x3 x4 x5 h0
    induction x0 generalizing s x2 x3 x4 x5 with
    | zero =>
      rw [bootTry]
      repeat' (with_reducible first
      | assumption
      | exact Same.bits rfl
      | apply ih
      | (extract_lets +onlyGivenNames z; change State at z; apply Same.cutS h0 (x := z); unfold z; clear z; rotate_left; intro h; clear_value z; apply Same.letS h; clear h z; intro z h)
      | (extract_lets +onlyGivenNames z; change _ × _ × State at z; apply Same.cut22 h0 (x := z); unfold z; clear z; rotate_left; intro h; clear_value z; apply Same.let22 (x := z) h; clear h z; intro z h)
      | (extract_lets +onlyGivenNames z; change _ × State at z; apply Same.cut2 h0 (x := z); unfold z; clear z; rotate_left; intro h; clear_value z; apply Same.let2 (x := z) h; clear h z; intro z h)
      | (extract_lets +onlyGivenNames z; clear_value z; apply Same.letAny z; clear z; intro z)
      | apply Same.ite
      | apply Same2.ite
      | apply bootRecovery_frame
      | apply romChoose_frame
      | apply trialExpire_frame
      | apply bootSnoop_frame
      | apply bootNormal_frame
      | apply slotFail_frame
      | apply patternTest_frame
      | apply fallReset_frame
      | apply bootsUp_frame
      | apply fbiton_frame
      | (apply Same.ofPair2; assumption)
      | (apply Same2.out; apply romChoose_frame)
      | split
      | dsimp -zeta only
      | apply Same2.mk')
    | succ k ih =>
      rw [bootTry]
      repeat' (with_reducible first
      | assumption
      | exact Same.bits rfl
      | apply ih
      | (extract_lets +onlyGivenNames z; change State at z; apply Same.cutS h0 (x := z); unfold z; clear z; rotate_left; intro h; clear_value z; apply Same.letS h; clear h z; intro z h)
      | (extract_lets +onlyGivenNames z; change _ × _ × State at z; apply Same.cut22 h0 (x := z); unfold z; clear z; rotate_left; intro h; clear_value z; apply Same.let22 (x := z) h; clear h z; intro z h)
      | (extract_lets +onlyGivenNames z; change _ × State at z; apply Same.cut2 h0 (x := z); unfold z; clear z; rotate_left; intro h; clear_value z; apply Same.let2 (x := z) h; clear h z; intro z h)
      | (extract_lets +onlyGivenNames z; clear_value z; apply Same.letAny z; clear z; intro z)
      | apply Same.ite
      | apply Same2.ite
      | apply bootRecovery_frame
      | apply romChoose_frame
      | apply trialExpire_frame
      | apply bootSnoop_frame
      | apply bootNormal_frame
      | apply slotFail_frame
      | apply patternTest_frame
      | apply fallReset_frame
      | apply bootsUp_frame
      | apply fbiton_frame
      | (apply Same.ofPair2; assumption)
      | (apply Same2.out; apply romChoose_frame)
      | split
      | dsimp -zeta only
      | apply Same2.mk')
  intro x0 s x2 x3 x4 x5 hM h
  exact Same.step hM (H x0 s x2 x3 x4 x5 (Same.refl _ _)) h

theorem chgUpdate_frame {m : Nat} {s0 : State} : ∀ s, 2097154 &&& m = 2097154 → Same m s0 s → Same m s0 (chgUpdate s) := by
  intro s hM h
  refine Same.run hM h fun h0 => ?_
  unfold chgUpdate
  repeat' (with_reducible first
    | assumption
    | exact Same.bits rfl
    | (extract_lets +onlyGivenNames z; change State at z; apply Same.cutS h0 (x := z); unfold z; clear z; rotate_left; intro h; clear_value z; apply Same.letS h; clear h z; intro z h)
    | (extract_lets +onlyGivenNames z; change _ × _ × State at z; apply Same.cut22 h0 (x := z); unfold z; clear z; rotate_left; intro h; clear_value z; apply Same.let22 (x := z) h; clear h z; intro z h)
    | (extract_lets +onlyGivenNames z; change _ × State at z; apply Same.cut2 h0 (x := z); unfold z; clear z; rotate_left; intro h; clear_value z; apply Same.let2 (x := z) h; clear h z; intro z h)
    | (extract_lets +onlyGivenNames z; clear_value z; apply Same.letAny z; clear z; intro z)
    | apply Same.ite
    | apply fset_frame
    | (refine Same.updSgd ?_ rfl; assumption)
    | split
    | dsimp -zeta only)

theorem xtalShow_frame {m : Nat} {s0 : State} : ∀ s, 2 &&& m = 2 → Same m s0 s → Same m s0 (xtalShow s) := by
  intro s hM h
  refine Same.run hM h fun h0 => ?_
  unfold xtalShow
  repeat' (with_reducible first
    | assumption
    | exact Same.bits rfl
    | apply fset_frame
    | dsimp -zeta only)

theorem ceilingStore_frame {m : Nat} {s0 : State} : ∀ s, 34 &&& m = 34 → Same m s0 s → Same m s0 (ceilingStore s) := by
  intro s hM h
  refine Same.run hM h fun h0 => ?_
  unfold ceilingStore
  repeat' (with_reducible first
    | assumption
    | exact Same.bits rfl
    | (extract_lets +onlyGivenNames z; change Tmb at z; apply Same.cutT z; subst z)
    | apply Same.ite
    | apply foff_frame
    | (apply Same.upd; assumption)
    | (apply Or.inl; apply Eq.refl)
    | (apply Or.inr; constructor; decide; apply Nat.le_refl))

theorem timeOver_frame {m : Nat} {s0 : State} : ∀ s, 34 &&& m = 34 → Same m s0 s → Same m s0 (timeOver s) := by
  intro s hM h
  refine Same.run hM h fun h0 => ?_
  unfold timeOver
  repeat' (with_reducible first
    | assumption
    | exact Same.bits rfl
    | (extract_lets +onlyGivenNames z; change State at z; apply Same.cutS h0 (x := z); unfold z; clear z; rotate_left; intro h; clear_value z; apply Same.letS h; clear h z; intro z h)
    | (extract_lets +onlyGivenNames z; change _ × _ × State at z; apply Same.cut22 h0 (x := z); unfold z; clear z; rotate_left; intro h; clear_value z; apply Same.let22 (x := z) h; clear h z; intro z h)
    | (extract_lets +onlyGivenNames z; change _ × State at z; apply Same.cut2 h0 (x := z); unfold z; clear z; rotate_left; intro h; clear_value z; apply Same.let2 (x := z) h; clear h z; intro z h)
    | (extract_lets +onlyGivenNames z; clear_value z; apply Same.letAny z; clear z; intro z)
    | apply Same.ite
    | apply ceilingStore_frame
    | apply reach_frame
    | split
    | dsimp -zeta only)

theorem boot_frame {m : Nat} {s0 : State} : ∀ s x1 x2, 796388718 &&& m = 796388718 → Same m s0 s → Same m s0 (boot s x1 x2) := by
  intro s x1 x2 hM h
  refine Same.run hM h fun h0 => ?_
  unfold boot
  repeat' (with_reducible first
    | assumption
    | intro _
    | exact Same.bits rfl
    | (extract_lets +onlyGivenNames z; change State at z; apply Same.cutS h0 (x := z); unfold z; clear z; rotate_left; intro h; clear_value z; apply Same.letS h; clear h z; intro z h)
    | (extract_lets +onlyGivenNames z; change _ × _ × State at z; apply Same.cut22 h0 (x := z); unfold z; clear z; rotate_left; intro h; clear_value z; apply Same.let22 (x := z) h; clear h z; intro z h)
    | (extract_lets +onlyGivenNames z; change _ × State at z; apply Same.cut2 h0 (x := z); unfold z; clear z; rotate_left; intro h; clear_value z; apply Same.let2 (x := z) h; clear h z; intro z h)
    | (extract_lets +onlyGivenNames z; clear_value z; apply Same.letAny z; clear z; intro z)
    | apply Same.ite
    | apply bootsUp_frame
    | apply foff_frame
    | apply xtalShow_frame
    | apply timeOver_frame
    | apply fset_frame
    | apply fon_frame
    | apply clsBoot_frame
    | apply heldAccept_frame
    | apply lktBoot_frame
    | apply bootTry_frame
    | apply latchesOpen_frame
    | apply bootViews_frame
    | apply chgUpdate_frame
    | (refine Same.updSgdBot ?_ rfl; assumption)
    | (refine Same.updHst ?_ rfl; assumption)
    | (refine Same.updBot ?_ rfl; assumption)
    | split
    | dsimp -zeta only)

theorem resetRelease_frame {m : Nat} {s0 : State} : ∀ s, 796388718 &&& m = 796388718 → Same m s0 s → Same m s0 (resetRelease s) := by
  intro s hM h
  refine Same.run hM h fun h0 => ?_
  unfold resetRelease
  repeat' (with_reducible first
    | assumption
    | exact Same.bits rfl
    | apply Same.ite
    | apply boot_frame
    | apply reach_frame)

theorem execComputeResetRelease_frame {m : Nat} {s0 : State} : ∀ s, 796388718 &&& m = 796388718 → Same m s0 s → SameT m s0 (execComputeResetRelease s) := by
  intro s hM h
  refine SameT.run hM h fun h0 => ?_
  unfold execComputeResetRelease
  repeat' (with_reducible first
    | assumption
    | exact Same.bits rfl
    | apply SameT.next
    | apply resetRelease_frame)

theorem sqGone_frame {m : Nat} {s0 : State} : ∀ s x1 x2, 2050 &&& m = 2050 → Same m s0 s → Same m s0 (sqGone s x1 x2) := by
  intro s x1 x2 hM h
  refine Same.run hM h fun h0 => ?_
  unfold sqGone
  repeat' (with_reducible first
    | assumption
    | intro _
    | exact Same.bits rfl
    | (extract_lets +onlyGivenNames z; change State at z; apply Same.cutS h0 (x := z); unfold z; clear z; rotate_left; intro h; clear_value z; apply Same.letS h; clear h z; intro z h)
    | (extract_lets +onlyGivenNames z; change _ × _ × State at z; apply Same.cut22 h0 (x := z); unfold z; clear z; rotate_left; intro h; clear_value z; apply Same.let22 (x := z) h; clear h z; intro z h)
    | (extract_lets +onlyGivenNames z; change _ × State at z; apply Same.cut2 h0 (x := z); unfold z; clear z; rotate_left; intro h; clear_value z; apply Same.let2 (x := z) h; clear h z; intro z h)
    | (extract_lets +onlyGivenNames z; clear_value z; apply Same.letAny z; clear z; intro z)
    | apply Same.ite
    | apply slmShow_frame
    | apply adminEnd_frame
    | (refine Same.updHst ?_ rfl; assumption)
    | split
    | dsimp -zeta only)

theorem execSqDeletionDone_frame {m : Nat} {s0 : State} : ∀ x0 x1 s, 2050 &&& m = 2050 → Same m s0 s → SameT m s0 (execSqDeletionDone x0 x1 s) := by
  intro x0 x1 s hM h
  refine SameT.run hM h fun h0 => ?_
  unfold execSqDeletionDone
  repeat' (with_reducible first
    | assumption
    | exact Same.bits rfl
    | apply SameT.next
    | apply sqGone_frame)

theorem dropsShow_frame {m : Nat} {s0 : State} : ∀ s, 2097154 &&& m = 2097154 → Same m s0 s → Same m s0 (dropsShow s) := by
  intro s hM h
  refine Same.run hM h fun h0 => ?_
  unfold dropsShow
  repeat' (with_reducible first
    | assumption
    | exact Same.bits rfl
    | (extract_lets +onlyGivenNames z; change State at z; apply Same.cutS h0 (x := z); unfold z; clear z; rotate_left; intro h; clear_value z; apply Same.letS h; clear h z; intro z h)
    | (extract_lets +onlyGivenNames z; clear_value z; apply Same.letAny z; clear z; intro z)
    | apply fset_frame
    | (refine Same.updSgd ?_ rfl; assumption))

theorem execRestartHoldEnd_frame {m : Nat} {s0 : State} : ∀ s, 2097186 &&& m = 2097186 → Same m s0 s → SameT m s0 (execRestartHoldEnd s) := by
  intro s hM h
  refine SameT.run hM h fun h0 => ?_
  unfold execRestartHoldEnd
  repeat' (with_reducible first
    | assumption
    | exact Same.bits rfl
    | apply SameT.next
    | (extract_lets +onlyGivenNames z; change State at z; apply Same.cutS h0 (x := z); unfold z; clear z; rotate_left; intro h; clear_value z; apply Same.letS h; clear h z; intro z h)
    | (extract_lets +onlyGivenNames z; clear_value z; apply Same.letAny z; clear z; intro z)
    | apply Same.ite
    | apply dropsShow_frame
    | apply reach_frame
    | (refine Same.updSgd ?_ rfl; assumption)
    | split)

theorem idlePad_frame {m : Nat} {s0 : State} : ∀ s x1, 49186 &&& m = 49186 → Same m s0 s → Same m s0 (idlePad s x1) := by
  intro s x1 hM h
  refine Same.run hM h fun h0 => ?_
  unfold idlePad
  repeat' (with_reducible first
    | assumption
    | exact Same.bits rfl
    | apply Same.ite
    | apply padStripe_frame
    | apply reach_frame
    | split
    | dsimp -zeta only)

theorem dstPercent_frame {m : Nat} {s0 : State} : ∀ s, 536870912 &&& m = 536870912 → Same m s0 s → Same2 m s0 (dstPercent s) := by
  intro s hM h
  refine Same2.run hM h fun h0 => ?_
  unfold dstPercent
  repeat' (with_reducible first
    | assumption
    | exact Same.bits rfl
    | apply Same2.ite
    | apply openTaken_frame
    | apply Same2.mk')

theorem selftestStatus_frame {m : Nat} {s0 : State} : ∀ s, 536870912 &&& m = 536870912 → Same m s0 s → Same2 m s0 (selftestStatus s) := by
  intro s hM h
  refine Same2.run hM h fun h0 => ?_
  unfold selftestStatus
  repeat' (with_reducible first
    | assumption
    | exact Same.bits rfl
    | (extract_lets +onlyGivenNames z; change _ × State at z; apply Same.cut2 h0 (x := z); unfold z; clear z; rotate_left; intro h; clear_value z; apply Same.let2 (x := z) h; clear h z; intro z h)
    | (extract_lets +onlyGivenNames z; clear_value z; apply Same.letAny z; clear z; intro z)
    | apply dstPercent_frame
    | apply Same2.mk')

theorem panicOn_frame {m : Nat} {s0 : State} : ∀ s, 2 &&& m = 2 → Same m s0 s → Same m s0 (panicOn s) := by
  intro s hM h
  refine Same.run hM h fun h0 => ?_
  unfold panicOn
  repeat' (with_reducible first
    | assumption
    | exact Same.bits rfl
    | apply Same.ite
    | apply fon_frame
    | apply finc_frame)

theorem holdupEnter_frame {m : Nat} {s0 : State} : ∀ s, 1048578 &&& m = 1048578 → Same m s0 s → Same m s0 (holdupEnter s) := by
  intro s hM h
  refine Same.run hM h fun h0 => ?_
  unfold holdupEnter
  repeat' (with_reducible first
    | assumption
    | intro _
    | exact Same.bits rfl
    | (extract_lets +onlyGivenNames z; change State at z; apply Same.cutS h0 (x := z); unfold z; clear z; rotate_left; intro h; clear_value z; apply Same.letS h; clear h z; intro z h)
    | (extract_lets +onlyGivenNames z; change _ × _ × State at z; apply Same.cut22 h0 (x := z); unfold z; clear z; rotate_left; intro h; clear_value z; apply Same.let22 (x := z) h; clear h z; intro z h)
    | (extract_lets +onlyGivenNames z; change _ × State at z; apply Same.cut2 h0 (x := z); unfold z; clear z; rotate_left; intro h; clear_value z; apply Same.let2 (x := z) h; clear h z; intro z h)
    | (extract_lets +onlyGivenNames z; clear_value z; apply Same.letAny z; clear z; intro z)
    | apply Same.ite
    | apply fon_frame
    | apply fadd_frame
    | apply fset_frame
    | apply ppStart_frame
    | apply setFloors_frame
    | apply setTokens_frame
    | apply setCurrents_frame
    | (refine Same.updUmp ?_ rfl; assumption)
    | split
    | dsimp -zeta only)

theorem volleysDrop_frame {m : Nat} {s0 : State} : ∀ s, 514 &&& m = 514 → Same m s0 s → Same m s0 (volleysDrop s) := by
  intro s hM h
  refine Same.run hM h fun h0 => ?_
  unfold volleysDrop
  repeat' (with_reducible first
    | assumption
    | intro _
    | exact Same.bits rfl
    | apply volleyDrop_frame
    | apply Same.foldl)

theorem clsAbandon_frame {m : Nat} {s0 : State} : ∀ s x1, 35652610 &&& m = 35652610 → Same m s0 s → Same m s0 (clsAbandon s x1) := by
  intro s x1 hM h
  refine Same.run hM h fun h0 => ?_
  unfold clsAbandon
  repeat' (with_reducible first
    | assumption
    | exact Same.bits rfl
    | (extract_lets +onlyGivenNames z; change State at z; apply Same.cutS h0 (x := z); unfold z; clear z; rotate_left; intro h; clear_value z; apply Same.letS h; clear h z; intro z h)
    | (extract_lets +onlyGivenNames z; clear_value z; apply Same.letAny z; clear z; intro z)
    | apply foff_frame
    | apply fset_frame
    | apply finc_frame
    | apply fon_frame
    | apply post_frame
    | (refine Same.updCls ?_ rfl; assumption)
    | split)

theorem clsFail_frame {m : Nat} {s0 : State} : ∀ s, 35652610 &&& m = 35652610 → Same m s0 s → Same m s0 (clsFail s) := by
  intro s hM h
  refine Same.run hM h fun h0 => ?_
  unfold clsFail
  repeat' (with_reducible first
    | assumption
    | exact Same.bits rfl
    | apply Same.ite
    | apply clsAbandon_frame
    | split)

theorem failSteps_frame {m : Nat} {s0 : State} : ∀ s, 36867586 &&& m = 36867586 → Same m s0 s → Same m s0 (failSteps s) := by
  intro s hM h
  refine Same.run hM h fun h0 => ?_
  unfold failSteps
  repeat' (with_reducible first
    | assumption
    | intro _
    | exact Same.bits rfl
    | (extract_lets +onlyGivenNames z; change State at z; apply Same.cutS h0 (x := z); unfold z; clear z; rotate_left; intro h; clear_value z; apply Same.letS h; clear h z; intro z h)
    | (extract_lets +onlyGivenNames z; change _ × _ × State at z; apply Same.cut22 h0 (x := z); unfold z; clear z; rotate_left; intro h; clear_value z; apply Same.let22 (x := z) h; clear h z; intro z h)
    | (extract_lets +onlyGivenNames z; change _ × State at z; apply Same.cut2 h0 (x := z); unfold z; clear z; rotate_left; intro h; clear_value z; apply Same.let2 (x := z) h; clear h z; intro z h)
    | (extract_lets +onlyGivenNames z; clear_value z; apply Same.letAny z; clear z; intro z)
    | apply panicOn_frame
    | apply holdupEnter_frame
    | apply volleysDrop_frame
    | apply flushQueues_frame
    | apply fon_frame
    | apply dropQueued_frame
    | apply clsFail_frame
    | apply suspResets_frame
    | (refine Same.updHst ?_ rfl; assumption)
    | (refine Same.updDsc ?_ rfl; assumption)
    | apply Same.foldl
    | dsimp -zeta only)

theorem resetFlush_frame {m : Nat} {s0 : State} : ∀ s x1 x2, 103976450 &&& m = 103976450 → Same m s0 s → Same m s0 (resetFlush s x1 x2) := by
  intro s x1 x2 hM h
  refine Same.run hM h fun h0 => ?_
  unfold resetFlush
  repeat' (with_reducible first
    | assumption
    | exact Same.bits rfl
    | (extract_lets +onlyGivenNames z; change State at z; apply Same.cutS h0 (x := z); unfold z; clear z; rotate_left; intro h; clear_value z; apply Same.letS h; clear h z; intro z h)
    | (extract_lets +onlyGivenNames z; clear_value z; apply Same.letAny z; clear z; intro z)
    | apply Same.ite
    | apply cardedRecords_frame
    | apply failSteps_frame
    | (refine Same.updSgdBot ?_ rfl; assumption))

theorem execCsScrubPass_frame {m : Nat} {s0 : State} : ∀ x0 s, 2 &&& m = 2 → Same m s0 s → SameT m s0 (execCsScrubPass x0 s) := by
  intro x0 s hM h
  refine SameT.run hM h fun h0 => ?_
  unfold execCsScrubPass
  repeat' (with_reducible first
    | assumption
    | exact Same.bits rfl
    | apply SameT.next
    | apply Same.ite
    | apply fset_frame
    | apply finc_frame)

theorem execI3cDynamicAddressAssign_frame {m : Nat} {s0 : State} : ∀ x0 s, 2 &&& m = 2 → Same m s0 s → SameT m s0 (execI3cDynamicAddressAssign x0 s) := by
  intro x0 s hM h
  refine SameT.run hM h fun h0 => ?_
  unfold execI3cDynamicAddressAssign
  repeat' (with_reducible first
    | assumption
    | exact Same.bits rfl
    | apply SameT.next
    | apply Same.ite
    | apply fset_frame)

theorem wrDirtyMin_frame {m : Nat} {s0 : State} : ∀ s x1, 32770 &&& m = 32770 → Same m s0 s → Same m s0 (wrDirtyMin s x1) := by
  intro s x1 hM h
  refine Same.run hM h fun h0 => ?_
  unfold wrDirtyMin
  repeat' (with_reducible first
    | assumption
    | exact Same.bits rfl
    | apply budgetSet_frame
    | apply limitSet_frame
    | apply genWrite_frame)

theorem execSgdFlushWWrite_frame {m : Nat} {s0 : State} : ∀ x0 x1 s, 2130962 &&& m = 2130962 → Same m s0 s → SameT m s0 (execSgdFlushWWrite x0 x1 s) := by
  intro x0 x1 s hM h
  refine SameT.run hM h fun h0 => ?_
  unfold execSgdFlushWWrite
  repeat' (with_reducible first
    | assumption
    | intro _
    | exact Same.bits rfl
    | apply SameT.next
    | apply gated_frame
    | apply wrDirtyMin_frame)

theorem execPlacementStatus_frame {m : Nat} {s0 : State} : ∀ x0 s, 2100866 &&& m = 2100866 → Same m s0 s → SameT m s0 (execPlacementStatus x0 s) := by
  intro x0 s hM h
  refine SameT.run hM h fun h0 => ?_
  unfold execPlacementStatus
  repeat' (with_reducible first
    | assumption
    | exact Same.bits rfl
    | apply SameT.next
    | apply mbxRun_frame
    | apply OpKeeps.opRead)

theorem execGetSession_frame {m : Nat} {s0 : State} : ∀ x0 s, 2100866 &&& m = 2100866 → Same m s0 s → SameT m s0 (execGetSession x0 s) := by
  intro x0 s hM h
  refine SameT.run hM h fun h0 => ?_
  unfold execGetSession
  repeat' (with_reducible first
    | assumption
    | exact Same.bits rfl
    | apply SameT.next
    | apply mbxRun_frame
    | apply OpKeeps.opRead)

theorem backSet_frame {m : Nat} {s0 : State} : ∀ s, 2097152 &&& m = 2097152 → Same m s0 s → Same m s0 (backSet s) := by
  intro s hM h
  refine Same.run hM h fun h0 => ?_
  unfold backSet
  repeat' (with_reducible first
    | (extract_lets +onlyGivenNames z; clear_value z; apply Same.letAny z; clear z; intro z)
    | (refine Same.updSgd ?_ rfl; assumption))

theorem classShow_frame {m : Nat} {s0 : State} : ∀ s, 2097154 &&& m = 2097154 → Same m s0 s → Same m s0 (classShow s) := by
  intro s hM h
  refine Same.run hM h fun h0 => ?_
  unfold classShow
  repeat' (with_reducible first
    | assumption
    | exact Same.bits rfl
    | (extract_lets +onlyGivenNames z; change State at z; apply Same.cutS h0 (x := z); unfold z; clear z; rotate_left; intro h; clear_value z; apply Same.letS h; clear h z; intro z h)
    | (extract_lets +onlyGivenNames z; clear_value z; apply Same.letAny z; clear z; intro z)
    | apply fset_frame
    | apply chgUpdate_frame)

theorem classEnter_frame {m : Nat} {s0 : State} : ∀ s x1 x2, 2097154 &&& m = 2097154 → Same m s0 s → Same m s0 (classEnter s x1 x2) := by
  intro s x1 x2 hM h
  refine Same.run hM h fun h0 => ?_
  unfold classEnter
  repeat' (with_reducible first
    | assumption
    | exact Same.bits rfl
    | (extract_lets +onlyGivenNames z; change State at z; apply Same.cutS h0 (x := z); unfold z; clear z; rotate_left; intro h; clear_value z; apply Same.letS h; clear h z; intro z h)
    | (extract_lets +onlyGivenNames z; clear_value z; apply Same.letAny z; clear z; intro z)
    | apply Same.ite
    | apply fon_frame
    | apply classShow_frame
    | apply finc_frame
    | (refine Same.updSgd ?_ rfl; assumption))

theorem vinRead_frame {m : Nat} {s0 : State} : ∀ s x1, 2097154 &&& m = 2097154 → Same m s0 s → Same m s0 (vinRead s x1) := by
  intro s x1 hM h
  refine Same.run hM h fun h0 => ?_
  unfold vinRead
  repeat' (with_reducible first
    | assumption
    | intro _
    | exact Same.bits rfl
    | (extract_lets +onlyGivenNames z; change State at z; apply Same.cutS h0 (x := z); unfold z; clear z; rotate_left; intro h; clear_value z; apply Same.letS h; clear h z; intro z h)
    | (extract_lets +onlyGivenNames z; change _ × _ × State at z; apply Same.cut22 h0 (x := z); unfold z; clear z; rotate_left; intro h; clear_value z; apply Same.let22 (x := z) h; clear h z; intro z h)
    | (extract_lets +onlyGivenNames z; change _ × State at z; apply Same.cut2 h0 (x := z); unfold z; clear z; rotate_left; intro h; clear_value z; apply Same.let2 (x := z) h; clear h z; intro z h)
    | (extract_lets +onlyGivenNames z; clear_value z; apply Same.letAny z; clear z; intro z)
    | apply Same.ite
    | apply fset_frame
    | (refine Same.updSgd ?_ rfl; assumption)
    | split
    | dsimp -zeta only)

theorem execSagEnter_frame {m : Nat} {s0 : State} : ∀ x0 s, 2097154 &&& m = 2097154 → Same m s0 s → SameT m s0 (execSagEnter x0 s) := by
  intro x0 s hM h
  refine SameT.run hM h fun h0 => ?_
  unfold execSagEnter
  repeat' (with_reducible first
    | assumption
    | exact Same.bits rfl
    | apply SameT.next
    | apply Same.ite
    | apply backSet_frame
    | apply classEnter_frame
    | apply vinRead_frame)

theorem xteDecrypt_frame {m : Nat} {s0 : State} : ∀ s x1 x2 x3, 7863298 &&& m = 7863298 → Same m s0 s → Same m s0 (xteDecrypt s x1 x2 x3) := by
  intro s x1 x2 x3 hM h
  refine Same.run hM h fun h0 => ?_
  unfold xteDecrypt
  repeat' (with_reducible first
    | assumption
    | intro _
    | exact Same.bits rfl
    | (extract_lets +onlyGivenNames z; change State at z; apply Same.cutS h0 (x := z); unfold z; clear z; rotate_left; intro h; clear_value z; apply Same.letS h; clear h z; intro z h)
    | (extract_lets +onlyGivenNames z; change _ × _ × State at z; apply Same.cut22 h0 (x := z); unfold z; clear z; rotate_left; intro h; clear_value z; apply Same.let22 (x := z) h; clear h z; intro z h)
    | (extract_lets +onlyGivenNames z; change _ × State at z; apply Same.cut2 h0 (x := z); unfold z; clear z; rotate_left; intro h; clear_value z; apply Same.let2 (x := z) h; clear h z; intro z h)
    | (extract_lets +onlyGivenNames z; clear_value z; apply Same.letAny z; clear z; intro z)
    | apply Same.ite
    | apply finc_frame
    | apply unitSt_frame
    | apply readDone_frame
    | apply ctxUpd_frame
    | apply xteAgain_frame
    | split
    | dsimp -zeta only)

theorem dgeShow_frame {m : Nat} {s0 : State} : ∀ s, 2 &&& m = 2 → Same m s0 s → Same m s0 (dgeShow s) := by
  intro s hM h
  refine Same.run hM h fun h0 => ?_
  unfold dgeShow
  repeat' (with_reducible first
    | assumption
    | intro _
    | exact Same.bits rfl
    | (extract_lets +onlyGivenNames z; change _ → _ at z; apply Same.cutF z; subst z)
    | (extract_lets +onlyGivenNames z; change State at z; apply Same.cutS h0 (x := z); unfold z; clear z; rotate_left; intro h; clear_value z; apply Same.letS h; clear h z; intro z h)
    | (extract_lets +onlyGivenNames z; clear_value z; apply Same.letAny z; clear z; intro z)
    | apply fset_frame
    | apply rset_frame
    | apply Same.foldl
    | split)

theorem dgeEnd_frame {m : Nat} {s0 : State} : ∀ s x1 x2, 2 &&& m = 2 → Same m s0 s → Same m s0 (dgeEnd s x1 x2) := by
  intro s x1 x2 hM h
  refine Same.run hM h fun h0 => ?_
  unfold dgeEnd
  repeat' (with_reducible first
    | assumption
    | exact Same.bits rfl
    | (extract_lets +onlyGivenNames z; change State at z; apply Same.cutS h0 (x := z); unfold z; clear z; rotate_left; intro h; clear_value z; apply Same.letS h; clear h z; intro z h)
    | apply Same.ite
    | apply fset_frame
    | apply foff_frame
    | apply finc_frame
    | apply fon_frame)

theorem dgeTake_frame {m : Nat} {s0 : State} : ∀ s x1 x2, 683146834 &&& m = 683146834 → Same m s0 s → Same2 m s0 (dgeTake s x1 x2) := by
  intro s x1 x2 hM h
  refine Same2.run hM h fun h0 => ?_
  unfold dgeTake
  repeat' (with_reducible first
    | assumption
    | exact Same.bits rfl
    | (extract_lets +onlyGivenNames z; change State at z; apply Same.cutS h0 (x := z); unfold z; clear z; rotate_left; intro h; clear_value z; apply Same.letS h; clear h z; intro z h)
    | (extract_lets +onlyGivenNames z; change _ × _ × State at z; apply Same.cut22 h0 (x := z); unfold z; clear z; rotate_left; intro h; clear_value z; apply Same.let22 (x := z) h; clear h z; intro z h)
    | (extract_lets +onlyGivenNames z; change _ × State at z; apply Same.cut2 h0 (x := z); unfold z; clear z; rotate_left; intro h; clear_value z; apply Same.let2 (x := z) h; clear h z; intro z h)
    | (extract_lets +onlyGivenNames z; clear_value z; apply Same.letAny z; clear z; intro z)
    | apply Same.ite
    | apply Same2.ite
    | apply dgeEnd_frame
    | apply openTaken_frame
    | apply raiseVio_frame
    | apply fon_frame
    | (refine Same.updDge ?_ rfl; assumption)
    | split
    | dsimp -zeta only
    | apply Same2.mk')

theorem dgePreempt_frame {m : Nat} {s0 : State} : ∀ s x1, 545259522 &&& m = 545259522 → Same m s0 s → Same m s0 (dgePreempt s x1) := by
  intro s x1 hM h
  refine Same.run hM h fun h0 => ?_
  unfold dgePreempt
  repeat' (with_reducible first
    | assumption
    | exact Same.bits rfl
    | (extract_lets +onlyGivenNames z; change State at z; apply Same.cutS h0 (x := z); unfold z; clear z; rotate_left; intro h; clear_value z; apply Same.letS h; clear h z; intro z h)
    | (extract_lets +onlyGivenNames z; clear_value z; apply Same.letAny z; clear z; intro z)
    | apply openTaken_frame
    | apply fon_frame
    | apply finc_frame
    | (refine Same.updDge ?_ rfl; assumption)
    | split)

theorem dgeFill_frame {m : Nat} {s0 : State} : ∀ x0 s, 683146834 &&& m = 683146834 → Same m s0 s → Same m s0 (dgeFill x0 s) := by
  have H : ∀ {s0 : State} x0 s, Same 683146834 s0 s → Same 683146834 s0 (dgeFill x0 s) := by
    intro s0 x0 s h0
    induction x0 generalizing s with
    | zero =>
      rw [dgeFill]
      repeat' (with_reducible first
      | assumption
      | exact Same.bits rfl
      | apply ih
      | (extract_lets +onlyGivenNames z; clear_value z; apply Same.letAny z; clear z; intro z)
      | apply Same.ite
      | apply dgeShow_frame
      | apply dgePreempt_frame
      | (refine Same.updDge ?_ rfl; assumption)
      | (refine Same.updDge ?_ rfl; apply Same2.out; apply dgeTake_frame)
      | split)
    | succ k ih =>
      rw [dgeFill]
      repeat' (with_reducible first
      | assumption
      | exact Same.bits rfl
      | apply ih
      | (extract_lets +onlyGivenNames z; clear_value z; apply Same.letAny z; clear z; intro z)
      | apply Same.ite
      | apply dgeShow_frame
      | apply dgePreempt_frame
      | (refine Same.updDge ?_ rfl; assumption)
      | (refine Same.updDge ?_ rfl; apply Same2.out; apply dgeTake_frame)
      | split)
  intro x0 s hM h
  exact Same.step hM (H x0 s (Same.refl _ _)) h

theorem dgeDone_frame {m : Nat} {s0 : State} : ∀ s x1 x2, 687341138 &&& m = 687341138 → Same m s0 s → Same m s0 (dgeDone s x1 x2) := by
  intro s x1 x2 hM h
  refine Same.run hM h fun h0 => ?_
  unfold dgeDone
  repeat' (with_reducible first
    | assumption
    | intro _
    | exact Same.bits rfl
    | (extract_lets +onlyGivenNames z; change State at z; apply Same.cutS h0 (x := z); unfold z; clear z; rotate_left; intro h; clear_value z; apply Same.letS h; clear h z; intro z h)
    | (extract_lets +onlyGivenNames z; change _ × _ × State at z; apply Same.cut22 h0 (x := z); unfold z; clear z; rotate_left; intro h; clear_value z; apply Same.let22 (x := z) h; clear h z; intro z h)
    | (extract_lets +onlyGivenNames z; change _ × State at z; apply Same.cut2 h0 (x := z); unfold z; clear z; rotate_left; intro h; clear_value z; apply Same.let2 (x := z) h; clear h z; intro z h)
    | (extract_lets +onlyGivenNames z; clear_value z; apply Same.letAny z; clear z; intro z)
    | apply Same.ite
    | apply kstDerive_frame
    | apply putBytes_frame
    | apply finc_frame
    | apply dgeFill_frame
    | apply dgeEnd_frame
    | (refine Same.updDge ?_ rfl; assumption)
    | split
    | dsimp -zeta only)

theorem execDgeSha512_frame {m : Nat} {s0 : State} : ∀ x0 s, 687341138 &&& m = 687341138 → Same m s0 s → SameT m s0 (execDgeSha512 x0 s) := by
  intro x0 s hM h
  refine SameT.run hM h fun h0 => ?_
  unfold execDgeSha512
  repeat' (with_reducible first
    | assumption
    | exact Same.bits rfl
    | apply SameT.next
    | apply dgeDone_frame
    | dsimp -zeta only)

theorem grantWaiting_frame {m : Nat} {s0 : State} : ∀ x0 s, 1048578 &&& m = 1048578 → Same m s0 s → Same m s0 (grantWaiting x0 s) := by
  have H : ∀ {s0 : State} x0 s, Same 1048578 s0 s → Same 1048578 s0 (grantWaiting x0 s) := by
    intro s0 x0 s h0
    induction x0 generalizing s with
    | zero =>
      rw [grantWaiting]
      repeat' (with_reducible first
      | assumption
      | exact Same.bits rfl
      | apply ih
      | apply callGrant_frame
      | split)
    | succ k ih =>
      rw [grantWaiting]
      repeat' (with_reducible first
      | assumption
      | exact Same.bits rfl
      | apply ih
      | apply callGrant_frame
      | split)
  intro x0 s hM h
  exact Same.step hM (H x0 s (Same.refl _ _)) h

theorem execFloorHoldExpiry_frame {m : Nat} {s0 : State} : ∀ s, 1048610 &&& m = 1048610 → Same m s0 s → SameT m s0 (execFloorHoldExpiry s) := by
  intro s hM h
  refine SameT.run hM h fun h0 => ?_
  unfold execFloorHoldExpiry
  repeat' (with_reducible first
    | assumption
    | exact Same.bits rfl
    | apply SameT.next
    | apply reach_frame
    | apply grantWaiting_frame)

theorem spdmSay_frame {m : Nat} {s0 : State} : ∀ s x1, 128 &&& m = 128 → Same m s0 s → Same m s0 (spdmSay s x1) := by
  intro s x1 hM h
  refine Same.run hM h fun h0 => ?_
  unfold spdmSay
  repeat' (with_reducible first
    | (extract_lets +onlyGivenNames z; clear_value z; apply Same.letAny z; clear z; intro z)
    | (refine Same.updSpdm ?_ rfl; assumption))

theorem spdmWake_frame {m : Nat} {s0 : State} : ∀ s x1, 2100226 &&& m = 2100226 → Same m s0 s → Same m s0 (spdmWake s x1) := by
  intro s x1 hM h
  refine Same.run hM h fun h0 => ?_
  unfold spdmWake
  repeat' (with_reducible first
    | assumption
    | exact Same.bits rfl
    | apply Same.ite
    | apply psSideband_frame
    | split
    | dsimp -zeta only)

theorem spdmRun_frame {M : Nat} {s0 s : State} (hM : 2100354 &&& M = 2100354) (t : SPath) (f : State → State)
    (hf : ∀ t, Same M s0 t → Same M s0 (f t)) (h : Same M s0 s) : Same M s0 (spdmRun s t f) := by
  unfold spdmRun
  split
  · exact spdmWake_frame _ _ (Same.sub (by decide) hM) (hf _ h)
  · exact spdmSay_frame _ _ (Same.sub (by decide) hM) h

theorem crEnd_frame {m : Nat} {s0 : State} : ∀ s x1, 33554434 &&& m = 33554434 → Same m s0 s → Same m s0 (crEnd s x1) := by
  intro s x1 hM h
  refine Same.run hM h fun h0 => ?_
  unfold crEnd
  repeat' (with_reducible first
    | assumption
    | exact Same.bits rfl
    | (extract_lets +onlyGivenNames z; change State at z; apply Same.cutS h0 (x := z); unfold z; clear z; rotate_left; intro h; clear_value z; apply Same.letS h; clear h z; intro z h)
    | (extract_lets +onlyGivenNames z; clear_value z; apply Same.letAny z; clear z; intro z)
    | apply foff_frame
    | apply fset_frame
    | (refine Same.updCls ?_ rfl; assumption))

theorem norWord_frame {m : Nat} {s0 : State} : ∀ s x1, 536870912 &&& m = 536870912 → Same m s0 s → Same2 m s0 (norWord s x1) := by
  intro s x1 hM h
  refine Same2.run hM h fun h0 => ?_
  unfold norWord
  repeat' (with_reducible first
    | assumption
    | exact Same.bits rfl
    | (extract_lets +onlyGivenNames z; clear_value z; apply Same.letAny z; clear z; intro z)
    | apply Same2.ite
    | apply openTaken_frame
    | split
    | apply Same2.mk')

theorem snoopFeed_frame {m : Nat} {s0 : State} : ∀ s x1 x2, 8388610 &&& m = 8388610 → Same m s0 s → Same m s0 (snoopFeed s x1 x2) := by
  intro s x1 x2 hM h
  refine Same.run hM h fun h0 => ?_
  unfold snoopFeed
  repeat' (with_reducible first
    | assumption
    | exact Same.bits rfl
    | (extract_lets +onlyGivenNames z; clear_value z; apply Same.letAny z; clear z; intro z)
    | apply Same.ite
    | apply fset_frame
    | (refine Same.updDge ?_ rfl; assumption)
    | split)

theorem memPut_frame {m : Nat} {s0 : State} : ∀ s x1 x2, 16 &&& m = 16 → Same m s0 s → Same m s0 (memPut s x1 x2) := by
  intro s x1 x2 hM h
  refine Same.run hM h fun h0 => ?_
  unfold memPut
  repeat' (with_reducible first
    | assumption
    | intro _
    | exact Same.bits rfl
    | (refine Same.updFab ?_ rfl; assumption)
    | apply Same.foldl
    | dsimp -zeta only)

theorem crDeliver_frame {m : Nat} {s0 : State} : ∀ s x1 x2, 524306 &&& m = 524306 → Same m s0 s → Same m s0 (crDeliver s x1 x2) := by
  intro s x1 x2 hM h
  refine Same.run hM h fun h0 => ?_
  unfold crDeliver
  repeat' (with_reducible first
    | assumption
    | exact Same.bits rfl
    | (extract_lets +onlyGivenNames z; change State at z; apply Same.cutS h0 (x := z); unfold z; clear z; rotate_left; intro h; clear_value z; apply Same.letS h; clear h z; intro z h)
    | (extract_lets +onlyGivenNames z; change _ × _ × State at z; apply Same.cut22 h0 (x := z); unfold z; clear z; rotate_left; intro h; clear_value z; apply Same.let22 (x := z) h; clear h z; intro z h)
    | (extract_lets +onlyGivenNames z; change _ × State at z; apply Same.cut2 h0 (x := z); unfold z; clear z; rotate_left; intro h; clear_value z; apply Same.let2 (x := z) h; clear h z; intro z h)
    | (extract_lets +onlyGivenNames z; clear_value z; apply Same.letAny z; clear z; intro z)
    | apply Same.ite
    | apply memPut_frame
    | apply sramWrote_frame
    | split
    | dsimp -zeta only)

theorem wordsCorrected_frame {m : Nat} {s0 : State} : ∀ s x1 x2, 33554434 &&& m = 33554434 → Same m s0 s → Same m s0 (wordsCorrected s x1 x2) := by
  intro s x1 x2 hM h
  refine Same.run hM h fun h0 => ?_
  unfold wordsCorrected
  repeat' (with_reducible first
    | assumption
    | exact Same.bits rfl
    | (extract_lets +onlyGivenNames z; change State at z; apply Same.cutS h0 (x := z); unfold z; clear z; rotate_left; intro h; clear_value z; apply Same.letS h; clear h z; intro z h)
    | (extract_lets +onlyGivenNames z; change _ × _ × State at z; apply Same.cut22 h0 (x := z); unfold z; clear z; rotate_left; intro h; clear_value z; apply Same.let22 (x := z) h; clear h z; intro z h)
    | (extract_lets +onlyGivenNames z; change _ × State at z; apply Same.cut2 h0 (x := z); unfold z; clear z; rotate_left; intro h; clear_value z; apply Same.let2 (x := z) h; clear h z; intro z h)
    | (extract_lets +onlyGivenNames z; clear_value z; apply Same.letAny z; clear z; intro z)
    | apply Same.ite
    | apply fon_frame
    | apply fadd_frame
    | (refine Same.updCls ?_ rfl; assumption)
    | split
    | dsimp -zeta only)

theorem crRun_frame {m : Nat} {s0 : State} : ∀ x0 x1 s, 581436434 &&& m = 581436434 → Same m s0 s → Same m s0 (crRun x0 x1 s) := by
  have H : ∀ {s0 : State} x0 x1 s, Same 581436434 s0 s → Same 581436434 s0 (crRun x0 x1 s) := by
    intro s0 x0 x1 s h0
    induction x1 generalizing x0 s with
    | zero =>
      rw [crRun]
      repeat' (with_reducible first
      | assumption
      | exact Same.bits rfl
      | apply ih
      | (extract_lets +onlyGivenNames z; change State at z; apply Same.cutS h0 (x := z); unfold z; clear z; rotate_left; intro h; clear_value z; apply Same.letS h; clear h z; intro z h)
      | (extract_lets +onlyGivenNames z; change _ × _ × State at z; apply Same.cut22 h0 (x := z); unfold z; clear z; rotate_left; intro h; clear_value z; apply Same.let22 (x := z) h; clear h z; intro z h)
      | (extract_lets +onlyGivenNames z; change _ × State at z; apply Same.cut2 h0 (x := z); unfold z; clear z; rotate_left; intro h; clear_value z; apply Same.let2 (x := z) h; clear h z; intro z h)
      | (extract_lets +onlyGivenNames z; clear_value z; apply Same.letAny z; clear z; intro z)
      | apply Same.ite
      | apply Same2.ite
      | apply crEnd_frame
      | apply post_frame
      | apply fon_frame
      | apply finc_frame
      | apply norWord_frame
      | apply wordsCorrected_frame
      | apply snoopFeed_frame
      | apply crDeliver_frame
      | apply fset_frame
      | (refine Same.updCls ?_ rfl; assumption)
      | (refine Same.updCls ?_ rfl; apply Same.ofPair2; assumption)
      | (apply Same.ofPair2; assumption)
      | (apply Same2.out; apply norWord_frame)
      | split
      | dsimp -zeta only
      | apply Same2.mk')
    | succ k ih =>
      rw [crRun]
      repeat' (with_reducible first
      | assumption
      | exact Same.bits rfl
      | apply ih
      | (extract_lets +onlyGivenNames z; change State at z; apply Same.cutS h0 (x := z); unfold z; clear z; rotate_left; intro h; clear_value z; apply Same.letS h; clear h z; intro z h)
      | (extract_lets +onlyGivenNames z; change _ × _ × State at z; apply Same.cut22 h0 (x := z); unfold z; clear z; rotate_left; intro h; clear_value z; apply Same.let22 (x := z) h; clear h z; intro z h)
      | (extract_lets +onlyGivenNames z; change _ × State at z; apply Same.cut2 h0 (x := z); unfold z; clear z; rotate_left; intro h; clear_value z; apply Same.let2 (x := z) h; clear h z; intro z h)
      | (extract_lets +onlyGivenNames z; clear_value z; apply Same.letAny z; clear z; intro z)
      | apply Same.ite
      | apply Same2.ite
      | apply crEnd_frame
      | apply post_frame
      | apply fon_frame
      | apply finc_frame
      | apply norWord_frame
      | apply wordsCorrected_frame
      | apply snoopFeed_frame
      | apply crDeliver_frame
      | apply fset_frame
      | (refine Same.updCls ?_ rfl; assumption)
      | (refine Same.updCls ?_ rfl; apply Same.ofPair2; assumption)
      | (apply Same.ofPair2; assumption)
      | (apply Same2.out; apply norWord_frame)
      | split
      | dsimp -zeta only
      | apply Same2.mk')
  intro x0 x1 s hM h
  exact Same.step hM (H x0 x1 s (Same.refl _ _)) h

theorem bufMap_frame {m : Nat} {s0 : State} : ∀ s x1 x2, 262144 &&& m = 262144 → Same m s0 s → Same m s0 (bufMap s x1 x2) := by
  intro s x1 x2 hM h
  refine Same.run hM h fun h0 => ?_
  unfold bufMap
  repeat' (with_reducible first
    | (extract_lets +onlyGivenNames z; clear_value z; apply Same.letAny z; clear z; intro z)
    | (refine Same.updBpm ?_ rfl; assumption))

theorem vectorSend_frame {m : Nat} {s0 : State} : ∀ s x1 x2, 2048 &&& m = 2048 → Same m s0 s → Same m s0 (vectorSend s x1 x2) := by
  intro s x1 x2 hM h
  refine Same.run hM h fun h0 => ?_
  unfold vectorSend
  repeat' (with_reducible first
    | exact Same.bits rfl
    | (extract_lets +onlyGivenNames z; clear_value z; apply Same.letAny z; clear z; intro z)
    | apply msixSend_frame
    | (refine Same.updHst ?_ rfl; assumption))

theorem execInterruptCoalescingTimeout_frame {m : Nat} {s0 : State} : ∀ x0 x1 s, 2048 &&& m = 2048 → Same m s0 s → SameT m s0 (execInterruptCoalescingTimeout x0 x1 s) := by
  intro x0 x1 s hM h
  refine SameT.run hM h fun h0 => ?_
  unfold execInterruptCoalescingTimeout
  repeat' (with_reducible first
    | assumption
    | exact Same.bits rfl
    | apply SameT.next
    | apply Same.ite
    | apply vectorSend_frame)

theorem clsPut_frame {m : Nat} {s0 : State} : ∀ s x1 x2, 33554434 &&& m = 33554434 → Same m s0 s → Same m s0 (clsPut s x1 x2) := by
  intro s x1 x2 hM h
  refine Same.run hM h fun h0 => ?_
  unfold clsPut
  repeat' (with_reducible first
    | exact Same.bits rfl
    | (extract_lets +onlyGivenNames z; clear_value z; apply Same.letAny z; clear z; intro z)
    | apply clsShow_frame
    | (refine Same.updCls ?_ rfl; assumption))

theorem clsPost_frame {m : Nat} {s0 : State} : ∀ s x, 33554442 &&& m = 33554442 → Same m s0 s → Same m s0 (clsPost s x) := by
  intro s x hM h
  refine Same.step hM ?_ h
  clear h hM s0 m
  have hA : ∀ (t : State) (q : SMap Word), Same 33554442 s t → Same 33554442 s { t with sel := q } := fun t q ht =>
    Same.step (k := 8) (by decide) (by constructor <;> first | (intro _; rfl) | (intro e; exact absurd e (by decide)) | exact fun e => e | exact Nat.le_refl _) ht
  have hC : ∀ (t : State) (q : Cls'), Same 33554442 s t → Same 33554442 s { t with cls := q } := fun t q ht =>
    Same.step (k := 33554432) (by decide) (by constructor <;> first | (intro _; rfl) | (intro e; exact absurd e (by decide)) | exact fun e => e | exact Nat.le_refl _) ht
  unfold clsPost
  extract_lets w answer
  generalize (if fone s Fld.CLS_CTRL_EN = true then (List.range 28).find? fun i => (SMap.find s.cls.slots i).isNone else none) = o
  cases o with
  | some i => exact hA _ _ (clsPut_frame _ _ _ (by decide) (hC _ _ (Same.refl _ s)))
  | none => exact hA _ _ (Same.refl _ s)

theorem testBegin_frame {m : Nat} {s0 : State} : ∀ s, 2097186 &&& m = 2097186 → Same m s0 s → Same m s0 (testBegin s) := by
  intro s hM h
  refine Same.run hM h fun h0 => ?_
  unfold testBegin
  repeat' (with_reducible first
    | assumption
    | exact Same.bits rfl
    | (extract_lets +onlyGivenNames z; change State at z; apply Same.cutS h0 (x := z); unfold z; clear z; rotate_left; intro h; clear_value z; apply Same.letS h; clear h z; intro z h)
    | (extract_lets +onlyGivenNames z; clear_value z; apply Same.letAny z; clear z; intro z)
    | apply Same.ite
    | apply reach_frame
    | apply finc_frame
    | apply fset_frame
    | apply chgUpdate_frame
    | (refine Same.updSgd ?_ rfl; assumption))

theorem arrayPhase_frame {m : Nat} {s0 : State} : ∀ s x1, 536870946 &&& m = 536870946 → Same m s0 s → Same2 m s0 (arrayPhase s x1) := by
  intro s x1 hM h
  refine Same2.run hM h fun h0 => ?_
  unfold arrayPhase
  repeat' (with_reducible first
    | assumption
    | exact Same.bits rfl
    | (extract_lets +onlyGivenNames z; change State at z; apply Same.cutS h0 (x := z); unfold z; clear z; rotate_left; intro h; clear_value z; apply Same.letS h; clear h z; intro z h)
    | (extract_lets +onlyGivenNames z; change _ × _ × State at z; apply Same.cut22 h0 (x := z); unfold z; clear z; rotate_left; intro h; clear_value z; apply Same.let22 (x := z) h; clear h z; intro z h)
    | (extract_lets +onlyGivenNames z; change _ × State at z; apply Same.cut2 h0 (x := z); unfold z; clear z; rotate_left; intro h; clear_value z; apply Same.let2 (x := z) h; clear h z; intro z h)
    | (extract_lets +onlyGivenNames z; clear_value z; apply Same.letAny z; clear z; intro z)
    | apply reach_frame
    | apply openTaken_frame
    | dsimp -zeta only
    | apply Same2.mk')

theorem entProgram_frame {m : Nat} {s0 : State} : ∀ s x1 x2 x3 x4, 539165730 &&& m = 539165730 → Same m s0 s → Same2 m s0 (entProgram s x1 x2 x3 x4) := by
  intro s x1 x2 x3 x4 hM h
  refine Same2.run hM h fun h0 => ?_
  unfold entProgram
  repeat' (with_reducible first
    | assumption
    | intro _
    | exact Same.bits rfl
    | (extract_lets +onlyGivenNames z; change State at z; apply Same.cutS h0 (x := z); unfold z; clear z; rotate_left; intro h; clear_value z; apply Same.letS h; clear h z; intro z h)
    | (extract_lets +onlyGivenNames z; change _ × _ × State at z; apply Same.cut22 h0 (x := z); unfold z; clear z; rotate_left; intro h; clear_value z; apply Same.let22 (x := z) h; clear h z; intro z h)
    | (extract_lets +onlyGivenNames z; change _ × State at z; apply Same.cut2 h0 (x := z); unfold z; clear z; rotate_left; intro h; clear_value z; apply Same.let2 (x := z) h; clear h z; intro z h)
    | (extract_lets +onlyGivenNames z; clear_value z; apply Same.letAny z; clear z; intro z)
    | apply Same.ite
    | apply Same2.ite
    | apply arrayPhase_frame
    | apply fon_frame
    | apply chsPut_frame
    | apply post_frame
    | (refine Same.updMed ?_ rfl; assumption)
    | (apply Same2.out; apply arrayPhase_frame)
    | split
    | dsimp -zeta only
    | apply Same2.mk')

theorem adminRead_frame {M : Nat} {s0 s : State} (hM : 2048 &&& M = 2048) (c : AdminCmd) (opc : Nat) (f : State → Done)
    (h : Same M s0 s) : Same M s0 (adminRead s c opc f) :=
  adminRun_frame hM c _ _ (fun _ ht => ht) h

theorem execAbort_frame {m : Nat} {s0 : State} : ∀ x0 s, 2048 &&& m = 2048 → Same m s0 s → SameT m s0 (execAbort x0 s) := by
  intro x0 s hM h
  refine SameT.run hM h fun h0 => ?_
  unfold execAbort
  repeat' (with_reducible first
    | assumption
    | exact Same.bits rfl
    | apply SameT.next
    | (extract_lets +onlyGivenNames z; clear_value z; apply Same.letAny z; clear z; intro z)
    | apply adminRead_frame)

theorem wrLatSel_frame {m : Nat} {s0 : State} : ∀ s x1, 32770 &&& m = 32770 → Same m s0 s → Same m s0 (wrLatSel s x1) := by
  intro s x1 hM h
  refine Same.run hM h fun h0 => ?_
  unfold wrLatSel
  repeat' (with_reducible first
    | assumption
    | exact Same.bits rfl
    | (extract_lets +onlyGivenNames z; change State at z; apply Same.cutS h0 (x := z); unfold z; clear z; rotate_left; intro h; clear_value z; apply Same.letS h; clear h z; intro z h)
    | (extract_lets +onlyGivenNames z; clear_value z; apply Same.letAny z; clear z; intro z)
    | apply Same.ite
    | apply genWrite_frame
    | (refine Same.updDsc ?_ rfl; assumption))

theorem cardQuery_frame {m : Nat} {s0 : State} : ∀ s x1, 2 &&& m = 2 → Same m s0 s → Same m s0 (cardQuery s x1) := by
  intro s x1 hM h
  refine Same.run hM h fun h0 => ?_
  unfold cardQuery
  repeat' (with_reducible first
    | assumption
    | exact Same.bits rfl
    | (extract_lets +onlyGivenNames z; change _ → _ at z; apply Same.cutF z; subst z)
    | apply fset_frame
    | split)

theorem execAcmCardQuery_frame {m : Nat} {s0 : State} : ∀ x0 x1 s, 2098194 &&& m = 2098194 → Same m s0 s → SameT m s0 (execAcmCardQuery x0 x1 s) := by
  intro x0 x1 s hM h
  refine SameT.run hM h fun h0 => ?_
  unfold execAcmCardQuery
  repeat' (with_reducible first
    | assumption
    | intro _
    | exact Same.bits rfl
    | apply SameT.next
    | apply gated_frame
    | apply cardQuery_frame
    | apply genWrite_frame)

theorem powerFail_frame {m : Nat} {s0 : State} : ∀ s x1, 36867586 &&& m = 36867586 → Same m s0 s → Same m s0 (powerFail s x1) := by
  intro s x1 hM h
  refine Same.run hM h fun h0 => ?_
  unfold powerFail
  repeat' (with_reducible first
    | assumption
    | exact Same.bits rfl
    | (extract_lets +onlyGivenNames z; change State at z; apply Same.cutS h0 (x := z); unfold z; clear z; rotate_left; intro h; clear_value z; apply Same.letS h; clear h z; intro z h)
    | (extract_lets +onlyGivenNames z; change _ × _ × State at z; apply Same.cut22 h0 (x := z); unfold z; clear z; rotate_left; intro h; clear_value z; apply Same.let22 (x := z) h; clear h z; intro z h)
    | (extract_lets +onlyGivenNames z; change _ × State at z; apply Same.cut2 h0 (x := z); unfold z; clear z; rotate_left; intro h; clear_value z; apply Same.let2 (x := z) h; clear h z; intro z h)
    | (extract_lets +onlyGivenNames z; clear_value z; apply Same.letAny z; clear z; intro z)
    | apply Same.ite
    | apply foff_frame
    | apply fset_frame
    | apply chgUpdate_frame
    | apply testAbort_frame
    | apply failSteps_frame
    | (refine Same.updSgd ?_ rfl; assumption)
    | split
    | dsimp -zeta only)

theorem dropout_frame {m : Nat} {s0 : State} : ∀ s x1, 103976450 &&& m = 103976450 → Same m s0 s → Same m s0 (dropout s x1) := by
  intro s x1 hM h
  refine Same.run hM h fun h0 => ?_
  unfold dropout
  repeat' (with_reducible first
    | assumption
    | exact Same.bits rfl
    | (extract_lets +onlyGivenNames z; change State at z; apply Same.cutS h0 (x := z); unfold z; clear z; rotate_left; intro h; clear_value z; apply Same.letS h; clear h z; intro z h)
    | (extract_lets +onlyGivenNames z; clear_value z; apply Same.letAny z; clear z; intro z)
    | apply Same.ite
    | apply post_frame
    | apply dropsShow_frame
    | apply powerFail_frame
    | (refine Same.updSgd ?_ rfl; assumption)
    | (refine Same.updSgdBot ?_ rfl; assumption))

theorem execDropout_frame {m : Nat} {s0 : State} : ∀ x0 s, 103976450 &&& m = 103976450 → Same m s0 s → SameT m s0 (execDropout x0 s) := by
  intro x0 s hM h
  refine SameT.run hM h fun h0 => ?_
  unfold execDropout
  repeat' (with_reducible first
    | assumption
    | exact Same.bits rfl
    | apply SameT.next
    | (extract_lets +onlyGivenNames z; change State at z; apply Same.cutS h0 (x := z); unfold z; clear z; rotate_left; intro h; clear_value z; apply Same.letS h; clear h z; intro z h)
    | apply Same.ite
    | apply backSet_frame
    | apply classEnter_frame
    | apply vinRead_frame
    | apply dropout_frame)

theorem firmwareReset_frame {m : Nat} {s0 : State} : ∀ s x1, 104066562 &&& m = 104066562 → Same m s0 s → Same m s0 (firmwareReset s x1) := by
  intro s x1 hM h
  refine Same.run hM h fun h0 => ?_
  unfold firmwareReset
  repeat' (with_reducible first
    | assumption
    | exact Same.bits rfl
    | apply resetFlush_frame
    | apply stripesClose_frame)

theorem commitActivate_frame {m : Nat} {s0 : State} : ∀ s x1 x2, 104066562 &&& m = 104066562 → Same m s0 s → Same2 m s0 (commitActivate s x1 x2) := by
  intro s x1 x2 hM h
  refine Same2.run hM h fun h0 => ?_
  unfold commitActivate
  repeat' (with_reducible first
    | assumption
    | exact Same.bits rfl
    | (extract_lets +onlyGivenNames z; change State at z; apply Same.cutS h0 (x := z); unfold z; clear z; rotate_left; intro h; clear_value z; apply Same.letS h; clear h z; intro z h)
    | (extract_lets +onlyGivenNames z; clear_value z; apply Same.letAny z; clear z; intro z)
    | apply Same2.ite
    | apply bcrPut_frame
    | apply firmwareReset_frame
    | (refine Same.updBot ?_ rfl; assumption)
    | split
    | apply Same2.mk')

theorem commitStore_frame {m : Nat} {s0 : State} : ∀ s x1 x2 x3, 100663298 &&& m = 100663298 → Same m s0 s → Same2 m s0 (commitStore s x1 x2 x3) := by
  intro s x1 x2 x3 hM h
  refine Same2.run hM h fun h0 => ?_
  unfold commitStore
  repeat' (with_reducible first
    | assumption
    | exact Same.bits rfl
    | (extract_lets +onlyGivenNames z; change State at z; apply Same.cutS h0 (x := z); unfold z; clear z; rotate_left; intro h; clear_value z; apply Same.letS h; clear h z; intro z h)
    | (extract_lets +onlyGivenNames z; clear_value z; apply Same.letAny z; clear z; intro z)
    | apply Same.ite
    | apply Same2.ite
    | apply slotPrepare_frame
    | (refine Same.updBot ?_ rfl; assumption)
    | split
    | apply Same2.mk')

theorem commit_frame {m : Nat} {s0 : State} : ∀ s x1 x2 x3, 104066562 &&& m = 104066562 → Same m s0 s → Same2 m s0 (commit s x1 x2 x3) := by
  intro s x1 x2 x3 hM h
  refine Same2.run hM h fun h0 => ?_
  unfold commit
  repeat' (with_reducible first
    | assumption
    | exact Same.bits rfl
    | apply Same2.ite
    | apply commitActivate_frame
    | apply commitStore_frame)

theorem fwCommit_frame {m : Nat} {s0 : State} : ∀ x0 s, 104066562 &&& m = 104066562 → Same m s0 s → Same2 m s0 (fwCommit x0 s) := by
  intro x0 s hM h
  refine Same2.run hM h fun h0 => ?_
  unfold fwCommit
  repeat' (with_reducible first
    | assumption
    | exact Same.bits rfl
    | (extract_lets +onlyGivenNames z; change _ × State at z; apply Same.cut2 h0 (x := z); unfold z; clear z; rotate_left; intro h; clear_value z; apply Same.let2 (x := z) h; clear h z; intro z h)
    | apply commit_frame
    | apply Same2.mk')

theorem execFwCommitStoreActivate_frame {m : Nat} {s0 : State} : ∀ x0 s, 104066690 &&& m = 104066690 → Same m s0 s → SameT m s0 (execFwCommitStoreActivate x0 s) := by
  intro x0 s hM h
  refine SameT.run hM h fun h0 => ?_
  unfold execFwCommitStoreActivate
  repeat' (with_reducible first
    | unfold fwCommitDef
    | assumption
    | intro _
    | exact Same.bits rfl
    | apply SameT.next
    | apply mbxRun_frame
    | apply fwCommit_frame
    | apply OpKeeps.opDef)

theorem drawKey_frame {m : Nat} {s0 : State} : ∀ x0 s, 4194304 &&& m = 4194304 → Same m s0 s → Same2 m s0 (drawKey x0 s) := by
  have H : ∀ {s0 : State} x0 s, Same 4194304 s0 s → Same2 4194304 s0 (drawKey x0 s) := by
    intro s0 x0 s h0
    induction x0 generalizing s with
    | zero =>
      rw [drawKey]
      repeat' (with_reducible first
      | assumption
      | exact Same.bits rfl
      | apply ih
      | apply Same2.ite
      | apply draw_frame
      | (apply Same2.out; apply draw_frame))
    | succ k ih =>
      rw [drawKey]
      repeat' (with_reducible first
      | assumption
      | exact Same.bits rfl
      | apply ih
      | apply Same2.ite
      | apply draw_frame
      | (apply Same2.out; apply draw_frame))
  intro x0 s hM h
  exact Same2.step hM (H x0 s (Same.refl _ _)) h

theorem keyWrite_frame {m : Nat} {s0 : State} : ∀ s x1 x2 x3, 4194306 &&& m = 4194306 → Same m s0 s → Same m s0 (keyWrite s x1 x2 x3) := by
  intro s x1 x2 x3 hM h
  refine Same.run hM h fun h0 => ?_
  unfold keyWrite
  repeat' (with_reducible first
    | assumption
    | exact Same.bits rfl
    | (extract_lets +onlyGivenNames z; change State at z; apply Same.cutS h0 (x := z); unfold z; clear z; rotate_left; intro h; clear_value z; apply Same.letS h; clear h z; intro z h)
    | (extract_lets +onlyGivenNames z; clear_value z; apply Same.letAny z; clear z; intro z)
    | apply material1_frame
    | apply recPut_frame
    | apply slotPut_frame)

theorem keyFill_frame {m : Nat} {s0 : State} : ∀ s x1 x2 x3, 4194306 &&& m = 4194306 → Same m s0 s → Same2 m s0 (keyFill s x1 x2 x3) := by
  intro s x1 x2 x3 hM h
  refine Same2.run hM h fun h0 => ?_
  unfold keyFill
  repeat' (with_reducible first
    | assumption
    | exact Same.bits rfl
    | (extract_lets +onlyGivenNames z; change State at z; apply Same.cutS h0 (x := z); unfold z; clear z; rotate_left; intro h; clear_value z; apply Same.letS h; clear h z; intro z h)
    | (extract_lets +onlyGivenNames z; change _ × State at z; apply Same.cut2 h0 (x := z); unfold z; clear z; rotate_left; intro h; clear_value z; apply Same.let2 (x := z) h; clear h z; intro z h)
    | apply Same2.ite
    | apply drawKey_frame
    | apply keyWrite_frame
    | apply finc_frame
    | apply fon_frame
    | split
    | apply Same2.mk')

theorem keyRewrite_frame {m : Nat} {s0 : State} : ∀ x0 x1 x2 s, 4194818 &&& m = 4194818 → Same m s0 s → Same2 m s0 (keyRewrite x0 x1 x2 s) := by
  intro x0 x1 x2 s hM h
  refine Same2.run hM h fun h0 => ?_
  unfold keyRewrite
  repeat' (with_reducible first
    | assumption
    | exact Same.bits rfl
    | (extract_lets +onlyGivenNames z; change _ × State at z; apply Same.cut2 h0 (x := z); unfold z; clear z; rotate_left; intro h; clear_value z; apply Same.let2 (x := z) h; clear h z; intro z h)
    | (extract_lets +onlyGivenNames z; clear_value z; apply Same.letAny z; clear z; intro z)
    | apply Same2.ite
    | apply keyFill_frame
    | (refine Same.updMbx ?_ rfl; assumption)
    | apply Same2.mk')

theorem wrUcodeCtrl_frame {m : Nat} {s0 : State} : ∀ s x1, 131074 &&& m = 131074 → Same m s0 s → Same m s0 (wrUcodeCtrl s x1) := by
  intro s x1 hM h
  refine Same.run hM h fun h0 => ?_
  unfold wrUcodeCtrl
  repeat' (with_reducible first
    | assumption
    | intro _
    | exact Same.bits rfl
    | (extract_lets +onlyGivenNames z; clear_value z; apply Same.letAny z; clear z; intro z)
    | apply Same.ite
    | apply fset_frame
    | apply storeLoad_frame
    | apply Same.foldl)

theorem deleteSq_frame {m : Nat} {s0 : State} : ∀ x0 s, 3402754 &&& m = 3402754 → Same m s0 s → Same2 m s0 (deleteSq x0 s) := by
  intro x0 s hM h
  refine Same2.run hM h fun h0 => ?_
  unfold deleteSq
  repeat' (with_reducible first
    | assumption
    | exact Same.bits rfl
    | (extract_lets +onlyGivenNames z; change State at z; apply Same.cutS h0 (x := z); unfold z; clear z; rotate_left; intro h; clear_value z; apply Same.letS h; clear h z; intro z h)
    | (extract_lets +onlyGivenNames z; clear_value z; apply Same.letAny z; clear z; intro z)
    | apply Same2.ite
    | apply sqUpd_frame
    | apply psRefresh_frame
    | apply ctxFlush_frame
    | split
    | apply Same2.mk')

theorem execDeleteIoSq_frame {m : Nat} {s0 : State} : ∀ x0 s, 3402754 &&& m = 3402754 → Same m s0 s → SameT m s0 (execDeleteIoSq x0 s) := by
  intro x0 s hM h
  refine SameT.run hM h fun h0 => ?_
  unfold execDeleteIoSq
  repeat' (with_reducible first
    | assumption
    | intro _
    | exact Same.bits rfl
    | apply SameT.next
    | apply adminRun_frame
    | (apply Same2.out; apply deleteSq_frame))

theorem readAt_frame {m : Nat} {s0 : State} : ∀ s x1 x2, 536870918 &&& m = 536870918 → Same m s0 s → Same2 m s0 (readAt s x1 x2) := by
  intro s x1 x2 hM h
  refine Same2.run hM h fun h0 => ?_
  unfold readAt
  repeat' (with_reducible first
    | assumption
    | exact Same.bits rfl
    | (extract_lets +onlyGivenNames z; clear_value z; apply Same.letAny z; clear z; intro z)
    | apply Same2.ite
    | apply readProgress_frame
    | (refine Same.updLatch ?_ rfl; assumption)
    | split
    | apply Same2.mk')

theorem mepLast_frame {m : Nat} {s0 : State} : ∀ s x1 x2 x3 x4 x5 x6, 2 &&& m = 2 → Same m s0 s → Same m s0 (mepLast s x1 x2 x3 x4 x5 x6) := by
  intro s x1 x2 x3 x4 x5 x6 hM h
  refine Same.run hM h fun h0 => ?_
  unfold mepLast
  repeat' (with_reducible first
    | assumption
    | exact Same.bits rfl
    | (extract_lets +onlyGivenNames z; change State at z; apply Same.cutS h0 (x := z); unfold z; clear z; rotate_left; intro h; clear_value z; apply Same.letS h; clear h z; intro z h)
    | apply pset_frame
    | apply fset_frame)

theorem pairRetire_frame {m : Nat} {s0 : State} : ∀ s x1 x2, 2100226 &&& m = 2100226 → Same m s0 s → Same m s0 (pairRetire s x1 x2) := by
  intro s x1 x2 hM h
  refine Same.run hM h fun h0 => ?_
  unfold pairRetire
  repeat' (with_reducible first
    | assumption
    | exact Same.bits rfl
    | (extract_lets +onlyGivenNames z; change State at z; apply Same.cutS h0 (x := z); unfold z; clear z; rotate_left; intro h; clear_value z; apply Same.letS h; clear h z; intro z h)
    | apply Same.ite
    | apply post_frame
    | apply fset_frame
    | apply smartEvent_frame)

theorem readersLose_frame {m : Nat} {s0 : State} : ∀ s x1, 2048 &&& m = 2048 → Same m s0 s → Same m s0 (readersLose s x1) := by
  intro s x1 hM h
  refine Same.run hM h fun h0 => ?_
  unfold readersLose
  repeat' (with_reducible first
    | assumption
    | intro _
    | exact Same.bits rfl
    | (extract_lets +onlyGivenNames z; change State at z; apply Same.cutS h0 (x := z); unfold z; clear z; rotate_left; intro h; clear_value z; apply Same.letS h; clear h z; intro z h)
    | (extract_lets +onlyGivenNames z; change _ × _ × State at z; apply Same.cut22 h0 (x := z); unfold z; clear z; rotate_left; intro h; clear_value z; apply Same.let22 (x := z) h; clear h z; intro z h)
    | (extract_lets +onlyGivenNames z; change _ × State at z; apply Same.cut2 h0 (x := z); unfold z; clear z; rotate_left; intro h; clear_value z; apply Same.let2 (x := z) h; clear h z; intro z h)
    | (extract_lets +onlyGivenNames z; change _ → _ at z; apply Same.cutF z; subst z)
    | (extract_lets +onlyGivenNames z; clear_value z; apply Same.letAny z; clear z; intro z)
    | apply Same.ite
    | apply readDone_frame
    | apply ctxUpd_frame
    | apply Same.foldl
    | split
    | dsimp -zeta only)

theorem mailboxLose_frame {m : Nat} {s0 : State} : ∀ s x1, 2100866 &&& m = 2100866 → Same m s0 s → Same m s0 (mailboxLose s x1) := by
  intro s x1 hM h
  refine Same.run hM h fun h0 => ?_
  unfold mailboxLose
  repeat' (with_reducible first
    | assumption
    | intro _
    | exact Same.bits rfl
    | (extract_lets +onlyGivenNames z; change State at z; apply Same.cutS h0 (x := z); unfold z; clear z; rotate_left; intro h; clear_value z; apply Same.letS h; clear h z; intro z h)
    | (extract_lets +onlyGivenNames z; change _ × _ × State at z; apply Same.cut22 h0 (x := z); unfold z; clear z; rotate_left; intro h; clear_value z; apply Same.let22 (x := z) h; clear h z; intro z h)
    | (extract_lets +onlyGivenNames z; change _ × State at z; apply Same.cut2 h0 (x := z); unfold z; clear z; rotate_left; intro h; clear_value z; apply Same.let2 (x := z) h; clear h z; intro z h)
    | (extract_lets +onlyGivenNames z; clear_value z; apply Same.letAny z; clear z; intro z)
    | apply mbxAnswer_frame
    | apply volleyDrop_frame
    | (refine Same.updMbx ?_ rfl; assumption)
    | split
    | dsimp -zeta only)

theorem slotReload_frame {m : Nat} {s0 : State} : ∀ s x1, 4194306 &&& m = 4194306 → Same m s0 s → Same m s0 (slotReload s x1) := by
  intro s x1 hM h
  refine Same.run hM h fun h0 => ?_
  unfold slotReload
  repeat' (with_reducible first
    | assumption
    | exact Same.bits rfl
    | (extract_lets +onlyGivenNames z; change State at z; apply Same.cutS h0 (x := z); unfold z; clear z; rotate_left; intro h; clear_value z; apply Same.letS h; clear h z; intro z h)
    | (extract_lets +onlyGivenNames z; change _ × _ × State at z; apply Same.cut22 h0 (x := z); unfold z; clear z; rotate_left; intro h; clear_value z; apply Same.let22 (x := z) h; clear h z; intro z h)
    | (extract_lets +onlyGivenNames z; change _ × State at z; apply Same.cut2 h0 (x := z); unfold z; clear z; rotate_left; intro h; clear_value z; apply Same.let2 (x := z) h; clear h z; intro z h)
    | (extract_lets +onlyGivenNames z; clear_value z; apply Same.letAny z; clear z; intro z)
    | apply Same.ite
    | apply fon_frame
    | apply kslotPut_frame
    | split
    | dsimp -zeta only)

theorem ueAct_frame {m : Nat} {s0 : State} : ∀ s x1, 7859842 &&& m = 7859842 → Same m s0 s → Same m s0 (ueAct s x1) := by
  intro s x1 hM h
  refine Same.run hM h fun h0 => ?_
  unfold ueAct
  repeat' (with_reducible first
    | assumption
    | exact Same.bits rfl
    | (extract_lets +onlyGivenNames z; change State at z; apply Same.cutS h0 (x := z); unfold z; clear z; rotate_left; intro h; clear_value z; apply Same.letS h; clear h z; intro z h)
    | (extract_lets +onlyGivenNames z; change _ × _ × State at z; apply Same.cut22 h0 (x := z); unfold z; clear z; rotate_left; intro h; clear_value z; apply Same.let22 (x := z) h; clear h z; intro z h)
    | (extract_lets +onlyGivenNames z; change _ × State at z; apply Same.cut2 h0 (x := z); unfold z; clear z; rotate_left; intro h; clear_value z; apply Same.let2 (x := z) h; clear h z; intro z h)
    | (extract_lets +onlyGivenNames z; clear_value z; apply Same.letAny z; clear z; intro z)
    | apply Same.ite
    | apply slotPad_frame
    | apply readersLose_frame
    | apply lostMark_frame
    | apply zonePut_frame
    | apply ctxFail_frame
    | apply ctxSquash_frame
    | apply bpUpdate_frame
    | apply pairRetire_frame
    | apply fbiton_frame
    | apply slotReload_frame
    | apply mailboxLose_frame
    | (refine Same.updBpm ?_ rfl; assumption)
    | (refine Same.updHst ?_ rfl; assumption)
    | split
    | dsimp -zeta only)

theorem ueHold_frame {m : Nat} {s0 : State} : ∀ s x1 x2, 524288 &&& m = 524288 → Same m s0 s → Same m s0 (ueHold s x1 x2) := by
  intro s x1 x2 hM h
  refine Same.run hM h fun h0 => ?_
  unfold ueHold
  repeat' (with_reducible first
    | assumption
    | intro _
    | exact Same.bits rfl
    | apply Same.ite
    | apply wordsFresh_frame
    | (refine Same.updDmc ?_ rfl; assumption)
    | split
    | dsimp -zeta only)

theorem dramBad_frame {m : Nat} {s0 : State} : ∀ s x1 x2 x3 x4, 8384130 &&& m = 8384130 → Same m s0 s → Same m s0 (dramBad s x1 x2 x3 x4) := by
  intro s x1 x2 x3 x4 hM h
  refine Same.run hM h fun h0 => ?_
  unfold dramBad
  repeat' (with_reducible first
    | assumption
    | exact Same.bits rfl
    | (extract_lets +onlyGivenNames z; change State at z; apply Same.cutS h0 (x := z); unfold z; clear z; rotate_left; intro h; clear_value z; apply Same.letS h; clear h z; intro z h)
    | (extract_lets +onlyGivenNames z; change _ × _ × State at z; apply Same.cut22 h0 (x := z); unfold z; clear z; rotate_left; intro h; clear_value z; apply Same.let22 (x := z) h; clear h z; intro z h)
    | (extract_lets +onlyGivenNames z; change _ × State at z; apply Same.cut2 h0 (x := z); unfold z; clear z; rotate_left; intro h; clear_value z; apply Same.let2 (x := z) h; clear h z; intro z h)
    | (extract_lets +onlyGivenNames z; clear_value z; apply Same.letAny z; clear z; intro z)
    | apply Same.ite
    | apply fon_frame
    | apply mepLast_frame
    | apply finc_frame
    | apply ueAct_frame
    | apply post_frame
    | apply ueHold_frame
    | split
    | dsimp -zeta only)

theorem deviceErr_frame {m : Nat} {s0 : State} : ∀ s x1 x2 x3, 69733378 &&& m = 69733378 → Same m s0 s → Same m s0 (deviceErr s x1 x2 x3) := by
  intro s x1 x2 x3 hM h
  refine Same.run hM h fun h0 => ?_
  unfold deviceErr
  repeat' (with_reducible first
    | assumption
    | exact Same.bits rfl
    | (extract_lets +onlyGivenNames z; change State at z; apply Same.cutS h0 (x := z); unfold z; clear z; rotate_left; intro h; clear_value z; apply Same.letS h; clear h z; intro z h)
    | (extract_lets +onlyGivenNames z; change _ × _ × State at z; apply Same.cut22 h0 (x := z); unfold z; clear z; rotate_left; intro h; clear_value z; apply Same.let22 (x := z) h; clear h z; intro z h)
    | (extract_lets +onlyGivenNames z; change _ × State at z; apply Same.cut2 h0 (x := z); unfold z; clear z; rotate_left; intro h; clear_value z; apply Same.let2 (x := z) h; clear h z; intro z h)
    | (extract_lets +onlyGivenNames z; clear_value z; apply Same.letAny z; clear z; intro z)
    | apply Same.ite
    | apply deviceMark_frame
    | (refine Same.updDmc ?_ rfl; assumption)
    | split
    | dsimp -zeta only)

theorem dramCorrected_frame {m : Nat} {s0 : State} : ∀ s x1 x2 x3, 69733378 &&& m = 69733378 → Same m s0 s → Same m s0 (dramCorrected s x1 x2 x3) := by
  intro s x1 x2 x3 hM h
  refine Same.run hM h fun h0 => ?_
  unfold dramCorrected
  repeat' (with_reducible first
    | assumption
    | intro _
    | exact Same.bits rfl
    | (extract_lets +onlyGivenNames z; change State at z; apply Same.cutS h0 (x := z); unfold z; clear z; rotate_left; intro h; clear_value z; apply Same.letS h; clear h z; intro z h)
    | (extract_lets +onlyGivenNames z; change _ × _ × State at z; apply Same.cut22 h0 (x := z); unfold z; clear z; rotate_left; intro h; clear_value z; apply Same.let22 (x := z) h; clear h z; intro z h)
    | (extract_lets +onlyGivenNames z; change _ × State at z; apply Same.cut2 h0 (x := z); unfold z; clear z; rotate_left; intro h; clear_value z; apply Same.let2 (x := z) h; clear h z; intro z h)
    | (extract_lets +onlyGivenNames z; clear_value z; apply Same.letAny z; clear z; intro z)
    | apply wordsFresh_frame
    | apply finc_frame
    | apply fon_frame
    | apply mepLast_frame
    | apply deviceErr_frame
    | apply Same.foldl
    | dsimp -zeta only)

theorem dramLook_frame {m : Nat} {s0 : State} : ∀ s x1 x2, 75492994 &&& m = 75492994 → Same m s0 s → Same2 m s0 (dramLook s x1 x2) := by
  intro s x1 x2 hM h
  refine Same2.run hM h fun h0 => ?_
  unfold dramLook
  repeat' (with_reducible first
    | assumption
    | exact Same.bits rfl
    | (extract_lets +onlyGivenNames z; change State at z; apply Same.cutS h0 (x := z); unfold z; clear z; rotate_left; intro h; clear_value z; apply Same.letS h; clear h z; intro z h)
    | (extract_lets +onlyGivenNames z; change _ × _ × State at z; apply Same.cut22 h0 (x := z); unfold z; clear z; rotate_left; intro h; clear_value z; apply Same.let22 (x := z) h; clear h z; intro z h)
    | (extract_lets +onlyGivenNames z; change _ × State at z; apply Same.cut2 h0 (x := z); unfold z; clear z; rotate_left; intro h; clear_value z; apply Same.let2 (x := z) h; clear h z; intro z h)
    | (extract_lets +onlyGivenNames z; clear_value z; apply Same.letAny z; clear z; intro z)
    | apply Same.ite
    | apply Same2.ite
    | apply dramBad_frame
    | apply dramCorrected_frame
    | split
    | dsimp -zeta only
    | apply Same2.mk')

theorem sramCorrected_frame {m : Nat} {s0 : State} : ∀ s x1 x2 x3, 524290 &&& m = 524290 → Same m s0 s → Same m s0 (sramCorrected s x1 x2 x3) := by
  intro s x1 x2 x3 hM h
  refine Same.run hM h fun h0 => ?_
  unfold sramCorrected
  repeat' (with_reducible first
    | assumption
    | intro _
    | exact Same.bits rfl
    | (extract_lets +onlyGivenNames z; change State at z; apply Same.cutS h0 (x := z); unfold z; clear z; rotate_left; intro h; clear_value z; apply Same.letS h; clear h z; intro z h)
    | (extract_lets +onlyGivenNames z; change _ × _ × State at z; apply Same.cut22 h0 (x := z); unfold z; clear z; rotate_left; intro h; clear_value z; apply Same.let22 (x := z) h; clear h z; intro z h)
    | (extract_lets +onlyGivenNames z; change _ × State at z; apply Same.cut2 h0 (x := z); unfold z; clear z; rotate_left; intro h; clear_value z; apply Same.let2 (x := z) h; clear h z; intro z h)
    | (extract_lets +onlyGivenNames z; clear_value z; apply Same.letAny z; clear z; intro z)
    | apply wordsFresh_frame
    | apply fon_frame
    | apply mepLast_frame
    | apply finc_frame
    | dsimp -zeta only)

theorem sramBad_frame {m : Nat} {s0 : State} : ∀ s x1 x2 x3, 8384130 &&& m = 8384130 → Same m s0 s → Same m s0 (sramBad s x1 x2 x3) := by
  intro s x1 x2 x3 hM h
  refine Same.run hM h fun h0 => ?_
  unfold sramBad
  repeat' (with_reducible first
    | assumption
    | exact Same.bits rfl
    | (extract_lets +onlyGivenNames z; change State at z; apply Same.cutS h0 (x := z); unfold z; clear z; rotate_left; intro h; clear_value z; apply Same.letS h; clear h z; intro z h)
    | (extract_lets +onlyGivenNames z; change _ × _ × State at z; apply Same.cut22 h0 (x := z); unfold z; clear z; rotate_left; intro h; clear_value z; apply Same.let22 (x := z) h; clear h z; intro z h)
    | (extract_lets +onlyGivenNames z; change _ × State at z; apply Same.cut2 h0 (x := z); unfold z; clear z; rotate_left; intro h; clear_value z; apply Same.let2 (x := z) h; clear h z; intro z h)
    | (extract_lets +onlyGivenNames z; clear_value z; apply Same.letAny z; clear z; intro z)
    | apply Same.ite
    | apply fon_frame
    | apply mepLast_frame
    | apply finc_frame
    | apply ueAct_frame
    | apply post_frame
    | apply ueHold_frame
    | split
    | dsimp -zeta only)

theorem sramLook_frame {m : Nat} {s0 : State} : ∀ s x1 x2 x3, 8384130 &&& m = 8384130 → Same m s0 s → Same2 m s0 (sramLook s x1 x2 x3) := by
  intro s x1 x2 x3 hM h
  refine Same2.run hM h fun h0 => ?_
  unfold sramLook
  repeat' (with_reducible first
    | assumption
    | exact Same.bits rfl
    | (extract_lets +onlyGivenNames z; change State at z; apply Same.cutS h0 (x := z); unfold z; clear z; rotate_left; intro h; clear_value z; apply Same.letS h; clear h z; intro z h)
    | (extract_lets +onlyGivenNames z; change _ × _ × State at z; apply Same.cut22 h0 (x := z); unfold z; clear z; rotate_left; intro h; clear_value z; apply Same.let22 (x := z) h; clear h z; intro z h)
    | (extract_lets +onlyGivenNames z; change _ × State at z; apply Same.cut2 h0 (x := z); unfold z; clear z; rotate_left; intro h; clear_value z; apply Same.let2 (x := z) h; clear h z; intro z h)
    | (extract_lets +onlyGivenNames z; clear_value z; apply Same.letAny z; clear z; intro z)
    | apply Same.ite
    | apply Same2.ite
    | apply sramBad_frame
    | apply sramCorrected_frame
    | split
    | dsimp -zeta only
    | apply Same2.mk')

theorem wordLook_frame {m : Nat} {s0 : State} : ∀ s x1, 75492994 &&& m = 75492994 → Same m s0 s → Same2 m s0 (wordLook s x1) := by
  intro s a hM h
  unfold wordLook
  apply Same2.ite
  · exact Same2.mk' (dramLook_frame s _ _ (Same.sub (by decide) hM) h).out
  · apply Same2.ite
    · exact Same2.mk' h
    · exact Same2.mk' (sramLook_frame s _ _ _ (Same.sub (by decide) hM) h).out

theorem wordsLook_frame {m : Nat} {s0 : State} : ∀ s x1 x2, 75492994 &&& m = 75492994 → Same m s0 s → Same2 m s0 (wordsLook s x1 x2) := by
  intro s x1 x2 hM h
  refine Same2.run hM h fun h0 => ?_
  unfold wordsLook
  repeat' (with_reducible first
    | assumption
    | exact Same.bits rfl
    | (extract_lets +onlyGivenNames z; change State at z; apply Same.cutS h0 (x := z); unfold z; clear z; rotate_left; intro h; clear_value z; apply Same.letS h; clear h z; intro z h)
    | (extract_lets +onlyGivenNames z; change _ × _ × State at z; apply Same.cut22 h0 (x := z); unfold z; clear z; rotate_left; intro h; clear_value z; apply Same.let22 (x := z) h; clear h z; intro z h)
    | (extract_lets +onlyGivenNames z; change _ × State at z; apply Same.cut2 h0 (x := z); unfold z; clear z; rotate_left; intro h; clear_value z; apply Same.let2 (x := z) h; clear h z; intro z h)
    | (extract_lets +onlyGivenNames z; clear_value z; apply Same.letAny z; clear z; intro z)
    | apply Same.ite
    | apply Same2.ite
    | apply wordLook_frame
    | (apply Same2.out; apply wordLook_frame)
    | split
    | dsimp -zeta only
    | apply Same2.mk')

theorem memRead_frame {m : Nat} {s0 : State} : ∀ s x1 x2 x3, 218103506 &&& m = 218103506 → Same m s0 s → Same2 m s0 (memRead s x1 x2 x3) := by
  intro s x1 x2 x3 hM h
  refine Same2.run hM h fun h0 => ?_
  unfold memRead
  repeat' (with_reducible first
    | assumption
    | exact Same.bits rfl
    | (extract_lets +onlyGivenNames z; change State at z; apply Same.cutS h0 (x := z); unfold z; clear z; rotate_left; intro h; clear_value z; apply Same.letS h; clear h z; intro z h)
    | (extract_lets +onlyGivenNames z; change _ × _ × State at z; apply Same.cut22 h0 (x := z); unfold z; clear z; rotate_left; intro h; clear_value z; apply Same.let22 (x := z) h; clear h z; intro z h)
    | (extract_lets +onlyGivenNames z; change _ × State at z; apply Same.cut2 h0 (x := z); unfold z; clear z; rotate_left; intro h; clear_value z; apply Same.let2 (x := z) h; clear h z; intro z h)
    | (extract_lets +onlyGivenNames z; clear_value z; apply Same.letAny z; clear z; intro z)
    | apply Same.ite
    | apply Same2.ite
    | apply raiseVio_frame
    | apply wordsLook_frame
    | (apply Same2.out; apply wordsLook_frame)
    | split
    | dsimp -zeta only
    | apply Same2.mk')

theorem readBy_frame {m : Nat} {s0 : State} : ∀ s x1 x2 x3 x4, 754974422 &&& m = 754974422 → Same m s0 s → Same2 m s0 (readBy s x1 x2 x3 x4) := by
  intro s x1 x2 x3 x4 hM h
  refine Same2.run hM h fun h0 => ?_
  unfold readBy
  repeat' (with_reducible first
    | assumption
    | exact Same.bits rfl
    | (extract_lets +onlyGivenNames z; change State at z; apply Same.cutS h0 (x := z); unfold z; clear z; rotate_left; intro h; clear_value z; apply Same.letS h; clear h z; intro z h)
    | (extract_lets +onlyGivenNames z; change _ × _ × State at z; apply Same.cut22 h0 (x := z); unfold z; clear z; rotate_left; intro h; clear_value z; apply Same.let22 (x := z) h; clear h z; intro z h)
    | (extract_lets +onlyGivenNames z; change _ × State at z; apply Same.cut2 h0 (x := z); unfold z; clear z; rotate_left; intro h; clear_value z; apply Same.let2 (x := z) h; clear h z; intro z h)
    | (extract_lets +onlyGivenNames z; clear_value z; apply Same.letAny z; clear z; intro z)
    | apply memRead_frame
    | apply readAt_frame
    | apply fabError_frame
    | (apply Same.ofPair2; assumption)
    | (apply Same2.out; apply readAt_frame)
    | (apply Same2.out; apply memRead_frame)
    | split
    | dsimp -zeta only
    | apply Same2.mk')

theorem seqResetEnd_frame {m : Nat} {s0 : State} : ∀ s x1, 131138 &&& m = 131138 → Same m s0 s → Same m s0 (seqResetEnd s x1) := by
  intro s x1 hM h
  refine Same.run hM h fun h0 => ?_
  unfold seqResetEnd
  repeat' (with_reducible first
    | assumption
    | exact Same.bits rfl
    | (extract_lets +onlyGivenNames z; change State at z; apply Same.cutS h0 (x := z); unfold z; clear z; rotate_left; intro h; clear_value z; apply Same.letS h; clear h z; intro z h)
    | (extract_lets +onlyGivenNames z; change _ × _ × State at z; apply Same.cut22 h0 (x := z); unfold z; clear z; rotate_left; intro h; clear_value z; apply Same.let22 (x := z) h; clear h z; intro z h)
    | (extract_lets +onlyGivenNames z; change _ × State at z; apply Same.cut2 h0 (x := z); unfold z; clear z; rotate_left; intro h; clear_value z; apply Same.let2 (x := z) h; clear h z; intro z h)
    | (extract_lets +onlyGivenNames z; clear_value z; apply Same.letAny z; clear z; intro z)
    | apply Same.ite
    | apply digestShow_frame
    | apply foff_frame
    | apply fset_frame
    | apply chsPut_frame
    | (refine Same.updAcm ?_ rfl; assumption)
    | split
    | dsimp -zeta only)

theorem rung_frame {m : Nat} {s0 : State} : ∀ s x1, 2100226 &&& m = 2100226 → Same m s0 s → Same m s0 (rung s x1) := by
  intro s x1 hM h
  refine Same.run hM h fun h0 => ?_
  unfold rung
  repeat' (with_reducible first
    | assumption
    | exact Same.bits rfl
    | apply psRefresh_frame
    | apply psWake_frame)

theorem ringTail_frame {m : Nat} {s0 : State} : ∀ s x1 x2, 2048 &&& m = 2048 → Same m s0 s → Same m s0 (ringTail s x1 x2) := by
  intro s x1 x2 hM h
  refine Same.run hM h fun h0 => ?_
  unfold ringTail
  repeat' (with_reducible first
    | assumption
    | exact Same.bits rfl
    | (extract_lets +onlyGivenNames z; clear_value z; apply Same.letAny z; clear z; intro z)
    | apply sqUpd_frame)

theorem adminTail_frame {m : Nat} {s0 : State} : ∀ s x1 x2, 2100226 &&& m = 2100226 → Same m s0 s → Same m s0 (adminTail s x1 x2) := by
  intro s x1 x2 hM h
  refine Same.run hM h fun h0 => ?_
  unfold adminTail
  repeat' (with_reducible first
    | assumption
    | exact Same.bits rfl
    | apply Same.ite
    | apply rung_frame
    | apply ringTail_frame
    | split)

theorem execDescRead_frame {m : Nat} {s0 : State} : ∀ x0 x1 s, 146275922 &&& m = 146275922 → Same m s0 s → SameT m s0 (execDescRead x0 x1 s) := by
  intro x0 x1 s hM h
  refine SameT.run hM h fun h0 => ?_
  unfold execDescRead
  repeat' (with_reducible first
    | assumption
    | exact Same.bits rfl
    | apply SameT.next
    | apply Same.ite
    | apply startChain_frame
    | split)

theorem matrixLock_frame {m : Nat} {s0 : State} : ∀ s, 66 &&& m = 66 → Same m s0 s → Same m s0 (matrixLock s) := by
  intro s hM h
  refine Same.run hM h fun h0 => ?_
  unfold matrixLock
  repeat' (with_reducible first
    | assumption
    | exact Same.bits rfl
    | (extract_lets +onlyGivenNames z; change State at z; apply Same.cutS h0 (x := z); unfold z; clear z; rotate_left; intro h; clear_value z; apply Same.letS h; clear h z; intro z h)
    | (extract_lets +onlyGivenNames z; clear_value z; apply Same.letAny z; clear z; intro z)
    | apply Same.ite
    | apply putBytes_frame
    | apply fon_frame
    | apply fset_frame
    | (refine Same.updAcm ?_ rfl; assumption))

theorem wrAcmCtrl_frame {m : Nat} {s0 : State} : ∀ s x1, 66 &&& m = 66 → Same m s0 s → Same m s0 (wrAcmCtrl s x1) := by
  intro s x1 hM h
  refine Same.run hM h fun h0 => ?_
  unfold wrAcmCtrl
  repeat' (with_reducible first
    | assumption
    | exact Same.bits rfl
    | (extract_lets +onlyGivenNames z; change State at z; apply Same.cutS h0 (x := z); unfold z; clear z; rotate_left; intro h; clear_value z; apply Same.letS h; clear h z; intro z h)
    | apply Same.ite
    | apply genWrite_frame
    | apply matrixLock_frame)

theorem wrAcm_frame {m : Nat} {s0 : State} : ∀ s x1 x2 x3, 66 &&& m = 66 → Same m s0 s → Same m s0 (wrAcm s x1 x2 x3) := by
  intro s x1 x2 x3 hM h
  refine Same.run hM h fun h0 => ?_
  unfold wrAcm
  repeat' (with_reducible first
    | assumption
    | exact Same.bits rfl
    | apply Same.ite
    | apply wrAcmCtrl_frame
    | apply cardQuery_frame
    | apply genWrite_frame
    | split)

theorem busWait_frame {m : Nat} {s0 : State} : ∀ s x1 x2, 131072 &&& m = 131072 → Same m s0 s → Same m s0 (busWait s x1 x2) := by
  intro s x1 x2 hM h
  refine Same.run hM h fun h0 => ?_
  unfold busWait
  repeat' (with_reducible first
    | assumption
    | exact Same.bits rfl
    | (extract_lets +onlyGivenNames z; clear_value z; apply Same.letAny z; clear z; intro z)
    | apply Same.ite
    | apply chsPut_frame)

theorem clsCut_frame {m : Nat} {s0 : State} : ∀ s, 570425346 &&& m = 570425346 → Same m s0 s → Same m s0 (clsCut s) := by
  intro s hM h
  refine Same.run hM h fun h0 => ?_
  unfold clsCut
  repeat' (with_reducible first
    | assumption
    | intro _
    | exact Same.bits rfl
    | (extract_lets +onlyGivenNames z; change State at z; apply Same.cutS h0 (x := z); unfold z; clear z; rotate_left; intro h; clear_value z; apply Same.letS h; clear h z; intro z h)
    | (extract_lets +onlyGivenNames z; change _ × _ × State at z; apply Same.cut22 h0 (x := z); unfold z; clear z; rotate_left; intro h; clear_value z; apply Same.let22 (x := z) h; clear h z; intro z h)
    | (extract_lets +onlyGivenNames z; change _ × State at z; apply Same.cut2 h0 (x := z); unfold z; clear z; rotate_left; intro h; clear_value z; apply Same.let2 (x := z) h; clear h z; intro z h)
    | (extract_lets +onlyGivenNames z; clear_value z; apply Same.letAny z; clear z; intro z)
    | apply openTaken_frame
    | apply fadd_frame
    | (refine Same.updCls ?_ rfl; assumption)
    | split
    | dsimp -zeta only)

theorem clsComputeReset_frame {m : Nat} {s0 : State} : ∀ s, 572523522 &&& m = 572523522 → Same m s0 s → Same m s0 (clsComputeReset s) := by
  intro s hM h
  refine Same.run hM h fun h0 => ?_
  unfold clsComputeReset
  repeat' (with_reducible first
    | assumption
    | exact Same.bits rfl
    | (extract_lets +onlyGivenNames z; change State at z; apply Same.cutS h0 (x := z); unfold z; clear z; rotate_left; intro h; clear_value z; apply Same.letS h; clear h z; intro z h)
    | (extract_lets +onlyGivenNames z; change _ × _ × State at z; apply Same.cut22 h0 (x := z); unfold z; clear z; rotate_left; intro h; clear_value z; apply Same.let22 (x := z) h; clear h z; intro z h)
    | (extract_lets +onlyGivenNames z; change _ × State at z; apply Same.cut2 h0 (x := z); unfold z; clear z; rotate_left; intro h; clear_value z; apply Same.let2 (x := z) h; clear h z; intro z h)
    | (extract_lets +onlyGivenNames z; clear_value z; apply Same.letAny z; clear z; intro z)
    | apply Same.ite
    | apply clsCut_frame
    | apply clsAbandon_frame
    | apply crEnd_frame
    | apply clsShow_frame
    | (refine Same.updCls ?_ rfl; assumption)
    | split
    | dsimp -zeta only)

theorem computeOff_frame {m : Nat} {s0 : State} : ∀ s x1, 1073741790 &&& m = 1073741790 → Same m s0 s → Same m s0 (computeOff s x1) := by
  intro s x1 hM h
  refine Same.run hM h fun h0 => ?_
  unfold computeOff
  repeat' (with_reducible first
    | assumption
    | intro _
    | exact Same.bits rfl
    | (extract_lets +onlyGivenNames z; change State at z; apply Same.cutS h0 (x := z); unfold z; clear z; rotate_left; intro h; clear_value z; apply Same.letS h; clear h z; intro z h)
    | (extract_lets +onlyGivenNames z; change _ × _ × State at z; apply Same.cut22 h0 (x := z); unfold z; clear z; rotate_left; intro h; clear_value z; apply Same.let22 (x := z) h; clear h z; intro z h)
    | (extract_lets +onlyGivenNames z; change _ × State at z; apply Same.cut2 h0 (x := z); unfold z; clear z; rotate_left; intro h; clear_value z; apply Same.let2 (x := z) h; clear h z; intro z h)
    | (extract_lets +onlyGivenNames z; clear_value z; apply Same.letAny z; clear z; intro z)
    | apply Same.ite
    | apply ctxVanish_frame
    | apply foldDrop_frame
    | apply clsComputeReset_frame
    | apply regsReset_frame
    | (refine Same.updCompute ?_ rfl; assumption)
    | apply Same.foldl
    | split
    | dsimp -zeta only)

theorem lktCut_frame {m : Nat} {s0 : State} : ∀ s, 536871936 &&& m = 536871936 → Same m s0 s → Same m s0 (lktCut s) := by
  intro s hM h
  refine Same.run hM h fun h0 => ?_
  unfold lktCut
  repeat' (with_reducible first
    | assumption
    | intro _
    | exact Same.bits rfl
    | (extract_lets +onlyGivenNames z; change State at z; apply Same.cutS h0 (x := z); unfold z; clear z; rotate_left; intro h; clear_value z; apply Same.letS h; clear h z; intro z h)
    | (extract_lets +onlyGivenNames z; change _ × _ × State at z; apply Same.cut22 h0 (x := z); unfold z; clear z; rotate_left; intro h; clear_value z; apply Same.let22 (x := z) h; clear h z; intro z h)
    | (extract_lets +onlyGivenNames z; change _ × State at z; apply Same.cut2 h0 (x := z); unfold z; clear z; rotate_left; intro h; clear_value z; apply Same.let2 (x := z) h; clear h z; intro z h)
    | (extract_lets +onlyGivenNames z; change _ → _ at z; apply Same.cutF z; subst z)
    | (extract_lets +onlyGivenNames z; clear_value z; apply Same.letAny z; clear z; intro z)
    | apply Same.ite
    | apply openTaken_frame
    | (refine Same.updLkt ?_ rfl; assumption)
    | split
    | dsimp -zeta only)

theorem claspReset_frame {m : Nat} {s0 : State} : ∀ s, 1073741790 &&& m = 1073741790 → Same m s0 s → Same m s0 (claspReset s) := by
  intro s hM h
  refine Same.run hM h fun h0 => ?_
  unfold claspReset
  repeat' (with_reducible first
    | assumption
    | exact Same.bits rfl
    | (extract_lets +onlyGivenNames z; change State at z; apply Same.cutS h0 (x := z); unfold z; clear z; rotate_left; intro h; clear_value z; apply Same.letS h; clear h z; intro z h)
    | (extract_lets +onlyGivenNames z; change _ × _ × State at z; apply Same.cut22 h0 (x := z); unfold z; clear z; rotate_left; intro h; clear_value z; apply Same.let22 (x := z) h; clear h z; intro z h)
    | (extract_lets +onlyGivenNames z; change _ × State at z; apply Same.cut2 h0 (x := z); unfold z; clear z; rotate_left; intro h; clear_value z; apply Same.let2 (x := z) h; clear h z; intro z h)
    | (extract_lets +onlyGivenNames z; clear_value z; apply Same.letAny z; clear z; intro z)
    | apply computeOff_frame
    | apply lktCut_frame
    | (refine Same.updSgd ?_ rfl; assumption)
    | (refine Same.updCls ?_ rfl; assumption)
    | dsimp -zeta only)

theorem createSq_frame {m : Nat} {s0 : State} : ∀ x0 s, 2050 &&& m = 2050 → Same m s0 s → Same2 m s0 (createSq x0 s) := by
  intro x0 s hM h
  refine Same2.run hM h fun h0 => ?_
  unfold createSq
  repeat' (with_reducible first
    | assumption
    | exact Same.bits rfl
    | (extract_lets +onlyGivenNames z; clear_value z; apply Same.letAny z; clear z; intro z)
    | apply Same2.ite
    | apply slmShow_frame
    | (refine Same.updHst ?_ rfl; assumption)
    | apply Same2.mk')

theorem quarantineEnd_frame {m : Nat} {s0 : State} : ∀ s x1, 262146 &&& m = 262146 → Same m s0 s → Same m s0 (quarantineEnd s x1) := by
  intro s x1 hM h
  refine Same.run hM h fun h0 => ?_
  unfold quarantineEnd
  repeat' (with_reducible first
    | exact Same.bits rfl
    | (extract_lets +onlyGivenNames z; clear_value z; apply Same.letAny z; clear z; intro z)
    | apply bpUpdate_frame
    | (refine Same.updBpm ?_ rfl; assumption))

theorem execLockstepMismatch_frame {m : Nat} {s0 : State} : ∀ x0 s, 2100226 &&& m = 2100226 → Same m s0 s → SameT m s0 (execLockstepMismatch x0 s) := by
  intro x0 s hM h
  refine SameT.run hM h fun h0 => ?_
  unfold execLockstepMismatch
  repeat' (with_reducible first
    | assumption
    | exact Same.bits rfl
    | apply SameT.next
    | apply pairRetire_frame
    | apply fbiton_frame)

theorem keyMake_frame {m : Nat} {s0 : State} : ∀ x0 x1 x2 s, 4194306 &&& m = 4194306 → Same m s0 s → Same2 m s0 (keyMake x0 x1 x2 s) := by
  intro x0 x1 x2 s hM h
  refine Same2.run hM h fun h0 => ?_
  unfold keyMake
  repeat' (with_reducible first
    | assumption
    | exact Same.bits rfl
    | apply Same2.ite
    | apply keyFill_frame
    | apply Same2.mk')

theorem linkUpShow_frame {m : Nat} {s0 : State} : ∀ s x1 x2 x3 x4, 2 &&& m = 2 → Same m s0 s → Same m s0 (linkUpShow s x1 x2 x3 x4) := by
  intro s x1 x2 x3 x4 hM h
  refine Same.run hM h fun h0 => ?_
  unfold linkUpShow
  repeat' (with_reducible first
    | assumption
    | exact Same.bits rfl
    | (extract_lets +onlyGivenNames z; change State at z; apply Same.cutS h0 (x := z); unfold z; clear z; rotate_left; intro h; clear_value z; apply Same.letS h; clear h z; intro z h)
    | apply fset_frame
    | apply foff_frame
    | apply fon_frame)

end Sys2Proof.Machine
end

