-- ==== Sys2Proof/Laws/Frame4.lean ====
section
/-! SUPPORT. What each operation may change (Sys2Proof/Laws/Frame.lean), part 4 of 6: linkTrained to execSpdmKeyExchange. A number is the set of
fields of State, bit k the k-th. -/
namespace Sys2Proof.Machine
open Sys2Proof
set_option maxRecDepth 4000
set_option linter.all false

theorem linkTrained_frame {m : Nat} {s0 : State} : ∀ s x1 x2 x3 x4, 2100226 &&& m = 2100226 → Same m s0 s → Same m s0 (linkTrained s x1 x2 x3 x4) := by
  intro s x1 x2 x3 x4 hM h
  refine Same.run hM h fun h0 => ?_
  unfold linkTrained
  repeat' (with_reducible first
    | assumption
    | exact Same.bits rfl
    | apply Same.ite
    | apply psRefresh_frame
    | apply portUpd_frame
    | apply linkUpShow_frame)

theorem rallyBase_frame {m : Nat} {s0 : State} : ∀ s, 134217730 &&& m = 134217730 → Same m s0 s → Same m s0 (rallyBase s) := by
  intro s hM h
  refine Same.run hM h fun h0 => ?_
  unfold rallyBase
  repeat' (with_reducible first
    | assumption
    | exact Same.bits rfl
    | (extract_lets +onlyGivenNames z; change State at z; apply Same.cutS h0 (x := z); unfold z; clear z; rotate_left; intro h; clear_value z; apply Same.letS h; clear h z; intro z h)
    | (extract_lets +onlyGivenNames z; clear_value z; apply Same.letAny z; clear z; intro z)
    | apply Same.ite
    | apply fon_frame
    | apply fset_frame
    | (refine Same.updAge ?_ rfl; assumption))

theorem bankRead_frame {m : Nat} {s0 : State} : ∀ s x1, 2097154 &&& m = 2097154 → Same m s0 s → Same m s0 (bankRead s x1) := by
  intro s x1 hM h
  refine Same.run hM h fun h0 => ?_
  unfold bankRead
  repeat' (with_reducible first
    | assumption
    | exact Same.bits rfl
    | (extract_lets +onlyGivenNames z; change State at z; apply Same.cutS h0 (x := z); unfold z; clear z; rotate_left; intro h; clear_value z; apply Same.letS h; clear h z; intro z h)
    | (extract_lets +onlyGivenNames z; change _ × _ × State at z; apply Same.cut22 h0 (x := z); unfold z; clear z; rotate_left; intro h; clear_value z; apply Same.let22 (x := z) h; clear h z; intro z h)
    | (extract_lets +onlyGivenNames z; change _ × State at z; apply Same.cut2 h0 (x := z); unfold z; clear z; rotate_left; intro h; clear_value z; apply Same.let2 (x := z) h; clear h z; intro z h)
    | (extract_lets +onlyGivenNames z; clear_value z; apply Same.letAny z; clear z; intro z)
    | apply bankShow_frame
    | apply chgUpdate_frame
    | (refine Same.updSgd ?_ rfl; assumption)
    | dsimp -zeta only)

theorem execBankAtTarget_frame {m : Nat} {s0 : State} : ∀ x0 s, 2097154 &&& m = 2097154 → Same m s0 s → SameT m s0 (execBankAtTarget x0 s) := by
  intro x0 s hM h
  refine SameT.run hM h fun h0 => ?_
  unfold execBankAtTarget
  repeat' (with_reducible first
    | assumption
    | exact Same.bits rfl
    | apply SameT.next
    | apply bankRead_frame)

theorem wrTestCtrl_frame {m : Nat} {s0 : State} : ∀ s x1, 2129922 &&& m = 2129922 → Same m s0 s → Same m s0 (wrTestCtrl s x1) := by
  intro s x1 hM h
  refine Same.run hM h fun h0 => ?_
  unfold wrTestCtrl
  repeat' (with_reducible first
    | assumption
    | exact Same.bits rfl
    | apply Same.ite
    | apply testSchedule_frame)

theorem execSgdTestStart_frame {m : Nat} {s0 : State} : ∀ x0 s, 2130962 &&& m = 2130962 → Same m s0 s → SameT m s0 (execSgdTestStart x0 s) := by
  intro x0 s hM h
  refine SameT.run hM h fun h0 => ?_
  unfold execSgdTestStart
  repeat' (with_reducible first
    | assumption
    | intro _
    | exact Same.bits rfl
    | apply SameT.next
    | apply gated_frame
    | apply wrTestCtrl_frame)

theorem pveAnswer_frame {m : Nat} {s0 : State} : ∀ s x1 x2, 4194304 &&& m = 4194304 → Same m s0 s → Same m s0 (pveAnswer s x1 x2) := by
  intro s x1 x2 hM h
  refine Same.run hM h fun h0 => ?_
  unfold pveAnswer
  repeat' (with_reducible first
    | (extract_lets +onlyGivenNames z; clear_value z; apply Same.letAny z; clear z; intro z)
    | (refine Same.updKst ?_ rfl; assumption))

theorem pveFault_frame {m : Nat} {s0 : State} : ∀ s x1 x2, 6292482 &&& m = 6292482 → Same m s0 s → Same m s0 (pveFault s x1 x2) := by
  intro s x1 x2 hM h
  refine Same.run hM h fun h0 => ?_
  unfold pveFault
  repeat' (with_reducible first
    | assumption
    | exact Same.bits rfl
    | (extract_lets +onlyGivenNames z; change State at z; apply Same.cutS h0 (x := z); unfold z; clear z; rotate_left; intro h; clear_value z; apply Same.letS h; clear h z; intro z h)
    | (extract_lets +onlyGivenNames z; clear_value z; apply Same.letAny z; clear z; intro z)
    | apply Same.ite
    | apply post_frame
    | apply fon_frame
    | apply finc_frame
    | apply pveShow_frame
    | (refine Same.updKst ?_ rfl; assumption))

theorem pveRun_frame {M : Nat} {s0 s : State} (hM : 150470226 &&& M = 150470226) (p sess i use op bad : Nat) (fits : Bool)
    (f : State → List Byte → State) (hf : ∀ t k, Same M s0 t → Same M s0 (f t k)) (h : Same M s0 s) :
    Same M s0 (pveRun s p sess i use op bad fits f) := by
  have hA : ∀ t a b, Same M s0 t → Same M s0 (pveAnswer t a b) := fun t a b ht => pveAnswer_frame t a b (Same.sub (by decide) hM) ht
  have hF : ∀ t a b, Same M s0 t → Same M s0 (pveFault t a b) := fun t a b ht => pveFault_frame t a b (Same.sub (by decide) hM) ht
  unfold pveRun
  dsimp only
  split
  · exact h
  · split
    · exact hA _ _ _ h
    · split
      · exact fon_frame _ _ (Same.sub (by decide) hM)
          (raiseVio_frame _ _ _ _ _ (Same.sub (by decide) hM) (hA _ _ _ h))
      · split
        · exact hA _ _ _ h
        · split
          · exact h
          · split
            · exact hf _ _ h
            · split
              · exact hf _ _ (hF _ _ _ h)
              · exact hA _ _ _ (hF _ _ _ (hF _ _ _ h))

theorem execPveGcmDecrypt_frame {m : Nat} {s0 : State} : ∀ x0 x1 x2 x3 x4 x5 x6 s, 150470226 &&& m = 150470226 → Same m s0 s → SameT m s0 (execPveGcmDecrypt x0 x1 x2 x3 x4 x5 x6 s) := by
  intro x0 x1 x2 x3 x4 x5 x6 s hM h
  refine SameT.run hM h fun h0 => ?_
  unfold execPveGcmDecrypt
  repeat' (with_reducible first
    | assumption
    | intro _
    | exact Same.bits rfl
    | apply SameT.next
    | (extract_lets +onlyGivenNames z; change State at z; apply Same.cutS h0 (x := z); unfold z; clear z; rotate_left; intro h; clear_value z; apply Same.letS h; clear h z; intro z h)
    | apply pveRun_frame
    | apply finc_frame
    | apply pveAnswer_frame
    | apply fon_frame
    | split)

theorem umpSetBudget_frame {m : Nat} {s0 : State} : ∀ x0 s, 67108866 &&& m = 67108866 → Same m s0 s → Same2 m s0 (umpSetBudget x0 s) := by
  intro x0 s hM h
  refine Same2.run hM h fun h0 => ?_
  unfold umpSetBudget
  repeat' (with_reducible first
    | assumption
    | exact Same.bits rfl
    | apply Same2.ite
    | apply setBudget_frame
    | apply setPut_frame
    | apply Same2.mk')

theorem execUmpSetBudget_frame {m : Nat} {s0 : State} : ∀ x0 s, 69209730 &&& m = 69209730 → Same m s0 s → SameT m s0 (execUmpSetBudget x0 s) := by
  intro x0 s hM h
  refine SameT.run hM h fun h0 => ?_
  unfold execUmpSetBudget
  repeat' (with_reducible first
    | assumption
    | intro _
    | exact Same.bits rfl
    | apply SameT.next
    | apply mbxRun_frame
    | apply umpSetBudget_frame
    | apply OpKeeps.opDef)

theorem quietEnter_frame {m : Nat} {s0 : State} : ∀ s x1, 16386 &&& m = 16386 → Same m s0 s → Same m s0 (quietEnter s x1) := by
  intro s x1 hM h
  refine Same.run hM h fun h0 => ?_
  unfold quietEnter
  repeat' (with_reducible first
    | assumption
    | exact Same.bits rfl
    | (extract_lets +onlyGivenNames z; change State at z; apply Same.cutS h0 (x := z); unfold z; clear z; rotate_left; intro h; clear_value z; apply Same.letS h; clear h z; intro z h)
    | (extract_lets +onlyGivenNames z; clear_value z; apply Same.letAny z; clear z; intro z)
    | apply Same.ite
    | apply fon_frame
    | apply discardPrepared_frame
    | apply grpSet_frame
    | (refine Same.updPlc ?_ rfl; assumption))

theorem execGroupQuietEnter_frame {m : Nat} {s0 : State} : ∀ x0 s, 16386 &&& m = 16386 → Same m s0 s → SameT m s0 (execGroupQuietEnter x0 s) := by
  intro x0 s hM h
  refine SameT.run hM h fun h0 => ?_
  unfold execGroupQuietEnter
  repeat' (with_reducible first
    | assumption
    | exact Same.bits rfl
    | apply SameT.next
    | apply quietEnter_frame)

theorem deleteCq_frame {m : Nat} {s0 : State} : ∀ x0 s, 2050 &&& m = 2050 → Same m s0 s → Same2 m s0 (deleteCq x0 s) := by
  intro x0 s hM h
  refine Same2.run hM h fun h0 => ?_
  unfold deleteCq
  repeat' (with_reducible first
    | assumption
    | exact Same.bits rfl
    | (extract_lets +onlyGivenNames z; clear_value z; apply Same.letAny z; clear z; intro z)
    | apply Same2.ite
    | apply slmShow_frame
    | (refine Same.updHst ?_ rfl; assumption)
    | apply Same2.mk')

theorem thermalStep_frame {m : Nat} {s0 : State} : ∀ s, 1048578 &&& m = 1048578 → Same m s0 s → Same m s0 (thermalStep s) := by
  intro s hM h
  refine Same.run hM h fun h0 => ?_
  unfold thermalStep
  repeat' (with_reducible first
    | assumption
    | exact Same.bits rfl
    | (extract_lets +onlyGivenNames z; change State at z; apply Same.cutS h0 (x := z); unfold z; clear z; rotate_left; intro h; clear_value z; apply Same.letS h; clear h z; intro z h)
    | (extract_lets +onlyGivenNames z; clear_value z; apply Same.letAny z; clear z; intro z)
    | apply Same.ite
    | apply fon_frame
    | apply finc_frame
    | apply fset_frame
    | (refine Same.updUmp ?_ rfl; assumption))

theorem retryAdvance_frame {m : Nat} {s0 : State} : ∀ s x1, 136315906 &&& m = 136315906 → Same m s0 s → Same m s0 (retryAdvance s x1) := by
  intro s x1 hM h
  refine Same.run hM h fun h0 => ?_
  unfold retryAdvance
  repeat' (with_reducible first
    | assumption
    | intro _
    | exact Same.bits rfl
    | (extract_lets +onlyGivenNames z; change _ → _ at z; apply Same.cutF z; subst z)
    | (extract_lets +onlyGivenNames z; change State at z; apply Same.cutS h0 (x := z); unfold z; clear z; rotate_left; intro h; clear_value z; apply Same.letS h; clear h z; intro z h)
    | (extract_lets +onlyGivenNames z; clear_value z; apply Same.letAny z; clear z; intro z)
    | apply Same.ite
    | apply rset_frame
    | apply fset_frame
    | apply post_frame
    | apply fon_frame
    | (refine Same.updAge ?_ rfl; assumption)
    | apply Same.foldl)

theorem testResult_frame {m : Nat} {s0 : State} : ∀ s x1, 2100226 &&& m = 2100226 → Same m s0 s → Same m s0 (testResult s x1) := by
  intro s x1 hM h
  refine Same.run hM h fun h0 => ?_
  unfold testResult
  repeat' (with_reducible first
    | assumption
    | exact Same.bits rfl
    | (extract_lets +onlyGivenNames z; change State at z; apply Same.cutS h0 (x := z); unfold z; clear z; rotate_left; intro h; clear_value z; apply Same.letS h; clear h z; intro z h)
    | (extract_lets +onlyGivenNames z; clear_value z; apply Same.letAny z; clear z; intro z)
    | apply Same.ite
    | apply fset_frame
    | apply pset_frame
    | apply testRecord_frame
    | apply fon_frame
    | apply smartEvent_frame
    | (refine Same.updSgd ?_ rfl; assumption))

theorem loadOff_frame {m : Nat} {s0 : State} : ∀ s, 2097154 &&& m = 2097154 → Same m s0 s → Same m s0 (loadOff s) := by
  intro s hM h
  refine Same.run hM h fun h0 => ?_
  unfold loadOff
  repeat' (with_reducible first
    | assumption
    | exact Same.bits rfl
    | apply chgUpdate_frame
    | apply fset_frame)

theorem testLate_frame {m : Nat} {s0 : State} : ∀ s, 2133026 &&& m = 2133026 → Same m s0 s → Same m s0 (testLate s) := by
  intro s hM h
  refine Same.run hM h fun h0 => ?_
  unfold testLate
  repeat' (with_reducible first
    | assumption
    | exact Same.bits rfl
    | apply testResult_frame
    | apply budgetSet_frame
    | apply limitSet_frame
    | apply loadOff_frame
    | apply reach_frame)

theorem trendNote_frame {m : Nat} {s0 : State} : ∀ s x1 x2, 134217730 &&& m = 134217730 → Same m s0 s → Same m s0 (trendNote s x1 x2) := by
  intro s x1 x2 hM h
  refine Same.run hM h fun h0 => ?_
  unfold trendNote
  repeat' (with_reducible first
    | assumption
    | exact Same.bits rfl
    | (extract_lets +onlyGivenNames z; change State at z; apply Same.cutS h0 (x := z); unfold z; clear z; rotate_left; intro h; clear_value z; apply Same.letS h; clear h z; intro z h)
    | (extract_lets +onlyGivenNames z; clear_value z; apply Same.letAny z; clear z; intro z)
    | apply Same.ite
    | apply fon_frame
    | (refine Same.updAge ?_ rfl; assumption))

theorem testEnd_frame {m : Nat} {s0 : State} : ∀ s x1, 136350754 &&& m = 136350754 → Same m s0 s → Same m s0 (testEnd s x1) := by
  intro s x1 hM h
  refine Same.run hM h fun h0 => ?_
  unfold testEnd
  repeat' (with_reducible first
    | assumption
    | exact Same.bits rfl
    | (extract_lets +onlyGivenNames z; change State at z; apply Same.cutS h0 (x := z); unfold z; clear z; rotate_left; intro h; clear_value z; apply Same.letS h; clear h z; intro z h)
    | (extract_lets +onlyGivenNames z; change _ × _ × State at z; apply Same.cut22 h0 (x := z); unfold z; clear z; rotate_left; intro h; clear_value z; apply Same.let22 (x := z) h; clear h z; intro z h)
    | (extract_lets +onlyGivenNames z; change _ × State at z; apply Same.cut2 h0 (x := z); unfold z; clear z; rotate_left; intro h; clear_value z; apply Same.let2 (x := z) h; clear h z; intro z h)
    | (extract_lets +onlyGivenNames z; clear_value z; apply Same.letAny z; clear z; intro z)
    | apply Same.ite
    | apply reach_frame
    | apply bankShow_frame
    | apply fset_frame
    | apply budgetSet_frame
    | apply limitSet_frame
    | apply loadOff_frame
    | apply trendNote_frame
    | apply testResult_frame
    | apply finc_frame
    | apply fon_frame
    | apply post_frame
    | (refine Same.updSgd ?_ rfl; assumption)
    | split
    | dsimp -zeta only)

theorem execTestV2Reached_frame {m : Nat} {s0 : State} : ∀ x0 s, 136350754 &&& m = 136350754 → Same m s0 s → SameT m s0 (execTestV2Reached x0 s) := by
  intro x0 s hM h
  refine SameT.run hM h fun h0 => ?_
  unfold execTestV2Reached
  repeat' (with_reducible first
    | assumption
    | exact Same.bits rfl
    | apply SameT.next
    | apply Same.ite
    | apply testLate_frame
    | apply testEnd_frame)

theorem repair_frame {m : Nat} {s0 : State} : ∀ s x1 x2 x3 x4, 137620482 &&& m = 137620482 → Same m s0 s → Same m s0 (repair s x1 x2 x3 x4) := by
  intro s x1 x2 x3 x4 hM h
  refine Same.run hM h fun h0 => ?_
  unfold repair
  repeat' (with_reducible first
    | assumption
    | exact Same.bits rfl
    | apply repairUnit_frame
    | dsimp -zeta only)

theorem execDgeHmacSha512_frame {m : Nat} {s0 : State} : ∀ x0 s, 687341138 &&& m = 687341138 → Same m s0 s → SameT m s0 (execDgeHmacSha512 x0 s) := by
  intro x0 s hM h
  refine SameT.run hM h fun h0 => ?_
  unfold execDgeHmacSha512
  repeat' (with_reducible first
    | assumption
    | exact Same.bits rfl
    | apply SameT.next
    | apply dgeDone_frame
    | dsimp -zeta only)

theorem execChargeTimeout_frame {m : Nat} {s0 : State} : ∀ s, 2098210 &&& m = 2098210 → Same m s0 s → SameT m s0 (execChargeTimeout s) := by
  intro s hM h
  refine SameT.run hM h fun h0 => ?_
  unfold execChargeTimeout
  repeat' (with_reducible first
    | assumption
    | exact Same.bits rfl
    | apply SameT.next
    | (extract_lets +onlyGivenNames z; change State at z; apply Same.cutS h0 (x := z); unfold z; clear z; rotate_left; intro h; clear_value z; apply Same.letS h; clear h z; intro z h)
    | (extract_lets +onlyGivenNames z; clear_value z; apply Same.letAny z; clear z; intro z)
    | apply reach_frame
    | apply fon_frame
    | apply post_frame
    | (refine Same.updSgd ?_ rfl; assumption)
    | split)

theorem cryptoErase_frame {m : Nat} {s0 : State} : ∀ x0 s, 4194306 &&& m = 4194306 → Same m s0 s → Same2 m s0 (cryptoErase x0 s) := by
  intro x0 s hM h
  refine Same2.run hM h fun h0 => ?_
  unfold cryptoErase
  repeat' (with_reducible first
    | assumption
    | exact Same.bits rfl
    | (extract_lets +onlyGivenNames z; change State at z; apply Same.cutS h0 (x := z); unfold z; clear z; rotate_left; intro h; clear_value z; apply Same.letS h; clear h z; intro z h)
    | (extract_lets +onlyGivenNames z; clear_value z; apply Same.letAny z; clear z; intro z)
    | apply Same2.ite
    | apply slotPut_frame
    | apply kstShow_frame
    | (refine Same.updKst ?_ rfl; assumption)
    | split
    | apply Same2.mk')

theorem execNsCryptoErase_frame {m : Nat} {s0 : State} : ∀ x0 s, 6295170 &&& m = 6295170 → Same m s0 s → SameT m s0 (execNsCryptoErase x0 s) := by
  intro x0 s hM h
  refine SameT.run hM h fun h0 => ?_
  unfold execNsCryptoErase
  repeat' (with_reducible first
    | assumption
    | intro _
    | exact Same.bits rfl
    | apply SameT.next
    | apply mbxRun_frame
    | apply cryptoErase_frame
    | apply OpKeeps.opDef)

theorem xteEncrypt_frame {m : Nat} {s0 : State} : ∀ s x1 x2 x3, 7863298 &&& m = 7863298 → Same m s0 s → Same m s0 (xteEncrypt s x1 x2 x3) := by
  intro s x1 x2 x3 hM h
  refine Same.run hM h fun h0 => ?_
  unfold xteEncrypt
  repeat' (with_reducible first
    | assumption
    | exact Same.bits rfl
    | (extract_lets +onlyGivenNames z; change State at z; apply Same.cutS h0 (x := z); unfold z; clear z; rotate_left; intro h; clear_value z; apply Same.letS h; clear h z; intro z h)
    | (extract_lets +onlyGivenNames z; clear_value z; apply Same.letAny z; clear z; intro z)
    | apply Same.ite
    | apply finc_frame
    | apply ctxUpd_frame
    | apply xteAgain_frame
    | split)

theorem svcOut_frame {m : Nat} {s0 : State} : ∀ s x1, 256 &&& m = 256 → Same m s0 s → Same m s0 (svcOut s x1) := by
  intro s x1 hM h
  refine Same.run hM h fun h0 => ?_
  unfold svcOut
  repeat' (with_reducible first
    | (extract_lets +onlyGivenNames z; clear_value z; apply Same.letAny z; clear z; intro z)
    | (refine Same.updSvc ?_ rfl; assumption))

theorem svcFail_frame {m : Nat} {s0 : State} : ∀ s, 2098434 &&& m = 2098434 → Same m s0 s → Same m s0 (svcFail s) := by
  intro s hM h
  refine Same.run hM h fun h0 => ?_
  unfold svcFail
  repeat' (with_reducible first
    | assumption
    | exact Same.bits rfl
    | (extract_lets +onlyGivenNames z; change State at z; apply Same.cutS h0 (x := z); unfold z; clear z; rotate_left; intro h; clear_value z; apply Same.letS h; clear h z; intro z h)
    | (extract_lets +onlyGivenNames z; clear_value z; apply Same.letAny z; clear z; intro z)
    | apply Same.ite
    | apply finc_frame
    | apply fon_frame
    | apply post_frame
    | apply svcOut_frame)

theorem eventAppend_frame {m : Nat} {s0 : State} : ∀ s x1, 20971522 &&& m = 20971522 → Same m s0 s → SameO m s0 (eventAppend s x1) := by
  intro s x1 hM h
  refine SameO.run hM h fun h0 => ?_
  unfold eventAppend
  repeat' (with_reducible first
    | assumption
    | exact Same.bits rfl
    | (extract_lets +onlyGivenNames z; change State at z; apply Same.cutS h0 (x := z); unfold z; clear z; rotate_left; intro h; clear_value z; apply Same.letS h; clear h z; intro z h)
    | apply SameO.ite
    | apply commitApp_frame
    | apply pendAdd_frame
    | apply appendAt_frame
    | apply SameO.some
    | apply SameO.none
    | split)

theorem recRevoke_frame {m : Nat} {s0 : State} : ∀ s x1, 4194306 &&& m = 4194306 → Same m s0 s → Same m s0 (recRevoke s x1) := by
  intro s x1 hM h
  refine Same.run hM h fun h0 => ?_
  unfold recRevoke
  repeat' (with_reducible first
    | exact Same.bits rfl
    | (extract_lets +onlyGivenNames z; clear_value z; apply Same.letAny z; clear z; intro z)
    | apply kstShow_frame
    | (refine Same.updKst ?_ rfl; assumption))

theorem keyZero_frame {m : Nat} {s0 : State} : ∀ s x1 x2, 7597058 &&& m = 7597058 → Same m s0 s → Same m s0 (keyZero s x1 x2) := by
  intro s x1 x2 hM h
  refine Same.run hM h fun h0 => ?_
  unfold keyZero
  repeat' (with_reducible first
    | assumption
    | exact Same.bits rfl
    | (extract_lets +onlyGivenNames z; change State at z; apply Same.cutS h0 (x := z); unfold z; clear z; rotate_left; intro h; clear_value z; apply Same.letS h; clear h z; intro z h)
    | (extract_lets +onlyGivenNames z; clear_value z; apply Same.letAny z; clear z; intro z)
    | (extract_lets +onlyGivenNames z; subst z)
    | apply Same.ite
    | apply post_frame
    | apply fadd_frame
    | apply ctxFlush_frame
    | apply recRevoke_frame
    | apply kstZero_frame
    | apply kstShow_frame
    | (refine Same.updZne ?_ rfl; assumption)
    | (refine Same.updKst ?_ rfl; assumption))

theorem mediaZero_frame {m : Nat} {s0 : State} : ∀ s x1, 7597058 &&& m = 7597058 → Same m s0 s → Same m s0 (mediaZero s x1) := by
  intro s x1 hM h
  refine Same.run hM h fun h0 => ?_
  unfold mediaZero
  repeat' (with_reducible first
    | assumption
    | intro _
    | exact Same.bits rfl
    | apply keyZero_frame
    | apply Same.foldl)

theorem sramZero_frame {m : Nat} {s0 : State} : ∀ s, 2064 &&& m = 2064 → Same m s0 s → Same m s0 (sramZero s) := by
  intro s hM h
  refine Same.run hM h fun h0 => ?_
  unfold sramZero
  repeat' (with_reducible first
    | assumption
    | intro _
    | exact Same.bits rfl
    | (extract_lets +onlyGivenNames z; change State at z; apply Same.cutS h0 (x := z); unfold z; clear z; rotate_left; intro h; clear_value z; apply Same.letS h; clear h z; intro z h)
    | (extract_lets +onlyGivenNames z; change _ × _ × State at z; apply Same.cut22 h0 (x := z); unfold z; clear z; rotate_left; intro h; clear_value z; apply Same.let22 (x := z) h; clear h z; intro z h)
    | (extract_lets +onlyGivenNames z; change _ × State at z; apply Same.cut2 h0 (x := z); unfold z; clear z; rotate_left; intro h; clear_value z; apply Same.let2 (x := z) h; clear h z; intro z h)
    | (extract_lets +onlyGivenNames z; change _ → _ at z; apply Same.cutF z; subst z)
    | (extract_lets +onlyGivenNames z; clear_value z; apply Same.letAny z; clear z; intro z)
    | (refine Same.updFabHst ?_ rfl; assumption)
    | split
    | dsimp -zeta only)

theorem svcUnlock_frame {m : Nat} {s0 : State} : ∀ s x1, 91483410 &&& m = 91483410 → Same m s0 s → Same m s0 (svcUnlock s x1) := by
  intro s x1 hM h
  refine Same.run hM h fun h0 => ?_
  unfold svcUnlock
  repeat' (with_reducible first
    | assumption
    | exact Same.bits rfl
    | (extract_lets +onlyGivenNames z; change State at z; apply Same.cutS h0 (x := z); unfold z; clear z; rotate_left; intro h; clear_value z; apply Same.letS h; clear h z; intro z h)
    | (extract_lets +onlyGivenNames z; change _ × _ × State at z; apply Same.cut22 h0 (x := z); unfold z; clear z; rotate_left; intro h; clear_value z; apply Same.let22 (x := z) h; clear h z; intro z h)
    | (extract_lets +onlyGivenNames z; change _ × State at z; apply Same.cut2 h0 (x := z); unfold z; clear z; rotate_left; intro h; clear_value z; apply Same.let2 (x := z) h; clear h z; intro z h)
    | (extract_lets +onlyGivenNames z; clear_value z; apply Same.letAny z; clear z; intro z)
    | apply eventAppend_frame
    | apply svcOut_frame
    | apply mediaZero_frame
    | apply draw_frame
    | apply sramZero_frame
    | apply fon_frame
    | apply post_frame
    | (refine Same.updKst ?_ rfl; assumption)
    | (refine Same.updKst ?_ rfl; apply Same.ofPair2; assumption)
    | (refine Same.updKst ?_ rfl; apply Same.ofSome; assumption)
    | (refine Same.updSvcBot ?_ rfl; assumption)
    | (refine Same.updSvcBot ?_ rfl; apply Same.ofPair2; assumption)
    | (refine Same.updSvcBot ?_ rfl; apply Same.ofSome; assumption)
    | (apply Same.ofPair2; assumption)
    | (apply Same.ofSome; assumption)
    | (apply Same2.out; apply draw_frame)
    | split
    | dsimp -zeta only
    | apply Same2.mk')

theorem svcResponse_frame {m : Nat} {s0 : State} : ∀ s x1, 91483410 &&& m = 91483410 → Same m s0 s → Same m s0 (svcResponse s x1) := by
  intro s x1 hM h
  refine Same.run hM h fun h0 => ?_
  unfold svcResponse
  repeat' (with_reducible first
    | assumption
    | exact Same.bits rfl
    | (extract_lets +onlyGivenNames z; change State at z; apply Same.cutS h0 (x := z); unfold z; clear z; rotate_left; intro h; clear_value z; apply Same.letS h; clear h z; intro z h)
    | (extract_lets +onlyGivenNames z; clear_value z; apply Same.letAny z; clear z; intro z)
    | apply Same.ite
    | apply svcBypass_frame
    | apply svcFail_frame
    | apply svcUnlock_frame
    | (refine Same.updSvc ?_ rfl; assumption)
    | split)

theorem sliceQueuesDrop_frame {m : Nat} {s0 : State} : ∀ s x1, 2048 &&& m = 2048 → Same m s0 s → Same m s0 (sliceQueuesDrop s x1) := by
  intro s x1 hM h
  refine Same.run hM h fun h0 => ?_
  unfold sliceQueuesDrop
  repeat' (with_reducible first
    | assumption
    | intro _
    | exact Same.bits rfl
    | (extract_lets +onlyGivenNames z; change State at z; apply Same.cutS h0 (x := z); unfold z; clear z; rotate_left; intro h; clear_value z; apply Same.letS h; clear h z; intro z h)
    | (extract_lets +onlyGivenNames z; clear_value z; apply Same.letAny z; clear z; intro z)
    | apply ctxEnd_frame
    | (refine Same.updHst ?_ rfl; assumption)
    | apply Same.foldl
    | split)

theorem sliceResetEnd_frame {m : Nat} {s0 : State} : ∀ s x1, 3669058 &&& m = 3669058 → Same m s0 s → Same m s0 (sliceResetEnd s x1) := by
  intro s x1 hM h
  refine Same.run hM h fun h0 => ?_
  unfold sliceResetEnd
  repeat' (with_reducible first
    | assumption
    | exact Same.bits rfl
    | (extract_lets +onlyGivenNames z; change State at z; apply Same.cutS h0 (x := z); unfold z; clear z; rotate_left; intro h; clear_value z; apply Same.letS h; clear h z; intro z h)
    | apply Same.ite
    | apply ctxVanish_frame
    | apply quarantineEnd_frame
    | apply sliceQueuesDrop_frame
    | apply sliceUpd_frame
    | apply cardReset_frame
    | apply finc_frame
    | apply psRefresh_frame
    | apply slmShow_frame
    | apply post_frame
    | split)

theorem execSliceResetComplete_frame {m : Nat} {s0 : State} : ∀ x0 s, 3669058 &&& m = 3669058 → Same m s0 s → SameT m s0 (execSliceResetComplete x0 s) := by
  intro x0 s hM h
  refine SameT.run hM h fun h0 => ?_
  unfold execSliceResetComplete
  repeat' (with_reducible first
    | assumption
    | exact Same.bits rfl
    | apply SameT.next
    | apply sliceResetEnd_frame)

theorem identify_frame {m : Nat} {s0 : State} : ∀ x0 s, 536870912 &&& m = 536870912 → Same m s0 s → Same2 m s0 (identify x0 s) := by
  intro x0 s hM h
  refine Same2.run hM h fun h0 => ?_
  unfold identify
  repeat' (with_reducible first
    | assumption
    | exact Same.bits rfl
    | (extract_lets +onlyGivenNames z; clear_value z; apply Same.letAny z; clear z; intro z)
    | apply Same2.ite
    | apply openTaken_frame
    | split
    | apply Same2.mk')

theorem journalCopy_frame {m : Nat} {s0 : State} : ∀ s x1 x2 x3 x4 x5 x6, 90114 &&& m = 90114 → Same m s0 s → Same m s0 (journalCopy s x1 x2 x3 x4 x5 x6) := by
  intro s x1 x2 x3 x4 x5 x6 hM h
  refine Same.run hM h fun h0 => ?_
  unfold journalCopy
  repeat' (with_reducible first
    | assumption
    | exact Same.bits rfl
    | apply journalHold_frame
    | dsimp -zeta only)

theorem zoneCopied_frame {m : Nat} {s0 : State} : ∀ s x1 x2 x3 x4 x5 x6, 90114 &&& m = 90114 → Same m s0 s → Same m s0 (zoneCopied s x1 x2 x3 x4 x5 x6) := by
  intro s x1 x2 x3 x4 x5 x6 hM h
  refine Same.run hM h fun h0 => ?_
  unfold zoneCopied
  repeat' (with_reducible first
    | assumption
    | exact Same.bits rfl
    | (extract_lets +onlyGivenNames z; change State at z; apply Same.cutS h0 (x := z); unfold z; clear z; rotate_left; intro h; clear_value z; apply Same.letS h; clear h z; intro z h)
    | (extract_lets +onlyGivenNames z; change _ × _ × State at z; apply Same.cut22 h0 (x := z); unfold z; clear z; rotate_left; intro h; clear_value z; apply Same.let22 (x := z) h; clear h z; intro z h)
    | (extract_lets +onlyGivenNames z; change _ × State at z; apply Same.cut2 h0 (x := z); unfold z; clear z; rotate_left; intro h; clear_value z; apply Same.let2 (x := z) h; clear h z; intro z h)
    | (extract_lets +onlyGivenNames z; clear_value z; apply Same.letAny z; clear z; intro z)
    | apply Same.ite
    | apply zonePut_frame
    | apply unitDrop_frame
    | apply journalCopy_frame
    | apply unitsAdd_frame
    | split
    | dsimp -zeta only)

theorem wearLevel_frame {m : Nat} {s0 : State} : ∀ s x1, 3263490 &&& m = 3263490 → Same m s0 s → Same m s0 (wearLevel s x1) := by
  intro s x1 hM h
  refine Same.run hM h fun h0 => ?_
  unfold wearLevel
  repeat' (with_reducible first
    | assumption
    | intro _
    | exact Same.bits rfl
    | (extract_lets +onlyGivenNames z; change State at z; apply Same.cutS h0 (x := z); unfold z; clear z; rotate_left; intro h; clear_value z; apply Same.letS h; clear h z; intro z h)
    | (extract_lets +onlyGivenNames z; change _ × _ × State at z; apply Same.cut22 h0 (x := z); unfold z; clear z; rotate_left; intro h; clear_value z; apply Same.let22 (x := z) h; clear h z; intro z h)
    | (extract_lets +onlyGivenNames z; change _ × State at z; apply Same.cut2 h0 (x := z); unfold z; clear z; rotate_left; intro h; clear_value z; apply Same.let2 (x := z) h; clear h z; intro z h)
    | (extract_lets +onlyGivenNames z; clear_value z; apply Same.letAny z; clear z; intro z)
    | apply Same.ite
    | apply copyBlock_frame
    | apply Same.foldl
    | split
    | dsimp -zeta only)

theorem execWearLevelTrigger_frame {m : Nat} {s0 : State} : ∀ x0 s, 3263490 &&& m = 3263490 → Same m s0 s → SameT m s0 (execWearLevelTrigger x0 s) := by
  intro x0 s hM h
  refine SameT.run hM h fun h0 => ?_
  unfold execWearLevelTrigger
  repeat' (with_reducible first
    | assumption
    | exact Same.bits rfl
    | apply SameT.next
    | apply wearLevel_frame)

theorem audit_frame {m : Nat} {s0 : State} : ∀ s, 2360322 &&& m = 2360322 → Same m s0 s → Same m s0 (audit s) := by
  intro s hM h
  refine Same.run hM h fun h0 => ?_
  unfold audit
  repeat' (with_reducible first
    | assumption
    | intro _
    | exact Same.bits rfl
    | (extract_lets +onlyGivenNames z; change _ → _ at z; apply Same.cutF z; subst z)
    | (extract_lets +onlyGivenNames z; change State at z; apply Same.cutS h0 (x := z); unfold z; clear z; rotate_left; intro h; clear_value z; apply Same.letS h; clear h z; intro z h)
    | (extract_lets +onlyGivenNames z; clear_value z; apply Same.letAny z; clear z; intro z)
    | apply Same.ite
    | apply finc_frame
    | apply fset_frame
    | apply pset_frame
    | apply fon_frame
    | apply post_frame
    | (refine Same.updBpm ?_ rfl; assumption)
    | apply Same.foldl)

theorem execLeakAuditPass_frame {m : Nat} {s0 : State} : ∀ s, 2360322 &&& m = 2360322 → Same m s0 s → SameT m s0 (execLeakAuditPass s) := by
  intro s hM h
  refine SameT.run hM h fun h0 => ?_
  unfold execLeakAuditPass
  repeat' (with_reducible first
    | assumption
    | exact Same.bits rfl
    | apply SameT.next
    | apply audit_frame)

theorem aliasSign_frame {m : Nat} {s0 : State} : ∀ s x1, 4194304 &&& m = 4194304 → Same m s0 s → Same2 m s0 (aliasSign s x1) := by
  intro s x1 hM h
  refine Same2.run hM h fun h0 => ?_
  unfold aliasSign
  repeat' (with_reducible first
    | assumption
    | exact Same.bits rfl
    | apply Same2.ite
    | (apply Same2.out; apply draw_frame)
    | apply Same2.mk')

theorem spdmSlot_frame {M : Nat} {s0 s : State} (hM : 2100354 &&& M = 2100354) (t : SPath) (slot : Nat) (f : State → State)
    (hf : ∀ t, Same M s0 t → Same M s0 (f t)) (h : Same M s0 s) : Same M s0 (spdmSlot s t slot f) := by
  unfold spdmSlot
  refine spdmRun_frame hM t _ (fun u hu => ?_) h
  split
  · exact hf u hu
  · exact spdmSay_frame _ _ (Same.sub (by decide) hM) hu

theorem execSpdmChallenge_frame {m : Nat} {s0 : State} : ∀ x0 x1 x2 s, 6294658 &&& m = 6294658 → Same m s0 s → SameT m s0 (execSpdmChallenge x0 x1 x2 s) := by
  intro x0 x1 x2 s hM h
  refine SameT.run hM h fun h0 => ?_
  unfold execSpdmChallenge
  repeat' (with_reducible first
    | assumption
    | intro _
    | exact Same.bits rfl
    | apply SameT.next
    | apply spdmSlot_frame
    | apply aliasSign_frame
    | apply spdmSay_frame
    | (apply Same.ofPair2; assumption)
    | (apply Same2.out; apply aliasSign_frame)
    | split
    | dsimp -zeta only
    | apply Same2.mk')

theorem svcChallenge_frame {m : Nat} {s0 : State} : ∀ s, 4194560 &&& m = 4194560 → Same m s0 s → Same m s0 (svcChallenge s) := by
  intro s hM h
  refine Same.run hM h fun h0 => ?_
  unfold svcChallenge
  repeat' (with_reducible first
    | assumption
    | exact Same.bits rfl
    | (extract_lets +onlyGivenNames z; change State at z; apply Same.cutS h0 (x := z); unfold z; clear z; rotate_left; intro h; clear_value z; apply Same.letS h; clear h z; intro z h)
    | (extract_lets +onlyGivenNames z; change _ × State at z; apply Same.cut2 h0 (x := z); unfold z; clear z; rotate_left; intro h; clear_value z; apply Same.let2 (x := z) h; clear h z; intro z h)
    | (extract_lets +onlyGivenNames z; clear_value z; apply Same.letAny z; clear z; intro z)
    | apply Same.ite
    | apply svcBypass_frame
    | apply draw_frame
    | apply svcOut_frame
    | (refine Same.updSvc ?_ rfl; assumption))

theorem execReadServeChoice_frame {m : Nat} {s0 : State} : ∀ x0 x1 s, 3263490 &&& m = 3263490 → Same m s0 s → SameT m s0 (execReadServeChoice x0 x1 s) := by
  intro x0 x1 s hM h
  refine SameT.run hM h fun h0 => ?_
  unfold execReadServeChoice
  repeat' (with_reducible first
    | assumption
    | exact Same.bits rfl
    | apply SameT.next
    | apply serveRead_frame)

theorem execAspmL1Entry_frame {m : Nat} {s0 : State} : ∀ x0 s, 2 &&& m = 2 → Same m s0 s → SameT m s0 (execAspmL1Entry x0 s) := by
  intro x0 s hM h
  refine SameT.run hM h fun h0 => ?_
  unfold execAspmL1Entry
  repeat' (with_reducible first
    | assumption
    | exact Same.bits rfl
    | apply SameT.next
    | apply Same.ite
    | apply fset_frame)

theorem execFirmwareCommitImmediate_frame {m : Nat} {s0 : State} : ∀ x0 s, 2048 &&& m = 2048 → Same m s0 s → SameT m s0 (execFirmwareCommitImmediate x0 s) := by
  intro x0 s hM h
  refine SameT.run hM h fun h0 => ?_
  unfold execFirmwareCommitImmediate
  repeat' (with_reducible first
    | assumption
    | exact Same.bits rfl
    | apply SameT.next
    | apply adminRead_frame)

theorem freezeEnd_frame {m : Nat} {s0 : State} : ∀ s x1, 2098178 &&& m = 2098178 → Same m s0 s → Same m s0 (freezeEnd s x1) := by
  intro s x1 hM h
  refine Same.run hM h fun h0 => ?_
  unfold freezeEnd
  repeat' (with_reducible first
    | assumption
    | exact Same.bits rfl
    | (extract_lets +onlyGivenNames z; change State at z; apply Same.cutS h0 (x := z); unfold z; clear z; rotate_left; intro h; clear_value z; apply Same.letS h; clear h z; intro z h)
    | (extract_lets +onlyGivenNames z; clear_value z; apply Same.letAny z; clear z; intro z)
    | apply post_frame
    | (refine Same.updLkt ?_ rfl; assumption)
    | split)

theorem locketThaw_frame {m : Nat} {s0 : State} : ∀ x0 s, 2098178 &&& m = 2098178 → Same m s0 s → Same2 m s0 (locketThaw x0 s) := by
  intro x0 s hM h
  refine Same2.run hM h fun h0 => ?_
  unfold locketThaw
  repeat' (with_reducible first
    | assumption
    | exact Same.bits rfl
    | apply Same2.ite
    | apply freezeEnd_frame
    | split
    | apply Same2.mk')

theorem nsNotice_frame {m : Nat} {s0 : State} : ∀ s x1, 2048 &&& m = 2048 → Same m s0 s → Same m s0 (nsNotice s x1) := by
  intro s x1 hM h
  refine Same.run hM h fun h0 => ?_
  unfold nsNotice
  repeat' (with_reducible first
    | assumption
    | intro _
    | exact Same.bits rfl
    | apply Same.ite
    | apply raiseEvent_frame
    | apply Same.foldl)

theorem nsAdd_frame {m : Nat} {s0 : State} : ∀ s x1 x2, 92162 &&& m = 92162 → Same m s0 s → Same m s0 (nsAdd s x1 x2) := by
  intro s x1 x2 hM h
  refine Same.run hM h fun h0 => ?_
  unfold nsAdd
  repeat' (with_reducible first
    | assumption
    | exact Same.bits rfl
    | (extract_lets +onlyGivenNames z; change State at z; apply Same.cutS h0 (x := z); unfold z; clear z; rotate_left; intro h; clear_value z; apply Same.letS h; clear h z; intro z h)
    | (extract_lets +onlyGivenNames z; change _ × _ × State at z; apply Same.cut22 h0 (x := z); unfold z; clear z; rotate_left; intro h; clear_value z; apply Same.let22 (x := z) h; clear h z; intro z h)
    | (extract_lets +onlyGivenNames z; change _ × State at z; apply Same.cut2 h0 (x := z); unfold z; clear z; rotate_left; intro h; clear_value z; apply Same.let2 (x := z) h; clear h z; intro z h)
    | (extract_lets +onlyGivenNames z; clear_value z; apply Same.letAny z; clear z; intro z)
    | apply zneRefresh_frame
    | apply nsNotice_frame
    | apply journalDef_frame
    | (refine Same.updZne ?_ rfl; assumption)
    | dsimp -zeta only)

theorem nsCreate_frame {m : Nat} {s0 : State} : ∀ x0 s, 92162 &&& m = 92162 → Same m s0 s → Same2 m s0 (nsCreate x0 s) := by
  intro x0 s hM h
  refine Same2.run hM h fun h0 => ?_
  unfold nsCreate
  repeat' (with_reducible first
    | assumption
    | exact Same.bits rfl
    | (extract_lets +onlyGivenNames z; clear_value z; apply Same.letAny z; clear z; intro z)
    | apply Same2.ite
    | apply nsAdd_frame
    | split
    | apply Same2.mk')

theorem execNsCreate_frame {m : Nat} {s0 : State} : ∀ x0 s, 2190978 &&& m = 2190978 → Same m s0 s → SameT m s0 (execNsCreate x0 s) := by
  intro x0 s hM h
  refine SameT.run hM h fun h0 => ?_
  unfold execNsCreate
  repeat' (with_reducible first
    | assumption
    | intro _
    | exact Same.bits rfl
    | apply SameT.next
    | apply mbxRun_frame
    | apply nsCreate_frame
    | apply OpKeeps.opDef)

theorem openOn_frame {m : Nat} {s0 : State} : ∀ s x1 x2, 2223106 &&& m = 2223106 → Same m s0 s → Same2 m s0 (openOn s x1 x2) := by
  intro s x1 x2 hM h
  refine Same2.run hM h fun h0 => ?_
  unfold openOn
  repeat' (with_reducible first
    | assumption
    | exact Same.bits rfl
    | (extract_lets +onlyGivenNames z; change State at z; apply Same.cutS h0 (x := z); unfold z; clear z; rotate_left; intro h; clear_value z; apply Same.letS h; clear h z; intro z h)
    | (extract_lets +onlyGivenNames z; change _ × _ × State at z; apply Same.cut22 h0 (x := z); unfold z; clear z; rotate_left; intro h; clear_value z; apply Same.let22 (x := z) h; clear h z; intro z h)
    | (extract_lets +onlyGivenNames z; change _ × State at z; apply Same.cut2 h0 (x := z); unfold z; clear z; rotate_left; intro h; clear_value z; apply Same.let2 (x := z) h; clear h z; intro z h)
    | (extract_lets +onlyGivenNames z; clear_value z; apply Same.letAny z; clear z; intro z)
    | apply Same.ite
    | apply Same2.ite
    | apply zoneOpenFor_frame
    | apply seqTake_frame
    | (apply Same2.out; apply seqTake_frame)
    | (apply Same2.out; apply zoneOpenFor_frame)
    | split
    | dsimp -zeta only
    | apply Same2.mk')

theorem actEnd_frame {m : Nat} {s0 : State} : ∀ s x1, 2048 &&& m = 2048 → Same m s0 s → Same m s0 (actEnd s x1) := by
  intro s x1 hM h
  refine Same.run hM h fun h0 => ?_
  unfold actEnd
  repeat' (with_reducible first
    | assumption
    | exact Same.bits rfl
    | apply Same.ite
    | apply ctxEnd_frame)

theorem zoneFull_frame {m : Nat} {s0 : State} : ∀ s x1, 90114 &&& m = 90114 → Same m s0 s → Same m s0 (zoneFull s x1) := by
  intro s x1 hM h
  refine Same.run hM h fun h0 => ?_
  unfold zoneFull
  repeat' (with_reducible first
    | assumption
    | exact Same.bits rfl
    | (extract_lets +onlyGivenNames z; change State at z; apply Same.cutS h0 (x := z); unfold z; clear z; rotate_left; intro h; clear_value z; apply Same.letS h; clear h z; intro z h)
    | (extract_lets +onlyGivenNames z; change _ × _ × State at z; apply Same.cut22 h0 (x := z); unfold z; clear z; rotate_left; intro h; clear_value z; apply Same.let22 (x := z) h; clear h z; intro z h)
    | (extract_lets +onlyGivenNames z; change _ × State at z; apply Same.cut2 h0 (x := z); unfold z; clear z; rotate_left; intro h; clear_value z; apply Same.let2 (x := z) h; clear h z; intro z h)
    | (extract_lets +onlyGivenNames z; clear_value z; apply Same.letAny z; clear z; intro z)
    | apply Same.ite
    | apply holdTry_frame
    | apply journalZone_frame
    | apply zonePut_frame
    | split
    | dsimp -zeta only)

theorem zoneOffline_frame {m : Nat} {s0 : State} : ∀ s x1, 124930 &&& m = 124930 → Same m s0 s → Same m s0 (zoneOffline s x1) := by
  intro s x1 hM h
  refine Same.run hM h fun h0 => ?_
  unfold zoneOffline
  repeat' (with_reducible first
    | assumption
    | exact Same.bits rfl
    | (extract_lets +onlyGivenNames z; change State at z; apply Same.cutS h0 (x := z); unfold z; clear z; rotate_left; intro h; clear_value z; apply Same.letS h; clear h z; intro z h)
    | (extract_lets +onlyGivenNames z; change _ × _ × State at z; apply Same.cut22 h0 (x := z); unfold z; clear z; rotate_left; intro h; clear_value z; apply Same.let22 (x := z) h; clear h z; intro z h)
    | (extract_lets +onlyGivenNames z; change _ × State at z; apply Same.cut2 h0 (x := z); unfold z; clear z; rotate_left; intro h; clear_value z; apply Same.let2 (x := z) h; clear h z; intro z h)
    | (extract_lets +onlyGivenNames z; clear_value z; apply Same.letAny z; clear z; intro z)
    | apply zoneWork_frame
    | apply zoneData_frame
    | apply sweep_frame
    | apply journalZoneH_frame
    | apply zonePut_frame
    | dsimp -zeta only)

theorem actionDo_frame {m : Nat} {s0 : State} : ∀ s x1 x2, 124930 &&& m = 124930 → Same m s0 s → Same m s0 (actionDo s x1 x2) := by
  intro s x1 x2 hM h
  refine Same.run hM h fun h0 => ?_
  unfold actionDo
  repeat' (with_reducible first
    | assumption
    | exact Same.bits rfl
    | apply Same.ite
    | apply zoneState_frame
    | apply zoneFull_frame
    | apply zoneReset_frame
    | apply zoneOffline_frame)

theorem actNow_frame {m : Nat} {s0 : State} : ∀ x0 s x2, 124930 &&& m = 124930 → Same m s0 s → Same m s0 (actNow x0 s x2) := by
  intro x0 s x2 hM h
  refine Same.run hM h fun h0 => ?_
  unfold actNow
  repeat' (with_reducible first
    | assumption
    | exact Same.bits rfl
    | apply actionDo_frame
    | (apply Same2.out; apply seqTake_frame))

theorem actOn_frame {m : Nat} {s0 : State} : ∀ x0 x1 s x3, 124930 &&& m = 124930 → Same m s0 s → Same m s0 (actOn x0 x1 s x3) := by
  intro x0 x1 s x3 hM h
  refine Same.run hM h fun h0 => ?_
  unfold actOn
  repeat' (with_reducible first
    | assumption
    | exact Same.bits rfl
    | (extract_lets +onlyGivenNames z; clear_value z; apply Same.letAny z; clear z; intro z)
    | apply Same.ite
    | apply zonePut_frame
    | apply actNow_frame)

theorem descsFetch_frame {m : Nat} {s0 : State} : ∀ s x1 x2, 8194 &&& m = 8194 → Same m s0 s → Same m s0 (descsFetch s x1 x2) := by
  intro s x1 x2 hM h
  refine Same.run hM h fun h0 => ?_
  unfold descsFetch
  repeat' (with_reducible first
    | assumption
    | intro _
    | exact Same.bits rfl
    | apply Same.ite
    | apply descCheck_frame
    | apply Same.foldl
    | split
    | dsimp -zeta only)

theorem sendAll_frame {m : Nat} {s0 : State} : ∀ x0 x1 x2 s, 2223106 &&& m = 2223106 → Same m s0 s → Same m s0 (sendAll x0 x1 x2 s) := by
  intro x0 x1 x2 s hM h
  refine Same.run hM h fun h0 => ?_
  unfold sendAll
  repeat' (with_reducible first
    | assumption
    | intro _
    | exact Same.bits rfl
    | (extract_lets +onlyGivenNames z; change State at z; apply Same.cutS h0 (x := z); unfold z; clear z; rotate_left; intro h; clear_value z; apply Same.letS h; clear h z; intro z h)
    | (extract_lets +onlyGivenNames z; change _ × _ × State at z; apply Same.cut22 h0 (x := z); unfold z; clear z; rotate_left; intro h; clear_value z; apply Same.let22 (x := z) h; clear h z; intro z h)
    | (extract_lets +onlyGivenNames z; change _ × State at z; apply Same.cut2 h0 (x := z); unfold z; clear z; rotate_left; intro h; clear_value z; apply Same.let2 (x := z) h; clear h z; intro z h)
    | (extract_lets +onlyGivenNames z; clear_value z; apply Same.letAny z; clear z; intro z)
    | apply Same.ite
    | apply Same2.ite
    | apply descsFetch_frame
    | apply ctxFail_frame
    | apply ctxEnd_frame
    | apply openOn_frame
    | apply actEnd_frame
    | apply actOn_frame
    | apply ioGo_frame
    | apply Same.foldl
    | apply Same2.foldl
    | (apply Same2.out; apply openOn_frame)
    | split
    | dsimp -zeta only
    | apply Same2.mk')

theorem sendOne_frame {m : Nat} {s0 : State} : ∀ x0 x1 x2 s, 2223106 &&& m = 2223106 → Same m s0 s → Same m s0 (sendOne x0 x1 x2 s) := by
  intro x0 x1 x2 s hM h
  refine Same.run hM h fun h0 => ?_
  unfold sendOne
  repeat' (with_reducible first
    | assumption
    | exact Same.bits rfl
    | (extract_lets +onlyGivenNames z; change State at z; apply Same.cutS h0 (x := z); unfold z; clear z; rotate_left; intro h; clear_value z; apply Same.letS h; clear h z; intro z h)
    | (extract_lets +onlyGivenNames z; change _ × _ × State at z; apply Same.cut22 h0 (x := z); unfold z; clear z; rotate_left; intro h; clear_value z; apply Same.let22 (x := z) h; clear h z; intro z h)
    | (extract_lets +onlyGivenNames z; change _ × State at z; apply Same.cut2 h0 (x := z); unfold z; clear z; rotate_left; intro h; clear_value z; apply Same.let2 (x := z) h; clear h z; intro z h)
    | (extract_lets +onlyGivenNames z; clear_value z; apply Same.letAny z; clear z; intro z)
    | apply Same.ite
    | apply Same2.ite
    | apply ctxFail_frame
    | apply descLookup_frame
    | apply ctxEnd_frame
    | apply openOn_frame
    | apply actEnd_frame
    | apply actOn_frame
    | apply ioGo_frame
    | (apply Same.ofPair2; assumption)
    | (apply Same2.out; apply openOn_frame)
    | split
    | dsimp -zeta only
    | apply Same2.mk')

theorem zoneSend_frame {m : Nat} {s0 : State} : ∀ s x1 x2, 146275922 &&& m = 146275922 → Same m s0 s → Same m s0 (zoneSend s x1 x2) := by
  intro s x1 x2 hM h
  refine Same.run hM h fun h0 => ?_
  unfold zoneSend
  repeat' (with_reducible first
    | assumption
    | intro _
    | exact Same.bits rfl
    | apply Same.ite
    | apply ioRun_frame
    | apply ctxFail_frame
    | apply sendAll_frame
    | apply sendOne_frame)

theorem createCq_frame {m : Nat} {s0 : State} : ∀ x0 s, 2050 &&& m = 2050 → Same m s0 s → Same2 m s0 (createCq x0 s) := by
  intro x0 s hM h
  refine Same2.run hM h fun h0 => ?_
  unfold createCq
  repeat' (with_reducible first
    | assumption
    | exact Same.bits rfl
    | (extract_lets +onlyGivenNames z; clear_value z; apply Same.letAny z; clear z; intro z)
    | apply Same2.ite
    | apply slmShow_frame
    | (refine Same.updHst ?_ rfl; assumption)
    | apply Same2.mk')

theorem execCreateIoCq_frame {m : Nat} {s0 : State} : ∀ x0 s, 2050 &&& m = 2050 → Same m s0 s → SameT m s0 (execCreateIoCq x0 s) := by
  intro x0 s hM h
  refine SameT.run hM h fun h0 => ?_
  unfold execCreateIoCq
  repeat' (with_reducible first
    | assumption
    | intro _
    | exact Same.bits rfl
    | apply SameT.next
    | (extract_lets +onlyGivenNames z; change _ × State at z; apply Same.cut2 h0 (x := z); unfold z; clear z; rotate_left; intro h; clear_value z; apply Same.let2 (x := z) h; clear h z; intro z h)
    | apply adminRun_frame
    | apply createCq_frame)

theorem wrLatch_frame {m : Nat} {s0 : State} : ∀ s x1, 2 &&& m = 2 → Same m s0 s → Same m s0 (wrLatch s x1) := by
  intro s x1 hM h
  refine Same.run hM h fun h0 => ?_
  unfold wrLatch
  repeat' (with_reducible first
    | assumption
    | exact Same.bits rfl
    | (extract_lets +onlyGivenNames z; change State at z; apply Same.cutS h0 (x := z); unfold z; clear z; rotate_left; intro h; clear_value z; apply Same.letS h; clear h z; intro z h)
    | apply Same.ite
    | apply foff_frame)

theorem execDgeBootClose_frame {m : Nat} {s0 : State} : ∀ x0 s, 2098194 &&& m = 2098194 → Same m s0 s → SameT m s0 (execDgeBootClose x0 s) := by
  intro x0 s hM h
  refine SameT.run hM h fun h0 => ?_
  unfold execDgeBootClose
  repeat' (with_reducible first
    | assumption
    | intro _
    | exact Same.bits rfl
    | apply SameT.next
    | apply gated_frame
    | apply wrLatch_frame)

theorem testRead_frame {m : Nat} {s0 : State} : ∀ x0 s x2, 3263490 &&& m = 3263490 → Same m s0 s → Same m s0 (testRead x0 s x2) := by
  intro x0 s x2 hM h
  refine Same.run hM h fun h0 => ?_
  unfold testRead
  repeat' (with_reducible first
    | assumption
    | intro _
    | exact Same.bits rfl
    | (extract_lets +onlyGivenNames z; change State at z; apply Same.cutS h0 (x := z); unfold z; clear z; rotate_left; intro h; clear_value z; apply Same.letS h; clear h z; intro z h)
    | (extract_lets +onlyGivenNames z; change _ × _ × State at z; apply Same.cut22 h0 (x := z); unfold z; clear z; rotate_left; intro h; clear_value z; apply Same.let22 (x := z) h; clear h z; intro z h)
    | (extract_lets +onlyGivenNames z; change _ × State at z; apply Same.cut2 h0 (x := z); unfold z; clear z; rotate_left; intro h; clear_value z; apply Same.let2 (x := z) h; clear h z; intro z h)
    | (extract_lets +onlyGivenNames z; clear_value z; apply Same.letAny z; clear z; intro z)
    | apply bgStart_frame
    | apply serveRead_frame
    | (refine Same.updDsc ?_ rfl; assumption)
    | split
    | dsimp -zeta only)

theorem dstStart_frame {m : Nat} {s0 : State} : ∀ s x1 x2, 3263490 &&& m = 3263490 → Same m s0 s → Same m s0 (dstStart s x1 x2) := by
  intro s x1 x2 hM h
  refine Same.run hM h fun h0 => ?_
  unfold dstStart
  repeat' (with_reducible first
    | assumption
    | intro _
    | exact Same.bits rfl
    | (extract_lets +onlyGivenNames z; change State at z; apply Same.cutS h0 (x := z); unfold z; clear z; rotate_left; intro h; clear_value z; apply Same.letS h; clear h z; intro z h)
    | (extract_lets +onlyGivenNames z; change _ × _ × State at z; apply Same.cut22 h0 (x := z); unfold z; clear z; rotate_left; intro h; clear_value z; apply Same.let22 (x := z) h; clear h z; intro z h)
    | (extract_lets +onlyGivenNames z; change _ × State at z; apply Same.cut2 h0 (x := z); unfold z; clear z; rotate_left; intro h; clear_value z; apply Same.let2 (x := z) h; clear h z; intro z h)
    | (extract_lets +onlyGivenNames z; clear_value z; apply Same.letAny z; clear z; intro z)
    | apply Same.ite
    | apply dstShow_frame
    | apply testRead_frame
    | (refine Same.updHst ?_ rfl; assumption)
    | apply Same.foldl
    | split
    | dsimp -zeta only)

theorem fwShow_frame {m : Nat} {s0 : State} : ∀ s x1 x2, 2 &&& m = 2 → Same m s0 s → Same m s0 (fwShow s x1 x2) := by
  intro s x1 x2 hM h
  refine Same.run hM h fun h0 => ?_
  unfold fwShow
  repeat' (with_reducible first
    | assumption
    | exact Same.bits rfl
    | (extract_lets +onlyGivenNames z; change State at z; apply Same.cutS h0 (x := z); unfold z; clear z; rotate_left; intro h; clear_value z; apply Same.letS h; clear h z; intro z h)
    | (extract_lets +onlyGivenNames z; clear_value z; apply Same.letAny z; clear z; intro z)
    | apply Same.ite
    | apply fon_frame
    | apply fset_frame)

theorem bufViolation_frame {m : Nat} {s0 : State} : ∀ s x1, 2 &&& m = 2 → Same m s0 s → Same m s0 (bufViolation s x1) := by
  intro s x1 hM h
  refine Same.run hM h fun h0 => ?_
  unfold bufViolation
  repeat' (with_reducible first
    | assumption
    | exact Same.bits rfl
    | apply Same.ite
    | apply fon_frame
    | apply finc_frame)

theorem bufFault_frame {m : Nat} {s0 : State} : ∀ s x1 x2 x3, 146275922 &&& m = 146275922 → Same m s0 s → Same m s0 (bufFault s x1 x2 x3) := by
  intro s x1 x2 x3 hM h
  refine Same.run hM h fun h0 => ?_
  unfold bufFault
  repeat' (with_reducible first
    | assumption
    | exact Same.bits rfl
    | (extract_lets +onlyGivenNames z; change State at z; apply Same.cutS h0 (x := z); unfold z; clear z; rotate_left; intro h; clear_value z; apply Same.letS h; clear h z; intro z h)
    | (extract_lets +onlyGivenNames z; change _ × _ × State at z; apply Same.cut22 h0 (x := z); unfold z; clear z; rotate_left; intro h; clear_value z; apply Same.let22 (x := z) h; clear h z; intro z h)
    | (extract_lets +onlyGivenNames z; change _ × State at z; apply Same.cut2 h0 (x := z); unfold z; clear z; rotate_left; intro h; clear_value z; apply Same.let2 (x := z) h; clear h z; intro z h)
    | (extract_lets +onlyGivenNames z; clear_value z; apply Same.letAny z; clear z; intro z)
    | apply Same.ite
    | apply bufViolation_frame
    | apply raiseVio_frame
    | (refine Same.updBpm ?_ rfl; assumption)
    | split
    | dsimp -zeta only)

theorem bufHandover_frame {m : Nat} {s0 : State} : ∀ s x1 x2 x3, 146275922 &&& m = 146275922 → Same m s0 s → Same m s0 (bufHandover s x1 x2 x3) := by
  intro s x1 x2 x3 hM h
  refine Same.run hM h fun h0 => ?_
  unfold bufHandover
  repeat' (with_reducible first
    | assumption
    | exact Same.bits rfl
    | (extract_lets +onlyGivenNames z; change State at z; apply Same.cutS h0 (x := z); unfold z; clear z; rotate_left; intro h; clear_value z; apply Same.letS h; clear h z; intro z h)
    | (extract_lets +onlyGivenNames z; clear_value z; apply Same.letAny z; clear z; intro z)
    | apply Same.ite
    | apply bufMap_frame
    | apply bufFault_frame
    | (refine Same.updBpm ?_ rfl; assumption))

theorem execBufferHandover_frame {m : Nat} {s0 : State} : ∀ x0 x1 x2 s, 146275922 &&& m = 146275922 → Same m s0 s → SameT m s0 (execBufferHandover x0 x1 x2 s) := by
  intro x0 x1 x2 s hM h
  refine SameT.run hM h fun h0 => ?_
  unfold execBufferHandover
  repeat' (with_reducible first
    | assumption
    | exact Same.bits rfl
    | apply SameT.next
    | apply fwShow_frame
    | apply bufHandover_frame)

theorem coldReset_frame {m : Nat} {s0 : State} : ∀ s, 103976450 &&& m = 103976450 → Same m s0 s → Same m s0 (coldReset s) := by
  intro s hM h
  refine Same.run hM h fun h0 => ?_
  unfold coldReset
  repeat' (with_reducible first
    | assumption
    | exact Same.bits rfl
    | (extract_lets +onlyGivenNames z; clear_value z; apply Same.letAny z; clear z; intro z)
    | apply Same.ite
    | apply resetFlush_frame
    | (refine Same.updBot ?_ rfl; assumption))

theorem execSetFeaturesApst_frame {m : Nat} {s0 : State} : ∀ x0 s, 2048 &&& m = 2048 → Same m s0 s → SameT m s0 (execSetFeaturesApst x0 s) := by
  intro x0 s hM h
  refine SameT.run hM h fun h0 => ?_
  unfold execSetFeaturesApst
  repeat' (with_reducible first
    | assumption
    | intro _
    | exact Same.bits rfl
    | apply SameT.next
    | (extract_lets +onlyGivenNames z; change State at z; apply Same.cutS h0 (x := z); unfold z; clear z; rotate_left; intro h; clear_value z; apply Same.letS h; clear h z; intro z h)
    | (extract_lets +onlyGivenNames z; change _ × _ × State at z; apply Same.cut22 h0 (x := z); unfold z; clear z; rotate_left; intro h; clear_value z; apply Same.let22 (x := z) h; clear h z; intro z h)
    | (extract_lets +onlyGivenNames z; change _ × State at z; apply Same.cut2 h0 (x := z); unfold z; clear z; rotate_left; intro h; clear_value z; apply Same.let2 (x := z) h; clear h z; intro z h)
    | (extract_lets +onlyGivenNames z; clear_value z; apply Same.letAny z; clear z; intro z)
    | apply SameT.ite
    | apply Same.ite
    | apply Same2.ite
    | apply featRun_frame
    | apply featUpd_frame
    | apply Same.foldl
    | apply Same2.foldl
    | split
    | dsimp -zeta only
    | apply Same2.mk')

theorem pkeRun_frame {M : Nat} {s0 s : State} (_ : 0 &&& M = 0) (p op : Nat) (f : State → Nat → State)
    (hf : ∀ t i, Same M s0 t → Same M s0 (f t i)) (h : Same M s0 s) : Same M s0 (pkeRun s p op f) := by
  unfold pkeRun
  split
  · exact hf _ _ h
  · exact h

theorem pkeFault_frame {m : Nat} {s0 : State} : ∀ s x1 x2 x3, 11011090 &&& m = 11011090 → Same m s0 s → Same m s0 (pkeFault s x1 x2 x3) := by
  intro s x1 x2 x3 hM h
  refine Same.run hM h fun h0 => ?_
  unfold pkeFault
  repeat' (with_reducible first
    | assumption
    | exact Same.bits rfl
    | (extract_lets +onlyGivenNames z; change State at z; apply Same.cutS h0 (x := z); unfold z; clear z; rotate_left; intro h; clear_value z; apply Same.letS h; clear h z; intro z h)
    | apply fon_frame
    | apply finc_frame
    | apply pkeEnd_frame
    | apply post_frame)

theorem execPkeEcdh_frame {m : Nat} {s0 : State} : ∀ x0 x1 s, 150994514 &&& m = 150994514 → Same m s0 s → SameT m s0 (execPkeEcdh x0 x1 s) := by
  intro x0 x1 s hM h
  refine SameT.run hM h fun h0 => ?_
  unfold execPkeEcdh
  repeat' (with_reducible first
    | assumption
    | intro _
    | exact Same.bits rfl
    | apply SameT.next
    | (extract_lets +onlyGivenNames z; change State at z; apply Same.cutS h0 (x := z); unfold z; clear z; rotate_left; intro h; clear_value z; apply Same.letS h; clear h z; intro z h)
    | (extract_lets +onlyGivenNames z; change _ × _ × State at z; apply Same.cut22 h0 (x := z); unfold z; clear z; rotate_left; intro h; clear_value z; apply Same.let22 (x := z) h; clear h z; intro z h)
    | (extract_lets +onlyGivenNames z; change _ × State at z; apply Same.cut2 h0 (x := z); unfold z; clear z; rotate_left; intro h; clear_value z; apply Same.let2 (x := z) h; clear h z; intro z h)
    | (extract_lets +onlyGivenNames z; clear_value z; apply Same.letAny z; clear z; intro z)
    | apply SameT.ite
    | apply Same.ite
    | apply Same2.ite
    | apply pkeRun_frame
    | apply pkeVio_frame
    | apply pkeEnd_frame
    | apply draw_frame
    | apply finc_frame
    | apply kstDerive_frame
    | apply pkeFault_frame
    | (apply Same2.out; apply draw_frame)
    | split
    | dsimp -zeta only
    | apply Same2.mk')

theorem custOverrun_frame {m : Nat} {s0 : State} : ∀ s x1 x2 x3, 146275954 &&& m = 146275954 → Same m s0 s → Same m s0 (custOverrun s x1 x2 x3) := by
  intro s x1 x2 x3 hM h
  refine Same.run hM h fun h0 => ?_
  unfold custOverrun
  repeat' (with_reducible first
    | assumption
    | intro _
    | exact Same.bits rfl
    | (extract_lets +onlyGivenNames z; change State at z; apply Same.cutS h0 (x := z); unfold z; clear z; rotate_left; intro h; clear_value z; apply Same.letS h; clear h z; intro z h)
    | (extract_lets +onlyGivenNames z; change _ × _ × State at z; apply Same.cut22 h0 (x := z); unfold z; clear z; rotate_left; intro h; clear_value z; apply Same.let22 (x := z) h; clear h z; intro z h)
    | (extract_lets +onlyGivenNames z; change _ × State at z; apply Same.cut2 h0 (x := z); unfold z; clear z; rotate_left; intro h; clear_value z; apply Same.let2 (x := z) h; clear h z; intro z h)
    | (extract_lets +onlyGivenNames z; clear_value z; apply Same.letAny z; clear z; intro z)
    | apply Same.ite
    | apply reach_frame
    | apply chsVio_frame
    | split
    | dsimp -zeta only)

theorem execCustomerRoutineOverrun_frame {m : Nat} {s0 : State} : ∀ x0 x1 x2 s, 146275954 &&& m = 146275954 → Same m s0 s → SameT m s0 (execCustomerRoutineOverrun x0 x1 x2 s) := by
  intro x0 x1 x2 s hM h
  refine SameT.run hM h fun h0 => ?_
  unfold execCustomerRoutineOverrun
  repeat' (with_reducible first
    | assumption
    | exact Same.bits rfl
    | apply SameT.next
    | apply custOverrun_frame)

theorem execDeleteIoCq_frame {m : Nat} {s0 : State} : ∀ x0 s, 2050 &&& m = 2050 → Same m s0 s → SameT m s0 (execDeleteIoCq x0 s) := by
  intro x0 s hM h
  refine SameT.run hM h fun h0 => ?_
  unfold execDeleteIoCq
  repeat' (with_reducible first
    | assumption
    | intro _
    | exact Same.bits rfl
    | apply SameT.next
    | (extract_lets +onlyGivenNames z; change _ × State at z; apply Same.cut2 h0 (x := z); unfold z; clear z; rotate_left; intro h; clear_value z; apply Same.let2 (x := z) h; clear h z; intro z h)
    | apply adminRun_frame
    | apply deleteCq_frame)

theorem scrubNext_frame {m : Nat} {s0 : State} : ∀ s x1 x2, 2 &&& m = 2 → Same m s0 s → Same m s0 (scrubNext s x1 x2) := by
  intro s x1 x2 hM h
  refine Same.run hM h fun h0 => ?_
  unfold scrubNext
  repeat' (with_reducible first
    | assumption
    | exact Same.bits rfl
    | (extract_lets +onlyGivenNames z; clear_value z; apply Same.letAny z; clear z; intro z)
    | apply Same.ite
    | apply finc_frame
    | apply pset_frame)

theorem dramScrub_frame {m : Nat} {s0 : State} : ∀ s x1, 75492994 &&& m = 75492994 → Same m s0 s → Same m s0 (dramScrub s x1) := by
  intro s x1 hM h
  refine Same.run hM h fun h0 => ?_
  unfold dramScrub
  repeat' (with_reducible first
    | assumption
    | exact Same.bits rfl
    | (extract_lets +onlyGivenNames z; change State at z; apply Same.cutS h0 (x := z); unfold z; clear z; rotate_left; intro h; clear_value z; apply Same.letS h; clear h z; intro z h)
    | (extract_lets +onlyGivenNames z; change _ × _ × State at z; apply Same.cut22 h0 (x := z); unfold z; clear z; rotate_left; intro h; clear_value z; apply Same.let22 (x := z) h; clear h z; intro z h)
    | (extract_lets +onlyGivenNames z; change _ × State at z; apply Same.cut2 h0 (x := z); unfold z; clear z; rotate_left; intro h; clear_value z; apply Same.let2 (x := z) h; clear h z; intro z h)
    | (extract_lets +onlyGivenNames z; clear_value z; apply Same.letAny z; clear z; intro z)
    | apply Same.ite
    | apply Same2.ite
    | apply scrubNext_frame
    | apply dramLook_frame
    | (apply Same2.out; apply dramLook_frame)
    | split
    | dsimp -zeta only
    | apply Same2.mk')

theorem execDramScrubRead_frame {m : Nat} {s0 : State} : ∀ x0 s, 75492994 &&& m = 75492994 → Same m s0 s → SameT m s0 (execDramScrubRead x0 s) := by
  intro x0 s hM h
  refine SameT.run hM h fun h0 => ?_
  unfold execDramScrubRead
  repeat' (with_reducible first
    | assumption
    | exact Same.bits rfl
    | apply SameT.next
    | apply dramScrub_frame)

theorem bufRequest_frame {m : Nat} {s0 : State} : ∀ s x1 x2 x3 x4 x5 x6, 2360322 &&& m = 2360322 → Same m s0 s → Same m s0 (bufRequest s x1 x2 x3 x4 x5 x6) := by
  intro s x1 x2 x3 x4 x5 x6 hM h
  refine Same.run hM h fun h0 => ?_
  unfold bufRequest
  repeat' (with_reducible first
    | assumption
    | exact Same.bits rfl
    | (extract_lets +onlyGivenNames z; change State at z; apply Same.cutS h0 (x := z); unfold z; clear z; rotate_left; intro h; clear_value z; apply Same.letS h; clear h z; intro z h)
    | (extract_lets +onlyGivenNames z; clear_value z; apply Same.letAny z; clear z; intro z)
    | apply Same.ite
    | apply fwShow_frame
    | apply bufAlloc_frame
    | apply foff_frame
    | (refine Same.updBpm ?_ rfl; assumption))

theorem bufFreeOk_frame {m : Nat} {s0 : State} : ∀ s x1, 262146 &&& m = 262146 → Same m s0 s → Same m s0 (bufFreeOk s x1) := by
  intro s x1 hM h
  refine Same.run hM h fun h0 => ?_
  unfold bufFreeOk
  repeat' (with_reducible first
    | assumption
    | exact Same.bits rfl
    | apply bpUpdate_frame
    | apply finc_frame
    | apply bufMap_frame)

theorem bufFree'_frame {m : Nat} {s0 : State} : ∀ s x1 x2, 146275922 &&& m = 146275922 → Same m s0 s → Same m s0 (bufFree' s x1 x2) := by
  intro s x1 x2 hM h
  refine Same.run hM h fun h0 => ?_
  unfold bufFree'
  repeat' (with_reducible first
    | assumption
    | exact Same.bits rfl
    | (extract_lets +onlyGivenNames z; change State at z; apply Same.cutS h0 (x := z); unfold z; clear z; rotate_left; intro h; clear_value z; apply Same.letS h; clear h z; intro z h)
    | (extract_lets +onlyGivenNames z; clear_value z; apply Same.letAny z; clear z; intro z)
    | apply Same.ite
    | apply bufFreeOk_frame
    | apply bufFault_frame
    | (refine Same.updBpm ?_ rfl; assumption))

theorem wrBpmFw_frame {m : Nat} {s0 : State} : ∀ s x1 x2 x3, 146275922 &&& m = 146275922 → Same m s0 s → Same m s0 (wrBpmFw s x1 x2 x3) := by
  intro s x1 x2 x3 hM h
  refine Same.run hM h fun h0 => ?_
  unfold wrBpmFw
  repeat' (with_reducible first
    | assumption
    | exact Same.bits rfl
    | (extract_lets +onlyGivenNames z; clear_value z; apply Same.letAny z; clear z; intro z)
    | apply Same.ite
    | apply bufRequest_frame
    | apply fwShow_frame
    | apply bufFree'_frame
    | apply bufHandover_frame
    | apply genWrite_frame)

theorem collect_frame {m : Nat} {s0 : State} : ∀ s, 137620546 &&& m = 137620546 → Same m s0 s → Same m s0 (collect s) := by
  intro s hM h
  refine Same.run hM h fun h0 => ?_
  unfold collect
  repeat' (with_reducible first
    | assumption
    | exact Same.bits rfl
    | (extract_lets +onlyGivenNames z; change State at z; apply Same.cutS h0 (x := z); unfold z; clear z; rotate_left; intro h; clear_value z; apply Same.letS h; clear h z; intro z h)
    | (extract_lets +onlyGivenNames z; clear_value z; apply Same.letAny z; clear z; intro z)
    | apply chsPut_frame
    | apply seqResetEnd_frame
    | apply dscResult_frame
    | (refine Same.updFlash ?_ rfl; assumption)
    | split)

theorem execCollectorTake_frame {m : Nat} {s0 : State} : ∀ s, 137620546 &&& m = 137620546 → Same m s0 s → SameT m s0 (execCollectorTake s) := by
  intro s hM h
  refine SameT.run hM h fun h0 => ?_
  unfold execCollectorTake
  repeat' (with_reducible first
    | assumption
    | exact Same.bits rfl
    | apply SameT.next
    | apply collect_frame)

theorem unlatch_frame {m : Nat} {s0 : State} : ∀ s x1 x2, 4 &&& m = 4 → Same m s0 s → Same m s0 (unlatch s x1 x2) := by
  intro s x1 x2 hM h
  refine Same.run hM h fun h0 => ?_
  unfold unlatch
  repeat' (with_reducible first
    | assumption
    | apply Same.ite
    | (refine Same.updLatch ?_ rfl; assumption))

theorem execMailboxUnknownOpcode_frame {m : Nat} {s0 : State} : ∀ x0 x1 s, 2100866 &&& m = 2100866 → Same m s0 s → SameT m s0 (execMailboxUnknownOpcode x0 x1 s) := by
  intro x0 x1 s hM h
  refine SameT.run hM h fun h0 => ?_
  unfold execMailboxUnknownOpcode
  repeat' (with_reducible first
    | assumption
    | intro _
    | exact Same.bits rfl
    | apply SameT.next
    | apply Same.ite
    | apply mbxRun_frame
    | apply OpKeeps.opDef
    | apply Same2.mk')

theorem writeProgress_frame {m : Nat} {s0 : State} : ∀ s, 536870912 &&& m = 536870912 → Same m s0 s → Same2 m s0 (writeProgress s) := by
  intro s hM h
  refine Same2.run hM h fun h0 => ?_
  unfold writeProgress
  repeat' (with_reducible first
    | assumption
    | exact Same.bits rfl
    | apply Same2.ite
    | apply openTaken_frame
    | apply Same2.mk')

theorem regatherKind_frame {m : Nat} {s0 : State} : ∀ s x1 x2 x3, 136315906 &&& m = 136315906 → Same m s0 s → Same m s0 (regatherKind s x1 x2 x3) := by
  intro s x1 x2 x3 hM h
  refine Same.run hM h fun h0 => ?_
  unfold regatherKind
  repeat' (with_reducible first
    | assumption
    | intro _
    | exact Same.bits rfl
    | (extract_lets +onlyGivenNames z; change State at z; apply Same.cutS h0 (x := z); unfold z; clear z; rotate_left; intro h; clear_value z; apply Same.letS h; clear h z; intro z h)
    | (extract_lets +onlyGivenNames z; clear_value z; apply Same.letAny z; clear z; intro z)
    | apply Same.ite
    | apply fset_frame
    | apply post_frame
    | apply fon_frame
    | (refine Same.updAge ?_ rfl; assumption)
    | apply Same.foldl)

theorem borrow_frame {m : Nat} {s0 : State} : ∀ s x1, 2 &&& m = 2 → Same m s0 s → Same m s0 (borrow s x1) := by
  intro s x1 hM h
  refine Same.run hM h fun h0 => ?_
  unfold borrow
  repeat' (with_reducible first
    | assumption
    | exact Same.bits rfl
    | (extract_lets +onlyGivenNames z; clear_value z; apply Same.letAny z; clear z; intro z)
    | apply Same.ite
    | apply fon_frame)

theorem execDeviceSelfTestAbort_frame {m : Nat} {s0 : State} : ∀ x0 s, 2132994 &&& m = 2132994 → Same m s0 s → SameT m s0 (execDeviceSelfTestAbort x0 s) := by
  intro x0 s hM h
  refine SameT.run hM h fun h0 => ?_
  unfold execDeviceSelfTestAbort
  repeat' (with_reducible first
    | assumption
    | intro _
    | exact Same.bits rfl
    | apply SameT.next
    | apply Same.ite
    | apply adminRun_frame
    | apply psRefresh_frame
    | apply dstAbort_frame)

theorem takenSettle_frame {m : Nat} {s0 : State} : ∀ s, 262144 &&& m = 262144 → Same m s0 s → Same m s0 (takenSettle s) := by
  intro s hM h
  refine Same.run hM h fun h0 => ?_
  unfold takenSettle
  repeat' (with_reducible first
    | assumption
    | exact Same.bits rfl
    | (refine Same.updBpm ?_ rfl; assumption)
    | dsimp -zeta only)

theorem ctxIdle_frame {m : Nat} {s0 : State} : ∀ s x1 x2, 393216 &&& m = 393216 → Same m s0 s → Same m s0 (ctxIdle s x1 x2) := by
  intro s x1 x2 hM h
  refine Same.run hM h fun h0 => ?_
  unfold ctxIdle
  repeat' (with_reducible first
    | assumption
    | exact Same.bits rfl
    | (extract_lets +onlyGivenNames z; change State at z; apply Same.cutS h0 (x := z); unfold z; clear z; rotate_left; intro h; clear_value z; apply Same.letS h; clear h z; intro z h)
    | (extract_lets +onlyGivenNames z; change _ × _ × State at z; apply Same.cut22 h0 (x := z); unfold z; clear z; rotate_left; intro h; clear_value z; apply Same.let22 (x := z) h; clear h z; intro z h)
    | (extract_lets +onlyGivenNames z; change _ × State at z; apply Same.cut2 h0 (x := z); unfold z; clear z; rotate_left; intro h; clear_value z; apply Same.let2 (x := z) h; clear h z; intro z h)
    | (extract_lets +onlyGivenNames z; clear_value z; apply Same.letAny z; clear z; intro z)
    | apply Same.ite
    | apply takenSettle_frame
    | apply chsPut_frame
    | split
    | dsimp -zeta only)

theorem finish_frame {m : Nat} {s0 : State} : ∀ s x1 x2 x3, 393218 &&& m = 393218 → Same m s0 s → Same m s0 (finish s x1 x2 x3) := by
  intro s x1 x2 x3 hM h
  refine Same.run hM h fun h0 => ?_
  unfold finish
  repeat' (with_reducible first
    | assumption
    | exact Same.bits rfl
    | (extract_lets +onlyGivenNames z; change State at z; apply Same.cutS h0 (x := z); unfold z; clear z; rotate_left; intro h; clear_value z; apply Same.letS h; clear h z; intro z h)
    | (extract_lets +onlyGivenNames z; change _ × _ × State at z; apply Same.cut22 h0 (x := z); unfold z; clear z; rotate_left; intro h; clear_value z; apply Same.let22 (x := z) h; clear h z; intro z h)
    | (extract_lets +onlyGivenNames z; change _ × State at z; apply Same.cut2 h0 (x := z); unfold z; clear z; rotate_left; intro h; clear_value z; apply Same.let2 (x := z) h; clear h z; intro z h)
    | (extract_lets +onlyGivenNames z; clear_value z; apply Same.letAny z; clear z; intro z)
    | apply complete_frame
    | apply ctxIdle_frame
    | dsimp -zeta only)

theorem execKeyImport_frame {m : Nat} {s0 : State} : ∀ x0 s, 6295170 &&& m = 6295170 → Same m s0 s → SameT m s0 (execKeyImport x0 s) := by
  intro x0 s hM h
  refine SameT.run hM h fun h0 => ?_
  unfold execKeyImport
  repeat' (with_reducible first
    | assumption
    | intro _
    | exact Same.bits rfl
    | apply SameT.next
    | apply mbxRun_frame
    | apply keyMake_frame
    | apply OpKeeps.opDef)

theorem askDrop_frame {m : Nat} {s0 : State} : ∀ s x1, 32768 &&& m = 32768 → Same m s0 s → Same m s0 (askDrop s x1) := by
  intro s x1 hM h
  refine Same.run hM h fun h0 => ?_
  unfold askDrop
  repeat' (with_reducible first
    | assumption
    | exact Same.bits rfl
    | (refine Same.updDsc ?_ rfl; assumption)
    | dsimp -zeta only)

theorem suspLost_frame {m : Nat} {s0 : State} : ∀ s x1 x2, 131074 &&& m = 131074 → Same m s0 s → Same m s0 (suspLost s x1 x2) := by
  intro s x1 x2 hM h
  refine Same.run hM h fun h0 => ?_
  unfold suspLost
  repeat' (with_reducible first
    | assumption
    | intro _
    | exact Same.bits rfl
    | (extract_lets +onlyGivenNames z; change State at z; apply Same.cutS h0 (x := z); unfold z; clear z; rotate_left; intro h; clear_value z; apply Same.letS h; clear h z; intro z h)
    | (extract_lets +onlyGivenNames z; change _ × _ × State at z; apply Same.cut22 h0 (x := z); unfold z; clear z; rotate_left; intro h; clear_value z; apply Same.let22 (x := z) h; clear h z; intro z h)
    | (extract_lets +onlyGivenNames z; change _ × State at z; apply Same.cut2 h0 (x := z); unfold z; clear z; rotate_left; intro h; clear_value z; apply Same.let2 (x := z) h; clear h z; intro z h)
    | (extract_lets +onlyGivenNames z; clear_value z; apply Same.letAny z; clear z; intro z)
    | apply chsPut_frame
    | apply complete_frame
    | apply Same.foldl
    | split
    | dsimp -zeta only)

theorem dieTimeout_frame {m : Nat} {s0 : State} : ∀ s x1 x2, 2524194 &&& m = 2524194 → Same m s0 s → Same m s0 (dieTimeout s x1 x2) := by
  intro s x1 x2 hM h
  refine Same.run hM h fun h0 => ?_
  unfold dieTimeout
  repeat' (with_reducible first
    | assumption
    | intro _
    | exact Same.bits rfl
    | (extract_lets +onlyGivenNames z; change State at z; apply Same.cutS h0 (x := z); unfold z; clear z; rotate_left; intro h; clear_value z; apply Same.letS h; clear h z; intro z h)
    | (extract_lets +onlyGivenNames z; change _ × _ × State at z; apply Same.cut22 h0 (x := z); unfold z; clear z; rotate_left; intro h; clear_value z; apply Same.let22 (x := z) h; clear h z; intro z h)
    | (extract_lets +onlyGivenNames z; change _ × State at z; apply Same.cut2 h0 (x := z); unfold z; clear z; rotate_left; intro h; clear_value z; apply Same.let2 (x := z) h; clear h z; intro z h)
    | (extract_lets +onlyGivenNames z; clear_value z; apply Same.letAny z; clear z; intro z)
    | apply Same.ite
    | apply reach_frame
    | apply fon_frame
    | apply finc_frame
    | apply post_frame
    | apply issued_frame
    | apply suspLost_frame
    | apply askDrop_frame
    | apply ctxIdle_frame
    | apply complete_frame
    | apply Same.foldl
    | split
    | dsimp -zeta only)

theorem notReady_frame {m : Nat} {s0 : State} : ∀ s x1 x2, 18434 &&& m = 18434 → Same m s0 s → Same m s0 (notReady s x1 x2) := by
  intro s x1 x2 hM h
  refine Same.run hM h fun h0 => ?_
  unfold notReady
  repeat' (with_reducible first
    | assumption
    | intro _
    | exact Same.bits rfl
    | (extract_lets +onlyGivenNames z; change State at z; apply Same.cutS h0 (x := z); unfold z; clear z; rotate_left; intro h; clear_value z; apply Same.letS h; clear h z; intro z h)
    | (extract_lets +onlyGivenNames z; change _ × _ × State at z; apply Same.cut22 h0 (x := z); unfold z; clear z; rotate_left; intro h; clear_value z; apply Same.let22 (x := z) h; clear h z; intro z h)
    | (extract_lets +onlyGivenNames z; change _ × State at z; apply Same.cut2 h0 (x := z); unfold z; clear z; rotate_left; intro h; clear_value z; apply Same.let2 (x := z) h; clear h z; intro z h)
    | (extract_lets +onlyGivenNames z; clear_value z; apply Same.letAny z; clear z; intro z)
    | apply Same.ite
    | apply ctxUpd_frame
    | apply finc_frame
    | (refine Same.updPlc ?_ rfl; assumption)
    | split
    | dsimp -zeta only)

theorem runDrop_frame {m : Nat} {s0 : State} : ∀ s x1 x2, 75778 &&& m = 75778 → Same m s0 s → Same m s0 (runDrop s x1 x2) := by
  intro s x1 x2 hM h
  refine Same.run hM h fun h0 => ?_
  unfold runDrop
  repeat' (with_reducible first
    | assumption
    | exact Same.bits rfl
    | (extract_lets +onlyGivenNames z; change State at z; apply Same.cutS h0 (x := z); unfold z; clear z; rotate_left; intro h; clear_value z; apply Same.letS h; clear h z; intro z h)
    | (extract_lets +onlyGivenNames z; change _ × _ × State at z; apply Same.cut22 h0 (x := z); unfold z; clear z; rotate_left; intro h; clear_value z; apply Same.let22 (x := z) h; clear h z; intro z h)
    | (extract_lets +onlyGivenNames z; change _ × State at z; apply Same.cut2 h0 (x := z); unfold z; clear z; rotate_left; intro h; clear_value z; apply Same.let2 (x := z) h; clear h z; intro z h)
    | (extract_lets +onlyGivenNames z; clear_value z; apply Same.letAny z; clear z; intro z)
    | apply locDrop_frame
    | apply zonePut_frame
    | split
    | dsimp -zeta only)

theorem countWrite_frame {m : Nat} {s0 : State} : ∀ s x1 x2, 4096 &&& m = 4096 → Same m s0 s → Same m s0 (countWrite s x1 x2) := by
  intro s x1 x2 hM h
  refine Same.run hM h fun h0 => ?_
  unfold countWrite
  repeat' (with_reducible first
    | (extract_lets +onlyGivenNames z; clear_value z; apply Same.letAny z; clear z; intro z)
    | (refine Same.updSlm ?_ rfl; assumption))

theorem writeDurable_frame {m : Nat} {s0 : State} : ∀ s x1 x2 x3 x4, 96258 &&& m = 96258 → Same m s0 s → Same m s0 (writeDurable s x1 x2 x3 x4) := by
  intro s x1 x2 x3 x4 hM h
  refine Same.run hM h fun h0 => ?_
  unfold writeDurable
  repeat' (with_reducible first
    | assumption
    | exact Same.bits rfl
    | (extract_lets +onlyGivenNames z; change State at z; apply Same.cutS h0 (x := z); unfold z; clear z; rotate_left; intro h; clear_value z; apply Same.letS h; clear h z; intro z h)
    | (extract_lets +onlyGivenNames z; change _ × _ × State at z; apply Same.cut22 h0 (x := z); unfold z; clear z; rotate_left; intro h; clear_value z; apply Same.let22 (x := z) h; clear h z; intro z h)
    | (extract_lets +onlyGivenNames z; change _ × State at z; apply Same.cut2 h0 (x := z); unfold z; clear z; rotate_left; intro h; clear_value z; apply Same.let2 (x := z) h; clear h z; intro z h)
    | (extract_lets +onlyGivenNames z; clear_value z; apply Same.letAny z; clear z; intro z)
    | apply Same.ite
    | apply countWrite_frame
    | apply rangeSettle_frame
    | apply ctxEnd_frame
    | split
    | dsimp -zeta only)

theorem dramWrote_frame {m : Nat} {s0 : State} : ∀ s x1 x2, 524290 &&& m = 524290 → Same m s0 s → Same m s0 (dramWrote s x1 x2) := by
  intro s x1 x2 hM h
  refine Same.run hM h fun h0 => ?_
  unfold dramWrote
  repeat' (with_reducible first
    | assumption
    | intro _
    | exact Same.bits rfl
    | apply wordsWritten_frame
    | dsimp -zeta only)

theorem nrmAsk_frame {m : Nat} {s0 : State} : ∀ s x1 x2, 524288 &&& m = 524288 → Same m s0 s → Same m s0 (nrmAsk s x1 x2) := by
  intro s x1 x2 hM h
  refine Same.run hM h fun h0 => ?_
  unfold nrmAsk
  repeat' (with_reducible first
    | assumption
    | exact Same.bits rfl
    | (refine Same.updDmc ?_ rfl; assumption)
    | dsimp -zeta only)

theorem convStage_frame {m : Nat} {s0 : State} : ∀ s x1 x2 x3 x4, 75778 &&& m = 75778 → Same m s0 s → Same m s0 (convStage s x1 x2 x3 x4) := by
  intro s x1 x2 x3 x4 hM h
  refine Same.run hM h fun h0 => ?_
  unfold convStage
  repeat' (with_reducible first
    | assumption
    | exact Same.bits rfl
    | (extract_lets +onlyGivenNames z; change State at z; apply Same.cutS h0 (x := z); unfold z; clear z; rotate_left; intro h; clear_value z; apply Same.letS h; clear h z; intro z h)
    | (extract_lets +onlyGivenNames z; change _ × _ × State at z; apply Same.cut22 h0 (x := z); unfold z; clear z; rotate_left; intro h; clear_value z; apply Same.let22 (x := z) h; clear h z; intro z h)
    | (extract_lets +onlyGivenNames z; change _ × State at z; apply Same.cut2 h0 (x := z); unfold z; clear z; rotate_left; intro h; clear_value z; apply Same.let2 (x := z) h; clear h z; intro z h)
    | (extract_lets +onlyGivenNames z; clear_value z; apply Same.letAny z; clear z; intro z)
    | apply Same.ite
    | apply slotDrop_frame
    | apply locDrop_frame
    | (refine Same.updZneMed ?_ rfl; assumption)
    | split
    | dsimp -zeta only)

theorem stagingCopy_frame {m : Nat} {s0 : State} : ∀ s x1 x2, 653314 &&& m = 653314 → Same m s0 s → Same m s0 (stagingCopy s x1 x2) := by
  intro s x1 x2 hM h
  refine Same.run hM h fun h0 => ?_
  unfold stagingCopy
  repeat' (with_reducible first
    | assumption
    | intro _
    | exact Same.bits rfl
    | (extract_lets +onlyGivenNames z; change State at z; apply Same.cutS h0 (x := z); unfold z; clear z; rotate_left; intro h; clear_value z; apply Same.letS h; clear h z; intro z h)
    | (extract_lets +onlyGivenNames z; change _ × _ × State at z; apply Same.cut22 h0 (x := z); unfold z; clear z; rotate_left; intro h; clear_value z; apply Same.let22 (x := z) h; clear h z; intro z h)
    | (extract_lets +onlyGivenNames z; change _ × State at z; apply Same.cut2 h0 (x := z); unfold z; clear z; rotate_left; intro h; clear_value z; apply Same.let2 (x := z) h; clear h z; intro z h)
    | (extract_lets +onlyGivenNames z; clear_value z; apply Same.letAny z; clear z; intro z)
    | apply Same.ite
    | apply tailWrite_frame
    | apply runDrop_frame
    | apply setMember_frame
    | apply nrmAsk_frame
    | apply dramWrote_frame
    | apply zonePut_frame
    | apply convStage_frame
    | apply ctxUpd_frame
    | apply urgency_frame
    | apply writeDurable_frame
    | (refine Same.updZne ?_ rfl; assumption)
    | split
    | dsimp -zeta only)

theorem execMctpGetVersionSupport_frame {m : Nat} {s0 : State} : ∀ s, 538971650 &&& m = 538971650 → Same m s0 s → SameT m s0 (execMctpGetVersionSupport s) := by
  intro s hM h
  refine SameT.run hM h fun h0 => ?_
  unfold execMctpGetVersionSupport
  repeat' (with_reducible first
    | assumption
    | exact Same.bits rfl
    | apply SameT.next
    | apply Same.ite
    | apply sbSay_frame
    | apply openTaken_frame)

theorem wrInjCtrl_frame {m : Nat} {s0 : State} : ∀ s x1, 2 &&& m = 2 → Same m s0 s → Same m s0 (wrInjCtrl s x1) := by
  intro s x1 hM h
  refine Same.run hM h fun h0 => ?_
  unfold wrInjCtrl
  repeat' (with_reducible first
    | assumption
    | exact Same.bits rfl
    | (extract_lets +onlyGivenNames z; change State at z; apply Same.cutS h0 (x := z); unfold z; clear z; rotate_left; intro h; clear_value z; apply Same.letS h; clear h z; intro z h)
    | apply Same.ite
    | apply genWrite_frame
    | apply fon_frame)

theorem execInjectorArm_frame {m : Nat} {s0 : State} : ∀ x0 x1 s, 2098194 &&& m = 2098194 → Same m s0 s → SameT m s0 (execInjectorArm x0 x1 s) := by
  intro x0 x1 s hM h
  refine SameT.run hM h fun h0 => ?_
  unfold execInjectorArm
  repeat' (with_reducible first
    | assumption
    | intro _
    | exact Same.bits rfl
    | apply SameT.next
    | apply gated_frame
    | apply wrInjCtrl_frame)

theorem keyWaitEnd_frame {m : Nat} {s0 : State} : ∀ s x1, 6295202 &&& m = 6295202 → Same m s0 s → Same m s0 (keyWaitEnd s x1) := by
  intro s x1 hM h
  refine Same.run hM h fun h0 => ?_
  unfold keyWaitEnd
  repeat' (with_reducible first
    | assumption
    | exact Same.bits rfl
    | (extract_lets +onlyGivenNames z; change State at z; apply Same.cutS h0 (x := z); unfold z; clear z; rotate_left; intro h; clear_value z; apply Same.letS h; clear h z; intro z h)
    | (extract_lets +onlyGivenNames z; change _ × State at z; apply Same.cut2 h0 (x := z); unfold z; clear z; rotate_left; intro h; clear_value z; apply Same.let2 (x := z) h; clear h z; intro z h)
    | (extract_lets +onlyGivenNames z; clear_value z; apply Same.letAny z; clear z; intro z)
    | apply Same.ite
    | apply Same2.ite
    | apply reach_frame
    | apply keyFill_frame
    | apply mbxAnswer_frame
    | (refine Same.updMbx ?_ rfl; assumption)
    | split
    | apply Same2.mk')

theorem execKeyWriteWaitTimeout_frame {m : Nat} {s0 : State} : ∀ x0 s, 6295202 &&& m = 6295202 → Same m s0 s → SameT m s0 (execKeyWriteWaitTimeout x0 s) := by
  intro x0 s hM h
  refine SameT.run hM h fun h0 => ?_
  unfold execKeyWriteWaitTimeout
  repeat' (with_reducible first
    | assumption
    | exact Same.bits rfl
    | apply SameT.next
    | apply keyWaitEnd_frame)

theorem execSetFeaturesNumberOfQueues_frame {m : Nat} {s0 : State} : ∀ x0 s, 536872960 &&& m = 536872960 → Same m s0 s → SameT m s0 (execSetFeaturesNumberOfQueues x0 s) := by
  intro x0 s hM h
  refine SameT.run hM h fun h0 => ?_
  unfold execSetFeaturesNumberOfQueues
  repeat' (with_reducible first
    | assumption
    | intro _
    | exact Same.bits rfl
    | apply SameT.next
    | (extract_lets +onlyGivenNames z; change State at z; apply Same.cutS h0 (x := z); unfold z; clear z; rotate_left; intro h; clear_value z; apply Same.letS h; clear h z; intro z h)
    | (extract_lets +onlyGivenNames z; change _ × _ × State at z; apply Same.cut22 h0 (x := z); unfold z; clear z; rotate_left; intro h; clear_value z; apply Same.let22 (x := z) h; clear h z; intro z h)
    | (extract_lets +onlyGivenNames z; change _ × State at z; apply Same.cut2 h0 (x := z); unfold z; clear z; rotate_left; intro h; clear_value z; apply Same.let2 (x := z) h; clear h z; intro z h)
    | (extract_lets +onlyGivenNames z; clear_value z; apply Same.letAny z; clear z; intro z)
    | apply featRun_frame
    | apply queuesDw_frame
    | (apply Same2.out; apply queuesDw_frame)
    | dsimp -zeta only
    | apply Same2.mk')

theorem execPanicAssert_frame {m : Nat} {s0 : State} : ∀ x0 s, 2 &&& m = 2 → Same m s0 s → SameT m s0 (execPanicAssert x0 s) := by
  intro x0 s hM h
  refine SameT.run hM h fun h0 => ?_
  unfold execPanicAssert
  repeat' (with_reducible first
    | assumption
    | exact Same.bits rfl
    | apply SameT.next
    | apply Same.ite
    | apply panicOn_frame)

theorem bindChannel_frame {m : Nat} {s0 : State} : ∀ x0 s, 90114 &&& m = 90114 → Same m s0 s → Same2 m s0 (bindChannel x0 s) := by
  intro x0 s hM h
  refine Same2.run hM h fun h0 => ?_
  unfold bindChannel
  repeat' (with_reducible first
    | assumption
    | exact Same.bits rfl
    | (extract_lets +onlyGivenNames z; clear_value z; apply Same.letAny z; clear z; intro z)
    | apply Same2.ite
    | apply journalDef_frame
    | apply fon_frame
    | apply fset_frame
    | apply foff_frame
    | split
    | apply Same2.mk')

theorem execSliceBindChannel_frame {m : Nat} {s0 : State} : ∀ x0 s, 2190978 &&& m = 2190978 → Same m s0 s → SameT m s0 (execSliceBindChannel x0 s) := by
  intro x0 s hM h
  refine SameT.run hM h fun h0 => ?_
  unfold execSliceBindChannel
  repeat' (with_reducible first
    | unfold bindChannelDef
    | assumption
    | intro _
    | exact Same.bits rfl
    | apply SameT.next
    | apply mbxRun_frame
    | apply bindChannel_frame
    | apply OpKeeps.opDef)

theorem dmaError_frame {m : Nat} {s0 : State} : ∀ s x1, 2050 &&& m = 2050 → Same m s0 s → Same m s0 (dmaError s x1) := by
  intro s x1 hM h
  refine Same.run hM h fun h0 => ?_
  unfold dmaError
  repeat' (with_reducible first
    | assumption
    | exact Same.bits rfl
    | (extract_lets +onlyGivenNames z; change State at z; apply Same.cutS h0 (x := z); unfold z; clear z; rotate_left; intro h; clear_value z; apply Same.letS h; clear h z; intro z h)
    | (extract_lets +onlyGivenNames z; clear_value z; apply Same.letAny z; clear z; intro z)
    | apply fon_frame
    | (refine Same.updHst ?_ rfl; assumption))

theorem execPoisonedCompletion_frame {m : Nat} {s0 : State} : ∀ x0 s, 2050 &&& m = 2050 → Same m s0 s → SameT m s0 (execPoisonedCompletion x0 s) := by
  intro x0 s hM h
  refine SameT.run hM h fun h0 => ?_
  unfold execPoisonedCompletion
  repeat' (with_reducible first
    | assumption
    | exact Same.bits rfl
    | apply SameT.next
    | apply Same.ite
    | apply dmaError_frame)

theorem cqUpd_frame {m : Nat} {s0 : State} : ∀ s x1 x2, 2048 &&& m = 2048 → Same m s0 s → Same m s0 (cqUpd s x1 x2) := by
  intro s x1 x2 hM h
  refine Same.run hM h fun h0 => ?_
  unfold cqUpd
  repeat' (with_reducible first
    | (extract_lets +onlyGivenNames z; clear_value z; apply Same.letAny z; clear z; intro z)
    | (refine Same.updHst ?_ rfl; assumption))

theorem ringHead_frame {m : Nat} {s0 : State} : ∀ s x1 x2, 2048 &&& m = 2048 → Same m s0 s → Same m s0 (ringHead s x1 x2) := by
  intro s x1 x2 hM h
  refine Same.run hM h fun h0 => ?_
  unfold ringHead
  repeat' (with_reducible first
    | assumption
    | exact Same.bits rfl
    | apply cqUpd_frame)

theorem ballRelease_frame {m : Nat} {s0 : State} : ∀ s, 796388718 &&& m = 796388718 → Same m s0 s → Same m s0 (ballRelease s) := by
  intro s hM h
  refine Same.run hM h fun h0 => ?_
  unfold ballRelease
  repeat' (with_reducible first
    | assumption
    | exact Same.bits rfl
    | (extract_lets +onlyGivenNames z; change State at z; apply Same.cutS h0 (x := z); unfold z; clear z; rotate_left; intro h; clear_value z; apply Same.letS h; clear h z; intro z h)
    | (extract_lets +onlyGivenNames z; clear_value z; apply Same.letAny z; clear z; intro z)
    | apply Same.ite
    | apply boot_frame
    | (refine Same.updBot ?_ rfl; assumption)
    | split)

theorem execColdResetBallRelease_frame {m : Nat} {s0 : State} : ∀ s, 796388718 &&& m = 796388718 → Same m s0 s → SameT m s0 (execColdResetBallRelease s) := by
  intro s hM h
  refine SameT.run hM h fun h0 => ?_
  unfold execColdResetBallRelease
  repeat' (with_reducible first
    | assumption
    | exact Same.bits rfl
    | apply SameT.next
    | apply ballRelease_frame)

theorem wrSeqTable_frame {m : Nat} {s0 : State} : ∀ s x1 x2 x3 x4, 131072 &&& m = 131072 → Same m s0 s → Same m s0 (wrSeqTable s x1 x2 x3 x4) := by
  intro s x1 x2 x3 x4 hM h
  refine Same.run hM h fun h0 => ?_
  unfold wrSeqTable
  repeat' (with_reducible first
    | assumption
    | intro _
    | exact Same.bits rfl
    | (extract_lets +onlyGivenNames z; change State at z; apply Same.cutS h0 (x := z); unfold z; clear z; rotate_left; intro h; clear_value z; apply Same.letS h; clear h z; intro z h)
    | (extract_lets +onlyGivenNames z; change _ × _ × State at z; apply Same.cut22 h0 (x := z); unfold z; clear z; rotate_left; intro h; clear_value z; apply Same.let22 (x := z) h; clear h z; intro z h)
    | (extract_lets +onlyGivenNames z; change _ × State at z; apply Same.cut2 h0 (x := z); unfold z; clear z; rotate_left; intro h; clear_value z; apply Same.let2 (x := z) h; clear h z; intro z h)
    | (extract_lets +onlyGivenNames z; change _ → _ at z; apply Same.cutF z; subst z)
    | (extract_lets +onlyGivenNames z; clear_value z; apply Same.letAny z; clear z; intro z)
    | apply Same.ite
    | apply chsPut_frame
    | split
    | dsimp -zeta only)

theorem bellVio_frame {m : Nat} {s0 : State} : ∀ s x1 x2 x3, 146275922 &&& m = 146275922 → Same m s0 s → Same m s0 (bellVio s x1 x2 x3) := by
  intro s x1 x2 x3 hM h
  refine Same.run hM h fun h0 => ?_
  unfold bellVio
  repeat' (with_reducible first
    | assumption
    | exact Same.bits rfl
    | apply raiseVio_frame)

theorem cqBell_frame {m : Nat} {s0 : State} : ∀ s x1 x2 x3 x4 x5, 146275922 &&& m = 146275922 → Same m s0 s → Same m s0 (cqBell s x1 x2 x3 x4 x5) := by
  intro s x1 x2 x3 x4 x5 hM h
  refine Same.run hM h fun h0 => ?_
  unfold cqBell
  repeat' (with_reducible first
    | assumption
    | exact Same.bits rfl
    | (extract_lets +onlyGivenNames z; clear_value z; apply Same.letAny z; clear z; intro z)
    | apply Same.ite
    | apply rung_frame
    | apply bellVio_frame
    | apply ringHead_frame
    | split)

theorem execCqHeadDoorbell_frame {m : Nat} {s0 : State} : ∀ x0 x1 x2 x3 x4 s, 146275922 &&& m = 146275922 → Same m s0 s → SameT m s0 (execCqHeadDoorbell x0 x1 x2 x3 x4 s) := by
  intro x0 x1 x2 x3 x4 s hM h
  refine SameT.run hM h fun h0 => ?_
  unfold execCqHeadDoorbell
  repeat' (with_reducible first
    | assumption
    | exact Same.bits rfl
    | apply SameT.next
    | apply cqBell_frame)

theorem foldsShow_frame {m : Nat} {s0 : State} : ∀ s, 2 &&& m = 2 → Same m s0 s → Same m s0 (foldsShow s) := by
  intro s hM h
  refine Same.run hM h fun h0 => ?_
  unfold foldsShow
  repeat' (with_reducible first
    | assumption
    | exact Same.bits rfl
    | apply fset_frame)

theorem selWrite_frame {m : Nat} {s0 : State} : ∀ s x1 x2 x3, 8 &&& m = 8 → Same m s0 s → Same m s0 (selWrite s x1 x2 x3) := by
  intro s x1 x2 x3 hM h
  refine Same.run hM h fun h0 => ?_
  unfold selWrite
  repeat' (with_reducible first
    | assumption
    | (refine Same.updSel ?_ rfl; assumption)
    | split)

theorem wrHptCtrl_frame {m : Nat} {s0 : State} : ∀ s x1, 2050 &&& m = 2050 → Same m s0 s → Same m s0 (wrHptCtrl s x1) := by
  intro s x1 hM h
  refine Same.run hM h fun h0 => ?_
  unfold wrHptCtrl
  repeat' (with_reducible first
    | assumption
    | exact Same.bits rfl
    | (extract_lets +onlyGivenNames z; change _ → _ at z; apply Same.cutF z; subst z)
    | (extract_lets +onlyGivenNames z; change State at z; apply Same.cutS h0 (x := z); unfold z; clear z; rotate_left; intro h; clear_value z; apply Same.letS h; clear h z; intro z h)
    | (extract_lets +onlyGivenNames z; clear_value z; apply Same.letAny z; clear z; intro z)
    | apply genWrite_frame
    | (refine Same.updHst ?_ rfl; assumption))

theorem wrCtxReserve_frame {m : Nat} {s0 : State} : ∀ s x1 x2, 2 &&& m = 2 → Same m s0 s → Same m s0 (wrCtxReserve s x1 x2) := by
  intro s x1 x2 hM h
  refine Same.run hM h fun h0 => ?_
  unfold wrCtxReserve
  repeat' (with_reducible first
    | assumption
    | exact Same.bits rfl
    | (extract_lets +onlyGivenNames z; subst z)
    | apply Same.ite
    | apply genWrite_frame)

theorem wrCmpRegion_frame {m : Nat} {s0 : State} : ∀ s x1, 2 &&& m = 2 → Same m s0 s → Same m s0 (wrCmpRegion s x1) := by
  intro s x1 hM h
  refine Same.run hM h fun h0 => ?_
  unfold wrCmpRegion
  repeat' (with_reducible first
    | assumption
    | exact Same.bits rfl
    | (extract_lets +onlyGivenNames z; change State at z; apply Same.cutS h0 (x := z); unfold z; clear z; rotate_left; intro h; clear_value z; apply Same.letS h; clear h z; intro z h)
    | apply Same.ite
    | apply genWrite_frame)

theorem wrGrpHold_frame {m : Nat} {s0 : State} : ∀ s x1 x2, 90114 &&& m = 90114 → Same m s0 s → Same m s0 (wrGrpHold s x1 x2) := by
  intro s x1 x2 hM h
  refine Same.run hM h fun h0 => ?_
  unfold wrGrpHold
  repeat' (with_reducible first
    | assumption
    | exact Same.bits rfl
    | apply genWrite_frame
    | apply journal_frame)

theorem engineReset_frame {m : Nat} {s0 : State} : ∀ s t en typ count, 64 &&& m = 64 → Same m s0 t → Same m s0 (engineReset s t en typ count) := by
  intro s t en typ count hM h
  unfold engineReset
  split
  · exact Same.foldl (fun _ h _ => cardReset_frame _ _ (Same.sub (by decide) hM) h) _ _ h
  · exact h

theorem minClear_frame {m : Nat} {s0 : State} : ∀ s, 2 &&& m = 2 → Same m s0 s → Same m s0 (minClear s) := by
  intro s hM h
  refine Same.run hM h fun h0 => ?_
  unfold minClear
  repeat' (with_reducible first
    | assumption
    | intro _
    | exact Same.bits rfl
    | apply fset_frame
    | apply Same.foldl)

theorem wrBpmBp_frame {m : Nat} {s0 : State} : ∀ s x1, 262146 &&& m = 262146 → Same m s0 s → Same m s0 (wrBpmBp s x1) := by
  intro s x1 hM h
  refine Same.run hM h fun h0 => ?_
  unfold wrBpmBp
  repeat' (with_reducible first
    | assumption
    | exact Same.bits rfl
    | (extract_lets +onlyGivenNames z; change State at z; apply Same.cutS h0 (x := z); unfold z; clear z; rotate_left; intro h; clear_value z; apply Same.letS h; clear h z; intro z h)
    | apply Same.ite
    | apply genWrite_frame
    | apply bpUpdate_frame)

theorem wrBpmPool_frame {m : Nat} {s0 : State} : ∀ s x1 x2, 262146 &&& m = 262146 → Same m s0 s → Same m s0 (wrBpmPool s x1 x2) := by
  intro s x1 x2 hM h
  refine Same.run hM h fun h0 => ?_
  unfold wrBpmPool
  repeat' (with_reducible first
    | assumption
    | intro _
    | exact Same.bits rfl
    | (extract_lets +onlyGivenNames z; change _ → _ at z; apply Same.cutF z; subst z)
    | (extract_lets +onlyGivenNames z; change State at z; apply Same.cutS h0 (x := z); unfold z; clear z; rotate_left; intro h; clear_value z; apply Same.letS h; clear h z; intro z h)
    | (extract_lets +onlyGivenNames z; change State × _ at z; apply Same.cut1 h0 (x := z); unfold z; clear z; rotate_left; intro h; clear_value z; apply Same.let1 (x := z) h; clear h z; intro z h)
    | apply Same.ite
    | apply genWrite_frame
    | apply fset_frame
    | apply bpUpdate_frame
    | apply Same1.foldl
    | apply Same1.mk')

theorem quotaWrite_frame {m : Nat} {s0 : State} : ∀ s x1 x2 x3 x4, 262146 &&& m = 262146 → Same m s0 s → Same m s0 (quotaWrite s x1 x2 x3 x4) := by
  intro s x1 x2 x3 x4 hM h
  refine Same.run hM h fun h0 => ?_
  unfold quotaWrite
  repeat' (with_reducible first
    | assumption
    | exact Same.bits rfl
    | (extract_lets +onlyGivenNames z; change _ → _ at z; apply Same.cutF z; subst z)
    | (extract_lets +onlyGivenNames z; change State at z; apply Same.cutS h0 (x := z); unfold z; clear z; rotate_left; intro h; clear_value z; apply Same.letS h; clear h z; intro z h)
    | (extract_lets +onlyGivenNames z; clear_value z; apply Same.letAny z; clear z; intro z)
    | apply Same.ite
    | apply bpUpdate_frame
    | apply fset_frame
    | (refine Same.updBpm ?_ rfl; assumption))

theorem wrBpm_frame {m : Nat} {s0 : State} : ∀ s x1 x2 x3, 146275922 &&& m = 146275922 → Same m s0 s → Same m s0 (wrBpm s x1 x2 x3) := by
  intro s x1 x2 x3 hM h
  refine Same.run hM h fun h0 => ?_
  unfold wrBpm
  repeat' (with_reducible first
    | assumption
    | exact Same.bits rfl
    | (extract_lets +onlyGivenNames z; change State at z; apply Same.cutS h0 (x := z); unfold z; clear z; rotate_left; intro h; clear_value z; apply Same.letS h; clear h z; intro z h)
    | apply Same.ite
    | apply genWrite_frame
    | apply minClear_frame
    | apply wrBpmBp_frame
    | apply wrBpmPool_frame
    | apply quotaWrite_frame
    | apply wrBpmFw_frame
    | split)

theorem wrDmcCtrl_frame {m : Nat} {s0 : State} : ∀ s x1, 2 &&& m = 2 → Same m s0 s → Same m s0 (wrDmcCtrl s x1) := by
  intro s x1 hM h
  refine Same.run hM h fun h0 => ?_
  unfold wrDmcCtrl
  repeat' (with_reducible first
    | assumption
    | exact Same.bits rfl
    | (extract_lets +onlyGivenNames z; change State at z; apply Same.cutS h0 (x := z); unfold z; clear z; rotate_left; intro h; clear_value z; apply Same.letS h; clear h z; intro z h)
    | (extract_lets +onlyGivenNames z; change _ × _ × State at z; apply Same.cut22 h0 (x := z); unfold z; clear z; rotate_left; intro h; clear_value z; apply Same.let22 (x := z) h; clear h z; intro z h)
    | (extract_lets +onlyGivenNames z; change _ × State at z; apply Same.cut2 h0 (x := z); unfold z; clear z; rotate_left; intro h; clear_value z; apply Same.let2 (x := z) h; clear h z; intro z h)
    | (extract_lets +onlyGivenNames z; clear_value z; apply Same.letAny z; clear z; intro z)
    | apply Same.ite
    | apply genWrite_frame
    | apply fset_frame
    | split
    | dsimp -zeta only)

theorem wrDmcConfig_frame {m : Nat} {s0 : State} : ∀ s x1, 2 &&& m = 2 → Same m s0 s → Same m s0 (wrDmcConfig s x1) := by
  intro s x1 hM h
  refine Same.run hM h fun h0 => ?_
  unfold wrDmcConfig
  repeat' (with_reducible first
    | assumption
    | exact Same.bits rfl
    | (extract_lets +onlyGivenNames z; change State at z; apply Same.cutS h0 (x := z); unfold z; clear z; rotate_left; intro h; clear_value z; apply Same.letS h; clear h z; intro z h)
    | (extract_lets +onlyGivenNames z; change _ × _ × State at z; apply Same.cut22 h0 (x := z); unfold z; clear z; rotate_left; intro h; clear_value z; apply Same.let22 (x := z) h; clear h z; intro z h)
    | (extract_lets +onlyGivenNames z; change _ × State at z; apply Same.cut2 h0 (x := z); unfold z; clear z; rotate_left; intro h; clear_value z; apply Same.let2 (x := z) h; clear h z; intro z h)
    | (extract_lets +onlyGivenNames z; clear_value z; apply Same.letAny z; clear z; intro z)
    | apply Same.ite
    | apply genWrite_frame
    | apply fset_frame
    | split
    | dsimp -zeta only)

theorem wrSpeedReq_frame {m : Nat} {s0 : State} : ∀ s x1, 524290 &&& m = 524290 → Same m s0 s → Same m s0 (wrSpeedReq s x1) := by
  intro s x1 hM h
  refine Same.run hM h fun h0 => ?_
  unfold wrSpeedReq
  repeat' (with_reducible first
    | assumption
    | exact Same.bits rfl
    | (extract_lets +onlyGivenNames z; change State at z; apply Same.cutS h0 (x := z); unfold z; clear z; rotate_left; intro h; clear_value z; apply Same.letS h; clear h z; intro z h)
    | apply Same.ite
    | apply genWrite_frame
    | apply speedReq_frame)

theorem wrGatherCtrl_frame {m : Nat} {s0 : State} : ∀ s x1, 524290 &&& m = 524290 → Same m s0 s → Same m s0 (wrGatherCtrl s x1) := by
  intro s x1 hM h
  refine Same.run hM h fun h0 => ?_
  unfold wrGatherCtrl
  repeat' (with_reducible first
    | assumption
    | exact Same.bits rfl
    | (extract_lets +onlyGivenNames z; change State at z; apply Same.cutS h0 (x := z); unfold z; clear z; rotate_left; intro h; clear_value z; apply Same.letS h; clear h z; intro z h)
    | apply Same.ite
    | apply genWrite_frame
    | apply gatherClose_frame
    | apply gatherGo_frame)

theorem wrDmcRate_frame {m : Nat} {s0 : State} : ∀ s x1 x2, 2 &&& m = 2 → Same m s0 s → Same m s0 (wrDmcRate s x1 x2) := by
  intro s x1 x2 hM h
  refine Same.run hM h fun h0 => ?_
  unfold wrDmcRate
  repeat' (with_reducible first
    | assumption
    | exact Same.bits rfl
    | (extract_lets +onlyGivenNames z; change State at z; apply Same.cutS h0 (x := z); unfold z; clear z; rotate_left; intro h; clear_value z; apply Same.letS h; clear h z; intro z h)
    | (extract_lets +onlyGivenNames z; change _ × _ × State at z; apply Same.cut22 h0 (x := z); unfold z; clear z; rotate_left; intro h; clear_value z; apply Same.let22 (x := z) h; clear h z; intro z h)
    | (extract_lets +onlyGivenNames z; change _ × State at z; apply Same.cut2 h0 (x := z); unfold z; clear z; rotate_left; intro h; clear_value z; apply Same.let2 (x := z) h; clear h z; intro z h)
    | (extract_lets +onlyGivenNames z; clear_value z; apply Same.letAny z; clear z; intro z)
    | apply Same.ite
    | apply genWrite_frame
    | split
    | dsimp -zeta only)

theorem wrDmc_frame {m : Nat} {s0 : State} : ∀ s x1 x2, 524290 &&& m = 524290 → Same m s0 s → Same m s0 (wrDmc s x1 x2) := by
  intro s x1 x2 hM h
  refine Same.run hM h fun h0 => ?_
  unfold wrDmc
  repeat' (with_reducible first
    | assumption
    | exact Same.bits rfl
    | apply Same.ite
    | apply wrDmcCtrl_frame
    | apply wrDmcConfig_frame
    | apply wrSpeedReq_frame
    | apply wrGatherCtrl_frame
    | apply wrDmcRate_frame
    | apply genWrite_frame)

theorem wrUmpBudget_frame {m : Nat} {s0 : State} : ∀ s x1, 67108866 &&& m = 67108866 → Same m s0 s → Same m s0 (wrUmpBudget s x1) := by
  intro s x1 hM h
  refine Same.run hM h fun h0 => ?_
  unfold wrUmpBudget
  repeat' (with_reducible first
    | assumption
    | exact Same.bits rfl
    | (apply Same2.out; apply umpSetBudget_frame))

theorem wrUmpPp_frame {m : Nat} {s0 : State} : ∀ s x1, 67108866 &&& m = 67108866 → Same m s0 s → Same m s0 (wrUmpPp s x1) := by
  intro s x1 hM h
  refine Same.run hM h fun h0 => ?_
  unfold wrUmpPp
  repeat' (with_reducible first
    | assumption
    | exact Same.bits rfl
    | (extract_lets +onlyGivenNames z; change State at z; apply Same.cutS h0 (x := z); unfold z; clear z; rotate_left; intro h; clear_value z; apply Same.letS h; clear h z; intro z h)
    | (extract_lets +onlyGivenNames z; clear_value z; apply Same.letAny z; clear z; intro z)
    | apply Same.ite
    | apply fset_frame
    | (apply Same2.out; apply umpSetPpLimit_frame))

theorem wrSgdVth_frame {m : Nat} {s0 : State} : ∀ s x1 x2, 2 &&& m = 2 → Same m s0 s → Same m s0 (wrSgdVth s x1 x2) := by
  intro s x1 x2 hM h
  refine Same.run hM h fun h0 => ?_
  unfold wrSgdVth
  repeat' (with_reducible first
    | assumption
    | exact Same.bits rfl
    | (extract_lets +onlyGivenNames z; change State at z; apply Same.cutS h0 (x := z); unfold z; clear z; rotate_left; intro h; clear_value z; apply Same.letS h; clear h z; intro z h)
    | apply Same.ite
    | apply genWrite_frame)

theorem wrSgd_frame {m : Nat} {s0 : State} : ∀ s x1 x2, 2129922 &&& m = 2129922 → Same m s0 s → Same m s0 (wrSgd s x1 x2) := by
  intro s x1 x2 hM h
  refine Same.run hM h fun h0 => ?_
  unfold wrSgd
  repeat' (with_reducible first
    | assumption
    | exact Same.bits rfl
    | apply Same.ite
    | apply wrDirtyMin_frame
    | apply wrTestCtrl_frame
    | apply wrSgdVth_frame
    | apply limitSet_frame
    | apply genWrite_frame)

theorem dgePost_frame {m : Nat} {s0 : State} : ∀ s x1, 683146834 &&& m = 683146834 → Same m s0 s → Same m s0 (dgePost s x1) := by
  intro s x1 hM h
  refine Same.run hM h fun h0 => ?_
  unfold dgePost
  repeat' (with_reducible first
    | assumption
    | exact Same.bits rfl
    | (extract_lets +onlyGivenNames z; change State at z; apply Same.cutS h0 (x := z); unfold z; clear z; rotate_left; intro h; clear_value z; apply Same.letS h; clear h z; intro z h)
    | (extract_lets +onlyGivenNames z; change _ × _ × State at z; apply Same.cut22 h0 (x := z); unfold z; clear z; rotate_left; intro h; clear_value z; apply Same.let22 (x := z) h; clear h z; intro z h)
    | (extract_lets +onlyGivenNames z; change _ × State at z; apply Same.cut2 h0 (x := z); unfold z; clear z; rotate_left; intro h; clear_value z; apply Same.let2 (x := z) h; clear h z; intro z h)
    | (extract_lets +onlyGivenNames z; clear_value z; apply Same.letAny z; clear z; intro z)
    | apply Same.ite
    | apply fon_frame
    | apply dgeFill_frame
    | (refine Same.updDge ?_ rfl; assumption)
    | split
    | dsimp -zeta only)

theorem wrDge_frame {m : Nat} {s0 : State} : ∀ s x1 x2 x3, 683146834 &&& m = 683146834 → Same m s0 s → Same m s0 (wrDge s x1 x2 x3) := by
  intro s x1 x2 x3 hM h
  refine Same.run hM h fun h0 => ?_
  unfold wrDge
  repeat' (with_reducible first
    | assumption
    | exact Same.bits rfl
    | apply Same.ite
    | apply wrLatch_frame
    | apply wrSnoopCtrl_frame
    | apply dgeFill_frame
    | apply engineReset_frame
    | apply genWrite_frame
    | apply dgePost_frame
    | split)

theorem pkePost_frame {m : Nat} {s0 : State} : ∀ s x1, 683146834 &&& m = 683146834 → Same m s0 s → Same m s0 (pkePost s x1) := by
  intro s x1 hM h
  refine Same.run hM h fun h0 => ?_
  unfold pkePost
  repeat' (with_reducible first
    | assumption
    | exact Same.bits rfl
    | apply Same.ite
    | apply openTaken_frame
    | apply fset_frame
    | apply raiseVio_frame
    | apply pkeShow_frame
    | apply fon_frame
    | (refine Same.updDge ?_ rfl; assumption)
    | (refine Same.updDge ?_ rfl; apply fon_frame)
    | split
    | dsimp -zeta only)

theorem wrPke_frame {m : Nat} {s0 : State} : ∀ s x1 x2, 683146834 &&& m = 683146834 → Same m s0 s → Same m s0 (wrPke s x1 x2) := by
  intro s x1 x2 hM h
  refine Same.run hM h fun h0 => ?_
  unfold wrPke
  repeat' (with_reducible first
    | assumption
    | exact Same.bits rfl
    | apply Same.ite
    | apply engineReset_frame
    | apply genWrite_frame
    | apply pkePost_frame
    | split)

theorem crStop_frame {m : Nat} {s0 : State} : ∀ s, 33554434 &&& m = 33554434 → Same m s0 s → Same m s0 (crStop s) := by
  intro s hM h
  refine Same.run hM h fun h0 => ?_
  unfold crStop
  repeat' (with_reducible first
    | assumption
    | exact Same.bits rfl
    | apply crEnd_frame
    | split)

theorem crGo_frame {m : Nat} {s0 : State} : ∀ s x1, 33554434 &&& m = 33554434 → Same m s0 s → Same m s0 (crGo s x1) := by
  intro s x1 hM h
  refine Same.run hM h fun h0 => ?_
  unfold crGo
  repeat' (with_reducible first
    | assumption
    | exact Same.bits rfl
    | (extract_lets +onlyGivenNames z; change State at z; apply Same.cutS h0 (x := z); unfold z; clear z; rotate_left; intro h; clear_value z; apply Same.letS h; clear h z; intro z h)
    | (extract_lets +onlyGivenNames z; clear_value z; apply Same.letAny z; clear z; intro z)
    | apply Same.ite
    | apply fset_frame
    | apply crEnd_frame
    | apply fon_frame
    | (refine Same.updCls ?_ rfl; assumption))

theorem wrCrCtrl_frame {m : Nat} {s0 : State} : ∀ s x1 x2, 33554434 &&& m = 33554434 → Same m s0 s → Same m s0 (wrCrCtrl s x1 x2) := by
  intro s x1 x2 hM h
  refine Same.run hM h fun h0 => ?_
  unfold wrCrCtrl
  repeat' (with_reducible first
    | assumption
    | exact Same.bits rfl
    | (extract_lets +onlyGivenNames z; change State at z; apply Same.cutS h0 (x := z); unfold z; clear z; rotate_left; intro h; clear_value z; apply Same.letS h; clear h z; intro z h)
    | apply Same.ite
    | apply crStop_frame
    | apply crGo_frame)

theorem wrCls_frame {m : Nat} {s0 : State} : ∀ s x1 x2 x3, 33554442 &&& m = 33554442 → Same m s0 s → Same m s0 (wrCls s x1 x2 x3) := by
  intro s x1 x2 x3 hM h
  refine Same.run hM h fun h0 => ?_
  unfold wrCls
  repeat' (with_reducible first
    | assumption
    | exact Same.bits rfl
    | apply Same.ite
    | apply clsPost_frame
    | apply selWrite_frame
    | apply clsRelease_frame
    | apply wrCrCtrl_frame
    | apply genWrite_frame)

theorem fallBack_frame {m : Nat} {s0 : State} : ∀ s, 103976450 &&& m = 103976450 → Same m s0 s → Same m s0 (fallBack s) := by
  intro s hM h
  refine Same.run hM h fun h0 => ?_
  unfold fallBack
  repeat' (with_reducible first
    | assumption
    | exact Same.bits rfl
    | apply resetFlush_frame
    | apply fon_frame
    | apply fbiton_frame)

theorem wrBotCtrl_frame {m : Nat} {s0 : State} : ∀ s x1, 103976450 &&& m = 103976450 → Same m s0 s → Same m s0 (wrBotCtrl s x1) := by
  intro s x1 hM h
  refine Same.run hM h fun h0 => ?_
  unfold wrBotCtrl
  repeat' (with_reducible first
    | assumption
    | exact Same.bits rfl
    | (extract_lets +onlyGivenNames z; change State at z; apply Same.cutS h0 (x := z); unfold z; clear z; rotate_left; intro h; clear_value z; apply Same.letS h; clear h z; intro z h)
    | (extract_lets +onlyGivenNames z; change _ × _ × State at z; apply Same.cut22 h0 (x := z); unfold z; clear z; rotate_left; intro h; clear_value z; apply Same.let22 (x := z) h; clear h z; intro z h)
    | (extract_lets +onlyGivenNames z; change _ × State at z; apply Same.cut2 h0 (x := z); unfold z; clear z; rotate_left; intro h; clear_value z; apply Same.let2 (x := z) h; clear h z; intro z h)
    | (extract_lets +onlyGivenNames z; clear_value z; apply Same.letAny z; clear z; intro z)
    | apply Same.ite
    | apply genWrite_frame
    | apply fallBack_frame
    | apply fon_frame
    | apply resetFlush_frame
    | split
    | dsimp -zeta only)

theorem wrFuseAdv_frame {m : Nat} {s0 : State} : ∀ s x1, 67108866 &&& m = 67108866 → Same m s0 s → Same m s0 (wrFuseAdv s x1) := by
  intro s x1 hM h
  refine Same.run hM h fun h0 => ?_
  unfold wrFuseAdv
  repeat' (with_reducible first
    | assumption
    | exact Same.bits rfl
    | (extract_lets +onlyGivenNames z; clear_value z; apply Same.letAny z; clear z; intro z)
    | apply Same.ite
    | apply keysRevoke_frame
    | apply ctrRaise_frame
    | apply foff_frame)

theorem wrBot_frame {m : Nat} {s0 : State} : ∀ s x1 x2, 103976450 &&& m = 103976450 → Same m s0 s → Same m s0 (wrBot s x1 x2) := by
  intro s x1 x2 hM h
  refine Same.run hM h fun h0 => ?_
  unfold wrBot
  repeat' (with_reducible first
    | assumption
    | exact Same.bits rfl
    | apply Same.ite
    | apply wrBotCtrl_frame
    | apply wrFuseAdv_frame
    | apply wrUcodeCtrl_frame
    | apply genWrite_frame)

theorem wrMbxBind_frame {m : Nat} {s0 : State} : ∀ s x1 x2, 90114 &&& m = 90114 → Same m s0 s → Same m s0 (wrMbxBind s x1 x2) := by
  intro s x1 x2 hM h
  refine Same.run hM h fun h0 => ?_
  unfold wrMbxBind
  repeat' (with_reducible first
    | assumption
    | exact Same.bits rfl
    | (extract_lets +onlyGivenNames z; clear_value z; apply Same.letAny z; clear z; intro z)
    | (apply Same2.out; apply bindChannel_frame))

theorem wrFcxFault_frame {m : Nat} {s0 : State} : ∀ s x1, 66 &&& m = 66 → Same m s0 s → Same m s0 (wrFcxFault s x1) := by
  intro s x1 hM h
  refine Same.run hM h fun h0 => ?_
  unfold wrFcxFault
  repeat' (with_reducible first
    | assumption
    | intro _
    | exact Same.bits rfl
    | (extract_lets +onlyGivenNames z; change State at z; apply Same.cutS h0 (x := z); unfold z; clear z; rotate_left; intro h; clear_value z; apply Same.letS h; clear h z; intro z h)
    | apply Same.ite
    | apply genWrite_frame
    | apply cardReset_frame
    | apply Same.foldl)

theorem reissue_frame {m : Nat} {s0 : State} : ∀ s x1, 1081346 &&& m = 1081346 → Same m s0 s → Same m s0 (reissue s x1) := by
  intro s x1 hM h
  refine Same.run hM h fun h0 => ?_
  unfold reissue
  repeat' (with_reducible first
    | assumption
    | intro _
    | exact Same.bits rfl
    | (extract_lets +onlyGivenNames z; change State at z; apply Same.cutS h0 (x := z); unfold z; clear z; rotate_left; intro h; clear_value z; apply Same.letS h; clear h z; intro z h)
    | (extract_lets +onlyGivenNames z; change _ × _ × State at z; apply Same.cut22 h0 (x := z); unfold z; clear z; rotate_left; intro h; clear_value z; apply Same.let22 (x := z) h; clear h z; intro z h)
    | (extract_lets +onlyGivenNames z; change _ × State at z; apply Same.cut2 h0 (x := z); unfold z; clear z; rotate_left; intro h; clear_value z; apply Same.let2 (x := z) h; clear h z; intro z h)
    | (extract_lets +onlyGivenNames z; clear_value z; apply Same.letAny z; clear z; intro z)
    | apply Same.ite
    | apply callReturn_frame
    | apply requeue_frame
    | (refine Same.updDsc ?_ rfl; assumption)
    | apply Same.foldl
    | split
    | dsimp -zeta only)

theorem seqReset_frame {m : Nat} {s0 : State} : ∀ s x1, 1212482 &&& m = 1212482 → Same m s0 s → Same m s0 (seqReset s x1) := by
  intro s x1 hM h
  refine Same.run hM h fun h0 => ?_
  unfold seqReset
  repeat' (with_reducible first
    | assumption
    | exact Same.bits rfl
    | (extract_lets +onlyGivenNames z; change State at z; apply Same.cutS h0 (x := z); unfold z; clear z; rotate_left; intro h; clear_value z; apply Same.letS h; clear h z; intro z h)
    | (extract_lets +onlyGivenNames z; change _ × _ × State at z; apply Same.cut22 h0 (x := z); unfold z; clear z; rotate_left; intro h; clear_value z; apply Same.let22 (x := z) h; clear h z; intro z h)
    | (extract_lets +onlyGivenNames z; change _ × State at z; apply Same.cut2 h0 (x := z); unfold z; clear z; rotate_left; intro h; clear_value z; apply Same.let2 (x := z) h; clear h z; intro z h)
    | (extract_lets +onlyGivenNames z; clear_value z; apply Same.letAny z; clear z; intro z)
    | apply Same.ite
    | apply fset_frame
    | apply fon_frame
    | apply chsPut_frame
    | apply seqResetEnd_frame
    | apply postPending_frame
    | apply reissue_frame
    | split
    | dsimp -zeta only)

theorem wrPostGo_frame {m : Nat} {s0 : State} : ∀ s x1 x2, 131074 &&& m = 131074 → Same m s0 s → Same m s0 (wrPostGo s x1 x2) := by
  intro s x1 x2 hM h
  refine Same.run hM h fun h0 => ?_
  unfold wrPostGo
  repeat' (with_reducible first
    | assumption
    | exact Same.bits rfl
    | (extract_lets +onlyGivenNames z; change State at z; apply Same.cutS h0 (x := z); unfold z; clear z; rotate_left; intro h; clear_value z; apply Same.letS h; clear h z; intro z h)
    | apply Same.ite
    | apply fset_frame
    | apply postPending_frame
    | apply fon_frame)

theorem wrChs_frame {m : Nat} {s0 : State} : ∀ s x1 x2 x3 x4, 1212482 &&& m = 1212482 → Same m s0 s → Same m s0 (wrChs s x1 x2 x3 x4) := by
  intro s x1 x2 x3 x4 hM h
  refine Same.run hM h fun h0 => ?_
  unfold wrChs
  repeat' (with_reducible first
    | assumption
    | exact Same.bits rfl
    | (extract_lets +onlyGivenNames z; change State at z; apply Same.cutS h0 (x := z); unfold z; clear z; rotate_left; intro h; clear_value z; apply Same.letS h; clear h z; intro z h)
    | (extract_lets +onlyGivenNames z; change _ × _ × State at z; apply Same.cut22 h0 (x := z); unfold z; clear z; rotate_left; intro h; clear_value z; apply Same.let22 (x := z) h; clear h z; intro z h)
    | (extract_lets +onlyGivenNames z; change _ × State at z; apply Same.cut2 h0 (x := z); unfold z; clear z; rotate_left; intro h; clear_value z; apply Same.let2 (x := z) h; clear h z; intro z h)
    | (extract_lets +onlyGivenNames z; clear_value z; apply Same.letAny z; clear z; intro z)
    | apply Same.ite
    | apply genWrite_frame
    | apply seqReset_frame
    | apply fset_frame
    | apply wrSeqTable_frame
    | apply wrPostGo_frame
    | split
    | dsimp -zeta only)

theorem corrHold_frame {m : Nat} {s0 : State} : ∀ s x1, 2 &&& m = 2 → Same m s0 s → Same m s0 (corrHold s x1) := by
  intro s x1 hM h
  refine Same.run hM h fun h0 => ?_
  unfold corrHold
  repeat' (with_reducible first
    | assumption
    | exact Same.bits rfl
    | apply fset_frame
    | split
    | dsimp -zeta only)

theorem appendRefuse_frame {m : Nat} {s0 : State} : ∀ s x1, 2 &&& m = 2 → Same m s0 s → Same m s0 (appendRefuse s x1) := by
  intro s x1 hM h
  refine Same.run hM h fun h0 => ?_
  unfold appendRefuse
  repeat' (with_reducible first
    | assumption
    | exact Same.bits rfl
    | apply fset_frame
    | apply foff_frame)

theorem sgnAppend_frame {m : Nat} {s0 : State} : ∀ s x1 x2 x3 x4 x5 x6, 23069698 &&& m = 23069698 → Same m s0 s → Same m s0 (sgnAppend s x1 x2 x3 x4 x5 x6) := by
  intro s x1 x2 x3 x4 x5 x6 hM h
  refine Same.run hM h fun h0 => ?_
  unfold sgnAppend
  repeat' (with_reducible first
    | assumption
    | intro _
    | exact Same.bits rfl
    | (extract_lets +onlyGivenNames z; change State at z; apply Same.cutS h0 (x := z); unfold z; clear z; rotate_left; intro h; clear_value z; apply Same.letS h; clear h z; intro z h)
    | (extract_lets +onlyGivenNames z; change _ × _ × State at z; apply Same.cut22 h0 (x := z); unfold z; clear z; rotate_left; intro h; clear_value z; apply Same.let22 (x := z) h; clear h z; intro z h)
    | (extract_lets +onlyGivenNames z; change _ × State at z; apply Same.cut2 h0 (x := z); unfold z; clear z; rotate_left; intro h; clear_value z; apply Same.let2 (x := z) h; clear h z; intro z h)
    | (extract_lets +onlyGivenNames z; change _ → _ at z; apply Same.cutF z; subst z)
    | (extract_lets +onlyGivenNames z; clear_value z; apply Same.letAny z; clear z; intro z)
    | apply Same.ite
    | apply SameO.ite
    | apply fset_frame
    | apply fon_frame
    | apply commitApp_frame
    | apply appendRefuse_frame
    | apply post_frame
    | apply finc_frame
    | apply pendAdd_frame
    | apply appendAt_frame
    | apply Same.foldl
    | (apply Same.ofSome; assumption)
    | split
    | dsimp -zeta only)

theorem sgnAppendSlab_frame {m : Nat} {s0 : State} : ∀ s x1, 167247442 &&& m = 167247442 → Same m s0 s → Same m s0 (sgnAppendSlab s x1) := by
  intro s x1 hM h
  refine Same.run hM h fun h0 => ?_
  unfold sgnAppendSlab
  repeat' (with_reducible first
    | assumption
    | intro _
    | exact Same.bits rfl
    | (extract_lets +onlyGivenNames z; change State at z; apply Same.cutS h0 (x := z); unfold z; clear z; rotate_left; intro h; clear_value z; apply Same.letS h; clear h z; intro z h)
    | (extract_lets +onlyGivenNames z; change _ × _ × State at z; apply Same.cut22 h0 (x := z); unfold z; clear z; rotate_left; intro h; clear_value z; apply Same.let22 (x := z) h; clear h z; intro z h)
    | (extract_lets +onlyGivenNames z; change _ × State at z; apply Same.cut2 h0 (x := z); unfold z; clear z; rotate_left; intro h; clear_value z; apply Same.let2 (x := z) h; clear h z; intro z h)
    | (extract_lets +onlyGivenNames z; change _ → _ at z; apply Same.cutF z; subst z)
    | (extract_lets +onlyGivenNames z; clear_value z; apply Same.letAny z; clear z; intro z)
    | apply Same.ite
    | apply appendRefuse_frame
    | apply raiseVio_frame
    | apply sgnAppend_frame
    | split
    | dsimp -zeta only)

theorem wrSgnAppend_frame {m : Nat} {s0 : State} : ∀ s x1 x2, 167247442 &&& m = 167247442 → Same m s0 s → Same m s0 (wrSgnAppend s x1 x2) := by
  intro s x1 x2 hM h
  refine Same.run hM h fun h0 => ?_
  unfold wrSgnAppend
  repeat' (with_reducible first
    | assumption
    | exact Same.bits rfl
    | apply Same.ite
    | apply sgnAppendSlab_frame
    | apply genWrite_frame
    | split
    | dsimp -zeta only)

theorem writeAt_frame {m : Nat} {s0 : State} : ∀ s x1 x2 x3, 805305946 &&& m = 805305946 → Same m s0 s → Same m s0 (writeAt s x1 x2 x3) := by
  intro s x1 x2 x3 hM h
  refine Same.run hM h fun h0 => ?_
  unfold writeAt
  repeat' (with_reducible first
    | assumption
    | exact Same.bits rfl
    | (extract_lets +onlyGivenNames z; change State at z; apply Same.cutS h0 (x := z); unfold z; clear z; rotate_left; intro h; clear_value z; apply Same.letS h; clear h z; intro z h)
    | (extract_lets +onlyGivenNames z; change _ × _ × State at z; apply Same.cut22 h0 (x := z); unfold z; clear z; rotate_left; intro h; clear_value z; apply Same.let22 (x := z) h; clear h z; intro z h)
    | (extract_lets +onlyGivenNames z; change _ × State at z; apply Same.cut2 h0 (x := z); unfold z; clear z; rotate_left; intro h; clear_value z; apply Same.let2 (x := z) h; clear h z; intro z h)
    | (extract_lets +onlyGivenNames z; clear_value z; apply Same.letAny z; clear z; intro z)
    | apply Same.ite
    | apply selWrite_frame
    | apply wrHptCtrl_frame
    | apply genWrite_frame
    | apply wrCtxReserve_frame
    | apply wrSlm_frame
    | apply wrCmpRegion_frame
    | apply wrGrpHold_frame
    | apply wrLatSel_frame
    | apply corrHold_frame
    | apply engineReset_frame
    | apply wrBpm_frame
    | apply wrDmc_frame
    | apply wrInjCtrl_frame
    | apply wrUmpBudget_frame
    | apply wrUmpPp_frame
    | apply wrSgd_frame
    | apply wrDge_frame
    | apply wrPke_frame
    | apply wrSgnAppend_frame
    | apply wrCls_frame
    | apply wrBot_frame
    | apply wrPostGoLkt_frame
    | apply wrAcm_frame
    | apply wrMbxBind_frame
    | apply wrFcxFault_frame
    | apply wrChs_frame
    | split
    | dsimp -zeta only)

theorem wordsPut_frame {m : Nat} {s0 : State} : ∀ s x1 x2, 524290 &&& m = 524290 → Same m s0 s → Same m s0 (wordsPut s x1 x2) := by
  intro s x1 x2 hM h
  refine Same.run hM h fun h0 => ?_
  unfold wordsPut
  repeat' (with_reducible first
    | assumption
    | exact Same.bits rfl
    | apply Same.ite
    | apply dramWrote_frame
    | apply sramWrote_frame
    | split
    | dsimp -zeta only)

theorem memWrite_frame {m : Nat} {s0 : State} : ∀ s x1 x2 x3 x4, 218103506 &&& m = 218103506 → Same m s0 s → Same2 m s0 (memWrite s x1 x2 x3 x4) := by
  intro s x1 x2 x3 x4 hM h
  refine Same2.run hM h fun h0 => ?_
  unfold memWrite
  repeat' (with_reducible first
    | assumption
    | exact Same.bits rfl
    | (extract_lets +onlyGivenNames z; change State at z; apply Same.cutS h0 (x := z); unfold z; clear z; rotate_left; intro h; clear_value z; apply Same.letS h; clear h z; intro z h)
    | (extract_lets +onlyGivenNames z; change _ × _ × State at z; apply Same.cut22 h0 (x := z); unfold z; clear z; rotate_left; intro h; clear_value z; apply Same.let22 (x := z) h; clear h z; intro z h)
    | (extract_lets +onlyGivenNames z; change _ × State at z; apply Same.cut2 h0 (x := z); unfold z; clear z; rotate_left; intro h; clear_value z; apply Same.let2 (x := z) h; clear h z; intro z h)
    | (extract_lets +onlyGivenNames z; clear_value z; apply Same.letAny z; clear z; intro z)
    | apply Same.ite
    | apply Same2.ite
    | apply raiseVio_frame
    | apply wordsLook_frame
    | apply memPut_frame
    | apply wordsPut_frame
    | (apply Same2.out; apply wordsLook_frame)
    | split
    | dsimp -zeta only
    | apply Same2.mk')

theorem writeBy_frame {m : Nat} {s0 : State} : ∀ s x1 x2 x3 x4 x5, 805306078 &&& m = 805306078 → Same m s0 s → Same2 m s0 (writeBy s x1 x2 x3 x4 x5) := by
  intro s x1 x2 x3 x4 x5 hM h
  refine Same2.run hM h fun h0 => ?_
  unfold writeBy
  repeat' (with_reducible first
    | assumption
    | exact Same.bits rfl
    | apply memWrite_frame
    | apply unlatch_frame
    | apply writeAt_frame
    | apply fabError_frame
    | (apply Same.ofPair2; assumption)
    | (apply Same2.out; apply memWrite_frame)
    | split
    | dsimp -zeta only
    | apply Same2.mk')

theorem execSvcBypass_frame {m : Nat} {s0 : State} : ∀ x0 s, 256 &&& m = 256 → Same m s0 s → SameT m s0 (execSvcBypass x0 s) := by
  intro x0 s hM h
  refine SameT.run hM h fun h0 => ?_
  unfold execSvcBypass
  repeat' (with_reducible first
    | assumption
    | exact Same.bits rfl
    | apply SameT.next
    | (extract_lets +onlyGivenNames z; clear_value z; apply Same.letAny z; clear z; intro z)
    | apply Same.ite
    | apply svcBypass_frame
    | (refine Same.updSvc ?_ rfl; assumption))

theorem flushStart_frame {m : Nat} {s0 : State} : ∀ s, 1024 &&& m = 1024 → Same m s0 s → Same m s0 (flushStart s) := by
  intro s hM h
  refine Same.run hM h fun h0 => ?_
  unfold flushStart
  repeat' (with_reducible first
    | (extract_lets +onlyGivenNames z; clear_value z; apply Same.letAny z; clear z; intro z)
    | (refine Same.updLkt ?_ rfl; assumption))

theorem flushTry_frame {m : Nat} {s0 : State} : ∀ s, 1058 &&& m = 1058 → Same m s0 s → Same m s0 (flushTry s) := by
  intro s hM h
  refine Same.run hM h fun h0 => ?_
  unfold flushTry
  repeat' (with_reducible first
    | assumption
    | exact Same.bits rfl
    | apply Same.ite
    | apply flushStart_frame
    | apply reach_frame
    | split
    | dsimp -zeta only)

theorem execLocketFlush_frame {m : Nat} {s0 : State} : ∀ s, 1058 &&& m = 1058 → Same m s0 s → SameT m s0 (execLocketFlush s) := by
  intro s hM h
  refine SameT.run hM h fun h0 => ?_
  unfold execLocketFlush
  repeat' (with_reducible first
    | assumption
    | exact Same.bits rfl
    | apply SameT.next
    | apply flushTry_frame)

theorem regWrites_frame {m : Nat} {s0 : State} : ∀ x0 x1 x2 s, 805306078 &&& m = 805306078 → Same m s0 s → Same2 m s0 (regWrites x0 x1 x2 s) := by
  have H : ∀ {s0 : State} x0 x1 x2 s, Same 805306078 s0 s → Same2 805306078 s0 (regWrites x0 x1 x2 s) := by
    intro s0 x0 x1 x2 s h0
    induction x2 generalizing x0 x1 s with
    | nil =>
      rw [regWrites]
      repeat' (with_reducible first
      | assumption
      | exact Same.bits rfl
      | apply ih
      | (apply Same2.out; apply writeBy_frame)
      | apply Same2.out
      | apply Same2.mk')
    | cons a l ih =>
      rw [regWrites]
      repeat' (with_reducible first
      | assumption
      | exact Same.bits rfl
      | apply ih
      | (apply Same2.out; apply writeBy_frame)
      | apply Same2.out
      | apply Same2.mk')
  intro x0 x1 x2 s hM h
  exact Same2.step hM (H x0 x1 x2 s (Same.refl _ _)) h

theorem execRegWrite_frame {m : Nat} {s0 : State} : ∀ x0 s, 805306078 &&& m = 805306078 → Same m s0 s → SameT m s0 (execRegWrite x0 s) := by
  intro x0 s hM h
  refine SameT.run hM h fun h0 => ?_
  unfold execRegWrite
  repeat' (with_reducible first
    | unfold regWriteDef
    | assumption
    | intro _
    | exact Same.bits rfl
    | apply SameT.next
    | apply mbxRun_frame
    | (apply Same2.out; apply regWrites_frame)
    | apply OpKeeps.of
    | apply Same2.mk')

theorem fwPiece_frame {m : Nat} {s0 : State} : ∀ s x1 x2 x3, 100663298 &&& m = 100663298 → Same m s0 s → Same2 m s0 (fwPiece s x1 x2 x3) := by
  intro s x1 x2 x3 hM h
  refine Same2.run hM h fun h0 => ?_
  unfold fwPiece
  repeat' (with_reducible first
    | assumption
    | exact Same.bits rfl
    | (extract_lets +onlyGivenNames z; clear_value z; apply Same.letAny z; clear z; intro z)
    | apply Same2.ite
    | apply dlPut_frame
    | apply slotPrepare_frame
    | (refine Same.updBot ?_ rfl; assumption)
    | apply Same2.mk')

theorem execFirmwareImageDownload_frame {m : Nat} {s0 : State} : ∀ x0 s, 100665346 &&& m = 100665346 → Same m s0 s → SameT m s0 (execFirmwareImageDownload x0 s) := by
  intro x0 s hM h
  refine SameT.run hM h fun h0 => ?_
  unfold execFirmwareImageDownload
  repeat' (with_reducible first
    | assumption
    | intro _
    | exact Same.bits rfl
    | apply SameT.next
    | (extract_lets +onlyGivenNames z; change _ × State at z; apply Same.cut2 h0 (x := z); unfold z; clear z; rotate_left; intro h; clear_value z; apply Same.let2 (x := z) h; clear h z; intro z h)
    | (extract_lets +onlyGivenNames z; clear_value z; apply Same.letAny z; clear z; intro z)
    | apply Same2.ite
    | apply adminRun_frame
    | apply fwPiece_frame
    | apply Same2.out
    | apply Same2.mk')

theorem execNvmeFlush_frame {m : Nat} {s0 : State} : ∀ x0 s, 146275922 &&& m = 146275922 → Same m s0 s → SameT m s0 (execNvmeFlush x0 s) := by
  intro x0 s hM h
  refine SameT.run hM h fun h0 => ?_
  unfold execNvmeFlush
  repeat' (with_reducible first
    | assumption
    | intro _
    | exact Same.bits rfl
    | apply SameT.next
    | apply ioRun_frame
    | apply ctxEnd_frame)

theorem execCrystalStop_frame {m : Nat} {s0 : State} : ∀ s, 34 &&& m = 34 → Same m s0 s → SameT m s0 (execCrystalStop s) := by
  intro s hM h
  refine SameT.run hM h fun h0 => ?_
  unfold execCrystalStop
  repeat' (with_reducible first
    | assumption
    | exact Same.bits rfl
    | apply SameT.next
    | (extract_lets +onlyGivenNames z; change Tmb at z; apply Same.cutT z; subst z)
    | apply fon_frame
    | apply foff_frame
    | (apply Same.upd; assumption)
    | (apply Or.inl; apply Eq.refl)
    | (apply Or.inr; constructor; decide; apply Nat.le_refl)
    | split)

theorem sliceAdd_frame {m : Nat} {s0 : State} : ∀ s x1 x2, 356354 &&& m = 356354 → Same m s0 s → Same m s0 (sliceAdd s x1 x2) := by
  intro s x1 x2 hM h
  refine Same.run hM h fun h0 => ?_
  unfold sliceAdd
  repeat' (with_reducible first
    | assumption
    | intro _
    | exact Same.bits rfl
    | (extract_lets +onlyGivenNames z; change State at z; apply Same.cutS h0 (x := z); unfold z; clear z; rotate_left; intro h; clear_value z; apply Same.letS h; clear h z; intro z h)
    | (extract_lets +onlyGivenNames z; clear_value z; apply Same.letAny z; clear z; intro z)
    | apply Same.ite
    | apply quotaPut_frame
    | apply grpSet_frame
    | apply xteDedShow_frame
    | apply xtePool_frame
    | apply slmShow_frame
    | apply journalDef_frame
    | apply bpUpdate_frame
    | (refine Same.updSlm ?_ rfl; assumption)
    | apply Same.foldl)

theorem sliceCreate_frame {m : Nat} {s0 : State} : ∀ x0 s, 356354 &&& m = 356354 → Same m s0 s → Same2 m s0 (sliceCreate x0 s) := by
  intro x0 s hM h
  refine Same2.run hM h fun h0 => ?_
  unfold sliceCreate
  repeat' (with_reducible first
    | assumption
    | intro _
    | exact Same.bits rfl
    | (extract_lets +onlyGivenNames z; change State at z; apply Same.cutS h0 (x := z); unfold z; clear z; rotate_left; intro h; clear_value z; apply Same.letS h; clear h z; intro z h)
    | (extract_lets +onlyGivenNames z; change _ × _ × State at z; apply Same.cut22 h0 (x := z); unfold z; clear z; rotate_left; intro h; clear_value z; apply Same.let22 (x := z) h; clear h z; intro z h)
    | (extract_lets +onlyGivenNames z; change _ × State at z; apply Same.cut2 h0 (x := z); unfold z; clear z; rotate_left; intro h; clear_value z; apply Same.let2 (x := z) h; clear h z; intro z h)
    | (extract_lets +onlyGivenNames z; clear_value z; apply Same.letAny z; clear z; intro z)
    | apply Same.ite
    | apply Same2.ite
    | apply sliceAdd_frame
    | apply fon_frame
    | split
    | dsimp -zeta only
    | apply Same2.mk')

theorem execSliceCreate_frame {m : Nat} {s0 : State} : ∀ x0 s, 2457218 &&& m = 2457218 → Same m s0 s → SameT m s0 (execSliceCreate x0 s) := by
  intro x0 s hM h
  refine SameT.run hM h fun h0 => ?_
  unfold execSliceCreate
  repeat' (with_reducible first
    | assumption
    | intro _
    | exact Same.bits rfl
    | apply SameT.next
    | apply mbxRun_frame
    | apply sliceCreate_frame
    | apply OpKeeps.opDef)

theorem execSetFeaturesArbitration_frame {m : Nat} {s0 : State} : ∀ x0 s, 2048 &&& m = 2048 → Same m s0 s → SameT m s0 (execSetFeaturesArbitration x0 s) := by
  intro x0 s hM h
  refine SameT.run hM h fun h0 => ?_
  unfold execSetFeaturesArbitration
  repeat' (with_reducible first
    | assumption
    | intro _
    | exact Same.bits rfl
    | apply SameT.next
    | apply featRun_frame
    | apply featUpd_frame
    | dsimp -zeta only)

theorem execAdminInvalidOpcode_frame {m : Nat} {s0 : State} : ∀ x0 s, 2048 &&& m = 2048 → Same m s0 s → SameT m s0 (execAdminInvalidOpcode x0 s) := by
  intro x0 s hM h
  refine SameT.run hM h fun h0 => ?_
  unfold execAdminInvalidOpcode
  repeat' (with_reducible first
    | assumption
    | intro _
    | exact Same.bits rfl
    | apply SameT.next
    | apply adminRun_frame)

theorem gatherStep_frame {m : Nat} {s0 : State} : ∀ s x1, 524290 &&& m = 524290 → Same m s0 s → Same m s0 (gatherStep s x1) := by
  intro s x1 hM h
  refine Same.run hM h fun h0 => ?_
  unfold gatherStep
  repeat' (with_reducible first
    | assumption
    | exact Same.bits rfl
    | (extract_lets +onlyGivenNames z; change State at z; apply Same.cutS h0 (x := z); unfold z; clear z; rotate_left; intro h; clear_value z; apply Same.letS h; clear h z; intro z h)
    | (extract_lets +onlyGivenNames z; clear_value z; apply Same.letAny z; clear z; intro z)
    | apply Same.ite
    | apply rset_frame
    | apply fset_frame
    | apply foff_frame
    | (refine Same.updDmc ?_ rfl; assumption)
    | split)

theorem inSession_frame {M : Nat} {s0 s : State} (hM : 2100354 &&& M = 2100354) (id : Nat) (f : State → Session → State)
    (hf : ∀ t x, Same M s0 t → Same M s0 (f t x)) (h : Same M s0 s) : Same M s0 (inSession s id f) := by
  unfold inSession
  split
  · split
    · exact spdmWake_frame _ _ (Same.sub (by decide) hM) (hf _ _ h)
    · exact spdmSay_frame _ _ (Same.sub (by decide) hM) h
  · exact spdmSay_frame _ _ (Same.sub (by decide) hM) h

theorem execSpdmKeyUpdate_frame {m : Nat} {s0 : State} : ∀ x0 s, 6294658 &&& m = 6294658 → Same m s0 s → SameT m s0 (execSpdmKeyUpdate x0 s) := by
  intro x0 s hM h
  refine SameT.run hM h fun h0 => ?_
  unfold execSpdmKeyUpdate
  repeat' (with_reducible first
    | assumption
    | intro _
    | exact Same.bits rfl
    | apply SameT.next
    | (extract_lets +onlyGivenNames z; change State at z; apply Same.cutS h0 (x := z); unfold z; clear z; rotate_left; intro h; clear_value z; apply Same.letS h; clear h z; intro z h)
    | (extract_lets +onlyGivenNames z; clear_value z; apply Same.letAny z; clear z; intro z)
    | apply inSession_frame
    | apply kstDerive_frame
    | apply spdmSay_frame
    | (refine Same.updSpdm ?_ rfl; assumption)
    | apply Same.foldl)

theorem recordCommit_frame {m : Nat} {s0 : State} : ∀ s, 134217728 &&& m = 134217728 → Same m s0 s → Same m s0 (recordCommit s) := by
  intro s hM h
  refine Same.run hM h fun h0 => ?_
  unfold recordCommit
  repeat' (with_reducible first
    | (extract_lets +onlyGivenNames z; clear_value z; apply Same.letAny z; clear z; intro z)
    | (refine Same.updAge ?_ rfl; assumption))

theorem planEnd_frame {m : Nat} {s0 : State} : ∀ s, 134217730 &&& m = 134217730 → Same m s0 s → Same m s0 (planEnd s) := by
  intro s hM h
  refine Same.run hM h fun h0 => ?_
  unfold planEnd
  repeat' (with_reducible first
    | assumption
    | exact Same.bits rfl
    | (extract_lets +onlyGivenNames z; change State at z; apply Same.cutS h0 (x := z); unfold z; clear z; rotate_left; intro h; clear_value z; apply Same.letS h; clear h z; intro z h)
    | (extract_lets +onlyGivenNames z; clear_value z; apply Same.letAny z; clear z; intro z)
    | apply recordCommit_frame
    | apply foff_frame
    | apply fset_frame
    | apply spareRefresh_frame
    | apply pset_frame
    | (refine Same.updAge ?_ rfl; assumption))

theorem planRet_frame {m : Nat} {s0 : State} : ∀ s, 137481218 &&& m = 137481218 → Same m s0 s → Same m s0 (planRet s) := by
  intro s hM h
  refine Same.run hM h fun h0 => ?_
  unfold planRet
  repeat' (with_reducible first
    | assumption
    | intro _
    | exact Same.bits rfl
    | (extract_lets +onlyGivenNames z; change State at z; apply Same.cutS h0 (x := z); unfold z; clear z; rotate_left; intro h; clear_value z; apply Same.letS h; clear h z; intro z h)
    | (extract_lets +onlyGivenNames z; clear_value z; apply Same.letAny z; clear z; intro z)
    | apply planRetDie_frame
    | (apply Same2.out; apply refreshQueue_frame)
    | apply Same.foldl)

theorem planRetry_frame {m : Nat} {s0 : State} : ∀ s, 136315906 &&& m = 136315906 → Same m s0 s → Same m s0 (planRetry s) := by
  intro s hM h
  refine Same.run hM h fun h0 => ?_
  unfold planRetry
  repeat' (with_reducible first
    | assumption
    | intro _
    | exact Same.bits rfl
    | (extract_lets +onlyGivenNames z; change _ → _ at z; apply Same.cutF z; subst z)
    | (extract_lets +onlyGivenNames z; change State at z; apply Same.cutS h0 (x := z); unfold z; clear z; rotate_left; intro h; clear_value z; apply Same.letS h; clear h z; intro z h)
    | (extract_lets +onlyGivenNames z; clear_value z; apply Same.letAny z; clear z; intro z)
    | apply Same.ite
    | apply retryAdvance_frame
    | apply foff_frame
    | apply Same.foldl)

theorem planCost_frame {m : Nat} {s0 : State} : ∀ s, 2 &&& m = 2 → Same m s0 s → Same m s0 (planCost s) := by
  intro s hM h
  refine Same.run hM h fun h0 => ?_
  unfold planCost
  repeat' (with_reducible first
    | assumption
    | intro _
    | exact Same.bits rfl
    | (extract_lets +onlyGivenNames z; change State at z; apply Same.cutS h0 (x := z); unfold z; clear z; rotate_left; intro h; clear_value z; apply Same.letS h; clear h z; intro z h)
    | (extract_lets +onlyGivenNames z; clear_value z; apply Same.letAny z; clear z; intro z)
    | apply costPut_frame
    | apply fset_frame
    | apply Same.foldl)

theorem planPred_frame {m : Nat} {s0 : State} : ∀ s, 2 &&& m = 2 → Same m s0 s → Same m s0 (planPred s) := by
  intro s hM h
  refine Same.run hM h fun h0 => ?_
  unfold planPred
  repeat' (with_reducible first
    | assumption
    | intro _
    | exact Same.bits rfl
    | (extract_lets +onlyGivenNames z; change State at z; apply Same.cutS h0 (x := z); unfold z; clear z; rotate_left; intro h; clear_value z; apply Same.letS h; clear h z; intro z h)
    | (extract_lets +onlyGivenNames z; clear_value z; apply Same.letAny z; clear z; intro z)
    | apply fset_frame
    | apply Same.foldl)

theorem planRated_frame {m : Nat} {s0 : State} : ∀ s, 136315906 &&& m = 136315906 → Same m s0 s → Same m s0 (planRated s) := by
  intro s hM h
  refine Same.run hM h fun h0 => ?_
  unfold planRated
  repeat' (with_reducible first
    | assumption
    | intro _
    | exact Same.bits rfl
    | (extract_lets +onlyGivenNames z; change State at z; apply Same.cutS h0 (x := z); unfold z; clear z; rotate_left; intro h; clear_value z; apply Same.letS h; clear h z; intro z h)
    | (extract_lets +onlyGivenNames z; clear_value z; apply Same.letAny z; clear z; intro z)
    | apply Same.ite
    | apply post_frame
    | apply fon_frame
    | (refine Same.updAge ?_ rfl; assumption)
    | apply Same.foldl)

theorem planOffsets_frame {m : Nat} {s0 : State} : ∀ s, 137366530 &&& m = 137366530 → Same m s0 s → Same m s0 (planOffsets s) := by
  intro s hM h
  refine Same.run hM h fun h0 => ?_
  unfold planOffsets
  repeat' (with_reducible first
    | assumption
    | intro _
    | exact Same.bits rfl
    | (extract_lets +onlyGivenNames z; change _ → _ at z; apply Same.cutF z; subst z)
    | (extract_lets +onlyGivenNames z; change State at z; apply Same.cutS h0 (x := z); unfold z; clear z; rotate_left; intro h; clear_value z; apply Same.letS h; clear h z; intro z h)
    | (extract_lets +onlyGivenNames z; clear_value z; apply Same.letAny z; clear z; intro z)
    | (extract_lets +onlyGivenNames z; subst z)
    | apply Same.ite
    | apply post_frame
    | apply fon_frame
    | apply fset_frame
    | apply smartEvent_frame
    | (refine Same.updUmp ?_ rfl; assumption)
    | (refine Same.updAge ?_ rfl; assumption)
    | apply Same.foldl)

theorem planningRun_frame {m : Nat} {s0 : State} : ∀ s x1, 137481250 &&& m = 137481250 → Same m s0 s → Same m s0 (planningRun s x1) := by
  intro s x1 hM h
  refine Same.run hM h fun h0 => ?_
  unfold planningRun
  repeat' (with_reducible first
    | assumption
    | exact Same.bits rfl
    | (extract_lets +onlyGivenNames z; change State at z; apply Same.cutS h0 (x := z); unfold z; clear z; rotate_left; intro h; clear_value z; apply Same.letS h; clear h z; intro z h)
    | apply Same.ite
    | apply reach_frame
    | apply planEnd_frame
    | apply planProbe_frame
    | apply planRet_frame
    | apply planRetry_frame
    | apply planCost_frame
    | apply planPred_frame
    | apply planRated_frame
    | apply planOffsets_frame)

theorem execPlanningRun_frame {m : Nat} {s0 : State} : ∀ x0 s, 137481250 &&& m = 137481250 → Same m s0 s → SameT m s0 (execPlanningRun x0 s) := by
  intro x0 s hM h
  refine SameT.run hM h fun h0 => ?_
  unfold execPlanningRun
  repeat' (with_reducible first
    | assumption
    | exact Same.bits rfl
    | apply SameT.next
    | apply planningRun_frame)

theorem sessionKeys_frame {m : Nat} {s0 : State} : ∀ s x1, 4194306 &&& m = 4194306 → Same m s0 s → Same m s0 (sessionKeys s x1) := by
  intro s x1 hM h
  refine Same.run hM h fun h0 => ?_
  unfold sessionKeys
  repeat' (with_reducible first
    | assumption
    | intro _
    | exact Same.bits rfl
    | (extract_lets +onlyGivenNames z; change _ × State at z; apply Same.cut2 h0 (x := z); unfold z; clear z; rotate_left; intro h; clear_value z; apply Same.let2 (x := z) h; clear h z; intro z h)
    | apply draw_frame
    | apply kstDerive_frame
    | apply Same.foldl)

theorem keyExchange_frame {m : Nat} {s0 : State} : ∀ s x1 x2 x3, 4194434 &&& m = 4194434 → Same m s0 s → Same m s0 (keyExchange s x1 x2 x3) := by
  intro s x1 x2 x3 hM h
  refine Same.run hM h fun h0 => ?_
  unfold keyExchange
  repeat' (with_reducible first
    | assumption
    | exact Same.bits rfl
    | (extract_lets +onlyGivenNames z; change State at z; apply Same.cutS h0 (x := z); unfold z; clear z; rotate_left; intro h; clear_value z; apply Same.letS h; clear h z; intro z h)
    | (extract_lets +onlyGivenNames z; clear_value z; apply Same.letAny z; clear z; intro z)
    | apply Same.ite
    | apply spdmSay_frame
    | apply sessionKeys_frame
    | (refine Same.updSpdm ?_ rfl; assumption)
    | split)

theorem execSpdmKeyExchange_frame {m : Nat} {s0 : State} : ∀ x0 x1 x2 x3 s, 6294658 &&& m = 6294658 → Same m s0 s → SameT m s0 (execSpdmKeyExchange x0 x1 x2 x3 s) := by
  intro x0 x1 x2 x3 s hM h
  refine SameT.run hM h fun h0 => ?_
  unfold execSpdmKeyExchange
  repeat' (with_reducible first
    | assumption
    | intro _
    | exact Same.bits rfl
    | apply SameT.next
    | apply spdmSlot_frame
    | apply keyExchange_frame
    | dsimp -zeta only)

end Sys2Proof.Machine
end

