-- ==== Sys2Proof/Laws/Frame5.lean ====
section
/-! SUPPORT. What each operation may change (Sys2Proof/Laws/Frame.lean), part 5 of 6: adminHead to scoreTick. A number is the set of
fields of State, bit k the k-th. -/
namespace Sys2Proof.Machine
open Sys2Proof
set_option maxRecDepth 4000
set_option linter.all false

theorem adminHead_frame {m : Nat} {s0 : State} : ∀ s x1 x2, 2100226 &&& m = 2100226 → Same m s0 s → Same m s0 (adminHead s x1 x2) := by
  intro s x1 x2 hM h
  refine Same.run hM h fun h0 => ?_
  unfold adminHead
  repeat' (with_reducible first
    | assumption
    | exact Same.bits rfl
    | apply Same.ite
    | apply rung_frame
    | apply ringHead_frame
    | split)

theorem execAdminCqHeadDoorbell_frame {m : Nat} {s0 : State} : ∀ x0 x1 s, 2100226 &&& m = 2100226 → Same m s0 s → SameT m s0 (execAdminCqHeadDoorbell x0 x1 s) := by
  intro x0 x1 s hM h
  refine SameT.run hM h fun h0 => ?_
  unfold execAdminCqHeadDoorbell
  repeat' (with_reducible first
    | assumption
    | exact Same.bits rfl
    | apply SameT.next
    | apply adminHead_frame)

theorem fwCommitRun_frame {m : Nat} {s0 : State} : ∀ s x1 x2, 104066562 &&& m = 104066562 → Same m s0 s → Same m s0 (fwCommitRun s x1 x2) := by
  intro s x1 x2 hM h
  refine Same.run hM h fun h0 => ?_
  unfold fwCommitRun
  repeat' (with_reducible first
    | assumption
    | intro _
    | exact Same.bits rfl
    | (extract_lets +onlyGivenNames z; change _ × State at z; apply Same.cut2 h0 (x := z); unfold z; clear z; rotate_left; intro h; clear_value z; apply Same.let2 (x := z) h; clear h z; intro z h)
    | (extract_lets +onlyGivenNames z; clear_value z; apply Same.letAny z; clear z; intro z)
    | apply Same2.ite
    | apply adminRun_frame
    | apply commit_frame
    | apply Same2.out
    | apply Same2.mk')

theorem execFirmwareCommitActivate_frame {m : Nat} {s0 : State} : ∀ x0 s, 104066562 &&& m = 104066562 → Same m s0 s → SameT m s0 (execFirmwareCommitActivate x0 s) := by
  intro x0 s hM h
  refine SameT.run hM h fun h0 => ?_
  unfold execFirmwareCommitActivate
  repeat' (with_reducible first
    | assumption
    | exact Same.bits rfl
    | apply SameT.next
    | apply fwCommitRun_frame)

theorem execPsEntry_frame {m : Nat} {s0 : State} : ∀ s, 2223106 &&& m = 2223106 → Same m s0 s → SameT m s0 (execPsEntry s) := by
  intro s hM h
  refine SameT.run hM h fun h0 => ?_
  unfold execPsEntry
  repeat' (with_reducible first
    | assumption
    | exact Same.bits rfl
    | apply SameT.next
    | apply psEntry_frame)

theorem asyncRequest_frame {m : Nat} {s0 : State} : ∀ x0 s, 2100226 &&& m = 2100226 → Same m s0 s → Same2 m s0 (asyncRequest x0 s) := by
  intro x0 s hM h
  refine Same2.run hM h fun h0 => ?_
  unfold asyncRequest
  repeat' (with_reducible first
    | assumption
    | exact Same.bits rfl
    | (extract_lets +onlyGivenNames z; clear_value z; apply Same.letAny z; clear z; intro z)
    | apply Same2.ite
    | apply portUpd_frame
    | apply psRefresh_frame
    | apply ctxUpd_frame
    | split
    | apply Same2.mk')

theorem execAsyncEventRequest_frame {m : Nat} {s0 : State} : ∀ x0 s, 2100226 &&& m = 2100226 → Same m s0 s → SameT m s0 (execAsyncEventRequest x0 s) := by
  intro x0 s hM h
  refine SameT.run hM h fun h0 => ?_
  unfold execAsyncEventRequest
  repeat' (with_reducible first
    | assumption
    | intro _
    | exact Same.bits rfl
    | apply SameT.next
    | apply adminRun_frame
    | (apply Same2.out; apply asyncRequest_frame))

theorem execSpdmGetMeasurements_frame {m : Nat} {s0 : State} : ∀ x0 x1 x2 s, 6294658 &&& m = 6294658 → Same m s0 s → SameT m s0 (execSpdmGetMeasurements x0 x1 x2 s) := by
  intro x0 x1 x2 s hM h
  refine SameT.run hM h fun h0 => ?_
  unfold execSpdmGetMeasurements
  repeat' (with_reducible first
    | assumption
    | intro _
    | exact Same.bits rfl
    | apply SameT.next
    | apply spdmSlot_frame
    | apply aliasSign_frame
    | apply spdmSay_frame
    | (apply Same.ofPair2; assumption)
    | (apply Same2.out; apply aliasSign_frame)
    | split
    | dsimp -zeta only
    | apply Same2.mk')

theorem zoneSwitch_frame {m : Nat} {s0 : State} : ∀ s x1 x2 x3 x4 x5, 73730 &&& m = 73730 → Same m s0 s → Same m s0 (zoneSwitch s x1 x2 x3 x4 x5) := by
  intro s x1 x2 x3 x4 x5 hM h
  refine Same.run hM h fun h0 => ?_
  unfold zoneSwitch
  repeat' (with_reducible first
    | assumption
    | exact Same.bits rfl
    | (extract_lets +onlyGivenNames z; change State at z; apply Same.cutS h0 (x := z); unfold z; clear z; rotate_left; intro h; clear_value z; apply Same.letS h; clear h z; intro z h)
    | (extract_lets +onlyGivenNames z; change _ × _ × State at z; apply Same.cut22 h0 (x := z); unfold z; clear z; rotate_left; intro h; clear_value z; apply Same.let22 (x := z) h; clear h z; intro z h)
    | (extract_lets +onlyGivenNames z; change _ × State at z; apply Same.cut2 h0 (x := z); unfold z; clear z; rotate_left; intro h; clear_value z; apply Same.let2 (x := z) h; clear h z; intro z h)
    | (extract_lets +onlyGivenNames z; clear_value z; apply Same.letAny z; clear z; intro z)
    | apply Same.ite
    | apply unitsAdd_frame
    | apply zonePut_frame
    | split
    | dsimp -zeta only)

theorem convSwitch_frame {m : Nat} {s0 : State} : ∀ s x1 x2 x3 x4 x5 x6, 90114 &&& m = 90114 → Same m s0 s → Same m s0 (convSwitch s x1 x2 x3 x4 x5 x6) := by
  intro s x1 x2 x3 x4 x5 x6 hM h
  refine Same.run hM h fun h0 => ?_
  unfold convSwitch
  repeat' (with_reducible first
    | assumption
    | exact Same.bits rfl
    | (extract_lets +onlyGivenNames z; change State at z; apply Same.cutS h0 (x := z); unfold z; clear z; rotate_left; intro h; clear_value z; apply Same.letS h; clear h z; intro z h)
    | (extract_lets +onlyGivenNames z; change _ × _ × State at z; apply Same.cut22 h0 (x := z); unfold z; clear z; rotate_left; intro h; clear_value z; apply Same.let22 (x := z) h; clear h z; intro z h)
    | (extract_lets +onlyGivenNames z; change _ × State at z; apply Same.cut2 h0 (x := z); unfold z; clear z; rotate_left; intro h; clear_value z; apply Same.let2 (x := z) h; clear h z; intro z h)
    | (extract_lets +onlyGivenNames z; clear_value z; apply Same.letAny z; clear z; intro z)
    | apply Same.ite
    | apply unitDrop_frame
    | apply unitsAdd_frame
    | apply journalCopy_frame
    | (refine Same.updZne ?_ rfl; assumption)
    | split
    | dsimp -zeta only)

theorem memberClose_frame {m : Nat} {s0 : State} : ∀ s x1 x2 x3, 124930 &&& m = 124930 → Same m s0 s → Same m s0 (memberClose s x1 x2 x3) := by
  intro s x1 x2 x3 hM h
  refine Same.run hM h fun h0 => ?_
  unfold memberClose
  repeat' (with_reducible first
    | assumption
    | exact Same.bits rfl
    | (extract_lets +onlyGivenNames z; change State at z; apply Same.cutS h0 (x := z); unfold z; clear z; rotate_left; intro h; clear_value z; apply Same.letS h; clear h z; intro z h)
    | (extract_lets +onlyGivenNames z; change _ × _ × State at z; apply Same.cut22 h0 (x := z); unfold z; clear z; rotate_left; intro h; clear_value z; apply Same.let22 (x := z) h; clear h z; intro z h)
    | (extract_lets +onlyGivenNames z; change _ × State at z; apply Same.cut2 h0 (x := z); unfold z; clear z; rotate_left; intro h; clear_value z; apply Same.let2 (x := z) h; clear h z; intro z h)
    | (extract_lets +onlyGivenNames z; clear_value z; apply Same.letAny z; clear z; intro z)
    | apply Same.ite
    | apply zoneSwitch_frame
    | apply convSwitch_frame
    | apply rehomeOne_frame
    | apply prepareFor_frame
    | apply dramSlotFree_frame
    | apply zoneCopied_frame
    | split
    | dsimp -zeta only)

theorem offMove_frame {m : Nat} {s0 : State} : ∀ s x1 x2, 65538 &&& m = 65538 → Same m s0 s → Same m s0 (offMove s x1 x2) := by
  intro s x1 x2 hM h
  refine Same.run hM h fun h0 => ?_
  unfold offMove
  repeat' (with_reducible first
    | assumption
    | exact Same.bits rfl
    | (extract_lets +onlyGivenNames z; change State at z; apply Same.cutS h0 (x := z); unfold z; clear z; rotate_left; intro h; clear_value z; apply Same.letS h; clear h z; intro z h)
    | (extract_lets +onlyGivenNames z; change _ × _ × State at z; apply Same.cut22 h0 (x := z); unfold z; clear z; rotate_left; intro h; clear_value z; apply Same.let22 (x := z) h; clear h z; intro z h)
    | (extract_lets +onlyGivenNames z; change _ × State at z; apply Same.cut2 h0 (x := z); unfold z; clear z; rotate_left; intro h; clear_value z; apply Same.let2 (x := z) h; clear h z; intro z h)
    | (extract_lets +onlyGivenNames z; clear_value z; apply Same.letAny z; clear z; intro z)
    | apply unitDrop_frame
    | apply unitsAdd_frame
    | split
    | dsimp -zeta only)

theorem foldJournal_frame {m : Nat} {s0 : State} : ∀ s x1 x2, 90114 &&& m = 90114 → Same m s0 s → Same m s0 (foldJournal s x1 x2) := by
  intro s x1 x2 hM h
  refine Same.run hM h fun h0 => ?_
  unfold foldJournal
  repeat' (with_reducible first
    | assumption
    | intro _
    | exact Same.bits rfl
    | apply journalCopy_frame
    | apply Same.foldl
    | split
    | dsimp -zeta only)

theorem foldPlace_frame {m : Nat} {s0 : State} : ∀ s x1 x2, 90114 &&& m = 90114 → Same m s0 s → Same m s0 (foldPlace s x1 x2) := by
  intro s x1 x2 hM h
  refine Same.run hM h fun h0 => ?_
  unfold foldPlace
  repeat' (with_reducible first
    | assumption
    | intro _
    | exact Same.bits rfl
    | (extract_lets +onlyGivenNames z; change State at z; apply Same.cutS h0 (x := z); unfold z; clear z; rotate_left; intro h; clear_value z; apply Same.letS h; clear h z; intro z h)
    | (extract_lets +onlyGivenNames z; change _ × _ × State at z; apply Same.cut22 h0 (x := z); unfold z; clear z; rotate_left; intro h; clear_value z; apply Same.let22 (x := z) h; clear h z; intro z h)
    | (extract_lets +onlyGivenNames z; change _ × State at z; apply Same.cut2 h0 (x := z); unfold z; clear z; rotate_left; intro h; clear_value z; apply Same.let2 (x := z) h; clear h z; intro z h)
    | (extract_lets +onlyGivenNames z; clear_value z; apply Same.letAny z; clear z; intro z)
    | apply offMove_frame
    | apply foldJournal_frame
    | apply zonePut_frame
    | apply Same.foldl
    | dsimp -zeta only)

theorem foldCommit_frame {m : Nat} {s0 : State} : ∀ s x1, 90114 &&& m = 90114 → Same m s0 s → Same m s0 (foldCommit s x1) := by
  intro s x1 hM h
  refine Same.run hM h fun h0 => ?_
  unfold foldCommit
  repeat' (with_reducible first
    | assumption
    | intro _
    | exact Same.bits rfl
    | (extract_lets +onlyGivenNames z; change State at z; apply Same.cutS h0 (x := z); unfold z; clear z; rotate_left; intro h; clear_value z; apply Same.letS h; clear h z; intro z h)
    | (extract_lets +onlyGivenNames z; change _ × _ × State at z; apply Same.cut22 h0 (x := z); unfold z; clear z; rotate_left; intro h; clear_value z; apply Same.let22 (x := z) h; clear h z; intro z h)
    | (extract_lets +onlyGivenNames z; change _ × State at z; apply Same.cut2 h0 (x := z); unfold z; clear z; rotate_left; intro h; clear_value z; apply Same.let2 (x := z) h; clear h z; intro z h)
    | (extract_lets +onlyGivenNames z; clear_value z; apply Same.letAny z; clear z; intro z)
    | apply Same.ite
    | apply foldsShow_frame
    | apply zonePut_frame
    | apply foldPlace_frame
    | apply setFull_frame
    | (refine Same.updPlc ?_ rfl; assumption)
    | apply Same.foldl
    | split
    | dsimp -zeta only)

theorem emgErase_frame {m : Nat} {s0 : State} : ∀ s, 98306 &&& m = 98306 → Same m s0 s → Same m s0 (emgErase s) := by
  intro s hM h
  refine Same.run hM h fun h0 => ?_
  unfold emgErase
  repeat' (with_reducible first
    | assumption
    | intro _
    | exact Same.bits rfl
    | (extract_lets +onlyGivenNames z; change State at z; apply Same.cutS h0 (x := z); unfold z; clear z; rotate_left; intro h; clear_value z; apply Same.letS h; clear h z; intro z h)
    | (extract_lets +onlyGivenNames z; change _ × _ × State at z; apply Same.cut22 h0 (x := z); unfold z; clear z; rotate_left; intro h; clear_value z; apply Same.let22 (x := z) h; clear h z; intro z h)
    | (extract_lets +onlyGivenNames z; change _ × State at z; apply Same.cut2 h0 (x := z); unfold z; clear z; rotate_left; intro h; clear_value z; apply Same.let2 (x := z) h; clear h z; intro z h)
    | (extract_lets +onlyGivenNames z; clear_value z; apply Same.letAny z; clear z; intro z)
    | apply Same.ite
    | apply eraseMembers_frame
    | (refine Same.updMed ?_ rfl; assumption)
    | apply Same.foldl
    | split
    | dsimp -zeta only)

theorem stripeClose_frame {m : Nat} {s0 : State} : ∀ s x1, 124930 &&& m = 124930 → Same m s0 s → Same m s0 (stripeClose s x1) := by
  intro s x1 hM h
  refine Same.run hM h fun h0 => ?_
  unfold stripeClose
  repeat' (with_reducible first
    | assumption
    | intro _
    | exact Same.bits rfl
    | (extract_lets +onlyGivenNames z; change State at z; apply Same.cutS h0 (x := z); unfold z; clear z; rotate_left; intro h; clear_value z; apply Same.letS h; clear h z; intro z h)
    | (extract_lets +onlyGivenNames z; change _ × _ × State at z; apply Same.cut22 h0 (x := z); unfold z; clear z; rotate_left; intro h; clear_value z; apply Same.let22 (x := z) h; clear h z; intro z h)
    | (extract_lets +onlyGivenNames z; change _ × State at z; apply Same.cut2 h0 (x := z); unfold z; clear z; rotate_left; intro h; clear_value z; apply Same.let2 (x := z) h; clear h z; intro z h)
    | (extract_lets +onlyGivenNames z; clear_value z; apply Same.letAny z; clear z; intro z)
    | apply Same.ite
    | apply Same2.ite
    | apply journalFor_frame
    | apply memberClose_frame
    | apply foldCommit_frame
    | apply foldsShow_frame
    | apply emgErase_frame
    | apply urgency_frame
    | apply tailWrite_frame
    | apply streamsRefresh_frame
    | apply sweep_frame
    | apply grpRefresh_frame
    | apply setFull_frame
    | (refine Same.updMed ?_ rfl; assumption)
    | (refine Same.updPlc ?_ rfl; assumption)
    | apply Same.foldl
    | apply Same2.foldl
    | split
    | dsimp -zeta only
    | apply Same2.mk')

theorem execStripeClose_frame {m : Nat} {s0 : State} : ∀ x0 s, 124930 &&& m = 124930 → Same m s0 s → SameT m s0 (execStripeClose x0 s) := by
  intro x0 s hM h
  refine SameT.run hM h fun h0 => ?_
  unfold execStripeClose
  repeat' (with_reducible first
    | assumption
    | exact Same.bits rfl
    | apply SameT.next
    | apply stripeClose_frame)

theorem execUmpCostBankSwitch_frame {m : Nat} {s0 : State} : ∀ x0 x1 s, 2098194 &&& m = 2098194 → Same m s0 s → SameT m s0 (execUmpCostBankSwitch x0 x1 s) := by
  intro x0 x1 s hM h
  refine SameT.run hM h fun h0 => ?_
  unfold execUmpCostBankSwitch
  repeat' (with_reducible first
    | assumption
    | intro _
    | exact Same.bits rfl
    | apply SameT.next
    | apply gated_frame
    | apply genWrite_frame)

theorem clsDone_frame {m : Nat} {s0 : State} : ∀ s x1 x2 x3, 33554434 &&& m = 33554434 → Same m s0 s → Same m s0 (clsDone s x1 x2 x3) := by
  intro s x1 x2 x3 hM h
  refine Same.run hM h fun h0 => ?_
  unfold clsDone
  repeat' (with_reducible first
    | assumption
    | exact Same.bits rfl
    | (extract_lets +onlyGivenNames z; change State at z; apply Same.cutS h0 (x := z); unfold z; clear z; rotate_left; intro h; clear_value z; apply Same.letS h; clear h z; intro z h)
    | apply Same.ite
    | apply finc_frame
    | apply clsPut_frame
    | apply fon_frame)

theorem clsDeliver_frame {m : Nat} {s0 : State} : ∀ s x1 x2, 146800210 &&& m = 146800210 → Same m s0 s → Same m s0 (clsDeliver s x1 x2) := by
  intro s x1 x2 hM h
  refine Same.run hM h fun h0 => ?_
  unfold clsDeliver
  repeat' (with_reducible first
    | assumption
    | exact Same.bits rfl
    | (extract_lets +onlyGivenNames z; change State at z; apply Same.cutS h0 (x := z); unfold z; clear z; rotate_left; intro h; clear_value z; apply Same.letS h; clear h z; intro z h)
    | (extract_lets +onlyGivenNames z; change _ × _ × State at z; apply Same.cut22 h0 (x := z); unfold z; clear z; rotate_left; intro h; clear_value z; apply Same.let22 (x := z) h; clear h z; intro z h)
    | (extract_lets +onlyGivenNames z; change _ × State at z; apply Same.cut2 h0 (x := z); unfold z; clear z; rotate_left; intro h; clear_value z; apply Same.let2 (x := z) h; clear h z; intro z h)
    | (extract_lets +onlyGivenNames z; clear_value z; apply Same.letAny z; clear z; intro z)
    | apply Same.ite
    | apply handleWrite_frame
    | apply raiseVio_frame
    | apply memPut_frame
    | apply dramWrote_frame
    | apply sramWrote_frame
    | split
    | dsimp -zeta only)

theorem clsStart_frame {m : Nat} {s0 : State} : ∀ s x1, 180354642 &&& m = 180354642 → Same m s0 s → Same m s0 (clsStart s x1) := by
  intro s x1 hM h
  refine Same.run hM h fun h0 => ?_
  unfold clsStart
  repeat' (with_reducible first
    | assumption
    | intro _
    | exact Same.bits rfl
    | (extract_lets +onlyGivenNames z; change State at z; apply Same.cutS h0 (x := z); unfold z; clear z; rotate_left; intro h; clear_value z; apply Same.letS h; clear h z; intro z h)
    | (extract_lets +onlyGivenNames z; change _ × _ × State at z; apply Same.cut22 h0 (x := z); unfold z; clear z; rotate_left; intro h; clear_value z; apply Same.let22 (x := z) h; clear h z; intro z h)
    | (extract_lets +onlyGivenNames z; change _ × State at z; apply Same.cut2 h0 (x := z); unfold z; clear z; rotate_left; intro h; clear_value z; apply Same.let2 (x := z) h; clear h z; intro z h)
    | (extract_lets +onlyGivenNames z; clear_value z; apply Same.letAny z; clear z; intro z)
    | apply Same.ite
    | apply clsDone_frame
    | apply clsDeliver_frame
    | apply clsPut_frame
    | apply fset_frame
    | (refine Same.updCls ?_ rfl; assumption)
    | split
    | dsimp -zeta only)

theorem execClsSetPassword_frame {m : Nat} {s0 : State} : ∀ s, 180354642 &&& m = 180354642 → Same m s0 s → SameT m s0 (execClsSetPassword s) := by
  intro s hM h
  refine SameT.run hM h fun h0 => ?_
  unfold execClsSetPassword
  repeat' (with_reducible first
    | assumption
    | exact Same.bits rfl
    | apply SameT.next
    | apply clsStart_frame
    | dsimp -zeta only)

theorem execDscLatClear_frame {m : Nat} {s0 : State} : ∀ x0 x1 s, 2130962 &&& m = 2130962 → Same m s0 s → SameT m s0 (execDscLatClear x0 x1 s) := by
  intro x0 x1 s hM h
  refine SameT.run hM h fun h0 => ?_
  unfold execDscLatClear
  repeat' (with_reducible first
    | assumption
    | intro _
    | exact Same.bits rfl
    | apply SameT.next
    | apply gated_frame
    | apply wrLatSel_frame)

theorem regReads_frame {m : Nat} {s0 : State} : ∀ x0 x1 x2 s, 754974422 &&& m = 754974422 → Same m s0 s → Same2 m s0 (regReads x0 x1 x2 s) := by
  have H : ∀ {s0 : State} x0 x1 x2 s, Same 754974422 s0 s → Same2 754974422 s0 (regReads x0 x1 x2 s) := by
    intro s0 x0 x1 x2 s h0
    induction x2 generalizing x0 x1 s with
    | nil =>
      rw [regReads]
      repeat' (with_reducible first
      | assumption
      | exact Same.bits rfl
      | apply ih
      | (apply Same2.out; apply readBy_frame)
      | apply Same2.out
      | apply Same2.mk')
    | cons a l ih =>
      rw [regReads]
      repeat' (with_reducible first
      | assumption
      | exact Same.bits rfl
      | apply ih
      | (apply Same2.out; apply readBy_frame)
      | apply Same2.out
      | apply Same2.mk')
  intro x0 x1 x2 s hM h
  exact Same2.step hM (H x0 x1 x2 s (Same.refl _ _)) h

theorem execRegRead_frame {m : Nat} {s0 : State} : ∀ x0 s, 754974422 &&& m = 754974422 → Same m s0 s → SameT m s0 (execRegRead x0 s) := by
  intro x0 s hM h
  refine SameT.run hM h fun h0 => ?_
  unfold execRegRead
  repeat' (with_reducible first
    | unfold regReadDef
    | assumption
    | intro _
    | exact Same.bits rfl
    | apply SameT.next
    | apply mbxRun_frame
    | (apply Same2.out; apply regReads_frame)
    | apply OpKeeps.of
    | apply Same2.mk')

theorem vrReading_frame {m : Nat} {s0 : State} : ∀ s x1, 524290 &&& m = 524290 → Same m s0 s → Same m s0 (vrReading s x1) := by
  intro s x1 hM h
  refine Same.run hM h fun h0 => ?_
  unfold vrReading
  repeat' (with_reducible first
    | assumption
    | exact Same.bits rfl
    | (extract_lets +onlyGivenNames z; change State at z; apply Same.cutS h0 (x := z); unfold z; clear z; rotate_left; intro h; clear_value z; apply Same.letS h; clear h z; intro z h)
    | (extract_lets +onlyGivenNames z; change _ × _ × State at z; apply Same.cut22 h0 (x := z); unfold z; clear z; rotate_left; intro h; clear_value z; apply Same.let22 (x := z) h; clear h z; intro z h)
    | (extract_lets +onlyGivenNames z; change _ × State at z; apply Same.cut2 h0 (x := z); unfold z; clear z; rotate_left; intro h; clear_value z; apply Same.let2 (x := z) h; clear h z; intro z h)
    | (extract_lets +onlyGivenNames z; clear_value z; apply Same.letAny z; clear z; intro z)
    | apply Same.ite
    | apply fset_frame
    | apply foff_frame
    | apply dramFollow_frame
    | apply setCurrents_frame
    | apply finc_frame
    | split
    | dsimp -zeta only)

theorem execVrSettled_frame {m : Nat} {s0 : State} : ∀ x0 s, 524290 &&& m = 524290 → Same m s0 s → SameT m s0 (execVrSettled x0 s) := by
  intro x0 s hM h
  refine SameT.run hM h fun h0 => ?_
  unfold execVrSettled
  repeat' (with_reducible first
    | assumption
    | exact Same.bits rfl
    | apply SameT.next
    | apply vrReading_frame)

theorem linkLost_frame {m : Nat} {s0 : State} : ∀ s x1, 70778434 &&& m = 70778434 → Same m s0 s → Same m s0 (linkLost s x1) := by
  intro s x1 hM h
  refine Same.run hM h fun h0 => ?_
  unfold linkLost
  repeat' (with_reducible first
    | assumption
    | exact Same.bits rfl
    | (extract_lets +onlyGivenNames z; change State at z; apply Same.cutS h0 (x := z); unfold z; clear z; rotate_left; intro h; clear_value z; apply Same.letS h; clear h z; intro z h)
    | apply fon_frame
    | apply ctrlReset_frame
    | apply post_frame
    | apply linkDownShow_frame)

theorem dlDown_frame {m : Nat} {s0 : State} : ∀ s x1, 70778434 &&& m = 70778434 → Same m s0 s → Same m s0 (dlDown s x1) := by
  intro s x1 hM h
  refine Same.run hM h fun h0 => ?_
  unfold dlDown
  repeat' (with_reducible first
    | assumption
    | exact Same.bits rfl
    | apply Same.ite
    | apply linkLost_frame)

theorem execDlDown_frame {m : Nat} {s0 : State} : ∀ x0 s, 70778434 &&& m = 70778434 → Same m s0 s → SameT m s0 (execDlDown x0 s) := by
  intro x0 s hM h
  refine SameT.run hM h fun h0 => ?_
  unfold execDlDown
  repeat' (with_reducible first
    | assumption
    | exact Same.bits rfl
    | apply SameT.next
    | apply dlDown_frame)

theorem reportZones_frame {m : Nat} {s0 : State} : ∀ x0 x1 s, 10242 &&& m = 10242 → Same m s0 s → Same m s0 (reportZones x0 x1 s) := by
  intro x0 x1 s hM h
  refine Same.run hM h fun h0 => ?_
  unfold reportZones
  repeat' (with_reducible first
    | assumption
    | intro _
    | exact Same.bits rfl
    | (extract_lets +onlyGivenNames z; change State at z; apply Same.cutS h0 (x := z); unfold z; clear z; rotate_left; intro h; clear_value z; apply Same.letS h; clear h z; intro z h)
    | (extract_lets +onlyGivenNames z; change _ × _ × State at z; apply Same.cut22 h0 (x := z); unfold z; clear z; rotate_left; intro h; clear_value z; apply Same.let22 (x := z) h; clear h z; intro z h)
    | (extract_lets +onlyGivenNames z; change _ × State at z; apply Same.cut2 h0 (x := z); unfold z; clear z; rotate_left; intro h; clear_value z; apply Same.let2 (x := z) h; clear h z; intro z h)
    | (extract_lets +onlyGivenNames z; clear_value z; apply Same.letAny z; clear z; intro z)
    | apply Same.ite
    | apply ctxFail_frame
    | apply descsFetch_frame
    | apply ctxEnd_frame
    | apply ctxUpd_frame
    | split
    | dsimp -zeta only)

theorem execDieTimeout_frame {m : Nat} {s0 : State} : ∀ x0 x1 s, 2524194 &&& m = 2524194 → Same m s0 s → SameT m s0 (execDieTimeout x0 x1 s) := by
  intro x0 x1 s hM h
  refine SameT.run hM h fun h0 => ?_
  unfold execDieTimeout
  repeat' (with_reducible first
    | assumption
    | exact Same.bits rfl
    | apply SameT.next
    | apply dieTimeout_frame)

theorem execCcEnClear_frame {m : Nat} {s0 : State} : ∀ x0 s, 70778434 &&& m = 70778434 → Same m s0 s → SameT m s0 (execCcEnClear x0 s) := by
  intro x0 s hM h
  refine SameT.run hM h fun h0 => ?_
  unfold execCcEnClear
  repeat' (with_reducible first
    | assumption
    | exact Same.bits rfl
    | apply SameT.next
    | apply Same.ite
    | apply ctrlReset_frame)

theorem fwSlotInfo_frame {m : Nat} {s0 : State} : ∀ s, 536870912 &&& m = 536870912 → Same m s0 s → Same2 m s0 (fwSlotInfo s) := by
  intro s hM h
  refine Same2.run hM h fun h0 => ?_
  unfold fwSlotInfo
  repeat' (with_reducible first
    | assumption
    | exact Same.bits rfl
    | (extract_lets +onlyGivenNames z; change _ × State at z; apply Same.cut2 h0 (x := z); unfold z; clear z; rotate_left; intro h; clear_value z; apply Same.let2 (x := z) h; clear h z; intro z h)
    | (extract_lets +onlyGivenNames z; clear_value z; apply Same.letAny z; clear z; intro z)
    | apply writeProgress_frame
    | apply Same2.mk')

theorem execDescProgram_frame {m : Nat} {s0 : State} : ∀ x0 s, 146275922 &&& m = 146275922 → Same m s0 s → SameT m s0 (execDescProgram x0 s) := by
  intro x0 s hM h
  refine SameT.run hM h fun h0 => ?_
  unfold execDescProgram
  repeat' (with_reducible first
    | assumption
    | exact Same.bits rfl
    | apply SameT.next
    | apply takeOp_frame)

theorem convWrite_frame {m : Nat} {s0 : State} : ∀ x0 x1 x2 s, 14338 &&& m = 14338 → Same m s0 s → Same m s0 (convWrite x0 x1 x2 s) := by
  intro x0 x1 x2 s hM h
  refine Same.run hM h fun h0 => ?_
  unfold convWrite
  repeat' (with_reducible first
    | assumption
    | intro _
    | exact Same.bits rfl
    | (extract_lets +onlyGivenNames z; change State at z; apply Same.cutS h0 (x := z); unfold z; clear z; rotate_left; intro h; clear_value z; apply Same.letS h; clear h z; intro z h)
    | (extract_lets +onlyGivenNames z; change _ × _ × State at z; apply Same.cut22 h0 (x := z); unfold z; clear z; rotate_left; intro h; clear_value z; apply Same.let22 (x := z) h; clear h z; intro z h)
    | (extract_lets +onlyGivenNames z; change _ × State at z; apply Same.cut2 h0 (x := z); unfold z; clear z; rotate_left; intro h; clear_value z; apply Same.let2 (x := z) h; clear h z; intro z h)
    | (extract_lets +onlyGivenNames z; clear_value z; apply Same.letAny z; clear z; intro z)
    | apply Same.ite
    | apply Same2.ite
    | apply ctxFail_frame
    | apply fon_frame
    | apply seqTake_frame
    | apply chargeSlice_frame
    | apply ioGo_frame
    | (apply Same2.out; apply seqTake_frame)
    | split
    | dsimp -zeta only
    | apply Same2.mk')

theorem execNvmeWrite_frame {m : Nat} {s0 : State} : ∀ x0 s, 146275922 &&& m = 146275922 → Same m s0 s → SameT m s0 (execNvmeWrite x0 s) := by
  intro x0 s hM h
  refine SameT.run hM h fun h0 => ?_
  unfold execNvmeWrite
  repeat' (with_reducible first
    | assumption
    | intro _
    | exact Same.bits rfl
    | apply SameT.next
    | apply Same.ite
    | apply ioRun_frame
    | apply zoneWrite_frame
    | apply convWrite_frame)

theorem execGetLogFirmwareSlot_frame {m : Nat} {s0 : State} : ∀ x0 s, 536872960 &&& m = 536872960 → Same m s0 s → SameT m s0 (execGetLogFirmwareSlot x0 s) := by
  intro x0 s hM h
  refine SameT.run hM h fun h0 => ?_
  unfold execGetLogFirmwareSlot
  repeat' (with_reducible first
    | assumption
    | intro _
    | exact Same.bits rfl
    | apply SameT.next
    | apply logRun_frame
    | apply openTaken_frame)

theorem shutdownEnd_frame {m : Nat} {s0 : State} : ∀ s x1, 2100226 &&& m = 2100226 → Same m s0 s → Same m s0 (shutdownEnd s x1) := by
  intro s x1 hM h
  refine Same.run hM h fun h0 => ?_
  unfold shutdownEnd
  repeat' (with_reducible first
    | assumption
    | exact Same.bits rfl
    | (extract_lets +onlyGivenNames z; clear_value z; apply Same.letAny z; clear z; intro z)
    | apply Same.ite
    | apply psRefresh_frame
    | apply portUpd_frame)

theorem execShutdownComplete_frame {m : Nat} {s0 : State} : ∀ x0 s, 2100226 &&& m = 2100226 → Same m s0 s → SameT m s0 (execShutdownComplete x0 s) := by
  intro x0 s hM h
  refine SameT.run hM h fun h0 => ?_
  unfold execShutdownComplete
  repeat' (with_reducible first
    | assumption
    | exact Same.bits rfl
    | apply SameT.next
    | apply shutdownEnd_frame)

theorem selftestEnd_frame {m : Nat} {s0 : State} : ∀ s x1, 2132994 &&& m = 2132994 → Same m s0 s → Same m s0 (selftestEnd s x1) := by
  intro s x1 hM h
  refine Same.run hM h fun h0 => ?_
  unfold selftestEnd
  repeat' (with_reducible first
    | assumption
    | intro _
    | exact Same.bits rfl
    | apply Same.ite
    | apply psRefresh_frame
    | apply dstRecord_frame
    | split
    | dsimp -zeta only)

theorem execSelftestEnd_frame {m : Nat} {s0 : State} : ∀ x0 s, 2132994 &&& m = 2132994 → Same m s0 s → SameT m s0 (execSelftestEnd x0 s) := by
  intro x0 s hM h
  refine SameT.run hM h fun h0 => ?_
  unfold execSelftestEnd
  repeat' (with_reducible first
    | assumption
    | exact Same.bits rfl
    | apply SameT.next
    | apply selftestEnd_frame
    | dsimp -zeta only)

theorem classEnd_frame {m : Nat} {s0 : State} : ∀ s x1 x2, 2098178 &&& m = 2098178 → Same m s0 s → Same m s0 (classEnd s x1 x2) := by
  intro s x1 x2 hM h
  refine Same.run hM h fun h0 => ?_
  unfold classEnd
  repeat' (with_reducible first
    | assumption
    | exact Same.bits rfl
    | (extract_lets +onlyGivenNames z; change State at z; apply Same.cutS h0 (x := z); unfold z; clear z; rotate_left; intro h; clear_value z; apply Same.letS h; clear h z; intro z h)
    | (extract_lets +onlyGivenNames z; clear_value z; apply Same.letAny z; clear z; intro z)
    | apply Same.ite
    | apply vinRead_frame
    | apply post_frame
    | apply backSet_frame
    | apply classShow_frame
    | (refine Same.updSgd ?_ rfl; assumption)
    | split)

theorem execDgeUdsClose_frame {m : Nat} {s0 : State} : ∀ x0 s, 2098194 &&& m = 2098194 → Same m s0 s → SameT m s0 (execDgeUdsClose x0 s) := by
  intro x0 s hM h
  refine SameT.run hM h fun h0 => ?_
  unfold execDgeUdsClose
  repeat' (with_reducible first
    | assumption
    | intro _
    | exact Same.bits rfl
    | apply SameT.next
    | apply gated_frame
    | apply wrLatch_frame)

theorem suspendTaken_frame {m : Nat} {s0 : State} : ∀ s x1 x2, 426018 &&& m = 426018 → Same m s0 s → Same m s0 (suspendTaken s x1 x2) := by
  intro s x1 x2 hM h
  refine Same.run hM h fun h0 => ?_
  unfold suspendTaken
  repeat' (with_reducible first
    | assumption
    | intro _
    | exact Same.bits rfl
    | (extract_lets +onlyGivenNames z; change State at z; apply Same.cutS h0 (x := z); unfold z; clear z; rotate_left; intro h; clear_value z; apply Same.letS h; clear h z; intro z h)
    | (extract_lets +onlyGivenNames z; change _ × _ × State at z; apply Same.cut22 h0 (x := z); unfold z; clear z; rotate_left; intro h; clear_value z; apply Same.let22 (x := z) h; clear h z; intro z h)
    | (extract_lets +onlyGivenNames z; change _ × State at z; apply Same.cut2 h0 (x := z); unfold z; clear z; rotate_left; intro h; clear_value z; apply Same.let2 (x := z) h; clear h z; intro z h)
    | (extract_lets +onlyGivenNames z; clear_value z; apply Same.letAny z; clear z; intro z)
    | apply Same.ite
    | apply reach_frame
    | apply finc_frame
    | apply issued_frame
    | apply ctxIdle_frame
    | apply complete_frame
    | apply chsPut_frame
    | (refine Same.updDsc ?_ rfl; assumption)
    | split
    | dsimp -zeta only)

theorem wordFound_frame {m : Nat} {s0 : State} : ∀ s x1 x2 x3 x4, 35652610 &&& m = 35652610 → Same m s0 s → Same m s0 (wordFound s x1 x2 x3 x4) := by
  intro s x1 x2 x3 x4 hM h
  refine Same.run hM h fun h0 => ?_
  unfold wordFound
  repeat' (with_reducible first
    | assumption
    | intro _
    | exact Same.bits rfl
    | (extract_lets +onlyGivenNames z; change State at z; apply Same.cutS h0 (x := z); unfold z; clear z; rotate_left; intro h; clear_value z; apply Same.letS h; clear h z; intro z h)
    | (extract_lets +onlyGivenNames z; change _ × _ × State at z; apply Same.cut22 h0 (x := z); unfold z; clear z; rotate_left; intro h; clear_value z; apply Same.let22 (x := z) h; clear h z; intro z h)
    | (extract_lets +onlyGivenNames z; change _ × State at z; apply Same.cut2 h0 (x := z); unfold z; clear z; rotate_left; intro h; clear_value z; apply Same.let2 (x := z) h; clear h z; intro z h)
    | (extract_lets +onlyGivenNames z; clear_value z; apply Same.letAny z; clear z; intro z)
    | apply wordsCorrected_frame
    | apply post_frame
    | apply fon_frame
    | apply Same.foldl
    | dsimp -zeta only)

theorem foldReads_frame {m : Nat} {s0 : State} : ∀ s x1 x2 x3 x4 x5, 32768 &&& m = 32768 → Same m s0 s → Same2 m s0 (foldReads s x1 x2 x3 x4 x5) := by
  have H : ∀ {s0 : State} s x1 x2 x3 x4 x5, Same 32768 s0 s → Same2 32768 s0 (foldReads s x1 x2 x3 x4 x5) := by
    intro s0 s x1 x2 x3 x4 x5 h0
    induction x5 generalizing s x1 x2 x3 x4 with
    | nil =>
      rw [foldReads]
      repeat' (with_reducible first
      | assumption
      | exact Same.bits rfl
      | apply ih
      | (extract_lets +onlyGivenNames z; change State at z; apply Same.cutS h0 (x := z); unfold z; clear z; rotate_left; intro h; clear_value z; apply Same.letS h; clear h z; intro z h)
      | (extract_lets +onlyGivenNames z; change _ × _ × State at z; apply Same.cut22 h0 (x := z); unfold z; clear z; rotate_left; intro h; clear_value z; apply Same.let22 (x := z) h; clear h z; intro z h)
      | (extract_lets +onlyGivenNames z; change _ × State at z; apply Same.cut2 h0 (x := z); unfold z; clear z; rotate_left; intro h; clear_value z; apply Same.let2 (x := z) h; clear h z; intro z h)
      | (extract_lets +onlyGivenNames z; clear_value z; apply Same.letAny z; clear z; intro z)
      | apply bgStart_frame
      | (apply Same2.out; apply ih)
      | split
      | dsimp -zeta only
      | apply Same2.mk')
    | cons k l ih =>
      rw [foldReads]
      repeat' (with_reducible first
      | assumption
      | exact Same.bits rfl
      | apply ih
      | (extract_lets +onlyGivenNames z; change State at z; apply Same.cutS h0 (x := z); unfold z; clear z; rotate_left; intro h; clear_value z; apply Same.letS h; clear h z; intro z h)
      | (extract_lets +onlyGivenNames z; change _ × _ × State at z; apply Same.cut22 h0 (x := z); unfold z; clear z; rotate_left; intro h; clear_value z; apply Same.let22 (x := z) h; clear h z; intro z h)
      | (extract_lets +onlyGivenNames z; change _ × State at z; apply Same.cut2 h0 (x := z); unfold z; clear z; rotate_left; intro h; clear_value z; apply Same.let2 (x := z) h; clear h z; intro z h)
      | (extract_lets +onlyGivenNames z; clear_value z; apply Same.letAny z; clear z; intro z)
      | apply bgStart_frame
      | (apply Same2.out; apply ih)
      | split
      | dsimp -zeta only
      | apply Same2.mk')
  intro s x1 x2 x3 x4 x5 hM h
  exact Same2.step hM (H s x1 x2 x3 x4 x5 (Same.refl _ _)) h

theorem foldZone_frame {m : Nat} {s0 : State} : ∀ s x1 x2 x3 x4, 3271682 &&& m = 3271682 → Same m s0 s → Same m s0 (foldZone s x1 x2 x3 x4) := by
  intro s x1 x2 x3 x4 hM h
  refine Same.run hM h fun h0 => ?_
  unfold foldZone
  repeat' (with_reducible first
    | assumption
    | intro _
    | exact Same.bits rfl
    | (extract_lets +onlyGivenNames z; change State at z; apply Same.cutS h0 (x := z); unfold z; clear z; rotate_left; intro h; clear_value z; apply Same.letS h; clear h z; intro z h)
    | (extract_lets +onlyGivenNames z; change _ × _ × State at z; apply Same.cut22 h0 (x := z); unfold z; clear z; rotate_left; intro h; clear_value z; apply Same.let22 (x := z) h; clear h z; intro z h)
    | (extract_lets +onlyGivenNames z; change _ × State at z; apply Same.cut2 h0 (x := z); unfold z; clear z; rotate_left; intro h; clear_value z; apply Same.let2 (x := z) h; clear h z; intro z h)
    | (extract_lets +onlyGivenNames z; clear_value z; apply Same.letAny z; clear z; intro z)
    | apply Same.ite
    | apply Same2.ite
    | apply foldReads_frame
    | apply foldSets_frame
    | apply fon_frame
    | apply zonePut_frame
    | apply foldsShow_frame
    | apply serveRead_frame
    | (refine Same.updDsc ?_ rfl; assumption)
    | (refine Same.updPlc ?_ rfl; assumption)
    | apply Same.foldl
    | apply Same2.foldl
    | (apply Same2.out; apply foldSets_frame)
    | (apply Same2.out; apply foldReads_frame)
    | split
    | dsimp -zeta only
    | apply Same2.mk')

theorem foldConv_frame {m : Nat} {s0 : State} : ∀ s x1, 3263490 &&& m = 3263490 → Same m s0 s → Same m s0 (foldConv s x1) := by
  intro s x1 hM h
  refine Same.run hM h fun h0 => ?_
  unfold foldConv
  repeat' (with_reducible first
    | assumption
    | intro _
    | exact Same.bits rfl
    | (extract_lets +onlyGivenNames z; change State at z; apply Same.cutS h0 (x := z); unfold z; clear z; rotate_left; intro h; clear_value z; apply Same.letS h; clear h z; intro z h)
    | (extract_lets +onlyGivenNames z; change _ × _ × State at z; apply Same.cut22 h0 (x := z); unfold z; clear z; rotate_left; intro h; clear_value z; apply Same.let22 (x := z) h; clear h z; intro z h)
    | (extract_lets +onlyGivenNames z; change _ × State at z; apply Same.cut2 h0 (x := z); unfold z; clear z; rotate_left; intro h; clear_value z; apply Same.let2 (x := z) h; clear h z; intro z h)
    | (extract_lets +onlyGivenNames z; change _ → _ at z; apply Same.cutF z; subst z)
    | (extract_lets +onlyGivenNames z; clear_value z; apply Same.letAny z; clear z; intro z)
    | apply Same.ite
    | apply copyUnit_frame
    | apply foldsShow_frame
    | (refine Same.updPlc ?_ rfl; assumption)
    | apply Same.foldl
    | split
    | dsimp -zeta only)

theorem foldStart_frame {m : Nat} {s0 : State} : ∀ s x1 x2, 3271682 &&& m = 3271682 → Same m s0 s → Same m s0 (foldStart s x1 x2) := by
  intro s x1 x2 hM h
  refine Same.run hM h fun h0 => ?_
  unfold foldStart
  repeat' (with_reducible first
    | assumption
    | intro _
    | exact Same.bits rfl
    | (extract_lets +onlyGivenNames z; change State at z; apply Same.cutS h0 (x := z); unfold z; clear z; rotate_left; intro h; clear_value z; apply Same.letS h; clear h z; intro z h)
    | (extract_lets +onlyGivenNames z; change _ × _ × State at z; apply Same.cut22 h0 (x := z); unfold z; clear z; rotate_left; intro h; clear_value z; apply Same.let22 (x := z) h; clear h z; intro z h)
    | (extract_lets +onlyGivenNames z; change _ × State at z; apply Same.cut2 h0 (x := z); unfold z; clear z; rotate_left; intro h; clear_value z; apply Same.let2 (x := z) h; clear h z; intro z h)
    | (extract_lets +onlyGivenNames z; clear_value z; apply Same.letAny z; clear z; intro z)
    | apply Same.ite
    | apply foldZone_frame
    | apply foldConv_frame
    | split
    | dsimp -zeta only)

theorem execFoldStart_frame {m : Nat} {s0 : State} : ∀ x0 x1 s, 3271682 &&& m = 3271682 → Same m s0 s → SameT m s0 (execFoldStart x0 x1 s) := by
  intro x0 x1 s hM h
  refine SameT.run hM h fun h0 => ?_
  unfold execFoldStart
  repeat' (with_reducible first
    | assumption
    | exact Same.bits rfl
    | apply SameT.next
    | apply foldStart_frame)

theorem chunkWrite_frame {m : Nat} {s0 : State} : ∀ s x1 x2 x3, 81922 &&& m = 81922 → Same m s0 s → Same m s0 (chunkWrite s x1 x2 x3) := by
  intro s x1 x2 x3 hM h
  refine Same.run hM h fun h0 => ?_
  unfold chunkWrite
  repeat' (with_reducible first
    | assumption
    | intro _
    | exact Same.bits rfl
    | apply metaWrite_frame
    | apply Same.foldl
    | apply Same2.foldl
    | (apply Same2.out; apply metaWrite_frame)
    | dsimp -zeta only
    | apply Same2.mk')

theorem chunksWrite_frame {m : Nat} {s0 : State} : ∀ s x1, 90114 &&& m = 90114 → Same m s0 s → Same m s0 (chunksWrite s x1) := by
  intro s x1 hM h
  refine Same.run hM h fun h0 => ?_
  unfold chunksWrite
  repeat' (with_reducible first
    | assumption
    | intro _
    | exact Same.bits rfl
    | (extract_lets +onlyGivenNames z; change State at z; apply Same.cutS h0 (x := z); unfold z; clear z; rotate_left; intro h; clear_value z; apply Same.letS h; clear h z; intro z h)
    | (extract_lets +onlyGivenNames z; change _ × _ × State at z; apply Same.cut22 h0 (x := z); unfold z; clear z; rotate_left; intro h; clear_value z; apply Same.let22 (x := z) h; clear h z; intro z h)
    | (extract_lets +onlyGivenNames z; change _ × State at z; apply Same.cut2 h0 (x := z); unfold z; clear z; rotate_left; intro h; clear_value z; apply Same.let2 (x := z) h; clear h z; intro z h)
    | (extract_lets +onlyGivenNames z; clear_value z; apply Same.letAny z; clear z; intro z)
    | apply chunkWrite_frame
    | apply journal_frame
    | apply Same.foldl
    | dsimp -zeta only)

theorem chunksDrop_frame {m : Nat} {s0 : State} : ∀ s x1, 65538 &&& m = 65538 → Same m s0 s → Same m s0 (chunksDrop s x1) := by
  intro s x1 hM h
  refine Same.run hM h fun h0 => ?_
  unfold chunksDrop
  repeat' (with_reducible first
    | assumption
    | intro _
    | exact Same.bits rfl
    | (extract_lets +onlyGivenNames z; change State at z; apply Same.cutS h0 (x := z); unfold z; clear z; rotate_left; intro h; clear_value z; apply Same.letS h; clear h z; intro z h)
    | (extract_lets +onlyGivenNames z; change _ × _ × State at z; apply Same.cut22 h0 (x := z); unfold z; clear z; rotate_left; intro h; clear_value z; apply Same.let22 (x := z) h; clear h z; intro z h)
    | (extract_lets +onlyGivenNames z; change _ × State at z; apply Same.cut2 h0 (x := z); unfold z; clear z; rotate_left; intro h; clear_value z; apply Same.let2 (x := z) h; clear h z; intro z h)
    | (extract_lets +onlyGivenNames z; clear_value z; apply Same.letAny z; clear z; intro z)
    | apply metaUnitDrop_frame
    | (refine Same.updMed ?_ rfl; assumption)
    | apply Same.foldl
    | split
    | dsimp -zeta only)

theorem anchorAppend_frame {m : Nat} {s0 : State} : ∀ s x1 x2 x3, 33554432 &&& m = 33554432 → Same m s0 s → Same m s0 (anchorAppend s x1 x2 x3) := by
  intro s x1 x2 x3 hM h
  refine Same.run hM h fun h0 => ?_
  unfold anchorAppend
  repeat' (with_reducible first
    | assumption
    | intro _
    | exact Same.bits rfl
    | (extract_lets +onlyGivenNames z; change State at z; apply Same.cutS h0 (x := z); unfold z; clear z; rotate_left; intro h; clear_value z; apply Same.letS h; clear h z; intro z h)
    | (extract_lets +onlyGivenNames z; change _ × _ × State at z; apply Same.cut22 h0 (x := z); unfold z; clear z; rotate_left; intro h; clear_value z; apply Same.let22 (x := z) h; clear h z; intro z h)
    | (extract_lets +onlyGivenNames z; change _ × State at z; apply Same.cut2 h0 (x := z); unfold z; clear z; rotate_left; intro h; clear_value z; apply Same.let2 (x := z) h; clear h z; intro z h)
    | (extract_lets +onlyGivenNames z; clear_value z; apply Same.letAny z; clear z; intro z)
    | apply Same.ite
    | (refine Same.updCls ?_ rfl; assumption)
    | apply Same.foldl
    | split
    | dsimp -zeta only)

theorem checkpointEnd_frame {m : Nat} {s0 : State} : ∀ s, 33677346 &&& m = 33677346 → Same m s0 s → Same m s0 (checkpointEnd s) := by
  intro s hM h
  refine Same.run hM h fun h0 => ?_
  unfold checkpointEnd
  repeat' (with_reducible first
    | assumption
    | exact Same.bits rfl
    | (extract_lets +onlyGivenNames z; change State at z; apply Same.cutS h0 (x := z); unfold z; clear z; rotate_left; intro h; clear_value z; apply Same.letS h; clear h z; intro z h)
    | (extract_lets +onlyGivenNames z; change _ × _ × State at z; apply Same.cut22 h0 (x := z); unfold z; clear z; rotate_left; intro h; clear_value z; apply Same.let22 (x := z) h; clear h z; intro z h)
    | (extract_lets +onlyGivenNames z; change _ × State at z; apply Same.cut2 h0 (x := z); unfold z; clear z; rotate_left; intro h; clear_value z; apply Same.let2 (x := z) h; clear h z; intro z h)
    | (extract_lets +onlyGivenNames z; clear_value z; apply Same.letAny z; clear z; intro z)
    | apply Same.ite
    | apply Same2.ite
    | apply reach_frame
    | apply anchorAppend_frame
    | apply chunksDrop_frame
    | apply tailWrite_frame
    | apply chunksWrite_frame
    | apply emgErase_frame
    | (refine Same.updMed ?_ rfl; assumption)
    | split
    | dsimp -zeta only
    | apply Same2.mk')

theorem execCheckpointCycleEnd_frame {m : Nat} {s0 : State} : ∀ s, 33677346 &&& m = 33677346 → Same m s0 s → SameT m s0 (execCheckpointCycleEnd s) := by
  intro s hM h
  refine SameT.run hM h fun h0 => ?_
  unfold execCheckpointCycleEnd
  repeat' (with_reducible first
    | assumption
    | exact Same.bits rfl
    | apply SameT.next
    | apply checkpointEnd_frame)

theorem execDscIssue_frame {m : Nat} {s0 : State} : ∀ x0 s, 163842 &&& m = 163842 → Same m s0 s → SameT m s0 (execDscIssue x0 s) := by
  intro x0 s hM h
  refine SameT.run hM h fun h0 => ?_
  unfold execDscIssue
  repeat' (with_reducible first
    | assumption
    | exact Same.bits rfl
    | apply SameT.next
    | apply dscIssue_frame)

theorem execSliceQuery_frame {m : Nat} {s0 : State} : ∀ x0 s, 2100866 &&& m = 2100866 → Same m s0 s → SameT m s0 (execSliceQuery x0 s) := by
  intro x0 s hM h
  refine SameT.run hM h fun h0 => ?_
  unfold execSliceQuery
  repeat' (with_reducible first
    | assumption
    | intro _
    | exact Same.bits rfl
    | apply SameT.next
    | apply mbxRun_frame
    | apply OpKeeps.opDef
    | apply Same2.mk')

theorem flushEnd_frame {m : Nat} {s0 : State} : ∀ s, 1026 &&& m = 1026 → Same m s0 s → Same m s0 (flushEnd s) := by
  intro s hM h
  refine Same.run hM h fun h0 => ?_
  unfold flushEnd
  repeat' (with_reducible first
    | assumption
    | exact Same.bits rfl
    | (extract_lets +onlyGivenNames z; clear_value z; apply Same.letAny z; clear z; intro z)
    | apply finc_frame
    | (refine Same.updLkt ?_ rfl; assumption)
    | split)

theorem execDgeSha384_frame {m : Nat} {s0 : State} : ∀ x0 s, 687341138 &&& m = 687341138 → Same m s0 s → SameT m s0 (execDgeSha384 x0 s) := by
  intro x0 s hM h
  refine SameT.run hM h fun h0 => ?_
  unfold execDgeSha384
  repeat' (with_reducible first
    | assumption
    | exact Same.bits rfl
    | apply SameT.next
    | apply dgeDone_frame
    | dsimp -zeta only)

theorem execContinuousReadStop_frame {m : Nat} {s0 : State} : ∀ x0 s, 35652626 &&& m = 35652626 → Same m s0 s → SameT m s0 (execContinuousReadStop x0 s) := by
  intro x0 s hM h
  refine SameT.run hM h fun h0 => ?_
  unfold execContinuousReadStop
  repeat' (with_reducible first
    | assumption
    | intro _
    | exact Same.bits rfl
    | apply SameT.next
    | apply gated_frame
    | apply crStop_frame)

theorem execBankOvervoltage_frame {m : Nat} {s0 : State} : ∀ x0 s, 2098178 &&& m = 2098178 → Same m s0 s → SameT m s0 (execBankOvervoltage x0 s) := by
  intro x0 s hM h
  refine SameT.run hM h fun h0 => ?_
  unfold execBankOvervoltage
  repeat' (with_reducible first
    | assumption
    | exact Same.bits rfl
    | apply SameT.next
    | (extract_lets +onlyGivenNames z; change State at z; apply Same.cutS h0 (x := z); unfold z; clear z; rotate_left; intro h; clear_value z; apply Same.letS h; clear h z; intro z h)
    | (extract_lets +onlyGivenNames z; change _ × _ × State at z; apply Same.cut22 h0 (x := z); unfold z; clear z; rotate_left; intro h; clear_value z; apply Same.let22 (x := z) h; clear h z; intro z h)
    | (extract_lets +onlyGivenNames z; change _ × State at z; apply Same.cut2 h0 (x := z); unfold z; clear z; rotate_left; intro h; clear_value z; apply Same.let2 (x := z) h; clear h z; intro z h)
    | (extract_lets +onlyGivenNames z; clear_value z; apply Same.letAny z; clear z; intro z)
    | apply SameT.ite
    | apply Same.ite
    | apply fon_frame
    | apply bankShow_frame
    | apply chgUpdate_frame
    | apply post_frame
    | apply bankRead_frame
    | (refine Same.updSgd ?_ rfl; assumption)
    | split
    | dsimp -zeta only)

theorem recoveryExit_frame {m : Nat} {s0 : State} : ∀ s, 103976482 &&& m = 103976482 → Same m s0 s → Same m s0 (recoveryExit s) := by
  intro s hM h
  refine Same.run hM h fun h0 => ?_
  unfold recoveryExit
  repeat' (with_reducible first
    | assumption
    | exact Same.bits rfl
    | apply Same.ite
    | apply resetFlush_frame
    | apply reach_frame
    | split)

theorem execRecoveryExit_frame {m : Nat} {s0 : State} : ∀ s, 103976482 &&& m = 103976482 → Same m s0 s → SameT m s0 (execRecoveryExit s) := by
  intro s hM h
  refine SameT.run hM h fun h0 => ?_
  unfold execRecoveryExit
  repeat' (with_reducible first
    | assumption
    | exact Same.bits rfl
    | apply SameT.next
    | apply recoveryExit_frame)

theorem sensorRead_frame {m : Nat} {s0 : State} : ∀ s x1 x2, 270533634 &&& m = 270533634 → Same m s0 s → Same m s0 (sensorRead s x1 x2) := by
  intro s x1 x2 hM h
  refine Same.run hM h fun h0 => ?_
  unfold sensorRead
  repeat' (with_reducible first
    | assumption
    | exact Same.bits rfl
    | (extract_lets +onlyGivenNames z; change State at z; apply Same.cutS h0 (x := z); unfold z; clear z; rotate_left; intro h; clear_value z; apply Same.letS h; clear h z; intro z h)
    | (extract_lets +onlyGivenNames z; clear_value z; apply Same.letAny z; clear z; intro z)
    | apply Same.ite
    | apply fset_frame
    | apply fon_frame
    | apply post_frame
    | (refine Same.updTsn ?_ rfl; assumption))

theorem rallyShow_frame {m : Nat} {s0 : State} : ∀ s, 2 &&& m = 2 → Same m s0 s → Same m s0 (rallyShow s) := by
  intro s hM h
  refine Same.run hM h fun h0 => ?_
  unfold rallyShow
  repeat' (with_reducible first
    | assumption
    | intro _
    | exact Same.bits rfl
    | (extract_lets +onlyGivenNames z; change State at z; apply Same.cutS h0 (x := z); unfold z; clear z; rotate_left; intro h; clear_value z; apply Same.letS h; clear h z; intro z h)
    | (extract_lets +onlyGivenNames z; clear_value z; apply Same.letAny z; clear z; intro z)
    | apply fset_frame
    | apply Same.foldl
    | split)

theorem execFwDownload_frame {m : Nat} {s0 : State} : ∀ x0 s, 102764162 &&& m = 102764162 → Same m s0 s → SameT m s0 (execFwDownload x0 s) := by
  intro x0 s hM h
  refine SameT.run hM h fun h0 => ?_
  unfold execFwDownload
  repeat' (with_reducible first
    | unfold fwDownloadDef
    | assumption
    | intro _
    | exact Same.bits rfl
    | apply SameT.next
    | apply mbxRun_frame
    | (apply Same2.out; apply fwDownload_frame)
    | apply OpKeeps.of
    | apply Same2.mk')

theorem execSetFeaturesInterruptCoalescing_frame {m : Nat} {s0 : State} : ∀ x0 s, 2048 &&& m = 2048 → Same m s0 s → SameT m s0 (execSetFeaturesInterruptCoalescing x0 s) := by
  intro x0 s hM h
  refine SameT.run hM h fun h0 => ?_
  unfold execSetFeaturesInterruptCoalescing
  repeat' (with_reducible first
    | assumption
    | intro _
    | exact Same.bits rfl
    | apply SameT.next
    | apply featRun_frame
    | apply featUpd_frame
    | dsimp -zeta only)

theorem execDescReadParam_frame {m : Nat} {s0 : State} : ∀ x0 s, 146275922 &&& m = 146275922 → Same m s0 s → SameT m s0 (execDescReadParam x0 s) := by
  intro x0 s hM h
  refine SameT.run hM h fun h0 => ?_
  unfold execDescReadParam
  repeat' (with_reducible first
    | assumption
    | exact Same.bits rfl
    | apply SameT.next
    | apply takeOp_frame)

theorem execHostReadCompletionTimeout_frame {m : Nat} {s0 : State} : ∀ x0 s, 2050 &&& m = 2050 → Same m s0 s → SameT m s0 (execHostReadCompletionTimeout x0 s) := by
  intro x0 s hM h
  refine SameT.run hM h fun h0 => ?_
  unfold execHostReadCompletionTimeout
  repeat' (with_reducible first
    | assumption
    | exact Same.bits rfl
    | apply SameT.next
    | apply Same.ite
    | apply dmaError_frame)

theorem countRead_frame {m : Nat} {s0 : State} : ∀ s x1 x2 x3, 32770 &&& m = 32770 → Same m s0 s → Same m s0 (countRead s x1 x2 x3) := by
  intro s x1 x2 x3 hM h
  refine Same.run hM h fun h0 => ?_
  unfold countRead
  repeat' (with_reducible first
    | assumption
    | exact Same.bits rfl
    | (extract_lets +onlyGivenNames z; change State at z; apply Same.cutS h0 (x := z); unfold z; clear z; rotate_left; intro h; clear_value z; apply Same.letS h; clear h z; intro z h)
    | (extract_lets +onlyGivenNames z; change _ × _ × State at z; apply Same.cut22 h0 (x := z); unfold z; clear z; rotate_left; intro h; clear_value z; apply Same.let22 (x := z) h; clear h z; intro z h)
    | (extract_lets +onlyGivenNames z; change _ × State at z; apply Same.cut2 h0 (x := z); unfold z; clear z; rotate_left; intro h; clear_value z; apply Same.let2 (x := z) h; clear h z; intro z h)
    | (extract_lets +onlyGivenNames z; clear_value z; apply Same.letAny z; clear z; intro z)
    | apply fadd_frame
    | (refine Same.updDsc ?_ rfl; assumption)
    | dsimp -zeta only)

theorem execDescReadId_frame {m : Nat} {s0 : State} : ∀ x0 s, 146275922 &&& m = 146275922 → Same m s0 s → SameT m s0 (execDescReadId x0 s) := by
  intro x0 s hM h
  refine SameT.run hM h fun h0 => ?_
  unfold execDescReadId
  repeat' (with_reducible first
    | assumption
    | exact Same.bits rfl
    | apply SameT.next
    | apply takeOp_frame)

theorem selftestStart_frame {m : Nat} {s0 : State} : ∀ x0 s, 3263490 &&& m = 3263490 → Same m s0 s → Same2 m s0 (selftestStart x0 s) := by
  intro x0 s hM h
  refine Same2.run hM h fun h0 => ?_
  unfold selftestStart
  repeat' (with_reducible first
    | assumption
    | exact Same.bits rfl
    | apply Same2.ite
    | apply dstStart_frame
    | split
    | apply Same2.mk')

theorem execSvcChallenge_frame {m : Nat} {s0 : State} : ∀ s, 4194560 &&& m = 4194560 → Same m s0 s → SameT m s0 (execSvcChallenge s) := by
  intro s hM h
  refine SameT.run hM h fun h0 => ?_
  unfold execSvcChallenge
  repeat' (with_reducible first
    | assumption
    | exact Same.bits rfl
    | apply SameT.next
    | apply svcChallenge_frame)

theorem execStagingCopy_frame {m : Nat} {s0 : State} : ∀ x0 x1 s, 653314 &&& m = 653314 → Same m s0 s → SameT m s0 (execStagingCopy x0 x1 s) := by
  intro x0 x1 s hM h
  refine SameT.run hM h fun h0 => ?_
  unfold execStagingCopy
  repeat' (with_reducible first
    | assumption
    | exact Same.bits rfl
    | apply SameT.next
    | apply stagingCopy_frame)

theorem readCounts_frame {m : Nat} {s0 : State} : ∀ s x1 x2, 36866 &&& m = 36866 → Same m s0 s → Same m s0 (readCounts s x1 x2) := by
  intro s x1 x2 hM h
  refine Same.run hM h fun h0 => ?_
  unfold readCounts
  repeat' (with_reducible first
    | assumption
    | intro _
    | exact Same.bits rfl
    | (extract_lets +onlyGivenNames z; change State at z; apply Same.cutS h0 (x := z); unfold z; clear z; rotate_left; intro h; clear_value z; apply Same.letS h; clear h z; intro z h)
    | (extract_lets +onlyGivenNames z; change _ × _ × State at z; apply Same.cut22 h0 (x := z); unfold z; clear z; rotate_left; intro h; clear_value z; apply Same.let22 (x := z) h; clear h z; intro z h)
    | (extract_lets +onlyGivenNames z; change _ × State at z; apply Same.cut2 h0 (x := z); unfold z; clear z; rotate_left; intro h; clear_value z; apply Same.let2 (x := z) h; clear h z; intro z h)
    | (extract_lets +onlyGivenNames z; clear_value z; apply Same.letAny z; clear z; intro z)
    | apply Same.ite
    | apply countRead_frame
    | apply sliceUpd_frame
    | apply Same.foldl
    | split
    | dsimp -zeta only)

theorem execFwCommitActivate_frame {m : Nat} {s0 : State} : ∀ x0 s, 104066690 &&& m = 104066690 → Same m s0 s → SameT m s0 (execFwCommitActivate x0 s) := by
  intro x0 s hM h
  refine SameT.run hM h fun h0 => ?_
  unfold execFwCommitActivate
  repeat' (with_reducible first
    | unfold fwCommitDef
    | assumption
    | intro _
    | exact Same.bits rfl
    | apply SameT.next
    | apply mbxRun_frame
    | apply fwCommit_frame
    | apply OpKeeps.opDef)

theorem execNvmeMiControllerHealthPoll_frame {m : Nat} {s0 : State} : ∀ x0 x1 s, 2100738 &&& m = 2100738 → Same m s0 s → SameT m s0 (execNvmeMiControllerHealthPoll x0 x1 s) := by
  intro x0 x1 s hM h
  refine SameT.run hM h fun h0 => ?_
  unfold execNvmeMiControllerHealthPoll
  repeat' (with_reducible first
    | assumption
    | exact Same.bits rfl
    | apply SameT.next
    | (extract_lets +onlyGivenNames z; clear_value z; apply Same.letAny z; clear z; intro z)
    | apply Same.ite
    | apply sbSay_frame)

theorem sramScrub_frame {m : Nat} {s0 : State} : ∀ s x1 x2 x3 x4, 8384130 &&& m = 8384130 → Same m s0 s → Same m s0 (sramScrub s x1 x2 x3 x4) := by
  intro s x1 x2 x3 x4 hM h
  refine Same.run hM h fun h0 => ?_
  unfold sramScrub
  repeat' (with_reducible first
    | assumption
    | exact Same.bits rfl
    | (extract_lets +onlyGivenNames z; change State at z; apply Same.cutS h0 (x := z); unfold z; clear z; rotate_left; intro h; clear_value z; apply Same.letS h; clear h z; intro z h)
    | (extract_lets +onlyGivenNames z; change _ × _ × State at z; apply Same.cut22 h0 (x := z); unfold z; clear z; rotate_left; intro h; clear_value z; apply Same.let22 (x := z) h; clear h z; intro z h)
    | (extract_lets +onlyGivenNames z; change _ × State at z; apply Same.cut2 h0 (x := z); unfold z; clear z; rotate_left; intro h; clear_value z; apply Same.let2 (x := z) h; clear h z; intro z h)
    | (extract_lets +onlyGivenNames z; clear_value z; apply Same.letAny z; clear z; intro z)
    | apply Same.ite
    | apply Same2.ite
    | apply sramLook_frame
    | apply finc_frame
    | (apply Same2.out; apply sramLook_frame)
    | split
    | dsimp -zeta only
    | apply Same2.mk')

theorem execSramScrubRead_frame {m : Nat} {s0 : State} : ∀ x0 x1 x2 x3 s, 8384130 &&& m = 8384130 → Same m s0 s → SameT m s0 (execSramScrubRead x0 x1 x2 x3 s) := by
  intro x0 x1 x2 x3 s hM h
  refine SameT.run hM h fun h0 => ?_
  unfold execSramScrubRead
  repeat' (with_reducible first
    | assumption
    | exact Same.bits rfl
    | apply SameT.next
    | apply sramScrub_frame)

theorem reseed_frame {m : Nat} {s0 : State} : ∀ s x1, 2098178 &&& m = 2098178 → Same m s0 s → Same m s0 (reseed s x1) := by
  intro s x1 hM h
  refine Same.run hM h fun h0 => ?_
  unfold reseed
  repeat' (with_reducible first
    | assumption
    | exact Same.bits rfl
    | (extract_lets +onlyGivenNames z; change State at z; apply Same.cutS h0 (x := z); unfold z; clear z; rotate_left; intro h; clear_value z; apply Same.letS h; clear h z; intro z h)
    | apply Same.ite
    | apply foff_frame
    | apply fon_frame
    | apply finc_frame
    | apply post_frame)

theorem execDrbgReseed_frame {m : Nat} {s0 : State} : ∀ x0 s, 2098178 &&& m = 2098178 → Same m s0 s → SameT m s0 (execDrbgReseed x0 s) := by
  intro x0 s hM h
  refine SameT.run hM h fun h0 => ?_
  unfold execDrbgReseed
  repeat' (with_reducible first
    | assumption
    | exact Same.bits rfl
    | apply SameT.next
    | apply reseed_frame)

theorem inbandEnable_frame {m : Nat} {s0 : State} : ∀ x0 s, 67108864 &&& m = 67108864 → Same m s0 s → Same2 m s0 (inbandEnable x0 s) := by
  intro x0 s hM h
  refine Same2.run hM h fun h0 => ?_
  unfold inbandEnable
  repeat' (with_reducible first
    | assumption
    | exact Same.bits rfl
    | apply Same2.ite
    | apply setPut_frame
    | apply Same2.mk')

theorem execFwInbandEnable_frame {m : Nat} {s0 : State} : ∀ x0 s, 69209730 &&& m = 69209730 → Same m s0 s → SameT m s0 (execFwInbandEnable x0 s) := by
  intro x0 s hM h
  refine SameT.run hM h fun h0 => ?_
  unfold execFwInbandEnable
  repeat' (with_reducible first
    | assumption
    | intro _
    | exact Same.bits rfl
    | apply SameT.next
    | apply mbxRun_frame
    | apply inbandEnable_frame
    | apply OpKeeps.opDef)

theorem execBufferAlloc_frame {m : Nat} {s0 : State} : ∀ x0 x1 x2 x3 x4 x5 s, 2360322 &&& m = 2360322 → Same m s0 s → SameT m s0 (execBufferAlloc x0 x1 x2 x3 x4 x5 s) := by
  intro x0 x1 x2 x3 x4 x5 s hM h
  refine SameT.run hM h fun h0 => ?_
  unfold execBufferAlloc
  repeat' (with_reducible first
    | assumption
    | exact Same.bits rfl
    | apply SameT.next
    | apply SameT.ite
    | apply Same.ite
    | apply bufRequest_frame
    | split
    | dsimp -zeta only)

theorem dstRun_frame {m : Nat} {s0 : State} : ∀ s x1 x2, 3263490 &&& m = 3263490 → Same m s0 s → Same m s0 (dstRun s x1 x2) := by
  intro s x1 x2 hM h
  refine Same.run hM h fun h0 => ?_
  unfold dstRun
  repeat' (with_reducible first
    | assumption
    | intro _
    | exact Same.bits rfl
    | apply Same2.ite
    | apply adminRun_frame
    | apply psRefresh_frame
    | apply dstStart_frame
    | apply Same2.out
    | apply Same2.mk')

theorem execSpdmGetCertificate_frame {m : Nat} {s0 : State} : ∀ x0 x1 x2 x3 s, 2100354 &&& m = 2100354 → Same m s0 s → SameT m s0 (execSpdmGetCertificate x0 x1 x2 x3 s) := by
  intro x0 x1 x2 x3 s hM h
  refine SameT.run hM h fun h0 => ?_
  unfold execSpdmGetCertificate
  repeat' (with_reducible first
    | assumption
    | intro _
    | exact Same.bits rfl
    | apply SameT.next
    | apply spdmSlot_frame
    | apply spdmSay_frame
    | split
    | dsimp -zeta only)

theorem codeAt_frame {m : Nat} {s0 : State} : ∀ s x1 x2, 536870912 &&& m = 536870912 → Same m s0 s → Same2 m s0 (codeAt s x1 x2) := by
  intro s x1 x2 hM h
  refine Same2.run hM h fun h0 => ?_
  unfold codeAt
  repeat' (with_reducible first
    | assumption
    | exact Same.bits rfl
    | apply Same.ite
    | apply Same2.ite
    | apply openTaken_frame
    | split
    | dsimp -zeta only
    | apply Same2.mk')

theorem aluDo_frame {m : Nat} {s0 : State} : ∀ s x1 x2 x3, 536870912 &&& m = 536870912 → Same m s0 s → Same2 m s0 (aluDo s x1 x2 x3) := by
  intro s x1 x2 x3 hM h
  refine Same2.run hM h fun h0 => ?_
  unfold aluDo
  repeat' (with_reducible first
    | assumption
    | exact Same.bits rfl
    | (extract_lets +onlyGivenNames z; change _ × State at z; apply Same.cut2 h0 (x := z); unfold z; clear z; rotate_left; intro h; clear_value z; apply Same.let2 (x := z) h; clear h z; intro z h)
    | apply Same2.ite
    | apply openTaken_frame
    | apply codeAt_frame
    | split
    | apply Same2.mk')

theorem execClassRead_frame {m : Nat} {s0 : State} : ∀ x0 s, 2100866 &&& m = 2100866 → Same m s0 s → SameT m s0 (execClassRead x0 s) := by
  intro x0 s hM h
  refine SameT.run hM h fun h0 => ?_
  unfold execClassRead
  repeat' (with_reducible first
    | assumption
    | intro _
    | exact Same.bits rfl
    | apply SameT.next
    | apply mbxRun_frame
    | apply OpKeeps.opDef
    | apply Same2.mk')

theorem classWrite_frame {m : Nat} {s0 : State} : ∀ x0 x1 s, 90114 &&& m = 90114 → Same m s0 s → Same2 m s0 (classWrite x0 x1 s) := by
  intro x0 x1 s hM h
  refine Same2.run hM h fun h0 => ?_
  unfold classWrite
  repeat' (with_reducible first
    | assumption
    | exact Same.bits rfl
    | (extract_lets +onlyGivenNames z; clear_value z; apply Same.letAny z; clear z; intro z)
    | apply Same2.ite
    | apply journalDef_frame
    | (refine Same.updPlc ?_ rfl; assumption)
    | apply Same2.mk')

theorem execClassWrite_frame {m : Nat} {s0 : State} : ∀ x0 s, 2190978 &&& m = 2190978 → Same m s0 s → SameT m s0 (execClassWrite x0 s) := by
  intro x0 s hM h
  refine SameT.run hM h fun h0 => ?_
  unfold execClassWrite
  repeat' (with_reducible first
    | assumption
    | intro _
    | exact Same.bits rfl
    | apply SameT.next
    | apply mbxRun_frame
    | apply classWrite_frame
    | apply OpKeeps.opDef)

theorem classMaskSet_frame {m : Nat} {s0 : State} : ∀ x0 x1 x2 s, 94210 &&& m = 94210 → Same m s0 s → Same2 m s0 (classMaskSet x0 x1 x2 s) := by
  intro x0 x1 x2 s hM h
  refine Same2.run hM h fun h0 => ?_
  unfold classMaskSet
  repeat' (with_reducible first
    | assumption
    | exact Same.bits rfl
    | (extract_lets +onlyGivenNames z; change _ → _ at z; apply Same.cutF z; subst z)
    | apply Same2.ite
    | apply journalDef_frame
    | apply sliceUpd_frame
    | split
    | apply Same2.mk')

theorem execClassMaskSet_frame {m : Nat} {s0 : State} : ∀ x0 s, 2195074 &&& m = 2195074 → Same m s0 s → SameT m s0 (execClassMaskSet x0 s) := by
  intro x0 s hM h
  refine SameT.run hM h fun h0 => ?_
  unfold execClassMaskSet
  repeat' (with_reducible first
    | assumption
    | intro _
    | exact Same.bits rfl
    | apply SameT.next
    | apply mbxRun_frame
    | apply classMaskSet_frame
    | apply OpKeeps.opDef)

theorem execUmpStatus_frame {m : Nat} {s0 : State} : ∀ x0 s, 2100866 &&& m = 2100866 → Same m s0 s → SameT m s0 (execUmpStatus x0 s) := by
  intro x0 s hM h
  refine SameT.run hM h fun h0 => ?_
  unfold execUmpStatus
  repeat' (with_reducible first
    | assumption
    | intro _
    | exact Same.bits rfl
    | apply SameT.next
    | apply mbxRun_frame
    | apply OpKeeps.opDef
    | apply Same2.mk')

theorem postPlacing_frame {m : Nat} {s0 : State} : ∀ x0 x1 s, 69303938 &&& m = 69303938 → Same m s0 s → SameT m s0 (postPlacing x0 x1 s) := by
  intro x0 x1 s hM h
  refine SameT.run hM h fun h0 => ?_
  unfold postPlacing
  repeat' (with_reducible first
    | assumption
    | exact Same.bits rfl
    | apply SameT.next
    | apply SameT.ite
    | apply Same.ite
    | apply execClassRead_frame
    | apply execClassWrite_frame
    | apply execClassMaskSet_frame
    | apply execPlacementStatus_frame
    | apply execUmpStatus_frame
    | apply execUmpSetBudget_frame
    | apply execUmpSetPpLimit_frame
    | split
    | dsimp -zeta only)

theorem execGetCaps_frame {m : Nat} {s0 : State} : ∀ x0 s, 2100866 &&& m = 2100866 → Same m s0 s → SameT m s0 (execGetCaps x0 s) := by
  intro x0 s hM h
  refine SameT.run hM h fun h0 => ?_
  unfold execGetCaps
  repeat' (with_reducible first
    | assumption
    | exact Same.bits rfl
    | apply SameT.next
    | apply mbxRun_frame
    | apply OpKeeps.opRead)

theorem execGetIdentity_frame {m : Nat} {s0 : State} : ∀ x0 s, 2100866 &&& m = 2100866 → Same m s0 s → SameT m s0 (execGetIdentity x0 s) := by
  intro x0 s hM h
  refine SameT.run hM h fun h0 => ?_
  unfold execGetIdentity
  repeat' (with_reducible first
    | assumption
    | exact Same.bits rfl
    | apply SameT.next
    | apply mbxRun_frame
    | apply OpKeeps.opRead)

theorem execGetOpcodes_frame {m : Nat} {s0 : State} : ∀ x0 s, 2100866 &&& m = 2100866 → Same m s0 s → SameT m s0 (execGetOpcodes x0 s) := by
  intro x0 s hM h
  refine SameT.run hM h fun h0 => ?_
  unfold execGetOpcodes
  repeat' (with_reducible first
    | assumption
    | exact Same.bits rfl
    | apply SameT.next
    | apply mbxRun_frame
    | apply OpKeeps.opRead)

theorem execGetHealth_frame {m : Nat} {s0 : State} : ∀ x0 s, 2100866 &&& m = 2100866 → Same m s0 s → SameT m s0 (execGetHealth x0 s) := by
  intro x0 s hM h
  refine SameT.run hM h fun h0 => ?_
  unfold execGetHealth
  repeat' (with_reducible first
    | assumption
    | exact Same.bits rfl
    | apply SameT.next
    | apply mbxRun_frame
    | apply OpKeeps.opRead)

theorem postGeneral_frame {m : Nat} {s0 : State} : ∀ x0 x1 s, 805306078 &&& m = 805306078 → Same m s0 s → SameT m s0 (postGeneral x0 x1 s) := by
  intro x0 x1 s hM h
  refine SameT.run hM h fun h0 => ?_
  unfold postGeneral
  repeat' (with_reducible first
    | assumption
    | exact Same.bits rfl
    | apply SameT.next
    | apply SameT.ite
    | apply Same.ite
    | apply execGetIdentity_frame
    | apply execGetCaps_frame
    | apply execGetOpcodes_frame
    | apply execGetSession_frame
    | apply execGetHealth_frame
    | apply execRegRead_frame
    | apply execRegWrite_frame
    | split
    | dsimp -zeta only)

theorem execAgeReport_frame {m : Nat} {s0 : State} : ∀ x0 s, 2100866 &&& m = 2100866 → Same m s0 s → SameT m s0 (execAgeReport x0 s) := by
  intro x0 s hM h
  refine SameT.run hM h fun h0 => ?_
  unfold execAgeReport
  repeat' (with_reducible first
    | assumption
    | intro _
    | exact Same.bits rfl
    | apply SameT.next
    | apply mbxRun_frame
    | apply OpKeeps.opDef
    | apply Same2.mk')

theorem execAgeSummary_frame {m : Nat} {s0 : State} : ∀ x0 s, 2100866 &&& m = 2100866 → Same m s0 s → SameT m s0 (execAgeSummary x0 s) := by
  intro x0 s hM h
  refine SameT.run hM h fun h0 => ?_
  unfold execAgeSummary
  repeat' (with_reducible first
    | assumption
    | exact Same.bits rfl
    | apply SameT.next
    | apply mbxRun_frame
    | apply OpKeeps.opRead)

theorem execDiagCounters_frame {m : Nat} {s0 : State} : ∀ x0 s, 2100866 &&& m = 2100866 → Same m s0 s → SameT m s0 (execDiagCounters x0 s) := by
  intro x0 s hM h
  refine SameT.run hM h fun h0 => ?_
  unfold execDiagCounters
  repeat' (with_reducible first
    | assumption
    | exact Same.bits rfl
    | apply SameT.next
    | apply mbxRun_frame
    | apply OpKeeps.opRead)

theorem cardReturn_frame {m : Nat} {s0 : State} : ∀ s x1, 137620498 &&& m = 137620498 → Same m s0 s → Same m s0 (cardReturn s x1) := by
  intro s x1 hM h
  refine Same.run hM h fun h0 => ?_
  unfold cardReturn
  repeat' (with_reducible first
    | assumption
    | intro _
    | exact Same.bits rfl
    | (extract_lets +onlyGivenNames z; change State at z; apply Same.cutS h0 (x := z); unfold z; clear z; rotate_left; intro h; clear_value z; apply Same.letS h; clear h z; intro z h)
    | (extract_lets +onlyGivenNames z; change _ × _ × State at z; apply Same.cut22 h0 (x := z); unfold z; clear z; rotate_left; intro h; clear_value z; apply Same.let22 (x := z) h; clear h z; intro z h)
    | (extract_lets +onlyGivenNames z; change _ × State at z; apply Same.cut2 h0 (x := z); unfold z; clear z; rotate_left; intro h; clear_value z; apply Same.let2 (x := z) h; clear h z; intro z h)
    | (extract_lets +onlyGivenNames z; clear_value z; apply Same.letAny z; clear z; intro z)
    | apply portUpd_frame
    | apply fset_frame
    | apply seqLoad_frame
    | apply channelRestore_frame
    | apply chanInit_frame
    | apply channelBack_frame
    | apply xtePool_frame
    | apply xteShow_frame
    | apply pveShow_frame
    | apply pkeShow_frame
    | (refine Same.updFab ?_ rfl; assumption)
    | split
    | dsimp -zeta only)

theorem cardRelease_frame {m : Nat} {s0 : State} : ∀ x0 s, 137620562 &&& m = 137620562 → Same m s0 s → Same2 m s0 (cardRelease x0 s) := by
  intro x0 s hM h
  refine Same2.run hM h fun h0 => ?_
  unfold cardRelease
  repeat' (with_reducible first
    | assumption
    | exact Same.bits rfl
    | (extract_lets +onlyGivenNames z; change State at z; apply Same.cutS h0 (x := z); unfold z; clear z; rotate_left; intro h; clear_value z; apply Same.letS h; clear h z; intro z h)
    | (extract_lets +onlyGivenNames z; clear_value z; apply Same.letAny z; clear z; intro z)
    | apply Same2.ite
    | apply cardReturn_frame
    | apply post_frame
    | (refine Same.updAcm ?_ rfl; assumption)
    | split
    | apply Same2.mk')

theorem execCardRelease_frame {m : Nat} {s0 : State} : ∀ x0 s, 137621202 &&& m = 137621202 → Same m s0 s → SameT m s0 (execCardRelease x0 s) := by
  intro x0 s hM h
  refine SameT.run hM h fun h0 => ?_
  unfold execCardRelease
  repeat' (with_reducible first
    | assumption
    | intro _
    | exact Same.bits rfl
    | apply SameT.next
    | apply mbxRun_frame
    | apply cardRelease_frame
    | apply OpKeeps.opDef)

theorem agePlanNow_frame {m : Nat} {s0 : State} : ∀ s, 2 &&& m = 2 → Same m s0 s → Same2 m s0 (agePlanNow s) := by
  intro s hM h
  refine Same2.run hM h fun h0 => ?_
  unfold agePlanNow
  repeat' (with_reducible first
    | assumption
    | exact Same.bits rfl
    | apply Same2.ite
    | apply fon_frame
    | split
    | apply Same2.mk')

theorem execAgePlanNow_frame {m : Nat} {s0 : State} : ∀ x0 s, 2100866 &&& m = 2100866 → Same m s0 s → SameT m s0 (execAgePlanNow x0 s) := by
  intro x0 s hM h
  refine SameT.run hM h fun h0 => ?_
  unfold execAgePlanNow
  repeat' (with_reducible first
    | assumption
    | intro _
    | exact Same.bits rfl
    | apply SameT.next
    | apply mbxRun_frame
    | apply agePlanNow_frame
    | apply OpKeeps.opDef)

theorem execSelftestStartShort_frame {m : Nat} {s0 : State} : ∀ x0 s, 3264130 &&& m = 3264130 → Same m s0 s → SameT m s0 (execSelftestStartShort x0 s) := by
  intro x0 s hM h
  refine SameT.run hM h fun h0 => ?_
  unfold execSelftestStartShort
  repeat' (with_reducible first
    | unfold selftestStartDef
    | assumption
    | intro _
    | exact Same.bits rfl
    | apply SameT.next
    | apply mbxRun_frame
    | apply selftestStart_frame
    | apply OpKeeps.opDef)

theorem execSelftestStatus_frame {m : Nat} {s0 : State} : ∀ x0 s, 538971778 &&& m = 538971778 → Same m s0 s → SameT m s0 (execSelftestStatus x0 s) := by
  intro x0 s hM h
  refine SameT.run hM h fun h0 => ?_
  unfold execSelftestStatus
  repeat' (with_reducible first
    | assumption
    | intro _
    | exact Same.bits rfl
    | apply SameT.next
    | apply mbxRun_frame
    | apply selftestStatus_frame
    | apply OpKeeps.opDef)

theorem execSelftestAbort_frame {m : Nat} {s0 : State} : ∀ x0 s, 2133634 &&& m = 2133634 → Same m s0 s → SameT m s0 (execSelftestAbort x0 s) := by
  intro x0 s hM h
  refine SameT.run hM h fun h0 => ?_
  unfold execSelftestAbort
  repeat' (with_reducible first
    | assumption
    | intro _
    | exact Same.bits rfl
    | apply SameT.next
    | apply mbxRun_frame
    | apply dstAbort_frame
    | apply OpKeeps.opDef
    | apply Same2.mk')

theorem holdupTest_frame {m : Nat} {s0 : State} : ∀ x0 s, 2129922 &&& m = 2129922 → Same m s0 s → Same2 m s0 (holdupTest x0 s) := by
  intro x0 s hM h
  refine Same2.run hM h fun h0 => ?_
  unfold holdupTest
  repeat' (with_reducible first
    | assumption
    | exact Same.bits rfl
    | (extract_lets +onlyGivenNames z; change State at z; apply Same.cutS h0 (x := z); unfold z; clear z; rotate_left; intro h; clear_value z; apply Same.letS h; clear h z; intro z h)
    | apply Same2.ite
    | apply testSchedule_frame
    | apply Same2.mk')

theorem execHoldupTestStart_frame {m : Nat} {s0 : State} : ∀ x0 s, 2133634 &&& m = 2133634 → Same m s0 s → SameT m s0 (execHoldupTestStart x0 s) := by
  intro x0 s hM h
  refine SameT.run hM h fun h0 => ?_
  unfold execHoldupTestStart
  repeat' (with_reducible first
    | unfold holdupTestDef
    | assumption
    | intro _
    | exact Same.bits rfl
    | apply SameT.next
    | apply mbxRun_frame
    | apply holdupTest_frame
    | apply OpKeeps.opDef)

theorem postService_frame {m : Nat} {s0 : State} : ∀ x0 x1 s, 674492114 &&& m = 674492114 → Same m s0 s → SameT m s0 (postService x0 x1 s) := by
  intro x0 x1 s hM h
  refine SameT.run hM h fun h0 => ?_
  unfold postService
  repeat' (with_reducible first
    | assumption
    | exact Same.bits rfl
    | apply SameT.next
    | apply SameT.ite
    | apply Same.ite
    | apply execAgeSummary_frame
    | apply execAgeReport_frame
    | apply execAgePlanNow_frame
    | apply execSelftestStartShort_frame
    | apply execSelftestStatus_frame
    | apply execSelftestAbort_frame
    | apply execDiagCounters_frame
    | apply execHoldupTestStart_frame
    | apply execCardRelease_frame
    | apply execCardList_frame
    | split
    | dsimp -zeta only)

theorem setShares_frame {m : Nat} {s0 : State} : ∀ x0 s, 94210 &&& m = 94210 → Same m s0 s → Same2 m s0 (setShares x0 s) := by
  intro x0 s hM h
  refine Same2.run hM h fun h0 => ?_
  unfold setShares
  repeat' (with_reducible first
    | assumption
    | exact Same.bits rfl
    | (extract_lets +onlyGivenNames z; change _ × State at z; apply Same.cut2 h0 (x := z); unfold z; clear z; rotate_left; intro h; clear_value z; apply Same.let2 (x := z) h; clear h z; intro z h)
    | apply sharesSet_frame
    | split
    | apply Same2.mk')

theorem execSliceSetShares_frame {m : Nat} {s0 : State} : ∀ x0 s, 2195074 &&& m = 2195074 → Same m s0 s → SameT m s0 (execSliceSetShares x0 s) := by
  intro x0 s hM h
  refine SameT.run hM h fun h0 => ?_
  unfold execSliceSetShares
  repeat' (with_reducible first
    | assumption
    | intro _
    | exact Same.bits rfl
    | apply SameT.next
    | apply mbxRun_frame
    | apply setShares_frame
    | apply OpKeeps.opDef)

theorem bindDone_frame {m : Nat} {s0 : State} : ∀ s x1 x2, 92162 &&& m = 92162 → Same m s0 s → Same m s0 (bindDone s x1 x2) := by
  intro s x1 x2 hM h
  refine Same.run hM h fun h0 => ?_
  unfold bindDone
  repeat' (with_reducible first
    | assumption
    | exact Same.bits rfl
    | apply slmShow_frame
    | apply nsNotice_frame
    | apply journalDef_frame)

theorem bindPort_frame {m : Nat} {s0 : State} : ∀ x0 s, 96258 &&& m = 96258 → Same m s0 s → Same2 m s0 (bindPort x0 s) := by
  intro x0 s hM h
  refine Same2.run hM h fun h0 => ?_
  unfold bindPort
  repeat' (with_reducible first
    | assumption
    | intro _
    | exact Same.bits rfl
    | (extract_lets +onlyGivenNames z; change State at z; apply Same.cutS h0 (x := z); unfold z; clear z; rotate_left; intro h; clear_value z; apply Same.letS h; clear h z; intro z h)
    | (extract_lets +onlyGivenNames z; change _ × _ × State at z; apply Same.cut22 h0 (x := z); unfold z; clear z; rotate_left; intro h; clear_value z; apply Same.let22 (x := z) h; clear h z; intro z h)
    | (extract_lets +onlyGivenNames z; change _ × State at z; apply Same.cut2 h0 (x := z); unfold z; clear z; rotate_left; intro h; clear_value z; apply Same.let2 (x := z) h; clear h z; intro z h)
    | (extract_lets +onlyGivenNames z; change _ → _ at z; apply Same.cutF z; subst z)
    | (extract_lets +onlyGivenNames z; clear_value z; apply Same.letAny z; clear z; intro z)
    | apply Same.ite
    | apply Same2.ite
    | apply bindDone_frame
    | apply sliceUpd_frame
    | split
    | dsimp -zeta only
    | apply Same2.mk')

theorem execSliceBindPort_frame {m : Nat} {s0 : State} : ∀ x0 s, 2195074 &&& m = 2195074 → Same m s0 s → SameT m s0 (execSliceBindPort x0 s) := by
  intro x0 s hM h
  refine SameT.run hM h fun h0 => ?_
  unfold execSliceBindPort
  repeat' (with_reducible first
    | unfold bindPortDef
    | assumption
    | intro _
    | exact Same.bits rfl
    | apply SameT.next
    | apply mbxRun_frame
    | apply bindPort_frame
    | apply OpKeeps.opDef)

theorem execSliceReset_frame {m : Nat} {s0 : State} : ∀ x0 s, 3669634 &&& m = 3669634 → Same m s0 s → SameT m s0 (execSliceReset x0 s) := by
  intro x0 s hM h
  refine SameT.run hM h fun h0 => ?_
  unfold execSliceReset
  repeat' (with_reducible first
    | assumption
    | intro _
    | exact Same.bits rfl
    | apply SameT.next
    | (extract_lets +onlyGivenNames z; change _ × State at z; apply Same.cut2 h0 (x := z); unfold z; clear z; rotate_left; intro h; clear_value z; apply Same.let2 (x := z) h; clear h z; intro z h)
    | apply mbxRun_frame
    | apply sliceResetStart_frame
    | apply OpKeeps.opDef
    | split
    | apply Same2.mk')

theorem nsRemove_frame {m : Nat} {s0 : State} : ∀ s x1 x2, 124930 &&& m = 124930 → Same m s0 s → Same m s0 (nsRemove s x1 x2) := by
  intro s x1 x2 hM h
  refine Same.run hM h fun h0 => ?_
  unfold nsRemove
  repeat' (with_reducible first
    | assumption
    | intro _
    | exact Same.bits rfl
    | (extract_lets +onlyGivenNames z; change State at z; apply Same.cutS h0 (x := z); unfold z; clear z; rotate_left; intro h; clear_value z; apply Same.letS h; clear h z; intro z h)
    | (extract_lets +onlyGivenNames z; change _ × _ × State at z; apply Same.cut22 h0 (x := z); unfold z; clear z; rotate_left; intro h; clear_value z; apply Same.let22 (x := z) h; clear h z; intro z h)
    | (extract_lets +onlyGivenNames z; change _ × State at z; apply Same.cut2 h0 (x := z); unfold z; clear z; rotate_left; intro h; clear_value z; apply Same.let2 (x := z) h; clear h z; intro z h)
    | (extract_lets +onlyGivenNames z; change _ → _ at z; apply Same.cutF z; subst z)
    | (extract_lets +onlyGivenNames z; clear_value z; apply Same.letAny z; clear z; intro z)
    | apply nsEmpty_frame
    | apply kstShow_frame
    | apply zneRefresh_frame
    | apply nsNotice_frame
    | apply journalDef_frame
    | (refine Same.updZne ?_ rfl; assumption)
    | dsimp -zeta only)

theorem nsDelete_frame {m : Nat} {s0 : State} : ∀ x0 s, 124930 &&& m = 124930 → Same m s0 s → Same2 m s0 (nsDelete x0 s) := by
  intro x0 s hM h
  refine Same2.run hM h fun h0 => ?_
  unfold nsDelete
  repeat' (with_reducible first
    | assumption
    | exact Same.bits rfl
    | (extract_lets +onlyGivenNames z; clear_value z; apply Same.letAny z; clear z; intro z)
    | apply Same2.ite
    | apply nsRemove_frame
    | split
    | apply Same2.mk')

theorem execNsDelete_frame {m : Nat} {s0 : State} : ∀ x0 s, 2223746 &&& m = 2223746 → Same m s0 s → SameT m s0 (execNsDelete x0 s) := by
  intro x0 s hM h
  refine SameT.run hM h fun h0 => ?_
  unfold execNsDelete
  repeat' (with_reducible first
    | assumption
    | intro _
    | exact Same.bits rfl
    | apply SameT.next
    | apply mbxRun_frame
    | apply nsDelete_frame
    | apply OpKeeps.opDef)

theorem postSlices_frame {m : Nat} {s0 : State} : ∀ x0 x1 s, 3669634 &&& m = 3669634 → Same m s0 s → SameT m s0 (postSlices x0 x1 s) := by
  intro x0 x1 s hM h
  refine SameT.run hM h fun h0 => ?_
  unfold postSlices
  repeat' (with_reducible first
    | assumption
    | exact Same.bits rfl
    | apply SameT.next
    | (extract_lets +onlyGivenNames z; change State at z; apply Same.cutS h0 (x := z); unfold z; clear z; rotate_left; intro h; clear_value z; apply Same.letS h; clear h z; intro z h)
    | (extract_lets +onlyGivenNames z; change _ × _ × State at z; apply Same.cut22 h0 (x := z); unfold z; clear z; rotate_left; intro h; clear_value z; apply Same.let22 (x := z) h; clear h z; intro z h)
    | (extract_lets +onlyGivenNames z; change _ × State at z; apply Same.cut2 h0 (x := z); unfold z; clear z; rotate_left; intro h; clear_value z; apply Same.let2 (x := z) h; clear h z; intro z h)
    | (extract_lets +onlyGivenNames z; clear_value z; apply Same.letAny z; clear z; intro z)
    | apply SameT.ite
    | apply Same.ite
    | apply execSliceCreate_frame
    | apply execSliceDelete_frame
    | apply execSliceBindPort_frame
    | apply execSliceSetShares_frame
    | apply execSliceReset_frame
    | apply execSliceQuery_frame
    | apply execSliceBindChannel_frame
    | apply execNsCreate_frame
    | apply execNsDelete_frame
    | split
    | dsimp -zeta only)

theorem execKeyRewriteDrbg_frame {m : Nat} {s0 : State} : ∀ x0 s, 6295170 &&& m = 6295170 → Same m s0 s → SameT m s0 (execKeyRewriteDrbg x0 s) := by
  intro x0 s hM h
  refine SameT.run hM h fun h0 => ?_
  unfold execKeyRewriteDrbg
  repeat' (with_reducible first
    | unfold rewriteDef
    | assumption
    | intro _
    | exact Same.bits rfl
    | apply SameT.next
    | apply mbxRun_frame
    | apply keyRewrite_frame
    | apply OpKeeps.of)

theorem execKeyMapRead_frame {m : Nat} {s0 : State} : ∀ x0 s, 2100866 &&& m = 2100866 → Same m s0 s → SameT m s0 (execKeyMapRead x0 s) := by
  intro x0 s hM h
  refine SameT.run hM h fun h0 => ?_
  unfold execKeyMapRead
  repeat' (with_reducible first
    | assumption
    | intro _
    | exact Same.bits rfl
    | apply SameT.next
    | apply mbxRun_frame
    | apply OpKeeps.opDef
    | apply Same2.mk')

theorem execKeyGenerate_frame {m : Nat} {s0 : State} : ∀ x0 s, 6295170 &&& m = 6295170 → Same m s0 s → SameT m s0 (execKeyGenerate x0 s) := by
  intro x0 s hM h
  refine SameT.run hM h fun h0 => ?_
  unfold execKeyGenerate
  repeat' (with_reducible first
    | assumption
    | intro _
    | exact Same.bits rfl
    | apply SameT.next
    | apply mbxRun_frame
    | apply keyMake_frame
    | apply OpKeeps.opDef)

theorem keyZeroise_frame {m : Nat} {s0 : State} : ∀ x0 x1 s, 7597058 &&& m = 7597058 → Same m s0 s → Same2 m s0 (keyZeroise x0 x1 s) := by
  intro x0 x1 s hM h
  refine Same2.run hM h fun h0 => ?_
  unfold keyZeroise
  repeat' (with_reducible first
    | assumption
    | exact Same.bits rfl
    | (extract_lets +onlyGivenNames z; clear_value z; apply Same.letAny z; clear z; intro z)
    | apply Same2.ite
    | apply kstZero_frame
    | apply post_frame
    | apply keyZero_frame
    | apply Same2.mk')

theorem execKeyZeroise_frame {m : Nat} {s0 : State} : ∀ x0 s, 7597698 &&& m = 7597698 → Same m s0 s → SameT m s0 (execKeyZeroise x0 s) := by
  intro x0 s hM h
  refine SameT.run hM h fun h0 => ?_
  unfold execKeyZeroise
  repeat' (with_reducible first
    | assumption
    | intro _
    | exact Same.bits rfl
    | apply SameT.next
    | apply mbxRun_frame
    | apply keyZeroise_frame
    | apply OpKeeps.opDef)

theorem anchorPut_frame {m : Nat} {s0 : State} : ∀ s x1 x2 x3, 23069698 &&& m = 23069698 → Same m s0 s → Same2 m s0 (anchorPut s x1 x2 x3) := by
  intro s x1 x2 x3 hM h
  refine Same2.run hM h fun h0 => ?_
  unfold anchorPut
  repeat' (with_reducible first
    | assumption
    | exact Same.bits rfl
    | (extract_lets +onlyGivenNames z; clear_value z; apply Same.letAny z; clear z; intro z)
    | apply Same2.ite
    | apply eventAppend_frame
    | apply post_frame
    | (refine Same.updKst ?_ rfl; apply Same.ofSome; assumption)
    | split
    | apply Same2.mk')

theorem mgrAnchor_frame {m : Nat} {s0 : State} : ∀ x0 s, 23069698 &&& m = 23069698 → Same m s0 s → Same2 m s0 (mgrAnchor x0 s) := by
  intro x0 s hM h
  refine Same2.run hM h fun h0 => ?_
  unfold mgrAnchor
  repeat' (with_reducible first
    | assumption
    | exact Same.bits rfl
    | apply Same2.ite
    | apply anchorPut_frame
    | apply Same2.mk')

theorem execMgrAnchorWrite_frame {m : Nat} {s0 : State} : ∀ x0 s, 23072386 &&& m = 23072386 → Same m s0 s → SameT m s0 (execMgrAnchorWrite x0 s) := by
  intro x0 s hM h
  refine SameT.run hM h fun h0 => ?_
  unfold execMgrAnchorWrite
  repeat' (with_reducible first
    | assumption
    | intro _
    | exact Same.bits rfl
    | apply SameT.next
    | apply mbxRun_frame
    | apply mgrAnchor_frame
    | apply OpKeeps.opDef)

theorem ofcAnchor_frame {m : Nat} {s0 : State} : ∀ x0 s, 23069698 &&& m = 23069698 → Same m s0 s → Same2 m s0 (ofcAnchor x0 s) := by
  intro x0 s hM h
  refine Same2.run hM h fun h0 => ?_
  unfold ofcAnchor
  repeat' (with_reducible first
    | assumption
    | exact Same.bits rfl
    | (extract_lets +onlyGivenNames z; clear_value z; apply Same.letAny z; clear z; intro z)
    | apply Same2.ite
    | apply anchorPut_frame
    | split
    | apply Same2.mk')

theorem execOfcAnchorWrite_frame {m : Nat} {s0 : State} : ∀ x0 s, 23072386 &&& m = 23072386 → Same m s0 s → SameT m s0 (execOfcAnchorWrite x0 s) := by
  intro x0 s hM h
  refine SameT.run hM h fun h0 => ?_
  unfold execOfcAnchorWrite
  repeat' (with_reducible first
    | assumption
    | intro _
    | exact Same.bits rfl
    | apply SameT.next
    | apply mbxRun_frame
    | apply ofcAnchor_frame
    | apply OpKeeps.opDef)

theorem postKeys_frame {m : Nat} {s0 : State} : ∀ x0 x1 s, 24374914 &&& m = 24374914 → Same m s0 s → SameT m s0 (postKeys x0 x1 s) := by
  intro x0 x1 s hM h
  refine SameT.run hM h fun h0 => ?_
  unfold postKeys
  repeat' (with_reducible first
    | assumption
    | exact Same.bits rfl
    | apply SameT.next
    | apply SameT.ite
    | apply Same.ite
    | apply execKeyMapRead_frame
    | apply execKeyGenerate_frame
    | apply execKeyImport_frame
    | apply execKeyBind_frame
    | apply execKeyRewriteDrbg_frame
    | apply execKeyZeroise_frame
    | apply execNsCryptoErase_frame
    | apply execMgrAnchorWrite_frame
    | apply execOfcAnchorWrite_frame
    | split
    | dsimp -zeta only)

theorem execSignetInfo_frame {m : Nat} {s0 : State} : ∀ x0 s, 2100866 &&& m = 2100866 → Same m s0 s → SameT m s0 (execSignetInfo x0 s) := by
  intro x0 s hM h
  refine SameT.run hM h fun h0 => ?_
  unfold execSignetInfo
  repeat' (with_reducible first
    | assumption
    | exact Same.bits rfl
    | apply SameT.next
    | apply mbxRun_frame
    | apply OpKeeps.opRead)

theorem execLocketRead_frame {m : Nat} {s0 : State} : ∀ x0 s, 2100866 &&& m = 2100866 → Same m s0 s → SameT m s0 (execLocketRead x0 s) := by
  intro x0 s hM h
  refine SameT.run hM h fun h0 => ?_
  unfold execLocketRead
  repeat' (with_reducible first
    | assumption
    | intro _
    | exact Same.bits rfl
    | apply SameT.next
    | apply mbxRun_frame
    | apply OpKeeps.opDef
    | apply Same2.mk')

theorem execSignetRead_frame {m : Nat} {s0 : State} : ∀ x0 s, 2100866 &&& m = 2100866 → Same m s0 s → SameT m s0 (execSignetRead x0 s) := by
  intro x0 s hM h
  refine SameT.run hM h fun h0 => ?_
  unfold execSignetRead
  repeat' (with_reducible first
    | assumption
    | intro _
    | exact Same.bits rfl
    | apply SameT.next
    | apply mbxRun_frame
    | apply OpKeeps.opDef
    | apply Same2.mk')

theorem locketFreeze_frame {m : Nat} {s0 : State} : ∀ x0 x1 s, 2098178 &&& m = 2098178 → Same m s0 s → Same2 m s0 (locketFreeze x0 x1 s) := by
  intro x0 x1 s hM h
  refine Same2.run hM h fun h0 => ?_
  unfold locketFreeze
  repeat' (with_reducible first
    | assumption
    | exact Same.bits rfl
    | (extract_lets +onlyGivenNames z; clear_value z; apply Same.letAny z; clear z; intro z)
    | apply Same2.ite
    | apply post_frame
    | (refine Same.updLkt ?_ rfl; assumption)
    | split
    | apply Same2.mk')

theorem execLocketFreeze_frame {m : Nat} {s0 : State} : ∀ x0 s, 2100866 &&& m = 2100866 → Same m s0 s → SameT m s0 (execLocketFreeze x0 s) := by
  intro x0 s hM h
  refine SameT.run hM h fun h0 => ?_
  unfold execLocketFreeze
  repeat' (with_reducible first
    | assumption
    | intro _
    | exact Same.bits rfl
    | apply SameT.next
    | apply mbxRun_frame
    | apply locketFreeze_frame
    | apply OpKeeps.opDef)

theorem execLocketThaw_frame {m : Nat} {s0 : State} : ∀ x0 s, 2100866 &&& m = 2100866 → Same m s0 s → SameT m s0 (execLocketThaw x0 s) := by
  intro x0 s hM h
  refine SameT.run hM h fun h0 => ?_
  unfold execLocketThaw
  repeat' (with_reducible first
    | assumption
    | intro _
    | exact Same.bits rfl
    | apply SameT.next
    | apply mbxRun_frame
    | apply locketThaw_frame
    | apply OpKeeps.opDef)

theorem execSignetChain_frame {m : Nat} {s0 : State} : ∀ x0 s, 2100866 &&& m = 2100866 → Same m s0 s → SameT m s0 (execSignetChain x0 s) := by
  intro x0 s hM h
  refine SameT.run hM h fun h0 => ?_
  unfold execSignetChain
  repeat' (with_reducible first
    | assumption
    | intro _
    | exact Same.bits rfl
    | apply SameT.next
    | apply mbxRun_frame
    | apply OpKeeps.opDef
    | apply Same2.mk')

theorem execLocketInfo_frame {m : Nat} {s0 : State} : ∀ x0 s, 2100866 &&& m = 2100866 → Same m s0 s → SameT m s0 (execLocketInfo x0 s) := by
  intro x0 s hM h
  refine SameT.run hM h fun h0 => ?_
  unfold execLocketInfo
  repeat' (with_reducible first
    | assumption
    | exact Same.bits rfl
    | apply SameT.next
    | apply mbxRun_frame
    | apply OpKeeps.opRead)

theorem postLedgers_frame {m : Nat} {s0 : State} : ∀ x0 x1 s, 2100866 &&& m = 2100866 → Same m s0 s → SameT m s0 (postLedgers x0 x1 s) := by
  intro x0 x1 s hM h
  refine SameT.run hM h fun h0 => ?_
  unfold postLedgers
  repeat' (with_reducible first
    | assumption
    | exact Same.bits rfl
    | apply SameT.next
    | apply SameT.ite
    | apply Same.ite
    | apply execSignetInfo_frame
    | apply execSignetRead_frame
    | apply execSignetChain_frame
    | apply execLocketInfo_frame
    | apply execLocketRead_frame
    | apply execLocketFreeze_frame
    | apply execLocketThaw_frame
    | split
    | dsimp -zeta only)

theorem execFwSlotInfo_frame {m : Nat} {s0 : State} : ∀ x0 s, 538971778 &&& m = 538971778 → Same m s0 s → SameT m s0 (execFwSlotInfo x0 s) := by
  intro x0 s hM h
  refine SameT.run hM h fun h0 => ?_
  unfold execFwSlotInfo
  repeat' (with_reducible first
    | assumption
    | intro _
    | exact Same.bits rfl
    | apply SameT.next
    | apply mbxRun_frame
    | apply fwSlotInfo_frame
    | apply OpKeeps.opDef)

theorem execFwCommitStore_frame {m : Nat} {s0 : State} : ∀ x0 s, 104066690 &&& m = 104066690 → Same m s0 s → SameT m s0 (execFwCommitStore x0 s) := by
  intro x0 s hM h
  refine SameT.run hM h fun h0 => ?_
  unfold execFwCommitStore
  repeat' (with_reducible first
    | unfold fwCommitDef
    | assumption
    | intro _
    | exact Same.bits rfl
    | apply SameT.next
    | apply mbxRun_frame
    | apply fwCommit_frame
    | apply OpKeeps.opDef)

theorem ucodeLoad_frame {m : Nat} {s0 : State} : ∀ x0 s, 121634818 &&& m = 121634818 → Same m s0 s → Same2 m s0 (ucodeLoad x0 s) := by
  intro x0 s hM h
  refine Same2.run hM h fun h0 => ?_
  unfold ucodeLoad
  repeat' (with_reducible first
    | assumption
    | exact Same.bits rfl
    | (extract_lets +onlyGivenNames z; change State at z; apply Same.cutS h0 (x := z); unfold z; clear z; rotate_left; intro h; clear_value z; apply Same.letS h; clear h z; intro z h)
    | (extract_lets +onlyGivenNames z; change _ × _ × State at z; apply Same.cut22 h0 (x := z); unfold z; clear z; rotate_left; intro h; clear_value z; apply Same.let22 (x := z) h; clear h z; intro z h)
    | (extract_lets +onlyGivenNames z; change _ × State at z; apply Same.cut2 h0 (x := z); unfold z; clear z; rotate_left; intro h; clear_value z; apply Same.let2 (x := z) h; clear h z; intro z h)
    | (extract_lets +onlyGivenNames z; clear_value z; apply Same.letAny z; clear z; intro z)
    | apply Same.ite
    | apply Same2.ite
    | apply SameO.ite
    | apply eventAppend_frame
    | apply sectorsErase_frame
    | (refine Same.updBot ?_ rfl; assumption)
    | (refine Same.updBot ?_ rfl; apply Same.ofSome; assumption)
    | (apply Same.ofSome; assumption)
    | split
    | dsimp -zeta only
    | apply Same2.mk')

theorem execUcodeLoad_frame {m : Nat} {s0 : State} : ∀ x0 s, 123735682 &&& m = 123735682 → Same m s0 s → SameT m s0 (execUcodeLoad x0 s) := by
  intro x0 s hM h
  refine SameT.run hM h fun h0 => ?_
  unfold execUcodeLoad
  repeat' (with_reducible first
    | unfold ucodeLoadDef
    | assumption
    | intro _
    | exact Same.bits rfl
    | apply SameT.next
    | apply mbxRun_frame
    | (apply Same2.out; apply ucodeLoad_frame)
    | apply OpKeeps.of
    | apply Same2.mk')

theorem execSettingsRead_frame {m : Nat} {s0 : State} : ∀ x0 s, 2100866 &&& m = 2100866 → Same m s0 s → SameT m s0 (execSettingsRead x0 s) := by
  intro x0 s hM h
  refine SameT.run hM h fun h0 => ?_
  unfold execSettingsRead
  repeat' (with_reducible first
    | assumption
    | exact Same.bits rfl
    | apply SameT.next
    | apply mbxRun_frame
    | apply OpKeeps.opRead)

theorem setEffect_frame {m : Nat} {s0 : State} : ∀ s x1, 2 &&& m = 2 → Same m s0 s → Same m s0 (setEffect s x1) := by
  intro s x1 hM h
  refine Same.run hM h fun h0 => ?_
  unfold setEffect
  repeat' (with_reducible first
    | assumption
    | exact Same.bits rfl
    | apply Same.ite
    | apply setBudget_frame
    | apply setPpLimit_frame)

theorem settingsWrite_frame {m : Nat} {s0 : State} : ∀ x0 s, 67108866 &&& m = 67108866 → Same m s0 s → Same2 m s0 (settingsWrite x0 s) := by
  intro x0 s hM h
  refine Same2.run hM h fun h0 => ?_
  unfold settingsWrite
  repeat' (with_reducible first
    | assumption
    | intro _
    | exact Same.bits rfl
    | (extract_lets +onlyGivenNames z; clear_value z; apply Same.letAny z; clear z; intro z)
    | apply Same2.ite
    | apply setEffect_frame
    | apply setAppend_frame
    | apply Same.foldl
    | split
    | apply Same2.mk')

theorem execSettingsWrite_frame {m : Nat} {s0 : State} : ∀ x0 s, 69209730 &&& m = 69209730 → Same m s0 s → SameT m s0 (execSettingsWrite x0 s) := by
  intro x0 s hM h
  refine SameT.run hM h fun h0 => ?_
  unfold execSettingsWrite
  repeat' (with_reducible first
    | assumption
    | intro _
    | exact Same.bits rfl
    | apply SameT.next
    | apply mbxRun_frame
    | apply settingsWrite_frame
    | apply OpKeeps.opDef)

theorem postImages_frame {m : Nat} {s0 : State} : ∀ x0 x1 s, 661909122 &&& m = 661909122 → Same m s0 s → SameT m s0 (postImages x0 x1 s) := by
  intro x0 x1 s hM h
  refine SameT.run hM h fun h0 => ?_
  unfold postImages
  repeat' (with_reducible first
    | assumption
    | exact Same.bits rfl
    | apply SameT.next
    | apply SameT.ite
    | apply Same.ite
    | apply execFwSlotInfo_frame
    | apply execFwDownload_frame
    | apply execFwCommitStore_frame
    | apply execFwInbandEnable_frame
    | apply execUcodeLoad_frame
    | apply execSettingsRead_frame
    | apply execSettingsWrite_frame
    | split
    | dsimp -zeta only)

theorem postOp_frame {m : Nat} {s0 : State} : ∀ x0 x1 s, 805306078 &&& m = 805306078 → Same m s0 s → SameT m s0 (postOp x0 x1 s) := by
  intro x0 x1 s hM h
  refine SameT.run hM h fun h0 => ?_
  unfold postOp
  repeat' (with_reducible first
    | assumption
    | exact Same.bits rfl
    | apply SameT.next
    | apply SameT.ite
    | apply Same.ite
    | apply execMailboxUnknownOpcode_frame
    | apply postGeneral_frame
    | apply postSlices_frame
    | apply postPlacing_frame
    | apply postKeys_frame
    | apply postLedgers_frame
    | apply postImages_frame
    | apply postService_frame
    | split
    | dsimp -zeta only)

theorem execMailboxPayloadWrite_frame {m : Nat} {s0 : State} : ∀ x0 x1 x2 s, 805306078 &&& m = 805306078 → Same m s0 s → SameT m s0 (execMailboxPayloadWrite x0 x1 x2 s) := by
  intro x0 x1 x2 s hM h
  refine SameT.run hM h fun h0 => ?_
  unfold execMailboxPayloadWrite
  repeat' (with_reducible first
    | assumption
    | exact Same.bits rfl
    | apply SameT.next
    | (extract_lets +onlyGivenNames z; change State at z; apply Same.cutS h0 (x := z); unfold z; clear z; rotate_left; intro h; clear_value z; apply Same.letS h; clear h z; intro z h)
    | (extract_lets +onlyGivenNames z; change _ × _ × State at z; apply Same.cut22 h0 (x := z); unfold z; clear z; rotate_left; intro h; clear_value z; apply Same.let22 (x := z) h; clear h z; intro z h)
    | (extract_lets +onlyGivenNames z; change _ × State at z; apply Same.cut2 h0 (x := z); unfold z; clear z; rotate_left; intro h; clear_value z; apply Same.let2 (x := z) h; clear h z; intro z h)
    | (extract_lets +onlyGivenNames z; clear_value z; apply Same.letAny z; clear z; intro z)
    | apply SameT.ite
    | apply Same.ite
    | apply hostWrite_frame
    | apply finc_frame
    | apply postOp_frame
    | split
    | dsimp -zeta only)

theorem execBufferFree_frame {m : Nat} {s0 : State} : ∀ x0 x1 s, 146275922 &&& m = 146275922 → Same m s0 s → SameT m s0 (execBufferFree x0 x1 s) := by
  intro x0 x1 s hM h
  refine SameT.run hM h fun h0 => ?_
  unfold execBufferFree
  repeat' (with_reducible first
    | assumption
    | exact Same.bits rfl
    | apply SameT.next
    | apply fwShow_frame
    | apply bufFree'_frame)

theorem dieReset_frame {m : Nat} {s0 : State} : ∀ s x1 x2 x3, 131074 &&& m = 131074 → Same m s0 s → Same m s0 (dieReset s x1 x2 x3) := by
  intro s x1 x2 x3 hM h
  refine Same.run hM h fun h0 => ?_
  unfold dieReset
  repeat' (with_reducible first
    | assumption
    | intro _
    | exact Same.bits rfl
    | apply Same.ite
    | apply issued_frame
    | apply suspLost_frame
    | apply Same.foldl
    | split
    | dsimp -zeta only)

theorem handlePut_frame {m : Nat} {s0 : State} : ∀ s x1 x2 x3, 524306 &&& m = 524306 → Same m s0 s → Same m s0 (handlePut s x1 x2 x3) := by
  intro s x1 x2 x3 hM h
  refine Same.run hM h fun h0 => ?_
  unfold handlePut
  repeat' (with_reducible first
    | assumption
    | intro _
    | exact Same.bits rfl
    | (extract_lets +onlyGivenNames z; change State at z; apply Same.cutS h0 (x := z); unfold z; clear z; rotate_left; intro h; clear_value z; apply Same.letS h; clear h z; intro z h)
    | (extract_lets +onlyGivenNames z; change _ × _ × State at z; apply Same.cut22 h0 (x := z); unfold z; clear z; rotate_left; intro h; clear_value z; apply Same.let22 (x := z) h; clear h z; intro z h)
    | (extract_lets +onlyGivenNames z; change _ × State at z; apply Same.cut2 h0 (x := z); unfold z; clear z; rotate_left; intro h; clear_value z; apply Same.let2 (x := z) h; clear h z; intro z h)
    | (extract_lets +onlyGivenNames z; change _ → _ at z; apply Same.cutF z; subst z)
    | (extract_lets +onlyGivenNames z; clear_value z; apply Same.letAny z; clear z; intro z)
    | apply Same.ite
    | apply Same2.ite
    | apply sramWrote_frame
    | (refine Same.updFab ?_ rfl; assumption)
    | apply Same.foldl
    | apply Same2.foldl
    | split
    | dsimp -zeta only
    | apply Same2.mk')

theorem refPut_frame {m : Nat} {s0 : State} : ∀ s x1 x2 x3, 524306 &&& m = 524306 → Same m s0 s → Same m s0 (refPut s x1 x2 x3) := by
  intro s x1 x2 x3 hM h
  refine Same.run hM h fun h0 => ?_
  unfold refPut
  repeat' (with_reducible first
    | assumption
    | exact Same.bits rfl
    | apply handlePut_frame
    | apply memPut_frame
    | split
    | dsimp -zeta only)

theorem descMoves_frame {m : Nat} {s0 : State} : ∀ s x1 x2 x3, 537460754 &&& m = 537460754 → Same m s0 s → Same m s0 (descMoves s x1 x2 x3) := by
  intro s x1 x2 x3 hM h
  refine Same.run hM h fun h0 => ?_
  unfold descMoves
  repeat' (with_reducible first
    | assumption
    | intro _
    | exact Same.bits rfl
    | (extract_lets +onlyGivenNames z; change State at z; apply Same.cutS h0 (x := z); unfold z; clear z; rotate_left; intro h; clear_value z; apply Same.letS h; clear h z; intro z h)
    | (extract_lets +onlyGivenNames z; change _ × _ × State at z; apply Same.cut22 h0 (x := z); unfold z; clear z; rotate_left; intro h; clear_value z; apply Same.let22 (x := z) h; clear h z; intro z h)
    | (extract_lets +onlyGivenNames z; change _ × State at z; apply Same.cut2 h0 (x := z); unfold z; clear z; rotate_left; intro h; clear_value z; apply Same.let2 (x := z) h; clear h z; intro z h)
    | (extract_lets +onlyGivenNames z; clear_value z; apply Same.letAny z; clear z; intro z)
    | apply Same.ite
    | apply openTaken_frame
    | apply refPut_frame
    | apply usedRefresh_frame
    | apply blockErased_frame
    | (refine Same.updMed ?_ rfl; assumption)
    | apply Same.foldl
    | split
    | dsimp -zeta only)

theorem descEnd_frame {m : Nat} {s0 : State} : ∀ s x1 x2 x3 x4 x5 x6 x7 x8, 675015698 &&& m = 675015698 → Same m s0 s → Same m s0 (descEnd s x1 x2 x3 x4 x5 x6 x7 x8) := by
  intro s x1 x2 x3 x4 x5 x6 x7 x8 hM h
  refine Same.run hM h fun h0 => ?_
  unfold descEnd
  repeat' (with_reducible first
    | assumption
    | exact Same.bits rfl
    | (extract_lets +onlyGivenNames z; change State at z; apply Same.cutS h0 (x := z); unfold z; clear z; rotate_left; intro h; clear_value z; apply Same.letS h; clear h z; intro z h)
    | (extract_lets +onlyGivenNames z; change _ × _ × State at z; apply Same.cut22 h0 (x := z); unfold z; clear z; rotate_left; intro h; clear_value z; apply Same.let22 (x := z) h; clear h z; intro z h)
    | (extract_lets +onlyGivenNames z; change _ × State at z; apply Same.cut2 h0 (x := z); unfold z; clear z; rotate_left; intro h; clear_value z; apply Same.let2 (x := z) h; clear h z; intro z h)
    | (extract_lets +onlyGivenNames z; clear_value z; apply Same.letAny z; clear z; intro z)
    | apply Same.ite
    | apply fon_frame
    | apply chsPut_frame
    | apply complete_frame
    | apply post_frame
    | apply descMoves_frame
    | apply dieReset_frame
    | apply channelLost_frame
    | (refine Same.updFlash ?_ rfl; assumption)
    | split
    | dsimp -zeta only)

theorem doeSay_frame {m : Nat} {s0 : State} : ∀ s x1 x2 x3, 512 &&& m = 512 → Same m s0 s → Same m s0 (doeSay s x1 x2 x3) := by
  intro s x1 x2 x3 hM h
  refine Same.run hM h fun h0 => ?_
  unfold doeSay
  repeat' (with_reducible first
    | (extract_lets +onlyGivenNames z; clear_value z; apply Same.letAny z; clear z; intro z)
    | (refine Same.updMbx ?_ rfl; assumption))

theorem execSpareTakeover_frame {m : Nat} {s0 : State} : ∀ s, 10748946 &&& m = 10748946 → Same m s0 s → SameT m s0 (execSpareTakeover s) := by
  intro s hM h
  refine SameT.run hM h fun h0 => ?_
  unfold execSpareTakeover
  repeat' (with_reducible first
    | assumption
    | intro _
    | exact Same.bits rfl
    | apply SameT.next
    | apply takeover_frame
    | split
    | dsimp -zeta only)

theorem recoveryCount_frame {m : Nat} {s0 : State} : ∀ s x1, 2050 &&& m = 2050 → Same m s0 s → Same m s0 (recoveryCount s x1) := by
  intro s x1 hM h
  refine Same.run hM h fun h0 => ?_
  unfold recoveryCount
  repeat' (with_reducible first
    | assumption
    | exact Same.bits rfl
    | (extract_lets +onlyGivenNames z; change State at z; apply Same.cutS h0 (x := z); unfold z; clear z; rotate_left; intro h; clear_value z; apply Same.letS h; clear h z; intro z h)
    | (extract_lets +onlyGivenNames z; clear_value z; apply Same.letAny z; clear z; intro z)
    | apply finc_frame
    | (refine Same.updHst ?_ rfl; assumption))

theorem execLinkRecovery_frame {m : Nat} {s0 : State} : ∀ x0 s, 2050 &&& m = 2050 → Same m s0 s → SameT m s0 (execLinkRecovery x0 s) := by
  intro x0 s hM h
  refine SameT.run hM h fun h0 => ?_
  unfold execLinkRecovery
  repeat' (with_reducible first
    | assumption
    | exact Same.bits rfl
    | apply SameT.next
    | apply Same.ite
    | apply recoveryCount_frame
    | apply fset_frame)

theorem execSpdmHeartbeat_frame {m : Nat} {s0 : State} : ∀ x0 s, 2100354 &&& m = 2100354 → Same m s0 s → SameT m s0 (execSpdmHeartbeat x0 s) := by
  intro x0 s hM h
  refine SameT.run hM h fun h0 => ?_
  unfold execSpdmHeartbeat
  repeat' (with_reducible first
    | assumption
    | intro _
    | exact Same.bits rfl
    | apply SameT.next
    | (extract_lets +onlyGivenNames z; clear_value z; apply Same.letAny z; clear z; intro z)
    | apply inSession_frame
    | apply spdmSay_frame
    | (refine Same.updSpdm ?_ rfl; assumption))

theorem execRippleEnter_frame {m : Nat} {s0 : State} : ∀ x0 s, 2097154 &&& m = 2097154 → Same m s0 s → SameT m s0 (execRippleEnter x0 s) := by
  intro x0 s hM h
  refine SameT.run hM h fun h0 => ?_
  unfold execRippleEnter
  repeat' (with_reducible first
    | assumption
    | exact Same.bits rfl
    | apply SameT.next
    | apply Same.ite
    | apply classEnter_frame)

theorem regather_frame {m : Nat} {s0 : State} : ∀ s x1 x2, 136315938 &&& m = 136315938 → Same m s0 s → Same m s0 (regather s x1 x2) := by
  intro s x1 x2 hM h
  refine Same.run hM h fun h0 => ?_
  unfold regather
  repeat' (with_reducible first
    | assumption
    | intro _
    | exact Same.bits rfl
    | (extract_lets +onlyGivenNames z; change State at z; apply Same.cutS h0 (x := z); unfold z; clear z; rotate_left; intro h; clear_value z; apply Same.letS h; clear h z; intro z h)
    | (extract_lets +onlyGivenNames z; change _ × _ × State at z; apply Same.cut22 h0 (x := z); unfold z; clear z; rotate_left; intro h; clear_value z; apply Same.let22 (x := z) h; clear h z; intro z h)
    | (extract_lets +onlyGivenNames z; change _ × State at z; apply Same.cut2 h0 (x := z); unfold z; clear z; rotate_left; intro h; clear_value z; apply Same.let2 (x := z) h; clear h z; intro z h)
    | (extract_lets +onlyGivenNames z; clear_value z; apply Same.letAny z; clear z; intro z)
    | apply Same.ite
    | apply reach_frame
    | apply regatherKind_frame
    | (refine Same.updAge ?_ rfl; assumption)
    | apply Same.foldl
    | split
    | dsimp -zeta only)

theorem execDramRegather_frame {m : Nat} {s0 : State} : ∀ x0 x1 s, 136315938 &&& m = 136315938 → Same m s0 s → SameT m s0 (execDramRegather x0 x1 s) := by
  intro x0 x1 s hM h
  refine SameT.run hM h fun h0 => ?_
  unfold execDramRegather
  repeat' (with_reducible first
    | assumption
    | exact Same.bits rfl
    | apply SameT.next
    | apply regather_frame)

theorem coreWatchdog_frame {m : Nat} {s0 : State} : ∀ s x1, 246939218 &&& m = 246939218 → Same m s0 s → Same m s0 (coreWatchdog s x1) := by
  intro s x1 hM h
  refine Same.run hM h fun h0 => ?_
  unfold coreWatchdog
  repeat' (with_reducible first
    | assumption
    | exact Same.bits rfl
    | (extract_lets +onlyGivenNames z; change State at z; apply Same.cutS h0 (x := z); unfold z; clear z; rotate_left; intro h; clear_value z; apply Same.letS h; clear h z; intro z h)
    | apply Same.ite
    | apply fbiton_frame
    | apply raiseVio_frame
    | apply finc_frame
    | apply fset_frame
    | apply pset_frame
    | apply resetFlush_frame
    | apply post_frame)

theorem strideClear_frame {m : Nat} {s0 : State} : ∀ s x1 x2, 16 &&& m = 16 → Same m s0 s → Same m s0 (strideClear s x1 x2) := by
  intro s x1 x2 hM h
  refine Same.run hM h fun h0 => ?_
  unfold strideClear
  repeat' (with_reducible first
    | assumption
    | intro _
    | exact Same.bits rfl
    | (extract_lets +onlyGivenNames z; change State at z; apply Same.cutS h0 (x := z); unfold z; clear z; rotate_left; intro h; clear_value z; apply Same.letS h; clear h z; intro z h)
    | (extract_lets +onlyGivenNames z; change _ × _ × State at z; apply Same.cut22 h0 (x := z); unfold z; clear z; rotate_left; intro h; clear_value z; apply Same.let22 (x := z) h; clear h z; intro z h)
    | (extract_lets +onlyGivenNames z; change _ × State at z; apply Same.cut2 h0 (x := z); unfold z; clear z; rotate_left; intro h; clear_value z; apply Same.let2 (x := z) h; clear h z; intro z h)
    | (extract_lets +onlyGivenNames z; clear_value z; apply Same.letAny z; clear z; intro z)
    | (refine Same.updFab ?_ rfl; assumption)
    | dsimp -zeta only)

theorem bufZeroed_frame {m : Nat} {s0 : State} : ∀ s x1 x2, 262162 &&& m = 262162 → Same m s0 s → Same m s0 (bufZeroed s x1 x2) := by
  intro s x1 x2 hM h
  refine Same.run hM h fun h0 => ?_
  unfold bufZeroed
  repeat' (with_reducible first
    | assumption
    | exact Same.bits rfl
    | (extract_lets +onlyGivenNames z; change State at z; apply Same.cutS h0 (x := z); unfold z; clear z; rotate_left; intro h; clear_value z; apply Same.letS h; clear h z; intro z h)
    | (extract_lets +onlyGivenNames z; change _ × _ × State at z; apply Same.cut22 h0 (x := z); unfold z; clear z; rotate_left; intro h; clear_value z; apply Same.let22 (x := z) h; clear h z; intro z h)
    | (extract_lets +onlyGivenNames z; change _ × State at z; apply Same.cut2 h0 (x := z); unfold z; clear z; rotate_left; intro h; clear_value z; apply Same.let2 (x := z) h; clear h z; intro z h)
    | (extract_lets +onlyGivenNames z; clear_value z; apply Same.letAny z; clear z; intro z)
    | apply Same.ite
    | apply strideClear_frame
    | apply bpUpdate_frame
    | (refine Same.updBpm ?_ rfl; assumption)
    | split
    | dsimp -zeta only)

theorem speedDone_frame {m : Nat} {s0 : State} : ∀ s, 524290 &&& m = 524290 → Same m s0 s → Same m s0 (speedDone s) := by
  intro s hM h
  refine Same.run hM h fun h0 => ?_
  unfold speedDone
  repeat' (with_reducible first
    | assumption
    | intro _
    | exact Same.bits rfl
    | (extract_lets +onlyGivenNames z; change State at z; apply Same.cutS h0 (x := z); unfold z; clear z; rotate_left; intro h; clear_value z; apply Same.letS h; clear h z; intro z h)
    | (extract_lets +onlyGivenNames z; change _ × _ × State at z; apply Same.cut22 h0 (x := z); unfold z; clear z; rotate_left; intro h; clear_value z; apply Same.let22 (x := z) h; clear h z; intro z h)
    | (extract_lets +onlyGivenNames z; change _ × State at z; apply Same.cut2 h0 (x := z); unfold z; clear z; rotate_left; intro h; clear_value z; apply Same.let2 (x := z) h; clear h z; intro z h)
    | (extract_lets +onlyGivenNames z; clear_value z; apply Same.letAny z; clear z; intro z)
    | apply fadd_frame
    | apply fon_frame
    | apply fset_frame
    | apply foff_frame
    | apply finc_frame
    | (refine Same.updDmc ?_ rfl; assumption)
    | split
    | dsimp -zeta only)

theorem flushPower_frame {m : Nat} {s0 : State} : ∀ s, 2098178 &&& m = 2098178 → Same m s0 s → Same m s0 (flushPower s) := by
  intro s hM h
  refine Same.run hM h fun h0 => ?_
  unfold flushPower
  repeat' (with_reducible first
    | assumption
    | exact Same.bits rfl
    | (extract_lets +onlyGivenNames z; change State at z; apply Same.cutS h0 (x := z); unfold z; clear z; rotate_left; intro h; clear_value z; apply Same.letS h; clear h z; intro z h)
    | apply Same.ite
    | apply freezeEnd_frame
    | apply flushEnd_frame
    | apply flushStart_frame
    | (refine Same.updLkt ?_ rfl; assumption))

theorem sgnFlush_frame {m : Nat} {s0 : State} : ∀ s, 16777218 &&& m = 16777218 → Same m s0 s → Same m s0 (sgnFlush s) := by
  intro s hM h
  refine Same.run hM h fun h0 => ?_
  unfold sgnFlush
  repeat' (with_reducible first
    | assumption
    | exact Same.bits rfl
    | apply commitApp_frame)

theorem emgPut_frame {m : Nat} {s0 : State} : ∀ s x1, 65536 &&& m = 65536 → Same m s0 s → Same m s0 (emgPut s x1) := by
  intro s x1 hM h
  refine Same.run hM h fun h0 => ?_
  unfold emgPut
  repeat' (with_reducible first
    | assumption
    | exact Same.bits rfl
    | (extract_lets +onlyGivenNames z; change State at z; apply Same.cutS h0 (x := z); unfold z; clear z; rotate_left; intro h; clear_value z; apply Same.letS h; clear h z; intro z h)
    | (extract_lets +onlyGivenNames z; change _ × _ × State at z; apply Same.cut22 h0 (x := z); unfold z; clear z; rotate_left; intro h; clear_value z; apply Same.let22 (x := z) h; clear h z; intro z h)
    | (extract_lets +onlyGivenNames z; change _ × State at z; apply Same.cut2 h0 (x := z); unfold z; clear z; rotate_left; intro h; clear_value z; apply Same.let2 (x := z) h; clear h z; intro z h)
    | (extract_lets +onlyGivenNames z; clear_value z; apply Same.letAny z; clear z; intro z)
    | apply Same.ite
    | apply stripePut_frame
    | (refine Same.updMed ?_ rfl; assumption)
    | split
    | dsimp -zeta only)

theorem emgUnit_frame {m : Nat} {s0 : State} : ∀ s x1, 65536 &&& m = 65536 → Same m s0 s → Same m s0 (emgUnit s x1) := by
  intro s x1 hM h
  refine Same.run hM h fun h0 => ?_
  unfold emgUnit
  repeat' (with_reducible first
    | assumption
    | intro _
    | exact Same.bits rfl
    | (extract_lets +onlyGivenNames z; change State at z; apply Same.cutS h0 (x := z); unfold z; clear z; rotate_left; intro h; clear_value z; apply Same.letS h; clear h z; intro z h)
    | (extract_lets +onlyGivenNames z; change _ × _ × State at z; apply Same.cut22 h0 (x := z); unfold z; clear z; rotate_left; intro h; clear_value z; apply Same.let22 (x := z) h; clear h z; intro z h)
    | (extract_lets +onlyGivenNames z; change _ × State at z; apply Same.cut2 h0 (x := z); unfold z; clear z; rotate_left; intro h; clear_value z; apply Same.let2 (x := z) h; clear h z; intro z h)
    | (extract_lets +onlyGivenNames z; clear_value z; apply Same.letAny z; clear z; intro z)
    | apply Same.ite
    | apply emgPut_frame
    | split
    | dsimp -zeta only)

theorem emgTail_frame {m : Nat} {s0 : State} : ∀ x0 x1 s, 65536 &&& m = 65536 → Same m s0 s → Same m s0 (emgTail x0 x1 s) := by
  have H : ∀ {s0 : State} x0 x1 s, Same 65536 s0 s → Same 65536 s0 (emgTail x0 x1 s) := by
    intro s0 x0 x1 s h0
    induction x0 generalizing x1 s with
    | zero =>
      rw [emgTail]
      repeat' (with_reducible first
      | assumption
      | intro _
      | exact Same.bits rfl
      | apply ih
      | (extract_lets +onlyGivenNames z; change State at z; apply Same.cutS h0 (x := z); unfold z; clear z; rotate_left; intro h; clear_value z; apply Same.letS h; clear h z; intro z h)
      | (extract_lets +onlyGivenNames z; change _ × _ × State at z; apply Same.cut22 h0 (x := z); unfold z; clear z; rotate_left; intro h; clear_value z; apply Same.let22 (x := z) h; clear h z; intro z h)
      | (extract_lets +onlyGivenNames z; change _ × State at z; apply Same.cut2 h0 (x := z); unfold z; clear z; rotate_left; intro h; clear_value z; apply Same.let2 (x := z) h; clear h z; intro z h)
      | (extract_lets +onlyGivenNames z; clear_value z; apply Same.letAny z; clear z; intro z)
      | apply Same.ite
      | apply emgPut_frame
      | apply Same.foldl
      | split
      | dsimp -zeta only)
    | succ k ih =>
      rw [emgTail]
      repeat' (with_reducible first
      | assumption
      | intro _
      | exact Same.bits rfl
      | apply ih
      | (extract_lets +onlyGivenNames z; change State at z; apply Same.cutS h0 (x := z); unfold z; clear z; rotate_left; intro h; clear_value z; apply Same.letS h; clear h z; intro z h)
      | (extract_lets +onlyGivenNames z; change _ × _ × State at z; apply Same.cut22 h0 (x := z); unfold z; clear z; rotate_left; intro h; clear_value z; apply Same.let22 (x := z) h; clear h z; intro z h)
      | (extract_lets +onlyGivenNames z; change _ × State at z; apply Same.cut2 h0 (x := z); unfold z; clear z; rotate_left; intro h; clear_value z; apply Same.let2 (x := z) h; clear h z; intro z h)
      | (extract_lets +onlyGivenNames z; clear_value z; apply Same.letAny z; clear z; intro z)
      | apply Same.ite
      | apply emgPut_frame
      | apply Same.foldl
      | split
      | dsimp -zeta only)
  intro x0 x1 s hM h
  exact Same.step hM (H x0 x1 s (Same.refl _ _)) h

theorem emgReady_frame {m : Nat} {s0 : State} : ∀ s, 65536 &&& m = 65536 → Same m s0 s → Same m s0 (emgReady s) := by
  intro s hM h
  refine Same.run hM h fun h0 => ?_
  unfold emgReady
  repeat' (with_reducible first
    | assumption
    | intro _
    | exact Same.bits rfl
    | (extract_lets +onlyGivenNames z; change State at z; apply Same.cutS h0 (x := z); unfold z; clear z; rotate_left; intro h; clear_value z; apply Same.letS h; clear h z; intro z h)
    | (extract_lets +onlyGivenNames z; change _ × _ × State at z; apply Same.cut22 h0 (x := z); unfold z; clear z; rotate_left; intro h; clear_value z; apply Same.let22 (x := z) h; clear h z; intro z h)
    | (extract_lets +onlyGivenNames z; change _ × State at z; apply Same.cut2 h0 (x := z); unfold z; clear z; rotate_left; intro h; clear_value z; apply Same.let2 (x := z) h; clear h z; intro z h)
    | (extract_lets +onlyGivenNames z; clear_value z; apply Same.letAny z; clear z; intro z)
    | apply blockErased_frame
    | (refine Same.updMed ?_ rfl; assumption)
    | apply Same.foldl
    | split
    | dsimp -zeta only)

theorem emgFlush_frame {m : Nat} {s0 : State} : ∀ s, 65536 &&& m = 65536 → Same m s0 s → Same m s0 (emgFlush s) := by
  intro s hM h
  refine Same.run hM h fun h0 => ?_
  unfold emgFlush
  repeat' (with_reducible first
    | assumption
    | intro _
    | exact Same.bits rfl
    | (extract_lets +onlyGivenNames z; change State at z; apply Same.cutS h0 (x := z); unfold z; clear z; rotate_left; intro h; clear_value z; apply Same.letS h; clear h z; intro z h)
    | (extract_lets +onlyGivenNames z; change _ × _ × State at z; apply Same.cut22 h0 (x := z); unfold z; clear z; rotate_left; intro h; clear_value z; apply Same.let22 (x := z) h; clear h z; intro z h)
    | (extract_lets +onlyGivenNames z; change _ × State at z; apply Same.cut2 h0 (x := z); unfold z; clear z; rotate_left; intro h; clear_value z; apply Same.let2 (x := z) h; clear h z; intro z h)
    | (extract_lets +onlyGivenNames z; clear_value z; apply Same.letAny z; clear z; intro z)
    | apply Same.ite
    | apply emgReady_frame
    | apply emgTail_frame
    | apply emgUnit_frame
    | (refine Same.updMed ?_ rfl; assumption)
    | apply Same.foldl
    | split
    | dsimp -zeta only)

theorem flushDone_frame {m : Nat} {s0 : State} : ∀ s, 18940930 &&& m = 18940930 → Same m s0 s → Same m s0 (flushDone s) := by
  intro s hM h
  refine Same.run hM h fun h0 => ?_
  unfold flushDone
  repeat' (with_reducible first
    | assumption
    | exact Same.bits rfl
    | (extract_lets +onlyGivenNames z; change State at z; apply Same.cutS h0 (x := z); unfold z; clear z; rotate_left; intro h; clear_value z; apply Same.letS h; clear h z; intro z h)
    | (extract_lets +onlyGivenNames z; change _ × _ × State at z; apply Same.cut22 h0 (x := z); unfold z; clear z; rotate_left; intro h; clear_value z; apply Same.let22 (x := z) h; clear h z; intro z h)
    | (extract_lets +onlyGivenNames z; change _ × State at z; apply Same.cut2 h0 (x := z); unfold z; clear z; rotate_left; intro h; clear_value z; apply Same.let2 (x := z) h; clear h z; intro z h)
    | (extract_lets +onlyGivenNames z; clear_value z; apply Same.letAny z; clear z; intro z)
    | apply Same.ite
    | apply flushPower_frame
    | apply sgnFlush_frame
    | apply emgFlush_frame
    | (refine Same.updSgd ?_ rfl; assumption)
    | split
    | dsimp -zeta only)

theorem execEmergencyFlushDone_frame {m : Nat} {s0 : State} : ∀ s, 18940930 &&& m = 18940930 → Same m s0 s → SameT m s0 (execEmergencyFlushDone s) := by
  intro s hM h
  refine SameT.run hM h fun h0 => ?_
  unfold execEmergencyFlushDone
  repeat' (with_reducible first
    | assumption
    | exact Same.bits rfl
    | apply SameT.next
    | apply flushDone_frame)

theorem windowExpiry_frame {m : Nat} {s0 : State} : ∀ s x1, 32802 &&& m = 32802 → Same m s0 s → Same m s0 (windowExpiry s x1) := by
  intro s x1 hM h
  refine Same.run hM h fun h0 => ?_
  unfold windowExpiry
  repeat' (with_reducible first
    | assumption
    | exact Same.bits rfl
    | (extract_lets +onlyGivenNames z; change State at z; apply Same.cutS h0 (x := z); unfold z; clear z; rotate_left; intro h; clear_value z; apply Same.letS h; clear h z; intro z h)
    | (extract_lets +onlyGivenNames z; clear_value z; apply Same.letAny z; clear z; intro z)
    | apply Same.ite
    | apply reach_frame
    | (refine Same.updDsc ?_ rfl; assumption)
    | split)

theorem rehomeWaiting_frame {m : Nat} {s0 : State} : ∀ s x1, 51202 &&& m = 51202 → Same m s0 s → Same m s0 (rehomeWaiting s x1) := by
  intro s x1 hM h
  refine Same.run hM h fun h0 => ?_
  unfold rehomeWaiting
  repeat' (with_reducible first
    | assumption
    | intro _
    | exact Same.bits rfl
    | (extract_lets +onlyGivenNames z; change State at z; apply Same.cutS h0 (x := z); unfold z; clear z; rotate_left; intro h; clear_value z; apply Same.letS h; clear h z; intro z h)
    | (extract_lets +onlyGivenNames z; change _ × _ × State at z; apply Same.cut22 h0 (x := z); unfold z; clear z; rotate_left; intro h; clear_value z; apply Same.let22 (x := z) h; clear h z; intro z h)
    | (extract_lets +onlyGivenNames z; change _ × State at z; apply Same.cut2 h0 (x := z); unfold z; clear z; rotate_left; intro h; clear_value z; apply Same.let2 (x := z) h; clear h z; intro z h)
    | (extract_lets +onlyGivenNames z; clear_value z; apply Same.letAny z; clear z; intro z)
    | apply rehomeOne_frame
    | (refine Same.updPlc ?_ rfl; assumption)
    | apply Same.foldl
    | dsimp -zeta only)

theorem stripePrepare_frame {m : Nat} {s0 : State} : ∀ s x1, 116738 &&& m = 116738 → Same m s0 s → Same m s0 (stripePrepare s x1) := by
  intro s x1 hM h
  refine Same.run hM h fun h0 => ?_
  unfold stripePrepare
  repeat' (with_reducible first
    | assumption
    | exact Same.bits rfl
    | (extract_lets +onlyGivenNames z; change State at z; apply Same.cutS h0 (x := z); unfold z; clear z; rotate_left; intro h; clear_value z; apply Same.letS h; clear h z; intro z h)
    | (extract_lets +onlyGivenNames z; change _ × _ × State at z; apply Same.cut22 h0 (x := z); unfold z; clear z; rotate_left; intro h; clear_value z; apply Same.let22 (x := z) h; clear h z; intro z h)
    | (extract_lets +onlyGivenNames z; change _ × State at z; apply Same.cut2 h0 (x := z); unfold z; clear z; rotate_left; intro h; clear_value z; apply Same.let2 (x := z) h; clear h z; intro z h)
    | (extract_lets +onlyGivenNames z; clear_value z; apply Same.letAny z; clear z; intro z)
    | apply Same.ite
    | apply rehomeWaiting_frame
    | apply prepare_frame
    | split
    | dsimp -zeta only)

theorem execStripePrepare_frame {m : Nat} {s0 : State} : ∀ x0 s, 116738 &&& m = 116738 → Same m s0 s → SameT m s0 (execStripePrepare x0 s) := by
  intro x0 s hM h
  refine SameT.run hM h fun h0 => ?_
  unfold execStripePrepare
  repeat' (with_reducible first
    | assumption
    | exact Same.bits rfl
    | apply SameT.next
    | apply stripePrepare_frame)

theorem backlogs_frame {m : Nat} {s0 : State} : ∀ s, 16384 &&& m = 16384 → Same m s0 s → Same m s0 (backlogs s) := by
  intro s hM h
  refine Same.run hM h fun h0 => ?_
  unfold backlogs
  repeat' (with_reducible first
    | (extract_lets +onlyGivenNames z; change _ → _ at z; apply Same.cutF z; subst z)
    | (extract_lets +onlyGivenNames z; clear_value z; apply Same.letAny z; clear z; intro z)
    | (refine Same.updPlc ?_ rfl; assumption))

theorem execBacklogReport_frame {m : Nat} {s0 : State} : ∀ s, 16384 &&& m = 16384 → Same m s0 s → SameT m s0 (execBacklogReport s) := by
  intro s hM h
  refine SameT.run hM h fun h0 => ?_
  unfold execBacklogReport
  repeat' (with_reducible first
    | assumption
    | exact Same.bits rfl
    | apply SameT.next
    | apply backlogs_frame)

theorem execDirtyLimitRecompute_frame {m : Nat} {s0 : State} : ∀ s, 32770 &&& m = 32770 → Same m s0 s → SameT m s0 (execDirtyLimitRecompute s) := by
  intro s hM h
  refine SameT.run hM h fun h0 => ?_
  unfold execDirtyLimitRecompute
  repeat' (with_reducible first
    | assumption
    | exact Same.bits rfl
    | apply SameT.next
    | apply limitSet_frame)

theorem retrained_frame {m : Nat} {s0 : State} : ∀ s x1, 2100226 &&& m = 2100226 → Same m s0 s → Same m s0 (retrained s x1) := by
  intro s x1 hM h
  refine Same.run hM h fun h0 => ?_
  unfold retrained
  repeat' (with_reducible first
    | assumption
    | exact Same.bits rfl
    | apply post_frame
    | apply recoveryCount_frame)

theorem speedDrop_frame {m : Nat} {s0 : State} : ∀ s x1 x2, 2100226 &&& m = 2100226 → Same m s0 s → Same m s0 (speedDrop s x1 x2) := by
  intro s x1 x2 hM h
  refine Same.run hM h fun h0 => ?_
  unfold speedDrop
  repeat' (with_reducible first
    | assumption
    | exact Same.bits rfl
    | apply Same.ite
    | apply retrained_frame
    | apply fon_frame
    | apply fset_frame)

theorem readWords_frame {m : Nat} {s0 : State} : ∀ x0 x1 x2 x3 s, 536870912 &&& m = 536870912 → Same m s0 s → Same2 m s0 (readWords x0 x1 x2 x3 s) := by
  have H : ∀ {s0 : State} x0 x1 x2 x3 s, Same 536870912 s0 s → Same2 536870912 s0 (readWords x0 x1 x2 x3 s) := by
    intro s0 x0 x1 x2 x3 s h0
    induction x1 generalizing x0 x2 x3 s with
    | zero =>
      rw [readWords]
      repeat' (with_reducible first
      | assumption
      | exact Same.bits rfl
      | apply ih
      | (apply Same2.out; apply norWord_frame)
      | apply Same2.out
      | split
      | apply Same2.mk')
    | succ k ih =>
      rw [readWords]
      repeat' (with_reducible first
      | assumption
      | exact Same.bits rfl
      | apply ih
      | (apply Same2.out; apply norWord_frame)
      | apply Same2.out
      | split
      | apply Same2.mk')
  intro x0 x1 x2 x3 s hM h
  exact Same2.step hM (H x0 x1 x2 x3 s (Same.refl _ _)) h

theorem eraseEnd_frame {m : Nat} {s0 : State} : ∀ s x1 x2, 117441538 &&& m = 117441538 → Same m s0 s → Same m s0 (eraseEnd s x1 x2) := by
  intro s x1 x2 hM h
  refine Same.run hM h fun h0 => ?_
  unfold eraseEnd
  repeat' (with_reducible first
    | assumption
    | exact Same.bits rfl
    | (extract_lets +onlyGivenNames z; change State at z; apply Same.cutS h0 (x := z); unfold z; clear z; rotate_left; intro h; clear_value z; apply Same.letS h; clear h z; intro z h)
    | (extract_lets +onlyGivenNames z; clear_value z; apply Same.letAny z; clear z; intro z)
    | apply norErase_frame
    | apply clsDone_frame
    | apply finc_frame
    | (refine Same.updCls ?_ rfl; assumption))

theorem pwFail_frame {m : Nat} {s0 : State} : ∀ s x1 x2, 35652610 &&& m = 35652610 → Same m s0 s → Same m s0 (pwFail s x1 x2) := by
  intro s x1 x2 hM h
  refine Same.run hM h fun h0 => ?_
  unfold pwFail
  repeat' (with_reducible first
    | assumption
    | exact Same.bits rfl
    | (extract_lets +onlyGivenNames z; change State at z; apply Same.cutS h0 (x := z); unfold z; clear z; rotate_left; intro h; clear_value z; apply Same.letS h; clear h z; intro z h)
    | (extract_lets +onlyGivenNames z; clear_value z; apply Same.letAny z; clear z; intro z)
    | apply Same.ite
    | apply fset_frame
    | apply fon_frame
    | apply clsDone_frame
    | apply post_frame)

theorem clsEnd_frame {m : Nat} {s0 : State} : ∀ s x1 x2 x3 x4, 801111634 &&& m = 801111634 → Same m s0 s → Same m s0 (clsEnd s x1 x2 x3 x4) := by
  intro s x1 x2 x3 x4 hM h
  refine Same.run hM h fun h0 => ?_
  unfold clsEnd
  repeat' (with_reducible first
    | assumption
    | intro _
    | exact Same.bits rfl
    | (extract_lets +onlyGivenNames z; change State at z; apply Same.cutS h0 (x := z); unfold z; clear z; rotate_left; intro h; clear_value z; apply Same.letS h; clear h z; intro z h)
    | (extract_lets +onlyGivenNames z; change _ × _ × State at z; apply Same.cut22 h0 (x := z); unfold z; clear z; rotate_left; intro h; clear_value z; apply Same.let22 (x := z) h; clear h z; intro z h)
    | (extract_lets +onlyGivenNames z; change _ × State at z; apply Same.cut2 h0 (x := z); unfold z; clear z; rotate_left; intro h; clear_value z; apply Same.let2 (x := z) h; clear h z; intro z h)
    | (extract_lets +onlyGivenNames z; clear_value z; apply Same.letAny z; clear z; intro z)
    | apply Same.ite
    | apply Same2.ite
    | apply wordFound_frame
    | apply readWords_frame
    | apply clsDone_frame
    | apply clsDeliver_frame
    | apply fadd_frame
    | apply eraseEnd_frame
    | apply lockSet_frame
    | apply pwFail_frame
    | (refine Same.updCls ?_ rfl; assumption)
    | (refine Same.updCls ?_ rfl; apply Same.ofPair2; assumption)
    | (apply Same.ofPair2; assumption)
    | (apply Same2.out; apply readWords_frame)
    | split
    | dsimp -zeta only
    | apply Same2.mk')

theorem compositeSet_frame {m : Nat} {s0 : State} : ∀ s a k t, 403701762 &&& m = 403701762 → Same m s0 s → Same m s0 (compositeSet s a k t) := by
  intro s a k t hM h
  have hA : ∀ (t : State) (q : Age), Same m s0 t → Same m s0 { t with age := q } := fun t q ht =>
    Same.step (k := 134217728) (Same.sub (by decide) hM)
      (by constructor <;> first | (intro _; rfl) | (intro e; exact absurd e (by decide)) | exact fun e => e | exact Nat.le_refl _) ht
  have hU : ∀ (t : State) (q : Ump), Same m s0 t → Same m s0 { t with ump := q } := fun t q ht =>
    Same.step (k := 1048576) (Same.sub (by decide) hM)
      (by constructor <;> first | (intro _; rfl) | (intro e; exact absurd e (by decide)) | exact fun e => e | exact Nat.le_refl _) ht
  have hT : ∀ (t : State) (q : Tsn), Same m s0 t → Same m s0 { t with tsn := q } := fun t q ht =>
    Same.step (k := 268435456) (Same.sub (by decide) hM)
      (by constructor <;> first | (intro _; rfl) | (intro e; exact absurd e (by decide)) | exact fun e => e | exact Nat.le_refl _) ht
  exact hT _ _ (hU _ _ (hA _ _ (fset_frame _ _ _ (Same.sub (by decide) hM) (fset_frame _ _ _ (Same.sub (by decide) hM) h))))

theorem composite_frame {m : Nat} {s0 : State} : ∀ s, 403701762 &&& m = 403701762 → Same m s0 s → Same m s0 (composite s) := by
  intro s hM h
  refine Same.run hM h fun h0 => ?_
  unfold composite
  repeat' (with_reducible first
    | assumption
    | exact Same.bits rfl
    | (extract_lets +onlyGivenNames z; change State at z; apply Same.cutS h0 (x := z); unfold z; clear z; rotate_left; intro h; clear_value z; apply Same.letS h; clear h z; intro z h)
    | (extract_lets +onlyGivenNames z; clear_value z; apply Same.letAny z; clear z; intro z)
    | apply fset_frame
    | apply compositeSet_frame
    | split)

theorem sessionZero_frame {m : Nat} {s0 : State} : ∀ s x1 x2, 6292482 &&& m = 6292482 → Same m s0 s → Same m s0 (sessionZero s x1 x2) := by
  intro s x1 x2 hM h
  refine Same.run hM h fun h0 => ?_
  unfold sessionZero
  repeat' (with_reducible first
    | assumption
    | intro _
    | exact Same.bits rfl
    | apply Same.ite
    | apply kstZero_frame
    | apply post_frame
    | apply Same.foldl)

theorem sessShow_frame {m : Nat} {s0 : State} : ∀ s, 2 &&& m = 2 → Same m s0 s → Same m s0 (sessShow s) := by
  intro s hM h
  refine Same.run hM h fun h0 => ?_
  unfold sessShow
  repeat' (with_reducible first
    | assumption
    | exact Same.bits rfl
    | (extract_lets +onlyGivenNames z; change _ → _ at z; apply Same.cutF z; subst z)
    | apply fset_frame)

theorem sessionEnd_frame {m : Nat} {s0 : State} : ∀ s x1, 6292610 &&& m = 6292610 → Same m s0 s → Same m s0 (sessionEnd s x1) := by
  intro s x1 hM h
  refine Same.run hM h fun h0 => ?_
  unfold sessionEnd
  repeat' (with_reducible first
    | assumption
    | exact Same.bits rfl
    | (extract_lets +onlyGivenNames z; change State at z; apply Same.cutS h0 (x := z); unfold z; clear z; rotate_left; intro h; clear_value z; apply Same.letS h; clear h z; intro z h)
    | (extract_lets +onlyGivenNames z; clear_value z; apply Same.letAny z; clear z; intro z)
    | apply Same.ite
    | apply sessShow_frame
    | apply sessionZero_frame
    | apply freezeEnd_frame
    | (refine Same.updSpdm ?_ rfl; assumption)
    | split)

theorem pathEnd_frame {m : Nat} {s0 : State} : ∀ s x1, 6292610 &&& m = 6292610 → Same m s0 s → Same m s0 (pathEnd s x1) := by
  intro s x1 hM h
  refine Same.run hM h fun h0 => ?_
  unfold pathEnd
  repeat' (with_reducible first
    | assumption
    | intro _
    | exact Same.bits rfl
    | (extract_lets +onlyGivenNames z; change State at z; apply Same.cutS h0 (x := z); unfold z; clear z; rotate_left; intro h; clear_value z; apply Same.letS h; clear h z; intro z h)
    | (extract_lets +onlyGivenNames z; clear_value z; apply Same.letAny z; clear z; intro z)
    | apply sessionZero_frame
    | apply sessionEnd_frame
    | (refine Same.updSpdm ?_ rfl; assumption)
    | apply Same.foldl)

theorem execSidebandBusReset_frame {m : Nat} {s0 : State} : ∀ s, 6292610 &&& m = 6292610 → Same m s0 s → SameT m s0 (execSidebandBusReset s) := by
  intro s hM h
  refine SameT.run hM h fun h0 => ?_
  unfold execSidebandBusReset
  repeat' (with_reducible first
    | assumption
    | exact Same.bits rfl
    | apply SameT.next
    | apply Same.ite
    | apply pathEnd_frame
    | apply fon_frame)

theorem execGetLogSliceBinding_frame {m : Nat} {s0 : State} : ∀ x0 s, 2048 &&& m = 2048 → Same m s0 s → SameT m s0 (execGetLogSliceBinding x0 s) := by
  intro x0 s hM h
  refine SameT.run hM h fun h0 => ?_
  unfold execGetLogSliceBinding
  repeat' (with_reducible first
    | assumption
    | intro _
    | exact Same.bits rfl
    | apply SameT.next
    | apply logRun_frame)

theorem execBpmQuotaWrite_frame {m : Nat} {s0 : State} : ∀ x0 x1 x2 s, 2360338 &&& m = 2360338 → Same m s0 s → SameT m s0 (execBpmQuotaWrite x0 x1 x2 s) := by
  intro x0 x1 x2 s hM h
  refine SameT.run hM h fun h0 => ?_
  unfold execBpmQuotaWrite
  repeat' (with_reducible first
    | assumption
    | intro _
    | exact Same.bits rfl
    | apply SameT.next
    | apply gated_frame
    | apply quotaWrite_frame)

theorem panicOff_frame {m : Nat} {s0 : State} : ∀ s, 524290 &&& m = 524290 → Same m s0 s → Same m s0 (panicOff s) := by
  intro s hM h
  refine Same.run hM h fun h0 => ?_
  unfold panicOff
  repeat' (with_reducible first
    | assumption
    | intro _
    | exact Same.bits rfl
    | (extract_lets +onlyGivenNames z; change State at z; apply Same.cutS h0 (x := z); unfold z; clear z; rotate_left; intro h; clear_value z; apply Same.letS h; clear h z; intro z h)
    | (extract_lets +onlyGivenNames z; change _ × _ × State at z; apply Same.cut22 h0 (x := z); unfold z; clear z; rotate_left; intro h; clear_value z; apply Same.let22 (x := z) h; clear h z; intro z h)
    | (extract_lets +onlyGivenNames z; change _ × State at z; apply Same.cut2 h0 (x := z); unfold z; clear z; rotate_left; intro h; clear_value z; apply Same.let2 (x := z) h; clear h z; intro z h)
    | (extract_lets +onlyGivenNames z; clear_value z; apply Same.letAny z; clear z; intro z)
    | apply Same.ite
    | apply foff_frame
    | apply delaysRefresh_frame
    | apply owedIssue_frame
    | apply Same.foldl
    | split
    | dsimp -zeta only)

theorem execPanicEnd_frame {m : Nat} {s0 : State} : ∀ s, 524290 &&& m = 524290 → Same m s0 s → SameT m s0 (execPanicEnd s) := by
  intro s hM h
  refine SameT.run hM h fun h0 => ?_
  unfold execPanicEnd
  repeat' (with_reducible first
    | assumption
    | exact Same.bits rfl
    | apply SameT.next
    | apply SameT.ite
    | apply Same.ite
    | apply panicOff_frame
    | split
    | dsimp -zeta only)

theorem rtAsk_frame {m : Nat} {s0 : State} : ∀ s x1, 524288 &&& m = 524288 → Same m s0 s → Same m s0 (rtAsk s x1) := by
  intro s x1 hM h
  refine Same.run hM h fun h0 => ?_
  unfold rtAsk
  repeat' (with_reducible first
    | assumption
    | exact Same.bits rfl
    | (refine Same.updDmc ?_ rfl; assumption)
    | dsimp -zeta only)

theorem ctxSquashed_frame {m : Nat} {s0 : State} : ∀ s x1 x2 x3, 393218 &&& m = 393218 → Same m s0 s → Same m s0 (ctxSquashed s x1 x2 x3) := by
  intro s x1 x2 x3 hM h
  refine Same.run hM h fun h0 => ?_
  unfold ctxSquashed
  repeat' (with_reducible first
    | assumption
    | intro _
    | exact Same.bits rfl
    | (extract_lets +onlyGivenNames z; change State at z; apply Same.cutS h0 (x := z); unfold z; clear z; rotate_left; intro h; clear_value z; apply Same.letS h; clear h z; intro z h)
    | (extract_lets +onlyGivenNames z; change _ × _ × State at z; apply Same.cut22 h0 (x := z); unfold z; clear z; rotate_left; intro h; clear_value z; apply Same.let22 (x := z) h; clear h z; intro z h)
    | (extract_lets +onlyGivenNames z; change _ × State at z; apply Same.cut2 h0 (x := z); unfold z; clear z; rotate_left; intro h; clear_value z; apply Same.let2 (x := z) h; clear h z; intro z h)
    | (extract_lets +onlyGivenNames z; clear_value z; apply Same.letAny z; clear z; intro z)
    | apply complete_frame
    | apply ctxIdle_frame
    | apply Same.foldl
    | dsimp -zeta only)

theorem cappedCount_frame {m : Nat} {s0 : State} : ∀ s x1 x2 x3 x4, 2 &&& m = 2 → Same m s0 s → Same m s0 (cappedCount s x1 x2 x3 x4) := by
  intro s x1 x2 x3 x4 hM h
  refine Same.run hM h fun h0 => ?_
  unfold cappedCount
  repeat' (with_reducible first
    | assumption
    | exact Same.bits rfl
    | apply Same.ite
    | apply fadd_frame
    | split
    | dsimp -zeta only)

theorem busGrant_frame {m : Nat} {s0 : State} : ∀ s x1, 950274 &&& m = 950274 → Same m s0 s → Same m s0 (busGrant s x1) := by
  intro s x1 hM h
  refine Same.run hM h fun h0 => ?_
  unfold busGrant
  repeat' (with_reducible first
    | assumption
    | intro _
    | exact Same.bits rfl
    | (extract_lets +onlyGivenNames z; change State at z; apply Same.cutS h0 (x := z); unfold z; clear z; rotate_left; intro h; clear_value z; apply Same.letS h; clear h z; intro z h)
    | (extract_lets +onlyGivenNames z; change _ × _ × State at z; apply Same.cut22 h0 (x := z); unfold z; clear z; rotate_left; intro h; clear_value z; apply Same.let22 (x := z) h; clear h z; intro z h)
    | (extract_lets +onlyGivenNames z; change _ × State at z; apply Same.cut2 h0 (x := z); unfold z; clear z; rotate_left; intro h; clear_value z; apply Same.let2 (x := z) h; clear h z; intro z h)
    | (extract_lets +onlyGivenNames z; clear_value z; apply Same.letAny z; clear z; intro z)
    | apply Same.ite
    | apply chsPut_frame
    | apply ctxSquashed_frame
    | apply cappedCount_frame
    | apply issued_frame
    | apply rtAsk_frame
    | (refine Same.updDsc ?_ rfl; assumption)
    | apply Same.foldl
    | split
    | dsimp -zeta only)

theorem lossNote_frame {m : Nat} {s0 : State} : ∀ s x1, 67108866 &&& m = 67108866 → Same m s0 s → Same m s0 (lossNote s x1) := by
  intro s x1 hM h
  refine Same.run hM h fun h0 => ?_
  unfold lossNote
  repeat' (with_reducible first
    | assumption
    | exact Same.bits rfl
    | (extract_lets +onlyGivenNames z; change State at z; apply Same.cutS h0 (x := z); unfold z; clear z; rotate_left; intro h; clear_value z; apply Same.letS h; clear h z; intro z h)
    | (extract_lets +onlyGivenNames z; change _ × _ × State at z; apply Same.cut22 h0 (x := z); unfold z; clear z; rotate_left; intro h; clear_value z; apply Same.let22 (x := z) h; clear h z; intro z h)
    | (extract_lets +onlyGivenNames z; change _ × State at z; apply Same.cut2 h0 (x := z); unfold z; clear z; rotate_left; intro h; clear_value z; apply Same.let2 (x := z) h; clear h z; intro z h)
    | (extract_lets +onlyGivenNames z; clear_value z; apply Same.letAny z; clear z; intro z)
    | apply Same.ite
    | apply Same2.ite
    | apply fset_frame
    | (refine Same.updBot ?_ rfl; assumption)
    | split
    | dsimp -zeta only
    | apply Same2.mk')

theorem psExcursion_frame {m : Nat} {s0 : State} : ∀ s, 2050 &&& m = 2050 → Same m s0 s → Same m s0 (psExcursion s) := by
  intro s hM h
  refine Same.run hM h fun h0 => ?_
  unfold psExcursion
  repeat' (with_reducible first
    | assumption
    | exact Same.bits rfl
    | apply Same.ite
    | apply psRefreshDram_frame
    | apply foff_frame
    | apply finc_frame
    | apply fon_frame)

theorem execMaintenanceExcursion_frame {m : Nat} {s0 : State} : ∀ s, 2050 &&& m = 2050 → Same m s0 s → SameT m s0 (execMaintenanceExcursion s) := by
  intro s hM h
  refine SameT.run hM h fun h0 => ?_
  unfold execMaintenanceExcursion
  repeat' (with_reducible first
    | assumption
    | exact Same.bits rfl
    | apply SameT.next
    | apply psExcursion_frame)

theorem eraseDrained_frame {m : Nat} {s0 : State} : ∀ s x1, 4319234 &&& m = 4319234 → Same m s0 s → Same m s0 (eraseDrained s x1) := by
  intro s x1 hM h
  refine Same.run hM h fun h0 => ?_
  unfold eraseDrained
  repeat' (with_reducible first
    | assumption
    | exact Same.bits rfl
    | (extract_lets +onlyGivenNames z; change State at z; apply Same.cutS h0 (x := z); unfold z; clear z; rotate_left; intro h; clear_value z; apply Same.letS h; clear h z; intro z h)
    | (extract_lets +onlyGivenNames z; change _ × _ × State at z; apply Same.cut22 h0 (x := z); unfold z; clear z; rotate_left; intro h; clear_value z; apply Same.let22 (x := z) h; clear h z; intro z h)
    | (extract_lets +onlyGivenNames z; change _ × State at z; apply Same.cut2 h0 (x := z); unfold z; clear z; rotate_left; intro h; clear_value z; apply Same.let2 (x := z) h; clear h z; intro z h)
    | (extract_lets +onlyGivenNames z; clear_value z; apply Same.letAny z; clear z; intro z)
    | apply Same.ite
    | apply Same2.ite
    | apply journalFor_frame
    | apply nsEmpty_frame
    | apply drawKey_frame
    | apply material1_frame
    | apply slotPut_frame
    | apply recPut_frame
    | apply fon_frame
    | apply kstShow_frame
    | (refine Same.updKst ?_ rfl; assumption)
    | (refine Same.updKst ?_ rfl; apply Same.ofPair2; assumption)
    | (apply Same.ofPair2; assumption)
    | (apply Same2.out; apply drawKey_frame)
    | split
    | dsimp -zeta only
    | apply Same2.mk')

theorem execCryptoEraseDrained_frame {m : Nat} {s0 : State} : ∀ x0 s, 4319234 &&& m = 4319234 → Same m s0 s → SameT m s0 (execCryptoEraseDrained x0 s) := by
  intro x0 s hM h
  refine SameT.run hM h fun h0 => ?_
  unfold execCryptoEraseDrained
  repeat' (with_reducible first
    | assumption
    | exact Same.bits rfl
    | apply SameT.next
    | apply eraseDrained_frame)

theorem execDgeHkdfExpand_frame {m : Nat} {s0 : State} : ∀ x0 s, 687341138 &&& m = 687341138 → Same m s0 s → SameT m s0 (execDgeHkdfExpand x0 s) := by
  intro x0 s hM h
  refine SameT.run hM h fun h0 => ?_
  unfold execDgeHkdfExpand
  repeat' (with_reducible first
    | assumption
    | exact Same.bits rfl
    | apply SameT.next
    | apply dgeDone_frame
    | dsimp -zeta only)

theorem execGetLogSelfTest_frame {m : Nat} {s0 : State} : ∀ x0 s, 536872960 &&& m = 536872960 → Same m s0 s → SameT m s0 (execGetLogSelfTest x0 s) := by
  intro x0 s hM h
  refine SameT.run hM h fun h0 => ?_
  unfold execGetLogSelfTest
  repeat' (with_reducible first
    | assumption
    | intro _
    | exact Same.bits rfl
    | apply SameT.next
    | (extract_lets +onlyGivenNames z; change _ × State at z; apply Same.cut2 h0 (x := z); unfold z; clear z; rotate_left; intro h; clear_value z; apply Same.let2 (x := z) h; clear h z; intro z h)
    | apply logRun_frame
    | apply dstPercent_frame
    | apply openTaken_frame)

theorem sensorFault_frame {m : Nat} {s0 : State} : ∀ s x1, 268435458 &&& m = 268435458 → Same m s0 s → Same m s0 (sensorFault s x1) := by
  intro s x1 hM h
  refine Same.run hM h fun h0 => ?_
  unfold sensorFault
  repeat' (with_reducible first
    | assumption
    | exact Same.bits rfl
    | (extract_lets +onlyGivenNames z; change State at z; apply Same.cutS h0 (x := z); unfold z; clear z; rotate_left; intro h; clear_value z; apply Same.letS h; clear h z; intro z h)
    | (extract_lets +onlyGivenNames z; clear_value z; apply Same.letAny z; clear z; intro z)
    | apply Same.ite
    | apply foff_frame
    | apply fon_frame
    | (refine Same.updTsn ?_ rfl; assumption))

theorem sensorSample_frame {m : Nat} {s0 : State} : ∀ s x1 x2, 270533634 &&& m = 270533634 → Same m s0 s → Same m s0 (sensorSample s x1 x2) := by
  intro s x1 x2 hM h
  refine Same.run hM h fun h0 => ?_
  unfold sensorSample
  repeat' (with_reducible first
    | assumption
    | exact Same.bits rfl
    | (extract_lets +onlyGivenNames z; change State at z; apply Same.cutS h0 (x := z); unfold z; clear z; rotate_left; intro h; clear_value z; apply Same.letS h; clear h z; intro z h)
    | (extract_lets +onlyGivenNames z; clear_value z; apply Same.letAny z; clear z; intro z)
    | apply Same.ite
    | apply sensorRead_frame
    | apply sensorFault_frame
    | apply fset_frame
    | (refine Same.updTsn ?_ rfl; assumption)
    | split)

theorem tailFlush_frame {m : Nat} {s0 : State} : ∀ s x1, 124962 &&& m = 124962 → Same m s0 s → Same m s0 (tailFlush s x1) := by
  intro s x1 hM h
  refine Same.run hM h fun h0 => ?_
  unfold tailFlush
  repeat' (with_reducible first
    | assumption
    | exact Same.bits rfl
    | (extract_lets +onlyGivenNames z; change State at z; apply Same.cutS h0 (x := z); unfold z; clear z; rotate_left; intro h; clear_value z; apply Same.letS h; clear h z; intro z h)
    | (extract_lets +onlyGivenNames z; change _ × _ × State at z; apply Same.cut22 h0 (x := z); unfold z; clear z; rotate_left; intro h; clear_value z; apply Same.let22 (x := z) h; clear h z; intro z h)
    | (extract_lets +onlyGivenNames z; change _ × State at z; apply Same.cut2 h0 (x := z); unfold z; clear z; rotate_left; intro h; clear_value z; apply Same.let2 (x := z) h; clear h z; intro z h)
    | (extract_lets +onlyGivenNames z; clear_value z; apply Same.letAny z; clear z; intro z)
    | apply Same.ite
    | apply reach_frame
    | apply leaveTail_frame
    | split
    | dsimp -zeta only)

theorem execTailFlush_frame {m : Nat} {s0 : State} : ∀ x0 s, 124962 &&& m = 124962 → Same m s0 s → SameT m s0 (execTailFlush x0 s) := by
  intro x0 s hM h
  refine SameT.run hM h fun h0 => ?_
  unfold execTailFlush
  repeat' (with_reducible first
    | assumption
    | exact Same.bits rfl
    | apply SameT.next
    | apply tailFlush_frame)

theorem scoreTick_frame {m : Nat} {s0 : State} : ∀ s, 16384 &&& m = 16384 → Same m s0 s → Same m s0 (scoreTick s) := by
  intro s hM h
  refine Same.run hM h fun h0 => ?_
  unfold scoreTick
  repeat' (with_reducible first
    | assumption
    | intro _
    | exact Same.bits rfl
    | (extract_lets +onlyGivenNames z; change State at z; apply Same.cutS h0 (x := z); unfold z; clear z; rotate_left; intro h; clear_value z; apply Same.letS h; clear h z; intro z h)
    | (extract_lets +onlyGivenNames z; change _ × _ × State at z; apply Same.cut22 h0 (x := z); unfold z; clear z; rotate_left; intro h; clear_value z; apply Same.let22 (x := z) h; clear h z; intro z h)
    | (extract_lets +onlyGivenNames z; change _ × State at z; apply Same.cut2 h0 (x := z); unfold z; clear z; rotate_left; intro h; clear_value z; apply Same.let2 (x := z) h; clear h z; intro z h)
    | (extract_lets +onlyGivenNames z; clear_value z; apply Same.letAny z; clear z; intro z)
    | (refine Same.updPlc ?_ rfl; assumption)
    | apply Same.foldl
    | split
    | dsimp -zeta only)

end Sys2Proof.Machine
end

