-- ==== Sys2Proof/Laws/Frame6.lean ====
section
/-! SUPPORT. What each operation may change (Sys2Proof/Laws/Frame.lean), part 6 of 6: execAcmLock to execAspmL1Exit. A number is the set of
fields of State, bit k the k-th. -/
namespace Sys2Proof.Machine
open Sys2Proof
set_option maxRecDepth 4000
set_option linter.all false

theorem execAcmLock_frame {m : Nat} {s0 : State} : ∀ x0 s, 2098258 &&& m = 2098258 → Same m s0 s → SameT m s0 (execAcmLock x0 s) := by
  intro x0 s hM h
  refine SameT.run hM h fun h0 => ?_
  unfold execAcmLock
  repeat' (with_reducible first
    | assumption
    | intro _
    | exact Same.bits rfl
    | apply SameT.next
    | apply gated_frame
    | apply matrixLock_frame)

theorem execSliceUnbindPort_frame {m : Nat} {s0 : State} : ∀ x0 s, 2195074 &&& m = 2195074 → Same m s0 s → SameT m s0 (execSliceUnbindPort x0 s) := by
  intro x0 s hM h
  refine SameT.run hM h fun h0 => ?_
  unfold execSliceUnbindPort
  repeat' (with_reducible first
    | unfold bindPortDef
    | assumption
    | intro _
    | exact Same.bits rfl
    | apply SameT.next
    | apply mbxRun_frame
    | apply bindPort_frame
    | apply OpKeeps.opDef)

theorem execNvmeMiSubsystemHealthPoll_frame {m : Nat} {s0 : State} : ∀ s, 2100738 &&& m = 2100738 → Same m s0 s → SameT m s0 (execNvmeMiSubsystemHealthPoll s) := by
  intro s hM h
  refine SameT.run hM h fun h0 => ?_
  unfold execNvmeMiSubsystemHealthPoll
  repeat' (with_reducible first
    | assumption
    | exact Same.bits rfl
    | apply SameT.next
    | apply Same.ite
    | apply sbSay_frame)

theorem execCallGrant_frame {m : Nat} {s0 : State} : ∀ x0 s, 1048578 &&& m = 1048578 → Same m s0 s → SameT m s0 (execCallGrant x0 s) := by
  intro x0 s hM h
  refine SameT.run hM h fun h0 => ?_
  unfold execCallGrant
  repeat' (with_reducible first
    | assumption
    | exact Same.bits rfl
    | apply SameT.next
    | apply Same.ite
    | apply callGrant_frame
    | split)

theorem execPveCmac_frame {m : Nat} {s0 : State} : ∀ x0 x1 x2 x3 x4 s, 150470226 &&& m = 150470226 → Same m s0 s → SameT m s0 (execPveCmac x0 x1 x2 x3 x4 s) := by
  intro x0 x1 x2 x3 x4 s hM h
  refine SameT.run hM h fun h0 => ?_
  unfold execPveCmac
  repeat' (with_reducible first
    | assumption
    | intro _
    | exact Same.bits rfl
    | apply SameT.next
    | apply pveRun_frame
    | apply pveAnswer_frame
    | apply finc_frame)

theorem decided_frame {m : Nat} {s0 : State} : ∀ s x1 x2 x3 x4, 18434 &&& m = 18434 → Same m s0 s → Same m s0 (decided s x1 x2 x3 x4) := by
  intro s x1 x2 x3 x4 hM h
  refine Same.run hM h fun h0 => ?_
  unfold decided
  repeat' (with_reducible first
    | assumption
    | exact Same.bits rfl
    | (extract_lets +onlyGivenNames z; change State at z; apply Same.cutS h0 (x := z); unfold z; clear z; rotate_left; intro h; clear_value z; apply Same.letS h; clear h z; intro z h)
    | (extract_lets +onlyGivenNames z; change _ × State at z; apply Same.cut2 h0 (x := z); unfold z; clear z; rotate_left; intro h; clear_value z; apply Same.let2 (x := z) h; clear h z; intro z h)
    | (extract_lets +onlyGivenNames z; clear_value z; apply Same.letAny z; clear z; intro z)
    | apply Same.ite
    | apply chooseXte_frame
    | apply finc_frame
    | apply ctxUpd_frame
    | (refine Same.updPlc ?_ rfl; assumption))

theorem actionTakes_frame {m : Nat} {s0 : State} : ∀ s x1, 124930 &&& m = 124930 → Same m s0 s → Same m s0 (actionTakes s x1) := by
  intro s x1 hM h
  refine Same.run hM h fun h0 => ?_
  unfold actionTakes
  repeat' (with_reducible first
    | assumption
    | exact Same.bits rfl
    | (extract_lets +onlyGivenNames z; change State at z; apply Same.cutS h0 (x := z); unfold z; clear z; rotate_left; intro h; clear_value z; apply Same.letS h; clear h z; intro z h)
    | (extract_lets +onlyGivenNames z; clear_value z; apply Same.letAny z; clear z; intro z)
    | apply Same.ite
    | apply zonePut_frame
    | apply ctxFail_frame
    | apply actEnd_frame
    | apply actNow_frame
    | split)

theorem execSmbusPecError_frame {m : Nat} {s0 : State} : ∀ s, 2 &&& m = 2 → Same m s0 s → SameT m s0 (execSmbusPecError s) := by
  intro s hM h
  refine SameT.run hM h fun h0 => ?_
  unfold execSmbusPecError
  repeat' (with_reducible first
    | assumption
    | exact Same.bits rfl
    | apply SameT.next
    | apply Same.ite
    | apply fon_frame)

theorem execDescReadStatus_frame {m : Nat} {s0 : State} : ∀ x0 s, 146275922 &&& m = 146275922 → Same m s0 s → SameT m s0 (execDescReadStatus x0 s) := by
  intro x0 s hM h
  refine SameT.run hM h fun h0 => ?_
  unfold execDescReadStatus
  repeat' (with_reducible first
    | assumption
    | exact Same.bits rfl
    | apply SameT.next
    | apply takeOp_frame)

theorem perstAssert_frame {m : Nat} {s0 : State} : ∀ s x1, 74972866 &&& m = 74972866 → Same m s0 s → Same m s0 (perstAssert s x1) := by
  intro s x1 hM h
  refine Same.run hM h fun h0 => ?_
  unfold perstAssert
  repeat' (with_reducible first
    | assumption
    | exact Same.bits rfl
    | (extract_lets +onlyGivenNames z; change State at z; apply Same.cutS h0 (x := z); unfold z; clear z; rotate_left; intro h; clear_value z; apply Same.letS h; clear h z; intro z h)
    | (extract_lets +onlyGivenNames z; clear_value z; apply Same.letAny z; clear z; intro z)
    | apply Same.ite
    | apply fon_frame
    | apply portUpd_frame
    | apply pathEnd_frame
    | apply linkLost_frame
    | apply ctrlReset_frame
    | split)

theorem execPerstAssert_frame {m : Nat} {s0 : State} : ∀ x0 s, 74972866 &&& m = 74972866 → Same m s0 s → SameT m s0 (execPerstAssert x0 s) := by
  intro x0 s hM h
  refine SameT.run hM h fun h0 => ?_
  unfold execPerstAssert
  repeat' (with_reducible first
    | assumption
    | exact Same.bits rfl
    | apply SameT.next
    | apply perstAssert_frame)

theorem refreshDue_frame {m : Nat} {s0 : State} : ∀ s x1, 524290 &&& m = 524290 → Same m s0 s → Same m s0 (refreshDue s x1) := by
  intro s x1 hM h
  refine Same.run hM h fun h0 => ?_
  unfold refreshDue
  repeat' (with_reducible first
    | assumption
    | exact Same.bits rfl
    | (extract_lets +onlyGivenNames z; change State at z; apply Same.cutS h0 (x := z); unfold z; clear z; rotate_left; intro h; clear_value z; apply Same.letS h; clear h z; intro z h)
    | (extract_lets +onlyGivenNames z; change _ × _ × State at z; apply Same.cut22 h0 (x := z); unfold z; clear z; rotate_left; intro h; clear_value z; apply Same.let22 (x := z) h; clear h z; intro z h)
    | (extract_lets +onlyGivenNames z; change _ × State at z; apply Same.cut2 h0 (x := z); unfold z; clear z; rotate_left; intro h; clear_value z; apply Same.let2 (x := z) h; clear h z; intro z h)
    | (extract_lets +onlyGivenNames z; clear_value z; apply Same.letAny z; clear z; intro z)
    | apply Same.ite
    | apply fadd_frame
    | apply fon_frame
    | apply finc_frame
    | apply delaysRefresh_frame
    | (refine Same.updDmc ?_ rfl; assumption)
    | (refine Same.updDmc ?_ rfl; apply finc_frame)
    | (refine Same.updDmc ?_ rfl; apply fadd_frame)
    | split
    | dsimp -zeta only)

theorem execRefreshDue_frame {m : Nat} {s0 : State} : ∀ x0 s, 524290 &&& m = 524290 → Same m s0 s → SameT m s0 (execRefreshDue x0 s) := by
  intro x0 s hM h
  refine SameT.run hM h fun h0 => ?_
  unfold execRefreshDue
  repeat' (with_reducible first
    | assumption
    | exact Same.bits rfl
    | apply SameT.next
    | apply refreshDue_frame)

theorem execMctpDroppedType_frame {m : Nat} {s0 : State} : ∀ x0 s, 2 &&& m = 2 → Same m s0 s → SameT m s0 (execMctpDroppedType x0 s) := by
  intro x0 s hM h
  refine SameT.run hM h fun h0 => ?_
  unfold execMctpDroppedType
  repeat' (with_reducible first
    | assumption
    | exact Same.bits rfl
    | apply SameT.next
    | apply Same.ite
    | apply finc_frame)

theorem execBufferZeroed_frame {m : Nat} {s0 : State} : ∀ x0 x1 s, 262162 &&& m = 262162 → Same m s0 s → SameT m s0 (execBufferZeroed x0 x1 s) := by
  intro x0 x1 s hM h
  refine SameT.run hM h fun h0 => ?_
  unfold execBufferZeroed
  repeat' (with_reducible first
    | assumption
    | exact Same.bits rfl
    | apply SameT.next
    | apply bufZeroed_frame)

theorem execCoreWatchdogExpiry_frame {m : Nat} {s0 : State} : ∀ x0 s, 246939218 &&& m = 246939218 → Same m s0 s → SameT m s0 (execCoreWatchdogExpiry x0 s) := by
  intro x0 s hM h
  refine SameT.run hM h fun h0 => ?_
  unfold execCoreWatchdogExpiry
  repeat' (with_reducible first
    | assumption
    | exact Same.bits rfl
    | apply SameT.next
    | apply coreWatchdog_frame)

theorem execContinuousRead_frame {m : Nat} {s0 : State} : ∀ x0 x1 x2 s, 581436434 &&& m = 581436434 → Same m s0 s → SameT m s0 (execContinuousRead x0 x1 x2 s) := by
  intro x0 x1 x2 s hM h
  refine SameT.run hM h fun h0 => ?_
  unfold execContinuousRead
  repeat' (with_reducible first
    | assumption
    | intro _
    | exact Same.bits rfl
    | apply SameT.next
    | apply gated_frame
    | apply crRun_frame
    | apply crGo_frame
    | dsimp -zeta only)

theorem tempEvents_frame {m : Nat} {s0 : State} : ∀ u s, 2048 &&& m = 2048 → Same m s0 s → Same m s0 (tempEvents u s) := by
  intro u s hM h
  unfold tempEvents
  refine Same.foldl (fun t ht a => ?_) _ _ h
  split
  · exact raiseEvent_frame _ _ _ (Same.sub (by decide) hM) ht
  · exact ht

theorem msixFor_frame {m : Nat} {s0 : State} : ∀ s x1 x2, 2048 &&& m = 2048 → Same m s0 s → Same m s0 (msixFor s x1 x2) := by
  intro s x1 x2 hM h
  refine Same.run hM h fun h0 => ?_
  unfold msixFor
  repeat' (with_reducible first
    | assumption
    | exact Same.bits rfl
    | (extract_lets +onlyGivenNames z; change State at z; apply Same.cutS h0 (x := z); unfold z; clear z; rotate_left; intro h; clear_value z; apply Same.letS h; clear h z; intro z h)
    | (extract_lets +onlyGivenNames z; clear_value z; apply Same.letAny z; clear z; intro z)
    | apply Same.ite
    | apply vectorSend_frame
    | apply cqUpd_frame)

theorem execClsBlankCheck_frame {m : Nat} {s0 : State} : ∀ s, 180354642 &&& m = 180354642 → Same m s0 s → SameT m s0 (execClsBlankCheck s) := by
  intro s hM h
  refine SameT.run hM h fun h0 => ?_
  unfold execClsBlankCheck
  repeat' (with_reducible first
    | assumption
    | exact Same.bits rfl
    | apply SameT.next
    | apply clsStart_frame
    | dsimp -zeta only)

theorem machineCheck_frame {m : Nat} {s0 : State} : ∀ s x1 x2 x3, 146275922 &&& m = 146275922 → Same m s0 s → Same m s0 (machineCheck s x1 x2 x3) := by
  intro s x1 x2 x3 hM h
  refine Same.run hM h fun h0 => ?_
  unfold machineCheck
  repeat' (with_reducible first
    | assumption
    | intro _
    | exact Same.bits rfl
    | (extract_lets +onlyGivenNames z; change State at z; apply Same.cutS h0 (x := z); unfold z; clear z; rotate_left; intro h; clear_value z; apply Same.letS h; clear h z; intro z h)
    | (extract_lets +onlyGivenNames z; change _ × _ × State at z; apply Same.cut22 h0 (x := z); unfold z; clear z; rotate_left; intro h; clear_value z; apply Same.let22 (x := z) h; clear h z; intro z h)
    | (extract_lets +onlyGivenNames z; change _ × State at z; apply Same.cut2 h0 (x := z); unfold z; clear z; rotate_left; intro h; clear_value z; apply Same.let2 (x := z) h; clear h z; intro z h)
    | (extract_lets +onlyGivenNames z; clear_value z; apply Same.letAny z; clear z; intro z)
    | apply Same.ite
    | apply fset_frame
    | apply fon_frame
    | apply post_frame
    | apply chsPut_frame
    | apply complete_frame
    | apply raiseVio_frame
    | apply Same.foldl
    | split
    | dsimp -zeta only)

theorem vrFault_frame {m : Nat} {s0 : State} : ∀ s x1 x2, 3146754 &&& m = 3146754 → Same m s0 s → Same m s0 (vrFault s x1 x2) := by
  intro s x1 x2 hM h
  refine Same.run hM h fun h0 => ?_
  unfold vrFault
  repeat' (with_reducible first
    | assumption
    | exact Same.bits rfl
    | (extract_lets +onlyGivenNames z; change State at z; apply Same.cutS h0 (x := z); unfold z; clear z; rotate_left; intro h; clear_value z; apply Same.letS h; clear h z; intro z h)
    | (extract_lets +onlyGivenNames z; clear_value z; apply Same.letAny z; clear z; intro z)
    | apply fset_frame
    | apply fon_frame
    | apply ppStart_frame
    | apply post_frame)

theorem execVrTimeout_frame {m : Nat} {s0 : State} : ∀ x0 x1 s, 3146754 &&& m = 3146754 → Same m s0 s → SameT m s0 (execVrTimeout x0 x1 s) := by
  intro x0 x1 s hM h
  refine SameT.run hM h fun h0 => ?_
  unfold execVrTimeout
  repeat' (with_reducible first
    | assumption
    | exact Same.bits rfl
    | apply SameT.next
    | apply SameT.ite
    | apply Same.ite
    | apply vrFault_frame
    | split
    | dsimp -zeta only)

theorem opComplete_frame {m : Nat} {s0 : State} : ∀ s x1 x2 x3 x4 x5 x6, 675277874 &&& m = 675277874 → Same m s0 s → Same m s0 (opComplete s x1 x2 x3 x4 x5 x6) := by
  intro s x1 x2 x3 x4 x5 x6 hM h
  refine Same.run hM h fun h0 => ?_
  unfold opComplete
  repeat' (with_reducible first
    | assumption
    | intro _
    | exact Same.bits rfl
    | (extract_lets +onlyGivenNames z; change State at z; apply Same.cutS h0 (x := z); unfold z; clear z; rotate_left; intro h; clear_value z; apply Same.letS h; clear h z; intro z h)
    | (extract_lets +onlyGivenNames z; change _ × _ × State at z; apply Same.cut22 h0 (x := z); unfold z; clear z; rotate_left; intro h; clear_value z; apply Same.let22 (x := z) h; clear h z; intro z h)
    | (extract_lets +onlyGivenNames z; change _ × State at z; apply Same.cut2 h0 (x := z); unfold z; clear z; rotate_left; intro h; clear_value z; apply Same.let2 (x := z) h; clear h z; intro z h)
    | (extract_lets +onlyGivenNames z; clear_value z; apply Same.letAny z; clear z; intro z)
    | apply Same.ite
    | apply askDrop_frame
    | apply ctxIdle_frame
    | apply reach_frame
    | apply descEnd_frame
    | apply Same.foldl
    | split
    | dsimp -zeta only)

theorem execOperationComplete_frame {m : Nat} {s0 : State} : ∀ x0 x1 x2 x3 x4 x5 s, 675277874 &&& m = 675277874 → Same m s0 s → SameT m s0 (execOperationComplete x0 x1 x2 x3 x4 x5 s) := by
  intro x0 x1 x2 x3 x4 x5 s hM h
  refine SameT.run hM h fun h0 => ?_
  unfold execOperationComplete
  repeat' (with_reducible first
    | assumption
    | exact Same.bits rfl
    | apply SameT.next
    | apply opComplete_frame)

theorem slotWriteDone_frame {m : Nat} {s0 : State} : ∀ s, 125038082 &&& m = 125038082 → Same m s0 s → Same m s0 (slotWriteDone s) := by
  intro s hM h
  refine Same.run hM h fun h0 => ?_
  unfold slotWriteDone
  repeat' (with_reducible first
    | assumption
    | exact Same.bits rfl
    | (extract_lets +onlyGivenNames z; change State at z; apply Same.cutS h0 (x := z); unfold z; clear z; rotate_left; intro h; clear_value z; apply Same.letS h; clear h z; intro z h)
    | (extract_lets +onlyGivenNames z; clear_value z; apply Same.letAny z; clear z; intro z)
    | apply Same.ite
    | apply eventAppend_frame
    | apply slotLock_frame
    | apply bcrPut_frame
    | apply firmwareReset_frame
    | (refine Same.updBot ?_ rfl; apply Same.ofSome; assumption)
    | split)

theorem execTcmUe_frame {m : Nat} {s0 : State} : ∀ x0 s, 2100226 &&& m = 2100226 → Same m s0 s → SameT m s0 (execTcmUe x0 s) := by
  intro x0 s hM h
  refine SameT.run hM h fun h0 => ?_
  unfold execTcmUe
  repeat' (with_reducible first
    | assumption
    | exact Same.bits rfl
    | apply SameT.next
    | apply pairRetire_frame
    | apply fbiton_frame)

theorem execDscPredBankSwitch_frame {m : Nat} {s0 : State} : ∀ x0 x1 s, 2098194 &&& m = 2098194 → Same m s0 s → SameT m s0 (execDscPredBankSwitch x0 x1 s) := by
  intro x0 x1 s hM h
  refine SameT.run hM h fun h0 => ?_
  unfold execDscPredBankSwitch
  repeat' (with_reducible first
    | assumption
    | intro _
    | exact Same.bits rfl
    | apply SameT.next
    | apply gated_frame
    | apply genWrite_frame)

theorem execMctpGetEndpointId_frame {m : Nat} {s0 : State} : ∀ s, 2100738 &&& m = 2100738 → Same m s0 s → SameT m s0 (execMctpGetEndpointId s) := by
  intro s hM h
  refine SameT.run hM h fun h0 => ?_
  unfold execMctpGetEndpointId
  repeat' (with_reducible first
    | assumption
    | exact Same.bits rfl
    | apply SameT.next
    | apply Same.ite
    | apply sbSay_frame)

theorem execCrystalReturn_frame {m : Nat} {s0 : State} : ∀ s, 2098210 &&& m = 2098210 → Same m s0 s → SameT m s0 (execCrystalReturn s) := by
  intro s hM h
  refine SameT.run hM h fun h0 => ?_
  unfold execCrystalReturn
  repeat' (with_reducible first
    | assumption
    | exact Same.bits rfl
    | apply SameT.next
    | (extract_lets +onlyGivenNames z; change Tmb at z; apply Same.cutT z; subst z)
    | (extract_lets +onlyGivenNames z; change State at z; apply Same.cutS h0 (x := z); unfold z; clear z; rotate_left; intro h; clear_value z; apply Same.letS h; clear h z; intro z h)
    | apply fon_frame
    | apply post_frame
    | (apply Same.upd; assumption)
    | (apply Or.inl; apply Eq.refl)
    | (apply Or.inr; constructor; decide; apply Nat.le_refl)
    | split)

theorem execSpdmGetCapabilities_frame {m : Nat} {s0 : State} : ∀ x0 s, 2100354 &&& m = 2100354 → Same m s0 s → SameT m s0 (execSpdmGetCapabilities x0 s) := by
  intro x0 s hM h
  refine SameT.run hM h fun h0 => ?_
  unfold execSpdmGetCapabilities
  repeat' (with_reducible first
    | assumption
    | intro _
    | exact Same.bits rfl
    | apply SameT.next
    | apply spdmRun_frame
    | apply spdmSay_frame
    | dsimp -zeta only)

theorem execClsProgram_frame {m : Nat} {s0 : State} : ∀ s, 180354642 &&& m = 180354642 → Same m s0 s → SameT m s0 (execClsProgram s) := by
  intro s hM h
  refine SameT.run hM h fun h0 => ?_
  unfold execClsProgram
  repeat' (with_reducible first
    | assumption
    | exact Same.bits rfl
    | apply SameT.next
    | apply clsStart_frame
    | dsimp -zeta only)

theorem execClaspDieReset_frame {m : Nat} {s0 : State} : ∀ s, 1073741790 &&& m = 1073741790 → Same m s0 s → SameT m s0 (execClaspDieReset s) := by
  intro s hM h
  refine SameT.run hM h fun h0 => ?_
  unfold execClaspDieReset
  repeat' (with_reducible first
    | assumption
    | exact Same.bits rfl
    | apply SameT.next
    | apply claspReset_frame)

theorem execSessionHeartbeatTimeout_frame {m : Nat} {s0 : State} : ∀ x0 s, 6292642 &&& m = 6292642 → Same m s0 s → SameT m s0 (execSessionHeartbeatTimeout x0 s) := by
  intro x0 s hM h
  refine SameT.run hM h fun h0 => ?_
  unfold execSessionHeartbeatTimeout
  repeat' (with_reducible first
    | assumption
    | exact Same.bits rfl
    | apply SameT.next
    | (extract_lets +onlyGivenNames z; change State at z; apply Same.cutS h0 (x := z); unfold z; clear z; rotate_left; intro h; clear_value z; apply Same.letS h; clear h z; intro z h)
    | (extract_lets +onlyGivenNames z; clear_value z; apply Same.letAny z; clear z; intro z)
    | apply Same.ite
    | apply reach_frame
    | apply sessionEnd_frame
    | split)

theorem execSvcResponse_frame {m : Nat} {s0 : State} : ∀ x0 s, 91483410 &&& m = 91483410 → Same m s0 s → SameT m s0 (execSvcResponse x0 s) := by
  intro x0 s hM h
  refine SameT.run hM h fun h0 => ?_
  unfold execSvcResponse
  repeat' (with_reducible first
    | assumption
    | exact Same.bits rfl
    | apply SameT.next
    | apply svcResponse_frame)

theorem execClsErase_frame {m : Nat} {s0 : State} : ∀ s, 180354642 &&& m = 180354642 → Same m s0 s → SameT m s0 (execClsErase s) := by
  intro s hM h
  refine SameT.run hM h fun h0 => ?_
  unfold execClsErase
  repeat' (with_reducible first
    | assumption
    | exact Same.bits rfl
    | apply SameT.next
    | apply clsStart_frame
    | dsimp -zeta only)

theorem deallocate_frame {m : Nat} {s0 : State} : ∀ x0 s x2, 75778 &&& m = 75778 → Same m s0 s → Same m s0 (deallocate x0 s x2) := by
  intro x0 s x2 hM h
  refine Same.run hM h fun h0 => ?_
  unfold deallocate
  repeat' (with_reducible first
    | assumption
    | exact Same.bits rfl
    | (extract_lets +onlyGivenNames z; change State at z; apply Same.cutS h0 (x := z); unfold z; clear z; rotate_left; intro h; clear_value z; apply Same.letS h; clear h z; intro z h)
    | (extract_lets +onlyGivenNames z; clear_value z; apply Same.letAny z; clear z; intro z)
    | apply locDrop_frame
    | (refine Same.updZne ?_ rfl; assumption)
    | split)

theorem dsmRun_frame {m : Nat} {s0 : State} : ∀ x0 x1 x2 s, 124930 &&& m = 124930 → Same m s0 s → Same m s0 (dsmRun x0 x1 x2 s) := by
  intro x0 x1 x2 s hM h
  refine Same.run hM h fun h0 => ?_
  unfold dsmRun
  repeat' (with_reducible first
    | assumption
    | intro _
    | exact Same.bits rfl
    | (extract_lets +onlyGivenNames z; change State at z; apply Same.cutS h0 (x := z); unfold z; clear z; rotate_left; intro h; clear_value z; apply Same.letS h; clear h z; intro z h)
    | (extract_lets +onlyGivenNames z; change _ × _ × State at z; apply Same.cut22 h0 (x := z); unfold z; clear z; rotate_left; intro h; clear_value z; apply Same.let22 (x := z) h; clear h z; intro z h)
    | (extract_lets +onlyGivenNames z; change _ × State at z; apply Same.cut2 h0 (x := z); unfold z; clear z; rotate_left; intro h; clear_value z; apply Same.let2 (x := z) h; clear h z; intro z h)
    | (extract_lets +onlyGivenNames z; clear_value z; apply Same.letAny z; clear z; intro z)
    | apply Same.ite
    | apply Same2.ite
    | apply ctxEnd_frame
    | apply ctxFail_frame
    | apply fon_frame
    | apply seqTake_frame
    | apply journalHold_frame
    | apply deallocate_frame
    | apply sweep_frame
    | apply Same.foldl
    | apply Same2.foldl
    | (apply Same.ofPair2; assumption)
    | (apply Same2.out; apply seqTake_frame)
    | split
    | dsimp -zeta only
    | apply Same2.mk')

theorem claspResume_frame {m : Nat} {s0 : State} : ∀ s, 102760492 &&& m = 102760492 → Same m s0 s → Same m s0 (claspResume s) := by
  intro s hM h
  refine Same.step hM ?_ h
  have ht : s.tmb.time ≤ resumeTime s := by
    unfold resumeTime
    split
    · omega
    · split <;> omega
  constructor <;> first | (intro _; rfl) | (intro e; exact absurd e (by decide)) | exact fun e => e | exact ht

theorem claspPowerUp_frame {m : Nat} {s0 : State} : ∀ s x1 x2, 1073741822 &&& m = 1073741822 → Same m s0 s → Same m s0 (claspPowerUp s x1 x2) := by
  intro s x1 x2 hM h
  refine Same.run hM h fun h0 => ?_
  unfold claspPowerUp
  repeat' (with_reducible first
    | assumption
    | intro _
    | exact Same.bits rfl
    | (extract_lets +onlyGivenNames z; change State at z; apply Same.cutS h0 (x := z); unfold z; clear z; rotate_left; intro h; clear_value z; apply Same.letS h; clear h z; intro z h)
    | (extract_lets +onlyGivenNames z; change _ × _ × State at z; apply Same.cut22 h0 (x := z); unfold z; clear z; rotate_left; intro h; clear_value z; apply Same.let22 (x := z) h; clear h z; intro z h)
    | (extract_lets +onlyGivenNames z; change _ × State at z; apply Same.cut2 h0 (x := z); unfold z; clear z; rotate_left; intro h; clear_value z; apply Same.let2 (x := z) h; clear h z; intro z h)
    | (extract_lets +onlyGivenNames z; clear_value z; apply Same.letAny z; clear z; intro z)
    | apply Same.ite
    | apply Same2.ite
    | apply computeOff_frame
    | apply resetWindow_frame
    | apply claspResume_frame
    | apply rset_frame
    | apply xtalShow_frame
    | apply fset_frame
    | apply ceilingStore_frame
    | apply clsShow_frame
    | apply backSet_frame
    | apply classShow_frame
    | apply bankShow_frame
    | (refine Same.updSgd ?_ rfl; assumption)
    | split
    | dsimp -zeta only
    | apply Same2.mk')

theorem execClaspPowerUp_frame {m : Nat} {s0 : State} : ∀ x0 x1 s, 1073741822 &&& m = 1073741822 → Same m s0 s → SameT m s0 (execClaspPowerUp x0 x1 s) := by
  intro x0 x1 s hM h
  refine SameT.run hM h fun h0 => ?_
  unfold execClaspPowerUp
  repeat' (with_reducible first
    | assumption
    | exact Same.bits rfl
    | apply SameT.next
    | apply claspPowerUp_frame)

theorem learnRetry_frame {m : Nat} {s0 : State} : ∀ s x1 x2, 2 &&& m = 2 → Same m s0 s → Same m s0 (learnRetry s x1 x2) := by
  intro s x1 x2 hM h
  refine Same.run hM h fun h0 => ?_
  unfold learnRetry
  repeat' (with_reducible first
    | assumption
    | exact Same.bits rfl
    | apply fset_frame)

theorem senseRun_frame {m : Nat} {s0 : State} : ∀ x0 x1 s, 1048578 &&& m = 1048578 → Same m s0 s → SameO m s0 (senseRun x0 x1 s) := by
  have H : ∀ {s0 : State} x0 x1 s, Same 1048578 s0 s → SameO 1048578 s0 (senseRun x0 x1 s) := by
    intro s0 x0 x1 s h0
    induction x1 generalizing x0 s with
    | zero =>
      rw [senseRun]
      repeat' (with_reducible first
      | assumption
      | exact Same.bits rfl
      | apply ih
      | (extract_lets +onlyGivenNames z; change State at z; apply Same.cutS h0 (x := z); unfold z; clear z; rotate_left; intro h; clear_value z; apply Same.letS h; clear h z; intro z h)
      | (extract_lets +onlyGivenNames z; change _ × _ × State at z; apply Same.cut22 h0 (x := z); unfold z; clear z; rotate_left; intro h; clear_value z; apply Same.let22 (x := z) h; clear h z; intro z h)
      | (extract_lets +onlyGivenNames z; change _ × State at z; apply Same.cut2 h0 (x := z); unfold z; clear z; rotate_left; intro h; clear_value z; apply Same.let2 (x := z) h; clear h z; intro z h)
      | (extract_lets +onlyGivenNames z; clear_value z; apply Same.letAny z; clear z; intro z)
      | apply Same.ite
      | apply SameO.ite
      | apply callReturn_frame
      | apply callGrant_frame
      | apply SameO.some
      | exact SameO.none
      | split
      | dsimp -zeta only)
    | succ k ih =>
      rw [senseRun]
      repeat' (with_reducible first
      | assumption
      | exact Same.bits rfl
      | apply ih
      | (extract_lets +onlyGivenNames z; change State at z; apply Same.cutS h0 (x := z); unfold z; clear z; rotate_left; intro h; clear_value z; apply Same.letS h; clear h z; intro z h)
      | (extract_lets +onlyGivenNames z; change _ × _ × State at z; apply Same.cut22 h0 (x := z); unfold z; clear z; rotate_left; intro h; clear_value z; apply Same.let22 (x := z) h; clear h z; intro z h)
      | (extract_lets +onlyGivenNames z; change _ × State at z; apply Same.cut2 h0 (x := z); unfold z; clear z; rotate_left; intro h; clear_value z; apply Same.let2 (x := z) h; clear h z; intro z h)
      | (extract_lets +onlyGivenNames z; clear_value z; apply Same.letAny z; clear z; intro z)
      | apply Same.ite
      | apply SameO.ite
      | apply callReturn_frame
      | apply callGrant_frame
      | apply SameO.some
      | exact SameO.none
      | split
      | dsimp -zeta only)
  intro x0 x1 s hM h
  exact SameO.step hM (H x0 x1 s (Same.refl _ _)) h

theorem decodeRun_frame {m : Nat} {s0 : State} : ∀ s x1 x2 x3 x4 x5, 134219778 &&& m = 134219778 → Same m s0 s → Same2 m s0 (decodeRun s x1 x2 x3 x4 x5) := by
  intro s x1 x2 x3 x4 x5 hM h
  refine Same2.run hM h fun h0 => ?_
  unfold decodeRun
  repeat' (with_reducible first
    | assumption
    | exact Same.bits rfl
    | (extract_lets +onlyGivenNames z; change State at z; apply Same.cutS h0 (x := z); unfold z; clear z; rotate_left; intro h; clear_value z; apply Same.letS h; clear h z; intro z h)
    | (extract_lets +onlyGivenNames z; change _ × _ × State at z; apply Same.cut22 h0 (x := z); unfold z; clear z; rotate_left; intro h; clear_value z; apply Same.let22 (x := z) h; clear h z; intro z h)
    | (extract_lets +onlyGivenNames z; change _ × State at z; apply Same.cut2 h0 (x := z); unfold z; clear z; rotate_left; intro h; clear_value z; apply Same.let2 (x := z) h; clear h z; intro z h)
    | (extract_lets +onlyGivenNames z; clear_value z; apply Same.letAny z; clear z; intro z)
    | apply retryHist_frame
    | apply stepMove_frame
    | apply diagDecode_frame
    | apply ageDecode_frame
    | apply borrow_frame
    | apply decodeOne_frame
    | apply learnRetry_frame
    | (apply Same2.out; apply decodeOne_frame)
    | dsimp -zeta only
    | apply Same2.mk')

theorem mateRepair_frame {m : Nat} {s0 : State} : ∀ s x1 x2 x3 x4 x5, 137620482 &&& m = 137620482 → Same m s0 s → Same m s0 (mateRepair s x1 x2 x3 x4 x5) := by
  intro s x1 x2 x3 x4 x5 hM h
  refine Same.run hM h fun h0 => ?_
  unfold mateRepair
  repeat' (with_reducible first
    | assumption
    | exact Same.bits rfl
    | apply Same.ite
    | apply repairUnit_frame
    | split
    | dsimp -zeta only)

theorem memberDecode_frame {m : Nat} {s0 : State} : ∀ s x1 x2, 137620482 &&& m = 137620482 → Same m s0 s → Same m s0 (memberDecode s x1 x2) := by
  intro s x1 x2 hM h
  refine Same.run hM h fun h0 => ?_
  unfold memberDecode
  repeat' (with_reducible first
    | assumption
    | exact Same.bits rfl
    | (extract_lets +onlyGivenNames z; change State at z; apply Same.cutS h0 (x := z); unfold z; clear z; rotate_left; intro h; clear_value z; apply Same.letS h; clear h z; intro z h)
    | (extract_lets +onlyGivenNames z; change _ × _ × State at z; apply Same.cut22 h0 (x := z); unfold z; clear z; rotate_left; intro h; clear_value z; apply Same.let22 (x := z) h; clear h z; intro z h)
    | (extract_lets +onlyGivenNames z; change _ × State at z; apply Same.cut2 h0 (x := z); unfold z; clear z; rotate_left; intro h; clear_value z; apply Same.let2 (x := z) h; clear h z; intro z h)
    | (extract_lets +onlyGivenNames z; clear_value z; apply Same.letAny z; clear z; intro z)
    | apply Same.ite
    | apply Same2.ite
    | apply SameO.ite
    | apply senseRun_frame
    | apply decodeRun_frame
    | apply mateRepair_frame
    | apply reboundFail_frame
    | (refine Same.updDsc ?_ rfl; assumption)
    | (refine Same.updDsc ?_ rfl; apply Same.ofPair2; assumption)
    | (refine Same.updDsc ?_ rfl; apply Same.ofSome; assumption)
    | (apply Same.ofPair2; assumption)
    | (apply Same.ofSome; assumption)
    | (apply Same2.out; apply decodeRun_frame)
    | split
    | dsimp -zeta only
    | apply Same2.mk')

theorem bgDecode_frame {m : Nat} {s0 : State} : ∀ s x1 x2, 137620482 &&& m = 137620482 → Same m s0 s → Same m s0 (bgDecode s x1 x2) := by
  intro s x1 x2 hM h
  refine Same.run hM h fun h0 => ?_
  unfold bgDecode
  repeat' (with_reducible first
    | assumption
    | exact Same.bits rfl
    | (extract_lets +onlyGivenNames z; change State at z; apply Same.cutS h0 (x := z); unfold z; clear z; rotate_left; intro h; clear_value z; apply Same.letS h; clear h z; intro z h)
    | (extract_lets +onlyGivenNames z; change _ × _ × State at z; apply Same.cut22 h0 (x := z); unfold z; clear z; rotate_left; intro h; clear_value z; apply Same.let22 (x := z) h; clear h z; intro z h)
    | (extract_lets +onlyGivenNames z; change _ × State at z; apply Same.cut2 h0 (x := z); unfold z; clear z; rotate_left; intro h; clear_value z; apply Same.let2 (x := z) h; clear h z; intro z h)
    | (extract_lets +onlyGivenNames z; clear_value z; apply Same.letAny z; clear z; intro z)
    | apply Same.ite
    | apply Same2.ite
    | apply SameO.ite
    | apply senseRun_frame
    | apply decodeRun_frame
    | apply reboundMust_frame
    | apply bgDone_frame
    | apply bgRepair_frame
    | apply fon_frame
    | apply finc_frame
    | apply memberDecode_frame
    | (apply Same.ofPair2; assumption)
    | (apply Same.ofSome; assumption)
    | (apply Same2.out; apply decodeRun_frame)
    | split
    | dsimp -zeta only
    | apply Same2.mk')

theorem ldpcDecode_frame {m : Nat} {s0 : State} : ∀ s x1 x2 x3, 137620482 &&& m = 137620482 → Same m s0 s → Same m s0 (ldpcDecode s x1 x2 x3) := by
  intro s x1 x2 x3 hM h
  refine Same.run hM h fun h0 => ?_
  unfold ldpcDecode
  repeat' (with_reducible first
    | assumption
    | exact Same.bits rfl
    | (extract_lets +onlyGivenNames z; change State at z; apply Same.cutS h0 (x := z); unfold z; clear z; rotate_left; intro h; clear_value z; apply Same.letS h; clear h z; intro z h)
    | (extract_lets +onlyGivenNames z; change _ × _ × State at z; apply Same.cut22 h0 (x := z); unfold z; clear z; rotate_left; intro h; clear_value z; apply Same.let22 (x := z) h; clear h z; intro z h)
    | (extract_lets +onlyGivenNames z; change _ × State at z; apply Same.cut2 h0 (x := z); unfold z; clear z; rotate_left; intro h; clear_value z; apply Same.let2 (x := z) h; clear h z; intro z h)
    | (extract_lets +onlyGivenNames z; clear_value z; apply Same.letAny z; clear z; intro z)
    | apply Same.ite
    | apply Same2.ite
    | apply SameO.ite
    | apply bgDecode_frame
    | apply senseRun_frame
    | apply decodeRun_frame
    | apply reboundMust_frame
    | apply unitDecoded_frame
    | apply repair_frame
    | apply fon_frame
    | apply finc_frame
    | apply memberDecode_frame
    | (apply Same.ofPair2; assumption)
    | (apply Same.ofSome; assumption)
    | (apply Same2.out; apply decodeRun_frame)
    | split
    | dsimp -zeta only
    | apply Same2.mk')

theorem execDirectPageProgram_frame {m : Nat} {s0 : State} : ∀ x0 s, 122882 &&& m = 122882 → Same m s0 s → SameT m s0 (execDirectPageProgram x0 s) := by
  intro x0 s hM h
  refine SameT.run hM h fun h0 => ?_
  unfold execDirectPageProgram
  repeat' (with_reducible first
    | assumption
    | exact Same.bits rfl
    | apply SameT.next
    | apply directProgram_frame)

theorem execVolleyTimeout_frame {m : Nat} {s0 : State} : ∀ x0 s, 2100770 &&& m = 2100770 → Same m s0 s → SameT m s0 (execVolleyTimeout x0 s) := by
  intro x0 s hM h
  refine SameT.run hM h fun h0 => ?_
  unfold execVolleyTimeout
  repeat' (with_reducible first
    | assumption
    | exact Same.bits rfl
    | apply SameT.next
    | (extract_lets +onlyGivenNames z; change State at z; apply Same.cutS h0 (x := z); unfold z; clear z; rotate_left; intro h; clear_value z; apply Same.letS h; clear h z; intro z h)
    | (extract_lets +onlyGivenNames z; clear_value z; apply Same.letAny z; clear z; intro z)
    | apply Same.ite
    | apply reach_frame
    | apply psRefresh_frame
    | apply volleyDrop_frame
    | split)

theorem execClsDescComplete_frame {m : Nat} {s0 : State} : ∀ x0 x1 x2 x3 s, 801111634 &&& m = 801111634 → Same m s0 s → SameT m s0 (execClsDescComplete x0 x1 x2 x3 s) := by
  intro x0 x1 x2 x3 s hM h
  refine SameT.run hM h fun h0 => ?_
  unfold execClsDescComplete
  repeat' (with_reducible first
    | assumption
    | exact Same.bits rfl
    | apply SameT.next
    | apply clsEnd_frame)

theorem execAdminSqTailDoorbell_frame {m : Nat} {s0 : State} : ∀ x0 x1 s, 2100226 &&& m = 2100226 → Same m s0 s → SameT m s0 (execAdminSqTailDoorbell x0 x1 s) := by
  intro x0 x1 s hM h
  refine SameT.run hM h fun h0 => ?_
  unfold execAdminSqTailDoorbell
  repeat' (with_reducible first
    | assumption
    | exact Same.bits rfl
    | apply SameT.next
    | apply adminTail_frame)

theorem execSvcBoundaryScan_frame {m : Nat} {s0 : State} : ∀ x0 s, 256 &&& m = 256 → Same m s0 s → SameT m s0 (execSvcBoundaryScan x0 s) := by
  intro x0 s hM h
  refine SameT.run hM h fun h0 => ?_
  unfold execSvcBoundaryScan
  repeat' (with_reducible first
    | assumption
    | exact Same.bits rfl
    | apply SameT.next
    | (extract_lets +onlyGivenNames z; clear_value z; apply Same.letAny z; clear z; intro z)
    | apply Same.ite
    | apply svcBypass_frame
    | (refine Same.updSvc ?_ rfl; assumption))

theorem execDescTrain_frame {m : Nat} {s0 : State} : ∀ x0 s, 146275922 &&& m = 146275922 → Same m s0 s → SameT m s0 (execDescTrain x0 s) := by
  intro x0 s hM h
  refine SameT.run hM h fun h0 => ?_
  unfold execDescTrain
  repeat' (with_reducible first
    | assumption
    | exact Same.bits rfl
    | apply SameT.next
    | apply takeOp_frame)

theorem collectBlock_frame {m : Nat} {s0 : State} : ∀ s x1 x2 x3, 3263490 &&& m = 3263490 → Same m s0 s → Same m s0 (collectBlock s x1 x2 x3) := by
  intro s x1 x2 x3 hM h
  refine Same.run hM h fun h0 => ?_
  unfold collectBlock
  repeat' (with_reducible first
    | assumption
    | intro _
    | exact Same.bits rfl
    | (extract_lets +onlyGivenNames z; change State at z; apply Same.cutS h0 (x := z); unfold z; clear z; rotate_left; intro h; clear_value z; apply Same.letS h; clear h z; intro z h)
    | (extract_lets +onlyGivenNames z; change _ × _ × State at z; apply Same.cut22 h0 (x := z); unfold z; clear z; rotate_left; intro h; clear_value z; apply Same.let22 (x := z) h; clear h z; intro z h)
    | (extract_lets +onlyGivenNames z; change _ × State at z; apply Same.cut2 h0 (x := z); unfold z; clear z; rotate_left; intro h; clear_value z; apply Same.let2 (x := z) h; clear h z; intro z h)
    | (extract_lets +onlyGivenNames z; clear_value z; apply Same.letAny z; clear z; intro z)
    | apply copyUnit_frame
    | (refine Same.updMed ?_ rfl; assumption)
    | apply Same.foldl
    | split
    | dsimp -zeta only)

theorem heldMove_frame {m : Nat} {s0 : State} : ∀ s x1, 3271682 &&& m = 3271682 → Same m s0 s → Same m s0 (heldMove s x1) := by
  intro s x1 hM h
  refine Same.run hM h fun h0 => ?_
  unfold heldMove
  repeat' (with_reducible first
    | assumption
    | exact Same.bits rfl
    | (extract_lets +onlyGivenNames z; change State at z; apply Same.cutS h0 (x := z); unfold z; clear z; rotate_left; intro h; clear_value z; apply Same.letS h; clear h z; intro z h)
    | (extract_lets +onlyGivenNames z; change _ × _ × State at z; apply Same.cut22 h0 (x := z); unfold z; clear z; rotate_left; intro h; clear_value z; apply Same.let22 (x := z) h; clear h z; intro z h)
    | (extract_lets +onlyGivenNames z; change _ × State at z; apply Same.cut2 h0 (x := z); unfold z; clear z; rotate_left; intro h; clear_value z; apply Same.let2 (x := z) h; clear h z; intro z h)
    | (extract_lets +onlyGivenNames z; clear_value z; apply Same.letAny z; clear z; intro z)
    | apply Same.ite
    | apply setShut_frame
    | apply copyBlock_frame
    | split
    | dsimp -zeta only)

theorem collect1_frame {m : Nat} {s0 : State} : ∀ s, 3271682 &&& m = 3271682 → Same m s0 s → Same m s0 (collect1 s) := by
  intro s hM h
  refine Same.run hM h fun h0 => ?_
  unfold collect1
  repeat' (with_reducible first
    | assumption
    | exact Same.bits rfl
    | apply Same.ite
    | apply collectBlock_frame
    | apply heldMove_frame
    | split
    | dsimp -zeta only)

theorem execCollectionTrigger_frame {m : Nat} {s0 : State} : ∀ s, 3271682 &&& m = 3271682 → Same m s0 s → SameT m s0 (execCollectionTrigger s) := by
  intro s hM h
  refine SameT.run hM h fun h0 => ?_
  unfold execCollectionTrigger
  repeat' (with_reducible first
    | assumption
    | exact Same.bits rfl
    | apply SameT.next
    | apply collect1_frame
    | dsimp -zeta only)

theorem tsnSample_frame {m : Nat} {s0 : State} : ∀ s x1, 405802018 &&& m = 405802018 → Same m s0 s → Same m s0 (tsnSample s x1) := by
  intro s x1 hM h
  refine Same.run hM h fun h0 => ?_
  unfold tsnSample
  repeat' (with_reducible first
    | assumption
    | intro _
    | exact Same.bits rfl
    | (extract_lets +onlyGivenNames z; change State at z; apply Same.cutS h0 (x := z); unfold z; clear z; rotate_left; intro h; clear_value z; apply Same.letS h; clear h z; intro z h)
    | apply Same.ite
    | apply reach_frame
    | apply tempEvents_frame
    | apply composite_frame
    | apply sensorSample_frame
    | apply Same.foldl)

theorem execTsnSample_frame {m : Nat} {s0 : State} : ∀ x0 s, 405802018 &&& m = 405802018 → Same m s0 s → SameT m s0 (execTsnSample x0 s) := by
  intro x0 s hM h
  refine SameT.run hM h fun h0 => ?_
  unfold execTsnSample
  repeat' (with_reducible first
    | assumption
    | exact Same.bits rfl
    | apply SameT.next
    | apply tsnSample_frame)

theorem execChsPost_frame {m : Nat} {s0 : State} : ∀ x0 x1 x2 s, 2229266 &&& m = 2229266 → Same m s0 s → SameT m s0 (execChsPost x0 x1 x2 s) := by
  intro x0 x1 x2 s hM h
  refine SameT.run hM h fun h0 => ?_
  unfold execChsPost
  repeat' (with_reducible first
    | assumption
    | intro _
    | exact Same.bits rfl
    | apply SameT.next
    | apply Same.ite
    | apply gated_frame
    | apply wrPostGo_frame)

theorem eraseSuspend_frame {m : Nat} {s0 : State} : ∀ s, 33554466 &&& m = 33554466 → Same m s0 s → Same m s0 (eraseSuspend s) := by
  intro s hM h
  refine Same.run hM h fun h0 => ?_
  unfold eraseSuspend
  repeat' (with_reducible first
    | assumption
    | exact Same.bits rfl
    | (extract_lets +onlyGivenNames z; change State at z; apply Same.cutS h0 (x := z); unfold z; clear z; rotate_left; intro h; clear_value z; apply Same.letS h; clear h z; intro z h)
    | (extract_lets +onlyGivenNames z; clear_value z; apply Same.letAny z; clear z; intro z)
    | apply Same.ite
    | apply finc_frame
    | apply reach_frame
    | apply clsPut_frame
    | (refine Same.updCls ?_ rfl; assumption)
    | split)

theorem execThermalStep_frame {m : Nat} {s0 : State} : ∀ s, 1048578 &&& m = 1048578 → Same m s0 s → SameT m s0 (execThermalStep s) := by
  intro s hM h
  refine SameT.run hM h fun h0 => ?_
  unfold execThermalStep
  repeat' (with_reducible first
    | assumption
    | exact Same.bits rfl
    | apply SameT.next
    | apply thermalStep_frame)

theorem loopFault_frame {m : Nat} {s0 : State} : ∀ s x1, 136315906 &&& m = 136315906 → Same m s0 s → Same m s0 (loopFault s x1) := by
  intro s x1 hM h
  refine Same.run hM h fun h0 => ?_
  unfold loopFault
  repeat' (with_reducible first
    | assumption
    | exact Same.bits rfl
    | (extract_lets +onlyGivenNames z; change State at z; apply Same.cutS h0 (x := z); unfold z; clear z; rotate_left; intro h; clear_value z; apply Same.letS h; clear h z; intro z h)
    | (extract_lets +onlyGivenNames z; clear_value z; apply Same.letAny z; clear z; intro z)
    | apply post_frame
    | apply fon_frame
    | (refine Same.updAge ?_ rfl; assumption))

theorem execGroupCall_frame {m : Nat} {s0 : State} : ∀ x0 x1 x2 x3 x4 s, 1048578 &&& m = 1048578 → Same m s0 s → SameT m s0 (execGroupCall x0 x1 x2 x3 x4 s) := by
  intro x0 x1 x2 x3 x4 s hM h
  refine SameT.run hM h fun h0 => ?_
  unfold execGroupCall
  repeat' (with_reducible first
    | assumption
    | exact Same.bits rfl
    | apply SameT.next
    | (apply Same2.out; apply groupCall_frame))

theorem execZoneActionTakesEffect_frame {m : Nat} {s0 : State} : ∀ x0 s, 124930 &&& m = 124930 → Same m s0 s → SameT m s0 (execZoneActionTakesEffect x0 s) := by
  intro x0 s hM h
  refine SameT.run hM h fun h0 => ?_
  unfold execZoneActionTakesEffect
  repeat' (with_reducible first
    | assumption
    | exact Same.bits rfl
    | apply SameT.next
    | apply actionTakes_frame)

theorem execSnoopArm_frame {m : Nat} {s0 : State} : ∀ x0 s, 10486802 &&& m = 10486802 → Same m s0 s → SameT m s0 (execSnoopArm x0 s) := by
  intro x0 s hM h
  refine SameT.run hM h fun h0 => ?_
  unfold execSnoopArm
  repeat' (with_reducible first
    | assumption
    | intro _
    | exact Same.bits rfl
    | apply SameT.next
    | apply gated_frame
    | apply wrSnoopCtrl_frame)

theorem miStructure_frame {m : Nat} {s0 : State} : ∀ s x1 x2, 538971650 &&& m = 538971650 → Same m s0 s → Same m s0 (miStructure s x1 x2) := by
  intro s x1 x2 hM h
  refine Same.run hM h fun h0 => ?_
  unfold miStructure
  repeat' (with_reducible first
    | assumption
    | exact Same.bits rfl
    | (extract_lets +onlyGivenNames z; clear_value z; apply Same.letAny z; clear z; intro z)
    | apply Same.ite
    | apply sbSay_frame
    | apply openTaken_frame)

theorem execNvmeMiReadDataStructure_frame {m : Nat} {s0 : State} : ∀ x0 x1 s, 538971650 &&& m = 538971650 → Same m s0 s → SameT m s0 (execNvmeMiReadDataStructure x0 x1 s) := by
  intro x0 x1 s hM h
  refine SameT.run hM h fun h0 => ?_
  unfold execNvmeMiReadDataStructure
  repeat' (with_reducible first
    | assumption
    | exact Same.bits rfl
    | apply SameT.next
    | apply Same.ite
    | apply miStructure_frame)

theorem quietExit_frame {m : Nat} {s0 : State} : ∀ s x1, 114722 &&& m = 114722 → Same m s0 s → Same m s0 (quietExit s x1) := by
  intro s x1 hM h
  refine Same.run hM h fun h0 => ?_
  unfold quietExit
  repeat' (with_reducible first
    | assumption
    | exact Same.bits rfl
    | (extract_lets +onlyGivenNames z; change State at z; apply Same.cutS h0 (x := z); unfold z; clear z; rotate_left; intro h; clear_value z; apply Same.letS h; clear h z; intro z h)
    | (extract_lets +onlyGivenNames z; clear_value z; apply Same.letAny z; clear z; intro z)
    | apply Same.ite
    | apply reach_frame
    | apply sweep_frame
    | apply grpSet_frame
    | (refine Same.updPlc ?_ rfl; assumption)
    | split)

theorem execGroupQuietExit_frame {m : Nat} {s0 : State} : ∀ x0 s, 114722 &&& m = 114722 → Same m s0 s → SameT m s0 (execGroupQuietExit x0 s) := by
  intro x0 s hM h
  refine SameT.run hM h fun h0 => ?_
  unfold execGroupQuietExit
  repeat' (with_reducible first
    | assumption
    | exact Same.bits rfl
    | apply SameT.next
    | apply quietExit_frame)

theorem readResolve_frame {m : Nat} {s0 : State} : ∀ x0 x1 s, 26626 &&& m = 26626 → Same m s0 s → Same m s0 (readResolve x0 x1 s) := by
  intro x0 x1 s hM h
  refine Same.run hM h fun h0 => ?_
  unfold readResolve
  repeat' (with_reducible first
    | assumption
    | intro _
    | exact Same.bits rfl
    | (extract_lets +onlyGivenNames z; change State at z; apply Same.cutS h0 (x := z); unfold z; clear z; rotate_left; intro h; clear_value z; apply Same.letS h; clear h z; intro z h)
    | (extract_lets +onlyGivenNames z; change _ × _ × State at z; apply Same.cut22 h0 (x := z); unfold z; clear z; rotate_left; intro h; clear_value z; apply Same.let22 (x := z) h; clear h z; intro z h)
    | (extract_lets +onlyGivenNames z; change _ × State at z; apply Same.cut2 h0 (x := z); unfold z; clear z; rotate_left; intro h; clear_value z; apply Same.let2 (x := z) h; clear h z; intro z h)
    | (extract_lets +onlyGivenNames z; clear_value z; apply Same.letAny z; clear z; intro z)
    | apply Same.ite
    | apply Same2.ite
    | apply ctxFail_frame
    | apply descLookup_frame
    | apply chooseXte_frame
    | apply readDone_frame
    | apply ioGo_frame
    | apply Same.foldl
    | apply Same2.foldl
    | (apply Same2.out; apply chooseXte_frame)
    | split
    | dsimp -zeta only
    | apply Same2.mk')

theorem execNvmeRead_frame {m : Nat} {s0 : State} : ∀ x0 s, 146275922 &&& m = 146275922 → Same m s0 s → SameT m s0 (execNvmeRead x0 s) := by
  intro x0 s hM h
  refine SameT.run hM h fun h0 => ?_
  unfold execNvmeRead
  repeat' (with_reducible first
    | assumption
    | intro _
    | exact Same.bits rfl
    | apply SameT.next
    | apply ioRun_frame
    | apply readResolve_frame)

theorem execCallReturn_frame {m : Nat} {s0 : State} : ∀ x0 s, 1048578 &&& m = 1048578 → Same m s0 s → SameT m s0 (execCallReturn x0 s) := by
  intro x0 s hM h
  refine SameT.run hM h fun h0 => ?_
  unfold execCallReturn
  repeat' (with_reducible first
    | assumption
    | exact Same.bits rfl
    | apply SameT.next
    | apply callReturn_frame)

theorem execLocketFlushDone_frame {m : Nat} {s0 : State} : ∀ s, 1026 &&& m = 1026 → Same m s0 s → SameT m s0 (execLocketFlushDone s) := by
  intro s hM h
  refine SameT.run hM h fun h0 => ?_
  unfold execLocketFlushDone
  repeat' (with_reducible first
    | assumption
    | exact Same.bits rfl
    | apply SameT.next
    | apply Same.ite
    | apply flushEnd_frame)

theorem execZoneClose_frame {m : Nat} {s0 : State} : ∀ x0 s, 146275922 &&& m = 146275922 → Same m s0 s → SameT m s0 (execZoneClose x0 s) := by
  intro x0 s hM h
  refine SameT.run hM h fun h0 => ?_
  unfold execZoneClose
  repeat' (with_reducible first
    | assumption
    | exact Same.bits rfl
    | apply SameT.next
    | apply zoneSend_frame)

theorem mr4_frame {m : Nat} {s0 : State} : ∀ s x1 x2, 1572866 &&& m = 1572866 → Same m s0 s → Same m s0 (mr4 s x1 x2) := by
  intro s x1 x2 hM h
  refine Same.run hM h fun h0 => ?_
  unfold mr4
  repeat' (with_reducible first
    | assumption
    | exact Same.bits rfl
    | (extract_lets +onlyGivenNames z; change State at z; apply Same.cutS h0 (x := z); unfold z; clear z; rotate_left; intro h; clear_value z; apply Same.letS h; clear h z; intro z h)
    | (extract_lets +onlyGivenNames z; clear_value z; apply Same.letAny z; clear z; intro z)
    | apply Same.ite
    | apply fbitoff_frame
    | apply finc_frame
    | apply fon_frame
    | apply fbiton_frame
    | (refine Same.updDmc ?_ rfl; assumption)
    | (refine Same.updUmp ?_ rfl; assumption))

theorem cardDrainEnd_frame {m : Nat} {s0 : State} : ∀ s x1, 262210 &&& m = 262210 → Same m s0 s → Same m s0 (cardDrainEnd s x1) := by
  intro s x1 hM h
  refine Same.run hM h fun h0 => ?_
  unfold cardDrainEnd
  repeat' (with_reducible first
    | assumption
    | intro _
    | exact Same.bits rfl
    | (extract_lets +onlyGivenNames z; change State at z; apply Same.cutS h0 (x := z); unfold z; clear z; rotate_left; intro h; clear_value z; apply Same.letS h; clear h z; intro z h)
    | (extract_lets +onlyGivenNames z; change _ × _ × State at z; apply Same.cut22 h0 (x := z); unfold z; clear z; rotate_left; intro h; clear_value z; apply Same.let22 (x := z) h; clear h z; intro z h)
    | (extract_lets +onlyGivenNames z; change _ × State at z; apply Same.cut2 h0 (x := z); unfold z; clear z; rotate_left; intro h; clear_value z; apply Same.let2 (x := z) h; clear h z; intro z h)
    | (extract_lets +onlyGivenNames z; clear_value z; apply Same.letAny z; clear z; intro z)
    | apply Same.ite
    | apply quarantineEnd_frame
    | (refine Same.updAcm ?_ rfl; assumption)
    | split
    | dsimp -zeta only)

theorem execXteDecrypt_frame {m : Nat} {s0 : State} : ∀ x0 x1 x2 s, 7863298 &&& m = 7863298 → Same m s0 s → SameT m s0 (execXteDecrypt x0 x1 x2 s) := by
  intro x0 x1 x2 s hM h
  refine SameT.run hM h fun h0 => ?_
  unfold execXteDecrypt
  repeat' (with_reducible first
    | assumption
    | exact Same.bits rfl
    | apply SameT.next
    | apply xteDecrypt_frame)

theorem execZoneFinish_frame {m : Nat} {s0 : State} : ∀ x0 s, 146275922 &&& m = 146275922 → Same m s0 s → SameT m s0 (execZoneFinish x0 s) := by
  intro x0 s hM h
  refine SameT.run hM h fun h0 => ?_
  unfold execZoneFinish
  repeat' (with_reducible first
    | assumption
    | exact Same.bits rfl
    | apply SameT.next
    | apply zoneSend_frame)

theorem execGatherTimeout_frame {m : Nat} {s0 : State} : ∀ s, 524322 &&& m = 524322 → Same m s0 s → SameT m s0 (execGatherTimeout s) := by
  intro s hM h
  refine SameT.run hM h fun h0 => ?_
  unfold execGatherTimeout
  repeat' (with_reducible first
    | assumption
    | exact Same.bits rfl
    | apply SameT.next
    | (extract_lets +onlyGivenNames z; clear_value z; apply Same.letAny z; clear z; intro z)
    | apply SameT.ite
    | apply gatherClose_frame
    | apply reach_frame
    | split)

theorem execSequencerReset_frame {m : Nat} {s0 : State} : ∀ x0 x1 s, 3310674 &&& m = 3310674 → Same m s0 s → SameT m s0 (execSequencerReset x0 x1 s) := by
  intro x0 x1 s hM h
  refine SameT.run hM h fun h0 => ?_
  unfold execSequencerReset
  repeat' (with_reducible first
    | assumption
    | intro _
    | exact Same.bits rfl
    | apply SameT.next
    | apply gated_frame
    | apply seqReset_frame)

theorem cursorPut_frame {m : Nat} {s0 : State} : ∀ s x1 x2 x3, 8194 &&& m = 8194 → Same m s0 s → Same m s0 (cursorPut s x1 x2 x3) := by
  intro s x1 x2 x3 hM h
  refine Same.run hM h fun h0 => ?_
  unfold cursorPut
  repeat' (with_reducible first
    | assumption
    | exact Same.bits rfl
    | apply zonePut_frame
    | dsimp -zeta only)

theorem cursorNext_frame {m : Nat} {s0 : State} : ∀ s x1 x2 x3 x4, 122882 &&& m = 122882 → Same m s0 s → SameO2 m s0 (cursorNext s x1 x2 x3 x4) := by
  intro s x1 x2 x3 x4 hM h
  refine SameO2.run hM h fun h0 => ?_
  unfold cursorNext
  repeat' (with_reducible first
    | assumption
    | intro _
    | exact Same.bits rfl
    | (extract_lets +onlyGivenNames z; change State at z; apply Same.cutS h0 (x := z); unfold z; clear z; rotate_left; intro h; clear_value z; apply Same.letS h; clear h z; intro z h)
    | (extract_lets +onlyGivenNames z; change _ × _ × State at z; apply Same.cut22 h0 (x := z); unfold z; clear z; rotate_left; intro h; clear_value z; apply Same.let22 (x := z) h; clear h z; intro z h)
    | (extract_lets +onlyGivenNames z; change _ × State at z; apply Same.cut2 h0 (x := z); unfold z; clear z; rotate_left; intro h; clear_value z; apply Same.let2 (x := z) h; clear h z; intro z h)
    | (extract_lets +onlyGivenNames z; change _ → _ at z; apply Same.cutF z; subst z)
    | (extract_lets +onlyGivenNames z; clear_value z; apply Same.letAny z; clear z; intro z)
    | apply Same.ite
    | apply Same2.ite
    | apply SameO2.ite
    | apply directSet_frame
    | apply cursorPut_frame
    | apply setsDone_frame
    | apply SameO2.some
    | exact SameO2.none
    | (apply Same.ofSome2; assumption)
    | (apply Same.ofSome2'; assumption)
    | split
    | dsimp -zeta only
    | apply Same2.mk')

theorem cursorFor_frame {m : Nat} {s0 : State} : ∀ s x1 x2 x3, 122882 &&& m = 122882 → Same m s0 s → SameO2 m s0 (cursorFor s x1 x2 x3) := by
  intro s x1 x2 x3 hM h
  refine SameO2.run hM h fun h0 => ?_
  unfold cursorFor
  repeat' (with_reducible first
    | assumption
    | exact Same.bits rfl
    | apply Same.ite
    | apply SameO2.ite
    | apply cursorPut_frame
    | apply cursorNext_frame
    | apply setsDone_frame
    | apply SameO2.some
    | exact SameO2.none
    | (apply Same.ofSome2; assumption)
    | (apply Same.ofSome2'; assumption)
    | split
    | dsimp -zeta only)

theorem claimPlace_frame {m : Nat} {s0 : State} : ∀ s x1 x2 x3, 16386 &&& m = 16386 → Same m s0 s → SameO2 m s0 (claimPlace s x1 x2 x3) := by
  intro s x1 x2 x3 hM h
  refine SameO2.run hM h fun h0 => ?_
  unfold claimPlace
  repeat' (with_reducible first
    | assumption
    | intro _
    | exact Same.bits rfl
    | (extract_lets +onlyGivenNames z; change State at z; apply Same.cutS h0 (x := z); unfold z; clear z; rotate_left; intro h; clear_value z; apply Same.letS h; clear h z; intro z h)
    | (extract_lets +onlyGivenNames z; change _ × _ × State at z; apply Same.cut22 h0 (x := z); unfold z; clear z; rotate_left; intro h; clear_value z; apply Same.let22 (x := z) h; clear h z; intro z h)
    | (extract_lets +onlyGivenNames z; change _ × State at z; apply Same.cut2 h0 (x := z); unfold z; clear z; rotate_left; intro h; clear_value z; apply Same.let2 (x := z) h; clear h z; intro z h)
    | (extract_lets +onlyGivenNames z; clear_value z; apply Same.letAny z; clear z; intro z)
    | apply Same.ite
    | apply Same2.ite
    | apply SameO2.ite
    | apply setMember_frame
    | apply addStripe_frame
    | apply grpRefresh_frame
    | apply SameO2.some
    | exact SameO2.none
    | (apply Same.ofPair2; assumption)
    | (apply Same2.out; apply addStripe_frame)
    | split
    | dsimp -zeta only
    | apply Same2.mk')

theorem prepareNext_frame {m : Nat} {s0 : State} : ∀ s x1 x2 x3, 122882 &&& m = 122882 → Same m s0 s → Same m s0 (prepareNext s x1 x2 x3) := by
  intro s x1 x2 x3 hM h
  refine Same.run hM h fun h0 => ?_
  unfold prepareNext
  repeat' (with_reducible first
    | assumption
    | exact Same.bits rfl
    | (extract_lets +onlyGivenNames z; change State at z; apply Same.cutS h0 (x := z); unfold z; clear z; rotate_left; intro h; clear_value z; apply Same.letS h; clear h z; intro z h)
    | (extract_lets +onlyGivenNames z; change _ × _ × State at z; apply Same.cut22 h0 (x := z); unfold z; clear z; rotate_left; intro h; clear_value z; apply Same.let22 (x := z) h; clear h z; intro z h)
    | (extract_lets +onlyGivenNames z; change _ × State at z; apply Same.cut2 h0 (x := z); unfold z; clear z; rotate_left; intro h; clear_value z; apply Same.let2 (x := z) h; clear h z; intro z h)
    | (extract_lets +onlyGivenNames z; clear_value z; apply Same.letAny z; clear z; intro z)
    | apply Same.ite
    | apply Same2.ite
    | apply SameO2.ite
    | apply directSet_frame
    | apply cursorPut_frame
    | (apply Same.ofSome2; assumption)
    | (apply Same.ofSome2'; assumption)
    | split
    | dsimp -zeta only
    | apply Same2.mk')

theorem claimSlc_frame {m : Nat} {s0 : State} : ∀ s x1, 114690 &&& m = 114690 → Same m s0 s → SameO2 m s0 (claimSlc s x1) := by
  intro s x1 hM h
  refine SameO2.run hM h fun h0 => ?_
  unfold claimSlc
  repeat' (with_reducible first
    | assumption
    | exact Same.bits rfl
    | apply claimSlots_frame
    | apply prepareFor_frame
    | apply SameO2.some
    | exact SameO2.none
    | (apply Same.ofPair2; assumption)
    | (apply Same2.out; apply claimSlots_frame)
    | split
    | dsimp -zeta only
    | apply Same2.mk')

theorem claimDirect_frame {m : Nat} {s0 : State} : ∀ s zi n key b l, 122882 &&& m = 122882 → Same m s0 s →
    SameO2 m s0 (claimDirect s zi n key b l) := by
  intro s zi n key b l
  induction l generalizing s b with
  | nil => intro _ h; unfold claimDirect; exact SameO2.some h
  | cons off l ih =>
    intro hM h
    unfold claimDirect
    extract_lets here
    have hh : SameO2 m s0 here := by
      unfold here
      split
      · split
        · exact SameO2.none
        · exact claimSlc_frame _ _ (Same.sub (by decide) hM) h
      · rename_i x s1 e1
        have h1 : Same m s0 s1 := Same.ofSome2 e1 (cursorFor_frame _ _ _ _ (Same.sub (by decide) hM) h)
        split
        · rename_i t s2 e2
          exact SameO2.some (prepareNext_frame _ _ _ _ (Same.sub (by decide) hM)
            (Same.ofSome2 e2 (claimPlace_frame _ _ _ _ (Same.sub (by decide) hM) h1)))
        · exact claimSlc_frame _ _ (Same.sub (by decide) hM) h1
    clear_value here
    split
    · exact SameO2.none
    · rename_i t s2
      have h2 : Same m s0 s2 := hh.out _ rfl
      split
      · rename_i ts s3 e3
        exact SameO2.some (Same.ofSome2 e3 (ih _ _ hM h2))
      · exact SameO2.none

theorem streamInactive_frame {m : Nat} {s0 : State} : ∀ s x1, 16418 &&& m = 16418 → Same m s0 s → Same m s0 (streamInactive s x1) := by
  intro s x1 hM h
  refine Same.run hM h fun h0 => ?_
  unfold streamInactive
  repeat' (with_reducible first
    | assumption
    | intro _
    | exact Same.bits rfl
    | (extract_lets +onlyGivenNames z; change State at z; apply Same.cutS h0 (x := z); unfold z; clear z; rotate_left; intro h; clear_value z; apply Same.letS h; clear h z; intro z h)
    | (extract_lets +onlyGivenNames z; change _ × _ × State at z; apply Same.cut22 h0 (x := z); unfold z; clear z; rotate_left; intro h; clear_value z; apply Same.let22 (x := z) h; clear h z; intro z h)
    | (extract_lets +onlyGivenNames z; change _ × State at z; apply Same.cut2 h0 (x := z); unfold z; clear z; rotate_left; intro h; clear_value z; apply Same.let2 (x := z) h; clear h z; intro z h)
    | (extract_lets +onlyGivenNames z; clear_value z; apply Same.letAny z; clear z; intro z)
    | apply Same.ite
    | apply reach_frame
    | apply streamsRefresh_frame
    | apply grpRefresh_frame
    | (refine Same.updPlc ?_ rfl; assumption)
    | apply Same.foldl
    | split
    | dsimp -zeta only)

theorem dedicatedRelease_frame {m : Nat} {s0 : State} : ∀ s x1, 2 &&& m = 2 → Same m s0 s → Same m s0 (dedicatedRelease s x1) := by
  intro s x1 hM h
  refine Same.run hM h fun h0 => ?_
  unfold dedicatedRelease
  repeat' (with_reducible first
    | assumption
    | exact Same.bits rfl
    | (extract_lets +onlyGivenNames z; clear_value z; apply Same.letAny z; clear z; intro z)
    | apply Same.ite
    | apply grpRefresh_frame
    | apply grpSet_frame)

theorem execDedicatedGroupRelease_frame {m : Nat} {s0 : State} : ∀ x0 s, 2 &&& m = 2 → Same m s0 s → SameT m s0 (execDedicatedGroupRelease x0 s) := by
  intro x0 s hM h
  refine SameT.run hM h fun h0 => ?_
  unfold execDedicatedGroupRelease
  repeat' (with_reducible first
    | assumption
    | exact Same.bits rfl
    | apply SameT.next
    | apply dedicatedRelease_frame)

theorem execCardDrainEnd_frame {m : Nat} {s0 : State} : ∀ x0 s, 262210 &&& m = 262210 → Same m s0 s → SameT m s0 (execCardDrainEnd x0 s) := by
  intro x0 s hM h
  refine SameT.run hM h fun h0 => ?_
  unfold execCardDrainEnd
  repeat' (with_reducible first
    | assumption
    | exact Same.bits rfl
    | apply SameT.next
    | apply cardDrainEnd_frame)

theorem execTestTimeout_frame {m : Nat} {s0 : State} : ∀ s, 2133026 &&& m = 2133026 → Same m s0 s → SameT m s0 (execTestTimeout s) := by
  intro s hM h
  refine SameT.run hM h fun h0 => ?_
  unfold execTestTimeout
  repeat' (with_reducible first
    | assumption
    | exact Same.bits rfl
    | apply SameT.next
    | apply Same.ite
    | apply testLate_frame)

theorem busDrop_frame {m : Nat} {s0 : State} : ∀ s x1 x2, 131072 &&& m = 131072 → Same m s0 s → Same m s0 (busDrop s x1 x2) := by
  intro s x1 x2 hM h
  refine Same.run hM h fun h0 => ?_
  unfold busDrop
  repeat' (with_reducible first
    | assumption
    | exact Same.bits rfl
    | (extract_lets +onlyGivenNames z; clear_value z; apply Same.letAny z; clear z; intro z)
    | apply Same.ite
    | apply chsPut_frame)

theorem execClsUnlock_frame {m : Nat} {s0 : State} : ∀ s, 180354642 &&& m = 180354642 → Same m s0 s → SameT m s0 (execClsUnlock s) := by
  intro s hM h
  refine SameT.run hM h fun h0 => ?_
  unfold execClsUnlock
  repeat' (with_reducible first
    | assumption
    | exact Same.bits rfl
    | apply SameT.next
    | apply clsStart_frame
    | dsimp -zeta only)

theorem execLinkSpeedDrop_frame {m : Nat} {s0 : State} : ∀ x0 x1 s, 2100226 &&& m = 2100226 → Same m s0 s → SameT m s0 (execLinkSpeedDrop x0 x1 s) := by
  intro x0 x1 s hM h
  refine SameT.run hM h fun h0 => ?_
  unfold execLinkSpeedDrop
  repeat' (with_reducible first
    | assumption
    | exact Same.bits rfl
    | apply SameT.next
    | apply speedDrop_frame)

theorem eraseResume_frame {m : Nat} {s0 : State} : ∀ s, 33554434 &&& m = 33554434 → Same m s0 s → Same m s0 (eraseResume s) := by
  intro s hM h
  refine Same.run hM h fun h0 => ?_
  unfold eraseResume
  repeat' (with_reducible first
    | assumption
    | exact Same.bits rfl
    | (extract_lets +onlyGivenNames z; clear_value z; apply Same.letAny z; clear z; intro z)
    | apply Same.ite
    | apply clsPut_frame
    | (refine Same.updCls ?_ rfl; assumption)
    | split)

theorem execClsEraseResume_frame {m : Nat} {s0 : State} : ∀ s, 33554434 &&& m = 33554434 → Same m s0 s → SameT m s0 (execClsEraseResume s) := by
  intro s hM h
  refine SameT.run hM h fun h0 => ?_
  unfold execClsEraseResume
  repeat' (with_reducible first
    | assumption
    | exact Same.bits rfl
    | apply SameT.next
    | apply eraseResume_frame)

theorem execLinkTrained_frame {m : Nat} {s0 : State} : ∀ x0 x1 x2 x3 s, 2100226 &&& m = 2100226 → Same m s0 s → SameT m s0 (execLinkTrained x0 x1 x2 x3 s) := by
  intro x0 x1 x2 x3 s hM h
  refine SameT.run hM h fun h0 => ?_
  unfold execLinkTrained
  repeat' (with_reducible first
    | assumption
    | exact Same.bits rfl
    | apply SameT.next
    | apply linkTrained_frame)

theorem execColdReset_frame {m : Nat} {s0 : State} : ∀ s, 103976450 &&& m = 103976450 → Same m s0 s → SameT m s0 (execColdReset s) := by
  intro s hM h
  refine SameT.run hM h fun h0 => ?_
  unfold execColdReset
  repeat' (with_reducible first
    | assumption
    | exact Same.bits rfl
    | apply SameT.next
    | apply coldReset_frame)

theorem rebuildDone_frame {m : Nat} {s0 : State} : ∀ s x1, 2223106 &&& m = 2223106 → Same m s0 s → Same m s0 (rebuildDone s x1) := by
  intro s x1 hM h
  refine Same.run hM h fun h0 => ?_
  unfold rebuildDone
  repeat' (with_reducible first
    | assumption
    | intro _
    | exact Same.bits rfl
    | (extract_lets +onlyGivenNames z; change State at z; apply Same.cutS h0 (x := z); unfold z; clear z; rotate_left; intro h; clear_value z; apply Same.letS h; clear h z; intro z h)
    | (extract_lets +onlyGivenNames z; change _ × _ × State at z; apply Same.cut22 h0 (x := z); unfold z; clear z; rotate_left; intro h; clear_value z; apply Same.let22 (x := z) h; clear h z; intro z h)
    | (extract_lets +onlyGivenNames z; change _ × State at z; apply Same.cut2 h0 (x := z); unfold z; clear z; rotate_left; intro h; clear_value z; apply Same.let2 (x := z) h; clear h z; intro z h)
    | (extract_lets +onlyGivenNames z; clear_value z; apply Same.letAny z; clear z; intro z)
    | apply Same.ite
    | apply foff_frame
    | apply journal_frame
    | apply fon_frame
    | apply post_frame
    | apply dieRestored_frame
    | apply holdTry_frame
    | (refine Same.updMed ?_ rfl; assumption)
    | split
    | dsimp -zeta only)

theorem execRebuildDone_frame {m : Nat} {s0 : State} : ∀ x0 s, 2223106 &&& m = 2223106 → Same m s0 s → SameT m s0 (execRebuildDone x0 s) := by
  intro x0 s hM h
  refine SameT.run hM h fun h0 => ?_
  unfold execRebuildDone
  repeat' (with_reducible first
    | assumption
    | exact Same.bits rfl
    | apply SameT.next
    | apply rebuildDone_frame)

theorem execZoneOpen_frame {m : Nat} {s0 : State} : ∀ x0 s, 146275922 &&& m = 146275922 → Same m s0 s → SameT m s0 (execZoneOpen x0 s) := by
  intro x0 s hM h
  refine SameT.run hM h fun h0 => ?_
  unfold execZoneOpen
  repeat' (with_reducible first
    | assumption
    | exact Same.bits rfl
    | apply SameT.next
    | apply zoneSend_frame)

theorem flushEndStep_frame {m : Nat} {s0 : State} : ∀ s, 1073741822 &&& m = 1073741822 → Same m s0 s → Same m s0 (flushEndStep s) := by
  intro s hM h
  refine Same.run hM h fun h0 => ?_
  unfold flushEndStep
  repeat' (with_reducible first
    | assumption
    | exact Same.bits rfl
    | (extract_lets +onlyGivenNames z; change State at z; apply Same.cutS h0 (x := z); unfold z; clear z; rotate_left; intro h; clear_value z; apply Same.letS h; clear h z; intro z h)
    | (extract_lets +onlyGivenNames z; change _ × _ × State at z; apply Same.cut22 h0 (x := z); unfold z; clear z; rotate_left; intro h; clear_value z; apply Same.let22 (x := z) h; clear h z; intro z h)
    | (extract_lets +onlyGivenNames z; change _ × State at z; apply Same.cut2 h0 (x := z); unfold z; clear z; rotate_left; intro h; clear_value z; apply Same.let2 (x := z) h; clear h z; intro z h)
    | (extract_lets +onlyGivenNames z; clear_value z; apply Same.letAny z; clear z; intro z)
    | apply Same.ite
    | apply fon_frame
    | apply computeOff_frame
    | apply boot_frame
    | apply chgUpdate_frame
    | apply backSet_frame
    | (refine Same.updSgd ?_ rfl; assumption)
    | (refine Same.updBot ?_ rfl; assumption)
    | split
    | dsimp -zeta only)

theorem execRegisterWrite_frame {m : Nat} {s0 : State} : ∀ x0 x1 x2 x3 s, 805306078 &&& m = 805306078 → Same m s0 s → SameT m s0 (execRegisterWrite x0 x1 x2 x3 s) := by
  intro x0 x1 x2 x3 s hM h
  refine SameT.run hM h fun h0 => ?_
  unfold execRegisterWrite
  repeat' (with_reducible first
    | assumption
    | exact Same.bits rfl
    | apply SameT.next
    | (extract_lets +onlyGivenNames z; change State at z; apply Same.cutS h0 (x := z); unfold z; clear z; rotate_left; intro h; clear_value z; apply Same.letS h; clear h z; intro z h)
    | (extract_lets +onlyGivenNames z; change _ × _ × State at z; apply Same.cut22 h0 (x := z); unfold z; clear z; rotate_left; intro h; clear_value z; apply Same.let22 (x := z) h; clear h z; intro z h)
    | (extract_lets +onlyGivenNames z; change _ × State at z; apply Same.cut2 h0 (x := z); unfold z; clear z; rotate_left; intro h; clear_value z; apply Same.let2 (x := z) h; clear h z; intro z h)
    | (extract_lets +onlyGivenNames z; clear_value z; apply Same.letAny z; clear z; intro z)
    | apply writeBy_frame
    | apply fabAnswer_frame
    | (apply Same2.out; apply writeBy_frame)
    | dsimp -zeta only
    | apply Same2.mk')

theorem execLatchedLoRead_frame {m : Nat} {s0 : State} : ∀ x0 x1 x2 s, 754974422 &&& m = 754974422 → Same m s0 s → SameT m s0 (execLatchedLoRead x0 x1 x2 s) := by
  intro x0 x1 x2 s hM h
  refine SameT.run hM h fun h0 => ?_
  unfold execLatchedLoRead
  repeat' (with_reducible first
    | assumption
    | exact Same.bits rfl
    | apply SameT.next
    | (extract_lets +onlyGivenNames z; change State at z; apply Same.cutS h0 (x := z); unfold z; clear z; rotate_left; intro h; clear_value z; apply Same.letS h; clear h z; intro z h)
    | (extract_lets +onlyGivenNames z; change _ × _ × State at z; apply Same.cut22 h0 (x := z); unfold z; clear z; rotate_left; intro h; clear_value z; apply Same.let22 (x := z) h; clear h z; intro z h)
    | (extract_lets +onlyGivenNames z; change _ × State at z; apply Same.cut2 h0 (x := z); unfold z; clear z; rotate_left; intro h; clear_value z; apply Same.let2 (x := z) h; clear h z; intro z h)
    | (extract_lets +onlyGivenNames z; clear_value z; apply Same.letAny z; clear z; intro z)
    | apply readBy_frame
    | apply fabAnswer_frame
    | (apply Same2.out; apply readBy_frame)
    | dsimp -zeta only
    | apply Same2.mk')

theorem execBar0DoorbellInvalid_frame {m : Nat} {s0 : State} : ∀ x0 x1 s, 2098178 &&& m = 2098178 → Same m s0 s → SameT m s0 (execBar0DoorbellInvalid x0 x1 s) := by
  intro x0 x1 s hM h
  refine SameT.run hM h fun h0 => ?_
  unfold execBar0DoorbellInvalid
  repeat' (with_reducible first
    | assumption
    | exact Same.bits rfl
    | apply SameT.next
    | apply Same.ite
    | apply post_frame)

theorem sqBell_frame {m : Nat} {s0 : State} : ∀ s x1 x2 x3 x4 x5, 146275922 &&& m = 146275922 → Same m s0 s → Same m s0 (sqBell s x1 x2 x3 x4 x5) := by
  intro s x1 x2 x3 x4 x5 hM h
  refine Same.run hM h fun h0 => ?_
  unfold sqBell
  repeat' (with_reducible first
    | assumption
    | exact Same.bits rfl
    | (extract_lets +onlyGivenNames z; clear_value z; apply Same.letAny z; clear z; intro z)
    | apply Same.ite
    | apply rung_frame
    | apply bellVio_frame
    | apply ringTail_frame
    | split)

theorem execSqTailDoorbell_frame {m : Nat} {s0 : State} : ∀ x0 x1 x2 x3 x4 s, 146275922 &&& m = 146275922 → Same m s0 s → SameT m s0 (execSqTailDoorbell x0 x1 x2 x3 x4 s) := by
  intro x0 x1 x2 x3 x4 s hM h
  refine SameT.run hM h fun h0 => ?_
  unfold execSqTailDoorbell
  repeat' (with_reducible first
    | assumption
    | exact Same.bits rfl
    | apply SameT.next
    | apply sqBell_frame)

theorem placeWrite_frame {m : Nat} {s0 : State} : ∀ s x1, 124930 &&& m = 124930 → Same m s0 s → Same m s0 (placeWrite s x1) := by
  intro s x1 hM h
  refine Same.run hM h fun h0 => ?_
  unfold placeWrite
  repeat' (with_reducible first
    | assumption
    | intro _
    | exact Same.bits rfl
    | (extract_lets +onlyGivenNames z; change State at z; apply Same.cutS h0 (x := z); unfold z; clear z; rotate_left; intro h; clear_value z; apply Same.letS h; clear h z; intro z h)
    | (extract_lets +onlyGivenNames z; change _ × _ × State at z; apply Same.cut22 h0 (x := z); unfold z; clear z; rotate_left; intro h; clear_value z; apply Same.let22 (x := z) h; clear h z; intro z h)
    | (extract_lets +onlyGivenNames z; change _ × State at z; apply Same.cut2 h0 (x := z); unfold z; clear z; rotate_left; intro h; clear_value z; apply Same.let2 (x := z) h; clear h z; intro z h)
    | (extract_lets +onlyGivenNames z; change _ → _ at z; apply Same.cutF z; subst z)
    | (extract_lets +onlyGivenNames z; clear_value z; apply Same.letAny z; clear z; intro z)
    | apply Same.ite
    | apply Same2.ite
    | apply SameO2.ite
    | apply notReady_frame
    | apply claimDirect_frame
    | apply decided_frame
    | apply streamOpen_frame
    | apply claimSlots_frame
    | (apply Same.ofPair2; assumption)
    | (apply Same.ofSome2; assumption)
    | (apply Same.ofSome2'; assumption)
    | (apply Same2.out; apply streamOpen_frame)
    | (apply Same2.out; apply claimSlots_frame)
    | split
    | dsimp -zeta only
    | apply Same2.mk')

theorem execPlacementDecision_frame {m : Nat} {s0 : State} : ∀ x0 s, 124930 &&& m = 124930 → Same m s0 s → SameT m s0 (execPlacementDecision x0 s) := by
  intro x0 s hM h
  refine SameT.run hM h fun h0 => ?_
  unfold execPlacementDecision
  repeat' (with_reducible first
    | assumption
    | exact Same.bits rfl
    | apply SameT.next
    | apply placeWrite_frame)

theorem execXteEncrypt_frame {m : Nat} {s0 : State} : ∀ x0 x1 x2 s, 7863298 &&& m = 7863298 → Same m s0 s → SameT m s0 (execXteEncrypt x0 x1 x2 s) := by
  intro x0 x1 x2 s hM h
  refine SameT.run hM h fun h0 => ?_
  unfold execXteEncrypt
  repeat' (with_reducible first
    | assumption
    | exact Same.bits rfl
    | apply SameT.next
    | apply xteEncrypt_frame)

theorem completionPost_frame {m : Nat} {s0 : State} : ∀ s x1, 146275922 &&& m = 146275922 → Same m s0 s → Same m s0 (completionPost s x1) := by
  intro s x1 hM h
  refine Same.run hM h fun h0 => ?_
  unfold completionPost
  repeat' (with_reducible first
    | assumption
    | intro _
    | exact Same.bits rfl
    | (extract_lets +onlyGivenNames z; change State at z; apply Same.cutS h0 (x := z); unfold z; clear z; rotate_left; intro h; clear_value z; apply Same.letS h; clear h z; intro z h)
    | (extract_lets +onlyGivenNames z; change _ × _ × State at z; apply Same.cut22 h0 (x := z); unfold z; clear z; rotate_left; intro h; clear_value z; apply Same.let22 (x := z) h; clear h z; intro z h)
    | (extract_lets +onlyGivenNames z; change _ × State at z; apply Same.cut2 h0 (x := z); unfold z; clear z; rotate_left; intro h; clear_value z; apply Same.let2 (x := z) h; clear h z; intro z h)
    | (extract_lets +onlyGivenNames z; clear_value z; apply Same.letAny z; clear z; intro z)
    | apply Same.ite
    | apply raiseVio_frame
    | apply cqUpd_frame
    | apply readCounts_frame
    | apply ctxFree_frame
    | apply msixFor_frame
    | (refine Same.updHst ?_ rfl; assumption)
    | split
    | dsimp -zeta only)

theorem execCompletionPost_frame {m : Nat} {s0 : State} : ∀ x0 s, 146275922 &&& m = 146275922 → Same m s0 s → SameT m s0 (execCompletionPost x0 s) := by
  intro x0 s hM h
  refine SameT.run hM h fun h0 => ?_
  unfold execCompletionPost
  repeat' (with_reducible first
    | assumption
    | exact Same.bits rfl
    | apply SameT.next
    | apply completionPost_frame)

theorem execStripeAssemble_frame {m : Nat} {s0 : State} : ∀ x0 s, 49154 &&& m = 49154 → Same m s0 s → SameT m s0 (execStripeAssemble x0 s) := by
  intro x0 s hM h
  refine SameT.run hM h fun h0 => ?_
  unfold execStripeAssemble
  repeat' (with_reducible first
    | assumption
    | exact Same.bits rfl
    | apply SameT.next
    | apply stripeAssemble_frame)

theorem indexProgrammed_frame {m : Nat} {s0 : State} : ∀ s, 1073741822 &&& m = 1073741822 → Same m s0 s → Same m s0 (indexProgrammed s) := by
  intro s hM h
  refine Same.run hM h fun h0 => ?_
  unfold indexProgrammed
  repeat' (with_reducible first
    | assumption
    | exact Same.bits rfl
    | (extract_lets +onlyGivenNames z; change State at z; apply Same.cutS h0 (x := z); unfold z; clear z; rotate_left; intro h; clear_value z; apply Same.letS h; clear h z; intro z h)
    | (extract_lets +onlyGivenNames z; clear_value z; apply Same.letAny z; clear z; intro z)
    | apply Same.ite
    | apply flushEndStep_frame
    | apply lossNote_frame
    | (refine Same.updBot ?_ rfl; assumption))

theorem execEmergencyIndexProgrammed_frame {m : Nat} {s0 : State} : ∀ s, 1073741822 &&& m = 1073741822 → Same m s0 s → SameT m s0 (execEmergencyIndexProgrammed s) := by
  intro s hM h
  refine SameT.run hM h fun h0 => ?_
  unfold execEmergencyIndexProgrammed
  repeat' (with_reducible first
    | assumption
    | exact Same.bits rfl
    | apply SameT.next
    | apply indexProgrammed_frame)

theorem execTimeCeilingStore_frame {m : Nat} {s0 : State} : ∀ s, 34 &&& m = 34 → Same m s0 s → SameT m s0 (execTimeCeilingStore s) := by
  intro s hM h
  refine SameT.run hM h fun h0 => ?_
  unfold execTimeCeilingStore
  repeat' (with_reducible first
    | assumption
    | exact Same.bits rfl
    | apply SameT.next
    | apply Same.ite
    | apply ceilingStore_frame
    | apply reach_frame
    | split)

theorem execTimeCeilingHold_frame {m : Nat} {s0 : State} : ∀ s, 34 &&& m = 34 → Same m s0 s → SameT m s0 (execTimeCeilingHold s) := by
  intro s hM h
  refine SameT.run hM h fun h0 => ?_
  unfold execTimeCeilingHold
  repeat' (with_reducible first
    | assumption
    | exact Same.bits rfl
    | apply SameT.next
    | apply Same.ite
    | apply fon_frame
    | apply reach_frame
    | split)

theorem execSpdmGetVersion_frame {m : Nat} {s0 : State} : ∀ x0 s, 2100354 &&& m = 2100354 → Same m s0 s → SameT m s0 (execSpdmGetVersion x0 s) := by
  intro x0 s hM h
  refine SameT.run hM h fun h0 => ?_
  unfold execSpdmGetVersion
  repeat' (with_reducible first
    | assumption
    | intro _
    | exact Same.bits rfl
    | apply SameT.next
    | (extract_lets +onlyGivenNames z; clear_value z; apply Same.letAny z; clear z; intro z)
    | apply spdmRun_frame
    | apply spdmSay_frame
    | (refine Same.updSpdm ?_ rfl; assumption))

theorem execSpdmNegotiateAlgorithms_frame {m : Nat} {s0 : State} : ∀ x0 x1 s, 2100354 &&& m = 2100354 → Same m s0 s → SameT m s0 (execSpdmNegotiateAlgorithms x0 x1 s) := by
  intro x0 x1 s hM h
  refine SameT.run hM h fun h0 => ?_
  unfold execSpdmNegotiateAlgorithms
  repeat' (with_reducible first
    | assumption
    | intro _
    | exact Same.bits rfl
    | apply SameT.next
    | apply SameT.ite
    | apply Same.ite
    | apply spdmRun_frame
    | apply spdmSay_frame
    | (refine Same.updSpdm ?_ rfl; assumption)
    | split
    | dsimp -zeta only)

theorem execSpdmGetDigests_frame {m : Nat} {s0 : State} : ∀ x0 s, 2100354 &&& m = 2100354 → Same m s0 s → SameT m s0 (execSpdmGetDigests x0 s) := by
  intro x0 s hM h
  refine SameT.run hM h fun h0 => ?_
  unfold execSpdmGetDigests
  repeat' (with_reducible first
    | assumption
    | intro _
    | exact Same.bits rfl
    | apply SameT.next
    | apply spdmRun_frame
    | apply spdmSay_frame
    | dsimp -zeta only)

theorem spdmFinish_frame {m : Nat} {s0 : State} : ∀ s x1 x2 x3 x4, 6292610 &&& m = 6292610 → Same m s0 s → Same m s0 (spdmFinish s x1 x2 x3 x4) := by
  intro s x1 x2 x3 x4 hM h
  refine Same.run hM h fun h0 => ?_
  unfold spdmFinish
  repeat' (with_reducible first
    | assumption
    | exact Same.bits rfl
    | (extract_lets +onlyGivenNames z; change _ → _ at z; apply Same.cutF z; subst z)
    | (extract_lets +onlyGivenNames z; change State at z; apply Same.cutS h0 (x := z); unfold z; clear z; rotate_left; intro h; clear_value z; apply Same.letS h; clear h z; intro z h)
    | (extract_lets +onlyGivenNames z; clear_value z; apply Same.letAny z; clear z; intro z)
    | apply Same.ite
    | apply spdmSay_frame
    | apply sessionZero_frame
    | apply sessionKeys_frame
    | apply sessShow_frame
    | (refine Same.updSpdm ?_ rfl; assumption)
    | split)

theorem execSpdmFinish_frame {m : Nat} {s0 : State} : ∀ x0 x1 x2 x3 s, 6294658 &&& m = 6294658 → Same m s0 s → SameT m s0 (execSpdmFinish x0 x1 x2 x3 s) := by
  intro x0 x1 x2 x3 s hM h
  refine SameT.run hM h fun h0 => ?_
  unfold execSpdmFinish
  repeat' (with_reducible first
    | assumption
    | intro _
    | exact Same.bits rfl
    | apply SameT.next
    | apply spdmRun_frame
    | apply spdmFinish_frame)

theorem execSpdmEndSession_frame {m : Nat} {s0 : State} : ∀ x0 s, 6294658 &&& m = 6294658 → Same m s0 s → SameT m s0 (execSpdmEndSession x0 s) := by
  intro x0 s hM h
  refine SameT.run hM h fun h0 => ?_
  unfold execSpdmEndSession
  repeat' (with_reducible first
    | assumption
    | intro _
    | exact Same.bits rfl
    | apply SameT.next
    | apply inSession_frame
    | apply spdmSay_frame
    | apply sessionEnd_frame)

theorem execSpdmUnsupportedRequest_frame {m : Nat} {s0 : State} : ∀ x0 x1 s, 2100354 &&& m = 2100354 → Same m s0 s → SameT m s0 (execSpdmUnsupportedRequest x0 x1 s) := by
  intro x0 x1 s hM h
  refine SameT.run hM h fun h0 => ?_
  unfold execSpdmUnsupportedRequest
  repeat' (with_reducible first
    | assumption
    | intro _
    | exact Same.bits rfl
    | apply SameT.next
    | apply SameT.ite
    | apply Same.ite
    | apply spdmRun_frame
    | apply spdmSay_frame
    | split
    | dsimp -zeta only)

theorem execSvcIdcode_frame {m : Nat} {s0 : State} : ∀ s, 536871168 &&& m = 536871168 → Same m s0 s → SameT m s0 (execSvcIdcode s) := by
  intro s hM h
  refine SameT.run hM h fun h0 => ?_
  unfold execSvcIdcode
  repeat' (with_reducible first
    | assumption
    | exact Same.bits rfl
    | apply SameT.next
    | apply openTaken_frame
    | apply svcOut_frame)

theorem execSvcChallengeExpiry_frame {m : Nat} {s0 : State} : ∀ s, 290 &&& m = 290 → Same m s0 s → SameT m s0 (execSvcChallengeExpiry s) := by
  intro s hM h
  refine SameT.run hM h fun h0 => ?_
  unfold execSvcChallengeExpiry
  repeat' (with_reducible first
    | assumption
    | exact Same.bits rfl
    | apply SameT.next
    | (extract_lets +onlyGivenNames z; change State at z; apply Same.cutS h0 (x := z); unfold z; clear z; rotate_left; intro h; clear_value z; apply Same.letS h; clear h z; intro z h)
    | (extract_lets +onlyGivenNames z; clear_value z; apply Same.letAny z; clear z; intro z)
    | apply Same.ite
    | apply reach_frame
    | (refine Same.updSvc ?_ rfl; assumption)
    | split)

theorem execMailboxLateWrite_frame {m : Nat} {s0 : State} : ∀ x0 x1 x2 s, 514 &&& m = 514 → Same m s0 s → SameT m s0 (execMailboxLateWrite x0 x1 x2 s) := by
  intro x0 x1 x2 s hM h
  refine SameT.run hM h fun h0 => ?_
  unfold execMailboxLateWrite
  repeat' (with_reducible first
    | assumption
    | exact Same.bits rfl
    | apply SameT.next
    | apply Same.ite
    | apply hostWrite_frame)

theorem execMctpSetEndpointId_frame {m : Nat} {s0 : State} : ∀ x0 s, 2100738 &&& m = 2100738 → Same m s0 s → SameT m s0 (execMctpSetEndpointId x0 s) := by
  intro x0 s hM h
  refine SameT.run hM h fun h0 => ?_
  unfold execMctpSetEndpointId
  repeat' (with_reducible first
    | assumption
    | exact Same.bits rfl
    | apply SameT.next
    | apply Same.ite
    | apply sbSay_frame
    | apply fset_frame)

theorem execMctpGetMessageTypeSupport_frame {m : Nat} {s0 : State} : ∀ s, 2100738 &&& m = 2100738 → Same m s0 s → SameT m s0 (execMctpGetMessageTypeSupport s) := by
  intro s hM h
  refine SameT.run hM h fun h0 => ?_
  unfold execMctpGetMessageTypeSupport
  repeat' (with_reducible first
    | assumption
    | exact Same.bits rfl
    | apply SameT.next
    | apply Same.ite
    | apply sbSay_frame)

theorem execDoeDiscovery_frame {m : Nat} {s0 : State} : ∀ x0 x1 s, 512 &&& m = 512 → Same m s0 s → SameT m s0 (execDoeDiscovery x0 x1 s) := by
  intro x0 x1 s hM h
  refine SameT.run hM h fun h0 => ?_
  unfold execDoeDiscovery
  repeat' (with_reducible first
    | assumption
    | exact Same.bits rfl
    | apply SameT.next
    | apply Same.ite
    | apply doeSay_frame)

theorem execDoeInvalidObject_frame {m : Nat} {s0 : State} : ∀ x0 x1 x2 s, 512 &&& m = 512 → Same m s0 s → SameT m s0 (execDoeInvalidObject x0 x1 x2 s) := by
  intro x0 x1 x2 s hM h
  refine SameT.run hM h fun h0 => ?_
  unfold execDoeInvalidObject
  repeat' (with_reducible first
    | assumption
    | exact Same.bits rfl
    | apply SameT.next
    | apply Same.ite
    | apply doeSay_frame)

theorem execSliceUnbindChannel_frame {m : Nat} {s0 : State} : ∀ x0 s, 2190978 &&& m = 2190978 → Same m s0 s → SameT m s0 (execSliceUnbindChannel x0 s) := by
  intro x0 s hM h
  refine SameT.run hM h fun h0 => ?_
  unfold execSliceUnbindChannel
  repeat' (with_reducible first
    | unfold bindChannelDef
    | assumption
    | intro _
    | exact Same.bits rfl
    | apply SameT.next
    | apply mbxRun_frame
    | apply bindChannel_frame
    | apply OpKeeps.opDef)

theorem execKeyRewriteImport_frame {m : Nat} {s0 : State} : ∀ x0 s, 6295170 &&& m = 6295170 → Same m s0 s → SameT m s0 (execKeyRewriteImport x0 s) := by
  intro x0 s hM h
  refine SameT.run hM h fun h0 => ?_
  unfold execKeyRewriteImport
  repeat' (with_reducible first
    | unfold rewriteDef
    | assumption
    | intro _
    | exact Same.bits rfl
    | apply SameT.next
    | apply mbxRun_frame
    | apply keyRewrite_frame
    | apply OpKeeps.of)

theorem execSelftestStartExtended_frame {m : Nat} {s0 : State} : ∀ x0 s, 3264130 &&& m = 3264130 → Same m s0 s → SameT m s0 (execSelftestStartExtended x0 s) := by
  intro x0 s hM h
  refine SameT.run hM h fun h0 => ?_
  unfold execSelftestStartExtended
  repeat' (with_reducible first
    | unfold selftestStartDef
    | assumption
    | intro _
    | exact Same.bits rfl
    | apply SameT.next
    | apply mbxRun_frame
    | apply selftestStart_frame
    | apply OpKeeps.opDef)

theorem execHoldupTestReport_frame {m : Nat} {s0 : State} : ∀ x0 s, 2133634 &&& m = 2133634 → Same m s0 s → SameT m s0 (execHoldupTestReport x0 s) := by
  intro x0 s hM h
  refine SameT.run hM h fun h0 => ?_
  unfold execHoldupTestReport
  repeat' (with_reducible first
    | unfold holdupTestDef
    | assumption
    | intro _
    | exact Same.bits rfl
    | apply SameT.next
    | apply mbxRun_frame
    | apply holdupTest_frame
    | apply OpKeeps.opDef)

theorem execHotReset_frame {m : Nat} {s0 : State} : ∀ x0 s, 70778434 &&& m = 70778434 → Same m s0 s → SameT m s0 (execHotReset x0 s) := by
  intro x0 s hM h
  refine SameT.run hM h fun h0 => ?_
  unfold execHotReset
  repeat' (with_reducible first
    | assumption
    | exact Same.bits rfl
    | apply SameT.next
    | apply SameT.ite
    | apply Same.ite
    | apply linkReset_frame
    | apply confDefaults_frame
    | split
    | dsimp -zeta only)

theorem execFunctionLevelReset_frame {m : Nat} {s0 : State} : ∀ x0 s, 70778434 &&& m = 70778434 → Same m s0 s → SameT m s0 (execFunctionLevelReset x0 s) := by
  intro x0 s hM h
  refine SameT.run hM h fun h0 => ?_
  unfold execFunctionLevelReset
  repeat' (with_reducible first
    | assumption
    | exact Same.bits rfl
    | apply SameT.next
    | apply linkReset_frame)

theorem laneFailure_frame {m : Nat} {s0 : State} : ∀ s x1 x2, 2100226 &&& m = 2100226 → Same m s0 s → Same m s0 (laneFailure s x1 x2) := by
  intro s x1 x2 hM h
  refine Same.run hM h fun h0 => ?_
  unfold laneFailure
  repeat' (with_reducible first
    | assumption
    | exact Same.bits rfl
    | (extract_lets +onlyGivenNames z; change State at z; apply Same.cutS h0 (x := z); unfold z; clear z; rotate_left; intro h; clear_value z; apply Same.letS h; clear h z; intro z h)
    | apply Same.ite
    | apply portUpd_frame
    | apply retrained_frame
    | apply fon_frame
    | apply fset_frame
    | apply foff_frame)

theorem execLaneFailure_frame {m : Nat} {s0 : State} : ∀ x0 x1 s, 2100226 &&& m = 2100226 → Same m s0 s → SameT m s0 (execLaneFailure x0 x1 s) := by
  intro x0 x1 s hM h
  refine SameT.run hM h fun h0 => ?_
  unfold execLaneFailure
  repeat' (with_reducible first
    | assumption
    | exact Same.bits rfl
    | apply SameT.next
    | apply laneFailure_frame)

theorem execCcEnSet_frame {m : Nat} {s0 : State} : ∀ x0 x1 x2 s, 538971138 &&& m = 538971138 → Same m s0 s → SameT m s0 (execCcEnSet x0 x1 x2 s) := by
  intro x0 x1 x2 s hM h
  refine SameT.run hM h fun h0 => ?_
  unfold execCcEnSet
  repeat' (with_reducible first
    | assumption
    | exact Same.bits rfl
    | apply SameT.next
    | apply ccEnSet_frame)

theorem execCcShnWrite_frame {m : Nat} {s0 : State} : ∀ x0 s, 2048 &&& m = 2048 → Same m s0 s → SameT m s0 (execCcShnWrite x0 s) := by
  intro x0 s hM h
  refine SameT.run hM h fun h0 => ?_
  unfold execCcShnWrite
  repeat' (with_reducible first
    | assumption
    | exact Same.bits rfl
    | apply SameT.next
    | (extract_lets +onlyGivenNames z; clear_value z; apply Same.letAny z; clear z; intro z)
    | apply Same.ite
    | apply portUpd_frame)

theorem execCreateIoSq_frame {m : Nat} {s0 : State} : ∀ x0 s, 2050 &&& m = 2050 → Same m s0 s → SameT m s0 (execCreateIoSq x0 s) := by
  intro x0 s hM h
  refine SameT.run hM h fun h0 => ?_
  unfold execCreateIoSq
  repeat' (with_reducible first
    | assumption
    | intro _
    | exact Same.bits rfl
    | apply SameT.next
    | (extract_lets +onlyGivenNames z; change _ × State at z; apply Same.cut2 h0 (x := z); unfold z; clear z; rotate_left; intro h; clear_value z; apply Same.let2 (x := z) h; clear h z; intro z h)
    | apply adminRun_frame
    | apply createSq_frame)

theorem execIdentify_frame {m : Nat} {s0 : State} : ∀ x0 s, 536872960 &&& m = 536872960 → Same m s0 s → SameT m s0 (execIdentify x0 s) := by
  intro x0 s hM h
  refine SameT.run hM h fun h0 => ?_
  unfold execIdentify
  repeat' (with_reducible first
    | assumption
    | intro _
    | exact Same.bits rfl
    | apply SameT.next
    | (extract_lets +onlyGivenNames z; change _ × State at z; apply Same.cut2 h0 (x := z); unfold z; clear z; rotate_left; intro h; clear_value z; apply Same.let2 (x := z) h; clear h z; intro z h)
    | apply adminRun_frame
    | apply identify_frame)

theorem execGetLogSmart_frame {m : Nat} {s0 : State} : ∀ x0 s, 536872960 &&& m = 536872960 → Same m s0 s → SameT m s0 (execGetLogSmart x0 s) := by
  intro x0 s hM h
  refine SameT.run hM h fun h0 => ?_
  unfold execGetLogSmart
  repeat' (with_reducible first
    | assumption
    | intro _
    | exact Same.bits rfl
    | apply SameT.next
    | apply logRun_frame
    | apply openTaken_frame)

theorem execGetLogErrorInfo_frame {m : Nat} {s0 : State} : ∀ x0 s, 536872960 &&& m = 536872960 → Same m s0 s → SameT m s0 (execGetLogErrorInfo x0 s) := by
  intro x0 s hM h
  refine SameT.run hM h fun h0 => ?_
  unfold execGetLogErrorInfo
  repeat' (with_reducible first
    | assumption
    | intro _
    | exact Same.bits rfl
    | apply SameT.next
    | apply logRun_frame
    | apply openTaken_frame)

theorem execGetLogTelemetryCapture_frame {m : Nat} {s0 : State} : ∀ x0 s, 536872960 &&& m = 536872960 → Same m s0 s → SameT m s0 (execGetLogTelemetryCapture x0 s) := by
  intro x0 s hM h
  refine SameT.run hM h fun h0 => ?_
  unfold execGetLogTelemetryCapture
  repeat' (with_reducible first
    | assumption
    | intro _
    | exact Same.bits rfl
    | apply SameT.next
    | (extract_lets +onlyGivenNames z; change State at z; apply Same.cutS h0 (x := z); unfold z; clear z; rotate_left; intro h; clear_value z; apply Same.letS h; clear h z; intro z h)
    | (extract_lets +onlyGivenNames z; clear_value z; apply Same.letAny z; clear z; intro z)
    | apply logRun_frame
    | apply portUpd_frame
    | apply openTaken_frame)

theorem setPower_frame {m : Nat} {s0 : State} : ∀ s x1 x2, 2100226 &&& m = 2100226 → Same m s0 s → Same m s0 (setPower s x1 x2) := by
  intro s x1 x2 hM h
  refine Same.run hM h fun h0 => ?_
  unfold setPower
  repeat' (with_reducible first
    | assumption
    | exact Same.bits rfl
    | apply psRefresh_frame
    | apply portUpd_frame)

theorem execSetFeaturesPowerManagement_frame {m : Nat} {s0 : State} : ∀ x0 s, 2100226 &&& m = 2100226 → Same m s0 s → SameT m s0 (execSetFeaturesPowerManagement x0 s) := by
  intro x0 s hM h
  refine SameT.run hM h fun h0 => ?_
  unfold execSetFeaturesPowerManagement
  repeat' (with_reducible first
    | assumption
    | intro _
    | exact Same.bits rfl
    | apply SameT.next
    | (extract_lets +onlyGivenNames z; change State at z; apply Same.cutS h0 (x := z); unfold z; clear z; rotate_left; intro h; clear_value z; apply Same.letS h; clear h z; intro z h)
    | (extract_lets +onlyGivenNames z; change _ × _ × State at z; apply Same.cut22 h0 (x := z); unfold z; clear z; rotate_left; intro h; clear_value z; apply Same.let22 (x := z) h; clear h z; intro z h)
    | (extract_lets +onlyGivenNames z; change _ × State at z; apply Same.cut2 h0 (x := z); unfold z; clear z; rotate_left; intro h; clear_value z; apply Same.let2 (x := z) h; clear h z; intro z h)
    | (extract_lets +onlyGivenNames z; clear_value z; apply Same.letAny z; clear z; intro z)
    | apply SameT.ite
    | apply Same.ite
    | apply Same2.ite
    | apply featRun_frame
    | apply setPower_frame
    | split
    | dsimp -zeta only
    | apply Same2.mk')

theorem execSetFeaturesTemperatureThreshold_frame {m : Nat} {s0 : State} : ∀ x0 s, 2048 &&& m = 2048 → Same m s0 s → SameT m s0 (execSetFeaturesTemperatureThreshold x0 s) := by
  intro x0 s hM h
  refine SameT.run hM h fun h0 => ?_
  unfold execSetFeaturesTemperatureThreshold
  repeat' (with_reducible first
    | assumption
    | intro _
    | exact Same.bits rfl
    | apply SameT.next
    | (extract_lets +onlyGivenNames z; change State at z; apply Same.cutS h0 (x := z); unfold z; clear z; rotate_left; intro h; clear_value z; apply Same.letS h; clear h z; intro z h)
    | (extract_lets +onlyGivenNames z; change _ × _ × State at z; apply Same.cut22 h0 (x := z); unfold z; clear z; rotate_left; intro h; clear_value z; apply Same.let22 (x := z) h; clear h z; intro z h)
    | (extract_lets +onlyGivenNames z; change _ × State at z; apply Same.cut2 h0 (x := z); unfold z; clear z; rotate_left; intro h; clear_value z; apply Same.let2 (x := z) h; clear h z; intro z h)
    | (extract_lets +onlyGivenNames z; clear_value z; apply Same.letAny z; clear z; intro z)
    | apply SameT.ite
    | apply Same.ite
    | apply Same2.ite
    | apply featRun_frame
    | apply tempEvents_frame
    | apply featUpd_frame
    | apply Same.foldl
    | apply Same2.foldl
    | split
    | dsimp -zeta only
    | apply Same2.mk')

theorem execSetFeaturesAsyncEventConfig_frame {m : Nat} {s0 : State} : ∀ x0 s, 2048 &&& m = 2048 → Same m s0 s → SameT m s0 (execSetFeaturesAsyncEventConfig x0 s) := by
  intro x0 s hM h
  refine SameT.run hM h fun h0 => ?_
  unfold execSetFeaturesAsyncEventConfig
  repeat' (with_reducible first
    | assumption
    | intro _
    | exact Same.bits rfl
    | apply SameT.next
    | apply featRun_frame
    | apply featUpd_frame
    | dsimp -zeta only)

theorem execFirmwareCommitReplace_frame {m : Nat} {s0 : State} : ∀ x0 s, 104066562 &&& m = 104066562 → Same m s0 s → SameT m s0 (execFirmwareCommitReplace x0 s) := by
  intro x0 s hM h
  refine SameT.run hM h fun h0 => ?_
  unfold execFirmwareCommitReplace
  repeat' (with_reducible first
    | assumption
    | exact Same.bits rfl
    | apply SameT.next
    | apply fwCommitRun_frame)

theorem execFirmwareCommitReplaceActivate_frame {m : Nat} {s0 : State} : ∀ x0 s, 104066562 &&& m = 104066562 → Same m s0 s → SameT m s0 (execFirmwareCommitReplaceActivate x0 s) := by
  intro x0 s hM h
  refine SameT.run hM h fun h0 => ?_
  unfold execFirmwareCommitReplaceActivate
  repeat' (with_reducible first
    | assumption
    | exact Same.bits rfl
    | apply SameT.next
    | apply fwCommitRun_frame)

theorem execDeviceSelfTestShort_frame {m : Nat} {s0 : State} : ∀ x0 s, 3263490 &&& m = 3263490 → Same m s0 s → SameT m s0 (execDeviceSelfTestShort x0 s) := by
  intro x0 s hM h
  refine SameT.run hM h fun h0 => ?_
  unfold execDeviceSelfTestShort
  repeat' (with_reducible first
    | assumption
    | exact Same.bits rfl
    | apply SameT.next
    | apply dstRun_frame)

theorem execDeviceSelfTestExtended_frame {m : Nat} {s0 : State} : ∀ x0 s, 3263490 &&& m = 3263490 → Same m s0 s → SameT m s0 (execDeviceSelfTestExtended x0 s) := by
  intro x0 s hM h
  refine SameT.run hM h fun h0 => ?_
  unfold execDeviceSelfTestExtended
  repeat' (with_reducible first
    | assumption
    | exact Same.bits rfl
    | apply SameT.next
    | apply dstRun_frame)

theorem execIoInvalidOpcode_frame {m : Nat} {s0 : State} : ∀ x0 s, 2048 &&& m = 2048 → Same m s0 s → SameT m s0 (execIoInvalidOpcode x0 s) := by
  intro x0 s hM h
  refine SameT.run hM h fun h0 => ?_
  unfold execIoInvalidOpcode
  repeat' (with_reducible first
    | assumption
    | exact Same.bits rfl
    | apply SameT.next
    | apply Same.ite
    | apply ctxFail_frame
    | split)

theorem descRebuilt_frame {m : Nat} {s0 : State} : ∀ s x1, 2106370 &&& m = 2106370 → Same m s0 s → Same m s0 (descRebuilt s x1) := by
  intro s x1 hM h
  refine Same.run hM h fun h0 => ?_
  unfold descRebuilt
  repeat' (with_reducible first
    | assumption
    | exact Same.bits rfl
    | (extract_lets +onlyGivenNames z; change State at z; apply Same.cutS h0 (x := z); unfold z; clear z; rotate_left; intro h; clear_value z; apply Same.letS h; clear h z; intro z h)
    | (extract_lets +onlyGivenNames z; change _ × _ × State at z; apply Same.cut22 h0 (x := z); unfold z; clear z; rotate_left; intro h; clear_value z; apply Same.let22 (x := z) h; clear h z; intro z h)
    | (extract_lets +onlyGivenNames z; change _ × State at z; apply Same.cut2 h0 (x := z); unfold z; clear z; rotate_left; intro h; clear_value z; apply Same.let2 (x := z) h; clear h z; intro z h)
    | (extract_lets +onlyGivenNames z; clear_value z; apply Same.letAny z; clear z; intro z)
    | apply post_frame
    | apply zonePut_frame
    | split
    | dsimp -zeta only
    | apply Same2.mk')

theorem execDescriptorRebuildDone_frame {m : Nat} {s0 : State} : ∀ x0 s, 2106370 &&& m = 2106370 → Same m s0 s → SameT m s0 (execDescriptorRebuildDone x0 s) := by
  intro x0 s hM h
  refine SameT.run hM h fun h0 => ?_
  unfold execDescriptorRebuildDone
  repeat' (with_reducible first
    | assumption
    | exact Same.bits rfl
    | apply SameT.next
    | apply descRebuilt_frame
    | dsimp -zeta only)

theorem execDatasetManagement_frame {m : Nat} {s0 : State} : ∀ x0 s, 146275922 &&& m = 146275922 → Same m s0 s → SameT m s0 (execDatasetManagement x0 s) := by
  intro x0 s hM h
  refine SameT.run hM h fun h0 => ?_
  unfold execDatasetManagement
  repeat' (with_reducible first
    | assumption
    | intro _
    | exact Same.bits rfl
    | apply SameT.next
    | apply ioRun_frame
    | apply dsmRun_frame)

theorem execZoneReset_frame {m : Nat} {s0 : State} : ∀ x0 s, 146275922 &&& m = 146275922 → Same m s0 s → SameT m s0 (execZoneReset x0 s) := by
  intro x0 s hM h
  refine SameT.run hM h fun h0 => ?_
  unfold execZoneReset
  repeat' (with_reducible first
    | assumption
    | exact Same.bits rfl
    | apply SameT.next
    | apply zoneSend_frame)

theorem execZoneOffline_frame {m : Nat} {s0 : State} : ∀ x0 s, 146275922 &&& m = 146275922 → Same m s0 s → SameT m s0 (execZoneOffline x0 s) := by
  intro x0 s hM h
  refine SameT.run hM h fun h0 => ?_
  unfold execZoneOffline
  repeat' (with_reducible first
    | assumption
    | exact Same.bits rfl
    | apply SameT.next
    | apply zoneSend_frame)

theorem execZoneMgmtSendInvalid_frame {m : Nat} {s0 : State} : ∀ x0 s, 146275922 &&& m = 146275922 → Same m s0 s → SameT m s0 (execZoneMgmtSendInvalid x0 s) := by
  intro x0 s hM h
  refine SameT.run hM h fun h0 => ?_
  unfold execZoneMgmtSendInvalid
  repeat' (with_reducible first
    | assumption
    | intro _
    | exact Same.bits rfl
    | apply SameT.next
    | apply Same.ite
    | apply ioRun_frame
    | apply ctxFail_frame)

theorem execReportZones_frame {m : Nat} {s0 : State} : ∀ x0 s, 146275922 &&& m = 146275922 → Same m s0 s → SameT m s0 (execReportZones x0 s) := by
  intro x0 s hM h
  refine SameT.run hM h fun h0 => ?_
  unfold execReportZones
  repeat' (with_reducible first
    | assumption
    | intro _
    | exact Same.bits rfl
    | apply SameT.next
    | apply ioRun_frame
    | apply reportZones_frame)

theorem execExtendedReportZones_frame {m : Nat} {s0 : State} : ∀ x0 s, 146275922 &&& m = 146275922 → Same m s0 s → SameT m s0 (execExtendedReportZones x0 s) := by
  intro x0 s hM h
  refine SameT.run hM h fun h0 => ?_
  unfold execExtendedReportZones
  repeat' (with_reducible first
    | assumption
    | intro _
    | exact Same.bits rfl
    | apply SameT.next
    | apply ioRun_frame
    | apply ctxFail_frame)

theorem execSlmResetStart_frame {m : Nat} {s0 : State} : ∀ x0 x1 s, 3669522 &&& m = 3669522 → Same m s0 s → SameT m s0 (execSlmResetStart x0 x1 s) := by
  intro x0 x1 s hM h
  refine SameT.run hM h fun h0 => ?_
  unfold execSlmResetStart
  repeat' (with_reducible first
    | assumption
    | intro _
    | exact Same.bits rfl
    | apply SameT.next
    | apply gated_frame
    | apply wrSliceReset_frame)

theorem execSlmShareStage_frame {m : Nat} {s0 : State} : ∀ x0 x1 x2 s, 2192402 &&& m = 2192402 → Same m s0 s → SameT m s0 (execSlmShareStage x0 x1 x2 s) := by
  intro x0 x1 x2 s hM h
  refine SameT.run hM h fun h0 => ?_
  unfold execSlmShareStage
  repeat' (with_reducible first
    | assumption
    | intro _
    | exact Same.bits rfl
    | apply SameT.next
    | apply gated_frame
    | apply shareStage_frame)

theorem execGroupScoreTick_frame {m : Nat} {s0 : State} : ∀ s, 16384 &&& m = 16384 → Same m s0 s → SameT m s0 (execGroupScoreTick s) := by
  intro s hM h
  refine SameT.run hM h fun h0 => ?_
  unfold execGroupScoreTick
  repeat' (with_reducible first
    | assumption
    | exact Same.bits rfl
    | apply SameT.next
    | apply scoreTick_frame)

theorem execStripeIdlePad_frame {m : Nat} {s0 : State} : ∀ x0 s, 49186 &&& m = 49186 → Same m s0 s → SameT m s0 (execStripeIdlePad x0 s) := by
  intro x0 s hM h
  refine SameT.run hM h fun h0 => ?_
  unfold execStripeIdlePad
  repeat' (with_reducible first
    | assumption
    | exact Same.bits rfl
    | apply SameT.next
    | apply idlePad_frame)

theorem execStreamInactive_frame {m : Nat} {s0 : State} : ∀ x0 s, 16418 &&& m = 16418 → Same m s0 s → SameT m s0 (execStreamInactive x0 s) := by
  intro x0 s hM h
  refine SameT.run hM h fun h0 => ?_
  unfold execStreamInactive
  repeat' (with_reducible first
    | assumption
    | exact Same.bits rfl
    | apply SameT.next
    | apply streamInactive_frame)

theorem execPlcGrpHoldWrite_frame {m : Nat} {s0 : State} : ∀ x0 x1 x2 s, 2188306 &&& m = 2188306 → Same m s0 s → SameT m s0 (execPlcGrpHoldWrite x0 x1 x2 s) := by
  intro x0 x1 x2 s hM h
  refine SameT.run hM h fun h0 => ?_
  unfold execPlcGrpHoldWrite
  repeat' (with_reducible first
    | assumption
    | intro _
    | exact Same.bits rfl
    | apply SameT.next
    | apply gated_frame
    | apply wrGrpHold_frame)

theorem execSuspendWindowExpiry_frame {m : Nat} {s0 : State} : ∀ x0 s, 32802 &&& m = 32802 → Same m s0 s → SameT m s0 (execSuspendWindowExpiry x0 s) := by
  intro x0 s hM h
  refine SameT.run hM h fun h0 => ?_
  unfold execSuspendWindowExpiry
  repeat' (with_reducible first
    | assumption
    | exact Same.bits rfl
    | apply SameT.next
    | apply windowExpiry_frame)

theorem execLdpcDecode_frame {m : Nat} {s0 : State} : ∀ x0 x1 x2 s, 137620482 &&& m = 137620482 → Same m s0 s → SameT m s0 (execLdpcDecode x0 x1 x2 s) := by
  intro x0 x1 x2 s hM h
  refine SameT.run hM h fun h0 => ?_
  unfold execLdpcDecode
  repeat' (with_reducible first
    | assumption
    | exact Same.bits rfl
    | apply SameT.next
    | apply Same.ite
    | apply ldpcDecode_frame)

theorem journalErase_frame {m : Nat} {s0 : State} : ∀ s x1 x2, 114690 &&& m = 114690 → Same m s0 s → Same m s0 (journalErase s x1 x2) := by
  intro s x1 x2 hM h
  refine Same.run hM h fun h0 => ?_
  unfold journalErase
  repeat' (with_reducible first
    | assumption
    | intro _
    | exact Same.bits rfl
    | (extract_lets +onlyGivenNames z; change State at z; apply Same.cutS h0 (x := z); unfold z; clear z; rotate_left; intro h; clear_value z; apply Same.letS h; clear h z; intro z h)
    | (extract_lets +onlyGivenNames z; change _ × _ × State at z; apply Same.cut22 h0 (x := z); unfold z; clear z; rotate_left; intro h; clear_value z; apply Same.let22 (x := z) h; clear h z; intro z h)
    | (extract_lets +onlyGivenNames z; change _ × State at z; apply Same.cut2 h0 (x := z); unfold z; clear z; rotate_left; intro h; clear_value z; apply Same.let2 (x := z) h; clear h z; intro z h)
    | (extract_lets +onlyGivenNames z; change _ → _ at z; apply Same.cutF z; subst z)
    | (extract_lets +onlyGivenNames z; clear_value z; apply Same.letAny z; clear z; intro z)
    | apply Same.ite
    | apply sbErase_frame
    | (refine Same.updMed ?_ rfl; assumption)
    | split
    | dsimp -zeta only)

theorem execJournalBlockErase_frame {m : Nat} {s0 : State} : ∀ x0 x1 s, 114690 &&& m = 114690 → Same m s0 s → SameT m s0 (execJournalBlockErase x0 x1 s) := by
  intro x0 x1 s hM h
  refine SameT.run hM h fun h0 => ?_
  unfold execJournalBlockErase
  repeat' (with_reducible first
    | assumption
    | exact Same.bits rfl
    | apply SameT.next
    | apply journalErase_frame)

theorem execDescJoinedProgram_frame {m : Nat} {s0 : State} : ∀ x0 s, 146275922 &&& m = 146275922 → Same m s0 s → SameT m s0 (execDescJoinedProgram x0 s) := by
  intro x0 s hM h
  refine SameT.run hM h fun h0 => ?_
  unfold execDescJoinedProgram
  repeat' (with_reducible first
    | assumption
    | exact Same.bits rfl
    | apply SameT.next
    | apply takeOp_frame)

theorem execDescGetFeatures_frame {m : Nat} {s0 : State} : ∀ x0 s, 146275922 &&& m = 146275922 → Same m s0 s → SameT m s0 (execDescGetFeatures x0 s) := by
  intro x0 s hM h
  refine SameT.run hM h fun h0 => ?_
  unfold execDescGetFeatures
  repeat' (with_reducible first
    | assumption
    | exact Same.bits rfl
    | apply SameT.next
    | apply takeOp_frame)

theorem execDescSetFeatures_frame {m : Nat} {s0 : State} : ∀ x0 s, 146275922 &&& m = 146275922 → Same m s0 s → SameT m s0 (execDescSetFeatures x0 s) := by
  intro x0 s hM h
  refine SameT.run hM h fun h0 => ?_
  unfold execDescSetFeatures
  repeat' (with_reducible first
    | assumption
    | exact Same.bits rfl
    | apply SameT.next
    | apply takeOp_frame)

theorem execSeqClose_frame {m : Nat} {s0 : State} : ∀ x0 s, 146275922 &&& m = 146275922 → Same m s0 s → SameT m s0 (execSeqClose x0 s) := by
  intro x0 s hM h
  refine SameT.run hM h fun h0 => ?_
  unfold execSeqClose
  repeat' (with_reducible first
    | assumption
    | exact Same.bits rfl
    | apply SameT.next
    | apply takeOp_frame)

theorem busTake_frame {m : Nat} {s0 : State} : ∀ s x1 x2, 131072 &&& m = 131072 → Same m s0 s → Same m s0 (busTake s x1 x2) := by
  intro s x1 x2 hM h
  refine Same.run hM h fun h0 => ?_
  unfold busTake
  repeat' (with_reducible first
    | assumption
    | exact Same.bits rfl
    | (extract_lets +onlyGivenNames z; clear_value z; apply Same.letAny z; clear z; intro z)
    | apply chsPut_frame)

theorem cplDo_frame {m : Nat} {s0 : State} : ∀ s x1 x2 x3, 131074 &&& m = 131074 → Same m s0 s → Same2 m s0 (cplDo s x1 x2 x3) := by
  intro s x1 x2 x3 hM h
  refine Same2.run hM h fun h0 => ?_
  unfold cplDo
  repeat' (with_reducible first
    | assumption
    | exact Same.bits rfl
    | apply complete_frame
    | split
    | apply Same2.mk')

theorem featGet_frame {m : Nat} {s0 : State} : ∀ s x1 x2 x3, 536870912 &&& m = 536870912 → Same m s0 s → Same2 m s0 (featGet s x1 x2 x3) := by
  intro s x1 x2 x3 hM h
  refine Same2.run hM h fun h0 => ?_
  unfold featGet
  repeat' (with_reducible first
    | assumption
    | exact Same.bits rfl
    | apply openTaken_frame
    | split
    | apply Same2.mk')

theorem burstIn_frame {m : Nat} {s0 : State} : ∀ s x1 x2 x3 x4 x5 x6, 537526290 &&& m = 537526290 → Same m s0 s → Same m s0 (burstIn s x1 x2 x3 x4 x5 x6) := by
  intro s x1 x2 x3 x4 x5 x6 hM h
  refine Same.run hM h fun h0 => ?_
  unfold burstIn
  repeat' (with_reducible first
    | assumption
    | exact Same.bits rfl
    | (extract_lets +onlyGivenNames z; change State at z; apply Same.cutS h0 (x := z); unfold z; clear z; rotate_left; intro h; clear_value z; apply Same.letS h; clear h z; intro z h)
    | (extract_lets +onlyGivenNames z; change _ × _ × State at z; apply Same.cut22 h0 (x := z); unfold z; clear z; rotate_left; intro h; clear_value z; apply Same.let22 (x := z) h; clear h z; intro z h)
    | (extract_lets +onlyGivenNames z; change _ × State at z; apply Same.cut2 h0 (x := z); unfold z; clear z; rotate_left; intro h; clear_value z; apply Same.let2 (x := z) h; clear h z; intro z h)
    | (extract_lets +onlyGivenNames z; clear_value z; apply Same.letAny z; clear z; intro z)
    | apply refPut_frame
    | apply openTaken_frame
    | (refine Same.updFlash ?_ rfl; assumption)
    | dsimp -zeta only)

theorem burstOut_frame {m : Nat} {s0 : State} : ∀ s x1 x2 x3 x4 x5 x6, 131072 &&& m = 131072 → Same m s0 s → Same m s0 (burstOut s x1 x2 x3 x4 x5 x6) := by
  intro s x1 x2 x3 x4 x5 x6 hM h
  refine Same.run hM h fun h0 => ?_
  unfold burstOut
  repeat' (with_reducible first
    | assumption
    | exact Same.bits rfl
    | (extract_lets +onlyGivenNames z; change State at z; apply Same.cutS h0 (x := z); unfold z; clear z; rotate_left; intro h; clear_value z; apply Same.letS h; clear h z; intro z h)
    | (extract_lets +onlyGivenNames z; change _ × _ × State at z; apply Same.cut22 h0 (x := z); unfold z; clear z; rotate_left; intro h; clear_value z; apply Same.let22 (x := z) h; clear h z; intro z h)
    | (extract_lets +onlyGivenNames z; change _ × State at z; apply Same.cut2 h0 (x := z); unfold z; clear z; rotate_left; intro h; clear_value z; apply Same.let2 (x := z) h; clear h z; intro z h)
    | (extract_lets +onlyGivenNames z; clear_value z; apply Same.letAny z; clear z; intro z)
    | (refine Same.updFlash ?_ rfl; assumption)
    | dsimp -zeta only)

theorem waitReach_frame {m : Nat} {s0 : State} : ∀ s x1 x2 x3, 34 &&& m = 34 → Same m s0 s → Same m s0 (waitReach s x1 x2 x3) := by
  intro s x1 x2 x3 hM h
  refine Same.run hM h fun h0 => ?_
  unfold waitReach
  repeat' (with_reducible first
    | assumption
    | exact Same.bits rfl
    | apply Same.ite
    | apply reach_frame
    | split
    | dsimp -zeta only)

theorem entDo_frame {m : Nat} {s0 : State} : ∀ s x1 x2 x3 x4 x5, 539690034 &&& m = 539690034 → Same m s0 s → Same22 m s0 (entDo s x1 x2 x3 x4 x5) := by
  intro s x1 x2 x3 x4 x5 hM h
  refine Same22.run hM h fun h0 => ?_
  unfold entDo
  repeat' (with_reducible first
    | assumption
    | intro _
    | exact Same.bits rfl
    | (extract_lets +onlyGivenNames z; change State at z; apply Same.cutS h0 (x := z); unfold z; clear z; rotate_left; intro h; clear_value z; apply Same.letS h; clear h z; intro z h)
    | (extract_lets +onlyGivenNames z; change _ × _ × State at z; apply Same.cut22 h0 (x := z); unfold z; clear z; rotate_left; intro h; clear_value z; apply Same.let22 (x := z) h; clear h z; intro z h)
    | (extract_lets +onlyGivenNames z; change _ × State at z; apply Same.cut2 h0 (x := z); unfold z; clear z; rotate_left; intro h; clear_value z; apply Same.let2 (x := z) h; clear h z; intro z h)
    | (extract_lets +onlyGivenNames z; change _ → _ at z; apply Same.cutF z; subst z)
    | (extract_lets +onlyGivenNames z; clear_value z; apply Same.letAny z; clear z; intro z)
    | apply Same.ite
    | apply Same2.ite
    | apply Same22.ite
    | apply waitReach_frame
    | apply burstIn_frame
    | apply cappedCount_frame
    | apply burstOut_frame
    | apply arrayPhase_frame
    | apply issued_frame
    | apply entProgram_frame
    | apply featGet_frame
    | (refine Same.updFlash ?_ rfl; assumption)
    | (refine Same.updFlash ?_ rfl; apply Same.ofPair2; assumption)
    | (apply Same.ofPair2; assumption)
    | (apply Same2.out; apply arrayPhase_frame)
    | (apply Same2.out; apply entProgram_frame)
    | (apply Same2.out; apply featGet_frame)
    | split
    | dsimp -zeta only
    | apply Same2.mk'
    | apply Same22.mk'
    | apply Same2.mk')

theorem wordAct_frame {m : Nat} {s0 : State} : ∀ s x1 x2 x3 x4 x5 x6, 539690034 &&& m = 539690034 → Same m s0 s → Same22 m s0 (wordAct s x1 x2 x3 x4 x5 x6) := by
  intro s x1 x2 x3 x4 x5 x6 hM h
  refine Same22.run hM h fun h0 => ?_
  unfold wordAct
  repeat' (with_reducible first
    | assumption
    | exact Same.bits rfl
    | (extract_lets +onlyGivenNames z; change State at z; apply Same.cutS h0 (x := z); unfold z; clear z; rotate_left; intro h; clear_value z; apply Same.letS h; clear h z; intro z h)
    | (extract_lets +onlyGivenNames z; change _ × _ × State at z; apply Same.cut22 h0 (x := z); unfold z; clear z; rotate_left; intro h; clear_value z; apply Same.let22 (x := z) h; clear h z; intro z h)
    | (extract_lets +onlyGivenNames z; change _ × State at z; apply Same.cut2 h0 (x := z); unfold z; clear z; rotate_left; intro h; clear_value z; apply Same.let2 (x := z) h; clear h z; intro z h)
    | (extract_lets +onlyGivenNames z; clear_value z; apply Same.letAny z; clear z; intro z)
    | apply Same.ite
    | apply Same2.ite
    | apply Same22.ite
    | apply cappedCount_frame
    | apply burstIn_frame
    | apply burstOut_frame
    | apply aluDo_frame
    | apply cplDo_frame
    | apply busDrop_frame
    | apply waitReach_frame
    | apply entDo_frame
    | (apply Same2.out; apply aluDo_frame)
    | (apply Same2.out; apply cplDo_frame)
    | (apply Same22.out; apply entDo_frame)
    | split
    | dsimp -zeta only
    | apply Same2.mk'
    | apply Same22.mk'
    | apply Same2.mk')

theorem runWord_frame {m : Nat} {s0 : State} : ∀ s x1 x2 x3 x4, 539690034 &&& m = 539690034 → Same m s0 s → Same22 m s0 (runWord s x1 x2 x3 x4) := by
  intro s x1 x2 x3 x4 hM h
  refine Same22.run hM h fun h0 => ?_
  unfold runWord
  repeat' (with_reducible first
    | assumption
    | exact Same.bits rfl
    | (extract_lets +onlyGivenNames z; change State at z; apply Same.cutS h0 (x := z); unfold z; clear z; rotate_left; intro h; clear_value z; apply Same.letS h; clear h z; intro z h)
    | (extract_lets +onlyGivenNames z; change _ × _ × State at z; apply Same.cut22 h0 (x := z); unfold z; clear z; rotate_left; intro h; clear_value z; apply Same.let22 (x := z) h; clear h z; intro z h)
    | (extract_lets +onlyGivenNames z; change _ × State at z; apply Same.cut2 h0 (x := z); unfold z; clear z; rotate_left; intro h; clear_value z; apply Same.let2 (x := z) h; clear h z; intro z h)
    | (extract_lets +onlyGivenNames z; clear_value z; apply Same.letAny z; clear z; intro z)
    | apply Same.ite
    | apply Same2.ite
    | apply Same22.ite
    | apply codeAt_frame
    | apply busDrop_frame
    | apply busWait_frame
    | apply busTake_frame
    | apply wordAct_frame
    | (apply Same2.out; apply codeAt_frame)
    | (apply Same22.out; apply wordAct_frame)
    | split
    | dsimp -zeta only
    | apply Same2.mk'
    | apply Same22.mk'
    | apply Same2.mk')

theorem runRoutine_frame {m : Nat} {s0 : State} : ∀ s x1 x2, 683671154 &&& m = 683671154 → Same m s0 s → Same m s0 (runRoutine s x1 x2) := by
  have H : ∀ {s0 : State} s x1 x2, Same 683671154 s0 s → Same 683671154 s0 (runRoutine s x1 x2) := by
    intro s0 s x1 x2 h0
    induction x2 generalizing s x1 with
    | nil =>
      rw [runRoutine]
      repeat' (with_reducible first
      | assumption
      | exact Same.bits rfl
      | apply ih
      | (extract_lets +onlyGivenNames z; change State at z; apply Same.cutS h0 (x := z); unfold z; clear z; rotate_left; intro h; clear_value z; apply Same.letS h; clear h z; intro z h)
      | (extract_lets +onlyGivenNames z; change _ × _ × State at z; apply Same.cut22 h0 (x := z); unfold z; clear z; rotate_left; intro h; clear_value z; apply Same.let22 (x := z) h; clear h z; intro z h)
      | (extract_lets +onlyGivenNames z; change _ × State at z; apply Same.cut2 h0 (x := z); unfold z; clear z; rotate_left; intro h; clear_value z; apply Same.let2 (x := z) h; clear h z; intro z h)
      | (extract_lets +onlyGivenNames z; clear_value z; apply Same.letAny z; clear z; intro z)
      | apply Same.ite
      | apply Same2.ite
      | apply Same22.ite
      | apply runWord_frame
      | apply chsPut_frame
      | apply finish_frame
      | apply chsVio_frame
      | (apply Same.ofPair22; assumption)
      | (apply Same22.out; apply runWord_frame)
      | split
      | dsimp -zeta only
      | apply Same2.mk'
      | apply Same22.mk'
      | apply Same2.mk')
    | cons k l ih =>
      rw [runRoutine]
      repeat' (with_reducible first
      | assumption
      | exact Same.bits rfl
      | apply ih
      | (extract_lets +onlyGivenNames z; change State at z; apply Same.cutS h0 (x := z); unfold z; clear z; rotate_left; intro h; clear_value z; apply Same.letS h; clear h z; intro z h)
      | (extract_lets +onlyGivenNames z; change _ × _ × State at z; apply Same.cut22 h0 (x := z); unfold z; clear z; rotate_left; intro h; clear_value z; apply Same.let22 (x := z) h; clear h z; intro z h)
      | (extract_lets +onlyGivenNames z; change _ × State at z; apply Same.cut2 h0 (x := z); unfold z; clear z; rotate_left; intro h; clear_value z; apply Same.let2 (x := z) h; clear h z; intro z h)
      | (extract_lets +onlyGivenNames z; clear_value z; apply Same.letAny z; clear z; intro z)
      | apply Same.ite
      | apply Same2.ite
      | apply Same22.ite
      | apply runWord_frame
      | apply chsPut_frame
      | apply finish_frame
      | apply chsVio_frame
      | (apply Same.ofPair22; assumption)
      | (apply Same22.out; apply runWord_frame)
      | split
      | dsimp -zeta only
      | apply Same2.mk'
      | apply Same22.mk'
      | apply Same2.mk')
  intro s x1 x2 hM h
  exact Same.step hM (H s x1 x2 (Same.refl _ _)) h

theorem custBegin_frame {m : Nat} {s0 : State} : ∀ s x1 x2, 146275922 &&& m = 146275922 → Same m s0 s → Same m s0 (custBegin s x1 x2) := by
  intro s x1 x2 hM h
  refine Same.run hM h fun h0 => ?_
  unfold custBegin
  repeat' (with_reducible first
    | assumption
    | intro _
    | exact Same.bits rfl
    | (extract_lets +onlyGivenNames z; change State at z; apply Same.cutS h0 (x := z); unfold z; clear z; rotate_left; intro h; clear_value z; apply Same.letS h; clear h z; intro z h)
    | (extract_lets +onlyGivenNames z; change _ × _ × State at z; apply Same.cut22 h0 (x := z); unfold z; clear z; rotate_left; intro h; clear_value z; apply Same.let22 (x := z) h; clear h z; intro z h)
    | (extract_lets +onlyGivenNames z; change _ × State at z; apply Same.cut2 h0 (x := z); unfold z; clear z; rotate_left; intro h; clear_value z; apply Same.let2 (x := z) h; clear h z; intro z h)
    | (extract_lets +onlyGivenNames z; clear_value z; apply Same.letAny z; clear z; intro z)
    | apply Same.ite
    | apply startChain_frame
    | apply chsPut_frame
    | split
    | dsimp -zeta only)

theorem descCustomer_frame {m : Nat} {s0 : State} : ∀ s x1 x2, 683671154 &&& m = 683671154 → Same m s0 s → Same m s0 (descCustomer s x1 x2) := by
  intro s x1 x2 hM h
  refine Same.run hM h fun h0 => ?_
  unfold descCustomer
  repeat' (with_reducible first
    | assumption
    | intro _
    | exact Same.bits rfl
    | (extract_lets +onlyGivenNames z; change State at z; apply Same.cutS h0 (x := z); unfold z; clear z; rotate_left; intro h; clear_value z; apply Same.letS h; clear h z; intro z h)
    | (extract_lets +onlyGivenNames z; change _ × _ × State at z; apply Same.cut22 h0 (x := z); unfold z; clear z; rotate_left; intro h; clear_value z; apply Same.let22 (x := z) h; clear h z; intro z h)
    | (extract_lets +onlyGivenNames z; change _ × State at z; apply Same.cut2 h0 (x := z); unfold z; clear z; rotate_left; intro h; clear_value z; apply Same.let2 (x := z) h; clear h z; intro z h)
    | (extract_lets +onlyGivenNames z; clear_value z; apply Same.letAny z; clear z; intro z)
    | apply Same.ite
    | apply custBegin_frame
    | apply runRoutine_frame
    | split
    | dsimp -zeta only)

theorem execDescCustomer_frame {m : Nat} {s0 : State} : ∀ x0 x1 s, 683671154 &&& m = 683671154 → Same m s0 s → SameT m s0 (execDescCustomer x0 x1 s) := by
  intro x0 x1 s hM h
  refine SameT.run hM h fun h0 => ?_
  unfold execDescCustomer
  repeat' (with_reducible first
    | assumption
    | exact Same.bits rfl
    | apply SameT.next
    | apply descCustomer_frame)

theorem execSuspendTaken_frame {m : Nat} {s0 : State} : ∀ x0 x1 s, 426018 &&& m = 426018 → Same m s0 s → SameT m s0 (execSuspendTaken x0 x1 s) := by
  intro x0 x1 s hM h
  refine SameT.run hM h fun h0 => ?_
  unfold execSuspendTaken
  repeat' (with_reducible first
    | assumption
    | exact Same.bits rfl
    | apply SameT.next
    | apply suspendTaken_frame)

theorem resumeTaken_frame {m : Nat} {s0 : State} : ∀ s x1 x2, 163842 &&& m = 163842 → Same m s0 s → Same m s0 (resumeTaken s x1 x2) := by
  intro s x1 x2 hM h
  refine Same.run hM h fun h0 => ?_
  unfold resumeTaken
  repeat' (with_reducible first
    | assumption
    | intro _
    | exact Same.bits rfl
    | (extract_lets +onlyGivenNames z; change State at z; apply Same.cutS h0 (x := z); unfold z; clear z; rotate_left; intro h; clear_value z; apply Same.letS h; clear h z; intro z h)
    | (extract_lets +onlyGivenNames z; change _ × _ × State at z; apply Same.cut22 h0 (x := z); unfold z; clear z; rotate_left; intro h; clear_value z; apply Same.let22 (x := z) h; clear h z; intro z h)
    | (extract_lets +onlyGivenNames z; change _ × State at z; apply Same.cut2 h0 (x := z); unfold z; clear z; rotate_left; intro h; clear_value z; apply Same.let2 (x := z) h; clear h z; intro z h)
    | (extract_lets +onlyGivenNames z; clear_value z; apply Same.letAny z; clear z; intro z)
    | apply Same.ite
    | apply issued_frame
    | apply complete_frame
    | apply chsPut_frame
    | (refine Same.updDsc ?_ rfl; assumption)
    | split
    | dsimp -zeta only)

theorem execResumeTaken_frame {m : Nat} {s0 : State} : ∀ x0 x1 s, 163842 &&& m = 163842 → Same m s0 s → SameT m s0 (execResumeTaken x0 x1 s) := by
  intro x0 x1 s hM h
  refine SameT.run hM h fun h0 => ?_
  unfold execResumeTaken
  repeat' (with_reducible first
    | assumption
    | exact Same.bits rfl
    | apply SameT.next
    | apply resumeTaken_frame)

theorem execBusGrant_frame {m : Nat} {s0 : State} : ∀ x0 s, 950274 &&& m = 950274 → Same m s0 s → SameT m s0 (execBusGrant x0 s) := by
  intro x0 s hM h
  refine SameT.run hM h fun h0 => ?_
  unfold execBusGrant
  repeat' (with_reducible first
    | assumption
    | exact Same.bits rfl
    | apply SameT.next
    | apply busGrant_frame)

theorem execControlStoreParity_frame {m : Nat} {s0 : State} : ∀ x0 x1 x2 s, 146275922 &&& m = 146275922 → Same m s0 s → SameT m s0 (execControlStoreParity x0 x1 x2 s) := by
  intro x0 x1 x2 s hM h
  refine SameT.run hM h fun h0 => ?_
  unfold execControlStoreParity
  repeat' (with_reducible first
    | assumption
    | exact Same.bits rfl
    | apply SameT.next
    | apply machineCheck_frame)

theorem execAllocRetry_frame {m : Nat} {s0 : State} : ∀ x0 s, 2360322 &&& m = 2360322 → Same m s0 s → SameT m s0 (execAllocRetry x0 s) := by
  intro x0 s hM h
  refine SameT.run hM h fun h0 => ?_
  unfold execAllocRetry
  repeat' (with_reducible first
    | assumption
    | exact Same.bits rfl
    | apply SameT.next
    | (extract_lets +onlyGivenNames z; change State at z; apply Same.cutS h0 (x := z); unfold z; clear z; rotate_left; intro h; clear_value z; apply Same.letS h; clear h z; intro z h)
    | (extract_lets +onlyGivenNames z; clear_value z; apply Same.letAny z; clear z; intro z)
    | apply bufRequest_frame
    | (refine Same.updBpm ?_ rfl; assumption)
    | split)

theorem execBpmMinClear_frame {m : Nat} {s0 : State} : ∀ x0 s, 2098194 &&& m = 2098194 → Same m s0 s → SameT m s0 (execBpmMinClear x0 s) := by
  intro x0 s hM h
  refine SameT.run hM h fun h0 => ?_
  unfold execBpmMinClear
  repeat' (with_reducible first
    | assumption
    | intro _
    | exact Same.bits rfl
    | apply SameT.next
    | apply gated_frame
    | apply minClear_frame)

theorem execSpeedChangeRequest_frame {m : Nat} {s0 : State} : ∀ x0 x1 s, 2622482 &&& m = 2622482 → Same m s0 s → SameT m s0 (execSpeedChangeRequest x0 x1 s) := by
  intro x0 x1 s hM h
  refine SameT.run hM h fun h0 => ?_
  unfold execSpeedChangeRequest
  repeat' (with_reducible first
    | assumption
    | intro _
    | exact Same.bits rfl
    | apply SameT.next
    | apply gated_frame
    | apply wrSpeedReq_frame)

theorem execSpeedChangeDone_frame {m : Nat} {s0 : State} : ∀ s, 524290 &&& m = 524290 → Same m s0 s → SameT m s0 (execSpeedChangeDone s) := by
  intro s hM h
  refine SameT.run hM h fun h0 => ?_
  unfold execSpeedChangeDone
  repeat' (with_reducible first
    | assumption
    | exact Same.bits rfl
    | apply SameT.next
    | apply speedDone_frame)

theorem execGatherOpen_frame {m : Nat} {s0 : State} : ∀ x0 x1 s, 2622482 &&& m = 2622482 → Same m s0 s → SameT m s0 (execGatherOpen x0 x1 s) := by
  intro x0 x1 s hM h
  refine SameT.run hM h fun h0 => ?_
  unfold execGatherOpen
  repeat' (with_reducible first
    | assumption
    | intro _
    | exact Same.bits rfl
    | apply SameT.next
    | apply gated_frame
    | apply wrGatherCtrl_frame)

theorem execGatherStep_frame {m : Nat} {s0 : State} : ∀ x0 s, 524290 &&& m = 524290 → Same m s0 s → SameT m s0 (execGatherStep x0 s) := by
  intro x0 s hM h
  refine SameT.run hM h fun h0 => ?_
  unfold execGatherStep
  repeat' (with_reducible first
    | assumption
    | exact Same.bits rfl
    | apply SameT.next
    | apply gatherStep_frame)

theorem execMr4Poll_frame {m : Nat} {s0 : State} : ∀ x0 x1 s, 1572866 &&& m = 1572866 → Same m s0 s → SameT m s0 (execMr4Poll x0 x1 s) := by
  intro x0 x1 s hM h
  refine SameT.run hM h fun h0 => ?_
  unfold execMr4Poll
  repeat' (with_reducible first
    | assumption
    | exact Same.bits rfl
    | apply SameT.next
    | apply mr4_frame)

theorem execDmcSelfRefresh_frame {m : Nat} {s0 : State} : ∀ x0 x1 s, 2098194 &&& m = 2098194 → Same m s0 s → SameT m s0 (execDmcSelfRefresh x0 x1 s) := by
  intro x0 x1 s hM h
  refine SameT.run hM h fun h0 => ?_
  unfold execDmcSelfRefresh
  repeat' (with_reducible first
    | assumption
    | intro _
    | exact Same.bits rfl
    | apply SameT.next
    | apply gated_frame
    | apply wrDmcCtrl_frame)

theorem holBlock_frame {m : Nat} {s0 : State} : ∀ s x1, 1048610 &&& m = 1048610 → Same m s0 s → Same m s0 (holBlock s x1) := by
  intro s x1 hM h
  refine Same.run hM h fun h0 => ?_
  unfold holBlock
  repeat' (with_reducible first
    | assumption
    | exact Same.bits rfl
    | (extract_lets +onlyGivenNames z; change State at z; apply Same.cutS h0 (x := z); unfold z; clear z; rotate_left; intro h; clear_value z; apply Same.letS h; clear h z; intro z h)
    | (extract_lets +onlyGivenNames z; clear_value z; apply Same.letAny z; clear z; intro z)
    | apply Same.ite
    | apply reach_frame
    | apply fon_frame
    | (refine Same.updUmp ?_ rfl; assumption)
    | split)

theorem execHolBlock_frame {m : Nat} {s0 : State} : ∀ x0 s, 1048610 &&& m = 1048610 → Same m s0 s → SameT m s0 (execHolBlock x0 s) := by
  intro x0 s hM h
  refine SameT.run hM h fun h0 => ?_
  unfold execHolBlock
  repeat' (with_reducible first
    | assumption
    | exact Same.bits rfl
    | apply SameT.next
    | apply holBlock_frame)

theorem execBrownOutEnter_frame {m : Nat} {s0 : State} : ∀ x0 s, 2097154 &&& m = 2097154 → Same m s0 s → SameT m s0 (execBrownOutEnter x0 s) := by
  intro x0 s hM h
  refine SameT.run hM h fun h0 => ?_
  unfold execBrownOutEnter
  repeat' (with_reducible first
    | assumption
    | exact Same.bits rfl
    | apply SameT.next
    | apply Same.ite
    | apply backSet_frame
    | apply classEnter_frame
    | apply vinRead_frame)

theorem execSurgeEnter_frame {m : Nat} {s0 : State} : ∀ x0 s, 2097154 &&& m = 2097154 → Same m s0 s → SameT m s0 (execSurgeEnter x0 s) := by
  intro x0 s hM h
  refine SameT.run hM h fun h0 => ?_
  unfold execSurgeEnter
  repeat' (with_reducible first
    | assumption
    | exact Same.bits rfl
    | apply SameT.next
    | apply Same.ite
    | apply backSet_frame
    | apply classEnter_frame
    | apply vinRead_frame)

theorem execSurgeFilterExpiry_frame {m : Nat} {s0 : State} : ∀ s, 36867618 &&& m = 36867618 → Same m s0 s → SameT m s0 (execSurgeFilterExpiry s) := by
  intro s hM h
  refine SameT.run hM h fun h0 => ?_
  unfold execSurgeFilterExpiry
  repeat' (with_reducible first
    | assumption
    | exact Same.bits rfl
    | apply SameT.next
    | (extract_lets +onlyGivenNames z; change State at z; apply Same.cutS h0 (x := z); unfold z; clear z; rotate_left; intro h; clear_value z; apply Same.letS h; clear h z; intro z h)
    | apply Same.ite
    | apply reach_frame
    | apply powerFail_frame
    | split)

theorem execDisturbanceClassEnd_frame {m : Nat} {s0 : State} : ∀ x0 x1 s, 2098178 &&& m = 2098178 → Same m s0 s → SameT m s0 (execDisturbanceClassEnd x0 x1 s) := by
  intro x0 x1 s hM h
  refine SameT.run hM h fun h0 => ?_
  unfold execDisturbanceClassEnd
  repeat' (with_reducible first
    | assumption
    | exact Same.bits rfl
    | apply SameT.next
    | apply classEnd_frame)

theorem execBankBelowRecharge_frame {m : Nat} {s0 : State} : ∀ x0 s, 2097154 &&& m = 2097154 → Same m s0 s → SameT m s0 (execBankBelowRecharge x0 s) := by
  intro x0 s hM h
  refine SameT.run hM h fun h0 => ?_
  unfold execBankBelowRecharge
  repeat' (with_reducible first
    | assumption
    | exact Same.bits rfl
    | apply SameT.next
    | apply bankRead_frame)

theorem execDischargeTestBegin_frame {m : Nat} {s0 : State} : ∀ s, 2097186 &&& m = 2097186 → Same m s0 s → SameT m s0 (execDischargeTestBegin s) := by
  intro s hM h
  refine SameT.run hM h fun h0 => ?_
  unfold execDischargeTestBegin
  repeat' (with_reducible first
    | assumption
    | exact Same.bits rfl
    | apply SameT.next
    | apply testBegin_frame)

theorem execCellLossRetest_frame {m : Nat} {s0 : State} : ∀ s, 2129954 &&& m = 2129954 → Same m s0 s → SameT m s0 (execCellLossRetest s) := by
  intro s hM h
  refine SameT.run hM h fun h0 => ?_
  unfold execCellLossRetest
  repeat' (with_reducible first
    | assumption
    | exact Same.bits rfl
    | apply SameT.next
    | (extract_lets +onlyGivenNames z; change State at z; apply Same.cutS h0 (x := z); unfold z; clear z; rotate_left; intro h; clear_value z; apply Same.letS h; clear h z; intro z h)
    | (extract_lets +onlyGivenNames z; clear_value z; apply Same.letAny z; clear z; intro z)
    | apply testSchedule_frame
    | apply reach_frame
    | (refine Same.updSgd ?_ rfl; assumption)
    | split)

theorem execBootWaitExpiry_frame {m : Nat} {s0 : State} : ∀ s, 2098210 &&& m = 2098210 → Same m s0 s → SameT m s0 (execBootWaitExpiry s) := by
  intro s hM h
  refine SameT.run hM h fun h0 => ?_
  unfold execBootWaitExpiry
  repeat' (with_reducible first
    | assumption
    | exact Same.bits rfl
    | apply SameT.next
    | (extract_lets +onlyGivenNames z; change State at z; apply Same.cutS h0 (x := z); unfold z; clear z; rotate_left; intro h; clear_value z; apply Same.letS h; clear h z; intro z h)
    | (extract_lets +onlyGivenNames z; change _ × _ × State at z; apply Same.cut22 h0 (x := z); unfold z; clear z; rotate_left; intro h; clear_value z; apply Same.let22 (x := z) h; clear h z; intro z h)
    | (extract_lets +onlyGivenNames z; change _ × State at z; apply Same.cut2 h0 (x := z); unfold z; clear z; rotate_left; intro h; clear_value z; apply Same.let2 (x := z) h; clear h z; intro z h)
    | (extract_lets +onlyGivenNames z; clear_value z; apply Same.letAny z; clear z; intro z)
    | apply SameT.ite
    | apply Same.ite
    | apply dropsShow_frame
    | apply reach_frame
    | apply post_frame
    | (refine Same.updSgd ?_ rfl; assumption)
    | split
    | dsimp -zeta only)

theorem execComputePgoodRise_frame {m : Nat} {s0 : State} : ∀ s, 2097152 &&& m = 2097152 → Same m s0 s → SameT m s0 (execComputePgoodRise s) := by
  intro s hM h
  refine SameT.run hM h fun h0 => ?_
  unfold execComputePgoodRise
  repeat' (with_reducible first
    | assumption
    | apply SameT.next
    | (extract_lets +onlyGivenNames z; clear_value z; apply Same.letAny z; clear z; intro z)
    | apply Same.ite
    | (refine Same.updSgd ?_ rfl; assumption))

theorem execComputePgoodFall_frame {m : Nat} {s0 : State} : ∀ s, 103976450 &&& m = 103976450 → Same m s0 s → SameT m s0 (execComputePgoodFall s) := by
  intro s hM h
  refine SameT.run hM h fun h0 => ?_
  unfold execComputePgoodFall
  repeat' (with_reducible first
    | assumption
    | exact Same.bits rfl
    | apply SameT.next
    | (extract_lets +onlyGivenNames z; change State at z; apply Same.cutS h0 (x := z); unfold z; clear z; rotate_left; intro h; clear_value z; apply Same.letS h; clear h z; intro z h)
    | (extract_lets +onlyGivenNames z; clear_value z; apply Same.letAny z; clear z; intro z)
    | apply Same.ite
    | apply dropout_frame
    | apply finc_frame
    | apply fon_frame
    | (refine Same.updSgd ?_ rfl; assumption))

theorem execPveGcmEncrypt_frame {m : Nat} {s0 : State} : ∀ x0 x1 x2 x3 x4 x5 x6 s, 150470226 &&& m = 150470226 → Same m s0 s → SameT m s0 (execPveGcmEncrypt x0 x1 x2 x3 x4 x5 x6 s) := by
  intro x0 x1 x2 x3 x4 x5 x6 s hM h
  refine SameT.run hM h fun h0 => ?_
  unfold execPveGcmEncrypt
  repeat' (with_reducible first
    | assumption
    | intro _
    | exact Same.bits rfl
    | apply SameT.next
    | apply pveRun_frame
    | apply pveAnswer_frame
    | apply finc_frame)

theorem execPveKeyWrap_frame {m : Nat} {s0 : State} : ∀ x0 x1 x2 x3 s, 150470226 &&& m = 150470226 → Same m s0 s → SameT m s0 (execPveKeyWrap x0 x1 x2 x3 s) := by
  intro x0 x1 x2 x3 s hM h
  refine SameT.run hM h fun h0 => ?_
  unfold execPveKeyWrap
  repeat' (with_reducible first
    | assumption
    | intro _
    | exact Same.bits rfl
    | apply SameT.next
    | apply pveRun_frame
    | apply pveAnswer_frame
    | apply finc_frame)

theorem execPveKeyUnwrap_frame {m : Nat} {s0 : State} : ∀ x0 x1 x2 x3 x4 s, 150470226 &&& m = 150470226 → Same m s0 s → SameT m s0 (execPveKeyUnwrap x0 x1 x2 x3 x4 s) := by
  intro x0 x1 x2 x3 x4 s hM h
  refine SameT.run hM h fun h0 => ?_
  unfold execPveKeyUnwrap
  repeat' (with_reducible first
    | assumption
    | intro _
    | exact Same.bits rfl
    | apply SameT.next
    | (extract_lets +onlyGivenNames z; change State at z; apply Same.cutS h0 (x := z); unfold z; clear z; rotate_left; intro h; clear_value z; apply Same.letS h; clear h z; intro z h)
    | apply pveRun_frame
    | apply finc_frame
    | apply pveAnswer_frame
    | apply fon_frame
    | split)

theorem execDgeHmacSha384_frame {m : Nat} {s0 : State} : ∀ x0 s, 687341138 &&& m = 687341138 → Same m s0 s → SameT m s0 (execDgeHmacSha384 x0 s) := by
  intro x0 s hM h
  refine SameT.run hM h fun h0 => ?_
  unfold execDgeHmacSha384
  repeat' (with_reducible first
    | assumption
    | exact Same.bits rfl
    | apply SameT.next
    | apply dgeDone_frame
    | dsimp -zeta only)

theorem execPkeSign_frame {m : Nat} {s0 : State} : ∀ x0 x1 s, 150994514 &&& m = 150994514 → Same m s0 s → SameT m s0 (execPkeSign x0 x1 s) := by
  intro x0 x1 s hM h
  refine SameT.run hM h fun h0 => ?_
  unfold execPkeSign
  repeat' (with_reducible first
    | assumption
    | intro _
    | exact Same.bits rfl
    | apply SameT.next
    | (extract_lets +onlyGivenNames z; change State at z; apply Same.cutS h0 (x := z); unfold z; clear z; rotate_left; intro h; clear_value z; apply Same.letS h; clear h z; intro z h)
    | (extract_lets +onlyGivenNames z; change _ × _ × State at z; apply Same.cut22 h0 (x := z); unfold z; clear z; rotate_left; intro h; clear_value z; apply Same.let22 (x := z) h; clear h z; intro z h)
    | (extract_lets +onlyGivenNames z; change _ × State at z; apply Same.cut2 h0 (x := z); unfold z; clear z; rotate_left; intro h; clear_value z; apply Same.let2 (x := z) h; clear h z; intro z h)
    | (extract_lets +onlyGivenNames z; clear_value z; apply Same.letAny z; clear z; intro z)
    | apply SameT.ite
    | apply Same.ite
    | apply Same2.ite
    | apply pkeRun_frame
    | apply pkeVio_frame
    | apply pkeEnd_frame
    | apply draw_frame
    | apply finc_frame
    | apply pkeFault_frame
    | (apply Same2.out; apply draw_frame)
    | split
    | dsimp -zeta only
    | apply Same2.mk')

theorem execPkeVerify_frame {m : Nat} {s0 : State} : ∀ x0 s, 8912914 &&& m = 8912914 → Same m s0 s → SameT m s0 (execPkeVerify x0 s) := by
  intro x0 s hM h
  refine SameT.run hM h fun h0 => ?_
  unfold execPkeVerify
  repeat' (with_reducible first
    | assumption
    | intro _
    | exact Same.bits rfl
    | apply SameT.next
    | (extract_lets +onlyGivenNames z; change State at z; apply Same.cutS h0 (x := z); unfold z; clear z; rotate_left; intro h; clear_value z; apply Same.letS h; clear h z; intro z h)
    | (extract_lets +onlyGivenNames z; change _ × _ × State at z; apply Same.cut22 h0 (x := z); unfold z; clear z; rotate_left; intro h; clear_value z; apply Same.let22 (x := z) h; clear h z; intro z h)
    | (extract_lets +onlyGivenNames z; change _ × State at z; apply Same.cut2 h0 (x := z); unfold z; clear z; rotate_left; intro h; clear_value z; apply Same.let2 (x := z) h; clear h z; intro z h)
    | (extract_lets +onlyGivenNames z; clear_value z; apply Same.letAny z; clear z; intro z)
    | apply SameT.ite
    | apply Same.ite
    | apply pkeRun_frame
    | apply finc_frame
    | apply pkeEnd_frame
    | apply fon_frame
    | split
    | dsimp -zeta only)

theorem execPkePubkey_frame {m : Nat} {s0 : State} : ∀ x0 s, 146800210 &&& m = 146800210 → Same m s0 s → SameT m s0 (execPkePubkey x0 s) := by
  intro x0 s hM h
  refine SameT.run hM h fun h0 => ?_
  unfold execPkePubkey
  repeat' (with_reducible first
    | assumption
    | intro _
    | exact Same.bits rfl
    | apply SameT.next
    | (extract_lets +onlyGivenNames z; clear_value z; apply Same.letAny z; clear z; intro z)
    | apply Same.ite
    | apply pkeRun_frame
    | apply pkeVio_frame
    | apply pkeEnd_frame
    | apply finc_frame)

theorem execSignetAppend_frame {m : Nat} {s0 : State} : ∀ x0 x1 x2 x3 x4 x5 x6 s, 23069714 &&& m = 23069714 → Same m s0 s → SameT m s0 (execSignetAppend x0 x1 x2 x3 x4 x5 x6 s) := by
  intro x0 x1 x2 x3 x4 x5 x6 s hM h
  refine SameT.run hM h fun h0 => ?_
  unfold execSignetAppend
  repeat' (with_reducible first
    | assumption
    | intro _
    | exact Same.bits rfl
    | apply SameT.next
    | apply gated_frame
    | apply sgnAppend_frame)

theorem execSignetCompaction_frame {m : Nat} {s0 : State} : ∀ s, 23069698 &&& m = 23069698 → Same m s0 s → SameT m s0 (execSignetCompaction s) := by
  intro s hM h
  refine SameT.run hM h fun h0 => ?_
  unfold execSignetCompaction
  repeat' (with_reducible first
    | assumption
    | exact Same.bits rfl
    | apply SameT.next
    | apply compact_frame)

theorem execClsRead_frame {m : Nat} {s0 : State} : ∀ s, 180354642 &&& m = 180354642 → Same m s0 s → SameT m s0 (execClsRead s) := by
  intro s hM h
  refine SameT.run hM h fun h0 => ?_
  unfold execClsRead
  repeat' (with_reducible first
    | assumption
    | exact Same.bits rfl
    | apply SameT.next
    | apply clsStart_frame
    | dsimp -zeta only)

theorem execClsLock_frame {m : Nat} {s0 : State} : ∀ s, 180354642 &&& m = 180354642 → Same m s0 s → SameT m s0 (execClsLock s) := by
  intro s hM h
  refine SameT.run hM h fun h0 => ?_
  unfold execClsLock
  repeat' (with_reducible first
    | assumption
    | exact Same.bits rfl
    | apply SameT.next
    | apply clsStart_frame
    | dsimp -zeta only)

theorem execClsSlotRelease_frame {m : Nat} {s0 : State} : ∀ x0 x1 s, 35652626 &&& m = 35652626 → Same m s0 s → SameT m s0 (execClsSlotRelease x0 x1 s) := by
  intro x0 x1 s hM h
  refine SameT.run hM h fun h0 => ?_
  unfold execClsSlotRelease
  repeat' (with_reducible first
    | assumption
    | intro _
    | exact Same.bits rfl
    | apply SameT.next
    | apply gated_frame
    | apply clsRelease_frame)

theorem execClsEraseSuspend_frame {m : Nat} {s0 : State} : ∀ s, 33554466 &&& m = 33554466 → Same m s0 s → SameT m s0 (execClsEraseSuspend s) := by
  intro s hM h
  refine SameT.run hM h fun h0 => ?_
  unfold execClsEraseSuspend
  repeat' (with_reducible first
    | assumption
    | exact Same.bits rfl
    | apply SameT.next
    | apply eraseSuspend_frame)

theorem execAonBlock_frame {m : Nat} {s0 : State} : ∀ s, 35652610 &&& m = 35652610 → Same m s0 s → SameT m s0 (execAonBlock s) := by
  intro s hM h
  refine SameT.run hM h fun h0 => ?_
  unfold execAonBlock
  repeat' (with_reducible first
    | assumption
    | exact Same.bits rfl
    | apply SameT.next
    | apply Same.ite
    | apply clsShow_frame
    | apply clsAbandon_frame
    | apply fon_frame)

theorem execAonUnblock_frame {m : Nat} {s0 : State} : ∀ s, 2 &&& m = 2 → Same m s0 s → SameT m s0 (execAonUnblock s) := by
  intro s hM h
  refine SameT.run hM h fun h0 => ?_
  unfold execAonUnblock
  repeat' (with_reducible first
    | assumption
    | exact Same.bits rfl
    | apply SameT.next
    | apply foff_frame)

theorem execWarmReset_frame {m : Nat} {s0 : State} : ∀ x0 s, 103976466 &&& m = 103976466 → Same m s0 s → SameT m s0 (execWarmReset x0 s) := by
  intro x0 s hM h
  refine SameT.run hM h fun h0 => ?_
  unfold execWarmReset
  repeat' (with_reducible first
    | assumption
    | intro _
    | exact Same.bits rfl
    | apply SameT.next
    | apply gated_frame
    | apply wrBotCtrl_frame)

theorem execBotFallback_frame {m : Nat} {s0 : State} : ∀ x0 s, 103976466 &&& m = 103976466 → Same m s0 s → SameT m s0 (execBotFallback x0 s) := by
  intro x0 s hM h
  refine SameT.run hM h fun h0 => ?_
  unfold execBotFallback
  repeat' (with_reducible first
    | assumption
    | intro _
    | exact Same.bits rfl
    | apply SameT.next
    | apply gated_frame
    | apply wrBotCtrl_frame)

theorem execFuseAdvance_frame {m : Nat} {s0 : State} : ∀ x0 x1 s, 69207058 &&& m = 69207058 → Same m s0 s → SameT m s0 (execFuseAdvance x0 x1 s) := by
  intro x0 x1 s hM h
  refine SameT.run hM h fun h0 => ?_
  unfold execFuseAdvance
  repeat' (with_reducible first
    | assumption
    | intro _
    | exact Same.bits rfl
    | apply SameT.next
    | apply gated_frame
    | apply wrFuseAdv_frame)

theorem execUcodeControlStoreLoad_frame {m : Nat} {s0 : State} : ∀ x0 x1 s, 2229266 &&& m = 2229266 → Same m s0 s → SameT m s0 (execUcodeControlStoreLoad x0 x1 s) := by
  intro x0 x1 s hM h
  refine SameT.run hM h fun h0 => ?_
  unfold execUcodeControlStoreLoad
  repeat' (with_reducible first
    | assumption
    | intro _
    | exact Same.bits rfl
    | apply SameT.next
    | apply gated_frame
    | apply wrUcodeCtrl_frame)

theorem execSlotWriteDone_frame {m : Nat} {s0 : State} : ∀ s, 125038082 &&& m = 125038082 → Same m s0 s → SameT m s0 (execSlotWriteDone s) := by
  intro s hM h
  refine SameT.run hM h fun h0 => ?_
  unfold execSlotWriteDone
  repeat' (with_reducible first
    | assumption
    | exact Same.bits rfl
    | apply SameT.next
    | apply slotWriteDone_frame)

theorem rallyMeasure_frame {m : Nat} {s0 : State} : ∀ s x1, 136315938 &&& m = 136315938 → Same m s0 s → Same m s0 (rallyMeasure s x1) := by
  intro s x1 hM h
  refine Same.run hM h fun h0 => ?_
  unfold rallyMeasure
  repeat' (with_reducible first
    | assumption
    | intro _
    | exact Same.bits rfl
    | (extract_lets +onlyGivenNames z; change State at z; apply Same.cutS h0 (x := z); unfold z; clear z; rotate_left; intro h; clear_value z; apply Same.letS h; clear h z; intro z h)
    | (extract_lets +onlyGivenNames z; clear_value z; apply Same.letAny z; clear z; intro z)
    | apply Same.ite
    | apply reach_frame
    | apply loopFault_frame
    | apply rallyShow_frame
    | apply rallyBase_frame
    | (refine Same.updAge ?_ rfl; assumption)
    | apply Same.foldl)

theorem execRallyMeasure_frame {m : Nat} {s0 : State} : ∀ x0 s, 136315938 &&& m = 136315938 → Same m s0 s → SameT m s0 (execRallyMeasure x0 s) := by
  intro x0 s hM h
  refine SameT.run hM h fun h0 => ?_
  unfold execRallyMeasure
  repeat' (with_reducible first
    | assumption
    | exact Same.bits rfl
    | apply SameT.next
    | apply rallyMeasure_frame)

theorem execFreezeTimeout_frame {m : Nat} {s0 : State} : ∀ s, 2098210 &&& m = 2098210 → Same m s0 s → SameT m s0 (execFreezeTimeout s) := by
  intro s hM h
  refine SameT.run hM h fun h0 => ?_
  unfold execFreezeTimeout
  repeat' (with_reducible first
    | assumption
    | exact Same.bits rfl
    | apply SameT.next
    | apply fon_frame
    | apply freezeEnd_frame
    | apply reach_frame
    | split)

theorem perstDeassert_frame {m : Nat} {s0 : State} : ∀ s x1, 2048 &&& m = 2048 → Same m s0 s → Same m s0 (perstDeassert s x1) := by
  intro s x1 hM h
  refine Same.run hM h fun h0 => ?_
  unfold perstDeassert
  repeat' (with_reducible first
    | assumption
    | exact Same.bits rfl
    | (extract_lets +onlyGivenNames z; clear_value z; apply Same.letAny z; clear z; intro z)
    | apply Same.ite
    | apply portUpd_frame)

theorem execPerstDeassert_frame {m : Nat} {s0 : State} : ∀ x0 s, 2048 &&& m = 2048 → Same m s0 s → SameT m s0 (execPerstDeassert x0 s) := by
  intro x0 s hM h
  refine SameT.run hM h fun h0 => ?_
  unfold execPerstDeassert
  repeat' (with_reducible first
    | assumption
    | exact Same.bits rfl
    | apply SameT.next
    | apply perstDeassert_frame)

theorem execEcrcCheckFail_frame {m : Nat} {s0 : State} : ∀ x0 s, 2 &&& m = 2 → Same m s0 s → SameT m s0 (execEcrcCheckFail x0 s) := by
  intro x0 s hM h
  refine SameT.run hM h fun h0 => ?_
  unfold execEcrcCheckFail
  repeat' (with_reducible first
    | assumption
    | exact Same.bits rfl
    | apply SameT.next
    | apply SameT.ite
    | apply Same.ite
    | apply fon_frame
    | split
    | dsimp -zeta only)

theorem l0pWidth_frame {m : Nat} {s0 : State} : ∀ s x1 x2, 2 &&& m = 2 → Same m s0 s → Same m s0 (l0pWidth s x1 x2) := by
  intro s x1 x2 hM h
  refine Same.run hM h fun h0 => ?_
  unfold l0pWidth
  repeat' (with_reducible first
    | assumption
    | exact Same.bits rfl
    | (extract_lets +onlyGivenNames z; clear_value z; apply Same.letAny z; clear z; intro z)
    | apply Same.ite
    | apply fset_frame)

theorem execL0pWidthChange_frame {m : Nat} {s0 : State} : ∀ x0 x1 s, 2 &&& m = 2 → Same m s0 s → SameT m s0 (execL0pWidthChange x0 x1 s) := by
  intro x0 x1 s hM h
  refine SameT.run hM h fun h0 => ?_
  unfold execL0pWidthChange
  repeat' (with_reducible first
    | assumption
    | exact Same.bits rfl
    | apply SameT.next
    | apply l0pWidth_frame)

theorem execAspmL1Exit_frame {m : Nat} {s0 : State} : ∀ x0 s, 2 &&& m = 2 → Same m s0 s → SameT m s0 (execAspmL1Exit x0 s) := by
  intro x0 s hM h
  refine SameT.run hM h fun h0 => ?_
  unfold execAspmL1Exit
  repeat' (with_reducible first
    | assumption
    | exact Same.bits rfl
    | apply SameT.next
    | apply Same.ite
    | apply fset_frame)

end Sys2Proof.Machine
end

