-- ==== Sys2Proof/Laws/State.lean ====
section
/-! SUPPORT. What a read gives after a write: sparse tables, register fields, and the fields of State each named operation leaves. -/
namespace Sys2Proof.Machine
set_option linter.all false
open Sys2Proof

/-! ### Sparse tables -/

/-- Looking a key up after it has been listed. -/
@[simp] theorem SMap.find_put_self {α : Type} (m : SMap α) (k : Nat) (v : α) : SMap.find (SMap.put m k v) k = some v := by
  induction m with
  | nil => simp [SMap.put, SMap.find]
  | cons e m ih =>
    obtain ⟨k', v'⟩ := e
    unfold SMap.put
    split
    · simp [SMap.find]
    · split
      · simp [SMap.find]
      · rename_i h1 h2
        simp only [SMap.find]
        rw [if_neg (fun e => h2 e.symm)]
        exact ih

/-- Looking another key up after a key has been listed. -/
theorem SMap.find_put_ne {α : Type} (m : SMap α) {k j : Nat} (v : α) (h : j ≠ k) : SMap.find (SMap.put m k v) j = SMap.find m j := by
  induction m with
  | nil => simp [SMap.put, SMap.find, Ne.symm h]
  | cons e m ih =>
    obtain ⟨k', v'⟩ := e
    unfold SMap.put
    split
    · simp [SMap.find, Ne.symm h]
    · split
      · rename_i h2
        subst h2
        simp [SMap.find, Ne.symm h]
      · simp only [SMap.find]
        split
        · rfl
        · exact ih

/-- A key that has been taken off the list. -/
@[simp] theorem SMap.find_del_self {α : Type} (m : SMap α) (k : Nat) : SMap.find (SMap.del m k) k = none := by
  induction m with
  | nil => rfl
  | cons e m ih =>
    obtain ⟨k', v'⟩ := e
    unfold SMap.del
    split
    · exact ih
    · rename_i h
      simp only [SMap.find]
      rw [if_neg h]
      exact ih

/-- Another key after a key has been taken off the list. -/
theorem SMap.find_del_ne {α : Type} (m : SMap α) {k j : Nat} (h : j ≠ k) : SMap.find (SMap.del m k) j = SMap.find m j := by
  induction m with
  | nil => rfl
  | cons e m ih =>
    obtain ⟨k', v'⟩ := e
    unfold SMap.del
    split
    · rename_i h2
      subst h2
      simp only [SMap.find]
      rw [if_neg (Ne.symm h)]
      exact ih
    · simp only [SMap.find]
      split
      · rfl
      · exact ih

@[simp] theorem SMap.getD_put_self {α : Type} (m : SMap α) (k : Nat) (v d : α) : SMap.getD (SMap.put m k v) k d = v := by
  simp [SMap.getD]

theorem SMap.getD_put_ne {α : Type} (m : SMap α) {k j : Nat} (v d : α) (h : j ≠ k) :
    SMap.getD (SMap.put m k v) j d = SMap.getD m j d := by
  simp [SMap.getD, SMap.find_put_ne m v h]

@[simp] theorem SMap.getD_putD_self {α : Type} [DecidableEq α] (m : SMap α) (k : Nat) (d v : α) :
    SMap.getD (SMap.putD m k d v) k d = v := by
  unfold SMap.putD
  split <;> simp_all [SMap.getD]

theorem SMap.getD_putD_ne {α : Type} [DecidableEq α] (m : SMap α) {k j : Nat} (d v d' : α) (h : j ≠ k) :
    SMap.getD (SMap.putD m k d v) j d' = SMap.getD m j d' := by
  unfold SMap.putD
  split <;> simp [SMap.getD, SMap.find_del_ne m h, SMap.find_put_ne m v h]

/-- A change of every value shows at each key. -/
theorem SMap.find_mapv {α : Type} (m : SMap α) (f : Nat → α → α) (k : Nat) :
    SMap.find (SMap.mapv m f) k = (SMap.find m k).map (f k) := by
  induction m with
  | nil => rfl
  | cons e m ih =>
    obtain ⟨k', v'⟩ := e
    simp only [SMap.mapv, List.map_cons, SMap.find]
    split
    · rename_i h
      subst h
      rfl
    · exact ih

/-! ### Registers -/

@[simp] theorem RegFile.get_set_self (r : RegFile) (a : Nat) (v : Word) : RegFile.get (RegFile.set r a v) a = v := by
  simp [RegFile.get, RegFile.set]

theorem RegFile.get_set_ne (r : RegFile) {a b : Nat} (v : Word) (h : b ≠ a) : RegFile.get (RegFile.set r a v) b = RegFile.get r b := by
  simp [RegFile.get, RegFile.set, SMap.getD_putD_ne r _ _ _ h]

theorem testBit_bits (v lo w i : Nat) : (bits v lo w).testBit i = (decide (i < w) && v.testBit (lo + i)) := by
  simp [bits, Nat.testBit_mod_two_pow]

theorem testBit_setBits (r : Word) {lo w : Nat} (v : Nat) (h : lo + w ≤ 32) (i : Nat) :
    (setBits r lo w v).toNat.testBit i = if lo ≤ i ∧ i < lo + w then v.testBit (i - lo) else r.toNat.testBit i := by
  have h1 : r.toNat % 2 ^ lo + (v % 2 ^ w) * 2 ^ lo + (r.toNat >>> (lo + w)) * 2 ^ (lo + w) =
      r.toNat % 2 ^ lo + 2 ^ lo * (v % 2 ^ w + 2 ^ w * (r.toNat >>> (lo + w))) := by
    rw [Nat.mul_add, ← Nat.mul_assoc, ← Nat.pow_add, Nat.mul_comm (2 ^ (lo + w)), Nat.mul_comm (2 ^ lo)]
    omega
  have hb : (r.toNat % 2 ^ lo + 2 ^ lo * (v % 2 ^ w + 2 ^ w * (r.toNat >>> (lo + w)))).testBit i =
      if lo ≤ i ∧ i < lo + w then v.testBit (i - lo) else r.toNat.testBit i := by
    rw [Nat.add_comm, Nat.testBit_two_pow_mul_add _ (Nat.mod_lt _ (Nat.two_pow_pos lo))]
    by_cases hi : i < lo
    · rw [if_pos hi, if_neg (by omega), Nat.testBit_mod_two_pow]
      simp [hi]
    · rw [if_neg hi, Nat.add_comm, Nat.testBit_two_pow_mul_add _ (Nat.mod_lt _ (Nat.two_pow_pos w))]
      by_cases hj : i - lo < w
      · rw [if_pos hj, if_pos (by omega), Nat.testBit_mod_two_pow]
        simp [hj]
      · rw [if_neg hj, if_neg (by omega), Nat.testBit_shiftRight]
        congr 1
        omega
  unfold setBits
  rw [h1]
  generalize r.toNat % 2 ^ lo + 2 ^ lo * (v % 2 ^ w + 2 ^ w * (r.toNat >>> (lo + w))) = n at hb
  simp only [BitVec.toNat_ofNat, Nat.testBit_mod_two_pow, hb]
  by_cases hi : i < 32
  · simp [hi]
  · rw [if_neg (by omega)]
    simp only [hi, decide_false, Bool.false_and]
    exact (Nat.testBit_lt_two_pow (Nat.lt_of_lt_of_le r.isLt (Nat.pow_le_pow_right (by omega) (by omega)))).symm

theorem bits_setBits_self (r : Word) {lo w : Nat} (v : Nat) (h : lo + w ≤ 32) : bits (setBits r lo w v).toNat lo w = v % 2 ^ w := by
  apply Nat.eq_of_testBit_eq
  intro i
  rw [testBit_bits, testBit_setBits r v h, Nat.testBit_mod_two_pow]
  by_cases hi : i < w
  · rw [if_pos ⟨by omega, by omega⟩]; simp [hi]
  · simp [hi]

theorem bits_setBits_ne (r : Word) {lo w lo' w' : Nat} (v : Nat) (h : lo + w ≤ 32) (hd : lo' + w' ≤ lo ∨ lo + w ≤ lo') :
    bits (setBits r lo w v).toNat lo' w' = bits r.toNat lo' w' := by
  apply Nat.eq_of_testBit_eq
  intro i
  rw [testBit_bits, testBit_bits, testBit_setBits r v h]
  by_cases hi : i < w'
  · rw [if_neg (by omega)]
  · simp [hi]

theorem sat_le (w v : Nat) : sat w v < 2 ^ w := by
  unfold sat
  split
  · assumption
  · have := Nat.two_pow_pos w; omega

@[simp] theorem sat_mod (w v : Nat) : sat w v % 2 ^ w = sat w v := Nat.mod_eq_of_lt (sat_le w v)

/-- A field of 32 bits or less, inside its word. -/
abbrev inWord (f : Field) : Prop := f.lo + f.w ≤ 32

/-- Two fields share no bit. -/
abbrev apart (f g : Field) : Prop := f.addr ≠ g.addr ∨ g.lo + g.w ≤ f.lo ∨ f.lo + f.w ≤ g.lo

theorem fget_fset_self (s : State) {f : Field} (v : Nat) (h : inWord f) : fget (fset s f v) f = v % 2 ^ f.w := by
  simp [fget, fset, bits_setBits_self _ v h]

theorem fget_fset_ne (s : State) {f g : Field} (v : Nat) (h : inWord f) (hd : apart f g) : fget (fset s f v) g = fget s g := by
  unfold fget fset
  dsimp only
  by_cases e : g.addr = f.addr
  · rw [e, RegFile.get_set_self, bits_setBits_ne _ v h (hd.resolve_left (fun n => n e.symm))]
  · rw [RegFile.get_set_ne _ _ e]

/-- A field of a register file. -/
def RegFile.field (r : RegFile) (f : Field) : Nat := bits (RegFile.get r f.addr).toNat f.lo f.w

/-- A register file with a field replaced. -/
def RegFile.withField (r : RegFile) (f : Field) (v : Nat) : RegFile := RegFile.set r f.addr (setBits (RegFile.get r f.addr) f.lo f.w v)

theorem fget_eq (s : State) (f : Field) : fget s f = RegFile.field s.regs f := rfl
theorem fone_eq (s : State) (f : Field) : fone s f = (RegFile.field s.regs f != 0) := rfl
theorem fset_eq (s : State) (f : Field) (v : Nat) : fset s f v = { s with regs := RegFile.withField s.regs f v } := rfl
theorem fon_eq (s : State) (f : Field) : fon s f = { s with regs := RegFile.withField s.regs f 1 } := rfl
theorem foff_eq (s : State) (f : Field) : foff s f = { s with regs := RegFile.withField s.regs f 0 } := rfl
theorem finc_eq (s : State) (f : Field) :
    finc s f = { s with regs := RegFile.withField s.regs f (sat f.w (RegFile.field s.regs f + 1)) } := rfl
theorem fadd_eq (s : State) (f : Field) (n : Nat) :
    fadd s f n = { s with regs := RegFile.withField s.regs f (sat f.w (RegFile.field s.regs f + n)) } := rfl

theorem field_withField_self (r : RegFile) {f : Field} (v : Nat) (h : inWord f) : (r.withField f v).field f = v % 2 ^ f.w := by
  simp [RegFile.field, RegFile.withField, bits_setBits_self _ v h]

theorem field_withField_ne (r : RegFile) {f g : Field} (v : Nat) (h : inWord f) (hd : apart f g) :
    (r.withField f v).field g = r.field g := by
  unfold RegFile.field RegFile.withField
  by_cases e : g.addr = f.addr
  · rw [e, RegFile.get_set_self, bits_setBits_ne _ v h (hd.resolve_left (fun n => n e.symm))]
  · rw [RegFile.get_set_ne _ _ e]

theorem field_of_regsBut {l : List Nat} {s t : State} (h : RegsBut l s t) {f : Field} (hf : f.addr ∉ l) :
    t.regs.field f = s.regs.field f := by
  simp [RegFile.field, h f.addr hf]

theorem regsBut_refl (l : List Nat) (s : State) : RegsBut l s s := fun _ _ => rfl

theorem regsBut_congr {s t : State} (l : List Nat) (h : t.regs = s.regs) : RegsBut l s t := fun _ _ => by rw [h]

theorem regsBut_trans {l : List Nat} {s t u : State} (h1 : RegsBut l s t) (h2 : RegsBut l t u) : RegsBut l s u :=
  fun a h => (h2 a h).trans (h1 a h)

theorem regsBut_mono {k l : List Nat} {s t : State} (h : RegsBut k s t) (hs : ∀ a, a ∈ k → a ∈ l) : RegsBut l s t :=
  fun a ha => h a fun hk => ha (hs a hk)

theorem regsBut_fset (s : State) (f : Field) (v : Nat) : RegsBut [f.addr] s (fset s f v) :=
  fun a h => RegFile.get_set_ne _ _ (by simpa using h)

theorem regsBut_rset (s : State) (a v : Nat) : RegsBut [a] s (rset s a v) :=
  fun b h => RegFile.get_set_ne _ _ (by simpa using h)

theorem regsBut_fget {l : List Nat} {s t : State} (h : RegsBut l s t) {f : Field} (hf : f.addr ∉ l) : fget t f = fget s f := by
  simp [Machine.fget, h f.addr hf]

theorem regsBut_rget {l : List Nat} {s t : State} (h : RegsBut l s t) {a : Nat} (hf : a ∉ l) : rget t a = rget s a := by
  simp [Machine.rget, h a hf]

@[simp] theorem rget_rset_self (s : State) (a v : Nat) : rget (rset s a v) a = v % 4294967296 := by
  simp [rget, rset]

theorem rget_rset_ne (s : State) {a b : Nat} (v : Nat) (h : b ≠ a) : rget (rset s a v) b = rget s b := by
  simp [rget, rset, RegFile.get_set_ne _ _ h]

/-! ### Fields that the register operations leave -/

@[simp] theorem fset_part (s : State) (f : Field) (v : Nat) : (fset s f v).part = s.part := rfl
@[simp] theorem fset_latch (s : State) (f : Field) (v : Nat) : (fset s f v).latch = s.latch := rfl
@[simp] theorem fset_sel (s : State) (f : Field) (v : Nat) : (fset s f v).sel = s.sel := rfl
@[simp] theorem fset_fab (s : State) (f : Field) (v : Nat) : (fset s f v).fab = s.fab := rfl
@[simp] theorem fset_tmb (s : State) (f : Field) (v : Nat) : (fset s f v).tmb = s.tmb := rfl
@[simp] theorem fset_acm (s : State) (f : Field) (v : Nat) : (fset s f v).acm = s.acm := rfl
@[simp] theorem fset_spdm (s : State) (f : Field) (v : Nat) : (fset s f v).spdm = s.spdm := rfl
@[simp] theorem fset_svc (s : State) (f : Field) (v : Nat) : (fset s f v).svc = s.svc := rfl
@[simp] theorem fset_mbx (s : State) (f : Field) (v : Nat) : (fset s f v).mbx = s.mbx := rfl
@[simp] theorem fset_lkt (s : State) (f : Field) (v : Nat) : (fset s f v).lkt = s.lkt := rfl
@[simp] theorem fset_hst (s : State) (f : Field) (v : Nat) : (fset s f v).hst = s.hst := rfl
@[simp] theorem fset_slm (s : State) (f : Field) (v : Nat) : (fset s f v).slm = s.slm := rfl
@[simp] theorem fset_zne (s : State) (f : Field) (v : Nat) : (fset s f v).zne = s.zne := rfl
@[simp] theorem fset_plc (s : State) (f : Field) (v : Nat) : (fset s f v).plc = s.plc := rfl
@[simp] theorem fset_dsc (s : State) (f : Field) (v : Nat) : (fset s f v).dsc = s.dsc := rfl
@[simp] theorem fset_med (s : State) (f : Field) (v : Nat) : (fset s f v).med = s.med := rfl
@[simp] theorem fset_flash (s : State) (f : Field) (v : Nat) : (fset s f v).flash = s.flash := rfl
@[simp] theorem fset_bpm (s : State) (f : Field) (v : Nat) : (fset s f v).bpm = s.bpm := rfl
@[simp] theorem fset_dmc (s : State) (f : Field) (v : Nat) : (fset s f v).dmc = s.dmc := rfl
@[simp] theorem fset_ump (s : State) (f : Field) (v : Nat) : (fset s f v).ump = s.ump := rfl
@[simp] theorem fset_sgd (s : State) (f : Field) (v : Nat) : (fset s f v).sgd = s.sgd := rfl
@[simp] theorem fset_kst (s : State) (f : Field) (v : Nat) : (fset s f v).kst = s.kst := rfl
@[simp] theorem fset_dge (s : State) (f : Field) (v : Nat) : (fset s f v).dge = s.dge := rfl
@[simp] theorem fset_sgn (s : State) (f : Field) (v : Nat) : (fset s f v).sgn = s.sgn := rfl
@[simp] theorem fset_cls (s : State) (f : Field) (v : Nat) : (fset s f v).cls = s.cls := rfl
@[simp] theorem fset_bot (s : State) (f : Field) (v : Nat) : (fset s f v).bot = s.bot := rfl
@[simp] theorem fset_age (s : State) (f : Field) (v : Nat) : (fset s f v).age = s.age := rfl
@[simp] theorem fset_tsn (s : State) (f : Field) (v : Nat) : (fset s f v).tsn = s.tsn := rfl
@[simp] theorem fset_free (s : State) (f : Field) (v : Nat) : (fset s f v).free = s.free := rfl
@[simp] theorem fset_pending (s : State) (f : Field) (v : Nat) : (fset s f v).pending = s.pending := rfl

@[simp] theorem fon_part (s : State) (f : Field) : (fon s f).part = s.part := rfl
@[simp] theorem fon_latch (s : State) (f : Field) : (fon s f).latch = s.latch := rfl
@[simp] theorem fon_sel (s : State) (f : Field) : (fon s f).sel = s.sel := rfl
@[simp] theorem fon_fab (s : State) (f : Field) : (fon s f).fab = s.fab := rfl
@[simp] theorem fon_tmb (s : State) (f : Field) : (fon s f).tmb = s.tmb := rfl
@[simp] theorem fon_acm (s : State) (f : Field) : (fon s f).acm = s.acm := rfl
@[simp] theorem fon_spdm (s : State) (f : Field) : (fon s f).spdm = s.spdm := rfl
@[simp] theorem fon_svc (s : State) (f : Field) : (fon s f).svc = s.svc := rfl
@[simp] theorem fon_mbx (s : State) (f : Field) : (fon s f).mbx = s.mbx := rfl
@[simp] theorem fon_lkt (s : State) (f : Field) : (fon s f).lkt = s.lkt := rfl
@[simp] theorem fon_hst (s : State) (f : Field) : (fon s f).hst = s.hst := rfl
@[simp] theorem fon_slm (s : State) (f : Field) : (fon s f).slm = s.slm := rfl
@[simp] theorem fon_zne (s : State) (f : Field) : (fon s f).zne = s.zne := rfl
@[simp] theorem fon_plc (s : State) (f : Field) : (fon s f).plc = s.plc := rfl
@[simp] theorem fon_dsc (s : State) (f : Field) : (fon s f).dsc = s.dsc := rfl
@[simp] theorem fon_med (s : State) (f : Field) : (fon s f).med = s.med := rfl
@[simp] theorem fon_flash (s : State) (f : Field) : (fon s f).flash = s.flash := rfl
@[simp] theorem fon_bpm (s : State) (f : Field) : (fon s f).bpm = s.bpm := rfl
@[simp] theorem fon_dmc (s : State) (f : Field) : (fon s f).dmc = s.dmc := rfl
@[simp] theorem fon_ump (s : State) (f : Field) : (fon s f).ump = s.ump := rfl
@[simp] theorem fon_sgd (s : State) (f : Field) : (fon s f).sgd = s.sgd := rfl
@[simp] theorem fon_kst (s : State) (f : Field) : (fon s f).kst = s.kst := rfl
@[simp] theorem fon_dge (s : State) (f : Field) : (fon s f).dge = s.dge := rfl
@[simp] theorem fon_sgn (s : State) (f : Field) : (fon s f).sgn = s.sgn := rfl
@[simp] theorem fon_cls (s : State) (f : Field) : (fon s f).cls = s.cls := rfl
@[simp] theorem fon_bot (s : State) (f : Field) : (fon s f).bot = s.bot := rfl
@[simp] theorem fon_age (s : State) (f : Field) : (fon s f).age = s.age := rfl
@[simp] theorem fon_tsn (s : State) (f : Field) : (fon s f).tsn = s.tsn := rfl
@[simp] theorem fon_free (s : State) (f : Field) : (fon s f).free = s.free := rfl
@[simp] theorem fon_pending (s : State) (f : Field) : (fon s f).pending = s.pending := rfl

@[simp] theorem foff_part (s : State) (f : Field) : (foff s f).part = s.part := rfl
@[simp] theorem foff_latch (s : State) (f : Field) : (foff s f).latch = s.latch := rfl
@[simp] theorem foff_sel (s : State) (f : Field) : (foff s f).sel = s.sel := rfl
@[simp] theorem foff_fab (s : State) (f : Field) : (foff s f).fab = s.fab := rfl
@[simp] theorem foff_tmb (s : State) (f : Field) : (foff s f).tmb = s.tmb := rfl
@[simp] theorem foff_acm (s : State) (f : Field) : (foff s f).acm = s.acm := rfl
@[simp] theorem foff_spdm (s : State) (f : Field) : (foff s f).spdm = s.spdm := rfl
@[simp] theorem foff_svc (s : State) (f : Field) : (foff s f).svc = s.svc := rfl
@[simp] theorem foff_mbx (s : State) (f : Field) : (foff s f).mbx = s.mbx := rfl
@[simp] theorem foff_lkt (s : State) (f : Field) : (foff s f).lkt = s.lkt := rfl
@[simp] theorem foff_hst (s : State) (f : Field) : (foff s f).hst = s.hst := rfl
@[simp] theorem foff_slm (s : State) (f : Field) : (foff s f).slm = s.slm := rfl
@[simp] theorem foff_zne (s : State) (f : Field) : (foff s f).zne = s.zne := rfl
@[simp] theorem foff_plc (s : State) (f : Field) : (foff s f).plc = s.plc := rfl
@[simp] theorem foff_dsc (s : State) (f : Field) : (foff s f).dsc = s.dsc := rfl
@[simp] theorem foff_med (s : State) (f : Field) : (foff s f).med = s.med := rfl
@[simp] theorem foff_flash (s : State) (f : Field) : (foff s f).flash = s.flash := rfl
@[simp] theorem foff_bpm (s : State) (f : Field) : (foff s f).bpm = s.bpm := rfl
@[simp] theorem foff_dmc (s : State) (f : Field) : (foff s f).dmc = s.dmc := rfl
@[simp] theorem foff_ump (s : State) (f : Field) : (foff s f).ump = s.ump := rfl
@[simp] theorem foff_sgd (s : State) (f : Field) : (foff s f).sgd = s.sgd := rfl
@[simp] theorem foff_kst (s : State) (f : Field) : (foff s f).kst = s.kst := rfl
@[simp] theorem foff_dge (s : State) (f : Field) : (foff s f).dge = s.dge := rfl
@[simp] theorem foff_sgn (s : State) (f : Field) : (foff s f).sgn = s.sgn := rfl
@[simp] theorem foff_cls (s : State) (f : Field) : (foff s f).cls = s.cls := rfl
@[simp] theorem foff_bot (s : State) (f : Field) : (foff s f).bot = s.bot := rfl
@[simp] theorem foff_age (s : State) (f : Field) : (foff s f).age = s.age := rfl
@[simp] theorem foff_tsn (s : State) (f : Field) : (foff s f).tsn = s.tsn := rfl
@[simp] theorem foff_free (s : State) (f : Field) : (foff s f).free = s.free := rfl
@[simp] theorem foff_pending (s : State) (f : Field) : (foff s f).pending = s.pending := rfl

@[simp] theorem fadd_part (s : State) (f : Field) (n : Nat) : (fadd s f n).part = s.part := rfl
@[simp] theorem fadd_latch (s : State) (f : Field) (n : Nat) : (fadd s f n).latch = s.latch := rfl
@[simp] theorem fadd_sel (s : State) (f : Field) (n : Nat) : (fadd s f n).sel = s.sel := rfl
@[simp] theorem fadd_fab (s : State) (f : Field) (n : Nat) : (fadd s f n).fab = s.fab := rfl
@[simp] theorem fadd_tmb (s : State) (f : Field) (n : Nat) : (fadd s f n).tmb = s.tmb := rfl
@[simp] theorem fadd_acm (s : State) (f : Field) (n : Nat) : (fadd s f n).acm = s.acm := rfl
@[simp] theorem fadd_spdm (s : State) (f : Field) (n : Nat) : (fadd s f n).spdm = s.spdm := rfl
@[simp] theorem fadd_svc (s : State) (f : Field) (n : Nat) : (fadd s f n).svc = s.svc := rfl
@[simp] theorem fadd_mbx (s : State) (f : Field) (n : Nat) : (fadd s f n).mbx = s.mbx := rfl
@[simp] theorem fadd_lkt (s : State) (f : Field) (n : Nat) : (fadd s f n).lkt = s.lkt := rfl
@[simp] theorem fadd_hst (s : State) (f : Field) (n : Nat) : (fadd s f n).hst = s.hst := rfl
@[simp] theorem fadd_slm (s : State) (f : Field) (n : Nat) : (fadd s f n).slm = s.slm := rfl
@[simp] theorem fadd_zne (s : State) (f : Field) (n : Nat) : (fadd s f n).zne = s.zne := rfl
@[simp] theorem fadd_plc (s : State) (f : Field) (n : Nat) : (fadd s f n).plc = s.plc := rfl
@[simp] theorem fadd_dsc (s : State) (f : Field) (n : Nat) : (fadd s f n).dsc = s.dsc := rfl
@[simp] theorem fadd_med (s : State) (f : Field) (n : Nat) : (fadd s f n).med = s.med := rfl
@[simp] theorem fadd_flash (s : State) (f : Field) (n : Nat) : (fadd s f n).flash = s.flash := rfl
@[simp] theorem fadd_bpm (s : State) (f : Field) (n : Nat) : (fadd s f n).bpm = s.bpm := rfl
@[simp] theorem fadd_dmc (s : State) (f : Field) (n : Nat) : (fadd s f n).dmc = s.dmc := rfl
@[simp] theorem fadd_ump (s : State) (f : Field) (n : Nat) : (fadd s f n).ump = s.ump := rfl
@[simp] theorem fadd_sgd (s : State) (f : Field) (n : Nat) : (fadd s f n).sgd = s.sgd := rfl
@[simp] theorem fadd_kst (s : State) (f : Field) (n : Nat) : (fadd s f n).kst = s.kst := rfl
@[simp] theorem fadd_dge (s : State) (f : Field) (n : Nat) : (fadd s f n).dge = s.dge := rfl
@[simp] theorem fadd_sgn (s : State) (f : Field) (n : Nat) : (fadd s f n).sgn = s.sgn := rfl
@[simp] theorem fadd_cls (s : State) (f : Field) (n : Nat) : (fadd s f n).cls = s.cls := rfl
@[simp] theorem fadd_bot (s : State) (f : Field) (n : Nat) : (fadd s f n).bot = s.bot := rfl
@[simp] theorem fadd_age (s : State) (f : Field) (n : Nat) : (fadd s f n).age = s.age := rfl
@[simp] theorem fadd_tsn (s : State) (f : Field) (n : Nat) : (fadd s f n).tsn = s.tsn := rfl
@[simp] theorem fadd_free (s : State) (f : Field) (n : Nat) : (fadd s f n).free = s.free := rfl
@[simp] theorem fadd_pending (s : State) (f : Field) (n : Nat) : (fadd s f n).pending = s.pending := rfl

@[simp] theorem finc_part (s : State) (f : Field) : (finc s f).part = s.part := rfl
@[simp] theorem finc_latch (s : State) (f : Field) : (finc s f).latch = s.latch := rfl
@[simp] theorem finc_sel (s : State) (f : Field) : (finc s f).sel = s.sel := rfl
@[simp] theorem finc_fab (s : State) (f : Field) : (finc s f).fab = s.fab := rfl
@[simp] theorem finc_tmb (s : State) (f : Field) : (finc s f).tmb = s.tmb := rfl
@[simp] theorem finc_acm (s : State) (f : Field) : (finc s f).acm = s.acm := rfl
@[simp] theorem finc_spdm (s : State) (f : Field) : (finc s f).spdm = s.spdm := rfl
@[simp] theorem finc_svc (s : State) (f : Field) : (finc s f).svc = s.svc := rfl
@[simp] theorem finc_mbx (s : State) (f : Field) : (finc s f).mbx = s.mbx := rfl
@[simp] theorem finc_lkt (s : State) (f : Field) : (finc s f).lkt = s.lkt := rfl
@[simp] theorem finc_hst (s : State) (f : Field) : (finc s f).hst = s.hst := rfl
@[simp] theorem finc_slm (s : State) (f : Field) : (finc s f).slm = s.slm := rfl
@[simp] theorem finc_zne (s : State) (f : Field) : (finc s f).zne = s.zne := rfl
@[simp] theorem finc_plc (s : State) (f : Field) : (finc s f).plc = s.plc := rfl
@[simp] theorem finc_dsc (s : State) (f : Field) : (finc s f).dsc = s.dsc := rfl
@[simp] theorem finc_med (s : State) (f : Field) : (finc s f).med = s.med := rfl
@[simp] theorem finc_flash (s : State) (f : Field) : (finc s f).flash = s.flash := rfl
@[simp] theorem finc_bpm (s : State) (f : Field) : (finc s f).bpm = s.bpm := rfl
@[simp] theorem finc_dmc (s : State) (f : Field) : (finc s f).dmc = s.dmc := rfl
@[simp] theorem finc_ump (s : State) (f : Field) : (finc s f).ump = s.ump := rfl
@[simp] theorem finc_sgd (s : State) (f : Field) : (finc s f).sgd = s.sgd := rfl
@[simp] theorem finc_kst (s : State) (f : Field) : (finc s f).kst = s.kst := rfl
@[simp] theorem finc_dge (s : State) (f : Field) : (finc s f).dge = s.dge := rfl
@[simp] theorem finc_sgn (s : State) (f : Field) : (finc s f).sgn = s.sgn := rfl
@[simp] theorem finc_cls (s : State) (f : Field) : (finc s f).cls = s.cls := rfl
@[simp] theorem finc_bot (s : State) (f : Field) : (finc s f).bot = s.bot := rfl
@[simp] theorem finc_age (s : State) (f : Field) : (finc s f).age = s.age := rfl
@[simp] theorem finc_tsn (s : State) (f : Field) : (finc s f).tsn = s.tsn := rfl
@[simp] theorem finc_free (s : State) (f : Field) : (finc s f).free = s.free := rfl
@[simp] theorem finc_pending (s : State) (f : Field) : (finc s f).pending = s.pending := rfl

@[simp] theorem fbiton_part (s : State) (f : Field) (i : Nat) : (fbiton s f i).part = s.part := rfl
@[simp] theorem fbiton_latch (s : State) (f : Field) (i : Nat) : (fbiton s f i).latch = s.latch := rfl
@[simp] theorem fbiton_sel (s : State) (f : Field) (i : Nat) : (fbiton s f i).sel = s.sel := rfl
@[simp] theorem fbiton_fab (s : State) (f : Field) (i : Nat) : (fbiton s f i).fab = s.fab := rfl
@[simp] theorem fbiton_tmb (s : State) (f : Field) (i : Nat) : (fbiton s f i).tmb = s.tmb := rfl
@[simp] theorem fbiton_acm (s : State) (f : Field) (i : Nat) : (fbiton s f i).acm = s.acm := rfl
@[simp] theorem fbiton_spdm (s : State) (f : Field) (i : Nat) : (fbiton s f i).spdm = s.spdm := rfl
@[simp] theorem fbiton_svc (s : State) (f : Field) (i : Nat) : (fbiton s f i).svc = s.svc := rfl
@[simp] theorem fbiton_mbx (s : State) (f : Field) (i : Nat) : (fbiton s f i).mbx = s.mbx := rfl
@[simp] theorem fbiton_lkt (s : State) (f : Field) (i : Nat) : (fbiton s f i).lkt = s.lkt := rfl
@[simp] theorem fbiton_hst (s : State) (f : Field) (i : Nat) : (fbiton s f i).hst = s.hst := rfl
@[simp] theorem fbiton_slm (s : State) (f : Field) (i : Nat) : (fbiton s f i).slm = s.slm := rfl
@[simp] theorem fbiton_zne (s : State) (f : Field) (i : Nat) : (fbiton s f i).zne = s.zne := rfl
@[simp] theorem fbiton_plc (s : State) (f : Field) (i : Nat) : (fbiton s f i).plc = s.plc := rfl
@[simp] theorem fbiton_dsc (s : State) (f : Field) (i : Nat) : (fbiton s f i).dsc = s.dsc := rfl
@[simp] theorem fbiton_med (s : State) (f : Field) (i : Nat) : (fbiton s f i).med = s.med := rfl
@[simp] theorem fbiton_flash (s : State) (f : Field) (i : Nat) : (fbiton s f i).flash = s.flash := rfl
@[simp] theorem fbiton_bpm (s : State) (f : Field) (i : Nat) : (fbiton s f i).bpm = s.bpm := rfl
@[simp] theorem fbiton_dmc (s : State) (f : Field) (i : Nat) : (fbiton s f i).dmc = s.dmc := rfl
@[simp] theorem fbiton_ump (s : State) (f : Field) (i : Nat) : (fbiton s f i).ump = s.ump := rfl
@[simp] theorem fbiton_sgd (s : State) (f : Field) (i : Nat) : (fbiton s f i).sgd = s.sgd := rfl
@[simp] theorem fbiton_kst (s : State) (f : Field) (i : Nat) : (fbiton s f i).kst = s.kst := rfl
@[simp] theorem fbiton_dge (s : State) (f : Field) (i : Nat) : (fbiton s f i).dge = s.dge := rfl
@[simp] theorem fbiton_sgn (s : State) (f : Field) (i : Nat) : (fbiton s f i).sgn = s.sgn := rfl
@[simp] theorem fbiton_cls (s : State) (f : Field) (i : Nat) : (fbiton s f i).cls = s.cls := rfl
@[simp] theorem fbiton_bot (s : State) (f : Field) (i : Nat) : (fbiton s f i).bot = s.bot := rfl
@[simp] theorem fbiton_age (s : State) (f : Field) (i : Nat) : (fbiton s f i).age = s.age := rfl
@[simp] theorem fbiton_tsn (s : State) (f : Field) (i : Nat) : (fbiton s f i).tsn = s.tsn := rfl
@[simp] theorem fbiton_free (s : State) (f : Field) (i : Nat) : (fbiton s f i).free = s.free := rfl
@[simp] theorem fbiton_pending (s : State) (f : Field) (i : Nat) : (fbiton s f i).pending = s.pending := rfl

@[simp] theorem rset_part (s : State) (a v : Nat) : (rset s a v).part = s.part := rfl
@[simp] theorem rset_latch (s : State) (a v : Nat) : (rset s a v).latch = s.latch := rfl
@[simp] theorem rset_sel (s : State) (a v : Nat) : (rset s a v).sel = s.sel := rfl
@[simp] theorem rset_fab (s : State) (a v : Nat) : (rset s a v).fab = s.fab := rfl
@[simp] theorem rset_tmb (s : State) (a v : Nat) : (rset s a v).tmb = s.tmb := rfl
@[simp] theorem rset_acm (s : State) (a v : Nat) : (rset s a v).acm = s.acm := rfl
@[simp] theorem rset_spdm (s : State) (a v : Nat) : (rset s a v).spdm = s.spdm := rfl
@[simp] theorem rset_svc (s : State) (a v : Nat) : (rset s a v).svc = s.svc := rfl
@[simp] theorem rset_mbx (s : State) (a v : Nat) : (rset s a v).mbx = s.mbx := rfl
@[simp] theorem rset_lkt (s : State) (a v : Nat) : (rset s a v).lkt = s.lkt := rfl
@[simp] theorem rset_hst (s : State) (a v : Nat) : (rset s a v).hst = s.hst := rfl
@[simp] theorem rset_slm (s : State) (a v : Nat) : (rset s a v).slm = s.slm := rfl
@[simp] theorem rset_zne (s : State) (a v : Nat) : (rset s a v).zne = s.zne := rfl
@[simp] theorem rset_plc (s : State) (a v : Nat) : (rset s a v).plc = s.plc := rfl
@[simp] theorem rset_dsc (s : State) (a v : Nat) : (rset s a v).dsc = s.dsc := rfl
@[simp] theorem rset_med (s : State) (a v : Nat) : (rset s a v).med = s.med := rfl
@[simp] theorem rset_flash (s : State) (a v : Nat) : (rset s a v).flash = s.flash := rfl
@[simp] theorem rset_bpm (s : State) (a v : Nat) : (rset s a v).bpm = s.bpm := rfl
@[simp] theorem rset_dmc (s : State) (a v : Nat) : (rset s a v).dmc = s.dmc := rfl
@[simp] theorem rset_ump (s : State) (a v : Nat) : (rset s a v).ump = s.ump := rfl
@[simp] theorem rset_sgd (s : State) (a v : Nat) : (rset s a v).sgd = s.sgd := rfl
@[simp] theorem rset_kst (s : State) (a v : Nat) : (rset s a v).kst = s.kst := rfl
@[simp] theorem rset_dge (s : State) (a v : Nat) : (rset s a v).dge = s.dge := rfl
@[simp] theorem rset_sgn (s : State) (a v : Nat) : (rset s a v).sgn = s.sgn := rfl
@[simp] theorem rset_cls (s : State) (a v : Nat) : (rset s a v).cls = s.cls := rfl
@[simp] theorem rset_bot (s : State) (a v : Nat) : (rset s a v).bot = s.bot := rfl
@[simp] theorem rset_age (s : State) (a v : Nat) : (rset s a v).age = s.age := rfl
@[simp] theorem rset_tsn (s : State) (a v : Nat) : (rset s a v).tsn = s.tsn := rfl
@[simp] theorem rset_free (s : State) (a v : Nat) : (rset s a v).free = s.free := rfl
@[simp] theorem rset_pending (s : State) (a v : Nat) : (rset s a v).pending = s.pending := rfl

@[simp] theorem pset_part (s : State) (lo hi v : Nat) : (pset s lo hi v).part = s.part := rfl
@[simp] theorem pset_latch (s : State) (lo hi v : Nat) : (pset s lo hi v).latch = s.latch := rfl
@[simp] theorem pset_sel (s : State) (lo hi v : Nat) : (pset s lo hi v).sel = s.sel := rfl
@[simp] theorem pset_fab (s : State) (lo hi v : Nat) : (pset s lo hi v).fab = s.fab := rfl
@[simp] theorem pset_tmb (s : State) (lo hi v : Nat) : (pset s lo hi v).tmb = s.tmb := rfl
@[simp] theorem pset_acm (s : State) (lo hi v : Nat) : (pset s lo hi v).acm = s.acm := rfl
@[simp] theorem pset_spdm (s : State) (lo hi v : Nat) : (pset s lo hi v).spdm = s.spdm := rfl
@[simp] theorem pset_svc (s : State) (lo hi v : Nat) : (pset s lo hi v).svc = s.svc := rfl
@[simp] theorem pset_mbx (s : State) (lo hi v : Nat) : (pset s lo hi v).mbx = s.mbx := rfl
@[simp] theorem pset_lkt (s : State) (lo hi v : Nat) : (pset s lo hi v).lkt = s.lkt := rfl
@[simp] theorem pset_hst (s : State) (lo hi v : Nat) : (pset s lo hi v).hst = s.hst := rfl
@[simp] theorem pset_slm (s : State) (lo hi v : Nat) : (pset s lo hi v).slm = s.slm := rfl
@[simp] theorem pset_zne (s : State) (lo hi v : Nat) : (pset s lo hi v).zne = s.zne := rfl
@[simp] theorem pset_plc (s : State) (lo hi v : Nat) : (pset s lo hi v).plc = s.plc := rfl
@[simp] theorem pset_dsc (s : State) (lo hi v : Nat) : (pset s lo hi v).dsc = s.dsc := rfl
@[simp] theorem pset_med (s : State) (lo hi v : Nat) : (pset s lo hi v).med = s.med := rfl
@[simp] theorem pset_flash (s : State) (lo hi v : Nat) : (pset s lo hi v).flash = s.flash := rfl
@[simp] theorem pset_bpm (s : State) (lo hi v : Nat) : (pset s lo hi v).bpm = s.bpm := rfl
@[simp] theorem pset_dmc (s : State) (lo hi v : Nat) : (pset s lo hi v).dmc = s.dmc := rfl
@[simp] theorem pset_ump (s : State) (lo hi v : Nat) : (pset s lo hi v).ump = s.ump := rfl
@[simp] theorem pset_sgd (s : State) (lo hi v : Nat) : (pset s lo hi v).sgd = s.sgd := rfl
@[simp] theorem pset_kst (s : State) (lo hi v : Nat) : (pset s lo hi v).kst = s.kst := rfl
@[simp] theorem pset_dge (s : State) (lo hi v : Nat) : (pset s lo hi v).dge = s.dge := rfl
@[simp] theorem pset_sgn (s : State) (lo hi v : Nat) : (pset s lo hi v).sgn = s.sgn := rfl
@[simp] theorem pset_cls (s : State) (lo hi v : Nat) : (pset s lo hi v).cls = s.cls := rfl
@[simp] theorem pset_bot (s : State) (lo hi v : Nat) : (pset s lo hi v).bot = s.bot := rfl
@[simp] theorem pset_age (s : State) (lo hi v : Nat) : (pset s lo hi v).age = s.age := rfl
@[simp] theorem pset_tsn (s : State) (lo hi v : Nat) : (pset s lo hi v).tsn = s.tsn := rfl
@[simp] theorem pset_free (s : State) (lo hi v : Nat) : (pset s lo hi v).free = s.free := rfl
@[simp] theorem pset_pending (s : State) (lo hi v : Nat) : (pset s lo hi v).pending = s.pending := rfl

/-! ### Named operations -/

theorem lktAccept_regs (s : State) (code time p1 p2 p3 p4 : Nat) : RegsBut lktRegs s (lktAccept s code time p1 p2 p3 p4) := by
  unfold lktAccept
  generalize (if s.lkt.lostNew ≠ 0 ∧ lktRoom s.lkt = true then _ else s.lkt) = l
  dsimp only
  split
  · exact regsBut_congr _ rfl
  · exact regsBut_trans (regsBut_mono (regsBut_fset _ _ _) (by intro a h; rw [List.mem_singleton.1 h]; decide)) (regsBut_mono (regsBut_fset _ _ _) (by intro a h; rw [List.mem_singleton.1 h]; decide))

theorem post_regs (s : State) (src ev : Nat) (priv : Bool) (p1 p2 p3 p4 : Nat) : RegsBut lktRegs s (post s src ev priv p1 p2 p3 p4) := by
  unfold post
  split
  · split <;> exact regsBut_congr _ rfl
  · split
    · exact regsBut_trans (regsBut_mono (regsBut_fset _ _ _) (by intro a h; rw [List.mem_singleton.1 h]; decide)) (regsBut_mono (regsBut_fset _ _ _) (by intro a h; rw [List.mem_singleton.1 h]; decide))
    · dsimp only
      split
      · exact lktAccept_regs _ _ _ _ _ _ _
      · exact regsBut_trans (lktAccept_regs s _ _ _ _ _ _) (regsBut_congr _ rfl)

theorem post_field (s : State) (src ev : Nat) (priv : Bool) (p1 p2 p3 p4 : Nat) {f : Field} (hf : f.addr ∉ lktRegs) :
    (post s src ev priv p1 p2 p3 p4).regs.field f = s.regs.field f := field_of_regsBut (post_regs _ _ _ _ _ _ _ _) hf

end Sys2Proof.Machine
end

