-- ==== Sys2Proof/Laws/Mailbox.lean ====
section
/-! SUPPORT. What the mailbox does with a request it accepts: the work of the opcode, and the response on the channel. -/
namespace Sys2Proof.Machine
set_option linter.all false
open Sys2Proof

/-- A channel after it has been stored. -/
theorem chanGet_chanPut (s : State) (c : Nat) (x : Chan) : chanGet (chanPut s c x) c = x := by
  unfold chanPut chanGet
  dsimp only
  split <;> simp [fset, SMap.getD, SMap.find_put_self]

/-- A channel depends on the mailbox alone. -/
theorem chanGet_congr {s t : State} (h : t.mbx = s.mbx) (c : Nat) : chanGet t c = chanGet s c := by simp [chanGet, h]

/-- The response a channel carries depends on the mailbox alone. -/
theorem answer_congr {s t : State} (h : t.mbx = s.mbx) (c : Nat) : answer t c = answer s c := by simp [answer, chanGet_congr h]

/-- A written response stands on its channel. -/
theorem mbxWrite_answer (s : State) (r : Rq) (opc : Nat) (sec : Bool) (cls : Cls) (a : Ans) (vfl : Nat) :
    answer (mbxWrite s r opc sec cls a vfl) r.ch.val = some (a.st, a.pay) := by
  have hps : ∀ t : State, answer (psRefresh t) r.ch.val = answer t r.ch.val := fun t =>
    answer_congr ((psRefresh_frame (m := 2100226) t (by decide) (Same.refl _ _)).mbx (by decide)) _
  have hms : ∀ (t : State) (p v : Nat), answer (msixSend t p v) r.ch.val = answer t r.ch.val := fun t p v =>
    answer_congr ((msixSend_frame (m := 2048) t p v (by decide) (Same.refl _ _)).mbx (by decide)) _
  have hfi : ∀ (t : State) (f : Field), answer (finc t f) r.ch.val = answer t r.ch.val := fun t f =>
    answer_congr ((finc_frame (m := 2) t f (by decide) (Same.refl _ _)).mbx (by decide)) _
  have hput : ∀ (t : State) (x : Chan), answer (chanPut t r.ch.val x) r.ch.val = x.resp.map fun x => (x.status, x.payload) := by
    intro t x
    rw [answer, chanGet_chanPut]
  unfold mbxWrite
  dsimp only
  rw [hps]
  split
  · rw [hms]; split
    · rw [hfi, hput]; rfl
    · split
      · rw [hfi, hput]; rfl
      · rw [hput]; rfl
  · split
    · rw [hfi, hput]; rfl
    · split
      · rw [hfi, hput]; rfl
      · rw [hput]; rfl

/-- A response to a caller whose session stands. -/
theorem mbxReply_answer {s : State} {r : Rq} {opc : Nat} {c : Caller} {a : Ans} {vfl : Nat} (h : stands s c) :
    answer (mbxReply s r opc c a vfl) r.ch.val = some (a.st, a.pay) := by
  unfold mbxReply
  split
  · exact mbxWrite_answer _ _ _ _ _ _ _
  · rename_i hz
    rw [if_pos (h.resolve_left hz)]
    exact mbxWrite_answer _ _ _ _ _ _ _

/-- A request that is accepted is worked on: the rest of mbxRun is the work of its opcode. -/
theorem mbxRun_accepted {d : OpDef} {r : Rq} {s s1 : State} {c : Caller} {p : List Byte}
    (h : accepted d.opc d.hw r s = some (c, p, s1)) : mbxRun d r s = mbxAct d r c p s1 ∧ stands s1 c ∧ c.session = r.session := by
  unfold accepted at h
  dsimp only at h
  split at h
  · cases h
  · rename_i hc
    simp only [Bool.or_eq_true, not_or, Bool.not_eq_true, decide_eq_false_iff_not] at hc
    obtain ⟨⟨⟨⟨h1, h2⟩, h3⟩, h4⟩, h5⟩ := hc
    unfold mbxRun
    dsimp only
    rw [if_neg (by simp [h1]), if_neg (by simp [h2])]
    unfold mbxServe
    dsimp only
    rw [if_neg (fun e => e.elim h3 h4)]
    split at h
    · rename_i hz
      rw [if_pos hz]
      split at h
      · rename_i ha
        cases h
        refine ⟨?_, .inl rfl, hz.symm⟩
        unfold mbxBody
        rw [if_neg (fun e => e ha), if_pos (by simp [h5])]
      · cases h
    · rename_i hz
      rw [if_neg hz]
      split at h
      · rename_i x inner ho
        split at h
        · rename_i ha
          cases h
          refine ⟨?_, .inr ?_, rfl⟩
          · rw [ho]
            unfold mbxBody
            dsimp only
            rw [if_neg (fun e => e ha), if_pos (by simp [h5])]
          · simp [finc, fadd, fset, SMap.find_put_self]
        · cases h
      · cases h

/-- The work of an accepted request answers: its response stands on the channel, and nothing else than the mailbox's own part
changes after the work. -/
theorem mbxAct_answers {d : OpDef} {r : Rq} {c : Caller} {p : List Byte} {s1 s2 : State} {a : Ans} (hl : d.layout p = true)
    (hw : d.work r c p s1 = (some a, s2)) (hs : stands s2 c) (hp : a.pay.length ≤ payCap c) :
    answer (mbxAct d r c p s1) r.ch.val = some (a.st, a.pay) ∧ Same 2100866 s2 (mbxAct d r c p s1) := by
  unfold mbxAct
  rw [if_neg (by simp [hl]), hw]
  dsimp only
  unfold mbxAnswer
  rw [if_pos hp]
  exact ⟨mbxReply_answer hs, mbxReply_frame _ _ _ _ _ _ (by decide) (Same.refl _ _)⟩

/-- Every response carries at least 4,032 payload bytes. -/
theorem payCap_le (c : Caller) : 4032 ≤ payCap c := by unfold payCap; split <;> decide

/-- A caller's session stands as long as the responder's state is as it was. -/
theorem stands_congr {s t : State} {c : Caller} (h : t.spdm = s.spdm) (hs : stands s c) : stands t c := by
  unfold stands at *
  rw [h]
  exact hs

/-- An accepted request of an opcode without a volley of its own. -/
theorem opDef_answers {opc : Nat} {layout : List Byte → Bool} {work : Caller → List Byte → State → Ans × State} {r : Rq}
    {s s1 : State} {c : Caller} {p : List Byte} (h : accepted opc false r s = some (c, p, s1)) (hl : layout p = true)
    (hs : (work c p s1).2.spdm = s1.spdm) (hp : (work c p s1).1.pay.length ≤ 4032) :
    answer (mbxRun (opDef opc layout work) r s) r.ch.val = some ((work c p s1).1.st, (work c p s1).1.pay) ∧
      Same 2100866 (work c p s1).2 (mbxRun (opDef opc layout work) r s) := by
  obtain ⟨h1, h2, _⟩ := mbxRun_accepted (d := opDef opc layout work) h
  rw [h1]
  exact mbxAct_answers hl rfl (stands_congr hs h2) (Nat.le_trans hp (payCap_le c))

/-- An accepted request of an opcode that only reads. -/
theorem opRead_answers {opc : Nat} {f : Caller → State → Ans} {r : Rq} {s s1 : State} {c : Caller}
    (h : accepted opc false r s = some (c, [], s1)) (hp : (f c s1).pay.length ≤ 4032) :
    answer (mbxRun (opRead opc f) r s) r.ch.val = some ((f c s1).st, (f c s1).pay) ∧ Same 2100866 s1 (mbxRun (opRead opc f) r s) :=
  opDef_answers (layout := fun p => p.isEmpty) (work := fun c _ s => (f c s, s)) h rfl rfl hp

end Sys2Proof.Machine
end

