-- ==== Sys2Proof/Laws/Regs.lean ====
section
/-! SUPPORT. Which registers the operations that stand at the end of many commands may change. -/
namespace Sys2Proof.Machine
set_option linter.all false
open Sys2Proof

/-- The registers a change of power state may change. -/
def psRegs : List Nat := [Reg.QEN_PS, Fld.DMC_CTRL_SELF_REFRESH.addr, Fld.DMC_STATUS_IN_SR.addr] ++ lktRegs

/-- Changes inside a list, one operation after others. -/
theorem regsBut_in {l : List Nat} {s t u : State} {k : List Nat} (h : RegsBut l s t) (h2 : RegsBut k t u) (hk : ∀ a, a ∈ k → a ∈ l) :
    RegsBut l s u := regsBut_trans h (regsBut_mono h2 hk)

theorem regsBut_field {l : List Nat} {s t : State} (h : RegsBut l s t) (f : Field) (v : Nat) (hf : f.addr ∈ l) :
    RegsBut l s (fset t f v) := regsBut_in h (regsBut_fset t f v) fun a ha => by rw [List.mem_singleton.1 ha]; exact hf

theorem regsBut_hst {l : List Nat} {s0 s : State} (h : RegsBut l s0 s) (x : Hst) : RegsBut l s0 { s with hst := x } := h

theorem reach_regs (s : State) (t : Nat) : RegsBut [Reg.TMB_STATUS] s (reach s t) := by
  unfold reach
  dsimp only
  split
  · exact regsBut_refl _ _
  · split
    · exact regsBut_congr _ rfl
    · split
      · exact regsBut_field (regsBut_congr _ rfl) Fld.TMB_STATUS_HELD 1 (by decide)
      · exact regsBut_congr _ rfl

theorem psPort_regs {l : List Nat} (hl : Reg.QEN_PS ∈ l) {s0 s : State} (h : RegsBut l s0 s) (p : Nat) : RegsBut l s0 (psPort s p) := by
  unfold psPort
  dsimp only
  split
  · exact regsBut_field (regsBut_field (regsBut_trans h (regsBut_congr _ rfl)) _ _ hl) _ _ hl
  · exact regsBut_field (regsBut_field h _ _ hl) _ _ hl

theorem psSet_regs {s0 s : State} (h : RegsBut psRegs s0 s) (t : Nat) : RegsBut psRegs s0 (psSet s t) := by
  unfold psSet
  split
  · exact h
  · exact regsBut_in (regsBut_field h _ _ (by decide)) (post_regs _ _ _ _ _ _ _ _) (by decide)

theorem psDram_regs {s0 s : State} (h : RegsBut psRegs s0 s) (b : Bool) : RegsBut psRegs s0 (psRefreshDram s b) :=
  regsBut_field (regsBut_field h _ _ (by decide)) _ _ (by decide)

theorem psRefresh_regs {s0 s : State} (h : RegsBut psRegs s0 s) : RegsBut psRegs s0 (psRefresh s) := by
  have hp : RegsBut psRegs s0 ((List.range 4).foldl psPort s) := by
    have : ∀ (l : List Nat) (s : State), RegsBut psRegs s0 s → RegsBut psRegs s0 (l.foldl psPort s) := by
      intro l
      induction l with
      | nil => exact fun _ h => h
      | cons a l ih => exact fun s h => ih _ (psPort_regs (by decide) h a)
    exact this _ _ h
  unfold psRefresh
  dsimp only
  generalize (List.range 4).foldl psPort s = u at hp ⊢
  split
  · refine regsBut_field (psSet_regs ?_ _) _ _ (by decide)
    split
    · exact regsBut_hst (psDram_regs (regsBut_field hp _ _ (by decide)) _) _
    · exact regsBut_hst hp _
  · split
    · exact regsBut_field (regsBut_hst hp _) _ _ (by decide)
    · exact regsBut_field (regsBut_hst hp _) _ _ (by decide)

theorem psSideband_regs (s : State) : RegsBut psRegs s (psSideband s) := by
  unfold psSideband
  split
  · exact psRefresh_regs (psDram_regs (regsBut_field (psSet_regs (regsBut_refl _ _) _) _ _ (by decide)) _)
  · exact regsBut_refl _ _

theorem psWake_regs (s : State) (p : Nat) : RegsBut psRegs s (psWake s p) := by
  unfold psWake
  split
  · exact psRefresh_regs (regsBut_congr _ rfl)
  · exact regsBut_refl _ _

end Sys2Proof.Machine
end

