-- ==== Sys2Proof/Laws/Quiet.lean ====
section
/-! SUPPORT. What the answer of the mailbox leaves as the work of the opcode left it: the registers outside a short list, and of the
host side, the recorder and the supply guard all but the fields that an idle port and a record of the recorder move. -/
namespace Sys2Proof.Machine
set_option linter.all false
open Sys2Proof

/-- The host side without what a change of power state and an interrupt move. -/
def hstCore (h : Hst) : Hst := { h with ports := [], msix := [], psTo := none, deep := false }

/-- A port without the time since when it is idle. -/
def portCore (x : Port) : Port := { x with idleAt := 0 }

/-- The recorder without what an accepted, suppressed or lost record moves. -/
def lktCore (l : Lkt) : Lkt := { l with ring := [], side := [], next := 0, rate := [], supp := [], lostNew := 0, due := false }

/-- The supply guard without the records it holds. -/
def sgdCore (g : Sgd) : Sgd := { g with held := [], heldLost := 0 }

/-- Registers that an answer of the mailbox may change. -/
def mbxRegs : List Nat :=
  psRegs ++ (List.range 4).map Reg.MBX_STATE ++ (List.range 5).map Reg.MBX_COUNT ++ [(Fld.PVE_COUNT_COUNT 0).addr]

/-- `t` differs from `s` only in what the answer of a request moves. -/
structure Calm (s t : State) : Prop where
  hst : hstCore t.hst = hstCore s.hst
  lkt : lktCore t.lkt = lktCore s.lkt
  sgd : sgdCore t.sgd = sgdCore s.sgd
  regs : RegsBut mbxRegs s t
  port : ∀ p, portCore (portGet t p) = portCore (portGet s p)

theorem Calm.refl (s : State) : Calm s s := ⟨rfl, rfl, rfl, regsBut_refl _ _, fun _ => rfl⟩

theorem Calm.trans {s t u : State} (h : Calm s t) (k : Calm t u) : Calm s u :=
  ⟨k.hst.trans h.hst, k.lkt.trans h.lkt, k.sgd.trans h.sgd, regsBut_trans h.regs k.regs, fun p => (k.port p).trans (h.port p)⟩

theorem Calm.fset {s t : State} (h : Calm s t) {f : Field} {v : Nat} (hf : f.addr ∈ mbxRegs) : Calm s (Sys2Proof.Machine.fset t f v) :=
  ⟨h.hst, h.lkt, h.sgd, regsBut_field h.regs f v hf, h.port⟩

theorem Calm.field {s t : State} (h : Calm s t) {f : Field} (hf : f.addr ∉ mbxRegs) : fget t f = fget s f := by
  rw [fget_eq, fget_eq]; exact field_of_regsBut h.regs hf

theorem lktTake_core (l : Lkt) (b c t p q r v : Nat) : lktCore (lktTake l b c t p q r v) = lktCore l := by
  unfold lktTake; dsimp only; split <;> rfl

theorem fset_calm (s : State) (f : Field) (v : Nat) : lktCore (fset s f v).lkt = lktCore s.lkt ∧ (fset s f v).sgd = s.sgd := ⟨rfl, rfl⟩

theorem lktAccept_calm (s : State) (c t p1 p2 p3 p4 : Nat) :
    lktCore (lktAccept s c t p1 p2 p3 p4).lkt = lktCore s.lkt ∧ (lktAccept s c t p1 p2 p3 p4).sgd = s.sgd := by
  unfold lktAccept
  have h0 : lktCore (if s.lkt.lostNew ≠ 0 ∧ lktRoom s.lkt = true then
      { lktTake s.lkt s.tmb.boots (lktCode 22 1 false) t s.lkt.lostNew 0 0 0 with lostNew := 0 } else s.lkt) = lktCore s.lkt := by
    have h := lktTake_core s.lkt s.tmb.boots (lktCode 22 1 false) t s.lkt.lostNew 0 0 0
    generalize lktTake s.lkt s.tmb.boots (lktCode 22 1 false) t s.lkt.lostNew 0 0 0 = k at h ⊢
    split
    · exact h
    · rfl
  dsimp only
  generalize (if s.lkt.lostNew ≠ 0 ∧ lktRoom s.lkt = true then _ else s.lkt) = l at h0 ⊢
  split
  · exact ⟨(lktTake_core _ _ _ _ _ _ _ _).trans h0, rfl⟩
  · have e : ∀ (u : State) (f g : Field) (v w : Nat), lktCore u.lkt = lktCore s.lkt → u.sgd = s.sgd →
        lktCore (fset (fset u f v) g w).lkt = lktCore s.lkt ∧ (fset (fset u f v) g w).sgd = s.sgd := fun u f g v w h1 h2 =>
      ⟨(fset_calm _ _ _).1.trans ((fset_calm _ _ _).1.trans h1), (fset_calm _ _ _).2.trans ((fset_calm _ _ _).2.trans h2)⟩
    exact e { s with lkt := { l with lostNew := l.lostNew + 1 } } _ _ _ _ h0 rfl

theorem supp_calm (s : State) (x : SMap Nat) (f g : Field) (v w : Nat) :
    lktCore (fset (fset { s with lkt := { s.lkt with supp := x } } f v) g w).lkt = lktCore s.lkt ∧
      (fset (fset { s with lkt := { s.lkt with supp := x } } f v) g w).sgd = s.sgd := ⟨rfl, rfl⟩

theorem post_core (s : State) (src ev : Nat) (priv : Bool) (p1 p2 p3 p4 : Nat) :
    lktCore (post s src ev priv p1 p2 p3 p4).lkt = lktCore s.lkt ∧ sgdCore (post s src ev priv p1 p2 p3 p4).sgd = sgdCore s.sgd := by
  have h := lktAccept_calm s (lktCode src ev priv) (now s) p1 p2 p3 p4
  unfold post
  split
  · split <;> exact ⟨rfl, rfl⟩
  · split
    · unfold fon finc fadd
      exact ⟨(supp_calm _ _ _ _ _ _).1, congrArg sgdCore (supp_calm _ _ _ _ _ _).2⟩
    · dsimp only
      generalize lktAccept s (lktCode src ev priv) (now s) p1 p2 p3 p4 = u at h
      generalize SMap.put u.lkt.rate src _ = w
      generalize (u.lkt.due || fbit s Fld.LKT_URGENT_MASK src) = d
      split
      · exact ⟨h.1, congrArg sgdCore h.2⟩
      · exact ⟨h.1, congrArg sgdCore h.2⟩

theorem post_calm (s : State) (src ev : Nat) (priv : Bool) (p1 p2 p3 p4 : Nat) : Calm s (post s src ev priv p1 p2 p3 p4) := by
  have hr : RegsBut mbxRegs s (post s src ev priv p1 p2 p3 p4) := regsBut_mono (post_regs _ _ _ _ _ _ _ _)
    fun a h => by simp only [mbxRegs, psRegs, List.mem_append]; exact .inl (.inl (.inl (.inr h)))
  have hh : (post s src ev priv p1 p2 p3 p4).hst = s.hst := (post_frame (m := 2098178) s src ev priv p1 p2 p3 p4 (by decide) (Same.refl _ s)).hst (by decide)
  exact ⟨congrArg hstCore hh, (post_core _ _ _ _ _ _ _ _).1, (post_core _ _ _ _ _ _ _ _).2, hr, fun p => by unfold portGet; rw [hh]⟩

theorem psSet_calm {s0 s : State} (h : Calm s0 s) (t : Nat) : Calm s0 (psSet s t) := by
  unfold psSet
  split
  · exact h
  · exact (h.fset (by decide)).trans (post_calm _ _ _ _ _ _ _ _)

theorem psDram_calm {s0 s : State} (h : Calm s0 s) (b : Bool) : Calm s0 (psRefreshDram s b) := by
  have hd : Calm s0 { s with hst := { s.hst with deep := b && effPs s == 4 } } := h.trans ⟨rfl, rfl, rfl, regsBut_congr _ rfl, fun _ => rfl⟩
  exact (hd.fset (f := Fld.DMC_CTRL_SELF_REFRESH) (by decide)).fset (f := Fld.DMC_STATUS_IN_SR) (by decide)

theorem psPort_calm {s0 s : State} (h : Calm s0 s) (p : Nat) : Calm s0 (psPort s p) := by
  have hu : Calm s (portUpd s p fun x => { x with idleAt := now s }) := ⟨rfl, rfl, rfl, regsBut_congr _ rfl, fun q => by
    have e : ∀ m : SMap Port, portCore (SMap.getD (SMap.upd m p fun x => { x with idleAt := now s }) q Port.reset) =
        portCore (SMap.getD m q Port.reset) := by
      intro m
      unfold SMap.upd
      split
      · rename_i v hv
        by_cases h : q = p
        · subst h; simp only [SMap.getD, SMap.find_put_self, hv]; rfl
        · simp only [SMap.getD, SMap.find_put_ne _ _ h]
      · rfl
    exact e _⟩
  unfold psPort
  dsimp only
  split
  · exact ((h.trans hu).fset (f := ⟨Reg.QEN_PS, 4 * p + 3, 1⟩) (show Reg.QEN_PS ∈ mbxRegs by decide)).fset (show Reg.QEN_PS ∈ mbxRegs by decide)
  · exact (h.fset (f := ⟨Reg.QEN_PS, 4 * p + 3, 1⟩) (show Reg.QEN_PS ∈ mbxRegs by decide)).fset (show Reg.QEN_PS ∈ mbxRegs by decide)

theorem psRefresh_calm (s : State) : Calm s (psRefresh s) := by
  have hp : Calm s ((List.range 4).foldl psPort s) := by
    have : ∀ (l : List Nat) (u : State), Calm s u → Calm s (l.foldl psPort u) := by
      intro l
      induction l with
      | nil => exact fun _ h => h
      | cons a l ih => exact fun u h => ih _ (psPort_calm h a)
    exact this _ _ (Calm.refl s)
  have ht : ∀ (u : State) (x : Option Nat), Calm u { u with hst := { u.hst with psTo := x } } := fun u x => ⟨rfl, rfl, rfl, regsBut_congr _ rfl, fun _ => rfl⟩
  unfold psRefresh
  dsimp only
  generalize (List.range 4).foldl psPort s = u at hp ⊢
  split
  · refine (psSet_calm (Calm.trans ?_ (ht _ none)) _).fset (by decide)
    split
    · exact psDram_calm (hp.fset (by decide)) _
    · exact hp
  · split
    · exact (hp.trans (ht _ none)).fset (by decide)
    · exact (hp.trans (ht _ _)).fset (by decide)

/-- An event that wakes the drive moves, of the host side, what an idle port moves and the port's request. -/
theorem psWake_hst (s : State) (p : Nat) : hstCore (psWake s p).hst = hstCore s.hst := by
  unfold psWake
  split
  · exact (psRefresh_calm _).hst.trans rfl
  · rfl

theorem psWake_regsCalm (s : State) (p : Nat) : RegsBut mbxRegs s (psWake s p) := by
  unfold psWake
  split
  · exact regsBut_trans (regsBut_congr _ rfl) (psRefresh_calm _).regs
  · exact regsBut_refl _ _

theorem chanPut_calm (s : State) (c : Nat) (x : Chan) : Calm s (chanPut s c x) := by
  have h : Calm s { s with mbx := { s.mbx with chans := SMap.put s.mbx.chans c x } } := ⟨rfl, rfl, rfl, regsBut_congr _ rfl, fun _ => rfl⟩
  unfold chanPut
  dsimp only
  split
  · rename_i hc
    refine h.fset ?_
    have : Reg.MBX_STATE (c / 8) ∈ (List.range 4).map Reg.MBX_STATE := List.mem_map_of_mem (List.mem_range.2 (by omega))
    simp only [mbxRegs, List.mem_append]
    exact .inl (.inl (.inr this))
  · exact h

theorem volleyDrop_calm (s : State) (c : Nat) : Calm s (volleyDrop s c) := by
  unfold volleyDrop
  dsimp only
  split
  · exact ((Calm.refl s).fset (f := Fld.MBX_COUNT_COUNT 4) (by decide)).trans (chanPut_calm _ _ _)
  · exact Calm.refl s

theorem mbxWrite_calm (s : State) (r : Rq) (opc : Nat) (sec : Bool) (cls : Cls) (a : Ans) (vfl : Nat) :
    Calm s (mbxWrite s r opc sec cls a vfl) := by
  have hsec : ∀ (o t n : Nat) (p : List Byte), Calm s (secure s o t n p).2 := by
    intro o t n p
    unfold secure
    split
    · rename_i x _
      have e : ∀ u : Spdm, Calm s { s with spdm := u } := fun u => ⟨rfl, rfl, rfl, regsBut_congr _ rfl, fun _ => rfl⟩
      exact (e _).fset (f := Fld.PVE_COUNT_COUNT 0) (by decide)
    · exact Calm.refl s
  have hms : ∀ (t : State) (p v : Nat), Calm t (msixSend t p v) := fun t p v => ⟨rfl, rfl, rfl, regsBut_congr _ rfl, fun _ => rfl⟩
  unfold mbxWrite
  dsimp only
  refine Calm.trans ?_ (psRefresh_calm _)
  have h1 : Calm s (if sec then secure s opc r.tag.toNat r.session a.pay else (a.pay, s)).2 := by
    split
    · exact hsec _ _ _ _
    · exact Calm.refl s
  have h2 : ∀ x, Calm s (if a.st = ST_DENIED then finc (chanPut (if sec then secure s opc r.tag.toNat r.session a.pay else (a.pay, s)).2 r.ch.val x) (Fld.MBX_COUNT_COUNT 1)
      else if a.st = ST_BAD_LENGTH then finc (chanPut (if sec then secure s opc r.tag.toNat r.session a.pay else (a.pay, s)).2 r.ch.val x) (Fld.MBX_COUNT_COUNT 2)
      else chanPut (if sec then secure s opc r.tag.toNat r.session a.pay else (a.pay, s)).2 r.ch.val x) := by
    intro x
    split
    · exact (h1.trans (chanPut_calm _ _ _)).fset (by decide)
    · split
      · exact (h1.trans (chanPut_calm _ _ _)).fset (by decide)
      · exact h1.trans (chanPut_calm _ _ _)
  split
  · exact (h2 _).trans (hms _ _ _)
  · exact h2 _

theorem mbxReply_calm (s : State) (r : Rq) (opc : Nat) (c : Caller) (a : Ans) (vfl : Nat) : Calm s (mbxReply s r opc c a vfl) := by
  unfold mbxReply
  split
  · exact mbxWrite_calm _ _ _ _ _ _ _
  · split
    · exact mbxWrite_calm _ _ _ _ _ _ _
    · exact (volleyDrop_calm _ _).trans (mbxWrite_calm _ _ _ _ _ _ _)

theorem mbxAnswer_calm (s : State) (r : Rq) (opc : Nat) (c : Caller) (a : Ans) : Calm s (mbxAnswer s r opc c a) := by
  unfold mbxAnswer sendSeg
  dsimp only
  split
  · exact mbxReply_calm _ _ _ _ _ _
  · exact (chanPut_calm _ _ _).trans (mbxReply_calm _ _ _ _ _ _)

/-- The answer of an accepted request: what the channel carries, whole or as the first segment of a volley. -/
theorem mbxAnswer_says {s : State} {r : Rq} {opc : Nat} {c : Caller} {a : Ans} (hs : stands s c) (ha : a.st = ST_OK) :
    gets (mbxAnswer s r opc c a) r.ch.val c a.pay := by
  unfold gets mbxAnswer
  split
  · rw [mbxReply_answer hs, ha]
  · unfold sendSeg
    dsimp only
    rw [mbxReply_answer (stands_congr (s := s) ?_ hs)]
    unfold chanPut
    dsimp only
    split <;> rfl

/-- An accepted request whose work completes: the response, and what stands after the work as the work left it. -/
theorem op_done {d : OpDef} {r : Rq} {s s1 s2 : State} {c : Caller} {p : List Byte} {a : Ans}
    (h : accepted d.opc d.hw r s = some (c, p, s1)) (hl : d.layout p = true) (hw : d.work r c p s1 = (some a, s2))
    (hs : s2.spdm = s1.spdm) (ho : a.st = ST_OK) :
    gets (mbxRun d r s) r.ch.val c a.pay ∧ Same 2100866 s2 (mbxRun d r s) ∧ Calm s2 (mbxRun d r s) := by
  obtain ⟨h1, h2, _⟩ := mbxRun_accepted (d := d) h
  rw [h1]
  unfold mbxAct
  rw [if_neg (by simp [hl]), hw]
  exact ⟨mbxAnswer_says (stands_congr hs h2) ho, mbxAnswer_frame _ _ _ _ _ (by decide) (Same.refl _ _), mbxAnswer_calm _ _ _ _ _⟩

/-- The same for an opcode without a volley of its own. -/
theorem opDef_done {opc : Nat} {layout : List Byte → Bool} {work : Caller → List Byte → State → Ans × State} {r : Rq}
    {s s1 : State} {c : Caller} {p : List Byte} (h : accepted opc false r s = some (c, p, s1)) (hl : layout p = true)
    (hs : (work c p s1).2.spdm = s1.spdm) (ho : (work c p s1).1.st = ST_OK) :
    gets (mbxRun (opDef opc layout work) r s) r.ch.val c (work c p s1).1.pay ∧
      Same 2100866 (work c p s1).2 (mbxRun (opDef opc layout work) r s) ∧ Calm (work c p s1).2 (mbxRun (opDef opc layout work) r s) :=
  op_done (d := opDef opc layout work) h hl rfl hs ho

/-- The same for an opcode that only reads. -/
theorem opRead_done {opc : Nat} {f : Caller → State → Ans} {r : Rq} {s s1 : State} {c : Caller}
    (h : accepted opc false r s = some (c, [], s1)) (ho : (f c s1).st = ST_OK) :
    gets (mbxRun (opRead opc f) r s) r.ch.val c (f c s1).pay ∧ Same 2100866 s1 (mbxRun (opRead opc f) r s) ∧
      Calm s1 (mbxRun (opRead opc f) r s) :=
  opDef_done (layout := fun p => p.isEmpty) (work := fun c _ s => (f c s, s)) h rfl rfl ho

/-- A short answer is whole. -/
theorem gets_short {t : State} {ch : Nat} {c : Caller} {b : List Byte} (h : gets t ch c b) (hb : b.length ≤ 4032) :
    answer t ch = some (ST_OK, b) := by
  unfold gets at h
  rwa [if_pos (Nat.le_trans hb (payCap_le c))] at h

end Sys2Proof.Machine
end

