-- ==== Sys2Proof/Laws/Admin.lean ====
section
/-! SUPPORT. How an admin command that has been fetched ends. -/
namespace Sys2Proof.Machine
set_option linter.all false
open Sys2Proof

theorem find_upd_self {α : Type} (m : SMap α) (k : Nat) (f : α → α) : SMap.find (SMap.upd m k f) k = (SMap.find m k).map f := by
  unfold SMap.upd
  split
  · rename_i v hv; simp [SMap.find_put_self, hv]
  · rename_i hv; simp [hv]

theorem find_upd_ne {α : Type} (m : SMap α) {k j : Nat} (f : α → α) (h : j ≠ k) : SMap.find (SMap.upd m k f) j = SMap.find m j := by
  unfold SMap.upd
  split
  · exact SMap.find_put_ne _ _ h
  · rfl

/-- The state in which the work of an admin command begins: its context runs. -/
def adminStart (s : State) (c : AdminCmd) : State := ctxUpd s (adminKey c) fun k => { k with st := .running }

theorem adminRun_go {s : State} {c : AdminCmd} {opc : Nat} {op : Nat → Bool} {f : State → Option Done × State} (h : adminGo s c opc)
    (ho : op opc = true) : adminRun s c op f = match f (adminStart s c) with | (some d, t) => adminEnd t (adminKey c) d | (none, t) => t := by
  obtain ⟨hr, _, k, hk, hs, hc⟩ := h
  unfold adminRun
  simp only [hk, hs, hc, ho, hr, beq_self_eq_true, Bool.and_self, if_true]
  rfl

theorem adminStart_ctx {s : State} {c : AdminCmd} {opc : Nat} (h : adminGo s c opc) :
    ∃ k, SMap.find (adminStart s c).hst.ctx (adminKey c) = some k ∧ k.st = .running ∧ k.opcode = opc := by
  obtain ⟨_, _, k, hk, _, hc⟩ := h
  exact ⟨{ k with st := .running }, by simp [adminStart, ctxUpd, find_upd_self, hk], rfl, hc⟩

/-- The end of a command whose context is open: status, dwords and data. -/
theorem adminEnd_says {u : State} {c : AdminCmd} {d : Done} {k : Ctx} (hk : SMap.find u.hst.ctx (adminKey c) = some k)
    (ho : ctxOpen k = true) (hd : d.dw1 = 0) :
    (d.status = 0 → adminSays (adminEnd u (adminKey c) d) c 0 d.dw0 d.out) ∧
    (d.dw0 = 0 → adminFails (adminEnd u (adminKey c) d) c d.status) := by
  unfold adminEnd
  refine ⟨fun h => ?_, fun h0 => ?_⟩
  · rw [if_pos h]
    refine ⟨_, by simp only [ctxUpd, ctxEnd, find_upd_self, hk]; rfl, ?_, rfl⟩
    simp [ho, hd]
  · split
    · rename_i h
      refine ⟨_, by simp only [ctxUpd, ctxEnd, find_upd_self, hk]; rfl, ?_⟩
      simp [ho, hd, h0, h]
    · rw [hk]
      refine ⟨_, by simp only [errLog, ctxUpd, ctxEnd, find_upd_self, hk]; rfl, ?_⟩
      simp [ho, hd, h0]

theorem adminEnd_port (u : State) (x : Nat) (d : Done) (hd : d.status = 0) (p : Nat) : portGet (adminEnd u x d) p = portGet u p := by
  unfold adminEnd
  rw [if_pos hd]
  rfl

/-- The end of a command changes contexts and the Error Information log. -/
theorem adminEnd_same (u : State) (x : Nat) (d : Done) : Same 2048 u (adminEnd u x d) := adminEnd_frame u x d (by decide) (Same.refl _ _)

/-- A command that only reads ends as its function gives. -/
theorem adminRead_says {s : State} {c : AdminCmd} {opc : Nat} {f : State → Done} (h : adminGo s c opc) (hd : (f (adminStart s c)).dw1 = 0)
    (hz : (f (adminStart s c)).status = 0) :
    adminSays (adminRead s c opc f) c 0 (f (adminStart s c)).dw0 (f (adminStart s c)).out ∧ Same 2048 s (adminRead s c opc f) := by
  obtain ⟨k, hk, hs, _⟩ := adminStart_ctx h
  unfold adminRead
  rw [adminRun_go h (by simp)]
  exact ⟨(adminEnd_says hk (by simp [ctxOpen, hs]) hd).1 hz,
    adminEnd_frame _ _ _ (by decide) (ctxUpd_frame (m := 2048) _ _ _ (by decide) (Same.refl _ _))⟩

end Sys2Proof.Machine
end

