-- ==== Sys2Proof/Laws/Images.lean ====
section
/-! SUPPORT. What the operations on firmware slots do to the state of boot and update. -/
namespace Sys2Proof.Machine
set_option linter.all false
open Sys2Proof

theorem slotLock_bot (s : State) (k : Nat) (b : Bool) : (slotLock s k b).bot = s.bot :=
  (slotLock_frame (m := 33554432) s k b (by decide) (Same.refl _ s)).bot (by decide)

theorem bcrPut_bot (s : State) (b : Bcr) : (bcrPut s b).bot = { s.bot with bcr := { b with seq := s.bot.bcr.seq + 1 } } := by
  unfold bcrPut
  simp only [fset_bot]

theorem sectorsErase_bot (s : State) (k n : Nat) : (sectorsErase s k n).bot = s.bot :=
  (sectorsErase_frame (m := 33554432) s k n (by decide) (Same.refl _ s)).bot (by decide)

/-- A prepared slot is not VALID, holds no image, and the boot control record is one update on. -/
theorem slotPrepare_bot (s : State) (k len : Nat) : (slotPrepare s k len).bot = { s.bot with
    bcr := { s.bot.bcr with valid := if slotValid s k then s.bot.bcr.valid - 2 ^ k else s.bot.bcr.valid, seq := s.bot.bcr.seq + 1 }
    img := SMap.del s.bot.img k } := by
  unfold slotPrepare
  simp only [sectorsErase_bot, bcrPut_bot, slotLock_bot, slotValid]
  rfl

theorem slotPrepare_spdm (s : State) (k len : Nat) : (slotPrepare s k len).spdm = s.spdm :=
  (slotPrepare_frame (m := 100663298) s k len (by decide) (Same.refl _ s)).spdm (by decide)

theorem dlPut_spdm (s : State) (o : Nat) (b : List Byte) : (dlPut s o b).spdm = s.spdm := rfl

theorem dlPut_bot (s : State) (o : Nat) (b : List Byte) : (dlPut s o b).bot =
    { s.bot with dl := some { owner := o, bytes := b, whole := decide (512 ≤ b.length ∧ u32 b 64 ≤ b.length) } } := rfl

/-- A commit of a whole, checked image to the inactive slot. -/
theorem commitStore_inactive {s : State} {act : Nat} {warm : Bool} {d : Download} (h1 : s.bot.wr = none) (h2 : s.bot.dl = some d)
    (h3 : d.whole = true) (h4 : imageCheck s d.bytes = ST_OK) (h5 : slotBar s = ST_OK) :
    commitStore s (inactiveSlot s) act warm = (ST_OK, { s with bot := { s.bot with
      wr := some { slot := inactiveSlot s, act := act, warm := warm, image := parseImage d.bytes }, dl := none
      warmAt := if s.bot.recovery && act == 1 then some (now s + 100000000, 7) else s.bot.warmAt } }) := by
  have hk : ¬(1 < inactiveSlot s ∨ runningSlot s = some (inactiveSlot s)) := by
    unfold inactiveSlot
    split
    · rename_i k hr
      rw [hr]
      simp only [Option.some.injEq]
      omega
    · rename_i hr
      rw [hr]
      simp
  unfold commitStore
  rw [if_neg (by simp [h1]), if_neg hk, h2]
  simp [h3, h4, h5]

end Sys2Proof.Machine
end

