-- ==== Sys2Proof/Laws/Memory.lean ====
section
/-! SUPPORT. Every operation over the fabric's memories keeps them in their canonical form: rising addresses, no byte listed that reads as
an unlisted one does. -/
namespace Sys2Proof.Machine
open Sys2Proof

theorem Memory.wf_iff (m : SMap Byte) : Memory.wf m = true ↔ SMap.risesFrom 0 m = true ∧ ∀ e ∈ m, e.2 ≠ 0 := by
  simp [Memory.wf, SMap.wf]

theorem Memory.reset_wf : Memory.wf State.reset.fab.mem = true := rfl

/-- Storing one byte. -/
theorem Memory.putD_wf {m : SMap Byte} (h : Memory.wf m = true) (a : Nat) (v : Byte) : Memory.wf (SMap.putD m a 0 v) = true := by
  rw [Memory.wf_iff] at h ⊢
  unfold SMap.putD
  split
  · exact ⟨SMap.del_rises h.1, fun e he => h.2 e (SMap.mem_del he)⟩
  · rename_i hv
    exact ⟨SMap.put_rises (Nat.zero_le _) h.1, fun e he => (SMap.mem_put he).elim (fun q => q ▸ hv) (h.2 e)⟩

/-- Dropping bytes. -/
theorem Memory.keep_wf {m : SMap Byte} (h : Memory.wf m = true) (p : Nat → Byte → Bool) : Memory.wf (SMap.keep m p) = true := by
  rw [Memory.wf_iff] at h ⊢
  exact ⟨SMap.keep_rises h.1, fun e he => h.2 e (List.mem_filter.1 he).1⟩

/-- Storing bytes one after the other, wherever each goes. -/
theorem Memory.fold_wf (f : Nat → Nat) : ∀ (b : List Byte) (e : Nat × SMap Byte), Memory.wf e.2 = true →
    Memory.wf (b.foldl (fun (e : Nat × SMap Byte) x => (e.1 + 1, SMap.putD e.2 (f e.1) 0 x)) e).2 = true
  | [], _, h => h
  | _ :: b, _, h => Memory.fold_wf f b _ (Memory.putD_wf h _ _)

theorem memPut_wf {s : State} (h : Memory.wf s.fab.mem = true) (k : Nat) (b : List Byte) : Memory.wf (memPut s k b).fab.mem = true :=
  Memory.fold_wf id b (k, s.fab.mem) h

/-- A word that is written whole changes no byte by itself. -/
theorem sramWrote_fab (s : State) (r o n : Nat) : (sramWrote s r o n).fab = s.fab :=
  (sramWrote_frame (m := 524290) s r o n (by decide) (Same.refl _ s)).fab (by decide)

theorem sramFold_fab (f : State → Nat → Nat) (g : Nat → Nat) :
    ∀ (l : List Nat) (s : State), (l.foldl (fun s i => sramWrote s 0 (f s i) (g i)) s).fab = s.fab
  | [], _ => rfl
  | i :: l, s => (sramFold_fab f g l _).trans (sramWrote_fab s 0 (f s i) (g i))

theorem handleWrite_wf {s : State} (h : Memory.wf s.fab.mem = true) (k : Nat) (b : List Byte) :
    Memory.wf (handleWrite s k b).fab.mem = true := by
  unfold handleWrite
  split
  · exact h
  · refine Memory.fold_wf (fun o => 0x20000000 + handleAddr _ k o) _ (0, _) ?_
    show Memory.wf (List.foldl _ s _).fab.mem = true
    rw [sramFold_fab (fun s i => handleAddr s k (4608 * i)) (fun i => min 4608 (min b.length (handleCap s k) - 4608 * i))]
    exact h

theorem strideClear_wf {s : State} (h : Memory.wf s.fab.mem = true) (k i : Nat) : Memory.wf (strideClear s k i).fab.mem = true :=
  Memory.keep_wf h fun a _ => decide (a < _ ∨ _ ≤ a)

/-- What DRAM keeps through a reset of the compute die. -/
theorem dramKept_wf {s : State} (h : Memory.wf s.fab.mem = true) (warm : Bool) : Memory.wf (dramKept s warm) = true := by
  cases warm
  · rfl
  · exact Memory.keep_wf h fun a _ => decide (1099511627776 ≤ a)

theorem sramZero_wf {s : State} (h : Memory.wf s.fab.mem = true) : Memory.wf (sramZero s).fab.mem = true :=
  Memory.keep_wf h fun a _ => decide (1099511627776 ≤ a)

end Sys2Proof.Machine
end

