-- ==== Sys2Proof/Laws/Units.lean ====
section
/-! SUPPORT. A unit's header as it is written passes the check it is read with (R296, R303). -/
namespace Sys2Proof.Machine
open Sys2Proof

theorem crcShift_lt {n c : Nat} (h : c < 2 ^ 32) : crcShift n c < 2 ^ 32 := by
  induction n generalizing c with
  | zero => exact h
  | succ n ih =>
    refine ih ?_
    split
    · exact Nat.xor_lt_two_pow (by omega) (by decide)
    · omega

theorem crcRun_lt {p : List Byte} {c : Nat} (h : c < 2 ^ 32) : crcRun p c < 2 ^ 32 := by
  induction p generalizing c with
  | nil => exact h
  | cons b p ih =>
    exact ih (crcShift_lt (Nat.xor_lt_two_pow h (Nat.lt_of_lt_of_le b.isLt (by decide))))

theorem crc32_lt (p : List Byte) : crc32 p < 2 ^ 32 := Nat.xor_lt_two_pow (crcRun_lt (by decide)) (by decide)

/-- The payload lies above the header. -/
theorem infoOf_payload {h p : Nat} (hh : h < 2 ^ 224) : infoOf h p >>> 256 = p := by
  have := crc32_lt (le 28 h ++ le 4096 p)
  rw [infoOf, Nat.shiftRight_eq_div_pow]
  generalize crc32 (le 28 h ++ le 4096 p) = c at *
  omega

/-- The CRC lies in the header's last four bytes (R296). -/
theorem infoOf_crc {h p : Nat} (hh : h < 2 ^ 224) : bits (infoOf h p) 224 32 = crc32 (le 28 h ++ le 4096 p) := by
  have := crc32_lt (le 28 h ++ le 4096 p)
  rw [infoOf, bits, Nat.shiftRight_eq_div_pow]
  generalize crc32 (le 28 h ++ le 4096 p) = c at *
  omega

/-- The header without its CRC. -/
theorem infoOf_header {h p : Nat} (hh : h < 2 ^ 224) : infoOf h p % 2 ^ 224 = h := by
  rw [infoOf]
  generalize crc32 (le 28 h ++ le 4096 p) = c
  omega

/-- A header as written has a CRC that matches (R296, R303). -/
theorem infoCrcOk_infoOf {h p : Nat} (hh : h < 2 ^ 224) (hp : p < 2 ^ 32768) : infoCrcOk (infoOf h p) = true := by
  rw [infoCrcOk, infoOf_crc hh, infoOf_header hh, bits, infoOf_payload hh, Nat.mod_eq_of_lt hp]
  exact beq_self_eq_true _

/-- The fields of a header as written. -/
theorem infoOf_bits {h p lo w : Nat} (hh : h < 2 ^ 224) (hw : lo + w ≤ 224) : bits (infoOf h p) lo w = bits h lo w := by
  apply Nat.eq_of_testBit_eq
  intro i
  simp only [bits, Nat.testBit_mod_two_pow, Nat.testBit_shiftRight]
  by_cases hi : i < w
  · have e := congrArg (fun v => v.testBit (lo + i)) (infoOf_header (p := p) hh)
    simp only [Nat.testBit_mod_two_pow, show lo + i < 224 by omega, decide_true, Bool.true_and] at e
    rw [e]
  · simp [hi]

/-- What the header check looks at in a header as written: LADDR and the slice (R303). -/
theorem headerOk_infoOf {s : State} {c : Ctx} {k : CUnit} {h p : Nat} (hh : h < 2 ^ 224) (hp : p < 2 ^ 32768) :
    headerOk s c k (infoOf h p) = (bits h 0 64 == laddrOf s c.nsid k.unit &&
      (match SMap.find s.zne.ns c.nsid with | some n => bits h 128 16 == n.slice | none => false)) := by
  rw [headerOk, headerFor, infoCrcOk_infoOf hh hp, infoLaddr, infoSlice, infoOf_bits hh (by decide), infoOf_bits hh (by decide), Bool.true_and]
  first | done | (cases SMap.find s.zne.ns c.nsid <;> rfl)

/-- The same, of a payload that is a small number. -/
theorem headerOk_small {s : State} {c : Ctx} {k : CUnit} {h p : Nat} (hh : h < 2 ^ 224) (hp : p < 32768)
    (ha : (bits h 0 64 == laddrOf s c.nsid k.unit &&
      (match SMap.find s.zne.ns c.nsid with | some n => bits h 128 16 == n.slice | none => false)) = true) :
    headerOk s c k (infoOf h p) = true :=
  (headerOk_infoOf hh (Nat.lt_trans hp (@Nat.lt_two_pow_self 32768))).trans ha

/-- A unit of a page that is programmed. -/
theorem unitAt_of {s : State} {die block page unit : Nat} {us : List Nat} (h : SMap.find s.med.pages (pageKey die block page) = some us) :
    unitAt s die block page unit = us.getD unit 0 := by
  rw [unitAt, h]

end Sys2Proof.Machine
end

