-- ==== Sys2Proof/Machine/HostView.lean ====
section
/-! DEFINITION. What a host reads of a port: the registers of BAR0, the doorbell pages of BAR2, the channel windows of BAR4, and what
configuration space presents (R43–R45, R125, R130). No command of the table is such a read: these functions say what one returns. -/
namespace Sys2Proof.Machine
open Sys2Proof

/-! ### Configuration space (R125) -/

/-- The capabilities of R125's table, and the class code. -/
inductive PcieCap where
  | pasid | doe | msix | flr | aer | ecrc | aspmL1 | l0p | aspmL0s | l1Substates | msi | intx | srIov | ats | pri
deriving DecidableEq, Repr

/-- Configuration space holds the capability; one that the table marks as not supported is absent. -/
def PcieCap.present : PcieCap → Bool
  | .pasid | .doe | .msix | .flr | .aer | .ecrc | .aspmL1 | .l0p => true
  | .aspmL0s | .l1Substates | .msi | .intx | .srIov | .ats | .pri => false

/-- NVM Express I/O controller. -/
def pcieClass : Nat := 0x010802

/-- Tags of 14 bits; PASIDs of 20; non-posted requests outstanding; MSI-X vectors. -/
def pcieTagBits : Nat := 14
def pciePasidBits : Nat := 20
def pcieOutstanding : Nat := 2048
def msixVectors : Nat := 2048

/-- Max_Payload_Size and Max_Read_Request_Size that a host may set, in bytes. -/
def mpsOk (n : Nat) : Bool := [128, 256, 512].contains n
def mrrsOk (n : Nat) : Bool := [128, 256, 512, 1024, 2048, 4096].contains n

/-! ### BAR0 (R43, R130) -/

/-- CAP, 64 bits: MQES, CQR, AMS, TO, DSTRD, CSS (the NVM command set, and I/O command sets), MPSMIN and MPSMAX. The values are R130's;
their places in the word are those of the NVMe base specification, which R43 names (PRESUMED). -/
def nvmeCap : Nat := 0xFFFF + 65536 * 1 + 2 ^ 24 * 1 + 2 ^ 37 * (1 + 64)

/-- CC as the host reads it: EN and SHN of the port; the queue entry sizes are those of R130. -/
def nvmeCc (x : Port) : Nat := b2n x.en + 16384 * b2n x.shn + 2 ^ 16 * 6 + 2 ^ 20 * 4

/-- CSTS: RDY, CFS, SHST. -/
def nvmeCsts (x : Port) : Nat := b2n x.rdy + 2 * b2n x.cfs + 4 * x.shst

/-- The sizes of the admin queues, 0's based; 0 while there are none. -/
def nvmeAqa (s : State) (p : Nat) : Nat :=
  let n := match SMap.find s.hst.sqs (p * 65536) with | some q => q.size - 1 | none => 0
  let m := match SMap.find s.hst.cqs (p * 65536) with | some q => q.size - 1 | none => 0
  n + 65536 * m

/-- A 4-byte word of BAR0. A register of the NVMe base specification whose value no rule gives is open, and so are the MSI-X table and
its pending bits, by what the host has written (R43). -/
def bar0Read (s : State) (p off : Nat) : Nat :=
  if off = 0 then nvmeCap % 2 ^ 32
  else if off = 4 then nvmeCap / 2 ^ 32
  else if off = 0x14 then nvmeCc (portGet s p)
  else if off = 0x1C then nvmeCsts (portGet s p)
  else if off = 0x24 then nvmeAqa s p
  else if off < 0x1008 then Config.nvmeReg p off
  else if off < 0x10000 then 0
  else if off < 0x18100 then Config.msixTable (portGet s p).msix off
  else 0

/-! ### BAR2 and BAR4 (R43, R45, R98) -/

/-- A doorbell page is live on a port: its slice is bound there. -/
def pageLive (s : State) (p n : Nat) : Bool :=
  match SMap.find s.slm.slices n with
  | some x => (SMap.find x.slots p).isSome
  | none => false

/-- A word of BAR2: 0 on the page of a slice that is not bound, and in the reserved part; a doorbell that is read gives an open
value. -/
def bar2Read (s : State) (p off : Nat) : Nat :=
  if !pageLive s p (off / 4096) || decide (512 ≤ off % 4096) then 0 else Config.nvmeReg p (0x40000 + off)

/-- A word of BAR4: the window of a channel as it stands. -/
def bar4Read (s : State) (p off : Nat) : Nat := u32 (slice (chanGet s (8 * p + off / 4096)).win (off % 4096) 4) 0

/-- What a 4-byte read of a port's BAR returns; none where it has no such offset, or the port is not reachable (R43, R123). -/
def barRead (s : State) (p bar off : Nat) : Option Nat :=
  if !linkUp s p || decide (off % 4 ≠ 0) then none
  else if bar = 0 ∧ off < 0x40000 then some (bar0Read s p off)
  else if bar = 2 ∧ off < 0x400000 then some (bar2Read s p off)
  else if bar = 4 ∧ off < 0x8000 then some (bar4Read s p off)
  else none

end Sys2Proof.Machine
end

