-- ==== Sys2Proof/Tests/Slice0.lean ====
section
/-! SUPPORT. Tests: ill-formed commands that the check refuses, single steps whose results are worked from the rules, and for every
statement with hypotheses a witness: concrete states and operands that meet the hypotheses of each clause. -/
set_option maxRecDepth 20000

/-! ### Well-formedness: an ill-formed command for each check, which the check refuses -/

namespace Sys2Proof.Tests
set_option linter.all false
open Sys2Proof Sys2Proof.Machine

def plainRq : Rq := { ch := 0, flags := 1, tag := 0, plen := 4, session := 0, payload := [0, 0, 0, 0], opened := none }
def plainAdmin : AdminCmd := { port := 0, cid := 1, nsid := 1, prp1 := 0, cdw10 := 0, cdw11 := 0, cdw12 := 0, cdw13 := 0, cdw14 := 0, cdw15 := 0, data := [] }
def plainIo : IoCmd := { port := 0, qid := 1, cid := 1, nsid := 1, slba := 0, nlb := 0, cdw3 := 0, cdw12 := 0, cdw13 := 0, ptr := .prp, dmaLo := 0, dmaHi := 0, data := [] }

theorem wf_plain : (Instr.getCaps plainRq).wf = true ∧ (Instr.identify plainAdmin).wf = true ∧ (Instr.nvmeRead plainIo).wf = true ∧
    (Instr.registerWrite (.pair 0) 0xFFFFFFFF 0 4).wf = true ∧ (Instr.dramScrubRead ⟨[(9, 16)], .plain⟩).wf = true := by decide
theorem ill_payload : (Instr.getCaps { plainRq with payload := List.replicate 4065 0 }).wf = false := by decide +kernel
theorem ill_session : (Instr.getCaps { plainRq with session := 4294967296 }).wf = false := by decide
theorem ill_plen : (Instr.getCaps { plainRq with plen := 4294967296 }).wf = false := by decide
theorem ill_admin_cid : (Instr.identify { plainAdmin with cid := 65536 }).wf = false := by decide
theorem ill_admin_nsid : (Instr.identify { plainAdmin with nsid := 4294967296 }).wf = false := by decide
theorem ill_io_cid : (Instr.nvmeRead { plainIo with cid := 65536 }).wf = false := by decide
theorem ill_io_qid : (Instr.nvmeRead { plainIo with qid := 65536 }).wf = false := by decide
theorem ill_io_nsid : (Instr.nvmeRead { plainIo with nsid := 4294967296 }).wf = false := by decide
theorem ill_io_slba : (Instr.nvmeRead { plainIo with slba := 2 ^ 64 }).wf = false := by decide
theorem ill_io_nlb : (Instr.nvmeRead { plainIo with nlb := 65536 }).wf = false := by decide
theorem ill_io_range : (Instr.nvmeRead { plainIo with dmaLo := 1 }).wf = false := by decide
theorem ill_memory_device : (Instr.dramScrubRead ⟨[(10, 1)], .plain⟩).wf = false := by decide
theorem ill_memory_symbols : (Instr.dramScrubRead ⟨[(0, 17)], .plain⟩).wf = false := by decide
theorem ill_memory_none : (Instr.dramScrubRead ⟨[(0, 0)], .plain⟩).wf = false := by decide
theorem ill_write_address : (Instr.registerWrite (.pair 0) 4294967296 0 4).wf = false := by decide
theorem ill_write_size : (Instr.registerWrite (.pair 0) 0 0 8).wf = false := by decide
theorem ill_read_address : (Instr.latchedLoRead (.pair 0) 4294967296 4).wf = false := by decide
theorem ill_read_size : (Instr.latchedLoRead (.pair 0) 0 3).wf = false := by decide

/-! ### Words and steps -/

/-- No row of the table has bits. -/
theorem test_no_word : decodeTableWord 32 0xFFFFFFFF = none := by decide

/-- CRC-32 of the nine bytes "123456789": the published check value of the IEEE 802.3 polynomial (R296). -/
theorem test_crc32 : crc32 [49, 50, 51, 52, 53, 54, 55, 56, 57] = 0xCBF43926 := by decide +kernel

def nextOf (o : Host.Outcome Machine.State Machine.Fault Machine.Refusal) : Option Machine.State := match o with | .next t => some t | _ => none

/-- The front command runs with the rest of the queue: of two sags, one has happened and one waits. -/
theorem test_queue : (nextOf (Machine.step { State.reset with pending := [.sagEnter 0, .svcBypass 7] })).map (fun t => (t.pending, fget t Fld.SGD_EVENTS_SAG)) =
    some ([.svcBypass 7], 1) := by decide +kernel

end Sys2Proof.Tests

/-! ### Witnesses -/

namespace Sys2Proof.Tests
set_option linter.all false
open Sys2Proof Sys2Proof.Machine

/-- A state with these register fields set. -/
def put (l : List (Field × Nat)) (s : Machine.State) : Machine.State := l.foldl (fun s e => fset s e.1 e.2) s

/-- Firmware runs, the supplies are on. -/
def up : Machine.State :=
  { State.reset with bot := { Bot.reset with run := true }, sgd := { Sgd.reset with pwrEn := true, pgood := true, released := true } }

/-- Port 0's link is up and its controller ready. -/
def port0 : Port := { Port.reset with perst := false, quiet := false, trained := 3, en := true, rdy := true }
def linked : Machine.State := put [(Fld.HPT_LINK_DL_UP 0, 1)] { up with hst := { Hst.reset with ports := [(0, port0)] } }

/-- A session of class `c` on the sideband, and a caller and a request in it. -/
def sessOf (c : Cls) : Session := { path := .sideband, cls := c, hbS := 0, beat := 0, seqIn := 0, seqOut := 0, keyGen := 0, slots := [16, 17, 18] }
def withSess (c : Cls) (s : Machine.State) : Machine.State :=
  put [(Fld.SBD_CTRL_EN, 1), (Fld.MBX_CTRL_SB_EN, 1)] { s with spdm := { Spdm.reset with sessions := [(7, sessOf c)] } }
def sess (c : Cls) : Machine.State := withSess c up
def cal (c : Cls) : Caller := { ch := 32, cls := c, slice := none, session := 7 }
def rq (b : List Byte) : Rq :=
  { ch := 32, flags := 1, tag := 5, plen := b.length + 32, session := 7, payload := le 4 7 ++ le 8 0 ++ le 2 (b.length + 18) ++ zeros (b.length + 18), opened := some b }
/-- A request without a session on the sideband. -/
def rq0 (b : List Byte) : Rq := { ch := 32, flags := 1, tag := 5, plen := b.length, session := 0, payload := b, opened := none }

/-- The state an accepted request's work begins in. -/
def after (o : Nat) (hw : Bool) (r : Rq) (s : Machine.State) : Machine.State :=
  match accepted o hw r s with | some x => x.2.2 | none => s
theorem acc {o : Nat} {hw : Bool} {r : Rq} {s : Machine.State} {c : Caller} {p : List Byte}
    (h : (accepted o hw r s).map (fun x => (x.1, x.2.1)) = some (c, p)) : accepted o hw r s = some (c, p, after o hw r s) := by
  unfold after
  cases e : accepted o hw r s with
  | none => rw [e] at h; cases h
  | some x => rw [e] at h; obtain ⟨a, b, d⟩ := x; cases h; rfl

/-- A slice with nothing bound, and states that hold one as slice 3. -/
def sl0 : Slice :=
  { resetting := false, since := 0, cause := 0, pasid := 77, dmaBase := 0, dmaLimit := 0xFFFFFFF, iso := false, groups := [], xte := [],
    shares := { weight := 1, cap := 0, lat := 0, power := 10 }, next := none, slots := [], resets := 0, lastReset := 0, bytes := 0, lastBytes := 0,
    mask := 1, dflt := 0, duR := 0, duW := 0, cmdR := 0, cmdW := 0 }
def withSl (x : Slice) (s : Machine.State) : Machine.State := { s with slm := { s.slm with slices := [(3, x)] } }
def ns0 : Ns := { slice := 3, zoned := false, zlog := 0, lbaf := 0, cap := 1024, maxOpen := 0, maxAct := 0, base := 0 }
def nsZ : Ns := { slice := 3, zoned := true, zlog := 28, lbaf := 0, cap := 65536, maxOpen := 1, maxAct := 1, base := 0 }
def withNs (n : Ns) (s : Machine.State) : Machine.State := { s with zne := { s.zne with ns := [(49, n)] } }
def withKey (k : KSlot) (s : Machine.State) : Machine.State := { s with kst := { s.kst with slots := [(64, k)] } }
def key0 : KSlot := { st := 1, typ := 4, origin := 1, active := 0, gen := 1, slice := 0, nsid := 0, buf0 := zeros 64, buf1 := [] }
/-- What an event append gives. -/
def ev (s : Machine.State) (l : List MItem) : Machine.State := match eventAppend s l with | some u => u | none => s
theorem ev_eq {s : Machine.State} {l : List MItem} (h : (eventAppend s l).isSome = true) : eventAppend s l = some (ev s l) := by
  unfold ev
  cases e : eventAppend s l with
  | none => rw [e] at h; cases h
  | some u => rfl

/-- A write in progress with one unit, and a read. -/
def unit0 : CUnit := { unit := 0, lba := 0, n := 1, loc := .zero, st := .waiting, blocks := [5], tries := 0, inst := 0, latch := some 0 }
def wr0 : WRange := { nsid := 49, zone := 0, start := 0, len := 1, seq := 1, zoned := false, cls := 0, life := 0 }
def wctx : Ctx :=
  { port := 0, qid := 1, cid := 1, opcode := 1, slice := some 3, surplus := false, st := .running, arrived := 0, lat := 0, deadline := 100000000,
    range := some wr0, units := [unit0], nsid := 49, inst := 0, aer := false, out := [] }
def rctx : Ctx := { wctx with opcode := 2, range := none }


/-- An image whose form is right: no stage code, and 98,368 bytes of microcode. -/
def imgB : List Byte :=
  [0x53, 0x4C, 0x4E, 0x46] ++ le 2 1 ++ le 2 512 ++ le 4 1 ++ le 4 1 ++ zeros 24 ++ le 4 512 ++ zeros 4 ++ le 4 512 ++ zeros 4 ++ le 4 512 ++
    le 4 98368 ++ le 4 98880 ++ zeros 444 ++ zeros 98368
/-- A customer set of no words. -/
def ucB : List Byte := le 2 1 ++ zeros 2 ++ le 2 Image.factory.abi ++ zeros 6 ++ le 2 2 ++ zeros 50 ++ [0x30, 0] ++ zeros 96

end Sys2Proof.Tests

namespace Sys2Proof.Tests.W19
set_option linter.all false
open Sys2Proof Sys2Proof.Machine

/-- States that meet the hypotheses of StepTakesTheFront, clause by clause. -/
theorem witness_StepTakesTheFront :
    (∃ (c : Instr) (l : List Instr) (s : Machine.State), s.pending = c :: l) ∧
    (∃ (s : Machine.State), s.pending = []) :=
  ⟨⟨.thermalTrip, [], { State.reset with pending := [.thermalTrip] }, by decide⟩,
   ⟨State.reset, by decide⟩⟩

/-- States that meet the hypotheses of FramesOfAllCommands, clause by clause. -/
theorem witness_FramesOfAllCommands :
    ∃ (c : Instr) (t : Machine.State) (s : Machine.State), Machine.exec c s = .next t :=
  ⟨.thermalTrip, State.reset, State.reset, rfl⟩

/-- States that meet the hypotheses of EveryStepKeepsCanon, clause by clause. -/
theorem witness_EveryStepKeepsCanon :
    ∃ (t : Machine.State) (s : Machine.State), Canon s ∧ Machine.step s = .next t :=
  ⟨State.reset, { State.reset with pending := [.thermalTrip] }, (by unfold Canon; decide), rfl⟩

/-- States that meet the hypotheses of DeviceTimeNeverDecreases, clause by clause. -/
theorem witness_DeviceTimeNeverDecreases :
    (∃ (t : Machine.State) (s : Machine.State), Machine.step s = .next t) ∧
    (∃ (v : Nat) (b : Nat) (c : Nat) (s : Machine.State), s.tmb.ceiling = some c ∧ now s ≤ c) :=
  ⟨⟨State.reset, { State.reset with pending := [.thermalTrip] }, rfl⟩,
   ⟨1200, 3500, 5, { State.reset with tmb := { Tmb.reset with time := 5, ceiling := some 5 } }, by decide⟩⟩

end Sys2Proof.Tests.W19

namespace Sys2Proof.Tests.W01
set_option linter.all false
open Sys2Proof Sys2Proof.Machine

def matE (w : Nat) (rs ws : Nat) (b : Bool) : Machine.State :=
  { State.reset with acm := { Acm.reset with matrix := [{ block := 27, word := w, readSet := rs, writeSet := ws, blind := b, fieldSet := 0, mask := 1 }] } }
def ent (w : Nat) (rs ws : Nat) (b : Bool) : MatEntry := { block := 27, word := w, readSet := rs, writeSet := ws, blind := b, fieldSet := 0, mask := 1 }
def specAt (a : Nat) : RegSpec × Nat := match regAt a with | some x => x | none => ((blockRegs 27).headD ⟨"", 0, [], []⟩, 0)

/-- States that meet the hypotheses of RegisterWriteByAccessCode, clause by clause. -/
theorem witness_RegisterWriteByAccessCode :
    (∃ (m : Master) (a : Nat) (v : Word) (n : Nat) (r : RegSpec) (k : Nat) (s : Machine.State), regAt a = some (r, k) ∧ decideWrite s (writerOf s m a) a n = .admitted 0 ∧ blockOf a ∈ [some 3, some 18, some 21, some 26, some 27, some 28] ∧ a ≠ Reg.SGN_APPEND ∧ perMaster a = false) :=
  ⟨.pair 7, Reg.TSN_TRIP, 0xFFFFFFFF, 4, (specAt Reg.TSN_TRIP).1, (specAt Reg.TSN_TRIP).2, State.reset, by decide⟩

/-- States that meet the hypotheses of MatrixDeniesWrites, clause by clause. -/
theorem witness_MatrixDeniesWrites :
    (∃ (m : Master) (a : Nat) (v : Word) (n : Nat) (c : Cls) (e : MatEntry) (s : Machine.State), writerOf s m a = .cls c ∧ matFind s a = some e ∧ e.writeSet.testBit (clsCode c) = false) :=
  ⟨.sideband, Reg.TSN_TRIP, 1, 2, .observer, ent 3 0x7F 0x77 false, matE 3 0x7F 0x77 false, by decide⟩

/-- States that meet the hypotheses of MatrixGovernsReads, clause by clause. -/
theorem witness_MatrixGovernsReads :
    (∃ (m : Master) (a : Nat) (n : Nat) (c : Cls) (e : MatEntry) (s : Machine.State), whoOf s m = .cls c ∧ matFind s a = some e ∧ e.readSet.testBit (clsCode c) = false ∧ e.blind = false) ∧
    (∃ (m : Master) (a : Nat) (n : Nat) (c : Cls) (e : MatEntry) (s : Machine.State), whoOf s m = .cls c ∧ matFind s a = some e ∧ e.readSet.testBit (clsCode c) = false ∧ e.blind = true) ∧
    (∃ (m : Master) (a : Nat) (n : Nat) (c : Cls) (e : MatEntry) (s : Machine.State), whoOf s m = .cls c ∧ matFind s a = some e ∧ e.readSet.testBit (clsCode c) = true ∧ reaches a n = true ∧ material a = false) :=
  ⟨⟨.sideband, Reg.TSN_TRIP, 1, .observer, ent 3 0x77 0 false, matE 3 0x77 0 false, by decide⟩,
   ⟨.sideband, Reg.TSN_TRIP, 4, .observer, ent 3 0x77 0 true, matE 3 0x77 0 true, by decide⟩,
   ⟨.sideband, Reg.TSN_TRIP, 4, .observer, ent 3 8 0 true, matE 3 8 0 true, by decide⟩⟩

/-- States that meet the hypotheses of UnlistedAndMaterialRegisters, clause by clause. -/
theorem witness_UnlistedAndMaterialRegisters :
    (∃ (m : Master) (a : Nat) (v : Word) (n : Nat) (c : Cls) (s : Machine.State), writerOf s m a = .cls c ∧ c ≠ .service ∧ matFind s a = none) ∧
    (∃ (m : Master) (a : Nat) (n : Nat) (c : Cls) (s : Machine.State), whoOf s m = .cls c ∧ c ≠ .service ∧ matFind s a = none) ∧
    (∃ (m : Master) (a : Nat) (n : Nat) (s : Machine.State), whoOf s m = .cls .service ∧ matFind s a = none ∧ memoryAddr a = false ∧ reaches a n = true ∧ material a = false) ∧
    (∃ (m : Master) (a : Nat) (n : Nat) (s : Machine.State), reaches a n = false ∧ (whoOf s m = .cls .service ∧ matFind s a = none ∧ memoryAddr a = false ∨ whoOf s m = .house ∧ inRom a n = false ∧ inRam s a n = false ∨ (∃ c e, whoOf s m = .cls c ∧ matFind s a = some e ∧ e.readSet.testBit (clsCode c) = true))) ∧
    (∃ (m : Master) (a : Nat) (v : Word) (n : Nat) (s : Machine.State), reaches a n = false ∧ (writerOf s m a = .cls .service ∧ matFind s a = none ∧ memoryAddr a = false ∨ writerOf s m a = .house ∧ inRam s a n = false ∨ (∃ c e, writerOf s m a = .cls c ∧ matFind s a = some e ∧ e.writeSet.testBit (clsCode c) = true))) ∧
    (∃ (m : Master) (a : Nat) (v : Word) (n : Nat) (s : Machine.State), writerOf s m a = .house ∧ reaches a n = false ∧ 0x10000000 ≤ a ∧ a + n ≤ 0x10400000 ∧ s.dmc.ues = [] ∧ s.dmc.flips = [] ∧ fone s Fld.MEP_INJ_CTRL_ARM = false) ∧
    (∃ (m : Master) (a : Nat) (n : Nat) (s : Machine.State), whoOf s m = .house ∧ reaches a n = false ∧ 0x10000000 ≤ a ∧ a + n ≤ 0x10400000 ∧ s.dmc.ues = [] ∧ s.dmc.flips = []) ∧
    (∃ (m : Master) (a : Nat) (n : Nat) (s : Machine.State), material a = true ∧ reaches a n = true) :=
  ⟨⟨.sideband, Reg.TSN_TRIP, 1, 4, .observer, State.reset, by decide⟩,
   ⟨.sideband, Reg.TSN_TRIP, 4, .observer, State.reset, by decide⟩,
   ⟨.svcPort, Reg.TSN_TRIP, 4, put [(Fld.ACM_SVC_STATE_UNLOCKED, 1)] State.reset, by decide⟩,
   ⟨.pair 0, 0x401CFFFC, 4, State.reset, by decide, .inr (.inl (by decide))⟩,
   ⟨.sideband, Reg.TSN_TRIP, 1, 2, matE 3 8 8 true, by decide, .inr (.inr ⟨.observer, ent 3 8 8 true, by decide⟩)⟩,
   ⟨.pair 0, 0x103FFFFE, 1, 2, State.reset, by decide⟩,
   ⟨.pair 0, 0x10000000, 8, State.reset, by decide⟩,
   ⟨.sideband, Reg.CLS_PW_0, 4, State.reset, by decide⟩⟩

/-- States that meet the hypotheses of LatchedPairs, clause by clause. -/
theorem witness_LatchedPairs :
    ∃ (m : Master) (lo : Nat) (hi : Nat) (s : Machine.State), (lo, hi) ∈ latchPairs ∧ decideRead s (whoOf s m) lo = .admitted 0 ∧ decideRead s (whoOf s m) hi = .admitted 0 :=
  ⟨.pair 0, Reg.TMB_TIME_LO, Reg.TMB_TIME_HI, { State.reset with tmb := { Tmb.reset with time := 2 ^ 40 + 7 } }, by decide⟩

/-- States that meet the hypotheses of MatrixLockAndCardQuery, clause by clause. -/
theorem witness_MatrixLockAndCardQuery :
    (∃ (m : Master) (s : Machine.State), decideWrite s (whoOf s m) Reg.ACM_CTRL = .admitted 0 ∧ fone s Fld.ACM_CTRL_LOCK = false) ∧
    (∃ (m : Master) (s : Machine.State), decideWrite s (whoOf s m) Reg.ACM_CTRL = .admitted 0 ∧ fone s Fld.ACM_CTRL_LOCK = true) ∧
    (∃ (m : Master) (v : Word) (s : Machine.State), decideWrite s (whoOf s m) Reg.ACM_CARD_QUERY = .admitted 0) :=
  ⟨⟨.pair 0, matE 3 8 0 true, by decide⟩,
   ⟨.pair 0, put [(Fld.ACM_CTRL_LOCK, 1)] State.reset, by decide⟩,
   ⟨.pair 0, 0x03000001, State.reset, by decide⟩⟩

end Sys2Proof.Tests.W01

namespace Sys2Proof.Tests.W02
set_option linter.all false
open Sys2Proof Sys2Proof.Machine

def chal : Machine.State := { up with svc := { Svc.reset with challenge := some (zeros 32, 0) } }
def hand : Handshake := { path := .doe 0, id := 9, hbS := 0, slots := [16, 17, 18] }

/-- States that meet the hypotheses of CorePairEvents, clause by clause. -/
theorem witness_CorePairEvents :
    (∃ (p : Fin 8) (q : Fin 8) (s : Machine.State), (pairSt s p.val = 1 ∨ pairSt s p.val = 2 ∨ pairSt s p.val = 5) ∧ q ≠ p ∧ (pairSt s q.val = 1 ∨ pairSt s q.val = 2) ∧ SMap.find s.acm.cards (midPair p.val) = none) ∧
    (∃ (p : Nat) (sp : Nat) (s : Machine.State), p < 8 ∧ (pairSt s p = 3 ∨ pairSt s p = 4) ∧ p ∉ s.fab.passed ∧ (∀ q, q < p → pairSt s q ≠ 3 ∧ pairSt s q ≠ 4 ∨ q ∈ s.fab.passed) ∧ fone s Fld.FCX_SPARE_TAKEOVER_EN = true ∧ fget s Fld.FCX_SPARE_SPARE_PAIR = sp ∧ pairSt s sp = 2) :=
  ⟨⟨0, 1, put [(pairField 0, 1), (pairField 1, 2)] up, by decide⟩,
   ⟨0, 5, put [(pairField 0, 4), (pairField 5, 2), (Fld.FCX_SPARE_SPARE_PAIR, 5), (Fld.FCX_SPARE_TAKEOVER_EN, 1)] up, by decide⟩⟩

/-- States that meet the hypotheses of TimeBase, clause by clause. -/
theorem witness_TimeBase :
    (∃ (s : Machine.State), pulsesBlocked s = false) ∧
    (∃ (c : Nat) (s : Machine.State), s.tmb.ceiling = some c ∧ pulsesBlocked s = true ∧ now s < c ∧ fone s Fld.TMB_STATUS_HELD = false) ∧
    (∃ (s : Machine.State), s.tmb.xtalStop = none) ∧
    (∃ (x : Nat) (s : Machine.State), s.tmb.xtalStop = some x) :=
  ⟨⟨State.reset, by decide⟩,
   ⟨61000000000, put [(Fld.CLS_STATUS_BLOCK_STEP8, 1)] { State.reset with tmb := { Tmb.reset with ceiling := some 61000000000 } }, by decide⟩,
   ⟨State.reset, by decide⟩,
   ⟨5, { State.reset with tmb := { Tmb.reset with time := 9, xtalStop := some 5 } }, by decide⟩⟩

/-- States that meet the hypotheses of SpdmResponder, clause by clause. -/
theorem witness_SpdmResponder :
    (∃ (p : SPath) (s : Machine.State), spdmUp s p = true) ∧
    (∃ (p : SPath) (s : Machine.State), spdmUp s p = true) ∧
    (∃ (p : SPath) (s : Machine.State), spdmUp s p = true) ∧
    (∃ (p : SPath) (s : Machine.State), spdmUp s p = true) ∧
    (∃ (p : SPath) (off : Nat) (len : Nat) (s : Machine.State), spdmUp s p = true) ∧
    (∃ (p : SPath) (nonce : List Byte) (s : Machine.State), spdmUp s p = true ∧ carded s midPke = false ∧ entropyBad s = false) ∧
    (∃ (p : SPath) (nonce : List Byte) (s : Machine.State), spdmUp s p = true ∧ carded s midPke = false ∧ entropyBad s = false) ∧
    (∃ (p : SPath) (code : Byte) (s : Machine.State), spdmUp s p = true ∧ spdmKnown code = false) ∧
    (∃ (p : SPath) (slot : Nat) (off : Nat) (len : Nat) (hb : Nat) (nonce : List Byte) (both : Bool) (s : Machine.State), spdmUp s p = true ∧ slot ≠ 0) :=
  ⟨⟨.doe 0, linked, by decide⟩,
   ⟨.doe 0, linked, by decide⟩,
   ⟨.doe 0, linked, by decide⟩,
   ⟨.doe 0, linked, by decide⟩,
   ⟨.doe 0, 0, 1024, linked, by decide⟩,
   ⟨.doe 0, zeros 32, put [(Fld.KST_DRBG_READY, 1)] linked, by decide⟩,
   ⟨.doe 0, zeros 32, put [(Fld.KST_DRBG_READY, 1)] linked, by decide⟩,
   ⟨.doe 0, 0xFF, linked, by decide⟩,
   ⟨.doe 0, 1, 0, 1024, 0, zeros 32, true, linked, by decide⟩⟩

/-- States that meet the hypotheses of SpdmSessions, clause by clause. -/
theorem witness_SpdmSessions :
    (∃ (p : SPath) (hb : Nat) (i : Nat) (s : Machine.State), spdmUp s p = true ∧ p ∈ s.spdm.agreed ∧ entropyBad s = false ∧ carded s midPke = false ∧ i < 16 ∧ i ∉ sessIdx s ∧ (∀ j, j < i → j ∈ sessIdx s)) ∧
    (∃ (p : SPath) (id : Nat) (root : List Byte) (h : Handshake) (c : Cls) (s : Machine.State), spdmUp s p = true ∧ s.spdm.hands.find? (fun h => h.id == id && h.path == p) = some h ∧ anchorCls s root = some c ∧ SMap.cnt s.spdm.sessions (fun _ x => x.cls == c) < 4) ∧
    (∃ (p : SPath) (id : Nat) (root : List Byte) (h : Handshake) (ok : Bool) (s : Machine.State), spdmUp s p = true ∧ s.spdm.hands.find? (fun h => h.id == id && h.path == p) = some h ∧ (ok = false ∨ anchorCls s root = none)) ∧
    (∃ (id : Nat) (x : Session) (s : Machine.State), SMap.find s.spdm.sessions id = some x ∧ spdmUp s x.path = true) ∧
    (∃ (id : Nat) (x : Session) (s : Machine.State), SMap.find s.spdm.sessions id = some x ∧ spdmUp s x.path = true) ∧
    (∃ (id : Nat) (x : Session) (s : Machine.State), SMap.find s.spdm.sessions id = some x ∧ spdmUp s x.path = true) ∧
    (∃ (id : Nat) (x : Session) (s : Machine.State), SMap.find s.spdm.sessions id = some x ∧ x.beat + x.hbS * 1000000000 ≤ now s) ∧
    (∃ (s : Machine.State), s.bot.run = true) :=
  ⟨⟨.doe 0, 10, 0, put [(Fld.KST_DRBG_READY, 1)] { linked with spdm := { Spdm.reset with agreed := [.doe 0] } }, by decide⟩,
   ⟨.doe 0, 9, zeros 48, hand, .manager, { linked with spdm := { Spdm.reset with hands := [hand] }, kst := { Kst.reset with mgrAnchor := some (zeros 48) } }, by decide⟩,
   ⟨.doe 0, 9, zeros 48, hand, true, { linked with spdm := { Spdm.reset with hands := [hand] } }, by decide⟩,
   ⟨7, sessOf .manager, sess .manager, by decide⟩,
   ⟨7, sessOf .manager, sess .manager, by decide⟩,
   ⟨7, sessOf .manager, sess .manager, by decide⟩,
   ⟨7, { sessOf .manager with hbS := 1 }, { up with tmb := { Tmb.reset with time := 1000000000 }, spdm := { Spdm.reset with sessions := [(7, { sessOf .manager with hbS := 1 })] } }, by decide⟩,
   ⟨up, by decide⟩⟩

/-- States that meet the hypotheses of ServicePort, clause by clause. -/
theorem witness_ServicePort :
    (∃ (s : Machine.State), s.bot.run = true ∧ entropyBad s = false) ∧
    (Config.serviceVerify chal.bot.svcKey (Config.sha384 (zeros 32)) (fit 96 []) = true → ∃ (u : Machine.State), fone chal Fld.ACM_SVC_STATE_BARRED = false ∧ fone chal Fld.ACM_SVC_STATE_UNLOCKED = false ∧ chal.bot.run = true ∧ chal.svc.challenge = some (zeros 32, 0) ∧ now chal ≤ 600000000000 ∧ Config.serviceVerify chal.bot.svcKey (Config.sha384 (zeros 32)) (fit 96 []) = true ∧ eventAppend { chal with svc := { chal.svc with challenge := none } } [{ comp := 0x0101, digest := Config.sha384 (zeros 32), version := chal.tmb.boots, svn := 0 }] = some u) ∧
    (Config.serviceVerify chal.bot.svcKey (Config.sha384 (zeros 32)) (fit 96 []) = false → fone chal Fld.ACM_SVC_STATE_BARRED = false ∧ fone chal Fld.ACM_SVC_STATE_UNLOCKED = false ∧ chal.bot.run = true ∧ chal.svc.challenge = some (zeros 32, 0) ∧ Config.serviceVerify chal.bot.svcKey (Config.sha384 (zeros 32)) (fit 96 []) = false) ∧
    (∃ (c : List Byte) (time : Nat) (s : Machine.State), s.svc.challenge = some (c, time) ∧ time + 600000000000 ≤ now s) :=
  ⟨⟨put [(Fld.KST_DRBG_READY, 1)] up, by decide⟩,
   fun h => ⟨_, by decide, by decide, by decide, by decide, by decide, h, Option.eq_some_of_isSome (by decide +kernel)⟩,
   fun h => ⟨by decide, by decide, by decide, by decide, h⟩,
   ⟨zeros 32, 0, { up with tmb := { Tmb.reset with time := 600000000000 }, svc := { Svc.reset with challenge := some (zeros 32, 0) } }, by decide⟩⟩

end Sys2Proof.Tests.W02

namespace Sys2Proof.Tests.W03
set_option linter.all false
open Sys2Proof Sys2Proof.Machine

def sbOn : Machine.State := put [(Fld.SBD_CTRL_EN, 1)] up
def vol : Volley := { inbound := true, opcode := 0x0A02, tag := 0, total := 8000, data := zeros 4064, sent := 0, cls := .manager, session := 0, blind := false, last := 0 }

/-- States that meet the hypotheses of SidebandDoeAndWindows, clause by clause. -/
theorem witness_SidebandDoeAndWindows :
    (∃ (eid : Byte) (s : Machine.State), sbUp s = true ∧ eid ≠ 0x00 ∧ eid ≠ 0xFF) ∧
    (∃ (s : Machine.State), sbUp s = true) ∧
    (∃ (s : Machine.State), sbUp s = true) ∧
    (∃ (s : Machine.State), sbUp s = true) ∧
    (∃ (dtyp : Nat) (port : Nat) (s : Machine.State), sbUp s = true) ∧
    (∃ (s : Machine.State), sbUp s = true) ∧
    (∃ (first : Nat) (count : Nat) (s : Machine.State), sbUp s = true) ∧
    (∃ (ty : Byte) (s : Machine.State), s.bot.run = true ∧ fone s Fld.SBD_CTRL_EN = true ∧ mctpKnown s ty.toNat = false) ∧
    (∃ (s : Machine.State), s.bot.run = true ∧ fone s Fld.SBD_CTRL_EN = true ∧ fone s Fld.SBD_CTRL_BUS = false) ∧
    (∃ (s : Machine.State), sbUp s = true ∧ fone s Fld.SBD_CTRL_BASIC_MI = true ∧ fone s Fld.SBD_CTRL_BUS = false) ∧
    (∃ (a : Nat) (s : Machine.State), s.bot.run = true ∧ fone s Fld.SBD_CTRL_EN = true ∧ fone s Fld.SBD_CTRL_BUS = true) ∧
    (∃ (p : Fin 4) (idx : Nat) (s : Machine.State), doeUp s p.val = true) ∧
    (∃ (p : Fin 4) (vid : Nat) (ty : Nat) (s : Machine.State), doeUp s p.val = true ∧ (vid ≠ 1 ∨ 2 < ty ∨ (ty ≠ 0 ∧ s.bot.recovery = true))) ∧
    (∃ (ch : Fin 32) (off : Nat) (bytes : List Byte) (s : Machine.State), chanReach s ch.val = true ∧ off < 4096 ∧ (chanGet s ch.val).go = false ∧ bytes ≠ [] ∧ doorbellRung (hostWrite s ch.val off bytes) ch.val off bytes = false) ∧
    (∃ (ch : Fin 32) (off : Nat) (bytes : List Byte) (t : Machine.State) (s : Machine.State), chanReach s ch.val = true ∧ off < 4096 ∧ (chanGet s ch.val).go = false ∧ t = hostWrite s ch.val off bytes ∧ doorbellRung t ch.val off bytes = true) ∧
    (∃ (ch : Fin 32) (off : Nat) (bytes : List Byte) (s : Machine.State), chanReach s ch.val = true ∧ off < 4096 ∧ (chanGet s ch.val).go = true) ∧
    (∃ (ch : Fin 33) (v : Volley) (s : Machine.State), (chanGet s ch.val).volley = some v ∧ (chanGet s ch.val).go = false ∧ v.last + max 1 (fget s Fld.MBX_VOLLEY_TIMEOUT_TIMEOUT_MS) * 1000000 ≤ now s) :=
  ⟨⟨0xFE, sbOn, by decide +kernel⟩,
   ⟨sbOn, by decide +kernel⟩,
   ⟨sbOn, by decide +kernel⟩,
   ⟨sbOn, by decide +kernel⟩,
   ⟨0, 0, sbOn, by decide +kernel⟩,
   ⟨sbOn, by decide +kernel⟩,
   ⟨0, 4, sbOn, by decide +kernel⟩,
   ⟨0x7F, sbOn, by decide +kernel⟩,
   ⟨put [(Fld.SBD_CTRL_BUS, 0)] sbOn, by decide +kernel⟩,
   ⟨put [(Fld.SBD_CTRL_BASIC_MI, 1), (Fld.SBD_CTRL_BUS, 0)] sbOn, by decide +kernel⟩,
   ⟨0x20, put [(Fld.SBD_CTRL_BUS, 1)] sbOn, by decide +kernel⟩,
   ⟨0, 0, linked, by decide +kernel⟩,
   ⟨0, 1, 3, linked, by decide +kernel⟩,
   ⟨0, 4095, [1, 2], linked, by decide +kernel⟩,
   ⟨0, 2, [1, 0], hostWrite linked 0 2 [1, 0], linked, by decide, by decide, by decide, rfl, by decide +kernel⟩,
   ⟨0, 4095, [1, 2], { linked with mbx := { Mbx.reset with chans := [(0, { Chan.reset with go := true })] } }, by decide +kernel⟩,
   ⟨32, vol, { up with tmb := { Tmb.reset with time := 10000000000 }, mbx := { Mbx.reset with chans := [(32, { Chan.reset with volley := some vol })] } }, by decide +kernel⟩⟩

end Sys2Proof.Tests.W03

namespace Sys2Proof.Tests.W04
set_option linter.all false
open Sys2Proof Sys2Proof.Machine

def carded1 (c : Card) (s : Machine.State) : Machine.State := { s with acm := { s.acm with cards := [(0x03000001, c)] } }
def card1 : Card := { code := 5, st := 2, drained := true, time := 0, codes := [5] }

/-- States that meet the hypotheses of DiscoveryOpcodes, clause by clause. -/
theorem witness_DiscoveryOpcodes :
    (∃ (r : Rq) (s1 : Machine.State) (c : Caller) (s : Machine.State), accepted 0x0001 false r s = some (c, [], s1)) ∧
    (∃ (r : Rq) (s1 : Machine.State) (c : Caller) (s : Machine.State), accepted 0x0002 false r s = some (c, [], s1)) ∧
    (∃ (r : Rq) (s1 : Machine.State) (c : Caller) (s : Machine.State), accepted 0x0003 false r s = some (c, [], s1)) ∧
    (∃ (r : Rq) (s1 : Machine.State) (c : Caller) (s : Machine.State), accepted 0x0004 false r s = some (c, [], s1)) ∧
    (∃ (r : Rq) (s1 : Machine.State) (c : Caller) (s : Machine.State), accepted 0x0005 false r s = some (c, [], s1)) ∧
    (∃ (opc : Nat) (r : Rq) (s : Machine.State), opc < 65536 ∧ opcKnown opc = false ∧ (mbxPost s r opc).1 = true ∧ pfail (mbxPost s r opc).2 = false ∧ r.session = 0 ∧ r.plen ≤ 4064 ∧ r.plen = (chanGet (mbxPost s r opc).2 r.ch.val).rcvd ∧ chanSlice (mbxPost s r opc).2 r.ch.val = none ∧ (mbxPost s r opc).2.bot.recovery = false) :=
  ⟨⟨rq [], after 0x0001 false (rq []) (sess .officer), cal .officer, sess .officer, acc (by decide)⟩,
   ⟨rq [], after 0x0002 false (rq []) (sess .officer), cal .officer, sess .officer, acc (by decide)⟩,
   ⟨rq [], after 0x0003 false (rq []) (sess .officer), cal .officer, sess .officer, acc (by decide)⟩,
   ⟨rq [], after 0x0004 false (rq []) (sess .officer), cal .officer, sess .officer, acc (by decide)⟩,
   ⟨rq [], after 0x0005 false (rq []) (sess .officer), cal .officer, sess .officer, acc (by decide)⟩,
   ⟨0xFFFF, rq0 [], sess .officer, by decide⟩⟩

/-- States that meet the hypotheses of CardAndRegisterOpcodes, clause by clause. -/
theorem witness_CardAndRegisterOpcodes :
    (∃ (id : Nat) (c : Card) (s : Machine.State), SMap.find s.acm.cards id = some c) ∧
    (∃ (r : Rq) (s1 : Machine.State) (c : Caller) (p : List Byte) (s : Machine.State), accepted 0x0B02 false r s = some (c, p, s1) ∧ p.length = 4 ∧ 1 ≤ u16 p 2 ∧ u16 p 2 ≤ 250) ∧
    (∃ (r : Rq) (s1 : Machine.State) (c : Caller) (p : List Byte) (d : Card) (s : Machine.State), accepted 0x0B01 false r s = some (c, p, s1) ∧ p.length = 8 ∧ midValid s1 (u32 p 0) = true ∧ SMap.find s1.acm.cards (u32 p 0) = some d ∧ d.st = 2 ∧ d.drained = true) ∧
    (∃ (r : Rq) (s1 : Machine.State) (c : Caller) (p : List Byte) (s : Machine.State), accepted 0x0B01 false r s = some (c, p, s1) ∧ p.length = 8) ∧
    (∃ (r : Rq) (s1 : Machine.State) (c : Caller) (p : List Byte) (s : Machine.State), accepted 0x0101 true r s = some (c, p, s1) ∧ p.length = 8 ∧ u16 p 0 = 1) ∧
    (∃ (r : Rq) (s1 : Machine.State) (c : Caller) (p : List Byte) (s : Machine.State), accepted 0x0102 true r s = some (c, p, s1) ∧ p.length = 12 ∧ u16 p 0 = 1) :=
  ⟨⟨0x03000001, { card1 with drained := false }, carded1 { card1 with drained := false } up, by decide⟩,
   ⟨rq (le 2 0 ++ le 2 250), after 0x0B02 false (rq (le 2 0 ++ le 2 250)) (carded1 card1 (sess .manager)), cal .manager, le 2 0 ++ le 2 250, carded1 card1 (sess .manager), acc (by decide), by decide⟩,
   ⟨rq (le 4 0x03000001 ++ zeros 4), after 0x0B01 false (rq (le 4 0x03000001 ++ zeros 4)) (carded1 card1 (sess .manager)), cal .manager, le 4 0x03000001 ++ zeros 4, card1, carded1 card1 (sess .manager), acc (by decide), by decide⟩,
   ⟨rq (le 4 0x03000001 ++ zeros 4), after 0x0B01 false (rq (le 4 0x03000001 ++ zeros 4)) (sess .manager), cal .manager, le 4 0x03000001 ++ zeros 4, sess .manager, acc (by decide), by decide⟩,
   ⟨rq (le 2 1 ++ zeros 6), after 0x0101 true (rq (le 2 1 ++ zeros 6)) (sess .officer), cal .officer, le 2 1 ++ zeros 6, sess .officer, acc (by decide), by decide⟩,
   ⟨rq (le 2 1 ++ zeros 10), after 0x0102 true (rq (le 2 1 ++ zeros 10)) (sess .officer), cal .officer, le 2 1 ++ zeros 10, sess .officer, acc (by decide), by decide⟩⟩

end Sys2Proof.Tests.W04

namespace Sys2Proof.Tests.W05
set_option linter.all false
open Sys2Proof Sys2Proof.Machine

def mk32 : List Byte := le 2 5 ++ [0, 0] ++ le 4 9 ++ le 8 0 ++ le 8 0x1FFF ++ [255, 3] ++ le 2 1014 ++ zeros 4
def ms : Machine.State := withSl sl0 (put [(Fld.HPT_LINK_DL_UP 0, 1)] (sess .manager))
def msSlot : Machine.State := withSl { sl0 with slots := [(0, 9)] } (put [(Fld.HPT_LINK_DL_UP 0, 1)] (sess .manager))
def clsE : ClassEnt := { ClassEnt.empty with valid := true }
def rawSel (s : Machine.State) : Machine.State := { s with sel := [(4294967296 * 0 + Reg.SLM_SEL, 3)] }
def nsP : List Byte := le 2 3 ++ [0, 0, 0] ++ zeros 3 ++ le 8 1024 ++ zeros 16
def clsP : List Byte := [63, 0, 0, 0] ++ zeros 16 ++ [1, 2, 3, 0] ++ zeros 12

/-- States that meet the hypotheses of SliceLife, clause by clause. -/
theorem witness_SliceLife :
    (∃ (r : Rq) (s1 : Machine.State) (c : Caller) (p : List Byte) (s : Machine.State), accepted 0x0201 false r s = some (c, p, s1) ∧ p.length = 32 ∧ u16 p 0 ≤ 1023 ∧ SMap.find s1.slm.slices (u16 p 0) = none ∧ createFits p = true ∧ SMap.anyv s1.slm.slices (fun _ x => x.pasid == u32 p 4 % 1048576) = false ∧ max (powerSum s1 (u16 p 0)) (powerNext s1 (u16 p 0)) + u16 p 26 ≤ 1024 ∧ ((u8 p 2).testBit 0 = true → (isoSet s1 (u8 p 3)).isSome = true)) ∧
    (∃ (r : Rq) (s1 : Machine.State) (c : Caller) (p : List Byte) (x : Slice) (s : Machine.State), accepted 0x0202 false r s = some (c, p, s1) ∧ p.length = 4 ∧ SMap.find s1.slm.slices (u16 p 0) = some x ∧ x.resetting = false ∧ x.slots = [] ∧ sliceNs s1 (u16 p 0) = []) ∧
    (∃ (r : Rq) (s1 : Machine.State) (c : Caller) (p : List Byte) (x : Slice) (s : Machine.State), accepted 0x0206 false r s = some (c, p, s1) ∧ p.length = 4 ∧ SMap.find s1.slm.slices (u16 p 0) = some x) :=
  ⟨⟨rq mk32, after 0x0201 false (rq mk32) (ms), cal .manager, mk32, ms, acc (by decide), by decide⟩,
   ⟨rq (le 4 3), after 0x0202 false (rq (le 4 3)) (ms), cal .manager, le 4 3, sl0, ms, acc (by decide), by decide⟩,
   ⟨rq (le 4 3), after 0x0206 false (rq (le 4 3)) (ms), cal .manager, le 4 3, sl0, ms, acc (by decide), by decide⟩⟩

/-- States that meet the hypotheses of SliceBindings, clause by clause. -/
theorem witness_SliceBindings :
    (∃ (r : Rq) (s1 : Machine.State) (c : Caller) (p : List Byte) (x : Slice) (v : Nat) (s : Machine.State), accepted 0x0203 false r s = some (c, p, s1) ∧ p.length = 8 ∧ SMap.find s1.slm.slices (u16 p 0) = some x ∧ x.resetting = false ∧ u8 p 2 ≤ 3 ∧ portThere s1 (u8 p 2) = true ∧ u16 p 4 ≤ 1023 ∧ (u8 p 3).testBit 0 = true ∧ SMap.find x.slots (u8 p 2) = none ∧ x.slots.length < 2 ∧ (if u16 p 4 = 0 then slotFree s1 (u8 p 2) else if slotHeld s1 (u8 p 2) (u16 p 4) then none else some (u16 p 4)) = some v) ∧
    (∃ (r : Rq) (s1 : Machine.State) (c : Caller) (p : List Byte) (x : Slice) (v : Nat) (s : Machine.State), accepted 0x0203 false r s = some (c, p, s1) ∧ p.length = 8 ∧ SMap.find s1.slm.slices (u16 p 0) = some x ∧ x.resetting = false ∧ u8 p 2 ≤ 3 ∧ portThere s1 (u8 p 2) = true ∧ (u8 p 3).testBit 0 = false ∧ SMap.find x.slots (u8 p 2) = some v ∧ boundOn s1 (u16 p 0) (u8 p 2) v = false) ∧
    (∃ (r : Rq) (s1 : Machine.State) (c : Caller) (p : List Byte) (x : Slice) (s : Machine.State), accepted 0x0207 false r s = some (c, p, s1) ∧ p.length = 8 ∧ SMap.find s1.slm.slices (u16 p 0) = some x ∧ x.resetting = false ∧ u8 p 2 ≤ 3 ∧ u8 p 3 ≤ 7 ∧ portThere s1 (u8 p 2) = true ∧ (u8 p 4).testBit 0 = true ∧ chanSlice s1 (8 * u8 p 2 + u8 p 3) = none ∧ (SMap.find x.slots (u8 p 2)).isSome = true ∧ chanIdle s1 (8 * u8 p 2 + u8 p 3) = true) ∧
    (∃ (r : Rq) (s1 : Machine.State) (c : Caller) (p : List Byte) (x : Slice) (s : Machine.State), accepted 0x0207 false r s = some (c, p, s1) ∧ p.length = 8 ∧ SMap.find s1.slm.slices (u16 p 0) = some x ∧ x.resetting = false ∧ u8 p 2 ≤ 3 ∧ u8 p 3 ≤ 7 ∧ portThere s1 (u8 p 2) = true ∧ (u8 p 4).testBit 0 = false ∧ chanSlice s1 (8 * u8 p 2 + u8 p 3) = some (u16 p 0) ∧ chanIdle s1 (8 * u8 p 2 + u8 p 3) = true) :=
  ⟨⟨rq (le 2 3 ++ [0, 1] ++ le 2 1023 ++ le 2 0), after 0x0203 false (rq (le 2 3 ++ [0, 1] ++ le 2 1023 ++ le 2 0)) (ms), cal .manager, le 2 3 ++ [0, 1] ++ le 2 1023 ++ le 2 0, sl0, 1023, ms, acc (by decide), by decide⟩,
   ⟨rq (le 2 3 ++ [0, 0] ++ le 2 9 ++ le 2 0), after 0x0203 false (rq (le 2 3 ++ [0, 0] ++ le 2 9 ++ le 2 0)) (msSlot), cal .manager, le 2 3 ++ [0, 0] ++ le 2 9 ++ le 2 0, { sl0 with slots := [(0, 9)] }, 9, msSlot, acc (by decide), by decide⟩,
   ⟨rq (le 2 3 ++ [0, 7, 1] ++ zeros 3), after 0x0207 false (rq (le 2 3 ++ [0, 7, 1] ++ zeros 3)) (msSlot), cal .manager, le 2 3 ++ [0, 7, 1] ++ zeros 3, { sl0 with slots := [(0, 9)] }, msSlot, acc (by decide), by decide⟩,
   ⟨rq (le 2 3 ++ [0, 7, 0] ++ zeros 3), after 0x0207 false (rq (le 2 3 ++ [0, 7, 0] ++ zeros 3)) (put [(Fld.MBX_BIND_BOUND 0 7, 1), (Fld.MBX_BIND_SLICE 0 7, 3)] msSlot), cal .manager, le 2 3 ++ [0, 7, 0] ++ zeros 3, { sl0 with slots := [(0, 9)] }, put [(Fld.MBX_BIND_BOUND 0 7, 1), (Fld.MBX_BIND_SLICE 0 7, 3)] msSlot, acc (by decide), by decide⟩⟩

/-- States that meet the hypotheses of SliceSharesAndResets, clause by clause. -/
theorem witness_SliceSharesAndResets :
    (∃ (r : Rq) (s1 : Machine.State) (c : Caller) (p : List Byte) (x : Slice) (s : Machine.State), accepted 0x0204 false r s = some (c, p, s1) ∧ p.length = 8 ∧ SMap.find s1.slm.slices (u16 p 0) = some x ∧ x.resetting = false ∧ 1 ≤ u8 p 2 ∧ u8 p 3 ≤ 3 ∧ u16 p 4 ≤ 1023 ∧ (x.iso = true → u16 p 4 ≠ 0) ∧ powerNext s1 (u16 p 0) + u16 p 4 ≤ 1024) ∧
    (∃ (m : Master) (v : Word) (x : Slice) (s : Machine.State), decideWrite s (whoOf s m) Reg.SLM_V_SHARE_NEXT = .admitted 0 ∧ SMap.find s.slm.slices (slmSel s m) = some x ∧ x.resetting = false ∧ 1 ≤ bits v.toNat 0 8 ∧ bits v.toNat 16 10 + powerNext s (slmSel s m) ≤ 1024 ∧ (x.iso = true → bits v.toNat 16 10 ≠ 0) ∧ (sharesNext x).cap ≤ 65535) ∧
    (∃ (m : Master) (v : Word) (x : Slice) (s : Machine.State), decideWrite s (whoOf s m) Reg.SLM_V_BW_CAP = .admitted 0 ∧ SMap.find s.slm.slices (slmSel s m) = some x ∧ x.resetting = false ∧ 1 ≤ (sharesNext x).weight ∧ (sharesNext x).weight ≤ 255 ∧ (sharesNext x).lat ≤ 3 ∧ (sharesNext x).power ≤ 1023 ∧ (sharesNext x).power + powerNext s (slmSel s m) ≤ 1024 ∧ (x.iso = true → (sharesNext x).power ≠ 0)) ∧
    (∃ (r : Rq) (s1 : Machine.State) (c : Caller) (p : List Byte) (x : Slice) (s : Machine.State), accepted 0x0205 false r s = some (c, p, s1) ∧ p.length = 4 ∧ SMap.find s1.slm.slices (u16 p 0) = some x ∧ x.resetting = false) ∧
    (∃ (m : Master) (v : Word) (x : Slice) (s : Machine.State), decideWrite s (whoOf s m) Reg.SLM_V_RESET = .admitted 0 ∧ bit v.toNat 0 = true ∧ SMap.find s.slm.slices (slmSel s m) = some x ∧ x.resetting = false) ∧
    (∃ (n : Nat) (x : Slice) (s : Machine.State), SMap.find s.slm.slices n = some x ∧ x.resetting = true) :=
  ⟨⟨rq (le 2 3 ++ [255, 3] ++ le 2 1023 ++ zeros 2), after 0x0204 false (rq (le 2 3 ++ [255, 3] ++ le 2 1023 ++ zeros 2)) (ms), cal .manager, le 2 3 ++ [255, 3] ++ le 2 1023 ++ zeros 2, sl0, ms, acc (by decide), by decide⟩,
   ⟨.pair 0, 0x03FF00FF, sl0, rawSel ms, by decide⟩,
   ⟨.pair 0, 0xFFFF, sl0, rawSel ms, by decide⟩,
   ⟨rq (le 4 3), after 0x0205 false (rq (le 4 3)) (ms), cal .manager, le 4 3, sl0, ms, acc (by decide), by decide⟩,
   ⟨.pair 0, 1, sl0, rawSel ms, by decide⟩,
   ⟨3, { sl0 with resetting := true }, withSl { sl0 with resetting := true } up, by decide⟩⟩

/-- States that meet the hypotheses of NamespacesAndClasses, clause by clause. -/
theorem witness_NamespacesAndClasses :
    (∃ (r : Rq) (s1 : Machine.State) (c : Caller) (p : List Byte) (sl : Slice) (k : Nat) (b : Nat) (s : Machine.State), accepted 0x0208 false r s = some (c, p, s1) ∧ p.length = 32 ∧ SMap.find s1.slm.slices (u16 p 0) = some sl ∧ sl.resetting = false ∧ k < 16 ∧ SMap.find s1.zne.ns (16 * u16 p 0 + k + 1) = none ∧ (∀ j, j < k → (SMap.find s1.zne.ns (16 * u16 p 0 + j + 1)).isSome = true) ∧ nsCheck s1 sl.iso (u8 p 2) (u8 p 3) { slice := u16 p 0, zoned := u8 p 2 != 0, zlog := u8 p 3, lbaf := u8 p 4, cap := u64 p 8, maxOpen := if u8 p 2 != 0 then u32 p 16 else 0, maxAct := if u8 p 2 != 0 then u32 p 20 else 0, base := 0 } = (ST_OK, b)) ∧
    (∃ (r : Rq) (s1 : Machine.State) (c : Caller) (p : List Byte) (x : Ns) (s : Machine.State), accepted 0x0209 false r s = some (c, p, s1) ∧ p.length = 8 ∧ SMap.find s1.zne.ns (u32 p 0) = some x ∧ (∀ sl, SMap.find s1.slm.slices x.slice = some sl → sl.resetting = false) ∧ nsSlot s1 (u32 p 0) = none) ∧
    (∃ (r : Rq) (s1 : Machine.State) (c : Caller) (p : List Byte) (e : ClassEnt) (s : Machine.State), accepted 0x0302 false r s = some (c, p, s1) ∧ p.length = 36 ∧ u8 p 0 ≤ 63 ∧ e = classParse (slice p 4 32) ∧ (e.valid = true → classFits e = true) ∧ classInUse s1 (u8 p 0) = false ∧ (e.valid = true → e.iso = false → (groupCount s1).any (fun g => e.groups.testBit g && grp s1 Fld.PLC_GRP_PRESENT_GROUPS g && !grp s1 Fld.PLC_GRP_DEDICATED_GROUPS g) = true)) ∧
    (∃ (r : Rq) (s1 : Machine.State) (c : Caller) (p : List Byte) (s : Machine.State), accepted 0x0301 false r s = some (c, p, s1) ∧ p.length = 4 ∧ u8 p 1 ≠ 0 ∧ u8 p 0 + u8 p 1 ≤ 64) ∧
    (∃ (r : Rq) (s1 : Machine.State) (c : Caller) (p : List Byte) (x : Slice) (s : Machine.State), accepted 0x0303 false r s = some (c, p, s1) ∧ p.length = 12 ∧ SMap.find s1.slm.slices (u16 p 0) = some x ∧ x.resetting = false ∧ (u64 p 4).testBit (u8 p 2) = true ∧ (∀ k, k < 64 → (u64 p 4).testBit k = true → (classOf s1 k).valid = true ∧ (classOf s1 k).iso = x.iso) ∧ (∀ k, k < 64 → x.mask.testBit k = true → (u64 p 4).testBit k = true)) ∧
    (∃ (r : Rq) (s1 : Machine.State) (c : Caller) (s : Machine.State), accepted 0x0304 false r s = some (c, [], s1)) :=
  ⟨⟨rq nsP, after 0x0208 false (rq nsP) (put [(⟨Reg.LDC_MED_EXPORT_LO, 0, 32⟩, 100000), (Fld.CMP_REGION_UNITS, 100000)] ms), cal .manager, nsP, sl0, 0, 0, put [(⟨Reg.LDC_MED_EXPORT_LO, 0, 32⟩, 100000), (Fld.CMP_REGION_UNITS, 100000)] ms, acc (by decide), by decide⟩,
   ⟨rq (le 8 49), after 0x0209 false (rq (le 8 49)) (withNs ns0 ms), cal .manager, le 8 49, ns0, withNs ns0 ms, acc (by decide), by decide⟩,
   ⟨rq clsP, after 0x0302 false (rq clsP) (ms), cal .manager, clsP, classParse (slice clsP 4 32), ms, acc (by decide), by decide⟩,
   ⟨rq [63, 1, 0, 0], after 0x0301 false (rq [63, 1, 0, 0]) (ms), cal .manager, [63, 1, 0, 0], ms, acc (by decide), by decide⟩,
   ⟨rq (le 2 3 ++ [0, 0] ++ le 8 1), after 0x0303 false (rq (le 2 3 ++ [0, 0] ++ le 8 1)) ({ ms with plc := { ms.plc with classes := [(0, clsE)] } }), cal .manager, le 2 3 ++ [0, 0] ++ le 8 1, sl0, { ms with plc := { ms.plc with classes := [(0, clsE)] } }, acc (by decide), by decide⟩,
   ⟨rq [], after 0x0304 false (rq []) (ms), cal .manager, ms, acc (by decide)⟩⟩

/-- States that meet the hypotheses of UmpireOpcodes, clause by clause. -/
theorem witness_UmpireOpcodes :
    (∃ (r : Rq) (s1 : Machine.State) (c : Caller) (p : List Byte) (s : Machine.State), accepted 0x0401 false r s = some (c, p, s1) ∧ p.length = 4) ∧
    (∃ (r : Rq) (s1 : Machine.State) (c : Caller) (p : List Byte) (s : Machine.State), accepted 0x0402 false r s = some (c, p, s1) ∧ p.length = 4 ∧ 20 ≤ u16 p 0 ∧ u16 p 0 ≤ 800 ∧ pulsesBlocked s1 = false) ∧
    (∃ (r : Rq) (s1 : Machine.State) (c : Caller) (p : List Byte) (s : Machine.State), accepted 0x0403 false r s = some (c, p, s1) ∧ p.length = 4 ∧ u8 p 0 ≤ u8 p 1 ∧ u8 p 1 ≤ 7 ∧ pulsesBlocked s1 = false) :=
  ⟨⟨rq (zeros 4), after 0x0401 false (rq (zeros 4)) (ms), cal .manager, zeros 4, ms, acc (by decide), by decide⟩,
   ⟨rq (le 4 800), after 0x0402 false (rq (le 4 800)) (ms), cal .manager, le 4 800, ms, acc (by decide), by decide⟩,
   ⟨rq [7, 7, 0, 0], after 0x0403 false (rq [7, 7, 0, 0]) (ms), cal .manager, [7, 7, 0, 0], ms, acc (by decide), by decide⟩⟩

end Sys2Proof.Tests.W05

namespace Sys2Proof.Tests.W06
set_option linter.all false
open Sys2Proof Sys2Proof.Machine

def os : Machine.State := put [(Fld.KST_DRBG_READY, 1)] (sess .officer)
def osK (k : KSlot) : Machine.State := withNs ns0 (withSl sl0 (withKey k os))
def imp : List Byte := le 4 64 ++ zeros 72
def imp2 : List Byte := [64, 0, 1, 0] ++ zeros 72
def wt : KeyWait := { ch := 32, opcode := 0x0505, slot := 64, payload := [], rq := rq0 [], cls := .officer, since := 0 }
def keyB : KSlot := { key0 with st := 2, slice := 3, nsid := 49 }
def busyUnit : Machine.State := { withKey { keyB with active := 1 } os with tmb := { Tmb.reset with time := 1000000 }, mbx := { Mbx.reset with waits := [wt] }, hst := { Hst.reset with ctx := [(1, wctx)] } }
def pveS : Machine.State := put [(Fld.PVE_CTRL_EN, 1), (Fld.KST_CTRL_EN, 1)] { up with kst := { Kst.reset with slots := [(8, { key0 with typ := 2 }), (16, { key0 with typ := 3 }), (17, { key0 with typ := 3 })] }, spdm := { Spdm.reset with sessions := [(7, sessOf .officer)] } }

def osU (k : KSlot) : Machine.State := { osK { k with active := 1, nsid := 49 } with hst := { Hst.reset with ctx := [(1, wctx)] } }
def freeUnit : Machine.State := { withKey { key0 with st := 1 } os with tmb := { Tmb.reset with time := 1000000 }, mbx := { Mbx.reset with waits := [wt] } }

/-- States that meet the hypotheses of KeyMaterial, clause by clause. -/
theorem witness_KeyMaterial :
    (∃ (r : Rq) (s1 : Machine.State) (c : Caller) (p : List Byte) (s : Machine.State), accepted 0x0501 false r s = some (c, p, s1) ∧ p.length = 4 ∧ u16 p 0 ≤ 2047 ∧ 1 ≤ u16 p 2 ∧ u16 p 2 ≤ 250) ∧
    (∃ (r : Rq) (s1 : Machine.State) (c : Caller) (p : List Byte) (s : Machine.State), accepted 0x0501 false r s = some (c, p, s1) ∧ p.length = 4 ∧ 2047 < u16 p 0 ∧ 1 ≤ u16 p 2 ∧ u16 p 2 ≤ 250) ∧
    (∃ (r : Rq) (s1 : Machine.State) (c : Caller) (p : List Byte) (s : Machine.State), accepted 0x0502 false r s = some (c, p, s1) ∧ p.length = 4 ∧ mediaSlot (u16 p 0) = true ∧ (kslot s1 (u16 p 0)).st = 0 ∧ pulsesBlocked s1 = false ∧ entropyBad s1 = false) ∧
    (∀ m, keyImported (after 0x0503 false (rq imp) os) (cal .officer) (imp.drop 4) = some m → m.take 32 ≠ (m.drop 32).take 32 → accepted 0x0503 false (rq imp) os = some (cal .officer, imp, after 0x0503 false (rq imp) os) ∧ imp.length = 76 ∧ mediaSlot (u16 imp 0) = true ∧ (kslot (after 0x0503 false (rq imp) os) (u16 imp 0)).st = 0 ∧ pulsesBlocked (after 0x0503 false (rq imp) os) = false) ∧
    (∃ (r : Rq) (s1 : Machine.State) (c : Caller) (p : List Byte) (s : Machine.State), accepted 0x0505 false r s = some (c, p, s1) ∧ p.length = 4 ∧ u8 p 2 = 0 ∧ mediaSlot (u16 p 0) = true ∧ (kslot s1 (u16 p 0)).st = 1 ∧ pulsesBlocked s1 = false ∧ bufHeldUp s1 (u16 p 0) = false ∧ entropyBad s1 = false) ∧
    (∃ (r : Rq) (s1 : Machine.State) (c : Caller) (p : List Byte) (s : Machine.State), accepted 0x0505 false r s = some (c, p, s1) ∧ p.length = 4 ∧ u8 p 2 = 0 ∧ mediaSlot (u16 p 0) = true ∧ (kslot s1 (u16 p 0)).st = 1 ∧ pulsesBlocked s1 = false ∧ bufHeldUp s1 (u16 p 0) = true) ∧
    (∀ m, keyImported (after 0x0505 false (rq imp2) (osK key0)) (cal .officer) (imp2.drop 4) = some m → m.take 32 ≠ (m.drop 32).take 32 → accepted 0x0505 false (rq imp2) (osK key0) = some (cal .officer, imp2, after 0x0505 false (rq imp2) (osK key0)) ∧ imp2.length = 76 ∧ u8 imp2 2 = 1 ∧ mediaSlot (u16 imp2 0) = true ∧ (kslot (after 0x0505 false (rq imp2) (osK key0)) (u16 imp2 0)).st = 1 ∧ pulsesBlocked (after 0x0505 false (rq imp2) (osK key0)) = false ∧ bufHeldUp (after 0x0505 false (rq imp2) (osK key0)) (u16 imp2 0) = false) ∧
    (∃ (slot : Nat) (w : KeyWait) (s : Machine.State), s.mbx.waits.find? (fun w => w.slot == slot) = some w ∧ w.since + 1000000 ≤ now s ∧ w.ch = w.rq.ch.val ∧ (w.rq.session = 0 ∨ (SMap.find s.spdm.sessions w.rq.session).isSome = true) ∧ bufHeldUp s slot = true) ∧
    (∃ (slot : Nat) (w : KeyWait) (s : Machine.State), s.mbx.waits.find? (fun w => w.slot == slot) = some w ∧ w.since + 1000000 ≤ now s ∧ w.ch = w.rq.ch.val ∧ (w.rq.session = 0 ∨ (SMap.find s.spdm.sessions w.rq.session).isSome = true) ∧ bufHeldUp s slot = false ∧ keyBar s slot 1 = ST_OK ∧ u8 w.payload 2 = 0 ∧ entropyBad s = false) :=
  ⟨⟨rq (le 2 2047 ++ le 2 250), after 0x0501 false (rq (le 2 2047 ++ le 2 250)) (os), cal .officer, le 2 2047 ++ le 2 250, os, acc (by decide), by decide⟩,
   ⟨rq (le 2 2048 ++ le 2 250), after 0x0501 false (rq (le 2 2048 ++ le 2 250)) (os), cal .officer, le 2 2048 ++ le 2 250, os, acc (by decide), by decide⟩,
   ⟨rq (le 4 64), after 0x0502 false (rq (le 4 64)) (os), cal .officer, le 4 64, os, acc (by decide), by decide⟩,
   fun _ _ _ => ⟨acc (by decide), by decide⟩,
   ⟨rq (le 4 64), after 0x0505 false (rq (le 4 64)) (osK key0), cal .officer, le 4 64, osK key0, acc (by decide), by decide⟩,
   ⟨rq (le 4 64), after 0x0505 false (rq (le 4 64)) (osU key0), cal .officer, le 4 64, osU key0, acc (by decide), by decide⟩,
   fun _ _ _ => ⟨acc (by decide), by decide⟩,
   ⟨64, wt, busyUnit, by decide⟩,
   ⟨64, wt, freeUnit, by decide⟩⟩

/-- States that meet the hypotheses of KeyReleaseAndTrustAnchors, clause by clause. -/
theorem witness_KeyReleaseAndTrustAnchors :
    (∃ (r : Rq) (s1 : Machine.State) (c : Caller) (p : List Byte) (x : Ns) (s : Machine.State), accepted 0x0504 false r s = some (c, p, s1) ∧ p.length = 8 ∧ mediaSlot (u16 p 0) = true ∧ (SMap.find s1.slm.slices (u16 p 2)).isSome = true ∧ SMap.find s1.zne.ns (u32 p 4) = some x ∧ x.slice = u16 p 2 ∧ (kslot s1 (u16 p 0)).st = 1 ∧ nsSlot s1 (u32 p 4) = none ∧ SMap.find s1.zne.releasing (u32 p 4) = none ∧ pulsesBlocked s1 = false) ∧
    (∃ (r : Rq) (s1 : Machine.State) (c : Caller) (p : List Byte) (s : Machine.State), accepted 0x0506 false r s = some (c, p, s1) ∧ p.length = 4 ∧ mediaSlot (u16 p 0) = true ∧ (kslot s1 (u16 p 0)).st ≠ 0 ∧ pulsesBlocked s1 = false) ∧
    (∃ (nsid : Nat) (i : Nat) (s : Machine.State), SMap.find s.zne.releasing nsid = some i) ∧
    (∃ (r : Rq) (s1 : Machine.State) (c : Caller) (p : List Byte) (i : Nat) (k : KSlot) (s : Machine.State), accepted 0x0507 false r s = some (c, p, s1) ∧ p.length = 4 ∧ (SMap.find s1.zne.ns (u32 p 0)).isSome = true ∧ nsSlot s1 (u32 p 0) = some (i, k) ∧ k.st = 2 ∧ entropyBad s1 = false) ∧
    (∃ (nsid : Nat) (i : Nat) (since : Nat) (k : KSlot) (n : Ns) (s : Machine.State), SMap.find s.kst.erases nsid = some since ∧ nsSlot s nsid = some (i, k) ∧ kslot s i = k ∧ SMap.find s.zne.ns nsid = some n ∧ k.st = 3 ∧ bufUsers s i 0 = 0 ∧ bufUsers s i 1 = 0) ∧
    (∃ (r : Rq) (s1 : Machine.State) (u : Machine.State) (c : Caller) (p : List Byte) (s : Machine.State), accepted 0x0508 false r s = some (c, p, s1) ∧ p.length = 48 ∧ s1.kst.ofcAnchor ≠ some p ∧ pulsesBlocked s1 = false ∧ eventAppend s1 [{ comp := 0x0102, digest := p, version := if s1.kst.mgrAnchor.isSome then 2 else 1, svn := 0 }] = some u) ∧
    (∃ (r : Rq) (s1 : Machine.State) (u : Machine.State) (c : Caller) (p : List Byte) (s : Machine.State), accepted 0x0509 false r s = some (c, p, s1) ∧ ofcLayout p = true ∧ s1.kst.mgrAnchor ≠ some (p.take 48) ∧ pulsesBlocked s1 = false ∧ (∀ a, s1.kst.ofcAnchor = some a → Config.sha384 (slice p 52 (u16 p 48)) = a ∧ Config.p384Verify (Config.certKey (slice p 52 (u16 p 48))) (Config.sha384 (p.take 48)) (slice p (52 + u16 p 48) 96) = true) ∧ eventAppend s1 [{ comp := 0x0103, digest := p.take 48, version := if s1.kst.ofcAnchor.isSome then 2 else 1, svn := 0 }] = some u) :=
  ⟨⟨rq (le 2 64 ++ le 2 3 ++ le 4 49), after 0x0504 false (rq (le 2 64 ++ le 2 3 ++ le 4 49)) (osK key0), cal .officer, le 2 64 ++ le 2 3 ++ le 4 49, ns0, osK key0, acc (by decide), by decide⟩,
   ⟨rq (le 4 64), after 0x0506 false (rq (le 4 64)) (osK keyB), cal .officer, le 4 64, osK keyB, acc (by decide), by decide⟩,
   ⟨49, 64, { osK keyB with zne := { (osK keyB).zne with releasing := [(49, 64)] } }, by decide⟩,
   ⟨rq (le 4 49), after 0x0507 false (rq (le 4 49)) (osK keyB), cal .officer, le 4 49, 64, keyB, osK keyB, acc (by decide), by decide⟩,
   ⟨49, 64, 0, { keyB with st := 3 }, ns0, { osK { keyB with st := 3 } with kst := { (osK { keyB with st := 3 }).kst with erases := [(49, 0)] } }, by decide⟩,
   ⟨rq (zeros 48), after 0x0508 false (rq (zeros 48)) (sess .manager), ev (after 0x0508 false (rq (zeros 48)) (sess .manager)) [{ comp := 0x0102, digest := zeros 48, version := 1, svn := 0 }], cal .manager, zeros 48, sess .manager, acc (by decide), by decide, by decide, by decide, ev_eq (by decide)⟩,
   ⟨rq (zeros 52), after 0x0509 false (rq (zeros 52)) (sess .manager), ev (after 0x0509 false (rq (zeros 52)) (sess .manager)) [{ comp := 0x0103, digest := zeros 48, version := 1, svn := 0 }], cal .manager, zeros 52, sess .manager, acc (by decide), by decide, by decide, by decide, (fun a h => absurd h (by decide +revert)), ev_eq (by decide)⟩⟩

/-- States that meet the hypotheses of PrivilegedEngines, clause by clause. -/
theorem witness_PrivilegedEngines :
    (∃ (p : Fin 8) (sess : Nat) (slot : Nat) (iv : List Byte) (aad : List Byte) (data : List Byte) (s : Machine.State), pveFit s p sess slot 1 ∧ gcmFits iv aad data.length = true) ∧
    (∃ (p : Fin 8) (sess : Nat) (slot : Nat) (iv : List Byte) (aad : List Byte) (data : List Byte) (s : Machine.State), pveFit s p sess slot 1 ∧ 16 ≤ data.length ∧ gcmFits iv aad (data.length - 16) = true) ∧
    (∃ (p : Fin 8) (slot : Nat) (data : List Byte) (s : Machine.State), pveFit s p 0 slot 2 ∧ wrapFits data.length = true) ∧
    (∃ (p : Fin 8) (sess : Nat) (slot : Nat) (data : List Byte) (s : Machine.State), pveFit s p sess slot 3 ∧ 8 ≤ data.length ∧ wrapFits (data.length - 8) = true) ∧
    (∃ (p : Fin 8) (sess : Nat) (slot : Nat) (data : List Byte) (s : Machine.State), pveFit s p sess slot 4 ∧ data.length ≤ 4096) ∧
    (∃ (p : Fin 8) (sess : Nat) (slot : Nat) (iv : List Byte) (aad : List Byte) (data : List Byte) (bad : Fin 3) (s : Machine.State), fone s Fld.PVE_CTRL_EN = true ∧ fone s Fld.KST_CTRL_EN = true ∧ carded s (midPair p.val) = false ∧ gcmFits iv aad data.length = true ∧ pveRight s sess slot 1 = false) :=
  ⟨⟨0, 7, 17, zeros 12, zeros 64, zeros 3, pveS, by unfold pveFit; decide⟩,
   ⟨0, 7, 17, zeros 12, [], zeros 16, pveS, by unfold pveFit; decide⟩,
   ⟨0, 8, zeros 80, pveS, by unfold pveFit; decide⟩,
   ⟨0, 0, 8, zeros 24, pveS, by unfold pveFit; decide⟩,
   ⟨0, 0, 8, [1], pveS, by unfold pveFit; decide⟩,
   ⟨0, 0, 17, zeros 12, [], [], 0, pveS, by decide⟩⟩

end Sys2Proof.Tests.W06

namespace Sys2Proof.Tests.W07
set_option linter.all false
open Sys2Proof Sys2Proof.Machine

def mg : Machine.State := sess .manager
def lrec : LktRec := { code := 1025, idx := 4, boot := 1, time := 5, p1 := 0, p2 := 0, p3 := 0, p4 := 0 }
def lkS : Machine.State := { mg with lkt := { Lkt.reset with next := 5, ring := [lrec] } }
def lkP : List Byte := le 8 4 ++ le 4 262144 ++ le 4 0 ++ zeros 16
def sgE : SEntry := { typ := 1, eflags := 0, idx := 0, boot := 1, time := 0, keyId := zeros 8, first := 0, prev := [], items := [], settings := [], reason := 0, state := 0, sig := [], done := true }
def img1 : Image := { bytes := [], fwVer := 1, hdrVer := 1, svn := [], floor := [], len := 0, fmt := 0, abi := 0, key := 0, revoke := 0, digs := [], ucode := [] }
def sgS : Machine.State := { mg with sgn := { Sgn.reset with ents := [(0, sgE)], next := 1, certs := [(zeros 8, [], [1])] } }
def sgP : List Byte := le 8 0 ++ le 4 1 ++ zeros 4
def dlP : List Byte := zeros 64 ++ le 4 512 ++ zeros 444
def dl1 : Download := { owner := 32, bytes := imgB, whole := true }
def fwS : Machine.State := { mg with bot := { mg.bot with dl := some dl1 } }
def act2 : Machine.State := { mg with bot := { mg.bot with bcr := { Bcr.reset with valid := 3 }, img := [(1, img1)] } }
def sw : SlotWrite := { slot := 1, act := 0, warm := false, image := Image.factory }
def ucS : Machine.State := { mg with kst := { mg.kst with mgrAnchor := some (zeros 48) } }
def swS : Machine.State := { up with bot := { up.bot with wr := some sw } }
def thS : Machine.State := { mg with lkt := { Lkt.reset with freeze := some { session := 7, start := 0, endTime := 9, lost0 := 0 } } }

/-- States that meet the hypotheses of LedgerOpcodes, clause by clause. -/
theorem witness_LedgerOpcodes :
    (∃ (r : Rq) (s1 : Machine.State) (c : Caller) (s : Machine.State), accepted 0x0601 false r s = some (c, [], s1)) ∧
    (∃ (r : Rq) (s1 : Machine.State) (c : Caller) (p : List Byte) (s : Machine.State), accepted 0x0602 false r s = some (c, p, s1) ∧ p.length = 16 ∧ u32 p 8 ≠ 0 ∧ oldestIdx s1.sgn ≤ u64 p 0 ∧ u64 p 0 < s1.sgn.next) ∧
    (∃ (r : Rq) (s1 : Machine.State) (c : Caller) (p : List Byte) (rest : List Byte) (s : Machine.State), accepted 0x0603 false r s = some (c, p, s1) ∧ p.length = 8 ∧ (p = keyIdOf s1.sgn.devPub ∧ rest = [] ∨ p ≠ keyIdOf s1.sgn.devPub ∧ s1.bot.recovery = false ∧ certOf s1 (if p = zeros 8 then s1.sgn.keyId else p) = some rest)) ∧
    (∃ (r : Rq) (s1 : Machine.State) (c : Caller) (s : Machine.State), accepted 0x0701 false r s = some (c, [], s1)) ∧
    (∃ (r : Rq) (s1 : Machine.State) (c : Caller) (p : List Byte) (s : Machine.State), accepted 0x0702 false r s = some (c, p, s1) ∧ p.length = 32 ∧ 1 ≤ u32 p 8 ∧ u32 p 8 ≤ 262144 ∧ lktOldest s1.lkt ≤ u64 p 0 ∧ u64 p 0 < s1.lkt.next ∧ (((lktAll s1.lkt).filter fun e => decide (u64 p 0 ≤ e.1.idx)).filter fun e => recWanted (u32 p 12) (u64 p 16) (u64 p 24) e.1).length ≤ min (u32 p 8) 262143) ∧
    (∃ (r : Rq) (s1 : Machine.State) (c : Caller) (p : List Byte) (s : Machine.State), accepted 0x0703 false r s = some (c, p, s1) ∧ p.length = 4 ∧ s1.lkt.freeze = none) ∧
    (∃ (r : Rq) (s1 : Machine.State) (c : Caller) (f : LktFreeze) (s : Machine.State), accepted 0x0704 false r s = some (c, [], s1) ∧ s1.lkt.freeze = some f ∧ f.session = c.session) :=
  ⟨⟨rq [], after 0x0601 false (rq []) (sgS), cal .manager, sgS, acc (by decide)⟩,
   ⟨rq sgP, after 0x0602 false (rq sgP) (sgS), cal .manager, sgP, sgS, acc (by decide), by decide⟩,
   (Classical.em (zeros 8 = keyIdOf (after 0x0603 false (rq (zeros 8)) sgS).sgn.devPub)).elim (fun h => ⟨rq (zeros 8), after 0x0603 false (rq (zeros 8)) sgS, cal .manager, zeros 8, [], sgS, acc (by decide), by decide, .inl ⟨h, rfl⟩⟩) (fun h => ⟨rq (zeros 8), after 0x0603 false (rq (zeros 8)) sgS, cal .manager, zeros 8, [1], sgS, acc (by decide), by decide, .inr ⟨h, by decide, by decide⟩⟩),
   ⟨rq [], after 0x0701 false (rq []) (lkS), cal .manager, lkS, acc (by decide)⟩,
   ⟨rq lkP, after 0x0702 false (rq lkP) (lkS), cal .manager, lkP, lkS, acc (by decide), by decide⟩,
   ⟨rq (le 4 9), after 0x0703 false (rq (le 4 9)) (mg), cal .manager, le 4 9, mg, acc (by decide), by decide⟩,
   ⟨rq [], after 0x0704 false (rq []) (thS), cal .manager, { session := 7, start := 0, endTime := 9, lost0 := 0 }, thS, acc (by decide), by decide⟩⟩

/-- States that meet the hypotheses of FirmwareOpcodes, clause by clause. -/
theorem witness_FirmwareOpcodes :
    (∃ (r : Rq) (s1 : Machine.State) (c : Caller) (s : Machine.State), accepted 0x0801 false r s = some (c, [], s1) ∧ s1.bot.wr = none) ∧
    (∃ (r : Rq) (s1 : Machine.State) (c : Caller) (p : List Byte) (s : Machine.State), accepted 0x0802 false r s = some (c, p, s1) ∧ 512 ≤ p.length ∧ u32 p 64 = p.length ∧ dlBar s1 c.ch = ST_OK ∧ slotBar s1 = ST_OK) ∧
    (imageCheck (after 0x0803 false (rq [0xFF, 0, 0, 0]) fwS) imgB = ST_OK → ∃ (s1 : Machine.State) (c : Caller) (d : Download), accepted 0x0803 false (rq [0xFF, 0, 0, 0]) fwS = some (c, [0xFF, 0, 0, 0], s1) ∧ s1.bot.wr = none ∧ s1.bot.dl = some d ∧ d.whole = true ∧ imageCheck s1 d.bytes = ST_OK ∧ slotBar s1 = ST_OK) ∧
    (imageCheck (after 0x0803 false (rq [0xFF, 1, 0, 0]) fwS) imgB = ST_OK → ∃ (s1 : Machine.State) (c : Caller) (d : Download), accepted 0x0803 false (rq [0xFF, 1, 0, 0]) fwS = some (c, [0xFF, 1, 0, 0], s1) ∧ s1.bot.wr = none ∧ s1.bot.dl = some d ∧ d.whole = true ∧ imageCheck s1 d.bytes = ST_OK ∧ slotBar s1 = ST_OK) ∧
    (∃ (r : Rq) (s1 : Machine.State) (c : Caller) (p : List Byte) (i : Image) (s : Machine.State), accepted 0x0803 false r s = some (c, p, s1) ∧ p.length = 4 ∧ u8 p 0 ≤ 1 ∧ u8 p 1 = 2 ∧ bit (u8 p 2) 0 = false ∧ s1.bot.wr = none ∧ runningSlot s1 ≠ some (u8 p 0) ∧ slotValid s1 (u8 p 0) = true ∧ SMap.find s1.bot.img (u8 p 0) = some i ∧ svnOk s1 i = true ∧ pulsesBlocked s1 = false ∧ s1.bot.recovery = false) ∧
    (ucodeCheck (after 0x0805 false (rq (ucB)) ucS) (ucB) = ST_OK → ∃ (s1 : Machine.State) (u : Machine.State) (c : Caller), accepted 0x0805 false (rq (ucB)) ucS = some (c, ucB, s1) ∧ ucodeCheck s1 (ucB) = ST_OK ∧ pulsesBlocked s1 = false ∧ custHalf s1 = none ∧ eventAppend s1 [{ comp := 0x0104, digest := slice (ucB) 16 48, version := u16 (ucB) 4, svn := u32 (ucB) 8 }] = some u) ∧
    (∃ (u : Machine.State) (w : SlotWrite) (s : Machine.State), s.bot.wr = some w ∧ pulsesBlocked s = false ∧ pfail s = false ∧ w.warm = false ∧ eventAppend s [{ comp := 0x0105, digest := Config.sha384 w.image.bytes, version := w.image.fwVer, svn := w.image.svn.getD 1 0 }] = some u) ∧
    (∃ (at_ : Nat) (cause : Nat) (s : Machine.State), s.bot.warmAt = some (at_, cause) ∧ s.bot.recovery = true ∧ s.bot.wr = none ∧ s.sgd.pfail = false ∧ s.sgd.released = true) ∧
    (∃ (m : Master) (v : Word) (ch : Nat) (q : Nat) (s : Machine.State), decideWrite s (whoOf s m) Reg.BOT_UCODE_CTRL = .admitted q ∧ bit v.toNat 7 = true ∧ bit v.toNat 6 = false ∧ bits v.toNat 0 6 = ch ∧ ch < chanCount s) :=
  ⟨⟨rq [], after 0x0801 false (rq []) (mg), cal .manager, mg, acc (by decide), by decide⟩,
   ⟨rq dlP, after 0x0802 false (rq dlP) (mg), cal .manager, dlP, mg, acc (by decide), by decide⟩,
   fun h => ⟨after 0x0803 false (rq [0xFF, 0, 0, 0]) fwS, cal .manager, dl1, acc (by decide), by decide, rfl, rfl, h, by decide⟩,
   fun h => ⟨after 0x0803 false (rq [0xFF, 1, 0, 0]) fwS, cal .manager, dl1, acc (by decide), by decide, rfl, rfl, h, by decide⟩,
   ⟨rq [1, 2, 0, 0], after 0x0803 false (rq [1, 2, 0, 0]) (act2), cal .manager, [1, 2, 0, 0], img1, act2, acc (by decide), by decide⟩,
   fun h => ⟨after 0x0805 false (rq (ucB)) ucS, _, cal .manager, acc (by decide), h, by decide, by decide, ev_eq (by decide)⟩,
   ⟨ev swS [{ comp := 0x0105, digest := Config.sha384 Image.factory.bytes, version := Image.factory.fwVer, svn := Image.factory.svn.getD 1 0 }], sw, swS, rfl, by decide, by decide, by decide, ev_eq (by decide)⟩,
   ⟨9, 7, { up with bot := { up.bot with recovery := true, warmAt := some (9, 7) } }, by decide⟩,
   ⟨.pair 0, 0xBF, 63, 0, up, by decide⟩⟩

end Sys2Proof.Tests.W07

namespace Sys2Proof.Tests.W08
set_option linter.all false
open Sys2Proof Sys2Proof.Machine

def mg : Machine.State := sess .manager
def stP : List Byte := le 8 0 ++ le 8 24 ++ le 2 1 ++ le 2 2 ++ le 2 800 ++ zeros 2
def agS : Machine.State := put [(Fld.AGE_CTRL_PLAN_EN, 1), (Fld.AGE_CTRL_RALLY_EN, 1)] mg
def tst (n : Nat) : Machine.State := { mg with hst := { mg.hst with dst := { Dst.reset with st := n } } }
def dres : DstResult := { code := 0, extended := false, segment := 0, time := 0, nsid := 0, lba := 0 }

/-- States that meet the hypotheses of SettingsOpcodes, clause by clause. -/
theorem witness_SettingsOpcodes :
    (∃ (r : Rq) (s1 : Machine.State) (c : Caller) (s : Machine.State), accepted 0x0806 false r s = some (c, [], s1)) ∧
    (∃ (r : Rq) (s1 : Machine.State) (c : Caller) (p : List Byte) (l : List (Nat × List Byte)) (s : Machine.State), accepted 0x0807 false r s = some (c, p, s1) ∧ 16 ≤ p.length ∧ u32 p 8 = p.length ∧ u16 p 0 = s1.bot.setFmt ∧ setParse (p.length + 1) (p.drop 16) = some l ∧ (∀ e, e ∈ l → setKnown e.1 = true ∧ setValid e.1 e.2 = true) ∧ pulsesBlocked s1 = false) ∧
    (∃ (r : Rq) (s1 : Machine.State) (c : Caller) (p : List Byte) (s : Machine.State), accepted 0x0804 false r s = some (c, p, s1) ∧ p.length = 4 ∧ pulsesBlocked s1 = false) :=
  ⟨⟨rq [], after 0x0806 false (rq []) (mg), cal .manager, mg, acc (by decide)⟩,
   ⟨rq stP, after 0x0807 false (rq stP) (mg), cal .manager, stP, [(1, le 2 800)], mg, acc (by decide), by decide⟩,
   ⟨rq [1, 0, 0, 0], after 0x0804 false (rq [1, 0, 0, 0]) (mg), cal .manager, [1, 0, 0, 0], mg, acc (by decide), by decide⟩⟩

/-- States that meet the hypotheses of AgeingCommands, clause by clause. -/
theorem witness_AgeingCommands :
    (∃ (r : Rq) (s1 : Machine.State) (c : Caller) (s : Machine.State), accepted 0x0901 false r s = some (c, [], s1)) ∧
    (∃ (r : Rq) (s1 : Machine.State) (c : Caller) (p : List Byte) (s : Machine.State), accepted 0x0902 false r s = some (c, p, s1) ∧ p.length = 4) ∧
    (∃ (r : Rq) (s1 : Machine.State) (c : Caller) (s : Machine.State), accepted 0x0903 false r s = some (c, [], s1) ∧ fone s1 Fld.AGE_PLAN_STATUS_RUNNING = false ∧ planCan s1 = true) ∧
    (∃ (laps : List Nat) (s : Machine.State), fone s Fld.AGE_CTRL_RALLY_EN = true) ∧
    (∃ (probe : List (Nat × Decode)) (s : Machine.State), planCan s = true) ∧
    (∃ (rank : Fin 16) (windows : List (List (Nat × Nat))) (s : Machine.State), gatherOpen s = false ∧ pfail s = false ∧ fone s Fld.DMC_STATUS_PANIC = false ∧ fone s Fld.DMC_STATUS_CHANGING = false ∧ s.bot.run = true) :=
  ⟨⟨rq [], after 0x0901 false (rq []) (agS), cal .manager, agS, acc (by decide)⟩,
   ⟨rq (zeros 4), after 0x0902 false (rq (zeros 4)) (agS), cal .manager, zeros 4, agS, acc (by decide), by decide⟩,
   ⟨rq [], after 0x0903 false (rq []) (agS), cal .manager, agS, acc (by decide), by decide⟩,
   ⟨[5, 6], agS, by decide⟩,
   ⟨[], agS, by decide⟩,
   ⟨15, [], up, by decide⟩⟩

/-- States that meet the hypotheses of SelfTests, clause by clause. -/
theorem witness_SelfTests :
    (∃ (r : Rq) (s1 : Machine.State) (c : Caller) (p : List Byte) (s : Machine.State), accepted 0x0A01 false r s = some (c, p, s1) ∧ p.length = 4 ∧ bit (u8 p 0) 0 = false ∧ s1.hst.dst.st = 0) ∧
    (∃ (r : Rq) (s1 : Machine.State) (c : Caller) (p : List Byte) (s : Machine.State), accepted 0x0A01 false r s = some (c, p, s1) ∧ p.length = 4 ∧ bit (u8 p 0) 0 = true ∧ s1.hst.dst.st = 0) ∧
    (∃ (r : Rq) (s1 : Machine.State) (c : Caller) (p : List Byte) (s : Machine.State), accepted 0x0A01 false r s = some (c, p, s1) ∧ p.length = 4 ∧ s1.hst.dst.st ≠ 0) ∧
    (∃ (r : Rq) (s1 : Machine.State) (c : Caller) (x : DstResult) (l : List DstResult) (s : Machine.State), accepted 0x0A02 false r s = some (c, [], s1) ∧ s1.hst.dst.st = 0 ∧ s1.hst.dst.results = x :: l) ∧
    (∃ (r : Rq) (s1 : Machine.State) (c : Caller) (s : Machine.State), accepted 0x0A03 false r s = some (c, [], s1) ∧ s1.hst.dst.st ≠ 0) ∧
    (∃ (seg : Nat) (s : Machine.State), (s.hst.dst.st = 1 ∨ s.hst.dst.st = 2) ∧ (∀ e, e ∈ s.dsc.bg → e.2.test = 0)) ∧
    (∃ (r : Rq) (s1 : Machine.State) (c : Caller) (s : Machine.State), accepted 0x0A04 false r s = some (c, [], s1)) ∧
    (∃ (r : Rq) (s1 : Machine.State) (c : Caller) (p : List Byte) (s : Machine.State), accepted 0x0A05 false r s = some (c, p, s1) ∧ p.length = 4 ∧ bit (u8 p 0) 0 = false) ∧
    (∃ (r : Rq) (s1 : Machine.State) (c : Caller) (p : List Byte) (s : Machine.State), accepted 0x0A05 false r s = some (c, p, s1) ∧ p.length = 4 ∧ bit (u8 p 0) 0 = true ∧ fget s1 Fld.SGD_TEST_CTRL_STATE = 0 ∧ s1.sgd.dist = [] ∧ fone s1 Fld.SGD_EVENTS_CHARGE_FAULT = false ∧ fone s1 Fld.SGD_EVENTS_BANK_OV = false) :=
  ⟨⟨rq [0, 0, 0, 0], after 0x0A01 false (rq [0, 0, 0, 0]) (mg), cal .manager, [0, 0, 0, 0], mg, acc (by decide), by decide⟩,
   ⟨rq [1, 0, 0, 0], after 0x0A01 false (rq [1, 0, 0, 0]) (mg), cal .manager, [1, 0, 0, 0], mg, acc (by decide), by decide⟩,
   ⟨rq [1, 0, 0, 0], after 0x0A01 false (rq [1, 0, 0, 0]) (tst 1), cal .manager, [1, 0, 0, 0], tst 1, acc (by decide), by decide⟩,
   ⟨rq [], after 0x0A02 false (rq []) ({ mg with hst := { mg.hst with dst := { Dst.reset with results := [dres] } } }), cal .manager, dres, [], { mg with hst := { mg.hst with dst := { Dst.reset with results := [dres] } } }, acc (by decide), by decide⟩,
   ⟨rq [], after 0x0A03 false (rq []) (tst 2), cal .manager, tst 2, acc (by decide), by decide⟩,
   ⟨0, tst 2, by decide⟩,
   ⟨rq [], after 0x0A04 false (rq []) (mg), cal .manager, mg, acc (by decide)⟩,
   ⟨rq [0, 0, 0, 0], after 0x0A05 false (rq [0, 0, 0, 0]) (mg), cal .manager, [0, 0, 0, 0], mg, acc (by decide), by decide⟩,
   ⟨rq [1, 0, 0, 0], after 0x0A05 false (rq [1, 0, 0, 0]) (mg), cal .manager, [1, 0, 0, 0], mg, acc (by decide), by decide⟩⟩

end Sys2Proof.Tests.W08

namespace Sys2Proof.Tests.W09
set_option linter.all false
open Sys2Proof Sys2Proof.Machine

def dreq (op fl n : Nat) : DgeReq := { pair := 7, op := op, flags := fl, ctx := 0, keysrc := 0, keyslot := 0, dst := 0, len := n, handle := 0, offset := 0 }
def dS (r : DgeReq) : Machine.State := { up with dge := { Dge.reset with run := [(0, r)] } }
def pkS (op slot : Nat) : Machine.State := put [(Fld.PKE_REQ_D_0_OP 7, op), (Fld.PKE_REQ_D_0_SLOT 7, slot), (Fld.PKE_CTRL_EN, 1), (Fld.KST_DRBG_READY, 1)] { up with dge := { Dge.reset with pkeQ := [7] }, kst := { Kst.reset with slots := [(3, { key0 with typ := 1 }), (63, { key0 with typ := 3 })] } }
def sgOn : Machine.State := put [(Fld.SGN_CTRL_EN, 1)] up
def evE : SEntry := { typ := 2, eflags := 0, idx := 0, boot := 1, time := 0, keyId := zeros 8, first := 0, prev := [], items := [], settings := [], reason := 0, state := 0, sig := [], done := true }
def evIt : MItem := { comp := 0x0101, digest := zeros 48, version := 0, svn := 0 }
def lr (i : Nat) : LktRec := { code := 1025, idx := i, boot := 1, time := 5, p1 := 0, p2 := 0, p3 := 0, p4 := 0 }
def lkOn : Machine.State := put [(Fld.LKT_CTRL_EN, 1)] { up with lkt := { Lkt.reset with next := 2, ring := [lr 0, lr 1], due := true } }
def cd (op len st : Nat) : ClsSlot := { op := op, flags := 0, tag := 0, addr := 4096, len := len, data := 2 ^ 62, param := 0, poster := 0, st := st, seq := 0, status := 0, words := 0, at_ := 0, vals := [] }
def cS (d : ClsSlot) : Machine.State := { up with cls := { Cls'.reset with slots := [(31, d)] } }
def erS (st : Nat) : Machine.State := { up with cls := { Cls'.reset with erase := some { slot := 31, sector := 1, st := st, since := 0 }, slots := [(31, { cd 3 4096 2 with flags := 1 })] } }
def crS : Machine.State := put [(Fld.CLS_CR_ADDR_VALUE, 0), (Fld.CLS_CR_LEN_VALUE, 0x4000000)] { up with cls := { Cls'.reset with nor := [(0, 9)] } }
def cr1 : ClsCr := { master := 0, addr := 0, len := 16, pos := 0, grant := 0, ue := false }

/-- The slab's first bytes are those of `d`. -/
def dB (d : List Byte) (r : DgeReq) : Machine.State := { dS r with fab := { up.fab with mem := d.zipIdx.map fun e => (0x20000000 + e.2, e.1) } }

/-- States that meet the hypotheses of DigestEngine, clause by clause. -/
theorem witness_DigestEngine :
    (∃ (p : Fin 8) (r : DgeReq) (d : List Byte) (s : Machine.State), dgeRuns s p 0 r d) ∧
    (∃ (p : Fin 8) (r : DgeReq) (d : List Byte) (s : Machine.State), dgeRuns s p 1 r d) ∧
    (∃ (p : Fin 8) (r : DgeReq) (d : List Byte) (s : Machine.State), dgeRuns s p 2 r d ∧ r.keysrc = 2) ∧
    (∃ (p : Fin 8) (r : DgeReq) (d : List Byte) (s : Machine.State), dgeRuns s p 3 r d ∧ r.keysrc = 2) ∧
    (∃ (p : Fin 8) (r : DgeReq) (info : List Byte) (d : List Byte) (n : Nat) (s : Machine.State), n < 65536 ∧ d = info ++ le 2 n ∧ dgeRuns s p 4 r d ∧ r.keysrc = 2) ∧
    (∃ (p : Fin 8) (r : DgeReq) (d : List Byte) (s : Machine.State), s.dge.run = [(0, r)] ∧ s.dge.queue = [] ∧ s.dge.held = [] ∧ r.pair = p.val ∧ r.op = 0 ∧ r.flags % 8 = 5 ∧ r.keysrc = 0 ∧ dgeData s r = d) ∧
    (∃ (m : Master) (q : Nat) (s : Machine.State), decideWrite s (whoOf s m) Reg.DGE_SNOOP_CTRL = .admitted q ∧ fget s Fld.DGE_SNOOP_CTRL_ARMED < 4 ∧ s.dge.snoop = none) ∧
    (∃ (m : Master) (q : Nat) (k : Nat) (b : List Byte) (s : Machine.State), decideWrite s (whoOf s m) Reg.DGE_SNOOP_CTRL = .admitted q ∧ s.dge.snoop = some (k, b)) ∧
    (∃ (m : Master) (q : Nat) (s : Machine.State), decideWrite s (whoOf s m) Reg.DGE_LATCH = .admitted q) ∧
    (∃ (m : Master) (q : Nat) (s : Machine.State), decideWrite s (whoOf s m) Reg.DGE_LATCH = .admitted q) :=
  ⟨⟨7, dreq 0 3 3, [1, 2, 3], dB [1, 2, 3] (dreq 0 3 3), by unfold dgeRuns; decide⟩,
   ⟨7, dreq 1 3 0, [], dS (dreq 1 3 0), by unfold dgeRuns; decide⟩,
   ⟨7, { dreq 2 3 1 with keysrc := 2 }, [1], dB [1] { dreq 2 3 1 with keysrc := 2 }, by unfold dgeRuns; decide⟩,
   ⟨7, { dreq 3 3 1 with keysrc := 2 }, [1], dB [1] { dreq 3 3 1 with keysrc := 2 }, by unfold dgeRuns; decide⟩,
   ⟨7, { dreq 4 3 3 with keysrc := 2 }, [1], [1] ++ le 2 48, 48, dB [1, 48, 0] { dreq 4 3 3 with keysrc := 2 }, by unfold dgeRuns; decide⟩,
   ⟨7, dreq 0 5 2, [1, 2], dB [1, 2] (dreq 0 5 2), by decide⟩,
   ⟨.pair 0, 0, put [(Fld.DGE_SNOOP_CTRL_ARMED, 3)] up, by decide⟩,
   ⟨.pair 0, 0, 0, [], { up with dge := { Dge.reset with snoop := some (0, []) } }, by decide⟩,
   ⟨.pair 0, 0, up, by decide⟩,
   ⟨.pair 0, 0, up, by decide⟩⟩

/-- States that meet the hypotheses of PublicKeyEngine, clause by clause. -/
theorem witness_PublicKeyEngine :
    (∃ (p : Fin 8) (slot : Nat) (s : Machine.State), pkeReady s p 1 slot ∧ seedSlot s slot = true ∧ (kslot s slot).st ≠ 0 ∧ entropyBad s = false) ∧
    (∃ (p : Fin 8) (slot : Nat) (s : Machine.State), pkeReady s p 2 slot) ∧
    (∃ (p : Fin 8) (slot : Nat) (s : Machine.State), pkeReady s p 3 slot ∧ 16 ≤ slot ∧ slot < 64 ∧ entropyBad s = false) ∧
    (∃ (p : Fin 8) (slot : Nat) (s : Machine.State), pkeReady s p 4 slot ∧ seedSlot s slot = true ∧ (kslot s slot).st ≠ 0) ∧
    (∃ (p : Fin 8) (slot : Nat) (s : Machine.State), pkeReady s p 1 slot ∧ seedSlot s slot = true ∧ (kslot s slot).st ≠ 0 ∧ entropyBad s = false) :=
  ⟨⟨7, 3, pkS 1 3, by unfold pkeReady; decide⟩,
   ⟨7, 0, pkS 2 0, by unfold pkeReady; decide⟩,
   ⟨7, 63, pkS 3 63, by unfold pkeReady; decide⟩,
   ⟨7, 3, pkS 4 3, by unfold pkeReady; decide⟩,
   ⟨7, 3, pkS 1 3, by unfold pkeReady; decide⟩⟩

/-- States that meet the hypotheses of SignetLedger, clause by clause. -/
theorem witness_SignetLedger :
    (∃ (m : Master) (typ : Nat) (items : List MItem) (settings : List Byte) (reason : Nat) (state : Nat) (q : Nat) (c : Nat) (s : Machine.State), decideWrite s (whoOf s m) Reg.SGN_APPEND = .admitted q ∧ fone s Fld.SGN_CTRL_EN = true ∧ fone s Fld.SGN_APPEND_GO = false ∧ s.sgn.app = none ∧ itemsOk typ items = true ∧ typ ≠ 4 ∧ cellPlace s.sgn (ownItems s typ ++ items).length (typ == 3) = some c ∧ carded s midPke = false ∧ pulsesBlocked s = false) ∧
    (∃ (c : Nat) (e : SEntry) (s : Machine.State), pulsesBlocked s = false ∧ s.sgn.app = some c ∧ SMap.find s.sgn.ents c = some e) ∧
    (∃ (c : Nat) (seg : Nat) (s : Machine.State), s.sgn.app = none ∧ compactDue s.sgn = true ∧ fone s Fld.SGN_CTRL_EN = true ∧ pulsesBlocked s = false ∧ carded s midPke = false ∧ volleyNeeds s (segEntries s.sgn seg) = false ∧ seg = (s.sgn.head / 256 + 1) % ringSegs ∧ (∀ e, e ∈ segEntries s.sgn seg → e.idx ∉ keptBoots s.sgn) ∧ cellPlace s.sgn 5 true = some c) :=
  ⟨⟨.pair 0, 2, [evIt], zeros 48, 0, 0, 0, 0, sgOn, by decide⟩,
   ⟨0, { evE with done := false }, { sgOn with sgn := { Sgn.reset with ents := [(0, { evE with done := false })], app := some 0 } }, by decide⟩,
   ⟨0, 1, { sgOn with sgn := { Sgn.reset with ents := [(256, evE)], next := 1 } }, by decide⟩⟩

/-- States that meet the hypotheses of LocketRecorder, clause by clause. -/
theorem witness_LocketRecorder :
    (∃ (p : Fin 8) (q : Nat) (src : Nat) (ev : Nat) (s : Machine.State), decideWrite s (whoOf s (.pair p)) (Reg.LKT_POST_GO p.val) = .admitted q ∧ src = fget s (Fld.LKT_POST_CODE_CODE p.val) / 1024 % 32 ∧ ev = fget s (Fld.LKT_POST_CODE_CODE p.val) % 1024 ∧ src ≠ 22 ∧ src ≠ 23 ∧ src ≠ 12 ∧ SMap.getD s.lkt.rate src 0 < max 1 (fget s Fld.LKT_RATE_PER_MS) ∧ s.lkt.lostNew = 0 ∧ lktRoom s.lkt = true) ∧
    (∃ (x : LktRec) (xs : List LktRec) (s : Machine.State), fone s Fld.LKT_CTRL_EN = true ∧ s.lkt.freeze = none ∧ s.lkt.flush = none ∧ pulsesBlocked s = false ∧ readHolds s = false ∧ unflushed s.lkt = x :: xs ∧ (max 1 (fget s Fld.LKT_FLUSH_WATER) ≤ xs.length + 1 ∨ s.lkt.due = true)) ∧
    (∃ (first : Nat) (n : Nat) (s : Machine.State), pulsesBlocked s = false ∧ s.lkt.flush = some (first, n) ∧ n ≠ 0) ∧
    (∃ (f : LktFreeze) (s : Machine.State), s.lkt.freeze = some f) :=
  ⟨⟨7, 0, 1, 1, put [(Fld.LKT_POST_CODE_CODE 7, 1025)] up, by decide⟩,
   ⟨lr 0, [lr 1], lkOn, by decide⟩,
   ⟨0, 2, { lkOn with lkt := { lkOn.lkt with flush := some (0, 2) } }, by decide⟩,
   ⟨{ session := 7, start := 0, endTime := 9, lost0 := 0 }, { up with lkt := { Lkt.reset with freeze := some { session := 7, start := 0, endTime := 9, lost0 := 0 } } }, by decide⟩⟩

/-- States that meet the hypotheses of ClaspDescriptors, clause by clause. -/
theorem witness_ClaspDescriptors :
    (∃ (i : Nat) (d : ClsSlot) (s : Machine.State), clsGo s 1 i d) ∧
    (∃ (i : Nat) (d : ClsSlot) (s : Machine.State), clsGo s 2 i d) ∧
    (∃ (i : Nat) (d : ClsSlot) (s : Machine.State), clsGo s 3 i d) ∧
    (∃ (i : Nat) (d : ClsSlot) (s : Machine.State), clsTurn s = some (i, d) ∧ d.op = 3 ∧ clsFree s d = true ∧ clsCheck s d = some (ST_BUSY, 0)) ∧
    (∃ (i : Nat) (d : ClsSlot) (s : Machine.State), clsGo s 4 i d) ∧
    (∃ (i : Nat) (d : ClsSlot) (s : Machine.State), clsGo s 5 i d) ∧
    (∃ (i : Nat) (d : ClsSlot) (s : Machine.State), clsGo s 6 i d) ∧
    (∃ (i : Nat) (d : ClsSlot) (s : Machine.State), clsGo s 7 i d) ∧
    (∃ (i : Fin 32) (k : Nat) (corr : List Nat) (bad : List Nat) (d : ClsSlot) (s : Machine.State), SMap.find s.cls.slots i.val = some d ∧ d.st = 2 ∧ d.op = 2 ∧ pulsesBlocked s = false ∧ fone s Fld.CLS_STATUS_PFAIL = false) ∧
    (∃ (i : Fin 32) (k : Nat) (corr : List Nat) (bad : List Nat) (d : ClsSlot) (s : Machine.State), SMap.find s.cls.slots i.val = some d ∧ d.st = 2 ∧ d.op = 3) ∧
    (∃ (i : Fin 32) (k : Nat) (d : ClsSlot) (s : Machine.State), SMap.find s.cls.slots i.val = some d ∧ d.st = 2 ∧ d.op = 1 ∧ (∀ j, j < d.len / 8 → (SMap.find s.cls.nor (d.addr / 8 + j)).isSome = true)) ∧
    (∃ (i : Fin 32) (k : Nat) (corr : List Nat) (bad : List Nat) (d : ClsSlot) (s : Machine.State), SMap.find s.cls.slots i.val = some d ∧ d.st = 2 ∧ d.op = 5) ∧
    (∃ (i : Fin 32) (k : Nat) (corr : List Nat) (bad : List Nat) (d : ClsSlot) (s : Machine.State), SMap.find s.cls.slots i.val = some d ∧ d.st = 2 ∧ d.op = 6) ∧
    (∃ (i : Fin 32) (k : Nat) (corr : List Nat) (bad : List Nat) (d : ClsSlot) (s : Machine.State), SMap.find s.cls.slots i.val = some d ∧ d.st = 2 ∧ d.op = 7 ∧ d.data = s.cls.pw) :=
  ⟨⟨31, cd 1 4096 1, cS (cd 1 4096 1), by unfold clsGo; decide⟩,
   ⟨31, { cd 2 8 1 with addr := 33554432 }, cS { cd 2 8 1 with addr := 33554432 }, by unfold clsGo; decide⟩,
   ⟨31, cd 3 4096 1, cS (cd 3 4096 1), by unfold clsGo; decide⟩,
   ⟨30, cd 3 4096 1, { erS 1 with cls := { (erS 1).cls with slots := [(30, cd 3 4096 1), (31, { cd 3 4096 2 with flags := 1 })] } }, by decide⟩,
   ⟨31, cd 4 8 1, cS (cd 4 8 1), by unfold clsGo; decide⟩,
   ⟨31, cd 5 4096 1, cS (cd 5 4096 1), by unfold clsGo; decide⟩,
   ⟨31, cd 6 4096 1, cS (cd 6 4096 1), by unfold clsGo; decide⟩,
   ⟨31, cd 7 0 1, cS (cd 7 0 1), by unfold clsGo; decide⟩,
   ⟨31, 0, [], [], { cd 2 8 2 with vals := [5] }, cS { cd 2 8 2 with vals := [5] }, by decide⟩,
   ⟨31, 0, [], [], cd 3 4096 2, cS (cd 3 4096 2), by decide⟩,
   ⟨31, 0, cd 1 8 2, { cS (cd 1 8 2) with cls := { (cS (cd 1 8 2)).cls with nor := [(512, 7)] } }, by decide⟩,
   ⟨31, 0, [], [], cd 5 4096 2, cS (cd 5 4096 2), by decide⟩,
   ⟨31, 0, [], [], cd 6 4096 2, cS (cd 6 4096 2), by decide⟩,
   ⟨31, 0, [], [], { cd 7 0 2 with data := 0xFFFFFFFFFFFFFFFF }, cS { cd 7 0 2 with data := 0xFFFFFFFFFFFFFFFF }, by decide⟩⟩

/-- States that meet the hypotheses of ClaspStore, clause by clause. -/
theorem witness_ClaspStore :
    (∃ (m : Master) (v : Word) (q : Nat) (s : Machine.State), decideWrite s (whoOf s m) Reg.CLS_RELEASE = .admitted q) ∧
    (∃ (e : ClsErase) (d : ClsSlot) (s : Machine.State), s.cls.erase = some e ∧ SMap.find s.cls.slots e.slot = some d ∧ e.st = 1 ∧ d.yields = true ∧ clsWork s = true) ∧
    (∃ (e : ClsErase) (d : ClsSlot) (s : Machine.State), s.cls.erase = some e ∧ SMap.find s.cls.slots e.slot = some d ∧ e.st = 2 ∧ clsWork s = false) ∧
    (∃ (m : Master) (q : Nat) (a : Nat) (n : Nat) (v : Nat) (s : Machine.State), decideWrite s (whoOf s m) Reg.CLS_CR_CTRL = .admitted q ∧ s.cls.cr = none ∧ fget s Fld.CLS_CR_ADDR_VALUE = a ∧ fget s Fld.CLS_CR_LEN_VALUE = n ∧ a % 8 = 0 ∧ n % 8 = 0 ∧ 16 ≤ n ∧ a + n ≤ 0x4000000 ∧ fone s Fld.CLS_STATUS_BLOCK_AON = false ∧ (a / 8) / 512 ∉ s.cls.open_ ∧ s.cls.erase = none ∧ SMap.find s.cls.nor (a / 8) = some v ∧ s.dge.snoop = none) ∧
    (∃ (m : Master) (q : Nat) (a : Nat) (n : Nat) (v : Nat) (s : Machine.State), decideWrite s (whoOf s m) Reg.CLS_CR_CTRL = .admitted q ∧ s.cls.cr = none ∧ fget s Fld.CLS_CR_ADDR_VALUE = a ∧ fget s Fld.CLS_CR_LEN_VALUE = n ∧ a % 8 = 0 ∧ n % 8 = 0 ∧ 16 ≤ n ∧ a + n ≤ 0x4000000 ∧ fone s Fld.CLS_STATUS_BLOCK_AON = false ∧ (a / 8) / 512 ∉ s.cls.open_ ∧ s.cls.erase = none ∧ SMap.find s.cls.nor (a / 8) = some v ∧ s.dge.snoop = none) ∧
    (∃ (m : Master) (q : Nat) (c : ClsCr) (s : Machine.State), decideWrite s (whoOf s m) Reg.CLS_CR_CTRL = .admitted q ∧ s.cls.cr = some c) ∧
    (∃ (s : Machine.State), fone s Fld.CLS_STATUS_BLOCK_AON = false) :=
  ⟨⟨.pair 0, 0xFFFFFFFF, 0, up, by decide⟩,
   ⟨{ slot := 31, sector := 1, st := 1, since := 0 }, { cd 3 4096 2 with flags := 1 }, { erS 1 with cls := { (erS 1).cls with slots := [(30, cd 1 8 1), (31, { cd 3 4096 2 with flags := 1 })] } }, by decide⟩,
   ⟨{ slot := 31, sector := 1, st := 2, since := 0 }, { cd 3 4096 2 with flags := 1 }, erS 2, by decide⟩,
   ⟨.pair 0, 0, 0, 0x4000000, 9, crS, by decide⟩,
   ⟨.pair 0, 0, 0, 0x4000000, 9, crS, by decide⟩,
   ⟨.pair 0, 0, cr1, { up with cls := { Cls'.reset with cr := some cr1 } }, by decide⟩,
   ⟨up, by decide⟩⟩

end Sys2Proof.Tests.W09

namespace Sys2Proof.Tests.W10
set_option linter.all false
open Sys2Proof Sys2Proof.Machine

def sq0 : Sq := { size := 4, head := 0, tail := 0, cq := 0, stamps := [], del := none }
def sqR : Sq := { size := 4, head := 3, tail := 1, cq := 0, stamps := [(1, 0)], del := none }
def cqe0 : Cqe := { sqid := 0, cid := 1, status := 0, dw0 := 0, dw1 := 0, data := [] }
def cq0 : Cq := { size := 4, vector := 0, posted := [cqe0], head := 3, coal := 1 }
def sl4 : Slice := { sl0 with slots := [(0, 0)], dflt := 0, mask := 1 }
def hq (sqs : SMap Sq) (cqs : SMap Cq) (ctx : SMap Ctx) : Machine.State := { linked with hst := { linked.hst with sqs := sqs, cqs := cqs, ctx := ctx } }
def pg (sqs : SMap Sq) (cqs : SMap Cq) : Machine.State := withSl sl4 (hq sqs cqs [])
def portS (x : Port) : Machine.State := put [(Fld.HPT_LINK_DL_UP 0, 1)] { up with hst := { Hst.reset with ports := [(0, x)] } }
def rdyC : Ctx := { rctx with qid := 0, st := .ready 2 3 4, slice := none }
def lk (l : List (Field × Nat)) : Machine.State := put l linked

/-- States that meet the hypotheses of DoorbellsAndController, clause by clause. -/
theorem witness_DoorbellsAndController :
    (∃ (p : Fin 4) (v : Nat) (q : Sq) (s : Machine.State), SMap.find s.hst.sqs (p.val * 65536) = some q ∧ portReady s p.val = true ∧ v < q.size) ∧
    (∃ (p : Fin 4) (v : Nat) (q : Cq) (s : Machine.State), SMap.find s.hst.cqs (p.val * 65536) = some q ∧ portReady s p.val = true ∧ v < q.size) ∧
    (∃ (p : Fin 4) (off : Nat) (s : Machine.State), linkUp s p.val = true ∧ 0x1008 ≤ off ∧ off < 0x10000 ∧ recordable s 1) ∧
    (∃ (p : Fin 4) (page : Nat) (q : Nat) (v : Nat) (pasid : Option Nat) (x : Sq) (s : Machine.State), pageCheck s p.val page q pasid = 0 ∧ SMap.find s.hst.sqs (localKey s p.val page q) = some x ∧ x.del = none ∧ v < x.size) ∧
    (∃ (p : Fin 4) (page : Nat) (q : Nat) (v : Nat) (pasid : Option Nat) (x : Cq) (s : Machine.State), pageCheck s p.val page q pasid = 0 ∧ SMap.find s.hst.cqs (localKey s p.val page q) = some x ∧ v < x.size) ∧
    (∃ (p : Fin 4) (page : Nat) (q : Nat) (v : Nat) (pasid : Option Nat) (s : Machine.State), pageCheck s p.val page q pasid = 1) ∧
    (∃ (p : Fin 4) (page : Nat) (q : Nat) (v : Nat) (pasid : Option Nat) (s : Machine.State), pageCheck s p.val page q pasid = 2 ∧ midValid s (midSlice page) = true) ∧
    (∃ (p : Fin 4) (asqs : Nat) (acqs : Nat) (s : Machine.State), linkUp s p.val = true ∧ s.bot.run = true ∧ (portGet s p.val).en = false ∧ (SMap.find s.hst.ports p.val).isSome = true) ∧
    (∃ (p : Fin 4) (s : Machine.State), (portGet s p.val).en = true) ∧
    (∃ (p : Fin 4) (s : Machine.State), linkUp s p.val = true ∧ (portGet s p.val).en = true ∧ (portGet s p.val).shn = false) ∧
    (∃ (p : Fin 4) (s : Machine.State), (portGet s p.val).shn = true ∧ (portGet s p.val).shst = 1 ∧ (∀ e, e ∈ s.hst.ctx → e.2.port = p.val → e.2.aer = true)) :=
  ⟨⟨0, 3, sq0, hq [(0, sq0)] [] [], by decide⟩,
   ⟨0, 0, cq0, hq [] [(0, cq0)] [], by decide⟩,
   ⟨0, 0x1008, linked, by unfold recordable; decide⟩,
   ⟨0, 3, 1, 3, some 77, sq0, pg [(1, sq0)] [], by decide⟩,
   ⟨0, 3, 1, 0, some 77, cq0, pg [] [(1, cq0)], by decide⟩,
   ⟨0, 4, 1, 0, none, pg [(1, sq0)] [], by decide⟩,
   ⟨0, 3, 63, 5, some 76, put [(Fld.ACM_CTRL_PASID_DB_CHECK, 1)] (withSl sl4 linked), by decide⟩,
   ⟨0, 3, 4095, portS { port0 with en := false, rdy := false }, by decide⟩,
   ⟨0, linked, by decide⟩,
   ⟨0, linked, by decide⟩,
   ⟨0, portS { port0 with shn := true, shst := 1 }, by decide⟩⟩

def sl5 : Slice := { sl0 with slots := [(0, 1)] }

/-- States that meet the hypotheses of FetchAndCompletion, clause by clause. -/
theorem witness_FetchAndCompletion :
    (∃ (p : Fin 4) (cid : Nat) (opc : Nat) (nsid : Nat) (slba : Nat) (q : Sq) (d : Bool) (s : Machine.State), SMap.find s.hst.sqs (p.val * 65536) = some q ∧ portFetches s p.val = true ∧ sqHas q = true ∧ cid < 65536 ∧ SMap.find s.hst.ctx (ctxKey p.val 0 cid) = none ∧ ctxTake s p.val true = some d) ∧
    (∃ (p : Fin 4) (q : Nat) (cid : Nat) (opc : Nat) (nsid : Nat) (slba : Nat) (n : Nat) (x : Slice) (sq : Sq) (d : Bool) (tn : Turn) (s : Machine.State), q ≠ 0 ∧ q < 65536 ∧ SMap.find s.hst.sqs (p.val * 65536 + q) = some sq ∧ portFetches s p.val = true ∧ sqHas sq = true ∧ cid < 65536 ∧ SMap.find s.hst.ctx (ctxKey p.val q cid) = none ∧ (∀ a, SMap.find s.hst.sqs (p.val * 65536) = some a → sqHas a = false) ∧ queueSlice s (p.val * 65536 + q) = some n ∧ SMap.find s.slm.slices n = some x ∧ ctxTake s p.val false = some d ∧ sliceFetches s n = true ∧ turnFor s p.val n q = some tn) ∧
    (∃ (x : Nat) (c : Ctx) (st : Nat) (a : Nat) (b : Nat) (q : Cq) (s : Machine.State), SMap.find s.hst.ctx x = some c ∧ c.st = .ready st a b ∧ SMap.find s.hst.cqs (cqOf s c) = some q ∧ linkUp s c.port = true ∧ sliceHalts s c.slice = false ∧ pasidStray s c = false ∧ q.posted.length + 1 < q.size) ∧
    (∃ (x : Nat) (c : Ctx) (st : Nat) (a : Nat) (b : Nat) (q : Cq) (y : Sq) (s : Machine.State), SMap.find s.hst.ctx x = some c ∧ c.st = .ready st a b ∧ SMap.find s.hst.cqs (cqOf s c) = some q ∧ q.size ≤ q.posted.length + 1 ∧ SMap.find s.hst.sqs (c.port * 65536 + c.qid) = some y ∧ y.del = none ∧ pasidStray s c = false) ∧
    (∃ (x : Nat) (c : Ctx) (st : Nat) (a : Nat) (b : Nat) (q : Cq) (s : Machine.State), SMap.find s.hst.ctx x = some c ∧ c.st = .ready st a b ∧ SMap.find s.hst.cqs (cqOf s c) = some q ∧ linkUp s c.port = true ∧ sliceHalts s c.slice = false ∧ pasidStray s c = true ∧ midValid s (midPort c.port) = true) ∧
    (∃ (x : Nat) (c : Ctx) (s : Machine.State), SMap.find s.hst.ctx x = some c ∧ sliceHalts s c.slice = true) ∧
    (∃ (p : Fin 4) (v : Nat) (s : Machine.State), v < 2048 ∧ coalSum s p.val v ≠ 0) ∧
    (∃ (p : Fin 4) (q : Nat) (x : Nat) (sq : Sq) (s : Machine.State), SMap.find s.hst.sqs (p.val * 65536 + q) = some sq ∧ sq.del = some x ∧ (∀ e, e ∈ s.hst.ctx → ¬(e.2.port = p.val ∧ e.2.qid = q)) ∧ (∀ n y, qidSlice s p.val q = some (n, y) → y.resetting = false)) ∧
    (∃ (p : Fin 4) (q : Nat) (n : Nat) (y : Slice) (s : Machine.State), qidSlice s p.val q = some (n, y) ∧ y.resetting = true) :=
  ⟨⟨0, 65535, 6, 0, 0, sqR, false, hq [(0, sqR)] [] [], by decide⟩,
   ⟨0, 1, 0, 2, 49, 7, 3, sl4, sqR, false, { slice := 3, left := 1, used := [(3, 1)], last := [] }, pg [(1, sqR)] [], by decide⟩,
   ⟨1, rdyC, 2, 3, 4, cq0, hq [] [(0, cq0)] [(1, rdyC)], by decide⟩,
   ⟨1, rdyC, 2, 3, 4, { cq0 with size := 2 }, sq0, hq [(0, sq0)] [(0, { cq0 with size := 2 })] [(1, rdyC)], by decide⟩,
   ⟨1, { rdyC with slice := some 3, pasid := some 78 }, 2, 3, 4, cq0, withSl sl4 (hq [] [(0, cq0)] [(1, { rdyC with slice := some 3, pasid := some 78 })]), by decide⟩,
   ⟨1, { rdyC with slice := some 3 }, withSl { sl4 with resetting := true } (hq [] [(0, cq0)] [(1, { rdyC with slice := some 3 })]), by decide⟩,
   ⟨0, 0, hq [] [(0, cq0)] [], by decide⟩,
   ⟨0, 1, 1, { sqR with del := some 1 }, hq [(1, { sqR with del := some 1 })] [] [(1, { rctx with qid := 0 })], by decide, by decide, by decide, fun n y h => by cases h⟩,
   ⟨0, 65, 3, { sl5 with resetting := true }, withSl { sl5 with resetting := true } linked, by decide⟩⟩

/-- States that meet the hypotheses of HostLinks, clause by clause. -/
theorem witness_HostLinks :
    (∃ (p : Fin 4) (s : Machine.State), portThere s p.val = true ∧ (portGet s p.val).perst = false) ∧
    (∃ (p : Fin 4) (x : Port) (s : Machine.State), portThere s p.val = true ∧ SMap.find s.hst.ports p.val = some x) ∧
    (∃ (p : Fin 4) (s : Machine.State), linkUp s p.val = true) ∧
    (∃ (p : Fin 4) (s : Machine.State), linkUp s p.val = true) ∧
    (∃ (p : Fin 4) (s : Machine.State), linkUp s p.val = true) ∧
    (∃ (p : Fin 4) (speed : Nat) (width : Nat) (flit : Bool) (s : Machine.State), mayTrain s p.val = true ∧ (SMap.find s.hst.ports p.val).isSome = true ∧ 1 ≤ speed ∧ speed ≤ 6 ∧ widthOk width = true ∧ width ≤ portLanes s p.val ∧ (speed = 6 → flit = true)) ∧
    (∃ (p : Fin 4) (width : Nat) (s : Machine.State), linkUp s p.val = true ∧ widthOk width = true ∧ width < (portGet s p.val).trained) ∧
    (∃ (p : Fin 4) (speed : Nat) (s : Machine.State), linkUp s p.val = true ∧ 1 ≤ speed ∧ speed < fget s (Fld.HPT_LINK_SPEED p.val)) ∧
    (∃ (p : Fin 4) (s : Machine.State), linkUp s p.val = true) ∧
    (∃ (p : Fin 4) (width : Nat) (s : Machine.State), linkUp s p.val = true ∧ widthOk width = true ∧ width ≤ (portGet s p.val).trained ∧ fget s (Fld.HPT_LINK_LTSSM p.val) = 3) ∧
    (∃ (p : Fin 4) (s : Machine.State), linkUp s p.val = true) ∧
    (∃ (p : Fin 4) (s : Machine.State), linkUp s p.val = true ∧ fget s (Fld.HPT_LINK_LTSSM p.val) = 5) ∧
    (∃ (p : Fin 4) (s : Machine.State), linkUp s p.val = true) ∧
    (∃ (p : Fin 4) (s : Machine.State), linkUp s p.val = true) ∧
    (∃ (p : Fin 4) (s : Machine.State), linkUp s p.val = true ∧ (portGet s p.val).ecrc = true) ∧
    (∃ (p : Fin 4) (s : Machine.State), (portGet s p.val).ecrc = false) :=
  ⟨⟨0, linked, by decide⟩,
   ⟨0, port0, linked, by decide⟩,
   ⟨0, linked, by decide⟩,
   ⟨0, linked, by decide⟩,
   ⟨0, linked, by decide⟩,
   ⟨0, 6, 16, true, linked, by decide⟩,
   ⟨0, 1, portS { port0 with trained := 16 }, by decide⟩,
   ⟨0, 1, lk [(Fld.HPT_LINK_SPEED 0, 6)], by decide⟩,
   ⟨0, linked, by decide⟩,
   ⟨0, 1, put [(Fld.HPT_LINK_LTSSM 0, 3)] linked, by decide⟩,
   ⟨0, linked, by decide⟩,
   ⟨0, lk [(Fld.HPT_LINK_LTSSM 0, 5)], by decide⟩,
   ⟨0, linked, by decide⟩,
   ⟨0, linked, by decide⟩,
   ⟨0, portS { port0 with ecrc := true }, by decide⟩,
   ⟨0, linked, by decide⟩⟩

end Sys2Proof.Tests.W10

namespace Sys2Proof.Tests.W11
set_option linter.all false
open Sys2Proof Sys2Proof.Machine

def adC : AdminCmd := { port := 0, cid := 9, nsid := 49, prp1 := 4096, cdw10 := 0, cdw11 := 0, cdw12 := 0, cdw13 := 0, cdw14 := 0, cdw15 := 0, data := [] }
def adX (a b : Word) : AdminCmd := { adC with cdw10 := a, cdw11 := b }
def adK (o : Nat) : Ctx := { rctx with qid := 0, cid := 9, opcode := o, slice := none, st := .fetched, nsid := 0 }
def adS (o : Nat) (s : Machine.State) : Machine.State := { s with hst := { s.hst with ctx := [(9, adK o)] } }
def sl4 : Slice := { sl0 with slots := [(0, 1)] }
def adQ : Machine.State := withSl sl4 linked
def sq0 : Sq := { size := 4, head := 0, tail := 1, cq := 64, stamps := [(1, 0)], del := none }
def cq0 : Cq := { size := 4, vector := 0, posted := [], head := 3, coal := 1 }
def withQ (a : SMap Sq) (b : SMap Cq) (s : Machine.State) : Machine.State := { s with hst := { s.hst with sqs := a, cqs := b } }
def adL : AdminCmd := adX 0x000F0000 0
def evS (l : List Nat) : Machine.State := { linked with hst := { linked.hst with ports := [(0, { port0 with events := l })] } }
def inS (d : Option Download) : Machine.State := { linked with bot := { linked.bot with sets := [(4, [1])], dl := d } }
def dlN (b : List Byte) (w : Bool) : Download := { owner := 64, bytes := b, whole := w }
def img1 : Image := { Image.factory with svn := [9, 9, 9] }
def inA : Machine.State := { inS none with bot := { (inS none).bot with bcr := { Bcr.reset with valid := 3 }, img := [(0, Image.factory), (1, img1)] } }
theorem go {c : AdminCmd} {o : Nat} {s : Machine.State} (k : Ctx) (h : s.bot.run = true ∧ (SMap.find s.hst.ports c.port.val).isSome = true ∧
    SMap.find s.hst.ctx (adminKey c) = some k ∧ k.st = .fetched ∧ k.opcode = o) : adminGo s c o := ⟨h.1, h.2.1, k, h.2.2⟩

/-- States that meet the hypotheses of AdminQueuesAndIdentify, clause by clause. -/
theorem witness_AdminQueuesAndIdentify :
    (∃ (c : AdminCmd) (n : Nat) (x : Slice) (s : Machine.State), adminGo s c 5 ∧ qidSlice s c.port.val (cdw c.cdw10 0 16) = some (n, x) ∧ queueCheck s s.hst.cqs c.port.val (cdw c.cdw10 0 16) = 0 ∧ cdw c.cdw11 16 16 ≤ 2039 ∧ 1 ≤ cdw c.cdw10 16 16 ∧ bit c.cdw11.toNat 0 = true ∧ x.dmaBase ≤ c.prp1 ∧ c.prp1 + 16 * (cdw c.cdw10 16 16 + 1) ≤ x.dmaLimit + 1) ∧
    (∃ (c : AdminCmd) (n : Nat) (x : Slice) (s : Machine.State), adminGo s c 1 ∧ qidSlice s c.port.val (cdw c.cdw10 0 16) = some (n, x) ∧ queueCheck s s.hst.sqs c.port.val (cdw c.cdw10 0 16) = 0 ∧ cqidOk s c.port.val (cdw c.cdw10 0 16) (cdw c.cdw11 16 16) = true ∧ 1 ≤ cdw c.cdw10 16 16 ∧ bit c.cdw11.toNat 0 = true ∧ x.dmaBase ≤ c.prp1 ∧ c.prp1 + 64 * (cdw c.cdw10 16 16 + 1) ≤ x.dmaLimit + 1) ∧
    (∃ (c : AdminCmd) (s : Machine.State), adminGo s c 1 ∧ qidSlice s c.port.val (cdw c.cdw10 0 16) = none) ∧
    (∃ (c : AdminCmd) (q : Sq) (s : Machine.State), adminGo s c 0 ∧ SMap.find s.hst.sqs (c.port.val * 65536 + cdw c.cdw10 0 16) = some q ∧ q.del = none ∧ cdw c.cdw10 0 16 ≠ 0) ∧
    (∃ (c : AdminCmd) (s : Machine.State), adminGo s c 4 ∧ cdw c.cdw10 0 16 ≠ 0 ∧ (SMap.find s.hst.cqs (c.port.val * 65536 + cdw c.cdw10 0 16)).isSome = true ∧ (∀ e, e ∈ s.hst.sqs → e.1 / 65536 = c.port.val → e.1 % 65536 ≠ 0 → e.2.cq ≠ cdw c.cdw10 0 16)) ∧
    (∃ (c : AdminCmd) (s : Machine.State), adminGo s c 6 ∧ cdw c.cdw10 0 8 = 1) ∧
    (∃ (c : AdminCmd) (n : Ns) (s : Machine.State), adminGo s c 6 ∧ cdw c.cdw10 0 8 = 0 ∧ SMap.find (portNs s c.port.val) c.nsid = some n) ∧
    (∃ (c : AdminCmd) (s : Machine.State), adminGo s c 6 ∧ cdw c.cdw10 0 8 = 0 ∧ SMap.find (portNs s c.port.val) c.nsid = none) ∧
    (∃ (c : AdminCmd) (s : Machine.State), adminGo s c 6 ∧ cdw c.cdw10 0 8 = 2) ∧
    (∃ (c : AdminCmd) (s : Machine.State), adminGo s c 8) ∧
    (∃ (c : AdminCmd) (opc : Nat) (s : Machine.State), adminGo s c opc ∧ adminKnown opc = false) :=
  ⟨⟨adX 0x00030040 3, 3, sl4, adS 5 adQ, go (adK 5) (by decide), by decide⟩,
   ⟨adX 0x00030040 0x00400001, 3, sl4, adS 1 (withQ [] [(64, cq0)] adQ), go (adK 1) (by decide), by decide⟩,
   ⟨adX 0x00030080 1, adS 1 adQ, go (adK 1) (by decide), by decide⟩,
   ⟨adX 64 0, sq0, adS 0 (withQ [(64, sq0)] [] adQ), go (adK 0) (by decide), by decide⟩,
   ⟨adX 64 0, adS 4 (withQ [(65, { sq0 with cq := 65 })] [(64, cq0), (65, cq0)] adQ), go (adK 4) (by decide), by decide⟩,
   ⟨adX 1 0, adS 6 adQ, go (adK 6) (by decide), by decide⟩,
   ⟨adC, ns0, adS 6 (withNs ns0 adQ), go (adK 6) (by decide), by decide⟩,
   ⟨{ adC with nsid := 50 }, adS 6 (withNs ns0 adQ), go (adK 6) (by decide), by decide⟩,
   ⟨{ adX 2 0 with nsid := 48 }, adS 6 (withNs ns0 adQ), go (adK 6) (by decide), by decide⟩,
   ⟨adC, adS 8 adQ, go (adK 8) (by decide)⟩,
   ⟨adC, 0x7F, adS 0x7F adQ, go (adK 0x7F) (by decide), by decide⟩⟩

/-- States that meet the hypotheses of AdminLogs, clause by clause. -/
theorem witness_AdminLogs :
    (∃ (c : AdminCmd) (n : Nat) (s : Machine.State), adminGo s c 2 ∧ logHead c n) ∧
    (∃ (c : AdminCmd) (n : Nat) (s : Machine.State), adminGo s c 2 ∧ logHead c n) ∧
    (∃ (c : AdminCmd) (n : Nat) (s : Machine.State), adminGo s c 2 ∧ logHead c n) ∧
    (∃ (c : AdminCmd) (n : Nat) (s : Machine.State), adminGo s c 2 ∧ logHead c n ∧ s.hst.dst.st = 0) ∧
    (∃ (c : AdminCmd) (n : Nat) (s : Machine.State), adminGo s c 2 ∧ logHead c n) ∧
    (∃ (c : AdminCmd) (n : Nat) (s : Machine.State), adminGo s c 2 ∧ logHead c n) ∧
    (∃ (c : AdminCmd) (n : Nat) (s : Machine.State), adminGo s c 2 ∧ logHead c n) :=
  ⟨⟨adL, 16, adS 2 adQ, go (adK 2) (by decide), by unfold logHead; decide⟩,
   ⟨adL, 16, adS 2 adQ, go (adK 2) (by decide), by unfold logHead; decide⟩,
   ⟨adL, 16, adS 2 adQ, go (adK 2) (by decide), by unfold logHead; decide⟩,
   ⟨adL, 16, adS 2 adQ, go (adK 2) (by decide), by unfold logHead; decide⟩,
   ⟨adX 0 0, 1, adS 2 adQ, go (adK 2) (by decide), by unfold logHead; decide⟩,
   ⟨adL, 16, adS 2 adQ, go (adK 2) (by decide), by unfold logHead; decide⟩,
   ⟨adL, 16, adS 2 adQ, go (adK 2) (by decide), by unfold logHead; decide⟩⟩

/-- States that meet the hypotheses of AdminFeatures, clause by clause. -/
theorem witness_AdminFeatures :
    (∃ (c : AdminCmd) (s : Machine.State), setGo s c 0x01) ∧
    (∃ (c : AdminCmd) (s : Machine.State), setGo s c 0x02 ∧ cdw c.cdw11 0 5 ≤ 4) ∧
    (∃ (c : AdminCmd) (s : Machine.State), setGo s c 0x04 ∧ cdw c.cdw11 16 4 ≤ 8 ∧ cdw c.cdw11 20 2 ≤ 1) ∧
    (∃ (c : AdminCmd) (s : Machine.State), setGo s c 0x07 ∧ portSlices s c.port.val ≠ []) ∧
    (∃ (c : AdminCmd) (s : Machine.State), setGo s c 0x08) ∧
    (∃ (c : AdminCmd) (s : Machine.State), setGo s c 0x09 ∧ cdw c.cdw11 0 16 ≤ 2047) ∧
    (∃ (c : AdminCmd) (s : Machine.State), setGo s c 0x0B) ∧
    (∃ (c : AdminCmd) (s : Machine.State), setGo s c 0x0C ∧ (∀ k, k < 5 → u64 c.data (8 * k) / 8 % 32 ≤ 4)) ∧
    (∃ (c : AdminCmd) (s : Machine.State), adminGo s c 9 ∧ featKnown (cdw c.cdw10 0 8) = false) ∧
    (∃ (c : AdminCmd) (s : Machine.State), adminGo s c 10) ∧
    (∃ (c : AdminCmd) (s : Machine.State), adminGo s c 12 ∧ (portGet s c.port.val).aers.length < 8) :=
  ⟨⟨adX 1 0xFFFFFFFF, adS 9 linked, go (adK 9) (by decide), by decide⟩,
   ⟨adX 2 4, adS 9 linked, ⟨go (adK 9) (by decide), by decide⟩, by decide⟩,
   ⟨adX 4 0x001801F4, adS 9 linked, ⟨go (adK 9) (by decide), by decide⟩, by decide⟩,
   ⟨adX 7 0x00FF00FF, adS 9 adQ, ⟨go (adK 9) (by decide), by decide⟩, by decide⟩,
   ⟨adX 8 0x1234, adS 9 linked, go (adK 9) (by decide), by decide⟩,
   ⟨adX 9 0x107FF, adS 9 linked, ⟨go (adK 9) (by decide), by decide⟩, by decide⟩,
   ⟨adX 0x0B 0x1FF, adS 9 linked, go (adK 9) (by decide), by decide⟩,
   ⟨{ adX 0x0C 1 with data := le 8 (3 * 8 + 256 * 100) ++ zeros 248 }, adS 9 linked, ⟨go (adK 9) (by decide), by decide⟩, by decide⟩,
   ⟨adX 3 0, adS 9 linked, go (adK 9) (by decide), by decide⟩,
   ⟨adX 11 0, adS 10 linked, go (adK 10) (by decide)⟩,
   ⟨adC, adS 12 (evS [7, 8]), go (adK 12) (by decide), by decide⟩⟩

/-- States that meet the hypotheses of AdminFirmwareAndTests, clause by clause. -/
theorem witness_AdminFirmwareAndTests :
    (∃ (c : AdminCmd) (s : Machine.State), adminGo s c 0x11 ∧ inband s = true ∧ dlBar s (64 + c.port.val) = ST_OK ∧ slotBar s = ST_OK ∧ c.cdw11 = 0 ∧ 127 ≤ c.cdw10.toNat ∧ c.cdw10.toNat ≤ 65535) ∧
    (∃ (c : AdminCmd) (d : Download) (s : Machine.State), adminGo s c 0x11 ∧ inband s = true ∧ dlBar s (64 + c.port.val) = ST_OK ∧ s.bot.dl = some d ∧ d.bytes.length = 4 * c.cdw11.toNat ∧ 512 ≤ d.bytes.length ∧ c.cdw10.toNat ≤ 65535 ∧ d.bytes.length + 4 * (c.cdw10.toNat + 1) ≤ 16777216) ∧
    (imageCheck (adS 0x10 (inS (some (dlN imgB true)))) imgB = ST_OK → ∃ (c : AdminCmd) (d : Download) (s : Machine.State), adminGo s c 0x10 ∧ inband s = true ∧ cdw c.cdw10 0 3 = 0 ∧ s.bot.wr = none ∧ s.bot.dl = some d ∧ d.whole = true ∧ imageCheck s d.bytes = ST_OK ∧ slotBar s = ST_OK) ∧
    (imageCheck (adS 0x10 (inS (some (dlN imgB true)))) imgB = ST_OK → ∃ (c : AdminCmd) (d : Download) (s : Machine.State), adminGo s c 0x10 ∧ inband s = true ∧ cdw c.cdw10 0 3 = 0 ∧ s.bot.wr = none ∧ s.bot.dl = some d ∧ d.whole = true ∧ imageCheck s d.bytes = ST_OK ∧ slotBar s = ST_OK ∧ s.bot.recovery = false) ∧
    (∃ (c : AdminCmd) (k : Nat) (i : Image) (s : Machine.State), adminGo s c 0x10 ∧ inband s = true ∧ cdw c.cdw10 0 3 = k + 1 ∧ k ≤ 1 ∧ s.bot.wr = none ∧ runningSlot s ≠ some k ∧ slotValid s k = true ∧ SMap.find s.bot.img k = some i ∧ svnOk s i = true ∧ pulsesBlocked s = false ∧ s.bot.recovery = false) ∧
    (∃ (c : AdminCmd) (s : Machine.State), adminGo s c 0x10 ∧ inband s = true) ∧
    (∃ (c : AdminCmd) (s : Machine.State), adminGo s c 0x10 ∧ inband s = false) ∧
    (∃ (c : AdminCmd) (s : Machine.State), adminGo s c 0x14 ∧ s.hst.dst.st = 0) ∧
    (∃ (c : AdminCmd) (s : Machine.State), adminGo s c 0x14 ∧ s.hst.dst.st = 0) ∧
    (∃ (c : AdminCmd) (s : Machine.State), adminGo s c 0x14) :=
  ⟨⟨{ adX 127 0 with data := [1, 2, 3] }, adS 0x11 (inS none), go (adK 0x11) (by decide), by decide⟩,
   ⟨{ adX 1 128 with data := [1, 2, 3] }, dlN (zeros 512) true, adS 0x11 (inS (some (dlN (zeros 512) true))), go (adK 0x11) (by decide), by decide⟩,
   fun h => ⟨adC, dlN imgB true, adS 0x10 (inS (some (dlN imgB true))), go (adK 0x10) (by decide), by decide, by decide, by decide, rfl, rfl, h, by decide⟩,
   fun h => ⟨adC, dlN imgB true, adS 0x10 (inS (some (dlN imgB true))), go (adK 0x10) (by decide), by decide, by decide, by decide, rfl, rfl, h, by decide, by decide⟩,
   ⟨adX 2 0, 1, img1, adS 0x10 inA, go (adK 0x10) (by decide), by decide, by decide, by decide, by decide, by decide, by decide, rfl, by decide⟩,
   ⟨adX 3 0, adS 0x10 (inS none), go (adK 0x10) (by decide), by decide⟩,
   ⟨adX 0 0, adS 0x10 linked, go (adK 0x10) (by decide), by decide⟩,
   ⟨adC, adS 0x14 linked, go (adK 0x14) (by decide), by decide⟩,
   ⟨adC, adS 0x14 linked, go (adK 0x14) (by decide), by decide⟩,
   ⟨adC, adS 0x14 linked, go (adK 0x14) (by decide)⟩⟩

end Sys2Proof.Tests.W11

namespace Sys2Proof.Tests.W12
set_option linter.all false
open Sys2Proof Sys2Proof.Machine

def d0 : Dist := { since := 0, extreme := 900, silent := false }
def inD (k : Nat) : Machine.State := { up with sgd := { up.sgd with dist := [(k, d0)] } }
def bank (l : List (Field × Nat)) : Machine.State := put l { up with sgd := { up.sgd with everTested := true, back := some 0 } }
def full : List (Field × Nat) := [(Fld.SGD_HU_STATE_VBANK_10MV, 3800), (Fld.SGD_HU_STATE_CHG, 2), (Fld.SGD_CTRL_CHARGE_EN, 1)]
def tstS (v : Nat) : Machine.State := put [(Fld.SGD_TEST_CTRL_STATE, 3)] { up with sgd := { up.sgd with v1 := v } }
def lowS : Machine.State := { State.reset with sgd := { Sgd.reset with back := some 0 } }

/-- States that meet the hypotheses of InputDisturbances, clause by clause. -/
theorem witness_InputDisturbances :
    (∃ (v : Nat) (s : Machine.State), v < fget s Fld.SGD_VTH_A_SAG ∧ inClass s 1 = false) ∧
    (∃ (v : Nat) (s : Machine.State), fget s Fld.SGD_VTH_A_SAG ≤ v) ∧
    (∃ (v : Nat) (s : Machine.State), v < fget s Fld.SGD_VTH_A_BROWN ∧ inClass s 2 = false ∧ inClass s 3 = false ∧ inClass s 4 = false ∧ s.sgd.ov = false ∧ s.sgd.pfail = false ∧ fone s Fld.SGD_CTRL_CHARGE_EN = true ∧ testSt s ≠ 3) ∧
    (∃ (v : Nat) (s : Machine.State), fget s Fld.SGD_VTH_B_SURGE < v ∧ inClass s 4 = false) ∧
    (∃ (d : Dist) (s : Machine.State), SMap.find s.sgd.dist 4 = some d ∧ fone s Fld.SGD_CTRL_SURGE_FLUSH = true ∧ s.sgd.released = true ∧ s.sgd.sgFail = false) ∧
    (∃ (d : Dist) (s : Machine.State), SMap.find s.sgd.dist 4 = some d ∧ fone s Fld.SGD_CTRL_SURGE_FLUSH = false) ∧
    (∃ (mv : Nat) (s : Machine.State), fget s Fld.SGD_VTH_C_RIPPLE_MV < mv ∧ inClass s 5 = false) ∧
    (∃ (v : Nat) (s : Machine.State), v < fget s Fld.SGD_VTH_B_FAIL ∧ inClass s 3 = false ∧ s.sgd.released = true ∧ s.sgd.sgFail = false ∧ s.sgd.pfail = false) ∧
    (∃ (v : Nat) (s : Machine.State), v < fget s Fld.SGD_VTH_B_FAIL ∧ inClass s 3 = false ∧ s.sgd.released = false) ∧
    (∃ (n : Nat) (v : Nat) (d : Dist) (s : Machine.State), SMap.find s.sgd.dist n = some d ∧ classOver s n v = true) ∧
    (∃ (v : Nat) (d : Dist) (s : Machine.State), SMap.find s.sgd.dist 1 = some d ∧ fget s Fld.SGD_VTH_A_SAG + 10 ≤ v ∧ d.silent = false ∧ recordable s 12) ∧
    (∃ (b : Nat) (s : Machine.State), s.sgd.back = some b ∧ s.sgd.pwrEn = false ∧ s.sgd.pfail = false ∧ covered s = true) ∧
    (∃ (b : Nat) (s : Machine.State), s.sgd.back = some b ∧ covered s = false) ∧
    (∃ (b : Nat) (s : Machine.State), s.sgd.back = some b ∧ s.sgd.pwrEn = false ∧ s.sgd.pfail = false) ∧
    (∃ (s : Machine.State), s.sgd.pwrEn = true ∧ s.sgd.pgood = false) ∧
    (∃ (s : Machine.State), s.sgd.released = true ∧ s.sgd.pfail = false ∧ s.sgd.sgFail = false) ∧
    (∃ (s : Machine.State), s.sgd.pfail = true) :=
  ⟨⟨1049, put [(Fld.SGD_VTH_A_SAG, 1050)] up, by decide⟩,
   ⟨1050, put [(Fld.SGD_VTH_A_SAG, 1050)] up, by decide⟩,
   ⟨999, put [(Fld.SGD_VTH_A_BROWN, 1000), (Fld.SGD_CTRL_CHARGE_EN, 1)] up, by decide⟩,
   ⟨1401, put [(Fld.SGD_VTH_B_SURGE, 1400)] up, by decide⟩,
   ⟨d0, put [(Fld.SGD_CTRL_SURGE_FLUSH, 1)] (inD 4), by decide⟩,
   ⟨d0, put [(Fld.SGD_CTRL_SURGE_FLUSH, 0)] (inD 4), by decide⟩,
   ⟨501, put [(Fld.SGD_VTH_C_RIPPLE_MV, 500)] up, by decide⟩,
   ⟨899, put [(Fld.SGD_VTH_B_FAIL, 900)] up, by decide⟩,
   ⟨899, put [(Fld.SGD_VTH_B_FAIL, 900)] { up with sgd := { up.sgd with released := false } }, by decide⟩,
   ⟨1, 1060, d0, put [(Fld.SGD_VTH_A_SAG, 1050)] (inD 1), by decide⟩,
   ⟨1060, d0, put [(Fld.SGD_VTH_A_SAG, 1050)] (inD 1), by unfold recordable; decide⟩,
   ⟨0, put [(Fld.SGD_HU_STATE_VBANK_10MV, 3800), (Fld.SGD_HU_CAP_CNOM_10UF, 60000), (Fld.SGD_ENERGY_CFG_FIXED_MJ, 10)] lowS, by decide⟩,
   ⟨0, put [(Fld.SGD_HU_STATE_VBANK_10MV, 0), (Fld.SGD_ENERGY_CFG_FIXED_MJ, 200)] lowS, by decide⟩,
   ⟨0, lowS, by decide⟩,
   ⟨{ up with sgd := { up.sgd with pgood := false } }, by decide⟩,
   ⟨up, by decide⟩,
   ⟨{ up with sgd := { up.sgd with pfail := true } }, by decide⟩⟩

/-- States that meet the hypotheses of BankAndDischargeTest, clause by clause. -/
theorem witness_BankAndDischargeTest :
    (∃ (v : Nat) (s : Machine.State), v < 4096 ∧ v < bankTarget s - fget s Fld.SGD_HU_CFG_HYST_10MV ∧ s.sgd.pfail = false ∧ (∀ k, k = 2 ∨ k = 3 ∨ k = 4 → inClass s k = false) ∧ fone s Fld.SGD_CTRL_CHARGE_EN = true ∧ testSt s ≠ 3) ∧
    (∃ (v : Nat) (s : Machine.State), v < 4096 ∧ bankTarget s ≤ v ∧ s.sgd.pfail = false ∧ s.sgd.ov = false ∧ (∀ k, k = 2 ∨ k = 3 ∨ k = 4 → inClass s k = false) ∧ fone s Fld.SGD_CTRL_CHARGE_EN = true ∧ testSt s ≠ 3) ∧
    (∃ (a : Nat) (s : Machine.State), s.sgd.chgAt = some a) ∧
    (∃ (v : Nat) (s : Machine.State), bankTarget s + 100 < v) ∧
    (∃ (s : Machine.State), s.sgd.everTested = false ∧ testSt s = 0) ∧
    (∃ (s : Machine.State), s.sgd.everTested = true ∧ fone s Fld.SGD_CTRL_TEST_AUTO = true ∧ testSt s = 0) ∧
    (∃ (m : Master) (q : Nat) (s : Machine.State), decideWrite s (whoOf s m) Reg.SGD_TEST_CTRL = .admitted q ∧ testSt s = 0) ∧
    (∃ (a : Nat) (s : Machine.State), s.sgd.retest = some a ∧ testSt s = 0) ∧
    (∃ (s : Machine.State), s.sgd.want = true ∧ s.sgd.sgFail = false ∧ s.sgd.dist = [] ∧ umpAsleep s = false ∧ chgNow s = 2 ∧ dirtyBytes s ≤ fget s Fld.SGD_DIRTY_LIMIT_MIB * 1048576) ∧
    (∃ (v : Nat) (s : Machine.State), v < 4096 ∧ testSt s = 3 ∧ s.sgd.v1 = 0) ∧
    (∃ (d : Nat) (s : Machine.State), d ≤ 1000000000 ∧ testSt s = 3 ∧ s.sgd.v1 ≠ 0) ∧
    (∃ (s : Machine.State), testSt s = 3 ∧ s.sgd.v1 ≠ 0) ∧
    (∃ (m : Master) (q : Nat) (v : Word) (s : Machine.State), decideWrite s (whoOf s m) Reg.SGD_DIRTY_MIN = .admitted q ∧ isLocked s Reg.SGD_DIRTY_MIN = false) :=
  ⟨⟨1999, put [(Fld.SGD_CTRL_CHARGE_EN, 1), (Fld.SGD_HU_CFG_TARGET_10MV, 2050), (Fld.SGD_HU_CFG_HYST_10MV, 50)] up, by decide, by decide, by decide, fun k h => h.elim (by rintro rfl; decide) (fun h => h.elim (by rintro rfl; decide) (by rintro rfl; decide)), by decide, by decide⟩,
   ⟨3800, put [(Fld.SGD_CTRL_CHARGE_EN, 1), (Fld.SGD_HU_CFG_TARGET_10MV, 4000)] up, by decide, by decide, by decide, by decide, fun k h => h.elim (by rintro rfl; decide) (fun h => h.elim (by rintro rfl; decide) (by rintro rfl; decide)), by decide, by decide⟩,
   ⟨0, { up with sgd := { up.sgd with chgAt := some 0 } }, by decide⟩,
   ⟨3901, put [(Fld.SGD_HU_CFG_TARGET_10MV, 3800)] up, by decide⟩,
   ⟨up, by decide⟩,
   ⟨put [(Fld.SGD_CTRL_TEST_AUTO, 1)] (bank []), by decide⟩,
   ⟨.pair 0, 0, up, by decide⟩,
   ⟨5, { up with sgd := { up.sgd with retest := some 5 } }, by decide⟩,
   ⟨put full { up with sgd := { up.sgd with want := true } }, by decide⟩,
   ⟨4095, tstS 0, by decide⟩,
   ⟨1000000000, tstS 3000, by decide⟩,
   ⟨tstS 1, by decide⟩,
   ⟨.pair 0, 0, 0x00100400, up, by decide⟩⟩

end Sys2Proof.Tests.W12

namespace Sys2Proof.Tests.W13
set_option linter.all false
open Sys2Proof Sys2Proof.Machine

def dm (l : List (Field × Nat)) (d : Dmc) : Machine.State := put l { up with dmc := d }
def gath : Gather := { kind := 0, last := 0 }
def gaS : Dmc := { Dmc.reset with gather := some gath }
def dop : DOp :=
  { id := 1, kind := 0, owner := none, iso := false, mode := 2, block := 5, page := 0, unit := 0, deadline := 9, cls := 0, flush := false, staged := false,
    urgent := false, host := none, rebound := none, call := none, started := 0, ran := 0, susp := 0, suspNs := 0 }
def call0 : Call :=
  { kind := 0, gen := 1, shares := [(1024, 3)], die := 0, op := 0, icc := 10, iccq := 0, iso := none, cls := 0, deadline := 9, since := 0, granted := false, epoch := 0, hol := false }
def cal2 : SMap Call := [(0, call0), (1, { call0 with deadline := 20 })]
def umpS (l : List (Field × Nat)) (c : SMap Call) : Machine.State := put (l ++ [(Fld.UMP_CTRL_EN, 1), (Fld.UMP_ICC_EFF_100MA, 65535), (Fld.UMP_ICCQ_EFF_100MA, 65535)]) { up with ump := { Ump.reset with calls := c, pool := 1000, tokens := 1000 } }
def grp : Option (List Nat × Machine.State) := groupGrant (umpS [] []) ([3, 64].map fun d => mkCall (umpS [] []) false d 2 0 1 1 0 5 [1024])
def grpR : List Nat × Machine.State := match grp with | some x => x | none => ([], up)
theorem grp_eq (h : grp.isSome = true) : grp = some (grpR.1, grpR.2) := by
  unfold grpR
  cases e : grp with
  | none => rw [e] at h; cases h
  | some x => rfl
def buf0 : Buf := { st := 1, holder := midPort 0, acct := 3, gen := 7, since := 0, link := none, head := true, long := true, marks := 2, told := false }
def bpS (b : SMap Buf) (w : List BufWait) : Machine.State :=
  put [(Fld.BPM_CTRL_EN, 1), (Fld.BPM_CTRL_AUDIT_EN, 1), (Fld.BPM_POOL_COUNT 0, 8), (Fld.BPM_POOL_COUNT 1, 8), (Fld.BPM_POOL_COUNT 2, 8), (Fld.BPM_POOL_COUNT 3, 8)] { linked with bpm := { Bpm.reset with bufs := b, rsv := [(13, 1)], lim := [(13, 2)], waits := w } }
def bw0 : BufWait := { id := midPort 0, size := 577, acct := 3, cls := 0, nochain := false, long := false, pool := 1, quota := false }
def h0 : Word := BitVec.ofNat 32 (2 + 65536 + 7 * 262144)
def bQ : Machine.State := { bpS [] [] with sel := [(Fld.BPM_ACCT_SEL_ACCOUNT.addr, 3)] }

/-- States that meet the hypotheses of DramController, clause by clause. -/
theorem witness_DramController :
    (∃ (m : Master) (q : Nat) (v : Word) (s : Machine.State), decideWrite s (whoOf s m) Reg.DMC_SPEED_REQ = .admitted q ∧ bit v.toNat 3 = true ∧ s.dmc.change = none ∧ s.dmc.gather = none ∧ fget s (Fld.DMC_RATE_MTS_100 (bits v.toNat 0 2)) ≠ 0 ∧ s.sgd.pfail = false) ∧
    (∃ (m : Master) (q : Nat) (v : Word) (s : Machine.State), decideWrite s (whoOf s m) Reg.DMC_SPEED_REQ = .admitted q ∧ bit v.toNat 3 = true ∧ s.dmc.change = none ∧ s.dmc.gather = none ∧ fget s (Fld.DMC_RATE_MTS_100 (bits v.toNat 0 2)) = 0) ∧
    (∃ (m : Master) (q : Nat) (v : Word) (g : Gather) (s : Machine.State), decideWrite s (whoOf s m) Reg.DMC_SPEED_REQ = .admitted q ∧ bit v.toNat 3 = true ∧ bit v.toNat 2 = false ∧ s.dmc.change = none ∧ s.dmc.gather = some g) ∧
    (∃ (k : Nat) (s : Machine.State), s.dmc.change = some k ∧ k < 4) ∧
    (∃ (m : Master) (q : Nat) (v : Word) (s : Machine.State), decideWrite s (whoOf s m) Reg.DMC_GATHER_CTRL = .admitted q ∧ s.dmc.gather = none ∧ bits v.toNat 4 3 < 4) ∧
    (∃ (m : Master) (q : Nat) (v : Word) (s : Machine.State), decideWrite s (whoOf s m) Reg.DMC_GATHER_CTRL = .admitted q ∧ s.dmc.gather = none ∧ 4 ≤ bits v.toNat 4 3 ∧ bits v.toNat 4 3 ≤ 6 ∧ fone s Fld.DMC_CTRL_EN = true) ∧
    (∃ (pass : Nat) (g : Gather) (s : Machine.State), s.dmc.gather = some g ∧ g.kind < 4 ∧ pass < 1099511627776 ∧ fget s Fld.DMC_GATHER_STATUS_STATE = 1 ∧ fone s Fld.DMC_STATUS_PANIC = false ∧ fget s Fld.DMC_GATHER_STATUS_DONE_STEPS < 128) ∧
    (∃ (m : Master) (q : Nat) (g : Gather) (s : Machine.State), decideWrite s (whoOf s m) Reg.DMC_GATHER_CTRL = .admitted q ∧ s.dmc.gather = some g) ∧
    (∃ (g : Gather) (s : Machine.State), s.dmc.gather = some g ∧ fget s Fld.DMC_GATHER_STATUS_STATE = 2) ∧
    (∃ (r : Fin 16) (s : Machine.State), fone s Fld.DMC_STATUS_IN_SR = false ∧ fone s Fld.DMC_STATUS_PANIC = false ∧ s.dmc.rt = [] ∧ SMap.getD s.dmc.owed r.val 0 < 3) ∧
    (∃ (r : Fin 16) (s : Machine.State), fone s Fld.DMC_STATUS_IN_SR = false ∧ (fone s Fld.DMC_STATUS_PANIC = true ∨ s.dmc.rt ≠ []) ∧ SMap.getD s.dmc.owed r.val 0 < 3) ∧
    (∃ (r : Fin 16) (s : Machine.State), fone s Fld.DMC_STATUS_IN_SR = false ∧ 3 ≤ SMap.getD s.dmc.owed r.val 0) ∧
    (∃ (w : Nat) (s : Machine.State), fget s Fld.DMC_RT_PANIC_NS ≤ w) ∧
    (∃ (s : Machine.State), s.sgd.pfail = false ∧ s.dmc.rt = []) ∧
    (∃ (s : Machine.State), s.sgd.pfail = false ∧ s.dmc.rt ≠ []) ∧
    (∃ (r : Fin 16) (s : Machine.State), fbit s Fld.DMC_REFRESH_2X_RANKS r.val = false) ∧
    (∃ (r : Fin 16) (s : Machine.State), fbit s Fld.DMC_REFRESH_2X_RANKS r.val = true ∧ s.dmc.cool.contains r.val = true) ∧
    (∃ (r : Fin 16) (s : Machine.State), s.dmc.cool.contains r.val = false) ∧
    (∃ (m : Master) (q : Nat) (v : Word) (s : Machine.State), decideWrite s (whoOf s m) Reg.DMC_CTRL = .admitted q) :=
  ⟨⟨.pair 0, 0, 0x8, dm [(Fld.DMC_RATE_MTS_100 0, 64)] Dmc.reset, by decide⟩,
   ⟨.pair 0, 0, 0xB, dm [(Fld.DMC_RATE_MTS_100 3, 0)] Dmc.reset, by decide⟩,
   ⟨.pair 0, 0, 0x8, gath, dm [] gaS, by decide⟩,
   ⟨3, dm [(Fld.DMC_STATUS_CHANGING, 1)] { Dmc.reset with change := some 3, owed := [(0, 1)] }, by decide⟩,
   ⟨.pair 0, 0, 0x31, dm [] Dmc.reset, by decide⟩,
   ⟨.pair 0, 0, 0x61, dm [(Fld.DMC_CTRL_EN, 1)] Dmc.reset, by decide⟩,
   ⟨1099511627775, gath, dm [(Fld.DMC_GATHER_STATUS_STATE, 1), (Fld.DMC_GATHER_STATUS_DONE_STEPS, 127), (Fld.DMC_GATHER_RANGE_COUNT, 128)] gaS, by decide⟩,
   ⟨.pair 0, 0, gath, dm [] gaS, by decide⟩,
   ⟨gath, dm [(Fld.DMC_GATHER_STATUS_STATE, 2)] gaS, by decide⟩,
   ⟨15, dm [] { Dmc.reset with owed := [(15, 2)] }, by decide⟩,
   ⟨15, dm [(Fld.DMC_STATUS_PANIC, 1)] { Dmc.reset with owed := [(15, 2)] }, by decide⟩,
   ⟨0, dm [(Fld.DMC_STATUS_PANIC, 1)] { Dmc.reset with owed := [(0, 3)] }, by decide⟩,
   ⟨100, dm [(Fld.DMC_RT_PANIC_NS, 100)] Dmc.reset, by decide⟩,
   ⟨dm [(Fld.DMC_STATUS_PANIC, 1)] { Dmc.reset with owed := [(0, 3), (4, 1)] }, by decide⟩,
   ⟨dm [(Fld.DMC_STATUS_PANIC, 1)] { Dmc.reset with rt := [512] }, by decide⟩,
   ⟨15, dm [] Dmc.reset, by decide⟩,
   ⟨15, dm [(Fld.DMC_REFRESH_2X_RANKS, 0x8000)] { Dmc.reset with cool := [15] }, by decide⟩,
   ⟨15, dm [(Fld.DMC_REFRESH_2X_RANKS, 0x8000)] Dmc.reset, by decide⟩,
   ⟨.pair 0, 0, 3, up, by decide⟩⟩

def scS (l : List (Field × Nat)) : Machine.State := rset (dm ((Fld.MEP_CTRL_SCRUB_EN, 1) :: l) Dmc.reset) Reg.DMC_TOP_HI 1
theorem sc_free {l : List (Field × Nat)} {s : Machine.State} (h : fone s Fld.MEP_CTRL_SCRUB_EN = true ∧ s.sgd.pfail = false ∧
    pget s Reg.DMC_TOP_LO Reg.DMC_TOP_HI ≠ 0 ∧ s.dmc.rt = [] ∧ s.dmc.nrm = []) : scrubFree s := h
theorem group_lt (s : Machine.State) (a : Nat) : groupAt s a < 16 := by
  unfold groupAt
  extract_lets w g g'
  have h : g < 16 := Nat.lt_of_lt_of_le (Nat.mod_lt _ (by split <;> decide)) (by split <;> decide)
  have h' : g' < 16 := by unfold g'; split <;> omega
  split <;> omega
/-- Of a word one device spoils by two symbols at most, the code corrects every bit, whatever device is marked (R403). -/
theorem rs_one {s : Machine.State} (g d n : Nat) (h : n ≤ 2) : rsCorrects s g [(d, n)] = true := by
  unfold rsCorrects rawSum
  split
  · by_cases e : (d != fget s (Fld.MEP_MARK_DEVICE g)) = true <;> simp [e, h]
  · simp
/-- A word that three devices spoil by three symbols each is uncorrectable, whatever device is marked. -/
theorem rs_three {s : Machine.State} (g : Nat) : rsCorrects s g [(1, 3), (2, 3), (3, 3)] = false := by
  unfold rsCorrects rawSum
  split
  · generalize fget s (Fld.MEP_MARK_DEVICE g) = v
    rcases (by omega : v = 1 ∨ v = 2 ∨ v = 3 ∨ v ≠ 1 ∧ v ≠ 2 ∧ v ≠ 3) with rfl | rfl | rfl | ⟨a, b, c⟩
    · decide
    · decide
    · decide
    · simp [Ne.symm a, Ne.symm b, Ne.symm c]
  · decide
theorem sc_unmarked : ∀ g, g < 16 → fone (scS [(Fld.MEP_MARK_CFG_DEV_EVENTS, 1)]) (Fld.MEP_MARK_MARKED g) = false := by decide

/-- States that meet the hypotheses of MemoryProtection, clause by clause. -/
theorem witness_MemoryProtection :
    (∃ (e : MemErr) (s : Machine.State), scrubFree s ∧ rawOf s (dramKey s (scrubAt s)) e = [] ∧ s.dmc.ues.contains (dramKey s (scrubAt s)) = false ∧ scrubAt s + codeword s < pget s Reg.DMC_TOP_LO Reg.DMC_TOP_HI) ∧
    (∃ (e : MemErr) (s : Machine.State), scrubFree s ∧ rawOf s (dramKey s (scrubAt s)) e = [] ∧ s.dmc.ues.contains (dramKey s (scrubAt s)) = false ∧ pget s Reg.DMC_TOP_LO Reg.DMC_TOP_HI ≤ scrubAt s + codeword s) ∧
    (∃ (e : MemErr) (s : Machine.State), scrubFree s ∧ s.dmc.ues.contains (dramKey s (scrubAt s)) = false ∧ rawOf s (dramKey s (scrubAt s)) e ≠ [] ∧ rsCorrects s (groupAt s (scrubAt s)) (rawOf s (dramKey s (scrubAt s)) e) = true) ∧
    (∃ (e : MemErr) (d : Nat) (n : Nat) (s : Machine.State), scrubFree s ∧ s.dmc.ues.contains (dramKey s (scrubAt s)) = false ∧ rawOf s (dramKey s (scrubAt s)) e = [(d, n)] ∧ fone s (Fld.MEP_MARK_MARKED (groupAt s (scrubAt s))) = false ∧ 3 ≤ n ∧ fget s Fld.MEP_MARK_CFG_DEV_EVENTS ≤ 1) ∧
    (∃ (e : MemErr) (s : Machine.State), scrubFree s ∧ s.dmc.ues.contains (dramKey s (scrubAt s)) = false ∧ rsCorrects s (groupAt s (scrubAt s)) (rawOf s (dramKey s (scrubAt s)) e) = false ∧ e.what = .plain) ∧
    (∃ (g : Nat) (d : Nat) (n : Nat) (s : Machine.State), fone s (Fld.MEP_MARK_MARKED g) = false) ∧
    (∃ (g : Nat) (d : Nat) (n : Nat) (s : Machine.State), fone s (Fld.MEP_MARK_MARKED g) = true ∧ d ≠ fget s (Fld.MEP_MARK_DEVICE g)) ∧
    (∃ (r : Fin 16) (off : Nat) (last : Bool) (e : MemErr) (s : Machine.State), fone s Fld.MEP_CTRL_SRAM_SCRUB_EN = true ∧ s.sgd.pfail = false ∧ s.dmc.ues.contains (sramKey r.val off) = false ∧ rawSum (rawOf s (sramKey r.val off) e) = 1) ∧
    (∃ (r : Fin 16) (off : Nat) (last : Bool) (e : MemErr) (s : Machine.State), s.sgd.pfail = true) ∧
    (∃ (e : MemErr) (s : Machine.State), (s.dmc.rt ≠ [] ∨ s.dmc.nrm ≠ [])) ∧
    (∃ (m : Master) (q : Nat) (v : Word) (s : Machine.State), decideWrite s (whoOf s m) Reg.MEP_INJ_CTRL = .admitted q) :=
  ⟨⟨⟨[], .plain⟩, scS [], sc_free (l := []) (by decide), by decide⟩,
   ⟨⟨[], .plain⟩, rset (rset (dm [(Fld.MEP_CTRL_SCRUB_EN, 1)] Dmc.reset) Reg.DMC_TOP_LO 64) Reg.DMC_TOP_HI 0, sc_free (l := []) (by decide), by decide⟩,
   ⟨⟨[(9, 2)], .plain⟩, scS [], sc_free (l := []) (by decide), by decide, by decide, rs_one _ 9 2 (by decide)⟩,
   ⟨⟨[(9, 3)], .plain⟩, 9, 3, scS [(Fld.MEP_MARK_CFG_DEV_EVENTS, 1)], sc_free (l := []) (by decide), by decide, by decide, sc_unmarked _ (group_lt _ _), by decide⟩,
   ⟨⟨[(1, 3), (2, 3), (3, 3)], .plain⟩, scS [], sc_free (l := []) (by decide), by decide, rs_three _, by decide⟩,
   ⟨15, 9, 16, up, by decide⟩,
   ⟨15, 9, 2, put [(Fld.MEP_MARK_MARKED 15, 1), (Fld.MEP_MARK_DEVICE 15, 3)] up, by decide⟩,
   ⟨15, 9, true, ⟨[(7, 1)], .plain⟩, dm [(Fld.MEP_CTRL_SRAM_SCRUB_EN, 1)] Dmc.reset, by decide⟩,
   ⟨0, 0, true, ⟨[], .plain⟩, { up with sgd := { up.sgd with pfail := true } }, by decide⟩,
   ⟨⟨[], .plain⟩, dm [] { Dmc.reset with nrm := [(0, 512)] }, .inr (by decide)⟩,
   ⟨.pair 0, 0, 5, up, by decide⟩⟩

/-- States that meet the hypotheses of UmpireCalls, clause by clause. -/
theorem witness_UmpireCalls :
    (∃ (die : Fin 2048) (x : DOp) (xs : List DOp) (s : Machine.State), fone s Fld.DSC_CTRL_EN = true ∧ SMap.find s.dsc.susp die.val = none ∧ nextOps s die.val = x :: xs ∧ x.call = none ∧ freeSlot s.ump.calls 0 < 4096 ∧ s.ump.holdup = false) ∧
    (∃ (n : Nat) (c : Call) (s : Machine.State), SMap.find s.ump.calls n = some c ∧ c.granted = false ∧ callNext s n c = true) ∧
    (∃ (n : Nat) (c : Call) (s : Machine.State), SMap.find s.ump.calls n = some c ∧ callNext s n c = false) ∧
    (∃ (acct : Nat) (mode : Nat) (deadline : Nat) (dies : List Nat) (ns : List Nat) (cls : Fin 4) (u : Machine.State) (s : Machine.State), s.ump.holdup = false ∧ groupGrant s (dies.map fun d => mkCall s false d mode 0 1 1 cls.val deadline [acct]) = some (ns, u)) ∧
    (∃ (acct : Nat) (mode : Nat) (deadline : Nat) (dies : List Nat) (cls : Fin 4) (s : Machine.State), groupGrant s (dies.map fun d => mkCall s false d mode 0 1 1 cls.val deadline [acct]) = none) ∧
    (∃ (n : Nat) (c : Call) (s : Machine.State), SMap.find s.ump.calls n = some c ∧ c.granted = false) ∧
    (∃ (s : Machine.State), fone s Fld.TMB_STATUS_HELD = false ∧ pulsesBlocked s = false) ∧
    (∃ (mv : Nat) (s : Machine.State), fone s Fld.UMP_PP_CTRL_CHANGING = true ∧ mv * 100 ≤ setPoint s (fget s Fld.UMP_PP_CTRL_PP_TARGET) * 101 ∧ setPoint s (fget s Fld.UMP_PP_CTRL_PP_TARGET) * 99 ≤ mv * 100) ∧
    (∃ (mv : Nat) (word : Nat) (s : Machine.State), (fone s Fld.UMP_PP_CTRL_CHANGING = true ∨ word ≠ 0)) ∧
    (∃ (s : Machine.State), fone s Fld.UMP_CTRL_THERMAL_EN = true ∧ s.ump.hot = true ∧ 1 ≤ fget s Fld.UMP_THERMAL_FLOOR_8THS ∧ fget s Fld.UMP_THERMAL_FLOOR_8THS ≤ 8 ∧ fget s Fld.UMP_THERMAL_FLOOR_8THS < fget s Fld.UMP_EFFECTIVE_THERMAL) ∧
    (∃ (s : Machine.State), fone s Fld.UMP_CTRL_THERMAL_EN = true ∧ s.ump.hot = false ∧ s.ump.warm = false ∧ fget s Fld.UMP_EFFECTIVE_THERMAL < 8) ∧
    (∃ (s : Machine.State), fone s Fld.UMP_CTRL_THERMAL_EN = false) ∧
    (∃ (m : Master) (q : Nat) (v : Word) (s : Machine.State), decideWrite s (whoOf s m) Reg.UMP_COST_BANK = .admitted q) :=
  ⟨⟨5, dop, [], put [(Fld.DSC_CTRL_EN, 1)] { up with dsc := { Dsc.reset with queues := [(5, [dop])] } }, by decide⟩,
   ⟨0, call0, umpS [] cal2, by decide⟩,
   ⟨1, { call0 with deadline := 20 }, umpS [] cal2, by decide⟩,
   ⟨1024, 2, 5, [3, 64], grpR.1, 0, grpR.2, umpS [] [], by decide, grp_eq (by decide)⟩,
   ⟨1024, 2, 5, [3, 64], 0, up, by decide⟩,
   ⟨1, { call0 with deadline := 20 }, umpS [] cal2, by decide⟩,
   ⟨up, by decide⟩,
   ⟨1010, put [(Fld.UMP_PP_CTRL_CHANGING, 1), (Fld.UMP_PP_CTRL_PP_TARGET, 2), (Fld.UMP_PP_VSET_MV 2, 1000), (Fld.UMP_PP_AGE_MV 2, 0)] up, by decide⟩,
   ⟨0, 1, up, .inr (by decide)⟩,
   ⟨put [(Fld.UMP_CTRL_THERMAL_EN, 1), (Fld.UMP_THERMAL_FLOOR_8THS, 7), (Fld.UMP_EFFECTIVE_THERMAL, 8)] { up with ump := { Ump.reset with hot := true } }, by decide⟩,
   ⟨put [(Fld.UMP_CTRL_THERMAL_EN, 1), (Fld.UMP_EFFECTIVE_THERMAL, 7)] up, by decide⟩,
   ⟨put [(Fld.UMP_CTRL_THERMAL_EN, 0)] up, by decide⟩,
   ⟨.pair 0, 0, 1, up, by decide⟩⟩

/-- States that meet the hypotheses of BufferPools, clause by clause. -/
theorem witness_BufferPools :
    (∃ (id : Nat) (size : Nat) (a : Nat) (i : Nat) (cls : Fin 4) (nochain : Bool) (long : Bool) (s : Machine.State), holdsBuffers s id = true ∧ fone s Fld.BPM_CTRL_EN = true ∧ carded s id = false ∧ 1 ≤ size ∧ size ≤ 73728 ∧ a < 1029 ∧ bufHeld s a (poolFor size) + 1 ≤ limOf s a (poolFor size) ∧ 1 - (rsvOf s a (poolFor size) - bufHeld s a (poolFor size)) ≤ surplusFree s (poolFor size) ∧ lowerBarred s (poolFor size) cls.val = false ∧ freeIdx s (poolFor size) (poolCount s (poolFor size)) 0 = some i) ∧
    (∃ (id : Nat) (size : Nat) (a : Nat) (cls : Fin 4) (nochain : Bool) (long : Bool) (s : Machine.State), holdsBuffers s id = true ∧ fone s Fld.BPM_CTRL_EN = true ∧ carded s id = false ∧ 1 ≤ size ∧ size ≤ 73728 ∧ a < 1029 ∧ limOf s a (poolFor size) < bufHeld s a (poolFor size) + 1) ∧
    (∃ (id : Nat) (size : Nat) (a : Nat) (cls : Fin 4) (nochain : Bool) (long : Bool) (s : Machine.State), holdsBuffers s id = true ∧ fone s Fld.BPM_CTRL_EN = true ∧ carded s id = false ∧ (size = 0 ∨ 73728 < size)) ∧
    (∃ (id : Nat) (size : Nat) (a : Nat) (cls : Fin 4) (nochain : Bool) (long : Bool) (s : Machine.State), holdsBuffers s id = false) ∧
    (∃ (k : Nat) (i : Nat) (w : BufWait) (s : Machine.State), s.bpm.waits[k]? = some w ∧ fone s Fld.BPM_CTRL_EN = true ∧ carded s w.id = false ∧ 1 ≤ w.size ∧ w.size ≤ 73728 ∧ w.acct < 1029 ∧ bufHeld s w.acct (poolFor w.size) + 1 ≤ limOf s w.acct (poolFor w.size) ∧ 1 - (rsvOf s w.acct (poolFor w.size) - bufHeld s w.acct (poolFor w.size)) ≤ surplusFree s (poolFor w.size) ∧ lowerBarred s (poolFor w.size) w.cls = false ∧ freeIdx s (poolFor w.size) (poolCount s (poolFor w.size)) 0 = some i) ∧
    (∃ (id : Nat) (h : Word) (s : Machine.State), bufCheck s id h.toNat = ST_OK) ∧
    (∃ (id : Nat) (h : Word) (s : Machine.State), bufCheck s id h.toNat = ST_SQUASHED) ∧
    (∃ (id : Nat) (dest : Nat) (h : Word) (b : Buf) (s : Machine.State), bufCheck s id h.toNat = ST_OK ∧ holdsBuffers s dest = true ∧ carded s dest = false ∧ SMap.find s.bpm.bufs (bufKey (hPool h.toNat) (hIndex h.toNat)) = some b) ∧
    (∃ (id : Nat) (dest : Nat) (h : Word) (s : Machine.State), bufCheck s id h.toNat = ST_OK ∧ (holdsBuffers s dest = false ∨ carded s dest = true)) ∧
    (∃ (k : Fin 4) (i : Nat) (b : Buf) (s : Machine.State), SMap.find s.bpm.bufs (bufKey k.val i) = some b ∧ b.st = 2) ∧
    (∃ (s : Machine.State), fone s Fld.BPM_CTRL_AUDIT_EN = true) ∧
    (∃ (m : Master) (q : Nat) (k : Fin 4) (s : Machine.State), decideWrite s (whoOf s m) Reg.BPM_CTRL = .admitted q) ∧
    (∃ (m : Master) (q : Nat) (k : Fin 4) (v : Word) (s : Machine.State), decideWrite s (whoOf s m) (Reg.BPM_V_QUOTA k.val) = .admitted q ∧ selGet s (masterNo m) Fld.BPM_ACCT_SEL_ACCOUNT ≤ 1031 ∧ isoAcct s (selGet s (masterNo m) Fld.BPM_ACCT_SEL_ACCOUNT) = false ∧ bits v.toNat 0 16 ≤ bits v.toNat 16 16 ∧ bits v.toNat 16 16 ≤ poolCount s k.val ∧ rsvSum s k.val - rsvOf s (selGet s (masterNo m) Fld.BPM_ACCT_SEL_ACCOUNT) k.val + bits v.toNat 0 16 ≤ poolCount s k.val ∧ bits v.toNat 0 16 - bufHeld s (selGet s (masterNo m) Fld.BPM_ACCT_SEL_ACCOUNT) k.val - (rsvOf s (selGet s (masterNo m) Fld.BPM_ACCT_SEL_ACCOUNT) k.val - bufHeld s (selGet s (masterNo m) Fld.BPM_ACCT_SEL_ACCOUNT) k.val) ≤ surplusFree s k.val) ∧
    (∃ (m : Master) (q : Nat) (k : Fin 4) (v : Word) (s : Machine.State), decideWrite s (whoOf s m) (Reg.BPM_V_QUOTA k.val) = .admitted q ∧ isoAcct s (selGet s (masterNo m) Fld.BPM_ACCT_SEL_ACCOUNT) = false ∧ (bits v.toNat 16 16 < bits v.toNat 0 16 ∨ poolCount s k.val < bits v.toNat 16 16)) :=
  ⟨⟨midPort 0, 577, 3, 1, 3, false, true, bpS [(bufKey 1 0, buf0)] [], by decide⟩,
   ⟨midPort 0, 577, 3, 3, false, true, bpS [(bufKey 1 0, buf0), (bufKey 1 1, buf0)] [], by decide⟩,
   ⟨midPort 0, 73729, 3, 3, false, true, bpS [] [], by decide⟩,
   ⟨0x01000000, 577, 3, 3, false, true, bpS [] [], by decide⟩,
   ⟨0, 0, bw0, bpS [] [bw0], by decide⟩,
   ⟨midPort 0, h0, bpS [(bufKey 1 2, buf0)] [], by decide⟩,
   ⟨midPort 0, h0, bpS [(bufKey 1 2, { buf0 with st := 3 })] [], by decide⟩,
   ⟨midPort 0, midPair 0, h0, buf0, bpS [(bufKey 1 2, buf0)] [], by decide⟩,
   ⟨midPort 0, midSlice 0, h0, bpS [(bufKey 1 2, buf0)] [], by decide⟩,
   ⟨3, 0, { buf0 with st := 2 }, bpS [(bufKey 3 0, { buf0 with st := 2 })] [], by decide⟩,
   ⟨bpS [(bufKey 1 2, buf0)] [], by decide⟩,
   ⟨.pair 0, 0, 0, bpS [(bufKey 1 2, buf0)] [], by decide⟩,
   ⟨.pair 0, 0, 1, 0x00080008, bQ, by decide⟩,
   ⟨.pair 0, 0, 1, 0x00080009, bQ, by decide⟩⟩

end Sys2Proof.Tests.W13

namespace Sys2Proof.Tests.W14
set_option linter.all false
open Sys2Proof Sys2Proof.Machine

def ioS0 (n : Ns) (op : Nat) (zs : SMap Zone) : Machine.State :=
  put [(Fld.ZNE_CTRL_EN, 1), (Fld.CMP_CTRL_EN, 1), (Fld.PLC_CTRL_EN, 1)]
    { linked with slm := { linked.slm with slices := [(3, { sl0 with slots := [(0, 0)] })] }, zne := { Zne.reset with ns := [(49, n)], zones := zs, seq := 6 }, kst := { Kst.reset with slots := [(64, { key0 with st := 2, nsid := 49 })] }, plc := { Plc.reset with classes := [(0, { ClassEnt.empty with valid := true, mode := 2 })] }, hst := { linked.hst with ctx := [(65545, { rctx with cid := 9, opcode := op, st := .fetched, units := [] })] } }
def ioK (op : Nat) : Ctx := { rctx with cid := 9, opcode := op, st := .fetched, units := [] }
def ioC (a n : Nat) : IoCmd := { port := 0, qid := 1, cid := 9, nsid := 49, slba := a, nlb := n, cdw3 := 0, cdw12 := 0, cdw13 := 0, ptr := .prp, dmaLo := 4096, dmaHi := 8191, data := [5] }
def ioD : IoCmd := { ioC (2 ^ 34) 0 with data := [5 * 2 ^ 64 + 2 * 2 ^ 32] }
def z1 (st wp : Nat) : Zone := { Zone.fresh with st := st, wp := wp, zcap := 65536, last := 7 }
def cvS : Machine.State := { ioS0 ns0 2 [] with zne := { (ioS0 ns0 2 []).zne with conv := [(1023, { loc := .dram 33, mode := 2, seq := 5 })] } }
def cvD : Machine.State := { ioS0 ns0 9 [] with zne := { (ioS0 ns0 9 []).zne with conv := [(5, { loc := .dram 33, mode := 2, seq := 5 }), (6, { loc := .dram 34, mode := 2, seq := 6 })] } }
theorem sends {z : Zone} {c : IoCmd} (s : Machine.State) (n : Ns) (hs : s.zne.zones = [(0, z)]) (ha : z.action = none)
    (h : n.zoned = true ∧ c.slba < nsLbas n ∧ c.slba % zoneLbas n = 0 ∧ bit c.cdw13.toNat 8 = false ∧ fone s Fld.ZNE_EOL_READ_ONLY = false ∧
      SMap.find s.zne.zones (ioZone c n) = some z ∧ zoneWaits z = false ∧ z.spoilt = false ∧ inFlight z = false ∧ (nsOfZone s (ioZone c n)).map (·.2) = some n) : zoneSends s c n z := by
  obtain ⟨a, b, d, e, f, g, i, l, j, k⟩ := h
  refine ⟨a, b, d, e, f, g, i, .inl l, j, k, ?_⟩
  intro x hx y hy
  rw [hs] at hx
  simp only [List.mem_singleton] at hx
  subst hx
  rw [ha] at hy
  cases hy

def ioB (l : Nat) (p : Nat) : Ctx := { ioK 1 with cid := l, nsid := 49, order := p }
def ioO : Machine.State := { ioS0 nsZ 1 [(0, z1 3 5)] with hst := { linked.hst with ctx := [(65544, ioB 8 1), (65545, ioB 9 2)] } }
def z2 : Zone := { z1 3 5 with spoilt := true }

/-- States that meet the hypotheses of WritesAndReads, clause by clause. -/
theorem witness_WritesAndReads :
    (∃ (c : IoCmd) (k : Ctx) (s : Machine.State), s.bot.run = true ∧ SMap.find s.hst.ctx (ioKey c) = some k ∧ k.st = .fetched ∧ k.qid ≠ 0 ∧ ioKnown k.opcode = false) ∧
    (∃ (c : IoCmd) (k : Ctx) (n : Ns) (s : Machine.State), ioGoes s c 1 (lbaBytes c) k n ∧ n.zoned = false ∧ c.slba + c.nlb + 1 ≤ nsLbas n ∧ fone s Fld.ZNE_EOL_READ_ONLY = false ∧ classOk s n.slice (hintClass s n.slice c.cdw3) = true) ∧
    (∃ (c : IoCmd) (k : Ctx) (n : Ns) (s : Machine.State), ioGoes s c 1 (lbaBytes c) k n ∧ n.zoned = false ∧ nsLbas n < c.slba + c.nlb + 1) ∧
    (∃ (c : IoCmd) (k : Ctx) (n : Ns) (z : Zone) (s : Machine.State), ioGoes s c 1 (lbaBytes c) k n ∧ n.zoned = true ∧ fone s Fld.ZNE_EOL_READ_ONLY = false ∧ SMap.find s.zne.zones (ioZone c n) = some z ∧ (z.st = 2 ∨ z.st = 3) ∧ zoneWaits z = false ∧ orderHeld s c k n = false ∧ descGood s (ioZone c n) z ∧ c.slba % zoneLbas n = z.wp ∧ c.slba + c.nlb + 1 ≤ n.cap * lbasPerUnit n ∧ c.slba + c.nlb + 1 ≤ nsLbas n ∧ z.wp + (c.nlb + 1) ≤ zoneLbas n ∧ z.wp + (c.nlb + 1) ≤ z.zcap * lbasPerUnit n ∧ classOk s n.slice z.cls = true) ∧
    (∃ (c : IoCmd) (k : Ctx) (n : Ns) (z : Zone) (s : Machine.State), ioGoes s c 1 (lbaBytes c) k n ∧ n.zoned = true ∧ fone s Fld.ZNE_EOL_READ_ONLY = false ∧ SMap.find s.zne.zones (ioZone c n) = some z ∧ z.st ≤ 4 ∧ zoneWaits z = false ∧ orderHeld s c k n = false ∧ descGood s (ioZone c n) z ∧ c.slba % zoneLbas n ≠ z.wp ∧ c.slba + c.nlb + 1 ≤ n.cap * lbasPerUnit n) ∧
    (∃ (c : IoCmd) (k : Ctx) (n : Ns) (s : Machine.State), ioGoes s c 1 (lbaBytes c) k n ∧ n.zoned = true ∧ fone s Fld.ZNE_EOL_READ_ONLY = false ∧ orderHeld s c k n = true) ∧
    (∃ (c : IoCmd) (k : Ctx) (n : Ns) (z : Zone) (s : Machine.State), ioGoes s c 1 (lbaBytes c) k n ∧ n.zoned = true ∧ fone s Fld.ZNE_EOL_READ_ONLY = false ∧ orderHeld s c k n = false ∧ SMap.find s.zne.zones (ioZone c n) = some z ∧ zoneWaits z = false ∧ z.spoilt = true ∧ s.zne.cache.contains (ioZone c n) = false ∧ isoNs s n = none ∧ c.slba + c.nlb + 1 ≤ nsLbas n) ∧
    (∃ (c : IoCmd) (k : Ctx) (n : Ns) (z : Zone) (s : Machine.State), ioGoes s c 0x7D (lbaBytes c) k n ∧ n.zoned = true ∧ fone s Fld.ZNE_EOL_READ_ONLY = false ∧ SMap.find s.zne.zones (ioZone c n) = some z ∧ (z.st = 2 ∨ z.st = 3) ∧ zoneWaits z = false ∧ orderHeld s c k n = false ∧ descGood s (ioZone c n) z ∧ c.slba % zoneLbas n = 0 ∧ c.slba + c.nlb + 1 ≤ n.cap * lbasPerUnit n ∧ c.slba + c.nlb + 1 ≤ nsLbas n ∧ z.wp + (c.nlb + 1) ≤ zoneLbas n ∧ z.wp + (c.nlb + 1) ≤ z.zcap * lbasPerUnit n ∧ classOk s n.slice z.cls = true) ∧
    (∃ (c : IoCmd) (k : Ctx) (n : Ns) (s : Machine.State), ioGoes s c 0x7D (lbaBytes c) k n ∧ n.zoned = false) ∧
    (∃ (c : IoCmd) (k : Ctx) (n : Ns) (s : Machine.State), ioGoes s c 2 (lbaBytes c) k n ∧ nsLbas n < c.slba + c.nlb + 1) ∧
    (∃ (c : IoCmd) (k : Ctx) (n : Ns) (s : Machine.State), ioGoes s c 2 (lbaBytes c) k n ∧ n.zoned = false ∧ c.slba + c.nlb + 1 ≤ nsLbas n ∧ (∀ i, i ≤ c.nlb → unitLoc s n ((c.slba + i) / lbasPerUnit n) = .zero)) ∧
    (∃ (c : IoCmd) (k : Ctx) (n : Ns) (slot : Nat) (s : Machine.State), ioGoes s c 2 (lbaBytes c) k n ∧ n.zoned = false ∧ n.lbaf = 0 ∧ c.nlb = 0 ∧ c.slba + 1 ≤ nsLbas n ∧ unitLoc s n c.slba = .dram slot) ∧
    (∃ (c : IoCmd) (k : Ctx) (n : Ns) (s : Machine.State), ioGoes s c 0 (fun _ => 0) k n) ∧
    (∃ (c : IoCmd) (k : Ctx) (n : Ns) (s : Machine.State), ioGoes s c 9 (fun _ => 16 * (c.slba % 256 + 1)) k n ∧ n.zoned = false ∧ n.lbaf = 0 ∧ c.slba % 256 = 0 ∧ bit c.slba 34 = true ∧ fone s Fld.ZNE_EOL_READ_ONLY = false ∧ bits (c.data.getD 0 0) 64 64 + bits (c.data.getD 0 0) 32 32 ≤ nsLbas n) ∧
    (∃ (c : IoCmd) (k : Ctx) (n : Ns) (s : Machine.State), ioGoes s c 9 (fun _ => 16 * (c.slba % 256 + 1)) k n ∧ n.zoned = true) :=
  ⟨⟨ioC 0 0, ioK 0x55, ioS0 ns0 0x55 [], by decide⟩,
   ⟨ioC 1023 0, ioK 1, ns0, ioS0 ns0 1 [], by unfold ioGoes; decide⟩,
   ⟨ioC 1023 1, ioK 1, ns0, ioS0 ns0 1 [], by unfold ioGoes; decide⟩,
   ⟨ioC 65535 0, ioK 1, nsZ, z1 3 65535, ioS0 nsZ 1 [(0, z1 3 65535)], by unfold ioGoes descGood; decide⟩,
   ⟨ioC 6 0, ioK 1, nsZ, z1 3 5, ioS0 nsZ 1 [(0, z1 3 5)], by unfold ioGoes descGood; decide⟩,
   ⟨ioC 5 0, ioB 9 2, nsZ, ioO, by unfold ioGoes; decide⟩,
   ⟨ioC 5 0, ioK 1, nsZ, z2, ioS0 nsZ 1 [(0, z2)], by unfold ioGoes; decide⟩,
   ⟨ioC 0 63, ioK 0x7D, nsZ, z1 2 5, ioS0 nsZ 0x7D [(0, z1 2 5)], by unfold ioGoes descGood; decide⟩,
   ⟨ioC 0 0, ioK 0x7D, ns0, ioS0 ns0 0x7D [], by unfold ioGoes; decide⟩,
   ⟨ioC 1024 0, ioK 2, ns0, ioS0 ns0 2 [], by unfold ioGoes; decide⟩,
   ⟨ioC 1022 1, ioK 2, ns0, ioS0 ns0 2 [], by unfold ioGoes; decide⟩,
   ⟨ioC 1023 0, ioK 2, ns0, 33, cvS, by unfold ioGoes; decide⟩,
   ⟨ioC 0 0, ioK 0, ns0, ioS0 ns0 0 [], by unfold ioGoes; decide⟩,
   ⟨ioD, ioK 9, ns0, cvD, by unfold ioGoes; decide⟩,
   ⟨ioC 0 0, ioK 9, nsZ, ioS0 nsZ 9 [], by unfold ioGoes; decide⟩⟩

theorem zoneOne (j : Nat) (h : j < zoneCount nsZ) : (zoneGet (ioS0 nsZ 0x7A [(0, z1 3 5)]) (nsZ.base + j)).crcBad = none := by
  have e : j = 0 := Nat.lt_one_iff.mp h
  subst e; decide
theorem zoneGood (j : Nat) (h : j < zoneCount nsZ) : (zoneGet (ioS0 nsZ 0x7A [(0, z1 3 5)]) (nsZ.base + j)).spoilt = false := by
  have e : j = 0 := Nat.lt_one_iff.mp h
  subst e; decide

/-- States that meet the hypotheses of ZoneManagement, clause by clause. -/
theorem witness_ZoneManagement :
    (∃ (c : IoCmd) (k : Ctx) (n : Ns) (z : Zone) (s : Machine.State), ioGoes s c 0x79 (fun _ => 0) k n ∧ zoneSends s c n z ∧ (z.st = 2 ∨ z.st = 3)) ∧
    (∃ (c : IoCmd) (k : Ctx) (n : Ns) (z : Zone) (s : Machine.State), ioGoes s c 0x79 (fun _ => 0) k n ∧ zoneSends s c n z ∧ z.st = 14) ∧
    (∃ (c : IoCmd) (k : Ctx) (n : Ns) (z : Zone) (s : Machine.State), ioGoes s c 0x79 (fun _ => 0) k n ∧ zoneSends s c n z ∧ 1 ≤ z.st ∧ z.st ≤ 4) ∧
    (∃ (c : IoCmd) (k : Ctx) (n : Ns) (z : Zone) (s : Machine.State), ioGoes s c 0x79 (fun _ => 0) k n ∧ zoneSends s c n z ∧ z.st = 4 ∧ openRoom s n = true ∧ classOk s n.slice z.cls = true) ∧
    (∃ (c : IoCmd) (k : Ctx) (n : Ns) (z : Zone) (s : Machine.State), ioGoes s c 0x79 (fun _ => 0) k n ∧ zoneSends s c n z ∧ (z.st = 2 ∨ z.st = 3 ∨ z.st = 4 ∨ z.st = 14)) ∧
    (∃ (c : IoCmd) (k : Ctx) (n : Ns) (z : Zone) (s : Machine.State), ioGoes s c 0x79 (fun _ => 0) k n ∧ zoneSends s c n z ∧ z.st = 13) ∧
    (∃ (c : IoCmd) (k : Ctx) (n : Ns) (s : Machine.State), ioGoes s c 0x79 (fun _ => 0) k n ∧ n.zoned = true) ∧
    (∃ (zi : Nat) (x : Nat) (z : Zone) (s : Machine.State), SMap.find s.zne.zones zi = some z ∧ z.action = some (1, x) ∧ (z.st = 2 ∨ z.st = 3) ∧ inFlight z = false) ∧
    (∃ (zi : Nat) (z : Zone) (s : Machine.State), SMap.find s.zne.zones zi = some z ∧ inFlight z = true) ∧
    (∃ (zi : Nat) (z : Zone) (s : Machine.State), SMap.find s.zne.zones zi = some z ∧ z.crcBad = none) ∧
    (∃ (zi : Nat) (a : Nat) (id : Nat) (n : Ns) (z : Zone) (s : Machine.State), SMap.find s.zne.zones zi = some z ∧ z.crcBad = some a ∧ nsOfZone s zi = some (id, n) ∧ recordable s 3) ∧
    (∃ (c : IoCmd) (k : Ctx) (n : Ns) (s : Machine.State), ioGoes s c 0x7A (fun _ => recvBytes c) k n ∧ n.zoned = true ∧ cdw c.cdw13 8 8 = 0 ∧ bit c.cdw13.toNat 16 = false ∧ c.slba = 0 ∧ 0 < nsLbas n ∧ (∀ j, j < zoneCount n → (zoneGet s (n.base + j)).crcBad = none ∧ descGood s (n.base + j) (zoneGet s (n.base + j)))) ∧
    (∃ (c : IoCmd) (k : Ctx) (n : Ns) (s : Machine.State), ioGoes s c 0x7A (fun _ => recvBytes c) k n ∧ n.zoned = true ∧ cdw c.cdw13 8 8 = 0 ∧ c.slba = 0 ∧ 0 < nsLbas n ∧ 128 ≤ recvBytes c ∧ 0 < zoneCount n ∧ (zoneGet s n.base).crcBad.isSome = true) ∧
    (∃ (c : IoCmd) (k : Ctx) (n : Ns) (s : Machine.State), ioGoes s c 0x7A (fun _ => recvBytes c) k n ∧ n.zoned = true) :=
  ⟨⟨ioC 0 0, ioK 0x79, nsZ, z1 3 5, ioS0 nsZ 0x79 [(0, z1 3 5)], by unfold ioGoes; decide, sends _ _ rfl rfl (by decide), by decide⟩,
   ⟨ioC 0 0, ioK 0x79, nsZ, z1 14 65536, ioS0 nsZ 0x79 [(0, z1 14 65536)], by unfold ioGoes; decide, sends _ _ rfl rfl (by decide), by decide⟩,
   ⟨ioC 0 0, ioK 0x79, nsZ, z1 1 0, ioS0 nsZ 0x79 [(0, z1 1 0)], by unfold ioGoes; decide, sends _ _ rfl rfl (by decide), by decide⟩,
   ⟨ioC 0 0, ioK 0x79, nsZ, z1 4 5, ioS0 nsZ 0x79 [(0, z1 4 5)], by unfold ioGoes; decide, sends _ _ rfl rfl (by decide), by decide⟩,
   ⟨ioC 0 0, ioK 0x79, nsZ, z1 14 65536, ioS0 nsZ 0x79 [(0, z1 14 65536)], by unfold ioGoes; decide, sends _ _ rfl rfl (by decide), by decide⟩,
   ⟨ioC 0 0, ioK 0x79, nsZ, z1 13 5, ioS0 nsZ 0x79 [(0, z1 13 5)], by unfold ioGoes; decide, sends _ _ rfl rfl (by decide), by decide⟩,
   ⟨ioC 0 0, ioK 0x79, nsZ, ioS0 nsZ 0x79 [], by unfold ioGoes; decide⟩,
   ⟨0, 4, { z1 3 5 with action := some (1, 4) }, ioS0 nsZ 0x79 [(0, { z1 3 5 with action := some (1, 4) })], by decide⟩,
   ⟨0, { z1 3 5 with action := some (1, 4), ranges := [⟨0, 5, 0⟩] }, ioS0 nsZ 0x79 [(0, { z1 3 5 with action := some (1, 4), ranges := [⟨0, 5, 0⟩] })], by decide⟩,
   ⟨0, z1 3 5, ioS0 nsZ 0x79 [(0, z1 3 5)], by decide⟩,
   ⟨0, 7, 49, nsZ, { z1 3 5 with crcBad := some 7 }, ioS0 nsZ 0x79 [(0, { z1 3 5 with crcBad := some 7 })], by unfold recordable; decide⟩,
   ⟨{ ioC 0 0 with cdw12 := 31 }, ioK 0x7A, { nsZ with cap := 65536 }, ioS0 nsZ 0x7A [(0, z1 3 5)], by unfold ioGoes; decide, by decide, by decide, by decide, by decide, by decide, fun j h => ⟨zoneOne j h, .inl (zoneGood j h)⟩⟩,
   ⟨{ ioC 0 0 with cdw12 := 31 }, ioK 0x7A, nsZ, ioS0 nsZ 0x7A [(0, { z1 3 5 with crcBad := some 7 })], by unfold ioGoes; decide⟩,
   ⟨ioC 0 0, ioK 0x7A, nsZ, ioS0 nsZ 0x7A [], by unfold ioGoes; decide⟩⟩

end Sys2Proof.Tests.W14

namespace Sys2Proof.Tests.W15
set_option linter.all false
open Sys2Proof Sys2Proof.Machine

def rg0 : WRange := { nsid := 49, zone := 0, start := 7, len := 1, seq := 7, zoned := false, cls := 0, life := 0 }
def cu0 : CUnit := { unit := 7, lba := 7, n := 1, loc := .zero, st := .waiting, blocks := [5], tries := 0, inst := 0, latch := none }
def wc0 (u : CUnit) : Ctx := { wctx with units := [u], range := some rg0, cid := 9 }
def stp (ms : List Member) : Stripe :=
  { key := some 0, zone := none, mode := 2, group := 0, set0 := 0, width := 1, block := 0, row := 0, par7 := false, half := 0, mem := [0, 1], par := 2, members := ms, parity := none, last := 0, toProg := [] }
def keyM : KSlot := { key0 with st := 2, slice := 3, nsid := 49 }
def plS (n : Ns) (c : Ctx) (ss : SMap Stripe) : Machine.State :=
  put [(Fld.ZNE_CTRL_EN, 1), (Fld.CMP_CTRL_EN, 1), (Fld.PLC_CTRL_EN, 1), (Fld.XTE_CTRL_EN, 1), (Fld.KST_CTRL_EN, 1), (Fld.XTE_FAULT_CFG_LIMIT, 2), (Fld.SGD_DIRTY_LIMIT_MIB, 64), (Fld.PLC_GRP_PRESENT_GROUPS 0, 1)]
    { linked with part := { Part.reset with dieBlocks := 2 }, slm := { linked.slm with slices := [(3, { sl0 with slots := [(0, 0)] })] }, zne := { Zne.reset with ns := [(49, n)], seq := 7 }, kst := { Kst.reset with slots := [(64, keyM)] }, plc := { Plc.reset with classes := [(0, { ClassEnt.empty with valid := true, mode := 2, groups := 1, fold := 1 })], streams := [(0, { mode := 1, last := 0 })], stripes := ss, nextStripe := 1 }, hst := { linked.hst with ctx := [(9, c)] } }
def pages (l : List Nat) (s : Machine.State) : Machine.State := put (l.flatMap fun c => [(Fld.CHS_PAGES_ST_TLC c, 3), (Fld.CHS_PAGES_ST_SLC c, 1), (Fld.CHS_PAGES_Q_QLC c, 4)]) s
def rdc (u : CUnit) : Ctx := { rctx with units := [u] }
def fz : Zone := { Zone.fresh with st := 14, wp := 65536, zcap := 65536, left := true, runs := [{ off := 0, len := 1, loc1 := true, slots := [], at_ := 0, member := 0, folding := false }] }
def fo0 : Machine.State := put ((Fld.PLC_FREE_BLOCKS, 16) :: (List.range 16).map fun c => (Fld.CHS_DIE_MAP_DIES c, 1)) (pages (List.range 16) (plS nsZ wctx []))
def foS : Machine.State := { fo0 with zne := { fo0.zne with zones := [(0, fz)] } }
def slP : Slice := { sl0 with next := some { weight := 5, cap := 0, lat := 1, power := 20 } }
def pp : Option (Nat × Machine.State) := prepareIn (pages (List.range 16) (plS ns0 wctx [])) 0
def ppR : Nat × Machine.State := pp.getD (0, up)
theorem some_getD {α β : Type} {o : Option (α × β)} {d : α × β} (h : o.isSome = true) : o = some ((o.getD d).1, (o.getD d).2) := by
  cases o with
  | none => cases h
  | some x => rfl
theorem pp_some : pp.isSome = true := by decide +kernel
def ppO : OpenSb := { set0 := 0, width := 1, mode := 1, par7 := false, next := 0 }
theorem pp_open : SMap.find ppR.2.plc.opens (0 * 128 + ppR.1) = some ppO := by decide +kernel
theorem pp_row : ppO.next < setRows ppR.2 ppR.1 ppO.width ppO.mode ppO.par7 := by decide +kernel
def taZ : Zone := { Zone.fresh with st := 3, wp := 5, zcap := 65536, cursor := some { ext := { off := 0, len := 4, group := 0, mode := 1, par7 := false, pad := false, reloc := false, block := 0, set := 1, skip := 0, dm := 2 }, next := none } }
def zst : Stripe := { stp [.unit 16, .pad] with key := none, zone := some (0, 0) }
def taS : Machine.State := { plS nsZ wctx [(0, zst)] with zne := { (plS nsZ wctx [(0, zst)]).zne with zones := [(0, taZ)] } }
def dzS : Machine.State := { plS nsZ wctx [(0, zst)] with zne := { (plS nsZ wctx [(0, zst)]).zne with zones := [(0, { taZ with cursor := none })] } }
def qt (n : Nat) (q : SMap Nat) : Machine.State := put [(Fld.PLC_QUIET_ENTER_US, 10), (Fld.PLC_QUIET_MAX_GROUPS, n)] { up with plc := { Plc.reset with rdLog := [(127, 10001)], quiet := q } }
def rsS : Machine.State :=
  put [(Fld.DSC_CTRL_EN, 1), (Fld.CHS_DIE_MAP_DIES 0, 1)] (plS ns0 (rdc { cu0 with loc := .flash 0 1 2 3 }) [])
def rb0 (a : Nat) : Rebound := { host := (9, 0), die := 0, block := 1, page := 2, unit := 3, mode := 1, owner := some 3, cls := 0, deadline := 9, mandatory := false, waiting := [], arrived := [], acc := a, failed := false }
def acc0 : Nat := infoOf (49 * 2 ^ 49 + 7 + 3 * 2 ^ 128) 77
def rbS : Machine.State := { plS ns0 (rdc { cu0 with st := .rebound 4 }) [] with dsc := { Dsc.reset with rebounds := [(4, rb0 acc0)] } }

theorem fo_runs : foldRuns (zoneGet foS 0) ≠ [] := by decide +kernel
theorem fo_due : foldDue foS nsZ 0 (zoneGet foS 0) = some false := by decide +kernel
theorem fo_goes : foldGoes foS 0 49 nsZ false := by unfold foldGoes; decide +kernel

def zn8 : Zone := { Zone.fresh with st := 3, wp := 8, zcap := 65536, last := 7 }
def suZ : SUnit := { nsid := 49, unit := 7, slice := 3, seq := 7, blocks := [5], tgt := ⟨0, 1⟩, since := 0 }
def clZ : Machine.State :=
  let s := plS nsZ wctx [(0, { stp [.pad, .unit 5] with parity := some 0 })]
  { s with zne := { s.zne with stg := [(5, suZ)], zones := [(0, zn8)] } }
theorem stpOne (j : Nat) (h : j ≠ 1) : ({ stp [.pad, .unit 5] with parity := some 0 } : Stripe).members.getD j .pad = .pad := by
  match j, h with
  | 0, _ => rfl
  | n + 2, _ => rfl

/-- States that meet the hypotheses of WritePathToFlash, clause by clause. -/
theorem witness_WritePathToFlash :
    (∃ (x : Nat) (c : Ctx) (r : WRange) (n : Ns) (s : Machine.State), SMap.find s.hst.ctx x = some c ∧ c.st = .running ∧ c.range = some r ∧ r.zoned = false ∧ SMap.find s.zne.ns r.nsid = some n ∧ fone s Fld.PLC_CTRL_EN = true ∧ c.units ≠ [] ∧ (∀ u, u ∈ c.units → u.st = .waiting) ∧ (classOf s r.cls).mode ≠ 0 ∧ (SMap.find s.plc.streams (streamKey s n.slice r.cls (lifeStream (classOf s r.cls) r.life) 0)).isSome = true ∧ c.units.length ≤ streamFree s (streamKey s n.slice r.cls (lifeStream (classOf s r.cls) r.life) 0)) ∧
    (∃ (x : Nat) (c : Ctx) (r : WRange) (n : Ns) (s : Machine.State), SMap.find s.hst.ctx x = some c ∧ c.st = .running ∧ c.range = some r ∧ r.zoned = false ∧ SMap.find s.zne.ns r.nsid = some n ∧ fone s Fld.PLC_CTRL_EN = true ∧ c.units ≠ [] ∧ (∀ u, u ∈ c.units → u.st = .waiting) ∧ (classOf s r.cls).mode ≠ 0 ∧ (SMap.find s.plc.streams (streamKey s n.slice r.cls (lifeStream (classOf s r.cls) r.life) 0)).isSome = true ∧ streamFree s (streamKey s n.slice r.cls (lifeStream (classOf s r.cls) r.life) 0) < c.units.length ∧ c.waited = false) ∧
    (∃ (x : Nat) (c : Ctx) (r : WRange) (n : Ns) (s : Machine.State), SMap.find s.hst.ctx x = some c ∧ c.st = .running ∧ c.range = some r ∧ r.zoned = false ∧ SMap.find s.zne.ns r.nsid = some n ∧ fone s Fld.PLC_CTRL_EN = true ∧ (classOf s r.cls).mode ≠ 0 ∧ (SMap.find s.plc.streams (streamKey s n.slice r.cls (lifeStream (classOf s r.cls) r.life) 0)).isSome = true ∧ streamFree s (streamKey s n.slice r.cls (lifeStream (classOf s r.cls) r.life) 0) < c.units.length ∧ c.waited = true) ∧
    (∃ (x : Nat) (u : Nat) (c : Ctx) (k : CUnit) (g : Tgt) (n : Ns) (ks : KSlot) (s : Machine.State), ctxUnit s x u = some (c, k) ∧ k.st = .placed g ∧ cipherFor s c = some (n, ks) ∧ xteUp s k.inst = true) ∧
    (∃ (x : Nat) (u : Nat) (c : Ctx) (k : CUnit) (g : Tgt) (n : Ns) (ks : KSlot) (s : Machine.State), ctxUnit s x u = some (c, k) ∧ k.st = .placed g ∧ cipherFor s c = some (n, ks) ∧ xteUp s k.inst = true ∧ k.tries = 0 ∧ 2 ≤ fget s Fld.XTE_FAULT_CFG_LIMIT ∧ SMap.find s.kst.xteFaults k.inst = none) ∧
    (∃ (x : Nat) (u : Nat) (c : Ctx) (k : CUnit) (b : List Nat) (n : Ns) (ks : KSlot) (s : Machine.State), ctxUnit s x u = some (c, k) ∧ cipherIn s k = some b ∧ cipherFor s c = some (n, ks) ∧ c.opcode = 2 ∧ xteUp s k.inst = true) ∧
    (∃ (x : Nat) (u : Nat) (c : Ctx) (k : CUnit) (g : Tgt) (r : WRange) (n : Ns) (s : Machine.State), ctxUnit s x u = some (c, k) ∧ k.st = .checked g ∧ c.range = some r ∧ SMap.find s.zne.ns c.nsid = some n ∧ dirtyRoom s (isoNs s n) 4096 = true ∧ stagingBarred s n r.zone (k.unit % zoneUnits n) (g.stripe * 16 + g.member) = false ∧ s.sgd.pfail = false) ∧
    (∃ (x : Nat) (u : Nat) (c : Ctx) (k : CUnit) (g : Tgt) (r : WRange) (n : Ns) (s : Machine.State), ctxUnit s x u = some (c, k) ∧ k.st = .checked g ∧ c.range = some r ∧ SMap.find s.zne.ns c.nsid = some n ∧ (dirtyRoom s (isoNs s n) 4096 = true ∨ s.med.tail = []) ∧ (stagingBarred s n r.zone (k.unit % zoneUnits n) (g.stripe * 16 + g.member) = true ∨ s.sgd.pfail = true)) ∧
    (∃ (n : Nat) (st : Stripe) (s : Machine.State), SMap.find s.plc.stripes n = some st ∧ st.parity = none ∧ st.members.all settled = true) ∧
    (∃ (n : Nat) (st : Stripe) (s : Machine.State), SMap.find s.plc.stripes n = some st ∧ st.members.all settled = false) ∧
    (∃ (n : Nat) (st : Stripe) (s : Machine.State), SMap.find s.plc.stripes n = some st ∧ st.parity.isSome = true ∧ st.toProg = [] ∧ s.plc.folds = [] ∧ convStripe s st) ∧
    (∃ (n : Nat) (i : Nat) (slot : Nat) (id : Nat) (st : Stripe) (u : SUnit) (x : Ns) (z : Zone) (s : Machine.State), SMap.find s.plc.stripes n = some st ∧ st.parity.isSome = true ∧ st.toProg = [] ∧ s.plc.folds = [] ∧ st.members[i]? = some (.unit slot) ∧ (∀ j, j ≠ i → st.members.getD j .pad = .pad) ∧ st.zone = none ∧ SMap.find s.zne.stg slot = some u ∧ SMap.find s.zne.ns u.nsid = some x ∧ x.zoned = true ∧ id = x.base + u.unit / zoneUnits x ∧ zoneGet s id = z ∧ (runPlace (u.unit % zoneUnits x) (stripeKey st.group st.block st.row st.half) i (z.runs.flatMap (cutRun (u.unit % zoneUnits x) (u.unit % zoneUnits x + 1)))).length ≤ 1024) ∧
    (∃ (n : Nat) (st : Stripe) (s : Machine.State), SMap.find s.plc.stripes n = some st ∧ st.toProg ≠ []) ∧
    (∃ (zi : Nat) (id : Nat) (n : Ns) (q2 : Bool) (s : Machine.State), bgStopped s = false ∧ fone s Fld.PLC_CTRL_EN = true ∧ nsOfZone s zi = some (id, n) ∧ s.plc.folds = [] ∧ (foldRuns (zoneGet s zi) ≠ [] ∨ (zoneGet s zi).rewrite = true) ∧ foldDue s n zi (zoneGet s zi) = some q2 ∧ foldGoes s zi id n q2) ∧
    (∃ (zoned : Bool) (obj : Nat) (s : Machine.State), bgStopped s = true) :=
  ⟨⟨9, wc0 cu0, rg0, ns0, plS ns0 (wc0 cu0) [(0, stp [.free, .unit 5])], by decide⟩,
   ⟨9, wc0 cu0, rg0, ns0, plS ns0 (wc0 cu0) [(0, stp [.pad, .unit 5])], by decide⟩,
   ⟨9, { wc0 cu0 with waited := true }, rg0, ns0, plS ns0 { wc0 cu0 with waited := true } [(0, stp [.pad, .unit 5])], by decide⟩,
   ⟨9, 0, wc0 { cu0 with st := .placed ⟨0, 0⟩ }, { cu0 with st := .placed ⟨0, 0⟩ }, ⟨0, 0⟩, ns0, keyM, plS ns0 (wc0 { cu0 with st := .placed ⟨0, 0⟩ }) [], by decide⟩,
   ⟨9, 0, wc0 { cu0 with st := .placed ⟨0, 0⟩ }, { cu0 with st := .placed ⟨0, 0⟩ }, ⟨0, 0⟩, ns0, keyM, plS ns0 (wc0 { cu0 with st := .placed ⟨0, 0⟩ }) [], by decide⟩,
   ⟨9, 0, rdc { cu0 with st := .decoded }, { cu0 with st := .decoded }, [5], ns0, keyM, plS ns0 (rdc { cu0 with st := .decoded }) [], by decide⟩,
   ⟨9, 0, wc0 { cu0 with st := .checked ⟨0, 0⟩ }, { cu0 with st := .checked ⟨0, 0⟩ }, ⟨0, 0⟩, rg0, ns0, plS ns0 (wc0 { cu0 with st := .checked ⟨0, 0⟩ }) [(0, stp [.claimed, .pad])], by decide⟩,
   ⟨9, 0, wc0 { cu0 with st := .checked ⟨0, 0⟩ }, { cu0 with st := .checked ⟨0, 0⟩ }, ⟨0, 0⟩, rg0, ns0, { plS ns0 (wc0 { cu0 with st := .checked ⟨0, 0⟩ }) [(0, stp [.claimed, .pad])] with sgd := { Sgd.reset with pfail := true } }, by decide⟩,
   ⟨0, stp [.pad, .copy 7 .zero], plS ns0 wctx [(0, stp [.pad, .copy 7 .zero])], by decide⟩,
   ⟨0, stp [.pad, .claimed], plS ns0 wctx [(0, stp [.pad, .claimed])], by decide⟩,
   ⟨0, { stp [.pad, .unit 5] with parity := some 0 }, plS ns0 wctx [(0, { stp [.pad, .unit 5] with parity := some 0 })], by decide, by decide, by decide, by decide, fun _ _ _ _ h => by cases h⟩,
   ⟨0, 1, 5, 0, { stp [.pad, .unit 5] with parity := some 0 }, suZ, nsZ, zn8, clZ, by decide, by decide, by decide, by decide, by decide, stpOne, by decide⟩,
   ⟨0, { stp [.pad, .unit 5] with toProg := [1] }, plS ns0 wctx [(0, { stp [.pad, .unit 5] with toProg := [1] })], by decide⟩,
   ⟨0, 49, nsZ, false, foS, by decide +kernel, by decide +kernel, by decide +kernel, by decide +kernel, .inl fo_runs, fo_due, fo_goes⟩,
   ⟨false, 0, { up with sgd := { up.sgd with pfail := true } }, by decide⟩⟩

/-- States that meet the hypotheses of PlacementAndServing, clause by clause. -/
theorem witness_PlacementAndServing :
    (∃ (icc : Nat) (iccq : Nat) (s : Machine.State), fone s Fld.TMB_STATUS_HELD = false ∧ pulsesBlocked s = false) ∧
    (∃ (k : Nat) (g : Nat) (o : OpenSb) (u : Machine.State) (s : Machine.State), fone s Fld.PLC_CTRL_EN = true ∧ (SMap.find s.plc.streams k).isSome = true ∧ streamFree s k < 65 ∧ (classOf s (keyClass k)).mode ≠ 0 ∧ prepareIn s k = some (g, u) ∧ SMap.find u.plc.opens (k * 128 + g) = some o ∧ o.next < setRows u g o.width o.mode o.par7 ∧ (o.mode = 0 ∨ 0 < o.width)) ∧
    (∃ (k : Nat) (s : Machine.State), 65 ≤ streamFree s k) ∧
    (∃ (g : Nat) (s : Machine.State), g ∈ groupCount s) ∧
    (∃ (n : Nat) (k : Nat) (st : Stripe) (s : Machine.State), SMap.find s.plc.stripes n = some st ∧ n < s.plc.nextStripe ∧ st.key = some k ∧ pageDone s st = false ∧ (st.members.all fun m => m == .free) = false) ∧
    (∃ (zi : Nat) (id : Nat) (n : Ns) (s : Machine.State), nsOfZone s zi = some (id, n) ∧ (zoneGet s zi).cursor.isSome = true ∧ hasTail s zi = true) ∧
    (∃ (zi : Nat) (n : Nat) (st : Stripe) (s : Machine.State), (zoneGet s zi).cursor = none ∧ SMap.find s.plc.stripes n = some st ∧ (n, st) ∈ zoneStripes s zi ∧ st.members.all settled = true) ∧
    (∃ (g : Fin 128) (s : Machine.State), grp s Fld.PLC_GRP_QUIET_GROUPS g.val = false ∧ fget s Fld.PLC_QUIET_ENTER_US * 1000 < SMap.getD s.plc.rdLog g.val 0 ∧ SMap.find s.plc.quietEnd g.val = none ∧ s.plc.quiet.length < fget s Fld.PLC_QUIET_MAX_GROUPS) ∧
    (∃ (g : Fin 128) (s : Machine.State), grp s Fld.PLC_GRP_QUIET_GROUPS g.val = false ∧ fget s Fld.PLC_QUIET_ENTER_US * 1000 < SMap.getD s.plc.rdLog g.val 0 ∧ SMap.find s.plc.quietEnd g.val = none ∧ fget s Fld.PLC_QUIET_MAX_GROUPS ≤ s.plc.quiet.length) ∧
    (∃ (g : Fin 128) (q : Nat) (s : Machine.State), SMap.find s.plc.quiet g.val = some q) ∧
    (∃ (k : Nat) (x : Machine.Stream) (s : Machine.State), SMap.find s.plc.streams k = some x ∧ (∀ e, e ∈ s.plc.stripes → e.2.key = some k → e.2.members.all (fun m => m == .free) = true)) ∧
    (∃ (m : Master) (q : Nat) (i : Fin 4) (v : Word) (s : Machine.State), decideWrite s (whoOf s m) (Reg.PLC_GRP_HOLD i.val) = .admitted q ∧ tailRoom s 9 [i.val, v.toNat]) ∧
    (∃ (m : Master) (q : Nat) (i : Fin 4) (v : Word) (s : Machine.State), decideWrite s (whoOf s m) (Reg.PLC_GRP_HOLD i.val) = .admitted q ∧ ¬ tailRoom s 9 [i.val, v.toNat]) ∧
    (∃ (g : Fin 128) (s : Machine.State), grp s Fld.PLC_GRP_DEDICATED_GROUPS g.val = true ∧ isoOf s g.val = none ∧ (∀ e, e ∈ s.med.inUse → e.1 / 1048576 ≠ g.val) ∧ (∀ e, e ∈ s.med.erasing → e.1 / 1048576 ≠ g.val)) ∧
    (∃ (x : Nat) (u : Nat) (die : Nat) (b : Nat) (page : Nat) (pos : Nat) (c : Ctx) (k : CUnit) (s : Machine.State), x < bgBase ∧ ctxUnit s x u = some (c, k) ∧ k.st = .waiting ∧ k.loc = .flash die b page pos ∧ s.med.lost.contains (lostKey c.nsid k.unit) = false ∧ fone s Fld.DSC_CTRL_EN = true ∧ queueRoom s die = true ∧ parkedOf s die = [] ∧ dieGone s die = false ∧ predictDirect s die (readOp s x u c die b page pos) + fget s Fld.DSC_RB_CTRL_MARGIN_US * 1000 ≤ c.deadline) ∧
    (∃ (id : Nat) (r : Rebound) (c : Ctx) (k : CUnit) (n : Ns) (s : Machine.State), SMap.find s.dsc.rebounds id = some r ∧ r.waiting = [] ∧ r.arrived = [] ∧ r.mandatory = false ∧ r.host.1 < bgBase ∧ ctxUnit s r.host.1 r.host.2 = some (c, k) ∧ headerOk s c k r.acc = true ∧ seqOk k r.acc = true ∧ SMap.find s.zne.ns c.nsid = some n) :=
  ⟨⟨0, 0, withSl slP up, by decide⟩,
   ⟨0, ppR.1, ppO, ppR.2, pages (List.range 16) (plS ns0 wctx []), by decide, by decide, by decide, by decide, some_getD pp_some, pp_open, pp_row, by decide⟩,
   ⟨0, plS ns0 wctx [(0, stp (List.replicate 65 .free))], by decide⟩,
   ⟨127, put [(Fld.PLC_GRP_PRESENT_GROUPS 3, 0x80000000)] up, by decide⟩,
   ⟨0, 0, stp [.free, .unit 5], plS ns0 wctx [(0, stp [.free, .unit 5])], by decide⟩,
   ⟨0, 49, nsZ, taS, by decide⟩,
   ⟨0, 0, zst, dzS, by decide⟩,
   ⟨127, qt 1 [], by decide⟩,
   ⟨127, qt 1 [(3, 0)], by decide⟩,
   ⟨127, 5, qt 1 [(127, 5)], by decide⟩,
   ⟨0, { mode := 1, last := 0 }, plS ns0 wctx [(0, stp [.free, .free])], by decide⟩,
   ⟨.pair 0, 0, 3, 0xFFFFFFFF, put [(Fld.SGD_DIRTY_LIMIT_MIB, 1)] up, by unfold tailRoom; decide⟩,
   ⟨.pair 0, 0, 3, 0xFFFFFFFF, put [(Fld.SGD_DIRTY_LIMIT_MIB, 0)] up, by unfold tailRoom; decide⟩,
   ⟨127, put [(Fld.PLC_GRP_DEDICATED_GROUPS 3, 0x80000000)] up, by decide⟩,
   ⟨9, 0, 0, 1, 2, 3, rdc { cu0 with loc := .flash 0 1 2 3 }, { cu0 with loc := .flash 0 1 2 3 }, rsS, by decide⟩,
   ⟨4, rb0 acc0, rdc { cu0 with st := .rebound 4 }, { cu0 with st := .rebound 4 }, ns0, rbS, rfl, rfl, rfl, rfl, by decide, rfl, headerOk_small (by decide) (by decide) (by decide), rfl, rfl⟩⟩

end Sys2Proof.Tests.W15

namespace Sys2Proof.Tests.W16
set_option linter.all false
open Sys2Proof Sys2Proof.Machine

def ps (l : List (Field × Nat)) (p : Option Nat) (st : SMap SUnit) : Machine.State := put l { linked with hst := { linked.hst with psTo := p }, zne := { Zne.reset with stg := st } }
def su0 : SUnit := { nsid := 49, unit := 0, slice := 3, seq := 1, blocks := [5], tgt := ⟨0, 0⟩, since := 0 }
def apS (r : Nat) : Machine.State := { linked with hst := { linked.hst with ports := [(0, { port0 with reqPs := r, feat := { Feat.reset with apstOn := true, apst := [(0, (100, 3)), (3, (500, 4))] } })] } }
def busyS : Machine.State := { linked with hst := { linked.hst with ctx := [(1, wctx)] } }
def opc : DOp :=
  { id := 1, kind := 1, owner := none, iso := false, mode := 2, block := 5, page := 0, unit := 0, deadline := 9, cls := 0, flush := false, staged := false, urgent := false, host := none, rebound := none, call := some 0, started := 0, ran := 0, susp := 0, suspNs := 0 }
def callG : Call :=
  { kind := 0, gen := 1, shares := [(1024, 3)], die := 65, op := 2, icc := 10, iccq := 0, iso := none, cls := 0, deadline := 9, since := 0, granted := true, epoch := 0, hol := false }
def disS (c : SMap Call) : Machine.State := put [(Fld.DSC_CTRL_EN, 1)] { up with dsc := { Dsc.reset with queues := [(65, [opc])] }, ump := { Ump.reset with calls := c } }
def rIn : Nat := infoOf (49 * 2 ^ 49 + 7 + 3 * 2 ^ 128) 77
def rCu : CUnit := { unit := 7, lba := 7, n := 1, loc := .flash 0 1 2 3, st := .arrived, blocks := [5], tries := 0, inst := 0, latch := none }
def rCx : Ctx := { rctx with units := [rCu] }
def ldS : Machine.State :=
  put [(Fld.LDC_CTRL_EN, 1)] { withNs ns0 linked with hst := { linked.hst with ctx := [(9, rCx)] }, med := { Med.reset with pages := [(pageKey 0 1 2, [0, 0, 0, rIn])] } }
def us0 (v : Nat) : SbUse := { mode := 1, valid := v, conv := true, staging := false, full := true, par7 := false }
def coS : Machine.State := put (((List.range 16).map fun c => (Fld.CHS_DIE_MAP_DIES c, 1)) ++ [(Fld.LDC_MED_COLL_Q2_PCT, 5), (Fld.PLC_FREE_BLOCKS, 0), (Fld.PLC_GRP_PRESENT_GROUPS 0, 1)]) { up with med := { Med.reset with inUse := [(1048576, us0 9), (1048577, us0 5)] }, zne := { Zne.reset with conv := [(5, { loc := .flash (32 * 16) 1 0 0, mode := 1, seq := 5 })] } }
def wlS : Machine.State := put [(Fld.LDC_MED_WL_SPREAD, 10)] { up with med := { Med.reset with inUse := [(1048576, us0 9), (1048577, us0 0)], blocks := [(32 * 16 * 1048576 + 1, { pe := 41, mode := 1, repairs := 0, retired := false, spare := false })] } }
def rb1 : Rebuild := { die := 5, since := 0 }
def rbdS : Machine.State := { up with med := { Med.reset with rebuilds := [rb1], losses := [(20, [0])], dies := [(5, 2)] } }
def jb (n : Nat) (w : List (Nat × Nat)) : Machine.State := { up with med := { Med.reset with ckptDone := 9, jblks := [(sbKey 127 5, { newest := n, waits := w })] } }

theorem ld_last (x : Nat) : [0, 0, 0, x].getD 3 0 = x := rfl
theorem ld_unit : unitAt ldS 0 (srcPhys ldS 0 1 2) 2 3 = rIn :=
  (unitAt_of (us := [0, 0, 0, rIn]) rfl).trans (ld_last rIn)
theorem ld_header : headerOk ldS rCx rCu rIn = true := headerOk_small (by decide) (by decide) (by decide)

/-- States that meet the hypotheses of PowerStatesDispatchAndMedia, clause by clause. -/
theorem witness_PowerStatesDispatchAndMedia :
    (∃ (p : Nat) (s : Machine.State), s.hst.psTo = some p ∧ p < 8 ∧ (tailWrite (stripesClose s) true).zne.stg = [] ∧ dirtyBytes (tailWrite (stripesClose s) true) = 0) ∧
    (∃ (p : Nat) (s : Machine.State), s.hst.psTo = some p ∧ ((tailWrite (stripesClose s) true).zne.stg ≠ [] ∨ dirtyBytes (tailWrite (stripesClose s) true) ≠ 0)) ∧
    (∃ (s : Machine.State), 3 ≤ effPs s ∧ fone s Fld.QEN_PS_EXCURSION = false) ∧
    (∃ (s : Machine.State), 3 ≤ effPs s ∧ fone s Fld.QEN_PS_EXCURSION = true) ∧
    (∃ (s : Machine.State), effPs s ≤ 2) ∧
    (∃ (p : Fin 4) (ms : Nat) (q : Nat) (s : Machine.State), portOff s p.val = false ∧ (SMap.find s.hst.ports p.val).isSome = true ∧ (portGet s p.val).feat.apstOn = true ∧ portIdle s p.val = true ∧ SMap.find (portGet s p.val).feat.apst (portGet s p.val).reqPs = some (ms, q) ∧ ms ≠ 0 ∧ fone s Fld.TMB_STATUS_HELD = false ∧ pulsesBlocked s = false) ∧
    (∃ (p : Fin 4) (s : Machine.State), portIdle s p.val = false) ∧
    (∃ (die : Fin 2048) (o : DOp) (s : Machine.State), fone s Fld.DSC_CTRL_EN = true ∧ sentOf s die.val = [] ∧ nextOps s die.val = [o] ∧ callOk s o = true ∧ opPressed s o = false ∧ pfail s = false ∧ parkedOf s die.val = [] ∧ (qGet (chsOf s (die.val / 32)) (opQueue o)).length < 64) ∧
    (∃ (die : Fin 2048) (o : DOp) (s : Machine.State), nextOps s die.val = [o] ∧ callOk s o = false) ∧
    (∃ (die : Fin 2048) (s : Machine.State), sentOf s die.val ≠ []) ∧
    (∃ (die : Fin 2048) (l : List DOp) (since : Nat) (s : Machine.State), SMap.find s.dsc.susp die.val = some (l, since) ∧ fone s Fld.TMB_STATUS_HELD = false ∧ pulsesBlocked s = false) ∧
    (∃ (m : Master) (q : Nat) (v : Word) (s : Machine.State), decideWrite s (whoOf s m) Reg.DSC_PRED_BANK = .admitted q) ∧
    (∃ (m : Master) (q : Nat) (v : Word) (s : Machine.State), decideWrite s (whoOf s m) Reg.DSC_LAT_SEL = .admitted q ∧ bit v.toNat 8 = true) ∧
    (∃ (m : Master) (q : Nat) (v : Word) (s : Machine.State), decideWrite s (whoOf s m) Reg.DSC_LAT_SEL = .admitted q ∧ bit v.toNat 8 = false) ∧
    (∃ (x : Nat) (u : Nat) (die : Nat) (b : Nat) (page : Nat) (pos : Nat) (c : Ctx) (k : CUnit) (n : Ns) (s : Machine.State), fone s Fld.LDC_CTRL_EN = true ∧ x < bgBase ∧ ctxUnit s x u = some (c, k) ∧ k.loc = .flash die b page pos ∧ k.st = .arrived ∧ headerOk s c k (unitAt s die (srcPhys s die b page) page pos) = true ∧ seqOk k (unitAt s die (srcPhys s die b page) page pos) = true ∧ SMap.find s.zne.ns c.nsid = some n) ∧
    (∃ (x : Nat) (u : Nat) (d : Decode) (s : Machine.State), fone s Fld.LDC_CTRL_EN = false) ∧
    (∃ (cls : Nat) (v : Nat × SbUse) (s : Machine.State), collClass s = some cls ∧ victim s = some v ∧ bgStopped s = false ∧ (s.med.copies.any fun c => sbKey c.group c.block == v.1) = false) ∧
    (∃ (s : Machine.State), bgStopped s = true) ∧
    (∃ (g : Fin 128) (a : Nat × SbUse) (b : Nat × Blk) (s : Machine.State), a ∈ s.med.inUse ∧ b ∈ s.med.blocks ∧ a.1 / 1048576 = g.val ∧ groupOf (b.1 / 1048576) = g.val ∧ a.2.full = true ∧ a.2.valid ≠ 0 ∧ b.2.retired = false ∧ b.2.spare = false ∧ sbPe s g.val (a.1 % 1048576) + 4 * fget s Fld.LDC_MED_WL_SPREAD < b.2.pe ∧ bgStopped s = false ∧ (s.med.copies.any fun c => c.why == 2 && c.group == g.val) = false) ∧
    (∃ (g : Fin 128) (s : Machine.State), bgStopped s = true) ∧
    (∃ (die : Fin 2048) (r : Rebuild) (ms : List Nat) (s : Machine.State), (s.med.rebuilds.find? fun x => x.die == die.val) = some r ∧ SMap.getD s.med.dies die.val 0 ≠ 3 ∧ ms = (SMap.getD s.med.losses (groupOf die.val) []).filter (fun m => m != memberOf die.val) ∧ tailRoom s 7 [die.val, 3]) ∧
    (∃ (g : Fin 128) (b : Nat) (j : JBlk) (s : Machine.State), SMap.find s.med.jblks (sbKey g.val b) = some j ∧ j.newest < s.med.ckptDone ∧ j.waits = [] ∧ (metaIn s g.val b).all (fun e => e.2.chunk.isNone) = true) ∧
    (∃ (g : Fin 128) (b : Nat) (j : JBlk) (s : Machine.State), SMap.find s.med.jblks (sbKey g.val b) = some j ∧ (s.med.ckptDone ≤ j.newest ∨ j.waits ≠ [] ∨ (metaIn s g.val b).all (fun e => e.2.chunk.isNone) = false)) :=
  ⟨⟨4, ps [(Fld.QEN_PS_TRANSITION, 1)] (some 4) [], by decide⟩,
   ⟨4, ps [(Fld.QEN_PS_TRANSITION, 1)] (some 4) [(0, su0)], by decide⟩,
   ⟨ps [(Fld.QEN_PS_EFFECTIVE, 3), (Fld.DMC_STATUS_IN_SR, 1)] none [], by decide⟩,
   ⟨ps [(Fld.QEN_PS_EFFECTIVE, 4), (Fld.QEN_PS_EXCURSION, 1)] none [], by decide⟩,
   ⟨ps [(Fld.QEN_PS_EFFECTIVE, 2)] none [], by decide⟩,
   ⟨0, 500, 4, apS 3, by decide⟩,
   ⟨0, busyS, by decide⟩,
   ⟨65, opc, disS [(0, callG)], by decide⟩,
   ⟨65, opc, disS [(0, { callG with granted := false })], by decide⟩,
   ⟨65, { up with dsc := { Dsc.reset with sent := [(65, [opc])] } }, by decide⟩,
   ⟨65, [opc], 7, { up with dsc := { Dsc.reset with susp := [(65, ([opc], 7))] } }, by decide⟩,
   ⟨.pair 0, 0, 1, up, by decide⟩,
   ⟨.pair 0, 0, 0x103, { up with dsc := { Dsc.reset with bins := [(3, 4)] } }, by decide⟩,
   ⟨.pair 0, 0, 3, { up with dsc := { Dsc.reset with bins := [(3, 4)] } }, by decide⟩,
   ⟨9, 0, 0, 1, 2, 3, rCx, rCu, ns0, ldS, rfl, by decide, rfl, rfl, rfl, (congrArg (headerOk ldS rCx rCu) ld_unit).trans ld_header, rfl, rfl⟩,
   ⟨9, 0, .hard, put [(Fld.LDC_CTRL_EN, 0)] up, by decide⟩,
   ⟨2, (1048577, us0 5), coS, by decide⟩,
   ⟨{ up with sgd := { up.sgd with pfail := true } }, by decide⟩,
   ⟨1, (1048576, us0 9), (32 * 16 * 1048576 + 1, { pe := 41, mode := 1, repairs := 0, retired := false, spare := false }), wlS, by decide⟩,
   ⟨1, { up with sgd := { up.sgd with pfail := true } }, by decide⟩,
   ⟨5, rb1, [], put [(Fld.SGD_DIRTY_LIMIT_MIB, 1)] rbdS, by unfold tailRoom; decide⟩,
   ⟨127, 5, { newest := 8, waits := [] }, jb 8 [], by decide⟩,
   ⟨127, 5, { newest := 9, waits := [] }, jb 9 [], by decide⟩⟩

end Sys2Proof.Tests.W16

namespace Sys2Proof.Tests.W17
set_option linter.all false
open Sys2Proof Sys2Proof.Machine

def ds (op : Nat) : Desc :=
  { op := op, flags := 0, die := 31, mode := 1, tag := 7, block := 2, page := 1, units := if op = 1 then 8 else 0, step := 255, call := 0, owner := 0xFFFF, param := 0, data := [.slab 1, .slab 2, .slab 3, .slab 4], param2 := 0 }
def chS (l : List (Field × Nat)) (c : Chs) : Machine.State :=
  put ([(Fld.CHS_CTRL_EN 63, 1), (Fld.CHS_CTRL_PROG_EN 63, 1), (Fld.CHS_UCODE_STATE 63, 2), (Fld.CHS_PAGES_ST_TLC 63, 3), (Fld.CHS_DIE_MAP_DIES 63, 0x80000000), (Fld.CHS_PLANES_PLANES 63, 4)] ++ l) { up with flash := { Flash.reset with chs := [(63, c)] } }
def eq0 : SMap SeqEnt := [(31 * 64, { block := 2, mode := 1, next := 1 }), (31 * 64 + 1, { block := 3, mode := 1, next := 1 })]
def fullSeq : SMap SeqEnt := (List.range 64).map fun i => (31 * 64 + i, { block := 100 + i, mode := 1, next := 0 })
def cx (op : Nat) : DieCtx := ctxNew [ds op] 1 0
def q2 (l : List Desc) : Chs := { Chs.reset with q2 := l, seq := eq0 }
def q3 (l : List Desc) : Chs := { Chs.reset with q3 := l, seq := eq0 }
def djn : Desc := { ds 2 with block := 3 }
theorem takes {s : Machine.State} {ch op q i : Nat} {j : Bool} {l : List Desc} (h : chsReady s ch = true ∧ pickAny (chsOf s ch) (headIs op j) = some (q, i, l) ∧
    l.any (descBad s ch q) = false ∧ joinBad s ch l = false ∧ refsOut s l = false ∧ pfail s = false ∧ fone s (Fld.CHS_POST_GO_GO ch) = false) : chsTakes s ch op j q i l := h
def asS (c : Chs) : Machine.State := { chS [] c with dsc := { Dsc.reset with asked := [32 * 63 + 31] } }
def rop : DOp :=
  { id := 7, kind := 0, owner := some 3, iso := false, mode := 1, block := 2, page := 1, unit := 3, deadline := 9, cls := 0, flush := false, staged := false, urgent := false, host := some (9, 0), rebound := none, call := none, started := 0, ran := 0, susp := 0, suspNs := 0 }
def ent (op : Nat) : CEnt := { tag := 7, status := ST_OK, die := 31, op := op, array := 0, flags := 0, susp := 0, dstat := 0 }
def rdu : Ctx := { rctx with units := [{ unit := 7, lba := 7, n := 1, loc := .flash 2047 2 1 3, st := .queued 7, blocks := [], tries := 0, inst := 0, latch := none }] }
def cltS : Machine.State := { chS [] { Chs.reset with fifo := [ent 1] } with dsc := { Dsc.reset with run := [(2047, [rop])] }, hst := { up.hst with ctx := [(9, rdu)] } }
def cltW : Machine.State := { chS [] { Chs.reset with fifo := [ent 2], ovr := [ent 3] } with flash := { Flash.reset with chs := [(63, { Chs.reset with fifo := [ent 2], ovr := [ent 3] })], token := 63 } }

/-- States that meet the hypotheses of DescriptorsTaken, clause by clause. -/
theorem witness_DescriptorsTaken :
    (∃ (ch : Fin 64) (q : Fin 4) (i : Nat) (d : Desc) (s : Machine.State), chsReady s ch.val = true ∧ pickChain (chsOf s ch.val) q.val headRead = some (i, [d]) ∧ descBad s ch.val q.val d = false ∧ pfail s = false ∧ fone s (Fld.CHS_POST_GO_GO ch.val) = false ∧ refsOut s [d] = false ∧ eraseHeld (chsOf s ch.val) d.die d.block = false) ∧
    (∃ (ch : Fin 64) (q : Fin 4) (i : Nat) (d : Desc) (s : Machine.State), chsReady s ch.val = true ∧ pickChain (chsOf s ch.val) q.val headRead = some (i, [d]) ∧ descBad s ch.val q.val d = false ∧ pfail s = false ∧ fone s (Fld.CHS_POST_GO_GO ch.val) = false ∧ refsOut s [d] = true) ∧
    (∃ (ch : Fin 64) (q : Fin 4) (i : Nat) (d : Desc) (s : Machine.State), chsReady s ch.val = true ∧ pickChain (chsOf s ch.val) q.val headRead = some (i, [d]) ∧ descBad s ch.val q.val d = false ∧ pfail s = false ∧ fone s (Fld.CHS_POST_GO_GO ch.val) = false ∧ refsOut s [d] = false ∧ eraseHeld (chsOf s ch.val) d.die d.block = true) ∧
    (∃ (ch : Fin 64) (q : Nat) (i : Nat) (d : Desc) (s : Machine.State), chsTakes s ch.val 2 false q i [d] ∧ SMap.find (chsOf s ch.val).slot d.die = none ∧ seqPermits (chsOf s ch.val) d = true) ∧
    (∃ (ch : Fin 64) (q : Nat) (i : Nat) (d : Desc) (s : Machine.State), chsTakes s ch.val 2 false q i [d] ∧ SMap.find (chsOf s ch.val).slot d.die = none ∧ seqPermits (chsOf s ch.val) d = false) ∧
    (∃ (ch : Fin 64) (q : Nat) (i : Nat) (d : Desc) (l : List Desc) (s : Machine.State), chsTakes s ch.val 2 true q i (d :: l) ∧ SMap.find (chsOf s ch.val).slot d.die = none ∧ (∀ x, x ∈ d :: l → seqPermits (chsOf s ch.val) x = true)) ∧
    (∃ (ch : Fin 64) (q : Nat) (i : Nat) (d : Desc) (s : Machine.State), chsTakes s ch.val 3 false q i [d] ∧ SMap.find (chsOf s ch.val).slot d.die = none ∧ ((seqFind (chsOf s ch.val) d.die d.block).isSome || (seqFree (chsOf s ch.val) d.die).isSome) = true) ∧
    (∃ (ch : Fin 64) (q : Nat) (i : Nat) (d : Desc) (s : Machine.State), chsTakes s ch.val 3 false q i [d] ∧ SMap.find (chsOf s ch.val).slot d.die = none ∧ seqFind (chsOf s ch.val) d.die d.block = none ∧ seqFree (chsOf s ch.val) d.die = none) ∧
    (∃ (ch : Fin 64) (q : Nat) (i : Nat) (d : Desc) (s : Machine.State), chsTakes s ch.val 3 false q i [d] ∧ (SMap.find (chsOf s ch.val).slot d.die).isSome = true) ∧
    (∃ (ch : Fin 64) (q : Nat) (i : Nat) (d : Desc) (s : Machine.State), chsTakes s ch.val 4 false q i [d]) ∧
    (∃ (ch : Fin 64) (q : Nat) (i : Nat) (d : Desc) (s : Machine.State), chsTakes s ch.val 5 false q i [d]) ∧
    (∃ (ch : Fin 64) (q : Nat) (i : Nat) (d : Desc) (s : Machine.State), chsTakes s ch.val 6 false q i [d]) ∧
    (∃ (ch : Fin 64) (q : Nat) (i : Nat) (d : Desc) (s : Machine.State), chsTakes s ch.val 7 false q i [d]) ∧
    (∃ (ch : Fin 64) (q : Nat) (i : Nat) (d : Desc) (s : Machine.State), chsTakes s ch.val 8 false q i [d]) ∧
    (∃ (ch : Fin 64) (q : Nat) (i : Nat) (d : Desc) (s : Machine.State), chsTakes s ch.val 9 false q i [d]) ∧
    (∃ (ch : Fin 64) (q : Nat) (i : Nat) (d : Desc) (s : Machine.State), chsTakes s ch.val 10 false q i [d]) ∧
    (∃ (ch : Fin 64) (q : Nat) (i : Nat) (d : Desc) (s : Machine.State), chsTakes s ch.val 11 false q i [d]) ∧
    (∃ (ch : Fin 64) (q : Nat) (i : Nat) (d : Desc) (s : Machine.State), chsTakes s ch.val 12 false q i [d]) ∧
    (∃ (ch : Fin 64) (q : Nat) (i : Nat) (d : Desc) (s : Machine.State), chsReady s ch.val = true ∧ custCtx (chsOf s ch.val) = none ∧ pickAny (chsOf s ch.val) headCust = some (q, i, [d]) ∧ descBad s ch.val q d = false ∧ pfail s = false ∧ fone s (Fld.CHS_POST_GO_GO ch.val) = false) ∧
    (∃ (ch : Fin 64) (p : Nat) (m : Nat) (d : Desc) (x : DieCtx) (s : Machine.State), (chsOf s ch.val).mc = false ∧ carded s (midChs ch.val) = false ∧ SMap.find (chsOf s ch.val).ctx p = some x ∧ x.chain = [d] ∧ 0x80 ≤ d.op ∧ (chsOf s ch.val).cur = none ∧ smpPos m = p ∧ custCtx (chsOf s ch.val) ≠ none ∧ (chsOf s ch.val).entries ≤ x.addr - 6144 ∧ 6144 ≤ x.addr ∧ x.addr < 6208 ∧ pfail s = false ∧ chsRoom s ch.val) :=
  ⟨⟨63, 0, 0, ds 1, chS [] { Chs.reset with q0 := [ds 1] }, by decide⟩,
   ⟨63, 0, 0, { ds 1 with data := [.dram 4096, .slab 2, .slab 3, .slab 4] }, rset (rset (chS [] { Chs.reset with q0 := [{ ds 1 with data := [.dram 4096, .slab 2, .slab 3, .slab 4] }] }) Reg.DMC_TOP_LO 4096) Reg.DMC_TOP_HI 0, by decide⟩,
   ⟨63, 1, 0, ds 1, chS [] { Chs.reset with q1 := [ds 1], slot := [(31, cx 3)] }, by decide⟩,
   ⟨63, 2, 0, ds 2, chS [] (q2 [ds 2]), takes (by decide), by decide⟩,
   ⟨63, 2, 0, { ds 2 with page := 2 }, chS [] (q2 [{ ds 2 with page := 2 }]), takes (by decide), by decide⟩,
   ⟨63, 2, 0, { ds 2 with flags := 64 }, [djn], chS [] (q2 [{ ds 2 with flags := 64 }, djn]), takes (by decide), by decide⟩,
   ⟨63, 3, 0, ds 3, chS [] (q3 [ds 3]), takes (by decide), by decide⟩,
   ⟨63, 3, 0, ds 3, chS [] { q3 [ds 3] with seq := fullSeq }, takes (by decide), by decide⟩,
   ⟨63, 3, 0, ds 3, chS [] { q3 [ds 3] with slot := [(31, cx 2)] }, takes (by decide), by decide⟩,
   ⟨63, 3, 0, ds 4, chS [] (q3 [ds 4]), takes (by decide)⟩,
   ⟨63, 3, 0, ds 5, chS [] (q3 [ds 5]), takes (by decide)⟩,
   ⟨63, 3, 0, ds 6, chS [] (q3 [ds 6]), takes (by decide)⟩,
   ⟨63, 3, 0, ds 7, chS [] (q3 [ds 7]), takes (by decide)⟩,
   ⟨63, 3, 0, ds 8, chS [] (q3 [ds 8]), takes (by decide)⟩,
   ⟨63, 3, 0, ds 9, chS [] (q3 [ds 9]), takes (by decide)⟩,
   ⟨63, 3, 0, ds 10, chS [] (q3 [ds 10]), takes (by decide)⟩,
   ⟨63, 3, 0, ds 11, chS [] (q3 [ds 11]), takes (by decide)⟩,
   ⟨63, 3, 0, ds 12, chS [] (q3 [ds 12]), takes (by decide)⟩,
   ⟨63, 3, 0, ds 0xBF, chS [] (q3 [ds 0xBF]), by decide⟩,
   ⟨63, 31, 31 * 65536, ds 0x80, { cx 0x80 with addr := 6207 }, chS [] { Chs.reset with ctx := [(31, { cx 0x80 with addr := 6207 })], entries := 63 }, by unfold chsRoom; decide⟩⟩

def call0 : Call := { kind := 0, gen := 0, shares := [], die := 32 * 63 + 31, op := 4, icc := 0, iccq := 0, iso := none, cls := 1, deadline := 0, since := 0, granted := false, epoch := 0, hol := false }
def cardS (s : Machine.State) : Machine.State := { s with acm := { s.acm with cards := [(midChs 63, { code := 5, st := 2, drained := true, time := 0, codes := [5] })] } }

/-- States that meet the hypotheses of SequencersAndCollector, clause by clause. -/
theorem witness_SequencersAndCollector :
    (∃ (m : Master) (ch : Fin 64) (v : Word) (k : Nat) (s : Machine.State), decideWrite s (whoOf s m) (Reg.CHS_POST_GO ch.val) = .admitted k ∧ chPresent s ch.val = true ∧ fone s Fld.DSC_CTRL_EN = false ∧ bit v.toNat 8 = true ∧ (qGet (chsOf s ch.val) (bits v.toNat 0 2)).length < 64 ∧ carded s (midChs ch.val) = false ∧ opKnown (descOf fun k => rget s (Reg.CHS_POST_D ch.val k)).op = true) ∧
    (∃ (m : Master) (ch : Fin 64) (v : Word) (k : Nat) (s : Machine.State), decideWrite s (whoOf s m) (Reg.CHS_POST_GO ch.val) = .admitted k ∧ chPresent s ch.val = true ∧ fone s Fld.DSC_CTRL_EN = false ∧ bit v.toNat 8 = true ∧ (qGet (chsOf s ch.val) (bits v.toNat 0 2)).length < 64 ∧ carded s (midChs ch.val) = true ∧ chsRoom s ch.val) ∧
    (∃ (m : Master) (ch : Fin 64) (v : Word) (s : Machine.State), fone s Fld.DSC_CTRL_EN = true) ∧
    (∃ (ch : Fin 64) (p : Fin 32) (array : Nat) (dstat : Nat) (fails : Nat) (vals : List Nat) (d : Desc) (x : DieCtx) (s : Machine.State), SMap.find (chsOf s ch.val).ctx p.val = some x ∧ x.chain = [d] ∧ d.op = 2 ∧ (chsOf s ch.val).mc = false ∧ p.val ∉ (chsOf s ch.val).want ∧ chsRoom s ch.val ∧ fails.testBit 0 = false) ∧
    (∃ (ch : Fin 64) (p : Fin 32) (array : Nat) (dstat : Nat) (fails : Nat) (vals : List Nat) (d : Desc) (x : DieCtx) (s : Machine.State), SMap.find (chsOf s ch.val).ctx p.val = some x ∧ x.chain = [d] ∧ d.op = 2 ∧ (chsOf s ch.val).mc = false ∧ p.val ∉ (chsOf s ch.val).want ∧ chsRoom s ch.val ∧ fails.testBit 0 = true) ∧
    (∃ (ch : Fin 64) (p : Fin 32) (array : Nat) (dstat : Nat) (fails : Nat) (vals : List Nat) (d : Desc) (x : DieCtx) (s : Machine.State), SMap.find (chsOf s ch.val).ctx p.val = some x ∧ x.chain = [d] ∧ d.op = 3 ∧ (chsOf s ch.val).mc = false ∧ p.val ∉ (chsOf s ch.val).want ∧ chsRoom s ch.val ∧ fails.testBit 0 = false) ∧
    (∃ (ch : Fin 64) (p : Fin 32) (array : Nat) (dstat : Nat) (fails : Nat) (vals : List Nat) (s : Machine.State), p.val ∈ (chsOf s ch.val).want) ∧
    (∃ (ch : Fin 64) (p : Fin 32) (d : Desc) (x : DieCtx) (s : Machine.State), SMap.find (chsOf s ch.val).ctx p.val = some x ∧ x.chain = [d] ∧ (chsOf s ch.val).mc = false ∧ p.val ∉ (chsOf s ch.val).want ∧ SMap.find (chsOf s ch.val).slot p.val = none ∧ chsRoom s ch.val) ∧
    (∃ (ch : Fin 64) (p : Fin 32) (d : Desc) (e : Desc) (x : DieCtx) (y : DieCtx) (s : Machine.State), SMap.find (chsOf s ch.val).ctx p.val = some x ∧ x.chain = [d] ∧ (chsOf s ch.val).mc = false ∧ p.val ∉ (chsOf s ch.val).want ∧ SMap.find (chsOf s ch.val).slot p.val = some y ∧ y.chain = [e] ∧ (chsOf s ch.val).fifo.length < 15 ∧ (chsOf s ch.val).ovr = []) ∧
    (∃ (ch : Fin 64) (p : Fin 32) (x : DieCtx) (s : Machine.State), s.dsc.asked.contains (32 * ch.val + p.val) = true ∧ SMap.find (chsOf s ch.val).ctx p.val = some x ∧ (x.chain.any fun d => d.op == 2 || d.op == 3) = true ∧ x.vis = true ∧ x.commit = false ∧ (chsOf s ch.val).mc = false ∧ p.val ∉ (chsOf s ch.val).want ∧ SMap.find (chsOf s ch.val).slot p.val = none ∧ (runOf s (32 * ch.val + p.val)).any (·.urgent) = false ∧ chsRoom s ch.val) ∧
    (∃ (ch : Fin 64) (p : Fin 32) (s : Machine.State), (runOf s (32 * ch.val + p.val)).any (·.urgent) = true) ∧
    (∃ (ch : Fin 64) (p : Fin 32) (x : DieCtx) (s : Machine.State), SMap.find (chsOf s ch.val).ctx p.val = some x ∧ x.commit = true) ∧
    (∃ (ch : Fin 64) (p : Fin 32) (x : DieCtx) (s : Machine.State), SMap.find (chsOf s ch.val).slot p.val = some x ∧ (chsOf s ch.val).mc = false ∧ carded s (midChs ch.val) = false ∧ pfail s = false ∧ SMap.find (chsOf s ch.val).ctx p.val = none ∧ resumeCall s (32 * ch.val + p.val) = true ∧ resumeDue s (32 * ch.val + p.val) = true ∧ chsRoom s ch.val) ∧
    (∃ (ch : Fin 64) (p : Fin 32) (s : Machine.State), ((chsOf s ch.val).ovr.any fun e => e.die == p.val) = true) ∧
    (∃ (ch : Fin 64) (p : Fin 32) (s : Machine.State), pfail s = true) ∧
    (∃ (ch : Fin 64) (p : Fin 32) (a : Nat) (x : DieCtx) (s : Machine.State), chPresent s ch.val = true ∧ SMap.find (chsOf s ch.val).ctx p.val = some x ∧ ctxRuns (chsOf s ch.val) p.val x = true ∧ (chsOf s ch.val).mc = false ∧ x.yieldAt + yieldUs s ch.val * 1000 ≤ now (reach s (x.yieldAt + yieldUs s ch.val * 1000))) ∧
    (∃ (ch : Fin 64) (p : Fin 32) (a : Nat) (x : DieCtx) (s : Machine.State), SMap.find (chsOf s ch.val).ctx p.val = some x ∧ ctxRuns (chsOf s ch.val) p.val x = false) ∧
    (∃ (ch : Fin 64) (p : Nat) (x : DieCtx) (s : Machine.State), busKept (chsOf s ch.val) = false ∧ busNext s ch.val = some p ∧ SMap.find (chsOf s ch.val).ctx p = some x ∧ failStops s x = false) ∧
    (∃ (ch : Fin 64) (p : Nat) (d : Desc) (x : DieCtx) (s : Machine.State), busKept (chsOf s ch.val) = false ∧ busNext s ch.val = some p ∧ SMap.find (chsOf s ch.val).ctx p = some x ∧ failStops s x = true ∧ x.chain = [d] ∧ chsRoom s ch.val) ∧
    (∃ (ch : Fin 64) (s : Machine.State), busKept (chsOf s ch.val) = false ∧ (chsOf s ch.val).want = []) ∧
    (∃ (ch : Fin 64) (s : Machine.State), busKept (chsOf s ch.val) = true) ∧
    (∃ (k : Nat) (e : CEnt) (l : List CEnt) (s : Machine.State), (((List.range 64).map fun i => (s.flash.token + i) % 64).find? fun ch => !(chsOf s ch).fifo.isEmpty) = some k ∧ (chsOf s k).fifo = e :: l ∧ e.op ≠ 0xF1 ∧ e.op ≠ 0xF2 ∧ atSeq s (32 * k + e.die) = [] ∧ SMap.find s.dsc.susp (32 * k + e.die) = none ∧ fone s (Fld.CHS_CTRL_RESET k) = false) ∧
    (∃ (k : Nat) (x : Nat) (u : Nat) (e : CEnt) (l : List CEnt) (o : DOp) (s : Machine.State), (((List.range 64).map fun i => (s.flash.token + i) % 64).find? fun ch => !(chsOf s ch).fifo.isEmpty) = some k ∧ (chsOf s k).fifo = e :: l ∧ e.op = 1 ∧ e.status = ST_OK ∧ e.fatal = false ∧ SMap.find s.dsc.susp (32 * k + e.die) = none ∧ ((atSeq s (32 * k + e.die)).find? fun o => o.id == e.tag && o.kind + 1 == e.op) = some o ∧ o.rebound = none ∧ o.host = some (x, u) ∧ x < bgBase ∧ (ctxUnit s x u).isSome = true) ∧
    (∃ (s : Machine.State), (∀ k, (chsOf s k).fifo = [])) ∧
    (∃ (ch : Fin 64) (a : Nat) (scrub : Bool) (s : Machine.State), chPresent s ch.val = true ∧ (chsOf s ch.val).mc = false) ∧
    (∃ (ch : Fin 64) (s : Machine.State), chPresent s ch.val = true) ∧
    (∃ (m : Master) (ch : Fin 64) (k : Nat) (s : Machine.State), decideWrite s (whoOf s m) (Reg.CHS_CTRL ch.val) = .admitted k ∧ chPresent s ch.val = true ∧ fone s (Fld.CHS_CTRL_RESET ch.val) = false ∧ fone s (Fld.CHS_POST_GO_GO ch.val) = false) ∧
    (∃ (m : Master) (ch : Fin 64) (s : Machine.State), fone s (Fld.CHS_CTRL_RESET ch.val) = true) ∧
    (∃ (ch : Fin 64) (p : Fin 32) (a : Nat) (x : DieCtx) (s : Machine.State), chPresent s ch.val = true ∧ SMap.find (chsOf s ch.val).ctx p.val = some x ∧ (x.chain.any fun d => decide (0x80 ≤ d.op)) = true ∧ x.began + fget s (Fld.CHS_YIELD_CUST_MAX_US ch.val) * 1000 ≤ now (reach s (x.began + fget s (Fld.CHS_YIELD_CUST_MAX_US ch.val) * 1000))) :=
  ⟨⟨.pair 0, 63, 0x102, 0, rset (put [(Fld.DSC_CTRL_EN, 0)] (chS [] (q2 [ds 2]))) (Reg.CHS_POST_D 63 0) 0xBF, by decide⟩,
   ⟨.pair 0, 63, 0x102, 0, rset (cardS (put [(Fld.DSC_CTRL_EN, 0)] (chS [] (q2 [ds 2])))) (Reg.CHS_POST_D 63 0) 0xBF, by unfold chsRoom; decide⟩,
   ⟨.pair 0, 63, 0x102, put [(Fld.DSC_CTRL_EN, 1)] up, by decide⟩,
   ⟨63, 31, 0, 0, 0, [], ds 2, cx 2, chS [] { Chs.reset with ctx := [(31, cx 2)], seq := eq0 }, by unfold chsRoom; decide⟩,
   ⟨63, 31, 5, 1, 1, [], ds 2, cx 2, chS [] { Chs.reset with ctx := [(31, cx 2)], seq := eq0 }, by unfold chsRoom; decide⟩,
   ⟨63, 31, 0, 0, 0, [], ds 3, cx 3, chS [] { Chs.reset with ctx := [(31, cx 3)], seq := eq0 }, by unfold chsRoom; decide⟩,
   ⟨63, 31, 0, 0, 0, [], chS [] { Chs.reset with ctx := [(31, cx 3)], want := [31] }, by decide⟩,
   ⟨63, 31, ds 1, cx 1, chS [] { Chs.reset with ctx := [(31, cx 1)] }, by unfold chsRoom; decide⟩,
   ⟨63, 31, ds 1, ds 3, cx 1, cx 3, chS [] { Chs.reset with ctx := [(31, cx 1)], slot := [(31, cx 3)] }, by decide⟩,
   ⟨63, 31, { cx 3 with vis := true }, asS { Chs.reset with ctx := [(31, { cx 3 with vis := true })] }, by unfold chsRoom; decide⟩,
   ⟨63, 31, { asS Chs.reset with dsc := { Dsc.reset with run := [(2047, [{ rop with urgent := true }])] } }, by decide⟩,
   ⟨63, 31, { cx 3 with commit := true }, asS { Chs.reset with ctx := [(31, { cx 3 with commit := true })] }, by decide⟩,
   ⟨63, 31, cx 3, { asS { Chs.reset with slot := [(31, cx 3)] } with dsc := { Dsc.reset with back := [32 * 63 + 31], susp := [(32 * 63 + 31, ([{ rop with kind := 2, host := none, call := some 4 }], 0))] }, ump := { Ump.reset with calls := [(4, { call0 with granted := true })] } }, by unfold chsRoom; decide⟩,
   ⟨63, 31, chS [] { Chs.reset with ovr := [ent 3] }, by decide⟩,
   ⟨63, 31, { up with sgd := { up.sgd with pfail := true } }, by decide⟩,
   ⟨63, 31, 7, cx 3, chS [] { Chs.reset with ctx := [(31, cx 3)], bus := some 31 }, by decide⟩,
   ⟨63, 31, 7, cx 3, chS [] { Chs.reset with ctx := [(31, cx 3)] }, by decide⟩,
   ⟨63, 31, cx 3, chS [] { Chs.reset with ctx := [(31, cx 3)], want := [31] }, by decide⟩,
   ⟨63, 31, ds 3, cx 3, { chS [] { Chs.reset with ctx := [(31, cx 3)], want := [31] } with sgd := { Sgd.reset with pfail := true } }, by unfold chsRoom; decide⟩,
   ⟨63, chS [] { Chs.reset with bus := some 3 }, by decide⟩,
   ⟨63, chS [] { Chs.reset with ctx := [(31, cx 0x80)], bus := some 31 }, by decide⟩,
   ⟨63, ent 2, [], cltW, by decide⟩,
   ⟨63, 9, 0, ent 1, [], rop, cltS, by decide⟩,
   ⟨up, fun _ => rfl⟩,
   ⟨63, 9, true, chS [] { Chs.reset with ctx := [(31, cx 3)] }, by decide⟩,
   ⟨63, put [(Fld.CHS_SCRUB_NEXT 63, 9), (Fld.CHS_SCRUB_PASSES 63, 65535)] up, by decide⟩,
   ⟨.pair 0, 63, 0, chS [] { q2 [ds 2] with ctx := [(31, cx 3)], slot := [(4, cx 2)], want := [31] }, by decide⟩,
   ⟨.pair 0, 63, put [(Fld.CHS_CTRL_RESET 63, 1)] up, by decide⟩,
   ⟨63, 31, 4096, cx 0x80, chS [] { Chs.reset with ctx := [(31, cx 0x80)] }, by decide⟩⟩

end Sys2Proof.Tests.W17

namespace Sys2Proof.Tests.W18
set_option linter.all false
open Sys2Proof Sys2Proof.Machine

def off : Machine.State := { State.reset with sgd := { Sgd.reset with pgood := true, pwrEn := true } }
def pf (st : Nat) (b : Nat) : Machine.State := put [(Fld.CLS_STATUS_BLOCK_AON, b)] { up with sgd := { up.sgd with pfail := true, step := st, sgFail := true, cause := 1 }, zne := { Zne.reset with stg := [(16, { nsid := 49, unit := 0, slice := 3, seq := 1, blocks := [5], tgt := ⟨1, 0⟩, since := 0 })] } }
def opn : Machine.State := put [(Fld.DGE_LATCH_BOOT_OPEN, 1)] up
def tsL (x : Option Int) : List (Option Int) := List.replicate 19 none ++ [x]

/-- States that meet the hypotheses of ResetsFlushesFusesAndSensors, clause by clause. -/
theorem witness_ResetsFlushesFusesAndSensors :
    (∃ (s : Machine.State), s.sgd.pgood = true ∧ s.sgd.pwrEn = true ∧ s.sgd.released = false ∧ s.bot.ball = false ∧ s.cls.dead = false) ∧
    (∃ (s : Machine.State), s.sgd.pgood = true ∧ s.sgd.pwrEn = true ∧ s.sgd.released = false ∧ s.bot.ball = false ∧ s.cls.dead = false ∧ s.part.recoverN = true) ∧
    (∃ (s : Machine.State), s.bot.ball = true) ∧
    (∃ (s : Machine.State), s.sgd.pfail = true ∧ s.sgd.step < 7) ∧
    (∃ (s : Machine.State), s.sgd.pfail = false) ∧
    (∃ (s : Machine.State), s.sgd.pfail = true ∧ s.sgd.step = 7 ∧ s.sgd.sgFail = true ∧ fone s Fld.CLS_STATUS_BLOCK_AON = false) ∧
    (∃ (s : Machine.State), s.sgd.pfail = true ∧ s.sgd.step = 7 ∧ s.sgd.sgFail = true ∧ fone s Fld.CLS_STATUS_BLOCK_AON = true) ∧
    (∃ (s : Machine.State), s.sgd.step ≠ 7) ∧
    (∃ (s : Machine.State), s.sgd.released = true ∧ s.sgd.pfail = false) ∧
    (∃ (s : Machine.State), s.sgd.sgFail = true ∧ s.sgd.pfail = true) ∧
    (∃ (a : Nat) (b : Nat) (s : Machine.State), s.bot.want = some (a, b) ∧ s.sgd.released = false ∧ s.sgd.pfail = false ∧ s.sgd.pwrEn = true) ∧
    (∃ (s : Machine.State), s.bot.want = none) ∧
    (∃ (m : Master) (q : Nat) (s : Machine.State), decideWrite s (whoOf s m) Reg.BOT_CTRL = .admitted q ∧ s.sgd.released = true ∧ s.sgd.pfail = false ∧ fone s Fld.BOT_CTRL_RESET_WARM = false) ∧
    (∃ (m : Master) (s : Machine.State), (s.sgd.pfail = true ∨ fone s Fld.BOT_CTRL_RESET_WARM = true)) ∧
    (∃ (m : Master) (q : Nat) (s : Machine.State), decideWrite s (whoOf s m) Reg.BOT_CTRL = .admitted q ∧ s.sgd.released = true ∧ s.sgd.pfail = false ∧ fone s Fld.BOT_CTRL_FALLBACK = false) ∧
    (∃ (m : Master) (q : Nat) (s : Machine.State), decideWrite s (whoOf s m) Reg.BOT_CTRL = .admitted q ∧ fone s Fld.BOT_CTRL_FALLBACK = false) ∧
    (∃ (m : Master) (s : Machine.State), fone s Fld.BOT_CTRL_FALLBACK = true) ∧
    (∃ (m : Master) (q : Nat) (v : Word) (s : Machine.State), decideWrite s (whoOf s m) Reg.BOT_FUSE_ADV = .admitted q ∧ fone s Fld.DGE_LATCH_BOOT_OPEN = true ∧ bit v.toNat 16 = true ∧ bits v.toNat 0 2 < 3 ∧ ctrOf s (bits v.toNat 0 2) < bits v.toNat 2 9 ∧ bits v.toNat 0 2 ∉ s.part.fuseBad) ∧
    (∃ (m : Master) (q : Nat) (v : Word) (s : Machine.State), decideWrite s (whoOf s m) Reg.BOT_FUSE_ADV = .admitted q ∧ bits v.toNat 0 2 < 3 ∧ bits v.toNat 2 9 ≤ ctrOf s (bits v.toNat 0 2)) ∧
    (∃ (m : Master) (q : Nat) (v : Word) (s : Machine.State), decideWrite s (whoOf s m) Reg.BOT_FUSE_ADV = .admitted q ∧ fone s Fld.DGE_LATCH_BOOT_OPEN = true ∧ bit v.toNat 16 = true ∧ bits v.toNat 0 2 = 3) ∧
    (∃ (m : Master) (v : Word) (s : Machine.State), fone s Fld.DGE_LATCH_BOOT_OPEN = false) ∧
    (∃ (l : List (Option Int)) (k : Nat) (c : Int) (s : Machine.State), fone s Fld.TSN_CTRL_EN = true ∧ k < 20 ∧ l.getD k none = some c ∧ -40 ≤ c ∧ c ≤ 150) ∧
    (∃ (l : List (Option Int)) (k : Nat) (c : Int) (s : Machine.State), fone s Fld.TSN_CTRL_EN = true ∧ k < 20 ∧ l.getD k none = some c ∧ (c < -40 ∨ 150 < c)) ∧
    (∃ (l : List (Option Int)) (s : Machine.State), fone s Fld.TSN_CTRL_EN = false) ∧
    (∃ (a : Nat) (s : Machine.State), s.tsn.above = some a) ∧
    (∃ (s : Machine.State), s.tsn.above = none) :=
  ⟨⟨off, by decide⟩,
   ⟨{ off with part := { Part.reset with recoverN := true } }, by decide⟩,
   ⟨{ off with bot := { Bot.reset with ball := true } }, by decide⟩,
   ⟨pf 6 0, by decide⟩,
   ⟨up, by decide⟩,
   ⟨pf 7 0, by decide⟩,
   ⟨pf 7 1, by decide⟩,
   ⟨pf 6 0, by decide⟩,
   ⟨up, by decide⟩,
   ⟨pf 3 0, by decide⟩,
   ⟨2, 8, { off with bot := { Bot.reset with want := some (2, 8), ball := true } }, by decide⟩,
   ⟨{ up with bot := { up.bot with ball := true } }, by decide⟩,
   ⟨.pair 0, 0, up, by decide⟩,
   ⟨.pair 0, pf 3 0, .inl (by decide)⟩,
   ⟨.pair 0, 0, up, by decide⟩,
   ⟨.pair 0, 0, put [(Fld.BOT_STATE_SLOT, 1)] (pf 3 0), by decide⟩,
   ⟨.pair 0, put [(Fld.BOT_CTRL_FALLBACK, 1)] up, by decide⟩,
   ⟨.pair 0, 0, BitVec.ofNat 32 (65536 + 511 * 4 + 2), opn, by decide⟩,
   ⟨.pair 0, 0, BitVec.ofNat 32 (65536 + 1 * 4), { opn with bot := { opn.bot with ctr := [(0, 1)] } }, by decide⟩,
   ⟨.pair 0, 0, BitVec.ofNat 32 (65536 + 9 * 4 + 3), opn, by decide⟩,
   ⟨.pair 0, 0xFFFFFFFF, put [(Fld.DGE_LATCH_BOOT_OPEN, 0)] up, by decide⟩,
   ⟨tsL (some (-40)), 19, -40, put [(Fld.TSN_CTRL_EN, 1)] up, by decide⟩,
   ⟨tsL (some 151), 19, 151, put [(Fld.TSN_CTRL_EN, 1)] up, by decide⟩,
   ⟨tsL none, put [(Fld.TSN_CTRL_EN, 0)] up, by decide⟩,
   ⟨5, { up with tsn := { Tsn.reset with above := some 5 } }, by decide⟩,
   ⟨up, by decide⟩⟩

end Sys2Proof.Tests.W18
end

/-! SUPPORT. The frame of every command, by the table `mayChange`: what a step leaves unchanged (R3, R16). -/
namespace Sys2Proof
open Sys2Proof.Machine

/-- The place of a piece among the fields of State, as the frame lemmas count them. -/
def Piece.bit : Piece → Nat
  | .regs => 1 | .latch => 2 | .sel => 3 | .fab => 4 | .tmb => 5 | .acm => 6 | .spdm => 7 | .svc => 8 | .mbx => 9 | .lkt => 10
  | .hst => 11 | .slm => 12 | .zne => 13 | .plc => 14 | .dsc => 15 | .med => 16 | .flash => 17 | .bpm => 18 | .dmc => 19 | .ump => 20
  | .sgd => 21 | .kst => 22 | .dge => 23 | .sgn => 24 | .cls => 25 | .bot => 26 | .age => 27 | .tsn => 28 | .free => 29

theorem Piece.bit_injective : Function.Injective Piece.bit := fun p q => by
  cases p <;> cases q <;> decide

/-- Neither the part (bit 0) nor the queue (bit 30) is a piece. -/
theorem Piece.bit_range (p : Piece) : 1 ≤ p.bit ∧ p.bit ≤ 29 := by
  cases p <;> decide

/-- A list of pieces as the number by which the frame lemmas name a set of fields. -/
def pieceMask : List Piece → Nat
  | [] => 0
  | p :: l => 2 ^ p.bit ||| pieceMask l

theorem pieceMask_testBit {l : List Piece} {i : Nat} (h : ∀ p ∈ l, p.bit ≠ i) : (pieceMask l).testBit i = false := by
  induction l with
  | nil => exact Nat.zero_testBit i
  | cons p l ih =>
    rw [pieceMask, Nat.testBit_or, Nat.testBit_two_pow_of_ne (h p (List.mem_cons_self ..)),
      ih fun q hq => h q (List.mem_cons_of_mem _ hq), Bool.or_false]

/-- A field whose bit the frame does not name is the same piece. -/
theorem Piece.same_of_testBit {m : Nat} {s t : State} (h : Same m s t) : (p : Piece) → m.testBit p.bit = false → p.same s t
  | .regs, b => h.regs b
  | .latch, b => h.latch b
  | .sel, b => h.sel b
  | .fab, b => h.fab b
  | .tmb, b => h.tmb b
  | .acm, b => h.acm b
  | .spdm, b => h.spdm b
  | .svc, b => h.svc b
  | .mbx, b => h.mbx b
  | .lkt, b => h.lkt b
  | .hst, b => h.hst b
  | .slm, b => h.slm b
  | .zne, b => h.zne b
  | .plc, b => h.plc b
  | .dsc, b => h.dsc b
  | .med, b => h.med b
  | .flash, b => h.flash b
  | .bpm, b => h.bpm b
  | .dmc, b => h.dmc b
  | .ump, b => h.ump b
  | .sgd, b => h.sgd b
  | .kst, b => h.kst b
  | .dge, b => h.dge b
  | .sgn, b => h.sgn b
  | .cls, b => h.cls b
  | .bot, b => h.bot b
  | .age, b => h.age b
  | .tsn, b => h.tsn b
  | .free, b => h.free b

/-- What changes only the pieces of `l` keeps everything else, the part and the queue. -/
theorem Keeps.of_same {l : List Piece} {s t : State} (h : Same (pieceMask l) s t) : Keeps l s t := by
  refine ⟨h.part ?_, h.pending ?_, fun p hp => Piece.same_of_testBit h p ?_⟩
  · exact pieceMask_testBit fun q _ e => by have := q.bit_range; omega
  · exact pieceMask_testBit fun q _ e => by have := q.bit_range; omega
  · exact pieceMask_testBit fun q hq e => hp (Piece.bit_injective e ▸ hq)

/-- A command changes only the pieces that `mayChange` names for it, keeps the register file canonical, and does not turn device time
back: its meaning's own frame, whose mask is the table's list. -/
theorem exec_frame (c : Instr) (s : State) : SameT (pieceMask (mayChange c)) s (exec c s) :=
  match c with
  | .registerWrite m a v n => execRegisterWrite_frame m a v n s (Nat.and_self _) (.refl _ s)
  | .latchedLoRead m a n => execLatchedLoRead_frame m a n s (Nat.and_self _) (.refl _ s)
  | .acmLock m => execAcmLock_frame m s (Nat.and_self _) (.refl _ s)
  | .adminSqTailDoorbell p v => execAdminSqTailDoorbell_frame p v s (Nat.and_self _) (.refl _ s)
  | .adminCqHeadDoorbell p v => execAdminCqHeadDoorbell_frame p v s (Nat.and_self _) (.refl _ s)
  | .bar0DoorbellInvalid p off => execBar0DoorbellInvalid_frame p off s (Nat.and_self _) (.refl _ s)
  | .sqTailDoorbell p page q v pasid => execSqTailDoorbell_frame p page q v pasid s (Nat.and_self _) (.refl _ s)
  | .cqHeadDoorbell p page q v pasid => execCqHeadDoorbell_frame p page q v pasid s (Nat.and_self _) (.refl _ s)
  | .sqeFetch p q cid opc nsid slba => execSqeFetch_frame p q cid opc nsid slba s (Nat.and_self _) (.refl _ s)
  | .placementDecision x => execPlacementDecision_frame x s (Nat.and_self _) (.refl _ s)
  | .xteEncrypt x u agree => execXteEncrypt_frame x u agree s (Nat.and_self _) (.refl _ s)
  | .xteDecrypt x u agree => execXteDecrypt_frame x u agree s (Nat.and_self _) (.refl _ s)
  | .stagingCopy x u => execStagingCopy_frame x u s (Nat.and_self _) (.refl _ s)
  | .completionPost x => execCompletionPost_frame x s (Nat.and_self _) (.refl _ s)
  | .stripeAssemble n => execStripeAssemble_frame n s (Nat.and_self _) (.refl _ s)
  | .stripeClose n => execStripeClose_frame n s (Nat.and_self _) (.refl _ s)
  | .foldStart zoned obj => execFoldStart_frame zoned obj s (Nat.and_self _) (.refl _ s)
  | .computeResetRelease => execComputeResetRelease_frame s (Nat.and_self _) (.refl _ s)
  | .dropout v => execDropout_frame v s (Nat.and_self _) (.refl _ s)
  | .emergencyFlushDone => execEmergencyFlushDone_frame s (Nat.and_self _) (.refl _ s)
  | .emergencyIndexProgrammed => execEmergencyIndexProgrammed_frame s (Nat.and_self _) (.refl _ s)
  | .lockstepMismatch p => execLockstepMismatch_frame p s (Nat.and_self _) (.refl _ s)
  | .coreWatchdogExpiry p => execCoreWatchdogExpiry_frame p s (Nat.and_self _) (.refl _ s)
  | .tcmUe p => execTcmUe_frame p s (Nat.and_self _) (.refl _ s)
  | .spareTakeover => execSpareTakeover_frame s (Nat.and_self _) (.refl _ s)
  | .timeCeilingStore => execTimeCeilingStore_frame s (Nat.and_self _) (.refl _ s)
  | .timeCeilingHold => execTimeCeilingHold_frame s (Nat.and_self _) (.refl _ s)
  | .crystalStop => execCrystalStop_frame s (Nat.and_self _) (.refl _ s)
  | .crystalReturn => execCrystalReturn_frame s (Nat.and_self _) (.refl _ s)
  | .claspPowerUp vin bank => execClaspPowerUp_frame vin bank s (Nat.and_self _) (.refl _ s)
  | .spdmGetVersion t => execSpdmGetVersion_frame t s (Nat.and_self _) (.refl _ s)
  | .spdmGetCapabilities t => execSpdmGetCapabilities_frame t s (Nat.and_self _) (.refl _ s)
  | .spdmNegotiateAlgorithms t offered => execSpdmNegotiateAlgorithms_frame t offered s (Nat.and_self _) (.refl _ s)
  | .spdmGetDigests t => execSpdmGetDigests_frame t s (Nat.and_self _) (.refl _ s)
  | .spdmGetCertificate t slot off len => execSpdmGetCertificate_frame t slot off len s (Nat.and_self _) (.refl _ s)
  | .spdmChallenge t slot nonce => execSpdmChallenge_frame t slot nonce s (Nat.and_self _) (.refl _ s)
  | .spdmGetMeasurements t slot nonce => execSpdmGetMeasurements_frame t slot nonce s (Nat.and_self _) (.refl _ s)
  | .spdmKeyExchange t slot both hb => execSpdmKeyExchange_frame t slot both hb s (Nat.and_self _) (.refl _ s)
  | .spdmFinish t id root ok => execSpdmFinish_frame t id root ok s (Nat.and_self _) (.refl _ s)
  | .spdmHeartbeat id => execSpdmHeartbeat_frame id s (Nat.and_self _) (.refl _ s)
  | .spdmKeyUpdate id => execSpdmKeyUpdate_frame id s (Nat.and_self _) (.refl _ s)
  | .spdmEndSession id => execSpdmEndSession_frame id s (Nat.and_self _) (.refl _ s)
  | .spdmUnsupportedRequest t code => execSpdmUnsupportedRequest_frame t code s (Nat.and_self _) (.refl _ s)
  | .sessionHeartbeatTimeout id => execSessionHeartbeatTimeout_frame id s (Nat.and_self _) (.refl _ s)
  | .cardDrainEnd id => execCardDrainEnd_frame id s (Nat.and_self _) (.refl _ s)
  | .cardRelease r => execCardRelease_frame r s (Nat.and_self _) (.refl _ s)
  | .cardList r => execCardList_frame r s (Nat.and_self _) (.refl _ s)
  | .acmCardQuery m v => execAcmCardQuery_frame m v s (Nat.and_self _) (.refl _ s)
  | .svcIdcode => execSvcIdcode_frame s (Nat.and_self _) (.refl _ s)
  | .svcBypass ins => execSvcBypass_frame ins s (Nat.and_self _) (.refl _ s)
  | .svcChallenge => execSvcChallenge_frame s (Nat.and_self _) (.refl _ s)
  | .svcResponse sig => execSvcResponse_frame sig s (Nat.and_self _) (.refl _ s)
  | .svcChallengeExpiry => execSvcChallengeExpiry_frame s (Nat.and_self _) (.refl _ s)
  | .svcBoundaryScan ins => execSvcBoundaryScan_frame ins s (Nat.and_self _) (.refl _ s)
  | .mailboxLateWrite ch off bytes => execMailboxLateWrite_frame ch off bytes s (Nat.and_self _) (.refl _ s)
  | .mailboxUnknownOpcode opc r => execMailboxUnknownOpcode_frame opc r s (Nat.and_self _) (.refl _ s)
  | .volleyTimeout ch => execVolleyTimeout_frame ch s (Nat.and_self _) (.refl _ s)
  | .mctpSetEndpointId eid => execMctpSetEndpointId_frame eid s (Nat.and_self _) (.refl _ s)
  | .mctpGetEndpointId => execMctpGetEndpointId_frame s (Nat.and_self _) (.refl _ s)
  | .mctpGetVersionSupport => execMctpGetVersionSupport_frame s (Nat.and_self _) (.refl _ s)
  | .mctpGetMessageTypeSupport => execMctpGetMessageTypeSupport_frame s (Nat.and_self _) (.refl _ s)
  | .nvmeMiReadDataStructure dtyp port => execNvmeMiReadDataStructure_frame dtyp port s (Nat.and_self _) (.refl _ s)
  | .nvmeMiSubsystemHealthPoll => execNvmeMiSubsystemHealthPoll_frame s (Nat.and_self _) (.refl _ s)
  | .nvmeMiControllerHealthPoll first count => execNvmeMiControllerHealthPoll_frame first count s (Nat.and_self _) (.refl _ s)
  | .mctpDroppedType ty => execMctpDroppedType_frame ty s (Nat.and_self _) (.refl _ s)
  | .smbusPecError => execSmbusPecError_frame s (Nat.and_self _) (.refl _ s)
  | .nvmeMiBasicRead => execNvmeMiBasicRead_frame s (Nat.and_self _) (.refl _ s)
  | .sidebandBusReset => execSidebandBusReset_frame s (Nat.and_self _) (.refl _ s)
  | .doeDiscovery p idx => execDoeDiscovery_frame p idx s (Nat.and_self _) (.refl _ s)
  | .doeInvalidObject p vid ty => execDoeInvalidObject_frame p vid ty s (Nat.and_self _) (.refl _ s)
  | .getIdentity r => execGetIdentity_frame r s (Nat.and_self _) (.refl _ s)
  | .getCaps r => execGetCaps_frame r s (Nat.and_self _) (.refl _ s)
  | .getOpcodes r => execGetOpcodes_frame r s (Nat.and_self _) (.refl _ s)
  | .getSession r => execGetSession_frame r s (Nat.and_self _) (.refl _ s)
  | .getHealth r => execGetHealth_frame r s (Nat.and_self _) (.refl _ s)
  | .regRead r => execRegRead_frame r s (Nat.and_self _) (.refl _ s)
  | .regWrite r => execRegWrite_frame r s (Nat.and_self _) (.refl _ s)
  | .sliceCreate r => execSliceCreate_frame r s (Nat.and_self _) (.refl _ s)
  | .sliceDelete r => execSliceDelete_frame r s (Nat.and_self _) (.refl _ s)
  | .sliceBindPort r => execSliceBindPort_frame r s (Nat.and_self _) (.refl _ s)
  | .sliceUnbindPort r => execSliceUnbindPort_frame r s (Nat.and_self _) (.refl _ s)
  | .sliceSetShares r => execSliceSetShares_frame r s (Nat.and_self _) (.refl _ s)
  | .sliceReset r => execSliceReset_frame r s (Nat.and_self _) (.refl _ s)
  | .sliceQuery r => execSliceQuery_frame r s (Nat.and_self _) (.refl _ s)
  | .sliceBindChannel r => execSliceBindChannel_frame r s (Nat.and_self _) (.refl _ s)
  | .sliceUnbindChannel r => execSliceUnbindChannel_frame r s (Nat.and_self _) (.refl _ s)
  | .nsCreate r => execNsCreate_frame r s (Nat.and_self _) (.refl _ s)
  | .nsDelete r => execNsDelete_frame r s (Nat.and_self _) (.refl _ s)
  | .classRead r => execClassRead_frame r s (Nat.and_self _) (.refl _ s)
  | .classWrite r => execClassWrite_frame r s (Nat.and_self _) (.refl _ s)
  | .classMaskSet r => execClassMaskSet_frame r s (Nat.and_self _) (.refl _ s)
  | .placementStatus r => execPlacementStatus_frame r s (Nat.and_self _) (.refl _ s)
  | .umpStatus r => execUmpStatus_frame r s (Nat.and_self _) (.refl _ s)
  | .umpSetBudget r => execUmpSetBudget_frame r s (Nat.and_self _) (.refl _ s)
  | .umpSetPpLimit r => execUmpSetPpLimit_frame r s (Nat.and_self _) (.refl _ s)
  | .keyMapRead r => execKeyMapRead_frame r s (Nat.and_self _) (.refl _ s)
  | .keyGenerate r => execKeyGenerate_frame r s (Nat.and_self _) (.refl _ s)
  | .keyImport r => execKeyImport_frame r s (Nat.and_self _) (.refl _ s)
  | .keyBind r => execKeyBind_frame r s (Nat.and_self _) (.refl _ s)
  | .keyRewriteDrbg r => execKeyRewriteDrbg_frame r s (Nat.and_self _) (.refl _ s)
  | .keyRewriteImport r => execKeyRewriteImport_frame r s (Nat.and_self _) (.refl _ s)
  | .keyWriteWaitTimeout slot => execKeyWriteWaitTimeout_frame slot s (Nat.and_self _) (.refl _ s)
  | .keyZeroise r => execKeyZeroise_frame r s (Nat.and_self _) (.refl _ s)
  | .namespaceReleaseDone nsid => execNamespaceReleaseDone_frame nsid s (Nat.and_self _) (.refl _ s)
  | .nsCryptoErase r => execNsCryptoErase_frame r s (Nat.and_self _) (.refl _ s)
  | .cryptoEraseDrained nsid => execCryptoEraseDrained_frame nsid s (Nat.and_self _) (.refl _ s)
  | .mgrAnchorWrite r => execMgrAnchorWrite_frame r s (Nat.and_self _) (.refl _ s)
  | .ofcAnchorWrite r => execOfcAnchorWrite_frame r s (Nat.and_self _) (.refl _ s)
  | .signetInfo r => execSignetInfo_frame r s (Nat.and_self _) (.refl _ s)
  | .signetRead r => execSignetRead_frame r s (Nat.and_self _) (.refl _ s)
  | .signetChain r => execSignetChain_frame r s (Nat.and_self _) (.refl _ s)
  | .locketInfo r => execLocketInfo_frame r s (Nat.and_self _) (.refl _ s)
  | .locketRead r => execLocketRead_frame r s (Nat.and_self _) (.refl _ s)
  | .locketFreeze r => execLocketFreeze_frame r s (Nat.and_self _) (.refl _ s)
  | .locketThaw r => execLocketThaw_frame r s (Nat.and_self _) (.refl _ s)
  | .fwSlotInfo r => execFwSlotInfo_frame r s (Nat.and_self _) (.refl _ s)
  | .fwDownload r => execFwDownload_frame r s (Nat.and_self _) (.refl _ s)
  | .fwCommitStore r => execFwCommitStore_frame r s (Nat.and_self _) (.refl _ s)
  | .fwCommitStoreActivate r => execFwCommitStoreActivate_frame r s (Nat.and_self _) (.refl _ s)
  | .fwCommitActivate r => execFwCommitActivate_frame r s (Nat.and_self _) (.refl _ s)
  | .fwInbandEnable r => execFwInbandEnable_frame r s (Nat.and_self _) (.refl _ s)
  | .ucodeLoad r => execUcodeLoad_frame r s (Nat.and_self _) (.refl _ s)
  | .settingsRead r => execSettingsRead_frame r s (Nat.and_self _) (.refl _ s)
  | .settingsWrite r => execSettingsWrite_frame r s (Nat.and_self _) (.refl _ s)
  | .ageSummary r => execAgeSummary_frame r s (Nat.and_self _) (.refl _ s)
  | .ageReport r => execAgeReport_frame r s (Nat.and_self _) (.refl _ s)
  | .agePlanNow r => execAgePlanNow_frame r s (Nat.and_self _) (.refl _ s)
  | .selftestStartShort r => execSelftestStartShort_frame r s (Nat.and_self _) (.refl _ s)
  | .selftestStartExtended r => execSelftestStartExtended_frame r s (Nat.and_self _) (.refl _ s)
  | .selftestStatus r => execSelftestStatus_frame r s (Nat.and_self _) (.refl _ s)
  | .selftestAbort r => execSelftestAbort_frame r s (Nat.and_self _) (.refl _ s)
  | .selftestEnd seg => execSelftestEnd_frame seg s (Nat.and_self _) (.refl _ s)
  | .diagCounters r => execDiagCounters_frame r s (Nat.and_self _) (.refl _ s)
  | .holdupTestStart r => execHoldupTestStart_frame r s (Nat.and_self _) (.refl _ s)
  | .holdupTestReport r => execHoldupTestReport_frame r s (Nat.and_self _) (.refl _ s)
  | .perstAssert p => execPerstAssert_frame p s (Nat.and_self _) (.refl _ s)
  | .dlDown p => execDlDown_frame p s (Nat.and_self _) (.refl _ s)
  | .hotReset p => execHotReset_frame p s (Nat.and_self _) (.refl _ s)
  | .functionLevelReset p => execFunctionLevelReset_frame p s (Nat.and_self _) (.refl _ s)
  | .linkTrained p speed width flit => execLinkTrained_frame p speed width flit s (Nat.and_self _) (.refl _ s)
  | .laneFailure p width => execLaneFailure_frame p width s (Nat.and_self _) (.refl _ s)
  | .linkSpeedDrop p speed => execLinkSpeedDrop_frame p speed s (Nat.and_self _) (.refl _ s)
  | .ccEnSet p asqs acqs => execCcEnSet_frame p asqs acqs s (Nat.and_self _) (.refl _ s)
  | .ccEnClear p => execCcEnClear_frame p s (Nat.and_self _) (.refl _ s)
  | .ccShnWrite p => execCcShnWrite_frame p s (Nat.and_self _) (.refl _ s)
  | .shutdownComplete p => execShutdownComplete_frame p s (Nat.and_self _) (.refl _ s)
  | .deleteIoSq c => execDeleteIoSq_frame c s (Nat.and_self _) (.refl _ s)
  | .sqDeletionDone p q => execSqDeletionDone_frame p q s (Nat.and_self _) (.refl _ s)
  | .createIoSq c => execCreateIoSq_frame c s (Nat.and_self _) (.refl _ s)
  | .deleteIoCq c => execDeleteIoCq_frame c s (Nat.and_self _) (.refl _ s)
  | .createIoCq c => execCreateIoCq_frame c s (Nat.and_self _) (.refl _ s)
  | .identify c => execIdentify_frame c s (Nat.and_self _) (.refl _ s)
  | .abort c => execAbort_frame c s (Nat.and_self _) (.refl _ s)
  | .getLogSmart c => execGetLogSmart_frame c s (Nat.and_self _) (.refl _ s)
  | .getLogErrorInfo c => execGetLogErrorInfo_frame c s (Nat.and_self _) (.refl _ s)
  | .getLogFirmwareSlot c => execGetLogFirmwareSlot_frame c s (Nat.and_self _) (.refl _ s)
  | .getLogSelfTest c => execGetLogSelfTest_frame c s (Nat.and_self _) (.refl _ s)
  | .getLogTelemetryCapture c => execGetLogTelemetryCapture_frame c s (Nat.and_self _) (.refl _ s)
  | .getLogTelemetryRead c => execGetLogTelemetryRead_frame c s (Nat.and_self _) (.refl _ s)
  | .getLogSliceBinding c => execGetLogSliceBinding_frame c s (Nat.and_self _) (.refl _ s)
  | .setFeaturesArbitration c => execSetFeaturesArbitration_frame c s (Nat.and_self _) (.refl _ s)
  | .setFeaturesPowerManagement c => execSetFeaturesPowerManagement_frame c s (Nat.and_self _) (.refl _ s)
  | .setFeaturesTemperatureThreshold c => execSetFeaturesTemperatureThreshold_frame c s (Nat.and_self _) (.refl _ s)
  | .setFeaturesNumberOfQueues c => execSetFeaturesNumberOfQueues_frame c s (Nat.and_self _) (.refl _ s)
  | .setFeaturesInterruptCoalescing c => execSetFeaturesInterruptCoalescing_frame c s (Nat.and_self _) (.refl _ s)
  | .setFeaturesInterruptVectorCfg c => execSetFeaturesInterruptVectorCfg_frame c s (Nat.and_self _) (.refl _ s)
  | .setFeaturesAsyncEventConfig c => execSetFeaturesAsyncEventConfig_frame c s (Nat.and_self _) (.refl _ s)
  | .setFeaturesApst c => execSetFeaturesApst_frame c s (Nat.and_self _) (.refl _ s)
  | .getFeatures c => execGetFeatures_frame c s (Nat.and_self _) (.refl _ s)
  | .asyncEventRequest c => execAsyncEventRequest_frame c s (Nat.and_self _) (.refl _ s)
  | .firmwareImageDownload c => execFirmwareImageDownload_frame c s (Nat.and_self _) (.refl _ s)
  | .firmwareCommitReplace c => execFirmwareCommitReplace_frame c s (Nat.and_self _) (.refl _ s)
  | .firmwareCommitReplaceActivate c => execFirmwareCommitReplaceActivate_frame c s (Nat.and_self _) (.refl _ s)
  | .firmwareCommitActivate c => execFirmwareCommitActivate_frame c s (Nat.and_self _) (.refl _ s)
  | .firmwareCommitImmediate c => execFirmwareCommitImmediate_frame c s (Nat.and_self _) (.refl _ s)
  | .deviceSelfTestShort c => execDeviceSelfTestShort_frame c s (Nat.and_self _) (.refl _ s)
  | .deviceSelfTestExtended c => execDeviceSelfTestExtended_frame c s (Nat.and_self _) (.refl _ s)
  | .deviceSelfTestAbort c => execDeviceSelfTestAbort_frame c s (Nat.and_self _) (.refl _ s)
  | .adminInvalidOpcode c => execAdminInvalidOpcode_frame c s (Nat.and_self _) (.refl _ s)
  | .ioInvalidOpcode c => execIoInvalidOpcode_frame c s (Nat.and_self _) (.refl _ s)
  | .nvmeWrite c => execNvmeWrite_frame c s (Nat.and_self _) (.refl _ s)
  | .descriptorRebuildDone z => execDescriptorRebuildDone_frame z s (Nat.and_self _) (.refl _ s)
  | .zoneAppend c => execZoneAppend_frame c s (Nat.and_self _) (.refl _ s)
  | .nvmeRead c => execNvmeRead_frame c s (Nat.and_self _) (.refl _ s)
  | .nvmeFlush c => execNvmeFlush_frame c s (Nat.and_self _) (.refl _ s)
  | .datasetManagement c => execDatasetManagement_frame c s (Nat.and_self _) (.refl _ s)
  | .zoneClose c => execZoneClose_frame c s (Nat.and_self _) (.refl _ s)
  | .zoneFinish c => execZoneFinish_frame c s (Nat.and_self _) (.refl _ s)
  | .zoneOpen c => execZoneOpen_frame c s (Nat.and_self _) (.refl _ s)
  | .zoneReset c => execZoneReset_frame c s (Nat.and_self _) (.refl _ s)
  | .zoneOffline c => execZoneOffline_frame c s (Nat.and_self _) (.refl _ s)
  | .zoneMgmtSendInvalid c => execZoneMgmtSendInvalid_frame c s (Nat.and_self _) (.refl _ s)
  | .zoneActionTakesEffect z => execZoneActionTakesEffect_frame z s (Nat.and_self _) (.refl _ s)
  | .reportZones c => execReportZones_frame c s (Nat.and_self _) (.refl _ s)
  | .extendedReportZones c => execExtendedReportZones_frame c s (Nat.and_self _) (.refl _ s)
  | .psEntry => execPsEntry_frame s (Nat.and_self _) (.refl _ s)
  | .maintenanceExcursion => execMaintenanceExcursion_frame s (Nat.and_self _) (.refl _ s)
  | .apstIdleTimer p => execApstIdleTimer_frame p s (Nat.and_self _) (.refl _ s)
  | .sliceResetComplete n => execSliceResetComplete_frame n s (Nat.and_self _) (.refl _ s)
  | .slmResetStart m v => execSlmResetStart_frame m v s (Nat.and_self _) (.refl _ s)
  | .slmShareStage m cap v => execSlmShareStage_frame m cap v s (Nat.and_self _) (.refl _ s)
  | .epochStart icc iccq => execEpochStart_frame icc iccq s (Nat.and_self _) (.refl _ s)
  | .stripePrepare key => execStripePrepare_frame key s (Nat.and_self _) (.refl _ s)
  | .groupScoreTick => execGroupScoreTick_frame s (Nat.and_self _) (.refl _ s)
  | .stripeIdlePad n => execStripeIdlePad_frame n s (Nat.and_self _) (.refl _ s)
  | .tailFlush z => execTailFlush_frame z s (Nat.and_self _) (.refl _ s)
  | .directPageProgram z => execDirectPageProgram_frame z s (Nat.and_self _) (.refl _ s)
  | .groupQuietEnter g => execGroupQuietEnter_frame g s (Nat.and_self _) (.refl _ s)
  | .groupQuietExit g => execGroupQuietExit_frame g s (Nat.and_self _) (.refl _ s)
  | .streamInactive key => execStreamInactive_frame key s (Nat.and_self _) (.refl _ s)
  | .plcGrpHoldWrite m ix v => execPlcGrpHoldWrite_frame m ix v s (Nat.and_self _) (.refl _ s)
  | .dedicatedGroupRelease g => execDedicatedGroupRelease_frame g s (Nat.and_self _) (.refl _ s)
  | .readServeChoice x u => execReadServeChoice_frame x u s (Nat.and_self _) (.refl _ s)
  | .reboundCombine id => execReboundCombine_frame id s (Nat.and_self _) (.refl _ s)
  | .dscIssue die => execDscIssue_frame die s (Nat.and_self _) (.refl _ s)
  | .backlogReport => execBacklogReport_frame s (Nat.and_self _) (.refl _ s)
  | .suspendWindowExpiry die => execSuspendWindowExpiry_frame die s (Nat.and_self _) (.refl _ s)
  | .dscPredBankSwitch m v => execDscPredBankSwitch_frame m v s (Nat.and_self _) (.refl _ s)
  | .dscLatClear m v => execDscLatClear_frame m v s (Nat.and_self _) (.refl _ s)
  | .ldpcDecode x u d => execLdpcDecode_frame x u d s (Nat.and_self _) (.refl _ s)
  | .collectionTrigger => execCollectionTrigger_frame s (Nat.and_self _) (.refl _ s)
  | .wearLevelTrigger g => execWearLevelTrigger_frame g s (Nat.and_self _) (.refl _ s)
  | .rebuildDone die => execRebuildDone_frame die s (Nat.and_self _) (.refl _ s)
  | .checkpointCycleEnd => execCheckpointCycleEnd_frame s (Nat.and_self _) (.refl _ s)
  | .journalBlockErase g b => execJournalBlockErase_frame g b s (Nat.and_self _) (.refl _ s)
  | .descRead ch q => execDescRead_frame ch q s (Nat.and_self _) (.refl _ s)
  | .descProgram ch => execDescProgram_frame ch s (Nat.and_self _) (.refl _ s)
  | .descJoinedProgram ch => execDescJoinedProgram_frame ch s (Nat.and_self _) (.refl _ s)
  | .descErase ch => execDescErase_frame ch s (Nat.and_self _) (.refl _ s)
  | .descReadStatus ch => execDescReadStatus_frame ch s (Nat.and_self _) (.refl _ s)
  | .descGetFeatures ch => execDescGetFeatures_frame ch s (Nat.and_self _) (.refl _ s)
  | .descSetFeatures ch => execDescSetFeatures_frame ch s (Nat.and_self _) (.refl _ s)
  | .descReadId ch => execDescReadId_frame ch s (Nat.and_self _) (.refl _ s)
  | .descReadParam ch => execDescReadParam_frame ch s (Nat.and_self _) (.refl _ s)
  | .descResetDie ch => execDescResetDie_frame ch s (Nat.and_self _) (.refl _ s)
  | .descZqCal ch => execDescZqCal_frame ch s (Nat.and_self _) (.refl _ s)
  | .descTrain ch => execDescTrain_frame ch s (Nat.and_self _) (.refl _ s)
  | .seqClose ch => execSeqClose_frame ch s (Nat.and_self _) (.refl _ s)
  | .descCustomer ch samples => execDescCustomer_frame ch samples s (Nat.and_self _) (.refl _ s)
  | .chsPost m ch v => execChsPost_frame m ch v s (Nat.and_self _) (.refl _ s)
  | .operationComplete ch die array dstat fails vals =>
    execOperationComplete_frame ch die array dstat fails vals s (Nat.and_self _) (.refl _ s)
  | .dieTimeout ch die => execDieTimeout_frame ch die s (Nat.and_self _) (.refl _ s)
  | .suspendTaken ch die => execSuspendTaken_frame ch die s (Nat.and_self _) (.refl _ s)
  | .resumeTaken ch die => execResumeTaken_frame ch die s (Nat.and_self _) (.refl _ s)
  | .yieldOverrun ch die a => execYieldOverrun_frame ch die a s (Nat.and_self _) (.refl _ s)
  | .busGrant ch => execBusGrant_frame ch s (Nat.and_self _) (.refl _ s)
  | .collectorTake => execCollectorTake_frame s (Nat.and_self _) (.refl _ s)
  | .controlStoreParity ch a scrub => execControlStoreParity_frame ch a scrub s (Nat.and_self _) (.refl _ s)
  | .csScrubPass ch => execCsScrubPass_frame ch s (Nat.and_self _) (.refl _ s)
  | .sequencerReset m ch => execSequencerReset_frame m ch s (Nat.and_self _) (.refl _ s)
  | .bufferAlloc id size acct cls nochain long => execBufferAlloc_frame id size acct cls nochain long s (Nat.and_self _) (.refl _ s)
  | .allocRetry ix => execAllocRetry_frame ix s (Nat.and_self _) (.refl _ s)
  | .bufferFree id h => execBufferFree_frame id h s (Nat.and_self _) (.refl _ s)
  | .bufferHandover id h dest => execBufferHandover_frame id h dest s (Nat.and_self _) (.refl _ s)
  | .bufferZeroed pool ix => execBufferZeroed_frame pool ix s (Nat.and_self _) (.refl _ s)
  | .leakAuditPass => execLeakAuditPass_frame s (Nat.and_self _) (.refl _ s)
  | .bpmMinClear m => execBpmMinClear_frame m s (Nat.and_self _) (.refl _ s)
  | .bpmQuotaWrite m k v => execBpmQuotaWrite_frame m k v s (Nat.and_self _) (.refl _ s)
  | .speedChangeRequest m v => execSpeedChangeRequest_frame m v s (Nat.and_self _) (.refl _ s)
  | .speedChangeDone => execSpeedChangeDone_frame s (Nat.and_self _) (.refl _ s)
  | .gatherOpen m v => execGatherOpen_frame m v s (Nat.and_self _) (.refl _ s)
  | .gatherStep pass => execGatherStep_frame pass s (Nat.and_self _) (.refl _ s)
  | .gatherClose m => execGatherClose_frame m s (Nat.and_self _) (.refl _ s)
  | .gatherTimeout => execGatherTimeout_frame s (Nat.and_self _) (.refl _ s)
  | .refreshDue rank => execRefreshDue_frame rank s (Nat.and_self _) (.refl _ s)
  | .panicAssert waited => execPanicAssert_frame waited s (Nat.and_self _) (.refl _ s)
  | .panicEnd => execPanicEnd_frame s (Nat.and_self _) (.refl _ s)
  | .mr4Poll rank band => execMr4Poll_frame rank band s (Nat.and_self _) (.refl _ s)
  | .dmcSelfRefresh m v => execDmcSelfRefresh_frame m v s (Nat.and_self _) (.refl _ s)
  | .dramScrubRead e => execDramScrubRead_frame e s (Nat.and_self _) (.refl _ s)
  | .sramScrubRead region off last e => execSramScrubRead_frame region off last e s (Nat.and_self _) (.refl _ s)
  | .injectorArm m v => execInjectorArm_frame m v s (Nat.and_self _) (.refl _ s)
  | .callRequest die => execCallRequest_frame die s (Nat.and_self _) (.refl _ s)
  | .callGrant n => execCallGrant_frame n s (Nat.and_self _) (.refl _ s)
  | .groupCall acct mode dies cls deadline => execGroupCall_frame acct mode dies cls deadline s (Nat.and_self _) (.refl _ s)
  | .callReturn n => execCallReturn_frame n s (Nat.and_self _) (.refl _ s)
  | .holBlock n => execHolBlock_frame n s (Nat.and_self _) (.refl _ s)
  | .floorHoldExpiry => execFloorHoldExpiry_frame s (Nat.and_self _) (.refl _ s)
  | .vrSettled mv => execVrSettled_frame mv s (Nat.and_self _) (.refl _ s)
  | .vrTimeout mv word => execVrTimeout_frame mv word s (Nat.and_self _) (.refl _ s)
  | .thermalStep => execThermalStep_frame s (Nat.and_self _) (.refl _ s)
  | .umpCostBankSwitch m v => execUmpCostBankSwitch_frame m v s (Nat.and_self _) (.refl _ s)
  | .sagEnter v => execSagEnter_frame v s (Nat.and_self _) (.refl _ s)
  | .brownOutEnter v => execBrownOutEnter_frame v s (Nat.and_self _) (.refl _ s)
  | .surgeEnter v => execSurgeEnter_frame v s (Nat.and_self _) (.refl _ s)
  | .surgeFilterExpiry => execSurgeFilterExpiry_frame s (Nat.and_self _) (.refl _ s)
  | .rippleEnter mv => execRippleEnter_frame mv s (Nat.and_self _) (.refl _ s)
  | .disturbanceClassEnd n v => execDisturbanceClassEnd_frame n v s (Nat.and_self _) (.refl _ s)
  | .bankBelowRecharge v => execBankBelowRecharge_frame v s (Nat.and_self _) (.refl _ s)
  | .bankAtTarget v => execBankAtTarget_frame v s (Nat.and_self _) (.refl _ s)
  | .chargeTimeout => execChargeTimeout_frame s (Nat.and_self _) (.refl _ s)
  | .bankOvervoltage v => execBankOvervoltage_frame v s (Nat.and_self _) (.refl _ s)
  | .dischargeTestDue => execDischargeTestDue_frame s (Nat.and_self _) (.refl _ s)
  | .dischargeTestBegin => execDischargeTestBegin_frame s (Nat.and_self _) (.refl _ s)
  | .testV1Sample v => execTestV1Sample_frame v s (Nat.and_self _) (.refl _ s)
  | .testV2Reached t => execTestV2Reached_frame t s (Nat.and_self _) (.refl _ s)
  | .testTimeout => execTestTimeout_frame s (Nat.and_self _) (.refl _ s)
  | .cellLossRetest => execCellLossRetest_frame s (Nat.and_self _) (.refl _ s)
  | .sgdTestStart m => execSgdTestStart_frame m s (Nat.and_self _) (.refl _ s)
  | .dirtyLimitRecompute => execDirtyLimitRecompute_frame s (Nat.and_self _) (.refl _ s)
  | .sgdFlushWWrite m v => execSgdFlushWWrite_frame m v s (Nat.and_self _) (.refl _ s)
  | .restartHoldEnd => execRestartHoldEnd_frame s (Nat.and_self _) (.refl _ s)
  | .bootWaitExpiry => execBootWaitExpiry_frame s (Nat.and_self _) (.refl _ s)
  | .computePgoodRise => execComputePgoodRise_frame s (Nat.and_self _) (.refl _ s)
  | .computePgoodFall => execComputePgoodFall_frame s (Nat.and_self _) (.refl _ s)
  | .pveGcmEncrypt p sess slot iv aad data bad => execPveGcmEncrypt_frame p sess slot iv aad data bad s (Nat.and_self _) (.refl _ s)
  | .pveGcmDecrypt p sess slot iv aad data bad => execPveGcmDecrypt_frame p sess slot iv aad data bad s (Nat.and_self _) (.refl _ s)
  | .pveKeyWrap p slot data bad => execPveKeyWrap_frame p slot data bad s (Nat.and_self _) (.refl _ s)
  | .pveKeyUnwrap p sess slot data bad => execPveKeyUnwrap_frame p sess slot data bad s (Nat.and_self _) (.refl _ s)
  | .pveCmac p sess slot data bad => execPveCmac_frame p sess slot data bad s (Nat.and_self _) (.refl _ s)
  | .drbgReseed health => execDrbgReseed_frame health s (Nat.and_self _) (.refl _ s)
  | .dgeSha384 p => execDgeSha384_frame p s (Nat.and_self _) (.refl _ s)
  | .dgeSha512 p => execDgeSha512_frame p s (Nat.and_self _) (.refl _ s)
  | .dgeHmacSha384 p => execDgeHmacSha384_frame p s (Nat.and_self _) (.refl _ s)
  | .dgeHmacSha512 p => execDgeHmacSha512_frame p s (Nat.and_self _) (.refl _ s)
  | .dgeHkdfExpand p => execDgeHkdfExpand_frame p s (Nat.and_self _) (.refl _ s)
  | .snoopArm m => execSnoopArm_frame m s (Nat.and_self _) (.refl _ s)
  | .snoopEnd m => execSnoopEnd_frame m s (Nat.and_self _) (.refl _ s)
  | .dgeUdsClose m => execDgeUdsClose_frame m s (Nat.and_self _) (.refl _ s)
  | .dgeBootClose m => execDgeBootClose_frame m s (Nat.and_self _) (.refl _ s)
  | .pkeSign p agree => execPkeSign_frame p agree s (Nat.and_self _) (.refl _ s)
  | .pkeVerify p => execPkeVerify_frame p s (Nat.and_self _) (.refl _ s)
  | .pkeEcdh p agree => execPkeEcdh_frame p agree s (Nat.and_self _) (.refl _ s)
  | .pkePubkey p => execPkePubkey_frame p s (Nat.and_self _) (.refl _ s)
  | .signetAppend m typ items settings reason state bad =>
    execSignetAppend_frame m typ items settings reason state bad s (Nat.and_self _) (.refl _ s)
  | .signetCommit => execSignetCommit_frame s (Nat.and_self _) (.refl _ s)
  | .signetCompaction => execSignetCompaction_frame s (Nat.and_self _) (.refl _ s)
  | .clsRead => execClsRead_frame s (Nat.and_self _) (.refl _ s)
  | .clsProgram => execClsProgram_frame s (Nat.and_self _) (.refl _ s)
  | .clsErase => execClsErase_frame s (Nat.and_self _) (.refl _ s)
  | .clsBlankCheck => execClsBlankCheck_frame s (Nat.and_self _) (.refl _ s)
  | .clsLock => execClsLock_frame s (Nat.and_self _) (.refl _ s)
  | .clsUnlock => execClsUnlock_frame s (Nat.and_self _) (.refl _ s)
  | .clsSetPassword => execClsSetPassword_frame s (Nat.and_self _) (.refl _ s)
  | .clsDescComplete ix k corr bad => execClsDescComplete_frame ix k corr bad s (Nat.and_self _) (.refl _ s)
  | .clsSlotRelease m v => execClsSlotRelease_frame m v s (Nat.and_self _) (.refl _ s)
  | .clsEraseSuspend => execClsEraseSuspend_frame s (Nat.and_self _) (.refl _ s)
  | .clsEraseResume => execClsEraseResume_frame s (Nat.and_self _) (.refl _ s)
  | .continuousRead m n errs => execContinuousRead_frame m n errs s (Nat.and_self _) (.refl _ s)
  | .continuousReadStop m => execContinuousReadStop_frame m s (Nat.and_self _) (.refl _ s)
  | .aonBlock => execAonBlock_frame s (Nat.and_self _) (.refl _ s)
  | .aonUnblock => execAonUnblock_frame s (Nat.and_self _) (.refl _ s)
  | .claspDieReset => execClaspDieReset_frame s (Nat.and_self _) (.refl _ s)
  | .coldReset => execColdReset_frame s (Nat.and_self _) (.refl _ s)
  | .coldResetBallRelease => execColdResetBallRelease_frame s (Nat.and_self _) (.refl _ s)
  | .warmReset m => execWarmReset_frame m s (Nat.and_self _) (.refl _ s)
  | .botFallback m => execBotFallback_frame m s (Nat.and_self _) (.refl _ s)
  | .fuseAdvance m v => execFuseAdvance_frame m v s (Nat.and_self _) (.refl _ s)
  | .ucodeControlStoreLoad m v => execUcodeControlStoreLoad_frame m v s (Nat.and_self _) (.refl _ s)
  | .slotWriteDone => execSlotWriteDone_frame s (Nat.and_self _) (.refl _ s)
  | .recoveryExit => execRecoveryExit_frame s (Nat.and_self _) (.refl _ s)
  | .rallyMeasure laps => execRallyMeasure_frame laps s (Nat.and_self _) (.refl _ s)
  | .planningRun probe => execPlanningRun_frame probe s (Nat.and_self _) (.refl _ s)
  | .dramRegather rank windows => execDramRegather_frame rank windows s (Nat.and_self _) (.refl _ s)
  | .locketPost p => execLocketPost_frame p s (Nat.and_self _) (.refl _ s)
  | .locketFlush => execLocketFlush_frame s (Nat.and_self _) (.refl _ s)
  | .locketFlushDone => execLocketFlushDone_frame s (Nat.and_self _) (.refl _ s)
  | .freezeTimeout => execFreezeTimeout_frame s (Nat.and_self _) (.refl _ s)
  | .tsnSample r => execTsnSample_frame r s (Nat.and_self _) (.refl _ s)
  | .thermalTrip => execThermalTrip_frame s (Nat.and_self _) (.refl _ s)
  | .perstDeassert p => execPerstDeassert_frame p s (Nat.and_self _) (.refl _ s)
  | .hostReadCompletionTimeout p => execHostReadCompletionTimeout_frame p s (Nat.and_self _) (.refl _ s)
  | .poisonedCompletion p => execPoisonedCompletion_frame p s (Nat.and_self _) (.refl _ s)
  | .ecrcCheckFail p => execEcrcCheckFail_frame p s (Nat.and_self _) (.refl _ s)
  | .linkRecovery p => execLinkRecovery_frame p s (Nat.and_self _) (.refl _ s)
  | .l0pWidthChange p width => execL0pWidthChange_frame p width s (Nat.and_self _) (.refl _ s)
  | .aspmL1Entry p => execAspmL1Entry_frame p s (Nat.and_self _) (.refl _ s)
  | .aspmL1Exit p => execAspmL1Exit_frame p s (Nat.and_self _) (.refl _ s)
  | .i3cDynamicAddressAssign a => execI3cDynamicAddressAssign_frame a s (Nat.and_self _) (.refl _ s)
  | .interruptCoalescingTimeout p v => execInterruptCoalescingTimeout_frame p v s (Nat.and_self _) (.refl _ s)
  | .mailboxPayloadWrite ch off bytes => execMailboxPayloadWrite_frame ch off bytes s (Nat.and_self _) (.refl _ s)
  | .customerRoutineOverrun ch die a => execCustomerRoutineOverrun_frame ch die a s (Nat.and_self _) (.refl _ s)

/-- The time of an empty queue changes device time, registers and DRAM alone. -/
theorem idle_same (s : State) : Same (pieceMask [.tmb, .regs, .dmc]) s (idle s) := idle_frame s (Nat.and_self _) (.refl _ s)

/-- What every step keeps, and the command it takes off the queue. -/
structure StepKept (s t : State) : Prop where
  canon : Canon s → Canon t
  part : t.part = s.part
  pending : t.pending = s.pending.tail
  time : now s ≤ now t

theorem step_nil {s : State} (h : s.pending = []) : step s = .next (idle s) := by
  rw [step, h]

theorem step_cons {c : Instr} {l : List Instr} {s : State} (h : s.pending = c :: l) : step s = exec c { s with pending := l } := by
  rw [step, h]

theorem step_keeps {s t : State} (h : step s = .next t) : StepKept s t := by
  cases hq : s.pending with
  | nil =>
    have e : idle s = t := Host.Outcome.next.inj ((step_nil hq).symm.trans h)
    have f : Same _ s t := e ▸ idle_same s
    obtain ⟨hpart, hpending, -⟩ := Keeps.of_same f
    exact ⟨f.canon, hpart, by rw [hpending, hq]; rfl, f.time⟩
  | cons c l =>
    have f := (exec_frame c { s with pending := l }).out t ((step_cons hq).symm.trans h)
    obtain ⟨hpart, hpending, -⟩ := Keeps.of_same f
    exact ⟨f.canon, hpart, by rw [hpending, hq]; rfl, f.time⟩

/-- Settles O5: `step_keeps`, from the frame of every command. -/
theorem everyStepKeepsCanon : Obligations.EveryStepKeepsCanon := by
  unfold Obligations.EveryStepKeepsCanon
  intro s t hs h
  have k := step_keeps h
  exact ⟨k.canon hs, k.part, k.pending⟩

/-- Settles O4: `exec_frame`, whose mask names the pieces of `mayChange`. -/
theorem framesOfAllCommands : Obligations.FramesOfAllCommands := by
  unfold Obligations.FramesOfAllCommands
  intro c s t h
  exact Keeps.of_same ((exec_frame c s).out t h)

end Sys2Proof

/-! SUPPORT. A register write by access codes alone: the fields of every register lie apart inside its word, so each field takes what its
own code gives (R16, R20). -/
namespace Sys2Proof
open Sys2Proof.Machine

/-- How many bits a field row has. -/
abbrev fieldWidth (f : FieldSpec) : Nat := f.hi - f.lo + 1

theorem lo_add_fieldWidth {f : FieldSpec} (h : f.lo ≤ f.hi) : f.lo + fieldWidth f = f.hi + 1 := by
  unfold fieldWidth; omega

/-- The fields lie inside the 32 bits of a register, and no two share a bit. -/
abbrev FieldsApart (l : List FieldSpec) : Prop :=
  (∀ f ∈ l, f.lo ≤ f.hi ∧ f.hi < 32) ∧ l.Pairwise fun f g => f.hi < g.lo ∨ g.hi < f.lo

/-- The register tables of all thirty blocks are of that form. -/
theorem blockRegs_fieldsApart : ∀ b < 30, ∀ r ∈ blockRegs b, FieldsApart r.fields := by
  decide +kernel

theorem blockOf_lt {a b : Nat} (h : blockOf a = some b) : b < 30 := by
  unfold blockOf at h
  split at h
  · cases h; omega
  · split at h <;> cases h; omega

theorem mem_of_findReg {l : List RegSpec} {a : Nat} {r : RegSpec} {k : Nat} (h : findReg l a = some (r, k)) : r ∈ l := by
  induction l with
  | nil => cases h
  | cons r' l ih =>
    unfold findReg at h
    split at h
    · split at h
      · cases h; exact List.mem_cons_self ..
      · exact List.mem_cons_of_mem _ (ih h)
    · exact List.mem_cons_of_mem _ (ih h)

theorem regAt_fieldsApart {a : Nat} {r : RegSpec} {k : Nat} (h : regAt a = some (r, k)) : FieldsApart r.fields := by
  unfold regAt at h
  split at h
  · next b hb => exact blockRegs_fieldsApart b (blockOf_lt hb) r (mem_of_findReg h)
  · cases h

/-- Filling in fields leaves the bits of a field apart from all of them. -/
theorem bits_foldl_setBits_apart (g : FieldSpec → Nat) (f : FieldSpec) (hf : f.lo ≤ f.hi) :
    ∀ (l : List FieldSpec) (w : Word), (∀ x ∈ l, x.lo ≤ x.hi ∧ x.hi < 32) → (∀ x ∈ l, f.hi < x.lo ∨ x.hi < f.lo) →
      bits (l.foldl (fun w x => setBits w x.lo (fieldWidth x) (g x)) w).toNat f.lo (fieldWidth f) = bits w.toNat f.lo (fieldWidth f)
  | [], _, _, _ => rfl
  | x :: l, w, hw, hd => by
    obtain ⟨⟨hxw, hxt⟩, hw⟩ := List.forall_mem_cons.1 hw
    obtain ⟨hx, hd⟩ := List.forall_mem_cons.1 hd
    have hfe := lo_add_fieldWidth hf
    have hxe := lo_add_fieldWidth hxw
    rw [List.foldl_cons, bits_foldl_setBits_apart g f hf l _ hw hd, bits_setBits_ne w (g x) (by omega) (by omega)]

/-- Filling in fields that lie apart gives each its own value. -/
theorem bits_foldl_setBits (g : FieldSpec → Nat) {f : FieldSpec} :
    ∀ (l : List FieldSpec) (w : Word), FieldsApart l → f ∈ l →
      bits (l.foldl (fun w x => setBits w x.lo (fieldWidth x) (g x)) w).toNat f.lo (fieldWidth f) = g f % 2 ^ fieldWidth f
  | x :: l, w, ⟨hw, hp⟩, hf => by
    obtain ⟨⟨hxw, hxt⟩, hl⟩ := List.forall_mem_cons.1 hw
    obtain ⟨hx, hp⟩ := List.pairwise_cons.1 hp
    have hxe := lo_add_fieldWidth hxw
    rw [List.foldl_cons]
    rcases List.mem_cons.1 hf with rfl | hf
    · rw [bits_foldl_setBits_apart g f hxw l _ hl hx, bits_setBits_self w (g f) (by omega)]
    · exact bits_foldl_setBits g l _ ⟨hl, hp⟩ hf

/-- What an access code gives fits the field. -/
theorem writeField_lt {old new w : Nat} (ho : old < 2 ^ w) (hn : new < 2 ^ w) (acc : Access) (locked : Bool) (rst : Nat) :
    writeField acc locked rst old new < 2 ^ w := by
  cases acc with
  | ro => exact ho
  | rw | wo | rws => exact hn
  | rw1c => exact Nat.and_lt_two_pow _ (Nat.xor_lt_two_pow (Nat.or_lt_two_pow ho hn) hn)
  | w1s => exact Nat.or_lt_two_pow ho hn
  | rwo => unfold writeField; dsimp only; split <;> assumption
  | rwl => unfold writeField; dsimp only; split <;> assumption

theorem bits_lt (v lo w : Nat) : bits v lo w < 2 ^ w := Nat.mod_lt _ (Nat.two_pow_pos w)

/-- A write gives every field what its access code gives of the old and the written bits. -/
theorem bits_regWriteWord {r : RegSpec} (hr : FieldsApart r.fields) (k : Nat) (locked : Bool) (old new : Word) {f : FieldSpec}
    (hf : f ∈ r.fields) : bits (regWriteWord r k locked old new).toNat f.lo (fieldWidth f) =
      writeField f.acc locked (fieldResetAt f k) (bits old.toNat f.lo (fieldWidth f)) (bits new.toNat f.lo (fieldWidth f)) :=
  (bits_foldl_setBits (fun x => writeField x.acc locked (fieldResetAt x k) (bits old.toNat x.lo (fieldWidth x))
      (bits new.toNat x.lo (fieldWidth x))) r.fields 0 hr hf).trans
    (Nat.mod_eq_of_lt (writeField_lt (bits_lt ..) (bits_lt ..) ..))

/-- A field row as `genWrite` takes it: one that starts an action keeps its bits. -/
def passive (f : FieldSpec) : FieldSpec := if f.acc = .w1s then { f with acc := .ro } else f

@[simp] theorem passive_lo (f : FieldSpec) : (passive f).lo = f.lo := by
  unfold passive; split <;> rfl

@[simp] theorem passive_hi (f : FieldSpec) : (passive f).hi = f.hi := by
  unfold passive; split <;> rfl

theorem passive_eq {f : FieldSpec} (h : f.acc ≠ .w1s) : passive f = f := if_neg h

theorem fieldsApart_map_passive {l : List FieldSpec} (h : FieldsApart l) : FieldsApart (l.map passive) := by
  obtain ⟨hw, hp⟩ := h
  exact ⟨by simpa using hw, by simpa [List.pairwise_map] using hp⟩

theorem genWrite_eq {a : Nat} {r : RegSpec} {k : Nat} (h : regAt a = some (r, k)) (s : State) (v : Word) :
    genWrite s a v = { s with
      regs := RegFile.set s.regs a
        (regWriteWord { r with fields := r.fields.map passive } k (isLocked s a) (RegFile.get s.regs a) v) } := by
  unfold genWrite
  rw [h]
  rfl

/-- A write by access codes gives every field that starts no action what its code gives. -/
theorem bits_genWrite {a : Nat} {r : RegSpec} {k : Nat} (h : regAt a = some (r, k)) (s : State) (v : Word) {f : FieldSpec}
    (hf : f ∈ r.fields) (hacc : f.acc ≠ .w1s) :
    bits (RegFile.get (genWrite s a v).regs a).toNat f.lo (fieldWidth f) =
      writeField f.acc (isLocked s a) (fieldResetAt f k) (bits (RegFile.get s.regs a).toNat f.lo (fieldWidth f))
        (bits v.toNat f.lo (fieldWidth f)) := by
  rw [genWrite_eq h, RegFile.get_set_self]
  exact bits_regWriteWord (fieldsApart_map_passive (regAt_fieldsApart h)) k _ _ v (List.mem_map.2 ⟨f, hf, passive_eq hacc⟩)

theorem genWrite_regs (s : State) (a : Nat) (v : Word) : RegsBut [a] s (genWrite s a v) := by
  unfold genWrite
  split
  · exact fun b hb => RegFile.get_set_ne _ _ (by simpa using hb)
  · exact regsBut_refl _ _

/-- The blocks whose registers have no effect of their own, SGN_APPEND aside. -/
def plainBlocks : List (Option Nat) := [some 3, some 18, some 21, some 26, some 27, some 28]

theorem foreign_of_plain {a : Nat} (h : blockOf a ∈ plainBlocks) (m : Master) : foreign m a = false := by
  have hp : pairOf a = none := by
    unfold pairOf
    simp only [plainBlocks, List.mem_cons, List.not_mem_nil, or_false] at h
    rcases h with h | h | h | h | h | h <;> simp [h]
  rw [foreign, hp]

/-- The registers that the SLN-7632 lacks lie in other blocks. -/
theorem absentReg_of_plain {a : Nat} (h : blockOf a ∈ plainBlocks) (s : State) : absentReg s a = false := by
  have hr : 0x40030000 ≤ a ∧ a < 0x40040000 ∨ 0x40120000 ≤ a ∧ a < 0x41000000 := by
    unfold blockOf at h
    split at h
    · simp only [plainBlocks, List.mem_cons, Option.some.injEq, List.not_mem_nil, or_false] at h
      omega
    · split at h <;> simp [plainBlocks] at h
  simp only [absentReg, Bool.and_eq_false_iff, Bool.or_eq_false_iff, decide_eq_false_iff_not]
  exact .inr (by unfold Reg.DSC_EST Reg.LDC_STEP Reg.UMP_DIE_TYPE; omega)

/-- An admitted write to a register of these blocks is a write by access codes alone. -/
theorem writeAt_of_plain {a : Nat} (hb : blockOf a ∈ plainBlocks) (ha : a ≠ Reg.SGN_APPEND) (hp : perMaster a = false) (s : State)
    (m : Master) (v : Word) : writeAt s m a v = genWrite s a v := by
  unfold writeAt
  rw [absentReg_of_plain hb, foreign_of_plain hb, hp]
  simp only [plainBlocks, List.mem_cons, List.not_mem_nil, or_false] at hb
  rcases hb with hb | hb | hb | hb | hb | hb <;> simp [hb, ha]

theorem unlatch_regs (s : State) (n a : Nat) : (unlatch s n a).regs = s.regs := by
  unfold unlatch
  split <;> rfl

theorem writeBy_admitted {s : State} {w : Who} {a n q : Nat} (h : decideWrite s w a n = .admitted q) (m : Master) (v : Word) :
    writeBy s m w a v n = ((ST_OK, 0, false), unlatch (writeAt s m a v) (masterNo m) a) := by
  rw [writeBy, h]

/-- Settles O7: the write is `genWrite`, whose fields lie apart. -/
theorem registerWriteByAccessCode : Obligations.RegisterWriteByAccessCode := by
  unfold Obligations.RegisterWriteByAccessCode
  intro m a v n s r k hr hw hb ha hp
  have hregs : (unlatch (writeAt s m a v) (masterNo m) a).regs = (genWrite s a v).regs := by
    rw [unlatch_regs, writeAt_of_plain hb ha hp]
  refine ⟨fabAnswer (unlatch (writeAt s m a v) (masterNo m) a) ST_OK 0 false, ?_, ⟨rfl, rfl, rfl⟩, ?_, fun f hf hacc => ?_⟩
  · show execRegisterWrite m a v n s = _
    rw [execRegisterWrite, writeBy_admitted hw]
  · exact regsBut_trans (genWrite_regs s a v) (regsBut_congr _ hregs)
  · rw [show (fabAnswer _ ST_OK 0 false).regs = _ from hregs]
    exact bits_genWrite hr s v hf hacc

end Sys2Proof

/-! SUPPORT. What passes while no command waits: device time, and the next burst of DRAM (R13, R60, R397). -/
namespace Sys2Proof
open Sys2Proof.Machine

theorem delaysRefresh_regs (s : State) (r : Nat) : (delaysRefresh s r).regs = s.regs :=
  (delaysRefresh_frame s r (Nat.and_self _) (.refl 524288 s)).regs rfl

theorem regsBut_delaysRefresh {l : List Nat} (rs : List Nat) {s t : State} (h : RegsBut l s t) :
    RegsBut l s (rs.foldl delaysRefresh t) := by
  induction rs generalizing t with
  | nil => exact h
  | cons r rs ih =>
    rw [List.foldl_cons]
    exact ih (regsBut_trans h (regsBut_congr l (delaysRefresh_regs t r)))

theorem owedIssue_regs (s : State) : RegsBut [(Fld.DMC_COUNT_COUNT 0).addr] s (owedIssue s) := by
  unfold owedIssue fadd
  exact regsBut_trans (regsBut_fset s (Fld.DMC_COUNT_COUNT 0) _) (regsBut_congr _ rfl)

theorem rtBurst_regs (s : State) (r : Nat) (rs : List Nat) : RegsBut [(Fld.DMC_COUNT_COUNT 0).addr] s (rtBurst s r rs) := by
  unfold rtBurst
  extract_lets _ u
  have hu : RegsBut [(Fld.DMC_COUNT_COUNT 0).addr] s u := regsBut_congr _ rfl
  split
  · exact regsBut_delaysRefresh _ (regsBut_trans hu (owedIssue_regs u))
  · exact hu

/-- A burst changes one register, the count of refreshes issued. -/
theorem burst_regs (s : State) : RegsBut [(Fld.DMC_COUNT_COUNT 0).addr] s (burst s) := by
  unfold burst
  split
  · exact regsBut_refl _ _
  · split
    · split
      · exact regsBut_congr _ rfl
      · exact rtBurst_regs _ _ _
    · exact rtBurst_regs _ _ _
    · exact regsBut_congr _ rfl
    · exact regsBut_refl _ _

/-- Without a request there is no burst. -/
theorem burst_of_empty {s : State} (hr : s.dmc.rt = []) (hn : s.dmc.nrm = []) : burst s = s := by
  simp [burst, hr, hn]

theorem now_burst (s : State) : now (burst s) = now s :=
  congrArg Tmb.time ((burst_frame s (Nat.and_self _) (.refl 524290 s)).tmb rfl)

theorem dmc_reach (s : State) (t : Nat) : (reach s t).dmc = s.dmc := (reach_frame s t (Nat.and_self _) (.refl 34 s)).dmc rfl

theorem reach_of_held {s : State} (h : fone s Fld.TMB_STATUS_HELD = true) (t : Nat) : reach s t = s := by
  simp [reach, h]

/-- Device time arrives where it is sent unless it is held. -/
theorem now_reach {s : State} {t : Nat} (hh : fone s Fld.TMB_STATUS_HELD = false) (hp : pulsesBlocked s = false) (ht : now s < t) :
    now (reach s t) = t := by
  have hle : ¬ t ≤ s.tmb.time := Nat.not_le.2 ht
  simp [reach, hh, hp, hle, now]

theorem idle_regs (s : State) : RegsBut [Fld.TMB_STATUS_HELD.addr, (Fld.DMC_COUNT_COUNT 0).addr] s (idle s) :=
  regsBut_trans (regsBut_mono (reach_regs s _) (List.forall_mem_singleton.2 (List.mem_cons_self ..)))
    (regsBut_mono (burst_regs _) (List.forall_mem_singleton.2 (List.mem_cons_of_mem _ (List.mem_cons_self ..))))

theorem idle_of_empty {s : State} (hr : s.dmc.rt = []) (hn : s.dmc.nrm = []) : idle s = reach s (now s + 1) :=
  burst_of_empty ((congrArg Dmc.rt (dmc_reach s _)).trans hr) ((congrArg Dmc.nrm (dmc_reach s _)).trans hn)

/-- Settles O1: the front command by the definition of `step`; with an empty queue, what `reach` and `burst` do. -/
theorem stepTakesTheFront : Obligations.StepTakesTheFront := by
  unfold Obligations.StepTakesTheFront
  refine ⟨fun _ _ _ => rfl, fun _ _ _ h => step_cons h, fun s h => ?_⟩
  have hk : Keeps [.tmb, .regs, .dmc] s (idle s) := Keeps.of_same (idle_same s)
  have ⟨_, hpending, _⟩ := hk
  refine ⟨idle s, step_nil h, hpending.trans h, hk, idle_regs s, fun hh hp => ?_, fun hh => ?_, fun hr hn => ?_⟩
  · exact (now_burst _).trans (now_reach hh hp (Nat.lt_succ_self _))
  · exact (now_burst _).trans (congrArg now (reach_of_held hh _))
  · rw [idle_of_empty hr hn]
    exact ⟨dmc_reach s _, reach_regs s _, fun hh => reach_of_held hh _⟩

end Sys2Proof

/-! SUPPORT. No command stops (R16, R110). Every arm of `exec` but four answers a next state outright; those four choose among next
states. -/
namespace Sys2Proof
open Sys2Proof.Machine

theorem NoStop.ite {c : Prop} [Decidable c] {a b : Out} (ha : NoStop a) (hb : NoStop b) : NoStop (if c then a else b) := by
  split <;> assumption

theorem postGeneral_noStop (opc : Nat) (r : Rq) (s : State) : NoStop (postGeneral opc r s) := by
  unfold postGeneral
  repeat' refine NoStop.ite ?_ ?_
  all_goals exact ⟨_, rfl⟩

theorem postSlices_noStop (opc : Nat) (r : Rq) (s : State) : NoStop (postSlices opc r s) := by
  unfold postSlices
  repeat' refine NoStop.ite ?_ ?_
  all_goals exact ⟨_, rfl⟩

theorem postPlacing_noStop (opc : Nat) (r : Rq) (s : State) : NoStop (postPlacing opc r s) := by
  unfold postPlacing
  repeat' refine NoStop.ite ?_ ?_
  all_goals exact ⟨_, rfl⟩

theorem postKeys_noStop (opc : Nat) (r : Rq) (s : State) : NoStop (postKeys opc r s) := by
  unfold postKeys
  repeat' refine NoStop.ite ?_ ?_
  all_goals exact ⟨_, rfl⟩

theorem postLedgers_noStop (opc : Nat) (r : Rq) (s : State) : NoStop (postLedgers opc r s) := by
  unfold postLedgers
  repeat' refine NoStop.ite ?_ ?_
  all_goals exact ⟨_, rfl⟩

theorem postImages_noStop (opc : Nat) (r : Rq) (s : State) : NoStop (postImages opc r s) := by
  unfold postImages
  repeat' refine NoStop.ite ?_ ?_
  all_goals exact ⟨_, rfl⟩

theorem postService_noStop (opc : Nat) (r : Rq) (s : State) : NoStop (postService opc r s) := by
  unfold postService
  repeat' refine NoStop.ite ?_ ?_
  all_goals exact ⟨_, rfl⟩

/-- The request of an opcode ends in a next state, whatever its group. -/
theorem postOp_noStop (opc : Nat) (r : Rq) (s : State) : NoStop (postOp opc r s) := by
  unfold postOp
  exact .ite ⟨_, rfl⟩ <| .ite (postGeneral_noStop ..) <| .ite (postSlices_noStop ..) <| .ite (postPlacing_noStop ..) <|
    .ite (postKeys_noStop ..) <| .ite (postLedgers_noStop ..) <| .ite (postImages_noStop ..) (postService_noStop ..)

theorem execMailboxPayloadWrite_noStop (ch : Fin 32) (off : Nat) (b : List Byte) (s : State) :
    NoStop (execMailboxPayloadWrite ch off b s) := by
  unfold execMailboxPayloadWrite
  exact .ite ⟨_, rfl⟩ (.ite (.ite ⟨_, rfl⟩ (postOp_noStop ..)) ⟨_, rfl⟩)

theorem execGatherTimeout_noStop (s : State) : NoStop (execGatherTimeout s) := by
  unfold execGatherTimeout
  split
  · exact .ite ⟨_, rfl⟩ ⟨_, rfl⟩
  · exact ⟨_, rfl⟩

theorem execCallGrant_noStop (n : Nat) (s : State) : NoStop (execCallGrant n s) := by
  unfold execCallGrant
  split <;> exact ⟨_, rfl⟩

theorem execAllocRetry_noStop (i : Nat) (s : State) : NoStop (execAllocRetry i s) := by
  unfold execAllocRetry
  split <;> exact ⟨_, rfl⟩

/-- Settles O3, by the arms of `exec`: the four that choose are named, every other is a next state by its definition. -/
theorem everyCommandCompletes : Obligations.EveryCommandCompletes := by
  unfold Obligations.EveryCommandCompletes
  intro c s
  cases c
  case mailboxPayloadWrite ch off b => exact execMailboxPayloadWrite_noStop ch off b s
  case gatherTimeout => exact execGatherTimeout_noStop s
  case callGrant n => exact execCallGrant_noStop n s
  case allocRetry i => exact execAllocRetry_noStop i s
  all_goals exact ⟨_, rfl⟩

/-- Settles O2: no register is listed after reset, so each reads its table's value. -/
theorem resetState : Obligations.ResetState := by
  unfold Obligations.ResetState
  exact ⟨fun _ => rfl, rfl, rfl, rfl, rfl, rfl, rfl, rfl, rfl, rfl, rfl, rfl⟩

end Sys2Proof

/-! SUPPORT. The lengths of byte strings, and how a request that fails a check of R110 is answered. -/
namespace Sys2Proof
open Sys2Proof.Machine

@[simp] theorem length_le_bytes (n v : Nat) : (le n v).length = n := by
  induction n generalizing v with
  | zero => rfl
  | succ n ih => simp [le, ih]

theorem length_flatMap_le_bytes (n : Nat) (l : List Nat) : (l.flatMap fun v => le n v).length = n * l.length := by
  induction l with
  | nil => rfl
  | cons v l ih => rw [List.flatMap_cons, List.length_append, length_le_bytes, ih, List.length_cons, Nat.mul_succ, Nat.add_comm]

@[simp] theorem length_zeros (n : Nat) : (zeros n).length = n := List.length_replicate

@[simp] theorem length_fit (n : Nat) (b : List Byte) : (fit n b).length = n := by
  simp only [fit, List.length_take, List.length_append, length_zeros]
  omega

@[simp] theorem length_ascii (n : Nat) (codes : List Nat) : (ascii n codes).length = n := by
  simp only [ascii, List.length_take, List.length_append, List.length_map, List.length_replicate]
  omega

theorem length_identityPay (s : State) : (identityPay s).length = 48 := by
  simp [identityPay, partName]

theorem length_capsPay (s : State) : (capsPay s).length = 40 := by
  simp [capsPay]

/-- GET_IDENTITY answers 48 bytes, whole or blinded (R121). -/
theorem length_getIdentity (c : Caller) (s : State) : (getIdentity c s).pay.length = 48 := by
  unfold getIdentity
  split <;> simp [ansOk, length_identityPay]

/-- GET_CAPS answers 40 bytes, whole or blinded (R121). -/
theorem length_getCaps (c : Caller) (s : State) : (getCaps c s).pay.length = 40 := by
  unfold getCaps
  split <;> simp [ansOk, length_capsPay]

/-- A list of opcodes fits one response: there are 63 (R120). -/
theorem length_getOpcodes (c : Caller) (s : State) : (getOpcodes c s).pay.length ≤ 4032 := by
  have h : ((catalogue.map (·.1)).filter fun o => opcAdmits s o c.cls).length ≤ 63 :=
    Nat.le_trans (List.length_filter_le _ _) (by decide)
  simp only [getOpcodes, ansOk, List.length_append, length_le_bytes, length_zeros, length_flatMap_le_bytes]
  omega

/-- GET_SESSION answers 20 bytes, in a session or not (R121). -/
theorem length_getSession (c : Caller) (s : State) : (getSession c s).pay.length = 20 := by
  unfold getSession
  split <;> simp [ansOk]

/-- A request that is taken before power-fail is served. -/
theorem mbxRun_of_posted {d : OpDef} {r : Rq} {s : State} (hp : (mbxPost s r d.opc).1 = true) (hf : pfail (mbxPost s r d.opc).2 = false) :
    mbxRun d r s = mbxServe d r (mbxPost s r d.opc).2 := by
  simp [mbxRun, hp, hf]

/-- A request without a session that steps 3 to 5 of R110 bar is answered with their status and no payload. -/
theorem mbxServe_barred_answer {d : OpDef} {r : Rq} {s : State} {st : Nat} (h0 : r.session = 0) (hl : r.plen ≤ 4064)
    (hr : r.plen = (chanGet s r.ch.val).rcvd)
    (ha : mbxAdmit s d.opc { ch := r.ch.val, cls := pathCls s r.ch.val, slice := chanSlice s r.ch.val, session := 0 } = st) (hst : st ≠ ST_OK) :
    answer (mbxServe d r s) r.ch.val = some (st, []) := by
  have hlen : ¬(4064 < r.plen ∨ r.plen ≠ (chanGet s r.ch.val).rcvd) := by simp [hl, ← hr]
  rw [mbxServe, if_neg hlen, if_pos h0, mbxBody, ha, if_pos hst]
  exact mbxReply_answer (.inl rfl)

/-- Outside recovery, an opcode that is not in the catalogue is barred at step 5 for a caller that is no slice (R110, R120). -/
theorem mbxAdmit_of_unknown {s : State} {opc : Nat} {c : Caller} (hc : c.slice = none) (hr : s.bot.recovery = false)
    (hk : opcKnown opc = false) : mbxAdmit s opc c = ST_BAD_OPCODE := by
  simp [mbxAdmit, sliceBar, hc, hr, hk]

/-- The opcode as which an unknown code runs. -/
def unknownOp (opc : Nat) : OpDef := opDef opc (fun _ => true) fun _ _ s => (ansSt ST_BAD_OPCODE, s)

theorem execMailboxUnknownOpcode_eq {opc : Nat} (ho : opc < 65536) (hk : opcKnown opc = false) (r : Rq) (s : State) :
    exec (.mailboxUnknownOpcode opc r) s = .next (mbxRun (unknownOp opc) r s) := by
  show execMailboxUnknownOpcode opc r s = _
  simp [execMailboxUnknownOpcode, Nat.mod_eq_of_lt ho, hk, unknownOp]

/-- Settles O19: the opcodes only read and their answers are short; an unknown opcode is barred. -/
theorem discoveryOpcodes : Obligations.DiscoveryOpcodes := by
  unfold Obligations.DiscoveryOpcodes
  refine ⟨fun r s s1 c h => ⟨_, rfl, ?identity⟩, fun r s s1 c h => ⟨_, rfl, ?caps⟩, fun r s s1 c h => ⟨_, rfl, _, rfl, ?opcodes⟩,
    fun r s s1 c h => ⟨_, rfl, ?session⟩, fun r s s1 c h => ⟨_, rfl, ?health⟩,
    fun opc r s ho hk hp hf h0 hl hr hc hrec => ?unknown⟩
  case identity =>
    refine (opRead_answers h (by simp [length_getIdentity])).1.trans ?_
    unfold getIdentity
    split <;> rfl
  case caps =>
    refine (opRead_answers h (by simp [length_getCaps])).1.trans ?_
    unfold getCaps
    split <;> rfl
  case opcodes => exact (opRead_answers h (length_getOpcodes c s1)).1
  case session =>
    have ha := (opRead_answers (f := getSession) h (by simp [length_getSession])).1
    refine ⟨fun h0 => ha.trans ?_, fun x h0 hx => ha.trans ?_⟩
    · simp [getSession, h0, ansOk]
    · simp [getSession, h0, hx, ansOk]
  case health => exact (opRead_answers (f := getHealth) h (by simp [getHealth, ansOk])).1
  case unknown =>
    refine ⟨_, execMailboxUnknownOpcode_eq ho hk r s, ?_⟩
    rw [mbxRun_of_posted (d := unknownOp opc) hp hf]
    exact mbxServe_barred_answer h0 hl hr (mbxAdmit_of_unknown hc hrec hk) (by decide)

end Sys2Proof

/-! SUPPORT. Which registers a record of the journal may change (the sequence number and what placement shows of its blocks), and what
the opcodes that bind a slice do. -/
namespace Sys2Proof
open Sys2Proof.Machine

/-- Registers that a record of the journal may change: CMP_SEQ, and what shows the blocks it takes. -/
def journalRegs : List Nat :=
  [Reg.CMP_SEQ_LO, Reg.CMP_SEQ_HI, Fld.PLC_STG_USED_BLOCKS.addr, Fld.PLC_FREE_BLOCKS.addr, Fld.PLC_EVENTS_STG_LOW.addr] ++
    (List.range 4).map (fun i => (Fld.PLC_GRP_FULL_GROUPS i).addr) ++ (List.range 4).map (fun i => (Fld.PLC_GRP_EMPTY_GROUPS i).addr)

theorem fbitoff_regs {l : List Nat} (s : State) {f : Field} {i : Nat} (hf : f.addr ∈ l) : RegsBut l s (fbitoff s f i) := by
  unfold fbitoff
  split
  · exact regsBut_field (regsBut_refl _ _) _ _ hf
  · exact regsBut_refl _ _

theorem grpSet_regs {l : List Nat} {s0 s : State} (h : RegsBut l s0 s) (f : Nat → Field) (g : Nat) (b : Bool) (hf : (f (g / 32)).addr ∈ l) :
    RegsBut l s0 (grpSet s f g b) := by
  cases b
  · exact regsBut_trans h (fbitoff_regs s hf)
  · exact regsBut_field h _ _ hf

theorem stgEvents_regs {s0 s : State} (h : RegsBut journalRegs s0 s) : RegsBut journalRegs s0 (stgEvents s) := by
  have step : ∀ {u : State} (b : Bool) (f : Field), f.addr ∈ journalRegs → RegsBut journalRegs s0 u →
      RegsBut journalRegs s0 (if b then fon u f else u) := by
    intro u b f hf hu
    cases b
    · exact hu
    · exact regsBut_field hu f 1 hf
  exact step _ _ (by decide) (step _ _ (by decide) (step _ _ (by decide) h))

theorem stagingRefresh_regs {s0 s : State} (h : RegsBut journalRegs s0 s) : RegsBut journalRegs s0 (stagingRefresh s) :=
  stgEvents_regs (regsBut_field (regsBut_field h _ _ (by decide)) _ _ (by decide))

theorem grpRefresh_regs {s0 s : State} (h : RegsBut journalRegs s0 s) {g : Nat} (hg : g < 128) : RegsBut journalRegs s0 (grpRefresh s g) := by
  have hi : g / 32 ∈ List.range 4 := List.mem_range.2 (by omega)
  have hfull : (Fld.PLC_GRP_FULL_GROUPS (g / 32)).addr ∈ journalRegs :=
    List.mem_append_left _ (List.mem_append_right _ (List.mem_map_of_mem (f := fun i => (Fld.PLC_GRP_FULL_GROUPS i).addr) hi))
  have hempty : (Fld.PLC_GRP_EMPTY_GROUPS (g / 32)).addr ∈ journalRegs :=
    List.mem_append_right _ (List.mem_map_of_mem (f := fun i => (Fld.PLC_GRP_EMPTY_GROUPS i).addr) hi)
  exact stagingRefresh_regs (grpSet_regs (grpSet_regs h _ _ _ hfull) _ _ _ hempty)

/-- What a fold that keeps its choice or takes the next element ends with was there at the start or is in the list. -/
theorem foldl_mem_of_choice {α : Type} (f : Option α → α → Option α) (hf : ∀ b g, f b g = b ∨ f b g = some g) :
    ∀ (l : List α) (b : Option α) (x : α), l.foldl f b = some x → b = some x ∨ x ∈ l
  | [], _, _, h => .inl h
  | g :: l, b, x, h => by
    rcases foldl_mem_of_choice f hf l _ x h with h | h
    · rcases hf b g with e | e
      · exact .inl (e ▸ h)
      · exact .inr (List.mem_cons.2 (.inl (Option.some.inj (h.symm.trans e))))
    · exact .inr (List.mem_cons_of_mem _ h)

/-- The group chosen for new work is one of the 128. -/
theorem bestGroup_lt {s : State} {ok : Nat → Bool} {g : Nat} (h : bestGroup s ok = some g) : g < 128 := by
  unfold bestGroup at h
  rcases foldl_mem_of_choice _ (fun b g => by cases b with | none => exact .inr rfl | some b => dsimp only; split <;> simp) _ _ _ h with h | h
  · cases h
  · obtain ⟨i, -, rfl⟩ := List.mem_map.1 (List.mem_filter.1 h).1
    omega

/-- Blocks erased one after the other change no register. -/
theorem foldl_blockErased_regs (d p : State → Nat → Nat) (l : List Nat) (s : State) :
    (l.foldl (fun s m => blockErased s (d s m) (p s m) 0) s).regs = s.regs := by
  induction l generalizing s with
  | nil => rfl
  | cons m l ih => exact ih _

theorem metaTake_regs {s : State} {c : Nat} {e : MetaOpen × State} (h : metaTake s c = some e) : RegsBut journalRegs s e.2 := by
  unfold metaTake at h
  dsimp only at h
  split at h
  · cases h
  · next g hg =>
    split at h
    · cases h
    · next b hb =>
      cases h
      refine grpRefresh_regs (regsBut_congr _ ?_) (bestGroup_lt hg)
      exact foldl_blockErased_regs (fun _ m => dieOf g m) (fun s m => physOf s g b m) _ _

theorem sbClose_regs (s : State) (g b : Nat) : (sbClose s g b).regs = s.regs :=
  (sbClose_frame (m := 65536) s g b (Nat.and_self _) (.refl _ s)).regs rfl

theorem metaBlock_regs {s : State} {c : Nat} {e : MetaOpen × State} (h : metaBlock s c = some e) : RegsBut journalRegs s e.2 := by
  unfold metaBlock at h
  split at h
  · next o ho =>
    split at h
    · cases h
      exact regsBut_refl _ _
    · exact regsBut_trans (regsBut_congr _ (sbClose_regs s _ _)) (metaTake_regs h)
  · exact metaTake_regs h

theorem metaPlace_regs (s : State) (c id : Nat) (u : MetaUnit) (o : MetaOpen) : (metaPlace s c id u o).2.regs = s.regs :=
  (metaPlace_frame (m := 65536) s c id u o (Nat.and_self _) (.refl _ s)).out.regs rfl

theorem metaCopy_regs (s : State) (c id : Nat) (u : MetaUnit) : RegsBut journalRegs s (metaCopy s c id u).2 := by
  unfold metaCopy
  split
  · next o t h => exact regsBut_trans (metaBlock_regs h) (regsBut_congr _ (metaPlace_regs t c id u o))
  · exact regsBut_refl _ _

theorem regsBut_snd {α : Type} {l : List Nat} {s t : State} {x : α × State} {a : α} (h : RegsBut l s x.2) (e : x = (a, t)) : RegsBut l s t := by
  rwa [e] at h

theorem metaWrite_regs (s : State) (u : MetaUnit) : RegsBut journalRegs s (metaWrite s u).2 := by
  unfold metaWrite
  dsimp only
  split
  · next a t ha =>
    have hfirst : RegsBut journalRegs s t := regsBut_snd (metaCopy_regs s 0 _ u) ha
    split
    · next b v hb =>
      have hsecond : RegsBut journalRegs t v := regsBut_snd (metaCopy_regs t 1 _ u) hb
      exact regsBut_trans hfirst hsecond
    · exact regsBut_refl _ _
  · exact regsBut_refl _ _

theorem foldl_journalBlock_regs (recs : List JRec) (l : List Loc) (s : State) :
    (l.foldl (fun t x => journalBlock t recs x) s).regs = s.regs := by
  induction l generalizing s with
  | nil => rfl
  | cons x l ih => exact (ih _).trans ((journalBlock_frame (m := 65536) s recs x (Nat.and_self _) (.refl _ s)).regs rfl)

theorem tailOut_regs (all : Bool) (k : Nat) (s : State) : RegsBut journalRegs s (tailOut all k s) := by
  induction k generalizing s with
  | zero => exact regsBut_refl _ _
  | succ k ih =>
    unfold tailOut
    dsimp only
    split
    · exact regsBut_refl _ _
    · split
      · next t ht =>
        have hw : RegsBut journalRegs s t := regsBut_snd (metaWrite_regs s _) ht
        exact regsBut_trans (regsBut_trans hw (regsBut_congr _ (foldl_journalBlock_regs _ _ t))) (ih _)
      · exact regsBut_refl _ _

theorem seqTake_regs (s : State) : RegsBut journalRegs s (seqTake s).2 :=
  regsBut_in (regsBut_in (regsBut_congr _ rfl) (regsBut_rset _ _ _) (List.forall_mem_singleton.2 (by decide))) (regsBut_rset _ _ _)
    (List.forall_mem_singleton.2 (by decide))

/-- A record of the journal changes CMP_SEQ and, where the tail is written, the counts of the blocks it takes (R297, R324). -/
theorem journal_regs (s : State) (ty : Nat) (body : List Nat) : RegsBut journalRegs s (journal s ty body) := by
  have ht : RegsBut journalRegs s (tailAdd none [] s ty body) := seqTake_regs s
  unfold journal journalFor journalHold
  dsimp only
  split
  · exact ht
  · exact regsBut_trans ht (tailOut_regs _ _ _)

/-! ### Bindings -/

theorem journalDef_regs (s : State) (kind n : Nat) : RegsBut journalRegs s (journalDef s kind n) := journal_regs s 9 _

theorem bindDone_slm (s : State) (n p : Nat) : (bindDone s n p).slm = s.slm :=
  (bindDone_frame (m := 92162) s n p (Nat.and_self _) (.refl _ s)).slm rfl

theorem bindPort_spdm (p : List Byte) (s : State) : (bindPort p s).2.spdm = s.spdm :=
  (bindPort_frame (m := 96258) p s (Nat.and_self _) (.refl _ s)).out.spdm rfl

theorem bindChannel_spdm (p : List Byte) (s : State) : (bindChannel p s).2.spdm = s.spdm :=
  (bindChannel_frame (m := 90114) p s (Nat.and_self _) (.refl _ s)).out.spdm rfl

theorem bindChannel_slm (p : List Byte) (s : State) : (bindChannel p s).2.slm = s.slm :=
  (bindChannel_frame (m := 90114) p s (Nat.and_self _) (.refl _ s)).out.slm rfl

/-- A change of a slice shows at the slice, once the binding has been recorded and noticed. -/
theorem find_bindDone_sliceUpd {s : State} {n : Nat} {x : Slice} (hx : SMap.find s.slm.slices n = some x) (f : Slice → Slice) (q : Nat) :
    SMap.find (bindDone (sliceUpd s n f) n q).slm.slices n = some (f x) := by
  rw [bindDone_slm]
  exact (find_upd_self _ _ _).trans (congrArg (Option.map f) hx)

/-- What SLICE_BIND_CHANNEL writes into the binding register of channel `j` of port `i` (R103). -/
def bindWrite (s : State) (i j n b : Nat) : State := fset (fset s (Fld.MBX_BIND_SLICE i j) n) (Fld.MBX_BIND_BOUND i j) b

theorem bindWrite_bound (s : State) (i j n b : Nat) : fget (bindWrite s i j n b) (Fld.MBX_BIND_BOUND i j) = b % 2 :=
  fget_fset_self _ _ (by decide : 15 + 1 ≤ 32)

theorem bindWrite_slice (s : State) (i j n b : Nat) : fget (bindWrite s i j n b) (Fld.MBX_BIND_SLICE i j) = n % 1024 :=
  (fget_fset_ne _ _ (by decide : 15 + 1 ≤ 32) (.inr (.inl (by decide : 0 + 10 ≤ 15)))).trans (fget_fset_self _ _ (by decide : 0 + 10 ≤ 32))

/-- No answer of the mailbox and no record of the journal writes a binding. -/
theorem bind_notMem {i j : Nat} (hi : i ≤ 3) (hj : j ≤ 7) : Reg.MBX_BIND i j ∉ mbxRegs ∧ Reg.MBX_BIND i j ∉ journalRegs :=
  (show ∀ i < 4, ∀ j < 8, Reg.MBX_BIND i j ∉ mbxRegs ∧ Reg.MBX_BIND i j ∉ journalRegs by decide) i (by omega) j (by omega)

section
variable {s : State} {p : List Byte} {x : Slice} (hx : SMap.find s.slm.slices (u16 p 0) = some x) (hr : x.resetting = false)
  (hp : u8 p 2 ≤ 3) (ht : portThere s (u8 p 2) = true)
include hx hr hp ht

/-- A slice that is not on the port takes the slot asked for, or the lowest free one (R615). -/
theorem bindPort_takes {v : Nat} (hs : u16 p 4 ≤ 1023) (hb : (u8 p 3).testBit 0 = true) (hf : SMap.find x.slots (u8 p 2) = none)
    (hl : x.slots.length < 2)
    (hv : (if u16 p 4 = 0 then slotFree s (u8 p 2) else if slotHeld s (u8 p 2) (u16 p 4) then none else some (u16 p 4)) = some v) :
    bindPort p s = (ansOk (le 2 v ++ zeros 2),
      bindDone (sliceUpd s (u16 p 0) fun x => { x with slots := SMap.put x.slots (u8 p 2) v }) (u16 p 0) (u8 p 2)) := by
  simp [bindPort, hx, hr, ht, hb, hf, Nat.not_lt.2 hp, Nat.not_lt.2 hs, Nat.not_le.2 hl, hv]

/-- A slice without queues or channels on the port gives its slot back (R615). -/
theorem bindPort_frees {v : Nat} (hb : (u8 p 3).testBit 0 = false) (hf : SMap.find x.slots (u8 p 2) = some v)
    (hq : boundOn s (u16 p 0) (u8 p 2) v = false) :
    bindPort p s = (ansOk (le 2 v ++ zeros 2),
      bindDone (sliceUpd s (u16 p 0) fun x => { x with slots := SMap.del x.slots (u8 p 2) }) (u16 p 0) (u8 p 2)) := by
  simp [bindPort, hx, hr, ht, hb, hf, Nat.not_lt.2 hp, hq]

/-- An idle, unbound channel of a port that the slice is on is bound to it (R103). -/
theorem bindChannel_binds (hc : u8 p 3 ≤ 7) (hb : (u8 p 4).testBit 0 = true) (hf : chanSlice s (8 * u8 p 2 + u8 p 3) = none)
    (hs : (SMap.find x.slots (u8 p 2)).isSome = true) (hi : chanIdle s (8 * u8 p 2 + u8 p 3) = true) :
    bindChannel p s = (ansOk [], journalDef (bindWrite s (u8 p 2) (u8 p 3) (u16 p 0) 1) 0 (u16 p 0)) := by
  have hsome : SMap.find x.slots (u8 p 2) ≠ none := Option.isSome_iff_ne_none.1 hs
  simp [bindChannel, hx, hr, ht, hb, hf, Nat.not_lt.2 hp, Nat.not_lt.2 hc, hsome, hi, fon, bindWrite]

/-- An idle channel of the slice is freed (R103). -/
theorem bindChannel_unbinds (hc : u8 p 3 ≤ 7) (hb : (u8 p 4).testBit 0 = false)
    (hf : chanSlice s (8 * u8 p 2 + u8 p 3) = some (u16 p 0)) (hi : chanIdle s (8 * u8 p 2 + u8 p 3) = true) :
    bindChannel p s = (ansOk [], journalDef (bindWrite s (u8 p 2) (u8 p 3) 0 0) 0 (u16 p 0)) := by
  simp [bindChannel, hx, hr, ht, hb, hf, Nat.not_lt.2 hp, Nat.not_lt.2 hc, hi, foff, bindWrite]

end

/-- An accepted SLICE_BIND_PORT that changes the slice answers with the slot, and the change stands. -/
theorem bindPort_done {r : Rq} {s s1 : State} {c : Caller} {p : List Byte} {x : Slice} {v : Nat} {f : Slice → Slice}
    (h : accepted 0x0203 false r s = some (c, p, s1)) (hl : p.length = 8) (hx : SMap.find s1.slm.slices (u16 p 0) = some x)
    (hw : bindPort p s1 = (ansOk (le 2 v ++ zeros 2), bindDone (sliceUpd s1 (u16 p 0) f) (u16 p 0) (u8 p 2))) :
    answer (mbxRun bindPortDef r s) r.ch.val = some (ST_OK, le 2 v ++ zeros 2) ∧
      SMap.find (mbxRun bindPortDef r s).slm.slices (u16 p 0) = some (f x) := by
  have ha : (bindPort p s1).1 = ansOk (le 2 v ++ zeros 2) := congrArg Prod.fst hw
  have ht : (bindPort p s1).2 = bindDone (sliceUpd s1 (u16 p 0) f) (u16 p 0) (u8 p 2) := congrArg Prod.snd hw
  obtain ⟨hans, hsame⟩ := opDef_answers (layout := fun p => p.length == 8) (work := fun _ p s => bindPort p s) h (by simp [hl])
    (bindPort_spdm p s1) (by rw [ha]; simp [ansOk])
  rw [ha] at hans
  rw [ht] at hsame
  exact ⟨hans, (congrArg (fun m => SMap.find m.slices _) (hsame.slm rfl)).trans (find_bindDone_sliceUpd hx f _)⟩

/-- An accepted SLICE_BIND_CHANNEL that writes a binding answers with success, shows what it wrote, and leaves the slices. -/
theorem bindChannel_done {r : Rq} {s s1 : State} {c : Caller} {p : List Byte} {n b : Nat} (h : accepted 0x0207 false r s = some (c, p, s1))
    (hl : p.length = 8) (hp : u8 p 2 ≤ 3) (hc : u8 p 3 ≤ 7)
    (hw : bindChannel p s1 = (ansOk [], journalDef (bindWrite s1 (u8 p 2) (u8 p 3) n b) 0 (u16 p 0))) :
    answer (mbxRun bindChannelDef r s) r.ch.val = some (ST_OK, []) ∧
      fget (mbxRun bindChannelDef r s) (Fld.MBX_BIND_BOUND (u8 p 2) (u8 p 3)) = b % 2 ∧
      fget (mbxRun bindChannelDef r s) (Fld.MBX_BIND_SLICE (u8 p 2) (u8 p 3)) = n % 1024 ∧ (mbxRun bindChannelDef r s).slm = s1.slm := by
  have ha : (bindChannel p s1).1 = ansOk [] := congrArg Prod.fst hw
  have ht : (bindChannel p s1).2 = journalDef (bindWrite s1 (u8 p 2) (u8 p 3) n b) 0 (u16 p 0) := congrArg Prod.snd hw
  obtain ⟨hgets, hsame, hcalm⟩ := opDef_done (layout := fun p => p.length == 8) (work := fun _ p s => bindChannel p s) h (by simp [hl])
    (bindChannel_spdm p s1) (congrArg Ans.st ha)
  rw [ha] at hgets
  rw [ht] at hcalm
  obtain ⟨hm, hj⟩ := bind_notMem hp hc
  have hkept : ∀ f : Field, f.addr = Reg.MBX_BIND (u8 p 2) (u8 p 3) →
      fget (mbxRun bindChannelDef r s) f = fget (bindWrite s1 (u8 p 2) (u8 p 3) n b) f := fun f hf =>
    (hcalm.field (hf ▸ hm)).trans (regsBut_fget (journalDef_regs _ _ _) (hf ▸ hj))
  exact ⟨gets_short hgets (Nat.zero_le _), (hkept _ rfl).trans (bindWrite_bound ..), (hkept _ rfl).trans (bindWrite_slice ..),
    (hsame.slm rfl).trans (bindChannel_slm p s1)⟩

/-- Settles O22, clause by clause: what the work of the opcode does to the slice or the binding, and that the answer leaves it so. -/
theorem sliceBindings : Obligations.SliceBindings := by
  unfold Obligations.SliceBindings
  refine ⟨fun r s s1 c p x v h hl hx hr hp ht hs hb hf hroom hv => ⟨_, rfl, ?bindPort⟩,
    fun r s s1 c p x v h hl hx hr hp ht hb hf hq => ⟨_, rfl, ?unbindPort⟩,
    fun r s s1 c p x h hl hx hr hp hc ht hb hf hs hi => ⟨_, rfl, ?bindChannel⟩,
    fun r s s1 c p x h hl hx hr hp hc ht hb hf hi => ⟨_, rfl, ?unbindChannel⟩⟩
  case bindPort => exact bindPort_done h hl hx (bindPort_takes hx hr hp ht hs hb hf hroom hv)
  case unbindPort => exact bindPort_done h hl hx (bindPort_frees hx hr hp ht hb hf hq)
  case bindChannel => exact bindChannel_done h hl hp hc (bindChannel_binds hx hr hp ht hc hb hf hs hi)
  case unbindChannel => exact bindChannel_done h hl hp hc (bindChannel_unbinds hx hr hp ht hc hb hf hi)

end Sys2Proof

/-! SUPPORT. What the SPDM responder answers on a path it is up on (R109). -/
namespace Sys2Proof
open Sys2Proof.Machine

/-- A change of power state leaves the responder as it is. -/
@[simp] theorem spdmWake_spdm (s : State) (p : SPath) : (spdmWake s p).spdm = s.spdm :=
  (spdmWake_frame (m := 2100226) s p (by decide) (.refl _ s)).spdm rfl

@[simp] theorem spdmSay_spdm (s : State) (a : SpdmAns) : (spdmSay s a).spdm = { s.spdm with ans := a } := rfl

/-- A request on a path that is up leaves the responder as its work does. -/
theorem spdmRun_spdm {s : State} {p : SPath} (h : spdmUp s p = true) (f : State → State) : (spdmRun s p f).spdm = (f s).spdm := by
  rw [spdmRun, if_pos h, spdmWake_spdm]

/-- A request of slot 0 is worked on. -/
theorem spdmSlot_zero_spdm {s : State} {p : SPath} (h : spdmUp s p = true) (f : State → State) :
    (spdmSlot s p 0 f).spdm = (f s).spdm := spdmRun_spdm h _

/-- A request of another slot is an error (R109). -/
theorem spdmSlot_ne_spdm {s : State} {p : SPath} (h : spdmUp s p = true) {slot : Nat} (hs : slot ≠ 0) (f : State → State) :
    (spdmSlot s p slot f).spdm = { s.spdm with ans := .errInvalid } := by
  rw [spdmSlot, spdmRun_spdm h, if_neg hs, spdmSay_spdm]

/-- With the PKE in service and a fresh nonce, the Alias key signs (R490). -/
theorem aliasSign_eq {s : State} (hc : carded s midPke = false) (he : entropyBad s = false) (d : List Byte) :
    aliasSign s d = (some (Config.p384Sign (pkeScalar s 3) d s.kst.draws), (draw s).2) := by
  simp [aliasSign, hc, he]

/-- A draw of the DRBG is no part of what is measured (R502). -/
theorem measurements_draw (s : State) : measurements (draw s).2 = measurements s := rfl

/-- One answer over DOE carries at most 4,080 bytes of the chain (R108). -/
theorem certPortion_le (p : SPath) (len : Nat) : certPortion p len ≤ len ∧ (p = .sideband ∨ len ≤ 4080 → certPortion p len = len) ∧
    (p ≠ .sideband → certPortion p len ≤ 4080) := by
  cases p with
  | doe p => simp only [certPortion, reduceCtorEq, false_or]; omega
  | sideband => simp [certPortion]

/-- Settles O15: each answer is the work of its request, which the wake-up of the drive leaves. -/
theorem spdmResponder : Obligations.SpdmResponder := by
  unfold Obligations.SpdmResponder
  refine ⟨fun p s h => ⟨_, rfl, spdmRun_spdm h _⟩, fun p s h => ⟨_, rfl, spdmRun_spdm h _⟩,
    fun p s h => ⟨⟨_, rfl, ?algorithms⟩, ⟨_, rfl, spdmRun_spdm h _⟩⟩, fun p s h => ⟨_, rfl, spdmRun_spdm h _⟩,
    fun p off len s h => ⟨_, rfl, certPortion p len, spdmSlot_zero_spdm h _, certPortion_le p len⟩,
    fun p nonce s h hc he => ⟨_, rfl, (congrArg Spdm.ans (spdmSlot_zero_spdm h _)).trans ?challenge⟩,
    fun p nonce s h hc he => ⟨_, rfl, (congrArg Spdm.ans (spdmSlot_zero_spdm h _)).trans ?measurements⟩,
    fun p code s h hk => ⟨spdmRun s p fun s => spdmSay s .errUnsupported, ?unsupported, spdmRun_spdm h _⟩,
    fun p slot off len hb nonce both s h hs => ?slots⟩
  case algorithms =>
    dsimp only
    rw [spdmRun_spdm h]
    exact ⟨rfl, List.mem_append_right _ (List.mem_singleton_self p)⟩
  case challenge => simp [aliasSign_eq hc he]
  case measurements => simp [aliasSign_eq hc he, measurements_draw]
  case unsupported =>
    show execSpdmUnsupportedRequest p code s = _
    simp [execSpdmUnsupportedRequest, hk]
  case slots =>
    simp only [List.forall_mem_cons, List.not_mem_nil, false_implies, implies_true, and_true]
    exact ⟨⟨_, rfl, spdmSlot_ne_spdm h hs _⟩, ⟨_, rfl, spdmSlot_ne_spdm h hs _⟩, ⟨_, rfl, spdmSlot_ne_spdm h hs _⟩,
      ⟨_, rfl, spdmSlot_ne_spdm h hs _⟩⟩

end Sys2Proof

/-! SUPPORT. A request rung on a port whose channels are not enabled (R100): the doorbell write stores nothing, and posting the window does
not give the state it gives. -/
namespace Sys2Proof
open Sys2Proof.Machine

/-- A write that would set GO while the port's channels are not enabled is counted and stores nothing (R100). -/
theorem mailboxPayloadWrite_of_portOff {s : State} {ch : Fin 32} {off : Nat} {b : List Byte} (hr : chanReach s ch.val = true) (ho : off < 4096)
    (hg : (chanGet s ch.val).go = false) (hd : doorbellRung (hostWrite s ch.val off b) ch.val off b = true)
    (hp : fbit s Fld.MBX_CTRL_PORT_EN (ch.val / 8) = false) :
    exec (.mailboxPayloadWrite ch off b) s = .next (finc s (Fld.MBX_COUNT_COUNT 3)) := by
  show execMailboxPayloadWrite ch off b s = _
  simp [execMailboxPayloadWrite, hr, Nat.not_le.2 ho, hg, hd, hp]

/-- Port 0's link is up, firmware runs, and MBX_CTRL.PORT_EN is 0. -/
def portOff0 : State :=
  fset (fset { State.reset with
    bot := { State.reset.bot with run := true }
    hst := { State.reset.hst with ports := [(0, { Port.reset with perst := false })] } } (Fld.HPT_LINK_DL_UP 0) 1) Fld.MBX_CTRL_PORT_EN 0

/-- The doorbell word of GET_IDENTITY with GO. -/
def identityDoorbell : List Byte := le 2 0x0001 ++ le 2 1

/-- Refutes O18: port 0's link is up, MBX_CTRL.PORT_EN is 0, and the host writes the doorbell word of GET_IDENTITY. The write stores nothing
(R100); GET_IDENTITY of the window with the word stored does not give that state, for there the word stands. The clause
"mailboxPayloadWrite posts" lacks the premise that the port's channels are enabled. -/
theorem not_sidebandDoeAndWindows : ¬ Obligations.SidebandDoeAndWindows := by
  unfold Obligations.SidebandDoeAndWindows
  rintro ⟨-, -, -, -, -, -, -, -, -, -, -, -, -, -, posts, -⟩
  have hr : chanReach portOff0 0 = true := by decide +kernel
  have hd : doorbellRung (hostWrite portOff0 0 0 identityDoorbell) 0 0 identityDoorbell = true := by decide +kernel
  have hposted := (posts 0 0 identityDoorbell portOff0 _ hr (by decide) rfl rfl hd).1 (by decide +kernel)
  have hstored := mailboxPayloadWrite_of_portOff (ch := 0) hr (by decide) rfl hd (by decide +kernel)
  have hsame := Host.Outcome.next.inj (hstored.symm.trans hposted)
  exact absurd (congrArg (fun t => u16 (chanGet t 0).win 0) hsame) (by decide +kernel)

end Sys2Proof

/-! SUPPORT. The brief answer of an accepted request, the range of its bytes, and what leaves the slice manager's state as it is. -/
namespace Sys2Proof
open Sys2Proof.Machine

/-- An accepted request whose work answers briefly: the answer, and every field of State that no answer moves as the work left it. -/
theorem opDef_gives {opc : Nat} {layout : List Byte → Bool} {work : Caller → List Byte → State → Ans × State} {r : Rq} {s s1 s2 : State}
    {c : Caller} {p : List Byte} {a : Ans} (h : accepted opc false r s = some (c, p, s1)) (hl : layout p = true)
    (hw : work c p s1 = (a, s2)) (hs : s2.spdm = s1.spdm) (hp : a.pay.length ≤ 4032) :
    answer (mbxRun (opDef opc layout work) r s) r.ch.val = some (a.st, a.pay) ∧ Same 2100866 s2 (mbxRun (opDef opc layout work) r s) := by
  have hd := opDef_answers (work := work) h hl (by rw [hw]; exact hs) (by rw [hw]; exact hp)
  rwa [hw] at hd

theorem u8_lt (p : List Byte) (o : Nat) : u8 p o < 256 := (p.getD o 0).isLt

theorem u16_lt (p : List Byte) (o : Nat) : u16 p o < 65536 := by
  have h0 := u8_lt p o
  have h1 := u8_lt p (o + 1)
  unfold u16; omega

theorem find_sliceUpd_self (s : State) (n : Nat) (f : Slice → Slice) :
    SMap.find (sliceUpd s n f).slm.slices n = (SMap.find s.slm.slices n).map f := find_upd_self _ _ _

theorem journalDef_slm (s : State) (k n : Nat) : (journalDef s k n).slm = s.slm :=
  (journalDef_frame (m := 90114) s k n (Nat.and_self _) (.refl _ s)).slm rfl

theorem slmShow_slm (s : State) : (slmShow s).slm = s.slm := (slmShow_frame (m := 2) s (Nat.and_self _) (.refl _ s)).slm rfl

theorem bpUpdate_slm (s : State) : (bpUpdate s).slm = s.slm := (bpUpdate_frame (m := 262146) s (Nat.and_self _) (.refl _ s)).slm rfl

end Sys2Proof

/-! SUPPORT. A slice's life (R185, R186, R251, R253, R615). -/
namespace Sys2Proof
open Sys2Proof.Machine

/-- What the registers show of the cipher engines leaves the slices. -/
theorem xteShown_slm (s : State) (b : Bool) : (if b then xteDedShow (xtePool s) else s).slm = s.slm := by
  cases b
  · rfl
  · exact (xteDedShow_frame (m := 2) _ (Nat.and_self _) (xtePool_frame s (Nat.and_self _) (.refl _ s))).slm rfl

theorem foldl_grpSet_slm (f : Nat → Field) (b : Bool) (l : List Nat) (s : State) : (l.foldl (fun s g => grpSet s f g b) s).slm = s.slm :=
  (Same.foldl (m := 2) (fun _ h g => grpSet_frame _ f g b (Nat.and_self _) h) l s (.refl _ s)).slm rfl

theorem foldl_quotaPut_slm (n : Nat) (q : State → Nat → Nat × Nat) (l : List Nat) (s : State) :
    (l.foldl (fun s k => quotaPut s n k (q s k).1 (q s k).2) s).slm = s.slm :=
  (Same.foldl (m := 262146) (fun _ h k => quotaPut_frame _ n k _ _ (Nat.and_self _) h) l s (.refl _ s)).slm rfl

/-- A slice that is added is listed (R615). -/
theorem sliceAdd_slm (s : State) (n : Nat) (x : Slice) : (sliceAdd s n x).slm = { s.slm with slices := SMap.put s.slm.slices n x } := by
  unfold sliceAdd
  dsimp only
  rw [slmShow_slm, journalDef_slm, bpUpdate_slm, xteShown_slm, foldl_grpSet_slm]
  have hq := foldl_quotaPut_slm n (fun s k => sliceQuota s x.iso k) (List.range 4) s
  dsimp only at hq ⊢
  rw [hq]

theorem groupsErased_slm (s : State) (n : Nat) (x : Slice) : (if x.iso then groupsErase s n x.groups else s).slm = s.slm := by
  split
  · exact (groupsErase_frame (m := 114690) s n x.groups (Nat.and_self _) (.refl _ s)).slm rfl
  · rfl

/-- A slice that is removed is listed no more (R253). -/
theorem sliceRemove_slm (s : State) (n : Nat) (x : Slice) : (sliceRemove s n x).slm = { s.slm with slices := SMap.del s.slm.slices n } := by
  unfold sliceRemove
  dsimp only
  rw [slmShow_slm, journalDef_slm, bpUpdate_slm, xteShown_slm]
  have hq := foldl_quotaPut_slm n (fun _ _ => (0, 0)) (List.range 4) (if x.iso then groupsErase s n x.groups else s)
  dsimp only at hq ⊢
  rw [hq, groupsErased_slm]

theorem sliceAdd_spdm (s : State) (n : Nat) (x : Slice) : (sliceAdd s n x).spdm = s.spdm :=
  (sliceAdd_frame (m := 356354) s n x (Nat.and_self _) (.refl _ s)).spdm rfl

theorem sliceRemove_spdm (s : State) (n : Nat) (x : Slice) : (sliceRemove s n x).spdm = s.spdm :=
  (sliceRemove_frame (m := 389122) s n x (Nat.and_self _) (.refl _ s)).spdm rfl

/-- What the definition of a new slice takes from the request (R615). -/
theorem sliceCreate_adds {p : List Byte} {s : State} (hn : u16 p 0 ≤ 1023) (hf : SMap.find s.slm.slices (u16 p 0) = none)
    (hr : createFits p = true) (hp : SMap.anyv s.slm.slices (fun _ x => x.pasid == u32 p 4 % 1048576) = false)
    (hw : max (powerSum s (u16 p 0)) (powerNext s (u16 p 0)) + u16 p 26 ≤ 1024)
    (hi : (u8 p 2).testBit 0 = true → (isoSet s (u8 p 3)).isSome = true) :
    ∃ x, sliceCreate p s = (ansOk [], sliceAdd s (u16 p 0) x) ∧ (∃ held, x = { sliceNew p x.groups x.xte with held := held }) ∧
      (x.iso = true → isoSet s (u8 p 3) = some (x.groups, x.xte)) := by
  cases hb : (u8 p 2).testBit 0
  · refine ⟨sliceNew p [] [], ?_, ⟨[], rfl⟩, fun h => ?_⟩
    · simp [sliceCreate, Nat.not_lt.2 hn, hf, hr, hp, Nat.not_lt.2 hw, hb]
    · exact absurd (hb.symm.trans h) (by decide)
  · obtain ⟨⟨gs, xs⟩, hs⟩ := Option.isSome_iff_exists.1 (hi hb)
    refine ⟨{ sliceNew p gs xs with held := gs.filter (grp s Fld.PLC_GRP_HOLD_GROUPS) }, ?_, ⟨_, rfl⟩, fun _ => hs⟩
    simp [sliceCreate, Nat.not_lt.2 hn, hf, hr, hp, Nat.not_lt.2 hw, hb, hs]

theorem sliceDelete_removes {n : Nat} {s : State} {x : Slice} (hx : SMap.find s.slm.slices n = some x) (hr : x.resetting = false)
    (hs : x.slots = []) (hn : sliceNs s n = []) : sliceDelete n s = (ansOk [], sliceRemove s n x) := by
  simp [sliceDelete, hx, hr, hs, hn]

theorem length_querySlice (s : State) (n : Nat) (x : Slice) : (querySlice s n x).length = 40 := by
  simp [querySlice]

/-- SLICE_QUERY answers 48 bytes, or none (R185). -/
theorem length_sliceQuery (c : Caller) (n : Nat) (s : State) : (sliceQuery c n s).pay.length ≤ 48 := by
  unfold sliceQuery
  dsimp only
  generalize (if n = 0xFFFF then c.slice.getD n else n) = k
  split
  · simp
  · split
    · exact Nat.zero_le _
    · split
      · simp [length_querySlice]
      · exact Nat.zero_le _
  · split
    · simp [ansOk, length_querySlice]
    · exact Nat.zero_le _

/-- Settles O21: creation lists the slice of the request, deletion takes it off the list, and a query only reads. -/
theorem sliceLife : Obligations.SliceLife := by
  unfold Obligations.SliceLife
  refine ⟨fun r s s1 c p h hl hn hf hr hp hw hi => ⟨_, rfl, ?create⟩, fun r s s1 c p x h hl hx hr hs hn => ⟨_, rfl, ?delete⟩,
    fun r s s1 c p x h hl hx => ⟨_, rfl, ?query⟩⟩
  case create =>
    obtain ⟨x, hc, ⟨held, hx⟩, hiso⟩ := sliceCreate_adds hn hf hr hp hw hi
    obtain ⟨hans, hsame⟩ := opDef_gives (layout := fun p => p.length == 32) (work := fun _ p s => sliceCreate p s) h (by simp [hl]) hc
      (sliceAdd_spdm _ _ _) (Nat.zero_le _)
    rw [hsame.slm rfl, sliceAdd_slm]
    refine ⟨hans, ⟨x, SMap.find_put_self _ _ _, ?_⟩, fun k hk => SMap.find_put_ne _ _ hk⟩
    rw [hx] at hiso ⊢
    exact ⟨rfl, rfl, rfl, rfl, rfl, rfl, rfl, hiso⟩
  case delete =>
    obtain ⟨hans, hsame⟩ := opDef_gives (layout := fun p => p.length == 4) (work := fun _ p s => sliceDelete (u16 p 0) s) h (by simp [hl])
      (sliceDelete_removes hx hr hs hn) (sliceRemove_spdm _ _ _) (Nat.zero_le _)
    rw [hsame.slm rfl, sliceRemove_slm]
    exact ⟨hans, SMap.find_del_self _ _, fun k hk => SMap.find_del_ne _ hk⟩
  case query =>
    have hans := (opDef_gives (layout := fun p => p.length == 4) (work := fun c p s => (sliceQuery c (u16 p 0) s, s)) h (by simp [hl])
      rfl rfl (Nat.le_trans (length_sliceQuery _ _ _) (by decide))).1
    refine ⟨fun hc => hans.trans ?_, fun hc => hans.trans ?_, fun hc hs hq => hans.trans ?_, fun hc hs hq => hans.trans ?_⟩
    · simp [sliceQuery, hc, hx, ansOk]
    · simp [sliceQuery, hc]
    · simp [sliceQuery, hc, hs, hq, hx]
    · simp [sliceQuery, hc, hs, hq, ansSt]

end Sys2Proof

/-! SUPPORT. Shares and the reset of a slice (R174, R175, R177, R180, R188). -/
namespace Sys2Proof
open Sys2Proof.Machine

/-- An admitted write does its work, and its answer changes the access record alone. -/
theorem gated_of_admitted {s : State} {m : Master} {a q : Nat} (h : decideWrite s (whoOf s m) a = .admitted q) (f : State → State) :
    gated s m a f = fabAnswer (f s) ST_OK 0 false := by
  rw [gated, h]

theorem sharesSet_spdm (s : State) (n : Nat) (v : Shares) : (sharesSet s n v).2.spdm = s.spdm :=
  (sharesSet_frame (m := 94210) s n v (Nat.and_self _) (.refl _ s)).out.spdm rfl

/-- Shares within the rules are staged for the next epoch (R174, R175, R177). -/
theorem sharesSet_stages {s : State} {n : Nat} {x : Slice} {v : Shares} (hx : SMap.find s.slm.slices n = some x)
    (hr : x.resetting = false) (hw : 1 ≤ v.weight) (hw' : v.weight ≤ 255) (hl : v.lat ≤ 3) (hp : v.power ≤ 1023) (hc : v.cap ≤ 65535)
    (hi : x.iso = true → v.power ≠ 0) (hs : powerNext s n + v.power ≤ 1024) :
    (sharesSet s n v).1 = ST_OK ∧ SMap.find (sharesSet s n v).2.slm.slices n = some { x with next := some v } := by
  have hin : ¬(v.weight = 0 ∨ 255 < v.weight ∨ 3 < v.lat ∨ 1023 < v.power ∨ 65535 < v.cap ∨ (x.iso = true ∧ v.power = 0)) := by
    simp only [not_or, not_and]
    exact ⟨Nat.one_le_iff_ne_zero.1 hw, Nat.not_lt.2 hw', Nat.not_lt.2 hl, Nat.not_lt.2 hp, Nat.not_lt.2 hc, hi⟩
  have hset : sharesSet s n v = (ST_OK, journalDef (sliceUpd s n fun x => { x with next := some v }) 0 n) := by
    simp only [sharesSet, hx, hr, if_neg hin, if_neg (Nat.not_lt.2 hs), Bool.false_eq_true, if_false]
  rw [hset]
  refine ⟨rfl, ?_⟩
  rw [journalDef_slm, find_sliceUpd_self, hx]
  rfl

/-- A write of a slice's share register with values within the rules stages them (R188). -/
theorem slmShareStage_stages {s : State} {m : Master} {cap : Bool} {v : Word} {x : Slice} {w : Shares}
    (hx : SMap.find s.slm.slices (slmSel s m) = some x)
    (hw : (if cap then { sharesNext x with cap := bits v.toNat 16 16 }
      else { sharesNext x with weight := bits v.toNat 0 8, lat := bits v.toNat 8 2, power := bits v.toNat 16 10 }) = w)
    (hs : SMap.find (sharesSet s (slmSel s m) w).2.slm.slices (slmSel s m) = some { x with next := some w })
    (ha : decideWrite s (whoOf s m) (if cap then Reg.SLM_V_BW_CAP else Reg.SLM_V_SHARE_NEXT) = .admitted 0) :
    SMap.find (gated s m (if cap then Reg.SLM_V_BW_CAP else Reg.SLM_V_SHARE_NEXT) fun s => shareStage s m cap v).slm.slices (slmSel s m) =
      some { x with next := some w } := by
  rw [gated_of_admitted ha]
  subst hw
  simp only [shareStage, hx]
  exact hs

/-! ### The reset -/

/-- Steps 1 to 4 of a reset put an active slice into RESETTING (R180). -/
theorem sliceResetStart_resets {s : State} {n : Nat} {x : Slice} (cause : Nat) (hx : SMap.find s.slm.slices n = some x)
    (hr : x.resetting = false) : (sliceResetStart s n cause).1 = ST_OK ∧
      (SMap.find (sliceResetStart s n cause).2.slm.slices n).map (fun y => (y.resetting, y.since, y.cause)) =
        some (true, now s, if carded s (midSlice n) then 3 else cause) := by
  have hstart : sliceResetStart s n cause = (ST_OK, slmShow (sliceSquash (ctxHalt (sliceUpd s n fun x =>
      { x with resetting := true, since := now s, cause := if carded s (midSlice n) then 3 else cause }) n) n)) := by
    simp [sliceResetStart, hx, hr]
  rw [hstart]
  refine ⟨rfl, ?_⟩
  dsimp only
  generalize hu : sliceUpd s n _ = u
  have hkept : (slmShow (sliceSquash (ctxHalt u n) n)).slm = u.slm :=
    (slmShow_slm _).trans ((sliceSquash_frame (m := 1567234) _ n (by decide) (ctxHalt_frame u n (by decide) (.refl _ u))).slm rfl)
  rw [hkept, ← hu, find_sliceUpd_self, hx]
  rfl

theorem sliceResetStart_spdm (s : State) (n cause : Nat) : (sliceResetStart s n cause).2.spdm = s.spdm :=
  (sliceResetStart_frame (m := 1571330) s n cause (Nat.and_self _) (.refl _ s)).out.spdm rfl

/-- How often a slice has been reset, which a note of its being busy leaves. -/
def resetsOf (s : State) (n : Nat) : Option Nat := (SMap.find s.slm.slices n).map Slice.resets

theorem resetsOf_congr {s t : State} (h : t.slm = s.slm) (n : Nat) : resetsOf t n = resetsOf s n := by
  unfold resetsOf; rw [h]

theorem find_upd_map {α β : Type} {g : α → β} {f : α → α} (h : ∀ a, g (f a) = g a) (m : SMap α) (k j : Nat) :
    (SMap.find (SMap.upd m k f) j).map g = (SMap.find m j).map g := by
  by_cases e : j = k
  · subst e
    rw [find_upd_self, Option.map_map]
    exact congrArg (fun f => Option.map f _) (funext h)
  · rw [find_upd_ne m f e]

theorem resetsOf_busyNote (s : State) (o : Option Nat) (n : Nat) : resetsOf (busyNote s o) n = resetsOf s n := by
  cases o with
  | none => rfl
  | some k =>
    refine find_upd_map (fun x => ?_) s.slm.slices k n
    split <;> split <;> rfl

theorem psRefresh_ctxShow_slm (s : State) : (psRefresh (ctxShow s)).slm = s.slm :=
  (psRefresh_frame (m := 2100226) _ (by decide) (ctxShow_frame s (by decide) (.refl _ s))).slm rfl

theorem resetsOf_ctxFree (s : State) (x n : Nat) : resetsOf (ctxFree s x) n = resetsOf s n := by
  unfold ctxFree
  extract_lets u o
  have hu : u.slm = s.slm := by
    simp only [u]
    split
    · split <;> rfl
    · rfl
  exact (resetsOf_congr (psRefresh_ctxShow_slm _) n).trans ((resetsOf_busyNote _ o n).trans (resetsOf_congr hu n))

theorem resetsOf_ctxSquash (s : State) (x n : Nat) : resetsOf (ctxSquash s x) n = resetsOf s n :=
  resetsOf_congr ((ctxSquash_frame (m := 1304578) s x (by decide) (.refl _ s)).slm rfl) n

theorem resetsOf_ctxVanish (s : State) (p : Ctx → Bool) (n : Nat) : resetsOf (ctxVanish s p) n = resetsOf s n := by
  unfold ctxVanish
  generalize s.hst.ctx.filter _ = l
  induction l generalizing s with
  | nil => rfl
  | cons e l ih => exact (ih _).trans ((resetsOf_ctxFree _ _ n).trans (resetsOf_ctxSquash s e.1 n))

/-- Ending the deletions that waited leaves the queues (R182). -/
theorem foldl_ctxEnd_queues (l : List (Nat × Sq)) (s : State) :
    let t := l.foldl (fun s e => match e.2.del with | some c => ctxEnd s c 0 0 0 | none => s) s
    t.hst.sqs = s.hst.sqs ∧ t.hst.cqs = s.hst.cqs := by
  induction l generalizing s with
  | nil => exact ⟨rfl, rfl⟩
  | cons e l ih =>
    obtain ⟨h1, h2⟩ := ih (match e.2.del with | some c => ctxEnd s c 0 0 0 | none => s)
    refine ⟨h1.trans ?_, h2.trans ?_⟩
    all_goals cases e.2.del <;> rfl

/-- The queues that lie in a slice's slots are gone (R182). -/
theorem sliceQueuesDrop_queues (s : State) (x : Slice) : (sliceQueuesDrop s x).hst.sqs = SMap.keep s.hst.sqs (fun k _ => !queueIn x k) ∧
    (sliceQueuesDrop s x).hst.cqs = SMap.keep s.hst.cqs (fun k _ => !queueIn x k) := by
  unfold sliceQueuesDrop
  exact foldl_ctxEnd_queues _ _

theorem mem_keep {α : Type} {m : SMap α} {p : Nat → α → Bool} {e : Nat × α} (h : e ∈ SMap.keep m p) : p e.1 e.2 = true :=
  (List.mem_filter.1 h).2

/-- Step 6 of a reset: the slice is active again, the reset counted and recorded (R180, R584). -/
def resetEnded (u : State) (n : Nat) (x : Slice) : State :=
  let s := sliceUpd u n fun x => { x with resetting := false, resets := x.resets + 1, lastReset := now u }
  let s := cardReset (finc s Fld.SLM_RESETS_COMPLETED) (midSlice n)
  psRefresh (slmShow (post s 2 1 true x.cause ((now s - x.since) / 1000) n 0))

theorem sliceResetEnd_eq {s : State} {n : Nat} {x : Slice} (hx : SMap.find s.slm.slices n = some x) (hr : x.resetting = true) :
    sliceResetEnd s n =
      resetEnded (quarantineEnd (sliceQueuesDrop (ctxVanish s fun c => c.slice == some n) x) fun b => b.acct == n) n x := by
  simp [sliceResetEnd, hx, hr, resetEnded]

theorem resetEnded_slm (u : State) (n : Nat) (x : Slice) : (resetEnded u n x).slm =
    (sliceUpd u n fun x => { x with resetting := false, resets := x.resets + 1, lastReset := now u }).slm :=
  (psRefresh_frame (m := 2100290) _ (by decide) (slmShow_frame _ (by decide) (post_frame _ _ _ _ _ _ _ _ (by decide)
    (cardReset_frame _ _ (by decide) (finc_frame _ _ (by decide) (.refl _ _)))))).slm rfl

theorem resetEnded_hst (u : State) (n : Nat) (x : Slice) : hstCore (resetEnded u n x).hst = hstCore u.hst :=
  (psRefresh_calm _).hst.trans <| congrArg hstCore <|
    ((slmShow_frame (m := 2098242) _ (by decide) (post_frame _ _ _ _ _ _ _ _ (by decide)
      (cardReset_frame _ _ (by decide) (finc_frame _ _ (by decide) (.refl _ _))))).hst rfl)

/-- The removal of the queues and the end of the quarantine change the host side and the buffers (R182, R382). -/
theorem quarantineEnd_sliceQueuesDrop_frame (s : State) (x : Slice) (p : Buf → Bool) :
    Same 264194 s (quarantineEnd (sliceQueuesDrop s x) p) :=
  quarantineEnd_frame _ _ (by decide) (sliceQueuesDrop_frame s x (by decide) (.refl _ s))

theorem quarantineEnd_hst (s : State) (p : Buf → Bool) : (quarantineEnd s p).hst = s.hst :=
  (quarantineEnd_frame (m := 262146) s p (Nat.and_self _) (.refl _ s)).hst rfl

/-- SLICE_RESET_COMPLETE ends the reset, counts it and removes the slice's queues (R180, R182). -/
theorem sliceResetEnd_ends {s : State} {n : Nat} {x : Slice} (hx : SMap.find s.slm.slices n = some x) (hr : x.resetting = true) :
    (SMap.find (sliceResetEnd s n).slm.slices n).map (fun y => (y.resetting, y.resets, y.lastReset)) = some (false, x.resets + 1, now s) ∧
      (∀ e ∈ (sliceResetEnd s n).hst.sqs, queueIn x e.1 = false) ∧ ∀ e ∈ (sliceResetEnd s n).hst.cqs, queueIn x e.1 = false := by
  rw [sliceResetEnd_eq hx hr]
  generalize hv : ctxVanish s _ = v
  generalize hu : quarantineEnd (sliceQueuesDrop v x) _ = u
  have hvu := quarantineEnd_sliceQueuesDrop_frame v x fun b => b.acct == n
  rw [hu] at hvu
  have hnow : now u = now s := congrArg Tmb.time
    ((hvu.tmb rfl).trans (hv ▸ (ctxVanish_frame (m := 3406850) s _ (Nat.and_self _) (.refl _ s)).tmb rfl))
  have hresets : resetsOf u n = some x.resets := by
    rw [resetsOf_congr (hvu.slm rfl), ← hv, resetsOf_ctxVanish, resetsOf, hx]
    rfl
  have hhst := resetEnded_hst u n x
  have hqueues : u.hst = (sliceQueuesDrop v x).hst := hu ▸ quarantineEnd_hst _ _
  rw [hqueues] at hhst
  obtain ⟨hsqs, hcqs⟩ := sliceQueuesDrop_queues v x
  refine ⟨?_, fun e he => ?_, fun e he => ?_⟩
  · obtain ⟨y, hy, hyr⟩ := Option.map_eq_some_iff.1 hresets
    rw [resetEnded_slm, find_sliceUpd_self, hy, hnow, ← hyr]
    rfl
  · rw [show (resetEnded u n x).hst.sqs = _ from (congrArg Hst.sqs hhst).trans hsqs] at he
    simpa using mem_keep he
  · rw [show (resetEnded u n x).hst.cqs = _ from (congrArg Hst.cqs hhst).trans hcqs] at he
    simpa using mem_keep he

/-- Settles O23: staging by `sharesSet_stages`, the reset by its two ends. -/
theorem sliceSharesAndResets : Obligations.SliceSharesAndResets := by
  unfold Obligations.SliceSharesAndResets
  refine ⟨fun r s s1 c p x h hl hx hr hw hlat hp hi hs => ⟨_, rfl, ?setShares⟩,
    fun m v x s ha hx hr hw hs hi hc => ⟨_, rfl, ?share⟩, fun m v x s ha hx hr hw hw' hlat hp hs hi => ⟨_, rfl, ?cap⟩,
    fun r s s1 c p x h hl hx hr => ⟨_, rfl, ?reset⟩, fun m v x s ha hv hx hr => ⟨_, rfl, ?start⟩,
    fun n x s hx hr => ⟨_, rfl, sliceResetEnd_ends hx hr⟩⟩
  case setShares =>
    have hset := sharesSet_stages (v := { weight := u8 p 2, lat := u8 p 3, power := u16 p 4, cap := u16 p 6 }) hx hr hw
      (Nat.le_of_lt_succ (u8_lt p 2)) hlat hp (Nat.le_of_lt_succ (u16_lt p 6)) hi hs
    obtain ⟨hok, hfind⟩ := hset
    obtain ⟨hans, hsame⟩ := opDef_gives (layout := fun p => p.length == 8) (work := fun _ p s => setShares p s) h (by simp [hl])
      (s2 := (setShares p s1).2) (a := ansOk (le 8 (epochOf (now s1) + 1))) (by simp [setShares, hok, nextEpoch]) (sharesSet_spdm _ _ _)
      (by simp [ansOk])
    exact ⟨hans, (congrArg (fun m => SMap.find m.slices _) (hsame.slm rfl)).trans hfind⟩
  case share =>
    have hset := sharesSet_stages hx hr
      (v := { sharesNext x with weight := bits v.toNat 0 8, lat := bits v.toNat 8 2, power := bits v.toNat 16 10 }) hw
      (Nat.le_of_lt_succ (bits_lt v.toNat 0 8)) (Nat.le_of_lt_succ (bits_lt v.toNat 8 2)) (Nat.le_of_lt_succ (bits_lt v.toNat 16 10)) hc hi
      (Nat.add_comm _ _ ▸ hs)
    exact slmShareStage_stages (cap := false) hx rfl hset.2 ha
  case cap =>
    have hset := sharesSet_stages hx hr (v := { sharesNext x with cap := bits v.toNat 16 16 }) hw hw' hlat hp
      (Nat.le_of_lt_succ (bits_lt v.toNat 16 16)) hi (Nat.add_comm _ _ ▸ hs)
    exact slmShareStage_stages (cap := true) hx rfl hset.2 ha
  case reset =>
    obtain ⟨hok, hfind⟩ := sliceResetStart_resets 1 hx hr
    obtain ⟨hans, hsame⟩ := opDef_gives (layout := fun p => p.length == 4) (work := fun _ p s =>
        let a := sliceResetStart s (u16 p 0) 1
        (if a.1 = ST_OK then ansOk [] else ansSt a.1, a.2)) h (by simp [hl])
      (s2 := (sliceResetStart s1 (u16 p 0) 1).2) (a := ansOk []) (by simp [hok]) (sliceResetStart_spdm _ _ _) (Nat.zero_le _)
    exact ⟨hans, (congrArg (fun m => (SMap.find m.slices _).map _) (hsame.slm rfl)).trans hfind⟩
  case start =>
    rw [gated_of_admitted ha]
    simp only [wrSliceReset, hv, if_true]
    exact (sliceResetStart_resets 2 hx hr).2

end Sys2Proof

/-! SUPPORT. What a record of the journal leaves of namespaces, zones and placement (R297, R324). -/
namespace Sys2Proof
open Sys2Proof.Machine

/-- Placement without what taking a block for metadata moves. -/
def plcCore (p : Plc) : Plc := { p with token := 0, gFree := [] }

theorem metaTake_plc {s : State} {c : Nat} {e : MetaOpen × State} (h : metaTake s c = some e) : plcCore e.2.plc = plcCore s.plc := by
  unfold metaTake at h
  dsimp only at h
  split at h
  · cases h
  · next g hg =>
    split at h
    · cases h
    · next b hb =>
      cases h
      dsimp only
      generalize hu : List.foldl _ s _ = u
      have he : u.plc = s.plc := hu ▸ (Same.foldl (m := 65536) (fun _ h m => blockErased_frame _ _ _ _ (Nat.and_self _) h) _ s (.refl _ s)).plc rfl
      rw [(grpRefresh_frame (m := 2) _ g (Nat.and_self _) (.refl _ _)).plc rfl, ← he]
      rfl

theorem metaBlock_plc {s : State} {c : Nat} {e : MetaOpen × State} (h : metaBlock s c = some e) : plcCore e.2.plc = plcCore s.plc := by
  unfold metaBlock at h
  split at h
  · next o ho =>
    split at h
    · cases h
      rfl
    · exact (metaTake_plc h).trans (congrArg plcCore ((sbClose_frame (m := 65536) s _ _ (Nat.and_self _) (.refl _ s)).plc rfl))
  · exact metaTake_plc h

theorem metaCopy_plc {s t : State} {c id : Nat} {u : MetaUnit} {a : Option Loc} (h : metaCopy s c id u = (a, t)) :
    plcCore t.plc = plcCore s.plc := by
  unfold metaCopy at h
  split at h
  · next o v hv =>
    cases h
    exact (congrArg plcCore ((metaPlace_frame (m := 65536) v c id u o (Nat.and_self _) (.refl _ v)).out.plc rfl)).trans (metaBlock_plc hv)
  · cases h
    rfl

theorem metaWrite_plc {s t : State} {u : MetaUnit} {b : Bool} (h : metaWrite s u = (b, t)) : plcCore t.plc = plcCore s.plc := by
  unfold metaWrite at h
  dsimp only at h
  split at h
  · next hfirst =>
    split at h
    · next hsecond =>
      cases h
      exact (metaCopy_plc hsecond).trans (metaCopy_plc hfirst)
    · cases h
      rfl
  · cases h
    rfl

theorem tailOut_plc (all : Bool) (k : Nat) (s : State) : plcCore (tailOut all k s).plc = plcCore s.plc := by
  induction k generalizing s with
  | zero => rfl
  | succ k ih =>
    unfold tailOut
    dsimp only
    split
    · rfl
    · split
      · next t ht =>
        refine (ih _).trans (Eq.trans (congrArg plcCore ?_) (metaWrite_plc ht))
        exact (Same.foldl (m := 65536) (fun _ h l => journalBlock_frame _ _ l (Nat.and_self _) h) _ t (.refl _ t)).plc rfl
      · rfl

theorem tailWrite_zne (s : State) (all : Bool) : (tailWrite s all).zne = s.zne :=
  (tailWrite_frame (m := 81922) s all (Nat.and_self _) (.refl _ s)).zne rfl

/-- A record takes the next sequence number, and no more of the zone engine's state (R297). -/
theorem journal_zne (s : State) (ty : Nat) (body : List Nat) : (journal s ty body).zne = { s.zne with seq := s.zne.seq + 1 } := by
  unfold journal journalFor journalHold
  dsimp only
  split
  · rfl
  · exact tailWrite_zne _ _

/-- A record leaves placement but for the blocks that metadata takes. -/
theorem journal_plc (s : State) (ty : Nat) (body : List Nat) : plcCore (journal s ty body).plc = plcCore s.plc := by
  unfold journal journalFor journalHold
  dsimp only
  split
  · rfl
  · exact tailOut_plc _ _ _

theorem journalDef_zne (s : State) (k n : Nat) : (journalDef s k n).zne = { s.zne with seq := s.zne.seq + 1 } := journal_zne s 9 _

theorem journalDef_spdm (s : State) (k n : Nat) : (journalDef s k n).spdm = s.spdm :=
  (journalDef_frame (m := 90114) s k n (Nat.and_self _) (.refl _ s)).spdm rfl

theorem classOf_congr {s t : State} (h : plcCore t.plc = plcCore s.plc) (k : Nat) : classOf t k = classOf s k := by
  have hc := congrArg Plc.classes h
  exact congrArg (fun l => SMap.getD l k ClassEnt.empty) hc

end Sys2Proof

/-! SUPPORT. Namespaces and placement classes (R170, R172, R191, R234, R237, R262). -/
namespace Sys2Proof
open Sys2Proof.Machine

/-- A namespace that is added is listed, and the rest of the zone engine's state but its sequence number stays. -/
theorem nsAdd_zne (s : State) (id : Nat) (x : Ns) :
    (nsAdd s id x).zne = { s.zne with ns := SMap.put s.zne.ns id x, seq := s.zne.seq + 1 } := by
  unfold nsAdd
  dsimp only
  rw [(zneRefresh_frame (m := 2050) _ (by decide) (nsNotice_frame _ _ (by decide) (.refl _ _))).zne rfl, journalDef_zne]

theorem nsAdd_spdm (s : State) (id : Nat) (x : Ns) : (nsAdd s id x).spdm = s.spdm :=
  (nsAdd_frame (m := 92162) s id x (Nat.and_self _) (.refl _ s)).spdm rfl

/-- The namespace that an NS_CREATE request asks for, without its base (R191). -/
def nsAsked (p : List Byte) : Ns :=
  { slice := u16 p 0, zoned := u8 p 2 != 0, zlog := u8 p 3, lbaf := u8 p 4, cap := u64 p 8,
    maxOpen := if u8 p 2 != 0 then u32 p 16 else 0, maxAct := if u8 p 2 != 0 then u32 p 20 else 0, base := 0 }

/-- A request that passes R191 takes the lowest free identifier and the range found. -/
theorem nsCreate_adds {p : List Byte} {s : State} {sl : Slice} {k b : Nat} (hsl : SMap.find s.slm.slices (u16 p 0) = some sl)
    (hr : sl.resetting = false) (hk : k < 16) (hf : SMap.find s.zne.ns (16 * u16 p 0 + k + 1) = none)
    (hj : ∀ j, j < k → (SMap.find s.zne.ns (16 * u16 p 0 + j + 1)).isSome = true)
    (hc : nsCheck s sl.iso (u8 p 2) (u8 p 3) (nsAsked p) = (ST_OK, b)) :
    nsCreate p s = (ansOk (le 4 (16 * u16 p 0 + k + 1)), nsAdd s (16 * u16 p 0 + k + 1) { nsAsked p with base := b }) := by
  have hid : (List.range 16).find? (fun k => (SMap.find s.zne.ns (16 * u16 p 0 + k + 1)).isNone) = some k :=
    List.find?_range_eq_some.2 ⟨by simp [hf], List.mem_range.2 hk, fun j h => by simpa using hj j h⟩
  unfold nsAsked at hc
  simp only [nsCreate, hsl, hr, hid, hc, Bool.false_eq_true, if_false, ne_eq, not_true_eq_false, nsAsked]

/-- A namespace that is removed is listed no more (R172). -/
theorem nsRemove_find (s : State) (id : Nat) (x : Ns) : SMap.find (nsRemove s id x).zne.ns id = none := by
  unfold nsRemove
  dsimp only
  rw [(kstShow_frame (m := 2050) _ (by decide) (zneRefresh_frame _ (by decide) (nsNotice_frame _ _ (by decide) (.refl _ _)))).zne rfl,
    journalDef_zne]
  exact SMap.find_del_self _ _

theorem nsRemove_spdm (s : State) (id : Nat) (x : Ns) : (nsRemove s id x).spdm = s.spdm :=
  (nsRemove_frame (m := 124930) s id x (Nat.and_self _) (.refl _ s)).spdm rfl

theorem nsDelete_removes {id : Nat} {s : State} {x : Ns} (hx : SMap.find s.zne.ns id = some x)
    (hr : ∀ sl, SMap.find s.slm.slices x.slice = some sl → sl.resetting = false) (hk : nsSlot s id = none) :
    nsDelete id s = (ansOk [], nsRemove s id x) := by
  cases hs : SMap.find s.slm.slices x.slice with
  | none => simp [nsDelete, hx, hs, hk]
  | some sl => simp [nsDelete, hx, hs, hr sl hs, hk]

/-- The state with class `c` replaced (R234). -/
def classPut (s : State) (c : Nat) (e : ClassEnt) : State :=
  { s with plc := { s.plc with classes := SMap.putD s.plc.classes c ClassEnt.empty e } }

theorem classWrite_replaces {c : Nat} {e : ClassEnt} {s : State} (hc : c ≤ 63) (he : e.valid = true → classFits e = true)
    (hu : classInUse s c = false) (hg : e.valid = true → e.iso = false → (groupCount s).any (fun g =>
      e.groups.testBit g && grp s Fld.PLC_GRP_PRESENT_GROUPS g && !grp s Fld.PLC_GRP_DEDICATED_GROUPS g) = true) :
    classWrite c e s = (ansOk [], journalDef (classPut s c e) 2 c) := by
  have hfit : ¬(63 < c ∨ (e.valid = true ∧ (!classFits e) = true)) := by
    rintro (h | ⟨hv, hn⟩)
    · omega
    · simp [he hv] at hn
  have hset : (e.valid && !e.iso && !((groupCount s).any fun g =>
      e.groups.testBit g && grp s Fld.PLC_GRP_PRESENT_GROUPS g && !grp s Fld.PLC_GRP_DEDICATED_GROUPS g)) = false := by
    cases hv : e.valid
    · rfl
    · cases hi : e.iso
      · simp [hg hv hi]
      · rfl
  simp only [classWrite, if_neg hfit, hu, hset, Bool.false_eq_true, and_false, if_false, classPut]

/-- A class mask of valid classes of the slice's kind that keeps every class of the old one is set (R237). -/
theorem classMaskSet_sets {n d m : Nat} {s : State} {x : Slice} (hx : SMap.find s.slm.slices n = some x) (hr : x.resetting = false)
    (hd : m.testBit d = true) (hv : ∀ k, k < 64 → m.testBit k = true → (classOf s k).valid = true ∧ (classOf s k).iso = x.iso)
    (hk : ∀ k, k < 64 → x.mask.testBit k = true → m.testBit k = true) :
    classMaskSet n d m s = (ansOk [], journalDef (sliceUpd s n fun x => { x with mask := m, dflt := d }) 3 n) := by
  have hbad : ((List.range 64).any fun c => m.testBit c && (!(classOf s c).valid || (classOf s c).iso != x.iso)) = false := by
    rw [List.any_eq_false]
    intro c hc
    cases hm : m.testBit c
    · simp
    · obtain ⟨h1, h2⟩ := hv c (List.mem_range.1 hc) hm
      simp [h1, h2]
  have hdropped : ∀ held : Nat → Bool, ((List.range 64).any fun c => x.mask.testBit c && !m.testBit c && held c) = false := by
    intro held
    rw [List.any_eq_false]
    intro c hc
    cases hm : x.mask.testBit c
    · simp
    · simp [hk c (List.mem_range.1 hc) hm]
  simp [classMaskSet, hx, hr, hd, hbad, hdropped]

theorem length_classBytes (e : ClassEnt) : (classBytes e).length = 32 := by
  simp [classBytes]

theorem length_flatMap_classBytes (f : Nat → ClassEnt) (l : List Nat) : (l.flatMap fun i => classBytes (f i)).length = 32 * l.length := by
  induction l with
  | nil => rfl
  | cons i l ih => rw [List.flatMap_cons, List.length_append, length_classBytes, ih, List.length_cons, Nat.mul_succ, Nat.add_comm]

/-- A range of entries fits one response (R234). -/
theorem length_classRead {n k : Nat} {f : Nat → ClassEnt} (h : k + n ≤ 64) :
    (ansOk (le 1 n ++ zeros 3 ++ (List.range n).flatMap fun i => classBytes (f i))).pay.length ≤ 4032 := by
  simp only [ansOk, List.length_append, length_le_bytes, length_zeros, length_flatMap_classBytes, List.length_range]
  omega

theorem length_placementStatus (c : Caller) (s : State) : (placementStatus c s).pay.length = 72 := by
  simp [placementStatus, ansOk]

/-- The first 32 bytes of the placement status are its four counts of blocks. -/
theorem placementStatus_head (c : Caller) (s : State) : slice (placementStatus c s).pay 0 32 =
    le 8 (rawBlocks s) ++ le 8 (fget s Fld.PLC_FREE_BLOCKS) ++ le 8 (fget s Fld.PLC_STG_MIN_BLOCKS) ++ le 8 (fget s Fld.PLC_STG_LIMIT_BLOCKS) := by
  have hpre : le 8 (rawBlocks s) ++ le 8 (fget s Fld.PLC_FREE_BLOCKS) ++ le 8 (fget s Fld.PLC_STG_MIN_BLOCKS) ++
      le 8 (fget s Fld.PLC_STG_LIMIT_BLOCKS) <+: (placementStatus c s).pay := by
    simp only [placementStatus, ansOk, List.append_assoc, List.prefix_append_right_inj, List.prefix_append]
  have htake := List.prefix_iff_eq_take.1 hpre
  simp only [List.length_append, length_le_bytes] at htake
  exact htake.symm

/-- Settles O24, clause by clause: what the opcode does to the namespace, the entry or the mask, and that the answer leaves it so. -/
theorem namespacesAndClasses : Obligations.NamespacesAndClasses := by
  unfold Obligations.NamespacesAndClasses
  refine ⟨fun r s s1 c p sl k b h hl hsl hr hk hf hj hc => ⟨_, rfl, ?nsCreate⟩, fun r s s1 c p x h hl hx hr hk => ⟨_, rfl, ?nsDelete⟩,
    fun r s s1 c p e h hl hc he hfit hu hg => ⟨_, rfl, ?classWrite⟩, fun r s s1 c p h hl hn hlim => ⟨_, rfl, ?classRead⟩,
    fun r s s1 c p x h hl hx hr hd hv hk => ⟨_, rfl, ?classMaskSet⟩, fun r s s1 c h => ⟨_, rfl, ?status⟩⟩
  case nsCreate =>
    obtain ⟨hans, hsame⟩ := opDef_gives (layout := fun p => p.length == 32) (work := fun _ p s => nsCreate p s) h (by simp [hl])
      (nsCreate_adds hsl hr hk hf hj hc) (nsAdd_spdm _ _ _) (by simp [ansOk])
    rw [hsame.zne rfl, nsAdd_zne]
    exact ⟨hans, SMap.find_put_self _ _ _⟩
  case nsDelete =>
    obtain ⟨hans, hsame⟩ := opDef_gives (layout := fun p => p.length == 8) (work := fun _ p s => nsDelete (u32 p 0) s) h (by simp [hl])
      (nsDelete_removes hx hr hk) (nsRemove_spdm _ _ _) (Nat.zero_le _)
    rw [hsame.zne rfl]
    exact ⟨hans, nsRemove_find _ _ _⟩
  case classWrite =>
    subst he
    obtain ⟨hans, hsame⟩ := opDef_gives (layout := fun p => p.length == 36)
      (work := fun _ p s => classWrite (u8 p 0) (classParse (slice p 4 32)) s) h (by simp [hl])
      (classWrite_replaces hc hfit hu hg) (journalDef_spdm _ _ _) (Nat.zero_le _)
    generalize mbxRun _ r s = t at hans hsame ⊢
    have hcls := classOf_congr ((congrArg plcCore (hsame.plc rfl)).trans (journal_plc _ _ _))
    exact ⟨hans, (hcls _).trans (SMap.getD_putD_self _ _ _ _), fun k hk => (hcls k).trans (SMap.getD_putD_ne _ _ _ _ hk)⟩
  case classRead =>
    have hread : classRead (u8 p 0) (u8 p 1) s1 = ansOk (le 1 (u8 p 1) ++ zeros 3 ++
        (List.range (u8 p 1)).flatMap fun i => classBytes (classOf s1 (u8 p 0 + i))) := by
      simp [classRead, hn, Nat.not_lt.2 hlim]
    have hans := (opDef_gives (layout := fun p => p.length == 4) (work := fun _ p s => (classRead (u8 p 0) (u8 p 1) s, s)) h (by simp [hl])
      (Prod.ext hread rfl) rfl (length_classRead hlim)).1
    exact hans
  case classMaskSet =>
    obtain ⟨hans, hsame⟩ := opDef_gives (layout := fun p => p.length == 12)
      (work := fun _ p s => classMaskSet (u16 p 0) (u8 p 2) (u64 p 4) s) h (by simp [hl])
      (classMaskSet_sets hx hr hd hv hk) (journalDef_spdm _ _ _) (Nat.zero_le _)
    rw [hsame.slm rfl, journalDef_slm, find_sliceUpd_self, hx]
    exact ⟨hans, rfl⟩
  case status =>
    exact ⟨(opRead_answers (f := placementStatus) h (by simp [length_placementStatus])).1, placementStatus_head c s1⟩

end Sys2Proof

/-! SUPPORT. A stripe prepared where the table of stripes is not in its canonical form: a unit that waits for a slot of the stream takes it
in an older entry of the same number, which then stands for the new stripe. -/
namespace Sys2Proof
open Sys2Proof.Machine

/-- A stripe of stream 0 in group 5 with one free slot, and one of no stream. -/
def stripeInGroup5 : Stripe :=
  { key := some 0, zone := none, mode := 0, group := 5, set0 := 0, width := 1, block := 0, row := 0, par7 := false, half := 0, mem := [0],
    par := 1, members := [.free], parity := none, last := 0, toProg := [] }
def stripeOfNoStream : Stripe := { stripeInGroup5 with key := none }

/-- The plane set of group 0 in which stream 0 prepares its stripes. -/
def openInGroup0 : OpenSb := { set0 := 0, width := 1, mode := 0, par7 := false, next := 0 }

/-- Placement with an entry 0 of the table of stripes behind entry 1, the next stripe numbered 0, and a unit of stream 0 that waits. -/
def unsortedPlc : Plc :=
  { Plc.reset with
    classes := [(0, { ClassEnt.empty with valid := true, mode := 3, groups := 1 })]
    streams := [(0, { mode := 0, last := 0 })]
    stripes := [(1, stripeOfNoStream), (0, stripeInGroup5)]
    opens := [(0, openInGroup0)]
    nextStripe := 0
    homeless := [{ stripe := 9, member := 0, key := 0, content := .claimed }] }

/-- Placement is enabled, group 0 is present, and an SLC block has four pages. -/
def unsortedStripes : State :=
  (List.range 16).foldl (fun s c => fset s (Fld.CHS_PAGES_ST_SLC c) 4)
    (fset (fset { State.reset with plc := unsortedPlc } Fld.PLC_CTRL_EN 1) (Fld.PLC_GRP_PRESENT_GROUPS 0) 1)

/-- The group in which the stripe is prepared, and the state: there is such a group. -/
def unsortedPrepared : Nat × State := (prepareIn unsortedStripes 0).getD (0, unsortedStripes)

theorem prepareIn_unsortedStripes : prepareIn unsortedStripes 0 = some (unsortedPrepared.1, unsortedPrepared.2) := by
  obtain ⟨e, he⟩ := Option.isSome_iff_exists.1 (show (prepareIn unsortedStripes 0).isSome = true by decide +kernel)
  rw [unsortedPrepared, he]
  rfl

theorem exec_stripePrepare (k : Nat) (s : State) : exec (.stripePrepare k) s = .next (stripePrepare s k) := rfl

/-- Refutes O56: the table of stripes lists entry 0, a stripe of stream 0 in group 5, behind entry 1. The stripe that STRIPE_PREPARE
prepares under number 0 goes to the front; as no die of its group is in service it has no free slot, so the waiting unit of the stream takes
the one of the old entry, and the entry then found under number 0 lies in group 5. The clause "stripePrepare" lacks the premise that the
table's keys rise. -/
theorem not_placementAndServing : ¬ Obligations.PlacementAndServing := by
  unfold Obligations.PlacementAndServing
  rintro ⟨-, prepares, -⟩
  obtain ⟨t, ht, hfound⟩ := prepares 0 unsortedPrepared.1 openInGroup0 unsortedStripes unsortedPrepared.2 (by decide +kernel) (by decide +kernel)
    (by decide +kernel) (by decide +kernel) prepareIn_unsortedStripes (by decide +kernel) (by decide +kernel) (.inl rfl)
  obtain rfl : stripePrepare unsortedStripes 0 = t := Host.Outcome.next.inj ((exec_stripePrepare 0 unsortedStripes).symm.trans ht)
  exact absurd hfound (by decide +kernel)

end Sys2Proof
